-- ==== Sys2Proof/Word.lean ====
section
/-! DEFINITION. The word types of the module (R4, R5, R6) and their plainest arithmetic. -/

namespace Sys2Proof

/-- A 32-bit register or memory word (R6). -/
abbrev Word := BitVec 32

/-- A 64-bit value, held in a register pair or two words (R306). -/
abbrev DWord := BitVec 64

/-- One byte of memory. -/
abbrev Byte := BitVec 8

end Sys2Proof
end

