-- ==== Sys2Proof/Syntax.lean ====
section
/-! DEFINITION. The commands of the module: one constructor per row of the table of operations and events. -/

namespace Sys2Proof

/-- A core pair (R301). -/
inductive Pair where
  | system | program
deriving DecidableEq, Repr

/-- Who writes a register (R14 to R17): the system pair, the program pair, or an expert-authority
Nypeha session. -/
inductive Writer where
  | system | program | session
deriving DecidableEq, Repr

/-- The number of a general register, w0 to w31 (R306). -/
abbrev GReg := BitVec 5

/-- The number of a vector register, v0 to v7 (R340). -/
abbrev VReg := BitVec 3

/-- The number of a mask register, m0 to m3 (R340). -/
abbrev MReg := BitVec 2

/-- The second source of a format V instruction: a vector register (SC 0) or a broadcast general
register (SC 1), R343. -/
inductive VSrc where
  | vec (vb : VReg)
  | bcast (wb : GReg)
deriving DecidableEq, Repr

/-- The mask enable and mask index fields of a vector instruction (R341). -/
structure VMask where
  me : Bool
  mi : MReg
deriving DecidableEq, Repr

/-- How the frame that a slot belongs to goes on behind the slot: more symbols of it follow, or it ended with a good or with a bad
CRC-32C, by ABORT, or with a code violation (R73, R83, R98). -/
inductive FrameEnd where
  | more | good | badCrc | abort | code
deriving DecidableEq, Repr

/-- How a message of the plant profile arrives: the extended identifier of a CAN FD frame, or the port of a UDP datagram
with the four bytes of its header: TYPE, string address, direction and version (R271). -/
inductive PlantHead where
  | can (id : BitVec 29)
  | udp (port : BitVec 16) (type adr dir ver : Byte)
deriving DecidableEq, Repr

/-- What one node answers to an enumeration (R76, R88): NCAPS, LOOPT, LATCHOFS, and the round trips in ns of the echoes that came
back, from the A end and from the far end. -/
structure EnumNode where
  ncaps : BitVec 16
  loopt : BitVec 16
  latchofs : BitVec 16
  rttA : List (BitVec 24)
  rttB : List (BitVec 24)
deriving DecidableEq, Repr


/-- A parameter block as PARAMWRITE carries it (R18, R507): numbered fields, OCV tables, the register values that system
firmware writes from it, and for the dispatch block the profile's steps and GCV (R276). -/
structure ParamBlock where
  fields : List (Nat × Nat)
  tables : List (Nat × List (BitVec 8))
  images : List (BitVec 32 × BitVec 32)
  steps : List (List (BitVec 8))
  gcv : Int
deriving DecidableEq, Repr

/-- A force entry of an IMAGE frame: its index and its four words (Table 15.3). -/
structure ForceRow where
  idx : BitVec 8
  w0 : BitVec 32
  w1 : BitVec 32
  w2 : BitVec 32
  w3 : BitVec 32
deriving DecidableEq, Repr

/-- The registers and state of the final round of a resynchronisation (R410): w1 to w31, v0 to v7, m0 to m3, VL, s.fcsr,
s.status DZ and OV, SYS_EXPOWN0 and SYS_EXPOWN1, CYC_NUM. -/
structure JoinState where
  w : List (BitVec 32)
  v : List (List (BitVec 32))
  m : List (BitVec 64)
  vl : BitVec 7
  fcsr : BitVec 32
  dz : Bool
  ov : Bool
  own0 : BitVec 32
  own1 : BitVec 32
  cycle : BitVec 32
deriving DecidableEq, Repr

/-- The commands the module takes from outside, one constructor per row of the table of operations
and events, each with the operands its rule gives it. -/
inductive Instr where
  /-- ADD (R310): Integer addition modulo 2^32. -/
  | add (p : Pair) (d a b : GReg)
  /-- SUB (R310): Integer subtraction modulo 2^32. -/
  | sub (p : Pair) (d a b : GReg)
  /-- AND (R310): Bitwise AND. -/
  | and (p : Pair) (d a b : GReg)
  /-- OR (R310): Bitwise OR. -/
  | or (p : Pair) (d a b : GReg)
  /-- XOR (R310): Bitwise XOR. -/
  | xor (p : Pair) (d a b : GReg)
  /-- NOR (R310): Bitwise NOR. -/
  | nor (p : Pair) (d a b : GReg)
  /-- SLT (R310): Signed set-less-than. -/
  | slt (p : Pair) (d a b : GReg)
  /-- SLTU (R310): Unsigned set-less-than. -/
  | sltu (p : Pair) (d a b : GReg)
  /-- SLL (R310): Logical shift left by register. -/
  | sll (p : Pair) (d a b : GReg)
  /-- SRL (R310): Logical shift right by register. -/
  | srl (p : Pair) (d a b : GReg)
  /-- SRA (R310): Arithmetic shift right by register. -/
  | sra (p : Pair) (d a b : GReg)
  /-- ROR (R310): Rotate right by register. -/
  | ror (p : Pair) (d a b : GReg)
  /-- SLLI (R310): Logical shift left by immediate count. -/
  | slli (p : Pair) (d a : GReg) (sh : BitVec 5)
  /-- SRLI (R310): Logical shift right by immediate count. -/
  | srli (p : Pair) (d a : GReg) (sh : BitVec 5)
  /-- SRAI (R310): Arithmetic shift right by immediate count. -/
  | srai (p : Pair) (d a : GReg) (sh : BitVec 5)
  /-- RORI (R310): Rotate right by immediate count. -/
  | rori (p : Pair) (d a : GReg) (sh : BitVec 5)
  /-- MIN (R310): Signed minimum. -/
  | min (p : Pair) (d a b : GReg)
  /-- MAX (R310): Signed maximum. -/
  | max (p : Pair) (d a b : GReg)
  /-- MINU (R310): Unsigned minimum. -/
  | minu (p : Pair) (d a b : GReg)
  /-- MAXU (R310): Unsigned maximum. -/
  | maxu (p : Pair) (d a b : GReg)
  /-- ADDS (R310): Saturating signed addition. -/
  | adds (p : Pair) (d a b : GReg)
  /-- SUBS (R310): Saturating signed subtraction. -/
  | subs (p : Pair) (d a b : GReg)
  /-- CLZ (R310): Count of leading zeros. -/
  | clz (p : Pair) (d a : GReg)
  /-- POPC (R310): Count of ones. -/
  | popc (p : Pair) (d a : GReg)
  /-- EXTB (R310): Sign-extend the low byte. -/
  | extb (p : Pair) (d a : GReg)
  /-- EXTH (R310): Sign-extend the low halfword. -/
  | exth (p : Pair) (d a : GReg)
  /-- JR (R317): Jump to the address in a register. -/
  | jr (p : Pair) (a : GReg)
  /-- JALR (R317): Jump to a register address and link. -/
  | jalr (p : Pair) (d a : GReg)
  /-- ADDI (R309): Add a sign-extended immediate. -/
  | addi (p : Pair) (d a : GReg) (imm : BitVec 16)
  /-- ANDI (R309): AND with a zero-extended immediate. -/
  | andi (p : Pair) (d a : GReg) (imm : BitVec 16)
  /-- ORI (R309): OR with a zero-extended immediate. -/
  | ori (p : Pair) (d a : GReg) (imm : BitVec 16)
  /-- XORI (R309): XOR with a zero-extended immediate. -/
  | xori (p : Pair) (d a : GReg) (imm : BitVec 16)
  /-- SLTI (R309): Signed set-less-than immediate. -/
  | slti (p : Pair) (d a : GReg) (imm : BitVec 16)
  /-- SLTIU (R309): Unsigned set-less-than immediate. -/
  | sltiu (p : Pair) (d a : GReg) (imm : BitVec 16)
  /-- LUI (R309): Load the immediate into the upper half. -/
  | lui (p : Pair) (d : GReg) (imm : BitVec 16)
  /-- MUL (R311): Low 32 bits of a product. -/
  | mul (p : Pair) (d a b : GReg)
  /-- MULH (R311): High 32 bits of a signed product. -/
  | mulh (p : Pair) (d a b : GReg)
  /-- MULHU (R311): High 32 bits of an unsigned product. -/
  | mulhu (p : Pair) (d a b : GReg)
  /-- DIV (R311): Signed division that never traps. -/
  | div (p : Pair) (d a b : GReg)
  /-- DIVU (R311): Unsigned division that never traps. -/
  | divu (p : Pair) (d a b : GReg)
  /-- REM (R311): Signed remainder. -/
  | rem (p : Pair) (d a b : GReg)
  /-- REMU (R311): Unsigned remainder. -/
  | remu (p : Pair) (d a b : GReg)
  /-- QMUL15 (R312): Q1.15 multiply with rounding and saturation. -/
  | qmul15 (p : Pair) (d a b : GReg)
  /-- QMUL31 (R312): Q1.31 multiply with rounding and saturation. -/
  | qmul31 (p : Pair) (d a b : GReg)
  /-- QADD15 (R312): Saturating Q1.15 addition. -/
  | qadd15 (p : Pair) (d a b : GReg)
  /-- QSUB15 (R312): Saturating Q1.15 subtraction. -/
  | qsub15 (p : Pair) (d a b : GReg)
  /-- QMAC31 (R312): Q1.31 multiply-accumulate with saturation. -/
  | qmac31 (p : Pair) (d a b : GReg)
  /-- QSAT16 (R312): Clamp to the 16-bit signed range. -/
  | qsat16 (p : Pair) (d a : GReg)
  /-- FADD (R313): Binary32 addition. -/
  | fadd (p : Pair) (d a b : GReg)
  /-- FSUB (R313): Binary32 subtraction. -/
  | fsub (p : Pair) (d a b : GReg)
  /-- FMUL (R313): Binary32 multiplication. -/
  | fmul (p : Pair) (d a b : GReg)
  /-- FDIV (R313): Binary32 division. -/
  | fdiv (p : Pair) (d a b : GReg)
  /-- FSQRT (R313): Binary32 square root. -/
  | fsqrt (p : Pair) (d a : GReg)
  /-- FMIN (R313): Binary32 minimum. -/
  | fmin (p : Pair) (d a b : GReg)
  /-- FMAX (R313): Binary32 maximum. -/
  | fmax (p : Pair) (d a b : GReg)
  /-- FMADD (R313): Fused binary32 multiply-add. -/
  | fmadd (p : Pair) (d a b : GReg)
  /-- FEQ (R313): Quiet binary32 equality. -/
  | feq (p : Pair) (d a b : GReg)
  /-- FLT (R313): Signalling binary32 less-than. -/
  | flt (p : Pair) (d a b : GReg)
  /-- FLE (R313): Signalling binary32 less-or-equal. -/
  | fle (p : Pair) (d a b : GReg)
  /-- FCVTWS (R313): Binary32 to integer, toward zero. -/
  | fcvtws (p : Pair) (d a : GReg)
  /-- FCVTSW (R313): Signed integer to binary32. -/
  | fcvtsw (p : Pair) (d a : GReg)
  /-- FCVTSWU (R313): Unsigned integer to binary32. -/
  | fcvtswu (p : Pair) (d a : GReg)
  /-- FNEG (R313): Invert the sign bit. -/
  | fneg (p : Pair) (d a : GReg)
  /-- FABS (R313): Clear the sign bit. -/
  | fabs (p : Pair) (d a : GReg)
  /-- FCVTSD (R313): Binary64 pair to binary32. -/
  | fcvtsd (p : Pair) (d a : GReg)
  /-- FCVTDS (R313): Binary32 to a binary64 pair. -/
  | fcvtds (p : Pair) (d a : GReg)
  /-- DADD (R313): Binary64 addition on register pairs. -/
  | dadd (p : Pair) (d a b : GReg)
  /-- DSUB (R313): Binary64 subtraction. -/
  | dsub (p : Pair) (d a b : GReg)
  /-- DMUL (R313): Binary64 multiplication. -/
  | dmul (p : Pair) (d a b : GReg)
  /-- DDIV (R313): Binary64 division. -/
  | ddiv (p : Pair) (d a b : GReg)
  /-- DSQRT (R313): Binary64 square root. -/
  | dsqrt (p : Pair) (d a : GReg)
  /-- DMIN (R313): Binary64 minimum. -/
  | dmin (p : Pair) (d a b : GReg)
  /-- DMAX (R313): Binary64 maximum. -/
  | dmax (p : Pair) (d a b : GReg)
  /-- DMADD (R313): Fused binary64 multiply-add. -/
  | dmadd (p : Pair) (d a b : GReg)
  /-- DEQ (R313): Binary64 equality. -/
  | deq (p : Pair) (d a b : GReg)
  /-- DLT (R313): Binary64 less-than. -/
  | dlt (p : Pair) (d a b : GReg)
  /-- DLE (R313): Binary64 less-or-equal. -/
  | dle (p : Pair) (d a b : GReg)
  /-- DCVTWS (R313): Binary64 to integer, toward zero. -/
  | dcvtws (p : Pair) (d a : GReg)
  /-- DNEG (R313): Invert the binary64 sign. -/
  | dneg (p : Pair) (d a : GReg)
  /-- DABS (R313): Clear the binary64 sign. -/
  | dabs (p : Pair) (d a : GReg)
  /-- LDW (R314): Load a word. -/
  | ldw (p : Pair) (d a : GReg) (imm : BitVec 16)
  /-- LDH (R314): Load a sign-extended halfword. -/
  | ldh (p : Pair) (d a : GReg) (imm : BitVec 16)
  /-- LDHU (R314): Load a zero-extended halfword. -/
  | ldhu (p : Pair) (d a : GReg) (imm : BitVec 16)
  /-- LDB (R314): Load a sign-extended byte. -/
  | ldb (p : Pair) (d a : GReg) (imm : BitVec 16)
  /-- LDBU (R314): Load a zero-extended byte. -/
  | ldbu (p : Pair) (d a : GReg) (imm : BitVec 16)
  /-- LDD (R314): Load 8 bytes into a register pair. -/
  | ldd (p : Pair) (d a : GReg) (imm : BitVec 16)
  /-- STW (R314): Store a word. -/
  | stw (p : Pair) (d a : GReg) (imm : BitVec 16)
  /-- STH (R314): Store a halfword. -/
  | sth (p : Pair) (d a : GReg) (imm : BitVec 16)
  /-- STB (R314): Store a byte. -/
  | stb (p : Pair) (d a : GReg) (imm : BitVec 16)
  /-- STD (R314): Store a register pair. -/
  | std (p : Pair) (d a : GReg) (imm : BitVec 16)
  /-- LDX (R316): Load a word and set a reservation. -/
  | ldx (p : Pair) (d a : GReg)
  /-- STX (R316): Store a word if the reservation holds. -/
  | stx (p : Pair) (d a b : GReg)
  /-- AMOSWP (R316): Atomic swap. -/
  | amoswp (p : Pair) (d a b : GReg)
  /-- AMOADD (R316): Atomic add. -/
  | amoadd (p : Pair) (d a b : GReg)
  /-- AMOAND (R316): Atomic AND. -/
  | amoand (p : Pair) (d a b : GReg)
  /-- AMOOR (R316): Atomic OR. -/
  | amoor (p : Pair) (d a b : GReg)
  /-- AMOMAX (R316): Atomic signed maximum. -/
  | amomax (p : Pair) (d a b : GReg)
  /-- AMOMIN (R316): Atomic signed minimum. -/
  | amomin (p : Pair) (d a b : GReg)
  /-- BEQ (R317): Branch if equal. -/
  | beq (p : Pair) (a b : GReg) (off : BitVec 16)
  /-- BNE (R317): Branch if not equal. -/
  | bne (p : Pair) (a b : GReg) (off : BitVec 16)
  /-- BLT (R317): Branch if signed less. -/
  | blt (p : Pair) (a b : GReg) (off : BitVec 16)
  /-- BGE (R317): Branch if signed greater or equal. -/
  | bge (p : Pair) (a b : GReg) (off : BitVec 16)
  /-- BLTU (R317): Branch if unsigned less. -/
  | bltu (p : Pair) (a b : GReg) (off : BitVec 16)
  /-- BGEU (R317): Branch if unsigned greater or equal. -/
  | bgeu (p : Pair) (a b : GReg) (off : BitVec 16)
  /-- J (R317): Relative jump. -/
  | j (p : Pair) (off : BitVec 26)
  /-- JAL (R317): Relative jump and link in w31. -/
  | jal (p : Pair) (off : BitVec 26)
  /-- CYEND (R318): Ends the program cycle and starts the commit. -/
  | cyend (p : Pair)
  /-- TBRD (R319): Reads the time base, angle word or cycle count frozen with the image. -/
  | tbrd (p : Pair) (d : GReg) (sel : BitVec 5)
  /-- TON (R366): Evaluates an on-delay timer object. -/
  | ton (p : Pair) (d a b : GReg)
  /-- TOF (R366): Evaluates an off-delay timer object. -/
  | tof (p : Pair) (d a b : GReg)
  /-- TP (R366): Evaluates a pulse timer object. -/
  | tp (p : Pair) (d a b : GReg)
  /-- CTU (R366): Evaluates an up counter object. -/
  | ctu (p : Pair) (d a b : GReg)
  /-- CTD (R366): Evaluates a down counter object. -/
  | ctd (p : Pair) (d a b : GReg)
  /-- CTUD (R366): Evaluates an up-down counter object. -/
  | ctud (p : Pair) (d a b : GReg)
  /-- RTRIG (R366): Detects a rising edge with an edge object. -/
  | rtrig (p : Pair) (d a b : GReg)
  /-- FTRIG (R366): Detects a falling edge with an edge object. -/
  | ftrig (p : Pair) (d a b : GReg)
  /-- MFS (R326): Reads a special register. -/
  | mfs (p : Pair) (d : GReg) (num : BitVec 11)
  /-- MTS (R326): Writes a special register. -/
  | mts (p : Pair) (a : GReg) (num : BitVec 11)
  /-- SETS (R326): Sets bits of a special register. -/
  | sets (p : Pair) (d a : GReg) (num : BitVec 11)
  /-- CLRS (R326): Clears bits of a special register. -/
  | clrs (p : Pair) (d a : GReg) (num : BitVec 11)
  /-- SYSC (R323): Raises the system-call exception with its number. -/
  | sysc (p : Pair) (imm : BitVec 11)
  /-- RFX (R323): Returns from an exception and restores level and interrupt enable. -/
  | rfx (p : Pair)
  /-- FENCE (R328): Orders memory accesses by its mask. -/
  | fence (p : Pair) (imm : BitVec 11)
  /-- WFE (R326): Waits for a core event and returns the pending events. -/
  | wfe (p : Pair) (d a : GReg)
  /-- SEV (R327): Sets an event line in a pair. -/
  | sev (p : Pair) (imm : BitVec 11)
  /-- BRK (R325): Raises the breakpoint exception. -/
  | brk (p : Pair)
  /-- VADD (R341): Vector addition. -/
  | vadd (p : Pair) (vd va : VReg) (s2 : VSrc) (k : VMask)
  /-- VSUB (R341): Vector subtraction. -/
  | vsub (p : Pair) (vd va : VReg) (s2 : VSrc) (k : VMask)
  /-- VAND (R341): Vector AND. -/
  | vand (p : Pair) (vd va : VReg) (s2 : VSrc) (k : VMask)
  /-- VOR (R341): Vector OR. -/
  | vor (p : Pair) (vd va : VReg) (s2 : VSrc) (k : VMask)
  /-- VXOR (R341): Vector XOR. -/
  | vxor (p : Pair) (vd va : VReg) (s2 : VSrc) (k : VMask)
  /-- VSLL (R341): Vector logical shift left. -/
  | vsll (p : Pair) (vd va : VReg) (s2 : VSrc) (k : VMask)
  /-- VSRL (R341): Vector logical shift right. -/
  | vsrl (p : Pair) (vd va : VReg) (s2 : VSrc) (k : VMask)
  /-- VSRA (R341): Vector arithmetic shift right. -/
  | vsra (p : Pair) (vd va : VReg) (s2 : VSrc) (k : VMask)
  /-- VMIN (R341): Vector signed minimum. -/
  | vmin (p : Pair) (vd va : VReg) (s2 : VSrc) (k : VMask)
  /-- VMAX (R341): Vector signed maximum. -/
  | vmax (p : Pair) (vd va : VReg) (s2 : VSrc) (k : VMask)
  /-- VMINU (R341): Vector unsigned minimum. -/
  | vminu (p : Pair) (vd va : VReg) (s2 : VSrc) (k : VMask)
  /-- VMAXU (R341): Vector unsigned maximum. -/
  | vmaxu (p : Pair) (vd va : VReg) (s2 : VSrc) (k : VMask)
  /-- VADDS (R341): Vector saturating addition. -/
  | vadds (p : Pair) (vd va : VReg) (s2 : VSrc) (k : VMask)
  /-- VSUBS (R341): Vector saturating subtraction. -/
  | vsubs (p : Pair) (vd va : VReg) (s2 : VSrc) (k : VMask)
  /-- VMUL (R341): Vector low product. -/
  | vmul (p : Pair) (vd va : VReg) (s2 : VSrc) (k : VMask)
  /-- VMULH (R341): Vector high signed product. -/
  | vmulh (p : Pair) (vd va : VReg) (s2 : VSrc) (k : VMask)
  /-- VQMUL31 (R341): Vector Q1.31 multiply. -/
  | vqmul31 (p : Pair) (vd va : VReg) (s2 : VSrc) (k : VMask)
  /-- VQMAC31 (R341): Vector Q1.31 multiply-accumulate. -/
  | vqmac31 (p : Pair) (vd va : VReg) (s2 : VSrc) (k : VMask)
  /-- VMV (R341): Vector move. -/
  | vmv (p : Pair) (vd : VReg) (s2 : VSrc) (k : VMask)
  /-- VSEL (R341): Vector select by mask. -/
  | vsel (p : Pair) (vd va : VReg) (s2 : VSrc) (mi : MReg)
  /-- VIOTA (R341): Vector of lane indices. -/
  | viota (p : Pair) (vd : VReg) (k : VMask)
  /-- VFADD (R345): Vector binary32 addition. -/
  | vfadd (p : Pair) (vd va : VReg) (s2 : VSrc) (k : VMask)
  /-- VFSUB (R345): Vector binary32 subtraction. -/
  | vfsub (p : Pair) (vd va : VReg) (s2 : VSrc) (k : VMask)
  /-- VFMUL (R345): Vector binary32 multiplication. -/
  | vfmul (p : Pair) (vd va : VReg) (s2 : VSrc) (k : VMask)
  /-- VFDIV (R345): Vector binary32 division. -/
  | vfdiv (p : Pair) (vd va : VReg) (s2 : VSrc) (k : VMask)
  /-- VFSQRT (R345): Vector binary32 square root. -/
  | vfsqrt (p : Pair) (vd va : VReg) (k : VMask)
  /-- VFMIN (R345): Vector binary32 minimum. -/
  | vfmin (p : Pair) (vd va : VReg) (s2 : VSrc) (k : VMask)
  /-- VFMAX (R345): Vector binary32 maximum. -/
  | vfmax (p : Pair) (vd va : VReg) (s2 : VSrc) (k : VMask)
  /-- VFMADD (R345): Vector fused multiply-add. -/
  | vfmadd (p : Pair) (vd va : VReg) (s2 : VSrc) (k : VMask)
  /-- VFCVTWS (R345): Vector binary32 to integer. -/
  | vfcvtws (p : Pair) (vd va : VReg) (k : VMask)
  /-- VFCVTSW (R345): Vector integer to binary32. -/
  | vfcvtsw (p : Pair) (vd va : VReg) (k : VMask)
  /-- VFNEG (R345): Vector sign inversion. -/
  | vfneg (p : Pair) (vd va : VReg) (k : VMask)
  /-- VFABS (R345): Vector sign clearing. -/
  | vfabs (p : Pair) (vd va : VReg) (k : VMask)
  /-- VCEQ (R341): Vector equality into a mask. -/
  | vceq (p : Pair) (md : MReg) (va : VReg) (s2 : VSrc) (k : VMask)
  /-- VCNE (R341): Vector inequality into a mask. -/
  | vcne (p : Pair) (md : MReg) (va : VReg) (s2 : VSrc) (k : VMask)
  /-- VCLT (R341): Vector signed less-than into a mask. -/
  | vclt (p : Pair) (md : MReg) (va : VReg) (s2 : VSrc) (k : VMask)
  /-- VCGE (R341): Vector signed greater-or-equal into a mask. -/
  | vcge (p : Pair) (md : MReg) (va : VReg) (s2 : VSrc) (k : VMask)
  /-- VCLTU (R341): Vector unsigned less-than into a mask. -/
  | vcltu (p : Pair) (md : MReg) (va : VReg) (s2 : VSrc) (k : VMask)
  /-- VCGEU (R341): Vector unsigned greater-or-equal into a mask. -/
  | vcgeu (p : Pair) (md : MReg) (va : VReg) (s2 : VSrc) (k : VMask)
  /-- VFCEQ (R345): Vector binary32 equality into a mask. -/
  | vfceq (p : Pair) (md : MReg) (va : VReg) (s2 : VSrc) (k : VMask)
  /-- VFCLT (R345): Vector binary32 less-than into a mask. -/
  | vfclt (p : Pair) (md : MReg) (va : VReg) (s2 : VSrc) (k : VMask)
  /-- VFCLE (R345): Vector binary32 less-or-equal into a mask. -/
  | vfcle (p : Pair) (md : MReg) (va : VReg) (s2 : VSrc) (k : VMask)
  /-- MAND (R341): Mask AND. -/
  | mand (p : Pair) (md ma mb : MReg) (k : VMask)
  /-- MOR (R341): Mask OR. -/
  | mor (p : Pair) (md ma mb : MReg) (k : VMask)
  /-- MANDN (R341): Mask AND NOT. -/
  | mandn (p : Pair) (md ma mb : MReg) (k : VMask)
  /-- MNOT (R341): Mask NOT. -/
  | mnot (p : Pair) (md ma : MReg) (k : VMask)
  /-- VINTERP (R349): Table interpolation per lane, with the out-of-table flag in m3. -/
  | vinterp (p : Pair) (vd va : VReg) (wb : GReg) (k : VMask)
  /-- VINVERT (R349): Inverse table interpolation per lane. -/
  | vinvert (p : Pair) (vd va : VReg) (wb : GReg) (k : VMask)
  /-- VSETVL (R340): Sets the vector length. -/
  | vsetvl (p : Pair) (d a : GReg)
  /-- VGETVL (R340): Reads the vector length. -/
  | vgetvl (p : Pair) (d : GReg)
  /-- VMRD (R340): Moves a mask to a register pair. -/
  | vmrd (p : Pair) (d : GReg) (mv : MReg)
  /-- VMWR (R340): Moves a register pair to a mask. -/
  | vmwr (p : Pair) (a : GReg) (mv : MReg)
  /-- VLD (R346): Vector contiguous load. -/
  | vld (p : Pair) (v : VReg) (a : GReg) (k : VMask)
  /-- VST (R346): Vector contiguous store. -/
  | vst (p : Pair) (v : VReg) (a : GReg) (k : VMask)
  /-- VGATH (R346): Vector indexed gather. -/
  | vgath (p : Pair) (v iv : VReg) (a : GReg) (k : VMask)
  /-- VSCAT (R346): Vector indexed scatter. -/
  | vscat (p : Pair) (v iv : VReg) (a : GReg) (k : VMask)
  /-- VREDADD (R348): Signed 64-bit sum of active lanes. -/
  | vredadd (p : Pair) (d : GReg) (v : VReg) (k : VMask)
  /-- VREDMIN (R348): Signed minimum of active lanes. -/
  | vredmin (p : Pair) (d : GReg) (v : VReg) (k : VMask)
  /-- VREDMAX (R348): Signed maximum of active lanes. -/
  | vredmax (p : Pair) (d : GReg) (v : VReg) (k : VMask)
  /-- VREDFADD (R348): Ordered binary32 sum of active lanes. -/
  | vredfadd (p : Pair) (d : GReg) (v : VReg) (k : VMask)
  /-- VMINI (R348): Minimum of active lanes with its index. -/
  | vmini (p : Pair) (d : GReg) (v : VReg) (k : VMask)
  /-- VMAXI (R348): Maximum of active lanes with its index. -/
  | vmaxi (p : Pair) (d : GReg) (v : VReg) (k : VMask)
  /-- DCVTSW (R313): Signed integer to a binary64 register pair, opcode 0x03 func 0x20D. -/
  | dcvtsw (p : Pair) (d a : GReg)
  /-- DCVTSWU (R313): Unsigned integer to a binary64 register pair, opcode 0x03 func 0x20E. -/
  | dcvtswu (p : Pair) (d a : GReg)
  /-- REGISTER_WRITE (R8): A write to a register that has no row of its own sets or clears its fields by access type. -/
  | registerWrite (src : Writer) (a v : Word)
  /-- EXPERT_RELEASE (R20): A write of 1 to SYS_EXPREL releases a claim, and firmware resumes at the next cycle start. -/
  | expertRelease (src : Writer) (hi : Bool) (v : Word)
  /-- CLAIMEN_LOCK (R25): A write of 1 to SYS_CTL.LOCK freezes SYS_CLAIMEN. -/
  | claimenLock (src : Writer) (v : Word)
  /-- TIM_INC_WRITE (R31): A write to TIM_INC is clamped to its range and restarts the holdover timer. -/
  | timIncWrite (src : Writer) (v : Word)
  /-- TIM_ADJSEC_WRITE (R32): A write to TIM_ADJSEC stages a seconds step. -/
  | timAdjsecWrite (src : Writer) (v : Word)
  /-- TIM_ADJNS_WRITE (R32): A write to TIM_ADJNS applies the staged step to the local clock, or is ignored when out of range. -/
  | timAdjnsWrite (src : Writer) (v : Word)
  /-- DECL (R33): A write of 1 to TIM_CTL.DECL sets VALID and restarts the holdover timer. -/
  | decl (src : Writer) (v : Word)
  /-- TIM_HOLDTO_WRITE (R33): A write of zero to TIM_HOLDTO while VALID is 1 clears VALID and sets LOST. -/
  | timHoldtoWrite (src : Writer) (v : Word)
  /-- HOLDOVER_EXPIRY (R33): TIM_HOLDTO seconds without a restart clear VALID and set LOST. -/
  | holdoverExpiry
  /-- TCORR_EVALUATION (R34): Every 10 ms the health block updates TIM_TCORR from the oscillator curve. -/
  | tcorrEvaluation (corr : Word)
  /-- TIM_SNAP (R36): A write to TIM_SNAP captures the local clock, the time base, the angle word and the cycle count. -/
  | timSnap (src : Writer)
  /-- TIM_TB_LO_READ (R36): A read of TIM_TB_LO latches the upper half into TIM_TB_HI. -/
  | timTbLoRead
  /-- ANG_ANGLE_READ (R39): A read of ANG_ANGLE latches the cycle count into ANG_CYCLE. -/
  | angAngleRead
  /-- ANGLE_WRAP (R39): The angle word wraps past 2^32 and the cycle count increments. -/
  | angleWrap
  /-- SOURCE_LOSS_TIMEOUT (R42): The selected angle source lapses after ANG_LOSSTO, and the next valid source is selected. -/
  | sourceLossTimeout
  /-- SOURCE_RETURN (R42): A higher-priority source valid for 1 s is selected again. -/
  | sourceReturn
  /-- ANG_SRCPRI_WRITE (R42): A write to ANG_SRCPRI selects the first valid source in the new order at once. -/
  | angSrcpriWrite (src : Writer) (v : Word)
  /-- FORCEFR_WRITE (R44): A write to ANG_CTL.FORCEFR forces free-run and stops PLL updates. -/
  | forcefrWrite (src : Writer) (v : Word)
  /-- FREE_RUN_SLEW (R44): Each millisecond in free-run the increment moves toward ANG_NOMINC by at most ANG_SLEW. -/
  | freeRunSlew
  /-- ANG_PERR_WRITE (R45): A write to ANG_PERR delivers a phase error to the PLL from angle messages. -/
  | angPerrWrite (src : Writer) (v : Word)
  /-- ANG_INC_HI_WRITE (R45): A write to ANG_INC_HI stages the upper increment half. -/
  | angIncHiWrite (src : Writer) (v : Word)
  /-- ANG_INC_LO_WRITE (R45): A write to ANG_INC_LO sets the increment in use, bounded under R40. -/
  | angIncLoWrite (src : Writer) (v : Word)
  /-- ZC_EDGE (R47): A filtered active ZC_IN edge captures the angle and delivers or rejects a PLL update. -/
  | zcEdge (level : Bool) (us : BitVec 16)
  /-- ANGLE_MESSAGE (R465): A received angle message is checked and its phase error written to ANG_PERR. -/
  | angleMessage (l : List Byte)
  /-- TIMETABLE_MATCH (R52): The angle word crosses an entry's ANGLE and the entry fires its action if the cycle test passes. -/
  | timetableMatch
  /-- TT_ENTRY_WORD0_WRITE (R55): A write to word 0 of an active-bank entry is staged. -/
  | ttEntryWord0Write (src : Writer) (b : BitVec 1) (n : Byte) (v : Word)
  /-- TT_ENTRY_WORD1_WRITE (R564): A write to word 1 commits the entry and checks PHASE, action code and ARG. -/
  | ttEntryWord1Write (src : Writer) (b : BitVec 1) (n : Byte) (v : Word)
  /-- TT_SWAP_REQUEST (R55): A write of 1 to TT_CTL.SWAP requests a bank swap at the next wrap. -/
  | ttSwapRequest (src : Writer) (v : Word)
  /-- LINK_UP (R63): A ring or twin receiver declares the link up after 256 clean IDLE sets. -/
  | linkUp (port : BitVec 2)
  /-- LOS (R63): A receiver declares loss of signal, and the ring enters BROKEN. -/
  | los (port : BitVec 2)
  /-- RING_DOWN_EXIT (R92): The issuing end has link and the far end has link or 2 ms pass: the ring goes to ENUM. -/
  | ringDownExit
  /-- FAULT_RECEIVE (R92): A FAULT ordered set received at a port sets FAULTRX and breaks the ring. -/
  | faultReceive (x : Bool) (a p c : Byte)
  /-- ECHO_END_RETURN (R61): An echo-end port returns each received frame unmodified with ECHO set. -/
  | echoEndReturn (x : Bool) (frame : List Byte)
  /-- CMDGO (R99): A write to SKx_CMDGO queues a command frame from its buffer. -/
  | cmdgo (src : Writer) (x : Bool) (v : Word)
  /-- COMMAND_SEND (R99): A queued command frame leaves at the next gap between collect frames. -/
  | commandSend (x : Bool)
  /-- COMMAND_ANSWER (R99): The answer to a command frame returns into the buffer and sets DONE. -/
  | commandAnswer (x : Bool) (fin : FrameEnd) (rtt : BitVec 24) (frame : List Byte) (healOk : Bool)
  /-- COMMAND_TIMEOUT (R99): No answer within SKx_CMDTO sets NORSP. -/
  | commandTimeout (x : Bool)
  /-- ENUMERATION (R88): RESET, ENUM, echoes and delay writes address every node and set strobe delays. -/
  | enumeration (hop : Byte) (nodes : List EnumNode) (transit : BitVec 24)
  /-- TOF_REMEASURE (R89): Firmware re-measures a node's time of flight in an idle window. -/
  | tofRemeasure (rttA rttB : List (BitVec 24))
  /-- DELAY_REWRITE (R566): Firmware writes the delays of every node for a new T_ref between two strobes. -/
  | delayRewrite
  /-- HEAL_SEND (R94): Firmware sends HEAL when both looping nodes have reported LINKOK for 1 s. -/
  | healSend (linkOk : Bool)
  /-- WAKE_SEND (R79): The module sends WAKE until it returns at the far end or 120 ms pass. -/
  | wakeSend (returned : Bool)
  /-- NODE_REARM (R98): A write of 1 to SKx_NODE.REARM returns a LOST node to NORMAL. -/
  | nodeRearm (src : Writer) (x : Bool) (k : BitVec 6) (v : Word)
  /-- SK_CLEAR_COUNTS (R98): A write of 1 to SKx_CTL.CLRCNT clears ERRCNT and SLOTERR. -/
  | skClearCounts (src : Writer) (x : Bool) (v : Word)
  /-- COLLECT_LAUNCH (R105): COLOFS plus stretch after the strobe the collect frame is launched. -/
  | collectLaunch
  /-- SLOT_RECEIVE (R83): A slot whose CRC-16 checks is accepted and its words taken into the sweep buffer. -/
  | slotReceive (x : Bool) (arg : Byte) (node : BitVec 6) (seq : BitVec 16) (flags turn : Byte) (data : List Byte) (crcOk : Bool) (fin : FrameEnd)
  /-- SWEEP_DEADLINE (R105): The sweep deadline expires, and the sweep publishes or recovery reads start. -/
  | sweepDeadline (transit : Option (BitVec 24))
  /-- PUBLICATION (R116): The engine fills unreceived channels, writes the header and sets SWP_LAST. -/
  | publication
  /-- TEMPERATURE_READ (R118): After the deadline a temperature group frame is issued within TBUDGET. -/
  | temperatureRead
  /-- OPEN_WIRE_GO (R124): A write of SWP_OWCTL with GO starts an open-wire pass on one node. -/
  | openWireGo (src : Writer) (v : Word)
  /-- OPEN_WIRE_EVALUATE (R125): At the deadline of the test sweep the pass judges each wire and updates the suspects. -/
  | openWireEvaluate
  /-- SWP_CLEAR_COUNTS (R129): A write of 1 to SWP_CTL.CLRCNT clears SWP_SKIPCNT. -/
  | swpClearCounts (src : Writer) (v : Word)
  /-- CHM_ENTRY_WRITE (R108): A channel-map entry write is stored or refused for range or duplicate. -/
  | chmEntryWrite (src : Writer) (n : BitVec 11) (v : Word)
  /-- BLANK_SEND (R135): BLANK is sent when the time to the next strobe falls to BAL_BLANKLEAD. -/
  | blankSend
  /-- BLANKEN_CHANGE (R137): A change of BAL_CTL.BLANKEN broadcasts BLANKCFG.EN to the nodes. -/
  | blankenChange (src : Writer) (v : Word)
  /-- BAL_CMD_WRITE (R140): A write to a BAL_CMD entry restarts the commander timer. -/
  | balCmdWrite (src : Writer) (k : BitVec 6) (v : Word)
  /-- COMMANDER_TIMEOUT (R140): BAL_CMDTO without a BAL_CMD write zeroes every mask. -/
  | commanderTimeout
  /-- BALANCE_SEND (R141): A broadcast BALANCE is sent on change or at each refresh period. -/
  | balanceSend (off : BitVec 48)
  /-- LEARNING_GO (R139): A write of BAL_LRN with GO runs a wire-resistance learning pass. -/
  | learningGo (src : Writer) (v : Word)
  /-- LIM_ENTRY_WORD_WRITE (R147): Writes to words 0 to 2 of a limit entry are staged. -/
  | limEntryWordWrite (src : Writer) (n : BitVec 11) (w : BitVec 2) (v : Word)
  /-- LIM_ENTRY_COMMIT (R148): A word 3 write commits the entry, clamped to the envelope while locked. -/
  | limEntryCommit (src : Writer) (n : BitVec 11) (v : Word)
  /-- SWEEP_WATCHDOG (R155): LIM_SWDTO without a publication latches Crimson of class 9. -/
  | sweepWatchdog
  /-- EXTERNAL_TRIP (R156): TRIP_N low for 1 µs while not driven by this module latches class 12. -/
  | externalTrip (low : Bool)
  /-- TRIP_CLEAR (R159): A write to LIM_TRIPCLR clears each requested class whose cause has gone. -/
  | tripClear (src : Writer) (v : Word)
  /-- SOFTWARE_TRIP (R175): A write of LIM_SWTRIP.CRIM latches Crimson of class 13. -/
  | softwareTrip (src : Writer) (v : Word)
  /-- SOFTWARE_OCHRE (R175): A write of LIM_SWTRIP.OCH asserts or releases Ochre of class 13. -/
  | softwareOchre (src : Writer) (och : Bool)
  /-- LIM_TEST (R165): A write of LIM_TEST with GO tests one entry through the comparators. -/
  | limTest (src : Writer) (v : Word) (bad : BitVec 4)
  /-- LIM_LOCK (R175): A write of 1 to LIM_CTL.LOCK locks the envelope, rows and stale limits. -/
  | limLock (src : Writer) (v : Word)
  /-- SCC_CLOSE (R166): SCC_CMD 1 closes the contactors or is refused. -/
  | sccClose (src : Writer)
  /-- SCC_OPEN (R166): SCC_CMD 2 sends SCC to OPENING. -/
  | sccOpen (src : Writer)
  /-- SCC_ACK (R166): SCC_CMD 3 leaves FAULT when no fault bit is set and both contactors are open. -/
  | sccAck (src : Writer)
  /-- BREAK_DELAY_EXPIRY (R168): SCC_BRKDLY after CONT asserts, the open request follows. -/
  | breakDelayExpiry
  /-- PICKUP_EXPIRY (R167): After PICKUP the channel drops to hold duty. -/
  | pickupExpiry (k2 : Bool)
  /-- PRECHARGE_DONE (R166): Precharge meets its voltage criterion and SCC goes to CLOSING. -/
  | prechargeDone
  /-- PRECHARGE_TIMEOUT (R166): PCTIME elapses in PRECHARGE and SCC returns to OPEN with PCTO. -/
  | prechargeTimeout
  /-- CLOSE_CONFIRM (R166): FB1 closes and FB2 opens in CLOSING, and SCC enters CLOSED. -/
  | closeConfirm
  /-- CLOSE_TIMEOUT (R166): FBTO elapses in CLOSING and SCC goes to OPENING with NOCLOSE. -/
  | closeTimeout
  /-- OPEN_CONFIRM (R166): Feedback shows both contactors open in OPENING, and SCC enters OPEN. -/
  | openConfirm
  /-- DROPOUT_TIMEOUT (R166): DROPTO elapses in OPENING and SCC enters FAULT with WELD. -/
  | dropoutTimeout
  /-- SWITCH_TEST (R170): Every OPINT an off-pulse or on-pulse tests each switch readback. -/
  | switchTest (pulse : Option (Bool × Bool)) (rb : BitVec 6)
  /-- COIL_FAULT (R170): Coil current out of limits sends SCC to FAULT with COILOPEN or COILOC. -/
  | coilFault (k2 : Bool) (ma : BitVec 16)
  /-- FEEDBACK_DISCREPANCY (R170): Mirror contacts disagree for longer than DISCTO, and SCC enters FAULT. -/
  | feedbackDiscrepancy
  /-- KILL_OUT_ASSERT (R172): Channels off and FB1 closed after DROPTO assert KILL_OUT. -/
  | killOutAssert
  /-- SINC3_SAMPLE (R241): A sinc3 output sample forms the calibrated value and feeds the accumulators. -/
  | sinc3Sample (n : BitVec 3) (out : BitVec 25)
  /-- SINC2_SAMPLE (R244): A sinc2 sample is compared with the fast-comparator limits. -/
  | sinc2Sample (n : BitVec 3) (out : BitVec 11)
  /-- SDM_INVALID (R242): A missing clock or stuck data makes a channel invalid. -/
  | sdmInvalid (n : BitVec 3) (stuck : Bool)
  /-- SDM_SYNC (R243): A write of SDM_CTL.SYNC restarts decimation of all enabled channels. -/
  | sdmSync (src : Writer) (v : Word)
  /-- SLOT_TRIGGER (R249): A trigger event is counted and may start a slot evaluation. -/
  | slotTrigger (sl : BitVec 3)
  /-- SLOW_TIMER_EXPIRY (R249): A slot's TPER timer expires and gives a trigger event. -/
  | slowTimerExpiry (sl : BitVec 3)
  /-- SLOT_COMPLETE (R248): A slot evaluation completes and writes its output and destination. -/
  | slotComplete (sl : BitVec 3)
  /-- SLOT_FAULT_CLEAR (R251): A write to CE_FLTCLR clears a slot fault whose cause has gone. -/
  | slotFaultClear (src : Writer) (v : Word)
  /-- CE_KICK (R249): A write of 1 to CE_KICK triggers the slot. -/
  | ceKick (src : Writer) (v : Word)
  /-- SLOT_DESCRIPTOR_COMMIT (R252): A write to descriptor word 7 commits the staged words. -/
  | slotDescriptorCommit (src : Writer) (sl : BitVec 3) (v : Word)
  /-- PWM_PERIOD_START (R254): A pair's counter starts a period and loads its shadows. -/
  | pwmPeriodStart (p : BitVec 2)
  /-- PWM_PERIOD_CENTRE (R254): In centre mode the period centre loads shadows when LOADC is 1. -/
  | pwmPeriodCentre (p : BitVec 2)
  /-- PWM_PER_WRITE (R254): A write of PWM_PER outside its range is stored at the bound and flagged. -/
  | pwmPerWrite (src : Writer) (p : BitVec 2) (v : Word)
  /-- PWM_SYNC (R254): A write of PWM_CTL.SYNC restarts all pair counters at one instant. -/
  | pwmSync (src : Writer) (v : Word)
  /-- CONV_FLT_FALL (R256): A falling edge of CONV_FLT blocks the PWM and latches class 10. -/
  | convFltFall (fromReset : Bool)
  /-- PWM_BLOCK_CLEAR (R256): A write to PWM_BLKCLR clears the direct block when class 15 has ended. -/
  | pwmBlockClear (src : Writer) (v : Word)
  /-- TEST_INJECTION_GO (R258): CE_TINJ.GO starts a test injection on a slot. -/
  | testInjectionGo (src : Writer) (v : Word)
  /-- TEST_INJECTION_STOP (R258): CE_TINJ.STOP aborts the test injection. -/
  | testInjectionStop (src : Writer) (v : Word)
  /-- TRACE_ARM (R259): CE_TRCCTL.ARM starts trace recording. -/
  | traceArm (src : Writer) (v : Word)
  /-- TRACE_FORCE (R259): CE_TRCCTL.FORCE triggers the trace at once. -/
  | traceForce (src : Writer) (v : Word)
  /-- ESTIMATOR_RUN (R182): Firmware runs the cell model, counting and limits on a published sweep. -/
  | estimatorRun
  /-- CORRECTION (R189): Every CORINT seconds each eligible cell's SoC is corrected from OCV. -/
  | correction
  /-- EST_PUB (R195): A write to EST_PUB updates the SoP outputs and restarts the publication timer. -/
  | estPub (src : Writer)
  /-- PUBLICATION_TIMEOUT (R195): EST_PUBTO without EST_PUB zeroes every SoP output. -/
  | publicationTimeout
  /-- REST_STARVATION (R201): TSTARVE since the last qualifying rest sets STARVED. -/
  | restStarvation
  /-- STOREROOM_WRITE (R205): A Storeroom copy is written body first and header last. -/
  | storeroomWrite
  /-- STOREROOM_INTERVAL (R206): STOINT seconds since the last write trigger a Storeroom write. -/
  | storeroomInterval
  /-- TRANSPORT_REQUEST (R209): A transport request opens the contactors, writes the Storeroom, sleeps the ring and enters Standby. -/
  | transportRequest
  /-- TRANSPORT_EXIT (R210): The first start after a wake applies self-discharge, clears TRANSPORT and wakes the ring. -/
  | transportExit (returned : Bool)
  /-- BIN_ACCUMULATE (R220): Within 25 µs of a publication every bin adds each cell's contribution. -/
  | binAccumulate
  /-- INJECTION_PHASE_END (R227): The ramp-up, flat part or ramp-down of an injection ends. -/
  | injectionPhaseEnd
  /-- IMP_CLEAR_ALL (R237): A write of IMP_CTL.CLRALL discards every window and zeroes every phase. -/
  | impClearAll (src : Writer) (v : Word)
  /-- BIN_DESCRIPTOR_WRITE (R237): A write to words 0 to 2 of an enabled bin discards its window. -/
  | binDescriptorWrite (src : Writer) (b : BitVec 4) (w : BitVec 2) (v : Word)
  /-- MODEL_FIT (R229): Firmware fits R0, R1 and tau and infers internal temperature from new results. -/
  | modelFit
  /-- AGEING_DAILY (R231): At the first idle window after each 24 h firmware stores the day's ageing factors. -/
  | ageingDaily
  /-- MAILBOX_WORD_WRITE (R266): A write to mailbox word 1, 2 or 3 is staged. -/
  | mailboxWordWrite (src : Writer) (m w : BitVec 2) (v : Word)
  /-- MAILBOX_COMMIT (R266): A write of word 0 with VALID commits a slot, checks its time and restarts the mailbox timer. -/
  | mailboxCommit (src : Writer) (m : BitVec 2) (v : Word)
  /-- REFERENCE_SLEW (R269): Every 1 µs CE_DSPREF moves toward I_t by the slew limit. -/
  | referenceSlew
  /-- MAILBOX_TIMEOUT (R270): DSP_MBTO without a commit sets MBTO and holds I_t at zero. -/
  | mailboxTimeout
  /-- SETPOINT (R272): A SETPOINT message is checked and committed to its slot. -/
  | setpoint (h : PlantHead) (l : List Byte)
  /-- STATUS_SEND (R271): Every STPER ms a duty or alone module sends STATUS. -/
  | statusSend
  /-- COMMAND_CLEAR_TRIPS (R271): Plant COMMAND 1 clears Crimson classes. -/
  | commandClearTrips (h : PlantHead) (l : List Byte)
  /-- COMMAND_TRANSPORT (R271): Plant COMMAND 2 requests transport mode. -/
  | commandTransport (h : PlantHead) (l : List Byte)
  /-- RECREQ (R500): A RECREQ message is answered with RECDATA holding whole records. -/
  | recreq (h : PlantHead) (l : List Byte)
  /-- ROTREPLY (R274): A ROTREPLY grants, refuses or cancels the current rotation. -/
  | rotreply (h : PlantHead) (l : List Byte)
  /-- ROTREQ_REPEAT (R275): ROTREQ is repeated every 10 s in REQUESTED. -/
  | rotreqRepeat
  /-- ROTATION_REPLY_TIMEOUT (R275): DSP_ROTTO without a reply returns rotation to IDLE. -/
  | rotationReplyTimeout
  /-- REST_WINDOW_END (R275): The granted window has run, and rotation goes to RETURN. -/
  | restWindowEnd
  /-- PROFILE_GO (R276): A write of DSP_CTL.PGO starts the local step profile at step 0. -/
  | profileGo (src : Writer) (v : Word)
  /-- FEED_CONFIG_WRITE (R282): A write of a temperature feed with a non-temperature CHAN is refused. -/
  | feedConfigWrite (src : Writer) (n : BitVec 2) (v : Word)
  /-- TACH_EDGE (R285): A filtered tach edge updates the output's RPM. -/
  | tachEdge (f : BitVec 2)
  /-- FAN_STALL (R285): RPM below MINRPM for STALLT marks the output stalled. -/
  | fanStall (f : BitVec 2)
  /-- SERVO_PERIOD (R286): Every MOT_SERVO the profile generator moves each busy axis. -/
  | servoPeriod
  /-- STEP_PULSE (R287): The step timer expires and a STEP pulse moves the axis by 2^k units. -/
  | stepPulse (a : BitVec 2)
  /-- ACTUATOR_REPLY (R289): A MODE 1 actuator reply is checked, and missing or faulted replies fault the axis. -/
  | actuatorReply (a : BitVec 2) (seq flags : Byte)
  /-- TARGET_WRITE (R292): A write to MOT_TGT replans the move, clamped by the budget or virtual limits. -/
  | targetWrite (src : Writer) (a : BitVec 2) (v : Word)
  /-- HOME (R293): MOT_CMD 1 starts homing of an axis. -/
  | home (src : Writer) (a : BitVec 2)
  /-- STOP_AXIS (R294): MOT_CMD 2 stops the axis, and homing ends UNHOMED. -/
  | stopAxis (src : Writer) (a : BitVec 2)
  /-- CLEAR_FAULT (R299): MOT_CMD 3 leaves FAULT when the cause has gone. -/
  | clearFault (src : Writer) (a : BitVec 2)
  /-- DECLARE_HOMED (R294): MOT_CMD 4 sets the position to HOFS and the axis to HOMED. -/
  | declareHomed (src : Writer) (a : BitVec 2)
  /-- INTERRUPT (R305): A system-pair interrupt is taken between instructions. -/
  | interrupt (source : Nat)
  /-- LOCKSTEP_ERROR (R302): A lead and checker mismatch stops the pair. -/
  | lockstepError (p : Pair)
  /-- CYCLE_PERIOD_START (R353): With SRC 1 the time base reaching a multiple of CYC_PERIOD starts a cycle. -/
  | cyclePeriodStart
  /-- IMAGE_COPY_COMPLETE (R355): Copy and input forces complete, and the program pair resumes execution. -/
  | imageCopyComplete
  /-- START (R357): CYC_CTL.START initialises data and starts the program warm or cold. -/
  | start (src : Writer) (v : Word)
  /-- STOP (R356): CYC_CTL.STOP sends the program to STOPPED. -/
  | stop (src : Writer) (v : Word)
  /-- CLEAR_LIVE_READS (R380): CYC_CTL.CLRLR clears CYC_LRCNT and CYC_LRADDR. -/
  | clearLiveReads (src : Writer) (v : Word)
  /-- SYSCALL_SCC_CLOSE (R365): System call 0x001 queues an SCC close command. -/
  | syscallSccClose
  /-- SYSCALL_SCC_OPEN (R365): System call 0x002 queues an SCC open command. -/
  | syscallSccOpen
  /-- SYSCALL_SCC_ACK (R365): System call 0x003 queues an SCC acknowledge. -/
  | syscallSccAck
  /-- SYSCALL_STOREROOM (R365): System call 0x010 queues a Storeroom program-section write. -/
  | syscallStoreroom
  /-- SYSCALL_TRANSPORT (R365): System call 0x020 queues a transport request. -/
  | syscallTransport
  /-- SYSCALL_RELEASE (R365): System call 0x030 queues a release of claimed blocks. -/
  | syscallRelease
  /-- SYSCALL_RECORD (R365): System call 0x040 queues a program recorder entry. -/
  | syscallRecord
  /-- FORCE_WORD_WRITE (R372): Writes to force-entry words 0, 2 and 3 are staged. -/
  | forceWordWrite (src : Writer) (n : Byte) (w : BitVec 2) (v : Word)
  /-- FORCE_COMMIT (R374): A write to force-entry word 1 commits the entry and increments CYC_FGEN. -/
  | forceCommit (src : Writer) (n : Byte) (v : Word)
  /-- ONLINE_CHANGE_SWITCH (R377): After the commit following arming, the module switches to the new program. -/
  | onlineChangeSwitch
  /-- HEARTBEAT_SEND (R390): Every 100 µs a module sends a heartbeat frame. -/
  | heartbeatSend
  /-- HEARTBEAT (R391): A good heartbeat updates the partner state and the next expectation. -/
  | heartbeat (roleLow : Bool) (epoch : Word) (b4 b5 : Byte) (count : BitVec 16) (compat image cyc angle : Word) (inc : BitVec 48) (ns sec : Word)
  /-- HEARTBEAT_MISS (R391): No heartbeat within 110 µs counts a miss; three make the partner lost. -/
  | heartbeatMiss
  /-- PING (R386): At link-up and every second a module sends PING. -/
  | ping
  /-- PING_RECEIVE (R386): A received PING is answered with PONG after 40 ns. -/
  | pingReceive
  /-- PONG (R386): A received PONG gives the one-way latency and CUEDLY. -/
  | pong (rtt : BitVec 16)
  /-- CUE_STROBE_V (R387): Cue kind 0x1 issues a voltage-only strobe in step. -/
  | cueStrobeV (seq : BitVec 16)
  /-- CUE_STROBE_T (R387): Cue kind 0x2 issues a strobe with F[0] in step. -/
  | cueStrobeT (seq : BitVec 16)
  /-- CUE_STROBE_TA (R387): Cue kind 0x3 issues a strobe with F[0] and F[1] in step. -/
  | cueStrobeTa (seq : BitVec 16)
  /-- CUE_MAILBOX (R387): Cue kind 0x4 commits the slot of the preceding MAILBOX frame. -/
  | cueMailbox (m : BitVec 2)
  /-- CUE_SDM_SYNC (R387): Cue kind 0x5 triggers SDM_CTL.SYNC on both modules. -/
  | cueSdmSync
  /-- CUE_PWM_ALIGN (R411): Cue kind 0x6 loads the shade's PWM counters with the duty's values. -/
  | cuePwmAlign (counts : List (BitVec 20))
  /-- CUE_SCC (R387): Cue kind 0x7 applies an SCC command on both modules. -/
  | cueScc (n : BitVec 2)
  /-- CUE_ROLE_EXCHANGE (R409): Cue kind 0x8 exchanges the roles in a handover. -/
  | cueRoleExchange (epoch : BitVec 16)
  /-- CUE_RECOVERY_READ (R404): Cue kind 0x9 issues the far-end recovery read. -/
  | cueRecoveryRead (seq : BitVec 16)
  /-- CUE_BLANK (R404): Cue kind 0xA sends BLANK in SPLIT. -/
  | cueBlank
  /-- CUE_BAD_CHECK (R387): A CUE with a bad check is discarded and the shade drops. -/
  | cueBadCheck
  /-- IMAGE (R396): A shade takes the duty's input image and forces, acknowledges and starts execution. -/
  | image (crcOk : Bool) (cycle : Word) (image : List Byte) (forces : List ForceRow)
  /-- IMGACK (R396): The duty receives IMGACK and begins execution, or resends after a bad CRC. -/
  | imgack (cycle : Word) (status : Byte)
  /-- HASH (R397): The shade compares the duty's output hash, then commits or drops. -/
  | hash (cycle hash : Word)
  /-- HASHACK (R397): The duty receives the shade's hash result. -/
  | hashack (cycle : Word) (result : Byte)
  /-- MIRROR (R402): A shade writes a received mirror section into its own copy. -/
  | mirror (sec : BitVec 16) (off : Word) (data : List Byte)
  /-- SEGMENT (R404): Slots from the partner's segment are taken as Split-sourced. -/
  | segment (arg : Byte) (slots : List Byte)
  /-- MAILBOX (R401): A shade stages a mailbox slot sent by the duty. -/
  | mailbox (slot : Byte) (words : List Word)
  /-- CMD_HANDOVER (R409): CMD command 1 names the cycle after which the handover occurs. -/
  | cmdHandover (cycle : Word)
  /-- CMD_ONLINE_CHANGE (R377): CMD command 2 names the cycle for the online-change switch. -/
  | cmdOnlineChange (cycle : Word)
  /-- CMD_TRANSPORT (R209): CMD command 3 makes the shade enter transport mode. -/
  | cmdTransport
  /-- CMD_ENUMERATION (R404): CMD command 4 makes position 1 issue the enumeration. -/
  | cmdEnumeration (hop : Byte) (nodes : List EnumNode) (transit : BitVec 24)
  /-- CMD_RING_COMMAND (R404): CMD command 5 passes a ring command for the partner's segment. -/
  | cmdRingCommand (frame : List Byte)
  /-- FAIL (R405): A FAIL frame with the ROLE line high starts a takeover. -/
  | fail (roleLow : Bool)
  /-- RESYNC_GRANULES (R410): RESYNC kind 1 writes SRAM granules into the joining module. -/
  | resyncGranules (addr : Word) (data : List Byte)
  /-- RESYNC_REGISTERS (R410): RESYNC kind 2 writes registers and state into the joining module. -/
  | resyncRegisters (j : JoinState)
  /-- RESYNC_SLOT_HISTORY (R411): RESYNC kind 3 replaces a slot's history with the duty's. -/
  | resyncSlotHistory (sl : BitVec 3) (w14 w15 : Word) (e3 u3 : BitVec 16) (q : List (BitVec 16))
  /-- LINK_FRAME_DISCARD (R388): A twin-link frame with a bad CRC, ABORT or bad header is discarded. -/
  | linkFrameDiscard
  /-- LAG_EXPIRY (R399): The lag allowance expires and the duty proceeds, dropping the shade. -/
  | lagExpiry
  /-- MISSING_IMAGE (R400): No IMAGE within the allowance after a shade's own start drops the shade. -/
  | missingImage
  /-- JOIN_TIMEOUT (R393): The start-up conditions held for TW_JOINTO make a JOINING module duty. -/
  | joinTimeout (roleLow : Bool)
  /-- TAKEOVER (R406): An eligible shade asserts KILL_OUT to take over from a silent or failed duty. -/
  | takeover (roleLow : Bool)
  /-- KILL_SETTLE_EXPIRY (R406): After TW_KILLT the new duty increments its epoch and takes the duty role. -/
  | killSettleExpiry
  /-- KILL_IN (R395): KILL_IN becoming active deposes a duty or eligible shade and removes output power. -/
  | killIn (active : Bool)
  /-- DEPOSE (R395): TW_CTL.DEPOSE deposes the module. -/
  | depose (src : Writer) (v : Word)
  /-- REJOIN (R395): TW_CTL.REJOIN makes the warm reset that leaves the deposed state. -/
  | rejoin (src : Writer) (v : Word)
  /-- DEPOSED_TIMEOUT (R395): TW_DEPTO after deposing the module makes its rejoin reset. -/
  | deposedTimeout
  /-- SEED (R394): TW_CTL.SEED sets a zero epoch to 1. -/
  | seed (src : Writer) (v : Word)
  /-- HANDOVER (R409): TW_CTL.HANDOVER on a duty starts a handover. -/
  | handover (src : Writer) (v : Word)
  /-- RESYNC_ROUND (R410): After each duty commit a resynchronisation data round or the final round runs. -/
  | resyncRound
  /-- RESYNC_TIMEOUT (R410): TW_RSTO without completion fails resynchronisation. -/
  | resyncTimeout
  /-- MIRROR_INTERVAL (R402): Every TW_MIRINT ms the duty sends the estimator mirror sections. -/
  | mirrorInterval
  /-- LEAVE_CONFIGURATION (R419): A write of 0 to CANx_CTL.INIT leaves configuration or sets CFGERR. -/
  | leaveConfiguration (src : Writer) (x : BitVec 1) (v : Word)
  /-- BUS_INTEGRATED (R419): After 11 recessive bits the controller joins bus traffic. -/
  | busIntegrated (x : BitVec 1)
  /-- CAN_FRAME_RECEIVE (R424): A received CAN frame is stored in the matching object of lowest index. -/
  | canFrameReceive (x : BitVec 1) (ide fdf brs esi rtr : Bool) (id : BitVec 29) (dlc : BitVec 4) (data : List Byte)
  /-- RDSEL (R426): A write to CANx_RDSEL copies an object to RDBUF and clears its flags. -/
  | rdsel (src : Writer) (x : BitVec 1) (v : Word)
  /-- TXREQ (R427): A write to CANx_TXREQ makes transmit objects pending. -/
  | txreq (src : Writer) (x : BitVec 1) (k : BitVec 2) (v : Word)
  /-- TXCAN (R428): A write to CANx_TXCAN withdraws pending requests. -/
  | txcan (src : Writer) (x : BitVec 1) (k : BitVec 2) (v : Word) (onBus : Option (BitVec 7))
  /-- CAN_ATTEMPT_END (R429): A transmission attempt ends in success or error and retry. -/
  | canAttemptEnd (x : BitVec 1) (ago : Word) (tdcv : BitVec 7) (err : Option (BitVec 3 × Bool × Byte))
  /-- RECOVER (R431): A write of CANx_CTL.RECOVER starts bus-off recovery. -/
  | recover (src : Writer) (x : BitVec 1) (v : Word)
  /-- BUS_OFF_RECOVERY_DONE (R431): 128 occurrences of 11 recessive bits end bus-off. -/
  | busOffRecoveryDone (x : BitVec 1)
  /-- CAN_STAT_READ (R430): A read of CANx_STAT sets LEC and DLEC to 7. -/
  | canStatRead (x : BitVec 1)
  /-- SMB_IDENT (R443): SMBus IDENT block read returns identity. -/
  | smbIdent (a : BitVec 7) (lastAck : Bool)
  /-- SMB_STATUS (R443): SMBus STATUS read byte returns the summary byte. -/
  | smbStatus (a : BitVec 7) (lastAck : Bool)
  /-- SMB_REQCODE (R447): SMBus REQCODE read word returns and pops the request queue head. -/
  | smbReqcode (a : BitVec 7) (lastAck : Bool)
  /-- SMB_SOC (R443): SMBus SOC read word returns string SoC. -/
  | smbSoc (a : BitVec 7) (lastAck : Bool)
  /-- SMB_VSTR (R443): SMBus VSTR read word returns string voltage. -/
  | smbVstr (a : BitVec 7) (lastAck : Bool)
  /-- SMB_CURR (R443): SMBus CURR block read returns string current. -/
  | smbCurr (a : BitVec 7) (lastAck : Bool)
  /-- SMB_SOP (R443): SMBus SOP block read returns the four SoP outputs. -/
  | smbSop (a : BitVec 7) (lastAck : Bool)
  /-- SMB_TEXT (R443): SMBus TEXT block read returns temperature extremes. -/
  | smbText (a : BitVec 7) (lastAck : Bool)
  /-- SMB_VEXT (R443): SMBus VEXT block read returns cell-voltage extremes. -/
  | smbVext (a : BitVec 7) (lastAck : Bool)
  /-- SMB_CELLSEL (R445): SMBus CELLSEL write word selects a cell into SMB_WBUF. -/
  | smbCellsel (a : BitVec 7) (l : List Byte) (pec : Option Byte)
  /-- SMB_CELLDATA (R443): SMBus CELLDATA block read returns the selected cell's data. -/
  | smbCelldata (a : BitVec 7) (lastAck : Bool)
  /-- SMB_EVENT (R443): SMBus EVENT block read returns the latest record. -/
  | smbEvent (a : BitVec 7) (lastAck : Bool)
  /-- SMB_UREAD (R443): SMBus UREAD block read returns program-filled bytes. -/
  | smbUread (a : BitVec 7) (lastAck : Bool)
  /-- SMB_UWRITE (R445): SMBus UWRITE block write stores data in SMB_WBUF. -/
  | smbUwrite (a : BitVec 7) (count : Byte) (l : List Byte) (pec : Option Byte)
  /-- SMB_UNKNOWN_COMMAND (R444): An invalid command or protocol is not acknowledged and sets UNKCMD. -/
  | smbUnknownCommand (a : BitVec 7) (code : Byte) (read : Bool)
  /-- ALERT_RESPONSE (R447): A read at address 0x0C is answered with the module's address. -/
  | alertResponse (won lastAck : Bool)
  /-- SMB_REQSET (R447): A write to SMB_REQSET pushes a code onto the request queue. -/
  | smbReqset (src : Writer) (v : Word)
  /-- SDA_RELEASE_TIMEOUT (R449): SCL high with SDA held past SMB_RELTO releases SDA. -/
  | sdaReleaseTimeout
  /-- SCL_LOW_TIMEOUT (R449): SCL low for 35 ms resets the bus logic. -/
  | sclLowTimeout
  /-- ETH_FRAME_RECEIVE (R455): A received Ethernet frame is forwarded, delivered or dropped. -/
  | ethFrameReceive (p2 : Bool) (l : List Byte) (fcsOk : Bool) (res : Word)
  /-- ADDRESS_AGE_OUT (R455): A learned address older than ETH_AGE is removed. -/
  | addressAgeOut (mac : BitVec 48)
  /-- PEER_DELAY_MEASURE (R459): Every 2^LOGPDI s a port measures its link delay. -/
  | peerDelayMeasure (p2 : Bool) (ans : Option (Int × Int × Int × Int))
  /-- PDELAY_REQ (R459): A peer's Pdelay_Req is answered two-step. -/
  | pdelayReq (p2 : Bool) (req : List Byte)
  /-- SYNC (R462): A Sync from the grandmaster drives the PTP servo step or rate update. -/
  | sync (p2 : Bool) (dom : Byte) (sender : BitVec 80) (seq : BitVec 16) (twoStep : Bool) (t1 corr : Int) (logInt : BitVec 8)
  /-- ANNOUNCE (R461): A received Announce enters the best-master comparison. -/
  | announce (dom : Byte) (sender : BitVec 80) (p1 cls acc : Byte) (var : BitVec 16) (p2 : Byte) (gm : BitVec 64) (steps : BitVec 16) (logInt : BitVec 8)
  /-- SYNC_TIMEOUT (R462): No Sync for 3 intervals stops the servo and lets holdover run. -/
  | syncTimeout
  /-- ARP_REQUEST (R456): The host answers ARP. -/
  | arpRequest (sender : BitVec 48) (target : Word)
  /-- ICMP_ECHO (R456): The host answers ICMP echo. -/
  | icmpEcho (from_ dest : Word) (body : List Byte)
  /-- LAUNCH (R463): At its launch time a launch frame leaves, or is dropped as late. -/
  | launch (r : BitVec 2) (busy : Bool)
  /-- ETH_LINK_CHANGE (R468): A port's link goes up or down. -/
  | ethLinkChange (p2 up gig : Bool)
  /-- DMA_TAIL_WRITE (R470): A write of DMA_TAIL hands descriptors to a ring. -/
  | dmaTailWrite (src : Writer) (r : BitVec 6) (v : Word)
  /-- DMA_BASE_WRITE (R470): A write of DMA_BASE sets HEAD and TAIL to zero. -/
  | dmaBaseWrite (src : Writer) (r : BitVec 6) (v : Word)
  /-- DMA_ENABLE (R470): Setting DMA_CFG.EN starts a ring or refuses a bad array. -/
  | dmaEnable (src : Writer) (r : BitVec 6) (v : Word)
  /-- DMA_COMPLETION (R471): A descriptor completes, writes status, clears OWN and advances HEAD. -/
  | dmaCompletion (r : BitVec 6) (msg : List Byte)
  /-- INPUT_FILTER_TICK (R476): Every TICK µs the counter filter of an input moves and may change its level. -/
  | inputFilterTick (n : BitVec 5) (level : Bool)
  /-- OUTPUT_OVERLOAD (R479): An output in limit for FIO_OLIM is switched off and faulted. -/
  | outputOverload (k : BitVec 3)
  /-- OUTPUT_TEST_PULSE (R480): Every TPINT an on output is pulsed off and its readback checked. -/
  | outputTestPulse (k : BitVec 3) (fell : BitVec 2)
  /-- HOLD_WARM_TIMEOUT (R481): FIO_HOLDWARM.TO seconds end the warm hold of outputs. -/
  | holdWarmTimeout
  /-- KILL_IN_RELEASE (R483): KILL_IN becoming inactive restores output power within 10 µs. -/
  | killInRelease
  /-- WAKE_CHG (R484): WAKE_CHG active wakes the module from Standby. -/
  | wakeChg (active : Bool)
  /-- RECORD_POST (R492): A hardware or firmware post enters the recorder queue. -/
  | recordPost (fw : Bool) (code : BitVec 16) (payload : List Byte)
  /-- REC_POST (R492): A write to REC_POST posts REC_PBUF as a record. -/
  | recPost (src : Writer) (v : Word)
  /-- QUEUE_TO_LARDER (R492): Every 16 fabric cycles the oldest queued post enters the Larder. -/
  | queueToLarder
  /-- RECORDER_ENABLE (R493): Setting REC_CTL.EN reports overwritten records and deferred entries. -/
  | recorderEnable (src : Writer)
  /-- FLUSH (R494): A flush trigger writes every unflushed record to the journal. -/
  | flush (src : Writer) (v : Word)
  /-- FLUSH_COMPLETE (R496): A flush ends when all records are written or the next block is not free. -/
  | flushComplete
  /-- PERIODIC_FLUSH (R494): REC_FLPER seconds since the last flush start a flush. -/
  | periodicFlush
  /-- MIGRATION (R497): Firmware copies a complete journal block to the Cellar and marks it MIGRATED. -/
  | migration (ok : Bool)
  /-- IDENT (R507): Nypeha IDENT returns identity, slot and key state. -/
  | ident (tag : BitVec 16)
  /-- OPEN (R505): Nypeha OPEN returns a fresh nonce for a wanted level. -/
  | svcOpen (tag : BitVec 16) (level : Byte)
  /-- AUTH (R505): Nypeha AUTH verifies a signature and grants the level. -/
  | auth (tag : BitVec 16) (k : Byte) (xy rs : List Byte)
  /-- CLOSE (R506): Nypeha CLOSE ends the session. -/
  | svcClose (tag : BitVec 16)
  /-- READREG (R507): Nypeha READREG returns register words. -/
  | readreg (tag : BitVec 16) (a : Word) (n : BitVec 16)
  /-- WRITEREG (R508): Nypeha WRITEREG writes registers by block rules. -/
  | writereg (tag : BitVec 16) (a : Word) (words : List Word)
  /-- READMEM (R507): Nypeha READMEM returns memory bytes. -/
  | readmem (tag : BitVec 16) (a n : Word)
  /-- PARAMREAD (R507): Nypeha PARAMREAD returns a parameter block. -/
  | paramread (tag : BitVec 16) (n : Byte)
  /-- PARAMWRITE (R507): Nypeha PARAMWRITE checks and stores a parameter block. -/
  | paramwrite (tag : BitVec 16) (n : Byte) (b : ParamBlock)
  /-- RECREAD (R499): Nypeha RECREAD returns records by sequence range. -/
  | recread (tag : BitVec 16) (first count : Word)
  /-- FORCE (R507): Nypeha FORCE writes a force entry. -/
  | force (tag : BitVec 16) (n : Byte) (w0 w1 w2 w3 : Word)
  /-- PROGCTL_START (R507): Nypeha PROGCTL 1 starts the program. -/
  | progctlStart (tag : BitVec 16)
  /-- PROGCTL_STOP (R507): Nypeha PROGCTL 2 stops the program. -/
  | progctlStop (tag : BitVec 16)
  /-- CLEARTRIP (R507): Nypeha CLEARTRIP requests clearing of Crimson classes. -/
  | cleartrip (tag : BitVec 16) (mask : Word)
  /-- TRANSPORT (R507): Nypeha TRANSPORT requests transport mode. -/
  | transport (tag : BitVec 16)
  /-- CLRTRANSPORT (R507): Nypeha CLRTRANSPORT clears TRANSPORT. -/
  | clrtransport (tag : BitVec 16)
  /-- STAGEOPEN (R510): Nypeha STAGEOPEN checks a container header and erases the Attic. -/
  | stageopen (tag : BitVec 16) (header : List Byte)
  /-- STAGEBLOCK (R510): Nypeha STAGEBLOCK writes a checked block record to the Attic. -/
  | stageblock (tag : BitVec 16) (block : List Byte)
  /-- STAGEEND (R511): Nypeha STAGEEND verifies digest, key and signature and stages the image. -/
  | stageend (tag : BitVec 16) (trailer : List Byte)
  /-- ACTIVATE (R512): Nypeha ACTIVATE marks a staged image pending in the slot record. -/
  | activate (tag : BitVec 16) (kind : Byte) (force : Bool)
  /-- ONLINECHG (R375): Nypeha ONLINECHG prepares and arms an online change. -/
  | onlinechg (tag : BitVec 16) (ready : Bool)
  /-- TWINCFG (R382): Nypeha TWINCFG writes TW_CFG or a TW_CTL action. -/
  | twincfg (tag : BitVec 16) (ctl : Bool) (v : Word)
  /-- PROGKEY (R509): Nypeha PROGKEY programs key hash 2 once. -/
  | progkey (tag : BitVec 16) (k : Byte) (hash : List Byte)
  /-- REVOKE (R509): Nypeha REVOKE blows a key's revocation fuse. -/
  | revoke (tag : BitVec 16) (k j : Byte) (xy rs : List Byte)
  /-- RESET_WARM (R528): Nypeha RESET kind 1 makes a warm reset. -/
  | resetWarm (tag : BitVec 16)
  /-- RESET_RECOVERY (R515): Nypeha RESET kind 2 makes a recovery-entry reset. -/
  | resetRecovery (tag : BitVec 16)
  /-- DEBUG (R507): Nypeha DEBUG opens or closes the debug session. -/
  | debug (tag : BitVec 16) (on : Bool)
  /-- NYPEHA_REJECT (R504): A message with bad CRC or magic, or while busy, is answered without effect. -/
  | nypehaReject (cmd : Byte) (tag : BitVec 16) (busy : Bool)
  /-- USB_DETACH (R506): USB detach ends the session. -/
  | usbDetach
  /-- SESSION_IDLE_TIMEOUT (R506): SVC_IDLETO seconds without a request end the session. -/
  | sessionIdleTimeout
  /-- TRIAL_CONFIRM (R513): A write to SVC_CONFIRM ends the firmware trial. -/
  | trialConfirm (src : Writer) (v : Word)
  /-- FEED_LOST (R520): A feed below 2.4 V for 200 µs is lost, and with no good feed Hold-up is entered. -/
  | feedLost (fb : Bool) (mv : BitVec 16)
  /-- FEED_GOOD (R520): A feed at or above 2.6 V for 1 ms becomes good. -/
  | feedGood (fb : Bool) (mv : BitVec 16)
  /-- RIDE_EXPIRY (R522): RIDE ms after Hold-up entry the module enters flush mode. -/
  | rideExpiry
  /-- BANK_CHARGED (R521): The bank reaches 24.0 V and HUREADY sets. -/
  | bankCharged
  /-- BANK_NV_CLOSE (R523): The bank at 11.0 V closes NVC and opens the contactors. -/
  | bankNvClose
  /-- BANK_EXHAUSTED (R523): The bank at 10.0 V writes the exhaustion mark and goes Off. -/
  | bankExhausted
  /-- HOLD_UP_RETURN (R524): A feed good for RETDB ms ends Hold-up without a reset. -/
  | holdUpReturn
  /-- STANDBY_IDLE_ENTRY (R527): The idle conditions held for PWR_IDLETO enter Standby (idle). -/
  | standbyIdleEntry
  /-- STANDBY_WAKE (R527): A wake source in Standby makes a cold reset. -/
  | standbyWake (source : BitVec 2) (adr : BitVec 7)
  /-- POWER_ON (R528): A feed good after Off makes a cold power-on reset. -/
  | powerOn
  /-- BROWN_OUT (R528): Internal rails outside limits make a cold reset. -/
  | brownOut
  /-- WATCHDOG_KICK (R529): A write of 0xA5 to PWR_WDT.KICK restarts the system watchdog. -/
  | watchdogKick (src : Writer) (v : Word)
  /-- WATCHDOG_EXPIRY (R529): PWR_WDT.TO without a kick makes a warm reset. -/
  | watchdogExpiry
  /-- SOFTWARE_RESET (R528): A write of PWR_CTL.SWRST makes a warm reset. -/
  | softwareReset (src : Writer) (v : Word)
  /-- STBY (R527): A write of PWR_CTL.STBY enters Standby (idle). -/
  | stby (src : Writer) (v : Word)
  /-- RST_N_RESET (R528): RST_N low for 10 µs asserts a warm reset until it rises. -/
  | rstNReset (high : Bool)
  /-- BRING_UP (R533): After reset release the loader, enumeration and Grey set-up bring the module to Grey service. -/
  | bringUp (found : Option (Byte × List EnumNode × BitVec 24))
  /-- FULL_SERVICE (R533): System firmware reaches full service and the state becomes Run. -/
  | fullService
  /-- DIE_MEASUREMENT (R534): Every 1 ms the die sensors are read and thermal levels judged. -/
  | dieMeasurement (t0 t1 t2 t3 t4 t5 : BitVec 16)
  /-- THERMAL_CUT (R536): The always-on sensor at 135 °C cuts every rail and goes Off. -/
  | thermalCut
  /-- THERMAL_RESTART (R536): Below 95 °C with a good feed the module restarts with cause 4. -/
  | thermalRestart
  /-- IN_SERVICE_TEST (R538): Firmware runs a due in-service test in an idle window. -/
  | inServiceTest (n : BitVec 4) (pass : Bool) (vals : List (Nat × Int))
  /-- LEDGER_RECORD (R539): After each 24 h firmware writes a ledger record and re-plans margins. -/
  | ledgerRecord
  /-- ALWAYS_ON_SAVE (R531): Every 10 s the cycle count and operating time are saved to MRAM. -/
  | alwaysOnSave
  /-- NVC_MRAM_WRITE (R544): NVC_RGO kind 1 queues an MRAM write. -/
  | nvcMramWrite (src : Writer) (tag : Byte)
  /-- NVC_NOR_PROGRAM (R544): NVC_RGO kind 2 queues a NOR program. -/
  | nvcNorProgram (src : Writer) (tag : Byte)
  /-- NVC_NOR_ERASE (R544): NVC_RGO kind 3 queues a NOR sector erase. -/
  | nvcNorErase (src : Writer) (tag : Byte)
  /-- NVC_UNIT_COMPLETE (R544): An atomic NVC unit completes, and the request advances or completes. -/
  | nvcUnitComplete (verified : Bool)
  /-- NVC_DONE_READ (R545): A read of NVC_DONE pops the completion FIFO. -/
  | nvcDoneRead
  /-- REFERENCE_TICK (R30): On every 125 MHz tick the local clock advances by the effective increment, the program time base accumulates and the angle word advances. -/
  | referenceTick
  /-- TWIN_RESYNC_RESET (R400): A shade that dropped, or a joining module receiving a new program image, makes a warm reset of cause 11 (twin resync). -/
  | twinResyncReset
  /-- CONV_FLT_RISE (R256): CONV_FLT returns high, ending the PWM block by CONV_FLT and letting class 10 clear. -/
  | convFltRise
  /-- NOR_ERASE_COMPLETE (R549): A NOR sector erase completes, and NVC updates the sector's erase count and completes the request. -/
  | norEraseComplete
  /-- CAN_RECEIVE_ERROR (R430): An error detected while receiving a CAN frame raises REC and may set EWARN or EPASS with their recorder entries. -/
  | canReceiveError (x : BitVec 1) (code : BitVec 3) (data : Bool) (rise : BitVec 2)
  /-- FOLLOW_UP (R462): A Follow_Up from the grandmaster completes a two-step Sync and drives the servo update. -/
  | followUp (dom : Byte) (sender : BitVec 80) (seq : BitVec 16) (t1 corr : Int)
  /-- SCC_DIAGNOSTICS_RESUME (R170): 10 ms after KILL_IN restores channel power, SCC takes up its switch and coil diagnostics again and restarts its test intervals. -/
  | sccDiagnosticsResume
  /-- NYPEHA_UNKNOWN_COMMAND (R507): A Nypeha request with a reserved CMD is answered with UNKCMD and not performed. -/
  | nypehaUnknownCommand (cmd : Byte) (tag : BitVec 16)
deriving DecidableEq, Repr

end Sys2Proof
end

