-- ==== Sys2Proof/Decode.lean ====
section
/-! DEFINITION. The reading of a word as a command, and of a word of program memory as an instruction.  The table of
operations and events gives no row any bits, so no word spells a command of it; commands reach the queue from outside.  A
Pleol instruction word has the encoding of R309, R310 and R343. -/

namespace Sys2Proof

/-- The command that the low `nbits` bits of `w` spell: none, since no row of the table has bits. -/
def decodeTableWord (_nbits _w : Nat) : Option Instr := none

/-! ### Instruction words (R309, R310, Tables 12.3 to 12.14) -/

/-- The instruction, unless a field that it does not use is not zero (R310, R344). -/
def whenZero (unused : Bool) (i : Instr) : Option Instr := if unused then some i else none

/-- Opcode 0x00 (Table 12.5). -/
def decodeInteger (p : Pair) (d a b : GReg) (f : Nat) : Option Instr :=
  match f with
  | 0x000 => some (.add p d a b)
  | 0x001 => some (.sub p d a b)
  | 0x002 => some (.and p d a b)
  | 0x003 => some (.or p d a b)
  | 0x004 => some (.xor p d a b)
  | 0x005 => some (.nor p d a b)
  | 0x006 => some (.slt p d a b)
  | 0x007 => some (.sltu p d a b)
  | 0x008 => some (.sll p d a b)
  | 0x009 => some (.srl p d a b)
  | 0x00A => some (.sra p d a b)
  | 0x00B => some (.ror p d a b)
  | 0x010 => some (.slli p d a b)
  | 0x011 => some (.srli p d a b)
  | 0x012 => some (.srai p d a b)
  | 0x013 => some (.rori p d a b)
  | 0x018 => some (.min p d a b)
  | 0x019 => some (.max p d a b)
  | 0x01A => some (.minu p d a b)
  | 0x01B => some (.maxu p d a b)
  | 0x020 => some (.adds p d a b)
  | 0x021 => some (.subs p d a b)
  | 0x028 => whenZero (b = 0) (.clz p d a)
  | 0x029 => whenZero (b = 0) (.popc p d a)
  | 0x030 => whenZero (b = 0) (.extb p d a)
  | 0x031 => whenZero (b = 0) (.exth p d a)
  | 0x040 => whenZero (d = 0 && b = 0) (.jr p a)
  | 0x041 => whenZero (b = 0) (.jalr p d a)
  | _ => none

/-- Opcodes 0x08 to 0x0E (Table 12.6); the a field of LUI must be 0. -/
def decodeImmediate (p : Pair) (op : Nat) (d a : GReg) (imm : BitVec 16) : Option Instr :=
  match op with
  | 0x008 => some (.addi p d a imm)
  | 0x009 => some (.andi p d a imm)
  | 0x00A => some (.ori p d a imm)
  | 0x00B => some (.xori p d a imm)
  | 0x00C => some (.slti p d a imm)
  | 0x00D => some (.sltiu p d a imm)
  | 0x00E => whenZero (a = 0) (.lui p d imm)
  | _ => none

/-- Opcode 0x01 (Table 12.7). -/
def decodeMultiply (p : Pair) (d a b : GReg) (f : Nat) : Option Instr :=
  match f with
  | 0x000 => some (.mul p d a b)
  | 0x001 => some (.mulh p d a b)
  | 0x002 => some (.mulhu p d a b)
  | 0x004 => some (.div p d a b)
  | 0x005 => some (.divu p d a b)
  | 0x006 => some (.rem p d a b)
  | 0x007 => some (.remu p d a b)
  | _ => none

/-- Opcode 0x02 (Table 12.8). -/
def decodeFraction (p : Pair) (d a b : GReg) (f : Nat) : Option Instr :=
  match f with
  | 0x000 => some (.qmul15 p d a b)
  | 0x001 => some (.qmul31 p d a b)
  | 0x002 => some (.qadd15 p d a b)
  | 0x003 => some (.qsub15 p d a b)
  | 0x004 => some (.qmac31 p d a b)
  | 0x008 => whenZero (b = 0) (.qsat16 p d a)
  | _ => none

/-- Opcode 0x03 (Table 12.9). -/
def decodeFloat (p : Pair) (d a b : GReg) (f : Nat) : Option Instr :=
  match f with
  | 0x000 => some (.fadd p d a b)
  | 0x001 => some (.fsub p d a b)
  | 0x002 => some (.fmul p d a b)
  | 0x003 => some (.fdiv p d a b)
  | 0x004 => whenZero (b = 0) (.fsqrt p d a)
  | 0x005 => some (.fmin p d a b)
  | 0x006 => some (.fmax p d a b)
  | 0x007 => some (.fmadd p d a b)
  | 0x008 => some (.feq p d a b)
  | 0x009 => some (.flt p d a b)
  | 0x00A => some (.fle p d a b)
  | 0x00C => whenZero (b = 0) (.fcvtws p d a)
  | 0x00D => whenZero (b = 0) (.fcvtsw p d a)
  | 0x00E => whenZero (b = 0) (.fcvtswu p d a)
  | 0x010 => whenZero (b = 0) (.fneg p d a)
  | 0x011 => whenZero (b = 0) (.fabs p d a)
  | 0x020 => whenZero (b = 0) (.fcvtsd p d a)
  | 0x021 => whenZero (b = 0) (.fcvtds p d a)
  | 0x200 => some (.dadd p d a b)
  | 0x201 => some (.dsub p d a b)
  | 0x202 => some (.dmul p d a b)
  | 0x203 => some (.ddiv p d a b)
  | 0x204 => whenZero (b = 0) (.dsqrt p d a)
  | 0x205 => some (.dmin p d a b)
  | 0x206 => some (.dmax p d a b)
  | 0x207 => some (.dmadd p d a b)
  | 0x208 => some (.deq p d a b)
  | 0x209 => some (.dlt p d a b)
  | 0x20A => some (.dle p d a b)
  | 0x20C => whenZero (b = 0) (.dcvtws p d a)
  | 0x20D => whenZero (b = 0) (.dcvtsw p d a)
  | 0x20E => whenZero (b = 0) (.dcvtswu p d a)
  | 0x210 => whenZero (b = 0) (.dneg p d a)
  | 0x211 => whenZero (b = 0) (.dabs p d a)
  | _ => none

/-- Opcodes 0x10 to 0x1B (Table 12.10). -/
def decodeMemory (p : Pair) (op : Nat) (d a : GReg) (imm : BitVec 16) : Option Instr :=
  match op with
  | 0x010 => some (.ldw p d a imm)
  | 0x011 => some (.ldh p d a imm)
  | 0x012 => some (.ldhu p d a imm)
  | 0x013 => some (.ldb p d a imm)
  | 0x014 => some (.ldbu p d a imm)
  | 0x015 => some (.ldd p d a imm)
  | 0x018 => some (.stw p d a imm)
  | 0x019 => some (.sth p d a imm)
  | 0x01A => some (.stb p d a imm)
  | 0x01B => some (.std p d a imm)
  | _ => none

/-- Opcode 0x1C (Table 12.10). -/
def decodeAtomic (p : Pair) (d a b : GReg) (f : Nat) : Option Instr :=
  match f with
  | 0x000 => whenZero (b = 0) (.ldx p d a)
  | 0x001 => some (.stx p d a b)
  | 0x002 => some (.amoswp p d a b)
  | 0x003 => some (.amoadd p d a b)
  | 0x004 => some (.amoand p d a b)
  | 0x005 => some (.amoor p d a b)
  | 0x006 => some (.amomax p d a b)
  | 0x007 => some (.amomin p d a b)
  | _ => none

/-- Opcodes 0x20 to 0x25 (Table 12.11). -/
def decodeBranch (p : Pair) (op : Nat) (a b : GReg) (off : BitVec 16) : Option Instr :=
  match op with
  | 0x020 => some (.beq p a b off)
  | 0x021 => some (.bne p a b off)
  | 0x022 => some (.blt p a b off)
  | 0x023 => some (.bge p a b off)
  | 0x024 => some (.bltu p a b off)
  | 0x025 => some (.bgeu p a b off)
  | _ => none

/-- Opcode 0x30 (Table 12.12). -/
def decodeCyclic (p : Pair) (d a b : GReg) (f : Nat) : Option Instr :=
  match f with
  | 0x000 => whenZero (d = 0 && a = 0 && b = 0) (.cyend p)
  | 0x001 => whenZero (a = 0) (.tbrd p d b)
  | 0x010 => some (.ton p d a b)
  | 0x011 => some (.tof p d a b)
  | 0x012 => some (.tp p d a b)
  | 0x020 => some (.ctu p d a b)
  | 0x021 => some (.ctd p d a b)
  | 0x022 => some (.ctud p d a b)
  | 0x030 => some (.rtrig p d a b)
  | 0x031 => some (.ftrig p d a b)
  | _ => none

/-- Opcode 0x3E (Table 12.14). -/
def decodeSystem (p : Pair) (d a : GReg) (sfn : Nat) (imm : BitVec 11) : Option Instr :=
  match sfn with
  | 0x000 => whenZero (a = 0) (.mfs p d imm)
  | 0x001 => whenZero (d = 0) (.mts p a imm)
  | 0x002 => some (.sets p d a imm)
  | 0x003 => some (.clrs p d a imm)
  | 0x004 => whenZero (d = 0 && a = 0) (.sysc p imm)
  | 0x005 => whenZero (d = 0 && a = 0 && imm = 0) (.rfx p)
  | 0x006 => whenZero (d = 0 && a = 0) (.fence p imm)
  | 0x007 => whenZero (imm = 0) (.wfe p d a)
  | 0x008 => whenZero (d = 0 && a = 0) (.sev p imm)
  | 0x009 => whenZero (d = 0 && a = 0 && imm = 0) (.brk p)
  | _ => none

/-! ### The cell-vector extension (R343, R344, Tables 13.2 to 13.6) -/

/-- The fields of format V: vd, va, s2 as vb with [19:18] or as wb, SC, ME and MI. -/
structure VFields where
  vd : VReg
  va : VReg
  s2 : BitVec 5
  sc : Bool
  me : Bool
  mi : MReg
deriving DecidableEq, Repr

/-- The fields of a word in format V. -/
def vFields (w : Word) : VFields where
  vd := w.extractLsb' 23 3
  va := w.extractLsb' 20 3
  s2 := w.extractLsb' 15 5
  sc := w.getLsbD 14
  me := w.getLsbD 13
  mi := w.extractLsb' 11 2

/-- The mask fields; MI must be 0 where ME is 0, which then does not use it (DEDUCED: log entry 229). -/
def VFields.maskOk (x : VFields) : Bool := x.me || x.mi = 0

/-- ME and MI as an operand. -/
def VFields.mask (x : VFields) : VMask := { me := x.me, mi := x.mi }

/-- The second source is one: with SC 0 the field's bits [19:18] are 0. -/
def VFields.srcOk (x : VFields) : Bool := x.sc || x.s2.toNat < 8

/-- The second source. -/
def VFields.src (x : VFields) : VSrc := if x.sc then .bcast x.s2 else .vec (x.s2.extractLsb' 0 3)

/-- No second source: s2 and SC are 0. -/
def VFields.noSrc (x : VFields) : Bool := x.s2 = 0 && !x.sc

/-- A mask number in a field of three bits, whose upper bit is 0. -/
def maskField (v : VReg) : Option MReg := if v.toNat < 4 then some (v.extractLsb' 0 2) else none

/-- An instruction with vd, va, a second source and a mask. -/
def VFields.op (x : VFields) (f : VReg → VReg → VSrc → VMask → Instr) : Option Instr :=
  whenZero (x.srcOk && x.maskOk) (f x.vd x.va x.src x.mask)

/-- An instruction with vd, va and a mask. -/
def VFields.op1 (x : VFields) (f : VReg → VReg → VMask → Instr) : Option Instr :=
  whenZero (x.noSrc && x.maskOk) (f x.vd x.va x.mask)

/-- A compare into the mask in vd[24:23]. -/
def VFields.cmp (x : VFields) (f : MReg → VReg → VSrc → VMask → Instr) : Option Instr :=
  match maskField x.vd with
  | some md => whenZero (x.srcOk && x.maskOk) (f md x.va x.src x.mask)
  | none => none

/-- A mask operation, with SC 0 and its masks in vd[24:23], va and s2. -/
def VFields.mm (x : VFields) (f : MReg → MReg → MReg → VMask → Instr) : Option Instr :=
  match maskField x.vd, maskField x.va with
  | some md, some ma => whenZero (!x.sc && decide (x.s2.toNat < 4) && x.maskOk) (f md ma (x.s2.extractLsb' 0 2) x.mask)
  | _, _ => none

/-- A table instruction: the table's base is general register wb, so SC is 1. -/
def VFields.table (x : VFields) (f : VReg → VReg → GReg → VMask → Instr) : Option Instr :=
  whenZero (x.sc && x.maskOk) (f x.vd x.va x.s2 x.mask)

/-- Opcode 0x38 (Table 13.3). -/
def decodeVInteger (p : Pair) (x : VFields) (f : Nat) : Option Instr :=
  match f with
  | 0x000 => x.op (.vadd p)
  | 0x001 => x.op (.vsub p)
  | 0x002 => x.op (.vand p)
  | 0x003 => x.op (.vor p)
  | 0x004 => x.op (.vxor p)
  | 0x005 => x.op (.vsll p)
  | 0x006 => x.op (.vsrl p)
  | 0x007 => x.op (.vsra p)
  | 0x008 => x.op (.vmin p)
  | 0x009 => x.op (.vmax p)
  | 0x00A => x.op (.vminu p)
  | 0x00B => x.op (.vmaxu p)
  | 0x00C => x.op (.vadds p)
  | 0x00D => x.op (.vsubs p)
  | 0x010 => x.op (.vmul p)
  | 0x011 => x.op (.vmulh p)
  | 0x018 => x.op (.vqmul31 p)
  | 0x019 => x.op (.vqmac31 p)
  | 0x030 => whenZero (x.va = 0 && x.srcOk && x.maskOk) (.vmv p x.vd x.src x.mask)
  | 0x031 => whenZero (!x.me && x.srcOk) (.vsel p x.vd x.va x.src x.mi)
  | 0x032 => whenZero (x.va = 0 && x.noSrc && x.maskOk) (.viota p x.vd x.mask)
  | _ => none

/-- Opcode 0x39 (Table 13.4). -/
def decodeVFloat (p : Pair) (x : VFields) (f : Nat) : Option Instr :=
  match f with
  | 0x000 => x.op (.vfadd p)
  | 0x001 => x.op (.vfsub p)
  | 0x002 => x.op (.vfmul p)
  | 0x003 => x.op (.vfdiv p)
  | 0x004 => x.op1 (.vfsqrt p)
  | 0x005 => x.op (.vfmin p)
  | 0x006 => x.op (.vfmax p)
  | 0x007 => x.op (.vfmadd p)
  | 0x00C => x.op1 (.vfcvtws p)
  | 0x00D => x.op1 (.vfcvtsw p)
  | 0x010 => x.op1 (.vfneg p)
  | 0x011 => x.op1 (.vfabs p)
  | _ => none

/-- Opcode 0x3A (Table 13.5). -/
def decodeVMask (p : Pair) (x : VFields) (f : Nat) : Option Instr :=
  match f with
  | 0x000 => x.cmp (.vceq p)
  | 0x001 => x.cmp (.vcne p)
  | 0x002 => x.cmp (.vclt p)
  | 0x003 => x.cmp (.vcge p)
  | 0x004 => x.cmp (.vcltu p)
  | 0x005 => x.cmp (.vcgeu p)
  | 0x008 => x.cmp (.vfceq p)
  | 0x009 => x.cmp (.vfclt p)
  | 0x00A => x.cmp (.vfcle p)
  | 0x010 => x.mm (.mand p)
  | 0x011 => x.mm (.mor p)
  | 0x012 => x.mm (.mandn p)
  | 0x013 => if x.noSrc then x.mm (fun md ma _ k => .mnot p md ma k) else none
  | 0x020 => x.table (.vinterp p)
  | 0x021 => x.table (.vinvert p)
  | _ => none

/-- Opcode 0x3B in format VX (Table 13.6); a vector in the d field stands in [23:21] with [25:24] zero. -/
def decodeVMemory (p : Pair) (w : Word) : Option Instr :=
  let d : GReg := w.extractLsb' 21 5
  let a : GReg := w.extractLsb' 16 5
  let v : VReg := w.extractLsb' 13 3
  let k : VMask := { me := w.getLsbD 12, mi := w.extractLsb' 10 2 }
  let plain := !k.me && k.mi = 0
  let ok := k.me || k.mi = 0
  let mask (f : MReg → Instr) : Option Instr := match maskField v with | some m => some (f m) | none => none
  match w.toNat % 1024 with
  | 0x000 => whenZero (v = 0 && plain) (.vsetvl p d a)
  | 0x001 => whenZero (a = 0 && v = 0 && plain) (.vgetvl p d)
  | 0x002 => if a = 0 && plain then mask (.vmrd p d) else none
  | 0x003 => if d = 0 && plain then mask (.vmwr p a) else none
  | 0x010 => whenZero (d = 0 && ok) (.vld p v a k)
  | 0x011 => whenZero (d = 0 && ok) (.vst p v a k)
  | 0x014 => whenZero (decide (d.toNat < 8) && ok) (.vgath p v (d.extractLsb' 0 3) a k)
  | 0x015 => whenZero (decide (d.toNat < 8) && ok) (.vscat p v (d.extractLsb' 0 3) a k)
  | 0x020 => whenZero (a = 0 && ok) (.vredadd p d v k)
  | 0x021 => whenZero (a = 0 && ok) (.vredmin p d v k)
  | 0x022 => whenZero (a = 0 && ok) (.vredmax p d v k)
  | 0x023 => whenZero (a = 0 && ok) (.vredfadd p d v k)
  | 0x024 => whenZero (a = 0 && ok) (.vmini p d v k)
  | 0x025 => whenZero (a = 0 && ok) (.vmaxi p d v k)
  | _ => none

/-- The instruction that a word spells for a pair: the major opcode in [31:26] selects the format; none where the word raises
the illegal-instruction exception (R309, R310, R344, Tables 12.3 and 12.4). -/
def decodePleol (p : Pair) (w : Word) : Option Instr :=
  let op := w.toNat / 2 ^ 26
  let d : GReg := w.extractLsb' 21 5
  let a : GReg := w.extractLsb' 16 5
  let b : GReg := w.extractLsb' 11 5
  let f := w.toNat % 2048
  let imm : BitVec 16 := w.extractLsb' 0 16
  if op = 0x00 then decodeInteger p d a b f
  else if op = 0x01 then decodeMultiply p d a b f
  else if op = 0x02 then decodeFraction p d a b f
  else if op = 0x03 then decodeFloat p d a b f
  else if op < 0x10 then decodeImmediate p op d a imm
  else if op < 0x1C then decodeMemory p op d a imm
  else if op = 0x1C then decodeAtomic p d a b f
  else if op < 0x28 then decodeBranch p op d a imm
  else if op = 0x28 then some (.j p (w.extractLsb' 0 26))
  else if op = 0x29 then some (.jal p (w.extractLsb' 0 26))
  else if op = 0x30 then decodeCyclic p d a b f
  else if op = 0x38 then decodeVInteger p (vFields w) f
  else if op = 0x39 then decodeVFloat p (vFields w) f
  else if op = 0x3A then decodeVMask p (vFields w) f
  else if op = 0x3B then decodeVMemory p w
  else if op = 0x3E then decodeSystem p d a (w.toNat / 2048 % 32) (w.extractLsb' 0 11)
  else none

end Sys2Proof
end

