-- ==== Sys2Proof/Config.lean ====
section
/-! DEFINITION. The free values: constants with no body, which no proof can evaluate. -/

namespace Sys2Proof

/-- The free value of number `n`: a value the spec leaves open and the machine goes on with. -/
opaque Config.free : Nat → Nat

/-- A byte of indeterminate data: a value of the count of free values and an address (R547, R548). -/
opaque Config.freeByte : Nat → Nat → Byte

/-- How the hardware rounds the sine at `num / den` of a period, scaled by 2^30 (R218, R226). -/
opaque Config.sine : Nat → Nat → Int

/-- How it rounds the Hann weight at `num / den` of a window, scaled by 2^30 (R220). -/
opaque Config.hann : Nat → Nat → Int

/-- How a quotient of two signed numbers is rounded where the spec gives real numbers and no number format. -/
opaque Config.quot : Int → Int → Int

/-- How the exponential of minus a quotient is rounded, scaled by 2^30. -/
opaque Config.expo : Int → Int → Int

/-- How a square root is rounded. -/
opaque Config.root : Int → Int

/-- How the four-quadrant arc tangent of an imaginary and a real part is rounded, in 0.01 degrees (R230). -/
opaque Config.atan2 : Int → Int → Int

/-- System firmware's τ in µs from ωτ, scaled by 2^30, and the period of the reference in ns (R229). -/
opaque Config.tauOf : Int → Nat → Int

/-- The current correction CCOR of a bin: the nominal increment times MUL, DIVR, the sinc3 decimation and the divisor of
the modulator clock (R234). -/
opaque Config.ccor : Nat → Nat → Nat → Nat → BitVec 32

/-- The limit that estimation's derating asks for: comparison (0 Crimson high, 1 Crimson low, 2 Ochre high, 3 Ochre
low), base limit, temperature, and capacity SoH in 0.01 % (R164). -/
opaque Config.derate : Nat → Int → Int → Nat → Int

/-- The 32 bytes that the fuses hold as the hash of the key with a number that the factory programmed (R509). -/
opaque Config.keyHash : Nat → List Byte

/-- The bytes of the nonce that the module draws, by the count of free values and byte (R505). -/
opaque Config.nonce : Nat → Nat → Byte

end Sys2Proof
end

