-- ==== Sys2Proof/Machine/Store.lean ====
section
/-! DEFINITION. Sparse stores: the one canonical form in which the model keeps memory, registers and
indexed state, and the bit-field and sign-extension helpers every meaning uses (R4). -/

namespace Sys2Proof.Machine

/-- What the store `l` holds at key `k`: its listed value, or the default `d k` of an unlisted key. -/
def Store.get {α : Type} (d : Nat → α) : List (Nat × α) → Nat → α
  | [], k => d k
  | (k', v) :: t, k => if k = k' then v else if k < k' then d k else Store.get d t k

/-- The store with `v` at key `k`.  Keys stay strictly rising and no listed value equals its default. -/
def Store.put {α : Type} [DecidableEq α] (d : Nat → α) : List (Nat × α) → Nat → α → List (Nat × α)
  | [], k, v => if v = d k then [] else [(k, v)]
  | (k', v') :: t, k, v =>
    if k < k' then (if v = d k then (k', v') :: t else (k, v) :: (k', v') :: t)
    else if k = k' then (if v = d k then t else (k, v) :: t)
    else (k', v') :: Store.put d t k v

/-- Every key of the store lies above `lo`. -/
def Store.above {α : Type} (lo : Nat) : List (Nat × α) → Bool
  | [] => true
  | (k, _) :: _ => decide (lo < k)

/-- The canonical form: keys strictly rising, and no entry equal to its default. -/
def Store.wf {α : Type} [DecidableEq α] (d : Nat → α) : List (Nat × α) → Bool
  | [] => true
  | (k, v) :: t => decide (v ≠ d k) && Store.above k t && Store.wf d t

/-- Keep the part of every entry that `f` gives; entries that become equal to their default leave. -/
def Store.mapKeep {α : Type} [DecidableEq α] (d : Nat → α) (f : Nat → α → α) :
    List (Nat × α) → List (Nat × α)
  | [] => []
  | (k, v) :: t =>
    if f k v = d k then Store.mapKeep d f t else (k, f k v) :: Store.mapKeep d f t

/-! ### Bit fields -/

/-- The field [hi:lo] of a word, as a number (R4). -/
def fieldOf (w : Word) (hi lo : Nat) : Nat := (w.toNat >>> lo) % 2 ^ (hi - lo + 1)

/-- The word with `v` in field [hi:lo]; a wider `v` is taken modulo the field's size. -/
def withField (w : Word) (hi lo : Nat) (v : Nat) : Word :=
  let m := (2 ^ (hi - lo + 1) - 1) <<< lo
  BitVec.ofNat 32 ((w.toNat &&& (0xFFFFFFFF ^^^ m)) ||| ((v <<< lo) &&& m))

/-- Bit `i` of a word. -/
def bitOf (w : Word) (i : Nat) : Bool := w.getLsbD i

/-- The word with bit `i` set to `b`. -/
def withBit (w : Word) (i : Nat) (b : Bool) : Word :=
  withField w i i (if b then 1 else 0)

/-- 1 for true, 0 for false. -/
def b2n (b : Bool) : Nat := if b then 1 else 0

/-! ### Numbers -/

/-- The signed value of the low `n` bits of `v`. -/
def sx (n : Nat) (v : Nat) : Int :=
  let u := v % 2 ^ n
  if u < 2 ^ (n - 1) then (u : Int) else (u : Int) - (2 ^ n : Nat)

/-- The signed value of a word. -/
def sw (w : Word) : Int := w.toInt

/-- The word of a signed number, modulo 2^32. -/
def iw (i : Int) : Word := BitVec.ofInt 32 i

/-- The word of a number, modulo 2^32. -/
def nw (n : Nat) : Word := BitVec.ofNat 32 n

/-- A number held to the range from `lo` to `hi`. -/
def clampI (lo hi i : Int) : Int := if i < lo then lo else if hi < i then hi else i

/-- A number held to at most `hi`. -/
def satN (hi n : Nat) : Nat := if hi < n then hi else n

/-- Saturation to the signed 16-bit range. -/
def sat16 (i : Int) : Int := clampI (-32768) 32767 i

/-- Saturation to the signed 32-bit range. -/
def sat32 (i : Int) : Int := clampI (-2147483648) 2147483647 i

/-- Arithmetic shift right of a signed number: floor division by 2^n. -/
def sarI (i : Int) (n : Nat) : Int := i / (2 ^ n : Nat)

/-- The largest whole number whose square is at most `n`: `fuel` bits from the top. -/
def isqrtGo (n : Nat) : Nat → Nat → Nat
  | 0, r => r
  | fuel + 1, r =>
    let c := r + 2 ^ fuel
    isqrtGo n fuel (if c * c ≤ n then c else r)

/-- The whole-number square root, rounded down. -/
def isqrt (n : Nat) : Nat := isqrtGo n (n.log2 / 2 + 1) 0

/-- A quotient rounded up; zero for a zero divisor. -/
def ceilDiv (a b : Nat) : Nat := if b = 0 then 0 else (a + b - 1) / b

/-- `l` without the elements that equal `x`. -/
def dropAll {α : Type} [DecidableEq α] (x : α) (l : List α) : List α := l.filter (fun y => y ≠ x)

/-- Element `i` of a list of numbers, 0 beyond its end. -/
def nth (l : List Nat) (i : Nat) : Nat := (l[i]?).getD 0

/-- Element `i` of a list of signed numbers, 0 beyond its end. -/
def nthI (l : List Int) (i : Nat) : Int := (l[i]?).getD 0

/-- The little-endian number of a list of bytes (R5). -/
def leNat : List Byte → Nat
  | [] => 0
  | b :: t => b.toNat + 256 * leNat t

/-- The `n` little-endian bytes of a number (R5). -/
def leBytes : Nat → Nat → List Byte
  | 0, _ => []
  | n + 1, v => BitVec.ofNat 8 v :: leBytes n (v / 256)

/-- The big-endian number of a list of bytes (PTP and network fields, R5). -/
def beNat (l : List Byte) : Nat := leNat l.reverse

/-- The `n` big-endian bytes of a number. -/
def beBytes (n v : Nat) : List Byte := (leBytes n v).reverse

/-- `n` bytes of `l` from offset `o`. -/
def slice (l : List Byte) (o n : Nat) : List Byte := (l.drop o).take n

/-- The little-endian word at byte offset `o` of `l`. -/
def leWord (l : List Byte) (o : Nat) : Word := nw (leNat (slice l o 4))

/-- The bytes of a list of words, each little-endian. -/
def wordsBytes (l : List Word) : List Byte := l.flatMap (fun w => leBytes 4 w.toNat)

/-- A list of bytes brought to length `n`: cut, or padded with zeros. -/
def fitBytes (n : Nat) (l : List Byte) : List Byte := (l.take n) ++ List.replicate (n - l.length) 0

end Sys2Proof.Machine
end

