-- ==== Sys2Proof/Machine/Real.lean ====
section
/-! DEFINITION. Values that rules define over real numbers, as the hardware and system firmware hold them: exact where they
are whole in their unit, else one of the two whole numbers that bound them.  Which of the two is free (log entries 46 and 59). -/

namespace Sys2Proof.Machine

/-- One of the two whole numbers `n` and `n + 1`, as the free value `f` has it. -/
def nearby (n f : Int) : Int := clampI n (n + 1) f

/-- A quotient: exact where it divides, else one of the two whole numbers that bound it; by zero, free. -/
def quotR (a b : Int) : Int :=
  if b = 0 then Config.quot a 0
  else
    let n := if b < 0 then -a else a
    let m : Int := b.natAbs
    if n % m = 0 then n / m else nearby (n / m) (Config.quot a b)

/-- The square root of a whole number: exact where it is one, else one of the two that bound it; 0 below zero. -/
def rootR (n : Int) : Int :=
  let r : Int := isqrt n.toNat
  if r * r = n || n < 0 then r else nearby r (Config.root n)

/-! ### Sine and cosine

Fixed point with 60 binary places carries the series; its error is far below the unit of every result. -/

/-- 1.0 with 60 binary places. -/
def one60 : Int := 1152921504606846976

/-- π with 60 binary places. -/
def pi60 : Int := 3622009729038561421

/-- The terms of a series from the `k`-th on, each the last one times -`x2` over k (k + 1), for `fuel` terms. -/
def turnSeries (x2 : Int) : Nat → Nat → Int → Int
  | 0, _, t => t
  | fuel + 1, k, t => t + turnSeries x2 fuel (k + 2) (-(t * x2 / one60) / ((k * (k + 1) : Nat) : Int))

/-- The sine of an angle from 0 to π/2. -/
def sinArc (x : Int) : Int := turnSeries (x * x / one60) 14 2 x

/-- The cosine of an angle from 0 to π/2. -/
def cosArc (x : Int) : Int := turnSeries (x * x / one60) 14 1 one60

/-- The sine at `num / den` of a period, with 60 binary places. -/
def sine60 (num den : Nat) : Int :=
  if den = 0 then 0
  else
    let x := pi60 * ((4 * num % den : Nat) : Int) / ((2 * den : Nat) : Int)
    match 4 * num / den % 4 with
    | 0 => sinArc x
    | 1 => cosArc x
    | 2 => -sinArc x
    | _ => -cosArc x

/-- The sine at `num / den` of a period, scaled by 2^30, at the twelfths of a period where it is a binary fraction. -/
def sineExact (num den : Nat) : Option Int :=
  if den = 0 || 12 * num % den != 0 then none
  else
    match 12 * num / den % 12 with
    | 0 => some 0
    | 1 => some (2 ^ 29)
    | 3 => some (2 ^ 30)
    | 5 => some (2 ^ 29)
    | 6 => some 0
    | 7 => some (-(2 ^ 29))
    | 9 => some (-(2 ^ 30))
    | 11 => some (-(2 ^ 29))
    | _ => none

/-- The sine at `num / den` of a period, scaled by 2^30. -/
def sineOf (num den : Nat) : Int := (sineExact num den).getD (nearby (sine60 num den / 2 ^ 30) (Config.sine num den))

/-- The cosine at `num / den` of a period, scaled by 2^30. -/
def cosineOf (num den : Nat) : Int := sineOf (4 * num + den) (4 * den)

/-- The Hann weight at `num / den` of a window, scaled by 2^30: 0.5 less half the cosine (R220). -/
def hannOf (num den : Nat) : Int :=
  match sineExact (4 * num + den) (4 * den) with
  | some c => (2 ^ 30 - c) / 2
  | none => nearby ((one60 - sine60 (4 * num + den) (4 * den)) / 2 ^ 31) (Config.hann num den)

/-! ### Arc tangent and exponential -/

/-- The largest whole number of 0.01 degrees, up to 45 degrees, whose tangent is at most `a / b`: `fuel` bits from the top. -/
def arcGo (a b : Nat) : Nat → Nat → Nat
  | 0, r => r
  | fuel + 1, r =>
    let t := r + 2 ^ fuel
    arcGo a b fuel (if decide (t ≤ 4500) && decide ((b : Int) * sine60 t 36000 ≤ (a : Int) * sine60 (t + 9000) 36000) then t else r)

/-- The angle of a complex number in 0.01 degrees: exact on the axes and the diagonals, else one of the two whole numbers that
bound it; that of zero is free. -/
def angleOf (im re : Int) : Int :=
  if im = 0 && re = 0 then Config.atan2 0 0
  else
    let a := im.natAbs
    let b := re.natAbs
    let t : Int :=
      if a = 0 then 0 else if b = 0 then 9000 else if a = b then 4500
      else if a < b then nearby (arcGo a b 13 0) (Config.atan2 a b)
      else nearby (8999 - arcGo b a 13 0) (Config.atan2 a b)
    let u := if re < 0 then 18000 - t else t
    if im < 0 then -u else u

/-- The logarithm of 2 with 60 binary places. -/
def ln60 : Int := 799144290325165978

/-- The terms of the exponential of -`x` from the `k`-th on. -/
def expSeries (x : Int) : Nat → Nat → Int → Int
  | 0, _, t => t
  | fuel + 1, k, t => t + expSeries x fuel (k + 1) (-(t * x / one60) / (k : Int))

/-- 1.0 of SoC, uncertainties and gains. -/
def one30 : Int := 1073741824

/-- The exponential of minus `n / m`, scaled by 2^30: 1.0 at zero and 0.0 for a zero time constant. -/
def expNeg (n m : Int) : Int :=
  if n = 0 then one30
  else if m ≤ 0 then 0
  else
    let x := n * one60 / m
    let y := expSeries (x % ln60) 20 1 one60 / (2 ^ (min 64 (x / ln60).toNat + 30) : Nat)
    clampI 0 one30 (nearby y (Config.expo n m))

end Sys2Proof.Machine
end

