-- ==== Sys2Proof/Machine/Regs.lean ====
section
/-! DEFINITION. The peripheral registers: their addresses, and for each its reset value,
access masks and kept-through masks, as the register and field tables of the chapters give them (R6, R8, R11). -/

namespace Sys2Proof.Machine

/-- One row of a register list: `count` elements `stride` bytes apart, each of `count2` words
`stride2` bytes apart.  The masks say which bits a plain write sets (`rw`), clears by 1 (`w1c`),
sets while the block's lock bit is 0 (`rwl`) and only ever sets (`set1`, lock bits); every other bit
is unchanged by a write (RO, WO and reserved bits, R7, R8).  `keepWarm` and `keepCold` are the bits
kept through a warm reset (classes N and K) and through a cold reset or recovery entry (class N), R11. -/
structure RegRow where
  base : Nat
  count : Nat := 1
  stride : Nat := 4
  count2 : Nat := 1
  stride2 : Nat := 4
  reset : Nat := 0
  rw : Nat := 0
  w1c : Nat := 0
  rwl : Nat := 0
  set1 : Nat := 0
  keepWarm : Nat := 0
  keepCold : Nat := 0
deriving DecidableEq, Repr

/-- The row stands for the word at address `a`. -/
def RegRow.covers (r : RegRow) (a : Nat) : Bool :=
  r.base ≤ a && (a - r.base) / r.stride < r.count && (a - r.base) % r.stride % r.stride2 == 0
    && (a - r.base) % r.stride / r.stride2 < r.count2

/-- 01, R22: Part, variant and hardware issue. -/
abbrev Reg.SYS_ID : Nat := 0x40000000
/-- 01, R22: Boot ROM version. -/
abbrev Reg.SYS_ROMVER : Nat := 0x40000004
/-- 01, R22: System firmware version of the active image. -/
abbrev Reg.SYS_FWVER : Nat := 0x40000008
/-- 01, R22: Compatibility levels of the active image. -/
abbrev Reg.SYS_COMPAT : Nat := 0x4000000C
/-- 01, R22: Serial number, bits [31:0]. -/
abbrev Reg.SYS_SERIAL_LO : Nat := 0x40000010
/-- 01, R22: Serial number, bits [63:32]. -/
abbrev Reg.SYS_SERIAL_HI : Nat := 0x40000014
/-- 01, R22: Lock for SYS_CLAIMEN. -/
abbrev Reg.SYS_CTL : Nat := 0x40000020
/-- 01, R22: Claim enable, blocks 0 to 31. -/
abbrev Reg.SYS_CLAIMEN0 : Nat := 0x40000030
/-- 01, R22: Claim enable, block 32. -/
abbrev Reg.SYS_CLAIMEN1 : Nat := 0x40000034
/-- 01, R22: Claim bits, blocks 0 to 31. -/
abbrev Reg.SYS_EXPOWN0 : Nat := 0x40000038
/-- 01, R22: Claim bits, block 32. -/
abbrev Reg.SYS_EXPOWN1 : Nat := 0x4000003C
/-- 01, R22: Release, blocks 0 to 31. -/
abbrev Reg.SYS_EXPREL0 : Nat := 0x40000040
/-- 01, R22: Release, block 32. -/
abbrev Reg.SYS_EXPREL1 : Nat := 0x40000044
/-- 01, R22: Count of discarded system-pair writes. -/
abbrev Reg.SYS_EXPDROP : Nat := 0x40000048
/-- 01, R22: Block and offset of the last discarded write. -/
abbrev Reg.SYS_EXPDBLK : Nat := 0x4000004C
/-- 02, R37: Temperature compensation, validity declaration. -/
abbrev Reg.TIM_CTL : Nat := 0x40050000
/-- 02, R37: Validity and event flags. -/
abbrev Reg.TIM_STAT : Nat := 0x40050004
/-- 02, R37: Increment, 8.24 format. -/
abbrev Reg.TIM_INC : Nat := 0x40050008
/-- 02, R37: Temperature correction, signed. -/
abbrev Reg.TIM_TCORR : Nat := 0x4005000C
/-- 02, R37: Holdover timeout in seconds. -/
abbrev Reg.TIM_HOLDTO : Nat := 0x40050010
/-- 02, R37: Staged seconds step, signed. -/
abbrev Reg.TIM_ADJSEC : Nat := 0x40050014
/-- 02, R37: Nanoseconds step, signed; applies the step. -/
abbrev Reg.TIM_ADJNS : Nat := 0x40050018
/-- 02, R37: Snapshot trigger. -/
abbrev Reg.TIM_SNAP : Nat := 0x40050020
/-- 02, R37: Snapshot, nanoseconds. -/
abbrev Reg.TIM_SNS : Nat := 0x40050024
/-- 02, R37: Snapshot, seconds [31:0]. -/
abbrev Reg.TIM_SSEC_LO : Nat := 0x40050028
/-- 02, R37: Snapshot, seconds [47:32] in [15:0]. -/
abbrev Reg.TIM_SSEC_HI : Nat := 0x4005002C
/-- 02, R37: Snapshot, time base [31:0]. -/
abbrev Reg.TIM_STB_LO : Nat := 0x40050030
/-- 02, R37: Snapshot, time base [63:32]. -/
abbrev Reg.TIM_STB_HI : Nat := 0x40050034
/-- 02, R37: Live time base [31:0]; read latches TIM_TB_HI. -/
abbrev Reg.TIM_TB_LO : Nat := 0x40050038
/-- 02, R37: Time base [63:32] as latched. -/
abbrev Reg.TIM_TB_HI : Nat := 0x4005003C
/-- 02, R49: PLL enable, forced free-run. -/
abbrev Reg.ANG_CTL : Nat := 0x40030000
/-- 02, R49: Source, lock, event flags. -/
abbrev Reg.ANG_STAT : Nat := 0x40030004
/-- 02, R49: Source priority. -/
abbrev Reg.ANG_SRCPRI : Nat := 0x40030008
/-- 02, R49: Nominal increment [31:0]. -/
abbrev Reg.ANG_NOMINC_LO : Nat := 0x4003000C
/-- 02, R49: Nominal increment [47:32] in [15:0]. -/
abbrev Reg.ANG_NOMINC_HI : Nat := 0x40030010
/-- 02, R49: Increment in use [31:0]. -/
abbrev Reg.ANG_INC_LO : Nat := 0x40030014
/-- 02, R49: Increment in use [47:32] in [15:0]; staged. -/
abbrev Reg.ANG_INC_HI : Nat := 0x40030018
/-- 02, R49: Angle word; read latches ANG_CYCLE. -/
abbrev Reg.ANG_ANGLE : Nat := 0x4003001C
/-- 02, R49: Cycle count as latched. -/
abbrev Reg.ANG_CYCLE : Nat := 0x40030020
/-- 02, R49: Phase error from angle messages, signed. -/
abbrev Reg.ANG_PERR : Nat := 0x40030024
/-- 02, R49: KP [31:16], KI [15:0]. -/
abbrev Reg.ANG_GAIN : Nat := 0x40030028
/-- 02, R49: PLL integrator, signed. -/
abbrev Reg.ANG_INTEG : Nat := 0x4003002C
/-- 02, R49: Lock threshold, angle LSB. -/
abbrev Reg.ANG_LOCKTH : Nat := 0x40030030
/-- 02, R49: Source loss timeout in milliseconds. -/
abbrev Reg.ANG_LOSSTO : Nat := 0x40030034
/-- 02, R49: ZC_IN window, filter, polarity. -/
abbrev Reg.ANG_ZCCFG : Nat := 0x40030038
/-- 02, R49: Angle of the zero crossing. -/
abbrev Reg.ANG_ZCOFS : Nat := 0x4003003C
/-- 02, R49: Angle at the last filtered edge. -/
abbrev Reg.ANG_ZCCAP : Nat := 0x40030040
/-- 02, R49: Increment slew per millisecond in free-run. -/
abbrev Reg.ANG_SLEW : Nat := 0x40030044
/-- 02, R49: Angle at the last TIM_SNAP. -/
abbrev Reg.ANG_SANG : Nat := 0x40030048
/-- 02, R49: Cycle count at the last TIM_SNAP. -/
abbrev Reg.ANG_SCYC : Nat := 0x4003004C
/-- 02, R58: Enable, bank swap. -/
abbrev Reg.TT_CTL : Nat := 0x40040000
/-- 02, R58: Bank, windows, error flags. -/
abbrev Reg.TT_STAT : Nat := 0x40040004
/-- 02, R58: Last fired entry. -/
abbrev Reg.TT_LAST : Nat := 0x4004000C
/-- 02, R58: bank b, entry e, word w. -/
abbrev Reg.TT_ENT (b e w : Nat) : Nat := 0x40041000 + 0x800 * b + 8 * e + 4 * w
/-- 03, R97: Enable, role, heal. -/
abbrev Reg.SK_CTL (x : Nat) : Nat := 0x40060000 + 0x10000 * x
/-- 03, R97: Link and error flags. -/
abbrev Reg.SK_STAT (x : Nat) : Nat := 0x40060004 + 0x10000 * x
/-- 03, R97: Ring state and break points. -/
abbrev Reg.SK_RING (x : Nat) : Nat := 0x40060008 + 0x10000 * x
/-- 03, R97: [5:0] nodes reached from this port. -/
abbrev Reg.SK_NODES (x : Nat) : Nat := 0x4006000C + 0x10000 * x
/-- 03, R97: [15:0] last strobe sequence issued or received. -/
abbrev Reg.SK_SEQ (x : Nat) : Nat := 0x40060010 + 0x10000 * x
/-- 03, R97: SRAM address of a command frame buffer, 4-byte aligned. -/
abbrev Reg.SK_CMDADDR (x : Nat) : Nat := 0x40060014 + 0x10000 * x
/-- 03, R97: [13:0] frame length in bytes without CRC; write starts the command. -/
abbrev Reg.SK_CMDGO (x : Nat) : Nat := 0x40060018 + 0x10000 * x
/-- 03, R97: Command status. -/
abbrev Reg.SK_CMDSTAT (x : Nat) : Nat := 0x4006001C + 0x10000 * x
/-- 03, R97: Answer timeout in µs. -/
abbrev Reg.SK_CMDTO (x : Nat) : Nat := 0x40060020 + 0x10000 * x
/-- 03, R97: [23:0] round-trip time of the last ECHO in ns. -/
abbrev Reg.SK_RTT (x : Nat) : Nat := 0x40060024 + 0x10000 * x
/-- 03, R97: [31:16] frame CRC errors, [15:0] code violations; saturating. -/
abbrev Reg.SK_ERRCNT (x : Nat) : Nat := 0x40060028 + 0x10000 * x
/-- 03, R97: [15:0] slot CRC errors; saturating. -/
abbrev Reg.SK_SLOTERR (x : Nat) : Nat := 0x4006002C + 0x10000 * x
/-- 03, R97: Slow-node thresholds. -/
abbrev Reg.SK_LAGCFG (x : Nat) : Nat := 0x40060030 + 0x10000 * x
/-- 03, R97: At 0x100 + 4 × n: [31] VALID, [15:0] time of flight in ns. -/
abbrev Reg.SK_TOF (x n : Nat) : Nat := 0x40060100 + 0x10000 * x + 4 * n
/-- 03, R97: At 0x200 + 4 × n: slow-node state. -/
abbrev Reg.SK_NODE (x n : Nat) : Nat := 0x40060200 + 0x10000 * x + 4 * n
/-- 04, R128: Enable, counter clear. -/
abbrev Reg.SWP_CTL : Nat := 0x40080000
/-- 04, R128: Sweep state and event flags. -/
abbrev Reg.SWP_STAT : Nat := 0x40080004
/-- 04, R128: Latest published sweep. -/
abbrev Reg.SWP_LAST : Nat := 0x40080008
/-- 04, R128: Sweeps published, wrapping. -/
abbrev Reg.SWP_COUNT : Nat := 0x4008000C
/-- 04, R128: Skip and downgrade counts. -/
abbrev Reg.SWP_SKIPCNT : Nat := 0x40080010
/-- 04, R128: Stale thresholds. -/
abbrev Reg.SWP_AGECFG : Nat := 0x40080014
/-- 04, R128: Largest stretch. -/
abbrev Reg.SWP_STRETCHMAX : Nat := 0x40080018
/-- 04, R128: Current stretch. -/
abbrev Reg.SWP_STRETCH : Nat := 0x4008001C
/-- 04, R128: Base of the sweep buffers. -/
abbrev Reg.SWP_BUFBASE : Nat := 0x40080020
/-- 04, R128: Open-wire threshold and period. -/
abbrev Reg.SWP_OWCFG : Nat := 0x40080024
/-- 04, R128: Open-wire pass start. -/
abbrev Reg.SWP_OWCTL : Nat := 0x40080028
/-- 04, R128: Open-wire pass state and result. -/
abbrev Reg.SWP_OWSTAT : Nat := 0x4008002C
/-- 04, R128: At 0x040 + 4 × i: value of position i latched in the last pass, sign-extended. -/
abbrev Reg.SWP_OWCAP (n : Nat) : Nat := 0x40080040 + 4 * n
/-- 04, R128: At 0x100 + 16 × n: sweep descriptor, Table 4.3. -/
abbrev Reg.SWP_DESC (n w : Nat) : Nat := 0x40080100 + 16 * n + 4 * w
/-- 04, R128: At 0x400 + 4 × n: [16:0] open-wire suspect bits of node n. -/
abbrev Reg.SWP_OWSUS (n : Nat) : Nat := 0x40080400 + 4 * n
/-- 04, R130: Load origin, refused writes. -/
abbrev Reg.CHM_STAT : Nat := 0x40090000
/-- 04, R130: [10:0] index of the last refused write. -/
abbrev Reg.CHM_REFUSED : Nat := 0x40090004
/-- 04, R130: Enabled entries by kind. -/
abbrev Reg.CHM_COUNT : Nat := 0x40090008
/-- 04, R130: At 0x2000 + 4 × index: entry, Table 4.6; restored under R109. -/
abbrev Reg.CHM_ENT (n : Nat) : Nat := 0x40092000 + 4 * n
/-- 05, R143: Enable, blanking, compensation, windows. -/
abbrev Reg.BAL_CTL : Nat := 0x400C0000
/-- 05, R143: State and event flags. -/
abbrev Reg.BAL_STAT : Nat := 0x400C0004
/-- 05, R143: [7:0] BLANK lead in µs; 0 no BLANK. -/
abbrev Reg.BAL_BLANKLEAD : Nat := 0x400C0008
/-- 05, R143: [15:0] refresh period in ms; 0 on change only. -/
abbrev Reg.BAL_REFRESH : Nat := 0x400C000C
/-- 05, R143: [15:0] commander timeout in ms; 0 disables balancing. -/
abbrev Reg.BAL_CMDTO : Nat := 0x400C0010
/-- 05, R143: Temperature limits. -/
abbrev Reg.BAL_TLIM : Nat := 0x400C0014
/-- 05, R143: [15:0] voltage floor in mV; 0 none. -/
abbrev Reg.BAL_VMIN : Nat := 0x400C0018
/-- 05, R143: [15:0] balance resistance, 10 mΩ LSB. -/
abbrev Reg.BAL_RBAL : Nat := 0x400C001C
/-- 05, R143: Learning pass start. -/
abbrev Reg.BAL_LRN : Nat := 0x400C0020
/-- 05, R143: Learning pass state. -/
abbrev Reg.BAL_LRNSTAT : Nat := 0x400C0024
/-- 05, R143: At 0x040 + 4 × i: raw value of position i in the last pass, sign-extended. -/
abbrev Reg.BAL_LCAP (n : Nat) : Nat := 0x400C0040 + 4 * n
/-- 05, R143: At 0x100 + 4 × n: [23:16] DUTY, [15:0] MASK commanded for node n. -/
abbrev Reg.BAL_CMD (n : Nat) : Nat := 0x400C0100 + 4 * n
/-- 05, R143: At 0x200 + 4 × n: [25] WDT seen, [24] BALOFF, [23:16] DUTY, [15:0] MASK sent. -/
abbrev Reg.BAL_APPL (n : Nat) : Nat := 0x400C0200 + 4 * n
/-- 05, R143: At 0x1000 + 4 × (32n + w), w 0 to 16: [31] VALID, [15:0] resistance, 10 µΩ LSB. -/
abbrev Reg.BAL_RWIRE (n w : Nat) : Nat := 0x400C1000 + 128 * n + 4 * w
/-- 06, R174: Enable and lock, set by the loader. -/
abbrev Reg.LIM_CTL : Nat := 0x400A0000
/-- 06, R174: Load state and event flags. -/
abbrev Reg.LIM_STAT : Nat := 0x400A0004
/-- 06, R174: [15:0] Ochre asserted, per class. -/
abbrev Reg.LIM_OCHRE : Nat := 0x400A0008
/-- 06, R174: [15:0] Crimson latched, per class. -/
abbrev Reg.LIM_CRIM : Nat := 0x400A000C
/-- 06, R174: [15:0] clear request per class, R159. -/
abbrev Reg.LIM_TRIPCLR : Nat := 0x400A0010
/-- 06, R174: Class 13 source. -/
abbrev Reg.LIM_SWTRIP : Nat := 0x400A0014
/-- 06, R174: [6:0] actions asserted, bits as R157. -/
abbrev Reg.LIM_ACT : Nat := 0x400A0018
/-- 06, R174: First Crimson event. -/
abbrev Reg.LIM_FIRST : Nat := 0x400A001C
/-- 06, R174: Its value, sign-extended. -/
abbrev Reg.LIM_FIRSTVAL : Nat := 0x400A0020
/-- 06, R174: Stale-data limits. -/
abbrev Reg.LIM_STALE : Nat := 0x400A0024
/-- 06, R174: [23:0] sweep watchdog in µs; 0 none. -/
abbrev Reg.LIM_SWDTO : Nat := 0x400A0028
/-- 06, R174: [31] GO, [10:0] entry index. -/
abbrev Reg.LIM_TEST : Nat := 0x400A002C
/-- 06, R174: Test state and result. -/
abbrev Reg.LIM_TESTSTAT : Nat := 0x400A0030
/-- 06, R174: At 0x080 + 4 × n: [6:0] action bits of row n, Table 6.2. -/
abbrev Reg.LIM_TRIPMAP (n : Nat) : Nat := 0x400A0080 + 4 * n
/-- 06, R174: [23:0] voltage envelope. -/
abbrev Reg.LIM_ENVV_HI : Nat := 0x400A0100
/-- 06, R174: [23:0] voltage envelope. -/
abbrev Reg.LIM_ENVV_LO : Nat := 0x400A0104
/-- 06, R174: [23:0] temperature envelope. -/
abbrev Reg.LIM_ENVT_HI : Nat := 0x400A0108
/-- 06, R174: [23:0] temperature envelope. -/
abbrev Reg.LIM_ENVT_LO : Nat := 0x400A010C
/-- 06, R174: [23:0] auxiliary envelope. -/
abbrev Reg.LIM_ENVX_HI : Nat := 0x400A0110
/-- 06, R174: [23:0] auxiliary envelope. -/
abbrev Reg.LIM_ENVX_LO : Nat := 0x400A0114
/-- 06, R174: At 0x4000 + 4 × i: channel status. -/
abbrev Reg.LIM_CHST (n : Nat) : Nat := 0x400A4000 + 4 * n
/-- 06, R174: At 0x8000 + 16 × i: entry, Table 6.1. -/
abbrev Reg.LIM_ENT (i w : Nat) : Nat := 0x400A8000 + 16 * i + 4 * w
/-- 06, R177: Enable and lock. -/
abbrev Reg.SCC_CTL : Nat := 0x400B0000
/-- 06, R177: State and feedback. -/
abbrev Reg.SCC_STAT : Nat := 0x400B0004
/-- 06, R177: [1:0] 1 close, 2 open, 3 acknowledge. -/
abbrev Reg.SCC_CMD : Nat := 0x400B0008
/-- 06, R177: [8:0] diagnostics, Table 6.7. -/
abbrev Reg.SCC_DIAG : Nat := 0x400B000C
/-- 06, R177: Contactor timing. -/
abbrev Reg.SCC_TIME : Nat := 0x400B0010
/-- 06, R177: [7:0] HOLD duty, 1/256; 0 no economiser. -/
abbrev Reg.SCC_ECON : Nat := 0x400B0014
/-- 06, R177: [15:0] break delay in µs; 0 none. -/
abbrev Reg.SCC_BRKDLY : Nat := 0x400B0018
/-- 06, R177: Switch-test timing. -/
abbrev Reg.SCC_TEST : Nat := 0x400B001C
/-- 06, R177: Precharge. -/
abbrev Reg.SCC_PCCFG : Nat := 0x400B0020
/-- 06, R177: [15:0] zero-current threshold, 10 mA LSB. -/
abbrev Reg.SCC_ITEST : Nat := 0x400B0024
/-- 06, R177: [31:16] K2, [15:0] K1 coil current in mA. -/
abbrev Reg.SCC_ICOIL : Nat := 0x400B0028
/-- 06, R177: [31:16] K2, [15:0] K1 last drop-out time in µs, saturating. -/
abbrev Reg.SCC_DROP : Nat := 0x400B002C
/-- 06, R177: [31:16] HICNT openings at or above ITEST, [15:0] zero-current openings; saturating. -/
abbrev Reg.SCC_OPS : Nat := 0x400B0030
/-- 07, R214: Accumulator enable, grading. -/
abbrev Reg.EST_CTL : Nat := 0x400D0000
/-- 07, R214: Hardware status. -/
abbrev Reg.EST_STAT : Nat := 0x400D0004
/-- 07, R214: [0] ROT rest-rotation request. -/
abbrev Reg.EST_REQ : Nat := 0x400D0008
/-- 07, R214: Current channel selection. -/
abbrev Reg.EST_ICFG : Nat := 0x400D000C
/-- 07, R214: Primary accumulator [31:0], µC. -/
abbrev Reg.EST_QACC1_LO : Nat := 0x400D0010
/-- 07, R214: Primary accumulator [63:32]. -/
abbrev Reg.EST_QACC1_HI : Nat := 0x400D0014
/-- 07, R214: Secondary accumulator [31:0]. -/
abbrev Reg.EST_QACC2_LO : Nat := 0x400D0018
/-- 07, R214: Secondary accumulator [63:32]. -/
abbrev Reg.EST_QACC2_HI : Nat := 0x400D001C
/-- 07, R214: Primary at the last strobe [31:0]. -/
abbrev Reg.EST_QLAT1_LO : Nat := 0x400D0020
/-- 07, R214: Primary at the last strobe [63:32]. -/
abbrev Reg.EST_QLAT1_HI : Nat := 0x400D0024
/-- 07, R214: Secondary at the last strobe [31:0]. -/
abbrev Reg.EST_QLAT2_LO : Nat := 0x400D0028
/-- 07, R214: Secondary at the last strobe [63:32]. -/
abbrev Reg.EST_QLAT2_HI : Nat := 0x400D002C
/-- 07, R214: Primary current at the last strobe, µA, signed. -/
abbrev Reg.EST_ILAT1 : Nat := 0x400D0030
/-- 07, R214: Secondary current at the last strobe, µA, signed. -/
abbrev Reg.EST_ILAT2 : Nat := 0x400D0034
/-- 07, R214: String SoC and uncertainty. -/
abbrev Reg.EST_SOC : Nat := 0x400D0040
/-- 07, R214: SoE, Wh. -/
abbrev Reg.EST_SOE : Nat := 0x400D0044
/-- 07, R214: SoH. -/
abbrev Reg.EST_SOH : Nat := 0x400D0048
/-- 07, R214: Charge current limit, µA. -/
abbrev Reg.EST_SOPCH : Nat := 0x400D004C
/-- 07, R214: Discharge current limit, µA. -/
abbrev Reg.EST_SOPDIS : Nat := 0x400D0050
/-- 07, R214: Charge power limit, W. -/
abbrev Reg.EST_SOPPCH : Nat := 0x400D0054
/-- 07, R214: Discharge power limit, W. -/
abbrev Reg.EST_SOPPDIS : Nat := 0x400D0058
/-- 07, R214: Publish under R195. -/
abbrev Reg.EST_PUB : Nat := 0x400D005C
/-- 07, R214: [15:0] publication timeout, ms; 0 holds outputs at zero. -/
abbrev Reg.EST_PUBTO : Nat := 0x400D0060
/-- 07, R214: [7:0] SoP scale while LIM_ACT.EST, 1/256. -/
abbrev Reg.EST_DERATE : Nat := 0x400D0064
/-- 07, R214: Output charge current, µA. -/
abbrev Reg.EST_OUTCH : Nat := 0x400D0068
/-- 07, R214: Output discharge current, µA. -/
abbrev Reg.EST_OUTDIS : Nat := 0x400D006C
/-- 07, R214: Output charge power, W. -/
abbrev Reg.EST_OUTPCH : Nat := 0x400D0070
/-- 07, R214: Output discharge power, W. -/
abbrev Reg.EST_OUTPDIS : Nat := 0x400D0074
/-- 07, R214: String estimation flags. -/
abbrev Reg.EST_FLAGS : Nat := 0x400D0078
/-- 07, R214: Limiting cells. -/
abbrev Reg.EST_WEAK : Nat := 0x400D007C
/-- 07, R214: Largest learning age, s, saturating. -/
abbrev Reg.EST_QAGE : Nat := 0x400D0080
/-- 07, R214: Time since the last qualifying rest point, s, saturating. -/
abbrev Reg.EST_STARVE : Nat := 0x400D0084
/-- 07, R214: At 0x1000 + 4 × c: z_c, Q2.30. -/
abbrev Reg.EST_CSOC (n : Nat) : Nat := 0x400D1000 + 4 * n
/-- 07, R214: At 0x2000 + 4 × c: Q_c, mC. -/
abbrev Reg.EST_CCAP (n : Nat) : Nat := 0x400D2000 + 4 * n
/-- 07, R214: At 0x3000 + 4 × c: V_lc, µV, sign-extended. -/
abbrev Reg.EST_CVLC (n : Nat) : Nat := 0x400D3000 + 4 * n
/-- 08, R236: Enable, injection enable, rest block, clear. -/
abbrev Reg.IMP_CTL : Nat := 0x400E0000
/-- 08, R236: State and event flags. -/
abbrev Reg.IMP_STAT : Nat := 0x400E0004
/-- 08, R236: [15:0] window closed, per bin. -/
abbrev Reg.IMP_DONE : Nat := 0x400E0008
/-- 08, R236: [15:0] current delay, ns. -/
abbrev Reg.IMP_IGRP : Nat := 0x400E000C
/-- 08, R236: [23:0] peak injection limit, mA. -/
abbrev Reg.IMP_INJMAX : Nat := 0x400E0010
/-- 08, R236: [15:0] ramp time, ms; 0 no ramp. -/
abbrev Reg.IMP_INJRAMP : Nat := 0x400E0014
/-- 08, R236: [9:0] gap limit, 1/1,024; 0 no gap accepted. -/
abbrev Reg.IMP_GAPMAX : Nat := 0x400E0018
/-- 08, R236: Running injection. -/
abbrev Reg.IMP_INJSTAT : Nat := 0x400E001C
/-- 08, R236: Base of the results, 160 KiB. -/
abbrev Reg.IMP_RESBASE : Nat := 0x400E0020
/-- 08, R236: At 0x100 + 16 × b: bin descriptor, Table 8.6. -/
abbrev Reg.IMP_BIN (b w : Nat) : Nat := 0x400E0100 + 16 * b + 4 * w
/-- 08, R236: At 0x200 + 16 × d: injection descriptor, Table 8.7. -/
abbrev Reg.IMP_INJ (i w : Nat) : Nat := 0x400E0200 + 16 * i + 4 * w
/-- 08, R236: At 0x8000 + 16 × c: fitted cell values, Table 8.8. -/
abbrev Reg.IMP_CELL (c w : Nat) : Nat := 0x400E8000 + 16 * c + 4 * w
/-- 09, R262: Channel enable, clock, sync. -/
abbrev Reg.SDM_CTL : Nat := 0x40110000
/-- 09, R262: Validity, warnings, decisions. -/
abbrev Reg.SDM_STAT : Nat := 0x40110004
/-- 09, R262: [5:0] core-clock divisor; 0 no clock. -/
abbrev Reg.SDM_CKDIV : Nat := 0x40110008
/-- 09, R262: [11:0] STUCK, modulator clocks; 0 no test. -/
abbrev Reg.SDM_INVCFG : Nat := 0x4011000C
/-- 09, R262: Channel configuration. -/
abbrev Reg.SDM_CFG (n : Nat) : Nat := 0x40110100 + 32 * n
/-- 09, R262: Gain, Q16.16. -/
abbrev Reg.SDM_GAIN (n : Nat) : Nat := 0x40110104 + 32 * n
/-- 09, R262: [15:0] offset, signed Q1.15. -/
abbrev Reg.SDM_OFS (n : Nat) : Nat := 0x40110108 + 32 * n
/-- 09, R262: [31:16] HI, [15:0] LO, signed Q1.15. -/
abbrev Reg.SDM_CMP (n : Nat) : Nat := 0x4011010C + 32 * n
/-- 09, R262: [31:16] HI, [15:0] LO, signed Q1.15. -/
abbrev Reg.SDM_WARN (n : Nat) : Nat := 0x40110110 + 32 * n
/-- 09, R262: Latest fractions. -/
abbrev Reg.SDM_FRAC (n : Nat) : Nat := 0x40110114 + 32 * n
/-- 09, R262: Latest calibrated value, signed. -/
abbrev Reg.SDM_VAL (n : Nat) : Nat := 0x40110118 + 32 * n
/-- 09, R263: [0] EN; 0 no slot evaluates. -/
abbrev Reg.CE_CTL : Nat := 0x400F0000
/-- 09, R263: Slot and engine flags. -/
abbrev Reg.CE_STAT : Nat := 0x400F0004
/-- 09, R263: [7:0] consecutive overruns to fault. -/
abbrev Reg.CE_OVRLIM : Nat := 0x400F0008
/-- 09, R263: [7:0] fault clear, R251. -/
abbrev Reg.CE_FLTCLR : Nat := 0x400F000C
/-- 09, R263: [7:0] trigger for TRIG 6. -/
abbrev Reg.CE_KICK : Nat := 0x400F0010
/-- 09, R263: Dispatch reference, µA, signed. -/
abbrev Reg.CE_DSPREF : Nat := 0x400F0014
/-- 09, R263: Test injection, R258. -/
abbrev Reg.CE_TINJ : Nat := 0x400F0020
/-- 09, R263: Phase increment per evaluation, 2^−32 period. -/
abbrev Reg.CE_TINJINC : Nat := 0x400F0024
/-- 09, R263: [15:0] amplitude, Q1.15. -/
abbrev Reg.CE_TINJAMP : Nat := 0x400F0028
/-- 09, R263: Trace arm, force, pre-trigger. -/
abbrev Reg.CE_TRCCTL : Nat := 0x400F0030
/-- 09, R263: Four signal selectors. -/
abbrev Reg.CE_TRCSEL : Nat := 0x400F0034
/-- 09, R263: Trigger and timebase. -/
abbrev Reg.CE_TRCTRIG : Nat := 0x400F0038
/-- 09, R263: Trace state. -/
abbrev Reg.CE_TRCSTAT : Nat := 0x400F003C
/-- 09, R263: Trace buffer, 64 KiB. -/
abbrev Reg.CE_TRCBASE : Nat := 0x400F0040
/-- 09, R263: Slot descriptor, Table 9.8; word 0 resets with BLKACT 1. -/
abbrev Reg.CE_SLOT (s w : Nat) : Nat := 0x400F0100 + 64 * s + 4 * w
/-- 09, R263: 512 microcode words. -/
abbrev Reg.CE_UCODE (u : Nat) : Nat := 0x400F1000 + 4 * u
/-- 09, R264: Pair enable, CONV_EN, sync. -/
abbrev Reg.PWM_CTL : Nat := 0x40100000
/-- 09, R264: Block state, flags. -/
abbrev Reg.PWM_STAT : Nat := 0x40100004
/-- 09, R264: [0] clears the direct block under R256. -/
abbrev Reg.PWM_BLKCLR : Nat := 0x40100008
/-- 09, R264: [19:0] period, HR units; 0 no pulses. -/
abbrev Reg.PWM_PER (p : Nat) : Nat := 0x40100100 + 32 * p
/-- 09, R264: [19:0] duty, HR units. -/
abbrev Reg.PWM_DUTY (p : Nat) : Nat := 0x40100104 + 32 * p
/-- 09, R264: [27:16] DTF, [11:0] DTR, HR units. -/
abbrev Reg.PWM_DT (p : Nat) : Nat := 0x40100108 + 32 * p
/-- 09, R264: Mode and safe levels. -/
abbrev Reg.PWM_CFG (p : Nat) : Nat := 0x4010010C + 32 * p
/-- 09, R264: [19:0] phase offset, HR units. -/
abbrev Reg.PWM_PH (p : Nat) : Nat := 0x40100110 + 32 * p
/-- 09, R264: [19:0] least duty. -/
abbrev Reg.PWM_DMIN (p : Nat) : Nat := 0x40100114 + 32 * p
/-- 09, R264: [19:0] greatest duty. -/
abbrev Reg.PWM_DMAX (p : Nat) : Nat := 0x40100118 + 32 * p
/-- 10, R278: Enable, source, converter presence. -/
abbrev Reg.DSP_CTL : Nat := 0x40120000
/-- 10, R278: State and event flags. -/
abbrev Reg.DSP_STAT : Nat := 0x40120004
/-- 10, R278: Local charge limit, µA. -/
abbrev Reg.DSP_LIMCH : Nat := 0x40120008
/-- 10, R278: Local discharge limit, µA. -/
abbrev Reg.DSP_LIMDIS : Nat := 0x4012000C
/-- 10, R278: [23:0] slew, mA/ms; 0 none. -/
abbrev Reg.DSP_SLEW : Nat := 0x40120010
/-- 10, R278: [23:0] rotation slew, mA/ms; 0 none. -/
abbrev Reg.DSP_ROTSLEW : Nat := 0x40120014
/-- 10, R278: [31:16] LATE, ms; [15:0] AHEAD, s. -/
abbrev Reg.DSP_TWIN : Nat := 0x40120018
/-- 10, R278: [15:0] mailbox timeout, ms; 0 holds I_t at zero. -/
abbrev Reg.DSP_MBTO : Nat := 0x4012001C
/-- 10, R278: I_t, µA, signed. -/
abbrev Reg.DSP_TARGET : Nat := 0x40120020
/-- 10, R278: Request before the clamp: µA, or W in power mode. -/
abbrev Reg.DSP_REQ : Nat := 0x40120024
/-- 10, R278: [18] MODE, [17:16] slot, [15:0] SEQ of the last application. -/
abbrev Reg.DSP_APPL : Nat := 0x40120028
/-- 10, R278: Rotation hold and state. -/
abbrev Reg.DSP_ROT : Nat := 0x4012002C
/-- 10, R278: [15:0] reply timeout, s; 0 refuses at once. -/
abbrev Reg.DSP_ROTTO : Nat := 0x40120030
/-- 10, R278: At 0x100 + 16 × m: mailbox slot, Table 10.6. -/
abbrev Reg.DSP_MB (m w : Nat) : Nat := 0x40120100 + 16 * m + 4 * w
/-- 11, R298: [1] FANEN outputs enable, [0] EN engine enable. -/
abbrev Reg.MOT_CTL : Nat := 0x40130000
/-- 11, R298: Summary flags. -/
abbrev Reg.MOT_STAT : Nat := 0x40130004
/-- 11, R298: [23:0] servo period, µs; 0 freezes. -/
abbrev Reg.MOT_SERVO : Nat := 0x40130008
/-- 11, R298: [17:0] pulse-rate limit, per s; 0 no pulses. -/
abbrev Reg.MOT_SRMAX : Nat := 0x4013000C
/-- 11, R298: [28:0] base identifier, MODE 1. -/
abbrev Reg.MOT_CANID : Nat := 0x40130010
/-- 11, R298: Axis configuration. -/
abbrev Reg.MOT_CFG (a : Nat) : Nat := 0x40130100 + 64 * a
/-- 11, R298: Position, units, signed. -/
abbrev Reg.MOT_POS (a : Nat) : Nat := 0x40130104 + 64 * a
/-- 11, R298: Target, units, signed. -/
abbrev Reg.MOT_TGT (a : Nat) : Nat := 0x40130108 + 64 * a
/-- 11, R298: [15:0] VMAX, full steps/s. -/
abbrev Reg.MOT_VMAX (a : Nat) : Nat := 0x4013010C + 64 * a
/-- 11, R298: [15:0] ACC, full steps/s². -/
abbrev Reg.MOT_ACC (a : Nat) : Nat := 0x40130110 + 64 * a
/-- 11, R298: Virtual low limit, units. -/
abbrev Reg.MOT_VLIMLO (a : Nat) : Nat := 0x40130114 + 64 * a
/-- 11, R298: Virtual high limit, units. -/
abbrev Reg.MOT_VLIMHI (a : Nat) : Nat := 0x40130118 + 64 * a
/-- 11, R298: [31:16] HSPD, [15:0] CREEP, full steps/s. -/
abbrev Reg.MOT_HOME (a : Nat) : Nat := 0x4013011C + 64 * a
/-- 11, R298: [31:16] HBACK, full steps; [15:0] HTOL, units. -/
abbrev Reg.MOT_HBACK (a : Nat) : Nat := 0x40130120 + 64 * a
/-- 11, R298: Position assigned at the home edge. -/
abbrev Reg.MOT_HOFS (a : Nat) : Nat := 0x40130124 + 64 * a
/-- 11, R298: Travel budget, units; 0 none. -/
abbrev Reg.MOT_TRAV (a : Nat) : Nat := 0x40130128 + 64 * a
/-- 11, R298: [2:0] 1 home, 2 stop, 3 clear fault, 4 declare homed. -/
abbrev Reg.MOT_CMD (a : Nat) : Nat := 0x4013012C + 64 * a
/-- 11, R298: Axis state, R295. -/
abbrev Reg.MOT_ST (a : Nat) : Nat := 0x40130130 + 64 * a
/-- 11, R298: p2 − p1 of the last homing, units. -/
abbrev Reg.MOT_HPOS (a : Nat) : Nat := 0x40130134 + 64 * a
/-- 11, R298: Output configuration. -/
abbrev Reg.MOT_FANCFG (f : Nat) : Nat := 0x40130300 + 16 * f
/-- 11, R298: [15:0] duty, 1/65,536. -/
abbrev Reg.MOT_FANDUTY (f : Nat) : Nat := 0x40130304 + 16 * f
/-- 11, R298: [31:16] MINRPM; [15:0] STALLT, ms; 0 no test. -/
abbrev Reg.MOT_FANSUP (f : Nat) : Nat := 0x40130308 + 16 * f
/-- 11, R298: [15:0] RPM. -/
abbrev Reg.MOT_FANRPM (f : Nat) : Nat := 0x4013030C + 16 * f
/-- 11, R298: [31] EN, [30:28] SLOT, [10:0] CHAN. -/
abbrev Reg.MOT_TFDCFG (n : Nat) : Nat := 0x40130400 + 16 * n
/-- 11, R298: [31:16] TZERO, 1/128 °C; [15:0] TGAIN, Q8.8. -/
abbrev Reg.MOT_TFDSCL (n : Nat) : Nat := 0x40130404 + 16 * n
/-- 11, R298: [15:0] FAILU, Q1.15. -/
abbrev Reg.MOT_TFDFAIL (n : Nat) : Nat := 0x40130408 + 16 * n
/-- 11, R298: [31] FAIL, [15:0] last FB. -/
abbrev Reg.MOT_TFDST (n : Nat) : Nat := 0x4013040C + 16 * n
/-- 12, R336: [1] LOCKS, [0] LOCKP; writing 1 sets, writing 0 has no effect. -/
abbrev Reg.MPU_CTL : Nat := 0x40200000
/-- 12, R336: Fault flags, fuse mirror. -/
abbrev Reg.MPU_STAT : Nat := 0x40200004
/-- 12, R336: [0] SECURE. -/
abbrev Reg.MPU_FUSE : Nat := 0x40200008
/-- 12, R336: Program pair: first denied address. -/
abbrev Reg.MPU_FADDRP : Nat := 0x40200010
/-- 12, R336: Program pair: first denied access. -/
abbrev Reg.MPU_FINFOP : Nat := 0x40200014
/-- 12, R336: System pair: first denied address. -/
abbrev Reg.MPU_FADDRS : Nat := 0x40200018
/-- 12, R336: System pair: first denied access. -/
abbrev Reg.MPU_FINFOS : Nat := 0x4020001C
/-- 12, R336: Program pair region base. -/
abbrev Reg.MPU_PBASE (n : Nat) : Nat := 0x40200100 + 16 * n
/-- 12, R336: Program pair region limit. -/
abbrev Reg.MPU_PLIM (n : Nat) : Nat := 0x40200104 + 16 * n
/-- 12, R336: Program pair region permissions. -/
abbrev Reg.MPU_PATTR (n : Nat) : Nat := 0x40200108 + 16 * n
/-- 12, R336: System pair region base. -/
abbrev Reg.MPU_SBASE (n : Nat) : Nat := 0x40200200 + 16 * n
/-- 12, R336: System pair region limit. -/
abbrev Reg.MPU_SLIM (n : Nat) : Nat := 0x40200204 + 16 * n
/-- 12, R336: System pair region permissions. -/
abbrev Reg.MPU_SATTR (n : Nat) : Nat := 0x40200208 + 16 * n
/-- 14, R379: Start source, start, stop. -/
abbrev Reg.CYC_CTL : Nat := 0x40150000
/-- 14, R379: State and flags. -/
abbrev Reg.CYC_STAT : Nat := 0x40150004
/-- 14, R379: [19:0] period for SRC 1, µs; 0 no starts. -/
abbrev Reg.CYC_PERIOD : Nat := 0x40150008
/-- 14, R379: [7:0] consecutive misses to FAULT. -/
abbrev Reg.CYC_WDMULT : Nat := 0x4015000C
/-- 14, R379: Cycle number. -/
abbrev Reg.CYC_NUM : Nat := 0x40150010
/-- 14, R379: [31:24] consecutive misses, [23:0] total; saturating. -/
abbrev Reg.CYC_OVRCNT : Nat := 0x40150014
/-- 14, R379: [31:16] longest, [15:0] last execution time, 16 µs LSB, saturating. -/
abbrev Reg.CYC_EXEC : Nat := 0x40150018
/-- 14, R379: Cycles with LR, saturating. -/
abbrev Reg.CYC_LRCNT : Nat := 0x4015001C
/-- 14, R379: First suppressed address since LRSEEN was cleared. -/
abbrev Reg.CYC_LRADDR : Nat := 0x40150020
/-- 14, R379: Input image base. -/
abbrev Reg.CYC_IIMG : Nat := 0x40150024
/-- 14, R379: Output image base. -/
abbrev Reg.CYC_OIMG : Nat := 0x40150028
/-- 14, R379: Online change. -/
abbrev Reg.CYC_OCSTAT : Nat := 0x4015002C
/-- 14, R379: [15:0] starts skipped during switches, saturating. -/
abbrev Reg.CYC_OCSKIP : Nat := 0x40150030
/-- 14, R379: Force generation count. -/
abbrev Reg.CYC_FGEN : Nat := 0x40150034
/-- 14, R379: At 0x1000 + 16 × n: force entry, Table 14.7. -/
abbrev Reg.CYC_FORCE (n w : Nat) : Nat := 0x40151000 + 16 * n + 4 * w
/-- 15, R413: Twin operation and position. -/
abbrev Reg.TW_CFG : Nat := 0x40160000
/-- 15, R413: Handover, deposing, rejoin, seed. -/
abbrev Reg.TW_CTL : Nat := 0x40160004
/-- 15, R413: Role, mode, lines, event flags. -/
abbrev Reg.TW_STAT : Nat := 0x40160008
/-- 15, R413: Role epoch. -/
abbrev Reg.TW_EPOCH : Nat := 0x4016000C
/-- 15, R413: Epoch in the partner's last heartbeat. -/
abbrev Reg.TW_PEPOCH : Nat := 0x40160010
/-- 15, R413: [15:0] bytes 4 and 5 of the partner's last heartbeat. -/
abbrev Reg.TW_PSTAT : Nat := 0x40160014
/-- 15, R413: [9:0] lag allowance, per mille; 0 no wait. -/
abbrev Reg.TW_LAG : Nat := 0x40160018
/-- 15, R413: [15:0] start-up wait, ms; 0 never duty by R393. -/
abbrev Reg.TW_JOINTO : Nat := 0x4016001C
/-- 15, R413: [15:0] automatic rejoin, s; 0 none. -/
abbrev Reg.TW_DEPTO : Nat := 0x40160020
/-- 15, R413: [7:0] kill settle, µs; 0 no wait. -/
abbrev Reg.TW_KILLT : Nat := 0x40160024
/-- 15, R413: [15:0] estimator mirror interval, ms; 0 events only. -/
abbrev Reg.TW_MIRINT : Nat := 0x40160028
/-- 15, R413: [31:16] CUEDLY, ticks; [15:0] LAT, ns. -/
abbrev Reg.TW_LAT : Nat := 0x4016002C
/-- 15, R413: [31:24] consecutive, [23:0] total missed heartbeats; saturating. -/
abbrev Reg.TW_HBCNT : Nat := 0x40160030
/-- 15, R413: [23:0] hash mismatches, saturating. -/
abbrev Reg.TW_HASHCNT : Nat := 0x40160034
/-- 15, R413: Own output hash of the last cycle. -/
abbrev Reg.TW_LASTHASH : Nat := 0x40160038
/-- 15, R413: Resynchronisation progress. -/
abbrev Reg.TW_RSSTAT : Nat := 0x4016003C
/-- 15, R413: [15:0] final-round limit, KiB; 0 only when nothing is dirty. -/
abbrev Reg.TW_RSFINAL : Nat := 0x40160040
/-- 15, R413: [15:0] resynchronisation limit, s; 0 none. -/
abbrev Reg.TW_RSTO : Nat := 0x40160044
/-- 15, R413: [31:16] handovers, [15:0] takeovers; saturating. -/
abbrev Reg.TW_COUNTS : Nat := 0x40160048
/-- 16, R436: Configuration, modes, recovery. -/
abbrev Reg.CAN_CTL (x : Nat) : Nat := 0x40170000 + 0x10000 * x
/-- 16, R436: State, errors, flags. -/
abbrev Reg.CAN_STAT (x : Nat) : Nat := 0x40170004 + 0x10000 * x
/-- 16, R436: Nominal bit timing. -/
abbrev Reg.CAN_NBT (x : Nat) : Nat := 0x40170008 + 0x10000 * x
/-- 16, R436: Data bit timing. -/
abbrev Reg.CAN_DBT (x : Nat) : Nat := 0x4017000C + 0x10000 * x
/-- 16, R436: Transmitter delay compensation. -/
abbrev Reg.CAN_TDC (x : Nat) : Nat := 0x40170010 + 0x10000 * x
/-- 16, R436: [15:8] REC, [7:0] TEC, saturating at 255; [16] REC above 127. -/
abbrev Reg.CAN_ECNT (x : Nat) : Nat := 0x40170014 + 0x10000 * x
/-- 16, R436: At 0x020 + 4 × k: request, objects 32k to 32k + 31. -/
abbrev Reg.CAN_TXREQ (x n : Nat) : Nat := 0x40170020 + 0x10000 * x + 4 * n
/-- 16, R436: At 0x030 + 4 × k: cancel. -/
abbrev Reg.CAN_TXCAN (x n : Nat) : Nat := 0x40170030 + 0x10000 * x + 4 * n
/-- 16, R436: At 0x040 + 4 × k: pending. -/
abbrev Reg.CAN_TXPEND (x n : Nat) : Nat := 0x40170040 + 0x10000 * x + 4 * n
/-- 16, R436: At 0x050 + 4 × k: transmitted. -/
abbrev Reg.CAN_TXDONE (x n : Nat) : Nat := 0x40170050 + 0x10000 * x + 4 * n
/-- 16, R436: At 0x060 + 4 × k: failed under R429. -/
abbrev Reg.CAN_TXFAIL (x n : Nat) : Nat := 0x40170060 + 0x10000 * x + 4 * n
/-- 16, R436: At 0x070 + 4 × k: NEWDAT mirror. -/
abbrev Reg.CAN_RXNEW (x n : Nat) : Nat := 0x40170070 + 0x10000 * x + 4 * n
/-- 16, R436: [6:0] object to copy under R426. -/
abbrev Reg.CAN_RDSEL (x : Nat) : Nat := 0x40170080 + 0x10000 * x
/-- 16, R436: Read window, Table 16.2 layout. -/
abbrev Reg.CAN_RDBUF (x w : Nat) : Nat := 0x40170100 + 0x10000 * x + 4 * w
/-- 16, R436: At 0x4000 + 128 × n: object, Table 16.2. -/
abbrev Reg.CAN_OBJ (x n w : Nat) : Nat := 0x40174000 + 0x10000 * x + 128 * n + 4 * w
/-- 17, R452: Enable, alert, PEC, transport wake. -/
abbrev Reg.SMB_CFG : Nat := 0x40190000
/-- 17, R452: Event flags. -/
abbrev Reg.SMB_STAT : Nat := 0x40190004
/-- 17, R452: Byte k: [7] EN, [6:0] address of slot k. -/
abbrev Reg.SMB_ADDR : Nat := 0x40190008
/-- 17, R452: [31] MASKMODE, [6:0] MASK. -/
abbrev Reg.SMB_AMASK : Nat := 0x4019000C
/-- 17, R452: [5:0] glitch filter, fabric cycles; 0 none. -/
abbrev Reg.SMB_FILT : Nat := 0x40190010
/-- 17, R452: [15:0] SDA release timeout, ms; 0 none. -/
abbrev Reg.SMB_RELTO : Nat := 0x40190014
/-- 17, R452: [15:0] subsystems raising requests; 0 none. -/
abbrev Reg.SMB_REQMASK : Nat := 0x40190018
/-- 17, R452: [15:0] code pushed under R447. -/
abbrev Reg.SMB_REQSET : Nat := 0x4019001C
/-- 17, R452: [19:16] queue depth, [15:0] head code. -/
abbrev Reg.SMB_REQQ : Nat := 0x40190020
/-- 17, R452: [15:8] last command, [7:6] AIDX, [0] 1 read. -/
abbrev Reg.SMB_LAST : Nat := 0x40190024
/-- 17, R452: [31:16] PEC errors, [15:0] transactions; saturating. -/
abbrev Reg.SMB_CNT : Nat := 0x40190028
/-- 17, R452: Response area, 256 bytes. -/
abbrev Reg.SMB_RESP (n : Nat) : Nat := 0x40190100 + 4 * n
/-- 17, R452: Word 0: [15:8] count, [7:0] code; then 32 data bytes. -/
abbrev Reg.SMB_WBUF (n : Nat) : Nat := 0x40190200 + 4 * n
/-- 18, R467: Transmit and forwarding enables. -/
abbrev Reg.ETH_CTL : Nat := 0x401A0000
/-- 18, R467: Link and event flags. -/
abbrev Reg.ETH_STAT : Nat := 0x401A0004
/-- 18, R467: [15:0] address ageing, s; 0 no learning. -/
abbrev Reg.ETH_AGE : Nat := 0x401A0008
/-- 18, R467: [11:8] LOGPDI, signed; [0] EN. -/
abbrev Reg.ETH_TCCTL : Nat := 0x401A000C
/-- 18, R467: [23:0] launch tolerance, ns; 0 none. -/
abbrev Reg.ETH_LATE : Nat := 0x401A0010
/-- 18, R467: [15:0] angle-message UDP port. -/
abbrev Reg.ETH_ANGPORT : Nat := 0x401A0014
/-- 18, R467: Last offset from the grandmaster, ns, signed, saturating. -/
abbrev Reg.ETH_OFFSET : Nat := 0x401A0018
/-- 18, R467: [15:0] sequenceId of that Sync. -/
abbrev Reg.ETH_OFSSEQ : Nat := 0x401A001C
/-- 18, R467: [15:0] angle messages discarded, saturating. -/
abbrev Reg.ETH_ANGREJ : Nat := 0x401A0020
/-- 18, R467: [1] 1000BASE-T allowed, [0] 100BASE-TX allowed. -/
abbrev Reg.ETH_PCFG (k : Nat) : Nat := 0x401A0100 + 32 * k
/-- 18, R467: [31:16] LATTX, [15:0] LATRX, ns. -/
abbrev Reg.ETH_LAT (k : Nat) : Nat := 0x401A0104 + 32 * k
/-- 18, R467: [15:0] mean link delay, ns. -/
abbrev Reg.ETH_PDLY (k : Nat) : Nat := 0x401A0108 + 32 * k
/-- 18, R467: [31:16] FCS errors, [15:0] oversize; saturating. -/
abbrev Reg.ETH_DROP (k : Nat) : Nat := 0x401A010C + 32 * k
/-- 18, R475: [0] EN: 1 runs the block; 0 stops every ring after the descriptor in progress. -/
abbrev Reg.DMA_CTL : Nat := 0x401F0000
/-- 18, R475: [0] ACTIVE: a descriptor is in progress. -/
abbrev Reg.DMA_STAT : Nat := 0x401F0004
/-- 18, R475: Rings 0 to 31 stopped under R470 or R472. -/
abbrev Reg.DMA_ERR0 : Nat := 0x401F0008
/-- 18, R475: Rings 32 to 63 stopped under R470 or R472. -/
abbrev Reg.DMA_ERR1 : Nat := 0x401F000C
/-- 18, R475: Completions with IRQ, rings 0 to 31. -/
abbrev Reg.DMA_IRQ0 : Nat := 0x401F0010
/-- 18, R475: Completions with IRQ, rings 32 to 63. -/
abbrev Reg.DMA_IRQ1 : Nat := 0x401F0014
/-- 18, R475: Interrupt enable, rings 0 to 31. -/
abbrev Reg.DMA_IRQEN0 : Nat := 0x401F0018
/-- 18, R475: Interrupt enable, rings 32 to 63. -/
abbrev Reg.DMA_IRQEN1 : Nat := 0x401F001C
/-- 18, R475: [31:4] descriptor array base; [3:0] read zero. -/
abbrev Reg.DMA_BASE (r : Nat) : Nat := 0x401F0100 + 16 * r
/-- 18, R475: [31] EN; [15:0] NDESC, 0 none. -/
abbrev Reg.DMA_CFG (r : Nat) : Nat := 0x401F0104 + 16 * r
/-- 18, R475: [15:0] next descriptor the hardware takes. -/
abbrev Reg.DMA_HEAD (r : Nat) : Nat := 0x401F0108 + 16 * r
/-- 18, R475: [15:0] index after the last descriptor handed over. -/
abbrev Reg.DMA_TAIL (r : Nat) : Nat := 0x401F010C + 16 * r
/-- 19, R486: [0] OUTEN: 1 allows outputs on. -/
abbrev Reg.FIO_CTL : Nat := 0x40140000
/-- 19, R486: [1] TPFAIL, [0] OVLD; set at each fault onset. -/
abbrev Reg.FIO_STAT : Nat := 0x40140004
/-- 19, R486: At 0x010 + 4 × k: latch word k, Table 19.1. -/
abbrev Reg.FIO_LATCH (n : Nat) : Nat := 0x40140010 + 4 * n
/-- 19, R486: [7:0] demanded outputs. -/
abbrev Reg.FIO_OUT : Nat := 0x40140020
/-- 19, R486: [7:0] fallback values. -/
abbrev Reg.FIO_FALLBACK : Nat := 0x40140024
/-- 19, R486: [3:0] joined pairs, R478. -/
abbrev Reg.FIO_PAR : Nat := 0x40140028
/-- 19, R486: [24:16] TPW, µs; [15:0] TPINT, ms; 0 no tests. -/
abbrev Reg.FIO_TP : Nat := 0x4014002C
/-- 19, R486: [7:0] switch-node readback. -/
abbrev Reg.FIO_RDBK : Nat := 0x40140030
/-- 19, R486: [15:8] stuck-on, [7:0] overload. -/
abbrev Reg.FIO_OFLT : Nat := 0x40140034
/-- 19, R486: [7:0] time in limit before switch-off, ms. -/
abbrev Reg.FIO_OLIM : Nat := 0x40140038
/-- 19, R486: [31:16] TO, s; [0] EN. -/
abbrev Reg.FIO_HOLDWARM : Nat := 0x4014003C
/-- 19, R486: At 0x100 + 4 × n: [25:16] TICK, µs; [7:0] THR; 0 no filtering. -/
abbrev Reg.FIO_INCFG (n : Nat) : Nat := 0x40140100 + 4 * n
/-- 20, R501: [1] FLUSH (WO), [0] EN. -/
abbrev Reg.REC_CTL : Nat := 0x401C0000
/-- 20, R501: [4] BADSNAP, [3] BADLEN, [2] JFULL, [1] FLUSHING (RO), [0] QFULL. -/
abbrev Reg.REC_STAT : Nat := 0x401C0004
/-- 20, R501: Next record sequence. -/
abbrev Reg.REC_SEQ : Nat := 0x401C0008
/-- 20, R501: Larder write offset. -/
abbrev Reg.REC_LHEAD : Nat := 0x401C000C
/-- 20, R501: Larder offset of the first unflushed record. -/
abbrev Reg.REC_LFLUSH : Nat := 0x401C0010
/-- 20, R501: [9:0] next journal block. -/
abbrev Reg.REC_JHEAD : Nat := 0x401C0014
/-- 20, R501: [10:0] flush threshold, KiB; 0 none; a value above 1,024, the Larder size, is stored as 1,024. -/
abbrev Reg.REC_FLTH : Nat := 0x401C0018
/-- 20, R501: [15:0] periodic flush, s; 0 none. -/
abbrev Reg.REC_FLPER : Nat := 0x401C001C
/-- 20, R501: Records overwritten, saturating. -/
abbrev Reg.REC_LOST : Nat := 0x401C0020
/-- 20, R501: Posts discarded, saturating. -/
abbrev Reg.REC_DROP : Nat := 0x401C0024
/-- 20, R501: [23:16] LEN, [15:0] CODE; posts REC_PBUF. -/
abbrev Reg.REC_POST : Nat := 0x401C0028
/-- 20, R501: Payload buffer, 240 bytes. -/
abbrev Reg.REC_PBUF (n : Nat) : Nat := 0x401C0100 + 4 * n
/-- 20, R501: At 0x200 + 64 × c + 4 × i: address i of snapshot class c. -/
abbrev Reg.REC_SNAP (c i : Nat) : Nat := 0x401C0200 + 64 * c + 4 * i
/-- 21, R517: Session and image state. -/
abbrev Reg.SVC_STAT : Nat := 0x401E0000
/-- 21, R517: Slot record as loaded, with slot validity. -/
abbrev Reg.SVC_SLOTS : Nat := 0x401E0004
/-- 21, R517: [0] 1 confirms the trial, R513. -/
abbrev Reg.SVC_CONFIRM : Nat := 0x401E0008
/-- 21, R517: [31:16] records accepted, [15:0] block count. -/
abbrev Reg.SVC_STGPROG : Nat := 0x401E000C
/-- 21, R517: Key fuses. -/
abbrev Reg.SVC_KEYSTAT : Nat := 0x401E0010
/-- 21, R517: [15:0] session idle limit, s; 0 none. -/
abbrev Reg.SVC_IDLETO : Nat := 0x401E0014
/-- 21, R517: [3:0] recovery cause, R515; 0 not in recovery. -/
abbrev Reg.SVC_RECAUSE : Nat := 0x401E0018
/-- 22, R541: [4] STBY enters Standby (idle); [0] SWRST warm reset. -/
abbrev Reg.PWR_CTL : Nat := 0x40010000
/-- 22, R541: State, feeds, bank. -/
abbrev Reg.PWR_STAT : Nat := 0x40010004
/-- 22, R541: [7:0] cause, Table 22.2. -/
abbrev Reg.PWR_RSTCAUSE : Nat := 0x40010008
/-- 22, R541: [31:16] FB, [15:0] FA, mV. -/
abbrev Reg.PWR_FEED : Nat := 0x4001000C
/-- 22, R541: [15:0] bank voltage, mV. -/
abbrev Reg.PWR_BANK : Nat := 0x40010010
/-- 22, R541: [31:16] RIDE, ms; 0 flush mode at entry. [15:0] RETDB, ms; 0 none. -/
abbrev Reg.PWR_HUCFG : Nat := 0x40010014
/-- 22, R541: [31:24] KICK (WO); [15:0] TO, ms; 0 none. -/
abbrev Reg.PWR_WDT : Nat := 0x40010018
/-- 22, R541: [2] VBUS, [1] SMBus, [0] WAKE_CHG; always-on. -/
abbrev Reg.PWR_WAKE : Nat := 0x4001001C
/-- 22, R541: Power-cycle count. -/
abbrev Reg.PWR_CYCCNT : Nat := 0x40010020
/-- 22, R541: Operating time [31:0], ms. -/
abbrev Reg.PWR_OPT_LO : Nat := 0x40010024
/-- 22, R541: [15:0] operating time [47:32]. -/
abbrev Reg.PWR_OPT_HI : Nat := 0x40010028
/-- 22, R541: [15:0] Standby (idle) delay, min; 0 never. -/
abbrev Reg.PWR_IDLETO : Nat := 0x4001002C
/-- 22, R542: [0] THREN. -/
abbrev Reg.HLT_CTL : Nat := 0x40020000
/-- 22, R542: Thermal and ageing flags. -/
abbrev Reg.HLT_STAT : Nat := 0x40020004
/-- 22, R542: [15:0] die temperature, signed, 1/128 °C. -/
abbrev Reg.HLT_TDIE : Nat := 0x40020008
/-- 22, R542: At 0x010 + 4 × i: [31] excluded, [15:0] reading, 1/128 °C. -/
abbrev Reg.HLT_TSENS (n : Nat) : Nat := 0x40020010 + 4 * n
/-- 22, R542: [7:0] PCT, %; 0 no pauses; above 90 stored as 90. -/
abbrev Reg.HLT_THRPAUSE : Nat := 0x40020030
/-- 22, R542: [31:16] uncorrectable, [15:0] corrected; saturating. -/
abbrev Reg.HLT_ECCCNT : Nat := 0x40020034
/-- 22, R542: [15:0] highest die temperature ever, 1/128 °C. -/
abbrev Reg.HLT_TMAX : Nat := 0x40020038
/-- 22, R542: [31] FAIL, [3:0] last failed test, Table 22.6. -/
abbrev Reg.HLT_TESTSTAT : Nat := 0x4002003C
/-- 22, R542: [15:0] shortest projected time to a limit, 0.1 year; saturating. -/
abbrev Reg.HLT_EOL : Nat := 0x40020040
/-- 22, R550: [0] EN: 1 accepts requests; 0 refuses them with CLOSED. -/
abbrev Reg.NVC_CTL : Nat := 0x401D0000
/-- 22, R550: [4] ERABT (W1C), [3] FULL (W1C), [2] CLOSED, [1] BUSY, [0] DONEV: completion FIFO not empty. -/
abbrev Reg.NVC_STAT : Nat := 0x401D0004
/-- 22, R550: Source address in SRAM. -/
abbrev Reg.NVC_RSRC : Nat := 0x401D0008
/-- 22, R550: Destination address in the MRAM or NOR window. -/
abbrev Reg.NVC_RDST : Nat := 0x401D000C
/-- 22, R550: [23:0] length in bytes; 0 none. -/
abbrev Reg.NVC_RLEN : Nat := 0x401D0010
/-- 22, R550: [15:8] TAG, [1:0] KIND; pushes the request; KIND 0 completes with RANGE. -/
abbrev Reg.NVC_RGO : Nat := 0x401D0014
/-- 22, R550: A read pops: [31] VALID, [23:16] TAG, [3:0] status, Table 22.14. -/
abbrev Reg.NVC_DONE : Nat := 0x401D0018
/-- 22, R550: [4:0] requests queued. -/
abbrev Reg.NVC_QDEPTH : Nat := 0x401D001C
/-- 22, R550: [31] VALID, [9:0] sector of the last abandoned erase; always-on. -/
abbrev Reg.NVC_ERABT : Nat := 0x401D0020
/-- 22, R550: At 0x040 + 4 × i: MRAM bursts into the Storeroom, journal, ledger, limit shadow and spare region; saturating. -/
abbrev Reg.NVC_MWEAR (n : Nat) : Nat := 0x401D0040 + 4 * n
/-- Rows of block SYS. -/
def rowsSYS : List RegRow := [
  { base := 0x40000000, reset := 0x51200003, keepWarm := 0xFFFFFFFF, keepCold := 0xFFFFFFFF },
  { base := 0x40000004, reset := 0x201, keepWarm := 0xFFFFFFFF, keepCold := 0xFFFFFFFF },
  { base := 0x40000008 },
  { base := 0x4000000C },
  { base := 0x40000010, keepWarm := 0xFFFFFFFF, keepCold := 0xFFFFFFFF },
  { base := 0x40000014, keepWarm := 0xFFFFFFFF, keepCold := 0xFFFFFFFF },
  { base := 0x40000020, set1 := 0x1 },
  { base := 0x40000030, rwl := 0x79FF7F8 },
  { base := 0x40000034 },
  { base := 0x40000038 },
  { base := 0x4000003C },
  { base := 0x40000040 },
  { base := 0x40000044 },
  { base := 0x40000048 },
  { base := 0x4000004C }]

/-- Rows of block PWR. -/
def rowsPWR : List RegRow := [
  { base := 0x40010000 },
  { base := 0x40010004, reset := 0x2000, w1c := 0x3 },
  { base := 0x40010008, reset := 0x1 },
  { base := 0x4001000C },
  { base := 0x40010010 },
  { base := 0x40010014, reset := 0x1900064, rw := 0xFFFFFFFF, keepWarm := 0xFFFFFFFF },
  { base := 0x40010018, rw := 0xFFFF },
  { base := 0x4001001C, reset := 0x7, rw := 0x7, keepWarm := 0xFFFFFFFF },
  { base := 0x40010020, keepWarm := 0xFFFFFFFF, keepCold := 0xFFFFFFFF },
  { base := 0x40010024, keepWarm := 0xFFFFFFFF, keepCold := 0xFFFFFFFF },
  { base := 0x40010028, keepWarm := 0xFFFFFFFF, keepCold := 0xFFFFFFFF },
  { base := 0x4001002C, rw := 0xFFFF, keepWarm := 0xFFFFFFFF }]

/-- Rows of block HLT. -/
def rowsHLT : List RegRow := [
  { base := 0x40020000, reset := 0x1, rw := 0x1 },
  { base := 0x40020004, w1c := 0x38 },
  { base := 0x40020008 },
  { base := 0x40020010, count := 6, stride := 4 },
  { base := 0x40020030, reset := 0x32, rw := 0xFF, keepWarm := 0xFFFFFFFF },
  { base := 0x40020034, keepWarm := 0xFFFFFFFF },
  { base := 0x40020038, keepWarm := 0xFFFFFFFF, keepCold := 0xFFFFFFFF },
  { base := 0x4002003C },
  { base := 0x40020040 }]

/-- Rows of block ANG. -/
def rowsANG : List RegRow := [
  { base := 0x40030000, reset := 0x1, rw := 0x3 },
  { base := 0x40030004, reset := 0x2, w1c := 0xE0 },
  { base := 0x40030008, reset := 0x24, rw := 0x3F, keepWarm := 0xFFFFFFFF },
  { base := 0x4003000C, reset := 0x6B5FCA7, rw := 0xFFFFFFFF, keepWarm := 0xFFFFFFFF },
  { base := 0x40030010, rw := 0xFFFF, keepWarm := 0xFFFFFFFF },
  { base := 0x40030014, reset := 0x6B5FCA7, rw := 0xFFFFFFFF },
  { base := 0x40030018, rw := 0xFFFF },
  { base := 0x4003001C },
  { base := 0x40030020 },
  { base := 0x40030024 },
  { base := 0x40030028, reset := 0x1000010, rw := 0xFFFFFFFF, keepWarm := 0xFFFFFFFF },
  { base := 0x4003002C },
  { base := 0x40030030, reset := 0x68DB9, rw := 0xFFFFFFFF, keepWarm := 0xFFFFFFFF },
  { base := 0x40030034, reset := 0x64, rw := 0xFFFFFFFF, keepWarm := 0xFFFFFFFF },
  { base := 0x40030038, reset := 0x3331400, rw := 0xFFFFFF01, keepWarm := 0xFFFFFFFF },
  { base := 0x4003003C, rw := 0xFFFFFFFF, keepWarm := 0xFFFFFFFF },
  { base := 0x40030040 },
  { base := 0x40030044, reset := 0xE1, rw := 0xFFFFFFFF, keepWarm := 0xFFFFFFFF },
  { base := 0x40030048 },
  { base := 0x4003004C }]

/-- Rows of block TT. -/
def rowsTT : List RegRow := [
  { base := 0x40040000, rw := 0x1 },
  { base := 0x40040004, w1c := 0x7 },
  { base := 0x4004000C },
  { base := 0x40041000, count := 256, stride := 8, rw := 0xFFFFFFFF },
  { base := 0x40041004, count := 256, stride := 8, rw := 0xFFFFFFFF },
  { base := 0x40041800, count := 256, stride := 8, rw := 0xFFFFFFFF },
  { base := 0x40041804, count := 256, stride := 8, rw := 0xFFFFFFFF }]

/-- Rows of block TIM. -/
def rowsTIM : List RegRow := [
  { base := 0x40050000, reset := 0x1, rw := 0x1 },
  { base := 0x40050004, w1c := 0xE },
  { base := 0x40050008, reset := 0x8000000, rw := 0xFFFFFFFF, keepWarm := 0xFFFFFFFF },
  { base := 0x4005000C },
  { base := 0x40050010, reset := 0x3C, rw := 0xFFFFFFFF, keepWarm := 0xFFFFFFFF },
  { base := 0x40050014 },
  { base := 0x40050018 },
  { base := 0x40050020 },
  { base := 0x40050024 },
  { base := 0x40050028 },
  { base := 0x4005002C },
  { base := 0x40050030 },
  { base := 0x40050034 },
  { base := 0x40050038, keepWarm := 0xFFFFFFFF },
  { base := 0x4005003C, keepWarm := 0xFFFFFFFF }]

/-- Rows of block SKA. -/
def rowsSKA : List RegRow := [
  { base := 0x40060000, reset := 0x10, rw := 0x1F },
  { base := 0x40060004, w1c := 0x1F8 },
  { base := 0x40060008, reset := 0x3F3F0000 },
  { base := 0x4006000C },
  { base := 0x40060010 },
  { base := 0x40060014, rw := 0xFFFFFFFF },
  { base := 0x40060018 },
  { base := 0x4006001C, w1c := 0x3E },
  { base := 0x40060020, reset := 0x64, rw := 0xFFFFFFFF, keepWarm := 0xFFFFFFFF },
  { base := 0x40060024 },
  { base := 0x40060028 },
  { base := 0x4006002C },
  { base := 0x40060030, reset := 0x8100302, rw := 0xFFFFFFFF, keepWarm := 0xFFFFFFFF },
  { base := 0x40060100, count := 48, stride := 4, rw := 0x8000FFFF, keepWarm := 0xFFFFFFFF },
  { base := 0x40060200, count := 48, stride := 4 }]

/-- Rows of block SKB. -/
def rowsSKB : List RegRow := [
  { base := 0x40070000, reset := 0x10, rw := 0x1F },
  { base := 0x40070004, w1c := 0x1F8 },
  { base := 0x40070008 },
  { base := 0x4007000C },
  { base := 0x40070010 },
  { base := 0x40070014, rw := 0xFFFFFFFF },
  { base := 0x40070018 },
  { base := 0x4007001C, w1c := 0x3E },
  { base := 0x40070020, reset := 0x64, rw := 0xFFFFFFFF, keepWarm := 0xFFFFFFFF },
  { base := 0x40070024 },
  { base := 0x40070028 },
  { base := 0x4007002C },
  { base := 0x40070030, reset := 0x8100302, rw := 0xFFFFFFFF, keepWarm := 0xFFFFFFFF },
  { base := 0x40070100, count := 48, stride := 4, rw := 0x8000FFFF, keepWarm := 0xFFFFFFFF },
  { base := 0x40070200, count := 48, stride := 4 }]

/-- Rows of block SWP. -/
def rowsSWP : List RegRow := [
  { base := 0x40080000, rw := 0x1 },
  { base := 0x40080004, w1c := 0x1FC },
  { base := 0x40080008 },
  { base := 0x4008000C },
  { base := 0x40080010 },
  { base := 0x40080014, reset := 0x204, rw := 0xF0F, keepWarm := 0xFFFFFFFF },
  { base := 0x40080018, reset := 0x14, rw := 0xFF, keepWarm := 0xFFFFFFFF },
  { base := 0x4008001C },
  { base := 0x40080020, reset := 0x10C00000 },
  { base := 0x40080024, reset := 0x3C01F4, rw := 0xFFFFFFFF, keepWarm := 0xFFFFFFFF },
  { base := 0x40080028 },
  { base := 0x4008002C },
  { base := 0x40080040, count := 16, stride := 4 },
  { base := 0x40080100, count := 8, stride := 16, rw := 0xFFFFFF05 },
  { base := 0x40080104, count := 8, stride := 16, rw := 0xFFFFFFFF },
  { base := 0x40080108, count := 8, stride := 16, rw := 0xFFFF },
  { base := 0x4008010C, count := 8, stride := 16 },
  { base := 0x40080400, count := 48, stride := 4, w1c := 0x1FFFF, keepWarm := 0xFFFFFFFF }]

/-- Rows of block CHM. -/
def rowsCHM : List RegRow := [
  { base := 0x40090000, w1c := 0x3 },
  { base := 0x40090004 },
  { base := 0x40090008 },
  { base := 0x40092000, count := 2048, stride := 4, rw := 0xBF1F0FFF }]

/-- Rows of block LIM, part 0. -/
def rowsLIM_0 : List RegRow := [
  { base := 0x400A0000, rwl := 0x1, set1 := 0x2 },
  { base := 0x400A0004, w1c := 0x70 },
  { base := 0x400A0008 },
  { base := 0x400A000C },
  { base := 0x400A0010 },
  { base := 0x400A0014, rw := 0x1 },
  { base := 0x400A0018 },
  { base := 0x400A001C },
  { base := 0x400A0020 },
  { base := 0x400A0024, reset := 0x4021004, rwl := 0xFFFFFFFF },
  { base := 0x400A0028, reset := 0x2710, rwl := 0xFFFFFF },
  { base := 0x400A002C },
  { base := 0x400A0030 },
  { base := 0x400A0080, reset := 0x60, rw := 0x7F },
  { base := 0x400A0084, reset := 0x37, rwl := 0x7F },
  { base := 0x400A0088, reset := 0x60, rw := 0x7F },
  { base := 0x400A008C, reset := 0x37, rwl := 0x7F },
  { base := 0x400A0090, reset := 0x20, rw := 0x7F },
  { base := 0x400A0094, reset := 0x20, rwl := 0x7F },
  { base := 0x400A0098, reset := 0x20, rw := 0x7F },
  { base := 0x400A009C, reset := 0x20, rwl := 0x7F },
  { base := 0x400A00A0, reset := 0x20, rw := 0x7F },
  { base := 0x400A00A4, reset := 0x20, rwl := 0x7F },
  { base := 0x400A00A8, reset := 0x20, rw := 0x7F }]

/-- Rows of block LIM, part 1. -/
def rowsLIM_1 : List RegRow := [
  { base := 0x400A00AC, reset := 0x20, rwl := 0x7F },
  { base := 0x400A00B0, reset := 0x20, rw := 0x7F },
  { base := 0x400A00B4, reset := 0x20, rwl := 0x7F },
  { base := 0x400A00B8, reset := 0x20, rw := 0x7F },
  { base := 0x400A00BC, reset := 0x20, rwl := 0x7F },
  { base := 0x400A00C0, reset := 0x60, rw := 0x7F },
  { base := 0x400A00C4, reset := 0x37, rwl := 0x7F },
  { base := 0x400A00C8, rw := 0x7F },
  { base := 0x400A00CC, reset := 0x37, rwl := 0x7F },
  { base := 0x400A00D0, reset := 0x20, rw := 0x7F },
  { base := 0x400A00D4, reset := 0x32, rwl := 0x7F },
  { base := 0x400A00D8, reset := 0x20, rw := 0x7F },
  { base := 0x400A00DC, reset := 0x3B, rwl := 0x7F },
  { base := 0x400A00E0, rw := 0x7F },
  { base := 0x400A00E4, reset := 0x36, rwl := 0x7F },
  { base := 0x400A00E8, reset := 0x20, rw := 0x7F },
  { base := 0x400A00EC, reset := 0x37, rwl := 0x7F },
  { base := 0x400A00F0, reset := 0x60, rw := 0x7F },
  { base := 0x400A00F4, reset := 0x37, rwl := 0x7F },
  { base := 0x400A00F8, reset := 0x20, rw := 0x7F },
  { base := 0x400A00FC, reset := 0x37, rwl := 0x7F },
  { base := 0x400A0100, reset := 0x419CE0, rwl := 0xFFFFFF },
  { base := 0x400A0104, reset := 0xF4240, rwl := 0xFFFFFF },
  { base := 0x400A0108, reset := 0x2800, rwl := 0xFFFFFF }]

/-- Rows of block LIM, part 2. -/
def rowsLIM_2 : List RegRow := [
  { base := 0x400A010C, reset := 0xFFEC00, rwl := 0xFFFFFF },
  { base := 0x400A0110, reset := 0x7FFFFF, rwl := 0xFFFFFF },
  { base := 0x400A0114, reset := 0x800000, rwl := 0xFFFFFF },
  { base := 0x400A4000, count := 2048, stride := 4 },
  { base := 0x400A8000, count := 2048, stride := 16, rw := 0xFFFFFFFF },
  { base := 0x400A8004, count := 2048, stride := 16, rw := 0xFFFFFF07 },
  { base := 0x400A8008, count := 2048, stride := 16, rw := 0xFFFFFFFF },
  { base := 0x400A800C, count := 2048, stride := 16, rw := 0xFFFFFF8F }]

/-- Rows of block LIM. -/
def rowsLIM : List RegRow := rowsLIM_0 ++ rowsLIM_1 ++ rowsLIM_2

/-- Rows of block SCC. -/
def rowsSCC : List RegRow := [
  { base := 0x400B0000, rwl := 0x1, set1 := 0x2 },
  { base := 0x400B0004 },
  { base := 0x400B0008 },
  { base := 0x400B000C, w1c := 0x1FF },
  { base := 0x400B0010, reset := 0x32141E05, rwl := 0xFFFFFFFF },
  { base := 0x400B0014, reset := 0x50, rwl := 0xFF },
  { base := 0x400B0018, reset := 0x1F4, rwl := 0xFFFF },
  { base := 0x400B001C, reset := 0x3C00C8, rwl := 0xFFFF01FF },
  { base := 0x400B0020, reset := 0x1F40405, rwl := 0xFFFFFF07 },
  { base := 0x400B0024, reset := 0xBB8, rwl := 0xFFFF },
  { base := 0x400B0028 },
  { base := 0x400B002C },
  { base := 0x400B0030, keepWarm := 0xFFFFFFFF }]

/-- Rows of block BAL. -/
def rowsBAL : List RegRow := [
  { base := 0x400C0000, reset := 0x2, rw := 0xF },
  { base := 0x400C0004, w1c := 0x1E },
  { base := 0x400C0008, reset := 0x14, rw := 0xFF, keepWarm := 0xFFFFFFFF },
  { base := 0x400C000C, reset := 0x64, rw := 0xFFFF, keepWarm := 0xFFFFFFFF },
  { base := 0x400C0010, reset := 0x3E8, rw := 0xFFFF, keepWarm := 0xFFFFFFFF },
  { base := 0x400C0014, reset := 0x46370004, rw := 0xFFFF001F, keepWarm := 0xFFFFFFFF },
  { base := 0x400C0018, reset := 0xAF0, rw := 0xFFFF, keepWarm := 0xFFFFFFFF },
  { base := 0x400C001C, reset := 0xCE4, rw := 0xFFFF, keepWarm := 0xFFFFFFFF },
  { base := 0x400C0020 },
  { base := 0x400C0024 },
  { base := 0x400C0040, count := 16, stride := 4 },
  { base := 0x400C0100, count := 48, stride := 4, rw := 0xFFFFFF },
  { base := 0x400C0200, count := 48, stride := 4 },
  { base := 0x400C1000, count := 48, stride := 128, count2 := 17, stride2 := 4, rw := 0x8000FFFF, keepWarm := 0xFFFFFFFF }]

/-- Rows of block EST, part 0. -/
def rowsEST_0 : List RegRow := [
  { base := 0x400D0000, reset := 0x1, rw := 0x3 },
  { base := 0x400D0004 },
  { base := 0x400D0008, rw := 0x1 },
  { base := 0x400D000C, reset := 0x110, rw := 0x177, keepWarm := 0xFFFFFFFF },
  { base := 0x400D0010, keepWarm := 0xFFFFFFFF },
  { base := 0x400D0014, keepWarm := 0xFFFFFFFF },
  { base := 0x400D0018, keepWarm := 0xFFFFFFFF },
  { base := 0x400D001C, keepWarm := 0xFFFFFFFF },
  { base := 0x400D0020 },
  { base := 0x400D0024 },
  { base := 0x400D0028 },
  { base := 0x400D002C },
  { base := 0x400D0030 },
  { base := 0x400D0034 },
  { base := 0x400D0040, rw := 0xFFFFFFFF },
  { base := 0x400D0044, rw := 0xFFFFFFFF },
  { base := 0x400D0048, rw := 0xFFFFFFFF },
  { base := 0x400D004C, rw := 0xFFFFFFFF },
  { base := 0x400D0050, rw := 0xFFFFFFFF },
  { base := 0x400D0054, rw := 0xFFFFFFFF },
  { base := 0x400D0058, rw := 0xFFFFFFFF },
  { base := 0x400D005C },
  { base := 0x400D0060, reset := 0x64, rw := 0xFFFF, keepWarm := 0xFFFFFFFF },
  { base := 0x400D0064, reset := 0x80, rw := 0xFF, keepWarm := 0xFFFFFFFF }]

/-- Rows of block EST, part 1. -/
def rowsEST_1 : List RegRow := [
  { base := 0x400D0068 },
  { base := 0x400D006C },
  { base := 0x400D0070 },
  { base := 0x400D0074 },
  { base := 0x400D0078, rw := 0xFF },
  { base := 0x400D007C, rw := 0x3FF03FF },
  { base := 0x400D0080, rw := 0xFFFFFFFF },
  { base := 0x400D0084, rw := 0xFFFFFFFF },
  { base := 0x400D1000, count := 640, stride := 4, rw := 0xFFFFFFFF },
  { base := 0x400D2000, count := 640, stride := 4, rw := 0xFFFFFFFF },
  { base := 0x400D3000, count := 640, stride := 4, rw := 0xFFFFFFFF }]

/-- Rows of block EST. -/
def rowsEST : List RegRow := rowsEST_0 ++ rowsEST_1

/-- Rows of block IMP. -/
def rowsIMP : List RegRow := [
  { base := 0x400E0000, reset := 0x8, rw := 0xB },
  { base := 0x400E0004, w1c := 0x1E0 },
  { base := 0x400E0008, w1c := 0xFFFF },
  { base := 0x400E000C, rw := 0xFFFF, keepWarm := 0xFFFFFFFF },
  { base := 0x400E0010, reset := 0x1388, rw := 0xFFFFFF, keepWarm := 0xFFFFFFFF },
  { base := 0x400E0014, reset := 0x64, rw := 0xFFFF, keepWarm := 0xFFFFFFFF },
  { base := 0x400E0018, reset := 0x14, rw := 0x3FF, keepWarm := 0xFFFFFFFF },
  { base := 0x400E001C },
  { base := 0x400E0020, reset := 0x10C10000 },
  { base := 0x400E0100, count := 16, stride := 16, rw := 0xF7FFF000 },
  { base := 0x400E0104, count := 16, stride := 16, rw := 0xFFFFFFFF },
  { base := 0x400E0108, count := 16, stride := 16, rw := 0xFFFFFFFF },
  { base := 0x400E010C, count := 16, stride := 16, rw := 0xFFFFFF },
  { base := 0x400E0200, count := 8, stride := 16, rw := 0xFCFFF000 },
  { base := 0x400E0204, count := 8, stride := 16, rw := 0xFFFFFFFF },
  { base := 0x400E0208, count := 8, stride := 16, rw := 0xFFFFFF },
  { base := 0x400E020C, count := 8, stride := 16 },
  { base := 0x400E8000, count := 640, stride := 16, rw := 0xFFFFFFFF },
  { base := 0x400E8004, count := 640, stride := 16, rw := 0xFFFFFFFF },
  { base := 0x400E8008, count := 640, stride := 16, rw := 0xFFFFFFFF },
  { base := 0x400E800C, count := 640, stride := 16, rw := 0xE000FFFF }]

/-- Rows of block CE, part 0. -/
def rowsCE_0 : List RegRow := [
  { base := 0x400F0000, rw := 0x1 },
  { base := 0x400F0004, w1c := 0x70FFFF00 },
  { base := 0x400F0008, reset := 0x3, rw := 0xFF, keepWarm := 0xFFFFFFFF },
  { base := 0x400F000C },
  { base := 0x400F0010 },
  { base := 0x400F0014, rw := 0xFFFFFFFF },
  { base := 0x400F0020, rw := 0x733FFFF },
  { base := 0x400F0024, rw := 0xFFFFFFFF },
  { base := 0x400F0028, rw := 0xFFFF },
  { base := 0x400F0030, rw := 0x1FFF },
  { base := 0x400F0034, rw := 0xFFFFFFFF },
  { base := 0x400F0038, rw := 0xF7FFFFFF },
  { base := 0x400F003C },
  { base := 0x400F0040, reset := 0x10C40000 },
  { base := 0x400F0100, count := 8, stride := 64, reset := 0x4000000, rw := 0xFC7FFF00 },
  { base := 0x400F0104, count := 8, stride := 64, rw := 0xFFFC0000 },
  { base := 0x400F0108, count := 8, stride := 64, rw := 0xFFFFFFFF },
  { base := 0x400F010C, count := 8, stride := 64, rw := 0xFFFF0007 },
  { base := 0x400F0110, count := 8, stride := 64, rw := 0xFFFFFFFF },
  { base := 0x400F0114, count := 8, stride := 64, rw := 0xFFFFFFFF },
  { base := 0x400F0118, count := 8, stride := 64, rw := 0xFFFFFFFF },
  { base := 0x400F011C, count := 8, stride := 64, rw := 0xFFFF },
  { base := 0x400F0120, count := 8, stride := 64, rw := 0xFFFFFFFF },
  { base := 0x400F0124, count := 8, stride := 64, rw := 0xFFFFFF }]

/-- Rows of block CE, part 1. -/
def rowsCE_1 : List RegRow := [
  { base := 0x400F0128, count := 8, stride := 64, rw := 0x1FF01FF },
  { base := 0x400F012C, count := 8, stride := 64, rw := 0xFFFF },
  { base := 0x400F0130, count := 8, stride := 64 },
  { base := 0x400F0134, count := 8, stride := 64 },
  { base := 0x400F0138, count := 8, stride := 64 },
  { base := 0x400F013C, count := 8, stride := 64 },
  { base := 0x400F1000, count := 512, stride := 4, rw := 0xFFFFFFFF }]

/-- Rows of block CE. -/
def rowsCE : List RegRow := rowsCE_0 ++ rowsCE_1

/-- Rows of block PWM. -/
def rowsPWM : List RegRow := [
  { base := 0x40100000, rw := 0x1F },
  { base := 0x40100004, w1c := 0x30 },
  { base := 0x40100008 },
  { base := 0x40100100, count := 4, stride := 32, rw := 0xFFFFF },
  { base := 0x40100104, count := 4, stride := 32, rw := 0xFFFFF },
  { base := 0x40100108, count := 4, stride := 32, rw := 0xFFF0FFF },
  { base := 0x4010010C, count := 4, stride := 32, rw := 0xF },
  { base := 0x40100110, count := 4, stride := 32, rw := 0xFFFFF },
  { base := 0x40100114, count := 4, stride := 32, rw := 0xFFFFF },
  { base := 0x40100118, count := 4, stride := 32, reset := 0x9C400, rw := 0xFFFFF }]

/-- Rows of block SDM. -/
def rowsSDM : List RegRow := [
  { base := 0x40110000, rw := 0x13F, keepWarm := 0xFFFFFFFF },
  { base := 0x40110004, reset := 0x3F, w1c := 0x3F0000 },
  { base := 0x40110008, reset := 0x19, rw := 0x3F, keepWarm := 0xFFFFFFFF },
  { base := 0x4011000C, reset := 0x200, rw := 0xFFF, keepWarm := 0xFFFFFFFF },
  { base := 0x40110100, count := 6, stride := 32, reset := 0x402080, rw := 0x31FFFFDE, keepWarm := 0xFFFFFFFF },
  { base := 0x40110104, count := 6, stride := 32, rw := 0xFFFFFFFF, keepWarm := 0xFFFFFFFF },
  { base := 0x40110108, count := 6, stride := 32, rw := 0xFFFF, keepWarm := 0xFFFFFFFF },
  { base := 0x4011010C, count := 6, stride := 32, reset := 0x7FFF8000, rw := 0xFFFFFFFF, keepWarm := 0xFFFFFFFF },
  { base := 0x40110110, count := 6, stride := 32, reset := 0x7FFF8000, rw := 0xFFFFFFFF, keepWarm := 0xFFFFFFFF },
  { base := 0x40110114, count := 6, stride := 32 },
  { base := 0x40110118, count := 6, stride := 32 }]

/-- Rows of block DSP. -/
def rowsDSP : List RegRow := [
  { base := 0x40120000, rw := 0xD },
  { base := 0x40120004, w1c := 0x66 },
  { base := 0x40120008, reset := 0x17D78400, rw := 0xFFFFFFFF, keepWarm := 0xFFFFFFFF },
  { base := 0x4012000C, reset := 0x17D78400, rw := 0xFFFFFFFF, keepWarm := 0xFFFFFFFF },
  { base := 0x40120010, reset := 0x3E8, rw := 0xFFFFFF, keepWarm := 0xFFFFFFFF },
  { base := 0x40120014, reset := 0x64, rw := 0xFFFFFF, keepWarm := 0xFFFFFFFF },
  { base := 0x40120018, reset := 0x32003C, rw := 0xFFFFFFFF, keepWarm := 0xFFFFFFFF },
  { base := 0x4012001C, reset := 0x7D0, rw := 0xFFFF, keepWarm := 0xFFFFFFFF },
  { base := 0x40120020 },
  { base := 0x40120024 },
  { base := 0x40120028 },
  { base := 0x4012002C, rw := 0x80000007 },
  { base := 0x40120030, reset := 0x3C, rw := 0xFFFF, keepWarm := 0xFFFFFFFF },
  { base := 0x40120100, count := 4, stride := 16, rw := 0xE000FFFF },
  { base := 0x40120104, count := 4, stride := 16, rw := 0xFFFFFFFF },
  { base := 0x40120108, count := 4, stride := 16, rw := 0xFFFFFFFF },
  { base := 0x4012010C, count := 4, stride := 16, rw := 0x3FFFFFFF }]

/-- Rows of block MOT, part 0. -/
def rowsMOT_0 : List RegRow := [
  { base := 0x40130000, rw := 0x3, keepWarm := 0xFFFFFFFF },
  { base := 0x40130004, w1c := 0xFF00 },
  { base := 0x40130008, reset := 0x3E8, rw := 0xFFFFFF, keepWarm := 0xFFFFFFFF },
  { base := 0x4013000C, reset := 0x4E20, rw := 0x3FFFF, keepWarm := 0xFFFFFFFF },
  { base := 0x40130010, rw := 0x1FFFFFFF, keepWarm := 0xFFFFFFFF },
  { base := 0x40130100, count := 4, stride := 64, reset := 0x1F1F00, rw := 0xFF9F1F1F, keepWarm := 0xFFFFFFFF },
  { base := 0x40130104, count := 4, stride := 64, keepWarm := 0xFFFFFFFF },
  { base := 0x40130108, count := 4, stride := 64, rw := 0xFFFFFFFF },
  { base := 0x4013010C, count := 4, stride := 64, reset := 0xC8, rw := 0xFFFF, keepWarm := 0xFFFFFFFF },
  { base := 0x40130110, count := 4, stride := 64, reset := 0x190, rw := 0xFFFF, keepWarm := 0xFFFFFFFF },
  { base := 0x40130114, count := 4, stride := 64, rw := 0xFFFFFFFF, keepWarm := 0xFFFFFFFF },
  { base := 0x40130118, count := 4, stride := 64, rw := 0xFFFFFFFF, keepWarm := 0xFFFFFFFF },
  { base := 0x4013011C, count := 4, stride := 64, reset := 0x3E80005, rw := 0xFFFFFFFF, keepWarm := 0xFFFFFFFF },
  { base := 0x40130120, count := 4, stride := 64, reset := 0xA0040, rw := 0xFFFFFFFF, keepWarm := 0xFFFFFFFF },
  { base := 0x40130124, count := 4, stride := 64, rw := 0xFFFFFFFF, keepWarm := 0xFFFFFFFF },
  { base := 0x40130128, count := 4, stride := 64, rw := 0xFFFFFFFF, keepWarm := 0xFFFFFFFF },
  { base := 0x4013012C, count := 4, stride := 64 },
  { base := 0x40130130, count := 4, stride := 64, keepWarm := 0xE0FFFFF0 },
  { base := 0x40130134, count := 4, stride := 64 },
  { base := 0x40130300, count := 4, stride := 16, reset := 0x19, rw := 0x8FFFFFFF, keepWarm := 0xFFFFFFFF },
  { base := 0x40130304, count := 4, stride := 16, rw := 0xFFFF },
  { base := 0x40130308, count := 4, stride := 16, reset := 0x12C07D0, rw := 0xFFFFFFFF, keepWarm := 0xFFFFFFFF },
  { base := 0x4013030C, count := 4, stride := 16 },
  { base := 0x40130400, count := 4, stride := 16, rw := 0xF00007FF, keepWarm := 0xFFFFFFFF }]

/-- Rows of block MOT, part 1. -/
def rowsMOT_1 : List RegRow := [
  { base := 0x40130404, count := 4, stride := 16, reset := 0x100, rw := 0xFFFFFFFF, keepWarm := 0xFFFFFFFF },
  { base := 0x40130408, count := 4, stride := 16, rw := 0xFFFF, keepWarm := 0xFFFFFFFF },
  { base := 0x4013040C, count := 4, stride := 16 }]

/-- Rows of block MOT. -/
def rowsMOT : List RegRow := rowsMOT_0 ++ rowsMOT_1

/-- Rows of block FIO. -/
def rowsFIO : List RegRow := [
  { base := 0x40140000, rw := 0x1, keepWarm := 0xFFFFFFFF },
  { base := 0x40140004, w1c := 0x3 },
  { base := 0x40140010, count := 4, stride := 4 },
  { base := 0x40140020, rw := 0xFF, keepWarm := 0xFFFFFFFF },
  { base := 0x40140024, rw := 0xFF, keepWarm := 0xFFFFFFFF },
  { base := 0x40140028, rw := 0xF, keepWarm := 0xFFFFFFFF },
  { base := 0x4014002C, reset := 0xC803E8, rw := 0x1FFFFFF, keepWarm := 0xFFFFFFFF },
  { base := 0x40140030 },
  { base := 0x40140034, w1c := 0xFFFF },
  { base := 0x40140038, reset := 0x5, rw := 0xFF, keepWarm := 0xFFFFFFFF },
  { base := 0x4014003C, rw := 0xFFFF0001, keepWarm := 0xFFFFFFFF },
  { base := 0x40140100, count := 20, stride := 4, reset := 0x64001E, rw := 0x3FF00FF, keepWarm := 0xFFFFFFFF }]

/-- Rows of block CYC. -/
def rowsCYC : List RegRow := [
  { base := 0x40150000, rw := 0x18, keepWarm := 0x10 },
  { base := 0x40150004, w1c := 0xB80 },
  { base := 0x40150008, reset := 0x1388, rw := 0xFFFFF, keepWarm := 0xFFFFFFFF },
  { base := 0x4015000C, reset := 0x4, rw := 0xFF, keepWarm := 0xFFFFFFFF },
  { base := 0x40150010 },
  { base := 0x40150014 },
  { base := 0x40150018 },
  { base := 0x4015001C },
  { base := 0x40150020 },
  { base := 0x40150024, reset := 0x105E0000 },
  { base := 0x40150028, reset := 0x105F0000 },
  { base := 0x4015002C },
  { base := 0x40150030 },
  { base := 0x40150034 },
  { base := 0x40151000, count := 256, stride := 16, rw := 0xFFFFFFFF },
  { base := 0x40151004, count := 256, stride := 16, rw := 0xFF07FFFF },
  { base := 0x40151008, count := 256, stride := 16, rw := 0xFFFFFFFF },
  { base := 0x4015100C, count := 256, stride := 16, rw := 0xFFFFFFFF }]

/-- Rows of block TW. -/
def rowsTW : List RegRow := [
  { base := 0x40160000, rw := 0x3, keepWarm := 0xFFFFFFFF, keepCold := 0xFFFFFFFF },
  { base := 0x40160004 },
  { base := 0x40160008, w1c := 0x3F0000 },
  { base := 0x4016000C, keepWarm := 0xFFFFFFFF, keepCold := 0xFFFFFFFF },
  { base := 0x40160010 },
  { base := 0x40160014 },
  { base := 0x40160018, reset := 0x64, rw := 0x3FF, keepWarm := 0xFFFFFFFF },
  { base := 0x4016001C, reset := 0x1F4, rw := 0xFFFF, keepWarm := 0xFFFFFFFF },
  { base := 0x40160020, reset := 0xA, rw := 0xFFFF, keepWarm := 0xFFFFFFFF },
  { base := 0x40160024, reset := 0x14, rw := 0xFF, keepWarm := 0xFFFFFFFF },
  { base := 0x40160028, reset := 0x64, rw := 0xFFFF, keepWarm := 0xFFFFFFFF },
  { base := 0x4016002C },
  { base := 0x40160030 },
  { base := 0x40160034 },
  { base := 0x40160038 },
  { base := 0x4016003C },
  { base := 0x40160040, reset := 0x40, rw := 0xFFFF, keepWarm := 0xFFFFFFFF },
  { base := 0x40160044, reset := 0x5, rw := 0xFFFF, keepWarm := 0xFFFFFFFF },
  { base := 0x40160048, keepWarm := 0xFFFFFFFF, keepCold := 0xFFFFFFFF }]

/-- Rows of block CANA, part 0. -/
def rowsCANA_0 : List RegRow := [
  { base := 0x40170000, reset := 0x1, rw := 0x3F },
  { base := 0x40170004, reset := 0x770701, w1c := 0xC00 },
  { base := 0x40170008, rw := 0xFFFFFFFF, keepWarm := 0xFFFFFFFF },
  { base := 0x4017000C, rw := 0x1F1F3F1F, keepWarm := 0xFFFFFFFF },
  { base := 0x40170010, rw := 0xFF00, keepWarm := 0xFFFFFF80 },
  { base := 0x40170014 },
  { base := 0x40170020, count := 4, stride := 4 },
  { base := 0x40170030, count := 4, stride := 4 },
  { base := 0x40170040, count := 4, stride := 4 },
  { base := 0x40170050, count := 4, stride := 4, w1c := 0xFFFFFFFF },
  { base := 0x40170060, count := 4, stride := 4, w1c := 0xFFFFFFFF },
  { base := 0x40170070, count := 4, stride := 4 },
  { base := 0x40170080 },
  { base := 0x40170100, count := 32, stride := 4 },
  { base := 0x40174000, count := 128, stride := 128, rw := 0xFFF0000F },
  { base := 0x40174004, count := 128, stride := 128, rw := 0x1FFFFFFF },
  { base := 0x40174008, count := 128, stride := 128, rw := 0x1FFFFFFF },
  { base := 0x4017400C, count := 128, stride := 128 },
  { base := 0x40174010, count := 128, stride := 128 },
  { base := 0x40174014, count := 128, stride := 128 },
  { base := 0x40174018, count := 128, stride := 128 },
  { base := 0x4017401C, count := 128, stride := 128 },
  { base := 0x40174040, count := 128, stride := 128, rw := 0xFFFFFFFF },
  { base := 0x40174044, count := 128, stride := 128, rw := 0xFFFFFFFF }]

/-- Rows of block CANA, part 1. -/
def rowsCANA_1 : List RegRow := [
  { base := 0x40174048, count := 128, stride := 128, rw := 0xFFFFFFFF },
  { base := 0x4017404C, count := 128, stride := 128, rw := 0xFFFFFFFF },
  { base := 0x40174050, count := 128, stride := 128, rw := 0xFFFFFFFF },
  { base := 0x40174054, count := 128, stride := 128, rw := 0xFFFFFFFF },
  { base := 0x40174058, count := 128, stride := 128, rw := 0xFFFFFFFF },
  { base := 0x4017405C, count := 128, stride := 128, rw := 0xFFFFFFFF },
  { base := 0x40174060, count := 128, stride := 128, rw := 0xFFFFFFFF },
  { base := 0x40174064, count := 128, stride := 128, rw := 0xFFFFFFFF },
  { base := 0x40174068, count := 128, stride := 128, rw := 0xFFFFFFFF },
  { base := 0x4017406C, count := 128, stride := 128, rw := 0xFFFFFFFF },
  { base := 0x40174070, count := 128, stride := 128, rw := 0xFFFFFFFF },
  { base := 0x40174074, count := 128, stride := 128, rw := 0xFFFFFFFF },
  { base := 0x40174078, count := 128, stride := 128, rw := 0xFFFFFFFF },
  { base := 0x4017407C, count := 128, stride := 128, rw := 0xFFFFFFFF }]

/-- Rows of block CANA. -/
def rowsCANA : List RegRow := rowsCANA_0 ++ rowsCANA_1

/-- Rows of block CANB, part 0. -/
def rowsCANB_0 : List RegRow := [
  { base := 0x40180000, reset := 0x1, rw := 0x3F },
  { base := 0x40180004, reset := 0x770701, w1c := 0xC00 },
  { base := 0x40180008, rw := 0xFFFFFFFF, keepWarm := 0xFFFFFFFF },
  { base := 0x4018000C, rw := 0x1F1F3F1F, keepWarm := 0xFFFFFFFF },
  { base := 0x40180010, rw := 0xFF00, keepWarm := 0xFFFFFF80 },
  { base := 0x40180014 },
  { base := 0x40180020, count := 4, stride := 4 },
  { base := 0x40180030, count := 4, stride := 4 },
  { base := 0x40180040, count := 4, stride := 4 },
  { base := 0x40180050, count := 4, stride := 4, w1c := 0xFFFFFFFF },
  { base := 0x40180060, count := 4, stride := 4, w1c := 0xFFFFFFFF },
  { base := 0x40180070, count := 4, stride := 4 },
  { base := 0x40180080 },
  { base := 0x40180100, count := 32, stride := 4 },
  { base := 0x40184000, count := 128, stride := 128, rw := 0xFFF0000F },
  { base := 0x40184004, count := 128, stride := 128, rw := 0x1FFFFFFF },
  { base := 0x40184008, count := 128, stride := 128, rw := 0x1FFFFFFF },
  { base := 0x4018400C, count := 128, stride := 128 },
  { base := 0x40184010, count := 128, stride := 128 },
  { base := 0x40184014, count := 128, stride := 128 },
  { base := 0x40184018, count := 128, stride := 128 },
  { base := 0x4018401C, count := 128, stride := 128 },
  { base := 0x40184040, count := 128, stride := 128, rw := 0xFFFFFFFF },
  { base := 0x40184044, count := 128, stride := 128, rw := 0xFFFFFFFF }]

/-- Rows of block CANB, part 1. -/
def rowsCANB_1 : List RegRow := [
  { base := 0x40184048, count := 128, stride := 128, rw := 0xFFFFFFFF },
  { base := 0x4018404C, count := 128, stride := 128, rw := 0xFFFFFFFF },
  { base := 0x40184050, count := 128, stride := 128, rw := 0xFFFFFFFF },
  { base := 0x40184054, count := 128, stride := 128, rw := 0xFFFFFFFF },
  { base := 0x40184058, count := 128, stride := 128, rw := 0xFFFFFFFF },
  { base := 0x4018405C, count := 128, stride := 128, rw := 0xFFFFFFFF },
  { base := 0x40184060, count := 128, stride := 128, rw := 0xFFFFFFFF },
  { base := 0x40184064, count := 128, stride := 128, rw := 0xFFFFFFFF },
  { base := 0x40184068, count := 128, stride := 128, rw := 0xFFFFFFFF },
  { base := 0x4018406C, count := 128, stride := 128, rw := 0xFFFFFFFF },
  { base := 0x40184070, count := 128, stride := 128, rw := 0xFFFFFFFF },
  { base := 0x40184074, count := 128, stride := 128, rw := 0xFFFFFFFF },
  { base := 0x40184078, count := 128, stride := 128, rw := 0xFFFFFFFF },
  { base := 0x4018407C, count := 128, stride := 128, rw := 0xFFFFFFFF }]

/-- Rows of block CANB. -/
def rowsCANB : List RegRow := rowsCANB_0 ++ rowsCANB_1

/-- Rows of block SMB. -/
def rowsSMB : List RegRow := [
  { base := 0x40190000, reset := 0x6, rw := 0x1F, keepWarm := 0xFFFFFFFF },
  { base := 0x40190004, w1c := 0x3F },
  { base := 0x40190008, reset := 0xAC, rw := 0xFFFFFFFF, keepWarm := 0xFFFFFFFF },
  { base := 0x4019000C, rw := 0x8000007F, keepWarm := 0xFFFFFFFF },
  { base := 0x40190010, reset := 0xC, rw := 0x3F, keepWarm := 0xFFFFFFFF },
  { base := 0x40190014, reset := 0x23, rw := 0xFFFF, keepWarm := 0xFFFFFFFF },
  { base := 0x40190018, reset := 0x4, rw := 0xFFFF, keepWarm := 0xFFFFFFFF },
  { base := 0x4019001C },
  { base := 0x40190020 },
  { base := 0x40190024 },
  { base := 0x40190028 },
  { base := 0x40190100, count := 64, stride := 4, rw := 0xFFFFFFFF },
  { base := 0x40190200, count := 9, stride := 4 }]

/-- Rows of block ETH. -/
def rowsETH : List RegRow := [
  { base := 0x401A0000, reset := 0x2, rw := 0x3 },
  { base := 0x401A0004, w1c := 0xC0 },
  { base := 0x401A0008, reset := 0x12C, rw := 0xFFFF, keepWarm := 0xFFFFFFFF },
  { base := 0x401A000C, reset := 0x1, rw := 0xF01, keepWarm := 0xFFFFFFFF },
  { base := 0x401A0010, reset := 0x3E8, rw := 0xFFFFFF, keepWarm := 0xFFFFFFFF },
  { base := 0x401A0014, reset := 0xB86B, rw := 0xFFFF, keepWarm := 0xFFFFFFFF },
  { base := 0x401A0018, rw := 0xFFFFFFFF },
  { base := 0x401A001C, rw := 0xFFFF },
  { base := 0x401A0020 },
  { base := 0x401A0100, count := 2, stride := 32, reset := 0x3, rw := 0x3, keepWarm := 0xFFFFFFFF },
  { base := 0x401A0104, count := 2, stride := 32, keepWarm := 0xFFFFFFFF, keepCold := 0xFFFFFFFF },
  { base := 0x401A0108, count := 2, stride := 32 },
  { base := 0x401A010C, count := 2, stride := 32 }]

/-- Rows of block REC. -/
def rowsREC : List RegRow := [
  { base := 0x401C0000, rw := 0x1 },
  { base := 0x401C0004, w1c := 0x1D },
  { base := 0x401C0008, keepWarm := 0xFFFFFFFF },
  { base := 0x401C000C, keepWarm := 0xFFFFFFFF },
  { base := 0x401C0010, keepWarm := 0xFFFFFFFF },
  { base := 0x401C0014 },
  { base := 0x401C0018, reset := 0x200, rw := 0x7FF, keepWarm := 0xFFFFFFFF },
  { base := 0x401C001C, reset := 0x3C, rw := 0xFFFF, keepWarm := 0xFFFFFFFF },
  { base := 0x401C0020, keepWarm := 0xFFFFFFFF },
  { base := 0x401C0024 },
  { base := 0x401C0028 },
  { base := 0x401C0100, count := 60, stride := 4, rw := 0xFFFFFFFF },
  { base := 0x401C0200, count := 4, stride := 64, count2 := 16, stride2 := 4, rw := 0xFFFFFFFF, keepWarm := 0xFFFFFFFF }]

/-- Rows of block NVC. -/
def rowsNVC : List RegRow := [
  { base := 0x401D0000, reset := 0x1, rw := 0x1 },
  { base := 0x401D0004, w1c := 0x18 },
  { base := 0x401D0008, rw := 0xFFFFFFFF },
  { base := 0x401D000C, rw := 0xFFFFFFFF },
  { base := 0x401D0010, rw := 0xFFFFFF },
  { base := 0x401D0014 },
  { base := 0x401D0018 },
  { base := 0x401D001C },
  { base := 0x401D0020, keepWarm := 0xFFFFFFFF },
  { base := 0x401D0040, count := 5, stride := 4, keepWarm := 0xFFFFFFFF }]

/-- Rows of block SVC. -/
def rowsSVC : List RegRow := [
  { base := 0x401E0000 },
  { base := 0x401E0004 },
  { base := 0x401E0008 },
  { base := 0x401E000C },
  { base := 0x401E0010, reset := 0x3, keepWarm := 0xFFFFFFFF, keepCold := 0xFFFFFFFF },
  { base := 0x401E0014, reset := 0x258, rw := 0xFFFF, keepWarm := 0xFFFFFFFF },
  { base := 0x401E0018 }]

/-- Rows of block DMA. -/
def rowsDMA : List RegRow := [
  { base := 0x401F0000, rw := 0x1 },
  { base := 0x401F0004 },
  { base := 0x401F0008, w1c := 0xFFFFFFFF },
  { base := 0x401F000C, w1c := 0xFFFFFFFF },
  { base := 0x401F0010, w1c := 0xFFFFFFFF },
  { base := 0x401F0014, w1c := 0xFFFFFFFF },
  { base := 0x401F0018, rw := 0xFFFFFFFF },
  { base := 0x401F001C, rw := 0xFFFFFFFF },
  { base := 0x401F0100, count := 64, stride := 16, rw := 0xFFFFFFF0 },
  { base := 0x401F0104, count := 64, stride := 16, rw := 0x8000FFFF },
  { base := 0x401F0108, count := 64, stride := 16 },
  { base := 0x401F010C, count := 64, stride := 16, rw := 0xFFFF }]

/-- Rows of block MPU. -/
def rowsMPU : List RegRow := [
  { base := 0x40200000, set1 := 0x3 },
  { base := 0x40200004, w1c := 0x3 },
  { base := 0x40200008, keepWarm := 0xFFFFFFFF, keepCold := 0xFFFFFFFF },
  { base := 0x40200010 },
  { base := 0x40200014 },
  { base := 0x40200018 },
  { base := 0x4020001C },
  { base := 0x40200100, count := 16, stride := 16, rwl := 0xFFFFFFE0 },
  { base := 0x40200104, count := 16, stride := 16, rwl := 0xFFFFFFE0 },
  { base := 0x40200108, count := 16, stride := 16, rwl := 0x80000077 },
  { base := 0x40200200, count := 16, stride := 16, rwl := 0xFFFFFFE0 },
  { base := 0x40200204, count := 16, stride := 16, rwl := 0xFFFFFFE0 },
  { base := 0x40200208, count := 16, stride := 16, rwl := 0x80000077 }]

/-- The register rows of the block of index `b` (Table 1.8). -/
def blockRows (b : Nat) : List RegRow :=
  match b with
  | 0 => rowsSYS
  | 1 => rowsPWR
  | 2 => rowsHLT
  | 3 => rowsANG
  | 4 => rowsTT
  | 5 => rowsTIM
  | 6 => rowsSKA
  | 7 => rowsSKB
  | 8 => rowsSWP
  | 9 => rowsCHM
  | 10 => rowsLIM
  | 11 => rowsSCC
  | 12 => rowsBAL
  | 13 => rowsEST
  | 14 => rowsIMP
  | 15 => rowsCE
  | 16 => rowsPWM
  | 17 => rowsSDM
  | 18 => rowsDSP
  | 19 => rowsMOT
  | 20 => rowsFIO
  | 21 => rowsCYC
  | 22 => rowsTW
  | 23 => rowsCANA
  | 24 => rowsCANB
  | 25 => rowsSMB
  | 26 => rowsETH
  | 28 => rowsREC
  | 29 => rowsNVC
  | 30 => rowsSVC
  | 31 => rowsDMA
  | 32 => rowsMPU
  | _ => []

/-- The index of the peripheral block that holds address `a` (R28, Table 1.8). -/
def blockOf (a : Nat) : Nat := a / 0x10000 % 0x4000

/-- The register row of address `a`, if a register list names it (R7). -/
def findRow (a : Nat) : Option RegRow := (blockRows (blockOf a)).find? (fun r => r.covers a)

/-- The value register `a` has after reset; an unlisted offset reads zero (R7). The spec gives SYS_SERIAL_LO and
SYS_SERIAL_HI, ETH_LAT and MPU_FUSE only as "Per unit"; this model reads 0 there (DESIGN CHOICE: log entry 170). -/
def regReset (a : Nat) : Word :=
  match findRow a with
  | some r => BitVec.ofNat 32 r.reset
  | none => 0

end Sys2Proof.Machine
end

