-- ==== Sys2Proof/Machine/State.lean ====
section
/-! DEFINITION. The state of the module, as plain data: the commands that wait, the two core pairs,
memory, the peripheral registers, and the state of each block that no register shows. -/

namespace Sys2Proof.Machine

/-! ### Core pairs -/

/-- Why a pair issues nothing although it is not stopped: it has retired CYEND (R318) or waits in WFE
with the mask and destination its instruction named (Table 12.14). -/
inductive Waiting where
  | none
  | cyend
  | wfe (mask : Word) (d : GReg)
deriving DecidableEq, Repr

/-- One core pair: general registers (R306), special registers (Table 12.1), the vector unit
(Table 13.1), the reservation (R316) and whether the pair runs (R302, R324). -/
structure CoreSt where
  w : Vector Word 32
  pc : Word
  status : Word
  ctl : Word
  xpc : Word
  xcode : Word
  xaddr : Word
  xtab : Word
  scratch : Word
  xstat : Word
  fcsr : Word
  cycle : Word
  clk : DWord
  clkh : Word
  evt : Word
  evmask : Word
  lraddr : Word
  resv : Option Nat
  stopped : Bool
  waiting : Waiting
  v : Vector (Vector Word 64) 8
  m : Vector (BitVec 64) 4
  vl : Nat
deriving DecidableEq, Repr

/-- A pair at reset: supervisor level (s.status 1), every other register zero, PC 0x0000_0000 in the
boot ROM (R304, R321, Tables 12.1 and 13.1). -/
def CoreSt.reset : CoreSt where
  w := Vector.replicate 32 0
  pc := 0
  status := 1
  ctl := 0
  xpc := 0
  xcode := 0
  xaddr := 0
  xtab := 0
  scratch := 0
  xstat := 0
  fcsr := 0
  cycle := 0
  clk := 0
  clkh := 0
  evt := 0
  evmask := 0
  lraddr := 0
  resv := none
  stopped := false
  waiting := .none
  v := Vector.replicate 8 (Vector.replicate 64 0)
  m := Vector.replicate 4 0
  vl := 0

/-! ### Recorder -/

/-- A post that waits for the Larder: everything of Table 20.1 but the sequence, which a record takes
as it enters the Larder (R490). -/
structure Post where
  origin : Nat
  partner : Bool
  ptpv : Bool
  code : Nat
  cyccnt : Word
  opt : Nat
  ns : Nat
  sec : Nat
  payload : List Byte
deriving DecidableEq, Repr

/-- The recorder's state beside its registers (R492 to R497): posts that wait for the Larder, the
unreported count, the unflushed records of the Larder oldest first (sequence, size), how many of them a
running flush still has to write, the journal block being written (sequence after its last record, record
bytes), the next block sequence, the newest record, and the Cellar's write position. -/
structure RecSt where
  queue : List Post
  unreported : Nat
  recs : List (Nat × Nat)
  flushN : Nat
  flushBlk : Option (Nat × Nat)
  jfull : Bool
  jseq : Nat
  latest : List Byte
  cellarSector : Nat
  cellarBlock : Nat
  retried : Bool
deriving DecidableEq, Repr

/-! ### Time, angle, timetable -/

/-- The local clock (48-bit seconds, nanoseconds, 24-bit fraction), the program time base in
microseconds with its accumulated 8.24 remainder, and the staged seconds step (R30, R32, R35). -/
structure TimSt where
  sec : Nat
  ns : Nat
  frac : Nat
  tb : Nat
  tbFrac : Nat
  adjSec : Word
deriving DecidableEq, Repr

/-- The angle clock: angle word, 16 fraction bits, cycle count, the angle word before the last tick;
the PLL's integrator, staged increment half and clamp flag; the lock run lengths; when each source last
delivered and since when it has been valid; the highest source a fall has left, and whether firmware has
started the selected sources (R39 to R49). -/
structure AngSt where
  angle : Nat
  frac : Nat
  cycle : Nat
  prev : Nat
  integ : Int
  incHi : Option Nat
  clamped : Bool
  goodRun : Nat
  badRun : Nat
  msgTick : Option Nat
  zcTick : Option Nat
  msgSince : Option Nat
  zcSince : Option Nat
  fallen : Option Nat
  started : Bool
deriving DecidableEq, Repr

/-- The timetable's staged words 0 of the active bank, by entry (R55), whether the matches of the
present tick have been issued, and what the entries rewritten in this tick held before (R55). -/
structure TtSt where
  stage : List (Nat × Option Word)
  done : Bool
  held : List (Nat × Option (Word × Word))
deriving DecidableEq, Repr

/-! ### Protection -/

/-- A channel's last sample: its value and the strobe sequence it carried (R149). -/
structure Sample where
  value : Int
  seq : Nat
deriving DecidableEq, Repr

/-- The protection state that LIM registers do not show: staged entry words (R147), last samples
(R149), the channels under class 8 (R154), which source
conditions of classes 10 to 15 are present (R159) and assert Ochre (R156), the sweep watchdog (R155). -/
structure LimSt where
  stage : List (Nat × Option Word)
  last : List (Nat × Option Sample)
  staleOch : List (Nat × Bool)
  staleCrim : List (Nat × Bool)
  cond : List (Nat × Bool)
  ochSrc : List (Nat × Bool)
  swdArmed : Bool
  pubSince9 : Bool
deriving DecidableEq, Repr

/-- What a contactor channel drives (R167): nothing, full duty, or hold duty. -/
inductive Coil where
  | off | full | hold
deriving DecidableEq, Repr

/-- Safe contactor control beside its registers: the two channels' drive, whether the second DROPTO of
R172 runs, whether the diagnostics are suspended (R170), the string current in µA of an opening still being
measured, the drop-out times of zero-current openings with the feedback inputs as FB1 opened, for the ledger (R171), and
whether a record holds Ochre of class 11. -/
structure SccSt where
  k1 : Coil
  k2 : Coil
  secondDrop : Bool
  diagOff : Bool
  openCur : Option Nat
  zeroCur : Bool
  mirror : Option (List Nat)
  record : Bool
  tests : List (Nat × List Nat)
deriving DecidableEq, Repr

/-! ### Pins and field I/O -/

/-- The logic lines as the module sees and drives them (Table 19.2), the level of ZC_IN that counts after its filter (R47),
and the supplies of its interfaces. -/
structure PinSt where
  tripHigh : Bool
  killIn : Bool
  roleLow : Bool
  wakeChg : Bool
  convFltLow : Bool
  convEn : Bool
  killOut : Bool
  driveRole : Bool
  rolePwm : Bool
  outPower : Bool
  zcIn : Bool
deriving DecidableEq, Repr

/-- Field inputs and outputs beside the FIO registers: coupled levels and filter counters of the 20
channels (R476), whether the program has committed since START, whether outputs are held warm (R481). -/
structure FioSt where
  coupled : List (Nat × Bool)
  count : List (Nat × Nat)
  committed : Bool
  warmHold : Bool
deriving DecidableEq, Repr

/-! ### The cyclic program -/

/-- The phase of the running cycle (Table 14.1). -/
inductive CycPhase where
  | idle | copy | execute | commit | wait
deriving DecidableEq, Repr

/-- The values sampled in the freeze instant (R354). -/
structure Frozen where
  tb : Nat
  angle : Nat
  cycle : Nat
  buf : Nat
  latch : List Word
  mailbox : List Word
  missed : Nat
deriving DecidableEq, Repr

/-- An active force: entry index and its four words as the freeze copied them (R372). -/
structure Force where
  idx : Nat
  w0 : Word
  w1 : Word
  w2 : Word
  w3 : Word
deriving DecidableEq, Repr

/-- A system call queued in the cycle: its number and w1 to w3 (R365, R397). -/
structure SysCall where
  num : Nat
  a1 : Word
  a2 : Word
  a3 : Word
deriving DecidableEq, Repr

/-- A symbol of an image's symbol table (R359). -/
structure Symbol where
  ident : Nat
  type : Nat
  cls : Nat
  initchg : Bool
  addr : Nat
  size : Nat
deriving DecidableEq, Repr

/-- A program image as its header and lists give it (R358 to R362). -/
structure Image where
  imageId : Nat
  instep : Nat
  claims : Word
  cfg : Word
  strict : Bool
  wdmult : Nat
  codeLen : Nat
  dataLen : Nat
  zeroLen : Nat
  retLen : Nat
  startAddr : Nat
  changeAddr : Nat
  stoAddr : Nat
  stoLen : Nat
  base : Nat
  symbols : List Symbol
  snaps : List Nat
  ranges : List (Nat × Nat)
  bins : List Nat
  exports : List (Nat × Bool)
deriving DecidableEq, Repr

/-- Cycle control beside the CYC registers: phase, frozen values, active forces, staged force words, queued calls, the
export words last written and whether this is the first commit or the first after a switch, the kind of start, START
refused until a warm reset (R302), live reads of the cycle, the image in force, an online change that is armed
and the cycle after which it switches (R375, R377), the IMAGEID whose retained data stands, and the tick at which
execution began. -/
structure CycSt where
  phase : CycPhase
  frozen : Frozen
  forces : List Force
  stage : List (Nat × Option Word)
  calls : List SysCall
  lastOut : List Word
  firstCommit : Bool
  afterSwitch : Bool
  firstCycle : Bool
  startKind : Nat
  lockout : Bool
  lrPrev : Bool
  lrRecorded : Bool
  missedNow : Nat
  image : Option Image
  armed : Option Image
  switchAfter : Option Nat
  retainedId : Option Nat
  execTick : Nat
deriving DecidableEq, Repr

/-! ### Interfaces -/

/-- The interfaces on which the module sends; the plant profile goes out on CAN FD, listed by its identifier, and on UDP,
listed by its port (R271). -/
inductive Iface where
  | ringA | ringB | twin | eth | can (x : Nat) | smbus | nypeha | plantUdp
deriving DecidableEq, Repr

/-- Something the module has sent: where, its type or command code, and its content. -/
structure Sent where
  iface : Iface
  kind : Nat
  data : List Nat
deriving DecidableEq, Repr

/-! ### Power and the non-volatile controller -/

/-- Who put a request to the non-volatile controller: system firmware through NVC_RGO, the recorder
flush, the always-on save, the exhaustion mark (R545), and system firmware with the copy of the channel map
(R109) and with a Storeroom copy (R205). -/
inductive NvcSrc where
  | firmware | flush | save | mark | copy | store
deriving DecidableEq, Repr

/-- A request of the non-volatile controller (R544, R545); `pos` is how many units are written and `data`
the bytes of a hardware source. -/
structure NvcReq where
  kind : Nat
  src : Nat
  dst : Nat
  len : Nat
  tag : Nat
  who : NvcSrc
  pos : Nat
  data : List Byte
deriving DecidableEq, Repr

/-- The controller's queue, the request in progress and whether it ends after its present unit, hardware
units that run ahead of the queue, the completion FIFO, and the closing causes (R545, R546). -/
structure NvcSt where
  queue : List NvcReq
  cur : Option NvcReq
  cut : Bool
  urgent : List NvcReq
  fifo : List (Nat × Nat)
  closedTherm : Bool
  closedBank : Bool
deriving DecidableEq, Repr

/-- Power state beside the registers: the state Hold-up was entered from, the exhaustion and thermal-cut marks, a
reset that waits with its cause (R530, R537), the reset that RST_N holds, whether the entries that wait for the recorder
have been made (R492), whether system firmware is in full service, the ticks of the present millisecond, the cycle
count and operating time last saved to MRAM (R531), whether flush mode has stopped a running program (R524), and what
the boot ROM found that it posts once the recorder runs: entry codes with a word each (R492). -/
structure PwrSt where
  holdFrom : Nat
  exhMark : Bool
  cutMark : Bool
  resetWait : Option Nat
  rstHeld : Bool
  recUp : Bool
  full : Bool
  optSub : Nat
  savedCyc : Nat
  savedOpt : Nat
  progHeld : Bool
  fuse : Bool
  boot : List (Nat × Word)
deriving DecidableEq, Repr

/-- Health beside its registers: the values that the in-service tests have given since the last daily record, by
quantity of Table 22.7 and newest last, the die-temperature histogram in 5 °C bins, the operating time in ms of the last
daily record, and the tests whose missed interval has been reported (R538 to R540). -/
structure HltSt where
  vals : List (Nat × Int)
  hist : List (Nat × Nat)
  dayAt : Nat
  missed : List (Nat × Bool)
deriving DecidableEq, Repr

/-! ### Dispatch -/

/-- A step of the local profile (R276). -/
structure ProfStep where
  type : Nat
  ends : Nat
  target : Nat
  repeats : Nat
  current : Int
  vset : Int
  tlim : Nat
  iterm : Nat
deriving DecidableEq, Repr

/-- Dispatch beside its registers: staged mailbox words (R266), the full time T of each slot (R266), whether the
request in force is a power request, the plant protocol's last accepted SEQ, and the SEQ and result of the last
SETPOINT handled, whose slot is known while it stands in the mailbox (R272), the rotation
identifier and the reason of the last return to IDLE (R274), and the local profile: its steps, GCV in µA per µV,
whether it runs, the step, the loop repeats still to run, and the current that a CV step has come to (R276). -/
structure DspSt where
  stage : List (Nat × Option Word)
  tfull : List (Nat × Nat)
  power : Bool
  lastSeq : Option Nat
  hseq : Nat
  hslot : Option Nat
  lastRes : Nat
  rid : Nat
  rotReason : Nat
  steps : List ProfStep
  gcv : Int
  running : Bool
  step : Nat
  loops : List (Nat × Nat)
  cv : Int
deriving DecidableEq, Repr

/-! ### Impedance -/

/-- The sums of one cell of one bin over its open window (R220). -/
structure Acc where
  vre : Int
  vim : Int
  ire : Int
  iim : Int
  s : Int
  n : Nat
  gaps : Nat
deriving DecidableEq, Repr

/-- One bin: the numerator of its phase P over DIVR * 2^32 and its last advance, the total angle of its last
strobe, both as the last published sweep had them until they are accumulated, the multiple of WLEN last
reached, the open window's start in periods, how many strobes the window has seen, whether one of them
advanced the phase by more than a half, whether all advanced it by exactly a half, and the count of windows
(R217, R220, R222). -/
structure BinSt where
  num : Nat
  adv : Nat
  last : Option Nat
  pub : Option (Nat × Nat)
  lastM : Option Nat
  openAt : Option Nat
  strobes : Nat
  alias_ : Bool
  nyq : Bool
  windows : Nat
deriving DecidableEq, Repr

/-- The part of a running injection (R227). -/
inductive InjPart where
  | up | flat | down
deriving DecidableEq, Repr

/-- The running injection: its descriptor, its part, the total angle at its start, and the phase numerator at
the start of its flat part (R226, R227). -/
structure Inj where
  desc : Nat
  part : InjPart
  start : Nat
  flatNum : Nat
deriving DecidableEq, Repr

/-- The impedance block beside its registers: bins, cell sums, the sample counts of the previous windows, the
current, validity and buffer of a published sweep that is still to be accumulated, the running injection, the
cells whose implausible temperature or ageing has been recorded, and the tick after the closing of the window of each
latest valid result, by 16 c + b (R219 to R232). -/
structure ImpSt where
  bins : List (Nat × Option BinSt)
  pub : Option (Int × Bool × Nat)
  acc : List (Nat × Option Acc)
  prevN : List (Nat × Nat)
  inj : Option Inj
  implausible : List (Nat × Bool)
  aged : List (Nat × Bool)
  zAt : List (Nat × Nat)
deriving DecidableEq, Repr

/-! ### Converter control -/

/-- One sigma-delta channel beside its registers: comparator count, healthy sinc3 samples since it became
invalid, samples left to settle, and whether it has given a sinc2 sample since the reset (R242 to R245). -/
structure SdmCh where
  count : Nat
  good : Nat
  settle : Nat
  sampled : Bool
deriving DecidableEq, Repr

/-- One compensator slot beside its descriptor: events counted towards DIV, the tick of the last accepted
trigger, the time base at the last slow-timer event, whether an evaluation waits for a sample or runs, the inputs it
fetched, e[n-3] and u[n-3], the latest r and y, microcode words q0 to q15, a stopped microcode's address and accumulator,
staged words, and trace and injection terms (R246 to R253). -/
structure SlotSt where
  events : Nat
  lastTrig : Option Nat
  tbAt : Nat
  waiting : Bool
  running : Bool
  r : Int
  y : Int
  injTerm : Int
  e : Int
  e3 : Int
  u3 : Int
  q : List (Nat × Nat)
  upc : Option Nat
  a : Int
  stage : List (Nat × Option Word)
deriving DecidableEq, Repr

/-- An evaluation that is due and waits for the datapath: the tick in which it fell due, whether another slot's completion
triggered it, and its slot (R248). -/
structure DueEval where
  tick : Nat
  late : Bool
  slot : Nat
deriving DecidableEq, Repr

/-- The control engine beside its registers: slots, the trigger events that have still to be counted, in the order of R248 (R249),
the evaluations that wait for the datapath, test injection (R258) and trace (R259). -/
structure CeSt where
  slots : List (Nat × Option SlotSt)
  trig : List DueEval
  due : List DueEval
  tPhase : Nat
  tEvals : Nat
  trCount : Nat
  trIdx : Nat
  trLeft : Nat
  trPrev : Option Int
deriving DecidableEq, Repr

/-- One PWM pair beside its registers: the period, duty, dead times and phase in force, whether its
outputs follow the counter, and the value its counter last loaded, which a period start sets to zero; the units of the
period at which its signal rises and falls, the edges from which the dead times count where they lie in an earlier period,
and the tick to which PH delays its start (R254 to R256, R411). -/
structure PairSt where
  per : Nat
  duty : Nat
  dt : Nat
  ph : Nat
  live : Bool
  cnt : Nat
  cntAt : Nat
  rise : Nat
  fall : Nat
  riseAt : Int
  fallAt : Option Int
  wait : Option Nat
deriving DecidableEq, Repr

/-! ### Estimation hardware -/

/-- The two charge accumulators with their 24 fraction bits, in 2^-24 µC (R180). -/
structure AccSt where
  q1 : Int
  q2 : Int
deriving DecidableEq, Repr

/-- One cell of the estimator (R182 to R203): SoC and its uncertainty (1.0 is 2^30), capacity in mC and its
relative uncertainty (1.0 is 2^30), charge since the last rest point with ETACH applied (µC), the SoC, uncertainty,
slope (µV per %) and operating time (s) of the last rest point, the resistance factor (2^-12), learning count and
operating time of the last learning (s), the RC voltage (µV), the flags byte of Table 7.7 (QGAP, FLOORED, CEILED and
so on), the net charge since the last change of direction (µC), V_lc and whether it is measured, the sum and count of
V_lc over the correction interval and whether every sweep of it was usable, whether a rest point is still pending, and
whether the last rest point was a quasi-rest point. -/
structure CellSt where
  z : Int
  sz : Int
  q : Nat
  sq : Int
  chg : Int
  zr : Int
  sr : Int
  slope : Nat
  restAt : Nat
  rfac : Nat
  count : Nat
  learnAt : Nat
  v1 : Int
  flags : Nat
  net : Int
  vlc : Int
  meas : Bool
  sum : Int
  n : Nat
  allOk : Bool
  pend : Bool
  quasi : Bool
deriving DecidableEq, Repr

/-- A grading record (Table 7.8): capacity, R0, temperature, SoC, flags and run. -/
structure Grade where
  q : Nat
  r0 : Nat
  t : Int
  z : Int
  flags : Nat
  run : Nat
deriving DecidableEq, Repr

/-- The estimator of system firmware: cells; the accumulator latch, tick and SWP_COUNT of its last run; the runs of
sweeps of R196 (EOD, its clearing, EOC, its clearing); the two accumulators at the last anchor and its charge at the
EOC anchor of a grading run; the start of the correction interval; since when the current has been
in the rest band, in the quasi-rest band, whether the rest points of this rest have been taken; the voltages with
their usability of the last 60 s (R199); the operating times (s) of the last qualifying rest point, of the last
successful learning, of STARVED, and of a refused rotation; charge (µC) and energy (µJ) throughput; the grading run,
its records and its phase (0 start, 1 its end of charge reached, 2 the first rest taken, 3 its end of discharge reached, 4
complete: R211); the learning log (cell, Q_new, w, time), oldest first; the Storeroom's
operating time of the last write (ms), the reasons that wait,
whether system call 0x010 has written the program section and its image; TRANSPORT with its entry time and the
phase of a transport request; the base limits of the protection parameter block (R164); the day count of R231
with the operating time of its last entry; the SoP values of the last publication, in current and in power, each charge and
discharge, none while the outputs are held at zero (R195); the sum of |I| and the sweeps of the correction interval; whether a rotation
has been asked for and whether the starvation time was set to expired; the latch at which throughput was last counted, and
whether the primary input has been invalid since the last run (R200); the latest valid Re and Im by 16 c + b, the daily
history by 64 c + d mod 64, and the factors of the present day by cell (R231, R233). -/
structure EstSt where
  cells : List (Nat × Option CellSt)
  lastQ : Option Int
  lastTick : Nat
  lastCount : Nat
  eodN : Nat
  eodClr : Nat
  eocN : Nat
  eocClr : Nat
  anc1 : Int
  anc2 : Int
  ancEoc : Int
  ancEod : Int
  corTick : Nat
  restSince : Option Nat
  quasiSince : Option Nat
  restTaken : Bool
  restPoint : Bool
  quasiTaken : Bool
  hist : List (Nat × List (Nat × Int))
  qualAt : Nat
  learnAt : Nat
  starvedAt : Option Nat
  retryAt : Option Nat
  qThru : Nat
  eThru : Nat
  run : Nat
  grades : List (Nat × Option Grade)
  rests : Nat
  log : List (Nat × Nat × Nat × Nat)
  wroteAt : Option Nat
  reasons : List Nat
  section_ : Option (List Byte)
  transport : Bool
  trAt : Nat
  trPhase : Nat
  limBase : List (Nat × Option Word)
  day : Nat
  dayAt : Nat
  pubd : List Word
  corAbs : Nat
  corN : Nat
  asked : Bool
  expired : Bool
  thruQ : Option Int
  gap : Bool
  impZ : List (Nat × Option (Word × Word))
  daily : List (Nat × Option Word)
  dayF : List (Nat × Option (List (Int × Int)))
deriving DecidableEq, Repr

/-! ### Motion -/

/-- Where a homing run stands (R293): not homing, first approach in a direction (and whether it has turned),
braking after the first edge, moving back, second approach; or a stop that has been commanded. -/
inductive HomePhase where
  | none
  | stopping
  | first (positive turned : Bool)
  | brake (positive : Bool) (p1 : Int)
  | back (positive : Bool) (p1 dest : Int)
  | second (positive : Bool) (p1 : Int)
deriving DecidableEq, Repr

/-- One axis beside its registers: speed in 10^-6 full steps per second, the fraction of a unit still to
move in 10^-12, the budget used, the homing run, the direction of a failed homing, and in MODE 1 the sequence
sent, whether its reply has come, the replies missed, whether the last reply was healthy, and the actuator's
home switch; the level of DIR and the tick of its last change, the tick of the last rise of STEP with the pulse's width in
ticks, when the step timer expires in 4 ns ticks with the fraction carried as a remainder over its rate, and the tick in which
a limit of the axis last became active (R286 to R294). -/
structure AxisSt where
  v : Int
  frac : Int
  used : Nat
  home : HomePhase
  failPos : Bool
  seq : Nat
  replied : Bool
  missed : Nat
  actOk : Bool
  homeSw : Bool
  dir : Bool
  dirAt : Option Nat
  stepAt : Option (Nat × Nat)
  stepDue : Option Nat
  stepRem : Nat × Nat
  limAt : Option Nat
deriving DecidableEq, Repr

/-- The motion block beside its registers: axes, outputs whose duty has been written since reset (R284), the axes that
firmware still has to home (R297), and whether a reset holds EN of every axis low (R295). -/
structure MotSt where
  axes : List (Nat × Option AxisSt)
  fanSet : List (Nat × Bool)
  toHome : List Nat
  enLow : Bool
deriving DecidableEq, Repr

/-! ### The ring -/

/-- The ring beside its registers (R67, R88, R95, R99, R105): T_ref in force and the one still to be written,
what each node declared (NCAPS, LOOPT, LATCHOFS), the node count, the last strobe sequence issued or received,
a queued or sent command of each port with its buffer, its length and whether it has left, each node's TURN values of the
last 32 sweeps newest first, 0 for a sweep without one, its runs of sweeps that need too much stretch, that fit, and of failed tail reads, nodes whose WDT
flag has been seen, and the transit intervals of the last 32 sweeps and of the enumeration; the tick in which the last
frame has left its port (R78, R99), the node that firmware measures next and the one of the present idle window (R89),
and whether the nodes are in deep sleep (R79). -/
structure RingSt where
  tref : Nat
  trefNew : Option Nat
  caps : List (Nat × Option (Nat × Nat × Nat))
  count : Option Nat
  seq : Option Nat
  cmdA : Option (Nat × Nat × Bool)
  cmdB : Option (Nat × Nat × Bool)
  turns : List (Nat × Option (List Nat))
  tight : List (Nat × Nat)
  fit : List (Nat × Nat)
  tail : List (Nat × Nat)
  wdt : List (Nat × Bool)
  trans : List Nat
  trans0 : Nat
  busyTill : Nat
  tofNext : Nat
  tofWait : Option Nat
  slept : Bool
deriving DecidableEq, Repr

/-! ### Sweeps -/

/-- A channel between publications: the stored value, its age, the code that a value taken since the last
publication gives it, whether it was Invalid at that publication, and whether it ever received a value. -/
structure Chan where
  value : Int
  age : Nat
  code : Option Nat
  invalid : Bool
  ever : Bool
deriving DecidableEq, Repr

/-- A sweep that is issued and not yet published: sequence, F[0] and F[1], descriptor, the tick of issue with the
clocks of R115 and R568, T_ref, the stretch, whether its collect has left and recovery reads run, and the nodes
whose slot was accepted, and those flagged NRDY. -/
structure Sweep where
  seq : Nat
  temp : Bool
  aux : Bool
  desc : Nat
  issue : Nat
  angle : Nat
  cycle : Nat
  ns : Nat
  sec : Nat
  tb : Nat
  tref : Nat
  stretch : Nat
  launched : Bool
  recovering : Bool
  got : List Nat
  nrdy : List Nat
deriving DecidableEq, Repr

/-- A sub-sweep: its sequence, whether AUX was set, the groups and nodes still to be read, in order (R118), the nodes
whose voltage slot for its strobe was accepted with its sequence (R119), and the tick by which the slots of its frames have
all come (R120). -/
structure SubSweep where
  seq : Nat
  aux : Bool
  reads : List (Nat × Nat)
  ok : List Nat
  till : Nat
deriving DecidableEq, Repr

/-- An open-wire pass or a learning pass: node, parity or cell, phase (0 waits for the command window, 1 begun,
2 its sweep has been issued, 3 its deadline has passed), base values, and the values its sweep captured (R124, R139). -/
structure WirePass where
  node : Nat
  arg : Nat
  phase : Nat
  base : List Int
  cap : List Int
deriving DecidableEq, Repr

/-- The sweep engine beside its registers: V_string in µV, the open sweep, the tick of the last strobe and the
period before it, the channels, the sub-sweep being read, the sequence whose temperatures were last taken, the
sub-sweep not yet closed, the deadline of the last published sweep with its TBUDGET in ticks and the ticks used, the
two passes, the place in angle and cycles of the strobe entry that a BLANK was last sent for (R135), the descriptor of the
last sweep, and in a twin pair in SPLIT the accepted slots that are still to be sent to the partner, with their COLLECT ARG
(R404); the publication count at which a channel was last unmapped
(R112), the balance masks last sent before the last strobe and before the one ahead of it, 0 for a node with BALOFF (R138),
whether BLANKCFG waits for a command window (R137), what firmware makes next in idle windows: open-wire pass
2 k + parity (R125), and the learning passes 16 k + cell that the present round has still to cover, in order (R139). -/
structure SwpSt where
  vstr : Int
  cur : Option Sweep
  lastIssue : Option Nat
  period : Nat
  chans : List (Nat × Option Chan)
  sub : Option SubSweep
  tseq : Option Nat
  unclosed : Option Nat
  budgetAt : Nat
  budget : Nat
  budgetUsed : Nat
  ow : Option WirePass
  lrn : Option WirePass
  blanked : Option Nat
  lastDesc : Nat
  seg : List Byte
  segArg : Nat
  off : List (Nat × Option Word)
  balAt : List (Nat × Nat)
  balPrev : List (Nat × Nat)
  blankDue : Bool
  owNext : Nat
  lrnLeft : List Nat
deriving DecidableEq, Repr

/-! ### The twin -/

/-- A heartbeat as it was received (Table 15.4). -/
structure Heart where
  epoch : Word
  role : Nat
  smode : Nat
  pos : Bool
  elig : Bool
  fail : Bool
  flags : Nat
  count : Nat
  compat : Word
  image : Word
  cyc : Word
  angle : Nat
  inc : Nat
  ns : Nat
  sec : Nat
deriving DecidableEq, Repr

/-- The twin block beside its registers: whether this module has sent FAIL, whether a FAIL frame has come, whether the
twin transmitter is off, the SEQ of the next frame (R388) and the heartbeat count, the tick at which the next heartbeat is expected, the
partner's last heartbeat; whether a takeover is settling; the cycle of a handover and its RESTART; whether the duty treats
the shade as dropped, whether it waits for IMGACK or for HASHACK, and the payload of the last IMAGE; the
forces of the image a shade has received, and its own and the duty's hash of the cycle; whether its outputs are off
after a drop; the MAILBOX frame that waits for its cue; the bytes of the section 0x04 being received, the latch recorded with
the one last applied and the latches of recent strobes (R403); the target mode, the phase of resynchronisation (0
none, 1 sections, 2 data rounds, 3 final round) and the granules written since they were sent (R410); whether a position
conflict and an epoch above the duty's have been recorded; whether a program image has been received. -/
structure TwSt where
  failed : Bool
  failRx : Bool
  txOff : Bool
  seq : Nat
  hbCount : Nat
  expect : Option Nat
  heart : Option Heart
  takeover : Bool
  hand : Option (Nat × Bool)
  dropped : Bool
  imgWait : Bool
  hashWait : Option Nat
  img : List Byte
  forces : List Force
  ownHash : Option Word
  dutyHash : Option (Nat × Word)
  shadeOut : Bool
  mb : Option (Nat × List Word)
  mir : List Byte
  mirLatch : Option Int
  strobes : List (Nat × Option Int)
  target : Nat
  rsPhase : Nat
  rsBytes : Nat
  dirty : List (Nat × Bool)
  conflict : Bool
  higher : Bool
  newImg : Bool
deriving DecidableEq, Repr

/-! ### Ethernet and DMA -/

/-- A master that Announce messages have shown: the data set of clause 9.3 in the order of its comparison
(priority 1, class, accuracy, variance, priority 2, grandmaster identity, steps removed), the tick of the last
Announce, and its interval as a logarithm (R461). -/
structure Master where
  data : List Nat
  cls : Nat
  seen : Nat
  logInt : Int
deriving DecidableEq, Repr

/-- The switch, the transparent clock and the ordinary clock beside the ETH registers: learned addresses with port
and tick (R455), corrections that wait for a Follow_Up (R459), exchanges missed by each port (R460), the masters
by sender identity and the selected one, a two-step Sync that waits for its Follow_Up (sender, sequence, receive
time, correction), the announced Sync interval, the servo's integrator and its run of small offsets
(R462), and the last sequence of an angle message (R465). -/
structure EthSt where
  macs : List (Nat × Option (Nat × Nat))
  fups : List (Nat × Option Nat)
  miss : List (Nat × Nat)
  masters : List (Nat × Option Master)
  gm : Option Nat
  sync : Option (Nat × Nat × Int × Int)
  logSync : Int
  integ : Int
  good : Nat
  angSeq : Option Word
deriving DecidableEq, Repr

/-- A frame that waits for a host receive ring: ring, bytes, ingress stamp and port (R464). -/
structure RxFrame where
  ring : Nat
  data : List Byte
  ns : Nat
  sec : Nat
  port : Nat
deriving DecidableEq, Repr

/-- The DMA block beside its registers: rings that a descriptor without OWN has halted (R470), frames that wait for
the host's receive rings, and the rest of a message for the service receive ring (R471). -/
structure DmaSt where
  halt : List (Nat × Bool)
  rx : List RxFrame
  usb : List Byte
deriving DecidableEq, Repr

/-! ### Service port and update -/

/-- An image being staged (R510): its kind, header fields, 256 header bytes, and the accepted indexes. -/
structure Staging where
  kind : Nat
  count : Nat
  len : Nat
  ident : Word
  compat : Word
  header : List Byte
  accepted : List Nat
deriving DecidableEq, Repr

/-- The service block beside its registers: the debug session (R325), the pending nonce with its wanted level
(R505), the hashes that PROGKEY has programmed (R509), the image being staged, the kinds whose Attic holds a verified
image (R511), the released blocks that firmware takes up at the next program cycle start (R20), and the parameter blocks
accepted while their peripheral block was not managed, which take effect only then (R18). -/
structure SvcSt where
  debug : Bool
  nonce : Option (Nat × List Byte)
  keys : List (Nat × List Byte)
  stage : Option Staging
  staged : List Nat
  resume : List Nat
  held : List (Nat × Option ParamBlock)
deriving DecidableEq, Repr

/-! ### SMBus -/

/-- The SMBus target beside its registers: the request queue of at most 8 codes, whether an alert
response was won since its last change (R447), and the cell that CELLSEL named to firmware (R445). -/
structure SmbSt where
  queue : List Nat
  alertWon : Bool
  sel : Option Nat
deriving DecidableEq, Repr

/-! ### The module -/

/-- Everything the module holds beside the queue of waiting commands.  `managed` holds the register values that the
parameter blocks in force give system firmware to write (R18, R20); `ecc` and `corr` hold the SRAM words with an
uncorrectable and with a single-bit error (R303). -/
structure Dev where
  sys : CoreSt
  prog : CoreSt
  mem : List Host.Cell
  ecc : List Nat
  corr : List Nat
  regs : List (Nat × Word)
  now : Nat
  timers : List (Nat × Nat)
  par : List (Nat × Nat)
  tables : List (Nat × Option (List Byte))
  managed : List (Nat × Option Word)
  freeCount : Nat
  sent : List Sent
  recd : RecSt
  tim : TimSt
  ang : AngSt
  tt : TtSt
  lim : LimSt
  scc : SccSt
  pins : PinSt
  fio : FioSt
  cyc : CycSt
  nvc : NvcSt
  pwr : PwrSt
  hlt : HltSt
  smb : SmbSt
  ring : RingSt
  swp : SwpSt
  svc : SvcSt
  tw : TwSt
  dsp : DspSt
  imp : ImpSt
  sdm : List (Nat × Option SdmCh)
  ce : CeSt
  pwm : List (Nat × Option PairSt)
  acc : AccSt
  est : EstSt
  mot : MotSt
  eth : EthSt
  dma : DmaSt
deriving DecidableEq, Repr

/-- Why the model stops with a fault.  The spec describes every stop of the module as a state of it, so no
meaning answers with a fault: the type has no constructor that any command raises. -/
inductive Fault where
  /-- Raised by no command: kept so that the outcome type has a named reason.  Safe. -/
  | unreachable
deriving DecidableEq, Repr

/-- Why the model refuses a command. -/
inductive Refusal where
  /-- Raised by `exec` for a command whose meaning is not written.  Safe: the model stops. -/
  | notModelled (mnemonic : String)
deriving DecidableEq, Repr

/-- The state of the block: the queue of waiting commands, first in first out, and the module. -/
structure State where
  pending : List Instr
  dev : Dev
deriving DecidableEq, Repr

/-! ### Reset -/

/-- The recorder at reset: nothing recorded. -/
def RecSt.reset : RecSt where
  queue := []
  unreported := 0
  recs := []
  flushN := 0
  flushBlk := none
  jfull := false
  jseq := 0
  latest := []
  cellarSector := 0
  cellarBlock := 0
  retried := false

/-- The clock and the time base at reset: zero (R30, R35). -/
def TimSt.reset : TimSt where
  sec := 0
  ns := 0
  frac := 0
  tb := 0
  tbFrac := 0
  adjSec := 0

/-- The angle clock at reset: zero, no source heard. -/
def AngSt.reset : AngSt where
  angle := 0
  frac := 0
  cycle := 0
  prev := 0
  integ := 0
  incHi := none
  clamped := false
  goodRun := 0
  badRun := 0
  msgTick := none
  zcTick := none
  msgSince := none
  zcSince := none
  fallen := none
  started := false

/-- The timetable at reset. -/
def TtSt.reset : TtSt where
  stage := []
  done := false
  held := []

/-- Protection at reset. -/
def LimSt.reset : LimSt where
  stage := []
  last := []
  staleOch := []
  staleCrim := []
  cond := []
  ochSrc := []
  swdArmed := false
  pubSince9 := false

/-- Contactor control: both channels off at reset. -/
def SccSt.reset : SccSt where
  k1 := .off
  k2 := .off
  secondDrop := false
  diagOff := false
  openCur := none
  zeroCur := false
  mirror := none
  record := false
  tests := []

/-- The lines at reset: TRIP_N high, KILL and ROLE inactive, output power on, ROLE_PWM high as of a module alone. -/
def PinSt.reset : PinSt where
  tripHigh := true
  killIn := false
  roleLow := false
  wakeChg := false
  convFltLow := false
  convEn := false
  killOut := false
  driveRole := false
  rolePwm := true
  outPower := true
  zcIn := false

/-- Field I/O at reset. -/
def FioSt.reset : FioSt where
  coupled := []
  count := []
  committed := false
  warmHold := false

/-- The frozen values at reset. -/
def Frozen.reset : Frozen where
  tb := 0
  angle := 0
  cycle := 0
  buf := 0
  latch := []
  mailbox := []
  missed := 0

/-- Cycle control at reset. -/
def CycSt.reset : CycSt where
  phase := .idle
  frozen := Frozen.reset
  forces := []
  stage := []
  calls := []
  lastOut := []
  firstCommit := false
  afterSwitch := false
  firstCycle := false
  startKind := 0
  lockout := false
  lrPrev := false
  lrRecorded := false
  missedNow := 0
  image := none
  armed := none
  switchAfter := none
  retainedId := none
  execTick := 0

/-- The non-volatile controller at reset. -/
def NvcSt.reset : NvcSt where
  queue := []
  cur := none
  cut := false
  urgent := []
  fifo := []
  closedTherm := false
  closedBank := false

/-- Power state at reset: Grey, nothing pending. -/
def PwrSt.reset : PwrSt where
  holdFrom := 1
  exhMark := false
  cutMark := false
  resetWait := none
  rstHeld := false
  recUp := false
  full := false
  optSub := 0
  savedCyc := 0
  savedOpt := 0
  progHeld := false
  fuse := false
  boot := []

/-- Health at reset: nothing measured. -/
def HltSt.reset : HltSt where
  vals := []
  hist := []
  dayAt := 0
  missed := []

/-- Dispatch at reset. -/
def DspSt.reset : DspSt where
  stage := []
  tfull := []
  power := false
  lastSeq := none
  hseq := 0
  hslot := none
  lastRes := 0
  rid := 0
  rotReason := 0
  steps := []
  gcv := 0
  running := false
  step := 0
  loops := []
  cv := 0

/-- The impedance block at reset. -/
def ImpSt.reset : ImpSt where
  bins := []
  pub := none
  acc := []
  prevN := []
  inj := none
  implausible := []
  aged := []
  zAt := []

/-- The control engine at reset. -/
def CeSt.reset : CeSt where
  slots := []
  trig := []
  due := []
  tPhase := 0
  tEvals := 0
  trCount := 0
  trIdx := 0
  trLeft := 0
  trPrev := none

/-- The charge accumulators (DESIGN CHOICE: log entry 124) at reset. -/
def AccSt.reset : AccSt where
  q1 := 0
  q2 := 0

/-- The estimator at reset. -/
def EstSt.reset : EstSt where
  cells := []
  lastQ := none
  lastTick := 0
  lastCount := 0
  eodN := 0
  eodClr := 0
  eocN := 0
  eocClr := 0
  anc1 := 0
  anc2 := 0
  ancEoc := 0
  ancEod := 0
  corTick := 0
  restSince := none
  quasiSince := none
  restTaken := false
  restPoint := false
  quasiTaken := false
  hist := []
  qualAt := 0
  learnAt := 0
  starvedAt := none
  retryAt := none
  qThru := 0
  eThru := 0
  run := 0
  grades := []
  rests := 0
  log := []
  wroteAt := none
  reasons := []
  section_ := none
  transport := false
  trAt := 0
  trPhase := 0
  limBase := []
  day := 0
  dayAt := 0
  pubd := []
  corAbs := 0
  corN := 0
  asked := false
  expired := false
  thruQ := none
  gap := false
  impZ := []
  daily := []
  dayF := []

/-- The motion block at reset. -/
def MotSt.reset : MotSt where
  axes := []
  fanSet := []
  toHome := []
  enLow := true

/-- The ring at reset. -/
def RingSt.reset : RingSt where
  tref := 0
  trefNew := none
  caps := []
  count := none
  seq := none
  cmdA := none
  cmdB := none
  turns := []
  tight := []
  fit := []
  tail := []
  wdt := []
  trans := []
  trans0 := 0
  busyTill := 0
  tofNext := 0
  tofWait := none
  slept := false

/-- The sweep engine at reset. -/
def SwpSt.reset : SwpSt where
  vstr := 0
  cur := none
  lastIssue := none
  period := 0
  chans := []
  sub := none
  tseq := none
  unclosed := none
  budgetAt := 0
  budget := 0
  budgetUsed := 0
  ow := none
  lrn := none
  blanked := none
  lastDesc := 0
  seg := []
  segArg := 0
  off := []
  balAt := []
  balPrev := []
  blankDue := false
  owNext := 0
  lrnLeft := []

/-- The twin block at reset. -/
def TwSt.reset : TwSt where
  failed := false
  failRx := false
  txOff := false
  seq := 0
  hbCount := 0
  expect := none
  heart := none
  takeover := false
  hand := none
  dropped := false
  imgWait := false
  hashWait := none
  img := []
  forces := []
  ownHash := none
  dutyHash := none
  shadeOut := false
  mb := none
  mir := []
  mirLatch := none
  strobes := []
  target := 0
  rsPhase := 0
  rsBytes := 0
  dirty := []
  conflict := false
  higher := false
  newImg := false

/-- Ethernet at reset. -/
def EthSt.reset : EthSt where
  macs := []
  fups := []
  miss := []
  masters := []
  gm := none
  sync := none
  logSync := 0
  integ := 0
  good := 0
  angSeq := none

/-- DMA at reset. -/
def DmaSt.reset : DmaSt where
  halt := []
  rx := []
  usb := []

/-- The service block at reset. -/
def SvcSt.reset : SvcSt where
  debug := false
  nonce := none
  keys := []
  stage := none
  staged := []
  resume := []
  held := []

/-- The SMBus target at reset. -/
def SmbSt.reset : SmbSt where
  queue := []
  alertWon := false
  sel := none

/-- The module right after the power-on reset: every register at its reset value, no memory written, the mailbox and
publication timers started (R195, R270), cause 1 (R528), and the boot ROM still to run (R533). -/
def Dev.reset : Dev where
  sys := CoreSt.reset
  prog := CoreSt.reset
  mem := []
  ecc := []
  corr := []
  regs := []
  now := 0
  timers := [(13, 1), (16, 1)]
  par := []
  tables := []
  managed := []
  freeCount := 0
  sent := []
  recd := RecSt.reset
  tim := TimSt.reset
  ang := AngSt.reset
  tt := TtSt.reset
  lim := LimSt.reset
  scc := SccSt.reset
  pins := PinSt.reset
  fio := FioSt.reset
  cyc := CycSt.reset
  nvc := NvcSt.reset
  pwr := PwrSt.reset
  hlt := HltSt.reset
  smb := SmbSt.reset
  ring := RingSt.reset
  swp := SwpSt.reset
  svc := SvcSt.reset
  tw := TwSt.reset
  dsp := DspSt.reset
  imp := ImpSt.reset
  sdm := []
  ce := CeSt.reset
  pwm := []
  acc := AccSt.reset
  est := EstSt.reset
  mot := MotSt.reset
  eth := EthSt.reset
  dma := DmaSt.reset

/-- The block right after reset: an empty queue and the module at its reset values. -/
def State.reset : State where
  pending := []
  dev := Dev.reset

end Sys2Proof.Machine
end

