-- ==== Sys2Proof/Machine/Ops.lean ====
section
/-! DEFINITION. The named operations every meaning is built from: registers and their fields, memory,
timers, claims, messages sent, and posts to the event recorder. -/

namespace Sys2Proof.Machine

/-! ### Registers (R6 to R10) -/

/-- The value register `a` holds. -/
def Dev.rd (d : Dev) (a : Nat) : Word := Store.get regReset d.regs a

/-- The module with `v` in register `a`. -/
def Dev.wr (d : Dev) (a : Nat) (v : Word) : Dev := { d with regs := Store.put regReset d.regs a v }

/-- Field [hi:lo] of register `a`. -/
def Dev.fld (d : Dev) (a hi lo : Nat) : Nat := fieldOf (d.rd a) hi lo

/-- The module with `v` in field [hi:lo] of register `a`. -/
def Dev.setFld (d : Dev) (a hi lo v : Nat) : Dev := d.wr a (withField (d.rd a) hi lo v)

/-- Bit `i` of register `a`. -/
def Dev.bit (d : Dev) (a i : Nat) : Bool := bitOf (d.rd a) i

/-- The module with bit `i` of register `a` at `b`. -/
def Dev.setBit (d : Dev) (a i : Nat) (b : Bool) : Dev := d.wr a (withBit (d.rd a) i b)

/-- A status bit sets (R10). -/
def Dev.flag (d : Dev) (a i : Nat) : Dev := d.setBit a i true

/-- A counter in field [hi:lo] of register `a` rises by 1 and saturates. -/
def Dev.satInc (d : Dev) (a hi lo : Nat) : Dev :=
  d.setFld a hi lo (satN (2 ^ (hi - lo + 1) - 1) (d.fld a hi lo + 1))

/-- A whole-word counter rises by 1 and wraps. -/
def Dev.incWrap (d : Dev) (a : Nat) : Dev := d.wr a (d.rd a + 1)

/-- The signed value of register `a`. -/
def Dev.rdI (d : Dev) (a : Nat) : Int := (d.rd a).toInt

/-- What a write of `v` makes of the old value of a register under the access types of its fields (R7, R8,
R9): RW bits take the new value, W1C bits clear where 1 is written, RW-L bits take the new value while the
lock is open, lock bits only set, and every other bit stays. -/
def RegRow.write (r : RegRow) (lockedNow : Bool) (old v : Word) : Word :=
  let rw : Nat := r.rw ||| (if lockedNow then 0 else r.rwl)
  let m : Word := nw rw
  let c : Word := nw r.w1c
  let s : Word := nw r.set1
  (((old &&& ~~~ m) ||| (v &&& m)) &&& ~~~ (v &&& c)) ||| (v &&& s)

/-- Whether the lock bit that governs register `a` is set (R9, R25, R175, R178, R333). -/
def Dev.locked (d : Dev) (a : Nat) : Bool :=
  let b := blockOf a
  if b = 0 then d.bit Reg.SYS_CTL 0
  else if b = 10 then d.bit Reg.LIM_CTL 1
  else if b = 11 then d.bit Reg.SCC_CTL 1
  else if b = 32 then
    (if a < Reg.MPU_SBASE 0 then d.bit Reg.MPU_CTL 0 else d.bit Reg.MPU_CTL 1)
  else false

/-- A write of `v` to register `a` by access type alone; an unlisted offset takes nothing (R7). -/
def Dev.plainWrite (d : Dev) (a : Nat) (v : Word) : Dev :=
  match findRow a with
  | some r => d.wr a (r.write (d.locked a) (d.rd a) v)
  | none => d

/-! ### Memory (R28, Table 1.7) -/

/-- What a byte that nothing has written reads as: 0xFF in the NOR window, which is erased NOR (R310),
and 0x00 elsewhere.  DESIGN CHOICE, unsafe: log entry 3. -/
def memReset (a : Nat) : Byte := if 0x30000000 ≤ a ∧ a < 0x40000000 then 0xFF else 0x00

/-- The byte at address `a`. -/
def Dev.byte (d : Dev) (a : Nat) : Byte := Store.get memReset d.mem a

/-- The module with byte `v` at address `a`. -/
def Dev.setByte (d : Dev) (a : Nat) (v : Byte) : Dev := { d with mem := Store.put memReset d.mem a v }

/-- The `n` bytes from address `a`. -/
def Dev.bytes (d : Dev) (a n : Nat) : List Byte := (List.range n).map (fun i => d.byte (a + i))

/-- The module with the bytes `l` from address `a`. -/
def Dev.setBytes (d : Dev) (a : Nat) : List Byte → Dev
  | [] => d
  | b :: t => Dev.setBytes (d.setByte a b) (a + 1) t

/-- The little-endian word at address `a` (R5). -/
def Dev.word (d : Dev) (a : Nat) : Word := nw (leNat (d.bytes a 4))

/-- The module with word `v` at address `a`. -/
def Dev.setWord (d : Dev) (a : Nat) (v : Word) : Dev := d.setBytes a (leBytes 4 v.toNat)

/-- The module with the words `l` from address `a`. -/
def Dev.setWords (d : Dev) (a : Nat) (l : List Word) : Dev := d.setBytes a (wordsBytes l)

/-- Memory is in its canonical form. -/
def Memory.wf (m : List Host.Cell) : Bool := Store.wf memReset m

/-! ### Numbered state -/

/-- A numbered natural number, 0 where nothing is listed. -/
def getN (l : List (Nat × Nat)) (k : Nat) : Nat := Store.get (fun _ => 0) l k

/-- The list with `v` at number `k`. -/
def putN (l : List (Nat × Nat)) (k v : Nat) : List (Nat × Nat) := Store.put (fun _ => 0) l k v

/-- A numbered flag, false where nothing is listed. -/
def getB (l : List (Nat × Bool)) (k : Nat) : Bool := Store.get (fun _ => false) l k

/-- The list with `v` at number `k`. -/
def putB (l : List (Nat × Bool)) (k : Nat) (v : Bool) : List (Nat × Bool) := Store.put (fun _ => false) l k v

/-- A numbered value that may be absent. -/
def getO {α : Type} (l : List (Nat × Option α)) (k : Nat) : Option α := Store.get (fun _ => none) l k

/-- The list with `v` at number `k`. -/
def putO {α : Type} [DecidableEq α] (l : List (Nat × Option α)) (k : Nat) (v : Option α) :
    List (Nat × Option α) := Store.put (fun _ => none) l k v

/-! ### Timers

A timer holds the tick of its last start plus 1; 0 is a timer that does not run.  Ticks are those of the
125 MHz reference (R30), which REFERENCE_TICK counts. -/

/-- Ticks in `n` microseconds. -/
def usT (n : Nat) : Nat := 125 * n

/-- Ticks in `n` milliseconds. -/
def msT (n : Nat) : Nat := 125000 * n

/-- Ticks in `n` seconds. -/
def secT (n : Nat) : Nat := 125000000 * n

/-- The timer starts, or starts again. -/
def Dev.start (d : Dev) (t : Nat) : Dev := { d with timers := putN d.timers t (d.now + 1) }

/-- The timer stops. -/
def Dev.stop (d : Dev) (t : Nat) : Dev := { d with timers := putN d.timers t 0 }

/-- The timer runs. -/
def Dev.running (d : Dev) (t : Nat) : Bool := getN d.timers t != 0

/-- The timer runs and at least `n` ticks have passed since its last start. -/
def Dev.due (d : Dev) (t n : Nat) : Bool := d.running t && getN d.timers t + n ≤ d.now + 1

/-- Ticks since the timer's last start; 0 for a timer that does not run. -/
def Dev.since (d : Dev) (t : Nat) : Nat := if d.running t then d.now + 1 - getN d.timers t else 0

/-! Timer numbers. -/

/-- Timer: the last flush (R494). -/
abbrev Tm.flush : Nat := 1

/-- Timer: the break delay (R168). -/
abbrev Tm.brk : Nat := 2

/-- Timer: pickup of K1 (R167). -/
abbrev Tm.pick1 : Nat := 3

/-- Timer: pickup of K2. -/
abbrev Tm.pick2 : Nat := 4

/-- Timer: entry to the present SCC state. -/
abbrev Tm.scc : Nat := 5

/-- Timer: switch-off of K1 with FB1 closed (R171). -/
abbrev Tm.drop1 : Nat := 6

/-- Timer: switch-off of K2 with FB3 closed. -/
abbrev Tm.drop2 : Nat := 7

/-- Timer: the last test of a switch of channel 1 or 2 (R170). -/
abbrev Tm.swTest (k2 high : Bool) : Nat := 0x2C0 + 2 * (if k2 then 1 else 0) + (if high then 1 else 0)

/-- Timer: the mirror contacts of K1 or K2 disagree (R170). -/
abbrev Tm.disc (k2 : Bool) : Nat := if k2 then 9 else 8

/-- Timer: channel power returned (R170). -/
abbrev Tm.diag : Nat := 10

/-- Timer: the last publication (R155). -/
abbrev Tm.swd : Nat := 11

/-- Timer: the TIM holdover (R33). -/
abbrev Tm.hold : Nat := 12

/-- Timer: the last commit of a mailbox slot (R270). -/
abbrev Tm.mailbox : Nat := 13

/-- Timer: the last ROTREQ (R275). -/
abbrev Tm.rotReq : Nat := 14

/-- Timer: entry to REQUESTED, then the grant. -/
abbrev Tm.rotWin : Nat := 15

/-- Timer: the last EST_PUB (R195). -/
abbrev Tm.pub : Nat := 16

/-- Timer: the last BAL_CMD write (R140). -/
abbrev Tm.balCmd : Nat := 17

/-- Timer: the last BALANCE (R141). -/
abbrev Tm.balSend : Nat := 18

/-- Timer: the present part of the injection (R227). -/
abbrev Tm.inj : Nat := 19

/-- Timer: the present profile step (R276). -/
abbrev Tm.prof : Nat := 20

/-- Timer: the last heartbeat of a partner in role duty (R393). -/
abbrev Tm.dutyHeard : Nat := 27

/-- Timer: the last frame or STROBE that port A received (R393, R405). -/
abbrev Tm.portHeard : Nat := 28

/-- Timer: the last FAULT set at port A that reports the loss of the side facing the partner (R405). -/
abbrev Tm.faultHeard : Nat := 29

/-- Timer: since when the start-up conditions of R393 hold. -/
abbrev Tm.join : Nat := 30

/-- Timer: the kill settle (R406). -/
abbrev Tm.settle : Nat := 31

/-- Timer: entry to deposed (R395). -/
abbrev Tm.deposed : Nat := 32

/-- Timer: the start of resynchronisation (R410). -/
abbrev Tm.resync : Nat := 33

/-- Timer: the failed resynchronisation after which 10 s pass (R410). -/
abbrev Tm.rsRetry : Nat := 34

/-- Timer: the last heartbeat sent (R390). -/
abbrev Tm.hb : Nat := 35

/-- Timer: the last PING (R386). -/
abbrev Tm.ping : Nat := 36

/-- Timer: the lag allowance of an IMAGE (R399). -/
abbrev Tm.lagImg : Nat := 37

/-- Timer: the lag allowance of a HASH (R399). -/
abbrev Tm.lagHash : Nat := 38

/-- Timer: the drop after which the twin-resync reset comes within 1 s (R400). -/
abbrev Tm.drop : Nat := 39

/-- Timer: the last section 0x04 (R402). -/
abbrev Tm.mir : Nat := 40

/-- Timer: the shade's own program-cycle start that waits for an IMAGE (R400). -/
abbrev Tm.noImg : Nat := 41

/-- Timer: the start of the transport request (R209). -/
abbrev Tm.trans : Nat := 42

/-- Timer: the freeze instant of the running cycle (R355). -/
abbrev Tm.copy : Nat := 44

/-- Timer: the start of the online-change switch (R378). -/
abbrev Tm.switch : Nat := 45

/-- Timer: the bus-off recovery of controller x (R431). -/
abbrev Tm.canRec (x : Nat) : Nat := 46 + x

/-- Timer: the last entry 0xA005 of object n of controller x (R425). -/
abbrev Tm.canLost (x n : Nat) : Nat := 0x400 + 128 * x + n

/-- Timer: the request of transmit object n of controller x (R427). -/
abbrev Tm.canReq (x n : Nat) : Nat := 0x500 + 128 * x + n

/-- Timer: entry to Hold-up (R522). -/
abbrev Tm.ride : Nat := 50

/-- Timer: since when a feed is good in Hold-up (R524). -/
abbrev Tm.retdb : Nat := 51

/-- Timer: the last kick of the system watchdog (R529). -/
abbrev Tm.wdt : Nat := 52

/-- Timer: since when the conditions of Standby (idle) hold (R527). -/
abbrev Tm.idle : Nat := 53

/-- Timer: the last always-on save (R531). -/
abbrev Tm.save : Nat := 54

/-- Timer: the last Nypeha request (R506). -/
abbrev Tm.session : Nat := 55

/-- Timer: full service (R513). -/
abbrev Tm.service : Nat := 56

/-- Timer: the last entry 0xB011 (R519). -/
abbrev Tm.blkCrc : Nat := 57

/-- Timer: the last opening of an idle window, from full service (R538). -/
abbrev Tm.window : Nat := 58

/-- Timer: the first sliced test since an idle window opened (R538). -/
abbrev Tm.sliced : Nat := 59

/-- Timer: the last run of in-service test n (R538). -/
abbrev Tm.test (n : Nat) : Nat := 0x2A0 + n

/-- Timer: the warm hold of the outputs (R481). -/
abbrev Tm.holdWarm : Nat := 43

/-- Timer: the last filter tick of input channel n (R476). -/
abbrev Tm.filt (n : Nat) : Nat := 0x250 + n

/-- Timer: the last test pulse of output k (R480). -/
abbrev Tm.pulse (k : Nat) : Nat := 0x270 + k

/-- Timer: the last entry 0xA012 (R453). -/
abbrev Tm.pec : Nat := 26

/-- Timer: the last STATUS (R271). -/
abbrev Tm.status : Nat := 21

/-- Timer: the last step of the free-run slew (R44). -/
abbrev Tm.slew : Nat := 62

/-- Timer: since when both looping nodes report LINKOK (R92). -/
abbrev Tm.linkOk : Nat := 63

/-- Timer: firmware's READ to DST 62 after HEAL awaits its answer (R92). -/
abbrev Tm.heal : Nat := 64
abbrev Tm.servo : Nat := 65

/-- Timer: the first WAKE of a wake-up (R79). -/
abbrev Tm.wake : Nat := 65

/-- Timer: the beginning of the present round of learning passes (R139). -/
abbrev Tm.lrnDay : Nat := 66

/-! ### Claims (R14 to R21, R26) -/

/-- The claim bit of block `b`. -/
def Dev.claimed (d : Dev) (b : Nat) : Bool :=
  if b < 32 then d.bit Reg.SYS_EXPOWN0 b else d.bit Reg.SYS_EXPOWN1 (b - 32)

/-- The claim-enable bit of block `b`. -/
def Dev.claimEn (d : Dev) (b : Nat) : Bool :=
  if b < 32 then d.bit Reg.SYS_CLAIMEN0 b else d.bit Reg.SYS_CLAIMEN1 (b - 32)

/-- System firmware manages block `b`: no claim holds it, and firmware has resumed it since its last release (R14, R20). -/
def Dev.manages (d : Dev) (b : Nat) : Bool := !d.claimed b && !d.svc.resume.contains b

/-- Operating time in seconds. -/
def Dev.opSec (d : Dev) : Nat := ((d.rd Reg.PWR_OPT_LO).toNat + 2 ^ 32 * d.fld Reg.PWR_OPT_HI 15 0) / 1000

/-! ### CRC-32C (R71) -/

/-- `n` shifts of the reflected CRC-32C register. -/
def crcBits : Nat → Nat → Nat
  | 0, c => c
  | n + 1, c => crcBits n (if c % 2 = 1 then (c / 2) ^^^ 0x82F63B78 else c / 2)

/-- The CRC register after the bytes `l`. -/
def crcGo : Nat → List Byte → Nat
  | c, [] => c
  | c, b :: t => crcGo (crcBits 8 (c ^^^ b.toNat)) t

/-- CRC-32C: polynomial 0x1EDC6F41 reflected, initial value and final XOR 0xFFFF_FFFF. -/
def crc32c (l : List Byte) : Word := nw ((crcGo 0xFFFFFFFF l) ^^^ 0xFFFFFFFF)

/-! ### Messages sent -/

/-- The numbers of a list of bytes. -/
def byteNats (l : List Byte) : List Nat := l.map (fun b => b.toNat)

/-- A frame of the twin link between SOF and EOF: TYPE, FLAGS, SEQ, LEN, the payload, and the CRC-32C over them (R388). -/
def twinFrame (type flags seq : Nat) (data : List Nat) : List Nat :=
  let b := [type, flags] ++ byteNats (leBytes 2 seq ++ leBytes 4 data.length) ++ data
  b ++ byteNats (leBytes 4 (crc32c (b.map (BitVec.ofNat 8))).toNat)

/-- The module sends a message on an interface.  A kind below 0x100 on the twin link is a frame of that TYPE, with FLAGS 1
where it carries 0x80, and SEQ counts it (R388). -/
def Dev.send (d : Dev) (i : Iface) (kind : Nat) (data : List Nat) : Dev :=
  let frame := i = .twin && kind < 0x100
  let data := if frame then twinFrame (kind % 128) (kind / 128) d.tw.seq data else data
  let d := if frame then { d with tw := { d.tw with seq := (d.tw.seq + 1) % 65536 } } else d
  { d with sent := d.sent ++ [{ iface := i, kind := kind, data := data }] }

/-! ### Roles (R392, Tables 15.5 and 15.10) -/

/-- TW_STAT.ROLE: 0 alone, 1 duty, 2 shade, 3 deposed. -/
def Dev.role (d : Dev) : Nat := d.fld Reg.TW_STAT 1 0

/-- TW_STAT.SMODE: 0 JOINING, 1 INSTEP, 2 MIRROR, 3 STANDBY. -/
def Dev.smode (d : Dev) : Nat := d.fld Reg.TW_STAT 3 2

/-- The module is alone or duty. -/
def Dev.leads (d : Dev) : Bool := d.role < 2

/-- The module is a shade in INSTEP. -/
def Dev.inStep (d : Dev) : Bool := d.role = 2 && d.smode = 1

/-- The partner's last heartbeat shows a shade in INSTEP, MIRROR or STANDBY (R402). -/
def Dev.hasShade (d : Dev) : Bool :=
  d.role = 1 && d.bit Reg.TW_STAT 6 && d.fld Reg.TW_PSTAT 1 0 = 2 && d.fld Reg.TW_PSTAT 3 2 != 0

/-- A duty sends a MIRROR frame of a section to its shade: section code, offset, data (R402, Table 15.3). -/
def Dev.mirror (d : Dev) (sec off : Nat) (data : List Byte) : Dev :=
  if d.hasShade then d.send .twin 0x06 (byteNats (leBytes 4 sec ++ leBytes 4 off ++ data)) else d

/-- The symbols of a CUE set after K28.6: KIND with its check in [7:4], A0, A1 (R387). -/
def cueSymbols (kind arg : Nat) : List Nat :=
  let n (i : Nat) : Nat := arg / 16 ^ i % 16
  [kind % 16 + 16 * (kind % 16 ^^^ n 0 ^^^ n 1 ^^^ n 2 ^^^ n 3), arg % 256, arg / 256 % 256]

/-- The duty of a pair marks a joint action with a CUE of a kind and two argument bytes (R387); it is listed
as message type 0x100 + kind. -/
def Dev.cue (d : Dev) (kind arg : Nat) : Dev :=
  if d.hasShade then d.send .twin (0x100 + kind) (cueSymbols kind arg) else d

/-- A frame or a STROBE has reached a port; port A's are watched (R393, R405). -/
def Dev.portFrame (d : Dev) (x : Bool) : Dev :=
  if x then d
  else if d.running Tm.join then (d.start Tm.portHeard).start Tm.join
  else d.start Tm.portHeard

/-! ### The event recorder (R488 to R492) -/

/-- The request queue changes: SMB_REQQ shows its depth and head, and ALERT_N may be driven again (R447). -/
def Dev.smbQueue (d : Dev) (l : List Nat) : Dev :=
  ({ d with smb := { d.smb with queue := l, alertWon := false } }).wr Reg.SMB_REQQ (nw (l.length * 65536 + nth l 0 % 65536))

/-- A code joins the SMBus request queue, or is dropped when 8 codes wait (R447). -/
def Dev.smbPush (d : Dev) (code : Nat) : Dev :=
  if d.smb.queue.length < 8 then d.smbQueue (d.smb.queue ++ [code]) else d.flag Reg.SMB_STAT 4

/-- The stamped post of Table 20.1 as it reaches REC (R489). -/
def Dev.stamp (d : Dev) (origin : Nat) (code : Nat) (payload : List Byte) : Post where
  origin := origin
  partner := false
  ptpv := d.bit Reg.TIM_STAT 0
  code := code
  cyccnt := d.rd Reg.PWR_CYCCNT
  opt := (d.rd Reg.PWR_OPT_LO).toNat + 2 ^ 32 * d.fld Reg.PWR_OPT_HI 15 0
  ns := d.tim.ns
  sec := d.tim.sec
  payload := payload

/-- Reserved subsystem nibbles of event codes (R491). -/
def reservedCode (code : Nat) : Bool :=
  let n := code / 4096 % 16
  n = 0 || 13 ≤ n

/-- The bytes of a record with sequence `seq` (Table 20.1). -/
def Post.record (p : Post) (seq : Nat) : List Byte :=
  let len := p.payload.length
  let w0 := p.origin * 2 ^ 26 + b2n p.partner * 2 ^ 25 + b2n p.ptpv * 2 ^ 24 + len * 2 ^ 16 + p.code
  leBytes 4 w0 ++ leBytes 4 p.cyccnt.toNat ++ leBytes 4 p.opt ++ leBytes 4 (p.opt / 2 ^ 32)
    ++ leBytes 4 seq
    ++ (if p.ptpv then leBytes 4 p.ns ++ leBytes 4 p.sec ++ leBytes 4 (p.sec / 2 ^ 32 % 65536) else [])
    ++ p.payload ++ List.replicate ((4 - len % 4) % 4) 0

/-- A post enters the queue, or is discarded and counted while EN is 0 or the queue is full (R492); the
queue-full case sets REC_STAT.QFULL (DEDUCED: log entry 9). -/
def Dev.enqueue (d : Dev) (p : Post) : Dev :=
  if d.bit Reg.REC_CTL 0 = false then d.satInc Reg.REC_DROP 31 0
  else if 256 ≤ d.recd.queue.length then (d.satInc Reg.REC_DROP 31 0).flag Reg.REC_STAT 0
  else
    let d := { d with recd := { d.recd with queue := d.recd.queue ++ [p] } }
    let d := if d.bit Reg.SMB_REQMASK (p.code / 4096 % 16) then d.smbPush p.code else d
    d.mirror 0x06 0 (p.record 0)

/-- A post with a reserved code or a payload above 240 bytes is refused (R488, R491). -/
def Dev.postBytes (d : Dev) (origin code : Nat) (payload : List Byte) : Dev :=
  if 240 < payload.length || reservedCode code then d.flag Reg.REC_STAT 3
  else d.enqueue (d.stamp origin code payload)

/-- A post whose payload holds the listed words, each little-endian (DESIGN CHOICE: log entry 8). -/
def Dev.post (d : Dev) (origin code : Nat) (ws : List Word) : Dev :=
  d.postBytes origin code (wordsBytes ws)

/-- A hardware post (ORIGIN 0). -/
def Dev.hw (d : Dev) (code : Nat) (ws : List Word) : Dev := d.post 0 code ws

/-- A post of system firmware (ORIGIN 1). -/
def Dev.fw (d : Dev) (code : Nat) (ws : List Word) : Dev := d.post 1 code ws

/-! ### System-pair register writes (R16, R27) -/

/-- A system-pair write to a claimed block is discarded and counted; the first after each claim makes
recorder entry 0x8030. -/
def Dev.discard (d : Dev) (a : Nat) : Dev :=
  let first := !d.running (0x7000 + blockOf a)
  let d := d.satInc Reg.SYS_EXPDROP 31 0
  let d := d.wr Reg.SYS_EXPDBLK (nw (blockOf a * 65536 + a % 65536))
  let d := d.start (0x7000 + blockOf a)
  if first then d.hw 0x8030 [nw (blockOf a), nw (a % 65536)] else d

/-- A register that system firmware manages takes `v`, unless its block is claimed (R16, R18) or not resumed yet (R20). -/
def Dev.sysWr (d : Dev) (a : Nat) (v : Word) : Dev :=
  if d.claimed (blockOf a) then d.discard a else if d.manages (blockOf a) then d.wr a v else d

/-- System firmware writes field [hi:lo] of a register it manages. -/
def Dev.sysSetFld (d : Dev) (a hi lo v : Nat) : Dev := d.sysWr a (withField (d.rd a) hi lo v)

/-- The claim bit of block `b` sets; the next discarded write is again a first one (R15, R27), and a resumption that was
still to come is off (R20). -/
def Dev.setClaim (d : Dev) (b : Nat) : Dev :=
  if d.claimed b then d
  else
    let d := if b < 32 then d.setBit Reg.SYS_EXPOWN0 b true else d.setBit Reg.SYS_EXPOWN1 (b - 32) true
    let d := if b = 13 then { d with est := { d.est with reasons := d.est.reasons ++ [7] } } else d
    let d := { d with svc := { d.svc with resume := dropAll b d.svc.resume } }
    d.stop (0x7000 + b)

/-! ### Free values -/

/-- A fresh free value: the opaque value of the present count, and the module with the count advanced. -/
def Dev.nextFree (d : Dev) : Nat × Dev := (d.freeCount, { d with freeCount := d.freeCount + 1 })

/-! ### Commands -/

/-- PWR_STAT.STATE (Table 22.1). -/
def Dev.pwrState (d : Dev) : Nat := d.fld Reg.PWR_STAT 15 13

/-- Nothing but the always-on domain works: Off, Standby, or a reset that RST_N holds (R526 to R528). -/
def Dev.asleep (d : Dev) : Bool :=
  d.pwrState = 0 || d.pwrState = 5 || d.pwrState = 6 || (d.pwr.rstHeld && d.pwr.resetWait.isNone)

/-- Flush mode sheds load (R522). -/
def Dev.shedding (d : Dev) : Bool := d.bit Reg.PWR_STAT 6

/-- The plant transmitters, the twin link and ROLE are held off: deposed, or in recovery (R395, R516). -/
def Dev.txHeld (d : Dev) : Bool := d.role = 3 || d.bit Reg.SVC_STAT 3

/-- The effect of a command on the always-on domain, as a next state; the queue stays as it is. -/
def State.always (s : State) (f : Dev → Dev) : Host.Outcome State Fault Refusal :=
  .next { s with dev := f s.dev }

/-- The effect of a command on the module, as a next state; a module without power or held in reset takes none. -/
def State.lift (s : State) (f : Dev → Dev) : Host.Outcome State Fault Refusal :=
  s.always (fun d => if d.asleep then d else f d)

end Sys2Proof.Machine
end

