-- ==== Sys2Proof/Machine/Params.lean ====
section
/-! DEFINITION. The fields of the parameter blocks that system firmware reads, by number, with their defaults
(R188, R228, R271, R142). -/

namespace Sys2Proof.Machine

/-- 07, Table 7.2: nominal cell capacity, mC. -/
abbrev Par.QNOM : Nat := 0x700

/-- 07, Table 7.2: charge efficiency, 1/65,536. -/
abbrev Par.ETACH : Nat := 0x701

/-- 07, Table 7.2: current gain error, ppm. -/
abbrev Par.IGERR : Nat := 0x702

/-- 07, Table 7.2: current offset error, µA. -/
abbrev Par.IOERR : Nat := 0x703

/-- 07, Table 7.2: branch hysteresis, 0.1 % of Q. -/
abbrev Par.HYSQ : Nat := 0x704

/-- 07, Table 7.2: end-of-discharge threshold, µV. -/
abbrev Par.VEOD : Nat := 0x705

/-- 07, Table 7.2: end-of-charge threshold, µV. -/
abbrev Par.VEOC : Nat := 0x706

/-- 07, Table 7.2: margin of end of discharge, µV. -/
abbrev Par.MEOD : Nat := 0x707

/-- 07, Table 7.2: margin of end of charge, µV. -/
abbrev Par.MEOC : Nat := 0x708

/-- 07, Table 7.2: debounce, sweeps. -/
abbrev Par.NEOD : Nat := 0x709

/-- 07, Table 7.2: rest current, 0.001 C. -/
abbrev Par.IREST : Nat := 0x70A

/-- 07, Table 7.2: relaxation, s. -/
abbrev Par.TRELAX : Nat := 0x70B

/-- 07, Table 7.2: voltage drift at rest, µV/s. -/
abbrev Par.DVREST : Nat := 0x70C

/-- 07, Table 7.2: least OCV slope, µV per %. -/
abbrev Par.SLOPEMIN : Nat := 0x70D

/-- 07, Table 7.2: voltage uncertainty at rest, µV. -/
abbrev Par.VSIGR : Nat := 0x70E

/-- 07, Table 7.2: voltage uncertainty under load, µV. -/
abbrev Par.VSIGL : Nat := 0x70F

/-- 07, Table 7.2: largest current of corrections, 0.01 C. -/
abbrev Par.ICORMAX : Nat := 0x710

/-- 07, Table 7.2: interval of corrections, s. -/
abbrev Par.CORINT : Nat := 0x711

/-- 07, Table 7.2: least SoC span, 0.01. -/
abbrev Par.DZMIN : Nat := 0x712

/-- 07, Table 7.2: largest learned step, %. -/
abbrev Par.QBAND : Nat := 0x713

/-- 07, Table 7.2: rest starvation, h. -/
abbrev Par.TSTARVE : Nat := 0x714

/-- 07, Table 7.2: retry of a refused rotation, h. -/
abbrev Par.TRETRY : Nat := 0x715

/-- 07, Table 7.2: SoP horizon, s. -/
abbrev Par.TP : Nat := 0x716

/-- 07, Table 7.2: SoP scale while floored, 1/256. -/
abbrev Par.FLOORDER : Nat := 0x717

/-- 07, Table 7.2: margin of a cell without a usable value, µV. -/
abbrev Par.QMARG : Nat := 0x718

/-- 07, Table 7.2: uncertainty after a cold reset, 0.001. -/
abbrev Par.SIGCOLD : Nat := 0x719

/-- 07, Table 7.2: uncertainty after release, 0.001. -/
abbrev Par.SIGREL : Nat := 0x71A

/-- 07, Table 7.2: uncertainty at an anchor, 0.001. -/
abbrev Par.SIGEOD : Nat := 0x71B

/-- 07, Table 7.2: Storeroom write interval, s. -/
abbrev Par.STOINT : Nat := 0x71C

/-- 07, Table 7.2: self-discharge, ppm per day. -/
abbrev Par.SDRATE : Nat := 0x71D

/-- 07, Table 7.2: quasi-rest points enabled. -/
abbrev Par.QREST : Nat := 0x71E

/-- 07, Table 7.2: quasi-rest current, 0.001 C. -/
abbrev Par.IQREST : Nat := 0x71F

/-- 07, Table 7.2: quasi-rest time, s. -/
abbrev Par.TQREST : Nat := 0x720

/-- 07, Table 7.2: least span with a quasi-rest point, 0.01. -/
abbrev Par.DZQMIN : Nat := 0x721

/-- 08, R229: high-frequency bin of the model fit. -/
abbrev Par.RBIN0 : Nat := 0x800

/-- 08, R229: low-frequency bin of the model fit. -/
abbrev Par.RBIN1 : Nat := 0x801

/-- 08, R230: bin of the temperature inference. -/
abbrev Par.TBIN : Nat := 0x802

/-- 08, R229: age limit of results for the fit, s. -/
abbrev Par.RAGE : Nat := 0x803

/-- 08, R230: age limit of the TBIN result, s. -/
abbrev Par.ITAGE : Nat := 0x804

/-- 08, R230: largest distance of the inferred from the surface temperature, 1/128 °C. -/
abbrev Par.ITDEV : Nat := 0x805

/-- 08, R231: ageing warning, 2^-12. -/
abbrev Par.AGEWARN : Nat := 0x806

/-- 08, R232: Ochre threshold of the inferred temperature, 1/128 °C. -/
abbrev Par.ITOCH : Nat := 0x807

/-- 08, R230: points per column of the inference table. -/
abbrev Par.NPT : Nat := 0x808

/-- 14, R353: offset of the program-cycle starts from the wrap, as an angle. -/
abbrev Par.STARTOFS : Nat := 0xE00

/-- 10, R271: identifier base of the basic profile. -/
abbrev Par.CANBASE : Nat := 0xA00

/-- 10, R271: UDP port of the basic profile. -/
abbrev Par.UDPPORT : Nat := 0xA01

/-- 10, R271: STATUS interval, ms. -/
abbrev Par.STPER : Nat := 0xA02

/-- 10, R271: string address. -/
abbrev Par.STRADR : Nat := 0xA03

/-- 05, R142: balancing band, 0.01 %. -/
abbrev Par.BAND : Nat := 0x500

/-- 18, R460: PTP domain. -/
abbrev Par.DOMAIN : Nat := 0x1200

/-- 18, R462: step threshold of the servo, ns. -/
abbrev Par.STEPTH : Nat := 0x1201

/-- 18, R456: IPv4 address of the host. -/
abbrev Par.IPADDR : Nat := 0x1202

/-- 18, R456: IPv4 netmask. -/
abbrev Par.NETMASK : Nat := 0x1203

/-- 18, R456: IPv4 gateway. -/
abbrev Par.GATEWAY : Nat := 0x1204

/-- 18, R459: logarithm of the peer-delay interval, s. -/
abbrev Par.LOGPDI : Nat := 0x1205

/-- 18, R462: proportional gain of the servo, signed. -/
abbrev Par.KP : Nat := 0x1206

/-- 18, R462: integral gain of the servo, signed. -/
abbrev Par.KI : Nat := 0x1207

/-- 18, R462: validity threshold of the servo, ns. -/
abbrev Par.VALTH : Nat := 0x1208

/-- 02, R40: source identity of angle messages, high word. -/
abbrev Par.GRIDPRI : Nat := 0x200

/-- 02, R40: source identity of angle messages, low word. -/
abbrev Par.GRIDPRILO : Nat := 0x201

/-- 07, Table 7.2: column `t` of the model table, row `k`: R0REF and R1REF in µΩ, τREF in 0.1 s, ICHMAX and IDISMAX in
0.01 C. -/
abbrev Par.MODEL (k t : Nat) : Nat := 0x740 + 8 * k + t

/-- 08, R230: point `p` of column `c` of the inference table. -/
abbrev Par.INFER (c p : Nat) : Nat := 0x880 + 16 * c + p

/-- 07, R186: the OCV table pair of cell `c`. -/
abbrev Par.PAIR (c : Nat) : Nat := 0x2000 + c

/-- 07, R185: the mask of the temperature positions of its node that are associated with cell `c`. -/
abbrev Par.ASSOC (c : Nat) : Nat := 0x3000 + c

/-- The default of a field; a field without a stated default is zero (DESIGN CHOICE: log entry 79). -/
def parDefault (n : Nat) : Nat :=
  if n = Par.ETACH then 65503 else
  if n = Par.IGERR then 2000 else
  if n = Par.IOERR then 50000 else
  if n = Par.HYSQ then 20 else
  if n = Par.MEOD then 100000 else
  if n = Par.MEOC then 100000 else
  if n = Par.NEOD then 4 else
  if n = Par.IREST then 5 else
  if n = Par.TRELAX then 1800 else
  if n = Par.DVREST then 10 else
  if n = Par.SLOPEMIN then 3000 else
  if n = Par.VSIGR then 2000 else
  if n = Par.VSIGL then 10000 else
  if n = Par.ICORMAX then 50 else
  if n = Par.CORINT then 60 else
  if n = Par.DZMIN then 50 else
  if n = Par.QBAND then 20 else
  if n = Par.TSTARVE then 72 else
  if n = Par.TRETRY then 6 else
  if n = Par.TP then 10 else
  if n = Par.FLOORDER then 64 else
  if n = Par.QMARG then 30000 else
  if n = Par.SIGCOLD then 30 else
  if n = Par.SIGREL then 50 else
  if n = Par.SIGEOD then 10 else
  if n = Par.STOINT then 600 else
  if n = Par.SDRATE then 1000 else
  if n = Par.IQREST then 50 else
  if n = Par.TQREST then 600 else
  if n = Par.DZQMIN then 60 else
  if n = Par.RBIN1 then 1 else
  if n = Par.TBIN then 2 else
  if n = Par.CANBASE then 24 else
  if n = Par.UDPPORT then 47210 else
  if n = Par.STPER then 100 else
  if n = Par.STRADR then 1 else
  if n = Par.BAND then 100 else
  if n = Par.STEPTH then 100000 else
  if n = Par.VALTH then 1000 else
  0

/-- The parameter field `n` in force. -/
def Dev.pv (d : Dev) (n : Nat) : Nat := Store.get parDefault d.par n

/-- The module with `v` in parameter field `n`. -/
def Dev.setPv (d : Dev) (n v : Nat) : Dev := { d with par := Store.put parDefault d.par n v }

/-- OCV table `k` of the estimation block, empty when none was written. -/
def Dev.table (d : Dev) (k : Nat) : List Byte := (getO d.tables k).getD []

end Sys2Proof.Machine
end

