-- ==== Sys2Proof/Machine/CanTx.lean ====
section
/-! DEFINITION. What firmware and the motion engine need of the CAN controllers: which objects belong to motion, what gates
transmission, and posting a frame to an object (R289, R427, R432, R434, R435).  Controller 0 is CAN A, 1 is CAN B. -/

namespace Sys2Proof.Machine

/-- The axis state of Table 11.1. -/
def Dev.axState (d : Dev) (a : Nat) : Nat := d.fld (Reg.MOT_ST a) 31 29

/-- Axis `a` runs in MODE 1. -/
def Dev.axMode1 (d : Dev) (a : Nat) : Bool := d.bit (Reg.MOT_CFG a) 30 && d.axState a != 0

/-- An axis runs in MODE 1, so that objects 120 to 127 of CAN B belong to motion (R435). -/
def Dev.motRes (d : Dev) : Bool := (List.range 4).any (fun a => d.axMode1 a)

/-- The object belongs to the motion engine (R435). -/
def Dev.canMotion (d : Dev) (x n : Nat) : Bool := x = 1 && decide (120 ≤ n) && d.motRes

/-- A controller may not transmit: TXEN is 0, the module does not lead, or bus monitoring is requested (R432). -/
def Dev.canGated (d : Dev) (x : Nat) : Bool :=
  !(d.bit (Reg.CAN_CTL x) 1 && d.leads) || d.bit (Reg.CAN_CTL x) 3

/-- The controller takes part in bus traffic: out of configuration, integrated, and not in bus-off. -/
def Dev.canLive (d : Dev) (x : Nat) : Bool :=
  !d.bit (Reg.CAN_CTL x) 0 && d.bit (Reg.CAN_STAT x) 4 && !d.bit (Reg.CAN_STAT x) 7 && !d.shedding

/-- The object has a request pending. -/
def Dev.canPend (d : Dev) (x n : Nat) : Bool := d.bit (Reg.CAN_TXPEND x (n / 32)) (n % 32)

/-- A request is made: TXPEND sets and ATT clears (R427, R429). -/
def Dev.canArm (d : Dev) (x n : Nat) : Dev :=
  ((d.flag (Reg.CAN_TXPEND x (n / 32)) (n % 32)).setFld (Reg.CAN_OBJ x n 3) 19 16 0).start (Tm.canReq x n)

/-- A request is withdrawn. -/
def Dev.canDisarm (d : Dev) (x n : Nat) : Dev := d.setBit (Reg.CAN_TXPEND x (n / 32)) (n % 32) false

/-- An object is set up: word 0, identifier and mask. -/
def Dev.canSetUp (d : Dev) (x n : Nat) (w0 id mask : Word) : Dev :=
  ((d.wr (Reg.CAN_OBJ x n 0) w0).wr (Reg.CAN_OBJ x n 1) (id &&& 0x1FFFFFFF)).wr (Reg.CAN_OBJ x n 2) mask

/-- Firmware or the motion engine posts a frame to a transmit object and requests it; a gated controller discards the
request (R432), and a pending object keeps its frame (R428). -/
def Dev.canPost (d : Dev) (x n : Nat) (w0 id : Word) (data : List Byte) : Dev :=
  if d.canPend x n || d.canGated x then d
  else
    let l := fitBytes 64 data
    let d := d.canSetUp x n w0 id 0
    let d := (List.range 16).foldl (fun (d : Dev) k => d.wr (Reg.CAN_OBJ x n (16 + k)) (leWord l (4 * k))) d
    d.canArm x n

/-- The received frame of an object has been taken: NEWDAT, OVR and LOST clear (R426). -/
def Dev.canTaken (d : Dev) (x n : Nat) : Dev :=
  (d.setFld (Reg.CAN_OBJ x n 3) 31 29 0).setBit (Reg.CAN_RXNEW x (n / 32)) (n % 32) false

/-- The length code of a CAN FD frame that holds `n` bytes (R423). -/
def canDlc (n : Nat) : Nat :=
  if n ≤ 8 then n else if n ≤ 12 then 9 else if n ≤ 16 then 10 else if n ≤ 20 then 11 else if n ≤ 24 then 12
  else if n ≤ 32 then 13 else if n ≤ 48 then 14 else 15

/-! ### The basic profile on CAN A (R271, R434) -/

/-- Firmware uses CAN A for the basic profile: it is not claimed. -/
def Dev.canProfile (d : Dev) : Bool := d.manages 23

/-- Object 0 receives every message toward the module; objects 1 to 15 transmit (worked example of the chapter). -/
def Dev.canProfileSet (d : Dev) : Dev :=
  d.canSetUp 0 0 0xA1000000 (nw (d.pv Par.CANBASE * 2 ^ 24 + d.pv Par.STRADR * 2 ^ 8)) 0x1F00FFFF

/-- The object that a message takes: 1 for STATUS, else the first of 2 to 15 that is free; none when all are pending. -/
def Dev.canProfileObj (d : Dev) (type : Nat) : Option Nat :=
  if type = 0x11 then some 1 else ((List.range 14).map (· + 2)).find? (fun n => !d.canPend 0 n)

/-- A profile message goes to CAN A as an extended CAN FD frame with bit-rate switch and three retries. -/
def Dev.canProfileSend (d : Dev) (type : Nat) (l : List Byte) : Dev :=
  match if d.canProfile then d.canProfileObj type else none with
  | none => d
  | some n =>
    d.canPost 0 n (nw (0xF8300000 + canDlc l.length))
      (nw (d.pv Par.CANBASE * 2 ^ 24 + type * 2 ^ 16 + d.pv Par.STRADR * 2 ^ 8 + 1)) l

/-! ### The objects of the motion engine (R289, R435) -/

/-- The objects of the motion engine are set up: 120 + 2a transmits the frame of axis `a`, 121 + 2a takes its reply; those
of an axis that does not run in MODE 1 are disabled. -/
def Dev.motObjects (d : Dev) : Dev :=
  (List.range 4).foldl (fun (d : Dev) a =>
    let id := d.fld Reg.MOT_CANID 28 0 + 2 * a
    let d := d.canDisarm 1 (120 + 2 * a)
    let d := (d.canDisarm 1 (121 + 2 * a)).canTaken 1 (121 + 2 * a)
    if d.axMode1 a then
      (d.canSetUp 1 (120 + 2 * a) 0xE0300008 (nw id) 0).canSetUp 1 (121 + 2 * a) 0xA3000000 (nw (id + 1)) 0x1FFFFFFF
    else (d.canSetUp 1 (120 + 2 * a) 0 0 0).canSetUp 1 (121 + 2 * a) 0 0 0) d

end Sys2Proof.Machine
end

