-- ==== Sys2Proof/Machine/Nvc.lean ====
section
/-! DEFINITION. The non-volatile controller: requests, atomic units, closing and erases (R544 to R551). -/

namespace Sys2Proof.Machine

/-! ### Regions -/

/-- The regions of Table 1.7: first and last address. -/
def memRegions : List (Nat × Nat) :=
  [(0x00000000, 0x0000FFFF), (0x10000000, 0x105FFFFF), (0x10600000, 0x10BFFFFF),
   (0x10C00000, 0x10DFFFFF), (0x10E00000, 0x10EFFFFF), (0x10F00000, 0x10FFFFFF),
   (0x20000000, 0x201FFFFF), (0x20200000, 0x205FFFFF), (0x20600000, 0x206FFFFF),
   (0x20700000, 0x2070FFFF), (0x20710000, 0x207FFFFF), (0x30000000, 0x30FFFFFF),
   (0x31000000, 0x31FFFFFF), (0x32000000, 0x33FFFFFF), (0x34000000, 0x35FFFFFF),
   (0x36000000, 0x3DFFFFFF), (0x3E000000, 0x3FFFFFFF)]

/-- `n` bytes from `a` lie in one region of Table 1.7. -/
def inRegion (a n : Nat) : Bool := memRegions.any (fun r => r.1 ≤ a && a + n ≤ r.2 + 1)

/-- The address lies in SRAM. -/
def isSram (a : Nat) : Bool := 0x10000000 ≤ a && a < 0x11000000

/-- The address lies in the MRAM window. -/
def isMram (a : Nat) : Bool := 0x20000000 ≤ a && a < 0x20800000

/-- The address lies in the NOR window. -/
def isNor (a : Nat) : Bool := 0x30000000 ≤ a && a < 0x40000000

/-- The wear counter of an MRAM address: Storeroom, journal, ledger, limit shadow, spare (R549). -/
def mramRegion (a : Nat) : Nat :=
  if a < 0x20200000 then 0 else if a < 0x20600000 then 1 else if a < 0x20700000 then 2
  else if a < 0x20710000 then 3 else 4

/-! ### Status and completion (R545) -/

/-- NVC_STAT and NVC_QDEPTH follow the controller. -/
def Dev.nvcShow (d : Dev) : Dev :=
  let d := d.setBit Reg.NVC_STAT 0 (!d.nvc.fifo.isEmpty)
  let d := d.setBit Reg.NVC_STAT 1 (d.nvc.cur.isSome || !d.nvc.urgent.isEmpty)
  let d := d.setBit Reg.NVC_STAT 2 (d.nvc.closedTherm || d.nvc.closedBank)
  d.setFld Reg.NVC_QDEPTH 4 0 d.nvc.queue.length

/-- A request of system firmware. -/
def NvcReq.ofFw (r : NvcReq) : Bool :=
  decide (r.who = NvcSrc.firmware) || decide (r.who = NvcSrc.copy) || decide (r.who = NvcSrc.store)

/-- A request of system firmware completes with a status; any but OK makes entry 0xC080 (R545, R551), and a
Storeroom write refused at Crimson thermal makes 0x3004 (R207).  The copy of the channel map and a Storeroom copy take no
place in the completion FIFO (DESIGN CHOICE: log entry 185). -/
def Dev.nvcDone (d : Dev) (r : NvcReq) (status : Nat) : Dev :=
  if r.who = .firmware then
    let f := if 16 ≤ d.nvc.fifo.length then d.nvc.fifo.drop 1 else d.nvc.fifo
    let d := { d with nvc := { d.nvc with fifo := f ++ [(r.tag, status)] } }
    let d := if status = 3 then d.flag Reg.NVC_STAT 3 else d
    if status = 0 then d else d.hw 0xC080 [nw r.tag, nw r.kind, nw status]
  else if r.who = .store && status = 1 && d.nvc.closedTherm then d.fw 0x3004 []
  else if r.ofFw && status != 0 then d.hw 0xC080 [nw r.tag, nw r.kind, nw status]
  else d

/-- The units of a request in the order they run, as offset and length (R544).  A journal block writes its
record area, then its header, and its CRC last (R495), and so does a Storeroom copy (R205). -/
def nvcUnitsGo (size : Nat) : Nat → Nat → Nat → List (Nat × Nat)
  | 0, _, _ => []
  | fuel + 1, a, fin =>
    if fin ≤ a then []
    else
      let e := min fin ((a / size + 1) * size)
      (a, e - a) :: nvcUnitsGo size fuel e fin

/-- The units of a request: destination address and length of each. -/
def NvcReq.units (r : NvcReq) : List (Nat × Nat) :=
  match r.who with
  | .flush =>
    nvcUnitsGo 64 65 (r.dst + 16) (r.dst + 4092) ++ [(r.dst, 16), (r.dst + 4092, 4)]
  | .store =>
    nvcUnitsGo 64 (r.len / 64 + 2) (r.dst + 256) (r.dst + r.len) ++ nvcUnitsGo 64 5 r.dst (r.dst + 252) ++ [(r.dst + 252, 4)]
  | .save => [(0, 0)]
  | .mark => [(0, 0)]
  | .copy => nvcUnitsGo 64 (r.len / 64 + 2) r.dst (r.dst + r.len)
  | .firmware =>
    if r.kind = 1 then nvcUnitsGo 64 (r.len / 64 + 2) r.dst (r.dst + r.len)
    else if r.kind = 2 then nvcUnitsGo 256 (r.len / 256 + 2) r.dst (r.dst + r.len)
    else []

/-- The bytes of one unit: from SRAM for system firmware, else the hardware source's own. -/
def Dev.unitBytes (d : Dev) (r : NvcReq) (u : Nat × Nat) : List Byte :=
  if r.who = .firmware then d.bytes (r.src + (u.1 - r.dst)) u.2 else slice r.data (u.1 - r.dst) u.2

/-- One MRAM burst is counted (R549). -/
def Dev.mramBurst (d : Dev) (a : Nat) : Dev := d.satInc (Reg.NVC_MWEAR (mramRegion a)) 31 0

/-- The sector of a NOR address, 0 to 1,023. -/
def norSector (a : Nat) : Nat := a / 262144 % 1024

/-- A NOR program into the sector is refused: its erase was abandoned (R547). -/
def Dev.norBad (d : Dev) (a : Nat) : Bool :=
  d.bit Reg.NVC_ERABT 31 && d.fld Reg.NVC_ERABT 9 0 = norSector a

/-- A NOR byte takes the bits that are 1 in both (PRESUMED: log entry 12); MRAM takes the byte. -/
def Dev.nvByte (d : Dev) (a : Nat) (b : Byte) : Dev :=
  if isNor a then d.setByte a (d.byte a &&& b) else d.setByte a b

/-- The bytes of a unit are written. -/
def Dev.nvBytes (d : Dev) (a : Nat) : List Byte → Dev
  | [] => d
  | b :: t => Dev.nvBytes (d.nvByte a b) (a + 1) t

/-- Direct write of system firmware to MRAM, burst by burst in ascending order, counted (R549). -/
def Dev.mramWrite (d : Dev) (a : Nat) (l : List Byte) : Dev :=
  if d.nvc.closedTherm || d.nvc.closedBank then d
  else
    let d := d.nvBytes a l
    (nvcUnitsGo 64 (l.length / 64 + 2) a (a + l.length)).foldl (fun d u => d.mramBurst u.1) d

/-- The sector holds indeterminate data, NVC_ERABT names it, and entry 0xC083 is made (R547). -/
def Dev.eraseAbandon (d : Dev) (a : Nat) : Dev :=
  let s := norSector a
  let (k, d) := d.nextFree
  let base := 0x30000000 + 262144 * s
  let d := d.setBytes base ((List.range 262144).map (fun i => Config.freeByte k (base + i)))
  let d := d.wr Reg.NVC_ERABT (nw (0x80000000 + s))
  let d := d.flag Reg.NVC_STAT 4
  d.hw 0xC083 [nw s]

/-- The next request of the queue starts when none is in progress; a NOR program into an abandoned sector
completes with NOTERASED, and a length of zero with OK (R544, R547). -/
def Dev.nvcNext (d : Dev) : Nat → Dev
  | 0 => d
  | fuel + 1 =>
    match d.nvc.cur, d.nvc.queue with
    | none, r :: t =>
      let d := { d with nvc := { d.nvc with queue := t } }
      if r.kind = 2 && d.norBad r.dst then Dev.nvcNext (d.nvcDone r 5) fuel
      else { d with nvc := { d.nvc with cur := some r, cut := false } }
    | _, _ => d

/-- The controller shows its state after starting what can start. -/
def Dev.nvcKick (d : Dev) : Dev := (d.nvcNext 17).nvcShow

/-- The allowed range of a firmware request (Table 22.14, RANGE). -/
def nvcRangeOk (kind src dst len : Nat) : Bool :=
  if kind = 1 then isMram dst && inRegion dst len && isSram src && inRegion src len
  else if kind = 2 then isNor dst && inRegion dst len && isSram src && inRegion src len
  else if kind = 3 then isNor dst && dst % 262144 = 0 && len = 262144
  else false

/-- NVC_RGO pushes a request of system firmware (R545): refused CLOSED, FULL or RANGE, or complete at once
for a length of zero. -/
def Dev.nvcPush (d : Dev) (kind tag : Nat) : Dev :=
  let r : NvcReq := { kind := kind, src := (d.rd Reg.NVC_RSRC).toNat, dst := (d.rd Reg.NVC_RDST).toNat, len := d.fld Reg.NVC_RLEN 23 0, tag := tag, who := .firmware, pos := 0, data := [] }
  let d :=
    if d.bit Reg.NVC_CTL 0 = false || d.nvc.closedTherm || d.nvc.closedBank then d.nvcDone r 1
    else if 16 ≤ d.nvc.queue.length then d.nvcDone r 3
    else if kind != 0 && r.len = 0 then d.nvcDone r 0
    else if nvcRangeOk kind r.src r.dst r.len = false then d.nvcDone r 2
    else { d with nvc := { d.nvc with queue := d.nvc.queue ++ [r] } }
  d.nvcKick

/-- A hardware request joins the queue (R545). -/
def Dev.nvcHwPush (d : Dev) (r : NvcReq) : Dev :=
  ({ d with nvc := { d.nvc with queue := d.nvc.queue ++ [r] } }).nvcKick

/-- The controller takes requests. -/
def Dev.nvcOpen (d : Dev) : Bool := d.bit Reg.NVC_CTL 0 && !d.nvc.closedTherm && !d.nvc.closedBank

/-- System firmware puts `l` to `a` as one request to MRAM, the copy of the channel map or a Storeroom copy: refused CLOSED
or FULL, or queued (R109, R205, R545). -/
def Dev.nvcCopy (d : Dev) (who : NvcSrc) (a : Nat) (l : List Byte) : Dev :=
  let r : NvcReq := { kind := 1, src := 0, dst := a, len := l.length, tag := 0, who := who, pos := 0, data := l }
  if d.nvcOpen = false then d.nvcDone r 1
  else if 16 ≤ d.nvc.queue.length then d.nvcDone r 3
  else d.nvcHwPush r

/-- A Storeroom copy waits in the queue or is being written. -/
def Dev.stoBusy (d : Dev) : Bool :=
  d.nvc.queue.any (fun r => decide (r.who = .store)) || (match d.nvc.cur with | some r => decide (r.who = .store) | none => false)

/-- A hardware unit with its data that runs ahead of every queued request (R545). -/
def Dev.nvcUrgent (d : Dev) (who : NvcSrc) (data : List Byte) : Dev :=
  let r : NvcReq := { kind := 1, src := 0, dst := 0, len := 0, tag := 0, who := who, pos := 0, data := data }
  ({ d with nvc := { d.nvc with urgent := d.nvc.urgent ++ [r] } }).nvcShow

/-- The firmware requests of the queue complete with CLOSED. -/
def Dev.nvcFlushQueue (d : Dev) (all : Bool) : Dev :=
  let gone := d.nvc.queue.filter (fun r => all || r.ofFw)
  let kept := d.nvc.queue.filter (fun r => !(all || r.ofFw))
  gone.foldl (fun d r => d.nvcDone r 1) { d with nvc := { d.nvc with queue := kept } }

/-- NVC closes (R546): for Crimson thermal the firmware requests end, for the bank every request.  An erase
in progress is abandoned (R547) and completes with CUT (DESIGN CHOICE: log entry 13). -/
def Dev.nvcClose (d : Dev) (bank : Bool) : Dev :=
  let was := d.nvc.closedTherm || d.nvc.closedBank
  let d := if bank then { d with nvc := { d.nvc with closedBank := true } } else { d with nvc := { d.nvc with closedTherm := true } }
  let d := d.nvcFlushQueue bank
  let d :=
    match d.nvc.cur with
    | some r =>
      if r.kind = 3 then
        ({ d with nvc := { d.nvc with cur := none } }.eraseAbandon r.dst).nvcDone r 6
      else if bank || r.ofFw then { d with nvc := { d.nvc with cut := true } }
      else d
    | none => d
  let d := if was then d else d.hw 0xC081 [if bank then 1 else 0]
  d.nvcKick

/-- NVC reopens when the source condition of class 14 has ended, unless the bank case holds (R546). -/
def Dev.nvcReopen (d : Dev) : Dev :=
  if d.nvc.closedTherm then
    let d := { d with nvc := { d.nvc with closedTherm := false } }
    let d := if d.nvc.closedBank then d else d.hw 0xC082 []
    d.nvcKick
  else d

end Sys2Proof.Machine
end

