-- ==== Sys2Proof/Machine/Recorder.lean ====
section
/-! DEFINITION. The event recorder: records, the Larder, flushes to the journal, the Cellar, and the
atomic units of the non-volatile controller that carry them (R488 to R502, R544 to R549). -/

namespace Sys2Proof.Machine

/-! ### Records (R488) -/

/-- The base of the Larder and its size. -/
def larderBase : Nat := 0x10E00000
def larderSize : Nat := 0x100000

/-- The size of the unflushed records. -/
def sizes (l : List (Nat × Nat)) : Nat := (l.map (fun r => r.2)).foldl (· + ·) 0

/-- The bytes of the Larder from ring offset `o`. -/
def Dev.larder (d : Dev) (o n : Nat) : List Byte :=
  (List.range n).map (fun i => d.byte (larderBase + (o + i) % larderSize))

/-- The bytes `l` into the Larder from ring offset `o`. -/
def Dev.larderPut (d : Dev) (o : Nat) : List Byte → Dev
  | [] => d
  | b :: t => Dev.larderPut (d.setByte (larderBase + o % larderSize) b) (o + 1) t

/-- The oldest unflushed record leaves the Larder's unflushed part. -/
def Dev.recDropOldest (d : Dev) : Dev :=
  match d.recd.recs with
  | [] => d
  | (_, n) :: t =>
    let d := { d with recd := { d.recd with recs := t, flushN := d.recd.flushN - 1 } }
    d.wr Reg.REC_LFLUSH (nw (((d.rd Reg.REC_LFLUSH).toNat + n) % larderSize))

/-- Oldest unflushed records are overwritten until `n` bytes fit, and counted (R493). -/
def Dev.recMakeRoom (d : Dev) (n : Nat) : Nat → Dev
  | 0 => d
  | fuel + 1 =>
    if sizes d.recd.recs + n ≤ larderSize then d
    else
      let d := d.recDropOldest
      let d := d.satInc Reg.REC_LOST 31 0
      Dev.recMakeRoom { d with recd := { d.recd with unreported := d.recd.unreported + 1 } } n fuel

/-! ### Flushing (R494 to R496) -/

/-- Journal block `i` in MRAM. -/
def journalBlock (i : Nat) : Nat := 0x20200000 + 4096 * (i % 1024)

/-- The 4 KiB at `a` are a block that passes its check: magic, and CRC-32C with MIGRATED read as 0 (R495). -/
def Dev.blockGood (d : Dev) (a : Nat) : Bool :=
  if d.word a = 0x5245434A then
    let b := d.bytes a 4096
    let used := (leWord b 12).toNat % 2 ^ 31
    leWord b 4092 = crc32c (slice b 0 12 ++ leBytes 4 used ++ slice b 16 4076)
  else false

/-- Journal block `i` passes its check. -/
def Dev.blockOk (d : Dev) (i : Nat) : Bool := d.blockGood (journalBlock i)

/-- Journal block `i` is free: MIGRATED, or it fails its check (R496). -/
def Dev.blockFree (d : Dev) (i : Nat) : Bool :=
  !d.blockOk i || bitOf (d.word (journalBlock i + 12)) 31

/-- How many of the records fit in one block's record area: their number and bytes. -/
def packBlock : List (Nat × Nat) → Nat → Nat → Nat × Nat
  | [], n, used => (n, used)
  | (_, sz) :: t, n, used => if used + sz ≤ 4076 then packBlock t (n + 1) (used + sz) else (n, used)

/-- The block that holds the bytes `l` of records, with its header and CRC (R495). -/
def blockBytes (seq first : Nat) (l : List Byte) : List Byte :=
  let body := leBytes 4 0x5245434A ++ leBytes 4 seq ++ leBytes 4 first ++ leBytes 4 l.length ++ fitBytes 4076 l
  body ++ leBytes 4 (crc32c body).toNat

/-- A running flush submits its next block when none is being written, records are left, and the next block
is free (R496). -/
def Dev.flushNext (d : Dev) : Dev :=
  if d.bit Reg.REC_STAT 1 = false || d.recd.flushBlk.isSome || d.recd.flushN = 0 then d
  else
    let i := d.fld Reg.REC_JHEAD 9 0
    if d.blockFree i = false then { d with recd := { d.recd with jfull := true } }
    else
      let (n, used) := packBlock (d.recd.recs.take d.recd.flushN) 0 0
      let first := ((d.recd.recs.head?).map (fun r => r.1)).getD 0
      let data := blockBytes d.recd.jseq first (d.larder (d.rd Reg.REC_LFLUSH).toNat used)
      let d := { d with recd := { d.recd with flushBlk := some ((first + n) % 2 ^ 32, used) } }
      d.nvcHwPush { kind := 1, src := 0, dst := journalBlock i, len := 4096, tag := 0, who := .flush, pos := 0, data := data }

/-- Entry 0xC201 with the unreported count goes ahead of every other post, and the count clears (R493). -/
def Dev.reportLost (d : Dev) : Dev :=
  if d.bit Reg.REC_CTL 0 && d.recd.unreported != 0 then
    let p := d.stamp 0 0xC201 (leBytes 4 d.recd.unreported)
    { d with recd := { d.recd with queue := p :: d.recd.queue, unreported := 0 } }
  else d

/-- A flush trigger: a flush starts, or the running one extends to the newest record (R494). -/
def Dev.flushReq (d : Dev) : Dev :=
  let d :=
    if d.bit Reg.REC_STAT 1 then d
    else (d.setBit Reg.REC_STAT 1 true).reportLost
  let d := { d with recd := { d.recd with flushN := d.recd.recs.length, jfull := false } }
  (d.start Tm.flush).flushNext

/-- The records before sequence `e` are flushed. -/
def Dev.dropFlushed (d : Dev) (e : Nat) : Nat → Dev
  | 0 => d
  | fuel + 1 =>
    match d.recd.recs with
    | (s, _) :: _ =>
      let k := (e + 2 ^ 32 - s) % 2 ^ 32
      if k != 0 && k < 2 ^ 31 then Dev.dropFlushed d.recDropOldest e fuel else d
    | [] => d

/-- A journal block has been written: its records are flushed and the head moves on (R495). -/
def Dev.flushBlockDone (d : Dev) : Dev :=
  match d.recd.flushBlk with
  | none => d
  | some (e, _) =>
    let d := { d with recd := { d.recd with flushBlk := none, jseq := (d.recd.jseq + 1) % 2 ^ 32 } }
    let d := d.dropFlushed e d.recd.recs.length
    let d := d.setFld Reg.REC_JHEAD 9 0 (d.fld Reg.REC_JHEAD 9 0 + 1)
    d.flushNext

/-- A flush ends when all its records are written or the next block is not free; then JFULL and entry
0xC202, which waits for EN (R493, R496), and JFULL clears at one that completes (R502). -/
def Dev.flushEnd (d : Dev) : Dev :=
  if d.bit Reg.REC_STAT 1 = false || d.recd.flushBlk.isSome then d
  else if d.recd.jfull then
    let d := (d.setBit Reg.REC_STAT 1 false).flag Reg.REC_STAT 2
    let d := { d with recd := { d.recd with flushN := 0 } }
    if d.bit Reg.REC_CTL 0 then d.hw 0xC202 [] else d
  else if d.recd.flushN = 0 then (d.setBit Reg.REC_STAT 1 false).setBit Reg.REC_STAT 2 false
  else d

/-! ### The Larder (R490, R492, R493) -/

/-- The oldest queued post enters the Larder with the next sequence; more than REC_FLTH KiB unflushed
starts a flush. -/
def Dev.toLarder (d : Dev) : Dev :=
  match d.recd.queue with
  | [] => d
  | p :: t =>
    let d := { d with recd := { d.recd with queue := t } }
    let seq := (d.rd Reg.REC_SEQ).toNat
    let l := p.record seq
    let d := d.recMakeRoom l.length (d.recd.recs.length + 1)
    let o := (d.rd Reg.REC_LHEAD).toNat
    let d := d.larderPut o l
    let d := d.wr Reg.REC_LHEAD (nw ((o + l.length) % larderSize))
    let d := { d with recd := { d.recd with recs := d.recd.recs ++ [(seq, l.length)], latest := l } }
    let d := d.incWrap Reg.REC_SEQ
    let th := d.fld Reg.REC_FLTH 10 0
    if th != 0 && 1024 * th < sizes d.recd.recs then d.flushReq else d

/-! ### Atomic units (R544, R546, R549) -/

/-- A request completes: firmware's with a status, the flush's by moving the journal on. -/
def Dev.nvcFinish (d : Dev) (r : NvcReq) (status : Nat) : Dev :=
  let d := { d with nvc := { d.nvc with cur := none, cut := false } }
  let d := d.nvcDone r status
  match r.who with
  | .flush => if status = 0 then d.flushBlockDone else { d with recd := { d.recd with flushBlk := none, jfull := true } }
  | _ => d

/-- The exhaustion mark, or the cycle count and the operating time, are in MRAM (R523, R531); the unit counts as one
of the spare region (log entry 127). -/
def Dev.urgentDone (d : Dev) (r : NvcReq) : Dev :=
  let d := d.mramBurst 0x20710000
  match r.who with
  | .mark => { d with pwr := { d.pwr with exhMark := true } }
  | .save => { d with pwr := { d.pwr with savedCyc := leNat (r.data.take 4), savedOpt := leNat (r.data.drop 4) } }
  | _ => d

/-- One atomic unit completes, `verified` when it reads back equal to its source: a hardware unit that runs
ahead first, else the next unit of the request in progress (R544, R545). -/
def Dev.nvcUnit (d : Dev) (verified : Bool) : Dev :=
  match d.nvc.cur, d.nvc.urgent with
  | some r, _ =>
    if r.kind = 3 then d
    else
      match r.units[r.pos]? with
      | none => (d.nvcFinish r 0).nvcKick
      | some u =>
        let src := d.unitBytes r u
        let d := d.nvBytes u.1 src
        let d := if isMram u.1 then d.mramBurst u.1 else d
        let ok := verified && decide (d.bytes u.1 u.2 = src)
        let r := { r with pos := r.pos + 1 }
        let cut := d.nvc.cut
        let last := decide (r.units.length ≤ r.pos)
        let d := { d with nvc := { d.nvc with cur := some r } }
        let d :=
          match d.nvc.urgent with
          | q :: t => ({ d with nvc := { d.nvc with urgent := t } }).urgentDone q
          | [] => d
        if ok = false then (d.nvcFinish r 4).nvcKick
        else if last then (d.nvcFinish r 0).nvcKick
        else if cut then (d.nvcFinish r 6).nvcKick
        else d.nvcShow
  | none, q :: t => (({ d with nvc := { d.nvc with urgent := t } }).urgentDone q).nvcKick
  | none, [] => d

/-- Sector `s` reads erased, its count rises, and an abandoned mark of it ends (R547, R549). -/
def Dev.norErased (d : Dev) (s : Nat) : Dev :=
  let base := 0x30000000 + 262144 * s
  let d := { d with mem := d.mem.filter (fun c => !(decide (base ≤ c.1) && decide (c.1 < base + 262144))) }
  let a := 0x20713000 + 4 * s
  let d := (d.setWord a (nw (satN 0xFFFFFFFF ((d.word a).toNat + 1)))).mramBurst a
  if d.norBad base then d.wr Reg.NVC_ERABT 0 else d

/-- A NOR erase completes, and the request completes with OK (R547, R549). -/
def Dev.eraseDone (d : Dev) : Dev :=
  match d.nvc.cur with
  | none => d
  | some r => if r.kind = 3 then ((d.norErased (norSector r.dst)).nvcFinish r 0).nvcKick else d

end Sys2Proof.Machine
end

