-- ==== Sys2Proof/Machine/TtEntry.lean ====
section
/-! DEFINITION. The timetable's entries and which of them fire, the writes of its entries, and the timetable that firmware
builds (R51 to R55, R58, R234, R564). -/

namespace Sys2Proof.Machine

/-! ### Entries (R51 to R53, R564) -/

/-- Words 0 and 1 of an entry of the active bank, as a match of this tick sees them (R55). -/
def Dev.ttEntry (d : Dev) (i : Nat) : Word × Word :=
  match getO d.tt.held i with
  | some e => e
  | none =>
    let b := b2n (d.bit Reg.TT_STAT 7)
    (d.rd (Reg.TT_ENT b i 0), d.rd (Reg.TT_ENT b i 1))

/-- An action code and argument that word 1 may hold: a refused one never fires. -/
def ttActOk (code arg : Nat) : Bool :=
  if code = 0 || code = 6 then true
  else if code = 1 || code = 2 || code = 5 then decide (arg < 8)
  else if code = 4 then decide (arg < 4)
  else if code = 0x0B then arg / 16 % 8 = 0
  else decide (code < 0x0B) && arg = 0

/-- Action code and argument of word 1. -/
def ttCode (w1 : Word) : Nat := fieldOf w1 31 24
def ttArg (w1 : Word) : Nat := fieldOf w1 23 16

/-- The cycle test of word 1 at a cycle count; DIV 0 disables the entry. -/
def ttDue (w1 : Word) (cycle : Nat) : Bool :=
  let v := fieldOf w1 15 8
  v != 0 && cycle % v = fieldOf w1 7 0 && ttActOk (ttCode w1) (ttArg w1)

/-- The last tick took the angle word from below `a` to `a` or above, modulo 2^32. -/
def Dev.angCrossed (d : Dev) (a : Nat) : Bool :=
  decide ((a + 2 ^ 32 - d.ang.prev % 2 ^ 32 + 2 ^ 32 - 1) % 2 ^ 32 < (d.ang.angle + 2 ^ 32 - d.ang.prev) % 2 ^ 32)

/-- The entries that fire in this tick: index, code, argument, in ascending index. -/
def Dev.ttFiring (d : Dev) : List (Nat × Nat × Nat) :=
  (List.range 256).filterMap (fun i =>
    let e := d.ttEntry i
    if d.angCrossed e.1.toNat && ttDue e.2 d.ang.cycle then some (i, ttCode e.2, ttArg e.2) else none)

/-- The words of entry `i` after the next wrap of the angle word: those of the other bank when a swap is pending (R55). -/
def Dev.ttLater (d : Dev) (i : Nat) : Word × Word :=
  let b := 1 - b2n (d.bit Reg.TT_STAT 7)
  if d.bit Reg.TT_STAT 6 then (d.rd (Reg.TT_ENT b i 0), d.rd (Reg.TT_ENT b i 1)) else d.ttEntry i

/-- The angle from now to the next firing of an entry with an action code of `p`, within one grid cycle. -/
def Dev.nextAction (d : Dev) (p : Nat → Bool) : Option Nat :=
  let here (e : Word × Word) : Option Nat :=
    if d.ang.angle < e.1.toNat && p (ttCode e.2) && ttDue e.2 d.ang.cycle then some (e.1.toNat - d.ang.angle) else none
  let later (e : Word × Word) : Option Nat :=
    if e.1.toNat ≤ d.ang.angle && p (ttCode e.2) && ttDue e.2 ((d.ang.cycle + 1) % 2 ^ 32) then
      some (e.1.toNat + 2 ^ 32 - d.ang.angle) else none
  if d.bit Reg.TT_CTL 0 = false then none
  else ((List.range 256).flatMap (fun i => [here (d.ttEntry i), later (d.ttLater i)])).foldl (fun r x =>
    match r, x with
    | some a, some b => some (min a b)
    | none, x => x
    | r, none => r) none

/-- The angle from now to the next firing strobe entry. -/
def Dev.nextStrobe (d : Dev) : Option Nat := d.nextAction (fun c => c = 1 || c = 2)

/-- Entries with the code and argument of an earlier one are merged into it (R54). -/
def ttMerge : List (Nat × Nat × Nat) → List (Nat × Nat) → List (Nat × Nat)
  | [], _ => []
  | (_, c, a) :: t, seen => if seen.contains (c, a) then ttMerge t seen else (c, a) :: ttMerge t ((c, a) :: seen)

/-! ### Writes (R55) -/

/-- The present contents of an entry of the active bank still decide a match in this tick. -/
def Dev.ttHold (d : Dev) (i : Nat) : Dev :=
  if (getO d.tt.held i).isSome then d
  else { d with tt := { d.tt with held := putO d.tt.held i (some (d.ttEntry i)) } }

/-- Word 0 of an entry: at once in the inactive bank, staged in the active one. -/
def Dev.ttWord0 (d : Dev) (b i : Nat) (v : Word) : Dev :=
  if b2n (d.bit Reg.TT_STAT 7) = b then { d with tt := { d.tt with stage := putO d.tt.stage i (some v) } }
  else d.wr (Reg.TT_ENT b i 0) v

/-- The flags a write of word 1 sets: BADACT for a refused code or argument, BADPH for a PHASE of DIV or
more. -/
def Dev.ttCheck (d : Dev) (v : Word) : Dev :=
  let d := if ttActOk (ttCode v) (ttArg v) then d else d.flag Reg.TT_STAT 0
  if fieldOf v 15 8 != 0 && decide (fieldOf v 15 8 ≤ fieldOf v 7 0) then d.flag Reg.TT_STAT 1 else d

/-- Word 1 of an entry; in the active bank the staged word 0 takes effect with it, from the following tick. -/
def Dev.ttWord1 (d : Dev) (b i : Nat) (v : Word) : Dev :=
  let d := d.ttCheck v
  if b2n (d.bit Reg.TT_STAT 7) = b then
    let d := d.ttHold i
    let d := match getO d.tt.stage i with | some w => d.wr (Reg.TT_ENT b i 0) w | none => d
    let d := { d with tt := { d.tt with stage := putO d.tt.stage i none } }
    d.wr (Reg.TT_ENT b i 1) v
  else d.wr (Reg.TT_ENT b i 1) v

/-- TT_CTL: EN, and SWAP requests the swap of the next wrap. -/
def Dev.ttCtl (d : Dev) (v : Word) : Dev :=
  let d := d.plainWrite Reg.TT_CTL v
  if bitOf v 1 then d.flag Reg.TT_STAT 6 else d

/-! ### The timetable that firmware builds (R58) -/

/-- The address is that of a timetable entry of bank 0. -/
def isTtEntry (a : Nat) : Bool := 0x40041000 ≤ a && a < 0x40041800

/-- Word `w` of entry `i` as the blocks give it; the injection actions are left out while a rest rotation runs (R234). -/
def Dev.ttGiven (d : Dev) (i w : Nat) : Word :=
  let v (w : Nat) : Word := (getO d.managed (Reg.TT_ENT 0 i w)).getD 0
  if w = 1 && ttCode (v 1) = 5 && d.fld Reg.DSP_ROT 2 0 != 0 then 0 else v w

/-- The program-cycle starts per grid cycle that the image asks of SRC 0 (Table 14.3). -/
def Dev.cycStarts (d : Dev) : Nat :=
  match d.cyc.image with
  | some p => if !bitOf p.cfg 31 && [1, 2, 4, 8].contains (fieldOf p.cfg 19 0) then fieldOf p.cfg 19 0 else 0
  | none => 0

/-- The entries of the timetable that firmware builds: those the blocks give, or, while they give none, those of bank `b`
(DESIGN CHOICE: log entry 134); under SRC 0 the program-cycle starts stand in the first free entries, evenly spaced from the
offset of the program's block, in place of any given (R353). -/
def Dev.ttTable (d : Dev) (b : Nat) : List (Word × Word) :=
  let given := d.managed.any (fun m => isTtEntry m.1)
  let l := (List.range 256).map (fun i =>
    if given then (d.ttGiven i 0, d.ttGiven i 1) else (d.rd (Reg.TT_ENT b i 0), d.rd (Reg.TT_ENT b i 1)))
  let n := d.cycStarts
  let l := if n = 0 then l else l.map (fun e => if ttCode e.2 = 3 then (0, 0) else e)
  let free := ((l.zipIdx).filter (fun e => fieldOf e.1.2 15 8 = 0)).map (fun e => e.2)
  (l.zipIdx).map (fun e =>
    let k := free.idxOf e.2
    if k < min n free.length then (nw (d.pv Par.STARTOFS + k * (2 ^ 32 / n)), 0x03000100) else e.1)

/-- The timetable is built in the inactive bank and a swap requested (R58). -/
def Dev.ttBuild (d : Dev) : Dev :=
  if !d.manages 4 then d
  else
    let b := b2n (d.bit Reg.TT_STAT 7)
    let k := 1 - b
    let d := ((d.ttTable b).zipIdx).foldl (fun (d : Dev) e => (d.ttWord0 k e.2 e.1.1).ttWord1 k e.2 e.1.2) d
    d.ttCtl (withBit (d.rd Reg.TT_CTL) 1 true)

/-- The blocks give injection actions, so that the timetable is built again as a rest rotation begins and ends (R234). -/
def Dev.injPlace (d : Dev) : Dev :=
  if (List.range 256).any (fun i => ttCode ((getO d.managed (Reg.TT_ENT 0 i 1)).getD 0) = 5) then d.ttBuild else d

end Sys2Proof.Machine
end

