-- ==== Sys2Proof/Machine/Chain.lean ====
section
/-! DEFINITION. What a change of the asserted actions brings about: classes and the trip matrix (R156 to
R160), the PWM block (R256), the injection abort (R227), the break delay and open request (R166 to R169),
and the target current (R268, R269). -/

namespace Sys2Proof.Machine

/-! ### Small readers -/

/-- An action of LIM_ACT is asserted: 0 TRIPN, 1 PWMBLK, 2 CONT, 3 CONTNOW, 4 DSPZERO, 5 REC, 6 EST (R157). -/
def Dev.act (d : Dev) (i : Nat) : Bool := d.bit Reg.LIM_ACT i

/-- Row `n` of the trip matrix. -/
def Dev.row (d : Dev) (n : Nat) : Nat := d.fld (Reg.LIM_TRIPMAP n) 6 0

/-- The TRIP_N line is low: this module drives it, or another does (R482). -/
def Dev.tripLow (d : Dev) : Bool := d.act 0 || !d.pins.tripHigh

/-- The sigma-delta channel of the string current (EST_ICFG.PRI) gives its value in µA (R181, R241). -/
def Dev.stringI (d : Dev) : Int := d.rdI (Reg.SDM_VAL (d.fld Reg.EST_ICFG 2 0))

/-- SCC_STAT.STATE (Table 6.5). -/
def Dev.sccState (d : Dev) : Nat := d.fld Reg.SCC_STAT 10 8

/-- The descriptor word `w` of slot `s`. -/
def Dev.slotW (d : Dev) (s w : Nat) : Word := d.rd (Reg.CE_SLOT s w)

/-! ### Target current and reference (R268, R269) -/

/-- The current of the request before the limits, and whether the power clamp changed it (R268). -/
def Dev.wanted (d : Dev) : Int × Bool × Bool :=
  let v := d.rdI Reg.DSP_REQ
  if d.dsp.power then
    let p := clampI (- d.rdI Reg.EST_OUTPDIS) (d.rdI Reg.EST_OUTPCH) v
    if d.swp.vstr ≤ 0 then (0, p != v, true)
    else (Int.tdiv (p * 1000000000000) d.swp.vstr, p != v, false)
  else (v, false, false)

/-- The limits of the target current: discharge and charge. -/
def Dev.curLimits (d : Dev) : Int × Int :=
  (min (d.rdI Reg.EST_OUTDIS) (d.rd Reg.DSP_LIMDIS).toNat, min (d.rdI Reg.EST_OUTCH) (d.rd Reg.DSP_LIMCH).toNat)

/-- A current held within the limits of R268. -/
def Dev.clampCur (d : Dev) (i : Int) : Int :=
  let (lo, hi) := d.curLimits
  clampI (- lo) hi i

/-- DSP_STAT.SLEWING reads whether CE_DSPREF differs from I_t. -/
def Dev.slewing (d : Dev) : Dev := d.setBit Reg.DSP_STAT 3 (d.rd Reg.CE_DSPREF != d.rd Reg.DSP_TARGET)

/-- The outputs are formed from the SoP values of the last publication, derated while LIM_ACT.EST is 1 (R195). -/
def Dev.outForm (d : Dev) : Dev :=
  let drt := d.act 6
  let k := d.fld Reg.EST_DERATE 7 0
  let out (i : Nat) : Word := let w := (d.est.pubd[i]?).getD 0; if drt then nw (w.toNat * k / 256) else w
  if d.est.pubd.isEmpty then d
  else
    let d := ((d.wr Reg.EST_OUTCH (out 0)).wr Reg.EST_OUTDIS (out 1)).wr Reg.EST_OUTPCH (out 2)
    (d.wr Reg.EST_OUTPDIS (out 3)).setBit Reg.EST_STAT 3 drt

/-- I_t is formed again (R268), and a limit or the mailbox timeout takes CE_DSPREF to the clamped value at
once when it is nearer zero or of the other sign (R269): that is I_t, or, while EN or HOLD keeps I_t at zero, CE_DSPREF itself
held within the limits.  I_t is also zero while an entry to transport mode waits for its write (R209).  While CE is claimed
CE_DSPREF is the program's. -/
def Dev.reform (d : Dev) : Dev :=
  let (i, pcl, nov) := d.wanted
  let d := if nov then d.flag Reg.DSP_STAT 5 else d
  let mbto := d.bit Reg.DSP_STAT 4 || d.fld Reg.DSP_MBTO 15 0 = 0
  let lim := if mbto then 0 else d.clampCur i
  let held := d.bit Reg.DSP_CTL 0 = false || d.bit Reg.DSP_ROT 31 || d.est.trPhase = 2
  let t := if held then 0 else lim
  let d := d.wr Reg.DSP_TARGET (iw t)
  let d := d.setBit Reg.DSP_STAT 0 (t != i)
  let cur := d.rdI Reg.CE_DSPREF
  let now := if mbto then 0 else if held then d.clampCur cur else lim
  let limited := mbto || held || pcl || lim != i
  let d :=
    if limited && d.manages (blockOf Reg.CE_CTL) && (now.natAbs < cur.natAbs || now * cur < 0) then
      d.wr Reg.CE_DSPREF (iw now)
    else d
  d.slewing

/-! ### Impedance windows and the injection (R221, R227) -/

/-- IMP_STAT.ACTIVE reads whether a window is open. -/
def Dev.impActive (d : Dev) : Dev :=
  d.setBit Reg.IMP_STAT 0 (d.imp.bins.any (fun b => match b.2 with | some x => x.openAt.isSome | none => false))

/-- The sums of bin `b` go. -/
def Dev.accDrop (d : Dev) (b : Nat) : Dev :=
  { d with imp := { d.imp with acc := d.imp.acc.filter (fun e => e.1 / 640 != b) } }

/-- A bin discards its open window: its sums go (R221). -/
def Dev.binDiscard (d : Dev) (b : Nat) : Dev :=
  let d := d.accDrop b
  match getO d.imp.bins b with
  | none => d
  | some x =>
    ({ d with imp := { d.imp with bins := putO d.imp.bins b (some { x with openAt := none, strobes := 0, alias_ := false, nyq := true }) } }).impActive

/-- IMP_STAT.RIPHOLD follows the condition of the ripple bins in use, with entries 0x4010 and 0x4011 at a change;
held bins discard their windows (R221). -/
def Dev.ripRefresh (d : Dev) : Dev :=
  let rip := (List.range 16).filter (fun b => d.bit (Reg.IMP_BIN b 0) 31 && d.fld (Reg.IMP_BIN b 0) 30 29 = 0
    && d.fld (Reg.IMP_BIN b 0) 23 12 != 0 && d.fld (Reg.IMP_BIN b 1) 31 16 != 0)
  let hold := !rip.isEmpty && !(d.bit Reg.ANG_STAT 4 && d.fld Reg.ANG_STAT 1 0 != 2)
  let was := d.bit Reg.IMP_STAT 3
  let d := if hold then rip.foldl (fun d b => d.binDiscard b) d else d
  if hold = was then d else (d.setBit Reg.IMP_STAT 3 hold).hw (if hold then 0x4010 else 0x4011) []

/-- The bins that injection descriptor `n` feeds discard their windows. -/
def Dev.injDiscard (d : Dev) (n : Nat) : Dev :=
  (List.range 16).foldl (fun d b =>
    if d.fld (Reg.IMP_BIN b 0) 30 29 = 1 && d.fld (Reg.IMP_BIN b 0) 26 24 = n then d.binDiscard b else d) d

/-- The running injection ends: IMP_STAT and IMP_INJSTAT show none. -/
def Dev.injOff (d : Dev) : Dev :=
  let d := { d with imp := { d.imp with inj := none } }
  let d := (d.setBit Reg.IMP_STAT 1 false).setBit Reg.IMP_STAT 2 false
  d.wr Reg.IMP_INJSTAT (withField (withBit (d.rd Reg.IMP_INJSTAT) 31 false) 23 0 0)

/-- The injection aborts at once (R227). -/
def Dev.injAbort (d : Dev) : Dev :=
  match d.imp.inj with
  | none => d
  | some i =>
    let d := (d.injOff.flag Reg.IMP_STAT 6).injDiscard i.desc
    d.hw 0x4002 [nw i.desc]

/-! ### The PWM block (R252, R256, R258, R259) -/

/-- A running test injection aborts: CE_STAT.TINJAB and entry 0x5041 (R258). -/
def Dev.tinjAbort (d : Dev) : Dev :=
  if d.bit Reg.CE_TINJ 29 then
    ((d.setBit Reg.CE_TINJ 29 false).flag Reg.CE_STAT 30).hw 0x5041 [nw (d.fld Reg.CE_TINJ 26 24)]
  else d

/-- The armed trace triggers: WPTR takes the index of the trigger sample, and the samples after the
pre-trigger part remain (R259). -/
def Dev.traceTrigger (d : Dev) : Dev :=
  if d.bit Reg.CE_TRCSTAT 31 then
    let d := (d.setBit Reg.CE_TRCSTAT 31 false).setBit Reg.CE_TRCSTAT 30 true
    let d := d.setFld Reg.CE_TRCSTAT 12 0 d.ce.trIdx
    { d with ce := { d.ce with trLeft := 8192 - d.fld Reg.CE_TRCCTL 12 0 } }
  else d

/-- The trace triggers when its mode is `m`. -/
def Dev.traceOn (d : Dev) (m : Nat) : Dev :=
  if d.fld Reg.CE_TRCTRIG 31 28 = m then d.traceTrigger else d

/-- A slot with nothing evaluated yet. -/
def SlotSt.idle : SlotSt where
  events := 0
  lastTrig := none
  tbAt := 0
  waiting := false
  running := false
  r := 0
  y := 0
  injTerm := 0
  e := 0
  e3 := 0
  u3 := 0
  q := []
  upc := none
  a := 0
  stage := []

/-- Slot `s` beside its descriptor. -/
def Dev.slot (d : Dev) (s : Nat) : SlotSt := (getO d.ce.slots s).getD SlotSt.idle

/-- The module with slot `s` as `x`. -/
def Dev.setSlot (d : Dev) (s : Nat) (x : SlotSt) : Dev :=
  { d with ce := { d.ce with slots := putO d.ce.slots s (if x = SlotSt.idle then none else some x) } }

/-- A slot's history and microcode words go to zero (R251 to R253). -/
def Dev.slotHistReset (d : Dev) (s : Nat) : Dev :=
  let d := (d.wr (Reg.CE_SLOT s 14) 0).wr (Reg.CE_SLOT s 15) 0
  d.setSlot s { d.slot s with e3 := 0, u3 := 0, q := [] }

/-- An evaluation of slot `s` that waits, is due or runs is given up. -/
def Dev.slotDrop (d : Dev) (s : Nat) : Dev :=
  let d := { d with ce := { d.ce with due := d.ce.due.filter (fun e => e.slot != s) } }
  d.setSlot s { d.slot s with waiting := false, running := false, upc := none }

/-- At a block, slots whose destination is a PWM pair and whose BLKACT is not 0 reset their history, and an
evaluation under way is given up (R252). -/
def Dev.slotsBlocked (d : Dev) : Dev :=
  (List.range 8).foldl (fun d s =>
    if bitOf (d.slotW s 0) 31 && fieldOf (d.slotW s 1) 21 20 = 1 then
      let d := d.slotDrop s
      if fieldOf (d.slotW s 0) 27 26 != 0 then d.slotHistReset s else d
    else d) d

/-- No pair's outputs follow its counter. -/
def pairsDead (l : List (Nat × Option PairSt)) : List (Nat × Option PairSt) :=
  l.map (fun e => (e.1, e.2.map (fun p => { p with live := false })))

/-- PWM_STAT, CE_STAT.CONVFLT and CONV_EN follow the block sources; at the onset of a block the outputs go
to their safe levels, a test injection aborts and the trace may trigger (R256, R258, R259); a deposed module's CONV_EN is low with
its PWM drivers (R395; DEDUCED: log entry 228). -/
def Dev.updateBlk (d : Dev) : Dev :=
  let was := d.bit Reg.PWM_STAT 0
  let flt := d.pins.convFltLow
  let lim := d.act 1
  let blk := flt || lim || d.bit Reg.PWM_STAT 1
  let d := ((d.setBit Reg.PWM_STAT 3 flt).setBit Reg.PWM_STAT 2 lim).setBit Reg.PWM_STAT 0 blk
  let d := d.setBit Reg.CE_STAT 31 flt
  let d := { d with pins := { d.pins with convEn := d.bit Reg.PWM_CTL 4 && !blk && d.role != 3 } }
  if blk && !was then
    (({ d with pwm := pairsDead d.pwm }).tinjAbort.slotsBlocked).traceOn 4
  else d

/-! ### Contactors (R166 to R169) -/

/-- SCC enters a state; leaving CLOSED aborts an injection (R227). -/
def Dev.sccSet (d : Dev) (st : Nat) : Dev :=
  let was := d.sccState
  let d := (d.setFld Reg.SCC_STAT 10 8 st).start Tm.scc
  if was = 3 && st != 3 then d.injAbort else d

/-- A channel turns on: full duty for PICKUP, or hold duty at once for a PICKUP of zero; a HOLD of zero is
full duty throughout (R167). -/
def Dev.coilOn (d : Dev) : Coil :=
  if d.fld Reg.SCC_ECON 7 0 = 0 then .full
  else if d.fld Reg.SCC_TIME 31 24 = 0 then .hold else .full

/-- K1 switches on. -/
def Dev.k1On (d : Dev) : Dev :=
  ({ d with scc := { d.scc with k1 := d.coilOn } }).start Tm.pick1

/-- K2 switches on. -/
def Dev.k2On (d : Dev) : Dev :=
  ({ d with scc := { d.scc with k2 := d.coilOn } }).start Tm.pick2

/-- K2 switches off; its drop-out time runs while FB3 is closed. -/
def Dev.k2Off (d : Dev) : Dev :=
  let d := if d.scc.k2 != .off && d.bit Reg.SCC_STAT 2 then d.start Tm.drop2 else d
  ({ d with scc := { d.scc with k2 := .off } }).stop Tm.pick2

/-- An opening begins: the string current's magnitude at the switch-off command makes it a zero-current test or counts it in
HICNT with entry 0x2211; its drop-out time, its mirror contacts, its DROPTO and that of R172 are still to run (R171). -/
def Dev.openingBegin (d : Dev) : Dev :=
  let i := d.stringI.natAbs
  let zero := decide (i < 10000 * d.fld Reg.SCC_ITEST 15 0)
  let d := if zero then d.satInc Reg.SCC_OPS 15 0 else (d.satInc Reg.SCC_OPS 31 16).hw 0x2211 [nw i]
  ({ d with scc := { d.scc with openCur := some i, zeroCur := zero, mirror := some [d.fld Reg.SCC_STAT 3 0],
                                secondDrop := false } }).start Tm.drop1

/-- K1 switches off; with FB1 closed this is an opening (R171). -/
def Dev.k1Off (d : Dev) : Dev :=
  let d := if d.scc.k1 != .off && d.bit Reg.SCC_STAT 0 then d.openingBegin else d
  ({ d with scc := { d.scc with k1 := .off } }).stop Tm.pick1

/-- An open request: PRECHARGE, CLOSING and CLOSED go to OPENING with both channels off (Table 6.5). -/
def Dev.openReq (d : Dev) : Dev :=
  let st := d.sccState
  if st = 1 || st = 2 || st = 3 then
    d.k1Off.k2Off.sccSet 4
  else d

/-- CONT starts the break delay or opens at once; CONTNOW opens at once; CONT clearing stops the delay
(R168). -/
def Dev.contAct (d : Dev) (old new : Nat) : Dev :=
  let d :=
    if new.testBit 2 && !old.testBit 2 then
      if d.fld Reg.SCC_BRKDLY 15 0 = 0 then d.openReq
      else (d.start Tm.brk).setBit Reg.SCC_STAT 7 true
    else if old.testBit 2 && !new.testBit 2 then (d.stop Tm.brk).setBit Reg.SCC_STAT 7 false
    else d
  if new.testBit 3 && !old.testBit 3 then ((d.stop Tm.brk).setBit Reg.SCC_STAT 7 false).openReq else d

/-! ### Actions (R157) -/

/-- The actions that the asserted Ochre levels and latched Crimson classes ask for. -/
def Dev.actionsOf (d : Dev) : Nat :=
  (List.range 16).foldl (fun a c =>
    let a := if d.bit Reg.LIM_OCHRE c then a ||| d.row (2 * c) else a
    if d.bit Reg.LIM_CRIM c then a ||| d.row (2 * c + 1) else a) 0

/-- LIM_ACT follows, and what a change of it brings about happens. -/
def Dev.updateAct (d : Dev) : Dev :=
  let old := d.fld Reg.LIM_ACT 6 0
  let new := d.actionsOf
  if old = new then d
  else
    let d := (d.wr Reg.LIM_ACT (nw new)).updateBlk
    let rising := new &&& (127 ^^^ old)
    let d := if rising &&& 0x1E != 0 then d.injAbort else d
    let d := if old.testBit 6 != new.testBit 6 then d.outForm else d
    (d.contAct old new).reform

/-! ### Classes (R156, R159, R160) -/

/-- A profile message of a TYPE with its EPOCH. -/
def Dev.plantBody (d : Dev) (data : List Byte) : List Byte := leBytes 4 (d.rd Reg.TW_EPOCH).toNat ++ data

/-- A profile message leaves a duty or alone module on UDP, after the header of TYPE, string address, direction and version
(R271 to R273). -/
def Dev.plantUdp (d : Dev) (type : Nat) (data : List Byte) : Dev :=
  if d.leads then d.send .plantUdp (d.pv Par.UDPPORT) ([type, d.pv Par.STRADR, 1, 1] ++ byteNats (d.plantBody data)) else d

/-- A profile message leaves a duty or alone module: on CAN FD, from an object of CAN A, and on UDP (R271, R273, R434). -/
def Dev.plantSend (d : Dev) (type : Nat) (data : List Byte) : Dev :=
  if d.leads then (d.canProfileSend type (d.plantBody data)).plantUdp type data else d

/-- Rotation enters a state: HOLD is 1 in RAMPDOWN and REST, ROTSTATE is sent, I_t is formed again, and the injection actions
leave or join the timetable (R234, R274, R275). -/
def Dev.rotSet (d : Dev) (st reason : Nat) : Dev :=
  let d := d.wr Reg.DSP_ROT (nw ((if st = 2 || st = 3 then 0x80000000 else 0) + st))
  let d := { d with dsp := { d.dsp with rotReason := reason } }
  let d := d.plantSend 0x22 (leBytes 2 d.dsp.rid ++ leBytes 1 st ++ leBytes 1 (if st = 0 then reason else 0))
  let d := d.reform
  if st < 2 then d.injPlace else d

/-- The way to IDLE: EST_REQ.ROT clears; entry 0x3036 after a completed window, else 0x3035 and the retry of R202. -/
def Dev.rotIdle (d : Dev) (reason : Nat) : Dev :=
  let d := (d.rotSet 0 reason).sysWr Reg.EST_REQ (withBit (d.rd Reg.EST_REQ) 0 false)
  if reason = 0 then d.fw 0x3036 []
  else { (d.fw 0x3035 [nw reason]) with est := { d.est with retryAt := some d.opSec } }

/-- RETURN has ended: CE_DSPREF has reached I_t. -/
def Dev.rotBack (d : Dev) : Bool := d.fld Reg.DSP_ROT 2 0 = 4 && d.rd Reg.CE_DSPREF = d.rd Reg.DSP_TARGET

/-- Rotation in REST returns on a Crimson whose row has CONT, CONTNOW or DSPZERO, and ends at once when I_t is zero
(R275). -/
def Dev.rotCrimson (d : Dev) (cls : Nat) : Dev :=
  if d.fld Reg.DSP_ROT 2 0 = 3 && d.row (2 * cls + 1) &&& 0x1C != 0 && d.manages (blockOf Reg.DSP_CTL) then
    let d := (d.rotSet 4 4).fw 0x6012 [nw 4]
    if d.rotBack then d.rotIdle 4 else d
  else d

/-- Crimson of a class latches: LIM_FIRST, the entry of its row, a Storeroom write, a flush, and the
actions (R156, R160, R206, R494). -/
def Dev.latchCrim (d : Dev) (cls : Nat) (chan : Option Nat) (value : Int) (seq : Word) : Dev :=
  if d.bit Reg.LIM_CRIM cls then d
  else
    let d := d.setBit Reg.LIM_CRIM cls true
    let ch : Nat := match chan with | some c => 0x800 + c | none => 0
    let d :=
      if d.bit Reg.LIM_FIRST 31 then d
      else (d.wr Reg.LIM_FIRST (nw (0x80000000 + cls * 65536 + ch))).wr Reg.LIM_FIRSTVAL (iw value)
    let d := if (d.row (2 * cls + 1)).testBit 5 then d.hw (0x2110 + cls) [nw cls, nw ch, iw value, seq] else d
    let d := if cls = 9 then { d with lim := { d.lim with pubSince9 := false } } else d
    let d := { d with est := { d.est with reasons := d.est.reasons ++ [4] } }
    (d.flushReq.rotCrimson cls).updateAct

/-- Crimson of a class from a source without a channel. -/
def Dev.crim (d : Dev) (cls : Nat) : Dev := d.latchCrim cls none 0 (nw (d.fld Reg.SWP_LAST 31 16))

/-- The Ochre level of a class becomes `on`: an onset makes the entry of its row, and the actions follow
(R157). -/
def Dev.setOchre (d : Dev) (cls : Nat) (on : Bool) : Dev :=
  if d.bit Reg.LIM_OCHRE cls = on then d
  else
    let d := d.setBit Reg.LIM_OCHRE cls on
    let d := if on && (d.row (2 * cls)).testBit 5 then d.hw (0x2100 + cls) [nw cls] else d
    d.updateAct

/-- SCC goes to FAULT with both channels off, the diagnostic bit sets, and Crimson of class 11 latches
(R166, R170). -/
def Dev.sccFault (d : Dev) (b : Nat) : Dev :=
  let d := (d.flag Reg.SCC_DIAG b).hw (0x2200 + b) [nw b]
  let d := d.k1Off.k2Off.sccSet 5
  d.crim 11

/-- A diagnostic that is a record: its bit, its entry, and Ochre of class 11 until the next close (R170). -/
def Dev.sccRecord (d : Dev) (b : Nat) : Dev :=
  let d := (d.flag Reg.SCC_DIAG b).hw (0x2200 + b) [nw b]
  ({ d with scc := { d.scc with record := true } }).setOchre 11 true

end Sys2Proof.Machine
end

