-- ==== Sys2Proof/Machine/Except.lean ====
section
/-! DEFINITION. The core pairs as the rest of the module meets them: register access, taking an exception
and returning from one, what stops a pair or the program (R302, R321 to R327), and who may write a register
(R14 to R19). -/

namespace Sys2Proof.Machine

/-! ### Pairs -/

/-- The core of a pair. -/
def Dev.core (d : Dev) : Pair → CoreSt
  | .system => d.sys
  | .program => d.prog

/-- The module with `c` as the core of a pair. -/
def Dev.setCore (d : Dev) (p : Pair) (c : CoreSt) : Dev :=
  match p with
  | .system => { d with sys := c }
  | .program => { d with prog := c }

/-- General register `r`; w0 reads as zero (R306). -/
def CoreSt.reg (c : CoreSt) (r : GReg) : Word := if r = 0 then 0 else c.w[r.toNat]

/-- `v` into general register `r`; a write to w0 is discarded (R306). -/
def CoreSt.setReg (c : CoreSt) (r : GReg) (v : Word) : CoreSt :=
  if r = 0 then c else { c with w := c.w.set r.toNat v }

/-- The level: true for user (s.status.PL 0). -/
def CoreSt.user (c : CoreSt) : Bool := !bitOf c.status 0

/-- The next sequential instruction. -/
def CoreSt.next (c : CoreSt) : CoreSt := { c with pc := c.pc + 4 }

/-! ### Failure to the partner (R407) -/

/-- A duty sends FAIL with its cause and releases ROLE. -/
def Dev.sendFail (d : Dev) (cause : Nat) : Dev :=
  if d.role = 1 then
    let d := (d.send .twin 0x0A [cause, 0, 0, 0]).hw 0x9050 [nw cause]
    { d with tw := { d.tw with failed := true }, pins := { d.pins with driveRole := false } }
  else d

/-! ### The program's state (R356) -/

/-- CYC_STAT.STATE: 0 NOIMG, 1 STOPPED, 2 RUN, 3 FAULT, 4 SWITCH. -/
def Dev.cycState (d : Dev) : Nat := d.fld Reg.CYC_STAT 2 0

/-- The running cycle is given up: nothing is committed any more, and a program at user level issues nothing further
until it is started again (R356). -/
def Dev.cycIdle (d : Dev) : Dev :=
  let c := d.prog
  let d := if c.user then { d with prog := { c with waiting := .cyend } } else d
  ({ d with cyc := { d.cyc with phase := .idle, calls := [] } }).setBit Reg.CYC_STAT 3 false

/-- The program goes from RUN, or from a switch, to FAULT: no commit, and outputs take their fallback (R356, R481). -/
def Dev.progFault (d : Dev) : Dev :=
  let d := if d.cycState = 2 || d.cycState = 4 then d.cycIdle.setFld Reg.CYC_STAT 2 0 3 else d.cycIdle
  { d with fio := { d.fio with warmHold := false } }

/-! ### Stopping a pair (R302, R324) -/

/-- A pair stops after a lockstep error or a double fault.  The program's stop makes entry 0x8050 or 0x8051,
signals the partner, and keeps START refused until a warm reset; the system pair's asks for a warm reset of
cause 13 (R302, R324, R407). -/
def Dev.pairStop (d : Dev) (p : Pair) (double : Bool) : Dev :=
  let d := d.setCore p { d.core p with stopped := true, resv := none }
  match p with
  | .program =>
    let d := d.progFault
    let d := { d with cyc := { d.cyc with lockout := true } }
    let d := d.hw (if double then 0x8051 else 0x8050) []
    d.sendFail (if double then 2 else 1)
  | .system => { d with pwr := { d.pwr with resetWait := some 13 } }

/-! ### Exceptions (R321 to R325) -/

/-- The handler address of an exception code: the word of the handler table, when it lies in the boot ROM or
SRAM, passes its ECC check, and is 4-byte aligned (R323). -/
def Dev.handler (d : Dev) (xtab : Word) (code : Nat) : Option Word :=
  let a := xtab.toNat + 4 * code
  if (a < 0x10000 || isSram a) && !d.ecc.contains a && (d.word a).toNat % 4 = 0 then some (d.word a) else none

/-- The core after exception entry: the saved status, resume address, code, and faulting address, then
supervisor level with interrupts off and INX set (R323). -/
def CoreSt.enter (c : CoreSt) (code sub : Nat) (xaddr : Option Word) (xpc h : Word) : CoreSt :=
  { c with
    xstat := nw (b2n (bitOf c.status 0) + 8 * b2n (bitOf c.status 3))
    xpc := xpc
    xcode := nw (code + 256 * sub)
    xaddr := xaddr.getD c.xaddr
    status := withBit (withBit (withBit c.status 0 true) 3 false) 5 true
    pc := h
    resv := none
    waiting := .none }

/-- A pair takes an exception: a double fault while INX is 1, a stop when the handler table fails, else
entry; a user-level exception of the program other than SYSC, or BRK in a debug session, also stops the
program (R323 to R325). -/
def Dev.exception (d : Dev) (p : Pair) (code sub : Nat) (xaddr : Option Word) (xpc : Word) : Dev :=
  let c := d.core p
  if bitOf c.status 5 then d.pairStop p true
  else
    match d.handler c.xtab code with
    | none => d.pairStop p true
    | some h =>
      let d := d.setCore p (c.enter code sub xaddr xpc h)
      if p = .program && c.user && code != 8 && !(code = 9 && d.svc.debug) then
        d.progFault.hw (0x8040 + code) []
      else d

/-- A synchronous exception at the present instruction. -/
def Dev.raise (d : Dev) (p : Pair) (code sub : Nat) (xaddr : Option Word) : Dev :=
  d.exception p code sub xaddr (d.core p).pc

/-- Return from an exception: PC, level and interrupt enable from the saved registers, INX cleared, the
reservation cleared (R316, R323); the program pair has no interrupt enable (R308). -/
def CoreSt.rfx (c : CoreSt) (p : Pair) : CoreSt :=
  { c with
    pc := c.xpc
    status := withBit (withBit (withBit c.status 0 (bitOf c.xstat 0)) 3 (p = .system && bitOf c.xstat 3)) 5 false
    resv := none }

/-! ### Core events (R327) -/

/-- A waiting WFE completes when a masked event is pending. -/
def CoreSt.wake (c : CoreSt) : CoreSt :=
  match c.waiting with
  | .wfe mask r => if c.evt &&& mask = 0 then c else ({ c with waiting := .none }.setReg r (c.evt &&& mask)).next
  | _ => c

/-- An event line sets in s.evt of a pair; a bit already set stays set. -/
def Dev.setEvent (d : Dev) (p : Pair) (line : Nat) : Dev :=
  let c := d.core p
  d.setCore p { c with evt := withBit c.evt (line % 16) true }.wake

/-- A write to SRAM by another agent clears a reservation on its granule (R316). -/
def CoreSt.hit (c : CoreSt) (a n : Nat) : CoreSt :=
  match c.resv with
  | some g => if a < g + 8 && g < a + n then { c with resv := none } else c
  | none => c

/-- While a duty resynchronises its shade it marks the 1 KiB granules of program SRAM that a write touches (R410). -/
def Dev.touch (d : Dev) (a n : Nat) : Dev :=
  if d.tw.rsPhase < 2 || n = 0 || a + n ≤ 0x10200000 || 0x105E0000 ≤ a then d
  else
    let g := (List.range ((a + n - 1) / 1024 - a / 1024 + 1)).foldl (fun l i => putB l (a / 1024 + i) true) d.tw.dirty
    { d with tw := { d.tw with dirty := g } }

/-- A word that a write overwrites whole has no error any more. -/
def Dev.overwritten (d : Dev) (a n : Nat) : Dev :=
  let keep := fun e => !(decide (a ≤ e) && decide (e + 4 ≤ a + n))
  { d with ecc := d.ecc.filter keep, corr := d.corr.filter keep }

/-- What a write of `n` bytes to SRAM by an agent that is no pair brings about beside it: granules marked, errors
overwritten, both pairs' reservations on the granule ended. -/
def Dev.written (d : Dev) (a n : Nat) : Dev :=
  let d := (d.touch a n).overwritten a n
  { d with prog := d.prog.hit a n, sys := d.sys.hit a n }

/-- A write to SRAM by an agent that is no pair. -/
def Dev.agentStore (d : Dev) (a : Nat) (l : List Byte) : Dev := (d.setBytes a l).written a l.length

/-! ### Who may write (R14 to R19) -/

/-- The register's block takes the write of `src`: the system pair's write to a claimed block is discarded;
the program's write to a block that cannot be claimed raises PROT with sub-code 2; a session's is not
performed; any other expert write claims the block and is performed. -/
def Dev.gate (d : Dev) (src : Writer) (a : Nat) (f : Dev → Dev) : Dev :=
  let b := blockOf a
  match src with
  | .system => if d.claimed b then d.discard a else f d
  | .program => if d.claimEn b then f (d.setClaim b) else d.raise .program 5 2 (some (nw a))
  | .session => if d.claimEn b then f (d.setClaim b) else d


end Sys2Proof.Machine
end

