-- ==== Sys2Proof/Machine/Time.lean ====
section
/-! DEFINITION. The local clock, the program time base, the angle clock and its sources (R30 to R50), and
the claim registers of SYS (R20, R25). -/

namespace Sys2Proof.Machine

/-! ### SYS: claims and their release (R20, R25) -/

/-- SYS_CTL: writing 1 to LOCK sets it (R25). -/
def Dev.sysCtlWrite (d : Dev) (v : Word) : Dev := d.plainWrite Reg.SYS_CTL v

/-- The claims in `mask` of blocks `lo` to `lo + 31` end; firmware resumes each at the next program cycle
start (R20). -/
def Dev.release (d : Dev) (hi : Bool) (mask : Word) : Dev :=
  let a := if hi then Reg.SYS_EXPOWN1 else Reg.SYS_EXPOWN0
  let gone := d.rd a &&& mask
  let d := d.wr a (d.rd a &&& ~~~ mask)
  let n := (List.range 32).filter (fun i => bitOf gone i)
  { d with svc := { d.svc with resume := d.svc.resume ++ n.map (fun i => if hi then i + 32 else i) } }

/-- A write of SYS_EXPREL: the program cannot store to SYS, and a session needs service authority (R19, R20). -/
def Dev.expRelWrite (d : Dev) (src : Writer) (hi : Bool) (v : Word) : Dev :=
  match src with
  | .program => d.raise .program 5 2 (some (nw (if hi then Reg.SYS_EXPREL1 else Reg.SYS_EXPREL0)))
  | .session => if d.fld Reg.SVC_STAT 5 4 = 3 then d.release hi v else d
  | .system => d.release hi v

/-- A 1 in SYS_EXPREL releases a claim. -/
def execExpertRelease (src : Writer) (hi : Bool) (v : Word) (s : State) : Host.Outcome State Fault Refusal :=
  s.lift (fun d => d.expRelWrite src hi v)

/-- A write of SYS_CTL. -/
def execClaimenLock (src : Writer) (v : Word) (s : State) : Host.Outcome State Fault Refusal :=
  s.lift (fun d => d.gate src Reg.SYS_CTL (fun d => d.sysCtlWrite v))

/-! ### Source validity (R41) -/

/-- A source that last delivered at tick `t` is within ANG_LOSSTO. -/
def Dev.angFresh (d : Dev) (t : Option Nat) : Bool :=
  match t with
  | some k => d.now < k + msT (d.rd Reg.ANG_LOSSTO).toNat
  | none => false

/-- A source is valid. -/
def Dev.angValid (d : Dev) (src : Nat) : Bool :=
  if src = 0 then d.bit Reg.TIM_STAT 0 && d.angFresh d.ang.msgTick
  else if src = 1 then d.angFresh d.ang.zcTick
  else src = 2

/-- Since when each source has been valid without interruption. -/
def Dev.angRefresh (d : Dev) : Dev :=
  let f (src : Nat) (t : Option Nat) : Option Nat := if d.angValid src then some (t.getD d.now) else none
  { d with ang := { d.ang with msgSince := f 0 d.ang.msgSince, zcSince := f 1 d.ang.zcSince } }

/-- The order of selection: PRI0, PRI1, PRI2, then free-run (R42). -/
def Dev.angOrder (d : Dev) : List Nat :=
  ([d.fld Reg.ANG_SRCPRI 1 0, d.fld Reg.ANG_SRCPRI 3 2, d.fld Reg.ANG_SRCPRI 5 4].filter (fun s => s != 3)) ++ [2]

/-- The first valid source in the order; free-run while it is forced, or until firmware has started the
sources (R42, R44, R49). -/
def Dev.angFirst (d : Dev) : Nat :=
  if d.bit Reg.ANG_CTL 1 || !d.ang.started then 2
  else (d.angOrder.find? (fun s => d.angValid s)).getD 2

/-- The selected source. -/
def Dev.angSrc (d : Dev) : Nat := d.fld Reg.ANG_STAT 1 0

/-! ### The increment (R40, R44, R45) -/

/-- The increment in use. -/
def Dev.angInc (d : Dev) : Nat := (d.rd Reg.ANG_INC_LO).toNat + 2 ^ 32 * d.fld Reg.ANG_INC_HI 15 0

/-- The nominal increment. -/
def Dev.angNom (d : Dev) : Nat := (d.rd Reg.ANG_NOMINC_LO).toNat + 2 ^ 32 * d.fld Reg.ANG_NOMINC_HI 15 0

/-- The bounds of R40. -/
def angLo : Int := 0x055E63B9
def angHi : Int := 0x09652E83

/-- An increment is taken into use, bounded with ANG_STAT.INCCLAMP (R40). -/
def Dev.setInc (d : Dev) (i : Int) : Dev :=
  let b := clampI angLo angHi i
  let d := if b = i then d else d.flag Reg.ANG_STAT 6
  (d.wr Reg.ANG_INC_LO (iw b)).wr Reg.ANG_INC_HI (nw (b.toNat / 2 ^ 32))

/-- In free-run with PLLEN 1, one step of the increment toward ANG_NOMINC (R44). -/
def Dev.freeRunSlew (d : Dev) : Dev :=
  if d.bit Reg.ANG_CTL 0 && (d.angSrc = 2 || d.bit Reg.ANG_CTL 1) then
    let nom : Int := d.angNom
    let cur : Int := d.angInc
    let s : Int := (d.rd Reg.ANG_SLEW).toNat
    if s = 0 then d.setInc nom else d.setInc (cur + clampI (-s) s (nom - cur))
  else d

/-- With ANG_SLEW zero the change is not limited: the increment takes ANG_NOMINC at once (R44). -/
def Dev.slewAtOnce (d : Dev) : Dev := if d.rd Reg.ANG_SLEW = 0 then d.freeRunSlew else d

/-! ### Source changes (R42, R43, R46) -/

/-- The place of a source in the order. -/
def Dev.angRank (d : Dev) (src : Nat) : Nat := d.angOrder.findIdx (fun s => s == src)

/-- The source changes: SRCCHG, LOCK cleared, entry 0xC050, and the fall it leaves is kept in mind. -/
def Dev.angChange (d : Dev) (new cause : Nat) : Dev :=
  let old := d.angSrc
  if old = new then d
  else
    let d := (((d.setFld Reg.ANG_STAT 1 0 new).flag Reg.ANG_STAT 7).setBit Reg.ANG_STAT 4 false).hw 0xC050
      [nw old, nw new, nw cause, nw d.ang.angle]
    let fall : Option Nat :=
      if cause = 1 then
        match d.ang.fallen with
        | some f => if d.angRank f ≤ d.angRank old then some f else some old
        | none => some old
      else if cause = 2 then
        match d.ang.fallen with
        | some f => if d.angRank new ≤ d.angRank f then none else some f
        | none => none
      else none
    let d := ({ d with ang := { d.ang with goodRun := 0, badRun := 0, fallen := fall } }).ripRefresh
    d.slewAtOnce

/-- The selected source has become invalid: the next valid one in the order is selected, free-run as the last resort; a
source before it in the order is no next one (R42). -/
def Dev.angLoss (d : Dev) : Dev :=
  let d := d.angRefresh
  if d.angValid d.angSrc then d
  else d.angChange (((d.angOrder.drop (d.angRank d.angSrc + 1)).find? (fun s => d.angValid s)).getD 2) 1

/-- A source has been valid for 1 s without interruption (R42). -/
def Dev.angLong (d : Dev) (src : Nat) : Bool :=
  match (if src = 0 then d.ang.msgSince else if src = 1 then d.ang.zcSince else none) with
  | some t => decide (t + secT 1 ≤ d.now)
  | none => false

/-- The first source of higher priority that may be selected now: valid, and after a fall for 1 s (R42). -/
def Dev.angHigher (d : Dev) : Option Nat :=
  if d.bit Reg.ANG_CTL 1 || !d.ang.started then none
  else (d.angOrder.take (d.angRank d.angSrc)).find? (fun s => d.angValid s && (d.ang.fallen = none || d.angLong s))

/-- A source of higher priority is selected: at once, or after 1 s of validity when the selection has fallen
(R42). -/
def Dev.angReturn (d : Dev) : Dev :=
  let d := d.angRefresh
  match d.angHigher with
  | some new => d.angChange new 2
  | none => d

/-! ### The PLL (R45, R46) -/

/-- ANG_STAT.LOCK from the run of phase errors (R46). -/
def Dev.angLock (d : Dev) (e : Int) : Dev :=
  let good := decide (e.natAbs < (d.rd Reg.ANG_LOCKTH).toNat)
  let g := if good then satN 8 (d.ang.goodRun + 1) else 0
  let b := if good then 0 else satN 2 (d.ang.badRun + 1)
  let d := { d with ang := { d.ang with goodRun := g, badRun := b } }
  let d := if 8 ≤ g && d.angSrc != 2 then d.setBit Reg.ANG_STAT 4 true else d
  (if 2 ≤ b then d.setBit Reg.ANG_STAT 4 false else d).ripRefresh

/-- An update of the selected source with phase error `e` (R45). -/
def Dev.pllUpdate (d : Dev) (e : Int) : Dev :=
  let d :=
    if d.bit Reg.ANG_CTL 0 && d.bit Reg.ANG_CTL 1 = false then
      let kp : Int := d.fld Reg.ANG_GAIN 31 16
      let ki : Int := d.fld Reg.ANG_GAIN 15 0
      let p := sarI (e * kp) 16
      let integ := if d.ang.clamped then d.ang.integ else d.ang.integ + sarI (e * ki) 16
      let inc : Int := d.angNom + integ + p
      let d := { d with ang := { d.ang with integ := integ, clamped := decide (inc < angLo ∨ angHi < inc) } }
      (d.wr Reg.ANG_INTEG (iw integ)).setInc inc
    else d
  d.angLock e

/-- A delivery of a source: it is valid from now, and enters the PLL when it was selected (R41, R45); a shade's PLL takes the
duty's heartbeats in place of it (R401). -/
def Dev.angDeliver (d : Dev) (src : Nat) (e : Int) : Dev :=
  let d := d.angRefresh
  let sel := decide (d.angSrc = src)
  let d := if src = 0 then { d with ang := { d.ang with msgTick := some d.now } } else { d with ang := { d.ang with zcTick := some d.now } }
  let d := d.angRefresh
  let d := if sel && d.angValid src && d.role != 2 then d.pllUpdate e else d
  d.angReturn

/-! ### TIM operations -/

/-- The holdover timer restarts (R33). -/
def Dev.holdRestart (d : Dev) : Dev := d.start Tm.hold

/-- VALID clears with LOST, and the angle source follows (R33, R41). -/
def Dev.timLost (d : Dev) : Dev :=
  ((d.setBit Reg.TIM_STAT 0 false).flag Reg.TIM_STAT 2).angLoss

/-- TIM_HOLDTO seconds have passed since the last restart. -/
def Dev.holdExpiry (d : Dev) : Dev :=
  if d.bit Reg.TIM_STAT 0 && d.due Tm.hold (secT (d.rd Reg.TIM_HOLDTO).toNat) then d.timLost else d

/-- TIM_INC, bounded with TIM_STAT.CLAMP (R31). -/
def Dev.timInc (d : Dev) (v : Word) : Dev :=
  let b := clampI 0x07FF0000 0x08010000 v.toNat
  let d := if b = v.toNat then d else d.flag Reg.TIM_STAT 3
  (d.wr Reg.TIM_INC (iw b)).holdRestart

/-- TIM_ADJSEC stages a step (R32). -/
def Dev.timAdjSec (d : Dev) (v : Word) : Dev := { d with tim := { d.tim with adjSec := v } }

/-- The local clock with a signed step of seconds and nanoseconds added, modulo its 48-bit seconds. -/
def TimSt.step (t : TimSt) (s n : Int) : TimSt :=
  let total := ((t.sec : Int) + s) * 1000000000 + (t.ns : Int) + n
  let m := total % ((2 ^ 48 : Nat) * 1000000000 : Int)
  { t with sec := (m / 1000000000).toNat, ns := (m % 1000000000).toNat }

/-- TIM_ADJNS applies the staged step, or is ignored as a whole out of range (R32). -/
def Dev.timAdjNs (d : Dev) (v : Word) : Dev :=
  if 999999999 < v.toInt.natAbs then d.flag Reg.TIM_STAT 3
  else
    let d := { d with tim := { d.tim.step d.tim.adjSec.toInt v.toInt with adjSec := 0 } }
    (d.flag Reg.TIM_STAT 1).holdRestart

/-- TIM_CTL: TCEN, and DECL declares the clock valid unless TIM_HOLDTO is zero (R33). -/
def Dev.timCtl (d : Dev) (v : Word) : Dev :=
  let d := d.plainWrite Reg.TIM_CTL v
  if bitOf v 1 && d.rd Reg.TIM_HOLDTO != 0 then
    ((d.setBit Reg.TIM_STAT 0 true).holdRestart).angReturn
  else d

/-- TIM_HOLDTO: zero while VALID ends it at once; a smaller value may expire the timer (R33). -/
def Dev.timHoldTo (d : Dev) (v : Word) : Dev :=
  let d := d.wr Reg.TIM_HOLDTO v
  if d.bit Reg.TIM_STAT 0 = false then d
  else if v = 0 then d.timLost
  else d.holdExpiry

/-- TIM_SNAP captures the clocks in one tick (R36). -/
def Dev.timSnap (d : Dev) : Dev :=
  let d := d.wr Reg.TIM_SNS (nw d.tim.ns)
  let d := d.wr Reg.TIM_SSEC_LO (nw d.tim.sec)
  let d := d.wr Reg.TIM_SSEC_HI (nw (d.tim.sec / 2 ^ 32 % 2 ^ 16))
  let d := d.wr Reg.TIM_STB_LO (nw d.tim.tb)
  let d := d.wr Reg.TIM_STB_HI (nw (d.tim.tb / 2 ^ 32))
  let d := d.wr Reg.ANG_SANG (nw d.ang.angle)
  d.wr Reg.ANG_SCYC (nw d.ang.cycle)

/-- A read of TIM_TB_LO latches the upper half (R36). -/
def Dev.timTbRead (d : Dev) : Word × Dev := (nw d.tim.tb, d.wr Reg.TIM_TB_HI (nw (d.tim.tb / 2 ^ 32)))

/-- A read of ANG_ANGLE latches the cycle count (Table 2.3). -/
def Dev.angAngleRead (d : Dev) : Word × Dev := (nw d.ang.angle, d.wr Reg.ANG_CYCLE (nw d.ang.cycle))

/-! ### ANG operations -/

/-- ANG_SRCPRI: the first valid source of the new order is selected with no wait (R42).  An earlier fall is forgotten, whether
the selection changes or not (DESIGN CHOICE: log entry 206). -/
def Dev.angSrcPri (d : Dev) (v : Word) : Dev :=
  let d := (d.plainWrite Reg.ANG_SRCPRI v).angRefresh
  let d := d.angChange d.angFirst 4
  { d with ang := { d.ang with fallen := none } }

/-- ANG_CTL: FORCEFR forces free-run, and its release selects the first valid source (R43, R44).  When PLLEN falls the
increment in use stays until ANG_INC_LO is written (DESIGN CHOICE: log entry 205). -/
def Dev.angCtl (d : Dev) (v : Word) : Dev :=
  let was := d.bit Reg.ANG_CTL 1
  let d := (d.plainWrite Reg.ANG_CTL v).angRefresh
  let d := if d.bit Reg.ANG_CTL 1 != was then d.angChange d.angFirst 3 else d
  d.slewAtOnce

/-- ANG_LOSSTO: a source that the new limit makes invalid is left at once, and its second of validity starts anew (R41, R42). -/
def Dev.angLossTo (d : Dev) (v : Word) : Dev := (d.angRefresh.plainWrite Reg.ANG_LOSSTO v).angLoss.angReturn

/-- ANG_PERR delivers a phase error from angle messages (R41, R45). -/
def Dev.angPerr (d : Dev) (v : Word) : Dev := d.angDeliver 0 v.toInt

/-- ANG_INC_HI is staged (R45). -/
def Dev.angIncHi (d : Dev) (v : Word) : Dev := { d with ang := { d.ang with incHi := some (fieldOf v 15 0) } }

/-- ANG_INC_LO takes the increment into use, with a staged upper half once (R45), and free-run its limit (R44). -/
def Dev.angIncLo (d : Dev) (v : Word) : Dev :=
  let hi := d.ang.incHi.getD (d.fld Reg.ANG_INC_HI 15 0)
  (({ d with ang := { d.ang with incHi := none } }).setInc (v.toNat + 2 ^ 32 * hi : Nat)).slewAtOnce

/-- A filtered active edge of ZC_IN captures the angle and is accepted or rejected (R47). -/
def Dev.zcEdge (d : Dev) : Dev :=
  let d := d.wr Reg.ANG_ZCCAP (nw d.ang.angle)
  let e := (d.rd Reg.ANG_ZCOFS - nw d.ang.angle).toInt
  let locked := d.bit Reg.ANG_STAT 4 && d.angSrc = 1
  let win := d.fld Reg.ANG_ZCCFG 31 16
  if locked && (win = 0 || win * 65536 < e.natAbs) then d.flag Reg.ANG_STAT 5
  else d.angDeliver 1 e

/-- ZC_IN has held `level` for `us` microseconds: the level counts once it has held for FILT, and a change of it to the
active side, high when POL is 0, is an active edge (R47). -/
def Dev.zcLevel (d : Dev) (level : Bool) (us : Nat) : Dev :=
  if us < d.fld Reg.ANG_ZCCFG 15 8 || d.pins.zcIn = level then d
  else
    let d := { d with pins := { d.pins with zcIn := level } }
    if level != d.bit Reg.ANG_ZCCFG 0 then d.zcEdge else d

/-! ### The tick (R30, R35, R39, R55) -/

/-- The effective increment in 2^-24 ns. -/
def Dev.timEff (d : Dev) : Nat :=
  let i : Int := (d.rd Reg.TIM_INC).toNat
  let c : Int := if d.bit Reg.TIM_CTL 0 then d.rdI Reg.TIM_TCORR else 0
  (i + c).toNat

/-- One tick of the local clock and the time base with effective increment `e`. -/
def TimSt.tick (t : TimSt) (e : Nat) : TimSt :=
  let f := t.frac + e
  let ns := t.ns + f / 2 ^ 24
  let g := t.tbFrac + e
  let us := 1000 * 2 ^ 24
  { t with
    frac := f % 2 ^ 24
    ns := ns % 1000000000
    sec := (t.sec + ns / 1000000000) % 2 ^ 48
    tbFrac := g % us
    tb := (t.tb + g / us) % 2 ^ 64 }

/-- Both timetable banks as bytes, bank 0 first: the content of mirror section 0x07 (R402). -/
def Dev.ttBytes (d : Dev) : List Byte :=
  (List.range 1024).flatMap (fun k => leBytes 4 (d.rd (0x40041000 + 4 * k)).toNat)

/-- The inactive bank becomes active; staged words 0 of the bank that becomes inactive are written into their
entries (R55). -/
def Dev.ttSwap (d : Dev) : Dev :=
  if d.bit Reg.TT_STAT 6 then
    let b := b2n (d.bit Reg.TT_STAT 7)
    let d := (List.range 256).foldl (fun d i =>
      match getO d.tt.stage i with
      | some w => d.wr (0x40041000 + 0x800 * b + 8 * i) w
      | none => d) d
    let d := { d with tt := { d.tt with stage := [], held := [] } }
    let d := (d.setBit Reg.TT_STAT 6 false).setBit Reg.TT_STAT 7 (b = 0)
    if d.fld Reg.TW_PSTAT 3 2 = 3 then d else d.mirror 0x07 (0x800 * (1 - b)) d.ttBytes
  else d

/-- The angle word advances by the integer part of the accumulated increment; at its wrap the cycle count
rises and a requested bank swap is made (R39, R55). -/
def Dev.angTick (d : Dev) : Dev :=
  let acc := d.ang.frac + d.angInc
  let a := d.ang.angle + acc / 2 ^ 16
  let wrap := decide (2 ^ 32 ≤ a)
  let d := { d with
    ang := { d.ang with
      prev := d.ang.angle
      angle := a % 2 ^ 32
      frac := acc % 2 ^ 16
      cycle := if wrap then (d.ang.cycle + 1) % 2 ^ 32 else d.ang.cycle }
    tt := { d.tt with done := false, held := [] } }
  if wrap then d.ttSwap else d

/-- The next advance of the angle word wraps. -/
def Dev.angWraps (d : Dev) : Bool :=
  decide (2 ^ 32 ≤ d.ang.angle + (d.ang.frac + d.angInc) / 2 ^ 16)

/-- Milliseconds of operation (R531). -/
def Dev.optTick (d : Dev) : Dev :=
  if d.pwr.optSub + 1 < 125000 then { d with pwr := { d.pwr with optSub := d.pwr.optSub + 1 } }
  else
    let n := (d.rd Reg.PWR_OPT_LO).toNat + 2 ^ 32 * d.fld Reg.PWR_OPT_HI 15 0 + 1
    let d := { d with pwr := { d.pwr with optSub := 0 } }
    (d.wr Reg.PWR_OPT_LO (nw n)).wr Reg.PWR_OPT_HI (nw (n / 2 ^ 32 % 2 ^ 16))

/-- The core clock counts go on by the four core cycles of a tick (R3, Table 12.1). -/
def Dev.coreTick (d : Dev) : Dev :=
  { d with sys := { d.sys with clk := d.sys.clk + 4 }, prog := { d.prog with clk := d.prog.clk + 4 } }

/-- The conditions of Standby (idle): SCC in OPEN, the program not in RUN, no session, alone (R527). -/
def Dev.idleOk (d : Dev) : Bool :=
  d.pwr.full && d.sccState = 0 && d.cycState != 2 && !d.bit Reg.SVC_STAT 7 && d.role = 0

/-- The level conditions of the start-up rule: JOINING, ROLE high, KILL_IN inactive, an epoch, and over a JOINING
partner the higher epoch, or position 1 with equal epochs (R393). -/
def Dev.joinOk (d : Dev) : Bool :=
  let e := (d.rd Reg.TW_EPOCH).toNat
  let pe := (d.rd Reg.TW_PEPOCH).toNat
  let joining := d.bit Reg.TW_STAT 6 && d.fld Reg.TW_PSTAT 3 0 = 2
  let one := !d.bit Reg.TW_CFG 1
  d.role = 2 && d.smode = 0 && !(d.pins.driveRole || d.pins.roleLow) && !d.pins.killIn && e != 0
    && (!joining || (d.bit Reg.TW_PSTAT 4 != d.bit Reg.TW_CFG 1 && (pe < e || (pe = e && one))))

/-- A timer runs while its condition holds. -/
def Dev.watch (d : Dev) (t : Nat) (ok : Bool) : Dev :=
  if ok then (if d.running t then d else d.start t) else if d.running t then d.stop t else d

/-- One tick of the 125 MHz reference. -/
def Dev.tick (d : Dev) : Dev :=
  let e := d.timEff
  let d := { d with now := d.now + 1, tim := d.tim.tick e }
  let d := d.optTick.coreTick.angTick
  (d.watch Tm.idle d.idleOk).watch Tm.join d.joinOk

/-! ### Commands -/

/-- A write of TIM_INC. -/
def execTimIncWrite (src : Writer) (v : Word) (s : State) : Host.Outcome State Fault Refusal :=
  s.lift (fun d => d.gate src Reg.TIM_INC (fun d => d.timInc v))

/-- A write of TIM_ADJSEC. -/
def execTimAdjsecWrite (src : Writer) (v : Word) (s : State) : Host.Outcome State Fault Refusal :=
  s.lift (fun d => d.gate src Reg.TIM_ADJSEC (fun d => d.timAdjSec v))

/-- A write of TIM_ADJNS. -/
def execTimAdjnsWrite (src : Writer) (v : Word) (s : State) : Host.Outcome State Fault Refusal :=
  s.lift (fun d => d.gate src Reg.TIM_ADJNS (fun d => d.timAdjNs v))

/-- A write of TIM_CTL. -/
def execDecl (src : Writer) (v : Word) (s : State) : Host.Outcome State Fault Refusal :=
  s.lift (fun d => d.gate src Reg.TIM_CTL (fun d => d.timCtl v))

/-- A write of TIM_HOLDTO. -/
def execTimHoldtoWrite (src : Writer) (v : Word) (s : State) : Host.Outcome State Fault Refusal :=
  s.lift (fun d => d.gate src Reg.TIM_HOLDTO (fun d => d.timHoldTo v))

/-- The holdover timer expires. -/
def execHoldoverExpiry (s : State) : Host.Outcome State Fault Refusal :=
  s.lift (fun d => d.holdExpiry)

/-- The 10 ms evaluation of the oscillator curve gives a correction, held within ±32,767 (R34). -/
def execTcorrEvaluation (corr : Word) (s : State) : Host.Outcome State Fault Refusal :=
  s.lift (fun d => d.wr Reg.TIM_TCORR (iw (clampI (-32767) 32767 corr.toInt)))

/-- A write of TIM_SNAP. -/
def execTimSnap (src : Writer) (s : State) : Host.Outcome State Fault Refusal :=
  s.lift (fun d => d.gate src Reg.TIM_SNAP (fun d => d.timSnap))

/-- A read of TIM_TB_LO. -/
def execTimTbLoRead (s : State) : Host.Outcome State Fault Refusal :=
  s.lift (fun d => d.timTbRead.2)

/-- A read of ANG_ANGLE. -/
def execAngAngleRead (s : State) : Host.Outcome State Fault Refusal :=
  s.lift (fun d => d.angAngleRead.2)

/-- The angle word wraps in the tick of its next advance. -/
def execAngleWrap (s : State) : Host.Outcome State Fault Refusal :=
  s.lift (fun d => if d.angWraps then d.angTick else d)

/-- The selected source has lapsed. -/
def execSourceLossTimeout (s : State) : Host.Outcome State Fault Refusal :=
  s.lift (fun d => d.angLoss)

/-- A higher source has been valid long enough. -/
def execSourceReturn (s : State) : Host.Outcome State Fault Refusal :=
  s.lift (fun d => d.angReturn)

/-- A write of ANG_SRCPRI. -/
def execAngSrcpriWrite (src : Writer) (v : Word) (s : State) : Host.Outcome State Fault Refusal :=
  s.lift (fun d => d.gate src Reg.ANG_SRCPRI (fun d => d.angSrcPri v))

/-- A write of ANG_CTL. -/
def execForcefrWrite (src : Writer) (v : Word) (s : State) : Host.Outcome State Fault Refusal :=
  s.lift (fun d => d.gate src Reg.ANG_CTL (fun d => d.angCtl v))

/-- A millisecond of free-run: no second step within 1 ms of the last (R44). -/
def Dev.slewDue (d : Dev) : Dev :=
  if d.running Tm.slew && !d.due Tm.slew (msT 1) then d else d.freeRunSlew.start Tm.slew

/-- A millisecond of free-run. -/
def execFreeRunSlew (s : State) : Host.Outcome State Fault Refusal :=
  s.lift (fun d => d.slewDue)

/-- A write of ANG_PERR. -/
def execAngPerrWrite (src : Writer) (v : Word) (s : State) : Host.Outcome State Fault Refusal :=
  s.lift (fun d => d.gate src Reg.ANG_PERR (fun d => d.angPerr v))

/-- A write of ANG_INC_HI. -/
def execAngIncHiWrite (src : Writer) (v : Word) (s : State) : Host.Outcome State Fault Refusal :=
  s.lift (fun d => d.gate src Reg.ANG_INC_HI (fun d => d.angIncHi v))

/-- A write of ANG_INC_LO. -/
def execAngIncLoWrite (src : Writer) (v : Word) (s : State) : Host.Outcome State Fault Refusal :=
  s.lift (fun d => d.gate src Reg.ANG_INC_LO (fun d => d.angIncLo v))

/-- ZC_IN has held a level for a time; an active edge that passes the filter delivers or rejects a PLL update. -/
def execZcEdge (level : Bool) (us : BitVec 16) (s : State) : Host.Outcome State Fault Refusal :=
  s.lift (fun d => d.zcLevel level us.toNat)

/-- One tick of the 125 MHz reference.  In Standby the operating time goes on (R531), and while RST_N holds a warm reset
also the local clock and the time base, which keep running through it (R30, R35). -/
def execReferenceTick (s : State) : Host.Outcome State Fault Refusal :=
  s.always (fun d =>
    if d.pwrState = 0 then { d with now := d.now + 1 }
    else if d.pwrState = 5 || d.pwrState = 6 then ({ d with now := d.now + 1 }).optTick
    else if d.asleep then ({ d with now := d.now + 1, tim := d.tim.tick d.timEff } : Dev).optTick
    else d.tick)

end Sys2Proof.Machine
end

