-- ==== Sys2Proof/Machine/Imp.lean ====
section
/-! DEFINITION. In-service impedance: the injection (R225 to R227), the bins' phases, sums, windows and results
(R217 to R224), and the writes of the IMP registers (R236, R237). -/

namespace Sys2Proof.Machine

/-! ### Angle travelled (R217) -/

/-- The total angle: cycle count and angle word. -/
def Dev.angTotal (d : Dev) : Nat := d.ang.cycle * 2 ^ 32 + d.ang.angle

/-- The angle travelled since the total angle `a`. -/
def Dev.angSinceT (d : Dev) (a : Nat) : Nat := (d.angTotal + 2 ^ 64 - a % 2 ^ 64) % 2 ^ 64

/-- A quotient of whole numbers rounded to nearest, ties upward. -/
def roundDiv (a : Int) (b : Nat) : Int := if b = 0 then 0 else (2 * a + b) / (2 * b : Nat)

/-! ### Injection (R225 to R227) -/

/-- MUL of injection descriptor `n`. -/
def Dev.injMul (d : Dev) (n : Nat) : Nat := d.fld (Reg.IMP_INJ n 0) 23 12

/-- DIVR of injection descriptor `n`. -/
def Dev.injDiv (d : Dev) (n : Nat) : Nat := d.fld (Reg.IMP_INJ n 1) 31 16

/-- Tone periods or chips in one period of the waveform: 1, 127 or 2,047. -/
def waveLen (wave : Nat) : Nat := if wave = 1 then 127 else if wave = 2 then 2047 else 1

/-- The numerator of P_inj over DIVR * 2^32. -/
def Dev.injNum (d : Dev) (i : Inj) : Nat := d.angSinceT i.start * d.injMul i.desc

/-- The applied peak A of R226 in mA: the least of AMP, IMP_INJMAX and the headroom. -/
def Dev.injPeak (d : Dev) (n : Nat) : Nat :=
  let ref := d.rdI Reg.DSP_TARGET
  let head := min (d.rdI Reg.EST_OUTCH - ref) (d.rdI Reg.EST_OUTDIS + ref)
  min (min (d.fld (Reg.IMP_INJ n 2) 23 0) (d.fld Reg.IMP_INJMAX 23 0)) (head / 1000).toNat

/-- The conditions of R225 and of Table 8.7 for a start. -/
def Dev.injOk (d : Dev) (n : Nat) : Bool :=
  d.bit Reg.IMP_CTL 1 && d.bit (Reg.IMP_INJ n 0) 31 && d.imp.inj.isNone && d.sccState = 3
    && d.fld Reg.LIM_ACT 4 1 = 0 && !(d.bit Reg.EST_FLAGS 5 && d.bit Reg.IMP_CTL 3)
    && d.fld (Reg.IMP_INJ n 0) 27 26 != 3 && d.injMul n != 0 && d.injDiv n != 0

/-- The injection enters a part. -/
def Dev.injPart (d : Dev) (i : Inj) (p : InjPart) : Dev :=
  let i := { i with part := p, flatNum := if p = .flat then d.injNum i else i.flatNum }
  let d := ({ d with imp := { d.imp with inj := some i } }).start Tm.inj
  d.setBit Reg.IMP_STAT 2 (p = .flat)

/-- Injection action 0x05 (R225): ignored for the running descriptor and for a PERIODS of zero, else started or
refused with INJREF and entry 0x4001.  A test injection gives way (R258). -/
def Dev.injStart (d : Dev) (n : Nat) : Dev :=
  if (match d.imp.inj with | some i => decide (i.desc = n) | none => false) || d.fld (Reg.IMP_INJ n 1) 15 0 = 0 then d
  else if d.injOk n = false then (d.flag Reg.IMP_STAT 7).hw 0x4001 [nw n]
  else
    let d := d.tinjAbort
    let a := d.injPeak n
    let i : Inj := { desc := n, part := .up, start := d.angTotal, flatNum := 0 }
    let d := d.setBit Reg.IMP_STAT 1 true
    let d := d.wr Reg.IMP_INJSTAT (nw (0x80000000 + n * 2 ^ 28 + a))
    let d := d.injPart i (if d.fld Reg.IMP_INJRAMP 15 0 = 0 then .flat else .up)
    if a = 0 then d.injAbort else d

/-- A set-point application lowers the peak when the headroom asks for it, never raises it (R226). -/
def Dev.injReduce (d : Dev) : Dev :=
  match d.imp.inj with
  | none => d
  | some i =>
    let a := d.injPeak i.desc
    if a < d.fld Reg.IMP_INJSTAT 23 0 then
      let d := ((d.setFld Reg.IMP_INJSTAT 23 0 a).flag Reg.IMP_STAT 5).hw 0x4003 [nw i.desc, nw a]
      if a = 0 then d.injAbort else d
    else d

/-- The present part of the injection ends when its time or its periods have run (R227). -/
def Dev.injPhaseEnd (d : Dev) : Dev :=
  match d.imp.inj with
  | none => d
  | some i =>
    let ramp := d.fld Reg.IMP_INJRAMP 15 0
    match i.part with
    | .up => if d.due Tm.inj (msT ramp) then d.injPart i .flat else d
    | .flat =>
      let need := d.fld (Reg.IMP_INJ i.desc 1) 15 0 * waveLen (d.fld (Reg.IMP_INJ i.desc 0) 27 26)
        * d.injDiv i.desc * 2 ^ 32
      if need ≤ d.injNum i - i.flatNum then
        let d := (d.injPart i .down).injDiscard i.desc
        if ramp = 0 then d.injOff else d
      else d
    | .down => if d.due Tm.inj (msT ramp) then d.injOff else d

/-- The register of a PRBS generator after `n` chips: taps 7 and 6, or 11 and 9. -/
def lfsr (wave : Nat) : Nat → Nat → Nat
  | 0, s => s
  | n + 1, s =>
    let (m, t) := if wave = 1 then (7, 6) else (11, 9)
    let b := (s / 2 ^ (m - 1) + s / 2 ^ (t - 1)) % 2
    lfsr wave n ((2 * s + b) % 2 ^ m)

/-- The start value of a PRBS generator. -/
def lfsrSeed (wave : Nat) : Nat := if wave = 1 then 127 else 2047

/-- Chip `n` of a PRBS, as +2^30 or -2^30. -/
def prbsChip (wave n : Nat) : Int :=
  if lfsr wave (n % waveLen wave) (lfsrSeed wave) % 2 = 1 then 2 ^ 30 else -(2 ^ 30)

/-- The injected value as a numerator and a denominator in mA (R226, R227). -/
def Dev.injValue (d : Dev) : Int × Nat :=
  match d.imp.inj with
  | none => (0, 1)
  | some i =>
    let wave := d.fld (Reg.IMP_INJ i.desc 0) 27 26
    let den := d.injDiv i.desc * 2 ^ 32
    let num := d.injNum i
    let w := if wave = 0 then sineOf num den else prbsChip wave (num / den)
    let ramp := msT (d.fld Reg.IMP_INJRAMP 15 0)
    let t := min ramp (d.since Tm.inj)
    let (rn, rd) :=
      match i.part with
      | .up => (t, ramp)
      | .flat => (1, 1)
      | .down => (ramp - t, ramp)
    (w * d.fld Reg.IMP_INJSTAT 23 0 * rn, 2 ^ 30 * max 1 rd)

/-! ### Bins (R217 to R221) -/

/-- Bin `b` is in use: EN, a source that is not reserved, MUL and DIVR not zero. -/
def Dev.binOn (d : Dev) (b : Nat) : Bool :=
  d.bit (Reg.IMP_BIN b 0) 31 && d.fld (Reg.IMP_BIN b 0) 30 29 != 3 && d.fld (Reg.IMP_BIN b 0) 23 12 != 0
    && d.fld (Reg.IMP_BIN b 1) 31 16 != 0

/-- MUL of bin `b`. -/
def Dev.binMul (d : Dev) (b : Nat) : Nat := d.fld (Reg.IMP_BIN b 0) 23 12

/-- DIVR of bin `b`. -/
def Dev.binDiv (d : Dev) (b : Nat) : Nat := d.fld (Reg.IMP_BIN b 1) 31 16

/-- WLEN of bin `b`. -/
def Dev.binLen (d : Dev) (b : Nat) : Nat := d.fld (Reg.IMP_BIN b 1) 15 0

/-- A bin whose phase starts anew. -/
def BinSt.fresh : BinSt where
  num := 0
  adv := 0
  last := none
  pub := none
  lastM := none
  openAt := none
  strobes := 0
  alias_ := false
  nyq := true
  windows := 0

/-- The module with bin `b` as `x`. -/
def Dev.setBin (d : Dev) (b : Nat) (x : Option BinSt) : Dev :=
  { d with imp := { d.imp with bins := putO d.imp.bins b x } }

/-- At a strobe every bin in use advances its phase; the first one after it starts is at 0 (R217). -/
def Dev.binsStrobe (d : Dev) : Dev :=
  (List.range 16).foldl (fun (d : Dev) b =>
    if d.binOn b then
      let x := (getO d.imp.bins b).getD BinSt.fresh
      let adv := match x.last with | some a => d.angSinceT a * d.binMul b | none => 0
      d.setBin b (some { x with num := x.num + adv, adv := adv, last := some d.angTotal })
    else d) d

/-- At a publication the phases of its sweep are kept for the accumulation (R224); a bin that started anew after the sweep's
strobe has none. -/
def Dev.binsPublish (d : Dev) (buf : Nat) : Dev :=
  let d := (List.range 16).foldl (fun (d : Dev) b =>
    match getO d.imp.bins b with
    | some x => if x.last.isSome then d.setBin b (some { x with pub := some (x.num, x.adv) }) else d
    | none => d) d
  { d with imp := { d.imp with pub := some (d.rdI Reg.EST_ILAT1, d.bit Reg.EST_STAT 0, buf) } }

/-- The source condition of bin `b` (R221). -/
def Dev.binCond (d : Dev) (b : Nat) : Bool :=
  let src := d.fld (Reg.IMP_BIN b 0) 30 29
  if src = 0 then d.bit Reg.ANG_STAT 4 && d.fld Reg.ANG_STAT 1 0 != 2
  else if src = 1 then
    match d.imp.inj with
    | some i => i.desc = d.fld (Reg.IMP_BIN b 0) 26 24 && i.part = .flat
    | none => false
  else src = 2

/-- The phase of a time of `t` ns at the increment in use, over DIVR * 2^51. -/
def Dev.nsPhase (d : Dev) (b t : Nat) : Nat := t * d.angInc * d.binMul b

/-- A phase over DIVR * 2^51 rounded to 2^-14 of a period, modulo a period (R218). -/
def Dev.phaseQ (d : Dev) (b : Nat) (p : Int) : Nat :=
  (roundDiv (p * 16384) (d.binDiv b * 2 ^ 51) % 16384).toNat

/-- A word of the sweep in buffer `buf`. -/
def Dev.sweepWord (d : Dev) (buf i : Nat) : Word :=
  d.word ((d.rd Reg.SWP_BUFBASE).toNat + 0x1000 + 0x2000 * buf + 4 * i)

/-- The value of a sweep word (R110). -/
def wordVal (w : Word) : Int := sx 24 (w.toNat / 256)

/-- The quality code of a sweep word. -/
def wordCode (w : Word) : Nat := w.toNat % 16

/-- The sums of a cell that has none. -/
def Acc.zero : Acc where
  vre := 0
  vim := 0
  ire := 0
  iim := 0
  s := 0
  n := 0
  gaps := 0

/-- The key of a cell's sums in a bin. -/
def accKey (b c : Nat) : Nat := 640 * b + c

/-- The sums of cell `c` in bin `b`. -/
def Dev.accOf (d : Dev) (b c : Nat) : Acc := (getO d.imp.acc (accKey b c)).getD Acc.zero

/-! ### Results (R222, R223) -/

/-- The result flags, real part, imaginary part and IPK of a cell's window.  Sums carry a scale of 2^60 (V, I)
and 2^30 (S); CCOR one of 2^14. -/
def Dev.impResult (d : Dev) (b c : Nat) (x : BinSt) (full : Bool) : Nat × Int × Int × Nat :=
  let a := d.accOf b c
  let cre := sx 16 (d.fld (Reg.IMP_BIN b 2) 31 16)
  let cim := sx 16 (d.fld (Reg.IMP_BIN b 2) 15 0)
  let dre := a.ire * cre - a.iim * cim
  let dim := a.ire * cim + a.iim * cre
  let m := (dre * dre + dim * dim).toNat
  let k : Int := 1000000000 * 16384
  let re := roundDiv (k * (a.vre * dre + a.vim * dim)) m
  let im := if x.nyq then 0 else roundDiv (k * (a.vim * dre - a.vre * dim)) m
  let i2 := (a.ire * a.ire + a.iim * a.iim).toNat
  let s := a.s.toNat * 2 ^ 30
  let ipk := if s = 0 then 0 else (2 * isqrt i2 + s * 500) / (s * 1000)
  let imin := d.fld (Reg.IMP_BIN b 3) 23 0
  let low := imin != 0 && decide (4 * i2 < (imin * s) * (imin * s))
  let gapx := decide (d.fld Reg.IMP_GAPMAX 9 0 * x.strobes < a.gaps * 1024)
  let prev := getN d.imp.prevN (accKey b c)
  let non := full || (prev != 0 && decide (1 + a.gaps < ((a.n : Int) - ((prev : Int) - 1)).natAbs))
  let dz := decide (m = 0)
  let big : Int := 2147483647
  let ovf := decide (big < re.natAbs) || decide (big < im.natAbs)
  let f := 64 * b2n low + 32 * b2n gapx + 16 * b2n non + 8 * b2n x.nyq + 4 * b2n ovf + 2 * b2n dz + b2n x.alias_
  if low || gapx || non || ovf || dz || x.alias_ then (f, 0, 0, 0) else (128 + f, re, im, ipk)

/-- The result entry of cell `c` of a bin that closes its window (Table 8.3, R222, R223). -/
def Dev.binEntry (d : Dev) (b win base : Nat) (x : BinSt) (full : Bool) (c : Nat) : Dev :=
  let a := d.accOf b c
  let (f, re, im, ipk) := d.impResult b c x full
  let d := { d with imp := { d.imp with prevN := putN d.imp.prevN (accKey b c) (a.n + 1) } }
  d.agentStore (base + 16 * (16 * c + b))
    (wordsBytes [iw re, iw im, nw (ipk % 2 ^ 24), nw (win % 65536 * 65536 + satN 255 a.gaps * 256 + f)])

/-- The window of bin `b` closes: results of every cell, then IMP_DONE; `full` when it reached 2^22 samples. -/
def Dev.binClose (d : Dev) (b : Nat) (x : BinSt) (full : Bool) : Dev :=
  let win := x.windows + 1
  let base := (d.rd Reg.IMP_RESBASE).toNat
  let d := (List.range 640).foldl (fun (d : Dev) c => d.binEntry b win base x full c) d
  let d := if d.bit Reg.IMP_DONE b then (d.flag Reg.IMP_STAT 8).hw 0x4020 [nw b] else d
  let d := (d.flag Reg.IMP_DONE b).start (0x300 + b)
  let d := d.accDrop b
  d.setBin b (some { x with openAt := none, strobes := 0, alias_ := false, nyq := true, windows := win })

/-- Cell `c` takes its part of the sweep in bin `b`: reference phases `qv` and `qi`, weight `w`, current `i`. -/
def Dev.binCell (d : Dev) (b c buf qv qi : Nat) (w i : Int) (ok : Bool) : Dev :=
  let a := d.accOf b c
  let sw := d.sweepWord buf c
  let q := wordCode sw
  let a :=
    if ok && (q = 0 || q = 3 || q = 5) then
      let v := wordVal sw
      { a with
        vre := a.vre + w * v * cosineOf qv 16384
        vim := a.vim - w * v * sineOf qv 16384
        ire := a.ire + w * i * cosineOf qi 16384
        iim := a.iim - w * i * sineOf qi 16384
        s := a.s + w
        n := a.n + 1 }
    else { a with gaps := a.gaps + 1 }
  { d with imp := { d.imp with acc := putO d.imp.acc (accKey b c) (some a) } }

/-- Bin `b` takes the published sweep: a window that has run its length closes, one that can opens, and an open
window adds every cell, closing at once with its 2^22nd sample (R219 to R221). -/
def Dev.binTake (d : Dev) (b : Nat) (i : Int) (noCur : Bool) (buf : Nat) : Dev :=
  match getO d.imp.bins b with
  | none => d
  | some x =>
    match x.pub with
    | none => d
    | some (num, adv) =>
      let d := d.setBin b (some { x with pub := none })
      if d.binOn b = false then d
      else
        let den := d.binDiv b * 2 ^ 51
        let tref := (d.word ((d.rd Reg.SWP_BUFBASE).toNat + 64 * buf + 0x28)).toNat % 65536
        let pv := num * 2 ^ 19 + d.nsPhase b tref
        let pi : Int := num * 2 ^ 19 - (d.nsPhase b (d.fld Reg.IMP_IGRP 15 0) : Nat)
        let len := d.binLen b
        let m := if len = 0 then 0 else pv / (den * len)
        if d.binCond b = false then
          let d := d.binDiscard b
          match getO d.imp.bins b with
          | some y => d.setBin b (some { y with lastM := some m })
          | none => d
        else
          let y := { x with pub := none }
          let close := match y.openAt with | some o => len != 0 && decide ((o + len) * den ≤ pv) | none => false
          let d := if close then d.binClose b y false else d
          let y := ((getO d.imp.bins b).getD BinSt.fresh)
          let y :=
            if y.openAt.isNone && (close || (match y.lastM with | some k => decide (k < m) | none => true)) then
              { y with openAt := some (m * len) }
            else y
          let y := { y with lastM := some m }
          match y.openAt with
          | none => (d.setBin b (some y)).impActive
          | some o =>
            let half := d.binDiv b * 2 ^ 32
            let y := { y with
              strobes := y.strobes + 1
              alias_ := y.alias_ || decide (half < 2 * adv)
              nyq := y.nyq && decide (2 * adv = half) }
            let d := (d.setBin b (some y)).impActive
            let w := if d.bit (Reg.IMP_BIN b 0) 28 then hannOf (pv - o * den) (den * max 1 len) else 2 ^ 30
            let ok := d.bit Reg.IMP_CTL 0 && !noCur
            let d := (List.range 640).foldl (fun (d : Dev) c => d.binCell b c buf (d.phaseQ b pv) (d.phaseQ b pi) w i ok) d
            if 2 ^ 22 ≤ y.strobes then (d.binClose b y true).impActive else d

/-- The accumulator takes the sweep published last, once. -/
def Dev.binAccumulate (d : Dev) : Dev :=
  match d.imp.pub with
  | none => d
  | some (i, noCur, buf) =>
    let d := { d with imp := { d.imp with pub := none } }
    if d.shedding then d else
    let d := (d.setBit Reg.IMP_STAT 4 noCur).ripRefresh
    (List.range 16).foldl (fun (d : Dev) b => d.binTake b i noCur buf) d

/-! ### Register writes (R237) -/

/-- A bin's window is discarded and its phase starts anew. -/
def Dev.binZero (d : Dev) (b : Nat) : Dev :=
  let d := d.binDiscard b
  match getO d.imp.bins b with
  | some x => d.setBin b (some { BinSt.fresh with windows := x.windows })
  | none => d

/-- A write of word `w` of bin `b`. -/
def Dev.binWrite (d : Dev) (b w : Nat) (v : Word) : Dev :=
  let was := d.bit (Reg.IMP_BIN b 0) 31
  let d := d.plainWrite (Reg.IMP_BIN b w) v
  let d := if w < 3 && (was || d.bit (Reg.IMP_BIN b 0) 31) then d.binZero b else d
  d.ripRefresh

/-- A write of IMP_CTL: CLRALL, and INJEN 0 aborts an injection (R227). -/
def Dev.impCtl (d : Dev) (v : Word) : Dev :=
  let d := d.plainWrite Reg.IMP_CTL v
  let d := if bitOf v 2 then (List.range 16).foldl (fun (d : Dev) b => d.binZero b) d else d
  if bitOf v 1 then d else d.injAbort

/-! ### Commands -/

/-- The present part of the injection ends. -/
def execInjectionPhaseEnd (s : State) : Host.Outcome State Fault Refusal :=
  s.lift (fun d => d.injPhaseEnd)

/-- The bins add the published sweep. -/
def execBinAccumulate (s : State) : Host.Outcome State Fault Refusal :=
  s.lift (fun d => d.binAccumulate)

/-- A write of IMP_CTL with CLRALL. -/
def execImpClearAll (src : Writer) (v : Word) (s : State) : Host.Outcome State Fault Refusal :=
  s.lift (fun d => d.gate src Reg.IMP_CTL (fun d => d.impCtl (withBit v 2 true)))

/-- A write of a word of a bin descriptor. -/
def execBinDescriptorWrite (src : Writer) (b : BitVec 4) (w : BitVec 2) (v : Word) (s : State) :
    Host.Outcome State Fault Refusal :=
  s.lift (fun d => d.gate src (Reg.IMP_BIN b.toNat w.toNat) (fun d => d.binWrite b.toNat w.toNat v))

end Sys2Proof.Machine
end

