-- ==== Sys2Proof/Machine/Protect.lean ====
section
/-! DEFINITION. Protection: the limit table, its comparators, the stale-data rule, the sweep watchdog, trips
and their clearing, LIM_TEST and the hardware loader (R146 to R165, R175, R179). -/

namespace Sys2Proof.Machine

/-! ### Entries (R146) -/

/-- Word `w` of limit entry `i`. -/
def Dev.limW (d : Dev) (i w : Nat) : Word := d.rd (Reg.LIM_ENT i w)

/-- The signed 24-bit limit of word `w` of entry `i`. -/
def Dev.limit (d : Dev) (i w : Nat) : Int := sx 24 ((d.limW i w).toNat / 256)

/-- The bits that word `w` of a limit entry holds (Table 6.1). -/
def limMask (w : Nat) : Word := if w = 1 then 0xFFFFFF07 else if w = 3 then 0xFFFFFF8F else 0xFFFFFFFF

/-- A comparison of entry `i` is enabled: 0 CHI, 1 CLO, 2 OHI, 3 OLO (Table 6.1, word 3 bits 0 to 3). -/
def Dev.limOn (d : Dev) (i k : Nat) : Bool := bitOf (d.limW i 3) k

/-- The event class an entry selects. -/
def Dev.limClass (d : Dev) (i : Nat) : Nat := fieldOf (d.limW i 1) 2 0

/-- The channel is a voltage channel. -/
def isVolt (i : Nat) : Bool := i < 640

/-- The channel is a temperature channel. -/
def isTemp (i : Nat) : Bool := 640 ≤ i && i < 1920

/-- The channel-status registers that hold something, by channel. -/
def Dev.limChans (d : Dev) : List Nat :=
  (d.regs.filter (fun r => decide (0x400A4000 ≤ r.1) && decide (r.1 < 0x400A6000))).map (fun r => (r.1 - 0x400A4000) / 4)

/-! ### Ochre of the classes (R152, R154, R156) -/

/-- The Ochre level of a class: of its entries' channels for 0 to 7, of the untrusted channels for 8, and of
its source above. -/
def Dev.ochreOf (d : Dev) (cls : Nat) : Bool :=
  if cls < 8 then d.limChans.any (fun i => bitOf (d.rd (Reg.LIM_CHST i)) 29 && d.limClass i = cls)
  else if cls = 8 then d.lim.staleOch.any (fun e => e.2)
  else getB d.lim.ochSrc cls

/-- The Ochre levels of classes 0 to 8 follow their channels. -/
def Dev.ochreRefresh (d : Dev) : Dev :=
  (List.range 9).foldl (fun d c => d.setOchre c (d.ochreOf c)) d

/-- The Ochre source of a class above 8 becomes `on`. -/
def Dev.srcOchre (d : Dev) (cls : Nat) (on : Bool) : Dev :=
  ({ d with lim := { d.lim with ochSrc := putB d.lim.ochSrc cls on } }).setOchre cls on

/-- The source condition of a class above 9 is present or has ended (R159). -/
def Dev.srcCond (d : Dev) (cls : Nat) (on : Bool) : Dev :=
  { d with lim := { d.lim with cond := putB d.lim.cond cls on } }

/-! ### Comparison (R149 to R152) -/

/-- A debounce count after a sample: up by 1 at a violation, else zero. -/
def bump (n : Nat) (hit : Bool) : Nat := if hit then satN 15 (n + 1) else 0

/-- The count reaches its debounce value; 0 and 1 assert at the first violation. -/
def reached (n deb : Nat) : Bool := n != 0 && max 1 deb ≤ n

/-- One sample `v` of channel `i`: its status is updated; the answer is the class whose Crimson asserts. -/
def Dev.compare (d : Dev) (i : Nat) (v : Int) (seq : Nat) : Dev × Option Nat :=
  let st := d.rd (Reg.LIM_CHST i)
  let chi := d.limOn i 0 && decide (d.limit i 0 ≤ v)
  let clo := d.limOn i 1 && decide (v ≤ d.limit i 1)
  let ohi := d.limOn i 2 && decide (d.limit i 2 ≤ v)
  let olo := d.limOn i 3 && decide (v ≤ d.limit i 3)
  let w0 := d.limW i 0
  let hyst : Int := 64 * (fieldOf (d.limW i 2) 7 0 : Nat)
  let cc := bump (fieldOf st 27 24) (chi || clo)
  let oc := bump (fieldOf st 23 20) (ohi || olo)
  let crim := reached cc (fieldOf w0 7 4)
  let och := reached oc (fieldOf w0 3 0)
  let inside :=
    (!d.limOn i 2 || decide (v < d.limit i 2 - hyst)) && (!d.limOn i 3 || decide (d.limit i 3 + hyst < v))
  let st := withField (withField st 27 24 cc) 23 20 oc
  let st := if crim && !bitOf st 31 then withBit (withBit st 31 true) 30 (!chi) else st
  let st :=
    if bitOf st 29 then (if inside then withBit st 29 false else st)
    else if och then withBit (withBit st 29 true) 28 (!ohi) else st
  let d := d.wr (Reg.LIM_CHST i) st
  let d := { d with lim := { d.lim with last := putO d.lim.last i (some { value := v, seq := seq }) } }
  (d, if crim then some (d.limClass i) else none)

/-- The Crimson onsets of the words of one slot: lowest class first (R160). -/
def Dev.crimOnsets (d : Dev) (l : List (Nat × Nat × Int)) (seq : Nat) : Dev :=
  (List.range 8).foldl (fun d c =>
    l.foldl (fun d e => if e.1 = c then d.latchCrim c (some e.2.1) e.2.2 (nw seq) else d) d) d

/-- The accepted words of one slot pass the comparators while LIM_CTL.EN is 1; each is a channel, its value
with the offset added, and the sequence by which it is new (R149, R161). -/
def Dev.compareWords (d : Dev) (ws : List (Nat × Int × Nat)) (seq : Nat) : Dev :=
  if d.bit Reg.LIM_CTL 0 = false then d
  else
    let (d, on) := ws.foldl (fun (a : Dev × List (Nat × Nat × Int)) w =>
      let (i, v, sq) := w
      let d := a.1
      let fresh := match getO d.lim.last i with | some x => decide (x.seq ≠ sq) | none => true
      if fresh then
        let (d, c) := d.compare i v sq
        match c with
        | some k => (d, a.2 ++ [(k, i, v)])
        | none => (d, a.2)
      else a) (d, [])
    (d.crimOnsets on seq).ochreRefresh

/-! ### Stale data and the sweep watchdog (R154, R155) -/

/-- The untrusted count of a channel under the stale rule moves on; the levels of class 8 follow.  Without STEN both stay as they
stand (DESIGN CHOICE: log entry 214). -/
def Dev.untrust (d : Dev) (i : Nat) (trusted : Bool) : Dev :=
  if bitOf (d.limW i 3) 7 = false then d
  else
    let a := Reg.LIM_CHST i
    let n := if trusted then 0 else satN 65535 (d.fld a 15 0 + 1)
    let d := d.setFld a 15 0 n
    let (o, c) := if isVolt i then (d.fld Reg.LIM_STALE 7 0, d.fld Reg.LIM_STALE 15 8)
      else (d.fld Reg.LIM_STALE 23 16, d.fld Reg.LIM_STALE 31 24)
    let d :=
      if n = 0 then { d with lim := { d.lim with staleOch := putB d.lim.staleOch i false } }
      else if o != 0 && o ≤ n then { d with lim := { d.lim with staleOch := putB d.lim.staleOch i true } }
      else d
    if c != 0 && c ≤ n then
      ({ d with lim := { d.lim with staleCrim := putB d.lim.staleCrim i true } }).latchCrim 8 (some i) 0
        (nw (d.fld Reg.SWP_LAST 31 16))
    else d

/-- A publication restarts the sweep watchdog and lets class 9 clear. -/
def Dev.swdPublished (d : Dev) : Dev :=
  ({ d with lim := { d.lim with swdArmed := true, pubSince9 := true } }).start Tm.swd

/-- The sweep watchdog expires. -/
def Dev.swdExpiry (d : Dev) : Dev :=
  let n := d.fld Reg.LIM_SWDTO 23 0
  if d.lim.swdArmed && n != 0 && d.due Tm.swd (usT n) then d.crim 9 else d

/-! ### Entry writes (R147, R148) -/

/-- Words 0 to 2 are staged. -/
def Dev.limStage (d : Dev) (i w : Nat) (v : Word) : Dev :=
  { d with lim := { d.lim with stage := putO d.lim.stage (4 * i + w) (some v) } }

/-- The word in force or staged. -/
def Dev.limStaged (d : Dev) (i w : Nat) : Word := (getO d.lim.stage (4 * i + w)).getD (d.limW i w)

/-- The four words of an entry as R148 changes them under the lock. -/
def Dev.envelope (d : Dev) (i : Nat) (w0 w1 w2 w3 : Word) : Word × Word × Word × Word :=
  let (eh, el) := if isVolt i then (Reg.LIM_ENVV_HI, Reg.LIM_ENVV_LO) else (Reg.LIM_ENVT_HI, Reg.LIM_ENVT_LO)
  let hi := min (sx 24 (w0.toNat / 256)) (sx 24 (d.fld eh 23 0))
  let lo := max (sx 24 (w1.toNat / 256)) (sx 24 (d.fld el 23 0))
  let w0 := withField (withField w0 31 8 (hi % 16777216).toNat) 7 4 (min 4 (fieldOf w0 7 4))
  let w1 := withField (withField w1 31 8 (lo % 16777216).toNat) 2 0 (if isVolt i then 0 else 1)
  let w3 := withBit (withBit w3 0 true) 1 true
  let w3 := if isVolt i then withBit w3 7 true else w3
  (w0, w1, w2, w3)

/-- A word 3 write commits the entry; a change that R148 makes sets ENVCLAMP with entry 0x2002.  A level that the channel holds
counts under the new CLASS at once (DESIGN CHOICE: log entry 213). -/
def Dev.limCommit (d : Dev) (i : Nat) (v : Word) : Dev :=
  let w0 := d.limStaged i 0
  let w1 := d.limStaged i 1 &&& limMask 1
  let w2 := d.limStaged i 2
  let w3 := v &&& limMask 3
  let bound := d.bit Reg.LIM_CTL 1 && decide (i < 1920)
  let (x0, x1, x2, x3) := if bound then d.envelope i w0 w1 w2 w3 else (w0, w1, w2, w3)
  let changed := decide ((x0, x1, x2, x3) ≠ (w0, w1, w2, w3))
  let d := (((d.wr (Reg.LIM_ENT i 0) x0).wr (Reg.LIM_ENT i 1) x1).wr (Reg.LIM_ENT i 2) x2).wr (Reg.LIM_ENT i 3) x3
  let st := (List.range 3).foldl (fun l w => putO l (4 * i + w) none) d.lim.stage
  let d := { d with lim := { d.lim with stage := st } }
  let d := if changed then (d.flag Reg.LIM_STAT 5).hw 0x2002 [nw i] else d
  d.ochreRefresh

/-- A write to word `w` of entry `i`. -/
def Dev.limWrite (d : Dev) (i w : Nat) (v : Word) : Dev :=
  if w = 3 then d.limCommit i v else d.limStage i w v

/-! ### Clearing (R159, R160) -/

/-- A channel's last sample lies strictly inside its enabled Crimson limits. -/
def Dev.insideCrim (d : Dev) (i : Nat) : Bool :=
  match getO d.lim.last i with
  | none => true
  | some x =>
    (!d.limOn i 0 || decide (x.value < d.limit i 0)) && (!d.limOn i 1 || decide (d.limit i 1 < x.value))

/-- A channel's untrusted count no longer holds class 8. -/
def Dev.trustedNow (d : Dev) (i : Nat) : Bool :=
  let n := d.fld (Reg.LIM_CHST i) 15 0
  let c := if isVolt i then d.fld Reg.LIM_STALE 15 8 else d.fld Reg.LIM_STALE 31 24
  c = 0 || n < c

/-- Each channel of the class whose cause has gone clears its own latch; the answer is whether any cause of
the class remains. -/
def Dev.crimCauses (d : Dev) (cls : Nat) : Dev × Bool :=
  if cls < 8 then
    let held := d.limChans.filter (fun i => bitOf (d.rd (Reg.LIM_CHST i)) 31 && d.limClass i = cls)
    let d := held.foldl (fun d i => if d.insideCrim i then d.setBit (Reg.LIM_CHST i) 31 false else d) d
    (d, held.any (fun i => bitOf (d.rd (Reg.LIM_CHST i)) 31))
  else if cls = 8 then
    let keep := d.lim.staleCrim.filter (fun e => e.2 && !d.trustedNow e.1)
    ({ d with lim := { d.lim with staleCrim := keep } }, !keep.isEmpty)
  else if cls = 9 then (d, !d.lim.pubSince9)
  else if cls = 12 then (d, d.tripLow)
  else if cls = 13 then (d, false)
  else (d, getB d.lim.cond cls)

/-- A clear request for one class. -/
def Dev.clearClass (d : Dev) (cls : Nat) : Dev :=
  if d.bit Reg.LIM_CRIM cls = false then d
  else
    let (d, left) := d.crimCauses cls
    if left then (d.flag Reg.LIM_STAT 4).hw 0x2130 [nw cls]
    else (d.setBit Reg.LIM_CRIM cls false).hw (0x2120 + cls) [nw cls]

/-- LIM_TRIPCLR: each requested class clears when its cause has gone; the actions follow, and LIM_FIRST is
free again when no latch is left (R159, R160). -/
def Dev.tripClear (d : Dev) (v : Word) : Dev :=
  let d := (List.range 16).foldl (fun d c => if bitOf v c then d.clearClass c else d) d
  let d := if d.fld Reg.LIM_CRIM 15 0 = 0 then d.setBit Reg.LIM_FIRST 31 false else d
  d.updateAct

/-! ### LIM_SWTRIP, LIM_CTL, LIM_TEST -/

/-- LIM_SWTRIP: CRIM latches class 13, OCH asserts or releases its Ochre (R175). -/
def Dev.swTrip (d : Dev) (v : Word) : Dev :=
  let d := (d.plainWrite Reg.LIM_SWTRIP v).srcOchre 13 (bitOf v 0)
  if bitOf v 1 then d.crim 13 else d

/-- LIM_TEST: each enabled comparison of the entry is tried; `bad` names those that fail.  A failure makes
entry 0x2003, and system firmware that manages LIM latches class 13 (R165). -/
def Dev.limTest (d : Dev) (v : Word) (bad : BitVec 4) : Dev :=
  if bitOf v 31 = false then d
  else
    let i := fieldOf v 10 0
    let on := (d.limW i 3).toNat % 16
    let f := bad.toNat &&& on
    if f = 0 then d.wr Reg.LIM_TESTSTAT 0x40000000
    else
      let d := (d.wr Reg.LIM_TESTSTAT (nw (0x20000000 + f))).flag Reg.LIM_STAT 6
      let d := d.hw 0x2003 [nw i, nw f]
      if !d.manages 10 then d else d.crim 13

/-! ### The hardware loader (R162)

The items of a header copy stand in the order Table 6.4 lists them, as 32-bit words from offset 0, with the
CRC-32C in the last word of the copy (DESIGN CHOICE: log entry 30). -/

/-- The address of header copy `k`. -/
def shadowHdr (k : Nat) : Nat := 0x20700000 + 0x400 * k

/-- Header copy `k` passes its check. -/
def Dev.hdrOk (d : Dev) (k : Nat) : Bool := d.word (shadowHdr k + 1020) = crc32c (d.bytes (shadowHdr k) 1020)

/-- The header copy the loader takes. -/
def Dev.hdrPick (d : Dev) : Option Nat :=
  let s (k : Nat) := (d.word (shadowHdr k)).toNat
  if d.hdrOk 0 then (if d.hdrOk 1 && s 0 < s 1 then some 1 else some 0)
  else if d.hdrOk 1 then some 1 else none

/-- The kind of a channel: 0 voltage, 1 temperature, 2 auxiliary. -/
def chanKind (i : Nat) : Nat := if isVolt i then 0 else if isTemp i then 1 else 2

/-- Entry `i` as the words `f` gives. -/
def Dev.loadEntry (d : Dev) (i : Nat) (f : Nat → Word) : Dev :=
  (List.range 4).foldl (fun d w => d.wr (Reg.LIM_ENT i w) (f w &&& limMask w)) d

/-- The envelope, stale limits, watchdog and rows of header copy `k`; bit 0 of the Crimson row of class 12 is
written 0 (R158). -/
def Dev.loadHeader (d : Dev) (k : Nat) : Dev :=
  let h := shadowHdr k
  let d := (List.range 6).foldl (fun d n => d.wr (Reg.LIM_ENVV_HI + 4 * n) (d.word (h + 4 + 4 * n) &&& 0xFFFFFF)) d
  let d := d.wr Reg.LIM_STALE (d.word (h + 28))
  let d := d.wr Reg.LIM_SWDTO (d.word (h + 32) &&& 0xFFFFFF)
  (List.range 32).foldl (fun d n =>
    let r := d.word (h + 36 + 4 * n) &&& 0x7F
    d.wr (Reg.LIM_TRIPMAP n) (if n = 25 then r &&& 0x7E else r)) d

/-- The built-in set: the factory envelope as Crimson limits of every entry (R162). -/
def Dev.loadBuiltIn (d : Dev) : Dev :=
  (List.range 2048).foldl (fun (d : Dev) i =>
    let k := chanKind i
    let hi := d.fld (Reg.LIM_ENVV_HI + 8 * k) 23 0
    let lo := d.fld (Reg.LIM_ENVV_LO + 8 * k) 23 0
    d.loadEntry i (fun w =>
      if w = 0 then nw (hi * 256) else if w = 1 then nw (lo * 256 + k)
      else if w = 2 then 0 else nw (if k = 0 then 0x83 else 0x03))) d

/-- The loader's work on limits: header, table or fallback entries, or the built-in set; then EN, LOCK and
LOADED. -/
def Dev.limitLoad (d : Dev) : Dev :=
  let d :=
    match d.hdrPick with
    | none => d.loadBuiltIn.setBit Reg.LIM_STAT 1 true
    | some k =>
      let d := d.loadHeader k
      if d.word 0x20709000 = crc32c (d.bytes 0x20701000 32768) then
        (List.range 2048).foldl (fun (d : Dev) i => d.loadEntry i (fun w => d.word (0x20701000 + 16 * i + 4 * w))) d
      else
        let d := (List.range 2048).foldl (fun (d : Dev) i =>
          d.loadEntry i (fun w => d.word (shadowHdr k + 164 + 16 * chanKind i + 4 * w))) d
        d.setBit Reg.LIM_STAT 2 true
  (d.wr Reg.LIM_CTL 3).setBit Reg.LIM_STAT 0 true

/-! ### Commands -/

/-- A write to word 0, 1 or 2 of a limit entry; word 3 commits it. -/
def execLimEntryWordWrite (src : Writer) (i : BitVec 11) (w : BitVec 2) (v : Word) (s : State) :
    Host.Outcome State Fault Refusal :=
  s.lift (fun d => d.gate src (Reg.LIM_ENT i.toNat w.toNat) (fun d => d.limWrite i.toNat w.toNat v))

/-- A write to word 3 of a limit entry. -/
def execLimEntryCommit (src : Writer) (i : BitVec 11) (v : Word) (s : State) : Host.Outcome State Fault Refusal :=
  s.lift (fun d => d.gate src (Reg.LIM_ENT i.toNat 3) (fun d => d.limCommit i.toNat v))

/-- The sweep watchdog expires. -/
def execSweepWatchdog (s : State) : Host.Outcome State Fault Refusal :=
  s.lift (fun d => d.swdExpiry)

/-- Other devices hold TRIP_N low for 1 µs, or release it; low while this module does not drive it latches
class 12 (R156). -/
def execExternalTrip (low : Bool) (s : State) : Host.Outcome State Fault Refusal :=
  s.lift (fun d =>
    let d := { d with pins := { d.pins with tripHigh := !low } }
    if low && d.act 0 = false then d.crim 12 else d)

/-- A write of LIM_TRIPCLR. -/
def execTripClear (src : Writer) (v : Word) (s : State) : Host.Outcome State Fault Refusal :=
  s.lift (fun d => d.gate src Reg.LIM_TRIPCLR (fun d => d.tripClear v))

/-- A write of LIM_SWTRIP that latches Crimson of class 13. -/
def execSoftwareTrip (src : Writer) (v : Word) (s : State) : Host.Outcome State Fault Refusal :=
  s.lift (fun d => d.gate src Reg.LIM_SWTRIP (fun d => d.swTrip v))

/-- A write of LIM_SWTRIP that moves Ochre of class 13. -/
def execSoftwareOchre (src : Writer) (och : Bool) (s : State) : Host.Outcome State Fault Refusal :=
  s.lift (fun d => d.gate src Reg.LIM_SWTRIP (fun d => d.swTrip (nw (b2n och))))

/-- A write of LIM_TEST; `bad` names the comparisons that fail in hardware. -/
def execLimTest (src : Writer) (v : Word) (bad : BitVec 4) (s : State) : Host.Outcome State Fault Refusal :=
  s.lift (fun d => d.gate src Reg.LIM_TEST (fun d => d.limTest v bad))

/-- A write of LIM_CTL. -/
def execLimLock (src : Writer) (v : Word) (s : State) : Host.Outcome State Fault Refusal :=
  s.lift (fun d => d.gate src Reg.LIM_CTL (fun d => d.plainWrite Reg.LIM_CTL v))

end Sys2Proof.Machine
end

