-- ==== Sys2Proof/Machine/Scc.lean ====
section
/-! DEFINITION. Safe contactor control: commands, timers, feedback and diagnostics (R166 to R172, R178). -/

namespace Sys2Proof.Machine

/-! ### Readers -/

/-- The filtered feedback inputs FB4 to FB1, 1 closed. -/
def Dev.fb (d : Dev) : Nat := d.fld Reg.SCC_STAT 3 0

/-- The feedback shows both contactors open: FB1 and FB3 open, FB2 and FB4 closed. -/
def Dev.fbOpen (d : Dev) : Bool := d.fb = 10

/-- A field of SCC_TIME in milliseconds, as ticks. -/
def Dev.sccMs (d : Dev) (hi lo : Nat) : Nat := msT (d.fld Reg.SCC_TIME hi lo)

/-- A latched Crimson class has CONT or CONTNOW in its row. -/
def Dev.crimOpens (d : Dev) : Bool :=
  (List.range 16).any (fun c => d.bit Reg.LIM_CRIM c && d.row (2 * c + 1) &&& 0xC != 0)

/-- The fault bits of SCC_DIAG (Table 6.7, kind Fault). -/
def sccFaultBits : Nat := 0xBF

/-! ### Measuring an opening (R171) -/

/-- Microseconds since a timer's start, saturating at 16 bits. -/
def Dev.usSince (d : Dev) (t : Nat) : Nat := satN 65535 (d.since t / 125)

/-- The mirror contacts of an opening have done: a zero-current test whose FB1 has opened goes to the ageing ledger with its
drop-out time and the successive levels of the feedback inputs. -/
def Dev.mirrorEnd (d : Dev) : Dev :=
  match d.scc.mirror with
  | none => d
  | some l =>
    let e := if d.scc.zeroCur && d.scc.openCur.isNone then [(d.fld Reg.SCC_DROP 15 0, l)] else []
    { d with scc := { d.scc with mirror := none, tests := d.scc.tests ++ e } }

/-- A feedback input has changed: an opening's sequence takes the new levels, and is whole once FB1 is open and FB2 closed. -/
def Dev.mirrorNote (d : Dev) : Dev :=
  let d := { d with scc := { d.scc with mirror := d.scc.mirror.map (· ++ [d.fb]) } }
  if d.scc.openCur.isNone && !d.bit Reg.SCC_STAT 0 && d.bit Reg.SCC_STAT 1 then d.mirrorEnd else d

/-- FB1 or FB3 has opened after a switch-off: its drop-out time, whether the opening leads into OPENING or FAULT. -/
def Dev.dropMeasure (d : Dev) : Dev :=
  let d :=
    if d.running Tm.drop2 && d.bit Reg.SCC_STAT 2 = false then
      (d.setFld Reg.SCC_DROP 31 16 (d.usSince Tm.drop2)).stop Tm.drop2
    else d
  if d.scc.openCur.isSome && !d.bit Reg.SCC_STAT 0 then
    let d := (d.setFld Reg.SCC_DROP 15 0 (d.usSince Tm.drop1)).stop Tm.drop1
    { d with scc := { d.scc with openCur := none } }
  else d

/-! ### Commands (R166) -/

/-- Every condition of R166 for a close holds, and the module is not in recovery (R516); `cue` when the command came on the duty's cue. -/
def Dev.closeOk (d : Dev) (cue : Bool) : Bool :=
  d.sccState = 0 && !d.bit Reg.SVC_STAT 3 && d.bit Reg.SCC_CTL 0 && d.bit Reg.LIM_CTL 0 && !d.bit Reg.LIM_STAT 1 && !d.crimOpens
    && d.lim.swdArmed && d.fbOpen && (d.leads || (d.inStep && cue))

/-- An open request stands: CONTNOW is asserted, or CONT whose break delay has run (R157, R166). -/
def Dev.openHeld (d : Dev) : Bool := d.act 3 || (d.act 2 && !d.bit Reg.SCC_STAT 7)

/-- A close: to PRECHARGE, or to CLOSING for a PCTIME of zero, from where an open request that stands leads on to OPENING;
refused with entry 0x2210. -/
def Dev.sccClose (d : Dev) (cue : Bool) : Dev :=
  if d.closeOk cue then
    let d := if d.fld Reg.SCC_PCCFG 31 16 = 0 then d.k2On.k1On.sccSet 2 else d.k2On.sccSet 1
    if d.openHeld then d.openReq else d
  else d.hw 0x2210 []

/-- An acknowledge leaves FAULT when no fault bit is set and both contactors are open. -/
def Dev.sccAck (d : Dev) : Dev :=
  if d.sccState = 5 && d.fld Reg.SCC_DIAG 8 0 &&& sccFaultBits = 0 && d.fbOpen then
    (d.sccSet 0).srcCond 11 false
  else d

/-- An SCC command: 1 close, 2 open, 3 acknowledge.  A duty marks one it performs with cue kind 0x7. -/
def Dev.sccCmd (d : Dev) (cue : Bool) (n : Nat) : Dev :=
  if n = 1 then
    let d := if d.closeOk cue then d.cue 7 1 else d
    d.sccClose cue
  else if n = 2 then (d.cue 7 2).openReq
  else if n = 3 then (d.cue 7 3).sccAck
  else d

/-- SCC_CMD. -/
def Dev.sccCmdWrite (d : Dev) (v : Word) : Dev := d.sccCmd false (fieldOf v 1 0)

/-- SCC_STAT.NOTEST reads whether OPINT or OPW is zero (R170). -/
def Dev.noTest (d : Dev) : Dev :=
  d.setBit Reg.SCC_STAT 11 (d.fld Reg.SCC_TEST 31 16 = 0 || d.fld Reg.SCC_TEST 8 0 = 0)

/-- SCC_TEST: an OPW above 300 is stored as 300 (R170). -/
def Dev.sccTestWrite (d : Dev) (v : Word) : Dev :=
  (d.plainWrite Reg.SCC_TEST (withField v 8 0 (min 300 (fieldOf v 8 0)))).noTest

/-- SCC_DIAG: written bits clear; class 11's condition has ended when no fault bit is set and the state is
not FAULT (R159). -/
def Dev.sccDiagWrite (d : Dev) (v : Word) : Dev :=
  let d := d.plainWrite Reg.SCC_DIAG v
  if d.sccState != 5 && d.fld Reg.SCC_DIAG 8 0 &&& sccFaultBits = 0 then d.srcCond 11 false else d

/-- A diagnostic of kind Fault: FAULT, both channels off, Crimson of class 11 (R170). -/
def Dev.sccFail (d : Dev) (b : Nat) : Dev := (d.srcCond 11 true).sccFault b

/-- A diagnostic of kind Record: its bit, its entry, and Ochre of class 11 (R170). -/
def Dev.sccNote (d : Dev) (b : Nat) : Dev :=
  ({ d with lim := { d.lim with ochSrc := putB d.lim.ochSrc 11 true } }).sccRecord b

/-! ### Timers and feedback -/

/-- The break delay has run: the open request follows (R168). -/
def Dev.brkExpiry (d : Dev) : Dev :=
  if d.due Tm.brk (usT (d.fld Reg.SCC_BRKDLY 15 0)) then
    ((d.stop Tm.brk).setBit Reg.SCC_STAT 7 false).openReq
  else d

/-- PICKUP of a channel has run: it holds, unless HOLD is zero (R167). -/
def Dev.pickExpiry (d : Dev) (k2 : Bool) : Dev :=
  let t := if k2 then Tm.pick2 else Tm.pick1
  if d.due t (d.sccMs 31 24) then
    let d := d.stop t
    if d.fld Reg.SCC_ECON 7 0 = 0 then d
    else if k2 then { d with scc := { d.scc with k2 := if d.scc.k2 = .full then .hold else d.scc.k2 } }
    else { d with scc := { d.scc with k1 := if d.scc.k1 = .full then .hold else d.scc.k1 } }
  else d

/-- The precharge voltage criterion: |V_string - V_link| at most PCHV half per cent of V_string; V_string is
in µV and V_link in mV (R166, R241). -/
def Dev.prechargeMet (d : Dev) : Bool :=
  let vs := d.swp.vstr
  let vl := 1000 * d.rdI (Reg.SDM_VAL (d.fld Reg.SCC_PCCFG 2 0))
  let h : Int := d.fld Reg.SCC_PCCFG 15 8
  h != 0 && decide (200 * ((vs - vl).natAbs : Int) ≤ h * vs)

/-- Precharge is done: CLOSING, with K1 on as well. -/
def Dev.prechargeDone (d : Dev) : Dev :=
  if d.sccState = 1 && d.due Tm.scc (d.sccMs 31 24) && d.prechargeMet then d.k1On.sccSet 2 else d

/-- PCTIME has run in PRECHARGE: OPEN with PCTO, or CLOSING when no voltage criterion applies. -/
def Dev.prechargeTimeout (d : Dev) : Dev :=
  if d.sccState = 1 && d.due Tm.scc (msT (d.fld Reg.SCC_PCCFG 31 16)) then
    if d.fld Reg.SCC_PCCFG 15 8 = 0 then d.k1On.sccSet 2
    else (d.k2Off.sccSet 0).sccNote 8
  else d

/-- FB1 is closed and FB2 open in CLOSING: CLOSED, K2 off, and the records' Ochre ends. -/
def Dev.closeConfirm (d : Dev) : Dev :=
  if d.sccState = 2 && d.bit Reg.SCC_STAT 0 && !d.bit Reg.SCC_STAT 1 then
    let d := d.k2Off.sccSet 3
    ({ d with scc := { d.scc with record := false } }).srcOchre 11 false
  else d

/-- FBTO has run in CLOSING: OPENING with NOCLOSE. -/
def Dev.closeTimeout (d : Dev) : Dev :=
  if d.sccState = 2 && d.due Tm.scc (d.sccMs 15 8) then (d.sccNote 6).openReq else d

/-- The feedback shows both contactors open in OPENING: OPEN. -/
def Dev.openConfirm (d : Dev) : Dev :=
  if d.sccState = 4 && d.fbOpen then d.dropMeasure.sccSet 0 else d

/-- The module is one of a pair. -/
def Dev.paired (d : Dev) : Bool := d.role != 0

/-- The timer of an opening's DROPTO: from the switch-off, or from KILL_OUT (R172). -/
def Dev.dropTm (d : Dev) : Nat := if d.sccState = 5 && !d.scc.secondDrop then Tm.drop1 else Tm.scc

/-- DROPTO has run in OPENING, or after an opening into FAULT, and the opening is not confirmed: WELD, and FAULT; in a pair
with FB1 closed only after a second DROPTO (R170, R172). -/
def Dev.dropTimeout (d : Dev) : Dev :=
  let opening := d.sccState = 4 || (d.sccState = 5 && d.scc.openCur.isSome && !d.bit Reg.SCC_DIAG 7)
  if opening && d.due d.dropTm (d.sccMs 23 16) && !(d.paired && d.bit Reg.SCC_STAT 0 && !d.scc.secondDrop) then
    d.dropMeasure.mirrorEnd.sccFail 7
  else d

/-- KILL_IN removes the power of the outputs of a module of a pair unless its own KILL_OUT is asserted (R382); while it does,
and for 10 ms after the power returns, the diagnostics of R170 judge nothing (R483, R170). -/
def Dev.powerRefresh (d : Dev) : Dev :=
  let on := d.role = 0 || !d.pins.killIn || d.pins.killOut
  if d.pins.outPower = on then d
  else
    let d := { d with pins := { d.pins with outPower := on } }
    if on then d.start Tm.diag else ({ d with scc := { d.scc with diagOff := true } }).stop Tm.diag

/-- KILL_OUT becomes asserted or released. -/
def Dev.setKillOut (d : Dev) (on : Bool) : Dev :=
  (({ d with pins := { d.pins with killOut := on } }).setBit Reg.TW_STAT 9 on).powerRefresh

/-- The channels of a module of a pair are off and FB1 is still closed after DROPTO: KILL_OUT, and a second
DROPTO runs (R172). -/
def Dev.killAssert (d : Dev) : Dev :=
  let st := d.sccState
  if d.paired && (st = 4 || st = 5) && d.scc.k1 = .off && d.scc.k2 = .off && d.bit Reg.SCC_STAT 0
      && d.due d.dropTm (d.sccMs 23 16) && !d.scc.secondDrop then
    let d := (d.setKillOut true).hw 0x2212 []
    ({ d with scc := { d.scc with secondDrop := true } }).start Tm.scc
  else d

/-! ### Diagnostics (R170) -/

/-- The test interval of a switch has run; the low side's test comes OPINT/2 after the high side's. -/
def Dev.swDue (d : Dev) (k2 high : Bool) : Bool :=
  let n := d.fld Reg.SCC_TEST 31 16
  n != 0 && (!d.running (Tm.swTest k2 high) || d.due (Tm.swTest k2 high) (secT n)) &&
    (high || d.due (Tm.swTest k2 true) (secT n / 2))

/-- A switch test.  With `pulse` some (k2, high) the switch is pulsed once its interval has run: off in CLOSED, alone on in
OPEN; with none the readbacks are judged outside the pulses, each against its own switch's drive.  `rb` holds the readbacks: bit 0
K1 high, 1 K1 low, 2 K2 high, 3 K2 low; bits 4 and 5 say whether the 20 kHz chopper of K1 and K2 drives the high-side
switch on at this look, which counts in hold (R167). -/
def Dev.switchTest (d : Dev) (pulse : Option (Bool × Bool)) (rb : BitVec 6) : Dev :=
  if d.scc.diagOff then d
  else
    let r (k2 high : Bool) : Bool := rb.getLsbD (2 * b2n k2 + b2n (!high))
    match pulse with
    | some (k2, high) =>
      if d.swDue k2 high = false then d
      else
      let d := d.start (Tm.swTest k2 high)
      if d.sccState = 3 && !k2 then
        if d.fld Reg.SCC_TEST 8 0 = 0 then d
        else if r k2 high then d.sccFail (if high then 0 else 1) else d
      else if d.sccState = 0 then
        if r k2 high && !r k2 (!high) then d else d.sccFail 2
      else d
    | none =>
      let bad (k2 : Bool) (c : Coil) : Bool :=
        (r k2 false != (c != .off)) ||
          r k2 true != (match c with | .off => false | .full => true | .hold => rb.getLsbD (4 + b2n k2))
      if bad false d.scc.k1 || bad true d.scc.k2 then d.sccFail 2 else d

/-- The coil current of a channel is `ma`: COILOPEN below 50 mA while energised after PICKUP, COILOC above
2.5 A. -/
def Dev.coilMeasure (d : Dev) (k2 : Bool) (ma : Nat) : Dev :=
  let d := if k2 then d.setFld Reg.SCC_ICOIL 31 16 ma else d.setFld Reg.SCC_ICOIL 15 0 ma
  let on := if k2 then d.scc.k2 != .off else d.scc.k1 != .off
  let picked := !d.running (if k2 then Tm.pick2 else Tm.pick1)
  if d.scc.diagOff then d
  else if on && 2500 < ma then d.sccFail 4
  else if on && picked && ma < 50 then d.sccFail 3
  else d

/-- The mirror contacts of a contactor disagree. -/
def Dev.fbDisagree (d : Dev) (k2 : Bool) : Bool :=
  if k2 then d.bit Reg.SCC_STAT 2 == d.bit Reg.SCC_STAT 3 else d.bit Reg.SCC_STAT 0 == d.bit Reg.SCC_STAT 1

/-- Since when the mirror contacts of each contactor disagree. -/
def Dev.discWatch (d : Dev) : Dev :=
  [false, true].foldl (fun (d : Dev) k2 =>
    if d.fbDisagree k2 then (if d.running (Tm.disc k2) then d else d.start (Tm.disc k2)) else d.stop (Tm.disc k2)) d

/-- FBDISC: mirror contacts that disagree for longer than DISCTO, or K1's NO contact open in CLOSED. -/
def Dev.fbDiscrepancy (d : Dev) : Dev :=
  let late (k2 : Bool) : Bool := d.fbDisagree k2 && d.due (Tm.disc k2) (d.sccMs 7 0)
  if late false || late true || (d.sccState = 3 && !d.bit Reg.SCC_STAT 0) then
    ((d.stop (Tm.disc false)).stop (Tm.disc true)).sccFail 5
  else d

/-- 10 ms after channel power returned the diagnostics are taken up again, and the test intervals restart: the high side's
first test one OPINT on, the low side's OPINT/2 before it. -/
def Dev.diagResume (d : Dev) : Dev :=
  if d.scc.diagOff && d.due Tm.diag (msT 10) then
    let d := ({ d with scc := { d.scc with diagOff := false } }).stop Tm.diag
    [false, true].foldl (fun (d : Dev) k2 => (d.start (Tm.swTest k2 true)).stop (Tm.swTest k2 false)) d
  else d

/-! ### Commands -/

/-- A write of SCC_CMD 1. -/
def execSccClose (src : Writer) (s : State) : Host.Outcome State Fault Refusal :=
  s.lift (fun d => d.gate src Reg.SCC_CMD (fun d => d.sccCmdWrite 1))

/-- A write of SCC_CMD 2. -/
def execSccOpen (src : Writer) (s : State) : Host.Outcome State Fault Refusal :=
  s.lift (fun d => d.gate src Reg.SCC_CMD (fun d => d.sccCmdWrite 2))

/-- A write of SCC_CMD 3. -/
def execSccAck (src : Writer) (s : State) : Host.Outcome State Fault Refusal :=
  s.lift (fun d => d.gate src Reg.SCC_CMD (fun d => d.sccCmdWrite 3))

/-- The break delay expires. -/
def execBreakDelayExpiry (s : State) : Host.Outcome State Fault Refusal :=
  s.lift (fun d => d.brkExpiry)

/-- PICKUP of a channel ends. -/
def execPickupExpiry (k2 : Bool) (s : State) : Host.Outcome State Fault Refusal :=
  s.lift (fun d => d.pickExpiry k2)

/-- Precharge meets its criterion. -/
def execPrechargeDone (s : State) : Host.Outcome State Fault Refusal :=
  s.lift (fun d => d.prechargeDone)

/-- PCTIME elapses. -/
def execPrechargeTimeout (s : State) : Host.Outcome State Fault Refusal :=
  s.lift (fun d => d.prechargeTimeout)

/-- The close is confirmed. -/
def execCloseConfirm (s : State) : Host.Outcome State Fault Refusal :=
  s.lift (fun d => d.closeConfirm)

/-- FBTO elapses. -/
def execCloseTimeout (s : State) : Host.Outcome State Fault Refusal :=
  s.lift (fun d => d.closeTimeout)

/-- The opening is confirmed. -/
def execOpenConfirm (s : State) : Host.Outcome State Fault Refusal :=
  s.lift (fun d => d.openConfirm)

/-- DROPTO elapses. -/
def execDropoutTimeout (s : State) : Host.Outcome State Fault Refusal :=
  s.lift (fun d => d.dropTimeout)

/-- A switch test or a look at the readbacks. -/
def execSwitchTest (pulse : Option (Bool × Bool)) (rb : BitVec 6) (s : State) : Host.Outcome State Fault Refusal :=
  s.lift (fun d => d.switchTest pulse rb)

/-- A coil current. -/
def execCoilFault (k2 : Bool) (ma : BitVec 16) (s : State) : Host.Outcome State Fault Refusal :=
  s.lift (fun d => d.coilMeasure k2 ma.toNat)

/-- The mirror contacts disagree. -/
def execFeedbackDiscrepancy (s : State) : Host.Outcome State Fault Refusal :=
  s.lift (fun d => d.fbDiscrepancy)

/-- KILL_OUT for a contactor that stays closed. -/
def execKillOutAssert (s : State) : Host.Outcome State Fault Refusal :=
  s.lift (fun d => d.killAssert)

/-- SCC takes up its diagnostics again. -/
def execSccDiagnosticsResume (s : State) : Host.Outcome State Fault Refusal :=
  s.lift (fun d => d.diagResume)

end Sys2Proof.Machine
end

