-- ==== Sys2Proof/Machine/Motion.lean ====
section
/-! DEFINITION. Thermal feeds, pumps and fans, and the motion engine (R281 to R300). -/

namespace Sys2Proof.Machine

/-! ### Axes -/

/-- An axis at rest. -/
def AxisSt.idle : AxisSt where
  v := 0
  frac := 0
  used := 0
  home := .none
  failPos := false
  seq := 0
  replied := true
  missed := 0
  actOk := true
  homeSw := false
  dir := false
  dirAt := none
  stepAt := none
  stepDue := none
  stepRem := (0, 1)
  limAt := none

/-- Axis `a` beside its registers. -/
def Dev.axis (d : Dev) (a : Nat) : AxisSt := (getO d.mot.axes a).getD AxisSt.idle

/-- The module with axis `a` as `x`. -/
def Dev.setAxis (d : Dev) (a : Nat) (x : AxisSt) : Dev :=
  { d with mot := { d.mot with axes := putO d.mot.axes a (if x = AxisSt.idle then none else some x) } }

/-- The axis enters a state; MOT_STAT shows FAULT. -/
def Dev.axSet (d : Dev) (a st : Nat) : Dev :=
  (d.setFld (Reg.MOT_ST a) 31 29 st).setBit Reg.MOT_STAT a (st = 4)

/-- The position of an axis. -/
def Dev.axPos (d : Dev) (a : Nat) : Int := d.rdI (Reg.MOT_POS a)

/-- BUSY of an axis. -/
def Dev.axBusy (d : Dev) (a : Nat) (on : Bool) : Dev :=
  (d.setBit (Reg.MOT_ST a) 28 on).setBit Reg.MOT_STAT (4 + a) on

/-- The axis is moving. -/
def Dev.axMoving (d : Dev) (a : Nat) : Bool := d.bit (Reg.MOT_ST a) 28

/-- The axis stands: speed zero, target at its position, not BUSY. -/
def Dev.axHalt (d : Dev) (a : Nat) : Dev :=
  let d := d.setAxis a { d.axis a with v := 0, frac := 0, stepDue := none }
  (d.wr (Reg.MOT_TGT a) (d.rd (Reg.MOT_POS a))).axBusy a false

/-! ### Switches (R290) -/

/-- The filtered level of field input `n`. -/
def Dev.inputLevel (d : Dev) (n : Nat) : Bool := d.bit (Reg.FIO_LATCH 0) n

/-- The limit in a direction is active: level 0, so a broken wire counts; an index of 31 is none. -/
def Dev.limitActive (d : Dev) (a : Nat) (positive : Bool) : Bool :=
  let n := if positive then d.fld (Reg.MOT_CFG a) 12 8 else d.fld (Reg.MOT_CFG a) 20 16
  decide (n < 16) && !d.inputLevel n

/-! ### Faults and limits (R291, R292, R294) -/

/-- The axis faults with a cause: entry 0x7001, and its motion ends. -/
def Dev.axFault (d : Dev) (a cause : Nat) (positive : Bool) : Dev :=
  let d := (d.axHalt a).axSet a 4
  let d := d.setFld (Reg.MOT_ST a) 3 0 cause
  let d := d.setAxis a { d.axis a with home := .none, failPos := positive }
  d.hw 0x7001 [nw a, nw cause]

/-- The axis stops at an active limit at once: LIMHIT and entry 0x7003. -/
def Dev.limHit (d : Dev) (a : Nat) : Dev :=
  ((d.axHalt a).flag Reg.MOT_STAT (8 + a)).hw 0x7003 [nw a]

/-- The direction in which an axis moves or wants to move. -/
def Dev.axDir (d : Dev) (a : Nat) : Option Bool :=
  let x := d.axis a
  if x.v > 0 then some true
  else if x.v < 0 then some false
  else
    match x.home with
    | .first p _ => some p
    | .second p _ => some p
    | .back p _ _ => some (!p)
    | .brake _ _ => none
    | .stopping => none
    | .none =>
      let r := d.rdI (Reg.MOT_TGT a) - d.axPos a
      if r > 0 then some true else if r < 0 then some false else none

/-- A homing run meets the limit in its direction of travel: HOMELIM, or in the first approach, when HREV allows it, the run
turns round (R293). -/
def Dev.homeLimit (d : Dev) (a : Nat) : Dev :=
  let hdir := d.bit (Reg.MOT_CFG a) 27
  match (d.axis a).home with
  | .first p false =>
    if d.bit (Reg.MOT_CFG a) 26 = false then d.axFault a 2 hdir
    else (d.setAxis a { d.axis a with home := .first (!p) true, v := 0, frac := 0 }).axBusy a true
  | _ => d.axFault a 2 hdir

/-- The limits of a homing run that is not moving toward one: the one opposite to the first approach is HOMEOPP, and any in
the second approach HOMELIM; a run that has turned starts at the limit it has left (R293; DEDUCED: log entry 218). -/
def Dev.homeSides (d : Dev) (a : Nat) : Dev :=
  match (d.axis a).home with
  | .first p false => if d.limitActive a (!p) then d.axFault a 1 (d.bit (Reg.MOT_CFG a) 27) else d
  | .second _ _ =>
    if d.limitActive a true || d.limitActive a false then d.axFault a 2 (d.bit (Reg.MOT_CFG a) 27) else d
  | _ => d

/-- The limits of an axis act: motion toward an active one stops, in every state (R291). -/
def Dev.limitCheck (d : Dev) (a : Nat) : Dev :=
  if d.axMoving a = false then d
  else
    let d := if d.axState a = 2 then d.homeSides a else d
    match d.axDir a with
    | none => d
    | some p =>
      if d.axMoving a && d.limitActive a p then
        let h := (d.axis a).home
        let d := d.limHit a
        if d.axState a = 2 then (d.setAxis a { d.axis a with home := h }).homeLimit a
        else d
      else d

/-- A limit input of axis `a` has become active: a homing run that has turned toward the other side faults with HOMEOPP
(R293). -/
def Dev.limitEdge (d : Dev) (a : Nat) (positive : Bool) : Dev :=
  let d := d.setAxis a { d.axis a with limAt := some d.now }
  match (d.axis a).home with
  | .first p true => if positive != p then d.axFault a 1 (d.bit (Reg.MOT_CFG a) 27) else d
  | _ => d

/-- Field input `n` has fallen: the axes whose limit it is see it become active. -/
def Dev.limitInput (d : Dev) (n : Nat) : Dev :=
  (List.range 4).foldl (fun d a =>
    let d := if d.fld (Reg.MOT_CFG a) 12 8 = n then d.limitEdge a true else d
    if d.fld (Reg.MOT_CFG a) 20 16 = n then d.limitEdge a false else d) d

/-! ### Homing (R293) -/

/-- MOT_CMD 1: a homing run starts from UNHOMED or HOMED; a travel budget of zero refuses it (R292, R293). -/
def Dev.homeStart (d : Dev) (a : Nat) : Dev :=
  let st := d.axState a
  if st = 1 || st = 3 then
    if d.rd (Reg.MOT_TRAV a) = 0 then
      ((d.setFld (Reg.MOT_ST a) 3 0 4).flag Reg.MOT_STAT (12 + a)).hw 0x7004 [nw a]
    else
      let d := d.axSet a 2
      let p := d.bit (Reg.MOT_CFG a) 27
      let d := d.setAxis a { d.axis a with used := 0, home := .first p false }
      (d.axBusy a true).limitCheck a
  else d

/-- Firmware starts the next axis of a list; one that is refused or faults at once makes way for the one after it. -/
def Dev.homeList (d : Dev) : List Nat → Dev
  | [] => { d with mot := { d.mot with toHome := [] } }
  | a :: t =>
    let d := d.homeStart a
    if d.axState a = 2 then { d with mot := { d.mot with toHome := t } } else Dev.homeList d t

/-- Firmware homes the enabled axes one at a time: once none is HOMING, however its run has ended, the next one starts
(R297). -/
def Dev.homeNext (d : Dev) : Dev :=
  if d.mot.toHome.isEmpty || (List.range 4).any (fun a => d.axState a = 2) then d
  else if !d.manages 19 then { d with mot := { d.mot with toHome := [] } }
  else d.homeList d.mot.toHome

/-- The home input changes to active while the axis moves in a direction of approach; in the tick of a limit the limit is
taken (R293; log entry 218). -/
def Dev.homeEdge (d : Dev) (a : Nat) : Dev :=
  let x := d.axis a
  if x.limAt = some d.now then d
  else
    match x.home with
    | .first p _ => d.setAxis a { x with home := .brake p (d.axPos a) }
    | .second p p1 =>
      let p2 := d.axPos a
      if (p2 - p1).natAbs > d.fld (Reg.MOT_HBACK a) 15 0 then d.axFault a 3 p
      else
        let d := d.wr (Reg.MOT_POS a) (d.rd (Reg.MOT_HOFS a))
        let d := d.wr (Reg.MOT_HPOS a) (iw (p2 - p1))
        let d := (d.axHalt a).axSet a 3
        let d := d.setAxis a { d.axis a with home := .none, used := 0 }
        d.hw 0x7002 [nw a]
    | _ => d

/-- Field input `n` has become active: axes whose HOME it is see an edge. -/
def Dev.homeInput (d : Dev) (n : Nat) : Dev :=
  (List.range 4).foldl (fun d a => if d.fld (Reg.MOT_CFG a) 4 0 = n then d.homeEdge a else d) d

/-! ### STEP, DIR and EN (R288, R296) -/

/-- DIR takes the level of the axis's direction: high toward larger positions with DIRINV 0 (DESIGN CHOICE: log entry 197). -/
def Dev.dirTurn (d : Dev) (a : Nat) : Dev :=
  let x := d.axis a
  let w := decide (x.v > 0) != d.bit (Reg.MOT_CFG a) 28
  if x.v = 0 || x.dir = w then d else d.setAxis a { x with dir := w, dirAt := some d.now }

/-- DIR changed less than 5 µs ago, so that STEP must not rise yet. -/
def Dev.dirLead (d : Dev) (a : Nat) : Bool := (d.axis a).dirAt.any (fun t => decide (d.now < t + usT 5))

/-- STEP rises for a pulse of exponent `k`: (1 + k) µs wide while WCODE is 1, else 2 µs. -/
def Dev.stepRise (d : Dev) (a k : Nat) : Dev :=
  d.setAxis a { d.axis a with stepAt := some (d.now, usT (if d.bit (Reg.MOT_CFG a) 29 then 1 + k else 2)) }

/-- The levels of STEP, DIR and EN of axis `a`; none is high impedance, which a module that does not lead holds them at.  EN
falls at a reset and is low until bring-up, and while RST_N holds the module (R288, R295, R296). -/
def Dev.axPins (d : Dev) (a : Nat) : Option (Bool × Bool × Bool) :=
  let x := d.axis a
  if d.leads then
    some (x.stepAt.any (fun p => decide (d.now < p.1 + p.2)), x.dir,
      d.axState a != 0 && d.axState a != 4 && !d.mot.enLow && !d.pwr.rstHeld)
  else none

/-! ### Motion (R286 to R288, R292) -/

/-- The pulse rate of a speed in 10^-6 full steps per second at exponent `k`, in 10^-6 per second. -/
def rateOf (v : Int) (k : Nat) : Nat := v.natAbs * 2 ^ (6 - k)

/-- The exponent of R287 for a speed: the smallest that keeps the pulse rate within SRMAX, or DRVRES. -/
def Dev.stepK (d : Dev) (a : Nat) (v : Int) : Nat :=
  let sr := d.fld Reg.MOT_SRMAX 17 0
  if d.bit (Reg.MOT_CFG a) 29 then
    ((List.range 7).find? (fun k => rateOf v k ≤ sr * 1000000)).getD 6
  else min 6 (d.fld (Reg.MOT_CFG a) 25 23)

/-- The speed limit of an axis in 10^-6 full steps per second: VMAX or the homing speed, and in MODE 0 the
cap of R287. -/
def Dev.speedCap (d : Dev) (a : Nat) : Nat :=
  let x := d.axis a
  let base :=
    match x.home with
    | .first _ turned => if turned then d.fld (Reg.MOT_HOME a) 15 0 else d.fld (Reg.MOT_HOME a) 31 16
    | .second _ _ => d.fld (Reg.MOT_HOME a) 15 0
    | _ => d.fld (Reg.MOT_VMAX a) 15 0
  let sr := d.fld Reg.MOT_SRMAX 17 0
  let cap :=
    if d.bit (Reg.MOT_CFG a) 30 then base * 1000000
    else if d.bit (Reg.MOT_CFG a) 29 then min (base * 1000000) (sr * 1000000)
    else min (base * 1000000) (sr * 1000000 / 2 ^ (6 - min 6 (d.fld (Reg.MOT_CFG a) 25 23)))
  if d.fld (Reg.MOT_VMAX a) 15 0 = 0 || d.fld (Reg.MOT_ACC a) 15 0 = 0 then 0 else cap

/-- The most a speed changes in a servo period, in 10^-6 full steps per second (R286). -/
def Dev.axDv (d : Dev) (a : Nat) : Nat := d.fld (Reg.MOT_ACC a) 15 0 * d.fld Reg.MOT_SERVO 23 0

/-- The greatest speed of a period from which periods each `dv` slower end within `dist`: the distances are in 10^-12 units
and `t` is what a speed of 1 covers in a period. -/
def brakeV (dv t dist : Nat) : Nat :=
  if dv * t = 0 then 0
  else
    let n := (isqrt (1 + 8 * (dist / (dv * t))) - 1) / 2
    if n = 0 then ceilDiv dist t else (dist / t + dv * (n * (n + 1) / 2)) / (n + 1)

/-- The signed units that remain to the goal of the move: the target or the end of HBACK; none in an approach or a stop.
Pulses of a fixed exponent leave a rest below 2^k (R287; log entry 39). -/
def Dev.axRest (d : Dev) (a : Nat) : Option Int :=
  let go (goal : Int) : Int :=
    let r := goal - d.axPos a
    let c := d.bit (Reg.MOT_CFG a) 30 || d.bit (Reg.MOT_CFG a) 29
    if c then r else Int.tdiv r (2 ^ min 6 (d.fld (Reg.MOT_CFG a) 25 23) : Nat) * (2 ^ min 6 (d.fld (Reg.MOT_CFG a) 25 23) : Nat)
  match (d.axis a).home with
  | .none => some (go (d.rdI (Reg.MOT_TGT a)))
  | .back _ _ dest => some (go dest)
  | _ => none

/-- The speed toward a goal `r` units away: the most from which the axis can still stop there, in MODE 0 with the last pulse at
the speed of one period, and with width-coded steps no faster than the pulses of the rest allow. -/
def Dev.speedToward (d : Dev) (a : Nat) (r : Int) : Int :=
  let dv := d.axDv a
  let t := 64 * d.fld Reg.MOT_SERVO 23 0
  let l := r.natAbs
  let mode1 := d.bit (Reg.MOT_CFG a) 30
  let f : Int := (d.axis a).frac
  let dist : Int :=
    if mode1 then l * 1000000000000 - (if r < 0 then -f else f)
    else (l - 2 ^ d.fld (Reg.MOT_ST a) 27 25 : Nat) * 1000000000000
  let s := brakeV dv t dist.toNat
  let s := if mode1 then s else max s dv
  let s := if !mode1 && d.bit (Reg.MOT_CFG a) 29 && l < 64 then min s (d.fld Reg.MOT_SRMAX 17 0 * 1000000 / 2 ^ (6 - l.log2)) else s
  let m : Int := (min (d.speedCap a) s : Nat)
  if r > 0 then m else if r < 0 then -m else 0

/-- The speed the profile asks for: full speed in an approach, zero when stopping, else that toward its goal (R286). -/
def Dev.speedWanted (d : Dev) (a : Nat) : Int :=
  let cap : Int := d.speedCap a
  match (d.axis a).home with
  | .first p _ => if p then cap else -cap
  | .second p _ => if p then cap else -cap
  | _ => match d.axRest a with | some r => d.speedToward a r | none => 0

/-- The axis moves toward its goal with `l` units left and cannot stop there: it runs past and comes back (R286). -/
def Dev.axPasses (d : Dev) (a l : Nat) : Bool :=
  let v := (d.axis a).v.natAbs
  let t := 64 * d.fld Reg.MOT_SERVO 23 0
  let k := if d.bit (Reg.MOT_CFG a) 30 then 0 else 2 ^ d.fld (Reg.MOT_ST a) 27 25
  decide (brakeV (d.axDv a) t ((l + k) * 1000000000000 + v * t) < v)

/-- The units of the travel budget that are left; none once HOMED (R292). -/
def Dev.axBudget (d : Dev) (a : Nat) : Option Nat :=
  if d.axState a = 3 then none else some ((d.rd (Reg.MOT_TRAV a)).toNat - (d.axis a).used)

/-- A move would exceed the travel budget: the axis stops, BUDGET and entry 0x7004; a homing run faults with BUDGET, in the
second approach with HOMELIM (R292, R293). -/
def Dev.axOver (d : Dev) (a : Nat) : Dev :=
  let h := (d.axis a).home
  let d := (((d.axHalt a).flag Reg.MOT_STAT (12 + a)).hw 0x7004 [nw a])
  if d.axState a = 2 then
    match h with
    | .second p _ => d.axFault a 2 p
    | _ => d.axFault a 4 (d.bit (Reg.MOT_CFG a) 27)
  else d

/-- The position moves by `n` units, counted since OFF or the last homing; before homing the budget bounds it (R292). -/
def Dev.axMove (d : Dev) (a : Nat) (n : Int) : Dev :=
  let m := match d.axBudget a with | some l => clampI (-(l : Int)) l n | none => n
  let d := d.wr (Reg.MOT_POS a) (iw (d.axPos a + m))
  let d := d.setAxis a { d.axis a with used := (d.axis a).used + m.natAbs }
  if m = n then d else d.axOver a

/-- What follows when an axis stands: the next part of a homing run, or the end of the move. -/
def Dev.axStood (d : Dev) (a : Nat) : Dev :=
  let x := d.axis a
  match x.home with
  | .brake p p1 =>
    let back : Int := 64 * (d.fld (Reg.MOT_HBACK a) 31 16 : Nat)
    d.setAxis a { x with home := .back p p1 (if p then d.axPos a - back else d.axPos a + back) }
  | .back p p1 _ => if d.axRest a = some 0 then d.setAxis a { x with home := .second p p1 } else d
  | .stopping => (d.setAxis a { x with home := .none }).axHalt a
  | .none => if d.axRest a = some 0 then d.axHalt a else d
  | _ => d

/-- Three replies in a row are missing: the axis faults with ACTTO, once (R289). -/
def Dev.actMissed (d : Dev) (a : Nat) : Dev :=
  let d := d.setAxis a { d.axis a with missed := 0, actOk := false }
  if d.axState a = 4 then d else d.axFault a 5 (d.bit (Reg.MOT_CFG a) 27)

/-- The MODE 1 frame of axis `a` in each servo period, from its object of CAN B, where it replaces one that has not left yet
(R289, R296, R435). -/
def Dev.actFrame (d : Dev) (a : Nat) : Dev :=
  let x := d.axis a
  let missed := if x.replied then 0 else x.missed + 1
  let d := d.setAxis a { x with missed := missed, seq := (x.seq + 1) % 256, replied := false }
  let d := if 3 ≤ missed then d.actMissed a else d
  let b5 := b2n (d.axState a != 0 && d.axState a != 4) + 2 * b2n (d.axState a = 2)
  (d.canDisarm 1 (120 + 2 * a)).canPost 1 (120 + 2 * a) 0xE0300008 (nw (d.fld Reg.MOT_CANID 28 0 + 2 * a))
    (leBytes 4 (d.rd (Reg.MOT_POS a)).toNat ++ leBytes 1 (d.axis a).seq ++ leBytes 1 b5 ++ [0, 0])

/-- The step interval in ticks of 4 ns from the present speed, with the fraction carried from the last step (R287): whole
ticks and the new remainder over the rate. -/
def Dev.stepTicks (d : Dev) (a k : Nat) : Nat × (Nat × Nat) :=
  let x := d.axis a
  let rate := max 1 (rateOf x.v k)
  let n := 250000000 * 1000000 + x.stepRem.1 * rate / x.stepRem.2
  (n / rate, (n % rate, rate))

/-- The step timer is reloaded from the time `t`, in ticks of 4 ns. -/
def Dev.stepReload (d : Dev) (a t : Nat) : Dev :=
  let (n, r) := d.stepTicks a (d.fld (Reg.MOT_ST a) 27 25)
  d.setAxis a { d.axis a with stepDue := some (t + n), stepRem := r }

/-- The exponent of the next pulse: R287's for the present speed, where a larger one waits for a multiple of 2^k, and
width-coded steps end at the travel budget to the unit. -/
def Dev.stepExp (d : Dev) (a : Nat) : Nat :=
  let want := d.stepK a (d.axis a).v
  if d.bit (Reg.MOT_CFG a) 29 = false then want
  else
    let old := d.fld (Reg.MOT_ST a) 27 25
    let k := if old < want && d.axPos a % (2 ^ want : Nat) != 0 then old else want
    match d.axBudget a with
    | some l => if l = 0 then k else min k l.log2
    | none => k

/-- The step timer runs while the axis has a speed: it starts with the motion and stops with it. -/
def Dev.stepTimer (d : Dev) (a : Nat) : Dev :=
  let x := d.axis a
  if x.v = 0 || d.bit (Reg.MOT_CFG a) 30 then d.setAxis a { x with stepDue := none, stepRem := (0, 1) }
  else if x.stepDue.isSome then d
  else ((d.setFld (Reg.MOT_ST a) 27 25 (d.stepExp a)).setAxis a { x with stepRem := (0, 1) }).stepReload a (2 * d.now)

/-- MODE 1: the position follows the speed of the period; the goal is not passed at a speed from which the axis stops there. -/
def Dev.servoMove (d : Dev) (a : Nat) : Dev :=
  let x := d.axis a
  let f := x.frac + x.v * 64 * (d.fld Reg.MOT_SERVO 23 0 : Nat)
  let n := f.tdiv 1000000000000
  match d.axRest a with
  | some r =>
    if r * x.v > 0 && decide (r.natAbs ≤ f.natAbs / 1000000000000) && decide (x.v.natAbs ≤ d.axDv a) then
      let d := (d.setAxis a { x with frac := 0 }).axMove a r
      if d.axMoving a then (d.setAxis a { d.axis a with v := 0, frac := 0 }).axStood a else d
    else (d.setAxis a { x with frac := f.tmod 1000000000000 }).axMove a n
  | none => (d.setAxis a { x with frac := f.tmod 1000000000000 }).axMove a n

/-- The speed of a moving axis in a servo period, toward the one wanted by at most ACC times MOT_SERVO. -/
def Dev.servoSpeed (d : Dev) (a : Nat) : Dev :=
  let x := d.axis a
  let dv : Int := d.axDv a
  let cap : Int := d.speedCap a
  d.setAxis a { x with v := clampI (-cap) cap (x.v + clampI (-dv) dv (d.speedWanted a - x.v)) }

/-- One servo period of axis `a`: its speed and its limits, and in MODE 1 its position and frame. -/
def Dev.servoAxis (d : Dev) (a : Nat) : Dev :=
  let mode1 := d.bit (Reg.MOT_CFG a) 30
  let d :=
    if d.axMoving a = false then d
    else
      let d := (d.servoSpeed a).limitCheck a
      if d.axMoving a = false then d
      else
        let d := if mode1 then d else (d.dirTurn a).stepTimer a
        if (d.axis a).v = 0 then d.axStood a
        else if mode1 then d.servoMove a
        else d
  if mode1 && d.bit (Reg.MOT_CFG a) 31 && d.axState a != 0 then d.actFrame a else d

/-- A servo period, every MOT_SERVO µs: every axis in turn, and the next axis to be homed; a MOT_SERVO of zero freezes them
all (R286). -/
def Dev.servo (d : Dev) : Dev :=
  let n := d.fld Reg.MOT_SERVO 23 0
  if d.bit Reg.MOT_CTL 0 && !d.shedding && n != 0 && (!d.running Tm.servo || d.due Tm.servo (usT n)) then
    ((List.range 4).foldl (fun d a => d.servoAxis a) (d.start Tm.servo)).homeNext
  else d

/-- STEP rises, and the axis moves by `n` units; without a move there is no pulse. -/
def Dev.stepMove (d : Dev) (a k : Nat) (n : Int) : Dev :=
  let e := d.axMove a n
  if e.axPos a = d.axPos a then e else e.stepRise a k

/-- A pulse of 2^k units may follow: in an approach or a stop always; toward a goal while it does not pass it, or when the axis
cannot stop there; away from it always. -/
def Dev.stepMay (d : Dev) (a k : Nat) : Bool :=
  match d.axRest a with
  | none => true
  | some r => decide (r * (d.axis a).v < 0) || decide (2 ^ k ≤ r.natAbs) || d.axPasses a r.natAbs

/-- The step timer of axis `a` expires, so that a STEP pulse moves it by 2^k units in its direction, and the timer is
reloaded; none rises less than 5 µs after DIR has changed (R287, R288). -/
def Dev.stepPulse (d : Dev) (a : Nat) : Dev :=
  let x := d.axis a
  let due := match x.stepDue with | some t => decide (t ≤ 2 * d.now) | none => false
  if d.bit Reg.MOT_CTL 0 = false || d.shedding || d.axMoving a = false || d.bit (Reg.MOT_CFG a) 30 || x.v = 0
      || d.fld Reg.MOT_SRMAX 17 0 = 0 || d.fld Reg.MOT_SERVO 23 0 = 0 || !due || d.dirLead a then d
  else
    let d := d.limitCheck a
    if d.axMoving a = false || (d.axis a).v = 0 then d.homeNext
    else
      let k := d.stepExp a
      let d := (d.setFld (Reg.MOT_ST a) 27 25 k).stepReload a (x.stepDue.getD (2 * d.now))
      if d.stepMay a k = false then d
      else if (match d.axBudget a with | some l => decide (l < 2 ^ k) | none => false) then (d.axOver a).homeNext
      else d.stepMove a k (if (d.axis a).v > 0 then (2 ^ k : Nat) else -(2 ^ k : Nat))

/-! ### Targets and commands (R292 to R294) -/

/-- An enabled slot names this destination (R283). -/
def Dev.slotNames (d : Dev) (dst idx : Nat) : Bool :=
  (List.range 8).any (fun s =>
    bitOf (d.slotW s 0) 31 && fieldOf (d.slotW s 1) 21 20 = dst && fieldOf (d.slotW s 1) 19 18 = idx)

/-- A new target of an axis: clamped to the virtual limits once homed; toward an active limit refused. -/
def Dev.axTarget (d : Dev) (a : Nat) (t : Int) : Dev :=
  let st := d.axState a
  let (t, cl) :=
    if st = 3 then
      let c := clampI (d.rdI (Reg.MOT_VLIMLO a)) (d.rdI (Reg.MOT_VLIMHI a)) t
      (c, c != t)
    else (t, false)
  let d := d.setBit (Reg.MOT_ST a) 24 cl
  if st = 2 then d
  else
    let d := d.wr (Reg.MOT_TGT a) (iw t)
    if st = 1 || st = 3 then
      if t = d.axPos a && (d.axis a).v = 0 then d.axBusy a false
      else (d.axBusy a true).limitCheck a
    else d

/-- MOT_TGT of axis `a`; a program's write is ignored while a slot names the axis (R283). -/
def Dev.targetWrite (d : Dev) (src : Writer) (a : Nat) (v : Word) : Dev :=
  if src = .program && d.slotNames 2 a then d else d.axTarget a v.toInt

/-- MOT_CMD 2: the axis slows to a stop; homing ends UNHOMED without a fault. -/
def Dev.axStop (d : Dev) (a : Nat) : Dev :=
  let d := if d.axState a = 2 then d.axSet a 1 else d
  let d :=
    if d.axMoving a then
      let d := d.setAxis a { d.axis a with home := .stopping }
      if (d.axis a).v = 0 then d.axStood a else d
    else d
  d.homeNext

/-- The cause of an axis fault has gone (R299). -/
def Dev.axCauseGone (d : Dev) (a : Nat) : Bool :=
  let c := d.fld (Reg.MOT_ST a) 3 0
  let x := d.axis a
  if c = 5 || c = 6 then x.actOk else !d.limitActive a x.failPos

/-- MOT_CMD 3: FAULT is left when its cause has gone. -/
def Dev.axClear (d : Dev) (a : Nat) : Dev :=
  if d.axState a = 4 && d.axCauseGone a then (d.axSet a 1).setFld (Reg.MOT_ST a) 3 0 0 else d

/-- MOT_CMD 4: from UNHOMED the position becomes HOFS and the axis HOMED. -/
def Dev.axDeclare (d : Dev) (a : Nat) : Dev :=
  if d.axState a = 1 then
    let d := d.wr (Reg.MOT_POS a) (d.rd (Reg.MOT_HOFS a))
    let d := (d.axHalt a).axSet a 3
    d.setAxis a { d.axis a with used := 0, home := .none }
  else d

/-- MOT_CMD of axis `a`. -/
def Dev.motCmd (d : Dev) (a : Nat) (v : Word) : Dev :=
  let n := fieldOf v 2 0
  if n = 1 then d.homeStart a else if n = 2 then d.axStop a else if n = 3 then d.axClear a
  else if n = 4 then d.axDeclare a else d

/-- An axis at rest whose outputs keep their levels. -/
def AxisSt.rest (x : AxisSt) : AxisSt := { AxisSt.idle with dir := x.dir, dirAt := x.dirAt, stepAt := x.stepAt }

/-- MOT_CFG of axis `a`: DIRINV inverts DIR, EN 0 is OFF, and EN 1 leaves it for UNHOMED; the objects of CAN B follow MODE
(R288, R435, Table 11.1). -/
def Dev.motCfg (d : Dev) (a : Nat) (v : Word) : Dev :=
  let was := d.bit (Reg.MOT_CFG a) 28
  let res := d.motRes
  let d := d.plainWrite (Reg.MOT_CFG a) v
  let x := d.axis a
  let d := if d.bit (Reg.MOT_CFG a) 28 = was then d else d.setAxis a { x with dir := !x.dir, dirAt := some d.now }
  let d :=
    if d.bit (Reg.MOT_CFG a) 31 then
      if d.axState a = 0 then (d.setAxis a (d.axis a).rest).axSet a 1 else d
    else ((d.axHalt a).setAxis a (d.axis a).rest).axSet a 0
  (if res || d.motRes then d.motObjects else d).homeNext

/-- A reply of a MODE 1 actuator, taken from its object of CAN B (R289): position, sequence, flags. -/
def Dev.actReply (d : Dev) (a seq flags : Nat) : Dev :=
  if d.axMode1 a = false || d.canLive 1 = false then d
  else
  let d := d.canTaken 1 (121 + 2 * a)
  let x := d.axis a
  if seq != x.seq then d
  else
    let flt := flags % 2 = 1
    let sw := flags / 2 % 2 = 1
    let d := d.setAxis a { x with replied := true, missed := 0, actOk := !flt, homeSw := sw }
    if flt && d.axState a != 4 && d.axState a != 0 then d.axFault a 6 (d.bit (Reg.MOT_CFG a) 27)
    else if sw && !x.homeSw && d.fld (Reg.MOT_CFG a) 4 0 = 30 then d.homeEdge a
    else d

/-! ### Pumps and fans (R284, R285) -/

/-- Timer: the last edge of TACH f. -/
abbrev Tm.tach (f : Nat) : Nat := 0x200 + f

/-- Timer: RPM of output f below MINRPM with a duty. -/
abbrev Tm.slow (f : Nat) : Nat := 0x210 + f

/-- The duty an output runs at, in 1/65,536: none while disabled, FAILDUTY until a first write. -/
def Dev.fanDuty (d : Dev) (f : Nat) : Nat :=
  if d.bit Reg.MOT_CTL 1 = false || d.shedding || d.bit (Reg.MOT_FANCFG f) 31 = false then 0
  else if getB d.mot.fanSet f then d.fld (Reg.MOT_FANDUTY f) 15 0
  else 256 * d.fld (Reg.MOT_FANCFG f) 23 16

/-- RPM as read: 0 when no edge has come for 1 s. -/
def Dev.fanRpm (d : Dev) (f : Nat) : Nat :=
  if d.running (Tm.tach f) && d.since (Tm.tach f) < secT 1 then d.fld (Reg.MOT_FANRPM f) 15 0 else 0

/-- The high time of output `f` in each period of its FREQ, in ns: DUTY/65,536 of it, rounded down to 20 ns; a FREQ of zero
gives no pulses (R284). -/
def Dev.fanHigh (d : Dev) (f : Nat) : Nat :=
  let q := d.fld (Reg.MOT_FANCFG f) 15 0
  if q = 0 then 0 else d.fanDuty f * 1000000000 / (65536 * q) / 20 * 20

/-- The high time of the pump or fan output that the module drives; none is high impedance, which a module that does not
lead holds it at (R296). -/
def Dev.fanPin (d : Dev) (f : Nat) : Option Nat := if d.leads then some (d.fanHigh f) else none

/-- The time RPM has been below MINRPM is kept. -/
def Dev.fanWatch (d : Dev) (f : Nat) : Dev :=
  let low := d.fanDuty f != 0 && decide (d.fanRpm f < d.fld (Reg.MOT_FANSUP f) 31 16)
  if low then (if d.running (Tm.slow f) then d else d.start (Tm.slow f)) else d.stop (Tm.slow f)

/-- Every output's watch follows a change of all of them: a reset, MOT_CTL, shedding. -/
def Dev.fansWatch (d : Dev) : Dev := (List.range 4).foldl (fun d f => d.fanWatch f) d

/-- MOT_FANDUTY of output `f` by a slot or a write. -/
def Dev.fanWrite (d : Dev) (f : Nat) (v : Word) : Dev :=
  let d := d.plainWrite (Reg.MOT_FANDUTY f) v
  ({ d with mot := { d.mot with fanSet := putB d.mot.fanSet f true } }).fanWatch f

/-- A register write of MOT_FANDUTY; a program's is ignored while a slot names the output (R283). -/
def Dev.fanDutyWrite (d : Dev) (src : Writer) (f : Nat) (v : Word) : Dev :=
  if src = .program && d.slotNames 3 f then d else d.fanWrite f v

/-- MOT_FANCFG: a nonzero FREQ outside 20 to 50,000 is stored as the nearer bound. -/
def Dev.fanCfgWrite (d : Dev) (f : Nat) (v : Word) : Dev :=
  let q := fieldOf v 15 0
  let q := if q = 0 then 0 else min 50000 (max 20 q)
  (d.plainWrite (Reg.MOT_FANCFG f) (withField v 15 0 q)).fanWatch f

/-- A filtered rising edge of TACH f. -/
def Dev.tachEdge (d : Dev) (f : Nat) : Dev :=
  let ppr := d.fld (Reg.MOT_FANCFG f) 27 24
  let had := d.running (Tm.tach f)
  let p := d.since (Tm.tach f) / 125
  let d := d.start (Tm.tach f)
  if ppr = 0 || had = false || p = 0 then d
  else
    let rpm := satN 65535 (60000000 / (p * ppr))
    let d := (d.setFld (Reg.MOT_FANRPM f) 15 0 rpm).fanWatch f
    if d.bit Reg.MOT_STAT (16 + f) && d.fld (Reg.MOT_FANSUP f) 31 16 ≤ rpm then
      (d.setBit Reg.MOT_STAT (16 + f) false).hw 0x7011 [nw f]
    else d

/-- RPM of output f has stayed below MINRPM for STALLT with a duty. -/
def Dev.fanStall (d : Dev) (f : Nat) : Dev :=
  let d := d.fanWatch f
  let t := msT (d.fld (Reg.MOT_FANSUP f) 15 0)
  let stored := d.fld (Reg.MOT_FANRPM f) 15 0
  let low := if d.running (Tm.tach f) && d.fld (Reg.MOT_FANSUP f) 31 16 ≤ stored then d.since (Tm.tach f) - secT 1
    else d.since (Tm.slow f)
  if d.fld (Reg.MOT_FANCFG f) 27 24 != 0 && t != 0 && d.running (Tm.slow f) && t ≤ low
      && !d.bit Reg.MOT_STAT (16 + f) then
    (d.setBit Reg.MOT_STAT (16 + f) true).hw 0x7010 [nw f]
  else d

/-! ### Slot outputs and temperature feeds (R281 to R283) -/

/-- The duty of pair `p` as a slot's u gives it (R255). -/
def Dev.pwmDuty (d : Dev) (p : Nat) (u : Int) : Nat :=
  let per := d.fld (Reg.PWM_PER p) 19 0
  let n := if u < 0 then 0 else (u * per / 32768).toNat
  min (max n (d.fld (Reg.PWM_DMIN p) 19 0)) (min (d.fld (Reg.PWM_DMAX p) 19 0) per)

/-- A slot's output u reaches its destination (R248, R255, R283). -/
def Dev.slotDest (d : Dev) (s : Nat) (u : Int) : Dev :=
  let dst := fieldOf (d.slotW s 1) 21 20
  let i := fieldOf (d.slotW s 1) 19 18
  let pos := if u < 0 then 0 else u
  if dst = 1 then d.wr (Reg.PWM_DUTY i) (nw (d.pwmDuty i u))
  else if dst = 2 then
    if d.axState i = 3 then
      let lo := d.rdI (Reg.MOT_VLIMLO i)
      d.axTarget i (lo + sarI (pos * (d.rdI (Reg.MOT_VLIMHI i) - lo)) 15)
    else d
  else if dst = 3 then d.fanWrite i (iw (2 * pos))
  else d

/-- A feed of this slot has failed, so the slot freezes (R282). -/
def Dev.feedFrozen (d : Dev) (s : Nat) : Bool :=
  (List.range 4).any (fun n => d.bit (Reg.MOT_TFDST n) 31 && d.fld (Reg.MOT_TFDCFG n) 30 28 = s)

/-- Feed `n` writes its slot's FB word from a temperature (R281). -/
def Dev.feedWrite (d : Dev) (n : Nat) (value : Int) : Dev :=
  let sc := d.rd (Reg.MOT_TFDSCL n)
  let fb := sat16 (sarI ((value - sx 16 (fieldOf sc 31 16)) * sx 16 (fieldOf sc 15 0)) 8)
  let b := (fb % 65536).toNat
  let d := d.setFld (Reg.CE_SLOT (d.fld (Reg.MOT_TFDCFG n) 30 28) 11) 15 0 b
  d.setFld (Reg.MOT_TFDST n) 15 0 b

/-- Feed `n` at a publication, with its channel's quality code and value (R281, R282). -/
def Dev.feedUpdate (d : Dev) (n code : Nat) (value : Int) : Dev :=
  let failed := d.bit (Reg.MOT_TFDST n) 31
  if code = 0 || code = 3 || code = 5 then
    let d := d.feedWrite n value
    if failed then
      ((d.setBit (Reg.MOT_TFDST n) 31 false).setBit Reg.MOT_STAT (20 + n) false).hw 0x7021 [nw n]
    else d
  else if code = 1 then (if failed then d else d.feedWrite n value)
  else if failed then d
  else
    let s := d.fld (Reg.MOT_TFDCFG n) 30 28
    let d := ((d.setBit (Reg.MOT_TFDST n) 31 true).setBit Reg.MOT_STAT (20 + n) true).hw 0x7020 [nw n]
    let d := d.slotDrop s
    d.slotDest s (sx 16 (d.fld (Reg.MOT_TFDFAIL n) 15 0))

/-- MOT_TFDCFG: an enabled feed with a channel that is no temperature is refused (R282). -/
def Dev.feedCfg (d : Dev) (n : Nat) (v : Word) : Dev :=
  if bitOf v 31 && !isTemp (fieldOf v 10 0) then d else d.plainWrite (Reg.MOT_TFDCFG n) v

/-! ### Commands -/

/-- A write of MOT_TFDCFG. -/
def execFeedConfigWrite (src : Writer) (n : BitVec 2) (v : Word) (s : State) : Host.Outcome State Fault Refusal :=
  s.lift (fun d => d.gate src (Reg.MOT_TFDCFG n.toNat) (fun d => d.feedCfg n.toNat v))

/-- A filtered edge of a tachometer. -/
def execTachEdge (f : BitVec 2) (s : State) : Host.Outcome State Fault Refusal :=
  s.lift (fun d => d.tachEdge f.toNat)

/-- The stall time of an output has passed. -/
def execFanStall (f : BitVec 2) (s : State) : Host.Outcome State Fault Refusal :=
  s.lift (fun d => d.fanStall f.toNat)

/-- A servo period. -/
def execServoPeriod (s : State) : Host.Outcome State Fault Refusal :=
  s.lift (fun d => d.servo)

/-- A step pulse of an axis. -/
def execStepPulse (a : BitVec 2) (s : State) : Host.Outcome State Fault Refusal :=
  s.lift (fun d => d.stepPulse a.toNat)

/-- A reply of an actuator. -/
def execActuatorReply (a : BitVec 2) (seq flags : Byte) (s : State) : Host.Outcome State Fault Refusal :=
  s.lift (fun d => (d.actReply a.toNat seq.toNat flags.toNat).homeNext)

/-- A write of MOT_TGT. -/
def execTargetWrite (src : Writer) (a : BitVec 2) (v : Word) (s : State) : Host.Outcome State Fault Refusal :=
  s.lift (fun d => d.gate src (Reg.MOT_TGT a.toNat) (fun d => d.targetWrite src a.toNat v))

/-- MOT_CMD 1. -/
def execHome (src : Writer) (a : BitVec 2) (s : State) : Host.Outcome State Fault Refusal :=
  s.lift (fun d => d.gate src (Reg.MOT_CMD a.toNat) (fun d => d.motCmd a.toNat 1))

/-- MOT_CMD 2. -/
def execStopAxis (src : Writer) (a : BitVec 2) (s : State) : Host.Outcome State Fault Refusal :=
  s.lift (fun d => d.gate src (Reg.MOT_CMD a.toNat) (fun d => d.motCmd a.toNat 2))

/-- MOT_CMD 3. -/
def execClearFault (src : Writer) (a : BitVec 2) (s : State) : Host.Outcome State Fault Refusal :=
  s.lift (fun d => d.gate src (Reg.MOT_CMD a.toNat) (fun d => d.motCmd a.toNat 3))

/-- MOT_CMD 4. -/
def execDeclareHomed (src : Writer) (a : BitVec 2) (s : State) : Host.Outcome State Fault Refusal :=
  s.lift (fun d => d.gate src (Reg.MOT_CMD a.toNat) (fun d => d.motCmd a.toNat 4))

end Sys2Proof.Machine
end

