-- ==== Sys2Proof/Machine/Ce.lean ====
section
/-! DEFINITION. The control engine: compensator slots, triggers, overruns and faults, microcode, test injection
and trace (R246 to R253, R257 to R259, R263). -/

namespace Sys2Proof.Machine

/-! ### Readers -/

/-- Field [hi:lo] of word `w` of slot `s`. -/
def Dev.slotF (d : Dev) (s w hi lo : Nat) : Nat := fieldOf (d.slotW s w) hi lo

/-- A signed 16-bit field of word `w` of slot `s`: the upper half or the lower. -/
def Dev.slotQ (d : Dev) (s w : Nat) (upper : Bool) : Int :=
  sx 16 (if upper then d.slotF s w 31 16 else d.slotF s w 15 0)

/-- The latest output of slot `s` (CE_OUT). -/
def Dev.slotOut (d : Dev) (s : Nat) : Int := d.slotQ s 12 false

/-- Slot `s` is faulted. -/
def Dev.slotFaulted (d : Dev) (s : Nat) : Bool := d.bit Reg.CE_STAT s

/-- The descriptor of slot `s` enables it, in a mode that is not reserved. -/
def Dev.slotEn (d : Dev) (s : Nat) : Bool := bitOf (d.slotW s 0) 31 && d.slotF s 0 30 29 != 3

/-- A slot evaluates at all: engine and slot enabled, a mode that is not reserved, not faulted. -/
def Dev.slotOn (d : Dev) (s : Nat) : Bool := d.bit Reg.CE_CTL 0 && d.slotEn s && !d.slotFaulted s

/-- The sigma-delta channel is invalid; a number above 5 is no channel. -/
def Dev.sdmInv (d : Dev) (n : Nat) : Bool := 5 < n || d.bit Reg.SDM_STAT n

/-- The feedback of slot `s` is sigma-delta channel `n`. -/
def Dev.slotFb (d : Dev) (s n : Nat) : Bool := d.slotF s 1 26 25 = 0 && d.slotF s 1 24 22 = n

/-- Slot `s` drives a blocked PWM pair (R252, R256). -/
def Dev.slotBlk (d : Dev) (s : Nat) : Bool :=
  d.slotF s 1 21 20 = 1 && (d.bit Reg.PWM_STAT 0 || !d.bit Reg.PWM_CTL (d.slotF s 1 19 18))

/-! ### Class 10 (R250, R251) -/

/-- The source condition of class 10: a faulted slot, or CONV_FLT low on a module with a converter. -/
def Dev.cond10 (d : Dev) : Dev :=
  d.srcCond 10 (d.fld Reg.CE_STAT 7 0 != 0 || (d.pins.convFltLow && !d.bit Reg.DSP_CTL 3))

/-- Ochre of class 10 is asserted while a slot's consecutive overruns are not zero. -/
def Dev.ochre10 (d : Dev) : Dev :=
  d.srcOchre 10 ((List.range 8).any (fun s => d.slotF s 13 31 24 != 0))

/-- A slot faults (R251). -/
def Dev.slotFault (d : Dev) (s : Nat) : Dev :=
  if d.slotFaulted s then d
  else
    let d := ((d.slotDrop s).setBit Reg.CE_STAT s true).hw 0x5002 [nw s]
    (d.cond10.crim 10).traceOn 3

/-! ### Inputs (R246, R257, R258) -/

/-- The test-injection term of slot `s` at a point: 0 reference, 1 error, 2 output. -/
def Dev.tinjTerm (d : Dev) (s point : Nat) : Int :=
  if d.bit Reg.CE_TINJ 29 && d.fld Reg.CE_TINJ 26 24 = s && d.fld Reg.CE_TINJ 21 20 = point then
    let wave := d.fld Reg.CE_TINJ 17 16
    let w := if wave = 0 then sineOf (d.ce.tPhase % 2 ^ 32) (2 ^ 32) else prbsChip wave d.ce.tEvals
    sat16 (roundDiv (w * sx 16 (d.fld Reg.CE_TINJAMP 15 0)) (2 ^ 30))
  else 0

/-- The injected term of R257 at slot `s`. -/
def Dev.injTerm (d : Dev) (s : Nat) : Int :=
  match d.imp.inj with
  | none => 0
  | some i =>
    let scale := (d.slotW s 8).toNat
    if d.fld (Reg.IMP_INJ i.desc 0) 30 28 = s && scale != 0 then
      let (n, m) := d.injValue
      sat16 (roundDiv (n * 65536000) (m * scale))
    else 0

/-- The reference before injected terms. -/
def Dev.slotRef (d : Dev) (s : Nat) : Int :=
  let src := d.slotF s 1 31 30
  if src = 0 then d.slotQ s 3 true
  else if src = 1 then
    let scale := (d.slotW s 8).toNat
    if d.act 4 || scale = 0 then 0 else sat16 (roundDiv (d.rdI Reg.CE_DSPREF * 65536) scale)
  else if src = 2 then d.slotOut (d.slotF s 1 29 27)
  else 0

/-- The feedback. -/
def Dev.slotFbVal (d : Dev) (s : Nat) : Int :=
  let src := d.slotF s 1 26 25
  let i := d.slotF s 1 24 22
  if src = 0 then (if 5 < i then 0 else sx 16 (d.fld (Reg.SDM_FRAC i) 15 0))
  else if src = 1 then d.slotOut i
  else if src = 2 then d.slotQ s 11 false
  else 0

/-- Committed descriptor words come into force (R252): their keys lie above 16. -/
def Dev.slotCommitted (d : Dev) (s : Nat) : Dev :=
  let x := d.slot s
  let d := (List.range 16).foldl (fun (d : Dev) w =>
    match getO x.stage (16 + w) with
    | some v => d.wr (Reg.CE_SLOT s w) v
    | none => d) d
  d.setSlot s { x with stage := x.stage.filter (fun e => decide (e.1 < 16)) }

/-- An evaluation starts: words committed, inputs fetched, error formed (Table 9.1, cycles 1 and 2). -/
def Dev.slotStart (d : Dev) (s : Nat) : Dev :=
  let d := d.slotCommitted s
  let inj := d.injTerm s
  let t := d.tinjTerm s 0
  let r := sat16 (d.slotRef s + inj + t)
  let y := d.slotFbVal s
  let e := sat16 (sat16 (r - y) + d.tinjTerm s 1)
  d.setSlot s { d.slot s with
    waiting := false, running := true, r := r, y := y, e := e, a := 0, upc := none
    injTerm := sat16 (inj + t + d.tinjTerm s 1 + d.tinjTerm s 2) }

/-! ### The datapath (R248) -/

/-- The evaluations that wait, with slot `s` due in tick `t`: in ascending index among those of the tick, and behind every
one already due when another slot's completion triggered it. -/
def dueIn (t : Nat) (late : Bool) (s : Nat) : List DueEval → List DueEval
  | [] => [{ tick := t, late := late, slot := s }]
  | e :: r =>
    if !late && !e.late && e.tick = t && s < e.slot then { tick := t, late := late, slot := s } :: e :: r
    else e :: dueIn t late s r

/-- An evaluation has the datapath; one that has stopped at WAIT keeps it (DEDUCED: log entry 194). -/
def Dev.slotBusy (d : Dev) : Bool := (List.range 8).any (fun s => (d.slot s).running)

/-- The free datapath starts the evaluation that has been due longest. -/
def Dev.slotsNext (d : Dev) : Dev :=
  if d.slotBusy then d
  else
    match d.ce.due.filter (fun e => d.slotOn e.slot) with
    | [] => { d with ce := { d.ce with due := [] } }
    | e :: t => ({ d with ce := { d.ce with due := t } }).slotStart e.slot

/-- An evaluation of slot `s` is due in tick `t`: it starts when the datapath is free. -/
def Dev.slotDue (d : Dev) (t : Nat) (late : Bool) (s : Nat) : Dev :=
  ({ d with ce := { d.ce with due := dueIn t late s d.ce.due } }).slotsNext

/-- Slot `s` waits for the datapath. -/
def Dev.slotQueued (d : Dev) (s : Nat) : Bool := d.ce.due.any (fun e => e.slot == s)

/-! ### Triggers (R249, R250) -/

/-- An event of TRIG `t` at pair, channel or slot `i`: every slot it triggers has one event more to count,
behind those already due (R248). -/
def Dev.slotEvent (d : Dev) (t i : Nat) : Dev :=
  (List.range 8).foldl (fun (d : Dev) s =>
    if d.slotOn s && d.slotF s 0 22 20 = t && d.slotF s 0 19 16 = i then
      { d with ce := { d.ce with trig := dueIn d.now (t = 4) s d.ce.trig } }
    else d) d

/-- A trigger is accepted while the previous evaluation has not completed. -/
def Dev.slotOverrun (d : Dev) (s : Nat) : Dev :=
  let first := d.slotF s 13 31 24 = 0
  let d := (d.slotDrop s).flag Reg.CE_STAT (8 + s)
  let d := (d.satInc (Reg.CE_SLOT s 13) 31 24).satInc (Reg.CE_SLOT s 13) 23 0
  let d := d.ochre10
  let d := if first then d.hw 0x5001 [nw s] else d
  if d.fld Reg.CE_OVRLIM 7 0 ≤ d.slotF s 13 31 24 then d.slotFault s else d

/-- A trigger event of slot `s` in tick `t` is counted, and every DIV-th one may start an evaluation. -/
def Dev.slotTrigger (d : Dev) (t s : Nat) : Dev :=
  let div := d.slotF s 0 15 8
  if d.slotOn s = false || div = 0 || d.shedding then d
  else
    let x := d.slot s
    if x.events + 1 < div then d.setSlot s { x with events := x.events + 1 }
    else
      let d := d.setSlot s { x with events := 0 }
      if d.feedFrozen s then d
      else if d.slotBlk s then (if d.slotF s 0 27 26 != 0 then d.slotHistReset s else d)
      else if (match x.lastTrig with | some l => decide (t < l + usT 5) | none => false) then
        d.flag Reg.CE_STAT 29
      else
        let d := d.setSlot s { d.slot s with lastTrig := some t }
        if x.waiting || x.running || d.slotQueued s then (d.slotOverrun s).slotsNext
        else if bitOf (d.slotW s 0) 28 then d.setSlot s { d.slot s with waiting := true }
        else d.slotDue t (d.slotF s 0 22 20 = 4) s

/-- The trigger event of slot `s` that its source gave is counted, after every event that comes before it (R248, R249;
DEDUCED: log entry 48). -/
def Dev.slotEventTake (d : Dev) (s : Nat) : Dev :=
  match d.ce.trig.findIdx? (fun e => e.slot == s) with
  | none => d
  | some k =>
    (d.ce.trig.take (k + 1)).foldl (fun (d : Dev) e => d.slotTrigger e.tick e.slot)
      { d with ce := { d.ce with trig := d.ce.trig.drop (k + 1) } }

/-- At a sinc3 sample of channel `n` the evaluations that wait for it are due, in ascending order, and microcode that stopped
at WAIT goes on (R249, R253). -/
def Dev.slotsSample (d : Dev) (n : Nat) : Dev :=
  (List.range 8).foldl (fun (d : Dev) s =>
    let x := d.slot s
    if x.waiting && d.slotFb s n && d.slotOn s then
      let d := d.setSlot s { x with waiting := false }
      if x.running then d else d.slotDue d.now false s
    else d) d

/-! ### Compensators (R247) -/

/-- Saturation to the 40-bit accumulator. -/
def sat40 (i : Int) : Int := clampI (-549755813888) 549755813887 i

/-- Products summed with saturation, and whether any sum saturated. -/
def macSum : List (Int × Int) → Int → Bool → Int × Bool
  | [], a, f => (a, f)
  | (x, y) :: t, a, f => macSum t (sat40 (a + x * y)) (f || decide (sat40 (a + x * y) ≠ a + x * y))

/-- The output before the clamp of a 2p2z or 3p3z slot with error `e`, and whether the accumulator saturated. -/
def Dev.pzRaw (d : Dev) (s : Nat) (e : Int) : Int × Bool :=
  let x := d.slot s
  let three := d.slotF s 0 30 29 = 1
  let terms :=
    [(d.slotQ s 4 false, e), (d.slotQ s 4 true, d.slotQ s 15 false), (d.slotQ s 5 false, d.slotQ s 15 true)]
    ++ (if three then [(d.slotQ s 5 true, x.e3)] else [])
    ++ [(d.slotQ s 6 false, d.slotQ s 14 false), (d.slotQ s 6 true, d.slotQ s 14 true)]
    ++ (if three then [(d.slotQ s 7 false, x.u3)] else [])
  let (acc, f) := macSum terms 0 false
  let sh := acc * (2 ^ d.slotF s 3 2 0 : Nat)
  let acc' := sat40 sh
  (sarI (acc' + 16384) 15, f || decide (acc' ≠ sh))

/-- Two signed 16-bit numbers as one word. -/
def pack16 (hi lo : Int) : Word := nw ((hi % 65536).toNat * 65536 + (lo % 65536).toNat)

/-- The output is clamped and written; a clamp sets SAT (R247). -/
def Dev.slotWriteOut (d : Dev) (s : Nat) (raw : Int) : Dev × Int :=
  let u := clampI (d.slotQ s 2 false) (d.slotQ s 2 true) (raw + d.tinjTerm s 2)
  let d := if u = raw + d.tinjTerm s 2 then d else d.flag Reg.CE_STAT (16 + s)
  (d.wr (Reg.CE_SLOT s 12) (pack16 (d.slot s).e u), u)

/-! ### Microcode (R253) -/

/-- What a run of microcode ends in. -/
inductive UcEnd where
  | done | wait (pc : Nat) | fault
deriving DecidableEq, Repr

/-- q[i] of a microcode slot. -/
def qGet (q : List (Nat × Nat)) (i : Nat) : Int := sx 16 (getN q i)

/-- The words with q[i] as `v`. -/
def qPut (q : List (Nat × Nat)) (i : Nat) (v : Int) : List (Nat × Nat) := putN q i (v % 65536).toNat

/-- Microcode of slot `s` from word `pc` with words `q` and accumulator `a`. -/
def Dev.ucRun (d : Dev) (s : Nat) : Nat → Nat → List (Nat × Nat) → Int → Bool → UcEnd × List (Nat × Nat) × Int × Bool
  | 0, _, q, a, f => (.fault, q, a, f)
  | fuel + 1, pc, q, a, f =>
    let x := d.slot s
    if d.slotF s 10 8 0 + d.slotF s 10 24 16 ≤ pc || 512 ≤ pc then (.fault, q, a, f)
    else
      let i := d.rd (Reg.CE_UCODE pc)
      let op := fieldOf i 31 27
      let dd := fieldOf i 26 23
      let qa := qGet q (fieldOf i 22 19)
      let qb := qGet q (fieldOf i 18 15)
      let imm := fieldOf i 15 0
      let put (v : Int) := Dev.ucRun d s fuel (pc + 1) (qPut q dd v) a f
      let acc (v : Int) := Dev.ucRun d s fuel (pc + 1) q (sat40 v) (f || decide (sat40 v ≠ v))
      match op with
      | 0 => (.done, q, a, f)
      | 1 => put x.r
      | 2 => put x.y
      | 3 => put (d.slotOut (imm % 8))
      | 4 => put (sx 16 imm)
      | 5 => acc (qa * qb)
      | 6 => acc (a + qa * qb)
      | 7 => acc (a - qa * qb)
      | 8 => put (sat16 (sarI (a * (2 ^ (imm % 8) : Nat) + 16384) 15))
      | 9 => put (sat16 (qa + qb))
      | 10 => put (sat16 (qa - qb))
      | 11 => put qa
      | 12 => put (min qa qb)
      | 13 => put (max qa qb)
      | 14 => Dev.ucRun d s fuel (pc + (if qa < qb then 2 else 1)) q a f
      | 15 => (.wait (pc + 1), q, a, f)
      | _ => (.fault, q, a, f)

/-! ### Trace (R259) -/

/-- Signal `k` of the trace as a 16-bit number. -/
def Dev.traceSig (d : Dev) (k : Nat) : Nat :=
  let src := d.fld Reg.CE_TRCSEL (8 * k + 7) (8 * k + 4)
  let i := d.fld Reg.CE_TRCSEL (8 * k + 3) (8 * k)
  let slot (v : Int) : Nat := if i < 8 then (v % 65536).toNat else 0
  match src with
  | 1 => slot (d.slot i).r
  | 2 => slot (d.slot i).y
  | 3 => slot (d.slotQ i 12 true)
  | 4 => slot (d.slotOut i)
  | 5 => slot (d.slot i).injTerm
  | 6 => if i < 6 then d.fld (Reg.SDM_FRAC i) 15 0 else 0
  | 7 => if i < 6 then d.fld (Reg.SDM_FRAC i) 31 16 else 0
  | 8 => if i < 4 then d.fld (Reg.PWM_DUTY i) 19 4 else 0
  | _ => 0

/-- One trace sample: level triggers act on signal 0, the sample is stored, and the buffer may be complete. -/
def Dev.traceSample (d : Dev) : Dev :=
  let armed := d.bit Reg.CE_TRCSTAT 31
  if armed || (d.bit Reg.CE_TRCSTAT 30 && !d.bit Reg.CE_TRCSTAT 29) then
    let s0 := sx 16 (d.traceSig 0)
    let lvl := sx 16 (d.fld Reg.CE_TRCTRIG 15 0)
    let mode := d.fld Reg.CE_TRCTRIG 31 28
    let hit := match d.ce.trPrev with
      | some p => (mode = 1 && decide (p < lvl) && decide (lvl ≤ s0)) || (mode = 2 && decide (lvl < p) && decide (s0 ≤ lvl))
      | none => false
    let d := if armed && hit then d.traceTrigger else d
    let l := (List.range 4).flatMap (fun k => leBytes 2 (d.traceSig k))
    let d := d.agentStore ((d.rd Reg.CE_TRCBASE).toNat + 8 * d.ce.trIdx) l
    let d := { d with ce := { d.ce with trIdx := (d.ce.trIdx + 1) % 8192, trPrev := some s0 } }
    if d.bit Reg.CE_TRCSTAT 30 then
      let d := { d with ce := { d.ce with trLeft := d.ce.trLeft - 1 } }
      if d.ce.trLeft = 0 then d.setBit Reg.CE_TRCSTAT 29 true else d
    else d
  else d

/-- A completion of slot `s` on the trace's time base. -/
def Dev.traceTick (d : Dev) (s : Nat) : Dev :=
  let div := d.fld Reg.CE_TRCTRIG 23 16
  if d.fld Reg.CE_TRCTRIG 26 24 != s || div = 0 then d
  else if d.ce.trCount + 1 < div then { d with ce := { d.ce with trCount := d.ce.trCount + 1 } }
  else ({ d with ce := { d.ce with trCount := 0 } }).traceSample

/-- A write of CE_TRCCTL: a PRE of 8,192 or more is stored as 8,191, ARM starts recording, FORCE triggers (R259). -/
def Dev.trcCtl (d : Dev) (v : Word) : Dev :=
  let d := d.plainWrite Reg.CE_TRCCTL (withField v 12 0 (min 8191 (fieldOf v 29 0)))
  let d :=
    if bitOf v 31 then
      let d := d.wr Reg.CE_TRCSTAT 0x80000000
      { d with ce := { d.ce with trCount := 0, trIdx := 0, trLeft := 0, trPrev := none } }
    else d
  if bitOf v 30 then d.traceTrigger else d

/-! ### Test injection (R258) -/

/-- An evaluation of the test injection's slot: its phase advances, and it stops after PERIODS periods. -/
def Dev.tinjTick (d : Dev) (s : Nat) : Dev :=
  if d.bit Reg.CE_TINJ 29 && d.fld Reg.CE_TINJ 26 24 = s then
    let d := { d with ce := { d.ce with tPhase := d.ce.tPhase + (d.rd Reg.CE_TINJINC).toNat, tEvals := d.ce.tEvals + 1 } }
    let wave := d.fld Reg.CE_TINJ 17 16
    let n := d.fld Reg.CE_TINJ 15 0
    let ended := if wave = 0 then n * 2 ^ 32 ≤ d.ce.tPhase else n * waveLen wave ≤ d.ce.tEvals
    if ended then d.setBit Reg.CE_TINJ 29 false else d
  else d

/-- A write of CE_TINJ: a GO is refused beside an injection and with a reserved field; PERIODS 0 runs nothing, and a blocked
pair of its slot aborts it. -/
def Dev.tinjWrite (d : Dev) (v : Word) : Dev :=
  let d := d.plainWrite Reg.CE_TINJ v
  let d :=
    if bitOf v 31 = false then d
    else if d.imp.inj.isSome || fieldOf v 21 20 = 3 || fieldOf v 17 16 = 3 then d.flag Reg.CE_STAT 30
    else if fieldOf v 15 0 = 0 then d
    else
      let d := { d with ce := { d.ce with tPhase := 0, tEvals := 0 } }
      let d := (d.setBit Reg.CE_TINJ 29 true).traceOn 5
      if d.bit Reg.PWM_STAT 0 || d.slotBlk (fieldOf v 26 24) then d.tinjAbort else d
  if bitOf v 30 then d.tinjAbort else d

/-! ### Completion (R248) -/

/-- In the final round of a resynchronisation a duty sends a slot's history to its partner after each evaluation
(R411). -/
def Dev.slotShare (d : Dev) (s : Nat) : Dev :=
  if d.tw.rsPhase = 3 then
    let x := d.slot s
    d.send .twin 0x0B ([3, 0, 0, 0, s, 0, 0, 0] ++ byteNats (wordsBytes [d.slotW s 14, d.slotW s 15, pack16 x.u3 x.e3])
      ++ (List.range 16).flatMap (fun i => byteNats (leBytes 2 (getN x.q i))))
  else d

/-- What every completed evaluation does at its end; it is the event of TRIG 4, and the datapath is free. -/
def Dev.slotEnd (d : Dev) (s : Nat) : Dev :=
  let d := d.setSlot s { d.slot s with running := false, waiting := false, upc := none }
  let d := (d.setFld (Reg.CE_SLOT s 13) 31 24 0).ochre10
  ((((d.traceTick s).tinjTick s).slotShare s).slotEvent 4 s).slotsNext

/-- A running evaluation completes: output, history, destination; microcode runs until END or WAIT. -/
def Dev.slotComplete (d : Dev) (s : Nat) : Dev :=
  let d := d.slotsNext
  let x := d.slot s
  if x.running = false || x.waiting then d
  else if d.slotF s 0 30 29 = 2 then
    if d.slotF s 10 24 16 = 0 then d.slotEnd s
    else
      let (en, q, a, f) := d.ucRun s 513 (x.upc.getD (d.slotF s 10 8 0)) x.q x.a false
      let d := d.setSlot s { x with q := q, a := a }
      let d := if f then d.flag Reg.CE_STAT 28 else d
      match en with
      | .done =>
        let (d, u) := d.slotWriteOut s (qGet q 0)
        (d.slotDest s u).slotEnd s
      | .wait pc => d.setSlot s { d.slot s with waiting := true, upc := some pc }
      | .fault => (d.slotFault s).slotsNext
  else
    let (raw, f) := d.pzRaw s x.e
    let d := if f then d.flag Reg.CE_STAT 28 else d
    let e2 := d.slotQ s 15 true
    let e1 := d.slotQ s 15 false
    let u2 := d.slotQ s 14 true
    let u1 := d.slotQ s 14 false
    let (d, u) := d.slotWriteOut s raw
    let d := (d.wr (Reg.CE_SLOT s 14) (pack16 u1 u)).wr (Reg.CE_SLOT s 15) (pack16 e1 x.e)
    let d := d.setSlot s { d.slot s with e3 := e2, u3 := u2 }
    (d.slotDest s u).slotEnd s

/-! ### Register writes -/

/-- CE_FLTCLR: a fault whose cause has gone clears, with the history and the consecutive count (R251). -/
def Dev.fltClr (d : Dev) (v : Word) : Dev :=
  let d := (List.range 8).foldl (fun (d : Dev) s =>
    if bitOf v s && d.slotFaulted s && !(d.slotF s 1 26 25 = 0 && d.sdmInv (d.slotF s 1 24 22)) then
      let d := (d.setBit Reg.CE_STAT s false).slotHistReset s
      (d.setFld (Reg.CE_SLOT s 13) 31 24 0).hw 0x5003 [nw s]
    else d) d
  d.ochre10.cond10

/-- CE_KICK: slots with TRIG 6 are triggered in ascending order. -/
def Dev.kick (d : Dev) (v : Word) : Dev :=
  (List.range 8).foldl (fun (d : Dev) s => if bitOf v s && d.slotF s 0 22 20 = 6 then d.slotTrigger d.now s else d) d

/-- TPER of slot `s`: of a set that is committed as soon as it is, for the timer runs between evaluations (R249, R252). -/
def Dev.slotTper (d : Dev) (s : Nat) : Nat := fieldOf ((getO (d.slot s).stage 25).getD (d.slotW s 9)) 23 0

/-- The slow timer of slot `s` expires: TPER µs of the program time base have passed. -/
def Dev.slowTimer (d : Dev) (s : Nat) : Dev :=
  let n := d.slotTper s
  if d.slotF s 0 22 20 = 5 && n != 0 && n ≤ (d.tim.tb + 2 ^ 64 - (d.slot s).tbAt) % 2 ^ 64 then
    (d.setSlot s { d.slot s with tbAt := d.tim.tb }).slotTrigger d.now s
  else d

/-- A write of word `w` of slot `s`: words 2 to 6 and 8 to 10 are staged, word 7 commits, word 0 may enable the
slot, words 1 and 11 act at once, words 12 to 15 take nothing (R252, Table 9.8). -/
def Dev.slotWrite (d : Dev) (s w : Nat) (v : Word) : Dev :=
  let a := Reg.CE_SLOT s w
  let x := d.slot s
  let masked := match findRow a with | some r => r.write false (d.rd a) v | none => d.rd a
  if (2 ≤ w && w ≤ 6) || (8 ≤ w && w ≤ 10) then d.setSlot s { x with stage := putO x.stage w (some masked) }
  else if w = 7 then
    let st := (List.range 16).foldl (fun l k =>
      match getO x.stage k with
      | some u => putO (putO l (16 + k) (some u)) k none
      | none => l) x.stage
    d.setSlot s { x with stage := putO st 23 (some masked) }
  else if w = 0 then
    let was := bitOf (d.slotW s 0) 31
    let d := d.plainWrite a v
    let on := bitOf (d.slotW s 0) 31
    if on && !was then
      let d := d.slotHistReset s
      let d := ({ d with ce := { d.ce with trig := d.ce.trig.filter (fun e => e.slot != s) } }).slotDrop s
      d.setSlot s { d.slot s with events := 0, lastTrig := none, tbAt := d.tim.tb }
    else if !on && was then (d.slotDrop s).slotsNext
    else d
  else d.plainWrite a v

/-! ### Commands -/

/-- A trigger event of slot `sl`, of TRIG 1 to 4. -/
def execSlotTrigger (sl : BitVec 3) (s : State) : Host.Outcome State Fault Refusal :=
  s.lift (fun d => d.slotEventTake sl.toNat)

/-- The slow timer of slot `sl` expires. -/
def execSlowTimerExpiry (sl : BitVec 3) (s : State) : Host.Outcome State Fault Refusal :=
  s.lift (fun d => d.slowTimer sl.toNat)

/-- The evaluation of slot `sl` completes. -/
def execSlotComplete (sl : BitVec 3) (s : State) : Host.Outcome State Fault Refusal :=
  s.lift (fun d => d.slotComplete sl.toNat)

/-- A write of CE_FLTCLR. -/
def execSlotFaultClear (src : Writer) (v : Word) (s : State) : Host.Outcome State Fault Refusal :=
  s.lift (fun d => d.gate src Reg.CE_FLTCLR (fun d => d.fltClr v))

/-- A write of CE_KICK. -/
def execCeKick (src : Writer) (v : Word) (s : State) : Host.Outcome State Fault Refusal :=
  s.lift (fun d => d.gate src Reg.CE_KICK (fun d => d.kick v))

/-- A write of word 7 of a slot descriptor. -/
def execSlotDescriptorCommit (src : Writer) (sl : BitVec 3) (v : Word) (s : State) : Host.Outcome State Fault Refusal :=
  s.lift (fun d => d.gate src (Reg.CE_SLOT sl.toNat 7) (fun d => d.slotWrite sl.toNat 7 v))

/-- A write of CE_TINJ with GO. -/
def execTestInjectionGo (src : Writer) (v : Word) (s : State) : Host.Outcome State Fault Refusal :=
  s.lift (fun d => d.gate src Reg.CE_TINJ (fun d => d.tinjWrite (withBit v 31 true)))

/-- A write of CE_TINJ with STOP. -/
def execTestInjectionStop (src : Writer) (v : Word) (s : State) : Host.Outcome State Fault Refusal :=
  s.lift (fun d => d.gate src Reg.CE_TINJ (fun d => d.tinjWrite (withBit (withBit v 31 false) 30 true)))

/-- A write of CE_TRCCTL with ARM. -/
def execTraceArm (src : Writer) (v : Word) (s : State) : Host.Outcome State Fault Refusal :=
  s.lift (fun d => d.gate src Reg.CE_TRCCTL (fun d => d.trcCtl (withBit v 31 true)))

/-- A write of CE_TRCCTL with FORCE. -/
def execTraceForce (src : Writer) (v : Word) (s : State) : Host.Outcome State Fault Refusal :=
  s.lift (fun d => d.gate src Reg.CE_TRCCTL (fun d => d.trcCtl (withBit (withBit v 31 false) 30 true)))

end Sys2Proof.Machine
end

