-- ==== Sys2Proof/Machine/Pwm.lean ====
section
/-! DEFINITION. The high-resolution PWM: periods, shadows and blocking (R254 to R256, R264). -/

namespace Sys2Proof.Machine

/-- A pair that has loaded nothing. -/
def PairSt.idle : PairSt where
  per := 0
  duty := 0
  dt := 0
  ph := 0
  live := false
  cnt := 0
  cntAt := 0
  rise := 0
  fall := 0
  riseAt := 0
  fallAt := none
  wait := none

/-- Pair `p` beside its registers. -/
def Dev.pair (d : Dev) (p : Nat) : PairSt := (getO d.pwm p).getD PairSt.idle

/-- The module with pair `p` as `x`. -/
def Dev.setPair (d : Dev) (p : Nat) (x : PairSt) : Dev :=
  { d with pwm := putO d.pwm p (if x = PairSt.idle then none else some x) }

/-- The shadows of pair `p` load (R255). -/
def Dev.pairLoad (d : Dev) (p : Nat) : Dev :=
  d.setPair p { d.pair p with
    per := d.fld (Reg.PWM_PER p) 19 0
    duty := d.fld (Reg.PWM_DUTY p) 19 0
    dt := (d.rd (Reg.PWM_DT p)).toNat
    ph := d.fld (Reg.PWM_PH p) 19 0 }

/-- The units of a period of `per` at which the PWM signal rises and falls (R254). -/
def pwmEdges (centre : Bool) (per duty : Nat) : Nat × Nat :=
  let n := min duty per
  if centre then ((per - n) / 2, (per + n) / 2) else (0, n)

/-- Units since an edge of an earlier period, as far as a dead time can reach. -/
def edgeBack (t : Int) (per : Nat) : Int := max (-4096) (t - per)

/-- The counter of pair `p` at tick `t`: 51.2 units a tick since it last had a known value, modulo its period (R254). -/
def Dev.pairCount (d : Dev) (p t : Nat) : Nat :=
  let x := d.pair p
  (x.cnt + (t - x.cntAt) * 512 / 10) % max 1 x.per

/-- Pair `p` starts a period: its shadows load, its edges follow, and a released pair takes up its outputs; a PER of zero
gives no pulses. The start is the event of TRIG 1 (R249, R254 to R256). -/
def Dev.pairStart (d : Dev) (p : Nat) : Dev :=
  let o := d.pair p
  let d := d.pairLoad p
  let x := d.pair p
  let (r, f) := pwmEdges (d.bit (Reg.PWM_CFG p) 0) x.per x.duty
  let d := d.setPair p { x with
    cnt := 0
    cntAt := d.now
    live := x.per != 0 && d.bit Reg.PWM_CTL p && !d.bit Reg.PWM_STAT 0
    rise := r
    fall := f
    riseAt := if o.live && o.fall = o.per && r = 0 then edgeBack o.riseAt o.per else (r : Int)
    fallAt := if !o.live then none else if o.rise < o.fall then some (edgeBack o.fall o.per) else o.fallAt.map (fun t => edgeBack t o.per)
    wait := none }
  if x.per = 0 then d else d.slotEvent 1 p

/-- The period start of pair `p` that its counter gives; after SYNC it comes PH later (R254). -/
def Dev.pairTurn (d : Dev) (p : Nat) : Dev :=
  match (d.pair p).wait with
  | some t => if d.now < t then d else d.pairStart p
  | none => d.pairStart p

/-- The centre of a period of pair `p`: shadows that load here move the falling edge. It is the event of TRIG 2 (R249,
R255). -/
def Dev.pairCentre (d : Dev) (p : Nat) : Dev :=
  if (d.pair p).per = 0 || (d.pair p).wait.isSome then d
  else
    let d :=
      if d.bit (Reg.PWM_CFG p) 0 && d.bit (Reg.PWM_CFG p) 1 then
        let d := d.pairLoad p
        d.setPair p { d.pair p with fall := (pwmEdges true (d.pair p).per (d.pair p).duty).2 }
      else d
    d.slotEvent 2 p

/-! ### Outputs (R255, R256) -/

/-- The drivers of the PWM pairs are on: the module is not deposed, and KILL_IN has not removed their power (R395, R483). -/
def Dev.driversOn (d : Dev) : Bool := d.role != 3 && d.pins.outPower

/-- The high output of pair `p` at unit `u` of its period: on DTR units after the rising edge until the falling edge; SAFEH
while the pair is blocked or gives no pulses. -/
def Dev.pairHigh (d : Dev) (p u : Nat) : Bool :=
  let x := d.pair p
  if !d.driversOn then false
  else if x.live then decide (x.rise ≤ u) && decide (u < x.fall) && decide (x.riseAt + (x.dt % 4096 : Nat) ≤ u)
  else d.bit (Reg.PWM_CFG p) 3

/-- The low output of pair `p` at unit `u` of its period: on DTF units after the falling edge until the next rising edge;
none has come before the first falling edge after a release (DESIGN CHOICE: log entry 195). -/
def Dev.pairLow (d : Dev) (p u : Nat) : Bool :=
  let x := d.pair p
  let dtf := x.dt / 65536 % 4096
  if !d.driversOn then false
  else if x.live then
    (decide (x.rise < x.fall) && decide (x.fall + dtf ≤ u))
      || ((decide (u < x.rise) || decide (x.fall ≤ x.rise)) && x.fallAt.any (fun t => decide (t + (dtf : Nat) ≤ (u : Int))))
  else d.bit (Reg.PWM_CFG p) 2

/-- PWM_PER of pair `p`: a nonzero value outside the range is stored as the nearer bound (R254). -/
def Dev.perWrite (d : Dev) (p : Nat) (v : Word) : Dev :=
  let n := fieldOf v 19 0
  let b := if n = 0 then 0 else min 640000 (max 32000 n)
  let d := d.wr (Reg.PWM_PER p) (nw b)
  if b = n then d else (d.flag Reg.PWM_STAT 4).hw 0x5040 [nw p]

/-- A slot that drives pair `p`, which its EN blocks, acts on BLKACT, and its test injection aborts (R252, R258). -/
def Dev.slotUnpaired (d : Dev) (p s : Nat) : Dev :=
  if d.slotF s 1 21 20 = 1 && d.slotF s 1 19 18 = p then
    let d := if d.fld Reg.CE_TINJ 26 24 = s then d.tinjAbort else d
    if bitOf (d.slotW s 0) 31 then
      let d := d.slotDrop s
      if d.slotF s 0 27 26 != 0 then d.slotHistReset s else d
    else d
  else d

/-- SYNC restarts the counter of pair `p`, and PH modulo PER delays its start (R254). -/
def Dev.pairSync (d : Dev) (p : Nat) : Dev :=
  let ph := d.fld (Reg.PWM_PH p) 19 0 % max 1 (d.fld (Reg.PWM_PER p) 19 0)
  if ph = 0 then d.pairStart p else d.setPair p { d.pair p with wait := some (d.now + ceilDiv (10 * ph) 512) }

/-- PWM_CTL: a pair whose EN falls is blocked at once, with the slots that drive it; SYNC restarts the counters (R252, R254,
R256). -/
def Dev.pwmCtl (d : Dev) (v : Word) : Dev :=
  let was := d.fld Reg.PWM_CTL 3 0
  let d := (d.plainWrite Reg.PWM_CTL v).updateBlk
  let d := (List.range 4).foldl (fun (d : Dev) p =>
    if was.testBit p && !d.bit Reg.PWM_CTL p then
      let d := d.setPair p { d.pair p with live := false }
      (List.range 8).foldl (fun (d : Dev) s => d.slotUnpaired p s) d
    else d) d
  let d := d.slotsNext
  if bitOf v 8 then (List.range 4).foldl (fun (d : Dev) p => d.pairSync p) d else d

/-- CONV_FLT is low: the block holds, and a falling edge latches class 10 (R256). -/
def Dev.convFltFall (d : Dev) (fromReset : Bool) : Dev :=
  if d.pins.convFltLow then d
  else
    let d := ({ d with pins := { d.pins with convFltLow := true } }).updateBlk.cond10
    if fromReset then d else (d.hw 0x5030 []).crim 10

/-- CONV_FLT is high again. -/
def Dev.convFltRise (d : Dev) : Dev :=
  ({ d with pins := { d.pins with convFltLow := false } }).updateBlk.cond10

/-- PWM_BLKCLR: the direct block clears when the source condition of class 15 has ended (R256). -/
def Dev.blkClr (d : Dev) (v : Word) : Dev :=
  if bitOf v 0 = false then d
  else if getB d.lim.cond 15 then d.flag Reg.PWM_STAT 5
  else (d.setBit Reg.PWM_STAT 1 false).updateBlk

/-! ### Commands -/

/-- A pair starts a period. -/
def execPwmPeriodStart (p : BitVec 2) (s : State) : Host.Outcome State Fault Refusal :=
  s.lift (fun d => d.pairTurn p.toNat)

/-- A pair reaches the centre of its period. -/
def execPwmPeriodCentre (p : BitVec 2) (s : State) : Host.Outcome State Fault Refusal :=
  s.lift (fun d => d.pairCentre p.toNat)

/-- A write of PWM_PER. -/
def execPwmPerWrite (src : Writer) (p : BitVec 2) (v : Word) (s : State) : Host.Outcome State Fault Refusal :=
  s.lift (fun d => d.gate src (Reg.PWM_PER p.toNat) (fun d => d.perWrite p.toNat v))

/-- A write of PWM_CTL with SYNC. -/
def execPwmSync (src : Writer) (v : Word) (s : State) : Host.Outcome State Fault Refusal :=
  s.lift (fun d => d.gate src Reg.PWM_CTL (fun d => d.pwmCtl (withBit v 8 true)))

/-- CONV_FLT has been low for two cycles, by a falling edge or from reset release. -/
def execConvFltFall (fromReset : Bool) (s : State) : Host.Outcome State Fault Refusal :=
  s.lift (fun d => d.convFltFall fromReset)

/-- CONV_FLT returns high. -/
def execConvFltRise (s : State) : Host.Outcome State Fault Refusal :=
  s.lift (fun d => d.convFltRise)

/-- A write of PWM_BLKCLR. -/
def execPwmBlockClear (src : Writer) (v : Word) (s : State) : Host.Outcome State Fault Refusal :=
  s.lift (fun d => d.gate src Reg.PWM_BLKCLR (fun d => d.blkClr v))

end Sys2Proof.Machine
end

