-- ==== Sys2Proof/Machine/Sdm.lean ====
section
/-! DEFINITION. The sigma-delta inputs: samples, validity, calibration, charge accumulation and the fast
comparators (R180, R181, R239 to R245, R262). -/

namespace Sys2Proof.Machine

/-- A channel of which nothing is known. -/
def SdmCh.idle : SdmCh where
  count := 0
  good := 0
  settle := 0
  sampled := false

/-- Channel `n` beside its registers. -/
def Dev.sdmCh (d : Dev) (n : Nat) : SdmCh := (getO d.sdm n).getD SdmCh.idle

/-- The module with channel `n` as `x`. -/
def Dev.setSdm (d : Dev) (n : Nat) (x : SdmCh) : Dev :=
  { d with sdm := putO d.sdm n (if x = SdmCh.idle then none else some x) }

/-- Channel `n` has a modulator clock: its own, or the module's, which CKEN and a divisor drive (R239). -/
def Dev.sdmClock (d : Dev) (n : Nat) : Bool :=
  d.bit (Reg.SDM_CFG n) 29 || (d.bit Reg.SDM_CTL 8 && d.fld Reg.SDM_CKDIV 5 0 != 0)

/-- Channel `n` is enabled. -/
def Dev.sdmOn (d : Dev) (n : Nat) : Bool := decide (n < 6) && d.bit Reg.SDM_CTL n

/-! ### Classes 15 and the estimator's current (R181, R244, R245) -/

/-- A sinc2 fraction violates the limits of channel `n` (R244). -/
def Dev.cmpViolates (d : Dev) (n : Nat) (f : Int) : Bool :=
  let c := d.rd (Reg.SDM_CMP n)
  decide (sx 16 (fieldOf c 31 16) ≤ f) || decide (f ≤ sx 16 (fieldOf c 15 0))

/-- The latest sinc2 sample of channel `n` does not lie strictly inside its limits as they now stand. -/
def Dev.sdmOutside (d : Dev) (n : Nat) : Bool :=
  (d.sdmCh n).sampled && d.cmpViolates n (sx 16 (d.fld (Reg.SDM_FRAC n) 31 16))

/-- The source condition of class 15: a channel with CMPCLS that is invalid, or whose latest sinc2 sample does not
lie inside its limits. -/
def Dev.cond15 (d : Dev) : Dev :=
  d.srcCond 15 ((List.range 6).any (fun n => d.bit (Reg.SDM_CFG n) 2 && (d.sdmInv n || d.sdmOutside n)))

/-- After a reset every channel is invalid: one whose CMPCLS was kept has lost its guard (R245, R261). -/
def Dev.guardsAfter (d : Dev) : Dev :=
  let d := d.cond15
  if (List.range 6).any (fun n => d.bit (Reg.SDM_CFG n) 2 && d.sdmInv n) then d.crim 15 else d

/-- Ochre of class 15 follows SDM_STAT.WARN. -/
def Dev.ochre15 (d : Dev) : Dev := d.srcOchre 15 (d.fld Reg.SDM_STAT 29 24 != 0)

/-- EST_STAT.NOCUR1 and NOCUR2 follow the validity of the selected channels; an onset makes entry 0x3050. -/
def Dev.estNocur (d : Dev) : Dev :=
  let set (d : Dev) (i : Nat) (v : Bool) : Dev :=
    if v && !d.bit Reg.EST_STAT i then
      ({ (d.setBit Reg.EST_STAT i true) with est := { d.est with gap := d.est.gap || i = 0 } }).hw 0x3050 [nw (i + 1)]
    else d.setBit Reg.EST_STAT i v
  let d := set d 0 (d.sdmInv (d.fld Reg.EST_ICFG 2 0))
  set d 1 (d.bit Reg.EST_ICFG 8 && d.sdmInv (d.fld Reg.EST_ICFG 6 4))

/-- Channel `n` becomes invalid (R242): entry 0x5010, Crimson of class 15 with CMPCLS (R245), and the slots it
feeds fault (R251). -/
def Dev.sdmInvalid (d : Dev) (n : Nat) : Dev :=
  if 5 < n then d
  else
    let d := d.setSdm n { d.sdmCh n with good := 0 }
    if d.sdmInv n then d
    else
      let d := (d.setBit Reg.SDM_STAT n true).hw 0x5010 [nw n]
      let d := d.estNocur.cond15
      let d := if d.bit (Reg.SDM_CFG n) 2 then d.crim 15 else d
      ((List.range 8).foldl (fun (d : Dev) s => if d.slotOn s && d.slotFb s n then d.slotFault s else d) d).slotsNext

/-! ### Filters (R240, R241) -/

/-- The Q1.15 fraction of a raw sum at decimation `dec` and order `k`, ties upward. -/
def fracOf (out dec k : Nat) : Int :=
  let m := dec ^ k
  sat16 (roundDiv ((2 * (out : Int) - m) * 32768) m)

/-- The calibrated value of a fraction. -/
def Dev.sdmVal (d : Dev) (n : Nat) (frac : Int) : Int :=
  sat32 (sarI ((frac - sx 16 (d.fld (Reg.SDM_OFS n) 15 0)) * (d.rd (Reg.SDM_GAIN n)).toNat) 16)

/-! ### Charge (R180) -/

/-- The accumulators' registers show their integer parts. -/
def Dev.accShow (d : Dev) : Dev :=
  let p1 := d.acc.q1 / 16777216
  let p2 := d.acc.q2 / 16777216
  let d := (d.wr Reg.EST_QACC1_LO (iw p1)).wr Reg.EST_QACC1_HI (iw (p1 / 4294967296))
  (d.wr Reg.EST_QACC2_LO (iw p2)).wr Reg.EST_QACC2_HI (iw (p2 / 4294967296))

/-- Timer: the last sinc3 sample of channel n. -/
abbrev Tm.sdm (n : Nat) : Nat := 0x240 + n

/-- Nanoseconds since the channel's last sinc3 sample: from the module's clock, or as measured for a modulator's
own clock. -/
def Dev.sdmDt (d : Dev) (n : Nat) : Nat :=
  if d.bit (Reg.SDM_CFG n) 29 then 8 * d.since (Tm.sdm n)
  else 2 * d.fld (Reg.SDM_CFG n) 24 16 * d.fld Reg.SDM_CKDIV 5 0

/-- The accumulators take a current of `val` µA over `ns`, in 2^-24 µC. -/
def Dev.charge (d : Dev) (n : Nat) (val : Int) (ns : Nat) : Dev :=
  let dq : Int := val * ns * 16777216 / 1000000000
  if d.bit Reg.EST_CTL 0 then
    let d := if d.fld Reg.EST_ICFG 2 0 = n then { d with acc := { d.acc with q1 := d.acc.q1 + dq } } else d
    let d := if d.bit Reg.EST_ICFG 8 && d.fld Reg.EST_ICFG 6 4 = n then { d with acc := { d.acc with q2 := d.acc.q2 + dq } } else d
    d.accShow
  else d

/-! ### Samples -/

/-- SDM_STAT.WARN of channel `n` and Ochre of class 15 follow WARNEN, the limits and the latest sinc3 sample (R245). -/
def Dev.warnCheck (d : Dev) (n : Nat) : Dev :=
  let w := d.rd (Reg.SDM_WARN n)
  let f := sx 16 (d.fld (Reg.SDM_FRAC n) 15 0)
  let bad := d.bit (Reg.SDM_CFG n) 1 && d.running (Tm.sdm n)
    && (decide (sx 16 (fieldOf w 31 16) ≤ f) || decide (f ≤ sx 16 (fieldOf w 15 0)))
  (d.setBit Reg.SDM_STAT (24 + n) bad).ochre15

/-- A delivered sinc3 sample of channel `n`: fraction, value, settling, charge, warning, the event of TRIG 3, and waiting
slots. -/
def Dev.sinc3 (d : Dev) (n out : Nat) : Dev :=
  let d := d.slotsNext
  let frac := fracOf out (d.fld (Reg.SDM_CFG n) 24 16) 3
  let val := d.sdmVal n frac
  let d := (d.setFld (Reg.SDM_FRAC n) 15 0 (frac % 65536).toNat).wr (Reg.SDM_VAL n) (iw val)
  let x := d.sdmCh n
  let settling := decide (x.settle ≠ 0)
  let d := d.setSdm n { x with settle := x.settle - 1 }
  let d := if settling then d else (d.setBit Reg.SDM_STAT (8 + n) false).charge n val (d.sdmDt n)
  (((d.start (Tm.sdm n)).warnCheck n).slotEvent 3 n).slotsSample n

/-- A sinc3 output of channel `n` with raw sum `out`: an invalid channel counts it towards its four healthy
samples, a valid one delivers it (R242). -/
def Dev.sinc3Sample (d : Dev) (n out : Nat) : Dev :=
  if d.sdmOn n = false || d.sdmClock n = false || d.fld (Reg.SDM_CFG n) 24 16 = 0 then d
  else if d.sdmInv n then
    let x := d.sdmCh n
    if 3 ≤ x.good then
      let d := ((d.setSdm n { x with good := 0 }).setBit Reg.SDM_STAT n false).hw 0x5011 [nw n]
      (d.start (Tm.sdm n)).estNocur.cond15
    else d.setSdm n { x with good := x.good + 1 }
  else d.sinc3 n out

/-- A sinc2 sample of channel `n` (R244): the debounce count, and the decision as it reaches CDEB. -/
def Dev.sinc2Sample (d : Dev) (n out : Nat) : Dev :=
  if d.sdmOn n = false || d.sdmClock n = false || d.fld (Reg.SDM_CFG n) 15 10 = 0 || d.sdmInv n then d
  else
    let f := fracOf out (d.fld (Reg.SDM_CFG n) 15 10) 2
    let d := d.setFld (Reg.SDM_FRAC n) 31 16 (f % 65536).toNat
    let viol := d.cmpViolates n f
    let x := d.sdmCh n
    let cnt := if d.bit (Reg.SDM_CFG n) 4 && viol then satN 16 (x.count + 1) else 0
    let d := (d.setSdm n { x with count := cnt, sampled := true }).cond15
    let deb := max 1 (d.fld (Reg.SDM_CFG n) 9 6)
    if cnt = deb && x.count < deb then
      let d := d.flag Reg.SDM_STAT (16 + n)
      let d := if d.bit (Reg.SDM_CFG n) 3 then (d.setBit Reg.PWM_STAT 1 true).updateBlk else d
      let d := if d.bit (Reg.SDM_CFG n) 2 then d.crim 15 else d
      d.hw 0x5020 [nw n]
    else d

/-! ### Register writes -/

/-- Decimation restarts on all enabled channels: each settles for three samples (R243). -/
def Dev.sdmSync (d : Dev) : Dev :=
  (List.range 6).foldl (fun (d : Dev) n =>
    if d.sdmOn n then (d.setSdm n { d.sdmCh n with settle := 3 }).setBit Reg.SDM_STAT (8 + n) true else d) d

/-- SDM_CTL: a channel that is disabled counts as invalid; SYNC restarts decimation. -/
def Dev.sdmCtl (d : Dev) (v : Word) : Dev :=
  let d := d.plainWrite Reg.SDM_CTL v
  let d := (List.range 6).foldl (fun (d : Dev) n => if d.sdmOn n then d else d.sdmInvalid n) d
  if bitOf v 9 then d.sdmSync else d

/-- SDM_CKDIV: a nonzero value outside 20 to 50 is stored as the nearer bound (R239). -/
def Dev.ckDiv (d : Dev) (v : Word) : Dev :=
  let n := fieldOf v 5 0
  d.wr Reg.SDM_CKDIV (nw (if n = 0 then 0 else min 50 (max 20 n)))

/-- SDM_CFG of channel `n`: decimations are stored within their ranges, the warning follows, and CMPCLS set on an invalid
channel latches Crimson of class 15 (R240, R245). -/
def Dev.sdmCfg (d : Dev) (n : Nat) (v : Word) : Dev :=
  let b (lo hi x : Nat) : Nat := if x = 0 then 0 else min hi (max lo x)
  let v := withField (withField v 24 16 (b 16 256 (fieldOf v 24 16))) 15 10 (b 4 32 (fieldOf v 15 10))
  let was := d.bit (Reg.SDM_CFG n) 2
  let d := ((d.plainWrite (Reg.SDM_CFG n) v).cond15).warnCheck n
  if d.bit (Reg.SDM_CFG n) 2 && !was && d.sdmInv n then d.crim 15 else d

/-- SDM_CMP of channel `n`: its latest sample is judged against the new limits. -/
def Dev.sdmCmp (d : Dev) (n : Nat) (v : Word) : Dev := (d.plainWrite (Reg.SDM_CMP n) v).cond15

/-- SDM_WARN of channel `n`. -/
def Dev.sdmWarn (d : Dev) (n : Nat) (v : Word) : Dev := (d.plainWrite (Reg.SDM_WARN n) v).warnCheck n

/-- EST_ICFG or EST_CTL as written: with SECEN 0 the secondary accumulator stays at zero (R181). -/
def Dev.estCurWrite (d : Dev) (a : Nat) (v : Word) : Dev :=
  let d := d.plainWrite a v
  let d := if d.bit Reg.EST_ICFG 8 then d else ({ d with acc := { d.acc with q2 := 0 } }).accShow
  d.estNocur

/-! ### The latch at a strobe (R181) -/

/-- The accumulators and the currents are copied in the tick of a strobe. -/
def Dev.currentLatch (d : Dev) : Dev :=
  let d := d.estNocur
  let cp (d : Dev) (x y : Nat) : Dev := d.wr y (d.rd x)
  let d := cp (cp d Reg.EST_QACC1_LO Reg.EST_QLAT1_LO) Reg.EST_QACC1_HI Reg.EST_QLAT1_HI
  let d := cp (cp d Reg.EST_QACC2_LO Reg.EST_QLAT2_LO) Reg.EST_QACC2_HI Reg.EST_QLAT2_HI
  let val (k : Nat) : Word := if 5 < k then 0 else d.rd (Reg.SDM_VAL k)
  let d := d.wr Reg.EST_ILAT1 (val (d.fld Reg.EST_ICFG 2 0))
  d.wr Reg.EST_ILAT2 (val (d.fld Reg.EST_ICFG 6 4))

/-! ### Commands -/

/-- A sinc3 output sample. -/
def execSinc3Sample (n : BitVec 3) (out : BitVec 25) (s : State) : Host.Outcome State Fault Refusal :=
  s.lift (fun d => d.sinc3Sample n.toNat out.toNat)

/-- A sinc2 output sample. -/
def execSinc2Sample (n : BitVec 3) (out : BitVec 11) (s : State) : Host.Outcome State Fault Refusal :=
  s.lift (fun d => d.sinc2Sample n.toNat out.toNat)

/-- A missing clock, or stuck data, for which a STUCK of zero applies no test. -/
def execSdmInvalid (n : BitVec 3) (stuck : Bool) (s : State) : Host.Outcome State Fault Refusal :=
  s.lift (fun d => if stuck && d.fld Reg.SDM_INVCFG 11 0 = 0 then d else d.sdmInvalid n.toNat)

/-- A write of SDM_CTL with SYNC. -/
def execSdmSync (src : Writer) (v : Word) (s : State) : Host.Outcome State Fault Refusal :=
  s.lift (fun d => d.gate src Reg.SDM_CTL (fun d => d.sdmCtl (withBit v 9 true)))

end Sys2Proof.Machine
end

