-- ==== Sys2Proof/Machine/Ring.lean ====
section
/-! DEFINITION. The Sheok ring link as the module sees it: links and breaks, ring states, commands, enumeration
and strobe delays (R60 to R101, R563, R565, R566).  Nodes are outside the module: what they answer comes with the
commands. -/

namespace Sys2Proof.Machine

/-! ### Readers -/

/-- The number of a port: A is 0, B is 1. -/
abbrev portNo (x : Bool) : Nat := b2n x

/-- SKA_RING.STATE: 0 DOWN, 1 ENUM, 2 NORMAL, 3 BROKEN, 4 SPLIT, 5 HEAL, 6 SLEEP. -/
def Dev.ringState (d : Dev) : Nat := d.fld (Reg.SK_RING 0) 2 0

/-- The ring is in SPLIT or HEAL: strobes leave both ends. -/
def Dev.ringSplit (d : Dev) : Bool := d.ringState = 4 || d.ringState = 5

/-- The port is enabled and its transmitter on. -/
def Dev.portOn (d : Dev) (x : Bool) : Bool := d.bit (Reg.SK_CTL (portNo x)) 0 && d.bit (Reg.SK_CTL (portNo x)) 1

/-- The port sends as an issuing end: on, and issuing by END or by split mode (R61). -/
def Dev.issues (d : Dev) (x : Bool) : Bool := d.portOn x && (d.fld (Reg.SK_CTL (portNo x)) 3 2 = 0 || d.ringSplit)

/-- The interface of a port. -/
def portIface (x : Bool) : Iface := if x then .ringB else .ringA

/-- A frame as the module issues it: the header of Table 3.2 with HOP, TAG and STAT zero, the payload, and the CRC-32C
(R70, R71; the TAG is a DESIGN CHOICE: log entry 186). -/
def frameBytes (cmd dst arg : Nat) (pay : List Nat) : List Nat :=
  let h := [cmd, dst, 0, 0, pay.length % 256, pay.length / 256, arg, 0] ++ pay
  h ++ byteNats (leBytes 4 (crc32c (h.map (fun n => BitVec.ofNat 8 n))).toNat)

/-- A module of a pair has its partner's heartbeats. -/
def Dev.pairUp (d : Dev) : Bool := (d.role = 1 || d.role = 2) && d.bit Reg.TW_STAT 6

/-- A port stands at the far end of the ring: in a pair the ports of position 2 do (R60, R382), else port B, or a port
that is not the issuing end. -/
def Dev.farEnd (d : Dev) (x : Bool) : Bool :=
  if d.role != 0 then d.bit Reg.TW_CFG 1 else x || d.fld (Reg.SK_CTL (portNo x)) 3 2 != 0

/-- System firmware runs the ring: full service, and neither SKA nor SKB is claimed (R100). -/
def Dev.ringBasic (d : Dev) : Bool := d.pwr.full && d.manages 6 && d.manages 7

/-- Ordered sets are listed with these kinds, above the command codes. -/
abbrev setStrobe : Nat := 0x101
abbrev setBlank : Nat := 0x102
abbrev setWake : Nat := 0x107

/-- Ticks in `n` symbols of 80 ns. -/
def symT (n : Nat) : Nat := 10 * n

/-- The lane is busy for `n` more symbols. -/
def Dev.laneBusy (d : Dev) (n : Nat) : Dev := { d with ring := { d.ring with busyTill := max d.ring.busyTill d.now + symT n } }

/-- Node `k` is reached from the end of the ring at which port A of this module stands, in the present ring state. -/
def Dev.reachesOwn (d : Dev) (x : Bool) (k : Nat) : Bool :=
  if x then (d.fld (Reg.SK_RING 0) 29 24 != 63 && d.fld (Reg.SK_RING 0) 29 24 ≤ k)
  else (d.fld (Reg.SK_RING 0) 21 16 != 63 && k ≤ d.fld (Reg.SK_RING 0) 21 16)

/-- Node `k` is reached from the A end, or from the far end, in the present ring state; while no break has been
located from either end, every node is.  A module of a pair that has no break point from its partner's end takes it that the
partner reaches what its own end does not (R94). -/
def Dev.reaches (d : Dev) (x : Bool) (k : Nat) : Bool :=
  let none_ (x : Bool) : Bool := if x then d.fld (Reg.SK_RING 0) 29 24 = 63 else d.fld (Reg.SK_RING 0) 21 16 = 63
  if (d.ringState = 3 || d.ringSplit) && !(none_ false && none_ true) then
    d.reachesOwn x k || (d.pairUp && none_ x && !d.reachesOwn (!x) k)
  else true

/-- In SPLIT the duty of a pair passes a command meant for nodes beyond the break on to its partner, whose port serves their
segment, in a CMD frame of command 5 (R404). -/
def Dev.partnerFrame (d : Dev) (data : List Nat) : Dev :=
  let dst := nth data 1 % 64
  if d.ringSplit && d.hasShade && (dst = 63 || (decide (dst < 48) && !d.reaches (d.farEnd false) dst)) then
    d.send .twin 0x09 ([5, 0, 0, 0] ++ byteNats (leBytes 4 data.length) ++ data)
  else d

/-- A frame or ordered set leaves every issuing port; the lane is busy with a frame until its EOF has left. -/
def Dev.ringSend (d : Dev) (kind : Nat) (data : List Nat) : Dev :=
  let d := [false, true].foldl (fun (d : Dev) x => if d.issues x then d.send (portIface x) kind data else d) d
  if kind < 0x100 then (d.laneBusy (data.length + 2)).partnerFrame data else d

/-- A command frame leaves every issuing port. -/
def Dev.frameSend (d : Dev) (cmd dst arg : Nat) (pay : List Nat) : Dev := d.ringSend cmd (frameBytes cmd dst arg pay)

/-- A command frame leaves the port of this module that stands at the A end or at the far end, whatever its END is set to. -/
def Dev.endSend (d : Dev) (far : Bool) (cmd dst arg : Nat) (pay : List Nat) : Dev :=
  [false, true].foldl (fun (d : Dev) x =>
    if d.farEnd x == far && d.portOn x then (d.send (portIface x) cmd (frameBytes cmd dst arg pay)).laneBusy (pay.length + 14)
    else d) d

/-- A frame leaves one port that is on, whatever its END is set to. -/
def Dev.portSend (d : Dev) (x : Bool) (kind : Nat) (data : List Nat) : Dev :=
  if d.portOn x then (d.send (portIface x) kind data).laneBusy (data.length + 2) else d

/-- What node `k` declared: NCAPS, LOOPT, LATCHOFS. -/
def Dev.nodeCaps (d : Dev) (k : Nat) : Nat × Nat × Nat := (getO d.ring.caps k).getD (0, 0, 0)

/-- NV of node `k`. -/
def Dev.nodeNV (d : Dev) (k : Nat) : Nat := (d.nodeCaps k).1 % 32

/-- NT of node `k`. -/
def Dev.nodeNT (d : Dev) (k : Nat) : Nat := (d.nodeCaps k).1 / 32 % 64

/-- NA of node `k`. -/
def Dev.nodeNA (d : Dev) (k : Nat) : Nat := (d.nodeCaps k).1 / 2048 % 8

/-- LAGST of node `k`: 0 NORMAL, 1 STRETCH, 2 LAGGARD, 3 LOST. -/
def Dev.lagst (d : Dev) (k : Nat) : Nat := d.fld (Reg.SK_NODE 0 k) 17 16

/-- The recorder entry of a slow-node state (Table 3.13). -/
def lagEvent (st : Nat) : Nat := if st = 1 then 0x1020 else if st = 2 then 0x1021 else if st = 0 then 0x1022 else 0x1023

/-- Field [hi:lo] of SKx_NODE of node `k`, which both ports show. -/
def Dev.setNode (d : Dev) (k hi lo v : Nat) : Dev := (d.setFld (Reg.SK_NODE 0 k) hi lo v).setFld (Reg.SK_NODE 1 k) hi lo v

/-- Node `k` enters a slow-node state with its entry, which names the node (DESIGN CHOICE: log entry 177); its runs start
again. -/
def Dev.lagSet (d : Dev) (k st : Nat) : Dev :=
  if d.lagst k = st then d
  else
    let d := (d.setNode k 17 16 st).hw (lagEvent st) [nw k]
    { d with ring := { d.ring with tight := putN d.ring.tight k 0, fit := putN d.ring.fit k 0, tail := putN d.ring.tail k 0 } }

/-! ### Times of flight and delays (R87, R88) -/

/-- The measured time of flight of node `k` from an end, when valid. -/
def Dev.tof (d : Dev) (x : Bool) (k : Nat) : Option Nat :=
  if d.bit (Reg.SK_TOF (portNo x) k) 31 then some (d.fld (Reg.SK_TOF (portNo x) k) 15 0) else none

/-- SKx_TOF of node `k` takes a measurement, or loses its VALID. -/
def Dev.setTof (d : Dev) (x : Bool) (k : Nat) (t : Option Nat) : Dev :=
  d.wr (Reg.SK_TOF (portNo x) k) (match t with | some n => nw (2 ^ 31 + n % 65536) | none => 0)

/-- The time of flight from the round trips of a node's echoes: the mean of (RTT − LOOPT) / 2 in whole ns.  Of a fraction the
spec gives no rounding, and of round trips below LOOPT no result (DESIGN CHOICE: log entry 176). -/
def tofMean (lo : Nat) (l : List (BitVec 24)) : Option Nat :=
  if l.isEmpty then none
  else
    let s : Int := ((l.map (fun r => r.toNat)).foldl (· + ·) 0 : Nat) - ((l.length * lo : Nat) : Int)
    let n : Int := ((2 * l.length : Nat) : Int)
    some ((if 0 ≤ s then quotR s n else Config.quot s n).toNat % 65536)

/-- SKx_RTT takes the round trip of the last echo of an end at the port that stands there, if one of this module does (R87,
R97). -/
def Dev.rttNote (d : Dev) (far : Bool) (l : List (BitVec 24)) : Dev :=
  match l.getLast? with
  | some r =>
    if d.role != 0 then (if d.farEnd false == far then d.setFld (Reg.SK_RTT 0) 23 0 r.toNat else d)
    else d.setFld (Reg.SK_RTT (portNo far)) 23 0 r.toNat
  | none => d

/-- The next multiple of 8 at or above a number. -/
def up8 (n : Nat) : Nat := (n + 7) / 8 * 8

/-- T_ref over the nodes (R88); in SPLIT over what each end reaches (R94). -/
def Dev.trefOf (d : Dev) : Nat :=
  up8 ((List.range (d.ring.count.getD 0)).foldl (fun m k =>
    let l := (d.nodeCaps k).2.2
    [false, true].foldl (fun m x =>
      match d.tof x k with
      | some t => if d.reaches x k then max m (t + l) else m
      | none => m) m) 0)

/-- The delay of node `k` for one end: zero without a time of flight. -/
def Dev.dly (d : Dev) (tref : Nat) (x : Bool) (k : Nat) : Nat :=
  match d.tof x k with
  | some t => tref - t - (d.nodeCaps k).2.2
  | none => 0

/-- WRITE of DLYF and DLYR to node `k`. -/
def Dev.delayWrite (d : Dev) (tref k : Nat) : Dev :=
  d.frameSend 0x05 k 0x08 (byteNats (leBytes 4 (d.dly tref false k) ++ leBytes 4 (d.dly tref true k)))

/-! ### Ring states (R92) -/

/-- An open-wire pass ends with ABORT, and OWCTL is written 0 (R124). -/
def Dev.owAbort (d : Dev) : Dev :=
  match d.swp.ow with
  | none => d
  | some p =>
    let d := { d with swp := { d.swp with ow := none } }
    let d := (d.setBit Reg.SWP_OWSTAT 31 false).setBit Reg.SWP_OWSTAT 29 true
    d.frameSend 0x05 p.node 0x0C [0, 0, 0, 0]

/-- Neither end of the ring reaches node `k` (R94). -/
def Dev.unreached (d : Dev) (k : Nat) : Bool := !(d.reaches false k || d.reaches true k)

/-- The ring enters a state: entries of Table 3.13; in SPLIT unreached nodes are lost and, at basic level,
firmware forms a new T_ref (R94). -/
def Dev.ringSet (d : Dev) (st : Nat) : Dev :=
  let was := d.ringState
  if was = st then d
  else
    let d := (d.setFld (Reg.SK_RING 0) 2 0 st).stop Tm.linkOk
    let d := if was = 2 then d.owAbort else d
    if st = 3 then d.hw 0x1010 []
    else if st = 4 then
      let d := d.hw 0x1011 []
      let n := d.ring.count.getD 0
      let d := (List.range n).foldl (fun (d : Dev) k => if d.unreached k then d.lagSet k 3 else d) d
      if !d.ringBasic then d else { d with ring := { d.ring with trefNew := some d.trefOf } }
    else if st = 2 then (d.setFld (Reg.SK_RING 0) 29 24 63).setFld (Reg.SK_RING 0) 21 16 63
    else d

/-- NORMAL becomes BROKEN. -/
def Dev.ringBreak (d : Dev) : Dev := if d.ringState = 2 then d.ringSet 3 else d

/-- A break point is noted: the last node reached from the A end or from the far end. -/
def Dev.brk (d : Dev) (x : Bool) (k : Nat) : Dev :=
  if x then d.setFld (Reg.SK_RING 0) 29 24 k else d.setFld (Reg.SK_RING 0) 21 16 k

/-- Timer: the issuing end's link came up. -/
abbrev Tm.ringUp : Nat := 22

/-- A port's receiver declares the link up (R63). -/
def Dev.ringLinkUp (d : Dev) (x : Bool) : Dev :=
  if d.bit (Reg.SK_CTL (portNo x)) 0 = false then d
  else
    let d := d.setBit (Reg.SK_STAT (portNo x)) 0 true
    if x then d else d.start Tm.ringUp

/-- A port declares LOS (R63, R92): the break lies in the cable into that port. -/
def Dev.ringLos (d : Dev) (x : Bool) : Dev :=
  if d.bit (Reg.SK_CTL (portNo x)) 0 = false then d
  else
    let d := ((d.setBit (Reg.SK_STAT (portNo x)) 0 false).setBit (Reg.SK_STAT (portNo x)) 1 false).flag (Reg.SK_STAT (portNo x)) 3
    let d := d.hw (if x then 0x1002 else 0x1001) []
    if d.ringState = 2 then
      let n := d.ring.count.getD 0
      let d := if d.farEnd x then (d.brk true 63).brk false (if n = 0 then 63 else n - 1) else (d.brk false 63).brk true 0
      d.ringBreak
    else d

/-- The ring leaves DOWN for ENUM (Table 3.8). -/
def Dev.ringDownExit (d : Dev) : Dev :=
  if d.ringState = 0 && d.bit (Reg.SK_STAT 0) 0 && (d.bit (Reg.SK_STAT 1) 0 || d.due Tm.ringUp (msT 2)) then
    d.ringSet 1
  else d

/-- A FAULT set from the device at address `a` is received at an enabled port; one with a bad check is discarded (R66). -/
def Dev.faultReceive (d : Dev) (x : Bool) (a p c : Nat) : Dev :=
  if d.bit (Reg.SK_CTL (portNo x)) 0 = false || c != a ^^^ p ^^^ 0x5A then d
  else
    let d := d.flag (Reg.SK_STAT (portNo x)) 8
    let n := d.ring.count.getD 0
    let facing := if d.bit Reg.TW_CFG 1 then a = 0 && p = 0 else a + 1 = n && p = 1
    let d := if !x && facing then d.start Tm.faultHeard else d
    let st := d.ringState
    if st = 2 || st = 3 || st = 4 then (d.brk (d.farEnd x) (a % 64)).ringBreak else d

/-- A frame that is being received goes on, or has ended (R73, R98). -/
def Dev.frameEnd (d : Dev) (x : Bool) (fin : FrameEnd) : Dev :=
  let a := Reg.SK_STAT (portNo x)
  let d := d.setBit a 1 (fin = .more)
  match fin with
  | .badCrc => (d.flag a 6).satInc (Reg.SK_ERRCNT (portNo x)) 31 16
  | .abort => d.flag a 5
  | .code => (d.flag a 4).satInc (Reg.SK_ERRCNT (portNo x)) 15 0
  | _ => d

/-- HEAL leaves, then the READ to DST 62 that proves the ring (R92). -/
def Dev.healGo (d : Dev) : Dev := (((d.frameSend 0x09 63 0 []).ringSet 5).frameSend 0x04 62 0 []).start Tm.heal

/-- Firmware heals a ring whose looping nodes have reported LINKOK for 1 s, while AUTOHEAL is 1: that of SKA_CTL, beside which
that of SKB_CTL has no effect (R92, R94; DESIGN CHOICE: log entry 210). -/
def Dev.healTry (d : Dev) : Dev :=
  if d.ringState = 4 && d.bit (Reg.SK_CTL 0) 4 && d.leads && d.ringBasic && d.due Tm.linkOk (secT 1) then d.healGo else d

/-- What the looping nodes' NSTAT shows: LINKOK at both, or not (R92, R565); the command carries what the reads of NSTAT have
brought (DESIGN CHOICE: log entry 187). -/
def Dev.healSend (d : Dev) (linkOk : Bool) : Dev :=
  if d.ringState != 4 then d
  else if linkOk then (if d.running Tm.linkOk then d else d.start Tm.linkOk).healTry
  else d.stop Tm.linkOk

/-- A write of SKx_CTL: CLRCNT clears the counters, AUTOHEAL lets a ring heal that waits for it (R94), and a port A that is
disabled takes the ring DOWN. -/
def Dev.skCtl (d : Dev) (x : Nat) (v : Word) : Dev :=
  let d := d.plainWrite (Reg.SK_CTL x) v
  let d := if bitOf v 5 then (d.wr (Reg.SK_ERRCNT x) 0).wr (Reg.SK_SLOTERR x) 0 else d
  if bitOf v 0 then (if x = 0 then d.healTry else d)
  else
    let d := (d.setBit (Reg.SK_STAT x) 0 false).setBit (Reg.SK_STAT x) 1 false
    if x = 0 then d.ringSet 0 else d

/-- SKx_NODE: REARM returns a LOST node to NORMAL. -/
def Dev.rearm (d : Dev) (k : Nat) (v : Word) : Dev :=
  if bitOf v 31 && d.lagst k = 3 then d.lagSet k 0 else d

/-! ### Commands (R99) -/

/-- Ticks in `n` nanoseconds, rounded up. -/
def nsT (n : Nat) : Nat := (n + 7) / 8

/-- T_ring in ticks (R105). -/
def Dev.tRing (d : Dev) : Nat :=
  nsT (if d.ring.trans.length < 32 then d.ring.trans0 else d.ring.trans.foldl max 0)

/-- A port's queued or sent command: buffer, length, and whether it has left. -/
def Dev.cmdOf (d : Dev) (x : Bool) : Option (Nat × Nat × Bool) := if x then d.ring.cmdB else d.ring.cmdA

/-- The module with a port's command as `c`; BUSY follows. -/
def Dev.setCmd (d : Dev) (x : Bool) (c : Option (Nat × Nat × Bool)) : Dev :=
  let d := if x then { d with ring := { d.ring with cmdB := c } } else { d with ring := { d.ring with cmdA := c } }
  d.setBit (Reg.SK_CMDSTAT (portNo x)) 0 c.isSome

/-- Timer: the command of a port has left. -/
abbrev Tm.cmd (x : Bool) : Nat := 24 + b2n x

/-- The command's frame buffer lies aligned in the engine or communication buffers. -/
def cmdBufOk (a n : Nat) : Bool :=
  a % 4 = 0 && ((0x10C00000 ≤ a && a + n ≤ 0x10E00000) || (0x10F00000 ≤ a && a + n ≤ 0x11000000))

/-- The command of a port has left and its answer is awaited. -/
def Dev.cmdOut (d : Dev) (x : Bool) : Bool := match d.cmdOf x with | some (_, _, b) => b | none => false

/-- No frame is on the ring: every collect frame has passed it, and no answer is awaited (R78). -/
def Dev.ringQuiet (d : Dev) : Bool :=
  decide (d.ring.busyTill + d.tRing ≤ d.now) && !d.cmdOut false && !d.cmdOut true && !d.running Tm.heal

/-- SKx_CMDGO queues the frame of a length in the buffer that SKx_CMDADDR names now; zero is complete at once, a bad length or address is refused, and a
write while BUSY is ignored. -/
def Dev.cmdGo (d : Dev) (x : Bool) (v : Word) : Dev :=
  let n := fieldOf v 13 0
  let st := Reg.SK_CMDSTAT (portNo x)
  let a := (d.rd (Reg.SK_CMDADDR (portNo x))).toNat
  let badLen := n < 8 || 8200 < n
  let badAddr := !cmdBufOk a n
  if d.bit st 0 then d
  else if n = 0 then d.flag st 1
  else if badLen || badAddr then
    let d := if badLen then d.flag st 4 else d
    if badAddr then d.flag st 5 else d
  else d.setCmd x (some (a, n, false))

/-- The ring takes the state that a frame of a program brings: HEAL in SPLIT, and SLEEP (R92, R100). -/
def Dev.cmdState (d : Dev) (cmd : Nat) : Dev :=
  if cmd = 9 && d.ringState = 4 then d.ringSet 5
  else if cmd = 7 then ({ d with ring := { d.ring with slept := true } }).ringSet 6
  else d

/-- The queued frame leaves with its CRC in a gap between collect frames, an ECHO only while no other frame is on the ring
(R78, R99); with a CMDTO of zero it is complete.  It leaves a port that is on whatever its END is set to; a shade sends
none, since it issues ring commands on CMD frames alone (R401). -/
def Dev.cmdSend (d : Dev) (x : Bool) : Dev :=
  match d.cmdOf x with
  | some (a, n, false) =>
    let l := d.bytes a n
    let cmd := leNat (l.take 1)
    if d.now < d.ring.busyTill || (cmd = 3 && !d.ringQuiet) then d
    else
      let data := byteNats (l ++ leBytes 4 (crc32c l).toNat)
      let d := if d.portOn x && d.role != 2 then ((d.portSend x cmd data).partnerFrame data).cmdState cmd else d
      if (d.rd (Reg.SK_CMDTO (portNo x))) = 0 then (d.setCmd x none).flag (Reg.SK_CMDSTAT (portNo x)) 1
      else (d.setCmd x (some (a, n, true))).start (Tm.cmd x)
  | _ => d

/-- HEAL has failed: SPLIT again, with its entry. -/
def Dev.healFail (d : Dev) : Dev := (d.ringSet 4).fw 0x1013 []

/-- The ring is whole again: NORMAL with its entry, and a new T_ref over all nodes where it differs (R89, R92). -/
def Dev.healPass (d : Dev) : Dev :=
  let d := (d.ringSet 2).fw 0x1012 []
  if !d.ringBasic || d.trefOf = d.ring.tref then d else { d with ring := { d.ring with trefNew := some d.trefOf } }

/-- The READ to DST 62 that proves a healed ring completes, with the node count unchanged: firmware measures every time of
flight again, from node 0 on; a program that has claimed the ring measures them itself, before it completes the READ (R92,
R100; log entry 207). -/
def Dev.healDone (d : Dev) (ok : Bool) : Dev :=
  let d := d.stop Tm.heal
  if d.ringState = 5 then
    if !ok then d.healFail
    else if d.ringBasic && d.ring.count.getD 0 != 0 then { d with ring := { d.ring with tofWait := some 0 } }
    else d.healPass
  else d

/-- A healed ring's node `k` has been measured, from both ends or not: the next node, or the end of HEAL (Table 3.8). -/
def Dev.healNext (d : Dev) (k : Nat) (ok : Bool) : Dev :=
  if !ok then d.healFail
  else if k + 1 < d.ring.count.getD 0 then { d with ring := { d.ring with tofWait := some (k + 1) } }
  else d.healPass

/-- A frame is a READ to DST 62. -/
def isRead62 (l : List Byte) : Bool := decide (leNat (l.take 1) = 4) && decide (leNat (slice l 1 1) % 64 = 62)

/-- The far-end port completes a READ to DST 62 with RSP set; a frame with ECHO set is never modified again (R70, R75). -/
def farComplete (l : List Byte) : List Byte :=
  if isRead62 l && !(leNat (slice l 1 1)).testBit 6 then l.set 1 ((l[1]?).getD 0 ||| 0x80) else l

/-- An answer returns to a port: into the buffer, with DONE; an ECHO's round trip into SKx_RTT (R75, R87, R99).  A READ to
DST 62 ends a HEAL, also the one that firmware has sent.  A frame that goes on, or that was cut, shows in the port's flags
alone (R73, R98). -/
def Dev.cmdAnswer (d : Dev) (x : Bool) (fin : FrameEnd) (rtt : Nat) (frame : List Byte) (healOk : Bool) : Dev :=
  let crcOk := decide (fin = .good)
  if d.bit (Reg.SK_CTL (portNo x)) 0 = false then d
  else if fin != .good && fin != .badCrc then (d.portFrame x).frameEnd x fin
  else
    let d := (d.portFrame x).frameEnd x fin
    match d.cmdOf x with
    | some (a, n, true) =>
      let st := Reg.SK_CMDSTAT (portNo x)
      let heal := isRead62 (d.bytes a 8)
      let d := d.agentStore a ((farComplete frame).take n)
      let d := if crcOk then d else d.flag st 2
      let d := (d.setCmd x none).flag st 1
      let cmd := leNat (frame.take 1)
      let d := if crcOk && cmd = 3 then d.setFld (Reg.SK_RTT (portNo x)) 23 0 rtt else d
      if heal then d.healDone (crcOk && healOk) else d
    | _ => if d.running Tm.heal && (isRead62 frame || crcOk = false) then d.healDone (crcOk && healOk) else d

/-- No answer came within CMDTO: NORSP; a HEAL whose READ has none fails (R92, R99). -/
def Dev.cmdTimeout (d : Dev) (x : Bool) : Dev :=
  let late (t : Nat) : Bool := d.due t (usT (d.rd (Reg.SK_CMDTO (portNo x))).toNat)
  match d.cmdOf x with
  | some (a, _, true) =>
    if late (Tm.cmd x) then
      let d := (d.setCmd x none).flag (Reg.SK_CMDSTAT (portNo x)) 3
      if isRead62 (d.bytes a 8) then d.healDone false else d
    else d
  | _ => if late Tm.heal then d.healDone false else d

/-! ### The channel map (R107 to R109) -/

/-- The greatest position of a channel index (Table 4.5). -/
def chmMaxPos (i : Nat) : Nat := if isVolt i then 15 else if isTemp i then 31 else 3

/-- The indexes of the same kind as index `i`: first, and number. -/
def chmRange (i : Nat) : Nat × Nat := if isVolt i then (0, 640) else if isTemp i then (640, 1280) else (1920, 128)

/-- The channel of kind `first` and `count` that node `k` feeds from position `pos`. -/
def Dev.chmFind (d : Dev) (first count k pos : Nat) : Option Nat :=
  ((List.range count).find? (fun j =>
    let e := d.rd (Reg.CHM_ENT (first + j))
    bitOf e 31 && fieldOf e 29 24 = k && fieldOf e 20 16 = pos)).map (fun j => first + j)

/-- CHM_COUNT follows the enabled entries. -/
def Dev.chmCount (d : Dev) : Dev :=
  let n (first count : Nat) : Nat := ((List.range count).filter (fun j => d.bit (Reg.CHM_ENT (first + j)) 31)).length
  d.wr Reg.CHM_COUNT (nw (n 0 640 * 2 ^ 19 + n 640 1280 * 2 ^ 8 + n 1920 128))

/-- Channel `i` between publications; one that nothing has touched holds no value. -/
def Chan.none_ : Chan where
  value := 0
  age := 15
  code := none
  invalid := false
  ever := false

def Dev.chan (d : Dev) (i : Nat) : Chan := (getO d.swp.chans i).getD Chan.none_

/-- The module with channel `i` as `c`. -/
def Dev.setChan (d : Dev) (i : Nat) (c : Chan) : Dev :=
  { d with swp := { d.swp with chans := putO d.swp.chans i (if c = Chan.none_ then none else some c) } }

/-- Entry `i` takes `v`.  A channel that is mapped after a publication that it missed was Invalid there, as every unmapped
channel is (R112). -/
def Dev.chmStore (d : Dev) (i : Nat) (v : Word) : Dev :=
  let was := d.bit (Reg.CHM_ENT i) 31
  let n := d.rd Reg.SWP_COUNT
  let d := d.plainWrite (Reg.CHM_ENT i) v
  if was && !bitOf v 31 then { d with swp := { d.swp with off := putO d.swp.off i (some n) } }
  else if !was && bitOf v 31 then
    let there := n = 0 || getO d.swp.off i = some n
    let d := { d with swp := { d.swp with off := putO d.swp.off i none } }
    if there then d else d.setChan i { d.chan i with code := none, invalid := true }
  else d

/-- Entry `i` takes `v`, or is refused for its range or as a duplicate (R108). -/
def Dev.chmEntry (d : Dev) (i : Nat) (v : Word) : Dev :=
  let k := fieldOf v 29 24
  let pos := fieldOf v 20 16
  let (first, count) := chmRange i
  let store (d : Dev) : Dev := d.chmStore i v
  if bitOf v 31 = false then store d
  else if 47 < k || chmMaxPos i < pos then (d.flag Reg.CHM_STAT 1).wr Reg.CHM_REFUSED (nw i)
  else
    match d.chmFind first count k pos with
    | some j => if j = i then store d else (d.flag Reg.CHM_STAT 0).wr Reg.CHM_REFUSED (nw i)
    | none => store d

/-- A write of a channel-map entry. -/
def Dev.chmWrite (d : Dev) (i : Nat) (v : Word) : Dev := (d.chmEntry i v).chmCount

/-- The identity map over the declared positions of the enumerated nodes; entry 0x1056, made
once the recorder runs (R109). -/
def Dev.chmIdentity (d : Dev) : Dev :=
  let ent (d : Dev) (i k pos : Nat) : Dev := d.wr (Reg.CHM_ENT i) (nw (2 ^ 31 + k * 2 ^ 24 + pos * 2 ^ 16))
  let d := (List.range (d.ring.count.getD 0)).foldl (fun (d : Dev) k =>
    let d := (List.range (d.nodeNV k)).foldl (fun (d : Dev) p => if 16 * k + p < 640 && p < 16 then ent d (16 * k + p) k p else d) d
    let d := (List.range (d.nodeNT k)).foldl (fun (d : Dev) p => if 32 * k + p < 1280 && p < 32 then ent d (640 + 32 * k + p) k p else d) d
    (List.range (d.nodeNA k)).foldl (fun (d : Dev) p => if 4 * k + p < 128 && p < 4 then ent d (1920 + 4 * k + p) k p else d) d) d
  let d := d.chmCount.setBit Reg.CHM_STAT 3 true
  if d.bit Reg.REC_CTL 0 then d.hw 0x1056 [] else d

/-! ### Enumeration (R88, R109) -/

/-- ECHOs that a node answers: 16 by system firmware, one by the boot ROM (R87). -/
def Dev.echoes (d : Dev) : Nat := if d.pwr.full then 16 else 1

/-- The ECHOs to node `k` leave from both ends, as far as the ends are this module's (R78, R88). -/
def Dev.echoSend (d : Dev) (k : Nat) : Dev :=
  [false, true].foldl (fun (d : Dev) far => (List.range d.echoes).foldl (fun (d : Dev) _ => d.endSend far 0x03 k 0 []) d) d

/-- The enumeration sends its frames: RESET, ENUM with 48 empty entries, and for each node READ NTIME and its ECHOs; then
the READ that times the ring (R88, R105).  All but the far-end ECHOs leave the A end (R404). -/
def Dev.enumFrames (d : Dev) (n : Nat) : Dev :=
  let d := (d.endSend false 0x08 63 0 []).endSend false 0x02 63 1 (List.replicate 384 0)
  let d := (List.range n).foldl (fun (d : Dev) k => (d.endSend false 0x04 k 2 [0, 0, 0, 0]).echoSend k) d
  d.endSend false 0x04 62 0 []

/-- One node of an enumeration takes its place: what it declared, its times of flight, and NORMAL, a change with its entry
(R87, R95, R96). -/
def Dev.enumNode (d : Dev) (k : Nat) (e : EnumNode) : Dev :=
  let lo := e.loopt.toNat
  let d := { d with ring := { d.ring with caps := putO d.ring.caps k (some (e.ncaps.toNat, lo, e.latchofs.toNat)) } }
  let a := e.rttA.take d.echoes
  let b := e.rttB.take d.echoes
  let d := (d.rttNote false a).rttNote true b
  let d := (d.setTof false k (tofMean lo a)).setTof true k (tofMean lo b)
  let d := d.lagSet k 0
  let d := { d with ring := { d.ring with turns := putO d.ring.turns k none, tight := putN d.ring.tight k 0, fit := putN d.ring.fit k 0, tail := putN d.ring.tail k 0 } }
  (d.wr (Reg.SK_NODE 0 k) 0).wr (Reg.SK_NODE 1 k) 0

/-- Firmware sets WDTO of every node to 1,000 ms (R142). -/
def Dev.wdtoSend (d : Dev) : Dev :=
  if d.pwr.full && d.manages 12 then d.frameSend 0x05 63 0x0A [0xE8, 3, 0, 0] else d

/-- The nodes that an enumeration of the boot ROM has found are those of the Grey descriptor (R126). -/
def Dev.greyNodes (d : Dev) (n : Nat) : Dev :=
  if d.pwr.full then d
  else (d.wr (Reg.SWP_DESC 0 1) (nw (2 ^ min n 32 - 1))).wr (Reg.SWP_DESC 0 2) (nw (2 ^ (n - 32) - 1))

/-- An enumeration may run now: in ENUM, or again in NORMAL or SPLIT by firmware at basic level; the boot ROM runs one in ENUM
(R88, R100).  It sends ECHOs, so no other frame may be on the ring (R78).  A shade takes part in any but DOWN and SLEEP. -/
def Dev.enumOk (d : Dev) : Bool :=
  let st := d.ringState
  d.ringQuiet && (if d.role = 2 then st != 0 && st != 6
    else (st = 1 && (!d.pwr.full || d.ringBasic)) || ((st = 2 || st = 4) && d.ringBasic))

/-- The part of the enumeration's frames that this module issues.  A module that joins from position 1 a ring in service, whose
strobes it has seen, issues none: it takes what its partner has found (DESIGN CHOICE: log entry 208). -/
def Dev.enumIssue (d : Dev) (n : Nat) : Dev :=
  if d.role = 2 && d.smode = 0 && d.ring.seq.isSome && !d.farEnd false then d else d.enumFrames n

/-- SKx_NODES: the nodes reached from each port (R97). -/
def Dev.nodesNote (d : Dev) (n : Nat) : Dev :=
  let far := ((List.range n).filter (fun k => (d.tof true k).isSome)).length
  if d.role = 0 then (d.wr (Reg.SK_NODES 0) (nw n)).wr (Reg.SK_NODES 1) (nw far)
  else d.wr (Reg.SK_NODES 0) (nw (if d.farEnd false then far else n))

/-- Enumeration: `hop` is the HOP of the ENUM frame where it returned, `nodes` what the nodes answered with the
round trips of their echoes from both ends, `transit` the interval of the READ to DST 62.  A duty has its partner do the part
of the other end by CMD command 4 (R404); a shade holds the enumeration too, without entries of its own (R563). -/
def Dev.enumerate (d : Dev) (hop : Nat) (nodes : List EnumNode) (transit : Nat) : Dev :=
  if d.enumOk then
    let n := min 48 (min hop nodes.length)
    let changed := match d.ring.count with | some m => decide (m ≠ n) | none => false
    let own := d.role != 2
    let d := if d.role = 1 then d.send .twin 0x09 [4, 0, 0, 0, 0, 0, 0, 0] else d
    let d := (d.ringSet 1).enumIssue n
    let d := if own && (48 < hop || changed) then d.fw 0x1031 [nw hop] else d
    let d := { d with ring := { d.ring with count := some n, trans := [], trans0 := transit } }
    let d := (List.range n).foldl (fun (d : Dev) k =>
      match nodes[k]? with
      | some e => d.enumNode k e
      | none => d) d
    let d := d.nodesNote n
    let t := d.trefOf
    let d := { d with ring := { d.ring with tref := t, trefNew := none } }
    let d := ((List.range n).foldl (fun (d : Dev) k => d.delayWrite t k) d).wdtoSend
    let d := if d.pwr.full || d.bit Reg.CHM_STAT 2 || d.bit Reg.CHM_STAT 3 then d else d.chmIdentity
    let d := (d.greyNodes n).ringSet 2
    if own then d.fw 0x1030 [nw n] else d
  else d

/-- The idle window that opens now measures the next node (R89). -/
def Dev.tofBegin (d : Dev) : Dev :=
  let n := d.ring.count.getD 0
  if d.leads && d.ringBasic && n != 0 && d.ringState != 5 then
    { d with ring := { d.ring with tofWait := some (d.ring.tofNext % n), tofNext := (d.ring.tofNext % n + 1) % n } }
  else d

/-- A time of flight of node `k` that moved by 2 ns or more, or had none, takes the new value; the answer tells whether it
did. -/
def Dev.tofMove (p : Dev × Bool) (x : Bool) (k lo : Nat) (l : List (BitVec 24)) : Dev × Bool :=
  match tofMean lo l with
  | none => p
  | some t =>
    match p.1.tof x k with
    | some o => if 2 ≤ ((t : Int) - (o : Int)).natAbs then (p.1.setTof x k (some t), true) else p
    | none => (p.1.setTof x k (some t), true)

/-- Firmware measures a node while no other frame is on the ring (R78, R89): that of the present idle window, or the next of a
healed ring.  A move of 2 ns or more rewrites its delays, or asks for a new T_ref. -/
def Dev.tofRemeasure (d : Dev) (rttA rttB : List (BitVec 24)) : Dev :=
  match d.ring.tofWait with
  | none => d
  | some k =>
    let heal := decide (d.ringState = 5)
    if !d.ringBasic || d.leads = false || (!heal && d.bit Reg.TT_STAT 5 = false) || d.ring.count.getD 0 ≤ k || !d.ringQuiet then d
    else
      let d := ({ d with ring := { d.ring with tofWait := none } }).echoSend k
      let d := (d.rttNote false rttA).rttNote true rttB
      let lo := (d.nodeCaps k).2.1
      let (d, moved) := Dev.tofMove (Dev.tofMove (d, false) false k lo rttA) true k lo rttB
      let d :=
        if moved then
          let t := d.trefOf
          if t = d.ring.tref then d.delayWrite t k else { d with ring := { d.ring with trefNew := some t } }
        else d
      if heal then d.healNext k (!rttA.isEmpty && !rttB.isEmpty) else d

/-- The ticks to the next firing strobe entry, at the increment in use. -/
def Dev.strobeTicks (d : Dev) : Option Nat := d.nextStrobe.map (fun a => a * 65536 / max 1 d.angInc)

/-- The symbols of a WRITE of one node's delays: SOF, header, two words, CRC, EOF. -/
def delaySyms : Nat := 22

/-- The WRITEs of `n` nodes' delays fit between now, a gap with no frame on the lane and no collect to come, and the next
strobe (R566). -/
def Dev.delaysFit (d : Dev) (n : Nat) : Bool :=
  decide (d.ring.busyTill ≤ d.now) && (match d.swp.cur with | some w => w.launched && !w.recovering | none => true)
    && (match d.strobeTicks with | some t => decide (symT (n * delaySyms) + d.tRing ≤ t) | none => true)

/-- The delays of every node are written for a new T_ref between two strobes, in a gap between collect frames; writes that would
not complete before the next strobe are held back (R566).  T_ref applies from the next strobe.  While the program claims SKA or
SKB firmware writes none (R100); of a pair the duty writes. -/
def Dev.delayRewrite (d : Dev) : Dev :=
  match d.ring.trefNew with
  | none => d
  | some t =>
    let l := (List.range (d.ring.count.getD 0)).filter (fun k => !d.unreached k && d.leads)
    if !d.ringBasic || !d.delaysFit l.length then d
    else
      let d := { d with ring := { d.ring with tref := t, trefNew := none } }
      l.foldl (fun (d : Dev) k => d.delayWrite t k) d

/-- WAKE is sent to sleeping nodes until it returns at the far end, or for at most 120 ms; then the nodes are awake, and the
ring enumerates from SLEEP at once, after the reset of a wake from Standby as it leaves DOWN (R79, R92, R210). -/
def Dev.wakeSend (d : Dev) (returned : Bool) : Dev :=
  if d.ring.slept = false then d
  else
    let d := if d.running Tm.wake then d else d.start Tm.wake
    let awake (d : Dev) : Dev := ({ d with ring := { d.ring with slept := false } }).stop Tm.wake
    if d.due Tm.wake (msT 120) then awake d
    else
      let d := d.ringSend setWake []
      if returned then (let d := awake d; if d.ringState = 6 then d.ringSet 1 else d.ringDownExit) else d

/-- SLEEP is sent to every node (R79, R92). -/
def Dev.ringSleep (d : Dev) : Dev :=
  ({ (d.frameSend 0x07 63 0 []) with ring := { d.ring with slept := true } }).ringSet 6

/-! ### Commands -/

/-- The ring leaves DOWN. -/
def execRingDownExit (s : State) : Host.Outcome State Fault Refusal :=
  s.lift (fun d => d.ringDownExit)

/-- A FAULT set is received. -/
def execFaultReceive (x : Bool) (a p c : Byte) (s : State) : Host.Outcome State Fault Refusal :=
  s.lift (fun d => d.faultReceive x a.toNat p.toNat c.toNat)

/-- An echo end sends a received frame, given without its CRC, back unmodified but for ECHO, with the CRC-32C over the header
that this changes (R61, R70, R71); as the far-end port it completes a READ to DST 62 (R75), which ends a HEAL for a shade. -/
def execEchoEndReturn (x : Bool) (frame : List Byte) (s : State) : Host.Outcome State Fault Refusal :=
  s.lift (fun d =>
    let heal := d.role = 2 && d.ringState = 5 && isRead62 frame
    if d.portOn x && (heal || (d.fld (Reg.SK_CTL (portNo x)) 3 2 = 2 && !d.ringSplit)) then
      let d := if heal then d.ringSet 2 else d
      let l := farComplete frame
      let l := l.set 1 ((l[1]?).getD 0 ||| 64)
      let l := byteNats (l ++ leBytes 4 (crc32c l).toNat)
      (d.portFrame x).send (portIface x) (0x200 + nth l 0) l
    else d)

/-- A write of SKx_CMDGO. -/
def execCmdgo (src : Writer) (x : Bool) (v : Word) (s : State) : Host.Outcome State Fault Refusal :=
  s.lift (fun d => d.gate src (Reg.SK_CMDGO (portNo x)) (fun d => d.cmdGo x v))

/-- The queued command frame leaves. -/
def execCommandSend (x : Bool) (s : State) : Host.Outcome State Fault Refusal :=
  s.lift (fun d => d.cmdSend x)

/-- The answer to a command returns. -/
def execCommandAnswer (x : Bool) (fin : FrameEnd) (rtt : BitVec 24) (frame : List Byte) (healOk : Bool) (s : State) :
    Host.Outcome State Fault Refusal :=
  s.lift (fun d => d.cmdAnswer x fin rtt.toNat frame healOk)

/-- No answer to a command. -/
def execCommandTimeout (x : Bool) (s : State) : Host.Outcome State Fault Refusal :=
  s.lift (fun d => d.cmdTimeout x)

/-- Enumeration of the ring. -/
def execEnumeration (hop : Byte) (nodes : List EnumNode) (transit : BitVec 24) (s : State) :
    Host.Outcome State Fault Refusal :=
  s.lift (fun d => if d.leads then d.enumerate hop.toNat nodes transit.toNat else d)

/-- A time of flight is measured again. -/
def execTofRemeasure (rttA rttB : List (BitVec 24)) (s : State) : Host.Outcome State Fault Refusal :=
  s.lift (fun d => d.tofRemeasure rttA rttB)

/-- Delays for a new T_ref. -/
def execDelayRewrite (s : State) : Host.Outcome State Fault Refusal :=
  s.lift (fun d => d.delayRewrite)

/-- What the looping nodes report of LINKOK, on which HEAL is sent. -/
def execHealSend (linkOk : Bool) (s : State) : Host.Outcome State Fault Refusal :=
  s.lift (fun d => d.healSend linkOk)

/-- WAKE is sent. -/
def execWakeSend (returned : Bool) (s : State) : Host.Outcome State Fault Refusal :=
  s.lift (fun d => d.wakeSend returned)

/-- A write of SKx_NODE. -/
def execNodeRearm (src : Writer) (x : Bool) (k : BitVec 6) (v : Word) (s : State) : Host.Outcome State Fault Refusal :=
  s.lift (fun d => if 47 < k.toNat then d else
    d.gate src (Reg.SK_NODE (portNo x) k.toNat) (fun d => d.rearm k.toNat v))

/-- A write of SKx_CTL with CLRCNT. -/
def execSkClearCounts (src : Writer) (x : Bool) (v : Word) (s : State) : Host.Outcome State Fault Refusal :=
  s.lift (fun d => d.gate src (Reg.SK_CTL (portNo x)) (fun d => d.skCtl (portNo x) (withBit v 5 true)))

/-- A write of a channel-map entry. -/
def execChmEntryWrite (src : Writer) (i : BitVec 11) (v : Word) (s : State) : Host.Outcome State Fault Refusal :=
  s.lift (fun d => d.gate src (Reg.CHM_ENT i.toNat) (fun d => d.chmWrite i.toNat v))

end Sys2Proof.Machine
end

