-- ==== Sys2Proof/Machine/Bal.lean ====
section
/-! DEFINITION. Cell balancing: filters, BALANCE frames, blanking configuration, wire compensation and learning
(R133 to R145). -/

namespace Sys2Proof.Machine

/-! ### Readers -/

/-- The buffer published last. -/
def Dev.lastBuf (d : Dev) : Nat := d.fld Reg.SWP_LAST 1 0

/-- The published word of voltage position `pos` of node `k`, when it is mapped and a sweep has been published. -/
def Dev.nodeWord (d : Dev) (k pos : Nat) : Option Word :=
  if d.rd Reg.SWP_COUNT = 0 then none
  else (d.chmFind 0 640 k pos).map (fun i => d.sweepWord d.lastBuf i)

/-- The base values of all NV positions of node `k`, when every one of them was Fresh. -/
def Dev.baseValues (d : Dev) (k : Nat) : Option (List Int) :=
  let l := (List.range (d.nodeNV k)).map (fun p => d.nodeWord k p)
  if l.all (fun w => match w with | some x => wordCode x = 0 | none => false) then
    some (l.map (fun w => wordVal (w.getD 0)))
  else none

/-! ### The filters of R140 -/

/-- Bits of a mask. -/
def maskBits (m : Nat) : List Nat := (List.range 16).filter (fun p => m.testBit p)

/-- The mask of a list of positions. -/
def balMaskOf (l : List Nat) : Nat := l.foldl (fun m p => m ||| 2 ^ p) 0

/-- The hottest usable temperature of node `k` in 1/128 °C. -/
def Dev.nodeTemp (d : Dev) (k : Nat) : Option Int :=
  if d.rd Reg.SWP_COUNT = 0 then none
  else
    (List.range 1280).foldl (fun (m : Option Int) j =>
      let i := 640 + j
      let e := d.rd (Reg.CHM_ENT i)
      if bitOf e 31 && fieldOf e 29 24 = k then
        let w := d.sweepWord d.lastBuf i
        let q := wordCode w
        if q = 2 || q = 7 then m
        else match m with
          | some x => some (max x (wordVal w))
          | none => some (wordVal w)
      else m) none

/-- The `n` positions of highest voltage, equal voltages from the lower position. -/
def topPositions (n : Nat) (l : List (Nat × Int)) : List Nat :=
  (l.filter (fun x => decide ((l.filter (fun y => decide (x.2 < y.2) || (decide (x.2 = y.2) && decide (y.1 < x.1)))).length < n))).map
    (fun x => x.1)

/-- The commander has not written for BAL_CMDTO, or that is zero. -/
def Dev.cmdExpired (d : Dev) : Bool :=
  let n := d.fld Reg.BAL_CMDTO 15 0
  n = 0 || !d.running Tm.balCmd || d.due Tm.balCmd (msT n)

/-- The mask of node `k` after the filters, and whether step 1 or step 2 removed a position.  The raw voltage of a Compensated
channel is its published word (DESIGN CHOICE: log entry 212). -/
def Dev.balMask (d : Dev) (k : Nat) : Nat × Bool × Bool :=
  let asked := maskBits (d.fld (Reg.BAL_CMD k) 15 0)
  let vmin : Int := 1000 * d.fld Reg.BAL_VMIN 15 0
  let kept := asked.filterMap (fun p =>
    match d.nodeWord k p with
    | some w =>
      if wordCode w = 7 || wordCode w = 6 || (vmin != 0 && decide (wordVal w < vmin)) then none else some (p, wordVal w)
    | none => none)
  let t := d.rd Reg.BAL_TLIM
  let tlo := 128 * sx 8 (fieldOf t 23 16)
  let thi := 128 * sx 8 (fieldOf t 31 24)
  let nlo := fieldOf t 4 0
  let top :=
    match d.nodeTemp k with
    | none => topPositions nlo kept
    | some x => if thi ≤ x then [] else if tlo ≤ x then topPositions nlo kept else kept.map (fun e => e.1)
  (if d.cmdExpired then 0 else balMaskOf top, decide (kept.length < asked.length), decide (top.length < kept.length))

/-- No mask may be sent: balancing disabled, or outside the balancing window (R141). -/
def Dev.balShut (d : Dev) : Bool :=
  !d.bit Reg.BAL_CTL 0 || (d.bit Reg.BAL_CTL 3 && !d.bit Reg.TT_STAT 4)

/-! ### BALANCE (R141) -/

/-- The applied entry of node `k` as it should be sent. -/
def Dev.balEntry (d : Dev) (k : Nat) : Nat :=
  d.fld (Reg.BAL_CMD k) 23 16 * 65536 + (if d.balShut then 0 else (d.balMask k).1)

/-- The flags and entry 0x1061 of the filters. -/
def Dev.balFlags (d : Dev) : Dev :=
  let r := (List.range 48).map (fun k => d.balMask k)
  let d := if r.any (fun x => x.2.1) then d.flag Reg.BAL_STAT 1 else d
  if r.any (fun x => x.2.2) then
    let d := if d.bit Reg.BAL_STAT 2 then d else d.hw 0x1061 []
    d.flag Reg.BAL_STAT 2
  else d

/-- The payload of a BALANCE frame (R77). -/
def balPay (l : List (Nat × Nat)) : List Nat :=
  l.flatMap (fun e => e.1 :: byteNats (leBytes 1 (e.2 / 65536) ++ leBytes 2 e.2))

/-- A learning pass has its own entry at node `k`, which no BALANCE replaces (R139). -/
def Dev.learning (d : Dev) (k : Nat) : Bool :=
  match d.swp.lrn with
  | some p => decide (p.node = k) && decide (p.phase ≠ 0)
  | none => false

/-- The gap between a publication and the next strobe, in which commands leave. -/
def Dev.cmdWindow (d : Dev) : Bool := d.swp.cur.isNone

/-- One broadcast BALANCE on a change of BAL_APPL or at a refresh, in a command window; `off` names the nodes that returned
BALOFF.  What the filters remove is noted whether a frame leaves or not (R140, R145). -/
def Dev.balanceSend (d : Dev) (off : BitVec 48) : Dev :=
  if d.leads = false then d
  else
    let want := ((List.range 48).filter (fun k => !d.learning k)).map (fun k => (k, d.balEntry k))
    let changed := want.any (fun e => d.fld (Reg.BAL_APPL e.1) 23 0 != e.2)
    let r := d.fld Reg.BAL_REFRESH 15 0
    let refresh := r != 0 && (!d.running Tm.balSend || d.due Tm.balSend (msT r))
    let d := d.balFlags
    if !d.cmdWindow || (!changed && !refresh) then d
    else
      let n := d.ring.count.getD 0
      let gone := want.filter (fun e => decide (e.1 < n))
      let d := d.frameSend 0x06 63 0 (balPay gone)
      let d := want.foldl (fun (d : Dev) e =>
        let d := d.setFld (Reg.BAL_APPL e.1) 23 0 e.2
        if off.getLsbD e.1 then ((d.setBit (Reg.BAL_APPL e.1) 24 true).flag Reg.BAL_STAT 4).hw 0x1062 [nw e.1]
        else d.setBit (Reg.BAL_APPL e.1) 24 false) d
      let d := d.setBit Reg.BAL_STAT 0 (gone.any (fun e => e.2 % 65536 != 0))
      d.start Tm.balSend

/-- A write of BAL_CMD restarts the commander timer. -/
def Dev.balCmdWrite (d : Dev) (k : Nat) (v : Word) : Dev := (d.plainWrite (Reg.BAL_CMD k) v).start Tm.balCmd

/-- BAL_CMDTO has passed without a write: CMDTO and entry 0x1060. -/
def Dev.commanderTimeout (d : Dev) : Dev :=
  let n := d.fld Reg.BAL_CMDTO 15 0
  if n != 0 && d.due Tm.balCmd (msT n) then ((d.stop Tm.balCmd).flag Reg.BAL_STAT 3).hw 0x1060 [] else d

/-- The broadcast or addressed WRITE of BLANKCFG. -/
def Dev.blankCfg (d : Dev) (dst : Nat) (en : Bool) : Dev := d.frameSend 0x05 dst 0x0B [b2n en, 10, 0, 0]

/-- BLANKCFG that waits is broadcast in the command window (R137). -/
def Dev.blankFlush (d : Dev) : Dev :=
  if d.swp.blankDue && d.cmdWindow then ({ d with swp := { d.swp with blankDue := false } }).blankCfg 63 (d.bit Reg.BAL_CTL 1) else d

/-- BAL_CTL: a change of BLANKEN is broadcast in the next command window; blanking is switched off at the expert level alone, and
system firmware always runs with it set (R137). -/
def Dev.balCtl (d : Dev) (src : Writer) (v : Word) : Dev :=
  let was := d.bit Reg.BAL_CTL 1
  let d := d.plainWrite Reg.BAL_CTL (if src = .system then withBit v 1 true else v)
  if d.bit Reg.BAL_CTL 1 = was then d else ({ d with swp := { d.swp with blankDue := true } }).blankFlush

/-- The masks last sent, 0 for a node that returned BALOFF (R138). -/
def Dev.balMasks (d : Dev) : List (Nat × Nat) :=
  (List.range 48).foldl (fun m k => putN m k (if d.bit (Reg.BAL_APPL k) 24 then 0 else d.fld (Reg.BAL_APPL k) 15 0)) []

/-! ### Wire compensation (R138) -/

/-- Wire `w` of node `k`: its learned resistance in 10 µΩ when valid. -/
def Dev.rwire (d : Dev) (k w : Nat) : Option Nat :=
  if d.bit (Reg.BAL_RWIRE k w) 31 then some (d.fld (Reg.BAL_RWIRE k w) 15 0) else none

/-- V_raw(w) of a cell that the mask sent before the strobe let balance, 0 elsewhere; `cur` for the last strobe, else the one
ahead of it. -/
def Dev.balV (d : Dev) (k : Nat) (cur wdt : Bool) (raw : List Int) (w : Int) : Int :=
  if w < 0 || raw.length ≤ w.toNat || wdt then 0
  else if (getN (if cur then d.swp.balAt else d.swp.balPrev) k).testBit w.toNat then nthI raw w.toNat else 0

/-- The corrected value of position `c`; none where a wire that the formula needs is not valid.  A wire without net current
is not needed (DESIGN CHOICE: log entry 183). -/
def Dev.compensate (d : Dev) (k c : Nat) (cur wdt : Bool) (raw : List Int) : Option Int :=
  let v (w : Int) : Int := d.balV k cur wdt raw w
  let up := v (c + 1) - v c
  let dn := v c - v ((c : Int) - 1)
  let r (w : Nat) (x : Int) : Option Int := if x = 0 then some 0 else (d.rwire k w).map (fun n => (n : Int) * x)
  match r (c + 1) up, r c dn with
  | some a, some b => some (nthI raw c + quotR (b - a) (1000 * d.fld Reg.BAL_RBAL 15 0))
  | _, _ => none

/-! ### Learning (R139) -/

/-- A learning pass ends with ABORT. -/
def Dev.lrnAbort (d : Dev) : Dev :=
  ({ d with swp := { d.swp with lrn := none } }).wr Reg.BAL_LRNSTAT 0x20000000

/-- The command window of sweep n: base values, BLANKCFG and BALANCE to the node. -/
def Dev.lrnBegin (d : Dev) : Dev :=
  match d.swp.lrn with
  | some p =>
    if p.phase != 0 then d
    else
      match d.baseValues p.node with
      | none => d.lrnAbort
      | some b =>
        if d.bit Reg.SWP_OWSTAT 31 then d.lrnAbort
        else
          let d := { d with swp := { d.swp with lrn := some { p with phase := 1, base := b } } }
          let d := d.blankCfg p.node false
          (d.frameSend 0x06 63 0 (balPay [(p.node, 255 * 65536 + 2 ^ p.arg)])).setBit Reg.BAL_STAT 0 true
  | none => d

/-- The cells that a round of learning passes covers: `i` is cell i mod 16 of node i / 16. -/
def Dev.lrnCell (d : Dev) (i : Nat) : Bool := i % 16 < d.nodeNV (i / 16)

/-- A write of BAL_LRN: GO starts a pass, and is ignored while one runs. -/
def Dev.lrnWrite (d : Dev) (v : Word) : Dev :=
  if bitOf v 31 = false || d.bit Reg.BAL_LRNSTAT 31 then d
  else
    let p : WirePass := { node := fieldOf v 5 0, arg := fieldOf v 11 8, phase := 0, base := [], cap := [] }
    let d := ({ d with swp := { d.swp with lrn := some p } }).wr Reg.BAL_LRNSTAT 0x80000000
    if d.swp.cur.isNone then d.lrnBegin else d

/-- Firmware starts the next learning pass of an idle window, on a node that has no open-wire pass in that window: a round covers
every cell every 24 h, and a pass that aborts comes again after the others; a claim of BAL stops it (R139, R142). -/
def Dev.lrnIdle (d : Dev) (ow : Nat) : Dev :=
  let n := 16 * d.ring.count.getD 0
  if !(d.leads && d.pwr.full && d.manages 12 && d.bit Reg.TT_STAT 5 && n != 0) || d.bit Reg.BAL_LRNSTAT 31 then d
  else
    let d := if !d.running Tm.lrnDay || d.due Tm.lrnDay (secT 86400) then
        ({ d with swp := { d.swp with lrnLeft := (List.range n).filter d.lrnCell } }).start Tm.lrnDay else d
    match d.swp.lrnLeft.find? (fun i => i / 16 != ow) with
    | none => d
    | some i =>
      ({ d with swp := { d.swp with lrnLeft := d.swp.lrnLeft.erase i ++ [i] } }).lrnWrite (nw (2 ^ 31 + i % 16 * 256 + i / 16))

/-- Firmware writes one learned resistance, the quotient of two numbers in 10 µΩ, or rejects it above 655 mΩ with entry
0x1063. -/
def Dev.rwireLearn (d : Dev) (k w : Nat) (num den : Int) : Dev :=
  let r := quotR num den
  let x := if den < 0 then -num else num
  let bad := if den = 0 then decide (r < 0 || 65500 < r) else decide (x < 0 || 65500 * den.natAbs < x)
  if bad then d.fw 0x1063 [nw k, nw w]
  else d.wr (Reg.BAL_RWIRE k w) (nw (2 ^ 31 + r.toNat))

/-- Firmware's results of a pass on cell `c`: the neighbours' changes over the cell's current; at the bottom and the top position
the missing wire is taken from the cell's own change. -/
def Dev.lrnResult (d : Dev) (p : WirePass) : Dev :=
  let c := p.arg
  let n := p.base.length
  let vb := nthI p.base c
  let k : Int := 1000 * d.fld Reg.BAL_RBAL 15 0
  let dv (i : Nat) : Int := (nthI p.cap i - nthI p.base i) * k
  let lo : Option Int := if c = 0 then none else some (dv (c - 1))
  let hi : Option Int := if n ≤ c + 1 then none else some (dv (c + 1))
  let a := match lo with | some x => x | none => -dv c - hi.getD 0
  let b := match hi with | some x => x | none => -dv c - lo.getD 0
  (d.rwireLearn p.node c a vb).rwireLearn p.node (c + 1) b vb

/-- The deadline of sweep n+1: the node's configuration and entry are restored and the pass is done; with captured values,
at basic level, firmware writes the resistances. -/
def Dev.lrnFinish (d : Dev) : Dev :=
  match d.swp.lrn with
  | some p =>
    if p.phase != 2 then d
    else
      let d := d.blankCfg p.node (d.bit Reg.BAL_CTL 1)
      let e := d.fld (Reg.BAL_APPL p.node) 23 0
      let d := (d.frameSend 0x06 63 0 (balPay [(p.node, e)])).setBit Reg.BAL_STAT 0 ((List.range 48).any (fun k => d.fld (Reg.BAL_APPL k) 15 0 != 0))
      let d := ({ d with swp := { d.swp with lrn := none } }).wr Reg.BAL_LRNSTAT 0x40000000
      if p.cap.isEmpty then d
      else
        let d := { d with swp := { d.swp with lrnLeft := d.swp.lrnLeft.erase (16 * p.node + p.arg) } }
        let d := (List.range 16).foldl (fun (d : Dev) i => d.wr (Reg.BAL_LCAP i) (iw (nthI p.cap i))) d
        if !d.manages 12 || d.pwr.full = false then d else d.lrnResult p
  | none => d

/-! ### Commands -/

/-- A write of BAL_CTL, which a change of BLANKEN broadcasts. -/
def execBlankenChange (src : Writer) (v : Word) (s : State) : Host.Outcome State Fault Refusal :=
  s.lift (fun d => d.gate src Reg.BAL_CTL (fun d => d.balCtl src v))

/-- A write of BAL_CMD. -/
def execBalCmdWrite (src : Writer) (k : BitVec 6) (v : Word) (s : State) : Host.Outcome State Fault Refusal :=
  s.lift (fun d => if 47 < k.toNat then d else d.gate src (Reg.BAL_CMD k.toNat) (fun d => d.balCmdWrite k.toNat v))

/-- The commander has been silent for BAL_CMDTO. -/
def execCommanderTimeout (s : State) : Host.Outcome State Fault Refusal :=
  s.lift (fun d => d.commanderTimeout)

/-- A BALANCE frame; `off` names the nodes that returned BALOFF. -/
def execBalanceSend (off : BitVec 48) (s : State) : Host.Outcome State Fault Refusal :=
  s.lift (fun d => d.balanceSend off)

/-- A write of BAL_LRN. -/
def execLearningGo (src : Writer) (v : Word) (s : State) : Host.Outcome State Fault Refusal :=
  s.lift (fun d => d.gate src Reg.BAL_LRN (fun d => d.lrnWrite v))

end Sys2Proof.Machine
end

