-- ==== Sys2Proof/Machine/Smb.lean ====
section
/-! DEFINITION. The SMBus target: address recognition, the commands of Table 17.2, PEC, the request queue and the
alert, and what firmware puts into the response area (R439 to R453). -/

namespace Sys2Proof.Machine

/-! ### PEC (Table 17.1) -/

/-- `n` shifts of the CRC-8 register, polynomial 0x07. -/
def crc8Bits : Nat → Nat → Nat
  | 0, c => c
  | n + 1, c => crc8Bits n (if 128 ≤ c then (2 * c % 256) ^^^ 7 else 2 * c)

/-- The PEC of a list of bytes: CRC-8, polynomial 0x07, initial value 0, not reflected. -/
def pec8 (l : List Byte) : Byte := BitVec.ofNat 8 (l.foldl (fun c b => crc8Bits 8 (c ^^^ b.toNat)) 0)

/-! ### Addresses (R441, R442) -/

/-- Addresses that the module never matches. -/
def smbNever (a : Nat) : Bool :=
  a ≤ 0x08 || a = 0x0C || a = 0x28 || a = 0x37 || a = 0x61 || 0x78 ≤ a

/-- The slot that an address matches, when it matches one. -/
def Dev.smbSlot (d : Dev) (a : Nat) : Option Nat :=
  if smbNever a then none
  else if d.bit Reg.SMB_AMASK 31 then
    if (a ^^^ d.fld Reg.SMB_ADDR 6 0) &&& (127 ^^^ d.fld Reg.SMB_AMASK 6 0) = 0 then some 0 else none
  else [0, 1, 2, 3].find? (fun k => d.bit Reg.SMB_ADDR (8 * k + 7) && d.fld Reg.SMB_ADDR (8 * k + 6) (8 * k) == a)

/-- The target answers on the bus: EN is 1, and the role is alone or duty. -/
def Dev.smbOn (d : Dev) : Bool := d.bit Reg.SMB_CFG 0 && d.leads

/-- The slot under which an address is acknowledged. -/
def Dev.smbAck (d : Dev) (a : Nat) : Option Nat := if d.smbOn then d.smbSlot a else none

/-- The target drives ALERT_N low (R447). -/
def Dev.alertLow (d : Dev) : Bool :=
  d.smbOn && d.bit Reg.SMB_CFG 1 && !d.smb.queue.isEmpty && !d.smb.alertWon

/-- A recognised transaction is counted, and SMB_LAST shows it. -/
def Dev.smbLast (d : Dev) (slot code : Nat) (read : Bool) : Dev :=
  (d.satInc Reg.SMB_CNT 15 0).wr Reg.SMB_LAST (nw (code % 256 * 256 + slot * 64 + b2n read))

/-! ### Reads (R443, R446) -/

/-- A read of command `code` at an address: the response as it stood at the command-code byte leaves, with its PEC
when PEC is 1 and the controller acknowledged the last data byte. -/
def Dev.smbRead (d : Dev) (a code : Nat) (lastAck : Bool) (l : List Byte) : Dev :=
  match d.smbAck a with
  | none => d
  | some k =>
    let head := leBytes 1 (2 * a) ++ leBytes 1 code ++ leBytes 1 (2 * a + 1)
    let l := if d.bit Reg.SMB_CFG 2 && lastAck then l ++ [pec8 (head ++ l)] else l
    (d.smbLast k code true).send .smbus code (byteNats l)

/-- A block: its count byte, at most 32, and its bytes. -/
def smbBlock (n : Nat) (l : List Byte) : List Byte :=
  let n := satN 32 n
  leBytes 1 n ++ l.take n

/-- `n` bytes of the response area from byte `o`. -/
def Dev.smbResp (d : Dev) (o n : Nat) : List Byte :=
  slice (wordsBytes ((List.range 64).map (fun i => d.rd (Reg.SMB_RESP i)))) o n

/-- The STATUS byte. -/
def Dev.smbStatus (d : Dev) : Nat :=
  b2n (!d.smb.queue.isEmpty) * 128 + b2n (d.fld Reg.LIM_CRIM 15 0 != 0) * 64 + b2n (d.fld Reg.LIM_OCHRE 15 0 != 0) * 32
    + d.role * 8 + b2n (d.bit Reg.CYC_STAT 10) * 4 + b2n (d.sccState = 3) * 2 + b2n (d.cycState = 2)

/-- REQCODE: the head of the queue, popped when its last byte is acknowledged or its PEC is sent. -/
def Dev.smbReqcode (d : Dev) (a : Nat) (lastAck : Bool) : Dev :=
  let e := d.smbRead a 0x02 lastAck (leBytes 2 (nth d.smb.queue 0))
  if (d.smbAck a).isSome && lastAck then
    match d.smb.queue with
    | _ :: t => e.smbQueue t
    | [] => e
  else e

/-- A block whose count and bytes firmware or the program filled, from byte `o`. -/
def Dev.smbCounted (d : Dev) (o : Nat) : List Byte :=
  smbBlock (leNat (d.smbResp o 1)) (d.smbResp (o + 1) 32)

/-! ### Writes (R444 to R446) -/

/-- PECERR, its count, and entry 0xA012 at its onset, at most once a second (R446, R453). -/
def Dev.smbPecErr (d : Dev) : Dev :=
  let was := d.bit Reg.SMB_STAT 3
  let d := (d.flag Reg.SMB_STAT 3).satInc Reg.SMB_CNT 31 16
  if was || (d.running Tm.pec && !d.due Tm.pec (secT 1)) then d else (d.start Tm.pec).hw 0xA012 []

/-- The PEC of a write is in order: right when one came, and there while PECREQ requires it; PEC of SMB_CFG is for
reads alone (R446, Table 17.5). -/
def Dev.smbPecOk (d : Dev) (l : List Byte) (pec : Option Byte) : Bool :=
  match pec with
  | some p => p = pec8 l
  | none => !d.bit Reg.SMB_CFG 3

/-- A write that completed without error is in SMB_WBUF with its code and count. -/
def Dev.smbStore (d : Dev) (code : Nat) (l : List Byte) : Dev :=
  let d := if d.bit Reg.SMB_STAT 0 then d.flag Reg.SMB_STAT 1 else d
  let old := wordsBytes ((List.range 8).map (fun i => d.rd (Reg.SMB_WBUF (i + 1))))
  let new := l.take 32 ++ old.drop (min 32 l.length)
  let d := d.wr (Reg.SMB_WBUF 0) (nw (l.length * 256 + code))
  let d := (List.range 8).foldl (fun (d : Dev) i => d.wr (Reg.SMB_WBUF (i + 1)) (leWord new (4 * i))) d
  d.flag Reg.SMB_STAT 0

/-- A write of command `code`: `count` is a block's count byte. -/
def Dev.smbWrite (d : Dev) (a code : Nat) (count : Option Byte) (l : List Byte) (pec : Option Byte) : Dev :=
  match d.smbAck a with
  | none => d
  | some k =>
    let d := d.smbLast k code false
    let bad := match count with
      | none => decide (l.length ≠ 2)
      | some n => decide (32 < n.toNat ∨ n.toNat ≠ l.length)
    let cnt := match count with | none => [] | some n => [n]
    if bad then d.flag Reg.SMB_STAT 2
    else if d.smbPecOk (leBytes 1 (2 * a) ++ leBytes 1 code ++ cnt ++ l) pec = false then d.smbPecErr
    else d.smbStore code l

/-- CELLSEL also names the cell to firmware at basic level. -/
def Dev.smbCellsel (d : Dev) (a : Nat) (l : List Byte) (pec : Option Byte) : Dev :=
  let e := d.smbWrite a 0x20 none l pec
  let took := (d.smbAck a).isSome && l.length = 2 && d.smbPecOk (leBytes 1 (2 * a) ++ leBytes 1 0x20 ++ l) pec
  if took && d.manages 25 && d.pwr.full then { e with smb := { e.smb with sel := some (leNat l) } } else e

/-! ### Firmware's response area (R445, R451) -/

/-- `l` into the response area from byte `o`. -/
def Dev.smbPut (d : Dev) (o : Nat) (l : List Byte) : Dev :=
  let old := wordsBytes ((List.range 64).map (fun i => d.rd (Reg.SMB_RESP i)))
  let new := old.take o ++ l ++ old.drop (o + l.length)
  (List.range 64).foldl (fun (d : Dev) i => d.wr (Reg.SMB_RESP i) (leWord new (4 * i))) d

/-- The lowest and highest value of the mapped channels of an index range whose codes `ok` admits. -/
def Dev.sweepExt (d : Dev) (first count : Nat) (ok : Nat → Bool) : Option (Int × Int) :=
  if d.rd Reg.SWP_COUNT = 0 then none
  else
    (List.range count).foldl (fun (m : Option (Int × Int)) j =>
      let i := first + j
      let w := d.sweepWord d.lastBuf i
      if d.bit (Reg.CHM_ENT i) 31 && ok (wordCode w) then
        match m with
        | some (lo, hi) => some (min lo (wordVal w), max hi (wordVal w))
        | none => some (wordVal w, wordVal w)
      else m) none

/-- A 16-bit and a 32-bit little-endian field of a signed number. -/
def le16 (i : Int) : List Byte := leBytes 2 (i % 65536).toNat
def le32 (i : Int) : List Byte := leBytes 4 (i % 4294967296).toNat

/-- The latest recorder entry into the response area. -/
def Dev.smbEvent (d : Dev) : Dev :=
  let l := d.recd.latest.take 32
  d.smbPut 0x30 (leBytes 1 l.length ++ l)

/-- The selected cell's data into the response area; 12 zero bytes above 639. -/
def Dev.smbCell (d : Dev) : Dev :=
  match d.smb.sel with
  | none => d
  | some c =>
    if 639 < c then d.smbPut 0x24 (List.replicate 12 0)
    else d.smbPut 0x24 (wordsBytes [d.sweepWord d.lastBuf c, d.rd (Reg.EST_CSOC c), d.rd (Reg.EST_CVLC c)])

/-- Firmware fills the response area at a publication or a recorder entry, at basic level. -/
def Dev.smbFill (d : Dev) : Dev :=
  if !d.manages 25 || d.pwr.full = false then d
  else
    let d := d.smbPut 0x00 (leBytes 2 (d.fld Reg.EST_SOC 15 0) ++ le16 (quotR d.swp.vstr 100000) ++ le32 d.stringI)
    let d := d.smbPut 0x08 (wordsBytes [d.rd Reg.EST_OUTCH, d.rd Reg.EST_OUTDIS, d.rd Reg.EST_OUTPCH, d.rd Reg.EST_OUTPDIS])
    let d := match d.sweepExt 640 1280 (fun q => q != 2 && q != 7) with
      | some (lo, hi) => d.smbPut 0x18 (le16 lo ++ le16 hi)
      | none => d
    let d := match d.sweepExt 0 640 (fun q => q != 7) with
      | some (lo, hi) => d.smbPut 0x1C (le32 lo ++ le32 hi)
      | none => d
    d.smbEvent.smbCell

/-! ### Commands -/

/-- IDENT. -/
def execSmbIdent (a : BitVec 7) (lastAck : Bool) (s : State) : Host.Outcome State Fault Refusal :=
  s.lift (fun d => d.smbRead a.toNat 0x00 lastAck (smbBlock 8 (wordsBytes [d.rd Reg.SYS_ID, d.rd Reg.SYS_FWVER])))

/-- STATUS. -/
def execSmbStatus (a : BitVec 7) (lastAck : Bool) (s : State) : Host.Outcome State Fault Refusal :=
  s.lift (fun d => d.smbRead a.toNat 0x01 lastAck (leBytes 1 d.smbStatus))

/-- REQCODE. -/
def execSmbReqcode (a : BitVec 7) (lastAck : Bool) (s : State) : Host.Outcome State Fault Refusal :=
  s.lift (fun d => d.smbReqcode a.toNat lastAck)

/-- SOC. -/
def execSmbSoc (a : BitVec 7) (lastAck : Bool) (s : State) : Host.Outcome State Fault Refusal :=
  s.lift (fun d => d.smbRead a.toNat 0x10 lastAck (d.smbResp 0x00 2))

/-- VSTR. -/
def execSmbVstr (a : BitVec 7) (lastAck : Bool) (s : State) : Host.Outcome State Fault Refusal :=
  s.lift (fun d => d.smbRead a.toNat 0x11 lastAck (d.smbResp 0x02 2))

/-- CURR. -/
def execSmbCurr (a : BitVec 7) (lastAck : Bool) (s : State) : Host.Outcome State Fault Refusal :=
  s.lift (fun d => d.smbRead a.toNat 0x12 lastAck (smbBlock 4 (d.smbResp 0x04 4)))

/-- SOP. -/
def execSmbSop (a : BitVec 7) (lastAck : Bool) (s : State) : Host.Outcome State Fault Refusal :=
  s.lift (fun d => d.smbRead a.toNat 0x13 lastAck (smbBlock 16 (d.smbResp 0x08 16)))

/-- TEXT. -/
def execSmbText (a : BitVec 7) (lastAck : Bool) (s : State) : Host.Outcome State Fault Refusal :=
  s.lift (fun d => d.smbRead a.toNat 0x14 lastAck (smbBlock 4 (d.smbResp 0x18 4)))

/-- VEXT. -/
def execSmbVext (a : BitVec 7) (lastAck : Bool) (s : State) : Host.Outcome State Fault Refusal :=
  s.lift (fun d => d.smbRead a.toNat 0x15 lastAck (smbBlock 8 (d.smbResp 0x1C 8)))

/-- CELLDATA. -/
def execSmbCelldata (a : BitVec 7) (lastAck : Bool) (s : State) : Host.Outcome State Fault Refusal :=
  s.lift (fun d => d.smbRead a.toNat 0x21 lastAck (smbBlock 12 (d.smbResp 0x24 12)))

/-- EVENT. -/
def execSmbEvent (a : BitVec 7) (lastAck : Bool) (s : State) : Host.Outcome State Fault Refusal :=
  s.lift (fun d => d.smbRead a.toNat 0x30 lastAck (d.smbCounted 0x30))

/-- UREAD. -/
def execSmbUread (a : BitVec 7) (lastAck : Bool) (s : State) : Host.Outcome State Fault Refusal :=
  s.lift (fun d => d.smbRead a.toNat 0x40 lastAck (d.smbCounted 0x60))

/-- CELLSEL: the data bytes between the command code and a PEC. -/
def execSmbCellsel (a : BitVec 7) (l : List Byte) (pec : Option Byte) (s : State) : Host.Outcome State Fault Refusal :=
  s.lift (fun d => d.smbCellsel a.toNat l pec)

/-- UWRITE: the count byte and the data bytes. -/
def execSmbUwrite (a : BitVec 7) (count : Byte) (l : List Byte) (pec : Option Byte) (s : State) :
    Host.Outcome State Fault Refusal :=
  s.lift (fun d => d.smbWrite a.toNat 0x41 (some count) l pec)

/-- An unlisted code, a read after a write-only code, or data after a read-only code. -/
def execSmbUnknownCommand (a : BitVec 7) (code : Byte) (read : Bool) (s : State) : Host.Outcome State Fault Refusal :=
  s.lift (fun d =>
    match d.smbAck a.toNat with
    | none => d
    | some k => (d.smbLast k code.toNat read).flag Reg.SMB_STAT 2)

/-- A read byte at 0x0C; `won` when the module keeps the arbitration. -/
def execAlertResponse (won lastAck : Bool) (s : State) : Host.Outcome State Fault Refusal :=
  s.lift (fun d =>
    if d.alertLow && won then
      let l := leBytes 1 (2 * d.fld Reg.SMB_ADDR 6 0)
      let l := if d.bit Reg.SMB_CFG 2 && lastAck then l ++ [pec8 (0x19 :: l)] else l
      ({ d with smb := { d.smb with alertWon := true } }).send .smbus 0x0C (byteNats l)
    else d)

/-- A write of SMB_REQSET. -/
def execSmbReqset (src : Writer) (v : Word) (s : State) : Host.Outcome State Fault Refusal :=
  s.lift (fun d => d.gate src Reg.SMB_REQSET (fun d => d.smbPush (fieldOf v 15 0)))

/-- SCL has stayed high for longer than SMB_RELTO while the target held SDA low. -/
def execSdaReleaseTimeout (s : State) : Host.Outcome State Fault Refusal :=
  s.lift (fun d => if d.fld Reg.SMB_RELTO 15 0 = 0 then d else (d.flag Reg.SMB_STAT 5).hw 0xA010 [])

/-- SCL has stayed low for longer than 35 ms. -/
def execSclLowTimeout (s : State) : Host.Outcome State Fault Refusal :=
  s.lift (fun d => (d.flag Reg.SMB_STAT 5).hw 0xA011 [])

end Sys2Proof.Machine
end

