-- ==== Sys2Proof/Machine/Sweep.lean ====
section
/-! DEFINITION. The sweep engine: strobes, collects, slots, deadlines and recovery, publication with its quality
codes, sub-sweeps, slow nodes and stretching, and open-wire passes (R80 to R83, R93, R95, R102 to R129, R567, R568). -/

namespace Sys2Proof.Machine

/-! ### Readers -/

/-- COLOFS of descriptor `n` in µs. -/
def Dev.colofs (d : Dev) (n : Nat) : Nat := d.fld (Reg.SWP_DESC n 0) 31 24

/-- The ticks from strobe issue to collect launch: COLOFS, or directly after the four symbols of the STROBE set (R103). -/
def Dev.launchT (d : Dev) (n : Nat) : Nat := if d.colofs n = 0 then symT 4 else usT (d.colofs n)

/-- DLMARGIN and TBUDGET of descriptor `n` in µs. -/
def Dev.dlMargin (d : Dev) (n : Nat) : Nat := d.fld (Reg.SWP_DESC n 0) 23 16
def Dev.tBudget (d : Dev) (n : Nat) : Nat := d.fld (Reg.SWP_DESC n 0) 15 8

/-- The nodes of descriptor `n` that are not lost, in ascending order. -/
def Dev.descNodes (d : Dev) (n : Nat) : List Nat :=
  (List.range 48).filter (fun k =>
    (if k < 32 then d.bit (Reg.SWP_DESC n 1) k else d.bit (Reg.SWP_DESC n 2) (k - 32)) && d.lagst k != 3)

/-- The NODES mask of descriptor `n` is zero. -/
def Dev.noNodes (d : Dev) (n : Nat) : Bool := d.rd (Reg.SWP_DESC n 1) = 0 && d.fld (Reg.SWP_DESC n 2) 15 0 = 0

/-- The sequence one below `s` (R67, R114). -/
def seqBelow (s : Nat) : Nat := if s = 0 then 0xFFFE else s - 1

/-- The sequence after the last one issued or received (R67). -/
def Dev.seqNext (d : Dev) : Nat :=
  match d.ring.seq with
  | none => 0
  | some s => if 0xFFFE ≤ s then 0 else s + 1

/-- The ring state is BROKEN, SPLIT or HEAL. -/
def Dev.ringOpen (d : Dev) : Bool := d.ringState = 3 || d.ringState = 4 || d.ringState = 5

/-- SWP_STAT flag `b` sets and entry `code` is made. -/
def Dev.swpNote (d : Dev) (b code : Nat) (ws : List Word) : Dev := (d.flag Reg.SWP_STAT b).hw code ws

/-! ### Collect frames (R80, R81) -/

/-- The length in bytes of a slot with `n` data bytes. -/
def slotLen (n : Nat) : Nat := 8 + n

/-- A placeholder as the issuer writes it: address, SLEN, SEQ 0xFFFF, zeros. -/
def placeholder (k n : Nat) : List Nat := [k, n, 255, 255, 0, 0] ++ List.replicate (n + 2) 0

/-- The symbols of a frame with slots of these data lengths: payload, header, CRC, SOF and EOF. -/
def frameSyms (l : List Nat) : Nat := (l.map slotLen).foldl (· + ·) 0 + 14

/-- The slots that the frame of one end carries: in SPLIT and HEAL, and in recovery reads, those of the nodes on that end's side
(R93, R94). -/
def Dev.endSlots (d : Dev) (split far : Bool) (l : List (Nat × Nat)) : List (Nat × Nat) :=
  if split then l.filter (fun e => d.reaches far e.1) else l

/-- The symbols of the longest of the frames that carry these slots in parallel, one from each end that this module serves; a
frame without slots is not sent and takes none (R94, R105; DESIGN CHOICE: log entry 209). -/
def Dev.collectSyms (d : Dev) (split : Bool) (l : List (Nat × Nat)) : Nat :=
  let one (far : Bool) : Nat :=
    let l := d.endSlots split far l
    if l.isEmpty then 0 else frameSyms (l.map (fun e => e.2))
  if !split then one false else if d.role != 0 then one (d.farEnd false) else max (one false) (one true)

/-- A COLLECT with slots for nodes and their data lengths leaves every issuing port, in SPLIT and HEAL only for the
nodes on that port's side (R94); from the far end in descending node order (Table 3.9).  The lane is busy until its last
symbol has left. -/
def Dev.collect (d : Dev) (dst arg : Nat) (recover : Bool) (l : List (Nat × Nat)) : Dev :=
  let split := d.ringSplit || recover
  let d := [false, true].foldl (fun (d : Dev) x =>
    let far := d.farEnd x
    let l := d.endSlots split far l
    let l := if far then l.reverse else l
    if l.isEmpty then d
    else if d.issues x || (recover && d.portOn x) then
      d.send (portIface x) 0x01 (frameBytes 0x01 dst arg (l.flatMap (fun e => placeholder e.1 e.2)))
    else d) d
  d.laneBusy (d.collectSyms split l)

/-- The voltage slots of the main frame: the descriptor's nodes that are not laggards. -/
def Dev.mainSlots (d : Dev) (n : Nat) : List (Nat × Nat) :=
  ((d.descNodes n).filter (fun k => d.lagst k != 2)).map (fun k => (k, 3 * d.nodeNV k))

/-- The laggards of the descriptor, each read by its own frame (R122). -/
def Dev.tailSlots (d : Dev) (n : Nat) : List (Nat × Nat) :=
  ((d.descNodes n).filter (fun k => d.lagst k = 2)).map (fun k => (k, 3 * d.nodeNV k))

/-- The ticks of the main frame and the tail frames. -/
def Dev.frameT (d : Dev) (n : Nat) : Nat :=
  symT (d.collectSyms d.ringSplit (d.mainSlots n)
    + ((d.tailSlots n).map (fun e => d.collectSyms d.ringSplit [e])).foldl (· + ·) 0)

/-- The ticks from issue to the deadline with no stretch, of descriptor `n` (R104, R105). -/
def Dev.deadline0 (d : Dev) (n : Nat) : Nat :=
  d.launchT n + usT (d.dlMargin n) + (if d.noNodes n then 0 else d.frameT n + d.tRing)

/-- The tick of the deadline of an open sweep. -/
def Dev.deadlineAt (d : Dev) (w : Sweep) : Nat :=
  w.issue + d.deadline0 w.desc + (if d.noNodes w.desc then 0 else usT w.stretch)

/-! ### Quality (R111 to R113, R567) -/

/-- The stale threshold of channel `i`. -/
def Dev.staleAge (d : Dev) (i : Nat) : Nat := if isVolt i then d.fld Reg.SWP_AGECFG 3 0 else d.fld Reg.SWP_AGECFG 11 8

/-- The quality code of a mapped channel at a publication (Table 4.7). -/
def Dev.quality (d : Dev) (i : Nat) (c : Chan) : Nat :=
  match c.code with
  | some q => q
  | none =>
    if c.invalid || (d.lagst (d.fld (Reg.CHM_ENT i) 29 24) = 3 && !c.ever) then 7
    else if d.staleAge i != 0 && d.staleAge i ≤ c.age then 2
    else 1

/-- A sweep word (R110). -/
def sweepWordOf (v : Int) (age code : Nat) : Word :=
  nw ((v % 16777216).toNat * 256 + satN 15 age * 16 + code)

/-- The sweep word that channel `i` is published with. -/
def Dev.wordOf (d : Dev) (i : Nat) : Word :=
  if d.bit (Reg.CHM_ENT i) 31 then
    let c := d.chan i
    let q := d.quality i c
    if q = 7 then sweepWordOf 0 15 7 else sweepWordOf c.value c.age q
  else sweepWordOf 0 15 7

/-- Codes that return an untrusted count to 0 (R154). -/
def trustedCode (q : Nat) : Bool := q = 0 || q = 3 || q = 5

/-- The untrusted counts of an index range move on with the codes of the latest published buffer (R154). -/
def Dev.untrustRange (d : Dev) (first count : Nat) : Dev :=
  (List.range count).foldl (fun (d : Dev) j =>
    let i := first + j
    if d.bit (Reg.CHM_ENT i) 31 then
      d.untrust i (d.rd Reg.SWP_COUNT != 0 && trustedCode (wordCode (d.sweepWord d.lastBuf i)))
    else d) d

/-- The open sub-sweep closes. -/
def Dev.closeSub (d : Dev) : Dev :=
  let d := { d with swp := { d.swp with unclosed := none } }
  (d.untrustRange 640 1408).ochreRefresh

/-! ### Publication (R95, R115, R116, R121, R281) -/

/-- The header of buffer `b` (Table 4.8). -/
def Dev.sweepHeader (d : Dev) (w : Sweep) (words : List Word) (tseq : Nat) : List Word :=
  let grey := b2n (d.pwrState = 1)
  let q := (List.range 2048).filterMap (fun i =>
    if d.bit (Reg.CHM_ENT i) 31 then some (i, wordCode ((words[i]?).getD 0)) else none)
  let good := (q.filter (fun e => isVolt e.1 && trustedCode e.2)).length
  let inv := (q.filter (fun e => e.2 = 7)).length
  let held := (q.filter (fun e => e.2 = 1 || e.2 = 2 || e.2 = 4)).length
  [nw (grey * 2 ^ 19 + b2n (w.stretch != 0) * 2 ^ 18 + b2n d.ringOpen * 2 ^ 17 + b2n w.temp * 2 ^ 16 + w.seq),
   nw w.angle, nw w.cycle, nw w.ns, nw w.sec, nw (w.sec / 2 ^ 32 % 65536), nw w.tb, nw (w.tb / 2 ^ 32),
   nw (tseq * 65536 + good), nw (inv * 65536 + held), nw (w.tref % 65536), nw w.desc, 0, 0, 0, 0]

/-- The end whose main frame carries node `k`: the issuing end's, which a shade has before it, in SPLIT and HEAL the end that
reaches the node (R61, R94). -/
def Dev.sideOf (d : Dev) (k : Nat) : Bool :=
  if d.ringSplit then !d.reaches false k else d.farEnd false != decide (d.role = 2)

/-- Symbols before a node's placeholder in the main frame of a descriptor: SOF, the header and the slots ahead of it, which
are those of the frame's other nodes nearer to its end that are not laggards.  The placeholder of a laggard is judged where
it would stand in the main frame (DEDUCED: log entry 188). -/
def Dev.symsBefore (d : Dev) (n k : Nat) : Nat :=
  let far := d.sideOf k
  let ahead (j : Nat) : Bool := d.lagst j != 2 && d.sideOf j == far && (if far then k < j else j < k)
  (((d.descNodes n).filter ahead).map (fun j => slotLen (3 * d.nodeNV j))).foldl (· + ·) 9

/-- By how many ns node `k`'s largest TURN plus MARGIN exceeds the time from the latch to its placeholder's arrival
with no stretch (R95, R121). -/
def Dev.shortfall (d : Dev) (w : Sweep) (k : Nat) : Nat :=
  let turn := d.fld (Reg.SK_NODE 0 k) 15 8 + d.fld (Reg.SK_LAGCFG 0) 7 0
  let arrive : Int := 8 * d.launchT w.desc + 80 * d.symsBefore w.desc k + (d.tof (d.sideOf k) k).getD 0
  (1000 * (turn : Int) - (arrive - w.tref)).toNat

/-- The cap of the stretch in µs (R121): SWP_STRETCHMAX, and the room left in the sweep when its period is known. -/
def Dev.stretchCap (d : Dev) (w : Sweep) : Nat :=
  let m := d.fld Reg.SWP_STRETCHMAX 7 0
  if d.swp.period = 0 then m
  else min m ((d.swp.period - (d.deadline0 w.desc + usT (d.tBudget w.desc) + 700)) / 125)

/-- A run of `n` sweeps reaches its threshold; a threshold of zero is reached at the first. -/
def runDone (n th : Nat) : Bool := n != 0 && max 1 th ≤ n

/-- Node `k`, in STRETCH, has needed too much stretch in `tight` consecutive sweeps: LAGGARD after LAGN of them, or LOST while
four nodes are laggards (Table 3.10). -/
def Dev.lagTight (d : Dev) (k tight : Nat) : Dev :=
  let d := { d with ring := { d.ring with tight := putN d.ring.tight k tight } }
  if runDone tight (d.fld (Reg.SK_LAGCFG 0) 11 8) then
    d.lagSet k (if ((List.range 48).filter (fun j => d.lagst j = 2)).length < 4 then 2 else 3)
  else d

/-- Node `k`'s slow-node state after a sweep (Table 3.10).  A NORMAL node whose first slow sweep needs too much enters STRETCH
with that sweep counted (R96).  SKA_LAGCFG governs every node, SKB_LAGCFG none (DESIGN CHOICE: log entry 210). -/
def Dev.lagNode (d : Dev) (w : Sweep) (cap k : Nat) : Dev :=
  let sf := d.shortfall w k
  let need := sf != 0 || w.nrdy.contains k
  let st := d.lagst k
  let recn := d.fld (Reg.SK_LAGCFG 0) 23 12
  let lostn := d.fld (Reg.SK_LAGCFG 0) 31 24
  let fit := if need then 0 else getN d.ring.fit k + 1
  let exceeds := decide (cap < (sf + 999) / 1000)
  if st = 0 then (if need then (let d := d.lagSet k 1; if exceeds then d.lagTight k 1 else d) else d)
  else if st = 1 then
    let d := { d with ring := { d.ring with fit := putN d.ring.fit k fit } }
    let d := d.lagTight k (if exceeds then getN d.ring.tight k + 1 else 0)
    if d.lagst k = 1 && runDone fit recn then d.lagSet k 0 else d
  else if st = 2 then
    let bad := !w.got.contains k || w.nrdy.contains k
    let tail := if bad then getN d.ring.tail k + 1 else 0
    let d := { d with ring := { d.ring with tail := putN d.ring.tail k tail, fit := putN d.ring.fit k fit } }
    if runDone tail lostn then d.lagSet k 3
    else if runDone fit recn then d.lagSet k 0
    else d
  else d

/-- The TURNs of the last 32 sweeps move on: a node without a voltage slot in this sweep has none for it (R95, R98). -/
def Dev.turnMissed (d : Dev) (w : Sweep) : Dev :=
  (List.range (d.ring.count.getD 0)).foldl (fun (d : Dev) k =>
    match getO d.ring.turns k with
    | some l =>
      if w.got.contains k then d
      else
        let l := (0 :: l).take 32
        ({ d with ring := { d.ring with turns := putO d.ring.turns k (some l) } }).setNode k 15 8 (l.foldl max 0)
    | none => d) d

/-- The slow-node states after a sweep (R95). -/
def Dev.slowNodes (d : Dev) (w : Sweep) : Dev :=
  let cap := d.stretchCap w
  (d.descNodes w.desc).foldl (fun (d : Dev) k => d.lagNode w cap k) (d.turnMissed w)

/-- The stretch of a sweep that opens: the largest shortfall over the nodes in STRETCH, each against its own placeholder in this
sweep's collect frame; a node that the frame has no placeholder for falls short of none (R121). -/
def Dev.stretchSet (d : Dev) (w : Sweep) : Dev :=
  let cap := d.stretchCap w
  let m := (((d.descNodes w.desc).filter (fun k => d.lagst k = 1)).map (fun k => (d.shortfall w k + 999) / 1000)).foldl max 0
  let d := if cap < m then d.swpNote 6 0x1055 [] else d
  let n := min cap m % 256
  ({ d with swp := { d.swp with cur := some { w with stretch := n } } }).wr Reg.SWP_STRETCH (nw n)

/-- The four temperature feeds read the published words (R281). -/
def Dev.feeds (d : Dev) : Dev :=
  (List.range 4).foldl (fun (d : Dev) n =>
    if d.bit (Reg.MOT_TFDCFG n) 31 then
      let w := d.sweepWord d.lastBuf (d.fld (Reg.MOT_TFDCFG n) 10 0)
      d.feedUpdate n (wordCode w) (wordVal w)
    else d) d

/-- The command window after a publication begins an open-wire pass (R124): OWCTL is written, and the pass aborts
unless every base value was Fresh. -/
def Dev.owBegin (d : Dev) : Dev :=
  match d.swp.ow with
  | some p =>
    if p.phase != 0 then d
    else
      let wires := (List.range (d.nodeNV p.node + 1)).filter (fun w => w % 2 = p.arg)
      let m := 2 ^ 31 + wires.foldl (fun m w => m + 2 ^ w) 0
      let d := d.frameSend 0x05 p.node 0x0C (byteNats (leBytes 4 m))
      match d.baseValues p.node with
      | some b => { d with swp := { d.swp with ow := some { p with phase := 1, base := b } } }
      | none => d.owAbort
  | none => d

/-- The buffer that the next publication writes. -/
def Dev.nextBuf (d : Dev) : Nat := if d.rd Reg.SWP_COUNT = 0 then 0 else (d.lastBuf + 1) % 4

/-- Words and header of the open sweep enter the next buffer: those of channels without a new value, beside those that
entered it as their slots were accepted (R115, R116). -/
def Dev.sweepStore (d : Dev) (w : Sweep) (words : List Word) : Dev :=
  let buf := d.nextBuf
  let base := (d.rd Reg.SWP_BUFBASE).toNat
  let d := d.agentStore (base + 0x1000 + 0x2000 * buf) (wordsBytes words)
  d.agentStore (base + 64 * buf) (wordsBytes (d.sweepHeader w words (d.swp.tseq.getD 0)))

/-- A mapped channel after a publication: its code is decided anew by what the next sweep brings. -/
def Dev.chanClose (d : Dev) (i : Nat) : Dev :=
  if d.bit (Reg.CHM_ENT i) 31 then
    let c := d.chan i
    d.setChan i { c with code := none, invalid := decide (d.quality i c = 7) }
  else d

/-- The string voltage: the sum of the mapped cell voltages. -/
def Dev.voltSum (d : Dev) (words : List Word) : Int :=
  ((List.range 640).filter (fun i => d.bit (Reg.CHM_ENT i) 31)).foldl (fun (s : Int) i => s + wordVal ((words[i]?).getD 0)) 0

/-- SWP_LAST, SWP_COUNT and the engine's own record of the published sweep. -/
def Dev.sweepDone (d : Dev) (w : Sweep) (buf : Nat) (sum : Int) : Dev :=
  let due := d.deadlineAt w
  let d := (d.wr Reg.SWP_LAST (nw (w.seq * 65536 + buf))).incWrap Reg.SWP_COUNT
  let d := d.setBit Reg.SWP_STAT 0 false
  { d with swp := { d.swp with cur := none, vstr := sum, budgetAt := due, budget := usT (d.tBudget w.desc), budgetUsed := 0 } }

/-- An open-wire pass that waited for this publication goes on. -/
def Dev.owAdvance (d : Dev) : Dev :=
  match d.swp.ow with
  | some p => if p.phase = 2 then { d with swp := { d.swp with ow := some { p with phase := 3 } } } else d
  | none => d

/-- The open sweep is published (R116). -/
def Dev.publish (d : Dev) (w : Sweep) : Dev :=
  let buf := d.nextBuf
  let words := (List.range 2048).map (fun i => d.wordOf i)
  let d := (List.range 2048).foldl (fun (d : Dev) i => d.chanClose i) (d.sweepStore w words)
  let d := (d.sweepDone w buf (d.voltSum words)).slowNodes w
  let d := (d.untrustRange 0 640).ochreRefresh
  let d := if d.swp.unclosed.isSome && d.swp.unclosed = d.swp.tseq then d.closeSub else d
  let d := (d.swdPublished.feeds.binsPublish buf).reform
  d.lrnFinish.owAdvance.owBegin.lrnBegin.blankFlush.smbFill

/-- The open sweep, when there is one, is published. -/
def Dev.publishOpen (d : Dev) : Dev :=
  match d.swp.cur with
  | some w => d.publish w
  | none => d

/-! ### Strobes (R104, R106, R117, R120) -/

/-- A pass that has begun gets its sweep. -/
def passIssued (p : Option WirePass) : Option WirePass :=
  p.map (fun p => if p.phase = 1 then { p with phase := 2 } else p)

/-- A channel's age after one more strobe of its kind (R111). -/
def olderChan (c : Option Chan) : Option Chan :=
  let x := c.map (fun c => { c with age := satN 15 (c.age + 1) })
  if x = some Chan.none_ then none else x

/-- Ages of an index range rise by 1, saturating (R111). -/
def Dev.agesUp (d : Dev) (first count : Nat) : Dev :=
  let f (i : Nat) (c : Option Chan) : Option Chan := if first ≤ i && i < first + count then olderChan c else c
  { d with swp := { d.swp with chans := Store.mapKeep (fun _ => none) f d.swp.chans } }

/-- The local clock and the time base in the fabric cycle in which the `j`-th strobe action of a tick leaves the port: three
cycles of 4 ns after the match, and one more for each action ahead of it (R54, R56, R568). -/
def Dev.leaveTim (d : Dev) (j : Nat) : TimSt := (List.range ((3 + j) / 2)).foldl (fun (t : TimSt) _ => t.tick d.timEff) d.tim

/-- The STROBE set of a sequence with its flag byte (R67). -/
def strobeSet (seq : Nat) (temp aux : Bool) : List Nat :=
  let f := b2n temp + 2 * b2n aux
  let chk := seq % 16 ^^^ seq / 16 % 16 ^^^ seq / 256 % 16 ^^^ seq / 4096 % 16 ^^^ f
  [seq % 256, seq / 256, chk * 16 + f]

/-- The sequence of the last strobe issued or received, as both ports show it (R67). -/
def Dev.seqSet (d : Dev) (seq : Nat) : Dev :=
  let d := { d with ring := { d.ring with seq := some seq } }
  (d.wr (Reg.SK_SEQ 0) (nw seq)).wr (Reg.SK_SEQ 1) (nw seq)

/-- A shade notes its charge at a strobe (R403). -/
def Dev.strobeNote (d : Dev) (seq : Nat) : Dev :=
  { d with tw := { d.tw with strobes := putO d.tw.strobes seq (some (sx 64 ((d.rd Reg.EST_QLAT1_LO).toNat + 2 ^ 32 * (d.rd Reg.EST_QLAT1_HI).toNat))) } }

/-- A sub-sweep begins with its reads (R118). -/
def Dev.subBegin (d : Dev) (desc seq : Nat) (aux : Bool) : Dev :=
  let d := if d.swp.unclosed.isSome then d.closeSub else d
  let reads := [0, 1, 2, 3].flatMap (fun g => (d.descNodes desc).map (fun k => (g, k)))
  let d := d.agesUp 640 1408
  { d with swp := { d.swp with sub := some { seq := seq, aux := aux, reads := reads, ok := [], till := 0 }, unclosed := some seq } }

/-- The sweep of a strobe opens, with the clocks `t` of its issue. -/
def Dev.sweepOpen (d : Dev) (desc seq : Nat) (temp aux : Bool) (t : TimSt) : Dev :=
  let w : Sweep := { seq := seq, temp := temp, aux := aux, desc := desc, issue := d.now, angle := d.ang.angle, cycle := d.ang.cycle, ns := t.ns, sec := t.sec, tb := t.tb, tref := d.ring.tref, stretch := 0, launched := false, recovering := false, got := [], nrdy := [] }
  let period := match d.swp.lastIssue with | some t => d.now - t | none => 0
  let masks := d.balMasks
  (({ d with swp := { d.swp with cur := some w, lastIssue := some d.now, period := period, ow := passIssued d.swp.ow, lrn := passIssued d.swp.lrn, lastDesc := desc, seg := [], balAt := masks, balPrev := d.swp.balAt } }).stretchSet w).setBit Reg.SWP_STAT 0 true

/-- STROBE is issued with a sequence and a sweep begins; `j` strobe actions of its tick are ahead of it. -/
def Dev.strobeWith (d : Dev) (desc seq : Nat) (temp aux : Bool) (j : Nat) : Dev :=
  let t := d.leaveTim j
  let d := ((d.ringSend setStrobe (strobeSet seq temp aux)).seqSet seq).currentLatch
  let d := if d.role = 2 then d.strobeNote seq else d
  let d := d.binsStrobe.agesUp 0 640
  let d := if temp then d.subBegin desc seq aux else d
  d.sweepOpen desc seq temp aux t

/-- A strobe of this module's own timetable: BROKEN becomes SPLIT, and in SPLIT and HEAL a duty marks the strobe with
its cue (R92, R106, R404). -/
def Dev.strobeIssue (d : Dev) (desc : Nat) (temp : Bool) (j : Nat) : Dev :=
  let aux := temp && d.bit (Reg.SWP_DESC desc 0) 2
  let d := if d.ringState = 3 then d.ringSet 4 else d
  let seq := d.seqNext
  let d := if d.ringSplit then d.cue (if aux then 3 else if temp then 2 else 1) seq else d
  d.strobeWith desc seq temp aux j

/-- A strobe action for descriptor `desc`; `temp` for code 0x02.  A BLANK precedes each firing strobe entry, whether the
strobe before it was issued or not (R135, R136).  A shade in BROKEN, SPLIT or HEAL issues on cues alone (R401). -/
def Dev.strobeAction (d : Dev) (desc : Nat) (temp : Bool) (j : Nat) : Dev :=
  if d.role = 2 && d.ringOpen then d
  else
  let d := match d.swp.cur with | some w => if w.recovering then d.publish w else d | none => d
  if d.bit Reg.SWP_CTL 0 = false then d
  else if d.bit (Reg.SWP_DESC desc 0) 0 = false then d.flag Reg.SWP_STAT 5
  else if d.swp.cur.isSome then (d.satInc Reg.SWP_SKIPCNT 15 0).swpNote 3 0x1050 []
  else
    let busy := match d.swp.sub with | some x => !x.reads.isEmpty || decide (d.now < x.till) | none => false
    if temp && busy then ((d.satInc Reg.SWP_SKIPCNT 31 16).swpNote 4 0x1051 []).strobeIssue desc false j
    else d.strobeIssue desc temp j

/-! ### Collect and deadline (R93, R105, R122) -/

/-- The collect frame is launched, with the tail frames after it. -/
def Dev.collectLaunch (d : Dev) : Dev :=
  match d.swp.cur with
  | some w =>
    if w.launched || d.noNodes w.desc || decide (d.now < w.issue + d.launchT w.desc + usT w.stretch) then d
    else
      let d := { d with swp := { d.swp with cur := some { w with launched := true } } }
      let main := d.mainSlots w.desc
      let tail := d.tailSlots w.desc
      let d := if main.isEmpty then d else d.collect 63 1 false main
      tail.foldl (fun (d : Dev) e => d.collect e.1 1 false [e]) d
  | none => d

/-- `n` shifts of the CRC-16 register of R81. -/
def crc16Bits : Nat → Nat → Nat
  | 0, c => c
  | n + 1, c => crc16Bits n (if 32768 ≤ c then (2 * c % 65536) ^^^ 0x1021 else 2 * c)

/-- The slot CRC-16: polynomial 0x1021, initial value 0xFFFF, not reflected, no final XOR. -/
def crc16 (l : List Byte) : Nat := l.foldl (fun c b => crc16Bits 8 (c ^^^ (b.toNat * 256))) 0xFFFF

/-- The slots accepted in SPLIT and not yet sent go to the partner in a SEGMENT frame with their COLLECT ARG (R404). -/
def Dev.segmentSend (d : Dev) : Dev :=
  if d.swp.seg.isEmpty || !d.pairUp then d
  else
    let seq := d.ring.seq.getD 0
    let d := d.send .twin 0x07 (byteNats (leBytes 2 seq ++ leBytes 1 d.swp.segArg ++ [0] ++ d.swp.seg))
    { d with swp := { d.swp with seg := [] } }

/-- An accepted slot of the own segment joins the SEGMENT frame of its collect frame. -/
def Dev.segmentAdd (d : Dev) (arg node seq flags turn : Nat) (data : List Byte) : Dev :=
  if d.ringSplit && d.pairUp then
    let d := if d.swp.segArg = arg then d else d.segmentSend
    let h : List Byte := leBytes 1 node ++ leBytes 1 data.length ++ leBytes 2 seq ++ leBytes 1 flags ++ leBytes 1 turn ++ data
    { d with swp := { d.swp with seg := d.swp.seg ++ h ++ leBytes 2 (crc16 h), segArg := arg } }
  else d

/-- The interval of a sweep's frame over the ring is noted (R105). -/
def Dev.noteTransit (d : Dev) (t : Option Nat) : Dev :=
  match t with
  | some n => { d with ring := { d.ring with trans := (d.ring.trans ++ [n]).drop (d.ring.trans.length - 31) } }
  | none => d

/-- The sweep deadline: unreceived slots, the passage to BROKEN, recovery reads, or publication.  A shade issues its
recovery read on the cue alone (R401). -/
def Dev.sweepDeadline (d : Dev) (transit : Option Nat) : Dev :=
  match d.swp.cur with
  | none => d
  | some w =>
    if w.recovering || decide (d.now < d.deadlineAt w) then d
    else
      let d := d.noteTransit transit
      let missing := (d.descNodes w.desc).filter (fun k => !w.got.contains k)
      let d := if missing.isEmpty then d else (d.flag Reg.SWP_STAT 7).ringBreak
      if d.ringState = 3 && !missing.isEmpty then
        let d := ({ d with swp := { d.swp with cur := some { w with recovering := true } } }).cue 9 w.seq
        if d.role = 2 then d else d.collect 63 0x21 true (missing.map (fun k => (k, 3 * d.nodeNV k)))
      else d.segmentSend.publish w

/-! ### Slots (R82, R83, R112, R114, R119, R124, R138) -/

/-- Little-endian signed numbers of `n` bytes from a list of bytes. -/
def signedParts (n : Nat) : Nat → List Byte → List Int
  | 0, _ => []
  | k + 1, l => sx (8 * n) (leNat (l.take n)) :: signedParts n k (l.drop n)

/-- A value with the channel's offset added; outside its 24 bits the spec states no result. -/
def Dev.withOfs (d : Dev) (i : Nat) (v : Int) : Int × Dev :=
  let s := v + sx 12 (d.fld (Reg.CHM_ENT i) 11 0)
  if -8388608 ≤ s && s ≤ 8388607 then (s, d)
  else
    let (k, d) := d.nextFree
    (sx 24 (Config.free k), d)

/-- What an accepted slot carries with its header: node, port's end, FLAGS, and whether its SEQ is the open sweep's. -/
structure SlotIn where
  node : Nat
  far : Bool
  flags : Nat
  cur : Bool
deriving DecidableEq, Repr

/-- FLAGS bit `b` of a slot. -/
def SlotIn.flag (x : SlotIn) (b : Nat) : Bool := x.flags.testBit b

/-- The code of a received voltage of position `p`; `comp` tells how a BAL slot fared: none where no compensation
was made. -/
def Dev.voltCode (d : Dev) (x : SlotIn) (p : Nat) (comp : Bool) : Nat :=
  let sus := d.bit (Reg.SWP_OWSUS x.node) p || d.bit (Reg.SWP_OWSUS x.node) (p + 1)
  if x.flag 7 || x.flag 6 || (x.flag 3 && !comp) then 7
  else if sus && x.cur then 6
  else if !x.cur then 4
  else if x.far && d.ringOpen then 5
  else if x.flag 3 then 3
  else 0

/-- The word of channel `i` enters the next buffer (R116). -/
def Dev.wordStore (d : Dev) (i : Nat) : Dev :=
  d.agentStore ((d.rd Reg.SWP_BUFBASE).toNat + 0x1000 + 0x2000 * d.nextBuf + 4 * i) (leBytes 4 (d.wordOf i).toNat)

/-- A received value is stored for channel `i` until the next publication, and its word enters the next buffer. -/
def Dev.take (d : Dev) (i : Nat) (v : Int) (age code : Nat) : Dev :=
  let c := d.chan i
  let d := if code = 7 then d.setChan i { c with code := some 7, ever := true }
    else d.setChan i { c with value := v, age := age, code := some code, ever := true }
  d.wordStore i

/-- The samples of a slot for the comparators alone: channel, value with its offset, sequence. -/
def Dev.voltSamples (d : Dev) (k seq : Nat) (raw : List Int) : Dev × List (Nat × Int × Nat) :=
  (List.range raw.length).foldl (fun (a : Dev × List (Nat × Int × Nat)) p =>
    match a.1.chmFind 0 640 k p with
    | none => a
    | some i =>
      let (v, d) := a.1.withOfs i (nthI raw p)
      (d, a.2 ++ [(i, v, seq)])) (d, [])

/-- The voltages of a slot: each mapped position is stored with its code, a Compensated one with its corrected value, in which
V_raw is the slot's value without the channel's offset (DESIGN CHOICE: log entry 184); the answer lists the samples for the
comparators. -/
def Dev.takeVolts (d : Dev) (x : SlotIn) (seq : Nat) (raw : List Int) : Dev × List (Nat × Int × Nat) :=
  let comp := d.bit Reg.BAL_CTL 2 && d.fld Reg.BAL_RBAL 15 0 != 0
  (List.range raw.length).foldl (fun (a : Dev × List (Nat × Int × Nat)) p =>
    let d := a.1
    match d.chmFind 0 640 x.node p with
    | none => a
    | some i =>
      let (v, d) := d.withOfs i (nthI raw p)
      let fixed := if x.flag 3 && comp then d.compensate x.node p x.cur (x.flag 5) raw else none
      let code := d.voltCode x p fixed.isSome
      let (u, d) := match fixed with | some c => d.withOfs i c | none => (v, d)
      let d := d.take i u (if x.cur then 0 else 1) code
      (d, a.2 ++ [(i, v, seq)])) (d, [])

/-- The values of a temperature group or of the auxiliary positions, from position `pos0` of an index range, for
sub-sweep `seq`: taken when `ok`, and compared.  Row 3 of Table 4.7 is not applied to them (DESIGN CHOICE: log entry 211). -/
def Dev.takeSub (d : Dev) (x : SlotIn) (seq first count pos0 : Nat) (bad : Int) (tempv ok : Bool) (raw : List Int) :
    Dev × List (Nat × Int × Nat) :=
  (List.range raw.length).foldl (fun (a : Dev × List (Nat × Int × Nat)) p =>
    let d := a.1
    match d.chmFind first count x.node (pos0 + p) with
    | none => a
    | some i =>
      let (v, d) := d.withOfs i (nthI raw p)
      let code := if x.flag 7 || x.flag 6 || nthI raw p = bad || !tempv then 7
        else if x.far && d.ringOpen then 5 else 0
      let d := if ok then d.take i v 0 code else d
      (d, a.2 ++ [(i, v, seq)])) (d, [])

/-- A pass on the node captures its values instead of the buffer and the comparators. -/
def capturing (p : Option WirePass) (k : Nat) (cur : Bool) : Bool :=
  match p with
  | some p => cur && decide (p.phase = 2) && decide (p.node = k)
  | none => false

/-- The captured values with the offsets of their channels. -/
def Dev.captured (d : Dev) (k : Nat) (raw : List Int) : List Int :=
  (List.range raw.length).map (fun p =>
    match d.chmFind 0 640 k p with
    | some i => nthI raw p + sx 12 (d.fld (Reg.CHM_ENT i) 11 0)
    | none => nthI raw p)

/-- TURN of a node's voltage slot: the latest, and the largest of the last 32 sweeps; `again` when the open sweep has had a slot
of the node before (R95, R98). -/
def Dev.slotTurn (d : Dev) (k turn : Nat) (again : Bool) : Dev :=
  let l := (getO d.ring.turns k).getD []
  let l := (turn :: (if again then l.drop 1 else l)).take 32
  let d := { d with ring := { d.ring with turns := putO d.ring.turns k (some l) } }
  (d.setNode k 7 0 turn).setNode k 15 8 (l.foldl max 0)

/-- The WDT flag of a slot: entry 0x1040 at its onset (R101, R142; DESIGN CHOICE: log entry 179). -/
def Dev.slotWdt (d : Dev) (k : Nat) (wdt : Bool) : Dev :=
  let was := getB d.ring.wdt k
  let d := { d with ring := { d.ring with wdt := putB d.ring.wdt k wdt } }
  let d := d.setBit (Reg.BAL_APPL k) 25 wdt
  if wdt && !was then d.hw 0x1040 [nw k] else d

/-- The voltages of an accepted slot whose SEQ is in order: taken while a sweep is open, but not of one flagged NRDY; the comparators
see every one (R114, R149). -/
def Dev.slotVolts (d : Dev) (x : SlotIn) (seq turn : Nat) (raw : List Int) : Dev × List (Nat × Int × Nat) :=
  match d.swp.cur with
  | none => d.voltSamples x.node seq raw
  | some w =>
    let k := x.node
    let nrdy := x.flag 0
    let again := w.got.contains k
    let w := { w with got := w.got ++ [k], nrdy := if nrdy then w.nrdy ++ [k] else w.nrdy }
    let sub := d.swp.sub.map (fun s => if seq = s.seq then { s with ok := s.ok ++ [k] } else s)
    let d := { d with swp := { d.swp with cur := some w, sub := sub } }
    let d := d.slotTurn k turn again
    if nrdy then d.voltSamples k seq raw
    else if capturing d.swp.ow k x.cur then
      let l := d.captured k raw
      let d := { d with swp := { d.swp with ow := d.swp.ow.map (fun p => { p with cap := l }) } }
      ((List.range l.length).foldl (fun (d : Dev) i => d.wr (Reg.SWP_OWCAP i) (iw (nthI l i))) d, [])
    else if capturing d.swp.lrn k x.cur then
      ({ d with swp := { d.swp with lrn := d.swp.lrn.map (fun p => { p with cap := d.captured k raw }) } }, [])
    else d.takeVolts x seq raw

/-- The temperatures and auxiliary values of an accepted slot: those of node k are taken once any voltage slot of the node was
accepted with the sub-sweep's sequence, in whichever sweep it came (DESIGN CHOICE: log entry 181). -/
def Dev.slotSub (d : Dev) (x : SlotIn) (arg : Nat) (data : List Byte) : Dev × List (Nat × Int × Nat) :=
  match d.swp.sub with
  | none => (d, [])
  | some s =>
    let ok := s.ok.contains x.node && !x.flag 0
    let g := arg / 8 % 4
    let ts := if arg.testBit 2 then signedParts 2 8 data else []
    let (d, a) := d.takeSub x s.seq 640 1280 (8 * g) (-32768) (x.flag 1) ok ts
    let xs := if arg.testBit 1 then signedParts 3 (d.nodeNA x.node) (data.drop (2 * ts.length)) else []
    let (d, b) := d.takeSub x s.seq 1920 128 0 (-8388608) true ok xs
    let d := if ok && (arg.testBit 2 || arg.testBit 1) then { d with swp := { d.swp with tseq := some s.seq } } else d
    (d, a ++ b)

/-- A shade takes the sequence of the strobe it received from the slots that its echo end receives: from the first slot of a
collect frame, and from a later one that is not of the strobe before (R67, R401; log entry 133). -/
def Dev.seqAdopt (d : Dev) (arg seq : Nat) : Dev :=
  let first := match d.swp.cur with | some w => w.got.isEmpty && arg.testBit 0 && !arg.testBit 5 | none => false
  let skip := match d.ring.seq with | some s => seq = s || (seq = seqBelow s && !first) | none => false
  if d.role != 2 || d.ringSplit || skip then d
  else
    let d := (d.seqSet seq).strobeNote seq
    match d.swp.cur with
    | some w => { d with swp := { d.swp with cur := some { w with seq := seq } } }
    | none => d

/-- The open sweep has a node's voltage slot; its values are not taken (R83, R114). -/
def Dev.slotGot (d : Dev) (arg node : Nat) : Dev :=
  if arg.testBit 0 then { d with swp := { d.swp with cur := d.swp.cur.map (fun w => { w with got := w.got ++ [node] }) } } else d

/-- The open sweep waits for its recovery reads. -/
def Dev.inRecovery (d : Dev) : Bool := match d.swp.cur with | some w => w.recovering | none => false

/-- An accepted slot of an own port is taken.  A recovery answer that comes after its sweep was published is discarded (R116). -/
def Dev.slotTake (d : Dev) (x : Bool) (arg node seq flags turn : Nat) (data : List Byte) : Dev :=
  let d := (d.seqAdopt arg seq).slotWdt node (flags.testBit 5)
  match d.ring.seq with
  | none => d
  | some s =>
    if arg.testBit 5 && !d.inRecovery then d
    else if seq != s && seq != seqBelow s then (d.slotGot arg node).swpNote 2 0x1054 [nw node, nw seq]
    else
      let y : SlotIn := { node := node, far := d.farEnd x, flags := flags, cur := decide (seq = s) }
      let nv := if arg.testBit 0 then d.nodeNV node else 0
      let (d, a) := if arg.testBit 0 then d.slotVolts y seq turn (signedParts 3 nv data) else (d, [])
      let (d, b) := d.slotSub y arg (data.drop (3 * nv))
      (d.segmentAdd arg node seq flags turn data).compareWords (a ++ b) s

/-- A slot arrives at a port: content ARG of its COLLECT, node, SEQ, FLAGS, TURN, data, whether its CRC-16 checks, and how
the frame goes on; at the frame's end the SEGMENT of the slots accepted from it leaves (R404). -/
def Dev.slotReceive (d : Dev) (x : Bool) (arg node seq flags turn : Nat) (data : List Byte) (crcOk : Bool) (fin : FrameEnd) : Dev :=
  if d.bit (Reg.SK_CTL (portNo x)) 0 = false then d
  else
    let d := (d.portFrame x).frameEnd x fin
    let d :=
      if crcOk = false then (d.flag (Reg.SK_STAT (portNo x)) 7).satInc (Reg.SK_SLOTERR (portNo x)) 15 0
      else if seq = 0xFFFF || 47 < node then d
      else d.slotTake x arg node seq flags turn data
    if fin = .more then d else d.segmentSend

/-- A slot of the partner's segment is taken under R83 and R114, is Split-sourced, and passes no comparator (R153,
R404). -/
def Dev.slotPartner (d : Dev) (arg node seq flags turn : Nat) (data : List Byte) (crcOk : Bool) : Dev :=
  if crcOk = false || seq = 0xFFFF || 47 < node then d
  else
    let d := d.slotWdt node (flags.testBit 5)
    match d.ring.seq with
    | none => d
    | some s =>
      if arg.testBit 5 && !d.inRecovery then d
      else if seq != s && seq != seqBelow s then (d.slotGot arg node).swpNote 2 0x1054 [nw node, nw seq]
      else
        let y : SlotIn := { node := node, far := true, flags := flags, cur := decide (seq = s) }
        let nv := if arg.testBit 0 then d.nodeNV node else 0
        let d := if arg.testBit 0 then (d.slotVolts y seq turn (signedParts 3 nv data)).1 else d
        (d.slotSub y arg (data.drop (3 * nv))).1

/-! ### Temperature frames (R118) -/

/-- The reads of the first group that fit into `room` ticks, packed in order; in SPLIT and HEAL the two ends' frames run in
parallel (R94). -/
def Dev.packReads (d : Dev) (len : Nat → Nat) (g : Nat) : List (Nat × Nat) → List Nat → Nat → List Nat
  | [], l, _ => l
  | (h, k) :: t, l, room =>
    if h = g && symT (d.collectSyms d.ringSplit ((l ++ [k]).map (fun j => (j, len j)))) ≤ room then Dev.packReads d len g t (l ++ [k]) room
    else l

/-- The next temperature group frame, when it fits into what remains of TBUDGET. -/
def Dev.temperatureRead (d : Dev) : Dev :=
  match d.swp.sub with
  | none => d
  | some s =>
    match s.reads with
    | [] => d
    | (g, _) :: _ =>
      if d.swp.cur.isSome || d.rd Reg.SWP_COUNT = 0 then d
      else
        let used := max d.swp.budgetUsed (d.now - d.swp.budgetAt)
        let len (k : Nat) : Nat := 16 + (if s.aux && g = 0 then 3 * d.nodeNA k else 0)
        let l := d.packReads len g s.reads [] (d.swp.budget - used)
        if l.isEmpty then d
        else
          let slots := l.map (fun k => (k, len k))
          let dur := symT (d.collectSyms d.ringSplit slots)
          let d := d.collect 63 (4 + 8 * g + (if s.aux && g = 0 then 2 else 0)) false slots
          let sub := { s with reads := s.reads.drop l.length, till := d.ring.busyTill + d.tRing }
          { d with swp := { d.swp with sub := some sub, budgetUsed := used + dur } }

/-! ### Open-wire passes (R124, R125) -/

/-- A write of SWP_OWCTL: GO starts a pass unless one runs; DONE and ABORT clear, OPEN stands until this pass is judged. -/
def Dev.owGo (d : Dev) (v : Word) : Dev :=
  if bitOf v 31 = false || d.bit Reg.SWP_OWSTAT 31 then d
  else
    let p : WirePass := { node := fieldOf v 5 0, arg := fieldOf v 8 8, phase := 0, base := [], cap := [] }
    let d := ({ d with swp := { d.swp with ow := some p } }).setFld Reg.SWP_OWSTAT 31 23 (256 + p.node)
    if d.swp.cur.isNone then d.owBegin else d

/-- Firmware starts the open-wire pass of an idle window: nodes in turn, each with the even and then the odd wires; a PERIOD
of zero means none, and a claim of SWP stops it (R125, R127). -/
def Dev.owNextPass (d : Dev) : Dev :=
  let n := 2 * d.ring.count.getD 0
  if d.leads && d.pwr.full && d.manages 8 && n != 0 && d.fld Reg.SWP_OWCFG 31 16 != 0 && !d.bit Reg.SWP_OWSTAT 31 then
    let i := d.swp.owNext % n
    let d := { d with swp := { d.swp with owNext := (i + 1) % n } }
    d.owGo (nw (2 ^ 31 + i % 2 * 256 + i / 2))
  else d

/-- What firmware runs in an idle window that opens: the measurement of a node, and an open-wire pass, or where it runs none a
learning pass (R89, R125, R139). -/
def Dev.idleBegin (d : Dev) : Dev :=
  let d := d.tofBegin.owNextPass
  if d.bit Reg.SWP_OWSTAT 31 then d else d.lrnIdle 63

/-- Wire `w` of a pass reads open (R124). -/
def owOpen (p : WirePass) (th : Int) (w : Nat) : Bool :=
  let nv := p.base.length
  let above := decide (w < nv) && decide (th ≤ nthI p.cap w - nthI p.base w)
  let below := decide (0 < w) && decide (nthI p.cap (w - 1) - nthI p.base (w - 1) ≤ -th)
  (above && below) || (w = 0 && above) || (w = nv && below)

/-- One wire's suspect bit follows its judgement. -/
def Dev.owSuspect (d : Dev) (k w : Nat) (op : Bool) : Dev :=
  if d.bit (Reg.SWP_OWSUS k) w = op then d
  else
    let d := d.setBit (Reg.SWP_OWSUS k) w op
    if op then d.swpNote 8 0x1052 [nw k, nw w] else d.hw 0x1053 [nw k, nw w]

/-- After the deadline of its test sweep a pass judges each selected wire, updates the suspects and is done; without
captured values it aborts. -/
def Dev.owEvaluate (d : Dev) : Dev :=
  match d.swp.ow with
  | some p =>
    if p.phase != 3 then d
    else if p.cap.isEmpty then d.owAbort
    else
      let th := d.fld Reg.SWP_OWCFG 15 0
      let wires := (List.range (p.base.length + 1)).filter (fun w => w % 2 = p.arg)
      let opens := if th = 0 then [] else wires.filter (fun w => owOpen p (1000 * th) w)
      let d := if th = 0 then d else wires.foldl (fun (d : Dev) w => d.owSuspect p.node w (opens.contains w)) d
      let d := d.frameSend 0x05 p.node 0x0C [0, 0, 0, 0]
      let d := { d with swp := { d.swp with ow := none } }
      let d := (d.setBit Reg.SWP_OWSTAT 31 false).setBit Reg.SWP_OWSTAT 30 true
      (d.setFld Reg.SWP_OWSTAT 16 0 (opens.foldl (fun m w => m + 2 ^ w) 0)).lrnIdle p.node
  | none => d

/-- SWP_CTL: CLRCNT clears the counts (R129). -/
def Dev.swpCtl (d : Dev) (v : Word) : Dev :=
  let d := d.plainWrite Reg.SWP_CTL v
  if bitOf v 1 then d.wr Reg.SWP_SKIPCNT 0 else d

/-! ### Commands -/

/-- The collect is launched. -/
def execCollectLaunch (s : State) : Host.Outcome State Fault Refusal :=
  s.lift (fun d => d.collectLaunch)

/-- A slot arrives. -/
def execSlotReceive (x : Bool) (arg : Byte) (node : BitVec 6) (seq : BitVec 16) (flags turn : Byte) (data : List Byte)
    (crcOk : Bool) (fin : FrameEnd) (s : State) : Host.Outcome State Fault Refusal :=
  s.lift (fun d => d.slotReceive x arg.toNat node.toNat seq.toNat flags.toNat turn.toNat data crcOk fin)

/-- The sweep deadline; `transit` is the interval of the frame over the ring in ns, where it was measured. -/
def execSweepDeadline (transit : Option (BitVec 24)) (s : State) : Host.Outcome State Fault Refusal :=
  s.lift (fun d => d.sweepDeadline (transit.map (fun t => t.toNat)))

/-- The recovery reads of a BROKEN sweep are complete, or its deadline has come: the sweep is published. -/
def execPublication (s : State) : Host.Outcome State Fault Refusal :=
  s.lift (fun d =>
    match d.swp.cur with
    | some w => if w.recovering then d.publish w else d.sweepDeadline none
    | none => d)

/-- A temperature group frame. -/
def execTemperatureRead (s : State) : Host.Outcome State Fault Refusal :=
  s.lift (fun d => d.temperatureRead)

/-- A write of SWP_OWCTL. -/
def execOpenWireGo (src : Writer) (v : Word) (s : State) : Host.Outcome State Fault Refusal :=
  s.lift (fun d => d.gate src Reg.SWP_OWCTL (fun d => d.owGo v))

/-- The judgement of a pass. -/
def execOpenWireEvaluate (s : State) : Host.Outcome State Fault Refusal :=
  s.lift (fun d => d.owEvaluate)

/-- A write of SWP_CTL with CLRCNT. -/
def execSwpClearCounts (src : Writer) (v : Word) (s : State) : Host.Outcome State Fault Refusal :=
  s.lift (fun d => d.gate src Reg.SWP_CTL (fun d => d.swpCtl (withBit v 1 true)))

end Sys2Proof.Machine
end

