-- ==== Sys2Proof/Machine/Role.lean ====
section
/-! DEFINITION. Roles of a twin pair: eligibility, entering duty and shade, deposing, dropping (R392 to R395, R400,
R406, R433). -/

namespace Sys2Proof.Machine

/-- TW_STAT.ELIG: a nonzero epoch, and duty or a shade past JOINING (R392). -/
def Dev.eligRefresh (d : Dev) : Dev :=
  d.setBit Reg.TW_STAT 4 (d.rd Reg.TW_EPOCH != 0 && (d.role = 1 || (d.role = 2 && d.smode != 0)))

/-- The role and the shade mode become `r` and `m`. -/
def Dev.setRole (d : Dev) (r m : Nat) : Dev :=
  ((d.setFld Reg.TW_STAT 1 0 r).setFld Reg.TW_STAT 3 2 m).eligRefresh

/-- A module of a pair: position 2 (R382). -/
def Dev.posTwo (d : Dev) : Bool := d.bit Reg.TW_CFG 1

/-- Sequence `a` is newer than `b`, modulo 2^32 (R205). -/
def seqNewer (a b : Word) : Bool :=
  let x := (a - b).toNat
  1 ≤ x && x < 2147483648

/-- The address of epoch copy `k` in the MRAM spare region: sequence, epoch, CRC-32C (R394; the place and layout are
a DESIGN CHOICE: log entry 77). -/
def epochAt (k : Nat) : Nat := 0x20710040 + 64 * k

/-- Epoch copy `k` checks. -/
def Dev.epochOk (d : Dev) (k : Nat) : Bool := d.word (epochAt k + 8) = crc32c (d.bytes (epochAt k) 8)

/-- The newest of two copies that check, by their sequences; copy 0 when neither is newer (R205). -/
def newestOf (ok0 ok1 : Bool) (s0 s1 : Word) : Option Nat :=
  if ok0 then (if ok1 && seqNewer s1 s0 then some 1 else some 0) else if ok1 then some 1 else none

/-- The epoch copy that counts. -/
def Dev.epochPick (d : Dev) : Option Nat :=
  newestOf (d.epochOk 0) (d.epochOk 1) (d.word (epochAt 0)) (d.word (epochAt 1))

/-- The epoch is written to the copy that does not hold the newest sequence (R394). -/
def Dev.epochSave (d : Dev) : Dev :=
  let (k, s) : Nat × Word :=
    match d.epochPick with
    | some k => (1 - k, d.word (epochAt k) + 1)
    | none => (0, 1)
  let body := leBytes 4 s.toNat ++ leBytes 4 (d.rd Reg.TW_EPOCH).toNat
  d.mramWrite (epochAt k) (body ++ leBytes 4 (crc32c body).toNat)

/-- Entry into role duty: the epoch rises by 1 before ROLE is asserted, port A becomes the issuing end, and a shade's
outputs that a drop had switched off follow again (R394, R406). -/
def Dev.dutyEnter (d : Dev) : Dev :=
  let d := (d.wr Reg.TW_EPOCH (d.rd Reg.TW_EPOCH + 1)).epochSave
  let d := { d with pins := { d.pins with driveRole := true, rolePwm := true }, tw := { d.tw with shadeOut := false, failRx := false, dropped := false, ownHash := none, dutyHash := none } }
  let d := (d.setFld (Reg.SK_CTL 0) 3 2 0).setBit (Reg.SK_CTL 0) 1 true
  (d.setRole 1 0).stop Tm.drop

/-- The old duty of a handover becomes shade INSTEP (R409). -/
def Dev.shadeEnter (d : Dev) : Dev :=
  let d := { d with pins := { d.pins with driveRole := false, rolePwm := false } }
  let d := d.setFld (Reg.SK_CTL 0) 3 2 2
  d.setRole 2 1

/-- A deposed module's transmitters and outputs go off in hardware, entry 0x9020 is made, and only a warm reset leaves
the role; pending CAN requests are withdrawn without TXFAIL and the SMBus target is switched off (R395, R433, R442).  Causes: 1 KILL_IN, 2 partner epoch, 3 plant
epoch, 4 command. -/
def Dev.depose (d : Dev) (cause : Nat) : Dev :=
  if d.role = 1 || d.role = 2 then
    let d := [0, 1].foldl (fun (d : Dev) x =>
      let d := d.setBit (Reg.CAN_CTL x) 1 false
      let d := (List.range 4).foldl (fun (d : Dev) n => d.wr (Reg.CAN_TXPEND x n) 0) d
      d.setBit (Reg.SK_CTL x) 1 false) d
    let d := (d.setFld Reg.ETH_CTL 1 0 0).setBit Reg.SMB_CFG 0 false
    let d := { d with tw := { d.tw with txOff := true, takeover := false, imgWait := false, hashWait := none }, pins := { d.pins with driveRole := false, rolePwm := false } }
    let d := d.openReq.k1Off.k2Off
    let d := (((d.setRole 3 0).updateBlk).start Tm.deposed).stop Tm.drop
    d.hw 0x9020 [nw cause]
  else d

/-- A higher epoch has been seen (R394, R395). -/
def Dev.epochHigh (d : Dev) : Dev := d.flag Reg.TW_STAT 20

/-- A shade drops from INSTEP to MIRROR: the cycle is not committed, its field outputs and contactor channels go off,
and the twin-resync reset follows within 1 s (R400). -/
def Dev.shadeDrop (d : Dev) (cause : Nat) : Dev :=
  if d.inStep then
    let d := d.cycIdle
    let d := { d with tw := { d.tw with shadeOut := true, ownHash := none, dutyHash := none } }
    let d := d.openReq.k1Off.k2Off
    let d := ((d.setRole 2 2).flag Reg.TW_STAT 16).hw 0x9030 [nw cause]
    (d.start Tm.drop).stop Tm.noImg
  else d

/-- The ROLE line is low: this module drives it, or the partner does. -/
def Dev.roleLow (d : Dev) : Bool := d.pins.driveRole || d.pins.roleLow

end Sys2Proof.Machine
end

