-- ==== Sys2Proof/Machine/Fio.lean ====
section
/-! DEFINITION. Field inputs and outputs and the logic lines (R476 to R484). -/

namespace Sys2Proof.Machine

/-! ### Inputs (R476, R477) -/

/-- The filtered level of channel `n` becomes `b`: the latch takes the level and the edge, and motion and SCC
see it (R477, R290, R166). -/
def Dev.inputSet (d : Dev) (n : Nat) (b : Bool) : Dev :=
  if d.inputLevel n = b then d
  else
    let d := (d.setBit (Reg.FIO_LATCH 0) n b).flag (Reg.FIO_LATCH (if b then 1 else 2)) n
    if n < 16 then
      let d := if b then d else d.limitInput n
      let d := (List.range 4).foldl (fun (d : Dev) a => d.limitCheck a) d
      (if b then d.homeInput n else d).homeNext
    else
      (d.setBit Reg.SCC_STAT (n - 16) b).dropMeasure.mirrorNote.discWatch

/-- The filter of channel `n` is off: a THR or a TICK of zero. -/
def Dev.unfiltered (d : Dev) (n : Nat) : Bool :=
  d.fld (Reg.FIO_INCFG n) 7 0 = 0 || d.fld (Reg.FIO_INCFG n) 25 16 = 0

/-- One tick of the filter of channel `n`: the counter moves toward the coupled level and decides at its ends. -/
def Dev.filterStep (d : Dev) (n : Nat) : Dev :=
  let thr := d.fld (Reg.FIO_INCFG n) 7 0
  let c := getN d.fio.count n
  let c := if getB d.fio.coupled n then min thr (c + 1) else min thr (c - 1)
  let d := { d with fio := { d.fio with count := putN d.fio.count n c } }
  if c = thr then d.inputSet n true else if c = 0 then d.inputSet n false else d

/-- Channel `n` is coupled at `level` at a tick of its filter. -/
def Dev.filterTick (d : Dev) (n : Nat) (level : Bool) : Dev :=
  if 20 ≤ n then d
  else
    let d := { d with fio := { d.fio with coupled := putB d.fio.coupled n level } }
    if d.unfiltered n then d.inputSet n level
    else if d.running (Tm.filt n) && !d.due (Tm.filt n) (usT (d.fld (Reg.FIO_INCFG n) 25 16)) then d
    else (d.start (Tm.filt n)).filterStep n

/-- FIO_INCFG: a TICK above 1,000 is stored as 1,000; without a filter the level follows at once. -/
def Dev.inCfg (d : Dev) (n : Nat) (v : Word) : Dev :=
  let d := d.plainWrite (Reg.FIO_INCFG n) (withField v 25 16 (min 1000 (fieldOf v 25 16)))
  if d.unfiltered n then d.inputSet n (getB d.fio.coupled n) else d

/-! ### Outputs (R478 to R481) -/

/-- The output whose demand, fallback and test settings output `k` takes (R478). -/
def Dev.outLead (d : Dev) (k : Nat) : Nat := if d.bit Reg.FIO_PAR (k / 2) then k / 2 * 2 else k

/-- Every output is off: deposed, no output power, a shade outside INSTEP or dropped from it, or OUTEN 0. -/
def Dev.outsOff (d : Dev) : Bool :=
  d.role = 3 || !d.pins.outPower || (d.role = 2 && d.smode != 1) || d.tw.shadeOut || !d.bit Reg.FIO_CTL 0

/-- The program's outputs stand: it runs and has committed since its START, or the warm hold lasts. -/
def Dev.outsHeld (d : Dev) : Bool :=
  ((d.cycState = 2 || d.cycState = 4) && d.fio.committed) || d.fio.warmHold

/-- What output `k` drives (R481). -/
def Dev.outOn (d : Dev) (k : Nat) : Bool :=
  if d.outsOff || d.bit Reg.FIO_OFLT k || d.bit Reg.FIO_OFLT (8 + k) then false
  else if d.outsHeld then d.bit Reg.FIO_OUT (d.outLead k)
  else d.bit Reg.FIO_FALLBACK (d.outLead k)

/-- The switch-node readback of the 8 outputs: their own drive (R480). -/
def Dev.outRdbk (d : Dev) : Nat :=
  (List.range 8).foldl (fun a k => a + b2n (d.outOn k) * 2 ^ k) 0

/-- Word 3 of the input latch (Table 19.1). -/
def Dev.latch3 (d : Dev) : Word :=
  let flt := d.fld Reg.FIO_OFLT 7 0 ||| d.fld Reg.FIO_OFLT 15 8
  nw (d.outRdbk + 256 * flt + 65536 * b2n (!d.tripLow) + 131072 * b2n d.pins.killIn
    + 262144 * b2n d.pins.wakeChg + 524288 * b2n d.roleLow)

/-- Output `k` has stayed in limit for FIO_OLIM: it is switched off and faulted (R479). -/
def Dev.outOverload (d : Dev) (k : Nat) : Dev :=
  if d.outOn k then ((d.flag Reg.FIO_OFLT k).flag Reg.FIO_STAT 0).hw 0xC110 [nw k] else d

/-- The readback of output `k` did not fall during its pulse (R480). -/
def Dev.outStuck (d : Dev) (k : Nat) (fell : Bool) : Dev :=
  if d.outOn k && !fell then ((d.flag Reg.FIO_OFLT (8 + k)).flag Reg.FIO_STAT 1).hw 0xC111 [nw k] else d

/-- A test pulse of output `k`, or of the joined pair that it leads (R480). -/
def Dev.outPulse (d : Dev) (k : Nat) (fell : BitVec 2) : Dev :=
  let int := d.fld Reg.FIO_TP 15 0
  if int = 0 || d.fld Reg.FIO_TP 24 16 = 0 || d.outLead k != k || !d.outOn k then d
  else if d.running (Tm.pulse k) && !d.due (Tm.pulse k) (msT int) then d
  else
    let d := (d.start (Tm.pulse k)).outStuck k (fell.getLsbD 0)
    if d.bit Reg.FIO_PAR (k / 2) then d.outStuck (k + 1) (fell.getLsbD 1) else d

/-- FIO_TP: a TPW above 300 is stored as 300. -/
def Dev.tpWrite (d : Dev) (v : Word) : Dev :=
  d.plainWrite Reg.FIO_TP (withField v 24 16 (min 300 (fieldOf v 24 16)))

/-- The warm hold ends after TO seconds (R481). -/
def Dev.holdWarmEnd (d : Dev) : Dev :=
  if d.fio.warmHold && d.due Tm.holdWarm (secT (d.fld Reg.FIO_HOLDWARM 31 16)) then
    ({ d with fio := { d.fio with warmHold := false } }).stop Tm.holdWarm
  else d

/-- KILL_IN becomes inactive: the power of the outputs returns (R483). -/
def Dev.killRelease (d : Dev) : Dev :=
  (({ d with pins := { d.pins with killIn := false } }).setBit Reg.TW_STAT 8 false).powerRefresh

/-! ### Commands -/

/-- A filter tick of channel `n`, coupled at `level`. -/
def execInputFilterTick (n : BitVec 5) (level : Bool) (s : State) : Host.Outcome State Fault Refusal :=
  s.lift (fun d => d.filterTick n.toNat level)

/-- Output `k` has been in limit for FIO_OLIM milliseconds. -/
def execOutputOverload (k : BitVec 3) (s : State) : Host.Outcome State Fault Refusal :=
  s.lift (fun d => d.outOverload k.toNat)

/-- A test pulse of output `k`; `fell` says whose readback fell. -/
def execOutputTestPulse (k : BitVec 3) (fell : BitVec 2) (s : State) : Host.Outcome State Fault Refusal :=
  s.lift (fun d => d.outPulse k.toNat fell)

/-- FIO_HOLDWARM.TO has run. -/
def execHoldWarmTimeout (s : State) : Host.Outcome State Fault Refusal :=
  s.lift (fun d => d.holdWarmEnd)

/-- KILL_IN becomes inactive. -/
def execKillInRelease (s : State) : Host.Outcome State Fault Refusal :=
  s.lift (fun d => d.killRelease)

end Sys2Proof.Machine
end

