-- ==== Sys2Proof/Machine/Float.lean ====
section
/-! DEFINITION. IEEE 754 arithmetic on binary32 and binary64 as R313 states it: exact arithmetic on whole
numbers, one rounding, canonical NaNs, tininess after rounding, sticky flags. -/

namespace Sys2Proof.Machine

/-- A binary format: precision and exponent field width. -/
structure FFmt where
  p : Nat
  ew : Nat
deriving DecidableEq, Repr

/-- binary32. -/
def f32 : FFmt := { p := 24, ew := 8 }

/-- binary64. -/
def f64 : FFmt := { p := 53, ew := 11 }

/-- The greatest exponent, which is also the bias. -/
def FFmt.emax (f : FFmt) : Nat := 2 ^ (f.ew - 1) - 1

/-- The exponent of the smallest subnormal's unit. -/
def FFmt.emin (f : FFmt) : Int := 2 - (f.emax + f.p : Nat)

/-- The width of an encoding. -/
def FFmt.width (f : FFmt) : Nat := f.p + f.ew

/-- A decoded operand: a finite one is (-1)^s * m * 2^e. -/
inductive FVal where
  | nan (signalling : Bool)
  | inf (s : Bool)
  | fin (s : Bool) (m : Nat) (e : Int)
deriving DecidableEq, Repr

/-- Flag bits of s.fcsr: NV 16, FDZ 8, OF 4, UF 2, NX 1. -/
abbrev FFlags := Nat

/-- The value an encoding stands for. -/
def FFmt.decode (f : FFmt) (x : Nat) : FVal :=
  let fw := f.p - 1
  let frac := x % 2 ^ fw
  let ex := x / 2 ^ fw % 2 ^ f.ew
  let s := x / 2 ^ (f.width - 1) % 2 = 1
  if ex = 2 ^ f.ew - 1 then
    if frac = 0 then .inf s else .nan (frac < 2 ^ (fw - 1))
  else if ex = 0 then .fin s frac f.emin
  else .fin s (frac + 2 ^ fw) (f.emin + ((ex : Int) - 1))

/-- The canonical NaN. -/
def FFmt.qnan (f : FFmt) : Nat := (2 ^ f.ew - 1) * 2 ^ (f.p - 1) + 2 ^ (f.p - 2)

/-- The sign bit at its place. -/
def FFmt.sign (f : FFmt) (s : Bool) : Nat := if s then 2 ^ (f.width - 1) else 0

/-- Infinity. -/
def FFmt.inf (f : FFmt) (s : Bool) : Nat := f.sign s + (2 ^ f.ew - 1) * 2 ^ (f.p - 1)

/-- The largest finite value. -/
def FFmt.maxFin (f : FFmt) (s : Bool) : Nat := f.inf s - 1

/-- `m * 2^e` rounded to a multiple of `2^q` under mode `rm` (0 nearest-even, 1 toward zero, 2 downward,
3 upward): the multiple, and whether it is inexact. -/
def roundTo (rm : Nat) (s : Bool) (m : Nat) (e q : Int) : Nat × Bool :=
  if q ≤ e then (m * 2 ^ (e - q).toNat, false)
  else
    let k := (q - e).toNat
    let r := m / 2 ^ k
    let rem := m % 2 ^ k
    let half := 2 ^ (k - 1)
    let up :=
      if rem = 0 then false
      else if rm = 0 then half < rem || (rem = half && r % 2 = 1)
      else if rm = 1 then false
      else if rm = 2 then s
      else !s
    (if up then r + 1 else r, rem != 0)

/-- The encoding of `(-1)^s * m * 2^e` rounded once, with its flags. -/
def FFmt.pack (f : FFmt) (rm : Nat) (s : Bool) (m : Nat) (e : Int) : Nat × FFlags :=
  if m = 0 then (f.sign s, 0)
  else
    let top : Int := (Nat.log2 m : Int) + e
    let qn : Int := top - (f.p - 1 : Nat)
    let q : Int := if qn < f.emin then f.emin else qn
    let (r, inex) := roundTo rm s m e q
    let (ru, _) := roundTo rm s m e qn
    let tiny : Bool := qn < f.emin && !(qn + 1 = f.emin && ru = 2 ^ f.p)
    let (r, q) := if r = 2 ^ f.p then (2 ^ (f.p - 1), q + 1) else (r, q)
    if 2 ^ (f.p - 1) ≤ r && (f.emax : Int) < q + (f.p - 1 : Nat) then
      let toInf := rm = 0 || (rm = 2 && s) || (rm = 3 && !s)
      (if toInf then f.inf s else f.maxFin s, 5)
    else
      let nx := if inex then 1 else 0
      let uf := if tiny && inex then 2 else 0
      if r < 2 ^ (f.p - 1) then (f.sign s + r, nx + uf)
      else (f.sign s + ((q - f.emin).toNat + 1) * 2 ^ (f.p - 1) + (r - 2 ^ (f.p - 1)), nx + uf)

/-- Whether an operand is a NaN, and NV for a signalling one. -/
def FVal.isNan : FVal → Bool
  | .nan _ => true
  | _ => false

/-- The operand is a signalling NaN. -/
def FVal.isSnan : FVal → Bool
  | .nan s => s
  | _ => false

/-- NV when one of the operands signals. -/
def nvOf (l : List FVal) : FFlags := if l.any FVal.isSnan then 16 else 0

/-- A signed whole number at exponent `e`. -/
def signedOf (s : Bool) (m : Nat) : Int := if s then -(m : Int) else m

/-- The exact sum of two finite operands, as sign, magnitude and exponent. -/
def addFin (rm : Nat) (s1 : Bool) (m1 : Nat) (e1 : Int) (s2 : Bool) (m2 : Nat) (e2 : Int) : Bool × Nat × Int :=
  let e := min e1 e2
  let v := signedOf s1 (m1 * 2 ^ (e1 - e).toNat) + signedOf s2 (m2 * 2 ^ (e2 - e).toNat)
  if v = 0 then (if s1 = s2 then s1 else rm = 2, 0, e) else (v < 0, v.natAbs, e)

/-- Addition. -/
def FFmt.add (f : FFmt) (rm x y : Nat) : Nat × FFlags :=
  match f.decode x, f.decode y with
  | .nan a, b => (f.qnan, nvOf [.nan a, b])
  | a, .nan b => (f.qnan, nvOf [a, .nan b])
  | .inf a, .inf b => if a = b then (f.inf a, 0) else (f.qnan, 16)
  | .inf a, _ => (f.inf a, 0)
  | _, .inf b => (f.inf b, 0)
  | .fin s1 m1 e1, .fin s2 m2 e2 =>
    let (s, m, e) := addFin rm s1 m1 e1 s2 m2 e2
    f.pack rm s m e

/-- The sign bit inverted. -/
def FFmt.neg (f : FFmt) (x : Nat) : Nat := x ^^^ 2 ^ (f.width - 1)

/-- The sign bit cleared. -/
def FFmt.abs (f : FFmt) (x : Nat) : Nat := x % 2 ^ (f.width - 1)

/-- Subtraction. -/
def FFmt.sub (f : FFmt) (rm x y : Nat) : Nat × FFlags :=
  match f.decode y with
  | .nan b => (f.qnan, nvOf [f.decode x, .nan b])
  | _ => f.add rm x (f.neg y)

/-- Multiplication. -/
def FFmt.mul (f : FFmt) (rm x y : Nat) : Nat × FFlags :=
  match f.decode x, f.decode y with
  | .nan a, b => (f.qnan, nvOf [.nan a, b])
  | a, .nan b => (f.qnan, nvOf [a, .nan b])
  | .inf a, .inf b => (f.inf (a != b), 0)
  | .inf a, .fin s m _ => if m = 0 then (f.qnan, 16) else (f.inf (a != s), 0)
  | .fin s m _, .inf b => if m = 0 then (f.qnan, 16) else (f.inf (s != b), 0)
  | .fin s1 m1 e1, .fin s2 m2 e2 => f.pack rm (s1 != s2) (m1 * m2) (e1 + e2)

/-- Division. -/
def FFmt.div (f : FFmt) (rm x y : Nat) : Nat × FFlags :=
  match f.decode x, f.decode y with
  | .nan a, b => (f.qnan, nvOf [.nan a, b])
  | a, .nan b => (f.qnan, nvOf [a, .nan b])
  | .inf _, .inf _ => (f.qnan, 16)
  | .inf a, .fin s _ _ => (f.inf (a != s), 0)
  | .fin s _ _, .inf b => (f.sign (s != b), 0)
  | .fin s1 m1 e1, .fin s2 m2 e2 =>
    if m2 = 0 then (if m1 = 0 then (f.qnan, 16) else (f.inf (s1 != s2), 8))
    else
      let k := f.p + 3 + Nat.log2 m2
      let q := m1 * 2 ^ k / m2
      let st := if m1 * 2 ^ k % m2 = 0 then 0 else 1
      f.pack rm (s1 != s2) (2 * q + st) (e1 - e2 - (k : Int) - 1)

/-- Square root. -/
def FFmt.sqrt (f : FFmt) (rm x : Nat) : Nat × FFlags :=
  match f.decode x with
  | .nan a => (f.qnan, nvOf [.nan a])
  | .inf s => if s then (f.qnan, 16) else (f.inf false, 0)
  | .fin s m e =>
    if m = 0 then (f.sign s, 0)
    else if s then (f.qnan, 16)
    else
      let k0 := 2 * f.p + 6
      let k := if (e - (k0 : Int)) % 2 = 0 then k0 else k0 + 1
      let n := m * 2 ^ k
      let r := isqrt n
      let st := if r * r = n then 0 else 1
      f.pack rm false (2 * r + st) ((e - (k : Int)) / 2 - 1)

/-- `z + x * y` with one rounding. -/
def FFmt.fma (f : FFmt) (rm z x y : Nat) : Nat × FFlags :=
  let vz := f.decode z
  let vx := f.decode x
  let vy := f.decode y
  let bad : Bool :=
    match vx, vy with
    | .inf _, .fin _ m _ => m == 0
    | .fin _ m _, .inf _ => m == 0
    | _, _ => false
  if bad then (f.qnan, 16)
  else if vz.isNan || vx.isNan || vy.isNan then (f.qnan, nvOf [vz, vx, vy])
  else
    match vx, vy with
    | .fin s1 m1 e1, .fin s2 m2 e2 =>
      match vz with
      | .fin s3 m3 e3 =>
        let (s, m, e) := addFin rm (s1 != s2) (m1 * m2) (e1 + e2) s3 m3 e3
        f.pack rm s m e
      | .inf a => (f.inf a, 0)
      | .nan _ => (f.qnan, 0)
    | a, b =>
      let sg : FVal → Bool := fun v => match v with | .inf s => s | .fin s _ _ => s | .nan _ => false
      let ps := sg a != sg b
      match vz with
      | .inf c => if c = ps then (f.inf ps, 0) else (f.qnan, 16)
      | _ => (f.inf ps, 0)

/-- A key that orders non-NaN encodings, -0 below +0. -/
def FFmt.key (f : FFmt) (x : Nat) : Int :=
  let m := x % 2 ^ (f.width - 1)
  if x / 2 ^ (f.width - 1) % 2 = 1 then -(m : Int) - 1 else m

/-- The minimum or, for `mx`, the maximum (R313). -/
def FFmt.minmax (f : FFmt) (mx : Bool) (x y : Nat) : Nat × FFlags :=
  let vx := f.decode x
  let vy := f.decode y
  let fl := nvOf [vx, vy]
  if vx.isNan then (if vy.isNan then f.qnan else y, fl)
  else if vy.isNan then (x, fl)
  else
    let lt := f.key x < f.key y
    (if mx then (if lt then y else x) else (if lt then x else y), 0)

/-- The numerical order of two finite or infinite operands: -1, 0 or 1. -/
def FFmt.cmp (f : FFmt) (x y : Nat) : Int :=
  let z := 2 ^ (f.width - 1)
  if x % z = 0 && y % z = 0 then 0
  else if f.key x < f.key y then -1 else if f.key x = f.key y then 0 else 1

/-- The quiet equality comparison. -/
def FFmt.eq (f : FFmt) (x y : Nat) : Nat × FFlags :=
  let vx := f.decode x
  let vy := f.decode y
  if vx.isNan || vy.isNan then (0, nvOf [vx, vy]) else (b2n (f.cmp x y = 0), 0)

/-- Less than, or less than or equal for `orEq`; NV for any NaN. -/
def FFmt.lt (f : FFmt) (orEq : Bool) (x y : Nat) : Nat × FFlags :=
  if (f.decode x).isNan || (f.decode y).isNan then (0, 16)
  else (b2n (f.cmp x y < 0 || (orEq && f.cmp x y = 0)), 0)

/-- Conversion to a signed 32-bit integer, toward zero; NX for a discarded fraction (DEDUCED: log entry 20). -/
def FFmt.toInt (f : FFmt) (x : Nat) : Word × FFlags :=
  match f.decode x with
  | .nan _ => (0, 16)
  | .inf s => (if s then 0x80000000 else 0x7FFFFFFF, 16)
  | .fin s m e =>
    let q := if 0 ≤ e then m * 2 ^ e.toNat else m / 2 ^ (-e).toNat
    let inex := e < 0 && m % 2 ^ (-e).toNat != 0
    let v := signedOf s q
    if v < -2147483648 then (0x80000000, 16)
    else if 2147483647 < v then (0x7FFFFFFF, 16)
    else (iw v, if inex then 1 else 0)

/-- Conversion from an integer. -/
def FFmt.ofInt (f : FFmt) (rm : Nat) (i : Int) : Nat × FFlags := f.pack rm (i < 0) i.natAbs 0

/-- Conversion between formats. -/
def FFmt.convert (g f : FFmt) (rm x : Nat) : Nat × FFlags :=
  match f.decode x with
  | .nan s => (g.qnan, nvOf [.nan s])
  | .inf s => (g.inf s, 0)
  | .fin s m e => g.pack rm s m e

end Sys2Proof.Machine
end

