-- ==== Sys2Proof/Machine/Reset.lean ====
section
/-! DEFINITION. Resets: what each kind keeps, what holds a reset back, and the module after it (R11, R528, R530, R532,
R537, R547, R548). -/

namespace Sys2Proof.Machine

/-! ### What survives (R11, R532) -/

/-- A reset cause of Table 22.2 that makes a warm reset. -/
def warmCause (c : Nat) : Bool := 8 ≤ c && c < 16

/-- The registers of the always-on domain (Table 22.3, R547). -/
def alwaysOn (a : Nat) : Bool :=
  a = Reg.PWR_WAKE || a = Reg.SMB_CFG || a = Reg.SMB_ADDR || a = Reg.SMB_AMASK || a = Reg.SMB_FILT || a = Reg.MPU_FUSE
    || a = Reg.NVC_ERABT

/-- The bits of register `a` that a reset of cause `c` keeps: the always-on domain through a warm reset and a wake
from Standby, class K through a warm reset, class N always. -/
def keptBits (c a : Nat) : Word :=
  if alwaysOn a then (if warmCause c || c = 5 then 0xFFFFFFFF else 0)
  else
    match findRow a with
    | some r => nw (if warmCause c then r.keepWarm else r.keepCold)
    | none => 0

/-- The registers after a reset. -/
def Dev.regsAfter (d : Dev) (c : Nat) : List (Nat × Word) :=
  Store.mapKeep regReset (fun a v => (v &&& keptBits c a) ||| (regReset a &&& ~~~ keptBits c a)) d.regs

/-- Memory after a reset: MRAM and NOR stand, SRAM stands through a warm reset (log entry 125). -/
def Dev.memAfter (d : Dev) (c : Nat) : List Host.Cell :=
  if warmCause c then d.mem else d.mem.filter (fun e => !isSram e.1)

/-- What the recorder keeps: the Larder and the unreported count through a warm reset, and its place in the Cellar,
which is in NOR (R493, R497). -/
def RecSt.after (r : RecSt) (warm : Bool) : RecSt :=
  let n := { RecSt.reset with cellarSector := r.cellarSector, cellarBlock := r.cellarBlock }
  if warm then { n with unreported := r.unreported, recs := r.recs, latest := r.latest } else n

/-! ### NVC at a reset (R547, R548) -/

/-- A reset abandons an erase; a cold reset leaves the unit in progress indeterminate. -/
def Dev.nvcReset (d : Dev) (cold : Bool) : Dev :=
  match d.nvc.cur with
  | none => d
  | some r =>
    if r.kind = 3 then d.eraseAbandon r.dst
    else if cold then
      match r.units[r.pos]? with
      | some u =>
        let (k, d) := d.nextFree
        d.setBytes u.1 ((List.range u.2).map (fun i => Config.freeByte k (u.1 + i)))
      | none => d
    else d

/-! ### The reset (R528) -/

/-- Motion after a warm reset: an axis that was BUSY is UNHOMED, the travel budgets count on, the engine sets its objects up
again, and outputs run at FAILDUTY (R284, R292, R295, R435). -/
def Dev.axesAfter (d old : Dev) (warm : Bool) : Dev :=
  if warm then
    let d := (List.range 4).foldl (fun (d : Dev) a =>
      let d := d.setAxis a { AxisSt.idle with used := (old.axis a).used }
      if old.axMoving a then (d.axSet a 1).axBusy a false else d) d
    (if d.motRes then d.motObjects else d).fansWatch
  else d

/-- A module of a pair leaves reset as shade in JOINING, with ROLE released and ROLE_PWM low (R392). -/
def Dev.roleAfter (d : Dev) : Dev :=
  if d.bit Reg.TW_CFG 0 then
    ({ d with pins := { d.pins with rolePwm := false } }).setFld Reg.TW_STAT 1 0 2
  else d

/-- The status that shows a level which no reset changes: the feeds and the bank, VBUS, KILL_IN and the twin link
(log entry 126). -/
def Dev.levelsAfter (d old : Dev) : Dev :=
  let d := d.setFld Reg.PWR_STAT 5 3 (old.fld Reg.PWR_STAT 5 3)
  let d := (d.wr Reg.PWR_FEED (old.rd Reg.PWR_FEED)).wr Reg.PWR_BANK (old.rd Reg.PWR_BANK)
  let d := d.setBit Reg.SVC_STAT 0 (old.bit Reg.SVC_STAT 0)
  d.setBit Reg.TW_STAT 8 (old.pins.killIn && d.bit Reg.TW_CFG 0)

/-- The field outputs hold their values after a warm reset under FIO_HOLDWARM (R481). -/
def Dev.holdAfter (d : Dev) (warm : Bool) : Dev :=
  if warm && d.bit Reg.FIO_HOLDWARM 0 && d.fld Reg.FIO_HOLDWARM 31 16 != 0 then
    ({ d with fio := { d.fio with warmHold := true } }).start Tm.holdWarm
  else d

/-- After a cold reset with VBUS, before firmware starts, the boot ROM takes RESET kind 2 at any level (R515). -/
def Dev.romWindow (d : Dev) : Bool :=
  d.pwrState = 1 && !d.pwr.full && d.bit Reg.SVC_STAT 0 && d.fld Reg.PWR_RSTCAUSE 7 0 < 8

/-- What a reset of cause `c` keeps, every other part of the module at its reset value (Tables 22.2 and 22.3). -/
def Dev.resetBase (old : Dev) (c : Nat) : Dev :=
  let warm := warmCause c
  { Dev.reset with
    mem := old.memAfter c
    ecc := if warm then old.ecc else []
    corr := if warm then old.corr else []
    regs := old.regsAfter c
    now := old.now
    timers := putN (putN (old.timers.filter (fun e => e.1 = 60 || e.1 = 61)) Tm.mailbox (old.now + 1)) Tm.pub (old.now + 1)
    par := old.par
    tables := old.tables
    managed := old.managed
    freeCount := old.freeCount
    sent := old.sent
    recd := old.recd.after warm
    tim := if warm then { old.tim with adjSec := 0 } else TimSt.reset
    pins := { PinSt.reset with tripHigh := old.pins.tripHigh, killIn := old.pins.killIn, roleLow := old.pins.roleLow, wakeChg := old.pins.wakeChg, outPower := !(old.pins.killIn && old.bit Reg.TW_CFG 0), zcIn := old.pins.zcIn }
    fio := { FioSt.reset with coupled := old.fio.coupled }
    cyc := { CycSt.reset with retainedId := if warm then old.cyc.retainedId else none }
    pwr := { PwrSt.reset with optSub := old.pwr.optSub, savedCyc := old.pwr.savedCyc, savedOpt := old.pwr.savedOpt, rstHeld := old.pwr.rstHeld, fuse := old.pwr.fuse, boot := old.pwr.boot.filter (fun e => e.1 = 0xB031) }
    hlt := if warm then old.hlt else { HltSt.reset with dayAt := old.hlt.dayAt }
    svc := { SvcSt.reset with keys := old.svc.keys, staged := old.svc.staged, held := old.svc.held }
    dsp := { DspSt.reset with steps := old.dsp.steps, gcv := old.dsp.gcv }
    acc := if warm then old.acc else AccSt.reset
    ring := { RingSt.reset with slept := old.ring.slept }
    est := { EstSt.reset with limBase := old.est.limBase } }

/-- The module after a reset of cause `c` (Tables 22.2 and 22.3): a cold reset counts a power cycle, a start after
the thermal cut shows CUTSEEN, a wake leaves the SMBus target's EN for firmware to set (R448), the entry of an image activated in recovery waits for
the recorder (R516), and recovery entry enters Recovery; the boot ROM runs next. -/
def Dev.resetTo (d : Dev) (c : Nat) : Dev :=
  let warm := warmCause c
  let cold := c < 8
  let old := d.nvcReset cold
  let n := old.resetBase c
  let n := ((n.levelsAfter old).roleAfter).axesAfter old warm
  let n := n.holdAfter warm
  let n := n.setBit Reg.MPU_FUSE 0 n.pwr.fuse
  let n := n.wr Reg.PWR_RSTCAUSE (nw c)
  let n := if cold then n.wr Reg.PWR_CYCCNT (n.rd Reg.PWR_CYCCNT + 1) else n
  let n := if c = 4 then n.flag Reg.HLT_STAT 4 else n
  let n := if c = 5 then n.setBit Reg.SMB_CFG 0 false else n
  if c = 16 then
    let n := (n.setFld Reg.PWR_STAT 15 13 7).flag Reg.SVC_STAT 3
    let n := n.setFld Reg.SVC_RECAUSE 3 0 (if old.romWindow then 4 else 3)
    { n with tw := { n.tw with txOff := true }, pins := { n.pins with rolePwm := false } }
  else n

/-! ### Resets that wait (R530, R537) -/

/-- An atomic unit is in progress. -/
def Dev.unitRuns (d : Dev) : Bool :=
  (match d.nvc.cur with | some r => decide (r.kind ≠ 3) | none => false) || !d.nvc.urgent.isEmpty

/-- The Storeroom write or the flush of Hold-up entry is not complete (R522, R537). -/
def Dev.holdWorks (d : Dev) : Bool :=
  d.pwrState = 4 && (d.est.reasons.contains 5 || d.stoBusy || d.bit Reg.REC_STAT 1)

/-- After a warm reset in Hold-up the module re-enters Hold-up at once, in flush mode (R537). -/
def Dev.holdAgain (d : Dev) : Dev :=
  let d := { d with pwr := { d.pwr with holdFrom := d.pwrState } }
  let d := ((d.setFld Reg.PWR_STAT 15 13 4).flag Reg.PWR_STAT 1).setBit Reg.PWR_STAT 6 true
  (d.hw 0xC010 []).hw 0xC011 []

/-- A reset that waits is carried out when nothing holds it. -/
def Dev.settle (d : Dev) : Dev :=
  match d.pwr.resetWait with
  | none => d
  | some c =>
    if d.unitRuns || d.holdWorks then d
    else if d.pwrState = 4 then (d.resetTo c).holdAgain
    else d.resetTo c

/-- A warm reset or a recovery entry is requested; of several causes the lowest is taken (R528). -/
def Dev.resetAsk (d : Dev) (c : Nat) : Dev :=
  let c := match d.pwr.resetWait with | some e => min e c | none => c
  ({ d with pwr := { d.pwr with resetWait := some c } }).settle

end Sys2Proof.Machine
end

