-- ==== Sys2Proof/Machine/Operands.lean ====
section
/-! DEFINITION. The operand forms of Pleol and CVX: register pairs (R306), immediates and offsets (R309),
lanes, masks and second sources (R340 to R343). -/

namespace Sys2Proof.Machine

/-- A register number that may name a 64-bit pair: even, and at least 2 (R306). -/
def pairOk (r : GReg) : Bool := r.toNat % 2 = 0 && r.toNat != 0

/-- The other register of a pair. -/
def pairHi (r : GReg) : GReg := r + 1

/-- The 64-bit value of the pair at `r`: wn holds bits [31:0], wn+1 bits [63:32]. -/
def CoreSt.regD (c : CoreSt) (r : GReg) : Nat := (c.reg r).toNat + 2 ^ 32 * (c.reg (pairHi r)).toNat

/-- A 64-bit value into the pair at `r`. -/
def CoreSt.setRegD (c : CoreSt) (r : GReg) (v : Nat) : CoreSt :=
  (c.setReg r (nw v)).setReg (pairHi r) (nw (v / 2 ^ 32))

/-- A 16-bit immediate, sign-extended. -/
def sext16 (i : BitVec 16) : Word := i.signExtend 32

/-- A 16-bit immediate, zero-extended. -/
def zext16 (i : BitVec 16) : Word := i.setWidth 32

/-- The address A of a load or store: a + sext(imm16). -/
def CoreSt.addr (c : CoreSt) (a : GReg) (i : BitVec 16) : Nat := (c.reg a + sext16 i).toNat

/-- The lane `i` of vector register `r`. -/
def CoreSt.lane (c : CoreSt) (r : VReg) (i : Nat) : Word := (c.v[r.toNat].toList[i]?).getD 0

/-- Lane `i` of mask register `m`. -/
def CoreSt.mlane (c : CoreSt) (m : MReg) (i : Nat) : Bool := (c.m[m.toNat]).getLsbD i

/-- Lane `i` is active: below VL, and set in the mask when the instruction has one (R341). -/
def CoreSt.active (c : CoreSt) (k : VMask) (i : Nat) : Bool := i < c.vl && (!k.me || c.mlane k.mi i)

/-- Lane `i` of the second source: a vector lane or the broadcast register (R343). -/
def CoreSt.src2 (c : CoreSt) (s : VSrc) (i : Nat) : Word :=
  match s with
  | .vec vb => c.lane vb i
  | .bcast wb => c.reg wb

/-- The core with lane `i` of vector register `r` as `f i`, for every lane. -/
def CoreSt.setLanes (c : CoreSt) (r : VReg) (f : Nat → Word) : CoreSt :=
  { c with v := c.v.set r.toNat (Vector.ofFn (fun i : Fin 64 => f i.val)) }

/-- A vector result: active lanes take `f`, the others keep their value (R341). -/
def CoreSt.putLanes (c : CoreSt) (r : VReg) (k : VMask) (f : Nat → Word) : CoreSt :=
  c.setLanes r (fun i => if c.active k i then f i else c.lane r i)

/-- The 64-bit mask of a predicate on lanes. -/
def maskOf (f : Nat → Bool) : BitVec 64 :=
  BitVec.ofNat 64 ((List.range 64).foldl (fun a i => if f i then a + 2 ^ i else a) 0)

/-- A mask result: lanes not active are written 0 (R341). -/
def CoreSt.putMask (c : CoreSt) (r : MReg) (k : VMask) (f : Nat → Bool) : CoreSt :=
  { c with m := c.m.set r.toNat (maskOf (fun i => c.active k i && f i)) }

end Sys2Proof.Machine
end

