-- ==== Sys2Proof/Machine/Flags.lean ====
section
/-! DEFINITION. The flags an instruction raises: s.status.DZ and OV (R311), s.status.LR (R338), and the
sticky floating-point flags with the rounding mode of s.fcsr (R313). -/

namespace Sys2Proof.Machine

/-- s.fcsr.RM. -/
def CoreSt.rm (c : CoreSt) : Nat := fieldOf c.fcsr 6 5

/-- Floating-point flags are ORed into s.fcsr. -/
def CoreSt.fflags (c : CoreSt) (f : FFlags) : CoreSt := { c with fcsr := c.fcsr ||| nw (f % 32) }

/-- s.status.DZ sets. -/
def CoreSt.setDZ (c : CoreSt) : CoreSt := { c with status := withBit c.status 8 true }

/-- s.status.OV sets. -/
def CoreSt.setOV (c : CoreSt) : CoreSt := { c with status := withBit c.status 9 true }

/-- A suppressed live read: LR sets, and s.lraddr takes the address unless LR was already set (R338). -/
def CoreSt.setLR (c : CoreSt) (a : Nat) : CoreSt :=
  { c with
    lraddr := if bitOf c.status 11 then c.lraddr else nw a
    status := withBit c.status 11 true }

/-- A user-level load outside program-pair SRAM is suppressed while s.ctl.INSTEP is 1 (R338). -/
def CoreSt.suppressed (c : CoreSt) (a : Nat) : Bool :=
  bitOf c.ctl 0 && c.user && !(0x10000000 ≤ a && a < 0x10600000)

end Sys2Proof.Machine
end

