-- ==== Sys2Proof/Machine/Issue.lean ====
section
/-! DEFINITION. How a pair issues an instruction and accesses memory: fetch checks, protection regions, and
the order of exceptions (R314 to R316, R321, R322, R332 to R335). -/

namespace Sys2Proof.Machine

/-! ### Protection regions (R332 to R335) -/

/-- The kinds of access of MPU_FINFO: load, store, fetch, atomic. -/
abbrev kLoad : Nat := 0
abbrev kStore : Nat := 1
abbrev kFetch : Nat := 2
abbrev kAtomic : Nat := 3

/-- Base, limit and attributes of region `n` of a pair. -/
def Dev.regionRegs (d : Dev) (p : Pair) (n : Nat) : Word × Word × Word :=
  match p with
  | .program => (d.rd (Reg.MPU_PBASE n), d.rd (Reg.MPU_PLIM n), d.rd (Reg.MPU_PATTR n))
  | .system => (d.rd (Reg.MPU_SBASE n), d.rd (Reg.MPU_SLIM n), d.rd (Reg.MPU_SATTR n))

/-- The enabled region of highest index that covers the address; 31 when none does. -/
def Dev.region (d : Dev) (p : Pair) (a : Nat) : Nat :=
  (List.range 16).foldl (fun r n =>
    let (b, l, at_) := d.regionRegs p n
    if bitOf at_ 31 && b.toNat / 32 ≤ a / 32 && a / 32 ≤ l.toNat / 32 then n else r) 31

/-- The regions allow an access of a kind at a level. -/
def Dev.regionOk (d : Dev) (p : Pair) (user : Bool) (kind a : Nat) : Bool :=
  let n := d.region p a
  if n = 31 then !user
  else
    let (_, _, at_) := d.regionRegs p n
    let o := if user then 0 else 4
    if kind = kLoad then bitOf at_ o
    else if kind = kStore then bitOf at_ (o + 1)
    else if kind = kFetch then bitOf at_ (o + 2)
    else bitOf at_ o && bitOf at_ (o + 1)

/-- The SECURE fuse denies user level the boot ROM and the limit shadow (R335). -/
def Dev.fuseDenies (d : Dev) (user : Bool) (a : Nat) : Bool :=
  user && d.bit Reg.MPU_FUSE 0 && (a < 0x10000 || (0x20700000 ≤ a && a ≤ 0x2070FFFF))

/-- The first denied access since the pair's flag was cleared is recorded (R334). -/
def Dev.denied (d : Dev) (p : Pair) (kind a code : Nat) : Dev :=
  let (fl, fa, fi) :=
    match p with
    | .program => (0, Reg.MPU_FADDRP, Reg.MPU_FINFOP)
    | .system => (1, Reg.MPU_FADDRS, Reg.MPU_FINFOS)
  if d.bit Reg.MPU_STAT fl then d
  else
    let d := (d.flag Reg.MPU_STAT fl).wr fa (nw a)
    d.wr fi (nw (0x80000000 + kind * 65536 + d.region p a * 256 + code))

/-! ### Issue -/

/-- The pair runs: it is not stopped and waits for nothing. -/
def CoreSt.runs (c : CoreSt) : Bool := !c.stopped && c.waiting = .none

/-- An address instructions are fetched from: boot ROM, SRAM and NOR (Table 12.13). -/
def fetchable (a : Nat) : Bool := a < 0x10000 || isSram a || isNor a

/-- What the fetch at the program counter raises: code and sub-code. -/
def Dev.fetchFault (d : Dev) (p : Pair) : Option (Nat × Nat) :=
  let c := d.core p
  let a := c.pc.toNat
  if a % 4 != 0 then some (3, 3)
  else if fetchable a = false then some (3, 2)
  else if d.regionOk p c.user kFetch a = false then some (3, 1)
  else if d.fuseDenies c.user a then some (5, 4)
  else if isSram a && d.ecc.contains a then some (7, 1)
  else none

/-- A read of `n` bytes corrects the single-bit errors of its words, and the health block counts each (R303).  The word
keeps its error until it is overwritten (DESIGN CHOICE: log entry 226). -/
def Dev.corrected (d : Dev) (a n : Nat) : Dev :=
  match (d.corr.filter (fun e => e < a + n && a < e + 4)).length with
  | 0 => d
  | k + 1 => d.setFld Reg.HLT_ECCCNT 15 0 (min 65535 (d.fld Reg.HLT_ECCCNT 15 0 + k + 1))

/-- An instruction issues on a pair that runs and whose fetch raises nothing; then `f` is its effect. -/
def Dev.issue (d : Dev) (p : Pair) (f : Dev → Dev) : Dev :=
  if (d.core p).runs = false then d
  else
    match d.fetchFault p with
    | some (code, sub) =>
      let a := (d.core p).pc
      let d := if sub = 1 && code = 3 || code = 5 then d.denied p kFetch a.toNat code else d
      let d := if code = 7 then d.satInc Reg.HLT_ECCCNT 31 16 else d
      (d.raise p code sub (some a)).settle
    | none => (f (d.corrected (d.core p).pc.toNat 4)).settle

/-- An instruction that works on the core alone and goes on to the next one. -/
def Dev.alu (d : Dev) (p : Pair) (f : CoreSt → CoreSt) : Dev :=
  d.issue p (fun d => d.setCore p (f (d.core p)).next)

/-- As `alu`, for an instruction that raises ILL unless `ok`. -/
def Dev.aluIf (d : Dev) (p : Pair) (ok : Bool) (f : CoreSt → CoreSt) : Dev :=
  d.issue p (fun d => if ok then d.setCore p (f (d.core p)).next else d.raise p 1 0 none)

/-! ### Data access -/

/-- The peripheral region. -/
def isPeriph (a : Nat) : Bool := 0x40000000 ≤ a && a < 0x40210000

/-- The address is in Table 1.7 or Table 1.8, the unassigned block apart (R28). -/
def mapped (a : Nat) : Bool :=
  (isPeriph a && blockOf a != 27) || inRegion a 1

/-- The exception of PROT class an access raises: regions, claims, fuse. -/
def Dev.protFault (d : Dev) (p : Pair) (kind a : Nat) : Option (Nat × Nat) :=
  let user := (d.core p).user
  if d.regionOk p user kind a = false then some (5, 1)
  else if (kind = kStore || kind = kAtomic) && p = .program && isPeriph a && blockOf a != 27 && d.claimEn (blockOf a) = false then some (5, 2)
  else if d.fuseDenies user a then some (5, 4)
  else none

/-- The exception of BUS class an access of `n` bytes raises (R315). -/
def busFault (kind a n : Nat) : Option (Nat × Nat) :=
  if isPeriph a && n < 4 then some (6, 1)
  else if mapped a = false then some (6, 2)
  else if kind = kStore && (isMram a || isNor a) then some (6, 3)
  else if kind = kAtomic && isSram a = false then some (6, 4)
  else none

/-- An uncorrectable error lies in the words that a load of `n` bytes reads (R303). -/
def Dev.eccFault (d : Dev) (kind a n : Nat) : Option (Nat × Nat) :=
  if kind != kStore && isSram a && d.ecc.any (fun e => e < a + n && a < e + 4) then some (7, 2) else none

/-- What a data access raises, the first of ALIGN, PROT, BUS and ECC; `some none` is a live read that is
suppressed, `none` an access that is made (R322, R338). -/
def Dev.dataFault (d : Dev) (p : Pair) (kind a n : Nat) (live : Bool) : Option (Option (Nat × Nat)) :=
  if a % n != 0 then some (some (4, 0))
  else
    match d.protFault p kind a with
    | some x => some (some x)
    | none =>
      if live && (d.core p).suppressed a then some none
      else
        match busFault kind a n with
        | some x => some (some x)
        | none =>
          match d.eccFault kind a n with
          | some x => some (some x)
          | none => none

/-- The exception is raised with the failing address; a denial is recorded (R334), an ECC error counted. -/
def Dev.dataRaise (d : Dev) (p : Pair) (kind a : Nat) (x : Nat × Nat) : Dev :=
  let d := if x.1 = 5 && x.2 != 2 then d.denied p kind a x.1 else d
  let d := if x.1 = 7 then d.satInc Reg.HLT_ECCCNT 31 16 else d
  d.raise p x.1 x.2 (some (nw a))

/-- Bytes stored to SRAM by a pair: the boot ROM takes none; the other pair's reservation on the granule ends
(R316); a word wholly overwritten has no error any more. -/
def Dev.sramStore (d : Dev) (p : Pair) (a : Nat) (l : List Byte) : Dev :=
  if isSram a then
    let d := ((d.setBytes a l).touch a l.length).overwritten a l.length
    match p with
    | .system => { d with prog := d.prog.hit a l.length }
    | .program => { d with sys := d.sys.hit a l.length }
  else d

end Sys2Proof.Machine
end

