-- ==== Sys2Proof/Machine/View.lean ====
section
/-! DEFINITION. Reads of peripheral registers: the live values, and the reads that latch, pop or clear
(R36, Tables 2.3, 16.4, 19.3 and 22.15), and what a snapshot copy reads (R498). -/

namespace Sys2Proof.Machine

/-- STAT of a CAN controller as it reads: TXGATE and MOTRES are live (R432, R435). -/
def Dev.canStat (d : Dev) (x : Nat) : Word :=
  withBit (withBit (d.rd (Reg.CAN_STAT x)) 9 (d.canGated x)) 12 (x = 1 && d.motRes)

/-- A read of CANx_STAT sets LEC and DLEC to 7 (R430). -/
def Dev.canStatRead (d : Dev) (x : Nat) : Word × Dev :=
  (d.canStat x, (d.setFld (Reg.CAN_STAT x) 22 20 7).setFld (Reg.CAN_STAT x) 18 16 7)

/-- NVC_DONE as it reads: the oldest completion, or zero (R545). -/
def Dev.nvcDoneView (d : Dev) : Word :=
  match d.nvc.fifo with
  | [] => 0
  | (tag, st) :: _ => nw (0x80000000 + tag % 256 * 65536 + st % 16)

/-- A read of NVC_DONE pops the oldest completion. -/
def Dev.nvcDoneRead (d : Dev) : Word × Dev :=
  (d.nvcDoneView, ({ d with nvc := { d.nvc with fifo := d.nvc.fifo.drop 1 } }).nvcShow)

/-- The value a register shows, without what a read of it brings about. -/
def Dev.regView (d : Dev) (a : Nat) : Word :=
  if a = Reg.TIM_TB_LO then nw d.tim.tb
  else if a = Reg.ANG_ANGLE then nw d.ang.angle
  else if a = Reg.FIO_LATCH 3 then d.latch3
  else if a = Reg.FIO_RDBK then nw d.outRdbk
  else if a = Reg.CAN_STAT 0 then d.canStat 0
  else if a = Reg.CAN_STAT 1 then d.canStat 1
  else if a = Reg.NVC_DONE then d.nvcDoneView
  else if a = Reg.MPU_STAT then withBit (d.rd a) 8 (d.bit Reg.MPU_FUSE 0)
  else if a = Reg.TW_STAT then withBit (d.rd a) 7 d.roleLow
  else
    match (List.range 4).find? (fun f => a == Reg.MOT_FANRPM f) with
    | some f => nw (d.fanRpm f)
    | none => d.rd a

/-- A read of the register at `a`: its value, and the module after the read. -/
def Dev.periphRead (d : Dev) (a : Nat) : Word × Dev :=
  if a = Reg.TIM_TB_LO then d.timTbRead
  else if a = Reg.ANG_ANGLE then d.angAngleRead
  else if a = Reg.CAN_STAT 0 then d.canStatRead 0
  else if a = Reg.CAN_STAT 1 then d.canStatRead 1
  else if a = Reg.NVC_DONE then d.nvcDoneRead
  else (d.regView a, d)

/-- A read of the register pops or clears state (R498). -/
def readClears (a : Nat) : Bool := a = Reg.NVC_DONE || a = Reg.CAN_STAT 0 || a = Reg.CAN_STAT 1

/-- The word a snapshot copy takes from `a`, or none where it cannot be read (R498). -/
def Dev.snapWord (d : Dev) (a : Nat) : Option Word :=
  if mapped a = false || a % 4 != 0 || readClears a then none
  else some (if isPeriph a then d.regView a else d.word a)

/-- The words of a snapshot list up to its first zero address, and whether one of them could not be read. -/
def Dev.snapList (d : Dev) : List Word → List Word × Bool
  | [] => ([], false)
  | a :: t =>
    if a = 0 then ([], false)
    else
      let (ws, bad) := Dev.snapList d t
      match d.snapWord a.toNat with
      | some w => (w :: ws, bad)
      | none => (0 :: ws, true)

/-- A recorder snapshot of class `c` (R498). -/
def Dev.snapshot (d : Dev) (c : Nat) : Dev :=
  if 3 < c then d.flag Reg.REC_STAT 4
  else
    let (ws, bad) := d.snapList ((List.range 16).map (fun i => d.rd (Reg.REC_SNAP c i)))
    let d := if bad then d.flag Reg.REC_STAT 4 else d
    d.hw (0xC2F0 + c) ws

end Sys2Proof.Machine
end

