-- ==== Sys2Proof/Machine/Can.lean ====
section
/-! DEFINITION. The two CAN FD controllers: configuration, message objects, transmission, errors and bus-off
(R416 to R438).  Controller 0 is CAN A, 1 is CAN B. -/

namespace Sys2Proof.Machine

/-! ### Readers -/

/-- TEC and REC as CANx_ECNT shows them. -/
def Dev.canTec (d : Dev) (x : Nat) : Nat := d.fld (Reg.CAN_ECNT x) 7 0
def Dev.canRec (d : Dev) (x : Nat) : Nat := d.fld (Reg.CAN_ECNT x) 15 8

/-- Bit of object `n` in one of the four-word registers that begin at `a`. -/
def objBit (a : Nat → Nat) (n : Nat) : Nat × Nat := (a (n / 32), n % 32)

/-- The words that every entry of the controller carries: controller, TEC, REC, LEC (R438). -/
def Dev.canInfo (d : Dev) (x : Nat) : List Word :=
  [nw x, nw (d.canTec x), nw (d.canRec x), nw (d.fld (Reg.CAN_STAT x) 18 16)]

/-! ### Configuration (R418 to R420) -/

/-- The nominal timing is one that R419 accepts. -/
def nbtOk (v : Word) : Bool :=
  let sjw := fieldOf v 31 25
  let s1 := fieldOf v 24 16
  let s2 := fieldOf v 15 9
  let brp := fieldOf v 8 0
  sjw != 0 && s1 != 0 && s2 != 0 && brp != 0 && sjw ≤ s2 && sjw ≤ s1 && 8 ≤ 1 + s1 + s2
    && 80 ≤ brp * (1 + s1 + s2) && brp * (1 + s1 + s2) ≤ 640

/-- CAN-clock periods of a nominal bit. -/
def nbtClocks (v : Word) : Nat := fieldOf v 8 0 * (1 + fieldOf v 24 16 + fieldOf v 15 9)

/-- The data timing is one that R419 accepts beside the nominal one. -/
def dbtOk (n v : Word) : Bool :=
  let brp := fieldOf v 28 24
  let sjw := fieldOf v 20 16
  let s1 := fieldOf v 13 8
  let s2 := fieldOf v 4 0
  brp != 0 && sjw != 0 && s1 != 0 && s2 != 0 && sjw ≤ s2 && sjw ≤ s1 && 5 ≤ 1 + s1 + s2
    && 16 ≤ brp * (1 + s1 + s2) && brp * (1 + s1 + s2) ≤ nbtClocks n

/-- A configuration is refused: CFGERR. -/
def Dev.canCfgErr (d : Dev) (x : Nat) : Dev := d.flag (Reg.CAN_STAT x) 11

/-- INIT is written as 0 in configuration: operation begins with the wait for 11 recessive bits, or CFGERR and
entry 0xA007 (R419). -/
def Dev.canLeave (d : Dev) (x : Nat) : Dev :=
  let n := d.rd (Reg.CAN_NBT x)
  if nbtOk n && (!d.bit (Reg.CAN_CTL x) 2 || dbtOk n (d.rd (Reg.CAN_DBT x))) then
    (((d.setBit (Reg.CAN_CTL x) 0 false).setBit (Reg.CAN_STAT x) 0 false).setBit (Reg.CAN_STAT x) 4 false).setBit
      (Reg.CAN_STAT x) 8 true
  else (d.canCfgErr x).hw 0xA007 (d.canInfo x)

/-- INIT is written as 1: configuration. -/
def Dev.canInit (d : Dev) (x : Nat) : Dev :=
  ((d.setBit (Reg.CAN_CTL x) 0 true).setBit (Reg.CAN_STAT x) 0 true).setBit (Reg.CAN_STAT x) 4 false

/-- Bus-off recovery begins (R431). -/
def Dev.canRecover (d : Dev) (x : Nat) : Dev :=
  if d.bit (Reg.CAN_STAT x) 7 then d.start (Tm.canRec x) else d

/-- CANx_CTL: LBACK and FDEN change only in configuration, TXEN stays 0 in a deposed module (R433). -/
def Dev.canCtl (d : Dev) (x : Nat) (v : Word) : Dev :=
  let old := d.rd (Reg.CAN_CTL x)
  let init := bitOf old 0
  let v' := if init then v else withBit (withBit v 4 (bitOf old 4)) 2 (bitOf old 2)
  let v' := if d.txHeld then withBit v' 1 false else v'
  let d := d.plainWrite (Reg.CAN_CTL x) (withBit v' 0 init)
  let d := if bitOf v 6 then d.canRecover x else d
  if bitOf v 0 then (if init then d else d.canInit x)
  else if init then d.canLeave x else d

/-- NBT, DBT and TDC take writes only in configuration (R420). -/
def Dev.canTiming (d : Dev) (x a : Nat) (v : Word) : Dev :=
  if d.bit (Reg.CAN_CTL x) 0 then d.plainWrite a v else d.canCfgErr x

/-! ### Message objects (R422 to R428) -/

/-- Bytes that a length code stands for (R423). -/
def canLen (fdf : Bool) (dlc : Nat) : Nat :=
  if dlc ≤ 8 then dlc
  else if !fdf then 8
  else nth [12, 16, 20, 24, 32, 48, 64] (dlc - 9)

/-- A write to a word of an object: ignored while the object is pending, with WRREF, or belongs to motion. -/
def Dev.canObjWrite (d : Dev) (x n w : Nat) (v : Word) : Dev :=
  if d.canMotion x n then d
  else if d.canPend x n && (w ≤ 2 || 16 ≤ w) then d.flag (Reg.CAN_OBJ x n 3) 28
  else d.plainWrite (Reg.CAN_OBJ x n w) v

/-- The object accepts a frame with an identifier in the form of RXID (R424). -/
def Dev.canMatch (d : Dev) (x n : Nat) (ide : Bool) (rxid : Word) : Bool :=
  let w0 := d.rd (Reg.CAN_OBJ x n 0)
  bitOf w0 31 && !bitOf w0 30
    && ((rxid ^^^ d.rd (Reg.CAN_OBJ x n 1)) &&& d.rd (Reg.CAN_OBJ x n 2)) &&& 0x1FFFFFFF = 0
    && (!bitOf w0 24 || bitOf w0 29 = ide)

/-- Entry 0xA005, at most once per object per second. -/
def Dev.canLost (d : Dev) (x n : Nat) : Dev :=
  let d := d.flag (Reg.CAN_STAT x) 10
  if d.running (Tm.canLost x n) && !d.due (Tm.canLost x n) (secT 1) then d
  else (d.start (Tm.canLost x n)).hw 0xA005 (d.canInfo x ++ [nw n])

/-- A frame goes into object `n` with the time of its time point (R422, R423). -/
def Dev.canStore (d : Dev) (x n : Nat) (flags dlc : Nat) (rxid : Word) (data : List Byte) : Dev :=
  let w3 := d.rd (Reg.CAN_OBJ x n 3)
  let w3 := withField (withField (withBit w3 31 true) 27 23 flags) 3 0 dlc
  let d := d.wr (Reg.CAN_OBJ x n 3) w3
  let d := d.wr (Reg.CAN_OBJ x n 4) rxid
  let d := (d.wr (Reg.CAN_OBJ x n 5) (nw d.tim.ns)).wr (Reg.CAN_OBJ x n 6) (nw d.tim.sec)
  let l := fitBytes 64 data
  let d := (List.range 16).foldl (fun (d : Dev) k => d.wr (Reg.CAN_OBJ x n (16 + k)) (leWord l (4 * k))) d
  d.flag (Reg.CAN_RXNEW x (n / 32)) (n % 32)

/-- A frame reaches the object of lowest index that matches (R424, R425). -/
def Dev.canTake (d : Dev) (x : Nat) (ide : Bool) (flags dlc : Nat) (rxid : Word) (data : List Byte) : Dev :=
  match (List.range 128).find? (fun n => d.canMatch x n ide rxid) with
  | none => d
  | some n =>
    if d.bit (Reg.CAN_OBJ x n 3) 31 = false then d.canStore x n flags dlc rxid data
    else if d.bit (Reg.CAN_OBJ x n 0) 25 then
      ((d.canStore x n flags dlc rxid data).flag (Reg.CAN_OBJ x n 3) 30).canLost x n
    else (d.flag (Reg.CAN_OBJ x n 3) 29).canLost x n

/-- A write of RDSEL copies an object to RDBUF and clears its flags (R426). -/
def Dev.canRdsel (d : Dev) (x n : Nat) : Dev :=
  if d.canMotion x n then d
  else
    let d := (List.range 32).foldl (fun (d : Dev) w => d.wr (Reg.CAN_RDBUF x w) (d.rd (Reg.CAN_OBJ x n w))) d
    d.canTaken x n

/-- A request for one transmit object (R427, R432, R435). -/
def Dev.canRequest (d : Dev) (x n : Nat) : Dev :=
  let w0 := d.rd (Reg.CAN_OBJ x n 0)
  if d.canGated x || d.canMotion x n || !bitOf w0 31 || !bitOf w0 30 || d.canPend x n then d
  else d.canArm x n

/-- A write of TXREQ k. -/
def Dev.canTxreq (d : Dev) (x k : Nat) (v : Word) : Dev :=
  (List.range 32).foldl (fun (d : Dev) i => if bitOf v i then d.canRequest x (32 * k + i) else d) d

/-- A write of TXCAN k; the frame of object `onBus` is on the bus and finishes (R428). -/
def Dev.canTxcan (d : Dev) (x k : Nat) (v : Word) (onBus : Option Nat) : Dev :=
  (List.range 32).foldl (fun (d : Dev) i =>
    let n := 32 * k + i
    if bitOf v i && d.canPend x n && onBus != some n && !d.canMotion x n then
      d.canDisarm x n
    else d) d


/-! ### Errors (R430, R431) -/

/-- The state bits follow the counters, with an entry at each onset; `tec` may exceed 255. -/
def Dev.canCount (d : Dev) (x tec rec : Nat) : Dev :=
  let d := d.wr (Reg.CAN_ECNT x) (nw (b2n (127 < rec) * 65536 + satN 255 rec * 256 + satN 255 tec))
  let mark (d : Dev) (b code : Nat) (on : Bool) : Dev :=
    if on = d.bit (Reg.CAN_STAT x) b then d
    else
      let d := d.setBit (Reg.CAN_STAT x) b on
      if on then d.hw code (d.canInfo x) else d
  let d := mark d 5 0xA001 (96 ≤ tec || 96 ≤ rec)
  let d := mark d 6 0xA002 (127 < tec || 127 < rec)
  if 255 < tec && !d.bit (Reg.CAN_STAT x) 7 then
    let d := mark d 7 0xA003 true
    let d := (d.setBit (Reg.CAN_STAT x) 4 false).setBit (Reg.CAN_STAT x) 8 true
    if d.bit (Reg.CAN_CTL x) 5 then d.canRecover x else d
  else d

/-- An error code goes to LEC, or to DLEC in the data phase. -/
def Dev.canLec (d : Dev) (x code : Nat) (data : Bool) : Dev :=
  if data then d.setFld (Reg.CAN_STAT x) 22 20 code else d.setFld (Reg.CAN_STAT x) 18 16 code

/-- The receive counter after a frame received without error: it falls by 1, or from above 127 to a value
between 119 and 127 that ISO 11898-1 leaves open. -/
def Dev.canRxGood (d : Dev) (x : Nat) : Dev :=
  if d.canGated x then d
  else
    let r := d.canRec x
    if 127 < r then
      let (k, d) := d.nextFree
      d.canCount x (d.canTec x) (119 + Config.free k % 9)
    else d.canCount x (d.canTec x) (r - 1)

/-- A frame is received without error; CAN FD frames need FDEN (R424). -/
def Dev.canReceive (d : Dev) (x : Nat) (ide fdf brs esi rtr : Bool) (id : BitVec 29) (dlc : Nat) (data : List Byte) : Dev :=
  if !d.canLive x || (fdf && !d.bit (Reg.CAN_CTL x) 2) || d.bit (Reg.CAN_CTL x) 4 then d
  else
    let rxid : Word := if ide then id.setWidth 32 else nw (id.toNat % 2048 * 2 ^ 18)
    let flags := 16 * b2n fdf + 8 * b2n brs + 4 * b2n esi + 2 * b2n ide + b2n rtr
    let l := if rtr then [] else data.take (canLen fdf dlc)
    (d.canRxGood x).canTake x ide flags dlc rxid l

/-- An error outside an attempt; the counters hold in bus monitoring mode (R432).  `rise` is what ISO 11898-1 counts: 0 REC
by 1, 1 REC by 8, else TEC by 8, for a transmitter in its overload flag or after it. -/
def Dev.canRxError (d : Dev) (x code : Nat) (data : Bool) (rise : Nat) : Dev :=
  if !d.canLive x then d
  else
    let d := d.canLec x code data
    if d.canGated x then d
    else if rise < 2 then d.canCount x (d.canTec x) (d.canRec x + if rise = 1 then 8 else 1)
    else d.canCount x (d.canTec x + 8) (d.canRec x)

/-! ### Transmission (R427, R429) -/

/-- The rank of an object's identifier in arbitration: the 11 bits, then SRR and IDE, then the rest. -/
def Dev.canRank (d : Dev) (x n : Nat) : Nat :=
  let id := (d.rd (Reg.CAN_OBJ x n 1)).toNat % 2 ^ 29
  let w0 := d.rd (Reg.CAN_OBJ x n 0)
  let hi := id / 2 ^ 18
  if bitOf w0 29 then (hi * 4 + 3) * 2 ^ 18 + id % 2 ^ 18
  else (hi * 4 + 2 * b2n (bitOf w0 26 && !bitOf w0 28)) * 2 ^ 18

/-- The object that the controller offered `ago` ticks ago: the lowest identifier, then the lowest index, of
those pending then; a CAN FD frame waits while FDEN is 0. -/
def Dev.canOffer (d : Dev) (x ago : Nat) : Option Nat :=
  (List.range 128).foldl (fun (r : Option Nat) n =>
    if d.canPend x n && decide (ago ≤ d.since (Tm.canReq x n)) && (d.bit (Reg.CAN_CTL x) 2 || !d.bit (Reg.CAN_OBJ x n 0) 28) then
      match r with
      | some m => if d.canRank x n < d.canRank x m then some n else r
      | none => some n
    else r) none

/-- The data bytes of a transmit object. -/
def Dev.canData (d : Dev) (x n : Nat) : List Byte :=
  let w0 := d.rd (Reg.CAN_OBJ x n 0)
  if bitOf w0 26 && !bitOf w0 28 then []
  else
    (wordsBytes ((List.range 16).map (fun k => d.rd (Reg.CAN_OBJ x n (16 + k))))).take (canLen (bitOf w0 28) (fieldOf w0 3 0))

/-- ESI of a frame that the controller sends: set in a CAN FD frame of an error-passive transmitter. -/
def Dev.canEsi (d : Dev) (x n : Nat) : Bool := d.bit (Reg.CAN_OBJ x n 0) 28 && d.bit (Reg.CAN_STAT x) 6

/-- An attempt of object `n` succeeds: TXPEND clears, TXDONE sets, the time point is written, TEC falls by 1; in
loopback the controller takes its own frame.  A frame sent is its identifier, word 0, ESI and data. -/
def Dev.canSuccess (d : Dev) (x n : Nat) : Dev :=
  let w0 := d.rd (Reg.CAN_OBJ x n 0)
  let id := d.rd (Reg.CAN_OBJ x n 1)
  let l := d.canData x n
  let esi := d.canEsi x n
  let d := (d.canDisarm x n).flag (Reg.CAN_TXDONE x (n / 32)) (n % 32)
  let d := (d.wr (Reg.CAN_OBJ x n 5) (nw d.tim.ns)).wr (Reg.CAN_OBJ x n 6) (nw d.tim.sec)
  if d.bit (Reg.CAN_CTL x) 4 then
    let fdf := bitOf w0 28
    let flags := 16 * b2n fdf + 8 * b2n (fdf && bitOf w0 27) + 4 * b2n esi + 2 * b2n (bitOf w0 29) + b2n (!fdf && bitOf w0 26)
    let rxid := if bitOf w0 29 then id else id &&& 0x1FFC0000
    d.canTake x (bitOf w0 29) flags (fieldOf w0 3 0) rxid l
  else (d.send (.can x) n (id.toNat :: w0.toNat :: b2n esi :: byteNats l)).canCount x (d.canTec x - 1) (d.canRec x)

/-- An attempt of object `n` ends in an error; TEC rises by 8 for each of the `rises` that ISO 11898-1 counts: none for an
error that it leaves out, one for the error, and one for each bit error in the error flag and each run of dominant bits
after it. -/
def Dev.canFailure (d : Dev) (x n code : Nat) (data : Bool) (rises : Nat) : Dev :=
  let att := d.fld (Reg.CAN_OBJ x n 3) 19 16
  let last := decide (d.fld (Reg.CAN_OBJ x n 0) 23 20 ≤ att)
  let d := (d.canLec x code data).setFld (Reg.CAN_OBJ x n 3) 19 16 (satN 15 (att + 1))
  let d := d.canCount x (d.canTec x + 8 * rises) (d.canRec x)
  if last then
    let d := (d.canDisarm x n).flag (Reg.CAN_TXFAIL x (n / 32)) (n % 32)
    d.hw 0xA006 (d.canInfo x ++ [nw n, d.rd (Reg.CAN_OBJ x n 1)])
  else d

/-- A transmission attempt that began `ago` ticks ago ends; with TDCEN and a CAN FD frame the delay is measured
(R421). -/
def Dev.canAttempt (d : Dev) (x ago : Nat) (tdcv : BitVec 7) (err : Option (BitVec 3 × Bool × Byte)) : Dev :=
  if !d.canLive x || d.canGated x then d
  else
    match d.canOffer x ago with
    | none => d
    | some n =>
      let d := if d.bit (Reg.CAN_TDC x) 15 && d.bit (Reg.CAN_OBJ x n 0) 28 then d.setFld (Reg.CAN_TDC x) 6 0 tdcv.toNat else d
      match err with
      | none => d.canSuccess x n
      | some (code, data, rises) => d.canFailure x n code.toNat data rises.toNat

/-- 11 recessive bits have passed after configuration: the controller is on the bus (R419). -/
def Dev.canIntegrated (d : Dev) (x : Nat) : Dev :=
  if d.bit (Reg.CAN_CTL x) 0 || d.bit (Reg.CAN_STAT x) 7 || d.bit (Reg.CAN_STAT x) 4 then d
  else (d.flag (Reg.CAN_STAT x) 4).setBit (Reg.CAN_STAT x) 8 false

/-- 128 times 11 recessive bits have passed since recovery began; a controller in configuration still waits for its 11 bits
(R419, R431). -/
def Dev.canRecovered (d : Dev) (x : Nat) : Dev :=
  if d.bit (Reg.CAN_STAT x) 7 && d.running (Tm.canRec x) then
    let d := (d.stop (Tm.canRec x)).setBit (Reg.CAN_STAT x) 7 false
    let d := d.canCount x 0 0
    let d := if d.bit (Reg.CAN_CTL x) 0 then d else (d.flag (Reg.CAN_STAT x) 4).setBit (Reg.CAN_STAT x) 8 false
    d.hw 0xA004 (d.canInfo x)
  else d

/-- A TXCAN that reaches the register as a store: whether the frame that the controller offers is on the bus then, is open
(free value: log entry 116). -/
def Dev.canTxcanStore (d : Dev) (x k : Nat) (v : Word) : Dev :=
  let (i, d) := d.nextFree
  let onBus := if d.canLive x && !d.canGated x && Config.free i % 2 = 1 then d.canOffer x 0 else none
  d.canTxcan x k v onBus

/-! ### Commands -/

/-- A write of CANx_CTL with INIT 0. -/
def execLeaveConfiguration (src : Writer) (x : BitVec 1) (v : Word) (s : State) : Host.Outcome State Fault Refusal :=
  s.lift (fun d => d.gate src (Reg.CAN_CTL x.toNat) (fun d => d.canCtl x.toNat (withBit v 0 false)))

/-- 11 consecutive recessive bits. -/
def execBusIntegrated (x : BitVec 1) (s : State) : Host.Outcome State Fault Refusal :=
  s.lift (fun d => d.canIntegrated x.toNat)

/-- A frame received without error. -/
def execCanFrameReceive (x : BitVec 1) (ide fdf brs esi rtr : Bool) (id : BitVec 29) (dlc : BitVec 4) (data : List Byte)
    (s : State) : Host.Outcome State Fault Refusal :=
  s.lift (fun d => d.canReceive x.toNat ide fdf brs esi rtr id dlc.toNat data)

/-- A write of CANx_RDSEL. -/
def execRdsel (src : Writer) (x : BitVec 1) (v : Word) (s : State) : Host.Outcome State Fault Refusal :=
  s.lift (fun d => d.gate src (Reg.CAN_RDSEL x.toNat) (fun d => d.canRdsel x.toNat (fieldOf v 6 0)))

/-- A write of CANx_TXREQk. -/
def execTxreq (src : Writer) (x : BitVec 1) (k : BitVec 2) (v : Word) (s : State) : Host.Outcome State Fault Refusal :=
  s.lift (fun d => d.gate src (Reg.CAN_TXREQ x.toNat k.toNat) (fun d => d.canTxreq x.toNat k.toNat v))

/-- A write of CANx_TXCANk; `onBus` is the object whose frame is on the bus. -/
def execTxcan (src : Writer) (x : BitVec 1) (k : BitVec 2) (v : Word) (onBus : Option (BitVec 7)) (s : State) :
    Host.Outcome State Fault Refusal :=
  s.lift (fun d => d.gate src (Reg.CAN_TXCAN x.toNat k.toNat) (fun d =>
    d.canTxcan x.toNat k.toNat v (onBus.map (fun n => n.toNat))))

/-- An attempt ends: `err` is none, or the error code, whether it fell in the data phase, and the rises of TEC by 8. -/
def execCanAttemptEnd (x : BitVec 1) (ago : Word) (tdcv : BitVec 7) (err : Option (BitVec 3 × Bool × Byte)) (s : State) :
    Host.Outcome State Fault Refusal :=
  s.lift (fun d => d.canAttempt x.toNat ago.toNat tdcv err)

/-- A write of CANx_CTL with RECOVER. -/
def execRecover (src : Writer) (x : BitVec 1) (v : Word) (s : State) : Host.Outcome State Fault Refusal :=
  s.lift (fun d => d.gate src (Reg.CAN_CTL x.toNat) (fun d => d.canCtl x.toNat (withBit v 6 true)))

/-- The recovery sequence is complete. -/
def execBusOffRecoveryDone (x : BitVec 1) (s : State) : Host.Outcome State Fault Refusal :=
  s.lift (fun d => d.canRecovered x.toNat)

/-- A read of CANx_STAT. -/
def execCanStatRead (x : BitVec 1) (s : State) : Host.Outcome State Fault Refusal :=
  s.lift (fun d => (d.canStatRead x.toNat).2)

/-- An error detected while receiving: its code, whether in the data phase, and what it raises. -/
def execCanReceiveError (x : BitVec 1) (code : BitVec 3) (data : Bool) (rise : BitVec 2) (s : State) :
    Host.Outcome State Fault Refusal :=
  s.lift (fun d => d.canRxError x.toNat code.toNat data rise.toNat)

end Sys2Proof.Machine
end

