-- ==== Sys2Proof/Machine/CycObj.lean ====
section
/-! DEFINITION. Cyclic-program instructions on the frozen time base: TBRD, timers, counters and edges
(R319, R320, R366). -/

namespace Sys2Proof.Machine

/-- A cyclic-program instruction raises ILL on the system pair. -/
def Dev.cycOp (d : Dev) (p : Pair) (f : Dev → Dev) : Dev :=
  d.issue p (fun d => if p = .program then f d else d.raise p 1 0 none)

/-- What an object access raises: ALIGN, PROT sub-code 3 outside program-pair SRAM, PROT sub-code 1 where a
region denies the read or the write, ECC (R320, R322). -/
def Dev.objFault (d : Dev) (p : Pair) (a n : Nat) : Option (Nat × Nat) :=
  if a % n != 0 then some (4, 0)
  else if !(0x10000000 ≤ a && a < 0x10600000) then some (5, 3)
  else if d.regionOk p (d.core p).user kLoad a = false || d.regionOk p (d.core p).user kStore a = false then some (5, 1)
  else d.eccFault kLoad a n

/-- The access of an object instruction that a region denies: the read, or only the write (R334). -/
def Dev.objKind (d : Dev) (p : Pair) (a : Nat) : Nat :=
  if d.regionOk p (d.core p).user kLoad a && !d.regionOk p (d.core p).user kStore a then kStore else kLoad

/-- An object instruction: `f` gives the object's new words and the result from its words. -/
def Dev.objOp (d : Dev) (p : Pair) (n : Nat) (rd ra rb : GReg) (f : List Word → Word → List Word × Word) : Dev :=
  d.cycOp p (fun d =>
    let c := d.core p
    let a := (c.reg ra).toNat
    match d.objFault p a n with
    | some x => d.dataRaise p (d.objKind p a) a x
    | none =>
      let d := d.corrected a n
      let ws := (List.range (n / 4)).map (fun i => d.word (a + 4 * i))
      let (ws', r) := f ws (c.reg rb)
      let d := d.sramStore p a (wordsBytes ws')
      d.setCore p ((d.core p).setReg rd r).next)

/-- Word `i` of an object. -/
def objW (l : List Word) (i : Nat) : Word := (l[i]?).getD 0

/-- A timer: START, PT in µs, and Q, RUN, PIN. -/
structure Timer where
  start : Nat
  pt : Nat
  q : Bool
  run : Bool
  pin : Bool

/-- The timer of an object's words (Table 14.6). -/
def timerOf (l : List Word) : Timer where
  start := (objW l 0).toNat + 2 ^ 32 * (objW l 1).toNat
  pt := (objW l 2).toNat * (if bitOf (objW l 3) 3 then 1000 else 1)
  q := bitOf (objW l 3) 0
  run := bitOf (objW l 3) 1
  pin := bitOf (objW l 3) 2

/-- The words of a timer after evaluation, PIN taking the input, and the result: Q and running. -/
def timerWords (l : List Word) (t : Timer) (inp : Bool) : List Word × Word :=
  let w3 := withBit (withBit (withBit (objW l 3) 0 t.q) 1 t.run) 2 inp
  ([nw t.start, nw (t.start / 2 ^ 32), objW l 2, w3], nw (b2n t.q + 2 * b2n t.run))

/-- The elapsed time on the frozen time base. -/
def elapsed (now start : Nat) : Nat := (now + 2 ^ 64 - start % 2 ^ 64) % 2 ^ 64

/-- TON as R366 evaluates it. -/
def tonEval (now : Nat) (inp : Bool) (t : Timer) : Timer :=
  if !inp then { t with q := false, run := false }
  else
    let t := if !t.pin then { t with start := now, run := true } else t
    if t.run && t.pt ≤ elapsed now t.start then { t with q := true, run := false } else t

/-- TOF as R366 evaluates it. -/
def tofEval (now : Nat) (inp : Bool) (t : Timer) : Timer :=
  if inp then { t with q := true, run := false }
  else
    let t := if t.pin then { t with start := now, run := true } else t
    if t.run && t.pt ≤ elapsed now t.start then { t with q := false, run := false } else t

/-- TP as R366 evaluates it. -/
def tpEval (now : Nat) (inp : Bool) (t : Timer) : Timer :=
  let t := if !t.run && inp && !t.pin then { t with start := now, run := true, q := true } else t
  if t.run && t.pt ≤ elapsed now t.start then { t with q := false, run := false } else t

/-- A timer instruction. -/
def Dev.timerOp (d : Dev) (p : Pair) (rd ra rb : GReg) (ev : Nat → Bool → Timer → Timer) : Dev :=
  d.objOp p 16 rd ra rb (fun l b => timerWords l (ev d.cyc.frozen.tb (bitOf b 0) (timerOf l)) (bitOf b 0))

/-- A counter evaluation: which inputs it heeds, then R, LD, rising CU and rising CD (R366). -/
def counterEval (useU useD : Bool) (l : List Word) (b : Word) : List Word × Word :=
  let cv := (objW l 0).toInt
  let pv := (objW l 1).toInt
  let cu := bitOf b 0
  let cd := bitOf b 1
  let up := useU && cu && !bitOf (objW l 2) 0
  let dn := useD && cd && !bitOf (objW l 2) 1
  let cv' :=
    if useU && bitOf b 2 then 0
    else if useD && bitOf b 3 then pv
    else
      let x := if up then sat32 (cv + 1) else cv
      if dn then sat32 (x - 1) else x
  let w2 := if useU then withBit (objW l 2) 0 cu else objW l 2
  let w2 := if useD then withBit w2 1 cd else w2
  ([iw cv', objW l 1, w2, objW l 3], nw (b2n (pv ≤ cv') + 2 * b2n (cv' ≤ 0)))

/-- An edge evaluation: the first one only stores the input (R366). -/
def edgeEval (rising : Bool) (l : List Word) (b : Word) : List Word × Word :=
  let inp := bitOf b 0
  let init := bitOf (objW l 0) 1
  let pin := bitOf (objW l 0) 0
  let hit := init && (if rising then inp && !pin else !inp && pin)
  ([withBit (withBit (objW l 0) 0 inp) 1 true, objW l 1], nw (b2n hit))

/-- TBRD: selector 0 the time base into a pair, 1 the angle word, 2 the grid cycle count, any other ILL (R319). -/
def execTbrd (p : Pair) (rd : GReg) (sel : BitVec 5) (s : State) : Host.Outcome State Fault Refusal :=
  s.lift (fun d => d.cycOp p (fun d =>
    let c := d.core p
    let fz := d.cyc.frozen
    if sel = 0 then (if pairOk rd then d.setCore p (c.setRegD rd fz.tb).next else d.raise p 1 0 none)
    else if sel = 1 then d.setCore p (c.setReg rd (nw fz.angle)).next
    else if sel = 2 then d.setCore p (c.setReg rd (nw fz.cycle)).next
    else d.raise p 1 0 none))

/-- TON. -/
def execTon (p : Pair) (rd ra rb : GReg) (s : State) : Host.Outcome State Fault Refusal :=
  s.lift (fun d => d.timerOp p rd ra rb tonEval)

/-- TOF. -/
def execTof (p : Pair) (rd ra rb : GReg) (s : State) : Host.Outcome State Fault Refusal :=
  s.lift (fun d => d.timerOp p rd ra rb tofEval)

/-- TP. -/
def execTp (p : Pair) (rd ra rb : GReg) (s : State) : Host.Outcome State Fault Refusal :=
  s.lift (fun d => d.timerOp p rd ra rb tpEval)

/-- CTU: CD and LD are ignored. -/
def execCtu (p : Pair) (rd ra rb : GReg) (s : State) : Host.Outcome State Fault Refusal :=
  s.lift (fun d => d.objOp p 16 rd ra rb (counterEval true false))

/-- CTD: CU and R are ignored. -/
def execCtd (p : Pair) (rd ra rb : GReg) (s : State) : Host.Outcome State Fault Refusal :=
  s.lift (fun d => d.objOp p 16 rd ra rb (counterEval false true))

/-- CTUD. -/
def execCtud (p : Pair) (rd ra rb : GReg) (s : State) : Host.Outcome State Fault Refusal :=
  s.lift (fun d => d.objOp p 16 rd ra rb (counterEval true true))

/-- RTRIG. -/
def execRtrig (p : Pair) (rd ra rb : GReg) (s : State) : Host.Outcome State Fault Refusal :=
  s.lift (fun d => d.objOp p 8 rd ra rb (edgeEval true))

/-- FTRIG. -/
def execFtrig (p : Pair) (rd ra rb : GReg) (s : State) : Host.Outcome State Fault Refusal :=
  s.lift (fun d => d.objOp p 8 rd ra rb (edgeEval false))

end Sys2Proof.Machine
end

