-- ==== Sys2Proof/Machine/Integer.lean ====
section
/-! DEFINITION. Integer, immediate, multiply and divide, fraction, branch and jump instructions (R309 to R312, R317). -/

namespace Sys2Proof.Machine

/-! ### Shared operations -/

/-- d := f a b. -/
def Dev.rrr (d : Dev) (p : Pair) (rd ra rb : GReg) (f : Word → Word → Word) : Dev :=
  d.alu p (fun c => c.setReg rd (f (c.reg ra) (c.reg rb)))

/-- d := f a, with an immediate or no second operand. -/
def Dev.rri (d : Dev) (p : Pair) (rd ra : GReg) (f : Word → Word) : Dev :=
  d.alu p (fun c => c.setReg rd (f (c.reg ra)))

/-- 1 or 0 as a word. -/
def bw (b : Bool) : Word := if b then 1 else 0

/-- The lesser of two words under an order. -/
def pickMin (lt : Word → Word → Bool) (x y : Word) : Word := if lt y x then y else x

/-- The greater of two words under an order. -/
def pickMax (lt : Word → Word → Bool) (x y : Word) : Word := if lt x y then y else x

/-- The number of leading zeros, 32 for zero. -/
def clz32 (x : Word) : Nat := if x = 0 then 32 else 31 - Nat.log2 x.toNat

/-- The number of ones. -/
def popc32 (x : Word) : Nat := (List.range 32).foldl (fun n i => if bitOf x i then n + 1 else n) 0

/-- Signed division, truncated: quotient, remainder, and the DZ and OV flags (R311). -/
def divS (a b : Word) : Word × Word × Bool × Bool :=
  if b = 0 then (0, a, true, false)
  else if a = 0x80000000 && b = 0xFFFFFFFF then (0x80000000, 0, false, true)
  else (iw (Int.tdiv a.toInt b.toInt), iw (Int.tmod a.toInt b.toInt), false, false)

/-- Unsigned division: quotient, remainder and DZ (R311). -/
def divU (a b : Word) : Word × Word × Bool :=
  if b = 0 then (0, a, true) else (nw (a.toNat / b.toNat), nw (a.toNat % b.toNat), false)

/-- DZ and OV set where a division raised them. -/
def CoreSt.divFlags (c : CoreSt) (dz ov : Bool) : CoreSt :=
  let c := if dz then c.setDZ else c
  if ov then c.setOV else c

/-- The Q1.15 value of a register: bits [15:0], signed (R312). -/
def q15 (x : Word) : Int := sx 16 x.toNat

/-- Q1.31 product, rounded with ties upward and saturated (R312). -/
def qmul31 (x y : Word) : Int := sat32 (sarI (x.toInt * y.toInt + 1073741824) 31)

/-! ### Integer (Table 12.5) -/

/-- ADD: d := a + b, modulo 2^32. -/
def execAdd (p : Pair) (rd ra rb : GReg) (s : State) : Host.Outcome State Fault Refusal :=
  s.lift (fun d => d.rrr p rd ra rb (fun x y => x + y))

/-- SUB: d := a - b, modulo 2^32. -/
def execSub (p : Pair) (rd ra rb : GReg) (s : State) : Host.Outcome State Fault Refusal :=
  s.lift (fun d => d.rrr p rd ra rb (fun x y => x - y))

/-- AND. -/
def execAnd (p : Pair) (rd ra rb : GReg) (s : State) : Host.Outcome State Fault Refusal :=
  s.lift (fun d => d.rrr p rd ra rb (fun x y => x &&& y))

/-- OR. -/
def execOr (p : Pair) (rd ra rb : GReg) (s : State) : Host.Outcome State Fault Refusal :=
  s.lift (fun d => d.rrr p rd ra rb (fun x y => x ||| y))

/-- XOR. -/
def execXor (p : Pair) (rd ra rb : GReg) (s : State) : Host.Outcome State Fault Refusal :=
  s.lift (fun d => d.rrr p rd ra rb (fun x y => x ^^^ y))

/-- NOR: d := NOT (a OR b). -/
def execNor (p : Pair) (rd ra rb : GReg) (s : State) : Host.Outcome State Fault Refusal :=
  s.lift (fun d => d.rrr p rd ra rb (fun x y => ~~~ (x ||| y)))

/-- SLT: d := 1 if a < b signed. -/
def execSlt (p : Pair) (rd ra rb : GReg) (s : State) : Host.Outcome State Fault Refusal :=
  s.lift (fun d => d.rrr p rd ra rb (fun x y => bw (x.slt y)))

/-- SLTU: d := 1 if a < b unsigned. -/
def execSltu (p : Pair) (rd ra rb : GReg) (s : State) : Host.Outcome State Fault Refusal :=
  s.lift (fun d => d.rrr p rd ra rb (fun x y => bw (x.ult y)))

/-- SLL: d := a << b[4:0]. -/
def execSll (p : Pair) (rd ra rb : GReg) (s : State) : Host.Outcome State Fault Refusal :=
  s.lift (fun d => d.rrr p rd ra rb (fun x y => x <<< (y.toNat % 32)))

/-- SRL: d := a >> b[4:0], logical. -/
def execSrl (p : Pair) (rd ra rb : GReg) (s : State) : Host.Outcome State Fault Refusal :=
  s.lift (fun d => d.rrr p rd ra rb (fun x y => x >>> (y.toNat % 32)))

/-- SRA: d := a >> b[4:0], arithmetic. -/
def execSra (p : Pair) (rd ra rb : GReg) (s : State) : Host.Outcome State Fault Refusal :=
  s.lift (fun d => d.rrr p rd ra rb (fun x y => x.sshiftRight (y.toNat % 32)))

/-- ROR: d := a rotated right by b[4:0]. -/
def execRor (p : Pair) (rd ra rb : GReg) (s : State) : Host.Outcome State Fault Refusal :=
  s.lift (fun d => d.rrr p rd ra rb (fun x y => x.rotateRight (y.toNat % 32)))

/-- MIN: signed minimum. -/
def execMin (p : Pair) (rd ra rb : GReg) (s : State) : Host.Outcome State Fault Refusal :=
  s.lift (fun d => d.rrr p rd ra rb (fun x y => pickMin BitVec.slt x y))

/-- MAX: signed maximum. -/
def execMax (p : Pair) (rd ra rb : GReg) (s : State) : Host.Outcome State Fault Refusal :=
  s.lift (fun d => d.rrr p rd ra rb (fun x y => pickMax BitVec.slt x y))

/-- MINU: unsigned minimum. -/
def execMinu (p : Pair) (rd ra rb : GReg) (s : State) : Host.Outcome State Fault Refusal :=
  s.lift (fun d => d.rrr p rd ra rb (fun x y => pickMin BitVec.ult x y))

/-- MAXU: unsigned maximum. -/
def execMaxu (p : Pair) (rd ra rb : GReg) (s : State) : Host.Outcome State Fault Refusal :=
  s.lift (fun d => d.rrr p rd ra rb (fun x y => pickMax BitVec.ult x y))

/-- ADDS: saturated to the signed 32-bit range. -/
def execAdds (p : Pair) (rd ra rb : GReg) (s : State) : Host.Outcome State Fault Refusal :=
  s.lift (fun d => d.rrr p rd ra rb (fun x y => iw (sat32 (x.toInt + y.toInt))))

/-- SUBS: saturated to the signed 32-bit range. -/
def execSubs (p : Pair) (rd ra rb : GReg) (s : State) : Host.Outcome State Fault Refusal :=
  s.lift (fun d => d.rrr p rd ra rb (fun x y => iw (sat32 (x.toInt - y.toInt))))

/-- SLLI: the b field is the shift count. -/
def execSlli (p : Pair) (rd ra : GReg) (sh : BitVec 5) (s : State) : Host.Outcome State Fault Refusal :=
  s.lift (fun d => d.rri p rd ra (fun x => x <<< sh.toNat))

/-- SRLI. -/
def execSrli (p : Pair) (rd ra : GReg) (sh : BitVec 5) (s : State) : Host.Outcome State Fault Refusal :=
  s.lift (fun d => d.rri p rd ra (fun x => x >>> sh.toNat))

/-- SRAI. -/
def execSrai (p : Pair) (rd ra : GReg) (sh : BitVec 5) (s : State) : Host.Outcome State Fault Refusal :=
  s.lift (fun d => d.rri p rd ra (fun x => x.sshiftRight sh.toNat))

/-- RORI. -/
def execRori (p : Pair) (rd ra : GReg) (sh : BitVec 5) (s : State) : Host.Outcome State Fault Refusal :=
  s.lift (fun d => d.rri p rd ra (fun x => x.rotateRight sh.toNat))

/-- CLZ: count of leading zeros, 32 for zero. -/
def execClz (p : Pair) (rd ra : GReg) (s : State) : Host.Outcome State Fault Refusal :=
  s.lift (fun d => d.rri p rd ra (fun x => nw (clz32 x)))

/-- POPC: count of ones. -/
def execPopc (p : Pair) (rd ra : GReg) (s : State) : Host.Outcome State Fault Refusal :=
  s.lift (fun d => d.rri p rd ra (fun x => nw (popc32 x)))

/-- EXTB: a[7:0], sign-extended. -/
def execExtb (p : Pair) (rd ra : GReg) (s : State) : Host.Outcome State Fault Refusal :=
  s.lift (fun d => d.rri p rd ra (fun x => iw (sx 8 x.toNat)))

/-- EXTH: a[15:0], sign-extended. -/
def execExth (p : Pair) (rd ra : GReg) (s : State) : Host.Outcome State Fault Refusal :=
  s.lift (fun d => d.rri p rd ra (fun x => iw (sx 16 x.toNat)))

/-! ### Immediate (Table 12.6) -/

/-- ADDI: d := a + sext(imm16). -/
def execAddi (p : Pair) (rd ra : GReg) (imm : BitVec 16) (s : State) : Host.Outcome State Fault Refusal :=
  s.lift (fun d => d.rri p rd ra (fun x => x + sext16 imm))

/-- ANDI: the immediate zero-extended. -/
def execAndi (p : Pair) (rd ra : GReg) (imm : BitVec 16) (s : State) : Host.Outcome State Fault Refusal :=
  s.lift (fun d => d.rri p rd ra (fun x => x &&& zext16 imm))

/-- ORI: the immediate zero-extended. -/
def execOri (p : Pair) (rd ra : GReg) (imm : BitVec 16) (s : State) : Host.Outcome State Fault Refusal :=
  s.lift (fun d => d.rri p rd ra (fun x => x ||| zext16 imm))

/-- XORI: the immediate zero-extended. -/
def execXori (p : Pair) (rd ra : GReg) (imm : BitVec 16) (s : State) : Host.Outcome State Fault Refusal :=
  s.lift (fun d => d.rri p rd ra (fun x => x ^^^ zext16 imm))

/-- SLTI: signed, against sext(imm16). -/
def execSlti (p : Pair) (rd ra : GReg) (imm : BitVec 16) (s : State) : Host.Outcome State Fault Refusal :=
  s.lift (fun d => d.rri p rd ra (fun x => bw (x.slt (sext16 imm))))

/-- SLTIU: unsigned, against sext(imm16). -/
def execSltiu (p : Pair) (rd ra : GReg) (imm : BitVec 16) (s : State) : Host.Outcome State Fault Refusal :=
  s.lift (fun d => d.rri p rd ra (fun x => bw (x.ult (sext16 imm))))

/-- LUI: d := imm16 << 16. -/
def execLui (p : Pair) (rd : GReg) (imm : BitVec 16) (s : State) : Host.Outcome State Fault Refusal :=
  s.lift (fun d => d.rri p rd 0 (fun _ => zext16 imm <<< 16))

/-! ### Multiply and divide (Table 12.7, R311) -/

/-- MUL: low word of the product. -/
def execMul (p : Pair) (rd ra rb : GReg) (s : State) : Host.Outcome State Fault Refusal :=
  s.lift (fun d => d.rrr p rd ra rb (fun x y => x * y))

/-- MULH: high word, both signed. -/
def execMulh (p : Pair) (rd ra rb : GReg) (s : State) : Host.Outcome State Fault Refusal :=
  s.lift (fun d => d.rrr p rd ra rb (fun x y => iw ((x.toInt * y.toInt) / 4294967296)))

/-- MULHU: high word, both unsigned. -/
def execMulhu (p : Pair) (rd ra rb : GReg) (s : State) : Host.Outcome State Fault Refusal :=
  s.lift (fun d => d.rrr p rd ra rb (fun x y => nw (x.toNat * y.toNat / 4294967296)))

/-- DIV: signed, truncated toward zero. -/
def execDiv (p : Pair) (rd ra rb : GReg) (s : State) : Host.Outcome State Fault Refusal :=
  s.lift (fun d => d.alu p (fun c =>
    let (q, _, dz, ov) := divS (c.reg ra) (c.reg rb)
    (c.setReg rd q).divFlags dz ov))

/-- REM: the result takes the sign of a. -/
def execRem (p : Pair) (rd ra rb : GReg) (s : State) : Host.Outcome State Fault Refusal :=
  s.lift (fun d => d.alu p (fun c =>
    let (_, r, dz, ov) := divS (c.reg ra) (c.reg rb)
    (c.setReg rd r).divFlags dz ov))

/-- DIVU: unsigned. -/
def execDivu (p : Pair) (rd ra rb : GReg) (s : State) : Host.Outcome State Fault Refusal :=
  s.lift (fun d => d.alu p (fun c =>
    let (q, _, dz) := divU (c.reg ra) (c.reg rb)
    (c.setReg rd q).divFlags dz false))

/-- REMU: unsigned remainder. -/
def execRemu (p : Pair) (rd ra rb : GReg) (s : State) : Host.Outcome State Fault Refusal :=
  s.lift (fun d => d.alu p (fun c =>
    let (_, r, dz) := divU (c.reg ra) (c.reg rb)
    (c.setReg rd r).divFlags dz false))

/-! ### Fraction (Table 12.8, R312) -/

/-- QMUL15. -/
def execQmul15 (p : Pair) (rd ra rb : GReg) (s : State) : Host.Outcome State Fault Refusal :=
  s.lift (fun d => d.rrr p rd ra rb (fun x y => iw (sat16 (sarI (q15 x * q15 y + 16384) 15))))

/-- QMUL31. -/
def execQmul31 (p : Pair) (rd ra rb : GReg) (s : State) : Host.Outcome State Fault Refusal :=
  s.lift (fun d => d.rrr p rd ra rb (fun x y => iw (qmul31 x y)))

/-- QADD15. -/
def execQadd15 (p : Pair) (rd ra rb : GReg) (s : State) : Host.Outcome State Fault Refusal :=
  s.lift (fun d => d.rrr p rd ra rb (fun x y => iw (sat16 (q15 x + q15 y))))

/-- QSUB15. -/
def execQsub15 (p : Pair) (rd ra rb : GReg) (s : State) : Host.Outcome State Fault Refusal :=
  s.lift (fun d => d.rrr p rd ra rb (fun x y => iw (sat16 (q15 x - q15 y))))

/-- QMAC31: d := sat32(d + QMUL31 a b). -/
def execQmac31 (p : Pair) (rd ra rb : GReg) (s : State) : Host.Outcome State Fault Refusal :=
  s.lift (fun d => d.alu p (fun c =>
    c.setReg rd (iw (sat32 ((c.reg rd).toInt + qmul31 (c.reg ra) (c.reg rb))))))

/-- QSAT16: clamped to the signed 16-bit range. -/
def execQsat16 (p : Pair) (rd ra : GReg) (s : State) : Host.Outcome State Fault Refusal :=
  s.lift (fun d => d.rri p rd ra (fun x => iw (sat16 x.toInt)))

/-! ### Branches and jumps (Table 12.11, R317) -/

/-- A branch: to its own address plus 4 * sext(off16) when the condition holds. -/
def Dev.branch (d : Dev) (p : Pair) (ra rb : GReg) (off : BitVec 16) (f : Word → Word → Bool) : Dev :=
  d.issue p (fun d =>
    let c := d.core p
    d.setCore p (if f (c.reg ra) (c.reg rb) then { c with pc := c.pc + (sext16 off <<< 2) } else c.next))

/-- A register jump: d := PC + 4 where it links, PC := a; a misaligned target raises FETCH with sub-code 3 at
the target. -/
def Dev.jumpReg (d : Dev) (p : Pair) (link : Option GReg) (ra : GReg) : Dev :=
  d.issue p (fun d =>
    let c := d.core p
    let t := c.reg ra
    let c := match link with | some r => c.setReg r (c.pc + 4) | none => c
    let d := d.setCore p { c with pc := t }
    if t.toNat % 4 != 0 then d.exception p 3 3 (some t) t else d)

/-- A jump: PC := PC + 4 * sext(off26). -/
def Dev.jumpOff (d : Dev) (p : Pair) (link : Bool) (off : BitVec 26) : Dev :=
  d.issue p (fun d =>
    let c := d.core p
    let t := c.pc + (off.signExtend 32 <<< 2)
    let c := if link then c.setReg 31 (c.pc + 4) else c
    d.setCore p { c with pc := t })

/-- BEQ: branch if a = b. -/
def execBeq (p : Pair) (ra rb : GReg) (off : BitVec 16) (s : State) : Host.Outcome State Fault Refusal :=
  s.lift (fun d => d.branch p ra rb off (fun x y => x == y))

/-- BNE: branch if a differs from b. -/
def execBne (p : Pair) (ra rb : GReg) (off : BitVec 16) (s : State) : Host.Outcome State Fault Refusal :=
  s.lift (fun d => d.branch p ra rb off (fun x y => x != y))

/-- BLT: signed. -/
def execBlt (p : Pair) (ra rb : GReg) (off : BitVec 16) (s : State) : Host.Outcome State Fault Refusal :=
  s.lift (fun d => d.branch p ra rb off (fun x y => x.slt y))

/-- BGE: signed. -/
def execBge (p : Pair) (ra rb : GReg) (off : BitVec 16) (s : State) : Host.Outcome State Fault Refusal :=
  s.lift (fun d => d.branch p ra rb off (fun x y => !x.slt y))

/-- BLTU: unsigned. -/
def execBltu (p : Pair) (ra rb : GReg) (off : BitVec 16) (s : State) : Host.Outcome State Fault Refusal :=
  s.lift (fun d => d.branch p ra rb off (fun x y => x.ult y))

/-- BGEU: unsigned. -/
def execBgeu (p : Pair) (ra rb : GReg) (off : BitVec 16) (s : State) : Host.Outcome State Fault Refusal :=
  s.lift (fun d => d.branch p ra rb off (fun x y => !x.ult y))

/-- J. -/
def execJ (p : Pair) (off : BitVec 26) (s : State) : Host.Outcome State Fault Refusal :=
  s.lift (fun d => d.jumpOff p false off)

/-- JAL: w31 := PC + 4. -/
def execJal (p : Pair) (off : BitVec 26) (s : State) : Host.Outcome State Fault Refusal :=
  s.lift (fun d => d.jumpOff p true off)

/-- JR: PC := a. -/
def execJr (p : Pair) (ra : GReg) (s : State) : Host.Outcome State Fault Refusal :=
  s.lift (fun d => d.jumpReg p none ra)

/-- JALR: d := PC + 4; PC := a. -/
def execJalr (p : Pair) (rd ra : GReg) (s : State) : Host.Outcome State Fault Refusal :=
  s.lift (fun d => d.jumpReg p (some rd) ra)

end Sys2Proof.Machine
end

