-- ==== Sys2Proof/Machine/Dma.lean ====
section
/-! DEFINITION. The DMA rings, the frames of the Ethernet host port, and time-triggered launch (R457, R463,
R464, R469 to R475). -/

namespace Sys2Proof.Machine

/-! ### Readers -/

/-- Ring `r` runs. -/
def Dev.dmaOn (d : Dev) (r : Nat) : Bool := d.bit Reg.DMA_CTL 0 && d.bit (Reg.DMA_CFG r) 31

/-- NDESC, HEAD and TAIL of ring `r`. -/
def Dev.dmaN (d : Dev) (r : Nat) : Nat := d.fld (Reg.DMA_CFG r) 15 0
def Dev.dmaHead (d : Dev) (r : Nat) : Nat := d.fld (Reg.DMA_HEAD r) 15 0
def Dev.dmaTail (d : Dev) (r : Nat) : Nat := d.fld (Reg.DMA_TAIL r) 15 0

/-- The descriptor that the hardware takes next. -/
def Dev.dmaDesc (d : Dev) (r : Nat) : Nat := (d.rd (Reg.DMA_BASE r)).toNat / 16 * 16 + 16 * d.dmaHead r

/-- Word `k` of that descriptor. -/
def Dev.dmaW (d : Dev) (r k : Nat) : Word := d.word (d.dmaDesc r + 4 * k)

/-- Its length. -/
def Dev.dmaLen (d : Dev) (r : Nat) : Nat := fieldOf (d.dmaW r 1) 15 0

/-- The ring has a descriptor in hand: HEAD differs from TAIL and OWN is 1, and the ring is not halted. -/
def Dev.dmaReady (d : Dev) (r : Nat) : Bool :=
  d.dmaOn r && d.dmaN r != 0 && d.dmaHead r != d.dmaTail r && !getB d.dma.halt r && bitOf (d.dmaW r 1) 31

/-- System-pair SRAM, engine buffers, DMA and communication buffers. -/
def dmaRegion (a n : Nat) : Bool :=
  inRegion a n && ((0x10600000 ≤ a && a < 0x10E00000) || (0x10F00000 ≤ a && a < 0x11000000))

/-- A source of a memory-to-memory copy. -/
def dmaSource (a n : Nat) : Bool := inRegion a n && (isSram a || isMram a || isNor a)

/-- The ERR and IRQ registers that hold ring `r`. -/
def dmaErr (r : Nat) : Nat := if r < 32 then Reg.DMA_ERR0 else Reg.DMA_ERR1
def dmaIrq (r : Nat) : Nat := if r < 32 then Reg.DMA_IRQ0 else Reg.DMA_IRQ1

/-! ### Completion (R471, R472, R473) -/

/-- A descriptor found at HEAD without OWN halts the ring until the next write of TAIL (R470). -/
def Dev.dmaLook (d : Dev) (r : Nat) : Dev :=
  if d.dmaOn r && d.dmaN r != 0 && d.dmaHead r != d.dmaTail r && !bitOf (d.dmaW r 1) 31 then
    { d with dma := { d.dma with halt := putB d.dma.halt r true } }
  else d

/-- The descriptor at HEAD completes: word 3, a received length, word 2 where a peer gives one, then OWN clears and
HEAD advances; status 8 or 10 stops the ring. -/
def Dev.dmaEnd (d : Dev) (r status : Nat) (len : Option Nat) (w2 : Option Nat) (w3 : Nat) (fin : Bool) : Dev :=
  let a := d.dmaDesc r
  let i := d.dmaHead r
  let w1 := d.dmaW r 1
  let d := match w2 with | some v => d.agentStore (a + 8) (leBytes 4 v) | none => d
  let d := d.agentStore (a + 12) (leBytes 4 (w3 / 16 * 16 + status))
  let w1' := match len with | some n => withField w1 15 0 n | none => w1
  let w1' := if fin then withBit w1' 29 true else w1'
  let d := d.agentStore (a + 4) (leBytes 4 (withBit w1' 31 false).toNat)
  let d := d.setFld (Reg.DMA_HEAD r) 15 0 ((i + 1) % d.dmaN r)
  let d := if bitOf w1 30 then d.flag (dmaIrq r) (r % 32) else d
  let d := if status = 10 then d.satInc Reg.HLT_ECCCNT 31 16 else d
  if status = 8 || status = 10 then
    ((d.setBit (Reg.DMA_CFG r) 31 false).flag (dmaErr r) (r % 32)).hw 0xA030 [nw r, nw status, nw i]
  else d.dmaLook r

/-! ### Transmission by the host port (R457, R463) -/

/-- The host port may transmit (R457). -/
def Dev.hostTx (d : Dev) : Bool := d.bit Reg.ETH_CTL 0 && d.leads

/-- The link of port `k` (1 or 2) is up. -/
def Dev.ethUp (d : Dev) (k : Nat) : Bool := d.bit Reg.ETH_STAT (k - 1) && !d.shedding

/-- A 48-bit address as a number, first byte highest. -/
def macOf (l : List Byte) (o : Nat) : Nat := beNat (slice l o 6)

/-- The address is a group address. -/
def macGroup (m : Nat) : Bool := m / 2 ^ 40 % 2 = 1

/-- The switch learns where an address is: never for a group address, nor while ETH_AGE is 0, nor beyond 1,024
entries (R455). -/
def Dev.ethLearn (d : Dev) (mac port : Nat) : Dev :=
  if d.fld Reg.ETH_AGE 15 0 = 0 || macGroup mac || (1024 ≤ d.eth.macs.length && (getO d.eth.macs mac).isNone) then d
  else { d with eth := { d.eth with macs := putO d.eth.macs mac (some (port, d.now)) } }

/-- The port an address was learned on. -/
def Dev.ethPort (d : Dev) (mac : Nat) : Option Nat :=
  if macGroup mac then none else (getO d.eth.macs mac).map (fun e => e.1)

/-- The ports a host frame leaves on: the mask's, else the switch's choice. -/
def Dev.hostPorts (d : Dev) (mask dst : Nat) : List Nat :=
  let l :=
    if mask != 0 then [1, 2].filter (fun k => mask.testBit (k - 1))
    else match d.ethPort dst with
      | some 1 => [1]
      | some 2 => [2]
      | some _ => []
      | none => [1, 2]
  l.filter (fun k => d.ethUp k)

/-- The queue of a frame by its priority code point; PTP always goes to queue 3 (R455). -/
def ethQueue (l : List Byte) : Nat :=
  let et := beNat (slice l 12 2)
  if et = 0x88F7 then 3
  else if et = 0x8100 then
    if beNat (slice l 16 2) = 0x88F7 then 3 else beNat (slice l 14 1) / 32 / 2
  else 0

/-- The offset of the EtherType, past a VLAN tag. -/
def ethType (l : List Byte) : Nat × Nat :=
  if beNat (slice l 12 2) = 0x8100 then (beNat (slice l 16 2), 18) else (beNat (slice l 12 2), 14)

/-- The frame is a PTP event message (R458). -/
def ptpEvent (l : List Byte) : Bool :=
  let (t, o) := ethType l
  t = 0x88F7 && decide (beNat (slice l o 1) % 16 < 4)

/-- A frame leaves a port on the wire, in a queue. -/
def Dev.ethSend (d : Dev) (port queue : Nat) (l : List Byte) : Dev := d.send .eth (256 * port + queue) (byteNats l)

/-- The local clock corrected by `ofs` ns, as nanoseconds and seconds. -/
def Dev.clockAt (d : Dev) (ofs : Int) : Nat × Nat :=
  let t : Int := (d.tim.sec : Int) * 1000000000 + d.tim.ns + ofs
  ((t % 1000000000).toNat, ((t / 1000000000) % (2 ^ 48 : Nat)).toNat)

/-- The frame of the descriptor at HEAD of transmit ring `r` leaves with a status OK or LATE, stamped where TSREQ
or a PTP event asks for it; LINKDOWN where no port takes it. -/
def Dev.hostSend (d : Dev) (r status : Nat) : Dev :=
  let w3 := (d.dmaW r 3).toNat
  let l := d.bytes (d.dmaW r 0).toNat (d.dmaLen r)
  let ports := d.hostPorts (w3 / 256 % 4) (macOf l 0)
  match ports with
  | [] => d.dmaEnd r 3 none none w3 false
  | k :: _ =>
    let d := (d.corrected (d.dmaW r 0).toNat (d.dmaLen r)).ethLearn (macOf l 6) 0
    let q := if (ethType l).1 = 0x88F7 then 3 else r
    let d := ports.foldl (fun (d : Dev) k => d.ethSend k q l) d
    let (ns, sec) := d.clockAt (d.fld (Reg.ETH_LAT (k - 1)) 31 16)
    if w3.testBit 30 || ptpEvent l then
      d.dmaEnd r status none (some ns) (w3 - w3 / 65536 % 256 * 65536 + sec % 256 * 65536) false
    else d.dmaEnd r status none none w3 false

/-- The launch instant of the descriptor less the local clock, in ns: the instant within ±128 s (R463). -/
def Dev.launchIn (d : Dev) (r : Nat) : Int :=
  let s := ((d.dmaW r 3).toNat / 65536 % 256 + 256 - d.tim.sec % 256) % 256
  let ds : Int := if s < 128 then s else (s : Int) - 256
  ds * 1000000000 + (d.dmaW r 2).toNat - d.tim.ns

/-- The bytes from `a` before the first word with an uncorrectable error. -/
def Dev.eccAt (d : Dev) (a n : Nat) : Option Nat :=
  (d.ecc.filter (fun e => e < a + n && a < e + 4)).foldl (fun (r : Option Nat) e =>
    match r with
    | some x => some (min x (e - a))
    | none => some (e - a)) none

/-- What keeps the buffer of transmit ring `r` from being sent: status 8 outside the regions of R470, 10 for an
uncorrectable error in it (Table 18.5). -/
def Dev.dmaBad (d : Dev) (r : Nat) : Option Nat :=
  let a := (d.dmaW r 0).toNat
  if !dmaRegion a (d.dmaLen r) then some 8 else if (d.eccAt a (d.dmaLen r)).isSome then some 10 else none

/-- At a launch frame at the head of ring `r`: it waits, leaves, leaves late behind a frame that held its port
(`busy`), or is dropped as late (R463). -/
def Dev.launch (d : Dev) (r : Nat) (busy : Bool) : Dev :=
  if 4 ≤ r || !d.dmaReady r || !bitOf (d.dmaW r 3) 31 || d.dmaLen r = 0 then d
  else if !d.hostTx then d.dmaEnd r 2 none none (d.dmaW r 3).toNat false
  else
    match d.dmaBad r with
    | some st => d.dmaEnd r st none none (d.dmaW r 3).toNat false
    | none =>
    let t := d.launchIn r
    let late := decide (t + d.fld Reg.ETH_LATE 23 0 < 0)
    if 0 < t then d
    else if late && !busy then
      ((d.flag Reg.ETH_STAT 7).hw 0xA023 [nw r]).dmaEnd r 1 none none (d.dmaW r 3).toNat false
    else if late then (d.flag Reg.ETH_STAT 7).hostSend r 1
    else d.hostSend r 0

/-! ### Rings that go on by themselves -/

/-- Descriptors that complete at once: length zero, or a host frame that is GATED (R457, R464, R471). -/
def Dev.dmaRun (d : Dev) (r : Nat) : Nat → Dev
  | 0 => d
  | fuel + 1 =>
    if !d.dmaReady r then d.dmaLook r
    else if d.dmaLen r = 0 then
      Dev.dmaRun (d.dmaEnd r 0 none none (if r < 8 then (d.dmaW r 3).toNat else 0) false) r fuel
    else if r < 4 && !d.hostTx then Dev.dmaRun (d.dmaEnd r 2 none none (d.dmaW r 3).toNat false) r fuel
    else d

/-- A write of TAIL hands descriptors over (R470). -/
def Dev.dmaTailWrite (d : Dev) (r : Nat) (v : Word) : Dev :=
  let d := d.wr (Reg.DMA_TAIL r) (nw (fieldOf v 15 0 % d.dmaN r))
  let d := { d with dma := { d.dma with halt := putB d.dma.halt r false } }
  d.dmaRun r (d.dmaN r)

/-- A write of BASE sets HEAD and TAIL to 0; ignored while EN is 1. -/
def Dev.dmaBaseWrite (d : Dev) (r : Nat) (v : Word) : Dev :=
  if d.bit (Reg.DMA_CFG r) 31 then d
  else ((d.plainWrite (Reg.DMA_BASE r) v).wr (Reg.DMA_HEAD r) 0).wr (Reg.DMA_TAIL r) 0

/-- A write of CFG: NDESC changes only while EN is 0; EN starts the ring, or is refused for a bad array (R470). -/
def Dev.dmaCfgWrite (d : Dev) (r : Nat) (v : Word) : Dev :=
  if d.bit (Reg.DMA_CFG r) 31 then d.setBit (Reg.DMA_CFG r) 31 (bitOf v 31)
  else
    let d := d.setFld (Reg.DMA_CFG r) 15 0 (fieldOf v 15 0)
    if bitOf v 31 = false then d
    else if d.dmaN r != 0 && !dmaRegion ((d.rd (Reg.DMA_BASE r)).toNat / 16 * 16) (16 * d.dmaN r) then d.flag (dmaErr r) (r % 32)
    else (d.setBit (Reg.DMA_CFG r) 31 true).dmaRun r (d.dmaN r)

/-! ### Descriptors that move data (R471, R474) -/

/-- Bytes copied in ascending order. -/
def Dev.copyAsc (d : Dev) (src dst : Nat) : Nat → Dev
  | 0 => d
  | n + 1 => Dev.copyAsc (d.agentStore dst [d.byte src]) (src + 1) (dst + 1) n

/-- A memory-to-memory descriptor (R474). -/
def Dev.dmaCopy (d : Dev) (r : Nat) : Dev :=
  let src := (d.dmaW r 0).toNat
  let dst := (d.dmaW r 2).toNat
  let n := d.dmaLen r
  if !dmaSource src n || !dmaRegion dst n then d.dmaEnd r 8 none none 0 false
  else
    let bad := d.eccAt src n
    let d := d.corrected src n
    match bad with
    | some k => (d.copyAsc src dst k).dmaEnd r 10 none none 0 false
    | none => (d.copyAsc src dst n).dmaEnd r 0 none none 0 false

/-- A transmit descriptor of the service port: its bytes leave, with the end of a message in kind 1. -/
def Dev.dmaUsbOut (d : Dev) (r : Nat) : Dev :=
  match d.dmaBad r with
  | some st => d.dmaEnd r st none none 0 false
  | none =>
    let l := d.bytes (d.dmaW r 0).toNat (d.dmaLen r)
    let d := d.corrected (d.dmaW r 0).toNat (d.dmaLen r)
    (d.send .nypeha (0x1000 + b2n (bitOf (d.dmaW r 1) 29)) (byteNats l)).dmaEnd r 0 none none 0 false

/-- A host frame without a launch time leaves. -/
def Dev.dmaHostOut (d : Dev) (r : Nat) : Dev :=
  match d.dmaBad r with
  | some st => d.dmaEnd r st none none (d.dmaW r 3).toNat false
  | none =>
    if !d.hostTx then d.dmaEnd r 2 none none (d.dmaW r 3).toNat false
    else if bitOf (d.dmaW r 3) 31 then d
    else d.hostSend r 0

/-- Data goes into the buffer of a receive descriptor; `rest` says whether what does not fit is kept. -/
def Dev.dmaFill (d : Dev) (r : Nat) (l : List Byte) (w2 w3 : Nat) (svc : Bool) : Dev :=
  let a := (d.dmaW r 0).toNat
  let n := d.dmaLen r
  if !dmaRegion a n then d.dmaEnd r 8 none none 0 false
  else
    let long := decide (n < l.length)
    let d := d.agentStore a (l.take n)
    let d := if svc then { d with dma := { d.dma with usb := l.drop n } } else d
    d.dmaEnd r (if long then 9 else 0) (some (min n l.length)) (if svc then none else some w2) w3 (svc && !long)

/-- The first frame that waits for ring `r`. -/
def takeRx (r : Nat) : List RxFrame → Option (RxFrame × List RxFrame)
  | [] => none
  | f :: t =>
    if f.ring = r then some (f, t)
    else (takeRx r t).map (fun p => (p.1, f :: p.2))

/-- The descriptor in progress on ring `r` completes; `msg` is a message that the service port has received. -/
def Dev.dmaComplete (d : Dev) (r : Nat) (msg : List Byte) : Dev :=
  if !d.dmaReady r || d.dmaLen r = 0 then d
  else if r < 4 then d.dmaHostOut r
  else if r < 8 then
    match takeRx r d.dma.rx with
    | none => d
    | some (f, t) =>
      let d := { d with dma := { d.dma with rx := t } }
      d.dmaFill r f.data f.ns (f.sec % 256 * 65536 + f.port % 4 * 256) false
  else if r = 8 then
    let l := d.dma.usb ++ msg
    if l.isEmpty then d else d.dmaFill r l 0 0 true
  else if r = 9 then d.dmaUsbOut r
  else d.dmaCopy r

/-- A completion, and the descriptors behind it that complete at once. -/
def Dev.dmaStep (d : Dev) (r : Nat) (msg : List Byte) : Dev :=
  let d := d.dmaComplete r msg
  d.dmaRun r (d.dmaN r)

/-! ### Commands -/

/-- A write of DMA_TAILr. -/
def execDmaTailWrite (src : Writer) (r : BitVec 6) (v : Word) (s : State) : Host.Outcome State Fault Refusal :=
  s.lift (fun d => d.gate src (Reg.DMA_TAIL r.toNat) (fun d => d.dmaTailWrite r.toNat v))

/-- A write of DMA_BASEr. -/
def execDmaBaseWrite (src : Writer) (r : BitVec 6) (v : Word) (s : State) : Host.Outcome State Fault Refusal :=
  s.lift (fun d => d.gate src (Reg.DMA_BASE r.toNat) (fun d => d.dmaBaseWrite r.toNat v))

/-- A write of DMA_CFGr. -/
def execDmaEnable (src : Writer) (r : BitVec 6) (v : Word) (s : State) : Host.Outcome State Fault Refusal :=
  s.lift (fun d => d.gate src (Reg.DMA_CFG r.toNat) (fun d => d.dmaCfgWrite r.toNat v))

/-- The descriptor in progress on a ring completes. -/
def execDmaCompletion (r : BitVec 6) (msg : List Byte) (s : State) : Host.Outcome State Fault Refusal :=
  s.lift (fun d => d.dmaStep r.toNat msg)

/-- The launch instant of the frame at the head of a transmit ring, or the end of the frame that held its port. -/
def execLaunch (r : BitVec 2) (busy : Bool) (s : State) : Host.Outcome State Fault Refusal :=
  s.lift (fun d =>
    let d := d.launch r.toNat busy
    d.dmaRun r.toNat (d.dmaN r.toNat))

end Sys2Proof.Machine
end

