-- ==== Sys2Proof/Machine/Eth.lean ====
section
/-! DEFINITION. The Ethernet switch, the transparent clock, the ordinary clock with its servo, and angle messages
(R454 to R468). -/

namespace Sys2Proof.Machine

/-! ### PTP headers -/

/-- Message type, two-step flag, correction in 2^-16 ns, and sender identity with sequence, of the PTP message at
offset `o`. -/
def ptpType (l : List Byte) (o : Nat) : Nat := beNat (slice l o 1) % 16
def ptpTwoStep (l : List Byte) (o : Nat) : Bool := (beNat (slice l (o + 6) 1)).testBit 1
def ptpKey (l : List Byte) (o : Nat) : Nat := beNat (slice l (o + 20) 12)

/-- The message with `c` ns added to its correctionField. -/
def ptpCorrect (l : List Byte) (o c : Nat) : List Byte :=
  let v := (beNat (slice l (o + 8) 8) + c * 65536) % 2 ^ 64
  l.take (o + 8) ++ beBytes 8 v ++ l.drop (o + 16)

/-! ### Delivery to the host (R456, R464) -/

/-- The receive ring of a frame; none for a fragment, which is discarded. -/
def Dev.hostRing (d : Dev) (l : List Byte) : Option Nat :=
  let (t, o) := ethType l
  if t = 0x88F7 then some 4
  else if t = 0x0800 then
    let frag := beNat (slice l (o + 6) 2)
    if frag % 16384 != 0 then none
    else if beNat (slice l (o + 9) 1) = 17 then
      let p := beNat (slice l (o + 4 * (beNat (slice l o 1) % 16) + 2) 2)
      if p = d.fld Reg.ETH_ANGPORT 15 0 then some 5
      else if p = d.pv Par.UDPPORT then some 6
      else some 7
    else some 7
  else some 7

/-- A frame is delivered to the host with its ingress stamp. -/
def Dev.hostDeliver (d : Dev) (port : Nat) (l : List Byte) : Dev :=
  match d.hostRing l with
  | none => d
  | some r =>
    let (ns, sec) := d.clockAt (-(d.fld (Reg.ETH_LAT (port - 1)) 15 0 : Int))
    { d with dma := { d.dma with rx := d.dma.rx ++ [{ ring := r, data := l, ns := ns, sec := sec, port := port }] } }

/-! ### Forwarding (R455, R459, R460) -/

/-- Port `k` is marked not capable. -/
def Dev.ncap (d : Dev) (k : Nat) : Bool := d.bit Reg.ETH_STAT (3 + k)

/-- A Sync or Follow_Up that the transparent clock forwards to `egress` after `res` ns (R459). -/
def Dev.tcForward (d : Dev) (l : List Byte) (ingress egress res : Nat) : List Byte × Dev :=
  let (t, o) := ethType l
  if t != 0x88F7 || d.bit Reg.ETH_TCCTL 0 = false then (l, d)
  else
    let c := (if egress = 0 then 0 else res) + d.fld (Reg.ETH_PDLY (ingress - 1)) 15 0
    let key := ptpKey l o * 4 + egress
    if ptpType l o = 0 then
      if ptpTwoStep l o then (l, { d with eth := { d.eth with fups := putO d.eth.fups key (some c) } })
      else (ptpCorrect l o c, d)
    else if ptpType l o = 8 then
      match getO d.eth.fups key with
      | some c => (ptpCorrect l o c, { d with eth := { d.eth with fups := putO d.eth.fups key none } })
      | none => (l, d)
    else (l, d)

/-- One copy of a frame to port `egress`. -/
def Dev.ethEgress (d : Dev) (l : List Byte) (ingress res egress : Nat) : Dev :=
  let (l, d) := d.tcForward l ingress egress res
  if egress = 0 then d.hostDeliver ingress l
  else if d.ethUp egress then d.ethSend egress (ethQueue l) l else d

/-- The ports that a received frame goes to. -/
def Dev.ethTargets (d : Dev) (ingress dst : Nat) : List Nat :=
  let others := [0, 1, 2].filter (fun k => k != ingress)
  match d.ethPort dst with
  | some p => if p = ingress then [] else [p]
  | none => others

/-- A frame arrives at port `k` (1 or 2): `l` without its FCS, which `fcsOk` judges, and `res` the ns until it leaves
again. -/
def Dev.ethReceive (d : Dev) (k : Nat) (l : List Byte) (fcsOk : Bool) (res : Nat) : Dev :=
  if d.ethUp k = false then d
  else if 1522 < l.length + 4 then d.satInc (Reg.ETH_DROP (k - 1)) 15 0
  else if fcsOk = false then d.satInc (Reg.ETH_DROP (k - 1)) 31 16
  else
    let (t, o) := ethType l
    let ptp := ptpType l o
    let d := d.ethLearn (macOf l 6) k
    if macOf l 0 = 0x0180C200000E || d.bit Reg.ETH_CTL 1 = false then d
    else if t = 0x88F7 && (ptp = 0 || ptp = 8) && d.ncap k then d
    else (d.ethTargets k (macOf l 0)).foldl (fun (d : Dev) e => d.ethEgress l k res e) d

/-- A learned address older than ETH_AGE is removed. -/
def Dev.ethAge (d : Dev) (mac : Nat) : Dev :=
  match getO d.eth.macs mac with
  | some (_, t) =>
    let n := d.fld Reg.ETH_AGE 15 0
    if n != 0 && t + secT n < d.now then { d with eth := { d.eth with macs := putO d.eth.macs mac none } } else d
  | none => d

/-! ### Link delay (R459, R460) -/

/-- Timer: the last link-delay exchange of port k. -/
abbrev Tm.pdly (k : Nat) : Nat := 0x600 + k

/-- LOGPDI as a signed number. -/
def Dev.logPdi (d : Dev) : Int := sx 4 (d.fld Reg.ETH_TCCTL 11 8)

/-- Ticks in 2^n seconds. -/
def pow2T (n : Int) : Nat := if 0 ≤ n then secT 1 * 2 ^ n.toNat else secT 1 / 2 ^ (-n).toNat

/-- The port is marked not capable, with entry 0xA021 at the onset. -/
def Dev.ncapSet (d : Dev) (k : Nat) : Dev :=
  if d.ncap k then d else (d.setBit Reg.ETH_STAT (3 + k) true).hw 0xA021 [nw k]

/-- One exchange of port `k`: Pdelay_Req leaves, and the four times come back or not. -/
def Dev.peerDelay (d : Dev) (k : Nat) (ans : Option (Int × Int × Int × Int)) : Dev :=
  if d.bit Reg.ETH_TCCTL 0 = false || d.role = 3 || d.ethUp k = false then d
  else if d.logPdi = -8 then d.ncapSet k
  else if d.running (Tm.pdly k) && !d.due (Tm.pdly k) (pow2T d.logPdi) then d
  else
    let d := (d.start (Tm.pdly k)).send .eth (256 * k + 0x12) []
    match ans with
    | some (t1, t2, t3, t4) =>
      let m := ((t4 - t1) - (t3 - t2) + 1) / 2
      let d := (d.setFld (Reg.ETH_PDLY (k - 1)) 15 0 (clampI 0 65535 m).toNat).setBit Reg.ETH_STAT (3 + k) false
      { d with eth := { d.eth with miss := putN d.eth.miss k 0 } }
    | none =>
      let n := getN d.eth.miss k + 1
      let d := { d with eth := { d.eth with miss := putN d.eth.miss k n } }
      if 3 ≤ n then d.ncapSet k else d

/-- ETH_TCCTL: LOGPDI -8 stops the measurement and marks both ports not capable. -/
def Dev.tcCtl (d : Dev) (v : Word) : Dev :=
  let d := d.plainWrite Reg.ETH_TCCTL v
  if d.logPdi = -8 then (d.ncapSet 1).ncapSet 2 else d

/-- A peer's Pdelay_Req is answered with Pdelay_Resp and Pdelay_Resp_Follow_Up, which carry the request's identity
and sequence and the receive and transmit stamps (R459). -/
def Dev.pdelayAnswer (d : Dev) (k : Nat) (req : List Byte) : Dev :=
  if d.role = 3 || d.ethUp k = false || d.bit Reg.ETH_TCCTL 0 = false then d
  else
    let (rns, rsec) := d.clockAt (-(d.fld (Reg.ETH_LAT (k - 1)) 15 0 : Int))
    let (tns, tsec) := d.clockAt (d.fld (Reg.ETH_LAT (k - 1)) 31 16)
    let id := byteNats (slice req 20 12)
    (d.send .eth (256 * k + 0x13) (id ++ [rsec, rns])).send .eth (256 * k + 0x1A) (id ++ [tsec, tns])

/-! ### The ordinary clock (R461, R462) -/

/-- Timer: the last Sync of the selected grandmaster. -/
abbrev Tm.sync : Nat := 48

/-- One list of numbers comes before another. -/
def lexLt : List Nat → List Nat → Bool
  | a :: s, b :: t => a < b || (a = b && lexLt s t)
  | [], _ :: _ => true
  | _, _ => false

/-- The best master of those heard within 3 of their announce intervals: data set, then sender identity
(clause 9.3). -/
def Dev.bestMaster (d : Dev) : Option Nat :=
  (d.eth.masters.foldl (fun (r : Option (Nat × List Nat)) e =>
    match e.2 with
    | some m =>
      if m.seen + 3 * pow2T m.logInt < d.now then r
      else
        match r with
        | some (k, l) => if lexLt (m.data ++ [e.1]) (l ++ [k]) then some (e.1, m.data) else r
        | none => some (e.1, m.data)
    | none => r) none).map (fun p => p.1)

/-- A received Announce of domain `dom` from `sender` enters the comparison. -/
def Dev.announce (d : Dev) (dom sender : Nat) (m : Master) : Dev :=
  if dom != d.pv Par.DOMAIN then d
  else
    let d := { d with eth := { d.eth with masters := putO d.eth.masters sender (some { m with seen := d.now }) } }
    let best := d.bestMaster
    if best = d.eth.gm then d
    else
      let d := { d with eth := { d.eth with gm := best, sync := none, good := 0 } }
      (d.flag Reg.ETH_STAT 6).hw 0xA022 []

/-- The servo's writes of TIM for an offset in ns, unless the program holds TIM; a STEPTH of zero steps never (R12, R37,
R462). -/
def Dev.servoTim (d : Dev) (ofs : Int) (valid : Bool) : Dev :=
  if !d.manages (blockOf Reg.TIM_INC) then d
  else
    let d :=
      if d.pv Par.STEPTH != 0 && decide ((d.pv Par.STEPTH : Int) ≤ ofs.natAbs) then
        let n := -ofs
        (d.timAdjSec (iw (Int.tdiv n 1000000000))).timAdjNs (iw (Int.tmod n 1000000000))
      else
        let integ := d.eth.integ + sx 32 (d.pv Par.KI) * ofs
        let d := { d with eth := { d.eth with integ := integ } }
        let inc := 0x08000000 + integ + sx 32 (d.pv Par.KP) * ofs
        d.timInc (iw (clampI 0 4294967295 inc))
    let n := if ofs.natAbs < d.pv Par.VALTH then satN 8 (d.eth.good + 1) else 0
    let d := { d with eth := { d.eth with good := n } }
    if 8 ≤ n && valid then d.timCtl (withBit (d.rd Reg.TIM_CTL) 1 true) else d

/-- An offset from the selected grandmaster: ETH_OFFSET and ETH_OFSSEQ, and the servo while the clockClass is 6 or 7
(R462).  A shade's clock follows heartbeats instead (R401). -/
def Dev.syncUpdate (d : Dev) (cls seq : Nat) (ofs : Int) : Dev :=
  let d :=
    if !d.manages (blockOf Reg.ETH_CTL) then d
    else (d.wr Reg.ETH_OFFSET (iw (sat32 ofs))).wr Reg.ETH_OFSSEQ (nw (seq % 65536))
  if (cls = 6 || cls = 7) && d.role != 2 then d.servoTim ofs true else d

/-- A Sync of the domain from the selected grandmaster at port `k`: `t1` in ns and `corr` in 2^-16 ns; a two-step one
waits for its Follow_Up (R461, R462). -/
def Dev.syncReceive (d : Dev) (k dom sender seq : Nat) (twoStep : Bool) (t1 corr logInt : Int) : Dev :=
  match getO d.eth.masters sender with
  | none => d
  | some m =>
    if dom != d.pv Par.DOMAIN || d.eth.gm != some sender || d.ncap k then d
    else
      let (ns, sec) := d.clockAt (-(d.fld (Reg.ETH_LAT (k - 1)) 15 0 : Int))
      let t2 : Int := (sec : Int) * 1000000000 + ns
      let d := { d.start Tm.sync with eth := { d.eth with logSync := logInt } }
      if twoStep then { d with eth := { d.eth with sync := some (sender, seq, t2, corr) } }
      else d.syncUpdate m.cls seq (t2 - t1 - sarI corr 16)

/-- The Follow_Up of the Sync that waits. -/
def Dev.followUp (d : Dev) (dom sender seq : Nat) (t1 corr : Int) : Dev :=
  match d.eth.sync, getO d.eth.masters sender with
  | some (s, n, t2, c), some m =>
    if dom != d.pv Par.DOMAIN || s != sender || n != seq || d.eth.gm != some sender then d
    else
      let d := { d with eth := { d.eth with sync := none } }
      d.syncUpdate m.cls seq (t2 - t1 - sarI (c + corr) 16)
  | _, _ => d

/-- No Sync for 3 announced intervals: the servo stops until the next one. -/
def Dev.syncLost (d : Dev) : Dev :=
  if d.running Tm.sync && d.due Tm.sync (3 * pow2T d.eth.logSync) then
    { d.stop Tm.sync with eth := { d.eth with good := 0, sync := none } }
  else d

/-! ### ARP, ICMP, link (R454, R456, R468) -/

/-- The host answers an ARP request for its address, and an ICMP echo to it. -/
def Dev.arp (d : Dev) (sender : Nat) (target : Word) : Dev :=
  if d.hostTx && target.toNat = d.pv Par.IPADDR then d.send .eth 0x0806 [sender, target.toNat] else d

/-- An ICMP echo request of one datagram. -/
def Dev.icmp (d : Dev) (from_ dest : Word) (body : List Byte) : Dev :=
  if d.hostTx && dest.toNat = d.pv Par.IPADDR then d.send .eth 0x0801 (from_.toNat :: byteNats body) else d

/-- The link of port `k` goes up, at 1000BASE-T or 100BASE-TX as ETH_PCFG allows, or down. -/
def Dev.ethLink (d : Dev) (k : Nat) (up gig : Bool) : Dev :=
  if up && !d.bit (Reg.ETH_PCFG (k - 1)) (b2n gig) then d
  else if d.ethUp k = up then d
  else
    let d := d.setBit Reg.ETH_STAT (k - 1) up
    let d := if up then d.setBit Reg.ETH_STAT (1 + k) gig else d
    d.hw 0xA020 [nw k, nw (b2n up)]

/-! ### Angle messages (R45, R48, R465) -/

/-- A message is discarded and counted. -/
def Dev.angRej (d : Dev) : Dev := d.satInc Reg.ETH_ANGREJ 15 0

/-- The local clock in ns at the last TIM_SNAP. -/
def Dev.snapNs (d : Dev) : Int :=
  ((d.rd Reg.TIM_SSEC_LO).toNat + 2 ^ 32 * (d.rd Reg.TIM_SSEC_HI).toNat : Nat) * 1000000000 + (d.rd Reg.TIM_SNS).toNat

/-- The phase error of a message: the angle predicted for the snapshot time less ANG_SANG. -/
def Dev.angError (d : Dev) (tm : Int) (theta : Word) (f : Nat) : Word :=
  theta + iw (quotR ((f : Int) * (d.snapNs - tm) * 4294967296) 1000000000000000) - d.rd Reg.ANG_SANG

/-- A datagram to ETH_ANGPORT: checked, and its phase error goes to ANG_PERR unless the program holds ANG or the
module is a shade. -/
def Dev.angMessage (d : Dev) (l : List Byte) : Dev :=
  let b (i : Nat) : Nat := leNat (slice l i 1)
  let seq := leWord l 4
  let f := leNat (slice l 24 4)
  let tm : Int := (leNat (slice l 8 6) : Int) * 1000000000 + leNat (slice l 16 4)
  let now : Int := (d.tim.sec : Int) * 1000000000 + d.tim.ns
  let old := match d.eth.angSeq with | some x => !seqNewer seq x | none => false
  if l.length != 32 || b 0 != 1 || b 1 % 2 = 0 || leNat (slice l 2 2) != d.pv Par.GRIDPRI || old
      || f < 40000000 || 70000000 < f || now < tm || tm + 100000000 < now || d.bit Reg.TIM_STAT 0 = false then d.angRej
  else
    let d := { d with eth := { d.eth with angSeq := some seq } }
    if !d.manages (blockOf Reg.ANG_PERR) || d.role = 2 then d
    else
      let d := d.timSnap
      d.angPerr (d.angError tm (leWord l 20) f)

/-! ### Commands -/

/-- A frame at port P1 (false) or P2 (true). -/
def execEthFrameReceive (p2 : Bool) (l : List Byte) (fcsOk : Bool) (res : Word) (s : State) :
    Host.Outcome State Fault Refusal :=
  s.lift (fun d => d.ethReceive (1 + b2n p2) l fcsOk res.toNat)

/-- A learned address has aged. -/
def execAddressAgeOut (mac : BitVec 48) (s : State) : Host.Outcome State Fault Refusal :=
  s.lift (fun d => d.ethAge mac.toNat)

/-- A link-delay exchange of a port; `ans` holds t1 to t4 in ns. -/
def execPeerDelayMeasure (p2 : Bool) (ans : Option (Int × Int × Int × Int)) (s : State) :
    Host.Outcome State Fault Refusal :=
  s.lift (fun d => d.peerDelay (1 + b2n p2) ans)

/-- A peer's Pdelay_Req, its message from the PTP header on. -/
def execPdelayReq (p2 : Bool) (req : List Byte) (s : State) : Host.Outcome State Fault Refusal :=
  s.lift (fun d => d.pdelayAnswer (1 + b2n p2) req)

/-- A Sync: port, domain, sender identity, sequence, two-step flag, t1 in ns, correction in 2^-16 ns, interval. -/
def execSync (p2 : Bool) (dom : Byte) (sender : BitVec 80) (seq : BitVec 16) (twoStep : Bool) (t1 corr : Int)
    (logInt : BitVec 8) (s : State) : Host.Outcome State Fault Refusal :=
  s.lift (fun d => d.syncReceive (1 + b2n p2) dom.toNat sender.toNat seq.toNat twoStep t1 corr logInt.toInt)

/-- A Follow_Up: domain, sender identity, sequence, t1 in ns, correction in 2^-16 ns. -/
def execFollowUp (dom : Byte) (sender : BitVec 80) (seq : BitVec 16) (t1 corr : Int) (s : State) :
    Host.Outcome State Fault Refusal :=
  s.lift (fun d => d.followUp dom.toNat sender.toNat seq.toNat t1 corr)

/-- An Announce: domain, sender identity, priority 1, class, accuracy, variance, priority 2, grandmaster identity,
steps removed, interval. -/
def execAnnounce (dom : Byte) (sender : BitVec 80) (p1 cls acc : Byte) (var : BitVec 16) (p2 : Byte) (gm : BitVec 64)
    (steps : BitVec 16) (logInt : BitVec 8) (s : State) : Host.Outcome State Fault Refusal :=
  s.lift (fun d => d.announce dom.toNat sender.toNat
    { data := [p1.toNat, cls.toNat, acc.toNat, var.toNat, p2.toNat, gm.toNat, steps.toNat], cls := cls.toNat, seen := 0, logInt := logInt.toInt })

/-- No Sync for 3 intervals. -/
def execSyncTimeout (s : State) : Host.Outcome State Fault Refusal := s.lift (fun d => d.syncLost)

/-- An ARP request: the sender's address and the address asked for. -/
def execArpRequest (sender : BitVec 48) (target : Word) (s : State) : Host.Outcome State Fault Refusal :=
  s.lift (fun d => d.arp sender.toNat target)

/-- An ICMP echo request. -/
def execIcmpEcho (from_ dest : Word) (body : List Byte) (s : State) : Host.Outcome State Fault Refusal :=
  s.lift (fun d => d.icmp from_ dest body)

/-- A port's link changes. -/
def execEthLinkChange (p2 up gig : Bool) (s : State) : Host.Outcome State Fault Refusal :=
  s.lift (fun d => d.ethLink (1 + b2n p2) up gig)

/-- A datagram to ETH_ANGPORT: its payload. -/
def execAngleMessage (l : List Byte) (s : State) : Host.Outcome State Fault Refusal :=
  s.lift (fun d => d.angMessage l)

end Sys2Proof.Machine
end

