-- ==== Sys2Proof/Machine/Cvx.lean ====
section
/-! DEFINITION. The cell-vector extension (R340 to R351). -/

namespace Sys2Proof.Machine

/-! ### Shared operations -/

/-- A vector instruction: nothing but the next instruction while VL is 0 (R342). -/
def Dev.vop (d : Dev) (p : Pair) (f : CoreSt → CoreSt) : Dev :=
  d.alu p (fun c => if c.vl = 0 then c else f c)

/-- vd := f va s2, lane by lane. -/
def Dev.vvv (d : Dev) (p : Pair) (vd va : VReg) (s2 : VSrc) (k : VMask) (f : Word → Word → Word) : Dev :=
  d.vop p (fun c => c.putLanes vd k (fun i => f (c.lane va i) (c.src2 s2 i)))

/-- The flags of the active lanes, ORed (R345). -/
def CoreSt.laneFlags (c : CoreSt) (k : VMask) (f : Nat → FFlags) : FFlags :=
  (List.range 64).foldl (fun a i => if c.active k i then a ||| f i else a) 0

/-- vd := f in binary32, with the flags of the active lanes. -/
def Dev.vff (d : Dev) (p : Pair) (vd : VReg) (k : VMask) (f : CoreSt → Nat → Nat × FFlags) : Dev :=
  d.vop p (fun c => (c.putLanes vd k (fun i => nw (f c i).1)).fflags (c.laneFlags k (fun i => (f c i).2)))

/-- A compare into a mask. -/
def Dev.vcm (d : Dev) (p : Pair) (md : MReg) (va : VReg) (s2 : VSrc) (k : VMask) (f : Word → Word → Bool) : Dev :=
  d.vop p (fun c => c.putMask md k (fun i => f (c.lane va i) (c.src2 s2 i)))

/-- A floating-point compare into a mask, with flags. -/
def Dev.vfc (d : Dev) (p : Pair) (md : MReg) (va : VReg) (s2 : VSrc) (k : VMask) (f : Nat → Nat → Nat × FFlags) : Dev :=
  d.vop p (fun c =>
    let r := fun i => f (c.lane va i).toNat (c.src2 s2 i).toNat
    (c.putMask md k (fun i => (r i).1 = 1)).fflags (c.laneFlags k (fun i => (r i).2)))

/-- A mask operation. -/
def Dev.vmm (d : Dev) (p : Pair) (md ma mb : MReg) (k : VMask) (f : Bool → Bool → Bool) : Dev :=
  d.vop p (fun c => c.putMask md k (fun i => f (c.mlane ma i) (c.mlane mb i)))

/-- The active lanes, ascending. -/
def CoreSt.lanes (c : CoreSt) (k : VMask) : List Nat := (List.range 64).filter (fun i => c.active k i)

/-- A reduction to one register. -/
def Dev.vred (d : Dev) (p : Pair) (rd : GReg) (k : VMask) (f : CoreSt → List Nat → Word) : Dev :=
  d.vop p (fun c => c.setReg rd (f c (c.lanes k)))

/-- A reduction to a register pair; ILL for an odd wd, while VL is not 0 (R342, R348). -/
def Dev.vredD (d : Dev) (p : Pair) (rd : GReg) (k : VMask) (f : CoreSt → List Nat → Word × Word) : Dev :=
  d.issue p (fun d =>
    let c := d.core p
    if c.vl = 0 then d.setCore p c.next
    else if pairOk rd = false then d.raise p 1 0 none
    else
      let (lo, hi) := f c (c.lanes k)
      d.setCore p ((c.setReg rd lo).setReg (pairHi rd) hi).next)

/-- The extreme value of the lanes and its lowest index; the given values when no lane is active. -/
def extreme (better : Int → Int → Bool) (none_ : Int) : List (Nat × Int) → Int × Word
  | [] => (none_, 0xFFFFFFFF)
  | (i, x) :: t =>
    let r := t.foldl (fun (a : Int × Nat) e => if better e.2 a.1 then (e.2, e.1) else a) (x, i)
    (r.1, nw r.2)

/-- Lanes with their signed values. -/
def CoreSt.signedLanes (c : CoreSt) (v : VReg) (l : List Nat) : List (Nat × Int) :=
  l.map (fun i => (i, (c.lane v i).toInt))

/-! ### Integer and fraction (Table 13.3) -/

/-- VADD, lane by lane. -/
def execVadd (p : Pair) (vd va : VReg) (s2 : VSrc) (k : VMask) (s : State) : Host.Outcome State Fault Refusal :=
  s.lift (fun d => d.vvv p vd va s2 k (fun x y => x + y))

/-- VSUB, lane by lane. -/
def execVsub (p : Pair) (vd va : VReg) (s2 : VSrc) (k : VMask) (s : State) : Host.Outcome State Fault Refusal :=
  s.lift (fun d => d.vvv p vd va s2 k (fun x y => x - y))

/-- VAND, lane by lane. -/
def execVand (p : Pair) (vd va : VReg) (s2 : VSrc) (k : VMask) (s : State) : Host.Outcome State Fault Refusal :=
  s.lift (fun d => d.vvv p vd va s2 k (fun x y => x &&& y))

/-- VOR, lane by lane. -/
def execVor (p : Pair) (vd va : VReg) (s2 : VSrc) (k : VMask) (s : State) : Host.Outcome State Fault Refusal :=
  s.lift (fun d => d.vvv p vd va s2 k (fun x y => x ||| y))

/-- VXOR, lane by lane. -/
def execVxor (p : Pair) (vd va : VReg) (s2 : VSrc) (k : VMask) (s : State) : Host.Outcome State Fault Refusal :=
  s.lift (fun d => d.vvv p vd va s2 k (fun x y => x ^^^ y))

/-- VSLL, lane by lane. -/
def execVsll (p : Pair) (vd va : VReg) (s2 : VSrc) (k : VMask) (s : State) : Host.Outcome State Fault Refusal :=
  s.lift (fun d => d.vvv p vd va s2 k (fun x y => x <<< (y.toNat % 32)))

/-- VSRL, lane by lane. -/
def execVsrl (p : Pair) (vd va : VReg) (s2 : VSrc) (k : VMask) (s : State) : Host.Outcome State Fault Refusal :=
  s.lift (fun d => d.vvv p vd va s2 k (fun x y => x >>> (y.toNat % 32)))

/-- VSRA, lane by lane. -/
def execVsra (p : Pair) (vd va : VReg) (s2 : VSrc) (k : VMask) (s : State) : Host.Outcome State Fault Refusal :=
  s.lift (fun d => d.vvv p vd va s2 k (fun x y => x.sshiftRight (y.toNat % 32)))

/-- VMIN, lane by lane. -/
def execVmin (p : Pair) (vd va : VReg) (s2 : VSrc) (k : VMask) (s : State) : Host.Outcome State Fault Refusal :=
  s.lift (fun d => d.vvv p vd va s2 k (fun x y => pickMin BitVec.slt x y))

/-- VMAX, lane by lane. -/
def execVmax (p : Pair) (vd va : VReg) (s2 : VSrc) (k : VMask) (s : State) : Host.Outcome State Fault Refusal :=
  s.lift (fun d => d.vvv p vd va s2 k (fun x y => pickMax BitVec.slt x y))

/-- VMINU, lane by lane. -/
def execVminu (p : Pair) (vd va : VReg) (s2 : VSrc) (k : VMask) (s : State) : Host.Outcome State Fault Refusal :=
  s.lift (fun d => d.vvv p vd va s2 k (fun x y => pickMin BitVec.ult x y))

/-- VMAXU, lane by lane. -/
def execVmaxu (p : Pair) (vd va : VReg) (s2 : VSrc) (k : VMask) (s : State) : Host.Outcome State Fault Refusal :=
  s.lift (fun d => d.vvv p vd va s2 k (fun x y => pickMax BitVec.ult x y))

/-- VADDS, lane by lane. -/
def execVadds (p : Pair) (vd va : VReg) (s2 : VSrc) (k : VMask) (s : State) : Host.Outcome State Fault Refusal :=
  s.lift (fun d => d.vvv p vd va s2 k (fun x y => iw (sat32 (x.toInt + y.toInt))))

/-- VSUBS, lane by lane. -/
def execVsubs (p : Pair) (vd va : VReg) (s2 : VSrc) (k : VMask) (s : State) : Host.Outcome State Fault Refusal :=
  s.lift (fun d => d.vvv p vd va s2 k (fun x y => iw (sat32 (x.toInt - y.toInt))))

/-- VMUL, lane by lane. -/
def execVmul (p : Pair) (vd va : VReg) (s2 : VSrc) (k : VMask) (s : State) : Host.Outcome State Fault Refusal :=
  s.lift (fun d => d.vvv p vd va s2 k (fun x y => x * y))

/-- VMULH, lane by lane. -/
def execVmulh (p : Pair) (vd va : VReg) (s2 : VSrc) (k : VMask) (s : State) : Host.Outcome State Fault Refusal :=
  s.lift (fun d => d.vvv p vd va s2 k (fun x y => iw ((x.toInt * y.toInt) / 4294967296)))

/-- VQMUL31, lane by lane. -/
def execVqmul31 (p : Pair) (vd va : VReg) (s2 : VSrc) (k : VMask) (s : State) : Host.Outcome State Fault Refusal :=
  s.lift (fun d => d.vvv p vd va s2 k (fun x y => iw (qmul31 x y)))

/-- VQMAC31, with vd as accumulator. -/
def execVqmac31 (p : Pair) (vd va : VReg) (s2 : VSrc) (k : VMask) (s : State) : Host.Outcome State Fault Refusal :=
  s.lift (fun d => d.vop p (fun c => c.putLanes vd k (fun i =>
    iw (sat32 ((c.lane vd i).toInt + qmul31 (c.lane va i) (c.src2 s2 i))))))

/-- VMV: vd := s2. -/
def execVmv (p : Pair) (vd : VReg) (s2 : VSrc) (k : VMask) (s : State) : Host.Outcome State Fault Refusal :=
  s.lift (fun d => d.vop p (fun c => c.putLanes vd k (fun i => c.src2 s2 i)))

/-- VSEL: vd := va where m[MI] is 1, else s2; every lane below VL is written. -/
def execVsel (p : Pair) (vd va : VReg) (s2 : VSrc) (mi : MReg) (s : State) : Host.Outcome State Fault Refusal :=
  s.lift (fun d => d.vop p (fun c => c.putLanes vd { me := false, mi := mi } (fun i =>
    if c.mlane mi i then c.lane va i else c.src2 s2 i)))

/-- VIOTA: vd := lane index. -/
def execViota (p : Pair) (vd : VReg) (k : VMask) (s : State) : Host.Outcome State Fault Refusal :=
  s.lift (fun d => d.vop p (fun c => c.putLanes vd k (fun i => nw i)))

/-! ### binary32 (Table 13.4, R345) -/

/-- VFADD, lane by lane. -/
def execVfadd (p : Pair) (vd va : VReg) (s2 : VSrc) (k : VMask) (s : State) : Host.Outcome State Fault Refusal :=
  s.lift (fun d => d.vff p vd k (fun c i => f32.add c.rm (c.lane va i).toNat (c.src2 s2 i).toNat))

/-- VFSUB, lane by lane. -/
def execVfsub (p : Pair) (vd va : VReg) (s2 : VSrc) (k : VMask) (s : State) : Host.Outcome State Fault Refusal :=
  s.lift (fun d => d.vff p vd k (fun c i => f32.sub c.rm (c.lane va i).toNat (c.src2 s2 i).toNat))

/-- VFMUL, lane by lane. -/
def execVfmul (p : Pair) (vd va : VReg) (s2 : VSrc) (k : VMask) (s : State) : Host.Outcome State Fault Refusal :=
  s.lift (fun d => d.vff p vd k (fun c i => f32.mul c.rm (c.lane va i).toNat (c.src2 s2 i).toNat))

/-- VFDIV, lane by lane. -/
def execVfdiv (p : Pair) (vd va : VReg) (s2 : VSrc) (k : VMask) (s : State) : Host.Outcome State Fault Refusal :=
  s.lift (fun d => d.vff p vd k (fun c i => f32.div c.rm (c.lane va i).toNat (c.src2 s2 i).toNat))

/-- VFMIN, lane by lane. -/
def execVfmin (p : Pair) (vd va : VReg) (s2 : VSrc) (k : VMask) (s : State) : Host.Outcome State Fault Refusal :=
  s.lift (fun d => d.vff p vd k (fun c i => f32.minmax false (c.lane va i).toNat (c.src2 s2 i).toNat))

/-- VFMAX, lane by lane. -/
def execVfmax (p : Pair) (vd va : VReg) (s2 : VSrc) (k : VMask) (s : State) : Host.Outcome State Fault Refusal :=
  s.lift (fun d => d.vff p vd k (fun c i => f32.minmax true (c.lane va i).toNat (c.src2 s2 i).toNat))

/-- VFMADD, lane by lane. -/
def execVfmadd (p : Pair) (vd va : VReg) (s2 : VSrc) (k : VMask) (s : State) : Host.Outcome State Fault Refusal :=
  s.lift (fun d => d.vff p vd k (fun c i => f32.fma c.rm (c.lane vd i).toNat (c.lane va i).toNat (c.src2 s2 i).toNat))

/-- VFSQRT, lane by lane. -/
def execVfsqrt (p : Pair) (vd va : VReg) (k : VMask) (s : State) : Host.Outcome State Fault Refusal :=
  s.lift (fun d => d.vff p vd k (fun c i => f32.sqrt c.rm (c.lane va i).toNat))

/-- VFCVTWS, lane by lane. -/
def execVfcvtws (p : Pair) (vd va : VReg) (k : VMask) (s : State) : Host.Outcome State Fault Refusal :=
  s.lift (fun d => d.vff p vd k (fun c i => let (r, fl) := f32.toInt (c.lane va i).toNat; (r.toNat, fl)))

/-- VFCVTSW, lane by lane. -/
def execVfcvtsw (p : Pair) (vd va : VReg) (k : VMask) (s : State) : Host.Outcome State Fault Refusal :=
  s.lift (fun d => d.vff p vd k (fun c i => f32.ofInt c.rm (c.lane va i).toInt))

/-- VFNEG, lane by lane. -/
def execVfneg (p : Pair) (vd va : VReg) (k : VMask) (s : State) : Host.Outcome State Fault Refusal :=
  s.lift (fun d => d.vff p vd k (fun c i => (f32.neg (c.lane va i).toNat, 0)))

/-- VFABS, lane by lane. -/
def execVfabs (p : Pair) (vd va : VReg) (k : VMask) (s : State) : Host.Outcome State Fault Refusal :=
  s.lift (fun d => d.vff p vd k (fun c i => (f32.abs (c.lane va i).toNat, 0)))

/-! ### Compares and masks (Table 13.5) -/

/-- VCEQ into a mask. -/
def execVceq (p : Pair) (md : MReg) (va : VReg) (s2 : VSrc) (k : VMask) (s : State) : Host.Outcome State Fault Refusal :=
  s.lift (fun d => d.vcm p md va s2 k (fun x y => x == y))

/-- VCNE into a mask. -/
def execVcne (p : Pair) (md : MReg) (va : VReg) (s2 : VSrc) (k : VMask) (s : State) : Host.Outcome State Fault Refusal :=
  s.lift (fun d => d.vcm p md va s2 k (fun x y => x != y))

/-- VCLT into a mask. -/
def execVclt (p : Pair) (md : MReg) (va : VReg) (s2 : VSrc) (k : VMask) (s : State) : Host.Outcome State Fault Refusal :=
  s.lift (fun d => d.vcm p md va s2 k (fun x y => x.slt y))

/-- VCGE into a mask. -/
def execVcge (p : Pair) (md : MReg) (va : VReg) (s2 : VSrc) (k : VMask) (s : State) : Host.Outcome State Fault Refusal :=
  s.lift (fun d => d.vcm p md va s2 k (fun x y => !x.slt y))

/-- VCLTU into a mask. -/
def execVcltu (p : Pair) (md : MReg) (va : VReg) (s2 : VSrc) (k : VMask) (s : State) : Host.Outcome State Fault Refusal :=
  s.lift (fun d => d.vcm p md va s2 k (fun x y => x.ult y))

/-- VCGEU into a mask. -/
def execVcgeu (p : Pair) (md : MReg) (va : VReg) (s2 : VSrc) (k : VMask) (s : State) : Host.Outcome State Fault Refusal :=
  s.lift (fun d => d.vcm p md va s2 k (fun x y => !x.ult y))

/-- VFCEQ into a mask. -/
def execVfceq (p : Pair) (md : MReg) (va : VReg) (s2 : VSrc) (k : VMask) (s : State) : Host.Outcome State Fault Refusal :=
  s.lift (fun d => d.vfc p md va s2 k (fun x y => f32.eq x y))

/-- VFCLT into a mask. -/
def execVfclt (p : Pair) (md : MReg) (va : VReg) (s2 : VSrc) (k : VMask) (s : State) : Host.Outcome State Fault Refusal :=
  s.lift (fun d => d.vfc p md va s2 k (fun x y => f32.lt false x y))

/-- VFCLE into a mask. -/
def execVfcle (p : Pair) (md : MReg) (va : VReg) (s2 : VSrc) (k : VMask) (s : State) : Host.Outcome State Fault Refusal :=
  s.lift (fun d => d.vfc p md va s2 k (fun x y => f32.lt true x y))

/-- MAND. -/
def execMand (p : Pair) (md ma mb : MReg) (k : VMask) (s : State) : Host.Outcome State Fault Refusal :=
  s.lift (fun d => d.vmm p md ma mb k (fun x y => x && y))

/-- MOR. -/
def execMor (p : Pair) (md ma mb : MReg) (k : VMask) (s : State) : Host.Outcome State Fault Refusal :=
  s.lift (fun d => d.vmm p md ma mb k (fun x y => x || y))

/-- MANDN. -/
def execMandn (p : Pair) (md ma mb : MReg) (k : VMask) (s : State) : Host.Outcome State Fault Refusal :=
  s.lift (fun d => d.vmm p md ma mb k (fun x y => x && !y))

/-- MNOT. -/
def execMnot (p : Pair) (md ma : MReg) (k : VMask) (s : State) : Host.Outcome State Fault Refusal :=
  s.lift (fun d => d.vmm p md ma ma k (fun x _ => !x))

/-! ### Vector length and mask moves (Table 13.6) -/

/-- VSETVL: VL := min(wa, 64); wd := VL. -/
def execVsetvl (p : Pair) (rd ra : GReg) (s : State) : Host.Outcome State Fault Refusal :=
  s.lift (fun d => d.alu p (fun c =>
    let n := min (c.reg ra).toNat 64
    { c with vl := n }.setReg rd (nw n)))

/-- VGETVL: wd := VL. -/
def execVgetvl (p : Pair) (rd : GReg) (s : State) : Host.Outcome State Fault Refusal :=
  s.lift (fun d => d.alu p (fun c => c.setReg rd (nw c.vl)))

/-- VMRD: pair wd := the mask's lanes; ILL for an odd wd or w0 (R344). -/
def execVmrd (p : Pair) (rd : GReg) (mv : MReg) (s : State) : Host.Outcome State Fault Refusal :=
  s.lift (fun d => d.aluIf p (pairOk rd) (fun c => c.setRegD rd (c.m[mv.toNat]).toNat))

/-- VMWR: the mask := pair wa, all 64 lanes; ILL for an odd wa or w0 (R344). -/
def execVmwr (p : Pair) (ra : GReg) (mv : MReg) (s : State) : Host.Outcome State Fault Refusal :=
  s.lift (fun d => d.aluIf p (pairOk ra) (fun c => { c with m := c.m.set mv.toNat (BitVec.ofNat 64 (c.regD ra)) }))

/-! ### Reductions (R348) -/

/-- VREDADD: signed 64-bit sum into a pair. -/
def execVredadd (p : Pair) (rd : GReg) (v : VReg) (k : VMask) (s : State) : Host.Outcome State Fault Refusal :=
  s.lift (fun d => d.vredD p rd k (fun c l =>
    let t := (c.signedLanes v l).foldl (fun a e => a + e.2) 0
    (iw t, iw (t / 4294967296))))

/-- VREDMIN: signed minimum. -/
def execVredmin (p : Pair) (rd : GReg) (v : VReg) (k : VMask) (s : State) : Host.Outcome State Fault Refusal :=
  s.lift (fun d => d.vred p rd k (fun c l => iw (extreme (fun x y => x < y) 2147483647 (c.signedLanes v l)).1))

/-- VREDMAX: signed maximum. -/
def execVredmax (p : Pair) (rd : GReg) (v : VReg) (k : VMask) (s : State) : Host.Outcome State Fault Refusal :=
  s.lift (fun d => d.vred p rd k (fun c l => iw (extreme (fun x y => y < x) (-2147483648) (c.signedLanes v l)).1))

/-- VREDFADD: the active lanes added in ascending order from +0.0, each addition rounded; the flags are ORed. -/
def execVredfadd (p : Pair) (rd : GReg) (v : VReg) (k : VMask) (s : State) : Host.Outcome State Fault Refusal :=
  s.lift (fun d => d.vop p (fun c =>
    let r := (c.lanes k).foldl (fun (a : Nat × FFlags) i =>
      let (x, fl) := f32.add c.rm a.1 (c.lane v i).toNat
      (x, a.2 ||| fl)) (0, 0)
    (c.setReg rd (nw r.1)).fflags r.2))

/-- VMINI: signed minimum and its lowest lane index. -/
def execVmini (p : Pair) (rd : GReg) (v : VReg) (k : VMask) (s : State) : Host.Outcome State Fault Refusal :=
  s.lift (fun d => d.vredD p rd k (fun c l =>
    let (x, i) := extreme (fun x y => x < y) 2147483647 (c.signedLanes v l)
    (iw x, i)))

/-- VMAXI: signed maximum and its lowest lane index. -/
def execVmaxi (p : Pair) (rd : GReg) (v : VReg) (k : VMask) (s : State) : Host.Outcome State Fault Refusal :=
  s.lift (fun d => d.vredD p rd k (fun c l =>
    let (x, i) := extreme (fun x y => y < x) (-2147483648) (c.signedLanes v l)
    (iw x, i)))

/-! ### Memory (R346, R347) -/

/-- The bus exception of one lane: the peripheral region is refused with sub-code 1. -/
def laneBus (kind a : Nat) : Option (Nat × Nat) :=
  if isPeriph a then some (6, 1) else busFault kind a 4

/-- What one lane access raises; `some none` a suppressed one. -/
def Dev.laneFault (d : Dev) (p : Pair) (kind a : Nat) : Option (Option (Nat × Nat)) :=
  if a % 4 != 0 then some (some (4, 0))
  else if d.regionOk p (d.core p).user kind a = false then some (some (5, 1))
  else if d.fuseDenies (d.core p).user a then some (some (5, 4))
  else if kind = kLoad && (d.core p).suppressed a then some none
  else
    (laneBus kind a).map some

/-- The exception a vector access raises.  Regions, alignment and the map are checked of every lane before any is read:
the first in the order of R322 among the lanes that fail, with the address of the lowest failing lane (R346); else the
lowest lane that meets an uncorrectable error. -/
def Dev.vecFault (d : Dev) (p : Pair) (kind : Nat) (l : List (Nat × Nat)) : Option (Nat × (Nat × Nat)) :=
  let bad := l.filterMap (fun e => match d.laneFault p kind e.2 with | some (some x) => some (e.2, x) | _ => none)
  match bad with
  | [] =>
    (l.find? (fun e => (d.laneFault p kind e.2).isNone && (d.eccFault kind e.2 4).isSome)).map (fun e => (e.2, (7, 2)))
  | (a, x) :: t => some (a, t.foldl (fun m e => if e.2.1 < m.1 then e.2 else m) x)

/-- A vector access: the checks of every active lane, then `f`. -/
def Dev.vecAccess (d : Dev) (p : Pair) (kind : Nat) (k : VMask) (addr : CoreSt → Nat → Nat)
    (f : Dev → List (Nat × Nat) → Dev) : Dev :=
  d.issue p (fun d =>
    let c := d.core p
    if c.vl = 0 then d.setCore p c.next
    else
      let l := (c.lanes k).map (fun i => (i, addr c i))
      match d.vecFault p kind l with
      | some (a, x) => d.dataRaise p kind a x
      | none => f d l)

/-- The lowest address of the suppressed lanes sets LR (R347). -/
def CoreSt.lanesLR (c : CoreSt) (l : List (Nat × Nat)) : CoreSt :=
  match l.filter (fun e => c.suppressed e.2) with
  | [] => c
  | e :: t => c.setLR (t.foldl (fun a x => min a x.2) e.2)

/-- The single-bit errors that the lanes read are corrected and counted. -/
def Dev.lanesCorrected (d : Dev) (p : Pair) (l : List (Nat × Nat)) : Dev :=
  l.foldl (fun (d : Dev) e => if (d.core p).suppressed e.2 then d else d.corrected e.2 4) d

/-- A vector load or gather into `v`: suppressed lanes receive zero and set LR (R347). -/
def Dev.vecLoad (d : Dev) (p : Pair) (v : VReg) (k : VMask) (addr : CoreSt → Nat → Nat) : Dev :=
  d.vecAccess p kLoad k addr (fun d l =>
    let d := d.lanesCorrected p l
    let c := d.core p
    d.setCore p ((c.lanesLR l).putLanes v k (fun i => if c.suppressed (addr c i) then 0 else d.word (addr c i))).next)

/-- A vector store or scatter from `v`, in ascending lane order. -/
def Dev.vecStore (d : Dev) (p : Pair) (v : VReg) (k : VMask) (addr : CoreSt → Nat → Nat) : Dev :=
  d.vecAccess p kStore k addr (fun d l =>
    let c := d.core p
    let d := l.foldl (fun d e => d.sramStore p e.2 (leBytes 4 (c.lane v e.1).toNat)) d
    d.setCore p (d.core p).next)

/-- VLD: v lane i := word at wa + 4i. -/
def execVld (p : Pair) (v : VReg) (ra : GReg) (k : VMask) (s : State) : Host.Outcome State Fault Refusal :=
  s.lift (fun d => d.vecLoad p v k (fun c i => (c.reg ra + nw (4 * i)).toNat))

/-- VST: word at wa + 4i := v lane i. -/
def execVst (p : Pair) (v : VReg) (ra : GReg) (k : VMask) (s : State) : Host.Outcome State Fault Refusal :=
  s.lift (fun d => d.vecStore p v k (fun c i => (c.reg ra + nw (4 * i)).toNat))

/-- VGATH: v lane i := word at wa + 4 * index lane i. -/
def execVgath (p : Pair) (v iv : VReg) (ra : GReg) (k : VMask) (s : State) : Host.Outcome State Fault Refusal :=
  s.lift (fun d => d.vecLoad p v k (fun c i => (c.reg ra + (c.lane iv i <<< 2)).toNat))

/-- VSCAT: word at wa + 4 * index lane i := v lane i. -/
def execVscat (p : Pair) (v iv : VReg) (ra : GReg) (k : VMask) (s : State) : Host.Outcome State Fault Refusal :=
  s.lift (fun d => d.vecStore p v k (fun c i => (c.reg ra + (c.lane iv i <<< 2)).toNat))

/-! ### Table interpolation (R349, R350) -/

/-- A table as its words give it: points, columns, breakpoints X, column temperatures, values Y (Table 7.1). -/
structure ITable where
  np : Nat
  nt : Nat
  x : Nat → Int
  t : Nat → Int
  y : Nat → Nat → Int

/-- The table whose word at offset 4i is `w i`. -/
def tableOf (w : Nat → Word) : ITable where
  np := min (fieldOf (w 0) 7 0) 64
  nt := min (fieldOf (w 0) 15 8) 8
  x := fun p => (w (8 + p)).toInt
  t := fun c => sx 16 (fieldOf (w (1 + c / 2)) (16 * (c % 2) + 15) (16 * (c % 2)))
  y := fun p c => (w (72 + 8 * p + c)).toInt

/-- The largest index below `n` with `f i` at most `u`; 0 when none. -/
def lastLe (f : Nat → Int) (u : Int) (n : Nat) : Nat :=
  (List.range n).foldl (fun r i => if f i ≤ u then i else r) 0

/-- Interpolation, or for `inv` inversion, at `u` in column coordinate `t`: the result and the flag (R349). -/
def ITable.eval (tb : ITable) (inv : Bool) (u t : Int) : Word × Bool :=
  if tb.np = 0 || tb.nt = 0 then (0, true)
  else
    let (c, f) : Nat × Int :=
      if tb.nt = 1 || t ≤ tb.t 0 then (0, 0)
      else if tb.t (tb.nt - 1) ≤ t then (tb.nt - 1, 0)
      else
        let c := lastLe tb.t t tb.nt
        (c, (t - tb.t c) * 65536 / (tb.t (c + 1) - tb.t c))
    let col : Nat → Int := fun p =>
      if f = 0 then tb.y p c else tb.y p c + sarI (f * (tb.y p (c + 1) - tb.y p c) + 32768) 16
    let sarr := if inv then col else tb.x
    let oarr := if inv then tb.x else col
    let flag : Bool := u < sarr 0 || sarr (tb.np - 1) < u
    let p := lastLe sarr u tb.np
    let g : Int :=
      if p = tb.np - 1 || u < sarr 0 || sarr (p + 1) ≤ sarr p then 0
      else (u - sarr p) * 65536 / (sarr (p + 1) - sarr p)
    let r := if g = 0 then oarr p else oarr p + sarI (g * (oarr (p + 1) - oarr p) + 32768) 16
    (iw (sat32 r), flag)

/-- A table instruction: the 2,340 bytes of the table are loads of the pair; a table outside program-pair SRAM
reads as zero in step (DEDUCED: log entry 21). -/
def Dev.vtab (d : Dev) (p : Pair) (vd va : VReg) (wb : GReg) (k : VMask) (inv : Bool) : Dev :=
  d.issue p (fun d =>
    let c := d.core p
    if c.vl = 0 then d.setCore p c.next
    else
      let base := (c.reg wb).toNat
      let l := if (c.lanes k).isEmpty then [] else (List.range 585).map (fun i => (i, (base + 4 * i) % 2 ^ 32))
      match d.vecFault p kLoad l with
      | some (a, x) => d.dataRaise p kLoad a x
      | none =>
        let d := d.lanesCorrected p l
        let tb := tableOf (fun i => let a := (base + 4 * i) % 2 ^ 32; if c.suppressed a then 0 else d.word a)
        let r := fun i => tb.eval inv (c.lane va i).toInt (c.lane vd i).toInt
        let out := (c.lanesLR l).setLanes vd (fun i => if c.active k i then (r i).1 else c.lane vd i)
        d.setCore p { out with m := out.m.set 3 (maskOf (fun i => c.active k i && (r i).2)) }.next)

/-- VINTERP: vd := table value at (va, vd), table at wb. -/
def execVinterp (p : Pair) (vd va : VReg) (wb : GReg) (k : VMask) (s : State) : Host.Outcome State Fault Refusal :=
  s.lift (fun d => d.vtab p vd va wb k false)

/-- VINVERT: vd := inverse of the table at (va, vd), table at wb. -/
def execVinvert (p : Pair) (vd va : VReg) (wb : GReg) (k : VMask) (s : State) : Host.Outcome State Fault Refusal :=
  s.lift (fun d => d.vtab p vd va wb k true)

end Sys2Proof.Machine
end

