-- ==== Sys2Proof/Machine/Dsp.lean ====
section
/-! DEFINITION. Dispatch: the mailbox, the reference, the plant profile, rest rotation and the local step profile (R266
to R280). -/

namespace Sys2Proof.Machine

/-- The block number of DSP. -/
def dspBlock : Nat := blockOf Reg.DSP_CTL

/-- System firmware runs dispatch: full service, and the program has not claimed DSP (R277). -/
def Dev.dspBasic (d : Dev) : Bool := d.pwr.full && d.manages dspBlock

/-! ### The mailbox (R266, R267, R270) -/

/-- Word `w` of slot `m` as it stands in the mailbox. -/
def Dev.mbW (d : Dev) (m w : Nat) : Word := d.rd (Reg.DSP_MB m w)

/-- The full seconds of T: those with the given low 32 bits that lie nearest the local clock. -/
def Dev.fullSec (d : Dev) (tsec : Word) : Nat :=
  (((d.tim.sec : Int) + sx 32 (tsec.toNat + 2 ^ 32 - d.tim.sec % 2 ^ 32)) % (2 ^ 48 : Nat)).toNat

/-- T of slot `m` in ns. -/
def Dev.mbTime (d : Dev) (m : Nat) : Nat := getN d.dsp.tfull m * 1000000000 + fieldOf (d.mbW m 3) 29 0

/-- The local clock in ns. -/
def Dev.localNs (d : Dev) : Nat := d.tim.sec * 1000000000 + d.tim.ns

/-- Slot `m` gets result `code`; a rejection clears VALID, sets REJ and makes entry 0x6001. -/
def Dev.mbReject (d : Dev) (m code : Nat) : Dev :=
  let d := d.wr (Reg.DSP_MB m 0) (withField (withBit (d.mbW m 0) 31 false) 23 16 code)
  (d.flag Reg.DSP_STAT 1).hw 0x6001 [nw m, nw code]

/-- The check of a commit: the code of its rejection, or none (R266, Table 10.1). -/
def Dev.mbCheck (d : Dev) (m : Nat) (reserved : Bool) : Option Nat :=
  if reserved then some 6
  else if bitOf (d.mbW m 0) 29 = false then none
  else if d.bit Reg.TIM_STAT 0 = false then some 4
  else
    let t := d.mbTime m
    if t + 1000000 * d.fld Reg.DSP_TWIN 31 16 < d.localNs then some 3
    else if d.localNs + 1000000000 * d.fld Reg.DSP_TWIN 15 0 < t then some 6
    else none

/-- A commit of slot `m` by word 0 `v`; the staged words are taken, the timer of R270 restarts, and a duty forwards
the slot as it was committed to its shade, whose own check then answers alike (R266, R270, R273, R401). -/
def Dev.mbCommit (d : Dev) (m : Nat) (v : Word) : Dev :=
  let old := d.mbW m 0
  let d := if bitOf old 31 then (d.flag Reg.DSP_STAT 2).hw 0x6003 [nw m] else d
  let st (w : Nat) : Word := (getO d.dsp.stage (4 * m + w)).getD (d.mbW m w)
  let raw := [v, st 1, st 2, st 3]
  let reserved := fieldOf v 28 24 != 0 || fieldOf (st 3) 31 30 != 0
  let words := [v &&& 0xE000FFFF, st 1, st 2, st 3 &&& 0x3FFFFFFF]
  let d := (List.range 4).foldl (fun (d : Dev) w => d.wr (Reg.DSP_MB m w) ((words[w]?).getD 0)) d
  let stage := (List.range 4).foldl (fun l w => putO l (4 * m + w) none) d.dsp.stage
  let d := { d with dsp := { d.dsp with stage := stage, tfull := putN d.dsp.tfull m (d.fullSec (d.mbW m 2)) } }
  let d := (d.setBit Reg.DSP_STAT 4 false).start Tm.mailbox
  let d := if d.hasShade then (d.send .twin 0x08 ([m, 0, 0, 0] ++ byteNats (wordsBytes raw))).cue 4 m else d
  let d := match d.mbCheck m reserved with | some c => d.mbReject m c | none => d
  d.reform

/-- A write to word `w` of slot `m`; a shade takes commits on cues alone (R401). -/
def Dev.mbWrite (d : Dev) (m w : Nat) (v : Word) : Dev :=
  if d.role = 2 then d
  else if w = 0 then
    if bitOf v 31 then d.mbCommit m v else d.plainWrite (Reg.DSP_MB m 0) v
  else { d with dsp := { d.dsp with stage := putO d.dsp.stage (4 * m + w) (some v) } }

/-- Timetable action 0x04: slot `m` applies when VALID is 1 and its time has come (R267). -/
def Dev.mbApply (d : Dev) (m : Nat) : Dev :=
  let w0 := d.mbW m 0
  if bitOf w0 31 = false then d
  else if bitOf w0 29 && d.localNs < d.mbTime m then d
  else if bitOf w0 29 && d.bit Reg.TIM_STAT 0 = false then d.mbReject m 4
  else
    let d := d.wr Reg.DSP_REQ (d.mbW m 1)
    let d := { d with dsp := { d.dsp with power := bitOf w0 30 } }
    let d := d.wr Reg.DSP_APPL (nw (b2n (bitOf w0 30) * 2 ^ 18 + m * 2 ^ 16 + fieldOf w0 15 0))
    let (i, pcl, _) := d.wanted
    let clamped := pcl || d.clampCur i != i
    let d := d.wr (Reg.DSP_MB m 0) (withField (withBit w0 31 false) 23 16 (if clamped then 2 else 1))
    d.reform.injReduce

/-- DSP_MBTO has passed without a commit: MBTO, entry 0x6004, and I_t is zero (R270). -/
def Dev.mbTimeout (d : Dev) : Dev :=
  let n := d.fld Reg.DSP_MBTO 15 0
  if n != 0 && d.bit Reg.DSP_STAT 4 = false && d.due Tm.mailbox (msT n) then
    ((d.flag Reg.DSP_STAT 4).hw 0x6004 []).reform
  else d

/-! ### Rest rotation (R274, R275) -/

/-- DSP_ROT.STATE. -/
def Dev.rotState (d : Dev) : Nat := d.fld Reg.DSP_ROT 2 0

/-- The window of a rotation in s. -/
def Dev.rotWindow (d : Dev) : Nat := d.pv Par.TRELAX + 300

/-- ROTREQ is sent. -/
def Dev.rotAsk (d : Dev) : Dev :=
  (d.plantSend 0x20 (leBytes 2 d.dsp.rid ++ leBytes 2 d.rotWindow)).start Tm.rotReq

/-- EST_REQ.ROT is 1 in IDLE: a new RID and ROTREQ, or a refusal at once without a converter or with a ROTTO of zero. -/
def Dev.rotStart (d : Dev) : Dev :=
  if d.dspBasic = false || d.leads = false || d.rotState != 0 || d.bit Reg.EST_REQ 0 = false then d
  else
    let d := { d with dsp := { d.dsp with rid := (d.dsp.rid + 1) % 65536 } }
    if d.bit Reg.DSP_CTL 3 then (d.fw 0x6011 [nw 5]).rotIdle 5
    else
      let d := (d.rotSet 1 0).rotAsk.start Tm.rotWin
      if d.fld Reg.DSP_ROTTO 15 0 = 0 then (d.fw 0x6011 [nw 1]).rotIdle 1 else d

/-- RETURN ends when CE_DSPREF has reached I_t. -/
def Dev.rotReturn (d : Dev) : Dev :=
  if d.dspBasic && d.rotBack then
    (d.rotIdle d.dsp.rotReason).rotStart
  else d

/-- ROTREPLY: 1 grant, 2 refuse, 3 cancel; another RID is ignored (R274). -/
def Dev.rotReply (d : Dev) (rid decision : Nat) : Dev :=
  if d.dspBasic = false || d.leads = false || rid != d.dsp.rid then d
  else if d.rotState = 1 && decision = 1 then
    ((d.fw 0x6010 []).rotSet 2 0).start Tm.rotWin
  else if d.rotState = 1 && decision = 2 then ((d.fw 0x6011 [nw 1]).rotIdle 1).rotStart
  else if d.rotState = 3 && decision = 3 then ((d.fw 0x6012 [nw 3]).rotSet 4 3).rotReturn
  else d

/-- ROTREQ is repeated every 10 s in REQUESTED. -/
def Dev.rotRepeat (d : Dev) : Dev :=
  if d.dspBasic && d.leads && d.rotState = 1 && d.due Tm.rotReq (secT 10) then d.rotAsk.rotStart else d

/-- No reply for DSP_ROTTO. -/
def Dev.rotTimeout (d : Dev) : Dev :=
  if d.dspBasic && d.leads && d.rotState = 1 && d.due Tm.rotWin (secT (d.fld Reg.DSP_ROTTO 15 0)) then
    ((d.fw 0x6011 [nw 2]).rotIdle 2).rotStart
  else d

/-- The window has run from the grant: RETURN. -/
def Dev.rotWinEnd (d : Dev) : Dev :=
  if d.dspBasic && d.rotState = 3 && d.due Tm.rotWin (secT d.rotWindow) then (d.rotSet 4 0).rotReturn else d

/-! ### The reference (R269) -/

/-- The next value of CE_DSPREF: toward I_t by at most DSP_SLEW, or DSP_ROTSLEW in RAMPDOWN and RETURN; zero sets no
limit. -/
def Dev.slewNext (d : Dev) : Int :=
  let rate : Int := d.fld (if d.rotState = 2 || d.rotState = 4 then Reg.DSP_ROTSLEW else Reg.DSP_SLEW) 23 0
  let cur := d.rdI Reg.CE_DSPREF
  let t := d.rdI Reg.DSP_TARGET
  if rate = 0 then t else cur + clampI (-rate) rate (t - cur)

/-- One microsecond: CE_DSPREF moves toward I_t unless the program has claimed CE, RAMPDOWN ends at zero, and RETURN
when I_t is reached. -/
def Dev.slew (d : Dev) : Dev :=
  let d := if !d.manages (blockOf Reg.CE_CTL) then d else (d.wr Reg.CE_DSPREF (iw d.slewNext)).slewing
  let d := if d.dspBasic && d.rotState = 2 && d.rd Reg.CE_DSPREF = 0 then d.rotSet 3 0 else d
  d.rotReturn

/-- A direct write of CE_DSPREF stores the value clamped as in R268, with no slew. -/
def Dev.dsprefWrite (d : Dev) (v : Word) : Dev :=
  let zero := d.bit Reg.DSP_CTL 0 = false || d.bit Reg.DSP_ROT 31 || d.bit Reg.DSP_STAT 4 || d.fld Reg.DSP_MBTO 15 0 = 0
  (d.wr Reg.CE_DSPREF (iw (if zero then 0 else d.clampCur v.toInt))).slewing

/-! ### The plant profile (R271 to R273) -/

/-- The result code of the SETPOINT handled last: that of its slot while its SEQ stands there, else replaced. -/
def Dev.handledRes (d : Dev) : Nat :=
  match d.dsp.hslot with
  | some m => if fieldOf (d.mbW m 0) 15 0 = d.dsp.hseq then fieldOf (d.mbW m 0) 23 16 else 7
  | none => d.dsp.lastRes

/-- The payload of STATUS after its EPOCH. -/
def Dev.statusBytes (d : Dev) : List Byte :=
  let fl := b2n (d.role = 1) + 2 * b2n (d.bit Reg.DSP_STAT 0) + 4 * b2n (d.act 4) + 8 * b2n (d.bit Reg.EST_FLAGS 2)
    + 16 * b2n (d.bit Reg.EST_FLAGS 3) + 32 * b2n (d.rotState != 0) + 64 * b2n d.dsp.running + 128 * b2n (d.bit Reg.TIM_STAT 0)
  leBytes 2 d.dsp.hseq ++ leBytes 1 d.handledRes ++ leBytes 1 fl
    ++ leBytes 4 (d.rd Reg.CE_DSPREF).toNat ++ leBytes 4 (d.rd Reg.EST_OUTCH).toNat ++ leBytes 4 (d.rd Reg.EST_OUTDIS).toNat
    ++ leBytes 4 (d.rd Reg.EST_OUTPCH).toNat ++ leBytes 4 (d.rd Reg.EST_OUTPDIS).toNat
    ++ leBytes 2 (d.fld Reg.EST_SOC 15 0) ++ leBytes 2 (quotR d.swp.vstr 100000).toNat

/-- STATUS is sent. -/
def Dev.statusSend (d : Dev) : Dev := (d.plantSend 0x11 d.statusBytes).start Tm.status

/-- STATUS every STPER ms. -/
def Dev.statusTick (d : Dev) : Dev :=
  if d.dspBasic && d.leads && (!d.running Tm.status || d.due Tm.status (msT (d.pv Par.STPER))) then d.statusSend else d

/-- Firmware has taken a message: one on CAN FD through the read window of CAN A from object 0, where CAN_FRAME_RECEIVE has
stored it (R426, R434). -/
def Dev.plantRead (d : Dev) (h : PlantHead) : Dev :=
  match h with
  | .can _ => if d.canProfile && d.bit (Reg.CAN_OBJ 0 0 3) 31 then d.canRdsel 0 0 else d
  | .udp .. => d

/-- A plant message of a TYPE and a length passes: full service, DSP not claimed, and on CAN FD the identifier, on UDP the
port and the header are those of the module; any other is discarded, and none comes on a CAN A that a program has claimed or
that takes no part in bus traffic (R271, R434). -/
def Dev.plantTo (d : Dev) (h : PlantHead) (type len : Nat) (l : List Byte) : Bool :=
  d.dspBasic && l.length = len
    && match h with
      | .can id => d.canProfile && d.canLive 0 && id.toNat = d.pv Par.CANBASE % 32 * 2 ^ 24 + type * 2 ^ 16 + d.pv Par.STRADR * 2 ^ 8
      | .udp port t a dir ver =>
        port.toNat = d.pv Par.UDPPORT && t.toNat = type && a.toNat = d.pv Par.STRADR && dir = 0 && ver = 1

/-- EPOCH of a plant message. -/
def plantEpoch (l : List Byte) : Nat := leNat (l.take 4)

/-- A message with an EPOCH above TW_EPOCH: entry 0x6005, and a duty is deposed (R272, R395). -/
def Dev.plantHigh (d : Dev) (e : Nat) : Dev :=
  let d := d.fw 0x6005 [nw e]
  let d := if d.role = 0 then d else d.epochHigh
  if d.role = 1 then d.depose 3 else d

/-- SETPOINT: 20 bytes (R272). -/
def Dev.setpoint (d : Dev) (h : PlantHead) (l : List Byte) : Dev :=
  let d := d.plantRead h
  if d.plantTo h 0x10 20 l = false then d
  else
    let seq := leNat (slice l 4 2)
    let note (d : Dev) (code : Nat) : Dev := { d with dsp := { d.dsp with hseq := seq, hslot := none, lastRes := code } }
    if (d.rd Reg.TW_EPOCH).toNat < plantEpoch l then
      let d := if d.leads then (note d 5).statusSend else d
      d.plantHigh (plantEpoch l)
    else if d.leads = false then d
    else if d.bit Reg.DSP_CTL 2 then (note d 8).statusSend
    else if d.dsp.lastSeq = some seq then d.statusSend
    else
      let b6 := leNat (slice l 6 1)
      let b7 := leNat (slice l 7 1)
      let m := b7 % 4
      let res := b2n (b6 / 4 != 0 || b7 / 4 != 0)
      let d := ((d.mbWrite m 1 (leWord l 8)).mbWrite m 2 (leWord l 12)).mbWrite m 3 (leWord l 16)
      let d := { d with dsp := { d.dsp with lastSeq := some seq, hseq := seq, hslot := some m } }
      let w0 := 2 ^ 31 + (b6 % 2) * 2 ^ 30 + (b6 / 2 % 2) * 2 ^ 29 + res * 2 ^ 24 + seq
      (d.mbWrite m 0 (nw w0)).statusSend

/-- ROTREPLY as a plant message. -/
def Dev.rotReplyTake (d : Dev) (h : PlantHead) (l : List Byte) : Dev :=
  let d := d.plantRead h
  if d.plantTo h 0x21 8 l = false then d
  else if (d.rd Reg.TW_EPOCH).toNat < plantEpoch l then d.plantHigh (plantEpoch l)
  else d.rotReply (leNat (slice l 4 2)) (leNat (slice l 6 1))

/-- A COMMAND with the number `n` in byte 4 (DESIGN CHOICE: log entry 192): one with a higher EPOCH is rejected, else `f`
carries it out. -/
def Dev.plantCommand (d : Dev) (h : PlantHead) (l : List Byte) (n : Nat) (f : Dev → Dev) : Dev :=
  let d := d.plantRead h
  if d.plantTo h 0x30 8 l = false || leNat (slice l 4 1) != n then d
  else if (d.rd Reg.TW_EPOCH).toNat < plantEpoch l then d.plantHigh (plantEpoch l)
  else f d

/-- A COMMAND 1 clears the classes of its mask, bytes 6 and 7 (R164, R271; DESIGN CHOICE: log entry 192). -/
def Dev.plantClear (d : Dev) (mask : Word) : Dev :=
  if d.leads = false then d
  else if d.claimed 10 then d.discard Reg.LIM_TRIPCLR
  else d.tripClear mask

/-! ### The local step profile (R276) -/

/-- Step `k` of the profile; END beyond its last step. -/
def Dev.profStep (d : Dev) (k : Nat) : ProfStep :=
  (d.dsp.steps[k]?).getD { type := 0, ends := 0, target := 0, repeats := 0, current := 0, vset := 0, tlim := 0, iterm := 0 }

/-- Slot 0 is committed with a current, ATTIME 0; its SEQ is not stated. -/
def Dev.profCommit (d : Dev) (i : Int) : Dev :=
  let (k, d) := d.nextFree
  let d := { d with dsp := { d.dsp with stage := putO d.dsp.stage 1 (some (iw i)) } }
  d.mbCommit 0 (nw (2 ^ 31 + Config.free k % 65536))

/-- The profile comes to step `k`: LOOP goes on to its target while repeats remain, END goes on as a step
that requests zero. -/
def Dev.profEnter (d : Dev) : Nat → Nat → Dev
  | 0, _ => d
  | fuel + 1, k =>
    let x := d.profStep k
    let d := ({ d with dsp := { d.dsp with step := k, cv := x.current } }).fw 0x6020 [nw k]
    if x.type = 4 then
      let n := getN d.dsp.loops k
      if n < x.repeats then
        Dev.profEnter { d with dsp := { d.dsp with loops := putN d.dsp.loops k (n + 1) } } fuel x.target
      else Dev.profEnter { d with dsp := { d.dsp with loops := putN d.dsp.loops k 0 } } fuel (k + 1)
    else if x.type = 0 then
      (d.flag Reg.DSP_STAT 6).fw 0x6021 []
    else d.start Tm.prof

/-- A grading run begins: the run number rises, its records are gone, and GRDDONE clears, whoever owns EST (R211). -/
def Dev.gradeBegin (d : Dev) : Dev :=
  let d := { d with est := { d.est with run := d.est.run + 1, grades := [], rests := 0 } }
  d.setBit Reg.EST_FLAGS 7 false

/-- DSP_CTL: PGO starts the local profile while SRC is 1, and I_t follows EN. -/
def Dev.dspCtl (d : Dev) (v : Word) : Dev :=
  let d := (d.plainWrite Reg.DSP_CTL v).reform.cond10
  if bitOf v 1 && bitOf v 2 && d.dspBasic && !d.dsp.steps.isEmpty then
    let d := if d.bit Reg.EST_CTL 1 then d.gradeBegin else d
    ({ d with dsp := { d.dsp with running := true, loops := [] } }).profEnter 20000 0
  else if bitOf v 2 then d
  else { d with dsp := { d.dsp with running := false } }

/-! ### Commands -/

/-- A write to word 1, 2 or 3 of a mailbox slot. -/
def execMailboxWordWrite (src : Writer) (m : BitVec 2) (w : BitVec 2) (v : Word) (s : State) :
    Host.Outcome State Fault Refusal :=
  s.lift (fun d => d.gate src (Reg.DSP_MB m.toNat w.toNat) (fun d => d.mbWrite m.toNat w.toNat v))

/-- A write of word 0 of a mailbox slot. -/
def execMailboxCommit (src : Writer) (m : BitVec 2) (v : Word) (s : State) : Host.Outcome State Fault Refusal :=
  s.lift (fun d => d.gate src (Reg.DSP_MB m.toNat 0) (fun d => d.mbWrite m.toNat 0 v))

/-- One microsecond of the slew. -/
def execReferenceSlew (s : State) : Host.Outcome State Fault Refusal :=
  s.lift (fun d => d.slew)

/-- The mailbox timeout. -/
def execMailboxTimeout (s : State) : Host.Outcome State Fault Refusal :=
  s.lift (fun d => d.mbTimeout)

/-- A SETPOINT of the plant controller. -/
def execSetpoint (h : PlantHead) (l : List Byte) (s : State) : Host.Outcome State Fault Refusal :=
  s.lift (fun d => d.setpoint h l)

/-- The STATUS interval. -/
def execStatusSend (s : State) : Host.Outcome State Fault Refusal :=
  s.lift (fun d => d.statusTick)

/-- COMMAND 1 of the plant controller. -/
def execCommandClearTrips (h : PlantHead) (l : List Byte) (s : State) : Host.Outcome State Fault Refusal :=
  s.lift (fun d => d.plantCommand h l 1 (fun d => d.plantClear (nw (leNat (slice l 6 2)))))

/-- A ROTREPLY of the plant controller. -/
def execRotreply (h : PlantHead) (l : List Byte) (s : State) : Host.Outcome State Fault Refusal :=
  s.lift (fun d => d.rotReplyTake h l)

/-- ROTREQ is due again. -/
def execRotreqRepeat (s : State) : Host.Outcome State Fault Refusal :=
  s.lift (fun d => d.rotRepeat)

/-- No ROTREPLY has come. -/
def execRotationReplyTimeout (s : State) : Host.Outcome State Fault Refusal :=
  s.lift (fun d => d.rotTimeout)

/-- The rest window has run. -/
def execRestWindowEnd (s : State) : Host.Outcome State Fault Refusal :=
  s.lift (fun d => d.rotWinEnd)

/-- A write of DSP_CTL with PGO. -/
def execProfileGo (src : Writer) (v : Word) (s : State) : Host.Outcome State Fault Refusal :=
  s.lift (fun d => d.gate src Reg.DSP_CTL (fun d => d.dspCtl (withBit v 1 true)))

end Sys2Proof.Machine
end

