-- ==== Sys2Proof/Machine/Cell.lean ====
section
/-! DEFINITION. The cell model of the estimator: tables, temperature, resistances, and one sweep of one cell (R182 to
R190, R197). -/

namespace Sys2Proof.Machine

/-! ### OCV tables (R186, R187) -/

/-- OCV table `k`, evaluated as VINTERP does. -/
def Dev.ocvTab (d : Dev) (k : Nat) : ITable :=
  let l := d.table k
  tableOf (fun i => leWord l (4 * i))

/-- OCV table `k` is present. -/
def Dev.tabOn (d : Dev) (k : Nat) : Bool := (d.ocvTab k).np != 0 && (d.ocvTab k).nt != 0

/-- The value of a table at SoC `z` and temperature `t`. -/
def ITable.at (tb : ITable) (z t : Int) : Int := (tb.eval false z t).1.toInt

/-- The slope of a table at SoC `z` and temperature `t`, in µV per %. -/
def ITable.slope (tb : ITable) (z t : Int) : Int :=
  let p := min (lastLe tb.x z tb.np) (tb.np - 2)
  let dx := tb.x (p + 1) - tb.x p
  if dx ≤ 0 then 0 else quotR ((tb.at (tb.x (p + 1)) t - tb.at (tb.x p) t) * one30) (100 * dx)

/-- The tables of branch `b` (0 mean, 1 charge, 2 discharge) of cell `c`. -/
def Dev.branchTabs (d : Dev) (c b : Nat) : List ITable :=
  let k := 2 * d.pv (Par.PAIR c)
  if b = 1 then [d.ocvTab k] else if b = 2 then [d.ocvTab (k + 1)] else [d.ocvTab k, d.ocvTab (k + 1)]

/-- The mean of a list of numbers. -/
def meanR (l : List Int) : Int := if l.isEmpty then 0 else quotR (l.foldl (· + ·) 0) l.length

/-- OCV of cell `c` on branch `b`. -/
def Dev.ocv (d : Dev) (c b : Nat) (z t : Int) : Int := meanR ((d.branchTabs c b).map (fun tb => tb.at z t))

/-- OCV slope of cell `c` on branch `b`, µV per %. -/
def Dev.ocvSlope (d : Dev) (c b : Nat) (z t : Int) : Int := meanR ((d.branchTabs c b).map (fun tb => tb.slope z t))

/-- SoC of cell `c` at an open-circuit voltage, and whether it is out of table. -/
def Dev.ocvInv (d : Dev) (c b : Nat) (v t : Int) : Int × Bool :=
  let l := (d.branchTabs c b).map (fun tb => tb.eval true v t)
  (meanR (l.map (fun r => r.1.toInt)), l.any (fun r => r.2))

/-- The branch a cell selects from its net charge since its last change of direction (R187). -/
def Dev.branchOf (d : Dev) (x : CellSt) : Nat :=
  let h : Int := x.q * d.pv Par.HYSQ
  if h < x.net then 1 else if x.net < -h then 2 else 0

/-! ### Temperature (R185) -/

/-- The cells of the string: mapped voltage channels. -/
def Dev.cellIds (d : Dev) : List Nat := (List.range 640).filter (fun c => d.bit (Reg.CHM_ENT c) 31)

/-- The published word of channel `i`. -/
def Dev.pubWord (d : Dev) (i : Nat) : Word := d.sweepWord d.lastBuf i

/-- The usable temperatures of node `k` at the positions of a mask. -/
def Dev.nodeTemps (d : Dev) (k mask : Nat) : List Int :=
  (List.range 1280).filterMap (fun j =>
    let e := d.rd (Reg.CHM_ENT (640 + j))
    let w := d.pubWord (640 + j)
    let q := wordCode w
    if bitOf e 31 && fieldOf e 29 24 = k && mask.testBit (fieldOf e 20 16) && (q = 0 || q = 1 || q = 5) then
      some (wordVal w) else none)

/-- A number into its place of a rising list. -/
def insertI (x : Int) : List Int → List Int
  | [] => [x]
  | y :: t => if x ≤ y then x :: y :: t else y :: insertI x t

/-- The median of a list of numbers. -/
def medianI (l : List Int) : Int :=
  let s := l.foldl (fun a x => insertI x a) []
  let n := s.length
  if n % 2 = 1 then nthI s (n / 2) else quotR (nthI s (n / 2 - 1) + nthI s (n / 2)) 2

/-- The surface temperature of cell `c`: steps 2 and 3 of R185. -/
def Dev.surfTemp (d : Dev) (c : Nat) : Option (Int × Nat) :=
  let k := d.fld (Reg.CHM_ENT c) 29 24
  let own := d.nodeTemps k (d.pv (Par.ASSOC c))
  if own.isEmpty then
    let all := d.nodeTemps k 0xFFFFFFFF
    if all.isEmpty then none else some (medianI all, 3)
  else some (meanR own, 2)

/-- The lowest usable temperature of the string. -/
def Dev.lowTemp (d : Dev) : Option Int :=
  (List.range 48).foldl (fun (m : Option Int) k =>
    (d.nodeTemps k 0xFFFFFFFF).foldl (fun m x => match m with | some y => some (min x y) | none => some x) m) none

/-- T_c and the step of R185 that gives it; with no usable temperature anywhere the value is free. -/
def Dev.cellTemp (d : Dev) (c : Nat) : Int × Nat :=
  if d.bit (Reg.IMP_CELL c 3) 30 then (sx 16 (d.fld (Reg.IMP_CELL c 3) 15 0), 1)
  else
    match d.surfTemp c with
    | some r => r
    | none =>
      match d.lowTemp with
      | some t => (t, 4)
      | none => (sx 16 (Config.free d.freeCount), 4)

/-! ### Resistances (R182) -/

/-- A row of the model table at a temperature, linear between the columns of table 0. -/
def Dev.model (d : Dev) (k : Nat) (t : Int) : Int :=
  let tb := d.ocvTab 0
  let y (c : Nat) : Int := d.pv (Par.MODEL k c)
  if tb.nt ≤ 1 || t ≤ tb.t 0 then y 0
  else if tb.t (tb.nt - 1) ≤ t then y (tb.nt - 1)
  else
    let c := lastLe tb.t t tb.nt
    let w := tb.t (c + 1) - tb.t c
    quotR (y c * w + (y (c + 1) - y c) * (t - tb.t c)) w

/-- R0 and R1 in nΩ and τ in µs of a cell at T_c: fitted while MVALID is 1, else the model scaled by the cell's
resistance factor. -/
def Dev.rcOf (d : Dev) (c : Nat) (x : CellSt) (t : Int) : Int × Int × Int :=
  if d.bit (Reg.IMP_CELL c 3) 31 then
    ((d.rd (Reg.IMP_CELL c 0)).toNat, (d.rd (Reg.IMP_CELL c 1)).toNat, (d.rd (Reg.IMP_CELL c 2)).toNat)
  else
    (quotR (d.model 0 t * 1000 * x.rfac) 4096, quotR (d.model 1 t * 1000 * x.rfac) 4096, quotR (d.model 2 t * 100000 * x.rfac) 4096)

/-- The drop in µV of a current in µA across a resistance in nΩ. -/
def dropUv (r i : Int) : Int := quotR (r * i) 1000000000

/-! ### One sweep of one cell -/

/-- A word of these codes gives a measured value (Table 7.3). -/
def usable (q : Nat) : Bool := q = 0 || q = 3 || q = 5

/-- The balancing charge of cell `c` over `ns`, in µC (R183): the balance current `100 V / RBAL` µA at the duty of its
node, less the off-time of blanking, which is nothing while no BLANK is sent (R135).  It counts by the mask in force at the
strobe. -/
def Dev.balCharge (d : Dev) (c : Nat) (v : Int) (ns : Int) : Int :=
  let k := d.fld (Reg.CHM_ENT c) 29 24
  let p := d.fld (Reg.CHM_ENT c) 20 16
  let r : Int := d.fld Reg.BAL_RBAL 15 0
  let lead := d.fld Reg.BAL_BLANKLEAD 7 0
  if (getN d.swp.balAt k).testBit p = false || getB d.ring.wdt k || r = 0 then 0
  else
    let blank := d.bit Reg.BAL_CTL 1
    let f : Int := if blank then d.fld (Reg.BAL_APPL k) 23 16 else 256
    let off : Int := if blank && lead != 0 then 1000 * lead + d.ring.tref + 10000 else 0
    quotR (100 * v * f * (ns - off)) (r * 256 * 1000000000)

/-- ETACH for a charge of this sign, as a 65,536th. -/
def Dev.eta (d : Dev) (dq : Int) : Int := if 0 < dq then d.pv Par.ETACH else 65536

/-- A cell after a charge of `dq` µC over `ns`: SoC, uncertainty, charge since its last rest point, and net charge since its
last change of direction (R183, R184, R187, R200). -/
def Dev.advance (d : Dev) (x : CellSt) (dq ns : Int) : CellSt :=
  let q : Int := x.q
  let z := x.z + quotR (dq * d.eta dq * one30) (q * 1000 * 65536)
  let g : Int := d.pv Par.IGERR * dq.natAbs * 1000 + d.pv Par.IOERR * ns
  let sz := min (one30 / 2) (x.sz + quotR (g * one30) (1000000000 * q * 1000))
  { x with z := z, sz := sz, chg := x.chg + quotR (dq * d.eta dq) 65536, net := if x.net * dq < 0 then dq else x.net + dq }

/-- The flags of a cell record with bit `b` set or cleared. -/
def flagSet (f b : Nat) (on : Bool) : Nat := if on then f ||| 2 ^ b else if f.testBit b then f - 2 ^ b else f

/-- One sweep of cell `c` with charge `dq` µC, interval `ns` and current `i` µA: counting, RC voltage, V_lc, and the
floor and ceiling of R197, which counting alone brings about and which stand while the word gives no measured value; and
whether counting was held at 0 or 1. -/
def Dev.cellSweep (d : Dev) (c : Nat) (x : CellSt) (dq ns i : Int) : CellSt × Bool :=
  let w := d.pubWord c
  let code := wordCode w
  let v := wordVal w
  let t := (d.cellTemp c).1
  let (r0, r1, tau) := d.rcOf c x t
  let a := expNeg ns (tau * 1000)
  let v1 := quotR (a * x.v1 * 1000000000 + r1 * (one30 - a) * i) (one30 * 1000000000)
  let meas := usable code
  let dc := dq - d.balCharge c v ns
  let y := d.advance x dc ns
  let b := d.branchOf y
  let vlc := if meas then v - dropUv r0 i - v1 else d.ocv c b y.z t
  let eod : Int := d.pv Par.VEOD
  let eoc : Int := d.pv Par.VEOC
  let low := meas && decide (y.z ≤ 0) && decide (eod < vlc)
  let high := meas && decide (one30 ≤ y.z) && decide (vlc < eoc)
  let held := (low && decide (dc < 0)) || (high && decide (0 < dc))
  let floored := if meas then low && (x.flags.testBit 5 || (decide (dc < 0) && decide (eod + d.pv Par.MEOD < vlc))) else x.flags.testBit 5
  let ceiled := if meas then high && (x.flags.testBit 4 || (decide (0 < dc) && decide (vlc < eoc - d.pv Par.MEOC))) else x.flags.testBit 4
  let f := flagSet (flagSet x.flags 5 floored) 4 ceiled
  let f := if held && (floored || ceiled) then flagSet f 2 true else f
  let f := if d.est.gap || d.bit Reg.EST_STAT 0 then flagSet f 6 true else f
  ({ y with
    z := if held then (if low then 0 else one30) else y.z
    v1 := v1
    flags := f - f % 4 + b
    vlc := vlc
    meas := meas
    sum := x.sum + vlc
    n := x.n + 1
    allOk := x.allOk && meas
    pend := x.pend && code != 6 && code != 7 }, held)

/-- A correction of a cell toward `zo` with uncertainty `so` (R189). -/
def CellSt.correct (x : CellSt) (zo so : Int) : CellSt :=
  let den := x.sz * x.sz + so * so
  if den = 0 then x
  else
    let k := quotR (x.sz * x.sz * one30) den
    { x with z := x.z + quotR (k * (zo - x.z)) one30, sz := quotR (x.sz * rootR ((one30 - k) * one30)) one30 }

/-- The uncertainty of SoC for a voltage uncertainty at a slope in µV per %. -/
def sigmaOf (vsig slope : Int) : Int := quotR (vsig * one30) (slope * 100)

end Sys2Proof.Machine
end

