-- ==== Sys2Proof/Machine/Est.lean ====
section
/-! DEFINITION. The estimator: one run per published sweep with anchors, rest points, learning, starvation, string
results and publication (R191 to R203, R211), corrections (R189), and the derived commands of balancing and derating
(R142, R164). -/

namespace Sys2Proof.Machine

/-! ### Cells -/

/-- Cell `c` of the estimator. -/
def Dev.cell (d : Dev) (c : Nat) : Option CellSt := getO d.est.cells c

/-- The module with cell `c` as `x`. -/
def Dev.setCell (d : Dev) (c : Nat) (x : CellSt) : Dev :=
  { d with est := { d.est with cells := putO d.est.cells c (some x) } }

/-- A cell that starts with nominal capacity, SoC `z` and uncertainty `sz` (R208). -/
def Dev.cellNew (d : Dev) (z sz : Int) : CellSt where
  z := z
  sz := sz
  q := d.pv Par.QNOM
  sq := one30 / 10
  chg := 0
  zr := 0
  sr := 0
  slope := 0
  restAt := 0
  rfac := 4096
  count := 0
  learnAt := d.opSec
  v1 := 0
  flags := 0
  net := 0
  vlc := 0
  meas := false
  sum := 0
  n := 0
  allOk := true
  pend := true
  quasi := false

/-- The known cells of the string with their numbers. -/
def Dev.known (d : Dev) : List (Nat × CellSt) :=
  d.cellIds.filterMap (fun c => (d.cell c).map (fun x => (c, x)))

/-- The block number of EST. -/
def estBlock : Nat := blockOf Reg.EST_CTL

/-- A reason waits for the next Storeroom write (R206). -/
def Dev.stoAsk (d : Dev) (reason : Nat) : Dev := { d with est := { d.est with reasons := d.est.reasons ++ [reason] } }

/-- The rest-starvation time is set to expired (R197, R198). -/
def Dev.relearn (d : Dev) : Dev := { d with est := { d.est with expired := true } }

/-- The latched accumulators at the last strobe. -/
def Dev.qlat1 (d : Dev) : Int := sx 64 ((d.rd Reg.EST_QLAT1_LO).toNat + 2 ^ 32 * (d.rd Reg.EST_QLAT1_HI).toNat)
def Dev.qlat2 (d : Dev) : Int := sx 64 ((d.rd Reg.EST_QLAT2_LO).toNat + 2 ^ 32 * (d.rd Reg.EST_QLAT2_HI).toNat)

/-! ### The sections that a shade holds (R402) -/

/-- The bytes of a signed number, little-endian. -/
def leInt (n : Nat) (i : Int) : List Byte := leBytes n (i % (2 ^ (8 * n) : Nat)).toNat

/-- The string record (Table 7.6). -/
def Dev.stringRec (d : Dev) : List Byte :=
  let q1 := d.acc.q1 / 16777216
  let q2 := d.acc.q2 / 16777216
  fitBytes 1024 (leInt 8 q1 ++ leInt 8 q2 ++ leInt 8 d.est.anc1 ++ leInt 8 d.est.anc2
    ++ leBytes 4 (d.rd Reg.EST_FLAGS).toNat ++ leBytes 4 (b2n d.est.transport * 2 ^ 31) ++ leBytes 4 d.est.trAt
    ++ leBytes 4 d.est.learnAt ++ leBytes 4 d.est.qualAt ++ leBytes 8 (d.est.qThru / 1000000)
    ++ leBytes 8 (d.est.eThru / 3600000000) ++ leBytes 4 d.est.run)

/-- A number scaled by 2^30 as one scaled by 2^16, held to 16 bits. -/
def sig16 (i : Int) : List Byte := leInt 2 (clampI 0 65535 (quotR i 16384))

/-- A cell record (Table 7.7). -/
def CellSt.bytes (x : CellSt) : List Byte :=
  leInt 4 x.z ++ leBytes 4 x.q ++ leInt 8 x.chg ++ leInt 4 x.zr ++ sig16 x.sz ++ sig16 x.sr ++ sig16 x.sq
    ++ leBytes 2 (satN 65535 x.rfac) ++ leBytes 2 (satN 65535 x.slope) ++ leBytes 2 x.count ++ leInt 4 x.v1
    ++ leBytes 4 x.learnAt ++ leBytes 4 x.restAt ++ leBytes 2 (x.flags % 256) ++ leBytes 2 0

/-- The record of cell `c`, zeros where nothing is known. -/
def Dev.cellRec (d : Dev) (c : Nat) : List Byte :=
  match d.cell c with
  | some x => x.bytes
  | none => List.replicate 48 0

/-- A section in MIRROR frames of at most 4,096 data bytes. -/
def Dev.mirrorParts (d : Dev) (sec off : Nat) : Nat → List Byte → Dev
  | 0, _ => d
  | fuel + 1, l => if l.isEmpty then d else Dev.mirrorParts (d.mirror sec off (l.take 4096)) sec (off + 4096) fuel (l.drop 4096)

/-- Section 0x04: the string record, with the strobe sequence that it reflects in its first reserved word (R402; DESIGN CHOICE: log
entry 133), and the cell records. -/
def Dev.estSection (d : Dev) : List Byte :=
  fitBytes 1024 (d.stringRec.take 72 ++ leBytes 4 (d.fld Reg.SWP_LAST 31 16)) ++ d.cellIds.flatMap (fun c => d.cellRec c)

/-- Sections 0x04 and 0x05 go to a shade in INSTEP or MIRROR. -/
def Dev.mirrorEst (d : Dev) : Dev :=
  if d.hasShade && d.fld Reg.TW_PSTAT 3 2 != 3 then
    let cells := d.cellIds
    let imp := cells.flatMap (fun c => wordsBytes ((List.range 4).map (fun w => d.rd (Reg.IMP_CELL c w))))
    (d.mirrorParts 4 0 64 d.estSection).mirrorParts 5 0 64 imp
  else d

/-! ### Anchors (R196, R198) -/

/-- A cell is anchored at SoC `z0`: a discrepancy above 5 % is judged by the two accumulators. -/
def Dev.anchorCell (d : Dev) (c : Nat) (x : CellSt) (z0 : Int) : Dev :=
  let off := (x.z - z0).natAbs
  let y := { x with z := z0, sz := quotR (d.pv Par.SIGEOD * one30) 1000 }
  if (off : Int) * 20 ≤ one30 then d.setCell c y
  else
    let second := d.bit Reg.EST_ICFG 8 && !d.bit Reg.EST_STAT 1
    let gap := ((d.qlat1 - d.est.anc1) - (d.qlat2 - d.est.anc2)).natAbs
    let suspect (d : Dev) : Dev := (d.setCell c { y with flags := flagSet y.flags 3 true }).relearn
    if second = false then (suspect d).fw 0x3022 [nw c]
    else if d.pv Par.QNOM * 10 < gap then ((d.setCell c y).sysSetFld Reg.EST_FLAGS 4 4 1).fw 0x3021 [nw c]
    else (suspect d).fw 0x3020 [nw c]

/-- Every measured cell at or beyond the threshold takes the SoC of that end. -/
def Dev.anchorCells (d : Dev) (charge : Bool) : Dev :=
  d.known.foldl (fun (d : Dev) e =>
    let hit := e.2.meas && (if charge then decide ((d.pv Par.VEOC : Int) ≤ e.2.vlc) else decide (e.2.vlc ≤ (d.pv Par.VEOD : Int)))
    if hit then d.anchorCell e.1 e.2 (if charge then one30 else 0) else d) d

/-- A grading run comes to its rest after the charge, or to its rest after the discharge (R211). -/
def Dev.gradeEnd (d : Dev) (charge : Bool) : Dev :=
  let k := if charge then 0 else 2
  if d.bit Reg.EST_CTL 1 && d.est.rests = k then { d with est := { d.est with rests := k + 1 } } else d

/-- End of discharge or of charge is reached: the accumulators are noted, the flag and its entry are made, and a Storeroom
write waits. -/
def Dev.anchor (d : Dev) (charge : Bool) : Dev :=
  let d := if charge then { d with est := { d.est with anc1 := d.qlat1, anc2 := d.qlat2, ancEoc := d.qlat1 } }
    else { d with est := { d.est with anc1 := d.qlat1, anc2 := d.qlat2, ancEod := d.qlat1 } }
  let d := d.gradeEnd charge
  let d := (d.sysSetFld Reg.EST_FLAGS (if charge then 3 else 2) (if charge then 3 else 2) 1).fw (if charge then 0x3011 else 0x3010) []
  (d.stoAsk 3).mirrorEst

/-- The cell of the lowest, or the highest, SoC: lowest number first. -/
def pickCell (high : Bool) : List (Nat × CellSt) → Option (Nat × CellSt)
  | [] => none
  | e :: t =>
    match pickCell high t with
    | none => some e
    | some f => if (if high then decide (e.2.z < f.2.z) else decide (f.2.z < e.2.z)) then some f else some e

/-- A run of sweeps: one longer where the condition holds, else zero. -/
def runOf (n : Nat) (hit : Bool) : Nat := if hit then n + 1 else 0

/-- After `run` sweeps of `n` that an end asks for, its cells are anchored, in every sweep of the run; the end itself is
reached once, and again when its flag has cleared meanwhile (DESIGN CHOICE: log entry 189). -/
def Dev.endReached (d : Dev) (charge : Bool) (run n : Nat) : Dev :=
  if run < n then d
  else
    let d := d.anchorCells charge
    if run = n || !d.bit Reg.EST_FLAGS (if charge then 3 else 2) then d.anchor charge else d

/-- End of discharge and end of charge after a sweep (R196): the runs, what they reach, and the limits that clear by the
cells as they stand after it. -/
def Dev.ends (d : Dev) : Dev :=
  let l := d.known
  let n := max 1 (d.pv Par.NEOD)
  let eod : Int := d.pv Par.VEOD
  let eoc : Int := d.pv Par.VEOC
  let low := l.any (fun e => e.2.meas && decide (e.2.vlc ≤ eod))
  let high := l.any (fun e => e.2.meas && decide (eoc ≤ e.2.vlc))
  let e := d.est
  let d := { d with est := { e with eodN := runOf e.eodN low, eocN := runOf e.eocN high } }
  let d := (d.endReached false d.est.eodN n).endReached true d.est.eocN n
  let l := d.known
  let up := match pickCell false l with
    | some e => decide (eod + d.pv Par.MEOD ≤ e.2.vlc) && decide (one30 ≤ 100 * e.2.z)
    | none => false
  let down := match pickCell true l with
    | some e => decide (e.2.vlc ≤ eoc - d.pv Par.MEOC) && decide (100 * e.2.z ≤ 99 * one30)
    | none => false
  let e := d.est
  let d := { d with est := { e with eodClr := runOf e.eodClr (up && e.eodN < n), eocClr := runOf e.eocClr (down && e.eocN < n) } }
  let d := if n ≤ d.est.eodClr && d.bit Reg.EST_FLAGS 2 then d.sysSetFld Reg.EST_FLAGS 2 2 0 else d
  if n ≤ d.est.eocClr && d.bit Reg.EST_FLAGS 3 then d.sysSetFld Reg.EST_FLAGS 3 3 0 else d

/-! ### Rest points and learning (R199, R200, R203, R211) -/

/-- The grading records with cell `c` as `g`. -/
def Dev.setGrade (d : Dev) (c : Nat) (g : Grade) : Dev :=
  { d with est := { d.est with grades := putO d.est.grades c (some g) } }

/-- A grading record with nothing measured. -/
def Dev.gradeNone (d : Dev) : Grade := { q := 0, r0 := 0, t := 0, z := 0, flags := 1, run := d.est.run }

/-- Capacity is learned from a rest point at `zr` with uncertainty `sr` against the previous one (R200); under GRADE a
cell that has never learned takes the new value as it is (R211). -/
def Dev.learn (d : Dev) (c : Nat) (x : CellSt) (zr sr : Int) (slope : Nat) (out quasi : Bool) : Dev :=
  let grade := d.bit Reg.EST_CTL 1
  let dz := zr - x.zr
  let min_ : Int := if grade then 80 else if quasi || x.quasi then d.pv Par.DZQMIN else d.pv Par.DZMIN
  let ok := x.flags.testBit 7 && !out && decide (d.pv Par.SLOPEMIN ≤ slope) && decide (d.pv Par.SLOPEMIN ≤ x.slope)
    && decide (min_ * one30 ≤ 100 * (dz.natAbs : Int)) && !x.flags.testBit 6 && dz != 0
  if ok = false then d.setCell c x
  else
    let qn := quotR (x.chg * one30) (dz * 1000)
    let q : Int := x.q
    let first := grade && x.count = 0
    let far := decide ((d.pv Par.QBAND : Int) * q < 100 * ((qn - q).natAbs : Int))
    if (far && !first) || qn ≤ 0 then ((d.setCell c x).fw 0x3032 [nw c, iw qn]).stoAsk 2
    else
      let sn := quotR (qn * rootR (sr * sr + x.sr * x.sr)) dz.natAbs
      let sq := quotR (x.sq * q) one30
      let den := sq * sq + sn * sn
      let w := if first || den = 0 then one30 else quotR (sq * sq * one30) den
      let q2 := if first then qn else q + quotR (w * (qn - q)) one30
      let s2 := if den = 0 then 0 else rootR (quotR (sq * sq * (sn * sn)) den)
      let f := flagSet (flagSet x.flags 2 false) 3 false
      let y := { x with q := q2.toNat, sq := if q2 ≤ 0 then 0 else quotR (s2 * one30) q2, count := satN 65535 (x.count + 1), learnAt := d.opSec, flags := f }
      let log := (d.est.log ++ [(c, qn.toNat, w.toNat, d.opSec)]).drop (d.est.log.length + 1 - 64)
      let d := { d.setCell c y with est := { (d.setCell c y).est with learnAt := d.opSec, log := log } }
      let d :=
        if grade && d.est.rests = 3 then
          let g := (getO d.est.grades c).getD d.gradeNone
          d.setGrade c { g with q := qn.toNat, flags := g.flags - g.flags % 2 }
        else d
      ((d.fw 0x3031 [nw c, iw qn]).stoAsk 2).mirrorEst

/-- A rest point of cell `c` at voltage `v` with uncertainty `vsig` (R199): the correction, the learning, and the new
rest values, REST_VALID for a point within the table (DESIGN CHOICE: log entry 215); at the second rest of a grading run its
R0, temperature and SoC are noted (R211).  The answer is whether the slope was enough. -/
def Dev.restPoint (d : Dev) (c : Nat) (x : CellSt) (v vsig : Int) (quasi : Bool) : Dev × Bool :=
  let t := (d.cellTemp c).1
  let b := d.branchOf x
  let (zr, out) := d.ocvInv c b v t
  let slope := (d.ocvSlope c b zr t).toNat
  let sr := if slope = 0 then one30 else sigmaOf vsig slope
  let steep := decide (d.pv Par.SLOPEMIN ≤ slope)
  let y := if out || !steep || slope = 0 then x else x.correct zr sr
  let d := d.learn c y zr sr slope out quasi
  let z := (d.cell c).getD y
  let f := flagSet (flagSet z.flags 7 (!out)) 6 false
  let d := d.setCell c { z with zr := zr, sr := sr, slope := slope, restAt := d.opSec, chg := 0, flags := f, quasi := quasi }
  let d :=
    if d.bit Reg.EST_CTL 1 && d.est.rests = 3 then
      let g := (getO d.est.grades c).getD d.gradeNone
      d.setGrade c { g with r0 := (quotR (d.rcOf c z t).1 1000).toNat % 65536, t := t, z := zr, flags := if out then g.flags ||| 2 else g.flags }
    else d
  (d, steep)

/-- The voltage that cell `c` had 60 s before, when it was usable then. -/
def Dev.minuteAgo (d : Dev) (c : Nat) : Option Int :=
  match (d.est.hist.filter (fun h => h.1 + secT 60 ≤ d.est.lastTick)).getLast? with
  | some h => (h.2.find? (fun e => e.1 = c)).map (fun e => e.2)
  | none => none

/-- Table 7.3 refuses cell `c` a rest point: its word is not usable now or was not a minute ago, or its pending rest point
was discarded. -/
def Dev.restPoor (d : Dev) (c : Nat) (x : CellSt) : Bool :=
  !x.meas || !x.pend
    || (match (d.est.hist.filter (fun h => h.1 + secT 60 ≤ d.est.lastTick)).getLast? with
        | some h => !h.2.any (fun e => e.1 = c)
        | none => false)

/-- The second rest of a grading run writes the record of every cell and completes the run; the rest after the charge leads
to the discharge (R211). -/
def Dev.gradeRest (d : Dev) : Dev :=
  if d.bit Reg.EST_CTL 1 = false then d
  else if d.est.rests = 1 then { d with est := { d.est with rests := 2 } }
  else if d.est.rests = 3 then
    let d := { d with est := { d.est with rests := 4 } }
    let d := d.cellIds.foldl (fun (d : Dev) c => d.setGrade c ((getO d.est.grades c).getD d.gradeNone)) d
    let cap := (d.est.ancEoc - d.est.ancEod).natAbs
    ((d.sysSetFld Reg.EST_FLAGS 7 7 1).fw 0x3060 [nw (cap / 1000)]).stoAsk 9
  else d

/-- The conditions of R199 on one cell. -/
def Dev.restOk (d : Dev) (c : Nat) (x : CellSt) : Bool :=
  let dv := d.pv Par.DVREST
  x.meas && x.pend && dv != 0 && (d.cellTemp c).2 != 4
    && (match d.minuteAgo c with | some v => decide ((wordVal (d.pubWord c) - v).natAbs ≤ dv * 60) | none => false)

/-- The rest points of a rest that has lasted long enough, or of a quasi-rest (R199, R203); a grading run notes the cells
that Table 7.3 refuses one (R211). -/
def Dev.restTake (d : Dev) (quasi : Bool) : Dev :=
  let took := d.known.any (fun e => d.restOk e.1 e.2)
  let (d, steep) := d.known.foldl (fun (a : Dev × Nat) e =>
    let (d, n) := a
    let (c, x) := e
    if d.restOk c x && (!quasi || decide (x.v1.natAbs ≤ 2000)) then
      let (d, s) := d.restPoint c x (if quasi then x.vlc else wordVal (d.pubWord c))
        ((if quasi then 2 else 1) * d.pv Par.VSIGR) quasi
      (d, if s then n + 1 else n)
    else
      let g := (getO d.est.grades c).getD d.gradeNone
      (if d.bit Reg.EST_CTL 1 && d.est.rests % 2 = 1 && !quasi && d.restPoor c x then d.setGrade c { g with flags := g.flags ||| 4 } else d, n)) (d, 0)
  if quasi then { d with est := { d.est with quasiTaken := true } }
  else
    let d := { d with est := { d.est with restTaken := true, restPoint := took } }
    let d :=
      if 0 < steep && d.cellIds.length * 4 ≤ steep * 5 then
        let d := { d with est := { d.est with qualAt := d.opSec, expired := false, starvedAt := none, asked := false, retryAt := none } }
        d.sysSetFld Reg.EST_FLAGS 6 6 0
      else d
    d.gradeRest

/-- The mean current of the sweep lies within `k` thousandths of C. -/
def Dev.inBand (d : Dev) (k : Nat) (dq ns : Int) : Bool :=
  decide ((dq.natAbs : Int) * 3600 * 1000000000 ≤ (k * d.pv Par.QNOM : Nat) * ns)

/-- Rest and quasi-rest after a sweep with charge `dq` over `ns`. -/
def Dev.rests (d : Dev) (dq ns : Int) : Dev :=
  let now := d.est.lastTick
  let d : Dev :=
    if d.inBand (d.pv Par.IREST) dq ns then
      let since := d.est.restSince.getD now
      let d := { d with est := { d.est with restSince := some since } }
      if secT (d.pv Par.TRELAX) ≤ now - since then
        let d := if d.bit Reg.EST_FLAGS 5 then d else d.sysSetFld Reg.EST_FLAGS 5 5 1
        if d.est.restTaken then d else d.restTake false
      else d
    else
      let d := { d with est := { d.est with restSince := none, restTaken := false, restPoint := false } }
      let d := d.known.foldl (fun (d : Dev) e => d.setCell e.1 { e.2 with pend := true }) d
      if d.bit Reg.EST_FLAGS 5 then d.sysSetFld Reg.EST_FLAGS 5 5 0 else d
  if d.pv Par.QREST = 0 then d
  else if d.inBand (d.pv Par.IQREST) dq ns then
    let since := d.est.quasiSince.getD now
    let d := { d with est := { d.est with quasiSince := some since } }
    if secT (d.pv Par.TQREST) ≤ now - since && !d.est.quasiTaken then d.restTake true else d
  else { d with est := { d.est with quasiSince := none, quasiTaken := false } }

/-! ### String results (R191 to R194) -/

/-- The integral of a table over SoC from `a` to `b` by the trapezoid rule between breakpoints, doubled. -/
def ITable.area2 (tb : ITable) (a b t : Int) : Int :=
  let pts := a :: ((List.range tb.np).map tb.x).filter (fun x => decide (a < x) && decide (x < b)) ++ [b]
  (pts.zip (pts.drop 1)).foldl (fun s e => s + (tb.at e.1 t + tb.at e.2 t) * (e.2 - e.1)) 0

/-- SoE in Wh (R192). -/
def Dev.soe (d : Dev) (l : List (Nat × CellSt)) : Int :=
  let avail (x : CellSt) : Int := x.z * x.q
  let m := l.foldl (fun (m : Option Int) e => match m with | some y => some (min y (avail e.2)) | none => some (avail e.2)) none
  match m with
  | none => 0
  | some q =>
    let s := l.foldl (fun (s : Int) e =>
      let x := e.2
      let tb := d.ocvTab (2 * d.pv (Par.PAIR e.1) + 1)
      if x.q = 0 then s else s + x.q * tb.area2 (x.z - quotR q x.q) x.z (d.cellTemp e.1).1) 0
    quotR s (2 * one30 * 3600 * 1000000000)

/-- The limit of one cell in µA (R194): `charge` mirrors with VEOC; none without a resistance. -/
def Dev.sopCell (d : Dev) (charge : Bool) (c : Nat) (x : CellSt) : Option Int :=
  let t := (d.cellTemp c).1
  let (r0, r1, tau) := d.rcOf c x t
  let e := expNeg (1000000 * d.pv Par.TP) tau
  let ocv := d.ocv c (d.branchOf x) x.z t
  let m : Int := if x.meas then 0 else d.pv Par.QMARG
  let num := if charge then (d.pv Par.VEOC - m - ocv) * one30 - x.v1 * e else (ocv - d.pv Par.VEOD - m) * one30 + x.v1 * e
  let den := r0 * one30 + r1 * (one30 - e)
  if den ≤ 0 then none else some (max 0 (quotR (num * 1000000000) den))

/-- The string's voltage after TP at a current of `i` µA into the string, in µV. -/
def Dev.sopVolt (d : Dev) (l : List (Nat × CellSt)) (i : Int) : Int :=
  l.foldl (fun (s : Int) e =>
    let t := (d.cellTemp e.1).1
    let (r0, r1, tau) := d.rcOf e.1 e.2 t
    let a := expNeg (1000000 * d.pv Par.TP) tau
    s + d.ocv e.1 (d.branchOf e.2) e.2.z t + quotR (e.2.v1 * a) one30
      + quotR ((r0 * one30 + r1 * (one30 - a)) * i) (1000000000 * one30)) 0

/-- The current limit of one direction. -/
def Dev.sop (d : Dev) (charge : Bool) (l : List (Nat × CellSt)) : Int :=
  let temps := l.map (fun e => (d.cellTemp e.1).1)
  let cap (t : Int) : Int := quotR (d.model (if charge then 3 else 4) t * d.pv Par.QNOM) 360
  let hot := temps.foldl max (nthI temps 0)
  let cold := temps.foldl min (nthI temps 0)
  let m := l.foldl (fun (m : Int) e => match d.sopCell charge e.1 e.2 with | some i => min m i | none => m) (min (cap hot) (cap cold))
  let held := l.any (fun e => e.2.flags.testBit (if charge then 4 else 5))
  let m := if held then quotR (m * d.pv Par.FLOORDER) 256 else m
  if l.isEmpty || d.bit Reg.EST_FLAGS (if charge then 3 else 2) then 0 else max 0 m

/-- A percentage in hundredths, held to 16 bits. -/
def pct (i : Int) : Nat := (clampI 0 65535 i).toNat

/-- The worst capacity and resistance SoH of the known cells in hundredths of a percent (R194). -/
def Dev.sohOf (d : Dev) (l : List (Nat × CellSt)) (first : Nat) : Nat × Nat :=
  let qmin := l.foldl (fun (m : Nat) e => min m e.2.q) first
  let ratio (e : Nat × CellSt) : Int :=
    let t := (d.cellTemp e.1).1
    let r0 := (d.rcOf e.1 e.2 t).1
    if r0 ≤ 0 then 65535 else quotR (10000 * d.model 0 t * 1000) r0
  (pct (quotR (qmin * 10000) (d.pv Par.QNOM)), pct (l.foldl (fun (m : Int) e => min m (ratio e)) 65535))

/-- String SoC, the weakest cells, SoE and SoH into their registers. -/
def Dev.socShow (d : Dev) (l : List (Nat × CellSt)) (lo hi : Nat × CellSt) : Dev :=
  let zmin := clampI 0 one30 lo.2.z
  let zmax := clampI 0 one30 hi.2.z
  let den := zmin + one30 - zmax
  let soc := if den = 0 then 0 else pct (quotR (zmin * 10000) den)
  let unc := pct (quotR ((l.foldl (fun (m : Int) e => max m e.2.sz) 0) * 10000) one30)
  let soh := d.sohOf l lo.2.q
  let d := d.sysWr Reg.EST_SOC (nw (unc * 65536 + soc))
  let d := d.sysWr Reg.EST_WEAK (nw (hi.1 * 65536 + lo.1))
  let d := d.sysWr Reg.EST_SOE (iw (d.soe l))
  d.sysWr Reg.EST_SOH (nw (soh.2 * 65536 + soh.1))

/-- The SoP registers, in current and in power. -/
def Dev.sopShow (d : Dev) (l : List (Nat × CellSt)) : Dev :=
  let ch := d.sop true l
  let dis := d.sop false l
  let d := (d.sysWr Reg.EST_SOPCH (iw ch)).sysWr Reg.EST_SOPDIS (iw dis)
  let d := d.sysWr Reg.EST_SOPPCH (iw (quotR (ch * d.sopVolt l ch) 1000000000000))
  d.sysWr Reg.EST_SOPPDIS (iw (quotR (dis * d.sopVolt l (-dis)) 1000000000000))

/-- The ages of learning and of starvation. -/
def Dev.ageShow (d : Dev) (l : List (Nat × CellSt)) : Dev :=
  let age := l.foldl (fun (m : Nat) e => max m (d.opSec - e.2.learnAt)) 0
  let starve := if d.est.expired then max (d.opSec - d.est.qualAt) (3600 * d.pv Par.TSTARVE) else d.opSec - d.est.qualAt
  (d.sysWr Reg.EST_QAGE (nw (satN 4294967295 age))).sysWr Reg.EST_STARVE (nw (satN 4294967295 starve))

/-- The result registers of one cell. -/
def Dev.cellShow (d : Dev) (e : Nat × CellSt) : Dev :=
  ((d.sysWr (Reg.EST_CSOC e.1) (iw e.2.z)).sysWr (Reg.EST_CCAP e.1) (nw e.2.q)).sysWr (Reg.EST_CVLC e.1) (iw e.2.vlc)

/-- The result registers of the string. -/
def Dev.results (d : Dev) : Dev :=
  let l := d.known
  match pickCell false l, pickCell true l with
  | some lo, some hi =>
    let d := (d.socShow l lo hi).sopShow l
    let flag (b : Nat) : Nat := b2n (l.any (fun e => e.2.flags.testBit b))
    let d := d.sysSetFld Reg.EST_FLAGS 1 0 (2 * flag 3 + flag 2)
    l.foldl (fun (d : Dev) e => d.cellShow e) (d.ageShow l)
  | _, _ => d

/-! ### Publication (R195) -/

/-- The outputs are zero until the next publication. -/
def Dev.outZero (d : Dev) : Dev :=
  let d := { d with est := { d.est with pubd := [] } }
  (((d.wr Reg.EST_OUTCH 0).wr Reg.EST_OUTDIS 0).wr Reg.EST_OUTPCH 0).wr Reg.EST_OUTPDIS 0

/-- A write to EST_PUB publishes the SoP registers: the outputs follow them, the publication timer restarts, and I_t is formed
again. -/
def Dev.estPub (d : Dev) : Dev :=
  let sop := [d.rd Reg.EST_SOPCH, d.rd Reg.EST_SOPDIS, d.rd Reg.EST_SOPPCH, d.rd Reg.EST_SOPPDIS]
  let d :=
    if d.fld Reg.EST_PUBTO 15 0 = 0 then d.outZero.setBit Reg.EST_STAT 3 (d.act 6)
    else ({ d with est := { d.est with pubd := sop } }).outForm
  ((d.setBit Reg.EST_STAT 2 false).start Tm.pub).reform

/-- A write of EST_PUBTO: zero holds every output at zero, until the next write to EST_PUB with another value. -/
def Dev.pubtoWrite (d : Dev) (v : Word) : Dev :=
  let d := d.plainWrite Reg.EST_PUBTO v
  if d.fld Reg.EST_PUBTO 15 0 = 0 then d.outZero.reform else d

/-- EST_PUBTO has passed without a write to EST_PUB. -/
def Dev.pubTimeout (d : Dev) : Dev :=
  let n := d.fld Reg.EST_PUBTO 15 0
  if n != 0 && d.bit Reg.EST_STAT 2 = false && d.due Tm.pub (msT n) then
    ((d.outZero.setBit Reg.EST_STAT 2 true).hw 0x3051 []).reform
  else d

/-! ### Starvation (R201, R202) -/

/-- TSTARVE has passed since the last qualifying rest point: STARVED and entry 0x3033. -/
def Dev.starve (d : Dev) : Dev :=
  let n := d.pv Par.TSTARVE
  if d.pwr.full = false || d.leads = false || !d.manages estBlock || d.bit Reg.EST_CTL 1 || n = 0 || d.bit Reg.EST_FLAGS 6 then d
  else if d.est.expired || d.est.qualAt + 3600 * n ≤ d.opSec then
    let d := { d with est := { d.est with starvedAt := some d.opSec, asked := false, retryAt := none } }
    (d.sysSetFld Reg.EST_FLAGS 6 6 1).fw 0x3033 []
  else d

/-- The request of a rotation at a sweep: enough slope, or 24 h since STARVED; again TRETRY after a refusal. -/
def Dev.rotRequest (d : Dev) : Dev :=
  match d.est.starvedAt with
  | none => d
  | some at_ =>
    let l := d.known
    let steep := (l.filter (fun e => decide ((d.pv Par.SLOPEMIN : Int) ≤ d.ocvSlope e.1 (d.branchOf e.2) e.2.z (d.cellTemp e.1).1))).length
    let wanted := decide (d.cellIds.length * 4 ≤ steep * 5) || decide (at_ + 86400 ≤ d.opSec)
    let again := match d.est.retryAt with | some t => decide (t + 3600 * d.pv Par.TRETRY ≤ d.opSec) | none => false
    if d.bit Reg.EST_CTL 1 || d.bit Reg.EST_REQ 0 || !wanted || (d.est.asked && !again) then d
    else
      let d := { d with est := { d.est with asked := true, retryAt := none } }
      ((d.sysSetFld Reg.EST_REQ 0 0 1).fw 0x3034 []).rotStart

/-! ### What follows from the results -/

/-- The cells with the SoC that is published: the program's while it claims EST. -/
def Dev.published (d : Dev) : List (Nat × CellSt) :=
  if d.claimed estBlock then d.known.map (fun e => (e.1, { e.2 with z := d.rdI (Reg.EST_CSOC e.1) })) else d.known

/-- BAL_CMD of every node from the published SoC of its cells: the comparison with the band and DUTY are exact (R142). -/
def Dev.balFromSoc (d : Dev) : Dev :=
  if !d.manages (blockOf Reg.BAL_CTL) then d
  else
    let l := d.published
    let band : Int := d.pv Par.BAND * one30
    match pickCell false l with
    | none => d
    | some lo =>
      (List.range (d.ring.count.getD 0)).foldl (fun (d : Dev) k =>
        let own := l.filter (fun e => d.fld (Reg.CHM_ENT e.1) 29 24 = k && decide (band < 10000 * (e.2.z - lo.2.z)))
        let mask := own.foldl (fun m e => m ||| 2 ^ d.fld (Reg.CHM_ENT e.1) 20 16) 0
        let top := own.foldl (fun (m : Int) e => max m (10000 * (e.2.z - lo.2.z))) 0
        let duty := if own.isEmpty then 0 else if band ≤ 0 then 255 else (clampI 0 255 (roundDiv (255 * (top - band)) band.toNat)).toNat
        d.balCmdWrite k (nw (duty * 65536 + mask % 65536))) d

/-- The voltage limits of every cell, tightened by estimation's derating and never wider than the base (R164). -/
def Dev.deratedLimits (d : Dev) : Dev :=
  if !d.manages 10 then d
  else
    d.known.foldl (fun (d : Dev) e =>
      let c := e.1
      let t := (d.cellTemp c).1
      let base (w : Nat) : Word := (getO d.est.limBase (4 * c + w)).getD (d.limW c w)
      let lim (w : Nat) : Word :=
        let b := sx 24 ((base w).toNat / 256)
        let x := Config.derate w b t (d.fld Reg.EST_SOH 15 0)
        let y := if w = 0 || w = 2 then min b x else max b x
        nw ((y % 16777216).toNat * 256 + fieldOf (base w) 7 0)
      let new := (List.range 4).map lim
      let d := (List.range 4).foldl (fun (d : Dev) w =>
        { d with est := { d.est with limBase := putO d.est.limBase (4 * c + w) (some (base w)) } }) d
      if new = (List.range 4).map (fun w => d.limW c w) then d
      else
        let d := (List.range 3).foldl (fun (d : Dev) w => d.limStage c w ((new[w]?).getD 0)) d
        d.limCommit c ((new[3]?).getD 0)) d

/-! ### The local profile in a sweep (R276) -/

/-- The end condition of a profile step holds; a rest point counts while firmware runs estimation, when a cell has taken one
in the present rest (R199). -/
def Dev.profEnds (d : Dev) (x : ProfStep) : Bool :=
  (x.ends.testBit 0 && d.bit Reg.EST_FLAGS 3) || (x.ends.testBit 1 && d.bit Reg.EST_FLAGS 2)
    || (x.ends.testBit 2 && d.due Tm.prof (secT x.tlim))
    || (x.ends.testBit 3 && decide ((d.rdI Reg.CE_DSPREF).natAbs ≤ x.iterm))
    || (x.ends.testBit 4 && d.est.restPoint && d.manages (blockOf Reg.EST_CTL))

/-- The profile at a sweep: the step may end, and its current is committed to slot 0. -/
def Dev.profTick (d : Dev) : Dev :=
  if d.dsp.running = false || d.dspBasic = false then d
  else
    let x := d.profStep d.dsp.step
    let d := if x.type != 0 && d.profEnds x then d.profEnter 20000 (d.dsp.step + 1) else d
    let x := d.profStep d.dsp.step
    let volts := d.cellIds.filterMap (fun c => if usable (wordCode (d.pubWord c)) then some (wordVal (d.pubWord c)) else none)
    let cv :=
      if volts.isEmpty then d.dsp.cv
      else if 0 ≤ x.current then
        clampI 0 x.current (d.dsp.cv + d.dsp.gcv * (x.vset - volts.foldl max (nthI volts 0)))
      else clampI x.current 0 (d.dsp.cv + d.dsp.gcv * (x.vset - volts.foldl min (nthI volts 0)))
    let d := if x.type = 2 then { d with dsp := { d.dsp with cv := cv } } else d
    d.profCommit (if x.type = 1 then x.current else if x.type = 2 then cv else 0)

/-! ### One run (R181 to R203) -/

/-- The parameters that must be set are set, and the first table pair is present. -/
def Dev.estReady (d : Dev) : Bool :=
  d.pv Par.QNOM != 0 && d.pv Par.VEOD != 0 && d.pv Par.VEOC != 0 && d.tabOn 0 && d.tabOn 1

/-- The sweep of every known cell; one without a record takes its SoC from its first usable value (R208). -/
def Dev.cellsSweep (d : Dev) (dq ns i : Int) : Dev :=
  d.cellIds.foldl (fun (d : Dev) c =>
    match d.cell c with
    | some x =>
      let (y, held) := d.cellSweep c x dq ns i
      let d := d.setCell c y
      let d := if (y.flags.testBit 5 && !x.flags.testBit 5) || (y.flags.testBit 4 && !x.flags.testBit 4) then d.fw 0x3012 [nw c] else d
      if held then d.relearn else d
    | none =>
      if usable (wordCode (d.pubWord c)) then
        let x := d.cellNew 0 (quotR one30 5)
        let t := (d.cellTemp c).1
        let v := wordVal (d.pubWord c)
        let vlc := v - dropUv (d.rcOf c x t).1 i
        d.setCell c { x with z := (d.ocvInv c 0 vlc t).1, vlc := vlc, meas := true, sum := vlc, n := 1 }
      else d) d

/-- The voltages of this sweep join the history of the last minute. -/
def Dev.histAdd (d : Dev) : Dev :=
  let now := d.est.lastTick
  let l := d.cellIds.filterMap (fun c => if usable (wordCode (d.pubWord c)) then some (c, wordVal (d.pubWord c)) else none)
  let h := d.est.hist ++ [(now, l)]
  let old := (h.filter (fun e => decide (e.1 + secT 60 ≤ now))).length
  { d with est := { d.est with hist := h.drop (old - 1) } }

/-- The charge and the energy of the sweep join the throughput of the string record, whoever runs the estimator (Table 7.6,
R212). -/
def Dev.thruAdd (d : Dev) : Dev :=
  let q := d.qlat1
  let dq : Int := match d.est.thruQ with | some p => q - p | none => 0
  { d with est := { d.est with thruQ := some q, qThru := d.est.qThru + dq.natAbs, eThru := d.est.eThru + (dq * d.swp.vstr / 1000000).natAbs } }

/-- The estimator takes the latched charge and the tick of the sweep, and counts the current towards the next correction. -/
def Dev.estTake (d : Dev) (q : Int) (tick : Nat) (i : Int) : Dev :=
  let d := d.nextFree.2
  { d with est := { d.est with lastQ := some q, lastTick := tick, corAbs := d.est.corAbs + i.natAbs, corN := d.est.corN + 1 } }

/-- The record of current that was missing is kept up to the sweep taken last (R200). -/
def Dev.gapTake (d : Dev) : Dev := { d with est := { d.est with gap := d.bit Reg.EST_STAT 0 } }

/-- The basic estimator takes the sweep: every cell, the anchors, rest and rotation, the results and their publication. -/
def Dev.estBasic (d : Dev) : Dev :=
  let q := d.qlat1
  let tick := d.swp.lastIssue.getD d.now
  let dq : Int := match d.est.lastQ with | some p => q - p | none => 0
  let ns : Int := match d.est.lastQ with | some _ => 8 * ((tick - d.est.lastTick : Nat) : Int) | none => 0
  let i := d.rdI Reg.EST_ILAT1
  let d := ((d.estTake q tick i).cellsSweep dq ns i).gapTake
  (d.histAdd.ends.rests dq ns).rotRequest.results.estPub

/-- A newly published sweep reaches system firmware on a duty or alone module: the estimator runs unless EST is claimed or its
parameters are missing, and the throughput, the local profile, the balancing targets and the derating follow in any case
(R142, R164, R212, R276). -/
def Dev.estRun (d : Dev) : Dev :=
  if d.pwr.full = false || d.leads = false || d.bit Reg.PWR_STAT 6 || (d.rd Reg.SWP_COUNT).toNat = d.est.lastCount then d
  else
    let d := ({ d with est := { d.est with lastCount := (d.rd Reg.SWP_COUNT).toNat } }).thruAdd
    let d := if d.manages estBlock && d.estReady then d.estBasic else d
    d.profTick.balFromSoc.deratedLimits.rotStart

/-- The correction of every eligible cell after CORINT seconds (R189). -/
def Dev.correction (d : Dev) : Dev :=
  let n := d.pv Par.CORINT
  if d.pwr.full = false || d.leads = false || !d.manages estBlock || d.estReady = false || n = 0
      || decide (d.now < d.est.corTick + secT n) then d
  else
    let calm := decide (d.est.corAbs * 360 ≤ d.est.corN * d.pv Par.ICORMAX * d.pv Par.QNOM) && d.est.corN != 0 && d.pv Par.ICORMAX != 0
    let d := d.known.foldl (fun (d : Dev) e =>
      let (c, x) := e
      let y :=
        if calm && x.allOk && x.n != 0 then
          let t := (d.cellTemp c).1
          let b := d.branchOf x
          let (zo, out) := d.ocvInv c b (quotR x.sum x.n) t
          let slope := d.ocvSlope c b zo t
          if out || slope ≤ 0 || decide (slope < (d.pv Par.SLOPEMIN : Int)) then x else x.correct zo (sigmaOf (d.pv Par.VSIGL) slope)
        else x
      d.setCell c { y with sum := 0, n := 0, allOk := true }) d
    { d with est := { d.est with corTick := d.now, corAbs := 0, corN := 0 } }

/-! ### Commands -/

/-- A published sweep reaches the estimator. -/
def execEstimatorRun (s : State) : Host.Outcome State Fault Refusal :=
  s.lift (fun d => d.estRun)

/-- The correction interval has passed. -/
def execCorrection (s : State) : Host.Outcome State Fault Refusal :=
  s.lift (fun d => d.correction)

/-- A write of EST_PUB. -/
def execEstPub (src : Writer) (s : State) : Host.Outcome State Fault Refusal :=
  s.lift (fun d => d.gate src Reg.EST_PUB (fun d => d.estPub))

/-- The publication timeout. -/
def execPublicationTimeout (s : State) : Host.Outcome State Fault Refusal :=
  s.lift (fun d => d.pubTimeout)

/-- The rest-starvation time has passed. -/
def execRestStarvation (s : State) : Host.Outcome State Fault Refusal :=
  s.lift (fun d => d.starve)

end Sys2Proof.Machine
end

