-- ==== Sys2Proof/Machine/Vault.lean ====
section
/-! DEFINITION. The Storeroom: its image, writes, loading (R204 to R208), release of the estimator (R213), and transport
mode with the entry to Standby (R209, R210, R527). -/

namespace Sys2Proof.Machine

/-! ### The image (R204) -/

/-- The base of Storeroom copy `k`. -/
def stoBase (k : Nat) : Nat := 0x20000000 + 0x100000 * k

/-- The format version that this model writes and supports (DESIGN CHOICE: log entry 89). -/
def stoVersion : Nat := 1

/-- A grading record (Table 7.8). -/
def Grade.bytes (g : Grade) : List Byte :=
  leBytes 4 g.q ++ leBytes 2 g.r0 ++ leInt 2 g.t ++ leInt 4 g.z ++ leBytes 2 g.flags ++ leBytes 2 g.run

/-- An entry of the learning log: cell, Q_new, w, time. -/
def logBytes (e : Nat × Nat × Nat × Nat) : List Byte :=
  leBytes 4 e.1 ++ leBytes 4 e.2.1 ++ leBytes 4 e.2.2.1 ++ leBytes 4 e.2.2.2 ++ List.replicate 16 0

/-- A descriptor word of IMP as the impedance parameter block gives it. -/
def Dev.impGiven (d : Dev) (a : Nat) : Word := (getO d.managed a).getD 0

/-- The impedance section (Table 8.2) with the descriptors of the parameter block, whatever a claim of IMP has put into the
registers (R234), and the day number beside the time of the last entry (DESIGN CHOICE: log entry 191). -/
def Dev.impSection (d : Dev) : List Byte :=
  let head := leBytes 4 stoVersion
    ++ (List.range 16).flatMap (fun b => wordsBytes [d.impGiven (Reg.IMP_BIN b 0), d.impGiven (Reg.IMP_BIN b 1)])
    ++ (List.range 8).flatMap (fun n => wordsBytes [d.impGiven (Reg.IMP_INJ n 0), d.impGiven (Reg.IMP_INJ n 1), d.impGiven (Reg.IMP_INJ n 2)])
    ++ leBytes 1 (d.pv Par.RBIN0) ++ leBytes 1 (d.pv Par.RBIN1) ++ leBytes 1 (d.pv Par.TBIN) ++ leBytes 1 0 ++ leBytes 4 d.est.dayAt ++ leBytes 4 d.est.day
  let infer := (List.range 64).flatMap (fun k => leBytes 4 (d.pv (Par.INFER (k / 16) (k % 16))))
  let z := (List.range 10240).flatMap (fun k => match getO d.est.impZ k with | some e => wordsBytes [e.1, e.2] | none => List.replicate 8 0)
  let hist := (List.range 40960).flatMap (fun k => wordsBytes [(getO d.est.daily k).getD 0])
  fitBytes 0x1000 (fitBytes 256 head ++ infer) ++ z ++ hist ++ List.replicate 0x3000 0

/-- The body of a copy, from offset 0x100 to the used length. -/
def Dev.stoBody (d : Dev) : List Byte :=
  let cells := (List.range 640).flatMap (fun c => d.cellRec c)
  let wires := (List.range 816).flatMap (fun k => wordsBytes [d.rd (Reg.BAL_RWIRE (k / 17) (k % 17))])
  let grades := (List.range 640).flatMap (fun c => match getO d.est.grades c with | some g => g.bytes | none => List.replicate 16 0)
  let log := d.est.log.flatMap logBytes
  fitBytes 0x7F00 (d.stringRec ++ cells) ++ fitBytes 0x1000 wires ++ fitBytes 0x3000 grades ++ fitBytes 0x4000 log
    ++ d.impSection ++ (match d.est.section_ with | some p => fitBytes 0x40000 p | none => [])

/-- A copy's header (Table 7.5). -/
def Dev.stoHeader (d : Dev) (seq used reason : Nat) (body : List Byte) : List Byte :=
  let mask := if d.est.section_.isSome then 127 else 63
  let h := fitBytes 252 (leBytes 4 0x53544F52 ++ leBytes 4 stoVersion ++ leBytes 4 seq ++ leBytes 4 used
    ++ leBytes 4 (d.rd Reg.PWR_OPT_LO).toNat ++ leBytes 2 (d.fld Reg.PWR_OPT_HI 15 0) ++ leBytes 2 0
    ++ leBytes 4 (d.rd Reg.PWR_CYCCNT).toNat ++ leBytes 4 (reason % 256) ++ leBytes 4 mask)
  h ++ leBytes 4 (crc32c (h ++ body)).toNat

/-! ### Copies (R205) -/

/-- Word `o` of the header of copy `k`. -/
def Dev.stoW (d : Dev) (k o : Nat) : Word := d.word (stoBase k + o)

/-- Copy `k` has the magic and a CRC-32C that checks, whatever its version. -/
def Dev.stoCrc (d : Dev) (k : Nat) : Bool :=
  let used := (d.stoW k 0xC).toNat
  d.stoW k 0 = 0x53544F52 && 0x100 ≤ used && used ≤ 0x100000
    && d.stoW k 0xFC = crc32c (d.bytes (stoBase k) 0xFC ++ d.bytes (stoBase k + 0x100) (used - 0x100))

/-- Copy `k` checks: magic, supported version, CRC-32C. -/
def Dev.stoOk (d : Dev) (k : Nat) : Bool := d.stoCrc k && (d.stoW k 4).toNat = stoVersion

/-- The copy that counts. -/
def Dev.stoPick (d : Dev) : Option Nat := newestOf (d.stoOk 0) (d.stoOk 1) (d.stoW 0 8) (d.stoW 1 8)

/-- Operating time in ms. -/
def Dev.opMs (d : Dev) : Nat := (d.rd Reg.PWR_OPT_LO).toNat + 2 ^ 32 * d.fld Reg.PWR_OPT_HI 15 0

/-- A write with a reason begins: one request to the controller for the copy that does not hold the newest sequence, its
body first, then the header with its CRC last; a controller that takes no request refuses it (R205, R207, R545). -/
def Dev.stoCopy (d : Dev) (reason : Nat) : Dev :=
  let d := { d with est := { d.est with reasons := [] } }
  let (k, seq) : Nat × Nat :=
    match d.stoPick with
    | some k => (1 - k, ((d.stoW k 8).toNat + 1) % 2 ^ 32)
    | none => (0, 1)
  let body := d.stoBody
  let head := d.stoHeader seq (0x100 + body.length) reason body
  let a := stoBase k
  if d.nvcOpen = false || 16 ≤ d.nvc.queue.length then d.nvcCopy .store a (head ++ body)
  else
    let d := d.nvcCopy .store a (head ++ body)
    let d := { d with est := { d.est with wroteAt := some d.opMs } }
    (d.mirrorParts 3 (a + 0x100) 256 body).mirrorParts 3 a 1 head

/-- A write; when it carries that of Hold-up entry the recorder flush follows it in the controller's queue (R494, R522). -/
def Dev.stoWrite (d : Dev) (reason : Nat) : Dev :=
  let hold := d.est.reasons.contains 5
  let d := d.stoCopy reason
  if hold then d.flushReq else d

/-- The reason of an exit from transport, 0x06 in the header: unlike the entry it keeps the spacing of R206. -/
def stoExit : Nat := 0x106

/-- A write waits and may begin when none is in progress: 10 s after the last one, or at once for hold-up and transport entry
(R206). -/
def Dev.stoService (d : Dev) : Dev :=
  match d.est.reasons with
  | [] => d
  | r :: _ =>
    let fast := d.est.reasons.find? (fun x => x = 5 || x = 6)
    let spaced := match d.est.wroteAt with | some t => decide (t + 10000 ≤ d.opMs) | none => true
    if d.leads = false || d.pwr.full = false || d.stoBusy then d
    else
      match fast with
      | some f => d.stoWrite f
      | none => if spaced then d.stoWrite r else d

/-- STOINT has passed since the last write. -/
def Dev.stoInterval (d : Dev) : Dev :=
  let n := d.pv Par.STOINT
  if d.pwr.full && d.leads && n != 0 && decide ((d.est.wroteAt.getD 0) + 1000 * n ≤ d.opMs) && !d.est.reasons.contains 1 then d.stoAsk 1 else d

/-! ### Loading (R208) -/

/-- A cell from its record; none for a record without capacity. -/
def Dev.cellParse (d : Dev) (l : List Byte) : Option CellSt :=
  let q := leNat (slice l 4 4)
  if q = 0 then none
  else
    let s16 (o : Nat) : Int := (leNat (slice l o 2) : Int) * 16384
    let f := leNat (slice l 0x2C 1)
    let x := d.cellNew (sx 32 (leNat (l.take 4))) (s16 0x14)
    let h : Int := q * d.pv Par.HYSQ + 1
    some { x with
      q := q
      sq := s16 0x18
      chg := sx 64 (leNat (slice l 8 8))
      zr := sx 32 (leNat (slice l 0x10 4))
      sr := s16 0x16
      slope := leNat (slice l 0x1C 2)
      restAt := leNat (slice l 0x28 4)
      rfac := leNat (slice l 0x1A 2)
      count := leNat (slice l 0x1E 2)
      learnAt := leNat (slice l 0x24 4)
      v1 := sx 32 (leNat (slice l 0x20 4))
      flags := f
      net := if f % 4 = 1 then h else if f % 4 = 2 then -h else 0 }

/-- A grading record from its bytes; none for an empty one. -/
def gradeParse (l : List Byte) : Option Grade :=
  if l.all (fun b => b = 0) then none
  else some { q := leNat (l.take 4), r0 := leNat (slice l 4 2), t := sx 16 (leNat (slice l 6 2)), z := sx 32 (leNat (slice l 8 4)), flags := leNat (slice l 12 2), run := leNat (slice l 14 2) }

/-- The state of the estimator that copy `k` holds. -/
def Dev.stoTake (d : Dev) (k : Nat) : Dev :=
  let a := stoBase k
  let n8 (o : Nat) : Nat := leNat (d.bytes (a + 0x100 + o) 8)
  let n4 (o : Nat) : Nat := leNat (d.bytes (a + 0x100 + o) 4)
  let cells := (List.range 640).foldl (fun l c => putO l c (d.cellParse (d.bytes (a + 0x500 + 48 * c) 48))) []
  let grades := (List.range 640).foldl (fun l c => putO l c (gradeParse (d.bytes (a + 0x9000 + 16 * c) 16))) []
  let log := (List.range 64).filterMap (fun n =>
    let b := a + 0xC000 + 32 * n
    if (d.word (b + 4)) = 0 then none else some ((d.word b).toNat, (d.word (b + 4)).toNat, (d.word (b + 8)).toNat, (d.word (b + 12)).toNat))
  let z := (List.range 10240).foldl (fun l n =>
    let w0 := d.word (a + 0x11000 + 8 * n)
    let w1 := d.word (a + 0x11004 + 8 * n)
    putO l n (if w0 = 0 && w1 = 0 then none else some (w0, w1))) []
  let daily := (List.range 40960).foldl (fun l n =>
    let w := d.word (a + 0x25000 + 4 * n)
    putO l n (if w = 0 then none else some w)) []
  let sect := if (d.stoW k 0x20).toNat.testBit 6 then some (d.bytes (a + 0x50000) 0x40000) else none
  let e := { d.est with cells := cells, grades := grades, log := log, impZ := z, daily := daily, section_ := sect, anc1 := sx 64 (n8 0x10), anc2 := sx 64 (n8 0x18), transport := decide (2 ^ 31 ≤ n4 0x24), trAt := n4 0x28, learnAt := n4 0x2C, qualAt := n4 0x30, qThru := 1000000 * n8 0x34, eThru := 3600000000 * n8 0x3C, run := n4 0x44, wroteAt := some (leNat (d.bytes (a + 0x10) 6)), dayAt := (d.word (a + 0x100E8)).toNat, day := (d.word (a + 0x100EC)).toNat }
  let d := { d with est := e }
  (List.range 816).foldl (fun (d : Dev) n => d.wr (Reg.BAL_RWIRE (n / 17) (n % 17)) (d.word (a + 0x8000 + 4 * n))) d

/-- A copy whose CRC is good and whose content is refused makes entry 0x3003. -/
def Dev.stoOld (d : Dev) (k : Nat) : Dev := if d.stoCrc k && !d.stoOk k then d.fw 0x3003 [nw k] else d

/-- Charge and time count on from now. -/
def Dev.stoBaseline (d : Dev) (q : Int) : Dev := { d with est := { d.est with lastQ := some q, thruQ := some q, lastTick := d.now, corTick := d.now } }

/-- The cells of a loaded copy, brought forward over a warm reset, or with SIGCOLD after any other (R208). -/
def Dev.stoForward (d : Dev) (warm : Bool) (dq dt : Int) : Dev :=
  let f (x : CellSt) : CellSt :=
    if warm then d.advance x dq dt
    else { x with sz := max x.sz (quotR (d.pv Par.SIGCOLD * one30) 1000), flags := flagSet x.flags 7 false }
  { d with est := { d.est with cells := Store.mapKeep (fun _ => none) (fun _ (c : Option CellSt) => c.map f) d.est.cells } }

/-- System firmware loads the Storeroom at its start (R205, R208). -/
def Dev.stoLoad (d : Dev) : Dev :=
  let d := (d.stoOld 0).stoOld 1
  let q := d.acc.q1 / 16777216
  match d.stoPick with
  | none => ({ (d.stoBaseline q) with est := { (d.stoBaseline q).est with cells := [] } }).fw 0x3002 []
  | some k =>
    let warm := d.stoW k 0x18 = d.rd Reg.PWR_CYCCNT
    let snap := sx 64 (leNat (d.bytes (stoBase k + 0x100) 8))
    let ms := leNat (d.bytes (stoBase k + 0x10) 6)
    (((d.stoTake k).stoBaseline q).stoForward warm (q - snap) (1000000 * ((d.opMs - ms : Nat) : Int))).fw 0x3001 [nw k]

/-! ### Release of EST (R213) -/

/-- System firmware takes SoC and capacity from the registers the program has left, keeps its own capacity where the
published one lies outside QNOM ± QBAND, and writes the Storeroom.  The charge of the string under the claim counts since the
last rest point, with no balancing charge (DESIGN CHOICE: log entry 190), and charge and time count on from the last latch
(R181, R182, R200).  What the estimator did not see under the claim counts for no rest, no minute before it and no correction:
those begin anew (R189, R199, R203).  A mapped cell without a record gets one. -/
def Dev.estResume (d : Dev) : Dev :=
  let n : Int := d.pv Par.QNOM
  let dq : Int := match d.est.lastQ with | some p => d.qlat1 - p | none => 0
  let d := d.cellIds.foldl (fun (d : Dev) c =>
    let x := (d.cell c).getD (d.cellNew 0 0)
    let q := (d.rd (Reg.EST_CCAP c)).toNat
    let ok := decide (100 * (((q : Int) - n).natAbs : Int) ≤ n * d.pv Par.QBAND)
    let y := d.advance x dq 0
    d.setCell c { x with chg := y.chg, net := y.net, z := d.rdI (Reg.EST_CSOC c), q := if ok then q else x.q, sz := max x.sz (quotR (d.pv Par.SIGREL * one30) 1000), sum := 0, n := 0, allOk := true, pend := true }) d
  let d := { d with est := { d.est with lastQ := some d.qlat1, lastTick := d.swp.lastIssue.getD d.now, corTick := d.now, corAbs := 0, corN := 0, restSince := none, restTaken := false, restPoint := false, quasiSince := none, quasiTaken := false, hist := [] } }
  (d.sysSetFld Reg.EST_FLAGS 5 5 0).stoAsk 7

/-! ### Standby (R527) -/

/-- The module enters Standby: 5 idle, 6 transport; only the always-on domain stays powered. -/
def Dev.standby (d : Dev) (st : Nat) : Dev :=
  let d := d.setFld Reg.PWR_STAT 15 13 st
  { d with sys := { d.sys with stopped := true }, prog := { d.prog with stopped := true }, pwr := { d.pwr with full := false, recUp := false }, scc := { d.scc with k1 := .off, k2 := .off }, pins := { d.pins with driveRole := false, rolePwm := false, convEn := false, killOut := false }, pwm := pairsDead d.pwm }

/-! ### Transport mode (R209, R210) -/

/-- The Storeroom write that an entry to Standby asked for is complete or was refused. -/
def Dev.stoDone (d : Dev) : Bool := !d.est.reasons.contains 6 && !d.stoBusy

/-- The phase of an entry to Standby: 0 none, 1 waits for the contactors, 2 for the Storeroom write, 3 for that of
Standby (idle). -/
def Dev.setTr (d : Dev) (k : Nat) : Dev := { d with est := { d.est with trPhase := k } }

/-- Entry to transport mode once the contactors are open: TRANSPORT and its time, and the Storeroom write. -/
def Dev.transOpen (d : Dev) : Dev :=
  let d := d.wr Reg.CE_DSPREF 0
  let d := { d with est := { d.est with transport := true, trAt := d.opSec } }
  ((d.setTr 2).stoAsk 6).reform.stoService

/-- The end of the entry after the write: the partner follows, the ring sleeps, entry 0x3040, Standby (transport). -/
def Dev.transEnter (d : Dev) : Dev :=
  let d := d.setTr 0
  let d := if d.hasShade then d.send .twin 0x09 [3, 0, 0, 0, 0, 0, 0, 0] else d
  let d := if d.role = 2 then d else d.ringSleep
  (d.fw 0x3040 []).standby 6

/-- A transport request goes on: it waits for OPEN at most DROPTO + 100 ms, then for the Storeroom write, and enters, or is
refused. -/
def Dev.transStep (d : Dev) : Dev :=
  let d := if d.est.trPhase = 1 && d.sccState = 0 then d.transOpen else d
  if d.est.trPhase = 2 then (if d.stoDone then d.transEnter else d)
  else if d.est.trPhase = 1 && d.due Tm.trans (d.sccMs 23 16 + msT 100) then (d.setTr 0).fw 0x3042 []
  else d

/-- A transport request: an open request, then the waits. -/
def Dev.transReq (d : Dev) : Dev :=
  if d.leads = false || d.pwr.full = false then d
  else if d.est.trPhase = 1 || d.est.trPhase = 2 then d.transStep
  else (((d.sccCmd false 2).setTr 1).start Tm.trans).transStep

/-- The first start with TRANSPORT set: with WAKE_CHG the string returns to service, else the module goes back to
Standby (transport). -/
def Dev.transExit (d : Dev) (returned : Bool) : Dev :=
  if d.est.transport = false || d.pwr.full = false then d
  else if d.pins.wakeChg then
    let secs : Int := ((d.opSec - d.est.trAt : Nat) : Int)
    let k := quotR (d.pv Par.SDRATE * secs * one30) (1000000 * 86400)
    let cells := Store.mapKeep (fun _ => none) (fun _ (c : Option CellSt) => c.map (fun x => { x with z := x.z - k, sz := x.sz + k })) d.est.cells
    let d := { d with est := { d.est with cells := cells, transport := false } }
    ((d.stoAsk stoExit).stoService.wakeSend returned).fw 0x3041 []
  else d.standby 6

/-! ### Commands -/

/-- A waiting Storeroom write begins. -/
def execStoreroomWrite (s : State) : Host.Outcome State Fault Refusal :=
  s.lift (fun d => d.stoService)

/-- The Storeroom interval. -/
def execStoreroomInterval (s : State) : Host.Outcome State Fault Refusal :=
  s.lift (fun d => d.stoInterval)

/-- A transport request, and its wait for the contactors. -/
def execTransportRequest (s : State) : Host.Outcome State Fault Refusal :=
  s.lift (fun d => d.transReq)

/-- The first start after transport. -/
def execTransportExit (returned : Bool) (s : State) : Host.Outcome State Fault Refusal :=
  s.lift (fun d => d.transExit returned)

/-- COMMAND 2 of the plant controller. -/
def execCommandTransport (h : PlantHead) (l : List Byte) (s : State) : Host.Outcome State Fault Refusal :=
  s.lift (fun d => d.plantCommand h l 2 (fun d => d.transReq))

end Sys2Proof.Machine
end

