-- ==== Sys2Proof/Machine/Fit.lean ====
section
/-! DEFINITION. Model fit, internal temperature and ageing from impedance results (R229 to R232). -/

namespace Sys2Proof.Machine

/-- Word `w` of the result of cell `c` in bin `b` (R223). -/
def Dev.impRes (d : Dev) (c b w : Nat) : Word := d.word ((d.rd Reg.IMP_RESBASE).toNat + 16 * (16 * c + b) + 4 * w)

/-- The latest valid result of cell `c` in bin `b`, when its window closed no longer than `age` s ago; one that came from the
Storeroom has no known age, and an age of zero is no limit (R12). -/
def Dev.impFresh (d : Dev) (c b age : Nat) : Option (Int × Int) :=
  match getO d.est.impZ (16 * c + b) with
  | none => none
  | some z =>
    let t := getN d.imp.zAt (16 * c + b)
    if age = 0 || (t != 0 && d.now + 1 - t ≤ secT age) then some (z.1.toInt, z.2.toInt) else none

/-- The valid results of bin `b` become the latest ones, with the tick of the window's closing, and its IMP_DONE bit clears. -/
def Dev.impCollect (d : Dev) (b : Nat) : Dev :=
  if d.bit Reg.IMP_DONE b = false then d
  else
    let d := (List.range 640).foldl (fun (d : Dev) c =>
      let k := 16 * c + b
      if bitOf (d.impRes c b 3) 7 then
        { d with est := { d.est with impZ := putO d.est.impZ k (some (d.impRes c b 0, d.impRes c b 1)) },
                 imp := { d.imp with zAt := putN d.imp.zAt k (getN d.timers (0x300 + b)) } }
      else d) d
    d.setBit Reg.IMP_DONE b false

/-- The period of bin `b`'s reference in ns, at the increment in use. -/
def Dev.binPeriod (d : Dev) (b : Nat) : Nat := (quotR (8 * 2 ^ 48 * d.binDiv b) (d.angInc * d.binMul b : Nat)).toNat

/-- τ in µs from ωτ, scaled by 2^30, and the period of the reference in ns: the quotient by 2π, rounded to one of the whole
numbers that bound it (the rounding is free: log entry 193). -/
def tauOf (wt : Int) (ns : Nat) : Int :=
  let n := wt * ns * 1000000000000000
  clampI (n / (2 * 3141592653589794 * (2 ^ 30 * 1000))) (n / (2 * 3141592653589793 * (2 ^ 30 * 1000)) + 1) (Config.tauOf wt ns)

/-- R0, R1 in nΩ and τ in µs from the results of RBIN0 and RBIN1 (R229); none where no fit is made. -/
def Dev.modelFit (d : Dev) (z0 z1 : Int × Int) : Option (Int × Int × Int) :=
  let re := z1.1 - z0.1
  let im := z1.2
  if re ≤ 0 || 0 ≤ im then none
  else
    let wt := quotR (-im * one30) re
    some (z0.1, quotR (re * re + im * im) re, tauOf wt (d.binPeriod (d.pv Par.RBIN1)))

/-- A value lies between `a` and `b` quarters of a reference. -/
def quarters (v ref a b : Int) : Bool := decide (a * ref ≤ 4 * v) && decide (4 * v ≤ b * ref)

/-- The fit of cell `c`: IMP_CELL, and with MVALID the ageing factors (R229, R231). -/
def Dev.fitCell (d : Dev) (c : Nat) (x : CellSt) : Dev :=
  match d.impFresh c (d.pv Par.RBIN0) (d.pv Par.RAGE), d.impFresh c (d.pv Par.RBIN1) (d.pv Par.RAGE) with
  | some z0, some z1 =>
    match d.modelFit z0 z1 with
    | none => d
    | some (r0, r1, tau) =>
      let t := (d.cellTemp c).1
      let f0 := d.model 0 t * 1000
      let f1 := d.model 1 t * 1000
      let ok := quarters r0 f0 2 32 && quarters r1 f1 1 16 && quarters tau (d.model 2 t * 100000) 1 16
      let d := (((d.wr (Reg.IMP_CELL c 0) (iw r0)).wr (Reg.IMP_CELL c 1) (iw r1)).wr (Reg.IMP_CELL c 2) (iw tau)).setBit (Reg.IMP_CELL c 3) 31 ok
      if ok then
        let a0 := quotR (r0 * 4096) f0
        let a1 := quotR (r1 * 4096) f1
        let d := d.setCell c { x with rfac := a0.toNat }
        let d := { d with est := { d.est with dayF := putO d.est.dayF c (some ((getO d.est.dayF c).getD [] ++ [(a0, a1)])) } }
        if d.pv Par.AGEWARN != 0 && (d.pv Par.AGEWARN : Int) * f0 < r0 * 4096 && !getB d.imp.aged c then
          ({ d with imp := { d.imp with aged := putB d.imp.aged c true } }).fw 0x4040 [nw c]
        else d
      else d
  | _, _ => d

/-- The temperature of column `k` at phase `th`, and whether it was clamped (R230). -/
def Dev.inferCol (d : Dev) (k : Nat) (th : Int) : Int × Bool :=
  let n := d.pv Par.NPT
  let ph (p : Nat) : Int := sx 16 (d.pv (Par.INFER k p) / 65536)
  let tp (p : Nat) : Int := sx 16 (d.pv (Par.INFER k p))
  if th < ph 0 then (tp 0, true)
  else if ph (n - 1) < th then (tp (n - 1), true)
  else
    let p := lastLe ph th n
    if p + 1 = n then (tp p, false)
    else (quotR (tp p * (ph (p + 1) - ph p) + (tp (p + 1) - tp p) * (th - ph p)) (ph (p + 1) - ph p), false)

/-- The temperature inferred at phase `th` and SoC `z`, and whether it was clamped in phase and in SoC. -/
def Dev.infer (d : Dev) (th z : Int) : Int × Bool × Bool :=
  let pos := 5 * z - one30
  if pos ≤ 0 then let r := d.inferCol 0 th; (r.1, r.2, decide (pos < 0))
  else if 3 * one30 ≤ pos then let r := d.inferCol 3 th; (r.1, r.2, decide (3 * one30 < pos))
  else
    let k := (pos / one30).toNat
    let a := d.inferCol k th
    let b := d.inferCol (k + 1) th
    (quotR (a.1 * one30 + (b.1 - a.1) * (pos % one30)) one30, a.2 || b.2, false)

/-- The internal temperature of cell `c` from TBIN; an ITDEV of zero tests nothing (R12), and a failed plausibility test makes entry 0x4030 at most once a day. -/
def Dev.inferCell (d : Dev) (c : Nat) (x : CellSt) : Dev :=
  if d.pv Par.NPT < 2 then d.setBit (Reg.IMP_CELL c 3) 30 false
  else
    match d.impFresh c (d.pv Par.TBIN) (d.pv Par.ITAGE) with
    | none => d.setBit (Reg.IMP_CELL c 3) 30 false
    | some z =>
      let (t, cth, cz) := d.infer (angleOf z.2 z.1) x.z
      let near := match d.surfTemp c with | some s => d.pv Par.ITDEV = 0 || (t - s.1).natAbs ≤ d.pv Par.ITDEV | none => false
      let far := (d.surfTemp c).isSome && !near
      let a := Reg.IMP_CELL c 3
      let d := ((d.setFld a 15 0 (t % 65536).toNat).setBit a 29 (cth || cz)).setBit a 30 (near && !cth)
      if far && !getB d.imp.implausible c then
        ({ d with imp := { d.imp with implausible := putB d.imp.implausible c true } }).fw 0x4030 [nw c]
      else d

/-- LIM_SWTRIP.OCH follows the inferred temperatures (R232); an ITOCH of zero sets none (R12). -/
def Dev.innerOchre (d : Dev) : Dev :=
  if !d.manages 10 then d
  else
    let hot := d.pv Par.ITOCH != 0 && d.cellIds.any (fun c => d.bit (Reg.IMP_CELL c 3) 30 && decide ((d.pv Par.ITOCH : Int) ≤ sx 16 (d.fld (Reg.IMP_CELL c 3) 15 0)))
    if hot = d.bit Reg.LIM_SWTRIP 0 then d
    else
      let d := (d.setBit Reg.LIM_SWTRIP 0 hot).srcOchre 13 hot
      if hot then d.fw 0x4031 [] else d

/-- System firmware takes new results, latest values and fits; the temperatures and the Ochre of class 13 follow whether
results are new or have grown too old. -/
def Dev.fitRun (d : Dev) : Dev :=
  if d.pwr.full = false || !d.manages (blockOf Reg.IMP_CTL) then d
  else
    let d :=
      if d.fld Reg.IMP_DONE 15 0 = 0 then d
      else
        let d := (List.range 16).foldl (fun (d : Dev) b => d.impCollect b) d
        d.known.foldl (fun (d : Dev) e => d.fitCell e.1 e.2) d
    let d := d.known.foldl (fun (d : Dev) e => d.inferCell e.1 e.2) d
    d.innerOchre

/-- The day's factors enter the history at the first idle window after 24 h of operation, in the place of those of 64 days
before; a cell without a fit that day has none (R231, R233). -/
def Dev.ageingDaily (d : Dev) : Dev :=
  if d.pwr.full = false || d.bit Reg.TT_STAT 5 = false || d.opSec < d.est.dayAt + 86400 || !d.manages (blockOf Reg.IMP_CTL) then d
  else
    let s := d.est.day % 64
    let daily := d.est.dayF.foldl (fun l e =>
      match e.2 with
      | some f =>
        let m (g : Int × Int → Int) : Nat := (clampI 0 65535 (medianI (f.map g))).toNat
        putO l (64 * e.1 + s) (some (nw (m (fun p => p.2) * 65536 + m (fun p => p.1))))
      | none => l) (d.est.daily.filter (fun e => e.1 % 64 != s))
    { d with est := { d.est with daily := daily, day := d.est.day + 1, dayAt := d.opSec, dayF := [] }, imp := { d.imp with implausible := [] } }

/-! ### Commands -/

/-- New impedance results reach system firmware. -/
def execModelFit (s : State) : Host.Outcome State Fault Refusal :=
  s.lift (fun d => d.fitRun)

/-- The daily ageing entry. -/
def execAgeingDaily (s : State) : Host.Outcome State Fault Refusal :=
  s.lift (fun d => d.ageingDaily)

end Sys2Proof.Machine
end

