-- ==== Sys2Proof/Machine/Crypto.lean ====
section
/-! DEFINITION. SHA-256 and ECDSA over P-256, which the update and the service port use by name (R505, R509, R511).
PRESUMED, log entry 128: FIPS 180-4 and FIPS 186, which the spec does not restate. -/

namespace Sys2Proof.Machine

/-! ### SHA-256 -/

/-- The round constants. -/
def shaK : List Word :=
  [0x428A2F98, 0x71374491, 0xB5C0FBCF, 0xE9B5DBA5, 0x3956C25B, 0x59F111F1, 0x923F82A4, 0xAB1C5ED5] ++
  [0xD807AA98, 0x12835B01, 0x243185BE, 0x550C7DC3, 0x72BE5D74, 0x80DEB1FE, 0x9BDC06A7, 0xC19BF174] ++
  [0xE49B69C1, 0xEFBE4786, 0x0FC19DC6, 0x240CA1CC, 0x2DE92C6F, 0x4A7484AA, 0x5CB0A9DC, 0x76F988DA] ++
  [0x983E5152, 0xA831C66D, 0xB00327C8, 0xBF597FC7, 0xC6E00BF3, 0xD5A79147, 0x06CA6351, 0x14292967] ++
  [0x27B70A85, 0x2E1B2138, 0x4D2C6DFC, 0x53380D13, 0x650A7354, 0x766A0ABB, 0x81C2C92E, 0x92722C85] ++
  [0xA2BFE8A1, 0xA81A664B, 0xC24B8B70, 0xC76C51A3, 0xD192E819, 0xD6990624, 0xF40E3585, 0x106AA070] ++
  [0x19A4C116, 0x1E376C08, 0x2748774C, 0x34B0BCB5, 0x391C0CB3, 0x4ED8AA4A, 0x5B9CCA4F, 0x682E6FF3] ++
  [0x748F82EE, 0x78A5636F, 0x84C87814, 0x8CC70208, 0x90BEFFFA, 0xA4506CEB, 0xBEF9A3F7, 0xC67178F2]

/-- The initial state. -/
def shaH0 : List Word := [0x6A09E667, 0xBB67AE85, 0x3C6EF372, 0xA54FF53A, 0x510E527F, 0x9B05688C, 0x1F83D9AB, 0x5BE0CD19]

/-- The word of a state or a schedule. -/
def shaW (l : List Word) (i : Nat) : Word := (l[i]?).getD 0

/-- The message with its padding: 0x80, zeros, and the length in bits as 8 big-endian bytes. -/
def shaPad (l : List Byte) : List Byte :=
  let n := l.length
  l ++ 0x80 :: List.replicate ((119 - n % 64) % 64) 0 ++ beBytes 8 (8 * n)

/-- The schedule from its latest 16 words, newest first. -/
def shaSched : Nat → List Word → List Word
  | 0, w => w
  | k + 1, w =>
    let s0 (x : Word) : Word := x.rotateRight 7 ^^^ x.rotateRight 18 ^^^ (x >>> 3)
    let s1 (x : Word) : Word := x.rotateRight 17 ^^^ x.rotateRight 19 ^^^ (x >>> 10)
    shaSched k ((s1 (shaW w 1) + shaW w 6 + s0 (shaW w 14) + shaW w 15) :: w)

/-- The rounds over pairs of a constant and a schedule word, on the state a to h. -/
def shaRounds : List (Word × Word) → List Word → List Word
  | [], v => v
  | (k, w) :: t, v =>
    let a := shaW v 0
    let e := shaW v 4
    let t1 := shaW v 7 + (e.rotateRight 6 ^^^ e.rotateRight 11 ^^^ e.rotateRight 25)
      + ((e &&& shaW v 5) ^^^ (~~~ e &&& shaW v 6)) + k + w
    let t2 := (a.rotateRight 2 ^^^ a.rotateRight 13 ^^^ a.rotateRight 22)
      + ((a &&& shaW v 1) ^^^ (a &&& shaW v 2) ^^^ (shaW v 1 &&& shaW v 2))
    shaRounds t [t1 + t2, a, shaW v 1, shaW v 2, shaW v 3 + t1, e, shaW v 5, shaW v 6]

/-- One 64-byte block. -/
def shaBlock (h : List Word) (b : List Byte) : List Word :=
  let w := (List.range 16).map (fun i => nw (beNat (slice b (4 * i) 4)))
  let v := shaRounds (shaK.zip (shaSched 48 w.reverse).reverse) h
  (List.range 8).map (fun i => shaW h i + shaW v i)

/-- The blocks of a padded message. -/
def shaBlocks : Nat → List Word → List Byte → List Word
  | 0, h, _ => h
  | k + 1, h, l => if l.isEmpty then h else shaBlocks k (shaBlock h (l.take 64)) (l.drop 64)

/-- SHA-256 of a list of bytes: 32 bytes. -/
def sha256 (l : List Byte) : List Byte :=
  let m := shaPad l
  (shaBlocks (m.length / 64) shaH0 m).flatMap (fun w => beBytes 4 w.toNat)

/-! ### P-256 -/

/-- The prime, the coefficient b, the group order and the base point. -/
def p256 : Nat := 0xFFFFFFFF00000001000000000000000000000000FFFFFFFFFFFFFFFFFFFFFFFF
def p256b : Nat := 0x5AC635D8AA3A93E7B3EBBD55769886BC651D06B0CC53B0F63BCE3C3E27D2604B
def p256n : Nat := 0xFFFFFFFF00000000FFFFFFFFFFFFFFFFBCE6FAADA7179E84F3B9CAC2FC632551
def p256g : Nat × Nat :=
  (0x6B17D1F2E12C4247F8BCE6E563A440F277037D812DEB33A0F4A13945D898C296,
   0x4FE342E2FE1A7F9B8EE7EB4A7C0F9E162BCE33576B315ECECBB6406837BF51F5)

/-- `x` to the power `e` modulo `m`, over the low `k` bits of `e`. -/
def powMod (m : Nat) : Nat → Nat → Nat → Nat → Nat
  | 0, _, _, r => r
  | k + 1, x, e, r => powMod m k (x * x % m) (e / 2) (if e % 2 = 1 then r * x % m else r)

/-- The inverse of `x` modulo a prime. -/
def invMod (m x : Nat) : Nat := powMod m 256 (x % m) (m - 2) 1

/-- The sum of two points; none is the point at infinity. -/
def p256Add (a b : Option (Nat × Nat)) : Option (Nat × Nat) :=
  match a, b with
  | none, q => q
  | q, none => q
  | some (x1, y1), some (x2, y2) =>
    if x1 = x2 && (y1 + y2) % p256 = 0 then none
    else
      let l :=
        if x1 = x2 then (3 * x1 * x1 + (p256 - 3)) * invMod p256 (2 * y1) % p256
        else (y2 + p256 - y1) * invMod p256 (x2 + p256 - x1) % p256
      let x := (l * l + 2 * p256 - x1 - x2) % p256
      some (x, (l * (x1 + p256 - x) + p256 - y1) % p256)

/-- `k` times a point, over the low `n` bits of `k`. -/
def p256Mul : Nat → Nat → Option (Nat × Nat) → Option (Nat × Nat) → Option (Nat × Nat)
  | 0, _, _, r => r
  | n + 1, k, q, r => p256Mul n (k / 2) (p256Add q q) (if k % 2 = 1 then p256Add r q else r)

/-- The point lies on the curve. -/
def p256On (x y : Nat) : Bool :=
  x < p256 && y < p256 && y * y % p256 = (x * x * x + (p256 - 3) * x + p256b) % p256

/-- An ECDSA signature (r, s) over a message checks under the public key (x, y). -/
def ecdsaOk (x y r s : Nat) (msg : List Byte) : Bool :=
  if p256On x y && 0 < r && r < p256n && 0 < s && s < p256n then
    let z := beNat (sha256 msg)
    let w := invMod p256n s
    match p256Add (p256Mul 256 (z * w % p256n) (some p256g) none) (p256Mul 256 (r * w % p256n) (some (x, y)) none) with
    | some (px, _) => px % p256n = r
    | none => false
  else false

end Sys2Proof.Machine
end

