-- ==== Sys2Proof/Machine/Cyclic.lean ====
section
/-! DEFINITION. The cyclic program: its image, program starts, cycle starts, the input image and forces
(R353 to R361, R369 to R374). -/

namespace Sys2Proof.Machine

/-! ### The program image (R358 to R362) -/

/-- Program slot `k` of the NOR (Table 1.7). -/
def progSlot (k : Nat) : Nat := 0x32000000 + 0x2000000 * k

/-- The import list: two words per entry, the kind in [31:30] of the second (0 snapshot register, 1 sweep range
with its count in [15:0], 2 impedance bin), the address, first channel or bin in the first (DESIGN CHOICE: log
entry 108). -/
def Dev.imports (d : Dev) (a n : Nat) : List (Nat × Nat × Nat) :=
  (List.range (min n 1024)).map (fun i =>
    ((d.word (a + 8 * i)).toNat, fieldOf (d.word (a + 8 * i + 4)) 31 30, fieldOf (d.word (a + 8 * i + 4)) 15 0))

/-- A symbol-table entry (R359). -/
def Dev.symbolAt (d : Dev) (a : Nat) : Symbol where
  ident := (d.word a).toNat
  type := fieldOf (d.word (a + 4)) 31 16
  cls := fieldOf (d.word (a + 4)) 15 8
  initchg := bitOf (d.word (a + 4)) 0
  addr := (d.word (a + 8)).toNat
  size := (d.word (a + 12)).toNat

/-- The program image at address `b`, when it has the magic of Table 14.3. -/
def Dev.readImage (d : Dev) (b : Nat) : Option Image :=
  let w (o : Nat) : Nat := (d.word (b + o)).toNat
  if w 0 != 0x50524F47 then none
  else
    let imp := d.imports (b + w 0x44) (w 0x48)
    some {
      imageId := w 8
      instep := w 0xC % 65536
      claims := nw (w 0x10)
      cfg := nw (w 0x14)
      strict := bitOf (nw (w 0x18)) 8
      wdmult := w 0x18 % 256
      codeLen := w 0x1C
      dataLen := w 0x20
      zeroLen := w 0x24
      retLen := w 0x28
      startAddr := w 0x2C
      changeAddr := w 0x30
      stoAddr := w 0x34
      stoLen := w 0x38
      base := b
      symbols := (List.range (min (w 0x40) 2097152)).map (fun i => d.symbolAt (b + w 0x3C + 16 * i))
      snaps := ((imp.filter (fun e => e.2.1 == 0)).map (fun e => e.1)).take 256
      ranges := (imp.filter (fun e => e.2.1 == 1)).map (fun e => (e.1, e.2.2))
      bins := ((imp.filter (fun e => e.2.1 == 2)).map (fun e => e.1 % 16)).take 4
      exports := (List.range (min (w 0x50) 256)).map (fun i =>
        (w (w 0x4C + 8 * i), bitOf (nw (w (w 0x4C + 8 * i + 4))) 0)) }

/-! Addresses of R358, and where an online change is staged in system-pair SRAM (R376; DESIGN CHOICE: log entry 227). -/

abbrev stageBase : Nat := 0x10600000
abbrev codeBase : Nat := 0x10000000
abbrev dataBase : Nat := 0x10200000
abbrev stackTop : Nat := 0x105E0000
abbrev inImage : Nat := 0x105E0000
abbrev outImage : Nat := 0x105F0000

/-- `n` bytes of SRAM from `a` become zero. -/
def Dev.zeroMem (d : Dev) (a n : Nat) : Dev :=
  ({ d with mem := d.mem.filter (fun c => !(decide (a ≤ c.1) && decide (c.1 < a + n))) }).written a n

/-- `n` bytes move from `src` to `dst`. -/
def Dev.copyMem (d : Dev) (src dst n : Nat) : Dev := d.agentStore dst (d.bytes src n)

/-- The runtime sets the data sections up: code, initialised and zeroed data at every start, retained data at a
cold one, with the Storeroom program section copied to STOADDR (R357, R358). -/
def Dev.loadData (d : Dev) (p : Image) (cold : Bool) : Dev :=
  let src := p.base + 0x100
  let d := d.copyMem src codeBase p.codeLen
  let d := d.copyMem (src + p.codeLen) (dataBase + p.retLen) p.dataLen
  let d := d.zeroMem (dataBase + p.retLen + p.dataLen) p.zeroLen
  let d := (d.zeroMem inImage 0x10000).zeroMem outImage 0x10000
  if cold then
    let d := d.copyMem (src + p.codeLen + p.dataLen) dataBase p.retLen
    match d.est.section_ with
    | some l => d.setBytes p.stoAddr (l.take p.stoLen)
    | none => d
  else d

/-- The runtime puts the program pair at `entry` with w30 at the top of the stack and w1 the start kind: it writes the
entry into s.xpc and user level into s.xstat and returns with RFX (R304, R323, R357); the pair waits for the next accepted
start. -/
def CoreSt.placed (c : CoreSt) (entry kind : Nat) : CoreSt :=
  let c := (c.setReg 30 (nw stackTop)).setReg 1 (nw kind)
  { ({ c with xpc := nw entry, xstat := 0 }).rfx .program with waiting := .cyend }

/-- START (R357): from STOPPED or FAULT, refused after a lockstep error or a double fault; a shade does not start
on its own (DEDUCED: log entry 109). -/
def Dev.progStart (d : Dev) : Dev :=
  match d.cyc.image with
  | none => d
  | some p =>
    if (d.cycState != 1 && d.cycState != 3) || d.cyc.lockout || !d.leads then d
    else
      let cold := decide (d.cyc.retainedId ≠ some p.imageId)
      let kind := if cold then 0 else 1
      let d := d.loadData p cold
      let d := d.setCore .program ((d.core .program).placed p.startAddr kind)
      let d := { d with
        cyc := { d.cyc with phase := .idle, calls := [], firstCommit := true, afterSwitch := false, firstCycle := true, startKind := kind, lrPrev := false, lrRecorded := false, missedNow := 0, retainedId := some p.imageId }
        fio := { d.fio with committed := false } }
      (d.setFld Reg.CYC_STAT 2 0 2).fw 0x8001 [nw kind]

/-- STOP: RUN to STOPPED; the running cycle is not committed (R356). -/
def Dev.progStop (d : Dev) : Dev :=
  if d.cycState = 2 then ((d.cycIdle).setFld Reg.CYC_STAT 2 0 1).fw 0x8002 [] else d

/-- CYC_CTL: AUTORUN and SRC are stored; CLRLR, STOP and START act, STOP before START. -/
def Dev.cycCtl (d : Dev) (v : Word) : Dev :=
  let d := d.plainWrite Reg.CYC_CTL v
  let d := if bitOf v 2 then (d.wr Reg.CYC_LRCNT 0).wr Reg.CYC_LRADDR 0 else d
  let d := if bitOf v 1 then d.progStop else d
  if bitOf v 0 then d.progStart else d

/-- CYC_PERIOD: a nonzero value outside 250 to 1,000,000 is stored as the nearer bound (R353). -/
def Dev.cycPeriod (d : Dev) (v : Word) : Dev :=
  let n := fieldOf v 19 0
  d.plainWrite Reg.CYC_PERIOD (nw (if n = 0 then 0 else min 1000000 (max 250 n)))

/-! ### Forces (R372 to R374) -/

/-- The width in bits of an elementary type (R373). -/
def forceWidth (t : Nat) : Nat :=
  if t = 1 then 1
  else if t = 2 || t = 6 || t = 12 then 8
  else if t = 3 || t = 7 || t = 13 then 16
  else if t = 4 || t = 8 || t = 10 || t = 14 || t = 16 then 32
  else 64

/-- The entries that have EN set, as the freeze copies them. -/
def Dev.activeForces (d : Dev) : List Force :=
  (List.range 256).filterMap (fun n =>
    let w (k : Nat) : Word := d.rd (Reg.CYC_FORCE n k)
    if bitOf (w 1) 31 then some { idx := n, w0 := w 0, w1 := w 1, w2 := w 2, w3 := w 3 } else none)

/-- One force in the image at `base`; one that does not lie on its width or leaves the image sets FBAD. -/
def Dev.applyForce (d : Dev) (base : Nat) (f : Force) : Dev :=
  let w := forceWidth (fieldOf f.w1 29 24)
  let o := fieldOf f.w1 18 0
  if o % w != 0 || 524288 < o + w then d.flag Reg.CYC_STAT 11
  else if w = 1 then
    let b := d.byte (base + o / 8)
    let m : Byte := BitVec.ofNat 8 (2 ^ (o % 8))
    d.agentStore (base + o / 8) [if bitOf f.w2 0 then b ||| m else b &&& ~~~ m]
  else d.agentStore (base + o / 8) (leBytes (w / 8) (f.w2.toNat + 2 ^ 32 * f.w3.toNat))

/-- The active input forces, in ascending entry index (R354). -/
def Dev.inputForces (d : Dev) : Dev :=
  d.cyc.forces.foldl (fun (d : Dev) f => if bitOf f.w1 30 then d else d.applyForce inImage f) d

/-- A force lies on its width and within an image (R373). -/
def Force.fits (f : Force) : Bool :=
  let w := forceWidth (fieldOf f.w1 29 24)
  let o := fieldOf f.w1 18 0
  o % w = 0 && decide (o + w ≤ 524288)

/-- Byte `o` of an image under a force. -/
def Force.byte (f : Force) (o : Nat) (b : Byte) : Byte :=
  let w := forceWidth (fieldOf f.w1 29 24)
  let p := fieldOf f.w1 18 0
  if !f.fits then b
  else if w = 1 then
    let m : Byte := BitVec.ofNat 8 (2 ^ (p % 8))
    if o = p / 8 then (if bitOf f.w2 0 then b ||| m else b &&& ~~~ m) else b
  else if p / 8 ≤ o && o < p / 8 + w / 8 then BitVec.ofNat 8 ((f.w2.toNat + 2 ^ 32 * f.w3.toNat) / 256 ^ (o - p / 8))
  else b

/-- Byte `o` of the output image as the commit carries it: what the program wrote, under the active output forces in
ascending entry index.  The program's own write stays in memory, where it reads it back (R364, R373). -/
def Dev.outByte (d : Dev) (o : Nat) : Byte :=
  d.cyc.forces.foldl (fun b f => if bitOf f.w1 30 then f.byte o b else b) (d.byte (outImage + o))

/-- `n` bytes of the output image from `o` as the commit carries them. -/
def Dev.outBytes (d : Dev) (o n : Nat) : List Byte := (List.range n).map (fun i => d.outByte (o + i))

/-- An output force that is not applied sets FBAD (R373). -/
def Dev.outputForces (d : Dev) : Dev :=
  if d.cyc.forces.any (fun f => bitOf f.w1 30 && !f.fits) then d.flag Reg.CYC_STAT 11 else d

/-- CYC_STAT.FORCE follows the table. -/
def Dev.forceShow (d : Dev) : Dev :=
  d.setBit Reg.CYC_STAT 10 ((List.range 256).any (fun n => d.bit (Reg.CYC_FORCE n 1) 31))

/-- A word of a force entry: words 0, 2 and 3 are staged; word 1 takes the staged words with it, counts, and
makes entry 0x8070 (R372, R374). -/
def Dev.forceWrite (d : Dev) (n w : Nat) (v : Word) : Dev :=
  if w = 1 then
    let st (k : Nat) : Word := (getO d.cyc.stage (4 * n + k)).getD (d.rd (Reg.CYC_FORCE n k))
    let d := (((d.wr (Reg.CYC_FORCE n 0) (st 0)).plainWrite (Reg.CYC_FORCE n 1) v).wr (Reg.CYC_FORCE n 2) (st 2)).wr (Reg.CYC_FORCE n 3) (st 3)
    let c := putO (putO (putO d.cyc.stage (4 * n) none) (4 * n + 2) none) (4 * n + 3) none
    let d := ({ d with cyc := { d.cyc with stage := c } }).incWrap Reg.CYC_FGEN
    d.forceShow.fw 0x8070 [nw n]
  else { d with cyc := { d.cyc with stage := putO d.cyc.stage (4 * n + w) (some v) } }

/-! ### The input image (R360, R361) -/

/-- How many sweep words an image imports. -/
def Image.channels (p : Image) : Nat := (p.ranges.map (fun r => r.2)).foldl (· + ·) 0

/-- B of R361. -/
def Image.copyLen (p : Image) : Nat :=
  256 + 4 * p.snaps.length + 4 * p.channels + 10240 * p.bins.length

/-- The flags word at offset 4 (Table 14.4): the starts missed before this one, a force in the active copy. -/
def Dev.imageFlags (d : Dev) : Nat :=
  satN 255 d.cyc.frozen.missed + 256 * b2n d.cyc.firstCycle + 512 * b2n d.cyc.afterSwitch
    + 1024 * b2n (!d.cyc.forces.isEmpty) + 2048 * b2n d.cyc.lrPrev + 4096 * b2n (d.cyc.startKind = 0)
    + 8192 * (d.role % 4)

/-- Offsets 0x0000 to 0x00FF. -/
def Dev.imageHead (d : Dev) : List Byte :=
  let z := d.cyc.frozen
  let hdr := d.bytes ((d.rd Reg.SWP_BUFBASE).toNat + 64 * z.buf) 64
  leBytes 4 (d.rd Reg.CYC_NUM).toNat ++ leBytes 4 d.imageFlags ++ leBytes 8 z.tb ++ leBytes 4 z.angle
    ++ leBytes 4 z.cycle ++ leBytes 4 (d.rd Reg.CYC_FGEN).toNat ++ leBytes 4 (d.fld Reg.CYC_OVRCNT 23 0)
    ++ List.replicate 32 0 ++ hdr ++ fitBytes 16 (wordsBytes z.latch) ++ fitBytes 64 (wordsBytes z.mailbox)
    ++ List.replicate 48 0

/-- The snapshot registers, read in list order. -/
def Dev.snapRead (d : Dev) : List Nat → List Word × Dev
  | [] => ([], d)
  | a :: t =>
    let (w, d) := if isPeriph a then d.periphRead a else (d.word a, d)
    let (ws, d) := Dev.snapRead d t
    (w :: ws, d)

/-- The imported sweep words of the frozen buffer. -/
def Dev.imageSweep (d : Dev) (p : Image) : List Word :=
  p.ranges.flatMap (fun r => (List.range r.2).map (fun i => d.sweepWord d.cyc.frozen.buf (r.1 + i)))

/-- The latest results of an imported bin, cells 0 to 639. -/
def Dev.imageBin (d : Dev) (b : Nat) : List Byte :=
  (List.range 640).flatMap (fun c => d.bytes ((d.rd Reg.IMP_RESBASE).toNat + 16 * (16 * c + b)) 16)

/-- The parts of the image, in the order of R361: head, snapshot words, sweep words, bins. -/
def Dev.imageBytes (d : Dev) (p : Image) : (List Byte × List Byte × List Byte × List Byte) × Dev :=
  let head := d.imageHead
  let sw := wordsBytes (d.imageSweep p)
  let bins := p.bins.flatMap (fun b => d.imageBin b)
  let (ws, d) := d.snapRead p.snaps
  ((head, wordsBytes ws, sw, bins), d)

/-- The parts written to their places; everything else in the image is zero (R361). -/
def Dev.imageStore (d : Dev) (x : List Byte × List Byte × List Byte × List Byte) : Dev :=
  ((((d.zeroMem inImage 0x10000).agentStore inImage x.1).agentStore (inImage + 0x100) x.2.1).agentStore (inImage + 0x500) x.2.2.1).agentStore
    (inImage + 0x2500) x.2.2.2

/-! ### Cycle starts (R353, R354, R369, R371) -/

/-- A running cycle has not reached CYEND. -/
def Dev.cycBusy (d : Dev) : Bool := d.cyc.phase = .copy || d.cyc.phase = .execute

/-- The partner is a shade in step with this duty, and has not been dropped (R396, R400). -/
def Dev.shadeInStep (d : Dev) : Bool :=
  d.hasShade && d.fld Reg.TW_PSTAT 3 2 = 1 && !d.tw.dropped

/-- The values of the freeze instant (Table 14.1). -/
def Dev.freezeNow (d : Dev) : Frozen where
  tb := d.tim.tb
  angle := d.ang.angle
  cycle := d.ang.cycle
  buf := d.fld Reg.SWP_LAST 1 0
  latch := (List.range 4).map (fun k => d.regView (Reg.FIO_LATCH k))
  mailbox := (List.range 16).map (fun k => d.rd (Reg.DSP_MB (k / 4) (k % 4)))
  missed := d.cyc.missedNow

/-- The cycle counts on and the program fails (R371). -/
def Dev.watchdog (d : Dev) : Dev :=
  if d.fld Reg.CYC_WDMULT 7 0 ≤ d.fld Reg.CYC_OVRCNT 31 24 then
    (d.progFault.flag Reg.CYC_STAT 8).hw 0x8003 []
  else d

/-- A start while the cycle has not reached CYEND (R369). -/
def Dev.cycleMissed (d : Dev) : Dev :=
  let first := decide (d.fld Reg.CYC_OVRCNT 31 24 = 0)
  let d := (d.satInc Reg.CYC_OVRCNT 23 0).satInc Reg.CYC_OVRCNT 31 24
  let d := { d with cyc := { d.cyc with missedNow := d.cyc.missedNow + 1 } }
  let d := d.flag Reg.CYC_STAT 7
  let d := if first then d.hw 0x8010 [] else d
  d.watchdog

/-- The count of a new cycle: the consecutive misses end, CYC_NUM rises. -/
def Dev.cycleCount (d : Dev) : Dev := (d.setFld Reg.CYC_OVRCNT 31 24 0).incWrap Reg.CYC_NUM

/-- Execution begins: a new cycle number, LR clear, INSTEP in force, and the pair goes on after CYEND or at its
entry point (R318, R354, R367). -/
def Dev.execBegin (d : Dev) : Dev :=
  let lvl := match d.cyc.image with | some p => p.instep | none => 0
  let c := d.core .program
  let c := { c with
    cycle := d.rd Reg.CYC_NUM
    lraddr := 0
    status := withBit c.status 11 false
    ctl := if lvl = 0 then c.ctl else withBit c.ctl 0 true
    waiting := if c.waiting = .cyend then .none else c.waiting }
  let d := (d.setCore .program c).setBit Reg.CYC_STAT 3 true
  { d with cyc := { d.cyc with phase := .execute, execTick := d.now, firstCycle := false, afterSwitch := false, lrPrev := false } }

/-- The force rows that an IMAGE frame carries: 20 bytes each (Table 15.3). -/
def forceBytes (l : List Force) : List Byte :=
  l.flatMap (fun f => leBytes 4 f.idx ++ wordsBytes [f.w0, f.w1, f.w2, f.w3])

/-- The length of copy and input forces together, in ticks of 8 ns (R355). -/
def Dev.copyTicks (d : Dev) (p : Image) : Nat :=
  let f := (d.cyc.forces.filter (fun f => !bitOf f.w1 30)).length
  (64 + p.copyLen / 8 + 2 * f + 1) / 2

/-- The copy and the input forces are complete: the duty of an in-step pair sends IMAGE and waits for IMGACK,
any other module begins execution (R355, R396). -/
def Dev.copyDone (d : Dev) : Dev :=
  match d.cyc.image with
  | none => d
  | some p =>
    if d.cyc.phase != .copy || d.tw.imgWait || d.role = 2 || !d.due Tm.copy (d.copyTicks p) then d
    else
      let (x, d) := d.imageBytes p
      let d := d.imageStore x
      let d := d.inputForces
      if d.shadeInStep then
        let bytes := x.1 ++ x.2.1 ++ x.2.2.1 ++ x.2.2.2
        let msg := leBytes 4 (d.rd Reg.CYC_NUM).toNat ++ leBytes 4 bytes.length ++ leBytes 2 d.cyc.forces.length ++ [0, 0] ++ bytes
          ++ forceBytes d.cyc.forces
        let d := d.send .twin 2 (byteNats msg)
        ({ d with tw := { d.tw with imgWait := true, img := msg } }).start Tm.lagImg
      else d.execBegin

/-! ### Commands -/

/-- Copy and input forces are complete. -/
def execImageCopyComplete (s : State) : Host.Outcome State Fault Refusal := s.lift (fun d => d.copyDone)

/-- A write of CYC_CTL with START. -/
def execStart (src : Writer) (v : Word) (s : State) : Host.Outcome State Fault Refusal :=
  s.lift (fun d => d.gate src Reg.CYC_CTL (fun d => d.cycCtl (withBit v 0 true)))

/-- A write of CYC_CTL with STOP. -/
def execStop (src : Writer) (v : Word) (s : State) : Host.Outcome State Fault Refusal :=
  s.lift (fun d => d.gate src Reg.CYC_CTL (fun d => d.cycCtl (withBit v 1 true)))

/-- A write of CYC_CTL with CLRLR. -/
def execClearLiveReads (src : Writer) (v : Word) (s : State) : Host.Outcome State Fault Refusal :=
  s.lift (fun d => d.gate src Reg.CYC_CTL (fun d => d.cycCtl (withBit v 2 true)))

/-- A write of word 0, 2 or 3 of a force entry; word 1 is the commit. -/
def execForceWordWrite (src : Writer) (n : Byte) (w : BitVec 2) (v : Word) (s : State) : Host.Outcome State Fault Refusal :=
  s.lift (fun d => d.gate src (Reg.CYC_FORCE n.toNat w.toNat) (fun d => d.forceWrite n.toNat w.toNat v))

/-- A write of word 1 of a force entry. -/
def execForceCommit (src : Writer) (n : Byte) (v : Word) (s : State) : Host.Outcome State Fault Refusal :=
  s.lift (fun d => d.gate src (Reg.CYC_FORCE n.toNat 1) (fun d => d.forceWrite n.toNat 1 v))

end Sys2Proof.Machine
end

