-- ==== Sys2Proof/Machine/Records.lean ====
section
/-! DEFINITION. The recorder's commands: posting, the Larder, enabling, flushing, migration to the Cellar, reading
back, and the queue of the non-volatile controller (R488 to R502, R544 to R551). -/

namespace Sys2Proof.Machine

/-! ### Blocks and records in memory (R495, R499) -/

/-- The records in `l`: sequence and bytes, each of a size that its own header gives (Table 20.1). -/
def parseRecs : Nat → List Byte → List (Nat × List Byte)
  | 0, _ => []
  | fuel + 1, l =>
    let w := leWord l 0
    let n := 20 + 12 * fieldOf w 24 24 + 4 * ((fieldOf w 23 16 + 3) / 4)
    if l.length < n then [] else ((leWord l 16).toNat, l.take n) :: parseRecs fuel (l.drop n)

/-- The records of the block at `a`. -/
def Dev.blockRecs (d : Dev) (a : Nat) : List (Nat × List Byte) :=
  let used := min 4076 ((d.word (a + 12)).toNat % 2 ^ 31)
  parseRecs (used / 20 + 1) (d.bytes (a + 16) used)

/-- The blocks from `lo` below `hi` that pass their check.  A block with the magic has a first byte that memory lists. -/
def Dev.goodBlocks (d : Dev) (lo hi : Nat) : List Nat :=
  ((d.mem.filter (fun c => decide (lo ≤ c.1) && decide (c.1 < hi) && decide (c.1 % 4096 = 0))).map (fun c => c.1)).filter
    (fun a => d.blockGood a)

/-- The records of the Larder that are not flushed. -/
def Dev.larderRecs (d : Dev) : List (Nat × List Byte) :=
  let n := sizes d.recd.recs
  parseRecs (n / 20 + 1) (d.larder (d.rd Reg.REC_LFLUSH).toNat n)

/-- `r` into a list of records by distance from sequence `s`; a sequence already there stays. -/
def recInsert (s : Nat) (r : Nat × List Byte) : List (Nat × List Byte) → List (Nat × List Byte)
  | [] => [r]
  | q :: t =>
    let x (n : Nat) : Nat := (n + 2 ^ 32 - s) % 2 ^ 32
    if x r.1 < x q.1 then r :: q :: t else if r.1 = q.1 then q :: t else q :: recInsert s r t

/-- Whole records while they stay within `n` bytes. -/
def takeBytes : Nat → List (Nat × List Byte) → List (Nat × List Byte)
  | _, [] => []
  | n, r :: t => if r.2.length ≤ n then r :: takeBytes (n - r.2.length) t else []

/-- At most `count` records from sequence `first` on, from the Cellar, the journal and the Larder, in sequence order,
whole and together at most `limit` bytes (R499, R500). -/
def Dev.recRange (d : Dev) (first count limit : Nat) : List (Nat × List Byte) :=
  let blocks := d.goodBlocks 0x36000000 0x3E000000 ++ d.goodBlocks 0x20200000 0x20600000
  let all := blocks.flatMap (fun a => d.blockRecs a) ++ d.larderRecs
  let near := all.filter (fun r => decide ((r.1 + 2 ^ 32 - first % 2 ^ 32) % 2 ^ 32 < 2 ^ 31))
  takeBytes limit ((near.foldl (fun l r => recInsert (first % 2 ^ 32) r l) []).take count)

/-! ### The recorder at start (R490, R492, R493, R496) -/

/-- The newest of some blocks by block sequence, compared modulo 2^32. -/
def Dev.newestBlock (d : Dev) (l : List Nat) : Option Nat :=
  l.foldl (fun (m : Option Nat) a =>
    match m with
    | none => some a
    | some b =>
      let x := (d.word (a + 4) - d.word (b + 4)).toNat
      if 1 ≤ x && x < 2 ^ 31 then some a else some b) none

/-- Journal blocks that fail their check and hold a byte other than zero. -/
def Dev.badBlocks (d : Dev) : List Nat :=
  (List.range 1024).filter (fun i =>
    d.mem.any (fun c => decide (journalBlock i ≤ c.1) && decide (c.1 < journalBlock i + 4096)) && !d.blockOk i)

/-- The boot ROM reads the journal: the next block and block sequence, after a reset that is not warm the next record
sequence, and a word for each bad block; after a warm reset it begins to flush the records that the Larder kept. -/
def Dev.recBoot (d : Dev) (warm : Bool) : Dev :=
  let good := d.goodBlocks 0x20200000 0x20600000
  let (head, bseq, next) : Nat × Nat × Nat :=
    match d.newestBlock good with
    | none => (0, 0, 0)
    | some a =>
      let last := ((d.blockRecs a).getLast?).map (fun r => r.1 + 1)
      ((a - 0x20200000) / 4096 + 1, (d.word (a + 4)).toNat + 1, last.getD (d.word (a + 8)).toNat)
  let d := d.wr Reg.REC_JHEAD (nw (head % 1024))
  let d := { d with recd := { d.recd with jseq := bseq % 2 ^ 32 } }
  let d := if warm then d else d.wr Reg.REC_SEQ (nw next)
  let d := { d with pwr := { d.pwr with boot := d.pwr.boot ++ d.badBlocks.map (fun i => (0xC203, nw i)) } }
  if warm && !d.recd.recs.isEmpty then d.flushReq else d

/-- The entries that wait for the recorder, in ascending code (R490, R492): what status keeps flagged, and what the
boot ROM found. -/
def Dev.bootPosts (d : Dev) : Dev :=
  let post (c : Nat) (d : Dev) : Dev := (d.pwr.boot.filter (fun e => e.1 = c)).foldl (fun (d : Dev) e => d.hw c [e.2]) d
  let d := if d.bit Reg.CHM_STAT 3 then d.hw 0x1056 [] else d
  let d := if d.bit Reg.LIM_STAT 2 then d.hw 0x2001 [] else d
  let d := if d.bit Reg.LIM_STAT 1 then d.hw 0x2004 [] else d
  let d := post 0xB031 (post 0xB024 (post 0xB023 (post 0xB021 d)))
  let d := if d.bit Reg.SVC_STAT 3 then d.hw 0xB030 [nw (d.fld Reg.SVC_RECAUSE 3 0)] else d
  let d := d.hw 0xC020 [d.rd Reg.PWR_RSTCAUSE]
  let d := if d.bit Reg.HLT_STAT 4 then d.hw 0xC032 [] else d
  let d := post 0xC203 d
  { d with pwr := { d.pwr with recUp := true, boot := [] } }

/-- EN is set: the unreported count goes first, then JFULL's entry, and the first time after a reset the entries that
waited; the boot ROM sets EN when the flush after a warm reset has ended (R492, R493). -/
def Dev.recEnable (d : Dev) : Dev :=
  if d.pwr.recUp = false && d.bit Reg.REC_STAT 1 then d
  else
    let d := (d.setBit Reg.REC_CTL 0 true).reportLost
    let d := if d.pwr.recUp then d else d.bootPosts
    if d.bit Reg.REC_STAT 2 then d.hw 0xC202 [] else d

/-- A write of REC_CTL (R492 to R494). -/
def Dev.recCtl (d : Dev) (v : Word) : Dev :=
  let was := d.bit Reg.REC_CTL 0
  let d :=
    if bitOf v 0 then (if was then d else d.recEnable)
    else d.setBit Reg.REC_CTL 0 false
  if bitOf v 1 then d.flushReq else d

/-! ### Posting and the Larder -/

/-- A write of REC_POST: the first LEN bytes of REC_PBUF as a record of system firmware (R488, R492). -/
def Dev.recPost (d : Dev) (v : Word) : Dev :=
  let n := fieldOf v 23 16
  let l := wordsBytes ((List.range 60).map (fun i => d.rd (Reg.REC_PBUF i)))
  if 240 < n then d.flag Reg.REC_STAT 3 else d.postBytes 1 (fieldOf v 15 0) (l.take n)

/-- The oldest post enters the Larder; firmware then fills the SMBus response area (R451, R492). -/
def Dev.recMove (d : Dev) : Dev := if d.recd.queue.isEmpty then d else d.toLarder.smbFill

/-- REC_FLPER seconds since the last flush (R494). -/
def Dev.flushPeriod (d : Dev) : Dev :=
  let n := d.fld Reg.REC_FLPER 15 0
  if n = 0 then d
  else if d.running Tm.flush && !d.due Tm.flush (secT n) then d
  else d.flushReq

/-! ### Migration (R497) -/

/-- The oldest complete journal block: it passes its check, is not MIGRATED, and no flush is writing it. -/
def Dev.migrNext (d : Dev) : Option Nat :=
  let h := d.fld Reg.REC_JHEAD 9 0
  let l := (List.range 1024).map (fun k => (h + k) % 1024)
  let l := if d.recd.flushBlk.isSome then l.drop 1 else l
  l.find? (fun i => d.blockOk i && !bitOf (d.word (journalBlock i + 12)) 31)

/-- The place of the next Cellar block. -/
def Dev.cellarAt (d : Dev) : Nat := 0x36000000 + 262144 * (d.recd.cellarSector % 512) + 4096 * (d.recd.cellarBlock % 64)

/-- The Cellar's position. -/
def Dev.cellarSet (d : Dev) (sector block : Nat) (retried : Bool) : Dev :=
  { d with recd := { d.recd with cellarSector := sector % 512, cellarBlock := block % 64, retried := retried } }

/-- Firmware copies one block, erasing the sector first when it begins one; `ok` when the erase and the program read
back equal.  A first failure is tried again, a second makes entry 0xC204 and moves to the next sector. -/
def Dev.migrate (d : Dev) (ok : Bool) : Dev :=
  if d.pwr.full = false || d.bit Reg.HLT_STAT 2 || d.nvc.closedTherm || d.nvc.closedBank || d.bit Reg.NVC_CTL 0 = false then d
  else
    match d.migrNext with
    | none => d
    | some i =>
      let a := d.cellarAt
      let s := d.recd.cellarSector
      let k := d.recd.cellarBlock
      let d := if k = 0 then d.norErased (norSector a) else d
      let src := d.bytes (journalBlock i) 4096
      let d := if d.norBad a then d else d.nvBytes a src
      if ok && decide (d.bytes a 4096 = src) then
        let w := d.word (journalBlock i + 12)
        let d := d.mramWrite (journalBlock i + 12) (leBytes 4 (withBit w 31 true).toNat)
        if k = 63 then d.cellarSet (s + 1) 0 false else d.cellarSet s (k + 1) false
      else if d.recd.retried then (d.fw 0xC204 [nw s]).cellarSet (s + 1) 0 false
      else d.cellarSet s k true

/-! ### Reading back over UDP (R500) -/

/-- A plant message came on CAN FD. -/
def plantOnCan : PlantHead → Bool
  | .can _ => true
  | .udp .. => false

/-- RECREQ, 10 bytes on UDP: RECDATA answers with whole records up to 1,400 bytes; a higher epoch is passed on as R272
states. CAN carries no records. -/
def Dev.recReq (d : Dev) (h : PlantHead) (l : List Byte) : Dev :=
  if d.plantTo h 0x40 10 l = false || plantOnCan h then d
  else if (d.rd Reg.TW_EPOCH).toNat < plantEpoch l then d.plantHigh (plantEpoch l)
  else
    let l := d.recRange (leNat (slice l 4 4)) (leNat (slice l 8 2)) 1400
    d.plantUdp 0x41 (leBytes 2 l.length ++ [0, 0] ++ l.flatMap (fun r => r.2))

/-! ### The controller -/

/-- A write of NVC_RGO (R545). -/
def Dev.nvcGo (d : Dev) (kind tag : Nat) : Dev := d.nvcPush kind tag

/-! ### Commands -/

/-- A post of a hardware source or of system firmware. -/
def execRecordPost (fw : Bool) (code : BitVec 16) (payload : List Byte) (s : State) : Host.Outcome State Fault Refusal :=
  s.lift (fun d => d.postBytes (b2n fw) code.toNat payload)

/-- A write of REC_POST. -/
def execRecPost (src : Writer) (v : Word) (s : State) : Host.Outcome State Fault Refusal :=
  s.lift (fun d => d.gate src Reg.REC_POST (fun d => d.recPost v))

/-- 64 ns have passed: the oldest post moves. -/
def execQueueToLarder (s : State) : Host.Outcome State Fault Refusal := s.lift (fun d => d.recMove)

/-- EN of REC_CTL is set. -/
def execRecorderEnable (src : Writer) (s : State) : Host.Outcome State Fault Refusal :=
  s.lift (fun d => d.gate src Reg.REC_CTL (fun d => d.recCtl 1))

/-- A flush trigger: FLUSH of REC_CTL. -/
def execFlush (src : Writer) (v : Word) (s : State) : Host.Outcome State Fault Refusal :=
  s.lift (fun d => d.gate src Reg.REC_CTL (fun d => d.recCtl (withBit v 1 true)))

/-- A flush ends; a reset that waited for it follows. -/
def execFlushComplete (s : State) : Host.Outcome State Fault Refusal := s.lift (fun d => d.flushEnd.settle)

/-- The flush period. -/
def execPeriodicFlush (s : State) : Host.Outcome State Fault Refusal := s.lift (fun d => d.flushPeriod)

/-- One block migrates; `ok` when NOR took it. -/
def execMigration (ok : Bool) (s : State) : Host.Outcome State Fault Refusal := s.lift (fun d => d.migrate ok)

/-- A RECREQ message. -/
def execRecreq (h : PlantHead) (l : List Byte) (s : State) : Host.Outcome State Fault Refusal :=
  s.lift (fun d => d.recReq h l)

/-- NVC_RGO with kind 1. -/
def execNvcMramWrite (src : Writer) (tag : Byte) (s : State) : Host.Outcome State Fault Refusal :=
  s.lift (fun d => d.gate src Reg.NVC_RGO (fun d => d.nvcGo 1 tag.toNat))

/-- NVC_RGO with kind 2. -/
def execNvcNorProgram (src : Writer) (tag : Byte) (s : State) : Host.Outcome State Fault Refusal :=
  s.lift (fun d => d.gate src Reg.NVC_RGO (fun d => d.nvcGo 2 tag.toNat))

/-- NVC_RGO with kind 3. -/
def execNvcNorErase (src : Writer) (tag : Byte) (s : State) : Host.Outcome State Fault Refusal :=
  s.lift (fun d => d.gate src Reg.NVC_RGO (fun d => d.nvcGo 3 tag.toNat))

/-- A unit completes, `verified` when it read back equal; a reset that waited for it follows. -/
def execNvcUnitComplete (verified : Bool) (s : State) : Host.Outcome State Fault Refusal :=
  s.lift (fun d => (d.nvcUnit verified).settle)

/-- A read of NVC_DONE. -/
def execNvcDoneRead (s : State) : Host.Outcome State Fault Refusal := s.lift (fun d => d.nvcDoneRead.2)

/-- An erase completes. -/
def execNorEraseComplete (s : State) : Host.Outcome State Fault Refusal := s.lift (fun d => d.eraseDone)

end Sys2Proof.Machine
end

