-- ==== Sys2Proof/Machine/Slots.lean ====
section
/-! DEFINITION. Image slots: where images lie, the check of R511, the slot record, trials, what the boot ROM and firmware
do with pending images, staging, and the preparation of an online change (R375, R376, R509 to R516). -/

namespace Sys2Proof.Machine

/-! ### Where images lie (Table 1.7; log entry 129) -/

/-- The base of slot `k` of an image kind: 1 firmware, 2 program. -/
def slotBase (kind k : Nat) : Nat := if kind = 1 then 0x30000000 + 0x1000000 * k else progSlot k

/-- The size of a slot in 4 KiB blocks. -/
def slotBlocks (kind : Nat) : Nat := if kind = 1 then 4096 else 8192

/-- Where header and trailer of a slot's image are stored: one sector each of the reserved part of the NOR. -/
def slotHead (kind k : Nat) : Nat := 0x3E000000 + 0x40000 * (2 * (kind - 1) + k)

/-! ### The check of R511 -/

/-- The hash that the fuses hold for key `k`. -/
def Dev.keyHash (d : Dev) (k : Nat) : List Byte :=
  match d.svc.keys.find? (fun e => e.1 == k) with
  | some e => e.2
  | none => Config.keyHash k

/-- Key check of R509: programmed, not revoked, and the hash of X followed by Y equals the fuses'. -/
def Dev.keyOk (d : Dev) (k : Nat) (xy : List Byte) : Bool :=
  k < 3 && d.bit Reg.SVC_KEYSTAT k && !d.bit Reg.SVC_KEYSTAT (4 + k) && sha256 xy == d.keyHash k

/-- A signature `rs` (r, then s) over a message checks under the key `xy` (X, then Y). -/
def sigOk (xy rs msg : List Byte) : Bool :=
  ecdsaOk (leNat (xy.take 32)) (leNat (slice xy 32 32)) (leNat (rs.take 32)) (leNat (slice rs 32 32)) msg

/-- The result of the check of R511 for `header`, `trailer` and image data: 0 passes, else the status code of Table
21.4.  The key may be any of the three that passes R509. -/
def Dev.imageStatus (d : Dev) (header trailer data : List Byte) : Nat :=
  let msg := header ++ data
  let xy := slice trailer 40 64
  if leWord trailer 0 != 0x4E595452 || sha256 msg != slice trailer 8 32 then 9
  else if !((List.range 3).any (fun k => d.keyOk k xy)) then 10
  else if sigOk xy (slice trailer 104 64) msg then 0 else 9

/-- The image in slot `k` of a kind passes R511. -/
def Dev.slotOk (d : Dev) (kind k : Nat) : Bool :=
  let h := d.bytes (slotHead kind k) 256
  let n := (leWord h 0x1C).toNat
  leWord h 0 = 0x4E59494D && (leWord h 8).toNat % 256 = kind && n != 0 && n ≤ slotBlocks kind
    && d.imageStatus h (d.bytes (slotHead kind k + 256) 192) (d.bytes (slotBase kind k) (4096 * n)) = 0

/-! ### The slot record (R512; log entry 130) -/

/-- The address of slot record copy `k`. -/
def recordAt (k : Nat) : Nat := 0x20712000 + 0x40 * k

/-- Copy `k` of the slot record checks. -/
def Dev.recordOk (d : Dev) (k : Nat) : Bool := d.word (recordAt k + 60) = crc32c (d.bytes (recordAt k) 60)

/-- The copy of the slot record that counts (R205). -/
def Dev.recordPick (d : Dev) : Option Nat :=
  newestOf (d.recordOk 0) (d.recordOk 1) (d.word (recordAt 0)) (d.word (recordAt 1))

/-- The slot record in the places of SVC_SLOTS; zero when no copy checks. -/
def Dev.slotRecord (d : Dev) : Nat :=
  match d.recordPick with
  | some k => (d.word (recordAt k + 4)).toNat &&& 0x333
  | none => 0

/-- SVC_SLOTS and SVC_STAT.TRIAL show the slot record. -/
def Dev.slotsShow (d : Dev) : Dev :=
  let r := d.slotRecord
  let d := d.wr Reg.SVC_SLOTS (nw ((d.rd Reg.SVC_SLOTS).toNat / 65536 * 65536 + r))
  d.setBit Reg.SVC_STAT 2 (fieldOf (nw r) 5 4 != 0)

/-- The slot record is written to the copy that does not hold the newest sequence. -/
def Dev.slotSave (d : Dev) (r : Nat) : Dev :=
  let (k, s) : Nat × Word :=
    match d.recordPick with
    | some k => (1 - k, d.word (recordAt k) + 1)
    | none => (0, 1)
  let body := leBytes 4 s.toNat ++ leBytes 4 r ++ List.replicate 52 0
  (d.mramWrite (recordAt k) (body ++ leBytes 4 (crc32c body).toNat)).slotsShow

/-- Fields of the slot record. -/
def recFwAct (r : Nat) : Nat := r % 2
def recFwPend (r : Nat) : Bool := r.testBit 1
def recTrial (r : Nat) : Nat := r / 16 % 4
def recPgAct (r : Nat) : Nat := r / 256 % 2
def recPgPend (r : Nat) : Bool := r.testBit 9

/-- The slot record of its fields. -/
def recOf (fwAct : Nat) (fwPend : Bool) (trial pgAct : Nat) (pgPend : Bool) : Nat :=
  fwAct % 2 + 2 * b2n fwPend + 16 * (trial % 4) + 256 * (pgAct % 2) + 512 * b2n pgPend

/-- The Attic slot of a kind. -/
def Dev.attic (d : Dev) (kind : Nat) : Nat :=
  if kind = 1 then 1 - recFwAct d.slotRecord else 1 - recPgAct d.slotRecord

/-! ### The boot ROM (R513, R515) -/

/-- What the boot ROM makes of the slot record at a reset: the new record, the entries it will post, and the recovery
cause, if any.  `ok` says whether a firmware slot passes R511. -/
def bootRecord (r : Nat) (ok : Nat → Bool) : Nat × List (Nat × Word) × Option Nat :=
  let a := recFwAct r
  let rec' (act trial : Nat) : Nat := recOf act false trial (recPgAct r) (recPgPend r)
  let (r, posts, reverted) : Nat × List (Nat × Word) × Bool :=
    if recFwPend r then
      if ok (1 - a) then (rec' (1 - a) 1, [(0xB021, nw (1 - a))], false) else (rec' a (recTrial r), [(0xB024, nw (1 - a))], false)
    else if recTrial r = 0 then (r, [], false)
    else if recTrial r = 3 then (rec' (1 - a) 0, [(0xB023, nw (1 - a))], true)
    else (rec' a (recTrial r + 1), [], false)
  let a := recFwAct r
  if ok a then (r, posts, none)
  else if reverted then (r, posts, some 2)
  else if ok (1 - a) then (rec' (1 - a) 0, posts, none)
  else (r, posts, some 1)

/-- The boot ROM takes up the slots: validity, the record, and the version registers of the active image; none when the
module must enter recovery, with the cause. -/
def Dev.slotBoot (d : Dev) : Dev × Option Nat :=
  let v (kind : Nat) : Nat := b2n (d.slotOk kind 0) + 2 * b2n (d.slotOk kind 1)
  let d := d.wr Reg.SVC_SLOTS (nw (v 1 * 65536 + v 2 * 16777216))
  let (r, posts, cause) := bootRecord d.slotRecord (fun k => (v 1).testBit k)
  let d := if r = d.slotRecord then d.slotsShow else d.slotSave r
  let d := { d with pwr := { d.pwr with boot := d.pwr.boot ++ posts } }
  match cause with
  | some c => (d, some c)
  | none =>
    let h := slotHead 1 (recFwAct r)
    ((d.wr Reg.SYS_FWVER (d.word (h + 0x10))).wr Reg.SYS_COMPAT (d.word (h + 0x14)), none)

/-- At start firmware checks a pending program image and makes it the active one, with the entry of Table 21.8 (R514). -/
def Dev.programBoot (d : Dev) : Dev :=
  let r := d.slotRecord
  if recPgPend r then
    let a := recPgAct r
    if d.slotOk 2 (1 - a) then (d.slotSave (recOf (recFwAct r) (recFwPend r) (recTrial r) (1 - a) false)).fw 0xB021 [nw (1 - a)]
    else (d.slotSave (recOf (recFwAct r) (recFwPend r) (recTrial r) a false)).fw 0xB024 [nw (1 - a)]
  else d

/-- A write of SVC_CONFIRM ends the trial (R513). -/
def Dev.trialConfirm (d : Dev) : Dev :=
  let r := d.slotRecord
  if recTrial r = 0 then d
  else (d.slotSave (recOf (recFwAct r) (recFwPend r) 0 (recPgAct r) (recPgPend r))).fw 0xB022 []

/-! ### Staging (R510 to R512) -/

/-- The status of a STAGEOPEN header for its kind, 0 when it is accepted. -/
def Dev.headerStatus (d : Dev) (h : List Byte) : Nat :=
  let kind := (leWord h 8).toNat % 256
  let n := (leWord h 0x1C).toNat
  if leWord h 0 != 0x4E59494D || (kind != 1 && kind != 2) || h.length != 256 then 4
  else if fieldOf (leWord h 0xC) 31 16 != d.fld Reg.SYS_ID 31 16 || d.fld Reg.SYS_ID 7 0 < fieldOf (leWord h 0xC) 7 0
      || d.fld Reg.SYS_ROMVER 15 0 < fieldOf (leWord h 0x18) 15 0 then 11
  else if slotBlocks kind < n then 4
  else if kind = 1 && recTrial d.slotRecord != 0 then 16
  else if kind = 2 && d.fld Reg.CYC_OCSTAT 1 0 != 0 then 16
  else if kind = 2 && d.tw.newImg then 6
  else if d.nvc.closedTherm || d.nvc.closedBank then 14
  else 0

/-- The sectors of a slot are erased, and the sector beside it. -/
def Dev.slotErase (d : Dev) (kind k : Nat) : Dev :=
  let n := slotBlocks kind / 64
  let d := (List.range n).foldl (fun (d : Dev) i => d.norErased (norSector (slotBase kind k) + i)) d
  d.norErased (norSector (slotHead kind k))

/-- The Attic of a kind holds no verified image any more. -/
def Dev.unstage (d : Dev) (kind : Nat) : Dev :=
  ({ d with svc := { d.svc with staged := dropAll kind d.svc.staged } }).setBit Reg.SVC_STAT 1 false

/-- STAGEOPEN: the header is checked, the Attic erased, and a new staging begins with entry 0xB010. -/
def Dev.stageOpen (d : Dev) (h : List Byte) : Nat × Dev :=
  match d.headerStatus h with
  | 0 =>
    let kind := (leWord h 8).toNat % 256
    let n := (leWord h 0x1C).toNat
    let d := (d.unstage kind).slotErase kind (d.attic kind)
    let d := { d with svc := { d.svc with stage := some { kind := kind, count := n, len := (leWord h 0x20).toNat, ident := leWord h 0x10, compat := leWord h 0x14, header := h, accepted := [] } } }
    (0, (d.wr Reg.SVC_STGPROG (nw n)).fw 0xB010 [nw kind])
  | e => (e, d)

/-- Entry 0xB011 for a block, at most once per second. -/
def Dev.blockCrcPost (d : Dev) (i : Nat) : Dev :=
  if d.running Tm.blkCrc && !d.due Tm.blkCrc (secT 1) then d else (d.start Tm.blkCrc).fw 0xB011 [nw i]

/-- STAGEBLOCK: a record of index, 4,096 data bytes and CRC-32C. -/
def Dev.stageBlock (d : Dev) (l : List Byte) : Nat × Dev :=
  match d.svc.stage with
  | none => (12, d)
  | some g =>
    let i := (leWord l 0).toNat
    if l.length != 4104 then (4, d)
    else if leWord l 4100 != crc32c (l.take 4100) then (7, d.blockCrcPost i)
    else if g.count ≤ i then (4, d)
    else if g.accepted.contains i then (8, d)
    else if d.nvc.closedTherm || d.nvc.closedBank then (14, d)
    else
      let d := d.nvBytes (slotBase g.kind (d.attic g.kind) + 4096 * i) (slice l 4 4096)
      let d := { d with svc := { d.svc with stage := some { g with accepted := i :: g.accepted } } }
      (0, d.wr Reg.SVC_STGPROG (nw (65536 * (g.accepted.length + 1) + g.count)))

/-- STAGEEND: refused until every index is accepted; the slot is read back and checked, and the image staged. -/
def Dev.stageEnd (d : Dev) (trailer : List Byte) : Nat × Dev :=
  match d.svc.stage with
  | none => (12, d)
  | some g =>
    if g.accepted.length < g.count then (12, d)
    else
      let k := d.attic g.kind
      match d.imageStatus g.header trailer (d.bytes (slotBase g.kind k) (4096 * g.count)) with
      | 0 =>
        let a := slotHead g.kind k
        let d := (d.nvBytes a g.header).nvBytes (a + 256) (fitBytes 192 trailer)
        let d := { d with svc := { d.svc with stage := none, staged := g.kind :: dropAll g.kind d.svc.staged } }
        (0, (d.setBit Reg.SVC_STAT 1 true).fw 0xB012 [nw g.kind])
      | e => (e, d.fw 0xB013 [nw e])

/-- The block count of the image staged in the Attic of a kind. -/
def Dev.stagedBlocks (d : Dev) (kind : Nat) : Nat := (d.word (slotHead kind (d.attic kind) + 0x1C)).toNat

/-- ACTIVATE: a staged image becomes pending, or in recovery the active one with a warm reset (R512, R516). -/
def Dev.activate (d : Dev) (kind : Nat) (force : Bool) : Nat × Dev :=
  let r := d.slotRecord
  if kind != 1 && kind != 2 then (4, d)
  else if !d.svc.staged.contains kind then (12, d)
  else if d.stagedBlocks kind = 0 then (4, d)
  else if kind = 2 && d.fld Reg.CYC_OCSTAT 1 0 != 0 then (16, d)
  else if kind = 1 && d.role = 1 && d.bit Reg.TW_STAT 6 && !force then (13, d)
  else if d.nvc.closedTherm || d.nvc.closedBank then (14, d)
  else if d.bit Reg.SVC_STAT 3 then
    let d := d.slotSave (recOf (1 - recFwAct r) false 0 (recPgAct r) (recPgPend r))
    let d := { d with pwr := { d.pwr with boot := d.pwr.boot ++ [(0xB031, nw (1 - recFwAct r))] } }
    (0, (d.unstage 1).resetAsk 9)
  else if kind = 1 then (0, (d.slotSave (recOf (recFwAct r) true (recTrial r) (recPgAct r) (recPgPend r))).fw 0xB020 [1])
  else (0, (d.slotSave (recOf (recFwAct r) (recFwPend r) (recTrial r) (recPgAct r) true)).fw 0xB020 [2])

/-! ### Online change: preparation (R375, R376) -/

/-- A symbol of the new image that a symbol of the running one matches by identity. -/
def Image.match_ (p : Image) (y : Symbol) : Option Symbol := p.symbols.find? (fun x => x.ident == y.ident)

/-- The first refusal code of R375 that holds. -/
def Dev.changeRefused (d : Dev) (ready : Bool) : Nat :=
  let new := if d.slotOk 2 (d.attic 2) then d.readImage (progSlot (d.attic 2)) else none
  match new, d.cyc.image with
  | none, _ => 1
  | some n, old =>
    let cfg := match old with | some o => o.cfg | none => n.cfg
    let lvl := match old with | some o => o.instep | none => n.instep
    if n.cfg != cfg then 2
    else if n.claims &&& ~~~ (d.rd Reg.SYS_CLAIMEN0) != 0 then 3
    else if n.instep != lvl then 4
    else if d.cycState != 2 then 5
    else if d.hasShade && !ready then 6
    else if d.cyc.armed.isSome then 7
    else 0

/-- ONLINECHG: the change is prepared, its code and initial values staged in system-pair SRAM, and armed, or refused; a duty names the cycle of the switch to its shade. -/
def Dev.changePrepare (d : Dev) (ready : Bool) : Nat × Dev :=
  match d.changeRefused ready with
  | 0 =>
    match d.readImage (progSlot (d.attic 2)), d.cyc.image with
    | some n, some o =>
      let changed := n.symbols.filter (fun y => match o.match_ y with | some x => x.type != y.type | none => false)
      let d := changed.foldl (fun (d : Dev) y => d.fw 0x8063 [nw y.ident]) d
      let k := (d.rd Reg.CYC_NUM).toNat + 1
      let paired := d.hasShade
      let d := d.copyMem (n.base + 0x100) stageBase (n.codeLen + n.dataLen + n.retLen)
      let d := { d with cyc := { d.cyc with armed := some n, switchAfter := if paired then some k else none } }
      let d := if paired then d.send .twin 0x09 ([2, 0, 0, 0] ++ byteNats (leBytes 4 k)) else d
      (0, (d.wr Reg.CYC_OCSTAT 0).setFld Reg.CYC_OCSTAT 1 0 2)
    | _, _ => (16, d)
  | c => (16, (d.setFld Reg.CYC_OCSTAT 31 24 c).fw 0x8061 [nw c])

end Sys2Proof.Machine
end

