-- ==== Sys2Proof/Machine/Link.lean ====
section
/-! DEFINITION. What the twin block does on a write of TW_CTL: handover, deposing, rejoining, seeding (R394, R395, R409),
and what a write of PWR_CTL and PWR_WDT does (R527 to R529). -/

namespace Sys2Proof.Machine

/-! ### The exchange of roles (R409) -/

/-- A handover is counted and makes entry 0x9011. -/
def Dev.handNote (d : Dev) : Dev := (d.satInc Reg.TW_COUNTS 31 16).hw 0x9011 [d.rd Reg.TW_EPOCH]

/-- The old duty's part in the cue tick: it becomes shade INSTEP. -/
def Dev.handGive (d : Dev) : Dev :=
  let d := d.cue 8 ((d.rd Reg.TW_EPOCH).toNat + 1)
  ({ d with tw := { d.tw with hand := none } }).shadeEnter.handNote

/-- System firmware starts the program of a new duty that was not in step, or starts it anew (R408). -/
def Dev.programAnew (d : Dev) : Dev :=
  let d := if d.cycState = 2 then d.progStop else d
  d.progStart.hw 0x9013 []

/-- The shade's part in the cue tick: it becomes duty; one that was not INSTEP starts the program (R408). -/
def Dev.handTake (d : Dev) : Dev :=
  if d.role != 2 then d
  else
    let was := d.smode
    let d := { d with tw := { d.tw with hand := none } }
    let d := d.dutyEnter.handNote
    if was = 1 then d else d.programAnew

/-- HANDOVER on a duty: it names the next cycle, or is refused when the shade is not INSTEP and RESTART is 0; while the
program does not run there is no cycle to wait for (log entry 131). -/
def Dev.handover (d : Dev) (restart : Bool) : Dev :=
  if d.role != 1 then d
  else if d.shadeInStep || (restart && d.hasShade) then
    let k := (d.rd Reg.CYC_NUM).toNat + 1
    let d := d.send .twin 0x09 ([1, 0, 0, 0] ++ byteNats (leBytes 4 k))
    let d := { d with tw := { d.tw with hand := some (k, restart) } }
    if d.cycState = 2 then d else d.handGive
  else d.hw 0x9030 [6]

/-! ### TW_CTL -/

/-- REJOIN while deposed: entry 0x9021 and the warm reset of cause 12 (R395). -/
def Dev.rejoin (d : Dev) : Dev := if d.role = 3 then (d.hw 0x9021 []).resetAsk 12 else d

/-- SEED sets an epoch of 0 to 1 (R394). -/
def Dev.seed (d : Dev) : Dev :=
  if d.rd Reg.TW_EPOCH = 0 then ((d.wr Reg.TW_EPOCH 1).epochSave).eligRefresh else d

/-- A write of TW_CTL. -/
def Dev.twCtl (d : Dev) (v : Word) : Dev :=
  let d := if bitOf v 4 then d.seed else d
  let d := if bitOf v 2 then d.depose 4 else d
  let d := if bitOf v 0 then d.handover (bitOf v 1) else d
  if bitOf v 3 then d.rejoin else d

/-! ### PWR_CTL and PWR_WDT -/

/-- PWR_CTL: STBY enters Standby (idle), SWRST asks for a warm reset of cause 9. -/
def Dev.pwrCtl (d : Dev) (v : Word) : Dev :=
  if bitOf v 0 then d.resetAsk 9 else if bitOf v 4 then d.standby 5 else d

/-- PWR_WDT: TO is stored, and the kick value 0xA5 restarts the watchdog (R529); it also starts when TO becomes nonzero. -/
def Dev.wdtWrite (d : Dev) (v : Word) : Dev :=
  let was := d.fld Reg.PWR_WDT 15 0
  let d := d.plainWrite Reg.PWR_WDT v
  if fieldOf v 31 24 = 0xA5 || (was = 0 && d.fld Reg.PWR_WDT 15 0 != 0) then d.start Tm.wdt else d

end Sys2Proof.Machine
end

