-- ==== Sys2Proof/Machine/TtMatch.lean ====
section
/-! DEFINITION. The writes of timetable entries by command, and the blanking before a strobe (R55, R56, R135). -/

namespace Sys2Proof.Machine

/-! ### Blanking (R135) -/

/-- BLANK leaves when the time to the next firing strobe entry, from the increment in use, has fallen to BAL_BLANKLEAD: once
for each firing that is awaited, which its place in angle and cycles tells from others. -/
def Dev.blankSend (d : Dev) : Dev :=
  let lead := d.fld Reg.BAL_BLANKLEAD 7 0
  match d.nextStrobe with
  | none => d
  | some dist =>
    let at_ := d.ang.cycle * 2 ^ 32 + d.ang.angle + dist
    if d.bit Reg.BAL_CTL 1 && lead != 0 && d.swp.blanked != some at_ && d.role != 2
        && decide (dist * 65536 ≤ 125 * lead * d.angInc) then
      let d := { d with swp := { d.swp with blanked := some at_ } }
      let d := if d.ringSplit then d.cue 0xA 0 else d
      d.ringSend setBlank []
    else d

/-! ### Commands -/

/-- A write of word 0 of a timetable entry. -/
def execTtEntryWord0Write (src : Writer) (b : BitVec 1) (i : Byte) (v : Word) (s : State) :
    Host.Outcome State Fault Refusal :=
  s.lift (fun d => d.gate src (Reg.TT_ENT b.toNat i.toNat 0) (fun d => d.ttWord0 b.toNat i.toNat v))

/-- A write of word 1 of a timetable entry. -/
def execTtEntryWord1Write (src : Writer) (b : BitVec 1) (i : Byte) (v : Word) (s : State) :
    Host.Outcome State Fault Refusal :=
  s.lift (fun d => d.gate src (Reg.TT_ENT b.toNat i.toNat 1) (fun d => d.ttWord1 b.toNat i.toNat v))

/-- A write of TT_CTL with SWAP. -/
def execTtSwapRequest (src : Writer) (v : Word) (s : State) : Host.Outcome State Fault Refusal :=
  s.lift (fun d => d.gate src Reg.TT_CTL (fun d => d.ttCtl (withBit v 1 true)))

/-- The time to the next strobe falls to BAL_BLANKLEAD. -/
def execBlankSend (s : State) : Host.Outcome State Fault Refusal := s.lift (fun d => d.blankSend)

end Sys2Proof.Machine
end

