-- ==== Sys2Proof/Machine/Periph.lean ====
section
/-! DEFINITION. Writes of peripheral registers by address: the effects that some registers have on a write, and writes by
access type for the others (R7 to R9, R14 to R19). -/

namespace Sys2Proof.Machine

/-- The number of the element of an array of `n` words, `stride` bytes apart from `base`, at address `a`; `n` or more
when `a` is none of them. -/
def slotIdx (a base stride n : Nat) : Nat :=
  if base ≤ a && (a - base) % stride = 0 && (a - base) / stride < n then (a - base) / stride else n

/-- Writes of SYS, PWR and HLT (R20, R25, R527 to R529, Table 22.10). -/
def Dev.wrSystem (d : Dev) (a : Nat) (v : Word) : Dev :=
  if a = Reg.SYS_CTL then d.sysCtlWrite v
  else if a = Reg.SYS_EXPREL0 then d.release false v
  else if a = Reg.SYS_EXPREL1 then d.release true v
  else if a = Reg.PWR_CTL then d.pwrCtl v
  else if a = Reg.PWR_WDT then d.wdtWrite v
  else if a = Reg.HLT_THRPAUSE then d.plainWrite a (nw (min 90 (fieldOf v 7 0)))
  else d.plainWrite a v

/-- Writes of ANG: with an ANG_SLEW of zero free-run follows the nominal increment at once (R44). -/
def Dev.wrAng (d : Dev) (a : Nat) (v : Word) : Dev :=
  if a = Reg.ANG_CTL then d.angCtl v
  else if a = Reg.ANG_SRCPRI then d.angSrcPri v
  else if a = Reg.ANG_PERR then d.angPerr v
  else if a = Reg.ANG_INC_HI then d.angIncHi v
  else if a = Reg.ANG_INC_LO then d.angIncLo v
  else if a = Reg.ANG_LOSSTO then d.angLossTo v
  else
    let d := d.plainWrite a v
    if a = Reg.ANG_NOMINC_LO || a = Reg.ANG_NOMINC_HI || a = Reg.ANG_SLEW then d.slewAtOnce else d

/-- Writes of TIM. -/
def Dev.wrTim (d : Dev) (a : Nat) (v : Word) : Dev :=
  if a = Reg.TIM_CTL then d.timCtl v
  else if a = Reg.TIM_INC then d.timInc v
  else if a = Reg.TIM_ADJSEC then d.timAdjSec v
  else if a = Reg.TIM_ADJNS then d.timAdjNs v
  else if a = Reg.TIM_HOLDTO then d.timHoldTo v
  else if a = Reg.TIM_SNAP then d.timSnap
  else d.plainWrite a v

/-- Writes of TT: control, and the words of entries. -/
def Dev.wrTt (d : Dev) (a : Nat) (v : Word) : Dev :=
  if a = Reg.TT_CTL then d.ttCtl v
  else
    let n := slotIdx a (Reg.TT_ENT 0 0 0) 4 1024
    if n < 1024 then
      if n % 2 = 0 then d.ttWord0 (n / 512) (n / 2 % 256) v else d.ttWord1 (n / 512) (n / 2 % 256) v
    else d.plainWrite a v

/-- Writes of SKA (`x` 0) and SKB (`x` 1). -/
def Dev.wrSk (d : Dev) (x a : Nat) (v : Word) : Dev :=
  let k := slotIdx a (Reg.SK_NODE x 0) 4 48
  if a = Reg.SK_CTL x then d.skCtl x (if d.txHeld then withBit v 1 false else v)
  else if a = Reg.SK_CMDGO x then d.cmdGo (x = 1) v
  else if k < 48 then d.rearm k v
  else d.plainWrite a v

/-- Writes of SWP, CHM and BAL.  A suspect bit that software clears in SWP_OWSUS makes no entry 0x1053 (DESIGN CHOICE: log
entry 182). -/
def Dev.wrSweep (d : Dev) (src : Writer) (a : Nat) (v : Word) : Dev :=
  let i := slotIdx a (Reg.CHM_ENT 0) 4 2048
  let k := slotIdx a (Reg.BAL_CMD 0) 4 48
  if a = Reg.SWP_CTL then d.swpCtl v
  else if a = Reg.SWP_OWCTL then d.owGo v
  else if i < 2048 then d.chmWrite i v
  else if a = Reg.BAL_CTL then d.balCtl src v
  else if a = Reg.BAL_LRN then d.lrnWrite v
  else if k < 48 then d.balCmdWrite k v
  else d.plainWrite a v

/-- Writes of LIM and SCC; a changed row of the trip matrix takes effect at once. -/
def Dev.wrProtect (d : Dev) (a : Nat) (v : Word) : Dev :=
  let n := slotIdx a (Reg.LIM_ENT 0 0) 4 8192
  if a = Reg.LIM_TRIPCLR then d.tripClear v
  else if a = Reg.LIM_SWTRIP then d.swTrip v
  else if a = Reg.LIM_TEST then d.limTest v 0
  else if n < 8192 then d.limWrite (n / 4) (n % 4) v
  else if slotIdx a (Reg.LIM_TRIPMAP 0) 4 32 < 32 then (d.plainWrite a v).updateAct
  else if a = Reg.SCC_CMD then d.sccCmdWrite v
  else if a = Reg.SCC_TEST then d.sccTestWrite v
  else if a = Reg.SCC_DIAG then d.sccDiagWrite v
  else d.plainWrite a v

/-- Writes of EST and IMP: writing GRADE begins a grading run (R211), and a rotation follows EST_REQ.ROT as it is written
(R212, R275). -/
def Dev.wrState (d : Dev) (a : Nat) (v : Word) : Dev :=
  let n := slotIdx a (Reg.IMP_BIN 0 0) 4 64
  if a = Reg.EST_CTL then
    let was := d.bit Reg.EST_CTL 1
    let d := d.estCurWrite a v
    if was || bitOf v 1 then d.gradeBegin else d
  else if a = Reg.EST_ICFG then d.estCurWrite a v
  else if a = Reg.EST_PUB then d.estPub
  else if a = Reg.EST_PUBTO then d.pubtoWrite v
  else if a = Reg.EST_DERATE then (d.plainWrite a v).outForm.reform
  else if a = Reg.EST_REQ then (d.plainWrite a v).rotStart
  else if a = Reg.IMP_CTL then d.impCtl v
  else if n < 64 then d.binWrite (n / 4) (n % 4) v
  else d.plainWrite a v

/-- Writes of CE, PWM, SDM and DSP. -/
def Dev.wrConvert (d : Dev) (a : Nat) (v : Word) : Dev :=
  let s := slotIdx a (Reg.CE_SLOT 0 0) 4 128
  let p := slotIdx a (Reg.PWM_PER 0) 32 4
  let n := slotIdx a (Reg.SDM_CFG 0) 32 6
  let m := slotIdx a (Reg.DSP_MB 0 0) 4 16
  if a = Reg.CE_FLTCLR then d.fltClr v
  else if a = Reg.CE_KICK then d.kick v
  else if a = Reg.CE_TINJ then d.tinjWrite v
  else if a = Reg.CE_TRCCTL then d.trcCtl v
  else if a = Reg.CE_DSPREF then d.dsprefWrite v
  else if s < 128 then d.slotWrite (s / 16) (s % 16) v
  else if a = Reg.PWM_CTL then d.pwmCtl v
  else if a = Reg.PWM_BLKCLR then d.blkClr v
  else if p < 4 then d.perWrite p v
  else if a = Reg.SDM_CTL then d.sdmCtl v
  else if a = Reg.SDM_CKDIV then d.ckDiv v
  else if n < 6 then d.sdmCfg n v
  else if slotIdx a (Reg.SDM_CMP 0) 32 6 < 6 then d.sdmCmp (slotIdx a (Reg.SDM_CMP 0) 32 6) v
  else if slotIdx a (Reg.SDM_WARN 0) 32 6 < 6 then d.sdmWarn (slotIdx a (Reg.SDM_WARN 0) 32 6) v
  else if a = Reg.DSP_CTL then d.dspCtl v
  else if m < 16 then d.mbWrite (m / 4) (m % 4) v
  else if a = Reg.DSP_LIMCH || a = Reg.DSP_LIMDIS || a = Reg.DSP_MBTO || a = Reg.DSP_ROT then (d.plainWrite a v).reform
  else d.plainWrite a v

/-- Writes of MOT and FIO. -/
def Dev.wrMotion (d : Dev) (src : Writer) (a : Nat) (v : Word) : Dev :=
  let ax (f : Nat → Nat) : Nat := slotIdx a (f 0) 64 4
  let fan (f : Nat → Nat) : Nat := slotIdx a (f 0) 16 4
  let n := slotIdx a (Reg.MOT_TFDCFG 0) 16 4
  let i := slotIdx a (Reg.FIO_INCFG 0) 4 20
  if a = Reg.MOT_CTL then (d.plainWrite a v).fansWatch
  else if a = Reg.MOT_CANID then let d := d.plainWrite a v; if d.motRes then d.motObjects else d
  else if ax Reg.MOT_TGT < 4 then d.targetWrite src (ax Reg.MOT_TGT) v
  else if ax Reg.MOT_CMD < 4 then d.motCmd (ax Reg.MOT_CMD) v
  else if ax Reg.MOT_CFG < 4 then d.motCfg (ax Reg.MOT_CFG) v
  else if fan Reg.MOT_FANDUTY < 4 then d.fanDutyWrite src (fan Reg.MOT_FANDUTY) v
  else if fan Reg.MOT_FANCFG < 4 then d.fanCfgWrite (fan Reg.MOT_FANCFG) v
  else if fan Reg.MOT_FANSUP < 4 then (d.plainWrite a v).fanWatch (fan Reg.MOT_FANSUP)
  else if n < 4 then d.feedCfg n v
  else if i < 20 then d.inCfg i v
  else if a = Reg.FIO_TP then d.tpWrite v
  else d.plainWrite a v

/-- Writes of CYC and TW. -/
def Dev.wrCycle (d : Dev) (a : Nat) (v : Word) : Dev :=
  let n := slotIdx a (Reg.CYC_FORCE 0 0) 4 1024
  if a = Reg.CYC_CTL then d.cycCtl v
  else if a = Reg.CYC_PERIOD then d.cycPeriod v
  else if n < 1024 then d.forceWrite (n / 4) (n % 4) v
  else if a = Reg.TW_CTL then d.twCtl v
  else d.plainWrite a v

/-- Writes of CAN A (`x` 0) and CAN B (`x` 1). -/
def Dev.wrCan (d : Dev) (x a : Nat) (v : Word) : Dev :=
  let q := slotIdx a (Reg.CAN_TXREQ x 0) 4 4
  let c := slotIdx a (Reg.CAN_TXCAN x 0) 4 4
  let o := slotIdx a (Reg.CAN_OBJ x 0 0) 4 4096
  if a = Reg.CAN_CTL x then d.canCtl x v
  else if a = Reg.CAN_NBT x || a = Reg.CAN_DBT x || a = Reg.CAN_TDC x then d.canTiming x a v
  else if q < 4 then d.canTxreq x q v
  else if c < 4 then d.canTxcanStore x c v
  else if a = Reg.CAN_RDSEL x then d.canRdsel x (fieldOf v 6 0)
  else if o < 4096 then d.canObjWrite x (o / 32) (o % 32) v
  else d.plainWrite a v

/-- Writes of SMB, ETH and DMA; a deposed module's Ethernet transmitters stay off (R395). -/
def Dev.wrPorts (d : Dev) (a : Nat) (v : Word) : Dev :=
  let r (f : Nat → Nat) : Nat := slotIdx a (f 0) 16 64
  if a = Reg.SMB_REQSET then d.smbPush (fieldOf v 15 0)
  else if a = Reg.ETH_CTL then d.plainWrite a (if d.txHeld then 0 else v)
  else if a = Reg.ETH_TCCTL then d.tcCtl v
  else if a = Reg.DMA_CTL then (List.range 64).foldl (fun (d : Dev) k => d.dmaRun k (d.dmaN k)) (d.plainWrite a v)
  else if r Reg.DMA_BASE < 64 then d.dmaBaseWrite (r Reg.DMA_BASE) v
  else if r Reg.DMA_CFG < 64 then d.dmaCfgWrite (r Reg.DMA_CFG) v
  else if r Reg.DMA_TAIL < 64 then d.dmaTailWrite (r Reg.DMA_TAIL) v
  else d.plainWrite a v

/-- Writes of REC, NVC and SVC. -/
def Dev.wrRecord (d : Dev) (a : Nat) (v : Word) : Dev :=
  if a = Reg.REC_CTL then d.recCtl v
  else if a = Reg.REC_POST then d.recPost v
  else if a = Reg.REC_FLTH then d.plainWrite a (nw (min 1024 (fieldOf v 10 0)))
  else if a = Reg.NVC_RGO then d.nvcGo (fieldOf v 1 0) (fieldOf v 15 8)
  else if a = Reg.SVC_CONFIRM then (if bitOf v 0 then d.trialConfirm else d)
  else d.plainWrite a v

/-- What a write of `v` to the register at `a` does once its block takes the write. -/
def Dev.regWrite (d : Dev) (src : Writer) (a : Nat) (v : Word) : Dev :=
  match blockOf a with
  | 3 => d.wrAng a v
  | 4 => d.wrTt a v
  | 5 => d.wrTim a v
  | 6 => d.wrSk 0 a v
  | 7 => d.wrSk 1 a v
  | 8 => d.wrSweep src a v
  | 9 => d.wrSweep src a v
  | 10 => d.wrProtect a v
  | 11 => d.wrProtect a v
  | 12 => d.wrSweep src a v
  | 13 => d.wrState a v
  | 14 => d.wrState a v
  | 15 => d.wrConvert a v
  | 16 => d.wrConvert a v
  | 17 => d.wrConvert a v
  | 18 => d.wrConvert a v
  | 19 => d.wrMotion src a v
  | 20 => d.wrMotion src a v
  | 21 => d.wrCycle a v
  | 22 => d.wrCycle a v
  | 23 => d.wrCan 0 a v
  | 24 => d.wrCan 1 a v
  | 25 => d.wrPorts a v
  | 26 => d.wrPorts a v
  | 28 => d.wrRecord a v
  | 29 => d.wrRecord a v
  | 30 => d.wrRecord a v
  | 31 => d.wrPorts a v
  | 32 => d.plainWrite a v
  | _ => d.wrSystem a v

/-- A write of `v` to the register at `a` by `src`. -/
def Dev.periphWrite (d : Dev) (src : Writer) (a : Nat) (v : Word) : Dev :=
  d.gate src a (fun d => d.regWrite src a v)

/-- A register write by address.  Away from a word boundary a pair takes the alignment exception; at an address that is in
no peripheral block of Table 1.8 it takes the bus-error exception (R28, R315); a session's write there is not performed. -/
def Dev.registerWrite (d : Dev) (src : Writer) (a : Nat) (v : Word) : Dev :=
  let refuse (code sub : Nat) : Dev :=
    match src with
    | .system => d.raise .system code sub (some (nw a))
    | .program => d.raise .program code sub (some (nw a))
    | .session => d
  if a % 4 != 0 then refuse 4 0
  else if isPeriph a && blockOf a != 27 then d.periphWrite src a v
  else refuse 6 2

/-- A register write. -/
def execRegisterWrite (src : Writer) (a v : Word) (s : State) : Host.Outcome State Fault Refusal :=
  s.lift (fun d => d.registerWrite src a.toNat v)

end Sys2Proof.Machine
end

