-- ==== Sys2Proof/Machine/Mem.lean ====
section
/-! DEFINITION. Loads, stores and atomics (R314 to R316, R338). -/

namespace Sys2Proof.Machine

/-! ### Shared operations -/

/-- The writer a pair is (R14 to R17). -/
def pairWriter : Pair → Writer
  | .system => .system
  | .program => .program

/-- `n` words from `a`, from memory or from the peripheral registers in ascending order (R315, R329). -/
def Dev.loadWords (d : Dev) (a : Nat) : Nat → List Word × Dev
  | 0 => ([], d)
  | n + 1 =>
    let (w, d) := if isPeriph a then d.periphRead a else (d.word a, d)
    let (ws, d) := Dev.loadWords d (a + 4) n
    (w :: ws, d)

/-- Words stored from `a`, to SRAM or to the peripheral registers in ascending order. -/
def Dev.storeWords (d : Dev) (p : Pair) (a : Nat) : List Word → Dev
  | [] => d
  | w :: t =>
    let d := if isPeriph a then d.periphWrite (pairWriter p) a w else d.sramStore p a (leBytes 4 w.toNat)
    Dev.storeWords d p (a + 4) t

/-- A load of `n` bytes; `f` puts what was read into the core.  A suppressed live read gives zeros (R338). -/
def Dev.load (d : Dev) (p : Pair) (n : Nat) (ra : GReg) (imm : BitVec 16) (ok : Bool) (f : Nat → CoreSt → CoreSt) : Dev :=
  d.issue p (fun d =>
    if ok = false then d.raise p 1 0 none
    else
      let c := d.core p
      let a := c.addr ra imm
      match d.dataFault p kLoad a n true with
      | some (some x) => d.dataRaise p kLoad a x
      | some none => d.setCore p (f 0 (c.setLR a)).next
      | none =>
        let d := d.corrected a n
        if n < 4 then d.setCore p (f (leNat (d.bytes a n)) c).next
        else
          let (ws, d) := d.loadWords a (n / 4)
          d.setCore p (f (leNat (wordsBytes ws)) (d.core p)).next)

/-- A store of the low `n` bytes of what `v` gives. -/
def Dev.store (d : Dev) (p : Pair) (n : Nat) (ra : GReg) (imm : BitVec 16) (ok : Bool) (v : CoreSt → Nat) : Dev :=
  d.issue p (fun d =>
    if ok = false then d.raise p 1 0 none
    else
      let c := d.core p
      let a := c.addr ra imm
      match d.dataFault p kStore a n false with
      | some (some x) => d.dataRaise p kStore a x
      | some none => d
      | none =>
        let d := d.setCore p c.next
        if n < 4 then d.sramStore p a (leBytes n (v c))
        else d.storeWords p a ((List.range (n / 4)).map (fun i => nw (v c / 2 ^ (32 * i)))))

/-- What an atomic access raises.  One that only stores does not check the word it overwrites (R303). -/
def Dev.atomicFault (d : Dev) (p : Pair) (a : Nat) (reads live : Bool) : Option (Option (Nat × Nat)) :=
  match d.dataFault p kAtomic a 4 live with
  | some (some (7, sub)) => if reads then some (some (7, sub)) else none
  | x => x

/-- An atomic at the address in `ra`; `f` gives the new core and the word stored, if any, from the old word. -/
def Dev.atomic (d : Dev) (p : Pair) (ra : GReg) (reads live : Bool) (f : CoreSt → Nat → Word → CoreSt × Option Word) : Dev :=
  d.issue p (fun d =>
    let c := d.core p
    let a := (c.reg ra).toNat
    match d.atomicFault p a reads live with
    | some (some x) => d.dataRaise p kAtomic a x
    | some none => d.setCore p (f (c.setLR a) a 0).1.next
    | none =>
      let d := if reads then d.corrected a 4 else d
      let (c', w) := f c a (d.word a)
      let d := d.setCore p c'.next
      match w with
      | some v => d.sramStore p a (leBytes 4 v.toNat)
      | none => d)

/-- An AMO instruction: d := old word; word := f old b. -/
def Dev.amo (d : Dev) (p : Pair) (rd ra rb : GReg) (f : Word → Word → Word) : Dev :=
  d.atomic p ra true false (fun c _ old => (c.setReg rd old, some (f old (c.reg rb))))

/-- LDW: d := word at A. -/
def execLdw (p : Pair) (rd ra : GReg) (imm : BitVec 16) (s : State) : Host.Outcome State Fault Refusal :=
  s.lift (fun d => d.load p 4 ra imm true (fun x c => c.setReg rd (nw x)))

/-- LDH: sign-extended. -/
def execLdh (p : Pair) (rd ra : GReg) (imm : BitVec 16) (s : State) : Host.Outcome State Fault Refusal :=
  s.lift (fun d => d.load p 2 ra imm true (fun x c => c.setReg rd (iw (sx 16 x))))

/-- LDHU: zero-extended. -/
def execLdhu (p : Pair) (rd ra : GReg) (imm : BitVec 16) (s : State) : Host.Outcome State Fault Refusal :=
  s.lift (fun d => d.load p 2 ra imm true (fun x c => c.setReg rd (nw x)))

/-- LDB: sign-extended. -/
def execLdb (p : Pair) (rd ra : GReg) (imm : BitVec 16) (s : State) : Host.Outcome State Fault Refusal :=
  s.lift (fun d => d.load p 1 ra imm true (fun x c => c.setReg rd (iw (sx 8 x))))

/-- LDBU: zero-extended. -/
def execLdbu (p : Pair) (rd ra : GReg) (imm : BitVec 16) (s : State) : Host.Outcome State Fault Refusal :=
  s.lift (fun d => d.load p 1 ra imm true (fun x c => c.setReg rd (nw x)))

/-- LDD: pair d := 8 bytes at A. -/
def execLdd (p : Pair) (rd ra : GReg) (imm : BitVec 16) (s : State) : Host.Outcome State Fault Refusal :=
  s.lift (fun d => d.load p 8 ra imm (pairOk rd) (fun x c => c.setRegD rd x))

/-- STW: word at A := d. -/
def execStw (p : Pair) (rd ra : GReg) (imm : BitVec 16) (s : State) : Host.Outcome State Fault Refusal :=
  s.lift (fun d => d.store p 4 ra imm true (fun c => (c.reg rd).toNat))

/-- STH: halfword at A := d[15:0]. -/
def execSth (p : Pair) (rd ra : GReg) (imm : BitVec 16) (s : State) : Host.Outcome State Fault Refusal :=
  s.lift (fun d => d.store p 2 ra imm true (fun c => (c.reg rd).toNat))

/-- STB: byte at A := d[7:0]. -/
def execStb (p : Pair) (rd ra : GReg) (imm : BitVec 16) (s : State) : Host.Outcome State Fault Refusal :=
  s.lift (fun d => d.store p 1 ra imm true (fun c => (c.reg rd).toNat))

/-- STD: 8 bytes at A := pair d. -/
def execStd (p : Pair) (rd ra : GReg) (imm : BitVec 16) (s : State) : Host.Outcome State Fault Refusal :=
  s.lift (fun d => d.store p 8 ra imm (pairOk rd) (fun c => c.regD rd))

/-- LDX: d := word at a; the reservation covers its 8-byte granule (R316). -/
def execLdx (p : Pair) (rd ra : GReg) (s : State) : Host.Outcome State Fault Refusal :=
  s.lift (fun d => d.atomic p ra true true (fun c a old =>
    let c' := c.setReg rd old
    if c.suppressed a then (c', none) else ({ c' with resv := some (a / 8 * 8) }, none)))

/-- STX: the store succeeds if and only if the reservation covers the address; it ends either way (R316). -/
def execStx (p : Pair) (rd ra rb : GReg) (s : State) : Host.Outcome State Fault Refusal :=
  s.lift (fun d => d.atomic p ra false false (fun c a _ =>
    let ok := c.resv = some (a / 8 * 8)
    ({ c.setReg rd (if ok then 0 else 1) with resv := none }, if ok then some (c.reg rb) else none)))

/-- AMOSWP: d := old word at a; word at a := old op b. -/
def execAmoswp (p : Pair) (rd ra rb : GReg) (s : State) : Host.Outcome State Fault Refusal :=
  s.lift (fun d => d.amo p rd ra rb (fun _ y => y))

/-- AMOADD: d := old word at a; word at a := old op b. -/
def execAmoadd (p : Pair) (rd ra rb : GReg) (s : State) : Host.Outcome State Fault Refusal :=
  s.lift (fun d => d.amo p rd ra rb (fun x y => x + y))

/-- AMOAND: d := old word at a; word at a := old op b. -/
def execAmoand (p : Pair) (rd ra rb : GReg) (s : State) : Host.Outcome State Fault Refusal :=
  s.lift (fun d => d.amo p rd ra rb (fun x y => x &&& y))

/-- AMOOR: d := old word at a; word at a := old op b. -/
def execAmoor (p : Pair) (rd ra rb : GReg) (s : State) : Host.Outcome State Fault Refusal :=
  s.lift (fun d => d.amo p rd ra rb (fun x y => x ||| y))

/-- AMOMAX: d := old word at a; word at a := old op b. -/
def execAmomax (p : Pair) (rd ra rb : GReg) (s : State) : Host.Outcome State Fault Refusal :=
  s.lift (fun d => d.amo p rd ra rb (fun x y => pickMax BitVec.slt x y))

/-- AMOMIN: d := old word at a; word at a := old op b. -/
def execAmomin (p : Pair) (rd ra rb : GReg) (s : State) : Host.Outcome State Fault Refusal :=
  s.lift (fun d => d.amo p rd ra rb (fun x y => pickMin BitVec.slt x y))

end Sys2Proof.Machine
end

