-- ==== Sys2Proof/Machine/Commit.lean ====
section
/-! DEFINITION. The end of a program cycle: live-read reports, the output hash, the commit, system calls, and the switch of
an online change (R318, R362 to R370, R377, R378, R397). -/

namespace Sys2Proof.Machine

/-! ### System calls (R365) -/

/-- The Storeroom's program section with `l` written at offset `o`. -/
def sectionPut (old : Option (List Byte)) (o : Nat) (l : List Byte) : List Byte :=
  let b := fitBytes 0x40000 (old.getD [])
  fitBytes 0x40000 (b.take o ++ l ++ b.drop (o + l.length))

/-- An SCC command of a system call: the shade acts on that of its own commit (R401), and a duty whose shade is in step
sends no cue for it. -/
def Dev.callScc (d : Dev) (n : Nat) : Dev :=
  if d.role = 2 then d.sccCmd true n
  else if d.shadeInStep then (if n = 1 then d.sccClose false else if n = 2 then d.openReq else d.sccAck)
  else d.sccCmd false n

/-- A queued system call is carried out at the commit (Table 14.5). -/
def Dev.callDo (d : Dev) (c : SysCall) : Dev :=
  if c.num = 0x010 then
    let l := d.bytes c.a1.toNat c.a2.toNat
    ({ d with est := { d.est with section_ := some (sectionPut d.est.section_ c.a3.toNat l) } }).stoAsk 8
  else if c.num = 0x020 then d.transReq
  else if c.num = 0x030 then (d.release false c.a1).release true c.a2
  else if c.num = 0x040 then d.postBytes 2 (0x8100 + fieldOf c.a1 7 0) (d.bytes c.a3.toNat c.a2.toNat)
  else d.callScc c.num

/-- `n` bytes from `a` lie in the program pair's SRAM. -/
def progRange (a n : Nat) : Bool := 0x10000000 ≤ a && a + n ≤ 0x10600000

/-- The arguments of a system call are well formed (log entry 132). -/
def callOk (num : Nat) (a1 a2 a3 : Word) : Bool :=
  if num = 0x010 then progRange a1.toNat a2.toNat && decide (a3.toNat + a2.toNat ≤ 0x40000)
  else if num = 0x030 then decide (a2.toNat < 2)
  else if num = 0x040 then decide (a2.toNat ≤ 240) && progRange a3.toNat a2.toNat
  else true

/-- The runtime serves the program's system call `num`: it queues a well-formed call and returns with w1. -/
def Dev.sysCall (d : Dev) (num : Nat) : Dev :=
  let c := d.prog
  if c.stopped || !bitOf c.status 5 || fieldOf c.xcode 7 0 != 8 || c.xaddr.toNat != num then d
  else
    let ok := callOk num (c.reg 1) (c.reg 2) (c.reg 3)
    let call : SysCall := { num := num, a1 := c.reg 1, a2 := c.reg 2, a3 := c.reg 3 }
    let d := if ok then { d with cyc := { d.cyc with calls := d.cyc.calls ++ [call] } } else d
    let c := (c.setReg 1 (if ok then 0 else 1)).rfx .program
    { d with prog := if d.cyc.phase = .execute then c else { c with waiting := .cyend } }

/-! ### The output hash (R397) -/

/-- A queued call as the hash takes it. -/
def SysCall.bytes (c : SysCall) : List Byte := leBytes 4 c.num ++ wordsBytes [c.a1, c.a2, c.a3]

/-- The hash of the output image up to the end of its exports, and of the queued calls. -/
def Dev.outHash (d : Dev) : Word :=
  let n := match d.cyc.image with | some p => p.exports.length | none => 0
  crc32c (d.outBytes 0 (16 + 4 * n) ++ d.cyc.calls.flatMap SysCall.bytes)

/-! ### The commit (R364) -/

/-- Each export whose word has changed, or that is written always, in list order; a first commit writes all of them.  Those
to a block whose claim-enable bit is 0 are not performed, and the first of them raises PROT with sub-code 2 (R19, R363). -/
def Dev.exportAll (d : Dev) (p : Image) : Dev :=
  let ws := (List.range p.exports.length).map (fun i => nw (leNat (d.outBytes (16 + 4 * i) 4)))
  let all := d.cyc.firstCommit
  let old := d.cyc.lastOut
  let d := ((p.exports.zip ws).zipIdx).foldl (fun (d : Dev) e =>
    let a := e.1.1.1
    let w := e.1.2
    if (all || e.1.1.2 || old[e.2]? != some w) && d.claimEn (blockOf a) then d.periphWrite .program a w else d) d
  let d := { d with cyc := { d.cyc with lastOut := ws, firstCommit := false } }
  match ((p.exports.zip ws).zipIdx).find? (fun e =>
      (all || e.1.1.2 || old[e.2]? != some e.1.2) && !d.claimEn (blockOf e.1.1.1)) with
  | some e => d.raise .program 5 2 (some (nw e.1.1.1))
  | none => d

/-- An armed change whose cycle has ended puts the program in SWITCH (R377). -/
def Dev.switchBegin (d : Dev) : Dev :=
  let due := match d.cyc.switchAfter with | some k => decide (k ≤ (d.rd Reg.CYC_NUM).toNat) | none => d.role != 2
  if d.cyc.armed.isSome && due && d.cycState = 2 then
    ((d.setFld Reg.CYC_STAT 2 0 4).setFld Reg.CYC_OCSTAT 1 0 3).start Tm.switch
  else d

/-- A duty whose named cycle has ended on both modules hands its role over (R409). -/
def Dev.handDue (d : Dev) : Dev :=
  match d.tw.hand with
  | some (k, _) =>
    if d.role = 1 && decide (k ≤ (d.rd Reg.CYC_NUM).toNat) && d.cyc.phase = .wait && d.tw.hashWait.isNone then d.handGive else d
  | none => d

/-- The commit, from the output image under its forces: field outputs, exports, system calls; then the wait. The field outputs are
written to FIO_OUT as the engine's own act: no claim of FIO is made and SYS_CLAIMEN is not asked (DESIGN CHOICE: log entry
175). -/
def Dev.commit (d : Dev) : Dev :=
  let d := d.wr Reg.FIO_OUT (nw (d.outByte 0).toNat)
  let d := { d with fio := { d.fio with committed := true, warmHold := false } }
  let d := match d.cyc.image with | some p => d.exportAll p | none => d
  let calls := d.cyc.calls
  let d := { d with cyc := { d.cyc with calls := [] } }
  let d := calls.foldl (fun (d : Dev) c => d.callDo c) d
  let d := if d.cyc.phase = .idle then d else { d with cyc := { d.cyc with phase := .wait } }
  d.switchBegin.handDue

/-- The shade judges its cycle against the duty's hash: equal hashes commit, different ones drop it; either way it
answers (R397). -/
def Dev.shadeJudge (d : Dev) : Dev :=
  match d.tw.ownHash, d.tw.dutyHash with
  | some own, some (k, duty) =>
    if d.inStep && d.cyc.phase = .commit && (d.rd Reg.CYC_NUM).toNat = k then
      let eq := own == duty
      let d := d.send .twin 0x05 (byteNats (leBytes 4 k ++ leBytes 4 own.toNat) ++ [b2n (!eq), 0, 0, 0])
      let d := { d with tw := { d.tw with ownHash := none, dutyHash := none } }
      if eq then d.commit else (d.flag Reg.TW_STAT 17).shadeDrop 3
    else d
  | _, _ => d

/-! ### CYEND (R318, R367, R368, R370) -/

/-- CYC_EXEC takes the time of this cycle in units of 16 µs, and the longest. -/
def Dev.execTime (d : Dev) : Dev :=
  let t := satN 65535 ((d.now - d.cyc.execTick) / 2000)
  d.wr Reg.CYC_EXEC (nw (max t (d.fld Reg.CYC_EXEC 31 16) * 65536 + t))

/-- The live reads of the cycle are reported (R367). -/
def Dev.liveReport (d : Dev) : Dev :=
  let c := d.prog
  if !bitOf c.status 11 then d
  else
    let d := if d.bit Reg.CYC_STAT 9 then d else d.wr Reg.CYC_LRADDR c.lraddr
    let d := (d.satInc Reg.CYC_LRCNT 31 0).flag Reg.CYC_STAT 9
    let first := !d.cyc.lrRecorded
    let d := { d with cyc := { d.cyc with lrPrev := true, lrRecorded := true } }
    if first then d.hw 0x8020 [c.lraddr] else d

/-- The cycle has ended: under STRICTLR a live read stops the program; else the output forces are applied, and a duty
sends its hash and commits, a shade holds its commit until the duty's hash has come. -/
def Dev.cycleEnd (d : Dev) : Dev :=
  let strict := match d.cyc.image with | some p => p.strict | none => false
  let lr := bitOf d.prog.status 11
  let d := d.execTime.liveReport.setBit Reg.CYC_STAT 3 false
  if lr && strict then d.progFault.hw 0x8021 []
  else
    let d := ({ d with cyc := { d.cyc with phase := .commit } }).outputForces
    if d.role = 0 then d.commit
    else
      let h := d.outHash
      let d := d.wr Reg.TW_LASTHASH h
      if d.inStep then ({ d with tw := { d.tw with ownHash := some h } }).shadeJudge
      else if d.shadeInStep then
        let d := d.send .twin 0x04 (byteNats (leBytes 4 (d.rd Reg.CYC_NUM).toNat ++ leBytes 4 h.toNat))
        let d := ({ d with tw := { d.tw with hashWait := some (d.rd Reg.CYC_NUM).toNat } }).start Tm.lagHash
        d.commit
      else d.commit

/-- CYEND: the pair issues nothing further until the next cycle; ILL on the system pair. -/
def execCyend (p : Pair) (s : State) : Host.Outcome State Fault Refusal :=
  s.lift (fun d => d.cycOp p (fun d =>
    let d := { d with prog := { d.prog.next with waiting := .cyend } }
    if d.cyc.phase = .execute then d.cycleEnd else d))

/-! ### The switch (R377, R378) -/

/-- The bytes that a staged image gives as the initial value at a data address. -/
def Dev.initBytes (d : Dev) (p : Image) (a n : Nat) : List Byte :=
  let src := stageBase
  if a < dataBase then List.replicate n 0
  else if a < dataBase + p.retLen then d.bytes (src + p.codeLen + p.dataLen + (a - dataBase)) n
  else if a < dataBase + p.retLen + p.dataLen then d.bytes (src + p.codeLen + (a - dataBase - p.retLen)) n
  else List.replicate n 0

/-- The symbols carried: new symbol, old address. -/
def carried (old new : Image) : List (Symbol × Nat) :=
  new.symbols.filterMap (fun y =>
    match old.match_ y with
    | some x => if x.type = y.type then some (y, x.addr) else none
    | none => none)

/-- The duration of the switch in ticks. -/
def switchTicks (old new : Image) : Nat :=
  let s := ((carried old new).map (fun e => e.1.size)).foldl (· + ·) 0
  usT 20 + ceilDiv (2 * s + new.codeLen + new.dataLen + new.zeroLen) 16

/-- A carried timer or counter with INITCHG takes its new preset. -/
def Dev.presetNew (d : Dev) (p : Image) (y : Symbol) : Dev :=
  if !y.initchg then d
  else if y.cls = 2 then d.agentStore (y.addr + 8) (d.initBytes p (y.addr + 8) 4)
  else if y.cls = 3 then d.agentStore (y.addr + 4) (d.initBytes p (y.addr + 4) 4)
  else d

/-- An entry that is in force is released, with entry 0x8062. -/
def Dev.forceDrop (d : Dev) (n : Nat) : Dev :=
  let w1 := d.rd (Reg.CYC_FORCE n 1)
  if bitOf w1 31 then (d.wr (Reg.CYC_FORCE n 1) (withBit w1 31 false)).fw 0x8062 [nw n] else d

/-- A force entry, in force or not, finds the place of its symbol in the new image; it is released when the symbol is gone or
has changed type. -/
def Dev.forceMove (d : Dev) (old new : Image) (n : Nat) : Dev :=
  let w1 := d.rd (Reg.CYC_FORCE n 1)
  let id := (d.rd (Reg.CYC_FORCE n 0)).toNat
  match old.symbols.find? (fun x => x.ident == id), new.symbols.find? (fun y => y.ident == id) with
  | some x, some y =>
    if x.type = y.type then
      let o : Int := (fieldOf w1 18 0 : Int) + 8 * ((y.addr % 65536 : Nat) - (x.addr % 65536 : Nat) : Int)
      d.wr (Reg.CYC_FORCE n 1) (withField w1 18 0 (o % 524288).toNat)
    else d.forceDrop n
  | _, _ => d.forceDrop n

/-- The module switches to the new program between two cycles. -/
def Dev.switchRun (d : Dev) : Dev :=
  match d.cyc.image, d.cyc.armed with
  | some old, some new =>
    if d.cycState != 4 || !d.due Tm.switch (switchTicks old new) then d
    else
      let moves := (carried old new).map (fun e => (e.1, d.bytes e.2 e.1.size))
      let src := stageBase
      let d := d.copyMem src codeBase new.codeLen
      let d := d.copyMem (src + new.codeLen + new.dataLen) dataBase new.retLen
      let d := d.copyMem (src + new.codeLen) (dataBase + new.retLen) new.dataLen
      let d := d.zeroMem (dataBase + new.retLen + new.dataLen) new.zeroLen
      let d := moves.foldl (fun (d : Dev) m => d.agentStore m.1.addr m.2) d
      let d := moves.foldl (fun (d : Dev) m => d.presetNew new m.1) d
      let d := ((List.range 256).foldl (fun (d : Dev) n => d.forceMove old new n) d).forceShow
      let d := d.setCore .program ((d.core .program).placed new.changeAddr 2)
      let d := { d with cyc := { d.cyc with image := some new, armed := none, switchAfter := none, firstCommit := true, afterSwitch := true, retainedId := some new.imageId } }
      let r := d.slotRecord
      let d := d.slotSave (recOf (recFwAct r) (recFwPend r) (recTrial r) (1 - recPgAct r) false)
      (((d.setFld Reg.CYC_STAT 2 0 2).setFld Reg.CYC_OCSTAT 1 0 0).stop Tm.switch).fw 0x8060 []
  | _, _ => d

/-! ### Commands -/

/-- System call 0x001. -/
def execSyscallSccClose (s : State) : Host.Outcome State Fault Refusal := s.lift (fun d => d.sysCall 0x001)

/-- System call 0x002. -/
def execSyscallSccOpen (s : State) : Host.Outcome State Fault Refusal := s.lift (fun d => d.sysCall 0x002)

/-- System call 0x003. -/
def execSyscallSccAck (s : State) : Host.Outcome State Fault Refusal := s.lift (fun d => d.sysCall 0x003)

/-- System call 0x010. -/
def execSyscallStoreroom (s : State) : Host.Outcome State Fault Refusal := s.lift (fun d => d.sysCall 0x010)

/-- System call 0x020. -/
def execSyscallTransport (s : State) : Host.Outcome State Fault Refusal := s.lift (fun d => d.sysCall 0x020)

/-- System call 0x030. -/
def execSyscallRelease (s : State) : Host.Outcome State Fault Refusal := s.lift (fun d => d.sysCall 0x030)

/-- System call 0x040. -/
def execSyscallRecord (s : State) : Host.Outcome State Fault Refusal := s.lift (fun d => d.sysCall 0x040)

/-- The switch of an online change. -/
def execOnlineChangeSwitch (s : State) : Host.Outcome State Fault Refusal := s.lift (fun d => d.switchRun)

end Sys2Proof.Machine
end

