-- ==== Sys2Proof/Machine/FloatIsa.lean ====
section
/-! DEFINITION. Floating-point instructions (R313, Table 12.9). -/

namespace Sys2Proof.Machine

/-! ### Shared operations -/

/-- d := f a b in binary32, with the flags raised. -/
def Dev.ff2 (d : Dev) (p : Pair) (rd ra rb : GReg) (f : Nat → Nat → Nat → Nat × FFlags) : Dev :=
  d.alu p (fun c =>
    let (r, fl) := f c.rm (c.reg ra).toNat (c.reg rb).toNat
    (c.setReg rd (nw r)).fflags fl)

/-- d := f a in binary32. -/
def Dev.ff1 (d : Dev) (p : Pair) (rd ra : GReg) (f : Nat → Nat → Nat × FFlags) : Dev :=
  d.alu p (fun c =>
    let (r, fl) := f c.rm (c.reg ra).toNat
    (c.setReg rd (nw r)).fflags fl)

/-- Pair d := f a b in binary64; ILL unless every operand names a pair (R306). -/
def Dev.dd2 (d : Dev) (p : Pair) (rd ra rb : GReg) (f : Nat → Nat → Nat → Nat × FFlags) : Dev :=
  d.aluIf p (pairOk rd && pairOk ra && pairOk rb) (fun c =>
    let (r, fl) := f c.rm (c.regD ra) (c.regD rb)
    (c.setRegD rd r).fflags fl)

/-- Pair d := f a in binary64. -/
def Dev.dd1 (d : Dev) (p : Pair) (rd ra : GReg) (f : Nat → Nat → Nat × FFlags) : Dev :=
  d.aluIf p (pairOk rd && pairOk ra) (fun c =>
    let (r, fl) := f c.rm (c.regD ra)
    (c.setRegD rd r).fflags fl)

/-- One register d := a comparison of two binary64 pairs. -/
def Dev.dcmp (d : Dev) (p : Pair) (rd ra rb : GReg) (f : Nat → Nat → Nat × FFlags) : Dev :=
  d.aluIf p (pairOk ra && pairOk rb) (fun c =>
    let (r, fl) := f (c.regD ra) (c.regD rb)
    (c.setReg rd (nw r)).fflags fl)

/-! ### binary32 (Table 12.9) -/

/-- FADD in binary32. -/
def execFadd (p : Pair) (rd ra rb : GReg) (s : State) : Host.Outcome State Fault Refusal :=
  s.lift (fun d => d.ff2 p rd ra rb (fun rm x y => f32.add rm x y))

/-- FSUB in binary32. -/
def execFsub (p : Pair) (rd ra rb : GReg) (s : State) : Host.Outcome State Fault Refusal :=
  s.lift (fun d => d.ff2 p rd ra rb (fun rm x y => f32.sub rm x y))

/-- FMUL in binary32. -/
def execFmul (p : Pair) (rd ra rb : GReg) (s : State) : Host.Outcome State Fault Refusal :=
  s.lift (fun d => d.ff2 p rd ra rb (fun rm x y => f32.mul rm x y))

/-- FDIV in binary32. -/
def execFdiv (p : Pair) (rd ra rb : GReg) (s : State) : Host.Outcome State Fault Refusal :=
  s.lift (fun d => d.ff2 p rd ra rb (fun rm x y => f32.div rm x y))

/-- FMIN in binary32. -/
def execFmin (p : Pair) (rd ra rb : GReg) (s : State) : Host.Outcome State Fault Refusal :=
  s.lift (fun d => d.ff2 p rd ra rb (fun _ x y => f32.minmax false x y))

/-- FMAX in binary32. -/
def execFmax (p : Pair) (rd ra rb : GReg) (s : State) : Host.Outcome State Fault Refusal :=
  s.lift (fun d => d.ff2 p rd ra rb (fun _ x y => f32.minmax true x y))

/-- FMADD: d := d + a * b, rounded once. -/
def execFmadd (p : Pair) (rd ra rb : GReg) (s : State) : Host.Outcome State Fault Refusal :=
  s.lift (fun d => d.alu p (fun c =>
    let (r, fl) := f32.fma c.rm (c.reg rd).toNat (c.reg ra).toNat (c.reg rb).toNat
    (c.setReg rd (nw r)).fflags fl))

/-- FEQ: d := 1 if true, else 0. -/
def execFeq (p : Pair) (rd ra rb : GReg) (s : State) : Host.Outcome State Fault Refusal :=
  s.lift (fun d => d.ff2 p rd ra rb (fun _ x y => f32.eq x y))

/-- FLT: d := 1 if true, else 0. -/
def execFlt (p : Pair) (rd ra rb : GReg) (s : State) : Host.Outcome State Fault Refusal :=
  s.lift (fun d => d.ff2 p rd ra rb (fun _ x y => f32.lt false x y))

/-- FLE: d := 1 if true, else 0. -/
def execFle (p : Pair) (rd ra rb : GReg) (s : State) : Host.Outcome State Fault Refusal :=
  s.lift (fun d => d.ff2 p rd ra rb (fun _ x y => f32.lt true x y))

/-- FSQRT. -/
def execFsqrt (p : Pair) (rd ra : GReg) (s : State) : Host.Outcome State Fault Refusal :=
  s.lift (fun d => d.ff1 p rd ra (fun rm x => f32.sqrt rm x))

/-- FNEG: sign inverted; no flags. -/
def execFneg (p : Pair) (rd ra : GReg) (s : State) : Host.Outcome State Fault Refusal :=
  s.lift (fun d => d.ff1 p rd ra (fun _ x => (f32.neg x, 0)))

/-- FABS: sign cleared; no flags. -/
def execFabs (p : Pair) (rd ra : GReg) (s : State) : Host.Outcome State Fault Refusal :=
  s.lift (fun d => d.ff1 p rd ra (fun _ x => (f32.abs x, 0)))

/-- FCVTWS: d := int32(a). -/
def execFcvtws (p : Pair) (rd ra : GReg) (s : State) : Host.Outcome State Fault Refusal :=
  s.lift (fun d => d.ff1 p rd ra (fun _ x => let (r, fl) := f32.toInt x; (r.toNat, fl)))

/-- FCVTSW: d := float(signed a). -/
def execFcvtsw (p : Pair) (rd ra : GReg) (s : State) : Host.Outcome State Fault Refusal :=
  s.lift (fun d => d.ff1 p rd ra (fun rm x => f32.ofInt rm (nw x).toInt))

/-- FCVTSWU: d := float(unsigned a). -/
def execFcvtswu (p : Pair) (rd ra : GReg) (s : State) : Host.Outcome State Fault Refusal :=
  s.lift (fun d => d.ff1 p rd ra (fun rm x => f32.ofInt rm x))

/-! ### binary64 on register pairs -/

/-- DADD in binary64. -/
def execDadd (p : Pair) (rd ra rb : GReg) (s : State) : Host.Outcome State Fault Refusal :=
  s.lift (fun d => d.dd2 p rd ra rb (fun rm x y => f64.add rm x y))

/-- DSUB in binary64. -/
def execDsub (p : Pair) (rd ra rb : GReg) (s : State) : Host.Outcome State Fault Refusal :=
  s.lift (fun d => d.dd2 p rd ra rb (fun rm x y => f64.sub rm x y))

/-- DMUL in binary64. -/
def execDmul (p : Pair) (rd ra rb : GReg) (s : State) : Host.Outcome State Fault Refusal :=
  s.lift (fun d => d.dd2 p rd ra rb (fun rm x y => f64.mul rm x y))

/-- DDIV in binary64. -/
def execDdiv (p : Pair) (rd ra rb : GReg) (s : State) : Host.Outcome State Fault Refusal :=
  s.lift (fun d => d.dd2 p rd ra rb (fun rm x y => f64.div rm x y))

/-- DMIN in binary64. -/
def execDmin (p : Pair) (rd ra rb : GReg) (s : State) : Host.Outcome State Fault Refusal :=
  s.lift (fun d => d.dd2 p rd ra rb (fun _ x y => f64.minmax false x y))

/-- DMAX in binary64. -/
def execDmax (p : Pair) (rd ra rb : GReg) (s : State) : Host.Outcome State Fault Refusal :=
  s.lift (fun d => d.dd2 p rd ra rb (fun _ x y => f64.minmax true x y))

/-- DMADD: d := d + a * b, rounded once. -/
def execDmadd (p : Pair) (rd ra rb : GReg) (s : State) : Host.Outcome State Fault Refusal :=
  s.lift (fun d => d.aluIf p (pairOk rd && pairOk ra && pairOk rb) (fun c =>
    let (r, fl) := f64.fma c.rm (c.regD rd) (c.regD ra) (c.regD rb)
    (c.setRegD rd r).fflags fl))

/-- DEQ: one register d. -/
def execDeq (p : Pair) (rd ra rb : GReg) (s : State) : Host.Outcome State Fault Refusal :=
  s.lift (fun d => d.dcmp p rd ra rb (fun x y => f64.eq x y))

/-- DLT: one register d. -/
def execDlt (p : Pair) (rd ra rb : GReg) (s : State) : Host.Outcome State Fault Refusal :=
  s.lift (fun d => d.dcmp p rd ra rb (fun x y => f64.lt false x y))

/-- DLE: one register d. -/
def execDle (p : Pair) (rd ra rb : GReg) (s : State) : Host.Outcome State Fault Refusal :=
  s.lift (fun d => d.dcmp p rd ra rb (fun x y => f64.lt true x y))

/-- DSQRT. -/
def execDsqrt (p : Pair) (rd ra : GReg) (s : State) : Host.Outcome State Fault Refusal :=
  s.lift (fun d => d.dd1 p rd ra (fun rm x => f64.sqrt rm x))

/-- DNEG: sign inverted; no flags. -/
def execDneg (p : Pair) (rd ra : GReg) (s : State) : Host.Outcome State Fault Refusal :=
  s.lift (fun d => d.dd1 p rd ra (fun _ x => (f64.neg x, 0)))

/-- DABS: sign cleared; no flags. -/
def execDabs (p : Pair) (rd ra : GReg) (s : State) : Host.Outcome State Fault Refusal :=
  s.lift (fun d => d.dd1 p rd ra (fun _ x => (f64.abs x, 0)))

/-- FCVTSD: d := binary32 of the pair a. -/
def execFcvtsd (p : Pair) (rd ra : GReg) (s : State) : Host.Outcome State Fault Refusal :=
  s.lift (fun d => d.aluIf p (pairOk ra) (fun c =>
    let (r, fl) := f32.convert f64 c.rm (c.regD ra)
    (c.setReg rd (nw r)).fflags fl))

/-- FCVTDS: pair d := binary64 of a; exact. -/
def execFcvtds (p : Pair) (rd ra : GReg) (s : State) : Host.Outcome State Fault Refusal :=
  s.lift (fun d => d.aluIf p (pairOk rd) (fun c =>
    let (r, fl) := f64.convert f32 c.rm (c.reg ra).toNat
    (c.setRegD rd r).fflags fl))

/-- DCVTWS: one register d. -/
def execDcvtws (p : Pair) (rd ra : GReg) (s : State) : Host.Outcome State Fault Refusal :=
  s.lift (fun d => d.aluIf p (pairOk ra) (fun c =>
    let (r, fl) := f64.toInt (c.regD ra)
    (c.setReg rd r).fflags fl))

/-- DCVTSW: pair d from one register. -/
def execDcvtsw (p : Pair) (rd ra : GReg) (s : State) : Host.Outcome State Fault Refusal :=
  s.lift (fun d => d.aluIf p (pairOk rd) (fun c =>
    let (r, fl) := f64.ofInt c.rm (c.reg ra).toInt
    (c.setRegD rd r).fflags fl))

/-- DCVTSWU: pair d from one register. -/
def execDcvtswu (p : Pair) (rd ra : GReg) (s : State) : Host.Outcome State Fault Refusal :=
  s.lift (fun d => d.aluIf p (pairOk rd) (fun c =>
    let (r, fl) := f64.ofInt c.rm (c.reg ra).toNat
    (c.setRegD rd r).fflags fl))


end Sys2Proof.Machine
end

