-- ==== Sys2Proof/Machine/Blocks.lean ====
section
/-! DEFINITION. Parameter blocks: what belongs to each, the checks of the owning chapters, acceptance and storage, the limit
shadow, the timetable that firmware builds, and the bytes of mirror section 0x01 (R18, R58, R102, R163, R164, R167, R177,
R188, R228, R260, R276, R297, R402).  Block numbers and the fields' numbers are the model's: log entry 134. -/

namespace Sys2Proof.Machine

/-! ### What belongs to a block -/

/-- The peripheral blocks whose registers parameter block `n` gives: 1 contactor, 2 grid, 3 ring, 4 sweep, 5 balancing,
6 protection, 7 estimation, 8 impedance, 9 converter, 10 dispatch, 11 thermal, 14 program, 16 bus, 18 network, 19 I/O,
20 recorder, 22 power and health. -/
def parRegs (n : Nat) : List Nat :=
  match n with
  | 1 => [11]
  | 2 => [3]
  | 3 => [6, 7]
  | 4 => [8, 9]
  | 5 => [12]
  | 6 => [10]
  | 7 => [13]
  | 8 => [14]
  | 9 => [15, 16, 17]
  | 10 => [18]
  | 11 => [15, 19]
  | 14 => [21]
  | 16 => [23, 24, 25]
  | 18 => [26]
  | 19 => [20]
  | 20 => [28]
  | 22 => [1, 2]
  | _ => []

/-- The blocks from which firmware builds the timetable (R58): they may give entries, as words of bank 0. -/
def parTt (n : Nat) : Bool := [4, 5, 8, 10, 14, 20].contains n

/-- Field `k` belongs to block `n`. -/
def parField (n k : Nat) : Bool := if 0x2000 ≤ k then n = 7 else k / 256 = n

/-- The address `a` belongs to block `n`; SYS, TT_CTL and the like belong to none. -/
def parAddr (n a : Nat) : Bool :=
  isPeriph a && a % 4 = 0 && ((parRegs n).contains (blockOf a) || (parTt n && isTtEntry a))

/-- The block has a number that the module knows and holds only what belongs to it. -/
def parShape (n : Nat) (b : ParamBlock) : Bool :=
  !(parRegs n).isEmpty && b.fields.all (fun e => parField n e.1) && b.images.all (fun e => parAddr n e.1.toNat)
    && (b.tables.isEmpty || n = 7) && b.tables.all (fun t => t.1 < 4) && (b.steps.isEmpty || n = 10) && b.steps.length ≤ 64
    && b.steps.all (fun s => s.length = 20)

/-- Field `k` as the block gives it. -/
def blkField (b : ParamBlock) (k : Nat) : Nat :=
  match b.fields.find? (fun e => e.1 == k) with
  | some e => e.2
  | none => parDefault k

/-- A register as it stands once the block's values are in force. -/
def Dev.blkW (d : Dev) (b : ParamBlock) (a : Nat) : Word :=
  match b.images.find? (fun e => e.1.toNat == a) with
  | some e => e.2
  | none => d.rd a

/-- The registers with a block's values, for its check alone. -/
def Dev.blkTry (d : Dev) (b : ParamBlock) : Dev := b.images.foldl (fun (d : Dev) e => d.wr e.1.toNat e.2) d

/-! ### Checks -/

/-- Numbers that rise strictly. -/
def rising : List Int → Bool
  | [] => true
  | x :: t => (match t with | y :: _ => decide (x < y) | [] => true) && rising t

/-- An OCV table of the estimation block: CRC and strictly increasing values (R186, R188). -/
def ocvOk (t : List Byte) : Bool :=
  let np := leNat (slice t 0 1)
  let nt := leNat (slice t 1 1)
  let temp := (List.range nt).map (fun k => sx 16 (leNat (slice t (4 + 2 * k) 2)))
  let brk := (List.range np).map (fun p => sx 32 (leNat (slice t (0x20 + 4 * p) 4)))
  let col (k : Nat) : List Int := (List.range np).map (fun p => sx 24 (leNat (slice t (0x120 + 4 * (8 * p + k)) 4)))
  t.length = 0x924 && np ≤ 64 && nt ≤ 8 && leWord t 0x920 = crc32c (t.take 0x920) && rising temp && rising brk
    && (List.range nt).all (fun k => rising (col k))

/-- A table is present. -/
def ocvHere (t : List Byte) : Bool := leNat (slice t 0 1) != 0 && leNat (slice t 1 1) != 0

/-- The check of R188. -/
def estBlockOk (b : ParamBlock) : Bool :=
  let f := blkField b
  let here (k : Nat) : Bool := b.tables.any (fun t => t.1 = k && ocvHere t.2)
  f Par.QNOM != 0 && f Par.VEOD != 0 && f Par.VEOC != 0 && f Par.VEOD < f Par.VEOC && f Par.ETACH ≤ 65536
    && b.tables.all (fun t => !ocvHere t.2 || ocvOk t.2)
    && ((here 2 && here 3) || b.fields.all (fun e => e.1 < 0x2000 || 0x3000 ≤ e.1 || e.2 = 0))

/-- Word 1 of entry `i` of the timetable that firmware builds with the block: of the entries in force while no block gives
any. -/
def Dev.blkTtWord (d : Dev) (b : ParamBlock) (i : Nat) : Word :=
  let a := Reg.TT_ENT 0 i 1
  if b.images.any (fun e => isTtEntry e.1.toNat) || d.managed.any (fun m => isTtEntry m.1) then
    match b.images.find? (fun e => e.1.toNat == a) with
    | some e => e.2
    | none => (getO d.managed a).getD 0
  else d.rd (Reg.TT_ENT (b2n (d.bit Reg.TT_STAT 7)) i 1)

/-- The strobes of a grid cycle in that timetable, as a fraction: an entry fires once in DIV cycles (R228). -/
def Dev.blkStrobes (d : Dev) (b : ParamBlock) : Nat × Nat :=
  (List.range 256).foldl (fun (q : Nat × Nat) i =>
    let w := d.blkTtWord b i
    let v := fieldOf w 15 8
    if (ttCode w = 1 || ttCode w = 2) && v != 0 then
      let m := Nat.lcm q.2 v
      (q.1 * (m / q.2) + m / v, m)
    else q) (0, 1)

/-- The ticks of a grid cycle at nominal frequency. -/
def Dev.gridTicks (d : Dev) : Nat := ceilDiv (2 ^ 48) d.angNom

/-- The check of R102: for every enabled descriptor the sum of Table 4.2 with the configured string's figures stays
within 95 % of the sweep period; its temperature line is the descriptor's whole TBUDGET (DESIGN CHOICE: log entry 180). -/
def Dev.sweepBlockOk (d : Dev) (b : ParamBlock) : Bool :=
  let x := d.blkTry b
  let (n, m) := d.blkStrobes b
  (List.range 8).all (fun k =>
    !x.bit (Reg.SWP_DESC k 0) 0
      || 100 * n * (x.launchT k + usT (x.dlMargin k + x.tBudget k) + x.frameT k + x.tRing + usT 8 + 700) ≤ 95 * d.gridTicks * m)

/-- The check of R167. -/
def Dev.contBlockOk (d : Dev) (b : ParamBlock) : Bool :=
  let t := d.blkW b Reg.SCC_TIME
  fieldOf t 15 8 != 0 && fieldOf t 23 16 != 0 && fieldOf t 7 0 != 0

/-- The inference table of R230, as the block gives it. -/
def inferOk (b : ParamBlock) : Bool :=
  let n := blkField b Par.NPT
  n != 1 && n ≤ 16 && (List.range 4).all (fun c => rising ((List.range n).map (fun p => sx 16 (blkField b (Par.INFER c p) / 65536))))

/-- The check of R228 for bin `k` with `n / m` sweeps in a grid cycle: frequency, Nyquist, window, the flat part of its
injection, and the harmonics of a PRBS. -/
def Dev.binOk (x : Dev) (k n m : Nat) : Bool :=
  let mul := x.binMul k
  let dv := x.binDiv k
  let len := x.binLen k
  let i := x.fld (Reg.IMP_BIN k 0) 26 24
  let w := x.fld (Reg.IMP_INJ i 0) 27 26
  !x.bit (Reg.IMP_BIN k 0) 31 || mul = 0 || dv = 0
    || (2 ^ 48 * dv ≤ x.angNom * 125000000 * 20 * mul && 2 * mul * m ≤ n * dv && (len * n * dv) % (m * mul) = 0
      && len * n * dv / (m * mul) ≤ 2 ^ 22
      && (x.fld (Reg.IMP_BIN k 0) 30 29 != 1
        || (len * dv * x.injMul i ≤ x.fld (Reg.IMP_INJ i 1) 15 0 * waveLen w * x.injDiv i * mul
          && (waveLen w = 1 || x.injMul i = 0 || (mul * x.injDiv i * waveLen w) % (dv * x.injMul i) = 0))))

/-- The check of R228. -/
def Dev.impBlockOk (d : Dev) (b : ParamBlock) : Bool :=
  let x := d.blkTry b
  let (n, m) := d.blkStrobes b
  (List.range 16).all (fun k => x.binOk k n m)
    && (List.range 8).all (fun i => x.fld (Reg.IMP_INJ i 2) 23 0 ≤ x.fld Reg.IMP_INJMAX 23 0)
    && inferOk b

/-- The time between the trigger events of slot `s`, in units of 156.25 ps, with each setting as its register stores it; none
without a rate of its own. -/
def Dev.trigUnits (x : Dev) (s : Nat) : Option Nat :=
  let t := x.slotF s 0 22 20
  let i := x.slotF s 0 19 16
  let stored (lo hi n : Nat) : Nat := if n = 0 then 0 else min hi (max lo n)
  if t = 1 || t = 2 then (if i < 4 then some (stored 32000 640000 (x.fld (Reg.PWM_PER i) 19 0)) else none)
  else if t = 3 then
    (if i < 6 && x.fld Reg.SDM_CKDIV 5 0 != 0 then
      some (128 * stored 16 256 (x.fld (Reg.SDM_CFG i) 24 16) * stored 20 50 (x.fld Reg.SDM_CKDIV 5 0) / 10)
    else none)
  else if t = 5 then some (6400 * x.slotF s 9 23 0)
  else none

/-- The time between the evaluations of slot `s`, in the same units: DIV triggers, which for TRIG 4 are the evaluations of
the slot that it names. -/
def Dev.evalUnits (x : Dev) : Nat → Nat → Option Nat
  | 0, _ => none
  | fuel + 1, s =>
    if x.slotF s 0 15 8 = 0 then none
    else
      let i := x.slotF s 0 19 16
      let u := if x.slotF s 0 22 20 = 4 then (if i < 8 then Dev.evalUnits x fuel i else none) else x.trigUnits s
      u.map (fun n => n * x.slotF s 0 15 8)

/-- The check of R260: every slot, enabled or not, and the debounce of SDM_CFG, which its four bits hold to 15. -/
def Dev.convBlockOk (d : Dev) (b : ParamBlock) : Bool :=
  let x := d.blkTry b
  (List.range 8).all (fun s =>
    (match x.evalUnits 8 s with
      | some u => u = 0 || 32000 ≤ u
      | none => true)
    && (x.slotF s 1 21 20 != 1 || x.fld (Reg.PWM_PER (x.slotF s 1 19 18)) 19 0 != 0)
    && (!bitOf (x.slotW s 0) 28 || (x.slotF s 1 26 25 = 0 && x.slotF s 1 24 22 < 6)))

/-- The destination of a slot, when it drives an axis or an output. -/
def Dev.slotDrives (x : Dev) (s : Nat) : Option (Nat × Nat) :=
  let t := x.slotF s 1 21 20
  if x.slotEn s && 2 ≤ t then some (t, x.slotF s 1 19 18) else none

/-- The check of R297. -/
def Dev.thermBlockOk (d : Dev) (b : ParamBlock) : Bool :=
  let x := d.blkTry b
  let given (a : Nat) : Bool := b.images.any (fun e => e.1.toNat = a)
  let dst := (List.range 8).filterMap (fun s => x.slotDrives s)
  (List.range 4).all (fun a =>
      !(given (Reg.MOT_VLIMLO a) || given (Reg.MOT_VLIMHI a)) || x.rdI (Reg.MOT_VLIMLO a) < x.rdI (Reg.MOT_VLIMHI a))
    && (List.range 4).all (fun n => !x.bit (Reg.MOT_TFDCFG n) 31 || isTemp (x.fld (Reg.MOT_TFDCFG n) 10 0))
    && dst.all (fun e => (dst.filter (fun g => g == e)).length = 1)

/-- The check of R276: every step but END and LOOP has an end condition. -/
def stepsOk (b : ParamBlock) : Bool :=
  b.steps.all (fun s => let t := leNat (s.take 1); t = 0 || t = 4 || leNat (slice s 1 1) % 32 != 0)

/-- The owning chapter's check, and the entry that a rejection makes. -/
def Dev.blkCheck (d : Dev) (n : Nat) (b : ParamBlock) : Bool × Option Nat :=
  match n with
  | 1 => (d.contBlockOk b, none)
  | 4 => (d.sweepBlockOk b, some 0x1057)
  | 7 => (estBlockOk b, some 0x3052)
  | 8 => (d.impBlockOk b, some 0x4050)
  | 9 => (d.convBlockOk b, some 0x5050)
  | 10 => (stepsOk b, none)
  | 11 => (d.thermBlockOk b, some 0x7050)
  | _ => (true, none)

/-! ### What firmware writes -/

/-- A value that a block gives is written, unless the register's block is claimed or SCC is locked; base limits are
noted (R18, R164, R177). -/
def Dev.blkApply (d : Dev) (a : Nat) (v : Word) : Dev :=
  let d :=
    if Reg.LIM_ENT 0 0 ≤ a && a < Reg.LIM_ENT 2048 0 then
      { d with est := { d.est with limBase := putO d.est.limBase ((a - Reg.LIM_ENT 0 0) / 4) (some v) } }
    else d
  if isTtEntry a || !d.manages (blockOf a) || (blockOf a = 11 && d.bit Reg.SCC_CTL 1) then d else d.regWrite .system a v

/-- The current correction of a bin that the impedance block gives: derived from the sinc3 gain at its frequency, for which
the spec states no formula (R234; free value: log entry 196). -/
def Dev.ccorWrite (d : Dev) (k : Nat) : Dev :=
  if (getO d.managed (Reg.IMP_BIN k 0)).isSome && d.manages 14 then
    let n := d.fld Reg.EST_ICFG 2 0
    let v := Config.ccor (d.angNom * d.binMul k) (d.binDiv k) (d.fld (Reg.SDM_CFG n) 24 16) (d.fld Reg.SDM_CKDIV 5 0)
    d.regWrite .system (Reg.IMP_BIN k 2) v
  else d

/-- SCALE of a slot that a block gives is its feedback channel's GAIN; the write of word 7 after it commits what is staged
(R252, R260). -/
def Dev.scaleWrite (d : Dev) (s : Nat) : Dev :=
  if (List.range 11).any (fun w => (getO d.managed (Reg.CE_SLOT s w)).isSome) && d.manages 15 then
    let i := d.slotF s 1 24 22
    let given (w : Nat) : Word := (getO d.managed (Reg.CE_SLOT s w)).getD (d.slotW s w)
    let v := if d.slotF s 1 26 25 = 0 && i < 6 then d.rd (Reg.SDM_GAIN i) else given 8
    (d.regWrite .system (Reg.CE_SLOT s 8) v).regWrite .system (Reg.CE_SLOT s 7) (given 7)
  else d

/-- What firmware derives from the values of the blocks (R234, R260). -/
def Dev.blkDerive (d : Dev) : Dev :=
  let d := (List.range 16).foldl (fun (d : Dev) k => d.ccorWrite k) d
  (List.range 8).foldl (fun (d : Dev) s => d.scaleWrite s) d

/-- Every value of the parameter blocks in force, in ascending address, what is derived from them, and the timetable. -/
def Dev.blkAll (d : Dev) : Dev :=
  (d.managed.foldl (fun (d : Dev) m => match m.2 with | some v => d.blkApply m.1 v | none => d) d).blkDerive.ttBuild

/-! ### The shadow (R49, R109, R163) -/

/-- Writes beside the loader's data, in order: one request to the controller each, all or, where it takes no more, none; they also
reach the shade (R163, R402; DESIGN CHOICE: log entry 185). -/
def Dev.shadowWrites (d : Dev) (l : List (Nat × List Byte)) : Dev :=
  if d.nvcOpen && d.nvc.queue.length + l.length ≤ 16 then
    l.foldl (fun (d : Dev) e => (d.nvcCopy .copy e.1 e.2).mirrorParts 2 e.1 32 e.2) d
  else
    match l with
    | e :: _ => d.nvcDone { kind := 1, src := 0, dst := e.1, len := e.2.length, tag := 0, who := .copy, pos := 0, data := e.2 } (if d.nvcOpen then 3 else 1)
    | [] => d

/-- A locked register as the block in force gives it. -/
def Dev.managedW (d : Dev) (a : Nat) : Word := (getO d.managed a).getD (d.rd a)

/-- The shadow: the table, its CRC, then the older header copy with its sequence incremented. -/
def Dev.shadowSave (d : Dev) : Dev :=
  let table := (List.range 8192).flatMap (fun j => leBytes 4 ((getO d.est.limBase j).getD (d.rd (Reg.LIM_ENT 0 0 + 4 * j))).toNat)
  let (old, k) : Option Nat × Nat := match d.hdrPick with | some h => (some h, 1 - h) | none => (none, 0)
  let seq := match old with | some h => (d.word (shadowHdr h)).toNat + 1 | none => 1
  let fall := match old with | some h => d.bytes (shadowHdr h + 164) 48 | none => List.replicate 48 0
  let head := fitBytes 1020 (leBytes 4 seq
    ++ wordsBytes ((List.range 6).map (fun i => d.managedW (Reg.LIM_ENVV_HI + 4 * i)))
    ++ wordsBytes [d.managedW Reg.LIM_STALE, d.managedW Reg.LIM_SWDTO]
    ++ wordsBytes ((List.range 32).map (fun i => d.managedW (Reg.LIM_TRIPMAP i))) ++ fall)
  d.shadowWrites [(0x20701000, table), (0x20709000, leBytes 4 (crc32c table).toNat), (shadowHdr k, head ++ leBytes 4 (crc32c head).toNat)]

/-- The channel map's copy beside the shadow, rewritten with its CRC-32C as one NVC request, unless the program claims
CHM; it also reaches the shade (R109, R402). -/
def Dev.mapSave (d : Dev) : Dev :=
  if !d.manages 9 then d
  else
    let l := wordsBytes ((List.range 2048).map (fun i => d.rd (Reg.CHM_ENT i)))
    let l := l ++ leBytes 4 (crc32c l).toNat
    (d.nvcCopy .copy 0x2070A000 l).mirrorParts 2 0x2070A000 32 l

/-- The nominal-frequency setting beside the shadow. -/
def Dev.nominalSave (d : Dev) : Dev :=
  d.shadowWrites [(0x2070C100, leBytes 4 (d.rd Reg.ANG_NOMINC_LO).toNat ++ leBytes 4 (d.rd Reg.ANG_NOMINC_HI).toNat)]

/-! ### Mirror section 0x01 -/

/-- One item of a block: a tag, a number, a length and its bytes. -/
def blkItem (tag key : Nat) (l : List Byte) : List Byte := leBytes 1 tag ++ leBytes 4 key ++ leBytes 4 l.length ++ l

/-- A block as section 0x01 carries it. -/
def blkBytes (b : ParamBlock) : List Byte :=
  b.fields.flatMap (fun e => blkItem 1 e.1 (leBytes 4 e.2)) ++ b.tables.flatMap (fun t => blkItem 2 t.1 t.2)
    ++ b.images.flatMap (fun e => blkItem 3 e.1.toNat (leBytes 4 e.2.toNat)) ++ b.steps.flatMap (fun s => blkItem 4 0 s)
    ++ blkItem 5 0 (leBytes 4 (b.gcv % 2 ^ 32).toNat)

/-- The items of a block. -/
def blkItems : Nat → List Byte → List (Nat × Nat × List Byte)
  | 0, _ => []
  | fuel + 1, l =>
    if l.length < 9 then []
    else
      let n := leNat (slice l 5 4)
      (leNat (l.take 1), leNat (slice l 1 4), slice l 9 n) :: blkItems fuel (l.drop (9 + n))

/-- A block from the bytes of section 0x01. -/
def blkParse (l : List Byte) : ParamBlock :=
  let items := blkItems l.length l
  let pick (t : Nat) : List (Nat × List Byte) := items.filterMap (fun e => if e.1 = t then some e.2 else none)
  { fields := (pick 1).map (fun e => (e.1, leNat e.2)), tables := pick 2, images := (pick 3).map (fun e => (nw e.1, nw (leNat e.2))),
    steps := (pick 4).map (fun e => e.2), gcv := ((pick 5).map (fun e => sx 32 (leNat e.2))).foldl (fun _ x => x) 0 }

/-! ### Acceptance (R18, R177) -/

/-- A step of the profile from its 20 bytes (R276). -/
def stepParse (l : List Byte) : ProfStep where
  type := leNat (l.take 1)
  ends := leNat (slice l 1 1) % 32
  target := leNat (slice l 2 1)
  repeats := leNat (slice l 3 1)
  current := sx 32 (leNat (slice l 4 4))
  vset := sx 32 (leNat (slice l 8 4))
  tlim := leNat (slice l 12 4)
  iterm := leNat (slice l 16 4)

/-- A block's register values are noted. -/
def Dev.blkImages (d : Dev) (b : ParamBlock) : Dev :=
  { d with managed := b.images.foldl (fun l e => putO l e.1.toNat (some e.2)) d.managed }

/-- The block takes effect: its fields replace the block's old ones, its register values and tables are noted. -/
def Dev.blkStore (d : Dev) (n : Nat) (b : ParamBlock) : Dev :=
  let par := b.fields.foldl (fun l e => Store.put parDefault l e.1 e.2) (d.par.filter (fun e => !parField n e.1))
  let d := d.blkImages b
  let tables := if n = 7 then b.tables.foldl (fun l t => putO l t.1 (some t.2)) [] else d.tables
  let dsp := if n = 10 then { d.dsp with steps := b.steps.map stepParse, gcv := b.gcv } else d.dsp
  { d with par := par, tables := tables, dsp := dsp,
           svc := { d.svc with held := putO d.svc.held n none } }

/-- A block accepted while its peripheral block is not managed: the register values wait for the register's block, the rest
for the release (R18). -/
def Dev.blkHold (d : Dev) (n : Nat) (b : ParamBlock) : Dev :=
  ({ d with svc := { d.svc with held := putO d.svc.held n (some { b with images := [] }) } }).blkImages b

/-- An accepted block is stored and, by firmware in full service, put in force where it may be; it reaches the shade. -/
def Dev.blkTake (d : Dev) (n : Nat) (b : ParamBlock) : Dev :=
  let d := if (parRegs n).all (fun r => d.manages r) then d.blkStore n b else d.blkHold n b
  let d :=
    if d.pwr.full then
      let d := b.images.foldl (fun (d : Dev) e => d.blkApply e.1.toNat e.2) d
      let d := if n = 8 || n = 9 || n = 11 then d.blkDerive else d
      if parTt n then d.ttBuild else d
    else d
  let d := if n = 6 then d.shadowSave else if n = 4 && d.pwr.full then d.mapSave else if n = 2 then d.nominalSave else d
  let d := if n = 1 && d.bit Reg.SCC_CTL 1 then d.hw 0x2213 [] else d
  d.mirrorParts 1 n 1024 (blkBytes b)

/-- PARAMWRITE's check and acceptance: its status, 0 or BADARG. -/
def Dev.blkWrite (d : Dev) (n : Nat) (b : ParamBlock) : Nat × Dev :=
  if parShape n b = false then (4, d)
  else
    match d.blkCheck n b with
    | (true, _) => (0, d.blkTake n b)
    | (false, some c) => (4, d.fw c [])
    | (false, none) => (4, d)

end Sys2Proof.Machine
end

