-- ==== Sys2Proof/Machine/Cycle.lean ====
section
/-! DEFINITION. Program-cycle starts, with the blocks that firmware resumes at them, and what the timetable's entries bring
about when they fire (R20, R51 to R57, R353, R354, R369). -/

namespace Sys2Proof.Machine

/-! ### Resuming blocks (R18, R20) -/

/-- The parameter blocks that were accepted while their peripheral block was not managed, and whose peripheral blocks
firmware manages now, take effect (R18). -/
def Dev.heldTake (d : Dev) : Dev :=
  d.svc.held.foldl (fun (d : Dev) h =>
    match h.2 with
    | some b => if (parRegs h.1).all (fun r => d.manages r) then d.blkStore h.1 b else d
    | none => d) d

/-- Firmware resumes the blocks that were released: held parameter blocks take effect, every register that the parameter
blocks give is written with what its write brings about, the timetable is built and swapped, and the estimator takes its
values back (R18, R20, R203). -/
def Dev.resumeBlocks (d : Dev) : Dev :=
  let l := d.svc.resume
  let d := ({ d with svc := { d.svc with resume := [] } }).heldTake
  let d := d.managed.foldl (fun (d : Dev) m =>
    match m.2 with
    | some v => if l.contains (blockOf m.1) then d.blkApply m.1 v else d
    | none => d) d
  let d := if l.contains 14 || l.contains 15 then d.blkDerive else d
  let d := if l.contains (blockOf Reg.TT_CTL) then d.ttBuild else d
  let d := if l.contains 9 then d.mapSave else d
  let d := if l.contains (blockOf Reg.BAL_CTL) then d.balCtl .system (d.rd Reg.BAL_CTL) else d
  if l.contains (blockOf Reg.EST_CTL) then d.estResume else d

/-! ### Cycle starts (R353, R354, R369) -/

/-- An accepted start freezes the values, the count of missed starts among them, and begins the copy phase; the latch's edges clear (R354, R477). -/
def Dev.cycleAccept (d : Dev) : Dev :=
  let d := { d with cyc := { d.cyc with frozen := d.freezeNow, forces := d.activeForces, missedNow := 0 } }
  let d := ((d.wr (Reg.FIO_LATCH 1) 0).wr (Reg.FIO_LATCH 2) 0).cycleCount.resumeBlocks
  ({ d with cyc := { d.cyc with phase := .copy } }).start Tm.copy

/-- A program-cycle start that the timetable or the time base fires (R353, R356, R369, R378, R396, R400). -/
def Dev.cycleStart (d : Dev) : Dev :=
  if d.cycState = 4 then d.satInc Reg.CYC_OCSKIP 15 0
  else if d.cycState != 2 then d
  else if d.cycBusy then d.cycleMissed
  else if d.inStep then (if d.running Tm.noImg then d else d.start Tm.noImg)
  else if d.leads then d.cycleAccept
  else d

/-- SRC 1: the time base has reached a multiple of CYC_PERIOD in this tick (R353). -/
def Dev.periodStart (d : Dev) : Dev :=
  let n := d.fld Reg.CYC_PERIOD 19 0
  let us := 1000 * 2 ^ 24
  let fresh := decide (d.tim.tbFrac < d.timEff)
  if d.bit Reg.CYC_CTL 3 && n != 0 && d.tim.tb % n = 0 && fresh && us != 0 then d.cycleStart else d

/-! ### Actions (R53, R54, R57) -/

/-- A strobe action, with `j` of its code ahead of it in the tick; the local profile has a slot-0
application at every strobe (R276). -/
def Dev.strobeFire (d : Dev) (desc : Nat) (temp : Bool) (j : Nat) : Dev :=
  let d := d.strobeAction desc temp j
  if d.bit Reg.DSP_CTL 2 && d.dspBasic then d.mbApply 0 else d

/-- One action; `j` with its code are ahead of it in the tick (R54). -/
def Dev.ttAction (d : Dev) (code arg j : Nat) : Dev :=
  match code with
  | 1 => d.strobeFire arg false j
  | 2 => d.strobeFire arg true j
  | 3 => if d.bit Reg.CYC_CTL 3 then d else d.cycleStart
  | 4 => d.mbApply arg
  | 5 => d.injStart arg
  | 6 => d.snapshot arg
  | 11 => d.setEvent (if arg < 128 then .system else .program) (arg % 16)
  | _ => d

/-- The window bits after the entries of a tick: the entry of highest index decides; opening an open window has no further
effect (R54, R57). -/
def Dev.ttWindows (d : Dev) (l : List (Nat × Nat × Nat)) : Dev :=
  l.foldl (fun (d : Dev) e =>
    match e.2.1 with
    | 7 => d.setBit Reg.TT_STAT 4 true
    | 8 => d.setBit Reg.TT_STAT 4 false
    | 9 => if d.bit Reg.TT_STAT 5 then d else ((d.setBit Reg.TT_STAT 5 true).start Tm.window).stop Tm.sliced
    | 10 => d.setBit Reg.TT_STAT 5 false
    | _ => d) d

/-- TT_LAST names the last fired entry (R59): of several that fire in one tick the one of highest index, also when it was
merged into an earlier one (DESIGN CHOICE: log entry 174). -/
def Dev.ttLast (d : Dev) (l : List (Nat × Nat × Nat)) : Dev :=
  match l.getLast? with
  | some e => d.wr Reg.TT_LAST (nw (e.2.1 * 2 ^ 24 + b2n (d.bit Reg.TT_STAT 7) * 256 + e.1))
  | none => d

/-- The matches of this tick are issued once: a program-cycle start before a strobe, so that it freezes the
latest completed sweep, then the other codes in ascending order (R52, R54); an idle window that opened has firmware begin
its work. -/
def Dev.ttMatch (d : Dev) : Dev :=
  if d.tt.done || d.bit Reg.TT_CTL 0 = false then d
  else
    let l := d.ttFiring
    let d := { d with tt := { d.tt with done := true } }
    let m := ttMerge l []
    let d := if m.length < l.length then d.flag Reg.TT_STAT 2 else d
    let idle := d.bit Reg.TT_STAT 5
    let d := (d.ttLast l).ttWindows l
    let order := [3, 1, 2, 4, 5, 6, 11]
    let d := order.foldl (fun (d : Dev) c =>
      ((m.filter (fun e => e.1 == c)).zipIdx).foldl (fun (d : Dev) e => d.ttAction e.1.1 e.1.2 e.2) d) d
    if !idle && d.bit Reg.TT_STAT 5 then d.idleBegin else d

/-! ### Commands -/

/-- The time base reaches a multiple of CYC_PERIOD. -/
def execCyclePeriodStart (s : State) : Host.Outcome State Fault Refusal := s.lift (fun d => d.periodStart)

/-- The angle word has crossed entries' angles. -/
def execTimetableMatch (s : State) : Host.Outcome State Fault Refusal := s.lift (fun d => d.ttMatch)

end Sys2Proof.Machine
end

