-- ==== Sys2Proof/Machine/Shade.lean ====
section
/-! DEFINITION. The twin link and a pair: heartbeats, latency, cues, frames between duty and shade, start-up, takeover,
KILL_IN, and resynchronisation (R382 to R412). -/

namespace Sys2Proof.Machine

/-! ### The link (R384 to R386) -/

/-- The twin link is up. -/
def Dev.twLink (d : Dev) : Bool := d.bit Reg.TW_STAT 5

/-- The module sends on the twin link: of a pair, link up, not deposed and not in recovery (R395, R516). -/
def Dev.twSends (d : Dev) : Bool := d.role != 0 && d.twLink && !d.txHeld && !d.tw.txOff

/-- PING leaves (listed as kind 0x200, PONG as 0x201). -/
def Dev.pingSend (d : Dev) : Dev := if d.twSends then (d.send .twin 0x200 []).start Tm.ping else d

/-- The twin receiver declares the link up. -/
def Dev.twLinkUp (d : Dev) : Dev :=
  if d.role = 0 || d.twLink then d else ((d.setBit Reg.TW_STAT 5 true).hw 0x9001 []).pingSend

/-- The twin receiver declares loss of signal; a resynchronisation under way is at an end. -/
def Dev.twLos (d : Dev) : Dev :=
  if d.twLink then
    let d := (d.setBit Reg.TW_STAT 5 false).hw 0x9002 []
    ({ d with tw := { d.tw with rsPhase := 0, dirty := [] } }).setFld Reg.TW_RSSTAT 31 30 0
  else d

/-- A PONG whose round trip took `rtt` ns. -/
def Dev.pong (d : Dev) (rtt : Nat) : Dev :=
  if d.role = 0 then d
  else
    let lat := (rtt - 40) / 2
    d.wr Reg.TW_LAT (nw (ceilDiv (lat + 16) 8 % 65536 * 65536 + lat % 65536))

/-- A frame of the twin link is discarded (R388). -/
def Dev.twBad (d : Dev) : Dev := d.flag Reg.TW_STAT 19

/-! ### Heartbeats (R390, R391) -/

/-- The payload of Table 15.4. -/
def Dev.hbBytes (d : Dev) : List Byte :=
  let b4 := d.role + 4 * d.smode + 16 * b2n (d.bit Reg.TW_CFG 1) + 32 * b2n (d.bit Reg.TW_STAT 4) + 64 * b2n d.tw.failed
  let b5 := d.fld Reg.PWR_STAT 4 3 + 4 * b2n (d.ringState = 4) + 8 * b2n (d.cycState = 2) + 16 * b2n (d.bit Reg.TIM_STAT 0)
  let image := match d.cyc.image with | some p => p.imageId | none => 0
  leBytes 4 (d.rd Reg.TW_EPOCH).toNat ++ leBytes 1 b4 ++ leBytes 1 b5 ++ leBytes 2 d.tw.hbCount
    ++ leBytes 4 (d.rd Reg.SYS_COMPAT).toNat ++ leBytes 4 image ++ leBytes 4 (d.rd Reg.CYC_NUM).toNat ++ leBytes 4 d.ang.angle
    ++ leBytes 6 d.angInc ++ leBytes 2 0 ++ leBytes 4 d.tim.ns ++ leBytes 4 d.tim.sec

/-- A heartbeat leaves every 100 µs. -/
def Dev.hbSend (d : Dev) : Dev :=
  if d.twSends && (!d.running Tm.hb || d.due Tm.hb (usT 100)) then
    let d := { d with tw := { d.tw with hbCount := (d.tw.hbCount + 1) % 65536 } }
    (d.send .twin 0x01 (byteNats d.hbBytes)).start Tm.hb
  else d

/-- A heartbeat has not come within 110 µs of the previous expected arrival; three in a row lose the partner. -/
def Dev.hbMiss (d : Dev) : Dev :=
  match d.tw.expect with
  | none => d
  | some t =>
    if d.role = 0 || decide (d.now < t + usT 10) then d
    else
      let d := (d.satInc Reg.TW_HBCNT 23 0).satInc Reg.TW_HBCNT 31 24
      let d := { d with tw := { d.tw with expect := some (t + usT 100) } }
      if 3 ≤ d.fld Reg.TW_HBCNT 31 24 && d.bit Reg.TW_STAT 6 then
        ((d.setBit Reg.TW_STAT 6 false).flag Reg.TW_STAT 18).hw 0x9003 []
      else d

/-! ### What a shade takes from a duty's heartbeat (R401) -/

/-- TW_LAT.LAT as an angle at increment `inc`. -/
def Dev.latAngle (d : Dev) (inc : Nat) : Nat := d.fld Reg.TW_LAT 15 0 * inc / (8 * 65536)

/-- The shade's angle clock and local clock follow the duty's. -/
def Dev.hbFollow (d : Dev) (h : Heart) : Dev :=
  let d := (d.wr Reg.ANG_NOMINC_LO (nw h.inc)).wr Reg.ANG_NOMINC_HI (nw (h.inc / 2 ^ 32))
  let e : Int := sx 32 (h.angle + d.latAngle h.inc + 2 ^ 32 - d.ang.angle)
  let d := d.pllUpdate e
  let own : Int := ((d.tim.sec % 2 ^ 32 * 1000000000 + d.tim.ns : Nat) : Int)
  let duty : Int := ((h.sec * 1000000000 + h.ns + d.fld Reg.TW_LAT 15 0 : Nat) : Int)
  d.servoTim (own - duty) (h.flags.testBit 4)

/-! ### Resynchronisation: the target mode (R412) -/

/-- The target mode between this module and one with the given SYS_COMPAT and IMAGEID: 1 INSTEP, 2 MIRROR, 3 STANDBY;
and how many of its conditions fail. -/
def Dev.rsTarget (d : Dev) (compat image : Nat) : Nat × Nat :=
  let own := (d.rd Reg.SYS_COMPAT).toNat
  let lvl := own % 65536
  let (id, step) : Nat × Nat := match d.cyc.image with | some p => (p.imageId, p.instep) | none => (0, 0)
  let bad : List Bool := [own / 65536 != compat / 65536, lvl != compat % 65536 || lvl = 0, id != image,
    step = 0 || decide (lvl < step)]
  let n := (bad.filter (fun b => b)).length
  (if own / 65536 != compat / 65536 then 3 else if n = 0 then 1 else 2, n)

/-- Each mismatch makes entry 0x9040. -/
def Dev.rsMismatch (d : Dev) (n : Nat) : Dev :=
  if n = 0 then d
  else (List.range n).foldl (fun (d : Dev) _ => d.hw 0x9040 []) (d.flag Reg.TW_STAT 21)

/-! ### Resynchronisation: the duty sends (R410, R411) -/

/-- `n` bytes of state have been sent to the joining module; TW_RSSTAT.SENT counts them in KiB. -/
def Dev.rsSent (d : Dev) (n : Nat) : Dev :=
  let k := d.tw.rsBytes + n
  ({ d with tw := { d.tw with rsBytes := k } }).setFld Reg.TW_RSSTAT 15 0 (satN 65535 (k / 1024))

/-- A MIRROR section to a joining module, in frames of at most 4,096 bytes. -/
def Dev.joinSection (d : Dev) (sec off : Nat) : Nat → List Byte → Dev
  | 0, _ => d
  | fuel + 1, l =>
    if l.isEmpty then d
    else
      let d := (d.send .twin 0x06 (byteNats (leBytes 4 sec ++ leBytes 4 off ++ l.take 4096))).rsSent (min 4096 l.length)
      Dev.joinSection d sec (off + 4096) fuel (l.drop 4096)

/-- A RESYNC frame of kind 1 with the memory at an address. -/
def Dev.joinMemory (d : Dev) (a n : Nat) : Dev :=
  (d.send .twin 0x0B (byteNats (leBytes 4 1 ++ leBytes 4 a ++ d.bytes a n))).rsSent n

/-- A cue to a joining module. -/
def Dev.joinCue (d : Dev) (kind : Nat) : Dev := d.send .twin (0x100 + kind) (cueSymbols kind 0)

/-- The register values that are stored for parameter block `n`. -/
def Dev.blkRegs (d : Dev) (n : Nat) : List (Word × Word) :=
  d.managed.filterMap (fun m => match m.2 with | some v => if parAddr n m.1 then some (nw m.1, v) else none | none => none)

/-- The parameter block with number `n` as it is in force. -/
def Dev.blkForce (d : Dev) (n : Nat) : ParamBlock :=
  { fields := d.par.filter (fun e => parField n e.1)
    tables := if n = 7 then d.tables.filterMap (fun t => t.2.map (fun l => (t.1, l))) else []
    images := d.blkRegs n
    steps := if n = 10 then d.dsp.steps.map (fun s => leBytes 1 s.type ++ leBytes 1 s.ends ++ leBytes 1 s.target ++ leBytes 1 s.repeats
      ++ leInt 4 s.current ++ leInt 4 s.vset ++ leBytes 4 s.tlim ++ leBytes 4 s.iterm) else []
    gcv := if n = 10 then d.dsp.gcv else 0 }

/-- The parameter block with number `n` as it is stored, whether it has taken effect or not (R18). -/
def Dev.blkStored (d : Dev) (n : Nat) : ParamBlock :=
  match getO d.svc.held n with
  | some b => { b with images := d.blkRegs n }
  | none => d.blkForce n

/-- The numbers of the parameter blocks. -/
def blkNumbers : List Nat := [1, 2, 3, 4, 5, 6, 7, 8, 9, 10, 11, 14, 16, 18, 19, 20, 22]

/-- Sections 0x01, 0x02, 0x03 and 0x07. -/
def Dev.joinFirst (d : Dev) : Dev :=
  let d := blkNumbers.foldl (fun (d : Dev) n => d.joinSection 1 n 1024 (blkBytes (d.blkStored n))) d
  let d := d.joinSection 2 0x20700000 16 (d.bytes 0x20700000 0x10000)
  let d :=
    match d.stoPick with
    | some k =>
      let used := (d.stoW k 0xC).toNat
      (d.joinSection 3 (stoBase k + 0x100) 256 (d.bytes (stoBase k + 0x100) (used - 0x100))).joinSection 3 (stoBase k) 1 (d.bytes (stoBase k) 256)
    | none => d
  d.joinSection 7 (if d.bit Reg.TT_STAT 7 then 0x800 else 0) 1 d.ttBytes

/-- Sections 0x04 and 0x05. -/
def Dev.joinEst (d : Dev) : Dev :=
  let cells := d.cellIds
  let imp := cells.flatMap (fun c => wordsBytes ((List.range 4).map (fun w => d.rd (Reg.IMP_CELL c w))))
  (d.joinSection 4 0 64 d.estSection).joinSection 5 0 64 imp

/-- The active program image with its header and trailer, to the Attic of the joining module. -/
def Dev.joinImage (d : Dev) : Dev :=
  let k := recPgAct d.slotRecord
  let n := (d.word (slotHead 2 k + 0x1C)).toNat
  let d := (List.range n).foldl (fun (d : Dev) i => d.joinMemory (slotBase 2 k + 4096 * i) 4096) d
  d.joinMemory (slotHead 2 k) 448

/-- The used data sections. -/
def Dev.joinData (d : Dev) : Dev :=
  match d.cyc.image with
  | none => d
  | some p =>
    let n := p.retLen + p.dataLen + p.zeroLen
    (List.range (ceilDiv n 4096)).foldl (fun (d : Dev) i => d.joinMemory (dataBase + 4096 * i) (min 4096 (n - 4096 * i))) d

/-- The phase of resynchronisation, as TW_RSSTAT shows it. -/
def Dev.rsSet (d : Dev) (n : Nat) : Dev := ({ d with tw := { d.tw with rsPhase := n } }).setFld Reg.TW_RSSTAT 31 30 n

/-- The duty aligns the joining module's converter: cue 0x5 acts on both, cue 0x6 on the joining module, with the values that the
counters of the four pairs will hold in the cue tick in the CMD frame before it (R387, R411; log entry 136). -/
def Dev.joinAlign (d : Dev) : Dev :=
  let d := (d.joinCue 5).sdmSync
  let d := d.send .twin 0x09 ([6, 0, 0, 0] ++ byteNats (leBytes 4 16 ++ (List.range 4).flatMap (fun p => leBytes 4 (d.pairCount p (d.now + d.fld Reg.TW_LAT 31 16)))))
  d.joinCue 6

/-- The duty begins to resynchronise its joining partner. -/
def Dev.rsBegin (d : Dev) (h : Heart) : Dev :=
  let (t, bad) := d.rsTarget h.compat.toNat h.image.toNat
  let d := (d.hw 0x9031 []).rsMismatch bad
  let d := if d.ring.count.isSome then d.send .twin 0x09 [4, 0, 0, 0, 0, 0, 0, 0] else d
  let d := { d with tw := { d.tw with target := t, dirty := [], rsBytes := 0 } }
  let d := ((d.wr Reg.TW_RSSTAT 0).rsSet 1).start Tm.resync
  let id := match d.cyc.image with | some p => p.imageId | none => 0
  if id != 0 && id != h.image.toNat then d.joinImage
  else
    let d := d.joinFirst
    if t = 3 then d
    else
      let d := d.joinEst
      if t = 2 then d
      else (d.joinAlign.rsSet 2).joinData

/-- The joining partner has reached its mode: KILL_OUT is released (R406, R410). -/
def Dev.rsDone (d : Dev) (mode : Nat) : Dev :=
  let d := if d.pins.killOut then d.setKillOut false else d
  let d := { d with tw := { d.tw with dropped := false, dirty := [] } }
  ((d.rsSet 0).stop Tm.resync).hw 0x9032 [nw mode]

/-- The granules written since they were sent. -/
def Dev.rsDirty (d : Dev) : List Nat := d.tw.dirty.filterMap (fun e => if e.2 then some (1024 * e.1) else none)

/-- The nanoseconds to the duty's next start; none while none is in sight. -/
def Dev.nextStart (d : Dev) : Option Nat :=
  if d.bit Reg.CYC_CTL 3 then
    let n := d.fld Reg.CYC_PERIOD 19 0
    if n = 0 then none else some (1000 * (n - d.tim.tb % n))
  else (d.nextAction (fun c => c = 3)).map (fun a => 8 * (a * 65536 / max 1 d.angInc))

/-- The registers and state of the final round, as bytes. -/
def Dev.joinState (d : Dev) : List Byte :=
  let c := d.prog
  leBytes 4 2 ++ leBytes 4 0 ++ wordsBytes ((List.range 31).map (fun i => c.reg (BitVec.ofNat 5 (i + 1))))
    ++ c.v.toList.flatMap (fun r => wordsBytes r.toList) ++ c.m.toList.flatMap (fun m => leBytes 8 m.toNat) ++ leBytes 4 c.vl
    ++ wordsBytes [c.fcsr, c.status &&& 0x300, d.rd Reg.SYS_EXPOWN0, d.rd Reg.SYS_EXPOWN1, d.rd Reg.CYC_NUM]

/-- After a commit: the final round when it fits, else a data round (R410). -/
def Dev.rsRound (d : Dev) : Dev :=
  if d.role != 1 || d.tw.rsPhase != 2 || d.cyc.phase != .wait then d
  else
    let l := d.rsDirty
    let fits := match d.nextStart with | some t => decide (8 * 1024 * l.length + 50000 < t) | none => true
    let d := l.foldl (fun (d : Dev) a => d.joinMemory a 1024) d
    let d := { d with tw := { d.tw with dirty := [] } }
    if l.length ≤ d.fld Reg.TW_RSFINAL 15 0 && fits then
      ((d.send .twin 0x0B (byteNats d.joinState)).rsSent (d.joinState.length - 8)).rsSet 3
    else d.satInc Reg.TW_RSSTAT 23 16

/-- TW_RSTO has passed: the resynchronisation has failed and starts again after 10 s. -/
def Dev.rsTimeout (d : Dev) : Dev :=
  let n := d.fld Reg.TW_RSTO 15 0
  if d.tw.rsPhase != 0 && n != 0 && d.due Tm.resync (secT n) then
    let d := { d with tw := { d.tw with dirty := [] } }
    let d := ((d.rsSet 0).stop Tm.resync).start Tm.rsRetry
    if d.role = 1 then d.hw 0x9033 [] else d
  else d

/-! ### A heartbeat (R391 to R395, R410) -/

/-- A joining module hears a heartbeat: it adopts a duty's higher epoch and works out its target mode, or notes its own
higher epoch, or a position conflict. -/
def Dev.hbJoining (d : Dev) (h : Heart) : Dev :=
  let own := d.rd Reg.TW_EPOCH
  if h.role = 1 then
    if h.epoch.toNat < own.toNat then
      if d.tw.higher then d else ({ d with tw := { d.tw with higher := true } }).hw 0x9042 []
    else
      let d := if own.toNat < h.epoch.toNat then ((d.wr Reg.TW_EPOCH h.epoch).epochSave).eligRefresh else d
      let d := { d with tw := { d.tw with higher := false } }
      if d.tw.rsPhase = 0 then
        let (t, bad) := d.rsTarget h.compat.toNat h.image.toNat
        ((({ d with tw := { d.tw with target := t } }).rsMismatch bad).rsSet 1).start Tm.resync
      else d
  else if h.role = 2 && h.smode = 0 && (h.pos == d.bit Reg.TW_CFG 1) then
    if d.tw.conflict then d else ({ d with tw := { d.tw with conflict := true } }).hw 0x9041 []
  else d

/-- A duty hears a heartbeat: a duty of a higher epoch deposes it; a joining partner of its epoch is resynchronised; one
that has reached its mode completes it. -/
def Dev.hbDuty (d : Dev) (h : Heart) : Dev :=
  let own := d.rd Reg.TW_EPOCH
  if h.role = 1 && own.toNat < h.epoch.toNat then d.depose 2
  else if h.role = 2 && h.smode = 0 then
    let wait := d.running Tm.rsRetry && !d.due Tm.rsRetry (secT 10)
    if h.epoch = own && d.tw.rsPhase = 0 && !wait then d.rsBegin h else d
  else if h.role = 2 && d.tw.rsPhase != 0 then d.rsDone h.smode
  else d

/-- A good heartbeat. -/
def Dev.heartbeat (d : Dev) (h : Heart) (b4 b5 : Nat) : Dev :=
  if d.role = 0 || d.role = 3 || !d.twLink then d
  else
    let d := (d.wr Reg.TW_PEPOCH h.epoch).wr Reg.TW_PSTAT (nw (b5 * 256 + b4))
    let d := (d.setBit Reg.TW_STAT 6 true).setFld Reg.TW_HBCNT 31 24 0
    let d := { d with tw := { d.tw with heart := some h, expect := some (d.now + usT 100) } }
    let d : Dev := if (d.rd Reg.TW_EPOCH).toNat < h.epoch.toNat then d.epochHigh else d
    let d : Dev := if h.role = 1 then (let d := d.start Tm.dutyHeard; if d.running Tm.join then d.start Tm.join else d) else d
    if d.role = 1 then d.hbDuty h
    else
      let d : Dev := if d.smode = 0 then d.hbJoining h else d
      if h.role = 1 then d.hbFollow h else d

/-! ### In-step execution (R396 to R400) -/

/-- The starts that the timetable's program-cycle entries at angle `a` give, and in how many grid cycles: entries that
coincide give one (R54). -/
def startsAt (l : List (Word × Word)) (a : Word) : Nat × Nat :=
  let e := (l.filter (fun e => e.1 = a)).map (fun e => e.2)
  let m := e.foldl (fun m w => Nat.lcm m (fieldOf w 15 8)) 1
  (((List.range m).filter (fun c => e.any (fun w => ttDue w c))).length, m)

/-- The nominal program cycle in ticks: CYC_PERIOD, or one grid cycle divided by the starts per grid cycle, which an entry
with DIV gives once in DIV cycles (R52, R399). -/
def Dev.nominalCycle (d : Dev) : Nat :=
  if d.bit Reg.CYC_CTL 3 then usT (d.fld Reg.CYC_PERIOD 19 0)
  else
    let l := ((List.range 256).map (fun i => d.ttEntry i)).filter (fun e => ttCode e.2 = 3 && fieldOf e.2 15 8 != 0)
    let s := ((l.map (fun e => e.1)).eraseDups).map (fun a => startsAt l a)
    let m := s.foldl (fun m x => Nat.lcm m x.2) 1
    let n := (s.map (fun x => x.1 * (m / x.2))).foldl (· + ·) 0
    d.gridTicks * m / max 1 n

/-- The lag allowance in ticks. -/
def Dev.lagTicks (d : Dev) : Nat := d.fld Reg.TW_LAG 9 0 * d.nominalCycle / 1000

/-- The parts of a received input image, in their order (R361). -/
def splitImage (p : Image) (l : List Byte) : List Byte × List Byte × List Byte × List Byte :=
  let n1 := 4 * p.snaps.length
  let n2 := 4 * p.channels
  (l.take 256, slice l 256 n1, slice l (256 + n1) n2, l.drop (256 + n1 + n2))

/-- IMGACK with a status. -/
def Dev.imgAck (d : Dev) (cycle status : Nat) : Dev := d.send .twin 0x03 (byteNats (leBytes 4 cycle) ++ [status, 0, 0, 0])

/-- A shade in step receives an IMAGE frame; one that has not ended its cycle takes none. -/
def Dev.imageTake (d : Dev) (crcOk : Bool) (cycle : Nat) (l : List Byte) (fs : List Force) : Dev :=
  if d.role = 0 then d
  else if crcOk = false then
    let d := d.twBad
    if d.inStep then (if d.running Tm.lagImg then d else d.start Tm.lagImg).imgAck cycle 1 else d
  else
    match d.cyc.image with
    | none => d
    | some p =>
      if !d.inStep || d.cycState != 2 || d.cycBusy || d.tw.ownHash.isSome then d
      else
        let d := d.imageStore (splitImage p l)
        let z := { d.cyc.frozen with tb := leNat (slice l 8 8), angle := leNat (slice l 16 4), cycle := leNat (slice l 20 4) }
        let d := { d with cyc := { d.cyc with forces := fs, frozen := z } }
        let d := d.inputForces
        let d := ((d.setFld Reg.CYC_OVRCNT 31 24 0).wr Reg.CYC_NUM (nw cycle)).resumeBlocks
        let d := ((d.stop Tm.noImg).stop Tm.lagImg).imgAck cycle 0
        d.execBegin

/-- The duty receives IMGACK: status 0 begins execution, 1 sends the frame again with RESEND. -/
def Dev.imgAckTake (d : Dev) (cycle status : Nat) : Dev :=
  if d.role = 1 && d.tw.imgWait && (d.rd Reg.CYC_NUM).toNat = cycle then
    if status = 0 then (({ d with tw := { d.tw with imgWait := false } }).stop Tm.lagImg).execBegin
    else if status = 1 then d.send .twin 0x82 (byteNats d.tw.img)
    else d
  else d

/-- A shade receives HASH; its own hash is due within the allowance (log entry 137). -/
def Dev.hashTake (d : Dev) (cycle : Nat) (hash : Word) : Dev :=
  if d.inStep then (({ d with tw := { d.tw with dutyHash := some (cycle, hash) } }).start Tm.lagHash).shadeJudge else d

/-- A handover that no longer has its shade in step is given up unless RESTART allows it (log entry 137). -/
def Dev.handCheck (d : Dev) : Dev :=
  match d.tw.hand with
  | some (_, false) => ({ d with tw := { d.tw with hand := none } }).hw 0x9030 [6]
  | _ => d

/-- The duty receives the HASHACK it waits for, also after its next start; a shade that found a difference has not committed,
so that a handover to it goes on only with RESTART (R397, R409). -/
def Dev.hashAckTake (d : Dev) (cycle result : Nat) : Dev :=
  if d.role = 1 && d.tw.hashWait = some cycle then
    let d := ({ d with tw := { d.tw with hashWait := none } }).stop Tm.lagHash
    let d :=
      if result = 1 then
        ((({ d with tw := { d.tw with dropped := true } }).satInc Reg.TW_HASHCNT 23 0).flag Reg.TW_STAT 17).handCheck
      else d
    d.handDue
  else d

/-- The allowance has expired: the duty goes on without its shade; a shade that waits for a good IMAGE, or whose own hash
is late, drops. -/
def Dev.lagExpiry (d : Dev) : Dev :=
  let n := d.lagTicks
  if d.role = 1 then
    if d.tw.imgWait && d.due Tm.lagImg n then
      let d := ({ d with tw := { d.tw with imgWait := false, dropped := true } }).stop Tm.lagImg
      d.handCheck.execBegin
    else if d.tw.hashWait.isSome && d.due Tm.lagHash n then
      (({ d with tw := { d.tw with hashWait := none, dropped := true } }).stop Tm.lagHash).handCheck.handDue
    else d
  else if d.inStep then
    if d.due Tm.lagImg n then (d.stop Tm.lagImg).shadeDrop 1
    else if d.tw.dutyHash.isSome && d.due Tm.lagHash n then (d.stop Tm.lagHash).shadeDrop 2
    else d
  else d

/-- No IMAGE within the allowance after the shade's own start. -/
def Dev.missingImage (d : Dev) : Dev :=
  if d.inStep && d.cycState = 2 && d.due Tm.noImg d.lagTicks then d.shadeDrop 5 else d

/-! ### Cues at the shade (R387, R401, R404) -/

/-- A cue of a strobe, in SPLIT; the descriptor is that of the shade's last strobe (log entry 133). -/
def Dev.cueStrobe (d : Dev) (seq : Nat) (temp aux : Bool) : Dev :=
  if d.role != 2 || d.bit Reg.SWP_CTL 0 = false then d
  else
    let d := match d.swp.cur with | some w => d.publish w | none => d
    let d := if d.ringState = 3 then d.ringSet 4 else d
    if d.ringSplit then d.strobeWith d.swp.lastDesc seq temp aux 0 else d

/-- Cue kind 0x4 commits the slot of the preceding MAILBOX frame. -/
def Dev.cueMailbox (d : Dev) (m : Nat) : Dev :=
  match d.tw.mb with
  | some (k, ws) =>
    if d.role = 2 && k = m then
      let d := { d with tw := { d.tw with mb := none } }
      let st := (List.range 3).foldl (fun l w => putO l (4 * m + w + 1) (ws[w + 1]?)) d.dsp.stage
      ({ d with dsp := { d.dsp with stage := st } }).mbCommit m ((ws[0]?).getD 0)
    else d
  | none => d

/-- Cue kind 0x9: the far-end recovery read of the nodes that the shade's sweep still misses. -/
def Dev.cueRecovery (d : Dev) (seq : Nat) : Dev :=
  match d.swp.cur with
  | some w =>
    if d.role = 2 && w.seq = seq then
      let missing := (d.descNodes w.desc).filter (fun k => !w.got.contains k)
      let d := { d with swp := { d.swp with cur := some { w with recovering := true } } }
      d.collect 63 0x21 true (missing.map (fun k => (k, 3 * d.nodeNV k)))
    else d
  | none => d

/-- Cue kind 0x6: the shade's PWM counters take the duty's values. -/
def Dev.cuePwm (d : Dev) (l : List Nat) : Dev :=
  if d.role = 2 then (List.range 4).foldl (fun (d : Dev) p => d.setPair p { d.pair p with cnt := nth l p, cntAt := d.now }) d else d

/-! ### The new duty's estimator (R403, R408) -/

/-- The estimator of a new duty goes on from the section 0x04 last applied, or from the Storeroom of a module that was
STANDBY. -/
def Dev.estTakeover (d : Dev) (was : Nat) : Dev :=
  if was = 3 then d.stoLoad
  else
    match d.tw.mirLatch with
    | none => d
    | some l =>
      let q := d.acc.q1 / 16777216
      let cells := Store.mapKeep (fun _ => none) (fun _ (c : Option CellSt) => c.map (fun x => d.advance x (q - l) 0)) d.est.cells
      { d with est := { d.est with cells := cells, lastQ := some q, lastTick := d.now }, tw := { d.tw with mirLatch := none } }

/-- Cue kind 0x8: the roles are exchanged (R408, R409). -/
def Dev.cueRole (d : Dev) : Dev :=
  let was := d.smode
  if d.role = 2 then (d.handTake).estTakeover was else d

/-! ### Frames at the shade (R402, R404) -/

/-- The slots of a SEGMENT frame, each with its CRC-16 judged. -/
def Dev.segTake (d : Dev) (arg : Nat) : Nat → List Byte → Dev
  | 0, _ => d
  | fuel + 1, l =>
    if l.length < 8 then d
    else
      let n := leNat (slice l 1 1)
      let ok := leNat (slice l (6 + n) 2) = crc16 (l.take (6 + n))
      let d := d.slotPartner arg (leNat (l.take 1)) (leNat (slice l 2 2)) (leNat (slice l 4 1)) (leNat (slice l 5 1)) (slice l 6 n) ok
      Dev.segTake d arg fuel (l.drop (8 + n))

/-- A post from the bytes of a record, marked as the partner's (R402, Table 20.1). -/
def partnerPost (l : List Byte) : Post :=
  let w0 := leNat (l.take 4)
  let ptpv := w0.testBit 24
  let o := if ptpv then 32 else 20
  { origin := w0 / 2 ^ 26 % 4, partner := true, ptpv := ptpv, code := w0 % 65536, cyccnt := leWord l 4,
    opt := leNat (slice l 8 4) + 2 ^ 32 * leNat (slice l 12 4), ns := leNat (slice l 20 4),
    sec := leNat (slice l 24 4) + 2 ^ 32 * leNat (slice l 28 4), payload := slice l o (w0 / 65536 % 256) }

/-- Section 0x04 is complete: the shade holds the duty's state, and its own latch of that strobe (R403). -/
def Dev.mirEst (d : Dev) : Dev :=
  let l := d.tw.mir
  let s := l.take 1024
  let seq := leNat (slice s 72 4)
  let n4 (o : Nat) : Nat := leNat (slice s o 4)
  let cells := (d.cellIds.zipIdx).foldl (fun m e => putO m e.1 (d.cellParse (slice l (1024 + 48 * e.2) 48))) d.est.cells
  let e := { d.est with cells := cells, anc1 := sx 64 (leNat (slice s 0x10 8)), anc2 := sx 64 (leNat (slice s 0x18 8)), transport := decide (2 ^ 31 ≤ n4 0x24), trAt := n4 0x28, learnAt := n4 0x2C, qualAt := n4 0x30, qThru := 1000000 * leNat (slice s 0x34 8), eThru := 3600000000 * leNat (slice s 0x3C 8), run := n4 0x44 }
  let d := d.wr Reg.EST_FLAGS (nw (n4 0x20))
  { d with est := e, tw := { d.tw with mirLatch := getO d.tw.strobes seq, mir := [] } }

/-- A joining module has received all of its target mode (R410, R412). -/
def Dev.joinDone (d : Dev) (mode : Nat) : Dev :=
  if d.role = 2 && d.smode = 0 && d.tw.target = mode then ((d.setRole 2 mode).rsSet 0).stop Tm.resync else d

/-- A MIRROR frame: the shade writes the section into its own copy. -/
def Dev.mirrorTake (d : Dev) (sec off : Nat) (l : List Byte) : Dev :=
  if d.role != 2 then d
  else
    let buf := (if off < 4096 then [] else d.tw.mir) ++ l
    match sec with
    | 1 =>
      let d := { d with tw := { d.tw with mir := buf } }
      match (blkItems buf.length buf).getLast? with
      | some (5, _, [_, _, _, _]) => ({ d with tw := { d.tw with mir := [] } }).blkTake (off % 4096) (blkParse buf)
      | _ => d
    | 2 => if 0x20700000 ≤ off && off + l.length ≤ 0x20710000 then d.mramWrite off l else d
    | 3 => if 0x20000000 ≤ off && off + l.length ≤ 0x20200000 then d.mramWrite off l else d
    | 4 =>
      let d := { d with tw := { d.tw with mir := buf } }
      if buf.length < 1024 + 48 * d.cellIds.length then d
      else (let d := d.mirEst; if d.cellIds.isEmpty then d.joinDone 2 else d)
    | 5 =>
      let cells := d.cellIds
      let d := (List.range (l.length / 4)).foldl (fun (d : Dev) i =>
        match cells[(off / 4 + i) / 4]? with
        | some c => d.wr (Reg.IMP_CELL c ((off / 4 + i) % 4)) (leWord l (4 * i))
        | none => d) d
      if 16 * cells.length ≤ off + l.length then d.joinDone 2 else d
    | 6 => d.enqueue (partnerPost l)
    | 7 =>
      let d := (List.range 1024).foldl (fun (d : Dev) i => d.wr (0x40041000 + 4 * i) (leWord l (4 * i))) d
      ({ d with tt := { d.tt with stage := [] } }).setBit Reg.TT_STAT 7 (off != 0) |>.joinDone 3
    | _ => d.twBad

/-- RESYNC kind 1: SRAM of the program, or the image for the program Attic (log entry 135). -/
def Dev.joinTake (d : Dev) (a : Nat) (l : List Byte) : Dev :=
  if d.role != 2 || d.smode != 0 then d
  else if dataBase ≤ a && a + l.length ≤ 0x105E0000 then d.agentStore a l
  else if (0x32000000 ≤ a && a + l.length ≤ 0x36000000) || 0x3E000000 ≤ a then
    let k := d.attic 2
    let d := if d.tw.newImg then d else ({ (d.unstage 2).slotErase 2 k with tw := { d.tw with newImg := true } })
    if a < 0x36000000 then d.nvBytes (slotBase 2 k + (a - 0x32000000) % 0x2000000) l
    else d.nvBytes (slotHead 2 k + a % 0x40000) (l.take 448)
  else d

/-- RESYNC kind 2: the joining module takes the pair's registers, sets its claim bits and its program to RUN, and is in
step; the place where the program goes on is its entry of the next cycle (log entry 135). -/
def Dev.joinStateTake (d : Dev) (j : JoinState) : Dev :=
  match d.cyc.image with
  | none => d
  | some p =>
    if d.role != 2 || d.smode != 0 || d.tw.target != 1 then d
    else
      let (k, d) := d.nextFree
      let c := (d.core .program).placed (codeBase + 4 * Config.free k) 1
      let c := { c with
        w := Vector.ofFn (fun i => if i.val = 0 then 0 else (j.w[i.val - 1]?).getD 0)
        v := Vector.ofFn (fun r => Vector.ofFn (fun i => (((j.v[r.val]?).getD [])[i.val]?).getD 0))
        m := Vector.ofFn (fun i => (j.m[i.val]?).getD 0)
        vl := min 64 j.vl.toNat
        fcsr := j.fcsr &&& 0x7F
        status := withBit (withBit c.status 8 j.dz) 9 j.ov }
      let d := (d.setCore .program c).copyMem (p.base + 0x100) codeBase p.codeLen
      let d := ((d.wr Reg.SYS_EXPOWN0 j.own0).wr Reg.SYS_EXPOWN1 j.own1).wr Reg.CYC_NUM j.cycle
      let d := { d with cyc := { d.cyc with phase := .wait, calls := [], firstCommit := true, retainedId := some p.imageId } }
      (d.setFld Reg.CYC_STAT 2 0 2).joinDone 1

/-- RESYNC kind 3: the history of a slot as the duty has it after its evaluation (R411). -/
def Dev.joinSlot (d : Dev) (s : Nat) (w14 w15 : Word) (e3 u3 : Int) (q : List Nat) : Dev :=
  if d.role != 2 then d
  else
    let d := (d.wr (Reg.CE_SLOT s 14) w14).wr (Reg.CE_SLOT s 15) w15
    d.setSlot s { d.slot s with e3 := e3, u3 := u3, q := (q.zipIdx).foldl (fun m e => putN m e.2 e.1) [] }

/-! ### Start-up, takeover, KILL_IN (R393, R395, R405, R406) -/

/-- The partner drives the ROLE line, as the command reports it. -/
def Dev.roleLine (d : Dev) (low : Bool) : Dev := { d with pins := { d.pins with roleLow := low } }

/-- The timetable, descriptor and enables of Grey service (R126). -/
def Dev.greySet (d : Dev) : Dev :=
  let d := (List.range 256).foldl (fun (d : Dev) k =>
    let w1 : Word := if k = 0 then 0x02000100 else if k < 8 then 0x01000100 else 0
    (d.wr (Reg.TT_ENT 0 k 0) (nw (if k < 8 then k * 0x20000000 else 0))).wr (Reg.TT_ENT 0 k 1) w1) d
  let d := (d.wr (Reg.SWP_DESC 0 0) 0x140AC805).greyNodes (d.ring.count.getD 0)
  (d.setBit Reg.SWP_CTL 0 true).setBit Reg.TT_CTL 0 true

/-- The start-up rule: the conditions have held for TW_JOINTO ms. -/
def Dev.joinTimeout (d : Dev) : Dev :=
  let n := d.fld Reg.TW_JOINTO 15 0
  if d.joinOk && n != 0 && d.due Tm.join (msT n) then
    let d := (d.dutyEnter.stop Tm.join).hw 0x9012 []
    if d.ring.count = none && d.pwr.full = false then d.greySet else d
  else d

/-- An eligible shade asserts KILL_OUT. -/
def Dev.takeStart (d : Dev) : Dev :=
  let d := (d.setKillOut true).hw 0x9051 []
  ({ d with tw := { d.tw with takeover := true } }).start Tm.settle

/-- The cases of R405. -/
def Dev.takeOk (d : Dev) : Bool :=
  let silent := !d.bit Reg.TW_STAT 6 && d.tw.heart.isSome && !(d.running Tm.portHeard && !d.due Tm.portHeard (usT 330))
    && d.running Tm.faultHeard && !d.due Tm.faultHeard (usT 330 + 1)
  d.role = 2 && d.bit Reg.TW_STAT 4 && !d.tw.takeover && (silent || (d.tw.failRx && !d.roleLow))

/-- A takeover begins when its case holds. -/
def Dev.takeover (d : Dev) : Dev := if d.takeOk then d.takeStart else d

/-- The kill settle has run: the new duty. -/
def Dev.settleExpiry (d : Dev) : Dev :=
  if d.tw.takeover && d.due Tm.settle (usT (d.fld Reg.TW_KILLT 7 0)) then
    let was := d.smode
    let ended := decide (d.cyc.phase = .commit)
    let d := ({ d with tw := { d.tw with takeover := false } }).stop Tm.settle
    let d := d.dutyEnter.estTakeover was
    let d := d.satInc Reg.TW_COUNTS 15 0
    let d := if ended then d.commit else d
    let d := d.hw 0x9010 [d.rd Reg.TW_EPOCH]
    if was = 1 then d else d.programAnew
  else d

/-- KILL_IN changes: it removes the outputs' power, and deposes a duty without KILL_OUT of its own, or an eligible
shade; a module alone ignores it with all of X6 (R382). -/
def Dev.killIn (d : Dev) (active : Bool) : Dev :=
  let d := ({ d with pins := { d.pins with killIn := active } }).setBit Reg.TW_STAT 8 (active && d.role != 0)
  let d := d.powerRefresh
  if active && ((d.role = 1 && !d.pins.killOut) || (d.role = 2 && d.bit Reg.TW_STAT 4)) then d.depose 1 else d

/-- TW_DEPTO has passed in deposed. -/
def Dev.deposedTimeout (d : Dev) : Dev :=
  let n := d.fld Reg.TW_DEPTO 15 0
  if n != 0 && d.due Tm.deposed (secT n) then d.rejoin else d

/-- A write of TW by a session needs service authority (R382, R508). -/
def Dev.serviceGate (d : Dev) (src : Writer) (a : Nat) (f : Dev → Dev) : Dev :=
  if src = .session && d.fld Reg.SVC_STAT 5 4 = 3 then f d else d.gate src a f

/-- TW_MIRINT has passed since the last section 0x04. -/
def Dev.mirrorInterval (d : Dev) : Dev :=
  let n := d.fld Reg.TW_MIRINT 15 0
  if d.hasShade && n != 0 && (!d.running Tm.mir || d.due Tm.mir (msT n)) then d.mirrorEst.start Tm.mir else d

/-! ### Commands -/

/-- A receiver declares its link up: 0 ring port A, 1 ring port B, 2 the twin link. -/
def execLinkUp (port : BitVec 2) (s : State) : Host.Outcome State Fault Refusal :=
  s.lift (fun d => if port = 0 then d.ringLinkUp false else if port = 1 then d.ringLinkUp true else if port = 2 then d.twLinkUp else d)

/-- A receiver declares loss of signal. -/
def execLos (port : BitVec 2) (s : State) : Host.Outcome State Fault Refusal :=
  s.lift (fun d => if port = 0 then d.ringLos false else if port = 1 then d.ringLos true else if port = 2 then d.twLos else d)

/-- A heartbeat leaves. -/
def execHeartbeatSend (s : State) : Host.Outcome State Fault Refusal := s.lift (fun d => d.hbSend)

/-- A heartbeat with a good CRC arrives (Table 15.4). -/
def execHeartbeat (roleLow : Bool) (epoch : Word) (b4 b5 : Byte) (count : BitVec 16) (compat image cyc angle : Word) (inc : BitVec 48)
    (ns sec : Word) (s : State) : Host.Outcome State Fault Refusal :=
  s.lift (fun d => (d.roleLine roleLow).heartbeat
    { epoch := epoch, role := b4.toNat % 4, smode := b4.toNat / 4 % 4, pos := b4.toNat.testBit 4, elig := b4.toNat.testBit 5, fail := b4.toNat.testBit 6, flags := b5.toNat, count := count.toNat, compat := compat, image := image, cyc := cyc, angle := angle.toNat, inc := inc.toNat, ns := ns.toNat, sec := sec.toNat }
    b4.toNat b5.toNat)

/-- A heartbeat is missed. -/
def execHeartbeatMiss (s : State) : Host.Outcome State Fault Refusal := s.lift (fun d => d.hbMiss)

/-- PING once per second. -/
def execPing (s : State) : Host.Outcome State Fault Refusal :=
  s.lift (fun d => if !d.running Tm.ping || d.due Tm.ping (secT 1) then d.pingSend else d)

/-- A PING is answered. -/
def execPingReceive (s : State) : Host.Outcome State Fault Refusal :=
  s.lift (fun d => if d.twSends then d.send .twin 0x201 [] else d)

/-- A PONG arrives. -/
def execPong (rtt : BitVec 16) (s : State) : Host.Outcome State Fault Refusal := s.lift (fun d => d.pong rtt.toNat)

/-- Cue kind 0x1. -/
def execCueStrobeV (seq : BitVec 16) (s : State) : Host.Outcome State Fault Refusal :=
  s.lift (fun d => d.cueStrobe seq.toNat false false)

/-- Cue kind 0x2. -/
def execCueStrobeT (seq : BitVec 16) (s : State) : Host.Outcome State Fault Refusal :=
  s.lift (fun d => d.cueStrobe seq.toNat true false)

/-- Cue kind 0x3. -/
def execCueStrobeTa (seq : BitVec 16) (s : State) : Host.Outcome State Fault Refusal :=
  s.lift (fun d => d.cueStrobe seq.toNat true true)

/-- Cue kind 0x4. -/
def execCueMailbox (m : BitVec 2) (s : State) : Host.Outcome State Fault Refusal := s.lift (fun d => d.cueMailbox m.toNat)

/-- Cue kind 0x5. -/
def execCueSdmSync (s : State) : Host.Outcome State Fault Refusal := s.lift (fun d => if d.role = 2 then d.sdmSync else d)

/-- Cue kind 0x6, with the counters of the preceding CMD frame. -/
def execCuePwmAlign (counts : List (BitVec 20)) (s : State) : Host.Outcome State Fault Refusal :=
  s.lift (fun d => d.cuePwm (counts.map (fun c => c.toNat)))

/-- Cue kind 0x7. -/
def execCueScc (n : BitVec 2) (s : State) : Host.Outcome State Fault Refusal :=
  s.lift (fun d => if d.role = 2 then d.sccCmd true n.toNat else d)

/-- Cue kind 0x8. -/
def execCueRoleExchange (_epoch : BitVec 16) (s : State) : Host.Outcome State Fault Refusal :=
  s.lift (fun d => d.cueRole)

/-- Cue kind 0x9. -/
def execCueRecoveryRead (seq : BitVec 16) (s : State) : Host.Outcome State Fault Refusal :=
  s.lift (fun d => d.cueRecovery seq.toNat)

/-- Cue kind 0xA. -/
def execCueBlank (s : State) : Host.Outcome State Fault Refusal :=
  s.lift (fun d => if d.role = 2 && d.ringSplit then d.ringSend setBlank [] else d)

/-- A cue with a bad check. -/
def execCueBadCheck (s : State) : Host.Outcome State Fault Refusal := s.lift (fun d => d.shadeDrop 4)

/-- IMAGE. -/
def execImage (crcOk : Bool) (cycle : Word) (image : List Byte) (forces : List ForceRow) (s : State) : Host.Outcome State Fault Refusal :=
  s.lift (fun d => d.imageTake crcOk cycle.toNat image
    (forces.map (fun f => { idx := f.idx.toNat, w0 := f.w0, w1 := f.w1, w2 := f.w2, w3 := f.w3 })))

/-- IMGACK. -/
def execImgack (cycle : Word) (status : Byte) (s : State) : Host.Outcome State Fault Refusal :=
  s.lift (fun d => d.imgAckTake cycle.toNat status.toNat)

/-- HASH. -/
def execHash (cycle hash : Word) (s : State) : Host.Outcome State Fault Refusal := s.lift (fun d => d.hashTake cycle.toNat hash)

/-- HASHACK. -/
def execHashack (cycle : Word) (result : Byte) (s : State) : Host.Outcome State Fault Refusal :=
  s.lift (fun d => d.hashAckTake cycle.toNat result.toNat)

/-- MIRROR. -/
def execMirror (sec : BitVec 16) (off : Word) (data : List Byte) (s : State) : Host.Outcome State Fault Refusal :=
  s.lift (fun d => d.mirrorTake sec.toNat off.toNat data)

/-- SEGMENT; the sequence of its slots stands in each of them. -/
def execSegment (arg : Byte) (slots : List Byte) (s : State) : Host.Outcome State Fault Refusal :=
  s.lift (fun d => if d.pairUp then d.segTake arg.toNat slots.length slots else d)

/-- MAILBOX. -/
def execMailbox (slot : Byte) (words : List Word) (s : State) : Host.Outcome State Fault Refusal :=
  s.lift (fun d => if d.role = 2 then { d with tw := { d.tw with mb := some (slot.toNat, words) } } else d)

/-- CMD command 1. -/
def execCmdHandover (cycle : Word) (s : State) : Host.Outcome State Fault Refusal :=
  s.lift (fun d => if d.role = 2 then { d with tw := { d.tw with hand := some (cycle.toNat, true) } } else d)

/-- CMD command 2. -/
def execCmdOnlineChange (cycle : Word) (s : State) : Host.Outcome State Fault Refusal :=
  s.lift (fun d => if d.role = 2 then { d with cyc := { d.cyc with switchAfter := some cycle.toNat } } else d)

/-- CMD command 3. -/
def execCmdTransport (s : State) : Host.Outcome State Fault Refusal := s.lift (fun d => if d.role = 2 then d.transEnter else d)

/-- CMD command 4, with what the enumeration brings: position 1 issues it, position 2 sends the far-end echoes, and either holds what
it found (R404, R563). -/
def execCmdEnumeration (hop : Byte) (nodes : List EnumNode) (transit : BitVec 24) (s : State) : Host.Outcome State Fault Refusal :=
  s.lift (fun d =>
    if d.role != 2 then d
    else d.enumerate hop.toNat nodes transit.toNat)

/-- CMD command 5: a command frame, its type first. -/
def execCmdRingCommand (frame : List Byte) (s : State) : Host.Outcome State Fault Refusal :=
  s.lift (fun d =>
    if d.role = 2 && d.portOn false then (d.portSend false (nth (byteNats frame) 0) (byteNats frame)).cmdState (nth (byteNats frame) 0) else d)

/-- FAIL. -/
def execFail (roleLow : Bool) (s : State) : Host.Outcome State Fault Refusal :=
  s.lift (fun d =>
    if d.role = 2 then (({ d.roleLine roleLow with tw := { d.tw with failRx := true } }).takeover) else d)

/-- RESYNC kind 1. -/
def execResyncGranules (addr : Word) (data : List Byte) (s : State) : Host.Outcome State Fault Refusal :=
  s.lift (fun d => d.joinTake addr.toNat data)

/-- RESYNC kind 2. -/
def execResyncRegisters (j : JoinState) (s : State) : Host.Outcome State Fault Refusal := s.lift (fun d => d.joinStateTake j)

/-- RESYNC kind 3. -/
def execResyncSlotHistory (sl : BitVec 3) (w14 w15 : Word) (e3 u3 : BitVec 16) (q : List (BitVec 16)) (s : State) :
    Host.Outcome State Fault Refusal :=
  s.lift (fun d => d.joinSlot sl.toNat w14 w15 e3.toInt u3.toInt (q.map (fun x => x.toNat)))

/-- A frame of the link is discarded. -/
def execLinkFrameDiscard (s : State) : Host.Outcome State Fault Refusal := s.lift (fun d => if d.role = 0 then d else d.twBad)

/-- The lag allowance expires. -/
def execLagExpiry (s : State) : Host.Outcome State Fault Refusal := s.lift (fun d => d.lagExpiry)

/-- No IMAGE has come. -/
def execMissingImage (s : State) : Host.Outcome State Fault Refusal := s.lift (fun d => d.missingImage)

/-- The start-up rule. -/
def execJoinTimeout (roleLow : Bool) (s : State) : Host.Outcome State Fault Refusal :=
  s.lift (fun d => (d.roleLine roleLow).joinTimeout)

/-- A takeover. -/
def execTakeover (roleLow : Bool) (s : State) : Host.Outcome State Fault Refusal := s.lift (fun d => (d.roleLine roleLow).takeover)

/-- The kill settle ends. -/
def execKillSettleExpiry (s : State) : Host.Outcome State Fault Refusal := s.lift (fun d => d.settleExpiry)

/-- KILL_IN becomes active or inactive. -/
def execKillIn (active : Bool) (s : State) : Host.Outcome State Fault Refusal :=
  s.always (fun d => if d.asleep then { d with pins := { d.pins with killIn := active } } else d.killIn active)

/-- A write of TW_CTL with DEPOSE. -/
def execDepose (src : Writer) (v : Word) (s : State) : Host.Outcome State Fault Refusal :=
  s.lift (fun d => d.serviceGate src Reg.TW_CTL (fun d => d.twCtl (withBit v 2 true)))

/-- A write of TW_CTL with REJOIN. -/
def execRejoin (src : Writer) (v : Word) (s : State) : Host.Outcome State Fault Refusal :=
  s.lift (fun d => d.serviceGate src Reg.TW_CTL (fun d => d.twCtl (withBit v 3 true)))

/-- The deposed time-out. -/
def execDeposedTimeout (s : State) : Host.Outcome State Fault Refusal := s.lift (fun d => d.deposedTimeout)

/-- A write of TW_CTL with SEED; SEED is for service authority alone (R394). -/
def execSeed (src : Writer) (v : Word) (s : State) : Host.Outcome State Fault Refusal :=
  s.lift (fun d => d.serviceGate src Reg.TW_CTL (fun d => d.twCtl (withBit v 4 true)))

/-- A write of TW_CTL with HANDOVER. -/
def execHandover (src : Writer) (v : Word) (s : State) : Host.Outcome State Fault Refusal :=
  s.lift (fun d => d.serviceGate src Reg.TW_CTL (fun d => d.twCtl (withBit v 0 true)))

/-- After a commit of the duty. -/
def execResyncRound (s : State) : Host.Outcome State Fault Refusal := s.lift (fun d => d.rsRound)

/-- TW_RSTO has passed. -/
def execResyncTimeout (s : State) : Host.Outcome State Fault Refusal := s.lift (fun d => d.rsTimeout)

/-- TW_MIRINT has passed. -/
def execMirrorInterval (s : State) : Host.Outcome State Fault Refusal := s.lift (fun d => d.mirrorInterval)

end Sys2Proof.Machine
end

