-- ==== Sys2Proof/Machine/Start.lean ====
section
/-! DEFINITION. From reset to full service: the hardware loader's map and frequency setting, the boot ROM, and what system
firmware sets up when it starts (R24, R26, R49, R109, R126, R162, R176, R208, R297, R333, R356, R434, R513, R514, R533,
R563). -/

namespace Sys2Proof.Machine

/-! ### The loader (R49, R109, R162) -/

/-- The channel map comes back from its copy, entry by entry in ascending index, when the copy checks. -/
def Dev.mapLoad (d : Dev) : Dev :=
  if d.word 0x2070C000 = crc32c (d.bytes 0x2070A000 8192) then
    ((List.range 2048).foldl (fun (d : Dev) i => d.chmEntry i (d.word (0x2070A000 + 4 * i))) d).chmCount.setBit Reg.CHM_STAT 2 true
  else d

/-- The nominal increment comes from the setting beside the shadow, which stands at its default while no setting has been
written (log entry 139); free-run takes it at once. -/
def Dev.nominalLoad (d : Dev) : Dev :=
  let lo := d.word 0x2070C100
  let hi := d.word 0x2070C104
  let d := if lo = 0 && hi = 0 then d else (d.wr Reg.ANG_NOMINC_LO lo).wr Reg.ANG_NOMINC_HI (hi &&& 0xFFFF)
  (d.setInc d.angNom).setFld Reg.ANG_STAT 1 0 2

/-! ### The boot ROM -/

/-- The ring ports (R563): a module alone issues at port A and ends at port B, a module of a pair echoes at port A. -/
def Dev.portsSet (d : Dev) : Dev :=
  let port (d : Dev) (x e : Nat) : Dev := (((d.setBit (Reg.SK_CTL x) 0 true).setBit (Reg.SK_CTL x) 1 true).setFld (Reg.SK_CTL x) 3 2 e)
  if d.bit Reg.TW_CFG 0 then port d 0 2 else port (port d 0 0) 1 1

/-- The ring of a module alone: when both links have come up the boot ROM enumerates, and in any case it sets up Grey
service (R533). -/
def Dev.ringBoot (d : Dev) (found : Option (BitVec 8 × List EnumNode × BitVec 24)) : Dev :=
  if d.bit Reg.TW_CFG 0 then d
  else
    match found with
    | some (hop, nodes, transit) =>
      let d := (d.ringLinkUp false).ringLinkUp true
      let d := d.ringDownExit.enumerate hop.toNat nodes transit.toNat
      d.greySet
    | none => d.greySet

/-- The epoch at start: the newest copy that checks, or 0 (R394). -/
def Dev.epochLoad (d : Dev) : Dev :=
  let e : Word := match d.epochPick with | some k => d.word (epochAt k + 4) | none => 0
  (d.wr Reg.TW_EPOCH e).eligRefresh

/-- The boot ROM starts firmware with the watchdog at 100 ms (R529). -/
def Dev.watchdogSet (d : Dev) : Dev := (d.setFld Reg.PWR_WDT 15 0 100).start Tm.wdt

/-- The Attic of a kind lost its verified image when the slots changed places. -/
def Dev.swapped (d : Dev) (kind old new : Nat) : Dev := if old = new then d else d.unstage kind

/-- The ROM's choice of firmware: none that passes enters recovery with its cause, else the watchdog runs (R533, R516). -/
def Dev.romChoice (d : Dev) (act : Nat) (cause : Option Nat) : Dev :=
  match cause with
  | some c => (d.resetTo 16).setFld Reg.SVC_RECAUSE 3 0 c
  | none =>
    let d := d.swapped 1 act (recFwAct d.slotRecord)
    (d.setBit Reg.SVC_STAT 1 (!d.svc.staged.isEmpty)).watchdogSet

/-- What the boot ROM sets up before it looks at the slots. -/
def Dev.romSetup (d : Dev) (found : Option (BitVec 8 × List EnumNode × BitVec 24)) : Dev :=
  let d := { d with mot := { d.mot with enLow := false } }
  let d := d.limitLoad.guardsAfter.mapLoad.nominalLoad.discWatch
  let d := d.portsSet.epochLoad
  let d := d.recBoot (warmCause (d.fld Reg.PWR_RSTCAUSE 7 0))
  d.ringBoot found

/-- Bring-up: the hardware loader, the ring, the recorder's place, the slots; a module without a firmware image that
passes its check enters recovery. -/
def Dev.bringUp (d : Dev) (found : Option (BitVec 8 × List EnumNode × BitVec 24)) : Dev :=
  if d.bit Reg.LIM_STAT 0 then d
  else
    let d := d.romSetup found
    let act := recFwAct d.slotRecord
    let b := d.slotBoot
    if d.bit Reg.SVC_STAT 3 then (b.1.wr Reg.SYS_FWVER 0).wr Reg.SYS_COMPAT 0
    else b.1.romChoice act b.2

/-! ### System firmware (R533, Table 22.5) -/

/-- A memory-protection region of the program pair (Table 12.16). -/
def Dev.regionSet (d : Dev) (n base lim attr : Nat) : Dev :=
  ((d.wr (Reg.MPU_PBASE n) (nw base)).wr (Reg.MPU_PLIM n) (nw lim)).wr (Reg.MPU_PATTR n) (nw (0x80000000 + attr))

/-- The regions under which the program runs, and both locks (R333; the choice of regions is log entry 138). -/
def Dev.regionsSet (d : Dev) : Dev :=
  let d := ((d.regionSet 0 0x10000000 0x101FFFE0 0x55).regionSet 1 0x10200000 0x105FFFE0 0x33).regionSet 2 0x40000000 0x4020FFE0 0x33
  let d := d.regionSet 3 0x10C00000 0x10FFFFE0 0x11
  d.setFld Reg.MPU_CTL 1 0 3

/-- The program image of the active slot: STOPPED with a valid one, else NOIMG (R356, R514). -/
def Dev.programLoad (d : Dev) : Dev :=
  let old := recPgAct d.slotRecord
  let d := d.programBoot
  let k := recPgAct d.slotRecord
  let d := d.swapped 2 old k
  let p := if d.slotOk 2 k then d.readImage (progSlot k) else none
  ({ d with cyc := { d.cyc with image := p } }).setFld Reg.CYC_STAT 2 0 (b2n p.isSome)

/-- What the image asks of CYC and SYS: claims and their lock, SRC and the period, and WDMULT (R26, R353, R371). -/
def Dev.programSet (d : Dev) : Dev :=
  match d.cyc.image with
  | none => d.setBit Reg.SYS_CTL 0 true
  | some p =>
    let d := (d.wr Reg.SYS_CLAIMEN0 (p.claims &&& 0x079FF7F8)).setBit Reg.SYS_CTL 0 true
    let d := d.setBit Reg.CYC_CTL 3 (bitOf p.cfg 31)
    let d := if bitOf p.cfg 31 then d.cycPeriod (nw (fieldOf p.cfg 19 0)) else d
    d.wr Reg.CYC_WDMULT (nw p.wdmult)

/-- The axes to be homed: the enabled ones, in ascending order (R297). -/
def Dev.homeAll (d : Dev) : Dev :=
  let l := (List.range 4).filter (fun a => d.bit (Reg.MOT_CFG a) 31)
  ({ d with mot := { d.mot with toHome := l } }).homeNext

/-- A CAN controller of the basic level: FDEN, ABO and TXEN set, INIT cleared (R434). -/
def Dev.canStart (d : Dev) (x : Nat) : Dev := d.canCtl x (d.rd (Reg.CAN_CTL x) &&& 0xFFFFFF98 ||| 0x26)

/-- Full service is reached from Grey: the blocks' values, the Storeroom, the program, the locks; the state becomes Run,
or Throttled while the die is at Ochre thermal; AUTORUN starts the program. -/
def Dev.fullService (d : Dev) : Dev :=
  if d.pwrState != 1 || d.pwr.full || !d.bit Reg.LIM_STAT 0 then d
  else
    let d := { d with pwr := { d.pwr with full := true }, ang := { d.ang with started := true } }
    let d := (d.setFld Reg.PWR_STAT 15 13 (if d.bit Reg.HLT_STAT 1 then 3 else 2)).setBit Reg.HLT_STAT 0 (d.bit Reg.HLT_STAT 1)
    let d := d.heldTake.blkAll
    let d := if d.managed.any (fun m => blockOf m.1 = 9) then d.mapSave else d
    let d := d.stoLoad.angReturn
    let d := d.programLoad.programSet.regionsSet
    let d := if d.cycStarts = 0 then d else d.ttBuild
    let d := d.setBit Reg.SCC_CTL 1 true
    let d := ((d.canStart 0).canStart 1).canProfileSet
    let d := d.wdtoSend.healTry
    let d := (d.start Tm.service).start Tm.window
    let d := (List.range 11).foldl (fun (d : Dev) n => d.start (Tm.test n)) d
    let d := d.homeAll
    if d.bit Reg.CYC_CTL 4 then d.progStart else d

/-! ### Commands -/

/-- Reset release: bring-up, with what an enumeration finds where the ring's links come up. -/
def execBringUp (found : Option (Byte × List EnumNode × BitVec 24)) (s : State) : Host.Outcome State Fault Refusal :=
  s.lift (fun d => d.bringUp found)

/-- System firmware reaches full service. -/
def execFullService (s : State) : Host.Outcome State Fault Refusal := s.lift (fun d => d.fullService)

end Sys2Proof.Machine
end

