-- ==== Sys2Proof/Machine/Power.lean ====
section
/-! DEFINITION. Power: the feeds, Hold-up and flush mode, the bank, the states of Table 22.1, the causes of resets, the
always-on save, and the twin-resync reset (R400, R410, R484, R520 to R531, R536). -/

namespace Sys2Proof.Machine

/-! ### Feeds (R520) -/

/-- Timer: since when a feed has been good, FA and FB (R524). -/
abbrev Tm.feed (fb : Bool) : Nat := 60 + b2n fb

/-- The bit of PWR_STAT that shows a feed good. -/
def feedBit (fb : Bool) : Nat := if fb then 4 else 3

/-- A feed is good. -/
def Dev.feedsGood (d : Dev) : Bool := d.bit Reg.PWR_STAT 3 || d.bit Reg.PWR_STAT 4

/-- PWR_FEED shows the voltage of a feed. -/
def Dev.feedShow (d : Dev) (fb : Bool) (mv : Nat) : Dev :=
  if fb then d.setFld Reg.PWR_FEED 31 16 mv else d.setFld Reg.PWR_FEED 15 0 mv

/-! ### The always-on save (R531) and the wear totals (R549) -/

/-- PWR_CYCCNT and PWR_OPT go to MRAM as one unit; a closed controller takes none. -/
def Dev.alwaysOnSave (d : Dev) : Dev :=
  let d := d.start Tm.save
  if d.nvc.closedTherm || d.nvc.closedBank then d
  else d.nvcUrgent .save (leBytes 4 (d.rd Reg.PWR_CYCCNT).toNat ++ leBytes 4 (d.rd Reg.PWR_OPT_LO).toNat ++ leBytes 2 (d.fld Reg.PWR_OPT_HI 15 0))

/-- Ledger header copy `k` (R539). -/
def ledgerHead (k : Nat) : Nat := 0x20600000 + 2048 * k

/-- Header copy `k` checks. -/
def Dev.ledgerOk (d : Dev) (k : Nat) : Bool := d.word (ledgerHead k + 2044) = crc32c (d.bytes (ledgerHead k) 2044)

/-- The header copy that counts (R205). -/
def Dev.ledgerPick (d : Dev) : Option Nat :=
  newestOf (d.ledgerOk 0) (d.ledgerOk 1) (d.word (ledgerHead 0)) (d.word (ledgerHead 1))

/-- Word `i` of the header that counts; zero without one. -/
def Dev.ledgerW (d : Dev) (i : Nat) : Nat := match d.ledgerPick with | some k => (d.word (ledgerHead k + 4 * i)).toNat | none => 0

/-- The MRAM bursts of a region since the ledger last took its counter. -/
def Dev.wearSince (d : Dev) (i : Nat) : Nat :=
  let now := (d.rd (Reg.NVC_MWEAR i)).toNat
  let old := d.ledgerW (7 + i)
  if old ≤ now then now - old else now

/-- The header with a record count and the first record; the wear totals go on (R539, R549; layout: log entry 140). -/
def Dev.ledgerSave (d : Dev) (count : Nat) (first : List Byte) : Dev :=
  let (k, seq) : Nat × Nat := match d.ledgerPick with | some k => (1 - k, d.ledgerW 0 + 1) | none => (0, 1)
  let total := (List.range 5).map (fun i => nw (satN 0xFFFFFFFF (d.ledgerW (2 + i) + d.wearSince i)))
  let seen := (List.range 5).map (fun i => d.rd (Reg.NVC_MWEAR i))
  let body := fitBytes 2044 (fitBytes 64 (leBytes 4 seq ++ leBytes 4 count ++ wordsBytes total ++ wordsBytes seen) ++ first)
  d.mramWrite (ledgerHead k) (body ++ leBytes 4 (crc32c body).toNat)

/-- The first record as the header keeps it. -/
def Dev.ledgerFirst (d : Dev) : List Byte := match d.ledgerPick with | some k => d.bytes (ledgerHead k + 64) 128 | none => List.replicate 128 0

/-- System firmware adds the wear counters to its totals. -/
def Dev.wearTotals (d : Dev) : Dev := if d.pwr.full then d.ledgerSave (d.ledgerW 1) d.ledgerFirst else d

/-! ### Hold-up (R522 to R524) -/

/-- The control-engine slots stop and every PWM pair is blocked by its EN. -/
def Dev.convertOff (d : Dev) : Dev :=
  let d := d.pwmCtl (d.rd Reg.PWM_CTL &&& 0xFFFFFFF0)
  (List.range 8).foldl (fun (d : Dev) s => d.slotDrop s) d

/-- Flush mode stops the program, and with it an armed online change (Table 22.3). -/
def Dev.programShed (d : Dev) : Dev :=
  let runs := d.cycState = 2 || d.cycState = 4
  let d := if d.cycState = 4 then (d.setFld Reg.CYC_STAT 2 0 2).stop Tm.switch else d
  let d := d.progStop
  let d := { d with cyc := { d.cyc with armed := none, switchAfter := none }, fio := { d.fio with warmHold := false }, pwr := { d.pwr with progHeld := runs } }
  d.setFld Reg.CYC_OCSTAT 1 0 0

/-- Flush mode begins: FLUSHM, entry 0xC011, and the load is shed. -/
def Dev.flushMode (d : Dev) : Dev :=
  if d.bit Reg.PWR_STAT 6 then d
  else (((d.setBit Reg.PWR_STAT 6 true).hw 0xC011 []).programShed.convertOff).fansWatch

/-- Entry to Hold-up: the Storeroom write with its flush, FAIL, entry 0xC010, 0xC013 while the bank is not charged, the
always-on save, and RIDE; a module that writes no Storeroom flushes at once. -/
def Dev.holdEntry (d : Dev) : Dev :=
  let d := { d with pwr := { d.pwr with holdFrom := d.pwrState } }
  let d := (d.setFld Reg.PWR_STAT 15 13 4).flag Reg.PWR_STAT 1
  let d := if d.leads && d.pwr.full then d.stoAsk 5 else d.flushReq
  let d := (d.sendFail 4).hw 0xC010 []
  let d := if d.bit Reg.PWR_STAT 5 then d else d.hw 0xC013 []
  let d := d.alwaysOnSave.wearTotals
  let d := d.start Tm.ride
  if d.fld Reg.PWR_HUCFG 31 16 = 0 then d.flushMode else d

/-- The states from which Hold-up is entered. -/
def Dev.holdFromHere (d : Dev) : Bool := d.pwrState = 1 || d.pwrState = 2 || d.pwrState = 3 || d.pwrState = 7

/-- A feed is lost. -/
def Dev.feedLost (d : Dev) (fb : Bool) (mv : Nat) : Dev :=
  let was := d.bit Reg.PWR_STAT (feedBit fb)
  let d := ((d.feedShow fb mv).setBit Reg.PWR_STAT (feedBit fb) false).stop (Tm.feed fb)
  if was = false || d.asleep then d
  else
    let d := (d.flag Reg.PWR_STAT 0).hw 0xC001 [nw (b2n fb)]
    if d.feedsGood || !d.holdFromHere then d else d.holdEntry

/-- RIDE has run. -/
def Dev.rideExpiry (d : Dev) : Dev :=
  if d.pwrState = 4 && d.due Tm.ride (msT (d.fld Reg.PWR_HUCFG 31 16)) then d.flushMode else d

/-- System firmware enables the PWM pairs again from their block (log entry 142). -/
def Dev.convertBack (d : Dev) : Dev :=
  match getO d.managed Reg.PWM_CTL with
  | some v => if !d.manages (blockOf Reg.PWM_CTL) then d else d.pwmCtl v
  | none => d

/-- Hold-up ends: the state it was entered from, entry 0xC012, and the program that flush mode had stopped under AUTORUN. -/
def Dev.holdLeave (d : Dev) : Dev :=
  let st := if d.pwr.holdFrom = 2 || d.pwr.holdFrom = 3 then (if d.bit Reg.HLT_STAT 1 then 3 else 2) else d.pwr.holdFrom
  let flushed := d.bit Reg.PWR_STAT 6
  let held := d.pwr.progHeld
  let d := ((d.setFld Reg.PWR_STAT 15 13 st).setBit Reg.PWR_STAT 6 false).stop Tm.ride
  let d := { d with pwr := { d.pwr with progHeld := false } }
  let d := (d.setBit Reg.HLT_STAT 0 (st = 3)).hw 0xC012 []
  let d := if flushed then d.convertBack.fansWatch else d
  if held && d.bit Reg.CYC_CTL 4 then d.progStart else d

/-- A feed has stayed good for RETDB in Hold-up. -/
def Dev.holdReturn (d : Dev) : Dev :=
  let n := d.fld Reg.PWR_HUCFG 15 0
  if d.pwrState = 4 && [false, true].any (fun f => d.bit Reg.PWR_STAT (feedBit f) && d.due (Tm.feed f) (msT n)) then d.holdLeave else d

/-- A feed becomes good; with a RETDB of zero Hold-up ends at once. -/
def Dev.feedGood (d : Dev) (fb : Bool) (mv : Nat) : Dev :=
  let was := d.bit Reg.PWR_STAT (feedBit fb)
  let d := (d.feedShow fb mv).setBit Reg.PWR_STAT (feedBit fb) true
  if was then d
  else
    let d := d.start (Tm.feed fb)
    if d.asleep then d
    else
      let d := d.hw 0xC002 [nw (b2n fb)]
      if d.fld Reg.PWR_HUCFG 15 0 = 0 then d.holdReturn else d

/-! ### The bank (R521, R523) -/

/-- The bank reaches 24.0 V. -/
def Dev.bankCharged (d : Dev) : Dev :=
  if d.pwrState = 4 then d else (d.wr Reg.PWR_BANK 24000).setBit Reg.PWR_STAT 5 true

/-- The bank falls to 11.0 V: the controller closes and the contactors open once. -/
def Dev.bankClose (d : Dev) : Dev :=
  if d.pwrState != 4 || d.bit Reg.PWR_STAT 2 then d
  else (((d.wr Reg.PWR_BANK 11000).setBit Reg.PWR_STAT 2 true).nvcClose true).openReq

/-- The unit in progress ends, then the units that run ahead of the queue. -/
def Dev.unitsOut (d : Dev) : Nat → Dev
  | 0 => d
  | n + 1 => if d.unitRuns then Dev.unitsOut (d.nvcUnit true) n else d

/-- The bank falls to 10.0 V: the mark is written as the one remaining unit, and the module goes Off. -/
def Dev.bankOut (d : Dev) : Dev :=
  if d.pwrState != 4 then d
  else
    let d := if d.nvc.closedBank then d else d.bankClose
    let d := d.nvcUrgent .mark []
    let d := d.unitsOut (d.nvc.urgent.length + 1)
    let d := (d.wr Reg.PWR_BANK 10000).setBit Reg.PWR_STAT 5 false
    ({ d with pwr := { d.pwr with resetWait := none } }).standby 0

/-! ### Off and its end (R528, R536) -/

/-- The always-on domain takes the cycle count and the operating time back from MRAM. -/
def Dev.countsBack (d : Dev) : Dev :=
  let n := d.pwr.savedOpt
  ((d.wr Reg.PWR_CYCCNT (nw d.pwr.savedCyc)).wr Reg.PWR_OPT_LO (nw n)).wr Reg.PWR_OPT_HI (nw (n / 2 ^ 32 % 2 ^ 16))

/-- A feed is good after Off: cause 3 with the exhaustion mark, else 1. -/
def Dev.powerOn (d : Dev) : Dev :=
  if d.pwrState != 0 || d.pwr.cutMark || !d.feedsGood then d
  else if d.pwr.exhMark then d.countsBack.resetTo 3
  else d.countsBack.resetTo 1

/-- The cut of every rail but the always-on domain: unconditional, a unit in progress is interrupted, and the mark sets. -/
def Dev.thermalCut (d : Dev) : Dev :=
  if d.pwrState = 0 then d
  else
    let d := d.nvcReset true
    let d := { d with nvc := NvcSt.reset, pwr := { d.pwr with cutMark := true, resetWait := none } }
    d.standby 0

/-- The die is below 95 °C with a feed good: the restart of cause 4. -/
def Dev.thermalRestart (d : Dev) : Dev :=
  if d.pwrState = 0 && d.pwr.cutMark && d.feedsGood then d.resetTo 4 else d

/-- The internal rails have fallen while a feed was good. -/
def Dev.brownOut (d : Dev) : Dev := if d.feedsGood then d.resetTo 2 else d

/-! ### Standby (R484, R527) -/

/-- The end of the entry to Standby (idle) after its Storeroom write. -/
def Dev.idleEnd (d : Dev) : Dev :=
  if d.stoDone then ((d.setTr 0).ringSleep.fw 0xC040 []).standby 5 else d

/-- The conditions have held for PWR_IDLETO: the steps of R209 from the Storeroom write with reason 6 onward, entry 0xC040,
Standby (idle). -/
def Dev.idleEntry (d : Dev) : Dev :=
  let n := d.fld Reg.PWR_IDLETO 15 0
  let runs := d.pwrState = 2 || d.pwrState = 3
  if runs = false then d
  else if d.est.trPhase = 3 then d.idleEnd
  else if n != 0 && d.idleOk && d.est.trPhase = 0 && d.due Tm.idle (secT (60 * n)) then (((d.setTr 3).stoAsk 6).stoService).idleEnd
  else d

/-- An SMBus address byte matches. -/
def Dev.wakeMatch (d : Dev) (a : Nat) : Bool := d.bit Reg.SMB_CFG 0 && (d.smbSlot a).isSome

/-- A wake source acts: 0 WAKE_CHG, 1 an SMBus address match, 2 VBUS.  Standby (idle) takes the sources that PWR_WAKE
enables; Standby (transport) takes WAKE_CHG, and a match while TWAKE is 1. -/
def Dev.wakeBy (d : Dev) (source a : Nat) : Dev :=
  let ok := source != 1 || d.wakeMatch a
  let d := if source = 2 then d.setBit Reg.SVC_STAT 0 true else d
  if d.pwrState = 5 && source < 3 && d.bit Reg.PWR_WAKE source && ok then d.resetTo 5
  else if d.pwrState = 6 && (source = 0 || (source = 1 && d.bit Reg.SMB_CFG 4)) && ok then d.resetTo 5
  else d

/-- WAKE_CHG shows its level through the latch, and wakes the module while it is active. -/
def Dev.wakeChg (d : Dev) (active : Bool) : Dev :=
  let d := { d with pins := { d.pins with wakeChg := active } }
  if active then d.wakeBy 0 0 else d

/-! ### Warm resets (R528, R529, R400, R410) -/

/-- TO has passed without a kick. -/
def Dev.watchdogOut (d : Dev) : Dev :=
  let n := d.fld Reg.PWR_WDT 15 0
  if n != 0 && d.due Tm.wdt (msT n) then d.resetAsk 8 else d

/-- RST_N has been low for 10 µs, and holds the module until it rises. -/
def Dev.rstN (d : Dev) (high : Bool) : Dev :=
  if high then { d with pwr := { d.pwr with rstHeld := false } }
  else if d.asleep then d
  else ({ d with pwr := { d.pwr with rstHeld := true } }).resetAsk 10

/-- The twin-resync reset: of a shade that has dropped, or of a joining module whose Attic holds the pair's image, which
becomes pending when it passes R511. -/
def Dev.resyncReset (d : Dev) : Dev :=
  if d.role != 2 then d
  else if d.running Tm.drop then d.resetAsk 11
  else if d.tw.newImg then
    if d.slotOk 2 (d.attic 2) then
      let r := d.slotRecord
      (d.slotSave (recOf (recFwAct r) (recFwPend r) (recTrial r) (recPgAct r) true)).resetAsk 11
    else { d with tw := { d.tw with newImg := false } }
  else d

/-! ### Commands -/

/-- A feed has stayed below 2.4 V for 200 µs. -/
def execFeedLost (fb : Bool) (mv : BitVec 16) (s : State) : Host.Outcome State Fault Refusal := s.always (fun d => d.feedLost fb mv.toNat)

/-- A feed has stayed at or above 2.6 V for 1 ms. -/
def execFeedGood (fb : Bool) (mv : BitVec 16) (s : State) : Host.Outcome State Fault Refusal := s.always (fun d => d.feedGood fb mv.toNat)

/-- RIDE ms after entry. -/
def execRideExpiry (s : State) : Host.Outcome State Fault Refusal := s.lift (fun d => d.rideExpiry)

/-- The bank is charged. -/
def execBankCharged (s : State) : Host.Outcome State Fault Refusal := s.lift (fun d => d.bankCharged)

/-- The bank at 11.0 V. -/
def execBankNvClose (s : State) : Host.Outcome State Fault Refusal := s.lift (fun d => d.bankClose)

/-- The bank at 10.0 V. -/
def execBankExhausted (s : State) : Host.Outcome State Fault Refusal := s.lift (fun d => d.bankOut)

/-- RETDB ms with a good feed. -/
def execHoldUpReturn (s : State) : Host.Outcome State Fault Refusal := s.lift (fun d => d.holdReturn)

/-- The idle delay has run. -/
def execStandbyIdleEntry (s : State) : Host.Outcome State Fault Refusal := s.lift (fun d => d.idleEntry)

/-- A wake source in Standby; `adr` is the address byte's address for source 1. -/
def execStandbyWake (source : BitVec 2) (adr : BitVec 7) (s : State) : Host.Outcome State Fault Refusal :=
  s.always (fun d => d.wakeBy source.toNat adr.toNat)

/-- WAKE_CHG changes. -/
def execWakeChg (active : Bool) (s : State) : Host.Outcome State Fault Refusal := s.always (fun d => d.wakeChg active)

/-- A feed good after Off. -/
def execPowerOn (s : State) : Host.Outcome State Fault Refusal := s.always (fun d => d.powerOn)

/-- The internal rails leave their limits. -/
def execBrownOut (s : State) : Host.Outcome State Fault Refusal := s.lift (fun d => d.brownOut)

/-- A write of PWR_WDT with the kick. -/
def execWatchdogKick (src : Writer) (v : Word) (s : State) : Host.Outcome State Fault Refusal :=
  s.lift (fun d => d.gate src Reg.PWR_WDT (fun d => d.wdtWrite (withField v 31 24 0xA5)))

/-- The system watchdog expires. -/
def execWatchdogExpiry (s : State) : Host.Outcome State Fault Refusal := s.lift (fun d => d.watchdogOut)

/-- A write of PWR_CTL with SWRST. -/
def execSoftwareReset (src : Writer) (v : Word) (s : State) : Host.Outcome State Fault Refusal :=
  s.lift (fun d => d.gate src Reg.PWR_CTL (fun d => d.pwrCtl (withBit v 0 true)))

/-- A write of PWR_CTL with STBY. -/
def execStby (src : Writer) (v : Word) (s : State) : Host.Outcome State Fault Refusal :=
  s.lift (fun d => d.gate src Reg.PWR_CTL (fun d => d.pwrCtl (withBit v 4 true)))

/-- RST_N has been low for 10 µs, or rises. -/
def execRstNReset (high : Bool) (s : State) : Host.Outcome State Fault Refusal := s.always (fun d => d.rstN high)

/-- The always-on sensor reaches 135 °C. -/
def execThermalCut (s : State) : Host.Outcome State Fault Refusal := s.always (fun d => d.thermalCut)

/-- The always-on sensor reads below 95 °C. -/
def execThermalRestart (s : State) : Host.Outcome State Fault Refusal := s.always (fun d => d.thermalRestart)

/-- 10 s since the last save. -/
def execAlwaysOnSave (s : State) : Host.Outcome State Fault Refusal :=
  s.lift (fun d => if d.running Tm.save && !d.due Tm.save (secT 10) then d else d.alwaysOnSave)

/-- The twin-resync reset. -/
def execTwinResyncReset (s : State) : Host.Outcome State Fault Refusal := s.lift (fun d => d.resyncReset)

end Sys2Proof.Machine
end

