-- ==== Sys2Proof/Machine/Health.lean ====
section
/-! DEFINITION. Health: die temperature and its levels, in-service tests, and the ageing ledger with its re-planning (R534 to
R540). -/

namespace Sys2Proof.Machine

/-! ### Die temperature (R534, R536) -/

/-- Degrees Celsius in the unit of the sensors. -/
def degC (n : Int) : Int := 128 * n

/-- The greatest of a list of numbers, at least `lo`. -/
def maxI (lo : Int) (l : List Int) : Int := l.foldl (fun m x => if m < x then x else m) lo

/-- A sensor is excluded: it differs from the mean of the third and fourth reading by more than 10 °C. -/
def excluded (s : List Int) (t : Int) : Bool :=
  decide (2560 < (2 * t - (nthI s 2 + nthI s 3)).natAbs)

/-- One sensor's register, and SENSX with entry 0xC033 where an exclusion begins. -/
def Dev.sensorSet (d : Dev) (i : Nat) (t : Int) (ex : Bool) : Dev :=
  let was := d.bit (Reg.HLT_TSENS i) 31
  let d := d.wr (Reg.HLT_TSENS i) (nw (2147483648 * b2n ex + (t % 65536).toNat))
  if ex && !was then (d.flag Reg.HLT_STAT 3).hw 0xC033 [nw i] else d

/-- Ochre thermal: class 14, Throttled, and entry 0xC030 at the onset. -/
def Dev.ochreTherm (d : Dev) (on : Bool) : Dev :=
  if d.bit Reg.HLT_STAT 1 = on then d
  else
    let d := d.setBit Reg.HLT_STAT 1 on
    let d := if on && d.pwrState = 2 then d.setFld Reg.PWR_STAT 15 13 3 else if !on && d.pwrState = 3 then d.setFld Reg.PWR_STAT 15 13 2 else d
    let d := d.setBit Reg.HLT_STAT 0 (d.pwrState = 3)
    let d := if on then d.hw 0xC030 [] else d
    d.srcOchre 14 on

/-- Crimson thermal: class 14 latches, the flush enters ahead of the closing of the controller, a duty sends FAIL with
cause 3, and entry 0xC031 is made at the onset; its end lets the controller accept again. -/
def Dev.crimTherm (d : Dev) (on : Bool) : Dev :=
  if d.bit Reg.HLT_STAT 2 = on then d
  else
    let d := (d.setBit Reg.HLT_STAT 2 on).srcCond 14 on
    if on then
      let d := (d.hw 0xC031 []).crim 14
      (d.flushReq.nvcClose false).sendFail 3
    else d.nvcReopen

/-- The 5 °C bin of a die temperature, from 0 °C to 130 °C. -/
def dieBin (t : Int) : Nat := (clampI 0 25 (t / 640)).toNat

/-- A measurement of the six sensors. -/
def Dev.dieMeasure (d : Dev) (l : List Int) : Dev :=
  let s := l.foldl (fun a x => insertI x a) []
  let d := l.zipIdx.foldl (fun (d : Dev) e => d.sensorSet e.2 e.1 (excluded s e.1)) d
  let kept := l.filter (fun t => !excluded s t)
  let few := decide (kept.length < 3)
  let t := maxI (-32768) (if few then l else kept)
  let d := d.wr Reg.HLT_TDIE (nw (t % 65536).toNat)
  let d := if sx 16 (d.rd Reg.HLT_TMAX).toNat < t then d.wr Reg.HLT_TMAX (nw (t % 65536).toNat) else d
  let d := { d with hlt := { d.hlt with hist := putN d.hlt.hist (dieBin t) (getN d.hlt.hist (dieBin t) + 1) } }
  let d := d.ochreTherm (if d.bit Reg.HLT_STAT 1 then decide (degC 105 ≤ t) else decide (degC 110 ≤ t))
  d.crimTherm (few || (if d.bit Reg.HLT_STAT 2 then decide (degC 120 ≤ t) else decide (degC 125 ≤ t)))

/-! ### In-service tests (R538) -/

/-- The interval of a test in seconds; 0 none (Table 22.6). -/
def Dev.testInterval (d : Dev) (n : Nat) : Nat :=
  if n = 1 then 600 else if n = 2 then d.fld Reg.SWP_OWCFG 31 16 else if n = 5 || n = 7 then 3600 else 86400

/-- Test 8 needs both feeds and a charged bank. -/
def Dev.testOk (d : Dev) (n : Nat) : Bool :=
  1 ≤ n && n ≤ 10 && (n != 8 || (d.bit Reg.PWR_STAT 3 && d.bit Reg.PWR_STAT 4 && d.bit Reg.PWR_STAT 5))

/-- The interval of test `n` has passed without a run: entry 0xC071, once until it runs. -/
def Dev.testMissed (d : Dev) (n : Nat) : Dev :=
  let i := d.testInterval n
  if i != 0 && d.testOk n && d.due (Tm.test n) (secT i + 1) && !getB d.hlt.missed n then
    ({ d with hlt := { d.hlt with missed := putB d.hlt.missed n true } }).fw 0xC071 [nw n]
  else d

/-- No idle window has opened for 24 h: tests run in slices, and entry 0xC071 is made once. -/
def Dev.slicing (d : Dev) : Bool := d.due Tm.window (secT 86400)

/-- Test 3 is LIM_TEST on every entry (R164); `bad` gives, by entry, the comparisons that fail. -/
def Dev.limTestAll (d : Dev) (bad : List (Nat × Int)) : Dev :=
  if d.manages 10 then
    (List.range 2048).foldl (fun (d : Dev) i =>
      d.limTest (nw (2 ^ 31 + i)) (BitVec.ofInt 4 (((bad.find? (fun e => e.1 = i)).map (fun e => e.2)).getD 0))) d
  else d

/-- Test 5 reads every word of SRAM: single-bit errors are corrected, counted and rewritten, and uncorrectable ones
counted (Table 22.6). -/
def Dev.scrub (d : Dev) : Dev :=
  let d := d.corr.foldl (fun (d : Dev) _ => d.satInc Reg.HLT_ECCCNT 15 0) d
  let d := d.ecc.foldl (fun (d : Dev) _ => d.satInc Reg.HLT_ECCCNT 31 16) d
  { d with corr := [] }

/-- A test has run; a failed one sets HLT_TESTSTAT with entry 0xC070, and its values wait for the daily record. -/
def Dev.testRun (d : Dev) (n : Nat) (pass : Bool) (vals : List (Nat × Int)) : Dev :=
  if d.pwr.full = false then d
  else
    let d := (List.range 11).foldl (fun (d : Dev) k => d.testMissed k) d
    let d := if d.slicing && !d.running Tm.sliced then (d.start Tm.sliced).fw 0xC071 [0] else d
    if d.testOk n = false || !(d.bit Reg.TT_STAT 5 || d.slicing) then d
    else
      let d := { d.start (Tm.test n) with hlt := { d.hlt with missed := putB d.hlt.missed n false, vals := if n = 3 then d.hlt.vals else d.hlt.vals ++ vals } }
      let d := if n = 3 then d.limTestAll (if pass then [] else vals) else d
      let d := if n = 5 then d.scrub else d
      if pass then d else (d.wr Reg.HLT_TESTSTAT (nw (0x80000000 + n))).fw 0xC070 [nw n]

/-! ### The ledger (R539) -/

/-- The quantities of Table 22.7, in its order. -/
abbrev Qty.cap : Nat := 1
abbrev Qty.esr : Nat := 2
abbrev Qty.osc : Nat := 3
abbrev Qty.ref : Nat := 4
abbrev Qty.nor : Nat := 5
abbrev Qty.margin : Nat := 6
abbrev Qty.sw : Nat := 7

/-- A word of a record without a value. -/
abbrev noValue : Int := -2147483648

/-- Ring record `i` (8,160 records of 128 bytes after the header area). -/
def ledgerAt (i : Nat) : Nat := 0x20601000 + 128 * (i % 8160)

/-- The erase count of each NOR sector. -/
def Dev.norCounts (d : Dev) : List Nat := (List.range 1024).map (fun s => (d.word (0x20713000 + 4 * s)).toNat)

/-- The value of quantity `q` for the day: the median of its tests, for wear the greatest erase count. -/
def Dev.dayValue (d : Dev) (q : Nat) : Int :=
  if q = Qty.nor then (d.norCounts.foldl max 0 : Nat)
  else
    let l := d.hlt.vals.filterMap (fun e => if e.1 = q then some e.2 else none)
    if l.isEmpty then noValue else medianI l

/-- The string medians of the latest impedance factors of the cells (R231). -/
def Dev.factorMedian (d : Dev) (hi : Bool) : Int :=
  let l := (List.range 640).filterMap (fun c =>
    (getO d.est.daily (64 * c + (d.est.day + 63) % 64)).map (fun w => ((if hi then fieldOf w 31 16 else fieldOf w 15 0 : Nat) : Int)))
  if l.isEmpty then noValue else medianI l

/-- The 128 bytes of a record (layout: log entry 140): day, operating time in s, the seven quantities, the drop-out median in
µs with the last four steps of the latest zero-current opening's mirror contacts above it, a nibble each, two factor medians, five MRAM totals, the NOR total, 26 bins in minutes, CRC-32C. -/
def Dev.ledgerRecord (d : Dev) : List Byte :=
  let drop : Int :=
    match d.scc.tests.getLast? with
    | none => noValue
    | some e => medianI (d.scc.tests.map (fun t => ((t.1 : Nat) : Int))) + 65536 * ((e.2.foldl (fun a v => (16 * a + v) % 65536) 0 : Nat) : Int)
  let qs := (List.range 7).map (fun i => iw (d.dayValue (i + 1)))
  let wear := (List.range 5).map (fun i => nw (satN 0xFFFFFFFF (d.ledgerW (2 + i) + d.wearSince i)))
  let bins := (List.range 26).flatMap (fun b => leBytes 2 (satN 65535 (getN d.hlt.hist b / 60000)))
  let body := wordsBytes ([nw (d.opSec / 86400), nw d.opSec] ++ qs ++ [iw drop, iw (d.factorMedian true), iw (d.factorMedian false)]
    ++ wear ++ [nw (d.norCounts.foldl (· + ·) 0)]) ++ bins
  let body := fitBytes 124 body
  body ++ leBytes 4 (crc32c body).toNat

/-- The record `i` checks. -/
def Dev.recordGood (d : Dev) (i : Nat) : Bool := d.word (ledgerAt i + 124) = crc32c (d.bytes (ledgerAt i) 124)

/-- The points of quantity `q` in the last 365 of `count` records: day and value. -/
def Dev.trend (d : Dev) (count q : Nat) : List (Int × Int) :=
  (List.range (min 365 count)).filterMap (fun j =>
    let i := count - 1 - j
    let v := (d.word (ledgerAt i + 4 * (q + 1))).toInt
    if d.recordGood i && decide (v ≠ noValue) then some (((d.word (ledgerAt i)).toNat : Int), v) else none)

/-! ### Re-planning (R540, Table 22.7) -/

/-- A straight line through points by least squares, as sums: n, Sx, Sy, the slope's numerator, and its denominator. -/
structure Line where
  n : Int
  sx : Int
  sy : Int
  k : Int
  den : Int
deriving DecidableEq, Repr

/-- The line of a list of points (PRESUMED: log entry 143). -/
def lineOf (l : List (Int × Int)) : Line :=
  let n : Int := l.length
  let s (f : Int × Int → Int) : Int := l.foldl (fun a p => a + f p) 0
  let x := s (fun p => p.1)
  let y := s (fun p => p.2)
  { n := n, sx := x, sy := y, k := n * s (fun p => p.1 * p.2) - x * y, den := n * s (fun p => p.1 * p.1) - x * x }

/-- n · den times the line's value at day `x`. -/
def Line.at (a : Line) (x : Int) : Int := a.sy * a.den + a.k * (a.n * x - a.sx)

/-- The limit of a quantity, and whether values above it are good. -/
def qtyLimit (q : Nat) : Int × Bool :=
  if q = Qty.cap then (7500, true) else if q = Qty.esr then (20000, false) else if q = Qty.osc then (40000, false)
  else if q = Qty.ref then (1000, false) else if q = Qty.nor then (100000, false) else if q = Qty.margin then (25, true) else (20000, false)

/-- A value as its limit judges it: corrections and drifts by magnitude. -/
def qtyMag (q : Nat) (v : Int) : Int := if q = Qty.osc || q = Qty.ref then v.natAbs else v

/-- `v` lies beyond the limit, each scaled by a positive number. -/
def beyond (q : Nat) (scale v : Int) : Bool :=
  let (l, up) := qtyLimit q
  if up then decide (v < l * scale) else decide (l * scale < qtyMag q v)

/-- Days from `x` until a line crosses the limit of `q`, in 0.1 year; none when it does not. -/
def Line.until (a : Line) (q : Nat) (x : Int) : Option Nat :=
  let (l, up) := qtyLimit q
  let now := a.at x
  let flip := (q = Qty.osc || q = Qty.ref) && decide (now < 0)
  let gap := if flip then -l * (a.n * a.den) - now else l * (a.n * a.den) - now
  let rate := a.n * a.k
  let toward := if up || flip then decide (rate < 0) else decide (0 < rate)
  if toward then
    let days := gap / rate
    some (if days < 0 then 0 else (days * 1000 / 36525).toNat)
  else none

/-- RIDE in ms for an energy in µJ. -/
def rideFor (e : Nat) : Nat := min 65535 (9 * (e - 9570000) / 140000)

/-- A raised setting: above the present one, up to the bound, by an amount that the spec leaves open. -/
def raised (free cur top : Nat) : Nat := if top ≤ cur then cur else cur + 1 + free % (top - cur)

/-- What Table 22.7 re-plans for a quantity, with entry 0xC061. -/
def Dev.replan (d : Dev) (q : Nat) : Dev :=
  let cap : Int := d.dayValue Qty.cap
  let e : Nat := if cap < 0 then 13506750 else (13506750 * cap.toNat) / 10000
  let d :=
    if q = Qty.cap then d.sysSetFld Reg.PWR_HUCFG 31 16 (rideFor e)
    else if q = Qty.esr then
      let (k, d) := d.nextFree
      d.sysSetFld Reg.PWR_HUCFG 31 16 (rideFor (e - Config.free k))
    else if q = Qty.osc then
      let (k, d) := d.nextFree
      let n := (d.rd Reg.TIM_HOLDTO).toNat
      if !d.manages (blockOf Reg.TIM_HOLDTO) then d else d.timHoldTo (nw (min n (Config.free k)))
    else if q = Qty.ref then
      let (k, d) := d.nextFree
      (List.range 6).foldl (fun (d : Dev) n => d.sysWr (Reg.SDM_OFS n) (nw (Config.free (k + n))))
        { d with freeCount := d.freeCount + 5 }
    else if q = Qty.nor then
      let (k, d) := d.nextFree
      let per := fieldOf (d.managedW Reg.REC_FLPER) 15 0
      let th := fieldOf (d.managedW Reg.REC_FLTH) 10 0
      let d := d.sysSetFld Reg.REC_FLPER 15 0 (raised (Config.free k) (d.fld Reg.REC_FLPER 15 0) (min 65535 (4 * per)))
      d.sysSetFld Reg.REC_FLTH 10 0 (raised (Config.free k) (d.fld Reg.REC_FLTH 10 0) (min 960 (4 * th)))
    else if q = Qty.sw then d.sysSetFld Reg.FIO_OLIM 7 0 (max (min 1 (d.fld Reg.FIO_OLIM 7 0)) (d.fld Reg.FIO_OLIM 7 0 / 2))
    else d
  d.fw 0xC061 [nw q]

/-- One quantity at a daily record: its present value, the projection to the 40-year mark, and the time to its limit. -/
def Dev.planOne (d : Dev) (count q : Nat) : Dev × Option Nat :=
  let v := d.dayValue q
  let d := if decide (v ≠ noValue) && beyond q 1 v then (d.flag Reg.HLT_STAT 5).fw 0xC062 [nw q] else d
  let a := lineOf (d.trend count q)
  if a.den ≤ 0 then (d, none)
  else
    let scale := a.n * a.den
    let t := a.until q ((d.opSec / 86400 : Nat) : Int)
    if beyond q scale (a.at 14610) then (d.replan q, t) else (d, t)

/-- The sooner of two times, either of which may be absent. -/
def sooner : Option Nat → Option Nat → Option Nat
  | some x, some y => some (min x y)
  | none, t => t
  | some x, none => some x

/-- The daily record at the first idle window after 24 h of operation. -/
def Dev.ledgerDaily (d : Dev) : Dev :=
  let ms := (d.rd Reg.PWR_OPT_LO).toNat + 2 ^ 32 * d.fld Reg.PWR_OPT_HI 15 0
  if d.pwr.full = false || d.bit Reg.TT_STAT 5 = false || ms < d.hlt.dayAt + 86400000 then d
  else
    let count := d.ledgerW 1
    let r := d.ledgerRecord
    let d := d.mramWrite (ledgerAt count) r
    let d := d.ledgerSave (count + 1) (if count = 0 then r else d.ledgerFirst)
    let d := d.fw 0xC060 []
    let (d, eol) := (List.range 7).foldl (fun (a : Dev × Option Nat) i =>
      let (d, t) := a.1.planOne (count + 1) (i + 1)
      (d, sooner a.2 t)) (d, none)
    let d := d.wr Reg.HLT_EOL (nw (min 65535 (eol.getD 65535)))
    { d with hlt := { d.hlt with vals := [], hist := [], dayAt := ms }, scc := { d.scc with tests := [] } }

/-! ### Commands -/

/-- A measurement of the six die sensors, in 1/128 °C. -/
def execDieMeasurement (t0 t1 t2 t3 t4 t5 : BitVec 16) (s : State) : Host.Outcome State Fault Refusal :=
  s.lift (fun d => d.dieMeasure [t0.toInt, t1.toInt, t2.toInt, t3.toInt, t4.toInt, t5.toInt])

/-- An in-service test has run, with the values that it gives by quantity of Table 22.7. -/
def execInServiceTest (n : BitVec 4) (pass : Bool) (vals : List (Nat × Int)) (s : State) : Host.Outcome State Fault Refusal :=
  s.lift (fun d => d.testRun n.toNat pass vals)

/-- The daily ledger record. -/
def execLedgerRecord (s : State) : Host.Outcome State Fault Refusal := s.lift (fun d => d.ledgerDaily)

end Sys2Proof.Machine
end

