-- ==== Sys2Proof/Machine/Service.lean ====
section
/-! DEFINITION. The service port: Nypeha sessions and requests, keys, parameter blocks, resets and recovery entry (R499,
R503 to R519). -/

namespace Sys2Proof.Machine

/-! ### Sessions (R505, R506) -/

/-- SVC_STAT.LEVEL. -/
def Dev.svcLevel (d : Dev) : Nat := d.fld Reg.SVC_STAT 5 4

/-- The module is in recovery. -/
def Dev.recovering (d : Dev) : Bool := d.bit Reg.SVC_STAT 3

/-- A request opens a session at MONITOR where none is open, and restarts the idle time; it shows VBUS present
(log entry 144). -/
def Dev.sessionTouch (d : Dev) : Dev := ((d.setBit Reg.SVC_STAT 7 true).setBit Reg.SVC_STAT 0 true).start Tm.session

/-- The session ends: its level, its nonce and its debug session go. -/
def Dev.sessionEnd (d : Dev) : Dev :=
  let d := ((d.setBit Reg.SVC_STAT 7 false).setFld Reg.SVC_STAT 5 4 0).stop Tm.session
  { d with svc := { d.svc with nonce := none, debug := false } }

/-- SVC_IDLETO has passed without a request. -/
def Dev.sessionIdle (d : Dev) : Dev :=
  let n := d.fld Reg.SVC_IDLETO 15 0
  if n != 0 && d.due Tm.session (secT n) then d.sessionEnd else d

/-! ### Requests and responses (R503, R504, R507, R516) -/

/-- A response: the header of Table 21.1 with RSP set, the payload, and CRC-32C over both (R503). -/
def nypehaFrame (cmd tag status : Nat) (l : List Byte) : List Byte :=
  let m := leBytes 2 0x4E59 ++ leBytes 1 cmd ++ leBytes 1 1 ++ leBytes 2 tag ++ leBytes 2 status ++ leBytes 4 l.length
    ++ leBytes 4 0 ++ l
  m ++ leBytes 4 (crc32c m).toNat

/-- The one response to a request: its TAG, the status of Table 21.4, and the payload. -/
def Dev.respond (d : Dev) (cmd tag status : Nat) (l : List Byte) : Dev :=
  d.send .nypeha cmd (byteNats (nypehaFrame cmd tag status l))

/-- A request of Table 21.3 is served at its level; recovery serves the commands that `rom` marks, at level 0, and answers
every other with STATE. -/
def Dev.serve (d : Dev) (cmd : Nat) (tag : BitVec 16) (level : Nat) (rom : Bool) (f : Dev → Nat × List Byte × Dev) : Dev :=
  let d := d.sessionTouch
  if d.recovering && !rom then d.respond cmd tag.toNat 16 []
  else if !d.recovering && d.svcLevel < level then d.respond cmd tag.toNat 3 []
  else
    let (st, l, d) := f d
    d.respond cmd tag.toNat st l

/-- An effect that is always performed. -/
def done (f : Dev → Dev) (d : Dev) : Nat × List Byte × Dev := (0, [], f d)

/-- A status with its effect. -/
def judged (f : Dev → Nat × Dev) (d : Dev) : Nat × List Byte × Dev := ((f d).1, [], (f d).2)

/-! ### Reading -/

/-- The registers of IDENT. -/
def Dev.identBytes (d : Dev) : List Byte :=
  wordsBytes [d.rd Reg.SYS_ID, d.rd Reg.SYS_SERIAL_LO, d.rd Reg.SYS_SERIAL_HI, d.rd Reg.SYS_ROMVER, d.rd Reg.SYS_FWVER,
    d.rd Reg.SYS_COMPAT, d.rd Reg.SVC_SLOTS, d.rd Reg.SVC_KEYSTAT]

/-- A register address that a request may name. -/
def regAddr (a : Nat) : Bool := isPeriph a && mapped a && a % 4 = 0

/-- `n` registers from `a`, read in order with what their reads bring about. -/
def Dev.readRegs (d : Dev) (a : Nat) : Nat → List Word → List Word × Dev
  | 0, l => (l.reverse, d)
  | n + 1, l =>
    let (w, d) := d.periphRead a
    Dev.readRegs d (a + 4) n (w :: l)

/-- READREG: every address must name a register. -/
def Dev.readReg (d : Dev) (a n : Nat) : Nat × List Byte × Dev :=
  if 16384 < n || (List.range n).any (fun i => !regAddr (a + 4 * i)) then (4, [], d)
  else
    let (ws, d) := d.readRegs a n []
    (0, wordsBytes ws, d)

/-- READMEM: the range must lie in one region of Table 1.7. -/
def Dev.readMem (d : Dev) (a n : Nat) : Nat × List Byte × Dev :=
  if 65536 < n || !inRegion a n then (4, [], d) else (0, d.bytes a n, d)

/-! ### Writing (R508) -/

/-- The block of an address can be claimed (R26). -/
def claimable (a : Nat) : Bool := blockOf a < 32 && bitOf (0x079FF7F8 : Word) (blockOf a)

/-- WRITEREG to SVC, NVC and MPU is refused at every level. -/
def neverWritten (a : Nat) : Bool := blockOf a = 29 || blockOf a = 30 || blockOf a = 32

/-- The addresses of a WRITEREG. -/
def writeAddrs (a : Nat) (l : List Word) : List (Nat × Word) := l.zipIdx.map (fun e => (a + 4 * e.2, e.1))

/-- WRITEREG: nothing is written unless every word may be. -/
def Dev.writeReg (d : Dev) (a : Nat) (l : List Word) : Nat × List Byte × Dev :=
  let w := writeAddrs a l
  let need := if w.any (fun e => !claimable e.1) then 3 else 2
  if w.any (fun e => !regAddr e.1 || neverWritten e.1) then (4, [], d)
  else if d.svcLevel < need then (3, [], d)
  else if w.any (fun e => claimable e.1 && !d.claimEn (blockOf e.1)) then (5, [], d)
  else (0, [], w.foldl (fun (d : Dev) e => d.periphWrite (if claimable e.1 then .session else .system) e.1 e.2) d)

/-! ### Parameter blocks -/

/-- A contactor block that was accepted after LOCK waits for the next reset (R177). -/
def Dev.blkPending (d : Dev) (n : Nat) : Bool :=
  n = 1 && d.bit Reg.SCC_CTL 1 && d.managed.any (fun e => parAddr 1 e.1 && e.2.isSome && e.2 != some (d.rd e.1))

/-- PARAMREAD: the pending mark as a word, then the block. -/
def Dev.paramRead (d : Dev) (n : Nat) : Nat × List Byte × Dev :=
  if (parRegs n).isEmpty then (4, [], d) else (0, leBytes 4 (b2n (d.blkPending n)) ++ blkBytes (d.blkStored n), d)

/-! ### Authority and keys (R505, R509) -/

/-- OPEN: a fresh nonce for the wanted level. -/
def Dev.svcOpen (d : Dev) (level : Nat) : Nat × List Byte × Dev :=
  if 3 < level then (4, [], d)
  else
    let (k, d) := d.nextFree
    let n := (List.range 16).map (fun i => Config.nonce k i)
    (0, n, { d with svc := { d.svc with nonce := some (level, n) } })

/-- The serial number as signatures cover it. -/
def Dev.serialBytes (d : Dev) : List Byte := leBytes 4 (d.rd Reg.SYS_SERIAL_LO).toNat ++ leBytes 4 (d.rd Reg.SYS_SERIAL_HI).toNat

/-- AUTH: a nonce serves one AUTH; a good key and signature grant the level. -/
def Dev.svcAuth (d : Dev) (k : Nat) (xy rs : List Byte) : Nat × List Byte × Dev :=
  let n := d.svc.nonce
  let d := { d with svc := { d.svc with nonce := none } }
  match n with
  | some (level, nonce) =>
    if d.keyOk k xy && sigOk xy rs (nonce ++ d.serialBytes ++ leBytes 4 level) then
      (0, leBytes 4 level, (d.setFld Reg.SVC_STAT 5 4 level).fw 0xB001 [nw level])
    else (3, [], d.fw 0xB002 [])
  | none => (3, [], d.fw 0xB002 [])

/-- PROGKEY: a blank key takes its hash once. -/
def Dev.progKey (d : Dev) (k : Nat) (hash : List Byte) : Nat × Dev :=
  if 2 < k || hash.length != 32 then (4, d)
  else if d.bit Reg.SVC_KEYSTAT k then (16, d)
  else
    let d := { d with svc := { d.svc with keys := (k, hash) :: d.svc.keys } }
    (0, (d.setBit Reg.SVC_KEYSTAT k true).fw 0xB040 [nw k])

/-- Key `k` is programmed and not revoked. -/
def Dev.keyUsable (d : Dev) (k : Nat) : Bool := d.bit Reg.SVC_KEYSTAT k && !d.bit Reg.SVC_KEYSTAT (4 + k)

/-- REVOKE: another key signs, and one usable key must remain. -/
def Dev.revoke (d : Dev) (k j : Nat) (xy rs : List Byte) : Nat × Dev :=
  if 2 < k || 2 < j || k = j then (4, d)
  else if !((List.range 3).any (fun i => i != k && d.keyUsable i)) then (15, d)
  else if !d.keyOk j xy then (10, d)
  else if !sigOk xy rs (d.serialBytes ++ leBytes 4 0x5245564B ++ leBytes 4 k) then (9, d)
  else (0, (d.setBit Reg.SVC_KEYSTAT (4 + k) true).fw 0xB041 [nw k])

/-! ### The program, forces, trips, transport, the twin -/

/-- FORCE: the entry's words, word 1 last (R372). -/
def Dev.forceEntry (d : Dev) (n : Nat) (w0 w1 w2 w3 : Word) : Dev :=
  (((d.forceWrite n 0 w0).forceWrite n 2 w2).forceWrite n 3 w3).forceWrite n 1 w1

/-- PROGCTL 1: START where R357 takes it, else STATE. -/
def Dev.svcStart (d : Dev) : Nat × Dev :=
  if (d.cycState = 1 || d.cycState = 3) && !d.cyc.lockout && d.leads then (0, d.progStart) else (16, d)

/-- CLEARTRIP, as LIM_TRIPCLR by system firmware. -/
def Dev.svcClear (d : Dev) (mask : Word) : Dev := if d.claimed 10 then d.discard Reg.LIM_TRIPCLR else d.tripClear mask

/-- TRANSPORT: a transport request where R209 takes it. -/
def Dev.svcTransport (d : Dev) : Nat × Dev := if d.leads && d.pwr.full then (0, d.transReq) else (16, d)

/-- CLRTRANSPORT: TRANSPORT is cleared, and the Storeroom written. -/
def Dev.transportClear (d : Dev) : Dev := ({ d with est := { d.est with transport := false } }).stoAsk stoExit

/-- TWINCFG: a value of TW_CFG, or SEED, REJOIN or DEPOSE of TW_CTL. -/
def Dev.twinCfg (d : Dev) (ctl : Bool) (v : Word) : Nat × Dev :=
  if ctl then (if v &&& 0xFFFFFFE3 = 0 then (0, d.twCtl v) else (4, d))
  else (0, d.plainWrite Reg.TW_CFG v)

/-! ### Images -/

/-- The level that an image kind needs: firmware 3, program 2. -/
def kindLevel (kind : Nat) : Nat := if kind = 1 then 3 else 2

/-- The kind that a container header names. -/
def headerKind (h : List Byte) : Nat := (leWord h 8).toNat % 256

/-- The kind being staged. -/
def Dev.stageKind (d : Dev) : Nat := match d.svc.stage with | some g => g.kind | none => 0

/-! ### Recovery entry (R515) -/

/-- RESET kind 2. -/
def Dev.recoveryAsk (d : Dev) (tag : BitVec 16) : Dev :=
  if d.romWindow then ((d.sessionTouch).respond 0x60 tag.toNat 0 []).resetAsk 16
  else d.serve 0x60 tag 3 false (done (fun d => d.resetAsk 16))

/-! ### Commands -/

/-- IDENT. -/
def execIdent (tag : BitVec 16) (s : State) : Host.Outcome State Fault Refusal :=
  s.lift (fun d => d.serve 0x01 tag 0 true (fun d => (0, d.identBytes, d)))

/-- OPEN. -/
def execSvcOpen (tag : BitVec 16) (level : Byte) (s : State) : Host.Outcome State Fault Refusal :=
  s.lift (fun d => d.serve 0x02 tag 0 false (fun d => d.svcOpen level.toNat))

/-- AUTH. -/
def execAuth (tag : BitVec 16) (k : Byte) (xy rs : List Byte) (s : State) : Host.Outcome State Fault Refusal :=
  s.lift (fun d => d.serve 0x03 tag 0 false (fun d => d.svcAuth k.toNat xy rs))

/-- CLOSE. -/
def execSvcClose (tag : BitVec 16) (s : State) : Host.Outcome State Fault Refusal :=
  s.lift (fun d => d.serve 0x04 tag 0 true (done (fun d => d.sessionEnd)))

/-- READREG. -/
def execReadreg (tag : BitVec 16) (a : Word) (n : BitVec 16) (s : State) : Host.Outcome State Fault Refusal :=
  s.lift (fun d => d.serve 0x10 tag 0 true (fun d => d.readReg a.toNat n.toNat))

/-- WRITEREG; its level depends on the block. -/
def execWritereg (tag : BitVec 16) (a : Word) (words : List Word) (s : State) : Host.Outcome State Fault Refusal :=
  s.lift (fun d => d.serve 0x11 tag 0 false (fun d => d.writeReg a.toNat words))

/-- READMEM. -/
def execReadmem (tag : BitVec 16) (a n : Word) (s : State) : Host.Outcome State Fault Refusal :=
  s.lift (fun d => d.serve 0x12 tag 0 false (fun d => d.readMem a.toNat n.toNat))

/-- PARAMREAD. -/
def execParamread (tag : BitVec 16) (n : Byte) (s : State) : Host.Outcome State Fault Refusal :=
  s.lift (fun d => d.serve 0x18 tag 0 false (fun d => d.paramRead n.toNat))

/-- PARAMWRITE. -/
def execParamwrite (tag : BitVec 16) (n : Byte) (b : ParamBlock) (s : State) : Host.Outcome State Fault Refusal :=
  s.lift (fun d => d.serve 0x19 tag 2 false (judged (fun d => d.blkWrite n.toNat b)))

/-- RECREAD. -/
def execRecread (tag : BitVec 16) (first count : Word) (s : State) : Host.Outcome State Fault Refusal :=
  s.lift (fun d => d.serve 0x20 tag 0 true (fun d =>
    (0, (d.recRange first.toNat count.toNat 65536).flatMap (fun r => r.2), d)))

/-- FORCE. -/
def execForce (tag : BitVec 16) (n : Byte) (w0 w1 w2 w3 : Word) (s : State) : Host.Outcome State Fault Refusal :=
  s.lift (fun d => d.serve 0x28 tag 2 false (done (fun d => d.forceEntry n.toNat w0 w1 w2 w3)))

/-- PROGCTL 1. -/
def execProgctlStart (tag : BitVec 16) (s : State) : Host.Outcome State Fault Refusal :=
  s.lift (fun d => d.serve 0x30 tag 1 false (judged (fun d => d.svcStart)))

/-- PROGCTL 2. -/
def execProgctlStop (tag : BitVec 16) (s : State) : Host.Outcome State Fault Refusal :=
  s.lift (fun d => d.serve 0x30 tag 1 false (done (fun d => d.progStop)))

/-- CLEARTRIP. -/
def execCleartrip (tag : BitVec 16) (mask : Word) (s : State) : Host.Outcome State Fault Refusal :=
  s.lift (fun d => d.serve 0x31 tag 1 false (done (fun d => d.svcClear mask)))

/-- TRANSPORT. -/
def execTransport (tag : BitVec 16) (s : State) : Host.Outcome State Fault Refusal :=
  s.lift (fun d => d.serve 0x32 tag 1 false (judged (fun d => d.svcTransport)))

/-- CLRTRANSPORT. -/
def execClrtransport (tag : BitVec 16) (s : State) : Host.Outcome State Fault Refusal :=
  s.lift (fun d => d.serve 0x33 tag 3 false (done (fun d => d.transportClear)))

/-- STAGEOPEN; recovery takes firmware alone. -/
def execStageopen (tag : BitVec 16) (header : List Byte) (s : State) : Host.Outcome State Fault Refusal :=
  s.lift (fun d => d.serve 0x40 tag (kindLevel (headerKind header)) (headerKind header = 1) (judged (fun d => d.stageOpen header)))

/-- STAGEBLOCK. -/
def execStageblock (tag : BitVec 16) (block : List Byte) (s : State) : Host.Outcome State Fault Refusal :=
  s.lift (fun d => d.serve 0x41 tag (kindLevel d.stageKind) true (judged (fun d => d.stageBlock block)))

/-- STAGEEND. -/
def execStageend (tag : BitVec 16) (trailer : List Byte) (s : State) : Host.Outcome State Fault Refusal :=
  s.lift (fun d => d.serve 0x42 tag (kindLevel d.stageKind) true (judged (fun d => d.stageEnd trailer)))

/-- ACTIVATE. -/
def execActivate (tag : BitVec 16) (kind : Byte) (force : Bool) (s : State) : Host.Outcome State Fault Refusal :=
  s.lift (fun d => d.serve 0x43 tag (kindLevel kind.toNat) (kind = 1) (judged (fun d => d.activate kind.toNat force)))

/-- ONLINECHG; `ready` says whether the shade of a pair can switch too. -/
def execOnlinechg (tag : BitVec 16) (ready : Bool) (s : State) : Host.Outcome State Fault Refusal :=
  s.lift (fun d => d.serve 0x44 tag 2 false (judged (fun d => d.changePrepare ready)))

/-- TWINCFG. -/
def execTwincfg (tag : BitVec 16) (ctl : Bool) (v : Word) (s : State) : Host.Outcome State Fault Refusal :=
  s.lift (fun d => d.serve 0x50 tag 3 false (judged (fun d => d.twinCfg ctl v)))

/-- PROGKEY. -/
def execProgkey (tag : BitVec 16) (k : Byte) (hash : List Byte) (s : State) : Host.Outcome State Fault Refusal :=
  s.lift (fun d => d.serve 0x58 tag 3 false (judged (fun d => d.progKey k.toNat hash)))

/-- REVOKE. -/
def execRevoke (tag : BitVec 16) (k j : Byte) (xy rs : List Byte) (s : State) : Host.Outcome State Fault Refusal :=
  s.lift (fun d => d.serve 0x59 tag 3 false (judged (fun d => d.revoke k.toNat j.toNat xy rs)))

/-- RESET kind 1. -/
def execResetWarm (tag : BitVec 16) (s : State) : Host.Outcome State Fault Refusal :=
  s.lift (fun d => d.serve 0x60 tag 1 true (done (fun d => d.resetAsk 9)))

/-- RESET kind 2. -/
def execResetRecovery (tag : BitVec 16) (s : State) : Host.Outcome State Fault Refusal := s.lift (fun d => d.recoveryAsk tag)

/-- DEBUG opens or closes the debug session. -/
def execDebug (tag : BitVec 16) (on : Bool) (s : State) : Host.Outcome State Fault Refusal :=
  s.lift (fun d => d.serve 0x70 tag 2 false (done (fun d => { d with svc := { d.svc with debug := on } })))

/-- A message that is rejected, or that arrives while another is served. -/
def execNypehaReject (cmd : Byte) (tag : BitVec 16) (busy : Bool) (s : State) : Host.Outcome State Fault Refusal :=
  s.lift (fun d => d.respond cmd.toNat tag.toNat (if busy then 6 else 1) [])

/-- The commands of Table 21.3. -/
def nypehaCmd (c : Nat) : Bool :=
  [0x01, 0x02, 0x03, 0x04, 0x10, 0x11, 0x12, 0x18, 0x19, 0x20, 0x28, 0x30, 0x31, 0x32, 0x33, 0x40, 0x41, 0x42, 0x43, 0x44,
    0x50, 0x58, 0x59, 0x60, 0x70].contains c

/-- A request with a reserved CMD. -/
def execNypehaUnknownCommand (cmd : Byte) (tag : BitVec 16) (s : State) : Host.Outcome State Fault Refusal :=
  s.lift (fun d => if nypehaCmd cmd.toNat then d else d.sessionTouch.respond cmd.toNat tag.toNat 2 [])

/-- USB detach. -/
def execUsbDetach (s : State) : Host.Outcome State Fault Refusal :=
  s.lift (fun d => d.sessionEnd.setBit Reg.SVC_STAT 0 false)

/-- The idle limit of a session. -/
def execSessionIdleTimeout (s : State) : Host.Outcome State Fault Refusal := s.lift (fun d => d.sessionIdle)

/-- A write of SVC_CONFIRM. -/
def execTrialConfirm (src : Writer) (v : Word) (s : State) : Host.Outcome State Fault Refusal :=
  s.lift (fun d => d.gate src Reg.SVC_CONFIRM (fun d => if bitOf v 0 then d.trialConfirm else d))

end Sys2Proof.Machine
end

