-- ==== Sys2Proof/Machine/System.lean ====
section
/-! DEFINITION. System instructions: special registers, system call, return from exception, fences, events,
breakpoint; interrupts and lockstep errors (R301 to R308, R321 to R328). -/

namespace Sys2Proof.Machine

/-! ### Special registers (Tables 12.1 and 12.2, R307, R326) -/

/-- The number is in Table 12.1. -/
def specListed (n : Nat) : Bool :=
  n ≤ 8 || n = 0x10 || n = 0x11 || n = 0x12 || n = 0x18 || n = 0x19 || n = 0x1F || n = 0x20

/-- User level may read it with MFS. -/
def specUserRead (n : Nat) : Bool :=
  n = 0 || n = 8 || n = 0x10 || n = 0x11 || n = 0x12 || n = 0x1F || n = 0x20

/-- The value of special register `n`; the program pair reads IE as 0, the system pair s.cycle as 0. -/
def CoreSt.spec (c : CoreSt) (p : Pair) (n : Nat) : Word :=
  match n with
  | 0 => if p = .system then c.status else withBit c.status 3 false
  | 1 => c.ctl
  | 2 => c.xpc
  | 3 => c.xcode
  | 4 => c.xaddr
  | 5 => c.xtab
  | 6 => c.scratch
  | 7 => c.xstat
  | 8 => c.fcsr
  | 0x10 => if p = .system then 0 else c.cycle
  | 0x11 => c.clk.setWidth 32
  | 0x12 => c.clkh
  | 0x18 => c.evt
  | 0x19 => c.evmask
  | 0x1F => if p = .system then 0 else 1
  | 0x20 => c.lraddr
  | _ => 0

/-- A read of s.clk latches s.clkh. -/
def CoreSt.specRead (c : CoreSt) (n : Nat) : CoreSt :=
  if n = 0x11 then { c with clkh := (c.clk >>> 32).setWidth 32 } else c

/-- The read-write bits of special register `n`. -/
def specMask (p : Pair) (n : Nat) : Word :=
  match n with
  | 0 => if p = .system then 8 else 0
  | 1 => 1
  | 2 => 0xFFFFFFFF
  | 5 => 0xFFFFFFC0
  | 6 => 0xFFFFFFFF
  | 7 => 9
  | 8 => 0x7F
  | 0x19 => 0xFFFF
  | _ => 0

/-- The core with `v` as special register `n`. -/
def CoreSt.specPut (c : CoreSt) (n : Nat) (v : Word) : CoreSt :=
  match n with
  | 0 => { c with status := v }
  | 1 => { c with ctl := v }
  | 2 => { c with xpc := v }
  | 5 => { c with xtab := v }
  | 6 => { c with scratch := v }
  | 7 => { c with xstat := v }
  | 8 => { c with fcsr := v }
  | 0x18 => { c with evt := v }
  | 0x19 => { c with evmask := v }
  | _ => c

/-- The value `v` written through the access types: read-write bits take it, the others stay; a 1 written to
s.evt clears the bit. -/
def CoreSt.specWrite (c : CoreSt) (p : Pair) (n : Nat) (v : Word) : CoreSt :=
  let old := c.spec p n
  if n = 0x18 then c.specPut n (old &&& ~~~ v)
  else
    let m := specMask p n
    c.specPut n ((old &&& ~~~ m) ||| (v &&& m))

/-- CLRS: the read-write bits and the sticky ones clear where `v` is 1; s.status.DZ and OV and s.evt clear only
so (R311); user level clears DZ and OV alone (R326). -/
def CoreSt.specClear (c : CoreSt) (p : Pair) (n : Nat) (v : Word) : CoreSt :=
  let m :=
    if n = 0 then (if c.user then (0x300 : Word) else specMask p 0 ||| 0x300)
    else if n = 0x18 then 0xFFFF else specMask p n
  c.specPut n (c.spec p n &&& ~~~ (v &&& m))

/-- The level's right: ILL for an unlisted number at supervisor level, PRIV for what user level may not do. -/
def CoreSt.specFault (c : CoreSt) (n : Nat) (userOk : Bool) : Option Nat :=
  if c.user then (if userOk then none else some 2)
  else if specListed n then none else some 1

/-- A special-register instruction; a user-level read of s.clk or s.clkh in step is suppressed (R338). -/
def Dev.specOp (d : Dev) (p : Pair) (n : Nat) (userOk : Bool) (rd : Option GReg) (f : CoreSt → CoreSt) : Dev :=
  d.issue p (fun d =>
    let c := d.core p
    match c.specFault n userOk with
    | some code => d.raise p code 0 none
    | none =>
      if rd.isSome && (n = 0x11 || n = 0x12) && bitOf c.ctl 0 && c.user then
        d.setCore p (((c.setLR n).setReg (rd.getD 0) 0).next)
      else
        let old := c.spec p n
        let c' := f (if rd.isSome then c.specRead n else c)
        let c' := match rd with | some r => c'.setReg r old | none => c'
        d.setCore p c'.next)

/-- MFS: d := special register. -/
def execMfs (p : Pair) (rd : GReg) (num : BitVec 11) (s : State) : Host.Outcome State Fault Refusal :=
  s.lift (fun d => d.specOp p num.toNat (specUserRead num.toNat) (some rd) id)

/-- MTS: special register := a. -/
def execMts (p : Pair) (ra : GReg) (num : BitVec 11) (s : State) : Host.Outcome State Fault Refusal :=
  s.lift (fun d => d.specOp p num.toNat (num.toNat = 8) none (fun c => c.specWrite p num.toNat (c.reg ra)))

/-- SETS: d := old value; register := old OR a.  Sticky bits are not set by it. -/
def execSets (p : Pair) (rd ra : GReg) (num : BitVec 11) (s : State) : Host.Outcome State Fault Refusal :=
  s.lift (fun d => d.specOp p num.toNat (num.toNat = 8) (some rd) (fun c =>
    if num.toNat = 0x18 then c else c.specWrite p num.toNat (c.spec p num.toNat ||| c.reg ra)))

/-- CLRS: d := old value; register := old AND NOT a. -/
def execClrs (p : Pair) (rd ra : GReg) (num : BitVec 11) (s : State) : Host.Outcome State Fault Refusal :=
  s.lift (fun d => d.specOp p num.toNat (num.toNat = 8 || num.toNat = 0) (some rd) (fun c =>
    c.specClear p num.toNat (c.reg ra)))

/-! ### Calls, returns, events -/

/-- A system call of Table 14.5. -/
def sysKnown (n : Nat) : Bool := n = 1 || n = 2 || n = 3 || n = 0x10 || n = 0x20 || n = 0x30 || n = 0x40

/-- SYSC raises the system-call exception with its number in s.xaddr.  The runtime answers an unlisted number
of the program with w1 := 1 and returns (R321, R365). -/
def execSysc (p : Pair) (imm : BitVec 11) (s : State) : Host.Outcome State Fault Refusal :=
  s.lift (fun d => d.issue p (fun d =>
    let c := d.core p
    let n := imm.toNat
    let d' := d.exception p 8 0 (some (nw n)) (c.pc + 4)
    if p = .program && c.user && sysKnown n = false && (d'.core p).stopped = false then
      d'.setCore p (((d'.core p).setReg 1 1).rfx p)
    else d'))

/-- RFX returns from an exception; PRIV at user level (R323). -/
def execRfx (p : Pair) (s : State) : Host.Outcome State Fault Refusal :=
  s.lift (fun d => d.issue p (fun d =>
    let c := d.core p
    if c.user then d.raise p 2 0 none else d.setCore p (c.rfx p)))

/-- FENCE orders accesses; with one core in order it only goes on.  ILL for a bit above [3:0] (R310, R328). -/
def execFence (p : Pair) (imm : BitVec 11) (s : State) : Host.Outcome State Fault Refusal :=
  s.lift (fun d => d.aluIf p (imm.toNat < 16) id)

/-- WFE waits until s.evt AND a is not zero; d := s.evt AND a; PRIV at user level. -/
def execWfe (p : Pair) (rd ra : GReg) (s : State) : Host.Outcome State Fault Refusal :=
  s.lift (fun d => d.issue p (fun d =>
    let c := d.core p
    if c.user then d.raise p 2 0 none
    else d.setCore p { c with waiting := .wfe (c.reg ra) rd }.wake))

/-- SEV sets event line imm[3:0] in pair imm[4]; PRIV at user level; ILL for a bit above [4:0] (R327). -/
def execSev (p : Pair) (imm : BitVec 11) (s : State) : Host.Outcome State Fault Refusal :=
  s.lift (fun d => d.issue p (fun d =>
    let c := d.core p
    if 32 ≤ imm.toNat then d.raise p 1 0 none
    else if c.user then d.raise p 2 0 none
    else
      let d := d.setCore p c.next
      d.setEvent (if imm.toNat / 16 % 2 = 1 then .program else .system) (imm.toNat % 16)))

/-- BRK raises the breakpoint exception. -/
def execBrk (p : Pair) (s : State) : Host.Outcome State Fault Refusal :=
  s.lift (fun d => d.issue p (fun d => d.raise p 9 0 none))

/-- The system pair takes an interrupt between instructions while IE is 1: of a core event, when its line is
pending and enabled (R305, R327); of a peripheral source, at its number. -/
def execInterrupt (source : Nat) (s : State) : Host.Outcome State Fault Refusal :=
  s.lift (fun d =>
    let c := d.sys
    let pending :=
      if 0x80 ≤ source && source < 0x90 then bitOf (c.evt &&& c.evmask) (source - 0x80) else source < 256
    if c.stopped || bitOf c.status 3 = false || !pending then d
    else (d.exception .system 10 source none c.pc).settle)

/-- A mismatch of a pair's two cores stops the pair (R301, R302). -/
def execLockstepError (p : Pair) (s : State) : Host.Outcome State Fault Refusal :=
  s.lift (fun d => if (d.core p).stopped then d else (d.pairStop p false).settle)

end Sys2Proof.Machine
end

