-- ==== Sys2Proof/Machine/Dispatch.lean ====
section
/-! DEFINITION. One arm per command: the meaning of each, called directly. -/

namespace Sys2Proof.Machine

/-- What command `i` does to the module in state `s` (everything but the queue of waiting commands). -/
def exec (i : Instr) (s : State) : Host.Outcome State Fault Refusal :=
  match i with
  | .registerWrite src a v => Sys2Proof.Machine.execRegisterWrite src a v s
  | .expertRelease src hi v => Sys2Proof.Machine.execExpertRelease src hi v s
  | .claimenLock src v => Sys2Proof.Machine.execClaimenLock src v s
  | .timIncWrite src v => Sys2Proof.Machine.execTimIncWrite src v s
  | .timAdjsecWrite src v => Sys2Proof.Machine.execTimAdjsecWrite src v s
  | .timAdjnsWrite src v => Sys2Proof.Machine.execTimAdjnsWrite src v s
  | .decl src v => Sys2Proof.Machine.execDecl src v s
  | .timHoldtoWrite src v => Sys2Proof.Machine.execTimHoldtoWrite src v s
  | .holdoverExpiry => Sys2Proof.Machine.execHoldoverExpiry s
  | .tcorrEvaluation corr => Sys2Proof.Machine.execTcorrEvaluation corr s
  | .timSnap src => Sys2Proof.Machine.execTimSnap src s
  | .timTbLoRead => Sys2Proof.Machine.execTimTbLoRead s
  | .angAngleRead => Sys2Proof.Machine.execAngAngleRead s
  | .angleWrap => Sys2Proof.Machine.execAngleWrap s
  | .sourceLossTimeout => Sys2Proof.Machine.execSourceLossTimeout s
  | .sourceReturn => Sys2Proof.Machine.execSourceReturn s
  | .angSrcpriWrite src v => Sys2Proof.Machine.execAngSrcpriWrite src v s
  | .forcefrWrite src v => Sys2Proof.Machine.execForcefrWrite src v s
  | .freeRunSlew => Sys2Proof.Machine.execFreeRunSlew s
  | .angPerrWrite src v => Sys2Proof.Machine.execAngPerrWrite src v s
  | .angIncHiWrite src v => Sys2Proof.Machine.execAngIncHiWrite src v s
  | .angIncLoWrite src v => Sys2Proof.Machine.execAngIncLoWrite src v s
  | .zcEdge level us => Sys2Proof.Machine.execZcEdge level us s
  | .angleMessage l => Sys2Proof.Machine.execAngleMessage l s
  | .timetableMatch => Sys2Proof.Machine.execTimetableMatch s
  | .ttEntryWord0Write src b n v => Sys2Proof.Machine.execTtEntryWord0Write src b n v s
  | .ttEntryWord1Write src b n v => Sys2Proof.Machine.execTtEntryWord1Write src b n v s
  | .ttSwapRequest src v => Sys2Proof.Machine.execTtSwapRequest src v s
  | .linkUp port => Sys2Proof.Machine.execLinkUp port s
  | .los port => Sys2Proof.Machine.execLos port s
  | .ringDownExit => Sys2Proof.Machine.execRingDownExit s
  | .faultReceive x a p c => Sys2Proof.Machine.execFaultReceive x a p c s
  | .echoEndReturn x frame => Sys2Proof.Machine.execEchoEndReturn x frame s
  | .cmdgo src x v => Sys2Proof.Machine.execCmdgo src x v s
  | .commandSend x => Sys2Proof.Machine.execCommandSend x s
  | .commandAnswer x fin rtt frame healOk => Sys2Proof.Machine.execCommandAnswer x fin rtt frame healOk s
  | .commandTimeout x => Sys2Proof.Machine.execCommandTimeout x s
  | .enumeration hop nodes transit => Sys2Proof.Machine.execEnumeration hop nodes transit s
  | .tofRemeasure rttA rttB => Sys2Proof.Machine.execTofRemeasure rttA rttB s
  | .delayRewrite => Sys2Proof.Machine.execDelayRewrite s
  | .healSend linkOk => Sys2Proof.Machine.execHealSend linkOk s
  | .wakeSend returned => Sys2Proof.Machine.execWakeSend returned s
  | .nodeRearm src x k v => Sys2Proof.Machine.execNodeRearm src x k v s
  | .skClearCounts src x v => Sys2Proof.Machine.execSkClearCounts src x v s
  | .collectLaunch => Sys2Proof.Machine.execCollectLaunch s
  | .slotReceive x arg node seq flags turn data crcOk fin => Sys2Proof.Machine.execSlotReceive x arg node seq flags turn data crcOk fin s
  | .sweepDeadline transit => Sys2Proof.Machine.execSweepDeadline transit s
  | .publication => Sys2Proof.Machine.execPublication s
  | .temperatureRead => Sys2Proof.Machine.execTemperatureRead s
  | .openWireGo src v => Sys2Proof.Machine.execOpenWireGo src v s
  | .openWireEvaluate => Sys2Proof.Machine.execOpenWireEvaluate s
  | .swpClearCounts src v => Sys2Proof.Machine.execSwpClearCounts src v s
  | .chmEntryWrite src n v => Sys2Proof.Machine.execChmEntryWrite src n v s
  | .blankSend => Sys2Proof.Machine.execBlankSend s
  | .blankenChange src v => Sys2Proof.Machine.execBlankenChange src v s
  | .balCmdWrite src k v => Sys2Proof.Machine.execBalCmdWrite src k v s
  | .commanderTimeout => Sys2Proof.Machine.execCommanderTimeout s
  | .balanceSend off => Sys2Proof.Machine.execBalanceSend off s
  | .learningGo src v => Sys2Proof.Machine.execLearningGo src v s
  | .limEntryWordWrite src n w v => Sys2Proof.Machine.execLimEntryWordWrite src n w v s
  | .limEntryCommit src n v => Sys2Proof.Machine.execLimEntryCommit src n v s
  | .sweepWatchdog => Sys2Proof.Machine.execSweepWatchdog s
  | .externalTrip low => Sys2Proof.Machine.execExternalTrip low s
  | .tripClear src v => Sys2Proof.Machine.execTripClear src v s
  | .softwareTrip src v => Sys2Proof.Machine.execSoftwareTrip src v s
  | .softwareOchre src och => Sys2Proof.Machine.execSoftwareOchre src och s
  | .limTest src v bad => Sys2Proof.Machine.execLimTest src v bad s
  | .limLock src v => Sys2Proof.Machine.execLimLock src v s
  | .sccClose src => Sys2Proof.Machine.execSccClose src s
  | .sccOpen src => Sys2Proof.Machine.execSccOpen src s
  | .sccAck src => Sys2Proof.Machine.execSccAck src s
  | .breakDelayExpiry => Sys2Proof.Machine.execBreakDelayExpiry s
  | .pickupExpiry k2 => Sys2Proof.Machine.execPickupExpiry k2 s
  | .prechargeDone => Sys2Proof.Machine.execPrechargeDone s
  | .prechargeTimeout => Sys2Proof.Machine.execPrechargeTimeout s
  | .closeConfirm => Sys2Proof.Machine.execCloseConfirm s
  | .closeTimeout => Sys2Proof.Machine.execCloseTimeout s
  | .openConfirm => Sys2Proof.Machine.execOpenConfirm s
  | .dropoutTimeout => Sys2Proof.Machine.execDropoutTimeout s
  | .switchTest pulse rb => Sys2Proof.Machine.execSwitchTest pulse rb s
  | .coilFault k2 ma => Sys2Proof.Machine.execCoilFault k2 ma s
  | .feedbackDiscrepancy => Sys2Proof.Machine.execFeedbackDiscrepancy s
  | .killOutAssert => Sys2Proof.Machine.execKillOutAssert s
  | .sinc3Sample n out => Sys2Proof.Machine.execSinc3Sample n out s
  | .sinc2Sample n out => Sys2Proof.Machine.execSinc2Sample n out s
  | .sdmInvalid n stuck => Sys2Proof.Machine.execSdmInvalid n stuck s
  | .sdmSync src v => Sys2Proof.Machine.execSdmSync src v s
  | .slotTrigger sl => Sys2Proof.Machine.execSlotTrigger sl s
  | .slowTimerExpiry sl => Sys2Proof.Machine.execSlowTimerExpiry sl s
  | .slotComplete sl => Sys2Proof.Machine.execSlotComplete sl s
  | .slotFaultClear src v => Sys2Proof.Machine.execSlotFaultClear src v s
  | .ceKick src v => Sys2Proof.Machine.execCeKick src v s
  | .slotDescriptorCommit src sl v => Sys2Proof.Machine.execSlotDescriptorCommit src sl v s
  | .pwmPeriodStart p => Sys2Proof.Machine.execPwmPeriodStart p s
  | .pwmPeriodCentre p => Sys2Proof.Machine.execPwmPeriodCentre p s
  | .pwmPerWrite src p v => Sys2Proof.Machine.execPwmPerWrite src p v s
  | .pwmSync src v => Sys2Proof.Machine.execPwmSync src v s
  | .convFltFall fromReset => Sys2Proof.Machine.execConvFltFall fromReset s
  | .pwmBlockClear src v => Sys2Proof.Machine.execPwmBlockClear src v s
  | .testInjectionGo src v => Sys2Proof.Machine.execTestInjectionGo src v s
  | .testInjectionStop src v => Sys2Proof.Machine.execTestInjectionStop src v s
  | .traceArm src v => Sys2Proof.Machine.execTraceArm src v s
  | .traceForce src v => Sys2Proof.Machine.execTraceForce src v s
  | .estimatorRun => Sys2Proof.Machine.execEstimatorRun s
  | .correction => Sys2Proof.Machine.execCorrection s
  | .estPub src => Sys2Proof.Machine.execEstPub src s
  | .publicationTimeout => Sys2Proof.Machine.execPublicationTimeout s
  | .restStarvation => Sys2Proof.Machine.execRestStarvation s
  | .storeroomWrite => Sys2Proof.Machine.execStoreroomWrite s
  | .storeroomInterval => Sys2Proof.Machine.execStoreroomInterval s
  | .transportRequest => Sys2Proof.Machine.execTransportRequest s
  | .transportExit returned => Sys2Proof.Machine.execTransportExit returned s
  | .binAccumulate => Sys2Proof.Machine.execBinAccumulate s
  | .injectionPhaseEnd => Sys2Proof.Machine.execInjectionPhaseEnd s
  | .impClearAll src v => Sys2Proof.Machine.execImpClearAll src v s
  | .binDescriptorWrite src b w v => Sys2Proof.Machine.execBinDescriptorWrite src b w v s
  | .modelFit => Sys2Proof.Machine.execModelFit s
  | .ageingDaily => Sys2Proof.Machine.execAgeingDaily s
  | .mailboxWordWrite src m w v => Sys2Proof.Machine.execMailboxWordWrite src m w v s
  | .mailboxCommit src m v => Sys2Proof.Machine.execMailboxCommit src m v s
  | .referenceSlew => Sys2Proof.Machine.execReferenceSlew s
  | .mailboxTimeout => Sys2Proof.Machine.execMailboxTimeout s
  | .setpoint h l => Sys2Proof.Machine.execSetpoint h l s
  | .statusSend => Sys2Proof.Machine.execStatusSend s
  | .commandClearTrips h l => Sys2Proof.Machine.execCommandClearTrips h l s
  | .commandTransport h l => Sys2Proof.Machine.execCommandTransport h l s
  | .recreq h l => Sys2Proof.Machine.execRecreq h l s
  | .rotreply h l => Sys2Proof.Machine.execRotreply h l s
  | .rotreqRepeat => Sys2Proof.Machine.execRotreqRepeat s
  | .rotationReplyTimeout => Sys2Proof.Machine.execRotationReplyTimeout s
  | .restWindowEnd => Sys2Proof.Machine.execRestWindowEnd s
  | .profileGo src v => Sys2Proof.Machine.execProfileGo src v s
  | .feedConfigWrite src n v => Sys2Proof.Machine.execFeedConfigWrite src n v s
  | .tachEdge f => Sys2Proof.Machine.execTachEdge f s
  | .fanStall f => Sys2Proof.Machine.execFanStall f s
  | .servoPeriod => Sys2Proof.Machine.execServoPeriod s
  | .stepPulse a => Sys2Proof.Machine.execStepPulse a s
  | .actuatorReply a seq flags => Sys2Proof.Machine.execActuatorReply a seq flags s
  | .targetWrite src a v => Sys2Proof.Machine.execTargetWrite src a v s
  | .home src a => Sys2Proof.Machine.execHome src a s
  | .stopAxis src a => Sys2Proof.Machine.execStopAxis src a s
  | .clearFault src a => Sys2Proof.Machine.execClearFault src a s
  | .declareHomed src a => Sys2Proof.Machine.execDeclareHomed src a s
  | .add p d a b => Sys2Proof.Machine.execAdd p d a b s
  | .sub p d a b => Sys2Proof.Machine.execSub p d a b s
  | .and p d a b => Sys2Proof.Machine.execAnd p d a b s
  | .or p d a b => Sys2Proof.Machine.execOr p d a b s
  | .xor p d a b => Sys2Proof.Machine.execXor p d a b s
  | .nor p d a b => Sys2Proof.Machine.execNor p d a b s
  | .slt p d a b => Sys2Proof.Machine.execSlt p d a b s
  | .sltu p d a b => Sys2Proof.Machine.execSltu p d a b s
  | .sll p d a b => Sys2Proof.Machine.execSll p d a b s
  | .srl p d a b => Sys2Proof.Machine.execSrl p d a b s
  | .sra p d a b => Sys2Proof.Machine.execSra p d a b s
  | .ror p d a b => Sys2Proof.Machine.execRor p d a b s
  | .slli p d a sh => Sys2Proof.Machine.execSlli p d a sh s
  | .srli p d a sh => Sys2Proof.Machine.execSrli p d a sh s
  | .srai p d a sh => Sys2Proof.Machine.execSrai p d a sh s
  | .rori p d a sh => Sys2Proof.Machine.execRori p d a sh s
  | .min p d a b => Sys2Proof.Machine.execMin p d a b s
  | .max p d a b => Sys2Proof.Machine.execMax p d a b s
  | .minu p d a b => Sys2Proof.Machine.execMinu p d a b s
  | .maxu p d a b => Sys2Proof.Machine.execMaxu p d a b s
  | .adds p d a b => Sys2Proof.Machine.execAdds p d a b s
  | .subs p d a b => Sys2Proof.Machine.execSubs p d a b s
  | .clz p d a => Sys2Proof.Machine.execClz p d a s
  | .popc p d a => Sys2Proof.Machine.execPopc p d a s
  | .extb p d a => Sys2Proof.Machine.execExtb p d a s
  | .exth p d a => Sys2Proof.Machine.execExth p d a s
  | .jr p a => Sys2Proof.Machine.execJr p a s
  | .jalr p d a => Sys2Proof.Machine.execJalr p d a s
  | .addi p d a imm => Sys2Proof.Machine.execAddi p d a imm s
  | .andi p d a imm => Sys2Proof.Machine.execAndi p d a imm s
  | .ori p d a imm => Sys2Proof.Machine.execOri p d a imm s
  | .xori p d a imm => Sys2Proof.Machine.execXori p d a imm s
  | .slti p d a imm => Sys2Proof.Machine.execSlti p d a imm s
  | .sltiu p d a imm => Sys2Proof.Machine.execSltiu p d a imm s
  | .lui p d imm => Sys2Proof.Machine.execLui p d imm s
  | .mul p d a b => Sys2Proof.Machine.execMul p d a b s
  | .mulh p d a b => Sys2Proof.Machine.execMulh p d a b s
  | .mulhu p d a b => Sys2Proof.Machine.execMulhu p d a b s
  | .div p d a b => Sys2Proof.Machine.execDiv p d a b s
  | .divu p d a b => Sys2Proof.Machine.execDivu p d a b s
  | .rem p d a b => Sys2Proof.Machine.execRem p d a b s
  | .remu p d a b => Sys2Proof.Machine.execRemu p d a b s
  | .qmul15 p d a b => Sys2Proof.Machine.execQmul15 p d a b s
  | .qmul31 p d a b => Sys2Proof.Machine.execQmul31 p d a b s
  | .qadd15 p d a b => Sys2Proof.Machine.execQadd15 p d a b s
  | .qsub15 p d a b => Sys2Proof.Machine.execQsub15 p d a b s
  | .qmac31 p d a b => Sys2Proof.Machine.execQmac31 p d a b s
  | .qsat16 p d a => Sys2Proof.Machine.execQsat16 p d a s
  | .fadd p d a b => Sys2Proof.Machine.execFadd p d a b s
  | .fsub p d a b => Sys2Proof.Machine.execFsub p d a b s
  | .fmul p d a b => Sys2Proof.Machine.execFmul p d a b s
  | .fdiv p d a b => Sys2Proof.Machine.execFdiv p d a b s
  | .fsqrt p d a => Sys2Proof.Machine.execFsqrt p d a s
  | .fmin p d a b => Sys2Proof.Machine.execFmin p d a b s
  | .fmax p d a b => Sys2Proof.Machine.execFmax p d a b s
  | .fmadd p d a b => Sys2Proof.Machine.execFmadd p d a b s
  | .feq p d a b => Sys2Proof.Machine.execFeq p d a b s
  | .flt p d a b => Sys2Proof.Machine.execFlt p d a b s
  | .fle p d a b => Sys2Proof.Machine.execFle p d a b s
  | .fcvtws p d a => Sys2Proof.Machine.execFcvtws p d a s
  | .fcvtsw p d a => Sys2Proof.Machine.execFcvtsw p d a s
  | .fcvtswu p d a => Sys2Proof.Machine.execFcvtswu p d a s
  | .fneg p d a => Sys2Proof.Machine.execFneg p d a s
  | .fabs p d a => Sys2Proof.Machine.execFabs p d a s
  | .fcvtsd p d a => Sys2Proof.Machine.execFcvtsd p d a s
  | .fcvtds p d a => Sys2Proof.Machine.execFcvtds p d a s
  | .dadd p d a b => Sys2Proof.Machine.execDadd p d a b s
  | .dsub p d a b => Sys2Proof.Machine.execDsub p d a b s
  | .dmul p d a b => Sys2Proof.Machine.execDmul p d a b s
  | .ddiv p d a b => Sys2Proof.Machine.execDdiv p d a b s
  | .dsqrt p d a => Sys2Proof.Machine.execDsqrt p d a s
  | .dmin p d a b => Sys2Proof.Machine.execDmin p d a b s
  | .dmax p d a b => Sys2Proof.Machine.execDmax p d a b s
  | .dmadd p d a b => Sys2Proof.Machine.execDmadd p d a b s
  | .deq p d a b => Sys2Proof.Machine.execDeq p d a b s
  | .dlt p d a b => Sys2Proof.Machine.execDlt p d a b s
  | .dle p d a b => Sys2Proof.Machine.execDle p d a b s
  | .dcvtws p d a => Sys2Proof.Machine.execDcvtws p d a s
  | .dneg p d a => Sys2Proof.Machine.execDneg p d a s
  | .dabs p d a => Sys2Proof.Machine.execDabs p d a s
  | .ldw p d a imm => Sys2Proof.Machine.execLdw p d a imm s
  | .ldh p d a imm => Sys2Proof.Machine.execLdh p d a imm s
  | .ldhu p d a imm => Sys2Proof.Machine.execLdhu p d a imm s
  | .ldb p d a imm => Sys2Proof.Machine.execLdb p d a imm s
  | .ldbu p d a imm => Sys2Proof.Machine.execLdbu p d a imm s
  | .ldd p d a imm => Sys2Proof.Machine.execLdd p d a imm s
  | .stw p d a imm => Sys2Proof.Machine.execStw p d a imm s
  | .sth p d a imm => Sys2Proof.Machine.execSth p d a imm s
  | .stb p d a imm => Sys2Proof.Machine.execStb p d a imm s
  | .std p d a imm => Sys2Proof.Machine.execStd p d a imm s
  | .ldx p d a => Sys2Proof.Machine.execLdx p d a s
  | .stx p d a b => Sys2Proof.Machine.execStx p d a b s
  | .amoswp p d a b => Sys2Proof.Machine.execAmoswp p d a b s
  | .amoadd p d a b => Sys2Proof.Machine.execAmoadd p d a b s
  | .amoand p d a b => Sys2Proof.Machine.execAmoand p d a b s
  | .amoor p d a b => Sys2Proof.Machine.execAmoor p d a b s
  | .amomax p d a b => Sys2Proof.Machine.execAmomax p d a b s
  | .amomin p d a b => Sys2Proof.Machine.execAmomin p d a b s
  | .beq p a b off => Sys2Proof.Machine.execBeq p a b off s
  | .bne p a b off => Sys2Proof.Machine.execBne p a b off s
  | .blt p a b off => Sys2Proof.Machine.execBlt p a b off s
  | .bge p a b off => Sys2Proof.Machine.execBge p a b off s
  | .bltu p a b off => Sys2Proof.Machine.execBltu p a b off s
  | .bgeu p a b off => Sys2Proof.Machine.execBgeu p a b off s
  | .j p off => Sys2Proof.Machine.execJ p off s
  | .jal p off => Sys2Proof.Machine.execJal p off s
  | .cyend p => Sys2Proof.Machine.execCyend p s
  | .tbrd p d sel => Sys2Proof.Machine.execTbrd p d sel s
  | .ton p d a b => Sys2Proof.Machine.execTon p d a b s
  | .tof p d a b => Sys2Proof.Machine.execTof p d a b s
  | .tp p d a b => Sys2Proof.Machine.execTp p d a b s
  | .ctu p d a b => Sys2Proof.Machine.execCtu p d a b s
  | .ctd p d a b => Sys2Proof.Machine.execCtd p d a b s
  | .ctud p d a b => Sys2Proof.Machine.execCtud p d a b s
  | .rtrig p d a b => Sys2Proof.Machine.execRtrig p d a b s
  | .ftrig p d a b => Sys2Proof.Machine.execFtrig p d a b s
  | .mfs p d num => Sys2Proof.Machine.execMfs p d num s
  | .mts p a num => Sys2Proof.Machine.execMts p a num s
  | .sets p d a num => Sys2Proof.Machine.execSets p d a num s
  | .clrs p d a num => Sys2Proof.Machine.execClrs p d a num s
  | .sysc p imm => Sys2Proof.Machine.execSysc p imm s
  | .rfx p => Sys2Proof.Machine.execRfx p s
  | .fence p imm => Sys2Proof.Machine.execFence p imm s
  | .wfe p d a => Sys2Proof.Machine.execWfe p d a s
  | .sev p imm => Sys2Proof.Machine.execSev p imm s
  | .brk p => Sys2Proof.Machine.execBrk p s
  | .interrupt source => Sys2Proof.Machine.execInterrupt source s
  | .lockstepError p => Sys2Proof.Machine.execLockstepError p s
  | .vadd p vd va s2 k => Sys2Proof.Machine.execVadd p vd va s2 k s
  | .vsub p vd va s2 k => Sys2Proof.Machine.execVsub p vd va s2 k s
  | .vand p vd va s2 k => Sys2Proof.Machine.execVand p vd va s2 k s
  | .vor p vd va s2 k => Sys2Proof.Machine.execVor p vd va s2 k s
  | .vxor p vd va s2 k => Sys2Proof.Machine.execVxor p vd va s2 k s
  | .vsll p vd va s2 k => Sys2Proof.Machine.execVsll p vd va s2 k s
  | .vsrl p vd va s2 k => Sys2Proof.Machine.execVsrl p vd va s2 k s
  | .vsra p vd va s2 k => Sys2Proof.Machine.execVsra p vd va s2 k s
  | .vmin p vd va s2 k => Sys2Proof.Machine.execVmin p vd va s2 k s
  | .vmax p vd va s2 k => Sys2Proof.Machine.execVmax p vd va s2 k s
  | .vminu p vd va s2 k => Sys2Proof.Machine.execVminu p vd va s2 k s
  | .vmaxu p vd va s2 k => Sys2Proof.Machine.execVmaxu p vd va s2 k s
  | .vadds p vd va s2 k => Sys2Proof.Machine.execVadds p vd va s2 k s
  | .vsubs p vd va s2 k => Sys2Proof.Machine.execVsubs p vd va s2 k s
  | .vmul p vd va s2 k => Sys2Proof.Machine.execVmul p vd va s2 k s
  | .vmulh p vd va s2 k => Sys2Proof.Machine.execVmulh p vd va s2 k s
  | .vqmul31 p vd va s2 k => Sys2Proof.Machine.execVqmul31 p vd va s2 k s
  | .vqmac31 p vd va s2 k => Sys2Proof.Machine.execVqmac31 p vd va s2 k s
  | .vmv p vd s2 k => Sys2Proof.Machine.execVmv p vd s2 k s
  | .vsel p vd va s2 mi => Sys2Proof.Machine.execVsel p vd va s2 mi s
  | .viota p vd k => Sys2Proof.Machine.execViota p vd k s
  | .vfadd p vd va s2 k => Sys2Proof.Machine.execVfadd p vd va s2 k s
  | .vfsub p vd va s2 k => Sys2Proof.Machine.execVfsub p vd va s2 k s
  | .vfmul p vd va s2 k => Sys2Proof.Machine.execVfmul p vd va s2 k s
  | .vfdiv p vd va s2 k => Sys2Proof.Machine.execVfdiv p vd va s2 k s
  | .vfsqrt p vd va k => Sys2Proof.Machine.execVfsqrt p vd va k s
  | .vfmin p vd va s2 k => Sys2Proof.Machine.execVfmin p vd va s2 k s
  | .vfmax p vd va s2 k => Sys2Proof.Machine.execVfmax p vd va s2 k s
  | .vfmadd p vd va s2 k => Sys2Proof.Machine.execVfmadd p vd va s2 k s
  | .vfcvtws p vd va k => Sys2Proof.Machine.execVfcvtws p vd va k s
  | .vfcvtsw p vd va k => Sys2Proof.Machine.execVfcvtsw p vd va k s
  | .vfneg p vd va k => Sys2Proof.Machine.execVfneg p vd va k s
  | .vfabs p vd va k => Sys2Proof.Machine.execVfabs p vd va k s
  | .vceq p md va s2 k => Sys2Proof.Machine.execVceq p md va s2 k s
  | .vcne p md va s2 k => Sys2Proof.Machine.execVcne p md va s2 k s
  | .vclt p md va s2 k => Sys2Proof.Machine.execVclt p md va s2 k s
  | .vcge p md va s2 k => Sys2Proof.Machine.execVcge p md va s2 k s
  | .vcltu p md va s2 k => Sys2Proof.Machine.execVcltu p md va s2 k s
  | .vcgeu p md va s2 k => Sys2Proof.Machine.execVcgeu p md va s2 k s
  | .vfceq p md va s2 k => Sys2Proof.Machine.execVfceq p md va s2 k s
  | .vfclt p md va s2 k => Sys2Proof.Machine.execVfclt p md va s2 k s
  | .vfcle p md va s2 k => Sys2Proof.Machine.execVfcle p md va s2 k s
  | .mand p md ma mb k => Sys2Proof.Machine.execMand p md ma mb k s
  | .mor p md ma mb k => Sys2Proof.Machine.execMor p md ma mb k s
  | .mandn p md ma mb k => Sys2Proof.Machine.execMandn p md ma mb k s
  | .mnot p md ma k => Sys2Proof.Machine.execMnot p md ma k s
  | .vinterp p vd va wb k => Sys2Proof.Machine.execVinterp p vd va wb k s
  | .vinvert p vd va wb k => Sys2Proof.Machine.execVinvert p vd va wb k s
  | .vsetvl p d a => Sys2Proof.Machine.execVsetvl p d a s
  | .vgetvl p d => Sys2Proof.Machine.execVgetvl p d s
  | .vmrd p d mv => Sys2Proof.Machine.execVmrd p d mv s
  | .vmwr p a mv => Sys2Proof.Machine.execVmwr p a mv s
  | .vld p v a k => Sys2Proof.Machine.execVld p v a k s
  | .vst p v a k => Sys2Proof.Machine.execVst p v a k s
  | .vgath p v iv a k => Sys2Proof.Machine.execVgath p v iv a k s
  | .vscat p v iv a k => Sys2Proof.Machine.execVscat p v iv a k s
  | .vredadd p d v k => Sys2Proof.Machine.execVredadd p d v k s
  | .vredmin p d v k => Sys2Proof.Machine.execVredmin p d v k s
  | .vredmax p d v k => Sys2Proof.Machine.execVredmax p d v k s
  | .vredfadd p d v k => Sys2Proof.Machine.execVredfadd p d v k s
  | .vmini p d v k => Sys2Proof.Machine.execVmini p d v k s
  | .vmaxi p d v k => Sys2Proof.Machine.execVmaxi p d v k s
  | .cyclePeriodStart => Sys2Proof.Machine.execCyclePeriodStart s
  | .imageCopyComplete => Sys2Proof.Machine.execImageCopyComplete s
  | .start src v => Sys2Proof.Machine.execStart src v s
  | .stop src v => Sys2Proof.Machine.execStop src v s
  | .clearLiveReads src v => Sys2Proof.Machine.execClearLiveReads src v s
  | .syscallSccClose => Sys2Proof.Machine.execSyscallSccClose s
  | .syscallSccOpen => Sys2Proof.Machine.execSyscallSccOpen s
  | .syscallSccAck => Sys2Proof.Machine.execSyscallSccAck s
  | .syscallStoreroom => Sys2Proof.Machine.execSyscallStoreroom s
  | .syscallTransport => Sys2Proof.Machine.execSyscallTransport s
  | .syscallRelease => Sys2Proof.Machine.execSyscallRelease s
  | .syscallRecord => Sys2Proof.Machine.execSyscallRecord s
  | .forceWordWrite src n w v => Sys2Proof.Machine.execForceWordWrite src n w v s
  | .forceCommit src n v => Sys2Proof.Machine.execForceCommit src n v s
  | .onlineChangeSwitch => Sys2Proof.Machine.execOnlineChangeSwitch s
  | .heartbeatSend => Sys2Proof.Machine.execHeartbeatSend s
  | .heartbeat roleLow epoch b4 b5 count compat image cyc angle inc ns sec => Sys2Proof.Machine.execHeartbeat roleLow epoch b4 b5 count compat image cyc angle inc ns sec s
  | .heartbeatMiss => Sys2Proof.Machine.execHeartbeatMiss s
  | .ping => Sys2Proof.Machine.execPing s
  | .pingReceive => Sys2Proof.Machine.execPingReceive s
  | .pong rtt => Sys2Proof.Machine.execPong rtt s
  | .cueStrobeV seq => Sys2Proof.Machine.execCueStrobeV seq s
  | .cueStrobeT seq => Sys2Proof.Machine.execCueStrobeT seq s
  | .cueStrobeTa seq => Sys2Proof.Machine.execCueStrobeTa seq s
  | .cueMailbox m => Sys2Proof.Machine.execCueMailbox m s
  | .cueSdmSync => Sys2Proof.Machine.execCueSdmSync s
  | .cuePwmAlign counts => Sys2Proof.Machine.execCuePwmAlign counts s
  | .cueScc n => Sys2Proof.Machine.execCueScc n s
  | .cueRoleExchange epoch => Sys2Proof.Machine.execCueRoleExchange epoch s
  | .cueRecoveryRead seq => Sys2Proof.Machine.execCueRecoveryRead seq s
  | .cueBlank => Sys2Proof.Machine.execCueBlank s
  | .cueBadCheck => Sys2Proof.Machine.execCueBadCheck s
  | .image crcOk cycle image forces => Sys2Proof.Machine.execImage crcOk cycle image forces s
  | .imgack cycle status => Sys2Proof.Machine.execImgack cycle status s
  | .hash cycle hash => Sys2Proof.Machine.execHash cycle hash s
  | .hashack cycle result => Sys2Proof.Machine.execHashack cycle result s
  | .mirror sec off data => Sys2Proof.Machine.execMirror sec off data s
  | .segment arg slots => Sys2Proof.Machine.execSegment arg slots s
  | .mailbox slot words => Sys2Proof.Machine.execMailbox slot words s
  | .cmdHandover cycle => Sys2Proof.Machine.execCmdHandover cycle s
  | .cmdOnlineChange cycle => Sys2Proof.Machine.execCmdOnlineChange cycle s
  | .cmdTransport => Sys2Proof.Machine.execCmdTransport s
  | .cmdEnumeration hop nodes transit => Sys2Proof.Machine.execCmdEnumeration hop nodes transit s
  | .cmdRingCommand frame => Sys2Proof.Machine.execCmdRingCommand frame s
  | .fail roleLow => Sys2Proof.Machine.execFail roleLow s
  | .resyncGranules addr data => Sys2Proof.Machine.execResyncGranules addr data s
  | .resyncRegisters j => Sys2Proof.Machine.execResyncRegisters j s
  | .resyncSlotHistory sl w14 w15 e3 u3 q => Sys2Proof.Machine.execResyncSlotHistory sl w14 w15 e3 u3 q s
  | .linkFrameDiscard => Sys2Proof.Machine.execLinkFrameDiscard s
  | .lagExpiry => Sys2Proof.Machine.execLagExpiry s
  | .missingImage => Sys2Proof.Machine.execMissingImage s
  | .joinTimeout roleLow => Sys2Proof.Machine.execJoinTimeout roleLow s
  | .takeover roleLow => Sys2Proof.Machine.execTakeover roleLow s
  | .killSettleExpiry => Sys2Proof.Machine.execKillSettleExpiry s
  | .killIn active => Sys2Proof.Machine.execKillIn active s
  | .depose src v => Sys2Proof.Machine.execDepose src v s
  | .rejoin src v => Sys2Proof.Machine.execRejoin src v s
  | .deposedTimeout => Sys2Proof.Machine.execDeposedTimeout s
  | .seed src v => Sys2Proof.Machine.execSeed src v s
  | .handover src v => Sys2Proof.Machine.execHandover src v s
  | .resyncRound => Sys2Proof.Machine.execResyncRound s
  | .resyncTimeout => Sys2Proof.Machine.execResyncTimeout s
  | .mirrorInterval => Sys2Proof.Machine.execMirrorInterval s
  | .leaveConfiguration src x v => Sys2Proof.Machine.execLeaveConfiguration src x v s
  | .busIntegrated x => Sys2Proof.Machine.execBusIntegrated x s
  | .canFrameReceive x ide fdf brs esi rtr id dlc data => Sys2Proof.Machine.execCanFrameReceive x ide fdf brs esi rtr id dlc data s
  | .rdsel src x v => Sys2Proof.Machine.execRdsel src x v s
  | .txreq src x k v => Sys2Proof.Machine.execTxreq src x k v s
  | .txcan src x k v onBus => Sys2Proof.Machine.execTxcan src x k v onBus s
  | .canAttemptEnd x ago tdcv err => Sys2Proof.Machine.execCanAttemptEnd x ago tdcv err s
  | .recover src x v => Sys2Proof.Machine.execRecover src x v s
  | .busOffRecoveryDone x => Sys2Proof.Machine.execBusOffRecoveryDone x s
  | .canStatRead x => Sys2Proof.Machine.execCanStatRead x s
  | .smbIdent a lastAck => Sys2Proof.Machine.execSmbIdent a lastAck s
  | .smbStatus a lastAck => Sys2Proof.Machine.execSmbStatus a lastAck s
  | .smbReqcode a lastAck => Sys2Proof.Machine.execSmbReqcode a lastAck s
  | .smbSoc a lastAck => Sys2Proof.Machine.execSmbSoc a lastAck s
  | .smbVstr a lastAck => Sys2Proof.Machine.execSmbVstr a lastAck s
  | .smbCurr a lastAck => Sys2Proof.Machine.execSmbCurr a lastAck s
  | .smbSop a lastAck => Sys2Proof.Machine.execSmbSop a lastAck s
  | .smbText a lastAck => Sys2Proof.Machine.execSmbText a lastAck s
  | .smbVext a lastAck => Sys2Proof.Machine.execSmbVext a lastAck s
  | .smbCellsel a l pec => Sys2Proof.Machine.execSmbCellsel a l pec s
  | .smbCelldata a lastAck => Sys2Proof.Machine.execSmbCelldata a lastAck s
  | .smbEvent a lastAck => Sys2Proof.Machine.execSmbEvent a lastAck s
  | .smbUread a lastAck => Sys2Proof.Machine.execSmbUread a lastAck s
  | .smbUwrite a count l pec => Sys2Proof.Machine.execSmbUwrite a count l pec s
  | .smbUnknownCommand a code read => Sys2Proof.Machine.execSmbUnknownCommand a code read s
  | .alertResponse won lastAck => Sys2Proof.Machine.execAlertResponse won lastAck s
  | .smbReqset src v => Sys2Proof.Machine.execSmbReqset src v s
  | .sdaReleaseTimeout => Sys2Proof.Machine.execSdaReleaseTimeout s
  | .sclLowTimeout => Sys2Proof.Machine.execSclLowTimeout s
  | .ethFrameReceive p2 l fcsOk res => Sys2Proof.Machine.execEthFrameReceive p2 l fcsOk res s
  | .addressAgeOut mac => Sys2Proof.Machine.execAddressAgeOut mac s
  | .peerDelayMeasure p2 ans => Sys2Proof.Machine.execPeerDelayMeasure p2 ans s
  | .pdelayReq p2 req => Sys2Proof.Machine.execPdelayReq p2 req s
  | .sync p2 dom sender seq twoStep t1 corr logInt => Sys2Proof.Machine.execSync p2 dom sender seq twoStep t1 corr logInt s
  | .announce dom sender p1 cls acc var p2 gm steps logInt => Sys2Proof.Machine.execAnnounce dom sender p1 cls acc var p2 gm steps logInt s
  | .syncTimeout => Sys2Proof.Machine.execSyncTimeout s
  | .arpRequest sender target => Sys2Proof.Machine.execArpRequest sender target s
  | .icmpEcho from_ dest body => Sys2Proof.Machine.execIcmpEcho from_ dest body s
  | .launch r busy => Sys2Proof.Machine.execLaunch r busy s
  | .ethLinkChange p2 up gig => Sys2Proof.Machine.execEthLinkChange p2 up gig s
  | .dmaTailWrite src r v => Sys2Proof.Machine.execDmaTailWrite src r v s
  | .dmaBaseWrite src r v => Sys2Proof.Machine.execDmaBaseWrite src r v s
  | .dmaEnable src r v => Sys2Proof.Machine.execDmaEnable src r v s
  | .dmaCompletion r msg => Sys2Proof.Machine.execDmaCompletion r msg s
  | .inputFilterTick n level => Sys2Proof.Machine.execInputFilterTick n level s
  | .outputOverload k => Sys2Proof.Machine.execOutputOverload k s
  | .outputTestPulse k fell => Sys2Proof.Machine.execOutputTestPulse k fell s
  | .holdWarmTimeout => Sys2Proof.Machine.execHoldWarmTimeout s
  | .killInRelease => Sys2Proof.Machine.execKillInRelease s
  | .wakeChg active => Sys2Proof.Machine.execWakeChg active s
  | .recordPost fw code payload => Sys2Proof.Machine.execRecordPost fw code payload s
  | .recPost src v => Sys2Proof.Machine.execRecPost src v s
  | .queueToLarder => Sys2Proof.Machine.execQueueToLarder s
  | .recorderEnable src => Sys2Proof.Machine.execRecorderEnable src s
  | .flush src v => Sys2Proof.Machine.execFlush src v s
  | .flushComplete => Sys2Proof.Machine.execFlushComplete s
  | .periodicFlush => Sys2Proof.Machine.execPeriodicFlush s
  | .migration ok => Sys2Proof.Machine.execMigration ok s
  | .ident tag => Sys2Proof.Machine.execIdent tag s
  | .svcOpen tag level => Sys2Proof.Machine.execSvcOpen tag level s
  | .auth tag k xy rs => Sys2Proof.Machine.execAuth tag k xy rs s
  | .svcClose tag => Sys2Proof.Machine.execSvcClose tag s
  | .readreg tag a n => Sys2Proof.Machine.execReadreg tag a n s
  | .writereg tag a words => Sys2Proof.Machine.execWritereg tag a words s
  | .readmem tag a n => Sys2Proof.Machine.execReadmem tag a n s
  | .paramread tag n => Sys2Proof.Machine.execParamread tag n s
  | .paramwrite tag n b => Sys2Proof.Machine.execParamwrite tag n b s
  | .recread tag first count => Sys2Proof.Machine.execRecread tag first count s
  | .force tag n w0 w1 w2 w3 => Sys2Proof.Machine.execForce tag n w0 w1 w2 w3 s
  | .progctlStart tag => Sys2Proof.Machine.execProgctlStart tag s
  | .progctlStop tag => Sys2Proof.Machine.execProgctlStop tag s
  | .cleartrip tag mask => Sys2Proof.Machine.execCleartrip tag mask s
  | .transport tag => Sys2Proof.Machine.execTransport tag s
  | .clrtransport tag => Sys2Proof.Machine.execClrtransport tag s
  | .stageopen tag header => Sys2Proof.Machine.execStageopen tag header s
  | .stageblock tag block => Sys2Proof.Machine.execStageblock tag block s
  | .stageend tag trailer => Sys2Proof.Machine.execStageend tag trailer s
  | .activate tag kind force => Sys2Proof.Machine.execActivate tag kind force s
  | .onlinechg tag ready => Sys2Proof.Machine.execOnlinechg tag ready s
  | .twincfg tag ctl v => Sys2Proof.Machine.execTwincfg tag ctl v s
  | .progkey tag k hash => Sys2Proof.Machine.execProgkey tag k hash s
  | .revoke tag k j xy rs => Sys2Proof.Machine.execRevoke tag k j xy rs s
  | .resetWarm tag => Sys2Proof.Machine.execResetWarm tag s
  | .resetRecovery tag => Sys2Proof.Machine.execResetRecovery tag s
  | .debug tag on => Sys2Proof.Machine.execDebug tag on s
  | .nypehaReject cmd tag busy => Sys2Proof.Machine.execNypehaReject cmd tag busy s
  | .usbDetach => Sys2Proof.Machine.execUsbDetach s
  | .sessionIdleTimeout => Sys2Proof.Machine.execSessionIdleTimeout s
  | .trialConfirm src v => Sys2Proof.Machine.execTrialConfirm src v s
  | .feedLost fb mv => Sys2Proof.Machine.execFeedLost fb mv s
  | .feedGood fb mv => Sys2Proof.Machine.execFeedGood fb mv s
  | .rideExpiry => Sys2Proof.Machine.execRideExpiry s
  | .bankCharged => Sys2Proof.Machine.execBankCharged s
  | .bankNvClose => Sys2Proof.Machine.execBankNvClose s
  | .bankExhausted => Sys2Proof.Machine.execBankExhausted s
  | .holdUpReturn => Sys2Proof.Machine.execHoldUpReturn s
  | .standbyIdleEntry => Sys2Proof.Machine.execStandbyIdleEntry s
  | .standbyWake source adr => Sys2Proof.Machine.execStandbyWake source adr s
  | .powerOn => Sys2Proof.Machine.execPowerOn s
  | .brownOut => Sys2Proof.Machine.execBrownOut s
  | .watchdogKick src v => Sys2Proof.Machine.execWatchdogKick src v s
  | .watchdogExpiry => Sys2Proof.Machine.execWatchdogExpiry s
  | .softwareReset src v => Sys2Proof.Machine.execSoftwareReset src v s
  | .stby src v => Sys2Proof.Machine.execStby src v s
  | .rstNReset high => Sys2Proof.Machine.execRstNReset high s
  | .bringUp found => Sys2Proof.Machine.execBringUp found s
  | .fullService => Sys2Proof.Machine.execFullService s
  | .dieMeasurement t0 t1 t2 t3 t4 t5 => Sys2Proof.Machine.execDieMeasurement t0 t1 t2 t3 t4 t5 s
  | .thermalCut => Sys2Proof.Machine.execThermalCut s
  | .thermalRestart => Sys2Proof.Machine.execThermalRestart s
  | .inServiceTest n pass vals => Sys2Proof.Machine.execInServiceTest n pass vals s
  | .ledgerRecord => Sys2Proof.Machine.execLedgerRecord s
  | .alwaysOnSave => Sys2Proof.Machine.execAlwaysOnSave s
  | .nvcMramWrite src tag => Sys2Proof.Machine.execNvcMramWrite src tag s
  | .nvcNorProgram src tag => Sys2Proof.Machine.execNvcNorProgram src tag s
  | .nvcNorErase src tag => Sys2Proof.Machine.execNvcNorErase src tag s
  | .nvcUnitComplete verified => Sys2Proof.Machine.execNvcUnitComplete verified s
  | .nvcDoneRead => Sys2Proof.Machine.execNvcDoneRead s
  | .referenceTick => Sys2Proof.Machine.execReferenceTick s
  | .twinResyncReset => Sys2Proof.Machine.execTwinResyncReset s
  | .convFltRise => Sys2Proof.Machine.execConvFltRise s
  | .norEraseComplete => Sys2Proof.Machine.execNorEraseComplete s
  | .canReceiveError x code data eight => Sys2Proof.Machine.execCanReceiveError x code data eight s
  | .followUp dom sender seq t1 corr => Sys2Proof.Machine.execFollowUp dom sender seq t1 corr s
  | .sccDiagnosticsResume => Sys2Proof.Machine.execSccDiagnosticsResume s
  | .dcvtsw p d a => Sys2Proof.Machine.execDcvtsw p d a s
  | .dcvtswu p d a => Sys2Proof.Machine.execDcvtswu p d a s
  | .nypehaUnknownCommand cmd tag => Sys2Proof.Machine.execNypehaUnknownCommand cmd tag s

end Sys2Proof.Machine
end

