-- ==== Sys2Proof/Machine/Run.lean ====
section
/-! DEFINITION. What happens while no command waits: the program goes on (R309, R310, R318, R356). -/

namespace Sys2Proof.Machine

/-- The program executes a cycle: the program pair runs at user level in the cycle's execute phase (R354). -/
def State.programRuns (s : State) : Bool :=
  !s.dev.asleep && s.dev.cyc.phase = .execute && s.dev.prog.runs && s.dev.prog.user

/-- The program pair fetches the word at its program counter and executes the instruction that it spells; a word that spells
none raises the illegal-instruction exception (R310). -/
def State.runProgram (s : State) : Host.Outcome State Fault Refusal :=
  match decodePleol .program (s.dev.word s.dev.prog.pc.toNat) with
  | some i => exec i s
  | none => s.lift (fun d => d.issue .program (fun d => d.raise .program 1 0 none))

/-- With no command waiting, the program executes one instruction while a cycle of it runs, else the block idles (DESIGN
CHOICE: log entry 1). -/
def State.idle (s : State) : Host.Outcome State Fault Refusal := if s.programRuns then s.runProgram else .next s

end Sys2Proof.Machine
end

