-- ==== Sys2Proof/Machine/Forms.lean ====
section
/-! DEFINITION. The words in which statements speak of a command's conditions and of its next state: a write that its block
takes, a pair that is ready, the module after a retired instruction. -/

namespace Sys2Proof.Machine

/-- The state with `d` as the module and the queue as it is. -/
def State.on (s : State) (d : Dev) : State := { s with dev := d }

/-- The module as a write of `src` finds it once the block of register `a` takes the write (R14 to R19): unclaimed for
the system pair; claim-enabled, and claimed now, for an expert writer.  `none` where the block does not take it. -/
def Dev.takes (d : Dev) (src : Writer) (a : Nat) : Option Dev :=
  let b := blockOf a
  match src with
  | .system => if d.claimed b then none else some d
  | .program => if d.claimEn b then some (d.setClaim b) else none
  | .session => if d.claimEn b then some (d.setClaim b) else none

/-- The module works, the pair runs, its fetch raises nothing, no single-bit error waits to be counted, and no reset
waits. -/
abbrev Dev.Ready (d : Dev) (p : Pair) : Prop :=
  d.asleep = false ∧ (d.core p).runs = true ∧ (d.fetchFault p = none ∧ d.corr = []) ∧ d.pwr.resetWait = none

/-- The state after an instruction of a pair that gives its core `c` and goes on to the next instruction. -/
def State.retire (s : State) (p : Pair) (c : CoreSt) : State := s.on (s.dev.setCore p c.next)

/-- A binary32 result and its flags into register `r`. -/
def CoreSt.putF (c : CoreSt) (r : GReg) (x : Nat × FFlags) : CoreSt := (c.setReg r (nw x.1)).fflags x.2

/-- A binary64 result and its flags into the pair at `r`. -/
def CoreSt.putD (c : CoreSt) (r : GReg) (x : Nat × FFlags) : CoreSt := (c.setRegD r x.1).fflags x.2

/-- The commands that act on the always-on domain, or on a level that is there without power: feeds, wake, RST_N,
the thermal cut, the reference clock and KILL_IN (R520, R526 to R528, R536). -/
def unpowered : Instr → Bool
  | .feedLost _ _ => true
  | .feedGood _ _ => true
  | .standbyWake _ _ => true
  | .wakeChg _ => true
  | .powerOn => true
  | .rstNReset _ => true
  | .thermalCut => true
  | .thermalRestart => true
  | .referenceTick => true
  | .killIn _ => true
  | _ => false

end Sys2Proof.Machine
end

