-- ==== Sys2Proof/Machine/Led.lean ====
section
/-! DEFINITION. The front LEDs (R374, R554). -/

namespace Sys2Proof.Machine

/-- What a front LED shows (Table 23.4). -/
inductive Led where
  | dark | steady | hz1 | hz4 | double
deriving DecidableEq, Repr

/-- The pattern of an LED, dark in Standby and Off; `l` gives its rows in the order of Table 23.4, of which the first that
applies stands. -/
def Dev.led (d : Dev) (l : List (Bool × Led)) : Led :=
  if d.pwrState = 0 || d.pwrState = 5 || d.pwrState = 6 then .dark
  else match l.find? (fun e => e.1) with | some e => e.2 | none => .dark

/-- The RUN LED. -/
def Dev.ledRun (d : Dev) : Led :=
  d.led [(d.pwrState = 2, .steady), (d.pwrState = 3 || d.pwrState = 4, .hz4), (d.pwrState = 1 || d.pwrState = 7, .hz1)]

/-- The FAULT LED. -/
def Dev.ledFault (d : Dev) : Led :=
  d.led [(d.rd Reg.LIM_CRIM != 0 || d.sccState = 5, .steady), (d.rd Reg.LIM_OCHRE != 0, .hz1)]

/-- The ROLE LED. -/
def Dev.ledRole (d : Dev) : Led :=
  d.led [(d.role = 3, .double), (d.role = 1, .steady), (d.role = 2 && d.smode = 1, .hz1), (d.role = 2, .hz4)]

/-- The FORCE LED. -/
def Dev.ledForce (d : Dev) : Led := d.led [(d.bit Reg.CYC_STAT 10, .steady)]

/-- The SERVICE LED. -/
def Dev.ledService (d : Dev) : Led :=
  d.led [(d.pwrState = 7, .hz4), (d.svc.stage.isSome, .hz1), (d.bit Reg.SVC_STAT 7, .steady)]

end Sys2Proof.Machine
end

