-- ==== Sys2Proof/Safety.lean ====
section
/-! DEFINITION. What every state of a run keeps: memory and the registers in their canonical form. -/

namespace Sys2Proof.Machine

/-- A memory and a register store are in canonical form: keys strictly rising and no entry that equals what an unlisted
key reads as, so that equal contents are equal data. -/
def CanonStores (m : List Host.Cell) (r : List (Nat × Word)) : Prop := Memory.wf m = true ∧ Store.wf regReset r = true

/-- The module's memory and registers are in canonical form. -/
def Dev.Canon (d : Dev) : Prop := CanonStores d.mem d.regs

/-- The invariant of a run: the module's memory and registers are in canonical form. -/
def State.Inv (s : State) : Prop := s.dev.Canon

end Sys2Proof.Machine
end

