-- ==== Sys2Proof/Certificates/Slice0/Obligations.lean ====
section
/-! DEFINITION. The statements for the provers. -/

section
open Sys2Proof Sys2Proof.Machine


/-- For every state whose queue starts with a command c, a step is exec of c on the state with the rest of the queue.
With an empty queue, while the program executes a cycle (user level, execute phase, pair running, module awake), the
step is exec of the instruction that the word at its program counter spells, and where that word spells none and the
pair is ready, the step takes the illegal-instruction exception. In every other state an empty queue leaves the
state as it is. The words of the spec's worked programs spell the instructions they stand for, and an all-ones word
spells none. The queue and the idle step are the model's choice (DESIGN CHOICE, log entry 1), no rule of the spec. -/
def Obligations.StepRunsFront : Prop :=
  (∀ (s : State) (c : Instr) (rest : List Instr),
     s.pending = c :: rest →
       step s = exec c { s with pending := rest }) ∧
  (∀ (s : State),
     s.pending = [] →
     s.programRuns = false →
       step s = .next s) ∧
  (∀ (s : State),
       (s.programRuns = true ↔ s.dev.asleep = false ∧ s.dev.cyc.phase = .execute ∧ s.dev.prog.runs = true ∧
           s.dev.prog.user = true)) ∧
  (∀ (s : State) (i : Instr),
     s.pending = [] →
     s.programRuns = true →
     decodePleol .program (s.dev.word s.dev.prog.pc.toNat) = some i →
       step s = exec i s) ∧
  (∀ (s : State),
     s.pending = [] →
     s.programRuns = true →
     decodePleol .program (s.dev.word s.dev.prog.pc.toNat) = none →
     s.dev.Ready .program →
       step s = .next (s.on (s.dev.raise .program 1 0 none).settle)) ∧
  (∀ (p : Pair),
       decodePleol p 0x206001A0 = some (.addi p 3 0 416) ∧
       decodePleol p 0xFFFFFFFF = none)

/-- Every command answers a next state in every state, never a fault and never a refusal, and leaves the queue as it is.
While only the always-on domain works (Off, Standby, or a reset that RST_N holds), every command but those that act
on the always-on domain leaves the whole state as it is. Which commands those are is the model's reading of the
module states (log entry 88). -/
def Obligations.EveryCommandAnswers : Prop :=
  (∀ (c : Instr) (s : State),
       ∃ t, exec c s = .next t ∧ t.pending = s.pending ∧ (s.dev.asleep = true → unpowered c = false → t = s))

/-- If memory and the register store of the module are in canonical form (keys strictly rising, no entry equal to what
an unlisted address or register reads as) then they are after any step. So equal contents of memory and registers
are equal data after every command. The canonical form is the model's, no rule of the spec. -/
def Obligations.InvKept : Prop :=
  (∀ (s t : State),
     s.Inv →
     step s = .next t →
       t.Inv)

/-- After reset the state meets the invariant of canonical memory and registers (the model's), both pairs are at
supervisor level with the program counter at 0, the local clock and the time base are zero, no block is claimed, and
registers of the chapters read the reset values of their tables. That the queue is empty and memory lists nothing is
the model's (log entries 1 and 3). -/
def Obligations.ResetState : Prop :=
  (State.reset.Inv ∧
       State.reset.pending = [] ∧
       State.reset.dev.mem = []) ∧
  (∀ (p : Pair),
       (State.reset.dev.core p).user = false ∧
       (State.reset.dev.core p).pc = 0) ∧
  (State.reset.dev.tim.sec = 0 ∧
       State.reset.dev.tim.ns = 0 ∧
       State.reset.dev.tim.frac = 0 ∧
       State.reset.dev.tim.tb = 0) ∧
  (∀ (b : Nat),
     b ≤ 32 →
       State.reset.dev.claimed b = false) ∧
  (State.reset.dev.rd Reg.SYS_ID = 0x51200003 ∧
       State.reset.dev.rd Reg.SYS_ROMVER = 0x00000201 ∧
       State.reset.dev.rd Reg.ANG_NOMINC_LO = 0x06B5FCA7 ∧
       State.reset.dev.rd Reg.TIM_INC = 0x08000000 ∧
       State.reset.dev.rd Reg.SWP_STRETCHMAX = 0x00000014 ∧
       State.reset.dev.rd Reg.LIM_SWDTO = 0x00002710 ∧
       State.reset.dev.rd Reg.SCC_ECON = 0x00000050 ∧
       State.reset.dev.rd Reg.BAL_TLIM = 0x46370004 ∧
       State.reset.dev.rd Reg.EST_PUBTO = 0x00000064 ∧
       State.reset.dev.rd Reg.CE_OVRLIM = 0x00000003 ∧
       State.reset.dev.rd Reg.SDM_CKDIV = 0x00000019 ∧
       State.reset.dev.rd Reg.DSP_LIMCH = 0x17D78400 ∧
       State.reset.dev.rd Reg.MOT_SRMAX = 0x00004E20 ∧
       State.reset.dev.rd Reg.FIO_OLIM = 0x00000005 ∧
       State.reset.dev.rd Reg.CYC_PERIOD = 0x00001388 ∧
       State.reset.dev.rd Reg.SMB_ADDR = 0x000000AC ∧
       State.reset.dev.rd Reg.REC_FLPER = 0x0000003C ∧
       State.reset.dev.rd Reg.SVC_IDLETO = 0x00000258)

/-- A write of v to a register of the chapters' lists takes effect bit by bit: a set-only lock bit rises where v has a 1
and never falls; a W1C bit clears where v has a 1; a RW bit takes the bit of v; a RW-L bit takes it while the lock
of its block is open; every other bit stays. What the register then reads is that value, every other register reads
as before, and a write to an unlisted offset has no effect. A lock bit that is set stays set. (A write of a register
whose chapter gives it more than its access types is the register command's own; this is the storage the other
commands share.) A register write of the system pair to a claimed block is not performed: it is discarded,
SYS_EXPDROP counts it (saturating at 0xFFFF_FFFF), SYS_EXPDBLK takes the block and the offset, and every other
register but those an entry in the recorder writes reads as before. A program write to a block whose claim-enable
bit is 0 is not performed and raises the protection exception with sub-code 2; the same write of a session changes
nothing. An expert write to a claim-enabled block claims it. -/
def Obligations.RegisterAccess : Prop :=
  (∀ (r : RegRow) (k : Bool) (old v : Word) (i : Nat),
     i < 32 →
       bitOf (r.write k old v) i = ((bitOf (nw r.set1) i && bitOf v i) || (!(bitOf (nw r.w1c) i && bitOf v i) && (if
           (bitOf (nw r.rw) i || (bitOf (nw r.rwl) i && !k)) = true then bitOf v i else bitOf old i)))) ∧
  (∀ (r : RegRow) (k : Bool) (old v : Word) (i : Nat),
     i < 32 →
     bitOf (nw r.set1) i = true →
     bitOf (nw r.w1c) i = false →
     bitOf (nw r.rw) i = false →
     bitOf (nw r.rwl) i = false →
     bitOf old i = true →
       bitOf (r.write k old v) i = true) ∧
  (∀ (d : Dev) (a b : Nat) (r : RegRow) (v : Word),
     d.Canon →
     findRow a = some r →
       (d.plainWrite a v).rd b = if b = a then r.write (d.locked a) (d.rd a) v else d.rd b) ∧
  (∀ (d : Dev) (a : Nat) (v : Word),
     findRow a = none →
       d.plainWrite a v = d) ∧
  (∀ (s : State) (a v : Word),
     s.dev.asleep = false →
     isPeriph a.toNat = true →
     blockOf a.toNat ≠ 27 →
     a.toNat % 4 = 0 →
       (s.dev.claimed (blockOf a.toNat) = true → exec (.registerWrite .system a v) s = .next (s.on (s.dev.discard
           a.toNat))) ∧
       (s.dev.claimEn (blockOf a.toNat) = false → exec (.registerWrite .program a v) s = .next (s.on (s.dev.raise
           .program 5 2 (some (nw a.toNat))))) ∧
       (s.dev.claimEn (blockOf a.toNat) = false → exec (.registerWrite .session a v) s = .next (s.on (s.dev)))) ∧
  (∀ (d : Dev) (a b : Nat),
     d.Canon →
       (d.discard a).rd Reg.SYS_EXPDROP = nw (min 4294967295 ((d.rd Reg.SYS_EXPDROP).toNat + 1)) ∧
       (d.discard a).rd Reg.SYS_EXPDBLK = nw (blockOf a * 65536 + a % 65536) ∧
       (b ≠ Reg.SYS_EXPDROP → b ≠ Reg.SYS_EXPDBLK → b ≠ Reg.REC_DROP → b ≠ Reg.REC_STAT → b ≠ Reg.SMB_REQQ → b ≠
           Reg.SMB_STAT → (d.discard a).rd b = d.rd b)) ∧
  (∀ (s : State) (src : Writer) (a v : Word) (d : Dev),
     s.dev.asleep = false →
     isPeriph a.toNat = true →
     blockOf a.toNat ≠ 27 →
     a.toNat % 4 = 0 →
     src ≠ .system →
     s.dev.claimEn (blockOf a.toNat) = true →
     s.dev.setClaim (blockOf a.toNat) = d →
       exec (.registerWrite src a v) s = .next (s.on (d.regWrite src a.toNat v))) ∧
  (∀ (d : Dev) (b : Nat),
     d.Canon →
     b ≤ 32 →
       (d.setClaim b).claimed b = true)

/-- On a pair that is ready (the module works, the pair runs, its fetch raises nothing and no reset waits) each integer
register instruction answers the next state in which rd alone holds the result of Table 12.5, the program counter
has gone on by 4, and everything else stands; a write to w0 is discarded and w0 reads as zero. -/
def Obligations.IntegerResults : Prop :=
  (∀ (s : State) (p : Pair) (rd ra rb : GReg),
     let c := s.dev.core p;
     s.dev.Ready p →
       exec (.add p rd ra rb) s = .next (s.retire p (c.setReg rd (c.reg ra + c.reg rb))) ∧
       exec (.sub p rd ra rb) s = .next (s.retire p (c.setReg rd (c.reg ra - c.reg rb))) ∧
       exec (.and p rd ra rb) s = .next (s.retire p (c.setReg rd (c.reg ra &&& c.reg rb))) ∧
       exec (.or p rd ra rb) s = .next (s.retire p (c.setReg rd (c.reg ra ||| c.reg rb))) ∧
       exec (.xor p rd ra rb) s = .next (s.retire p (c.setReg rd (c.reg ra ^^^ c.reg rb))) ∧
       exec (.nor p rd ra rb) s = .next (s.retire p (c.setReg rd (~~~ (c.reg ra ||| c.reg rb)))) ∧
       exec (.slt p rd ra rb) s = .next (s.retire p (c.setReg rd (if (c.reg ra).slt (c.reg rb) then 1 else 0))) ∧
       exec (.sltu p rd ra rb) s = .next (s.retire p (c.setReg rd (if (c.reg ra).ult (c.reg rb) then 1 else 0))) ∧
       exec (.sll p rd ra rb) s = .next (s.retire p (c.setReg rd (c.reg ra <<< ((c.reg rb).toNat % 32)))) ∧
       exec (.srl p rd ra rb) s = .next (s.retire p (c.setReg rd (c.reg ra >>> ((c.reg rb).toNat % 32)))) ∧
       exec (.sra p rd ra rb) s = .next (s.retire p (c.setReg rd ((c.reg ra).sshiftRight ((c.reg rb).toNat % 32)))) ∧
       exec (.ror p rd ra rb) s = .next (s.retire p (c.setReg rd ((c.reg ra).rotateRight ((c.reg rb).toNat % 32)))) ∧
       exec (.min p rd ra rb) s = .next (s.retire p (c.setReg rd (if (c.reg rb).slt (c.reg ra) then c.reg rb else
           c.reg ra))) ∧
       exec (.max p rd ra rb) s = .next (s.retire p (c.setReg rd (if (c.reg ra).slt (c.reg rb) then c.reg rb else
           c.reg ra))) ∧
       exec (.minu p rd ra rb) s = .next (s.retire p (c.setReg rd (if (c.reg rb).ult (c.reg ra) then c.reg rb else
           c.reg ra))) ∧
       exec (.maxu p rd ra rb) s = .next (s.retire p (c.setReg rd (if (c.reg ra).ult (c.reg rb) then c.reg rb else
           c.reg ra))) ∧
       exec (.adds p rd ra rb) s = .next (s.retire p (c.setReg rd (iw (sat32 ((c.reg ra).toInt + (c.reg rb).toInt)))))
           ∧
       exec (.subs p rd ra rb) s = .next (s.retire p (c.setReg rd (iw (sat32 ((c.reg ra).toInt - (c.reg rb).toInt)))))
           ∧
       exec (.mul p rd ra rb) s = .next (s.retire p (c.setReg rd (c.reg ra * c.reg rb))) ∧
       exec (.mulh p rd ra rb) s = .next (s.retire p (c.setReg rd (iw ((c.reg ra).toInt * (c.reg rb).toInt / 2 ^
           32)))) ∧
       exec (.mulhu p rd ra rb) s = .next (s.retire p (c.setReg rd (nw ((c.reg ra).toNat * (c.reg rb).toNat / 2 ^
           32))))) ∧
  (∀ (s : State) (p : Pair) (rd ra : GReg) (sh : BitVec 5),
     let c := s.dev.core p;
     s.dev.Ready p →
       exec (.slli p rd ra sh) s = .next (s.retire p (c.setReg rd (c.reg ra <<< sh.toNat))) ∧
       exec (.srli p rd ra sh) s = .next (s.retire p (c.setReg rd (c.reg ra >>> sh.toNat))) ∧
       exec (.srai p rd ra sh) s = .next (s.retire p (c.setReg rd ((c.reg ra).sshiftRight sh.toNat))) ∧
       exec (.rori p rd ra sh) s = .next (s.retire p (c.setReg rd ((c.reg ra).rotateRight sh.toNat)))) ∧
  (∀ (s : State) (p : Pair) (rd ra : GReg),
     let c := s.dev.core p;
     s.dev.Ready p →
       exec (.clz p rd ra) s = .next (s.retire p (c.setReg rd (nw (clz32 (c.reg ra))))) ∧
       exec (.popc p rd ra) s = .next (s.retire p (c.setReg rd (nw (popc32 (c.reg ra))))) ∧
       exec (.extb p rd ra) s = .next (s.retire p (c.setReg rd (iw (sx 8 (c.reg ra).toNat)))) ∧
       exec (.exth p rd ra) s = .next (s.retire p (c.setReg rd (iw (sx 16 (c.reg ra).toNat))))) ∧
  (∀ (c : CoreSt) (r q : GReg) (v : Word),
       c.reg 0 = 0 ∧
       c.setReg 0 v = c ∧
       (r ≠ 0 → (c.setReg r v).reg r = v) ∧
       (q ≠ r → (c.setReg r v).reg q = c.reg q))

/-- On a ready pair each immediate instruction answers the next state in which rd alone holds the result of Table 12.6
and the program counter has gone on by 4: ADDI, SLTI and SLTIU with the immediate sign-extended, ANDI, ORI and XORI
with it zero-extended, LUI with it in the upper half. -/
def Obligations.ImmediateResults : Prop :=
  (∀ (s : State) (p : Pair) (rd ra : GReg) (imm : BitVec 16),
     let c := s.dev.core p;
     s.dev.Ready p →
       exec (.addi p rd ra imm) s = .next (s.retire p (c.setReg rd (c.reg ra + imm.signExtend 32))) ∧
       exec (.andi p rd ra imm) s = .next (s.retire p (c.setReg rd (c.reg ra &&& imm.setWidth 32))) ∧
       exec (.ori p rd ra imm) s = .next (s.retire p (c.setReg rd (c.reg ra ||| imm.setWidth 32))) ∧
       exec (.xori p rd ra imm) s = .next (s.retire p (c.setReg rd (c.reg ra ^^^ imm.setWidth 32))) ∧
       exec (.slti p rd ra imm) s = .next (s.retire p (c.setReg rd (if (c.reg ra).slt (imm.signExtend 32) then 1 else
           0))) ∧
       exec (.sltiu p rd ra imm) s = .next (s.retire p (c.setReg rd (if (c.reg ra).ult (imm.signExtend 32) then 1 else
           0))) ∧
       exec (.lui p rd imm) s = .next (s.retire p (c.setReg rd (imm.setWidth 32 <<< 16))))

/-- On a ready pair DIV, REM, DIVU and REMU always answer a next state. Division by zero gives quotient 0 and the
dividend as remainder and sets s.status.DZ; the most negative number by -1 gives quotient 0x80000000 and remainder 0
and sets s.status.OV; any other division is truncated toward zero, the remainder with the sign of the dividend, and
sets neither. -/
def Obligations.DivisionCorners : Prop :=
  (∀ (s : State) (p : Pair) (rd ra rb : GReg),
     let c := s.dev.core p;
     s.dev.Ready p →
     (s.dev.core p).reg rb = 0 →
       exec (.div p rd ra rb) s = .next (s.retire p ((c.setReg rd 0).setDZ)) ∧
       exec (.rem p rd ra rb) s = .next (s.retire p ((c.setReg rd (c.reg ra)).setDZ)) ∧
       exec (.divu p rd ra rb) s = .next (s.retire p ((c.setReg rd 0).setDZ)) ∧
       exec (.remu p rd ra rb) s = .next (s.retire p ((c.setReg rd (c.reg ra)).setDZ))) ∧
  (∀ (s : State) (p : Pair) (rd ra rb : GReg),
     let c := s.dev.core p;
     s.dev.Ready p →
     (s.dev.core p).reg ra = 0x80000000 →
     (s.dev.core p).reg rb = 0xFFFFFFFF →
       exec (.div p rd ra rb) s = .next (s.retire p ((c.setReg rd 0x80000000).setOV)) ∧
       exec (.rem p rd ra rb) s = .next (s.retire p ((c.setReg rd 0).setOV))) ∧
  (∀ (s : State) (p : Pair) (rd ra rb : GReg),
     let c := s.dev.core p;
     s.dev.Ready p →
     (s.dev.core p).reg rb ≠ 0 →
     ¬ ((s.dev.core p).reg ra = 0x80000000 ∧ (s.dev.core p).reg rb = 0xFFFFFFFF) →
       exec (.div p rd ra rb) s = .next (s.retire p (c.setReg rd (iw (Int.tdiv (c.reg ra).toInt (c.reg rb).toInt)))) ∧
       exec (.rem p rd ra rb) s = .next (s.retire p (c.setReg rd (iw (Int.tmod (c.reg ra).toInt (c.reg rb).toInt))))) ∧
  (∀ (s : State) (p : Pair) (rd ra rb : GReg),
     let c := s.dev.core p;
     s.dev.Ready p →
     (s.dev.core p).reg rb ≠ 0 →
       exec (.divu p rd ra rb) s = .next (s.retire p (c.setReg rd (nw ((c.reg ra).toNat / (c.reg rb).toNat)))) ∧
       exec (.remu p rd ra rb) s = .next (s.retire p (c.setReg rd (nw ((c.reg ra).toNat % (c.reg rb).toNat)))))

/-- On a ready pair the fraction instructions take Q1.15 operands from bits [15:0] signed, form products exactly, round
by adding half an LSB and shifting arithmetically, saturate, and write rd alone. -/
def Obligations.FractionResults : Prop :=
  (∀ (s : State) (p : Pair) (rd ra rb : GReg),
     let c := s.dev.core p;
     s.dev.Ready p →
       exec (.qmul15 p rd ra rb) s = .next (s.retire p (c.setReg rd (iw (sat16 (((sx 16 (c.reg ra).toNat) * (sx 16
           (c.reg rb).toNat) + 2 ^ 14) / 2 ^ 15))))) ∧
       exec (.qmul31 p rd ra rb) s = .next (s.retire p (c.setReg rd (iw (sat32 (((c.reg ra).toInt * (c.reg rb).toInt +
           2 ^ 30) / 2 ^ 31))))) ∧
       exec (.qadd15 p rd ra rb) s = .next (s.retire p (c.setReg rd (iw (sat16 ((sx 16 (c.reg ra).toNat) + (sx 16
           (c.reg rb).toNat)))))) ∧
       exec (.qsub15 p rd ra rb) s = .next (s.retire p (c.setReg rd (iw (sat16 ((sx 16 (c.reg ra).toNat) - (sx 16
           (c.reg rb).toNat)))))) ∧
       exec (.qmac31 p rd ra rb) s = .next (s.retire p (c.setReg rd (iw (sat32 ((c.reg rd).toInt + sat32 (((c.reg
           ra).toInt * (c.reg rb).toInt + 2 ^ 30) / 2 ^ 31)))))) ∧
       exec (.qsat16 p rd ra) s = .next (s.retire p (c.setReg rd (iw (sat16 (c.reg ra).toInt)))))

/-- On a ready pair a branch whose condition holds goes to its own address plus 4 times the signed offset, else to the
next instruction; J and JAL go to the offset, JAL with PC + 4 in w31; JR and JALR go to the register, JALR with PC +
4 in rd. Nothing but the program counter and the link register changes. A register target that is not 4-byte aligned
raises FETCH with sub-code 3 at the target. -/
def Obligations.BranchTargets : Prop :=
  (∀ (s : State) (p : Pair) (ra rb : GReg) (off : BitVec 16),
     let c := s.dev.core p;
     s.dev.Ready p →
       exec (.beq p ra rb off) s = .next (s.on (s.dev.setCore p (if (c.reg ra == c.reg rb) = true then
           { c with pc := c.pc + (off.signExtend 32 <<< 2) } else c.next))) ∧
       exec (.bne p ra rb off) s = .next (s.on (s.dev.setCore p (if (c.reg ra != c.reg rb) = true then
           { c with pc := c.pc + (off.signExtend 32 <<< 2) } else c.next))) ∧
       exec (.blt p ra rb off) s = .next (s.on (s.dev.setCore p (if (c.reg ra).slt (c.reg rb) = true then
           { c with pc := c.pc + (off.signExtend 32 <<< 2) } else c.next))) ∧
       exec (.bge p ra rb off) s = .next (s.on (s.dev.setCore p (if (!(c.reg ra).slt (c.reg rb)) = true then
           { c with pc := c.pc + (off.signExtend 32 <<< 2) } else c.next))) ∧
       exec (.bltu p ra rb off) s = .next (s.on (s.dev.setCore p (if (c.reg ra).ult (c.reg rb) = true then
           { c with pc := c.pc + (off.signExtend 32 <<< 2) } else c.next))) ∧
       exec (.bgeu p ra rb off) s = .next (s.on (s.dev.setCore p (if (!(c.reg ra).ult (c.reg rb)) = true then
           { c with pc := c.pc + (off.signExtend 32 <<< 2) } else c.next)))) ∧
  (∀ (s : State) (p : Pair) (off : BitVec 26),
     let c := s.dev.core p;
     s.dev.Ready p →
       exec (.j p off) s = .next (s.on (s.dev.setCore p { c with pc := c.pc + (off.signExtend 32 <<< 2) })) ∧
       exec (.jal p off) s = .next (s.on (s.dev.setCore p
           { c.setReg 31 (c.pc + 4) with pc := c.pc + (off.signExtend 32 <<< 2) }))) ∧
  (∀ (s : State) (p : Pair) (rd ra : GReg),
     let c := s.dev.core p;
     s.dev.Ready p →
     ((s.dev.core p).reg ra).toNat % 4 = 0 →
       exec (.jr p ra) s = .next (s.on (s.dev.setCore p { c with pc := c.reg ra })) ∧
       exec (.jalr p rd ra) s = .next (s.on (s.dev.setCore p { c.setReg rd (c.pc + 4) with pc := c.reg ra }))) ∧
  (∀ (s : State) (p : Pair) (rd ra : GReg),
     let c := s.dev.core p;
     s.dev.Ready p →
     ((s.dev.core p).reg ra).toNat % 4 ≠ 0 →
       exec (.jr p ra) s = .next (s.on ((s.dev.setCore p { c with pc := c.reg ra }).exception p 3 3 (some (c.reg ra))
           (c.reg ra)).settle) ∧
       exec (.jalr p rd ra) s = .next (s.on ((s.dev.setCore p
           { c.setReg rd (c.pc + 4) with pc := c.reg ra }).exception p 3 3 (some (c.reg ra)) (c.reg ra)).settle))

/-- On a ready pair each binary32 instruction answers the next state in which rd holds the IEEE 754 result of Table 12.9
under the rounding mode s.fcsr.RM, the flags it raises are ORed into s.fcsr, and nothing else changes; FMADD rounds
once; the compares give 1 or 0; FNEG and FABS raise no flag. -/
def Obligations.Binary32Results : Prop :=
  (∀ (s : State) (p : Pair) (rd ra rb : GReg),
     let c := s.dev.core p;
     s.dev.Ready p →
       exec (.fadd p rd ra rb) s = .next (s.retire p (c.putF rd (f32.add c.rm (c.reg ra).toNat (c.reg rb).toNat))) ∧
       exec (.fsub p rd ra rb) s = .next (s.retire p (c.putF rd (f32.sub c.rm (c.reg ra).toNat (c.reg rb).toNat))) ∧
       exec (.fmul p rd ra rb) s = .next (s.retire p (c.putF rd (f32.mul c.rm (c.reg ra).toNat (c.reg rb).toNat))) ∧
       exec (.fdiv p rd ra rb) s = .next (s.retire p (c.putF rd (f32.div c.rm (c.reg ra).toNat (c.reg rb).toNat))) ∧
       exec (.fmin p rd ra rb) s = .next (s.retire p (c.putF rd (f32.minmax false (c.reg ra).toNat (c.reg rb).toNat)))
           ∧
       exec (.fmax p rd ra rb) s = .next (s.retire p (c.putF rd (f32.minmax true (c.reg ra).toNat (c.reg rb).toNat)))
           ∧
       exec (.fmadd p rd ra rb) s = .next (s.retire p (c.putF rd (f32.fma c.rm (c.reg rd).toNat (c.reg ra).toNat
           (c.reg rb).toNat))) ∧
       exec (.feq p rd ra rb) s = .next (s.retire p (c.putF rd (f32.eq (c.reg ra).toNat (c.reg rb).toNat))) ∧
       exec (.flt p rd ra rb) s = .next (s.retire p (c.putF rd (f32.lt false (c.reg ra).toNat (c.reg rb).toNat))) ∧
       exec (.fle p rd ra rb) s = .next (s.retire p (c.putF rd (f32.lt true (c.reg ra).toNat (c.reg rb).toNat)))) ∧
  (∀ (s : State) (p : Pair) (rd ra : GReg),
     let c := s.dev.core p;
     s.dev.Ready p →
       exec (.fsqrt p rd ra) s = .next (s.retire p (c.putF rd (f32.sqrt c.rm (c.reg ra).toNat))) ∧
       exec (.fneg p rd ra) s = .next (s.retire p (c.setReg rd (nw (f32.neg (c.reg ra).toNat)))) ∧
       exec (.fabs p rd ra) s = .next (s.retire p (c.setReg rd (nw (f32.abs (c.reg ra).toNat)))) ∧
       exec (.fcvtws p rd ra) s = .next (s.retire p ((c.setReg rd (f32.toInt (c.reg ra).toNat).1).fflags (f32.toInt
           (c.reg ra).toNat).2)) ∧
       exec (.fcvtsw p rd ra) s = .next (s.retire p (c.putF rd (f32.ofInt c.rm (c.reg ra).toInt))) ∧
       exec (.fcvtswu p rd ra) s = .next (s.retire p (c.putF rd (f32.ofInt c.rm (c.reg ra).toNat))))

/-- On a ready pair, with every 64-bit operand an even register of at least 2, each binary64 instruction answers the
next state in which the pair rd (or for compares and DCVTWS, and FCVTSD, the register rd) holds the IEEE 754 result,
its flags are ORed into s.fcsr, and nothing else changes. -/
def Obligations.Binary64Results : Prop :=
  (∀ (s : State) (p : Pair) (rd ra rb : GReg),
     let c := s.dev.core p;
     s.dev.Ready p →
     pairOk rd = true ∧ pairOk ra = true ∧ pairOk rb = true →
       exec (.dadd p rd ra rb) s = .next (s.retire p (c.putD rd (f64.add c.rm (c.regD ra) (c.regD rb)))) ∧
       exec (.dsub p rd ra rb) s = .next (s.retire p (c.putD rd (f64.sub c.rm (c.regD ra) (c.regD rb)))) ∧
       exec (.dmul p rd ra rb) s = .next (s.retire p (c.putD rd (f64.mul c.rm (c.regD ra) (c.regD rb)))) ∧
       exec (.ddiv p rd ra rb) s = .next (s.retire p (c.putD rd (f64.div c.rm (c.regD ra) (c.regD rb)))) ∧
       exec (.dmin p rd ra rb) s = .next (s.retire p (c.putD rd (f64.minmax false (c.regD ra) (c.regD rb)))) ∧
       exec (.dmax p rd ra rb) s = .next (s.retire p (c.putD rd (f64.minmax true (c.regD ra) (c.regD rb)))) ∧
       exec (.dmadd p rd ra rb) s = .next (s.retire p (c.putD rd (f64.fma c.rm (c.regD rd) (c.regD ra) (c.regD rb))))) ∧
  (∀ (s : State) (p : Pair) (rd ra rb : GReg),
     let c := s.dev.core p;
     s.dev.Ready p →
     pairOk ra = true ∧ pairOk rb = true →
       exec (.deq p rd ra rb) s = .next (s.retire p (c.putF rd (f64.eq (c.regD ra) (c.regD rb)))) ∧
       exec (.dlt p rd ra rb) s = .next (s.retire p (c.putF rd (f64.lt false (c.regD ra) (c.regD rb)))) ∧
       exec (.dle p rd ra rb) s = .next (s.retire p (c.putF rd (f64.lt true (c.regD ra) (c.regD rb))))) ∧
  (∀ (s : State) (p : Pair) (rd ra : GReg),
     let c := s.dev.core p;
     s.dev.Ready p →
     pairOk rd = true ∧ pairOk ra = true →
       exec (.dsqrt p rd ra) s = .next (s.retire p (c.putD rd (f64.sqrt c.rm (c.regD ra)))) ∧
       exec (.dneg p rd ra) s = .next (s.retire p (c.putD rd (f64.neg (c.regD ra), 0))) ∧
       exec (.dabs p rd ra) s = .next (s.retire p (c.putD rd (f64.abs (c.regD ra), 0)))) ∧
  (∀ (s : State) (p : Pair) (rd ra : GReg),
     let c := s.dev.core p;
     s.dev.Ready p →
     pairOk ra = true →
       exec (.fcvtsd p rd ra) s = .next (s.retire p (c.putF rd (f32.convert f64 c.rm (c.regD ra)))) ∧
       exec (.dcvtws p rd ra) s = .next (s.retire p ((c.setReg rd (f64.toInt (c.regD ra)).1).fflags (f64.toInt (c.regD
           ra)).2))) ∧
  (∀ (s : State) (p : Pair) (rd ra : GReg),
     let c := s.dev.core p;
     s.dev.Ready p →
     pairOk rd = true →
       exec (.fcvtds p rd ra) s = .next (s.retire p (c.putD rd (f64.convert f32 c.rm (c.reg ra).toNat))) ∧
       exec (.dcvtsw p rd ra) s = .next (s.retire p (c.putD rd (f64.ofInt c.rm (c.reg ra).toInt))) ∧
       exec (.dcvtswu p rd ra) s = .next (s.retire p (c.putD rd (f64.ofInt c.rm (c.reg ra).toNat))))

/-- w0 reads as zero and a write to it is discarded; wn holds bits [31:0] of a 64-bit value and wn+1 bits [63:32], n
even and at least 2; on a ready pair every instruction with a 64-bit operand or destination that names an odd
register, or w0, raises the illegal-instruction exception (code 1, sub-code 0) and does nothing else. VREDADD, VMINI
and VMAXI do so while VL is not zero. -/
def Obligations.RegisterPairs : Prop :=
  (∀ (c : CoreSt) (r q : GReg) (v : Word),
       c.reg 0 = 0 ∧
       c.setReg 0 v = c ∧
       (r ≠ 0 → (c.setReg r v).reg r = v) ∧
       (q ≠ r → (c.setReg r v).reg q = c.reg q)) ∧
  (∀ (c : CoreSt) (r : GReg) (v : Nat),
     pairOk r = true →
     v < 2 ^ 64 →
       r.toNat % 2 = 0 ∧ 2 ≤ r.toNat ∧
       c.regD r = (c.reg r).toNat + 2 ^ 32 * (c.reg (r + 1)).toNat ∧
       (c.setRegD r v).regD r = v) ∧
  (∀ (s : State) (p : Pair) (rd ra rb : GReg),
     s.dev.Ready p →
     (pairOk rd && pairOk ra && pairOk rb) = false →
       exec (.dadd p rd ra rb) s = .next (s.on (s.dev.raise p 1 0 none).settle) ∧
       exec (.dsub p rd ra rb) s = .next (s.on (s.dev.raise p 1 0 none).settle) ∧
       exec (.dmul p rd ra rb) s = .next (s.on (s.dev.raise p 1 0 none).settle) ∧
       exec (.ddiv p rd ra rb) s = .next (s.on (s.dev.raise p 1 0 none).settle) ∧
       exec (.dmin p rd ra rb) s = .next (s.on (s.dev.raise p 1 0 none).settle) ∧
       exec (.dmax p rd ra rb) s = .next (s.on (s.dev.raise p 1 0 none).settle) ∧
       exec (.dmadd p rd ra rb) s = .next (s.on (s.dev.raise p 1 0 none).settle)) ∧
  (∀ (s : State) (p : Pair) (rd ra rb : GReg),
     s.dev.Ready p →
     (pairOk ra && pairOk rb) = false →
       exec (.deq p rd ra rb) s = .next (s.on (s.dev.raise p 1 0 none).settle) ∧
       exec (.dlt p rd ra rb) s = .next (s.on (s.dev.raise p 1 0 none).settle) ∧
       exec (.dle p rd ra rb) s = .next (s.on (s.dev.raise p 1 0 none).settle)) ∧
  (∀ (s : State) (p : Pair) (rd ra : GReg),
     s.dev.Ready p →
     (pairOk rd && pairOk ra) = false →
       exec (.dsqrt p rd ra) s = .next (s.on (s.dev.raise p 1 0 none).settle) ∧
       exec (.dneg p rd ra) s = .next (s.on (s.dev.raise p 1 0 none).settle) ∧
       exec (.dabs p rd ra) s = .next (s.on (s.dev.raise p 1 0 none).settle)) ∧
  (∀ (s : State) (p : Pair) (rd ra : GReg) (mv : MReg),
     s.dev.Ready p →
     pairOk ra = false →
       exec (.fcvtsd p rd ra) s = .next (s.on (s.dev.raise p 1 0 none).settle) ∧
       exec (.dcvtws p rd ra) s = .next (s.on (s.dev.raise p 1 0 none).settle) ∧
       exec (.vmwr p ra mv) s = .next (s.on (s.dev.raise p 1 0 none).settle)) ∧
  (∀ (s : State) (p : Pair) (rd ra : GReg) (mv : MReg) (imm : BitVec 16),
     s.dev.Ready p →
     pairOk rd = false →
       exec (.fcvtds p rd ra) s = .next (s.on (s.dev.raise p 1 0 none).settle) ∧
       exec (.dcvtsw p rd ra) s = .next (s.on (s.dev.raise p 1 0 none).settle) ∧
       exec (.dcvtswu p rd ra) s = .next (s.on (s.dev.raise p 1 0 none).settle) ∧
       exec (.vmrd p rd mv) s = .next (s.on (s.dev.raise p 1 0 none).settle) ∧
       exec (.ldd p rd ra imm) s = .next (s.on (s.dev.raise p 1 0 none).settle) ∧
       exec (.std p rd ra imm) s = .next (s.on (s.dev.raise p 1 0 none).settle)) ∧
  (∀ (s : State) (p : Pair) (rd : GReg) (v : VReg) (k : VMask),
     s.dev.Ready p →
     (s.dev.core p).vl ≠ 0 →
     pairOk rd = false →
       exec (.vredadd p rd v k) s = .next (s.on (s.dev.raise p 1 0 none).settle) ∧
       exec (.vmini p rd v k) s = .next (s.on (s.dev.raise p 1 0 none).settle) ∧
       exec (.vmaxi p rd v k) s = .next (s.on (s.dev.raise p 1 0 none).settle))

/-- On a ready pair, at an address a + sext(imm16) whose access raises nothing and is not suppressed, each load from
memory answers the next state in which rd (for LDD the pair rd) alone holds the little-endian bytes there,
sign-extended for LDH and LDB and zero-extended for LDHU and LDBU. From a peripheral register LDW gives what a read
of the register gives, with the effect of that read. The fetch and the load each count the single-bit errors of the
words they read in HLT_ECCCNT and go on. -/
def Obligations.LoadResults : Prop :=
  (∀ (s : State) (p : Pair) (rd ra : GReg) (imm : BitVec 16) (a : Nat),
     let c := s.dev.core p;
     s.dev.Ready p →
     ((s.dev.core p).reg ra + imm.signExtend 32).toNat = a →
     s.dev.dataFault p kLoad a 4 true = none →
     isPeriph a = false →
       exec (.ldw p rd ra imm) s = .next (s.retire p (c.setReg rd (s.dev.word a)))) ∧
  (∀ (s : State) (p : Pair) (rd ra : GReg) (imm : BitVec 16) (a : Nat),
     s.dev.Ready p →
     ((s.dev.core p).reg ra + imm.signExtend 32).toNat = a →
     s.dev.dataFault p kLoad a 4 true = none →
     isPeriph a = true →
       exec (.ldw p rd ra imm) s = .next (s.on ((s.dev.periphRead a).2.setCore p (((s.dev.periphRead a).2.core
           p).setReg rd (s.dev.periphRead a).1).next).settle)) ∧
  (∀ (s : State) (p : Pair) (rd ra : GReg) (imm : BitVec 16) (a : Nat),
     let c := s.dev.core p;
     s.dev.Ready p →
     ((s.dev.core p).reg ra + imm.signExtend 32).toNat = a →
     s.dev.dataFault p kLoad a 2 true = none →
       exec (.ldh p rd ra imm) s = .next (s.retire p (c.setReg rd (iw (sx 16 (leNat (s.dev.bytes a 2)))))) ∧
       exec (.ldhu p rd ra imm) s = .next (s.retire p (c.setReg rd (nw (leNat (s.dev.bytes a 2)))))) ∧
  (∀ (s : State) (p : Pair) (rd ra : GReg) (imm : BitVec 16) (a : Nat),
     let c := s.dev.core p;
     s.dev.Ready p →
     ((s.dev.core p).reg ra + imm.signExtend 32).toNat = a →
     s.dev.dataFault p kLoad a 1 true = none →
       exec (.ldb p rd ra imm) s = .next (s.retire p (c.setReg rd (iw (sx 8 (leNat (s.dev.bytes a 1)))))) ∧
       exec (.ldbu p rd ra imm) s = .next (s.retire p (c.setReg rd (nw (leNat (s.dev.bytes a 1)))))) ∧
  (∀ (s : State) (p : Pair) (rd ra : GReg) (imm : BitVec 16) (a : Nat),
     let c := s.dev.core p;
     s.dev.Ready p →
     ((s.dev.core p).reg ra + imm.signExtend 32).toNat = a →
     s.dev.dataFault p kLoad a 8 true = none →
     isPeriph a = false →
     isPeriph (a + 4) = false →
     pairOk rd = true →
       exec (.ldd p rd ra imm) s = .next (s.retire p (c.setRegD rd ((s.dev.word a).toNat + 2 ^ 32 * (s.dev.word (a +
           4)).toNat)))) ∧
  (∀ (s : State) (p : Pair) (rd ra : GReg) (imm : BitVec 16) (a : Nat) (g e : Dev),
     s.dev.asleep = false →
     (s.dev.core p).runs = true →
     s.dev.fetchFault p = none →
     s.dev.corrected (s.dev.core p).pc.toNat 4 = g →
     (g.core p).addr ra imm = a →
     g.dataFault p kLoad a 4 true = none →
     isPeriph a = false →
     g.corrected a 4 = e →
       exec (.ldw p rd ra imm) s = .next (s.on (e.setCore p ((e.core p).setReg rd (e.word a)).next).settle)) ∧
  (∀ (d : Dev) (a n k : Nat),
     (d.corr.filter (fun e => e < a + n && a < e + 4)).length = k →
       (k = 0 → d.corrected a n = d) ∧
       (k ≠ 0 → d.corrected a n = d.setFld Reg.HLT_ECCCNT 15 0 (min 65535 (d.fld Reg.HLT_ECCCNT 15 0 + k))))

/-- On a ready pair, at an address in SRAM whose access raises nothing, each store answers the next state in which the
core has gone on and the low bytes of rd (for STD the pair rd as two words, the lower first) stand at the address,
the other pair's reservation on the granule is cleared and the ECC error of a wholly overwritten word is gone. A
word stored to a peripheral address is a write of that register by the pair. -/
def Obligations.StoreResults : Prop :=
  (∀ (s : State) (p : Pair) (rd ra : GReg) (imm : BitVec 16) (a : Nat),
     let c := s.dev.core p;
     s.dev.Ready p →
     ((s.dev.core p).reg ra + imm.signExtend 32).toNat = a →
     s.dev.dataFault p kStore a 4 false = none →
     isSram a = true →
       exec (.stw p rd ra imm) s = .next (s.on ((s.dev.setCore p c.next).sramStore p a (leBytes 4 (c.reg rd).toNat)))) ∧
  (∀ (s : State) (p : Pair) (rd ra : GReg) (imm : BitVec 16) (a : Nat),
     let c := s.dev.core p;
     s.dev.Ready p →
     ((s.dev.core p).reg ra + imm.signExtend 32).toNat = a →
     s.dev.dataFault p kStore a 2 false = none →
     isSram a = true →
       exec (.sth p rd ra imm) s = .next (s.on ((s.dev.setCore p c.next).sramStore p a (leBytes 2 (c.reg rd).toNat)))) ∧
  (∀ (s : State) (p : Pair) (rd ra : GReg) (imm : BitVec 16) (a : Nat),
     let c := s.dev.core p;
     s.dev.Ready p →
     ((s.dev.core p).reg ra + imm.signExtend 32).toNat = a →
     s.dev.dataFault p kStore a 1 false = none →
     isSram a = true →
       exec (.stb p rd ra imm) s = .next (s.on ((s.dev.setCore p c.next).sramStore p a (leBytes 1 (c.reg rd).toNat)))) ∧
  (∀ (s : State) (p : Pair) (rd ra : GReg) (imm : BitVec 16) (a : Nat),
     let c := s.dev.core p;
     s.dev.Ready p →
     ((s.dev.core p).reg ra + imm.signExtend 32).toNat = a →
     s.dev.dataFault p kStore a 8 false = none →
     isSram a = true ∧ isSram (a + 4) = true →
     pairOk rd = true →
       exec (.std p rd ra imm) s = .next (s.on (((s.dev.setCore p c.next).sramStore p a (leBytes 4 (nw (c.regD
           rd)).toNat)).sramStore p (a + 4) (leBytes 4 (nw (c.regD rd / 2 ^ 32)).toNat)))) ∧
  (∀ (s : State) (p : Pair) (rd ra : GReg) (imm : BitVec 16) (a : Nat),
     let c := s.dev.core p;
     s.dev.Ready p →
     ((s.dev.core p).reg ra + imm.signExtend 32).toNat = a →
     s.dev.dataFault p kStore a 4 false = none →
     isPeriph a = true →
       exec (.stw p rd ra imm) s = .next (s.on ((s.dev.setCore p c.next).periphWrite (if p = Pair.system then
           Writer.system else Writer.program) a (c.reg rd)).settle))

/-- In a state in canonical form, when STW, STH or STB stores to SRAM from a ready pair, the bytes at its address (4, 2
or 1 of them, the least significant first) are those of rd, and every other byte of memory and every register of the
module reads as before. -/
def Obligations.StoreBytes : Prop :=
  (∀ (s : State) (p : Pair) (rd ra : GReg) (imm : BitVec 16) (a n : Nat) (i : Instr),
     s.Inv →
     s.dev.Ready p →
     ((s.dev.core p).reg ra + imm.signExtend 32).toNat = a →
     s.dev.dataFault p kStore a n false = none →
     isSram a = true →
     (n = 4 ∧ i = .stw p rd ra imm) ∨ (n = 2 ∧ i = .sth p rd ra imm) ∨ (n = 1 ∧ i = .stb p rd ra imm) →
       ∃ t : State, exec i s = .next t ∧ t.pending = s.pending ∧ t.dev.regs = s.dev.regs ∧ (∀ k, k < n → (t.dev.byte
           (a + k)).toNat = ((s.dev.core p).reg rd).toNat / 256 ^ k % 256) ∧ (∀ b, b < a ∨ a + n ≤ b → t.dev.byte b =
           s.dev.byte b))

/-- On a ready pair, at a word of SRAM whose access raises nothing, each AMO answers the next state in which rd holds
the old word and memory the result of the operation on the old word and rb. -/
def Obligations.AtomicResults : Prop :=
  (∀ (s : State) (p : Pair) (rd ra rb : GReg) (a : Nat),
     let c := s.dev.core p;
     let old := s.dev.word a;
     s.dev.Ready p →
     ((s.dev.core p).reg ra).toNat = a →
     s.dev.dataFault p kAtomic a 4 false = none →
       exec (.amoswp p rd ra rb) s = .next (s.on ((s.dev.setCore p (c.setReg rd old).next).sramStore p a (leBytes 4
           (c.reg rb).toNat))) ∧
       exec (.amoadd p rd ra rb) s = .next (s.on ((s.dev.setCore p (c.setReg rd old).next).sramStore p a (leBytes 4
           (old + c.reg rb).toNat))) ∧
       exec (.amoand p rd ra rb) s = .next (s.on ((s.dev.setCore p (c.setReg rd old).next).sramStore p a (leBytes 4
           (old &&& c.reg rb).toNat))) ∧
       exec (.amoor p rd ra rb) s = .next (s.on ((s.dev.setCore p (c.setReg rd old).next).sramStore p a (leBytes 4
           (old ||| c.reg rb).toNat))) ∧
       exec (.amomax p rd ra rb) s = .next (s.on ((s.dev.setCore p (c.setReg rd old).next).sramStore p a (leBytes 4
           (if old.slt (c.reg rb) then c.reg rb else old).toNat))) ∧
       exec (.amomin p rd ra rb) s = .next (s.on ((s.dev.setCore p (c.setReg rd old).next).sramStore p a (leBytes 4
           (if (c.reg rb).slt old then c.reg rb else old).toNat))))

/-- On a ready pair LDX loads the word and reserves its aligned 8-byte granule. STX stores rb and gives 0 if and only if
the reservation covers its address, else it stores nothing and gives 1; either way the reservation is cleared.
Exception entry and RFX clear it, and so does a store of the other pair to the granule. -/
def Obligations.Reservations : Prop :=
  (∀ (s : State) (p : Pair) (rd ra : GReg) (a : Nat),
     let c := s.dev.core p;
     s.dev.Ready p →
     ((s.dev.core p).reg ra).toNat = a →
     s.dev.dataFault p kAtomic a 4 true = none →
       exec (.ldx p rd ra) s = .next (s.retire p { c.setReg rd (s.dev.word a) with resv := some (a / 8 * 8) })) ∧
  (∀ (s : State) (p : Pair) (rd ra rb : GReg) (a : Nat),
     let c := s.dev.core p;
     s.dev.Ready p →
     ((s.dev.core p).reg ra).toNat = a →
     s.dev.dataFault p kAtomic a 4 false = none →
     (s.dev.core p).resv = some (a / 8 * 8) →
       exec (.stx p rd ra rb) s = .next (s.on ((s.dev.setCore p { c.setReg rd 0 with resv := none }.next).sramStore p
           a (leBytes 4 (c.reg rb).toNat)))) ∧
  (∀ (s : State) (p : Pair) (rd ra rb : GReg) (a : Nat),
     let c := s.dev.core p;
     s.dev.Ready p →
     ((s.dev.core p).reg ra).toNat = a →
     s.dev.dataFault p kAtomic a 4 false = none →
     (s.dev.core p).resv ≠ some (a / 8 * 8) →
       exec (.stx p rd ra rb) s = .next (s.retire p { c.setReg rd 1 with resv := none })) ∧
  (∀ (c : CoreSt) (p : Pair) (code sub : Nat) (x : Option Word) (pc h : Word),
       (c.enter code sub x pc h).resv = none ∧
       (c.rfx p).resv = none) ∧
  (∀ (d : Dev) (a g : Nat) (l : List Byte),
     isSram a = true →
     a < g + 8 ∧ g < a + l.length →
       (d.sys.resv = some g → (d.sramStore .program a l).sys.resv = none) ∧
       (d.prog.resv = some g → (d.sramStore .system a l).prog.resv = none))

/-- On a ready pair at supervisor level MFS gives each special register of Table 12.1 in rd (s.cycle as 0 on the system
pair, s.status.IE as 0 on the program pair, s.coreid as the pair, and a read of s.clk latches s.clkh); MTS writes
the read-write bits of each register and leaves the others; SETS and CLRS give the old value in rd and set or clear
the read-write bits where ra holds 1. A 1 written to s.evt clears the event; CLRS clears DZ and OV of s.status.
Nothing else changes. -/
def Obligations.SpecialRegisterAccess : Prop :=
  (∀ (s : State) (p : Pair) (rd : GReg),
     let c := s.dev.core p;
     let st := if p = Pair.system then c.status else withBit c.status 3 false;
     s.dev.Ready p →
     (s.dev.core p).user = false →
       exec (.mfs p rd 0) s = .next (s.retire p (c.setReg rd (st))) ∧
       exec (.mfs p rd 1) s = .next (s.retire p (c.setReg rd (c.ctl))) ∧
       exec (.mfs p rd 2) s = .next (s.retire p (c.setReg rd (c.xpc))) ∧
       exec (.mfs p rd 3) s = .next (s.retire p (c.setReg rd (c.xcode))) ∧
       exec (.mfs p rd 4) s = .next (s.retire p (c.setReg rd (c.xaddr))) ∧
       exec (.mfs p rd 5) s = .next (s.retire p (c.setReg rd (c.xtab))) ∧
       exec (.mfs p rd 6) s = .next (s.retire p (c.setReg rd (c.scratch))) ∧
       exec (.mfs p rd 7) s = .next (s.retire p (c.setReg rd (c.xstat))) ∧
       exec (.mfs p rd 8) s = .next (s.retire p (c.setReg rd (c.fcsr))) ∧
       exec (.mfs p rd 0x10) s = .next (s.retire p (c.setReg rd (if p = Pair.system then 0 else c.cycle))) ∧
       exec (.mfs p rd 0x11) s = .next (s.retire p ({ c with clkh := (c.clk >>> 32).setWidth 32 }.setReg rd
           (c.clk.setWidth 32))) ∧
       exec (.mfs p rd 0x12) s = .next (s.retire p (c.setReg rd (c.clkh))) ∧
       exec (.mfs p rd 0x18) s = .next (s.retire p (c.setReg rd (c.evt))) ∧
       exec (.mfs p rd 0x19) s = .next (s.retire p (c.setReg rd (c.evmask))) ∧
       exec (.mfs p rd 0x1F) s = .next (s.retire p (c.setReg rd (if p = Pair.system then 0 else 1))) ∧
       exec (.mfs p rd 0x20) s = .next (s.retire p (c.setReg rd (c.lraddr)))) ∧
  (∀ (s : State) (p : Pair) (ra : GReg),
     let c := s.dev.core p;
     let st := if p = Pair.system then c.status else withBit c.status 3 false;
     s.dev.Ready p →
     (s.dev.core p).user = false →
       exec (.mts p ra 1) s = .next (s.retire p { c with ctl := (c.ctl &&& ~~~ 1) ||| (c.reg ra &&& 1) }) ∧
       exec (.mts p ra 2) s = .next (s.retire p { c with xpc := c.reg ra }) ∧
       exec (.mts p ra 5) s = .next (s.retire p { c with xtab := (c.xtab &&& 0x3F) ||| (c.reg ra &&& 0xFFFFFFC0) }) ∧
       exec (.mts p ra 6) s = .next (s.retire p { c with scratch := c.reg ra }) ∧
       exec (.mts p ra 7) s = .next (s.retire p { c with xstat := (c.xstat &&& ~~~ 9) ||| (c.reg ra &&& 9) }) ∧
       exec (.mts p ra 8) s = .next (s.retire p { c with fcsr := (c.fcsr &&& ~~~ 0x7F) ||| (c.reg ra &&& 0x7F) }) ∧
       exec (.mts p ra 0x18) s = .next (s.retire p { c with evt := c.evt &&& ~~~ c.reg ra }) ∧
       exec (.mts p ra 0x19) s = .next (s.retire p
           { c with evmask := (c.evmask &&& ~~~ 0xFFFF) ||| (c.reg ra &&& 0xFFFF) }) ∧
       exec (.mts p ra 0) s = .next (s.retire p
           { c with status := if p = Pair.system then (c.status &&& ~~~ 8) ||| (c.reg ra &&& 8) else st }) ∧
       exec (.mts p ra 3) s = .next (s.retire p c) ∧
       exec (.mts p ra 4) s = .next (s.retire p c) ∧
       exec (.mts p ra 0x10) s = .next (s.retire p c) ∧
       exec (.mts p ra 0x11) s = .next (s.retire p c) ∧
       exec (.mts p ra 0x12) s = .next (s.retire p c) ∧
       exec (.mts p ra 0x1F) s = .next (s.retire p c) ∧
       exec (.mts p ra 0x20) s = .next (s.retire p c)) ∧
  (∀ (s : State) (p : Pair) (rd ra : GReg),
     let c := s.dev.core p;
     let st := if p = Pair.system then c.status else withBit c.status 3 false;
     s.dev.Ready p →
     (s.dev.core p).user = false →
       exec (.sets p rd ra 6) s = .next (s.retire p ({ c with scratch := c.scratch ||| c.reg ra }.setReg rd
           c.scratch)) ∧
       exec (.clrs p rd ra 6) s = .next (s.retire p ({ c with scratch := c.scratch &&& ~~~ c.reg ra }.setReg rd
           c.scratch)) ∧
       exec (.sets p rd ra 0x18) s = .next (s.retire p (c.setReg rd c.evt)) ∧
       exec (.clrs p rd ra 0x18) s = .next (s.retire p ({ c with evt := c.evt &&& ~~~ (c.reg ra &&& 0xFFFF) }.setReg
           rd c.evt)) ∧
       exec (.clrs p rd ra 0) s = .next (s.retire p
           ({ c with status := st &&& ~~~ (c.reg ra &&& (if p = Pair.system then 0x308 else 0x300)) }.setReg rd st)))

/-- On a ready pair at user level, MFS of a register that Table 12.1 does not mark U raises PRIV (code 2); MTS and SETS
of any register but s.fcsr raise PRIV; CLRS of any register but s.fcsr and s.status raises PRIV; CLRS of s.status
clears DZ and OV only, whatever else the mask holds; MFS of every register marked U (the clock apart while
s.ctl.INSTEP is 1) gives its value, and MTS, SETS and CLRS of s.fcsr act. At supervisor level a number that Table
12.1 does not list raises ILL (code 1). -/
def Obligations.SpecialRegisterFaults : Prop :=
  (∀ (s : State) (p : Pair) (rd : GReg) (num : BitVec 11),
     s.dev.Ready p →
     (s.dev.core p).user = true →
     num ∉ [(0 : BitVec 11), 8, 0x10, 0x11, 0x12, 0x1F, 0x20] →
       exec (.mfs p rd num) s = .next (s.on (s.dev.raise p 2 0 none).settle)) ∧
  (∀ (s : State) (p : Pair) (rd ra : GReg) (num : BitVec 11),
     s.dev.Ready p →
     (s.dev.core p).user = true →
     num ≠ 8 →
       exec (.mts p ra num) s = .next (s.on (s.dev.raise p 2 0 none).settle) ∧
       exec (.sets p rd ra num) s = .next (s.on (s.dev.raise p 2 0 none).settle) ∧
       (num ≠ 0 → exec (.clrs p rd ra num) s = .next (s.on (s.dev.raise p 2 0 none).settle))) ∧
  (∀ (s : State) (p : Pair) (rd ra : GReg),
     let c := s.dev.core p;
     let st := if p = Pair.system then c.status else withBit c.status 3 false;
     s.dev.Ready p →
     (s.dev.core p).user = true →
       exec (.clrs p rd ra 0) s = .next (s.retire p ({ c with status := st &&& ~~~ (c.reg ra &&& 0x300) }.setReg rd
           st)) ∧
       exec (.clrs p rd ra 8) s = .next (s.retire p ({ c with fcsr := c.fcsr &&& ~~~ (c.reg ra &&& 0x7F) }.setReg rd
           c.fcsr)) ∧
       exec (.mts p ra 8) s = .next (s.retire p { c with fcsr := (c.fcsr &&& ~~~ 0x7F) ||| (c.reg ra &&& 0x7F) }) ∧
       exec (.sets p rd ra 8) s = .next (s.retire p
           ({ c with fcsr := (c.fcsr &&& ~~~ 0x7F) ||| ((c.fcsr ||| c.reg ra) &&& 0x7F) }.setReg rd c.fcsr)) ∧
       exec (.mfs p rd 0) s = .next (s.retire p (c.setReg rd (st))) ∧
       exec (.mfs p rd 8) s = .next (s.retire p (c.setReg rd (c.fcsr))) ∧
       exec (.mfs p rd 0x10) s = .next (s.retire p (c.setReg rd (if p = Pair.system then 0 else c.cycle))) ∧
       exec (.mfs p rd 0x1F) s = .next (s.retire p (c.setReg rd (if p = Pair.system then 0 else 1))) ∧
       exec (.mfs p rd 0x20) s = .next (s.retire p (c.setReg rd (c.lraddr)))) ∧
  (∀ (s : State) (p : Pair) (rd : GReg),
     let c := s.dev.core p;
     s.dev.Ready p →
     (s.dev.core p).user = true →
     bitOf (s.dev.core p).ctl 0 = false →
       exec (.mfs p rd 0x11) s = .next (s.retire p ({ c with clkh := (c.clk >>> 32).setWidth 32 }.setReg rd
           (c.clk.setWidth 32))) ∧
       exec (.mfs p rd 0x12) s = .next (s.retire p (c.setReg rd (c.clkh)))) ∧
  (∀ (s : State) (p : Pair) (rd ra : GReg) (num : BitVec 11),
     s.dev.Ready p →
     (s.dev.core p).user = false →
     specListed num.toNat = false →
       exec (.mfs p rd num) s = .next (s.on (s.dev.raise p 1 0 none).settle) ∧
       exec (.mts p ra num) s = .next (s.on (s.dev.raise p 1 0 none).settle) ∧
       exec (.sets p rd ra num) s = .next (s.on (s.dev.raise p 1 0 none).settle) ∧
       exec (.clrs p rd ra num) s = .next (s.on (s.dev.raise p 1 0 none).settle))

/-- Entry while INX is 0 and the handler word is good saves PL and IE in s.xstat, the resume address in s.xpc, the code
and sub-code in s.xcode and the failing address where there is one, sets PL and INX, clears IE, and goes to the
handler: the word at s.xtab + 4 CODE. DZ, OV and LR stay. A handler word outside boot ROM and SRAM, with an ECC
error, or misaligned stops the pair. SYSC resumes after itself. RFX restores PC, PL and IE and clears INX, and
raises PRIV at user level. -/
def Obligations.ExceptionEntry : Prop :=
  (∀ (d : Dev) (p : Pair) (code sub : Nat) (xaddr : Option Word) (xpc h : Word),
     let c := d.core p;
     bitOf (d.core p).status 5 = false →
     d.handler (d.core p).xtab code = some h →
     p = .system ∨ (d.core p).user = false ∨ code = 8 →
       d.exception p code sub xaddr xpc = d.setCore p { c with
             xstat := nw (b2n (bitOf c.status 0) + 8 * b2n (bitOf c.status 3))
             xpc := xpc
             xcode := nw (code + 256 * sub)
             xaddr := xaddr.getD c.xaddr
             status := withBit (withBit (withBit c.status 0 true) 3 false) 5 true
             pc := h
             resv := none
             waiting := .none }) ∧
  (∀ (d : Dev) (x : Word) (code : Nat),
       d.handler x code = (if (x.toNat + 4 * code < 0x10000 ∨ isSram (x.toNat + 4 * code) = true) ∧ d.ecc.contains
           (x.toNat + 4 * code) = false ∧ (d.word (x.toNat + 4 * code)).toNat % 4 = 0 then some (d.word (x.toNat + 4 *
           code)) else none)) ∧
  (∀ (d : Dev) (p : Pair) (code sub : Nat) (xaddr : Option Word) (xpc : Word),
     bitOf (d.core p).status 5 = false →
     d.handler (d.core p).xtab code = none →
       d.exception p code sub xaddr xpc = d.pairStop p true) ∧
  (∀ (c : CoreSt) (p : Pair) (code sub : Nat) (x : Option Word) (pc h : Word) (i : Nat),
     i = 8 ∨ i = 9 ∨ i = 11 →
       bitOf (c.enter code sub x pc h).status i = bitOf c.status i ∧
       bitOf (c.rfx p).status i = bitOf c.status i) ∧
  (∀ (s : State) (p : Pair),
     let c := s.dev.core p;
     s.dev.Ready p →
     (s.dev.core p).user = false →
       exec (.rfx p) s = .next (s.on (s.dev.setCore p
           { c with pc := c.xpc, status := withBit (withBit (withBit c.status 0 (bitOf c.xstat 0)) 3 (p = .system && bitOf c.xstat 3)) 5 false, resv := none }))) ∧
  (∀ (s : State) (p : Pair),
     s.dev.Ready p →
     (s.dev.core p).user = true →
       exec (.rfx p) s = .next (s.on (s.dev.raise p 2 0 none).settle)) ∧
  (∀ (s : State) (p : Pair) (imm : BitVec 11) (h : Word),
     let c := s.dev.core p;
     s.dev.Ready p →
     (s.dev.core p).user = false ∨ imm ∈ [(1 : BitVec 11), 2, 3, 0x10, 0x20, 0x30, 0x40] →
     bitOf (s.dev.core p).status 5 = false →
     s.dev.handler (s.dev.core p).xtab 8 = some h →
       exec (.sysc p imm) s = .next (s.on (s.dev.setCore p (c.enter 8 0 (some (nw imm.toNat)) (c.pc + 4) h)))) ∧
  (∀ (s : State) (p : Pair) (h : Word),
     let c := s.dev.core p;
     s.dev.Ready p →
     p = .system ∨ (s.dev.core p).user = false →
     bitOf (s.dev.core p).status 5 = false →
     s.dev.handler (s.dev.core p).xtab 9 = some h →
       exec (.brk p) s = .next (s.on (s.dev.setCore p (c.enter 9 0 none c.pc h))))

/-- An exception that arises while INX is 1 stops the pair: on the program pair the program goes to FAULT, START stays
locked, entry 0x8051 is made and the partner is told; on the system pair a warm reset of cause 13 is asked for. A
lockstep error does the same with entry 0x8050. -/
def Obligations.DoubleFault : Prop :=
  (∀ (d : Dev) (p : Pair) (code sub : Nat) (x : Option Word) (pc : Word),
     bitOf (d.core p).status 5 = true →
       d.exception p code sub x pc = d.pairStop p true) ∧
  (∀ (d : Dev),
       d.pairStop .system true =
           { d with sys := { d.sys with stopped := true, resv := none }, pwr := { d.pwr with resetWait := some 13 } }) ∧
  (∀ (d : Dev),
     let e0 : Dev := ({ d with prog := { d.prog with stopped := true, resv := none } }).progFault;
     let e : Dev := { e0 with cyc := { e0.cyc with lockout := true } };
       (d.pairStop .program true = (e.hw 0x8051 []).sendFail 2 ∧ d.pairStop .program false = (e.hw 0x8050 []).sendFail
           1)) ∧
  (∀ (s : State) (p : Pair),
     s.dev.asleep = false →
     (s.dev.core p).stopped = false →
       exec (.lockstepError p) s = .next (s.on (s.dev.pairStop p false).settle))

/-- On a ready pair FENCE with bits [10:4] zero only goes on, and raises ILL otherwise; at supervisor level WFE gives
s.evt AND ra at once when that is not zero, else the pair waits with that mask; SEV goes on and sets its line in the
named pair, whose wait it may end; at user level WFE and SEV raise PRIV. The system pair with IE set takes an
interrupt between instructions: the entry of exception 10 with the source as sub-code, the next instruction as
resume address. -/
def Obligations.EventsAndInterrupts : Prop :=
  (∀ (s : State) (p : Pair) (imm : BitVec 11),
     s.dev.Ready p →
     imm.toNat < 16 →
       exec (.fence p imm) s = .next (s.retire p (s.dev.core p))) ∧
  (∀ (s : State) (p : Pair) (imm : BitVec 11),
     s.dev.Ready p →
     16 ≤ imm.toNat →
       exec (.fence p imm) s = .next (s.on (s.dev.raise p 1 0 none).settle)) ∧
  (∀ (s : State) (p : Pair) (rd ra : GReg),
     let c := s.dev.core p;
     s.dev.Ready p →
     (s.dev.core p).user = false →
     (s.dev.core p).evt &&& (s.dev.core p).reg ra ≠ 0 →
       exec (.wfe p rd ra) s = .next (s.retire p (c.setReg rd (c.evt &&& c.reg ra)))) ∧
  (∀ (s : State) (p : Pair) (rd ra : GReg),
     let c := s.dev.core p;
     s.dev.Ready p →
     (s.dev.core p).user = false →
     (s.dev.core p).evt &&& (s.dev.core p).reg ra = 0 →
       exec (.wfe p rd ra) s = .next (s.on (s.dev.setCore p { c with waiting := .wfe (c.reg ra) rd }))) ∧
  (∀ (s : State) (p : Pair) (imm : BitVec 11),
     s.dev.Ready p →
     (s.dev.core p).user = false →
     imm.toNat < 32 →
       exec (.sev p imm) s = .next (s.on ((s.dev.setCore p (s.dev.core p).next).setEvent (if 16 ≤ imm.toNat then
           .program else .system) (imm.toNat % 16)))) ∧
  (∀ (s : State) (p : Pair) (rd ra : GReg) (imm : BitVec 11),
     s.dev.Ready p →
     (s.dev.core p).user = true →
       exec (.wfe p rd ra) s = .next (s.on (s.dev.raise p 2 0 none).settle) ∧
       (imm.toNat < 32 → exec (.sev p imm) s = .next (s.on (s.dev.raise p 2 0 none).settle))) ∧
  (∀ (s : State) (source : Nat) (h : Word),
     s.dev.asleep = false →
     s.dev.pwr.resetWait = none →
     s.dev.sys.stopped = false →
     bitOf s.dev.sys.status 3 = true →
     bitOf s.dev.sys.status 5 = false →
     (source < 0x80 ∨ (0x90 ≤ source ∧ source < 256)) ∨ (0x80 ≤ source ∧ source < 0x90 ∧ bitOf (s.dev.sys.evt &&&
         s.dev.sys.evmask) (source - 0x80) = true) →
     s.dev.handler s.dev.sys.xtab 10 = some h →
       exec (.interrupt source) s = .next (s.on (s.dev.setCore .system (s.dev.sys.enter 10 source none s.dev.sys.pc
           h))))

/-- On a ready pair with VL not 0 each vector integer and fraction instruction answers the next state in which every
active lane of vd holds the result of Table 13.3 on the lanes of va and of the second source (a vector, or a general
register broadcast), and every other lane of vd and all else stand; VSEL takes every lane below VL; the lane an
update leaves or writes is as the last clause says. -/
def Obligations.VectorLaneResults : Prop :=
  (∀ (s : State) (p : Pair) (vd va : VReg) (s2 : VSrc) (k : VMask),
     let c := s.dev.core p;
     s.dev.Ready p →
     (s.dev.core p).vl ≠ 0 →
       exec (.vadd p vd va s2 k) s = .next (s.retire p (c.putLanes vd k (fun i => c.lane va i + c.src2 s2 i))) ∧
       exec (.vsub p vd va s2 k) s = .next (s.retire p (c.putLanes vd k (fun i => c.lane va i - c.src2 s2 i))) ∧
       exec (.vand p vd va s2 k) s = .next (s.retire p (c.putLanes vd k (fun i => c.lane va i &&& c.src2 s2 i))) ∧
       exec (.vor p vd va s2 k) s = .next (s.retire p (c.putLanes vd k (fun i => c.lane va i ||| c.src2 s2 i))) ∧
       exec (.vxor p vd va s2 k) s = .next (s.retire p (c.putLanes vd k (fun i => c.lane va i ^^^ c.src2 s2 i))) ∧
       exec (.vsll p vd va s2 k) s = .next (s.retire p (c.putLanes vd k (fun i => c.lane va i <<< ((c.src2 s2 i).toNat
           % 32)))) ∧
       exec (.vsrl p vd va s2 k) s = .next (s.retire p (c.putLanes vd k (fun i => c.lane va i >>> ((c.src2 s2 i).toNat
           % 32)))) ∧
       exec (.vsra p vd va s2 k) s = .next (s.retire p (c.putLanes vd k (fun i => (c.lane va i).sshiftRight ((c.src2
           s2 i).toNat % 32)))) ∧
       exec (.vmin p vd va s2 k) s = .next (s.retire p (c.putLanes vd k (fun i => if (c.src2 s2 i).slt (c.lane va i)
           then c.src2 s2 i else c.lane va i))) ∧
       exec (.vmax p vd va s2 k) s = .next (s.retire p (c.putLanes vd k (fun i => if (c.lane va i).slt (c.src2 s2 i)
           then c.src2 s2 i else c.lane va i))) ∧
       exec (.vminu p vd va s2 k) s = .next (s.retire p (c.putLanes vd k (fun i => if (c.src2 s2 i).ult (c.lane va i)
           then c.src2 s2 i else c.lane va i))) ∧
       exec (.vmaxu p vd va s2 k) s = .next (s.retire p (c.putLanes vd k (fun i => if (c.lane va i).ult (c.src2 s2 i)
           then c.src2 s2 i else c.lane va i))) ∧
       exec (.vadds p vd va s2 k) s = .next (s.retire p (c.putLanes vd k (fun i => iw (sat32 ((c.lane va i).toInt +
           (c.src2 s2 i).toInt))))) ∧
       exec (.vsubs p vd va s2 k) s = .next (s.retire p (c.putLanes vd k (fun i => iw (sat32 ((c.lane va i).toInt -
           (c.src2 s2 i).toInt))))) ∧
       exec (.vmul p vd va s2 k) s = .next (s.retire p (c.putLanes vd k (fun i => c.lane va i * c.src2 s2 i))) ∧
       exec (.vmulh p vd va s2 k) s = .next (s.retire p (c.putLanes vd k (fun i => iw ((c.lane va i).toInt * (c.src2
           s2 i).toInt / 2 ^ 32)))) ∧
       exec (.vqmul31 p vd va s2 k) s = .next (s.retire p (c.putLanes vd k (fun i => iw (sat32 (((c.lane va i).toInt *
           (c.src2 s2 i).toInt + 2 ^ 30) / 2 ^ 31))))) ∧
       exec (.vqmac31 p vd va s2 k) s = .next (s.retire p (c.putLanes vd k (fun i => iw (sat32 ((c.lane vd i).toInt +
           sat32 (((c.lane va i).toInt * (c.src2 s2 i).toInt + 2 ^ 30) / 2 ^ 31)))))) ∧
       exec (.vmv p vd s2 k) s = .next (s.retire p (c.putLanes vd k (fun i => c.src2 s2 i))) ∧
       exec (.viota p vd k) s = .next (s.retire p (c.putLanes vd k (fun i => nw i)))) ∧
  (∀ (s : State) (p : Pair) (vd va : VReg) (s2 : VSrc) (mi : MReg),
     let c := s.dev.core p;
     s.dev.Ready p →
     (s.dev.core p).vl ≠ 0 →
       exec (.vsel p vd va s2 mi) s = .next (s.retire p (c.putLanes vd ⟨false, mi⟩ (fun i => if c.mlane mi i then
           c.lane va i else c.src2 s2 i)))) ∧
  (∀ (c : CoreSt) (vd q : VReg) (k : VMask) (f : Nat → Word) (i : Nat),
     i < 64 →
       (c.putLanes vd k f).lane vd i = (if i < c.vl ∧ (k.me = true → c.mlane k.mi i = true) then f i else c.lane vd i)
           ∧
       (q ≠ vd → (c.putLanes vd k f).lane q i = c.lane q i))

/-- On a ready pair with VL not 0 each vector binary32 instruction gives every active lane of vd the result of the
scalar instruction under s.fcsr.RM, ORs the flags of the active lanes into s.fcsr, and changes nothing else; VFNEG
and VFABS raise no flag. -/
def Obligations.VectorBinary32Results : Prop :=
  (∀ (s : State) (p : Pair) (vd va : VReg) (s2 : VSrc) (k : VMask),
     let c := s.dev.core p;
     s.dev.Ready p →
     (s.dev.core p).vl ≠ 0 →
       exec (.vfadd p vd va s2 k) s = .next (s.retire p ((c.putLanes vd k (fun i => nw (f32.add c.rm (c.lane va
           i).toNat (c.src2 s2 i).toNat).1)).fflags (c.laneFlags k (fun i => (f32.add c.rm (c.lane va i).toNat (c.src2
           s2 i).toNat).2)))) ∧
       exec (.vfsub p vd va s2 k) s = .next (s.retire p ((c.putLanes vd k (fun i => nw (f32.sub c.rm (c.lane va
           i).toNat (c.src2 s2 i).toNat).1)).fflags (c.laneFlags k (fun i => (f32.sub c.rm (c.lane va i).toNat (c.src2
           s2 i).toNat).2)))) ∧
       exec (.vfmul p vd va s2 k) s = .next (s.retire p ((c.putLanes vd k (fun i => nw (f32.mul c.rm (c.lane va
           i).toNat (c.src2 s2 i).toNat).1)).fflags (c.laneFlags k (fun i => (f32.mul c.rm (c.lane va i).toNat (c.src2
           s2 i).toNat).2)))) ∧
       exec (.vfdiv p vd va s2 k) s = .next (s.retire p ((c.putLanes vd k (fun i => nw (f32.div c.rm (c.lane va
           i).toNat (c.src2 s2 i).toNat).1)).fflags (c.laneFlags k (fun i => (f32.div c.rm (c.lane va i).toNat (c.src2
           s2 i).toNat).2)))) ∧
       exec (.vfmin p vd va s2 k) s = .next (s.retire p ((c.putLanes vd k (fun i => nw (f32.minmax false (c.lane va
           i).toNat (c.src2 s2 i).toNat).1)).fflags (c.laneFlags k (fun i => (f32.minmax false (c.lane va i).toNat
           (c.src2 s2 i).toNat).2)))) ∧
       exec (.vfmax p vd va s2 k) s = .next (s.retire p ((c.putLanes vd k (fun i => nw (f32.minmax true (c.lane va
           i).toNat (c.src2 s2 i).toNat).1)).fflags (c.laneFlags k (fun i => (f32.minmax true (c.lane va i).toNat
           (c.src2 s2 i).toNat).2)))) ∧
       exec (.vfmadd p vd va s2 k) s = .next (s.retire p ((c.putLanes vd k (fun i => nw (f32.fma c.rm (c.lane vd
           i).toNat (c.lane va i).toNat (c.src2 s2 i).toNat).1)).fflags (c.laneFlags k (fun i => (f32.fma c.rm (c.lane
           vd i).toNat (c.lane va i).toNat (c.src2 s2 i).toNat).2))))) ∧
  (∀ (s : State) (p : Pair) (vd va : VReg) (k : VMask),
     let c := s.dev.core p;
     s.dev.Ready p →
     (s.dev.core p).vl ≠ 0 →
       exec (.vfsqrt p vd va k) s = .next (s.retire p ((c.putLanes vd k (fun i => nw (f32.sqrt c.rm (c.lane va
           i).toNat).1)).fflags (c.laneFlags k (fun i => (f32.sqrt c.rm (c.lane va i).toNat).2)))) ∧
       exec (.vfcvtsw p vd va k) s = .next (s.retire p ((c.putLanes vd k (fun i => nw (f32.ofInt c.rm (c.lane va
           i).toInt).1)).fflags (c.laneFlags k (fun i => (f32.ofInt c.rm (c.lane va i).toInt).2)))) ∧
       exec (.vfcvtws p vd va k) s = .next (s.retire p ((c.putLanes vd k (fun i => (f32.toInt (c.lane va
           i).toNat).1)).fflags (c.laneFlags k (fun i => (f32.toInt (c.lane va i).toNat).2)))) ∧
       exec (.vfneg p vd va k) s = .next (s.retire p (c.putLanes vd k (fun i => nw (f32.neg (c.lane va i).toNat)))) ∧
       exec (.vfabs p vd va k) s = .next (s.retire p (c.putLanes vd k (fun i => nw (f32.abs (c.lane va i).toNat)))))

/-- On a ready pair with VL not 0 a vector compare or mask operation writes each active lane of the mask with its result
and every other lane 0, and binary32 compares OR their flags into s.fcsr. VSETVL sets VL to min(wa, 64) and gives it
in wd, VGETVL gives VL, VMRD and VMWR move all 64 lanes from and to an even register pair, whatever VL. -/
def Obligations.VectorMaskResults : Prop :=
  (∀ (s : State) (p : Pair) (md : MReg) (va : VReg) (s2 : VSrc) (k : VMask),
     let c := s.dev.core p;
     s.dev.Ready p →
     (s.dev.core p).vl ≠ 0 →
       exec (.vceq p md va s2 k) s = .next (s.retire p (c.putMask md k (fun i => c.lane va i == c.src2 s2 i))) ∧
       exec (.vcne p md va s2 k) s = .next (s.retire p (c.putMask md k (fun i => c.lane va i != c.src2 s2 i))) ∧
       exec (.vclt p md va s2 k) s = .next (s.retire p (c.putMask md k (fun i => (c.lane va i).slt (c.src2 s2 i)))) ∧
       exec (.vcge p md va s2 k) s = .next (s.retire p (c.putMask md k (fun i => !(c.lane va i).slt (c.src2 s2 i)))) ∧
       exec (.vcltu p md va s2 k) s = .next (s.retire p (c.putMask md k (fun i => (c.lane va i).ult (c.src2 s2 i)))) ∧
       exec (.vcgeu p md va s2 k) s = .next (s.retire p (c.putMask md k (fun i => !(c.lane va i).ult (c.src2 s2 i))))
           ∧
       exec (.vfceq p md va s2 k) s = .next (s.retire p ((c.putMask md k (fun i => (f32.eq (c.lane va i).toNat (c.src2
           s2 i).toNat).1 = 1)).fflags (c.laneFlags k (fun i => (f32.eq (c.lane va i).toNat (c.src2 s2 i).toNat).2))))
           ∧
       exec (.vfclt p md va s2 k) s = .next (s.retire p ((c.putMask md k (fun i => (f32.lt false (c.lane va i).toNat
           (c.src2 s2 i).toNat).1 = 1)).fflags (c.laneFlags k (fun i => (f32.lt false (c.lane va i).toNat (c.src2 s2
           i).toNat).2)))) ∧
       exec (.vfcle p md va s2 k) s = .next (s.retire p ((c.putMask md k (fun i => (f32.lt true (c.lane va i).toNat
           (c.src2 s2 i).toNat).1 = 1)).fflags (c.laneFlags k (fun i => (f32.lt true (c.lane va i).toNat (c.src2 s2
           i).toNat).2))))) ∧
  (∀ (s : State) (p : Pair) (md ma mb : MReg) (k : VMask),
     let c := s.dev.core p;
     s.dev.Ready p →
     (s.dev.core p).vl ≠ 0 →
       exec (.mand p md ma mb k) s = .next (s.retire p (c.putMask md k (fun i => c.mlane ma i && c.mlane mb i))) ∧
       exec (.mor p md ma mb k) s = .next (s.retire p (c.putMask md k (fun i => c.mlane ma i || c.mlane mb i))) ∧
       exec (.mandn p md ma mb k) s = .next (s.retire p (c.putMask md k (fun i => c.mlane ma i && !c.mlane mb i))) ∧
       exec (.mnot p md ma k) s = .next (s.retire p (c.putMask md k (fun i => !c.mlane ma i)))) ∧
  (∀ (s : State) (p : Pair) (rd ra : GReg),
     let c := s.dev.core p;
     s.dev.Ready p →
       exec (.vsetvl p rd ra) s = .next (s.retire p ({ c with vl := min (c.reg ra).toNat 64 }.setReg rd (nw (min
           (c.reg ra).toNat 64)))) ∧
       exec (.vgetvl p rd) s = .next (s.retire p (c.setReg rd (nw c.vl)))) ∧
  (∀ (s : State) (p : Pair) (r : GReg) (mv : MReg),
     let c := s.dev.core p;
     s.dev.Ready p →
     pairOk r = true →
       exec (.vmrd p r mv) s = .next (s.retire p (c.setRegD r (c.m[mv.toNat]).toNat)) ∧
       exec (.vmwr p r mv) s = .next (s.retire p { c with m := c.m.set mv.toNat (BitVec.ofNat 64 (c.regD r)) })) ∧
  (∀ (c : CoreSt) (md q : MReg) (k : VMask) (f : Nat → Bool) (i : Nat),
     i < 64 →
       (c.putMask md k f).mlane md i = (decide (i < c.vl) && (!k.me || c.mlane k.mi i) && f i) ∧
       (q ≠ md → (c.putMask md k f).mlane q i = c.mlane q i))

/-- On a ready pair with VL 0 every CVX instruction other than VSETVL, VGETVL, VMRD and VMWR answers the next state in
which nothing but the program counter has changed: no vector, mask or general register, no memory, no flag, no
exception. -/
def Obligations.VectorLengthZero : Prop :=
  (∀ (s : State) (p : Pair) (vd va : VReg) (s2 : VSrc) (k : VMask),
     s.dev.Ready p →
     (s.dev.core p).vl = 0 →
       exec (.vadd p vd va s2 k) s = .next (s.retire p (s.dev.core p)) ∧
       exec (.vsub p vd va s2 k) s = .next (s.retire p (s.dev.core p)) ∧
       exec (.vand p vd va s2 k) s = .next (s.retire p (s.dev.core p)) ∧
       exec (.vor p vd va s2 k) s = .next (s.retire p (s.dev.core p)) ∧
       exec (.vxor p vd va s2 k) s = .next (s.retire p (s.dev.core p)) ∧
       exec (.vsll p vd va s2 k) s = .next (s.retire p (s.dev.core p)) ∧
       exec (.vsrl p vd va s2 k) s = .next (s.retire p (s.dev.core p)) ∧
       exec (.vsra p vd va s2 k) s = .next (s.retire p (s.dev.core p)) ∧
       exec (.vmin p vd va s2 k) s = .next (s.retire p (s.dev.core p)) ∧
       exec (.vmax p vd va s2 k) s = .next (s.retire p (s.dev.core p)) ∧
       exec (.vminu p vd va s2 k) s = .next (s.retire p (s.dev.core p)) ∧
       exec (.vmaxu p vd va s2 k) s = .next (s.retire p (s.dev.core p)) ∧
       exec (.vadds p vd va s2 k) s = .next (s.retire p (s.dev.core p))) ∧
  (∀ (s : State) (p : Pair) (vd va : VReg) (s2 : VSrc) (k : VMask),
     s.dev.Ready p →
     (s.dev.core p).vl = 0 →
       exec (.vsubs p vd va s2 k) s = .next (s.retire p (s.dev.core p)) ∧
       exec (.vmul p vd va s2 k) s = .next (s.retire p (s.dev.core p)) ∧
       exec (.vmulh p vd va s2 k) s = .next (s.retire p (s.dev.core p)) ∧
       exec (.vqmul31 p vd va s2 k) s = .next (s.retire p (s.dev.core p)) ∧
       exec (.vqmac31 p vd va s2 k) s = .next (s.retire p (s.dev.core p)) ∧
       exec (.vfadd p vd va s2 k) s = .next (s.retire p (s.dev.core p)) ∧
       exec (.vfsub p vd va s2 k) s = .next (s.retire p (s.dev.core p)) ∧
       exec (.vfmul p vd va s2 k) s = .next (s.retire p (s.dev.core p)) ∧
       exec (.vfdiv p vd va s2 k) s = .next (s.retire p (s.dev.core p)) ∧
       exec (.vfmin p vd va s2 k) s = .next (s.retire p (s.dev.core p)) ∧
       exec (.vfmax p vd va s2 k) s = .next (s.retire p (s.dev.core p)) ∧
       exec (.vfmadd p vd va s2 k) s = .next (s.retire p (s.dev.core p)) ∧
       exec (.vmv p vd s2 k) s = .next (s.retire p (s.dev.core p))) ∧
  (∀ (s : State) (p : Pair) (vd va : VReg) (s2 : VSrc) (k : VMask) (mi : MReg),
     s.dev.Ready p →
     (s.dev.core p).vl = 0 →
       exec (.viota p vd k) s = .next (s.retire p (s.dev.core p)) ∧
       exec (.vsel p vd va s2 mi) s = .next (s.retire p (s.dev.core p)) ∧
       exec (.vfsqrt p vd va k) s = .next (s.retire p (s.dev.core p)) ∧
       exec (.vfcvtws p vd va k) s = .next (s.retire p (s.dev.core p)) ∧
       exec (.vfcvtsw p vd va k) s = .next (s.retire p (s.dev.core p)) ∧
       exec (.vfneg p vd va k) s = .next (s.retire p (s.dev.core p)) ∧
       exec (.vfabs p vd va k) s = .next (s.retire p (s.dev.core p))) ∧
  (∀ (s : State) (p : Pair) (md ma mb : MReg) (va : VReg) (s2 : VSrc) (k : VMask),
     s.dev.Ready p →
     (s.dev.core p).vl = 0 →
       exec (.vceq p md va s2 k) s = .next (s.retire p (s.dev.core p)) ∧
       exec (.vcne p md va s2 k) s = .next (s.retire p (s.dev.core p)) ∧
       exec (.vclt p md va s2 k) s = .next (s.retire p (s.dev.core p)) ∧
       exec (.vcge p md va s2 k) s = .next (s.retire p (s.dev.core p)) ∧
       exec (.vcltu p md va s2 k) s = .next (s.retire p (s.dev.core p)) ∧
       exec (.vcgeu p md va s2 k) s = .next (s.retire p (s.dev.core p)) ∧
       exec (.vfceq p md va s2 k) s = .next (s.retire p (s.dev.core p)) ∧
       exec (.vfclt p md va s2 k) s = .next (s.retire p (s.dev.core p)) ∧
       exec (.vfcle p md va s2 k) s = .next (s.retire p (s.dev.core p)) ∧
       exec (.mand p md ma mb k) s = .next (s.retire p (s.dev.core p)) ∧
       exec (.mor p md ma mb k) s = .next (s.retire p (s.dev.core p)) ∧
       exec (.mandn p md ma mb k) s = .next (s.retire p (s.dev.core p)) ∧
       exec (.mnot p md ma k) s = .next (s.retire p (s.dev.core p))) ∧
  (∀ (s : State) (p : Pair) (rd : GReg) (va : VReg) (k : VMask),
     s.dev.Ready p →
     (s.dev.core p).vl = 0 →
       exec (.vredadd p rd va k) s = .next (s.retire p (s.dev.core p)) ∧
       exec (.vredmin p rd va k) s = .next (s.retire p (s.dev.core p)) ∧
       exec (.vredmax p rd va k) s = .next (s.retire p (s.dev.core p)) ∧
       exec (.vredfadd p rd va k) s = .next (s.retire p (s.dev.core p)) ∧
       exec (.vmini p rd va k) s = .next (s.retire p (s.dev.core p)) ∧
       exec (.vmaxi p rd va k) s = .next (s.retire p (s.dev.core p))) ∧
  (∀ (s : State) (p : Pair) (vd va iv : VReg) (ra : GReg) (k : VMask),
     s.dev.Ready p →
     (s.dev.core p).vl = 0 →
       exec (.vld p vd ra k) s = .next (s.retire p (s.dev.core p)) ∧
       exec (.vst p vd ra k) s = .next (s.retire p (s.dev.core p)) ∧
       exec (.vgath p vd iv ra k) s = .next (s.retire p (s.dev.core p)) ∧
       exec (.vscat p vd iv ra k) s = .next (s.retire p (s.dev.core p)) ∧
       exec (.vinterp p vd va ra k) s = .next (s.retire p (s.dev.core p)) ∧
       exec (.vinvert p vd va ra k) s = .next (s.retire p (s.dev.core p)))

/-- On a ready pair with VL not 0, VREDADD gives the signed 64-bit sum of the active lanes in the pair wd, wd+1; VREDMIN
and VREDMAX the extreme signed value, VMINI and VMAXI it and its lane index in wd and wd+1, VREDFADD the binary32
sum of the active lanes in ascending order from +0.0, each addition rounded under s.fcsr.RM, the flags ORed. With no
active lane they give 0 and 0; 0x7FFFFFFF and 0xFFFFFFFF; 0x80000000 and 0xFFFFFFFF; +0.0. Of several lanes with the
extreme value the lowest index is given. -/
def Obligations.ReductionResults : Prop :=
  (∀ (s : State) (p : Pair) (rd : GReg) (v : VReg) (k : VMask),
     let c := s.dev.core p;
     s.dev.Ready p →
     (s.dev.core p).vl ≠ 0 →
     pairOk rd = true →
       exec (.vredadd p rd v k) s = .next (s.retire p ((c.setReg rd (iw ((c.lanes k).foldl (fun (a : Int) i => a +
           (c.lane v i).toInt) 0))).setReg (rd + 1) (iw (((c.lanes k).foldl (fun (a : Int) i => a + (c.lane v
           i).toInt) 0) / 4294967296)))) ∧
       exec (.vmini p rd v k) s = .next (s.retire p ((c.setReg rd (iw (extreme (fun x y => decide (x < y))
           (2147483647) ((c.lanes k).map (fun i => (i, (c.lane v i).toInt)))).1)).setReg (rd + 1) (extreme (fun x y =>
           decide (x < y)) (2147483647) ((c.lanes k).map (fun i => (i, (c.lane v i).toInt)))).2)) ∧
       exec (.vmaxi p rd v k) s = .next (s.retire p ((c.setReg rd (iw (extreme (fun x y => decide (y < x))
           (-2147483648) ((c.lanes k).map (fun i => (i, (c.lane v i).toInt)))).1)).setReg (rd + 1) (extreme (fun x y
           => decide (y < x)) (-2147483648) ((c.lanes k).map (fun i => (i, (c.lane v i).toInt)))).2))) ∧
  (∀ (s : State) (p : Pair) (rd : GReg) (v : VReg) (k : VMask),
     let c := s.dev.core p;
     s.dev.Ready p →
     (s.dev.core p).vl ≠ 0 →
       exec (.vredmin p rd v k) s = .next (s.retire p (c.setReg rd (iw (extreme (fun x y => decide (x < y))
           (2147483647) ((c.lanes k).map (fun i => (i, (c.lane v i).toInt)))).1))) ∧
       exec (.vredmax p rd v k) s = .next (s.retire p (c.setReg rd (iw (extreme (fun x y => decide (y < x))
           (-2147483648) ((c.lanes k).map (fun i => (i, (c.lane v i).toInt)))).1))) ∧
       exec (.vredfadd p rd v k) s = .next (s.retire p (c.putF rd ((c.lanes k).foldl (fun (a : Nat × FFlags) i =>
           ((f32.add c.rm a.1 (c.lane v i).toNat).1, a.2 ||| (f32.add c.rm a.1 (c.lane v i).toNat).2)) (0, 0))))) ∧
  (∀ (d : Int) (b : Int → Int → Bool),
       extreme b d [] = (d, 0xFFFFFFFF) ∧
       iw 2147483647 = 0x7FFFFFFF ∧
       iw (-2147483648) = 0x80000000) ∧
  (∀ (l : List (Nat × Int)) (d : Int),
     l ≠ [] →
       (∃ l1 l2 i x, l = l1 ++ (i, x) :: l2 ∧ extreme (fun x y => decide (x < y)) d l = (x, nw i) ∧ (∀ e ∈ l1, x <
           e.2) ∧ (∀ e ∈ l2, x ≤ e.2)) ∧
       (∃ l1 l2 i x, l = l1 ++ (i, x) :: l2 ∧ extreme (fun x y => decide (y < x)) d l = (x, nw i) ∧ (∀ e ∈ l1, e.2 <
           x) ∧ (∀ e ∈ l2, e.2 ≤ x)))

/-- On a ready pair with VL not 0, when no active lane raises anything, VLD and VGATH (unless in-step suppression is on)
give each active lane the word at wa + 4 i, or at wa + 4 times the index lane; VST and VSCAT store each active lane
there in ascending order. VINTERP and VINVERT give each active lane the value of the table at wb and write m3 with
the flags of the active lanes, 0 elsewhere; a table without points or columns gives 0 and the flag. -/
def Obligations.VectorMemoryResults : Prop :=
  (∀ (s : State) (p : Pair) (v : VReg) (ra : GReg) (k : VMask),
     let c := s.dev.core p;
     s.dev.Ready p →
     (s.dev.core p).vl ≠ 0 →
     s.dev.vecFault p kLoad (((s.dev.core p).lanes k).map (fun i => (i, ((s.dev.core p).reg ra + nw (4 * i)).toNat)))
         = none →
     (bitOf (s.dev.core p).ctl 0 && (s.dev.core p).user) = false →
       exec (.vld p v ra k) s = .next (s.retire p (c.putLanes v k (fun i => s.dev.word ((c.reg ra + nw (4 *
           i)).toNat))))) ∧
  (∀ (s : State) (p : Pair) (v iv : VReg) (ra : GReg) (k : VMask),
     let c := s.dev.core p;
     s.dev.Ready p →
     (s.dev.core p).vl ≠ 0 →
     s.dev.vecFault p kLoad (((s.dev.core p).lanes k).map (fun i => (i, ((s.dev.core p).reg ra + ((s.dev.core p).lane
         iv i <<< 2)).toNat))) = none →
     (bitOf (s.dev.core p).ctl 0 && (s.dev.core p).user) = false →
       exec (.vgath p v iv ra k) s = .next (s.retire p (c.putLanes v k (fun i => s.dev.word ((c.reg ra + (c.lane iv i
           <<< 2)).toNat))))) ∧
  (∀ (s : State) (p : Pair) (v : VReg) (ra : GReg) (k : VMask),
     let c := s.dev.core p;
     let e := (c.lanes k).foldl (fun (d : Dev) i => d.sramStore p ((c.reg ra + nw (4 * i)).toNat) (leBytes 4 (c.lane v
         i).toNat)) s.dev;
     s.dev.Ready p →
     (s.dev.core p).vl ≠ 0 →
     s.dev.vecFault p kStore (((s.dev.core p).lanes k).map (fun i => (i, ((s.dev.core p).reg ra + nw (4 * i)).toNat)))
         = none →
       exec (.vst p v ra k) s = .next (s.on (e.setCore p (e.core p).next))) ∧
  (∀ (s : State) (p : Pair) (v iv : VReg) (ra : GReg) (k : VMask),
     let c := s.dev.core p;
     let e := (c.lanes k).foldl (fun (d : Dev) i => d.sramStore p ((c.reg ra + (c.lane iv i <<< 2)).toNat) (leBytes 4
         (c.lane v i).toNat)) s.dev;
     s.dev.Ready p →
     (s.dev.core p).vl ≠ 0 →
     s.dev.vecFault p kStore (((s.dev.core p).lanes k).map (fun i => (i, ((s.dev.core p).reg ra + ((s.dev.core p).lane
         iv i <<< 2)).toNat))) = none →
       exec (.vscat p v iv ra k) s = .next (s.on (e.setCore p (e.core p).next))) ∧
  (∀ (s : State) (p : Pair) (vd va : VReg) (wb : GReg) (k : VMask),
     let c := s.dev.core p;
     let tb := tableOf (fun i => s.dev.word (((c.reg wb).toNat + 4 * i) % 2 ^ 32));
     s.dev.Ready p →
     (s.dev.core p).vl ≠ 0 →
     ((s.dev.core p).lanes k).isEmpty = false →
     (bitOf (s.dev.core p).ctl 0 && (s.dev.core p).user) = false →
     s.dev.vecFault p kLoad ((List.range 585).map (fun i => (i, (((s.dev.core p).reg wb).toNat + 4 * i) % 2 ^ 32))) =
         none →
       exec (.vinterp p vd va wb k) s = .next (s.retire p
           { c.putLanes vd k (fun i => (tb.eval false (c.lane va i).toInt (c.lane vd i).toInt).1) with m := c.m.set 3 (maskOf (fun i => c.active k i && (tb.eval false (c.lane va i).toInt (c.lane vd i).toInt).2)) })
           ∧
       exec (.vinvert p vd va wb k) s = .next (s.retire p
           { c.putLanes vd k (fun i => (tb.eval true (c.lane va i).toInt (c.lane vd i).toInt).1) with m := c.m.set 3 (maskOf (fun i => c.active k i && (tb.eval true (c.lane va i).toInt (c.lane vd i).toInt).2)) })) ∧
  (∀ (w : Nat → Word) (inv : Bool) (u t : Int),
     (tableOf w).np = 0 ∨ (tableOf w).nt = 0 →
       (tableOf w).eval inv u t = (0, true))

/-- On the ready program pair TBRD gives the frozen time base, angle word or cycle count; TON, TOF and TP evaluate the
timer object at ra on the frozen time base, CTU, CTD and CTUD the counter, RTRIG and FTRIG the edge, as R366
evaluates them, storing the object and giving the result in rd, and change nothing else; CYEND ends the cycle: the
pair waits, and outside execution nothing else happens. On the system pair they raise ILL. -/
def Obligations.CyclicObjects : Prop :=
  (∀ (s : State) (rd ra rb : GReg) (a : Nat),
     let c := s.dev.prog;
     let l := [s.dev.word a, s.dev.word (a + 4), s.dev.word (a + 8), s.dev.word (a + 12)];
     s.dev.Ready .program →
     (s.dev.prog.reg ra).toNat = a →
     s.dev.objFault .program a 16 = none →
       exec (.ton .program rd ra rb) s = .next (s.on ((s.dev.sramStore .program a (wordsBytes (timerWords l (tonEval
           s.dev.cyc.frozen.tb (bitOf (c.reg rb) 0) (timerOf l)) (bitOf (c.reg rb) 0)).1)).setCore .program (c.setReg
           rd (timerWords l (tonEval s.dev.cyc.frozen.tb (bitOf (c.reg rb) 0) (timerOf l)) (bitOf (c.reg rb)
           0)).2).next)) ∧
       exec (.tof .program rd ra rb) s = .next (s.on ((s.dev.sramStore .program a (wordsBytes (timerWords l (tofEval
           s.dev.cyc.frozen.tb (bitOf (c.reg rb) 0) (timerOf l)) (bitOf (c.reg rb) 0)).1)).setCore .program (c.setReg
           rd (timerWords l (tofEval s.dev.cyc.frozen.tb (bitOf (c.reg rb) 0) (timerOf l)) (bitOf (c.reg rb)
           0)).2).next)) ∧
       exec (.tp .program rd ra rb) s = .next (s.on ((s.dev.sramStore .program a (wordsBytes (timerWords l (tpEval
           s.dev.cyc.frozen.tb (bitOf (c.reg rb) 0) (timerOf l)) (bitOf (c.reg rb) 0)).1)).setCore .program (c.setReg
           rd (timerWords l (tpEval s.dev.cyc.frozen.tb (bitOf (c.reg rb) 0) (timerOf l)) (bitOf (c.reg rb)
           0)).2).next)) ∧
       exec (.ctu .program rd ra rb) s = .next (s.on ((s.dev.sramStore .program a (wordsBytes (counterEval true false
           l (c.reg rb)).1)).setCore .program (c.setReg rd (counterEval true false l (c.reg rb)).2).next)) ∧
       exec (.ctd .program rd ra rb) s = .next (s.on ((s.dev.sramStore .program a (wordsBytes (counterEval false true
           l (c.reg rb)).1)).setCore .program (c.setReg rd (counterEval false true l (c.reg rb)).2).next)) ∧
       exec (.ctud .program rd ra rb) s = .next (s.on ((s.dev.sramStore .program a (wordsBytes (counterEval true true
           l (c.reg rb)).1)).setCore .program (c.setReg rd (counterEval true true l (c.reg rb)).2).next))) ∧
  (∀ (s : State) (rd ra rb : GReg) (a : Nat),
     let c := s.dev.prog;
     let l := [s.dev.word a, s.dev.word (a + 4)];
     s.dev.Ready .program →
     (s.dev.prog.reg ra).toNat = a →
     s.dev.objFault .program a 8 = none →
       exec (.rtrig .program rd ra rb) s = .next (s.on ((s.dev.sramStore .program a (wordsBytes (edgeEval true l
           (c.reg rb)).1)).setCore .program (c.setReg rd (edgeEval true l (c.reg rb)).2).next)) ∧
       exec (.ftrig .program rd ra rb) s = .next (s.on ((s.dev.sramStore .program a (wordsBytes (edgeEval false l
           (c.reg rb)).1)).setCore .program (c.setReg rd (edgeEval false l (c.reg rb)).2).next))) ∧
  (∀ (s : State) (rd : GReg),
     s.dev.Ready .program →
       exec (.tbrd .program rd 1) s = .next (s.retire .program (s.dev.prog.setReg rd (nw s.dev.cyc.frozen.angle))) ∧
       exec (.tbrd .program rd 2) s = .next (s.retire .program (s.dev.prog.setReg rd (nw s.dev.cyc.frozen.cycle))) ∧
       (pairOk rd = true → exec (.tbrd .program rd 0) s = .next (s.retire .program (s.dev.prog.setRegD rd
           s.dev.cyc.frozen.tb))) ∧
       (pairOk rd = false → exec (.tbrd .program rd 0) s = .next (s.on (s.dev.raise .program 1 0 none).settle))) ∧
  (∀ (s : State) (rd ra rb : GReg) (sel : BitVec 5),
     s.dev.Ready .system →
       exec (.cyend .system) s = .next (s.on (s.dev.raise .system 1 0 none).settle) ∧
       exec (.tbrd .system rd sel) s = .next (s.on (s.dev.raise .system 1 0 none).settle) ∧
       exec (.ton .system rd ra rb) s = .next (s.on (s.dev.raise .system 1 0 none).settle) ∧
       exec (.tof .system rd ra rb) s = .next (s.on (s.dev.raise .system 1 0 none).settle) ∧
       exec (.tp .system rd ra rb) s = .next (s.on (s.dev.raise .system 1 0 none).settle) ∧
       exec (.ctu .system rd ra rb) s = .next (s.on (s.dev.raise .system 1 0 none).settle) ∧
       exec (.ctd .system rd ra rb) s = .next (s.on (s.dev.raise .system 1 0 none).settle) ∧
       exec (.ctud .system rd ra rb) s = .next (s.on (s.dev.raise .system 1 0 none).settle) ∧
       exec (.rtrig .system rd ra rb) s = .next (s.on (s.dev.raise .system 1 0 none).settle) ∧
       exec (.ftrig .system rd ra rb) s = .next (s.on (s.dev.raise .system 1 0 none).settle)) ∧
  (∀ (s : State),
     s.dev.Ready .program →
       (s.dev.cyc.phase ≠ .execute → exec (.cyend .program) s = .next (s.on
           { s.dev with prog := { s.dev.prog with pc := s.dev.prog.pc + 4, waiting := .cyend } })) ∧
       (s.dev.cyc.phase = .execute → exec (.cyend .program) s = .next (s.on (Dev.cycleEnd
           { s.dev with prog := { s.dev.prog with pc := s.dev.prog.pc + 4, waiting := .cyend } }).settle)))

/-- A TON with its input off is off; on a rising input it starts on the frozen time base, and it turns on once its
preset has passed, a zero preset at the first evaluation. A TOF with its input on is on, and turns off once its
preset has passed since the input fell. A TP started by a rising input is on until its preset has passed, whatever
the input does. A counter counts rising edges within the signed range, R and LD first; an edge reports a change only
after a first evaluation has stored the input. -/
def Obligations.TimerEvaluation : Prop :=
  (∀ (now : Nat) (t : Timer),
       (tonEval now false t).q = false ∧ (tonEval now false t).run = false ∧
       (t.pin = false → 0 < t.pt → t.q = false → tonEval now true t = { t with start := now, run := true }) ∧
       (t.pin = false → t.pt = 0 → (tonEval now true t).q = true ∧ (tonEval now true t).run = false) ∧
       (t.pin = true → t.run = true → tonEval now true t = if t.pt ≤ elapsed now t.start then
           { t with q := true, run := false } else t) ∧
       (t.pin = true → t.run = false → tonEval now true t = t) ∧
       tofEval now true t = { t with q := true, run := false } ∧
       (t.pin = true → 0 < t.pt → tofEval now false t = { t with start := now, run := true }) ∧
       (t.pin = true → t.pt = 0 → (tofEval now false t).q = false) ∧
       (t.pin = false → t.run = true → tofEval now false t = if t.pt ≤ elapsed now t.start then
           { t with q := false, run := false } else t) ∧
       (t.run = false → t.pin = false → 0 < t.pt → tpEval now true t =
           { t with start := now, run := true, q := true }) ∧
       (t.run = true → tpEval now false t = tpEval now true t) ∧
       (t.run = true → tpEval now true t = if t.pt ≤ elapsed now t.start then { t with q := false, run := false } else
           t) ∧
       (t.run = false → t.pin = true → tpEval now true t = t)) ∧
  (∀ (l : List Word) (b : Word),
       (bitOf b 2 = true → (counterEval true false l b).1[0]? = some 0 ∧ (counterEval true true l b).1[0]? = some 0) ∧
       (bitOf b 3 = true → (counterEval false true l b).1[0]? = some (objW l 1)) ∧
       (bitOf b 2 = false → bitOf b 0 = true → bitOf (objW l 2) 0 = false → (counterEval true false l b).1[0]? = some
           (iw (sat32 ((objW l 0).toInt + 1)))) ∧
       (bitOf b 2 = false → bitOf b 0 = false → (counterEval true false l b).1[0]? = some (objW l 0)) ∧
       (bitOf b 3 = false → bitOf b 1 = true → bitOf (objW l 2) 1 = false → (counterEval false true l b).1[0]? = some
           (iw (sat32 ((objW l 0).toInt - 1)))) ∧
       (bitOf (objW l 0) 1 = false → (edgeEval true l b).2 = 0 ∧ (edgeEval false l b).2 = 0) ∧
       (bitOf (objW l 0) 1 = true → (edgeEval true l b).2 = if bitOf b 0 = true ∧ bitOf (objW l 0) 0 = false then 1
           else 0) ∧
       (bitOf (objW l 0) 1 = true → (edgeEval false l b).2 = if bitOf b 0 = false ∧ bitOf (objW l 0) 0 = true then 1
           else 0))

/-- Each command of TIM and of the claim registers answers the next state the rule gives: SYS_EXPREL, written by
firmware or a session of service authority, clears the claims where 1 is written and firmware resumes them at the
next cycle start, and a session of lower level releases nothing; SYS_CTL.LOCK only sets; TIM_INC is held to its
range with CLAMP and restarts the holdover timer; TIM_ADJSEC stages, TIM_ADJNS steps the clock or is ignored with
CLAMP; DECL sets VALID and restarts the timer; TIM_HOLDTO zero, and the expiry of the timer, clear VALID with LOST;
the correction of the 10 ms evaluation is held to its range; a snapshot and the latching reads capture the clocks. -/
def Obligations.ClockCommands : Prop :=
  (∀ (s : State) (src : Writer) (v : Word),
     let e := s.dev.wr Reg.SYS_EXPOWN0 (s.dev.rd Reg.SYS_EXPOWN0 &&& ~~~ v);
     s.dev.asleep = false →
     src = .system ∨ src = .session ∧ s.dev.fld Reg.SVC_STAT 5 4 = 3 →
       exec (.expertRelease src false v) s = .next (s.on
           { e with svc := { e.svc with resume := e.svc.resume ++ (List.range 32).filter (fun i => bitOf (s.dev.rd Reg.SYS_EXPOWN0 &&& v) i) } })) ∧
  (∀ (s : State) (hi : Bool) (v : Word),
     s.dev.asleep = false →
     s.dev.fld Reg.SVC_STAT 5 4 ≠ 3 →
       exec (.expertRelease .session hi v) s = .next (s.on s.dev)) ∧
  (∀ (s : State) (v : Word),
     s.dev.asleep = false →
       exec (.expertRelease .program false v) s = .next (s.on (s.dev.raise .program 5 2 (some (nw Reg.SYS_EXPREL0))))) ∧
  (∀ (s : State) (src : Writer) (v : Word) (d : Dev),
     s.dev.asleep = false →
     s.dev.takes src Reg.SYS_CTL = some d →
       exec (.claimenLock src v) s = .next (s.on (d.wr Reg.SYS_CTL (d.rd Reg.SYS_CTL ||| (v &&& 1))))) ∧
  (∀ (s : State) (src : Writer) (v : Word) (d : Dev),
     s.dev.asleep = false →
     s.dev.takes src Reg.TIM_INC = some d →
       (0x07FF0000 ≤ v.toNat → v.toNat ≤ 0x08010000 → exec (.timIncWrite src v) s = .next (s.on ((d.wr Reg.TIM_INC
           v).start Tm.hold))) ∧
       (v.toNat < 0x07FF0000 → exec (.timIncWrite src v) s = .next (s.on (((d.flag Reg.TIM_STAT 3).wr Reg.TIM_INC
           0x07FF0000).start Tm.hold))) ∧
       (0x08010000 < v.toNat → exec (.timIncWrite src v) s = .next (s.on (((d.flag Reg.TIM_STAT 3).wr Reg.TIM_INC
           0x08010000).start Tm.hold)))) ∧
  (∀ (s : State) (src : Writer) (v : Word) (d : Dev),
     s.dev.asleep = false →
     s.dev.takes src Reg.TIM_ADJSEC = some d →
       exec (.timAdjsecWrite src v) s = .next (s.on ({ d with tim := { d.tim with adjSec := v } }))) ∧
  (∀ (s : State) (src : Writer) (v : Word) (d : Dev),
     s.dev.asleep = false →
     s.dev.takes src Reg.TIM_ADJNS = some d →
       (v.toInt.natAbs ≤ 999999999 → exec (.timAdjnsWrite src v) s = .next (s.on ((Dev.flag
           { d with tim := { d.tim.step d.tim.adjSec.toInt v.toInt with adjSec := 0 } } Reg.TIM_STAT 1).start
           Tm.hold))) ∧
       (999999999 < v.toInt.natAbs → exec (.timAdjnsWrite src v) s = .next (s.on (d.flag Reg.TIM_STAT 3)))) ∧
  (∀ (s : State) (src : Writer) (v : Word) (d : Dev),
     s.Inv →
     s.dev.asleep = false →
     s.dev.takes src Reg.TIM_CTL = some d →
     bitOf v 1 = true →
     d.rd Reg.TIM_HOLDTO ≠ 0 →
       exec (.decl src v) s = .next (s.on ((((d.plainWrite Reg.TIM_CTL v).setBit Reg.TIM_STAT 0 true).start
           Tm.hold).angReturn))) ∧
  (∀ (s : State) (src : Writer) (v : Word) (d : Dev),
     s.Inv →
     s.dev.asleep = false →
     s.dev.takes src Reg.TIM_HOLDTO = some d →
       (d.bit Reg.TIM_STAT 0 = false → exec (.timHoldtoWrite src v) s = .next (s.on (d.wr Reg.TIM_HOLDTO v))) ∧
       (d.bit Reg.TIM_STAT 0 = true → v = 0 → exec (.timHoldtoWrite src v) s = .next (s.on ((((d.wr Reg.TIM_HOLDTO
           v).setBit Reg.TIM_STAT 0 false).flag Reg.TIM_STAT 2).angLoss))) ∧
       (d.bit Reg.TIM_STAT 0 = true → v ≠ 0 → d.due Tm.hold (secT v.toNat) = false → exec (.timHoldtoWrite src v) s =
           .next (s.on (d.wr Reg.TIM_HOLDTO v))) ∧
       (d.bit Reg.TIM_STAT 0 = true → v ≠ 0 → d.due Tm.hold (secT v.toNat) = true → exec (.timHoldtoWrite src v) s =
           .next (s.on ((((d.wr Reg.TIM_HOLDTO v).setBit Reg.TIM_STAT 0 false).flag Reg.TIM_STAT 2).angLoss)))) ∧
  (∀ (s : State),
     s.dev.asleep = false →
     s.dev.bit Reg.TIM_STAT 0 = true →
     s.dev.due Tm.hold (secT (s.dev.rd Reg.TIM_HOLDTO).toNat) = true →
       exec (.holdoverExpiry) s = .next (s.on (((s.dev.setBit Reg.TIM_STAT 0 false).flag Reg.TIM_STAT 2).angLoss))) ∧
  (∀ (s : State) (v : Word),
     s.dev.asleep = false →
       exec (.tcorrEvaluation v) s = .next (s.on (s.dev.wr Reg.TIM_TCORR (iw (clampI (-32767) 32767 v.toInt))))) ∧
  (∀ (s : State) (src : Writer) (d : Dev),
     s.dev.asleep = false →
     s.dev.takes src Reg.TIM_SNAP = some d →
       exec (.timSnap src) s = .next (s.on (((((((d.wr Reg.TIM_SNS (nw d.tim.ns)).wr Reg.TIM_SSEC_LO (nw
           d.tim.sec)).wr Reg.TIM_SSEC_HI (nw (d.tim.sec / 2 ^ 32 % 2 ^ 16))).wr Reg.TIM_STB_LO (nw d.tim.tb)).wr
           Reg.TIM_STB_HI (nw (d.tim.tb / 2 ^ 32))).wr Reg.ANG_SANG (nw d.ang.angle)).wr Reg.ANG_SCYC (nw
           d.ang.cycle)))) ∧
  (∀ (s : State),
     s.dev.asleep = false →
       exec (.timTbLoRead) s = .next (s.on (s.dev.wr Reg.TIM_TB_HI (nw (s.dev.tim.tb / 2 ^ 32)))) ∧
       exec (.angAngleRead) s = .next (s.on (s.dev.wr Reg.ANG_CYCLE (nw s.dev.ang.cycle))) ∧
       (s.dev.periphRead Reg.TIM_TB_LO).1 = nw s.dev.tim.tb ∧
       (s.dev.periphRead Reg.ANG_ANGLE).1 = nw s.dev.ang.angle)

/-- Each command of ANG answers the next state the rule gives: the wrap raises the cycle count and makes a requested
bank swap; a lapsed source gives way to the next valid one of the order; a higher source returns at once, or after 1
s of validity when the selection had fallen; a write of ANG_SRCPRI, and a change of FORCEFR, select at once;
free-run slews by at most ANG_SLEW in a millisecond; ANG_PERR delivers to the PLL from angle messages; a level of
ZC_IN counts once it has held for FILT, and an accepted active edge delivers its phase error; the increment is
bounded with INCCLAMP. -/
def Obligations.AngleCommands : Prop :=
  (∀ (s : State),
     s.dev.asleep = false →
     s.dev.angWraps = true →
       exec (.angleWrap) s = .next (s.on (Dev.ttSwap
           { s.dev with ang := { s.dev.ang with prev := s.dev.ang.angle, angle := (s.dev.ang.angle + (s.dev.ang.frac + s.dev.angInc) / 2 ^ 16) % 2 ^ 32, frac := (s.dev.ang.frac + s.dev.angInc) % 2 ^ 16, cycle := (s.dev.ang.cycle + 1) % 2 ^ 32 }, tt := { s.dev.tt with done := false, held := [] } }))) ∧
  (∀ (s : State),
     let d := s.dev.angRefresh;
     s.dev.asleep = false →
     d.angValid d.angSrc = false →
       exec (.sourceLossTimeout) s = .next (s.on (d.angChange (((d.angOrder.drop (d.angRank d.angSrc + 1)).find? (fun
           x => d.angValid x)).getD 2) 1))) ∧
  (∀ (s : State),
     let d := s.dev.angRefresh;
     s.dev.asleep = false →
     d.angValid d.angSrc = true →
       exec (.sourceLossTimeout) s = .next (s.on (d))) ∧
  (∀ (s : State) (n : Nat),
     let d := s.dev.angRefresh;
     s.dev.asleep = false →
     d.bit Reg.ANG_CTL 1 = false →
     d.ang.started = true →
     (d.angOrder.take (d.angRank d.angSrc)).find? (fun x => d.angValid x && (decide (d.ang.fallen = none) || d.angLong
         x)) = some n →
       exec (.sourceReturn) s = .next (s.on (d.angChange n 2))) ∧
  (∀ (s : State),
     let d := s.dev.angRefresh;
     s.dev.asleep = false →
     d.bit Reg.ANG_CTL 1 = true ∨ d.ang.started = false ∨ (d.angOrder.take (d.angRank d.angSrc)).find? (fun x =>
         d.angValid x && (decide (d.ang.fallen = none) || d.angLong x)) = none →
       exec (.sourceReturn) s = .next (s.on (d))) ∧
  (∀ (s : State) (src : Writer) (v : Word) (d : Dev),
     let e := (d.plainWrite Reg.ANG_SRCPRI v).angRefresh;
     let f := e.angChange e.angFirst 4;
     s.dev.asleep = false →
     s.dev.takes src Reg.ANG_SRCPRI = some d →
       exec (.angSrcpriWrite src v) s = .next (s.on ({ f with ang := { f.ang with fallen := none } }))) ∧
  (∀ (s : State) (src : Writer) (v : Word) (d : Dev),
     let e := (d.plainWrite Reg.ANG_CTL v).angRefresh;
     let f := e.angChange e.angFirst 3;
     s.dev.asleep = false →
     s.dev.takes src Reg.ANG_CTL = some d →
     (d.plainWrite Reg.ANG_CTL v).bit Reg.ANG_CTL 1 ≠ d.bit Reg.ANG_CTL 1 →
       exec (.forcefrWrite src v) s = .next (s.on (if f.rd Reg.ANG_SLEW = 0 then f.freeRunSlew else f))) ∧
  (∀ (s : State),
     s.dev.asleep = false →
     s.dev.running Tm.slew = false ∨ s.dev.due Tm.slew 125000 = true →
     s.dev.bit Reg.ANG_CTL 0 = true →
     s.dev.angSrc = 2 ∨ s.dev.bit Reg.ANG_CTL 1 = true →
       (s.dev.rd Reg.ANG_SLEW = 0 → exec (.freeRunSlew) s = .next (s.on ((s.dev.setInc s.dev.angNom).start Tm.slew)))
           ∧
       (s.dev.rd Reg.ANG_SLEW ≠ 0 → exec (.freeRunSlew) s = .next (s.on ((s.dev.setInc (s.dev.angInc + clampI
           (-((s.dev.rd Reg.ANG_SLEW).toNat : Int)) (s.dev.rd Reg.ANG_SLEW).toNat ((s.dev.angNom : Int) -
           s.dev.angInc))).start Tm.slew)))) ∧
  (∀ (s : State),
     s.dev.asleep = false →
     s.dev.running Tm.slew = true →
     s.dev.due Tm.slew 125000 = false →
       exec (.freeRunSlew) s = .next (s.on (s.dev))) ∧
  (∀ (s : State) (src : Writer) (v : Word) (d : Dev),
     s.dev.asleep = false →
     s.dev.takes src Reg.ANG_PERR = some d →
       exec (.angPerrWrite src v) s = .next (s.on (d.angDeliver 0 v.toInt))) ∧
  (∀ (s : State) (src : Writer) (v : Word) (d : Dev),
     s.dev.asleep = false →
     s.dev.takes src Reg.ANG_INC_HI = some d →
       exec (.angIncHiWrite src v) s = .next (s.on ({ d with ang := { d.ang with incHi := some (fieldOf v 15 0) } }))) ∧
  (∀ (s : State) (src : Writer) (v : Word) (d : Dev),
     s.dev.asleep = false →
     s.dev.takes src Reg.ANG_INC_LO = some d →
       exec (.angIncLoWrite src v) s = .next (s.on ((Dev.setInc { d with ang := { d.ang with incHi := none } }
           ((v.toNat + 2 ^ 32 * d.ang.incHi.getD (d.fld Reg.ANG_INC_HI 15 0) : Nat) : Int)).slewAtOnce))) ∧
  (∀ (s : State) (level : Bool) (us : BitVec 16),
     s.dev.asleep = false →
     us.toNat < s.dev.fld Reg.ANG_ZCCFG 15 8 ∨ s.dev.pins.zcIn = level →
       exec (.zcEdge level us) s = .next (s.on (s.dev))) ∧
  (∀ (s : State) (level : Bool) (us : BitVec 16),
     s.dev.asleep = false →
     s.dev.fld Reg.ANG_ZCCFG 15 8 ≤ us.toNat →
     s.dev.pins.zcIn ≠ level →
     level = s.dev.bit Reg.ANG_ZCCFG 0 →
       exec (.zcEdge level us) s = .next (s.on ({ s.dev with pins := { s.dev.pins with zcIn := level } }))) ∧
  (∀ (s : State) (level : Bool) (us : BitVec 16),
     let d := ({ s.dev with pins := { s.dev.pins with zcIn := level } } : Dev).wr Reg.ANG_ZCCAP (nw s.dev.ang.angle);
     let e := (d.rd Reg.ANG_ZCOFS - nw d.ang.angle).toInt;
     s.dev.asleep = false →
     s.dev.fld Reg.ANG_ZCCFG 15 8 ≤ us.toNat →
     s.dev.pins.zcIn ≠ level →
     level ≠ s.dev.bit Reg.ANG_ZCCFG 0 →
       ((d.bit Reg.ANG_STAT 4 && decide (d.angSrc = 1)) = false ∨ (d.fld Reg.ANG_ZCCFG 31 16 ≠ 0 ∧ e.natAbs ≤ d.fld
           Reg.ANG_ZCCFG 31 16 * 65536) → exec (.zcEdge level us) s = .next (s.on (d.angDeliver 1 e))) ∧
       ((d.bit Reg.ANG_STAT 4 && decide (d.angSrc = 1)) = true → d.fld Reg.ANG_ZCCFG 31 16 = 0 ∨ d.fld Reg.ANG_ZCCFG
           31 16 * 65536 < e.natAbs → exec (.zcEdge level us) s = .next (s.on (d.flag Reg.ANG_STAT 5)))) ∧
  (∀ (d : Dev) (i : Int),
       (0x055E63B9 ≤ i → i ≤ 0x09652E83 → d.setInc i = (d.wr Reg.ANG_INC_LO (iw i)).wr Reg.ANG_INC_HI (nw (i.toNat / 2
           ^ 32))) ∧
       (i < 0x055E63B9 → d.setInc i = ((d.flag Reg.ANG_STAT 6).wr Reg.ANG_INC_LO 0x055E63B9).wr Reg.ANG_INC_HI 0) ∧
       (0x09652E83 < i → d.setInc i = ((d.flag Reg.ANG_STAT 6).wr Reg.ANG_INC_LO 0x09652E83).wr Reg.ANG_INC_HI 0))

/-- A tick of the reference with effective increment e (TIM_INC, plus TIM_TCORR while TCEN is 1) advances the local
clock, read as one number of 2^-24 ns, by e modulo its 48-bit seconds, keeps its nanoseconds below 10^9 and its
fraction below 2^24, and advances the time base in microseconds by e over 1000 * 2^24, the rest kept; each core
clock count rises by 4. Without power only the reference counts. -/
def Obligations.LocalClockTick : Prop :=
  (∀ (t : TimSt) (e : Nat),
     t.ns < 1000000000 →
     t.frac < 2 ^ 24 →
     t.sec < 2 ^ 48 →
     t.tbFrac < 1000 * 2 ^ 24 →
     t.tb < 2 ^ 64 →
       ((t.tick e).ns < 1000000000 ∧ (t.tick e).frac < 2 ^ 24 ∧ (t.tick e).sec < 2 ^ 48) ∧
       (((t.tick e).sec * 1000000000 + (t.tick e).ns) * 2 ^ 24 + (t.tick e).frac) = ((t.sec * 1000000000 + t.ns) * 2 ^
           24 + t.frac + e) % (2 ^ 48 * 1000000000 * 2 ^ 24) ∧
       ((t.tick e).tb * (1000 * 2 ^ 24) + (t.tick e).tbFrac) = (t.tb * (1000 * 2 ^ 24) + t.tbFrac + e) % (2 ^ 64 *
           (1000 * 2 ^ 24))) ∧
  (∀ (s : State),
     s.dev.pwrState ≠ 0 →
     s.dev.asleep = false →
       (∃ t, exec .referenceTick s = .next t ∧ t.pending = s.pending ∧ t.dev.now = s.dev.now + 1 ∧ t.dev.tim =
           s.dev.tim.tick ((s.dev.rd Reg.TIM_INC).toNat + (if s.dev.bit Reg.TIM_CTL 0 = true then s.dev.rdI
           Reg.TIM_TCORR else 0) : Int).toNat ∧ t.dev.sys = { s.dev.sys with clk := s.dev.sys.clk + 4 } ∧ t.dev.prog =
           { s.dev.prog with clk := s.dev.prog.clk + 4 })) ∧
  (∀ (s : State),
     s.dev.pwrState = 0 →
       exec .referenceTick s = .next (s.on { s.dev with now := s.dev.now + 1 }))

/-- A tick with EN 0, or whose matches are already issued, changes nothing; one in which no entry fires only ends the
matching; one whose only firing entry has a given code issues its action once and names it in TT_LAST, and an idle
window that opens has firmware begin its work. Word 0 of an entry goes into the inactive bank at once and is staged
for the active one; word 1 is checked and takes the staged word 0 with it; SWAP sets SWPEND. BLANK leaves when the
lead is reached, once for each firing. BAL_CTL broadcasts a change of BLANKEN in the command window, BAL_CMD
restarts the commander timer, whose expiry sets CMDTO with entry 0x1060, a BALANCE frame goes out on a change in the
command window, and GO starts a learning pass unless one runs. -/
def Obligations.TimetableCommands : Prop :=
  (∀ (s : State),
     s.dev.asleep = false →
     s.dev.tt.done = true ∨ s.dev.bit Reg.TT_CTL 0 = false →
       exec (.timetableMatch) s = .next (s.on (s.dev))) ∧
  (∀ (s : State),
     s.dev.asleep = false →
     s.dev.tt.done = false →
     s.dev.bit Reg.TT_CTL 0 = true →
     s.dev.ttFiring = [] →
       exec (.timetableMatch) s = .next (s.on ({ s.dev with tt := { s.dev.tt with done := true } }))) ∧
  (∀ (s : State) (i c a : Nat),
     let e := ({ s.dev with tt := { s.dev.tt with done := true } } : Dev).ttLast [(i, c, a)];
     let w := fun x : Dev => if s.dev.bit Reg.TT_STAT 5 = false ∧ x.bit Reg.TT_STAT 5 = true then x.idleBegin else x;
     s.dev.asleep = false →
     s.dev.tt.done = false →
     s.dev.bit Reg.TT_CTL 0 = true →
     s.dev.ttFiring = [(i, c, a)] →
       (c = 7 → exec (.timetableMatch) s = .next (s.on (w (e.setBit Reg.TT_STAT 4 true)))) ∧
       (c = 8 → exec (.timetableMatch) s = .next (s.on (w (e.setBit Reg.TT_STAT 4 false)))) ∧
       (c = 9 → exec (.timetableMatch) s = .next (s.on (w (if e.bit Reg.TT_STAT 5 = true then e else ((e.setBit
           Reg.TT_STAT 5 true).start Tm.window).stop Tm.sliced)))) ∧
       (c = 10 → exec (.timetableMatch) s = .next (s.on (w (e.setBit Reg.TT_STAT 5 false)))) ∧
       (c = 1 → exec (.timetableMatch) s = .next (s.on (w (e.strobeFire a false 0)))) ∧
       (c = 2 → exec (.timetableMatch) s = .next (s.on (w (e.strobeFire a true 0)))) ∧
       (c = 3 → exec (.timetableMatch) s = .next (s.on (w (if e.bit Reg.CYC_CTL 3 = true then e else e.cycleStart))))
           ∧
       (c = 4 → exec (.timetableMatch) s = .next (s.on (w (e.mbApply a)))) ∧
       (c = 5 → exec (.timetableMatch) s = .next (s.on (w (e.injStart a)))) ∧
       (c = 6 → exec (.timetableMatch) s = .next (s.on (w (e.snapshot a)))) ∧
       (c = 11 → exec (.timetableMatch) s = .next (s.on (w (e.setEvent (if a < 128 then Pair.system else Pair.program)
           (a % 16)))))) ∧
  (∀ (d : Dev) (l : List (Nat × Nat × Nat)) (i c a : Nat),
     l.getLast? = some (i, c, a) →
       d.ttLast l = d.wr Reg.TT_LAST (nw (c * 2 ^ 24 + b2n (d.bit Reg.TT_STAT 7) * 256 + i))) ∧
  (∀ (s : State) (src : Writer) (b : BitVec 1) (i : Byte) (v : Word) (d : Dev),
     s.dev.asleep = false →
     s.dev.takes src (Reg.TT_ENT b.toNat i.toNat 0) = some d →
       (b2n (d.bit Reg.TT_STAT 7) ≠ b.toNat → exec (.ttEntryWord0Write src b i v) s = .next (s.on (d.wr (Reg.TT_ENT
           b.toNat i.toNat 0) v))) ∧
       (b2n (d.bit Reg.TT_STAT 7) = b.toNat → exec (.ttEntryWord0Write src b i v) s = .next (s.on
           ({ d with tt := { d.tt with stage := putO d.tt.stage i.toNat (some v) } })))) ∧
  (∀ (s : State) (src : Writer) (b : BitVec 1) (i : Byte) (v : Word) (d : Dev),
     let e := d.ttCheck v;
     let f := e.ttHold i.toNat;
     let g := (getO f.tt.stage i.toNat).elim f (fun w => f.wr (Reg.TT_ENT b.toNat i.toNat 0) w);
     s.dev.asleep = false →
     s.dev.takes src (Reg.TT_ENT b.toNat i.toNat 1) = some d →
       (b2n (e.bit Reg.TT_STAT 7) ≠ b.toNat → exec (.ttEntryWord1Write src b i v) s = .next (s.on (e.wr (Reg.TT_ENT
           b.toNat i.toNat 1) v))) ∧
       (b2n (e.bit Reg.TT_STAT 7) = b.toNat → exec (.ttEntryWord1Write src b i v) s = .next (s.on
           (({ g with tt := { g.tt with stage := putO g.tt.stage i.toNat none } } : Dev).wr (Reg.TT_ENT b.toNat
           i.toNat 1) v)))) ∧
  (∀ (d : Dev) (v : Word),
     d.Canon →
     ttActOk (ttCode v) (ttArg v) = false →
       (d.ttCheck v).bit Reg.TT_STAT 0 = true) ∧
  (∀ (d : Dev) (v : Word),
     d.Canon →
     fieldOf v 15 8 ≠ 0 →
     fieldOf v 15 8 ≤ fieldOf v 7 0 →
       (d.ttCheck v).bit Reg.TT_STAT 1 = true) ∧
  (∀ (s : State) (src : Writer) (v : Word) (d : Dev),
     s.dev.asleep = false →
     s.dev.takes src Reg.TT_CTL = some d →
       exec (.ttSwapRequest src v) s = .next (s.on ((d.plainWrite Reg.TT_CTL (withBit v 1 true)).flag Reg.TT_STAT 6))) ∧
  (∀ (s : State),
     s.dev.asleep = false →
     s.dev.nextStrobe = none ∨ s.dev.bit Reg.BAL_CTL 1 = false ∨ s.dev.fld Reg.BAL_BLANKLEAD 7 0 = 0 ∨ s.dev.role = 2
         →
       exec (.blankSend) s = .next (s.on (s.dev))) ∧
  (∀ (s : State) (n : Nat),
     let a := s.dev.ang.cycle * 2 ^ 32 + s.dev.ang.angle + n;
     let x := ({ s.dev with swp := { s.dev.swp with blanked := some a } } : Dev);
     s.dev.asleep = false →
     s.dev.nextStrobe = some n →
     s.dev.bit Reg.BAL_CTL 1 = true →
     s.dev.fld Reg.BAL_BLANKLEAD 7 0 ≠ 0 →
     s.dev.swp.blanked ≠ some a →
     s.dev.role ≠ 2 →
       (n * 65536 ≤ 125 * s.dev.fld Reg.BAL_BLANKLEAD 7 0 * s.dev.angInc → exec (.blankSend) s = .next (s.on ((if
           x.ringSplit = true then x.cue 0xA 0 else x).ringSend setBlank []))) ∧
       (125 * s.dev.fld Reg.BAL_BLANKLEAD 7 0 * s.dev.angInc < n * 65536 → exec (.blankSend) s = .next (s.on (s.dev)))) ∧
  (∀ (s : State) (n : Nat),
     s.dev.asleep = false →
     s.dev.nextStrobe = some n →
     s.dev.swp.blanked = some (s.dev.ang.cycle * 2 ^ 32 + s.dev.ang.angle + n) →
       exec (.blankSend) s = .next (s.on (s.dev))) ∧
  (∀ (s : State) (src : Writer) (v : Word) (d : Dev),
     let e := d.plainWrite Reg.BAL_CTL (if src = .system then withBit v 1 true else v);
     s.dev.asleep = false →
     s.dev.takes src Reg.BAL_CTL = some d →
       (e.bit Reg.BAL_CTL 1 = d.bit Reg.BAL_CTL 1 → exec (.blankenChange src v) s = .next (s.on (e))) ∧
       (e.bit Reg.BAL_CTL 1 ≠ d.bit Reg.BAL_CTL 1 → e.swp.cur ≠ none → exec (.blankenChange src v) s = .next (s.on
           ({ e with swp := { e.swp with blankDue := true } }))) ∧
       (e.bit Reg.BAL_CTL 1 ≠ d.bit Reg.BAL_CTL 1 → e.swp.cur = none → exec (.blankenChange src v) s = .next (s.on
           (({ e with swp := { e.swp with blankDue := false } } : Dev).frameSend 0x05 63 0x0B [b2n (e.bit Reg.BAL_CTL
           1), 10, 0, 0])))) ∧
  (∀ (s : State) (src : Writer) (k : BitVec 6) (v : Word) (d : Dev),
     s.dev.asleep = false →
     s.dev.takes src (Reg.BAL_CMD k.toNat) = some d →
     k.toNat ≤ 47 →
       exec (.balCmdWrite src k v) s = .next (s.on ((d.plainWrite (Reg.BAL_CMD k.toNat) v).start Tm.balCmd))) ∧
  (∀ (s : State) (src : Writer) (k : BitVec 6) (v : Word),
     s.dev.asleep = false →
     47 < k.toNat →
       exec (.balCmdWrite src k v) s = .next (s.on (s.dev))) ∧
  (∀ (s : State) (n : Nat),
     s.dev.asleep = false →
     s.dev.fld Reg.BAL_CMDTO 15 0 = n →
       (n ≠ 0 → s.dev.due Tm.balCmd (125000 * n) = true → exec (.commanderTimeout) s = .next (s.on (((s.dev.stop
           Tm.balCmd).flag Reg.BAL_STAT 3).hw 0x1060 []))) ∧
       (n = 0 ∨ s.dev.due Tm.balCmd (125000 * n) = false → exec (.commanderTimeout) s = .next (s.on (s.dev)))) ∧
  (∀ (s : State) (off : BitVec 48),
     s.dev.asleep = false →
     s.dev.leads = false →
       exec (.balanceSend off) s = .next (s.on (s.dev))) ∧
  (∀ (s : State) (off : BitVec 48),
     s.dev.asleep = false →
     s.dev.leads = true →
     s.dev.balFlags.swp.cur ≠ none →
       exec (.balanceSend off) s = .next (s.on (s.dev.balFlags))) ∧
  (∀ (s : State) (off : BitVec 48),
     let f := s.dev.balFlags;
     let l := ((List.range 48).filter (fun k => !s.dev.learning k)).map (fun k => (k, s.dev.balEntry k));
     let g := l.filter (fun x => decide (x.1 < f.ring.count.getD 0));
     s.dev.asleep = false →
     s.dev.leads = true →
     f.swp.cur = none →
     l.any (fun x => s.dev.fld (Reg.BAL_APPL x.1) 23 0 != x.2) = true ∨ s.dev.fld Reg.BAL_REFRESH 15 0 ≠ 0 ∧
         (s.dev.running Tm.balSend = false ∨ s.dev.due Tm.balSend (125000 * s.dev.fld Reg.BAL_REFRESH 15 0) = true) →
       exec (.balanceSend off) s = .next (s.on (((l.foldl (fun (d : Dev) x => if off.getLsbD x.1 = true then
           (((d.setFld (Reg.BAL_APPL x.1) 23 0 x.2).setBit (Reg.BAL_APPL x.1) 24 true).flag Reg.BAL_STAT 4).hw 0x1062
           [nw x.1] else (d.setFld (Reg.BAL_APPL x.1) 23 0 x.2).setBit (Reg.BAL_APPL x.1) 24 false) (f.frameSend 0x06
           63 0 (balPay g))).setBit Reg.BAL_STAT 0 (g.any (fun x => x.2 % 65536 != 0))).start Tm.balSend))) ∧
  (∀ (s : State) (off : BitVec 48),
     s.dev.asleep = false →
     s.dev.leads = true →
     (((List.range 48).filter (fun k => !s.dev.learning k)).map (fun k => (k, s.dev.balEntry k))).any (fun x =>
         s.dev.fld (Reg.BAL_APPL x.1) 23 0 != x.2) = false →
     s.dev.fld Reg.BAL_REFRESH 15 0 = 0 ∨ s.dev.running Tm.balSend = true ∧ s.dev.due Tm.balSend (125000 * s.dev.fld
         Reg.BAL_REFRESH 15 0) = false →
       exec (.balanceSend off) s = .next (s.on (s.dev.balFlags))) ∧
  (∀ (s : State) (src : Writer) (v : Word) (d : Dev),
     s.dev.asleep = false →
     s.dev.takes src Reg.BAL_LRN = some d →
       (bitOf v 31 = false ∨ d.bit Reg.BAL_LRNSTAT 31 = true → exec (.learningGo src v) s = .next (s.on (d))) ∧
       (bitOf v 31 = true → d.bit Reg.BAL_LRNSTAT 31 = false → d.swp.cur ≠ none → exec (.learningGo src v) s = .next
           (s.on
           (({ d with swp := { d.swp with lrn := some { node := fieldOf v 5 0, arg := fieldOf v 11 8, phase := 0, base := [], cap := [] } } }
           : Dev).wr Reg.BAL_LRNSTAT 0x80000000))) ∧
       (bitOf v 31 = true → d.bit Reg.BAL_LRNSTAT 31 = false → d.swp.cur = none → exec (.learningGo src v) s = .next
           (s.on
           ((({ d with swp := { d.swp with lrn := some { node := fieldOf v 5 0, arg := fieldOf v 11 8, phase := 0, base := [], cap := [] } } }
           : Dev).wr Reg.BAL_LRNSTAT 0x80000000).lrnBegin))))

/-- The ring leaves DOWN for ENUM when both ends are up; a FAULT set with a bad check is discarded and a good one in
NORMAL notes the break and makes BROKEN with entry 0x1010; HEAL, WAKE and the delays of a new T_ref are sent in the
states the rules name and nothing otherwise; enumeration takes the nodes found, their times of flight and T_ref,
writes the delays and enters NORMAL with entry 0x1030; a node returns from LOST on REARM with entry 0x1022. -/
def Obligations.RingStates : Prop :=
  (∀ (s : State),
     s.dev.asleep = false →
     s.dev.ringState = 0 →
     s.dev.bit (Reg.SK_STAT 0) 0 = true →
     s.dev.bit (Reg.SK_STAT 1) 0 = true ∨ s.dev.due Tm.ringUp (125000 * 2) = true →
       exec (.ringDownExit) s = .next (s.on ((s.dev.setFld (Reg.SK_RING 0) 2 0 1).stop Tm.linkOk))) ∧
  (∀ (s : State),
     s.dev.asleep = false →
     s.dev.ringState ≠ 0 ∨ s.dev.bit (Reg.SK_STAT 0) 0 = false →
       exec (.ringDownExit) s = .next (s.on (s.dev))) ∧
  (∀ (s : State) (x : Bool) (a p c : Byte),
     s.dev.asleep = false →
     s.dev.bit (Reg.SK_CTL (portNo x)) 0 = false ∨ c ≠ a ^^^ p ^^^ 0x5A →
       exec (.faultReceive x a p c) s = .next (s.on (s.dev))) ∧
  (∀ (s : State) (a p c : Byte) (d : Dev),
     s.dev.asleep = false →
     s.dev.flag (Reg.SK_STAT 1) 8 = d →
     s.dev.bit (Reg.SK_CTL 1) 0 = true →
     c = a ^^^ p ^^^ 0x5A →
       (d.ringState = 2 ∨ d.ringState = 3 ∨ d.ringState = 4 → exec (.faultReceive true a p c) s = .next (s.on ((d.brk
           (d.farEnd true) (a.toNat % 64)).ringBreak))) ∧
       (d.ringState < 2 ∨ 4 < d.ringState → exec (.faultReceive true a p c) s = .next (s.on (d)))) ∧
  (∀ (s : State) (a p c : Byte) (d e : Dev),
     s.dev.asleep = false →
     c = a ^^^ p ^^^ 0x5A →
     s.dev.flag (Reg.SK_STAT 0) 8 = d →
     (if (if d.bit Reg.TW_CFG 1 then a.toNat = 0 ∧ p.toNat = 0 else a.toNat + 1 = d.ring.count.getD 0 ∧ p.toNat = 1)
         then d.start Tm.faultHeard else d) = e →
     s.dev.bit (Reg.SK_CTL 0) 0 = true →
       (e.ringState = 2 ∨ e.ringState = 3 ∨ e.ringState = 4 → exec (.faultReceive false a p c) s = .next (s.on ((e.brk
           (e.farEnd false) (a.toNat % 64)).ringBreak))) ∧
       (e.ringState < 2 ∨ 4 < e.ringState → exec (.faultReceive false a p c) s = .next (s.on (e)))) ∧
  (∀ (d : Dev),
       (d.ringState = 2 → d.ringBreak = (((d.setFld (Reg.SK_RING 0) 2 0 3).stop Tm.linkOk).owAbort).hw 0x1010 []) ∧
       (d.ringState ≠ 2 → d.ringBreak = d)) ∧
  (∀ (s : State) (x : Bool) (frame l : List Byte),
     s.dev.asleep = false →
     s.dev.portOn x = true →
     (farComplete frame).set 1 (((farComplete frame)[1]?).getD 0 ||| 64) = l →
       (s.dev.fld (Reg.SK_CTL (portNo x)) 3 2 = 2 → s.dev.ringSplit = false → exec (.echoEndReturn x frame) s = .next
           (s.on ((s.dev.portFrame x).send (portIface x) (0x200 + nth (byteNats (l ++ leBytes 4 (crc32c l).toNat)) 0)
           (byteNats (l ++ leBytes 4 (crc32c l).toNat))))) ∧
       (s.dev.role = 2 → s.dev.ringState = 5 → isRead62 frame = true → exec (.echoEndReturn x frame) s = .next (s.on
           (((s.dev.ringSet 2).portFrame x).send (portIface x) (0x200 + nth (byteNats (l ++ leBytes 4 (crc32c
           l).toNat)) 0) (byteNats (l ++ leBytes 4 (crc32c l).toNat))))) ∧
       (s.dev.role ≠ 2 → s.dev.fld (Reg.SK_CTL (portNo x)) 3 2 ≠ 2 ∨ s.dev.ringSplit = true → exec (.echoEndReturn x
           frame) s = .next (s.on (s.dev)))) ∧
  (∀ (s : State) (x : Bool) (frame : List Byte),
     s.dev.asleep = false →
     s.dev.portOn x = false →
       exec (.echoEndReturn x frame) s = .next (s.on (s.dev))) ∧
  (∀ (dst a : Byte) (l : List Byte),
       (dst.toNat % 64 = 62 → dst.toNat.testBit 6 = false → farComplete (4 :: dst :: l) = 4 :: (dst ||| 0x80) :: l) ∧
       (a ≠ 4 ∨ dst.toNat % 64 ≠ 62 ∨ dst.toNat.testBit 6 = true → farComplete (a :: dst :: l) = a :: dst :: l)) ∧
  (∀ (s : State) (hop : Byte) (nodes : List EnumNode) (transit : BitVec 24) (n : Nat) (a b : Dev),
     s.dev.asleep = false →
     s.dev.role = 0 →
     s.dev.ringState = 1 →
     s.dev.enumOk = true →
     s.dev.ring.count = none →
     hop.toNat ≤ 48 →
     min 48 (min hop.toNat nodes.length) = n →
     ({ s.dev.enumFrames n with ring := { (s.dev.enumFrames n).ring with count := some n, trans := [], trans0 := transit.toNat } }
         : Dev) = a →
     ((List.range n).foldl (fun (d : Dev) k => match nodes[k]? with | some e => d.enumNode k e | none => d)
         a).nodesNote n = b →
       exec (.enumeration hop nodes transit) s =
             (let f : Dev := { b with ring := { b.ring with tref := b.trefOf, trefNew := none } };
             let g := ((List.range n).foldl (fun (d : Dev) k => d.delayWrite b.trefOf k) f).wdtoSend;
             let h := if g.pwr.full || g.bit Reg.CHM_STAT 2 || g.bit Reg.CHM_STAT 3 then g else g.chmIdentity;
             .next (s.on (((h.greyNodes n).ringSet 2).fw 0x1030 [nw n])))) ∧
  (∀ (s : State) (hop : Byte) (nodes : List EnumNode) (transit : BitVec 24),
     s.dev.asleep = false →
     s.dev.enumOk = false →
       exec (.enumeration hop nodes transit) s = .next (s.on (s.dev))) ∧
  (∀ (d : Dev),
     d.role ≠ 2 →
     d.ringQuiet = true →
       (d.ringState = 1 → d.pwr.full = false ∨ d.ringBasic = true → d.enumOk = true) ∧
       (d.ringState = 2 ∨ d.ringState = 4 → d.ringBasic = true → d.enumOk = true) ∧
       (d.ringBasic = false → d.pwr.full = true → d.enumOk = false)) ∧
  (∀ (s : State) (hop : Byte) (nodes : List EnumNode) (transit : BitVec 24),
     s.dev.asleep = false →
     s.dev.leads = false →
       exec (.enumeration hop nodes transit) s = .next (s.on (s.dev))) ∧
  (∀ (d : Dev) (tref k t : Nat) (x : Bool),
     d.tof x k = some t →
       d.dly tref x k = tref - t - (d.nodeCaps k).2.2) ∧
  (∀ (lo : Nat) (r : BitVec 24),
     lo ≤ r.toNat →
     (r.toNat - lo) % 2 = 0 →
       tofMean lo [r] = some ((r.toNat - lo) / 2 % 65536)) ∧
  (∀ (s : State) (ra rb : List (BitVec 24)),
     s.dev.asleep = false →
       (s.dev.ring.tofWait = none → exec (.tofRemeasure ra rb) s = .next (s.on (s.dev))) ∧
       (s.dev.ringState ≠ 5 → s.dev.bit Reg.TT_STAT 5 = false → exec (.tofRemeasure ra rb) s = .next (s.on (s.dev))) ∧
       (s.dev.ringBasic = false → exec (.tofRemeasure ra rb) s = .next (s.on (s.dev))) ∧
       (s.dev.ringQuiet = false → exec (.tofRemeasure ra rb) s = .next (s.on (s.dev)))) ∧
  (∀ (s : State) (k : Nat) (ra rb : List (BitVec 24)) (a : Dev) (p : Dev × Bool),
     s.dev.asleep = false →
     s.dev.ring.tofWait = some k →
     s.dev.ringBasic = true →
     s.dev.leads = true →
     s.dev.bit Reg.TT_STAT 5 = true →
     k < s.dev.ring.count.getD 0 →
     s.dev.ringQuiet = true →
     ((({ s.dev with ring := { s.dev.ring with tofWait := none } } : Dev).echoSend k).rttNote false ra).rttNote true
         rb = a →
     Dev.tofMove (Dev.tofMove (a, false) false k (a.nodeCaps k).2.1 ra) true k (a.nodeCaps k).2.1 rb = p →
     s.dev.ringState ≠ 5 →
       (p.2 = false → exec (.tofRemeasure ra rb) s = .next (s.on (p.1))) ∧
       (p.2 = true → p.1.trefOf = p.1.ring.tref → exec (.tofRemeasure ra rb) s = .next (s.on (p.1.delayWrite
           p.1.trefOf k))) ∧
       (p.2 = true → p.1.trefOf ≠ p.1.ring.tref → exec (.tofRemeasure ra rb) s = .next (s.on
           ({ p.1 with ring := { p.1.ring with trefNew := some p.1.trefOf } })))) ∧
  (∀ (d : Dev) (k : Nat),
       (∀ ok, ok = false → d.healNext k ok = d.healFail) ∧
       (k + 1 < d.ring.count.getD 0 → d.healNext k true = { d with ring := { d.ring with tofWait := some (k + 1) } })
           ∧
       (d.ring.count.getD 0 ≤ k + 1 → d.healNext k true = d.healPass)) ∧
  (∀ (s : State) (k : Nat) (ra rb : List (BitVec 24)) (a : Dev) (p : Dev × Bool) (f : Dev),
     s.dev.asleep = false →
     s.dev.ring.tofWait = some k →
     s.dev.ringBasic = true →
     s.dev.leads = true →
     s.dev.ringState = 5 →
     k < s.dev.ring.count.getD 0 →
     s.dev.ringQuiet = true →
     ((({ s.dev with ring := { s.dev.ring with tofWait := none } } : Dev).echoSend k).rttNote false ra).rttNote true
         rb = a →
     Dev.tofMove (Dev.tofMove (a, false) false k (a.nodeCaps k).2.1 ra) true k (a.nodeCaps k).2.1 rb = p →
     (if p.2 then (if p.1.trefOf = p.1.ring.tref then p.1.delayWrite p.1.trefOf k else
         { p.1 with ring := { p.1.ring with trefNew := some p.1.trefOf } }) else p.1) = f →
       exec (.tofRemeasure ra rb) s = .next (s.on (f.healNext k (!ra.isEmpty && !rb.isEmpty)))) ∧
  (∀ (d : Dev) (x b : Bool) (k lo t o : Nat) (l : List (BitVec 24)),
     tofMean lo l = some t →
     d.tof x k = some o →
       (((t : Int) - (o : Int)).natAbs < 2 → Dev.tofMove (d, b) x k lo l = (d, b)) ∧
       (2 ≤ ((t : Int) - (o : Int)).natAbs → Dev.tofMove (d, b) x k lo l = (d.setTof x k (some t), true))) ∧
  (∀ (s : State) (t : Nat) (l : List Nat),
     s.dev.asleep = false →
     s.dev.ring.trefNew = some t →
     s.dev.ringBasic = true →
     (List.range (s.dev.ring.count.getD 0)).filter (fun k => !s.dev.unreached k && s.dev.leads) = l →
       (s.dev.delaysFit l.length = true → exec (.delayRewrite) s = .next (s.on (l.foldl (fun (d : Dev) k =>
           d.delayWrite t k) { s.dev with ring := { s.dev.ring with tref := t, trefNew := none } }))) ∧
       (s.dev.delaysFit l.length = false → exec (.delayRewrite) s = .next (s.on (s.dev)))) ∧
  (∀ (s : State),
     s.dev.asleep = false →
     s.dev.ring.trefNew = none →
       exec (.delayRewrite) s = .next (s.on (s.dev))) ∧
  (∀ (s : State),
     s.dev.asleep = false →
     s.dev.ringBasic = false →
       exec (.delayRewrite) s = .next (s.on (s.dev))) ∧
  (∀ (d : Dev) (n : Nat),
       (d.now < d.ring.busyTill → d.delaysFit n = false) ∧
       (∀ t, d.strobeTicks = some t → t < symT (n * delaySyms) + d.tRing → d.delaysFit n = false)) ∧
  (∀ (s : State),
     s.dev.asleep = false →
     s.dev.ringState = 4 →
     s.dev.bit (Reg.SK_CTL 0) 4 = true →
     s.dev.leads = true →
     s.dev.ringBasic = true →
     s.dev.running Tm.linkOk = true →
     s.dev.due Tm.linkOk (125000000 * 1) = true →
       exec (.healSend true) s = .next (s.on (s.dev.healGo))) ∧
  (∀ (s : State) (ok : Bool),
     s.dev.asleep = false →
     s.dev.ringState ≠ 4 →
       exec (.healSend ok) s = .next (s.on (s.dev))) ∧
  (∀ (s : State),
     s.dev.asleep = false →
     s.dev.ringState = 4 →
       exec (.healSend false) s = .next (s.on (s.dev.stop Tm.linkOk))) ∧
  (∀ (d : Dev),
       d.healGo = (((d.frameSend 0x09 63 0 []).ringSet 5).frameSend 0x04 62 0 []).start Tm.heal) ∧
  (∀ (s : State) (ret : Bool),
     s.dev.asleep = false →
     s.dev.ring.slept = true →
       (s.dev.due Tm.wake (125000 * 120) = false → s.dev.running Tm.wake = true → exec (.wakeSend false) s = .next
           (s.on (s.dev.ringSend setWake []))) ∧
       (s.dev.due Tm.wake (125000 * 120) = true → s.dev.running Tm.wake = true → exec (.wakeSend ret) s = .next (s.on
           (({ s.dev with ring := { s.dev.ring with slept := false } } : Dev).stop Tm.wake)))) ∧
  (∀ (s : State) (e : Dev),
     s.dev.asleep = false →
     s.dev.ring.slept = true →
     s.dev.running Tm.wake = true →
     s.dev.due Tm.wake (125000 * 120) = false →
     ({ s.dev.ringSend setWake [] with ring := { (s.dev.ringSend setWake []).ring with slept := false } } : Dev).stop
         Tm.wake = e →
       (e.ringState = 6 → exec (.wakeSend true) s = .next (s.on (e.ringSet 1))) ∧
       (e.ringState ≠ 6 → exec (.wakeSend true) s = .next (s.on (e.ringDownExit)))) ∧
  (∀ (s : State) (ret : Bool),
     s.dev.asleep = false →
     s.dev.ring.slept = false →
       exec (.wakeSend ret) s = .next (s.on (s.dev))) ∧
  (∀ (s : State) (src : Writer) (x : Bool) (k : BitVec 6) (v : Word) (d e : Dev),
     s.dev.asleep = false →
     s.dev.takes src (Reg.SK_NODE (portNo x) k.toNat) = some d →
     k.toNat ≤ 47 →
     bitOf v 31 = true →
     d.lagst k.toNat = 3 →
     (((d.setFld (Reg.SK_NODE 0 k.toNat) 17 16 0).setFld (Reg.SK_NODE 1 k.toNat) 17 16 0).hw 0x1022 [nw k.toNat]) = e
         →
       exec (.nodeRearm src x k v) s = .next (s.on
           ({ e with ring := { e.ring with tight := putN e.ring.tight k.toNat 0, fit := putN e.ring.fit k.toNat 0, tail := putN e.ring.tail k.toNat 0 } }))) ∧
  (∀ (s : State) (src : Writer) (x : Bool) (k : BitVec 6) (v : Word),
     s.dev.asleep = false →
     47 < k.toNat →
       exec (.nodeRearm src x k v) s = .next (s.on (s.dev)))

/-- SKx_CMDGO is ignored while BUSY, complete at once for length zero, refused with its error bit for a bad length or
buffer, and else queues the frame; the queued frame leaves a port that is on with its CRC, and without a timeout is
complete; an answer goes into the buffer with DONE, with CRC errors flagged and counted, an ECHO answer leaves its
round trip in SKx_RTT, and a frame that was cut shows in the port status alone; a READ to DST 62 ends a HEAL; a
timeout sets its bit. CLRCNT clears the counters. A channel-map entry is stored, or refused for its range or as a
duplicate with CHM_REFUSED naming it. -/
def Obligations.RingCommands : Prop :=
  (∀ (s : State) (src : Writer) (x : Bool) (v : Word) (d : Dev),
     s.dev.asleep = false →
     s.dev.takes src (Reg.SK_CMDGO (portNo x)) = some d →
       (d.bit (Reg.SK_CMDSTAT (portNo x)) 0 = true → exec (.cmdgo src x v) s = .next (s.on (d))) ∧
       (d.bit (Reg.SK_CMDSTAT (portNo x)) 0 = false → fieldOf v 13 0 = 0 → exec (.cmdgo src x v) s = .next (s.on
           (d.flag (Reg.SK_CMDSTAT (portNo x)) 1))) ∧
       (d.bit (Reg.SK_CMDSTAT (portNo x)) 0 = false → fieldOf v 13 0 ≠ 0 → fieldOf v 13 0 < 8 ∨ 8200 < fieldOf v 13 0
           → cmdBufOk (d.rd (Reg.SK_CMDADDR (portNo x))).toNat (fieldOf v 13 0) = true → exec (.cmdgo src x v) s =
           .next (s.on (d.flag (Reg.SK_CMDSTAT (portNo x)) 4))) ∧
       (d.bit (Reg.SK_CMDSTAT (portNo x)) 0 = false → fieldOf v 13 0 ≠ 0 → fieldOf v 13 0 < 8 ∨ 8200 < fieldOf v 13 0
           → cmdBufOk (d.rd (Reg.SK_CMDADDR (portNo x))).toNat (fieldOf v 13 0) = false → exec (.cmdgo src x v) s =
           .next (s.on ((d.flag (Reg.SK_CMDSTAT (portNo x)) 4).flag (Reg.SK_CMDSTAT (portNo x)) 5))) ∧
       (d.bit (Reg.SK_CMDSTAT (portNo x)) 0 = false → 8 ≤ fieldOf v 13 0 → fieldOf v 13 0 ≤ 8200 → cmdBufOk (d.rd
           (Reg.SK_CMDADDR (portNo x))).toNat (fieldOf v 13 0) = false → exec (.cmdgo src x v) s = .next (s.on (d.flag
           (Reg.SK_CMDSTAT (portNo x)) 5))) ∧
       (d.bit (Reg.SK_CMDSTAT (portNo x)) 0 = false → x = false → 8 ≤ fieldOf v 13 0 → fieldOf v 13 0 ≤ 8200 →
           cmdBufOk (d.rd (Reg.SK_CMDADDR (portNo x))).toNat (fieldOf v 13 0) = true → exec (.cmdgo src x v) s = .next
           (s.on
           (({ d with ring := { d.ring with cmdA := some ((d.rd (Reg.SK_CMDADDR 0)).toNat, fieldOf v 13 0, false) } }
           : Dev).setBit (Reg.SK_CMDSTAT 0) 0 true))) ∧
       (d.bit (Reg.SK_CMDSTAT (portNo x)) 0 = false → x = true → 8 ≤ fieldOf v 13 0 → fieldOf v 13 0 ≤ 8200 → cmdBufOk
           (d.rd (Reg.SK_CMDADDR (portNo x))).toNat (fieldOf v 13 0) = true → exec (.cmdgo src x v) s = .next (s.on
           (({ d with ring := { d.ring with cmdB := some ((d.rd (Reg.SK_CMDADDR 1)).toNat, fieldOf v 13 0, false) } }
           : Dev).setBit (Reg.SK_CMDSTAT 1) 0 true)))) ∧
  (∀ (s : State) (x : Bool) (a n : Nat) (l : List Byte) (c : Nat) (e : Dev),
     s.dev.asleep = false →
     s.dev.cmdOf x = some (a, n, false) →
     s.dev.bytes a n = l →
     s.dev.ring.busyTill ≤ s.dev.now →
     (c = 3 → s.dev.ringQuiet = true) →
     leNat (l.take 1) = c →
     (if s.dev.portOn x && s.dev.role != 2 then ((s.dev.portSend x c (byteNats (l ++ leBytes 4 (crc32c
         l).toNat))).partnerFrame (byteNats (l ++ leBytes 4 (crc32c l).toNat))).cmdState c else s.dev) = e →
       (e.rd (Reg.SK_CMDTO (portNo x)) = 0 → exec (.commandSend x) s = .next (s.on ((e.setCmd x none).flag
           (Reg.SK_CMDSTAT (portNo x)) 1))) ∧
       (e.rd (Reg.SK_CMDTO (portNo x)) ≠ 0 → exec (.commandSend x) s = .next (s.on ((e.setCmd x (some (a, n,
           true))).start (Tm.cmd x))))) ∧
  (∀ (s : State) (x : Bool),
     s.dev.asleep = false →
     s.dev.cmdOf x = none →
       exec (.commandSend x) s = .next (s.on (s.dev))) ∧
  (∀ (s : State) (x : Bool),
     s.dev.asleep = false →
     s.dev.now < s.dev.ring.busyTill →
       exec (.commandSend x) s = .next (s.on (s.dev))) ∧
  (∀ (d : Dev),
       (d.ringState = 4 → d.cmdState 9 = d.ringSet 5) ∧
       (d.ringState ≠ 4 → d.cmdState 9 = d) ∧
       d.cmdState 7 = ({ d with ring := { d.ring with slept := true } } : Dev).ringSet 6 ∧
       (∀ c, c ≠ 9 → c ≠ 7 → d.cmdState c = d)) ∧
  (∀ (s : State) (x healOk : Bool) (fin : FrameEnd) (rtt : BitVec 24) (frame : List Byte),
     s.dev.asleep = false →
     s.dev.bit (Reg.SK_CTL (portNo x)) 0 = false →
       exec (.commandAnswer x fin rtt frame healOk) s = .next (s.on (s.dev))) ∧
  (∀ (s : State) (x healOk : Bool) (fin : FrameEnd) (rtt : BitVec 24) (frame : List Byte),
     s.dev.asleep = false →
     s.dev.bit (Reg.SK_CTL (portNo x)) 0 = true →
     fin ≠ .good →
     fin ≠ .badCrc →
       exec (.commandAnswer x fin rtt frame healOk) s = .next (s.on ((s.dev.portFrame x).frameEnd x fin))) ∧
  (∀ (d : Dev) (x : Bool) (e : Dev),
     d.setBit (Reg.SK_STAT (portNo x)) 1 false = e →
       d.frameEnd x .good = e ∧
       d.frameEnd x .badCrc = (e.flag (Reg.SK_STAT (portNo x)) 6).satInc (Reg.SK_ERRCNT (portNo x)) 31 16 ∧
       d.frameEnd x .abort = e.flag (Reg.SK_STAT (portNo x)) 5 ∧
       d.frameEnd x .code = (e.flag (Reg.SK_STAT (portNo x)) 4).satInc (Reg.SK_ERRCNT (portNo x)) 15 0) ∧
  (∀ (s : State) (x healOk : Bool) (rtt : BitVec 24) (frame : List Byte) (a n : Nat) (d e : Dev),
     s.dev.asleep = false →
     s.dev.bit (Reg.SK_CTL (portNo x)) 0 = true →
     (s.dev.portFrame x).frameEnd x .badCrc = d →
     d.cmdOf x = some (a, n, true) →
     isRead62 (d.bytes a 8) = false →
     d.agentStore a ((farComplete frame).take n) = e →
       exec (.commandAnswer x .badCrc rtt frame healOk) s = .next (s.on (((e.flag (Reg.SK_CMDSTAT (portNo x))
           2).setCmd x none).flag (Reg.SK_CMDSTAT (portNo x)) 1))) ∧
  (∀ (s : State) (x healOk : Bool) (rtt : BitVec 24) (frame : List Byte) (a n : Nat) (d e : Dev),
     s.dev.asleep = false →
     s.dev.bit (Reg.SK_CTL (portNo x)) 0 = true →
     (s.dev.portFrame x).frameEnd x .good = d →
     d.cmdOf x = some (a, n, true) →
     isRead62 (d.bytes a 8) = false →
     d.agentStore a ((farComplete frame).take n) = e →
       (leNat (frame.take 1) = 3 → exec (.commandAnswer x .good rtt frame healOk) s = .next (s.on (((e.setCmd x
           none).flag (Reg.SK_CMDSTAT (portNo x)) 1).setFld (Reg.SK_RTT (portNo x)) 23 0 rtt.toNat))) ∧
       (leNat (frame.take 1) ≠ 3 → exec (.commandAnswer x .good rtt frame healOk) s = .next (s.on ((e.setCmd x
           none).flag (Reg.SK_CMDSTAT (portNo x)) 1)))) ∧
  (∀ (s : State) (x healOk : Bool) (rtt : BitVec 24) (frame : List Byte) (a n : Nat) (d e : Dev),
     s.dev.asleep = false →
     s.dev.bit (Reg.SK_CTL (portNo x)) 0 = true →
     (s.dev.portFrame x).frameEnd x .good = d →
     d.cmdOf x = some (a, n, true) →
     isRead62 (d.bytes a 8) = true →
     leNat (frame.take 1) ≠ 3 →
     d.agentStore a ((farComplete frame).take n) = e →
       exec (.commandAnswer x .good rtt frame healOk) s = .next (s.on (((e.setCmd x none).flag (Reg.SK_CMDSTAT (portNo
           x)) 1).healDone healOk))) ∧
  (∀ (d e : Dev),
     (d.ringSet 2).fw 0x1012 [] = e →
       (e.ringBasic = false ∨ e.trefOf = e.ring.tref → d.healPass = e) ∧
       (e.ringBasic = true → e.trefOf ≠ e.ring.tref → d.healPass =
           { e with ring := { e.ring with trefNew := some e.trefOf } })) ∧
  (∀ (d : Dev) (ok : Bool) (e : Dev),
     d.stop Tm.heal = e →
       (e.ringState = 5 → ok = false → d.healDone ok = (e.ringSet 4).fw 0x1013 []) ∧
       (e.ringState = 5 → ok = true → e.ringBasic = true → e.ring.count.getD 0 ≠ 0 → d.healDone ok =
           { e with ring := { e.ring with tofWait := some 0 } }) ∧
       (e.ringState = 5 → ok = true → e.ringBasic = false ∨ e.ring.count.getD 0 = 0 → d.healDone ok = e.healPass) ∧
       (e.ringState ≠ 5 → d.healDone ok = e)) ∧
  (∀ (s : State) (x : Bool) (a n : Nat),
     s.dev.asleep = false →
     s.dev.cmdOf x = some (a, n, true) →
     s.dev.due (Tm.cmd x) (usT (s.dev.rd (Reg.SK_CMDTO (portNo x))).toNat) = true →
     isRead62 ((((s.dev.setCmd x none).flag (Reg.SK_CMDSTAT (portNo x)) 3)).bytes a 8) = false →
       exec (.commandTimeout x) s = .next (s.on ((s.dev.setCmd x none).flag (Reg.SK_CMDSTAT (portNo x)) 3))) ∧
  (∀ (s : State) (x : Bool) (a n : Nat),
     s.dev.asleep = false →
     s.dev.cmdOf x = some (a, n, true) →
     s.dev.due (Tm.cmd x) (usT (s.dev.rd (Reg.SK_CMDTO (portNo x))).toNat) = true →
     isRead62 ((((s.dev.setCmd x none).flag (Reg.SK_CMDSTAT (portNo x)) 3)).bytes a 8) = true →
       exec (.commandTimeout x) s = .next (s.on (((s.dev.setCmd x none).flag (Reg.SK_CMDSTAT (portNo x)) 3).healDone
           false))) ∧
  (∀ (s : State) (x : Bool),
     s.dev.asleep = false →
     s.dev.cmdOf x = none →
       (s.dev.due Tm.heal (usT (s.dev.rd (Reg.SK_CMDTO (portNo x))).toNat) = true → exec (.commandTimeout x) s = .next
           (s.on (s.dev.healDone false))) ∧
       (s.dev.due Tm.heal (usT (s.dev.rd (Reg.SK_CMDTO (portNo x))).toNat) = false → exec (.commandTimeout x) s =
           .next (s.on (s.dev)))) ∧
  (∀ (s : State) (src : Writer) (x : Bool) (v : Word) (d : Dev),
     s.dev.asleep = false →
     s.dev.takes src (Reg.SK_CTL (portNo x)) = some d →
       (bitOf (withBit v 5 true) 0 = true → x = true → exec (.skClearCounts src x v) s = .next (s.on (((d.plainWrite
           (Reg.SK_CTL 1) (withBit v 5 true)).wr (Reg.SK_ERRCNT 1) 0).wr (Reg.SK_SLOTERR 1) 0))) ∧
       (bitOf (withBit v 5 true) 0 = true → x = false → exec (.skClearCounts src x v) s = .next (s.on ((((d.plainWrite
           (Reg.SK_CTL 0) (withBit v 5 true)).wr (Reg.SK_ERRCNT 0) 0).wr (Reg.SK_SLOTERR 0) 0).healTry))) ∧
       (bitOf (withBit v 5 true) 0 = false → x = true → exec (.skClearCounts src x v) s = .next (s.on
           (((((d.plainWrite (Reg.SK_CTL 1) (withBit v 5 true)).wr (Reg.SK_ERRCNT 1) 0).wr (Reg.SK_SLOTERR 1)
           0).setBit (Reg.SK_STAT 1) 0 false).setBit (Reg.SK_STAT 1) 1 false))) ∧
       (bitOf (withBit v 5 true) 0 = false → x = false → exec (.skClearCounts src x v) s = .next (s.on
           ((((((d.plainWrite (Reg.SK_CTL 0) (withBit v 5 true)).wr (Reg.SK_ERRCNT 0) 0).wr (Reg.SK_SLOTERR 0)
           0).setBit (Reg.SK_STAT 0) 0 false).setBit (Reg.SK_STAT 0) 1 false).ringSet 0)))) ∧
  (∀ (s : State) (src : Writer) (i : BitVec 11) (v : Word) (d : Dev) (j : Nat),
     s.dev.asleep = false →
     s.dev.takes src (Reg.CHM_ENT i.toNat) = some d →
       (bitOf v 31 = false → exec (.chmEntryWrite src i v) s = .next (s.on ((d.chmStore i.toNat v).chmCount))) ∧
       (bitOf v 31 = true → 47 < fieldOf v 29 24 ∨ chmMaxPos i.toNat < fieldOf v 20 16 → exec (.chmEntryWrite src i v)
           s = .next (s.on (((d.flag Reg.CHM_STAT 1).wr Reg.CHM_REFUSED (nw i.toNat)).chmCount))) ∧
       (bitOf v 31 = true → fieldOf v 29 24 ≤ 47 → fieldOf v 20 16 ≤ chmMaxPos i.toNat → d.chmFind (chmRange
           i.toNat).1 (chmRange i.toNat).2 (fieldOf v 29 24) (fieldOf v 20 16) = none → exec (.chmEntryWrite src i v)
           s = .next (s.on ((d.chmStore i.toNat v).chmCount))) ∧
       (bitOf v 31 = true → fieldOf v 29 24 ≤ 47 → fieldOf v 20 16 ≤ chmMaxPos i.toNat → d.chmFind (chmRange
           i.toNat).1 (chmRange i.toNat).2 (fieldOf v 29 24) (fieldOf v 20 16) = some j → j ≠ i.toNat → exec
           (.chmEntryWrite src i v) s = .next (s.on (((d.flag Reg.CHM_STAT 0).wr Reg.CHM_REFUSED (nw
           i.toNat)).chmCount)))) ∧
  (∀ (d : Dev) (i : Nat) (v : Word),
     d.bit (Reg.CHM_ENT i) 31 = bitOf v 31 →
       d.chmStore i v = d.plainWrite (Reg.CHM_ENT i) v)

/-- The collect is launched once its offset has passed, with a frame of its own for each laggard. A slot is ignored at a
disabled port, counted with its CRC wrong, dropped with SEQ 0xFFFF, noted with entry 0x1054 out of order, and else
taken: voltages, temperatures, segment, comparators; at the end of its frame the SEGMENT of the slots taken leaves.
At the deadline a complete sweep is published; missing slots set SWP_STAT[7] and break the ring, and in BROKEN
recovery reads follow. GO starts an open-wire pass unless one runs; its judgement ends it with DONE or ABORT; CLRCNT
clears the counts. -/
def Obligations.SweepCommands : Prop :=
  (∀ (s : State) (w : Sweep) (e : Dev),
     s.dev.asleep = false →
     s.dev.swp.cur = some w →
     w.launched = false →
     s.dev.noNodes w.desc = false →
     w.issue + s.dev.launchT w.desc + usT w.stretch ≤ s.dev.now →
     { s.dev with swp := { s.dev.swp with cur := some { w with launched := true } } } = e →
       (e.mainSlots w.desc ≠ [] → exec (.collectLaunch) s = .next (s.on ((e.tailSlots w.desc).foldl (fun (d : Dev) n
           => d.collect n.1 1 false [n]) (e.collect 63 1 false (e.mainSlots w.desc))))) ∧
       (e.mainSlots w.desc = [] → exec (.collectLaunch) s = .next (s.on ((e.tailSlots w.desc).foldl (fun (d : Dev) n
           => d.collect n.1 1 false [n]) e)))) ∧
  (∀ (s : State),
     s.dev.asleep = false →
     s.dev.swp.cur = none →
       exec (.collectLaunch) s = .next (s.on (s.dev))) ∧
  (∀ (s : State) (x : Bool) (arg : Byte) (node : BitVec 6) (seq : BitVec 16) (flags turn : Byte) (data : List Byte)
       (crcOk : Bool) (fin : FrameEnd),
     s.dev.asleep = false →
       (s.dev.bit (Reg.SK_CTL (portNo x)) 0 = false → exec (.slotReceive x arg node seq flags turn data crcOk fin) s =
           .next (s.on (s.dev))) ∧
       (s.dev.bit (Reg.SK_CTL (portNo x)) 0 = true → crcOk = false → exec (.slotReceive x arg node seq flags turn data
           crcOk fin) s =
             (let f := (((s.dev.portFrame x).frameEnd x fin).flag (Reg.SK_STAT (portNo x)) 7).satInc (Reg.SK_SLOTERR (portNo x)) 15 0;
             .next (s.on (if fin = .more then f else f.segmentSend)))) ∧
       (s.dev.bit (Reg.SK_CTL (portNo x)) 0 = true → crcOk = true → seq.toNat = 0xFFFF ∨ 47 < node.toNat → exec
           (.slotReceive x arg node seq flags turn data crcOk fin) s =
             (let f := (s.dev.portFrame x).frameEnd x fin;
             .next (s.on (if fin = .more then f else f.segmentSend)))) ∧
       (s.dev.bit (Reg.SK_CTL (portNo x)) 0 = true → crcOk = true → seq.toNat ≠ 0xFFFF → node.toNat ≤ 47 → exec
           (.slotReceive x arg node seq flags turn data crcOk fin) s =
             (let f := ((s.dev.portFrame x).frameEnd x fin).slotTake x arg.toNat node.toNat seq.toNat flags.toNat turn.toNat data;
             .next (s.on (if fin = .more then f else f.segmentSend))))) ∧
  (∀ (d : Dev) (x : Bool) (arg node seq flags turn : Nat) (data : List Byte) (e : Dev) (q : Nat),
     (d.seqAdopt arg seq).slotWdt node (flags.testBit 5) = e →
     e.ring.seq = some q →
       (arg.testBit 5 = true → e.inRecovery = false → d.slotTake x arg node seq flags turn data = e) ∧
       (arg.testBit 5 = false ∨ e.inRecovery = true → seq ≠ q → seq ≠ seqBelow q → d.slotTake x arg node seq flags
           turn data = ((e.slotGot arg node).flag Reg.SWP_STAT 2).hw 0x1054 [nw node, nw seq]) ∧
       (arg.testBit 5 = false ∨ e.inRecovery = true → seq = q ∨ seq = seqBelow q → d.slotTake x arg node seq flags
           turn data =
             (let y : SlotIn := { node := node, far := e.farEnd x, flags := flags, cur := decide (seq = q) };
             let nv := if arg.testBit 0 then e.nodeNV node else 0;
             let f := if arg.testBit 0 then e.slotVolts y seq turn (signedParts 3 nv data) else (e, []);
             let g := f.1.slotSub y arg (data.drop (3 * nv));
             (g.1.segmentAdd arg node seq flags turn data).compareWords (f.2 ++ g.2) q))) ∧
  (∀ (d : Dev),
       (d.swp.seg = [] ∨ d.pairUp = false → d.segmentSend = d) ∧
       (d.swp.seg ≠ [] → d.pairUp = true → d.segmentSend =
           { d.send .twin 0x07 (byteNats (leBytes 2 (d.ring.seq.getD 0) ++ leBytes 1 d.swp.segArg ++ [0] ++ d.swp.seg)) with swp := { (d.send .twin 0x07 (byteNats (leBytes 2 (d.ring.seq.getD 0) ++ leBytes 1 d.swp.segArg ++ [0] ++ d.swp.seg))).swp with seg := [] } })) ∧
  (∀ (s : State) (t : Option (BitVec 24)),
     s.dev.asleep = false →
     s.dev.swp.cur = none →
       exec (.sweepDeadline t) s = .next (s.on (s.dev))) ∧
  (∀ (s : State) (t : Option (BitVec 24)) (w : Sweep) (e : Dev) (l : List Nat),
     s.dev.asleep = false →
     s.dev.swp.cur = some w →
     w.recovering = false →
     s.dev.deadlineAt w ≤ s.dev.now →
     s.dev.noteTransit (t.map (fun t => t.toNat)) = e →
     (e.descNodes w.desc).filter (fun k => !w.got.contains k) = l →
       (l = [] → exec (.sweepDeadline t) s = .next (s.on (e.segmentSend.publish w))) ∧
       (l ≠ [] → ((e.flag Reg.SWP_STAT 7).ringBreak).ringState ≠ 3 → exec (.sweepDeadline t) s = .next (s.on (((e.flag
           Reg.SWP_STAT 7).ringBreak).segmentSend.publish w))) ∧
       (l ≠ [] → ((e.flag Reg.SWP_STAT 7).ringBreak).ringState = 3 → exec (.sweepDeadline t) s =
             (let f := (e.flag Reg.SWP_STAT 7).ringBreak;
             let g := Dev.cue { f with swp := { f.swp with cur := some { w with recovering := true } } } 9 w.seq;
             .next (s.on (if g.role = 2 then g else g.collect 63 0x21 true (l.map (fun k => (k, 3 * g.nodeNV k)))))))) ∧
  (∀ (s : State) (w : Sweep),
     s.dev.asleep = false →
     s.dev.swp.cur = some w →
     w.recovering = true →
       exec (.publication) s = .next (s.on (s.dev.publish w))) ∧
  (∀ (s : State),
     s.dev.asleep = false →
     s.dev.swp.cur = none →
       exec (.publication) s = .next (s.on (s.dev))) ∧
  (∀ (s : State),
     s.dev.asleep = false →
       (s.dev.swp.sub = none ∨ s.dev.swp.cur ≠ none ∨ s.dev.rd Reg.SWP_COUNT = 0 → exec (.temperatureRead) s = .next
           (s.on (s.dev)))) ∧
  (∀ (s : State) (u : SubSweep) (g k : Nat) (t : List (Nat × Nat)) (len : Nat → Nat) (l : List Nat) (c : Dev),
     s.dev.asleep = false →
     s.dev.swp.sub = some u →
     u.reads = (g, k) :: t →
     s.dev.swp.cur = none →
     s.dev.rd Reg.SWP_COUNT ≠ 0 →
     (fun k => 16 + (if u.aux && g = 0 then 3 * s.dev.nodeNA k else 0)) = len →
     s.dev.packReads len g u.reads [] (s.dev.swp.budget - max s.dev.swp.budgetUsed (s.dev.now - s.dev.swp.budgetAt)) =
         l →
     s.dev.collect 63 (4 + 8 * g + (if u.aux && g = 0 then 2 else 0)) false (l.map (fun k => (k, len k))) = c →
       (l = [] → exec (.temperatureRead) s = .next (s.on (s.dev))) ∧
       (l ≠ [] → exec .temperatureRead s = .next (s.on
           { c with swp := { c.swp with sub := some { u with reads := u.reads.drop l.length, till := c.ring.busyTill + c.tRing }, budgetUsed := max s.dev.swp.budgetUsed (s.dev.now - s.dev.swp.budgetAt) + symT (s.dev.collectSyms s.dev.ringSplit (l.map (fun k => (k, len k)))) } }))) ∧
  (∀ (s : State) (src : Writer) (v : Word) (d : Dev),
     s.dev.asleep = false →
     s.dev.takes src Reg.SWP_OWCTL = some d →
       (bitOf v 31 = false ∨ d.bit Reg.SWP_OWSTAT 31 = true → exec (.openWireGo src v) s = .next (s.on (d))) ∧
       (bitOf v 31 = true → d.bit Reg.SWP_OWSTAT 31 = false → d.swp.cur ≠ none → exec (.openWireGo src v) s = .next
           (s.on
           (({ d with swp := { d.swp with ow := some { node := fieldOf v 5 0, arg := fieldOf v 8 8, phase := 0, base := [], cap := [] } } }
           : Dev).setFld Reg.SWP_OWSTAT 31 23 (256 + fieldOf v 5 0)))) ∧
       (bitOf v 31 = true → d.bit Reg.SWP_OWSTAT 31 = false → d.swp.cur = none → exec (.openWireGo src v) s = .next
           (s.on
           ((({ d with swp := { d.swp with ow := some { node := fieldOf v 5 0, arg := fieldOf v 8 8, phase := 0, base := [], cap := [] } } }
           : Dev).setFld Reg.SWP_OWSTAT 31 23 (256 + fieldOf v 5 0)).owBegin)))) ∧
  (∀ (s : State) (p : WirePass),
     s.dev.asleep = false →
     s.dev.swp.ow = some p →
       (p.phase ≠ 3 → exec (.openWireEvaluate) s = .next (s.on (s.dev))) ∧
       (p.phase = 3 → p.cap = [] → exec (.openWireEvaluate) s = .next (s.on (s.dev.owAbort))) ∧
       (p.phase = 3 → p.cap ≠ [] → s.dev.fld Reg.SWP_OWCFG 15 0 = 0 → exec .openWireEvaluate s =
             (let a := s.dev.frameSend 0x05 p.node 0x0C [0, 0, 0, 0];
             let b : Dev := { a with swp := { a.swp with ow := none } };
             .next (s.on ((((b.setBit Reg.SWP_OWSTAT 31 false).setBit Reg.SWP_OWSTAT 30 true).setFld Reg.SWP_OWSTAT 16 0 0).lrnIdle p.node)))) ∧
       (p.phase = 3 → p.cap ≠ [] → s.dev.fld Reg.SWP_OWCFG 15 0 ≠ 0 → exec .openWireEvaluate s =
             (let th := s.dev.fld Reg.SWP_OWCFG 15 0;
             let wires := (List.range (p.base.length + 1)).filter (fun w => w % 2 = p.arg);
             let opens := wires.filter (fun w => owOpen p (1000 * th) w);
             let a := (wires.foldl (fun (d : Dev) w => d.owSuspect p.node w (opens.contains w)) s.dev).frameSend 0x05 p.node 0x0C [0, 0, 0, 0];
             let b : Dev := { a with swp := { a.swp with ow := none } };
             .next (s.on ((((b.setBit Reg.SWP_OWSTAT 31 false).setBit Reg.SWP_OWSTAT 30 true).setFld Reg.SWP_OWSTAT 16 0 (opens.foldl (fun m w => m + 2 ^ w) 0)).lrnIdle p.node))))) ∧
  (∀ (s : State) (src : Writer) (v : Word) (d : Dev),
     s.dev.asleep = false →
     s.dev.takes src Reg.SWP_CTL = some d →
       exec (.swpClearCounts src v) s = .next (s.on ((d.plainWrite Reg.SWP_CTL (withBit v 1 true)).wr Reg.SWP_SKIPCNT
           0))) ∧
  (∀ (d : Dev) (w : Sweep) (b : Nat) (v : Int),
     d.Canon →
       (d.sweepDone w b v).swp.cur = none ∧
       (d.sweepDone w b v).swp.vstr = v ∧
       (d.sweepDone w b v).rd Reg.SWP_LAST = nw (w.seq * 65536 + b) ∧
       (d.sweepDone w b v).rd Reg.SWP_COUNT = d.rd Reg.SWP_COUNT + 1) ∧
  (∀ (d : Dev) (i : Nat),
       (d.bit (Reg.CHM_ENT i) 31 = false → d.wordOf i = sweepWordOf 0 15 7) ∧
       (d.bit (Reg.CHM_ENT i) 31 = true → d.quality i (d.chan i) = 7 → d.wordOf i = sweepWordOf 0 15 7) ∧
       (d.bit (Reg.CHM_ENT i) 31 = true → d.quality i (d.chan i) ≠ 7 → d.wordOf i = sweepWordOf (d.chan i).value
           (d.chan i).age (d.quality i (d.chan i))))

/-- Words 0 to 2 of a limit entry are staged and word 3 commits all four, held to the envelope while locked; the sweep
watchdog latches class 9 once its time has run with a sweep published before; TRIP_N held low by another device
latches class 12; LIM_SWTRIP latches class 13 with CRIM and moves its Ochre with OCH; a clear request clears a latch
whose cause is gone with entry 0x2120 plus class and else sets CLRREF with entry 0x2130; LIM_TEST reports in
LIM_TESTSTAT; LIM_CTL.LOCK only sets. -/
def Obligations.ProtectionCommands : Prop :=
  (∀ (s : State) (src : Writer) (i : BitVec 11) (w : BitVec 2) (v : Word) (d : Dev),
     s.dev.asleep = false →
     s.dev.takes src (Reg.LIM_ENT i.toNat w.toNat) = some d →
       (w ≠ 3 → exec (.limEntryWordWrite src i w v) s = .next (s.on
           ({ d with lim := { d.lim with stage := putO d.lim.stage (4 * i.toNat + w.toNat) (some v) } }))) ∧
       (w = 3 → exec (.limEntryWordWrite src i w v) s = .next (s.on (d.limCommit i.toNat v)))) ∧
  (∀ (s : State) (src : Writer) (i : BitVec 11) (v : Word) (d : Dev),
     s.dev.asleep = false →
     s.dev.takes src (Reg.LIM_ENT i.toNat 3) = some d →
     d.bit Reg.LIM_CTL 1 = false ∨ 1920 ≤ i.toNat →
       exec (.limEntryCommit src i v) s =
             (let x0 := d.limStaged i.toNat 0;
             let x1 := d.limStaged i.toNat 1 &&& 0xFFFFFF07;
             let x2 := d.limStaged i.toNat 2;
             let e := (((d.wr (Reg.LIM_ENT i.toNat 0) x0).wr (Reg.LIM_ENT i.toNat 1) x1).wr (Reg.LIM_ENT i.toNat 2) x2).wr (Reg.LIM_ENT i.toNat 3) (v &&& 0xFFFFFF8F);
             .next (s.on (Dev.ochreRefresh { e with lim := { e.lim with stage := putO (putO (putO e.lim.stage (4 * i.toNat + 0) none) (4 * i.toNat + 1) none) (4 * i.toNat + 2) none } })))) ∧
  (∀ (s : State) (src : Writer) (i : BitVec 11) (v : Word) (d : Dev),
     s.dev.asleep = false →
     s.dev.takes src (Reg.LIM_ENT i.toNat 3) = some d →
     d.bit Reg.LIM_CTL 1 = true →
     i.toNat < 1920 →
       exec (.limEntryCommit src i v) s =
             (let x := d.envelope i.toNat (d.limStaged i.toNat 0) (d.limStaged i.toNat 1 &&& 0xFFFFFF07) (d.limStaged i.toNat 2) (v &&& 0xFFFFFF8F);
             let e := (((d.wr (Reg.LIM_ENT i.toNat 0) x.1).wr (Reg.LIM_ENT i.toNat 1) x.2.1).wr (Reg.LIM_ENT i.toNat 2) x.2.2.1).wr (Reg.LIM_ENT i.toNat 3) x.2.2.2;
             let f : Dev := { e with lim := { e.lim with stage := putO (putO (putO e.lim.stage (4 * i.toNat + 0) none) (4 * i.toNat + 1) none) (4 * i.toNat + 2) none } };
             let g := if x = (d.limStaged i.toNat 0, d.limStaged i.toNat 1 &&& 0xFFFFFF07, d.limStaged i.toNat 2, v &&& 0xFFFFFF8F) then f else (f.flag Reg.LIM_STAT 5).hw 0x2002 [nw i.toNat];
             .next (s.on g.ochreRefresh))) ∧
  (∀ (s : State),
     s.dev.asleep = false →
     s.dev.lim.swdArmed = true →
     s.dev.fld Reg.LIM_SWDTO 23 0 ≠ 0 →
     s.dev.due Tm.swd (usT (s.dev.fld Reg.LIM_SWDTO 23 0)) = true →
       exec (.sweepWatchdog) s = .next (s.on (s.dev.crim 9))) ∧
  (∀ (s : State),
     s.dev.asleep = false →
     ¬ (s.dev.lim.swdArmed = true ∧ s.dev.fld Reg.LIM_SWDTO 23 0 ≠ 0 ∧ s.dev.due Tm.swd (usT (s.dev.fld Reg.LIM_SWDTO
         23 0)) = true) →
       exec (.sweepWatchdog) s = .next (s.on (s.dev))) ∧
  (∀ (s : State) (low : Bool),
     s.dev.asleep = false →
       (low = true → s.dev.act 0 = false → exec (.externalTrip low) s = .next (s.on
           (({ s.dev with pins := { s.dev.pins with tripHigh := false } } : Dev).crim 12))) ∧
       (low = true → s.dev.act 0 = true → exec (.externalTrip low) s = .next (s.on
           ({ s.dev with pins := { s.dev.pins with tripHigh := false } }))) ∧
       (low = false → exec (.externalTrip low) s = .next (s.on
           ({ s.dev with pins := { s.dev.pins with tripHigh := true } })))) ∧
  (∀ (d : Dev) (c : Nat) (e : Dev) (left : Bool),
     d.bit Reg.LIM_CRIM c = true →
     d.crimCauses c = (e, left) →
       (left = true → d.clearClass c = (e.flag Reg.LIM_STAT 4).hw 0x2130 [nw c]) ∧
       (left = false → d.clearClass c = (e.setBit Reg.LIM_CRIM c false).hw (0x2120 + c) [nw c])) ∧
  (∀ (d : Dev) (c : Nat),
     d.bit Reg.LIM_CRIM c = false →
       d.clearClass c = d) ∧
  (∀ (s : State) (src : Writer) (v : Word) (d e : Dev),
     s.dev.asleep = false →
     s.dev.takes src Reg.LIM_TRIPCLR = some d →
     (List.range 16).foldl (fun d c => if bitOf v c then d.clearClass c else d) d = e →
       exec (.tripClear src v) s = .next (s.on ((if e.fld Reg.LIM_CRIM 15 0 = 0 then e.setBit Reg.LIM_FIRST 31 false
           else e).updateAct))) ∧
  (∀ (s : State) (src : Writer) (v : Word) (d : Dev),
     s.dev.asleep = false →
     s.dev.takes src Reg.LIM_SWTRIP = some d →
       exec (.softwareTrip src v) s = .next (s.on (if bitOf v 1 = true then ((d.plainWrite Reg.LIM_SWTRIP v).srcOchre
           13 (bitOf v 0)).crim 13 else (d.plainWrite Reg.LIM_SWTRIP v).srcOchre 13 (bitOf v 0)))) ∧
  (∀ (s : State) (src : Writer) (o : Bool) (d : Dev),
     s.dev.asleep = false →
     s.dev.takes src Reg.LIM_SWTRIP = some d →
       exec (.softwareOchre src o) s = .next (s.on ((d.plainWrite Reg.LIM_SWTRIP (nw (b2n o))).srcOchre 13 o))) ∧
  (∀ (s : State) (src : Writer) (v : Word) (bad : BitVec 4) (d : Dev),
     s.dev.asleep = false →
     s.dev.takes src Reg.LIM_TEST = some d →
       (bitOf v 31 = false → exec (.limTest src v bad) s = .next (s.on (d))) ∧
       (bitOf v 31 = true → bad.toNat &&& ((d.limW (fieldOf v 10 0) 3).toNat % 16) = 0 → exec (.limTest src v bad) s =
           .next (s.on (d.wr Reg.LIM_TESTSTAT 0x40000000)))) ∧
  (∀ (s : State) (src : Writer) (v : Word) (bad : BitVec 4) (d e : Dev) (f : Nat),
     s.dev.asleep = false →
     s.dev.takes src Reg.LIM_TEST = some d →
     bitOf v 31 = true →
     bad.toNat &&& ((d.limW (fieldOf v 10 0) 3).toNat % 16) = f →
     f ≠ 0 →
     ((d.wr Reg.LIM_TESTSTAT (nw (0x20000000 + f))).flag Reg.LIM_STAT 6).hw 0x2003 [nw (fieldOf v 10 0), nw f] = e →
       (e.manages 10 = true → exec (.limTest src v bad) s = .next (s.on (e.crim 13))) ∧
       (e.manages 10 = false → exec (.limTest src v bad) s = .next (s.on (e)))) ∧
  (∀ (s : State) (src : Writer) (v : Word) (d : Dev),
     s.dev.asleep = false →
     s.dev.takes src Reg.LIM_CTL = some d →
       exec (.limLock src v) s = .next (s.on (d.plainWrite Reg.LIM_CTL v)))

/-- A close whose conditions hold goes to PRECHARGE with K2, or to CLOSING with both channels for a zero PCTIME, and is
refused with entry 0x2210 otherwise; an open opens; an acknowledge leaves FAULT when no fault bit is set and the
feedback shows open. The timers and the feedback move the states of Table 6.6: the break delay, PICKUP, the
precharge criterion, PCTIME, FBTO, DROPTO, the confirmed closing and opening. Readbacks that do not follow the drive
of their switch (in hold that of the chopper), coil currents and mirror contacts that disagree make their faults;
KILL_OUT is asserted for a contactor that stays closed; diagnostics resume 10 ms after channel power. -/
def Obligations.ContactorCommands : Prop :=
  (∀ (s : State) (src : Writer) (d : Dev),
     s.dev.asleep = false →
     s.dev.takes src Reg.SCC_CMD = some d →
       (d.closeOk false = false → exec (.sccClose src) s = .next (s.on (d.hw 0x2210 []))) ∧
       (d.closeOk false = true → (d.cue 7 1).closeOk false = true → (d.cue 7 1).fld Reg.SCC_PCCFG 31 16 = 0 → exec
           (.sccClose src) s = .next (s.on (if (((d.cue 7 1).k2On.k1On).sccSet 2).openHeld = true then (((d.cue 7
           1).k2On.k1On).sccSet 2).openReq else ((d.cue 7 1).k2On.k1On).sccSet 2))) ∧
       (d.closeOk false = true → (d.cue 7 1).closeOk false = true → (d.cue 7 1).fld Reg.SCC_PCCFG 31 16 ≠ 0 → exec
           (.sccClose src) s = .next (s.on (if ((d.cue 7 1).k2On.sccSet 1).openHeld = true then ((d.cue 7
           1).k2On.sccSet 1).openReq else (d.cue 7 1).k2On.sccSet 1)))) ∧
  (∀ (d : Dev),
       (d.closeOk false = true ↔ (d.sccState = 0 ∧ d.bit Reg.SVC_STAT 3 = false ∧ d.bit Reg.SCC_CTL 0 = true ∧ d.bit
           Reg.LIM_CTL 0 = true ∧ d.bit Reg.LIM_STAT 1 = false ∧ d.crimOpens = false ∧ d.lim.swdArmed = true ∧
           d.fbOpen = true ∧ d.leads = true))) ∧
  (∀ (s : State) (src : Writer) (d : Dev),
     s.dev.asleep = false →
     s.dev.takes src Reg.SCC_CMD = some d →
       exec (.sccOpen src) s = .next (s.on ((d.cue 7 2).openReq))) ∧
  (∀ (s : State) (src : Writer) (d e : Dev),
     s.dev.asleep = false →
     s.dev.takes src Reg.SCC_CMD = some d →
     d.cue 7 3 = e →
       (e.sccState = 5 → e.fld Reg.SCC_DIAG 8 0 &&& 0xBF = 0 → e.fbOpen = true → exec (.sccAck src) s = .next (s.on
           ((e.sccSet 0).srcCond 11 false))) ∧
       (¬ (e.sccState = 5 ∧ e.fld Reg.SCC_DIAG 8 0 &&& 0xBF = 0 ∧ e.fbOpen = true) → exec (.sccAck src) s = .next
           (s.on (e)))) ∧
  (∀ (s : State),
     s.dev.asleep = false →
     s.dev.due Tm.brk (usT (s.dev.fld Reg.SCC_BRKDLY 15 0)) = true →
       exec (.breakDelayExpiry) s = .next (s.on (((s.dev.stop Tm.brk).setBit Reg.SCC_STAT 7 false).openReq))) ∧
  (∀ (s : State),
     s.dev.asleep = false →
     ¬ (s.dev.due Tm.brk (usT (s.dev.fld Reg.SCC_BRKDLY 15 0)) = true) →
       exec (.breakDelayExpiry) s = .next (s.on (s.dev))) ∧
  (∀ (s : State) (k2 : Bool),
     s.dev.asleep = false →
       (k2 = false → s.dev.due Tm.pick1 (s.dev.sccMs 31 24) = true → (s.dev.stop Tm.pick1).fld Reg.SCC_ECON 7 0 ≠ 0 →
           exec (.pickupExpiry k2) s = .next (s.on
           ({ s.dev.stop Tm.pick1 with scc := { s.dev.scc with k1 := if s.dev.scc.k1 = Coil.full then Coil.hold else s.dev.scc.k1 } })))
           ∧
       (k2 = true → s.dev.due Tm.pick2 (s.dev.sccMs 31 24) = true → (s.dev.stop Tm.pick2).fld Reg.SCC_ECON 7 0 ≠ 0 →
           exec (.pickupExpiry k2) s = .next (s.on
           ({ s.dev.stop Tm.pick2 with scc := { s.dev.scc with k2 := if s.dev.scc.k2 = Coil.full then Coil.hold else s.dev.scc.k2 } })))
           ∧
       (k2 = false → s.dev.due Tm.pick1 (s.dev.sccMs 31 24) = true → (s.dev.stop Tm.pick1).fld Reg.SCC_ECON 7 0 = 0 →
           exec (.pickupExpiry k2) s = .next (s.on (s.dev.stop Tm.pick1))) ∧
       (k2 = false → s.dev.due Tm.pick1 (s.dev.sccMs 31 24) = false → exec (.pickupExpiry k2) s = .next (s.on
           (s.dev)))) ∧
  (∀ (s : State),
     s.dev.asleep = false →
     s.dev.sccState = 1 →
     s.dev.due Tm.scc (s.dev.sccMs 31 24) = true →
     s.dev.prechargeMet = true →
       exec (.prechargeDone) s = .next (s.on (s.dev.k1On.sccSet 2))) ∧
  (∀ (s : State),
     s.dev.asleep = false →
     ¬ (s.dev.sccState = 1 ∧ s.dev.due Tm.scc (s.dev.sccMs 31 24) = true ∧ s.dev.prechargeMet = true) →
       exec (.prechargeDone) s = .next (s.on (s.dev))) ∧
  (∀ (s : State),
     s.dev.asleep = false →
     s.dev.sccState = 1 →
     s.dev.due Tm.scc (msT (s.dev.fld Reg.SCC_PCCFG 31 16)) = true →
       (s.dev.fld Reg.SCC_PCCFG 15 8 = 0 → exec (.prechargeTimeout) s = .next (s.on (s.dev.k1On.sccSet 2))) ∧
       (s.dev.fld Reg.SCC_PCCFG 15 8 ≠ 0 → exec (.prechargeTimeout) s = .next (s.on ((s.dev.k2Off.sccSet 0).sccNote
           8)))) ∧
  (∀ (s : State),
     s.dev.asleep = false →
     s.dev.sccState = 2 →
     s.dev.bit Reg.SCC_STAT 0 = true →
     s.dev.bit Reg.SCC_STAT 1 = false →
       exec (.closeConfirm) s = .next (s.on
           (({ s.dev.k2Off.sccSet 3 with scc := { (s.dev.k2Off.sccSet 3).scc with record := false } } : Dev).srcOchre
           11 false))) ∧
  (∀ (s : State),
     s.dev.asleep = false →
     ¬ (s.dev.sccState = 2 ∧ s.dev.bit Reg.SCC_STAT 0 = true ∧ s.dev.bit Reg.SCC_STAT 1 = false) →
       exec (.closeConfirm) s = .next (s.on (s.dev))) ∧
  (∀ (s : State),
     s.dev.asleep = false →
     s.dev.sccState = 2 →
     s.dev.due Tm.scc (s.dev.sccMs 15 8) = true →
       exec (.closeTimeout) s = .next (s.on ((s.dev.sccNote 6).openReq))) ∧
  (∀ (s : State),
     s.dev.asleep = false →
     ¬ (s.dev.sccState = 2 ∧ s.dev.due Tm.scc (s.dev.sccMs 15 8) = true) →
       exec (.closeTimeout) s = .next (s.on (s.dev))) ∧
  (∀ (s : State),
     s.dev.asleep = false →
     s.dev.sccState = 4 →
     s.dev.fbOpen = true →
       exec (.openConfirm) s = .next (s.on (s.dev.dropMeasure.sccSet 0))) ∧
  (∀ (s : State),
     s.dev.asleep = false →
     ¬ (s.dev.sccState = 4 ∧ s.dev.fbOpen = true) →
       exec (.openConfirm) s = .next (s.on (s.dev))) ∧
  (∀ (s : State),
     s.dev.asleep = false →
     s.dev.sccState = 4 ∨ (s.dev.sccState = 5 ∧ s.dev.scc.openCur.isSome = true ∧ s.dev.bit Reg.SCC_DIAG 7 = false) →
     s.dev.due s.dev.dropTm (s.dev.sccMs 23 16) = true →
     s.dev.paired = false ∨ s.dev.bit Reg.SCC_STAT 0 = false ∨ s.dev.scc.secondDrop = true →
       exec (.dropoutTimeout) s = .next (s.on (s.dev.dropMeasure.mirrorEnd.sccFail 7))) ∧
  (∀ (s : State),
     s.dev.asleep = false →
     ¬ ((s.dev.sccState = 4 ∨ (s.dev.sccState = 5 ∧ s.dev.scc.openCur.isSome = true ∧ s.dev.bit Reg.SCC_DIAG 7 =
         false)) ∧ s.dev.due s.dev.dropTm (s.dev.sccMs 23 16) = true ∧ (s.dev.paired = false ∨ s.dev.bit Reg.SCC_STAT
         0 = false ∨ s.dev.scc.secondDrop = true)) →
       exec (.dropoutTimeout) s = .next (s.on (s.dev))) ∧
  (∀ (s : State) (pulse : Option (Bool × Bool)) (rb : BitVec 6) (k2 high : Bool),
     s.dev.asleep = false →
     s.dev.scc.diagOff = false →
       (pulse = some (false, high) → s.dev.swDue false high = true → s.dev.sccState = 3 → s.dev.fld Reg.SCC_TEST 8 0 ≠
           0 → rb.getLsbD (b2n (!high)) = true → exec (.switchTest pulse rb) s = .next (s.on ((s.dev.start (Tm.swTest
           false high)).sccFail (if high = true then 0 else 1)))) ∧
       (pulse = some (false, high) → s.dev.swDue false high = true → s.dev.sccState = 3 → rb.getLsbD (b2n (!high)) =
           false → exec (.switchTest pulse rb) s = .next (s.on (s.dev.start (Tm.swTest false high)))) ∧
       (pulse = some (k2, high) → s.dev.swDue k2 high = true → s.dev.sccState = 0 → rb.getLsbD (2 * b2n k2 + b2n
           (!high)) = true → rb.getLsbD (2 * b2n k2 + b2n high) = false → exec (.switchTest pulse rb) s = .next (s.on
           (s.dev.start (Tm.swTest k2 high)))) ∧
       (pulse = some (k2, high) → s.dev.swDue k2 high = true → s.dev.sccState = 0 → rb.getLsbD (2 * b2n k2 + b2n
           (!high)) = false ∨ rb.getLsbD (2 * b2n k2 + b2n high) = true → exec (.switchTest pulse rb) s = .next (s.on
           ((s.dev.start (Tm.swTest k2 high)).sccFail 2))) ∧
       (pulse = some (k2, high) → s.dev.swDue k2 high = false → exec (.switchTest pulse rb) s = .next (s.on (s.dev)))
           ∧
       (pulse = none → s.dev.scc.k1 = Coil.off → s.dev.scc.k2 = Coil.off → exec (.switchTest pulse rb) s = .next (s.on
           (if rb.getLsbD 0 = false ∧ rb.getLsbD 1 = false ∧ rb.getLsbD 2 = false ∧ rb.getLsbD 3 = false then s.dev
           else s.dev.sccFail 2))) ∧
       (pulse = none → s.dev.scc.k1 = Coil.full → s.dev.scc.k2 = Coil.off → exec (.switchTest pulse rb) s = .next
           (s.on (if rb.getLsbD 0 = true ∧ rb.getLsbD 1 = true ∧ rb.getLsbD 2 = false ∧ rb.getLsbD 3 = false then
           s.dev else s.dev.sccFail 2))) ∧
       (pulse = none → s.dev.scc.k1 = Coil.hold → s.dev.scc.k2 = Coil.off → exec (.switchTest pulse rb) s = .next
           (s.on (if rb.getLsbD 0 = rb.getLsbD 4 ∧ rb.getLsbD 1 = true ∧ rb.getLsbD 2 = false ∧ rb.getLsbD 3 = false
           then s.dev else s.dev.sccFail 2)))) ∧
  (∀ (s : State) (pulse : Option (Bool × Bool)) (rb : BitVec 6) (k2 : Bool) (ma : BitVec 16),
     s.dev.asleep = false →
     s.dev.scc.diagOff = true →
       exec (.switchTest pulse rb) s = .next (s.on (s.dev)) ∧
       exec (.coilFault k2 ma) s = .next (s.on (s.dev.setFld Reg.SCC_ICOIL (if k2 = true then 31 else 15) (if k2 =
           true then 16 else 0) ma.toNat))) ∧
  (∀ (s : State) (ma : BitVec 16),
     s.dev.asleep = false →
     s.dev.scc.diagOff = false →
       (2500 < ma.toNat → s.dev.scc.k1 ≠ Coil.off → exec (.coilFault false ma) s = .next (s.on ((s.dev.setFld
           Reg.SCC_ICOIL 15 0 ma.toNat).sccFail 4))) ∧
       (ma.toNat < 50 → s.dev.scc.k1 ≠ Coil.off → s.dev.running Tm.pick1 = false → exec (.coilFault false ma) s =
           .next (s.on ((s.dev.setFld Reg.SCC_ICOIL 15 0 ma.toNat).sccFail 3))) ∧
       (50 ≤ ma.toNat → ma.toNat ≤ 2500 → exec (.coilFault false ma) s = .next (s.on (s.dev.setFld Reg.SCC_ICOIL 15 0
           ma.toNat))) ∧
       (2500 < ma.toNat → s.dev.scc.k2 ≠ Coil.off → exec (.coilFault true ma) s = .next (s.on ((s.dev.setFld
           Reg.SCC_ICOIL 31 16 ma.toNat).sccFail 4)))) ∧
  (∀ (s : State),
     s.dev.asleep = false →
     (s.dev.fbDisagree false = true ∧ s.dev.due (Tm.disc false) (s.dev.sccMs 7 0) = true) ∨ (s.dev.fbDisagree true =
         true ∧ s.dev.due (Tm.disc true) (s.dev.sccMs 7 0) = true) ∨ (s.dev.sccState = 3 ∧ s.dev.bit Reg.SCC_STAT 0 =
         false) →
       exec (.feedbackDiscrepancy) s = .next (s.on (((s.dev.stop (Tm.disc false)).stop (Tm.disc true)).sccFail 5))) ∧
  (∀ (s : State),
     s.dev.asleep = false →
     ¬ (((s.dev.fbDisagree false = true ∧ s.dev.due (Tm.disc false) (s.dev.sccMs 7 0) = true) ∨ (s.dev.fbDisagree true
         = true ∧ s.dev.due (Tm.disc true) (s.dev.sccMs 7 0) = true) ∨ (s.dev.sccState = 3 ∧ s.dev.bit Reg.SCC_STAT 0
         = false))) →
       exec (.feedbackDiscrepancy) s = .next (s.on (s.dev))) ∧
  (∀ (s : State),
     s.dev.asleep = false →
     s.dev.paired = true →
     s.dev.sccState = 4 ∨ s.dev.sccState = 5 →
     s.dev.scc.k1 = Coil.off →
     s.dev.scc.k2 = Coil.off →
     s.dev.bit Reg.SCC_STAT 0 = true →
     s.dev.due s.dev.dropTm (s.dev.sccMs 23 16) = true →
     s.dev.scc.secondDrop = false →
       exec (.killOutAssert) s = .next (s.on
           (({ (s.dev.setKillOut true).hw 0x2212 [] with scc := { ((s.dev.setKillOut true).hw 0x2212 []).scc with secondDrop := true } }
           : Dev).start Tm.scc))) ∧
  (∀ (s : State),
     s.dev.asleep = false →
     s.dev.paired = false ∨ s.dev.bit Reg.SCC_STAT 0 = false ∨ s.dev.scc.secondDrop = true →
       exec (.killOutAssert) s = .next (s.on (s.dev))) ∧
  (∀ (d : Dev),
       (d.sccState = 5 → d.scc.secondDrop = false → d.dropTm = Tm.drop1) ∧
       (d.sccState ≠ 5 ∨ d.scc.secondDrop = true → d.dropTm = Tm.scc)) ∧
  (∀ (s : State),
     s.dev.asleep = false →
     s.dev.scc.diagOff = true →
     s.dev.due Tm.diag (msT 10) = true →
       exec (.sccDiagnosticsResume) s = .next (s.on ([false, true].foldl (fun (d : Dev) k2 => (d.start (Tm.swTest k2
           true)).stop (Tm.swTest k2 false)) (({ s.dev with scc := { s.dev.scc with diagOff := false } } : Dev).stop
           Tm.diag)))) ∧
  (∀ (s : State),
     s.dev.asleep = false →
     ¬ (s.dev.scc.diagOff = true ∧ s.dev.due Tm.diag (msT 10) = true) →
       exec (.sccDiagnosticsResume) s = .next (s.on (s.dev)))

/-- A sinc3 sample of a valid channel leaves its fraction and calibrated value in SDM_FRAC and SDM_VAL; on an invalid
one the fourth healthy sample in a row makes it valid with entry 0x5011 and an earlier one only counts. A sinc2
sample leaves its fraction, and a debounced violation sets the comparator bit with entry 0x5020. A missing clock or
stuck data makes the channel invalid with entry 0x5010. SYNC restarts decimation. Samples of a channel that is
disabled or has no clock change nothing. -/
def Obligations.SigmaDeltaCommands : Prop :=
  (∀ (s : State) (n : BitVec 3) (out : BitVec 25),
     s.dev.asleep = false →
       (s.dev.sdmOn n.toNat = false ∨ s.dev.sdmClock n.toNat = false ∨ s.dev.fld (Reg.SDM_CFG n.toNat) 24 16 = 0 →
           exec (.sinc3Sample n out) s = .next (s.on (s.dev))) ∧
       (s.dev.sdmOn n.toNat = true → s.dev.sdmClock n.toNat = true → s.dev.fld (Reg.SDM_CFG n.toNat) 24 16 ≠ 0 →
           s.dev.sdmInv n.toNat = true → (s.dev.sdmCh n.toNat).good < 3 → exec (.sinc3Sample n out) s = .next (s.on
           (s.dev.setSdm n.toNat { s.dev.sdmCh n.toNat with good := (s.dev.sdmCh n.toNat).good + 1 }))) ∧
       (s.dev.sdmOn n.toNat = true → s.dev.sdmClock n.toNat = true → s.dev.fld (Reg.SDM_CFG n.toNat) 24 16 ≠ 0 →
           s.dev.sdmInv n.toNat = true → 3 ≤ (s.dev.sdmCh n.toNat).good → exec (.sinc3Sample n out) s = .next (s.on
           (((((s.dev.setSdm n.toNat { s.dev.sdmCh n.toNat with good := 0 }).setBit Reg.SDM_STAT n.toNat false).hw
           0x5011 [nw n.toNat]).start (Tm.sdm n.toNat)).estNocur.cond15))) ∧
       (s.dev.sdmOn n.toNat = true → s.dev.sdmClock n.toNat = true → s.dev.fld (Reg.SDM_CFG n.toNat) 24 16 ≠ 0 →
           s.dev.sdmInv n.toNat = false → exec (.sinc3Sample n out) s = .next (s.on (s.dev.sinc3 n.toNat out.toNat)))) ∧
  (∀ (s : State) (n : BitVec 3) (out : BitVec 11),
     s.dev.asleep = false →
       (s.dev.sdmOn n.toNat = false ∨ s.dev.sdmClock n.toNat = false ∨ s.dev.fld (Reg.SDM_CFG n.toNat) 15 10 = 0 ∨
           s.dev.sdmInv n.toNat = true → exec (.sinc2Sample n out) s = .next (s.on (s.dev)))) ∧
  (∀ (s : State) (n : BitVec 3) (out : BitVec 11) (f : Int) (e : Dev) (viol : Bool),
     s.dev.asleep = false →
     s.dev.sdmOn n.toNat = true →
     s.dev.fld (Reg.SDM_CFG n.toNat) 15 10 ≠ 0 →
     s.dev.sdmInv n.toNat = false ∧ s.dev.sdmClock n.toNat = true →
     fracOf out.toNat (s.dev.fld (Reg.SDM_CFG n.toNat) 15 10) 2 = f →
     s.dev.setFld (Reg.SDM_FRAC n.toNat) 31 16 (f % 65536).toNat = e →
     e.cmpViolates n.toNat f = viol →
       (viol = false → exec (.sinc2Sample n out) s = .next (s.on ((e.setSdm n.toNat
           { e.sdmCh n.toNat with count := 0, sampled := true }).cond15)))) ∧
  (∀ (s : State) (n : BitVec 3) (out : BitVec 11) (f : Int) (e g : Dev) (c : Nat),
     s.dev.asleep = false →
     s.dev.sdmOn n.toNat = true →
     s.dev.fld (Reg.SDM_CFG n.toNat) 15 10 ≠ 0 →
     s.dev.sdmInv n.toNat = false ∧ s.dev.sdmClock n.toNat = true →
     fracOf out.toNat (s.dev.fld (Reg.SDM_CFG n.toNat) 15 10) 2 = f →
     s.dev.setFld (Reg.SDM_FRAC n.toNat) 31 16 (f % 65536).toNat = e →
     e.cmpViolates n.toNat f = true →
     e.bit (Reg.SDM_CFG n.toNat) 4 = true →
     (e.sdmCh n.toNat).count = c →
     (e.setSdm n.toNat { e.sdmCh n.toNat with count := satN 16 (c + 1), sampled := true }).cond15 = g →
       (c < max 1 (g.fld (Reg.SDM_CFG n.toNat) 9 6) → satN 16 (c + 1) = max 1 (g.fld (Reg.SDM_CFG n.toNat) 9 6) →
           g.bit (Reg.SDM_CFG n.toNat) 3 = false → (g.flag Reg.SDM_STAT (16 + n.toNat)).bit (Reg.SDM_CFG n.toNat) 3 =
           false → (g.flag Reg.SDM_STAT (16 + n.toNat)).bit (Reg.SDM_CFG n.toNat) 2 = false → exec (.sinc2Sample n
           out) s = .next (s.on ((g.flag Reg.SDM_STAT (16 + n.toNat)).hw 0x5020 [nw n.toNat]))) ∧
       (satN 16 (c + 1) ≠ max 1 (g.fld (Reg.SDM_CFG n.toNat) 9 6) → exec (.sinc2Sample n out) s = .next (s.on (g)))) ∧
  (∀ (d : Dev) (n : Nat) (f : Int),
       d.cmpViolates n f = (decide (sx 16 (fieldOf (d.rd (Reg.SDM_CMP n)) 31 16) ≤ f) || decide (f ≤ sx 16 (fieldOf
           (d.rd (Reg.SDM_CMP n)) 15 0))) ∧
       d.cond15 = d.srcCond 15 ((List.range 6).any (fun n => d.bit (Reg.SDM_CFG n) 2 && (d.sdmInv n || ((d.sdmCh
           n).sampled && d.cmpViolates n (sx 16 (d.fld (Reg.SDM_FRAC n) 31 16))))))) ∧
  (∀ (s : State) (n : BitVec 3) (stuck : Bool),
     s.dev.asleep = false →
       (stuck = true → s.dev.fld Reg.SDM_INVCFG 11 0 = 0 → exec (.sdmInvalid n stuck) s = .next (s.on (s.dev))) ∧
       (stuck = false ∨ s.dev.fld Reg.SDM_INVCFG 11 0 ≠ 0 → exec (.sdmInvalid n stuck) s = .next (s.on
           (s.dev.sdmInvalid n.toNat)))) ∧
  (∀ (d : Dev) (n : Nat),
     n < 6 →
       ((d.setSdm n { d.sdmCh n with good := 0 }).sdmInv n = true → d.sdmInvalid n = d.setSdm n
           { d.sdmCh n with good := 0 }) ∧
       (∀ e : Dev, (d.setSdm n { d.sdmCh n with good := 0 }).sdmInv n = false → (((d.setSdm n
           { d.sdmCh n with good := 0 }).setBit Reg.SDM_STAT n true).hw 0x5010 [nw n]).estNocur.cond15 = e → e.bit
           (Reg.SDM_CFG n) 2 = false → d.sdmInvalid n = ((List.range 8).foldl (fun (d : Dev) s => if d.slotOn s &&
           d.slotFb s n then d.slotFault s else d) e).slotsNext)) ∧
  (∀ (s : State) (src : Writer) (v : Word) (d : Dev),
     s.dev.asleep = false →
     s.dev.takes src Reg.SDM_CTL = some d →
       exec (.sdmSync src v) s = .next (s.on (((List.range 6).foldl (fun (d : Dev) n => if d.sdmOn n then d else
           d.sdmInvalid n) (d.plainWrite Reg.SDM_CTL (withBit v 9 true))).sdmSync))) ∧
  (∀ (d : Dev),
       d.sdmSync = (List.range 6).foldl (fun (d : Dev) n => if d.sdmOn n then (d.setSdm n
           { d.sdmCh n with settle := 3 }).setBit Reg.SDM_STAT (8 + n) true else d) d)

/-- A trigger event of a slot is taken after the events before it, those of one tick in ascending order; the slow timer
triggers and restarts; a completed evaluation of a 2p2z or 3p3z slot clamps its output, moves its history one place
and drives its destination; a fault clears with entry 0x5003 once its cause is gone; CE_KICK triggers the slots with
TRIG 6 in ascending order; word 7 commits the staged descriptor; GO starts a test injection or is refused with
CE_STAT[30], STOP ends it; ARM starts a recording and FORCE triggers it. -/
def Obligations.CompensatorCommands : Prop :=
  (∀ (s : State) (sl : BitVec 3) (k : Nat),
     s.dev.asleep = false →
       (s.dev.ce.trig.findIdx? (fun e => e.slot == sl.toNat) = none → exec (.slotTrigger sl) s = .next (s.on (s.dev)))
           ∧
       (s.dev.ce.trig.findIdx? (fun e => e.slot == sl.toNat) = some k → exec (.slotTrigger sl) s = .next (s.on
           ((s.dev.ce.trig.take (k + 1)).foldl (fun (d : Dev) e => d.slotTrigger e.tick e.slot)
           { s.dev with ce := { s.dev.ce with trig := s.dev.ce.trig.drop (k + 1) } })))) ∧
  (∀ (t s : Nat) (l : List DueEval) (e : DueEval),
       dueIn t false s [] = [{ tick := t, late := false, slot := s }] ∧
       dueIn t true s (e :: l) = e :: dueIn t true s l ∧
       (e.late = false → e.tick = t → s < e.slot → dueIn t false s (e :: l) = { tick := t, late := false, slot := s }
           :: e :: l) ∧
       (e.tick ≠ t ∨ e.slot ≤ s → dueIn t false s (e :: l) = e :: dueIn t false s l)) ∧
  (∀ (d : Dev) (t s : Nat),
       (d.slotOn s = false ∨ d.slotF s 0 15 8 = 0 ∨ d.shedding = true → d.slotTrigger t s = d) ∧
       (d.slotOn s = true → d.shedding = false → (d.slot s).events + 1 < d.slotF s 0 15 8 → d.slotTrigger t s =
           d.setSlot s { d.slot s with events := (d.slot s).events + 1 })) ∧
  (∀ (s : State) (sl : BitVec 3),
     s.dev.asleep = false →
     s.dev.slotF sl.toNat 0 22 20 = 5 →
     s.dev.slotTper sl.toNat ≠ 0 →
     s.dev.slotTper sl.toNat ≤ (s.dev.tim.tb + 2 ^ 64 - (s.dev.slot sl.toNat).tbAt) % 2 ^ 64 →
       exec (.slowTimerExpiry sl) s = .next (s.on ((s.dev.setSlot sl.toNat
           { s.dev.slot sl.toNat with tbAt := s.dev.tim.tb }).slotTrigger s.dev.now sl.toNat))) ∧
  (∀ (s : State) (sl : BitVec 3),
     s.dev.asleep = false →
     ¬ (s.dev.slotF sl.toNat 0 22 20 = 5 ∧ s.dev.slotTper sl.toNat ≠ 0 ∧ s.dev.slotTper sl.toNat ≤ (s.dev.tim.tb + 2 ^
         64 - (s.dev.slot sl.toNat).tbAt) % 2 ^ 64) →
       exec (.slowTimerExpiry sl) s = .next (s.on (s.dev))) ∧
  (∀ (d : Dev) (s : Nat),
       ((d.slot s).stage = [] → d.slotTper s = fieldOf (d.slotW s 9) 23 0) ∧
       (∀ v, getO (d.slot s).stage 25 = some v → d.slotTper s = fieldOf v 23 0)) ∧
  (∀ (s : State) (sl : BitVec 3),
     s.dev.asleep = false →
     (s.dev.slotsNext.slot sl.toNat).running = false ∨ (s.dev.slotsNext.slot sl.toNat).waiting = true →
       exec (.slotComplete sl) s = .next (s.on (s.dev.slotsNext))) ∧
  (∀ (s : State) (sl : BitVec 3) (e : Dev) (raw : Int) (f : Bool),
     s.dev.asleep = false →
     s.dev.slotsNext = e →
     (e.slot sl.toNat).running = true →
     (e.slot sl.toNat).waiting = false →
     e.slotF sl.toNat 0 30 29 ≠ 2 →
     e.pzRaw sl.toNat (e.slot sl.toNat).e = (raw, f) →
       exec (.slotComplete sl) s =
             (let d := if f then e.flag Reg.CE_STAT 28 else e;
             let w := d.slotWriteOut sl.toNat raw;
             let a := (w.1.wr (Reg.CE_SLOT sl.toNat 14) (pack16 (d.slotQ sl.toNat 14 false) w.2)).wr (Reg.CE_SLOT sl.toNat 15) (pack16 (d.slotQ sl.toNat 15 false) (e.slot sl.toNat).e);
             .next (s.on (((a.setSlot sl.toNat { a.slot sl.toNat with e3 := d.slotQ sl.toNat 15 true, u3 := d.slotQ sl.toNat 14 true }).slotDest sl.toNat w.2).slotEnd sl.toNat)))) ∧
  (∀ (d : Dev) (s : Nat) (raw lo hi : Int),
     d.slotQ s 2 false = lo →
     d.slotQ s 2 true = hi →
     d.tinjTerm s 2 = 0 →
     lo ≤ hi →
       (lo ≤ raw → raw ≤ hi → (d.slotWriteOut s raw).2 = raw ∧ (d.slotWriteOut s raw).1 = d.wr (Reg.CE_SLOT s 12)
           (pack16 (d.slot s).e raw)) ∧
       (raw < lo → (d.slotWriteOut s raw).2 = lo) ∧
       (hi < raw → (d.slotWriteOut s raw).2 = hi)) ∧
  (∀ (s : State) (src : Writer) (v : Word) (d : Dev),
     s.dev.asleep = false →
     s.dev.takes src Reg.CE_FLTCLR = some d →
       exec (.slotFaultClear src v) s = .next (s.on (((List.range 8).foldl (fun (d : Dev) s => if bitOf v s &&
           d.slotFaulted s && !(d.slotF s 1 26 25 = 0 && d.sdmInv (d.slotF s 1 24 22)) then (((d.setBit Reg.CE_STAT s
           false).slotHistReset s).setFld (Reg.CE_SLOT s 13) 31 24 0).hw 0x5003 [nw s] else d) d).ochre10.cond10))) ∧
  (∀ (s : State) (src : Writer) (v : Word) (d : Dev),
     s.dev.asleep = false →
     s.dev.takes src Reg.CE_KICK = some d →
       exec (.ceKick src v) s = .next (s.on ((List.range 8).foldl (fun (d : Dev) s => if bitOf v s && d.slotF s 0 22
           20 = 6 then d.slotTrigger d.now s else d) d))) ∧
  (∀ (s : State) (src : Writer) (sl : BitVec 3) (v : Word) (d : Dev),
     s.dev.asleep = false →
     s.dev.takes src (Reg.CE_SLOT sl.toNat 7) = some d →
       exec (.slotDescriptorCommit src sl v) s =
             (let x := d.slot sl.toNat;
             let st := (List.range 16).foldl (fun l k => match getO x.stage k with | some u => putO (putO l (16 + k) (some u)) k none | none => l) x.stage;
             .next (s.on (d.setSlot sl.toNat { x with stage := putO st 23 (some (match findRow (Reg.CE_SLOT sl.toNat 7) with | some r => r.write false (d.rd (Reg.CE_SLOT sl.toNat 7)) v | none => d.rd (Reg.CE_SLOT sl.toNat 7))) })))) ∧
  (∀ (s : State) (src : Writer) (v : Word) (d e : Dev),
     s.dev.asleep = false →
     s.dev.takes src Reg.CE_TINJ = some d →
     d.plainWrite Reg.CE_TINJ (withBit v 31 true) = e →
       (bitOf (withBit v 31 true) 30 = false → fieldOf (withBit v 31 true) 15 0 = 0 → e.imp.inj = none → fieldOf
           (withBit v 31 true) 21 20 ≠ 3 → fieldOf (withBit v 31 true) 17 16 ≠ 3 → exec (.testInjectionGo src v) s =
           .next (s.on (e))) ∧
       (bitOf (withBit v 31 true) 30 = false → e.imp.inj ≠ none ∨ fieldOf (withBit v 31 true) 21 20 = 3 ∨ fieldOf
           (withBit v 31 true) 17 16 = 3 → exec (.testInjectionGo src v) s = .next (s.on (e.flag Reg.CE_STAT 30))) ∧
       (fieldOf (withBit v 31 true) 15 0 ≠ 0 → bitOf (withBit v 31 true) 30 = false → e.imp.inj = none → fieldOf
           (withBit v 31 true) 21 20 ≠ 3 → fieldOf (withBit v 31 true) 17 16 ≠ 3 → exec (.testInjectionGo src v) s =
             (let f := (Dev.setBit { e with ce := { e.ce with tPhase := 0, tEvals := 0 } } Reg.CE_TINJ 29 true).traceOn 5;
             .next (s.on (if f.bit Reg.PWM_STAT 0 || f.slotBlk (fieldOf (withBit v 31 true) 26 24) then f.tinjAbort else f))))) ∧
  (∀ (s : State) (src : Writer) (v : Word) (d : Dev),
     s.dev.asleep = false →
     s.dev.takes src Reg.CE_TINJ = some d →
       exec (.testInjectionStop src v) s = .next (s.on ((d.plainWrite Reg.CE_TINJ (withBit (withBit v 31 false) 30
           true)).tinjAbort))) ∧
  (∀ (s : State) (src : Writer) (v : Word) (d : Dev),
     s.dev.asleep = false →
     s.dev.takes src Reg.CE_TRCCTL = some d →
       (bitOf (withBit v 31 true) 30 = false → exec (.traceArm src v) s = .next (s.on
           ({ (d.plainWrite Reg.CE_TRCCTL (withField (withBit v 31 true) 12 0 (min 8191 (fieldOf (withBit v 31 true) 29 0)))).wr Reg.CE_TRCSTAT 0x80000000 with ce := { d.ce with trCount := 0, trIdx := 0, trLeft := 0, trPrev := none } })))) ∧
  (∀ (s : State) (src : Writer) (v : Word) (d : Dev),
     s.dev.asleep = false →
     s.dev.takes src Reg.CE_TRCCTL = some d →
       exec (.traceForce src v) s = .next (s.on ((d.plainWrite Reg.CE_TRCCTL (withField (withBit (withBit v 31 false)
           30 true) 12 0 (min 8191 (fieldOf (withBit (withBit v 31 false) 30 true) 29 0)))).traceTrigger)))

/-- A pair that starts a period loads its shadows, restarts its count and takes up its outputs when it is enabled,
unblocked and has a period; with both update points enabled the centre loads the shadows too. A PWM_PER outside
32,000 to 640,000 is stored as the nearer bound with entry 0x5040 and PWM_STAT[4]. CONV_FLT low blocks and latches
class 10 with entry 0x5030, its return releases; PWM_BLKCLR clears the direct block once the source condition of
class 15 has ended, else PWM_STAT[5]; SYNC restarts the pairs of phase 0. -/
def Obligations.PulseCommands : Prop :=
  (∀ (s : State) (p : BitVec 2) (t : Nat),
     s.dev.asleep = false →
       ((s.dev.pair p.toNat).wait = none → exec (.pwmPeriodStart p) s = .next (s.on (s.dev.pairStart p.toNat))) ∧
       ((s.dev.pair p.toNat).wait = some t → s.dev.now < t → exec (.pwmPeriodStart p) s = .next (s.on (s.dev))) ∧
       ((s.dev.pair p.toNat).wait = some t → t ≤ s.dev.now → exec (.pwmPeriodStart p) s = .next (s.on (s.dev.pairStart
           p.toNat)))) ∧
  (∀ (d : Dev) (p : Nat),
       d.pairStart p =
             (let e := d.pairLoad p;
             let o := d.pair p;
             let x := e.pair p;
             let r := pwmEdges (e.bit (Reg.PWM_CFG p) 0) x.per x.duty;
             let g := e.setPair p { x with cnt := 0, cntAt := e.now, live := x.per != 0 && e.bit Reg.PWM_CTL p && !e.bit Reg.PWM_STAT 0, rise := r.1, fall := r.2, riseAt := if o.live && o.fall = o.per && r.1 = 0 then edgeBack o.riseAt o.per else (r.1 : Int), fallAt := if !o.live then none else if o.rise < o.fall then some (edgeBack o.fall o.per) else o.fallAt.map (fun t => edgeBack t o.per), wait := none };
             if x.per = 0 then g else g.slotEvent 1 p)) ∧
  (∀ (per duty : Nat),
       pwmEdges false per duty = (0, min duty per) ∧
       pwmEdges true per duty = ((per - min duty per) / 2, (per + min duty per) / 2)) ∧
  (∀ (d : Dev) (p u : Nat),
     d.driversOn = false →
       d.pairHigh p u = false ∧
       d.pairLow p u = false) ∧
  (∀ (d : Dev) (p u : Nat),
     d.driversOn = true →
     (d.pair p).live = false →
       d.pairHigh p u = d.bit (Reg.PWM_CFG p) 3 ∧
       d.pairLow p u = d.bit (Reg.PWM_CFG p) 2) ∧
  (∀ (d : Dev) (p u : Nat) (x : PairSt),
     d.driversOn = true →
     d.pair p = x →
     x.live = true →
     x.riseAt = (x.rise : Int) →
     x.rise < x.fall →
     x.fallAt = none →
       (d.pairHigh p u = true ↔ x.rise + x.dt % 4096 ≤ u ∧ u < x.fall) ∧
       (d.pairLow p u = true ↔ x.fall + x.dt / 65536 % 4096 ≤ u)) ∧
  (∀ (d : Dev) (p : Nat),
       d.pairLoad p = d.setPair p
           { d.pair p with per := d.fld (Reg.PWM_PER p) 19 0, duty := d.fld (Reg.PWM_DUTY p) 19 0, dt := (d.rd (Reg.PWM_DT p)).toNat, ph := d.fld (Reg.PWM_PH p) 19 0 }) ∧
  (∀ (s : State) (p : BitVec 2),
     s.dev.asleep = false →
     (s.dev.pair p.toNat).per ≠ 0 →
     (s.dev.pair p.toNat).wait = none →
       (s.dev.bit (Reg.PWM_CFG p.toNat) 0 = true → s.dev.bit (Reg.PWM_CFG p.toNat) 1 = true → exec (.pwmPeriodCentre
           p) s =
             (let e := s.dev.pairLoad p.toNat;
             .next (s.on ((e.setPair p.toNat { e.pair p.toNat with fall := (pwmEdges true (e.pair p.toNat).per (e.pair p.toNat).duty).2 }).slotEvent 2 p.toNat)))) ∧
       (s.dev.bit (Reg.PWM_CFG p.toNat) 0 = false ∨ s.dev.bit (Reg.PWM_CFG p.toNat) 1 = false → exec (.pwmPeriodCentre
           p) s = .next (s.on (s.dev.slotEvent 2 p.toNat)))) ∧
  (∀ (s : State) (p : BitVec 2),
     s.dev.asleep = false →
     (s.dev.pair p.toNat).per = 0 ∨ (s.dev.pair p.toNat).wait ≠ none →
       exec (.pwmPeriodCentre p) s = .next (s.on (s.dev))) ∧
  (∀ (s : State) (src : Writer) (p : BitVec 2) (v : Word) (d : Dev),
     s.dev.asleep = false →
     s.dev.takes src (Reg.PWM_PER p.toNat) = some d →
       (fieldOf v 19 0 = 0 → exec (.pwmPerWrite src p v) s = .next (s.on (d.wr (Reg.PWM_PER p.toNat) 0))) ∧
       (32000 ≤ fieldOf v 19 0 → fieldOf v 19 0 ≤ 640000 → exec (.pwmPerWrite src p v) s = .next (s.on (d.wr
           (Reg.PWM_PER p.toNat) (nw (fieldOf v 19 0))))) ∧
       (0 < fieldOf v 19 0 → fieldOf v 19 0 < 32000 → exec (.pwmPerWrite src p v) s = .next (s.on (((d.wr (Reg.PWM_PER
           p.toNat) 32000).flag Reg.PWM_STAT 4).hw 0x5040 [nw p.toNat]))) ∧
       (640000 < fieldOf v 19 0 → exec (.pwmPerWrite src p v) s = .next (s.on (((d.wr (Reg.PWM_PER p.toNat)
           640000).flag Reg.PWM_STAT 4).hw 0x5040 [nw p.toNat])))) ∧
  (∀ (s : State) (src : Writer) (v : Word) (d : Dev),
     s.dev.asleep = false →
     s.dev.takes src Reg.PWM_CTL = some d →
       exec (.pwmSync src v) s = .next (s.on (d.pwmCtl (withBit v 8 true)))) ∧
  (∀ (d : Dev) (v : Word) (e : Dev),
     bitOf v 8 = true →
     d.fld Reg.PWM_CTL 3 0 = 0 →
     (d.plainWrite Reg.PWM_CTL v).updateBlk = e →
       d.pwmCtl v = (List.range 4).foldl (fun (d : Dev) p => d.pairSync p) e.slotsNext) ∧
  (∀ (d : Dev) (p ph : Nat),
     d.fld (Reg.PWM_PH p) 19 0 % max 1 (d.fld (Reg.PWM_PER p) 19 0) = ph →
       (ph = 0 → d.pairSync p = d.pairStart p) ∧
       (ph ≠ 0 → d.pairSync p = d.setPair p { d.pair p with wait := some (d.now + ceilDiv (10 * ph) 512) })) ∧
  (∀ (s : State) (fr : Bool),
     s.dev.asleep = false →
       (s.dev.pins.convFltLow = true → exec (.convFltFall fr) s = .next (s.on (s.dev))) ∧
       (s.dev.pins.convFltLow = false → fr = true → exec (.convFltFall fr) s = .next (s.on
           (({ s.dev with pins := { s.dev.pins with convFltLow := true } } : Dev).updateBlk.cond10))) ∧
       (s.dev.pins.convFltLow = false → fr = false → exec (.convFltFall fr) s = .next (s.on
           (((({ s.dev with pins := { s.dev.pins with convFltLow := true } } : Dev).updateBlk.cond10).hw 0x5030
           []).crim 10)))) ∧
  (∀ (s : State),
     s.dev.asleep = false →
       exec (.convFltRise) s = .next (s.on (({ s.dev with pins := { s.dev.pins with convFltLow := false } } :
           Dev).updateBlk.cond10))) ∧
  (∀ (s : State) (src : Writer) (v : Word) (d : Dev),
     s.dev.asleep = false →
     s.dev.takes src Reg.PWM_BLKCLR = some d →
       (bitOf v 0 = false → exec (.pwmBlockClear src v) s = .next (s.on (d))) ∧
       (bitOf v 0 = true → getB d.lim.cond 15 = true → exec (.pwmBlockClear src v) s = .next (s.on (d.flag
           Reg.PWM_STAT 5))) ∧
       (bitOf v 0 = true → getB d.lim.cond 15 = false → exec (.pwmBlockClear src v) s = .next (s.on ((d.setBit
           Reg.PWM_STAT 1 false).updateBlk))))

/-- At basic level, on a duty or alone module with its parameters set, each newly published sweep adds to the charge and
energy throughput, runs the estimator once unless EST is claimed (every cell, the ends and rests, results,
publication), and then the profile, the balancing targets and the derated limits. The correction runs after CORINT.
A write of EST_PUB copies the SoP registers to the outputs, derated while LIM_ACT.EST is 1, and zero for a zero
EST_PUBTO; the publication timeout zeroes them with entry 0x3051. TSTARVE without a rest point sets STARVED with
entry 0x3033. -/
def Obligations.EstimatorCommands : Prop :=
  (∀ (s : State),
     s.dev.asleep = false →
     s.dev.pwr.full = false ∨ s.dev.leads = false ∨ s.dev.bit Reg.PWR_STAT 6 = true ∨ (s.dev.rd Reg.SWP_COUNT).toNat =
         s.dev.est.lastCount →
       exec (.estimatorRun) s = .next (s.on (s.dev))) ∧
  (∀ (s : State),
     s.dev.asleep = false →
     s.dev.pwr.full = false ∨ s.dev.leads = false ∨ s.dev.manages estBlock = false ∨ s.dev.estReady = false ∨ s.dev.pv
         Par.CORINT = 0 ∨ s.dev.now < s.dev.est.corTick + secT (s.dev.pv Par.CORINT) →
       exec (.correction) s = .next (s.on (s.dev))) ∧
  (∀ (s : State) (e : Dev),
     s.dev.asleep = false →
     s.dev.pwr.full = true →
     s.dev.leads = true →
     s.dev.bit Reg.PWR_STAT 6 = false →
     (s.dev.rd Reg.SWP_COUNT).toNat ≠ s.dev.est.lastCount →
     ({ s.dev with est := { s.dev.est with lastCount := (s.dev.rd Reg.SWP_COUNT).toNat } } : Dev).thruAdd = e →
       (s.dev.manages estBlock = true → e.estReady = true → exec (.estimatorRun) s = .next (s.on
           (e.estBasic.profTick.balFromSoc.deratedLimits.rotStart))) ∧
       (s.dev.manages estBlock = false ∨ e.estReady = false → exec (.estimatorRun) s = .next (s.on
           (e.profTick.balFromSoc.deratedLimits.rotStart)))) ∧
  (∀ (d : Dev),
       d.thruAdd = (let dq : Int := (match d.est.thruQ with | some p => d.qlat1 - p | none => 0);
             { d with est := { d.est with thruQ := some d.qlat1, qThru := d.est.qThru + dq.natAbs, eThru := d.est.eThru + (dq * d.swp.vstr / 1000000).natAbs } })) ∧
  (∀ (d : Dev) (q dq ns i : Int) (tick : Nat),
     d.qlat1 = q →
     d.swp.lastIssue.getD d.now = tick →
     (match d.est.lastQ with | some p => q - p | none => 0) = dq →
     (match d.est.lastQ with | some _ => 8 * ((tick - d.est.lastTick : Nat) : Int) | none => 0) = ns →
     d.rdI Reg.EST_ILAT1 = i →
       d.estBasic = (((((d.estTake q tick i).cellsSweep dq ns i).gapTake.histAdd.ends).rests dq
           ns).rotRequest.results).estPub) ∧
  (∀ (d : Dev) (q i : Int) (tick : Nat),
       (d.estTake q tick i).est =
           { d.est with lastQ := some q, lastTick := tick, corAbs := d.est.corAbs + i.natAbs, corN := d.est.corN + 1 }
           ∧
       (d.estTake q tick i).freeCount = d.freeCount + 1 ∧
       d.gapTake.est = { d.est with gap := d.bit Reg.EST_STAT 0 }) ∧
  (∀ (s : State) (calm : Bool),
     s.dev.asleep = false →
     s.dev.pwr.full = true →
     s.dev.leads = true →
     s.dev.manages estBlock = true →
     s.dev.estReady = true →
     s.dev.pv Par.CORINT ≠ 0 →
     s.dev.est.corTick + secT (s.dev.pv Par.CORINT) ≤ s.dev.now →
     (decide (s.dev.est.corAbs * 360 ≤ s.dev.est.corN * s.dev.pv Par.ICORMAX * s.dev.pv Par.QNOM) && s.dev.est.corN !=
         0 && s.dev.pv Par.ICORMAX != 0) = calm →
       exec .correction s =
             (let f := s.dev.known.foldl (fun (d : Dev) e =>
               let b := d.branchOf e.2;
               let t := (d.cellTemp e.1).1;
               let o := d.ocvInv e.1 b (quotR e.2.sum e.2.n) t;
               let g := d.ocvSlope e.1 b o.1 t;
               let y := if calm && e.2.allOk && e.2.n != 0 then (if o.2 || g ≤ 0 || decide (g < (d.pv Par.SLOPEMIN : Int)) then e.2 else e.2.correct o.1 (sigmaOf (d.pv Par.VSIGL) g)) else e.2;
               d.setCell e.1 { y with sum := 0, n := 0, allOk := true }) s.dev;
             .next (s.on { f with est := { f.est with corTick := f.now, corAbs := 0, corN := 0 } }))) ∧
  (∀ (s : State) (src : Writer) (d : Dev),
     s.dev.asleep = false →
     s.dev.takes src Reg.EST_PUB = some d →
       (d.fld Reg.EST_PUBTO 15 0 = 0 → exec (.estPub src) s = .next (s.on (((((d.outZero).setBit Reg.EST_STAT 3 (d.act
           6)).setBit Reg.EST_STAT 2 false).start Tm.pub).reform))) ∧
       (d.fld Reg.EST_PUBTO 15 0 ≠ 0 → exec (.estPub src) s = .next (s.on
           (((({ d with est := { d.est with pubd := [d.rd Reg.EST_SOPCH, d.rd Reg.EST_SOPDIS, d.rd Reg.EST_SOPPCH, d.rd Reg.EST_SOPPDIS] } }
           : Dev).outForm.setBit Reg.EST_STAT 2 false).start Tm.pub).reform)))) ∧
  (∀ (d : Dev) (a b c e : Word) (f : Word → Word),
     d.est.pubd = [a, b, c, e] →
       (d.act 6 = false → d.outForm = ((((d.wr Reg.EST_OUTCH a).wr Reg.EST_OUTDIS b).wr Reg.EST_OUTPCH c).wr
           Reg.EST_OUTPDIS e).setBit Reg.EST_STAT 3 false) ∧
       (d.act 6 = true → (∀ w, f w = nw (w.toNat * d.fld Reg.EST_DERATE 7 0 / 256)) → d.outForm = ((((d.wr
           Reg.EST_OUTCH (f a)).wr Reg.EST_OUTDIS (f b)).wr Reg.EST_OUTPCH (f c)).wr Reg.EST_OUTPDIS (f e)).setBit
           Reg.EST_STAT 3 true)) ∧
  (∀ (d : Dev),
     d.est.pubd = [] →
       d.outForm = d) ∧
  (∀ (s : State),
     s.dev.asleep = false →
     s.dev.fld Reg.EST_PUBTO 15 0 ≠ 0 →
     s.dev.bit Reg.EST_STAT 2 = false →
     s.dev.due Tm.pub (msT (s.dev.fld Reg.EST_PUBTO 15 0)) = true →
       exec (.publicationTimeout) s = .next (s.on (((s.dev.outZero.setBit Reg.EST_STAT 2 true).hw 0x3051 []).reform))) ∧
  (∀ (s : State),
     s.dev.asleep = false →
     ¬ (s.dev.fld Reg.EST_PUBTO 15 0 ≠ 0 ∧ s.dev.bit Reg.EST_STAT 2 = false ∧ s.dev.due Tm.pub (msT (s.dev.fld
         Reg.EST_PUBTO 15 0)) = true) →
       exec (.publicationTimeout) s = .next (s.on (s.dev))) ∧
  (∀ (s : State),
     s.dev.asleep = false →
     s.dev.pwr.full = true →
     s.dev.leads = true →
     s.dev.manages estBlock = true →
     s.dev.bit Reg.EST_CTL 1 = false →
     s.dev.pv Par.TSTARVE ≠ 0 →
     s.dev.bit Reg.EST_FLAGS 6 = false →
     s.dev.est.expired = true ∨ s.dev.est.qualAt + 3600 * s.dev.pv Par.TSTARVE ≤ s.dev.opSec →
       exec (.restStarvation) s = .next (s.on
           ((({ s.dev with est := { s.dev.est with starvedAt := some s.dev.opSec, asked := false, retryAt := none } }
           : Dev).sysSetFld Reg.EST_FLAGS 6 6 1).fw 0x3033 []))) ∧
  (∀ (s : State),
     s.dev.asleep = false →
     s.dev.bit Reg.EST_FLAGS 6 = true ∨ s.dev.pv Par.TSTARVE = 0 →
       exec (.restStarvation) s = .next (s.on (s.dev))) ∧
  (∀ (d : Dev),
       d.outZero = (((({ d with est := { d.est with pubd := [] } } : Dev).wr Reg.EST_OUTCH 0).wr Reg.EST_OUTDIS 0).wr
           Reg.EST_OUTPCH 0).wr Reg.EST_OUTPDIS 0)

/-- The parts of an injection follow one another: the ramp up, the periods, the ramp down, off. The bins take a
published sweep once; CLRALL starts every bin anew, and a write of a word of a bin below word 3 does so for that bin
while it is in use. New results are collected and fitted, and the inner temperatures judged, at basic level only,
and the day's factors enter the history at the first idle window after 24 h. -/
def Obligations.ImpedanceCommands : Prop :=
  (∀ (s : State) (i : Inj),
     s.dev.asleep = false →
     s.dev.imp.inj = some i →
       (i.part = InjPart.up → s.dev.due Tm.inj (msT (s.dev.fld Reg.IMP_INJRAMP 15 0)) = true → exec
           (.injectionPhaseEnd) s = .next (s.on (s.dev.injPart i InjPart.flat))) ∧
       (i.part = InjPart.up → s.dev.due Tm.inj (msT (s.dev.fld Reg.IMP_INJRAMP 15 0)) = false → exec
           (.injectionPhaseEnd) s = .next (s.on (s.dev))) ∧
       (i.part = InjPart.down → s.dev.due Tm.inj (msT (s.dev.fld Reg.IMP_INJRAMP 15 0)) = true → exec
           (.injectionPhaseEnd) s = .next (s.on (s.dev.injOff))) ∧
       (i.part = InjPart.flat → s.dev.fld (Reg.IMP_INJ i.desc 1) 15 0 * waveLen (s.dev.fld (Reg.IMP_INJ i.desc 0) 27
           26) * s.dev.injDiv i.desc * 2 ^ 32 ≤ s.dev.injNum i - i.flatNum → s.dev.fld Reg.IMP_INJRAMP 15 0 ≠ 0 → exec
           (.injectionPhaseEnd) s = .next (s.on ((s.dev.injPart i InjPart.down).injDiscard i.desc))) ∧
       (i.part = InjPart.flat → s.dev.fld (Reg.IMP_INJ i.desc 1) 15 0 * waveLen (s.dev.fld (Reg.IMP_INJ i.desc 0) 27
           26) * s.dev.injDiv i.desc * 2 ^ 32 ≤ s.dev.injNum i - i.flatNum → s.dev.fld Reg.IMP_INJRAMP 15 0 = 0 → exec
           (.injectionPhaseEnd) s = .next (s.on (((s.dev.injPart i InjPart.down).injDiscard i.desc).injOff)))) ∧
  (∀ (s : State),
     s.dev.asleep = false →
     s.dev.imp.inj = none →
       exec (.injectionPhaseEnd) s = .next (s.on (s.dev))) ∧
  (∀ (s : State),
     s.dev.asleep = false →
     s.dev.imp.pub = none →
       exec (.binAccumulate) s = .next (s.on (s.dev))) ∧
  (∀ (s : State) (i : Int) (nc : Bool) (buf : Nat) (e : Dev),
     s.dev.asleep = false →
     s.dev.imp.pub = some (i, nc, buf) →
     { s.dev with imp := { s.dev.imp with pub := none } } = e →
       (e.shedding = true → exec (.binAccumulate) s = .next (s.on (e))) ∧
       (e.shedding = false → exec (.binAccumulate) s = .next (s.on ((List.range 16).foldl (fun (d : Dev) b =>
           d.binTake b i nc buf) (e.setBit Reg.IMP_STAT 4 nc).ripRefresh)))) ∧
  (∀ (s : State) (src : Writer) (v : Word) (d : Dev),
     s.dev.asleep = false →
     s.dev.takes src Reg.IMP_CTL = some d →
       (bitOf (withBit v 2 true) 1 = true → exec (.impClearAll src v) s = .next (s.on ((List.range 16).foldl (fun (d :
           Dev) b => d.binZero b) (d.plainWrite Reg.IMP_CTL (withBit v 2 true))))) ∧
       (bitOf (withBit v 2 true) 1 = false → exec (.impClearAll src v) s = .next (s.on (((List.range 16).foldl (fun (d
           : Dev) b => d.binZero b) (d.plainWrite Reg.IMP_CTL (withBit v 2 true))).injAbort)))) ∧
  (∀ (s : State) (src : Writer) (b : BitVec 4) (w : BitVec 2) (v : Word) (d e : Dev),
     s.dev.asleep = false →
     s.dev.takes src (Reg.IMP_BIN b.toNat w.toNat) = some d →
     d.plainWrite (Reg.IMP_BIN b.toNat w.toNat) v = e →
       (w.toNat < 3 → d.bit (Reg.IMP_BIN b.toNat 0) 31 = true ∨ e.bit (Reg.IMP_BIN b.toNat 0) 31 = true → exec
           (.binDescriptorWrite src b w v) s = .next (s.on ((e.binZero b.toNat).ripRefresh))) ∧
       (w.toNat = 3 ∨ (d.bit (Reg.IMP_BIN b.toNat 0) 31 = false ∧ e.bit (Reg.IMP_BIN b.toNat 0) 31 = false) → exec
           (.binDescriptorWrite src b w v) s = .next (s.on (e.ripRefresh)))) ∧
  (∀ (s : State),
     s.dev.asleep = false →
     s.dev.pwr.full = false ∨ s.dev.manages (blockOf Reg.IMP_CTL) = false →
       exec (.modelFit) s = .next (s.on (s.dev))) ∧
  (∀ (s : State),
     s.dev.asleep = false →
     s.dev.pwr.full = true →
     s.dev.manages (blockOf Reg.IMP_CTL) = true →
     s.dev.fld Reg.IMP_DONE 15 0 = 0 →
       exec (.modelFit) s = .next (s.on ((s.dev.known.foldl (fun (d : Dev) e => d.inferCell e.1 e.2)
           s.dev).innerOchre))) ∧
  (∀ (s : State) (a b c : Dev),
     s.dev.asleep = false →
     s.dev.pwr.full = true →
     s.dev.manages (blockOf Reg.IMP_CTL) = true →
     s.dev.fld Reg.IMP_DONE 15 0 ≠ 0 →
     (List.range 16).foldl (fun (d : Dev) n => d.impCollect n) s.dev = a →
     a.known.foldl (fun (d : Dev) e => d.fitCell e.1 e.2) a = b →
     b.known.foldl (fun (d : Dev) e => d.inferCell e.1 e.2) b = c →
       exec (.modelFit) s = .next (s.on (c.innerOchre))) ∧
  (∀ (s : State),
     s.dev.asleep = false →
     s.dev.pwr.full = false ∨ s.dev.bit Reg.TT_STAT 5 = false ∨ s.dev.opSec < s.dev.est.dayAt + 86400 ∨ s.dev.manages
         (blockOf Reg.IMP_CTL) = false →
       exec (.ageingDaily) s = .next (s.on (s.dev))) ∧
  (∀ (s : State),
     s.dev.asleep = false →
     s.dev.pwr.full = true →
     s.dev.bit Reg.TT_STAT 5 = true →
     s.dev.est.dayAt + 86400 ≤ s.dev.opSec →
     s.dev.manages (blockOf Reg.IMP_CTL) = true →
       exec .ageingDaily s =
             (let m (f : List (Int × Int)) (g : Int × Int → Int) : Nat := (clampI 0 65535 (medianI (f.map g))).toNat;
             let l := s.dev.est.dayF.foldl (fun l e => match e.2 with | some f => putO l (64 * e.1 + s.dev.est.day % 64) (some (nw (m f (fun p => p.2) * 65536 + m f (fun p => p.1)))) | none => l) (s.dev.est.daily.filter (fun e => e.1 % 64 != s.dev.est.day % 64));
             .next (s.on { s.dev with est := { s.dev.est with daily := l, day := s.dev.est.day + 1, dayAt := s.dev.opSec, dayF := [] }, imp := { s.dev.imp with implausible := [] } })))

/-- Words 1 to 3 of a mailbox slot are staged; word 0 commits them with VALID and restarts the mailbox timer, or is
stored; a shade takes none. The reference moves toward I_t by at most DSP_SLEW each microsecond, DSP_ROTSLEW in
RAMPDOWN and RETURN, and at once for a zero rate; a program that has claimed CE keeps it. DSP_MBTO without a commit
sets MBTO with entry 0x6004. PGO starts the local profile while SRC is 1 and steps are there, and a slot applies
when its time has come. -/
def Obligations.DispatchCommands : Prop :=
  (∀ (s : State) (src : Writer) (m w : BitVec 2) (v : Word) (d : Dev),
     s.dev.asleep = false →
     s.dev.takes src (Reg.DSP_MB m.toNat w.toNat) = some d →
       (d.role = 2 → exec (.mailboxWordWrite src m w v) s = .next (s.on (d))) ∧
       (d.role ≠ 2 → w ≠ 0 → exec (.mailboxWordWrite src m w v) s = .next (s.on
           ({ d with dsp := { d.dsp with stage := putO d.dsp.stage (4 * m.toNat + w.toNat) (some v) } }))) ∧
       (d.role ≠ 2 → w = 0 → bitOf v 31 = true → exec (.mailboxWordWrite src m w v) s = .next (s.on (d.mbCommit
           m.toNat v))) ∧
       (d.role ≠ 2 → w = 0 → bitOf v 31 = false → exec (.mailboxWordWrite src m w v) s = .next (s.on (d.plainWrite
           (Reg.DSP_MB m.toNat 0) v)))) ∧
  (∀ (s : State) (src : Writer) (m : BitVec 2) (v : Word) (d : Dev),
     s.dev.asleep = false →
     s.dev.takes src (Reg.DSP_MB m.toNat 0) = some d →
       (d.role = 2 → exec (.mailboxCommit src m v) s = .next (s.on (d))) ∧
       (d.role ≠ 2 → bitOf v 31 = true → exec (.mailboxCommit src m v) s = .next (s.on (d.mbCommit m.toNat v))) ∧
       (d.role ≠ 2 → bitOf v 31 = false → exec (.mailboxCommit src m v) s = .next (s.on (d.plainWrite (Reg.DSP_MB
           m.toNat 0) v)))) ∧
  (∀ (d : Dev) (m : Nat) (v : Word) (st : Nat → Word) (a b : Dev),
     bitOf (d.mbW m 0) 31 = false →
     (fun w => (getO d.dsp.stage (4 * m + w)).getD (d.mbW m w)) = st →
     (List.range 4).foldl (fun (d : Dev) w => d.wr (Reg.DSP_MB m w) (([v &&& 0xE000FFFF, st 1, st 2, st 3 &&&
         0x3FFFFFFF][w]?).getD 0)) d = a →
     Dev.start (Dev.setBit
         { a with dsp := { a.dsp with stage := (List.range 4).foldl (fun l w => putO l (4 * m + w) none) a.dsp.stage, tfull := putN a.dsp.tfull m (a.fullSec (a.mbW m 2)) } }
         Reg.DSP_STAT 4 false) Tm.mailbox = b →
     b.hasShade = false →
       d.mbCommit m v =
             (match b.mbCheck m (fieldOf v 28 24 != 0 || fieldOf (st 3) 31 30 != 0) with
             | some c => b.mbReject m c
             | none => b).reform) ∧
  (∀ (d : Dev) (m : Nat),
       (bitOf (d.mbW m 0) 31 = false → d.mbApply m = d) ∧
       (bitOf (d.mbW m 0) 31 = true → bitOf (d.mbW m 0) 29 = true → d.localNs < d.mbTime m → d.mbApply m = d) ∧
       (bitOf (d.mbW m 0) 31 = true → bitOf (d.mbW m 0) 29 = true → d.mbTime m ≤ d.localNs → d.bit Reg.TIM_STAT 0 =
           false → d.mbApply m = d.mbReject m 4)) ∧
  (∀ (s : State) (e f : Dev),
     s.dev.asleep = false →
     (if s.dev.manages (blockOf Reg.CE_CTL) = false then s.dev else (s.dev.wr Reg.CE_DSPREF (iw
         s.dev.slewNext)).slewing) = e →
     (if e.dspBasic = true ∧ e.rotState = 2 ∧ e.rd Reg.CE_DSPREF = 0 then e.rotSet 3 0 else e) = f →
       exec (.referenceSlew) s = .next (s.on (f.rotReturn))) ∧
  (∀ (d : Dev) (r cur t : Int),
     (d.fld (if d.rotState = 2 || d.rotState = 4 then Reg.DSP_ROTSLEW else Reg.DSP_SLEW) 23 0 : Int) = r →
     d.rdI Reg.CE_DSPREF = cur →
     d.rdI Reg.DSP_TARGET = t →
       (r = 0 → d.slewNext = t) ∧
       (r ≠ 0 → (t - cur).natAbs ≤ r → d.slewNext = t) ∧
       (r ≠ 0 → r < t - cur → d.slewNext = cur + r) ∧
       (r ≠ 0 → r < cur - t → d.slewNext = cur - r)) ∧
  (∀ (s : State),
     s.dev.asleep = false →
     s.dev.fld Reg.DSP_MBTO 15 0 ≠ 0 →
     s.dev.bit Reg.DSP_STAT 4 = false →
     s.dev.due Tm.mailbox (msT (s.dev.fld Reg.DSP_MBTO 15 0)) = true →
       exec (.mailboxTimeout) s = .next (s.on (((s.dev.flag Reg.DSP_STAT 4).hw 0x6004 []).reform))) ∧
  (∀ (s : State),
     s.dev.asleep = false →
     ¬ (s.dev.fld Reg.DSP_MBTO 15 0 ≠ 0 ∧ s.dev.bit Reg.DSP_STAT 4 = false ∧ s.dev.due Tm.mailbox (msT (s.dev.fld
         Reg.DSP_MBTO 15 0)) = true) →
       exec (.mailboxTimeout) s = .next (s.on (s.dev))) ∧
  (∀ (s : State) (src : Writer) (v : Word) (d e : Dev),
     s.dev.asleep = false →
     s.dev.takes src Reg.DSP_CTL = some d →
     (d.plainWrite Reg.DSP_CTL (withBit v 1 true)).reform.cond10 = e →
       (bitOf (withBit v 1 true) 2 = false → exec (.profileGo src v) s = .next (s.on
           ({ e with dsp := { e.dsp with running := false } }))) ∧
       (bitOf (withBit v 1 true) 2 = true → e.dspBasic = false ∨ e.dsp.steps = [] → exec (.profileGo src v) s = .next
           (s.on (e))) ∧
       (bitOf (withBit v 1 true) 2 = true → e.dspBasic = true → e.dsp.steps ≠ [] → exec (.profileGo src v) s =
             (let f := if e.bit Reg.EST_CTL 1 then e.gradeBegin else e;
             .next (s.on (Dev.profEnter { f with dsp := { f.dsp with running := true, loops := [] } } 20000 0)))))

/-- A plant message to another address, or at expert level, changes nothing; one with a higher epoch makes entry 0x6005;
a SETPOINT of the module is handled once, refused with result 8 at NOREMOTE, else committed to its slot with STATUS
after it; STATUS goes out every STPER; COMMAND 1 clears classes unless LIM is claimed; a reply with the RID asked
for grants, refuses or cancels a rotation; ROTREQ repeats every 10 s, DSP_ROTTO without a reply ends the request,
and the window's end returns. A waiting Storeroom write begins at once for hold-up and transport, else 10 s after
the last; the interval asks for one. A transport request opens and waits; the first start after transport returns to
service with WAKE_CHG, else to Standby. -/
def Obligations.PlantCommands : Prop :=
  (∀ (d : Dev) (id : BitVec 29) (port : BitVec 16) (ty adr dir ver : Byte) (type len : Nat) (l : List Byte),
       (d.plantTo (.can id) type len l = true ↔ (d.dspBasic = true ∧ l.length = len ∧ d.canProfile = true ∧ d.canLive
           0 = true ∧ id.toNat = d.pv Par.CANBASE % 32 * 2 ^ 24 + type * 2 ^ 16 + d.pv Par.STRADR * 2 ^ 8)) ∧
       (d.plantTo (.udp port ty adr dir ver) type len l = true ↔ (d.dspBasic = true ∧ l.length = len ∧ port.toNat =
           d.pv Par.UDPPORT ∧ ty.toNat = type ∧ adr.toNat = d.pv Par.STRADR ∧ dir = 0 ∧ ver = 1))) ∧
  (∀ (d : Dev) (id : BitVec 29) (port : BitVec 16) (ty adr dir ver : Byte),
       d.plantRead (.udp port ty adr dir ver) = d ∧
       (d.canProfile = true → d.bit (Reg.CAN_OBJ 0 0 3) 31 = true → d.plantRead (.can id) = d.canRdsel 0 0) ∧
       (d.canProfile = false ∨ d.bit (Reg.CAN_OBJ 0 0 3) 31 = false → d.plantRead (.can id) = d)) ∧
  (∀ (s : State) (h : PlantHead) (l : List Byte) (e : Dev),
     s.dev.asleep = false →
     s.dev.plantRead h = e →
       (e.plantTo h 0x10 20 l = false → exec (.setpoint h l) s = .next (s.on (e))) ∧
       (e.plantTo h 0x10 20 l = true → (e.rd Reg.TW_EPOCH).toNat < plantEpoch l → e.leads = false → exec (.setpoint h
           l) s = .next (s.on (e.plantHigh (plantEpoch l)))) ∧
       (e.plantTo h 0x10 20 l = true → (e.rd Reg.TW_EPOCH).toNat < plantEpoch l → e.leads = true → exec (.setpoint h
           l) s = .next (s.on
           ((({ e with dsp := { e.dsp with hseq := leNat (slice l 4 2), hslot := none, lastRes := 5 } } :
           Dev).statusSend).plantHigh (plantEpoch l)))) ∧
       (e.plantTo h 0x10 20 l = true → plantEpoch l ≤ (e.rd Reg.TW_EPOCH).toNat → e.leads = true → e.bit Reg.DSP_CTL 2
           = false → e.dsp.lastSeq = some (leNat (slice l 4 2)) → exec (.setpoint h l) s = .next (s.on
           (e.statusSend))) ∧
       (e.plantTo h 0x10 20 l = true → plantEpoch l ≤ (e.rd Reg.TW_EPOCH).toNat → e.leads = true → e.bit Reg.DSP_CTL 2
           = true → exec (.setpoint h l) s = .next (s.on
           (({ e with dsp := { e.dsp with hseq := leNat (slice l 4 2), hslot := none, lastRes := 8 } } :
           Dev).statusSend))) ∧
       (e.plantTo h 0x10 20 l = true → plantEpoch l ≤ (e.rd Reg.TW_EPOCH).toNat → e.leads = true → e.bit Reg.DSP_CTL 2
           = false → e.dsp.lastSeq ≠ some (leNat (slice l 4 2)) → exec (.setpoint h l) s =
             (let m := leNat (slice l 7 1) % 4;
             let a := ((e.mbWrite m 1 (leWord l 8)).mbWrite m 2 (leWord l 12)).mbWrite m 3 (leWord l 16);
             let b : Dev := { a with dsp := { a.dsp with lastSeq := some (leNat (slice l 4 2)), hseq := leNat (slice l 4 2), hslot := some m } };
             let w0 := 2 ^ 31 + (leNat (slice l 6 1) % 2) * 2 ^ 30 + (leNat (slice l 6 1) / 2 % 2) * 2 ^ 29 + b2n (leNat (slice l 6 1) / 4 != 0 || leNat (slice l 7 1) / 4 != 0) * 2 ^ 24 + leNat (slice l 4 2);
             .next (s.on (b.mbWrite m 0 (nw w0)).statusSend)))) ∧
  (∀ (s : State),
     s.dev.asleep = false →
     s.dev.dspBasic = true →
     s.dev.leads = true →
       (s.dev.running Tm.status = false ∨ s.dev.due Tm.status (msT (s.dev.pv Par.STPER)) = true → exec (.statusSend) s
           = .next (s.on ((s.dev.plantSend 0x11 s.dev.statusBytes).start Tm.status)))) ∧
  (∀ (s : State),
     s.dev.asleep = false →
     s.dev.dspBasic = false →
       exec (.statusSend) s = .next (s.on (s.dev)) ∧
       exec (.rotreqRepeat) s = .next (s.on (s.dev)) ∧
       exec (.rotationReplyTimeout) s = .next (s.on (s.dev)) ∧
       exec (.restWindowEnd) s = .next (s.on (s.dev))) ∧
  (∀ (s : State) (h : PlantHead) (l : List Byte) (e : Dev),
     s.dev.asleep = false →
     s.dev.plantRead h = e →
       (e.plantTo h 0x30 8 l = false ∨ leNat (slice l 4 1) ≠ 1 → exec (.commandClearTrips h l) s = .next (s.on (e))) ∧
       (e.plantTo h 0x30 8 l = false ∨ leNat (slice l 4 1) ≠ 2 → exec (.commandTransport h l) s = .next (s.on (e))) ∧
       (e.plantTo h 0x30 8 l = true → leNat (slice l 4 1) = 1 → (e.rd Reg.TW_EPOCH).toNat < plantEpoch l → exec
           (.commandClearTrips h l) s = .next (s.on (e.plantHigh (plantEpoch l)))) ∧
       (e.plantTo h 0x30 8 l = true → leNat (slice l 4 1) = 2 → (e.rd Reg.TW_EPOCH).toNat < plantEpoch l → exec
           (.commandTransport h l) s = .next (s.on (e.plantHigh (plantEpoch l)))) ∧
       (e.plantTo h 0x30 8 l = true → leNat (slice l 4 1) = 1 → plantEpoch l ≤ (e.rd Reg.TW_EPOCH).toNat → e.leads =
           false → exec (.commandClearTrips h l) s = .next (s.on (e))) ∧
       (e.plantTo h 0x30 8 l = true → leNat (slice l 4 1) = 1 → plantEpoch l ≤ (e.rd Reg.TW_EPOCH).toNat → e.leads =
           true → e.claimed 10 = true → exec (.commandClearTrips h l) s = .next (s.on (e.discard Reg.LIM_TRIPCLR))) ∧
       (e.plantTo h 0x30 8 l = true → leNat (slice l 4 1) = 1 → plantEpoch l ≤ (e.rd Reg.TW_EPOCH).toNat → e.leads =
           true → e.claimed 10 = false → exec (.commandClearTrips h l) s = .next (s.on (e.tripClear (nw (leNat (slice
           l 6 2)))))) ∧
       (e.plantTo h 0x30 8 l = true → leNat (slice l 4 1) = 2 → plantEpoch l ≤ (e.rd Reg.TW_EPOCH).toNat → exec
           (.commandTransport h l) s = .next (s.on (e.transReq)))) ∧
  (∀ (s : State) (h : PlantHead) (l : List Byte) (e : Dev),
     s.dev.asleep = false →
     s.dev.plantRead h = e →
       (e.plantTo h 0x21 8 l = false → exec (.rotreply h l) s = .next (s.on (e))) ∧
       (e.plantTo h 0x21 8 l = true → (e.rd Reg.TW_EPOCH).toNat < plantEpoch l → exec (.rotreply h l) s = .next (s.on
           (e.plantHigh (plantEpoch l)))) ∧
       (e.plantTo h 0x21 8 l = true → plantEpoch l ≤ (e.rd Reg.TW_EPOCH).toNat → leNat (slice l 4 2) ≠ e.dsp.rid →
           exec (.rotreply h l) s = .next (s.on (e))) ∧
       (e.plantTo h 0x21 8 l = true → plantEpoch l ≤ (e.rd Reg.TW_EPOCH).toNat → leNat (slice l 4 2) = e.dsp.rid →
           e.dspBasic = true → e.leads = true → e.rotState = 1 → leNat (slice l 6 1) = 1 → exec (.rotreply h l) s =
           .next (s.on (((e.fw 0x6010 []).rotSet 2 0).start Tm.rotWin))) ∧
       (e.plantTo h 0x21 8 l = true → plantEpoch l ≤ (e.rd Reg.TW_EPOCH).toNat → leNat (slice l 4 2) = e.dsp.rid →
           e.dspBasic = true → e.leads = true → e.rotState = 1 → leNat (slice l 6 1) = 2 → exec (.rotreply h l) s =
           .next (s.on (((e.fw 0x6011 [nw 1]).rotIdle 1).rotStart))) ∧
       (e.plantTo h 0x21 8 l = true → plantEpoch l ≤ (e.rd Reg.TW_EPOCH).toNat → leNat (slice l 4 2) = e.dsp.rid →
           e.dspBasic = true → e.leads = true → e.rotState = 3 → leNat (slice l 6 1) = 3 → exec (.rotreply h l) s =
           .next (s.on (((e.fw 0x6012 [nw 3]).rotSet 4 3).rotReturn)))) ∧
  (∀ (s : State),
     s.dev.asleep = false →
     s.dev.dspBasic = true →
     s.dev.leads = true →
     s.dev.rotState = 1 →
     s.dev.due Tm.rotReq (secT 10) = true →
       exec (.rotreqRepeat) s = .next (s.on (s.dev.rotAsk.rotStart))) ∧
  (∀ (s : State),
     s.dev.asleep = false →
     ¬ (s.dev.dspBasic = true ∧ s.dev.leads = true ∧ s.dev.rotState = 1 ∧ s.dev.due Tm.rotReq (secT 10) = true) →
       exec (.rotreqRepeat) s = .next (s.on (s.dev))) ∧
  (∀ (s : State),
     s.dev.asleep = false →
     s.dev.dspBasic = true →
     s.dev.leads = true →
     s.dev.rotState = 1 →
     s.dev.due Tm.rotWin (secT (s.dev.fld Reg.DSP_ROTTO 15 0)) = true →
       exec (.rotationReplyTimeout) s = .next (s.on (((s.dev.fw 0x6011 [nw 2]).rotIdle 2).rotStart))) ∧
  (∀ (s : State),
     s.dev.asleep = false →
     ¬ (s.dev.dspBasic = true ∧ s.dev.leads = true ∧ s.dev.rotState = 1 ∧ s.dev.due Tm.rotWin (secT (s.dev.fld
         Reg.DSP_ROTTO 15 0)) = true) →
       exec (.rotationReplyTimeout) s = .next (s.on (s.dev))) ∧
  (∀ (s : State),
     s.dev.asleep = false →
     s.dev.dspBasic = true →
     s.dev.rotState = 3 →
     s.dev.due Tm.rotWin (secT (s.dev.pv Par.TRELAX + 300)) = true →
       exec (.restWindowEnd) s = .next (s.on ((s.dev.rotSet 4 0).rotReturn))) ∧
  (∀ (s : State),
     s.dev.asleep = false →
     ¬ (s.dev.dspBasic = true ∧ s.dev.rotState = 3 ∧ s.dev.due Tm.rotWin (secT (s.dev.pv Par.TRELAX + 300)) = true) →
       exec (.restWindowEnd) s = .next (s.on (s.dev))) ∧
  (∀ (s : State),
     s.dev.asleep = false →
     s.dev.est.reasons = [] ∨ s.dev.leads = false ∨ s.dev.pwr.full = false →
       exec (.storeroomWrite) s = .next (s.on (s.dev))) ∧
  (∀ (s : State),
     s.dev.asleep = false →
     s.dev.stoBusy = true →
       exec (.storeroomWrite) s = .next (s.on (s.dev))) ∧
  (∀ (s : State) (r f : Nat) (t : List Nat),
     s.dev.asleep = false →
     s.dev.est.reasons = r :: t →
     s.dev.leads = true →
     s.dev.pwr.full = true →
     s.dev.stoBusy = false →
       ((r :: t).find? (fun x => x = 5 || x = 6) = some f → exec (.storeroomWrite) s = .next (s.on (s.dev.stoWrite
           f))) ∧
       ((r :: t).find? (fun x => x = 5 || x = 6) = none → s.dev.est.wroteAt = none → exec (.storeroomWrite) s = .next
           (s.on (s.dev.stoWrite r)))) ∧
  (∀ (s : State),
     s.dev.asleep = false →
     s.dev.pwr.full = true →
     s.dev.leads = true →
     s.dev.pv Par.STOINT ≠ 0 →
     (s.dev.est.wroteAt.getD 0) + 1000 * s.dev.pv Par.STOINT ≤ s.dev.opMs →
     s.dev.est.reasons.contains 1 = false →
       exec (.storeroomInterval) s = .next (s.on
           ({ s.dev with est := { s.dev.est with reasons := s.dev.est.reasons ++ [1] } }))) ∧
  (∀ (s : State),
     s.dev.asleep = false →
       (s.dev.leads = false ∨ s.dev.pwr.full = false → exec (.transportRequest) s = .next (s.on (s.dev))) ∧
       (s.dev.leads = true → s.dev.pwr.full = true → s.dev.est.trPhase = 1 ∨ s.dev.est.trPhase = 2 → exec
           (.transportRequest) s = .next (s.on (s.dev.transStep))) ∧
       (s.dev.leads = true → s.dev.pwr.full = true → s.dev.est.trPhase ≠ 1 → s.dev.est.trPhase ≠ 2 → exec
           (.transportRequest) s = .next (s.on ((((s.dev.sccCmd false 2).setTr 1).start Tm.trans).transStep)))) ∧
  (∀ (d e : Dev),
     d.transOpen = e →
       (d.est.trPhase = 1 → d.sccState = 0 → e.est.trPhase = 2 → e.stoDone = true → d.transStep = e.transEnter) ∧
       (d.est.trPhase = 1 → d.sccState = 0 → e.est.trPhase = 2 → e.stoDone = false → d.transStep = e) ∧
       (d.est.trPhase = 1 → d.sccState ≠ 0 → d.due Tm.trans (d.sccMs 23 16 + msT 100) = true → d.transStep = (d.setTr
           0).fw 0x3042 []) ∧
       (d.est.trPhase = 1 → d.sccState ≠ 0 → d.due Tm.trans (d.sccMs 23 16 + msT 100) = false → d.transStep = d) ∧
       (d.est.trPhase = 2 → d.stoDone = true → d.transStep = d.transEnter) ∧
       (d.est.trPhase = 2 → d.stoDone = false → d.transStep = d)) ∧
  (∀ (s : State) (ret : Bool),
     s.dev.asleep = false →
       (s.dev.est.transport = false ∨ s.dev.pwr.full = false → exec (.transportExit ret) s = .next (s.on (s.dev))) ∧
       (s.dev.est.transport = true → s.dev.pwr.full = true → s.dev.pins.wakeChg = false → exec (.transportExit ret) s
           = .next (s.on (s.dev.standby 6))) ∧
       (s.dev.est.transport = true → s.dev.pwr.full = true → s.dev.pins.wakeChg = true → exec (.transportExit ret) s =
             (let k := quotR (s.dev.pv Par.SDRATE * ((s.dev.opSec - s.dev.est.trAt : Nat) : Int) * one30) (1000000 * 86400);
             let cells := Store.mapKeep (fun _ => none) (fun _ (c : Option CellSt) => c.map (fun x => { x with z := x.z - k, sz := x.sz + k })) s.dev.est.cells;
             let e : Dev := { s.dev with est := { s.dev.est with cells := cells, transport := false } };
             .next (s.on (((e.stoAsk stoExit).stoService.wakeSend ret).fw 0x3041 [])))))

/-- A feed takes a temperature channel or refuses the write; a tachometer edge leaves the speed of its period; an output
whose speed stays low for its stall time sets its bit with entry 0x7010. A servo period comes every MOT_SERVO and
moves every axis unless frozen, and lets firmware home the next one; a step pulse moves by 2^k units when its timer
has run, the goal allows it and the travel budget holds it, with STEP high for (1+k) or 2 microseconds, DIR first
taking the level of the direction and STEP waiting for its lead; an actuator's reply with the right sequence is
taken, with its fault. A target is clamped once homed, and not taken from the program while a slot names the axis.
MOT_CMD homes, stops, clears and declares an axis from the states Table 11.1 names. -/
def Obligations.MotionCommands : Prop :=
  (∀ (s : State) (src : Writer) (n : BitVec 2) (v : Word) (d : Dev),
     s.dev.asleep = false →
     s.dev.takes src (Reg.MOT_TFDCFG n.toNat) = some d →
       (bitOf v 31 = true → isTemp (fieldOf v 10 0) = false → exec (.feedConfigWrite src n v) s = .next (s.on (d))) ∧
       (bitOf v 31 = false ∨ isTemp (fieldOf v 10 0) = true → exec (.feedConfigWrite src n v) s = .next (s.on
           (d.plainWrite (Reg.MOT_TFDCFG n.toNat) v)))) ∧
  (∀ (s : State) (f : BitVec 2),
     s.dev.asleep = false →
       (s.dev.fld (Reg.MOT_FANCFG f.toNat) 27 24 = 0 ∨ s.dev.running (Tm.tach f.toNat) = false ∨ s.dev.since (Tm.tach
           f.toNat) / 125 = 0 → exec (.tachEdge f) s = .next (s.on (s.dev.start (Tm.tach f.toNat))))) ∧
  (∀ (s : State) (f : BitVec 2) (q p : Nat) (e : Dev),
     s.dev.asleep = false →
     s.dev.fld (Reg.MOT_FANCFG f.toNat) 27 24 = q →
     q ≠ 0 →
     s.dev.running (Tm.tach f.toNat) = true →
     s.dev.since (Tm.tach f.toNat) / 125 = p →
     p ≠ 0 →
     ((s.dev.start (Tm.tach f.toNat)).setFld (Reg.MOT_FANRPM f.toNat) 15 0 (satN 65535 (60000000 / (p * q)))).fanWatch
         f.toNat = e →
       (e.bit Reg.MOT_STAT (16 + f.toNat) = true → e.fld (Reg.MOT_FANSUP f.toNat) 31 16 ≤ satN 65535 (60000000 / (p *
           q)) → exec (.tachEdge f) s = .next (s.on ((e.setBit Reg.MOT_STAT (16 + f.toNat) false).hw 0x7011 [nw
           f.toNat]))) ∧
       (e.bit Reg.MOT_STAT (16 + f.toNat) = false ∨ satN 65535 (60000000 / (p * q)) < e.fld (Reg.MOT_FANSUP f.toNat)
           31 16 → exec (.tachEdge f) s = .next (s.on (e)))) ∧
  (∀ (s : State) (f : BitVec 2) (e : Dev) (t low : Nat),
     s.dev.asleep = false →
     s.dev.fanWatch f.toNat = e →
     msT (e.fld (Reg.MOT_FANSUP f.toNat) 15 0) = t →
     (if e.running (Tm.tach f.toNat) = true ∧ e.fld (Reg.MOT_FANSUP f.toNat) 31 16 ≤ e.fld (Reg.MOT_FANRPM f.toNat) 15
         0 then e.since (Tm.tach f.toNat) - secT 1 else e.since (Tm.slow f.toNat)) = low →
       (e.fld (Reg.MOT_FANCFG f.toNat) 27 24 ≠ 0 → t ≠ 0 → e.running (Tm.slow f.toNat) = true → t ≤ low → e.bit
           Reg.MOT_STAT (16 + f.toNat) = false → exec (.fanStall f) s = .next (s.on ((e.setBit Reg.MOT_STAT (16 +
           f.toNat) true).hw 0x7010 [nw f.toNat]))) ∧
       (e.fld (Reg.MOT_FANCFG f.toNat) 27 24 = 0 ∨ t = 0 ∨ e.running (Tm.slow f.toNat) = false ∨ low < t ∨ e.bit
           Reg.MOT_STAT (16 + f.toNat) = true → exec (.fanStall f) s = .next (s.on (e)))) ∧
  (∀ (s : State),
     s.dev.asleep = false →
     s.dev.bit Reg.MOT_CTL 0 = true →
     s.dev.shedding = false →
     s.dev.fld Reg.MOT_SERVO 23 0 ≠ 0 →
     s.dev.running Tm.servo = false ∨ s.dev.due Tm.servo (usT (s.dev.fld Reg.MOT_SERVO 23 0)) = true →
       exec (.servoPeriod) s = .next (s.on (((List.range 4).foldl (fun d a => d.servoAxis a) (s.dev.start
           Tm.servo)).homeNext))) ∧
  (∀ (s : State),
     s.dev.asleep = false →
     ¬ (s.dev.bit Reg.MOT_CTL 0 = true ∧ s.dev.shedding = false ∧ s.dev.fld Reg.MOT_SERVO 23 0 ≠ 0 ∧ (s.dev.running
         Tm.servo = false ∨ s.dev.due Tm.servo (usT (s.dev.fld Reg.MOT_SERVO 23 0)) = true)) →
       exec (.servoPeriod) s = .next (s.on (s.dev))) ∧
  (∀ (d : Dev) (a : Nat),
       (d.axMoving a = false → d.bit (Reg.MOT_CFG a) 30 = false → d.servoAxis a = d) ∧
       (∀ e : Dev, d.axMoving a = true → (d.servoSpeed a).limitCheck a = e → e.axMoving a = true → d.bit (Reg.MOT_CFG
           a) 30 = false → (((e.dirTurn a).stepTimer a).axis a).v ≠ 0 → d.servoAxis a = (e.dirTurn a).stepTimer a)) ∧
  (∀ (s : State) (a : BitVec 2),
     s.dev.asleep = false →
     s.dev.bit Reg.MOT_CTL 0 = false ∨ s.dev.shedding = true ∨ s.dev.axMoving a.toNat = false ∨ s.dev.bit (Reg.MOT_CFG
         a.toNat) 30 = true ∨ (s.dev.axis a.toNat).v = 0 ∨ s.dev.fld Reg.MOT_SRMAX 17 0 = 0 ∨ s.dev.fld Reg.MOT_SERVO
         23 0 = 0 ∨ s.dev.dirLead a.toNat = true ∨ (s.dev.axis a.toNat).stepDue = none →
       exec (.stepPulse a) s = .next (s.on (s.dev))) ∧
  (∀ (s : State) (a : BitVec 2) (q : Nat),
     s.dev.asleep = false →
     (s.dev.axis a.toNat).stepDue = some q →
     2 * s.dev.now < q →
       exec (.stepPulse a) s = .next (s.on (s.dev))) ∧
  (∀ (s : State) (a : BitVec 2) (q k l : Nat) (e f : Dev),
     s.dev.asleep = false →
     s.dev.bit Reg.MOT_CTL 0 = true →
     s.dev.shedding = false →
     s.dev.axMoving a.toNat = true →
     s.dev.bit (Reg.MOT_CFG a.toNat) 30 = false →
     (s.dev.axis a.toNat).v ≠ 0 →
     s.dev.fld Reg.MOT_SRMAX 17 0 ≠ 0 →
     s.dev.fld Reg.MOT_SERVO 23 0 ≠ 0 →
     (s.dev.axis a.toNat).stepDue = some q →
     q ≤ 2 * s.dev.now →
     s.dev.dirLead a.toNat = false →
     s.dev.limitCheck a.toNat = e →
     e.axMoving a.toNat = true →
     (e.axis a.toNat).v ≠ 0 →
     e.stepExp a.toNat = k →
     (e.setFld (Reg.MOT_ST a.toNat) 27 25 k).stepReload a.toNat q = f →
       (f.stepMay a.toNat k = false → exec (.stepPulse a) s = .next (s.on (f))) ∧
       (f.stepMay a.toNat k = true → f.axBudget a.toNat = none → exec (.stepPulse a) s = .next (s.on (f.stepMove
           a.toNat k (if (f.axis a.toNat).v > 0 then ((2 ^ k : Nat) : Int) else -((2 ^ k : Nat) : Int))))) ∧
       (f.stepMay a.toNat k = true → f.axBudget a.toNat = some l → 2 ^ k ≤ l → exec (.stepPulse a) s = .next (s.on
           (f.stepMove a.toNat k (if (f.axis a.toNat).v > 0 then ((2 ^ k : Nat) : Int) else -((2 ^ k : Nat) : Int)))))
           ∧
       (f.stepMay a.toNat k = true → f.axBudget a.toNat = some l → l < 2 ^ k → exec (.stepPulse a) s = .next (s.on
           ((f.axOver a.toNat).homeNext)))) ∧
  (∀ (d : Dev) (a : Nat) (x : AxisSt) (w : Bool),
     d.axis a = x →
     (decide (x.v > 0) != d.bit (Reg.MOT_CFG a) 28) = w →
       (x.v = 0 ∨ x.dir = w → d.dirTurn a = d) ∧
       (x.v ≠ 0 → x.dir ≠ w → d.dirTurn a = d.setAxis a { x with dir := w, dirAt := some d.now })) ∧
  (∀ (d : Dev) (a k : Nat) (n : Int) (e : Dev),
     d.axMove a n = e →
       (e.axPos a = d.axPos a → d.stepMove a k n = e) ∧
       (e.axPos a ≠ d.axPos a → e.bit (Reg.MOT_CFG a) 29 = true → d.stepMove a k n = e.setAxis a
           { e.axis a with stepAt := some (e.now, usT (1 + k)) }) ∧
       (e.axPos a ≠ d.axPos a → e.bit (Reg.MOT_CFG a) 29 = false → d.stepMove a k n = e.setAxis a
           { e.axis a with stepAt := some (e.now, usT 2) })) ∧
  (∀ (d : Dev) (a : Nat),
       (d.leads = false → d.axPins a = none) ∧
       (d.leads = true → d.axPins a = some ((d.axis a).stepAt.any (fun p => decide (d.now < p.1 + p.2)), (d.axis
           a).dir, d.axState a != 0 && d.axState a != 4 && !d.mot.enLow && !d.pwr.rstHeld))) ∧
  (∀ (s : State) (a : BitVec 2) (q fl : Byte),
     s.dev.asleep = false →
     s.dev.axMode1 a.toNat = false ∨ s.dev.canLive 1 = false →
       exec (.actuatorReply a q fl) s = .next (s.on (s.dev.homeNext))) ∧
  (∀ (s : State) (a : BitVec 2) (q fl : Byte) (e : Dev) (x : AxisSt),
     s.dev.asleep = false →
     s.dev.axMode1 a.toNat = true →
     s.dev.canLive 1 = true →
     s.dev.canTaken 1 (121 + 2 * a.toNat) = e →
     e.axis a.toNat = x →
       (q.toNat ≠ x.seq → exec (.actuatorReply a q fl) s = .next (s.on (e.homeNext))) ∧
       (q.toNat = x.seq → fl.toNat % 2 = 0 → x.homeSw = true ∨ fl.toNat / 2 % 2 = 0 ∨ e.fld (Reg.MOT_CFG a.toNat) 4 0
           ≠ 30 → exec (.actuatorReply a q fl) s = .next (s.on ((e.setAxis a.toNat
           { x with replied := true, missed := 0, actOk := true, homeSw := decide (fl.toNat / 2 % 2 = 1) }).homeNext)))
           ∧
       (q.toNat = x.seq → fl.toNat % 2 = 0 → x.homeSw = false → fl.toNat / 2 % 2 = 1 → e.fld (Reg.MOT_CFG a.toNat) 4 0
           = 30 → exec (.actuatorReply a q fl) s = .next (s.on (((e.setAxis a.toNat
           { x with replied := true, missed := 0, actOk := true, homeSw := true }).homeEdge a.toNat).homeNext))) ∧
       (q.toNat = x.seq → fl.toNat % 2 = 1 → e.axState a.toNat ≠ 4 → e.axState a.toNat ≠ 0 → exec (.actuatorReply a q
           fl) s = .next (s.on (((e.setAxis a.toNat
           { x with replied := true, missed := 0, actOk := false, homeSw := decide (fl.toNat / 2 % 2 = 1) }).axFault
           a.toNat 6 (e.bit (Reg.MOT_CFG a.toNat) 27)).homeNext)))) ∧
  (∀ (s : State) (src : Writer) (a : BitVec 2) (v : Word) (d : Dev),
     s.dev.asleep = false →
     s.dev.takes src (Reg.MOT_TGT a.toNat) = some d →
       (src = Writer.program → d.slotNames 2 a.toNat = true → exec (.targetWrite src a v) s = .next (s.on (d))) ∧
       (src ≠ Writer.program ∨ d.slotNames 2 a.toNat = false → exec (.targetWrite src a v) s = .next (s.on (d.axTarget
           a.toNat v.toInt)))) ∧
  (∀ (d : Dev) (a : Nat) (t : Int),
       (d.axState a ≠ 2 → d.axState a ≠ 3 → d.axState a ≠ 1 → d.axTarget a t = (d.setBit (Reg.MOT_ST a) 24 false).wr
           (Reg.MOT_TGT a) (iw t)) ∧
       (d.axState a = 2 → d.axTarget a t = d.setBit (Reg.MOT_ST a) 24 false) ∧
       (∀ c : Int, ∀ e : Dev, d.axState a = 3 → clampI (d.rdI (Reg.MOT_VLIMLO a)) (d.rdI (Reg.MOT_VLIMHI a)) t = c →
           (d.setBit (Reg.MOT_ST a) 24 (c != t)).wr (Reg.MOT_TGT a) (iw c) = e → d.axTarget a t = if c = e.axPos a ∧
           (e.axis a).v = 0 then e.axBusy a false else (e.axBusy a true).limitCheck a)) ∧
  (∀ (s : State) (src : Writer) (a : BitVec 2) (d : Dev),
     s.dev.asleep = false →
     s.dev.takes src (Reg.MOT_CMD a.toNat) = some d →
       (d.axState a.toNat ≠ 1 → d.axState a.toNat ≠ 3 → exec (.home src a) s = .next (s.on (d))) ∧
       (d.axState a.toNat = 1 ∨ d.axState a.toNat = 3 → d.rd (Reg.MOT_TRAV a.toNat) = 0 → exec (.home src a) s = .next
           (s.on (((d.setFld (Reg.MOT_ST a.toNat) 3 0 4).flag Reg.MOT_STAT (12 + a.toNat)).hw 0x7004 [nw a.toNat]))) ∧
       (d.axState a.toNat = 1 ∨ d.axState a.toNat = 3 → d.rd (Reg.MOT_TRAV a.toNat) ≠ 0 → exec (.home src a) s =
             (let e := d.axSet a.toNat 2;
             .next (s.on (((e.setAxis a.toNat { e.axis a.toNat with used := 0, home := .first (e.bit (Reg.MOT_CFG a.toNat) 27) false }).axBusy a.toNat true).limitCheck a.toNat))))) ∧
  (∀ (s : State) (src : Writer) (a : BitVec 2) (d e : Dev),
     s.dev.asleep = false →
     s.dev.takes src (Reg.MOT_CMD a.toNat) = some d →
     (if d.axState a.toNat = 2 then d.axSet a.toNat 1 else d) = e →
       (e.axMoving a.toNat = false → exec (.stopAxis src a) s = .next (s.on (e.homeNext))) ∧
       (e.axMoving a.toNat = true → (e.axis a.toNat).v ≠ 0 → ((e.setAxis a.toNat
           { e.axis a.toNat with home := .stopping }).axis a.toNat).v = (e.axis a.toNat).v → exec (.stopAxis src a) s
           = .next (s.on ((e.setAxis a.toNat { e.axis a.toNat with home := .stopping }).homeNext)))) ∧
  (∀ (s : State) (src : Writer) (a : BitVec 2) (d : Dev),
     s.dev.asleep = false →
     s.dev.takes src (Reg.MOT_CMD a.toNat) = some d →
       (d.axState a.toNat = 4 → d.axCauseGone a.toNat = true → exec (.clearFault src a) s = .next (s.on ((d.axSet
           a.toNat 1).setFld (Reg.MOT_ST a.toNat) 3 0 0))) ∧
       (d.axState a.toNat ≠ 4 ∨ d.axCauseGone a.toNat = false → exec (.clearFault src a) s = .next (s.on (d)))) ∧
  (∀ (s : State) (src : Writer) (a : BitVec 2) (d : Dev),
     s.dev.asleep = false →
     s.dev.takes src (Reg.MOT_CMD a.toNat) = some d →
       (d.axState a.toNat ≠ 1 → exec (.declareHomed src a) s = .next (s.on (d))) ∧
       (d.axState a.toNat = 1 → exec (.declareHomed src a) s =
             (let e := ((d.wr (Reg.MOT_POS a.toNat) (d.rd (Reg.MOT_HOFS a.toNat))).axHalt a.toNat).axSet a.toNat 3;
             .next (s.on (e.setAxis a.toNat { e.axis a.toNat with used := 0, home := .none })))))

/-- With SRC 1 a program-cycle start fires as the time base reaches a multiple of CYC_PERIOD; a start is skipped and
counted in SWITCH, nothing outside RUN, missed while a cycle runs, and else accepted by a leading module. Once copy
and input forces are complete, execution begins, or IMAGE goes to an in-step shade. START loads the data sections
and places the pair at START of the image; STOP goes to STOPPED; CLRLR clears the live-read registers. Words 0, 2
and 3 of a force entry are staged, word 1 commits them and counts. The switch moves the carried symbols and places
the pair at CHANGE. -/
def Obligations.CyclicCommands : Prop :=
  (∀ (s : State),
     s.dev.asleep = false →
     s.dev.bit Reg.CYC_CTL 3 = true →
     s.dev.fld Reg.CYC_PERIOD 19 0 ≠ 0 →
     s.dev.tim.tb % s.dev.fld Reg.CYC_PERIOD 19 0 = 0 →
     s.dev.tim.tbFrac < s.dev.timEff →
       exec (.cyclePeriodStart) s = .next (s.on (s.dev.cycleStart))) ∧
  (∀ (s : State),
     s.dev.asleep = false →
     ¬ (s.dev.bit Reg.CYC_CTL 3 = true ∧ s.dev.fld Reg.CYC_PERIOD 19 0 ≠ 0 ∧ s.dev.tim.tb % s.dev.fld Reg.CYC_PERIOD
         19 0 = 0 ∧ s.dev.tim.tbFrac < s.dev.timEff) →
       exec (.cyclePeriodStart) s = .next (s.on (s.dev))) ∧
  (∀ (d : Dev),
       (d.cycState = 4 → d.cycleStart = d.satInc Reg.CYC_OCSKIP 15 0) ∧
       (d.cycState ≠ 4 → d.cycState ≠ 2 → d.cycleStart = d) ∧
       (d.cycState = 2 → d.cycBusy = true → d.cycleStart = d.cycleMissed) ∧
       (d.cycState = 2 → d.cycBusy = false → d.inStep = false → d.leads = true → d.cycleStart = d.cycleAccept) ∧
       (d.cycState = 2 → d.cycBusy = false → d.inStep = true → d.running Tm.noImg = false → d.cycleStart = d.start
           Tm.noImg) ∧
       (d.fld Reg.CYC_WDMULT 7 0 ≤ d.fld Reg.CYC_OVRCNT 31 24 → d.watchdog = (d.progFault.flag Reg.CYC_STAT 8).hw
           0x8003 [])) ∧
  (∀ (s : State) (p : Image) (x : List Byte × List Byte × List Byte × List Byte) (d e : Dev),
     s.dev.asleep = false →
     s.dev.cyc.image = some p →
     s.dev.cyc.phase = .copy →
     s.dev.tw.imgWait = false →
     s.dev.role ≠ 2 →
     s.dev.due Tm.copy (s.dev.copyTicks p) = true →
     s.dev.imageBytes p = (x, d) →
     (d.imageStore x).inputForces = e →
     e.shadeInStep = false →
       exec (.imageCopyComplete) s = .next (s.on (e.execBegin))) ∧
  (∀ (s : State),
     s.dev.asleep = false →
     s.dev.cyc.image = none ∨ s.dev.cyc.phase ≠ .copy ∨ s.dev.tw.imgWait = true ∨ s.dev.role = 2 →
       exec (.imageCopyComplete) s = .next (s.on (s.dev))) ∧
  (∀ (s : State) (src : Writer) (v : Word) (d : Dev),
     s.dev.asleep = false →
     s.dev.takes src Reg.CYC_CTL = some d →
       exec (.start src v) s =
             (let w := withBit v 0 true;
             let a := d.plainWrite Reg.CYC_CTL w;
             let b := if bitOf w 2 = true then (a.wr Reg.CYC_LRCNT 0).wr Reg.CYC_LRADDR 0 else a;
             let c := if bitOf w 1 = true then b.progStop else b;
             .next (s.on (if bitOf w 0 = true then c.progStart else c)))) ∧
  (∀ (s : State) (src : Writer) (v : Word) (d : Dev),
     s.dev.asleep = false →
     s.dev.takes src Reg.CYC_CTL = some d →
       exec (.stop src v) s =
             (let w := withBit v 1 true;
             let a := d.plainWrite Reg.CYC_CTL w;
             let b := if bitOf w 2 = true then (a.wr Reg.CYC_LRCNT 0).wr Reg.CYC_LRADDR 0 else a;
             let c := if bitOf w 1 = true then b.progStop else b;
             .next (s.on (if bitOf w 0 = true then c.progStart else c)))) ∧
  (∀ (s : State) (src : Writer) (v : Word) (d : Dev),
     s.dev.asleep = false →
     s.dev.takes src Reg.CYC_CTL = some d →
       exec (.clearLiveReads src v) s =
             (let w := withBit v 2 true;
             let a := d.plainWrite Reg.CYC_CTL w;
             let b := if bitOf w 2 = true then (a.wr Reg.CYC_LRCNT 0).wr Reg.CYC_LRADDR 0 else a;
             let c := if bitOf w 1 = true then b.progStop else b;
             .next (s.on (if bitOf w 0 = true then c.progStart else c)))) ∧
  (∀ (d : Dev) (p : Image),
       (d.cyc.image = none → d.progStart = d) ∧
       (d.cyc.image = some p → (d.cycState ≠ 1 ∧ d.cycState ≠ 3) ∨ d.cyc.lockout = true ∨ d.leads = false →
           d.progStart = d) ∧
       (d.cyc.image = some p → d.cycState = 1 ∨ d.cycState = 3 → d.cyc.lockout = false → d.leads = true → d.progStart
           =
             (let cold := decide (d.cyc.retainedId ≠ some p.imageId);
             let kind := if cold = true then 0 else 1;
             let e := d.loadData p cold;
             let e := e.setCore .program ((e.core .program).placed p.startAddr kind);
             let e : Dev := { e with cyc := { e.cyc with phase := .idle, calls := [], firstCommit := true, afterSwitch := false, firstCycle := true, startKind := kind, lrPrev := false, lrRecorded := false, missedNow := 0, retainedId := some p.imageId }, fio := { e.fio with committed := false } };
             (e.setFld Reg.CYC_STAT 2 0 2).fw 0x8001 [nw kind])) ∧
       (d.cycState = 2 → d.progStop = ((d.cycIdle).setFld Reg.CYC_STAT 2 0 1).fw 0x8002 []) ∧
       (d.cycState ≠ 2 → d.progStop = d)) ∧
  (∀ (s : State) (src : Writer) (n : Byte) (w : BitVec 2) (v : Word) (d : Dev),
     s.dev.asleep = false →
     s.dev.takes src (Reg.CYC_FORCE n.toNat w.toNat) = some d →
       (w ≠ 1 → exec (.forceWordWrite src n w v) s = .next (s.on
           ({ d with cyc := { d.cyc with stage := putO d.cyc.stage (4 * n.toNat + w.toNat) (some v) } }))) ∧
       (w = 1 → exec (.forceWordWrite src n w v) s = .next (s.on (d.forceWrite n.toNat 1 v)))) ∧
  (∀ (s : State) (src : Writer) (n : Byte) (v : Word) (d : Dev),
     s.dev.asleep = false →
     s.dev.takes src (Reg.CYC_FORCE n.toNat 1) = some d →
       exec (.forceCommit src n v) s =
             (let st : Nat → Word := fun k => (getO d.cyc.stage (4 * n.toNat + k)).getD (d.rd (Reg.CYC_FORCE n.toNat k));
             let e := (((d.wr (Reg.CYC_FORCE n.toNat 0) (st 0)).plainWrite (Reg.CYC_FORCE n.toNat 1) v).wr (Reg.CYC_FORCE n.toNat 2) (st 2)).wr (Reg.CYC_FORCE n.toNat 3) (st 3);
             let c := putO (putO (putO e.cyc.stage (4 * n.toNat) none) (4 * n.toNat + 2) none) (4 * n.toNat + 3) none;
             let f : Dev := { e with cyc := { e.cyc with stage := c } };
             .next (s.on ((f.incWrap Reg.CYC_FGEN).forceShow.fw 0x8070 [nw n.toNat])))) ∧
  (∀ (s : State) (old new : Image),
     s.dev.asleep = false →
     s.dev.cyc.image = some old →
     s.dev.cyc.armed = some new →
     s.dev.cycState = 4 →
     s.dev.due Tm.switch (switchTicks old new) = true →
       exec .onlineChangeSwitch s =
             (let moves := (carried old new).map (fun e => (e.1, s.dev.bytes e.2 e.1.size));
             let src := stageBase;
             let a := ((s.dev.copyMem src codeBase new.codeLen).copyMem (src + new.codeLen + new.dataLen) dataBase new.retLen).copyMem (src + new.codeLen) (dataBase + new.retLen) new.dataLen;
             let a := a.zeroMem (dataBase + new.retLen + new.dataLen) new.zeroLen;
             let a := moves.foldl (fun (d : Dev) m => d.agentStore m.1.addr m.2) a;
             let a := moves.foldl (fun (d : Dev) m => d.presetNew new m.1) a;
             let a := ((List.range 256).foldl (fun (d : Dev) n => d.forceMove old new n) a).forceShow;
             let a := a.setCore .program ((a.core .program).placed new.changeAddr 2);
             let a : Dev := { a with cyc := { a.cyc with image := some new, armed := none, switchAfter := none, firstCommit := true, afterSwitch := true, retainedId := some new.imageId } };
             let r := a.slotRecord;
             let a := a.slotSave (recOf (recFwAct r) (recFwPend r) (recTrial r) (1 - recPgAct r) false);
             .next (s.on ((((a.setFld Reg.CYC_STAT 2 0 2).setFld Reg.CYC_OCSTAT 1 0 0).stop Tm.switch).fw 0x8060 [])))) ∧
  (∀ (s : State),
     s.dev.asleep = false →
     s.dev.cyc.armed = none ∨ s.dev.cycState ≠ 4 →
       exec (.onlineChangeSwitch) s = .next (s.on (s.dev)))

/-- The runtime serves a system call while the program pair is in its exception with cause 8 and that number: a
well-formed call is queued and returns w1 = 0, another returns 1 with nothing queued, and in no other case anything
happens. A queued call takes the effect of Table 14.5 at the commit. Under STRICTLR a cycle with LR set stops the
program with entry 0x8021; a module on its own commits after the output forces. -/
def Obligations.SystemCalls : Prop :=
  (∀ (s : State),
     s.dev.asleep = false →
       (s.dev.prog.stopped = false → bitOf s.dev.prog.status 5 = true → fieldOf s.dev.prog.xcode 7 0 = 8 →
           s.dev.prog.xaddr.toNat = 0x001 → callOk 0x001 (s.dev.prog.reg 1) (s.dev.prog.reg 2) (s.dev.prog.reg 3) =
           true → exec (.syscallSccClose) s = .next (s.on
           ({ s.dev with cyc := { s.dev.cyc with calls := s.dev.cyc.calls ++ [{ num := 0x001, a1 := s.dev.prog.reg 1, a2 := s.dev.prog.reg 2, a3 := s.dev.prog.reg 3 }] }, prog := (let c := (s.dev.prog.setReg 1 0).rfx .program; if s.dev.cyc.phase = .execute then c else { c with waiting := .cyend }) })))
           ∧
       (s.dev.prog.stopped = false → bitOf s.dev.prog.status 5 = true → fieldOf s.dev.prog.xcode 7 0 = 8 →
           s.dev.prog.xaddr.toNat = 0x001 → callOk 0x001 (s.dev.prog.reg 1) (s.dev.prog.reg 2) (s.dev.prog.reg 3) =
           false → exec (.syscallSccClose) s = .next (s.on
           ({ s.dev with prog := (let c := (s.dev.prog.setReg 1 1).rfx .program; if s.dev.cyc.phase = .execute then c else { c with waiting := .cyend }) })))
           ∧
       (s.dev.prog.stopped = true ∨ bitOf s.dev.prog.status 5 = false ∨ fieldOf s.dev.prog.xcode 7 0 ≠ 8 ∨
           s.dev.prog.xaddr.toNat ≠ 0x001 → exec (.syscallSccClose) s = .next (s.on (s.dev)))) ∧
  (∀ (s : State),
     s.dev.asleep = false →
       (s.dev.prog.stopped = false → bitOf s.dev.prog.status 5 = true → fieldOf s.dev.prog.xcode 7 0 = 8 →
           s.dev.prog.xaddr.toNat = 0x002 → callOk 0x002 (s.dev.prog.reg 1) (s.dev.prog.reg 2) (s.dev.prog.reg 3) =
           true → exec (.syscallSccOpen) s = .next (s.on
           ({ s.dev with cyc := { s.dev.cyc with calls := s.dev.cyc.calls ++ [{ num := 0x002, a1 := s.dev.prog.reg 1, a2 := s.dev.prog.reg 2, a3 := s.dev.prog.reg 3 }] }, prog := (let c := (s.dev.prog.setReg 1 0).rfx .program; if s.dev.cyc.phase = .execute then c else { c with waiting := .cyend }) })))
           ∧
       (s.dev.prog.stopped = false → bitOf s.dev.prog.status 5 = true → fieldOf s.dev.prog.xcode 7 0 = 8 →
           s.dev.prog.xaddr.toNat = 0x002 → callOk 0x002 (s.dev.prog.reg 1) (s.dev.prog.reg 2) (s.dev.prog.reg 3) =
           false → exec (.syscallSccOpen) s = .next (s.on
           ({ s.dev with prog := (let c := (s.dev.prog.setReg 1 1).rfx .program; if s.dev.cyc.phase = .execute then c else { c with waiting := .cyend }) })))
           ∧
       (s.dev.prog.stopped = true ∨ bitOf s.dev.prog.status 5 = false ∨ fieldOf s.dev.prog.xcode 7 0 ≠ 8 ∨
           s.dev.prog.xaddr.toNat ≠ 0x002 → exec (.syscallSccOpen) s = .next (s.on (s.dev)))) ∧
  (∀ (s : State),
     s.dev.asleep = false →
       (s.dev.prog.stopped = false → bitOf s.dev.prog.status 5 = true → fieldOf s.dev.prog.xcode 7 0 = 8 →
           s.dev.prog.xaddr.toNat = 0x003 → callOk 0x003 (s.dev.prog.reg 1) (s.dev.prog.reg 2) (s.dev.prog.reg 3) =
           true → exec (.syscallSccAck) s = .next (s.on
           ({ s.dev with cyc := { s.dev.cyc with calls := s.dev.cyc.calls ++ [{ num := 0x003, a1 := s.dev.prog.reg 1, a2 := s.dev.prog.reg 2, a3 := s.dev.prog.reg 3 }] }, prog := (let c := (s.dev.prog.setReg 1 0).rfx .program; if s.dev.cyc.phase = .execute then c else { c with waiting := .cyend }) })))
           ∧
       (s.dev.prog.stopped = false → bitOf s.dev.prog.status 5 = true → fieldOf s.dev.prog.xcode 7 0 = 8 →
           s.dev.prog.xaddr.toNat = 0x003 → callOk 0x003 (s.dev.prog.reg 1) (s.dev.prog.reg 2) (s.dev.prog.reg 3) =
           false → exec (.syscallSccAck) s = .next (s.on
           ({ s.dev with prog := (let c := (s.dev.prog.setReg 1 1).rfx .program; if s.dev.cyc.phase = .execute then c else { c with waiting := .cyend }) })))
           ∧
       (s.dev.prog.stopped = true ∨ bitOf s.dev.prog.status 5 = false ∨ fieldOf s.dev.prog.xcode 7 0 ≠ 8 ∨
           s.dev.prog.xaddr.toNat ≠ 0x003 → exec (.syscallSccAck) s = .next (s.on (s.dev)))) ∧
  (∀ (s : State),
     s.dev.asleep = false →
       (s.dev.prog.stopped = false → bitOf s.dev.prog.status 5 = true → fieldOf s.dev.prog.xcode 7 0 = 8 →
           s.dev.prog.xaddr.toNat = 0x010 → callOk 0x010 (s.dev.prog.reg 1) (s.dev.prog.reg 2) (s.dev.prog.reg 3) =
           true → exec (.syscallStoreroom) s = .next (s.on
           ({ s.dev with cyc := { s.dev.cyc with calls := s.dev.cyc.calls ++ [{ num := 0x010, a1 := s.dev.prog.reg 1, a2 := s.dev.prog.reg 2, a3 := s.dev.prog.reg 3 }] }, prog := (let c := (s.dev.prog.setReg 1 0).rfx .program; if s.dev.cyc.phase = .execute then c else { c with waiting := .cyend }) })))
           ∧
       (s.dev.prog.stopped = false → bitOf s.dev.prog.status 5 = true → fieldOf s.dev.prog.xcode 7 0 = 8 →
           s.dev.prog.xaddr.toNat = 0x010 → callOk 0x010 (s.dev.prog.reg 1) (s.dev.prog.reg 2) (s.dev.prog.reg 3) =
           false → exec (.syscallStoreroom) s = .next (s.on
           ({ s.dev with prog := (let c := (s.dev.prog.setReg 1 1).rfx .program; if s.dev.cyc.phase = .execute then c else { c with waiting := .cyend }) })))
           ∧
       (s.dev.prog.stopped = true ∨ bitOf s.dev.prog.status 5 = false ∨ fieldOf s.dev.prog.xcode 7 0 ≠ 8 ∨
           s.dev.prog.xaddr.toNat ≠ 0x010 → exec (.syscallStoreroom) s = .next (s.on (s.dev)))) ∧
  (∀ (s : State),
     s.dev.asleep = false →
       (s.dev.prog.stopped = false → bitOf s.dev.prog.status 5 = true → fieldOf s.dev.prog.xcode 7 0 = 8 →
           s.dev.prog.xaddr.toNat = 0x020 → callOk 0x020 (s.dev.prog.reg 1) (s.dev.prog.reg 2) (s.dev.prog.reg 3) =
           true → exec (.syscallTransport) s = .next (s.on
           ({ s.dev with cyc := { s.dev.cyc with calls := s.dev.cyc.calls ++ [{ num := 0x020, a1 := s.dev.prog.reg 1, a2 := s.dev.prog.reg 2, a3 := s.dev.prog.reg 3 }] }, prog := (let c := (s.dev.prog.setReg 1 0).rfx .program; if s.dev.cyc.phase = .execute then c else { c with waiting := .cyend }) })))
           ∧
       (s.dev.prog.stopped = false → bitOf s.dev.prog.status 5 = true → fieldOf s.dev.prog.xcode 7 0 = 8 →
           s.dev.prog.xaddr.toNat = 0x020 → callOk 0x020 (s.dev.prog.reg 1) (s.dev.prog.reg 2) (s.dev.prog.reg 3) =
           false → exec (.syscallTransport) s = .next (s.on
           ({ s.dev with prog := (let c := (s.dev.prog.setReg 1 1).rfx .program; if s.dev.cyc.phase = .execute then c else { c with waiting := .cyend }) })))
           ∧
       (s.dev.prog.stopped = true ∨ bitOf s.dev.prog.status 5 = false ∨ fieldOf s.dev.prog.xcode 7 0 ≠ 8 ∨
           s.dev.prog.xaddr.toNat ≠ 0x020 → exec (.syscallTransport) s = .next (s.on (s.dev)))) ∧
  (∀ (s : State),
     s.dev.asleep = false →
       (s.dev.prog.stopped = false → bitOf s.dev.prog.status 5 = true → fieldOf s.dev.prog.xcode 7 0 = 8 →
           s.dev.prog.xaddr.toNat = 0x030 → callOk 0x030 (s.dev.prog.reg 1) (s.dev.prog.reg 2) (s.dev.prog.reg 3) =
           true → exec (.syscallRelease) s = .next (s.on
           ({ s.dev with cyc := { s.dev.cyc with calls := s.dev.cyc.calls ++ [{ num := 0x030, a1 := s.dev.prog.reg 1, a2 := s.dev.prog.reg 2, a3 := s.dev.prog.reg 3 }] }, prog := (let c := (s.dev.prog.setReg 1 0).rfx .program; if s.dev.cyc.phase = .execute then c else { c with waiting := .cyend }) })))
           ∧
       (s.dev.prog.stopped = false → bitOf s.dev.prog.status 5 = true → fieldOf s.dev.prog.xcode 7 0 = 8 →
           s.dev.prog.xaddr.toNat = 0x030 → callOk 0x030 (s.dev.prog.reg 1) (s.dev.prog.reg 2) (s.dev.prog.reg 3) =
           false → exec (.syscallRelease) s = .next (s.on
           ({ s.dev with prog := (let c := (s.dev.prog.setReg 1 1).rfx .program; if s.dev.cyc.phase = .execute then c else { c with waiting := .cyend }) })))
           ∧
       (s.dev.prog.stopped = true ∨ bitOf s.dev.prog.status 5 = false ∨ fieldOf s.dev.prog.xcode 7 0 ≠ 8 ∨
           s.dev.prog.xaddr.toNat ≠ 0x030 → exec (.syscallRelease) s = .next (s.on (s.dev)))) ∧
  (∀ (s : State),
     s.dev.asleep = false →
       (s.dev.prog.stopped = false → bitOf s.dev.prog.status 5 = true → fieldOf s.dev.prog.xcode 7 0 = 8 →
           s.dev.prog.xaddr.toNat = 0x040 → callOk 0x040 (s.dev.prog.reg 1) (s.dev.prog.reg 2) (s.dev.prog.reg 3) =
           true → exec (.syscallRecord) s = .next (s.on
           ({ s.dev with cyc := { s.dev.cyc with calls := s.dev.cyc.calls ++ [{ num := 0x040, a1 := s.dev.prog.reg 1, a2 := s.dev.prog.reg 2, a3 := s.dev.prog.reg 3 }] }, prog := (let c := (s.dev.prog.setReg 1 0).rfx .program; if s.dev.cyc.phase = .execute then c else { c with waiting := .cyend }) })))
           ∧
       (s.dev.prog.stopped = false → bitOf s.dev.prog.status 5 = true → fieldOf s.dev.prog.xcode 7 0 = 8 →
           s.dev.prog.xaddr.toNat = 0x040 → callOk 0x040 (s.dev.prog.reg 1) (s.dev.prog.reg 2) (s.dev.prog.reg 3) =
           false → exec (.syscallRecord) s = .next (s.on
           ({ s.dev with prog := (let c := (s.dev.prog.setReg 1 1).rfx .program; if s.dev.cyc.phase = .execute then c else { c with waiting := .cyend }) })))
           ∧
       (s.dev.prog.stopped = true ∨ bitOf s.dev.prog.status 5 = false ∨ fieldOf s.dev.prog.xcode 7 0 ≠ 8 ∨
           s.dev.prog.xaddr.toNat ≠ 0x040 → exec (.syscallRecord) s = .next (s.on (s.dev)))) ∧
  (∀ (d : Dev) (c : SysCall),
       (c.num = 0x020 → d.callDo c = d.transReq) ∧
       (c.num = 0x030 → d.callDo c = (d.release false c.a1).release true c.a2) ∧
       (c.num = 0x040 → d.callDo c = d.postBytes 2 (0x8100 + fieldOf c.a1 7 0) (d.bytes c.a3.toNat c.a2.toNat)) ∧
       (c.num = 0x001 ∨ c.num = 0x002 ∨ c.num = 0x003 → d.callDo c = d.callScc c.num) ∧
       (c.num = 0x010 → d.callDo c =
             ({ d with est := { d.est with section_ := some (sectionPut d.est.section_ c.a3.toNat (d.bytes c.a1.toNat c.a2.toNat)) } } : Dev).stoAsk 8)) ∧
  (∀ (d : Dev) (p : Image),
     d.cyc.image = some p →
     bitOf d.prog.status 11 = true →
     p.strict = true →
       d.cycleEnd = ((d.execTime.liveReport.setBit Reg.CYC_STAT 3 false).progFault).hw 0x8021 []) ∧
  (∀ (d e : Dev),
     bitOf d.prog.status 11 = false →
     ({ d.execTime.liveReport.setBit Reg.CYC_STAT 3 false with cyc := { (d.execTime.liveReport.setBit Reg.CYC_STAT 3 false).cyc with phase := .commit } }
         : Dev).outputForces = e →
     e.role = 0 →
       d.cycleEnd = e.commit) ∧
  (∀ (d : Dev),
       d.commit =
             (let a := d.wr Reg.FIO_OUT (nw (d.outByte 0).toNat);
             let a : Dev := { a with fio := { a.fio with committed := true, warmHold := false } };
             let a := match a.cyc.image with | some p => a.exportAll p | none => a;
             let b : Dev := { a with cyc := { a.cyc with calls := [] } };
             let b := a.cyc.calls.foldl (fun (d : Dev) c => d.callDo c) b;
             let b : Dev := if b.cyc.phase = .idle then b else { b with cyc := { b.cyc with phase := .wait } };
             b.switchBegin.handDue))

/-- Link up and loss of signal act on the ring port or the twin link named. A heartbeat leaves every 100 µs while the
module sends; a received one gives TW_PEPOCH, TW_PSTAT and the partner flag and is then judged by duty, joining
module and shade; a miss 10 µs after the expected arrival counts. PING and PONG measure TW_LAT. TW_CTL seeds,
deposes, hands over and rejoins, for a claimed writer or a session with service authority. KILL_IN deposes a duty
without KILL_OUT of its own. Start-up, takeover and the settle act when their conditions hold; the duty's rounds end
resynchronisation or count, and its time-out gives it up. -/
def Obligations.TwinLinkCommands : Prop :=
  (∀ (s : State),
     s.dev.asleep = false →
       exec (.linkUp 0) s = .next (s.on (s.dev.ringLinkUp false))) ∧
  (∀ (s : State),
     s.dev.asleep = false →
       exec (.linkUp 1) s = .next (s.on (s.dev.ringLinkUp true))) ∧
  (∀ (s : State),
     s.dev.asleep = false →
       exec (.linkUp 2) s = .next (s.on (s.dev.twLinkUp))) ∧
  (∀ (s : State),
     s.dev.asleep = false →
       exec (.los 0) s = .next (s.on (s.dev.ringLos false))) ∧
  (∀ (s : State),
     s.dev.asleep = false →
       exec (.los 1) s = .next (s.on (s.dev.ringLos true))) ∧
  (∀ (s : State),
     s.dev.asleep = false →
       exec (.los 2) s = .next (s.on (s.dev.twLos))) ∧
  (∀ (d : Dev),
       (d.role = 0 ∨ d.twLink = true → d.twLinkUp = d) ∧
       (d.role ≠ 0 → d.twLink = false → d.twLinkUp = ((d.setBit Reg.TW_STAT 5 true).hw 0x9001 []).pingSend) ∧
       (d.twLink = false → d.twLos = d) ∧
       (d.twLink = true → d.twLos =
             (let e := (d.setBit Reg.TW_STAT 5 false).hw 0x9002 [];
             ({ e with tw := { e.tw with rsPhase := 0, dirty := [] } } : Dev).setFld Reg.TW_RSSTAT 31 30 0))) ∧
  (∀ (s : State) (d : Dev),
     s.dev.asleep = false →
       (s.dev.twSends = true → s.dev.running Tm.hb = false ∨ s.dev.due Tm.hb (usT 100) = true →
           { s.dev with tw := { s.dev.tw with hbCount := (s.dev.tw.hbCount + 1) % 65536 } } = d → exec
           (.heartbeatSend) s = .next (s.on ((d.send .twin 0x01 (byteNats d.hbBytes)).start Tm.hb))) ∧
       (s.dev.twSends = false ∨ s.dev.running Tm.hb = true ∧ s.dev.due Tm.hb (usT 100) = false → exec (.heartbeatSend)
           s = .next (s.on (s.dev)))) ∧
  (∀ (s : State) (low : Bool) (epoch : Word) (b4 b5 : Byte) (count : BitVec 16) (compat image cyc angle : Word) (inc :
       BitVec 48) (ns sec : Word) (h : Heart) (a c : Dev),
     s.dev.asleep = false →
       (s.dev.role = 0 ∨ s.dev.role = 3 ∨ s.dev.twLink = false → exec (.heartbeat low epoch b4 b5 count compat image
           cyc angle inc ns sec) s = .next (s.on ((s.dev.roleLine low)))) ∧
       (s.dev.role ≠ 0 → s.dev.role ≠ 3 → s.dev.twLink = true → { epoch := epoch, role := b4.toNat % 4, smode := b4.toNat / 4 % 4, pos := b4.toNat.testBit 4, elig := b4.toNat.testBit 5, fail := b4.toNat.testBit 6, flags := b5.toNat, count := count.toNat, compat := compat, image := image, cyc := cyc, angle := angle.toNat, inc := inc.toNat, ns := ns.toNat, sec := sec.toNat } = h → ((s.dev.roleLine low).wr Reg.TW_PEPOCH epoch).wr Reg.TW_PSTAT (nw (b5.toNat * 256 + b4.toNat)) = a → (a.setBit Reg.TW_STAT 6 true).setFld Reg.TW_HBCNT 31 24 0 = c → exec (.heartbeat low epoch b4 b5 count compat image cyc angle inc ns sec) s = .next (s.on ((let d : Dev := { c with tw := { c.tw with heart := some h, expect := some (c.now + usT 100) } };
           let d : Dev := if (d.rd Reg.TW_EPOCH).toNat < epoch.toNat then d.epochHigh else d;
           let d : Dev := if b4.toNat % 4 = 1 then (let d := d.start Tm.dutyHeard;
           if d.running Tm.join then d.start Tm.join else d) else d;
           if d.role = 1 then d.hbDuty h else let d : Dev := if d.smode = 0 then d.hbJoining h else d;
           if b4.toNat % 4 = 1 then d.hbFollow h else d))))) ∧
  (∀ (s : State) (t : Nat) (d e : Dev),
     s.dev.asleep = false →
       (s.dev.tw.expect = none → exec (.heartbeatMiss) s = .next (s.on (s.dev))) ∧
       (s.dev.tw.expect = some t → s.dev.role = 0 ∨ s.dev.now < t + usT 10 → exec (.heartbeatMiss) s = .next (s.on
           (s.dev))) ∧
       (s.dev.tw.expect = some t → s.dev.role ≠ 0 → t + usT 10 ≤ s.dev.now → (s.dev.satInc Reg.TW_HBCNT 23 0).satInc
           Reg.TW_HBCNT 31 24 = d → { d with tw := { d.tw with expect := some (t + usT 100) } } = e → exec
           (.heartbeatMiss) s = .next (s.on (if 3 ≤ e.fld Reg.TW_HBCNT 31 24 && e.bit Reg.TW_STAT 6 then ((e.setBit
           Reg.TW_STAT 6 false).flag Reg.TW_STAT 18).hw 0x9003 [] else e)))) ∧
  (∀ (s : State),
     s.dev.asleep = false →
       (s.dev.running Tm.ping = false ∨ s.dev.due Tm.ping (secT 1) = true → exec (.ping) s = .next (s.on
           (s.dev.pingSend))) ∧
       (s.dev.running Tm.ping = true → s.dev.due Tm.ping (secT 1) = false → exec (.ping) s = .next (s.on (s.dev)))) ∧
  (∀ (d : Dev),
       (d.twSends = true → d.pingSend = (d.send .twin 0x200 []).start Tm.ping) ∧
       (d.twSends = false → d.pingSend = d) ∧
       (d.twSends = (d.role != 0 && d.twLink && !d.txHeld && !d.tw.txOff))) ∧
  (∀ (s : State),
     s.dev.asleep = false →
       (s.dev.twSends = true → exec (.pingReceive) s = .next (s.on (s.dev.send .twin 0x201 []))) ∧
       (s.dev.twSends = false → exec (.pingReceive) s = .next (s.on (s.dev)))) ∧
  (∀ (s : State) (rtt : BitVec 16) (lat : Nat),
     s.dev.asleep = false →
       (s.dev.role = 0 → exec (.pong rtt) s = .next (s.on (s.dev))) ∧
       (s.dev.role ≠ 0 → (rtt.toNat - 40) / 2 = lat → exec (.pong rtt) s = .next (s.on (s.dev.wr Reg.TW_LAT (nw
           (ceilDiv (lat + 16) 8 % 65536 * 65536 + lat % 65536)))))) ∧
  (∀ (s : State),
     s.dev.asleep = false →
       (s.dev.role = 0 → exec (.linkFrameDiscard) s = .next (s.on (s.dev))) ∧
       (s.dev.role ≠ 0 → exec (.linkFrameDiscard) s = .next (s.on (s.dev.flag Reg.TW_STAT 19)))) ∧
  (∀ (s : State) (a : Bool) (d : Dev),
       (s.dev.asleep = true → exec (.killIn a) s = .next (s.on
           { s.dev with pins := { s.dev.pins with killIn := a } })) ∧
       (s.dev.asleep = false → (({ s.dev with pins := { s.dev.pins with killIn := a } } : Dev).setBit Reg.TW_STAT 8 (a
           && s.dev.role != 0)).powerRefresh = d →
             exec (.killIn a) s = .next (s.on (if a = true ∧ ((d.role = 1 ∧ d.pins.killOut = false) ∨ (d.role = 2 ∧ d.bit Reg.TW_STAT 4 = true)) then d.depose 1 else d)))) ∧
  (∀ (s : State) (src : Writer) (v : Word) (d : Dev),
     s.dev.asleep = false →
     s.dev.takes src Reg.TW_CTL = some d →
     src ≠ .session ∨ s.dev.fld Reg.SVC_STAT 5 4 ≠ 3 →
       exec (.depose src v) s = .next (s.on (d.twCtl (withBit v 2 true)))) ∧
  (∀ (s : State) (v : Word),
     s.dev.asleep = false →
     s.dev.fld Reg.SVC_STAT 5 4 = 3 →
       exec (.depose .session v) s = .next (s.on (s.dev.twCtl (withBit v 2 true)))) ∧
  (∀ (s : State) (src : Writer) (v : Word) (d : Dev),
     s.dev.asleep = false →
     s.dev.takes src Reg.TW_CTL = some d →
     src ≠ .session ∨ s.dev.fld Reg.SVC_STAT 5 4 ≠ 3 →
       exec (.rejoin src v) s = .next (s.on (d.twCtl (withBit v 3 true)))) ∧
  (∀ (s : State) (v : Word),
     s.dev.asleep = false →
     s.dev.fld Reg.SVC_STAT 5 4 = 3 →
       exec (.rejoin .session v) s = .next (s.on (s.dev.twCtl (withBit v 3 true)))) ∧
  (∀ (s : State) (src : Writer) (v : Word) (d : Dev),
     s.dev.asleep = false →
     s.dev.takes src Reg.TW_CTL = some d →
     src ≠ .session ∨ s.dev.fld Reg.SVC_STAT 5 4 ≠ 3 →
       exec (.seed src v) s = .next (s.on (d.twCtl (withBit v 4 true)))) ∧
  (∀ (s : State) (v : Word),
     s.dev.asleep = false →
     s.dev.fld Reg.SVC_STAT 5 4 = 3 →
       exec (.seed .session v) s = .next (s.on (s.dev.twCtl (withBit v 4 true)))) ∧
  (∀ (s : State) (src : Writer) (v : Word) (d : Dev),
     s.dev.asleep = false →
     s.dev.takes src Reg.TW_CTL = some d →
     src ≠ .session ∨ s.dev.fld Reg.SVC_STAT 5 4 ≠ 3 →
       exec (.handover src v) s = .next (s.on (d.twCtl (withBit v 0 true)))) ∧
  (∀ (s : State) (v : Word),
     s.dev.asleep = false →
     s.dev.fld Reg.SVC_STAT 5 4 = 3 →
       exec (.handover .session v) s = .next (s.on (s.dev.twCtl (withBit v 0 true)))) ∧
  (∀ (d : Dev) (v : Word),
       (d.twCtl v =
             (let a := if bitOf v 4 = true then d.seed else d;
             let a := if bitOf v 2 = true then a.depose 4 else a;
             let a := if bitOf v 0 = true then a.handover (bitOf v 1) else a;
             if bitOf v 3 = true then a.rejoin else a)) ∧
       (d.rd Reg.TW_EPOCH = 0 → d.seed = ((d.wr Reg.TW_EPOCH 1).epochSave).eligRefresh) ∧
       (d.rd Reg.TW_EPOCH ≠ 0 → d.seed = d) ∧
       (d.role = 3 → d.rejoin = (d.hw 0x9021 []).resetAsk 12) ∧
       (d.role ≠ 3 → d.rejoin = d) ∧
       (d.role ≠ 1 → d.handover true = d)) ∧
  (∀ (s : State),
     s.dev.asleep = false →
       (s.dev.fld Reg.TW_DEPTO 15 0 ≠ 0 → s.dev.due Tm.deposed (secT (s.dev.fld Reg.TW_DEPTO 15 0)) = true → exec
           (.deposedTimeout) s = .next (s.on (s.dev.rejoin))) ∧
       (s.dev.fld Reg.TW_DEPTO 15 0 = 0 ∨ s.dev.due Tm.deposed (secT (s.dev.fld Reg.TW_DEPTO 15 0)) = false → exec
           (.deposedTimeout) s = .next (s.on (s.dev)))) ∧
  (∀ (s : State) (low : Bool) (d e : Dev),
     s.dev.asleep = false →
       ((s.dev.roleLine low) = d → d.joinOk = true → d.fld Reg.TW_JOINTO 15 0 ≠ 0 → d.due Tm.join (msT (d.fld
           Reg.TW_JOINTO 15 0)) = true → (d.dutyEnter.stop Tm.join).hw 0x9012 [] = e → exec (.joinTimeout low) s =
           .next (s.on (if e.ring.count = none ∧ e.pwr.full = false then e.greySet else e))) ∧
       ((s.dev.roleLine low) = d → d.joinOk = false ∨ d.fld Reg.TW_JOINTO 15 0 = 0 ∨ d.due Tm.join (msT (d.fld
           Reg.TW_JOINTO 15 0)) = false → exec (.joinTimeout low) s = .next (s.on (d)))) ∧
  (∀ (s : State) (low : Bool) (d : Dev),
     s.dev.asleep = false →
       ((s.dev.roleLine low) = d → d.takeOk = true → exec (.takeover low) s = .next (s.on ((let e := (d.setKillOut true).hw 0x9051 [];
           ({ e with tw := { e.tw with takeover := true } } : Dev).start Tm.settle)))) ∧
       ((s.dev.roleLine low) = d → d.takeOk = false → exec (.takeover low) s = .next (s.on (d)))) ∧
  (∀ (s : State) (a b c : Dev),
     s.dev.asleep = false →
       (s.dev.tw.takeover = true → s.dev.due Tm.settle (usT (s.dev.fld Reg.TW_KILLT 7 0)) = true → ({ s.dev with tw := { s.dev.tw with takeover := false } } : Dev).stop Tm.settle = a → (a.dutyEnter.estTakeover s.dev.smode).satInc Reg.TW_COUNTS 15 0 = b → (if s.dev.cyc.phase = .commit then b.commit else b) = c → exec (.killSettleExpiry) s = .next (s.on ((let e := c.hw 0x9010 [c.rd Reg.TW_EPOCH];
           if s.dev.smode = 1 then e else e.programAnew)))) ∧
       (s.dev.tw.takeover = false ∨ s.dev.due Tm.settle (usT (s.dev.fld Reg.TW_KILLT 7 0)) = false → exec
           (.killSettleExpiry) s = .next (s.on (s.dev)))) ∧
  (∀ (s : State) (a e : Dev),
     s.dev.asleep = false →
       (s.dev.role ≠ 1 ∨ s.dev.tw.rsPhase ≠ 2 ∨ s.dev.cyc.phase ≠ .wait → exec (.resyncRound) s = .next (s.on
           (s.dev))) ∧
       (s.dev.role = 1 → s.dev.tw.rsPhase = 2 → s.dev.cyc.phase = .wait → s.dev.rsDirty.foldl (fun (d : Dev) a =>
           d.joinMemory a 1024) s.dev = a → ({ a with tw := { a.tw with dirty := [] } } : Dev) = e → exec
           (.resyncRound) s = .next (s.on (if s.dev.rsDirty.length ≤ e.fld Reg.TW_RSFINAL 15 0 && s.dev.nextStart.all
           (fun t => decide (8 * 1024 * s.dev.rsDirty.length + 50000 < t)) then ((e.send .twin 0x0B (byteNats
           e.joinState)).rsSent (e.joinState.length - 8)).rsSet 3 else e.satInc Reg.TW_RSSTAT 23 16)))) ∧
  (∀ (s : State) (e : Dev),
     s.dev.asleep = false →
       (s.dev.tw.rsPhase ≠ 0 → s.dev.fld Reg.TW_RSTO 15 0 ≠ 0 → s.dev.due Tm.resync (secT (s.dev.fld Reg.TW_RSTO 15
           0)) = true → ((({ s.dev with tw := { s.dev.tw with dirty := [] } } : Dev).rsSet 0).stop Tm.resync).start
           Tm.rsRetry = e → exec (.resyncTimeout) s = .next (s.on (if e.role = 1 then e.hw 0x9033 [] else e))) ∧
       (s.dev.tw.rsPhase = 0 ∨ s.dev.fld Reg.TW_RSTO 15 0 = 0 ∨ s.dev.due Tm.resync (secT (s.dev.fld Reg.TW_RSTO 15
           0)) = false → exec (.resyncTimeout) s = .next (s.on (s.dev)))) ∧
  (∀ (s : State),
     s.dev.asleep = false →
       (s.dev.hasShade = true → s.dev.fld Reg.TW_MIRINT 15 0 ≠ 0 → s.dev.running Tm.mir = false ∨ s.dev.due Tm.mir
           (msT (s.dev.fld Reg.TW_MIRINT 15 0)) = true → exec (.mirrorInterval) s = .next (s.on (s.dev.mirrorEst.start
           Tm.mir))) ∧
       (s.dev.hasShade = false ∨ s.dev.fld Reg.TW_MIRINT 15 0 = 0 ∨ (s.dev.running Tm.mir = true ∧ s.dev.due Tm.mir
           (msT (s.dev.fld Reg.TW_MIRINT 15 0)) = false) → exec (.mirrorInterval) s = .next (s.on (s.dev))))

/-- A cue acts on a shade: strobes, mailbox commit, converter alignment, SCC commands, role exchange, recovery read and
blanking; a bad check drops a shade in step with cause 4. IMAGE is taken by an in-step shade that has ended its
cycle, and answered; IMGACK 0 begins the duty's execution and 1 asks for the frame again; HASH and HASHACK judge the
cycle; a lag that expires releases the duty and drops the shade. MAILBOX, CMD, MIRROR and RESYNC frames act on a
shade alone, SEGMENT on a pair; FAIL is noted and may begin a takeover. -/
def Obligations.ShadeCommands : Prop :=
  (∀ (s : State) (seq : BitVec 16) (w : Sweep) (e : Dev),
     s.dev.asleep = false →
       (s.dev.role ≠ 2 ∨ s.dev.bit Reg.SWP_CTL 0 = false → exec (.cueStrobeV seq) s = .next (s.on (s.dev))) ∧
       (s.dev.role = 2 → s.dev.bit Reg.SWP_CTL 0 = true → s.dev.swp.cur = none → (if s.dev.ringState = 3 then
           s.dev.ringSet 4 else s.dev) = e → exec (.cueStrobeV seq) s = .next (s.on (if e.ringSplit = true then
           e.strobeWith e.swp.lastDesc seq.toNat false false 0 else e))) ∧
       (s.dev.role = 2 → s.dev.bit Reg.SWP_CTL 0 = true → s.dev.swp.cur = some w → (if (s.dev.publish w).ringState = 3
           then (s.dev.publish w).ringSet 4 else s.dev.publish w) = e → exec (.cueStrobeV seq) s = .next (s.on (if
           e.ringSplit = true then e.strobeWith e.swp.lastDesc seq.toNat false false 0 else e)))) ∧
  (∀ (s : State) (seq : BitVec 16) (w : Sweep) (e : Dev),
     s.dev.asleep = false →
       (s.dev.role ≠ 2 ∨ s.dev.bit Reg.SWP_CTL 0 = false → exec (.cueStrobeT seq) s = .next (s.on (s.dev))) ∧
       (s.dev.role = 2 → s.dev.bit Reg.SWP_CTL 0 = true → s.dev.swp.cur = none → (if s.dev.ringState = 3 then
           s.dev.ringSet 4 else s.dev) = e → exec (.cueStrobeT seq) s = .next (s.on (if e.ringSplit = true then
           e.strobeWith e.swp.lastDesc seq.toNat true false 0 else e))) ∧
       (s.dev.role = 2 → s.dev.bit Reg.SWP_CTL 0 = true → s.dev.swp.cur = some w → (if (s.dev.publish w).ringState = 3
           then (s.dev.publish w).ringSet 4 else s.dev.publish w) = e → exec (.cueStrobeT seq) s = .next (s.on (if
           e.ringSplit = true then e.strobeWith e.swp.lastDesc seq.toNat true false 0 else e)))) ∧
  (∀ (s : State) (seq : BitVec 16) (w : Sweep) (e : Dev),
     s.dev.asleep = false →
       (s.dev.role ≠ 2 ∨ s.dev.bit Reg.SWP_CTL 0 = false → exec (.cueStrobeTa seq) s = .next (s.on (s.dev))) ∧
       (s.dev.role = 2 → s.dev.bit Reg.SWP_CTL 0 = true → s.dev.swp.cur = none → (if s.dev.ringState = 3 then
           s.dev.ringSet 4 else s.dev) = e → exec (.cueStrobeTa seq) s = .next (s.on (if e.ringSplit = true then
           e.strobeWith e.swp.lastDesc seq.toNat true true 0 else e))) ∧
       (s.dev.role = 2 → s.dev.bit Reg.SWP_CTL 0 = true → s.dev.swp.cur = some w → (if (s.dev.publish w).ringState = 3
           then (s.dev.publish w).ringSet 4 else s.dev.publish w) = e → exec (.cueStrobeTa seq) s = .next (s.on (if
           e.ringSplit = true then e.strobeWith e.swp.lastDesc seq.toNat true true 0 else e)))) ∧
  (∀ (s : State) (m : BitVec 2) (k : Nat) (ws : List Word) (st : List (Nat × Option Word)),
     s.dev.asleep = false →
       (s.dev.tw.mb = none → exec (.cueMailbox m) s = .next (s.on (s.dev))) ∧
       (s.dev.tw.mb = some (k, ws) → s.dev.role ≠ 2 ∨ k ≠ m.toNat → exec (.cueMailbox m) s = .next (s.on (s.dev))) ∧
       (s.dev.tw.mb = some (k, ws) → s.dev.role = 2 → k = m.toNat → (List.range 3).foldl (fun l w => putO l (4 *
           m.toNat + w + 1) (ws[w + 1]?)) s.dev.dsp.stage = st → exec (.cueMailbox m) s = .next (s.on
           (({ s.dev with tw := { s.dev.tw with mb := none }, dsp := { s.dev.dsp with stage := st } } : Dev).mbCommit
           m.toNat ((ws[0]?).getD 0))))) ∧
  (∀ (s : State),
     s.dev.asleep = false →
       (s.dev.role = 2 → exec (.cueSdmSync) s = .next (s.on (s.dev.sdmSync))) ∧
       (s.dev.role ≠ 2 → exec (.cueSdmSync) s = .next (s.on (s.dev)))) ∧
  (∀ (s : State) (counts : List (BitVec 20)),
     s.dev.asleep = false →
       (s.dev.role = 2 → exec (.cuePwmAlign counts) s = .next (s.on ((List.range 4).foldl (fun (d : Dev) p =>
           d.setPair p { d.pair p with cnt := nth (counts.map (fun c => c.toNat)) p, cntAt := d.now }) s.dev))) ∧
       (s.dev.role ≠ 2 → exec (.cuePwmAlign counts) s = .next (s.on (s.dev)))) ∧
  (∀ (s : State) (n : BitVec 2),
     s.dev.asleep = false →
       (s.dev.role = 2 → exec (.cueScc n) s = .next (s.on (s.dev.sccCmd true n.toNat))) ∧
       (s.dev.role ≠ 2 → exec (.cueScc n) s = .next (s.on (s.dev)))) ∧
  (∀ (s : State) (ep : BitVec 16),
     s.dev.asleep = false →
       (s.dev.role = 2 → exec (.cueRoleExchange ep) s = .next (s.on ((s.dev.handTake).estTakeover s.dev.smode))) ∧
       (s.dev.role ≠ 2 → exec (.cueRoleExchange ep) s = .next (s.on (s.dev)))) ∧
  (∀ (s : State) (seq : BitVec 16) (w : Sweep) (e : Dev),
     s.dev.asleep = false →
       (s.dev.swp.cur = none → exec (.cueRecoveryRead seq) s = .next (s.on (s.dev))) ∧
       (s.dev.swp.cur = some w → s.dev.role ≠ 2 ∨ w.seq ≠ seq.toNat → exec (.cueRecoveryRead seq) s = .next (s.on
           (s.dev))) ∧
       (s.dev.swp.cur = some w → s.dev.role = 2 → w.seq = seq.toNat →
           { s.dev with swp := { s.dev.swp with cur := some { w with recovering := true } } } = e → exec
           (.cueRecoveryRead seq) s = .next (s.on (e.collect 63 0x21 true (((s.dev.descNodes w.desc).filter (fun k =>
           !w.got.contains k)).map (fun k => (k, 3 * e.nodeNV k))))))) ∧
  (∀ (s : State),
     s.dev.asleep = false →
       (s.dev.role = 2 → s.dev.ringSplit = true → exec (.cueBlank) s = .next (s.on (s.dev.ringSend setBlank []))) ∧
       (s.dev.role ≠ 2 ∨ s.dev.ringSplit = false → exec (.cueBlank) s = .next (s.on (s.dev)))) ∧
  (∀ (s : State),
     s.dev.asleep = false →
       exec (.cueBadCheck) s = .next (s.on (s.dev.shadeDrop 4))) ∧
  (∀ (d : Dev) (k : Nat),
       (d.inStep = false → d.shadeDrop k = d) ∧
       (d.inStep = true → d.shadeDrop k =
             (let a := d.cycIdle;
             let b : Dev := { a with tw := { a.tw with shadeOut := true, ownHash := none, dutyHash := none } };
             let c := (((b.openReq.k1Off.k2Off).setRole 2 2).flag Reg.TW_STAT 16).hw 0x9030 [nw k];
             (c.start Tm.drop).stop Tm.noImg))) ∧
  (∀ (s : State) (crcOk : Bool) (cycle : Word) (image : List Byte) (forces : List ForceRow) (p : Image) (a e : Dev),
     s.dev.asleep = false →
       (s.dev.role = 0 → exec (.image crcOk cycle image forces) s = .next (s.on (s.dev))) ∧
       (crcOk = false → s.dev.role ≠ 0 → s.dev.flag Reg.TW_STAT 19 = a → exec (.image crcOk cycle image forces) s =
           .next (s.on (if a.inStep = true then (if a.running Tm.lagImg = true then a else a.start Tm.lagImg).imgAck
           cycle.toNat 1 else a))) ∧
       (crcOk = true → s.dev.cyc.image = none ∨ s.dev.inStep = false ∨ s.dev.cycState ≠ 2 ∨ s.dev.cycBusy = true ∨
           s.dev.tw.ownHash.isSome = true → exec (.image crcOk cycle image forces) s = .next (s.on (s.dev))) ∧
       (crcOk = true → s.dev.cyc.image = some p → s.dev.inStep = true → s.dev.cycState = 2 → s.dev.cycBusy = false →
           s.dev.tw.ownHash = none → s.dev.role ≠ 0 → s.dev.imageStore (splitImage p image) = a →
           { a with cyc := { a.cyc with forces := (forces.map (fun f => { idx := f.idx.toNat, w0 := f.w0, w1 := f.w1, w2 := f.w2, w3 := f.w3 : Force })), frozen := { a.cyc.frozen with tb := leNat (slice image 8 8), angle := leNat (slice image 16 4), cycle := leNat (slice image 20 4) } } }
           = e → exec (.image crcOk cycle image forces) s = .next (s.on ((((((e.inputForces.setFld Reg.CYC_OVRCNT 31
           24 0).wr Reg.CYC_NUM (nw cycle.toNat)).resumeBlocks.stop Tm.noImg).stop Tm.lagImg).imgAck cycle.toNat
           0).execBegin)))) ∧
  (∀ (s : State) (cycle : Word) (status : Byte),
     s.dev.asleep = false →
       (s.dev.role = 1 → s.dev.tw.imgWait = true → (s.dev.rd Reg.CYC_NUM).toNat = cycle.toNat → status.toNat = 0 →
           exec (.imgack cycle status) s = .next (s.on ((({ s.dev with tw := { s.dev.tw with imgWait := false } } :
           Dev).stop Tm.lagImg).execBegin))) ∧
       (s.dev.role = 1 → s.dev.tw.imgWait = true → (s.dev.rd Reg.CYC_NUM).toNat = cycle.toNat → status.toNat = 1 →
           exec (.imgack cycle status) s = .next (s.on (s.dev.send .twin 0x82 (byteNats s.dev.tw.img)))) ∧
       (s.dev.role ≠ 1 ∨ s.dev.tw.imgWait = false ∨ (s.dev.rd Reg.CYC_NUM).toNat ≠ cycle.toNat ∨ 1 < status.toNat →
           exec (.imgack cycle status) s = .next (s.on (s.dev)))) ∧
  (∀ (s : State) (cycle h : Word),
     s.dev.asleep = false →
       (s.dev.inStep = true → exec (.hash cycle h) s = .next (s.on
           ((({ s.dev with tw := { s.dev.tw with dutyHash := some (cycle.toNat, h) } } : Dev).start
           Tm.lagHash).shadeJudge))) ∧
       (s.dev.inStep = false → exec (.hash cycle h) s = .next (s.on (s.dev)))) ∧
  (∀ (d e f : Dev) (own duty : Word) (k : Nat),
       (d.tw.ownHash = some own → d.tw.dutyHash = some (k, duty) → d.inStep = true → d.cyc.phase = .commit → (d.rd
           Reg.CYC_NUM).toNat = k → d.send .twin 0x05 (byteNats (leBytes 4 k ++ leBytes 4 own.toNat) ++ [b2n (!(own ==
           duty)), 0, 0, 0]) = e → { e with tw := { e.tw with ownHash := none, dutyHash := none } } = f → d.shadeJudge
           = (if (own == duty) = true then f.commit else (f.flag Reg.TW_STAT 17).shadeDrop 3)) ∧
       (d.tw.ownHash = none ∨ d.tw.dutyHash = none ∨ d.inStep = false ∨ d.cyc.phase ≠ .commit → d.shadeJudge = d)) ∧
  (∀ (s : State) (cycle : Word) (result : Byte) (a : Dev),
     s.dev.asleep = false →
       (s.dev.role = 1 → s.dev.tw.hashWait = some cycle.toNat →
           ({ s.dev with tw := { s.dev.tw with hashWait := none } } : Dev).stop Tm.lagHash = a → result.toNat ≠ 1 →
           exec (.hashack cycle result) s = .next (s.on (a.handDue))) ∧
       (s.dev.role = 1 → s.dev.tw.hashWait = some cycle.toNat →
           ({ s.dev with tw := { s.dev.tw with hashWait := none } } : Dev).stop Tm.lagHash = a → result.toNat = 1 →
           exec (.hashack cycle result) s = .next (s.on ((((({ a with tw := { a.tw with dropped := true } } :
           Dev).satInc Reg.TW_HASHCNT 23 0).flag Reg.TW_STAT 17).handCheck).handDue))) ∧
       (s.dev.role ≠ 1 ∨ s.dev.tw.hashWait ≠ some cycle.toNat → exec (.hashack cycle result) s = .next (s.on (s.dev)))) ∧
  (∀ (s : State),
     s.dev.asleep = false →
       (s.dev.role = 1 → s.dev.tw.imgWait = true → s.dev.due Tm.lagImg s.dev.lagTicks = true → exec (.lagExpiry) s =
           .next (s.on (((({ s.dev with tw := { s.dev.tw with imgWait := false, dropped := true } } : Dev).stop
           Tm.lagImg).handCheck).execBegin))) ∧
       (s.dev.role = 1 → s.dev.tw.imgWait = false → s.dev.tw.hashWait.isSome = true → s.dev.due Tm.lagHash
           s.dev.lagTicks = true → exec (.lagExpiry) s = .next (s.on
           (((({ s.dev with tw := { s.dev.tw with hashWait := none, dropped := true } } : Dev).stop
           Tm.lagHash).handCheck).handDue))) ∧
       (s.dev.role = 1 → s.dev.tw.imgWait = false → s.dev.tw.hashWait = none → exec (.lagExpiry) s = .next (s.on
           (s.dev))) ∧
       (s.dev.role ≠ 1 → s.dev.inStep = true → s.dev.due Tm.lagImg s.dev.lagTicks = true → exec (.lagExpiry) s = .next
           (s.on ((s.dev.stop Tm.lagImg).shadeDrop 1))) ∧
       (s.dev.role ≠ 1 → s.dev.inStep = true → s.dev.due Tm.lagImg s.dev.lagTicks = false → s.dev.tw.dutyHash.isSome =
           true → s.dev.due Tm.lagHash s.dev.lagTicks = true → exec (.lagExpiry) s = .next (s.on ((s.dev.stop
           Tm.lagHash).shadeDrop 2))) ∧
       (s.dev.role ≠ 1 → s.dev.inStep = false → exec (.lagExpiry) s = .next (s.on (s.dev)))) ∧
  (∀ (s : State),
     s.dev.asleep = false →
       (s.dev.inStep = true → s.dev.cycState = 2 → s.dev.due Tm.noImg s.dev.lagTicks = true → exec (.missingImage) s =
           .next (s.on (s.dev.shadeDrop 5))) ∧
       (s.dev.inStep = false ∨ s.dev.cycState ≠ 2 ∨ s.dev.due Tm.noImg s.dev.lagTicks = false → exec (.missingImage) s
           = .next (s.on (s.dev)))) ∧
  (∀ (s : State) (sec : BitVec 16) (off : Word) (data : List Byte),
     s.dev.asleep = false →
       (s.dev.role ≠ 2 → exec (.mirror sec off data) s = .next (s.on (s.dev))) ∧
       (s.dev.role = 2 → sec = 2 → 0x20700000 ≤ off.toNat → off.toNat + data.length ≤ 0x20710000 → exec (.mirror sec
           off data) s = .next (s.on (s.dev.mramWrite off.toNat data))) ∧
       (s.dev.role = 2 → sec = 3 → 0x20000000 ≤ off.toNat → off.toNat + data.length ≤ 0x20200000 → exec (.mirror sec
           off data) s = .next (s.on (s.dev.mramWrite off.toNat data))) ∧
       (s.dev.role = 2 → sec = 6 → exec (.mirror sec off data) s = .next (s.on (s.dev.enqueue (partnerPost data)))) ∧
       (s.dev.role = 2 → 7 < sec.toNat ∨ sec = 0 → exec (.mirror sec off data) s = .next (s.on (s.dev.flag Reg.TW_STAT
           19)))) ∧
  (∀ (s : State) (arg : Byte) (slots : List Byte),
     s.dev.asleep = false →
       (s.dev.pairUp = true → exec (.segment arg slots) s = .next (s.on (s.dev.segTake arg.toNat slots.length slots)))
           ∧
       (s.dev.pairUp = false → exec (.segment arg slots) s = .next (s.on (s.dev)))) ∧
  (∀ (s : State) (m : Byte) (words : List Word),
     s.dev.asleep = false →
       (s.dev.role = 2 → exec (.mailbox m words) s = .next (s.on
           ({ s.dev with tw := { s.dev.tw with mb := some (m.toNat, words) } }))) ∧
       (s.dev.role ≠ 2 → exec (.mailbox m words) s = .next (s.on (s.dev)))) ∧
  (∀ (s : State) (cycle : Word),
     s.dev.asleep = false →
       (s.dev.role = 2 → exec (.cmdHandover cycle) s = .next (s.on
           ({ s.dev with tw := { s.dev.tw with hand := some (cycle.toNat, true) } }))) ∧
       (s.dev.role ≠ 2 → exec (.cmdHandover cycle) s = .next (s.on (s.dev)))) ∧
  (∀ (s : State) (cycle : Word),
     s.dev.asleep = false →
       (s.dev.role = 2 → exec (.cmdOnlineChange cycle) s = .next (s.on
           ({ s.dev with cyc := { s.dev.cyc with switchAfter := some cycle.toNat } }))) ∧
       (s.dev.role ≠ 2 → exec (.cmdOnlineChange cycle) s = .next (s.on (s.dev)))) ∧
  (∀ (s : State),
     s.dev.asleep = false →
       (s.dev.role = 2 → exec (.cmdTransport) s = .next (s.on (s.dev.transEnter))) ∧
       (s.dev.role ≠ 2 → exec (.cmdTransport) s = .next (s.on (s.dev)))) ∧
  (∀ (s : State) (hop : Byte) (nodes : List EnumNode) (transit : BitVec 24),
     s.dev.asleep = false →
       (s.dev.role ≠ 2 → exec (.cmdEnumeration hop nodes transit) s = .next (s.on (s.dev))) ∧
       (s.dev.role = 2 → exec (.cmdEnumeration hop nodes transit) s = .next (s.on (s.dev.enumerate hop.toNat nodes
           transit.toNat)))) ∧
  (∀ (s : State) (frame : List Byte),
     s.dev.asleep = false →
       (s.dev.role = 2 → s.dev.portOn false = true → exec (.cmdRingCommand frame) s = .next (s.on ((s.dev.send
           (portIface false) (nth (byteNats frame) 0) (byteNats frame)).laneBusy ((byteNats frame).length + 2)
           |>.cmdState (nth (byteNats frame) 0)))) ∧
       (s.dev.role ≠ 2 ∨ s.dev.portOn false = false → exec (.cmdRingCommand frame) s = .next (s.on (s.dev)))) ∧
  (∀ (s : State) (low : Bool),
     s.dev.asleep = false →
       (s.dev.role = 2 → exec (.fail low) s = .next (s.on
           (({ s.dev.roleLine low with tw := { s.dev.tw with failRx := true } } : Dev).takeover))) ∧
       (s.dev.role ≠ 2 → exec (.fail low) s = .next (s.on (s.dev)))) ∧
  (∀ (s : State) (addr : Word) (data : List Byte),
     s.dev.asleep = false →
       (s.dev.role ≠ 2 ∨ s.dev.smode ≠ 0 → exec (.resyncGranules addr data) s = .next (s.on (s.dev))) ∧
       (s.dev.role = 2 → s.dev.smode = 0 → dataBase ≤ addr.toNat → addr.toNat + data.length ≤ 0x105E0000 → exec
           (.resyncGranules addr data) s = .next (s.on (s.dev.agentStore addr.toNat data)))) ∧
  (∀ (s : State) (j : JoinState) (p : Image) (k : Nat) (c f : CoreSt) (a e : Dev),
     s.dev.asleep = false →
       (s.dev.cyc.image = none → exec (.resyncRegisters j) s = .next (s.on (s.dev))) ∧
       (s.dev.cyc.image = some p → s.dev.role ≠ 2 ∨ s.dev.smode ≠ 0 ∨ s.dev.tw.target ≠ 1 → exec (.resyncRegisters j)
           s = .next (s.on (s.dev))) ∧
       (s.dev.cyc.image = some p → s.dev.role = 2 → s.dev.smode = 0 → s.dev.tw.target = 1 → s.dev.nextFree = (k, a) →
           (a.core .program).placed (codeBase + 4 * Config.free k) 1 = c →
           { c with w := Vector.ofFn (fun i => if i.val = 0 then 0 else (j.w[i.val - 1]?).getD 0), v := Vector.ofFn (fun r => Vector.ofFn (fun i => (((j.v[r.val]?).getD [])[i.val]?).getD 0)), m := Vector.ofFn (fun i => (j.m[i.val]?).getD 0), vl := min 64 j.vl.toNat, fcsr := j.fcsr &&& 0x7F, status := withBit (withBit c.status 8 j.dz) 9 j.ov }
           = f → ((((a.setCore .program f).copyMem (p.base + 0x100) codeBase p.codeLen).wr Reg.SYS_EXPOWN0 j.own0).wr
           Reg.SYS_EXPOWN1 j.own1).wr Reg.CYC_NUM j.cycle = e → exec (.resyncRegisters j) s = .next (s.on
           ((({ e with cyc := { e.cyc with phase := .wait, calls := [], firstCommit := true, retainedId := some p.imageId } }
           : Dev).setFld Reg.CYC_STAT 2 0 2).joinDone 1)))) ∧
  (∀ (s : State) (sl : BitVec 3) (w14 w15 : Word) (e3 u3 : BitVec 16) (q : List (BitVec 16)) (e : Dev),
     s.dev.asleep = false →
       (s.dev.role ≠ 2 → exec (.resyncSlotHistory sl w14 w15 e3 u3 q) s = .next (s.on (s.dev))) ∧
       (s.dev.role = 2 → (s.dev.wr (Reg.CE_SLOT sl.toNat 14) w14).wr (Reg.CE_SLOT sl.toNat 15) w15 = e → exec
           (.resyncSlotHistory sl w14 w15 e3 u3 q) s = .next (s.on (e.setSlot sl.toNat
           { e.slot sl.toNat with e3 := e3.toInt, u3 := u3.toInt, q := ((q.map (fun x => x.toNat)).zipIdx).foldl (fun m e => putN m e.2 e.1) [] }))))

/-- CANx_CTL with INIT 0 leaves configuration only for timings R419 accepts, else CFGERR with entry 0xA007; 11 recessive
bits integrate. A good frame counts down REC and goes to the matching object of lowest index; RDSEL copies an object
and clears its flags; TXREQ makes transmit objects pending; TXCAN withdraws those whose frame is not on the bus; an
attempt ends in success or failure; RECOVER in bus-off starts recovery, whose end makes entry 0xA004; reading STAT
clears its error codes as R437 says. -/
def Obligations.CanCommands : Prop :=
  (∀ (s : State) (src : Writer) (x : BitVec 1) (v : Word) (d : Dev),
     s.dev.asleep = false →
     s.dev.takes src (Reg.CAN_CTL x.toNat) = some d →
       exec (.leaveConfiguration src x v) s = .next (s.on (d.canCtl x.toNat (withBit v 0 false))) ∧
       exec (.recover src x v) s = .next (s.on (d.canCtl x.toNat (withBit v 6 true)))) ∧
  (∀ (d a : Dev) (x : Nat) (v : Word),
       (d.bit (Reg.CAN_CTL x) 0 = true → d.txHeld = false → d.plainWrite (Reg.CAN_CTL x) (withBit v 0 true) = a →
           bitOf v 6 = false → bitOf v 0 = false → d.canCtl x v = a.canLeave x) ∧
       (d.bit (Reg.CAN_CTL x) 0 = true → d.txHeld = false → d.plainWrite (Reg.CAN_CTL x) (withBit v 0 true) = a →
           bitOf v 6 = false → bitOf v 0 = true → d.canCtl x v = a) ∧
       (d.bit (Reg.CAN_CTL x) 0 = false → d.txHeld = false → d.plainWrite (Reg.CAN_CTL x) (withBit (withBit (withBit v
           4 (d.bit (Reg.CAN_CTL x) 4)) 2 (d.bit (Reg.CAN_CTL x) 2)) 0 false) = a → bitOf v 6 = false → bitOf v 0 =
           true → d.canCtl x v = a.canInit x) ∧
       (d.bit (Reg.CAN_CTL x) 0 = false → d.txHeld = false → d.plainWrite (Reg.CAN_CTL x) (withBit (withBit (withBit v
           4 (d.bit (Reg.CAN_CTL x) 4)) 2 (d.bit (Reg.CAN_CTL x) 2)) 0 false) = a → bitOf v 6 = true → bitOf v 0 =
           false → d.canCtl x v = a.canRecover x)) ∧
  (∀ (d : Dev) (x : Nat),
       (nbtOk (d.rd (Reg.CAN_NBT x)) = true → d.bit (Reg.CAN_CTL x) 2 = false ∨ dbtOk (d.rd (Reg.CAN_NBT x)) (d.rd
           (Reg.CAN_DBT x)) = true → d.canLeave x = (((d.setBit (Reg.CAN_CTL x) 0 false).setBit (Reg.CAN_STAT x) 0
           false).setBit (Reg.CAN_STAT x) 4 false).setBit (Reg.CAN_STAT x) 8 true) ∧
       (nbtOk (d.rd (Reg.CAN_NBT x)) = false ∨ (d.bit (Reg.CAN_CTL x) 2 = true ∧ dbtOk (d.rd (Reg.CAN_NBT x)) (d.rd
           (Reg.CAN_DBT x)) = false) → d.canLeave x = (d.flag (Reg.CAN_STAT x) 11).hw 0xA007 (d.canInfo x)) ∧
       (d.bit (Reg.CAN_STAT x) 7 = true → d.canRecover x = d.start (Tm.canRec x)) ∧
       (d.bit (Reg.CAN_STAT x) 7 = false → d.canRecover x = d)) ∧
  (∀ (s : State) (x : BitVec 1),
     s.dev.asleep = false →
       (s.dev.bit (Reg.CAN_CTL x.toNat) 0 = true ∨ s.dev.bit (Reg.CAN_STAT x.toNat) 7 = true ∨ s.dev.bit (Reg.CAN_STAT
           x.toNat) 4 = true → exec (.busIntegrated x) s = .next (s.on (s.dev))) ∧
       (s.dev.bit (Reg.CAN_CTL x.toNat) 0 = false → s.dev.bit (Reg.CAN_STAT x.toNat) 7 = false → s.dev.bit
           (Reg.CAN_STAT x.toNat) 4 = false → exec (.busIntegrated x) s = .next (s.on ((s.dev.flag (Reg.CAN_STAT
           x.toNat) 4).setBit (Reg.CAN_STAT x.toNat) 8 false)))) ∧
  (∀ (s : State) (x : BitVec 1) (ide fdf brs esi rtr : Bool) (id : BitVec 29) (dlc : BitVec 4) (data : List Byte),
     s.dev.asleep = false →
       (s.dev.canLive x.toNat = false ∨ (fdf = true ∧ s.dev.bit (Reg.CAN_CTL x.toNat) 2 = false) ∨ s.dev.bit
           (Reg.CAN_CTL x.toNat) 4 = true → exec (.canFrameReceive x ide fdf brs esi rtr id dlc data) s = .next (s.on
           (s.dev))) ∧
       (s.dev.canLive x.toNat = true → fdf = false ∨ s.dev.bit (Reg.CAN_CTL x.toNat) 2 = true → s.dev.bit (Reg.CAN_CTL
           x.toNat) 4 = false → exec (.canFrameReceive x ide fdf brs esi rtr id dlc data) s = .next (s.on
           ((s.dev.canRxGood x.toNat).canTake x.toNat ide (16 * b2n fdf + 8 * b2n brs + 4 * b2n esi + 2 * b2n ide +
           b2n rtr) dlc.toNat (if ide = true then id.setWidth 32 else nw (id.toNat % 2048 * 2 ^ 18)) (if rtr = true
           then [] else data.take (canLen fdf dlc.toNat)))))) ∧
  (∀ (d : Dev) (x n : Nat) (ide : Bool) (flags dlc : Nat) (rxid : Word) (l : List Byte),
       ((List.range 128).find? (fun n => d.canMatch x n ide rxid) = none → d.canTake x ide flags dlc rxid l = d) ∧
       ((List.range 128).find? (fun n => d.canMatch x n ide rxid) = some n → d.bit (Reg.CAN_OBJ x n 3) 31 = false →
           d.canTake x ide flags dlc rxid l = d.canStore x n flags dlc rxid l) ∧
       ((List.range 128).find? (fun n => d.canMatch x n ide rxid) = some n → d.bit (Reg.CAN_OBJ x n 3) 31 = true →
           d.bit (Reg.CAN_OBJ x n 0) 25 = true → d.canTake x ide flags dlc rxid l = ((d.canStore x n flags dlc rxid
           l).flag (Reg.CAN_OBJ x n 3) 30).canLost x n) ∧
       ((List.range 128).find? (fun n => d.canMatch x n ide rxid) = some n → d.bit (Reg.CAN_OBJ x n 3) 31 = true →
           d.bit (Reg.CAN_OBJ x n 0) 25 = false → d.canTake x ide flags dlc rxid l = (d.flag (Reg.CAN_OBJ x n 3)
           29).canLost x n)) ∧
  (∀ (s : State) (src : Writer) (x : BitVec 1) (v : Word) (d a : Dev),
     s.dev.asleep = false →
     s.dev.takes src (Reg.CAN_RDSEL x.toNat) = some d →
       (d.canMotion x.toNat (fieldOf v 6 0) = true → exec (.rdsel src x v) s = .next (s.on (d))) ∧
       (d.canMotion x.toNat (fieldOf v 6 0) = false → (List.range 32).foldl (fun (d : Dev) w => d.wr (Reg.CAN_RDBUF
           x.toNat w) (d.rd (Reg.CAN_OBJ x.toNat (fieldOf v 6 0) w))) d = a → exec (.rdsel src x v) s = .next (s.on
           ((a.setFld (Reg.CAN_OBJ x.toNat (fieldOf v 6 0) 3) 31 29 0).setBit (Reg.CAN_RXNEW x.toNat (fieldOf v 6 0 /
           32)) (fieldOf v 6 0 % 32) false)))) ∧
  (∀ (s : State) (src : Writer) (x : BitVec 1) (k : BitVec 2) (v : Word) (d : Dev),
     s.dev.asleep = false →
     s.dev.takes src (Reg.CAN_TXREQ x.toNat k.toNat) = some d →
       exec (.txreq src x k v) s = .next (s.on ((List.range 32).foldl (fun (d : Dev) i => if bitOf v i = true then
           d.canRequest x.toNat (32 * k.toNat + i) else d) d))) ∧
  (∀ (d : Dev) (x n : Nat),
       (d.canGated x = true ∨ d.canMotion x n = true ∨ bitOf (d.rd (Reg.CAN_OBJ x n 0)) 31 = false ∨ bitOf (d.rd
           (Reg.CAN_OBJ x n 0)) 30 = false ∨ d.canPend x n = true → d.canRequest x n = d) ∧
       (d.canGated x = false → d.canMotion x n = false → bitOf (d.rd (Reg.CAN_OBJ x n 0)) 31 = true → bitOf (d.rd
           (Reg.CAN_OBJ x n 0)) 30 = true → d.canPend x n = false → d.canRequest x n = ((d.flag (Reg.CAN_TXPEND x (n /
           32)) (n % 32)).setFld (Reg.CAN_OBJ x n 3) 19 16 0).start (Tm.canReq x n))) ∧
  (∀ (s : State) (src : Writer) (x : BitVec 1) (k : BitVec 2) (v : Word) (onBus : Option (BitVec 7)) (d : Dev),
     s.dev.asleep = false →
     s.dev.takes src (Reg.CAN_TXCAN x.toNat k.toNat) = some d →
       exec (.txcan src x k v onBus) s = .next (s.on ((List.range 32).foldl (fun (d : Dev) i => if (bitOf v i &&
           d.canPend x.toNat (32 * k.toNat + i) && onBus.map (fun n => n.toNat) != some (32 * k.toNat + i) &&
           !d.canMotion x.toNat (32 * k.toNat + i)) = true then d.canDisarm x.toNat (32 * k.toNat + i) else d) d))) ∧
  (∀ (d : Dev) (x k i : Nat),
     i < 32 →
       d.canDisarm x (32 * k + i) = d.setBit (Reg.CAN_TXPEND x k) i false) ∧
  (∀ (s : State) (x : BitVec 1) (ago : Word) (tdcv : BitVec 7) (err : Option (BitVec 3 × Bool × Byte)) (n : Nat) (code
       : BitVec 3) (data : Bool) (rises : Byte) (e : Dev),
     s.dev.asleep = false →
       (s.dev.canLive x.toNat = false ∨ s.dev.canGated x.toNat = true ∨ s.dev.canOffer x.toNat ago.toNat = none → exec
           (.canAttemptEnd x ago tdcv err) s = .next (s.on (s.dev))) ∧
       (s.dev.canLive x.toNat = true → s.dev.canGated x.toNat = false → s.dev.canOffer x.toNat ago.toNat = some n →
           (if s.dev.bit (Reg.CAN_TDC x.toNat) 15 && s.dev.bit (Reg.CAN_OBJ x.toNat n 0) 28 then s.dev.setFld
           (Reg.CAN_TDC x.toNat) 6 0 tdcv.toNat else s.dev) = e → err = none → exec (.canAttemptEnd x ago tdcv err) s
           = .next (s.on (e.canSuccess x.toNat n))) ∧
       (s.dev.canLive x.toNat = true → s.dev.canGated x.toNat = false → s.dev.canOffer x.toNat ago.toNat = some n →
           (if s.dev.bit (Reg.CAN_TDC x.toNat) 15 && s.dev.bit (Reg.CAN_OBJ x.toNat n 0) 28 then s.dev.setFld
           (Reg.CAN_TDC x.toNat) 6 0 tdcv.toNat else s.dev) = e → err = some (code, data, rises) → exec
           (.canAttemptEnd x ago tdcv err) s = .next (s.on (e.canFailure x.toNat n code.toNat data rises.toNat)))) ∧
  (∀ (d : Dev) (x n code rises : Nat) (data : Bool) (a : Dev),
       (((d.canLec x code data).setFld (Reg.CAN_OBJ x n 3) 19 16 (satN 15 (d.fld (Reg.CAN_OBJ x n 3) 19 16 + 1))) = a
           → d.fld (Reg.CAN_OBJ x n 3) 19 16 < d.fld (Reg.CAN_OBJ x n 0) 23 20 → d.canFailure x n code data rises =
           a.canCount x (a.canTec x + 8 * rises) (a.canRec x)) ∧
       ((((d.canLec x code data).setFld (Reg.CAN_OBJ x n 3) 19 16 (satN 15 (d.fld (Reg.CAN_OBJ x n 3) 19 16 + 1))).canCount x (((d.canLec x code data).setFld (Reg.CAN_OBJ x n 3) 19 16 (satN 15 (d.fld (Reg.CAN_OBJ x n 3) 19 16 + 1))).canTec x + 8 * rises) (((d.canLec x code data).setFld (Reg.CAN_OBJ x n 3) 19 16 (satN 15 (d.fld (Reg.CAN_OBJ x n 3) 19 16 + 1))).canRec x)).setBit (Reg.CAN_TXPEND x (n / 32)) (n % 32) false = a → d.fld (Reg.CAN_OBJ x n 0) 23 20 ≤ d.fld (Reg.CAN_OBJ x n 3) 19 16 → d.canFailure x n code data rises = (let b := a.flag (Reg.CAN_TXFAIL x (n / 32)) (n % 32);
               b.hw 0xA006 (b.canInfo x ++ [nw n, b.rd (Reg.CAN_OBJ x n 1)])))) ∧
  (∀ (s : State) (x : BitVec 1) (a e : Dev),
     s.dev.asleep = false →
       (s.dev.bit (Reg.CAN_STAT x.toNat) 7 = false ∨ s.dev.running (Tm.canRec x.toNat) = false → exec
           (.busOffRecoveryDone x) s = .next (s.on (s.dev))) ∧
       (s.dev.bit (Reg.CAN_STAT x.toNat) 7 = true → s.dev.running (Tm.canRec x.toNat) = true → ((s.dev.stop (Tm.canRec
           x.toNat)).setBit (Reg.CAN_STAT x.toNat) 7 false).canCount x.toNat 0 0 = a → (if a.bit (Reg.CAN_CTL x.toNat)
           0 then a else (a.flag (Reg.CAN_STAT x.toNat) 4).setBit (Reg.CAN_STAT x.toNat) 8 false) = e → exec
           (.busOffRecoveryDone x) s = .next (s.on (e.hw 0xA004 (e.canInfo x.toNat))))) ∧
  (∀ (s : State) (x : BitVec 1),
     s.dev.asleep = false →
       exec (.canStatRead x) s = .next (s.on ((s.dev.setFld (Reg.CAN_STAT x.toNat) 22 20 7).setFld (Reg.CAN_STAT
           x.toNat) 18 16 7))) ∧
  (∀ (s : State) (x : BitVec 1) (code : BitVec 3) (data : Bool) (rise : BitVec 2) (e : Dev),
     s.dev.asleep = false →
       (s.dev.canLive x.toNat = false → exec (.canReceiveError x code data rise) s = .next (s.on (s.dev))) ∧
       (s.dev.canLive x.toNat = true → s.dev.canLec x.toNat code.toNat data = e → e.canGated x.toNat = true → exec
           (.canReceiveError x code data rise) s = .next (s.on (e))) ∧
       (s.dev.canLive x.toNat = true → s.dev.canLec x.toNat code.toNat data = e → e.canGated x.toNat = false →
           rise.toNat < 2 → exec (.canReceiveError x code data rise) s = .next (s.on (e.canCount x.toNat (e.canTec
           x.toNat) (e.canRec x.toNat + if rise.toNat = 1 then 8 else 1)))) ∧
       (s.dev.canLive x.toNat = true → s.dev.canLec x.toNat code.toNat data = e → e.canGated x.toNat = false → 2 ≤
           rise.toNat → exec (.canReceiveError x code data rise) s = .next (s.on (e.canCount x.toNat (e.canTec x.toNat
           + 8) (e.canRec x.toNat)))))

/-- A read of a command at an address that is acknowledged counts, and sends the response of Table 17.2 with its PEC
when PEC is 1 and the last byte was acknowledged; REQCODE also pops the queue; at any other address nothing happens.
A write with a bad count sets UNKCMD, one with a bad PEC is counted with PECERR, and a good one goes to SMB_WBUF; an
unknown command sets UNKCMD. The alert response gives the lowest slot's address once arbitration is won. SMB_REQSET
queues a request. The time-outs set SMB_STAT[5] with entries 0xA010 and 0xA011. -/
def Obligations.SmbusCommands : Prop :=
  (∀ (s : State) (a : BitVec 7) (ack : Bool) (k : Nat),
     s.dev.asleep = false →
       (s.dev.smbAck a.toNat = none → exec (.smbIdent a ack) s = .next (s.on (s.dev))) ∧
       (s.dev.smbAck a.toNat = some k → exec (.smbIdent a ack) s = .next (s.on ((s.dev.smbLast k 0x00 true).send
           .smbus 0x00 (byteNats (if (s.dev.bit Reg.SMB_CFG 2 && ack) = true then (smbBlock 8 (wordsBytes [s.dev.rd
           Reg.SYS_ID, s.dev.rd Reg.SYS_FWVER])) ++ [pec8 ((leBytes 1 (2 * a.toNat) ++ leBytes 1 0x00 ++ leBytes 1 (2
           * a.toNat + 1)) ++ (smbBlock 8 (wordsBytes [s.dev.rd Reg.SYS_ID, s.dev.rd Reg.SYS_FWVER])))] else (smbBlock
           8 (wordsBytes [s.dev.rd Reg.SYS_ID, s.dev.rd Reg.SYS_FWVER])))))))) ∧
  (∀ (s : State) (a : BitVec 7) (ack : Bool) (k : Nat),
     s.dev.asleep = false →
       (s.dev.smbAck a.toNat = none → exec (.smbStatus a ack) s = .next (s.on (s.dev))) ∧
       (s.dev.smbAck a.toNat = some k → exec (.smbStatus a ack) s = .next (s.on ((s.dev.smbLast k 0x01 true).send
           .smbus 0x01 (byteNats (if (s.dev.bit Reg.SMB_CFG 2 && ack) = true then (leBytes 1 s.dev.smbStatus) ++ [pec8
           ((leBytes 1 (2 * a.toNat) ++ leBytes 1 0x01 ++ leBytes 1 (2 * a.toNat + 1)) ++ (leBytes 1
           s.dev.smbStatus))] else (leBytes 1 s.dev.smbStatus))))))) ∧
  (∀ (s : State) (a : BitVec 7) (ack : Bool) (k : Nat),
     s.dev.asleep = false →
       (s.dev.smbAck a.toNat = none → exec (.smbSoc a ack) s = .next (s.on (s.dev))) ∧
       (s.dev.smbAck a.toNat = some k → exec (.smbSoc a ack) s = .next (s.on ((s.dev.smbLast k 0x10 true).send .smbus
           0x10 (byteNats (if (s.dev.bit Reg.SMB_CFG 2 && ack) = true then (s.dev.smbResp 0x00 2) ++ [pec8 ((leBytes 1
           (2 * a.toNat) ++ leBytes 1 0x10 ++ leBytes 1 (2 * a.toNat + 1)) ++ (s.dev.smbResp 0x00 2))] else
           (s.dev.smbResp 0x00 2))))))) ∧
  (∀ (s : State) (a : BitVec 7) (ack : Bool) (k : Nat),
     s.dev.asleep = false →
       (s.dev.smbAck a.toNat = none → exec (.smbVstr a ack) s = .next (s.on (s.dev))) ∧
       (s.dev.smbAck a.toNat = some k → exec (.smbVstr a ack) s = .next (s.on ((s.dev.smbLast k 0x11 true).send .smbus
           0x11 (byteNats (if (s.dev.bit Reg.SMB_CFG 2 && ack) = true then (s.dev.smbResp 0x02 2) ++ [pec8 ((leBytes 1
           (2 * a.toNat) ++ leBytes 1 0x11 ++ leBytes 1 (2 * a.toNat + 1)) ++ (s.dev.smbResp 0x02 2))] else
           (s.dev.smbResp 0x02 2))))))) ∧
  (∀ (s : State) (a : BitVec 7) (ack : Bool) (k : Nat),
     s.dev.asleep = false →
       (s.dev.smbAck a.toNat = none → exec (.smbCurr a ack) s = .next (s.on (s.dev))) ∧
       (s.dev.smbAck a.toNat = some k → exec (.smbCurr a ack) s = .next (s.on ((s.dev.smbLast k 0x12 true).send .smbus
           0x12 (byteNats (if (s.dev.bit Reg.SMB_CFG 2 && ack) = true then (smbBlock 4 (s.dev.smbResp 0x04 4)) ++
           [pec8 ((leBytes 1 (2 * a.toNat) ++ leBytes 1 0x12 ++ leBytes 1 (2 * a.toNat + 1)) ++ (smbBlock 4
           (s.dev.smbResp 0x04 4)))] else (smbBlock 4 (s.dev.smbResp 0x04 4)))))))) ∧
  (∀ (s : State) (a : BitVec 7) (ack : Bool) (k : Nat),
     s.dev.asleep = false →
       (s.dev.smbAck a.toNat = none → exec (.smbSop a ack) s = .next (s.on (s.dev))) ∧
       (s.dev.smbAck a.toNat = some k → exec (.smbSop a ack) s = .next (s.on ((s.dev.smbLast k 0x13 true).send .smbus
           0x13 (byteNats (if (s.dev.bit Reg.SMB_CFG 2 && ack) = true then (smbBlock 16 (s.dev.smbResp 0x08 16)) ++
           [pec8 ((leBytes 1 (2 * a.toNat) ++ leBytes 1 0x13 ++ leBytes 1 (2 * a.toNat + 1)) ++ (smbBlock 16
           (s.dev.smbResp 0x08 16)))] else (smbBlock 16 (s.dev.smbResp 0x08 16)))))))) ∧
  (∀ (s : State) (a : BitVec 7) (ack : Bool) (k : Nat),
     s.dev.asleep = false →
       (s.dev.smbAck a.toNat = none → exec (.smbText a ack) s = .next (s.on (s.dev))) ∧
       (s.dev.smbAck a.toNat = some k → exec (.smbText a ack) s = .next (s.on ((s.dev.smbLast k 0x14 true).send .smbus
           0x14 (byteNats (if (s.dev.bit Reg.SMB_CFG 2 && ack) = true then (smbBlock 4 (s.dev.smbResp 0x18 4)) ++
           [pec8 ((leBytes 1 (2 * a.toNat) ++ leBytes 1 0x14 ++ leBytes 1 (2 * a.toNat + 1)) ++ (smbBlock 4
           (s.dev.smbResp 0x18 4)))] else (smbBlock 4 (s.dev.smbResp 0x18 4)))))))) ∧
  (∀ (s : State) (a : BitVec 7) (ack : Bool) (k : Nat),
     s.dev.asleep = false →
       (s.dev.smbAck a.toNat = none → exec (.smbVext a ack) s = .next (s.on (s.dev))) ∧
       (s.dev.smbAck a.toNat = some k → exec (.smbVext a ack) s = .next (s.on ((s.dev.smbLast k 0x15 true).send .smbus
           0x15 (byteNats (if (s.dev.bit Reg.SMB_CFG 2 && ack) = true then (smbBlock 8 (s.dev.smbResp 0x1C 8)) ++
           [pec8 ((leBytes 1 (2 * a.toNat) ++ leBytes 1 0x15 ++ leBytes 1 (2 * a.toNat + 1)) ++ (smbBlock 8
           (s.dev.smbResp 0x1C 8)))] else (smbBlock 8 (s.dev.smbResp 0x1C 8)))))))) ∧
  (∀ (s : State) (a : BitVec 7) (ack : Bool) (k : Nat),
     s.dev.asleep = false →
       (s.dev.smbAck a.toNat = none → exec (.smbCelldata a ack) s = .next (s.on (s.dev))) ∧
       (s.dev.smbAck a.toNat = some k → exec (.smbCelldata a ack) s = .next (s.on ((s.dev.smbLast k 0x21 true).send
           .smbus 0x21 (byteNats (if (s.dev.bit Reg.SMB_CFG 2 && ack) = true then (smbBlock 12 (s.dev.smbResp 0x24
           12)) ++ [pec8 ((leBytes 1 (2 * a.toNat) ++ leBytes 1 0x21 ++ leBytes 1 (2 * a.toNat + 1)) ++ (smbBlock 12
           (s.dev.smbResp 0x24 12)))] else (smbBlock 12 (s.dev.smbResp 0x24 12)))))))) ∧
  (∀ (s : State) (a : BitVec 7) (ack : Bool) (k : Nat),
     s.dev.asleep = false →
       (s.dev.smbAck a.toNat = none → exec (.smbEvent a ack) s = .next (s.on (s.dev))) ∧
       (s.dev.smbAck a.toNat = some k → exec (.smbEvent a ack) s = .next (s.on ((s.dev.smbLast k 0x30 true).send
           .smbus 0x30 (byteNats (if (s.dev.bit Reg.SMB_CFG 2 && ack) = true then (s.dev.smbCounted 0x30) ++ [pec8
           ((leBytes 1 (2 * a.toNat) ++ leBytes 1 0x30 ++ leBytes 1 (2 * a.toNat + 1)) ++ (s.dev.smbCounted 0x30))]
           else (s.dev.smbCounted 0x30))))))) ∧
  (∀ (s : State) (a : BitVec 7) (ack : Bool) (k : Nat),
     s.dev.asleep = false →
       (s.dev.smbAck a.toNat = none → exec (.smbUread a ack) s = .next (s.on (s.dev))) ∧
       (s.dev.smbAck a.toNat = some k → exec (.smbUread a ack) s = .next (s.on ((s.dev.smbLast k 0x40 true).send
           .smbus 0x40 (byteNats (if (s.dev.bit Reg.SMB_CFG 2 && ack) = true then (s.dev.smbCounted 0x60) ++ [pec8
           ((leBytes 1 (2 * a.toNat) ++ leBytes 1 0x40 ++ leBytes 1 (2 * a.toNat + 1)) ++ (s.dev.smbCounted 0x60))]
           else (s.dev.smbCounted 0x60))))))) ∧
  (∀ (s : State) (a : BitVec 7) (ack : Bool) (h : Nat) (t : List Nat) (e : Dev),
     s.dev.asleep = false →
       (s.dev.smbRead a.toNat 0x02 ack (leBytes 2 (nth s.dev.smb.queue 0)) = e → s.dev.smbAck a.toNat = none ∨ ack =
           false ∨ s.dev.smb.queue = [] → exec (.smbReqcode a ack) s = .next (s.on (e))) ∧
       (s.dev.smbRead a.toNat 0x02 ack (leBytes 2 (nth s.dev.smb.queue 0)) = e → (s.dev.smbAck a.toNat).isSome = true
           → ack = true → s.dev.smb.queue = h :: t → exec (.smbReqcode a ack) s = .next (s.on (e.smbQueue t)))) ∧
  (∀ (s : State) (a : BitVec 7) (count : Byte) (l : List Byte) (pec : Option Byte) (k : Nat),
     s.dev.asleep = false →
       (s.dev.smbAck a.toNat = none → exec (.smbUwrite a count l pec) s = .next (s.on (s.dev))) ∧
       (s.dev.smbAck a.toNat = some k → 32 < count.toNat ∨ count.toNat ≠ l.length → exec (.smbUwrite a count l pec) s
           = .next (s.on ((s.dev.smbLast k 0x41 false).flag Reg.SMB_STAT 2))) ∧
       (s.dev.smbAck a.toNat = some k → count.toNat ≤ 32 → count.toNat = l.length → (s.dev.smbLast k 0x41
           false).smbPecOk (leBytes 1 (2 * a.toNat) ++ leBytes 1 0x41 ++ [count] ++ l) pec = false → exec (.smbUwrite
           a count l pec) s = .next (s.on ((s.dev.smbLast k 0x41 false).smbPecErr))) ∧
       (s.dev.smbAck a.toNat = some k → count.toNat ≤ 32 → count.toNat = l.length → (s.dev.smbLast k 0x41
           false).smbPecOk (leBytes 1 (2 * a.toNat) ++ leBytes 1 0x41 ++ [count] ++ l) pec = true → exec (.smbUwrite a
           count l pec) s = .next (s.on ((s.dev.smbLast k 0x41 false).smbStore 0x41 l)))) ∧
  (∀ (s : State) (a : BitVec 7) (l : List Byte) (pec : Option Byte) (e : Dev),
     s.dev.asleep = false →
       (s.dev.smbWrite a.toNat 0x20 none l pec = e → (s.dev.smbAck a.toNat).isSome = true → l.length = 2 →
           s.dev.smbPecOk (leBytes 1 (2 * a.toNat) ++ leBytes 1 0x20 ++ l) pec = true → s.dev.manages 25 = true →
           s.dev.pwr.full = true → exec (.smbCellsel a l pec) s = .next (s.on
           ({ e with smb := { e.smb with sel := some (leNat l) } }))) ∧
       (s.dev.smbWrite a.toNat 0x20 none l pec = e → s.dev.smbAck a.toNat = none ∨ l.length ≠ 2 ∨ s.dev.smbPecOk
           (leBytes 1 (2 * a.toNat) ++ leBytes 1 0x20 ++ l) pec = false ∨ s.dev.manages 25 = false ∨ s.dev.pwr.full =
           false → exec (.smbCellsel a l pec) s = .next (s.on (e)))) ∧
  (∀ (d : Dev) (a : Nat) (l : List Byte) (pec : Option Byte) (k : Nat),
       (d.smbAck a = none → d.smbWrite a 0x20 none l pec = d) ∧
       (d.smbAck a = some k → l.length ≠ 2 → d.smbWrite a 0x20 none l pec = (d.smbLast k 0x20 false).flag Reg.SMB_STAT
           2) ∧
       (d.smbAck a = some k → l.length = 2 → (d.smbLast k 0x20 false).smbPecOk (leBytes 1 (2 * a) ++ leBytes 1 0x20 ++
           [] ++ l) pec = true → d.smbWrite a 0x20 none l pec = (d.smbLast k 0x20 false).smbStore 0x20 l)) ∧
  (∀ (s : State) (a : BitVec 7) (code : Byte) (read : Bool) (k : Nat),
     s.dev.asleep = false →
       (s.dev.smbAck a.toNat = none → exec (.smbUnknownCommand a code read) s = .next (s.on (s.dev))) ∧
       (s.dev.smbAck a.toNat = some k → exec (.smbUnknownCommand a code read) s = .next (s.on ((s.dev.smbLast k
           code.toNat read).flag Reg.SMB_STAT 2)))) ∧
  (∀ (s : State) (won ack : Bool) (l : List Byte),
     s.dev.asleep = false →
       (s.dev.alertLow = true → won = true → leBytes 1 (2 * s.dev.fld Reg.SMB_ADDR 6 0) = l → exec (.alertResponse won
           ack) s = .next (s.on (({ s.dev with smb := { s.dev.smb with alertWon := true } } : Dev).send .smbus 0x0C
           (byteNats (if (s.dev.bit Reg.SMB_CFG 2 && ack) = true then l ++ [pec8 (0x19 :: l)] else l))))) ∧
       (s.dev.alertLow = false ∨ won = false → exec (.alertResponse won ack) s = .next (s.on (s.dev)))) ∧
  (∀ (s : State) (src : Writer) (v : Word) (d : Dev),
     s.dev.asleep = false →
     s.dev.takes src Reg.SMB_REQSET = some d →
       exec (.smbReqset src v) s = .next (s.on (d.smbPush (fieldOf v 15 0)))) ∧
  (∀ (s : State),
     s.dev.asleep = false →
       (s.dev.fld Reg.SMB_RELTO 15 0 = 0 → exec (.sdaReleaseTimeout) s = .next (s.on (s.dev))) ∧
       (s.dev.fld Reg.SMB_RELTO 15 0 ≠ 0 → exec (.sdaReleaseTimeout) s = .next (s.on ((s.dev.flag Reg.SMB_STAT 5).hw
           0xA010 [])))) ∧
  (∀ (s : State),
     s.dev.asleep = false →
       exec (.sclLowTimeout) s = .next (s.on ((s.dev.flag Reg.SMB_STAT 5).hw 0xA011 [])))

/-- A frame at a port that is up is counted as dropped when too long or with a bad FCS, else its source is learned and
it is forwarded to the ports the switch chooses; a learned address older than ETH_AGE goes. The link delay is
measured at its interval, three misses mark the port not capable; Pdelay_Req is answered. Announce and Sync of the
domain enter the comparison and the servo; a Follow_Up completes its Sync; the servo stops without Sync. ARP and
ICMP for the host address are answered while the host port may transmit. A link change makes entry 0xA020. An angle
message that fails a check is counted, else its phase error goes to ANG_PERR. -/
def Obligations.EthernetCommands : Prop :=
  (∀ (s : State) (p2 : Bool) (l : List Byte) (fcsOk : Bool) (res : Word) (e : Dev),
     s.dev.asleep = false →
       (s.dev.ethUp (1 + b2n p2) = false → exec (.ethFrameReceive p2 l fcsOk res) s = .next (s.on (s.dev))) ∧
       (s.dev.ethUp (1 + b2n p2) = true → 1518 < l.length → exec (.ethFrameReceive p2 l fcsOk res) s = .next (s.on
           (s.dev.satInc (Reg.ETH_DROP (1 + b2n p2 - 1)) 15 0))) ∧
       (s.dev.ethUp (1 + b2n p2) = true → l.length ≤ 1518 → fcsOk = false → exec (.ethFrameReceive p2 l fcsOk res) s =
           .next (s.on (s.dev.satInc (Reg.ETH_DROP (1 + b2n p2 - 1)) 31 16))) ∧
       (s.dev.ethUp (1 + b2n p2) = true → l.length ≤ 1518 → fcsOk = true → s.dev.ethLearn (macOf l 6) (1 + b2n p2) = e
           → macOf l 0 = 0x0180C200000E ∨ e.bit Reg.ETH_CTL 1 = false → exec (.ethFrameReceive p2 l fcsOk res) s =
           .next (s.on (e))) ∧
       (s.dev.ethUp (1 + b2n p2) = true → l.length ≤ 1518 → fcsOk = true → s.dev.ethLearn (macOf l 6) (1 + b2n p2) = e
           → macOf l 0 ≠ 0x0180C200000E → e.bit Reg.ETH_CTL 1 = true → (ethType l).1 ≠ 0x88F7 ∨ e.ncap (1 + b2n p2) =
           false → exec (.ethFrameReceive p2 l fcsOk res) s = .next (s.on ((e.ethTargets (1 + b2n p2) (macOf l
           0)).foldl (fun (d : Dev) k => d.ethEgress l (1 + b2n p2) res.toNat k) e)))) ∧
  (∀ (s : State) (mac : BitVec 48) (p t : Nat),
     s.dev.asleep = false →
       (getO s.dev.eth.macs mac.toNat = none → exec (.addressAgeOut mac) s = .next (s.on (s.dev))) ∧
       (getO s.dev.eth.macs mac.toNat = some (p, t) → s.dev.fld Reg.ETH_AGE 15 0 ≠ 0 → t + secT (s.dev.fld Reg.ETH_AGE
           15 0) < s.dev.now → exec (.addressAgeOut mac) s = .next (s.on
           ({ s.dev with eth := { s.dev.eth with macs := putO s.dev.eth.macs mac.toNat none } }))) ∧
       (getO s.dev.eth.macs mac.toNat = some (p, t) → s.dev.fld Reg.ETH_AGE 15 0 = 0 ∨ s.dev.now ≤ t + secT (s.dev.fld
           Reg.ETH_AGE 15 0) → exec (.addressAgeOut mac) s = .next (s.on (s.dev)))) ∧
  (∀ (s : State) (p2 : Bool) (ans : Option (Int × Int × Int × Int)) (t1 t2 t3 t4 : Int) (a e : Dev),
     s.dev.asleep = false →
       (s.dev.bit Reg.ETH_TCCTL 0 = false ∨ s.dev.role = 3 ∨ s.dev.ethUp (1 + b2n p2) = false → exec
           (.peerDelayMeasure p2 ans) s = .next (s.on (s.dev))) ∧
       (s.dev.bit Reg.ETH_TCCTL 0 = true → s.dev.role ≠ 3 → s.dev.ethUp (1 + b2n p2) = true → s.dev.logPdi = -8 → exec
           (.peerDelayMeasure p2 ans) s = .next (s.on (s.dev.ncapSet (1 + b2n p2)))) ∧
       (s.dev.bit Reg.ETH_TCCTL 0 = true → s.dev.role ≠ 3 → s.dev.ethUp (1 + b2n p2) = true → s.dev.logPdi ≠ -8 →
           s.dev.running (Tm.pdly (1 + b2n p2)) = true → s.dev.due (Tm.pdly (1 + b2n p2)) (pow2T s.dev.logPdi) = false
           → exec (.peerDelayMeasure p2 ans) s = .next (s.on (s.dev))) ∧
       (s.dev.bit Reg.ETH_TCCTL 0 = true → s.dev.role ≠ 3 → s.dev.ethUp (1 + b2n p2) = true → s.dev.logPdi ≠ -8 →
           s.dev.running (Tm.pdly (1 + b2n p2)) = false ∨ s.dev.due (Tm.pdly (1 + b2n p2)) (pow2T s.dev.logPdi) = true
           → (s.dev.start (Tm.pdly (1 + b2n p2))).send .eth (256 * (1 + b2n p2) + 0x12) [] = a → ans = some (t1, t2,
           t3, t4) → (a.setFld (Reg.ETH_PDLY (1 + b2n p2 - 1)) 15 0 (clampI 0 65535 (((t4 - t1) - (t3 - t2) + 1) /
           2)).toNat).setBit Reg.ETH_STAT (3 + (1 + b2n p2)) false = e → exec (.peerDelayMeasure p2 ans) s = .next
           (s.on ({ e with eth := { e.eth with miss := putN e.eth.miss (1 + b2n p2) 0 } }))) ∧
       (s.dev.bit Reg.ETH_TCCTL 0 = true → s.dev.role ≠ 3 → s.dev.ethUp (1 + b2n p2) = true → s.dev.logPdi ≠ -8 →
           s.dev.running (Tm.pdly (1 + b2n p2)) = false ∨ s.dev.due (Tm.pdly (1 + b2n p2)) (pow2T s.dev.logPdi) = true
           → (s.dev.start (Tm.pdly (1 + b2n p2))).send .eth (256 * (1 + b2n p2) + 0x12) [] = a → ans = none →
           { a with eth := { a.eth with miss := putN a.eth.miss (1 + b2n p2) (getN a.eth.miss (1 + b2n p2) + 1) } } =
           e → exec (.peerDelayMeasure p2 ans) s = .next (s.on (if 3 ≤ getN a.eth.miss (1 + b2n p2) + 1 then e.ncapSet
           (1 + b2n p2) else e)))) ∧
  (∀ (s : State) (p2 : Bool) (req : List Byte) (rns rsec tns tsec : Nat),
     s.dev.asleep = false →
       (s.dev.role = 3 ∨ s.dev.ethUp (1 + b2n p2) = false ∨ s.dev.bit Reg.ETH_TCCTL 0 = false → exec (.pdelayReq p2
           req) s = .next (s.on (s.dev))) ∧
       (s.dev.role ≠ 3 → s.dev.ethUp (1 + b2n p2) = true → s.dev.bit Reg.ETH_TCCTL 0 = true → s.dev.clockAt
           (-(s.dev.fld (Reg.ETH_LAT (1 + b2n p2 - 1)) 15 0 : Int)) = (rns, rsec) → s.dev.clockAt (s.dev.fld
           (Reg.ETH_LAT (1 + b2n p2 - 1)) 31 16) = (tns, tsec) → exec (.pdelayReq p2 req) s = .next (s.on ((s.dev.send
           .eth (256 * (1 + b2n p2) + 0x13) (byteNats (slice req 20 12) ++ [rsec, rns])).send .eth (256 * (1 + b2n p2)
           + 0x1A) (byteNats (slice req 20 12) ++ [tsec, tns]))))) ∧
  (∀ (s : State) (p2 : Bool) (dom : Byte) (sender : BitVec 80) (seq : BitVec 16) (twoStep : Bool) (t1 corr : Int)
       (logInt : BitVec 8) (m : Master) (ns sec : Nat) (e : Dev),
     s.dev.asleep = false →
       (getO s.dev.eth.masters sender.toNat = none → exec (.sync p2 dom sender seq twoStep t1 corr logInt) s = .next
           (s.on (s.dev))) ∧
       (getO s.dev.eth.masters sender.toNat = some m → dom.toNat ≠ s.dev.pv Par.DOMAIN ∨ s.dev.eth.gm ≠ some
           sender.toNat ∨ s.dev.ncap (1 + b2n p2) = true → exec (.sync p2 dom sender seq twoStep t1 corr logInt) s =
           .next (s.on (s.dev))) ∧
       (getO s.dev.eth.masters sender.toNat = some m → dom.toNat = s.dev.pv Par.DOMAIN → s.dev.eth.gm = some
           sender.toNat → s.dev.ncap (1 + b2n p2) = false → s.dev.clockAt (-(s.dev.fld (Reg.ETH_LAT (1 + b2n p2 - 1))
           15 0 : Int)) = (ns, sec) → { s.dev.start Tm.sync with eth := { s.dev.eth with logSync := logInt.toInt } } =
           e → exec (.sync p2 dom sender seq twoStep t1 corr logInt) s = .next (s.on (if twoStep = true then
           { e with eth := { e.eth with sync := some (sender.toNat, seq.toNat, (sec : Int) * 1000000000 + ns, corr) } }
           else e.syncUpdate m.cls seq.toNat ((sec : Int) * 1000000000 + ns - t1 - sarI corr 16))))) ∧
  (∀ (s : State) (dom : Byte) (sender : BitVec 80) (seq : BitVec 16) (t1 corr : Int) (m : Master) (x n : Nat) (t2 c :
       Int),
     s.dev.asleep = false →
       (s.dev.eth.sync = none ∨ getO s.dev.eth.masters sender.toNat = none → exec (.followUp dom sender seq t1 corr) s
           = .next (s.on (s.dev))) ∧
       (s.dev.eth.sync = some (x, n, t2, c) → getO s.dev.eth.masters sender.toNat = some m → dom.toNat ≠ s.dev.pv
           Par.DOMAIN ∨ x ≠ sender.toNat ∨ n ≠ seq.toNat ∨ s.dev.eth.gm ≠ some sender.toNat → exec (.followUp dom
           sender seq t1 corr) s = .next (s.on (s.dev))) ∧
       (s.dev.eth.sync = some (x, n, t2, c) → getO s.dev.eth.masters sender.toNat = some m → dom.toNat = s.dev.pv
           Par.DOMAIN → x = sender.toNat → n = seq.toNat → s.dev.eth.gm = some sender.toNat → exec (.followUp dom
           sender seq t1 corr) s = .next (s.on (({ s.dev with eth := { s.dev.eth with sync := none } } :
           Dev).syncUpdate m.cls seq.toNat (t2 - t1 - sarI (c + corr) 16))))) ∧
  (∀ (s : State) (dom : Byte) (sender : BitVec 80) (p1 cls acc : Byte) (var : BitVec 16) (p2 : Byte) (gm : BitVec 64)
       (steps : BitVec 16) (logInt : BitVec 8) (e : Dev),
     s.dev.asleep = false →
       (dom.toNat ≠ s.dev.pv Par.DOMAIN → exec (.announce dom sender p1 cls acc var p2 gm steps logInt) s = .next
           (s.on (s.dev))) ∧
       (dom.toNat = s.dev.pv Par.DOMAIN →
           { s.dev with eth := { s.dev.eth with masters := putO s.dev.eth.masters sender.toNat (some { data := [p1.toNat, cls.toNat, acc.toNat, var.toNat, p2.toNat, gm.toNat, steps.toNat], cls := cls.toNat, seen := s.dev.now, logInt := logInt.toInt }) } }
           = e → exec (.announce dom sender p1 cls acc var p2 gm steps logInt) s = .next (s.on (if e.bestMaster =
           e.eth.gm then e else (({ e with eth := { e.eth with gm := e.bestMaster, sync := none, good := 0 } } :
           Dev).flag Reg.ETH_STAT 6).hw 0xA022 [])))) ∧
  (∀ (s : State),
     s.dev.asleep = false →
       (s.dev.running Tm.sync = true → s.dev.due Tm.sync (3 * pow2T s.dev.eth.logSync) = true → exec (.syncTimeout) s
           = .next (s.on ({ s.dev.stop Tm.sync with eth := { s.dev.eth with good := 0, sync := none } }))) ∧
       (s.dev.running Tm.sync = false ∨ s.dev.due Tm.sync (3 * pow2T s.dev.eth.logSync) = false → exec (.syncTimeout)
           s = .next (s.on (s.dev)))) ∧
  (∀ (s : State) (sender : BitVec 48) (target : Word),
     s.dev.asleep = false →
       (s.dev.hostTx = true → target.toNat = s.dev.pv Par.IPADDR → exec (.arpRequest sender target) s = .next (s.on
           (s.dev.send .eth 0x0806 [sender.toNat, target.toNat]))) ∧
       (s.dev.hostTx = false ∨ target.toNat ≠ s.dev.pv Par.IPADDR → exec (.arpRequest sender target) s = .next (s.on
           (s.dev)))) ∧
  (∀ (s : State) (x y : Word) (body : List Byte),
     s.dev.asleep = false →
       (s.dev.hostTx = true → y.toNat = s.dev.pv Par.IPADDR → exec (.icmpEcho x y body) s = .next (s.on (s.dev.send
           .eth 0x0801 (x.toNat :: byteNats body)))) ∧
       (s.dev.hostTx = false ∨ y.toNat ≠ s.dev.pv Par.IPADDR → exec (.icmpEcho x y body) s = .next (s.on (s.dev)))) ∧
  (∀ (s : State) (p2 up gig : Bool),
     s.dev.asleep = false →
       ((up = true ∧ s.dev.bit (Reg.ETH_PCFG (1 + b2n p2 - 1)) (b2n gig) = false) ∨ s.dev.ethUp (1 + b2n p2) = up →
           exec (.ethLinkChange p2 up gig) s = .next (s.on (s.dev))) ∧
       (up = true → s.dev.bit (Reg.ETH_PCFG (1 + b2n p2 - 1)) (b2n gig) = true → s.dev.ethUp (1 + b2n p2) ≠ up → exec
           (.ethLinkChange p2 up gig) s = .next (s.on (((s.dev.setBit Reg.ETH_STAT (1 + b2n p2 - 1) true).setBit
           Reg.ETH_STAT (1 + (1 + b2n p2)) gig).hw 0xA020 [nw (1 + b2n p2), nw 1]))) ∧
       (up = false → s.dev.ethUp (1 + b2n p2) ≠ up → exec (.ethLinkChange p2 up gig) s = .next (s.on ((s.dev.setBit
           Reg.ETH_STAT (1 + b2n p2 - 1) false).hw 0xA020 [nw (1 + b2n p2), nw 0])))) ∧
  (∀ (s : State) (l : List Byte) (seq : Word) (f : Nat) (tm now : Int),
     s.dev.asleep = false →
     leWord l 4 = seq →
     leNat (slice l 24 4) = f →
     (leNat (slice l 8 6) : Int) * 1000000000 + leNat (slice l 16 4) = tm →
     (s.dev.tim.sec : Int) * 1000000000 + s.dev.tim.ns = now →
       (l.length ≠ 32 ∨ leNat (slice l 0 1) ≠ 1 ∨ leNat (slice l 1 1) % 2 = 0 ∨ leNat (slice l 2 2) ≠ s.dev.pv
           Par.GRIDPRI ∨ f < 40000000 ∨ 70000000 < f ∨ now < tm ∨ tm + 100000000 < now ∨ s.dev.bit Reg.TIM_STAT 0 =
           false → exec (.angleMessage l) s = .next (s.on (s.dev.satInc Reg.ETH_ANGREJ 15 0))) ∧
       (l.length = 32 ∧ leNat (slice l 0 1) = 1 ∧ leNat (slice l 1 1) % 2 = 1 ∧ leNat (slice l 2 2) = s.dev.pv
           Par.GRIDPRI → s.dev.eth.angSeq.all (fun x => seqNewer seq x) = true → 40000000 ≤ f ∧ f ≤ 70000000 ∧ tm ≤
           now ∧ now ≤ tm + 100000000 ∧ s.dev.bit Reg.TIM_STAT 0 = true → s.dev.manages (blockOf Reg.ANG_PERR) = false
           ∨ s.dev.role = 2 → exec (.angleMessage l) s = .next (s.on
           ({ s.dev with eth := { s.dev.eth with angSeq := some seq } }))) ∧
       (l.length = 32 ∧ leNat (slice l 0 1) = 1 ∧ leNat (slice l 1 1) % 2 = 1 ∧ leNat (slice l 2 2) = s.dev.pv
           Par.GRIDPRI → s.dev.eth.angSeq.all (fun x => seqNewer seq x) = true → 40000000 ≤ f ∧ f ≤ 70000000 ∧ tm ≤
           now ∧ now ≤ tm + 100000000 ∧ s.dev.bit Reg.TIM_STAT 0 = true → s.dev.manages (blockOf Reg.ANG_PERR) = true
           ∧ s.dev.role ≠ 2 → exec (.angleMessage l) s =
             (let e := ({ s.dev with eth := { s.dev.eth with angSeq := some seq } } : Dev).timSnap;
             .next (s.on (e.angPerr (e.angError tm (leWord l 20) f))))))

/-- TAIL takes the value modulo NDESC and the ring runs; BASE is ignored while EN is 1 and else zeroes HEAD and TAIL;
CFG starts the ring or refuses a bad array with its error bit; a completion moves its data and the ring goes on; a
launch frame waits, leaves, or is late. A filtered input moves its counter one step a tick and takes its level at
the ends, an unfiltered one at once; an overloaded output is switched off with entry 0xC110; a test pulse faults an
output whose readback did not fall; the warm hold ends after TO; the end of KILL_IN restores output power. -/
def Obligations.DmaAndFieldCommands : Prop :=
  (∀ (s : State) (src : Writer) (r : BitVec 6) (v : Word) (d a e : Dev),
     s.dev.asleep = false →
     s.dev.takes src (Reg.DMA_TAIL r.toNat) = some d →
       (d.wr (Reg.DMA_TAIL r.toNat) (nw (fieldOf v 15 0 % d.dmaN r.toNat)) = a →
           { a with dma := { a.dma with halt := putB a.dma.halt r.toNat false } } = e → exec (.dmaTailWrite src r v) s
           = .next (s.on (e.dmaRun r.toNat (e.dmaN r.toNat))))) ∧
  (∀ (s : State) (src : Writer) (r : BitVec 6) (v : Word) (d : Dev),
     s.dev.asleep = false →
     s.dev.takes src (Reg.DMA_BASE r.toNat) = some d →
       (d.bit (Reg.DMA_CFG r.toNat) 31 = true → exec (.dmaBaseWrite src r v) s = .next (s.on (d))) ∧
       (d.bit (Reg.DMA_CFG r.toNat) 31 = false → exec (.dmaBaseWrite src r v) s = .next (s.on (((d.plainWrite
           (Reg.DMA_BASE r.toNat) v).wr (Reg.DMA_HEAD r.toNat) 0).wr (Reg.DMA_TAIL r.toNat) 0)))) ∧
  (∀ (s : State) (src : Writer) (r : BitVec 6) (v : Word) (d e : Dev),
     s.dev.asleep = false →
     s.dev.takes src (Reg.DMA_CFG r.toNat) = some d →
       (d.bit (Reg.DMA_CFG r.toNat) 31 = true → exec (.dmaEnable src r v) s = .next (s.on (d.setBit (Reg.DMA_CFG
           r.toNat) 31 (bitOf v 31)))) ∧
       (d.bit (Reg.DMA_CFG r.toNat) 31 = false → d.setFld (Reg.DMA_CFG r.toNat) 15 0 (fieldOf v 15 0) = e → bitOf v 31
           = false → exec (.dmaEnable src r v) s = .next (s.on (e))) ∧
       (d.bit (Reg.DMA_CFG r.toNat) 31 = false → d.setFld (Reg.DMA_CFG r.toNat) 15 0 (fieldOf v 15 0) = e → bitOf v 31
           = true → (e.dmaN r.toNat ≠ 0 ∧ dmaRegion ((e.rd (Reg.DMA_BASE r.toNat)).toNat / 16 * 16) (16 * e.dmaN
           r.toNat) = false) → exec (.dmaEnable src r v) s = .next (s.on (e.flag (dmaErr r.toNat) (r.toNat % 32)))) ∧
       (d.bit (Reg.DMA_CFG r.toNat) 31 = false → d.setFld (Reg.DMA_CFG r.toNat) 15 0 (fieldOf v 15 0) = e → bitOf v 31
           = true → e.dmaN r.toNat = 0 ∨ dmaRegion ((e.rd (Reg.DMA_BASE r.toNat)).toNat / 16 * 16) (16 * e.dmaN
           r.toNat) = true → exec (.dmaEnable src r v) s = .next (s.on ((e.setBit (Reg.DMA_CFG r.toNat) 31
           true).dmaRun r.toNat (e.dmaN r.toNat))))) ∧
  (∀ (s : State) (r : BitVec 6) (msg : List Byte) (e : Dev),
     s.dev.asleep = false →
       (s.dev.dmaComplete r.toNat msg = e → exec (.dmaCompletion r msg) s = .next (s.on (e.dmaRun r.toNat (e.dmaN
           r.toNat))))) ∧
  (∀ (d : Dev) (r : Nat) (msg : List Byte),
       (d.dmaReady r = false ∨ d.dmaLen r = 0 → d.dmaComplete r msg = d) ∧
       (d.dmaReady r = true → d.dmaLen r ≠ 0 → r < 4 → d.dmaComplete r msg = d.dmaHostOut r) ∧
       (d.dmaReady r = true → d.dmaLen r ≠ 0 → r = 9 → d.dmaComplete r msg = d.dmaUsbOut r) ∧
       (d.dmaReady r = true → d.dmaLen r ≠ 0 → 9 < r → d.dmaComplete r msg = d.dmaCopy r)) ∧
  (∀ (d : Dev) (r src dst n k : Nat),
       ((d.dmaW r 0).toNat = src → (d.dmaW r 2).toNat = dst → d.dmaLen r = n → dmaSource src n = false ∨ dmaRegion dst
           n = false → d.dmaCopy r = d.dmaEnd r 8 none none 0 false) ∧
       ((d.dmaW r 0).toNat = src → (d.dmaW r 2).toNat = dst → d.dmaLen r = n → dmaSource src n = true → dmaRegion dst
           n = true → d.eccAt src n = none → d.dmaCopy r = ((d.corrected src n).copyAsc src dst n).dmaEnd r 0 none
           none 0 false) ∧
       ((d.dmaW r 0).toNat = src → (d.dmaW r 2).toNat = dst → d.dmaLen r = n → dmaSource src n = true → dmaRegion dst
           n = true → d.eccAt src n = some k → d.dmaCopy r = ((d.corrected src n).copyAsc src dst k).dmaEnd r 10 none
           none 0 false)) ∧
  (∀ (s : State) (r : BitVec 2) (busy : Bool) (e : Dev),
     s.dev.asleep = false →
       (s.dev.launch r.toNat busy = e → exec (.launch r busy) s = .next (s.on (e.dmaRun r.toNat (e.dmaN r.toNat))))) ∧
  (∀ (d : Dev) (r : Nat) (busy : Bool),
       (4 ≤ r ∨ d.dmaReady r = false ∨ bitOf (d.dmaW r 3) 31 = false ∨ d.dmaLen r = 0 → d.launch r busy = d)) ∧
  (∀ (d : Dev) (r : Nat),
     r < 4 →
     d.dmaReady r = true →
     bitOf (d.dmaW r 3) 31 = true →
     d.dmaLen r ≠ 0 →
       (∀ busy, d.hostTx = false → d.launch r busy = d.dmaEnd r 2 none none (d.dmaW r 3).toNat false) ∧
       (∀ busy st, d.hostTx = true → d.dmaBad r = some st → d.launch r busy = d.dmaEnd r st none none (d.dmaW r
           3).toNat false) ∧
       (∀ busy, d.hostTx = true → d.dmaBad r = none → 0 < d.launchIn r → d.launch r busy = d) ∧
       (∀ busy, d.hostTx = true → d.dmaBad r = none → d.launchIn r ≤ 0 → 0 ≤ d.launchIn r + d.fld Reg.ETH_LATE 23 0 →
           d.launch r busy = d.hostSend r 0) ∧
       (d.hostTx = true → d.dmaBad r = none → d.launchIn r ≤ 0 → d.launchIn r + d.fld Reg.ETH_LATE 23 0 < 0 → d.launch
           r true = (d.flag Reg.ETH_STAT 7).hostSend r 1 ∧ d.launch r false = ((d.flag Reg.ETH_STAT 7).hw 0xA023 [nw
           r]).dmaEnd r 1 none none (d.dmaW r 3).toNat false)) ∧
  (∀ (s : State) (n : BitVec 5) (level : Bool) (e : Dev),
     s.dev.asleep = false →
       (20 ≤ n.toNat → exec (.inputFilterTick n level) s = .next (s.on (s.dev))) ∧
       (n.toNat < 20 → { s.dev with fio := { s.dev.fio with coupled := putB s.dev.fio.coupled n.toNat level } } = e →
           e.unfiltered n.toNat = true → exec (.inputFilterTick n level) s = .next (s.on (e.inputSet n.toNat level)))
           ∧
       (n.toNat < 20 → { s.dev with fio := { s.dev.fio with coupled := putB s.dev.fio.coupled n.toNat level } } = e →
           e.unfiltered n.toNat = false → e.running (Tm.filt n.toNat) = true ∧ e.due (Tm.filt n.toNat) (usT (e.fld
           (Reg.FIO_INCFG n.toNat) 25 16)) = false → exec (.inputFilterTick n level) s = .next (s.on (e))) ∧
       (n.toNat < 20 → { s.dev with fio := { s.dev.fio with coupled := putB s.dev.fio.coupled n.toNat level } } = e →
           e.unfiltered n.toNat = false → e.running (Tm.filt n.toNat) = false ∨ e.due (Tm.filt n.toNat) (usT (e.fld
           (Reg.FIO_INCFG n.toNat) 25 16)) = true → exec (.inputFilterTick n level) s = .next (s.on ((e.start (Tm.filt
           n.toNat)).filterStep n.toNat)))) ∧
  (∀ (d e : Dev) (n c : Nat),
       ((if getB d.fio.coupled n then min (d.fld (Reg.FIO_INCFG n) 7 0) (getN d.fio.count n + 1) else min (d.fld
           (Reg.FIO_INCFG n) 7 0) (getN d.fio.count n - 1)) = c →
           { d with fio := { d.fio with count := putN d.fio.count n c } } = e → d.filterStep n = (if c = d.fld
           (Reg.FIO_INCFG n) 7 0 then e.inputSet n true else if c = 0 then e.inputSet n false else e))) ∧
  (∀ (s : State) (k : BitVec 3),
     s.dev.asleep = false →
       (s.dev.outOn k.toNat = true → exec (.outputOverload k) s = .next (s.on (((s.dev.flag Reg.FIO_OFLT k.toNat).flag
           Reg.FIO_STAT 0).hw 0xC110 [nw k.toNat]))) ∧
       (s.dev.outOn k.toNat = false → exec (.outputOverload k) s = .next (s.on (s.dev)))) ∧
  (∀ (s : State) (k : BitVec 3) (fell : BitVec 2) (e : Dev),
     s.dev.asleep = false →
       (s.dev.fld Reg.FIO_TP 15 0 = 0 ∨ s.dev.fld Reg.FIO_TP 24 16 = 0 ∨ s.dev.outLead k.toNat ≠ k.toNat ∨ s.dev.outOn
           k.toNat = false → exec (.outputTestPulse k fell) s = .next (s.on (s.dev))) ∧
       (s.dev.fld Reg.FIO_TP 15 0 ≠ 0 → s.dev.fld Reg.FIO_TP 24 16 ≠ 0 → s.dev.outLead k.toNat = k.toNat → s.dev.outOn
           k.toNat = true → s.dev.running (Tm.pulse k.toNat) = true → s.dev.due (Tm.pulse k.toNat) (msT (s.dev.fld
           Reg.FIO_TP 15 0)) = false → exec (.outputTestPulse k fell) s = .next (s.on (s.dev))) ∧
       (s.dev.fld Reg.FIO_TP 15 0 ≠ 0 → s.dev.fld Reg.FIO_TP 24 16 ≠ 0 → s.dev.outLead k.toNat = k.toNat → s.dev.outOn
           k.toNat = true → s.dev.running (Tm.pulse k.toNat) = false ∨ s.dev.due (Tm.pulse k.toNat) (msT (s.dev.fld
           Reg.FIO_TP 15 0)) = true → (s.dev.start (Tm.pulse k.toNat)).outStuck k.toNat (fell.getLsbD 0) = e → exec
           (.outputTestPulse k fell) s = .next (s.on (if e.bit Reg.FIO_PAR (k.toNat / 2) then e.outStuck (k.toNat + 1)
           (fell.getLsbD 1) else e)))) ∧
  (∀ (d : Dev) (k : Nat) (fell : Bool),
       (d.outOn k = true → fell = false → d.outStuck k fell = ((d.flag Reg.FIO_OFLT (8 + k)).flag Reg.FIO_STAT 1).hw
           0xC111 [nw k]) ∧
       (d.outOn k = false ∨ fell = true → d.outStuck k fell = d)) ∧
  (∀ (s : State),
     s.dev.asleep = false →
       (s.dev.fio.warmHold = true → s.dev.due Tm.holdWarm (secT (s.dev.fld Reg.FIO_HOLDWARM 31 16)) = true → exec
           (.holdWarmTimeout) s = .next (s.on (({ s.dev with fio := { s.dev.fio with warmHold := false } } : Dev).stop
           Tm.holdWarm))) ∧
       (s.dev.fio.warmHold = false ∨ s.dev.due Tm.holdWarm (secT (s.dev.fld Reg.FIO_HOLDWARM 31 16)) = false → exec
           (.holdWarmTimeout) s = .next (s.on (s.dev)))) ∧
  (∀ (s : State),
     s.dev.asleep = false →
       exec (.killInRelease) s = .next (s.on ((({ s.dev with pins := { s.dev.pins with killIn := false } } :
           Dev).setBit Reg.TW_STAT 8 false).powerRefresh)))

/-- A feed lost or good shows in PWR_STAT with entries 0xC001 and 0xC002, and the loss of the last feed enters Hold-up;
RIDE enters flush mode; RETDB with a good feed leaves Hold-up; the bank charges, closes NVC and opens the contactors
once at 11.0 V, and leads to Off at 10.0 V. The causes of resets act as Table 22.2 says: power-on, brown-out,
thermal restart, wake, watchdog, SWRST and RST_N; the thermal cut needs no power. Standby is entered after the idle
delay and by STBY. Bring-up runs once after a reset and full service once after bring-up. A die measurement shows
the six sensors, the median of those not excluded, the highest so far, and the thermal levels with their hysteresis;
fewer than three sensors count as Crimson. A test runs only at full service in an idle window and a failure makes
entry 0xC070. The daily record is made at the first idle window after 24 h. A register write at a word of the
peripheral region does what its block's registers say once the block takes it, and any other address is left alone.
The front LEDs show the module's state, the first row of Table 23.4 that applies, and are dark in Standby and Off. -/
def Obligations.PowerCommands : Prop :=
  (∀ (s : State) (fb : Bool) (mv : BitVec 16) (e f : Dev),
       (((s.dev.feedShow fb mv.toNat).setBit Reg.PWR_STAT (feedBit fb) false).stop (Tm.feed fb) = e → s.dev.bit
           Reg.PWR_STAT (feedBit fb) = false ∨ e.asleep = true → exec (.feedLost fb mv) s = .next (s.on (e))) ∧
       (((s.dev.feedShow fb mv.toNat).setBit Reg.PWR_STAT (feedBit fb) false).stop (Tm.feed fb) = e → s.dev.bit
           Reg.PWR_STAT (feedBit fb) = true → e.asleep = false → (e.flag Reg.PWR_STAT 0).hw 0xC001 [nw (b2n fb)] = f →
           f.feedsGood = true ∨ f.holdFromHere = false → exec (.feedLost fb mv) s = .next (s.on (f))) ∧
       (((s.dev.feedShow fb mv.toNat).setBit Reg.PWR_STAT (feedBit fb) false).stop (Tm.feed fb) = e → s.dev.bit
           Reg.PWR_STAT (feedBit fb) = true → e.asleep = false → (e.flag Reg.PWR_STAT 0).hw 0xC001 [nw (b2n fb)] = f →
           f.feedsGood = false → f.holdFromHere = true → exec (.feedLost fb mv) s = .next (s.on (f.holdEntry)))) ∧
  (∀ (s : State) (fb : Bool) (mv : BitVec 16) (e f : Dev),
       ((s.dev.feedShow fb mv.toNat).setBit Reg.PWR_STAT (feedBit fb) true = e → s.dev.bit Reg.PWR_STAT (feedBit fb) =
           true → exec (.feedGood fb mv) s = .next (s.on (e))) ∧
       ((s.dev.feedShow fb mv.toNat).setBit Reg.PWR_STAT (feedBit fb) true = e → s.dev.bit Reg.PWR_STAT (feedBit fb) =
           false → e.start (Tm.feed fb) = f → f.asleep = true → exec (.feedGood fb mv) s = .next (s.on (f))) ∧
       ((s.dev.feedShow fb mv.toNat).setBit Reg.PWR_STAT (feedBit fb) true = e → s.dev.bit Reg.PWR_STAT (feedBit fb) =
           false → e.start (Tm.feed fb) = f → f.asleep = false → exec (.feedGood fb mv) s = .next (s.on (if (f.hw
           0xC002 [nw (b2n fb)]).fld Reg.PWR_HUCFG 15 0 = 0 then (f.hw 0xC002 [nw (b2n fb)]).holdReturn else f.hw
           0xC002 [nw (b2n fb)])))) ∧
  (∀ (s : State),
     s.dev.asleep = false →
       (s.dev.pwrState = 4 → s.dev.due Tm.ride (msT (s.dev.fld Reg.PWR_HUCFG 31 16)) = true → exec (.rideExpiry) s =
           .next (s.on (s.dev.flushMode))) ∧
       (s.dev.pwrState ≠ 4 ∨ s.dev.due Tm.ride (msT (s.dev.fld Reg.PWR_HUCFG 31 16)) = false → exec (.rideExpiry) s =
           .next (s.on (s.dev)))) ∧
  (∀ (d : Dev),
       (d.bit Reg.PWR_STAT 6 = true → d.flushMode = d) ∧
       (d.bit Reg.PWR_STAT 6 = false → d.flushMode = ((d.setBit Reg.PWR_STAT 6 true).hw 0xC011
           []).programShed.convertOff.fansWatch)) ∧
  (∀ (s : State),
     s.dev.asleep = false →
       (s.dev.pwrState = 4 → exec (.bankCharged) s = .next (s.on (s.dev))) ∧
       (s.dev.pwrState ≠ 4 → exec (.bankCharged) s = .next (s.on ((s.dev.wr Reg.PWR_BANK 24000).setBit Reg.PWR_STAT 5
           true)))) ∧
  (∀ (s : State),
     s.dev.asleep = false →
       (s.dev.pwrState ≠ 4 ∨ s.dev.bit Reg.PWR_STAT 2 = true → exec (.bankNvClose) s = .next (s.on (s.dev))) ∧
       (s.dev.pwrState = 4 → s.dev.bit Reg.PWR_STAT 2 = false → exec (.bankNvClose) s = .next (s.on ((((s.dev.wr
           Reg.PWR_BANK 11000).setBit Reg.PWR_STAT 2 true).nvcClose true).openReq)))) ∧
  (∀ (s : State) (e : Dev),
     s.dev.asleep = false →
       (s.dev.pwrState ≠ 4 → exec (.bankExhausted) s = .next (s.on (s.dev))) ∧
       (s.dev.pwrState = 4 → (if s.dev.nvc.closedBank = true then s.dev else s.dev.bankClose).nvcUrgent .mark [] = e → exec (.bankExhausted) s = .next (s.on ((let f := ((e.unitsOut (e.nvc.urgent.length + 1)).wr Reg.PWR_BANK 10000).setBit Reg.PWR_STAT 5 false;
           ({ f with pwr := { f.pwr with resetWait := none } } : Dev).standby 0))))) ∧
  (∀ (s : State),
     s.dev.asleep = false →
       (s.dev.pwrState = 4 → (s.dev.bit Reg.PWR_STAT 3 = true ∧ s.dev.due (Tm.feed false) (msT (s.dev.fld
           Reg.PWR_HUCFG 15 0)) = true) ∨ (s.dev.bit Reg.PWR_STAT 4 = true ∧ s.dev.due (Tm.feed true) (msT (s.dev.fld
           Reg.PWR_HUCFG 15 0)) = true) → exec (.holdUpReturn) s = .next (s.on (s.dev.holdLeave))) ∧
       (s.dev.pwrState ≠ 4 → exec (.holdUpReturn) s = .next (s.on (s.dev)))) ∧
  (∀ (s : State),
     s.dev.asleep = false →
       (s.dev.pwrState ≠ 2 → s.dev.pwrState ≠ 3 → exec (.standbyIdleEntry) s = .next (s.on (s.dev))) ∧
       (s.dev.pwrState = 2 ∨ s.dev.pwrState = 3 → s.dev.est.trPhase = 3 → exec (.standbyIdleEntry) s = .next (s.on
           (s.dev.idleEnd))) ∧
       (s.dev.pwrState = 2 ∨ s.dev.pwrState = 3 → s.dev.est.trPhase = 0 → s.dev.fld Reg.PWR_IDLETO 15 0 ≠ 0 →
           s.dev.idleOk = true → s.dev.due Tm.idle (secT (60 * s.dev.fld Reg.PWR_IDLETO 15 0)) = true → exec
           (.standbyIdleEntry) s = .next (s.on (((s.dev.setTr 3).stoAsk 6).stoService.idleEnd))) ∧
       (s.dev.pwrState = 2 ∨ s.dev.pwrState = 3 → s.dev.est.trPhase ≠ 3 → s.dev.est.trPhase ≠ 0 ∨ s.dev.fld
           Reg.PWR_IDLETO 15 0 = 0 ∨ s.dev.idleOk = false ∨ s.dev.due Tm.idle (secT (60 * s.dev.fld Reg.PWR_IDLETO 15
           0)) = false → exec (.standbyIdleEntry) s = .next (s.on (s.dev)))) ∧
  (∀ (d : Dev),
       (d.stoDone = true → d.idleEnd = ((d.setTr 0).ringSleep.fw 0xC040 []).standby 5) ∧
       (d.stoDone = false → d.idleEnd = d)) ∧
  (∀ (s : State) (q : BitVec 2) (a : BitVec 7) (e : Dev),
       ((if q.toNat = 2 then s.dev.setBit Reg.SVC_STAT 0 true else s.dev) = e → q.toNat ≠ 1 ∨ s.dev.wakeMatch a.toNat
           = true → e.pwrState = 5 → q.toNat < 3 → e.bit Reg.PWR_WAKE q.toNat = true → exec (.standbyWake q a) s =
           .next (s.on (e.resetTo 5))) ∧
       ((if q.toNat = 2 then s.dev.setBit Reg.SVC_STAT 0 true else s.dev) = e → q.toNat ≠ 1 ∨ s.dev.wakeMatch a.toNat
           = true → e.pwrState = 6 → q.toNat = 0 ∨ (q.toNat = 1 ∧ e.bit Reg.SMB_CFG 4 = true) → exec (.standbyWake q
           a) s = .next (s.on (e.resetTo 5))) ∧
       ((if q.toNat = 2 then s.dev.setBit Reg.SVC_STAT 0 true else s.dev) = e → e.pwrState ≠ 5 → e.pwrState ≠ 6 → exec
           (.standbyWake q a) s = .next (s.on (e)))) ∧
  (∀ (s : State) (x : Bool),
       (x = true → exec (.wakeChg x) s = .next (s.on (({ s.dev with pins := { s.dev.pins with wakeChg := true } } :
           Dev).wakeBy 0 0))) ∧
       (x = false → exec (.wakeChg x) s = .next (s.on ({ s.dev with pins := { s.dev.pins with wakeChg := false } })))) ∧
  (∀ (s : State),
       (s.dev.pwrState ≠ 0 ∨ s.dev.pwr.cutMark = true ∨ s.dev.feedsGood = false → exec (.powerOn) s = .next (s.on
           (s.dev))) ∧
       (s.dev.pwrState = 0 → s.dev.pwr.cutMark = false → s.dev.feedsGood = true → exec (.powerOn) s = .next (s.on (if
           s.dev.pwr.exhMark = true then s.dev.countsBack.resetTo 3 else s.dev.countsBack.resetTo 1)))) ∧
  (∀ (s : State),
     s.dev.asleep = false →
       (s.dev.feedsGood = true → exec (.brownOut) s = .next (s.on (s.dev.resetTo 2))) ∧
       (s.dev.feedsGood = false → exec (.brownOut) s = .next (s.on (s.dev)))) ∧
  (∀ (s : State) (src : Writer) (v : Word) (d : Dev),
     s.dev.asleep = false →
     s.dev.takes src Reg.PWR_WDT = some d →
       exec (.watchdogKick src v) s = .next (s.on (d.wdtWrite (withField v 31 24 0xA5)))) ∧
  (∀ (d e : Dev) (v : Word),
       (d.plainWrite Reg.PWR_WDT v = e → fieldOf v 31 24 = 0xA5 ∨ (d.fld Reg.PWR_WDT 15 0 = 0 ∧ e.fld Reg.PWR_WDT 15 0
           ≠ 0) → d.wdtWrite v = e.start Tm.wdt) ∧
       (d.plainWrite Reg.PWR_WDT v = e → fieldOf v 31 24 ≠ 0xA5 → d.fld Reg.PWR_WDT 15 0 ≠ 0 → d.wdtWrite v = e)) ∧
  (∀ (s : State),
     s.dev.asleep = false →
       (s.dev.fld Reg.PWR_WDT 15 0 ≠ 0 → s.dev.due Tm.wdt (msT (s.dev.fld Reg.PWR_WDT 15 0)) = true → exec
           (.watchdogExpiry) s = .next (s.on (s.dev.resetAsk 8))) ∧
       (s.dev.fld Reg.PWR_WDT 15 0 = 0 ∨ s.dev.due Tm.wdt (msT (s.dev.fld Reg.PWR_WDT 15 0)) = false → exec
           (.watchdogExpiry) s = .next (s.on (s.dev)))) ∧
  (∀ (s : State) (src : Writer) (v : Word) (d : Dev),
     s.dev.asleep = false →
     s.dev.takes src Reg.PWR_CTL = some d →
       exec (.softwareReset src v) s = .next (s.on (d.resetAsk 9))) ∧
  (∀ (s : State) (src : Writer) (v : Word) (d : Dev),
     s.dev.asleep = false →
     s.dev.takes src Reg.PWR_CTL = some d →
       (bitOf v 0 = false → exec (.stby src v) s = .next (s.on (d.standby 5))) ∧
       (bitOf v 0 = true → exec (.stby src v) s = .next (s.on (d.resetAsk 9)))) ∧
  (∀ (s : State) (x : Bool),
       (x = true → exec (.rstNReset x) s = .next (s.on ({ s.dev with pwr := { s.dev.pwr with rstHeld := false } }))) ∧
       (x = false → s.dev.asleep = true → exec (.rstNReset x) s = .next (s.on (s.dev))) ∧
       (x = false → s.dev.asleep = false → exec (.rstNReset x) s = .next (s.on
           (({ s.dev with pwr := { s.dev.pwr with rstHeld := true } } : Dev).resetAsk 10)))) ∧
  (∀ (s : State) (e : Dev),
       (s.dev.pwrState = 0 → exec (.thermalCut) s = .next (s.on (s.dev))) ∧
       (s.dev.pwrState ≠ 0 → s.dev.nvcReset true = e → exec (.thermalCut) s = .next (s.on
           (({ e with nvc := NvcSt.reset, pwr := { e.pwr with cutMark := true, resetWait := none } } : Dev).standby
           0)))) ∧
  (∀ (s : State),
       (s.dev.pwrState = 0 → s.dev.pwr.cutMark = true → s.dev.feedsGood = true → exec (.thermalRestart) s = .next
           (s.on (s.dev.resetTo 4))) ∧
       (s.dev.pwrState ≠ 0 ∨ s.dev.pwr.cutMark = false ∨ s.dev.feedsGood = false → exec (.thermalRestart) s = .next
           (s.on (s.dev)))) ∧
  (∀ (s : State),
     s.dev.asleep = false →
       (s.dev.running Tm.save = true → s.dev.due Tm.save (secT 10) = false → exec (.alwaysOnSave) s = .next (s.on
           (s.dev))) ∧
       (s.dev.running Tm.save = false ∨ s.dev.due Tm.save (secT 10) = true → exec (.alwaysOnSave) s = .next (s.on
           (s.dev.alwaysOnSave)))) ∧
  (∀ (s : State),
     s.dev.asleep = false →
       (s.dev.role ≠ 2 → exec (.twinResyncReset) s = .next (s.on (s.dev))) ∧
       (s.dev.role = 2 → s.dev.running Tm.drop = true → exec (.twinResyncReset) s = .next (s.on (s.dev.resetAsk 11)))
           ∧
       (s.dev.role = 2 → s.dev.running Tm.drop = false → s.dev.tw.newImg = false → exec (.twinResyncReset) s = .next
           (s.on (s.dev))) ∧
       (s.dev.role = 2 → s.dev.running Tm.drop = false → s.dev.tw.newImg = true → s.dev.slotOk 2 (s.dev.attic 2) =
           false → exec (.twinResyncReset) s = .next (s.on ({ s.dev with tw := { s.dev.tw with newImg := false } })))
           ∧
       (s.dev.role = 2 → s.dev.running Tm.drop = false → s.dev.tw.newImg = true → s.dev.slotOk 2 (s.dev.attic 2) =
           true → exec (.twinResyncReset) s = .next (s.on ((s.dev.slotSave (recOf (recFwAct s.dev.slotRecord)
           (recFwPend s.dev.slotRecord) (recTrial s.dev.slotRecord) (recPgAct s.dev.slotRecord) true)).resetAsk 11)))) ∧
  (∀ (s : State) (found : Option (Byte × List EnumNode × BitVec 24)) (e f : Dev) (c : Option Nat),
     s.dev.asleep = false →
       (s.dev.bit Reg.LIM_STAT 0 = true → exec (.bringUp found) s = .next (s.on (s.dev))) ∧
       (s.dev.bit Reg.LIM_STAT 0 = false → s.dev.romSetup found = e → e.slotBoot = (f, c) → exec (.bringUp found) s =
           .next (s.on (if e.bit Reg.SVC_STAT 3 = true then (f.wr Reg.SYS_FWVER 0).wr Reg.SYS_COMPAT 0 else
           f.romChoice (recFwAct e.slotRecord) c)))) ∧
  (∀ (s : State) (a b c f g : Dev),
     s.dev.asleep = false →
       (s.dev.pwrState ≠ 1 ∨ s.dev.pwr.full = true ∨ s.dev.bit Reg.LIM_STAT 0 = false → exec (.fullService) s = .next
           (s.on (s.dev))) ∧
       (s.dev.pwrState = 1 → s.dev.pwr.full = false → s.dev.bit Reg.LIM_STAT 0 = true →
           { s.dev with pwr := { s.dev.pwr with full := true }, ang := { s.dev.ang with started := true } } = a →
           ((a.setFld Reg.PWR_STAT 15 13 (if a.bit Reg.HLT_STAT 1 = true then 3 else 2)).setBit Reg.HLT_STAT 0 (a.bit
           Reg.HLT_STAT 1)).heldTake.blkAll = b → ((if b.managed.any (fun m => blockOf m.1 = 9) = true then b.mapSave
           else b).stoLoad.angReturn.programLoad.programSet.regionsSet) = g → (if g.cycStarts = 0 then g else
           g.ttBuild).setBit Reg.SCC_CTL 1 true = c → ((List.range 11).foldl (fun (d : Dev) n => d.start (Tm.test n))
           (((((c.canStart 0).canStart 1).canProfileSet).wdtoSend.healTry.start Tm.service).start Tm.window)).homeAll
           = f → exec (.fullService) s = .next (s.on (if f.bit Reg.CYC_CTL 4 = true then f.progStart else f)))) ∧
  (∀ (s : State) (t0 t1 t2 t3 t4 t5 : BitVec 16) (l q kept : List Int) (few : Bool) (t : Int) (a c e f : Dev),
     s.dev.asleep = false →
       ([t0.toInt, t1.toInt, t2.toInt, t3.toInt, t4.toInt, t5.toInt] = l → l.foldl (fun a x => insertI x a) [] = q →
           l.filter (fun t => !excluded q t) = kept → decide (kept.length < 3) = few → maxI (-32768) (if few = true
           then l else kept) = t → (l.zipIdx.foldl (fun (d : Dev) e => d.sensorSet e.2 e.1 (excluded q e.1)) s.dev).wr
           Reg.HLT_TDIE (nw (t % 65536).toNat) = a → (if sx 16 (a.rd Reg.HLT_TMAX).toNat < t then a.wr Reg.HLT_TMAX
           (nw (t % 65536).toNat) else a) = c →
           { c with hlt := { c.hlt with hist := putN c.hlt.hist (dieBin t) (getN c.hlt.hist (dieBin t) + 1) } } = e →
           e.ochreTherm (if e.bit Reg.HLT_STAT 1 = true then decide (degC 105 ≤ t) else decide (degC 110 ≤ t)) = f →
           exec (.dieMeasurement t0 t1 t2 t3 t4 t5) s = .next (s.on (f.crimTherm (few || (if f.bit Reg.HLT_STAT 2 =
           true then decide (degC 120 ≤ t) else decide (degC 125 ≤ t))))))) ∧
  (∀ (s : State) (n : BitVec 4) (pass : Bool) (vals : List (Nat × Int)) (a c e f : Dev),
     s.dev.asleep = false →
       (s.dev.pwr.full = false → exec (.inServiceTest n pass vals) s = .next (s.on (s.dev))) ∧
       (s.dev.pwr.full = true → (List.range 11).foldl (fun (d : Dev) k => d.testMissed k) s.dev = a → (if a.slicing &&
           !a.running Tm.sliced then (a.start Tm.sliced).fw 0xC071 [0] else a) = c → c.testOk n.toNat = false ∨ (c.bit
           Reg.TT_STAT 5 = false ∧ c.slicing = false) → exec (.inServiceTest n pass vals) s = .next (s.on (c))) ∧
       (s.dev.pwr.full = true → (List.range 11).foldl (fun (d : Dev) k => d.testMissed k) s.dev = a → (if a.slicing &&
           !a.running Tm.sliced then (a.start Tm.sliced).fw 0xC071 [0] else a) = c → c.testOk n.toNat = true → c.bit
           Reg.TT_STAT 5 = true ∨ c.slicing = true →
           ({ c.start (Tm.test n.toNat) with hlt := { c.hlt with missed := putB c.hlt.missed n.toNat false, vals := if n.toNat = 3 then c.hlt.vals else c.hlt.vals ++ vals } }
           : Dev) = f → (if n.toNat = 3 then f.limTestAll (if pass = true then [] else vals) else if n.toNat = 5 then
           f.scrub else f) = e → exec (.inServiceTest n pass vals) s = .next (s.on (if pass = true then e else (e.wr
           Reg.HLT_TESTSTAT (nw (0x80000000 + n.toNat))).fw 0xC070 [nw n.toNat])))) ∧
  (∀ (s : State) (ms : Nat) (a c f : Dev) (eol : Option Nat),
     s.dev.asleep = false →
       (s.dev.pwr.full = false ∨ s.dev.bit Reg.TT_STAT 5 = false ∨ (s.dev.rd Reg.PWR_OPT_LO).toNat + 2 ^ 32 *
           s.dev.fld Reg.PWR_OPT_HI 15 0 < s.dev.hlt.dayAt + 86400000 → exec (.ledgerRecord) s = .next (s.on (s.dev)))
           ∧
       (s.dev.pwr.full = true → s.dev.bit Reg.TT_STAT 5 = true → (s.dev.rd Reg.PWR_OPT_LO).toNat + 2 ^ 32 * s.dev.fld Reg.PWR_OPT_HI 15 0 = ms → s.dev.hlt.dayAt + 86400000 ≤ ms → s.dev.mramWrite (ledgerAt (s.dev.ledgerW 1)) s.dev.ledgerRecord = a → (a.ledgerSave (s.dev.ledgerW 1 + 1) (if s.dev.ledgerW 1 = 0 then s.dev.ledgerRecord else a.ledgerFirst)).fw 0xC060 [] = c → (List.range 7).foldl (fun (x : Dev × Option Nat) i => (((x.1.planOne (s.dev.ledgerW 1 + 1) (i + 1)).1), sooner x.2 (x.1.planOne (s.dev.ledgerW 1 + 1) (i + 1)).2)) (c, none) = (f, eol) → exec (.ledgerRecord) s = .next (s.on ((let g := f.wr Reg.HLT_EOL (nw (min 65535 (eol.getD 65535)));
           { g with hlt := { g.hlt with vals := [], hist := [], dayAt := ms }, scc := { g.scc with tests := [] } }))))) ∧
  (∀ (s : State) (src : Writer) (a v : Word) (d : Dev),
     s.dev.asleep = false →
     isPeriph a.toNat = true →
     blockOf a.toNat ≠ 27 →
     a.toNat % 4 = 0 →
     s.dev.takes src a.toNat = some d →
       exec (.registerWrite src a v) s = .next (s.on (d.regWrite src a.toNat v))) ∧
  (∀ (s : State) (src : Writer) (a v : Word),
     s.dev.asleep = false →
       (a.toNat % 4 ≠ 0 → src = .system → exec (.registerWrite src a v) s = .next (s.on (s.dev.raise .system 4 0 (some
           (nw a.toNat))))) ∧
       (a.toNat % 4 ≠ 0 → src = .program → exec (.registerWrite src a v) s = .next (s.on (s.dev.raise .program 4 0
           (some (nw a.toNat))))) ∧
       (a.toNat % 4 = 0 → isPeriph a.toNat = false ∨ blockOf a.toNat = 27 → src = .system → exec (.registerWrite src a
           v) s = .next (s.on (s.dev.raise .system 6 2 (some (nw a.toNat))))) ∧
       (a.toNat % 4 = 0 → isPeriph a.toNat = false ∨ blockOf a.toNat = 27 → src = .program → exec (.registerWrite src
           a v) s = .next (s.on (s.dev.raise .program 6 2 (some (nw a.toNat))))) ∧
       (a.toNat % 4 ≠ 0 ∨ isPeriph a.toNat = false ∨ blockOf a.toNat = 27 → src = .session → exec (.registerWrite src
           a v) s = .next (s.on (s.dev)))) ∧
  (∀ (d : Dev),
     d.pwrState ≠ 0 →
     d.pwrState ≠ 5 →
     d.pwrState ≠ 6 →
       (d.pwrState = 2 → d.ledRun = .steady) ∧
       (d.pwrState = 3 ∨ d.pwrState = 4 → d.ledRun = .hz4) ∧
       (d.pwrState = 1 ∨ d.pwrState = 7 → d.ledRun = .hz1) ∧
       (d.rd Reg.LIM_CRIM ≠ 0 ∨ d.sccState = 5 → d.ledFault = .steady) ∧
       (d.rd Reg.LIM_CRIM = 0 → d.sccState ≠ 5 → d.rd Reg.LIM_OCHRE ≠ 0 → d.ledFault = .hz1) ∧
       (d.role = 3 → d.ledRole = .double) ∧
       (d.role = 1 → d.ledRole = .steady) ∧
       (d.role = 2 → d.smode = 1 → d.ledRole = .hz1) ∧
       (d.role = 2 → d.smode ≠ 1 → d.ledRole = .hz4) ∧
       (d.role = 0 → d.ledRole = .dark) ∧
       (d.bit Reg.CYC_STAT 10 = true → d.ledForce = .steady) ∧
       (d.pwrState = 7 → d.ledService = .hz4) ∧
       (d.pwrState ≠ 7 → d.svc.stage ≠ none → d.ledService = .hz1) ∧
       (d.pwrState ≠ 7 → d.svc.stage = none → d.bit Reg.SVC_STAT 7 = true → d.ledService = .steady)) ∧
  (∀ (d : Dev),
     d.pwrState = 0 ∨ d.pwrState = 5 ∨ d.pwrState = 6 →
       d.ledRun = .dark ∧
       d.ledFault = .dark ∧
       d.ledRole = .dark ∧
       d.ledForce = .dark ∧
       d.ledService = .dark)

/-- In a module that is awake each command of the blocks answers a next state, in every state and with every operand:
that of its own operation, which the statements about its family say in full. A register write with a meaning of its
own does so when the write is taken, that is, unless the block is claimed (by system firmware) or may not be claimed
(by the program or a session). The commands of the always-on domain complete in a module that sleeps too. -/
def Obligations.CommandsComplete : Prop :=
  (∀ (s : State),
     s.dev.asleep = false →
       (∀ (src : Writer) (hi : Bool) (v : Word), exec (.expertRelease src hi v) s = .next (s.on (s.dev.expRelWrite src
           hi v))) ∧
       (exec .holdoverExpiry s = .next (s.on (s.dev.holdExpiry))) ∧
       (∀ (corr : Word), exec (.tcorrEvaluation corr) s = .next (s.on (s.dev.wr Reg.TIM_TCORR (iw (clampI (-32767)
           32767 corr.toInt))))) ∧
       (exec .timTbLoRead s = .next (s.on (s.dev.timTbRead.2))) ∧
       (exec .angAngleRead s = .next (s.on (s.dev.angAngleRead.2)))) ∧
  (∀ (s : State),
     s.dev.asleep = false →
       (∀ (src : Writer) (v : Word) (d : Dev), s.dev.takes src Reg.SYS_CTL = some d → exec (.claimenLock src v) s =
           .next (s.on (d.sysCtlWrite v))) ∧
       (∀ (src : Writer) (v : Word) (d : Dev), s.dev.takes src Reg.TIM_INC = some d → exec (.timIncWrite src v) s =
           .next (s.on (d.timInc v))) ∧
       (∀ (src : Writer) (v : Word) (d : Dev), s.dev.takes src Reg.TIM_ADJSEC = some d → exec (.timAdjsecWrite src v)
           s = .next (s.on (d.timAdjSec v))) ∧
       (∀ (src : Writer) (v : Word) (d : Dev), s.dev.takes src Reg.TIM_ADJNS = some d → exec (.timAdjnsWrite src v) s
           = .next (s.on (d.timAdjNs v))) ∧
       (∀ (src : Writer) (v : Word) (d : Dev), s.dev.takes src Reg.TIM_CTL = some d → exec (.decl src v) s = .next
           (s.on (d.timCtl v))) ∧
       (∀ (src : Writer) (v : Word) (d : Dev), s.dev.takes src Reg.TIM_HOLDTO = some d → exec (.timHoldtoWrite src v)
           s = .next (s.on (d.timHoldTo v))) ∧
       (∀ (src : Writer) (d : Dev), s.dev.takes src Reg.TIM_SNAP = some d → exec (.timSnap src) s = .next (s.on
           (d.timSnap)))) ∧
  (∀ (s : State),
     s.dev.asleep = false →
       (exec .angleWrap s = .next (s.on (if s.dev.angWraps then s.dev.angTick else s.dev))) ∧
       (exec .sourceLossTimeout s = .next (s.on (s.dev.angLoss))) ∧
       (exec .sourceReturn s = .next (s.on (s.dev.angReturn))) ∧
       (exec .freeRunSlew s = .next (s.on (s.dev.slewDue))) ∧
       (∀ (level : Bool) (us : BitVec 16), exec (.zcEdge level us) s = .next (s.on (s.dev.zcLevel level us.toNat)))) ∧
  (∀ (s : State),
     s.dev.asleep = false →
       (∀ (src : Writer) (v : Word) (d : Dev), s.dev.takes src Reg.ANG_SRCPRI = some d → exec (.angSrcpriWrite src v)
           s = .next (s.on (d.angSrcPri v))) ∧
       (∀ (src : Writer) (v : Word) (d : Dev), s.dev.takes src Reg.ANG_CTL = some d → exec (.forcefrWrite src v) s =
           .next (s.on (d.angCtl v))) ∧
       (∀ (src : Writer) (v : Word) (d : Dev), s.dev.takes src Reg.ANG_PERR = some d → exec (.angPerrWrite src v) s =
           .next (s.on (d.angPerr v))) ∧
       (∀ (src : Writer) (v : Word) (d : Dev), s.dev.takes src Reg.ANG_INC_HI = some d → exec (.angIncHiWrite src v) s
           = .next (s.on (d.angIncHi v))) ∧
       (∀ (src : Writer) (v : Word) (d : Dev), s.dev.takes src Reg.ANG_INC_LO = some d → exec (.angIncLoWrite src v) s
           = .next (s.on (d.angIncLo v)))) ∧
  (∀ (s : State),
       (exec .referenceTick s = .next (s.on (if s.dev.pwrState = 0 then { s.dev with now := s.dev.now + 1 } else if
           s.dev.pwrState = 5 || s.dev.pwrState = 6 then ({ s.dev with now := s.dev.now + 1 }).optTick else if
           s.dev.asleep then ({ s.dev with now := s.dev.now + 1, tim := s.dev.tim.tick s.dev.timEff } : Dev).optTick
           else s.dev.tick)))) ∧
  (∀ (s : State),
     s.dev.asleep = false →
       (exec .timetableMatch s = .next (s.on (s.dev.ttMatch))) ∧
       (exec .blankSend s = .next (s.on (s.dev.blankSend))) ∧
       (∀ (src : Writer) (k : BitVec 6) (v : Word), exec (.balCmdWrite src k v) s = .next (s.on ((
           let d := s.dev;
           if 47 < k.toNat then d else d.gate src (Reg.BAL_CMD k.toNat) (fun d => d.balCmdWrite k.toNat v))))) ∧
       (exec .commanderTimeout s = .next (s.on (s.dev.commanderTimeout))) ∧
       (∀ (off : BitVec 48), exec (.balanceSend off) s = .next (s.on (s.dev.balanceSend off)))) ∧
  (∀ (s : State),
     s.dev.asleep = false →
       (∀ (src : Writer) (b : BitVec 1) (i : Byte) (v : Word) (d : Dev), s.dev.takes src (Reg.TT_ENT b.toNat i.toNat
           0) = some d → exec (.ttEntryWord0Write src b i v) s = .next (s.on (d.ttWord0 b.toNat i.toNat v))) ∧
       (∀ (src : Writer) (b : BitVec 1) (i : Byte) (v : Word) (d : Dev), s.dev.takes src (Reg.TT_ENT b.toNat i.toNat
           1) = some d → exec (.ttEntryWord1Write src b i v) s = .next (s.on (d.ttWord1 b.toNat i.toNat v))) ∧
       (∀ (src : Writer) (v : Word) (d : Dev), s.dev.takes src Reg.TT_CTL = some d → exec (.ttSwapRequest src v) s =
           .next (s.on (d.ttCtl (withBit v 1 true)))) ∧
       (∀ (src : Writer) (v : Word) (d : Dev), s.dev.takes src Reg.BAL_CTL = some d → exec (.blankenChange src v) s =
           .next (s.on (d.balCtl src v))) ∧
       (∀ (src : Writer) (v : Word) (d : Dev), s.dev.takes src Reg.BAL_LRN = some d → exec (.learningGo src v) s =
           .next (s.on (d.lrnWrite v)))) ∧
  (∀ (s : State),
     s.dev.asleep = false →
       (exec .ringDownExit s = .next (s.on (s.dev.ringDownExit))) ∧
       (∀ (x : Bool) (a p c : Byte), exec (.faultReceive x a p c) s = .next (s.on (s.dev.faultReceive x a.toNat
           p.toNat c.toNat))) ∧
       (∀ (x : Bool) (frame : List Byte), exec (.echoEndReturn x frame) s = .next (s.on ((
           let d := s.dev;
           let heal := d.role = 2 && d.ringState = 5 && isRead62 frame;
           if d.portOn x && (heal || (d.fld (Reg.SK_CTL (portNo x)) 3 2 = 2 && !d.ringSplit)) then
           let d := if heal then d.ringSet 2 else d;
           let l := farComplete frame;
           let l := l.set 1 ((l[1]?).getD 0 ||| 64);
           let l := byteNats (l ++ leBytes 4 (crc32c l).toNat);
           (d.portFrame x).send (portIface x) (0x200 + nth l 0) l else d)))) ∧
       (∀ (hop : Byte) (nodes : List EnumNode) (transit : BitVec 24), exec (.enumeration hop nodes transit) s = .next
           (s.on (if s.dev.leads then s.dev.enumerate hop.toNat nodes transit.toNat else s.dev))) ∧
       (∀ (rttA rttB : List (BitVec 24)), exec (.tofRemeasure rttA rttB) s = .next (s.on (s.dev.tofRemeasure rttA
           rttB))) ∧
       (exec .delayRewrite s = .next (s.on (s.dev.delayRewrite))) ∧
       (∀ (linkOk : Bool), exec (.healSend linkOk) s = .next (s.on (s.dev.healSend linkOk))) ∧
       (∀ (returned : Bool), exec (.wakeSend returned) s = .next (s.on (s.dev.wakeSend returned))) ∧
       (∀ (src : Writer) (x : Bool) (k : BitVec 6) (v : Word), exec (.nodeRearm src x k v) s = .next (s.on ((
           let d := s.dev;
           if 47 < k.toNat then d else d.gate src (Reg.SK_NODE (portNo x) k.toNat) (fun d => d.rearm k.toNat v)))))) ∧
  (∀ (s : State),
     s.dev.asleep = false →
       (∀ (x : Bool), exec (.commandSend x) s = .next (s.on (s.dev.cmdSend x))) ∧
       (∀ (x : Bool) (fin : FrameEnd) (rtt : BitVec 24) (frame : List Byte) (healOk : Bool), exec (.commandAnswer x
           fin rtt frame healOk) s = .next (s.on (s.dev.cmdAnswer x fin rtt.toNat frame healOk))) ∧
       (∀ (x : Bool), exec (.commandTimeout x) s = .next (s.on (s.dev.cmdTimeout x)))) ∧
  (∀ (s : State),
     s.dev.asleep = false →
       (∀ (src : Writer) (x : Bool) (v : Word) (d : Dev), s.dev.takes src (Reg.SK_CMDGO (portNo x)) = some d → exec
           (.cmdgo src x v) s = .next (s.on (d.cmdGo x v))) ∧
       (∀ (src : Writer) (x : Bool) (v : Word) (d : Dev), s.dev.takes src (Reg.SK_CTL (portNo x)) = some d → exec
           (.skClearCounts src x v) s = .next (s.on (d.skCtl (portNo x) (withBit v 5 true)))) ∧
       (∀ (src : Writer) (i : BitVec 11) (v : Word) (d : Dev), s.dev.takes src (Reg.CHM_ENT i.toNat) = some d → exec
           (.chmEntryWrite src i v) s = .next (s.on (d.chmWrite i.toNat v)))) ∧
  (∀ (s : State),
     s.dev.asleep = false →
       (exec .collectLaunch s = .next (s.on (s.dev.collectLaunch))) ∧
       (∀ (x : Bool) (arg : Byte) (node : BitVec 6) (seq : BitVec 16) (flags turn : Byte) (data : List Byte) (crcOk :
           Bool) (fin : FrameEnd), exec (.slotReceive x arg node seq flags turn data crcOk fin) s = .next (s.on
           (s.dev.slotReceive x arg.toNat node.toNat seq.toNat flags.toNat turn.toNat data crcOk fin))) ∧
       (∀ (transit : Option (BitVec 24)), exec (.sweepDeadline transit) s = .next (s.on (s.dev.sweepDeadline
           (transit.map (fun t => t.toNat))))) ∧
       (exec .publication s =
           .next (s.on (
           match s.dev.swp.cur with
           | some w => if w.recovering then s.dev.publish w else s.dev.sweepDeadline none
           | none => s.dev))) ∧
       (exec .temperatureRead s = .next (s.on (s.dev.temperatureRead))) ∧
       (exec .openWireEvaluate s = .next (s.on (s.dev.owEvaluate)))) ∧
  (∀ (s : State),
     s.dev.asleep = false →
       (∀ (src : Writer) (v : Word) (d : Dev), s.dev.takes src Reg.SWP_OWCTL = some d → exec (.openWireGo src v) s =
           .next (s.on (d.owGo v))) ∧
       (∀ (src : Writer) (v : Word) (d : Dev), s.dev.takes src Reg.SWP_CTL = some d → exec (.swpClearCounts src v) s =
           .next (s.on (d.swpCtl (withBit v 1 true))))) ∧
  (∀ (s : State),
     s.dev.asleep = false →
       (exec .sweepWatchdog s = .next (s.on (s.dev.swdExpiry))) ∧
       (∀ (low : Bool), exec (.externalTrip low) s = .next (s.on ((
           let d := s.dev;
           let d := { d with pins := { d.pins with tripHigh := !low } };
           if low && d.act 0 = false then d.crim 12 else d))))) ∧
  (∀ (s : State),
     s.dev.asleep = false →
       (∀ (src : Writer) (i : BitVec 11) (w : BitVec 2) (v : Word) (d : Dev), s.dev.takes src (Reg.LIM_ENT i.toNat
           w.toNat) = some d → exec (.limEntryWordWrite src i w v) s = .next (s.on (d.limWrite i.toNat w.toNat v))) ∧
       (∀ (src : Writer) (i : BitVec 11) (v : Word) (d : Dev), s.dev.takes src (Reg.LIM_ENT i.toNat 3) = some d → exec
           (.limEntryCommit src i v) s = .next (s.on (d.limCommit i.toNat v))) ∧
       (∀ (src : Writer) (v : Word) (d : Dev), s.dev.takes src Reg.LIM_TRIPCLR = some d → exec (.tripClear src v) s =
           .next (s.on (d.tripClear v))) ∧
       (∀ (src : Writer) (v : Word) (d : Dev), s.dev.takes src Reg.LIM_SWTRIP = some d → exec (.softwareTrip src v) s
           = .next (s.on (d.swTrip v))) ∧
       (∀ (src : Writer) (och : Bool) (d : Dev), s.dev.takes src Reg.LIM_SWTRIP = some d → exec (.softwareOchre src
           och) s = .next (s.on (d.swTrip (nw (b2n och))))) ∧
       (∀ (src : Writer) (v : Word) (bad : BitVec 4) (d : Dev), s.dev.takes src Reg.LIM_TEST = some d → exec (.limTest
           src v bad) s = .next (s.on (d.limTest v bad))) ∧
       (∀ (src : Writer) (v : Word) (d : Dev), s.dev.takes src Reg.LIM_CTL = some d → exec (.limLock src v) s = .next
           (s.on (d.plainWrite Reg.LIM_CTL v)))) ∧
  (∀ (s : State),
     s.dev.asleep = false →
       (exec .breakDelayExpiry s = .next (s.on (s.dev.brkExpiry))) ∧
       (∀ (k2 : Bool), exec (.pickupExpiry k2) s = .next (s.on (s.dev.pickExpiry k2))) ∧
       (exec .prechargeDone s = .next (s.on (s.dev.prechargeDone))) ∧
       (exec .prechargeTimeout s = .next (s.on (s.dev.prechargeTimeout))) ∧
       (exec .closeConfirm s = .next (s.on (s.dev.closeConfirm))) ∧
       (exec .closeTimeout s = .next (s.on (s.dev.closeTimeout))) ∧
       (exec .openConfirm s = .next (s.on (s.dev.openConfirm))) ∧
       (exec .dropoutTimeout s = .next (s.on (s.dev.dropTimeout))) ∧
       (∀ (pulse : Option (Bool × Bool)) (rb : BitVec 6), exec (.switchTest pulse rb) s = .next (s.on
           (s.dev.switchTest pulse rb))) ∧
       (∀ (k2 : Bool) (ma : BitVec 16), exec (.coilFault k2 ma) s = .next (s.on (s.dev.coilMeasure k2 ma.toNat))) ∧
       (exec .feedbackDiscrepancy s = .next (s.on (s.dev.fbDiscrepancy))) ∧
       (exec .killOutAssert s = .next (s.on (s.dev.killAssert))) ∧
       (exec .sccDiagnosticsResume s = .next (s.on (s.dev.diagResume)))) ∧
  (∀ (s : State),
     s.dev.asleep = false →
       (∀ (src : Writer) (d : Dev), s.dev.takes src Reg.SCC_CMD = some d → exec (.sccClose src) s = .next (s.on
           (d.sccCmdWrite 1))) ∧
       (∀ (src : Writer) (d : Dev), s.dev.takes src Reg.SCC_CMD = some d → exec (.sccOpen src) s = .next (s.on
           (d.sccCmdWrite 2))) ∧
       (∀ (src : Writer) (d : Dev), s.dev.takes src Reg.SCC_CMD = some d → exec (.sccAck src) s = .next (s.on
           (d.sccCmdWrite 3)))) ∧
  (∀ (s : State),
     s.dev.asleep = false →
       (∀ (n : BitVec 3) (out : BitVec 25), exec (.sinc3Sample n out) s = .next (s.on (s.dev.sinc3Sample n.toNat
           out.toNat))) ∧
       (∀ (n : BitVec 3) (out : BitVec 11), exec (.sinc2Sample n out) s = .next (s.on (s.dev.sinc2Sample n.toNat
           out.toNat))) ∧
       (∀ (n : BitVec 3) (stuck : Bool), exec (.sdmInvalid n stuck) s = .next (s.on (if stuck && s.dev.fld
           Reg.SDM_INVCFG 11 0 = 0 then s.dev else s.dev.sdmInvalid n.toNat)))) ∧
  (∀ (s : State),
     s.dev.asleep = false →
       (∀ (src : Writer) (v : Word) (d : Dev), s.dev.takes src Reg.SDM_CTL = some d → exec (.sdmSync src v) s = .next
           (s.on (d.sdmCtl (withBit v 9 true))))) ∧
  (∀ (s : State),
     s.dev.asleep = false →
       (∀ (sl : BitVec 3), exec (.slotTrigger sl) s = .next (s.on (s.dev.slotEventTake sl.toNat))) ∧
       (∀ (sl : BitVec 3), exec (.slowTimerExpiry sl) s = .next (s.on (s.dev.slowTimer sl.toNat))) ∧
       (∀ (sl : BitVec 3), exec (.slotComplete sl) s = .next (s.on (s.dev.slotComplete sl.toNat)))) ∧
  (∀ (s : State),
     s.dev.asleep = false →
       (∀ (src : Writer) (v : Word) (d : Dev), s.dev.takes src Reg.CE_FLTCLR = some d → exec (.slotFaultClear src v) s
           = .next (s.on (d.fltClr v))) ∧
       (∀ (src : Writer) (v : Word) (d : Dev), s.dev.takes src Reg.CE_KICK = some d → exec (.ceKick src v) s = .next
           (s.on (d.kick v))) ∧
       (∀ (src : Writer) (sl : BitVec 3) (v : Word) (d : Dev), s.dev.takes src (Reg.CE_SLOT sl.toNat 7) = some d →
           exec (.slotDescriptorCommit src sl v) s = .next (s.on (d.slotWrite sl.toNat 7 v))) ∧
       (∀ (src : Writer) (v : Word) (d : Dev), s.dev.takes src Reg.CE_TINJ = some d → exec (.testInjectionGo src v) s
           = .next (s.on (d.tinjWrite (withBit v 31 true)))) ∧
       (∀ (src : Writer) (v : Word) (d : Dev), s.dev.takes src Reg.CE_TINJ = some d → exec (.testInjectionStop src v)
           s = .next (s.on (d.tinjWrite (withBit (withBit v 31 false) 30 true)))) ∧
       (∀ (src : Writer) (v : Word) (d : Dev), s.dev.takes src Reg.CE_TRCCTL = some d → exec (.traceArm src v) s =
           .next (s.on (d.trcCtl (withBit v 31 true)))) ∧
       (∀ (src : Writer) (v : Word) (d : Dev), s.dev.takes src Reg.CE_TRCCTL = some d → exec (.traceForce src v) s =
           .next (s.on (d.trcCtl (withBit (withBit v 31 false) 30 true))))) ∧
  (∀ (s : State),
     s.dev.asleep = false →
       (∀ (p : BitVec 2), exec (.pwmPeriodStart p) s = .next (s.on (s.dev.pairTurn p.toNat))) ∧
       (∀ (p : BitVec 2), exec (.pwmPeriodCentre p) s = .next (s.on (s.dev.pairCentre p.toNat))) ∧
       (∀ (fromReset : Bool), exec (.convFltFall fromReset) s = .next (s.on (s.dev.convFltFall fromReset))) ∧
       (exec .convFltRise s = .next (s.on (s.dev.convFltRise)))) ∧
  (∀ (s : State),
     s.dev.asleep = false →
       (∀ (src : Writer) (p : BitVec 2) (v : Word) (d : Dev), s.dev.takes src (Reg.PWM_PER p.toNat) = some d → exec
           (.pwmPerWrite src p v) s = .next (s.on (d.perWrite p.toNat v))) ∧
       (∀ (src : Writer) (v : Word) (d : Dev), s.dev.takes src Reg.PWM_CTL = some d → exec (.pwmSync src v) s = .next
           (s.on (d.pwmCtl (withBit v 8 true)))) ∧
       (∀ (src : Writer) (v : Word) (d : Dev), s.dev.takes src Reg.PWM_BLKCLR = some d → exec (.pwmBlockClear src v) s
           = .next (s.on (d.blkClr v)))) ∧
  (∀ (s : State),
     s.dev.asleep = false →
       (exec .estimatorRun s = .next (s.on (s.dev.estRun))) ∧
       (exec .correction s = .next (s.on (s.dev.correction))) ∧
       (exec .publicationTimeout s = .next (s.on (s.dev.pubTimeout))) ∧
       (exec .restStarvation s = .next (s.on (s.dev.starve)))) ∧
  (∀ (s : State),
     s.dev.asleep = false →
       (∀ (src : Writer) (d : Dev), s.dev.takes src Reg.EST_PUB = some d → exec (.estPub src) s = .next (s.on
           (d.estPub)))) ∧
  (∀ (s : State),
     s.dev.asleep = false →
       (exec .injectionPhaseEnd s = .next (s.on (s.dev.injPhaseEnd))) ∧
       (exec .binAccumulate s = .next (s.on (s.dev.binAccumulate))) ∧
       (exec .modelFit s = .next (s.on (s.dev.fitRun))) ∧
       (exec .ageingDaily s = .next (s.on (s.dev.ageingDaily)))) ∧
  (∀ (s : State),
     s.dev.asleep = false →
       (∀ (src : Writer) (v : Word) (d : Dev), s.dev.takes src Reg.IMP_CTL = some d → exec (.impClearAll src v) s =
           .next (s.on (d.impCtl (withBit v 2 true))))) ∧
  (∀ (s : State),
     s.dev.asleep = false →
       (exec .referenceSlew s = .next (s.on (s.dev.slew))) ∧
       (exec .mailboxTimeout s = .next (s.on (s.dev.mbTimeout)))) ∧
  (∀ (s : State),
     s.dev.asleep = false →
       (∀ (src : Writer) (m : BitVec 2) (w : BitVec 2) (v : Word) (d : Dev), s.dev.takes src (Reg.DSP_MB m.toNat
           w.toNat) = some d → exec (.mailboxWordWrite src m w v) s = .next (s.on (d.mbWrite m.toNat w.toNat v))) ∧
       (∀ (src : Writer) (m : BitVec 2) (v : Word) (d : Dev), s.dev.takes src (Reg.DSP_MB m.toNat 0) = some d → exec
           (.mailboxCommit src m v) s = .next (s.on (d.mbWrite m.toNat 0 v))) ∧
       (∀ (src : Writer) (v : Word) (d : Dev), s.dev.takes src Reg.DSP_CTL = some d → exec (.profileGo src v) s =
           .next (s.on (d.dspCtl (withBit v 1 true))))) ∧
  (∀ (s : State),
     s.dev.asleep = false →
       (∀ (h : PlantHead) (l : List Byte), exec (.setpoint h l) s = .next (s.on (s.dev.setpoint h l))) ∧
       (exec .statusSend s = .next (s.on (s.dev.statusTick))) ∧
       (exec .rotreqRepeat s = .next (s.on (s.dev.rotRepeat))) ∧
       (exec .rotationReplyTimeout s = .next (s.on (s.dev.rotTimeout))) ∧
       (exec .restWindowEnd s = .next (s.on (s.dev.rotWinEnd))) ∧
       (∀ (h : PlantHead) (l : List Byte), exec (.commandClearTrips h l) s = .next (s.on ((
           let d := s.dev;
           d.plantCommand h l 1 (fun d => d.plantClear (nw (leNat (slice l 6 2)))))))) ∧
       (∀ (h : PlantHead) (l : List Byte), exec (.commandTransport h l) s = .next (s.on ((
           let d := s.dev;
           d.plantCommand h l 2 (fun d => d.transReq))))) ∧
       (∀ (h : PlantHead) (l : List Byte), exec (.rotreply h l) s = .next (s.on (s.dev.rotReplyTake h l))) ∧
       (exec .storeroomWrite s = .next (s.on (s.dev.stoService))) ∧
       (exec .storeroomInterval s = .next (s.on (s.dev.stoInterval))) ∧
       (exec .transportRequest s = .next (s.on (s.dev.transReq))) ∧
       (∀ (returned : Bool), exec (.transportExit returned) s = .next (s.on (s.dev.transExit returned)))) ∧
  (∀ (s : State),
     s.dev.asleep = false →
       (∀ (f : BitVec 2), exec (.tachEdge f) s = .next (s.on (s.dev.tachEdge f.toNat))) ∧
       (∀ (f : BitVec 2), exec (.fanStall f) s = .next (s.on (s.dev.fanStall f.toNat))) ∧
       (exec .servoPeriod s = .next (s.on (s.dev.servo))) ∧
       (∀ (a : BitVec 2), exec (.stepPulse a) s = .next (s.on (s.dev.stepPulse a.toNat))) ∧
       (∀ (a : BitVec 2) (seq flags : Byte), exec (.actuatorReply a seq flags) s = .next (s.on ((s.dev.actReply
           a.toNat seq.toNat flags.toNat).homeNext)))) ∧
  (∀ (s : State),
     s.dev.asleep = false →
       (∀ (src : Writer) (n : BitVec 2) (v : Word) (d : Dev), s.dev.takes src (Reg.MOT_TFDCFG n.toNat) = some d → exec
           (.feedConfigWrite src n v) s = .next (s.on (d.feedCfg n.toNat v))) ∧
       (∀ (src : Writer) (a : BitVec 2) (v : Word) (d : Dev), s.dev.takes src (Reg.MOT_TGT a.toNat) = some d → exec
           (.targetWrite src a v) s = .next (s.on (d.targetWrite src a.toNat v))) ∧
       (∀ (src : Writer) (a : BitVec 2) (d : Dev), s.dev.takes src (Reg.MOT_CMD a.toNat) = some d → exec (.home src a)
           s = .next (s.on (d.motCmd a.toNat 1))) ∧
       (∀ (src : Writer) (a : BitVec 2) (d : Dev), s.dev.takes src (Reg.MOT_CMD a.toNat) = some d → exec (.stopAxis
           src a) s = .next (s.on (d.motCmd a.toNat 2))) ∧
       (∀ (src : Writer) (a : BitVec 2) (d : Dev), s.dev.takes src (Reg.MOT_CMD a.toNat) = some d → exec (.clearFault
           src a) s = .next (s.on (d.motCmd a.toNat 3))) ∧
       (∀ (src : Writer) (a : BitVec 2) (d : Dev), s.dev.takes src (Reg.MOT_CMD a.toNat) = some d → exec
           (.declareHomed src a) s = .next (s.on (d.motCmd a.toNat 4)))) ∧
  (∀ (s : State),
     s.dev.asleep = false →
       (exec .cyclePeriodStart s = .next (s.on (s.dev.periodStart))) ∧
       (exec .imageCopyComplete s = .next (s.on (s.dev.copyDone))) ∧
       (exec .onlineChangeSwitch s = .next (s.on (s.dev.switchRun)))) ∧
  (∀ (s : State),
     s.dev.asleep = false →
       (∀ (src : Writer) (v : Word) (d : Dev), s.dev.takes src Reg.CYC_CTL = some d → exec (.start src v) s = .next
           (s.on (d.cycCtl (withBit v 0 true)))) ∧
       (∀ (src : Writer) (v : Word) (d : Dev), s.dev.takes src Reg.CYC_CTL = some d → exec (.stop src v) s = .next
           (s.on (d.cycCtl (withBit v 1 true)))) ∧
       (∀ (src : Writer) (v : Word) (d : Dev), s.dev.takes src Reg.CYC_CTL = some d → exec (.clearLiveReads src v) s =
           .next (s.on (d.cycCtl (withBit v 2 true)))) ∧
       (∀ (src : Writer) (n : Byte) (w : BitVec 2) (v : Word) (d : Dev), s.dev.takes src (Reg.CYC_FORCE n.toNat
           w.toNat) = some d → exec (.forceWordWrite src n w v) s = .next (s.on (d.forceWrite n.toNat w.toNat v))) ∧
       (∀ (src : Writer) (n : Byte) (v : Word) (d : Dev), s.dev.takes src (Reg.CYC_FORCE n.toNat 1) = some d → exec
           (.forceCommit src n v) s = .next (s.on (d.forceWrite n.toNat 1 v)))) ∧
  (∀ (s : State),
     s.dev.asleep = false →
       (exec .syscallSccClose s = .next (s.on (s.dev.sysCall 0x001))) ∧
       (exec .syscallSccOpen s = .next (s.on (s.dev.sysCall 0x002))) ∧
       (exec .syscallSccAck s = .next (s.on (s.dev.sysCall 0x003))) ∧
       (exec .syscallStoreroom s = .next (s.on (s.dev.sysCall 0x010))) ∧
       (exec .syscallTransport s = .next (s.on (s.dev.sysCall 0x020))) ∧
       (exec .syscallRelease s = .next (s.on (s.dev.sysCall 0x030))) ∧
       (exec .syscallRecord s = .next (s.on (s.dev.sysCall 0x040)))) ∧
  (∀ (s : State),
     s.dev.asleep = false →
       (∀ (port : BitVec 2), exec (.linkUp port) s = .next (s.on (if port = 0 then s.dev.ringLinkUp false else if port
           = 1 then s.dev.ringLinkUp true else if port = 2 then s.dev.twLinkUp else s.dev))) ∧
       (∀ (port : BitVec 2), exec (.los port) s = .next (s.on (if port = 0 then s.dev.ringLos false else if port = 1
           then s.dev.ringLos true else if port = 2 then s.dev.twLos else s.dev))) ∧
       (exec .heartbeatSend s = .next (s.on (s.dev.hbSend))) ∧
       (∀ (roleLow : Bool) (epoch : Word) (b4 b5 : Byte) (count : BitVec 16) (compat image cyc angle : Word) (inc :
           BitVec 48) (ns sec : Word), exec (.heartbeat roleLow epoch b4 b5 count compat image cyc angle inc ns sec) s
           = .next (s.on ((s.dev.roleLine roleLow).heartbeat
           { epoch := epoch, role := b4.toNat % 4, smode := b4.toNat / 4 % 4, pos := b4.toNat.testBit 4, elig := b4.toNat.testBit 5, fail := b4.toNat.testBit 6, flags := b5.toNat, count := count.toNat, compat := compat, image := image, cyc := cyc, angle := angle.toNat, inc := inc.toNat, ns := ns.toNat, sec := sec.toNat }
           b4.toNat b5.toNat))) ∧
       (exec .heartbeatMiss s = .next (s.on (s.dev.hbMiss))) ∧
       (exec .ping s = .next (s.on (if !s.dev.running Tm.ping || s.dev.due Tm.ping (secT 1) then s.dev.pingSend else
           s.dev))) ∧
       (exec .pingReceive s = .next (s.on (if s.dev.twSends then s.dev.send .twin 0x201 [] else s.dev))) ∧
       (∀ (rtt : BitVec 16), exec (.pong rtt) s = .next (s.on (s.dev.pong rtt.toNat))) ∧
       (exec .linkFrameDiscard s = .next (s.on (if s.dev.role = 0 then s.dev else s.dev.twBad))) ∧
       (∀ (src : Writer) (v : Word), exec (.depose src v) s = .next (s.on ((
           let d := s.dev;
           d.serviceGate src Reg.TW_CTL (fun d => d.twCtl (withBit v 2 true)))))) ∧
       (∀ (src : Writer) (v : Word), exec (.rejoin src v) s = .next (s.on ((
           let d := s.dev;
           d.serviceGate src Reg.TW_CTL (fun d => d.twCtl (withBit v 3 true)))))) ∧
       (∀ (src : Writer) (v : Word), exec (.seed src v) s = .next (s.on ((
           let d := s.dev;
           d.serviceGate src Reg.TW_CTL (fun d => d.twCtl (withBit v 4 true)))))) ∧
       (∀ (src : Writer) (v : Word), exec (.handover src v) s = .next (s.on ((
           let d := s.dev;
           d.serviceGate src Reg.TW_CTL (fun d => d.twCtl (withBit v 0 true)))))) ∧
       (∀ (roleLow : Bool), exec (.joinTimeout roleLow) s = .next (s.on ((s.dev.roleLine roleLow).joinTimeout))) ∧
       (∀ (roleLow : Bool), exec (.takeover roleLow) s = .next (s.on ((s.dev.roleLine roleLow).takeover))) ∧
       (exec .killSettleExpiry s = .next (s.on (s.dev.settleExpiry))) ∧
       (exec .resyncRound s = .next (s.on (s.dev.rsRound))) ∧
       (exec .resyncTimeout s = .next (s.on (s.dev.rsTimeout))) ∧
       (exec .mirrorInterval s = .next (s.on (s.dev.mirrorInterval)))) ∧
  (∀ (s : State),
       (∀ (active : Bool), exec (.killIn active) s = .next (s.on (if s.dev.asleep then
           { s.dev with pins := { s.dev.pins with killIn := active } } else s.dev.killIn active)))) ∧
  (∀ (s : State),
     s.dev.asleep = false →
       (∀ (seq : BitVec 16), exec (.cueStrobeV seq) s = .next (s.on (s.dev.cueStrobe seq.toNat false false))) ∧
       (∀ (seq : BitVec 16), exec (.cueStrobeT seq) s = .next (s.on (s.dev.cueStrobe seq.toNat true false))) ∧
       (∀ (seq : BitVec 16), exec (.cueStrobeTa seq) s = .next (s.on (s.dev.cueStrobe seq.toNat true true))) ∧
       (∀ (m : BitVec 2), exec (.cueMailbox m) s = .next (s.on (s.dev.cueMailbox m.toNat))) ∧
       (exec .cueSdmSync s = .next (s.on (if s.dev.role = 2 then s.dev.sdmSync else s.dev))) ∧
       (∀ (counts : List (BitVec 20)), exec (.cuePwmAlign counts) s = .next (s.on (s.dev.cuePwm (counts.map (fun c =>
           c.toNat))))) ∧
       (∀ (n : BitVec 2), exec (.cueScc n) s = .next (s.on (if s.dev.role = 2 then s.dev.sccCmd true n.toNat else
           s.dev))) ∧
       (∀ (_epoch : BitVec 16), exec (.cueRoleExchange _epoch) s = .next (s.on (s.dev.cueRole))) ∧
       (∀ (seq : BitVec 16), exec (.cueRecoveryRead seq) s = .next (s.on (s.dev.cueRecovery seq.toNat))) ∧
       (exec .cueBlank s = .next (s.on (if s.dev.role = 2 && s.dev.ringSplit then s.dev.ringSend setBlank [] else
           s.dev))) ∧
       (exec .cueBadCheck s = .next (s.on (s.dev.shadeDrop 4))) ∧
       (∀ (crcOk : Bool) (cycle : Word) (image : List Byte) (forces : List ForceRow), exec (.image crcOk cycle image
           forces) s = .next (s.on (s.dev.imageTake crcOk cycle.toNat image (forces.map (fun f =>
           { idx := f.idx.toNat, w0 := f.w0, w1 := f.w1, w2 := f.w2, w3 := f.w3 }))))) ∧
       (∀ (cycle : Word) (status : Byte), exec (.imgack cycle status) s = .next (s.on (s.dev.imgAckTake cycle.toNat
           status.toNat))) ∧
       (∀ (cycle hash : Word), exec (.hash cycle hash) s = .next (s.on (s.dev.hashTake cycle.toNat hash))) ∧
       (∀ (cycle : Word) (result : Byte), exec (.hashack cycle result) s = .next (s.on (s.dev.hashAckTake cycle.toNat
           result.toNat))) ∧
       (exec .lagExpiry s = .next (s.on (s.dev.lagExpiry))) ∧
       (exec .missingImage s = .next (s.on (s.dev.missingImage))) ∧
       (∀ (sec : BitVec 16) (off : Word) (data : List Byte), exec (.mirror sec off data) s = .next (s.on
           (s.dev.mirrorTake sec.toNat off.toNat data))) ∧
       (∀ (arg : Byte) (slots : List Byte), exec (.segment arg slots) s = .next (s.on (if s.dev.pairUp then
           s.dev.segTake arg.toNat slots.length slots else s.dev))) ∧
       (∀ (slot : Byte) (words : List Word), exec (.mailbox slot words) s = .next (s.on (if s.dev.role = 2 then
           { s.dev with tw := { s.dev.tw with mb := some (slot.toNat, words) } } else s.dev))) ∧
       (∀ (cycle : Word), exec (.cmdHandover cycle) s = .next (s.on (if s.dev.role = 2 then
           { s.dev with tw := { s.dev.tw with hand := some (cycle.toNat, true) } } else s.dev))) ∧
       (∀ (cycle : Word), exec (.cmdOnlineChange cycle) s = .next (s.on (if s.dev.role = 2 then
           { s.dev with cyc := { s.dev.cyc with switchAfter := some cycle.toNat } } else s.dev))) ∧
       (exec .cmdTransport s = .next (s.on (if s.dev.role = 2 then s.dev.transEnter else s.dev))) ∧
       (∀ (hop : Byte) (nodes : List EnumNode) (transit : BitVec 24), exec (.cmdEnumeration hop nodes transit) s =
           .next (s.on (if s.dev.role != 2 then s.dev else s.dev.enumerate hop.toNat nodes transit.toNat))) ∧
       (∀ (frame : List Byte), exec (.cmdRingCommand frame) s = .next (s.on (if s.dev.role = 2 && s.dev.portOn false
           then (s.dev.portSend false (nth (byteNats frame) 0) (byteNats frame)).cmdState (nth (byteNats frame) 0)
           else s.dev))) ∧
       (∀ (roleLow : Bool), exec (.fail roleLow) s = .next (s.on (if s.dev.role = 2 then
           (({ s.dev.roleLine roleLow with tw := { s.dev.tw with failRx := true } }).takeover) else s.dev))) ∧
       (∀ (addr : Word) (data : List Byte), exec (.resyncGranules addr data) s = .next (s.on (s.dev.joinTake
           addr.toNat data))) ∧
       (∀ (j : JoinState), exec (.resyncRegisters j) s = .next (s.on (s.dev.joinStateTake j))) ∧
       (∀ (sl : BitVec 3) (w14 w15 : Word) (e3 u3 : BitVec 16) (q : List (BitVec 16)), exec (.resyncSlotHistory sl w14
           w15 e3 u3 q) s = .next (s.on (s.dev.joinSlot sl.toNat w14 w15 e3.toInt u3.toInt (q.map (fun x =>
           x.toNat)))))) ∧
  (∀ (s : State),
     s.dev.asleep = false →
       (∀ (x : BitVec 1), exec (.busIntegrated x) s = .next (s.on (s.dev.canIntegrated x.toNat))) ∧
       (∀ (x : BitVec 1) (ide fdf brs esi rtr : Bool) (id : BitVec 29) (dlc : BitVec 4) (data : List Byte), exec
           (.canFrameReceive x ide fdf brs esi rtr id dlc data) s = .next (s.on (s.dev.canReceive x.toNat ide fdf brs
           esi rtr id dlc.toNat data))) ∧
       (∀ (x : BitVec 1) (ago : Word) (tdcv : BitVec 7) (err : Option (BitVec 3 × Bool × Byte)), exec (.canAttemptEnd
           x ago tdcv err) s = .next (s.on (s.dev.canAttempt x.toNat ago.toNat tdcv err))) ∧
       (∀ (x : BitVec 1), exec (.canStatRead x) s = .next (s.on ((s.dev.canStatRead x.toNat).2))) ∧
       (∀ (x : BitVec 1) (code : BitVec 3) (data : Bool) (rise : BitVec 2), exec (.canReceiveError x code data rise) s
           = .next (s.on (s.dev.canRxError x.toNat code.toNat data rise.toNat)))) ∧
  (∀ (s : State),
     s.dev.asleep = false →
       (∀ (src : Writer) (x : BitVec 1) (v : Word) (d : Dev), s.dev.takes src (Reg.CAN_CTL x.toNat) = some d → exec
           (.leaveConfiguration src x v) s = .next (s.on (d.canCtl x.toNat (withBit v 0 false)))) ∧
       (∀ (src : Writer) (x : BitVec 1) (v : Word) (d : Dev), s.dev.takes src (Reg.CAN_CTL x.toNat) = some d → exec
           (.recover src x v) s = .next (s.on (d.canCtl x.toNat (withBit v 6 true)))) ∧
       (∀ (src : Writer) (x : BitVec 1) (v : Word) (d : Dev), s.dev.takes src (Reg.CAN_RDSEL x.toNat) = some d → exec
           (.rdsel src x v) s = .next (s.on (d.canRdsel x.toNat (fieldOf v 6 0)))) ∧
       (∀ (src : Writer) (x : BitVec 1) (k : BitVec 2) (v : Word) (d : Dev), s.dev.takes src (Reg.CAN_TXREQ x.toNat
           k.toNat) = some d → exec (.txreq src x k v) s = .next (s.on (d.canTxreq x.toNat k.toNat v))) ∧
       (∀ (src : Writer) (x : BitVec 1) (k : BitVec 2) (v : Word) (onBus : Option (BitVec 7)) (d : Dev), s.dev.takes
           src (Reg.CAN_TXCAN x.toNat k.toNat) = some d → exec (.txcan src x k v onBus) s = .next (s.on (d.canTxcan
           x.toNat k.toNat v (onBus.map (fun n => n.toNat)))))) ∧
  (∀ (s : State),
     s.dev.asleep = false →
       (∀ (a : BitVec 7) (lastAck : Bool), exec (.smbIdent a lastAck) s = .next (s.on (s.dev.smbRead a.toNat 0x00
           lastAck (smbBlock 8 (wordsBytes [s.dev.rd Reg.SYS_ID, s.dev.rd Reg.SYS_FWVER]))))) ∧
       (∀ (a : BitVec 7) (lastAck : Bool), exec (.smbStatus a lastAck) s = .next (s.on (s.dev.smbRead a.toNat 0x01
           lastAck (leBytes 1 s.dev.smbStatus)))) ∧
       (∀ (a : BitVec 7) (lastAck : Bool), exec (.smbSoc a lastAck) s = .next (s.on (s.dev.smbRead a.toNat 0x10
           lastAck (s.dev.smbResp 0x00 2)))) ∧
       (∀ (a : BitVec 7) (lastAck : Bool), exec (.smbVstr a lastAck) s = .next (s.on (s.dev.smbRead a.toNat 0x11
           lastAck (s.dev.smbResp 0x02 2)))) ∧
       (∀ (a : BitVec 7) (lastAck : Bool), exec (.smbCurr a lastAck) s = .next (s.on (s.dev.smbRead a.toNat 0x12
           lastAck (smbBlock 4 (s.dev.smbResp 0x04 4))))) ∧
       (∀ (a : BitVec 7) (lastAck : Bool), exec (.smbSop a lastAck) s = .next (s.on (s.dev.smbRead a.toNat 0x13
           lastAck (smbBlock 16 (s.dev.smbResp 0x08 16))))) ∧
       (∀ (a : BitVec 7) (lastAck : Bool), exec (.smbText a lastAck) s = .next (s.on (s.dev.smbRead a.toNat 0x14
           lastAck (smbBlock 4 (s.dev.smbResp 0x18 4))))) ∧
       (∀ (a : BitVec 7) (lastAck : Bool), exec (.smbVext a lastAck) s = .next (s.on (s.dev.smbRead a.toNat 0x15
           lastAck (smbBlock 8 (s.dev.smbResp 0x1C 8))))) ∧
       (∀ (a : BitVec 7) (lastAck : Bool), exec (.smbCelldata a lastAck) s = .next (s.on (s.dev.smbRead a.toNat 0x21
           lastAck (smbBlock 12 (s.dev.smbResp 0x24 12))))) ∧
       (∀ (a : BitVec 7) (lastAck : Bool), exec (.smbEvent a lastAck) s = .next (s.on (s.dev.smbRead a.toNat 0x30
           lastAck (s.dev.smbCounted 0x30)))) ∧
       (∀ (a : BitVec 7) (lastAck : Bool), exec (.smbUread a lastAck) s = .next (s.on (s.dev.smbRead a.toNat 0x40
           lastAck (s.dev.smbCounted 0x60)))) ∧
       (∀ (a : BitVec 7) (lastAck : Bool), exec (.smbReqcode a lastAck) s = .next (s.on (s.dev.smbReqcode a.toNat
           lastAck))) ∧
       (∀ (a : BitVec 7) (count : Byte) (l : List Byte) (pec : Option Byte), exec (.smbUwrite a count l pec) s = .next
           (s.on (s.dev.smbWrite a.toNat 0x41 (some count) l pec))) ∧
       (∀ (a : BitVec 7) (l : List Byte) (pec : Option Byte), exec (.smbCellsel a l pec) s = .next (s.on
           (s.dev.smbCellsel a.toNat l pec))) ∧
       (∀ (a : BitVec 7) (code : Byte) (read : Bool), exec (.smbUnknownCommand a code read) s =
           .next (s.on (
           match s.dev.smbAck a.toNat with
           | none => s.dev
           | some k => (s.dev.smbLast k code.toNat read).flag Reg.SMB_STAT 2))) ∧
       (∀ (won lastAck : Bool), exec (.alertResponse won lastAck) s = .next (s.on (if s.dev.alertLow && won then
           let l := leBytes 1 (2 * s.dev.fld Reg.SMB_ADDR 6 0);
           let l := if s.dev.bit Reg.SMB_CFG 2 && lastAck then l ++ [pec8 (0x19 :: l)] else l;
           ({ s.dev with smb := { s.dev.smb with alertWon := true } }).send .smbus 0x0C (byteNats l) else s.dev))) ∧
       (exec .sdaReleaseTimeout s = .next (s.on (if s.dev.fld Reg.SMB_RELTO 15 0 = 0 then s.dev else (s.dev.flag
           Reg.SMB_STAT 5).hw 0xA010 []))) ∧
       (exec .sclLowTimeout s = .next (s.on ((s.dev.flag Reg.SMB_STAT 5).hw 0xA011 [])))) ∧
  (∀ (s : State),
     s.dev.asleep = false →
       (∀ (src : Writer) (v : Word) (d : Dev), s.dev.takes src Reg.SMB_REQSET = some d → exec (.smbReqset src v) s =
           .next (s.on (d.smbPush (fieldOf v 15 0))))) ∧
  (∀ (s : State),
     s.dev.asleep = false →
       (∀ (p2 : Bool) (l : List Byte) (fcsOk : Bool) (res : Word), exec (.ethFrameReceive p2 l fcsOk res) s = .next
           (s.on (s.dev.ethReceive (1 + b2n p2) l fcsOk res.toNat))) ∧
       (∀ (mac : BitVec 48), exec (.addressAgeOut mac) s = .next (s.on (s.dev.ethAge mac.toNat))) ∧
       (∀ (p2 : Bool) (ans : Option (Int × Int × Int × Int)), exec (.peerDelayMeasure p2 ans) s = .next (s.on
           (s.dev.peerDelay (1 + b2n p2) ans))) ∧
       (∀ (p2 : Bool) (req : List Byte), exec (.pdelayReq p2 req) s = .next (s.on (s.dev.pdelayAnswer (1 + b2n p2)
           req))) ∧
       (∀ (p2 : Bool) (dom : Byte) (sender : BitVec 80) (seq : BitVec 16) (twoStep : Bool) (t1 corr : Int) (logInt :
           BitVec 8), exec (.sync p2 dom sender seq twoStep t1 corr logInt) s = .next (s.on (s.dev.syncReceive (1 +
           b2n p2) dom.toNat sender.toNat seq.toNat twoStep t1 corr logInt.toInt))) ∧
       (∀ (dom : Byte) (sender : BitVec 80) (seq : BitVec 16) (t1 corr : Int), exec (.followUp dom sender seq t1 corr)
           s = .next (s.on (s.dev.followUp dom.toNat sender.toNat seq.toNat t1 corr))) ∧
       (∀ (dom : Byte) (sender : BitVec 80) (p1 cls acc : Byte) (var : BitVec 16) (p2 : Byte) (gm : BitVec 64) (steps
           : BitVec 16) (logInt : BitVec 8), exec (.announce dom sender p1 cls acc var p2 gm steps logInt) s = .next
           (s.on (s.dev.announce dom.toNat sender.toNat
           { data := [p1.toNat, cls.toNat, acc.toNat, var.toNat, p2.toNat, gm.toNat, steps.toNat], cls := cls.toNat, seen := 0, logInt := logInt.toInt })))
           ∧
       (exec .syncTimeout s = .next (s.on (s.dev.syncLost))) ∧
       (∀ (sender : BitVec 48) (target : Word), exec (.arpRequest sender target) s = .next (s.on (s.dev.arp
           sender.toNat target))) ∧
       (∀ (from_ dest : Word) (body : List Byte), exec (.icmpEcho from_ dest body) s = .next (s.on (s.dev.icmp from_
           dest body))) ∧
       (∀ (p2 up gig : Bool), exec (.ethLinkChange p2 up gig) s = .next (s.on (s.dev.ethLink (1 + b2n p2) up gig))) ∧
       (∀ (l : List Byte), exec (.angleMessage l) s = .next (s.on (s.dev.angMessage l)))) ∧
  (∀ (s : State),
     s.dev.asleep = false →
       (∀ (r : BitVec 6) (msg : List Byte), exec (.dmaCompletion r msg) s = .next (s.on (s.dev.dmaStep r.toNat msg)))
           ∧
       (∀ (r : BitVec 2) (busy : Bool), exec (.launch r busy) s = .next (s.on ((
           let d := s.dev;
           let d := d.launch r.toNat busy;
           d.dmaRun r.toNat (d.dmaN r.toNat))))) ∧
       (∀ (n : BitVec 5) (level : Bool), exec (.inputFilterTick n level) s = .next (s.on (s.dev.filterTick n.toNat
           level))) ∧
       (∀ (k : BitVec 3), exec (.outputOverload k) s = .next (s.on (s.dev.outOverload k.toNat))) ∧
       (∀ (k : BitVec 3) (fell : BitVec 2), exec (.outputTestPulse k fell) s = .next (s.on (s.dev.outPulse k.toNat
           fell))) ∧
       (exec .killInRelease s = .next (s.on (s.dev.killRelease)))) ∧
  (∀ (s : State),
     s.dev.asleep = false →
       (∀ (src : Writer) (r : BitVec 6) (v : Word) (d : Dev), s.dev.takes src (Reg.DMA_TAIL r.toNat) = some d → exec
           (.dmaTailWrite src r v) s = .next (s.on (d.dmaTailWrite r.toNat v))) ∧
       (∀ (src : Writer) (r : BitVec 6) (v : Word) (d : Dev), s.dev.takes src (Reg.DMA_BASE r.toNat) = some d → exec
           (.dmaBaseWrite src r v) s = .next (s.on (d.dmaBaseWrite r.toNat v))) ∧
       (∀ (src : Writer) (r : BitVec 6) (v : Word) (d : Dev), s.dev.takes src (Reg.DMA_CFG r.toNat) = some d → exec
           (.dmaEnable src r v) s = .next (s.on (d.dmaCfgWrite r.toNat v)))) ∧
  (∀ (s : State),
     s.dev.asleep = false →
       (exec .rideExpiry s = .next (s.on (s.dev.rideExpiry))) ∧
       (exec .bankCharged s = .next (s.on (s.dev.bankCharged))) ∧
       (exec .bankNvClose s = .next (s.on (s.dev.bankClose))) ∧
       (exec .bankExhausted s = .next (s.on (s.dev.bankOut))) ∧
       (exec .holdUpReturn s = .next (s.on (s.dev.holdReturn))) ∧
       (exec .standbyIdleEntry s = .next (s.on (s.dev.idleEntry))) ∧
       (exec .brownOut s = .next (s.on (s.dev.brownOut))) ∧
       (exec .alwaysOnSave s = .next (s.on (if s.dev.running Tm.save && !s.dev.due Tm.save (secT 10) then s.dev else
           s.dev.alwaysOnSave))) ∧
       (exec .twinResyncReset s = .next (s.on (s.dev.resyncReset))) ∧
       (∀ (found : Option (Byte × List EnumNode × BitVec 24)), exec (.bringUp found) s = .next (s.on (s.dev.bringUp
           found))) ∧
       (exec .fullService s = .next (s.on (s.dev.fullService)))) ∧
  (∀ (s : State),
     s.dev.asleep = false →
       (∀ (src : Writer) (v : Word) (d : Dev), s.dev.takes src Reg.PWR_WDT = some d → exec (.watchdogKick src v) s =
           .next (s.on (d.wdtWrite (withField v 31 24 0xA5)))) ∧
       (∀ (src : Writer) (v : Word) (d : Dev), s.dev.takes src Reg.PWR_CTL = some d → exec (.softwareReset src v) s =
           .next (s.on (d.pwrCtl (withBit v 0 true)))) ∧
       (∀ (src : Writer) (v : Word) (d : Dev), s.dev.takes src Reg.PWR_CTL = some d → exec (.stby src v) s = .next
           (s.on (d.pwrCtl (withBit v 4 true))))) ∧
  (∀ (s : State),
       (∀ (fb : Bool) (mv : BitVec 16), exec (.feedLost fb mv) s = .next (s.on (s.dev.feedLost fb mv.toNat))) ∧
       (∀ (fb : Bool) (mv : BitVec 16), exec (.feedGood fb mv) s = .next (s.on (s.dev.feedGood fb mv.toNat))) ∧
       (∀ (source : BitVec 2) (adr : BitVec 7), exec (.standbyWake source adr) s = .next (s.on (s.dev.wakeBy
           source.toNat adr.toNat))) ∧
       (∀ (active : Bool), exec (.wakeChg active) s = .next (s.on (s.dev.wakeChg active))) ∧
       (exec .powerOn s = .next (s.on (s.dev.powerOn))) ∧
       (∀ (high : Bool), exec (.rstNReset high) s = .next (s.on (s.dev.rstN high))) ∧
       (exec .thermalCut s = .next (s.on (s.dev.thermalCut))) ∧
       (exec .thermalRestart s = .next (s.on (s.dev.thermalRestart)))) ∧
  (∀ (s : State),
     s.dev.asleep = false →
       (∀ (t0 t1 t2 t3 t4 t5 : BitVec 16), exec (.dieMeasurement t0 t1 t2 t3 t4 t5) s = .next (s.on (s.dev.dieMeasure
           [t0.toInt, t1.toInt, t2.toInt, t3.toInt, t4.toInt, t5.toInt]))) ∧
       (∀ (n : BitVec 4) (pass : Bool) (vals : List (Nat × Int)), exec (.inServiceTest n pass vals) s = .next (s.on
           (s.dev.testRun n.toNat pass vals))) ∧
       (exec .ledgerRecord s = .next (s.on (s.dev.ledgerDaily))) ∧
       (∀ (src : Writer) (a v : Word), exec (.registerWrite src a v) s = .next (s.on (s.dev.registerWrite src a.toNat
           v)))) ∧
  (∀ (s : State),
     s.dev.asleep = false →
       (∀ (fw : Bool) (code : BitVec 16) (payload : List Byte), exec (.recordPost fw code payload) s = .next (s.on
           (s.dev.postBytes (b2n fw) code.toNat payload))) ∧
       (exec .queueToLarder s = .next (s.on (s.dev.recMove))) ∧
       (exec .flushComplete s = .next (s.on (s.dev.flushEnd.settle))) ∧
       (exec .periodicFlush s = .next (s.on (s.dev.flushPeriod))) ∧
       (∀ (ok : Bool), exec (.migration ok) s = .next (s.on (s.dev.migrate ok))) ∧
       (∀ (h : PlantHead) (l : List Byte), exec (.recreq h l) s = .next (s.on (s.dev.recReq h l))) ∧
       (∀ (verified : Bool), exec (.nvcUnitComplete verified) s = .next (s.on ((s.dev.nvcUnit verified).settle))) ∧
       (exec .nvcDoneRead s = .next (s.on (s.dev.nvcDoneRead.2))) ∧
       (exec .norEraseComplete s = .next (s.on (s.dev.eraseDone)))) ∧
  (∀ (s : State),
     s.dev.asleep = false →
       (∀ (src : Writer) (v : Word) (d : Dev), s.dev.takes src Reg.REC_POST = some d → exec (.recPost src v) s = .next
           (s.on (d.recPost v))) ∧
       (∀ (src : Writer) (d : Dev), s.dev.takes src Reg.REC_CTL = some d → exec (.recorderEnable src) s = .next (s.on
           (d.recCtl 1))) ∧
       (∀ (src : Writer) (v : Word) (d : Dev), s.dev.takes src Reg.REC_CTL = some d → exec (.flush src v) s = .next
           (s.on (d.recCtl (withBit v 1 true)))) ∧
       (∀ (src : Writer) (tag : Byte) (d : Dev), s.dev.takes src Reg.NVC_RGO = some d → exec (.nvcMramWrite src tag) s
           = .next (s.on (d.nvcGo 1 tag.toNat))) ∧
       (∀ (src : Writer) (tag : Byte) (d : Dev), s.dev.takes src Reg.NVC_RGO = some d → exec (.nvcNorProgram src tag)
           s = .next (s.on (d.nvcGo 2 tag.toNat))) ∧
       (∀ (src : Writer) (tag : Byte) (d : Dev), s.dev.takes src Reg.NVC_RGO = some d → exec (.nvcNorErase src tag) s
           = .next (s.on (d.nvcGo 3 tag.toNat)))) ∧
  (∀ (s : State),
     s.dev.asleep = false →
       (∀ (tag : BitVec 16), exec (.ident tag) s = .next (s.on ((
           let d := s.dev;
           d.serve 0x01 tag 0 true (fun d => (0, d.identBytes, d)))))) ∧
       (∀ (tag : BitVec 16) (level : Byte), exec (.svcOpen tag level) s = .next (s.on ((
           let d := s.dev;
           d.serve 0x02 tag 0 false (fun d => d.svcOpen level.toNat))))) ∧
       (∀ (tag : BitVec 16) (k : Byte) (xy rs : List Byte), exec (.auth tag k xy rs) s = .next (s.on ((
           let d := s.dev;
           d.serve 0x03 tag 0 false (fun d => d.svcAuth k.toNat xy rs))))) ∧
       (∀ (tag : BitVec 16), exec (.svcClose tag) s = .next (s.on ((
           let d := s.dev;
           d.serve 0x04 tag 0 true (done (fun d => d.sessionEnd)))))) ∧
       (∀ (tag : BitVec 16) (a : Word) (n : BitVec 16), exec (.readreg tag a n) s = .next (s.on ((
           let d := s.dev;
           d.serve 0x10 tag 0 true (fun d => d.readReg a.toNat n.toNat))))) ∧
       (∀ (tag : BitVec 16) (a : Word) (words : List Word), exec (.writereg tag a words) s = .next (s.on ((
           let d := s.dev;
           d.serve 0x11 tag 0 false (fun d => d.writeReg a.toNat words))))) ∧
       (∀ (tag : BitVec 16) (a n : Word), exec (.readmem tag a n) s = .next (s.on ((
           let d := s.dev;
           d.serve 0x12 tag 0 false (fun d => d.readMem a.toNat n.toNat))))) ∧
       (∀ (tag : BitVec 16) (n : Byte), exec (.paramread tag n) s = .next (s.on ((
           let d := s.dev;
           d.serve 0x18 tag 0 false (fun d => d.paramRead n.toNat))))) ∧
       (∀ (tag : BitVec 16) (n : Byte) (b : ParamBlock), exec (.paramwrite tag n b) s = .next (s.on ((
           let d := s.dev;
           d.serve 0x19 tag 2 false (judged (fun d => d.blkWrite n.toNat b)))))) ∧
       (∀ (tag : BitVec 16) (first count : Word), exec (.recread tag first count) s = .next (s.on ((
           let d := s.dev;
           d.serve 0x20 tag 0 true (fun d => (0, (d.recRange first.toNat count.toNat 65536).flatMap (fun r => r.2), d)))))) ∧
       (∀ (tag : BitVec 16) (n : Byte) (w0 w1 w2 w3 : Word), exec (.force tag n w0 w1 w2 w3) s = .next (s.on ((
           let d := s.dev;
           d.serve 0x28 tag 2 false (done (fun d => d.forceEntry n.toNat w0 w1 w2 w3)))))) ∧
       (∀ (tag : BitVec 16), exec (.progctlStart tag) s = .next (s.on ((
           let d := s.dev;
           d.serve 0x30 tag 1 false (judged (fun d => d.svcStart)))))) ∧
       (∀ (tag : BitVec 16), exec (.progctlStop tag) s = .next (s.on ((
           let d := s.dev;
           d.serve 0x30 tag 1 false (done (fun d => d.progStop)))))) ∧
       (∀ (tag : BitVec 16) (mask : Word), exec (.cleartrip tag mask) s = .next (s.on ((
           let d := s.dev;
           d.serve 0x31 tag 1 false (done (fun d => d.svcClear mask)))))) ∧
       (∀ (tag : BitVec 16), exec (.transport tag) s = .next (s.on ((
           let d := s.dev;
           d.serve 0x32 tag 1 false (judged (fun d => d.svcTransport)))))) ∧
       (∀ (tag : BitVec 16), exec (.clrtransport tag) s = .next (s.on ((
           let d := s.dev;
           d.serve 0x33 tag 3 false (done (fun d => d.transportClear)))))) ∧
       (∀ (tag : BitVec 16) (header : List Byte), exec (.stageopen tag header) s = .next (s.on ((
           let d := s.dev;
           d.serve 0x40 tag (kindLevel (headerKind header)) (headerKind header = 1) (judged (fun d => d.stageOpen header)))))) ∧
       (∀ (tag : BitVec 16) (kind : Byte) (force : Bool), exec (.activate tag kind force) s = .next (s.on ((
           let d := s.dev;
           d.serve 0x43 tag (kindLevel kind.toNat) (kind = 1) (judged (fun d => d.activate kind.toNat force)))))) ∧
       (∀ (tag : BitVec 16) (ready : Bool), exec (.onlinechg tag ready) s = .next (s.on ((
           let d := s.dev;
           d.serve 0x44 tag 2 false (judged (fun d => d.changePrepare ready)))))) ∧
       (∀ (tag : BitVec 16) (ctl : Bool) (v : Word), exec (.twincfg tag ctl v) s = .next (s.on ((
           let d := s.dev;
           d.serve 0x50 tag 3 false (judged (fun d => d.twinCfg ctl v)))))) ∧
       (∀ (tag : BitVec 16) (k : Byte) (hash : List Byte), exec (.progkey tag k hash) s = .next (s.on ((
           let d := s.dev;
           d.serve 0x58 tag 3 false (judged (fun d => d.progKey k.toNat hash)))))) ∧
       (∀ (tag : BitVec 16) (k j : Byte) (xy rs : List Byte), exec (.revoke tag k j xy rs) s = .next (s.on ((
           let d := s.dev;
           d.serve 0x59 tag 3 false (judged (fun d => d.revoke k.toNat j.toNat xy rs)))))) ∧
       (∀ (tag : BitVec 16), exec (.resetWarm tag) s = .next (s.on ((
           let d := s.dev;
           d.serve 0x60 tag 1 true (done (fun d => d.resetAsk 9)))))) ∧
       (∀ (tag : BitVec 16) (on : Bool), exec (.debug tag on) s = .next (s.on ((
           let d := s.dev;
           d.serve 0x70 tag 2 false (done (fun d => { d with svc := { d.svc with debug := on } })))))) ∧
       (∀ (tag : BitVec 16), exec (.resetRecovery tag) s = .next (s.on (s.dev.recoveryAsk tag))) ∧
       (∀ (cmd : Byte) (tag : BitVec 16) (busy : Bool), exec (.nypehaReject cmd tag busy) s = .next (s.on
           (s.dev.respond cmd.toNat tag.toNat (if busy then 6 else 1) []))) ∧
       (∀ (cmd : Byte) (tag : BitVec 16), exec (.nypehaUnknownCommand cmd tag) s = .next (s.on (if nypehaCmd cmd.toNat
           then s.dev else s.dev.sessionTouch.respond cmd.toNat tag.toNat 2 []))) ∧
       (exec .usbDetach s = .next (s.on (s.dev.sessionEnd.setBit Reg.SVC_STAT 0 false)))) ∧
  (∀ (s : State),
     s.dev.asleep = false →
       (∀ (src : Writer) (v : Word) (d : Dev), s.dev.takes src Reg.SVC_CONFIRM = some d → exec (.trialConfirm src v) s
           = .next (s.on (if bitOf v 0 then d.trialConfirm else d))))

/-- A post of a hardware source or of system firmware reaches the recorder; REC_POST posts the first LEN bytes of
REC_PBUF or refuses a LEN above 240; the oldest post moves to the Larder; REC_CTL enables and flushes; the flush
period asks for a flush and a flush ends. Migration copies the oldest complete journal block to the Cellar, marks
it, retries once, and then skips the sector with entry 0xC204. RECREQ is answered with whole records up to 1,400
bytes. NVC_RGO queues a request of kind 1, 2 or 3; its units complete one by one; reading NVC_DONE pops the oldest
completion; an erase completes. -/
def Obligations.RecorderCommands : Prop :=
  (∀ (s : State) (fw : Bool) (code : BitVec 16) (payload : List Byte),
     s.dev.asleep = false →
       exec (.recordPost fw code payload) s = .next (s.on (s.dev.postBytes (b2n fw) code.toNat payload))) ∧
  (∀ (d : Dev) (o c : Nat) (l : List Byte),
       (240 < l.length ∨ reservedCode c = true → d.postBytes o c l = d.flag Reg.REC_STAT 3) ∧
       (l.length ≤ 240 → reservedCode c = false → d.postBytes o c l = d.enqueue (d.stamp o c l))) ∧
  (∀ (s : State) (src : Writer) (v : Word) (d : Dev),
     s.dev.asleep = false →
     s.dev.takes src Reg.REC_POST = some d →
       (240 < fieldOf v 23 16 → exec (.recPost src v) s = .next (s.on (d.flag Reg.REC_STAT 3))) ∧
       (fieldOf v 23 16 ≤ 240 → exec (.recPost src v) s = .next (s.on (d.postBytes 1 (fieldOf v 15 0) ((wordsBytes
           ((List.range 60).map (fun i => d.rd (Reg.REC_PBUF i)))).take (fieldOf v 23 16)))))) ∧
  (∀ (s : State),
     s.dev.asleep = false →
       (s.dev.recd.queue = [] → exec (.queueToLarder) s = .next (s.on (s.dev))) ∧
       (s.dev.recd.queue ≠ [] → exec (.queueToLarder) s = .next (s.on (s.dev.toLarder.smbFill)))) ∧
  (∀ (s : State) (src : Writer) (d : Dev),
     s.dev.asleep = false →
     s.dev.takes src Reg.REC_CTL = some d →
       (d.bit Reg.REC_CTL 0 = true → exec (.recorderEnable src) s = .next (s.on (d))) ∧
       (d.bit Reg.REC_CTL 0 = false → exec (.recorderEnable src) s = .next (s.on (d.recEnable)))) ∧
  (∀ (s : State) (src : Writer) (v : Word) (d : Dev),
     s.dev.asleep = false →
     s.dev.takes src Reg.REC_CTL = some d →
       (bitOf v 0 = true → d.bit Reg.REC_CTL 0 = true → exec (.flush src v) s = .next (s.on (d.flushReq))) ∧
       (bitOf v 0 = true → d.bit Reg.REC_CTL 0 = false → exec (.flush src v) s = .next (s.on (d.recEnable.flushReq)))
           ∧
       (bitOf v 0 = false → exec (.flush src v) s = .next (s.on ((d.setBit Reg.REC_CTL 0 false).flushReq)))) ∧
  (∀ (s : State),
     s.dev.asleep = false →
       exec (.flushComplete) s = .next (s.on (s.dev.flushEnd.settle))) ∧
  (∀ (s : State),
     s.dev.asleep = false →
       (s.dev.fld Reg.REC_FLPER 15 0 = 0 → exec (.periodicFlush) s = .next (s.on (s.dev))) ∧
       (s.dev.running Tm.flush = true → s.dev.due Tm.flush (secT (s.dev.fld Reg.REC_FLPER 15 0)) = false → exec
           (.periodicFlush) s = .next (s.on (s.dev))) ∧
       (s.dev.fld Reg.REC_FLPER 15 0 ≠ 0 → s.dev.running Tm.flush = false ∨ s.dev.due Tm.flush (secT (s.dev.fld
           Reg.REC_FLPER 15 0)) = true → exec (.periodicFlush) s = .next (s.on (s.dev.flushReq)))) ∧
  (∀ (s : State) (ok : Bool) (i : Nat) (d e f : Dev),
     s.dev.asleep = false →
       (s.dev.pwr.full = false ∨ s.dev.bit Reg.HLT_STAT 2 = true ∨ s.dev.nvc.closedTherm = true ∨ s.dev.nvc.closedBank
           = true ∨ s.dev.bit Reg.NVC_CTL 0 = false ∨ s.dev.migrNext = none → exec (.migration ok) s = .next (s.on
           (s.dev))) ∧
       (s.dev.pwr.full = true → s.dev.bit Reg.HLT_STAT 2 = false → s.dev.nvc.closedTherm = false →
           s.dev.nvc.closedBank = false → s.dev.bit Reg.NVC_CTL 0 = true → s.dev.migrNext = some i → (if
           s.dev.recd.cellarBlock = 0 then s.dev.norErased (norSector s.dev.cellarAt) else s.dev) = d → (if d.norBad
           s.dev.cellarAt = true then d else d.nvBytes s.dev.cellarAt (d.bytes (journalBlock i) 4096)) = e → ok = true
           → e.bytes s.dev.cellarAt 4096 = d.bytes (journalBlock i) 4096 → e.mramWrite (journalBlock i + 12) (leBytes
           4 (withBit (e.word (journalBlock i + 12)) 31 true).toNat) = f → exec (.migration ok) s = .next (s.on (if
           s.dev.recd.cellarBlock = 63 then f.cellarSet (s.dev.recd.cellarSector + 1) 0 false else f.cellarSet
           s.dev.recd.cellarSector (s.dev.recd.cellarBlock + 1) false))) ∧
       (s.dev.pwr.full = true → s.dev.bit Reg.HLT_STAT 2 = false → s.dev.nvc.closedTherm = false →
           s.dev.nvc.closedBank = false → s.dev.bit Reg.NVC_CTL 0 = true → s.dev.migrNext = some i → (if
           s.dev.recd.cellarBlock = 0 then s.dev.norErased (norSector s.dev.cellarAt) else s.dev) = d → (if d.norBad
           s.dev.cellarAt = true then d else d.nvBytes s.dev.cellarAt (d.bytes (journalBlock i) 4096)) = e → ok =
           false → exec (.migration ok) s = .next (s.on (if e.recd.retried = true then (e.fw 0xC204 [nw
           s.dev.recd.cellarSector]).cellarSet (s.dev.recd.cellarSector + 1) 0 false else e.cellarSet
           s.dev.recd.cellarSector s.dev.recd.cellarBlock true)))) ∧
  (∀ (s : State) (h : PlantHead) (l : List Byte) (r : List (Nat × List Byte)),
     s.dev.asleep = false →
       (s.dev.plantTo h 0x40 10 l = false → exec (.recreq h l) s = .next (s.on (s.dev))) ∧
       (plantOnCan h = true → exec (.recreq h l) s = .next (s.on (s.dev))) ∧
       (s.dev.plantTo h 0x40 10 l = true → plantOnCan h = false → (s.dev.rd Reg.TW_EPOCH).toNat < plantEpoch l → exec
           (.recreq h l) s = .next (s.on (s.dev.plantHigh (plantEpoch l)))) ∧
       (s.dev.plantTo h 0x40 10 l = true → plantOnCan h = false → plantEpoch l ≤ (s.dev.rd Reg.TW_EPOCH).toNat →
           s.dev.recRange (leNat (slice l 4 4)) (leNat (slice l 8 2)) 1400 = r → exec (.recreq h l) s = .next (s.on
           (s.dev.plantUdp 0x41 (leBytes 2 r.length ++ [0, 0] ++ r.flatMap (fun r => r.2)))))) ∧
  (∀ (s : State) (src : Writer) (tag : Byte) (d : Dev),
     s.dev.asleep = false →
     s.dev.takes src Reg.NVC_RGO = some d →
       exec (.nvcMramWrite src tag) s = .next (s.on (d.nvcPush 1 tag.toNat)) ∧
       exec (.nvcNorProgram src tag) s = .next (s.on (d.nvcPush 2 tag.toNat)) ∧
       exec (.nvcNorErase src tag) s = .next (s.on (d.nvcPush 3 tag.toNat))) ∧
  (∀ (s : State) (ok : Bool),
     s.dev.asleep = false →
       exec (.nvcUnitComplete ok) s = .next (s.on ((s.dev.nvcUnit ok).settle))) ∧
  (∀ (s : State),
     s.dev.asleep = false →
       exec (.nvcDoneRead) s = .next (s.on (({ s.dev with nvc := { s.dev.nvc with fifo := s.dev.nvc.fifo.drop 1 } } :
           Dev).nvcShow))) ∧
  (∀ (s : State),
     s.dev.asleep = false →
       exec (.norEraseComplete) s = .next (s.on (s.dev.eraseDone)))

/-- Every request opens or restarts the session and gets one response with its tag: STATE in recovery for a command that
recovery does not serve, AUTH below its level, else the status and payload of its effect: identity, nonce,
authority, registers, memory, parameter blocks, records, forces, program control, trips, transport, staging,
activation, online change, the twin, keys, reset, recovery and debug. WRITEREG writes nothing unless every word may
be written. A rejected message, a reserved command, detach, the idle limit and a confirmation act as their rules
say. -/
def Obligations.ServiceCommands : Prop :=
  (∀ (s : State) (tag : BitVec 16),
     s.dev.asleep = false →
       exec (.ident tag) s = .next (s.on (s.dev.sessionTouch.respond 0x01 tag.toNat 0 s.dev.sessionTouch.identBytes))) ∧
  (∀ (s : State) (tag : BitVec 16) (level : Byte),
     s.dev.asleep = false →
       (s.dev.sessionTouch.recovering = true → exec (.svcOpen tag level) s = .next (s.on (s.dev.sessionTouch.respond
           0x02 tag.toNat 16 []))) ∧
       (s.dev.sessionTouch.recovering = false → exec (.svcOpen tag level) s = .next (s.on ((s.dev.sessionTouch.svcOpen
           level.toNat).2.2.respond 0x02 tag.toNat (s.dev.sessionTouch.svcOpen level.toNat).1
           (s.dev.sessionTouch.svcOpen level.toNat).2.1)))) ∧
  (∀ (s : State) (tag : BitVec 16) (k : Byte) (xy rs : List Byte),
     s.dev.asleep = false →
       (s.dev.sessionTouch.recovering = true → exec (.auth tag k xy rs) s = .next (s.on (s.dev.sessionTouch.respond
           0x03 tag.toNat 16 []))) ∧
       (s.dev.sessionTouch.recovering = false → exec (.auth tag k xy rs) s = .next (s.on ((s.dev.sessionTouch.svcAuth
           k.toNat xy rs).2.2.respond 0x03 tag.toNat (s.dev.sessionTouch.svcAuth k.toNat xy rs).1
           (s.dev.sessionTouch.svcAuth k.toNat xy rs).2.1)))) ∧
  (∀ (s : State) (tag : BitVec 16),
     s.dev.asleep = false →
       exec (.svcClose tag) s = .next (s.on ((s.dev.sessionTouch.sessionEnd).respond 0x04 tag.toNat 0 []))) ∧
  (∀ (s : State) (tag : BitVec 16) (a : Word) (n : BitVec 16),
     s.dev.asleep = false →
       exec (.readreg tag a n) s = .next (s.on ((s.dev.sessionTouch.readReg a.toNat n.toNat).2.2.respond 0x10
           tag.toNat (s.dev.sessionTouch.readReg a.toNat n.toNat).1 (s.dev.sessionTouch.readReg a.toNat n.toNat).2.1))) ∧
  (∀ (s : State) (tag : BitVec 16) (a : Word) (words : List Word),
     s.dev.asleep = false →
       (s.dev.sessionTouch.recovering = true → exec (.writereg tag a words) s = .next (s.on
           (s.dev.sessionTouch.respond 0x11 tag.toNat 16 []))) ∧
       (s.dev.sessionTouch.recovering = false → exec (.writereg tag a words) s = .next (s.on
           ((s.dev.sessionTouch.writeReg a.toNat words).2.2.respond 0x11 tag.toNat (s.dev.sessionTouch.writeReg
           a.toNat words).1 (s.dev.sessionTouch.writeReg a.toNat words).2.1)))) ∧
  (∀ (s : State) (tag : BitVec 16) (a n : Word),
     s.dev.asleep = false →
       (s.dev.sessionTouch.recovering = true → exec (.readmem tag a n) s = .next (s.on (s.dev.sessionTouch.respond
           0x12 tag.toNat 16 []))) ∧
       (s.dev.sessionTouch.recovering = false → exec (.readmem tag a n) s = .next (s.on ((s.dev.sessionTouch.readMem
           a.toNat n.toNat).2.2.respond 0x12 tag.toNat (s.dev.sessionTouch.readMem a.toNat n.toNat).1
           (s.dev.sessionTouch.readMem a.toNat n.toNat).2.1)))) ∧
  (∀ (s : State) (tag : BitVec 16) (n : Byte),
     s.dev.asleep = false →
       (s.dev.sessionTouch.recovering = true → exec (.paramread tag n) s = .next (s.on (s.dev.sessionTouch.respond
           0x18 tag.toNat 16 []))) ∧
       (s.dev.sessionTouch.recovering = false → exec (.paramread tag n) s = .next (s.on ((s.dev.sessionTouch.paramRead
           n.toNat).2.2.respond 0x18 tag.toNat (s.dev.sessionTouch.paramRead n.toNat).1 (s.dev.sessionTouch.paramRead
           n.toNat).2.1)))) ∧
  (∀ (s : State) (tag : BitVec 16) (n : Byte) (blk : ParamBlock),
     s.dev.asleep = false →
       (s.dev.sessionTouch.recovering = true → exec (.paramwrite tag n blk) s = .next (s.on
           (s.dev.sessionTouch.respond 0x19 tag.toNat 16 []))) ∧
       (s.dev.sessionTouch.recovering = false → s.dev.sessionTouch.svcLevel < 2 → exec (.paramwrite tag n blk) s =
           .next (s.on (s.dev.sessionTouch.respond 0x19 tag.toNat 3 []))) ∧
       (s.dev.sessionTouch.recovering = false → 2 ≤ s.dev.sessionTouch.svcLevel → exec (.paramwrite tag n blk) s =
           .next (s.on ((s.dev.sessionTouch.blkWrite n.toNat blk).2.respond 0x19 tag.toNat
           (s.dev.sessionTouch.blkWrite n.toNat blk).1 [])))) ∧
  (∀ (s : State) (tag : BitVec 16) (first count : Word),
     s.dev.asleep = false →
       exec (.recread tag first count) s = .next (s.on (s.dev.sessionTouch.respond 0x20 tag.toNat 0
           ((s.dev.sessionTouch.recRange first.toNat count.toNat 65536).flatMap (fun r => r.2))))) ∧
  (∀ (s : State) (tag : BitVec 16) (n : Byte) (w0 w1 w2 w3 : Word),
     s.dev.asleep = false →
       (s.dev.sessionTouch.recovering = true → exec (.force tag n w0 w1 w2 w3) s = .next (s.on
           (s.dev.sessionTouch.respond 0x28 tag.toNat 16 []))) ∧
       (s.dev.sessionTouch.recovering = false → s.dev.sessionTouch.svcLevel < 2 → exec (.force tag n w0 w1 w2 w3) s =
           .next (s.on (s.dev.sessionTouch.respond 0x28 tag.toNat 3 []))) ∧
       (s.dev.sessionTouch.recovering = false → 2 ≤ s.dev.sessionTouch.svcLevel → exec (.force tag n w0 w1 w2 w3) s =
           .next (s.on ((s.dev.sessionTouch.forceEntry n.toNat w0 w1 w2 w3).respond 0x28 tag.toNat 0 [])))) ∧
  (∀ (s : State) (tag : BitVec 16),
     s.dev.asleep = false →
       (s.dev.sessionTouch.recovering = true → exec (.progctlStart tag) s = .next (s.on (s.dev.sessionTouch.respond
           0x30 tag.toNat 16 []))) ∧
       (s.dev.sessionTouch.recovering = false → s.dev.sessionTouch.svcLevel < 1 → exec (.progctlStart tag) s = .next
           (s.on (s.dev.sessionTouch.respond 0x30 tag.toNat 3 []))) ∧
       (s.dev.sessionTouch.recovering = false → 1 ≤ s.dev.sessionTouch.svcLevel → exec (.progctlStart tag) s = .next
           (s.on ((s.dev.sessionTouch.svcStart).2.respond 0x30 tag.toNat (s.dev.sessionTouch.svcStart).1 [])))) ∧
  (∀ (s : State) (tag : BitVec 16),
     s.dev.asleep = false →
       (s.dev.sessionTouch.recovering = true → exec (.progctlStop tag) s = .next (s.on (s.dev.sessionTouch.respond
           0x30 tag.toNat 16 []))) ∧
       (s.dev.sessionTouch.recovering = false → s.dev.sessionTouch.svcLevel < 1 → exec (.progctlStop tag) s = .next
           (s.on (s.dev.sessionTouch.respond 0x30 tag.toNat 3 []))) ∧
       (s.dev.sessionTouch.recovering = false → 1 ≤ s.dev.sessionTouch.svcLevel → exec (.progctlStop tag) s = .next
           (s.on ((s.dev.sessionTouch.progStop).respond 0x30 tag.toNat 0 [])))) ∧
  (∀ (s : State) (tag : BitVec 16) (mask : Word),
     s.dev.asleep = false →
       (s.dev.sessionTouch.recovering = true → exec (.cleartrip tag mask) s = .next (s.on (s.dev.sessionTouch.respond
           0x31 tag.toNat 16 []))) ∧
       (s.dev.sessionTouch.recovering = false → s.dev.sessionTouch.svcLevel < 1 → exec (.cleartrip tag mask) s = .next
           (s.on (s.dev.sessionTouch.respond 0x31 tag.toNat 3 []))) ∧
       (s.dev.sessionTouch.recovering = false → 1 ≤ s.dev.sessionTouch.svcLevel → exec (.cleartrip tag mask) s = .next
           (s.on ((s.dev.sessionTouch.svcClear mask).respond 0x31 tag.toNat 0 [])))) ∧
  (∀ (s : State) (tag : BitVec 16),
     s.dev.asleep = false →
       (s.dev.sessionTouch.recovering = true → exec (.transport tag) s = .next (s.on (s.dev.sessionTouch.respond 0x32
           tag.toNat 16 []))) ∧
       (s.dev.sessionTouch.recovering = false → s.dev.sessionTouch.svcLevel < 1 → exec (.transport tag) s = .next
           (s.on (s.dev.sessionTouch.respond 0x32 tag.toNat 3 []))) ∧
       (s.dev.sessionTouch.recovering = false → 1 ≤ s.dev.sessionTouch.svcLevel → exec (.transport tag) s = .next
           (s.on ((s.dev.sessionTouch.svcTransport).2.respond 0x32 tag.toNat (s.dev.sessionTouch.svcTransport).1 [])))) ∧
  (∀ (s : State) (tag : BitVec 16),
     s.dev.asleep = false →
       (s.dev.sessionTouch.recovering = true → exec (.clrtransport tag) s = .next (s.on (s.dev.sessionTouch.respond
           0x33 tag.toNat 16 []))) ∧
       (s.dev.sessionTouch.recovering = false → s.dev.sessionTouch.svcLevel < 3 → exec (.clrtransport tag) s = .next
           (s.on (s.dev.sessionTouch.respond 0x33 tag.toNat 3 []))) ∧
       (s.dev.sessionTouch.recovering = false → 3 ≤ s.dev.sessionTouch.svcLevel → exec (.clrtransport tag) s = .next
           (s.on ((s.dev.sessionTouch.transportClear).respond 0x33 tag.toNat 0 [])))) ∧
  (∀ (s : State) (tag : BitVec 16) (header : List Byte),
     s.dev.asleep = false →
       (s.dev.sessionTouch.recovering = true → ¬ headerKind header = 1 → exec (.stageopen tag header) s = .next (s.on
           (s.dev.sessionTouch.respond 0x40 tag.toNat 16 []))) ∧
       (s.dev.sessionTouch.recovering = false → s.dev.sessionTouch.svcLevel < kindLevel (headerKind header) → exec
           (.stageopen tag header) s = .next (s.on (s.dev.sessionTouch.respond 0x40 tag.toNat 3 []))) ∧
       ((s.dev.sessionTouch.recovering = true ∧ headerKind header = 1) ∨ (s.dev.sessionTouch.recovering = false ∧
           kindLevel (headerKind header) ≤ s.dev.sessionTouch.svcLevel) → exec (.stageopen tag header) s = .next (s.on
           ((s.dev.sessionTouch.stageOpen header).2.respond 0x40 tag.toNat (s.dev.sessionTouch.stageOpen header).1
           [])))) ∧
  (∀ (s : State) (tag : BitVec 16) (kind : Byte) (fc : Bool),
     s.dev.asleep = false →
       (s.dev.sessionTouch.recovering = true → ¬ kind = 1 → exec (.activate tag kind fc) s = .next (s.on
           (s.dev.sessionTouch.respond 0x43 tag.toNat 16 []))) ∧
       (s.dev.sessionTouch.recovering = false → s.dev.sessionTouch.svcLevel < kindLevel kind.toNat → exec (.activate
           tag kind fc) s = .next (s.on (s.dev.sessionTouch.respond 0x43 tag.toNat 3 []))) ∧
       ((s.dev.sessionTouch.recovering = true ∧ kind = 1) ∨ (s.dev.sessionTouch.recovering = false ∧ kindLevel
           kind.toNat ≤ s.dev.sessionTouch.svcLevel) → exec (.activate tag kind fc) s = .next (s.on
           ((s.dev.sessionTouch.activate kind.toNat fc).2.respond 0x43 tag.toNat (s.dev.sessionTouch.activate
           kind.toNat fc).1 [])))) ∧
  (∀ (s : State) (tag : BitVec 16) (ready : Bool),
     s.dev.asleep = false →
       (s.dev.sessionTouch.recovering = true → exec (.onlinechg tag ready) s = .next (s.on (s.dev.sessionTouch.respond
           0x44 tag.toNat 16 []))) ∧
       (s.dev.sessionTouch.recovering = false → s.dev.sessionTouch.svcLevel < 2 → exec (.onlinechg tag ready) s =
           .next (s.on (s.dev.sessionTouch.respond 0x44 tag.toNat 3 []))) ∧
       (s.dev.sessionTouch.recovering = false → 2 ≤ s.dev.sessionTouch.svcLevel → exec (.onlinechg tag ready) s =
           .next (s.on ((s.dev.sessionTouch.changePrepare ready).2.respond 0x44 tag.toNat
           (s.dev.sessionTouch.changePrepare ready).1 [])))) ∧
  (∀ (s : State) (tag : BitVec 16) (ctl : Bool) (v : Word),
     s.dev.asleep = false →
       (s.dev.sessionTouch.recovering = true → exec (.twincfg tag ctl v) s = .next (s.on (s.dev.sessionTouch.respond
           0x50 tag.toNat 16 []))) ∧
       (s.dev.sessionTouch.recovering = false → s.dev.sessionTouch.svcLevel < 3 → exec (.twincfg tag ctl v) s = .next
           (s.on (s.dev.sessionTouch.respond 0x50 tag.toNat 3 []))) ∧
       (s.dev.sessionTouch.recovering = false → 3 ≤ s.dev.sessionTouch.svcLevel → exec (.twincfg tag ctl v) s = .next
           (s.on ((s.dev.sessionTouch.twinCfg ctl v).2.respond 0x50 tag.toNat (s.dev.sessionTouch.twinCfg ctl v).1
           [])))) ∧
  (∀ (s : State) (tag : BitVec 16) (k : Byte) (hash : List Byte),
     s.dev.asleep = false →
       (s.dev.sessionTouch.recovering = true → exec (.progkey tag k hash) s = .next (s.on (s.dev.sessionTouch.respond
           0x58 tag.toNat 16 []))) ∧
       (s.dev.sessionTouch.recovering = false → s.dev.sessionTouch.svcLevel < 3 → exec (.progkey tag k hash) s = .next
           (s.on (s.dev.sessionTouch.respond 0x58 tag.toNat 3 []))) ∧
       (s.dev.sessionTouch.recovering = false → 3 ≤ s.dev.sessionTouch.svcLevel → exec (.progkey tag k hash) s = .next
           (s.on ((s.dev.sessionTouch.progKey k.toNat hash).2.respond 0x58 tag.toNat (s.dev.sessionTouch.progKey
           k.toNat hash).1 [])))) ∧
  (∀ (s : State) (tag : BitVec 16) (k j : Byte) (xy rs : List Byte),
     s.dev.asleep = false →
       (s.dev.sessionTouch.recovering = true → exec (.revoke tag k j xy rs) s = .next (s.on
           (s.dev.sessionTouch.respond 0x59 tag.toNat 16 []))) ∧
       (s.dev.sessionTouch.recovering = false → s.dev.sessionTouch.svcLevel < 3 → exec (.revoke tag k j xy rs) s =
           .next (s.on (s.dev.sessionTouch.respond 0x59 tag.toNat 3 []))) ∧
       (s.dev.sessionTouch.recovering = false → 3 ≤ s.dev.sessionTouch.svcLevel → exec (.revoke tag k j xy rs) s =
           .next (s.on ((s.dev.sessionTouch.revoke k.toNat j.toNat xy rs).2.respond 0x59 tag.toNat
           (s.dev.sessionTouch.revoke k.toNat j.toNat xy rs).1 [])))) ∧
  (∀ (s : State) (tag : BitVec 16),
     s.dev.asleep = false →
       (s.dev.sessionTouch.recovering = false → s.dev.sessionTouch.svcLevel < 1 → exec (.resetWarm tag) s = .next
           (s.on (s.dev.sessionTouch.respond 0x60 tag.toNat 3 []))) ∧
       (s.dev.sessionTouch.recovering = true ∨ 1 ≤ s.dev.sessionTouch.svcLevel → exec (.resetWarm tag) s = .next (s.on
           ((s.dev.sessionTouch.resetAsk 9).respond 0x60 tag.toNat 0 [])))) ∧
  (∀ (s : State) (tag : BitVec 16) (on : Bool),
     s.dev.asleep = false →
       (s.dev.sessionTouch.recovering = true → exec (.debug tag on) s = .next (s.on (s.dev.sessionTouch.respond 0x70
           tag.toNat 16 []))) ∧
       (s.dev.sessionTouch.recovering = false → s.dev.sessionTouch.svcLevel < 2 → exec (.debug tag on) s = .next (s.on
           (s.dev.sessionTouch.respond 0x70 tag.toNat 3 []))) ∧
       (s.dev.sessionTouch.recovering = false → 2 ≤ s.dev.sessionTouch.svcLevel → exec (.debug tag on) s = .next (s.on
           (({ s.dev.sessionTouch with svc := { s.dev.sessionTouch.svc with debug := on } } : Dev).respond 0x70
           tag.toNat 0 [])))) ∧
  (∀ (s : State) (tag : BitVec 16) (block : List Byte),
     s.dev.asleep = false →
       (s.dev.sessionTouch.recovering = false → s.dev.sessionTouch.svcLevel < kindLevel s.dev.stageKind → exec
           (.stageblock tag block) s = .next (s.on (s.dev.sessionTouch.respond 0x41 tag.toNat 3 []))) ∧
       (s.dev.sessionTouch.recovering = true ∨ kindLevel s.dev.stageKind ≤ s.dev.sessionTouch.svcLevel → exec
           (.stageblock tag block) s = .next (s.on ((s.dev.sessionTouch.stageBlock block).2.respond 0x41 tag.toNat
           (s.dev.sessionTouch.stageBlock block).1 [])))) ∧
  (∀ (s : State) (tag : BitVec 16) (trailer : List Byte),
     s.dev.asleep = false →
       (s.dev.sessionTouch.recovering = false → s.dev.sessionTouch.svcLevel < kindLevel s.dev.stageKind → exec
           (.stageend tag trailer) s = .next (s.on (s.dev.sessionTouch.respond 0x42 tag.toNat 3 []))) ∧
       (s.dev.sessionTouch.recovering = true ∨ kindLevel s.dev.stageKind ≤ s.dev.sessionTouch.svcLevel → exec
           (.stageend tag trailer) s = .next (s.on ((s.dev.sessionTouch.stageEnd trailer).2.respond 0x42 tag.toNat
           (s.dev.sessionTouch.stageEnd trailer).1 [])))) ∧
  (∀ (s : State) (tag : BitVec 16),
     s.dev.asleep = false →
       (s.dev.romWindow = true → exec (.resetRecovery tag) s = .next (s.on (((s.dev.sessionTouch).respond 0x60
           tag.toNat 0 []).resetAsk 16))) ∧
       (s.dev.romWindow = false → s.dev.sessionTouch.recovering = false → 3 ≤ s.dev.sessionTouch.svcLevel → exec
           (.resetRecovery tag) s = .next (s.on ((s.dev.sessionTouch.resetAsk 16).respond 0x60 tag.toNat 0 []))) ∧
       (s.dev.romWindow = false → s.dev.sessionTouch.recovering = false → s.dev.sessionTouch.svcLevel < 3 → exec
           (.resetRecovery tag) s = .next (s.on (s.dev.sessionTouch.respond 0x60 tag.toNat 3 [])))) ∧
  (∀ (s : State) (cmd : Byte) (tag : BitVec 16) (busy : Bool),
     s.dev.asleep = false →
       exec (.nypehaReject cmd tag busy) s = .next (s.on (s.dev.respond cmd.toNat tag.toNat (if busy = true then 6
           else 1) []))) ∧
  (∀ (s : State) (cmd : Byte) (tag : BitVec 16),
     s.dev.asleep = false →
       (nypehaCmd cmd.toNat = true → exec (.nypehaUnknownCommand cmd tag) s = .next (s.on (s.dev))) ∧
       (nypehaCmd cmd.toNat = false → exec (.nypehaUnknownCommand cmd tag) s = .next (s.on (s.dev.sessionTouch.respond
           cmd.toNat tag.toNat 2 [])))) ∧
  (∀ (s : State),
     s.dev.asleep = false →
       exec (.usbDetach) s = .next (s.on (s.dev.sessionEnd.setBit Reg.SVC_STAT 0 false))) ∧
  (∀ (s : State),
     s.dev.asleep = false →
       (s.dev.fld Reg.SVC_IDLETO 15 0 ≠ 0 → s.dev.due Tm.session (secT (s.dev.fld Reg.SVC_IDLETO 15 0)) = true → exec
           (.sessionIdleTimeout) s = .next (s.on (s.dev.sessionEnd))) ∧
       (s.dev.fld Reg.SVC_IDLETO 15 0 = 0 ∨ s.dev.due Tm.session (secT (s.dev.fld Reg.SVC_IDLETO 15 0)) = false → exec
           (.sessionIdleTimeout) s = .next (s.on (s.dev)))) ∧
  (∀ (s : State) (src : Writer) (v : Word) (d : Dev),
     s.dev.asleep = false →
     s.dev.takes src Reg.SVC_CONFIRM = some d →
       (bitOf v 0 = true → exec (.trialConfirm src v) s = .next (s.on (d.trialConfirm))) ∧
       (bitOf v 0 = false → exec (.trialConfirm src v) s = .next (s.on (d)))) ∧
  (∀ (d e : Dev) (k : Nat) (n : List Byte) (xy rs : List Byte) (level : Nat),
       (3 < level → d.svcOpen level = (4, [], d)) ∧
       (level ≤ 3 → d.nextFree = (k, e) → (List.range 16).map (fun i => Config.nonce k i) = n → d.svcOpen level = (0,
           n, { e with svc := { e.svc with nonce := some (level, n) } })) ∧
       (d.svc.nonce = none → d.svcAuth k xy rs = (3, [], ({ d with svc := { d.svc with nonce := none } } : Dev).fw
           0xB002 [])) ∧
       (d.svc.nonce = some (level, n) → { d with svc := { d.svc with nonce := none } } = e → e.keyOk k xy = true →
           sigOk xy rs (n ++ e.serialBytes ++ leBytes 4 level) = true → d.svcAuth k xy rs = (0, leBytes 4 level,
           (e.setFld Reg.SVC_STAT 5 4 level).fw 0xB001 [nw level]))) ∧
  (∀ (d : Dev) (a : Nat) (l : List Word) (k : Nat) (hash : List Byte),
       (((writeAddrs a l).any (fun e => !regAddr e.1 || neverWritten e.1)) = true → d.writeReg a l = (4, [], d)) ∧
       (((writeAddrs a l).any (fun e => !regAddr e.1 || neverWritten e.1)) = false → d.svcLevel < (if ((writeAddrs a
           l).any (fun e => !claimable e.1)) = true then 3 else 2) → d.writeReg a l = (3, [], d)) ∧
       (((writeAddrs a l).any (fun e => !regAddr e.1 || neverWritten e.1)) = false → (if ((writeAddrs a l).any (fun e
           => !claimable e.1)) = true then 3 else 2) ≤ d.svcLevel → ((writeAddrs a l).any (fun e => claimable e.1 &&
           !d.claimEn (blockOf e.1))) = true → d.writeReg a l = (5, [], d)) ∧
       (((writeAddrs a l).any (fun e => !regAddr e.1 || neverWritten e.1)) = false → (if ((writeAddrs a l).any (fun e
           => !claimable e.1)) = true then 3 else 2) ≤ d.svcLevel → ((writeAddrs a l).any (fun e => claimable e.1 &&
           !d.claimEn (blockOf e.1))) = false → d.writeReg a l = (0, [], (writeAddrs a l).foldl (fun (d : Dev) e =>
           d.periphWrite (if claimable e.1 = true then .session else .system) e.1 e.2) d)) ∧
       (2 < k ∨ hash.length ≠ 32 → d.progKey k hash = (4, d)) ∧
       (k ≤ 2 → hash.length = 32 → d.bit Reg.SVC_KEYSTAT k = true → d.progKey k hash = (16, d)) ∧
       (k ≤ 2 → hash.length = 32 → d.bit Reg.SVC_KEYSTAT k = false → d.progKey k hash = (0,
           (({ d with svc := { d.svc with keys := (k, hash) :: d.svc.keys } } : Dev).setBit Reg.SVC_KEYSTAT k true).fw
           0xB040 [nw k])))

end
end

