-- ==== Sys2Proof/Laws/Store.lean ====
section
/-! SUPPORT. The laws of the sparse stores: reading after writing, and the canonical form. -/

set_option Elab.async false

namespace Sys2Proof.Machine

variable {α : Type} {dflt : Nat → α}

/-- A store whose keys all lie above `k` holds the default at `k`. -/
theorem Store.get_of_above {l : List (Nat × α)} {k : Nat} (h : Store.above k l = true) :
    Store.get dflt l k = dflt k := by
  cases l with
  | nil => rfl
  | cons e t => obtain ⟨k', v⟩ := e; simp [Store.above] at h; simp [Store.get, Nat.ne_of_lt h, h]

/-- Lowering the bound keeps it a bound. -/
theorem Store.above_mono {l : List (Nat × α)} {k lo : Nat} (hk : lo ≤ k) (h : Store.above k l = true) :
    Store.above lo l = true := by
  cases l with
  | nil => rfl
  | cons e t => simp [Store.above] at *; omega

variable [DecidableEq α]

/-- A write above the bound keeps the bound. -/
theorem Store.above_put {l : List (Nat × α)} {lo k : Nat} {v : α} (h : Store.above lo l = true) (hk : lo < k)
    (hw : Store.wf dflt l = true) : Store.above lo (Store.put dflt l k v) = true := by
  cases l with
  | nil => simp only [Store.put]; split <;> simp [Store.above, hk]
  | cons e t =>
    obtain ⟨k', v'⟩ := e
    simp only [Store.above, decide_eq_true_eq] at h
    simp only [Store.wf, Bool.and_eq_true, decide_eq_true_eq] at hw
    simp only [Store.put]
    repeat' split
    all_goals first
      | simpa [Store.above] using h
      | simpa [Store.above] using hk
      | exact Store.above_mono (Nat.le_of_lt h) hw.1.2

/-- A write keeps the canonical form. -/
theorem Store.wf_put {l : List (Nat × α)} (h : Store.wf dflt l = true) (k : Nat) (v : α) :
    Store.wf dflt (Store.put dflt l k v) = true := by
  induction l with
  | nil => simp only [Store.put]; split <;> simp_all [Store.wf, Store.above]
  | cons e t ih =>
    obtain ⟨k', v'⟩ := e
    have hw := h
    simp only [Store.wf, Bool.and_eq_true, decide_eq_true_eq] at h
    simp only [Store.put]
    split
    · split
      · exact hw
      · simp_all [Store.wf, Store.above]
    · split
      · split
        · exact h.2
        · simp_all [Store.wf]
      · have : k' < k := by omega
        simp [Store.wf, h.1.1, ih h.2, Store.above_put h.1.2 this h.2]

/-- Reading the key just written gives the value. -/
theorem Store.get_put_same {l : List (Nat × α)} (h : Store.wf dflt l = true) (k : Nat) (v : α) :
    Store.get dflt (Store.put dflt l k v) k = v := by
  induction l with
  | nil => simp only [Store.put]; split <;> simp_all [Store.get]
  | cons e t ih =>
    obtain ⟨k', v'⟩ := e
    simp only [Store.wf, Bool.and_eq_true, decide_eq_true_eq] at h
    simp only [Store.put]
    split
    · split <;> simp_all [Store.get]
      omega
    · split
      · split
        · subst_vars; simpa using Store.get_of_above h.1.2
        · simp [Store.get]
      · have hk : ¬ k < k' := by assumption
        have hn : ¬ k = k' := by assumption
        simp [Store.get, hk, hn, ih h.2]

/-- Another key keeps its value. -/
theorem Store.get_put_other {l : List (Nat × α)} (h : Store.wf dflt l = true) {j k : Nat} (hj : j ≠ k) (v : α) :
    Store.get dflt (Store.put dflt l k v) j = Store.get dflt l j := by
  induction l with
  | nil => simp only [Store.put]; split <;> simp_all [Store.get]
  | cons e t ih =>
    obtain ⟨k', v'⟩ := e
    simp only [Store.wf, Bool.and_eq_true, decide_eq_true_eq] at h
    have ih := ih h.2
    simp only [Store.put]
    split
    · split
      · rfl
      · simp only [Store.get, hj, if_false]
        split
        · have h1 : j ≠ k' := by omega
          have h2 : j < k' := by omega
          simp [h1, h2]
        · rfl
    · split
      · subst_vars
        split
        · simp only [Store.get, hj, if_false]
          split
          · exact Store.get_of_above (Store.above_mono (by omega) h.1.2)
          · rfl
        · simp [Store.get, hj]
      · simp only [Store.get, ih]

/-- Dropping entries keeps the canonical form. -/
theorem Store.wf_filter {l : List (Nat × α)} (h : Store.wf dflt l = true) (p : Nat × α → Bool) :
    Store.wf dflt (l.filter p) = true := by
  have key : ∀ (l : List (Nat × α)) (lo : Nat), Store.wf dflt l = true → Store.above lo l = true →
      Store.above lo (l.filter p) = true := by
    intro l
    induction l with
    | nil => intros; rfl
    | cons e t ih =>
      intro lo hw ha
      simp only [Store.wf, Bool.and_eq_true, decide_eq_true_eq] at hw
      simp only [Store.above, decide_eq_true_eq] at ha
      simp only [List.filter_cons]
      split
      · simpa [Store.above] using ha
      · exact ih lo hw.2 (Store.above_mono (Nat.le_of_lt ha) hw.1.2)
  induction l with
  | nil => rfl
  | cons e t ih =>
    simp only [Store.wf, Bool.and_eq_true, decide_eq_true_eq] at h
    simp only [List.filter_cons]
    split
    · simp [Store.wf, h.1.1, ih h.2, key t _ h.2 h.1.2]
    · exact ih h.2

/-- Keeping a part of every entry keeps the canonical form. -/
theorem Store.wf_mapKeep {l : List (Nat × α)} (h : Store.wf dflt l = true) (f : Nat → α → α) :
    Store.wf dflt (Store.mapKeep dflt f l) = true := by
  have key : ∀ (l : List (Nat × α)) (lo : Nat), Store.wf dflt l = true → Store.above lo l = true →
      Store.above lo (Store.mapKeep dflt f l) = true := by
    intro l
    induction l with
    | nil => intros; rfl
    | cons e t ih =>
      intro lo hw ha
      simp only [Store.wf, Bool.and_eq_true, decide_eq_true_eq] at hw
      simp only [Store.above, decide_eq_true_eq] at ha
      simp only [Store.mapKeep]
      split
      · exact ih lo hw.2 (Store.above_mono (Nat.le_of_lt ha) hw.1.2)
      · simpa [Store.above] using ha
  induction l with
  | nil => rfl
  | cons e t ih =>
    simp only [Store.wf, Bool.and_eq_true, decide_eq_true_eq] at h
    simp only [Store.mapKeep]
    split
    · exact ih h.2
    · simp_all [Store.wf]

end Sys2Proof.Machine
end

