-- ==== Sys2Proof/Laws/Canon.lean ====
section
/-! SUPPORT. How the canonical form passes through conditionals, folds and record updates. -/

set_option Elab.async false
set_option linter.all false

namespace Sys2Proof.Machine

theorem canon_fold {d : Dev} (h : d.Canon) : CanonStores d.mem d.regs := h

theorem canon_ite {c : Prop} [Decidable c] {a b : Dev} (ha : a.Canon) (hb : b.Canon) : (if c then a else b).Canon := by
  split <;> assumption

theorem canon_ite_snd {α : Type} {c : Prop} [Decidable c] {a b : α × Dev} (ha : a.2.Canon) (hb : b.2.Canon) :
    (if c then a else b).2.Canon := by
  split <;> assumption

theorem canon_ite_fst {α : Type} {c : Prop} [Decidable c] {a b : Dev × α} (ha : a.1.Canon) (hb : b.1.Canon) :
    (if c then a else b).1.Canon := by
  split <;> assumption

theorem canon_have {P : Prop} {d : Dev} (h : d.Canon) (k : d.Canon → P) : P := k h

theorem canon_foldl {α : Type} {f : Dev → α → Dev} {l : List α} {d : Dev} (hf : ∀ d a, d.Canon → (f d a).Canon)
    (h : d.Canon) : (l.foldl f d).Canon := by
  induction l generalizing d with
  | nil => exact h
  | cons a t ih => exact ih (hf d a h)

theorem canon_foldl_fst {α β : Type} {f : Dev × β → α → Dev × β} {l : List α} {p : Dev × β}
    (hf : ∀ p a, p.1.Canon → (f p a).1.Canon) (h : p.1.Canon) : (l.foldl f p).1.Canon := by
  induction l generalizing p with
  | nil => exact h
  | cons a t ih => exact ih (hf p a h)

theorem canon_foldl_snd {α β : Type} {f : β × Dev → α → β × Dev} {l : List α} {p : β × Dev}
    (hf : ∀ p a, p.2.Canon → (f p a).2.Canon) (h : p.2.Canon) : (l.foldl f p).2.Canon := by
  induction l generalizing p with
  | nil => exact h
  | cons a t ih => exact ih (hf p a h)

theorem canon_snd {α : Type} {p : α × Dev} {a : α} {d : Dev} (h : p.2.Canon) (e : p = (a, d)) : d.Canon := by
  subst e; exact h

theorem canon_fst {α : Type} {p : Dev × α} {a : α} {d : Dev} (h : p.1.Canon) (e : p = (d, a)) : d.Canon := by
  subst e; exact h

end Sys2Proof.Machine
end

