-- ==== Sys2Proof/Laws/CanonState.lean ====
section
/-! SUPPORT. Every operation of Sys2Proof/Machine/State.lean keeps the canonical form. -/

set_option Elab.async false
set_option linter.all false

namespace Sys2Proof.Machine

theorem Dev.reset_canon : Dev.Canon (Dev.reset ) := ⟨rfl, rfl⟩

end Sys2Proof.Machine
end

