-- ==== Sys2Proof/Laws/CanonOps.lean ====
section
/-! SUPPORT. Every operation of Sys2Proof/Machine/Ops.lean keeps the canonical form. -/

set_option Elab.async false
set_option linter.all false

namespace Sys2Proof.Machine

theorem Dev.wr_canon {d : Dev} (a : Nat) (v : Word) (hd : d.Canon) : Dev.Canon (Dev.wr d a v) := ⟨hd.1, Store.wf_put hd.2 a v⟩

theorem Dev.setFld_canon {d : Dev} (a hi lo v : Nat) (hd : d.Canon) : Dev.Canon (Dev.setFld d a hi lo v) := by
  unfold Dev.setFld
  repeat' (first
    | with_reducible assumption
    | with_reducible apply Dev.wr_canon)

theorem Dev.setBit_canon {d : Dev} (a i : Nat) (b : Bool) (hd : d.Canon) : Dev.Canon (Dev.setBit d a i b) := by
  unfold Dev.setBit
  repeat' (first
    | with_reducible assumption
    | with_reducible apply Dev.wr_canon)

theorem Dev.flag_canon {d : Dev} (a i : Nat) (hd : d.Canon) : Dev.Canon (Dev.flag d a i) := by
  unfold Dev.flag
  repeat' (first
    | with_reducible assumption
    | with_reducible apply Dev.setBit_canon)

theorem Dev.satInc_canon {d : Dev} (a hi lo : Nat) (hd : d.Canon) : Dev.Canon (Dev.satInc d a hi lo) := by
  unfold Dev.satInc
  repeat' (first
    | with_reducible assumption
    | with_reducible apply Dev.setFld_canon)

theorem Dev.incWrap_canon {d : Dev} (a : Nat) (hd : d.Canon) : Dev.Canon (Dev.incWrap d a) := by
  unfold Dev.incWrap
  repeat' (first
    | with_reducible assumption
    | with_reducible apply Dev.wr_canon)

theorem Dev.plainWrite_canon {d : Dev} (a : Nat) (v : Word) (hd : d.Canon) : Dev.Canon (Dev.plainWrite d a v) := by
  unfold Dev.plainWrite
  repeat' (first
    | with_reducible assumption
    | with_reducible apply Dev.wr_canon
    | split
    | with_reducible refine canon_snd ?_ (by with_reducible assumption)
    | with_reducible refine canon_fst ?_ (by with_reducible assumption)
    | dsimp only)

theorem Dev.setByte_canon {d : Dev} (a : Nat) (v : Byte) (hd : d.Canon) : Dev.Canon (Dev.setByte d a v) := ⟨Store.wf_put hd.1 a v, hd.2⟩

theorem Dev.setBytes_canon {d : Dev} (a : Nat) (y0 : List Byte) (hd : d.Canon) : Dev.Canon (Dev.setBytes d a y0) := by
  induction y0 generalizing d a with
  | nil =>
    unfold Dev.setBytes
    repeat' (first
      | with_reducible assumption
      | with_reducible apply Dev.setByte_canon
      | split
      | with_reducible refine canon_snd ?_ (by with_reducible assumption)
      | with_reducible refine canon_fst ?_ (by with_reducible assumption))
  | cons a t ih =>
    unfold Dev.setBytes
    repeat' (first
      | with_reducible assumption
      | with_reducible apply Dev.setByte_canon
      | with_reducible apply ih
      | split
      | with_reducible refine canon_snd ?_ (by with_reducible assumption)
      | with_reducible refine canon_fst ?_ (by with_reducible assumption))

theorem Dev.setWord_canon {d : Dev} (a : Nat) (v : Word) (hd : d.Canon) : Dev.Canon (Dev.setWord d a v) := by
  unfold Dev.setWord
  repeat' (first
    | with_reducible assumption
    | with_reducible apply Dev.setBytes_canon)

theorem Dev.setWords_canon {d : Dev} (a : Nat) (l : List Word) (hd : d.Canon) : Dev.Canon (Dev.setWords d a l) := by
  unfold Dev.setWords
  repeat' (first
    | with_reducible assumption
    | with_reducible apply Dev.setBytes_canon)

theorem Dev.start_canon {d : Dev} (t : Nat) (hd : d.Canon) : Dev.Canon (Dev.start d t) := by
  unfold Dev.start
  repeat' (first
    | with_reducible assumption
    | (unfold Dev.Canon; dsimp only; with_reducible refine canon_fold ?_))

theorem Dev.stop_canon {d : Dev} (t : Nat) (hd : d.Canon) : Dev.Canon (Dev.stop d t) := by
  unfold Dev.stop
  repeat' (first
    | with_reducible assumption
    | (unfold Dev.Canon; dsimp only; with_reducible refine canon_fold ?_))

theorem Dev.send_canon {d : Dev} (i : Iface) (kind : Nat) (data : List Nat) (hd : d.Canon) : Dev.Canon (Dev.send d i kind data) := by
  unfold Dev.send
  repeat' (first
    | with_reducible assumption
    | with_reducible apply canon_ite
    | (unfold Dev.Canon; dsimp only; with_reducible refine canon_fold ?_)
    | (extract_lets +onlyGivenNames e; refine canon_have (d := e) ?_ ?_; unfold e; rotate_left; intro; clear_value e; rotate_right)
    | (extract_lets +onlyGivenNames e; clear_value e))

theorem Dev.mirror_canon {d : Dev} (sec off : Nat) (data : List Byte) (hd : d.Canon) : Dev.Canon (Dev.mirror d sec off data) := by
  unfold Dev.mirror
  repeat' (first
    | with_reducible assumption
    | with_reducible apply Dev.send_canon
    | with_reducible apply canon_ite)

theorem Dev.cue_canon {d : Dev} (kind arg : Nat) (hd : d.Canon) : Dev.Canon (Dev.cue d kind arg) := by
  unfold Dev.cue
  repeat' (first
    | with_reducible assumption
    | with_reducible apply Dev.send_canon
    | with_reducible apply canon_ite)

theorem Dev.portFrame_canon {d : Dev} (x : Bool) (hd : d.Canon) : Dev.Canon (Dev.portFrame d x) := by
  unfold Dev.portFrame
  repeat' (first
    | with_reducible assumption
    | with_reducible apply Dev.start_canon
    | with_reducible apply canon_ite)

theorem Dev.smbQueue_canon {d : Dev} (l : List Nat) (hd : d.Canon) : Dev.Canon (Dev.smbQueue d l) := by
  unfold Dev.smbQueue
  repeat' (first
    | with_reducible assumption
    | with_reducible apply Dev.wr_canon
    | (unfold Dev.Canon; dsimp only; with_reducible refine canon_fold ?_)
    | (extract_lets +onlyGivenNames e; refine canon_have (d := e) ?_ ?_; unfold e; rotate_left; intro; clear_value e; rotate_right)
    | (extract_lets +onlyGivenNames e; clear_value e))

theorem Dev.smbPush_canon {d : Dev} (code : Nat) (hd : d.Canon) : Dev.Canon (Dev.smbPush d code) := by
  unfold Dev.smbPush
  repeat' (first
    | with_reducible assumption
    | with_reducible apply Dev.flag_canon
    | with_reducible apply Dev.smbQueue_canon
    | with_reducible apply canon_ite)

theorem Dev.enqueue_canon {d : Dev} (p : Post) (hd : d.Canon) : Dev.Canon (Dev.enqueue d p) := by
  unfold Dev.enqueue
  repeat' (first
    | with_reducible assumption
    | with_reducible apply Dev.flag_canon
    | with_reducible apply Dev.satInc_canon
    | with_reducible apply Dev.mirror_canon
    | with_reducible apply Dev.smbPush_canon
    | with_reducible apply canon_ite
    | (unfold Dev.Canon; dsimp only; with_reducible refine canon_fold ?_)
    | (extract_lets +onlyGivenNames e; refine canon_have (d := e) ?_ ?_; unfold e; rotate_left; intro; clear_value e; rotate_right)
    | (extract_lets +onlyGivenNames e; clear_value e))

theorem Dev.postBytes_canon {d : Dev} (origin code : Nat) (payload : List Byte) (hd : d.Canon) : Dev.Canon (Dev.postBytes d origin code payload) := by
  unfold Dev.postBytes
  repeat' (first
    | with_reducible assumption
    | with_reducible apply Dev.flag_canon
    | with_reducible apply Dev.enqueue_canon
    | with_reducible apply canon_ite)

theorem Dev.post_canon {d : Dev} (origin code : Nat) (ws : List Word) (hd : d.Canon) : Dev.Canon (Dev.post d origin code ws) := by
  unfold Dev.post
  repeat' (first
    | with_reducible assumption
    | with_reducible apply Dev.postBytes_canon)

theorem Dev.hw_canon {d : Dev} (code : Nat) (ws : List Word) (hd : d.Canon) : Dev.Canon (Dev.hw d code ws) := by
  unfold Dev.hw
  repeat' (first
    | with_reducible assumption
    | with_reducible apply Dev.post_canon)

theorem Dev.fw_canon {d : Dev} (code : Nat) (ws : List Word) (hd : d.Canon) : Dev.Canon (Dev.fw d code ws) := by
  unfold Dev.fw
  repeat' (first
    | with_reducible assumption
    | with_reducible apply Dev.post_canon)

theorem Dev.discard_canon {d : Dev} (a : Nat) (hd : d.Canon) : Dev.Canon (Dev.discard d a) := by
  unfold Dev.discard
  repeat' (first
    | with_reducible assumption
    | with_reducible apply Dev.wr_canon
    | with_reducible apply Dev.satInc_canon
    | with_reducible apply Dev.start_canon
    | with_reducible apply Dev.hw_canon
    | with_reducible apply canon_ite
    | (extract_lets +onlyGivenNames e; refine canon_have (d := e) ?_ ?_; unfold e; rotate_left; intro; clear_value e; rotate_right)
    | (extract_lets +onlyGivenNames e; clear_value e))

theorem Dev.sysWr_canon {d : Dev} (a : Nat) (v : Word) (hd : d.Canon) : Dev.Canon (Dev.sysWr d a v) := by
  unfold Dev.sysWr
  repeat' (first
    | with_reducible assumption
    | with_reducible apply Dev.wr_canon
    | with_reducible apply Dev.discard_canon
    | with_reducible apply canon_ite)

theorem Dev.sysSetFld_canon {d : Dev} (a hi lo v : Nat) (hd : d.Canon) : Dev.Canon (Dev.sysSetFld d a hi lo v) := by
  unfold Dev.sysSetFld
  repeat' (first
    | with_reducible assumption
    | with_reducible apply Dev.sysWr_canon)

theorem Dev.setClaim_canon {d : Dev} (b : Nat) (hd : d.Canon) : Dev.Canon (Dev.setClaim d b) := by
  unfold Dev.setClaim
  repeat' (first
    | with_reducible assumption
    | with_reducible apply Dev.setBit_canon
    | with_reducible apply Dev.stop_canon
    | with_reducible apply canon_ite
    | (unfold Dev.Canon; dsimp only; with_reducible refine canon_fold ?_)
    | (extract_lets +onlyGivenNames e; refine canon_have (d := e) ?_ ?_; unfold e; rotate_left; intro; clear_value e; rotate_right)
    | (extract_lets +onlyGivenNames e; clear_value e))

theorem Dev.nextFree_canon {d : Dev} (hd : d.Canon) : Dev.Canon (Dev.nextFree d).2 := by
  unfold Dev.nextFree
  repeat' (first
    | with_reducible assumption
    | (unfold Dev.Canon; dsimp only; with_reducible refine canon_fold ?_)
    | dsimp only)

end Sys2Proof.Machine
end

