-- ==== Sys2Proof/Laws/State.lean ====
section
/-! SUPPORT. Which field each plain update writes, and that it leaves the others as they are. -/

set_option Elab.async false

namespace Sys2Proof.Machine

/-! ### Dev.wr -/

@[simp] theorem Dev.wr_sys (d : Dev) (a : Nat) (v : Word) : (d.wr a v).sys = d.sys := rfl
@[simp] theorem Dev.wr_prog (d : Dev) (a : Nat) (v : Word) : (d.wr a v).prog = d.prog := rfl
@[simp] theorem Dev.wr_mem (d : Dev) (a : Nat) (v : Word) : (d.wr a v).mem = d.mem := rfl
@[simp] theorem Dev.wr_ecc (d : Dev) (a : Nat) (v : Word) : (d.wr a v).ecc = d.ecc := rfl
@[simp] theorem Dev.wr_corr (d : Dev) (a : Nat) (v : Word) : (d.wr a v).corr = d.corr := rfl
@[simp] theorem Dev.wr_now (d : Dev) (a : Nat) (v : Word) : (d.wr a v).now = d.now := rfl
@[simp] theorem Dev.wr_timers (d : Dev) (a : Nat) (v : Word) : (d.wr a v).timers = d.timers := rfl
@[simp] theorem Dev.wr_par (d : Dev) (a : Nat) (v : Word) : (d.wr a v).par = d.par := rfl
@[simp] theorem Dev.wr_tables (d : Dev) (a : Nat) (v : Word) : (d.wr a v).tables = d.tables := rfl
@[simp] theorem Dev.wr_managed (d : Dev) (a : Nat) (v : Word) : (d.wr a v).managed = d.managed := rfl
@[simp] theorem Dev.wr_freeCount (d : Dev) (a : Nat) (v : Word) : (d.wr a v).freeCount = d.freeCount := rfl
@[simp] theorem Dev.wr_sent (d : Dev) (a : Nat) (v : Word) : (d.wr a v).sent = d.sent := rfl
@[simp] theorem Dev.wr_recd (d : Dev) (a : Nat) (v : Word) : (d.wr a v).recd = d.recd := rfl
@[simp] theorem Dev.wr_tim (d : Dev) (a : Nat) (v : Word) : (d.wr a v).tim = d.tim := rfl
@[simp] theorem Dev.wr_ang (d : Dev) (a : Nat) (v : Word) : (d.wr a v).ang = d.ang := rfl
@[simp] theorem Dev.wr_tt (d : Dev) (a : Nat) (v : Word) : (d.wr a v).tt = d.tt := rfl
@[simp] theorem Dev.wr_lim (d : Dev) (a : Nat) (v : Word) : (d.wr a v).lim = d.lim := rfl
@[simp] theorem Dev.wr_scc (d : Dev) (a : Nat) (v : Word) : (d.wr a v).scc = d.scc := rfl
@[simp] theorem Dev.wr_pins (d : Dev) (a : Nat) (v : Word) : (d.wr a v).pins = d.pins := rfl
@[simp] theorem Dev.wr_fio (d : Dev) (a : Nat) (v : Word) : (d.wr a v).fio = d.fio := rfl
@[simp] theorem Dev.wr_cyc (d : Dev) (a : Nat) (v : Word) : (d.wr a v).cyc = d.cyc := rfl
@[simp] theorem Dev.wr_nvc (d : Dev) (a : Nat) (v : Word) : (d.wr a v).nvc = d.nvc := rfl
@[simp] theorem Dev.wr_pwr (d : Dev) (a : Nat) (v : Word) : (d.wr a v).pwr = d.pwr := rfl
@[simp] theorem Dev.wr_hlt (d : Dev) (a : Nat) (v : Word) : (d.wr a v).hlt = d.hlt := rfl
@[simp] theorem Dev.wr_smb (d : Dev) (a : Nat) (v : Word) : (d.wr a v).smb = d.smb := rfl
@[simp] theorem Dev.wr_ring (d : Dev) (a : Nat) (v : Word) : (d.wr a v).ring = d.ring := rfl
@[simp] theorem Dev.wr_swp (d : Dev) (a : Nat) (v : Word) : (d.wr a v).swp = d.swp := rfl
@[simp] theorem Dev.wr_svc (d : Dev) (a : Nat) (v : Word) : (d.wr a v).svc = d.svc := rfl
@[simp] theorem Dev.wr_tw (d : Dev) (a : Nat) (v : Word) : (d.wr a v).tw = d.tw := rfl
@[simp] theorem Dev.wr_dsp (d : Dev) (a : Nat) (v : Word) : (d.wr a v).dsp = d.dsp := rfl
@[simp] theorem Dev.wr_imp (d : Dev) (a : Nat) (v : Word) : (d.wr a v).imp = d.imp := rfl
@[simp] theorem Dev.wr_sdm (d : Dev) (a : Nat) (v : Word) : (d.wr a v).sdm = d.sdm := rfl
@[simp] theorem Dev.wr_ce (d : Dev) (a : Nat) (v : Word) : (d.wr a v).ce = d.ce := rfl
@[simp] theorem Dev.wr_pwm (d : Dev) (a : Nat) (v : Word) : (d.wr a v).pwm = d.pwm := rfl
@[simp] theorem Dev.wr_acc (d : Dev) (a : Nat) (v : Word) : (d.wr a v).acc = d.acc := rfl
@[simp] theorem Dev.wr_est (d : Dev) (a : Nat) (v : Word) : (d.wr a v).est = d.est := rfl
@[simp] theorem Dev.wr_mot (d : Dev) (a : Nat) (v : Word) : (d.wr a v).mot = d.mot := rfl
@[simp] theorem Dev.wr_eth (d : Dev) (a : Nat) (v : Word) : (d.wr a v).eth = d.eth := rfl
@[simp] theorem Dev.wr_dma (d : Dev) (a : Nat) (v : Word) : (d.wr a v).dma = d.dma := rfl

/-! ### Dev.setByte -/

@[simp] theorem Dev.setByte_sys (d : Dev) (a : Nat) (v : Byte) : (d.setByte a v).sys = d.sys := rfl
@[simp] theorem Dev.setByte_prog (d : Dev) (a : Nat) (v : Byte) : (d.setByte a v).prog = d.prog := rfl
@[simp] theorem Dev.setByte_ecc (d : Dev) (a : Nat) (v : Byte) : (d.setByte a v).ecc = d.ecc := rfl
@[simp] theorem Dev.setByte_corr (d : Dev) (a : Nat) (v : Byte) : (d.setByte a v).corr = d.corr := rfl
@[simp] theorem Dev.setByte_regs (d : Dev) (a : Nat) (v : Byte) : (d.setByte a v).regs = d.regs := rfl
@[simp] theorem Dev.setByte_now (d : Dev) (a : Nat) (v : Byte) : (d.setByte a v).now = d.now := rfl
@[simp] theorem Dev.setByte_timers (d : Dev) (a : Nat) (v : Byte) : (d.setByte a v).timers = d.timers := rfl
@[simp] theorem Dev.setByte_par (d : Dev) (a : Nat) (v : Byte) : (d.setByte a v).par = d.par := rfl
@[simp] theorem Dev.setByte_tables (d : Dev) (a : Nat) (v : Byte) : (d.setByte a v).tables = d.tables := rfl
@[simp] theorem Dev.setByte_managed (d : Dev) (a : Nat) (v : Byte) : (d.setByte a v).managed = d.managed := rfl
@[simp] theorem Dev.setByte_freeCount (d : Dev) (a : Nat) (v : Byte) : (d.setByte a v).freeCount = d.freeCount := rfl
@[simp] theorem Dev.setByte_sent (d : Dev) (a : Nat) (v : Byte) : (d.setByte a v).sent = d.sent := rfl
@[simp] theorem Dev.setByte_recd (d : Dev) (a : Nat) (v : Byte) : (d.setByte a v).recd = d.recd := rfl
@[simp] theorem Dev.setByte_tim (d : Dev) (a : Nat) (v : Byte) : (d.setByte a v).tim = d.tim := rfl
@[simp] theorem Dev.setByte_ang (d : Dev) (a : Nat) (v : Byte) : (d.setByte a v).ang = d.ang := rfl
@[simp] theorem Dev.setByte_tt (d : Dev) (a : Nat) (v : Byte) : (d.setByte a v).tt = d.tt := rfl
@[simp] theorem Dev.setByte_lim (d : Dev) (a : Nat) (v : Byte) : (d.setByte a v).lim = d.lim := rfl
@[simp] theorem Dev.setByte_scc (d : Dev) (a : Nat) (v : Byte) : (d.setByte a v).scc = d.scc := rfl
@[simp] theorem Dev.setByte_pins (d : Dev) (a : Nat) (v : Byte) : (d.setByte a v).pins = d.pins := rfl
@[simp] theorem Dev.setByte_fio (d : Dev) (a : Nat) (v : Byte) : (d.setByte a v).fio = d.fio := rfl
@[simp] theorem Dev.setByte_cyc (d : Dev) (a : Nat) (v : Byte) : (d.setByte a v).cyc = d.cyc := rfl
@[simp] theorem Dev.setByte_nvc (d : Dev) (a : Nat) (v : Byte) : (d.setByte a v).nvc = d.nvc := rfl
@[simp] theorem Dev.setByte_pwr (d : Dev) (a : Nat) (v : Byte) : (d.setByte a v).pwr = d.pwr := rfl
@[simp] theorem Dev.setByte_hlt (d : Dev) (a : Nat) (v : Byte) : (d.setByte a v).hlt = d.hlt := rfl
@[simp] theorem Dev.setByte_smb (d : Dev) (a : Nat) (v : Byte) : (d.setByte a v).smb = d.smb := rfl
@[simp] theorem Dev.setByte_ring (d : Dev) (a : Nat) (v : Byte) : (d.setByte a v).ring = d.ring := rfl
@[simp] theorem Dev.setByte_swp (d : Dev) (a : Nat) (v : Byte) : (d.setByte a v).swp = d.swp := rfl
@[simp] theorem Dev.setByte_svc (d : Dev) (a : Nat) (v : Byte) : (d.setByte a v).svc = d.svc := rfl
@[simp] theorem Dev.setByte_tw (d : Dev) (a : Nat) (v : Byte) : (d.setByte a v).tw = d.tw := rfl
@[simp] theorem Dev.setByte_dsp (d : Dev) (a : Nat) (v : Byte) : (d.setByte a v).dsp = d.dsp := rfl
@[simp] theorem Dev.setByte_imp (d : Dev) (a : Nat) (v : Byte) : (d.setByte a v).imp = d.imp := rfl
@[simp] theorem Dev.setByte_sdm (d : Dev) (a : Nat) (v : Byte) : (d.setByte a v).sdm = d.sdm := rfl
@[simp] theorem Dev.setByte_ce (d : Dev) (a : Nat) (v : Byte) : (d.setByte a v).ce = d.ce := rfl
@[simp] theorem Dev.setByte_pwm (d : Dev) (a : Nat) (v : Byte) : (d.setByte a v).pwm = d.pwm := rfl
@[simp] theorem Dev.setByte_acc (d : Dev) (a : Nat) (v : Byte) : (d.setByte a v).acc = d.acc := rfl
@[simp] theorem Dev.setByte_est (d : Dev) (a : Nat) (v : Byte) : (d.setByte a v).est = d.est := rfl
@[simp] theorem Dev.setByte_mot (d : Dev) (a : Nat) (v : Byte) : (d.setByte a v).mot = d.mot := rfl
@[simp] theorem Dev.setByte_eth (d : Dev) (a : Nat) (v : Byte) : (d.setByte a v).eth = d.eth := rfl
@[simp] theorem Dev.setByte_dma (d : Dev) (a : Nat) (v : Byte) : (d.setByte a v).dma = d.dma := rfl

/-! ### Dev.start -/

@[simp] theorem Dev.start_sys (d : Dev) (t : Nat) : (d.start t).sys = d.sys := rfl
@[simp] theorem Dev.start_prog (d : Dev) (t : Nat) : (d.start t).prog = d.prog := rfl
@[simp] theorem Dev.start_mem (d : Dev) (t : Nat) : (d.start t).mem = d.mem := rfl
@[simp] theorem Dev.start_ecc (d : Dev) (t : Nat) : (d.start t).ecc = d.ecc := rfl
@[simp] theorem Dev.start_corr (d : Dev) (t : Nat) : (d.start t).corr = d.corr := rfl
@[simp] theorem Dev.start_regs (d : Dev) (t : Nat) : (d.start t).regs = d.regs := rfl
@[simp] theorem Dev.start_now (d : Dev) (t : Nat) : (d.start t).now = d.now := rfl
@[simp] theorem Dev.start_par (d : Dev) (t : Nat) : (d.start t).par = d.par := rfl
@[simp] theorem Dev.start_tables (d : Dev) (t : Nat) : (d.start t).tables = d.tables := rfl
@[simp] theorem Dev.start_managed (d : Dev) (t : Nat) : (d.start t).managed = d.managed := rfl
@[simp] theorem Dev.start_freeCount (d : Dev) (t : Nat) : (d.start t).freeCount = d.freeCount := rfl
@[simp] theorem Dev.start_sent (d : Dev) (t : Nat) : (d.start t).sent = d.sent := rfl
@[simp] theorem Dev.start_recd (d : Dev) (t : Nat) : (d.start t).recd = d.recd := rfl
@[simp] theorem Dev.start_tim (d : Dev) (t : Nat) : (d.start t).tim = d.tim := rfl
@[simp] theorem Dev.start_ang (d : Dev) (t : Nat) : (d.start t).ang = d.ang := rfl
@[simp] theorem Dev.start_tt (d : Dev) (t : Nat) : (d.start t).tt = d.tt := rfl
@[simp] theorem Dev.start_lim (d : Dev) (t : Nat) : (d.start t).lim = d.lim := rfl
@[simp] theorem Dev.start_scc (d : Dev) (t : Nat) : (d.start t).scc = d.scc := rfl
@[simp] theorem Dev.start_pins (d : Dev) (t : Nat) : (d.start t).pins = d.pins := rfl
@[simp] theorem Dev.start_fio (d : Dev) (t : Nat) : (d.start t).fio = d.fio := rfl
@[simp] theorem Dev.start_cyc (d : Dev) (t : Nat) : (d.start t).cyc = d.cyc := rfl
@[simp] theorem Dev.start_nvc (d : Dev) (t : Nat) : (d.start t).nvc = d.nvc := rfl
@[simp] theorem Dev.start_pwr (d : Dev) (t : Nat) : (d.start t).pwr = d.pwr := rfl
@[simp] theorem Dev.start_hlt (d : Dev) (t : Nat) : (d.start t).hlt = d.hlt := rfl
@[simp] theorem Dev.start_smb (d : Dev) (t : Nat) : (d.start t).smb = d.smb := rfl
@[simp] theorem Dev.start_ring (d : Dev) (t : Nat) : (d.start t).ring = d.ring := rfl
@[simp] theorem Dev.start_swp (d : Dev) (t : Nat) : (d.start t).swp = d.swp := rfl
@[simp] theorem Dev.start_svc (d : Dev) (t : Nat) : (d.start t).svc = d.svc := rfl
@[simp] theorem Dev.start_tw (d : Dev) (t : Nat) : (d.start t).tw = d.tw := rfl
@[simp] theorem Dev.start_dsp (d : Dev) (t : Nat) : (d.start t).dsp = d.dsp := rfl
@[simp] theorem Dev.start_imp (d : Dev) (t : Nat) : (d.start t).imp = d.imp := rfl
@[simp] theorem Dev.start_sdm (d : Dev) (t : Nat) : (d.start t).sdm = d.sdm := rfl
@[simp] theorem Dev.start_ce (d : Dev) (t : Nat) : (d.start t).ce = d.ce := rfl
@[simp] theorem Dev.start_pwm (d : Dev) (t : Nat) : (d.start t).pwm = d.pwm := rfl
@[simp] theorem Dev.start_acc (d : Dev) (t : Nat) : (d.start t).acc = d.acc := rfl
@[simp] theorem Dev.start_est (d : Dev) (t : Nat) : (d.start t).est = d.est := rfl
@[simp] theorem Dev.start_mot (d : Dev) (t : Nat) : (d.start t).mot = d.mot := rfl
@[simp] theorem Dev.start_eth (d : Dev) (t : Nat) : (d.start t).eth = d.eth := rfl
@[simp] theorem Dev.start_dma (d : Dev) (t : Nat) : (d.start t).dma = d.dma := rfl

/-! ### Dev.stop -/

@[simp] theorem Dev.stop_sys (d : Dev) (t : Nat) : (d.stop t).sys = d.sys := rfl
@[simp] theorem Dev.stop_prog (d : Dev) (t : Nat) : (d.stop t).prog = d.prog := rfl
@[simp] theorem Dev.stop_mem (d : Dev) (t : Nat) : (d.stop t).mem = d.mem := rfl
@[simp] theorem Dev.stop_ecc (d : Dev) (t : Nat) : (d.stop t).ecc = d.ecc := rfl
@[simp] theorem Dev.stop_corr (d : Dev) (t : Nat) : (d.stop t).corr = d.corr := rfl
@[simp] theorem Dev.stop_regs (d : Dev) (t : Nat) : (d.stop t).regs = d.regs := rfl
@[simp] theorem Dev.stop_now (d : Dev) (t : Nat) : (d.stop t).now = d.now := rfl
@[simp] theorem Dev.stop_par (d : Dev) (t : Nat) : (d.stop t).par = d.par := rfl
@[simp] theorem Dev.stop_tables (d : Dev) (t : Nat) : (d.stop t).tables = d.tables := rfl
@[simp] theorem Dev.stop_managed (d : Dev) (t : Nat) : (d.stop t).managed = d.managed := rfl
@[simp] theorem Dev.stop_freeCount (d : Dev) (t : Nat) : (d.stop t).freeCount = d.freeCount := rfl
@[simp] theorem Dev.stop_sent (d : Dev) (t : Nat) : (d.stop t).sent = d.sent := rfl
@[simp] theorem Dev.stop_recd (d : Dev) (t : Nat) : (d.stop t).recd = d.recd := rfl
@[simp] theorem Dev.stop_tim (d : Dev) (t : Nat) : (d.stop t).tim = d.tim := rfl
@[simp] theorem Dev.stop_ang (d : Dev) (t : Nat) : (d.stop t).ang = d.ang := rfl
@[simp] theorem Dev.stop_tt (d : Dev) (t : Nat) : (d.stop t).tt = d.tt := rfl
@[simp] theorem Dev.stop_lim (d : Dev) (t : Nat) : (d.stop t).lim = d.lim := rfl
@[simp] theorem Dev.stop_scc (d : Dev) (t : Nat) : (d.stop t).scc = d.scc := rfl
@[simp] theorem Dev.stop_pins (d : Dev) (t : Nat) : (d.stop t).pins = d.pins := rfl
@[simp] theorem Dev.stop_fio (d : Dev) (t : Nat) : (d.stop t).fio = d.fio := rfl
@[simp] theorem Dev.stop_cyc (d : Dev) (t : Nat) : (d.stop t).cyc = d.cyc := rfl
@[simp] theorem Dev.stop_nvc (d : Dev) (t : Nat) : (d.stop t).nvc = d.nvc := rfl
@[simp] theorem Dev.stop_pwr (d : Dev) (t : Nat) : (d.stop t).pwr = d.pwr := rfl
@[simp] theorem Dev.stop_hlt (d : Dev) (t : Nat) : (d.stop t).hlt = d.hlt := rfl
@[simp] theorem Dev.stop_smb (d : Dev) (t : Nat) : (d.stop t).smb = d.smb := rfl
@[simp] theorem Dev.stop_ring (d : Dev) (t : Nat) : (d.stop t).ring = d.ring := rfl
@[simp] theorem Dev.stop_swp (d : Dev) (t : Nat) : (d.stop t).swp = d.swp := rfl
@[simp] theorem Dev.stop_svc (d : Dev) (t : Nat) : (d.stop t).svc = d.svc := rfl
@[simp] theorem Dev.stop_tw (d : Dev) (t : Nat) : (d.stop t).tw = d.tw := rfl
@[simp] theorem Dev.stop_dsp (d : Dev) (t : Nat) : (d.stop t).dsp = d.dsp := rfl
@[simp] theorem Dev.stop_imp (d : Dev) (t : Nat) : (d.stop t).imp = d.imp := rfl
@[simp] theorem Dev.stop_sdm (d : Dev) (t : Nat) : (d.stop t).sdm = d.sdm := rfl
@[simp] theorem Dev.stop_ce (d : Dev) (t : Nat) : (d.stop t).ce = d.ce := rfl
@[simp] theorem Dev.stop_pwm (d : Dev) (t : Nat) : (d.stop t).pwm = d.pwm := rfl
@[simp] theorem Dev.stop_acc (d : Dev) (t : Nat) : (d.stop t).acc = d.acc := rfl
@[simp] theorem Dev.stop_est (d : Dev) (t : Nat) : (d.stop t).est = d.est := rfl
@[simp] theorem Dev.stop_mot (d : Dev) (t : Nat) : (d.stop t).mot = d.mot := rfl
@[simp] theorem Dev.stop_eth (d : Dev) (t : Nat) : (d.stop t).eth = d.eth := rfl
@[simp] theorem Dev.stop_dma (d : Dev) (t : Nat) : (d.stop t).dma = d.dma := rfl

/-! ### Dev.setFld -/

@[simp] theorem Dev.setFld_sys (d : Dev) (a hi lo v : Nat) : (d.setFld a hi lo v).sys = d.sys := rfl
@[simp] theorem Dev.setFld_prog (d : Dev) (a hi lo v : Nat) : (d.setFld a hi lo v).prog = d.prog := rfl
@[simp] theorem Dev.setFld_mem (d : Dev) (a hi lo v : Nat) : (d.setFld a hi lo v).mem = d.mem := rfl
@[simp] theorem Dev.setFld_ecc (d : Dev) (a hi lo v : Nat) : (d.setFld a hi lo v).ecc = d.ecc := rfl
@[simp] theorem Dev.setFld_corr (d : Dev) (a hi lo v : Nat) : (d.setFld a hi lo v).corr = d.corr := rfl
@[simp] theorem Dev.setFld_now (d : Dev) (a hi lo v : Nat) : (d.setFld a hi lo v).now = d.now := rfl
@[simp] theorem Dev.setFld_timers (d : Dev) (a hi lo v : Nat) : (d.setFld a hi lo v).timers = d.timers := rfl
@[simp] theorem Dev.setFld_par (d : Dev) (a hi lo v : Nat) : (d.setFld a hi lo v).par = d.par := rfl
@[simp] theorem Dev.setFld_tables (d : Dev) (a hi lo v : Nat) : (d.setFld a hi lo v).tables = d.tables := rfl
@[simp] theorem Dev.setFld_managed (d : Dev) (a hi lo v : Nat) : (d.setFld a hi lo v).managed = d.managed := rfl
@[simp] theorem Dev.setFld_freeCount (d : Dev) (a hi lo v : Nat) : (d.setFld a hi lo v).freeCount = d.freeCount := rfl
@[simp] theorem Dev.setFld_sent (d : Dev) (a hi lo v : Nat) : (d.setFld a hi lo v).sent = d.sent := rfl
@[simp] theorem Dev.setFld_recd (d : Dev) (a hi lo v : Nat) : (d.setFld a hi lo v).recd = d.recd := rfl
@[simp] theorem Dev.setFld_tim (d : Dev) (a hi lo v : Nat) : (d.setFld a hi lo v).tim = d.tim := rfl
@[simp] theorem Dev.setFld_ang (d : Dev) (a hi lo v : Nat) : (d.setFld a hi lo v).ang = d.ang := rfl
@[simp] theorem Dev.setFld_tt (d : Dev) (a hi lo v : Nat) : (d.setFld a hi lo v).tt = d.tt := rfl
@[simp] theorem Dev.setFld_lim (d : Dev) (a hi lo v : Nat) : (d.setFld a hi lo v).lim = d.lim := rfl
@[simp] theorem Dev.setFld_scc (d : Dev) (a hi lo v : Nat) : (d.setFld a hi lo v).scc = d.scc := rfl
@[simp] theorem Dev.setFld_pins (d : Dev) (a hi lo v : Nat) : (d.setFld a hi lo v).pins = d.pins := rfl
@[simp] theorem Dev.setFld_fio (d : Dev) (a hi lo v : Nat) : (d.setFld a hi lo v).fio = d.fio := rfl
@[simp] theorem Dev.setFld_cyc (d : Dev) (a hi lo v : Nat) : (d.setFld a hi lo v).cyc = d.cyc := rfl
@[simp] theorem Dev.setFld_nvc (d : Dev) (a hi lo v : Nat) : (d.setFld a hi lo v).nvc = d.nvc := rfl
@[simp] theorem Dev.setFld_pwr (d : Dev) (a hi lo v : Nat) : (d.setFld a hi lo v).pwr = d.pwr := rfl
@[simp] theorem Dev.setFld_hlt (d : Dev) (a hi lo v : Nat) : (d.setFld a hi lo v).hlt = d.hlt := rfl
@[simp] theorem Dev.setFld_smb (d : Dev) (a hi lo v : Nat) : (d.setFld a hi lo v).smb = d.smb := rfl
@[simp] theorem Dev.setFld_ring (d : Dev) (a hi lo v : Nat) : (d.setFld a hi lo v).ring = d.ring := rfl
@[simp] theorem Dev.setFld_swp (d : Dev) (a hi lo v : Nat) : (d.setFld a hi lo v).swp = d.swp := rfl
@[simp] theorem Dev.setFld_svc (d : Dev) (a hi lo v : Nat) : (d.setFld a hi lo v).svc = d.svc := rfl
@[simp] theorem Dev.setFld_tw (d : Dev) (a hi lo v : Nat) : (d.setFld a hi lo v).tw = d.tw := rfl
@[simp] theorem Dev.setFld_dsp (d : Dev) (a hi lo v : Nat) : (d.setFld a hi lo v).dsp = d.dsp := rfl
@[simp] theorem Dev.setFld_imp (d : Dev) (a hi lo v : Nat) : (d.setFld a hi lo v).imp = d.imp := rfl
@[simp] theorem Dev.setFld_sdm (d : Dev) (a hi lo v : Nat) : (d.setFld a hi lo v).sdm = d.sdm := rfl
@[simp] theorem Dev.setFld_ce (d : Dev) (a hi lo v : Nat) : (d.setFld a hi lo v).ce = d.ce := rfl
@[simp] theorem Dev.setFld_pwm (d : Dev) (a hi lo v : Nat) : (d.setFld a hi lo v).pwm = d.pwm := rfl
@[simp] theorem Dev.setFld_acc (d : Dev) (a hi lo v : Nat) : (d.setFld a hi lo v).acc = d.acc := rfl
@[simp] theorem Dev.setFld_est (d : Dev) (a hi lo v : Nat) : (d.setFld a hi lo v).est = d.est := rfl
@[simp] theorem Dev.setFld_mot (d : Dev) (a hi lo v : Nat) : (d.setFld a hi lo v).mot = d.mot := rfl
@[simp] theorem Dev.setFld_eth (d : Dev) (a hi lo v : Nat) : (d.setFld a hi lo v).eth = d.eth := rfl
@[simp] theorem Dev.setFld_dma (d : Dev) (a hi lo v : Nat) : (d.setFld a hi lo v).dma = d.dma := rfl

/-! ### Dev.setBit -/

@[simp] theorem Dev.setBit_sys (d : Dev) (a i : Nat) (b : Bool) : (d.setBit a i b).sys = d.sys := rfl
@[simp] theorem Dev.setBit_prog (d : Dev) (a i : Nat) (b : Bool) : (d.setBit a i b).prog = d.prog := rfl
@[simp] theorem Dev.setBit_mem (d : Dev) (a i : Nat) (b : Bool) : (d.setBit a i b).mem = d.mem := rfl
@[simp] theorem Dev.setBit_ecc (d : Dev) (a i : Nat) (b : Bool) : (d.setBit a i b).ecc = d.ecc := rfl
@[simp] theorem Dev.setBit_corr (d : Dev) (a i : Nat) (b : Bool) : (d.setBit a i b).corr = d.corr := rfl
@[simp] theorem Dev.setBit_now (d : Dev) (a i : Nat) (b : Bool) : (d.setBit a i b).now = d.now := rfl
@[simp] theorem Dev.setBit_timers (d : Dev) (a i : Nat) (b : Bool) : (d.setBit a i b).timers = d.timers := rfl
@[simp] theorem Dev.setBit_par (d : Dev) (a i : Nat) (b : Bool) : (d.setBit a i b).par = d.par := rfl
@[simp] theorem Dev.setBit_tables (d : Dev) (a i : Nat) (b : Bool) : (d.setBit a i b).tables = d.tables := rfl
@[simp] theorem Dev.setBit_managed (d : Dev) (a i : Nat) (b : Bool) : (d.setBit a i b).managed = d.managed := rfl
@[simp] theorem Dev.setBit_freeCount (d : Dev) (a i : Nat) (b : Bool) : (d.setBit a i b).freeCount = d.freeCount := rfl
@[simp] theorem Dev.setBit_sent (d : Dev) (a i : Nat) (b : Bool) : (d.setBit a i b).sent = d.sent := rfl
@[simp] theorem Dev.setBit_recd (d : Dev) (a i : Nat) (b : Bool) : (d.setBit a i b).recd = d.recd := rfl
@[simp] theorem Dev.setBit_tim (d : Dev) (a i : Nat) (b : Bool) : (d.setBit a i b).tim = d.tim := rfl
@[simp] theorem Dev.setBit_ang (d : Dev) (a i : Nat) (b : Bool) : (d.setBit a i b).ang = d.ang := rfl
@[simp] theorem Dev.setBit_tt (d : Dev) (a i : Nat) (b : Bool) : (d.setBit a i b).tt = d.tt := rfl
@[simp] theorem Dev.setBit_lim (d : Dev) (a i : Nat) (b : Bool) : (d.setBit a i b).lim = d.lim := rfl
@[simp] theorem Dev.setBit_scc (d : Dev) (a i : Nat) (b : Bool) : (d.setBit a i b).scc = d.scc := rfl
@[simp] theorem Dev.setBit_pins (d : Dev) (a i : Nat) (b : Bool) : (d.setBit a i b).pins = d.pins := rfl
@[simp] theorem Dev.setBit_fio (d : Dev) (a i : Nat) (b : Bool) : (d.setBit a i b).fio = d.fio := rfl
@[simp] theorem Dev.setBit_cyc (d : Dev) (a i : Nat) (b : Bool) : (d.setBit a i b).cyc = d.cyc := rfl
@[simp] theorem Dev.setBit_nvc (d : Dev) (a i : Nat) (b : Bool) : (d.setBit a i b).nvc = d.nvc := rfl
@[simp] theorem Dev.setBit_pwr (d : Dev) (a i : Nat) (b : Bool) : (d.setBit a i b).pwr = d.pwr := rfl
@[simp] theorem Dev.setBit_hlt (d : Dev) (a i : Nat) (b : Bool) : (d.setBit a i b).hlt = d.hlt := rfl
@[simp] theorem Dev.setBit_smb (d : Dev) (a i : Nat) (b : Bool) : (d.setBit a i b).smb = d.smb := rfl
@[simp] theorem Dev.setBit_ring (d : Dev) (a i : Nat) (b : Bool) : (d.setBit a i b).ring = d.ring := rfl
@[simp] theorem Dev.setBit_swp (d : Dev) (a i : Nat) (b : Bool) : (d.setBit a i b).swp = d.swp := rfl
@[simp] theorem Dev.setBit_svc (d : Dev) (a i : Nat) (b : Bool) : (d.setBit a i b).svc = d.svc := rfl
@[simp] theorem Dev.setBit_tw (d : Dev) (a i : Nat) (b : Bool) : (d.setBit a i b).tw = d.tw := rfl
@[simp] theorem Dev.setBit_dsp (d : Dev) (a i : Nat) (b : Bool) : (d.setBit a i b).dsp = d.dsp := rfl
@[simp] theorem Dev.setBit_imp (d : Dev) (a i : Nat) (b : Bool) : (d.setBit a i b).imp = d.imp := rfl
@[simp] theorem Dev.setBit_sdm (d : Dev) (a i : Nat) (b : Bool) : (d.setBit a i b).sdm = d.sdm := rfl
@[simp] theorem Dev.setBit_ce (d : Dev) (a i : Nat) (b : Bool) : (d.setBit a i b).ce = d.ce := rfl
@[simp] theorem Dev.setBit_pwm (d : Dev) (a i : Nat) (b : Bool) : (d.setBit a i b).pwm = d.pwm := rfl
@[simp] theorem Dev.setBit_acc (d : Dev) (a i : Nat) (b : Bool) : (d.setBit a i b).acc = d.acc := rfl
@[simp] theorem Dev.setBit_est (d : Dev) (a i : Nat) (b : Bool) : (d.setBit a i b).est = d.est := rfl
@[simp] theorem Dev.setBit_mot (d : Dev) (a i : Nat) (b : Bool) : (d.setBit a i b).mot = d.mot := rfl
@[simp] theorem Dev.setBit_eth (d : Dev) (a i : Nat) (b : Bool) : (d.setBit a i b).eth = d.eth := rfl
@[simp] theorem Dev.setBit_dma (d : Dev) (a i : Nat) (b : Bool) : (d.setBit a i b).dma = d.dma := rfl

/-! ### Dev.flag -/

@[simp] theorem Dev.flag_sys (d : Dev) (a i : Nat) : (d.flag a i).sys = d.sys := rfl
@[simp] theorem Dev.flag_prog (d : Dev) (a i : Nat) : (d.flag a i).prog = d.prog := rfl
@[simp] theorem Dev.flag_mem (d : Dev) (a i : Nat) : (d.flag a i).mem = d.mem := rfl
@[simp] theorem Dev.flag_ecc (d : Dev) (a i : Nat) : (d.flag a i).ecc = d.ecc := rfl
@[simp] theorem Dev.flag_corr (d : Dev) (a i : Nat) : (d.flag a i).corr = d.corr := rfl
@[simp] theorem Dev.flag_now (d : Dev) (a i : Nat) : (d.flag a i).now = d.now := rfl
@[simp] theorem Dev.flag_timers (d : Dev) (a i : Nat) : (d.flag a i).timers = d.timers := rfl
@[simp] theorem Dev.flag_par (d : Dev) (a i : Nat) : (d.flag a i).par = d.par := rfl
@[simp] theorem Dev.flag_tables (d : Dev) (a i : Nat) : (d.flag a i).tables = d.tables := rfl
@[simp] theorem Dev.flag_managed (d : Dev) (a i : Nat) : (d.flag a i).managed = d.managed := rfl
@[simp] theorem Dev.flag_freeCount (d : Dev) (a i : Nat) : (d.flag a i).freeCount = d.freeCount := rfl
@[simp] theorem Dev.flag_sent (d : Dev) (a i : Nat) : (d.flag a i).sent = d.sent := rfl
@[simp] theorem Dev.flag_recd (d : Dev) (a i : Nat) : (d.flag a i).recd = d.recd := rfl
@[simp] theorem Dev.flag_tim (d : Dev) (a i : Nat) : (d.flag a i).tim = d.tim := rfl
@[simp] theorem Dev.flag_ang (d : Dev) (a i : Nat) : (d.flag a i).ang = d.ang := rfl
@[simp] theorem Dev.flag_tt (d : Dev) (a i : Nat) : (d.flag a i).tt = d.tt := rfl
@[simp] theorem Dev.flag_lim (d : Dev) (a i : Nat) : (d.flag a i).lim = d.lim := rfl
@[simp] theorem Dev.flag_scc (d : Dev) (a i : Nat) : (d.flag a i).scc = d.scc := rfl
@[simp] theorem Dev.flag_pins (d : Dev) (a i : Nat) : (d.flag a i).pins = d.pins := rfl
@[simp] theorem Dev.flag_fio (d : Dev) (a i : Nat) : (d.flag a i).fio = d.fio := rfl
@[simp] theorem Dev.flag_cyc (d : Dev) (a i : Nat) : (d.flag a i).cyc = d.cyc := rfl
@[simp] theorem Dev.flag_nvc (d : Dev) (a i : Nat) : (d.flag a i).nvc = d.nvc := rfl
@[simp] theorem Dev.flag_pwr (d : Dev) (a i : Nat) : (d.flag a i).pwr = d.pwr := rfl
@[simp] theorem Dev.flag_hlt (d : Dev) (a i : Nat) : (d.flag a i).hlt = d.hlt := rfl
@[simp] theorem Dev.flag_smb (d : Dev) (a i : Nat) : (d.flag a i).smb = d.smb := rfl
@[simp] theorem Dev.flag_ring (d : Dev) (a i : Nat) : (d.flag a i).ring = d.ring := rfl
@[simp] theorem Dev.flag_swp (d : Dev) (a i : Nat) : (d.flag a i).swp = d.swp := rfl
@[simp] theorem Dev.flag_svc (d : Dev) (a i : Nat) : (d.flag a i).svc = d.svc := rfl
@[simp] theorem Dev.flag_tw (d : Dev) (a i : Nat) : (d.flag a i).tw = d.tw := rfl
@[simp] theorem Dev.flag_dsp (d : Dev) (a i : Nat) : (d.flag a i).dsp = d.dsp := rfl
@[simp] theorem Dev.flag_imp (d : Dev) (a i : Nat) : (d.flag a i).imp = d.imp := rfl
@[simp] theorem Dev.flag_sdm (d : Dev) (a i : Nat) : (d.flag a i).sdm = d.sdm := rfl
@[simp] theorem Dev.flag_ce (d : Dev) (a i : Nat) : (d.flag a i).ce = d.ce := rfl
@[simp] theorem Dev.flag_pwm (d : Dev) (a i : Nat) : (d.flag a i).pwm = d.pwm := rfl
@[simp] theorem Dev.flag_acc (d : Dev) (a i : Nat) : (d.flag a i).acc = d.acc := rfl
@[simp] theorem Dev.flag_est (d : Dev) (a i : Nat) : (d.flag a i).est = d.est := rfl
@[simp] theorem Dev.flag_mot (d : Dev) (a i : Nat) : (d.flag a i).mot = d.mot := rfl
@[simp] theorem Dev.flag_eth (d : Dev) (a i : Nat) : (d.flag a i).eth = d.eth := rfl
@[simp] theorem Dev.flag_dma (d : Dev) (a i : Nat) : (d.flag a i).dma = d.dma := rfl

/-! ### Dev.satInc -/

@[simp] theorem Dev.satInc_sys (d : Dev) (a hi lo : Nat) : (d.satInc a hi lo).sys = d.sys := rfl
@[simp] theorem Dev.satInc_prog (d : Dev) (a hi lo : Nat) : (d.satInc a hi lo).prog = d.prog := rfl
@[simp] theorem Dev.satInc_mem (d : Dev) (a hi lo : Nat) : (d.satInc a hi lo).mem = d.mem := rfl
@[simp] theorem Dev.satInc_ecc (d : Dev) (a hi lo : Nat) : (d.satInc a hi lo).ecc = d.ecc := rfl
@[simp] theorem Dev.satInc_corr (d : Dev) (a hi lo : Nat) : (d.satInc a hi lo).corr = d.corr := rfl
@[simp] theorem Dev.satInc_now (d : Dev) (a hi lo : Nat) : (d.satInc a hi lo).now = d.now := rfl
@[simp] theorem Dev.satInc_timers (d : Dev) (a hi lo : Nat) : (d.satInc a hi lo).timers = d.timers := rfl
@[simp] theorem Dev.satInc_par (d : Dev) (a hi lo : Nat) : (d.satInc a hi lo).par = d.par := rfl
@[simp] theorem Dev.satInc_tables (d : Dev) (a hi lo : Nat) : (d.satInc a hi lo).tables = d.tables := rfl
@[simp] theorem Dev.satInc_managed (d : Dev) (a hi lo : Nat) : (d.satInc a hi lo).managed = d.managed := rfl
@[simp] theorem Dev.satInc_freeCount (d : Dev) (a hi lo : Nat) : (d.satInc a hi lo).freeCount = d.freeCount := rfl
@[simp] theorem Dev.satInc_sent (d : Dev) (a hi lo : Nat) : (d.satInc a hi lo).sent = d.sent := rfl
@[simp] theorem Dev.satInc_recd (d : Dev) (a hi lo : Nat) : (d.satInc a hi lo).recd = d.recd := rfl
@[simp] theorem Dev.satInc_tim (d : Dev) (a hi lo : Nat) : (d.satInc a hi lo).tim = d.tim := rfl
@[simp] theorem Dev.satInc_ang (d : Dev) (a hi lo : Nat) : (d.satInc a hi lo).ang = d.ang := rfl
@[simp] theorem Dev.satInc_tt (d : Dev) (a hi lo : Nat) : (d.satInc a hi lo).tt = d.tt := rfl
@[simp] theorem Dev.satInc_lim (d : Dev) (a hi lo : Nat) : (d.satInc a hi lo).lim = d.lim := rfl
@[simp] theorem Dev.satInc_scc (d : Dev) (a hi lo : Nat) : (d.satInc a hi lo).scc = d.scc := rfl
@[simp] theorem Dev.satInc_pins (d : Dev) (a hi lo : Nat) : (d.satInc a hi lo).pins = d.pins := rfl
@[simp] theorem Dev.satInc_fio (d : Dev) (a hi lo : Nat) : (d.satInc a hi lo).fio = d.fio := rfl
@[simp] theorem Dev.satInc_cyc (d : Dev) (a hi lo : Nat) : (d.satInc a hi lo).cyc = d.cyc := rfl
@[simp] theorem Dev.satInc_nvc (d : Dev) (a hi lo : Nat) : (d.satInc a hi lo).nvc = d.nvc := rfl
@[simp] theorem Dev.satInc_pwr (d : Dev) (a hi lo : Nat) : (d.satInc a hi lo).pwr = d.pwr := rfl
@[simp] theorem Dev.satInc_hlt (d : Dev) (a hi lo : Nat) : (d.satInc a hi lo).hlt = d.hlt := rfl
@[simp] theorem Dev.satInc_smb (d : Dev) (a hi lo : Nat) : (d.satInc a hi lo).smb = d.smb := rfl
@[simp] theorem Dev.satInc_ring (d : Dev) (a hi lo : Nat) : (d.satInc a hi lo).ring = d.ring := rfl
@[simp] theorem Dev.satInc_swp (d : Dev) (a hi lo : Nat) : (d.satInc a hi lo).swp = d.swp := rfl
@[simp] theorem Dev.satInc_svc (d : Dev) (a hi lo : Nat) : (d.satInc a hi lo).svc = d.svc := rfl
@[simp] theorem Dev.satInc_tw (d : Dev) (a hi lo : Nat) : (d.satInc a hi lo).tw = d.tw := rfl
@[simp] theorem Dev.satInc_dsp (d : Dev) (a hi lo : Nat) : (d.satInc a hi lo).dsp = d.dsp := rfl
@[simp] theorem Dev.satInc_imp (d : Dev) (a hi lo : Nat) : (d.satInc a hi lo).imp = d.imp := rfl
@[simp] theorem Dev.satInc_sdm (d : Dev) (a hi lo : Nat) : (d.satInc a hi lo).sdm = d.sdm := rfl
@[simp] theorem Dev.satInc_ce (d : Dev) (a hi lo : Nat) : (d.satInc a hi lo).ce = d.ce := rfl
@[simp] theorem Dev.satInc_pwm (d : Dev) (a hi lo : Nat) : (d.satInc a hi lo).pwm = d.pwm := rfl
@[simp] theorem Dev.satInc_acc (d : Dev) (a hi lo : Nat) : (d.satInc a hi lo).acc = d.acc := rfl
@[simp] theorem Dev.satInc_est (d : Dev) (a hi lo : Nat) : (d.satInc a hi lo).est = d.est := rfl
@[simp] theorem Dev.satInc_mot (d : Dev) (a hi lo : Nat) : (d.satInc a hi lo).mot = d.mot := rfl
@[simp] theorem Dev.satInc_eth (d : Dev) (a hi lo : Nat) : (d.satInc a hi lo).eth = d.eth := rfl
@[simp] theorem Dev.satInc_dma (d : Dev) (a hi lo : Nat) : (d.satInc a hi lo).dma = d.dma := rfl

/-! ### Dev.incWrap -/

@[simp] theorem Dev.incWrap_sys (d : Dev) (a : Nat) : (d.incWrap a).sys = d.sys := rfl
@[simp] theorem Dev.incWrap_prog (d : Dev) (a : Nat) : (d.incWrap a).prog = d.prog := rfl
@[simp] theorem Dev.incWrap_mem (d : Dev) (a : Nat) : (d.incWrap a).mem = d.mem := rfl
@[simp] theorem Dev.incWrap_ecc (d : Dev) (a : Nat) : (d.incWrap a).ecc = d.ecc := rfl
@[simp] theorem Dev.incWrap_corr (d : Dev) (a : Nat) : (d.incWrap a).corr = d.corr := rfl
@[simp] theorem Dev.incWrap_now (d : Dev) (a : Nat) : (d.incWrap a).now = d.now := rfl
@[simp] theorem Dev.incWrap_timers (d : Dev) (a : Nat) : (d.incWrap a).timers = d.timers := rfl
@[simp] theorem Dev.incWrap_par (d : Dev) (a : Nat) : (d.incWrap a).par = d.par := rfl
@[simp] theorem Dev.incWrap_tables (d : Dev) (a : Nat) : (d.incWrap a).tables = d.tables := rfl
@[simp] theorem Dev.incWrap_managed (d : Dev) (a : Nat) : (d.incWrap a).managed = d.managed := rfl
@[simp] theorem Dev.incWrap_freeCount (d : Dev) (a : Nat) : (d.incWrap a).freeCount = d.freeCount := rfl
@[simp] theorem Dev.incWrap_sent (d : Dev) (a : Nat) : (d.incWrap a).sent = d.sent := rfl
@[simp] theorem Dev.incWrap_recd (d : Dev) (a : Nat) : (d.incWrap a).recd = d.recd := rfl
@[simp] theorem Dev.incWrap_tim (d : Dev) (a : Nat) : (d.incWrap a).tim = d.tim := rfl
@[simp] theorem Dev.incWrap_ang (d : Dev) (a : Nat) : (d.incWrap a).ang = d.ang := rfl
@[simp] theorem Dev.incWrap_tt (d : Dev) (a : Nat) : (d.incWrap a).tt = d.tt := rfl
@[simp] theorem Dev.incWrap_lim (d : Dev) (a : Nat) : (d.incWrap a).lim = d.lim := rfl
@[simp] theorem Dev.incWrap_scc (d : Dev) (a : Nat) : (d.incWrap a).scc = d.scc := rfl
@[simp] theorem Dev.incWrap_pins (d : Dev) (a : Nat) : (d.incWrap a).pins = d.pins := rfl
@[simp] theorem Dev.incWrap_fio (d : Dev) (a : Nat) : (d.incWrap a).fio = d.fio := rfl
@[simp] theorem Dev.incWrap_cyc (d : Dev) (a : Nat) : (d.incWrap a).cyc = d.cyc := rfl
@[simp] theorem Dev.incWrap_nvc (d : Dev) (a : Nat) : (d.incWrap a).nvc = d.nvc := rfl
@[simp] theorem Dev.incWrap_pwr (d : Dev) (a : Nat) : (d.incWrap a).pwr = d.pwr := rfl
@[simp] theorem Dev.incWrap_hlt (d : Dev) (a : Nat) : (d.incWrap a).hlt = d.hlt := rfl
@[simp] theorem Dev.incWrap_smb (d : Dev) (a : Nat) : (d.incWrap a).smb = d.smb := rfl
@[simp] theorem Dev.incWrap_ring (d : Dev) (a : Nat) : (d.incWrap a).ring = d.ring := rfl
@[simp] theorem Dev.incWrap_swp (d : Dev) (a : Nat) : (d.incWrap a).swp = d.swp := rfl
@[simp] theorem Dev.incWrap_svc (d : Dev) (a : Nat) : (d.incWrap a).svc = d.svc := rfl
@[simp] theorem Dev.incWrap_tw (d : Dev) (a : Nat) : (d.incWrap a).tw = d.tw := rfl
@[simp] theorem Dev.incWrap_dsp (d : Dev) (a : Nat) : (d.incWrap a).dsp = d.dsp := rfl
@[simp] theorem Dev.incWrap_imp (d : Dev) (a : Nat) : (d.incWrap a).imp = d.imp := rfl
@[simp] theorem Dev.incWrap_sdm (d : Dev) (a : Nat) : (d.incWrap a).sdm = d.sdm := rfl
@[simp] theorem Dev.incWrap_ce (d : Dev) (a : Nat) : (d.incWrap a).ce = d.ce := rfl
@[simp] theorem Dev.incWrap_pwm (d : Dev) (a : Nat) : (d.incWrap a).pwm = d.pwm := rfl
@[simp] theorem Dev.incWrap_acc (d : Dev) (a : Nat) : (d.incWrap a).acc = d.acc := rfl
@[simp] theorem Dev.incWrap_est (d : Dev) (a : Nat) : (d.incWrap a).est = d.est := rfl
@[simp] theorem Dev.incWrap_mot (d : Dev) (a : Nat) : (d.incWrap a).mot = d.mot := rfl
@[simp] theorem Dev.incWrap_eth (d : Dev) (a : Nat) : (d.incWrap a).eth = d.eth := rfl
@[simp] theorem Dev.incWrap_dma (d : Dev) (a : Nat) : (d.incWrap a).dma = d.dma := rfl

/-! ### Dev.setCore -/

@[simp] theorem Dev.setCore_mem (d : Dev) (p : Pair) (c : CoreSt) : (d.setCore p c).mem = d.mem := by cases p <;> rfl
@[simp] theorem Dev.setCore_ecc (d : Dev) (p : Pair) (c : CoreSt) : (d.setCore p c).ecc = d.ecc := by cases p <;> rfl
@[simp] theorem Dev.setCore_corr (d : Dev) (p : Pair) (c : CoreSt) : (d.setCore p c).corr = d.corr := by cases p <;> rfl
@[simp] theorem Dev.setCore_regs (d : Dev) (p : Pair) (c : CoreSt) : (d.setCore p c).regs = d.regs := by cases p <;> rfl
@[simp] theorem Dev.setCore_now (d : Dev) (p : Pair) (c : CoreSt) : (d.setCore p c).now = d.now := by cases p <;> rfl
@[simp] theorem Dev.setCore_timers (d : Dev) (p : Pair) (c : CoreSt) : (d.setCore p c).timers = d.timers := by cases p <;> rfl
@[simp] theorem Dev.setCore_par (d : Dev) (p : Pair) (c : CoreSt) : (d.setCore p c).par = d.par := by cases p <;> rfl
@[simp] theorem Dev.setCore_tables (d : Dev) (p : Pair) (c : CoreSt) : (d.setCore p c).tables = d.tables := by cases p <;> rfl
@[simp] theorem Dev.setCore_managed (d : Dev) (p : Pair) (c : CoreSt) : (d.setCore p c).managed = d.managed := by cases p <;> rfl
@[simp] theorem Dev.setCore_freeCount (d : Dev) (p : Pair) (c : CoreSt) : (d.setCore p c).freeCount = d.freeCount := by cases p <;> rfl
@[simp] theorem Dev.setCore_sent (d : Dev) (p : Pair) (c : CoreSt) : (d.setCore p c).sent = d.sent := by cases p <;> rfl
@[simp] theorem Dev.setCore_recd (d : Dev) (p : Pair) (c : CoreSt) : (d.setCore p c).recd = d.recd := by cases p <;> rfl
@[simp] theorem Dev.setCore_tim (d : Dev) (p : Pair) (c : CoreSt) : (d.setCore p c).tim = d.tim := by cases p <;> rfl
@[simp] theorem Dev.setCore_ang (d : Dev) (p : Pair) (c : CoreSt) : (d.setCore p c).ang = d.ang := by cases p <;> rfl
@[simp] theorem Dev.setCore_tt (d : Dev) (p : Pair) (c : CoreSt) : (d.setCore p c).tt = d.tt := by cases p <;> rfl
@[simp] theorem Dev.setCore_lim (d : Dev) (p : Pair) (c : CoreSt) : (d.setCore p c).lim = d.lim := by cases p <;> rfl
@[simp] theorem Dev.setCore_scc (d : Dev) (p : Pair) (c : CoreSt) : (d.setCore p c).scc = d.scc := by cases p <;> rfl
@[simp] theorem Dev.setCore_pins (d : Dev) (p : Pair) (c : CoreSt) : (d.setCore p c).pins = d.pins := by cases p <;> rfl
@[simp] theorem Dev.setCore_fio (d : Dev) (p : Pair) (c : CoreSt) : (d.setCore p c).fio = d.fio := by cases p <;> rfl
@[simp] theorem Dev.setCore_cyc (d : Dev) (p : Pair) (c : CoreSt) : (d.setCore p c).cyc = d.cyc := by cases p <;> rfl
@[simp] theorem Dev.setCore_nvc (d : Dev) (p : Pair) (c : CoreSt) : (d.setCore p c).nvc = d.nvc := by cases p <;> rfl
@[simp] theorem Dev.setCore_pwr (d : Dev) (p : Pair) (c : CoreSt) : (d.setCore p c).pwr = d.pwr := by cases p <;> rfl
@[simp] theorem Dev.setCore_hlt (d : Dev) (p : Pair) (c : CoreSt) : (d.setCore p c).hlt = d.hlt := by cases p <;> rfl
@[simp] theorem Dev.setCore_smb (d : Dev) (p : Pair) (c : CoreSt) : (d.setCore p c).smb = d.smb := by cases p <;> rfl
@[simp] theorem Dev.setCore_ring (d : Dev) (p : Pair) (c : CoreSt) : (d.setCore p c).ring = d.ring := by cases p <;> rfl
@[simp] theorem Dev.setCore_swp (d : Dev) (p : Pair) (c : CoreSt) : (d.setCore p c).swp = d.swp := by cases p <;> rfl
@[simp] theorem Dev.setCore_svc (d : Dev) (p : Pair) (c : CoreSt) : (d.setCore p c).svc = d.svc := by cases p <;> rfl
@[simp] theorem Dev.setCore_tw (d : Dev) (p : Pair) (c : CoreSt) : (d.setCore p c).tw = d.tw := by cases p <;> rfl
@[simp] theorem Dev.setCore_dsp (d : Dev) (p : Pair) (c : CoreSt) : (d.setCore p c).dsp = d.dsp := by cases p <;> rfl
@[simp] theorem Dev.setCore_imp (d : Dev) (p : Pair) (c : CoreSt) : (d.setCore p c).imp = d.imp := by cases p <;> rfl
@[simp] theorem Dev.setCore_sdm (d : Dev) (p : Pair) (c : CoreSt) : (d.setCore p c).sdm = d.sdm := by cases p <;> rfl
@[simp] theorem Dev.setCore_ce (d : Dev) (p : Pair) (c : CoreSt) : (d.setCore p c).ce = d.ce := by cases p <;> rfl
@[simp] theorem Dev.setCore_pwm (d : Dev) (p : Pair) (c : CoreSt) : (d.setCore p c).pwm = d.pwm := by cases p <;> rfl
@[simp] theorem Dev.setCore_acc (d : Dev) (p : Pair) (c : CoreSt) : (d.setCore p c).acc = d.acc := by cases p <;> rfl
@[simp] theorem Dev.setCore_est (d : Dev) (p : Pair) (c : CoreSt) : (d.setCore p c).est = d.est := by cases p <;> rfl
@[simp] theorem Dev.setCore_mot (d : Dev) (p : Pair) (c : CoreSt) : (d.setCore p c).mot = d.mot := by cases p <;> rfl
@[simp] theorem Dev.setCore_eth (d : Dev) (p : Pair) (c : CoreSt) : (d.setCore p c).eth = d.eth := by cases p <;> rfl
@[simp] theorem Dev.setCore_dma (d : Dev) (p : Pair) (c : CoreSt) : (d.setCore p c).dma = d.dma := by cases p <;> rfl

@[simp] theorem Dev.core_setCore (d : Dev) (p : Pair) (c : CoreSt) : (d.setCore p c).core p = c := by cases p <;> rfl

theorem Dev.core_setCore_other (d : Dev) {p q : Pair} (h : q ≠ p) (c : CoreSt) : (d.setCore p c).core q = d.core q := by
  cases p <;> cases q <;> first | rfl | exact absurd rfl h

@[simp] theorem Dev.setCore_setCore (d : Dev) (p : Pair) (c e : CoreSt) : (d.setCore p c).setCore p e = d.setCore p e := by
  cases p <;> rfl

/-! ### Registers of a pair -/

@[simp] theorem CoreSt.setReg_pc (c : CoreSt) (r : GReg) (v : Word) : (c.setReg r v).pc = c.pc := by unfold CoreSt.setReg; split <;> rfl
@[simp] theorem CoreSt.setReg_status (c : CoreSt) (r : GReg) (v : Word) : (c.setReg r v).status = c.status := by unfold CoreSt.setReg; split <;> rfl
@[simp] theorem CoreSt.setReg_ctl (c : CoreSt) (r : GReg) (v : Word) : (c.setReg r v).ctl = c.ctl := by unfold CoreSt.setReg; split <;> rfl
@[simp] theorem CoreSt.setReg_xpc (c : CoreSt) (r : GReg) (v : Word) : (c.setReg r v).xpc = c.xpc := by unfold CoreSt.setReg; split <;> rfl
@[simp] theorem CoreSt.setReg_xcode (c : CoreSt) (r : GReg) (v : Word) : (c.setReg r v).xcode = c.xcode := by unfold CoreSt.setReg; split <;> rfl
@[simp] theorem CoreSt.setReg_xaddr (c : CoreSt) (r : GReg) (v : Word) : (c.setReg r v).xaddr = c.xaddr := by unfold CoreSt.setReg; split <;> rfl
@[simp] theorem CoreSt.setReg_xtab (c : CoreSt) (r : GReg) (v : Word) : (c.setReg r v).xtab = c.xtab := by unfold CoreSt.setReg; split <;> rfl
@[simp] theorem CoreSt.setReg_scratch (c : CoreSt) (r : GReg) (v : Word) : (c.setReg r v).scratch = c.scratch := by unfold CoreSt.setReg; split <;> rfl
@[simp] theorem CoreSt.setReg_xstat (c : CoreSt) (r : GReg) (v : Word) : (c.setReg r v).xstat = c.xstat := by unfold CoreSt.setReg; split <;> rfl
@[simp] theorem CoreSt.setReg_fcsr (c : CoreSt) (r : GReg) (v : Word) : (c.setReg r v).fcsr = c.fcsr := by unfold CoreSt.setReg; split <;> rfl
@[simp] theorem CoreSt.setReg_cycle (c : CoreSt) (r : GReg) (v : Word) : (c.setReg r v).cycle = c.cycle := by unfold CoreSt.setReg; split <;> rfl
@[simp] theorem CoreSt.setReg_clk (c : CoreSt) (r : GReg) (v : Word) : (c.setReg r v).clk = c.clk := by unfold CoreSt.setReg; split <;> rfl
@[simp] theorem CoreSt.setReg_clkh (c : CoreSt) (r : GReg) (v : Word) : (c.setReg r v).clkh = c.clkh := by unfold CoreSt.setReg; split <;> rfl
@[simp] theorem CoreSt.setReg_evt (c : CoreSt) (r : GReg) (v : Word) : (c.setReg r v).evt = c.evt := by unfold CoreSt.setReg; split <;> rfl
@[simp] theorem CoreSt.setReg_evmask (c : CoreSt) (r : GReg) (v : Word) : (c.setReg r v).evmask = c.evmask := by unfold CoreSt.setReg; split <;> rfl
@[simp] theorem CoreSt.setReg_lraddr (c : CoreSt) (r : GReg) (v : Word) : (c.setReg r v).lraddr = c.lraddr := by unfold CoreSt.setReg; split <;> rfl
@[simp] theorem CoreSt.setReg_resv (c : CoreSt) (r : GReg) (v : Word) : (c.setReg r v).resv = c.resv := by unfold CoreSt.setReg; split <;> rfl
@[simp] theorem CoreSt.setReg_stopped (c : CoreSt) (r : GReg) (v : Word) : (c.setReg r v).stopped = c.stopped := by unfold CoreSt.setReg; split <;> rfl
@[simp] theorem CoreSt.setReg_waiting (c : CoreSt) (r : GReg) (v : Word) : (c.setReg r v).waiting = c.waiting := by unfold CoreSt.setReg; split <;> rfl
@[simp] theorem CoreSt.setReg_v (c : CoreSt) (r : GReg) (v : Word) : (c.setReg r v).v = c.v := by unfold CoreSt.setReg; split <;> rfl
@[simp] theorem CoreSt.setReg_m (c : CoreSt) (r : GReg) (v : Word) : (c.setReg r v).m = c.m := by unfold CoreSt.setReg; split <;> rfl
@[simp] theorem CoreSt.setReg_vl (c : CoreSt) (r : GReg) (v : Word) : (c.setReg r v).vl = c.vl := by unfold CoreSt.setReg; split <;> rfl
@[simp] theorem CoreSt.next_w (c : CoreSt) : c.next.w = c.w := rfl
@[simp] theorem CoreSt.next_status (c : CoreSt) : c.next.status = c.status := rfl
@[simp] theorem CoreSt.next_ctl (c : CoreSt) : c.next.ctl = c.ctl := rfl
@[simp] theorem CoreSt.next_xpc (c : CoreSt) : c.next.xpc = c.xpc := rfl
@[simp] theorem CoreSt.next_xcode (c : CoreSt) : c.next.xcode = c.xcode := rfl
@[simp] theorem CoreSt.next_xaddr (c : CoreSt) : c.next.xaddr = c.xaddr := rfl
@[simp] theorem CoreSt.next_xtab (c : CoreSt) : c.next.xtab = c.xtab := rfl
@[simp] theorem CoreSt.next_scratch (c : CoreSt) : c.next.scratch = c.scratch := rfl
@[simp] theorem CoreSt.next_xstat (c : CoreSt) : c.next.xstat = c.xstat := rfl
@[simp] theorem CoreSt.next_fcsr (c : CoreSt) : c.next.fcsr = c.fcsr := rfl
@[simp] theorem CoreSt.next_cycle (c : CoreSt) : c.next.cycle = c.cycle := rfl
@[simp] theorem CoreSt.next_clk (c : CoreSt) : c.next.clk = c.clk := rfl
@[simp] theorem CoreSt.next_clkh (c : CoreSt) : c.next.clkh = c.clkh := rfl
@[simp] theorem CoreSt.next_evt (c : CoreSt) : c.next.evt = c.evt := rfl
@[simp] theorem CoreSt.next_evmask (c : CoreSt) : c.next.evmask = c.evmask := rfl
@[simp] theorem CoreSt.next_lraddr (c : CoreSt) : c.next.lraddr = c.lraddr := rfl
@[simp] theorem CoreSt.next_resv (c : CoreSt) : c.next.resv = c.resv := rfl
@[simp] theorem CoreSt.next_stopped (c : CoreSt) : c.next.stopped = c.stopped := rfl
@[simp] theorem CoreSt.next_waiting (c : CoreSt) : c.next.waiting = c.waiting := rfl
@[simp] theorem CoreSt.next_v (c : CoreSt) : c.next.v = c.v := rfl
@[simp] theorem CoreSt.next_m (c : CoreSt) : c.next.m = c.m := rfl
@[simp] theorem CoreSt.next_vl (c : CoreSt) : c.next.vl = c.vl := rfl
@[simp] theorem CoreSt.next_pc (c : CoreSt) : c.next.pc = c.pc + 4 := rfl
@[simp] theorem CoreSt.setLanes_w (c : CoreSt) (r : VReg) (g : Nat → Word) : (c.setLanes r g).w = c.w := rfl
@[simp] theorem CoreSt.setLanes_pc (c : CoreSt) (r : VReg) (g : Nat → Word) : (c.setLanes r g).pc = c.pc := rfl
@[simp] theorem CoreSt.setLanes_status (c : CoreSt) (r : VReg) (g : Nat → Word) : (c.setLanes r g).status = c.status := rfl
@[simp] theorem CoreSt.setLanes_ctl (c : CoreSt) (r : VReg) (g : Nat → Word) : (c.setLanes r g).ctl = c.ctl := rfl
@[simp] theorem CoreSt.setLanes_xpc (c : CoreSt) (r : VReg) (g : Nat → Word) : (c.setLanes r g).xpc = c.xpc := rfl
@[simp] theorem CoreSt.setLanes_xcode (c : CoreSt) (r : VReg) (g : Nat → Word) : (c.setLanes r g).xcode = c.xcode := rfl
@[simp] theorem CoreSt.setLanes_xaddr (c : CoreSt) (r : VReg) (g : Nat → Word) : (c.setLanes r g).xaddr = c.xaddr := rfl
@[simp] theorem CoreSt.setLanes_xtab (c : CoreSt) (r : VReg) (g : Nat → Word) : (c.setLanes r g).xtab = c.xtab := rfl
@[simp] theorem CoreSt.setLanes_scratch (c : CoreSt) (r : VReg) (g : Nat → Word) : (c.setLanes r g).scratch = c.scratch := rfl
@[simp] theorem CoreSt.setLanes_xstat (c : CoreSt) (r : VReg) (g : Nat → Word) : (c.setLanes r g).xstat = c.xstat := rfl
@[simp] theorem CoreSt.setLanes_fcsr (c : CoreSt) (r : VReg) (g : Nat → Word) : (c.setLanes r g).fcsr = c.fcsr := rfl
@[simp] theorem CoreSt.setLanes_cycle (c : CoreSt) (r : VReg) (g : Nat → Word) : (c.setLanes r g).cycle = c.cycle := rfl
@[simp] theorem CoreSt.setLanes_clk (c : CoreSt) (r : VReg) (g : Nat → Word) : (c.setLanes r g).clk = c.clk := rfl
@[simp] theorem CoreSt.setLanes_clkh (c : CoreSt) (r : VReg) (g : Nat → Word) : (c.setLanes r g).clkh = c.clkh := rfl
@[simp] theorem CoreSt.setLanes_evt (c : CoreSt) (r : VReg) (g : Nat → Word) : (c.setLanes r g).evt = c.evt := rfl
@[simp] theorem CoreSt.setLanes_evmask (c : CoreSt) (r : VReg) (g : Nat → Word) : (c.setLanes r g).evmask = c.evmask := rfl
@[simp] theorem CoreSt.setLanes_lraddr (c : CoreSt) (r : VReg) (g : Nat → Word) : (c.setLanes r g).lraddr = c.lraddr := rfl
@[simp] theorem CoreSt.setLanes_resv (c : CoreSt) (r : VReg) (g : Nat → Word) : (c.setLanes r g).resv = c.resv := rfl
@[simp] theorem CoreSt.setLanes_stopped (c : CoreSt) (r : VReg) (g : Nat → Word) : (c.setLanes r g).stopped = c.stopped := rfl
@[simp] theorem CoreSt.setLanes_waiting (c : CoreSt) (r : VReg) (g : Nat → Word) : (c.setLanes r g).waiting = c.waiting := rfl
@[simp] theorem CoreSt.setLanes_m (c : CoreSt) (r : VReg) (g : Nat → Word) : (c.setLanes r g).m = c.m := rfl
@[simp] theorem CoreSt.setLanes_vl (c : CoreSt) (r : VReg) (g : Nat → Word) : (c.setLanes r g).vl = c.vl := rfl

/-! ### State.on -/

@[simp] theorem State.on_dev (s : State) (d : Dev) : (s.on d).dev = d := rfl
@[simp] theorem State.on_pending (s : State) (d : Dev) : (s.on d).pending = s.pending := rfl
@[simp] theorem State.on_on (s : State) (d e : Dev) : (s.on d).on e = s.on e := rfl
@[simp] theorem State.on_self (s : State) : s.on s.dev = s := rfl

end Sys2Proof.Machine
end

