-- ==== Sys2Proof/Laws/Ops.lean ====
section
/-! SUPPORT. What each shared operation can do, said once: registers, memory, who may write, commands, and the issue of an
instruction. -/

set_option Elab.async false

namespace Sys2Proof.Machine

/-! ### Registers -/

theorem Dev.rd_wr_same {d : Dev} (h : d.Canon) (a : Nat) (v : Word) : (d.wr a v).rd a = v :=
  Store.get_put_same h.2 a v

theorem Dev.rd_wr_other {d : Dev} (h : d.Canon) {a b : Nat} (hb : b ≠ a) (v : Word) : (d.wr a v).rd b = d.rd b :=
  Store.get_put_other h.2 hb v

/-! ### Memory -/

theorem Dev.byte_setByte_same {d : Dev} (h : d.Canon) (a : Nat) (v : Byte) : (d.setByte a v).byte a = v :=
  Store.get_put_same h.1 a v

theorem Dev.byte_setByte_other {d : Dev} (h : d.Canon) {a b : Nat} (hb : b ≠ a) (v : Byte) :
    (d.setByte a v).byte b = d.byte b :=
  Store.get_put_other h.1 hb v

theorem Dev.setByte_keeps {d : Dev} (h : d.Canon) (a : Nat) (v : Byte) : (d.setByte a v).Canon :=
  ⟨Store.wf_put h.1 a v, h.2⟩

theorem Dev.byte_setBytes_other {d : Dev} (h : d.Canon) {a b : Nat} {l : List Byte} (hb : b < a ∨ a + l.length ≤ b) :
    (d.setBytes a l).byte b = d.byte b := by
  induction l generalizing d a with
  | nil => rfl
  | cons x t ih =>
    simp only [List.length_cons] at hb
    rw [Dev.setBytes, ih (Dev.setByte_keeps h a x) (by omega), Dev.byte_setByte_other h (by omega)]

theorem Dev.byte_setBytes_in {d : Dev} (h : d.Canon) {a i : Nat} {l : List Byte} (hi : i < l.length) :
    (d.setBytes a l).byte (a + i) = l[i] := by
  induction l generalizing d a i with
  | nil => simp at hi
  | cons x t ih =>
    rw [Dev.setBytes]
    cases i with
    | zero =>
      rw [Dev.byte_setBytes_other (Dev.setByte_keeps h a x) (by omega)]
      exact Dev.byte_setByte_same h a x
    | succ k =>
      have := ih (d := d.setByte a x) (a := a + 1) (i := k) (Dev.setByte_keeps h a x) (by simpa using hi)
      rw [show a + (k + 1) = a + 1 + k by omega, this]
      rfl

theorem leBytes_length (n v : Nat) : (leBytes n v).length = n := by
  induction n generalizing v with
  | zero => rfl
  | succ k ih => simp [leBytes, ih]

theorem leNat_leBytes (n v : Nat) : leNat (leBytes n v) = v % 256 ^ n := by
  induction n generalizing v with
  | zero => simp [leBytes, leNat, Nat.mod_one]
  | succ k ih =>
    have e : BitVec.toNat (BitVec.ofNat 8 v) = v % 256 := rfl
    rw [leBytes, leNat, ih, e, Nat.pow_succ, Nat.mul_comm (256 ^ k) 256, Nat.mod_mul]

theorem leNat_append (l m : List Byte) : leNat (l ++ m) = leNat l + 256 ^ l.length * leNat m := by
  induction l with
  | nil => simp [leNat]
  | cons b t ih =>
    simp only [List.cons_append, leNat, ih, List.length_cons, Nat.pow_succ, Nat.mul_add]
    rw [Nat.mul_comm (256 ^ t.length) 256, Nat.mul_assoc, Nat.add_assoc]

theorem leNat_word (w : Word) : leNat (leBytes 4 w.toNat) = w.toNat := by
  have := w.isLt
  rw [leNat_leBytes]
  omega

theorem nw_toNat (w : Word) : nw w.toNat = w := by simp [nw]

theorem leNat_wordsBytes_one (w : Word) : leNat (wordsBytes [w]) = w.toNat := by
  simp only [wordsBytes, List.flatMap_cons, List.flatMap_nil, List.append_nil, leNat_word]

theorem leNat_wordsBytes_two (x y : Word) : leNat (wordsBytes [x, y]) = x.toNat + 2 ^ 32 * y.toNat := by
  simp only [wordsBytes, List.flatMap_cons, List.flatMap_nil, List.append_nil, leNat_append, leBytes_length, leNat_word]
  try rfl

/-! ### Who may write -/

theorem Dev.gate_takes {d e : Dev} {src : Writer} {a : Nat} (h : d.takes src a = some e) (f : Dev → Dev) :
    d.gate src a f = f e := by
  cases src <;> simp only [Dev.takes, Dev.gate] at h ⊢ <;> split at h <;> simp_all

theorem Dev.gate_discards {d : Dev} {a : Nat} (h : d.claimed (blockOf a) = true) (f : Dev → Dev) :
    d.gate .system a f = d.discard a := by
  simp [Dev.gate, h]

theorem Dev.gate_raises {d : Dev} {a : Nat} (h : d.claimEn (blockOf a) = false) (f : Dev → Dev) :
    d.gate .program a f = d.raise .program 5 2 (some (nw a)) := by
  simp [Dev.gate, h]

theorem Dev.gate_ignores {d : Dev} {a : Nat} (h : d.claimEn (blockOf a) = false) (f : Dev → Dev) :
    d.gate .session a f = d := by
  simp [Dev.gate, h]

/-! ### Commands -/

theorem State.lift_awake {s : State} (h : s.dev.asleep = false) (f : Dev → Dev) : s.lift f = .next (s.on (f s.dev)) := by
  simp [State.lift, State.always, State.on, h]

theorem State.lift_asleep {s : State} (h : s.dev.asleep = true) (f : Dev → Dev) : s.lift f = .next s := by
  simp [State.lift, State.always, h]

theorem State.lift_pending (s : State) (f : Dev → Dev) : ∃ d, s.lift f = .next (s.on d) := ⟨_, rfl⟩

/-! ### Instructions -/

theorem Dev.settle_none {d : Dev} (h : d.pwr.resetWait = none) : d.settle = d := by
  unfold Dev.settle
  rw [h]

/-- Where no word has a single-bit error, a read corrects nothing. -/
theorem Dev.corrected_none {d : Dev} (h : d.corr = []) (a n : Nat) : d.corrected a n = d := by
  simp [Dev.corrected, h]

/-- Nor does a vector read. -/
theorem Dev.lanesCorrected_none {d : Dev} (h : d.corr = []) (p : Pair) (l : List (Nat × Nat)) : d.lanesCorrected p l = d := by
  unfold Dev.lanesCorrected
  induction l with
  | nil => rfl
  | cons e t ih => rw [List.foldl_cons, Dev.corrected_none h, ite_self, ih]

/-- Without in-step suppression no lane sets LR. -/
theorem CoreSt.lanesLR_none {c : CoreSt} (h : ∀ a, c.suppressed a = false) (l : List (Nat × Nat)) : c.lanesLR l = c := by
  unfold CoreSt.lanesLR
  rw [List.filter_eq_nil_iff.2 (fun e _ => by simp [h e.2])]

theorem Dev.issue_ready {d : Dev} {p : Pair} (h : d.Ready p) (f : Dev → Dev) : d.issue p f = (f d).settle := by
  obtain ⟨-, hr, ⟨hf, hc⟩, -⟩ := h
  simp [Dev.issue, hr, hf, Dev.corrected_none hc]

theorem Dev.alu_ready {d : Dev} {p : Pair} (h : d.Ready p) (f : CoreSt → CoreSt) :
    d.alu p f = d.setCore p (f (d.core p)).next := by
  rw [Dev.alu, Dev.issue_ready h, Dev.settle_none]
  simpa using h.2.2.2

theorem Dev.aluIf_ready {d : Dev} {p : Pair} (h : d.Ready p) {ok : Bool} (hok : ok = true) (f : CoreSt → CoreSt) :
    d.aluIf p ok f = d.setCore p (f (d.core p)).next := by
  rw [Dev.aluIf, Dev.issue_ready h, if_pos hok, Dev.settle_none]
  simpa using h.2.2.2

theorem Dev.aluIf_ill {d : Dev} {p : Pair} (h : d.Ready p) {ok : Bool} (hok : ok = false) (f : CoreSt → CoreSt) :
    d.aluIf p ok f = (d.raise p 1 0 none).settle := by
  rw [Dev.aluIf, Dev.issue_ready h, hok]
  rfl

theorem State.lift_alu {s : State} {p : Pair} (h : s.dev.Ready p) (f : CoreSt → CoreSt) :
    s.lift (fun d => d.alu p f) = .next (s.retire p (f (s.dev.core p))) := by
  rw [State.lift_awake h.1, Dev.alu_ready h]
  rfl

theorem State.lift_aluIf {s : State} {p : Pair} (h : s.dev.Ready p) {ok : Bool} (hok : ok = true) (f : CoreSt → CoreSt) :
    s.lift (fun d => d.aluIf p ok f) = .next (s.retire p (f (s.dev.core p))) := by
  rw [State.lift_awake h.1, Dev.aluIf_ready h hok]
  rfl

theorem State.lift_aluIf_ill {s : State} {p : Pair} (h : s.dev.Ready p) {ok : Bool} (hok : ok = false)
    (f : CoreSt → CoreSt) : s.lift (fun d => d.aluIf p ok f) = .next (s.on (s.dev.raise p 1 0 none).settle) := by
  rw [State.lift_awake h.1, Dev.aluIf_ill h hok]

theorem State.lift_vop {s : State} {p : Pair} (h : s.dev.Ready p) (hv : (s.dev.core p).vl ≠ 0) (f : CoreSt → CoreSt) :
    s.lift (fun d => d.vop p f) = .next (s.retire p (f (s.dev.core p))) := by
  simp only [Dev.vop]
  rw [State.lift_alu h, if_neg hv]

theorem State.lift_vop_zero {s : State} {p : Pair} (h : s.dev.Ready p) (hv : (s.dev.core p).vl = 0) (f : CoreSt → CoreSt) :
    s.lift (fun d => d.vop p f) = .next (s.retire p (s.dev.core p)) := by
  simp only [Dev.vop]
  rw [State.lift_alu h, if_pos hv]

theorem State.lift_issue {s : State} {p : Pair} (h : s.dev.Ready p) (f : Dev → Dev) :
    s.lift (fun d => d.issue p f) = .next (s.on (f s.dev).settle) := by
  rw [State.lift_awake h.1, Dev.issue_ready h]

/-! ### Stores -/

theorem Dev.setBytes_other (d : Dev) (a : Nat) (l : List Byte) : d.setBytes a l = { d with mem := (d.setBytes a l).mem } := by
  induction l generalizing d a with
  | nil => rfl
  | cons x t ih => rw [Dev.setBytes, ih]; rfl

@[simp] theorem Dev.setBytes_pwr (d : Dev) (a : Nat) (l : List Byte) : (d.setBytes a l).pwr = d.pwr := by
  rw [Dev.setBytes_other]

@[simp] theorem Dev.setBytes_regs (d : Dev) (a : Nat) (l : List Byte) : (d.setBytes a l).regs = d.regs := by
  rw [Dev.setBytes_other]

@[simp] theorem Dev.touch_pwr (d : Dev) (a n : Nat) : (d.touch a n).pwr = d.pwr := by
  unfold Dev.touch; split <;> rfl

@[simp] theorem Dev.touch_mem (d : Dev) (a n : Nat) : (d.touch a n).mem = d.mem := by
  unfold Dev.touch; split <;> rfl

@[simp] theorem Dev.touch_regs (d : Dev) (a n : Nat) : (d.touch a n).regs = d.regs := by
  unfold Dev.touch; split <;> rfl

@[simp] theorem Dev.overwritten_pwr (d : Dev) (a n : Nat) : (d.overwritten a n).pwr = d.pwr := rfl

@[simp] theorem Dev.overwritten_mem (d : Dev) (a n : Nat) : (d.overwritten a n).mem = d.mem := rfl

@[simp] theorem Dev.overwritten_regs (d : Dev) (a n : Nat) : (d.overwritten a n).regs = d.regs := rfl

@[simp] theorem Dev.sramStore_pwr (d : Dev) (p : Pair) (a : Nat) (l : List Byte) : (d.sramStore p a l).pwr = d.pwr := by
  unfold Dev.sramStore
  split
  · cases p <;> simp
  · rfl

theorem Dev.sramStore_mem (d : Dev) (p : Pair) {a : Nat} (h : isSram a = true) (l : List Byte) :
    (d.sramStore p a l).mem = (d.setBytes a l).mem := by
  unfold Dev.sramStore
  rw [if_pos h]
  cases p <;> simp

@[simp] theorem Dev.sramStore_regs (d : Dev) (p : Pair) (a : Nat) (l : List Byte) : (d.sramStore p a l).regs = d.regs := by
  unfold Dev.sramStore
  split
  · cases p <;> simp
  · rfl

theorem isSram_not_periph {a : Nat} (h : isSram a = true) : isPeriph a = false := by
  simp only [isSram, isPeriph, Bool.and_eq_true, decide_eq_true_eq, Bool.and_eq_false_iff, decide_eq_false_iff_not] at *
  omega

/-! ### General registers -/

theorem CoreSt.reg_setReg_same (c : CoreSt) {r : GReg} (h : r ≠ 0) (v : Word) : (c.setReg r v).reg r = v := by
  unfold CoreSt.setReg CoreSt.reg
  rw [if_neg h, if_neg h]
  simp

theorem CoreSt.reg_setReg_other (c : CoreSt) {r q : GReg} (h : q ≠ r) (v : Word) : (c.setReg r v).reg q = c.reg q := by
  unfold CoreSt.setReg CoreSt.reg
  split
  · rfl
  · split
    · rfl
    · rw [Vector.getElem_set]
      have : r.toNat ≠ q.toNat := fun e => h (BitVec.eq_of_toNat_eq e.symm)
      simp [this]

@[simp] theorem CoreSt.reg_zero (c : CoreSt) : c.reg 0 = 0 := by simp [CoreSt.reg]

@[simp] theorem CoreSt.setReg_zero (c : CoreSt) (v : Word) : c.setReg 0 v = c := by simp [CoreSt.setReg]

/-! ### Holding a value to its range -/

theorem clampI_in {lo hi x : Int} (h1 : lo ≤ x) (h2 : x ≤ hi) : clampI lo hi x = x := by
  unfold clampI; omega

theorem clampI_low {lo hi x : Int} (h : x < lo) : clampI lo hi x = lo := by
  unfold clampI; omega

theorem clampI_high {lo hi x : Int} (h : hi < x) (hl : lo ≤ hi) : clampI lo hi x = hi := by
  unfold clampI; omega

end Sys2Proof.Machine
end

