-- ==== Sys2Proof/Laws/Access.lean ====
section
/-! SUPPORT. What a read gives after a write of a register or of a field, what an entry in the recorder leaves, and what a
command does once its block takes its write. -/

set_option Elab.async false

namespace Sys2Proof.Machine

/-! ### Commands through the gate -/

theorem Dev.takes_keeps {d e : Dev} {src : Writer} {a : Nat} (h : d.Canon) (ht : d.takes src a = some e) : e.Canon := by
  cases src <;> simp only [Dev.takes] at ht <;> split at ht <;> simp at ht <;> subst ht
  · exact h
  · exact Dev.setClaim_canon _ h
  · exact Dev.setClaim_canon _ h

theorem State.lift_gate {s : State} {src : Writer} {a : Nat} {e : Dev} (h : s.dev.asleep = false)
    (ht : s.dev.takes src a = some e) (f : Dev → Dev) : s.lift (fun d => d.gate src a f) = .next (s.on (f e)) := by
  rw [State.lift_awake h, Dev.gate_takes ht]

/-! ### Reads after writes -/

theorem Dev.rd_wr {d : Dev} (h : d.Canon) (a b : Nat) (v : Word) : (d.wr a v).rd b = if b = a then v else d.rd b := by
  split
  · next e => subst e; exact Dev.rd_wr_same h b v
  · next e => exact Dev.rd_wr_other h e v

theorem Dev.rd_setFld {d : Dev} (h : d.Canon) (a b hi lo v : Nat) :
    (d.setFld a hi lo v).rd b = if b = a then withField (d.rd a) hi lo v else d.rd b := Dev.rd_wr h a b _

theorem Dev.rd_setBit {d : Dev} (h : d.Canon) (a b i : Nat) (x : Bool) :
    (d.setBit a i x).rd b = if b = a then withBit (d.rd a) i x else d.rd b := Dev.rd_wr h a b _

theorem Dev.rd_flag {d : Dev} (h : d.Canon) (a b i : Nat) :
    (d.flag a i).rd b = if b = a then withBit (d.rd a) i true else d.rd b := Dev.rd_wr h a b _

theorem Dev.rd_satInc_other {d : Dev} (h : d.Canon) {a b : Nat} (hb : b ≠ a) (hi lo : Nat) :
    (d.satInc a hi lo).rd b = d.rd b := Dev.rd_wr_other h hb _

theorem Dev.rd_plainWrite_other {d : Dev} (h : d.Canon) {a b : Nat} (hb : b ≠ a) (v : Word) :
    (d.plainWrite a v).rd b = d.rd b := by
  unfold Dev.plainWrite
  split
  · exact Dev.rd_wr_other h hb _
  · rfl

@[simp] theorem Dev.rd_start (d : Dev) (t a : Nat) : (d.start t).rd a = d.rd a := rfl

@[simp] theorem Dev.rd_stop (d : Dev) (t a : Nat) : (d.stop t).rd a = d.rd a := rfl

theorem bitOf_withBit (w : Word) {i j : Nat} (hi : i < 32) (b : Bool) :
    bitOf (withBit w i b) j = if j = i then b else bitOf w j := by
  unfold bitOf withBit withField
  rw [BitVec.getLsbD_ofNat, Nat.testBit_or, Nat.testBit_and, Nat.testBit_and, Nat.testBit_xor, Nat.sub_self, Nat.zero_add]
  have hm : (((2 ^ 1 - 1) <<< i : Nat)).testBit j = decide (j = i) := by
    rw [Nat.testBit_shiftLeft]
    by_cases h : j = i
    · subst h; simp
    · by_cases h2 : i ≤ j
      · have : (1 : Nat).testBit (j - i) = false := Nat.testBit_lt_two_pow (Nat.one_lt_two_pow (by omega))
        simp [h, h2, this]
      · simp [h, h2]
  have hv : (((if b = true then 1 else 0) <<< i : Nat)).testBit j = (decide (j = i) && b) := by
    rw [Nat.testBit_shiftLeft]
    cases b
    · simp
    · by_cases h : j = i
      · subst h; simp
      · by_cases h2 : i ≤ j
        · have : (1 : Nat).testBit (j - i) = false := Nat.testBit_lt_two_pow (Nat.one_lt_two_pow (by omega))
          simp [h, h2, this]
        · simp [h, h2]
  have hf : (0xFFFFFFFF : Nat).testBit j = decide (j < 32) := by
    rw [show (0xFFFFFFFF : Nat) = 2 ^ 32 - 1 from rfl, Nat.testBit_two_pow_sub_one]
  rw [hm, hv, hf]
  have hw : w.getLsbD j = (w.toNat.testBit j) := rfl
  by_cases h : j = i
  · subst h
    simp [hi]
  · rw [hw]
    by_cases h3 : j < 32
    · simp [h, h3]
    · have : w.toNat.testBit j = false := Nat.testBit_lt_two_pow (Nat.lt_of_lt_of_le w.isLt (Nat.pow_le_pow_right (by omega) (by omega)))
      simp [h, h3, this]

/-! ### The recorder leaves the other registers -/

/-- The registers that an entry in the recorder may write: the drop count, the recorder's status, and the SMBus queue. -/
def recorderRegs : List Nat := [Reg.REC_DROP, Reg.REC_STAT, Reg.SMB_REQQ, Reg.SMB_STAT]

theorem Dev.rd_smbPush_other {d : Dev} (h : d.Canon) {a : Nat} (ha : a ∉ recorderRegs) (code : Nat) :
    (d.smbPush code).rd a = d.rd a := by
  simp only [recorderRegs, List.mem_cons, List.not_mem_nil, or_false, not_or] at ha
  unfold Dev.smbPush
  split
  · exact Dev.rd_wr_other (d := { d with smb := _ }) h ha.2.2.1 _
  · exact Dev.rd_wr_other h ha.2.2.2 _

theorem Dev.rd_mirror (d : Dev) (sec off a : Nat) (l : List Byte) : (d.mirror sec off l).rd a = d.rd a := by
  unfold Dev.mirror Dev.send
  split
  · dsimp only
    split <;> rfl
  · rfl

theorem Dev.rd_enqueue_other {d : Dev} (h : d.Canon) {a : Nat} (ha : a ∉ recorderRegs) (p : Post) :
    (d.enqueue p).rd a = d.rd a := by
  have hb := ha
  simp only [recorderRegs, List.mem_cons, List.not_mem_nil, or_false, not_or] at hb
  unfold Dev.enqueue
  split
  · exact Dev.rd_satInc_other h hb.1 _ _
  · split
    · exact (Dev.rd_wr_other (Dev.satInc_canon _ _ _ h) hb.2.1 _).trans (Dev.rd_satInc_other h hb.1 _ _)
    · rw [Dev.rd_mirror]
      split
      · refine (Dev.rd_smbPush_other ?_ ha _).trans rfl
        exact h
      · rfl

theorem Dev.rd_postBytes_other {d : Dev} (h : d.Canon) {a : Nat} (ha : a ∉ recorderRegs) (o c : Nat) (l : List Byte) :
    (d.postBytes o c l).rd a = d.rd a := by
  unfold Dev.postBytes
  split
  · simp only [recorderRegs, List.mem_cons, List.not_mem_nil, or_false, not_or] at ha
    exact Dev.rd_wr_other h ha.2.1 _
  · exact Dev.rd_enqueue_other h ha _

theorem Dev.rd_hw_other {d : Dev} (h : d.Canon) {a : Nat} (ha : a ∉ recorderRegs) (c : Nat) (ws : List Word) :
    (d.hw c ws).rd a = d.rd a := Dev.rd_postBytes_other h ha _ _ _

theorem Dev.rd_fw_other {d : Dev} (h : d.Canon) {a : Nat} (ha : a ∉ recorderRegs) (c : Nat) (ws : List Word) :
    (d.fw c ws).rd a = d.rd a := Dev.rd_postBytes_other h ha _ _ _

end Sys2Proof.Machine
end

