-- ==== Sys2Proof/Laws/CanonParams.lean ====
section
/-! SUPPORT. Every operation of Sys2Proof/Machine/Params.lean keeps the canonical form. -/

set_option Elab.async false
set_option linter.all false

namespace Sys2Proof.Machine

theorem Dev.setPv_canon {d : Dev} (n v : Nat) (hd : d.Canon) : Dev.Canon (Dev.setPv d n v) := by
  unfold Dev.setPv
  repeat' (first
    | with_reducible assumption
    | (unfold Dev.Canon; dsimp only; with_reducible refine canon_fold ?_))

end Sys2Proof.Machine
end

