-- ==== Sys2Proof/Laws/CanonNvc.lean ====
section
/-! SUPPORT. Every operation of Sys2Proof/Machine/Nvc.lean keeps the canonical form. -/

set_option Elab.async false
set_option linter.all false

namespace Sys2Proof.Machine

theorem Dev.nvcShow_canon {d : Dev} (hd : d.Canon) : Dev.Canon (Dev.nvcShow d) := by
  unfold Dev.nvcShow
  repeat' (first
    | with_reducible assumption
    | with_reducible apply Dev.setFld_canon
    | with_reducible apply Dev.setBit_canon
    | (extract_lets +onlyGivenNames e; refine canon_have (d := e) ?_ ?_; unfold e; rotate_left; intro; clear_value e; rotate_right)
    | (extract_lets +onlyGivenNames e; clear_value e))

theorem Dev.nvcDone_canon {d : Dev} (r : NvcReq) (status : Nat) (hd : d.Canon) : Dev.Canon (Dev.nvcDone d r status) := by
  unfold Dev.nvcDone
  repeat' (first
    | with_reducible assumption
    | with_reducible apply Dev.flag_canon
    | with_reducible apply Dev.hw_canon
    | with_reducible apply Dev.fw_canon
    | with_reducible apply canon_ite
    | (unfold Dev.Canon; dsimp only; with_reducible refine canon_fold ?_)
    | (extract_lets +onlyGivenNames e; refine canon_have (d := e) ?_ ?_; unfold e; rotate_left; intro; clear_value e; rotate_right)
    | (extract_lets +onlyGivenNames e; clear_value e))

theorem Dev.mramBurst_canon {d : Dev} (a : Nat) (hd : d.Canon) : Dev.Canon (Dev.mramBurst d a) := by
  unfold Dev.mramBurst
  repeat' (first
    | with_reducible assumption
    | with_reducible apply Dev.satInc_canon)

theorem Dev.nvByte_canon {d : Dev} (a : Nat) (b : Byte) (hd : d.Canon) : Dev.Canon (Dev.nvByte d a b) := by
  unfold Dev.nvByte
  repeat' (first
    | with_reducible assumption
    | with_reducible apply Dev.setByte_canon
    | with_reducible apply canon_ite)

theorem Dev.nvBytes_canon {d : Dev} (a : Nat) (y0 : List Byte) (hd : d.Canon) : Dev.Canon (Dev.nvBytes d a y0) := by
  induction y0 generalizing d a with
  | nil =>
    unfold Dev.nvBytes
    repeat' (first
      | with_reducible assumption
      | with_reducible apply Dev.nvByte_canon
      | split
      | with_reducible refine canon_snd ?_ (by with_reducible assumption)
      | with_reducible refine canon_fst ?_ (by with_reducible assumption))
  | cons a t ih =>
    unfold Dev.nvBytes
    repeat' (first
      | with_reducible assumption
      | with_reducible apply Dev.nvByte_canon
      | with_reducible apply ih
      | split
      | with_reducible refine canon_snd ?_ (by with_reducible assumption)
      | with_reducible refine canon_fst ?_ (by with_reducible assumption))

theorem Dev.mramWrite_canon {d : Dev} (a : Nat) (l : List Byte) (hd : d.Canon) : Dev.Canon (Dev.mramWrite d a l) := by
  unfold Dev.mramWrite
  repeat' (first
    | intro _
    | with_reducible assumption
    | with_reducible apply Dev.mramBurst_canon
    | with_reducible apply Dev.nvBytes_canon
    | with_reducible apply canon_ite
    | with_reducible apply canon_foldl
    | with_reducible apply canon_foldl_fst
    | with_reducible apply canon_foldl_snd
    | (extract_lets +onlyGivenNames e; refine canon_have (d := e) ?_ ?_; unfold e; rotate_left; intro; clear_value e; rotate_right)
    | (extract_lets +onlyGivenNames e; clear_value e)
    | dsimp only)

theorem Dev.eraseAbandon_canon {d : Dev} (a : Nat) (hd : d.Canon) : Dev.Canon (Dev.eraseAbandon d a) := by
  unfold Dev.eraseAbandon
  repeat' (first
    | intro _
    | with_reducible assumption
    | with_reducible apply Dev.wr_canon
    | with_reducible apply Dev.flag_canon
    | with_reducible apply Dev.setBytes_canon
    | with_reducible apply Dev.hw_canon
    | with_reducible apply Dev.nextFree_canon
    | (unfold Dev.Canon; dsimp only; with_reducible refine canon_fold ?_)
    | (extract_lets +onlyGivenNames e; refine canon_have (d := e) ?_ ?_; unfold e; rotate_left; intro; clear_value e; rotate_right)
    | (extract_lets +onlyGivenNames e; clear_value e)
    | split
    | with_reducible refine canon_snd ?_ (by with_reducible assumption)
    | with_reducible refine canon_fst ?_ (by with_reducible assumption)
    | dsimp only)

theorem Dev.nvcNext_canon {d : Dev} (y0 : Nat) (hd : d.Canon) : Dev.Canon (Dev.nvcNext d y0) := by
  induction y0 generalizing d with
  | zero =>
    unfold Dev.nvcNext
    repeat' (first
      | with_reducible assumption
      | with_reducible apply Dev.nvcDone_canon
      | with_reducible apply canon_ite
      | (unfold Dev.Canon; dsimp only; with_reducible refine canon_fold ?_)
      | (extract_lets +onlyGivenNames e; refine canon_have (d := e) ?_ ?_; unfold e; rotate_left; intro; clear_value e; rotate_right)
      | (extract_lets +onlyGivenNames e; clear_value e)
      | split
      | with_reducible refine canon_snd ?_ (by with_reducible assumption)
      | with_reducible refine canon_fst ?_ (by with_reducible assumption)
      | dsimp only)
  | succ k ih =>
    unfold Dev.nvcNext
    repeat' (first
      | with_reducible assumption
      | with_reducible apply Dev.nvcDone_canon
      | with_reducible apply ih
      | with_reducible apply canon_ite
      | (unfold Dev.Canon; dsimp only; with_reducible refine canon_fold ?_)
      | (extract_lets +onlyGivenNames e; refine canon_have (d := e) ?_ ?_; unfold e; rotate_left; intro; clear_value e; rotate_right)
      | (extract_lets +onlyGivenNames e; clear_value e)
      | split
      | with_reducible refine canon_snd ?_ (by with_reducible assumption)
      | with_reducible refine canon_fst ?_ (by with_reducible assumption)
      | dsimp only)

theorem Dev.nvcKick_canon {d : Dev} (hd : d.Canon) : Dev.Canon (Dev.nvcKick d) := by
  unfold Dev.nvcKick
  repeat' (first
    | with_reducible assumption
    | with_reducible apply Dev.nvcShow_canon
    | with_reducible apply Dev.nvcNext_canon)

theorem Dev.nvcPush_canon {d : Dev} (kind tag : Nat) (hd : d.Canon) : Dev.Canon (Dev.nvcPush d kind tag) := by
  unfold Dev.nvcPush
  repeat' (first
    | with_reducible assumption
    | with_reducible apply Dev.nvcDone_canon
    | with_reducible apply Dev.nvcKick_canon
    | with_reducible apply canon_ite
    | (unfold Dev.Canon; dsimp only; with_reducible refine canon_fold ?_)
    | (extract_lets +onlyGivenNames e; refine canon_have (d := e) ?_ ?_; unfold e; rotate_left; intro; clear_value e; rotate_right)
    | (extract_lets +onlyGivenNames e; clear_value e))

theorem Dev.nvcHwPush_canon {d : Dev} (r : NvcReq) (hd : d.Canon) : Dev.Canon (Dev.nvcHwPush d r) := by
  unfold Dev.nvcHwPush
  repeat' (first
    | with_reducible assumption
    | with_reducible apply Dev.nvcKick_canon
    | (unfold Dev.Canon; dsimp only; with_reducible refine canon_fold ?_)
    | (extract_lets +onlyGivenNames e; refine canon_have (d := e) ?_ ?_; unfold e; rotate_left; intro; clear_value e; rotate_right)
    | (extract_lets +onlyGivenNames e; clear_value e))

theorem Dev.nvcCopy_canon {d : Dev} (who : NvcSrc) (a : Nat) (l : List Byte) (hd : d.Canon) : Dev.Canon (Dev.nvcCopy d who a l) := by
  unfold Dev.nvcCopy
  repeat' (first
    | with_reducible assumption
    | with_reducible apply Dev.nvcDone_canon
    | with_reducible apply Dev.nvcHwPush_canon
    | with_reducible apply canon_ite
    | (unfold Dev.Canon; dsimp only; with_reducible refine canon_fold ?_)
    | (extract_lets +onlyGivenNames e; refine canon_have (d := e) ?_ ?_; unfold e; rotate_left; intro; clear_value e; rotate_right)
    | (extract_lets +onlyGivenNames e; clear_value e))

theorem Dev.nvcUrgent_canon {d : Dev} (who : NvcSrc) (data : List Byte) (hd : d.Canon) : Dev.Canon (Dev.nvcUrgent d who data) := by
  unfold Dev.nvcUrgent
  repeat' (first
    | with_reducible assumption
    | with_reducible apply Dev.nvcShow_canon
    | (unfold Dev.Canon; dsimp only; with_reducible refine canon_fold ?_)
    | (extract_lets +onlyGivenNames e; refine canon_have (d := e) ?_ ?_; unfold e; rotate_left; intro; clear_value e; rotate_right)
    | (extract_lets +onlyGivenNames e; clear_value e))

theorem Dev.nvcFlushQueue_canon {d : Dev} (all : Bool) (hd : d.Canon) : Dev.Canon (Dev.nvcFlushQueue d all) := by
  unfold Dev.nvcFlushQueue
  repeat' (first
    | intro _
    | with_reducible assumption
    | with_reducible apply Dev.nvcDone_canon
    | with_reducible apply canon_foldl
    | (unfold Dev.Canon; dsimp only; with_reducible refine canon_fold ?_)
    | (extract_lets +onlyGivenNames e; refine canon_have (d := e) ?_ ?_; unfold e; rotate_left; intro; clear_value e; rotate_right)
    | (extract_lets +onlyGivenNames e; clear_value e)
    | dsimp only)

theorem Dev.nvcClose_canon {d : Dev} (bank : Bool) (hd : d.Canon) : Dev.Canon (Dev.nvcClose d bank) := by
  unfold Dev.nvcClose
  repeat' (first
    | with_reducible assumption
    | with_reducible apply Dev.hw_canon
    | with_reducible apply Dev.nvcDone_canon
    | with_reducible apply Dev.eraseAbandon_canon
    | with_reducible apply Dev.nvcKick_canon
    | with_reducible apply Dev.nvcFlushQueue_canon
    | with_reducible apply canon_ite
    | (unfold Dev.Canon; dsimp only; with_reducible refine canon_fold ?_)
    | (extract_lets +onlyGivenNames e; refine canon_have (d := e) ?_ ?_; unfold e; rotate_left; intro; clear_value e; rotate_right)
    | (extract_lets +onlyGivenNames e; clear_value e)
    | split
    | with_reducible refine canon_snd ?_ (by with_reducible assumption)
    | with_reducible refine canon_fst ?_ (by with_reducible assumption)
    | dsimp only)

theorem Dev.nvcReopen_canon {d : Dev} (hd : d.Canon) : Dev.Canon (Dev.nvcReopen d) := by
  unfold Dev.nvcReopen
  repeat' (first
    | with_reducible assumption
    | with_reducible apply Dev.hw_canon
    | with_reducible apply Dev.nvcKick_canon
    | with_reducible apply canon_ite
    | (unfold Dev.Canon; dsimp only; with_reducible refine canon_fold ?_)
    | (extract_lets +onlyGivenNames e; refine canon_have (d := e) ?_ ?_; unfold e; rotate_left; intro; clear_value e; rotate_right)
    | (extract_lets +onlyGivenNames e; clear_value e))

end Sys2Proof.Machine
end

