-- ==== Sys2Proof/Laws/CanonRecorder.lean ====
section
/-! SUPPORT. Every operation of Sys2Proof/Machine/Recorder.lean keeps the canonical form. -/

set_option Elab.async false
set_option linter.all false

namespace Sys2Proof.Machine

theorem Dev.larderPut_canon {d : Dev} (o : Nat) (y0 : List Byte) (hd : d.Canon) : Dev.Canon (Dev.larderPut d o y0) := by
  induction y0 generalizing d o with
  | nil =>
    unfold Dev.larderPut
    repeat' (first
      | with_reducible assumption
      | with_reducible apply Dev.setByte_canon
      | split
      | with_reducible refine canon_snd ?_ (by with_reducible assumption)
      | with_reducible refine canon_fst ?_ (by with_reducible assumption))
  | cons a t ih =>
    unfold Dev.larderPut
    repeat' (first
      | with_reducible assumption
      | with_reducible apply Dev.setByte_canon
      | with_reducible apply ih
      | split
      | with_reducible refine canon_snd ?_ (by with_reducible assumption)
      | with_reducible refine canon_fst ?_ (by with_reducible assumption))

theorem Dev.recDropOldest_canon {d : Dev} (hd : d.Canon) : Dev.Canon (Dev.recDropOldest d) := by
  unfold Dev.recDropOldest
  repeat' (first
    | with_reducible assumption
    | with_reducible apply Dev.wr_canon
    | (unfold Dev.Canon; dsimp only; with_reducible refine canon_fold ?_)
    | (extract_lets +onlyGivenNames e; refine canon_have (d := e) ?_ ?_; unfold e; rotate_left; intro; clear_value e; rotate_right)
    | (extract_lets +onlyGivenNames e; clear_value e)
    | split
    | with_reducible refine canon_snd ?_ (by with_reducible assumption)
    | with_reducible refine canon_fst ?_ (by with_reducible assumption)
    | dsimp only)

theorem Dev.recMakeRoom_canon {d : Dev} (n : Nat) (y0 : Nat) (hd : d.Canon) : Dev.Canon (Dev.recMakeRoom d n y0) := by
  induction y0 generalizing d n with
  | zero =>
    unfold Dev.recMakeRoom
    repeat' (first
      | with_reducible assumption
      | with_reducible apply Dev.satInc_canon
      | with_reducible apply Dev.recDropOldest_canon
      | with_reducible apply canon_ite
      | (unfold Dev.Canon; dsimp only; with_reducible refine canon_fold ?_)
      | (extract_lets +onlyGivenNames e; refine canon_have (d := e) ?_ ?_; unfold e; rotate_left; intro; clear_value e; rotate_right)
      | (extract_lets +onlyGivenNames e; clear_value e)
      | split
      | with_reducible refine canon_snd ?_ (by with_reducible assumption)
      | with_reducible refine canon_fst ?_ (by with_reducible assumption))
  | succ k ih =>
    unfold Dev.recMakeRoom
    repeat' (first
      | with_reducible assumption
      | with_reducible apply Dev.satInc_canon
      | with_reducible apply Dev.recDropOldest_canon
      | with_reducible apply ih
      | with_reducible apply canon_ite
      | (unfold Dev.Canon; dsimp only; with_reducible refine canon_fold ?_)
      | (extract_lets +onlyGivenNames e; refine canon_have (d := e) ?_ ?_; unfold e; rotate_left; intro; clear_value e; rotate_right)
      | (extract_lets +onlyGivenNames e; clear_value e)
      | split
      | with_reducible refine canon_snd ?_ (by with_reducible assumption)
      | with_reducible refine canon_fst ?_ (by with_reducible assumption))

theorem Dev.flushNext_canon {d : Dev} (hd : d.Canon) : Dev.Canon (Dev.flushNext d) := by
  unfold Dev.flushNext
  repeat' (first
    | intro _
    | with_reducible assumption
    | with_reducible apply Dev.nvcHwPush_canon
    | with_reducible apply canon_ite
    | (unfold Dev.Canon; dsimp only; with_reducible refine canon_fold ?_)
    | (extract_lets +onlyGivenNames e; refine canon_have (d := e) ?_ ?_; unfold e; rotate_left; intro; clear_value e; rotate_right)
    | (extract_lets +onlyGivenNames e; clear_value e)
    | split
    | with_reducible refine canon_snd ?_ (by with_reducible assumption)
    | with_reducible refine canon_fst ?_ (by with_reducible assumption)
    | dsimp only)

theorem Dev.reportLost_canon {d : Dev} (hd : d.Canon) : Dev.Canon (Dev.reportLost d) := by
  unfold Dev.reportLost
  repeat' (first
    | with_reducible assumption
    | with_reducible apply canon_ite
    | (unfold Dev.Canon; dsimp only; with_reducible refine canon_fold ?_)
    | (extract_lets +onlyGivenNames e; refine canon_have (d := e) ?_ ?_; unfold e; rotate_left; intro; clear_value e; rotate_right)
    | (extract_lets +onlyGivenNames e; clear_value e))

theorem Dev.flushReq_canon {d : Dev} (hd : d.Canon) : Dev.Canon (Dev.flushReq d) := by
  unfold Dev.flushReq
  repeat' (first
    | with_reducible assumption
    | with_reducible apply Dev.setBit_canon
    | with_reducible apply Dev.start_canon
    | with_reducible apply Dev.flushNext_canon
    | with_reducible apply Dev.reportLost_canon
    | with_reducible apply canon_ite
    | (unfold Dev.Canon; dsimp only; with_reducible refine canon_fold ?_)
    | (extract_lets +onlyGivenNames e; refine canon_have (d := e) ?_ ?_; unfold e; rotate_left; intro; clear_value e; rotate_right)
    | (extract_lets +onlyGivenNames e; clear_value e))

theorem Dev.dropFlushed_canon {d : Dev} (e : Nat) (y0 : Nat) (hd : d.Canon) : Dev.Canon (Dev.dropFlushed d e y0) := by
  induction y0 generalizing d e with
  | zero =>
    unfold Dev.dropFlushed
    repeat' (first
      | with_reducible assumption
      | with_reducible apply Dev.recDropOldest_canon
      | with_reducible apply canon_ite
      | (extract_lets +onlyGivenNames e; refine canon_have (d := e) ?_ ?_; unfold e; rotate_left; intro; clear_value e; rotate_right)
      | (extract_lets +onlyGivenNames e; clear_value e)
      | split
      | with_reducible refine canon_snd ?_ (by with_reducible assumption)
      | with_reducible refine canon_fst ?_ (by with_reducible assumption)
      | dsimp only)
  | succ k ih =>
    unfold Dev.dropFlushed
    repeat' (first
      | with_reducible assumption
      | with_reducible apply Dev.recDropOldest_canon
      | with_reducible apply ih
      | with_reducible apply canon_ite
      | (extract_lets +onlyGivenNames e; refine canon_have (d := e) ?_ ?_; unfold e; rotate_left; intro; clear_value e; rotate_right)
      | (extract_lets +onlyGivenNames e; clear_value e)
      | split
      | with_reducible refine canon_snd ?_ (by with_reducible assumption)
      | with_reducible refine canon_fst ?_ (by with_reducible assumption)
      | dsimp only)

theorem Dev.flushBlockDone_canon {d : Dev} (hd : d.Canon) : Dev.Canon (Dev.flushBlockDone d) := by
  unfold Dev.flushBlockDone
  repeat' (first
    | with_reducible assumption
    | with_reducible apply Dev.setFld_canon
    | with_reducible apply Dev.flushNext_canon
    | with_reducible apply Dev.dropFlushed_canon
    | (unfold Dev.Canon; dsimp only; with_reducible refine canon_fold ?_)
    | (extract_lets +onlyGivenNames e; refine canon_have (d := e) ?_ ?_; unfold e; rotate_left; intro; clear_value e; rotate_right)
    | (extract_lets +onlyGivenNames e; clear_value e)
    | split
    | with_reducible refine canon_snd ?_ (by with_reducible assumption)
    | with_reducible refine canon_fst ?_ (by with_reducible assumption)
    | dsimp only)

theorem Dev.flushEnd_canon {d : Dev} (hd : d.Canon) : Dev.Canon (Dev.flushEnd d) := by
  unfold Dev.flushEnd
  repeat' (first
    | with_reducible assumption
    | with_reducible apply Dev.setBit_canon
    | with_reducible apply Dev.flag_canon
    | with_reducible apply Dev.hw_canon
    | with_reducible apply canon_ite
    | (unfold Dev.Canon; dsimp only; with_reducible refine canon_fold ?_)
    | (extract_lets +onlyGivenNames e; refine canon_have (d := e) ?_ ?_; unfold e; rotate_left; intro; clear_value e; rotate_right)
    | (extract_lets +onlyGivenNames e; clear_value e))

theorem Dev.toLarder_canon {d : Dev} (hd : d.Canon) : Dev.Canon (Dev.toLarder d) := by
  unfold Dev.toLarder
  repeat' (first
    | with_reducible assumption
    | with_reducible apply Dev.wr_canon
    | with_reducible apply Dev.incWrap_canon
    | with_reducible apply Dev.larderPut_canon
    | with_reducible apply Dev.recMakeRoom_canon
    | with_reducible apply Dev.flushReq_canon
    | with_reducible apply canon_ite
    | (unfold Dev.Canon; dsimp only; with_reducible refine canon_fold ?_)
    | (extract_lets +onlyGivenNames e; refine canon_have (d := e) ?_ ?_; unfold e; rotate_left; intro; clear_value e; rotate_right)
    | (extract_lets +onlyGivenNames e; clear_value e)
    | split
    | with_reducible refine canon_snd ?_ (by with_reducible assumption)
    | with_reducible refine canon_fst ?_ (by with_reducible assumption)
    | dsimp only)

theorem Dev.nvcFinish_canon {d : Dev} (r : NvcReq) (status : Nat) (hd : d.Canon) : Dev.Canon (Dev.nvcFinish d r status) := by
  unfold Dev.nvcFinish
  repeat' (first
    | with_reducible assumption
    | with_reducible apply Dev.nvcDone_canon
    | with_reducible apply Dev.flushBlockDone_canon
    | with_reducible apply canon_ite
    | (unfold Dev.Canon; dsimp only; with_reducible refine canon_fold ?_)
    | (extract_lets +onlyGivenNames e; refine canon_have (d := e) ?_ ?_; unfold e; rotate_left; intro; clear_value e; rotate_right)
    | (extract_lets +onlyGivenNames e; clear_value e)
    | split
    | with_reducible refine canon_snd ?_ (by with_reducible assumption)
    | with_reducible refine canon_fst ?_ (by with_reducible assumption)
    | dsimp only)

theorem Dev.urgentDone_canon {d : Dev} (r : NvcReq) (hd : d.Canon) : Dev.Canon (Dev.urgentDone d r) := by
  unfold Dev.urgentDone
  repeat' (first
    | with_reducible assumption
    | with_reducible apply Dev.mramBurst_canon
    | (unfold Dev.Canon; dsimp only; with_reducible refine canon_fold ?_)
    | (extract_lets +onlyGivenNames e; refine canon_have (d := e) ?_ ?_; unfold e; rotate_left; intro; clear_value e; rotate_right)
    | (extract_lets +onlyGivenNames e; clear_value e)
    | split
    | with_reducible refine canon_snd ?_ (by with_reducible assumption)
    | with_reducible refine canon_fst ?_ (by with_reducible assumption)
    | dsimp only)

theorem Dev.nvcUnit_canon {d : Dev} (verified : Bool) (hd : d.Canon) : Dev.Canon (Dev.nvcUnit d verified) := by
  unfold Dev.nvcUnit
  repeat' (first
    | with_reducible assumption
    | with_reducible apply Dev.nvcShow_canon
    | with_reducible apply Dev.mramBurst_canon
    | with_reducible apply Dev.nvBytes_canon
    | with_reducible apply Dev.nvcKick_canon
    | with_reducible apply Dev.nvcFinish_canon
    | with_reducible apply Dev.urgentDone_canon
    | with_reducible apply canon_ite
    | (unfold Dev.Canon; dsimp only; with_reducible refine canon_fold ?_)
    | (extract_lets +onlyGivenNames e; refine canon_have (d := e) ?_ ?_; unfold e; rotate_left; intro; clear_value e; rotate_right)
    | (extract_lets +onlyGivenNames e; clear_value e)
    | split
    | with_reducible refine canon_snd ?_ (by with_reducible assumption)
    | with_reducible refine canon_fst ?_ (by with_reducible assumption)
    | dsimp only)

theorem Dev.norErased_canon {d : Dev} (s : Nat) (hd : d.Canon) : Dev.Canon (Dev.norErased d s) := by
  have h (b : Nat) : Dev.Canon { d with mem := d.mem.filter (fun c => !(decide (b ≤ c.1) && decide (c.1 < b + 262144))) } :=
    ⟨Store.wf_filter hd.1 _, hd.2⟩
  exact canon_ite (Dev.wr_canon _ _ (Dev.mramBurst_canon _ (Dev.setWord_canon _ _ (h _))))
    (Dev.mramBurst_canon _ (Dev.setWord_canon _ _ (h _)))

theorem Dev.eraseDone_canon {d : Dev} (hd : d.Canon) : Dev.Canon (Dev.eraseDone d) := by
  unfold Dev.eraseDone
  repeat' (first
    | with_reducible assumption
    | with_reducible apply Dev.nvcKick_canon
    | with_reducible apply Dev.nvcFinish_canon
    | with_reducible apply Dev.norErased_canon
    | with_reducible apply canon_ite
    | split
    | with_reducible refine canon_snd ?_ (by with_reducible assumption)
    | with_reducible refine canon_fst ?_ (by with_reducible assumption)
    | dsimp only)

end Sys2Proof.Machine
end

