-- ==== Sys2Proof/Laws/CanonTtEntry.lean ====
section
/-! SUPPORT. Every operation of Sys2Proof/Machine/TtEntry.lean keeps the canonical form. -/

set_option Elab.async false
set_option linter.all false

namespace Sys2Proof.Machine

theorem Dev.ttHold_canon {d : Dev} (i : Nat) (hd : d.Canon) : Dev.Canon (Dev.ttHold d i) := by
  unfold Dev.ttHold
  repeat' (first
    | with_reducible assumption
    | with_reducible apply canon_ite
    | (unfold Dev.Canon; dsimp only; with_reducible refine canon_fold ?_)
    | (extract_lets +onlyGivenNames e; refine canon_have (d := e) ?_ ?_; unfold e; rotate_left; intro; clear_value e; rotate_right)
    | (extract_lets +onlyGivenNames e; clear_value e))

theorem Dev.ttWord0_canon {d : Dev} (b i : Nat) (v : Word) (hd : d.Canon) : Dev.Canon (Dev.ttWord0 d b i v) := by
  unfold Dev.ttWord0
  repeat' (first
    | with_reducible assumption
    | with_reducible apply Dev.wr_canon
    | with_reducible apply canon_ite
    | (unfold Dev.Canon; dsimp only; with_reducible refine canon_fold ?_)
    | (extract_lets +onlyGivenNames e; refine canon_have (d := e) ?_ ?_; unfold e; rotate_left; intro; clear_value e; rotate_right)
    | (extract_lets +onlyGivenNames e; clear_value e))

theorem Dev.ttCheck_canon {d : Dev} (v : Word) (hd : d.Canon) : Dev.Canon (Dev.ttCheck d v) := by
  unfold Dev.ttCheck
  repeat' (first
    | with_reducible assumption
    | with_reducible apply Dev.flag_canon
    | with_reducible apply canon_ite
    | (extract_lets +onlyGivenNames e; refine canon_have (d := e) ?_ ?_; unfold e; rotate_left; intro; clear_value e; rotate_right)
    | (extract_lets +onlyGivenNames e; clear_value e))

theorem Dev.ttWord1_canon {d : Dev} (b i : Nat) (v : Word) (hd : d.Canon) : Dev.Canon (Dev.ttWord1 d b i v) := by
  unfold Dev.ttWord1
  repeat' (first
    | with_reducible assumption
    | with_reducible apply Dev.wr_canon
    | with_reducible apply Dev.ttHold_canon
    | with_reducible apply Dev.ttCheck_canon
    | with_reducible apply canon_ite
    | (unfold Dev.Canon; dsimp only; with_reducible refine canon_fold ?_)
    | (extract_lets +onlyGivenNames e; refine canon_have (d := e) ?_ ?_; unfold e; rotate_left; intro; clear_value e; rotate_right)
    | (extract_lets +onlyGivenNames e; clear_value e)
    | split
    | with_reducible refine canon_snd ?_ (by with_reducible assumption)
    | with_reducible refine canon_fst ?_ (by with_reducible assumption)
    | dsimp only)

theorem Dev.ttCtl_canon {d : Dev} (v : Word) (hd : d.Canon) : Dev.Canon (Dev.ttCtl d v) := by
  unfold Dev.ttCtl
  repeat' (first
    | with_reducible assumption
    | with_reducible apply Dev.flag_canon
    | with_reducible apply Dev.plainWrite_canon
    | with_reducible apply canon_ite
    | (extract_lets +onlyGivenNames e; refine canon_have (d := e) ?_ ?_; unfold e; rotate_left; intro; clear_value e; rotate_right)
    | (extract_lets +onlyGivenNames e; clear_value e))

theorem Dev.ttBuild_canon {d : Dev} (hd : d.Canon) : Dev.Canon (Dev.ttBuild d) := by
  unfold Dev.ttBuild
  repeat' (first
    | intro _
    | with_reducible assumption
    | with_reducible apply Dev.ttWord0_canon
    | with_reducible apply Dev.ttWord1_canon
    | with_reducible apply Dev.ttCtl_canon
    | with_reducible apply canon_ite
    | with_reducible apply canon_foldl
    | with_reducible apply canon_foldl_fst
    | with_reducible apply canon_foldl_snd
    | (extract_lets +onlyGivenNames e; refine canon_have (d := e) ?_ ?_; unfold e; rotate_left; intro; clear_value e; rotate_right)
    | (extract_lets +onlyGivenNames e; clear_value e)
    | dsimp only)

theorem Dev.injPlace_canon {d : Dev} (hd : d.Canon) : Dev.Canon (Dev.injPlace d) := by
  unfold Dev.injPlace
  repeat' (first
    | intro _
    | with_reducible assumption
    | with_reducible apply Dev.ttBuild_canon
    | with_reducible apply canon_ite
    | dsimp only)

end Sys2Proof.Machine
end

