-- ==== Sys2Proof/Laws/CanonCanTx.lean ====
section
/-! SUPPORT. Every operation of Sys2Proof/Machine/CanTx.lean keeps the canonical form. -/

set_option Elab.async false
set_option linter.all false

namespace Sys2Proof.Machine

theorem Dev.canArm_canon {d : Dev} (x n : Nat) (hd : d.Canon) : Dev.Canon (Dev.canArm d x n) := by
  unfold Dev.canArm
  repeat' (first
    | with_reducible assumption
    | with_reducible apply Dev.setFld_canon
    | with_reducible apply Dev.flag_canon
    | with_reducible apply Dev.start_canon)

theorem Dev.canDisarm_canon {d : Dev} (x n : Nat) (hd : d.Canon) : Dev.Canon (Dev.canDisarm d x n) := by
  unfold Dev.canDisarm
  repeat' (first
    | with_reducible assumption
    | with_reducible apply Dev.setBit_canon)

theorem Dev.canSetUp_canon {d : Dev} (x n : Nat) (w0 id mask : Word) (hd : d.Canon) : Dev.Canon (Dev.canSetUp d x n w0 id mask) := by
  unfold Dev.canSetUp
  repeat' (first
    | with_reducible assumption
    | with_reducible apply Dev.wr_canon)

theorem Dev.canPost_canon {d : Dev} (x n : Nat) (w0 id : Word) (data : List Byte) (hd : d.Canon) : Dev.Canon (Dev.canPost d x n w0 id data) := by
  unfold Dev.canPost
  repeat' (first
    | intro _
    | with_reducible assumption
    | with_reducible apply Dev.wr_canon
    | with_reducible apply Dev.canArm_canon
    | with_reducible apply Dev.canSetUp_canon
    | with_reducible apply canon_ite
    | with_reducible apply canon_foldl
    | (extract_lets +onlyGivenNames e; refine canon_have (d := e) ?_ ?_; unfold e; rotate_left; intro; clear_value e; rotate_right)
    | (extract_lets +onlyGivenNames e; clear_value e)
    | dsimp only)

theorem Dev.canTaken_canon {d : Dev} (x n : Nat) (hd : d.Canon) : Dev.Canon (Dev.canTaken d x n) := by
  unfold Dev.canTaken
  repeat' (first
    | with_reducible assumption
    | with_reducible apply Dev.setFld_canon
    | with_reducible apply Dev.setBit_canon)

theorem Dev.canProfileSet_canon {d : Dev} (hd : d.Canon) : Dev.Canon (Dev.canProfileSet d) := by
  unfold Dev.canProfileSet
  repeat' (first
    | with_reducible assumption
    | with_reducible apply Dev.canSetUp_canon)

theorem Dev.canProfileSend_canon {d : Dev} (type : Nat) (l : List Byte) (hd : d.Canon) : Dev.Canon (Dev.canProfileSend d type l) := by
  unfold Dev.canProfileSend
  repeat' (first
    | with_reducible assumption
    | with_reducible apply Dev.canPost_canon
    | with_reducible apply canon_ite
    | split
    | with_reducible refine canon_snd ?_ (by with_reducible assumption)
    | with_reducible refine canon_fst ?_ (by with_reducible assumption)
    | dsimp only)

theorem Dev.motObjects_canon {d : Dev} (hd : d.Canon) : Dev.Canon (Dev.motObjects d) := by
  unfold Dev.motObjects
  repeat' (first
    | intro _
    | with_reducible assumption
    | with_reducible apply Dev.canDisarm_canon
    | with_reducible apply Dev.canSetUp_canon
    | with_reducible apply Dev.canTaken_canon
    | with_reducible apply canon_ite
    | with_reducible apply canon_foldl
    | (extract_lets +onlyGivenNames e; refine canon_have (d := e) ?_ ?_; unfold e; rotate_left; intro; clear_value e; rotate_right)
    | (extract_lets +onlyGivenNames e; clear_value e)
    | dsimp only)

end Sys2Proof.Machine
end

