-- ==== Sys2Proof/Laws/CanonChain.lean ====
section
/-! SUPPORT. Every operation of Sys2Proof/Machine/Chain.lean keeps the canonical form. -/

set_option Elab.async false
set_option linter.all false

namespace Sys2Proof.Machine

theorem Dev.slewing_canon {d : Dev} (hd : d.Canon) : Dev.Canon (Dev.slewing d) := by
  unfold Dev.slewing
  repeat' (first
    | with_reducible assumption
    | with_reducible apply Dev.setBit_canon)

theorem Dev.outForm_canon {d : Dev} (hd : d.Canon) : Dev.Canon (Dev.outForm d) := by
  unfold Dev.outForm
  repeat' (first
    | with_reducible assumption
    | with_reducible apply Dev.wr_canon
    | with_reducible apply Dev.setBit_canon
    | with_reducible apply canon_ite
    | (extract_lets +onlyGivenNames e; refine canon_have (d := e) ?_ ?_; unfold e; rotate_left; intro; clear_value e; rotate_right)
    | (extract_lets +onlyGivenNames e; clear_value e))

theorem Dev.reform_canon {d : Dev} (hd : d.Canon) : Dev.Canon (Dev.reform d) := by
  unfold Dev.reform
  repeat' (first
    | with_reducible assumption
    | with_reducible apply Dev.wr_canon
    | with_reducible apply Dev.setBit_canon
    | with_reducible apply Dev.flag_canon
    | with_reducible apply Dev.slewing_canon
    | with_reducible apply canon_ite
    | (extract_lets +onlyGivenNames e; refine canon_have (d := e) ?_ ?_; unfold e; rotate_left; intro; clear_value e; rotate_right)
    | (extract_lets +onlyGivenNames e; clear_value e)
    | split
    | with_reducible refine canon_snd ?_ (by with_reducible assumption)
    | with_reducible refine canon_fst ?_ (by with_reducible assumption)
    | dsimp only)

theorem Dev.impActive_canon {d : Dev} (hd : d.Canon) : Dev.Canon (Dev.impActive d) := by
  unfold Dev.impActive
  repeat' (first
    | intro _
    | with_reducible assumption
    | with_reducible apply Dev.setBit_canon
    | split
    | with_reducible refine canon_snd ?_ (by with_reducible assumption)
    | with_reducible refine canon_fst ?_ (by with_reducible assumption)
    | dsimp only)

theorem Dev.accDrop_canon {d : Dev} (b : Nat) (hd : d.Canon) : Dev.Canon (Dev.accDrop d b) := by
  unfold Dev.accDrop
  repeat' (first
    | intro _
    | with_reducible assumption
    | (unfold Dev.Canon; dsimp only; with_reducible refine canon_fold ?_)
    | (extract_lets +onlyGivenNames e; refine canon_have (d := e) ?_ ?_; unfold e; rotate_left; intro; clear_value e; rotate_right)
    | (extract_lets +onlyGivenNames e; clear_value e)
    | dsimp only)

theorem Dev.binDiscard_canon {d : Dev} (b : Nat) (hd : d.Canon) : Dev.Canon (Dev.binDiscard d b) := by
  unfold Dev.binDiscard
  repeat' (first
    | with_reducible assumption
    | with_reducible apply Dev.impActive_canon
    | with_reducible apply Dev.accDrop_canon
    | (unfold Dev.Canon; dsimp only; with_reducible refine canon_fold ?_)
    | (extract_lets +onlyGivenNames e; refine canon_have (d := e) ?_ ?_; unfold e; rotate_left; intro; clear_value e; rotate_right)
    | (extract_lets +onlyGivenNames e; clear_value e)
    | split
    | with_reducible refine canon_snd ?_ (by with_reducible assumption)
    | with_reducible refine canon_fst ?_ (by with_reducible assumption)
    | dsimp only)

theorem Dev.ripRefresh_canon {d : Dev} (hd : d.Canon) : Dev.Canon (Dev.ripRefresh d) := by
  unfold Dev.ripRefresh
  repeat' (first
    | intro _
    | with_reducible assumption
    | with_reducible apply Dev.setBit_canon
    | with_reducible apply Dev.hw_canon
    | with_reducible apply Dev.binDiscard_canon
    | with_reducible apply canon_ite
    | with_reducible apply canon_foldl
    | (extract_lets +onlyGivenNames e; refine canon_have (d := e) ?_ ?_; unfold e; rotate_left; intro; clear_value e; rotate_right)
    | (extract_lets +onlyGivenNames e; clear_value e)
    | dsimp only)

theorem Dev.injDiscard_canon {d : Dev} (n : Nat) (hd : d.Canon) : Dev.Canon (Dev.injDiscard d n) := by
  unfold Dev.injDiscard
  repeat' (first
    | intro _
    | with_reducible assumption
    | with_reducible apply Dev.binDiscard_canon
    | with_reducible apply canon_ite
    | with_reducible apply canon_foldl
    | dsimp only)

theorem Dev.injOff_canon {d : Dev} (hd : d.Canon) : Dev.Canon (Dev.injOff d) := by
  unfold Dev.injOff
  repeat' (first
    | with_reducible assumption
    | with_reducible apply Dev.wr_canon
    | with_reducible apply Dev.setBit_canon
    | (unfold Dev.Canon; dsimp only; with_reducible refine canon_fold ?_)
    | (extract_lets +onlyGivenNames e; refine canon_have (d := e) ?_ ?_; unfold e; rotate_left; intro; clear_value e; rotate_right)
    | (extract_lets +onlyGivenNames e; clear_value e))

theorem Dev.injAbort_canon {d : Dev} (hd : d.Canon) : Dev.Canon (Dev.injAbort d) := by
  unfold Dev.injAbort
  repeat' (first
    | with_reducible assumption
    | with_reducible apply Dev.flag_canon
    | with_reducible apply Dev.hw_canon
    | with_reducible apply Dev.injDiscard_canon
    | with_reducible apply Dev.injOff_canon
    | (extract_lets +onlyGivenNames e; refine canon_have (d := e) ?_ ?_; unfold e; rotate_left; intro; clear_value e; rotate_right)
    | (extract_lets +onlyGivenNames e; clear_value e)
    | split
    | with_reducible refine canon_snd ?_ (by with_reducible assumption)
    | with_reducible refine canon_fst ?_ (by with_reducible assumption)
    | dsimp only)

theorem Dev.tinjAbort_canon {d : Dev} (hd : d.Canon) : Dev.Canon (Dev.tinjAbort d) := by
  unfold Dev.tinjAbort
  repeat' (first
    | with_reducible assumption
    | with_reducible apply Dev.setBit_canon
    | with_reducible apply Dev.flag_canon
    | with_reducible apply Dev.hw_canon
    | with_reducible apply canon_ite)

theorem Dev.traceTrigger_canon {d : Dev} (hd : d.Canon) : Dev.Canon (Dev.traceTrigger d) := by
  unfold Dev.traceTrigger
  repeat' (first
    | with_reducible assumption
    | with_reducible apply Dev.setFld_canon
    | with_reducible apply Dev.setBit_canon
    | with_reducible apply canon_ite
    | (unfold Dev.Canon; dsimp only; with_reducible refine canon_fold ?_)
    | (extract_lets +onlyGivenNames e; refine canon_have (d := e) ?_ ?_; unfold e; rotate_left; intro; clear_value e; rotate_right)
    | (extract_lets +onlyGivenNames e; clear_value e))

theorem Dev.traceOn_canon {d : Dev} (m : Nat) (hd : d.Canon) : Dev.Canon (Dev.traceOn d m) := by
  unfold Dev.traceOn
  repeat' (first
    | with_reducible assumption
    | with_reducible apply Dev.traceTrigger_canon
    | with_reducible apply canon_ite)

theorem Dev.setSlot_canon {d : Dev} (s : Nat) (x : SlotSt) (hd : d.Canon) : Dev.Canon (Dev.setSlot d s x) := by
  unfold Dev.setSlot
  repeat' (first
    | with_reducible assumption
    | with_reducible apply canon_ite
    | (unfold Dev.Canon; dsimp only; with_reducible refine canon_fold ?_)
    | (extract_lets +onlyGivenNames e; refine canon_have (d := e) ?_ ?_; unfold e; rotate_left; intro; clear_value e; rotate_right)
    | (extract_lets +onlyGivenNames e; clear_value e))

theorem Dev.slotHistReset_canon {d : Dev} (s : Nat) (hd : d.Canon) : Dev.Canon (Dev.slotHistReset d s) := by
  unfold Dev.slotHistReset
  repeat' (first
    | with_reducible assumption
    | with_reducible apply Dev.wr_canon
    | with_reducible apply Dev.setSlot_canon
    | (unfold Dev.Canon; dsimp only; with_reducible refine canon_fold ?_)
    | (extract_lets +onlyGivenNames e; refine canon_have (d := e) ?_ ?_; unfold e; rotate_left; intro; clear_value e; rotate_right)
    | (extract_lets +onlyGivenNames e; clear_value e))

theorem Dev.slotDrop_canon {d : Dev} (s : Nat) (hd : d.Canon) : Dev.Canon (Dev.slotDrop d s) := by
  unfold Dev.slotDrop
  repeat' (first
    | intro _
    | with_reducible assumption
    | with_reducible apply Dev.setSlot_canon
    | (unfold Dev.Canon; dsimp only; with_reducible refine canon_fold ?_)
    | (extract_lets +onlyGivenNames e; refine canon_have (d := e) ?_ ?_; unfold e; rotate_left; intro; clear_value e; rotate_right)
    | (extract_lets +onlyGivenNames e; clear_value e)
    | dsimp only)

theorem Dev.slotsBlocked_canon {d : Dev} (hd : d.Canon) : Dev.Canon (Dev.slotsBlocked d) := by
  unfold Dev.slotsBlocked
  repeat' (first
    | intro _
    | with_reducible assumption
    | with_reducible apply Dev.slotHistReset_canon
    | with_reducible apply Dev.slotDrop_canon
    | with_reducible apply canon_ite
    | with_reducible apply canon_foldl
    | (extract_lets +onlyGivenNames e; refine canon_have (d := e) ?_ ?_; unfold e; rotate_left; intro; clear_value e; rotate_right)
    | (extract_lets +onlyGivenNames e; clear_value e)
    | dsimp only)

theorem Dev.updateBlk_canon {d : Dev} (hd : d.Canon) : Dev.Canon (Dev.updateBlk d) := by
  unfold Dev.updateBlk
  repeat' (first
    | with_reducible assumption
    | with_reducible apply Dev.setBit_canon
    | with_reducible apply Dev.tinjAbort_canon
    | with_reducible apply Dev.traceOn_canon
    | with_reducible apply Dev.slotsBlocked_canon
    | with_reducible apply canon_ite
    | (unfold Dev.Canon; dsimp only; with_reducible refine canon_fold ?_)
    | (extract_lets +onlyGivenNames e; refine canon_have (d := e) ?_ ?_; unfold e; rotate_left; intro; clear_value e; rotate_right)
    | (extract_lets +onlyGivenNames e; clear_value e))

theorem Dev.sccSet_canon {d : Dev} (st : Nat) (hd : d.Canon) : Dev.Canon (Dev.sccSet d st) := by
  unfold Dev.sccSet
  repeat' (first
    | with_reducible assumption
    | with_reducible apply Dev.setFld_canon
    | with_reducible apply Dev.start_canon
    | with_reducible apply Dev.injAbort_canon
    | with_reducible apply canon_ite
    | (extract_lets +onlyGivenNames e; refine canon_have (d := e) ?_ ?_; unfold e; rotate_left; intro; clear_value e; rotate_right)
    | (extract_lets +onlyGivenNames e; clear_value e))

theorem Dev.k1On_canon {d : Dev} (hd : d.Canon) : Dev.Canon (Dev.k1On d) := by
  unfold Dev.k1On
  repeat' (first
    | with_reducible assumption
    | with_reducible apply Dev.start_canon
    | (unfold Dev.Canon; dsimp only; with_reducible refine canon_fold ?_)
    | (extract_lets +onlyGivenNames e; refine canon_have (d := e) ?_ ?_; unfold e; rotate_left; intro; clear_value e; rotate_right)
    | (extract_lets +onlyGivenNames e; clear_value e))

theorem Dev.k2On_canon {d : Dev} (hd : d.Canon) : Dev.Canon (Dev.k2On d) := by
  unfold Dev.k2On
  repeat' (first
    | with_reducible assumption
    | with_reducible apply Dev.start_canon
    | (unfold Dev.Canon; dsimp only; with_reducible refine canon_fold ?_)
    | (extract_lets +onlyGivenNames e; refine canon_have (d := e) ?_ ?_; unfold e; rotate_left; intro; clear_value e; rotate_right)
    | (extract_lets +onlyGivenNames e; clear_value e))

theorem Dev.k2Off_canon {d : Dev} (hd : d.Canon) : Dev.Canon (Dev.k2Off d) := by
  unfold Dev.k2Off
  repeat' (first
    | with_reducible assumption
    | with_reducible apply Dev.start_canon
    | with_reducible apply Dev.stop_canon
    | with_reducible apply canon_ite
    | (unfold Dev.Canon; dsimp only; with_reducible refine canon_fold ?_)
    | (extract_lets +onlyGivenNames e; refine canon_have (d := e) ?_ ?_; unfold e; rotate_left; intro; clear_value e; rotate_right)
    | (extract_lets +onlyGivenNames e; clear_value e))

theorem Dev.openingBegin_canon {d : Dev} (hd : d.Canon) : Dev.Canon (Dev.openingBegin d) := by
  unfold Dev.openingBegin
  repeat' (first
    | with_reducible assumption
    | with_reducible apply Dev.satInc_canon
    | with_reducible apply Dev.start_canon
    | with_reducible apply Dev.mirror_canon
    | with_reducible apply Dev.hw_canon
    | with_reducible apply canon_ite
    | (unfold Dev.Canon; dsimp only; with_reducible refine canon_fold ?_)
    | (extract_lets +onlyGivenNames e; refine canon_have (d := e) ?_ ?_; unfold e; rotate_left; intro; clear_value e; rotate_right)
    | (extract_lets +onlyGivenNames e; clear_value e))

theorem Dev.k1Off_canon {d : Dev} (hd : d.Canon) : Dev.Canon (Dev.k1Off d) := by
  unfold Dev.k1Off
  repeat' (first
    | with_reducible assumption
    | with_reducible apply Dev.stop_canon
    | with_reducible apply Dev.openingBegin_canon
    | with_reducible apply canon_ite
    | (unfold Dev.Canon; dsimp only; with_reducible refine canon_fold ?_)
    | (extract_lets +onlyGivenNames e; refine canon_have (d := e) ?_ ?_; unfold e; rotate_left; intro; clear_value e; rotate_right)
    | (extract_lets +onlyGivenNames e; clear_value e))

theorem Dev.openReq_canon {d : Dev} (hd : d.Canon) : Dev.Canon (Dev.openReq d) := by
  unfold Dev.openReq
  repeat' (first
    | with_reducible assumption
    | with_reducible apply Dev.sccSet_canon
    | with_reducible apply Dev.k2Off_canon
    | with_reducible apply Dev.k1Off_canon
    | with_reducible apply canon_ite
    | (extract_lets +onlyGivenNames e; refine canon_have (d := e) ?_ ?_; unfold e; rotate_left; intro; clear_value e; rotate_right)
    | (extract_lets +onlyGivenNames e; clear_value e))

theorem Dev.contAct_canon {d : Dev} (old new : Nat) (hd : d.Canon) : Dev.Canon (Dev.contAct d old new) := by
  unfold Dev.contAct
  repeat' (first
    | with_reducible assumption
    | with_reducible apply Dev.setBit_canon
    | with_reducible apply Dev.start_canon
    | with_reducible apply Dev.stop_canon
    | with_reducible apply Dev.openReq_canon
    | with_reducible apply canon_ite
    | (extract_lets +onlyGivenNames e; refine canon_have (d := e) ?_ ?_; unfold e; rotate_left; intro; clear_value e; rotate_right)
    | (extract_lets +onlyGivenNames e; clear_value e))

theorem Dev.updateAct_canon {d : Dev} (hd : d.Canon) : Dev.Canon (Dev.updateAct d) := by
  unfold Dev.updateAct
  repeat' (first
    | with_reducible assumption
    | with_reducible apply Dev.wr_canon
    | with_reducible apply Dev.outForm_canon
    | with_reducible apply Dev.reform_canon
    | with_reducible apply Dev.injAbort_canon
    | with_reducible apply Dev.updateBlk_canon
    | with_reducible apply Dev.contAct_canon
    | with_reducible apply canon_ite
    | (extract_lets +onlyGivenNames e; refine canon_have (d := e) ?_ ?_; unfold e; rotate_left; intro; clear_value e; rotate_right)
    | (extract_lets +onlyGivenNames e; clear_value e))

theorem Dev.plantUdp_canon {d : Dev} (type : Nat) (data : List Byte) (hd : d.Canon) : Dev.Canon (Dev.plantUdp d type data) := by
  unfold Dev.plantUdp
  repeat' (first
    | with_reducible assumption
    | with_reducible apply Dev.send_canon
    | with_reducible apply canon_ite)

theorem Dev.plantSend_canon {d : Dev} (type : Nat) (data : List Byte) (hd : d.Canon) : Dev.Canon (Dev.plantSend d type data) := by
  unfold Dev.plantSend
  repeat' (first
    | with_reducible assumption
    | with_reducible apply Dev.canProfileSend_canon
    | with_reducible apply Dev.plantUdp_canon
    | with_reducible apply canon_ite)

theorem Dev.rotSet_canon {d : Dev} (st reason : Nat) (hd : d.Canon) : Dev.Canon (Dev.rotSet d st reason) := by
  unfold Dev.rotSet
  repeat' (first
    | with_reducible assumption
    | with_reducible apply Dev.wr_canon
    | with_reducible apply Dev.injPlace_canon
    | with_reducible apply Dev.reform_canon
    | with_reducible apply Dev.plantSend_canon
    | with_reducible apply canon_ite
    | (unfold Dev.Canon; dsimp only; with_reducible refine canon_fold ?_)
    | (extract_lets +onlyGivenNames e; refine canon_have (d := e) ?_ ?_; unfold e; rotate_left; intro; clear_value e; rotate_right)
    | (extract_lets +onlyGivenNames e; clear_value e))

theorem Dev.rotIdle_canon {d : Dev} (reason : Nat) (hd : d.Canon) : Dev.Canon (Dev.rotIdle d reason) := by
  unfold Dev.rotIdle
  repeat' (first
    | with_reducible assumption
    | with_reducible apply Dev.fw_canon
    | with_reducible apply Dev.sysWr_canon
    | with_reducible apply Dev.rotSet_canon
    | with_reducible apply canon_ite
    | (unfold Dev.Canon; dsimp only; with_reducible refine canon_fold ?_)
    | (extract_lets +onlyGivenNames e; refine canon_have (d := e) ?_ ?_; unfold e; rotate_left; intro; clear_value e; rotate_right)
    | (extract_lets +onlyGivenNames e; clear_value e))

theorem Dev.rotCrimson_canon {d : Dev} (cls : Nat) (hd : d.Canon) : Dev.Canon (Dev.rotCrimson d cls) := by
  unfold Dev.rotCrimson
  repeat' (first
    | with_reducible assumption
    | with_reducible apply Dev.fw_canon
    | with_reducible apply Dev.rotSet_canon
    | with_reducible apply Dev.rotIdle_canon
    | with_reducible apply canon_ite
    | (extract_lets +onlyGivenNames e; refine canon_have (d := e) ?_ ?_; unfold e; rotate_left; intro; clear_value e; rotate_right)
    | (extract_lets +onlyGivenNames e; clear_value e))

theorem Dev.latchCrim_canon {d : Dev} (cls : Nat) (chan : Option Nat) (value : Int) (seq : Word) (hd : d.Canon) : Dev.Canon (Dev.latchCrim d cls chan value seq) := by
  unfold Dev.latchCrim
  repeat' (first
    | with_reducible assumption
    | with_reducible apply Dev.wr_canon
    | with_reducible apply Dev.setBit_canon
    | with_reducible apply Dev.hw_canon
    | with_reducible apply Dev.flushReq_canon
    | with_reducible apply Dev.updateAct_canon
    | with_reducible apply Dev.rotCrimson_canon
    | with_reducible apply canon_ite
    | (unfold Dev.Canon; dsimp only; with_reducible refine canon_fold ?_)
    | (extract_lets +onlyGivenNames e; refine canon_have (d := e) ?_ ?_; unfold e; rotate_left; intro; clear_value e; rotate_right)
    | (extract_lets +onlyGivenNames e; clear_value e)
    | split
    | with_reducible refine canon_snd ?_ (by with_reducible assumption)
    | with_reducible refine canon_fst ?_ (by with_reducible assumption)
    | dsimp only)

theorem Dev.crim_canon {d : Dev} (cls : Nat) (hd : d.Canon) : Dev.Canon (Dev.crim d cls) := by
  unfold Dev.crim
  repeat' (first
    | with_reducible assumption
    | with_reducible apply Dev.latchCrim_canon)

theorem Dev.setOchre_canon {d : Dev} (cls : Nat) (on : Bool) (hd : d.Canon) : Dev.Canon (Dev.setOchre d cls on) := by
  unfold Dev.setOchre
  repeat' (first
    | with_reducible assumption
    | with_reducible apply Dev.setBit_canon
    | with_reducible apply Dev.hw_canon
    | with_reducible apply Dev.updateAct_canon
    | with_reducible apply canon_ite
    | (extract_lets +onlyGivenNames e; refine canon_have (d := e) ?_ ?_; unfold e; rotate_left; intro; clear_value e; rotate_right)
    | (extract_lets +onlyGivenNames e; clear_value e))

theorem Dev.sccFault_canon {d : Dev} (b : Nat) (hd : d.Canon) : Dev.Canon (Dev.sccFault d b) := by
  unfold Dev.sccFault
  repeat' (first
    | with_reducible assumption
    | with_reducible apply Dev.flag_canon
    | with_reducible apply Dev.hw_canon
    | with_reducible apply Dev.sccSet_canon
    | with_reducible apply Dev.k2Off_canon
    | with_reducible apply Dev.k1Off_canon
    | with_reducible apply Dev.crim_canon
    | (extract_lets +onlyGivenNames e; refine canon_have (d := e) ?_ ?_; unfold e; rotate_left; intro; clear_value e; rotate_right)
    | (extract_lets +onlyGivenNames e; clear_value e))

theorem Dev.sccRecord_canon {d : Dev} (b : Nat) (hd : d.Canon) : Dev.Canon (Dev.sccRecord d b) := by
  unfold Dev.sccRecord
  repeat' (first
    | with_reducible assumption
    | with_reducible apply Dev.flag_canon
    | with_reducible apply Dev.hw_canon
    | with_reducible apply Dev.setOchre_canon
    | (unfold Dev.Canon; dsimp only; with_reducible refine canon_fold ?_)
    | (extract_lets +onlyGivenNames e; refine canon_have (d := e) ?_ ?_; unfold e; rotate_left; intro; clear_value e; rotate_right)
    | (extract_lets +onlyGivenNames e; clear_value e))

end Sys2Proof.Machine
end

