-- ==== Sys2Proof/Laws/CanonExcept.lean ====
section
/-! SUPPORT. Every operation of Sys2Proof/Machine/Except.lean keeps the canonical form. -/

set_option Elab.async false
set_option linter.all false

namespace Sys2Proof.Machine

theorem Dev.setCore_canon {d : Dev} (p : Pair) (c : CoreSt) (hd : d.Canon) : Dev.Canon (Dev.setCore d p c) := by
  unfold Dev.setCore
  repeat' (first
    | with_reducible assumption
    | (unfold Dev.Canon; dsimp only; with_reducible refine canon_fold ?_)
    | split
    | with_reducible refine canon_snd ?_ (by with_reducible assumption)
    | with_reducible refine canon_fst ?_ (by with_reducible assumption)
    | dsimp only)

theorem Dev.sendFail_canon {d : Dev} (cause : Nat) (hd : d.Canon) : Dev.Canon (Dev.sendFail d cause) := by
  unfold Dev.sendFail
  repeat' (first
    | with_reducible assumption
    | with_reducible apply Dev.send_canon
    | with_reducible apply Dev.hw_canon
    | with_reducible apply canon_ite
    | (unfold Dev.Canon; dsimp only; with_reducible refine canon_fold ?_)
    | (extract_lets +onlyGivenNames e; refine canon_have (d := e) ?_ ?_; unfold e; rotate_left; intro; clear_value e; rotate_right)
    | (extract_lets +onlyGivenNames e; clear_value e))

theorem Dev.cycIdle_canon {d : Dev} (hd : d.Canon) : Dev.Canon (Dev.cycIdle d) := by
  unfold Dev.cycIdle
  repeat' (first
    | with_reducible assumption
    | with_reducible apply Dev.setBit_canon
    | with_reducible apply canon_ite
    | (unfold Dev.Canon; dsimp only; with_reducible refine canon_fold ?_)
    | (extract_lets +onlyGivenNames e; refine canon_have (d := e) ?_ ?_; unfold e; rotate_left; intro; clear_value e; rotate_right)
    | (extract_lets +onlyGivenNames e; clear_value e))

theorem Dev.progFault_canon {d : Dev} (hd : d.Canon) : Dev.Canon (Dev.progFault d) := by
  unfold Dev.progFault
  repeat' (first
    | with_reducible assumption
    | with_reducible apply Dev.setFld_canon
    | with_reducible apply Dev.cycIdle_canon
    | with_reducible apply canon_ite
    | (unfold Dev.Canon; dsimp only; with_reducible refine canon_fold ?_)
    | (extract_lets +onlyGivenNames e; refine canon_have (d := e) ?_ ?_; unfold e; rotate_left; intro; clear_value e; rotate_right)
    | (extract_lets +onlyGivenNames e; clear_value e))

theorem Dev.pairStop_canon {d : Dev} (p : Pair) (double : Bool) (hd : d.Canon) : Dev.Canon (Dev.pairStop d p double) := by
  unfold Dev.pairStop
  repeat' (first
    | with_reducible assumption
    | with_reducible apply Dev.hw_canon
    | with_reducible apply Dev.setCore_canon
    | with_reducible apply Dev.sendFail_canon
    | with_reducible apply Dev.progFault_canon
    | with_reducible apply canon_ite
    | (unfold Dev.Canon; dsimp only; with_reducible refine canon_fold ?_)
    | (extract_lets +onlyGivenNames e; refine canon_have (d := e) ?_ ?_; unfold e; rotate_left; intro; clear_value e; rotate_right)
    | (extract_lets +onlyGivenNames e; clear_value e)
    | split
    | with_reducible refine canon_snd ?_ (by with_reducible assumption)
    | with_reducible refine canon_fst ?_ (by with_reducible assumption)
    | dsimp only)

theorem Dev.exception_canon {d : Dev} (p : Pair) (code sub : Nat) (xaddr : Option Word) (xpc : Word) (hd : d.Canon) : Dev.Canon (Dev.exception d p code sub xaddr xpc) := by
  unfold Dev.exception
  repeat' (first
    | with_reducible assumption
    | with_reducible apply Dev.hw_canon
    | with_reducible apply Dev.setCore_canon
    | with_reducible apply Dev.progFault_canon
    | with_reducible apply Dev.pairStop_canon
    | with_reducible apply canon_ite
    | (extract_lets +onlyGivenNames e; refine canon_have (d := e) ?_ ?_; unfold e; rotate_left; intro; clear_value e; rotate_right)
    | (extract_lets +onlyGivenNames e; clear_value e)
    | split
    | with_reducible refine canon_snd ?_ (by with_reducible assumption)
    | with_reducible refine canon_fst ?_ (by with_reducible assumption)
    | dsimp only)

theorem Dev.raise_canon {d : Dev} (p : Pair) (code sub : Nat) (xaddr : Option Word) (hd : d.Canon) : Dev.Canon (Dev.raise d p code sub xaddr) := by
  unfold Dev.raise
  repeat' (first
    | with_reducible assumption
    | with_reducible apply Dev.exception_canon)

theorem Dev.setEvent_canon {d : Dev} (p : Pair) (line : Nat) (hd : d.Canon) : Dev.Canon (Dev.setEvent d p line) := by
  unfold Dev.setEvent
  repeat' (first
    | with_reducible assumption
    | with_reducible apply Dev.setCore_canon
    | (unfold Dev.Canon; dsimp only; with_reducible refine canon_fold ?_)
    | (extract_lets +onlyGivenNames e; refine canon_have (d := e) ?_ ?_; unfold e; rotate_left; intro; clear_value e; rotate_right)
    | (extract_lets +onlyGivenNames e; clear_value e))

theorem Dev.touch_canon {d : Dev} (a n : Nat) (hd : d.Canon) : Dev.Canon (Dev.touch d a n) := by
  unfold Dev.touch
  repeat' (first
    | intro _
    | with_reducible assumption
    | with_reducible apply canon_ite
    | with_reducible apply canon_foldl
    | (unfold Dev.Canon; dsimp only; with_reducible refine canon_fold ?_)
    | (extract_lets +onlyGivenNames e; refine canon_have (d := e) ?_ ?_; unfold e; rotate_left; intro; clear_value e; rotate_right)
    | (extract_lets +onlyGivenNames e; clear_value e)
    | dsimp only)

theorem Dev.overwritten_canon {d : Dev} (a n : Nat) (hd : d.Canon) : Dev.Canon (Dev.overwritten d a n) := by
  unfold Dev.overwritten
  repeat' (first
    | intro _
    | with_reducible assumption
    | (unfold Dev.Canon; dsimp only; with_reducible refine canon_fold ?_)
    | (extract_lets +onlyGivenNames e; refine canon_have (d := e) ?_ ?_; unfold e; rotate_left; intro; clear_value e; rotate_right)
    | (extract_lets +onlyGivenNames e; clear_value e)
    | dsimp only)

theorem Dev.written_canon {d : Dev} (a n : Nat) (hd : d.Canon) : Dev.Canon (Dev.written d a n) := by
  unfold Dev.written
  repeat' (first
    | with_reducible assumption
    | with_reducible apply Dev.touch_canon
    | with_reducible apply Dev.overwritten_canon
    | (unfold Dev.Canon; dsimp only; with_reducible refine canon_fold ?_)
    | (extract_lets +onlyGivenNames e; refine canon_have (d := e) ?_ ?_; unfold e; rotate_left; intro; clear_value e; rotate_right)
    | (extract_lets +onlyGivenNames e; clear_value e))

theorem Dev.agentStore_canon {d : Dev} (a : Nat) (l : List Byte) (hd : d.Canon) : Dev.Canon (Dev.agentStore d a l) := by
  unfold Dev.agentStore
  repeat' (first
    | with_reducible assumption
    | with_reducible apply Dev.setBytes_canon
    | with_reducible apply Dev.written_canon)

theorem Dev.gate_canon {d : Dev} (src : Writer) (a : Nat) (f : Dev → Dev) (hd : d.Canon) (hf : ∀ x0, x0.Canon → Dev.Canon (f x0)) : Dev.Canon (Dev.gate d src a f) := by
  unfold Dev.gate
  repeat' (first
    | intro _
    | with_reducible assumption
    | with_reducible apply Dev.discard_canon
    | with_reducible apply Dev.setClaim_canon
    | with_reducible apply Dev.raise_canon
    | with_reducible apply hf
    | with_reducible apply canon_ite
    | (extract_lets +onlyGivenNames e; refine canon_have (d := e) ?_ ?_; unfold e; rotate_left; intro; clear_value e; rotate_right)
    | (extract_lets +onlyGivenNames e; clear_value e)
    | split
    | with_reducible refine canon_snd ?_ (by with_reducible assumption)
    | with_reducible refine canon_fst ?_ (by with_reducible assumption)
    | dsimp only)

end Sys2Proof.Machine
end

