-- ==== Sys2Proof/Laws/CanonTime.lean ====
section
/-! SUPPORT. Every operation of Sys2Proof/Machine/Time.lean keeps the canonical form. -/

set_option Elab.async false
set_option linter.all false

namespace Sys2Proof.Machine

theorem Dev.sysCtlWrite_canon {d : Dev} (v : Word) (hd : d.Canon) : Dev.Canon (Dev.sysCtlWrite d v) := by
  unfold Dev.sysCtlWrite
  repeat' (first
    | with_reducible assumption
    | with_reducible apply Dev.plainWrite_canon)

theorem Dev.release_canon {d : Dev} (hi : Bool) (mask : Word) (hd : d.Canon) : Dev.Canon (Dev.release d hi mask) := by
  unfold Dev.release
  repeat' (first
    | intro _
    | with_reducible assumption
    | with_reducible apply Dev.wr_canon
    | with_reducible apply canon_ite
    | (unfold Dev.Canon; dsimp only; with_reducible refine canon_fold ?_)
    | (extract_lets +onlyGivenNames e; refine canon_have (d := e) ?_ ?_; unfold e; rotate_left; intro; clear_value e; rotate_right)
    | (extract_lets +onlyGivenNames e; clear_value e)
    | dsimp only)

theorem Dev.expRelWrite_canon {d : Dev} (src : Writer) (hi : Bool) (v : Word) (hd : d.Canon) : Dev.Canon (Dev.expRelWrite d src hi v) := by
  unfold Dev.expRelWrite
  repeat' (first
    | with_reducible assumption
    | with_reducible apply Dev.raise_canon
    | with_reducible apply Dev.release_canon
    | with_reducible apply canon_ite
    | split
    | with_reducible refine canon_snd ?_ (by with_reducible assumption)
    | with_reducible refine canon_fst ?_ (by with_reducible assumption)
    | dsimp only)

theorem Dev.angRefresh_canon {d : Dev} (hd : d.Canon) : Dev.Canon (Dev.angRefresh d) := by
  unfold Dev.angRefresh
  repeat' (first
    | with_reducible assumption
    | with_reducible apply canon_ite
    | (unfold Dev.Canon; dsimp only; with_reducible refine canon_fold ?_)
    | (extract_lets +onlyGivenNames e; refine canon_have (d := e) ?_ ?_; unfold e; rotate_left; intro; clear_value e; rotate_right)
    | (extract_lets +onlyGivenNames e; clear_value e))

theorem Dev.setInc_canon {d : Dev} (i : Int) (hd : d.Canon) : Dev.Canon (Dev.setInc d i) := by
  unfold Dev.setInc
  repeat' (first
    | with_reducible assumption
    | with_reducible apply Dev.wr_canon
    | with_reducible apply Dev.flag_canon
    | with_reducible apply canon_ite
    | (extract_lets +onlyGivenNames e; refine canon_have (d := e) ?_ ?_; unfold e; rotate_left; intro; clear_value e; rotate_right)
    | (extract_lets +onlyGivenNames e; clear_value e))

theorem Dev.freeRunSlew_canon {d : Dev} (hd : d.Canon) : Dev.Canon (Dev.freeRunSlew d) := by
  unfold Dev.freeRunSlew
  repeat' (first
    | with_reducible assumption
    | with_reducible apply Dev.setInc_canon
    | with_reducible apply canon_ite
    | (extract_lets +onlyGivenNames e; refine canon_have (d := e) ?_ ?_; unfold e; rotate_left; intro; clear_value e; rotate_right)
    | (extract_lets +onlyGivenNames e; clear_value e))

theorem Dev.slewAtOnce_canon {d : Dev} (hd : d.Canon) : Dev.Canon (Dev.slewAtOnce d) := by
  unfold Dev.slewAtOnce
  repeat' (first
    | with_reducible assumption
    | with_reducible apply Dev.freeRunSlew_canon
    | with_reducible apply canon_ite)

theorem Dev.angChange_canon {d : Dev} (new cause : Nat) (hd : d.Canon) : Dev.Canon (Dev.angChange d new cause) := by
  unfold Dev.angChange
  repeat' (first
    | with_reducible assumption
    | with_reducible apply Dev.setFld_canon
    | with_reducible apply Dev.setBit_canon
    | with_reducible apply Dev.flag_canon
    | with_reducible apply Dev.hw_canon
    | with_reducible apply Dev.ripRefresh_canon
    | with_reducible apply Dev.slewAtOnce_canon
    | with_reducible apply canon_ite
    | (unfold Dev.Canon; dsimp only; with_reducible refine canon_fold ?_)
    | (extract_lets +onlyGivenNames e; refine canon_have (d := e) ?_ ?_; unfold e; rotate_left; intro; clear_value e; rotate_right)
    | (extract_lets +onlyGivenNames e; clear_value e)
    | split
    | with_reducible refine canon_snd ?_ (by with_reducible assumption)
    | with_reducible refine canon_fst ?_ (by with_reducible assumption)
    | dsimp only)

theorem Dev.angLoss_canon {d : Dev} (hd : d.Canon) : Dev.Canon (Dev.angLoss d) := by
  unfold Dev.angLoss
  repeat' (first
    | intro _
    | with_reducible assumption
    | with_reducible apply Dev.angRefresh_canon
    | with_reducible apply Dev.angChange_canon
    | with_reducible apply canon_ite
    | (extract_lets +onlyGivenNames e; refine canon_have (d := e) ?_ ?_; unfold e; rotate_left; intro; clear_value e; rotate_right)
    | (extract_lets +onlyGivenNames e; clear_value e)
    | dsimp only)

theorem Dev.angReturn_canon {d : Dev} (hd : d.Canon) : Dev.Canon (Dev.angReturn d) := by
  unfold Dev.angReturn
  repeat' (first
    | with_reducible assumption
    | with_reducible apply Dev.angRefresh_canon
    | with_reducible apply Dev.angChange_canon
    | (extract_lets +onlyGivenNames e; refine canon_have (d := e) ?_ ?_; unfold e; rotate_left; intro; clear_value e; rotate_right)
    | (extract_lets +onlyGivenNames e; clear_value e)
    | split
    | with_reducible refine canon_snd ?_ (by with_reducible assumption)
    | with_reducible refine canon_fst ?_ (by with_reducible assumption)
    | dsimp only)

theorem Dev.angLock_canon {d : Dev} (e : Int) (hd : d.Canon) : Dev.Canon (Dev.angLock d e) := by
  unfold Dev.angLock
  repeat' (first
    | with_reducible assumption
    | with_reducible apply Dev.setBit_canon
    | with_reducible apply Dev.ripRefresh_canon
    | with_reducible apply canon_ite
    | (unfold Dev.Canon; dsimp only; with_reducible refine canon_fold ?_)
    | (extract_lets +onlyGivenNames e; refine canon_have (d := e) ?_ ?_; unfold e; rotate_left; intro; clear_value e; rotate_right)
    | (extract_lets +onlyGivenNames e; clear_value e))

theorem Dev.pllUpdate_canon {d : Dev} (e : Int) (hd : d.Canon) : Dev.Canon (Dev.pllUpdate d e) := by
  unfold Dev.pllUpdate
  repeat' (first
    | with_reducible assumption
    | with_reducible apply Dev.wr_canon
    | with_reducible apply Dev.setInc_canon
    | with_reducible apply Dev.angLock_canon
    | with_reducible apply canon_ite
    | (unfold Dev.Canon; dsimp only; with_reducible refine canon_fold ?_)
    | (extract_lets +onlyGivenNames e; refine canon_have (d := e) ?_ ?_; unfold e; rotate_left; intro; clear_value e; rotate_right)
    | (extract_lets +onlyGivenNames e; clear_value e))

theorem Dev.angDeliver_canon {d : Dev} (src : Nat) (e : Int) (hd : d.Canon) : Dev.Canon (Dev.angDeliver d src e) := by
  unfold Dev.angDeliver
  repeat' (first
    | with_reducible assumption
    | with_reducible apply Dev.angRefresh_canon
    | with_reducible apply Dev.angReturn_canon
    | with_reducible apply Dev.pllUpdate_canon
    | with_reducible apply canon_ite
    | (unfold Dev.Canon; dsimp only; with_reducible refine canon_fold ?_)
    | (extract_lets +onlyGivenNames e; refine canon_have (d := e) ?_ ?_; unfold e; rotate_left; intro; clear_value e; rotate_right)
    | (extract_lets +onlyGivenNames e; clear_value e))

theorem Dev.holdRestart_canon {d : Dev} (hd : d.Canon) : Dev.Canon (Dev.holdRestart d) := by
  unfold Dev.holdRestart
  repeat' (first
    | with_reducible assumption
    | with_reducible apply Dev.start_canon)

theorem Dev.timLost_canon {d : Dev} (hd : d.Canon) : Dev.Canon (Dev.timLost d) := by
  unfold Dev.timLost
  repeat' (first
    | with_reducible assumption
    | with_reducible apply Dev.setBit_canon
    | with_reducible apply Dev.flag_canon
    | with_reducible apply Dev.angLoss_canon)

theorem Dev.holdExpiry_canon {d : Dev} (hd : d.Canon) : Dev.Canon (Dev.holdExpiry d) := by
  unfold Dev.holdExpiry
  repeat' (first
    | with_reducible assumption
    | with_reducible apply Dev.timLost_canon
    | with_reducible apply canon_ite)

theorem Dev.timInc_canon {d : Dev} (v : Word) (hd : d.Canon) : Dev.Canon (Dev.timInc d v) := by
  unfold Dev.timInc
  repeat' (first
    | with_reducible assumption
    | with_reducible apply Dev.wr_canon
    | with_reducible apply Dev.flag_canon
    | with_reducible apply Dev.holdRestart_canon
    | with_reducible apply canon_ite
    | (extract_lets +onlyGivenNames e; refine canon_have (d := e) ?_ ?_; unfold e; rotate_left; intro; clear_value e; rotate_right)
    | (extract_lets +onlyGivenNames e; clear_value e))

theorem Dev.timAdjSec_canon {d : Dev} (v : Word) (hd : d.Canon) : Dev.Canon (Dev.timAdjSec d v) := by
  unfold Dev.timAdjSec
  repeat' (first
    | with_reducible assumption
    | (unfold Dev.Canon; dsimp only; with_reducible refine canon_fold ?_)
    | (extract_lets +onlyGivenNames e; refine canon_have (d := e) ?_ ?_; unfold e; rotate_left; intro; clear_value e; rotate_right)
    | (extract_lets +onlyGivenNames e; clear_value e))

theorem Dev.timAdjNs_canon {d : Dev} (v : Word) (hd : d.Canon) : Dev.Canon (Dev.timAdjNs d v) := by
  unfold Dev.timAdjNs
  repeat' (first
    | with_reducible assumption
    | with_reducible apply Dev.flag_canon
    | with_reducible apply Dev.holdRestart_canon
    | with_reducible apply canon_ite
    | (unfold Dev.Canon; dsimp only; with_reducible refine canon_fold ?_)
    | (extract_lets +onlyGivenNames e; refine canon_have (d := e) ?_ ?_; unfold e; rotate_left; intro; clear_value e; rotate_right)
    | (extract_lets +onlyGivenNames e; clear_value e))

theorem Dev.timCtl_canon {d : Dev} (v : Word) (hd : d.Canon) : Dev.Canon (Dev.timCtl d v) := by
  unfold Dev.timCtl
  repeat' (first
    | with_reducible assumption
    | with_reducible apply Dev.setBit_canon
    | with_reducible apply Dev.plainWrite_canon
    | with_reducible apply Dev.angReturn_canon
    | with_reducible apply Dev.holdRestart_canon
    | with_reducible apply canon_ite
    | (extract_lets +onlyGivenNames e; refine canon_have (d := e) ?_ ?_; unfold e; rotate_left; intro; clear_value e; rotate_right)
    | (extract_lets +onlyGivenNames e; clear_value e))

theorem Dev.timHoldTo_canon {d : Dev} (v : Word) (hd : d.Canon) : Dev.Canon (Dev.timHoldTo d v) := by
  unfold Dev.timHoldTo
  repeat' (first
    | with_reducible assumption
    | with_reducible apply Dev.wr_canon
    | with_reducible apply Dev.timLost_canon
    | with_reducible apply Dev.holdExpiry_canon
    | with_reducible apply canon_ite
    | (extract_lets +onlyGivenNames e; refine canon_have (d := e) ?_ ?_; unfold e; rotate_left; intro; clear_value e; rotate_right)
    | (extract_lets +onlyGivenNames e; clear_value e))

theorem Dev.timSnap_canon {d : Dev} (hd : d.Canon) : Dev.Canon (Dev.timSnap d) := by
  unfold Dev.timSnap
  repeat' (first
    | with_reducible assumption
    | with_reducible apply Dev.wr_canon
    | (extract_lets +onlyGivenNames e; refine canon_have (d := e) ?_ ?_; unfold e; rotate_left; intro; clear_value e; rotate_right)
    | (extract_lets +onlyGivenNames e; clear_value e))

theorem Dev.timTbRead_canon {d : Dev} (hd : d.Canon) : Dev.Canon (Dev.timTbRead d).2 := by
  unfold Dev.timTbRead
  repeat' (first
    | with_reducible assumption
    | with_reducible apply Dev.wr_canon
    | dsimp only)

theorem Dev.angAngleRead_canon {d : Dev} (hd : d.Canon) : Dev.Canon (Dev.angAngleRead d).2 := by
  unfold Dev.angAngleRead
  repeat' (first
    | with_reducible assumption
    | with_reducible apply Dev.wr_canon
    | dsimp only)

theorem Dev.angSrcPri_canon {d : Dev} (v : Word) (hd : d.Canon) : Dev.Canon (Dev.angSrcPri d v) := by
  unfold Dev.angSrcPri
  repeat' (first
    | with_reducible assumption
    | with_reducible apply Dev.plainWrite_canon
    | with_reducible apply Dev.angRefresh_canon
    | with_reducible apply Dev.angChange_canon
    | (unfold Dev.Canon; dsimp only; with_reducible refine canon_fold ?_)
    | (extract_lets +onlyGivenNames e; refine canon_have (d := e) ?_ ?_; unfold e; rotate_left; intro; clear_value e; rotate_right)
    | (extract_lets +onlyGivenNames e; clear_value e))

theorem Dev.angCtl_canon {d : Dev} (v : Word) (hd : d.Canon) : Dev.Canon (Dev.angCtl d v) := by
  unfold Dev.angCtl
  repeat' (first
    | with_reducible assumption
    | with_reducible apply Dev.plainWrite_canon
    | with_reducible apply Dev.angRefresh_canon
    | with_reducible apply Dev.slewAtOnce_canon
    | with_reducible apply Dev.angChange_canon
    | with_reducible apply canon_ite
    | (extract_lets +onlyGivenNames e; refine canon_have (d := e) ?_ ?_; unfold e; rotate_left; intro; clear_value e; rotate_right)
    | (extract_lets +onlyGivenNames e; clear_value e))

theorem Dev.angLossTo_canon {d : Dev} (v : Word) (hd : d.Canon) : Dev.Canon (Dev.angLossTo d v) := by
  unfold Dev.angLossTo
  repeat' (first
    | with_reducible assumption
    | with_reducible apply Dev.plainWrite_canon
    | with_reducible apply Dev.angRefresh_canon
    | with_reducible apply Dev.angLoss_canon
    | with_reducible apply Dev.angReturn_canon)

theorem Dev.angPerr_canon {d : Dev} (v : Word) (hd : d.Canon) : Dev.Canon (Dev.angPerr d v) := by
  unfold Dev.angPerr
  repeat' (first
    | with_reducible assumption
    | with_reducible apply Dev.angDeliver_canon)

theorem Dev.angIncHi_canon {d : Dev} (v : Word) (hd : d.Canon) : Dev.Canon (Dev.angIncHi d v) := by
  unfold Dev.angIncHi
  repeat' (first
    | with_reducible assumption
    | (unfold Dev.Canon; dsimp only; with_reducible refine canon_fold ?_)
    | (extract_lets +onlyGivenNames e; refine canon_have (d := e) ?_ ?_; unfold e; rotate_left; intro; clear_value e; rotate_right)
    | (extract_lets +onlyGivenNames e; clear_value e))

theorem Dev.angIncLo_canon {d : Dev} (v : Word) (hd : d.Canon) : Dev.Canon (Dev.angIncLo d v) := by
  unfold Dev.angIncLo
  repeat' (first
    | with_reducible assumption
    | with_reducible apply Dev.setInc_canon
    | with_reducible apply Dev.slewAtOnce_canon
    | (unfold Dev.Canon; dsimp only; with_reducible refine canon_fold ?_)
    | (extract_lets +onlyGivenNames e; refine canon_have (d := e) ?_ ?_; unfold e; rotate_left; intro; clear_value e; rotate_right)
    | (extract_lets +onlyGivenNames e; clear_value e))

theorem Dev.zcEdge_canon {d : Dev} (hd : d.Canon) : Dev.Canon (Dev.zcEdge d) := by
  unfold Dev.zcEdge
  repeat' (first
    | with_reducible assumption
    | with_reducible apply Dev.wr_canon
    | with_reducible apply Dev.flag_canon
    | with_reducible apply Dev.angDeliver_canon
    | with_reducible apply canon_ite
    | (extract_lets +onlyGivenNames e; refine canon_have (d := e) ?_ ?_; unfold e; rotate_left; intro; clear_value e; rotate_right)
    | (extract_lets +onlyGivenNames e; clear_value e))

theorem Dev.zcLevel_canon {d : Dev} (level : Bool) (us : Nat) (hd : d.Canon) : Dev.Canon (Dev.zcLevel d level us) := by
  unfold Dev.zcLevel
  repeat' (first
    | with_reducible assumption
    | with_reducible apply Dev.zcEdge_canon
    | with_reducible apply canon_ite
    | (unfold Dev.Canon; dsimp only; with_reducible refine canon_fold ?_)
    | (extract_lets +onlyGivenNames e; refine canon_have (d := e) ?_ ?_; unfold e; rotate_left; intro; clear_value e; rotate_right)
    | (extract_lets +onlyGivenNames e; clear_value e))

theorem Dev.ttSwap_canon {d : Dev} (hd : d.Canon) : Dev.Canon (Dev.ttSwap d) := by
  unfold Dev.ttSwap
  repeat' (first
    | intro _
    | with_reducible assumption
    | with_reducible apply Dev.wr_canon
    | with_reducible apply Dev.setBit_canon
    | with_reducible apply Dev.mirror_canon
    | with_reducible apply canon_ite
    | with_reducible apply canon_foldl
    | (unfold Dev.Canon; dsimp only; with_reducible refine canon_fold ?_)
    | (extract_lets +onlyGivenNames e; refine canon_have (d := e) ?_ ?_; unfold e; rotate_left; intro; clear_value e; rotate_right)
    | (extract_lets +onlyGivenNames e; clear_value e)
    | split
    | with_reducible refine canon_snd ?_ (by with_reducible assumption)
    | with_reducible refine canon_fst ?_ (by with_reducible assumption)
    | dsimp only)

theorem Dev.angTick_canon {d : Dev} (hd : d.Canon) : Dev.Canon (Dev.angTick d) := by
  unfold Dev.angTick
  repeat' (first
    | with_reducible assumption
    | with_reducible apply Dev.ttSwap_canon
    | with_reducible apply canon_ite
    | (unfold Dev.Canon; dsimp only; with_reducible refine canon_fold ?_)
    | (extract_lets +onlyGivenNames e; refine canon_have (d := e) ?_ ?_; unfold e; rotate_left; intro; clear_value e; rotate_right)
    | (extract_lets +onlyGivenNames e; clear_value e)
    | dsimp only)

theorem Dev.optTick_canon {d : Dev} (hd : d.Canon) : Dev.Canon (Dev.optTick d) := by
  unfold Dev.optTick
  repeat' (first
    | with_reducible assumption
    | with_reducible apply Dev.wr_canon
    | with_reducible apply canon_ite
    | (unfold Dev.Canon; dsimp only; with_reducible refine canon_fold ?_)
    | (extract_lets +onlyGivenNames e; refine canon_have (d := e) ?_ ?_; unfold e; rotate_left; intro; clear_value e; rotate_right)
    | (extract_lets +onlyGivenNames e; clear_value e))

theorem Dev.coreTick_canon {d : Dev} (hd : d.Canon) : Dev.Canon (Dev.coreTick d) := by
  unfold Dev.coreTick
  repeat' (first
    | with_reducible assumption
    | (unfold Dev.Canon; dsimp only; with_reducible refine canon_fold ?_)
    | (extract_lets +onlyGivenNames e; refine canon_have (d := e) ?_ ?_; unfold e; rotate_left; intro; clear_value e; rotate_right)
    | (extract_lets +onlyGivenNames e; clear_value e))

theorem Dev.watch_canon {d : Dev} (t : Nat) (ok : Bool) (hd : d.Canon) : Dev.Canon (Dev.watch d t ok) := by
  unfold Dev.watch
  repeat' (first
    | with_reducible assumption
    | with_reducible apply Dev.start_canon
    | with_reducible apply Dev.stop_canon
    | with_reducible apply canon_ite)

theorem Dev.tick_canon {d : Dev} (hd : d.Canon) : Dev.Canon (Dev.tick d) := by
  unfold Dev.tick
  repeat' (first
    | with_reducible assumption
    | with_reducible apply Dev.angTick_canon
    | with_reducible apply Dev.optTick_canon
    | with_reducible apply Dev.coreTick_canon
    | with_reducible apply Dev.watch_canon
    | (unfold Dev.Canon; dsimp only; with_reducible refine canon_fold ?_)
    | (extract_lets +onlyGivenNames e; refine canon_have (d := e) ?_ ?_; unfold e; rotate_left; intro; clear_value e; rotate_right)
    | (extract_lets +onlyGivenNames e; clear_value e))

theorem Dev.slewDue_canon {d : Dev} (hd : d.Canon) : Dev.Canon (Dev.slewDue d) := by
  unfold Dev.slewDue
  repeat' (first
    | with_reducible assumption
    | with_reducible apply Dev.start_canon
    | with_reducible apply Dev.freeRunSlew_canon
    | with_reducible apply canon_ite)

end Sys2Proof.Machine
end

