-- ==== Sys2Proof/Laws/CanonProtect.lean ====
section
/-! SUPPORT. Every operation of Sys2Proof/Machine/Protect.lean keeps the canonical form. -/

set_option Elab.async false
set_option linter.all false

namespace Sys2Proof.Machine

theorem Dev.ochreRefresh_canon {d : Dev} (hd : d.Canon) : Dev.Canon (Dev.ochreRefresh d) := by
  unfold Dev.ochreRefresh
  repeat' (first
    | intro _
    | with_reducible assumption
    | with_reducible apply Dev.setOchre_canon
    | with_reducible apply canon_foldl
    | dsimp only)

theorem Dev.srcOchre_canon {d : Dev} (cls : Nat) (on : Bool) (hd : d.Canon) : Dev.Canon (Dev.srcOchre d cls on) := by
  unfold Dev.srcOchre
  repeat' (first
    | with_reducible assumption
    | with_reducible apply Dev.setOchre_canon
    | (unfold Dev.Canon; dsimp only; with_reducible refine canon_fold ?_)
    | (extract_lets +onlyGivenNames e; refine canon_have (d := e) ?_ ?_; unfold e; rotate_left; intro; clear_value e; rotate_right)
    | (extract_lets +onlyGivenNames e; clear_value e))

theorem Dev.srcCond_canon {d : Dev} (cls : Nat) (on : Bool) (hd : d.Canon) : Dev.Canon (Dev.srcCond d cls on) := by
  unfold Dev.srcCond
  repeat' (first
    | with_reducible assumption
    | (unfold Dev.Canon; dsimp only; with_reducible refine canon_fold ?_)
    | (extract_lets +onlyGivenNames e; refine canon_have (d := e) ?_ ?_; unfold e; rotate_left; intro; clear_value e; rotate_right)
    | (extract_lets +onlyGivenNames e; clear_value e))

theorem Dev.compare_canon {d : Dev} (i : Nat) (v : Int) (seq : Nat) (hd : d.Canon) : Dev.Canon (Dev.compare d i v seq).1 := by
  unfold Dev.compare
  repeat' (first
    | with_reducible assumption
    | with_reducible apply Dev.wr_canon
    | with_reducible apply Dev.crim_canon
    | with_reducible apply canon_ite
    | with_reducible apply canon_ite_snd
    | with_reducible apply canon_ite_fst
    | (unfold Dev.Canon; dsimp only; with_reducible refine canon_fold ?_)
    | (extract_lets +onlyGivenNames e; refine canon_have (d := e) ?_ ?_; unfold e; rotate_left; intro; clear_value e; rotate_right)
    | (extract_lets +onlyGivenNames e; clear_value e)
    | dsimp only)

theorem Dev.crimOnsets_canon {d : Dev} (l : List (Nat × Nat × Int)) (seq : Nat) (hd : d.Canon) : Dev.Canon (Dev.crimOnsets d l seq) := by
  unfold Dev.crimOnsets
  repeat' (first
    | intro _
    | with_reducible assumption
    | with_reducible apply Dev.latchCrim_canon
    | with_reducible apply canon_ite
    | with_reducible apply canon_foldl
    | with_reducible apply canon_foldl_fst
    | with_reducible apply canon_foldl_snd
    | dsimp only)

theorem Dev.compareWords_canon {d : Dev} (ws : List (Nat × Int × Nat)) (seq : Nat) (hd : d.Canon) : Dev.Canon (Dev.compareWords d ws seq) := by
  unfold Dev.compareWords
  repeat' (first
    | intro _
    | with_reducible assumption
    | with_reducible apply Dev.ochreRefresh_canon
    | with_reducible apply Dev.compare_canon
    | with_reducible apply Dev.crimOnsets_canon
    | with_reducible apply canon_ite
    | with_reducible apply canon_foldl
    | with_reducible apply canon_foldl_fst
    | with_reducible apply canon_foldl_snd
    | (extract_lets +onlyGivenNames e; refine canon_have (d := e) ?_ ?_; unfold e; rotate_left; intro; clear_value e; rotate_right)
    | (extract_lets +onlyGivenNames e; clear_value e)
    | split
    | with_reducible refine canon_snd ?_ (by with_reducible assumption)
    | with_reducible refine canon_fst ?_ (by with_reducible assumption)
    | dsimp only)

theorem Dev.untrust_canon {d : Dev} (i : Nat) (trusted : Bool) (hd : d.Canon) : Dev.Canon (Dev.untrust d i trusted) := by
  unfold Dev.untrust
  repeat' (first
    | with_reducible assumption
    | with_reducible apply Dev.setFld_canon
    | with_reducible apply Dev.latchCrim_canon
    | with_reducible apply canon_ite
    | (unfold Dev.Canon; dsimp only; with_reducible refine canon_fold ?_)
    | (extract_lets +onlyGivenNames e; refine canon_have (d := e) ?_ ?_; unfold e; rotate_left; intro; clear_value e; rotate_right)
    | (extract_lets +onlyGivenNames e; clear_value e)
    | split
    | with_reducible refine canon_snd ?_ (by with_reducible assumption)
    | with_reducible refine canon_fst ?_ (by with_reducible assumption)
    | dsimp only)

theorem Dev.swdPublished_canon {d : Dev} (hd : d.Canon) : Dev.Canon (Dev.swdPublished d) := by
  unfold Dev.swdPublished
  repeat' (first
    | with_reducible assumption
    | with_reducible apply Dev.start_canon
    | (unfold Dev.Canon; dsimp only; with_reducible refine canon_fold ?_)
    | (extract_lets +onlyGivenNames e; refine canon_have (d := e) ?_ ?_; unfold e; rotate_left; intro; clear_value e; rotate_right)
    | (extract_lets +onlyGivenNames e; clear_value e))

theorem Dev.swdExpiry_canon {d : Dev} (hd : d.Canon) : Dev.Canon (Dev.swdExpiry d) := by
  unfold Dev.swdExpiry
  repeat' (first
    | with_reducible assumption
    | with_reducible apply Dev.crim_canon
    | with_reducible apply canon_ite
    | (extract_lets +onlyGivenNames e; refine canon_have (d := e) ?_ ?_; unfold e; rotate_left; intro; clear_value e; rotate_right)
    | (extract_lets +onlyGivenNames e; clear_value e))

theorem Dev.limStage_canon {d : Dev} (i w : Nat) (v : Word) (hd : d.Canon) : Dev.Canon (Dev.limStage d i w v) := by
  unfold Dev.limStage
  repeat' (first
    | with_reducible assumption
    | (unfold Dev.Canon; dsimp only; with_reducible refine canon_fold ?_)
    | (extract_lets +onlyGivenNames e; refine canon_have (d := e) ?_ ?_; unfold e; rotate_left; intro; clear_value e; rotate_right)
    | (extract_lets +onlyGivenNames e; clear_value e))

theorem Dev.limCommit_canon {d : Dev} (i : Nat) (v : Word) (hd : d.Canon) : Dev.Canon (Dev.limCommit d i v) := by
  unfold Dev.limCommit
  repeat' (first
    | intro _
    | with_reducible assumption
    | with_reducible apply Dev.wr_canon
    | with_reducible apply Dev.flag_canon
    | with_reducible apply Dev.hw_canon
    | with_reducible apply Dev.ochreRefresh_canon
    | with_reducible apply canon_ite
    | with_reducible apply canon_foldl
    | with_reducible apply canon_foldl_fst
    | with_reducible apply canon_foldl_snd
    | (unfold Dev.Canon; dsimp only; with_reducible refine canon_fold ?_)
    | (extract_lets +onlyGivenNames e; refine canon_have (d := e) ?_ ?_; unfold e; rotate_left; intro; clear_value e; rotate_right)
    | (extract_lets +onlyGivenNames e; clear_value e)
    | split
    | with_reducible refine canon_snd ?_ (by with_reducible assumption)
    | with_reducible refine canon_fst ?_ (by with_reducible assumption)
    | dsimp only)

theorem Dev.limWrite_canon {d : Dev} (i w : Nat) (v : Word) (hd : d.Canon) : Dev.Canon (Dev.limWrite d i w v) := by
  unfold Dev.limWrite
  repeat' (first
    | with_reducible assumption
    | with_reducible apply Dev.limStage_canon
    | with_reducible apply Dev.limCommit_canon
    | with_reducible apply canon_ite)

theorem Dev.crimCauses_canon {d : Dev} (cls : Nat) (hd : d.Canon) : Dev.Canon (Dev.crimCauses d cls).1 := by
  unfold Dev.crimCauses
  repeat' (first
    | intro _
    | with_reducible assumption
    | with_reducible apply Dev.setBit_canon
    | with_reducible apply canon_ite
    | with_reducible apply canon_ite_snd
    | with_reducible apply canon_ite_fst
    | with_reducible apply canon_foldl
    | with_reducible apply canon_foldl_fst
    | with_reducible apply canon_foldl_snd
    | (unfold Dev.Canon; dsimp only; with_reducible refine canon_fold ?_)
    | (extract_lets +onlyGivenNames e; refine canon_have (d := e) ?_ ?_; unfold e; rotate_left; intro; clear_value e; rotate_right)
    | (extract_lets +onlyGivenNames e; clear_value e)
    | dsimp only)

theorem Dev.clearClass_canon {d : Dev} (cls : Nat) (hd : d.Canon) : Dev.Canon (Dev.clearClass d cls) := by
  unfold Dev.clearClass
  repeat' (first
    | with_reducible assumption
    | with_reducible apply Dev.setBit_canon
    | with_reducible apply Dev.flag_canon
    | with_reducible apply Dev.hw_canon
    | with_reducible apply Dev.crimCauses_canon
    | with_reducible apply canon_ite
    | (extract_lets +onlyGivenNames e; refine canon_have (d := e) ?_ ?_; unfold e; rotate_left; intro; clear_value e; rotate_right)
    | (extract_lets +onlyGivenNames e; clear_value e)
    | split
    | with_reducible refine canon_snd ?_ (by with_reducible assumption)
    | with_reducible refine canon_fst ?_ (by with_reducible assumption)
    | dsimp only)

theorem Dev.tripClear_canon {d : Dev} (v : Word) (hd : d.Canon) : Dev.Canon (Dev.tripClear d v) := by
  unfold Dev.tripClear
  repeat' (first
    | intro _
    | with_reducible assumption
    | with_reducible apply Dev.setBit_canon
    | with_reducible apply Dev.updateAct_canon
    | with_reducible apply Dev.clearClass_canon
    | with_reducible apply canon_ite
    | with_reducible apply canon_foldl
    | (extract_lets +onlyGivenNames e; refine canon_have (d := e) ?_ ?_; unfold e; rotate_left; intro; clear_value e; rotate_right)
    | (extract_lets +onlyGivenNames e; clear_value e)
    | dsimp only)

theorem Dev.swTrip_canon {d : Dev} (v : Word) (hd : d.Canon) : Dev.Canon (Dev.swTrip d v) := by
  unfold Dev.swTrip
  repeat' (first
    | with_reducible assumption
    | with_reducible apply Dev.plainWrite_canon
    | with_reducible apply Dev.crim_canon
    | with_reducible apply Dev.srcOchre_canon
    | with_reducible apply canon_ite
    | (extract_lets +onlyGivenNames e; refine canon_have (d := e) ?_ ?_; unfold e; rotate_left; intro; clear_value e; rotate_right)
    | (extract_lets +onlyGivenNames e; clear_value e))

theorem Dev.limTest_canon {d : Dev} (v : Word) (bad : BitVec 4) (hd : d.Canon) : Dev.Canon (Dev.limTest d v bad) := by
  unfold Dev.limTest
  repeat' (first
    | with_reducible assumption
    | with_reducible apply Dev.wr_canon
    | with_reducible apply Dev.flag_canon
    | with_reducible apply Dev.hw_canon
    | with_reducible apply Dev.crim_canon
    | with_reducible apply canon_ite
    | (extract_lets +onlyGivenNames e; refine canon_have (d := e) ?_ ?_; unfold e; rotate_left; intro; clear_value e; rotate_right)
    | (extract_lets +onlyGivenNames e; clear_value e))

theorem Dev.loadEntry_canon {d : Dev} (i : Nat) (f : Nat → Word) (hd : d.Canon) : Dev.Canon (Dev.loadEntry d i f) := by
  unfold Dev.loadEntry
  repeat' (first
    | intro _
    | with_reducible assumption
    | with_reducible apply Dev.wr_canon
    | with_reducible apply canon_foldl
    | dsimp only)

theorem Dev.loadHeader_canon {d : Dev} (k : Nat) (hd : d.Canon) : Dev.Canon (Dev.loadHeader d k) := by
  unfold Dev.loadHeader
  repeat' (first
    | intro _
    | with_reducible assumption
    | with_reducible apply Dev.wr_canon
    | with_reducible apply canon_ite
    | with_reducible apply canon_foldl
    | (extract_lets +onlyGivenNames e; refine canon_have (d := e) ?_ ?_; unfold e; rotate_left; intro; clear_value e; rotate_right)
    | (extract_lets +onlyGivenNames e; clear_value e)
    | dsimp only)

theorem Dev.loadBuiltIn_canon {d : Dev} (hd : d.Canon) : Dev.Canon (Dev.loadBuiltIn d) := by
  unfold Dev.loadBuiltIn
  repeat' (first
    | intro _
    | with_reducible assumption
    | with_reducible apply Dev.loadEntry_canon
    | with_reducible apply canon_ite
    | with_reducible apply canon_foldl
    | (extract_lets +onlyGivenNames e; refine canon_have (d := e) ?_ ?_; unfold e; rotate_left; intro; clear_value e; rotate_right)
    | (extract_lets +onlyGivenNames e; clear_value e)
    | dsimp only)

theorem Dev.limitLoad_canon {d : Dev} (hd : d.Canon) : Dev.Canon (Dev.limitLoad d) := by
  unfold Dev.limitLoad
  repeat' (first
    | intro _
    | with_reducible assumption
    | with_reducible apply Dev.wr_canon
    | with_reducible apply Dev.setBit_canon
    | with_reducible apply Dev.loadEntry_canon
    | with_reducible apply Dev.loadHeader_canon
    | with_reducible apply Dev.loadBuiltIn_canon
    | with_reducible apply canon_ite
    | with_reducible apply canon_foldl
    | (extract_lets +onlyGivenNames e; refine canon_have (d := e) ?_ ?_; unfold e; rotate_left; intro; clear_value e; rotate_right)
    | (extract_lets +onlyGivenNames e; clear_value e)
    | split
    | with_reducible refine canon_snd ?_ (by with_reducible assumption)
    | with_reducible refine canon_fst ?_ (by with_reducible assumption)
    | dsimp only)

end Sys2Proof.Machine
end

