-- ==== Sys2Proof/Laws/CanonScc.lean ====
section
/-! SUPPORT. Every operation of Sys2Proof/Machine/Scc.lean keeps the canonical form. -/

set_option Elab.async false
set_option linter.all false

namespace Sys2Proof.Machine

theorem Dev.mirrorEnd_canon {d : Dev} (hd : d.Canon) : Dev.Canon (Dev.mirrorEnd d) := by
  unfold Dev.mirrorEnd
  repeat' (first
    | with_reducible assumption
    | with_reducible apply Dev.mirror_canon
    | with_reducible apply canon_ite
    | (unfold Dev.Canon; dsimp only; with_reducible refine canon_fold ?_)
    | (extract_lets +onlyGivenNames e; refine canon_have (d := e) ?_ ?_; unfold e; rotate_left; intro; clear_value e; rotate_right)
    | (extract_lets +onlyGivenNames e; clear_value e)
    | split
    | with_reducible refine canon_snd ?_ (by with_reducible assumption)
    | with_reducible refine canon_fst ?_ (by with_reducible assumption)
    | dsimp only)

theorem Dev.mirrorNote_canon {d : Dev} (hd : d.Canon) : Dev.Canon (Dev.mirrorNote d) := by
  unfold Dev.mirrorNote
  repeat' (first
    | with_reducible assumption
    | with_reducible apply Dev.mirror_canon
    | with_reducible apply Dev.mirrorEnd_canon
    | with_reducible apply canon_ite
    | (unfold Dev.Canon; dsimp only; with_reducible refine canon_fold ?_)
    | (extract_lets +onlyGivenNames e; refine canon_have (d := e) ?_ ?_; unfold e; rotate_left; intro; clear_value e; rotate_right)
    | (extract_lets +onlyGivenNames e; clear_value e))

theorem Dev.dropMeasure_canon {d : Dev} (hd : d.Canon) : Dev.Canon (Dev.dropMeasure d) := by
  unfold Dev.dropMeasure
  repeat' (first
    | with_reducible assumption
    | with_reducible apply Dev.setFld_canon
    | with_reducible apply Dev.stop_canon
    | with_reducible apply canon_ite
    | (unfold Dev.Canon; dsimp only; with_reducible refine canon_fold ?_)
    | (extract_lets +onlyGivenNames e; refine canon_have (d := e) ?_ ?_; unfold e; rotate_left; intro; clear_value e; rotate_right)
    | (extract_lets +onlyGivenNames e; clear_value e))

theorem Dev.sccClose_canon {d : Dev} (cue : Bool) (hd : d.Canon) : Dev.Canon (Dev.sccClose d cue) := by
  unfold Dev.sccClose
  repeat' (first
    | with_reducible assumption
    | with_reducible apply Dev.cue_canon
    | with_reducible apply Dev.hw_canon
    | with_reducible apply Dev.sccSet_canon
    | with_reducible apply Dev.k1On_canon
    | with_reducible apply Dev.k2On_canon
    | with_reducible apply Dev.openReq_canon
    | with_reducible apply canon_ite
    | (extract_lets +onlyGivenNames e; refine canon_have (d := e) ?_ ?_; unfold e; rotate_left; intro; clear_value e; rotate_right)
    | (extract_lets +onlyGivenNames e; clear_value e))

theorem Dev.sccAck_canon {d : Dev} (hd : d.Canon) : Dev.Canon (Dev.sccAck d) := by
  unfold Dev.sccAck
  repeat' (first
    | with_reducible assumption
    | with_reducible apply Dev.sccSet_canon
    | with_reducible apply Dev.srcCond_canon
    | with_reducible apply canon_ite)

theorem Dev.sccCmd_canon {d : Dev} (cue : Bool) (n : Nat) (hd : d.Canon) : Dev.Canon (Dev.sccCmd d cue n) := by
  unfold Dev.sccCmd
  repeat' (first
    | with_reducible assumption
    | with_reducible apply Dev.cue_canon
    | with_reducible apply Dev.openReq_canon
    | with_reducible apply Dev.sccClose_canon
    | with_reducible apply Dev.sccAck_canon
    | with_reducible apply canon_ite
    | (extract_lets +onlyGivenNames e; refine canon_have (d := e) ?_ ?_; unfold e; rotate_left; intro; clear_value e; rotate_right)
    | (extract_lets +onlyGivenNames e; clear_value e))

theorem Dev.sccCmdWrite_canon {d : Dev} (v : Word) (hd : d.Canon) : Dev.Canon (Dev.sccCmdWrite d v) := by
  unfold Dev.sccCmdWrite
  repeat' (first
    | with_reducible assumption
    | with_reducible apply Dev.sccCmd_canon)

theorem Dev.noTest_canon {d : Dev} (hd : d.Canon) : Dev.Canon (Dev.noTest d) := by
  unfold Dev.noTest
  repeat' (first
    | with_reducible assumption
    | with_reducible apply Dev.setBit_canon)

theorem Dev.sccTestWrite_canon {d : Dev} (v : Word) (hd : d.Canon) : Dev.Canon (Dev.sccTestWrite d v) := by
  unfold Dev.sccTestWrite
  repeat' (first
    | with_reducible assumption
    | with_reducible apply Dev.plainWrite_canon
    | with_reducible apply Dev.noTest_canon)

theorem Dev.sccDiagWrite_canon {d : Dev} (v : Word) (hd : d.Canon) : Dev.Canon (Dev.sccDiagWrite d v) := by
  unfold Dev.sccDiagWrite
  repeat' (first
    | with_reducible assumption
    | with_reducible apply Dev.plainWrite_canon
    | with_reducible apply Dev.srcCond_canon
    | with_reducible apply canon_ite
    | (extract_lets +onlyGivenNames e; refine canon_have (d := e) ?_ ?_; unfold e; rotate_left; intro; clear_value e; rotate_right)
    | (extract_lets +onlyGivenNames e; clear_value e))

theorem Dev.sccFail_canon {d : Dev} (b : Nat) (hd : d.Canon) : Dev.Canon (Dev.sccFail d b) := by
  unfold Dev.sccFail
  repeat' (first
    | with_reducible assumption
    | with_reducible apply Dev.sccFault_canon
    | with_reducible apply Dev.srcCond_canon)

theorem Dev.sccNote_canon {d : Dev} (b : Nat) (hd : d.Canon) : Dev.Canon (Dev.sccNote d b) := by
  unfold Dev.sccNote
  repeat' (first
    | with_reducible assumption
    | with_reducible apply Dev.sccRecord_canon
    | (unfold Dev.Canon; dsimp only; with_reducible refine canon_fold ?_)
    | (extract_lets +onlyGivenNames e; refine canon_have (d := e) ?_ ?_; unfold e; rotate_left; intro; clear_value e; rotate_right)
    | (extract_lets +onlyGivenNames e; clear_value e))

theorem Dev.brkExpiry_canon {d : Dev} (hd : d.Canon) : Dev.Canon (Dev.brkExpiry d) := by
  unfold Dev.brkExpiry
  repeat' (first
    | with_reducible assumption
    | with_reducible apply Dev.setBit_canon
    | with_reducible apply Dev.stop_canon
    | with_reducible apply Dev.openReq_canon
    | with_reducible apply canon_ite)

theorem Dev.pickExpiry_canon {d : Dev} (k2 : Bool) (hd : d.Canon) : Dev.Canon (Dev.pickExpiry d k2) := by
  unfold Dev.pickExpiry
  repeat' (first
    | with_reducible assumption
    | with_reducible apply Dev.stop_canon
    | with_reducible apply canon_ite
    | (unfold Dev.Canon; dsimp only; with_reducible refine canon_fold ?_)
    | (extract_lets +onlyGivenNames e; refine canon_have (d := e) ?_ ?_; unfold e; rotate_left; intro; clear_value e; rotate_right)
    | (extract_lets +onlyGivenNames e; clear_value e))

theorem Dev.prechargeDone_canon {d : Dev} (hd : d.Canon) : Dev.Canon (Dev.prechargeDone d) := by
  unfold Dev.prechargeDone
  repeat' (first
    | with_reducible assumption
    | with_reducible apply Dev.sccSet_canon
    | with_reducible apply Dev.k1On_canon
    | with_reducible apply canon_ite)

theorem Dev.prechargeTimeout_canon {d : Dev} (hd : d.Canon) : Dev.Canon (Dev.prechargeTimeout d) := by
  unfold Dev.prechargeTimeout
  repeat' (first
    | with_reducible assumption
    | with_reducible apply Dev.sccSet_canon
    | with_reducible apply Dev.k1On_canon
    | with_reducible apply Dev.k2Off_canon
    | with_reducible apply Dev.sccNote_canon
    | with_reducible apply canon_ite)

theorem Dev.closeConfirm_canon {d : Dev} (hd : d.Canon) : Dev.Canon (Dev.closeConfirm d) := by
  unfold Dev.closeConfirm
  repeat' (first
    | with_reducible assumption
    | with_reducible apply Dev.sccSet_canon
    | with_reducible apply Dev.k2Off_canon
    | with_reducible apply Dev.srcOchre_canon
    | with_reducible apply canon_ite
    | (unfold Dev.Canon; dsimp only; with_reducible refine canon_fold ?_)
    | (extract_lets +onlyGivenNames e; refine canon_have (d := e) ?_ ?_; unfold e; rotate_left; intro; clear_value e; rotate_right)
    | (extract_lets +onlyGivenNames e; clear_value e))

theorem Dev.closeTimeout_canon {d : Dev} (hd : d.Canon) : Dev.Canon (Dev.closeTimeout d) := by
  unfold Dev.closeTimeout
  repeat' (first
    | with_reducible assumption
    | with_reducible apply Dev.openReq_canon
    | with_reducible apply Dev.sccNote_canon
    | with_reducible apply canon_ite)

theorem Dev.openConfirm_canon {d : Dev} (hd : d.Canon) : Dev.Canon (Dev.openConfirm d) := by
  unfold Dev.openConfirm
  repeat' (first
    | with_reducible assumption
    | with_reducible apply Dev.sccSet_canon
    | with_reducible apply Dev.dropMeasure_canon
    | with_reducible apply canon_ite)

theorem Dev.dropTimeout_canon {d : Dev} (hd : d.Canon) : Dev.Canon (Dev.dropTimeout d) := by
  unfold Dev.dropTimeout
  repeat' (first
    | with_reducible assumption
    | with_reducible apply Dev.mirrorEnd_canon
    | with_reducible apply Dev.dropMeasure_canon
    | with_reducible apply Dev.sccFail_canon
    | with_reducible apply canon_ite
    | (extract_lets +onlyGivenNames e; refine canon_have (d := e) ?_ ?_; unfold e; rotate_left; intro; clear_value e; rotate_right)
    | (extract_lets +onlyGivenNames e; clear_value e))

theorem Dev.powerRefresh_canon {d : Dev} (hd : d.Canon) : Dev.Canon (Dev.powerRefresh d) := by
  unfold Dev.powerRefresh
  repeat' (first
    | with_reducible assumption
    | with_reducible apply Dev.start_canon
    | with_reducible apply Dev.stop_canon
    | with_reducible apply canon_ite
    | (unfold Dev.Canon; dsimp only; with_reducible refine canon_fold ?_)
    | (extract_lets +onlyGivenNames e; refine canon_have (d := e) ?_ ?_; unfold e; rotate_left; intro; clear_value e; rotate_right)
    | (extract_lets +onlyGivenNames e; clear_value e))

theorem Dev.setKillOut_canon {d : Dev} (on : Bool) (hd : d.Canon) : Dev.Canon (Dev.setKillOut d on) := by
  unfold Dev.setKillOut
  repeat' (first
    | with_reducible assumption
    | with_reducible apply Dev.setBit_canon
    | with_reducible apply Dev.powerRefresh_canon
    | (unfold Dev.Canon; dsimp only; with_reducible refine canon_fold ?_)
    | (extract_lets +onlyGivenNames e; refine canon_have (d := e) ?_ ?_; unfold e; rotate_left; intro; clear_value e; rotate_right)
    | (extract_lets +onlyGivenNames e; clear_value e))

theorem Dev.killAssert_canon {d : Dev} (hd : d.Canon) : Dev.Canon (Dev.killAssert d) := by
  unfold Dev.killAssert
  repeat' (first
    | with_reducible assumption
    | with_reducible apply Dev.start_canon
    | with_reducible apply Dev.hw_canon
    | with_reducible apply Dev.setKillOut_canon
    | with_reducible apply canon_ite
    | (unfold Dev.Canon; dsimp only; with_reducible refine canon_fold ?_)
    | (extract_lets +onlyGivenNames e; refine canon_have (d := e) ?_ ?_; unfold e; rotate_left; intro; clear_value e; rotate_right)
    | (extract_lets +onlyGivenNames e; clear_value e))

theorem Dev.switchTest_canon {d : Dev} (pulse : Option (Bool × Bool)) (rb : BitVec 6) (hd : d.Canon) : Dev.Canon (Dev.switchTest d pulse rb) := by
  unfold Dev.switchTest
  repeat' (first
    | with_reducible assumption
    | with_reducible apply Dev.start_canon
    | with_reducible apply Dev.sccFail_canon
    | with_reducible apply canon_ite
    | (extract_lets +onlyGivenNames e; refine canon_have (d := e) ?_ ?_; unfold e; rotate_left; intro; clear_value e; rotate_right)
    | (extract_lets +onlyGivenNames e; clear_value e)
    | split
    | with_reducible refine canon_snd ?_ (by with_reducible assumption)
    | with_reducible refine canon_fst ?_ (by with_reducible assumption)
    | dsimp only)

theorem Dev.coilMeasure_canon {d : Dev} (k2 : Bool) (ma : Nat) (hd : d.Canon) : Dev.Canon (Dev.coilMeasure d k2 ma) := by
  unfold Dev.coilMeasure
  repeat' (first
    | with_reducible assumption
    | with_reducible apply Dev.setFld_canon
    | with_reducible apply Dev.sccFail_canon
    | with_reducible apply canon_ite
    | (extract_lets +onlyGivenNames e; refine canon_have (d := e) ?_ ?_; unfold e; rotate_left; intro; clear_value e; rotate_right)
    | (extract_lets +onlyGivenNames e; clear_value e))

theorem Dev.discWatch_canon {d : Dev} (hd : d.Canon) : Dev.Canon (Dev.discWatch d) := by
  unfold Dev.discWatch
  repeat' (first
    | intro _
    | with_reducible assumption
    | with_reducible apply Dev.start_canon
    | with_reducible apply Dev.stop_canon
    | with_reducible apply canon_ite
    | with_reducible apply canon_foldl
    | dsimp only)

theorem Dev.fbDiscrepancy_canon {d : Dev} (hd : d.Canon) : Dev.Canon (Dev.fbDiscrepancy d) := by
  unfold Dev.fbDiscrepancy
  repeat' (first
    | with_reducible assumption
    | with_reducible apply Dev.stop_canon
    | with_reducible apply Dev.sccFail_canon
    | with_reducible apply canon_ite
    | (extract_lets +onlyGivenNames e; refine canon_have (d := e) ?_ ?_; unfold e; rotate_left; intro; clear_value e; rotate_right)
    | (extract_lets +onlyGivenNames e; clear_value e))

theorem Dev.diagResume_canon {d : Dev} (hd : d.Canon) : Dev.Canon (Dev.diagResume d) := by
  unfold Dev.diagResume
  repeat' (first
    | intro _
    | with_reducible assumption
    | with_reducible apply Dev.start_canon
    | with_reducible apply Dev.stop_canon
    | with_reducible apply canon_ite
    | with_reducible apply canon_foldl
    | (unfold Dev.Canon; dsimp only; with_reducible refine canon_fold ?_)
    | (extract_lets +onlyGivenNames e; refine canon_have (d := e) ?_ ?_; unfold e; rotate_left; intro; clear_value e; rotate_right)
    | (extract_lets +onlyGivenNames e; clear_value e)
    | dsimp only)

end Sys2Proof.Machine
end

