-- ==== Sys2Proof/Laws/CanonMotion.lean ====
section
/-! SUPPORT. Every operation of Sys2Proof/Machine/Motion.lean keeps the canonical form. -/

set_option Elab.async false
set_option linter.all false

namespace Sys2Proof.Machine

theorem Dev.setAxis_canon {d : Dev} (a : Nat) (x : AxisSt) (hd : d.Canon) : Dev.Canon (Dev.setAxis d a x) := by
  unfold Dev.setAxis
  repeat' (first
    | with_reducible assumption
    | with_reducible apply canon_ite
    | (unfold Dev.Canon; dsimp only; with_reducible refine canon_fold ?_)
    | (extract_lets +onlyGivenNames e; refine canon_have (d := e) ?_ ?_; unfold e; rotate_left; intro; clear_value e; rotate_right)
    | (extract_lets +onlyGivenNames e; clear_value e))

theorem Dev.axSet_canon {d : Dev} (a st : Nat) (hd : d.Canon) : Dev.Canon (Dev.axSet d a st) := by
  unfold Dev.axSet
  repeat' (first
    | with_reducible assumption
    | with_reducible apply Dev.setFld_canon
    | with_reducible apply Dev.setBit_canon)

theorem Dev.axBusy_canon {d : Dev} (a : Nat) (on : Bool) (hd : d.Canon) : Dev.Canon (Dev.axBusy d a on) := by
  unfold Dev.axBusy
  repeat' (first
    | with_reducible assumption
    | with_reducible apply Dev.setBit_canon)

theorem Dev.axHalt_canon {d : Dev} (a : Nat) (hd : d.Canon) : Dev.Canon (Dev.axHalt d a) := by
  unfold Dev.axHalt
  repeat' (first
    | with_reducible assumption
    | with_reducible apply Dev.wr_canon
    | with_reducible apply Dev.setAxis_canon
    | with_reducible apply Dev.axBusy_canon
    | (unfold Dev.Canon; dsimp only; with_reducible refine canon_fold ?_)
    | (extract_lets +onlyGivenNames e; refine canon_have (d := e) ?_ ?_; unfold e; rotate_left; intro; clear_value e; rotate_right)
    | (extract_lets +onlyGivenNames e; clear_value e))

theorem Dev.axFault_canon {d : Dev} (a cause : Nat) (positive : Bool) (hd : d.Canon) : Dev.Canon (Dev.axFault d a cause positive) := by
  unfold Dev.axFault
  repeat' (first
    | with_reducible assumption
    | with_reducible apply Dev.setFld_canon
    | with_reducible apply Dev.hw_canon
    | with_reducible apply Dev.setAxis_canon
    | with_reducible apply Dev.axSet_canon
    | with_reducible apply Dev.axHalt_canon
    | (unfold Dev.Canon; dsimp only; with_reducible refine canon_fold ?_)
    | (extract_lets +onlyGivenNames e; refine canon_have (d := e) ?_ ?_; unfold e; rotate_left; intro; clear_value e; rotate_right)
    | (extract_lets +onlyGivenNames e; clear_value e))

theorem Dev.limHit_canon {d : Dev} (a : Nat) (hd : d.Canon) : Dev.Canon (Dev.limHit d a) := by
  unfold Dev.limHit
  repeat' (first
    | with_reducible assumption
    | with_reducible apply Dev.flag_canon
    | with_reducible apply Dev.hw_canon
    | with_reducible apply Dev.axHalt_canon)

theorem Dev.homeLimit_canon {d : Dev} (a : Nat) (hd : d.Canon) : Dev.Canon (Dev.homeLimit d a) := by
  unfold Dev.homeLimit
  repeat' (first
    | with_reducible assumption
    | with_reducible apply Dev.setAxis_canon
    | with_reducible apply Dev.axBusy_canon
    | with_reducible apply Dev.axFault_canon
    | with_reducible apply canon_ite
    | (unfold Dev.Canon; dsimp only; with_reducible refine canon_fold ?_)
    | (extract_lets +onlyGivenNames e; refine canon_have (d := e) ?_ ?_; unfold e; rotate_left; intro; clear_value e; rotate_right)
    | (extract_lets +onlyGivenNames e; clear_value e)
    | split
    | with_reducible refine canon_snd ?_ (by with_reducible assumption)
    | with_reducible refine canon_fst ?_ (by with_reducible assumption)
    | dsimp only)

theorem Dev.homeSides_canon {d : Dev} (a : Nat) (hd : d.Canon) : Dev.Canon (Dev.homeSides d a) := by
  unfold Dev.homeSides
  repeat' (first
    | with_reducible assumption
    | with_reducible apply Dev.axFault_canon
    | with_reducible apply canon_ite
    | split
    | with_reducible refine canon_snd ?_ (by with_reducible assumption)
    | with_reducible refine canon_fst ?_ (by with_reducible assumption)
    | dsimp only)

theorem Dev.limitCheck_canon {d : Dev} (a : Nat) (hd : d.Canon) : Dev.Canon (Dev.limitCheck d a) := by
  unfold Dev.limitCheck
  repeat' (first
    | with_reducible assumption
    | with_reducible apply Dev.setAxis_canon
    | with_reducible apply Dev.limHit_canon
    | with_reducible apply Dev.homeLimit_canon
    | with_reducible apply Dev.homeSides_canon
    | with_reducible apply canon_ite
    | (unfold Dev.Canon; dsimp only; with_reducible refine canon_fold ?_)
    | (extract_lets +onlyGivenNames e; refine canon_have (d := e) ?_ ?_; unfold e; rotate_left; intro; clear_value e; rotate_right)
    | (extract_lets +onlyGivenNames e; clear_value e)
    | split
    | with_reducible refine canon_snd ?_ (by with_reducible assumption)
    | with_reducible refine canon_fst ?_ (by with_reducible assumption)
    | dsimp only)

theorem Dev.limitEdge_canon {d : Dev} (a : Nat) (positive : Bool) (hd : d.Canon) : Dev.Canon (Dev.limitEdge d a positive) := by
  unfold Dev.limitEdge
  repeat' (first
    | with_reducible assumption
    | with_reducible apply Dev.setAxis_canon
    | with_reducible apply Dev.axFault_canon
    | with_reducible apply canon_ite
    | (unfold Dev.Canon; dsimp only; with_reducible refine canon_fold ?_)
    | (extract_lets +onlyGivenNames e; refine canon_have (d := e) ?_ ?_; unfold e; rotate_left; intro; clear_value e; rotate_right)
    | (extract_lets +onlyGivenNames e; clear_value e)
    | split
    | with_reducible refine canon_snd ?_ (by with_reducible assumption)
    | with_reducible refine canon_fst ?_ (by with_reducible assumption)
    | dsimp only)

theorem Dev.limitInput_canon {d : Dev} (n : Nat) (hd : d.Canon) : Dev.Canon (Dev.limitInput d n) := by
  unfold Dev.limitInput
  repeat' (first
    | intro _
    | with_reducible assumption
    | with_reducible apply Dev.limitEdge_canon
    | with_reducible apply canon_ite
    | with_reducible apply canon_foldl
    | (extract_lets +onlyGivenNames e; refine canon_have (d := e) ?_ ?_; unfold e; rotate_left; intro; clear_value e; rotate_right)
    | (extract_lets +onlyGivenNames e; clear_value e)
    | dsimp only)

theorem Dev.homeStart_canon {d : Dev} (a : Nat) (hd : d.Canon) : Dev.Canon (Dev.homeStart d a) := by
  unfold Dev.homeStart
  repeat' (first
    | with_reducible assumption
    | with_reducible apply Dev.setFld_canon
    | with_reducible apply Dev.flag_canon
    | with_reducible apply Dev.hw_canon
    | with_reducible apply Dev.setAxis_canon
    | with_reducible apply Dev.axSet_canon
    | with_reducible apply Dev.axBusy_canon
    | with_reducible apply Dev.limitCheck_canon
    | with_reducible apply canon_ite
    | (unfold Dev.Canon; dsimp only; with_reducible refine canon_fold ?_)
    | (extract_lets +onlyGivenNames e; refine canon_have (d := e) ?_ ?_; unfold e; rotate_left; intro; clear_value e; rotate_right)
    | (extract_lets +onlyGivenNames e; clear_value e))

theorem Dev.homeList_canon {d : Dev} (y0 : List Nat) (hd : d.Canon) : Dev.Canon (Dev.homeList d y0) := by
  induction y0 generalizing d with
  | nil =>
    unfold Dev.homeList
    repeat' (first
      | with_reducible assumption
      | with_reducible apply Dev.homeStart_canon
      | with_reducible apply canon_ite
      | (unfold Dev.Canon; dsimp only; with_reducible refine canon_fold ?_)
      | (extract_lets +onlyGivenNames e; refine canon_have (d := e) ?_ ?_; unfold e; rotate_left; intro; clear_value e; rotate_right)
      | (extract_lets +onlyGivenNames e; clear_value e)
      | split
      | with_reducible refine canon_snd ?_ (by with_reducible assumption)
      | with_reducible refine canon_fst ?_ (by with_reducible assumption))
  | cons a t ih =>
    unfold Dev.homeList
    repeat' (first
      | with_reducible assumption
      | with_reducible apply Dev.homeStart_canon
      | with_reducible apply ih
      | with_reducible apply canon_ite
      | (unfold Dev.Canon; dsimp only; with_reducible refine canon_fold ?_)
      | (extract_lets +onlyGivenNames e; refine canon_have (d := e) ?_ ?_; unfold e; rotate_left; intro; clear_value e; rotate_right)
      | (extract_lets +onlyGivenNames e; clear_value e)
      | split
      | with_reducible refine canon_snd ?_ (by with_reducible assumption)
      | with_reducible refine canon_fst ?_ (by with_reducible assumption))

theorem Dev.homeNext_canon {d : Dev} (hd : d.Canon) : Dev.Canon (Dev.homeNext d) := by
  unfold Dev.homeNext
  repeat' (first
    | intro _
    | with_reducible assumption
    | with_reducible apply Dev.homeList_canon
    | with_reducible apply canon_ite
    | (unfold Dev.Canon; dsimp only; with_reducible refine canon_fold ?_)
    | (extract_lets +onlyGivenNames e; refine canon_have (d := e) ?_ ?_; unfold e; rotate_left; intro; clear_value e; rotate_right)
    | (extract_lets +onlyGivenNames e; clear_value e)
    | dsimp only)

theorem Dev.homeEdge_canon {d : Dev} (a : Nat) (hd : d.Canon) : Dev.Canon (Dev.homeEdge d a) := by
  unfold Dev.homeEdge
  repeat' (first
    | with_reducible assumption
    | with_reducible apply Dev.wr_canon
    | with_reducible apply Dev.hw_canon
    | with_reducible apply Dev.setAxis_canon
    | with_reducible apply Dev.axSet_canon
    | with_reducible apply Dev.axHalt_canon
    | with_reducible apply Dev.axFault_canon
    | with_reducible apply canon_ite
    | (unfold Dev.Canon; dsimp only; with_reducible refine canon_fold ?_)
    | (extract_lets +onlyGivenNames e; refine canon_have (d := e) ?_ ?_; unfold e; rotate_left; intro; clear_value e; rotate_right)
    | (extract_lets +onlyGivenNames e; clear_value e)
    | split
    | with_reducible refine canon_snd ?_ (by with_reducible assumption)
    | with_reducible refine canon_fst ?_ (by with_reducible assumption)
    | dsimp only)

theorem Dev.homeInput_canon {d : Dev} (n : Nat) (hd : d.Canon) : Dev.Canon (Dev.homeInput d n) := by
  unfold Dev.homeInput
  repeat' (first
    | intro _
    | with_reducible assumption
    | with_reducible apply Dev.homeEdge_canon
    | with_reducible apply canon_ite
    | with_reducible apply canon_foldl
    | dsimp only)

theorem Dev.dirTurn_canon {d : Dev} (a : Nat) (hd : d.Canon) : Dev.Canon (Dev.dirTurn d a) := by
  unfold Dev.dirTurn
  repeat' (first
    | with_reducible assumption
    | with_reducible apply Dev.setAxis_canon
    | with_reducible apply canon_ite
    | (unfold Dev.Canon; dsimp only; with_reducible refine canon_fold ?_)
    | (extract_lets +onlyGivenNames e; refine canon_have (d := e) ?_ ?_; unfold e; rotate_left; intro; clear_value e; rotate_right)
    | (extract_lets +onlyGivenNames e; clear_value e))

theorem Dev.stepRise_canon {d : Dev} (a k : Nat) (hd : d.Canon) : Dev.Canon (Dev.stepRise d a k) := by
  unfold Dev.stepRise
  repeat' (first
    | with_reducible assumption
    | with_reducible apply Dev.setAxis_canon
    | with_reducible apply canon_ite
    | (unfold Dev.Canon; dsimp only; with_reducible refine canon_fold ?_)
    | (extract_lets +onlyGivenNames e; refine canon_have (d := e) ?_ ?_; unfold e; rotate_left; intro; clear_value e; rotate_right)
    | (extract_lets +onlyGivenNames e; clear_value e))

theorem Dev.axOver_canon {d : Dev} (a : Nat) (hd : d.Canon) : Dev.Canon (Dev.axOver d a) := by
  unfold Dev.axOver
  repeat' (first
    | with_reducible assumption
    | with_reducible apply Dev.flag_canon
    | with_reducible apply Dev.hw_canon
    | with_reducible apply Dev.axHalt_canon
    | with_reducible apply Dev.axFault_canon
    | with_reducible apply canon_ite
    | (extract_lets +onlyGivenNames e; refine canon_have (d := e) ?_ ?_; unfold e; rotate_left; intro; clear_value e; rotate_right)
    | (extract_lets +onlyGivenNames e; clear_value e)
    | split
    | with_reducible refine canon_snd ?_ (by with_reducible assumption)
    | with_reducible refine canon_fst ?_ (by with_reducible assumption)
    | dsimp only)

theorem Dev.axMove_canon {d : Dev} (a : Nat) (n : Int) (hd : d.Canon) : Dev.Canon (Dev.axMove d a n) := by
  unfold Dev.axMove
  repeat' (first
    | with_reducible assumption
    | with_reducible apply Dev.wr_canon
    | with_reducible apply Dev.setAxis_canon
    | with_reducible apply Dev.axOver_canon
    | with_reducible apply canon_ite
    | (unfold Dev.Canon; dsimp only; with_reducible refine canon_fold ?_)
    | (extract_lets +onlyGivenNames e; refine canon_have (d := e) ?_ ?_; unfold e; rotate_left; intro; clear_value e; rotate_right)
    | (extract_lets +onlyGivenNames e; clear_value e)
    | split
    | with_reducible refine canon_snd ?_ (by with_reducible assumption)
    | with_reducible refine canon_fst ?_ (by with_reducible assumption)
    | dsimp only)

theorem Dev.axStood_canon {d : Dev} (a : Nat) (hd : d.Canon) : Dev.Canon (Dev.axStood d a) := by
  unfold Dev.axStood
  repeat' (first
    | with_reducible assumption
    | with_reducible apply Dev.setAxis_canon
    | with_reducible apply Dev.axHalt_canon
    | with_reducible apply canon_ite
    | (unfold Dev.Canon; dsimp only; with_reducible refine canon_fold ?_)
    | (extract_lets +onlyGivenNames e; refine canon_have (d := e) ?_ ?_; unfold e; rotate_left; intro; clear_value e; rotate_right)
    | (extract_lets +onlyGivenNames e; clear_value e)
    | split
    | with_reducible refine canon_snd ?_ (by with_reducible assumption)
    | with_reducible refine canon_fst ?_ (by with_reducible assumption)
    | dsimp only)

theorem Dev.actMissed_canon {d : Dev} (a : Nat) (hd : d.Canon) : Dev.Canon (Dev.actMissed d a) := by
  unfold Dev.actMissed
  repeat' (first
    | with_reducible assumption
    | with_reducible apply Dev.setAxis_canon
    | with_reducible apply Dev.axFault_canon
    | with_reducible apply canon_ite
    | (unfold Dev.Canon; dsimp only; with_reducible refine canon_fold ?_)
    | (extract_lets +onlyGivenNames e; refine canon_have (d := e) ?_ ?_; unfold e; rotate_left; intro; clear_value e; rotate_right)
    | (extract_lets +onlyGivenNames e; clear_value e))

theorem Dev.actFrame_canon {d : Dev} (a : Nat) (hd : d.Canon) : Dev.Canon (Dev.actFrame d a) := by
  unfold Dev.actFrame
  repeat' (first
    | with_reducible assumption
    | with_reducible apply Dev.canDisarm_canon
    | with_reducible apply Dev.canPost_canon
    | with_reducible apply Dev.setAxis_canon
    | with_reducible apply Dev.actMissed_canon
    | with_reducible apply canon_ite
    | (unfold Dev.Canon; dsimp only; with_reducible refine canon_fold ?_)
    | (extract_lets +onlyGivenNames e; refine canon_have (d := e) ?_ ?_; unfold e; rotate_left; intro; clear_value e; rotate_right)
    | (extract_lets +onlyGivenNames e; clear_value e))

theorem Dev.stepReload_canon {d : Dev} (a t : Nat) (hd : d.Canon) : Dev.Canon (Dev.stepReload d a t) := by
  unfold Dev.stepReload
  repeat' (first
    | with_reducible assumption
    | with_reducible apply Dev.setAxis_canon
    | (unfold Dev.Canon; dsimp only; with_reducible refine canon_fold ?_)
    | (extract_lets +onlyGivenNames e; refine canon_have (d := e) ?_ ?_; unfold e; rotate_left; intro; clear_value e; rotate_right)
    | (extract_lets +onlyGivenNames e; clear_value e)
    | split
    | with_reducible refine canon_snd ?_ (by with_reducible assumption)
    | with_reducible refine canon_fst ?_ (by with_reducible assumption)
    | dsimp only)

theorem Dev.stepTimer_canon {d : Dev} (a : Nat) (hd : d.Canon) : Dev.Canon (Dev.stepTimer d a) := by
  unfold Dev.stepTimer
  repeat' (first
    | with_reducible assumption
    | with_reducible apply Dev.setFld_canon
    | with_reducible apply Dev.setAxis_canon
    | with_reducible apply Dev.stepReload_canon
    | with_reducible apply canon_ite
    | (unfold Dev.Canon; dsimp only; with_reducible refine canon_fold ?_)
    | (extract_lets +onlyGivenNames e; refine canon_have (d := e) ?_ ?_; unfold e; rotate_left; intro; clear_value e; rotate_right)
    | (extract_lets +onlyGivenNames e; clear_value e))

theorem Dev.servoMove_canon {d : Dev} (a : Nat) (hd : d.Canon) : Dev.Canon (Dev.servoMove d a) := by
  unfold Dev.servoMove
  repeat' (first
    | with_reducible assumption
    | with_reducible apply Dev.setAxis_canon
    | with_reducible apply Dev.axMove_canon
    | with_reducible apply Dev.axStood_canon
    | with_reducible apply canon_ite
    | (unfold Dev.Canon; dsimp only; with_reducible refine canon_fold ?_)
    | (extract_lets +onlyGivenNames e; refine canon_have (d := e) ?_ ?_; unfold e; rotate_left; intro; clear_value e; rotate_right)
    | (extract_lets +onlyGivenNames e; clear_value e)
    | split
    | with_reducible refine canon_snd ?_ (by with_reducible assumption)
    | with_reducible refine canon_fst ?_ (by with_reducible assumption)
    | dsimp only)

theorem Dev.servoSpeed_canon {d : Dev} (a : Nat) (hd : d.Canon) : Dev.Canon (Dev.servoSpeed d a) := by
  unfold Dev.servoSpeed
  repeat' (first
    | with_reducible assumption
    | with_reducible apply Dev.setAxis_canon
    | (unfold Dev.Canon; dsimp only; with_reducible refine canon_fold ?_)
    | (extract_lets +onlyGivenNames e; refine canon_have (d := e) ?_ ?_; unfold e; rotate_left; intro; clear_value e; rotate_right)
    | (extract_lets +onlyGivenNames e; clear_value e))

theorem Dev.servoAxis_canon {d : Dev} (a : Nat) (hd : d.Canon) : Dev.Canon (Dev.servoAxis d a) := by
  unfold Dev.servoAxis
  repeat' (first
    | with_reducible assumption
    | with_reducible apply Dev.limitCheck_canon
    | with_reducible apply Dev.dirTurn_canon
    | with_reducible apply Dev.axStood_canon
    | with_reducible apply Dev.actFrame_canon
    | with_reducible apply Dev.stepTimer_canon
    | with_reducible apply Dev.servoMove_canon
    | with_reducible apply Dev.servoSpeed_canon
    | with_reducible apply canon_ite
    | (extract_lets +onlyGivenNames e; refine canon_have (d := e) ?_ ?_; unfold e; rotate_left; intro; clear_value e; rotate_right)
    | (extract_lets +onlyGivenNames e; clear_value e))

theorem Dev.servo_canon {d : Dev} (hd : d.Canon) : Dev.Canon (Dev.servo d) := by
  unfold Dev.servo
  repeat' (first
    | intro _
    | with_reducible assumption
    | with_reducible apply Dev.start_canon
    | with_reducible apply Dev.homeNext_canon
    | with_reducible apply Dev.servoAxis_canon
    | with_reducible apply canon_ite
    | with_reducible apply canon_foldl
    | (extract_lets +onlyGivenNames e; refine canon_have (d := e) ?_ ?_; unfold e; rotate_left; intro; clear_value e; rotate_right)
    | (extract_lets +onlyGivenNames e; clear_value e)
    | dsimp only)

theorem Dev.stepMove_canon {d : Dev} (a k : Nat) (n : Int) (hd : d.Canon) : Dev.Canon (Dev.stepMove d a k n) := by
  unfold Dev.stepMove
  repeat' (first
    | with_reducible assumption
    | with_reducible apply Dev.stepRise_canon
    | with_reducible apply Dev.axMove_canon
    | with_reducible apply canon_ite
    | (extract_lets +onlyGivenNames e; refine canon_have (d := e) ?_ ?_; unfold e; rotate_left; intro; clear_value e; rotate_right)
    | (extract_lets +onlyGivenNames e; clear_value e))

theorem Dev.stepPulse_canon {d : Dev} (a : Nat) (hd : d.Canon) : Dev.Canon (Dev.stepPulse d a) := by
  unfold Dev.stepPulse
  repeat' (first
    | with_reducible assumption
    | with_reducible apply Dev.setFld_canon
    | with_reducible apply Dev.limitCheck_canon
    | with_reducible apply Dev.homeNext_canon
    | with_reducible apply Dev.axOver_canon
    | with_reducible apply Dev.stepReload_canon
    | with_reducible apply Dev.stepMove_canon
    | with_reducible apply canon_ite
    | (extract_lets +onlyGivenNames e; refine canon_have (d := e) ?_ ?_; unfold e; rotate_left; intro; clear_value e; rotate_right)
    | (extract_lets +onlyGivenNames e; clear_value e)
    | split
    | with_reducible refine canon_snd ?_ (by with_reducible assumption)
    | with_reducible refine canon_fst ?_ (by with_reducible assumption)
    | dsimp only)

theorem Dev.axTarget_canon {d : Dev} (a : Nat) (t : Int) (hd : d.Canon) : Dev.Canon (Dev.axTarget d a t) := by
  unfold Dev.axTarget
  repeat' (first
    | with_reducible assumption
    | with_reducible apply Dev.wr_canon
    | with_reducible apply Dev.setBit_canon
    | with_reducible apply Dev.axBusy_canon
    | with_reducible apply Dev.limitCheck_canon
    | with_reducible apply canon_ite
    | (extract_lets +onlyGivenNames e; refine canon_have (d := e) ?_ ?_; unfold e; rotate_left; intro; clear_value e; rotate_right)
    | (extract_lets +onlyGivenNames e; clear_value e)
    | split
    | with_reducible refine canon_snd ?_ (by with_reducible assumption)
    | with_reducible refine canon_fst ?_ (by with_reducible assumption)
    | dsimp only)

theorem Dev.targetWrite_canon {d : Dev} (src : Writer) (a : Nat) (v : Word) (hd : d.Canon) : Dev.Canon (Dev.targetWrite d src a v) := by
  unfold Dev.targetWrite
  repeat' (first
    | with_reducible assumption
    | with_reducible apply Dev.axTarget_canon
    | with_reducible apply canon_ite)

theorem Dev.axStop_canon {d : Dev} (a : Nat) (hd : d.Canon) : Dev.Canon (Dev.axStop d a) := by
  unfold Dev.axStop
  repeat' (first
    | with_reducible assumption
    | with_reducible apply Dev.setAxis_canon
    | with_reducible apply Dev.axSet_canon
    | with_reducible apply Dev.homeNext_canon
    | with_reducible apply Dev.axStood_canon
    | with_reducible apply canon_ite
    | (unfold Dev.Canon; dsimp only; with_reducible refine canon_fold ?_)
    | (extract_lets +onlyGivenNames e; refine canon_have (d := e) ?_ ?_; unfold e; rotate_left; intro; clear_value e; rotate_right)
    | (extract_lets +onlyGivenNames e; clear_value e))

theorem Dev.axClear_canon {d : Dev} (a : Nat) (hd : d.Canon) : Dev.Canon (Dev.axClear d a) := by
  unfold Dev.axClear
  repeat' (first
    | with_reducible assumption
    | with_reducible apply Dev.setFld_canon
    | with_reducible apply Dev.axSet_canon
    | with_reducible apply canon_ite)

theorem Dev.axDeclare_canon {d : Dev} (a : Nat) (hd : d.Canon) : Dev.Canon (Dev.axDeclare d a) := by
  unfold Dev.axDeclare
  repeat' (first
    | with_reducible assumption
    | with_reducible apply Dev.wr_canon
    | with_reducible apply Dev.setAxis_canon
    | with_reducible apply Dev.axSet_canon
    | with_reducible apply Dev.axHalt_canon
    | with_reducible apply canon_ite
    | (unfold Dev.Canon; dsimp only; with_reducible refine canon_fold ?_)
    | (extract_lets +onlyGivenNames e; refine canon_have (d := e) ?_ ?_; unfold e; rotate_left; intro; clear_value e; rotate_right)
    | (extract_lets +onlyGivenNames e; clear_value e))

theorem Dev.motCmd_canon {d : Dev} (a : Nat) (v : Word) (hd : d.Canon) : Dev.Canon (Dev.motCmd d a v) := by
  unfold Dev.motCmd
  repeat' (first
    | with_reducible assumption
    | with_reducible apply Dev.homeStart_canon
    | with_reducible apply Dev.axStop_canon
    | with_reducible apply Dev.axClear_canon
    | with_reducible apply Dev.axDeclare_canon
    | with_reducible apply canon_ite
    | (extract_lets +onlyGivenNames e; refine canon_have (d := e) ?_ ?_; unfold e; rotate_left; intro; clear_value e; rotate_right)
    | (extract_lets +onlyGivenNames e; clear_value e))

theorem Dev.motCfg_canon {d : Dev} (a : Nat) (v : Word) (hd : d.Canon) : Dev.Canon (Dev.motCfg d a v) := by
  unfold Dev.motCfg
  repeat' (first
    | with_reducible assumption
    | with_reducible apply Dev.plainWrite_canon
    | with_reducible apply Dev.motObjects_canon
    | with_reducible apply Dev.setAxis_canon
    | with_reducible apply Dev.axSet_canon
    | with_reducible apply Dev.axHalt_canon
    | with_reducible apply Dev.homeNext_canon
    | with_reducible apply canon_ite
    | (unfold Dev.Canon; dsimp only; with_reducible refine canon_fold ?_)
    | (extract_lets +onlyGivenNames e; refine canon_have (d := e) ?_ ?_; unfold e; rotate_left; intro; clear_value e; rotate_right)
    | (extract_lets +onlyGivenNames e; clear_value e))

theorem Dev.actReply_canon {d : Dev} (a seq flags : Nat) (hd : d.Canon) : Dev.Canon (Dev.actReply d a seq flags) := by
  unfold Dev.actReply
  repeat' (first
    | with_reducible assumption
    | with_reducible apply Dev.canTaken_canon
    | with_reducible apply Dev.setAxis_canon
    | with_reducible apply Dev.axFault_canon
    | with_reducible apply Dev.homeEdge_canon
    | with_reducible apply canon_ite
    | (unfold Dev.Canon; dsimp only; with_reducible refine canon_fold ?_)
    | (extract_lets +onlyGivenNames e; refine canon_have (d := e) ?_ ?_; unfold e; rotate_left; intro; clear_value e; rotate_right)
    | (extract_lets +onlyGivenNames e; clear_value e))

theorem Dev.fanWatch_canon {d : Dev} (f : Nat) (hd : d.Canon) : Dev.Canon (Dev.fanWatch d f) := by
  unfold Dev.fanWatch
  repeat' (first
    | with_reducible assumption
    | with_reducible apply Dev.start_canon
    | with_reducible apply Dev.stop_canon
    | with_reducible apply canon_ite
    | (extract_lets +onlyGivenNames e; refine canon_have (d := e) ?_ ?_; unfold e; rotate_left; intro; clear_value e; rotate_right)
    | (extract_lets +onlyGivenNames e; clear_value e))

theorem Dev.fansWatch_canon {d : Dev} (hd : d.Canon) : Dev.Canon (Dev.fansWatch d) := by
  unfold Dev.fansWatch
  repeat' (first
    | intro _
    | with_reducible assumption
    | with_reducible apply Dev.fanWatch_canon
    | with_reducible apply canon_foldl
    | dsimp only)

theorem Dev.fanWrite_canon {d : Dev} (f : Nat) (v : Word) (hd : d.Canon) : Dev.Canon (Dev.fanWrite d f v) := by
  unfold Dev.fanWrite
  repeat' (first
    | with_reducible assumption
    | with_reducible apply Dev.plainWrite_canon
    | with_reducible apply Dev.fanWatch_canon
    | (unfold Dev.Canon; dsimp only; with_reducible refine canon_fold ?_)
    | (extract_lets +onlyGivenNames e; refine canon_have (d := e) ?_ ?_; unfold e; rotate_left; intro; clear_value e; rotate_right)
    | (extract_lets +onlyGivenNames e; clear_value e))

theorem Dev.fanDutyWrite_canon {d : Dev} (src : Writer) (f : Nat) (v : Word) (hd : d.Canon) : Dev.Canon (Dev.fanDutyWrite d src f v) := by
  unfold Dev.fanDutyWrite
  repeat' (first
    | with_reducible assumption
    | with_reducible apply Dev.fanWrite_canon
    | with_reducible apply canon_ite)

theorem Dev.fanCfgWrite_canon {d : Dev} (f : Nat) (v : Word) (hd : d.Canon) : Dev.Canon (Dev.fanCfgWrite d f v) := by
  unfold Dev.fanCfgWrite
  repeat' (first
    | with_reducible assumption
    | with_reducible apply Dev.plainWrite_canon
    | with_reducible apply Dev.fanWatch_canon
    | with_reducible apply canon_ite
    | (extract_lets +onlyGivenNames e; refine canon_have (d := e) ?_ ?_; unfold e; rotate_left; intro; clear_value e; rotate_right)
    | (extract_lets +onlyGivenNames e; clear_value e))

theorem Dev.tachEdge_canon {d : Dev} (f : Nat) (hd : d.Canon) : Dev.Canon (Dev.tachEdge d f) := by
  unfold Dev.tachEdge
  repeat' (first
    | with_reducible assumption
    | with_reducible apply Dev.setFld_canon
    | with_reducible apply Dev.setBit_canon
    | with_reducible apply Dev.start_canon
    | with_reducible apply Dev.hw_canon
    | with_reducible apply Dev.fanWatch_canon
    | with_reducible apply canon_ite
    | (extract_lets +onlyGivenNames e; refine canon_have (d := e) ?_ ?_; unfold e; rotate_left; intro; clear_value e; rotate_right)
    | (extract_lets +onlyGivenNames e; clear_value e))

theorem Dev.fanStall_canon {d : Dev} (f : Nat) (hd : d.Canon) : Dev.Canon (Dev.fanStall d f) := by
  unfold Dev.fanStall
  repeat' (first
    | with_reducible assumption
    | with_reducible apply Dev.setBit_canon
    | with_reducible apply Dev.hw_canon
    | with_reducible apply Dev.fanWatch_canon
    | with_reducible apply canon_ite
    | (extract_lets +onlyGivenNames e; refine canon_have (d := e) ?_ ?_; unfold e; rotate_left; intro; clear_value e; rotate_right)
    | (extract_lets +onlyGivenNames e; clear_value e))

theorem Dev.slotDest_canon {d : Dev} (s : Nat) (u : Int) (hd : d.Canon) : Dev.Canon (Dev.slotDest d s u) := by
  unfold Dev.slotDest
  repeat' (first
    | with_reducible assumption
    | with_reducible apply Dev.wr_canon
    | with_reducible apply Dev.axTarget_canon
    | with_reducible apply Dev.fanWrite_canon
    | with_reducible apply canon_ite
    | (extract_lets +onlyGivenNames e; refine canon_have (d := e) ?_ ?_; unfold e; rotate_left; intro; clear_value e; rotate_right)
    | (extract_lets +onlyGivenNames e; clear_value e))

theorem Dev.feedWrite_canon {d : Dev} (n : Nat) (value : Int) (hd : d.Canon) : Dev.Canon (Dev.feedWrite d n value) := by
  unfold Dev.feedWrite
  repeat' (first
    | with_reducible assumption
    | with_reducible apply Dev.setFld_canon
    | (extract_lets +onlyGivenNames e; refine canon_have (d := e) ?_ ?_; unfold e; rotate_left; intro; clear_value e; rotate_right)
    | (extract_lets +onlyGivenNames e; clear_value e))

theorem Dev.feedUpdate_canon {d : Dev} (n code : Nat) (value : Int) (hd : d.Canon) : Dev.Canon (Dev.feedUpdate d n code value) := by
  unfold Dev.feedUpdate
  repeat' (first
    | with_reducible assumption
    | with_reducible apply Dev.setBit_canon
    | with_reducible apply Dev.hw_canon
    | with_reducible apply Dev.slotDrop_canon
    | with_reducible apply Dev.slotDest_canon
    | with_reducible apply Dev.feedWrite_canon
    | with_reducible apply canon_ite
    | (extract_lets +onlyGivenNames e; refine canon_have (d := e) ?_ ?_; unfold e; rotate_left; intro; clear_value e; rotate_right)
    | (extract_lets +onlyGivenNames e; clear_value e))

theorem Dev.feedCfg_canon {d : Dev} (n : Nat) (v : Word) (hd : d.Canon) : Dev.Canon (Dev.feedCfg d n v) := by
  unfold Dev.feedCfg
  repeat' (first
    | with_reducible assumption
    | with_reducible apply Dev.plainWrite_canon
    | with_reducible apply canon_ite)

end Sys2Proof.Machine
end

