-- ==== Sys2Proof/Laws/CanonReset.lean ====
section
/-! SUPPORT. Every operation of Sys2Proof/Machine/Reset.lean keeps the canonical form. -/

set_option Elab.async false
set_option linter.all false

namespace Sys2Proof.Machine

theorem Dev.nvcReset_canon {d : Dev} (cold : Bool) (hd : d.Canon) : Dev.Canon (Dev.nvcReset d cold) := by
  unfold Dev.nvcReset
  repeat' (first
    | intro _
    | with_reducible assumption
    | with_reducible apply Dev.setBytes_canon
    | with_reducible apply Dev.nextFree_canon
    | with_reducible apply Dev.eraseAbandon_canon
    | with_reducible apply canon_ite
    | (unfold Dev.Canon; dsimp only; with_reducible refine canon_fold ?_)
    | (extract_lets +onlyGivenNames e; refine canon_have (d := e) ?_ ?_; unfold e; rotate_left; intro; clear_value e; rotate_right)
    | (extract_lets +onlyGivenNames e; clear_value e)
    | split
    | with_reducible refine canon_snd ?_ (by with_reducible assumption)
    | with_reducible refine canon_fst ?_ (by with_reducible assumption)
    | dsimp only)

theorem Dev.axesAfter_canon {d : Dev} (old : Dev) (warm : Bool) (hd : d.Canon) : Dev.Canon (Dev.axesAfter d old warm) := by
  unfold Dev.axesAfter
  repeat' (first
    | intro _
    | with_reducible assumption
    | with_reducible apply Dev.motObjects_canon
    | with_reducible apply Dev.setAxis_canon
    | with_reducible apply Dev.axSet_canon
    | with_reducible apply Dev.axBusy_canon
    | with_reducible apply Dev.fansWatch_canon
    | with_reducible apply canon_ite
    | with_reducible apply canon_foldl
    | (unfold Dev.Canon; dsimp only; with_reducible refine canon_fold ?_)
    | (extract_lets +onlyGivenNames e; refine canon_have (d := e) ?_ ?_; unfold e; rotate_left; intro; clear_value e; rotate_right)
    | (extract_lets +onlyGivenNames e; clear_value e)
    | dsimp only)

theorem Dev.roleAfter_canon {d : Dev} (hd : d.Canon) : Dev.Canon (Dev.roleAfter d) := by
  unfold Dev.roleAfter
  repeat' (first
    | with_reducible assumption
    | with_reducible apply Dev.setFld_canon
    | with_reducible apply canon_ite
    | (unfold Dev.Canon; dsimp only; with_reducible refine canon_fold ?_)
    | (extract_lets +onlyGivenNames e; refine canon_have (d := e) ?_ ?_; unfold e; rotate_left; intro; clear_value e; rotate_right)
    | (extract_lets +onlyGivenNames e; clear_value e))

theorem Dev.levelsAfter_canon {d : Dev} (old : Dev) (hd : d.Canon) : Dev.Canon (Dev.levelsAfter d old) := by
  unfold Dev.levelsAfter
  repeat' (first
    | with_reducible assumption
    | with_reducible apply Dev.wr_canon
    | with_reducible apply Dev.setFld_canon
    | with_reducible apply Dev.setBit_canon
    | (extract_lets +onlyGivenNames e; refine canon_have (d := e) ?_ ?_; unfold e; rotate_left; intro; clear_value e; rotate_right)
    | (extract_lets +onlyGivenNames e; clear_value e))

theorem Dev.holdAfter_canon {d : Dev} (warm : Bool) (hd : d.Canon) : Dev.Canon (Dev.holdAfter d warm) := by
  unfold Dev.holdAfter
  repeat' (first
    | with_reducible assumption
    | with_reducible apply Dev.start_canon
    | with_reducible apply canon_ite
    | (unfold Dev.Canon; dsimp only; with_reducible refine canon_fold ?_)
    | (extract_lets +onlyGivenNames e; refine canon_have (d := e) ?_ ?_; unfold e; rotate_left; intro; clear_value e; rotate_right)
    | (extract_lets +onlyGivenNames e; clear_value e))

theorem Dev.resetBase_canon {old : Dev} (c : Nat) (hold : old.Canon) : Dev.Canon (Dev.resetBase old c) := by
  unfold Dev.resetBase Dev.Canon
  refine ⟨?_, Store.wf_mapKeep hold.2 _⟩
  show Store.wf memReset (if warmCause c then old.mem else old.mem.filter (fun e => !isSram e.1)) = true
  split
  · exact hold.1
  · exact Store.wf_filter hold.1 _

theorem Dev.resetTo_canon {d : Dev} (c : Nat) (hd : d.Canon) : Dev.Canon (Dev.resetTo d c) := by
  unfold Dev.resetTo
  repeat' (first
    | with_reducible assumption
    | with_reducible apply Dev.wr_canon
    | with_reducible apply Dev.setFld_canon
    | with_reducible apply Dev.setBit_canon
    | with_reducible apply Dev.flag_canon
    | with_reducible apply Dev.nvcReset_canon
    | with_reducible apply Dev.axesAfter_canon
    | with_reducible apply Dev.roleAfter_canon
    | with_reducible apply Dev.levelsAfter_canon
    | with_reducible apply Dev.holdAfter_canon
    | with_reducible apply Dev.resetBase_canon
    | with_reducible apply canon_ite
    | (unfold Dev.Canon; dsimp only; with_reducible refine canon_fold ?_)
    | (extract_lets +onlyGivenNames e; refine canon_have (d := e) ?_ ?_; unfold e; rotate_left; intro; clear_value e; rotate_right)
    | (extract_lets +onlyGivenNames e; clear_value e))

theorem Dev.holdAgain_canon {d : Dev} (hd : d.Canon) : Dev.Canon (Dev.holdAgain d) := by
  unfold Dev.holdAgain
  repeat' (first
    | with_reducible assumption
    | with_reducible apply Dev.setFld_canon
    | with_reducible apply Dev.setBit_canon
    | with_reducible apply Dev.flag_canon
    | with_reducible apply Dev.hw_canon
    | (unfold Dev.Canon; dsimp only; with_reducible refine canon_fold ?_)
    | (extract_lets +onlyGivenNames e; refine canon_have (d := e) ?_ ?_; unfold e; rotate_left; intro; clear_value e; rotate_right)
    | (extract_lets +onlyGivenNames e; clear_value e))

theorem Dev.settle_canon {d : Dev} (hd : d.Canon) : Dev.Canon (Dev.settle d) := by
  unfold Dev.settle
  repeat' (first
    | with_reducible assumption
    | with_reducible apply Dev.resetTo_canon
    | with_reducible apply Dev.holdAgain_canon
    | with_reducible apply canon_ite
    | split
    | with_reducible refine canon_snd ?_ (by with_reducible assumption)
    | with_reducible refine canon_fst ?_ (by with_reducible assumption)
    | dsimp only)

theorem Dev.resetAsk_canon {d : Dev} (c : Nat) (hd : d.Canon) : Dev.Canon (Dev.resetAsk d c) := by
  unfold Dev.resetAsk
  repeat' (first
    | with_reducible assumption
    | with_reducible apply Dev.settle_canon
    | (unfold Dev.Canon; dsimp only; with_reducible refine canon_fold ?_)
    | (extract_lets +onlyGivenNames e; refine canon_have (d := e) ?_ ?_; unfold e; rotate_left; intro; clear_value e; rotate_right)
    | (extract_lets +onlyGivenNames e; clear_value e)
    | split
    | with_reducible refine canon_snd ?_ (by with_reducible assumption)
    | with_reducible refine canon_fst ?_ (by with_reducible assumption)
    | dsimp only)

end Sys2Proof.Machine
end

