-- ==== Sys2Proof/Laws/CanonIssue.lean ====
section
/-! SUPPORT. Every operation of Sys2Proof/Machine/Issue.lean keeps the canonical form. -/

set_option Elab.async false
set_option linter.all false

namespace Sys2Proof.Machine

theorem Dev.denied_canon {d : Dev} (p : Pair) (kind a code : Nat) (hd : d.Canon) : Dev.Canon (Dev.denied d p kind a code) := by
  unfold Dev.denied
  repeat' (first
    | with_reducible assumption
    | with_reducible apply Dev.wr_canon
    | with_reducible apply Dev.flag_canon
    | with_reducible apply canon_ite
    | (extract_lets +onlyGivenNames e; refine canon_have (d := e) ?_ ?_; unfold e; rotate_left; intro; clear_value e; rotate_right)
    | (extract_lets +onlyGivenNames e; clear_value e)
    | split
    | with_reducible refine canon_snd ?_ (by with_reducible assumption)
    | with_reducible refine canon_fst ?_ (by with_reducible assumption)
    | dsimp only)

theorem Dev.corrected_canon {d : Dev} (a n : Nat) (hd : d.Canon) : Dev.Canon (Dev.corrected d a n) := by
  unfold Dev.corrected
  repeat' (first
    | intro _
    | with_reducible assumption
    | with_reducible apply Dev.setFld_canon
    | split
    | with_reducible refine canon_snd ?_ (by with_reducible assumption)
    | with_reducible refine canon_fst ?_ (by with_reducible assumption)
    | dsimp only)

theorem Dev.issue_canon {d : Dev} (p : Pair) (f : Dev → Dev) (hd : d.Canon) (hf : ∀ x0, x0.Canon → Dev.Canon (f x0)) : Dev.Canon (Dev.issue d p f) := by
  unfold Dev.issue
  repeat' (first
    | intro _
    | with_reducible assumption
    | with_reducible apply Dev.satInc_canon
    | with_reducible apply Dev.raise_canon
    | with_reducible apply Dev.settle_canon
    | with_reducible apply Dev.denied_canon
    | with_reducible apply Dev.corrected_canon
    | with_reducible apply hf
    | with_reducible apply canon_ite
    | (extract_lets +onlyGivenNames e; refine canon_have (d := e) ?_ ?_; unfold e; rotate_left; intro; clear_value e; rotate_right)
    | (extract_lets +onlyGivenNames e; clear_value e)
    | split
    | with_reducible refine canon_snd ?_ (by with_reducible assumption)
    | with_reducible refine canon_fst ?_ (by with_reducible assumption)
    | dsimp only)

theorem Dev.alu_canon {d : Dev} (p : Pair) (f : CoreSt → CoreSt) (hd : d.Canon) : Dev.Canon (Dev.alu d p f) := by
  unfold Dev.alu
  repeat' (first
    | intro _
    | with_reducible assumption
    | with_reducible apply Dev.setCore_canon
    | with_reducible apply Dev.issue_canon
    | dsimp only)

theorem Dev.aluIf_canon {d : Dev} (p : Pair) (ok : Bool) (f : CoreSt → CoreSt) (hd : d.Canon) : Dev.Canon (Dev.aluIf d p ok f) := by
  unfold Dev.aluIf
  repeat' (first
    | intro _
    | with_reducible assumption
    | with_reducible apply Dev.setCore_canon
    | with_reducible apply Dev.raise_canon
    | with_reducible apply Dev.issue_canon
    | with_reducible apply canon_ite
    | dsimp only)

theorem Dev.dataRaise_canon {d : Dev} (p : Pair) (kind a : Nat) (x : Nat × Nat) (hd : d.Canon) : Dev.Canon (Dev.dataRaise d p kind a x) := by
  unfold Dev.dataRaise
  repeat' (first
    | with_reducible assumption
    | with_reducible apply Dev.satInc_canon
    | with_reducible apply Dev.raise_canon
    | with_reducible apply Dev.denied_canon
    | with_reducible apply canon_ite
    | (extract_lets +onlyGivenNames e; refine canon_have (d := e) ?_ ?_; unfold e; rotate_left; intro; clear_value e; rotate_right)
    | (extract_lets +onlyGivenNames e; clear_value e))

theorem Dev.sramStore_canon {d : Dev} (p : Pair) (a : Nat) (l : List Byte) (hd : d.Canon) : Dev.Canon (Dev.sramStore d p a l) := by
  unfold Dev.sramStore
  repeat' (first
    | with_reducible assumption
    | with_reducible apply Dev.setBytes_canon
    | with_reducible apply Dev.touch_canon
    | with_reducible apply Dev.overwritten_canon
    | with_reducible apply canon_ite
    | (unfold Dev.Canon; dsimp only; with_reducible refine canon_fold ?_)
    | (extract_lets +onlyGivenNames e; refine canon_have (d := e) ?_ ?_; unfold e; rotate_left; intro; clear_value e; rotate_right)
    | (extract_lets +onlyGivenNames e; clear_value e)
    | split
    | with_reducible refine canon_snd ?_ (by with_reducible assumption)
    | with_reducible refine canon_fst ?_ (by with_reducible assumption)
    | dsimp only)

end Sys2Proof.Machine
end

