-- ==== Sys2Proof/Laws/CanonInteger.lean ====
section
/-! SUPPORT. Every operation of Sys2Proof/Machine/Integer.lean keeps the canonical form. -/

set_option Elab.async false
set_option linter.all false

namespace Sys2Proof.Machine

theorem Dev.rrr_canon {d : Dev} (p : Pair) (rd ra rb : GReg) (f : Word → Word → Word) (hd : d.Canon) : Dev.Canon (Dev.rrr d p rd ra rb f) := by
  unfold Dev.rrr
  repeat' (first
    | intro _
    | with_reducible assumption
    | with_reducible apply Dev.alu_canon
    | dsimp only)

theorem Dev.rri_canon {d : Dev} (p : Pair) (rd ra : GReg) (f : Word → Word) (hd : d.Canon) : Dev.Canon (Dev.rri d p rd ra f) := by
  unfold Dev.rri
  repeat' (first
    | intro _
    | with_reducible assumption
    | with_reducible apply Dev.alu_canon
    | dsimp only)

theorem Dev.branch_canon {d : Dev} (p : Pair) (ra rb : GReg) (off : BitVec 16) (f : Word → Word → Bool) (hd : d.Canon) : Dev.Canon (Dev.branch d p ra rb off f) := by
  unfold Dev.branch
  repeat' (first
    | intro _
    | with_reducible assumption
    | with_reducible apply Dev.setCore_canon
    | with_reducible apply Dev.issue_canon
    | with_reducible apply canon_ite
    | (unfold Dev.Canon; dsimp only; with_reducible refine canon_fold ?_)
    | (extract_lets +onlyGivenNames e; refine canon_have (d := e) ?_ ?_; unfold e; rotate_left; intro; clear_value e; rotate_right)
    | (extract_lets +onlyGivenNames e; clear_value e)
    | dsimp only)

theorem Dev.jumpReg_canon {d : Dev} (p : Pair) (link : Option GReg) (ra : GReg) (hd : d.Canon) : Dev.Canon (Dev.jumpReg d p link ra) := by
  unfold Dev.jumpReg
  repeat' (first
    | intro _
    | with_reducible assumption
    | with_reducible apply Dev.setCore_canon
    | with_reducible apply Dev.exception_canon
    | with_reducible apply Dev.issue_canon
    | with_reducible apply canon_ite
    | (unfold Dev.Canon; dsimp only; with_reducible refine canon_fold ?_)
    | (extract_lets +onlyGivenNames e; refine canon_have (d := e) ?_ ?_; unfold e; rotate_left; intro; clear_value e; rotate_right)
    | (extract_lets +onlyGivenNames e; clear_value e)
    | split
    | with_reducible refine canon_snd ?_ (by with_reducible assumption)
    | with_reducible refine canon_fst ?_ (by with_reducible assumption)
    | dsimp only)

theorem Dev.jumpOff_canon {d : Dev} (p : Pair) (link : Bool) (off : BitVec 26) (hd : d.Canon) : Dev.Canon (Dev.jumpOff d p link off) := by
  unfold Dev.jumpOff
  repeat' (first
    | intro _
    | with_reducible assumption
    | with_reducible apply Dev.setCore_canon
    | with_reducible apply Dev.issue_canon
    | with_reducible apply canon_ite
    | (unfold Dev.Canon; dsimp only; with_reducible refine canon_fold ?_)
    | (extract_lets +onlyGivenNames e; refine canon_have (d := e) ?_ ?_; unfold e; rotate_left; intro; clear_value e; rotate_right)
    | (extract_lets +onlyGivenNames e; clear_value e)
    | dsimp only)

end Sys2Proof.Machine
end

