-- ==== Sys2Proof/Laws/CanonImp.lean ====
section
/-! SUPPORT. Every operation of Sys2Proof/Machine/Imp.lean keeps the canonical form. -/

set_option Elab.async false
set_option linter.all false

namespace Sys2Proof.Machine

theorem Dev.injPart_canon {d : Dev} (i : Inj) (p : InjPart) (hd : d.Canon) : Dev.Canon (Dev.injPart d i p) := by
  unfold Dev.injPart
  repeat' (first
    | with_reducible assumption
    | with_reducible apply Dev.setBit_canon
    | with_reducible apply Dev.start_canon
    | with_reducible apply canon_ite
    | (unfold Dev.Canon; dsimp only; with_reducible refine canon_fold ?_)
    | (extract_lets +onlyGivenNames e; refine canon_have (d := e) ?_ ?_; unfold e; rotate_left; intro; clear_value e; rotate_right)
    | (extract_lets +onlyGivenNames e; clear_value e))

theorem Dev.injStart_canon {d : Dev} (n : Nat) (hd : d.Canon) : Dev.Canon (Dev.injStart d n) := by
  unfold Dev.injStart
  repeat' (first
    | with_reducible assumption
    | with_reducible apply Dev.wr_canon
    | with_reducible apply Dev.setBit_canon
    | with_reducible apply Dev.flag_canon
    | with_reducible apply Dev.start_canon
    | with_reducible apply Dev.hw_canon
    | with_reducible apply Dev.injAbort_canon
    | with_reducible apply Dev.tinjAbort_canon
    | with_reducible apply Dev.injPart_canon
    | with_reducible apply canon_ite
    | (unfold Dev.Canon; dsimp only; with_reducible refine canon_fold ?_)
    | (extract_lets +onlyGivenNames e; refine canon_have (d := e) ?_ ?_; unfold e; rotate_left; intro; clear_value e; rotate_right)
    | (extract_lets +onlyGivenNames e; clear_value e)
    | split
    | with_reducible refine canon_snd ?_ (by with_reducible assumption)
    | with_reducible refine canon_fst ?_ (by with_reducible assumption)
    | dsimp only)

theorem Dev.injReduce_canon {d : Dev} (hd : d.Canon) : Dev.Canon (Dev.injReduce d) := by
  unfold Dev.injReduce
  repeat' (first
    | with_reducible assumption
    | with_reducible apply Dev.setFld_canon
    | with_reducible apply Dev.flag_canon
    | with_reducible apply Dev.hw_canon
    | with_reducible apply Dev.injAbort_canon
    | with_reducible apply canon_ite
    | (extract_lets +onlyGivenNames e; refine canon_have (d := e) ?_ ?_; unfold e; rotate_left; intro; clear_value e; rotate_right)
    | (extract_lets +onlyGivenNames e; clear_value e)
    | split
    | with_reducible refine canon_snd ?_ (by with_reducible assumption)
    | with_reducible refine canon_fst ?_ (by with_reducible assumption)
    | dsimp only)

theorem Dev.injPhaseEnd_canon {d : Dev} (hd : d.Canon) : Dev.Canon (Dev.injPhaseEnd d) := by
  unfold Dev.injPhaseEnd
  repeat' (first
    | with_reducible assumption
    | with_reducible apply Dev.injDiscard_canon
    | with_reducible apply Dev.injOff_canon
    | with_reducible apply Dev.injPart_canon
    | with_reducible apply canon_ite
    | (extract_lets +onlyGivenNames e; refine canon_have (d := e) ?_ ?_; unfold e; rotate_left; intro; clear_value e; rotate_right)
    | (extract_lets +onlyGivenNames e; clear_value e)
    | split
    | with_reducible refine canon_snd ?_ (by with_reducible assumption)
    | with_reducible refine canon_fst ?_ (by with_reducible assumption)
    | dsimp only)

theorem Dev.setBin_canon {d : Dev} (b : Nat) (x : Option BinSt) (hd : d.Canon) : Dev.Canon (Dev.setBin d b x) := by
  unfold Dev.setBin
  repeat' (first
    | with_reducible assumption
    | (unfold Dev.Canon; dsimp only; with_reducible refine canon_fold ?_)
    | (extract_lets +onlyGivenNames e; refine canon_have (d := e) ?_ ?_; unfold e; rotate_left; intro; clear_value e; rotate_right)
    | (extract_lets +onlyGivenNames e; clear_value e))

theorem Dev.binsStrobe_canon {d : Dev} (hd : d.Canon) : Dev.Canon (Dev.binsStrobe d) := by
  unfold Dev.binsStrobe
  repeat' (first
    | intro _
    | with_reducible assumption
    | with_reducible apply Dev.setBin_canon
    | with_reducible apply canon_ite
    | with_reducible apply canon_foldl
    | (unfold Dev.Canon; dsimp only; with_reducible refine canon_fold ?_)
    | (extract_lets +onlyGivenNames e; refine canon_have (d := e) ?_ ?_; unfold e; rotate_left; intro; clear_value e; rotate_right)
    | (extract_lets +onlyGivenNames e; clear_value e)
    | split
    | with_reducible refine canon_snd ?_ (by with_reducible assumption)
    | with_reducible refine canon_fst ?_ (by with_reducible assumption)
    | dsimp only)

theorem Dev.binsPublish_canon {d : Dev} (buf : Nat) (hd : d.Canon) : Dev.Canon (Dev.binsPublish d buf) := by
  unfold Dev.binsPublish
  repeat' (first
    | intro _
    | with_reducible assumption
    | with_reducible apply Dev.setBin_canon
    | with_reducible apply canon_ite
    | with_reducible apply canon_foldl
    | (unfold Dev.Canon; dsimp only; with_reducible refine canon_fold ?_)
    | (extract_lets +onlyGivenNames e; refine canon_have (d := e) ?_ ?_; unfold e; rotate_left; intro; clear_value e; rotate_right)
    | (extract_lets +onlyGivenNames e; clear_value e)
    | split
    | with_reducible refine canon_snd ?_ (by with_reducible assumption)
    | with_reducible refine canon_fst ?_ (by with_reducible assumption)
    | dsimp only)

theorem Dev.binEntry_canon {d : Dev} (b win base : Nat) (x : BinSt) (full : Bool) (c : Nat) (hd : d.Canon) : Dev.Canon (Dev.binEntry d b win base x full c) := by
  unfold Dev.binEntry
  repeat' (first
    | with_reducible assumption
    | with_reducible apply Dev.agentStore_canon
    | (unfold Dev.Canon; dsimp only; with_reducible refine canon_fold ?_)
    | (extract_lets +onlyGivenNames e; refine canon_have (d := e) ?_ ?_; unfold e; rotate_left; intro; clear_value e; rotate_right)
    | (extract_lets +onlyGivenNames e; clear_value e)
    | split
    | with_reducible refine canon_snd ?_ (by with_reducible assumption)
    | with_reducible refine canon_fst ?_ (by with_reducible assumption)
    | dsimp only)

theorem Dev.binClose_canon {d : Dev} (b : Nat) (x : BinSt) (full : Bool) (hd : d.Canon) : Dev.Canon (Dev.binClose d b x full) := by
  unfold Dev.binClose
  repeat' (first
    | intro _
    | with_reducible assumption
    | with_reducible apply Dev.flag_canon
    | with_reducible apply Dev.start_canon
    | with_reducible apply Dev.hw_canon
    | with_reducible apply Dev.accDrop_canon
    | with_reducible apply Dev.setBin_canon
    | with_reducible apply Dev.binEntry_canon
    | with_reducible apply canon_ite
    | with_reducible apply canon_foldl
    | (unfold Dev.Canon; dsimp only; with_reducible refine canon_fold ?_)
    | (extract_lets +onlyGivenNames e; refine canon_have (d := e) ?_ ?_; unfold e; rotate_left; intro; clear_value e; rotate_right)
    | (extract_lets +onlyGivenNames e; clear_value e)
    | dsimp only)

theorem Dev.binCell_canon {d : Dev} (b c buf qv qi : Nat) (w i : Int) (ok : Bool) (hd : d.Canon) : Dev.Canon (Dev.binCell d b c buf qv qi w i ok) := by
  unfold Dev.binCell
  repeat' (first
    | with_reducible assumption
    | with_reducible apply canon_ite
    | (unfold Dev.Canon; dsimp only; with_reducible refine canon_fold ?_)
    | (extract_lets +onlyGivenNames e; refine canon_have (d := e) ?_ ?_; unfold e; rotate_left; intro; clear_value e; rotate_right)
    | (extract_lets +onlyGivenNames e; clear_value e))

theorem Dev.binTake_canon {d : Dev} (b : Nat) (i : Int) (noCur : Bool) (buf : Nat) (hd : d.Canon) : Dev.Canon (Dev.binTake d b i noCur buf) := by
  unfold Dev.binTake
  repeat' (first
    | intro _
    | with_reducible assumption
    | with_reducible apply Dev.impActive_canon
    | with_reducible apply Dev.binDiscard_canon
    | with_reducible apply Dev.setBin_canon
    | with_reducible apply Dev.binClose_canon
    | with_reducible apply Dev.binCell_canon
    | with_reducible apply canon_ite
    | with_reducible apply canon_foldl
    | with_reducible apply canon_foldl_fst
    | with_reducible apply canon_foldl_snd
    | (unfold Dev.Canon; dsimp only; with_reducible refine canon_fold ?_)
    | (extract_lets +onlyGivenNames e; refine canon_have (d := e) ?_ ?_; unfold e; rotate_left; intro; clear_value e; rotate_right)
    | (extract_lets +onlyGivenNames e; clear_value e)
    | split
    | with_reducible refine canon_snd ?_ (by with_reducible assumption)
    | with_reducible refine canon_fst ?_ (by with_reducible assumption)
    | dsimp only)

theorem Dev.binAccumulate_canon {d : Dev} (hd : d.Canon) : Dev.Canon (Dev.binAccumulate d) := by
  unfold Dev.binAccumulate
  repeat' (first
    | intro _
    | with_reducible assumption
    | with_reducible apply Dev.setBit_canon
    | with_reducible apply Dev.ripRefresh_canon
    | with_reducible apply Dev.binTake_canon
    | with_reducible apply canon_ite
    | with_reducible apply canon_foldl
    | with_reducible apply canon_foldl_fst
    | with_reducible apply canon_foldl_snd
    | (unfold Dev.Canon; dsimp only; with_reducible refine canon_fold ?_)
    | (extract_lets +onlyGivenNames e; refine canon_have (d := e) ?_ ?_; unfold e; rotate_left; intro; clear_value e; rotate_right)
    | (extract_lets +onlyGivenNames e; clear_value e)
    | split
    | with_reducible refine canon_snd ?_ (by with_reducible assumption)
    | with_reducible refine canon_fst ?_ (by with_reducible assumption)
    | dsimp only)

theorem Dev.binZero_canon {d : Dev} (b : Nat) (hd : d.Canon) : Dev.Canon (Dev.binZero d b) := by
  unfold Dev.binZero
  repeat' (first
    | with_reducible assumption
    | with_reducible apply Dev.binDiscard_canon
    | with_reducible apply Dev.setBin_canon
    | (unfold Dev.Canon; dsimp only; with_reducible refine canon_fold ?_)
    | (extract_lets +onlyGivenNames e; refine canon_have (d := e) ?_ ?_; unfold e; rotate_left; intro; clear_value e; rotate_right)
    | (extract_lets +onlyGivenNames e; clear_value e)
    | split
    | with_reducible refine canon_snd ?_ (by with_reducible assumption)
    | with_reducible refine canon_fst ?_ (by with_reducible assumption)
    | dsimp only)

theorem Dev.binWrite_canon {d : Dev} (b w : Nat) (v : Word) (hd : d.Canon) : Dev.Canon (Dev.binWrite d b w v) := by
  unfold Dev.binWrite
  repeat' (first
    | with_reducible assumption
    | with_reducible apply Dev.plainWrite_canon
    | with_reducible apply Dev.ripRefresh_canon
    | with_reducible apply Dev.binZero_canon
    | with_reducible apply canon_ite
    | (extract_lets +onlyGivenNames e; refine canon_have (d := e) ?_ ?_; unfold e; rotate_left; intro; clear_value e; rotate_right)
    | (extract_lets +onlyGivenNames e; clear_value e))

theorem Dev.impCtl_canon {d : Dev} (v : Word) (hd : d.Canon) : Dev.Canon (Dev.impCtl d v) := by
  unfold Dev.impCtl
  repeat' (first
    | intro _
    | with_reducible assumption
    | with_reducible apply Dev.plainWrite_canon
    | with_reducible apply Dev.injAbort_canon
    | with_reducible apply Dev.binZero_canon
    | with_reducible apply canon_ite
    | with_reducible apply canon_foldl
    | (extract_lets +onlyGivenNames e; refine canon_have (d := e) ?_ ?_; unfold e; rotate_left; intro; clear_value e; rotate_right)
    | (extract_lets +onlyGivenNames e; clear_value e)
    | dsimp only)

end Sys2Proof.Machine
end

