-- ==== Sys2Proof/Laws/CanonCe.lean ====
section
/-! SUPPORT. Every operation of Sys2Proof/Machine/Ce.lean keeps the canonical form. -/

set_option Elab.async false
set_option linter.all false

namespace Sys2Proof.Machine

theorem Dev.cond10_canon {d : Dev} (hd : d.Canon) : Dev.Canon (Dev.cond10 d) := by
  unfold Dev.cond10
  repeat' (first
    | with_reducible assumption
    | with_reducible apply Dev.srcCond_canon)

theorem Dev.ochre10_canon {d : Dev} (hd : d.Canon) : Dev.Canon (Dev.ochre10 d) := by
  unfold Dev.ochre10
  repeat' (first
    | intro _
    | with_reducible assumption
    | with_reducible apply Dev.srcOchre_canon
    | dsimp only)

theorem Dev.slotFault_canon {d : Dev} (s : Nat) (hd : d.Canon) : Dev.Canon (Dev.slotFault d s) := by
  unfold Dev.slotFault
  repeat' (first
    | with_reducible assumption
    | with_reducible apply Dev.setBit_canon
    | with_reducible apply Dev.hw_canon
    | with_reducible apply Dev.traceOn_canon
    | with_reducible apply Dev.slotDrop_canon
    | with_reducible apply Dev.crim_canon
    | with_reducible apply Dev.cond10_canon
    | with_reducible apply canon_ite
    | (extract_lets +onlyGivenNames e; refine canon_have (d := e) ?_ ?_; unfold e; rotate_left; intro; clear_value e; rotate_right)
    | (extract_lets +onlyGivenNames e; clear_value e))

theorem Dev.slotCommitted_canon {d : Dev} (s : Nat) (hd : d.Canon) : Dev.Canon (Dev.slotCommitted d s) := by
  unfold Dev.slotCommitted
  repeat' (first
    | intro _
    | with_reducible assumption
    | with_reducible apply Dev.wr_canon
    | with_reducible apply Dev.setSlot_canon
    | with_reducible apply canon_foldl
    | with_reducible apply canon_foldl_fst
    | with_reducible apply canon_foldl_snd
    | (unfold Dev.Canon; dsimp only; with_reducible refine canon_fold ?_)
    | (extract_lets +onlyGivenNames e; refine canon_have (d := e) ?_ ?_; unfold e; rotate_left; intro; clear_value e; rotate_right)
    | (extract_lets +onlyGivenNames e; clear_value e)
    | split
    | with_reducible refine canon_snd ?_ (by with_reducible assumption)
    | with_reducible refine canon_fst ?_ (by with_reducible assumption)
    | dsimp only)

theorem Dev.slotStart_canon {d : Dev} (s : Nat) (hd : d.Canon) : Dev.Canon (Dev.slotStart d s) := by
  unfold Dev.slotStart
  repeat' (first
    | with_reducible assumption
    | with_reducible apply Dev.setSlot_canon
    | with_reducible apply Dev.slotCommitted_canon
    | (unfold Dev.Canon; dsimp only; with_reducible refine canon_fold ?_)
    | (extract_lets +onlyGivenNames e; refine canon_have (d := e) ?_ ?_; unfold e; rotate_left; intro; clear_value e; rotate_right)
    | (extract_lets +onlyGivenNames e; clear_value e))

theorem Dev.slotsNext_canon {d : Dev} (hd : d.Canon) : Dev.Canon (Dev.slotsNext d) := by
  unfold Dev.slotsNext
  repeat' (first
    | intro _
    | with_reducible assumption
    | with_reducible apply Dev.slotStart_canon
    | with_reducible apply canon_ite
    | (unfold Dev.Canon; dsimp only; with_reducible refine canon_fold ?_)
    | (extract_lets +onlyGivenNames e; refine canon_have (d := e) ?_ ?_; unfold e; rotate_left; intro; clear_value e; rotate_right)
    | (extract_lets +onlyGivenNames e; clear_value e)
    | split
    | with_reducible refine canon_snd ?_ (by with_reducible assumption)
    | with_reducible refine canon_fst ?_ (by with_reducible assumption)
    | dsimp only)

theorem Dev.slotDue_canon {d : Dev} (t : Nat) (late : Bool) (s : Nat) (hd : d.Canon) : Dev.Canon (Dev.slotDue d t late s) := by
  unfold Dev.slotDue
  repeat' (first
    | with_reducible assumption
    | with_reducible apply Dev.slotsNext_canon
    | (unfold Dev.Canon; dsimp only; with_reducible refine canon_fold ?_)
    | (extract_lets +onlyGivenNames e; refine canon_have (d := e) ?_ ?_; unfold e; rotate_left; intro; clear_value e; rotate_right)
    | (extract_lets +onlyGivenNames e; clear_value e))

theorem Dev.slotEvent_canon {d : Dev} (t i : Nat) (hd : d.Canon) : Dev.Canon (Dev.slotEvent d t i) := by
  unfold Dev.slotEvent
  repeat' (first
    | intro _
    | with_reducible assumption
    | with_reducible apply canon_ite
    | with_reducible apply canon_foldl
    | (unfold Dev.Canon; dsimp only; with_reducible refine canon_fold ?_)
    | (extract_lets +onlyGivenNames e; refine canon_have (d := e) ?_ ?_; unfold e; rotate_left; intro; clear_value e; rotate_right)
    | (extract_lets +onlyGivenNames e; clear_value e)
    | dsimp only)

theorem Dev.slotOverrun_canon {d : Dev} (s : Nat) (hd : d.Canon) : Dev.Canon (Dev.slotOverrun d s) := by
  unfold Dev.slotOverrun
  repeat' (first
    | with_reducible assumption
    | with_reducible apply Dev.flag_canon
    | with_reducible apply Dev.satInc_canon
    | with_reducible apply Dev.hw_canon
    | with_reducible apply Dev.slotDrop_canon
    | with_reducible apply Dev.ochre10_canon
    | with_reducible apply Dev.slotFault_canon
    | with_reducible apply canon_ite
    | (extract_lets +onlyGivenNames e; refine canon_have (d := e) ?_ ?_; unfold e; rotate_left; intro; clear_value e; rotate_right)
    | (extract_lets +onlyGivenNames e; clear_value e))

theorem Dev.slotTrigger_canon {d : Dev} (t s : Nat) (hd : d.Canon) : Dev.Canon (Dev.slotTrigger d t s) := by
  unfold Dev.slotTrigger
  repeat' (first
    | with_reducible assumption
    | with_reducible apply Dev.flag_canon
    | with_reducible apply Dev.setSlot_canon
    | with_reducible apply Dev.slotHistReset_canon
    | with_reducible apply Dev.slotsNext_canon
    | with_reducible apply Dev.slotDue_canon
    | with_reducible apply Dev.slotOverrun_canon
    | with_reducible apply canon_ite
    | (unfold Dev.Canon; dsimp only; with_reducible refine canon_fold ?_)
    | (extract_lets +onlyGivenNames e; refine canon_have (d := e) ?_ ?_; unfold e; rotate_left; intro; clear_value e; rotate_right)
    | (extract_lets +onlyGivenNames e; clear_value e)
    | split
    | with_reducible refine canon_snd ?_ (by with_reducible assumption)
    | with_reducible refine canon_fst ?_ (by with_reducible assumption)
    | dsimp only)

theorem Dev.slotEventTake_canon {d : Dev} (s : Nat) (hd : d.Canon) : Dev.Canon (Dev.slotEventTake d s) := by
  unfold Dev.slotEventTake
  repeat' (first
    | intro _
    | with_reducible assumption
    | with_reducible apply Dev.tick_canon
    | with_reducible apply Dev.slotTrigger_canon
    | with_reducible apply canon_foldl
    | (unfold Dev.Canon; dsimp only; with_reducible refine canon_fold ?_)
    | (extract_lets +onlyGivenNames e; refine canon_have (d := e) ?_ ?_; unfold e; rotate_left; intro; clear_value e; rotate_right)
    | (extract_lets +onlyGivenNames e; clear_value e)
    | split
    | with_reducible refine canon_snd ?_ (by with_reducible assumption)
    | with_reducible refine canon_fst ?_ (by with_reducible assumption)
    | dsimp only)

theorem Dev.slotsSample_canon {d : Dev} (n : Nat) (hd : d.Canon) : Dev.Canon (Dev.slotsSample d n) := by
  unfold Dev.slotsSample
  repeat' (first
    | intro _
    | with_reducible assumption
    | with_reducible apply Dev.setSlot_canon
    | with_reducible apply Dev.slotDue_canon
    | with_reducible apply canon_ite
    | with_reducible apply canon_foldl
    | (unfold Dev.Canon; dsimp only; with_reducible refine canon_fold ?_)
    | (extract_lets +onlyGivenNames e; refine canon_have (d := e) ?_ ?_; unfold e; rotate_left; intro; clear_value e; rotate_right)
    | (extract_lets +onlyGivenNames e; clear_value e)
    | dsimp only)

theorem Dev.slotWriteOut_canon {d : Dev} (s : Nat) (raw : Int) (hd : d.Canon) : Dev.Canon (Dev.slotWriteOut d s raw).1 := by
  unfold Dev.slotWriteOut
  repeat' (first
    | with_reducible assumption
    | with_reducible apply Dev.wr_canon
    | with_reducible apply Dev.flag_canon
    | with_reducible apply canon_ite
    | with_reducible apply canon_ite_snd
    | with_reducible apply canon_ite_fst
    | (extract_lets +onlyGivenNames e; refine canon_have (d := e) ?_ ?_; unfold e; rotate_left; intro; clear_value e; rotate_right)
    | (extract_lets +onlyGivenNames e; clear_value e)
    | dsimp only)

theorem Dev.traceSample_canon {d : Dev} (hd : d.Canon) : Dev.Canon (Dev.traceSample d) := by
  unfold Dev.traceSample
  repeat' (first
    | intro _
    | with_reducible assumption
    | with_reducible apply Dev.setBit_canon
    | with_reducible apply Dev.traceTrigger_canon
    | with_reducible apply Dev.agentStore_canon
    | with_reducible apply canon_ite
    | (unfold Dev.Canon; dsimp only; with_reducible refine canon_fold ?_)
    | (extract_lets +onlyGivenNames e; refine canon_have (d := e) ?_ ?_; unfold e; rotate_left; intro; clear_value e; rotate_right)
    | (extract_lets +onlyGivenNames e; clear_value e)
    | split
    | with_reducible refine canon_snd ?_ (by with_reducible assumption)
    | with_reducible refine canon_fst ?_ (by with_reducible assumption)
    | dsimp only)

theorem Dev.traceTick_canon {d : Dev} (s : Nat) (hd : d.Canon) : Dev.Canon (Dev.traceTick d s) := by
  unfold Dev.traceTick
  repeat' (first
    | with_reducible assumption
    | with_reducible apply Dev.traceSample_canon
    | with_reducible apply canon_ite
    | (unfold Dev.Canon; dsimp only; with_reducible refine canon_fold ?_)
    | (extract_lets +onlyGivenNames e; refine canon_have (d := e) ?_ ?_; unfold e; rotate_left; intro; clear_value e; rotate_right)
    | (extract_lets +onlyGivenNames e; clear_value e))

theorem Dev.trcCtl_canon {d : Dev} (v : Word) (hd : d.Canon) : Dev.Canon (Dev.trcCtl d v) := by
  unfold Dev.trcCtl
  repeat' (first
    | with_reducible assumption
    | with_reducible apply Dev.wr_canon
    | with_reducible apply Dev.plainWrite_canon
    | with_reducible apply Dev.traceTrigger_canon
    | with_reducible apply canon_ite
    | (unfold Dev.Canon; dsimp only; with_reducible refine canon_fold ?_)
    | (extract_lets +onlyGivenNames e; refine canon_have (d := e) ?_ ?_; unfold e; rotate_left; intro; clear_value e; rotate_right)
    | (extract_lets +onlyGivenNames e; clear_value e))

theorem Dev.tinjTick_canon {d : Dev} (s : Nat) (hd : d.Canon) : Dev.Canon (Dev.tinjTick d s) := by
  unfold Dev.tinjTick
  repeat' (first
    | with_reducible assumption
    | with_reducible apply Dev.setBit_canon
    | with_reducible apply canon_ite
    | (unfold Dev.Canon; dsimp only; with_reducible refine canon_fold ?_)
    | (extract_lets +onlyGivenNames e; refine canon_have (d := e) ?_ ?_; unfold e; rotate_left; intro; clear_value e; rotate_right)
    | (extract_lets +onlyGivenNames e; clear_value e))

theorem Dev.tinjWrite_canon {d : Dev} (v : Word) (hd : d.Canon) : Dev.Canon (Dev.tinjWrite d v) := by
  unfold Dev.tinjWrite
  repeat' (first
    | with_reducible assumption
    | with_reducible apply Dev.setBit_canon
    | with_reducible apply Dev.flag_canon
    | with_reducible apply Dev.plainWrite_canon
    | with_reducible apply Dev.tinjAbort_canon
    | with_reducible apply Dev.traceOn_canon
    | with_reducible apply canon_ite
    | (unfold Dev.Canon; dsimp only; with_reducible refine canon_fold ?_)
    | (extract_lets +onlyGivenNames e; refine canon_have (d := e) ?_ ?_; unfold e; rotate_left; intro; clear_value e; rotate_right)
    | (extract_lets +onlyGivenNames e; clear_value e))

theorem Dev.slotShare_canon {d : Dev} (s : Nat) (hd : d.Canon) : Dev.Canon (Dev.slotShare d s) := by
  unfold Dev.slotShare
  repeat' (first
    | intro _
    | with_reducible assumption
    | with_reducible apply Dev.send_canon
    | with_reducible apply canon_ite
    | (extract_lets +onlyGivenNames e; refine canon_have (d := e) ?_ ?_; unfold e; rotate_left; intro; clear_value e; rotate_right)
    | (extract_lets +onlyGivenNames e; clear_value e)
    | dsimp only)

theorem Dev.slotEnd_canon {d : Dev} (s : Nat) (hd : d.Canon) : Dev.Canon (Dev.slotEnd d s) := by
  unfold Dev.slotEnd
  repeat' (first
    | with_reducible assumption
    | with_reducible apply Dev.setFld_canon
    | with_reducible apply Dev.setSlot_canon
    | with_reducible apply Dev.ochre10_canon
    | with_reducible apply Dev.slotsNext_canon
    | with_reducible apply Dev.slotEvent_canon
    | with_reducible apply Dev.traceTick_canon
    | with_reducible apply Dev.tinjTick_canon
    | with_reducible apply Dev.slotShare_canon
    | (unfold Dev.Canon; dsimp only; with_reducible refine canon_fold ?_)
    | (extract_lets +onlyGivenNames e; refine canon_have (d := e) ?_ ?_; unfold e; rotate_left; intro; clear_value e; rotate_right)
    | (extract_lets +onlyGivenNames e; clear_value e))

theorem Dev.slotComplete_canon {d : Dev} (s : Nat) (hd : d.Canon) : Dev.Canon (Dev.slotComplete d s) := by
  unfold Dev.slotComplete
  repeat' (first
    | with_reducible assumption
    | with_reducible apply Dev.wr_canon
    | with_reducible apply Dev.flag_canon
    | with_reducible apply Dev.setSlot_canon
    | with_reducible apply Dev.slotDest_canon
    | with_reducible apply Dev.slotFault_canon
    | with_reducible apply Dev.slotsNext_canon
    | with_reducible apply Dev.slotWriteOut_canon
    | with_reducible apply Dev.slotEnd_canon
    | with_reducible apply canon_ite
    | (unfold Dev.Canon; dsimp only; with_reducible refine canon_fold ?_)
    | (extract_lets +onlyGivenNames e; refine canon_have (d := e) ?_ ?_; unfold e; rotate_left; intro; clear_value e; rotate_right)
    | (extract_lets +onlyGivenNames e; clear_value e)
    | split
    | with_reducible refine canon_snd ?_ (by with_reducible assumption)
    | with_reducible refine canon_fst ?_ (by with_reducible assumption)
    | dsimp only)

theorem Dev.fltClr_canon {d : Dev} (v : Word) (hd : d.Canon) : Dev.Canon (Dev.fltClr d v) := by
  unfold Dev.fltClr
  repeat' (first
    | intro _
    | with_reducible assumption
    | with_reducible apply Dev.setFld_canon
    | with_reducible apply Dev.setBit_canon
    | with_reducible apply Dev.hw_canon
    | with_reducible apply Dev.slotHistReset_canon
    | with_reducible apply Dev.cond10_canon
    | with_reducible apply Dev.ochre10_canon
    | with_reducible apply canon_ite
    | with_reducible apply canon_foldl
    | (extract_lets +onlyGivenNames e; refine canon_have (d := e) ?_ ?_; unfold e; rotate_left; intro; clear_value e; rotate_right)
    | (extract_lets +onlyGivenNames e; clear_value e)
    | dsimp only)

theorem Dev.kick_canon {d : Dev} (v : Word) (hd : d.Canon) : Dev.Canon (Dev.kick d v) := by
  unfold Dev.kick
  repeat' (first
    | intro _
    | with_reducible assumption
    | with_reducible apply Dev.slotTrigger_canon
    | with_reducible apply canon_ite
    | with_reducible apply canon_foldl
    | dsimp only)

theorem Dev.slowTimer_canon {d : Dev} (s : Nat) (hd : d.Canon) : Dev.Canon (Dev.slowTimer d s) := by
  unfold Dev.slowTimer
  repeat' (first
    | with_reducible assumption
    | with_reducible apply Dev.setSlot_canon
    | with_reducible apply Dev.slotTrigger_canon
    | with_reducible apply canon_ite
    | (unfold Dev.Canon; dsimp only; with_reducible refine canon_fold ?_)
    | (extract_lets +onlyGivenNames e; refine canon_have (d := e) ?_ ?_; unfold e; rotate_left; intro; clear_value e; rotate_right)
    | (extract_lets +onlyGivenNames e; clear_value e))

theorem Dev.slotWrite_canon {d : Dev} (s w : Nat) (v : Word) (hd : d.Canon) : Dev.Canon (Dev.slotWrite d s w v) := by
  unfold Dev.slotWrite
  repeat' (first
    | intro _
    | with_reducible assumption
    | with_reducible apply Dev.plainWrite_canon
    | with_reducible apply Dev.setSlot_canon
    | with_reducible apply Dev.slotHistReset_canon
    | with_reducible apply Dev.slotDrop_canon
    | with_reducible apply Dev.slotsNext_canon
    | with_reducible apply canon_ite
    | with_reducible apply canon_foldl
    | (unfold Dev.Canon; dsimp only; with_reducible refine canon_fold ?_)
    | (extract_lets +onlyGivenNames e; refine canon_have (d := e) ?_ ?_; unfold e; rotate_left; intro; clear_value e; rotate_right)
    | (extract_lets +onlyGivenNames e; clear_value e)
    | split
    | with_reducible refine canon_snd ?_ (by with_reducible assumption)
    | with_reducible refine canon_fst ?_ (by with_reducible assumption)
    | dsimp only)

end Sys2Proof.Machine
end

