-- ==== Sys2Proof/Laws/CanonPwm.lean ====
section
/-! SUPPORT. Every operation of Sys2Proof/Machine/Pwm.lean keeps the canonical form. -/

set_option Elab.async false
set_option linter.all false

namespace Sys2Proof.Machine

theorem Dev.setPair_canon {d : Dev} (p : Nat) (x : PairSt) (hd : d.Canon) : Dev.Canon (Dev.setPair d p x) := by
  unfold Dev.setPair
  repeat' (first
    | with_reducible assumption
    | with_reducible apply canon_ite
    | (unfold Dev.Canon; dsimp only; with_reducible refine canon_fold ?_))

theorem Dev.pairLoad_canon {d : Dev} (p : Nat) (hd : d.Canon) : Dev.Canon (Dev.pairLoad d p) := by
  unfold Dev.pairLoad
  repeat' (first
    | with_reducible assumption
    | with_reducible apply Dev.setPair_canon
    | (unfold Dev.Canon; dsimp only; with_reducible refine canon_fold ?_)
    | (extract_lets +onlyGivenNames e; refine canon_have (d := e) ?_ ?_; unfold e; rotate_left; intro; clear_value e; rotate_right)
    | (extract_lets +onlyGivenNames e; clear_value e))

theorem Dev.pairStart_canon {d : Dev} (p : Nat) (hd : d.Canon) : Dev.Canon (Dev.pairStart d p) := by
  unfold Dev.pairStart
  repeat' (first
    | intro _
    | with_reducible assumption
    | with_reducible apply Dev.slotEvent_canon
    | with_reducible apply Dev.setPair_canon
    | with_reducible apply Dev.pairLoad_canon
    | with_reducible apply canon_ite
    | (unfold Dev.Canon; dsimp only; with_reducible refine canon_fold ?_)
    | (extract_lets +onlyGivenNames e; refine canon_have (d := e) ?_ ?_; unfold e; rotate_left; intro; clear_value e; rotate_right)
    | (extract_lets +onlyGivenNames e; clear_value e)
    | split
    | with_reducible refine canon_snd ?_ (by with_reducible assumption)
    | with_reducible refine canon_fst ?_ (by with_reducible assumption)
    | dsimp only)

theorem Dev.pairTurn_canon {d : Dev} (p : Nat) (hd : d.Canon) : Dev.Canon (Dev.pairTurn d p) := by
  unfold Dev.pairTurn
  repeat' (first
    | with_reducible assumption
    | with_reducible apply Dev.pairStart_canon
    | with_reducible apply canon_ite
    | split
    | with_reducible refine canon_snd ?_ (by with_reducible assumption)
    | with_reducible refine canon_fst ?_ (by with_reducible assumption)
    | dsimp only)

theorem Dev.pairCentre_canon {d : Dev} (p : Nat) (hd : d.Canon) : Dev.Canon (Dev.pairCentre d p) := by
  unfold Dev.pairCentre
  repeat' (first
    | with_reducible assumption
    | with_reducible apply Dev.slotEvent_canon
    | with_reducible apply Dev.setPair_canon
    | with_reducible apply Dev.pairLoad_canon
    | with_reducible apply canon_ite
    | (unfold Dev.Canon; dsimp only; with_reducible refine canon_fold ?_)
    | (extract_lets +onlyGivenNames e; refine canon_have (d := e) ?_ ?_; unfold e; rotate_left; intro; clear_value e; rotate_right)
    | (extract_lets +onlyGivenNames e; clear_value e))

theorem Dev.perWrite_canon {d : Dev} (p : Nat) (v : Word) (hd : d.Canon) : Dev.Canon (Dev.perWrite d p v) := by
  unfold Dev.perWrite
  repeat' (first
    | with_reducible assumption
    | with_reducible apply Dev.wr_canon
    | with_reducible apply Dev.flag_canon
    | with_reducible apply Dev.hw_canon
    | with_reducible apply canon_ite
    | (extract_lets +onlyGivenNames e; refine canon_have (d := e) ?_ ?_; unfold e; rotate_left; intro; clear_value e; rotate_right)
    | (extract_lets +onlyGivenNames e; clear_value e))

theorem Dev.slotUnpaired_canon {d : Dev} (p s : Nat) (hd : d.Canon) : Dev.Canon (Dev.slotUnpaired d p s) := by
  unfold Dev.slotUnpaired
  repeat' (first
    | with_reducible assumption
    | with_reducible apply Dev.tinjAbort_canon
    | with_reducible apply Dev.slotHistReset_canon
    | with_reducible apply Dev.slotDrop_canon
    | with_reducible apply canon_ite
    | (extract_lets +onlyGivenNames e; refine canon_have (d := e) ?_ ?_; unfold e; rotate_left; intro; clear_value e; rotate_right)
    | (extract_lets +onlyGivenNames e; clear_value e))

theorem Dev.pairSync_canon {d : Dev} (p : Nat) (hd : d.Canon) : Dev.Canon (Dev.pairSync d p) := by
  unfold Dev.pairSync
  repeat' (first
    | with_reducible assumption
    | with_reducible apply Dev.setPair_canon
    | with_reducible apply Dev.pairStart_canon
    | with_reducible apply canon_ite
    | (unfold Dev.Canon; dsimp only; with_reducible refine canon_fold ?_)
    | (extract_lets +onlyGivenNames e; refine canon_have (d := e) ?_ ?_; unfold e; rotate_left; intro; clear_value e; rotate_right)
    | (extract_lets +onlyGivenNames e; clear_value e))

theorem Dev.pwmCtl_canon {d : Dev} (v : Word) (hd : d.Canon) : Dev.Canon (Dev.pwmCtl d v) := by
  unfold Dev.pwmCtl
  repeat' (first
    | intro _
    | with_reducible assumption
    | with_reducible apply Dev.plainWrite_canon
    | with_reducible apply Dev.updateBlk_canon
    | with_reducible apply Dev.slotsNext_canon
    | with_reducible apply Dev.setPair_canon
    | with_reducible apply Dev.slotUnpaired_canon
    | with_reducible apply Dev.pairSync_canon
    | with_reducible apply canon_ite
    | with_reducible apply canon_foldl
    | (unfold Dev.Canon; dsimp only; with_reducible refine canon_fold ?_)
    | (extract_lets +onlyGivenNames e; refine canon_have (d := e) ?_ ?_; unfold e; rotate_left; intro; clear_value e; rotate_right)
    | (extract_lets +onlyGivenNames e; clear_value e)
    | dsimp only)

theorem Dev.convFltFall_canon {d : Dev} (fromReset : Bool) (hd : d.Canon) : Dev.Canon (Dev.convFltFall d fromReset) := by
  unfold Dev.convFltFall
  repeat' (first
    | with_reducible assumption
    | with_reducible apply Dev.hw_canon
    | with_reducible apply Dev.updateBlk_canon
    | with_reducible apply Dev.crim_canon
    | with_reducible apply Dev.cond10_canon
    | with_reducible apply canon_ite
    | (unfold Dev.Canon; dsimp only; with_reducible refine canon_fold ?_)
    | (extract_lets +onlyGivenNames e; refine canon_have (d := e) ?_ ?_; unfold e; rotate_left; intro; clear_value e; rotate_right)
    | (extract_lets +onlyGivenNames e; clear_value e))

theorem Dev.convFltRise_canon {d : Dev} (hd : d.Canon) : Dev.Canon (Dev.convFltRise d) := by
  unfold Dev.convFltRise
  repeat' (first
    | with_reducible assumption
    | with_reducible apply Dev.updateBlk_canon
    | with_reducible apply Dev.cond10_canon
    | (unfold Dev.Canon; dsimp only; with_reducible refine canon_fold ?_)
    | (extract_lets +onlyGivenNames e; refine canon_have (d := e) ?_ ?_; unfold e; rotate_left; intro; clear_value e; rotate_right)
    | (extract_lets +onlyGivenNames e; clear_value e))

theorem Dev.blkClr_canon {d : Dev} (v : Word) (hd : d.Canon) : Dev.Canon (Dev.blkClr d v) := by
  unfold Dev.blkClr
  repeat' (first
    | with_reducible assumption
    | with_reducible apply Dev.setBit_canon
    | with_reducible apply Dev.flag_canon
    | with_reducible apply Dev.updateBlk_canon
    | with_reducible apply canon_ite)

end Sys2Proof.Machine
end

