-- ==== Sys2Proof/Laws/CanonSdm.lean ====
section
/-! SUPPORT. Every operation of Sys2Proof/Machine/Sdm.lean keeps the canonical form. -/

set_option Elab.async false
set_option linter.all false

namespace Sys2Proof.Machine

theorem Dev.setSdm_canon {d : Dev} (n : Nat) (x : SdmCh) (hd : d.Canon) : Dev.Canon (Dev.setSdm d n x) := by
  unfold Dev.setSdm
  repeat' (first
    | with_reducible assumption
    | with_reducible apply canon_ite
    | (unfold Dev.Canon; dsimp only; with_reducible refine canon_fold ?_))

theorem Dev.cond15_canon {d : Dev} (hd : d.Canon) : Dev.Canon (Dev.cond15 d) := by
  unfold Dev.cond15
  repeat' (first
    | intro _
    | with_reducible assumption
    | with_reducible apply Dev.srcCond_canon
    | dsimp only)

theorem Dev.guardsAfter_canon {d : Dev} (hd : d.Canon) : Dev.Canon (Dev.guardsAfter d) := by
  unfold Dev.guardsAfter
  repeat' (first
    | intro _
    | with_reducible assumption
    | with_reducible apply Dev.crim_canon
    | with_reducible apply Dev.cond15_canon
    | with_reducible apply canon_ite
    | (extract_lets +onlyGivenNames e; refine canon_have (d := e) ?_ ?_; unfold e; rotate_left; intro; clear_value e; rotate_right)
    | (extract_lets +onlyGivenNames e; clear_value e)
    | dsimp only)

theorem Dev.ochre15_canon {d : Dev} (hd : d.Canon) : Dev.Canon (Dev.ochre15 d) := by
  unfold Dev.ochre15
  repeat' (first
    | with_reducible assumption
    | with_reducible apply Dev.srcOchre_canon)

theorem Dev.estNocur_canon {d : Dev} (hd : d.Canon) : Dev.Canon (Dev.estNocur d) := by
  unfold Dev.estNocur
  repeat' (first
    | with_reducible assumption
    | with_reducible apply Dev.setBit_canon
    | with_reducible apply Dev.hw_canon
    | with_reducible apply canon_ite
    | (unfold Dev.Canon; dsimp only; with_reducible refine canon_fold ?_)
    | (extract_lets +onlyGivenNames e; refine canon_have (d := e) ?_ ?_; unfold e; rotate_left; intro; clear_value e; rotate_right)
    | (extract_lets +onlyGivenNames e; clear_value e))

theorem Dev.sdmInvalid_canon {d : Dev} (n : Nat) (hd : d.Canon) : Dev.Canon (Dev.sdmInvalid d n) := by
  unfold Dev.sdmInvalid
  repeat' (first
    | intro _
    | with_reducible assumption
    | with_reducible apply Dev.setBit_canon
    | with_reducible apply Dev.hw_canon
    | with_reducible apply Dev.crim_canon
    | with_reducible apply Dev.slotFault_canon
    | with_reducible apply Dev.slotsNext_canon
    | with_reducible apply Dev.setSdm_canon
    | with_reducible apply Dev.cond15_canon
    | with_reducible apply Dev.estNocur_canon
    | with_reducible apply canon_ite
    | with_reducible apply canon_foldl
    | (unfold Dev.Canon; dsimp only; with_reducible refine canon_fold ?_)
    | (extract_lets +onlyGivenNames e; refine canon_have (d := e) ?_ ?_; unfold e; rotate_left; intro; clear_value e; rotate_right)
    | (extract_lets +onlyGivenNames e; clear_value e)
    | dsimp only)

theorem Dev.accShow_canon {d : Dev} (hd : d.Canon) : Dev.Canon (Dev.accShow d) := by
  unfold Dev.accShow
  repeat' (first
    | with_reducible assumption
    | with_reducible apply Dev.wr_canon
    | (extract_lets +onlyGivenNames e; refine canon_have (d := e) ?_ ?_; unfold e; rotate_left; intro; clear_value e; rotate_right)
    | (extract_lets +onlyGivenNames e; clear_value e))

theorem Dev.charge_canon {d : Dev} (n : Nat) (val : Int) (ns : Nat) (hd : d.Canon) : Dev.Canon (Dev.charge d n val ns) := by
  unfold Dev.charge
  repeat' (first
    | with_reducible assumption
    | with_reducible apply Dev.accShow_canon
    | with_reducible apply canon_ite
    | (unfold Dev.Canon; dsimp only; with_reducible refine canon_fold ?_)
    | (extract_lets +onlyGivenNames e; refine canon_have (d := e) ?_ ?_; unfold e; rotate_left; intro; clear_value e; rotate_right)
    | (extract_lets +onlyGivenNames e; clear_value e))

theorem Dev.warnCheck_canon {d : Dev} (n : Nat) (hd : d.Canon) : Dev.Canon (Dev.warnCheck d n) := by
  unfold Dev.warnCheck
  repeat' (first
    | with_reducible assumption
    | with_reducible apply Dev.setBit_canon
    | with_reducible apply Dev.ochre15_canon
    | (extract_lets +onlyGivenNames e; refine canon_have (d := e) ?_ ?_; unfold e; rotate_left; intro; clear_value e; rotate_right)
    | (extract_lets +onlyGivenNames e; clear_value e))

theorem Dev.sinc3_canon {d : Dev} (n out : Nat) (hd : d.Canon) : Dev.Canon (Dev.sinc3 d n out) := by
  unfold Dev.sinc3
  repeat' (first
    | with_reducible assumption
    | with_reducible apply Dev.wr_canon
    | with_reducible apply Dev.setFld_canon
    | with_reducible apply Dev.setBit_canon
    | with_reducible apply Dev.start_canon
    | with_reducible apply Dev.settle_canon
    | with_reducible apply Dev.slotsNext_canon
    | with_reducible apply Dev.slotEvent_canon
    | with_reducible apply Dev.slotsSample_canon
    | with_reducible apply Dev.setSdm_canon
    | with_reducible apply Dev.charge_canon
    | with_reducible apply Dev.warnCheck_canon
    | with_reducible apply canon_ite
    | (unfold Dev.Canon; dsimp only; with_reducible refine canon_fold ?_)
    | (extract_lets +onlyGivenNames e; refine canon_have (d := e) ?_ ?_; unfold e; rotate_left; intro; clear_value e; rotate_right)
    | (extract_lets +onlyGivenNames e; clear_value e))

theorem Dev.sinc3Sample_canon {d : Dev} (n out : Nat) (hd : d.Canon) : Dev.Canon (Dev.sinc3Sample d n out) := by
  unfold Dev.sinc3Sample
  repeat' (first
    | with_reducible assumption
    | with_reducible apply Dev.setBit_canon
    | with_reducible apply Dev.start_canon
    | with_reducible apply Dev.hw_canon
    | with_reducible apply Dev.setSdm_canon
    | with_reducible apply Dev.cond15_canon
    | with_reducible apply Dev.estNocur_canon
    | with_reducible apply Dev.sinc3_canon
    | with_reducible apply canon_ite
    | (unfold Dev.Canon; dsimp only; with_reducible refine canon_fold ?_)
    | (extract_lets +onlyGivenNames e; refine canon_have (d := e) ?_ ?_; unfold e; rotate_left; intro; clear_value e; rotate_right)
    | (extract_lets +onlyGivenNames e; clear_value e))

theorem Dev.sinc2Sample_canon {d : Dev} (n out : Nat) (hd : d.Canon) : Dev.Canon (Dev.sinc2Sample d n out) := by
  unfold Dev.sinc2Sample
  repeat' (first
    | with_reducible assumption
    | with_reducible apply Dev.setFld_canon
    | with_reducible apply Dev.setBit_canon
    | with_reducible apply Dev.flag_canon
    | with_reducible apply Dev.hw_canon
    | with_reducible apply Dev.updateBlk_canon
    | with_reducible apply Dev.crim_canon
    | with_reducible apply Dev.setSdm_canon
    | with_reducible apply Dev.cond15_canon
    | with_reducible apply canon_ite
    | (unfold Dev.Canon; dsimp only; with_reducible refine canon_fold ?_)
    | (extract_lets +onlyGivenNames e; refine canon_have (d := e) ?_ ?_; unfold e; rotate_left; intro; clear_value e; rotate_right)
    | (extract_lets +onlyGivenNames e; clear_value e))

theorem Dev.sdmSync_canon {d : Dev} (hd : d.Canon) : Dev.Canon (Dev.sdmSync d) := by
  unfold Dev.sdmSync
  repeat' (first
    | intro _
    | with_reducible assumption
    | with_reducible apply Dev.setBit_canon
    | with_reducible apply Dev.settle_canon
    | with_reducible apply Dev.setSdm_canon
    | with_reducible apply canon_ite
    | with_reducible apply canon_foldl
    | (unfold Dev.Canon; dsimp only; with_reducible refine canon_fold ?_)
    | (extract_lets +onlyGivenNames e; refine canon_have (d := e) ?_ ?_; unfold e; rotate_left; intro; clear_value e; rotate_right)
    | (extract_lets +onlyGivenNames e; clear_value e)
    | dsimp only)

theorem Dev.sdmCtl_canon {d : Dev} (v : Word) (hd : d.Canon) : Dev.Canon (Dev.sdmCtl d v) := by
  unfold Dev.sdmCtl
  repeat' (first
    | intro _
    | with_reducible assumption
    | with_reducible apply Dev.plainWrite_canon
    | with_reducible apply Dev.sdmInvalid_canon
    | with_reducible apply Dev.sdmSync_canon
    | with_reducible apply canon_ite
    | with_reducible apply canon_foldl
    | (extract_lets +onlyGivenNames e; refine canon_have (d := e) ?_ ?_; unfold e; rotate_left; intro; clear_value e; rotate_right)
    | (extract_lets +onlyGivenNames e; clear_value e)
    | dsimp only)

theorem Dev.ckDiv_canon {d : Dev} (v : Word) (hd : d.Canon) : Dev.Canon (Dev.ckDiv d v) := by
  unfold Dev.ckDiv
  repeat' (first
    | with_reducible assumption
    | with_reducible apply Dev.wr_canon
    | with_reducible apply canon_ite
    | (extract_lets +onlyGivenNames e; refine canon_have (d := e) ?_ ?_; unfold e; rotate_left; intro; clear_value e; rotate_right)
    | (extract_lets +onlyGivenNames e; clear_value e))

theorem Dev.sdmCfg_canon {d : Dev} (n : Nat) (v : Word) (hd : d.Canon) : Dev.Canon (Dev.sdmCfg d n v) := by
  unfold Dev.sdmCfg
  repeat' (first
    | with_reducible assumption
    | with_reducible apply Dev.plainWrite_canon
    | with_reducible apply Dev.crim_canon
    | with_reducible apply Dev.cond15_canon
    | with_reducible apply Dev.warnCheck_canon
    | with_reducible apply canon_ite
    | (extract_lets +onlyGivenNames e; refine canon_have (d := e) ?_ ?_; unfold e; rotate_left; intro; clear_value e; rotate_right)
    | (extract_lets +onlyGivenNames e; clear_value e))

theorem Dev.sdmCmp_canon {d : Dev} (n : Nat) (v : Word) (hd : d.Canon) : Dev.Canon (Dev.sdmCmp d n v) := by
  unfold Dev.sdmCmp
  repeat' (first
    | with_reducible assumption
    | with_reducible apply Dev.plainWrite_canon
    | with_reducible apply Dev.cond15_canon)

theorem Dev.sdmWarn_canon {d : Dev} (n : Nat) (v : Word) (hd : d.Canon) : Dev.Canon (Dev.sdmWarn d n v) := by
  unfold Dev.sdmWarn
  repeat' (first
    | with_reducible assumption
    | with_reducible apply Dev.plainWrite_canon
    | with_reducible apply Dev.warnCheck_canon)

theorem Dev.estCurWrite_canon {d : Dev} (a : Nat) (v : Word) (hd : d.Canon) : Dev.Canon (Dev.estCurWrite d a v) := by
  unfold Dev.estCurWrite
  repeat' (first
    | with_reducible assumption
    | with_reducible apply Dev.plainWrite_canon
    | with_reducible apply Dev.estNocur_canon
    | with_reducible apply Dev.accShow_canon
    | with_reducible apply canon_ite
    | (unfold Dev.Canon; dsimp only; with_reducible refine canon_fold ?_)
    | (extract_lets +onlyGivenNames e; refine canon_have (d := e) ?_ ?_; unfold e; rotate_left; intro; clear_value e; rotate_right)
    | (extract_lets +onlyGivenNames e; clear_value e))

theorem Dev.currentLatch_canon {d : Dev} (hd : d.Canon) : Dev.Canon (Dev.currentLatch d) := by
  unfold Dev.currentLatch
  repeat' (first
    | with_reducible assumption
    | with_reducible apply Dev.wr_canon
    | with_reducible apply Dev.estNocur_canon
    | with_reducible apply canon_ite
    | (extract_lets +onlyGivenNames e; refine canon_have (d := e) ?_ ?_; unfold e; rotate_left; intro; clear_value e; rotate_right)
    | (extract_lets +onlyGivenNames e; clear_value e))

end Sys2Proof.Machine
end

