-- ==== Sys2Proof/Laws/CanonRing.lean ====
section
/-! SUPPORT. Every operation of Sys2Proof/Machine/Ring.lean keeps the canonical form. -/

set_option Elab.async false
set_option linter.all false

namespace Sys2Proof.Machine

theorem Dev.laneBusy_canon {d : Dev} (n : Nat) (hd : d.Canon) : Dev.Canon (Dev.laneBusy d n) := by
  unfold Dev.laneBusy
  repeat' (first
    | with_reducible assumption
    | (unfold Dev.Canon; dsimp only; with_reducible refine canon_fold ?_)
    | (extract_lets +onlyGivenNames e; refine canon_have (d := e) ?_ ?_; unfold e; rotate_left; intro; clear_value e; rotate_right)
    | (extract_lets +onlyGivenNames e; clear_value e))

theorem Dev.partnerFrame_canon {d : Dev} (data : List Nat) (hd : d.Canon) : Dev.Canon (Dev.partnerFrame d data) := by
  unfold Dev.partnerFrame
  repeat' (first
    | with_reducible assumption
    | with_reducible apply Dev.send_canon
    | with_reducible apply canon_ite
    | (extract_lets +onlyGivenNames e; refine canon_have (d := e) ?_ ?_; unfold e; rotate_left; intro; clear_value e; rotate_right)
    | (extract_lets +onlyGivenNames e; clear_value e))

theorem Dev.ringSend_canon {d : Dev} (kind : Nat) (data : List Nat) (hd : d.Canon) : Dev.Canon (Dev.ringSend d kind data) := by
  unfold Dev.ringSend
  repeat' (first
    | intro _
    | with_reducible assumption
    | with_reducible apply Dev.send_canon
    | with_reducible apply Dev.laneBusy_canon
    | with_reducible apply Dev.partnerFrame_canon
    | with_reducible apply canon_ite
    | with_reducible apply canon_foldl
    | (extract_lets +onlyGivenNames e; refine canon_have (d := e) ?_ ?_; unfold e; rotate_left; intro; clear_value e; rotate_right)
    | (extract_lets +onlyGivenNames e; clear_value e)
    | dsimp only)

theorem Dev.frameSend_canon {d : Dev} (cmd dst arg : Nat) (pay : List Nat) (hd : d.Canon) : Dev.Canon (Dev.frameSend d cmd dst arg pay) := by
  unfold Dev.frameSend
  repeat' (first
    | with_reducible assumption
    | with_reducible apply Dev.ringSend_canon)

theorem Dev.endSend_canon {d : Dev} (far : Bool) (cmd dst arg : Nat) (pay : List Nat) (hd : d.Canon) : Dev.Canon (Dev.endSend d far cmd dst arg pay) := by
  unfold Dev.endSend
  repeat' (first
    | intro _
    | with_reducible assumption
    | with_reducible apply Dev.send_canon
    | with_reducible apply Dev.laneBusy_canon
    | with_reducible apply canon_ite
    | with_reducible apply canon_foldl
    | dsimp only)

theorem Dev.portSend_canon {d : Dev} (x : Bool) (kind : Nat) (data : List Nat) (hd : d.Canon) : Dev.Canon (Dev.portSend d x kind data) := by
  unfold Dev.portSend
  repeat' (first
    | with_reducible assumption
    | with_reducible apply Dev.send_canon
    | with_reducible apply Dev.laneBusy_canon
    | with_reducible apply canon_ite)

theorem Dev.setNode_canon {d : Dev} (k hi lo v : Nat) (hd : d.Canon) : Dev.Canon (Dev.setNode d k hi lo v) := by
  unfold Dev.setNode
  repeat' (first
    | with_reducible assumption
    | with_reducible apply Dev.setFld_canon)

theorem Dev.lagSet_canon {d : Dev} (k st : Nat) (hd : d.Canon) : Dev.Canon (Dev.lagSet d k st) := by
  unfold Dev.lagSet
  repeat' (first
    | with_reducible assumption
    | with_reducible apply Dev.hw_canon
    | with_reducible apply Dev.setNode_canon
    | with_reducible apply canon_ite
    | (unfold Dev.Canon; dsimp only; with_reducible refine canon_fold ?_)
    | (extract_lets +onlyGivenNames e; refine canon_have (d := e) ?_ ?_; unfold e; rotate_left; intro; clear_value e; rotate_right)
    | (extract_lets +onlyGivenNames e; clear_value e))

theorem Dev.setTof_canon {d : Dev} (x : Bool) (k : Nat) (t : Option Nat) (hd : d.Canon) : Dev.Canon (Dev.setTof d x k t) := by
  unfold Dev.setTof
  repeat' (first
    | with_reducible assumption
    | with_reducible apply Dev.wr_canon
    | split
    | with_reducible refine canon_snd ?_ (by with_reducible assumption)
    | with_reducible refine canon_fst ?_ (by with_reducible assumption)
    | dsimp only)

theorem Dev.rttNote_canon {d : Dev} (far : Bool) (l : List (BitVec 24)) (hd : d.Canon) : Dev.Canon (Dev.rttNote d far l) := by
  unfold Dev.rttNote
  repeat' (first
    | with_reducible assumption
    | with_reducible apply Dev.setFld_canon
    | with_reducible apply canon_ite
    | split
    | with_reducible refine canon_snd ?_ (by with_reducible assumption)
    | with_reducible refine canon_fst ?_ (by with_reducible assumption)
    | dsimp only)

theorem Dev.delayWrite_canon {d : Dev} (tref k : Nat) (hd : d.Canon) : Dev.Canon (Dev.delayWrite d tref k) := by
  unfold Dev.delayWrite
  repeat' (first
    | with_reducible assumption
    | with_reducible apply Dev.frameSend_canon)

theorem Dev.owAbort_canon {d : Dev} (hd : d.Canon) : Dev.Canon (Dev.owAbort d) := by
  unfold Dev.owAbort
  repeat' (first
    | with_reducible assumption
    | with_reducible apply Dev.setBit_canon
    | with_reducible apply Dev.frameSend_canon
    | (unfold Dev.Canon; dsimp only; with_reducible refine canon_fold ?_)
    | (extract_lets +onlyGivenNames e; refine canon_have (d := e) ?_ ?_; unfold e; rotate_left; intro; clear_value e; rotate_right)
    | (extract_lets +onlyGivenNames e; clear_value e)
    | split
    | with_reducible refine canon_snd ?_ (by with_reducible assumption)
    | with_reducible refine canon_fst ?_ (by with_reducible assumption)
    | dsimp only)

theorem Dev.ringSet_canon {d : Dev} (st : Nat) (hd : d.Canon) : Dev.Canon (Dev.ringSet d st) := by
  unfold Dev.ringSet
  repeat' (first
    | intro _
    | with_reducible assumption
    | with_reducible apply Dev.setFld_canon
    | with_reducible apply Dev.stop_canon
    | with_reducible apply Dev.hw_canon
    | with_reducible apply Dev.lagSet_canon
    | with_reducible apply Dev.owAbort_canon
    | with_reducible apply canon_ite
    | with_reducible apply canon_foldl
    | (unfold Dev.Canon; dsimp only; with_reducible refine canon_fold ?_)
    | (extract_lets +onlyGivenNames e; refine canon_have (d := e) ?_ ?_; unfold e; rotate_left; intro; clear_value e; rotate_right)
    | (extract_lets +onlyGivenNames e; clear_value e)
    | dsimp only)

theorem Dev.ringBreak_canon {d : Dev} (hd : d.Canon) : Dev.Canon (Dev.ringBreak d) := by
  unfold Dev.ringBreak
  repeat' (first
    | with_reducible assumption
    | with_reducible apply Dev.ringSet_canon
    | with_reducible apply canon_ite)

theorem Dev.brk_canon {d : Dev} (x : Bool) (k : Nat) (hd : d.Canon) : Dev.Canon (Dev.brk d x k) := by
  unfold Dev.brk
  repeat' (first
    | with_reducible assumption
    | with_reducible apply Dev.setFld_canon
    | with_reducible apply canon_ite)

theorem Dev.ringLinkUp_canon {d : Dev} (x : Bool) (hd : d.Canon) : Dev.Canon (Dev.ringLinkUp d x) := by
  unfold Dev.ringLinkUp
  repeat' (first
    | with_reducible assumption
    | with_reducible apply Dev.setBit_canon
    | with_reducible apply Dev.start_canon
    | with_reducible apply canon_ite
    | (extract_lets +onlyGivenNames e; refine canon_have (d := e) ?_ ?_; unfold e; rotate_left; intro; clear_value e; rotate_right)
    | (extract_lets +onlyGivenNames e; clear_value e))

theorem Dev.ringLos_canon {d : Dev} (x : Bool) (hd : d.Canon) : Dev.Canon (Dev.ringLos d x) := by
  unfold Dev.ringLos
  repeat' (first
    | with_reducible assumption
    | with_reducible apply Dev.setBit_canon
    | with_reducible apply Dev.flag_canon
    | with_reducible apply Dev.hw_canon
    | with_reducible apply Dev.ringBreak_canon
    | with_reducible apply Dev.brk_canon
    | with_reducible apply canon_ite
    | (extract_lets +onlyGivenNames e; refine canon_have (d := e) ?_ ?_; unfold e; rotate_left; intro; clear_value e; rotate_right)
    | (extract_lets +onlyGivenNames e; clear_value e))

theorem Dev.ringDownExit_canon {d : Dev} (hd : d.Canon) : Dev.Canon (Dev.ringDownExit d) := by
  unfold Dev.ringDownExit
  repeat' (first
    | with_reducible assumption
    | with_reducible apply Dev.ringSet_canon
    | with_reducible apply canon_ite)

theorem Dev.faultReceive_canon {d : Dev} (x : Bool) (a p c : Nat) (hd : d.Canon) : Dev.Canon (Dev.faultReceive d x a p c) := by
  unfold Dev.faultReceive
  repeat' (first
    | with_reducible assumption
    | with_reducible apply Dev.flag_canon
    | with_reducible apply Dev.start_canon
    | with_reducible apply Dev.ringBreak_canon
    | with_reducible apply Dev.brk_canon
    | with_reducible apply canon_ite
    | (extract_lets +onlyGivenNames e; refine canon_have (d := e) ?_ ?_; unfold e; rotate_left; intro; clear_value e; rotate_right)
    | (extract_lets +onlyGivenNames e; clear_value e))

theorem Dev.frameEnd_canon {d : Dev} (x : Bool) (fin : FrameEnd) (hd : d.Canon) : Dev.Canon (Dev.frameEnd d x fin) := by
  unfold Dev.frameEnd
  repeat' (first
    | with_reducible assumption
    | with_reducible apply Dev.setBit_canon
    | with_reducible apply Dev.flag_canon
    | with_reducible apply Dev.satInc_canon
    | (extract_lets +onlyGivenNames e; refine canon_have (d := e) ?_ ?_; unfold e; rotate_left; intro; clear_value e; rotate_right)
    | (extract_lets +onlyGivenNames e; clear_value e)
    | split
    | with_reducible refine canon_snd ?_ (by with_reducible assumption)
    | with_reducible refine canon_fst ?_ (by with_reducible assumption)
    | dsimp only)

theorem Dev.healGo_canon {d : Dev} (hd : d.Canon) : Dev.Canon (Dev.healGo d) := by
  unfold Dev.healGo
  repeat' (first
    | with_reducible assumption
    | with_reducible apply Dev.start_canon
    | with_reducible apply Dev.frameSend_canon
    | with_reducible apply Dev.ringSet_canon)

theorem Dev.healTry_canon {d : Dev} (hd : d.Canon) : Dev.Canon (Dev.healTry d) := by
  unfold Dev.healTry
  repeat' (first
    | with_reducible assumption
    | with_reducible apply Dev.healGo_canon
    | with_reducible apply canon_ite)

theorem Dev.healSend_canon {d : Dev} (linkOk : Bool) (hd : d.Canon) : Dev.Canon (Dev.healSend d linkOk) := by
  unfold Dev.healSend
  repeat' (first
    | with_reducible assumption
    | with_reducible apply Dev.start_canon
    | with_reducible apply Dev.stop_canon
    | with_reducible apply Dev.healTry_canon
    | with_reducible apply canon_ite)

theorem Dev.skCtl_canon {d : Dev} (x : Nat) (v : Word) (hd : d.Canon) : Dev.Canon (Dev.skCtl d x v) := by
  unfold Dev.skCtl
  repeat' (first
    | with_reducible assumption
    | with_reducible apply Dev.wr_canon
    | with_reducible apply Dev.setBit_canon
    | with_reducible apply Dev.plainWrite_canon
    | with_reducible apply Dev.ringSet_canon
    | with_reducible apply Dev.healTry_canon
    | with_reducible apply canon_ite
    | (extract_lets +onlyGivenNames e; refine canon_have (d := e) ?_ ?_; unfold e; rotate_left; intro; clear_value e; rotate_right)
    | (extract_lets +onlyGivenNames e; clear_value e))

theorem Dev.rearm_canon {d : Dev} (k : Nat) (v : Word) (hd : d.Canon) : Dev.Canon (Dev.rearm d k v) := by
  unfold Dev.rearm
  repeat' (first
    | with_reducible assumption
    | with_reducible apply Dev.lagSet_canon
    | with_reducible apply canon_ite)

theorem Dev.setCmd_canon {d : Dev} (x : Bool) (c : Option (Nat × Nat × Bool)) (hd : d.Canon) : Dev.Canon (Dev.setCmd d x c) := by
  unfold Dev.setCmd
  repeat' (first
    | with_reducible assumption
    | with_reducible apply Dev.setBit_canon
    | with_reducible apply canon_ite
    | (unfold Dev.Canon; dsimp only; with_reducible refine canon_fold ?_)
    | (extract_lets +onlyGivenNames e; refine canon_have (d := e) ?_ ?_; unfold e; rotate_left; intro; clear_value e; rotate_right)
    | (extract_lets +onlyGivenNames e; clear_value e))

theorem Dev.cmdGo_canon {d : Dev} (x : Bool) (v : Word) (hd : d.Canon) : Dev.Canon (Dev.cmdGo d x v) := by
  unfold Dev.cmdGo
  repeat' (first
    | with_reducible assumption
    | with_reducible apply Dev.flag_canon
    | with_reducible apply Dev.setCmd_canon
    | with_reducible apply canon_ite
    | (extract_lets +onlyGivenNames e; refine canon_have (d := e) ?_ ?_; unfold e; rotate_left; intro; clear_value e; rotate_right)
    | (extract_lets +onlyGivenNames e; clear_value e))

theorem Dev.cmdState_canon {d : Dev} (cmd : Nat) (hd : d.Canon) : Dev.Canon (Dev.cmdState d cmd) := by
  unfold Dev.cmdState
  repeat' (first
    | with_reducible assumption
    | with_reducible apply Dev.ringSet_canon
    | with_reducible apply canon_ite
    | (unfold Dev.Canon; dsimp only; with_reducible refine canon_fold ?_)
    | (extract_lets +onlyGivenNames e; refine canon_have (d := e) ?_ ?_; unfold e; rotate_left; intro; clear_value e; rotate_right)
    | (extract_lets +onlyGivenNames e; clear_value e))

theorem Dev.cmdSend_canon {d : Dev} (x : Bool) (hd : d.Canon) : Dev.Canon (Dev.cmdSend d x) := by
  unfold Dev.cmdSend
  repeat' (first
    | with_reducible assumption
    | with_reducible apply Dev.flag_canon
    | with_reducible apply Dev.start_canon
    | with_reducible apply Dev.partnerFrame_canon
    | with_reducible apply Dev.portSend_canon
    | with_reducible apply Dev.setCmd_canon
    | with_reducible apply Dev.cmdState_canon
    | with_reducible apply canon_ite
    | (extract_lets +onlyGivenNames e; refine canon_have (d := e) ?_ ?_; unfold e; rotate_left; intro; clear_value e; rotate_right)
    | (extract_lets +onlyGivenNames e; clear_value e)
    | split
    | with_reducible refine canon_snd ?_ (by with_reducible assumption)
    | with_reducible refine canon_fst ?_ (by with_reducible assumption)
    | dsimp only)

theorem Dev.healFail_canon {d : Dev} (hd : d.Canon) : Dev.Canon (Dev.healFail d) := by
  unfold Dev.healFail
  repeat' (first
    | with_reducible assumption
    | with_reducible apply Dev.fw_canon
    | with_reducible apply Dev.ringSet_canon)

theorem Dev.healPass_canon {d : Dev} (hd : d.Canon) : Dev.Canon (Dev.healPass d) := by
  unfold Dev.healPass
  repeat' (first
    | with_reducible assumption
    | with_reducible apply Dev.fw_canon
    | with_reducible apply Dev.ringSet_canon
    | with_reducible apply canon_ite
    | (unfold Dev.Canon; dsimp only; with_reducible refine canon_fold ?_)
    | (extract_lets +onlyGivenNames e; refine canon_have (d := e) ?_ ?_; unfold e; rotate_left; intro; clear_value e; rotate_right)
    | (extract_lets +onlyGivenNames e; clear_value e))

theorem Dev.healDone_canon {d : Dev} (ok : Bool) (hd : d.Canon) : Dev.Canon (Dev.healDone d ok) := by
  unfold Dev.healDone
  repeat' (first
    | with_reducible assumption
    | with_reducible apply Dev.stop_canon
    | with_reducible apply Dev.healFail_canon
    | with_reducible apply Dev.healPass_canon
    | with_reducible apply canon_ite
    | (unfold Dev.Canon; dsimp only; with_reducible refine canon_fold ?_)
    | (extract_lets +onlyGivenNames e; refine canon_have (d := e) ?_ ?_; unfold e; rotate_left; intro; clear_value e; rotate_right)
    | (extract_lets +onlyGivenNames e; clear_value e))

theorem Dev.healNext_canon {d : Dev} (k : Nat) (ok : Bool) (hd : d.Canon) : Dev.Canon (Dev.healNext d k ok) := by
  unfold Dev.healNext
  repeat' (first
    | with_reducible assumption
    | with_reducible apply Dev.healFail_canon
    | with_reducible apply Dev.healPass_canon
    | with_reducible apply canon_ite
    | (unfold Dev.Canon; dsimp only; with_reducible refine canon_fold ?_)
    | (extract_lets +onlyGivenNames e; refine canon_have (d := e) ?_ ?_; unfold e; rotate_left; intro; clear_value e; rotate_right)
    | (extract_lets +onlyGivenNames e; clear_value e))

theorem Dev.cmdAnswer_canon {d : Dev} (x : Bool) (fin : FrameEnd) (rtt : Nat) (frame : List Byte) (healOk : Bool) (hd : d.Canon) : Dev.Canon (Dev.cmdAnswer d x fin rtt frame healOk) := by
  unfold Dev.cmdAnswer
  repeat' (first
    | with_reducible assumption
    | with_reducible apply Dev.setFld_canon
    | with_reducible apply Dev.flag_canon
    | with_reducible apply Dev.portFrame_canon
    | with_reducible apply Dev.agentStore_canon
    | with_reducible apply Dev.frameEnd_canon
    | with_reducible apply Dev.setCmd_canon
    | with_reducible apply Dev.healDone_canon
    | with_reducible apply canon_ite
    | (extract_lets +onlyGivenNames e; refine canon_have (d := e) ?_ ?_; unfold e; rotate_left; intro; clear_value e; rotate_right)
    | (extract_lets +onlyGivenNames e; clear_value e)
    | split
    | with_reducible refine canon_snd ?_ (by with_reducible assumption)
    | with_reducible refine canon_fst ?_ (by with_reducible assumption)
    | dsimp only)

theorem Dev.cmdTimeout_canon {d : Dev} (x : Bool) (hd : d.Canon) : Dev.Canon (Dev.cmdTimeout d x) := by
  unfold Dev.cmdTimeout
  repeat' (first
    | with_reducible assumption
    | with_reducible apply Dev.flag_canon
    | with_reducible apply Dev.setCmd_canon
    | with_reducible apply Dev.healDone_canon
    | with_reducible apply canon_ite
    | (extract_lets +onlyGivenNames e; refine canon_have (d := e) ?_ ?_; unfold e; rotate_left; intro; clear_value e; rotate_right)
    | (extract_lets +onlyGivenNames e; clear_value e)
    | split
    | with_reducible refine canon_snd ?_ (by with_reducible assumption)
    | with_reducible refine canon_fst ?_ (by with_reducible assumption)
    | dsimp only)

theorem Dev.chmCount_canon {d : Dev} (hd : d.Canon) : Dev.Canon (Dev.chmCount d) := by
  unfold Dev.chmCount
  repeat' (first
    | intro _
    | with_reducible assumption
    | with_reducible apply Dev.wr_canon
    | (extract_lets +onlyGivenNames e; refine canon_have (d := e) ?_ ?_; unfold e; rotate_left; intro; clear_value e; rotate_right)
    | (extract_lets +onlyGivenNames e; clear_value e)
    | dsimp only)

theorem Dev.setChan_canon {d : Dev} (i : Nat) (c : Chan) (hd : d.Canon) : Dev.Canon (Dev.setChan d i c) := by
  unfold Dev.setChan
  repeat' (first
    | with_reducible assumption
    | with_reducible apply canon_ite
    | (unfold Dev.Canon; dsimp only; with_reducible refine canon_fold ?_)
    | (extract_lets +onlyGivenNames e; refine canon_have (d := e) ?_ ?_; unfold e; rotate_left; intro; clear_value e; rotate_right)
    | (extract_lets +onlyGivenNames e; clear_value e))

theorem Dev.chmStore_canon {d : Dev} (i : Nat) (v : Word) (hd : d.Canon) : Dev.Canon (Dev.chmStore d i v) := by
  unfold Dev.chmStore
  repeat' (first
    | with_reducible assumption
    | with_reducible apply Dev.plainWrite_canon
    | with_reducible apply Dev.setChan_canon
    | with_reducible apply canon_ite
    | (unfold Dev.Canon; dsimp only; with_reducible refine canon_fold ?_)
    | (extract_lets +onlyGivenNames e; refine canon_have (d := e) ?_ ?_; unfold e; rotate_left; intro; clear_value e; rotate_right)
    | (extract_lets +onlyGivenNames e; clear_value e))

theorem Dev.chmEntry_canon {d : Dev} (i : Nat) (v : Word) (hd : d.Canon) : Dev.Canon (Dev.chmEntry d i v) := by
  unfold Dev.chmEntry
  repeat' (first
    | with_reducible assumption
    | with_reducible apply Dev.wr_canon
    | with_reducible apply Dev.flag_canon
    | with_reducible apply Dev.chmStore_canon
    | with_reducible apply canon_ite
    | (extract_lets +onlyGivenNames e; refine canon_have (d := e) ?_ ?_; unfold e; rotate_left; intro; clear_value e; rotate_right)
    | (extract_lets +onlyGivenNames e; clear_value e)
    | split
    | with_reducible refine canon_snd ?_ (by with_reducible assumption)
    | with_reducible refine canon_fst ?_ (by with_reducible assumption)
    | dsimp only)

theorem Dev.chmWrite_canon {d : Dev} (i : Nat) (v : Word) (hd : d.Canon) : Dev.Canon (Dev.chmWrite d i v) := by
  unfold Dev.chmWrite
  repeat' (first
    | with_reducible assumption
    | with_reducible apply Dev.chmCount_canon
    | with_reducible apply Dev.chmEntry_canon)

theorem Dev.chmIdentity_canon {d : Dev} (hd : d.Canon) : Dev.Canon (Dev.chmIdentity d) := by
  unfold Dev.chmIdentity
  repeat' (first
    | intro _
    | with_reducible assumption
    | with_reducible apply Dev.wr_canon
    | with_reducible apply Dev.setBit_canon
    | with_reducible apply Dev.hw_canon
    | with_reducible apply Dev.chmCount_canon
    | with_reducible apply canon_ite
    | with_reducible apply canon_foldl
    | (extract_lets +onlyGivenNames e; refine canon_have (d := e) ?_ ?_; unfold e; rotate_left; intro; clear_value e; rotate_right)
    | (extract_lets +onlyGivenNames e; clear_value e)
    | dsimp only)

theorem Dev.echoSend_canon {d : Dev} (k : Nat) (hd : d.Canon) : Dev.Canon (Dev.echoSend d k) := by
  unfold Dev.echoSend
  repeat' (first
    | intro _
    | with_reducible assumption
    | with_reducible apply Dev.endSend_canon
    | with_reducible apply canon_foldl
    | dsimp only)

theorem Dev.enumFrames_canon {d : Dev} (n : Nat) (hd : d.Canon) : Dev.Canon (Dev.enumFrames d n) := by
  unfold Dev.enumFrames
  repeat' (first
    | intro _
    | with_reducible assumption
    | with_reducible apply Dev.endSend_canon
    | with_reducible apply Dev.echoSend_canon
    | with_reducible apply canon_foldl
    | (extract_lets +onlyGivenNames e; refine canon_have (d := e) ?_ ?_; unfold e; rotate_left; intro; clear_value e; rotate_right)
    | (extract_lets +onlyGivenNames e; clear_value e)
    | dsimp only)

theorem Dev.enumNode_canon {d : Dev} (k : Nat) (e : EnumNode) (hd : d.Canon) : Dev.Canon (Dev.enumNode d k e) := by
  unfold Dev.enumNode
  repeat' (first
    | with_reducible assumption
    | with_reducible apply Dev.wr_canon
    | with_reducible apply Dev.lagSet_canon
    | with_reducible apply Dev.setTof_canon
    | with_reducible apply Dev.rttNote_canon
    | (unfold Dev.Canon; dsimp only; with_reducible refine canon_fold ?_)
    | (extract_lets +onlyGivenNames e; refine canon_have (d := e) ?_ ?_; unfold e; rotate_left; intro; clear_value e; rotate_right)
    | (extract_lets +onlyGivenNames e; clear_value e))

theorem Dev.wdtoSend_canon {d : Dev} (hd : d.Canon) : Dev.Canon (Dev.wdtoSend d) := by
  unfold Dev.wdtoSend
  repeat' (first
    | with_reducible assumption
    | with_reducible apply Dev.frameSend_canon
    | with_reducible apply canon_ite)

theorem Dev.greyNodes_canon {d : Dev} (n : Nat) (hd : d.Canon) : Dev.Canon (Dev.greyNodes d n) := by
  unfold Dev.greyNodes
  repeat' (first
    | with_reducible assumption
    | with_reducible apply Dev.wr_canon
    | with_reducible apply canon_ite)

theorem Dev.enumIssue_canon {d : Dev} (n : Nat) (hd : d.Canon) : Dev.Canon (Dev.enumIssue d n) := by
  unfold Dev.enumIssue
  repeat' (first
    | with_reducible assumption
    | with_reducible apply Dev.enumFrames_canon
    | with_reducible apply canon_ite)

theorem Dev.nodesNote_canon {d : Dev} (n : Nat) (hd : d.Canon) : Dev.Canon (Dev.nodesNote d n) := by
  unfold Dev.nodesNote
  repeat' (first
    | intro _
    | with_reducible assumption
    | with_reducible apply Dev.wr_canon
    | with_reducible apply canon_ite
    | (extract_lets +onlyGivenNames e; refine canon_have (d := e) ?_ ?_; unfold e; rotate_left; intro; clear_value e; rotate_right)
    | (extract_lets +onlyGivenNames e; clear_value e)
    | dsimp only)

theorem Dev.enumerate_canon {d : Dev} (hop : Nat) (nodes : List EnumNode) (transit : Nat) (hd : d.Canon) : Dev.Canon (Dev.enumerate d hop nodes transit) := by
  unfold Dev.enumerate
  repeat' (first
    | intro _
    | with_reducible assumption
    | with_reducible apply Dev.send_canon
    | with_reducible apply Dev.fw_canon
    | with_reducible apply Dev.delayWrite_canon
    | with_reducible apply Dev.ringSet_canon
    | with_reducible apply Dev.chmIdentity_canon
    | with_reducible apply Dev.enumNode_canon
    | with_reducible apply Dev.wdtoSend_canon
    | with_reducible apply Dev.greyNodes_canon
    | with_reducible apply Dev.enumIssue_canon
    | with_reducible apply Dev.nodesNote_canon
    | with_reducible apply canon_ite
    | with_reducible apply canon_foldl
    | (unfold Dev.Canon; dsimp only; with_reducible refine canon_fold ?_)
    | (extract_lets +onlyGivenNames e; refine canon_have (d := e) ?_ ?_; unfold e; rotate_left; intro; clear_value e; rotate_right)
    | (extract_lets +onlyGivenNames e; clear_value e)
    | split
    | with_reducible refine canon_snd ?_ (by with_reducible assumption)
    | with_reducible refine canon_fst ?_ (by with_reducible assumption)
    | dsimp only)

theorem Dev.tofBegin_canon {d : Dev} (hd : d.Canon) : Dev.Canon (Dev.tofBegin d) := by
  unfold Dev.tofBegin
  repeat' (first
    | with_reducible assumption
    | with_reducible apply canon_ite
    | (unfold Dev.Canon; dsimp only; with_reducible refine canon_fold ?_)
    | (extract_lets +onlyGivenNames e; refine canon_have (d := e) ?_ ?_; unfold e; rotate_left; intro; clear_value e; rotate_right)
    | (extract_lets +onlyGivenNames e; clear_value e))

theorem Dev.tofMove_canon {p : Dev × Bool} (x : Bool) (k lo : Nat) (l : List (BitVec 24)) (hp : p.1.Canon) : Dev.Canon (Dev.tofMove p x k lo l).1 := by
  unfold Dev.tofMove
  repeat' (first
    | intro _
    | with_reducible assumption
    | with_reducible apply Dev.setTof_canon
    | with_reducible apply canon_ite
    | with_reducible apply canon_ite_snd
    | with_reducible apply canon_ite_fst
    | with_reducible apply canon_foldl
    | with_reducible apply canon_foldl_fst
    | with_reducible apply canon_foldl_snd
    | (unfold Dev.Canon; dsimp only; with_reducible refine canon_fold ?_)
    | (extract_lets +onlyGivenNames d1; refine canon_have (d := d1) ?_ ?_; unfold d1; rotate_left; intro hd1; clear_value d1; rotate_right)
    | (extract_lets +onlyGivenNames d1; clear_value d1)
    | split
    | with_reducible refine canon_snd ?_ (by with_reducible assumption)
    | with_reducible refine canon_fst ?_ (by with_reducible assumption)
    | dsimp only)

theorem Dev.tofRemeasure_canon {d : Dev} (rttA rttB : List (BitVec 24)) (hd : d.Canon) : Dev.Canon (Dev.tofRemeasure d rttA rttB) := by
  unfold Dev.tofRemeasure
  repeat' (first
    | with_reducible assumption
    | with_reducible apply Dev.rttNote_canon
    | with_reducible apply Dev.delayWrite_canon
    | with_reducible apply Dev.healNext_canon
    | with_reducible apply Dev.echoSend_canon
    | with_reducible apply Dev.tofMove_canon
    | with_reducible apply canon_ite
    | (unfold Dev.Canon; dsimp only; with_reducible refine canon_fold ?_)
    | (extract_lets +onlyGivenNames e; refine canon_have (d := e) ?_ ?_; unfold e; rotate_left; intro; clear_value e; rotate_right)
    | (extract_lets +onlyGivenNames e; clear_value e)
    | split
    | with_reducible refine canon_snd ?_ (by with_reducible assumption)
    | with_reducible refine canon_fst ?_ (by with_reducible assumption)
    | dsimp only)

theorem Dev.delayRewrite_canon {d : Dev} (hd : d.Canon) : Dev.Canon (Dev.delayRewrite d) := by
  unfold Dev.delayRewrite
  repeat' (first
    | intro _
    | with_reducible assumption
    | with_reducible apply Dev.delayWrite_canon
    | with_reducible apply canon_ite
    | with_reducible apply canon_foldl
    | (unfold Dev.Canon; dsimp only; with_reducible refine canon_fold ?_)
    | (extract_lets +onlyGivenNames e; refine canon_have (d := e) ?_ ?_; unfold e; rotate_left; intro; clear_value e; rotate_right)
    | (extract_lets +onlyGivenNames e; clear_value e)
    | split
    | with_reducible refine canon_snd ?_ (by with_reducible assumption)
    | with_reducible refine canon_fst ?_ (by with_reducible assumption)
    | dsimp only)

theorem Dev.wakeSend_canon {d : Dev} (returned : Bool) (hd : d.Canon) : Dev.Canon (Dev.wakeSend d returned) := by
  unfold Dev.wakeSend
  repeat' (first
    | with_reducible assumption
    | with_reducible apply Dev.start_canon
    | with_reducible apply Dev.stop_canon
    | with_reducible apply Dev.ringSend_canon
    | with_reducible apply Dev.ringSet_canon
    | with_reducible apply Dev.ringDownExit_canon
    | with_reducible apply canon_ite
    | (unfold Dev.Canon; dsimp only; with_reducible refine canon_fold ?_)
    | (extract_lets +onlyGivenNames e; refine canon_have (d := e) ?_ ?_; unfold e; rotate_left; intro; clear_value e; rotate_right)
    | (extract_lets +onlyGivenNames e; clear_value e))

theorem Dev.ringSleep_canon {d : Dev} (hd : d.Canon) : Dev.Canon (Dev.ringSleep d) := by
  unfold Dev.ringSleep
  repeat' (first
    | with_reducible assumption
    | with_reducible apply Dev.frameSend_canon
    | with_reducible apply Dev.ringSet_canon
    | (unfold Dev.Canon; dsimp only; with_reducible refine canon_fold ?_)
    | (extract_lets +onlyGivenNames e; refine canon_have (d := e) ?_ ?_; unfold e; rotate_left; intro; clear_value e; rotate_right)
    | (extract_lets +onlyGivenNames e; clear_value e))

end Sys2Proof.Machine
end

