-- ==== Sys2Proof/Laws/CanonBal.lean ====
section
/-! SUPPORT. Every operation of Sys2Proof/Machine/Bal.lean keeps the canonical form. -/

set_option Elab.async false
set_option linter.all false

namespace Sys2Proof.Machine

theorem Dev.balFlags_canon {d : Dev} (hd : d.Canon) : Dev.Canon (Dev.balFlags d) := by
  unfold Dev.balFlags
  repeat' (first
    | intro _
    | with_reducible assumption
    | with_reducible apply Dev.flag_canon
    | with_reducible apply Dev.hw_canon
    | with_reducible apply canon_ite
    | (extract_lets +onlyGivenNames e; refine canon_have (d := e) ?_ ?_; unfold e; rotate_left; intro; clear_value e; rotate_right)
    | (extract_lets +onlyGivenNames e; clear_value e)
    | dsimp only)

theorem Dev.balanceSend_canon {d : Dev} (off : BitVec 48) (hd : d.Canon) : Dev.Canon (Dev.balanceSend d off) := by
  unfold Dev.balanceSend
  repeat' (first
    | intro _
    | with_reducible assumption
    | with_reducible apply Dev.setFld_canon
    | with_reducible apply Dev.setBit_canon
    | with_reducible apply Dev.flag_canon
    | with_reducible apply Dev.start_canon
    | with_reducible apply Dev.hw_canon
    | with_reducible apply Dev.frameSend_canon
    | with_reducible apply Dev.balFlags_canon
    | with_reducible apply canon_ite
    | with_reducible apply canon_foldl
    | with_reducible apply canon_foldl_fst
    | with_reducible apply canon_foldl_snd
    | (extract_lets +onlyGivenNames e; refine canon_have (d := e) ?_ ?_; unfold e; rotate_left; intro; clear_value e; rotate_right)
    | (extract_lets +onlyGivenNames e; clear_value e)
    | dsimp only)

theorem Dev.balCmdWrite_canon {d : Dev} (k : Nat) (v : Word) (hd : d.Canon) : Dev.Canon (Dev.balCmdWrite d k v) := by
  unfold Dev.balCmdWrite
  repeat' (first
    | with_reducible assumption
    | with_reducible apply Dev.plainWrite_canon
    | with_reducible apply Dev.start_canon)

theorem Dev.commanderTimeout_canon {d : Dev} (hd : d.Canon) : Dev.Canon (Dev.commanderTimeout d) := by
  unfold Dev.commanderTimeout
  repeat' (first
    | with_reducible assumption
    | with_reducible apply Dev.flag_canon
    | with_reducible apply Dev.stop_canon
    | with_reducible apply Dev.hw_canon
    | with_reducible apply canon_ite
    | (extract_lets +onlyGivenNames e; refine canon_have (d := e) ?_ ?_; unfold e; rotate_left; intro; clear_value e; rotate_right)
    | (extract_lets +onlyGivenNames e; clear_value e))

theorem Dev.blankCfg_canon {d : Dev} (dst : Nat) (en : Bool) (hd : d.Canon) : Dev.Canon (Dev.blankCfg d dst en) := by
  unfold Dev.blankCfg
  repeat' (first
    | with_reducible assumption
    | with_reducible apply Dev.frameSend_canon)

theorem Dev.blankFlush_canon {d : Dev} (hd : d.Canon) : Dev.Canon (Dev.blankFlush d) := by
  unfold Dev.blankFlush
  repeat' (first
    | with_reducible assumption
    | with_reducible apply Dev.blankCfg_canon
    | with_reducible apply canon_ite
    | (unfold Dev.Canon; dsimp only; with_reducible refine canon_fold ?_)
    | (extract_lets +onlyGivenNames e; refine canon_have (d := e) ?_ ?_; unfold e; rotate_left; intro; clear_value e; rotate_right)
    | (extract_lets +onlyGivenNames e; clear_value e))

theorem Dev.balCtl_canon {d : Dev} (src : Writer) (v : Word) (hd : d.Canon) : Dev.Canon (Dev.balCtl d src v) := by
  unfold Dev.balCtl
  repeat' (first
    | with_reducible assumption
    | with_reducible apply Dev.plainWrite_canon
    | with_reducible apply Dev.blankFlush_canon
    | with_reducible apply canon_ite
    | (unfold Dev.Canon; dsimp only; with_reducible refine canon_fold ?_)
    | (extract_lets +onlyGivenNames e; refine canon_have (d := e) ?_ ?_; unfold e; rotate_left; intro; clear_value e; rotate_right)
    | (extract_lets +onlyGivenNames e; clear_value e))

theorem Dev.lrnAbort_canon {d : Dev} (hd : d.Canon) : Dev.Canon (Dev.lrnAbort d) := by
  unfold Dev.lrnAbort
  repeat' (first
    | with_reducible assumption
    | with_reducible apply Dev.wr_canon
    | (unfold Dev.Canon; dsimp only; with_reducible refine canon_fold ?_)
    | (extract_lets +onlyGivenNames e; refine canon_have (d := e) ?_ ?_; unfold e; rotate_left; intro; clear_value e; rotate_right)
    | (extract_lets +onlyGivenNames e; clear_value e))

theorem Dev.lrnBegin_canon {d : Dev} (hd : d.Canon) : Dev.Canon (Dev.lrnBegin d) := by
  unfold Dev.lrnBegin
  repeat' (first
    | with_reducible assumption
    | with_reducible apply Dev.setBit_canon
    | with_reducible apply Dev.frameSend_canon
    | with_reducible apply Dev.blankCfg_canon
    | with_reducible apply Dev.lrnAbort_canon
    | with_reducible apply canon_ite
    | (unfold Dev.Canon; dsimp only; with_reducible refine canon_fold ?_)
    | (extract_lets +onlyGivenNames e; refine canon_have (d := e) ?_ ?_; unfold e; rotate_left; intro; clear_value e; rotate_right)
    | (extract_lets +onlyGivenNames e; clear_value e)
    | split
    | with_reducible refine canon_snd ?_ (by with_reducible assumption)
    | with_reducible refine canon_fst ?_ (by with_reducible assumption)
    | dsimp only)

theorem Dev.lrnWrite_canon {d : Dev} (v : Word) (hd : d.Canon) : Dev.Canon (Dev.lrnWrite d v) := by
  unfold Dev.lrnWrite
  repeat' (first
    | with_reducible assumption
    | with_reducible apply Dev.wr_canon
    | with_reducible apply Dev.lrnBegin_canon
    | with_reducible apply canon_ite
    | (unfold Dev.Canon; dsimp only; with_reducible refine canon_fold ?_)
    | (extract_lets +onlyGivenNames e; refine canon_have (d := e) ?_ ?_; unfold e; rotate_left; intro; clear_value e; rotate_right)
    | (extract_lets +onlyGivenNames e; clear_value e))

theorem Dev.lrnIdle_canon {d : Dev} (ow : Nat) (hd : d.Canon) : Dev.Canon (Dev.lrnIdle d ow) := by
  unfold Dev.lrnIdle
  repeat' (first
    | intro _
    | with_reducible assumption
    | with_reducible apply Dev.start_canon
    | with_reducible apply Dev.lrnWrite_canon
    | with_reducible apply canon_ite
    | (unfold Dev.Canon; dsimp only; with_reducible refine canon_fold ?_)
    | (extract_lets +onlyGivenNames e; refine canon_have (d := e) ?_ ?_; unfold e; rotate_left; intro; clear_value e; rotate_right)
    | (extract_lets +onlyGivenNames e; clear_value e)
    | split
    | with_reducible refine canon_snd ?_ (by with_reducible assumption)
    | with_reducible refine canon_fst ?_ (by with_reducible assumption)
    | dsimp only)

theorem Dev.rwireLearn_canon {d : Dev} (k w : Nat) (num den : Int) (hd : d.Canon) : Dev.Canon (Dev.rwireLearn d k w num den) := by
  unfold Dev.rwireLearn
  repeat' (first
    | with_reducible assumption
    | with_reducible apply Dev.wr_canon
    | with_reducible apply Dev.fw_canon
    | with_reducible apply canon_ite
    | (extract_lets +onlyGivenNames e; refine canon_have (d := e) ?_ ?_; unfold e; rotate_left; intro; clear_value e; rotate_right)
    | (extract_lets +onlyGivenNames e; clear_value e))

theorem Dev.lrnResult_canon {d : Dev} (p : WirePass) (hd : d.Canon) : Dev.Canon (Dev.lrnResult d p) := by
  unfold Dev.lrnResult
  repeat' (first
    | with_reducible assumption
    | with_reducible apply Dev.rwireLearn_canon
    | with_reducible apply canon_ite
    | (extract_lets +onlyGivenNames e; refine canon_have (d := e) ?_ ?_; unfold e; rotate_left; intro; clear_value e; rotate_right)
    | (extract_lets +onlyGivenNames e; clear_value e)
    | split
    | with_reducible refine canon_snd ?_ (by with_reducible assumption)
    | with_reducible refine canon_fst ?_ (by with_reducible assumption)
    | dsimp only)

theorem Dev.lrnFinish_canon {d : Dev} (hd : d.Canon) : Dev.Canon (Dev.lrnFinish d) := by
  unfold Dev.lrnFinish
  repeat' (first
    | intro _
    | with_reducible assumption
    | with_reducible apply Dev.wr_canon
    | with_reducible apply Dev.setBit_canon
    | with_reducible apply Dev.frameSend_canon
    | with_reducible apply Dev.blankCfg_canon
    | with_reducible apply Dev.lrnResult_canon
    | with_reducible apply canon_ite
    | with_reducible apply canon_foldl
    | (unfold Dev.Canon; dsimp only; with_reducible refine canon_fold ?_)
    | (extract_lets +onlyGivenNames e; refine canon_have (d := e) ?_ ?_; unfold e; rotate_left; intro; clear_value e; rotate_right)
    | (extract_lets +onlyGivenNames e; clear_value e)
    | split
    | with_reducible refine canon_snd ?_ (by with_reducible assumption)
    | with_reducible refine canon_fst ?_ (by with_reducible assumption)
    | dsimp only)

end Sys2Proof.Machine
end

