-- ==== Sys2Proof/Laws/CanonSmb.lean ====
section
/-! SUPPORT. Every operation of Sys2Proof/Machine/Smb.lean keeps the canonical form. -/

set_option Elab.async false
set_option linter.all false

namespace Sys2Proof.Machine

theorem Dev.smbLast_canon {d : Dev} (slot code : Nat) (read : Bool) (hd : d.Canon) : Dev.Canon (Dev.smbLast d slot code read) := by
  unfold Dev.smbLast
  repeat' (first
    | with_reducible assumption
    | with_reducible apply Dev.wr_canon
    | with_reducible apply Dev.satInc_canon)

theorem Dev.smbRead_canon {d : Dev} (a code : Nat) (lastAck : Bool) (l : List Byte) (hd : d.Canon) : Dev.Canon (Dev.smbRead d a code lastAck l) := by
  unfold Dev.smbRead
  repeat' (first
    | with_reducible assumption
    | with_reducible apply Dev.send_canon
    | with_reducible apply Dev.smbLast_canon
    | with_reducible apply canon_ite
    | (extract_lets +onlyGivenNames e; refine canon_have (d := e) ?_ ?_; unfold e; rotate_left; intro; clear_value e; rotate_right)
    | (extract_lets +onlyGivenNames e; clear_value e)
    | split
    | with_reducible refine canon_snd ?_ (by with_reducible assumption)
    | with_reducible refine canon_fst ?_ (by with_reducible assumption)
    | dsimp only)

theorem Dev.smbReqcode_canon {d : Dev} (a : Nat) (lastAck : Bool) (hd : d.Canon) : Dev.Canon (Dev.smbReqcode d a lastAck) := by
  unfold Dev.smbReqcode
  repeat' (first
    | with_reducible assumption
    | with_reducible apply Dev.smbQueue_canon
    | with_reducible apply Dev.smbRead_canon
    | with_reducible apply canon_ite
    | (extract_lets +onlyGivenNames e; refine canon_have (d := e) ?_ ?_; unfold e; rotate_left; intro; clear_value e; rotate_right)
    | (extract_lets +onlyGivenNames e; clear_value e)
    | split
    | with_reducible refine canon_snd ?_ (by with_reducible assumption)
    | with_reducible refine canon_fst ?_ (by with_reducible assumption)
    | dsimp only)

theorem Dev.smbPecErr_canon {d : Dev} (hd : d.Canon) : Dev.Canon (Dev.smbPecErr d) := by
  unfold Dev.smbPecErr
  repeat' (first
    | with_reducible assumption
    | with_reducible apply Dev.flag_canon
    | with_reducible apply Dev.satInc_canon
    | with_reducible apply Dev.start_canon
    | with_reducible apply Dev.hw_canon
    | with_reducible apply canon_ite
    | (extract_lets +onlyGivenNames e; refine canon_have (d := e) ?_ ?_; unfold e; rotate_left; intro; clear_value e; rotate_right)
    | (extract_lets +onlyGivenNames e; clear_value e))

theorem Dev.smbStore_canon {d : Dev} (code : Nat) (l : List Byte) (hd : d.Canon) : Dev.Canon (Dev.smbStore d code l) := by
  unfold Dev.smbStore
  repeat' (first
    | intro _
    | with_reducible assumption
    | with_reducible apply Dev.wr_canon
    | with_reducible apply Dev.flag_canon
    | with_reducible apply canon_ite
    | with_reducible apply canon_foldl
    | (extract_lets +onlyGivenNames e; refine canon_have (d := e) ?_ ?_; unfold e; rotate_left; intro; clear_value e; rotate_right)
    | (extract_lets +onlyGivenNames e; clear_value e)
    | dsimp only)

theorem Dev.smbWrite_canon {d : Dev} (a code : Nat) (count : Option Byte) (l : List Byte) (pec : Option Byte) (hd : d.Canon) : Dev.Canon (Dev.smbWrite d a code count l pec) := by
  unfold Dev.smbWrite
  repeat' (first
    | with_reducible assumption
    | with_reducible apply Dev.flag_canon
    | with_reducible apply Dev.smbLast_canon
    | with_reducible apply Dev.smbPecErr_canon
    | with_reducible apply Dev.smbStore_canon
    | with_reducible apply canon_ite
    | (extract_lets +onlyGivenNames e; refine canon_have (d := e) ?_ ?_; unfold e; rotate_left; intro; clear_value e; rotate_right)
    | (extract_lets +onlyGivenNames e; clear_value e)
    | split
    | with_reducible refine canon_snd ?_ (by with_reducible assumption)
    | with_reducible refine canon_fst ?_ (by with_reducible assumption)
    | dsimp only)

theorem Dev.smbCellsel_canon {d : Dev} (a : Nat) (l : List Byte) (pec : Option Byte) (hd : d.Canon) : Dev.Canon (Dev.smbCellsel d a l pec) := by
  unfold Dev.smbCellsel
  repeat' (first
    | with_reducible assumption
    | with_reducible apply Dev.smbWrite_canon
    | with_reducible apply canon_ite
    | (unfold Dev.Canon; dsimp only; with_reducible refine canon_fold ?_)
    | (extract_lets +onlyGivenNames e; refine canon_have (d := e) ?_ ?_; unfold e; rotate_left; intro; clear_value e; rotate_right)
    | (extract_lets +onlyGivenNames e; clear_value e))

theorem Dev.smbPut_canon {d : Dev} (o : Nat) (l : List Byte) (hd : d.Canon) : Dev.Canon (Dev.smbPut d o l) := by
  unfold Dev.smbPut
  repeat' (first
    | intro _
    | with_reducible assumption
    | with_reducible apply Dev.wr_canon
    | with_reducible apply canon_foldl
    | (extract_lets +onlyGivenNames e; refine canon_have (d := e) ?_ ?_; unfold e; rotate_left; intro; clear_value e; rotate_right)
    | (extract_lets +onlyGivenNames e; clear_value e)
    | dsimp only)

theorem Dev.smbEvent_canon {d : Dev} (hd : d.Canon) : Dev.Canon (Dev.smbEvent d) := by
  unfold Dev.smbEvent
  repeat' (first
    | with_reducible assumption
    | with_reducible apply Dev.smbPut_canon
    | (extract_lets +onlyGivenNames e; refine canon_have (d := e) ?_ ?_; unfold e; rotate_left; intro; clear_value e; rotate_right)
    | (extract_lets +onlyGivenNames e; clear_value e))

theorem Dev.smbCell_canon {d : Dev} (hd : d.Canon) : Dev.Canon (Dev.smbCell d) := by
  unfold Dev.smbCell
  repeat' (first
    | with_reducible assumption
    | with_reducible apply Dev.smbPut_canon
    | with_reducible apply canon_ite
    | split
    | with_reducible refine canon_snd ?_ (by with_reducible assumption)
    | with_reducible refine canon_fst ?_ (by with_reducible assumption)
    | dsimp only)

theorem Dev.smbFill_canon {d : Dev} (hd : d.Canon) : Dev.Canon (Dev.smbFill d) := by
  unfold Dev.smbFill
  repeat' (first
    | intro _
    | with_reducible assumption
    | with_reducible apply Dev.smbPut_canon
    | with_reducible apply Dev.smbEvent_canon
    | with_reducible apply Dev.smbCell_canon
    | with_reducible apply canon_ite
    | (extract_lets +onlyGivenNames e; refine canon_have (d := e) ?_ ?_; unfold e; rotate_left; intro; clear_value e; rotate_right)
    | (extract_lets +onlyGivenNames e; clear_value e)
    | split
    | with_reducible refine canon_snd ?_ (by with_reducible assumption)
    | with_reducible refine canon_fst ?_ (by with_reducible assumption)
    | dsimp only)

end Sys2Proof.Machine
end

