-- ==== Sys2Proof/Laws/CanonSweep.lean ====
section
/-! SUPPORT. Every operation of Sys2Proof/Machine/Sweep.lean keeps the canonical form. -/

set_option Elab.async false
set_option linter.all false

namespace Sys2Proof.Machine

theorem Dev.swpNote_canon {d : Dev} (b code : Nat) (ws : List Word) (hd : d.Canon) : Dev.Canon (Dev.swpNote d b code ws) := by
  unfold Dev.swpNote
  repeat' (first
    | with_reducible assumption
    | with_reducible apply Dev.flag_canon
    | with_reducible apply Dev.hw_canon)

theorem Dev.collect_canon {d : Dev} (dst arg : Nat) (recover : Bool) (l : List (Nat × Nat)) (hd : d.Canon) : Dev.Canon (Dev.collect d dst arg recover l) := by
  unfold Dev.collect
  repeat' (first
    | intro _
    | with_reducible assumption
    | with_reducible apply Dev.send_canon
    | with_reducible apply Dev.laneBusy_canon
    | with_reducible apply canon_ite
    | with_reducible apply canon_foldl
    | with_reducible apply canon_foldl_fst
    | with_reducible apply canon_foldl_snd
    | (extract_lets +onlyGivenNames e; refine canon_have (d := e) ?_ ?_; unfold e; rotate_left; intro; clear_value e; rotate_right)
    | (extract_lets +onlyGivenNames e; clear_value e)
    | dsimp only)

theorem Dev.untrustRange_canon {d : Dev} (first count : Nat) (hd : d.Canon) : Dev.Canon (Dev.untrustRange d first count) := by
  unfold Dev.untrustRange
  repeat' (first
    | intro _
    | with_reducible assumption
    | with_reducible apply Dev.untrust_canon
    | with_reducible apply canon_ite
    | with_reducible apply canon_foldl
    | (extract_lets +onlyGivenNames e; refine canon_have (d := e) ?_ ?_; unfold e; rotate_left; intro; clear_value e; rotate_right)
    | (extract_lets +onlyGivenNames e; clear_value e)
    | dsimp only)

theorem Dev.closeSub_canon {d : Dev} (hd : d.Canon) : Dev.Canon (Dev.closeSub d) := by
  unfold Dev.closeSub
  repeat' (first
    | with_reducible assumption
    | with_reducible apply Dev.ochreRefresh_canon
    | with_reducible apply Dev.untrustRange_canon
    | (unfold Dev.Canon; dsimp only; with_reducible refine canon_fold ?_)
    | (extract_lets +onlyGivenNames e; refine canon_have (d := e) ?_ ?_; unfold e; rotate_left; intro; clear_value e; rotate_right)
    | (extract_lets +onlyGivenNames e; clear_value e))

theorem Dev.lagTight_canon {d : Dev} (k tight : Nat) (hd : d.Canon) : Dev.Canon (Dev.lagTight d k tight) := by
  unfold Dev.lagTight
  repeat' (first
    | intro _
    | with_reducible assumption
    | with_reducible apply Dev.lagSet_canon
    | with_reducible apply canon_ite
    | (unfold Dev.Canon; dsimp only; with_reducible refine canon_fold ?_)
    | (extract_lets +onlyGivenNames e; refine canon_have (d := e) ?_ ?_; unfold e; rotate_left; intro; clear_value e; rotate_right)
    | (extract_lets +onlyGivenNames e; clear_value e)
    | dsimp only)

theorem Dev.lagNode_canon {d : Dev} (w : Sweep) (cap k : Nat) (hd : d.Canon) : Dev.Canon (Dev.lagNode d w cap k) := by
  unfold Dev.lagNode
  repeat' (first
    | with_reducible assumption
    | with_reducible apply Dev.lagSet_canon
    | with_reducible apply Dev.lagTight_canon
    | with_reducible apply canon_ite
    | (unfold Dev.Canon; dsimp only; with_reducible refine canon_fold ?_)
    | (extract_lets +onlyGivenNames e; refine canon_have (d := e) ?_ ?_; unfold e; rotate_left; intro; clear_value e; rotate_right)
    | (extract_lets +onlyGivenNames e; clear_value e))

theorem Dev.turnMissed_canon {d : Dev} (w : Sweep) (hd : d.Canon) : Dev.Canon (Dev.turnMissed d w) := by
  unfold Dev.turnMissed
  repeat' (first
    | intro _
    | with_reducible assumption
    | with_reducible apply Dev.setNode_canon
    | with_reducible apply canon_ite
    | with_reducible apply canon_foldl
    | (unfold Dev.Canon; dsimp only; with_reducible refine canon_fold ?_)
    | (extract_lets +onlyGivenNames e; refine canon_have (d := e) ?_ ?_; unfold e; rotate_left; intro; clear_value e; rotate_right)
    | (extract_lets +onlyGivenNames e; clear_value e)
    | split
    | with_reducible refine canon_snd ?_ (by with_reducible assumption)
    | with_reducible refine canon_fst ?_ (by with_reducible assumption)
    | dsimp only)

theorem Dev.slowNodes_canon {d : Dev} (w : Sweep) (hd : d.Canon) : Dev.Canon (Dev.slowNodes d w) := by
  unfold Dev.slowNodes
  repeat' (first
    | intro _
    | with_reducible assumption
    | with_reducible apply Dev.lagNode_canon
    | with_reducible apply Dev.turnMissed_canon
    | with_reducible apply canon_foldl
    | (extract_lets +onlyGivenNames e; refine canon_have (d := e) ?_ ?_; unfold e; rotate_left; intro; clear_value e; rotate_right)
    | (extract_lets +onlyGivenNames e; clear_value e)
    | dsimp only)

theorem Dev.stretchSet_canon {d : Dev} (w : Sweep) (hd : d.Canon) : Dev.Canon (Dev.stretchSet d w) := by
  unfold Dev.stretchSet
  repeat' (first
    | intro _
    | with_reducible assumption
    | with_reducible apply Dev.wr_canon
    | with_reducible apply Dev.swpNote_canon
    | with_reducible apply canon_ite
    | with_reducible apply canon_foldl
    | (unfold Dev.Canon; dsimp only; with_reducible refine canon_fold ?_)
    | (extract_lets +onlyGivenNames e; refine canon_have (d := e) ?_ ?_; unfold e; rotate_left; intro; clear_value e; rotate_right)
    | (extract_lets +onlyGivenNames e; clear_value e)
    | dsimp only)

theorem Dev.feeds_canon {d : Dev} (hd : d.Canon) : Dev.Canon (Dev.feeds d) := by
  unfold Dev.feeds
  repeat' (first
    | intro _
    | with_reducible assumption
    | with_reducible apply Dev.feedUpdate_canon
    | with_reducible apply canon_ite
    | with_reducible apply canon_foldl
    | (extract_lets +onlyGivenNames e; refine canon_have (d := e) ?_ ?_; unfold e; rotate_left; intro; clear_value e; rotate_right)
    | (extract_lets +onlyGivenNames e; clear_value e)
    | dsimp only)

theorem Dev.owBegin_canon {d : Dev} (hd : d.Canon) : Dev.Canon (Dev.owBegin d) := by
  unfold Dev.owBegin
  repeat' (first
    | intro _
    | with_reducible assumption
    | with_reducible apply Dev.frameSend_canon
    | with_reducible apply Dev.owAbort_canon
    | with_reducible apply canon_ite
    | with_reducible apply canon_foldl
    | (unfold Dev.Canon; dsimp only; with_reducible refine canon_fold ?_)
    | (extract_lets +onlyGivenNames e; refine canon_have (d := e) ?_ ?_; unfold e; rotate_left; intro; clear_value e; rotate_right)
    | (extract_lets +onlyGivenNames e; clear_value e)
    | split
    | with_reducible refine canon_snd ?_ (by with_reducible assumption)
    | with_reducible refine canon_fst ?_ (by with_reducible assumption)
    | dsimp only)

theorem Dev.sweepStore_canon {d : Dev} (w : Sweep) (words : List Word) (hd : d.Canon) : Dev.Canon (Dev.sweepStore d w words) := by
  unfold Dev.sweepStore
  repeat' (first
    | with_reducible assumption
    | with_reducible apply Dev.agentStore_canon
    | (extract_lets +onlyGivenNames e; refine canon_have (d := e) ?_ ?_; unfold e; rotate_left; intro; clear_value e; rotate_right)
    | (extract_lets +onlyGivenNames e; clear_value e))

theorem Dev.chanClose_canon {d : Dev} (i : Nat) (hd : d.Canon) : Dev.Canon (Dev.chanClose d i) := by
  unfold Dev.chanClose
  repeat' (first
    | with_reducible assumption
    | with_reducible apply Dev.setChan_canon
    | with_reducible apply canon_ite
    | (unfold Dev.Canon; dsimp only; with_reducible refine canon_fold ?_)
    | (extract_lets +onlyGivenNames e; refine canon_have (d := e) ?_ ?_; unfold e; rotate_left; intro; clear_value e; rotate_right)
    | (extract_lets +onlyGivenNames e; clear_value e))

theorem Dev.sweepDone_canon {d : Dev} (w : Sweep) (buf : Nat) (sum : Int) (hd : d.Canon) : Dev.Canon (Dev.sweepDone d w buf sum) := by
  unfold Dev.sweepDone
  repeat' (first
    | with_reducible assumption
    | with_reducible apply Dev.wr_canon
    | with_reducible apply Dev.setBit_canon
    | with_reducible apply Dev.incWrap_canon
    | (unfold Dev.Canon; dsimp only; with_reducible refine canon_fold ?_)
    | (extract_lets +onlyGivenNames e; refine canon_have (d := e) ?_ ?_; unfold e; rotate_left; intro; clear_value e; rotate_right)
    | (extract_lets +onlyGivenNames e; clear_value e))

theorem Dev.owAdvance_canon {d : Dev} (hd : d.Canon) : Dev.Canon (Dev.owAdvance d) := by
  unfold Dev.owAdvance
  repeat' (first
    | with_reducible assumption
    | with_reducible apply canon_ite
    | (unfold Dev.Canon; dsimp only; with_reducible refine canon_fold ?_)
    | (extract_lets +onlyGivenNames e; refine canon_have (d := e) ?_ ?_; unfold e; rotate_left; intro; clear_value e; rotate_right)
    | (extract_lets +onlyGivenNames e; clear_value e)
    | split
    | with_reducible refine canon_snd ?_ (by with_reducible assumption)
    | with_reducible refine canon_fst ?_ (by with_reducible assumption)
    | dsimp only)

theorem Dev.publish_canon {d : Dev} (w : Sweep) (hd : d.Canon) : Dev.Canon (Dev.publish d w) := by
  unfold Dev.publish
  repeat' (first
    | intro _
    | with_reducible assumption
    | with_reducible apply Dev.reform_canon
    | with_reducible apply Dev.ochreRefresh_canon
    | with_reducible apply Dev.swdPublished_canon
    | with_reducible apply Dev.binsPublish_canon
    | with_reducible apply Dev.blankFlush_canon
    | with_reducible apply Dev.lrnBegin_canon
    | with_reducible apply Dev.lrnFinish_canon
    | with_reducible apply Dev.smbFill_canon
    | with_reducible apply Dev.untrustRange_canon
    | with_reducible apply Dev.closeSub_canon
    | with_reducible apply Dev.slowNodes_canon
    | with_reducible apply Dev.feeds_canon
    | with_reducible apply Dev.owBegin_canon
    | with_reducible apply Dev.sweepStore_canon
    | with_reducible apply Dev.chanClose_canon
    | with_reducible apply Dev.sweepDone_canon
    | with_reducible apply Dev.owAdvance_canon
    | with_reducible apply canon_ite
    | with_reducible apply canon_foldl
    | (extract_lets +onlyGivenNames e; refine canon_have (d := e) ?_ ?_; unfold e; rotate_left; intro; clear_value e; rotate_right)
    | (extract_lets +onlyGivenNames e; clear_value e)
    | dsimp only)

theorem Dev.publishOpen_canon {d : Dev} (hd : d.Canon) : Dev.Canon (Dev.publishOpen d) := by
  unfold Dev.publishOpen
  repeat' (first
    | with_reducible assumption
    | with_reducible apply Dev.publish_canon
    | split
    | with_reducible refine canon_snd ?_ (by with_reducible assumption)
    | with_reducible refine canon_fst ?_ (by with_reducible assumption)
    | dsimp only)

theorem Dev.agesUp_canon {d : Dev} (first count : Nat) (hd : d.Canon) : Dev.Canon (Dev.agesUp d first count) := by
  unfold Dev.agesUp
  repeat' (first
    | intro _
    | with_reducible assumption
    | with_reducible apply canon_ite
    | (unfold Dev.Canon; dsimp only; with_reducible refine canon_fold ?_)
    | (extract_lets +onlyGivenNames e; refine canon_have (d := e) ?_ ?_; unfold e; rotate_left; intro; clear_value e; rotate_right)
    | (extract_lets +onlyGivenNames e; clear_value e)
    | dsimp only)

theorem Dev.seqSet_canon {d : Dev} (seq : Nat) (hd : d.Canon) : Dev.Canon (Dev.seqSet d seq) := by
  unfold Dev.seqSet
  repeat' (first
    | with_reducible assumption
    | with_reducible apply Dev.wr_canon
    | (unfold Dev.Canon; dsimp only; with_reducible refine canon_fold ?_)
    | (extract_lets +onlyGivenNames e; refine canon_have (d := e) ?_ ?_; unfold e; rotate_left; intro; clear_value e; rotate_right)
    | (extract_lets +onlyGivenNames e; clear_value e))

theorem Dev.strobeNote_canon {d : Dev} (seq : Nat) (hd : d.Canon) : Dev.Canon (Dev.strobeNote d seq) := by
  unfold Dev.strobeNote
  repeat' (first
    | with_reducible assumption
    | (unfold Dev.Canon; dsimp only; with_reducible refine canon_fold ?_)
    | (extract_lets +onlyGivenNames e; refine canon_have (d := e) ?_ ?_; unfold e; rotate_left; intro; clear_value e; rotate_right)
    | (extract_lets +onlyGivenNames e; clear_value e))

theorem Dev.subBegin_canon {d : Dev} (desc seq : Nat) (aux : Bool) (hd : d.Canon) : Dev.Canon (Dev.subBegin d desc seq aux) := by
  unfold Dev.subBegin
  repeat' (first
    | intro _
    | with_reducible assumption
    | with_reducible apply Dev.closeSub_canon
    | with_reducible apply Dev.agesUp_canon
    | with_reducible apply canon_ite
    | (unfold Dev.Canon; dsimp only; with_reducible refine canon_fold ?_)
    | (extract_lets +onlyGivenNames e; refine canon_have (d := e) ?_ ?_; unfold e; rotate_left; intro; clear_value e; rotate_right)
    | (extract_lets +onlyGivenNames e; clear_value e)
    | dsimp only)

theorem Dev.sweepOpen_canon {d : Dev} (desc seq : Nat) (temp aux : Bool) (t : TimSt) (hd : d.Canon) : Dev.Canon (Dev.sweepOpen d desc seq temp aux t) := by
  unfold Dev.sweepOpen
  repeat' (first
    | with_reducible assumption
    | with_reducible apply Dev.setBit_canon
    | with_reducible apply Dev.issue_canon
    | with_reducible apply Dev.stretchSet_canon
    | (unfold Dev.Canon; dsimp only; with_reducible refine canon_fold ?_)
    | (extract_lets +onlyGivenNames e; refine canon_have (d := e) ?_ ?_; unfold e; rotate_left; intro; clear_value e; rotate_right)
    | (extract_lets +onlyGivenNames e; clear_value e)
    | split
    | with_reducible refine canon_snd ?_ (by with_reducible assumption)
    | with_reducible refine canon_fst ?_ (by with_reducible assumption)
    | dsimp only)

theorem Dev.strobeWith_canon {d : Dev} (desc seq : Nat) (temp aux : Bool) (j : Nat) (hd : d.Canon) : Dev.Canon (Dev.strobeWith d desc seq temp aux j) := by
  unfold Dev.strobeWith
  repeat' (first
    | with_reducible assumption
    | with_reducible apply Dev.binsStrobe_canon
    | with_reducible apply Dev.currentLatch_canon
    | with_reducible apply Dev.ringSend_canon
    | with_reducible apply Dev.agesUp_canon
    | with_reducible apply Dev.seqSet_canon
    | with_reducible apply Dev.strobeNote_canon
    | with_reducible apply Dev.subBegin_canon
    | with_reducible apply Dev.sweepOpen_canon
    | with_reducible apply canon_ite
    | (extract_lets +onlyGivenNames e; refine canon_have (d := e) ?_ ?_; unfold e; rotate_left; intro; clear_value e; rotate_right)
    | (extract_lets +onlyGivenNames e; clear_value e))

theorem Dev.strobeIssue_canon {d : Dev} (desc : Nat) (temp : Bool) (j : Nat) (hd : d.Canon) : Dev.Canon (Dev.strobeIssue d desc temp j) := by
  unfold Dev.strobeIssue
  repeat' (first
    | with_reducible assumption
    | with_reducible apply Dev.cue_canon
    | with_reducible apply Dev.ringSet_canon
    | with_reducible apply Dev.strobeWith_canon
    | with_reducible apply canon_ite
    | (extract_lets +onlyGivenNames e; refine canon_have (d := e) ?_ ?_; unfold e; rotate_left; intro; clear_value e; rotate_right)
    | (extract_lets +onlyGivenNames e; clear_value e))

theorem Dev.strobeAction_canon {d : Dev} (desc : Nat) (temp : Bool) (j : Nat) (hd : d.Canon) : Dev.Canon (Dev.strobeAction d desc temp j) := by
  unfold Dev.strobeAction
  repeat' (first
    | with_reducible assumption
    | with_reducible apply Dev.flag_canon
    | with_reducible apply Dev.satInc_canon
    | with_reducible apply Dev.swpNote_canon
    | with_reducible apply Dev.publish_canon
    | with_reducible apply Dev.strobeIssue_canon
    | with_reducible apply canon_ite
    | (extract_lets +onlyGivenNames e; refine canon_have (d := e) ?_ ?_; unfold e; rotate_left; intro; clear_value e; rotate_right)
    | (extract_lets +onlyGivenNames e; clear_value e)
    | split
    | with_reducible refine canon_snd ?_ (by with_reducible assumption)
    | with_reducible refine canon_fst ?_ (by with_reducible assumption)
    | dsimp only)

theorem Dev.collectLaunch_canon {d : Dev} (hd : d.Canon) : Dev.Canon (Dev.collectLaunch d) := by
  unfold Dev.collectLaunch
  repeat' (first
    | intro _
    | with_reducible assumption
    | with_reducible apply Dev.issue_canon
    | with_reducible apply Dev.collect_canon
    | with_reducible apply canon_ite
    | with_reducible apply canon_foldl
    | with_reducible apply canon_foldl_fst
    | with_reducible apply canon_foldl_snd
    | (unfold Dev.Canon; dsimp only; with_reducible refine canon_fold ?_)
    | (extract_lets +onlyGivenNames e; refine canon_have (d := e) ?_ ?_; unfold e; rotate_left; intro; clear_value e; rotate_right)
    | (extract_lets +onlyGivenNames e; clear_value e)
    | split
    | with_reducible refine canon_snd ?_ (by with_reducible assumption)
    | with_reducible refine canon_fst ?_ (by with_reducible assumption)
    | dsimp only)

theorem Dev.segmentSend_canon {d : Dev} (hd : d.Canon) : Dev.Canon (Dev.segmentSend d) := by
  unfold Dev.segmentSend
  repeat' (first
    | with_reducible assumption
    | with_reducible apply Dev.send_canon
    | with_reducible apply canon_ite
    | (unfold Dev.Canon; dsimp only; with_reducible refine canon_fold ?_)
    | (extract_lets +onlyGivenNames e; refine canon_have (d := e) ?_ ?_; unfold e; rotate_left; intro; clear_value e; rotate_right)
    | (extract_lets +onlyGivenNames e; clear_value e))

theorem Dev.segmentAdd_canon {d : Dev} (arg node seq flags turn : Nat) (data : List Byte) (hd : d.Canon) : Dev.Canon (Dev.segmentAdd d arg node seq flags turn data) := by
  unfold Dev.segmentAdd
  repeat' (first
    | with_reducible assumption
    | with_reducible apply Dev.segmentSend_canon
    | with_reducible apply canon_ite
    | (unfold Dev.Canon; dsimp only; with_reducible refine canon_fold ?_)
    | (extract_lets +onlyGivenNames e; refine canon_have (d := e) ?_ ?_; unfold e; rotate_left; intro; clear_value e; rotate_right)
    | (extract_lets +onlyGivenNames e; clear_value e))

theorem Dev.noteTransit_canon {d : Dev} (t : Option Nat) (hd : d.Canon) : Dev.Canon (Dev.noteTransit d t) := by
  unfold Dev.noteTransit
  repeat' (first
    | with_reducible assumption
    | (unfold Dev.Canon; dsimp only; with_reducible refine canon_fold ?_)
    | (extract_lets +onlyGivenNames e; refine canon_have (d := e) ?_ ?_; unfold e; rotate_left; intro; clear_value e; rotate_right)
    | (extract_lets +onlyGivenNames e; clear_value e)
    | split
    | with_reducible refine canon_snd ?_ (by with_reducible assumption)
    | with_reducible refine canon_fst ?_ (by with_reducible assumption)
    | dsimp only)

theorem Dev.sweepDeadline_canon {d : Dev} (transit : Option Nat) (hd : d.Canon) : Dev.Canon (Dev.sweepDeadline d transit) := by
  unfold Dev.sweepDeadline
  repeat' (first
    | intro _
    | with_reducible assumption
    | with_reducible apply Dev.flag_canon
    | with_reducible apply Dev.cue_canon
    | with_reducible apply Dev.ringBreak_canon
    | with_reducible apply Dev.collect_canon
    | with_reducible apply Dev.publish_canon
    | with_reducible apply Dev.segmentSend_canon
    | with_reducible apply Dev.noteTransit_canon
    | with_reducible apply canon_ite
    | (unfold Dev.Canon; dsimp only; with_reducible refine canon_fold ?_)
    | (extract_lets +onlyGivenNames e; refine canon_have (d := e) ?_ ?_; unfold e; rotate_left; intro; clear_value e; rotate_right)
    | (extract_lets +onlyGivenNames e; clear_value e)
    | split
    | with_reducible refine canon_snd ?_ (by with_reducible assumption)
    | with_reducible refine canon_fst ?_ (by with_reducible assumption)
    | dsimp only)

theorem Dev.withOfs_canon {d : Dev} (i : Nat) (v : Int) (hd : d.Canon) : Dev.Canon (Dev.withOfs d i v).2 := by
  unfold Dev.withOfs
  repeat' (first
    | with_reducible assumption
    | with_reducible apply Dev.nextFree_canon
    | with_reducible apply canon_ite
    | with_reducible apply canon_ite_snd
    | with_reducible apply canon_ite_fst
    | (unfold Dev.Canon; dsimp only; with_reducible refine canon_fold ?_)
    | (extract_lets +onlyGivenNames e; refine canon_have (d := e) ?_ ?_; unfold e; rotate_left; intro; clear_value e; rotate_right)
    | (extract_lets +onlyGivenNames e; clear_value e)
    | split
    | with_reducible refine canon_snd ?_ (by with_reducible assumption)
    | with_reducible refine canon_fst ?_ (by with_reducible assumption)
    | dsimp only)

theorem Dev.wordStore_canon {d : Dev} (i : Nat) (hd : d.Canon) : Dev.Canon (Dev.wordStore d i) := by
  unfold Dev.wordStore
  repeat' (first
    | with_reducible assumption
    | with_reducible apply Dev.agentStore_canon)

theorem Dev.take_canon {d : Dev} (i : Nat) (v : Int) (age code : Nat) (hd : d.Canon) : Dev.Canon (Dev.take d i v age code) := by
  unfold Dev.take
  repeat' (first
    | with_reducible assumption
    | with_reducible apply Dev.setChan_canon
    | with_reducible apply Dev.wordStore_canon
    | with_reducible apply canon_ite
    | (unfold Dev.Canon; dsimp only; with_reducible refine canon_fold ?_)
    | (extract_lets +onlyGivenNames e; refine canon_have (d := e) ?_ ?_; unfold e; rotate_left; intro; clear_value e; rotate_right)
    | (extract_lets +onlyGivenNames e; clear_value e))

theorem Dev.voltSamples_canon {d : Dev} (k seq : Nat) (raw : List Int) (hd : d.Canon) : Dev.Canon (Dev.voltSamples d k seq raw).1 := by
  unfold Dev.voltSamples
  repeat' (first
    | intro _
    | with_reducible assumption
    | with_reducible apply Dev.withOfs_canon
    | with_reducible apply canon_foldl
    | with_reducible apply canon_foldl_fst
    | with_reducible apply canon_foldl_snd
    | (extract_lets +onlyGivenNames e; refine canon_have (d := e) ?_ ?_; unfold e; rotate_left; intro; clear_value e; rotate_right)
    | (extract_lets +onlyGivenNames e; clear_value e)
    | split
    | with_reducible refine canon_snd ?_ (by with_reducible assumption)
    | with_reducible refine canon_fst ?_ (by with_reducible assumption)
    | dsimp only)

theorem Dev.takeVolts_canon {d : Dev} (x : SlotIn) (seq : Nat) (raw : List Int) (hd : d.Canon) : Dev.Canon (Dev.takeVolts d x seq raw).1 := by
  unfold Dev.takeVolts
  repeat' (first
    | intro _
    | with_reducible assumption
    | with_reducible apply Dev.flag_canon
    | with_reducible apply Dev.withOfs_canon
    | with_reducible apply Dev.take_canon
    | with_reducible apply canon_ite
    | with_reducible apply canon_ite_snd
    | with_reducible apply canon_ite_fst
    | with_reducible apply canon_foldl
    | with_reducible apply canon_foldl_fst
    | with_reducible apply canon_foldl_snd
    | (extract_lets +onlyGivenNames e; refine canon_have (d := e) ?_ ?_; unfold e; rotate_left; intro; clear_value e; rotate_right)
    | (extract_lets +onlyGivenNames e; clear_value e)
    | split
    | with_reducible refine canon_snd ?_ (by with_reducible assumption)
    | with_reducible refine canon_fst ?_ (by with_reducible assumption)
    | dsimp only)

theorem Dev.takeSub_canon {d : Dev} (x : SlotIn) (seq first count pos0 : Nat) (bad : Int) (tempv ok : Bool) (raw : List Int) (hd : d.Canon) : Dev.Canon (Dev.takeSub d x seq first count pos0 bad tempv ok raw).1 := by
  unfold Dev.takeSub
  repeat' (first
    | intro _
    | with_reducible assumption
    | with_reducible apply Dev.flag_canon
    | with_reducible apply Dev.withOfs_canon
    | with_reducible apply Dev.take_canon
    | with_reducible apply canon_ite
    | with_reducible apply canon_ite_snd
    | with_reducible apply canon_ite_fst
    | with_reducible apply canon_foldl
    | with_reducible apply canon_foldl_fst
    | with_reducible apply canon_foldl_snd
    | (extract_lets +onlyGivenNames e; refine canon_have (d := e) ?_ ?_; unfold e; rotate_left; intro; clear_value e; rotate_right)
    | (extract_lets +onlyGivenNames e; clear_value e)
    | split
    | with_reducible refine canon_snd ?_ (by with_reducible assumption)
    | with_reducible refine canon_fst ?_ (by with_reducible assumption)
    | dsimp only)

theorem Dev.slotTurn_canon {d : Dev} (k turn : Nat) (again : Bool) (hd : d.Canon) : Dev.Canon (Dev.slotTurn d k turn again) := by
  unfold Dev.slotTurn
  repeat' (first
    | intro _
    | with_reducible assumption
    | with_reducible apply Dev.setNode_canon
    | with_reducible apply Dev.take_canon
    | with_reducible apply canon_ite
    | with_reducible apply canon_foldl
    | (unfold Dev.Canon; dsimp only; with_reducible refine canon_fold ?_)
    | (extract_lets +onlyGivenNames e; refine canon_have (d := e) ?_ ?_; unfold e; rotate_left; intro; clear_value e; rotate_right)
    | (extract_lets +onlyGivenNames e; clear_value e))

theorem Dev.slotWdt_canon {d : Dev} (k : Nat) (wdt : Bool) (hd : d.Canon) : Dev.Canon (Dev.slotWdt d k wdt) := by
  unfold Dev.slotWdt
  repeat' (first
    | with_reducible assumption
    | with_reducible apply Dev.setBit_canon
    | with_reducible apply Dev.hw_canon
    | with_reducible apply canon_ite
    | (unfold Dev.Canon; dsimp only; with_reducible refine canon_fold ?_)
    | (extract_lets +onlyGivenNames e; refine canon_have (d := e) ?_ ?_; unfold e; rotate_left; intro; clear_value e; rotate_right)
    | (extract_lets +onlyGivenNames e; clear_value e))

theorem Dev.slotVolts_canon {d : Dev} (x : SlotIn) (seq turn : Nat) (raw : List Int) (hd : d.Canon) : Dev.Canon (Dev.slotVolts d x seq turn raw).1 := by
  unfold Dev.slotVolts
  repeat' (first
    | intro _
    | with_reducible assumption
    | with_reducible apply Dev.wr_canon
    | with_reducible apply Dev.flag_canon
    | with_reducible apply Dev.voltSamples_canon
    | with_reducible apply Dev.takeVolts_canon
    | with_reducible apply Dev.slotTurn_canon
    | with_reducible apply canon_ite
    | with_reducible apply canon_ite_snd
    | with_reducible apply canon_ite_fst
    | with_reducible apply canon_foldl
    | with_reducible apply canon_foldl_fst
    | with_reducible apply canon_foldl_snd
    | (unfold Dev.Canon; dsimp only; with_reducible refine canon_fold ?_)
    | (extract_lets +onlyGivenNames e; refine canon_have (d := e) ?_ ?_; unfold e; rotate_left; intro; clear_value e; rotate_right)
    | (extract_lets +onlyGivenNames e; clear_value e)
    | split
    | with_reducible refine canon_snd ?_ (by with_reducible assumption)
    | with_reducible refine canon_fst ?_ (by with_reducible assumption)
    | dsimp only)

theorem Dev.slotSub_canon {d : Dev} (x : SlotIn) (arg : Nat) (data : List Byte) (hd : d.Canon) : Dev.Canon (Dev.slotSub d x arg data).1 := by
  unfold Dev.slotSub
  repeat' (first
    | with_reducible assumption
    | with_reducible apply Dev.flag_canon
    | with_reducible apply Dev.takeSub_canon
    | with_reducible apply canon_ite
    | with_reducible apply canon_ite_snd
    | with_reducible apply canon_ite_fst
    | (unfold Dev.Canon; dsimp only; with_reducible refine canon_fold ?_)
    | (extract_lets +onlyGivenNames e; refine canon_have (d := e) ?_ ?_; unfold e; rotate_left; intro; clear_value e; rotate_right)
    | (extract_lets +onlyGivenNames e; clear_value e)
    | split
    | with_reducible refine canon_snd ?_ (by with_reducible assumption)
    | with_reducible refine canon_fst ?_ (by with_reducible assumption)
    | dsimp only)

theorem Dev.seqAdopt_canon {d : Dev} (arg seq : Nat) (hd : d.Canon) : Dev.Canon (Dev.seqAdopt d arg seq) := by
  unfold Dev.seqAdopt
  repeat' (first
    | with_reducible assumption
    | with_reducible apply Dev.seqSet_canon
    | with_reducible apply Dev.strobeNote_canon
    | with_reducible apply canon_ite
    | (unfold Dev.Canon; dsimp only; with_reducible refine canon_fold ?_)
    | (extract_lets +onlyGivenNames e; refine canon_have (d := e) ?_ ?_; unfold e; rotate_left; intro; clear_value e; rotate_right)
    | (extract_lets +onlyGivenNames e; clear_value e)
    | split
    | with_reducible refine canon_snd ?_ (by with_reducible assumption)
    | with_reducible refine canon_fst ?_ (by with_reducible assumption)
    | dsimp only)

theorem Dev.slotGot_canon {d : Dev} (arg node : Nat) (hd : d.Canon) : Dev.Canon (Dev.slotGot d arg node) := by
  unfold Dev.slotGot
  repeat' (first
    | intro _
    | with_reducible assumption
    | with_reducible apply canon_ite
    | (unfold Dev.Canon; dsimp only; with_reducible refine canon_fold ?_)
    | (extract_lets +onlyGivenNames e; refine canon_have (d := e) ?_ ?_; unfold e; rotate_left; intro; clear_value e; rotate_right)
    | (extract_lets +onlyGivenNames e; clear_value e)
    | dsimp only)

theorem Dev.slotTake_canon {d : Dev} (x : Bool) (arg node seq flags turn : Nat) (data : List Byte) (hd : d.Canon) : Dev.Canon (Dev.slotTake d x arg node seq flags turn data) := by
  unfold Dev.slotTake
  repeat' (first
    | with_reducible assumption
    | with_reducible apply Dev.compareWords_canon
    | with_reducible apply Dev.swpNote_canon
    | with_reducible apply Dev.segmentAdd_canon
    | with_reducible apply Dev.slotWdt_canon
    | with_reducible apply Dev.slotVolts_canon
    | with_reducible apply Dev.slotSub_canon
    | with_reducible apply Dev.seqAdopt_canon
    | with_reducible apply Dev.slotGot_canon
    | with_reducible apply canon_ite
    | (unfold Dev.Canon; dsimp only; with_reducible refine canon_fold ?_)
    | (extract_lets +onlyGivenNames e; refine canon_have (d := e) ?_ ?_; unfold e; rotate_left; intro; clear_value e; rotate_right)
    | (extract_lets +onlyGivenNames e; clear_value e)
    | split
    | with_reducible refine canon_snd ?_ (by with_reducible assumption)
    | with_reducible refine canon_fst ?_ (by with_reducible assumption)
    | dsimp only)

theorem Dev.slotReceive_canon {d : Dev} (x : Bool) (arg node seq flags turn : Nat) (data : List Byte) (crcOk : Bool) (fin : FrameEnd) (hd : d.Canon) : Dev.Canon (Dev.slotReceive d x arg node seq flags turn data crcOk fin) := by
  unfold Dev.slotReceive
  repeat' (first
    | with_reducible assumption
    | with_reducible apply Dev.flag_canon
    | with_reducible apply Dev.satInc_canon
    | with_reducible apply Dev.portFrame_canon
    | with_reducible apply Dev.frameEnd_canon
    | with_reducible apply Dev.segmentSend_canon
    | with_reducible apply Dev.slotTake_canon
    | with_reducible apply canon_ite
    | (extract_lets +onlyGivenNames e; refine canon_have (d := e) ?_ ?_; unfold e; rotate_left; intro; clear_value e; rotate_right)
    | (extract_lets +onlyGivenNames e; clear_value e))

theorem Dev.slotPartner_canon {d : Dev} (arg node seq flags turn : Nat) (data : List Byte) (crcOk : Bool) (hd : d.Canon) : Dev.Canon (Dev.slotPartner d arg node seq flags turn data crcOk) := by
  unfold Dev.slotPartner
  repeat' (first
    | with_reducible assumption
    | with_reducible apply Dev.swpNote_canon
    | with_reducible apply Dev.slotWdt_canon
    | with_reducible apply Dev.slotVolts_canon
    | with_reducible apply Dev.slotSub_canon
    | with_reducible apply Dev.slotGot_canon
    | with_reducible apply canon_ite
    | (unfold Dev.Canon; dsimp only; with_reducible refine canon_fold ?_)
    | (extract_lets +onlyGivenNames e; refine canon_have (d := e) ?_ ?_; unfold e; rotate_left; intro; clear_value e; rotate_right)
    | (extract_lets +onlyGivenNames e; clear_value e)
    | split
    | with_reducible refine canon_snd ?_ (by with_reducible assumption)
    | with_reducible refine canon_fst ?_ (by with_reducible assumption)
    | dsimp only)

theorem Dev.temperatureRead_canon {d : Dev} (hd : d.Canon) : Dev.Canon (Dev.temperatureRead d) := by
  unfold Dev.temperatureRead
  repeat' (first
    | intro _
    | with_reducible assumption
    | with_reducible apply Dev.collect_canon
    | with_reducible apply canon_ite
    | (unfold Dev.Canon; dsimp only; with_reducible refine canon_fold ?_)
    | (extract_lets +onlyGivenNames e; refine canon_have (d := e) ?_ ?_; unfold e; rotate_left; intro; clear_value e; rotate_right)
    | (extract_lets +onlyGivenNames e; clear_value e)
    | split
    | with_reducible refine canon_snd ?_ (by with_reducible assumption)
    | with_reducible refine canon_fst ?_ (by with_reducible assumption)
    | dsimp only)

theorem Dev.owGo_canon {d : Dev} (v : Word) (hd : d.Canon) : Dev.Canon (Dev.owGo d v) := by
  unfold Dev.owGo
  repeat' (first
    | with_reducible assumption
    | with_reducible apply Dev.setFld_canon
    | with_reducible apply Dev.owBegin_canon
    | with_reducible apply canon_ite
    | (unfold Dev.Canon; dsimp only; with_reducible refine canon_fold ?_)
    | (extract_lets +onlyGivenNames e; refine canon_have (d := e) ?_ ?_; unfold e; rotate_left; intro; clear_value e; rotate_right)
    | (extract_lets +onlyGivenNames e; clear_value e))

theorem Dev.owNextPass_canon {d : Dev} (hd : d.Canon) : Dev.Canon (Dev.owNextPass d) := by
  unfold Dev.owNextPass
  repeat' (first
    | with_reducible assumption
    | with_reducible apply Dev.owGo_canon
    | with_reducible apply canon_ite
    | (unfold Dev.Canon; dsimp only; with_reducible refine canon_fold ?_)
    | (extract_lets +onlyGivenNames e; refine canon_have (d := e) ?_ ?_; unfold e; rotate_left; intro; clear_value e; rotate_right)
    | (extract_lets +onlyGivenNames e; clear_value e))

theorem Dev.idleBegin_canon {d : Dev} (hd : d.Canon) : Dev.Canon (Dev.idleBegin d) := by
  unfold Dev.idleBegin
  repeat' (first
    | with_reducible assumption
    | with_reducible apply Dev.tofBegin_canon
    | with_reducible apply Dev.lrnIdle_canon
    | with_reducible apply Dev.owNextPass_canon
    | with_reducible apply canon_ite
    | (extract_lets +onlyGivenNames e; refine canon_have (d := e) ?_ ?_; unfold e; rotate_left; intro; clear_value e; rotate_right)
    | (extract_lets +onlyGivenNames e; clear_value e))

theorem Dev.owSuspect_canon {d : Dev} (k w : Nat) (op : Bool) (hd : d.Canon) : Dev.Canon (Dev.owSuspect d k w op) := by
  unfold Dev.owSuspect
  repeat' (first
    | with_reducible assumption
    | with_reducible apply Dev.setBit_canon
    | with_reducible apply Dev.hw_canon
    | with_reducible apply Dev.swpNote_canon
    | with_reducible apply canon_ite
    | (extract_lets +onlyGivenNames e; refine canon_have (d := e) ?_ ?_; unfold e; rotate_left; intro; clear_value e; rotate_right)
    | (extract_lets +onlyGivenNames e; clear_value e))

theorem Dev.owEvaluate_canon {d : Dev} (hd : d.Canon) : Dev.Canon (Dev.owEvaluate d) := by
  unfold Dev.owEvaluate
  repeat' (first
    | intro _
    | with_reducible assumption
    | with_reducible apply Dev.setFld_canon
    | with_reducible apply Dev.setBit_canon
    | with_reducible apply Dev.frameSend_canon
    | with_reducible apply Dev.owAbort_canon
    | with_reducible apply Dev.lrnIdle_canon
    | with_reducible apply Dev.owSuspect_canon
    | with_reducible apply canon_ite
    | with_reducible apply canon_foldl
    | (unfold Dev.Canon; dsimp only; with_reducible refine canon_fold ?_)
    | (extract_lets +onlyGivenNames e; refine canon_have (d := e) ?_ ?_; unfold e; rotate_left; intro; clear_value e; rotate_right)
    | (extract_lets +onlyGivenNames e; clear_value e)
    | split
    | with_reducible refine canon_snd ?_ (by with_reducible assumption)
    | with_reducible refine canon_fst ?_ (by with_reducible assumption)
    | dsimp only)

theorem Dev.swpCtl_canon {d : Dev} (v : Word) (hd : d.Canon) : Dev.Canon (Dev.swpCtl d v) := by
  unfold Dev.swpCtl
  repeat' (first
    | with_reducible assumption
    | with_reducible apply Dev.wr_canon
    | with_reducible apply Dev.plainWrite_canon
    | with_reducible apply canon_ite
    | (extract_lets +onlyGivenNames e; refine canon_have (d := e) ?_ ?_; unfold e; rotate_left; intro; clear_value e; rotate_right)
    | (extract_lets +onlyGivenNames e; clear_value e))

end Sys2Proof.Machine
end

