-- ==== Sys2Proof/Laws/CanonRole.lean ====
section
/-! SUPPORT. Every operation of Sys2Proof/Machine/Role.lean keeps the canonical form. -/

set_option Elab.async false
set_option linter.all false

namespace Sys2Proof.Machine

theorem Dev.eligRefresh_canon {d : Dev} (hd : d.Canon) : Dev.Canon (Dev.eligRefresh d) := by
  unfold Dev.eligRefresh
  repeat' (first
    | with_reducible assumption
    | with_reducible apply Dev.setBit_canon)

theorem Dev.setRole_canon {d : Dev} (r m : Nat) (hd : d.Canon) : Dev.Canon (Dev.setRole d r m) := by
  unfold Dev.setRole
  repeat' (first
    | with_reducible assumption
    | with_reducible apply Dev.setFld_canon
    | with_reducible apply Dev.eligRefresh_canon)

theorem Dev.epochSave_canon {d : Dev} (hd : d.Canon) : Dev.Canon (Dev.epochSave d) := by
  unfold Dev.epochSave
  repeat' (first
    | with_reducible assumption
    | with_reducible apply Dev.mramWrite_canon
    | (extract_lets +onlyGivenNames e; refine canon_have (d := e) ?_ ?_; unfold e; rotate_left; intro; clear_value e; rotate_right)
    | (extract_lets +onlyGivenNames e; clear_value e)
    | split
    | with_reducible refine canon_snd ?_ (by with_reducible assumption)
    | with_reducible refine canon_fst ?_ (by with_reducible assumption)
    | dsimp only)

theorem Dev.dutyEnter_canon {d : Dev} (hd : d.Canon) : Dev.Canon (Dev.dutyEnter d) := by
  unfold Dev.dutyEnter
  repeat' (first
    | with_reducible assumption
    | with_reducible apply Dev.wr_canon
    | with_reducible apply Dev.setFld_canon
    | with_reducible apply Dev.setBit_canon
    | with_reducible apply Dev.stop_canon
    | with_reducible apply Dev.setRole_canon
    | with_reducible apply Dev.epochSave_canon
    | (unfold Dev.Canon; dsimp only; with_reducible refine canon_fold ?_)
    | (extract_lets +onlyGivenNames e; refine canon_have (d := e) ?_ ?_; unfold e; rotate_left; intro; clear_value e; rotate_right)
    | (extract_lets +onlyGivenNames e; clear_value e))

theorem Dev.shadeEnter_canon {d : Dev} (hd : d.Canon) : Dev.Canon (Dev.shadeEnter d) := by
  unfold Dev.shadeEnter
  repeat' (first
    | with_reducible assumption
    | with_reducible apply Dev.setFld_canon
    | with_reducible apply Dev.setRole_canon
    | (unfold Dev.Canon; dsimp only; with_reducible refine canon_fold ?_)
    | (extract_lets +onlyGivenNames e; refine canon_have (d := e) ?_ ?_; unfold e; rotate_left; intro; clear_value e; rotate_right)
    | (extract_lets +onlyGivenNames e; clear_value e))

theorem Dev.depose_canon {d : Dev} (cause : Nat) (hd : d.Canon) : Dev.Canon (Dev.depose d cause) := by
  unfold Dev.depose
  repeat' (first
    | intro _
    | with_reducible assumption
    | with_reducible apply Dev.wr_canon
    | with_reducible apply Dev.setFld_canon
    | with_reducible apply Dev.setBit_canon
    | with_reducible apply Dev.start_canon
    | with_reducible apply Dev.stop_canon
    | with_reducible apply Dev.hw_canon
    | with_reducible apply Dev.updateBlk_canon
    | with_reducible apply Dev.k2Off_canon
    | with_reducible apply Dev.k1Off_canon
    | with_reducible apply Dev.openReq_canon
    | with_reducible apply Dev.setRole_canon
    | with_reducible apply canon_ite
    | with_reducible apply canon_foldl
    | (unfold Dev.Canon; dsimp only; with_reducible refine canon_fold ?_)
    | (extract_lets +onlyGivenNames e; refine canon_have (d := e) ?_ ?_; unfold e; rotate_left; intro; clear_value e; rotate_right)
    | (extract_lets +onlyGivenNames e; clear_value e)
    | dsimp only)

theorem Dev.epochHigh_canon {d : Dev} (hd : d.Canon) : Dev.Canon (Dev.epochHigh d) := by
  unfold Dev.epochHigh
  repeat' (first
    | with_reducible assumption
    | with_reducible apply Dev.flag_canon)

theorem Dev.shadeDrop_canon {d : Dev} (cause : Nat) (hd : d.Canon) : Dev.Canon (Dev.shadeDrop d cause) := by
  unfold Dev.shadeDrop
  repeat' (first
    | with_reducible assumption
    | with_reducible apply Dev.flag_canon
    | with_reducible apply Dev.start_canon
    | with_reducible apply Dev.stop_canon
    | with_reducible apply Dev.hw_canon
    | with_reducible apply Dev.k2Off_canon
    | with_reducible apply Dev.k1Off_canon
    | with_reducible apply Dev.openReq_canon
    | with_reducible apply Dev.cycIdle_canon
    | with_reducible apply Dev.setRole_canon
    | with_reducible apply canon_ite
    | (unfold Dev.Canon; dsimp only; with_reducible refine canon_fold ?_)
    | (extract_lets +onlyGivenNames e; refine canon_have (d := e) ?_ ?_; unfold e; rotate_left; intro; clear_value e; rotate_right)
    | (extract_lets +onlyGivenNames e; clear_value e))

end Sys2Proof.Machine
end

