-- ==== Sys2Proof/Laws/CanonFio.lean ====
section
/-! SUPPORT. Every operation of Sys2Proof/Machine/Fio.lean keeps the canonical form. -/

set_option Elab.async false
set_option linter.all false

namespace Sys2Proof.Machine

theorem Dev.inputSet_canon {d : Dev} (n : Nat) (b : Bool) (hd : d.Canon) : Dev.Canon (Dev.inputSet d n b) := by
  unfold Dev.inputSet
  repeat' (first
    | intro _
    | with_reducible assumption
    | with_reducible apply Dev.setBit_canon
    | with_reducible apply Dev.flag_canon
    | with_reducible apply Dev.mirrorNote_canon
    | with_reducible apply Dev.dropMeasure_canon
    | with_reducible apply Dev.discWatch_canon
    | with_reducible apply Dev.limitCheck_canon
    | with_reducible apply Dev.limitInput_canon
    | with_reducible apply Dev.homeNext_canon
    | with_reducible apply Dev.homeInput_canon
    | with_reducible apply canon_ite
    | with_reducible apply canon_foldl
    | (extract_lets +onlyGivenNames e; refine canon_have (d := e) ?_ ?_; unfold e; rotate_left; intro; clear_value e; rotate_right)
    | (extract_lets +onlyGivenNames e; clear_value e)
    | dsimp only)

theorem Dev.filterStep_canon {d : Dev} (n : Nat) (hd : d.Canon) : Dev.Canon (Dev.filterStep d n) := by
  unfold Dev.filterStep
  repeat' (first
    | with_reducible assumption
    | with_reducible apply Dev.inputSet_canon
    | with_reducible apply canon_ite
    | (unfold Dev.Canon; dsimp only; with_reducible refine canon_fold ?_)
    | (extract_lets +onlyGivenNames e; refine canon_have (d := e) ?_ ?_; unfold e; rotate_left; intro; clear_value e; rotate_right)
    | (extract_lets +onlyGivenNames e; clear_value e))

theorem Dev.filterTick_canon {d : Dev} (n : Nat) (level : Bool) (hd : d.Canon) : Dev.Canon (Dev.filterTick d n level) := by
  unfold Dev.filterTick
  repeat' (first
    | with_reducible assumption
    | with_reducible apply Dev.start_canon
    | with_reducible apply Dev.inputSet_canon
    | with_reducible apply Dev.filterStep_canon
    | with_reducible apply canon_ite
    | (unfold Dev.Canon; dsimp only; with_reducible refine canon_fold ?_)
    | (extract_lets +onlyGivenNames e; refine canon_have (d := e) ?_ ?_; unfold e; rotate_left; intro; clear_value e; rotate_right)
    | (extract_lets +onlyGivenNames e; clear_value e))

theorem Dev.inCfg_canon {d : Dev} (n : Nat) (v : Word) (hd : d.Canon) : Dev.Canon (Dev.inCfg d n v) := by
  unfold Dev.inCfg
  repeat' (first
    | with_reducible assumption
    | with_reducible apply Dev.plainWrite_canon
    | with_reducible apply Dev.inputSet_canon
    | with_reducible apply canon_ite
    | (extract_lets +onlyGivenNames e; refine canon_have (d := e) ?_ ?_; unfold e; rotate_left; intro; clear_value e; rotate_right)
    | (extract_lets +onlyGivenNames e; clear_value e))

theorem Dev.outOverload_canon {d : Dev} (k : Nat) (hd : d.Canon) : Dev.Canon (Dev.outOverload d k) := by
  unfold Dev.outOverload
  repeat' (first
    | with_reducible assumption
    | with_reducible apply Dev.flag_canon
    | with_reducible apply Dev.hw_canon
    | with_reducible apply canon_ite)

theorem Dev.outStuck_canon {d : Dev} (k : Nat) (fell : Bool) (hd : d.Canon) : Dev.Canon (Dev.outStuck d k fell) := by
  unfold Dev.outStuck
  repeat' (first
    | with_reducible assumption
    | with_reducible apply Dev.flag_canon
    | with_reducible apply Dev.hw_canon
    | with_reducible apply canon_ite)

theorem Dev.outPulse_canon {d : Dev} (k : Nat) (fell : BitVec 2) (hd : d.Canon) : Dev.Canon (Dev.outPulse d k fell) := by
  unfold Dev.outPulse
  repeat' (first
    | with_reducible assumption
    | with_reducible apply Dev.start_canon
    | with_reducible apply Dev.outStuck_canon
    | with_reducible apply canon_ite
    | (extract_lets +onlyGivenNames e; refine canon_have (d := e) ?_ ?_; unfold e; rotate_left; intro; clear_value e; rotate_right)
    | (extract_lets +onlyGivenNames e; clear_value e))

theorem Dev.tpWrite_canon {d : Dev} (v : Word) (hd : d.Canon) : Dev.Canon (Dev.tpWrite d v) := by
  unfold Dev.tpWrite
  repeat' (first
    | with_reducible assumption
    | with_reducible apply Dev.plainWrite_canon)

theorem Dev.holdWarmEnd_canon {d : Dev} (hd : d.Canon) : Dev.Canon (Dev.holdWarmEnd d) := by
  unfold Dev.holdWarmEnd
  repeat' (first
    | with_reducible assumption
    | with_reducible apply Dev.stop_canon
    | with_reducible apply canon_ite
    | (unfold Dev.Canon; dsimp only; with_reducible refine canon_fold ?_)
    | (extract_lets +onlyGivenNames e; refine canon_have (d := e) ?_ ?_; unfold e; rotate_left; intro; clear_value e; rotate_right)
    | (extract_lets +onlyGivenNames e; clear_value e))

theorem Dev.killRelease_canon {d : Dev} (hd : d.Canon) : Dev.Canon (Dev.killRelease d) := by
  unfold Dev.killRelease
  repeat' (first
    | with_reducible assumption
    | with_reducible apply Dev.setBit_canon
    | with_reducible apply Dev.powerRefresh_canon
    | (unfold Dev.Canon; dsimp only; with_reducible refine canon_fold ?_)
    | (extract_lets +onlyGivenNames e; refine canon_have (d := e) ?_ ?_; unfold e; rotate_left; intro; clear_value e; rotate_right)
    | (extract_lets +onlyGivenNames e; clear_value e))

end Sys2Proof.Machine
end

