-- ==== Sys2Proof/Laws/CanonView.lean ====
section
/-! SUPPORT. Every operation of Sys2Proof/Machine/View.lean keeps the canonical form. -/

set_option Elab.async false
set_option linter.all false

namespace Sys2Proof.Machine

theorem Dev.canStatRead_canon {d : Dev} (x : Nat) (hd : d.Canon) : Dev.Canon (Dev.canStatRead d x).2 := by
  unfold Dev.canStatRead
  repeat' (first
    | with_reducible assumption
    | with_reducible apply Dev.setFld_canon
    | dsimp only)

theorem Dev.nvcDoneRead_canon {d : Dev} (hd : d.Canon) : Dev.Canon (Dev.nvcDoneRead d).2 := by
  unfold Dev.nvcDoneRead
  repeat' (first
    | with_reducible assumption
    | with_reducible apply Dev.nvcShow_canon
    | (unfold Dev.Canon; dsimp only; with_reducible refine canon_fold ?_)
    | (extract_lets +onlyGivenNames e; refine canon_have (d := e) ?_ ?_; unfold e; rotate_left; intro; clear_value e; rotate_right)
    | (extract_lets +onlyGivenNames e; clear_value e)
    | dsimp only)

theorem Dev.periphRead_canon {d : Dev} (a : Nat) (hd : d.Canon) : Dev.Canon (Dev.periphRead d a).2 := by
  unfold Dev.periphRead
  repeat' (first
    | with_reducible assumption
    | with_reducible apply Dev.timTbRead_canon
    | with_reducible apply Dev.angAngleRead_canon
    | with_reducible apply Dev.canStatRead_canon
    | with_reducible apply Dev.nvcDoneRead_canon
    | with_reducible apply canon_ite
    | with_reducible apply canon_ite_snd
    | with_reducible apply canon_ite_fst
    | dsimp only)

theorem Dev.snapshot_canon {d : Dev} (c : Nat) (hd : d.Canon) : Dev.Canon (Dev.snapshot d c) := by
  unfold Dev.snapshot
  repeat' (first
    | intro _
    | with_reducible assumption
    | with_reducible apply Dev.flag_canon
    | with_reducible apply Dev.hw_canon
    | with_reducible apply canon_ite
    | (extract_lets +onlyGivenNames e; refine canon_have (d := e) ?_ ?_; unfold e; rotate_left; intro; clear_value e; rotate_right)
    | (extract_lets +onlyGivenNames e; clear_value e)
    | split
    | with_reducible refine canon_snd ?_ (by with_reducible assumption)
    | with_reducible refine canon_fst ?_ (by with_reducible assumption)
    | dsimp only)

end Sys2Proof.Machine
end

