-- ==== Sys2Proof/Laws/CanonCan.lean ====
section
/-! SUPPORT. Every operation of Sys2Proof/Machine/Can.lean keeps the canonical form. -/

set_option Elab.async false
set_option linter.all false

namespace Sys2Proof.Machine

theorem Dev.canCfgErr_canon {d : Dev} (x : Nat) (hd : d.Canon) : Dev.Canon (Dev.canCfgErr d x) := by
  unfold Dev.canCfgErr
  repeat' (first
    | with_reducible assumption
    | with_reducible apply Dev.flag_canon)

theorem Dev.canLeave_canon {d : Dev} (x : Nat) (hd : d.Canon) : Dev.Canon (Dev.canLeave d x) := by
  unfold Dev.canLeave
  repeat' (first
    | with_reducible assumption
    | with_reducible apply Dev.setBit_canon
    | with_reducible apply Dev.hw_canon
    | with_reducible apply Dev.canCfgErr_canon
    | with_reducible apply canon_ite
    | (extract_lets +onlyGivenNames e; refine canon_have (d := e) ?_ ?_; unfold e; rotate_left; intro; clear_value e; rotate_right)
    | (extract_lets +onlyGivenNames e; clear_value e))

theorem Dev.canInit_canon {d : Dev} (x : Nat) (hd : d.Canon) : Dev.Canon (Dev.canInit d x) := by
  unfold Dev.canInit
  repeat' (first
    | with_reducible assumption
    | with_reducible apply Dev.setBit_canon)

theorem Dev.canRecover_canon {d : Dev} (x : Nat) (hd : d.Canon) : Dev.Canon (Dev.canRecover d x) := by
  unfold Dev.canRecover
  repeat' (first
    | with_reducible assumption
    | with_reducible apply Dev.start_canon
    | with_reducible apply canon_ite)

theorem Dev.canCtl_canon {d : Dev} (x : Nat) (v : Word) (hd : d.Canon) : Dev.Canon (Dev.canCtl d x v) := by
  unfold Dev.canCtl
  repeat' (first
    | with_reducible assumption
    | with_reducible apply Dev.plainWrite_canon
    | with_reducible apply Dev.canLeave_canon
    | with_reducible apply Dev.canInit_canon
    | with_reducible apply Dev.canRecover_canon
    | with_reducible apply canon_ite
    | (extract_lets +onlyGivenNames e; refine canon_have (d := e) ?_ ?_; unfold e; rotate_left; intro; clear_value e; rotate_right)
    | (extract_lets +onlyGivenNames e; clear_value e))

theorem Dev.canTiming_canon {d : Dev} (x a : Nat) (v : Word) (hd : d.Canon) : Dev.Canon (Dev.canTiming d x a v) := by
  unfold Dev.canTiming
  repeat' (first
    | with_reducible assumption
    | with_reducible apply Dev.plainWrite_canon
    | with_reducible apply Dev.canCfgErr_canon
    | with_reducible apply canon_ite)

theorem Dev.canObjWrite_canon {d : Dev} (x n w : Nat) (v : Word) (hd : d.Canon) : Dev.Canon (Dev.canObjWrite d x n w v) := by
  unfold Dev.canObjWrite
  repeat' (first
    | with_reducible assumption
    | with_reducible apply Dev.flag_canon
    | with_reducible apply Dev.plainWrite_canon
    | with_reducible apply canon_ite)

theorem Dev.canLost_canon {d : Dev} (x n : Nat) (hd : d.Canon) : Dev.Canon (Dev.canLost d x n) := by
  unfold Dev.canLost
  repeat' (first
    | with_reducible assumption
    | with_reducible apply Dev.flag_canon
    | with_reducible apply Dev.start_canon
    | with_reducible apply Dev.hw_canon
    | with_reducible apply canon_ite
    | (extract_lets +onlyGivenNames e; refine canon_have (d := e) ?_ ?_; unfold e; rotate_left; intro; clear_value e; rotate_right)
    | (extract_lets +onlyGivenNames e; clear_value e))

theorem Dev.canStore_canon {d : Dev} (x n : Nat) (flags dlc : Nat) (rxid : Word) (data : List Byte) (hd : d.Canon) : Dev.Canon (Dev.canStore d x n flags dlc rxid data) := by
  unfold Dev.canStore
  repeat' (first
    | intro _
    | with_reducible assumption
    | with_reducible apply Dev.wr_canon
    | with_reducible apply Dev.flag_canon
    | with_reducible apply canon_foldl
    | (extract_lets +onlyGivenNames e; refine canon_have (d := e) ?_ ?_; unfold e; rotate_left; intro; clear_value e; rotate_right)
    | (extract_lets +onlyGivenNames e; clear_value e)
    | dsimp only)

theorem Dev.canTake_canon {d : Dev} (x : Nat) (ide : Bool) (flags dlc : Nat) (rxid : Word) (data : List Byte) (hd : d.Canon) : Dev.Canon (Dev.canTake d x ide flags dlc rxid data) := by
  unfold Dev.canTake
  repeat' (first
    | intro _
    | with_reducible assumption
    | with_reducible apply Dev.flag_canon
    | with_reducible apply Dev.canLost_canon
    | with_reducible apply Dev.canStore_canon
    | with_reducible apply canon_ite
    | split
    | with_reducible refine canon_snd ?_ (by with_reducible assumption)
    | with_reducible refine canon_fst ?_ (by with_reducible assumption)
    | dsimp only)

theorem Dev.canRdsel_canon {d : Dev} (x n : Nat) (hd : d.Canon) : Dev.Canon (Dev.canRdsel d x n) := by
  unfold Dev.canRdsel
  repeat' (first
    | intro _
    | with_reducible assumption
    | with_reducible apply Dev.wr_canon
    | with_reducible apply Dev.canTaken_canon
    | with_reducible apply canon_ite
    | with_reducible apply canon_foldl
    | (extract_lets +onlyGivenNames e; refine canon_have (d := e) ?_ ?_; unfold e; rotate_left; intro; clear_value e; rotate_right)
    | (extract_lets +onlyGivenNames e; clear_value e)
    | dsimp only)

theorem Dev.canRequest_canon {d : Dev} (x n : Nat) (hd : d.Canon) : Dev.Canon (Dev.canRequest d x n) := by
  unfold Dev.canRequest
  repeat' (first
    | with_reducible assumption
    | with_reducible apply Dev.canArm_canon
    | with_reducible apply canon_ite
    | (extract_lets +onlyGivenNames e; refine canon_have (d := e) ?_ ?_; unfold e; rotate_left; intro; clear_value e; rotate_right)
    | (extract_lets +onlyGivenNames e; clear_value e))

theorem Dev.canTxreq_canon {d : Dev} (x k : Nat) (v : Word) (hd : d.Canon) : Dev.Canon (Dev.canTxreq d x k v) := by
  unfold Dev.canTxreq
  repeat' (first
    | intro _
    | with_reducible assumption
    | with_reducible apply Dev.canRequest_canon
    | with_reducible apply canon_ite
    | with_reducible apply canon_foldl
    | dsimp only)

theorem Dev.canTxcan_canon {d : Dev} (x k : Nat) (v : Word) (onBus : Option Nat) (hd : d.Canon) : Dev.Canon (Dev.canTxcan d x k v onBus) := by
  unfold Dev.canTxcan
  repeat' (first
    | intro _
    | with_reducible assumption
    | with_reducible apply Dev.canDisarm_canon
    | with_reducible apply canon_ite
    | with_reducible apply canon_foldl
    | (extract_lets +onlyGivenNames e; refine canon_have (d := e) ?_ ?_; unfold e; rotate_left; intro; clear_value e; rotate_right)
    | (extract_lets +onlyGivenNames e; clear_value e)
    | dsimp only)

theorem Dev.canCount_canon {d : Dev} (x tec rec : Nat) (hd : d.Canon) : Dev.Canon (Dev.canCount d x tec rec) := by
  unfold Dev.canCount
  repeat' (first
    | with_reducible assumption
    | with_reducible apply Dev.wr_canon
    | with_reducible apply Dev.setBit_canon
    | with_reducible apply Dev.hw_canon
    | with_reducible apply Dev.canRecover_canon
    | with_reducible apply canon_ite
    | (extract_lets +onlyGivenNames e; refine canon_have (d := e) ?_ ?_; unfold e; rotate_left; intro; clear_value e; rotate_right)
    | (extract_lets +onlyGivenNames e; clear_value e))

theorem Dev.canLec_canon {d : Dev} (x code : Nat) (data : Bool) (hd : d.Canon) : Dev.Canon (Dev.canLec d x code data) := by
  unfold Dev.canLec
  repeat' (first
    | with_reducible assumption
    | with_reducible apply Dev.setFld_canon
    | with_reducible apply canon_ite)

theorem Dev.canRxGood_canon {d : Dev} (x : Nat) (hd : d.Canon) : Dev.Canon (Dev.canRxGood d x) := by
  unfold Dev.canRxGood
  repeat' (first
    | with_reducible assumption
    | with_reducible apply Dev.nextFree_canon
    | with_reducible apply Dev.canCount_canon
    | with_reducible apply canon_ite
    | (unfold Dev.Canon; dsimp only; with_reducible refine canon_fold ?_)
    | (extract_lets +onlyGivenNames e; refine canon_have (d := e) ?_ ?_; unfold e; rotate_left; intro; clear_value e; rotate_right)
    | (extract_lets +onlyGivenNames e; clear_value e)
    | split
    | with_reducible refine canon_snd ?_ (by with_reducible assumption)
    | with_reducible refine canon_fst ?_ (by with_reducible assumption)
    | dsimp only)

theorem Dev.canReceive_canon {d : Dev} (x : Nat) (ide fdf brs esi rtr : Bool) (id : BitVec 29) (dlc : Nat) (data : List Byte) (hd : d.Canon) : Dev.Canon (Dev.canReceive d x ide fdf brs esi rtr id dlc data) := by
  unfold Dev.canReceive
  repeat' (first
    | with_reducible assumption
    | with_reducible apply Dev.take_canon
    | with_reducible apply Dev.canTake_canon
    | with_reducible apply Dev.canRxGood_canon
    | with_reducible apply canon_ite
    | (extract_lets +onlyGivenNames e; refine canon_have (d := e) ?_ ?_; unfold e; rotate_left; intro; clear_value e; rotate_right)
    | (extract_lets +onlyGivenNames e; clear_value e))

theorem Dev.canRxError_canon {d : Dev} (x code : Nat) (data : Bool) (rise : Nat) (hd : d.Canon) : Dev.Canon (Dev.canRxError d x code data rise) := by
  unfold Dev.canRxError
  repeat' (first
    | with_reducible assumption
    | with_reducible apply Dev.canCount_canon
    | with_reducible apply Dev.canLec_canon
    | with_reducible apply canon_ite
    | (extract_lets +onlyGivenNames e; refine canon_have (d := e) ?_ ?_; unfold e; rotate_left; intro; clear_value e; rotate_right)
    | (extract_lets +onlyGivenNames e; clear_value e))

theorem Dev.canSuccess_canon {d : Dev} (x n : Nat) (hd : d.Canon) : Dev.Canon (Dev.canSuccess d x n) := by
  unfold Dev.canSuccess
  repeat' (first
    | with_reducible assumption
    | with_reducible apply Dev.wr_canon
    | with_reducible apply Dev.flag_canon
    | with_reducible apply Dev.send_canon
    | with_reducible apply Dev.canDisarm_canon
    | with_reducible apply Dev.canTake_canon
    | with_reducible apply Dev.canCount_canon
    | with_reducible apply canon_ite
    | (extract_lets +onlyGivenNames e; refine canon_have (d := e) ?_ ?_; unfold e; rotate_left; intro; clear_value e; rotate_right)
    | (extract_lets +onlyGivenNames e; clear_value e))

theorem Dev.canFailure_canon {d : Dev} (x n code : Nat) (data : Bool) (rises : Nat) (hd : d.Canon) : Dev.Canon (Dev.canFailure d x n code data rises) := by
  unfold Dev.canFailure
  repeat' (first
    | with_reducible assumption
    | with_reducible apply Dev.setFld_canon
    | with_reducible apply Dev.flag_canon
    | with_reducible apply Dev.hw_canon
    | with_reducible apply Dev.canDisarm_canon
    | with_reducible apply Dev.canCount_canon
    | with_reducible apply Dev.canLec_canon
    | with_reducible apply canon_ite
    | (extract_lets +onlyGivenNames e; refine canon_have (d := e) ?_ ?_; unfold e; rotate_left; intro; clear_value e; rotate_right)
    | (extract_lets +onlyGivenNames e; clear_value e))

theorem Dev.canAttempt_canon {d : Dev} (x ago : Nat) (tdcv : BitVec 7) (err : Option (BitVec 3 × Bool × Byte)) (hd : d.Canon) : Dev.Canon (Dev.canAttempt d x ago tdcv err) := by
  unfold Dev.canAttempt
  repeat' (first
    | with_reducible assumption
    | with_reducible apply Dev.setFld_canon
    | with_reducible apply Dev.canSuccess_canon
    | with_reducible apply Dev.canFailure_canon
    | with_reducible apply canon_ite
    | (extract_lets +onlyGivenNames e; refine canon_have (d := e) ?_ ?_; unfold e; rotate_left; intro; clear_value e; rotate_right)
    | (extract_lets +onlyGivenNames e; clear_value e)
    | split
    | with_reducible refine canon_snd ?_ (by with_reducible assumption)
    | with_reducible refine canon_fst ?_ (by with_reducible assumption)
    | dsimp only)

theorem Dev.canIntegrated_canon {d : Dev} (x : Nat) (hd : d.Canon) : Dev.Canon (Dev.canIntegrated d x) := by
  unfold Dev.canIntegrated
  repeat' (first
    | with_reducible assumption
    | with_reducible apply Dev.setBit_canon
    | with_reducible apply Dev.flag_canon
    | with_reducible apply canon_ite)

theorem Dev.canRecovered_canon {d : Dev} (x : Nat) (hd : d.Canon) : Dev.Canon (Dev.canRecovered d x) := by
  unfold Dev.canRecovered
  repeat' (first
    | with_reducible assumption
    | with_reducible apply Dev.setBit_canon
    | with_reducible apply Dev.flag_canon
    | with_reducible apply Dev.stop_canon
    | with_reducible apply Dev.hw_canon
    | with_reducible apply Dev.canCount_canon
    | with_reducible apply canon_ite
    | (extract_lets +onlyGivenNames e; refine canon_have (d := e) ?_ ?_; unfold e; rotate_left; intro; clear_value e; rotate_right)
    | (extract_lets +onlyGivenNames e; clear_value e))

theorem Dev.canTxcanStore_canon {d : Dev} (x k : Nat) (v : Word) (hd : d.Canon) : Dev.Canon (Dev.canTxcanStore d x k v) := by
  unfold Dev.canTxcanStore
  repeat' (first
    | with_reducible assumption
    | with_reducible apply Dev.nextFree_canon
    | with_reducible apply Dev.canTxcan_canon
    | with_reducible apply canon_ite
    | (unfold Dev.Canon; dsimp only; with_reducible refine canon_fold ?_)
    | (extract_lets +onlyGivenNames e; refine canon_have (d := e) ?_ ?_; unfold e; rotate_left; intro; clear_value e; rotate_right)
    | (extract_lets +onlyGivenNames e; clear_value e)
    | split
    | with_reducible refine canon_snd ?_ (by with_reducible assumption)
    | with_reducible refine canon_fst ?_ (by with_reducible assumption)
    | dsimp only)

end Sys2Proof.Machine
end

