-- ==== Sys2Proof/Laws/CanonDma.lean ====
section
/-! SUPPORT. Every operation of Sys2Proof/Machine/Dma.lean keeps the canonical form. -/

set_option Elab.async false
set_option linter.all false

namespace Sys2Proof.Machine

theorem Dev.dmaLook_canon {d : Dev} (r : Nat) (hd : d.Canon) : Dev.Canon (Dev.dmaLook d r) := by
  unfold Dev.dmaLook
  repeat' (first
    | with_reducible assumption
    | with_reducible apply canon_ite
    | (unfold Dev.Canon; dsimp only; with_reducible refine canon_fold ?_)
    | (extract_lets +onlyGivenNames e; refine canon_have (d := e) ?_ ?_; unfold e; rotate_left; intro; clear_value e; rotate_right)
    | (extract_lets +onlyGivenNames e; clear_value e))

theorem Dev.dmaEnd_canon {d : Dev} (r status : Nat) (len : Option Nat) (w2 : Option Nat) (w3 : Nat) (fin : Bool) (hd : d.Canon) : Dev.Canon (Dev.dmaEnd d r status len w2 w3 fin) := by
  unfold Dev.dmaEnd
  repeat' (first
    | with_reducible assumption
    | with_reducible apply Dev.setFld_canon
    | with_reducible apply Dev.setBit_canon
    | with_reducible apply Dev.flag_canon
    | with_reducible apply Dev.satInc_canon
    | with_reducible apply Dev.hw_canon
    | with_reducible apply Dev.agentStore_canon
    | with_reducible apply Dev.dmaLook_canon
    | with_reducible apply canon_ite
    | (extract_lets +onlyGivenNames e; refine canon_have (d := e) ?_ ?_; unfold e; rotate_left; intro; clear_value e; rotate_right)
    | (extract_lets +onlyGivenNames e; clear_value e)
    | split
    | with_reducible refine canon_snd ?_ (by with_reducible assumption)
    | with_reducible refine canon_fst ?_ (by with_reducible assumption)
    | dsimp only)

theorem Dev.ethLearn_canon {d : Dev} (mac port : Nat) (hd : d.Canon) : Dev.Canon (Dev.ethLearn d mac port) := by
  unfold Dev.ethLearn
  repeat' (first
    | with_reducible assumption
    | with_reducible apply canon_ite
    | (unfold Dev.Canon; dsimp only; with_reducible refine canon_fold ?_)
    | (extract_lets +onlyGivenNames e; refine canon_have (d := e) ?_ ?_; unfold e; rotate_left; intro; clear_value e; rotate_right)
    | (extract_lets +onlyGivenNames e; clear_value e))

theorem Dev.ethSend_canon {d : Dev} (port queue : Nat) (l : List Byte) (hd : d.Canon) : Dev.Canon (Dev.ethSend d port queue l) := by
  unfold Dev.ethSend
  repeat' (first
    | with_reducible assumption
    | with_reducible apply Dev.send_canon)

theorem Dev.hostSend_canon {d : Dev} (r status : Nat) (hd : d.Canon) : Dev.Canon (Dev.hostSend d r status) := by
  unfold Dev.hostSend
  repeat' (first
    | intro _
    | with_reducible assumption
    | with_reducible apply Dev.corrected_canon
    | with_reducible apply Dev.dmaEnd_canon
    | with_reducible apply Dev.ethLearn_canon
    | with_reducible apply Dev.ethSend_canon
    | with_reducible apply canon_ite
    | with_reducible apply canon_foldl
    | with_reducible apply canon_foldl_fst
    | with_reducible apply canon_foldl_snd
    | (extract_lets +onlyGivenNames e; refine canon_have (d := e) ?_ ?_; unfold e; rotate_left; intro; clear_value e; rotate_right)
    | (extract_lets +onlyGivenNames e; clear_value e)
    | split
    | with_reducible refine canon_snd ?_ (by with_reducible assumption)
    | with_reducible refine canon_fst ?_ (by with_reducible assumption)
    | dsimp only)

theorem Dev.launch_canon {d : Dev} (r : Nat) (busy : Bool) (hd : d.Canon) : Dev.Canon (Dev.launch d r busy) := by
  unfold Dev.launch
  repeat' (first
    | with_reducible assumption
    | with_reducible apply Dev.flag_canon
    | with_reducible apply Dev.hw_canon
    | with_reducible apply Dev.dmaEnd_canon
    | with_reducible apply Dev.hostSend_canon
    | with_reducible apply canon_ite
    | (extract_lets +onlyGivenNames e; refine canon_have (d := e) ?_ ?_; unfold e; rotate_left; intro; clear_value e; rotate_right)
    | (extract_lets +onlyGivenNames e; clear_value e)
    | split
    | with_reducible refine canon_snd ?_ (by with_reducible assumption)
    | with_reducible refine canon_fst ?_ (by with_reducible assumption)
    | dsimp only)

theorem Dev.dmaRun_canon {d : Dev} (r : Nat) (y0 : Nat) (hd : d.Canon) : Dev.Canon (Dev.dmaRun d r y0) := by
  induction y0 generalizing d r with
  | zero =>
    unfold Dev.dmaRun
    repeat' (first
      | with_reducible assumption
      | with_reducible apply Dev.dmaLook_canon
      | with_reducible apply Dev.dmaEnd_canon
      | with_reducible apply canon_ite
      | split
      | with_reducible refine canon_snd ?_ (by with_reducible assumption)
      | with_reducible refine canon_fst ?_ (by with_reducible assumption))
  | succ k ih =>
    unfold Dev.dmaRun
    repeat' (first
      | with_reducible assumption
      | with_reducible apply Dev.dmaLook_canon
      | with_reducible apply Dev.dmaEnd_canon
      | with_reducible apply ih
      | with_reducible apply canon_ite
      | split
      | with_reducible refine canon_snd ?_ (by with_reducible assumption)
      | with_reducible refine canon_fst ?_ (by with_reducible assumption))

theorem Dev.dmaTailWrite_canon {d : Dev} (r : Nat) (v : Word) (hd : d.Canon) : Dev.Canon (Dev.dmaTailWrite d r v) := by
  unfold Dev.dmaTailWrite
  repeat' (first
    | with_reducible assumption
    | with_reducible apply Dev.wr_canon
    | with_reducible apply Dev.dmaRun_canon
    | (unfold Dev.Canon; dsimp only; with_reducible refine canon_fold ?_)
    | (extract_lets +onlyGivenNames e; refine canon_have (d := e) ?_ ?_; unfold e; rotate_left; intro; clear_value e; rotate_right)
    | (extract_lets +onlyGivenNames e; clear_value e))

theorem Dev.dmaBaseWrite_canon {d : Dev} (r : Nat) (v : Word) (hd : d.Canon) : Dev.Canon (Dev.dmaBaseWrite d r v) := by
  unfold Dev.dmaBaseWrite
  repeat' (first
    | with_reducible assumption
    | with_reducible apply Dev.wr_canon
    | with_reducible apply Dev.plainWrite_canon
    | with_reducible apply canon_ite)

theorem Dev.dmaCfgWrite_canon {d : Dev} (r : Nat) (v : Word) (hd : d.Canon) : Dev.Canon (Dev.dmaCfgWrite d r v) := by
  unfold Dev.dmaCfgWrite
  repeat' (first
    | with_reducible assumption
    | with_reducible apply Dev.setFld_canon
    | with_reducible apply Dev.setBit_canon
    | with_reducible apply Dev.flag_canon
    | with_reducible apply Dev.dmaRun_canon
    | with_reducible apply canon_ite
    | (extract_lets +onlyGivenNames e; refine canon_have (d := e) ?_ ?_; unfold e; rotate_left; intro; clear_value e; rotate_right)
    | (extract_lets +onlyGivenNames e; clear_value e))

theorem Dev.copyAsc_canon {d : Dev} (src dst : Nat) (y0 : Nat) (hd : d.Canon) : Dev.Canon (Dev.copyAsc d src dst y0) := by
  induction y0 generalizing d src dst with
  | zero =>
    unfold Dev.copyAsc
    repeat' (first
      | with_reducible assumption
      | with_reducible apply Dev.agentStore_canon
      | split
      | with_reducible refine canon_snd ?_ (by with_reducible assumption)
      | with_reducible refine canon_fst ?_ (by with_reducible assumption))
  | succ k ih =>
    unfold Dev.copyAsc
    repeat' (first
      | with_reducible assumption
      | with_reducible apply Dev.agentStore_canon
      | with_reducible apply ih
      | split
      | with_reducible refine canon_snd ?_ (by with_reducible assumption)
      | with_reducible refine canon_fst ?_ (by with_reducible assumption))

theorem Dev.dmaCopy_canon {d : Dev} (r : Nat) (hd : d.Canon) : Dev.Canon (Dev.dmaCopy d r) := by
  unfold Dev.dmaCopy
  repeat' (first
    | with_reducible assumption
    | with_reducible apply Dev.corrected_canon
    | with_reducible apply Dev.dmaEnd_canon
    | with_reducible apply Dev.copyAsc_canon
    | with_reducible apply canon_ite
    | (extract_lets +onlyGivenNames e; refine canon_have (d := e) ?_ ?_; unfold e; rotate_left; intro; clear_value e; rotate_right)
    | (extract_lets +onlyGivenNames e; clear_value e)
    | split
    | with_reducible refine canon_snd ?_ (by with_reducible assumption)
    | with_reducible refine canon_fst ?_ (by with_reducible assumption)
    | dsimp only)

theorem Dev.dmaUsbOut_canon {d : Dev} (r : Nat) (hd : d.Canon) : Dev.Canon (Dev.dmaUsbOut d r) := by
  unfold Dev.dmaUsbOut
  repeat' (first
    | with_reducible assumption
    | with_reducible apply Dev.send_canon
    | with_reducible apply Dev.corrected_canon
    | with_reducible apply Dev.dmaEnd_canon
    | (extract_lets +onlyGivenNames e; refine canon_have (d := e) ?_ ?_; unfold e; rotate_left; intro; clear_value e; rotate_right)
    | (extract_lets +onlyGivenNames e; clear_value e)
    | split
    | with_reducible refine canon_snd ?_ (by with_reducible assumption)
    | with_reducible refine canon_fst ?_ (by with_reducible assumption)
    | dsimp only)

theorem Dev.dmaHostOut_canon {d : Dev} (r : Nat) (hd : d.Canon) : Dev.Canon (Dev.dmaHostOut d r) := by
  unfold Dev.dmaHostOut
  repeat' (first
    | with_reducible assumption
    | with_reducible apply Dev.dmaEnd_canon
    | with_reducible apply Dev.hostSend_canon
    | with_reducible apply canon_ite
    | split
    | with_reducible refine canon_snd ?_ (by with_reducible assumption)
    | with_reducible refine canon_fst ?_ (by with_reducible assumption)
    | dsimp only)

theorem Dev.dmaFill_canon {d : Dev} (r : Nat) (l : List Byte) (w2 w3 : Nat) (svc : Bool) (hd : d.Canon) : Dev.Canon (Dev.dmaFill d r l w2 w3 svc) := by
  unfold Dev.dmaFill
  repeat' (first
    | with_reducible assumption
    | with_reducible apply Dev.agentStore_canon
    | with_reducible apply Dev.take_canon
    | with_reducible apply Dev.dmaEnd_canon
    | with_reducible apply canon_ite
    | (unfold Dev.Canon; dsimp only; with_reducible refine canon_fold ?_)
    | (extract_lets +onlyGivenNames e; refine canon_have (d := e) ?_ ?_; unfold e; rotate_left; intro; clear_value e; rotate_right)
    | (extract_lets +onlyGivenNames e; clear_value e))

theorem Dev.dmaComplete_canon {d : Dev} (r : Nat) (msg : List Byte) (hd : d.Canon) : Dev.Canon (Dev.dmaComplete d r msg) := by
  unfold Dev.dmaComplete
  repeat' (first
    | with_reducible assumption
    | with_reducible apply Dev.dmaCopy_canon
    | with_reducible apply Dev.dmaUsbOut_canon
    | with_reducible apply Dev.dmaHostOut_canon
    | with_reducible apply Dev.dmaFill_canon
    | with_reducible apply canon_ite
    | (unfold Dev.Canon; dsimp only; with_reducible refine canon_fold ?_)
    | (extract_lets +onlyGivenNames e; refine canon_have (d := e) ?_ ?_; unfold e; rotate_left; intro; clear_value e; rotate_right)
    | (extract_lets +onlyGivenNames e; clear_value e)
    | split
    | with_reducible refine canon_snd ?_ (by with_reducible assumption)
    | with_reducible refine canon_fst ?_ (by with_reducible assumption)
    | dsimp only)

theorem Dev.dmaStep_canon {d : Dev} (r : Nat) (msg : List Byte) (hd : d.Canon) : Dev.Canon (Dev.dmaStep d r msg) := by
  unfold Dev.dmaStep
  repeat' (first
    | with_reducible assumption
    | with_reducible apply Dev.dmaRun_canon
    | with_reducible apply Dev.dmaComplete_canon
    | (extract_lets +onlyGivenNames e; refine canon_have (d := e) ?_ ?_; unfold e; rotate_left; intro; clear_value e; rotate_right)
    | (extract_lets +onlyGivenNames e; clear_value e))

end Sys2Proof.Machine
end

