-- ==== Sys2Proof/Laws/CanonEth.lean ====
section
/-! SUPPORT. Every operation of Sys2Proof/Machine/Eth.lean keeps the canonical form. -/

set_option Elab.async false
set_option linter.all false

namespace Sys2Proof.Machine

theorem Dev.hostDeliver_canon {d : Dev} (port : Nat) (l : List Byte) (hd : d.Canon) : Dev.Canon (Dev.hostDeliver d port l) := by
  unfold Dev.hostDeliver
  repeat' (first
    | with_reducible assumption
    | (unfold Dev.Canon; dsimp only; with_reducible refine canon_fold ?_)
    | (extract_lets +onlyGivenNames e; refine canon_have (d := e) ?_ ?_; unfold e; rotate_left; intro; clear_value e; rotate_right)
    | (extract_lets +onlyGivenNames e; clear_value e)
    | split
    | with_reducible refine canon_snd ?_ (by with_reducible assumption)
    | with_reducible refine canon_fst ?_ (by with_reducible assumption)
    | dsimp only)

theorem Dev.tcForward_canon {d : Dev} (l : List Byte) (ingress egress res : Nat) (hd : d.Canon) : Dev.Canon (Dev.tcForward d l ingress egress res).2 := by
  unfold Dev.tcForward
  repeat' (first
    | with_reducible assumption
    | with_reducible apply canon_ite
    | with_reducible apply canon_ite_snd
    | with_reducible apply canon_ite_fst
    | (unfold Dev.Canon; dsimp only; with_reducible refine canon_fold ?_)
    | (extract_lets +onlyGivenNames e; refine canon_have (d := e) ?_ ?_; unfold e; rotate_left; intro; clear_value e; rotate_right)
    | (extract_lets +onlyGivenNames e; clear_value e)
    | split
    | with_reducible refine canon_snd ?_ (by with_reducible assumption)
    | with_reducible refine canon_fst ?_ (by with_reducible assumption)
    | dsimp only)

theorem Dev.ethEgress_canon {d : Dev} (l : List Byte) (ingress res egress : Nat) (hd : d.Canon) : Dev.Canon (Dev.ethEgress d l ingress res egress) := by
  unfold Dev.ethEgress
  repeat' (first
    | with_reducible assumption
    | with_reducible apply Dev.ethSend_canon
    | with_reducible apply Dev.hostDeliver_canon
    | with_reducible apply Dev.tcForward_canon
    | with_reducible apply canon_ite
    | (extract_lets +onlyGivenNames e; refine canon_have (d := e) ?_ ?_; unfold e; rotate_left; intro; clear_value e; rotate_right)
    | (extract_lets +onlyGivenNames e; clear_value e)
    | split
    | with_reducible refine canon_snd ?_ (by with_reducible assumption)
    | with_reducible refine canon_fst ?_ (by with_reducible assumption)
    | dsimp only)

theorem Dev.ethReceive_canon {d : Dev} (k : Nat) (l : List Byte) (fcsOk : Bool) (res : Nat) (hd : d.Canon) : Dev.Canon (Dev.ethReceive d k l fcsOk res) := by
  unfold Dev.ethReceive
  repeat' (first
    | intro _
    | with_reducible assumption
    | with_reducible apply Dev.satInc_canon
    | with_reducible apply Dev.ethLearn_canon
    | with_reducible apply Dev.ethEgress_canon
    | with_reducible apply canon_ite
    | with_reducible apply canon_foldl
    | with_reducible apply canon_foldl_fst
    | with_reducible apply canon_foldl_snd
    | (extract_lets +onlyGivenNames e; refine canon_have (d := e) ?_ ?_; unfold e; rotate_left; intro; clear_value e; rotate_right)
    | (extract_lets +onlyGivenNames e; clear_value e)
    | split
    | with_reducible refine canon_snd ?_ (by with_reducible assumption)
    | with_reducible refine canon_fst ?_ (by with_reducible assumption)
    | dsimp only)

theorem Dev.ethAge_canon {d : Dev} (mac : Nat) (hd : d.Canon) : Dev.Canon (Dev.ethAge d mac) := by
  unfold Dev.ethAge
  repeat' (first
    | with_reducible assumption
    | with_reducible apply canon_ite
    | (unfold Dev.Canon; dsimp only; with_reducible refine canon_fold ?_)
    | (extract_lets +onlyGivenNames e; refine canon_have (d := e) ?_ ?_; unfold e; rotate_left; intro; clear_value e; rotate_right)
    | (extract_lets +onlyGivenNames e; clear_value e)
    | split
    | with_reducible refine canon_snd ?_ (by with_reducible assumption)
    | with_reducible refine canon_fst ?_ (by with_reducible assumption)
    | dsimp only)

theorem Dev.ncapSet_canon {d : Dev} (k : Nat) (hd : d.Canon) : Dev.Canon (Dev.ncapSet d k) := by
  unfold Dev.ncapSet
  repeat' (first
    | with_reducible assumption
    | with_reducible apply Dev.setBit_canon
    | with_reducible apply Dev.hw_canon
    | with_reducible apply canon_ite)

theorem Dev.peerDelay_canon {d : Dev} (k : Nat) (ans : Option (Int × Int × Int × Int)) (hd : d.Canon) : Dev.Canon (Dev.peerDelay d k ans) := by
  unfold Dev.peerDelay
  repeat' (first
    | with_reducible assumption
    | with_reducible apply Dev.setFld_canon
    | with_reducible apply Dev.setBit_canon
    | with_reducible apply Dev.start_canon
    | with_reducible apply Dev.send_canon
    | with_reducible apply Dev.ncapSet_canon
    | with_reducible apply canon_ite
    | (unfold Dev.Canon; dsimp only; with_reducible refine canon_fold ?_)
    | (extract_lets +onlyGivenNames e; refine canon_have (d := e) ?_ ?_; unfold e; rotate_left; intro; clear_value e; rotate_right)
    | (extract_lets +onlyGivenNames e; clear_value e)
    | split
    | with_reducible refine canon_snd ?_ (by with_reducible assumption)
    | with_reducible refine canon_fst ?_ (by with_reducible assumption)
    | dsimp only)

theorem Dev.tcCtl_canon {d : Dev} (v : Word) (hd : d.Canon) : Dev.Canon (Dev.tcCtl d v) := by
  unfold Dev.tcCtl
  repeat' (first
    | with_reducible assumption
    | with_reducible apply Dev.plainWrite_canon
    | with_reducible apply Dev.ncapSet_canon
    | with_reducible apply canon_ite
    | (extract_lets +onlyGivenNames e; refine canon_have (d := e) ?_ ?_; unfold e; rotate_left; intro; clear_value e; rotate_right)
    | (extract_lets +onlyGivenNames e; clear_value e))

theorem Dev.pdelayAnswer_canon {d : Dev} (k : Nat) (req : List Byte) (hd : d.Canon) : Dev.Canon (Dev.pdelayAnswer d k req) := by
  unfold Dev.pdelayAnswer
  repeat' (first
    | with_reducible assumption
    | with_reducible apply Dev.send_canon
    | with_reducible apply canon_ite
    | (extract_lets +onlyGivenNames e; refine canon_have (d := e) ?_ ?_; unfold e; rotate_left; intro; clear_value e; rotate_right)
    | (extract_lets +onlyGivenNames e; clear_value e)
    | split
    | with_reducible refine canon_snd ?_ (by with_reducible assumption)
    | with_reducible refine canon_fst ?_ (by with_reducible assumption)
    | dsimp only)

theorem Dev.announce_canon {d : Dev} (dom sender : Nat) (m : Master) (hd : d.Canon) : Dev.Canon (Dev.announce d dom sender m) := by
  unfold Dev.announce
  repeat' (first
    | with_reducible assumption
    | with_reducible apply Dev.flag_canon
    | with_reducible apply Dev.hw_canon
    | with_reducible apply canon_ite
    | (unfold Dev.Canon; dsimp only; with_reducible refine canon_fold ?_)
    | (extract_lets +onlyGivenNames e; refine canon_have (d := e) ?_ ?_; unfold e; rotate_left; intro; clear_value e; rotate_right)
    | (extract_lets +onlyGivenNames e; clear_value e))

theorem Dev.servoTim_canon {d : Dev} (ofs : Int) (valid : Bool) (hd : d.Canon) : Dev.Canon (Dev.servoTim d ofs valid) := by
  unfold Dev.servoTim
  repeat' (first
    | with_reducible assumption
    | with_reducible apply Dev.timInc_canon
    | with_reducible apply Dev.timAdjSec_canon
    | with_reducible apply Dev.timAdjNs_canon
    | with_reducible apply Dev.timCtl_canon
    | with_reducible apply canon_ite
    | (unfold Dev.Canon; dsimp only; with_reducible refine canon_fold ?_)
    | (extract_lets +onlyGivenNames e; refine canon_have (d := e) ?_ ?_; unfold e; rotate_left; intro; clear_value e; rotate_right)
    | (extract_lets +onlyGivenNames e; clear_value e))

theorem Dev.syncUpdate_canon {d : Dev} (cls seq : Nat) (ofs : Int) (hd : d.Canon) : Dev.Canon (Dev.syncUpdate d cls seq ofs) := by
  unfold Dev.syncUpdate
  repeat' (first
    | with_reducible assumption
    | with_reducible apply Dev.wr_canon
    | with_reducible apply Dev.servoTim_canon
    | with_reducible apply canon_ite
    | (extract_lets +onlyGivenNames e; refine canon_have (d := e) ?_ ?_; unfold e; rotate_left; intro; clear_value e; rotate_right)
    | (extract_lets +onlyGivenNames e; clear_value e))

theorem Dev.syncReceive_canon {d : Dev} (k dom sender seq : Nat) (twoStep : Bool) (t1 corr logInt : Int) (hd : d.Canon) : Dev.Canon (Dev.syncReceive d k dom sender seq twoStep t1 corr logInt) := by
  unfold Dev.syncReceive
  repeat' (first
    | with_reducible assumption
    | with_reducible apply Dev.start_canon
    | with_reducible apply Dev.syncUpdate_canon
    | with_reducible apply canon_ite
    | (unfold Dev.Canon; dsimp only; with_reducible refine canon_fold ?_)
    | (extract_lets +onlyGivenNames e; refine canon_have (d := e) ?_ ?_; unfold e; rotate_left; intro; clear_value e; rotate_right)
    | (extract_lets +onlyGivenNames e; clear_value e)
    | split
    | with_reducible refine canon_snd ?_ (by with_reducible assumption)
    | with_reducible refine canon_fst ?_ (by with_reducible assumption)
    | dsimp only)

theorem Dev.followUp_canon {d : Dev} (dom sender seq : Nat) (t1 corr : Int) (hd : d.Canon) : Dev.Canon (Dev.followUp d dom sender seq t1 corr) := by
  unfold Dev.followUp
  repeat' (first
    | with_reducible assumption
    | with_reducible apply Dev.syncUpdate_canon
    | with_reducible apply canon_ite
    | (unfold Dev.Canon; dsimp only; with_reducible refine canon_fold ?_)
    | (extract_lets +onlyGivenNames e; refine canon_have (d := e) ?_ ?_; unfold e; rotate_left; intro; clear_value e; rotate_right)
    | (extract_lets +onlyGivenNames e; clear_value e)
    | split
    | with_reducible refine canon_snd ?_ (by with_reducible assumption)
    | with_reducible refine canon_fst ?_ (by with_reducible assumption)
    | dsimp only)

theorem Dev.syncLost_canon {d : Dev} (hd : d.Canon) : Dev.Canon (Dev.syncLost d) := by
  unfold Dev.syncLost
  repeat' (first
    | with_reducible assumption
    | with_reducible apply Dev.stop_canon
    | with_reducible apply canon_ite
    | (unfold Dev.Canon; dsimp only; with_reducible refine canon_fold ?_)
    | (extract_lets +onlyGivenNames e; refine canon_have (d := e) ?_ ?_; unfold e; rotate_left; intro; clear_value e; rotate_right)
    | (extract_lets +onlyGivenNames e; clear_value e))

theorem Dev.arp_canon {d : Dev} (sender : Nat) (target : Word) (hd : d.Canon) : Dev.Canon (Dev.arp d sender target) := by
  unfold Dev.arp
  repeat' (first
    | with_reducible assumption
    | with_reducible apply Dev.send_canon
    | with_reducible apply canon_ite)

theorem Dev.icmp_canon {d : Dev} (from_ dest : Word) (body : List Byte) (hd : d.Canon) : Dev.Canon (Dev.icmp d from_ dest body) := by
  unfold Dev.icmp
  repeat' (first
    | with_reducible assumption
    | with_reducible apply Dev.send_canon
    | with_reducible apply canon_ite)

theorem Dev.ethLink_canon {d : Dev} (k : Nat) (up gig : Bool) (hd : d.Canon) : Dev.Canon (Dev.ethLink d k up gig) := by
  unfold Dev.ethLink
  repeat' (first
    | with_reducible assumption
    | with_reducible apply Dev.setBit_canon
    | with_reducible apply Dev.hw_canon
    | with_reducible apply canon_ite
    | (extract_lets +onlyGivenNames e; refine canon_have (d := e) ?_ ?_; unfold e; rotate_left; intro; clear_value e; rotate_right)
    | (extract_lets +onlyGivenNames e; clear_value e))

theorem Dev.angRej_canon {d : Dev} (hd : d.Canon) : Dev.Canon (Dev.angRej d) := by
  unfold Dev.angRej
  repeat' (first
    | with_reducible assumption
    | with_reducible apply Dev.satInc_canon)

theorem Dev.angMessage_canon {d : Dev} (l : List Byte) (hd : d.Canon) : Dev.Canon (Dev.angMessage d l) := by
  unfold Dev.angMessage
  repeat' (first
    | with_reducible assumption
    | with_reducible apply Dev.timSnap_canon
    | with_reducible apply Dev.angPerr_canon
    | with_reducible apply Dev.angRej_canon
    | with_reducible apply canon_ite
    | (unfold Dev.Canon; dsimp only; with_reducible refine canon_fold ?_)
    | (extract_lets +onlyGivenNames e; refine canon_have (d := e) ?_ ?_; unfold e; rotate_left; intro; clear_value e; rotate_right)
    | (extract_lets +onlyGivenNames e; clear_value e)
    | split
    | with_reducible refine canon_snd ?_ (by with_reducible assumption)
    | with_reducible refine canon_fst ?_ (by with_reducible assumption)
    | dsimp only)

end Sys2Proof.Machine
end

