-- ==== Sys2Proof/Laws/CanonDsp.lean ====
section
/-! SUPPORT. Every operation of Sys2Proof/Machine/Dsp.lean keeps the canonical form. -/

set_option Elab.async false
set_option linter.all false

namespace Sys2Proof.Machine

theorem Dev.mbReject_canon {d : Dev} (m code : Nat) (hd : d.Canon) : Dev.Canon (Dev.mbReject d m code) := by
  unfold Dev.mbReject
  repeat' (first
    | with_reducible assumption
    | with_reducible apply Dev.wr_canon
    | with_reducible apply Dev.flag_canon
    | with_reducible apply Dev.hw_canon
    | (extract_lets +onlyGivenNames e; refine canon_have (d := e) ?_ ?_; unfold e; rotate_left; intro; clear_value e; rotate_right)
    | (extract_lets +onlyGivenNames e; clear_value e))

theorem Dev.mbCommit_canon {d : Dev} (m : Nat) (v : Word) (hd : d.Canon) : Dev.Canon (Dev.mbCommit d m v) := by
  unfold Dev.mbCommit
  repeat' (first
    | intro _
    | with_reducible assumption
    | with_reducible apply Dev.wr_canon
    | with_reducible apply Dev.setBit_canon
    | with_reducible apply Dev.flag_canon
    | with_reducible apply Dev.start_canon
    | with_reducible apply Dev.send_canon
    | with_reducible apply Dev.cue_canon
    | with_reducible apply Dev.hw_canon
    | with_reducible apply Dev.reform_canon
    | with_reducible apply Dev.mbReject_canon
    | with_reducible apply canon_ite
    | with_reducible apply canon_foldl
    | (unfold Dev.Canon; dsimp only; with_reducible refine canon_fold ?_)
    | (extract_lets +onlyGivenNames e; refine canon_have (d := e) ?_ ?_; unfold e; rotate_left; intro; clear_value e; rotate_right)
    | (extract_lets +onlyGivenNames e; clear_value e)
    | split
    | with_reducible refine canon_snd ?_ (by with_reducible assumption)
    | with_reducible refine canon_fst ?_ (by with_reducible assumption)
    | dsimp only)

theorem Dev.mbWrite_canon {d : Dev} (m w : Nat) (v : Word) (hd : d.Canon) : Dev.Canon (Dev.mbWrite d m w v) := by
  unfold Dev.mbWrite
  repeat' (first
    | with_reducible assumption
    | with_reducible apply Dev.plainWrite_canon
    | with_reducible apply Dev.mbCommit_canon
    | with_reducible apply canon_ite
    | (unfold Dev.Canon; dsimp only; with_reducible refine canon_fold ?_)
    | (extract_lets +onlyGivenNames e; refine canon_have (d := e) ?_ ?_; unfold e; rotate_left; intro; clear_value e; rotate_right)
    | (extract_lets +onlyGivenNames e; clear_value e))

theorem Dev.mbApply_canon {d : Dev} (m : Nat) (hd : d.Canon) : Dev.Canon (Dev.mbApply d m) := by
  unfold Dev.mbApply
  repeat' (first
    | with_reducible assumption
    | with_reducible apply Dev.wr_canon
    | with_reducible apply Dev.reform_canon
    | with_reducible apply Dev.injReduce_canon
    | with_reducible apply Dev.mbReject_canon
    | with_reducible apply canon_ite
    | (unfold Dev.Canon; dsimp only; with_reducible refine canon_fold ?_)
    | (extract_lets +onlyGivenNames e; refine canon_have (d := e) ?_ ?_; unfold e; rotate_left; intro; clear_value e; rotate_right)
    | (extract_lets +onlyGivenNames e; clear_value e)
    | split
    | with_reducible refine canon_snd ?_ (by with_reducible assumption)
    | with_reducible refine canon_fst ?_ (by with_reducible assumption)
    | dsimp only)

theorem Dev.mbTimeout_canon {d : Dev} (hd : d.Canon) : Dev.Canon (Dev.mbTimeout d) := by
  unfold Dev.mbTimeout
  repeat' (first
    | with_reducible assumption
    | with_reducible apply Dev.flag_canon
    | with_reducible apply Dev.hw_canon
    | with_reducible apply Dev.reform_canon
    | with_reducible apply canon_ite
    | (extract_lets +onlyGivenNames e; refine canon_have (d := e) ?_ ?_; unfold e; rotate_left; intro; clear_value e; rotate_right)
    | (extract_lets +onlyGivenNames e; clear_value e))

theorem Dev.rotAsk_canon {d : Dev} (hd : d.Canon) : Dev.Canon (Dev.rotAsk d) := by
  unfold Dev.rotAsk
  repeat' (first
    | with_reducible assumption
    | with_reducible apply Dev.start_canon
    | with_reducible apply Dev.plantSend_canon)

theorem Dev.rotStart_canon {d : Dev} (hd : d.Canon) : Dev.Canon (Dev.rotStart d) := by
  unfold Dev.rotStart
  repeat' (first
    | with_reducible assumption
    | with_reducible apply Dev.start_canon
    | with_reducible apply Dev.fw_canon
    | with_reducible apply Dev.rotSet_canon
    | with_reducible apply Dev.rotIdle_canon
    | with_reducible apply Dev.rotAsk_canon
    | with_reducible apply canon_ite
    | (unfold Dev.Canon; dsimp only; with_reducible refine canon_fold ?_)
    | (extract_lets +onlyGivenNames e; refine canon_have (d := e) ?_ ?_; unfold e; rotate_left; intro; clear_value e; rotate_right)
    | (extract_lets +onlyGivenNames e; clear_value e))

theorem Dev.rotReturn_canon {d : Dev} (hd : d.Canon) : Dev.Canon (Dev.rotReturn d) := by
  unfold Dev.rotReturn
  repeat' (first
    | with_reducible assumption
    | with_reducible apply Dev.rotIdle_canon
    | with_reducible apply Dev.rotStart_canon
    | with_reducible apply canon_ite)

theorem Dev.rotReply_canon {d : Dev} (rid decision : Nat) (hd : d.Canon) : Dev.Canon (Dev.rotReply d rid decision) := by
  unfold Dev.rotReply
  repeat' (first
    | with_reducible assumption
    | with_reducible apply Dev.start_canon
    | with_reducible apply Dev.fw_canon
    | with_reducible apply Dev.rotSet_canon
    | with_reducible apply Dev.rotIdle_canon
    | with_reducible apply Dev.rotStart_canon
    | with_reducible apply Dev.rotReturn_canon
    | with_reducible apply canon_ite)

theorem Dev.rotRepeat_canon {d : Dev} (hd : d.Canon) : Dev.Canon (Dev.rotRepeat d) := by
  unfold Dev.rotRepeat
  repeat' (first
    | with_reducible assumption
    | with_reducible apply Dev.rotAsk_canon
    | with_reducible apply Dev.rotStart_canon
    | with_reducible apply canon_ite)

theorem Dev.rotTimeout_canon {d : Dev} (hd : d.Canon) : Dev.Canon (Dev.rotTimeout d) := by
  unfold Dev.rotTimeout
  repeat' (first
    | with_reducible assumption
    | with_reducible apply Dev.fw_canon
    | with_reducible apply Dev.rotIdle_canon
    | with_reducible apply Dev.rotStart_canon
    | with_reducible apply canon_ite)

theorem Dev.rotWinEnd_canon {d : Dev} (hd : d.Canon) : Dev.Canon (Dev.rotWinEnd d) := by
  unfold Dev.rotWinEnd
  repeat' (first
    | with_reducible assumption
    | with_reducible apply Dev.rotSet_canon
    | with_reducible apply Dev.rotReturn_canon
    | with_reducible apply canon_ite)

theorem Dev.slew_canon {d : Dev} (hd : d.Canon) : Dev.Canon (Dev.slew d) := by
  unfold Dev.slew
  repeat' (first
    | with_reducible assumption
    | with_reducible apply Dev.wr_canon
    | with_reducible apply Dev.slewing_canon
    | with_reducible apply Dev.rotSet_canon
    | with_reducible apply Dev.rotReturn_canon
    | with_reducible apply canon_ite
    | (extract_lets +onlyGivenNames e; refine canon_have (d := e) ?_ ?_; unfold e; rotate_left; intro; clear_value e; rotate_right)
    | (extract_lets +onlyGivenNames e; clear_value e))

theorem Dev.dsprefWrite_canon {d : Dev} (v : Word) (hd : d.Canon) : Dev.Canon (Dev.dsprefWrite d v) := by
  unfold Dev.dsprefWrite
  repeat' (first
    | with_reducible assumption
    | with_reducible apply Dev.wr_canon
    | with_reducible apply Dev.slewing_canon
    | with_reducible apply canon_ite
    | (extract_lets +onlyGivenNames e; refine canon_have (d := e) ?_ ?_; unfold e; rotate_left; intro; clear_value e; rotate_right)
    | (extract_lets +onlyGivenNames e; clear_value e))

theorem Dev.statusSend_canon {d : Dev} (hd : d.Canon) : Dev.Canon (Dev.statusSend d) := by
  unfold Dev.statusSend
  repeat' (first
    | with_reducible assumption
    | with_reducible apply Dev.start_canon
    | with_reducible apply Dev.plantSend_canon)

theorem Dev.statusTick_canon {d : Dev} (hd : d.Canon) : Dev.Canon (Dev.statusTick d) := by
  unfold Dev.statusTick
  repeat' (first
    | with_reducible assumption
    | with_reducible apply Dev.statusSend_canon
    | with_reducible apply canon_ite)

theorem Dev.plantRead_canon {d : Dev} (h : PlantHead) (hd : d.Canon) : Dev.Canon (Dev.plantRead d h) := by
  unfold Dev.plantRead
  repeat' (first
    | with_reducible assumption
    | with_reducible apply Dev.canRdsel_canon
    | with_reducible apply canon_ite
    | split
    | with_reducible refine canon_snd ?_ (by with_reducible assumption)
    | with_reducible refine canon_fst ?_ (by with_reducible assumption)
    | dsimp only)

theorem Dev.plantHigh_canon {d : Dev} (e : Nat) (hd : d.Canon) : Dev.Canon (Dev.plantHigh d e) := by
  unfold Dev.plantHigh
  repeat' (first
    | with_reducible assumption
    | with_reducible apply Dev.fw_canon
    | with_reducible apply Dev.depose_canon
    | with_reducible apply Dev.epochHigh_canon
    | with_reducible apply canon_ite
    | (extract_lets +onlyGivenNames e; refine canon_have (d := e) ?_ ?_; unfold e; rotate_left; intro; clear_value e; rotate_right)
    | (extract_lets +onlyGivenNames e; clear_value e))

theorem Dev.setpoint_canon {d : Dev} (h : PlantHead) (l : List Byte) (hd : d.Canon) : Dev.Canon (Dev.setpoint d h l) := by
  unfold Dev.setpoint
  repeat' (first
    | with_reducible assumption
    | with_reducible apply Dev.mbWrite_canon
    | with_reducible apply Dev.statusSend_canon
    | with_reducible apply Dev.plantRead_canon
    | with_reducible apply Dev.plantHigh_canon
    | with_reducible apply canon_ite
    | (unfold Dev.Canon; dsimp only; with_reducible refine canon_fold ?_)
    | (extract_lets +onlyGivenNames e; refine canon_have (d := e) ?_ ?_; unfold e; rotate_left; intro; clear_value e; rotate_right)
    | (extract_lets +onlyGivenNames e; clear_value e))

theorem Dev.rotReplyTake_canon {d : Dev} (h : PlantHead) (l : List Byte) (hd : d.Canon) : Dev.Canon (Dev.rotReplyTake d h l) := by
  unfold Dev.rotReplyTake
  repeat' (first
    | with_reducible assumption
    | with_reducible apply Dev.rotReply_canon
    | with_reducible apply Dev.plantRead_canon
    | with_reducible apply Dev.plantHigh_canon
    | with_reducible apply canon_ite
    | (extract_lets +onlyGivenNames e; refine canon_have (d := e) ?_ ?_; unfold e; rotate_left; intro; clear_value e; rotate_right)
    | (extract_lets +onlyGivenNames e; clear_value e))

theorem Dev.plantCommand_canon {d : Dev} (h : PlantHead) (l : List Byte) (n : Nat) (f : Dev → Dev) (hd : d.Canon) (hf : ∀ x0, x0.Canon → Dev.Canon (f x0)) : Dev.Canon (Dev.plantCommand d h l n f) := by
  unfold Dev.plantCommand
  repeat' (first
    | intro _
    | with_reducible assumption
    | with_reducible apply Dev.plantRead_canon
    | with_reducible apply Dev.plantHigh_canon
    | with_reducible apply hf
    | with_reducible apply canon_ite
    | (extract_lets +onlyGivenNames e; refine canon_have (d := e) ?_ ?_; unfold e; rotate_left; intro; clear_value e; rotate_right)
    | (extract_lets +onlyGivenNames e; clear_value e))

theorem Dev.plantClear_canon {d : Dev} (mask : Word) (hd : d.Canon) : Dev.Canon (Dev.plantClear d mask) := by
  unfold Dev.plantClear
  repeat' (first
    | with_reducible assumption
    | with_reducible apply Dev.discard_canon
    | with_reducible apply Dev.tripClear_canon
    | with_reducible apply canon_ite)

theorem Dev.profCommit_canon {d : Dev} (i : Int) (hd : d.Canon) : Dev.Canon (Dev.profCommit d i) := by
  unfold Dev.profCommit
  repeat' (first
    | with_reducible assumption
    | with_reducible apply Dev.nextFree_canon
    | with_reducible apply Dev.mbCommit_canon
    | (unfold Dev.Canon; dsimp only; with_reducible refine canon_fold ?_)
    | (extract_lets +onlyGivenNames e; refine canon_have (d := e) ?_ ?_; unfold e; rotate_left; intro; clear_value e; rotate_right)
    | (extract_lets +onlyGivenNames e; clear_value e)
    | split
    | with_reducible refine canon_snd ?_ (by with_reducible assumption)
    | with_reducible refine canon_fst ?_ (by with_reducible assumption)
    | dsimp only)

theorem Dev.profEnter_canon {d : Dev} (y0 : Nat) (y1 : Nat) (hd : d.Canon) : Dev.Canon (Dev.profEnter d y0 y1) := by
  induction y0 generalizing d y1 with
  | zero =>
    unfold Dev.profEnter
    repeat' (first
      | with_reducible assumption
      | with_reducible apply Dev.flag_canon
      | with_reducible apply Dev.start_canon
      | with_reducible apply Dev.fw_canon
      | with_reducible apply canon_ite
      | (unfold Dev.Canon; dsimp only; with_reducible refine canon_fold ?_)
      | (extract_lets +onlyGivenNames e; refine canon_have (d := e) ?_ ?_; unfold e; rotate_left; intro; clear_value e; rotate_right)
      | (extract_lets +onlyGivenNames e; clear_value e)
      | split
      | with_reducible refine canon_snd ?_ (by with_reducible assumption)
      | with_reducible refine canon_fst ?_ (by with_reducible assumption))
  | succ k ih =>
    unfold Dev.profEnter
    repeat' (first
      | with_reducible assumption
      | with_reducible apply Dev.flag_canon
      | with_reducible apply Dev.start_canon
      | with_reducible apply Dev.fw_canon
      | with_reducible apply ih
      | with_reducible apply canon_ite
      | (unfold Dev.Canon; dsimp only; with_reducible refine canon_fold ?_)
      | (extract_lets +onlyGivenNames e; refine canon_have (d := e) ?_ ?_; unfold e; rotate_left; intro; clear_value e; rotate_right)
      | (extract_lets +onlyGivenNames e; clear_value e)
      | split
      | with_reducible refine canon_snd ?_ (by with_reducible assumption)
      | with_reducible refine canon_fst ?_ (by with_reducible assumption))

theorem Dev.gradeBegin_canon {d : Dev} (hd : d.Canon) : Dev.Canon (Dev.gradeBegin d) := by
  unfold Dev.gradeBegin
  repeat' (first
    | with_reducible assumption
    | with_reducible apply Dev.setBit_canon
    | (unfold Dev.Canon; dsimp only; with_reducible refine canon_fold ?_)
    | (extract_lets +onlyGivenNames e; refine canon_have (d := e) ?_ ?_; unfold e; rotate_left; intro; clear_value e; rotate_right)
    | (extract_lets +onlyGivenNames e; clear_value e))

theorem Dev.dspCtl_canon {d : Dev} (v : Word) (hd : d.Canon) : Dev.Canon (Dev.dspCtl d v) := by
  unfold Dev.dspCtl
  repeat' (first
    | with_reducible assumption
    | with_reducible apply Dev.plainWrite_canon
    | with_reducible apply Dev.reform_canon
    | with_reducible apply Dev.cond10_canon
    | with_reducible apply Dev.profEnter_canon
    | with_reducible apply Dev.gradeBegin_canon
    | with_reducible apply canon_ite
    | (unfold Dev.Canon; dsimp only; with_reducible refine canon_fold ?_)
    | (extract_lets +onlyGivenNames e; refine canon_have (d := e) ?_ ?_; unfold e; rotate_left; intro; clear_value e; rotate_right)
    | (extract_lets +onlyGivenNames e; clear_value e))

end Sys2Proof.Machine
end

