-- ==== Sys2Proof/Laws/CanonCvx.lean ====
section
/-! SUPPORT. Every operation of Sys2Proof/Machine/Cvx.lean keeps the canonical form. -/

set_option Elab.async false
set_option linter.all false

namespace Sys2Proof.Machine

theorem Dev.vop_canon {d : Dev} (p : Pair) (f : CoreSt → CoreSt) (hd : d.Canon) : Dev.Canon (Dev.vop d p f) := by
  unfold Dev.vop
  repeat' (first
    | intro _
    | with_reducible assumption
    | with_reducible apply Dev.alu_canon
    | with_reducible apply canon_ite
    | dsimp only)

theorem Dev.vvv_canon {d : Dev} (p : Pair) (vd va : VReg) (s2 : VSrc) (k : VMask) (f : Word → Word → Word) (hd : d.Canon) : Dev.Canon (Dev.vvv d p vd va s2 k f) := by
  unfold Dev.vvv
  repeat' (first
    | intro _
    | with_reducible assumption
    | with_reducible apply Dev.vop_canon
    | dsimp only)

theorem Dev.vff_canon {d : Dev} (p : Pair) (vd : VReg) (k : VMask) (f : CoreSt → Nat → Nat × FFlags) (hd : d.Canon) : Dev.Canon (Dev.vff d p vd k f) := by
  unfold Dev.vff
  repeat' (first
    | intro _
    | with_reducible assumption
    | with_reducible apply Dev.vop_canon
    | dsimp only)

theorem Dev.vcm_canon {d : Dev} (p : Pair) (md : MReg) (va : VReg) (s2 : VSrc) (k : VMask) (f : Word → Word → Bool) (hd : d.Canon) : Dev.Canon (Dev.vcm d p md va s2 k f) := by
  unfold Dev.vcm
  repeat' (first
    | intro _
    | with_reducible assumption
    | with_reducible apply Dev.vop_canon
    | dsimp only)

theorem Dev.vfc_canon {d : Dev} (p : Pair) (md : MReg) (va : VReg) (s2 : VSrc) (k : VMask) (f : Nat → Nat → Nat × FFlags) (hd : d.Canon) : Dev.Canon (Dev.vfc d p md va s2 k f) := by
  unfold Dev.vfc
  repeat' (first
    | intro _
    | with_reducible assumption
    | with_reducible apply Dev.vop_canon
    | (extract_lets +onlyGivenNames e; refine canon_have (d := e) ?_ ?_; unfold e; rotate_left; intro; clear_value e; rotate_right)
    | (extract_lets +onlyGivenNames e; clear_value e)
    | dsimp only)

theorem Dev.vmm_canon {d : Dev} (p : Pair) (md ma mb : MReg) (k : VMask) (f : Bool → Bool → Bool) (hd : d.Canon) : Dev.Canon (Dev.vmm d p md ma mb k f) := by
  unfold Dev.vmm
  repeat' (first
    | intro _
    | with_reducible assumption
    | with_reducible apply Dev.vop_canon
    | dsimp only)

theorem Dev.vred_canon {d : Dev} (p : Pair) (rd : GReg) (k : VMask) (f : CoreSt → List Nat → Word) (hd : d.Canon) : Dev.Canon (Dev.vred d p rd k f) := by
  unfold Dev.vred
  repeat' (first
    | intro _
    | with_reducible assumption
    | with_reducible apply Dev.vop_canon
    | dsimp only)

theorem Dev.vredD_canon {d : Dev} (p : Pair) (rd : GReg) (k : VMask) (f : CoreSt → List Nat → Word × Word) (hd : d.Canon) : Dev.Canon (Dev.vredD d p rd k f) := by
  unfold Dev.vredD
  repeat' (first
    | intro _
    | with_reducible assumption
    | with_reducible apply Dev.setCore_canon
    | with_reducible apply Dev.raise_canon
    | with_reducible apply Dev.issue_canon
    | with_reducible apply canon_ite
    | (extract_lets +onlyGivenNames e; refine canon_have (d := e) ?_ ?_; unfold e; rotate_left; intro; clear_value e; rotate_right)
    | (extract_lets +onlyGivenNames e; clear_value e)
    | split
    | with_reducible refine canon_snd ?_ (by with_reducible assumption)
    | with_reducible refine canon_fst ?_ (by with_reducible assumption)
    | dsimp only)

theorem Dev.vecAccess_canon {d : Dev} (p : Pair) (kind : Nat) (k : VMask) (addr : CoreSt → Nat → Nat) (f : Dev → List (Nat × Nat) → Dev) (hd : d.Canon) (hf : ∀ x0 x1, x0.Canon → Dev.Canon (f x0 x1)) : Dev.Canon (Dev.vecAccess d p kind k addr f) := by
  unfold Dev.vecAccess
  repeat' (first
    | intro _
    | with_reducible assumption
    | with_reducible apply Dev.setCore_canon
    | with_reducible apply Dev.issue_canon
    | with_reducible apply Dev.dataRaise_canon
    | with_reducible apply hf
    | with_reducible apply canon_ite
    | (extract_lets +onlyGivenNames e; refine canon_have (d := e) ?_ ?_; unfold e; rotate_left; intro; clear_value e; rotate_right)
    | (extract_lets +onlyGivenNames e; clear_value e)
    | split
    | with_reducible refine canon_snd ?_ (by with_reducible assumption)
    | with_reducible refine canon_fst ?_ (by with_reducible assumption)
    | dsimp only)

theorem Dev.lanesCorrected_canon {d : Dev} (p : Pair) (l : List (Nat × Nat)) (hd : d.Canon) : Dev.Canon (Dev.lanesCorrected d p l) := by
  unfold Dev.lanesCorrected
  repeat' (first
    | intro _
    | with_reducible assumption
    | with_reducible apply Dev.corrected_canon
    | with_reducible apply canon_ite
    | with_reducible apply canon_foldl
    | with_reducible apply canon_foldl_fst
    | with_reducible apply canon_foldl_snd
    | dsimp only)

theorem Dev.vecLoad_canon {d : Dev} (p : Pair) (v : VReg) (k : VMask) (addr : CoreSt → Nat → Nat) (hd : d.Canon) : Dev.Canon (Dev.vecLoad d p v k addr) := by
  unfold Dev.vecLoad
  repeat' (first
    | intro _
    | with_reducible assumption
    | with_reducible apply Dev.setCore_canon
    | with_reducible apply Dev.vecAccess_canon
    | with_reducible apply Dev.lanesCorrected_canon
    | with_reducible apply canon_ite
    | (extract_lets +onlyGivenNames e; refine canon_have (d := e) ?_ ?_; unfold e; rotate_left; intro; clear_value e; rotate_right)
    | (extract_lets +onlyGivenNames e; clear_value e)
    | dsimp only)

theorem Dev.vecStore_canon {d : Dev} (p : Pair) (v : VReg) (k : VMask) (addr : CoreSt → Nat → Nat) (hd : d.Canon) : Dev.Canon (Dev.vecStore d p v k addr) := by
  unfold Dev.vecStore
  repeat' (first
    | intro _
    | with_reducible assumption
    | with_reducible apply Dev.setCore_canon
    | with_reducible apply Dev.sramStore_canon
    | with_reducible apply Dev.vecAccess_canon
    | with_reducible apply canon_foldl
    | with_reducible apply canon_foldl_fst
    | with_reducible apply canon_foldl_snd
    | (extract_lets +onlyGivenNames e; refine canon_have (d := e) ?_ ?_; unfold e; rotate_left; intro; clear_value e; rotate_right)
    | (extract_lets +onlyGivenNames e; clear_value e)
    | dsimp only)

theorem Dev.vtab_canon {d : Dev} (p : Pair) (vd va : VReg) (wb : GReg) (k : VMask) (inv : Bool) (hd : d.Canon) : Dev.Canon (Dev.vtab d p vd va wb k inv) := by
  unfold Dev.vtab
  repeat' (first
    | intro _
    | with_reducible assumption
    | with_reducible apply Dev.setCore_canon
    | with_reducible apply Dev.issue_canon
    | with_reducible apply Dev.dataRaise_canon
    | with_reducible apply Dev.lanesCorrected_canon
    | with_reducible apply canon_ite
    | (unfold Dev.Canon; dsimp only; with_reducible refine canon_fold ?_)
    | (extract_lets +onlyGivenNames e; refine canon_have (d := e) ?_ ?_; unfold e; rotate_left; intro; clear_value e; rotate_right)
    | (extract_lets +onlyGivenNames e; clear_value e)
    | split
    | with_reducible refine canon_snd ?_ (by with_reducible assumption)
    | with_reducible refine canon_fst ?_ (by with_reducible assumption)
    | dsimp only)

end Sys2Proof.Machine
end

