-- ==== Sys2Proof/Laws/CanonEst.lean ====
section
/-! SUPPORT. Every operation of Sys2Proof/Machine/Est.lean keeps the canonical form. -/

set_option Elab.async false
set_option linter.all false

namespace Sys2Proof.Machine

theorem Dev.setCell_canon {d : Dev} (c : Nat) (x : CellSt) (hd : d.Canon) : Dev.Canon (Dev.setCell d c x) := by
  unfold Dev.setCell
  repeat' (first
    | with_reducible assumption
    | (unfold Dev.Canon; dsimp only; with_reducible refine canon_fold ?_)
    | (extract_lets +onlyGivenNames e; refine canon_have (d := e) ?_ ?_; unfold e; rotate_left; intro; clear_value e; rotate_right)
    | (extract_lets +onlyGivenNames e; clear_value e))

theorem Dev.stoAsk_canon {d : Dev} (reason : Nat) (hd : d.Canon) : Dev.Canon (Dev.stoAsk d reason) := by
  unfold Dev.stoAsk
  repeat' (first
    | with_reducible assumption
    | (unfold Dev.Canon; dsimp only; with_reducible refine canon_fold ?_)
    | (extract_lets +onlyGivenNames e; refine canon_have (d := e) ?_ ?_; unfold e; rotate_left; intro; clear_value e; rotate_right)
    | (extract_lets +onlyGivenNames e; clear_value e))

theorem Dev.relearn_canon {d : Dev} (hd : d.Canon) : Dev.Canon (Dev.relearn d) := by
  unfold Dev.relearn
  repeat' (first
    | with_reducible assumption
    | (unfold Dev.Canon; dsimp only; with_reducible refine canon_fold ?_)
    | (extract_lets +onlyGivenNames e; refine canon_have (d := e) ?_ ?_; unfold e; rotate_left; intro; clear_value e; rotate_right)
    | (extract_lets +onlyGivenNames e; clear_value e))

theorem Dev.mirrorParts_canon {d : Dev} (sec off : Nat) (y0 : Nat) (y1 : List Byte) (hd : d.Canon) : Dev.Canon (Dev.mirrorParts d sec off y0 y1) := by
  induction y0 generalizing d sec off y1 with
  | zero =>
    unfold Dev.mirrorParts
    repeat' (first
      | with_reducible assumption
      | with_reducible apply Dev.mirror_canon
      | with_reducible apply Dev.take_canon
      | with_reducible apply canon_ite
      | split
      | with_reducible refine canon_snd ?_ (by with_reducible assumption)
      | with_reducible refine canon_fst ?_ (by with_reducible assumption))
  | succ k ih =>
    unfold Dev.mirrorParts
    repeat' (first
      | with_reducible assumption
      | with_reducible apply Dev.mirror_canon
      | with_reducible apply Dev.take_canon
      | with_reducible apply ih
      | with_reducible apply canon_ite
      | split
      | with_reducible refine canon_snd ?_ (by with_reducible assumption)
      | with_reducible refine canon_fst ?_ (by with_reducible assumption))

theorem Dev.mirrorEst_canon {d : Dev} (hd : d.Canon) : Dev.Canon (Dev.mirrorEst d) := by
  unfold Dev.mirrorEst
  repeat' (first
    | intro _
    | with_reducible assumption
    | with_reducible apply Dev.mirrorParts_canon
    | with_reducible apply canon_ite
    | (extract_lets +onlyGivenNames e; refine canon_have (d := e) ?_ ?_; unfold e; rotate_left; intro; clear_value e; rotate_right)
    | (extract_lets +onlyGivenNames e; clear_value e)
    | dsimp only)

theorem Dev.anchorCell_canon {d : Dev} (c : Nat) (x : CellSt) (z0 : Int) (hd : d.Canon) : Dev.Canon (Dev.anchorCell d c x z0) := by
  unfold Dev.anchorCell
  repeat' (first
    | with_reducible assumption
    | with_reducible apply Dev.fw_canon
    | with_reducible apply Dev.sysSetFld_canon
    | with_reducible apply Dev.setCell_canon
    | with_reducible apply Dev.relearn_canon
    | with_reducible apply canon_ite
    | (unfold Dev.Canon; dsimp only; with_reducible refine canon_fold ?_)
    | (extract_lets +onlyGivenNames e; refine canon_have (d := e) ?_ ?_; unfold e; rotate_left; intro; clear_value e; rotate_right)
    | (extract_lets +onlyGivenNames e; clear_value e))

theorem Dev.anchorCells_canon {d : Dev} (charge : Bool) (hd : d.Canon) : Dev.Canon (Dev.anchorCells d charge) := by
  unfold Dev.anchorCells
  repeat' (first
    | intro _
    | with_reducible assumption
    | with_reducible apply Dev.charge_canon
    | with_reducible apply Dev.anchorCell_canon
    | with_reducible apply canon_ite
    | with_reducible apply canon_foldl
    | with_reducible apply canon_foldl_fst
    | with_reducible apply canon_foldl_snd
    | (extract_lets +onlyGivenNames e; refine canon_have (d := e) ?_ ?_; unfold e; rotate_left; intro; clear_value e; rotate_right)
    | (extract_lets +onlyGivenNames e; clear_value e)
    | dsimp only)

theorem Dev.gradeEnd_canon {d : Dev} (charge : Bool) (hd : d.Canon) : Dev.Canon (Dev.gradeEnd d charge) := by
  unfold Dev.gradeEnd
  repeat' (first
    | with_reducible assumption
    | with_reducible apply Dev.charge_canon
    | with_reducible apply canon_ite
    | (unfold Dev.Canon; dsimp only; with_reducible refine canon_fold ?_)
    | (extract_lets +onlyGivenNames e; refine canon_have (d := e) ?_ ?_; unfold e; rotate_left; intro; clear_value e; rotate_right)
    | (extract_lets +onlyGivenNames e; clear_value e))

theorem Dev.anchor_canon {d : Dev} (charge : Bool) (hd : d.Canon) : Dev.Canon (Dev.anchor d charge) := by
  unfold Dev.anchor
  repeat' (first
    | with_reducible assumption
    | with_reducible apply Dev.fw_canon
    | with_reducible apply Dev.sysSetFld_canon
    | with_reducible apply Dev.charge_canon
    | with_reducible apply Dev.stoAsk_canon
    | with_reducible apply Dev.mirrorEst_canon
    | with_reducible apply Dev.gradeEnd_canon
    | with_reducible apply canon_ite
    | (unfold Dev.Canon; dsimp only; with_reducible refine canon_fold ?_)
    | (extract_lets +onlyGivenNames e; refine canon_have (d := e) ?_ ?_; unfold e; rotate_left; intro; clear_value e; rotate_right)
    | (extract_lets +onlyGivenNames e; clear_value e))

theorem Dev.endReached_canon {d : Dev} (charge : Bool) (run n : Nat) (hd : d.Canon) : Dev.Canon (Dev.endReached d charge run n) := by
  unfold Dev.endReached
  repeat' (first
    | with_reducible assumption
    | with_reducible apply Dev.charge_canon
    | with_reducible apply Dev.anchorCells_canon
    | with_reducible apply Dev.anchor_canon
    | with_reducible apply canon_ite
    | (extract_lets +onlyGivenNames e; refine canon_have (d := e) ?_ ?_; unfold e; rotate_left; intro; clear_value e; rotate_right)
    | (extract_lets +onlyGivenNames e; clear_value e))

theorem Dev.ends_canon {d : Dev} (hd : d.Canon) : Dev.Canon (Dev.ends d) := by
  unfold Dev.ends
  repeat' (first
    | intro _
    | with_reducible assumption
    | with_reducible apply Dev.sysSetFld_canon
    | with_reducible apply Dev.endReached_canon
    | with_reducible apply canon_ite
    | (unfold Dev.Canon; dsimp only; with_reducible refine canon_fold ?_)
    | (extract_lets +onlyGivenNames e; refine canon_have (d := e) ?_ ?_; unfold e; rotate_left; intro; clear_value e; rotate_right)
    | (extract_lets +onlyGivenNames e; clear_value e)
    | split
    | with_reducible refine canon_snd ?_ (by with_reducible assumption)
    | with_reducible refine canon_fst ?_ (by with_reducible assumption)
    | dsimp only)

theorem Dev.setGrade_canon {d : Dev} (c : Nat) (g : Grade) (hd : d.Canon) : Dev.Canon (Dev.setGrade d c g) := by
  unfold Dev.setGrade
  repeat' (first
    | with_reducible assumption
    | (unfold Dev.Canon; dsimp only; with_reducible refine canon_fold ?_)
    | (extract_lets +onlyGivenNames e; refine canon_have (d := e) ?_ ?_; unfold e; rotate_left; intro; clear_value e; rotate_right)
    | (extract_lets +onlyGivenNames e; clear_value e))

theorem Dev.learn_canon {d : Dev} (c : Nat) (x : CellSt) (zr sr : Int) (slope : Nat) (out quasi : Bool) (hd : d.Canon) : Dev.Canon (Dev.learn d c x zr sr slope out quasi) := by
  unfold Dev.learn
  repeat' (first
    | with_reducible assumption
    | with_reducible apply Dev.fw_canon
    | with_reducible apply Dev.setCell_canon
    | with_reducible apply Dev.stoAsk_canon
    | with_reducible apply Dev.mirrorEst_canon
    | with_reducible apply Dev.setGrade_canon
    | with_reducible apply canon_ite
    | (unfold Dev.Canon; dsimp only; with_reducible refine canon_fold ?_)
    | (extract_lets +onlyGivenNames e; refine canon_have (d := e) ?_ ?_; unfold e; rotate_left; intro; clear_value e; rotate_right)
    | (extract_lets +onlyGivenNames e; clear_value e))

theorem Dev.restPoint_canon {d : Dev} (c : Nat) (x : CellSt) (v vsig : Int) (quasi : Bool) (hd : d.Canon) : Dev.Canon (Dev.restPoint d c x v vsig quasi).1 := by
  unfold Dev.restPoint
  repeat' (first
    | with_reducible assumption
    | with_reducible apply Dev.setCell_canon
    | with_reducible apply Dev.setGrade_canon
    | with_reducible apply Dev.learn_canon
    | with_reducible apply canon_ite
    | with_reducible apply canon_ite_snd
    | with_reducible apply canon_ite_fst
    | (unfold Dev.Canon; dsimp only; with_reducible refine canon_fold ?_)
    | (extract_lets +onlyGivenNames e; refine canon_have (d := e) ?_ ?_; unfold e; rotate_left; intro; clear_value e; rotate_right)
    | (extract_lets +onlyGivenNames e; clear_value e)
    | split
    | with_reducible refine canon_snd ?_ (by with_reducible assumption)
    | with_reducible refine canon_fst ?_ (by with_reducible assumption)
    | dsimp only)

theorem Dev.gradeRest_canon {d : Dev} (hd : d.Canon) : Dev.Canon (Dev.gradeRest d) := by
  unfold Dev.gradeRest
  repeat' (first
    | intro _
    | with_reducible assumption
    | with_reducible apply Dev.fw_canon
    | with_reducible apply Dev.sysSetFld_canon
    | with_reducible apply Dev.stoAsk_canon
    | with_reducible apply Dev.setGrade_canon
    | with_reducible apply canon_ite
    | with_reducible apply canon_foldl
    | (unfold Dev.Canon; dsimp only; with_reducible refine canon_fold ?_)
    | (extract_lets +onlyGivenNames e; refine canon_have (d := e) ?_ ?_; unfold e; rotate_left; intro; clear_value e; rotate_right)
    | (extract_lets +onlyGivenNames e; clear_value e)
    | dsimp only)

theorem Dev.restTake_canon {d : Dev} (quasi : Bool) (hd : d.Canon) : Dev.Canon (Dev.restTake d quasi) := by
  unfold Dev.restTake
  repeat' (first
    | intro _
    | with_reducible assumption
    | with_reducible apply Dev.sysSetFld_canon
    | with_reducible apply Dev.setGrade_canon
    | with_reducible apply Dev.restPoint_canon
    | with_reducible apply Dev.gradeRest_canon
    | with_reducible apply canon_ite
    | with_reducible apply canon_foldl
    | with_reducible apply canon_foldl_fst
    | with_reducible apply canon_foldl_snd
    | (unfold Dev.Canon; dsimp only; with_reducible refine canon_fold ?_)
    | (extract_lets +onlyGivenNames e; refine canon_have (d := e) ?_ ?_; unfold e; rotate_left; intro; clear_value e; rotate_right)
    | (extract_lets +onlyGivenNames e; clear_value e)
    | split
    | with_reducible refine canon_snd ?_ (by with_reducible assumption)
    | with_reducible refine canon_fst ?_ (by with_reducible assumption)
    | dsimp only)

theorem Dev.rests_canon {d : Dev} (dq ns : Int) (hd : d.Canon) : Dev.Canon (Dev.rests d dq ns) := by
  unfold Dev.rests
  repeat' (first
    | intro _
    | with_reducible assumption
    | with_reducible apply Dev.sysSetFld_canon
    | with_reducible apply Dev.setCell_canon
    | with_reducible apply Dev.restPoint_canon
    | with_reducible apply Dev.restTake_canon
    | with_reducible apply canon_ite
    | with_reducible apply canon_foldl
    | with_reducible apply canon_foldl_fst
    | with_reducible apply canon_foldl_snd
    | (unfold Dev.Canon; dsimp only; with_reducible refine canon_fold ?_)
    | (extract_lets +onlyGivenNames e; refine canon_have (d := e) ?_ ?_; unfold e; rotate_left; intro; clear_value e; rotate_right)
    | (extract_lets +onlyGivenNames e; clear_value e)
    | dsimp only)

theorem Dev.socShow_canon {d : Dev} (l : List (Nat × CellSt)) (lo hi : Nat × CellSt) (hd : d.Canon) : Dev.Canon (Dev.socShow d l lo hi) := by
  unfold Dev.socShow
  repeat' (first
    | intro _
    | with_reducible assumption
    | with_reducible apply Dev.sysWr_canon
    | with_reducible apply canon_ite
    | with_reducible apply canon_foldl
    | with_reducible apply canon_foldl_fst
    | with_reducible apply canon_foldl_snd
    | (extract_lets +onlyGivenNames e; refine canon_have (d := e) ?_ ?_; unfold e; rotate_left; intro; clear_value e; rotate_right)
    | (extract_lets +onlyGivenNames e; clear_value e)
    | dsimp only)

theorem Dev.sopShow_canon {d : Dev} (l : List (Nat × CellSt)) (hd : d.Canon) : Dev.Canon (Dev.sopShow d l) := by
  unfold Dev.sopShow
  repeat' (first
    | with_reducible assumption
    | with_reducible apply Dev.sysWr_canon
    | (extract_lets +onlyGivenNames e; refine canon_have (d := e) ?_ ?_; unfold e; rotate_left; intro; clear_value e; rotate_right)
    | (extract_lets +onlyGivenNames e; clear_value e))

theorem Dev.ageShow_canon {d : Dev} (l : List (Nat × CellSt)) (hd : d.Canon) : Dev.Canon (Dev.ageShow d l) := by
  unfold Dev.ageShow
  repeat' (first
    | intro _
    | with_reducible assumption
    | with_reducible apply Dev.sysWr_canon
    | with_reducible apply canon_ite
    | with_reducible apply canon_foldl
    | with_reducible apply canon_foldl_fst
    | with_reducible apply canon_foldl_snd
    | (extract_lets +onlyGivenNames e; refine canon_have (d := e) ?_ ?_; unfold e; rotate_left; intro; clear_value e; rotate_right)
    | (extract_lets +onlyGivenNames e; clear_value e)
    | dsimp only)

theorem Dev.cellShow_canon {d : Dev} (e : Nat × CellSt) (hd : d.Canon) : Dev.Canon (Dev.cellShow d e) := by
  unfold Dev.cellShow
  repeat' (first
    | with_reducible assumption
    | with_reducible apply Dev.sysWr_canon)

theorem Dev.results_canon {d : Dev} (hd : d.Canon) : Dev.Canon (Dev.results d) := by
  unfold Dev.results
  repeat' (first
    | intro _
    | with_reducible assumption
    | with_reducible apply Dev.flag_canon
    | with_reducible apply Dev.sysSetFld_canon
    | with_reducible apply Dev.socShow_canon
    | with_reducible apply Dev.sopShow_canon
    | with_reducible apply Dev.ageShow_canon
    | with_reducible apply Dev.cellShow_canon
    | with_reducible apply canon_foldl
    | with_reducible apply canon_foldl_fst
    | with_reducible apply canon_foldl_snd
    | (extract_lets +onlyGivenNames e; refine canon_have (d := e) ?_ ?_; unfold e; rotate_left; intro; clear_value e; rotate_right)
    | (extract_lets +onlyGivenNames e; clear_value e)
    | split
    | with_reducible refine canon_snd ?_ (by with_reducible assumption)
    | with_reducible refine canon_fst ?_ (by with_reducible assumption)
    | dsimp only)

theorem Dev.outZero_canon {d : Dev} (hd : d.Canon) : Dev.Canon (Dev.outZero d) := by
  unfold Dev.outZero
  repeat' (first
    | with_reducible assumption
    | with_reducible apply Dev.wr_canon
    | (unfold Dev.Canon; dsimp only; with_reducible refine canon_fold ?_)
    | (extract_lets +onlyGivenNames e; refine canon_have (d := e) ?_ ?_; unfold e; rotate_left; intro; clear_value e; rotate_right)
    | (extract_lets +onlyGivenNames e; clear_value e))

theorem Dev.estPub_canon {d : Dev} (hd : d.Canon) : Dev.Canon (Dev.estPub d) := by
  unfold Dev.estPub
  repeat' (first
    | with_reducible assumption
    | with_reducible apply Dev.setBit_canon
    | with_reducible apply Dev.start_canon
    | with_reducible apply Dev.outForm_canon
    | with_reducible apply Dev.reform_canon
    | with_reducible apply Dev.outZero_canon
    | with_reducible apply canon_ite
    | (unfold Dev.Canon; dsimp only; with_reducible refine canon_fold ?_)
    | (extract_lets +onlyGivenNames e; refine canon_have (d := e) ?_ ?_; unfold e; rotate_left; intro; clear_value e; rotate_right)
    | (extract_lets +onlyGivenNames e; clear_value e))

theorem Dev.pubtoWrite_canon {d : Dev} (v : Word) (hd : d.Canon) : Dev.Canon (Dev.pubtoWrite d v) := by
  unfold Dev.pubtoWrite
  repeat' (first
    | with_reducible assumption
    | with_reducible apply Dev.plainWrite_canon
    | with_reducible apply Dev.reform_canon
    | with_reducible apply Dev.outZero_canon
    | with_reducible apply canon_ite
    | (extract_lets +onlyGivenNames e; refine canon_have (d := e) ?_ ?_; unfold e; rotate_left; intro; clear_value e; rotate_right)
    | (extract_lets +onlyGivenNames e; clear_value e))

theorem Dev.pubTimeout_canon {d : Dev} (hd : d.Canon) : Dev.Canon (Dev.pubTimeout d) := by
  unfold Dev.pubTimeout
  repeat' (first
    | with_reducible assumption
    | with_reducible apply Dev.setBit_canon
    | with_reducible apply Dev.hw_canon
    | with_reducible apply Dev.reform_canon
    | with_reducible apply Dev.outZero_canon
    | with_reducible apply canon_ite
    | (extract_lets +onlyGivenNames e; refine canon_have (d := e) ?_ ?_; unfold e; rotate_left; intro; clear_value e; rotate_right)
    | (extract_lets +onlyGivenNames e; clear_value e))

theorem Dev.starve_canon {d : Dev} (hd : d.Canon) : Dev.Canon (Dev.starve d) := by
  unfold Dev.starve
  repeat' (first
    | with_reducible assumption
    | with_reducible apply Dev.fw_canon
    | with_reducible apply Dev.sysSetFld_canon
    | with_reducible apply canon_ite
    | (unfold Dev.Canon; dsimp only; with_reducible refine canon_fold ?_)
    | (extract_lets +onlyGivenNames e; refine canon_have (d := e) ?_ ?_; unfold e; rotate_left; intro; clear_value e; rotate_right)
    | (extract_lets +onlyGivenNames e; clear_value e))

theorem Dev.rotRequest_canon {d : Dev} (hd : d.Canon) : Dev.Canon (Dev.rotRequest d) := by
  unfold Dev.rotRequest
  repeat' (first
    | intro _
    | with_reducible assumption
    | with_reducible apply Dev.fw_canon
    | with_reducible apply Dev.sysSetFld_canon
    | with_reducible apply Dev.rotStart_canon
    | with_reducible apply canon_ite
    | (unfold Dev.Canon; dsimp only; with_reducible refine canon_fold ?_)
    | (extract_lets +onlyGivenNames e; refine canon_have (d := e) ?_ ?_; unfold e; rotate_left; intro; clear_value e; rotate_right)
    | (extract_lets +onlyGivenNames e; clear_value e)
    | split
    | with_reducible refine canon_snd ?_ (by with_reducible assumption)
    | with_reducible refine canon_fst ?_ (by with_reducible assumption)
    | dsimp only)

theorem Dev.balFromSoc_canon {d : Dev} (hd : d.Canon) : Dev.Canon (Dev.balFromSoc d) := by
  unfold Dev.balFromSoc
  repeat' (first
    | intro _
    | with_reducible assumption
    | with_reducible apply Dev.balCmdWrite_canon
    | with_reducible apply canon_ite
    | with_reducible apply canon_foldl
    | with_reducible apply canon_foldl_fst
    | with_reducible apply canon_foldl_snd
    | (extract_lets +onlyGivenNames e; refine canon_have (d := e) ?_ ?_; unfold e; rotate_left; intro; clear_value e; rotate_right)
    | (extract_lets +onlyGivenNames e; clear_value e)
    | split
    | with_reducible refine canon_snd ?_ (by with_reducible assumption)
    | with_reducible refine canon_fst ?_ (by with_reducible assumption)
    | dsimp only)

theorem Dev.deratedLimits_canon {d : Dev} (hd : d.Canon) : Dev.Canon (Dev.deratedLimits d) := by
  unfold Dev.deratedLimits
  repeat' (first
    | intro _
    | with_reducible assumption
    | with_reducible apply Dev.limStage_canon
    | with_reducible apply Dev.limCommit_canon
    | with_reducible apply canon_ite
    | with_reducible apply canon_foldl
    | with_reducible apply canon_foldl_fst
    | with_reducible apply canon_foldl_snd
    | (unfold Dev.Canon; dsimp only; with_reducible refine canon_fold ?_)
    | (extract_lets +onlyGivenNames e; refine canon_have (d := e) ?_ ?_; unfold e; rotate_left; intro; clear_value e; rotate_right)
    | (extract_lets +onlyGivenNames e; clear_value e)
    | dsimp only)

theorem Dev.profTick_canon {d : Dev} (hd : d.Canon) : Dev.Canon (Dev.profTick d) := by
  unfold Dev.profTick
  repeat' (first
    | intro _
    | with_reducible assumption
    | with_reducible apply Dev.profCommit_canon
    | with_reducible apply Dev.profEnter_canon
    | with_reducible apply canon_ite
    | with_reducible apply canon_foldl
    | (unfold Dev.Canon; dsimp only; with_reducible refine canon_fold ?_)
    | (extract_lets +onlyGivenNames e; refine canon_have (d := e) ?_ ?_; unfold e; rotate_left; intro; clear_value e; rotate_right)
    | (extract_lets +onlyGivenNames e; clear_value e)
    | dsimp only)

theorem Dev.cellsSweep_canon {d : Dev} (dq ns i : Int) (hd : d.Canon) : Dev.Canon (Dev.cellsSweep d dq ns i) := by
  unfold Dev.cellsSweep
  repeat' (first
    | intro _
    | with_reducible assumption
    | with_reducible apply Dev.fw_canon
    | with_reducible apply Dev.setCell_canon
    | with_reducible apply Dev.relearn_canon
    | with_reducible apply canon_ite
    | with_reducible apply canon_foldl
    | with_reducible apply canon_foldl_fst
    | with_reducible apply canon_foldl_snd
    | (unfold Dev.Canon; dsimp only; with_reducible refine canon_fold ?_)
    | (extract_lets +onlyGivenNames e; refine canon_have (d := e) ?_ ?_; unfold e; rotate_left; intro; clear_value e; rotate_right)
    | (extract_lets +onlyGivenNames e; clear_value e)
    | split
    | with_reducible refine canon_snd ?_ (by with_reducible assumption)
    | with_reducible refine canon_fst ?_ (by with_reducible assumption)
    | dsimp only)

theorem Dev.histAdd_canon {d : Dev} (hd : d.Canon) : Dev.Canon (Dev.histAdd d) := by
  unfold Dev.histAdd
  repeat' (first
    | intro _
    | with_reducible assumption
    | with_reducible apply canon_ite
    | (unfold Dev.Canon; dsimp only; with_reducible refine canon_fold ?_)
    | (extract_lets +onlyGivenNames e; refine canon_have (d := e) ?_ ?_; unfold e; rotate_left; intro; clear_value e; rotate_right)
    | (extract_lets +onlyGivenNames e; clear_value e)
    | dsimp only)

theorem Dev.thruAdd_canon {d : Dev} (hd : d.Canon) : Dev.Canon (Dev.thruAdd d) := by
  unfold Dev.thruAdd
  repeat' (first
    | with_reducible assumption
    | (unfold Dev.Canon; dsimp only; with_reducible refine canon_fold ?_)
    | (extract_lets +onlyGivenNames e; refine canon_have (d := e) ?_ ?_; unfold e; rotate_left; intro; clear_value e; rotate_right)
    | (extract_lets +onlyGivenNames e; clear_value e)
    | split
    | with_reducible refine canon_snd ?_ (by with_reducible assumption)
    | with_reducible refine canon_fst ?_ (by with_reducible assumption)
    | dsimp only)

theorem Dev.estTake_canon {d : Dev} (q : Int) (tick : Nat) (i : Int) (hd : d.Canon) : Dev.Canon (Dev.estTake d q tick i) := by
  unfold Dev.estTake
  repeat' (first
    | with_reducible assumption
    | with_reducible apply Dev.nextFree_canon
    | with_reducible apply Dev.tick_canon
    | (unfold Dev.Canon; dsimp only; with_reducible refine canon_fold ?_)
    | (extract_lets +onlyGivenNames e; refine canon_have (d := e) ?_ ?_; unfold e; rotate_left; intro; clear_value e; rotate_right)
    | (extract_lets +onlyGivenNames e; clear_value e))

theorem Dev.gapTake_canon {d : Dev} (hd : d.Canon) : Dev.Canon (Dev.gapTake d) := by
  unfold Dev.gapTake
  repeat' (first
    | with_reducible assumption
    | (unfold Dev.Canon; dsimp only; with_reducible refine canon_fold ?_)
    | (extract_lets +onlyGivenNames e; refine canon_have (d := e) ?_ ?_; unfold e; rotate_left; intro; clear_value e; rotate_right)
    | (extract_lets +onlyGivenNames e; clear_value e))

theorem Dev.estBasic_canon {d : Dev} (hd : d.Canon) : Dev.Canon (Dev.estBasic d) := by
  unfold Dev.estBasic
  repeat' (first
    | with_reducible assumption
    | with_reducible apply Dev.tick_canon
    | with_reducible apply Dev.ends_canon
    | with_reducible apply Dev.rests_canon
    | with_reducible apply Dev.results_canon
    | with_reducible apply Dev.estPub_canon
    | with_reducible apply Dev.rotRequest_canon
    | with_reducible apply Dev.cellsSweep_canon
    | with_reducible apply Dev.histAdd_canon
    | with_reducible apply Dev.estTake_canon
    | with_reducible apply Dev.gapTake_canon
    | (extract_lets +onlyGivenNames e; refine canon_have (d := e) ?_ ?_; unfold e; rotate_left; intro; clear_value e; rotate_right)
    | (extract_lets +onlyGivenNames e; clear_value e)
    | split
    | with_reducible refine canon_snd ?_ (by with_reducible assumption)
    | with_reducible refine canon_fst ?_ (by with_reducible assumption)
    | dsimp only)

theorem Dev.estRun_canon {d : Dev} (hd : d.Canon) : Dev.Canon (Dev.estRun d) := by
  unfold Dev.estRun
  repeat' (first
    | with_reducible assumption
    | with_reducible apply Dev.rotStart_canon
    | with_reducible apply Dev.balFromSoc_canon
    | with_reducible apply Dev.deratedLimits_canon
    | with_reducible apply Dev.profTick_canon
    | with_reducible apply Dev.thruAdd_canon
    | with_reducible apply Dev.estBasic_canon
    | with_reducible apply canon_ite
    | (unfold Dev.Canon; dsimp only; with_reducible refine canon_fold ?_)
    | (extract_lets +onlyGivenNames e; refine canon_have (d := e) ?_ ?_; unfold e; rotate_left; intro; clear_value e; rotate_right)
    | (extract_lets +onlyGivenNames e; clear_value e))

theorem Dev.correction_canon {d : Dev} (hd : d.Canon) : Dev.Canon (Dev.correction d) := by
  unfold Dev.correction
  repeat' (first
    | intro _
    | with_reducible assumption
    | with_reducible apply Dev.setCell_canon
    | with_reducible apply canon_ite
    | with_reducible apply canon_foldl
    | with_reducible apply canon_foldl_fst
    | with_reducible apply canon_foldl_snd
    | (unfold Dev.Canon; dsimp only; with_reducible refine canon_fold ?_)
    | (extract_lets +onlyGivenNames e; refine canon_have (d := e) ?_ ?_; unfold e; rotate_left; intro; clear_value e; rotate_right)
    | (extract_lets +onlyGivenNames e; clear_value e)
    | split
    | with_reducible refine canon_snd ?_ (by with_reducible assumption)
    | with_reducible refine canon_fst ?_ (by with_reducible assumption)
    | dsimp only)

end Sys2Proof.Machine
end

