-- ==== Sys2Proof/Laws/CanonVault.lean ====
section
/-! SUPPORT. Every operation of Sys2Proof/Machine/Vault.lean keeps the canonical form. -/

set_option Elab.async false
set_option linter.all false

namespace Sys2Proof.Machine

theorem Dev.stoCopy_canon {d : Dev} (reason : Nat) (hd : d.Canon) : Dev.Canon (Dev.stoCopy d reason) := by
  unfold Dev.stoCopy
  repeat' (first
    | with_reducible assumption
    | with_reducible apply Dev.nvcCopy_canon
    | with_reducible apply Dev.mirrorParts_canon
    | with_reducible apply canon_ite
    | (unfold Dev.Canon; dsimp only; with_reducible refine canon_fold ?_)
    | (extract_lets +onlyGivenNames e; refine canon_have (d := e) ?_ ?_; unfold e; rotate_left; intro; clear_value e; rotate_right)
    | (extract_lets +onlyGivenNames e; clear_value e)
    | split
    | with_reducible refine canon_snd ?_ (by with_reducible assumption)
    | with_reducible refine canon_fst ?_ (by with_reducible assumption)
    | dsimp only)

theorem Dev.stoWrite_canon {d : Dev} (reason : Nat) (hd : d.Canon) : Dev.Canon (Dev.stoWrite d reason) := by
  unfold Dev.stoWrite
  repeat' (first
    | with_reducible assumption
    | with_reducible apply Dev.flushReq_canon
    | with_reducible apply Dev.stoCopy_canon
    | with_reducible apply canon_ite
    | (extract_lets +onlyGivenNames e; refine canon_have (d := e) ?_ ?_; unfold e; rotate_left; intro; clear_value e; rotate_right)
    | (extract_lets +onlyGivenNames e; clear_value e))

theorem Dev.stoService_canon {d : Dev} (hd : d.Canon) : Dev.Canon (Dev.stoService d) := by
  unfold Dev.stoService
  repeat' (first
    | intro _
    | with_reducible assumption
    | with_reducible apply Dev.stoWrite_canon
    | with_reducible apply canon_ite
    | (extract_lets +onlyGivenNames e; refine canon_have (d := e) ?_ ?_; unfold e; rotate_left; intro; clear_value e; rotate_right)
    | (extract_lets +onlyGivenNames e; clear_value e)
    | split
    | with_reducible refine canon_snd ?_ (by with_reducible assumption)
    | with_reducible refine canon_fst ?_ (by with_reducible assumption)
    | dsimp only)

theorem Dev.stoInterval_canon {d : Dev} (hd : d.Canon) : Dev.Canon (Dev.stoInterval d) := by
  unfold Dev.stoInterval
  repeat' (first
    | with_reducible assumption
    | with_reducible apply Dev.stoAsk_canon
    | with_reducible apply canon_ite
    | (extract_lets +onlyGivenNames e; refine canon_have (d := e) ?_ ?_; unfold e; rotate_left; intro; clear_value e; rotate_right)
    | (extract_lets +onlyGivenNames e; clear_value e))

theorem Dev.stoTake_canon {d : Dev} (k : Nat) (hd : d.Canon) : Dev.Canon (Dev.stoTake d k) := by
  unfold Dev.stoTake
  repeat' (first
    | intro _
    | with_reducible assumption
    | with_reducible apply Dev.wr_canon
    | with_reducible apply canon_ite
    | with_reducible apply canon_foldl
    | with_reducible apply canon_foldl_fst
    | with_reducible apply canon_foldl_snd
    | (unfold Dev.Canon; dsimp only; with_reducible refine canon_fold ?_)
    | (extract_lets +onlyGivenNames e; refine canon_have (d := e) ?_ ?_; unfold e; rotate_left; intro; clear_value e; rotate_right)
    | (extract_lets +onlyGivenNames e; clear_value e)
    | dsimp only)

theorem Dev.stoOld_canon {d : Dev} (k : Nat) (hd : d.Canon) : Dev.Canon (Dev.stoOld d k) := by
  unfold Dev.stoOld
  repeat' (first
    | with_reducible assumption
    | with_reducible apply Dev.fw_canon
    | with_reducible apply canon_ite)

theorem Dev.stoBaseline_canon {d : Dev} (q : Int) (hd : d.Canon) : Dev.Canon (Dev.stoBaseline d q) := by
  unfold Dev.stoBaseline
  repeat' (first
    | with_reducible assumption
    | (unfold Dev.Canon; dsimp only; with_reducible refine canon_fold ?_)
    | (extract_lets +onlyGivenNames e; refine canon_have (d := e) ?_ ?_; unfold e; rotate_left; intro; clear_value e; rotate_right)
    | (extract_lets +onlyGivenNames e; clear_value e))

theorem Dev.stoForward_canon {d : Dev} (warm : Bool) (dq dt : Int) (hd : d.Canon) : Dev.Canon (Dev.stoForward d warm dq dt) := by
  unfold Dev.stoForward
  repeat' (first
    | intro _
    | with_reducible assumption
    | with_reducible apply canon_ite
    | (unfold Dev.Canon; dsimp only; with_reducible refine canon_fold ?_)
    | (extract_lets +onlyGivenNames e; refine canon_have (d := e) ?_ ?_; unfold e; rotate_left; intro; clear_value e; rotate_right)
    | (extract_lets +onlyGivenNames e; clear_value e)
    | dsimp only)

theorem Dev.stoLoad_canon {d : Dev} (hd : d.Canon) : Dev.Canon (Dev.stoLoad d) := by
  unfold Dev.stoLoad
  repeat' (first
    | with_reducible assumption
    | with_reducible apply Dev.fw_canon
    | with_reducible apply Dev.stoTake_canon
    | with_reducible apply Dev.stoOld_canon
    | with_reducible apply Dev.stoBaseline_canon
    | with_reducible apply Dev.stoForward_canon
    | (unfold Dev.Canon; dsimp only; with_reducible refine canon_fold ?_)
    | (extract_lets +onlyGivenNames e; refine canon_have (d := e) ?_ ?_; unfold e; rotate_left; intro; clear_value e; rotate_right)
    | (extract_lets +onlyGivenNames e; clear_value e)
    | split
    | with_reducible refine canon_snd ?_ (by with_reducible assumption)
    | with_reducible refine canon_fst ?_ (by with_reducible assumption)
    | dsimp only)

theorem Dev.estResume_canon {d : Dev} (hd : d.Canon) : Dev.Canon (Dev.estResume d) := by
  unfold Dev.estResume
  repeat' (first
    | intro _
    | with_reducible assumption
    | with_reducible apply Dev.sysSetFld_canon
    | with_reducible apply Dev.setCell_canon
    | with_reducible apply Dev.stoAsk_canon
    | with_reducible apply Dev.restPoint_canon
    | with_reducible apply canon_ite
    | with_reducible apply canon_foldl
    | (unfold Dev.Canon; dsimp only; with_reducible refine canon_fold ?_)
    | (extract_lets +onlyGivenNames e; refine canon_have (d := e) ?_ ?_; unfold e; rotate_left; intro; clear_value e; rotate_right)
    | (extract_lets +onlyGivenNames e; clear_value e)
    | split
    | with_reducible refine canon_snd ?_ (by with_reducible assumption)
    | with_reducible refine canon_fst ?_ (by with_reducible assumption)
    | dsimp only)

theorem Dev.standby_canon {d : Dev} (st : Nat) (hd : d.Canon) : Dev.Canon (Dev.standby d st) := by
  unfold Dev.standby
  repeat' (first
    | with_reducible assumption
    | with_reducible apply Dev.setFld_canon
    | (unfold Dev.Canon; dsimp only; with_reducible refine canon_fold ?_)
    | (extract_lets +onlyGivenNames e; refine canon_have (d := e) ?_ ?_; unfold e; rotate_left; intro; clear_value e; rotate_right)
    | (extract_lets +onlyGivenNames e; clear_value e))

theorem Dev.setTr_canon {d : Dev} (k : Nat) (hd : d.Canon) : Dev.Canon (Dev.setTr d k) := by
  unfold Dev.setTr
  repeat' (first
    | with_reducible assumption
    | (unfold Dev.Canon; dsimp only; with_reducible refine canon_fold ?_)
    | (extract_lets +onlyGivenNames e; refine canon_have (d := e) ?_ ?_; unfold e; rotate_left; intro; clear_value e; rotate_right)
    | (extract_lets +onlyGivenNames e; clear_value e))

theorem Dev.transOpen_canon {d : Dev} (hd : d.Canon) : Dev.Canon (Dev.transOpen d) := by
  unfold Dev.transOpen
  repeat' (first
    | with_reducible assumption
    | with_reducible apply Dev.wr_canon
    | with_reducible apply Dev.reform_canon
    | with_reducible apply Dev.stoAsk_canon
    | with_reducible apply Dev.stoService_canon
    | with_reducible apply Dev.setTr_canon
    | (unfold Dev.Canon; dsimp only; with_reducible refine canon_fold ?_)
    | (extract_lets +onlyGivenNames e; refine canon_have (d := e) ?_ ?_; unfold e; rotate_left; intro; clear_value e; rotate_right)
    | (extract_lets +onlyGivenNames e; clear_value e))

theorem Dev.transEnter_canon {d : Dev} (hd : d.Canon) : Dev.Canon (Dev.transEnter d) := by
  unfold Dev.transEnter
  repeat' (first
    | with_reducible assumption
    | with_reducible apply Dev.send_canon
    | with_reducible apply Dev.fw_canon
    | with_reducible apply Dev.ringSleep_canon
    | with_reducible apply Dev.standby_canon
    | with_reducible apply Dev.setTr_canon
    | with_reducible apply canon_ite
    | (extract_lets +onlyGivenNames e; refine canon_have (d := e) ?_ ?_; unfold e; rotate_left; intro; clear_value e; rotate_right)
    | (extract_lets +onlyGivenNames e; clear_value e))

theorem Dev.transStep_canon {d : Dev} (hd : d.Canon) : Dev.Canon (Dev.transStep d) := by
  unfold Dev.transStep
  repeat' (first
    | with_reducible assumption
    | with_reducible apply Dev.fw_canon
    | with_reducible apply Dev.setTr_canon
    | with_reducible apply Dev.transOpen_canon
    | with_reducible apply Dev.transEnter_canon
    | with_reducible apply canon_ite
    | (extract_lets +onlyGivenNames e; refine canon_have (d := e) ?_ ?_; unfold e; rotate_left; intro; clear_value e; rotate_right)
    | (extract_lets +onlyGivenNames e; clear_value e))

theorem Dev.transReq_canon {d : Dev} (hd : d.Canon) : Dev.Canon (Dev.transReq d) := by
  unfold Dev.transReq
  repeat' (first
    | with_reducible assumption
    | with_reducible apply Dev.start_canon
    | with_reducible apply Dev.sccCmd_canon
    | with_reducible apply Dev.setTr_canon
    | with_reducible apply Dev.transStep_canon
    | with_reducible apply canon_ite)

theorem Dev.transExit_canon {d : Dev} (returned : Bool) (hd : d.Canon) : Dev.Canon (Dev.transExit d returned) := by
  unfold Dev.transExit
  repeat' (first
    | intro _
    | with_reducible assumption
    | with_reducible apply Dev.fw_canon
    | with_reducible apply Dev.wakeSend_canon
    | with_reducible apply Dev.stoAsk_canon
    | with_reducible apply Dev.stoService_canon
    | with_reducible apply Dev.standby_canon
    | with_reducible apply canon_ite
    | (unfold Dev.Canon; dsimp only; with_reducible refine canon_fold ?_)
    | (extract_lets +onlyGivenNames e; refine canon_have (d := e) ?_ ?_; unfold e; rotate_left; intro; clear_value e; rotate_right)
    | (extract_lets +onlyGivenNames e; clear_value e)
    | dsimp only)

end Sys2Proof.Machine
end

