-- ==== Sys2Proof/Laws/CanonFit.lean ====
section
/-! SUPPORT. Every operation of Sys2Proof/Machine/Fit.lean keeps the canonical form. -/

set_option Elab.async false
set_option linter.all false

namespace Sys2Proof.Machine

theorem Dev.impCollect_canon {d : Dev} (b : Nat) (hd : d.Canon) : Dev.Canon (Dev.impCollect d b) := by
  unfold Dev.impCollect
  repeat' (first
    | intro _
    | with_reducible assumption
    | with_reducible apply Dev.setBit_canon
    | with_reducible apply canon_ite
    | with_reducible apply canon_foldl
    | (unfold Dev.Canon; dsimp only; with_reducible refine canon_fold ?_)
    | (extract_lets +onlyGivenNames e; refine canon_have (d := e) ?_ ?_; unfold e; rotate_left; intro; clear_value e; rotate_right)
    | (extract_lets +onlyGivenNames e; clear_value e)
    | dsimp only)

theorem Dev.fitCell_canon {d : Dev} (c : Nat) (x : CellSt) (hd : d.Canon) : Dev.Canon (Dev.fitCell d c x) := by
  unfold Dev.fitCell
  repeat' (first
    | with_reducible assumption
    | with_reducible apply Dev.wr_canon
    | with_reducible apply Dev.setBit_canon
    | with_reducible apply Dev.fw_canon
    | with_reducible apply Dev.setCell_canon
    | with_reducible apply canon_ite
    | (unfold Dev.Canon; dsimp only; with_reducible refine canon_fold ?_)
    | (extract_lets +onlyGivenNames e; refine canon_have (d := e) ?_ ?_; unfold e; rotate_left; intro; clear_value e; rotate_right)
    | (extract_lets +onlyGivenNames e; clear_value e)
    | split
    | with_reducible refine canon_snd ?_ (by with_reducible assumption)
    | with_reducible refine canon_fst ?_ (by with_reducible assumption)
    | dsimp only)

theorem Dev.inferCell_canon {d : Dev} (c : Nat) (x : CellSt) (hd : d.Canon) : Dev.Canon (Dev.inferCell d c x) := by
  unfold Dev.inferCell
  repeat' (first
    | with_reducible assumption
    | with_reducible apply Dev.setFld_canon
    | with_reducible apply Dev.setBit_canon
    | with_reducible apply Dev.fw_canon
    | with_reducible apply canon_ite
    | (unfold Dev.Canon; dsimp only; with_reducible refine canon_fold ?_)
    | (extract_lets +onlyGivenNames e; refine canon_have (d := e) ?_ ?_; unfold e; rotate_left; intro; clear_value e; rotate_right)
    | (extract_lets +onlyGivenNames e; clear_value e)
    | split
    | with_reducible refine canon_snd ?_ (by with_reducible assumption)
    | with_reducible refine canon_fst ?_ (by with_reducible assumption)
    | dsimp only)

theorem Dev.innerOchre_canon {d : Dev} (hd : d.Canon) : Dev.Canon (Dev.innerOchre d) := by
  unfold Dev.innerOchre
  repeat' (first
    | intro _
    | with_reducible assumption
    | with_reducible apply Dev.setBit_canon
    | with_reducible apply Dev.fw_canon
    | with_reducible apply Dev.srcOchre_canon
    | with_reducible apply canon_ite
    | (extract_lets +onlyGivenNames e; refine canon_have (d := e) ?_ ?_; unfold e; rotate_left; intro; clear_value e; rotate_right)
    | (extract_lets +onlyGivenNames e; clear_value e)
    | dsimp only)

theorem Dev.fitRun_canon {d : Dev} (hd : d.Canon) : Dev.Canon (Dev.fitRun d) := by
  unfold Dev.fitRun
  repeat' (first
    | intro _
    | with_reducible assumption
    | with_reducible apply Dev.impCollect_canon
    | with_reducible apply Dev.fitCell_canon
    | with_reducible apply Dev.inferCell_canon
    | with_reducible apply Dev.innerOchre_canon
    | with_reducible apply canon_ite
    | with_reducible apply canon_foldl
    | with_reducible apply canon_foldl_fst
    | with_reducible apply canon_foldl_snd
    | (extract_lets +onlyGivenNames e; refine canon_have (d := e) ?_ ?_; unfold e; rotate_left; intro; clear_value e; rotate_right)
    | (extract_lets +onlyGivenNames e; clear_value e)
    | dsimp only)

theorem Dev.ageingDaily_canon {d : Dev} (hd : d.Canon) : Dev.Canon (Dev.ageingDaily d) := by
  unfold Dev.ageingDaily
  repeat' (first
    | intro _
    | with_reducible assumption
    | with_reducible apply canon_ite
    | with_reducible apply canon_foldl
    | with_reducible apply canon_foldl_fst
    | with_reducible apply canon_foldl_snd
    | (unfold Dev.Canon; dsimp only; with_reducible refine canon_fold ?_)
    | (extract_lets +onlyGivenNames e; refine canon_have (d := e) ?_ ?_; unfold e; rotate_left; intro; clear_value e; rotate_right)
    | (extract_lets +onlyGivenNames e; clear_value e)
    | split
    | with_reducible refine canon_snd ?_ (by with_reducible assumption)
    | with_reducible refine canon_fst ?_ (by with_reducible assumption)
    | dsimp only)

end Sys2Proof.Machine
end

