-- ==== Sys2Proof/Laws/CanonCyclic.lean ====
section
/-! SUPPORT. Every operation of Sys2Proof/Machine/Cyclic.lean keeps the canonical form. -/

set_option Elab.async false
set_option linter.all false

namespace Sys2Proof.Machine

theorem Dev.zeroMem_canon {d : Dev} (a n : Nat) (hd : d.Canon) : Dev.Canon (Dev.zeroMem d a n) := Dev.written_canon _ _ ⟨Store.wf_filter hd.1 _, hd.2⟩

theorem Dev.copyMem_canon {d : Dev} (src dst n : Nat) (hd : d.Canon) : Dev.Canon (Dev.copyMem d src dst n) := by
  unfold Dev.copyMem
  repeat' (first
    | with_reducible assumption
    | with_reducible apply Dev.agentStore_canon)

theorem Dev.loadData_canon {d : Dev} (p : Image) (cold : Bool) (hd : d.Canon) : Dev.Canon (Dev.loadData d p cold) := by
  unfold Dev.loadData
  repeat' (first
    | with_reducible assumption
    | with_reducible apply Dev.setBytes_canon
    | with_reducible apply Dev.take_canon
    | with_reducible apply Dev.zeroMem_canon
    | with_reducible apply Dev.copyMem_canon
    | with_reducible apply canon_ite
    | (extract_lets +onlyGivenNames e; refine canon_have (d := e) ?_ ?_; unfold e; rotate_left; intro; clear_value e; rotate_right)
    | (extract_lets +onlyGivenNames e; clear_value e)
    | split
    | with_reducible refine canon_snd ?_ (by with_reducible assumption)
    | with_reducible refine canon_fst ?_ (by with_reducible assumption)
    | dsimp only)

theorem Dev.progStart_canon {d : Dev} (hd : d.Canon) : Dev.Canon (Dev.progStart d) := by
  unfold Dev.progStart
  repeat' (first
    | with_reducible assumption
    | with_reducible apply Dev.setFld_canon
    | with_reducible apply Dev.fw_canon
    | with_reducible apply Dev.setCore_canon
    | with_reducible apply Dev.loadData_canon
    | with_reducible apply canon_ite
    | (unfold Dev.Canon; dsimp only; with_reducible refine canon_fold ?_)
    | (extract_lets +onlyGivenNames e; refine canon_have (d := e) ?_ ?_; unfold e; rotate_left; intro; clear_value e; rotate_right)
    | (extract_lets +onlyGivenNames e; clear_value e)
    | split
    | with_reducible refine canon_snd ?_ (by with_reducible assumption)
    | with_reducible refine canon_fst ?_ (by with_reducible assumption)
    | dsimp only)

theorem Dev.progStop_canon {d : Dev} (hd : d.Canon) : Dev.Canon (Dev.progStop d) := by
  unfold Dev.progStop
  repeat' (first
    | with_reducible assumption
    | with_reducible apply Dev.setFld_canon
    | with_reducible apply Dev.fw_canon
    | with_reducible apply Dev.cycIdle_canon
    | with_reducible apply canon_ite)

theorem Dev.cycCtl_canon {d : Dev} (v : Word) (hd : d.Canon) : Dev.Canon (Dev.cycCtl d v) := by
  unfold Dev.cycCtl
  repeat' (first
    | with_reducible assumption
    | with_reducible apply Dev.wr_canon
    | with_reducible apply Dev.plainWrite_canon
    | with_reducible apply Dev.progStart_canon
    | with_reducible apply Dev.progStop_canon
    | with_reducible apply canon_ite
    | (extract_lets +onlyGivenNames e; refine canon_have (d := e) ?_ ?_; unfold e; rotate_left; intro; clear_value e; rotate_right)
    | (extract_lets +onlyGivenNames e; clear_value e))

theorem Dev.cycPeriod_canon {d : Dev} (v : Word) (hd : d.Canon) : Dev.Canon (Dev.cycPeriod d v) := by
  unfold Dev.cycPeriod
  repeat' (first
    | with_reducible assumption
    | with_reducible apply Dev.plainWrite_canon
    | with_reducible apply canon_ite
    | (extract_lets +onlyGivenNames e; refine canon_have (d := e) ?_ ?_; unfold e; rotate_left; intro; clear_value e; rotate_right)
    | (extract_lets +onlyGivenNames e; clear_value e))

theorem Dev.applyForce_canon {d : Dev} (base : Nat) (f : Force) (hd : d.Canon) : Dev.Canon (Dev.applyForce d base f) := by
  unfold Dev.applyForce
  repeat' (first
    | with_reducible assumption
    | with_reducible apply Dev.flag_canon
    | with_reducible apply Dev.agentStore_canon
    | with_reducible apply canon_ite
    | (extract_lets +onlyGivenNames e; refine canon_have (d := e) ?_ ?_; unfold e; rotate_left; intro; clear_value e; rotate_right)
    | (extract_lets +onlyGivenNames e; clear_value e))

theorem Dev.inputForces_canon {d : Dev} (hd : d.Canon) : Dev.Canon (Dev.inputForces d) := by
  unfold Dev.inputForces
  repeat' (first
    | intro _
    | with_reducible assumption
    | with_reducible apply Dev.applyForce_canon
    | with_reducible apply canon_ite
    | with_reducible apply canon_foldl
    | dsimp only)

theorem Dev.outputForces_canon {d : Dev} (hd : d.Canon) : Dev.Canon (Dev.outputForces d) := by
  unfold Dev.outputForces
  repeat' (first
    | intro _
    | with_reducible assumption
    | with_reducible apply Dev.flag_canon
    | with_reducible apply canon_ite
    | dsimp only)

theorem Dev.forceShow_canon {d : Dev} (hd : d.Canon) : Dev.Canon (Dev.forceShow d) := by
  unfold Dev.forceShow
  repeat' (first
    | intro _
    | with_reducible assumption
    | with_reducible apply Dev.setBit_canon
    | dsimp only)

theorem Dev.forceWrite_canon {d : Dev} (n w : Nat) (v : Word) (hd : d.Canon) : Dev.Canon (Dev.forceWrite d n w v) := by
  unfold Dev.forceWrite
  repeat' (first
    | with_reducible assumption
    | with_reducible apply Dev.wr_canon
    | with_reducible apply Dev.incWrap_canon
    | with_reducible apply Dev.plainWrite_canon
    | with_reducible apply Dev.fw_canon
    | with_reducible apply Dev.forceShow_canon
    | with_reducible apply canon_ite
    | (unfold Dev.Canon; dsimp only; with_reducible refine canon_fold ?_)
    | (extract_lets +onlyGivenNames e; refine canon_have (d := e) ?_ ?_; unfold e; rotate_left; intro; clear_value e; rotate_right)
    | (extract_lets +onlyGivenNames e; clear_value e))

theorem Dev.snapRead_canon {d : Dev} (y0 : List Nat) (hd : d.Canon) : Dev.Canon (Dev.snapRead d y0).2 := by
  induction y0 generalizing d with
  | nil =>
    unfold Dev.snapRead
    repeat' (first
      | with_reducible assumption
      | with_reducible apply Dev.periphRead_canon
      | with_reducible apply canon_ite
      | with_reducible apply canon_ite_snd
      | with_reducible apply canon_ite_fst
      | (extract_lets +onlyGivenNames e; refine canon_have (d := e) ?_ ?_; unfold e; rotate_left; intro; clear_value e; rotate_right)
      | (extract_lets +onlyGivenNames e; clear_value e)
      | split
      | with_reducible refine canon_snd ?_ (by with_reducible assumption)
      | with_reducible refine canon_fst ?_ (by with_reducible assumption)
      | dsimp only)
  | cons a t ih =>
    unfold Dev.snapRead
    repeat' (first
      | with_reducible assumption
      | with_reducible apply Dev.periphRead_canon
      | with_reducible apply ih
      | with_reducible apply canon_ite
      | with_reducible apply canon_ite_snd
      | with_reducible apply canon_ite_fst
      | (extract_lets +onlyGivenNames e; refine canon_have (d := e) ?_ ?_; unfold e; rotate_left; intro; clear_value e; rotate_right)
      | (extract_lets +onlyGivenNames e; clear_value e)
      | split
      | with_reducible refine canon_snd ?_ (by with_reducible assumption)
      | with_reducible refine canon_fst ?_ (by with_reducible assumption)
      | dsimp only)

theorem Dev.imageBytes_canon {d : Dev} (p : Image) (hd : d.Canon) : Dev.Canon (Dev.imageBytes d p).2 := by
  unfold Dev.imageBytes
  repeat' (first
    | intro _
    | with_reducible assumption
    | with_reducible apply Dev.snapRead_canon
    | (extract_lets +onlyGivenNames e; refine canon_have (d := e) ?_ ?_; unfold e; rotate_left; intro; clear_value e; rotate_right)
    | (extract_lets +onlyGivenNames e; clear_value e)
    | split
    | with_reducible refine canon_snd ?_ (by with_reducible assumption)
    | with_reducible refine canon_fst ?_ (by with_reducible assumption)
    | dsimp only)

theorem Dev.imageStore_canon {d : Dev} (x : List Byte × List Byte × List Byte × List Byte) (hd : d.Canon) : Dev.Canon (Dev.imageStore d x) := by
  unfold Dev.imageStore
  repeat' (first
    | with_reducible assumption
    | with_reducible apply Dev.agentStore_canon
    | with_reducible apply Dev.zeroMem_canon)

theorem Dev.watchdog_canon {d : Dev} (hd : d.Canon) : Dev.Canon (Dev.watchdog d) := by
  unfold Dev.watchdog
  repeat' (first
    | with_reducible assumption
    | with_reducible apply Dev.flag_canon
    | with_reducible apply Dev.hw_canon
    | with_reducible apply Dev.progFault_canon
    | with_reducible apply canon_ite)

theorem Dev.cycleMissed_canon {d : Dev} (hd : d.Canon) : Dev.Canon (Dev.cycleMissed d) := by
  unfold Dev.cycleMissed
  repeat' (first
    | with_reducible assumption
    | with_reducible apply Dev.flag_canon
    | with_reducible apply Dev.satInc_canon
    | with_reducible apply Dev.hw_canon
    | with_reducible apply Dev.watchdog_canon
    | with_reducible apply canon_ite
    | (unfold Dev.Canon; dsimp only; with_reducible refine canon_fold ?_)
    | (extract_lets +onlyGivenNames e; refine canon_have (d := e) ?_ ?_; unfold e; rotate_left; intro; clear_value e; rotate_right)
    | (extract_lets +onlyGivenNames e; clear_value e))

theorem Dev.cycleCount_canon {d : Dev} (hd : d.Canon) : Dev.Canon (Dev.cycleCount d) := by
  unfold Dev.cycleCount
  repeat' (first
    | with_reducible assumption
    | with_reducible apply Dev.setFld_canon
    | with_reducible apply Dev.incWrap_canon)

theorem Dev.execBegin_canon {d : Dev} (hd : d.Canon) : Dev.Canon (Dev.execBegin d) := by
  unfold Dev.execBegin
  repeat' (first
    | with_reducible assumption
    | with_reducible apply Dev.setBit_canon
    | with_reducible apply Dev.setCore_canon
    | with_reducible apply canon_ite
    | (unfold Dev.Canon; dsimp only; with_reducible refine canon_fold ?_)
    | (extract_lets +onlyGivenNames e; refine canon_have (d := e) ?_ ?_; unfold e; rotate_left; intro; clear_value e; rotate_right)
    | (extract_lets +onlyGivenNames e; clear_value e)
    | split
    | with_reducible refine canon_snd ?_ (by with_reducible assumption)
    | with_reducible refine canon_fst ?_ (by with_reducible assumption)
    | dsimp only)

theorem Dev.copyDone_canon {d : Dev} (hd : d.Canon) : Dev.Canon (Dev.copyDone d) := by
  unfold Dev.copyDone
  repeat' (first
    | with_reducible assumption
    | with_reducible apply Dev.start_canon
    | with_reducible apply Dev.send_canon
    | with_reducible apply Dev.inputForces_canon
    | with_reducible apply Dev.imageBytes_canon
    | with_reducible apply Dev.imageStore_canon
    | with_reducible apply Dev.execBegin_canon
    | with_reducible apply canon_ite
    | (unfold Dev.Canon; dsimp only; with_reducible refine canon_fold ?_)
    | (extract_lets +onlyGivenNames e; refine canon_have (d := e) ?_ ?_; unfold e; rotate_left; intro; clear_value e; rotate_right)
    | (extract_lets +onlyGivenNames e; clear_value e)
    | split
    | with_reducible refine canon_snd ?_ (by with_reducible assumption)
    | with_reducible refine canon_fst ?_ (by with_reducible assumption)
    | dsimp only)

end Sys2Proof.Machine
end

