-- ==== Sys2Proof/Laws/CanonRecords.lean ====
section
/-! SUPPORT. Every operation of Sys2Proof/Machine/Records.lean keeps the canonical form. -/

set_option Elab.async false
set_option linter.all false

namespace Sys2Proof.Machine

theorem Dev.recBoot_canon {d : Dev} (warm : Bool) (hd : d.Canon) : Dev.Canon (Dev.recBoot d warm) := by
  unfold Dev.recBoot
  repeat' (first
    | intro _
    | with_reducible assumption
    | with_reducible apply Dev.wr_canon
    | with_reducible apply Dev.flushReq_canon
    | with_reducible apply canon_ite
    | (unfold Dev.Canon; dsimp only; with_reducible refine canon_fold ?_)
    | (extract_lets +onlyGivenNames e; refine canon_have (d := e) ?_ ?_; unfold e; rotate_left; intro; clear_value e; rotate_right)
    | (extract_lets +onlyGivenNames e; clear_value e)
    | split
    | with_reducible refine canon_snd ?_ (by with_reducible assumption)
    | with_reducible refine canon_fst ?_ (by with_reducible assumption)
    | dsimp only)

theorem Dev.bootPosts_canon {d : Dev} (hd : d.Canon) : Dev.Canon (Dev.bootPosts d) := by
  unfold Dev.bootPosts
  repeat' (first
    | intro _
    | with_reducible assumption
    | with_reducible apply Dev.post_canon
    | with_reducible apply Dev.hw_canon
    | with_reducible apply canon_ite
    | with_reducible apply canon_foldl
    | with_reducible apply canon_foldl_fst
    | with_reducible apply canon_foldl_snd
    | (unfold Dev.Canon; dsimp only; with_reducible refine canon_fold ?_)
    | (extract_lets +onlyGivenNames e; refine canon_have (d := e) ?_ ?_; unfold e; rotate_left; intro; clear_value e; rotate_right)
    | (extract_lets +onlyGivenNames e; clear_value e)
    | dsimp only)

theorem Dev.recEnable_canon {d : Dev} (hd : d.Canon) : Dev.Canon (Dev.recEnable d) := by
  unfold Dev.recEnable
  repeat' (first
    | with_reducible assumption
    | with_reducible apply Dev.setBit_canon
    | with_reducible apply Dev.hw_canon
    | with_reducible apply Dev.reportLost_canon
    | with_reducible apply Dev.bootPosts_canon
    | with_reducible apply canon_ite
    | (extract_lets +onlyGivenNames e; refine canon_have (d := e) ?_ ?_; unfold e; rotate_left; intro; clear_value e; rotate_right)
    | (extract_lets +onlyGivenNames e; clear_value e))

theorem Dev.recCtl_canon {d : Dev} (v : Word) (hd : d.Canon) : Dev.Canon (Dev.recCtl d v) := by
  unfold Dev.recCtl
  repeat' (first
    | with_reducible assumption
    | with_reducible apply Dev.setBit_canon
    | with_reducible apply Dev.flushReq_canon
    | with_reducible apply Dev.recEnable_canon
    | with_reducible apply canon_ite
    | (extract_lets +onlyGivenNames e; refine canon_have (d := e) ?_ ?_; unfold e; rotate_left; intro; clear_value e; rotate_right)
    | (extract_lets +onlyGivenNames e; clear_value e))

theorem Dev.recPost_canon {d : Dev} (v : Word) (hd : d.Canon) : Dev.Canon (Dev.recPost d v) := by
  unfold Dev.recPost
  repeat' (first
    | intro _
    | with_reducible assumption
    | with_reducible apply Dev.flag_canon
    | with_reducible apply Dev.postBytes_canon
    | with_reducible apply Dev.take_canon
    | with_reducible apply canon_ite
    | (extract_lets +onlyGivenNames e; refine canon_have (d := e) ?_ ?_; unfold e; rotate_left; intro; clear_value e; rotate_right)
    | (extract_lets +onlyGivenNames e; clear_value e)
    | dsimp only)

theorem Dev.recMove_canon {d : Dev} (hd : d.Canon) : Dev.Canon (Dev.recMove d) := by
  unfold Dev.recMove
  repeat' (first
    | with_reducible assumption
    | with_reducible apply Dev.toLarder_canon
    | with_reducible apply Dev.smbFill_canon
    | with_reducible apply canon_ite)

theorem Dev.flushPeriod_canon {d : Dev} (hd : d.Canon) : Dev.Canon (Dev.flushPeriod d) := by
  unfold Dev.flushPeriod
  repeat' (first
    | with_reducible assumption
    | with_reducible apply Dev.flushReq_canon
    | with_reducible apply canon_ite
    | (extract_lets +onlyGivenNames e; refine canon_have (d := e) ?_ ?_; unfold e; rotate_left; intro; clear_value e; rotate_right)
    | (extract_lets +onlyGivenNames e; clear_value e))

theorem Dev.cellarSet_canon {d : Dev} (sector block : Nat) (retried : Bool) (hd : d.Canon) : Dev.Canon (Dev.cellarSet d sector block retried) := by
  unfold Dev.cellarSet
  repeat' (first
    | with_reducible assumption
    | (unfold Dev.Canon; dsimp only; with_reducible refine canon_fold ?_)
    | (extract_lets +onlyGivenNames e; refine canon_have (d := e) ?_ ?_; unfold e; rotate_left; intro; clear_value e; rotate_right)
    | (extract_lets +onlyGivenNames e; clear_value e))

theorem Dev.migrate_canon {d : Dev} (ok : Bool) (hd : d.Canon) : Dev.Canon (Dev.migrate d ok) := by
  unfold Dev.migrate
  repeat' (first
    | with_reducible assumption
    | with_reducible apply Dev.fw_canon
    | with_reducible apply Dev.nvBytes_canon
    | with_reducible apply Dev.mramWrite_canon
    | with_reducible apply Dev.norErased_canon
    | with_reducible apply Dev.cellarSet_canon
    | with_reducible apply canon_ite
    | (extract_lets +onlyGivenNames e; refine canon_have (d := e) ?_ ?_; unfold e; rotate_left; intro; clear_value e; rotate_right)
    | (extract_lets +onlyGivenNames e; clear_value e)
    | split
    | with_reducible refine canon_snd ?_ (by with_reducible assumption)
    | with_reducible refine canon_fst ?_ (by with_reducible assumption)
    | dsimp only)

theorem Dev.recReq_canon {d : Dev} (h : PlantHead) (l : List Byte) (hd : d.Canon) : Dev.Canon (Dev.recReq d h l) := by
  unfold Dev.recReq
  repeat' (first
    | intro _
    | with_reducible assumption
    | with_reducible apply Dev.plantUdp_canon
    | with_reducible apply Dev.plantHigh_canon
    | with_reducible apply canon_ite
    | (extract_lets +onlyGivenNames e; refine canon_have (d := e) ?_ ?_; unfold e; rotate_left; intro; clear_value e; rotate_right)
    | (extract_lets +onlyGivenNames e; clear_value e)
    | dsimp only)

theorem Dev.nvcGo_canon {d : Dev} (kind tag : Nat) (hd : d.Canon) : Dev.Canon (Dev.nvcGo d kind tag) := by
  unfold Dev.nvcGo
  repeat' (first
    | with_reducible assumption
    | with_reducible apply Dev.nvcPush_canon)

end Sys2Proof.Machine
end

