-- ==== Sys2Proof/Laws/CanonSlots.lean ====
section
/-! SUPPORT. Every operation of Sys2Proof/Machine/Slots.lean keeps the canonical form. -/

set_option Elab.async false
set_option linter.all false

namespace Sys2Proof.Machine

theorem Dev.slotsShow_canon {d : Dev} (hd : d.Canon) : Dev.Canon (Dev.slotsShow d) := by
  unfold Dev.slotsShow
  repeat' (first
    | with_reducible assumption
    | with_reducible apply Dev.wr_canon
    | with_reducible apply Dev.setBit_canon
    | (extract_lets +onlyGivenNames e; refine canon_have (d := e) ?_ ?_; unfold e; rotate_left; intro; clear_value e; rotate_right)
    | (extract_lets +onlyGivenNames e; clear_value e))

theorem Dev.slotSave_canon {d : Dev} (r : Nat) (hd : d.Canon) : Dev.Canon (Dev.slotSave d r) := by
  unfold Dev.slotSave
  repeat' (first
    | with_reducible assumption
    | with_reducible apply Dev.mramWrite_canon
    | with_reducible apply Dev.slotsShow_canon
    | (extract_lets +onlyGivenNames e; refine canon_have (d := e) ?_ ?_; unfold e; rotate_left; intro; clear_value e; rotate_right)
    | (extract_lets +onlyGivenNames e; clear_value e)
    | split
    | with_reducible refine canon_snd ?_ (by with_reducible assumption)
    | with_reducible refine canon_fst ?_ (by with_reducible assumption)
    | dsimp only)

theorem Dev.slotBoot_canon {d : Dev} (hd : d.Canon) : Dev.Canon (Dev.slotBoot d).1 := by
  unfold Dev.slotBoot
  repeat' (first
    | intro _
    | with_reducible assumption
    | with_reducible apply Dev.wr_canon
    | with_reducible apply Dev.slotsShow_canon
    | with_reducible apply Dev.slotSave_canon
    | with_reducible apply canon_ite
    | with_reducible apply canon_ite_snd
    | with_reducible apply canon_ite_fst
    | (unfold Dev.Canon; dsimp only; with_reducible refine canon_fold ?_)
    | (extract_lets +onlyGivenNames e; refine canon_have (d := e) ?_ ?_; unfold e; rotate_left; intro; clear_value e; rotate_right)
    | (extract_lets +onlyGivenNames e; clear_value e)
    | split
    | with_reducible refine canon_snd ?_ (by with_reducible assumption)
    | with_reducible refine canon_fst ?_ (by with_reducible assumption)
    | dsimp only)

theorem Dev.programBoot_canon {d : Dev} (hd : d.Canon) : Dev.Canon (Dev.programBoot d) := by
  unfold Dev.programBoot
  repeat' (first
    | with_reducible assumption
    | with_reducible apply Dev.fw_canon
    | with_reducible apply Dev.slotSave_canon
    | with_reducible apply canon_ite
    | (extract_lets +onlyGivenNames e; refine canon_have (d := e) ?_ ?_; unfold e; rotate_left; intro; clear_value e; rotate_right)
    | (extract_lets +onlyGivenNames e; clear_value e))

theorem Dev.trialConfirm_canon {d : Dev} (hd : d.Canon) : Dev.Canon (Dev.trialConfirm d) := by
  unfold Dev.trialConfirm
  repeat' (first
    | with_reducible assumption
    | with_reducible apply Dev.fw_canon
    | with_reducible apply Dev.slotSave_canon
    | with_reducible apply canon_ite
    | (extract_lets +onlyGivenNames e; refine canon_have (d := e) ?_ ?_; unfold e; rotate_left; intro; clear_value e; rotate_right)
    | (extract_lets +onlyGivenNames e; clear_value e))

theorem Dev.slotErase_canon {d : Dev} (kind k : Nat) (hd : d.Canon) : Dev.Canon (Dev.slotErase d kind k) := by
  unfold Dev.slotErase
  repeat' (first
    | intro _
    | with_reducible assumption
    | with_reducible apply Dev.norErased_canon
    | with_reducible apply canon_foldl
    | (extract_lets +onlyGivenNames e; refine canon_have (d := e) ?_ ?_; unfold e; rotate_left; intro; clear_value e; rotate_right)
    | (extract_lets +onlyGivenNames e; clear_value e)
    | dsimp only)

theorem Dev.unstage_canon {d : Dev} (kind : Nat) (hd : d.Canon) : Dev.Canon (Dev.unstage d kind) := by
  unfold Dev.unstage
  repeat' (first
    | with_reducible assumption
    | with_reducible apply Dev.setBit_canon
    | (unfold Dev.Canon; dsimp only; with_reducible refine canon_fold ?_)
    | (extract_lets +onlyGivenNames e; refine canon_have (d := e) ?_ ?_; unfold e; rotate_left; intro; clear_value e; rotate_right)
    | (extract_lets +onlyGivenNames e; clear_value e))

theorem Dev.stageOpen_canon {d : Dev} (h : List Byte) (hd : d.Canon) : Dev.Canon (Dev.stageOpen d h).2 := by
  unfold Dev.stageOpen
  repeat' (first
    | with_reducible assumption
    | with_reducible apply Dev.wr_canon
    | with_reducible apply Dev.fw_canon
    | with_reducible apply Dev.slotErase_canon
    | with_reducible apply Dev.unstage_canon
    | (unfold Dev.Canon; dsimp only; with_reducible refine canon_fold ?_)
    | (extract_lets +onlyGivenNames e; refine canon_have (d := e) ?_ ?_; unfold e; rotate_left; intro; clear_value e; rotate_right)
    | (extract_lets +onlyGivenNames e; clear_value e)
    | split
    | with_reducible refine canon_snd ?_ (by with_reducible assumption)
    | with_reducible refine canon_fst ?_ (by with_reducible assumption)
    | dsimp only)

theorem Dev.blockCrcPost_canon {d : Dev} (i : Nat) (hd : d.Canon) : Dev.Canon (Dev.blockCrcPost d i) := by
  unfold Dev.blockCrcPost
  repeat' (first
    | with_reducible assumption
    | with_reducible apply Dev.start_canon
    | with_reducible apply Dev.fw_canon
    | with_reducible apply canon_ite)

theorem Dev.stageBlock_canon {d : Dev} (l : List Byte) (hd : d.Canon) : Dev.Canon (Dev.stageBlock d l).2 := by
  unfold Dev.stageBlock
  repeat' (first
    | with_reducible assumption
    | with_reducible apply Dev.wr_canon
    | with_reducible apply Dev.nvBytes_canon
    | with_reducible apply Dev.take_canon
    | with_reducible apply Dev.blockCrcPost_canon
    | with_reducible apply canon_ite
    | with_reducible apply canon_ite_snd
    | with_reducible apply canon_ite_fst
    | (unfold Dev.Canon; dsimp only; with_reducible refine canon_fold ?_)
    | (extract_lets +onlyGivenNames e; refine canon_have (d := e) ?_ ?_; unfold e; rotate_left; intro; clear_value e; rotate_right)
    | (extract_lets +onlyGivenNames e; clear_value e)
    | split
    | with_reducible refine canon_snd ?_ (by with_reducible assumption)
    | with_reducible refine canon_fst ?_ (by with_reducible assumption)
    | dsimp only)

theorem Dev.stageEnd_canon {d : Dev} (trailer : List Byte) (hd : d.Canon) : Dev.Canon (Dev.stageEnd d trailer).2 := by
  unfold Dev.stageEnd
  repeat' (first
    | with_reducible assumption
    | with_reducible apply Dev.setBit_canon
    | with_reducible apply Dev.fw_canon
    | with_reducible apply Dev.nvBytes_canon
    | with_reducible apply canon_ite
    | with_reducible apply canon_ite_snd
    | with_reducible apply canon_ite_fst
    | (unfold Dev.Canon; dsimp only; with_reducible refine canon_fold ?_)
    | (extract_lets +onlyGivenNames e; refine canon_have (d := e) ?_ ?_; unfold e; rotate_left; intro; clear_value e; rotate_right)
    | (extract_lets +onlyGivenNames e; clear_value e)
    | split
    | with_reducible refine canon_snd ?_ (by with_reducible assumption)
    | with_reducible refine canon_fst ?_ (by with_reducible assumption)
    | dsimp only)

theorem Dev.activate_canon {d : Dev} (kind : Nat) (force : Bool) (hd : d.Canon) : Dev.Canon (Dev.activate d kind force).2 := by
  unfold Dev.activate
  repeat' (first
    | with_reducible assumption
    | with_reducible apply Dev.fw_canon
    | with_reducible apply Dev.resetAsk_canon
    | with_reducible apply Dev.slotSave_canon
    | with_reducible apply Dev.unstage_canon
    | with_reducible apply canon_ite
    | with_reducible apply canon_ite_snd
    | with_reducible apply canon_ite_fst
    | (unfold Dev.Canon; dsimp only; with_reducible refine canon_fold ?_)
    | (extract_lets +onlyGivenNames e; refine canon_have (d := e) ?_ ?_; unfold e; rotate_left; intro; clear_value e; rotate_right)
    | (extract_lets +onlyGivenNames e; clear_value e)
    | dsimp only)

theorem Dev.changePrepare_canon {d : Dev} (ready : Bool) (hd : d.Canon) : Dev.Canon (Dev.changePrepare d ready).2 := by
  unfold Dev.changePrepare
  repeat' (first
    | intro _
    | with_reducible assumption
    | with_reducible apply Dev.wr_canon
    | with_reducible apply Dev.setFld_canon
    | with_reducible apply Dev.send_canon
    | with_reducible apply Dev.fw_canon
    | with_reducible apply Dev.copyMem_canon
    | with_reducible apply canon_ite
    | with_reducible apply canon_ite_snd
    | with_reducible apply canon_ite_fst
    | with_reducible apply canon_foldl
    | with_reducible apply canon_foldl_fst
    | with_reducible apply canon_foldl_snd
    | (unfold Dev.Canon; dsimp only; with_reducible refine canon_fold ?_)
    | (extract_lets +onlyGivenNames e; refine canon_have (d := e) ?_ ?_; unfold e; rotate_left; intro; clear_value e; rotate_right)
    | (extract_lets +onlyGivenNames e; clear_value e)
    | split
    | with_reducible refine canon_snd ?_ (by with_reducible assumption)
    | with_reducible refine canon_fst ?_ (by with_reducible assumption)
    | dsimp only)

end Sys2Proof.Machine
end

