-- ==== Sys2Proof/Laws/CanonLink.lean ====
section
/-! SUPPORT. Every operation of Sys2Proof/Machine/Link.lean keeps the canonical form. -/

set_option Elab.async false
set_option linter.all false

namespace Sys2Proof.Machine

theorem Dev.handNote_canon {d : Dev} (hd : d.Canon) : Dev.Canon (Dev.handNote d) := by
  unfold Dev.handNote
  repeat' (first
    | with_reducible assumption
    | with_reducible apply Dev.satInc_canon
    | with_reducible apply Dev.hw_canon)

theorem Dev.handGive_canon {d : Dev} (hd : d.Canon) : Dev.Canon (Dev.handGive d) := by
  unfold Dev.handGive
  repeat' (first
    | with_reducible assumption
    | with_reducible apply Dev.cue_canon
    | with_reducible apply Dev.shadeEnter_canon
    | with_reducible apply Dev.handNote_canon
    | (unfold Dev.Canon; dsimp only; with_reducible refine canon_fold ?_)
    | (extract_lets +onlyGivenNames e; refine canon_have (d := e) ?_ ?_; unfold e; rotate_left; intro; clear_value e; rotate_right)
    | (extract_lets +onlyGivenNames e; clear_value e))

theorem Dev.programAnew_canon {d : Dev} (hd : d.Canon) : Dev.Canon (Dev.programAnew d) := by
  unfold Dev.programAnew
  repeat' (first
    | with_reducible assumption
    | with_reducible apply Dev.hw_canon
    | with_reducible apply Dev.progStart_canon
    | with_reducible apply Dev.progStop_canon
    | with_reducible apply canon_ite
    | (extract_lets +onlyGivenNames e; refine canon_have (d := e) ?_ ?_; unfold e; rotate_left; intro; clear_value e; rotate_right)
    | (extract_lets +onlyGivenNames e; clear_value e))

theorem Dev.handTake_canon {d : Dev} (hd : d.Canon) : Dev.Canon (Dev.handTake d) := by
  unfold Dev.handTake
  repeat' (first
    | with_reducible assumption
    | with_reducible apply Dev.dutyEnter_canon
    | with_reducible apply Dev.handNote_canon
    | with_reducible apply Dev.programAnew_canon
    | with_reducible apply canon_ite
    | (unfold Dev.Canon; dsimp only; with_reducible refine canon_fold ?_)
    | (extract_lets +onlyGivenNames e; refine canon_have (d := e) ?_ ?_; unfold e; rotate_left; intro; clear_value e; rotate_right)
    | (extract_lets +onlyGivenNames e; clear_value e))

theorem Dev.handover_canon {d : Dev} (restart : Bool) (hd : d.Canon) : Dev.Canon (Dev.handover d restart) := by
  unfold Dev.handover
  repeat' (first
    | with_reducible assumption
    | with_reducible apply Dev.send_canon
    | with_reducible apply Dev.hw_canon
    | with_reducible apply Dev.handGive_canon
    | with_reducible apply canon_ite
    | (unfold Dev.Canon; dsimp only; with_reducible refine canon_fold ?_)
    | (extract_lets +onlyGivenNames e; refine canon_have (d := e) ?_ ?_; unfold e; rotate_left; intro; clear_value e; rotate_right)
    | (extract_lets +onlyGivenNames e; clear_value e))

theorem Dev.rejoin_canon {d : Dev} (hd : d.Canon) : Dev.Canon (Dev.rejoin d) := by
  unfold Dev.rejoin
  repeat' (first
    | with_reducible assumption
    | with_reducible apply Dev.hw_canon
    | with_reducible apply Dev.resetAsk_canon
    | with_reducible apply canon_ite)

theorem Dev.seed_canon {d : Dev} (hd : d.Canon) : Dev.Canon (Dev.seed d) := by
  unfold Dev.seed
  repeat' (first
    | with_reducible assumption
    | with_reducible apply Dev.wr_canon
    | with_reducible apply Dev.eligRefresh_canon
    | with_reducible apply Dev.epochSave_canon
    | with_reducible apply canon_ite)

theorem Dev.twCtl_canon {d : Dev} (v : Word) (hd : d.Canon) : Dev.Canon (Dev.twCtl d v) := by
  unfold Dev.twCtl
  repeat' (first
    | with_reducible assumption
    | with_reducible apply Dev.depose_canon
    | with_reducible apply Dev.handover_canon
    | with_reducible apply Dev.rejoin_canon
    | with_reducible apply Dev.seed_canon
    | with_reducible apply canon_ite
    | (extract_lets +onlyGivenNames e; refine canon_have (d := e) ?_ ?_; unfold e; rotate_left; intro; clear_value e; rotate_right)
    | (extract_lets +onlyGivenNames e; clear_value e))

theorem Dev.pwrCtl_canon {d : Dev} (v : Word) (hd : d.Canon) : Dev.Canon (Dev.pwrCtl d v) := by
  unfold Dev.pwrCtl
  repeat' (first
    | with_reducible assumption
    | with_reducible apply Dev.resetAsk_canon
    | with_reducible apply Dev.standby_canon
    | with_reducible apply canon_ite)

theorem Dev.wdtWrite_canon {d : Dev} (v : Word) (hd : d.Canon) : Dev.Canon (Dev.wdtWrite d v) := by
  unfold Dev.wdtWrite
  repeat' (first
    | with_reducible assumption
    | with_reducible apply Dev.plainWrite_canon
    | with_reducible apply Dev.start_canon
    | with_reducible apply canon_ite
    | (extract_lets +onlyGivenNames e; refine canon_have (d := e) ?_ ?_; unfold e; rotate_left; intro; clear_value e; rotate_right)
    | (extract_lets +onlyGivenNames e; clear_value e))

end Sys2Proof.Machine
end

