-- ==== Sys2Proof/Laws/CanonTtMatch.lean ====
section
/-! SUPPORT. Every operation of Sys2Proof/Machine/TtMatch.lean keeps the canonical form. -/

set_option Elab.async false
set_option linter.all false

namespace Sys2Proof.Machine

theorem Dev.blankSend_canon {d : Dev} (hd : d.Canon) : Dev.Canon (Dev.blankSend d) := by
  unfold Dev.blankSend
  repeat' (first
    | with_reducible assumption
    | with_reducible apply Dev.cue_canon
    | with_reducible apply Dev.ringSend_canon
    | with_reducible apply canon_ite
    | (unfold Dev.Canon; dsimp only; with_reducible refine canon_fold ?_)
    | (extract_lets +onlyGivenNames e; refine canon_have (d := e) ?_ ?_; unfold e; rotate_left; intro; clear_value e; rotate_right)
    | (extract_lets +onlyGivenNames e; clear_value e)
    | split
    | with_reducible refine canon_snd ?_ (by with_reducible assumption)
    | with_reducible refine canon_fst ?_ (by with_reducible assumption)
    | dsimp only)

end Sys2Proof.Machine
end

