-- ==== Sys2Proof/Laws/CanonPeriph.lean ====
section
/-! SUPPORT. Every operation of Sys2Proof/Machine/Periph.lean keeps the canonical form. -/

set_option Elab.async false
set_option linter.all false

namespace Sys2Proof.Machine

theorem Dev.wrSystem_canon {d : Dev} (a : Nat) (v : Word) (hd : d.Canon) : Dev.Canon (Dev.wrSystem d a v) := by
  unfold Dev.wrSystem
  repeat' (first
    | with_reducible assumption
    | with_reducible apply Dev.plainWrite_canon
    | with_reducible apply Dev.sysCtlWrite_canon
    | with_reducible apply Dev.release_canon
    | with_reducible apply Dev.pwrCtl_canon
    | with_reducible apply Dev.wdtWrite_canon
    | with_reducible apply canon_ite)

theorem Dev.wrAng_canon {d : Dev} (a : Nat) (v : Word) (hd : d.Canon) : Dev.Canon (Dev.wrAng d a v) := by
  unfold Dev.wrAng
  repeat' (first
    | with_reducible assumption
    | with_reducible apply Dev.plainWrite_canon
    | with_reducible apply Dev.slewAtOnce_canon
    | with_reducible apply Dev.angSrcPri_canon
    | with_reducible apply Dev.angCtl_canon
    | with_reducible apply Dev.angLossTo_canon
    | with_reducible apply Dev.angPerr_canon
    | with_reducible apply Dev.angIncHi_canon
    | with_reducible apply Dev.angIncLo_canon
    | with_reducible apply canon_ite
    | (extract_lets +onlyGivenNames e; refine canon_have (d := e) ?_ ?_; unfold e; rotate_left; intro; clear_value e; rotate_right)
    | (extract_lets +onlyGivenNames e; clear_value e))

theorem Dev.wrTim_canon {d : Dev} (a : Nat) (v : Word) (hd : d.Canon) : Dev.Canon (Dev.wrTim d a v) := by
  unfold Dev.wrTim
  repeat' (first
    | with_reducible assumption
    | with_reducible apply Dev.plainWrite_canon
    | with_reducible apply Dev.timInc_canon
    | with_reducible apply Dev.timAdjSec_canon
    | with_reducible apply Dev.timAdjNs_canon
    | with_reducible apply Dev.timCtl_canon
    | with_reducible apply Dev.timHoldTo_canon
    | with_reducible apply Dev.timSnap_canon
    | with_reducible apply canon_ite)

theorem Dev.wrTt_canon {d : Dev} (a : Nat) (v : Word) (hd : d.Canon) : Dev.Canon (Dev.wrTt d a v) := by
  unfold Dev.wrTt
  repeat' (first
    | with_reducible assumption
    | with_reducible apply Dev.plainWrite_canon
    | with_reducible apply Dev.ttWord0_canon
    | with_reducible apply Dev.ttWord1_canon
    | with_reducible apply Dev.ttCtl_canon
    | with_reducible apply canon_ite
    | (extract_lets +onlyGivenNames e; refine canon_have (d := e) ?_ ?_; unfold e; rotate_left; intro; clear_value e; rotate_right)
    | (extract_lets +onlyGivenNames e; clear_value e))

theorem Dev.wrSk_canon {d : Dev} (x a : Nat) (v : Word) (hd : d.Canon) : Dev.Canon (Dev.wrSk d x a v) := by
  unfold Dev.wrSk
  repeat' (first
    | with_reducible assumption
    | with_reducible apply Dev.plainWrite_canon
    | with_reducible apply Dev.skCtl_canon
    | with_reducible apply Dev.rearm_canon
    | with_reducible apply Dev.cmdGo_canon
    | with_reducible apply canon_ite
    | (extract_lets +onlyGivenNames e; refine canon_have (d := e) ?_ ?_; unfold e; rotate_left; intro; clear_value e; rotate_right)
    | (extract_lets +onlyGivenNames e; clear_value e))

theorem Dev.wrSweep_canon {d : Dev} (src : Writer) (a : Nat) (v : Word) (hd : d.Canon) : Dev.Canon (Dev.wrSweep d src a v) := by
  unfold Dev.wrSweep
  repeat' (first
    | with_reducible assumption
    | with_reducible apply Dev.plainWrite_canon
    | with_reducible apply Dev.chmWrite_canon
    | with_reducible apply Dev.balCmdWrite_canon
    | with_reducible apply Dev.balCtl_canon
    | with_reducible apply Dev.lrnWrite_canon
    | with_reducible apply Dev.owGo_canon
    | with_reducible apply Dev.swpCtl_canon
    | with_reducible apply canon_ite
    | (extract_lets +onlyGivenNames e; refine canon_have (d := e) ?_ ?_; unfold e; rotate_left; intro; clear_value e; rotate_right)
    | (extract_lets +onlyGivenNames e; clear_value e))

theorem Dev.wrProtect_canon {d : Dev} (a : Nat) (v : Word) (hd : d.Canon) : Dev.Canon (Dev.wrProtect d a v) := by
  unfold Dev.wrProtect
  repeat' (first
    | with_reducible assumption
    | with_reducible apply Dev.plainWrite_canon
    | with_reducible apply Dev.updateAct_canon
    | with_reducible apply Dev.limWrite_canon
    | with_reducible apply Dev.tripClear_canon
    | with_reducible apply Dev.swTrip_canon
    | with_reducible apply Dev.limTest_canon
    | with_reducible apply Dev.sccCmdWrite_canon
    | with_reducible apply Dev.sccTestWrite_canon
    | with_reducible apply Dev.sccDiagWrite_canon
    | with_reducible apply canon_ite
    | (extract_lets +onlyGivenNames e; refine canon_have (d := e) ?_ ?_; unfold e; rotate_left; intro; clear_value e; rotate_right)
    | (extract_lets +onlyGivenNames e; clear_value e))

theorem Dev.wrState_canon {d : Dev} (a : Nat) (v : Word) (hd : d.Canon) : Dev.Canon (Dev.wrState d a v) := by
  unfold Dev.wrState
  repeat' (first
    | with_reducible assumption
    | with_reducible apply Dev.plainWrite_canon
    | with_reducible apply Dev.outForm_canon
    | with_reducible apply Dev.reform_canon
    | with_reducible apply Dev.binWrite_canon
    | with_reducible apply Dev.impCtl_canon
    | with_reducible apply Dev.estCurWrite_canon
    | with_reducible apply Dev.rotStart_canon
    | with_reducible apply Dev.gradeBegin_canon
    | with_reducible apply Dev.estPub_canon
    | with_reducible apply Dev.pubtoWrite_canon
    | with_reducible apply canon_ite
    | (extract_lets +onlyGivenNames e; refine canon_have (d := e) ?_ ?_; unfold e; rotate_left; intro; clear_value e; rotate_right)
    | (extract_lets +onlyGivenNames e; clear_value e))

theorem Dev.wrConvert_canon {d : Dev} (a : Nat) (v : Word) (hd : d.Canon) : Dev.Canon (Dev.wrConvert d a v) := by
  unfold Dev.wrConvert
  repeat' (first
    | with_reducible assumption
    | with_reducible apply Dev.plainWrite_canon
    | with_reducible apply Dev.reform_canon
    | with_reducible apply Dev.trcCtl_canon
    | with_reducible apply Dev.tinjWrite_canon
    | with_reducible apply Dev.fltClr_canon
    | with_reducible apply Dev.kick_canon
    | with_reducible apply Dev.slotWrite_canon
    | with_reducible apply Dev.perWrite_canon
    | with_reducible apply Dev.pwmCtl_canon
    | with_reducible apply Dev.blkClr_canon
    | with_reducible apply Dev.sdmCtl_canon
    | with_reducible apply Dev.ckDiv_canon
    | with_reducible apply Dev.sdmCfg_canon
    | with_reducible apply Dev.sdmCmp_canon
    | with_reducible apply Dev.sdmWarn_canon
    | with_reducible apply Dev.mbWrite_canon
    | with_reducible apply Dev.dsprefWrite_canon
    | with_reducible apply Dev.dspCtl_canon
    | with_reducible apply canon_ite
    | (extract_lets +onlyGivenNames e; refine canon_have (d := e) ?_ ?_; unfold e; rotate_left; intro; clear_value e; rotate_right)
    | (extract_lets +onlyGivenNames e; clear_value e))

theorem Dev.wrMotion_canon {d : Dev} (src : Writer) (a : Nat) (v : Word) (hd : d.Canon) : Dev.Canon (Dev.wrMotion d src a v) := by
  unfold Dev.wrMotion
  repeat' (first
    | with_reducible assumption
    | with_reducible apply Dev.plainWrite_canon
    | with_reducible apply Dev.motObjects_canon
    | with_reducible apply Dev.targetWrite_canon
    | with_reducible apply Dev.motCmd_canon
    | with_reducible apply Dev.motCfg_canon
    | with_reducible apply Dev.fanWatch_canon
    | with_reducible apply Dev.fansWatch_canon
    | with_reducible apply Dev.fanDutyWrite_canon
    | with_reducible apply Dev.fanCfgWrite_canon
    | with_reducible apply Dev.feedCfg_canon
    | with_reducible apply Dev.inCfg_canon
    | with_reducible apply Dev.tpWrite_canon
    | with_reducible apply canon_ite
    | (extract_lets +onlyGivenNames e; refine canon_have (d := e) ?_ ?_; unfold e; rotate_left; intro; clear_value e; rotate_right)
    | (extract_lets +onlyGivenNames e; clear_value e))

theorem Dev.wrCycle_canon {d : Dev} (a : Nat) (v : Word) (hd : d.Canon) : Dev.Canon (Dev.wrCycle d a v) := by
  unfold Dev.wrCycle
  repeat' (first
    | with_reducible assumption
    | with_reducible apply Dev.plainWrite_canon
    | with_reducible apply Dev.cycCtl_canon
    | with_reducible apply Dev.cycPeriod_canon
    | with_reducible apply Dev.forceWrite_canon
    | with_reducible apply Dev.twCtl_canon
    | with_reducible apply canon_ite
    | (extract_lets +onlyGivenNames e; refine canon_have (d := e) ?_ ?_; unfold e; rotate_left; intro; clear_value e; rotate_right)
    | (extract_lets +onlyGivenNames e; clear_value e))

theorem Dev.wrCan_canon {d : Dev} (x a : Nat) (v : Word) (hd : d.Canon) : Dev.Canon (Dev.wrCan d x a v) := by
  unfold Dev.wrCan
  repeat' (first
    | with_reducible assumption
    | with_reducible apply Dev.plainWrite_canon
    | with_reducible apply Dev.canCtl_canon
    | with_reducible apply Dev.canTiming_canon
    | with_reducible apply Dev.canObjWrite_canon
    | with_reducible apply Dev.canRdsel_canon
    | with_reducible apply Dev.canTxreq_canon
    | with_reducible apply Dev.canTxcanStore_canon
    | with_reducible apply canon_ite
    | (extract_lets +onlyGivenNames e; refine canon_have (d := e) ?_ ?_; unfold e; rotate_left; intro; clear_value e; rotate_right)
    | (extract_lets +onlyGivenNames e; clear_value e))

theorem Dev.wrPorts_canon {d : Dev} (a : Nat) (v : Word) (hd : d.Canon) : Dev.Canon (Dev.wrPorts d a v) := by
  unfold Dev.wrPorts
  repeat' (first
    | intro _
    | with_reducible assumption
    | with_reducible apply Dev.plainWrite_canon
    | with_reducible apply Dev.smbPush_canon
    | with_reducible apply Dev.dmaRun_canon
    | with_reducible apply Dev.dmaTailWrite_canon
    | with_reducible apply Dev.dmaBaseWrite_canon
    | with_reducible apply Dev.dmaCfgWrite_canon
    | with_reducible apply Dev.tcCtl_canon
    | with_reducible apply canon_ite
    | with_reducible apply canon_foldl
    | (extract_lets +onlyGivenNames e; refine canon_have (d := e) ?_ ?_; unfold e; rotate_left; intro; clear_value e; rotate_right)
    | (extract_lets +onlyGivenNames e; clear_value e)
    | dsimp only)

theorem Dev.wrRecord_canon {d : Dev} (a : Nat) (v : Word) (hd : d.Canon) : Dev.Canon (Dev.wrRecord d a v) := by
  unfold Dev.wrRecord
  repeat' (first
    | with_reducible assumption
    | with_reducible apply Dev.plainWrite_canon
    | with_reducible apply Dev.recCtl_canon
    | with_reducible apply Dev.recPost_canon
    | with_reducible apply Dev.nvcGo_canon
    | with_reducible apply Dev.trialConfirm_canon
    | with_reducible apply canon_ite)

theorem Dev.regWrite_canon {d : Dev} (src : Writer) (a : Nat) (v : Word) (hd : d.Canon) : Dev.Canon (Dev.regWrite d src a v) := by
  unfold Dev.regWrite
  repeat' (first
    | with_reducible assumption
    | with_reducible apply Dev.plainWrite_canon
    | with_reducible apply Dev.wrSystem_canon
    | with_reducible apply Dev.wrAng_canon
    | with_reducible apply Dev.wrTim_canon
    | with_reducible apply Dev.wrTt_canon
    | with_reducible apply Dev.wrSk_canon
    | with_reducible apply Dev.wrSweep_canon
    | with_reducible apply Dev.wrProtect_canon
    | with_reducible apply Dev.wrState_canon
    | with_reducible apply Dev.wrConvert_canon
    | with_reducible apply Dev.wrMotion_canon
    | with_reducible apply Dev.wrCycle_canon
    | with_reducible apply Dev.wrCan_canon
    | with_reducible apply Dev.wrPorts_canon
    | with_reducible apply Dev.wrRecord_canon
    | split
    | with_reducible refine canon_snd ?_ (by with_reducible assumption)
    | with_reducible refine canon_fst ?_ (by with_reducible assumption)
    | dsimp only)

theorem Dev.periphWrite_canon {d : Dev} (src : Writer) (a : Nat) (v : Word) (hd : d.Canon) : Dev.Canon (Dev.periphWrite d src a v) := by
  unfold Dev.periphWrite
  repeat' (first
    | intro _
    | with_reducible assumption
    | with_reducible apply Dev.gate_canon
    | with_reducible apply Dev.regWrite_canon
    | dsimp only)

theorem Dev.registerWrite_canon {d : Dev} (src : Writer) (a : Nat) (v : Word) (hd : d.Canon) : Dev.Canon (Dev.registerWrite d src a v) := by
  unfold Dev.registerWrite
  repeat' (first
    | with_reducible assumption
    | with_reducible apply Dev.raise_canon
    | with_reducible apply Dev.periphWrite_canon
    | with_reducible apply canon_ite
    | (extract_lets +onlyGivenNames e; refine canon_have (d := e) ?_ ?_; unfold e; rotate_left; intro; clear_value e; rotate_right)
    | (extract_lets +onlyGivenNames e; clear_value e)
    | split
    | with_reducible refine canon_snd ?_ (by with_reducible assumption)
    | with_reducible refine canon_fst ?_ (by with_reducible assumption)
    | dsimp only)

end Sys2Proof.Machine
end

