-- ==== Sys2Proof/Laws/CanonMem.lean ====
section
/-! SUPPORT. Every operation of Sys2Proof/Machine/Mem.lean keeps the canonical form. -/

set_option Elab.async false
set_option linter.all false

namespace Sys2Proof.Machine

theorem Dev.loadWords_canon {d : Dev} (a : Nat) (y0 : Nat) (hd : d.Canon) : Dev.Canon (Dev.loadWords d a y0).2 := by
  induction y0 generalizing d a with
  | zero =>
    unfold Dev.loadWords
    repeat' (first
      | with_reducible assumption
      | with_reducible apply Dev.periphRead_canon
      | with_reducible apply canon_ite
      | with_reducible apply canon_ite_snd
      | with_reducible apply canon_ite_fst
      | (extract_lets +onlyGivenNames e; refine canon_have (d := e) ?_ ?_; unfold e; rotate_left; intro; clear_value e; rotate_right)
      | (extract_lets +onlyGivenNames e; clear_value e)
      | split
      | with_reducible refine canon_snd ?_ (by with_reducible assumption)
      | with_reducible refine canon_fst ?_ (by with_reducible assumption)
      | dsimp only)
  | succ k ih =>
    unfold Dev.loadWords
    repeat' (first
      | with_reducible assumption
      | with_reducible apply Dev.periphRead_canon
      | with_reducible apply ih
      | with_reducible apply canon_ite
      | with_reducible apply canon_ite_snd
      | with_reducible apply canon_ite_fst
      | (extract_lets +onlyGivenNames e; refine canon_have (d := e) ?_ ?_; unfold e; rotate_left; intro; clear_value e; rotate_right)
      | (extract_lets +onlyGivenNames e; clear_value e)
      | split
      | with_reducible refine canon_snd ?_ (by with_reducible assumption)
      | with_reducible refine canon_fst ?_ (by with_reducible assumption)
      | dsimp only)

theorem Dev.storeWords_canon {d : Dev} (p : Pair) (a : Nat) (y0 : List Word) (hd : d.Canon) : Dev.Canon (Dev.storeWords d p a y0) := by
  induction y0 generalizing d p a with
  | nil =>
    unfold Dev.storeWords
    repeat' (first
      | with_reducible assumption
      | with_reducible apply Dev.sramStore_canon
      | with_reducible apply Dev.periphWrite_canon
      | with_reducible apply canon_ite
      | (extract_lets +onlyGivenNames e; refine canon_have (d := e) ?_ ?_; unfold e; rotate_left; intro; clear_value e; rotate_right)
      | (extract_lets +onlyGivenNames e; clear_value e)
      | split
      | with_reducible refine canon_snd ?_ (by with_reducible assumption)
      | with_reducible refine canon_fst ?_ (by with_reducible assumption))
  | cons a t ih =>
    unfold Dev.storeWords
    repeat' (first
      | with_reducible assumption
      | with_reducible apply Dev.sramStore_canon
      | with_reducible apply Dev.periphWrite_canon
      | with_reducible apply ih
      | with_reducible apply canon_ite
      | (extract_lets +onlyGivenNames e; refine canon_have (d := e) ?_ ?_; unfold e; rotate_left; intro; clear_value e; rotate_right)
      | (extract_lets +onlyGivenNames e; clear_value e)
      | split
      | with_reducible refine canon_snd ?_ (by with_reducible assumption)
      | with_reducible refine canon_fst ?_ (by with_reducible assumption))

theorem Dev.load_canon {d : Dev} (p : Pair) (n : Nat) (ra : GReg) (imm : BitVec 16) (ok : Bool) (f : Nat → CoreSt → CoreSt) (hd : d.Canon) : Dev.Canon (Dev.load d p n ra imm ok f) := by
  unfold Dev.load
  repeat' (first
    | intro _
    | with_reducible assumption
    | with_reducible apply Dev.setCore_canon
    | with_reducible apply Dev.raise_canon
    | with_reducible apply Dev.corrected_canon
    | with_reducible apply Dev.issue_canon
    | with_reducible apply Dev.dataRaise_canon
    | with_reducible apply Dev.loadWords_canon
    | with_reducible apply canon_ite
    | (extract_lets +onlyGivenNames e; refine canon_have (d := e) ?_ ?_; unfold e; rotate_left; intro; clear_value e; rotate_right)
    | (extract_lets +onlyGivenNames e; clear_value e)
    | split
    | with_reducible refine canon_snd ?_ (by with_reducible assumption)
    | with_reducible refine canon_fst ?_ (by with_reducible assumption)
    | dsimp only)

theorem Dev.store_canon {d : Dev} (p : Pair) (n : Nat) (ra : GReg) (imm : BitVec 16) (ok : Bool) (v : CoreSt → Nat) (hd : d.Canon) : Dev.Canon (Dev.store d p n ra imm ok v) := by
  unfold Dev.store
  repeat' (first
    | intro _
    | with_reducible assumption
    | with_reducible apply Dev.setCore_canon
    | with_reducible apply Dev.raise_canon
    | with_reducible apply Dev.issue_canon
    | with_reducible apply Dev.dataRaise_canon
    | with_reducible apply Dev.sramStore_canon
    | with_reducible apply Dev.storeWords_canon
    | with_reducible apply canon_ite
    | (extract_lets +onlyGivenNames e; refine canon_have (d := e) ?_ ?_; unfold e; rotate_left; intro; clear_value e; rotate_right)
    | (extract_lets +onlyGivenNames e; clear_value e)
    | split
    | with_reducible refine canon_snd ?_ (by with_reducible assumption)
    | with_reducible refine canon_fst ?_ (by with_reducible assumption)
    | dsimp only)

theorem Dev.atomic_canon {d : Dev} (p : Pair) (ra : GReg) (reads live : Bool) (f : CoreSt → Nat → Word → CoreSt × Option Word) (hd : d.Canon) : Dev.Canon (Dev.atomic d p ra reads live f) := by
  unfold Dev.atomic
  repeat' (first
    | intro _
    | with_reducible assumption
    | with_reducible apply Dev.setCore_canon
    | with_reducible apply Dev.corrected_canon
    | with_reducible apply Dev.issue_canon
    | with_reducible apply Dev.dataRaise_canon
    | with_reducible apply Dev.sramStore_canon
    | with_reducible apply canon_ite
    | (extract_lets +onlyGivenNames e; refine canon_have (d := e) ?_ ?_; unfold e; rotate_left; intro; clear_value e; rotate_right)
    | (extract_lets +onlyGivenNames e; clear_value e)
    | split
    | with_reducible refine canon_snd ?_ (by with_reducible assumption)
    | with_reducible refine canon_fst ?_ (by with_reducible assumption)
    | dsimp only)

theorem Dev.amo_canon {d : Dev} (p : Pair) (rd ra rb : GReg) (f : Word → Word → Word) (hd : d.Canon) : Dev.Canon (Dev.amo d p rd ra rb f) := by
  unfold Dev.amo
  repeat' (first
    | intro _
    | with_reducible assumption
    | with_reducible apply Dev.atomic_canon
    | dsimp only)

end Sys2Proof.Machine
end

