-- ==== Sys2Proof/Laws/CanonBlocks.lean ====
section
/-! SUPPORT. Every operation of Sys2Proof/Machine/Blocks.lean keeps the canonical form. -/

set_option Elab.async false
set_option linter.all false

namespace Sys2Proof.Machine

theorem Dev.blkTry_canon {d : Dev} (b : ParamBlock) (hd : d.Canon) : Dev.Canon (Dev.blkTry d b) := by
  unfold Dev.blkTry
  repeat' (first
    | intro _
    | with_reducible assumption
    | with_reducible apply Dev.wr_canon
    | with_reducible apply canon_foldl
    | with_reducible apply canon_foldl_fst
    | with_reducible apply canon_foldl_snd
    | dsimp only)

theorem Dev.blkApply_canon {d : Dev} (a : Nat) (v : Word) (hd : d.Canon) : Dev.Canon (Dev.blkApply d a v) := by
  unfold Dev.blkApply
  repeat' (first
    | with_reducible assumption
    | with_reducible apply Dev.regWrite_canon
    | with_reducible apply canon_ite
    | (unfold Dev.Canon; dsimp only; with_reducible refine canon_fold ?_)
    | (extract_lets +onlyGivenNames e; refine canon_have (d := e) ?_ ?_; unfold e; rotate_left; intro; clear_value e; rotate_right)
    | (extract_lets +onlyGivenNames e; clear_value e))

theorem Dev.ccorWrite_canon {d : Dev} (k : Nat) (hd : d.Canon) : Dev.Canon (Dev.ccorWrite d k) := by
  unfold Dev.ccorWrite
  repeat' (first
    | with_reducible assumption
    | with_reducible apply Dev.regWrite_canon
    | with_reducible apply canon_ite
    | (extract_lets +onlyGivenNames e; refine canon_have (d := e) ?_ ?_; unfold e; rotate_left; intro; clear_value e; rotate_right)
    | (extract_lets +onlyGivenNames e; clear_value e))

theorem Dev.scaleWrite_canon {d : Dev} (s : Nat) (hd : d.Canon) : Dev.Canon (Dev.scaleWrite d s) := by
  unfold Dev.scaleWrite
  repeat' (first
    | intro _
    | with_reducible assumption
    | with_reducible apply Dev.regWrite_canon
    | with_reducible apply canon_ite
    | (extract_lets +onlyGivenNames e; refine canon_have (d := e) ?_ ?_; unfold e; rotate_left; intro; clear_value e; rotate_right)
    | (extract_lets +onlyGivenNames e; clear_value e)
    | dsimp only)

theorem Dev.blkDerive_canon {d : Dev} (hd : d.Canon) : Dev.Canon (Dev.blkDerive d) := by
  unfold Dev.blkDerive
  repeat' (first
    | intro _
    | with_reducible assumption
    | with_reducible apply Dev.ccorWrite_canon
    | with_reducible apply Dev.scaleWrite_canon
    | with_reducible apply canon_foldl
    | (extract_lets +onlyGivenNames e; refine canon_have (d := e) ?_ ?_; unfold e; rotate_left; intro; clear_value e; rotate_right)
    | (extract_lets +onlyGivenNames e; clear_value e)
    | dsimp only)

theorem Dev.blkAll_canon {d : Dev} (hd : d.Canon) : Dev.Canon (Dev.blkAll d) := by
  unfold Dev.blkAll
  repeat' (first
    | intro _
    | with_reducible assumption
    | with_reducible apply Dev.ttBuild_canon
    | with_reducible apply Dev.blkApply_canon
    | with_reducible apply Dev.blkDerive_canon
    | with_reducible apply canon_foldl
    | with_reducible apply canon_foldl_fst
    | with_reducible apply canon_foldl_snd
    | split
    | with_reducible refine canon_snd ?_ (by with_reducible assumption)
    | with_reducible refine canon_fst ?_ (by with_reducible assumption)
    | dsimp only)

theorem Dev.shadowWrites_canon {d : Dev} (l : List (Nat × List Byte)) (hd : d.Canon) : Dev.Canon (Dev.shadowWrites d l) := by
  unfold Dev.shadowWrites
  repeat' (first
    | intro _
    | with_reducible assumption
    | with_reducible apply Dev.nvcDone_canon
    | with_reducible apply Dev.nvcCopy_canon
    | with_reducible apply Dev.mirrorParts_canon
    | with_reducible apply canon_ite
    | with_reducible apply canon_foldl
    | with_reducible apply canon_foldl_fst
    | with_reducible apply canon_foldl_snd
    | (unfold Dev.Canon; dsimp only; with_reducible refine canon_fold ?_)
    | split
    | with_reducible refine canon_snd ?_ (by with_reducible assumption)
    | with_reducible refine canon_fst ?_ (by with_reducible assumption)
    | dsimp only)

theorem Dev.shadowSave_canon {d : Dev} (hd : d.Canon) : Dev.Canon (Dev.shadowSave d) := by
  unfold Dev.shadowSave
  repeat' (first
    | intro _
    | with_reducible assumption
    | with_reducible apply Dev.shadowWrites_canon
    | (extract_lets +onlyGivenNames e; refine canon_have (d := e) ?_ ?_; unfold e; rotate_left; intro; clear_value e; rotate_right)
    | (extract_lets +onlyGivenNames e; clear_value e)
    | split
    | with_reducible refine canon_snd ?_ (by with_reducible assumption)
    | with_reducible refine canon_fst ?_ (by with_reducible assumption)
    | dsimp only)

theorem Dev.mapSave_canon {d : Dev} (hd : d.Canon) : Dev.Canon (Dev.mapSave d) := by
  unfold Dev.mapSave
  repeat' (first
    | intro _
    | with_reducible assumption
    | with_reducible apply Dev.nvcCopy_canon
    | with_reducible apply Dev.mirrorParts_canon
    | with_reducible apply canon_ite
    | (extract_lets +onlyGivenNames e; refine canon_have (d := e) ?_ ?_; unfold e; rotate_left; intro; clear_value e; rotate_right)
    | (extract_lets +onlyGivenNames e; clear_value e)
    | dsimp only)

theorem Dev.nominalSave_canon {d : Dev} (hd : d.Canon) : Dev.Canon (Dev.nominalSave d) := by
  unfold Dev.nominalSave
  repeat' (first
    | with_reducible assumption
    | with_reducible apply Dev.shadowWrites_canon)

theorem Dev.blkImages_canon {d : Dev} (b : ParamBlock) (hd : d.Canon) : Dev.Canon (Dev.blkImages d b) := by
  unfold Dev.blkImages
  repeat' (first
    | intro _
    | with_reducible assumption
    | with_reducible apply canon_foldl
    | with_reducible apply canon_foldl_fst
    | with_reducible apply canon_foldl_snd
    | (unfold Dev.Canon; dsimp only; with_reducible refine canon_fold ?_)
    | dsimp only)

theorem Dev.blkStore_canon {d : Dev} (n : Nat) (b : ParamBlock) (hd : d.Canon) : Dev.Canon (Dev.blkStore d n b) := by
  unfold Dev.blkStore
  repeat' (first
    | intro _
    | with_reducible assumption
    | with_reducible apply Dev.blkImages_canon
    | with_reducible apply canon_ite
    | with_reducible apply canon_foldl
    | with_reducible apply canon_foldl_fst
    | with_reducible apply canon_foldl_snd
    | (unfold Dev.Canon; dsimp only; with_reducible refine canon_fold ?_)
    | (extract_lets +onlyGivenNames e; refine canon_have (d := e) ?_ ?_; unfold e; rotate_left; intro; clear_value e; rotate_right)
    | (extract_lets +onlyGivenNames e; clear_value e)
    | dsimp only)

theorem Dev.blkHold_canon {d : Dev} (n : Nat) (b : ParamBlock) (hd : d.Canon) : Dev.Canon (Dev.blkHold d n b) := by
  unfold Dev.blkHold
  repeat' (first
    | with_reducible assumption
    | with_reducible apply Dev.blkImages_canon
    | (unfold Dev.Canon; dsimp only; with_reducible refine canon_fold ?_)
    | (extract_lets +onlyGivenNames e; refine canon_have (d := e) ?_ ?_; unfold e; rotate_left; intro; clear_value e; rotate_right)
    | (extract_lets +onlyGivenNames e; clear_value e))

theorem Dev.blkTake_canon {d : Dev} (n : Nat) (b : ParamBlock) (hd : d.Canon) : Dev.Canon (Dev.blkTake d n b) := by
  unfold Dev.blkTake
  repeat' (first
    | intro _
    | with_reducible assumption
    | with_reducible apply Dev.hw_canon
    | with_reducible apply Dev.ttBuild_canon
    | with_reducible apply Dev.mirrorParts_canon
    | with_reducible apply Dev.blkApply_canon
    | with_reducible apply Dev.blkDerive_canon
    | with_reducible apply Dev.shadowSave_canon
    | with_reducible apply Dev.mapSave_canon
    | with_reducible apply Dev.nominalSave_canon
    | with_reducible apply Dev.blkStore_canon
    | with_reducible apply Dev.blkHold_canon
    | with_reducible apply canon_ite
    | with_reducible apply canon_foldl
    | with_reducible apply canon_foldl_fst
    | with_reducible apply canon_foldl_snd
    | (extract_lets +onlyGivenNames e; refine canon_have (d := e) ?_ ?_; unfold e; rotate_left; intro; clear_value e; rotate_right)
    | (extract_lets +onlyGivenNames e; clear_value e)
    | dsimp only)

theorem Dev.blkWrite_canon {d : Dev} (n : Nat) (b : ParamBlock) (hd : d.Canon) : Dev.Canon (Dev.blkWrite d n b).2 := by
  unfold Dev.blkWrite
  repeat' (first
    | with_reducible assumption
    | with_reducible apply Dev.fw_canon
    | with_reducible apply Dev.blkTake_canon
    | with_reducible apply canon_ite
    | with_reducible apply canon_ite_snd
    | with_reducible apply canon_ite_fst
    | split
    | with_reducible refine canon_snd ?_ (by with_reducible assumption)
    | with_reducible refine canon_fst ?_ (by with_reducible assumption)
    | dsimp only)

end Sys2Proof.Machine
end

