-- ==== Sys2Proof/Laws/CanonFloatIsa.lean ====
section
/-! SUPPORT. Every operation of Sys2Proof/Machine/FloatIsa.lean keeps the canonical form. -/

set_option Elab.async false
set_option linter.all false

namespace Sys2Proof.Machine

theorem Dev.ff2_canon {d : Dev} (p : Pair) (rd ra rb : GReg) (f : Nat → Nat → Nat → Nat × FFlags) (hd : d.Canon) : Dev.Canon (Dev.ff2 d p rd ra rb f) := by
  unfold Dev.ff2
  repeat' (first
    | intro _
    | with_reducible assumption
    | with_reducible apply Dev.alu_canon
    | (extract_lets +onlyGivenNames e; refine canon_have (d := e) ?_ ?_; unfold e; rotate_left; intro; clear_value e; rotate_right)
    | (extract_lets +onlyGivenNames e; clear_value e)
    | split
    | with_reducible refine canon_snd ?_ (by with_reducible assumption)
    | with_reducible refine canon_fst ?_ (by with_reducible assumption)
    | dsimp only)

theorem Dev.ff1_canon {d : Dev} (p : Pair) (rd ra : GReg) (f : Nat → Nat → Nat × FFlags) (hd : d.Canon) : Dev.Canon (Dev.ff1 d p rd ra f) := by
  unfold Dev.ff1
  repeat' (first
    | intro _
    | with_reducible assumption
    | with_reducible apply Dev.alu_canon
    | (extract_lets +onlyGivenNames e; refine canon_have (d := e) ?_ ?_; unfold e; rotate_left; intro; clear_value e; rotate_right)
    | (extract_lets +onlyGivenNames e; clear_value e)
    | split
    | with_reducible refine canon_snd ?_ (by with_reducible assumption)
    | with_reducible refine canon_fst ?_ (by with_reducible assumption)
    | dsimp only)

theorem Dev.dd2_canon {d : Dev} (p : Pair) (rd ra rb : GReg) (f : Nat → Nat → Nat → Nat × FFlags) (hd : d.Canon) : Dev.Canon (Dev.dd2 d p rd ra rb f) := by
  unfold Dev.dd2
  repeat' (first
    | intro _
    | with_reducible assumption
    | with_reducible apply Dev.aluIf_canon
    | (extract_lets +onlyGivenNames e; refine canon_have (d := e) ?_ ?_; unfold e; rotate_left; intro; clear_value e; rotate_right)
    | (extract_lets +onlyGivenNames e; clear_value e)
    | split
    | with_reducible refine canon_snd ?_ (by with_reducible assumption)
    | with_reducible refine canon_fst ?_ (by with_reducible assumption)
    | dsimp only)

theorem Dev.dd1_canon {d : Dev} (p : Pair) (rd ra : GReg) (f : Nat → Nat → Nat × FFlags) (hd : d.Canon) : Dev.Canon (Dev.dd1 d p rd ra f) := by
  unfold Dev.dd1
  repeat' (first
    | intro _
    | with_reducible assumption
    | with_reducible apply Dev.aluIf_canon
    | (extract_lets +onlyGivenNames e; refine canon_have (d := e) ?_ ?_; unfold e; rotate_left; intro; clear_value e; rotate_right)
    | (extract_lets +onlyGivenNames e; clear_value e)
    | split
    | with_reducible refine canon_snd ?_ (by with_reducible assumption)
    | with_reducible refine canon_fst ?_ (by with_reducible assumption)
    | dsimp only)

theorem Dev.dcmp_canon {d : Dev} (p : Pair) (rd ra rb : GReg) (f : Nat → Nat → Nat × FFlags) (hd : d.Canon) : Dev.Canon (Dev.dcmp d p rd ra rb f) := by
  unfold Dev.dcmp
  repeat' (first
    | intro _
    | with_reducible assumption
    | with_reducible apply Dev.aluIf_canon
    | (extract_lets +onlyGivenNames e; refine canon_have (d := e) ?_ ?_; unfold e; rotate_left; intro; clear_value e; rotate_right)
    | (extract_lets +onlyGivenNames e; clear_value e)
    | split
    | with_reducible refine canon_snd ?_ (by with_reducible assumption)
    | with_reducible refine canon_fst ?_ (by with_reducible assumption)
    | dsimp only)

end Sys2Proof.Machine
end

