-- ==== Sys2Proof/Laws/CanonCycObj.lean ====
section
/-! SUPPORT. Every operation of Sys2Proof/Machine/CycObj.lean keeps the canonical form. -/

set_option Elab.async false
set_option linter.all false

namespace Sys2Proof.Machine

theorem Dev.cycOp_canon {d : Dev} (p : Pair) (f : Dev → Dev) (hd : d.Canon) (hf : ∀ x0, x0.Canon → Dev.Canon (f x0)) : Dev.Canon (Dev.cycOp d p f) := by
  unfold Dev.cycOp
  repeat' (first
    | intro _
    | with_reducible assumption
    | with_reducible apply Dev.raise_canon
    | with_reducible apply Dev.issue_canon
    | with_reducible apply hf
    | with_reducible apply canon_ite
    | dsimp only)

theorem Dev.objOp_canon {d : Dev} (p : Pair) (n : Nat) (rd ra rb : GReg) (f : List Word → Word → List Word × Word) (hd : d.Canon) : Dev.Canon (Dev.objOp d p n rd ra rb f) := by
  unfold Dev.objOp
  repeat' (first
    | intro _
    | with_reducible assumption
    | with_reducible apply Dev.setCore_canon
    | with_reducible apply Dev.corrected_canon
    | with_reducible apply Dev.dataRaise_canon
    | with_reducible apply Dev.sramStore_canon
    | with_reducible apply Dev.cycOp_canon
    | (extract_lets +onlyGivenNames e; refine canon_have (d := e) ?_ ?_; unfold e; rotate_left; intro; clear_value e; rotate_right)
    | (extract_lets +onlyGivenNames e; clear_value e)
    | split
    | with_reducible refine canon_snd ?_ (by with_reducible assumption)
    | with_reducible refine canon_fst ?_ (by with_reducible assumption)
    | dsimp only)

theorem Dev.timerOp_canon {d : Dev} (p : Pair) (rd ra rb : GReg) (ev : Nat → Bool → Timer → Timer) (hd : d.Canon) : Dev.Canon (Dev.timerOp d p rd ra rb ev) := by
  unfold Dev.timerOp
  repeat' (first
    | intro _
    | with_reducible assumption
    | with_reducible apply Dev.objOp_canon
    | dsimp only)

end Sys2Proof.Machine
end

