-- ==== Sys2Proof/Laws/CanonCommit.lean ====
section
/-! SUPPORT. Every operation of Sys2Proof/Machine/Commit.lean keeps the canonical form. -/

set_option Elab.async false
set_option linter.all false

namespace Sys2Proof.Machine

theorem Dev.callScc_canon {d : Dev} (n : Nat) (hd : d.Canon) : Dev.Canon (Dev.callScc d n) := by
  unfold Dev.callScc
  repeat' (first
    | with_reducible assumption
    | with_reducible apply Dev.openReq_canon
    | with_reducible apply Dev.sccClose_canon
    | with_reducible apply Dev.sccAck_canon
    | with_reducible apply Dev.sccCmd_canon
    | with_reducible apply canon_ite)

theorem Dev.callDo_canon {d : Dev} (c : SysCall) (hd : d.Canon) : Dev.Canon (Dev.callDo d c) := by
  unfold Dev.callDo
  repeat' (first
    | with_reducible assumption
    | with_reducible apply Dev.postBytes_canon
    | with_reducible apply Dev.release_canon
    | with_reducible apply Dev.stoAsk_canon
    | with_reducible apply Dev.transReq_canon
    | with_reducible apply Dev.callScc_canon
    | with_reducible apply canon_ite
    | (unfold Dev.Canon; dsimp only; with_reducible refine canon_fold ?_)
    | (extract_lets +onlyGivenNames e; refine canon_have (d := e) ?_ ?_; unfold e; rotate_left; intro; clear_value e; rotate_right)
    | (extract_lets +onlyGivenNames e; clear_value e))

theorem Dev.sysCall_canon {d : Dev} (num : Nat) (hd : d.Canon) : Dev.Canon (Dev.sysCall d num) := by
  unfold Dev.sysCall
  repeat' (first
    | with_reducible assumption
    | with_reducible apply canon_ite
    | (unfold Dev.Canon; dsimp only; with_reducible refine canon_fold ?_)
    | (extract_lets +onlyGivenNames e; refine canon_have (d := e) ?_ ?_; unfold e; rotate_left; intro; clear_value e; rotate_right)
    | (extract_lets +onlyGivenNames e; clear_value e))

theorem Dev.exportAll_canon {d : Dev} (p : Image) (hd : d.Canon) : Dev.Canon (Dev.exportAll d p) := by
  unfold Dev.exportAll
  repeat' (first
    | intro _
    | with_reducible assumption
    | with_reducible apply Dev.raise_canon
    | with_reducible apply Dev.periphWrite_canon
    | with_reducible apply canon_ite
    | with_reducible apply canon_foldl
    | with_reducible apply canon_foldl_fst
    | with_reducible apply canon_foldl_snd
    | (unfold Dev.Canon; dsimp only; with_reducible refine canon_fold ?_)
    | (extract_lets +onlyGivenNames e; refine canon_have (d := e) ?_ ?_; unfold e; rotate_left; intro; clear_value e; rotate_right)
    | (extract_lets +onlyGivenNames e; clear_value e)
    | split
    | with_reducible refine canon_snd ?_ (by with_reducible assumption)
    | with_reducible refine canon_fst ?_ (by with_reducible assumption)
    | dsimp only)

theorem Dev.switchBegin_canon {d : Dev} (hd : d.Canon) : Dev.Canon (Dev.switchBegin d) := by
  unfold Dev.switchBegin
  repeat' (first
    | with_reducible assumption
    | with_reducible apply Dev.setFld_canon
    | with_reducible apply Dev.start_canon
    | with_reducible apply canon_ite
    | (extract_lets +onlyGivenNames e; refine canon_have (d := e) ?_ ?_; unfold e; rotate_left; intro; clear_value e; rotate_right)
    | (extract_lets +onlyGivenNames e; clear_value e)
    | split
    | with_reducible refine canon_snd ?_ (by with_reducible assumption)
    | with_reducible refine canon_fst ?_ (by with_reducible assumption)
    | dsimp only)

theorem Dev.handDue_canon {d : Dev} (hd : d.Canon) : Dev.Canon (Dev.handDue d) := by
  unfold Dev.handDue
  repeat' (first
    | with_reducible assumption
    | with_reducible apply Dev.handGive_canon
    | with_reducible apply canon_ite
    | split
    | with_reducible refine canon_snd ?_ (by with_reducible assumption)
    | with_reducible refine canon_fst ?_ (by with_reducible assumption)
    | dsimp only)

theorem Dev.commit_canon {d : Dev} (hd : d.Canon) : Dev.Canon (Dev.commit d) := by
  unfold Dev.commit
  repeat' (first
    | intro _
    | with_reducible assumption
    | with_reducible apply Dev.wr_canon
    | with_reducible apply Dev.callDo_canon
    | with_reducible apply Dev.exportAll_canon
    | with_reducible apply Dev.switchBegin_canon
    | with_reducible apply Dev.handDue_canon
    | with_reducible apply canon_ite
    | with_reducible apply canon_foldl
    | (unfold Dev.Canon; dsimp only; with_reducible refine canon_fold ?_)
    | (extract_lets +onlyGivenNames e; refine canon_have (d := e) ?_ ?_; unfold e; rotate_left; intro; clear_value e; rotate_right)
    | (extract_lets +onlyGivenNames e; clear_value e)
    | split
    | with_reducible refine canon_snd ?_ (by with_reducible assumption)
    | with_reducible refine canon_fst ?_ (by with_reducible assumption)
    | dsimp only)

theorem Dev.shadeJudge_canon {d : Dev} (hd : d.Canon) : Dev.Canon (Dev.shadeJudge d) := by
  unfold Dev.shadeJudge
  repeat' (first
    | with_reducible assumption
    | with_reducible apply Dev.flag_canon
    | with_reducible apply Dev.send_canon
    | with_reducible apply Dev.shadeDrop_canon
    | with_reducible apply Dev.commit_canon
    | with_reducible apply canon_ite
    | (unfold Dev.Canon; dsimp only; with_reducible refine canon_fold ?_)
    | (extract_lets +onlyGivenNames e; refine canon_have (d := e) ?_ ?_; unfold e; rotate_left; intro; clear_value e; rotate_right)
    | (extract_lets +onlyGivenNames e; clear_value e)
    | split
    | with_reducible refine canon_snd ?_ (by with_reducible assumption)
    | with_reducible refine canon_fst ?_ (by with_reducible assumption)
    | dsimp only)

theorem Dev.execTime_canon {d : Dev} (hd : d.Canon) : Dev.Canon (Dev.execTime d) := by
  unfold Dev.execTime
  repeat' (first
    | with_reducible assumption
    | with_reducible apply Dev.wr_canon
    | (extract_lets +onlyGivenNames e; refine canon_have (d := e) ?_ ?_; unfold e; rotate_left; intro; clear_value e; rotate_right)
    | (extract_lets +onlyGivenNames e; clear_value e))

theorem Dev.liveReport_canon {d : Dev} (hd : d.Canon) : Dev.Canon (Dev.liveReport d) := by
  unfold Dev.liveReport
  repeat' (first
    | with_reducible assumption
    | with_reducible apply Dev.wr_canon
    | with_reducible apply Dev.flag_canon
    | with_reducible apply Dev.satInc_canon
    | with_reducible apply Dev.hw_canon
    | with_reducible apply canon_ite
    | (unfold Dev.Canon; dsimp only; with_reducible refine canon_fold ?_)
    | (extract_lets +onlyGivenNames e; refine canon_have (d := e) ?_ ?_; unfold e; rotate_left; intro; clear_value e; rotate_right)
    | (extract_lets +onlyGivenNames e; clear_value e))

theorem Dev.cycleEnd_canon {d : Dev} (hd : d.Canon) : Dev.Canon (Dev.cycleEnd d) := by
  unfold Dev.cycleEnd
  repeat' (first
    | with_reducible assumption
    | with_reducible apply Dev.wr_canon
    | with_reducible apply Dev.setBit_canon
    | with_reducible apply Dev.start_canon
    | with_reducible apply Dev.send_canon
    | with_reducible apply Dev.hw_canon
    | with_reducible apply Dev.progFault_canon
    | with_reducible apply Dev.outputForces_canon
    | with_reducible apply Dev.commit_canon
    | with_reducible apply Dev.shadeJudge_canon
    | with_reducible apply Dev.execTime_canon
    | with_reducible apply Dev.liveReport_canon
    | with_reducible apply canon_ite
    | (unfold Dev.Canon; dsimp only; with_reducible refine canon_fold ?_)
    | (extract_lets +onlyGivenNames e; refine canon_have (d := e) ?_ ?_; unfold e; rotate_left; intro; clear_value e; rotate_right)
    | (extract_lets +onlyGivenNames e; clear_value e)
    | split
    | with_reducible refine canon_snd ?_ (by with_reducible assumption)
    | with_reducible refine canon_fst ?_ (by with_reducible assumption)
    | dsimp only)

theorem Dev.presetNew_canon {d : Dev} (p : Image) (y : Symbol) (hd : d.Canon) : Dev.Canon (Dev.presetNew d p y) := by
  unfold Dev.presetNew
  repeat' (first
    | with_reducible assumption
    | with_reducible apply Dev.agentStore_canon
    | with_reducible apply canon_ite)

theorem Dev.forceDrop_canon {d : Dev} (n : Nat) (hd : d.Canon) : Dev.Canon (Dev.forceDrop d n) := by
  unfold Dev.forceDrop
  repeat' (first
    | with_reducible assumption
    | with_reducible apply Dev.wr_canon
    | with_reducible apply Dev.fw_canon
    | with_reducible apply canon_ite
    | (extract_lets +onlyGivenNames e; refine canon_have (d := e) ?_ ?_; unfold e; rotate_left; intro; clear_value e; rotate_right)
    | (extract_lets +onlyGivenNames e; clear_value e))

theorem Dev.forceMove_canon {d : Dev} (old new : Image) (n : Nat) (hd : d.Canon) : Dev.Canon (Dev.forceMove d old new n) := by
  unfold Dev.forceMove
  repeat' (first
    | intro _
    | with_reducible assumption
    | with_reducible apply Dev.wr_canon
    | with_reducible apply Dev.forceDrop_canon
    | with_reducible apply canon_ite
    | (extract_lets +onlyGivenNames e; refine canon_have (d := e) ?_ ?_; unfold e; rotate_left; intro; clear_value e; rotate_right)
    | (extract_lets +onlyGivenNames e; clear_value e)
    | split
    | with_reducible refine canon_snd ?_ (by with_reducible assumption)
    | with_reducible refine canon_fst ?_ (by with_reducible assumption)
    | dsimp only)

theorem Dev.switchRun_canon {d : Dev} (hd : d.Canon) : Dev.Canon (Dev.switchRun d) := by
  unfold Dev.switchRun
  repeat' (first
    | intro _
    | with_reducible assumption
    | with_reducible apply Dev.setFld_canon
    | with_reducible apply Dev.stop_canon
    | with_reducible apply Dev.fw_canon
    | with_reducible apply Dev.setCore_canon
    | with_reducible apply Dev.agentStore_canon
    | with_reducible apply Dev.zeroMem_canon
    | with_reducible apply Dev.copyMem_canon
    | with_reducible apply Dev.forceShow_canon
    | with_reducible apply Dev.slotSave_canon
    | with_reducible apply Dev.presetNew_canon
    | with_reducible apply Dev.forceMove_canon
    | with_reducible apply canon_ite
    | with_reducible apply canon_foldl
    | with_reducible apply canon_foldl_fst
    | with_reducible apply canon_foldl_snd
    | (unfold Dev.Canon; dsimp only; with_reducible refine canon_fold ?_)
    | (extract_lets +onlyGivenNames e; refine canon_have (d := e) ?_ ?_; unfold e; rotate_left; intro; clear_value e; rotate_right)
    | (extract_lets +onlyGivenNames e; clear_value e)
    | split
    | with_reducible refine canon_snd ?_ (by with_reducible assumption)
    | with_reducible refine canon_fst ?_ (by with_reducible assumption)
    | dsimp only)

end Sys2Proof.Machine
end

