-- ==== Sys2Proof/Laws/CanonCycle.lean ====
section
/-! SUPPORT. Every operation of Sys2Proof/Machine/Cycle.lean keeps the canonical form. -/

set_option Elab.async false
set_option linter.all false

namespace Sys2Proof.Machine

theorem Dev.heldTake_canon {d : Dev} (hd : d.Canon) : Dev.Canon (Dev.heldTake d) := by
  unfold Dev.heldTake
  repeat' (first
    | intro _
    | with_reducible assumption
    | with_reducible apply Dev.blkStore_canon
    | with_reducible apply canon_ite
    | with_reducible apply canon_foldl
    | with_reducible apply canon_foldl_fst
    | with_reducible apply canon_foldl_snd
    | split
    | with_reducible refine canon_snd ?_ (by with_reducible assumption)
    | with_reducible refine canon_fst ?_ (by with_reducible assumption)
    | dsimp only)

theorem Dev.resumeBlocks_canon {d : Dev} (hd : d.Canon) : Dev.Canon (Dev.resumeBlocks d) := by
  unfold Dev.resumeBlocks
  repeat' (first
    | intro _
    | with_reducible assumption
    | with_reducible apply Dev.ttBuild_canon
    | with_reducible apply Dev.balCtl_canon
    | with_reducible apply Dev.estResume_canon
    | with_reducible apply Dev.blkApply_canon
    | with_reducible apply Dev.blkDerive_canon
    | with_reducible apply Dev.mapSave_canon
    | with_reducible apply Dev.heldTake_canon
    | with_reducible apply canon_ite
    | with_reducible apply canon_foldl
    | with_reducible apply canon_foldl_fst
    | with_reducible apply canon_foldl_snd
    | (unfold Dev.Canon; dsimp only; with_reducible refine canon_fold ?_)
    | (extract_lets +onlyGivenNames e; refine canon_have (d := e) ?_ ?_; unfold e; rotate_left; intro; clear_value e; rotate_right)
    | (extract_lets +onlyGivenNames e; clear_value e)
    | split
    | with_reducible refine canon_snd ?_ (by with_reducible assumption)
    | with_reducible refine canon_fst ?_ (by with_reducible assumption)
    | dsimp only)

theorem Dev.cycleAccept_canon {d : Dev} (hd : d.Canon) : Dev.Canon (Dev.cycleAccept d) := by
  unfold Dev.cycleAccept
  repeat' (first
    | with_reducible assumption
    | with_reducible apply Dev.wr_canon
    | with_reducible apply Dev.start_canon
    | with_reducible apply Dev.cycleCount_canon
    | with_reducible apply Dev.resumeBlocks_canon
    | (unfold Dev.Canon; dsimp only; with_reducible refine canon_fold ?_)
    | (extract_lets +onlyGivenNames e; refine canon_have (d := e) ?_ ?_; unfold e; rotate_left; intro; clear_value e; rotate_right)
    | (extract_lets +onlyGivenNames e; clear_value e))

theorem Dev.cycleStart_canon {d : Dev} (hd : d.Canon) : Dev.Canon (Dev.cycleStart d) := by
  unfold Dev.cycleStart
  repeat' (first
    | with_reducible assumption
    | with_reducible apply Dev.satInc_canon
    | with_reducible apply Dev.start_canon
    | with_reducible apply Dev.cycleMissed_canon
    | with_reducible apply Dev.cycleAccept_canon
    | with_reducible apply canon_ite)

theorem Dev.periodStart_canon {d : Dev} (hd : d.Canon) : Dev.Canon (Dev.periodStart d) := by
  unfold Dev.periodStart
  repeat' (first
    | with_reducible assumption
    | with_reducible apply Dev.cycleStart_canon
    | with_reducible apply canon_ite
    | (extract_lets +onlyGivenNames e; refine canon_have (d := e) ?_ ?_; unfold e; rotate_left; intro; clear_value e; rotate_right)
    | (extract_lets +onlyGivenNames e; clear_value e))

theorem Dev.strobeFire_canon {d : Dev} (desc : Nat) (temp : Bool) (j : Nat) (hd : d.Canon) : Dev.Canon (Dev.strobeFire d desc temp j) := by
  unfold Dev.strobeFire
  repeat' (first
    | with_reducible assumption
    | with_reducible apply Dev.strobeAction_canon
    | with_reducible apply Dev.mbApply_canon
    | with_reducible apply canon_ite
    | (extract_lets +onlyGivenNames e; refine canon_have (d := e) ?_ ?_; unfold e; rotate_left; intro; clear_value e; rotate_right)
    | (extract_lets +onlyGivenNames e; clear_value e))

theorem Dev.ttAction_canon {d : Dev} (code arg j : Nat) (hd : d.Canon) : Dev.Canon (Dev.ttAction d code arg j) := by
  unfold Dev.ttAction
  repeat' (first
    | with_reducible assumption
    | with_reducible apply Dev.setEvent_canon
    | with_reducible apply Dev.injStart_canon
    | with_reducible apply Dev.snapshot_canon
    | with_reducible apply Dev.mbApply_canon
    | with_reducible apply Dev.cycleStart_canon
    | with_reducible apply Dev.strobeFire_canon
    | with_reducible apply canon_ite
    | split
    | with_reducible refine canon_snd ?_ (by with_reducible assumption)
    | with_reducible refine canon_fst ?_ (by with_reducible assumption)
    | dsimp only)

theorem Dev.ttWindows_canon {d : Dev} (l : List (Nat × Nat × Nat)) (hd : d.Canon) : Dev.Canon (Dev.ttWindows d l) := by
  unfold Dev.ttWindows
  repeat' (first
    | intro _
    | with_reducible assumption
    | with_reducible apply Dev.setBit_canon
    | with_reducible apply Dev.start_canon
    | with_reducible apply Dev.stop_canon
    | with_reducible apply canon_ite
    | with_reducible apply canon_foldl
    | with_reducible apply canon_foldl_fst
    | with_reducible apply canon_foldl_snd
    | split
    | with_reducible refine canon_snd ?_ (by with_reducible assumption)
    | with_reducible refine canon_fst ?_ (by with_reducible assumption)
    | dsimp only)

theorem Dev.ttLast_canon {d : Dev} (l : List (Nat × Nat × Nat)) (hd : d.Canon) : Dev.Canon (Dev.ttLast d l) := by
  unfold Dev.ttLast
  repeat' (first
    | with_reducible assumption
    | with_reducible apply Dev.wr_canon
    | split
    | with_reducible refine canon_snd ?_ (by with_reducible assumption)
    | with_reducible refine canon_fst ?_ (by with_reducible assumption)
    | dsimp only)

theorem Dev.ttMatch_canon {d : Dev} (hd : d.Canon) : Dev.Canon (Dev.ttMatch d) := by
  unfold Dev.ttMatch
  repeat' (first
    | intro _
    | with_reducible assumption
    | with_reducible apply Dev.flag_canon
    | with_reducible apply Dev.idleBegin_canon
    | with_reducible apply Dev.ttAction_canon
    | with_reducible apply Dev.ttWindows_canon
    | with_reducible apply Dev.ttLast_canon
    | with_reducible apply canon_ite
    | with_reducible apply canon_foldl
    | with_reducible apply canon_foldl_fst
    | with_reducible apply canon_foldl_snd
    | (unfold Dev.Canon; dsimp only; with_reducible refine canon_fold ?_)
    | (extract_lets +onlyGivenNames e; refine canon_have (d := e) ?_ ?_; unfold e; rotate_left; intro; clear_value e; rotate_right)
    | (extract_lets +onlyGivenNames e; clear_value e)
    | dsimp only)

end Sys2Proof.Machine
end

