-- ==== Sys2Proof/Laws/CanonShade.lean ====
section
/-! SUPPORT. Every operation of Sys2Proof/Machine/Shade.lean keeps the canonical form. -/

set_option Elab.async false
set_option linter.all false

namespace Sys2Proof.Machine

theorem Dev.pingSend_canon {d : Dev} (hd : d.Canon) : Dev.Canon (Dev.pingSend d) := by
  unfold Dev.pingSend
  repeat' (first
    | with_reducible assumption
    | with_reducible apply Dev.start_canon
    | with_reducible apply Dev.send_canon
    | with_reducible apply canon_ite)

theorem Dev.twLinkUp_canon {d : Dev} (hd : d.Canon) : Dev.Canon (Dev.twLinkUp d) := by
  unfold Dev.twLinkUp
  repeat' (first
    | with_reducible assumption
    | with_reducible apply Dev.setBit_canon
    | with_reducible apply Dev.hw_canon
    | with_reducible apply Dev.pingSend_canon
    | with_reducible apply canon_ite)

theorem Dev.twLos_canon {d : Dev} (hd : d.Canon) : Dev.Canon (Dev.twLos d) := by
  unfold Dev.twLos
  repeat' (first
    | with_reducible assumption
    | with_reducible apply Dev.setFld_canon
    | with_reducible apply Dev.setBit_canon
    | with_reducible apply Dev.hw_canon
    | with_reducible apply canon_ite
    | (unfold Dev.Canon; dsimp only; with_reducible refine canon_fold ?_)
    | (extract_lets +onlyGivenNames e; refine canon_have (d := e) ?_ ?_; unfold e; rotate_left; intro; clear_value e; rotate_right)
    | (extract_lets +onlyGivenNames e; clear_value e))

theorem Dev.pong_canon {d : Dev} (rtt : Nat) (hd : d.Canon) : Dev.Canon (Dev.pong d rtt) := by
  unfold Dev.pong
  repeat' (first
    | with_reducible assumption
    | with_reducible apply Dev.wr_canon
    | with_reducible apply canon_ite
    | (extract_lets +onlyGivenNames e; refine canon_have (d := e) ?_ ?_; unfold e; rotate_left; intro; clear_value e; rotate_right)
    | (extract_lets +onlyGivenNames e; clear_value e))

theorem Dev.twBad_canon {d : Dev} (hd : d.Canon) : Dev.Canon (Dev.twBad d) := by
  unfold Dev.twBad
  repeat' (first
    | with_reducible assumption
    | with_reducible apply Dev.flag_canon)

theorem Dev.hbSend_canon {d : Dev} (hd : d.Canon) : Dev.Canon (Dev.hbSend d) := by
  unfold Dev.hbSend
  repeat' (first
    | with_reducible assumption
    | with_reducible apply Dev.start_canon
    | with_reducible apply Dev.send_canon
    | with_reducible apply canon_ite
    | (unfold Dev.Canon; dsimp only; with_reducible refine canon_fold ?_)
    | (extract_lets +onlyGivenNames e; refine canon_have (d := e) ?_ ?_; unfold e; rotate_left; intro; clear_value e; rotate_right)
    | (extract_lets +onlyGivenNames e; clear_value e))

theorem Dev.hbMiss_canon {d : Dev} (hd : d.Canon) : Dev.Canon (Dev.hbMiss d) := by
  unfold Dev.hbMiss
  repeat' (first
    | with_reducible assumption
    | with_reducible apply Dev.setBit_canon
    | with_reducible apply Dev.flag_canon
    | with_reducible apply Dev.satInc_canon
    | with_reducible apply Dev.hw_canon
    | with_reducible apply canon_ite
    | (unfold Dev.Canon; dsimp only; with_reducible refine canon_fold ?_)
    | (extract_lets +onlyGivenNames e; refine canon_have (d := e) ?_ ?_; unfold e; rotate_left; intro; clear_value e; rotate_right)
    | (extract_lets +onlyGivenNames e; clear_value e)
    | split
    | with_reducible refine canon_snd ?_ (by with_reducible assumption)
    | with_reducible refine canon_fst ?_ (by with_reducible assumption)
    | dsimp only)

theorem Dev.hbFollow_canon {d : Dev} (h : Heart) (hd : d.Canon) : Dev.Canon (Dev.hbFollow d h) := by
  unfold Dev.hbFollow
  repeat' (first
    | with_reducible assumption
    | with_reducible apply Dev.wr_canon
    | with_reducible apply Dev.pllUpdate_canon
    | with_reducible apply Dev.servoTim_canon
    | (extract_lets +onlyGivenNames e; refine canon_have (d := e) ?_ ?_; unfold e; rotate_left; intro; clear_value e; rotate_right)
    | (extract_lets +onlyGivenNames e; clear_value e))

theorem Dev.rsMismatch_canon {d : Dev} (n : Nat) (hd : d.Canon) : Dev.Canon (Dev.rsMismatch d n) := by
  unfold Dev.rsMismatch
  repeat' (first
    | intro _
    | with_reducible assumption
    | with_reducible apply Dev.flag_canon
    | with_reducible apply Dev.hw_canon
    | with_reducible apply canon_ite
    | with_reducible apply canon_foldl
    | dsimp only)

theorem Dev.rsSent_canon {d : Dev} (n : Nat) (hd : d.Canon) : Dev.Canon (Dev.rsSent d n) := by
  unfold Dev.rsSent
  repeat' (first
    | with_reducible assumption
    | with_reducible apply Dev.setFld_canon
    | (unfold Dev.Canon; dsimp only; with_reducible refine canon_fold ?_)
    | (extract_lets +onlyGivenNames e; refine canon_have (d := e) ?_ ?_; unfold e; rotate_left; intro; clear_value e; rotate_right)
    | (extract_lets +onlyGivenNames e; clear_value e))

theorem Dev.joinSection_canon {d : Dev} (sec off : Nat) (y0 : Nat) (y1 : List Byte) (hd : d.Canon) : Dev.Canon (Dev.joinSection d sec off y0 y1) := by
  induction y0 generalizing d sec off y1 with
  | zero =>
    unfold Dev.joinSection
    repeat' (first
      | with_reducible assumption
      | with_reducible apply Dev.send_canon
      | with_reducible apply Dev.take_canon
      | with_reducible apply Dev.rsSent_canon
      | with_reducible apply canon_ite
      | (extract_lets +onlyGivenNames e; refine canon_have (d := e) ?_ ?_; unfold e; rotate_left; intro; clear_value e; rotate_right)
      | (extract_lets +onlyGivenNames e; clear_value e)
      | split
      | with_reducible refine canon_snd ?_ (by with_reducible assumption)
      | with_reducible refine canon_fst ?_ (by with_reducible assumption))
  | succ k ih =>
    unfold Dev.joinSection
    repeat' (first
      | with_reducible assumption
      | with_reducible apply Dev.send_canon
      | with_reducible apply Dev.take_canon
      | with_reducible apply Dev.rsSent_canon
      | with_reducible apply ih
      | with_reducible apply canon_ite
      | (extract_lets +onlyGivenNames e; refine canon_have (d := e) ?_ ?_; unfold e; rotate_left; intro; clear_value e; rotate_right)
      | (extract_lets +onlyGivenNames e; clear_value e)
      | split
      | with_reducible refine canon_snd ?_ (by with_reducible assumption)
      | with_reducible refine canon_fst ?_ (by with_reducible assumption))

theorem Dev.joinMemory_canon {d : Dev} (a n : Nat) (hd : d.Canon) : Dev.Canon (Dev.joinMemory d a n) := by
  unfold Dev.joinMemory
  repeat' (first
    | with_reducible assumption
    | with_reducible apply Dev.send_canon
    | with_reducible apply Dev.rsSent_canon)

theorem Dev.joinCue_canon {d : Dev} (kind : Nat) (hd : d.Canon) : Dev.Canon (Dev.joinCue d kind) := by
  unfold Dev.joinCue
  repeat' (first
    | with_reducible assumption
    | with_reducible apply Dev.send_canon)

theorem Dev.joinFirst_canon {d : Dev} (hd : d.Canon) : Dev.Canon (Dev.joinFirst d) := by
  unfold Dev.joinFirst
  repeat' (first
    | intro _
    | with_reducible assumption
    | with_reducible apply Dev.joinSection_canon
    | with_reducible apply canon_ite
    | with_reducible apply canon_foldl
    | (extract_lets +onlyGivenNames e; refine canon_have (d := e) ?_ ?_; unfold e; rotate_left; intro; clear_value e; rotate_right)
    | (extract_lets +onlyGivenNames e; clear_value e)
    | split
    | with_reducible refine canon_snd ?_ (by with_reducible assumption)
    | with_reducible refine canon_fst ?_ (by with_reducible assumption)
    | dsimp only)

theorem Dev.joinEst_canon {d : Dev} (hd : d.Canon) : Dev.Canon (Dev.joinEst d) := by
  unfold Dev.joinEst
  repeat' (first
    | intro _
    | with_reducible assumption
    | with_reducible apply Dev.joinSection_canon
    | (extract_lets +onlyGivenNames e; refine canon_have (d := e) ?_ ?_; unfold e; rotate_left; intro; clear_value e; rotate_right)
    | (extract_lets +onlyGivenNames e; clear_value e)
    | dsimp only)

theorem Dev.joinImage_canon {d : Dev} (hd : d.Canon) : Dev.Canon (Dev.joinImage d) := by
  unfold Dev.joinImage
  repeat' (first
    | intro _
    | with_reducible assumption
    | with_reducible apply Dev.joinMemory_canon
    | with_reducible apply canon_foldl
    | (extract_lets +onlyGivenNames e; refine canon_have (d := e) ?_ ?_; unfold e; rotate_left; intro; clear_value e; rotate_right)
    | (extract_lets +onlyGivenNames e; clear_value e)
    | dsimp only)

theorem Dev.joinData_canon {d : Dev} (hd : d.Canon) : Dev.Canon (Dev.joinData d) := by
  unfold Dev.joinData
  repeat' (first
    | intro _
    | with_reducible assumption
    | with_reducible apply Dev.joinMemory_canon
    | with_reducible apply canon_foldl
    | (extract_lets +onlyGivenNames e; refine canon_have (d := e) ?_ ?_; unfold e; rotate_left; intro; clear_value e; rotate_right)
    | (extract_lets +onlyGivenNames e; clear_value e)
    | split
    | with_reducible refine canon_snd ?_ (by with_reducible assumption)
    | with_reducible refine canon_fst ?_ (by with_reducible assumption)
    | dsimp only)

theorem Dev.rsSet_canon {d : Dev} (n : Nat) (hd : d.Canon) : Dev.Canon (Dev.rsSet d n) := by
  unfold Dev.rsSet
  repeat' (first
    | with_reducible assumption
    | with_reducible apply Dev.setFld_canon
    | (unfold Dev.Canon; dsimp only; with_reducible refine canon_fold ?_)
    | (extract_lets +onlyGivenNames e; refine canon_have (d := e) ?_ ?_; unfold e; rotate_left; intro; clear_value e; rotate_right)
    | (extract_lets +onlyGivenNames e; clear_value e))

theorem Dev.joinAlign_canon {d : Dev} (hd : d.Canon) : Dev.Canon (Dev.joinAlign d) := by
  unfold Dev.joinAlign
  repeat' (first
    | intro _
    | with_reducible assumption
    | with_reducible apply Dev.send_canon
    | with_reducible apply Dev.sdmSync_canon
    | with_reducible apply Dev.joinCue_canon
    | (extract_lets +onlyGivenNames e; refine canon_have (d := e) ?_ ?_; unfold e; rotate_left; intro; clear_value e; rotate_right)
    | (extract_lets +onlyGivenNames e; clear_value e)
    | dsimp only)

theorem Dev.rsBegin_canon {d : Dev} (h : Heart) (hd : d.Canon) : Dev.Canon (Dev.rsBegin d h) := by
  unfold Dev.rsBegin
  repeat' (first
    | with_reducible assumption
    | with_reducible apply Dev.wr_canon
    | with_reducible apply Dev.start_canon
    | with_reducible apply Dev.send_canon
    | with_reducible apply Dev.hw_canon
    | with_reducible apply Dev.rsMismatch_canon
    | with_reducible apply Dev.joinFirst_canon
    | with_reducible apply Dev.joinEst_canon
    | with_reducible apply Dev.joinImage_canon
    | with_reducible apply Dev.joinData_canon
    | with_reducible apply Dev.rsSet_canon
    | with_reducible apply Dev.joinAlign_canon
    | with_reducible apply canon_ite
    | (unfold Dev.Canon; dsimp only; with_reducible refine canon_fold ?_)
    | (extract_lets +onlyGivenNames e; refine canon_have (d := e) ?_ ?_; unfold e; rotate_left; intro; clear_value e; rotate_right)
    | (extract_lets +onlyGivenNames e; clear_value e)
    | split
    | with_reducible refine canon_snd ?_ (by with_reducible assumption)
    | with_reducible refine canon_fst ?_ (by with_reducible assumption)
    | dsimp only)

theorem Dev.rsDone_canon {d : Dev} (mode : Nat) (hd : d.Canon) : Dev.Canon (Dev.rsDone d mode) := by
  unfold Dev.rsDone
  repeat' (first
    | with_reducible assumption
    | with_reducible apply Dev.stop_canon
    | with_reducible apply Dev.hw_canon
    | with_reducible apply Dev.setKillOut_canon
    | with_reducible apply Dev.rsSet_canon
    | with_reducible apply canon_ite
    | (unfold Dev.Canon; dsimp only; with_reducible refine canon_fold ?_)
    | (extract_lets +onlyGivenNames e; refine canon_have (d := e) ?_ ?_; unfold e; rotate_left; intro; clear_value e; rotate_right)
    | (extract_lets +onlyGivenNames e; clear_value e))

theorem Dev.rsRound_canon {d : Dev} (hd : d.Canon) : Dev.Canon (Dev.rsRound d) := by
  unfold Dev.rsRound
  repeat' (first
    | intro _
    | with_reducible assumption
    | with_reducible apply Dev.satInc_canon
    | with_reducible apply Dev.send_canon
    | with_reducible apply Dev.rsSent_canon
    | with_reducible apply Dev.joinMemory_canon
    | with_reducible apply Dev.rsSet_canon
    | with_reducible apply canon_ite
    | with_reducible apply canon_foldl
    | (unfold Dev.Canon; dsimp only; with_reducible refine canon_fold ?_)
    | (extract_lets +onlyGivenNames e; refine canon_have (d := e) ?_ ?_; unfold e; rotate_left; intro; clear_value e; rotate_right)
    | (extract_lets +onlyGivenNames e; clear_value e)
    | split
    | with_reducible refine canon_snd ?_ (by with_reducible assumption)
    | with_reducible refine canon_fst ?_ (by with_reducible assumption)
    | dsimp only)

theorem Dev.rsTimeout_canon {d : Dev} (hd : d.Canon) : Dev.Canon (Dev.rsTimeout d) := by
  unfold Dev.rsTimeout
  repeat' (first
    | with_reducible assumption
    | with_reducible apply Dev.start_canon
    | with_reducible apply Dev.stop_canon
    | with_reducible apply Dev.hw_canon
    | with_reducible apply Dev.rsSet_canon
    | with_reducible apply canon_ite
    | (unfold Dev.Canon; dsimp only; with_reducible refine canon_fold ?_)
    | (extract_lets +onlyGivenNames e; refine canon_have (d := e) ?_ ?_; unfold e; rotate_left; intro; clear_value e; rotate_right)
    | (extract_lets +onlyGivenNames e; clear_value e))

theorem Dev.hbJoining_canon {d : Dev} (h : Heart) (hd : d.Canon) : Dev.Canon (Dev.hbJoining d h) := by
  unfold Dev.hbJoining
  repeat' (first
    | with_reducible assumption
    | with_reducible apply Dev.wr_canon
    | with_reducible apply Dev.start_canon
    | with_reducible apply Dev.hw_canon
    | with_reducible apply Dev.eligRefresh_canon
    | with_reducible apply Dev.epochSave_canon
    | with_reducible apply Dev.rsMismatch_canon
    | with_reducible apply Dev.rsSet_canon
    | with_reducible apply canon_ite
    | (unfold Dev.Canon; dsimp only; with_reducible refine canon_fold ?_)
    | (extract_lets +onlyGivenNames e; refine canon_have (d := e) ?_ ?_; unfold e; rotate_left; intro; clear_value e; rotate_right)
    | (extract_lets +onlyGivenNames e; clear_value e)
    | split
    | with_reducible refine canon_snd ?_ (by with_reducible assumption)
    | with_reducible refine canon_fst ?_ (by with_reducible assumption)
    | dsimp only)

theorem Dev.hbDuty_canon {d : Dev} (h : Heart) (hd : d.Canon) : Dev.Canon (Dev.hbDuty d h) := by
  unfold Dev.hbDuty
  repeat' (first
    | with_reducible assumption
    | with_reducible apply Dev.depose_canon
    | with_reducible apply Dev.rsBegin_canon
    | with_reducible apply Dev.rsDone_canon
    | with_reducible apply canon_ite
    | (extract_lets +onlyGivenNames e; refine canon_have (d := e) ?_ ?_; unfold e; rotate_left; intro; clear_value e; rotate_right)
    | (extract_lets +onlyGivenNames e; clear_value e))

theorem Dev.heartbeat_canon {d : Dev} (h : Heart) (b4 b5 : Nat) (hd : d.Canon) : Dev.Canon (Dev.heartbeat d h b4 b5) := by
  unfold Dev.heartbeat
  repeat' (first
    | with_reducible assumption
    | with_reducible apply Dev.wr_canon
    | with_reducible apply Dev.setFld_canon
    | with_reducible apply Dev.setBit_canon
    | with_reducible apply Dev.start_canon
    | with_reducible apply Dev.epochHigh_canon
    | with_reducible apply Dev.hbFollow_canon
    | with_reducible apply Dev.hbJoining_canon
    | with_reducible apply Dev.hbDuty_canon
    | with_reducible apply canon_ite
    | (unfold Dev.Canon; dsimp only; with_reducible refine canon_fold ?_)
    | (extract_lets +onlyGivenNames e; refine canon_have (d := e) ?_ ?_; unfold e; rotate_left; intro; clear_value e; rotate_right)
    | (extract_lets +onlyGivenNames e; clear_value e))

theorem Dev.imgAck_canon {d : Dev} (cycle status : Nat) (hd : d.Canon) : Dev.Canon (Dev.imgAck d cycle status) := by
  unfold Dev.imgAck
  repeat' (first
    | with_reducible assumption
    | with_reducible apply Dev.send_canon)

theorem Dev.imageTake_canon {d : Dev} (crcOk : Bool) (cycle : Nat) (l : List Byte) (fs : List Force) (hd : d.Canon) : Dev.Canon (Dev.imageTake d crcOk cycle l fs) := by
  unfold Dev.imageTake
  repeat' (first
    | with_reducible assumption
    | with_reducible apply Dev.wr_canon
    | with_reducible apply Dev.setFld_canon
    | with_reducible apply Dev.start_canon
    | with_reducible apply Dev.stop_canon
    | with_reducible apply Dev.inputForces_canon
    | with_reducible apply Dev.imageStore_canon
    | with_reducible apply Dev.execBegin_canon
    | with_reducible apply Dev.resumeBlocks_canon
    | with_reducible apply Dev.twBad_canon
    | with_reducible apply Dev.imgAck_canon
    | with_reducible apply canon_ite
    | (unfold Dev.Canon; dsimp only; with_reducible refine canon_fold ?_)
    | (extract_lets +onlyGivenNames e; refine canon_have (d := e) ?_ ?_; unfold e; rotate_left; intro; clear_value e; rotate_right)
    | (extract_lets +onlyGivenNames e; clear_value e)
    | split
    | with_reducible refine canon_snd ?_ (by with_reducible assumption)
    | with_reducible refine canon_fst ?_ (by with_reducible assumption)
    | dsimp only)

theorem Dev.imgAckTake_canon {d : Dev} (cycle status : Nat) (hd : d.Canon) : Dev.Canon (Dev.imgAckTake d cycle status) := by
  unfold Dev.imgAckTake
  repeat' (first
    | with_reducible assumption
    | with_reducible apply Dev.stop_canon
    | with_reducible apply Dev.send_canon
    | with_reducible apply Dev.execBegin_canon
    | with_reducible apply canon_ite
    | (unfold Dev.Canon; dsimp only; with_reducible refine canon_fold ?_)
    | (extract_lets +onlyGivenNames e; refine canon_have (d := e) ?_ ?_; unfold e; rotate_left; intro; clear_value e; rotate_right)
    | (extract_lets +onlyGivenNames e; clear_value e))

theorem Dev.hashTake_canon {d : Dev} (cycle : Nat) (hash : Word) (hd : d.Canon) : Dev.Canon (Dev.hashTake d cycle hash) := by
  unfold Dev.hashTake
  repeat' (first
    | with_reducible assumption
    | with_reducible apply Dev.start_canon
    | with_reducible apply Dev.shadeJudge_canon
    | with_reducible apply canon_ite
    | (unfold Dev.Canon; dsimp only; with_reducible refine canon_fold ?_)
    | (extract_lets +onlyGivenNames e; refine canon_have (d := e) ?_ ?_; unfold e; rotate_left; intro; clear_value e; rotate_right)
    | (extract_lets +onlyGivenNames e; clear_value e))

theorem Dev.handCheck_canon {d : Dev} (hd : d.Canon) : Dev.Canon (Dev.handCheck d) := by
  unfold Dev.handCheck
  repeat' (first
    | with_reducible assumption
    | with_reducible apply Dev.hw_canon
    | (unfold Dev.Canon; dsimp only; with_reducible refine canon_fold ?_)
    | (extract_lets +onlyGivenNames e; refine canon_have (d := e) ?_ ?_; unfold e; rotate_left; intro; clear_value e; rotate_right)
    | (extract_lets +onlyGivenNames e; clear_value e)
    | split
    | with_reducible refine canon_snd ?_ (by with_reducible assumption)
    | with_reducible refine canon_fst ?_ (by with_reducible assumption)
    | dsimp only)

theorem Dev.hashAckTake_canon {d : Dev} (cycle result : Nat) (hd : d.Canon) : Dev.Canon (Dev.hashAckTake d cycle result) := by
  unfold Dev.hashAckTake
  repeat' (first
    | with_reducible assumption
    | with_reducible apply Dev.flag_canon
    | with_reducible apply Dev.satInc_canon
    | with_reducible apply Dev.stop_canon
    | with_reducible apply Dev.handDue_canon
    | with_reducible apply Dev.handCheck_canon
    | with_reducible apply canon_ite
    | (unfold Dev.Canon; dsimp only; with_reducible refine canon_fold ?_)
    | (extract_lets +onlyGivenNames e; refine canon_have (d := e) ?_ ?_; unfold e; rotate_left; intro; clear_value e; rotate_right)
    | (extract_lets +onlyGivenNames e; clear_value e))

theorem Dev.lagExpiry_canon {d : Dev} (hd : d.Canon) : Dev.Canon (Dev.lagExpiry d) := by
  unfold Dev.lagExpiry
  repeat' (first
    | with_reducible assumption
    | with_reducible apply Dev.stop_canon
    | with_reducible apply Dev.shadeDrop_canon
    | with_reducible apply Dev.execBegin_canon
    | with_reducible apply Dev.handDue_canon
    | with_reducible apply Dev.handCheck_canon
    | with_reducible apply canon_ite
    | (unfold Dev.Canon; dsimp only; with_reducible refine canon_fold ?_)
    | (extract_lets +onlyGivenNames e; refine canon_have (d := e) ?_ ?_; unfold e; rotate_left; intro; clear_value e; rotate_right)
    | (extract_lets +onlyGivenNames e; clear_value e))

theorem Dev.missingImage_canon {d : Dev} (hd : d.Canon) : Dev.Canon (Dev.missingImage d) := by
  unfold Dev.missingImage
  repeat' (first
    | with_reducible assumption
    | with_reducible apply Dev.shadeDrop_canon
    | with_reducible apply canon_ite)

theorem Dev.cueStrobe_canon {d : Dev} (seq : Nat) (temp aux : Bool) (hd : d.Canon) : Dev.Canon (Dev.cueStrobe d seq temp aux) := by
  unfold Dev.cueStrobe
  repeat' (first
    | with_reducible assumption
    | with_reducible apply Dev.ringSet_canon
    | with_reducible apply Dev.publish_canon
    | with_reducible apply Dev.strobeWith_canon
    | with_reducible apply canon_ite
    | (extract_lets +onlyGivenNames e; refine canon_have (d := e) ?_ ?_; unfold e; rotate_left; intro; clear_value e; rotate_right)
    | (extract_lets +onlyGivenNames e; clear_value e)
    | split
    | with_reducible refine canon_snd ?_ (by with_reducible assumption)
    | with_reducible refine canon_fst ?_ (by with_reducible assumption)
    | dsimp only)

theorem Dev.cueMailbox_canon {d : Dev} (m : Nat) (hd : d.Canon) : Dev.Canon (Dev.cueMailbox d m) := by
  unfold Dev.cueMailbox
  repeat' (first
    | intro _
    | with_reducible assumption
    | with_reducible apply Dev.mbCommit_canon
    | with_reducible apply canon_ite
    | with_reducible apply canon_foldl
    | with_reducible apply canon_foldl_fst
    | with_reducible apply canon_foldl_snd
    | (unfold Dev.Canon; dsimp only; with_reducible refine canon_fold ?_)
    | (extract_lets +onlyGivenNames e; refine canon_have (d := e) ?_ ?_; unfold e; rotate_left; intro; clear_value e; rotate_right)
    | (extract_lets +onlyGivenNames e; clear_value e)
    | split
    | with_reducible refine canon_snd ?_ (by with_reducible assumption)
    | with_reducible refine canon_fst ?_ (by with_reducible assumption)
    | dsimp only)

theorem Dev.cueRecovery_canon {d : Dev} (seq : Nat) (hd : d.Canon) : Dev.Canon (Dev.cueRecovery d seq) := by
  unfold Dev.cueRecovery
  repeat' (first
    | intro _
    | with_reducible assumption
    | with_reducible apply Dev.collect_canon
    | with_reducible apply canon_ite
    | (unfold Dev.Canon; dsimp only; with_reducible refine canon_fold ?_)
    | (extract_lets +onlyGivenNames e; refine canon_have (d := e) ?_ ?_; unfold e; rotate_left; intro; clear_value e; rotate_right)
    | (extract_lets +onlyGivenNames e; clear_value e)
    | split
    | with_reducible refine canon_snd ?_ (by with_reducible assumption)
    | with_reducible refine canon_fst ?_ (by with_reducible assumption)
    | dsimp only)

theorem Dev.cuePwm_canon {d : Dev} (l : List Nat) (hd : d.Canon) : Dev.Canon (Dev.cuePwm d l) := by
  unfold Dev.cuePwm
  repeat' (first
    | intro _
    | with_reducible assumption
    | with_reducible apply Dev.setPair_canon
    | with_reducible apply canon_ite
    | with_reducible apply canon_foldl
    | (unfold Dev.Canon; dsimp only; with_reducible refine canon_fold ?_)
    | (extract_lets +onlyGivenNames e; refine canon_have (d := e) ?_ ?_; unfold e; rotate_left; intro; clear_value e; rotate_right)
    | (extract_lets +onlyGivenNames e; clear_value e)
    | dsimp only)

theorem Dev.estTakeover_canon {d : Dev} (was : Nat) (hd : d.Canon) : Dev.Canon (Dev.estTakeover d was) := by
  unfold Dev.estTakeover
  repeat' (first
    | intro _
    | with_reducible assumption
    | with_reducible apply Dev.stoLoad_canon
    | with_reducible apply canon_ite
    | (unfold Dev.Canon; dsimp only; with_reducible refine canon_fold ?_)
    | (extract_lets +onlyGivenNames e; refine canon_have (d := e) ?_ ?_; unfold e; rotate_left; intro; clear_value e; rotate_right)
    | (extract_lets +onlyGivenNames e; clear_value e)
    | split
    | with_reducible refine canon_snd ?_ (by with_reducible assumption)
    | with_reducible refine canon_fst ?_ (by with_reducible assumption)
    | dsimp only)

theorem Dev.cueRole_canon {d : Dev} (hd : d.Canon) : Dev.Canon (Dev.cueRole d) := by
  unfold Dev.cueRole
  repeat' (first
    | with_reducible assumption
    | with_reducible apply Dev.handTake_canon
    | with_reducible apply Dev.estTakeover_canon
    | with_reducible apply canon_ite
    | (extract_lets +onlyGivenNames e; refine canon_have (d := e) ?_ ?_; unfold e; rotate_left; intro; clear_value e; rotate_right)
    | (extract_lets +onlyGivenNames e; clear_value e))

theorem Dev.segTake_canon {d : Dev} (arg : Nat) (y0 : Nat) (y1 : List Byte) (hd : d.Canon) : Dev.Canon (Dev.segTake d arg y0 y1) := by
  induction y0 generalizing d arg y1 with
  | zero =>
    unfold Dev.segTake
    repeat' (first
      | with_reducible assumption
      | with_reducible apply Dev.take_canon
      | with_reducible apply Dev.slotPartner_canon
      | with_reducible apply canon_ite
      | (extract_lets +onlyGivenNames e; refine canon_have (d := e) ?_ ?_; unfold e; rotate_left; intro; clear_value e; rotate_right)
      | (extract_lets +onlyGivenNames e; clear_value e)
      | split
      | with_reducible refine canon_snd ?_ (by with_reducible assumption)
      | with_reducible refine canon_fst ?_ (by with_reducible assumption))
  | succ k ih =>
    unfold Dev.segTake
    repeat' (first
      | with_reducible assumption
      | with_reducible apply Dev.take_canon
      | with_reducible apply Dev.slotPartner_canon
      | with_reducible apply ih
      | with_reducible apply canon_ite
      | (extract_lets +onlyGivenNames e; refine canon_have (d := e) ?_ ?_; unfold e; rotate_left; intro; clear_value e; rotate_right)
      | (extract_lets +onlyGivenNames e; clear_value e)
      | split
      | with_reducible refine canon_snd ?_ (by with_reducible assumption)
      | with_reducible refine canon_fst ?_ (by with_reducible assumption))

theorem Dev.mirEst_canon {d : Dev} (hd : d.Canon) : Dev.Canon (Dev.mirEst d) := by
  unfold Dev.mirEst
  repeat' (first
    | intro _
    | with_reducible assumption
    | with_reducible apply Dev.wr_canon
    | with_reducible apply Dev.take_canon
    | with_reducible apply canon_foldl
    | with_reducible apply canon_foldl_fst
    | with_reducible apply canon_foldl_snd
    | (unfold Dev.Canon; dsimp only; with_reducible refine canon_fold ?_)
    | (extract_lets +onlyGivenNames e; refine canon_have (d := e) ?_ ?_; unfold e; rotate_left; intro; clear_value e; rotate_right)
    | (extract_lets +onlyGivenNames e; clear_value e)
    | dsimp only)

theorem Dev.joinDone_canon {d : Dev} (mode : Nat) (hd : d.Canon) : Dev.Canon (Dev.joinDone d mode) := by
  unfold Dev.joinDone
  repeat' (first
    | with_reducible assumption
    | with_reducible apply Dev.stop_canon
    | with_reducible apply Dev.setRole_canon
    | with_reducible apply Dev.rsSet_canon
    | with_reducible apply canon_ite)

theorem Dev.mirrorTake_canon {d : Dev} (sec off : Nat) (l : List Byte) (hd : d.Canon) : Dev.Canon (Dev.mirrorTake d sec off l) := by
  unfold Dev.mirrorTake
  repeat' (first
    | intro _
    | with_reducible assumption
    | with_reducible apply Dev.wr_canon
    | with_reducible apply Dev.setBit_canon
    | with_reducible apply Dev.enqueue_canon
    | with_reducible apply Dev.mramWrite_canon
    | with_reducible apply Dev.blkTake_canon
    | with_reducible apply Dev.twBad_canon
    | with_reducible apply Dev.mirEst_canon
    | with_reducible apply Dev.joinDone_canon
    | with_reducible apply canon_ite
    | with_reducible apply canon_foldl
    | with_reducible apply canon_foldl_fst
    | with_reducible apply canon_foldl_snd
    | (unfold Dev.Canon; dsimp only; with_reducible refine canon_fold ?_)
    | (extract_lets +onlyGivenNames e; refine canon_have (d := e) ?_ ?_; unfold e; rotate_left; intro; clear_value e; rotate_right)
    | (extract_lets +onlyGivenNames e; clear_value e)
    | split
    | with_reducible refine canon_snd ?_ (by with_reducible assumption)
    | with_reducible refine canon_fst ?_ (by with_reducible assumption)
    | dsimp only)

theorem Dev.joinTake_canon {d : Dev} (a : Nat) (l : List Byte) (hd : d.Canon) : Dev.Canon (Dev.joinTake d a l) := by
  unfold Dev.joinTake
  repeat' (first
    | with_reducible assumption
    | with_reducible apply Dev.nvBytes_canon
    | with_reducible apply Dev.agentStore_canon
    | with_reducible apply Dev.take_canon
    | with_reducible apply Dev.slotErase_canon
    | with_reducible apply Dev.unstage_canon
    | with_reducible apply canon_ite
    | (unfold Dev.Canon; dsimp only; with_reducible refine canon_fold ?_)
    | (extract_lets +onlyGivenNames e; refine canon_have (d := e) ?_ ?_; unfold e; rotate_left; intro; clear_value e; rotate_right)
    | (extract_lets +onlyGivenNames e; clear_value e))

theorem Dev.joinStateTake_canon {d : Dev} (j : JoinState) (hd : d.Canon) : Dev.Canon (Dev.joinStateTake d j) := by
  unfold Dev.joinStateTake
  repeat' (first
    | intro _
    | with_reducible assumption
    | with_reducible apply Dev.wr_canon
    | with_reducible apply Dev.setFld_canon
    | with_reducible apply Dev.nextFree_canon
    | with_reducible apply Dev.setCore_canon
    | with_reducible apply Dev.copyMem_canon
    | with_reducible apply Dev.joinDone_canon
    | with_reducible apply canon_ite
    | (unfold Dev.Canon; dsimp only; with_reducible refine canon_fold ?_)
    | (extract_lets +onlyGivenNames e; refine canon_have (d := e) ?_ ?_; unfold e; rotate_left; intro; clear_value e; rotate_right)
    | (extract_lets +onlyGivenNames e; clear_value e)
    | split
    | with_reducible refine canon_snd ?_ (by with_reducible assumption)
    | with_reducible refine canon_fst ?_ (by with_reducible assumption)
    | dsimp only)

theorem Dev.joinSlot_canon {d : Dev} (s : Nat) (w14 w15 : Word) (e3 u3 : Int) (q : List Nat) (hd : d.Canon) : Dev.Canon (Dev.joinSlot d s w14 w15 e3 u3 q) := by
  unfold Dev.joinSlot
  repeat' (first
    | intro _
    | with_reducible assumption
    | with_reducible apply Dev.wr_canon
    | with_reducible apply Dev.setSlot_canon
    | with_reducible apply canon_ite
    | with_reducible apply canon_foldl
    | with_reducible apply canon_foldl_fst
    | with_reducible apply canon_foldl_snd
    | (unfold Dev.Canon; dsimp only; with_reducible refine canon_fold ?_)
    | (extract_lets +onlyGivenNames e; refine canon_have (d := e) ?_ ?_; unfold e; rotate_left; intro; clear_value e; rotate_right)
    | (extract_lets +onlyGivenNames e; clear_value e)
    | dsimp only)

theorem Dev.roleLine_canon {d : Dev} (low : Bool) (hd : d.Canon) : Dev.Canon (Dev.roleLine d low) := by
  unfold Dev.roleLine
  repeat' (first
    | with_reducible assumption
    | (unfold Dev.Canon; dsimp only; with_reducible refine canon_fold ?_)
    | (extract_lets +onlyGivenNames e; refine canon_have (d := e) ?_ ?_; unfold e; rotate_left; intro; clear_value e; rotate_right)
    | (extract_lets +onlyGivenNames e; clear_value e))

theorem Dev.greySet_canon {d : Dev} (hd : d.Canon) : Dev.Canon (Dev.greySet d) := by
  unfold Dev.greySet
  repeat' (first
    | intro _
    | with_reducible assumption
    | with_reducible apply Dev.wr_canon
    | with_reducible apply Dev.setBit_canon
    | with_reducible apply Dev.greyNodes_canon
    | with_reducible apply canon_ite
    | with_reducible apply canon_foldl
    | (extract_lets +onlyGivenNames e; refine canon_have (d := e) ?_ ?_; unfold e; rotate_left; intro; clear_value e; rotate_right)
    | (extract_lets +onlyGivenNames e; clear_value e)
    | dsimp only)

theorem Dev.joinTimeout_canon {d : Dev} (hd : d.Canon) : Dev.Canon (Dev.joinTimeout d) := by
  unfold Dev.joinTimeout
  repeat' (first
    | with_reducible assumption
    | with_reducible apply Dev.stop_canon
    | with_reducible apply Dev.hw_canon
    | with_reducible apply Dev.dutyEnter_canon
    | with_reducible apply Dev.greySet_canon
    | with_reducible apply canon_ite
    | (extract_lets +onlyGivenNames e; refine canon_have (d := e) ?_ ?_; unfold e; rotate_left; intro; clear_value e; rotate_right)
    | (extract_lets +onlyGivenNames e; clear_value e))

theorem Dev.takeStart_canon {d : Dev} (hd : d.Canon) : Dev.Canon (Dev.takeStart d) := by
  unfold Dev.takeStart
  repeat' (first
    | with_reducible assumption
    | with_reducible apply Dev.start_canon
    | with_reducible apply Dev.hw_canon
    | with_reducible apply Dev.setKillOut_canon
    | with_reducible apply Dev.settle_canon
    | (unfold Dev.Canon; dsimp only; with_reducible refine canon_fold ?_)
    | (extract_lets +onlyGivenNames e; refine canon_have (d := e) ?_ ?_; unfold e; rotate_left; intro; clear_value e; rotate_right)
    | (extract_lets +onlyGivenNames e; clear_value e))

theorem Dev.takeover_canon {d : Dev} (hd : d.Canon) : Dev.Canon (Dev.takeover d) := by
  unfold Dev.takeover
  repeat' (first
    | with_reducible assumption
    | with_reducible apply Dev.takeStart_canon
    | with_reducible apply canon_ite)

theorem Dev.settleExpiry_canon {d : Dev} (hd : d.Canon) : Dev.Canon (Dev.settleExpiry d) := by
  unfold Dev.settleExpiry
  repeat' (first
    | with_reducible assumption
    | with_reducible apply Dev.satInc_canon
    | with_reducible apply Dev.stop_canon
    | with_reducible apply Dev.hw_canon
    | with_reducible apply Dev.settle_canon
    | with_reducible apply Dev.dutyEnter_canon
    | with_reducible apply Dev.programAnew_canon
    | with_reducible apply Dev.commit_canon
    | with_reducible apply Dev.estTakeover_canon
    | with_reducible apply Dev.takeover_canon
    | with_reducible apply canon_ite
    | (unfold Dev.Canon; dsimp only; with_reducible refine canon_fold ?_)
    | (extract_lets +onlyGivenNames e; refine canon_have (d := e) ?_ ?_; unfold e; rotate_left; intro; clear_value e; rotate_right)
    | (extract_lets +onlyGivenNames e; clear_value e))

theorem Dev.killIn_canon {d : Dev} (active : Bool) (hd : d.Canon) : Dev.Canon (Dev.killIn d active) := by
  unfold Dev.killIn
  repeat' (first
    | with_reducible assumption
    | with_reducible apply Dev.setBit_canon
    | with_reducible apply Dev.powerRefresh_canon
    | with_reducible apply Dev.depose_canon
    | with_reducible apply canon_ite
    | (unfold Dev.Canon; dsimp only; with_reducible refine canon_fold ?_)
    | (extract_lets +onlyGivenNames e; refine canon_have (d := e) ?_ ?_; unfold e; rotate_left; intro; clear_value e; rotate_right)
    | (extract_lets +onlyGivenNames e; clear_value e))

theorem Dev.deposedTimeout_canon {d : Dev} (hd : d.Canon) : Dev.Canon (Dev.deposedTimeout d) := by
  unfold Dev.deposedTimeout
  repeat' (first
    | with_reducible assumption
    | with_reducible apply Dev.rejoin_canon
    | with_reducible apply canon_ite
    | (extract_lets +onlyGivenNames e; refine canon_have (d := e) ?_ ?_; unfold e; rotate_left; intro; clear_value e; rotate_right)
    | (extract_lets +onlyGivenNames e; clear_value e))

theorem Dev.serviceGate_canon {d : Dev} (src : Writer) (a : Nat) (f : Dev → Dev) (hd : d.Canon) (hf : ∀ x0, x0.Canon → Dev.Canon (f x0)) : Dev.Canon (Dev.serviceGate d src a f) := by
  unfold Dev.serviceGate
  repeat' (first
    | intro _
    | with_reducible assumption
    | with_reducible apply Dev.gate_canon
    | with_reducible apply hf
    | with_reducible apply canon_ite)

theorem Dev.mirrorInterval_canon {d : Dev} (hd : d.Canon) : Dev.Canon (Dev.mirrorInterval d) := by
  unfold Dev.mirrorInterval
  repeat' (first
    | with_reducible assumption
    | with_reducible apply Dev.start_canon
    | with_reducible apply Dev.mirrorEst_canon
    | with_reducible apply canon_ite
    | (extract_lets +onlyGivenNames e; refine canon_have (d := e) ?_ ?_; unfold e; rotate_left; intro; clear_value e; rotate_right)
    | (extract_lets +onlyGivenNames e; clear_value e))

end Sys2Proof.Machine
end

