-- ==== Sys2Proof/Laws/CanonStart.lean ====
section
/-! SUPPORT. Every operation of Sys2Proof/Machine/Start.lean keeps the canonical form. -/

set_option Elab.async false
set_option linter.all false

namespace Sys2Proof.Machine

theorem Dev.mapLoad_canon {d : Dev} (hd : d.Canon) : Dev.Canon (Dev.mapLoad d) := by
  unfold Dev.mapLoad
  repeat' (first
    | intro _
    | with_reducible assumption
    | with_reducible apply Dev.setBit_canon
    | with_reducible apply Dev.chmCount_canon
    | with_reducible apply Dev.chmEntry_canon
    | with_reducible apply canon_ite
    | with_reducible apply canon_foldl
    | dsimp only)

theorem Dev.nominalLoad_canon {d : Dev} (hd : d.Canon) : Dev.Canon (Dev.nominalLoad d) := by
  unfold Dev.nominalLoad
  repeat' (first
    | with_reducible assumption
    | with_reducible apply Dev.wr_canon
    | with_reducible apply Dev.setFld_canon
    | with_reducible apply Dev.setInc_canon
    | with_reducible apply canon_ite
    | (extract_lets +onlyGivenNames e; refine canon_have (d := e) ?_ ?_; unfold e; rotate_left; intro; clear_value e; rotate_right)
    | (extract_lets +onlyGivenNames e; clear_value e))

theorem Dev.portsSet_canon {d : Dev} (hd : d.Canon) : Dev.Canon (Dev.portsSet d) := by
  unfold Dev.portsSet
  repeat' (first
    | with_reducible assumption
    | with_reducible apply Dev.setFld_canon
    | with_reducible apply Dev.setBit_canon
    | with_reducible apply canon_ite
    | (extract_lets +onlyGivenNames e; refine canon_have (d := e) ?_ ?_; unfold e; rotate_left; intro; clear_value e; rotate_right)
    | (extract_lets +onlyGivenNames e; clear_value e))

theorem Dev.ringBoot_canon {d : Dev} (found : Option (BitVec 8 × List EnumNode × BitVec 24)) (hd : d.Canon) : Dev.Canon (Dev.ringBoot d found) := by
  unfold Dev.ringBoot
  repeat' (first
    | with_reducible assumption
    | with_reducible apply Dev.ringLinkUp_canon
    | with_reducible apply Dev.ringDownExit_canon
    | with_reducible apply Dev.enumerate_canon
    | with_reducible apply Dev.greySet_canon
    | with_reducible apply canon_ite
    | (extract_lets +onlyGivenNames e; refine canon_have (d := e) ?_ ?_; unfold e; rotate_left; intro; clear_value e; rotate_right)
    | (extract_lets +onlyGivenNames e; clear_value e)
    | split
    | with_reducible refine canon_snd ?_ (by with_reducible assumption)
    | with_reducible refine canon_fst ?_ (by with_reducible assumption)
    | dsimp only)

theorem Dev.epochLoad_canon {d : Dev} (hd : d.Canon) : Dev.Canon (Dev.epochLoad d) := by
  unfold Dev.epochLoad
  repeat' (first
    | with_reducible assumption
    | with_reducible apply Dev.wr_canon
    | with_reducible apply Dev.eligRefresh_canon
    | (extract_lets +onlyGivenNames e; refine canon_have (d := e) ?_ ?_; unfold e; rotate_left; intro; clear_value e; rotate_right)
    | (extract_lets +onlyGivenNames e; clear_value e)
    | split
    | with_reducible refine canon_snd ?_ (by with_reducible assumption)
    | with_reducible refine canon_fst ?_ (by with_reducible assumption)
    | dsimp only)

theorem Dev.watchdogSet_canon {d : Dev} (hd : d.Canon) : Dev.Canon (Dev.watchdogSet d) := by
  unfold Dev.watchdogSet
  repeat' (first
    | with_reducible assumption
    | with_reducible apply Dev.setFld_canon
    | with_reducible apply Dev.start_canon)

theorem Dev.swapped_canon {d : Dev} (kind old new : Nat) (hd : d.Canon) : Dev.Canon (Dev.swapped d kind old new) := by
  unfold Dev.swapped
  repeat' (first
    | with_reducible assumption
    | with_reducible apply Dev.unstage_canon
    | with_reducible apply canon_ite)

theorem Dev.romChoice_canon {d : Dev} (act : Nat) (cause : Option Nat) (hd : d.Canon) : Dev.Canon (Dev.romChoice d act cause) := by
  unfold Dev.romChoice
  repeat' (first
    | with_reducible assumption
    | with_reducible apply Dev.setFld_canon
    | with_reducible apply Dev.setBit_canon
    | with_reducible apply Dev.resetTo_canon
    | with_reducible apply Dev.watchdogSet_canon
    | with_reducible apply Dev.swapped_canon
    | (extract_lets +onlyGivenNames e; refine canon_have (d := e) ?_ ?_; unfold e; rotate_left; intro; clear_value e; rotate_right)
    | (extract_lets +onlyGivenNames e; clear_value e)
    | split
    | with_reducible refine canon_snd ?_ (by with_reducible assumption)
    | with_reducible refine canon_fst ?_ (by with_reducible assumption)
    | dsimp only)

theorem Dev.romSetup_canon {d : Dev} (found : Option (BitVec 8 × List EnumNode × BitVec 24)) (hd : d.Canon) : Dev.Canon (Dev.romSetup d found) := by
  unfold Dev.romSetup
  repeat' (first
    | with_reducible assumption
    | with_reducible apply Dev.limitLoad_canon
    | with_reducible apply Dev.discWatch_canon
    | with_reducible apply Dev.guardsAfter_canon
    | with_reducible apply Dev.recBoot_canon
    | with_reducible apply Dev.mapLoad_canon
    | with_reducible apply Dev.nominalLoad_canon
    | with_reducible apply Dev.portsSet_canon
    | with_reducible apply Dev.ringBoot_canon
    | with_reducible apply Dev.epochLoad_canon
    | (unfold Dev.Canon; dsimp only; with_reducible refine canon_fold ?_)
    | (extract_lets +onlyGivenNames e; refine canon_have (d := e) ?_ ?_; unfold e; rotate_left; intro; clear_value e; rotate_right)
    | (extract_lets +onlyGivenNames e; clear_value e))

theorem Dev.bringUp_canon {d : Dev} (found : Option (BitVec 8 × List EnumNode × BitVec 24)) (hd : d.Canon) : Dev.Canon (Dev.bringUp d found) := by
  unfold Dev.bringUp
  repeat' (first
    | with_reducible assumption
    | with_reducible apply Dev.wr_canon
    | with_reducible apply Dev.slotBoot_canon
    | with_reducible apply Dev.romChoice_canon
    | with_reducible apply Dev.romSetup_canon
    | with_reducible apply canon_ite
    | (extract_lets +onlyGivenNames e; refine canon_have (d := e) ?_ ?_; unfold e; rotate_left; intro; clear_value e; rotate_right)
    | (extract_lets +onlyGivenNames e; clear_value e))

theorem Dev.regionSet_canon {d : Dev} (n base lim attr : Nat) (hd : d.Canon) : Dev.Canon (Dev.regionSet d n base lim attr) := by
  unfold Dev.regionSet
  repeat' (first
    | with_reducible assumption
    | with_reducible apply Dev.wr_canon)

theorem Dev.regionsSet_canon {d : Dev} (hd : d.Canon) : Dev.Canon (Dev.regionsSet d) := by
  unfold Dev.regionsSet
  repeat' (first
    | with_reducible assumption
    | with_reducible apply Dev.setFld_canon
    | with_reducible apply Dev.regionSet_canon
    | (extract_lets +onlyGivenNames e; refine canon_have (d := e) ?_ ?_; unfold e; rotate_left; intro; clear_value e; rotate_right)
    | (extract_lets +onlyGivenNames e; clear_value e))

theorem Dev.programLoad_canon {d : Dev} (hd : d.Canon) : Dev.Canon (Dev.programLoad d) := by
  unfold Dev.programLoad
  repeat' (first
    | with_reducible assumption
    | with_reducible apply Dev.setFld_canon
    | with_reducible apply Dev.programBoot_canon
    | with_reducible apply Dev.swapped_canon
    | with_reducible apply canon_ite
    | (unfold Dev.Canon; dsimp only; with_reducible refine canon_fold ?_)
    | (extract_lets +onlyGivenNames e; refine canon_have (d := e) ?_ ?_; unfold e; rotate_left; intro; clear_value e; rotate_right)
    | (extract_lets +onlyGivenNames e; clear_value e))

theorem Dev.programSet_canon {d : Dev} (hd : d.Canon) : Dev.Canon (Dev.programSet d) := by
  unfold Dev.programSet
  repeat' (first
    | with_reducible assumption
    | with_reducible apply Dev.wr_canon
    | with_reducible apply Dev.setBit_canon
    | with_reducible apply Dev.cycPeriod_canon
    | with_reducible apply canon_ite
    | (extract_lets +onlyGivenNames e; refine canon_have (d := e) ?_ ?_; unfold e; rotate_left; intro; clear_value e; rotate_right)
    | (extract_lets +onlyGivenNames e; clear_value e)
    | split
    | with_reducible refine canon_snd ?_ (by with_reducible assumption)
    | with_reducible refine canon_fst ?_ (by with_reducible assumption)
    | dsimp only)

theorem Dev.homeAll_canon {d : Dev} (hd : d.Canon) : Dev.Canon (Dev.homeAll d) := by
  unfold Dev.homeAll
  repeat' (first
    | intro _
    | with_reducible assumption
    | with_reducible apply Dev.homeNext_canon
    | (unfold Dev.Canon; dsimp only; with_reducible refine canon_fold ?_)
    | (extract_lets +onlyGivenNames e; refine canon_have (d := e) ?_ ?_; unfold e; rotate_left; intro; clear_value e; rotate_right)
    | (extract_lets +onlyGivenNames e; clear_value e)
    | dsimp only)

theorem Dev.canStart_canon {d : Dev} (x : Nat) (hd : d.Canon) : Dev.Canon (Dev.canStart d x) := by
  unfold Dev.canStart
  repeat' (first
    | with_reducible assumption
    | with_reducible apply Dev.canCtl_canon)

theorem Dev.fullService_canon {d : Dev} (hd : d.Canon) : Dev.Canon (Dev.fullService d) := by
  unfold Dev.fullService
  repeat' (first
    | intro _
    | with_reducible assumption
    | with_reducible apply Dev.setFld_canon
    | with_reducible apply Dev.setBit_canon
    | with_reducible apply Dev.start_canon
    | with_reducible apply Dev.ttBuild_canon
    | with_reducible apply Dev.canProfileSet_canon
    | with_reducible apply Dev.angReturn_canon
    | with_reducible apply Dev.healTry_canon
    | with_reducible apply Dev.wdtoSend_canon
    | with_reducible apply Dev.stoLoad_canon
    | with_reducible apply Dev.progStart_canon
    | with_reducible apply Dev.blkAll_canon
    | with_reducible apply Dev.mapSave_canon
    | with_reducible apply Dev.heldTake_canon
    | with_reducible apply Dev.regionsSet_canon
    | with_reducible apply Dev.programLoad_canon
    | with_reducible apply Dev.programSet_canon
    | with_reducible apply Dev.homeAll_canon
    | with_reducible apply Dev.canStart_canon
    | with_reducible apply canon_ite
    | with_reducible apply canon_foldl
    | with_reducible apply canon_foldl_fst
    | with_reducible apply canon_foldl_snd
    | (unfold Dev.Canon; dsimp only; with_reducible refine canon_fold ?_)
    | (extract_lets +onlyGivenNames e; refine canon_have (d := e) ?_ ?_; unfold e; rotate_left; intro; clear_value e; rotate_right)
    | (extract_lets +onlyGivenNames e; clear_value e)
    | dsimp only)

end Sys2Proof.Machine
end

