-- ==== Sys2Proof/Laws/CanonPower.lean ====
section
/-! SUPPORT. Every operation of Sys2Proof/Machine/Power.lean keeps the canonical form. -/

set_option Elab.async false
set_option linter.all false

namespace Sys2Proof.Machine

theorem Dev.feedShow_canon {d : Dev} (fb : Bool) (mv : Nat) (hd : d.Canon) : Dev.Canon (Dev.feedShow d fb mv) := by
  unfold Dev.feedShow
  repeat' (first
    | with_reducible assumption
    | with_reducible apply Dev.setFld_canon
    | with_reducible apply canon_ite)

theorem Dev.alwaysOnSave_canon {d : Dev} (hd : d.Canon) : Dev.Canon (Dev.alwaysOnSave d) := by
  unfold Dev.alwaysOnSave
  repeat' (first
    | with_reducible assumption
    | with_reducible apply Dev.start_canon
    | with_reducible apply Dev.nvcUrgent_canon
    | with_reducible apply canon_ite
    | (extract_lets +onlyGivenNames e; refine canon_have (d := e) ?_ ?_; unfold e; rotate_left; intro; clear_value e; rotate_right)
    | (extract_lets +onlyGivenNames e; clear_value e))

theorem Dev.ledgerSave_canon {d : Dev} (count : Nat) (first : List Byte) (hd : d.Canon) : Dev.Canon (Dev.ledgerSave d count first) := by
  unfold Dev.ledgerSave
  repeat' (first
    | intro _
    | with_reducible assumption
    | with_reducible apply Dev.mramWrite_canon
    | (extract_lets +onlyGivenNames e; refine canon_have (d := e) ?_ ?_; unfold e; rotate_left; intro; clear_value e; rotate_right)
    | (extract_lets +onlyGivenNames e; clear_value e)
    | split
    | with_reducible refine canon_snd ?_ (by with_reducible assumption)
    | with_reducible refine canon_fst ?_ (by with_reducible assumption)
    | dsimp only)

theorem Dev.wearTotals_canon {d : Dev} (hd : d.Canon) : Dev.Canon (Dev.wearTotals d) := by
  unfold Dev.wearTotals
  repeat' (first
    | with_reducible assumption
    | with_reducible apply Dev.ledgerSave_canon
    | with_reducible apply canon_ite)

theorem Dev.convertOff_canon {d : Dev} (hd : d.Canon) : Dev.Canon (Dev.convertOff d) := by
  unfold Dev.convertOff
  repeat' (first
    | intro _
    | with_reducible assumption
    | with_reducible apply Dev.slotDrop_canon
    | with_reducible apply Dev.pwmCtl_canon
    | with_reducible apply canon_foldl
    | (extract_lets +onlyGivenNames e; refine canon_have (d := e) ?_ ?_; unfold e; rotate_left; intro; clear_value e; rotate_right)
    | (extract_lets +onlyGivenNames e; clear_value e)
    | dsimp only)

theorem Dev.programShed_canon {d : Dev} (hd : d.Canon) : Dev.Canon (Dev.programShed d) := by
  unfold Dev.programShed
  repeat' (first
    | with_reducible assumption
    | with_reducible apply Dev.setFld_canon
    | with_reducible apply Dev.stop_canon
    | with_reducible apply Dev.progStop_canon
    | with_reducible apply canon_ite
    | (unfold Dev.Canon; dsimp only; with_reducible refine canon_fold ?_)
    | (extract_lets +onlyGivenNames e; refine canon_have (d := e) ?_ ?_; unfold e; rotate_left; intro; clear_value e; rotate_right)
    | (extract_lets +onlyGivenNames e; clear_value e))

theorem Dev.flushMode_canon {d : Dev} (hd : d.Canon) : Dev.Canon (Dev.flushMode d) := by
  unfold Dev.flushMode
  repeat' (first
    | with_reducible assumption
    | with_reducible apply Dev.setBit_canon
    | with_reducible apply Dev.hw_canon
    | with_reducible apply Dev.fansWatch_canon
    | with_reducible apply Dev.convertOff_canon
    | with_reducible apply Dev.programShed_canon
    | with_reducible apply canon_ite)

theorem Dev.holdEntry_canon {d : Dev} (hd : d.Canon) : Dev.Canon (Dev.holdEntry d) := by
  unfold Dev.holdEntry
  repeat' (first
    | with_reducible assumption
    | with_reducible apply Dev.setFld_canon
    | with_reducible apply Dev.flag_canon
    | with_reducible apply Dev.start_canon
    | with_reducible apply Dev.hw_canon
    | with_reducible apply Dev.flushReq_canon
    | with_reducible apply Dev.sendFail_canon
    | with_reducible apply Dev.stoAsk_canon
    | with_reducible apply Dev.alwaysOnSave_canon
    | with_reducible apply Dev.wearTotals_canon
    | with_reducible apply Dev.flushMode_canon
    | with_reducible apply canon_ite
    | (unfold Dev.Canon; dsimp only; with_reducible refine canon_fold ?_)
    | (extract_lets +onlyGivenNames e; refine canon_have (d := e) ?_ ?_; unfold e; rotate_left; intro; clear_value e; rotate_right)
    | (extract_lets +onlyGivenNames e; clear_value e))

theorem Dev.feedLost_canon {d : Dev} (fb : Bool) (mv : Nat) (hd : d.Canon) : Dev.Canon (Dev.feedLost d fb mv) := by
  unfold Dev.feedLost
  repeat' (first
    | with_reducible assumption
    | with_reducible apply Dev.setBit_canon
    | with_reducible apply Dev.flag_canon
    | with_reducible apply Dev.stop_canon
    | with_reducible apply Dev.hw_canon
    | with_reducible apply Dev.feedShow_canon
    | with_reducible apply Dev.holdEntry_canon
    | with_reducible apply canon_ite
    | (extract_lets +onlyGivenNames e; refine canon_have (d := e) ?_ ?_; unfold e; rotate_left; intro; clear_value e; rotate_right)
    | (extract_lets +onlyGivenNames e; clear_value e))

theorem Dev.rideExpiry_canon {d : Dev} (hd : d.Canon) : Dev.Canon (Dev.rideExpiry d) := by
  unfold Dev.rideExpiry
  repeat' (first
    | with_reducible assumption
    | with_reducible apply Dev.flushMode_canon
    | with_reducible apply canon_ite)

theorem Dev.convertBack_canon {d : Dev} (hd : d.Canon) : Dev.Canon (Dev.convertBack d) := by
  unfold Dev.convertBack
  repeat' (first
    | with_reducible assumption
    | with_reducible apply Dev.pwmCtl_canon
    | with_reducible apply canon_ite
    | split
    | with_reducible refine canon_snd ?_ (by with_reducible assumption)
    | with_reducible refine canon_fst ?_ (by with_reducible assumption)
    | dsimp only)

theorem Dev.holdLeave_canon {d : Dev} (hd : d.Canon) : Dev.Canon (Dev.holdLeave d) := by
  unfold Dev.holdLeave
  repeat' (first
    | with_reducible assumption
    | with_reducible apply Dev.setFld_canon
    | with_reducible apply Dev.setBit_canon
    | with_reducible apply Dev.stop_canon
    | with_reducible apply Dev.hw_canon
    | with_reducible apply Dev.fansWatch_canon
    | with_reducible apply Dev.progStart_canon
    | with_reducible apply Dev.convertBack_canon
    | with_reducible apply canon_ite
    | (unfold Dev.Canon; dsimp only; with_reducible refine canon_fold ?_)
    | (extract_lets +onlyGivenNames e; refine canon_have (d := e) ?_ ?_; unfold e; rotate_left; intro; clear_value e; rotate_right)
    | (extract_lets +onlyGivenNames e; clear_value e))

theorem Dev.holdReturn_canon {d : Dev} (hd : d.Canon) : Dev.Canon (Dev.holdReturn d) := by
  unfold Dev.holdReturn
  repeat' (first
    | intro _
    | with_reducible assumption
    | with_reducible apply Dev.holdLeave_canon
    | with_reducible apply canon_ite
    | (extract_lets +onlyGivenNames e; refine canon_have (d := e) ?_ ?_; unfold e; rotate_left; intro; clear_value e; rotate_right)
    | (extract_lets +onlyGivenNames e; clear_value e)
    | dsimp only)

theorem Dev.feedGood_canon {d : Dev} (fb : Bool) (mv : Nat) (hd : d.Canon) : Dev.Canon (Dev.feedGood d fb mv) := by
  unfold Dev.feedGood
  repeat' (first
    | with_reducible assumption
    | with_reducible apply Dev.setBit_canon
    | with_reducible apply Dev.start_canon
    | with_reducible apply Dev.hw_canon
    | with_reducible apply Dev.feedShow_canon
    | with_reducible apply Dev.holdReturn_canon
    | with_reducible apply canon_ite
    | (extract_lets +onlyGivenNames e; refine canon_have (d := e) ?_ ?_; unfold e; rotate_left; intro; clear_value e; rotate_right)
    | (extract_lets +onlyGivenNames e; clear_value e))

theorem Dev.bankCharged_canon {d : Dev} (hd : d.Canon) : Dev.Canon (Dev.bankCharged d) := by
  unfold Dev.bankCharged
  repeat' (first
    | with_reducible assumption
    | with_reducible apply Dev.wr_canon
    | with_reducible apply Dev.setBit_canon
    | with_reducible apply canon_ite)

theorem Dev.bankClose_canon {d : Dev} (hd : d.Canon) : Dev.Canon (Dev.bankClose d) := by
  unfold Dev.bankClose
  repeat' (first
    | with_reducible assumption
    | with_reducible apply Dev.wr_canon
    | with_reducible apply Dev.setBit_canon
    | with_reducible apply Dev.nvcClose_canon
    | with_reducible apply Dev.openReq_canon
    | with_reducible apply canon_ite)

theorem Dev.unitsOut_canon {d : Dev} (y0 : Nat) (hd : d.Canon) : Dev.Canon (Dev.unitsOut d y0) := by
  induction y0 generalizing d with
  | zero =>
    unfold Dev.unitsOut
    repeat' (first
      | with_reducible assumption
      | with_reducible apply Dev.nvcUnit_canon
      | with_reducible apply canon_ite
      | split
      | with_reducible refine canon_snd ?_ (by with_reducible assumption)
      | with_reducible refine canon_fst ?_ (by with_reducible assumption))
  | succ k ih =>
    unfold Dev.unitsOut
    repeat' (first
      | with_reducible assumption
      | with_reducible apply Dev.nvcUnit_canon
      | with_reducible apply ih
      | with_reducible apply canon_ite
      | split
      | with_reducible refine canon_snd ?_ (by with_reducible assumption)
      | with_reducible refine canon_fst ?_ (by with_reducible assumption))

theorem Dev.bankOut_canon {d : Dev} (hd : d.Canon) : Dev.Canon (Dev.bankOut d) := by
  unfold Dev.bankOut
  repeat' (first
    | with_reducible assumption
    | with_reducible apply Dev.wr_canon
    | with_reducible apply Dev.setBit_canon
    | with_reducible apply Dev.nvcUrgent_canon
    | with_reducible apply Dev.standby_canon
    | with_reducible apply Dev.bankClose_canon
    | with_reducible apply Dev.unitsOut_canon
    | with_reducible apply canon_ite
    | (unfold Dev.Canon; dsimp only; with_reducible refine canon_fold ?_)
    | (extract_lets +onlyGivenNames e; refine canon_have (d := e) ?_ ?_; unfold e; rotate_left; intro; clear_value e; rotate_right)
    | (extract_lets +onlyGivenNames e; clear_value e))

theorem Dev.countsBack_canon {d : Dev} (hd : d.Canon) : Dev.Canon (Dev.countsBack d) := by
  unfold Dev.countsBack
  repeat' (first
    | with_reducible assumption
    | with_reducible apply Dev.wr_canon
    | (extract_lets +onlyGivenNames e; refine canon_have (d := e) ?_ ?_; unfold e; rotate_left; intro; clear_value e; rotate_right)
    | (extract_lets +onlyGivenNames e; clear_value e))

theorem Dev.powerOn_canon {d : Dev} (hd : d.Canon) : Dev.Canon (Dev.powerOn d) := by
  unfold Dev.powerOn
  repeat' (first
    | with_reducible assumption
    | with_reducible apply Dev.resetTo_canon
    | with_reducible apply Dev.countsBack_canon
    | with_reducible apply canon_ite)

theorem Dev.thermalCut_canon {d : Dev} (hd : d.Canon) : Dev.Canon (Dev.thermalCut d) := by
  unfold Dev.thermalCut
  repeat' (first
    | with_reducible assumption
    | with_reducible apply Dev.reset_canon
    | with_reducible apply Dev.nvcReset_canon
    | with_reducible apply Dev.standby_canon
    | with_reducible apply canon_ite
    | (unfold Dev.Canon; dsimp only; with_reducible refine canon_fold ?_)
    | (extract_lets +onlyGivenNames e; refine canon_have (d := e) ?_ ?_; unfold e; rotate_left; intro; clear_value e; rotate_right)
    | (extract_lets +onlyGivenNames e; clear_value e))

theorem Dev.thermalRestart_canon {d : Dev} (hd : d.Canon) : Dev.Canon (Dev.thermalRestart d) := by
  unfold Dev.thermalRestart
  repeat' (first
    | with_reducible assumption
    | with_reducible apply Dev.resetTo_canon
    | with_reducible apply canon_ite)

theorem Dev.brownOut_canon {d : Dev} (hd : d.Canon) : Dev.Canon (Dev.brownOut d) := by
  unfold Dev.brownOut
  repeat' (first
    | with_reducible assumption
    | with_reducible apply Dev.resetTo_canon
    | with_reducible apply canon_ite)

theorem Dev.idleEnd_canon {d : Dev} (hd : d.Canon) : Dev.Canon (Dev.idleEnd d) := by
  unfold Dev.idleEnd
  repeat' (first
    | with_reducible assumption
    | with_reducible apply Dev.fw_canon
    | with_reducible apply Dev.ringSleep_canon
    | with_reducible apply Dev.standby_canon
    | with_reducible apply Dev.setTr_canon
    | with_reducible apply canon_ite)

theorem Dev.idleEntry_canon {d : Dev} (hd : d.Canon) : Dev.Canon (Dev.idleEntry d) := by
  unfold Dev.idleEntry
  repeat' (first
    | with_reducible assumption
    | with_reducible apply Dev.stoAsk_canon
    | with_reducible apply Dev.stoService_canon
    | with_reducible apply Dev.setTr_canon
    | with_reducible apply Dev.idleEnd_canon
    | with_reducible apply canon_ite
    | (extract_lets +onlyGivenNames e; refine canon_have (d := e) ?_ ?_; unfold e; rotate_left; intro; clear_value e; rotate_right)
    | (extract_lets +onlyGivenNames e; clear_value e))

theorem Dev.wakeBy_canon {d : Dev} (source a : Nat) (hd : d.Canon) : Dev.Canon (Dev.wakeBy d source a) := by
  unfold Dev.wakeBy
  repeat' (first
    | with_reducible assumption
    | with_reducible apply Dev.setBit_canon
    | with_reducible apply Dev.resetTo_canon
    | with_reducible apply canon_ite
    | (extract_lets +onlyGivenNames e; refine canon_have (d := e) ?_ ?_; unfold e; rotate_left; intro; clear_value e; rotate_right)
    | (extract_lets +onlyGivenNames e; clear_value e))

theorem Dev.wakeChg_canon {d : Dev} (active : Bool) (hd : d.Canon) : Dev.Canon (Dev.wakeChg d active) := by
  unfold Dev.wakeChg
  repeat' (first
    | with_reducible assumption
    | with_reducible apply Dev.wakeBy_canon
    | with_reducible apply canon_ite
    | (unfold Dev.Canon; dsimp only; with_reducible refine canon_fold ?_)
    | (extract_lets +onlyGivenNames e; refine canon_have (d := e) ?_ ?_; unfold e; rotate_left; intro; clear_value e; rotate_right)
    | (extract_lets +onlyGivenNames e; clear_value e))

theorem Dev.watchdogOut_canon {d : Dev} (hd : d.Canon) : Dev.Canon (Dev.watchdogOut d) := by
  unfold Dev.watchdogOut
  repeat' (first
    | with_reducible assumption
    | with_reducible apply Dev.resetAsk_canon
    | with_reducible apply canon_ite
    | (extract_lets +onlyGivenNames e; refine canon_have (d := e) ?_ ?_; unfold e; rotate_left; intro; clear_value e; rotate_right)
    | (extract_lets +onlyGivenNames e; clear_value e))

theorem Dev.rstN_canon {d : Dev} (high : Bool) (hd : d.Canon) : Dev.Canon (Dev.rstN d high) := by
  unfold Dev.rstN
  repeat' (first
    | with_reducible assumption
    | with_reducible apply Dev.resetAsk_canon
    | with_reducible apply canon_ite
    | (unfold Dev.Canon; dsimp only; with_reducible refine canon_fold ?_)
    | (extract_lets +onlyGivenNames e; refine canon_have (d := e) ?_ ?_; unfold e; rotate_left; intro; clear_value e; rotate_right)
    | (extract_lets +onlyGivenNames e; clear_value e))

theorem Dev.resyncReset_canon {d : Dev} (hd : d.Canon) : Dev.Canon (Dev.resyncReset d) := by
  unfold Dev.resyncReset
  repeat' (first
    | with_reducible assumption
    | with_reducible apply Dev.resetAsk_canon
    | with_reducible apply Dev.slotSave_canon
    | with_reducible apply canon_ite
    | (unfold Dev.Canon; dsimp only; with_reducible refine canon_fold ?_)
    | (extract_lets +onlyGivenNames e; refine canon_have (d := e) ?_ ?_; unfold e; rotate_left; intro; clear_value e; rotate_right)
    | (extract_lets +onlyGivenNames e; clear_value e))

end Sys2Proof.Machine
end

