-- ==== Sys2Proof/Laws/CanonHealth.lean ====
section
/-! SUPPORT. Every operation of Sys2Proof/Machine/Health.lean keeps the canonical form. -/

set_option Elab.async false
set_option linter.all false

namespace Sys2Proof.Machine

theorem Dev.sensorSet_canon {d : Dev} (i : Nat) (t : Int) (ex : Bool) (hd : d.Canon) : Dev.Canon (Dev.sensorSet d i t ex) := by
  unfold Dev.sensorSet
  repeat' (first
    | with_reducible assumption
    | with_reducible apply Dev.wr_canon
    | with_reducible apply Dev.flag_canon
    | with_reducible apply Dev.hw_canon
    | with_reducible apply canon_ite
    | (extract_lets +onlyGivenNames e; refine canon_have (d := e) ?_ ?_; unfold e; rotate_left; intro; clear_value e; rotate_right)
    | (extract_lets +onlyGivenNames e; clear_value e))

theorem Dev.ochreTherm_canon {d : Dev} (on : Bool) (hd : d.Canon) : Dev.Canon (Dev.ochreTherm d on) := by
  unfold Dev.ochreTherm
  repeat' (first
    | with_reducible assumption
    | with_reducible apply Dev.setFld_canon
    | with_reducible apply Dev.setBit_canon
    | with_reducible apply Dev.hw_canon
    | with_reducible apply Dev.srcOchre_canon
    | with_reducible apply canon_ite
    | (extract_lets +onlyGivenNames e; refine canon_have (d := e) ?_ ?_; unfold e; rotate_left; intro; clear_value e; rotate_right)
    | (extract_lets +onlyGivenNames e; clear_value e))

theorem Dev.crimTherm_canon {d : Dev} (on : Bool) (hd : d.Canon) : Dev.Canon (Dev.crimTherm d on) := by
  unfold Dev.crimTherm
  repeat' (first
    | with_reducible assumption
    | with_reducible apply Dev.setBit_canon
    | with_reducible apply Dev.hw_canon
    | with_reducible apply Dev.nvcClose_canon
    | with_reducible apply Dev.nvcReopen_canon
    | with_reducible apply Dev.flushReq_canon
    | with_reducible apply Dev.crim_canon
    | with_reducible apply Dev.sendFail_canon
    | with_reducible apply Dev.srcCond_canon
    | with_reducible apply canon_ite
    | (extract_lets +onlyGivenNames e; refine canon_have (d := e) ?_ ?_; unfold e; rotate_left; intro; clear_value e; rotate_right)
    | (extract_lets +onlyGivenNames e; clear_value e))

theorem Dev.dieMeasure_canon {d : Dev} (l : List Int) (hd : d.Canon) : Dev.Canon (Dev.dieMeasure d l) := by
  unfold Dev.dieMeasure
  repeat' (first
    | intro _
    | with_reducible assumption
    | with_reducible apply Dev.wr_canon
    | with_reducible apply Dev.sensorSet_canon
    | with_reducible apply Dev.ochreTherm_canon
    | with_reducible apply Dev.crimTherm_canon
    | with_reducible apply canon_ite
    | with_reducible apply canon_foldl
    | with_reducible apply canon_foldl_fst
    | with_reducible apply canon_foldl_snd
    | (unfold Dev.Canon; dsimp only; with_reducible refine canon_fold ?_)
    | (extract_lets +onlyGivenNames e; refine canon_have (d := e) ?_ ?_; unfold e; rotate_left; intro; clear_value e; rotate_right)
    | (extract_lets +onlyGivenNames e; clear_value e)
    | dsimp only)

theorem Dev.testMissed_canon {d : Dev} (n : Nat) (hd : d.Canon) : Dev.Canon (Dev.testMissed d n) := by
  unfold Dev.testMissed
  repeat' (first
    | with_reducible assumption
    | with_reducible apply Dev.fw_canon
    | with_reducible apply canon_ite
    | (unfold Dev.Canon; dsimp only; with_reducible refine canon_fold ?_)
    | (extract_lets +onlyGivenNames e; refine canon_have (d := e) ?_ ?_; unfold e; rotate_left; intro; clear_value e; rotate_right)
    | (extract_lets +onlyGivenNames e; clear_value e))

theorem Dev.limTestAll_canon {d : Dev} (bad : List (Nat × Int)) (hd : d.Canon) : Dev.Canon (Dev.limTestAll d bad) := by
  unfold Dev.limTestAll
  repeat' (first
    | intro _
    | with_reducible assumption
    | with_reducible apply Dev.limTest_canon
    | with_reducible apply canon_ite
    | with_reducible apply canon_foldl
    | with_reducible apply canon_foldl_fst
    | with_reducible apply canon_foldl_snd
    | dsimp only)

theorem Dev.scrub_canon {d : Dev} (hd : d.Canon) : Dev.Canon (Dev.scrub d) := by
  unfold Dev.scrub
  repeat' (first
    | intro _
    | with_reducible assumption
    | with_reducible apply Dev.satInc_canon
    | with_reducible apply canon_foldl
    | (unfold Dev.Canon; dsimp only; with_reducible refine canon_fold ?_)
    | (extract_lets +onlyGivenNames e; refine canon_have (d := e) ?_ ?_; unfold e; rotate_left; intro; clear_value e; rotate_right)
    | (extract_lets +onlyGivenNames e; clear_value e)
    | dsimp only)

theorem Dev.testRun_canon {d : Dev} (n : Nat) (pass : Bool) (vals : List (Nat × Int)) (hd : d.Canon) : Dev.Canon (Dev.testRun d n pass vals) := by
  unfold Dev.testRun
  repeat' (first
    | intro _
    | with_reducible assumption
    | with_reducible apply Dev.wr_canon
    | with_reducible apply Dev.start_canon
    | with_reducible apply Dev.fw_canon
    | with_reducible apply Dev.testMissed_canon
    | with_reducible apply Dev.limTestAll_canon
    | with_reducible apply Dev.scrub_canon
    | with_reducible apply canon_ite
    | with_reducible apply canon_foldl
    | (unfold Dev.Canon; dsimp only; with_reducible refine canon_fold ?_)
    | (extract_lets +onlyGivenNames e; refine canon_have (d := e) ?_ ?_; unfold e; rotate_left; intro; clear_value e; rotate_right)
    | (extract_lets +onlyGivenNames e; clear_value e)
    | dsimp only)

theorem Dev.replan_canon {d : Dev} (q : Nat) (hd : d.Canon) : Dev.Canon (Dev.replan d q) := by
  unfold Dev.replan
  repeat' (first
    | intro _
    | with_reducible assumption
    | with_reducible apply Dev.fw_canon
    | with_reducible apply Dev.sysWr_canon
    | with_reducible apply Dev.sysSetFld_canon
    | with_reducible apply Dev.nextFree_canon
    | with_reducible apply Dev.timHoldTo_canon
    | with_reducible apply canon_ite
    | with_reducible apply canon_foldl
    | with_reducible apply canon_foldl_fst
    | with_reducible apply canon_foldl_snd
    | (unfold Dev.Canon; dsimp only; with_reducible refine canon_fold ?_)
    | (extract_lets +onlyGivenNames e; refine canon_have (d := e) ?_ ?_; unfold e; rotate_left; intro; clear_value e; rotate_right)
    | (extract_lets +onlyGivenNames e; clear_value e)
    | split
    | with_reducible refine canon_snd ?_ (by with_reducible assumption)
    | with_reducible refine canon_fst ?_ (by with_reducible assumption)
    | dsimp only)

theorem Dev.planOne_canon {d : Dev} (count q : Nat) (hd : d.Canon) : Dev.Canon (Dev.planOne d count q).1 := by
  unfold Dev.planOne
  repeat' (first
    | with_reducible assumption
    | with_reducible apply Dev.flag_canon
    | with_reducible apply Dev.fw_canon
    | with_reducible apply Dev.replan_canon
    | with_reducible apply canon_ite
    | with_reducible apply canon_ite_snd
    | with_reducible apply canon_ite_fst
    | (extract_lets +onlyGivenNames e; refine canon_have (d := e) ?_ ?_; unfold e; rotate_left; intro; clear_value e; rotate_right)
    | (extract_lets +onlyGivenNames e; clear_value e)
    | dsimp only)

theorem Dev.ledgerDaily_canon {d : Dev} (hd : d.Canon) : Dev.Canon (Dev.ledgerDaily d) := by
  unfold Dev.ledgerDaily
  repeat' (first
    | intro _
    | with_reducible assumption
    | with_reducible apply Dev.wr_canon
    | with_reducible apply Dev.fw_canon
    | with_reducible apply Dev.mramWrite_canon
    | with_reducible apply Dev.ledgerSave_canon
    | with_reducible apply Dev.planOne_canon
    | with_reducible apply canon_ite
    | with_reducible apply canon_foldl
    | with_reducible apply canon_foldl_fst
    | with_reducible apply canon_foldl_snd
    | (unfold Dev.Canon; dsimp only; with_reducible refine canon_fold ?_)
    | (extract_lets +onlyGivenNames e; refine canon_have (d := e) ?_ ?_; unfold e; rotate_left; intro; clear_value e; rotate_right)
    | (extract_lets +onlyGivenNames e; clear_value e)
    | split
    | with_reducible refine canon_snd ?_ (by with_reducible assumption)
    | with_reducible refine canon_fst ?_ (by with_reducible assumption)
    | dsimp only)

end Sys2Proof.Machine
end

