-- ==== Sys2Proof/Laws/CanonService.lean ====
section
/-! SUPPORT. Every operation of Sys2Proof/Machine/Service.lean keeps the canonical form. -/

set_option Elab.async false
set_option linter.all false

namespace Sys2Proof.Machine

theorem Dev.sessionTouch_canon {d : Dev} (hd : d.Canon) : Dev.Canon (Dev.sessionTouch d) := by
  unfold Dev.sessionTouch
  repeat' (first
    | with_reducible assumption
    | with_reducible apply Dev.setBit_canon
    | with_reducible apply Dev.start_canon)

theorem Dev.sessionEnd_canon {d : Dev} (hd : d.Canon) : Dev.Canon (Dev.sessionEnd d) := by
  unfold Dev.sessionEnd
  repeat' (first
    | with_reducible assumption
    | with_reducible apply Dev.setFld_canon
    | with_reducible apply Dev.setBit_canon
    | with_reducible apply Dev.stop_canon
    | (unfold Dev.Canon; dsimp only; with_reducible refine canon_fold ?_)
    | (extract_lets +onlyGivenNames e; refine canon_have (d := e) ?_ ?_; unfold e; rotate_left; intro; clear_value e; rotate_right)
    | (extract_lets +onlyGivenNames e; clear_value e))

theorem Dev.sessionIdle_canon {d : Dev} (hd : d.Canon) : Dev.Canon (Dev.sessionIdle d) := by
  unfold Dev.sessionIdle
  repeat' (first
    | with_reducible assumption
    | with_reducible apply Dev.sessionEnd_canon
    | with_reducible apply canon_ite
    | (extract_lets +onlyGivenNames e; refine canon_have (d := e) ?_ ?_; unfold e; rotate_left; intro; clear_value e; rotate_right)
    | (extract_lets +onlyGivenNames e; clear_value e))

theorem Dev.respond_canon {d : Dev} (cmd tag status : Nat) (l : List Byte) (hd : d.Canon) : Dev.Canon (Dev.respond d cmd tag status l) := by
  unfold Dev.respond
  repeat' (first
    | with_reducible assumption
    | with_reducible apply Dev.send_canon)

theorem Dev.serve_canon {d : Dev} (cmd : Nat) (tag : BitVec 16) (level : Nat) (rom : Bool) (f : Dev → Nat × List Byte × Dev) (hd : d.Canon) (hf : ∀ x0, x0.Canon → Dev.Canon (f x0).2.2) : Dev.Canon (Dev.serve d cmd tag level rom f) := by
  unfold Dev.serve
  repeat' (first
    | intro _
    | with_reducible assumption
    | with_reducible apply Dev.sessionTouch_canon
    | with_reducible apply Dev.respond_canon
    | with_reducible apply hf
    | with_reducible apply canon_ite
    | with_reducible apply canon_ite_snd
    | with_reducible apply canon_ite_fst
    | (extract_lets +onlyGivenNames e; refine canon_have (d := e) ?_ ?_; unfold e; rotate_left; intro; clear_value e; rotate_right)
    | (extract_lets +onlyGivenNames e; clear_value e)
    | split
    | with_reducible refine canon_snd ?_ (by with_reducible assumption)
    | with_reducible refine canon_fst ?_ (by with_reducible assumption)
    | dsimp only)

theorem done_canon (f : Dev → Dev) {d : Dev} (hd : d.Canon) (hf : ∀ x0, x0.Canon → Dev.Canon (f x0)) : Dev.Canon (done f d).2.2 := by
  unfold done
  repeat' (first
    | intro _
    | with_reducible assumption
    | with_reducible apply hf
    | dsimp only)

theorem judged_canon (f : Dev → Nat × Dev) {d : Dev} (hd : d.Canon) (hf : ∀ x0, x0.Canon → Dev.Canon (f x0).2) : Dev.Canon (judged f d).2.2 := by
  unfold judged
  repeat' (first
    | intro _
    | with_reducible assumption
    | with_reducible apply hf
    | dsimp only)

theorem Dev.readRegs_canon {d : Dev} (a : Nat) (y0 : Nat) (y1 : List Word) (hd : d.Canon) : Dev.Canon (Dev.readRegs d a y0 y1).2 := by
  induction y0 generalizing d a y1 with
  | zero =>
    unfold Dev.readRegs
    repeat' (first
      | with_reducible assumption
      | with_reducible apply Dev.periphRead_canon
      | (extract_lets +onlyGivenNames e; refine canon_have (d := e) ?_ ?_; unfold e; rotate_left; intro; clear_value e; rotate_right)
      | (extract_lets +onlyGivenNames e; clear_value e)
      | split
      | with_reducible refine canon_snd ?_ (by with_reducible assumption)
      | with_reducible refine canon_fst ?_ (by with_reducible assumption)
      | dsimp only)
  | succ k ih =>
    unfold Dev.readRegs
    repeat' (first
      | with_reducible assumption
      | with_reducible apply Dev.periphRead_canon
      | with_reducible apply ih
      | (extract_lets +onlyGivenNames e; refine canon_have (d := e) ?_ ?_; unfold e; rotate_left; intro; clear_value e; rotate_right)
      | (extract_lets +onlyGivenNames e; clear_value e)
      | split
      | with_reducible refine canon_snd ?_ (by with_reducible assumption)
      | with_reducible refine canon_fst ?_ (by with_reducible assumption)
      | dsimp only)

theorem Dev.readReg_canon {d : Dev} (a n : Nat) (hd : d.Canon) : Dev.Canon (Dev.readReg d a n).2.2 := by
  unfold Dev.readReg
  repeat' (first
    | intro _
    | with_reducible assumption
    | with_reducible apply Dev.readRegs_canon
    | with_reducible apply canon_ite
    | with_reducible apply canon_ite_snd
    | with_reducible apply canon_ite_fst
    | (extract_lets +onlyGivenNames e; refine canon_have (d := e) ?_ ?_; unfold e; rotate_left; intro; clear_value e; rotate_right)
    | (extract_lets +onlyGivenNames e; clear_value e)
    | split
    | with_reducible refine canon_snd ?_ (by with_reducible assumption)
    | with_reducible refine canon_fst ?_ (by with_reducible assumption)
    | dsimp only)

theorem Dev.readMem_canon {d : Dev} (a n : Nat) (hd : d.Canon) : Dev.Canon (Dev.readMem d a n).2.2 := by
  unfold Dev.readMem
  repeat' (first
    | intro _
    | with_reducible assumption
    | with_reducible apply canon_ite
    | with_reducible apply canon_ite_snd
    | with_reducible apply canon_ite_fst
    | with_reducible apply canon_foldl
    | with_reducible apply canon_foldl_fst
    | with_reducible apply canon_foldl_snd
    | (unfold Dev.Canon; dsimp only; with_reducible refine canon_fold ?_)
    | (extract_lets +onlyGivenNames d1; refine canon_have (d := d1) ?_ ?_; unfold d1; rotate_left; intro hd1; clear_value d1; rotate_right)
    | (extract_lets +onlyGivenNames d1; clear_value d1)
    | split
    | with_reducible refine canon_snd ?_ (by with_reducible assumption)
    | with_reducible refine canon_fst ?_ (by with_reducible assumption)
    | dsimp only)

theorem Dev.writeReg_canon {d : Dev} (a : Nat) (l : List Word) (hd : d.Canon) : Dev.Canon (Dev.writeReg d a l).2.2 := by
  unfold Dev.writeReg
  repeat' (first
    | intro _
    | with_reducible assumption
    | with_reducible apply Dev.periphWrite_canon
    | with_reducible apply canon_ite
    | with_reducible apply canon_ite_snd
    | with_reducible apply canon_ite_fst
    | with_reducible apply canon_foldl
    | with_reducible apply canon_foldl_fst
    | with_reducible apply canon_foldl_snd
    | (unfold Dev.Canon; dsimp only; with_reducible refine canon_fold ?_)
    | (extract_lets +onlyGivenNames d1; refine canon_have (d := d1) ?_ ?_; unfold d1; rotate_left; intro hd1; clear_value d1; rotate_right)
    | (extract_lets +onlyGivenNames d1; clear_value d1)
    | split
    | with_reducible refine canon_snd ?_ (by with_reducible assumption)
    | with_reducible refine canon_fst ?_ (by with_reducible assumption)
    | dsimp only)

theorem Dev.paramRead_canon {d : Dev} (n : Nat) (hd : d.Canon) : Dev.Canon (Dev.paramRead d n).2.2 := by
  unfold Dev.paramRead
  repeat' (first
    | intro _
    | with_reducible assumption
    | with_reducible apply canon_ite
    | with_reducible apply canon_ite_snd
    | with_reducible apply canon_ite_fst
    | with_reducible apply canon_foldl
    | with_reducible apply canon_foldl_fst
    | with_reducible apply canon_foldl_snd
    | (unfold Dev.Canon; dsimp only; with_reducible refine canon_fold ?_)
    | (extract_lets +onlyGivenNames d1; refine canon_have (d := d1) ?_ ?_; unfold d1; rotate_left; intro hd1; clear_value d1; rotate_right)
    | (extract_lets +onlyGivenNames d1; clear_value d1)
    | split
    | with_reducible refine canon_snd ?_ (by with_reducible assumption)
    | with_reducible refine canon_fst ?_ (by with_reducible assumption)
    | dsimp only)

theorem Dev.svcOpen_canon {d : Dev} (level : Nat) (hd : d.Canon) : Dev.Canon (Dev.svcOpen d level).2.2 := by
  unfold Dev.svcOpen
  repeat' (first
    | intro _
    | with_reducible assumption
    | with_reducible apply Dev.nextFree_canon
    | with_reducible apply canon_ite
    | with_reducible apply canon_ite_snd
    | with_reducible apply canon_ite_fst
    | (unfold Dev.Canon; dsimp only; with_reducible refine canon_fold ?_)
    | (extract_lets +onlyGivenNames e; refine canon_have (d := e) ?_ ?_; unfold e; rotate_left; intro; clear_value e; rotate_right)
    | (extract_lets +onlyGivenNames e; clear_value e)
    | split
    | with_reducible refine canon_snd ?_ (by with_reducible assumption)
    | with_reducible refine canon_fst ?_ (by with_reducible assumption)
    | dsimp only)

theorem Dev.svcAuth_canon {d : Dev} (k : Nat) (xy rs : List Byte) (hd : d.Canon) : Dev.Canon (Dev.svcAuth d k xy rs).2.2 := by
  unfold Dev.svcAuth
  repeat' (first
    | with_reducible assumption
    | with_reducible apply Dev.setFld_canon
    | with_reducible apply Dev.fw_canon
    | with_reducible apply canon_ite
    | with_reducible apply canon_ite_snd
    | with_reducible apply canon_ite_fst
    | (unfold Dev.Canon; dsimp only; with_reducible refine canon_fold ?_)
    | (extract_lets +onlyGivenNames e; refine canon_have (d := e) ?_ ?_; unfold e; rotate_left; intro; clear_value e; rotate_right)
    | (extract_lets +onlyGivenNames e; clear_value e)
    | split
    | with_reducible refine canon_snd ?_ (by with_reducible assumption)
    | with_reducible refine canon_fst ?_ (by with_reducible assumption)
    | dsimp only)

theorem Dev.progKey_canon {d : Dev} (k : Nat) (hash : List Byte) (hd : d.Canon) : Dev.Canon (Dev.progKey d k hash).2 := by
  unfold Dev.progKey
  repeat' (first
    | with_reducible assumption
    | with_reducible apply Dev.setBit_canon
    | with_reducible apply Dev.fw_canon
    | with_reducible apply canon_ite
    | with_reducible apply canon_ite_snd
    | with_reducible apply canon_ite_fst
    | (unfold Dev.Canon; dsimp only; with_reducible refine canon_fold ?_)
    | (extract_lets +onlyGivenNames e; refine canon_have (d := e) ?_ ?_; unfold e; rotate_left; intro; clear_value e; rotate_right)
    | (extract_lets +onlyGivenNames e; clear_value e)
    | dsimp only)

theorem Dev.revoke_canon {d : Dev} (k j : Nat) (xy rs : List Byte) (hd : d.Canon) : Dev.Canon (Dev.revoke d k j xy rs).2 := by
  unfold Dev.revoke
  repeat' (first
    | intro _
    | with_reducible assumption
    | with_reducible apply Dev.setBit_canon
    | with_reducible apply Dev.fw_canon
    | with_reducible apply canon_ite
    | with_reducible apply canon_ite_snd
    | with_reducible apply canon_ite_fst
    | dsimp only)

theorem Dev.forceEntry_canon {d : Dev} (n : Nat) (w0 w1 w2 w3 : Word) (hd : d.Canon) : Dev.Canon (Dev.forceEntry d n w0 w1 w2 w3) := by
  unfold Dev.forceEntry
  repeat' (first
    | with_reducible assumption
    | with_reducible apply Dev.forceWrite_canon)

theorem Dev.svcStart_canon {d : Dev} (hd : d.Canon) : Dev.Canon (Dev.svcStart d).2 := by
  unfold Dev.svcStart
  repeat' (first
    | with_reducible assumption
    | with_reducible apply Dev.progStart_canon
    | with_reducible apply canon_ite
    | with_reducible apply canon_ite_snd
    | with_reducible apply canon_ite_fst
    | dsimp only)

theorem Dev.svcClear_canon {d : Dev} (mask : Word) (hd : d.Canon) : Dev.Canon (Dev.svcClear d mask) := by
  unfold Dev.svcClear
  repeat' (first
    | with_reducible assumption
    | with_reducible apply Dev.discard_canon
    | with_reducible apply Dev.tripClear_canon
    | with_reducible apply canon_ite)

theorem Dev.svcTransport_canon {d : Dev} (hd : d.Canon) : Dev.Canon (Dev.svcTransport d).2 := by
  unfold Dev.svcTransport
  repeat' (first
    | with_reducible assumption
    | with_reducible apply Dev.transReq_canon
    | with_reducible apply canon_ite
    | with_reducible apply canon_ite_snd
    | with_reducible apply canon_ite_fst
    | dsimp only)

theorem Dev.transportClear_canon {d : Dev} (hd : d.Canon) : Dev.Canon (Dev.transportClear d) := by
  unfold Dev.transportClear
  repeat' (first
    | with_reducible assumption
    | with_reducible apply Dev.stoAsk_canon
    | (unfold Dev.Canon; dsimp only; with_reducible refine canon_fold ?_)
    | (extract_lets +onlyGivenNames e; refine canon_have (d := e) ?_ ?_; unfold e; rotate_left; intro; clear_value e; rotate_right)
    | (extract_lets +onlyGivenNames e; clear_value e))

theorem Dev.twinCfg_canon {d : Dev} (ctl : Bool) (v : Word) (hd : d.Canon) : Dev.Canon (Dev.twinCfg d ctl v).2 := by
  unfold Dev.twinCfg
  repeat' (first
    | with_reducible assumption
    | with_reducible apply Dev.plainWrite_canon
    | with_reducible apply Dev.twCtl_canon
    | with_reducible apply canon_ite
    | with_reducible apply canon_ite_snd
    | with_reducible apply canon_ite_fst
    | dsimp only)

theorem Dev.recoveryAsk_canon {d : Dev} (tag : BitVec 16) (hd : d.Canon) : Dev.Canon (Dev.recoveryAsk d tag) := by
  unfold Dev.recoveryAsk
  repeat' (first
    | intro _
    | with_reducible assumption
    | with_reducible apply Dev.resetAsk_canon
    | with_reducible apply Dev.sessionTouch_canon
    | with_reducible apply Dev.respond_canon
    | with_reducible apply Dev.serve_canon
    | with_reducible apply done_canon
    | with_reducible apply canon_ite
    | dsimp only)

end Sys2Proof.Machine
end

