-- ==== Sys2Proof/Laws/CanonSystem.lean ====
section
/-! SUPPORT. Every operation of Sys2Proof/Machine/System.lean keeps the canonical form. -/

set_option Elab.async false
set_option linter.all false

namespace Sys2Proof.Machine

theorem Dev.specOp_canon {d : Dev} (p : Pair) (n : Nat) (userOk : Bool) (rd : Option GReg) (f : CoreSt → CoreSt) (hd : d.Canon) : Dev.Canon (Dev.specOp d p n userOk rd f) := by
  unfold Dev.specOp
  repeat' (first
    | intro _
    | with_reducible assumption
    | with_reducible apply Dev.setCore_canon
    | with_reducible apply Dev.raise_canon
    | with_reducible apply Dev.issue_canon
    | with_reducible apply canon_ite
    | (extract_lets +onlyGivenNames e; refine canon_have (d := e) ?_ ?_; unfold e; rotate_left; intro; clear_value e; rotate_right)
    | (extract_lets +onlyGivenNames e; clear_value e)
    | split
    | with_reducible refine canon_snd ?_ (by with_reducible assumption)
    | with_reducible refine canon_fst ?_ (by with_reducible assumption)
    | dsimp only)

end Sys2Proof.Machine
end

