-- ==== Sys2Proof/Laws/CanonExec.lean ====
section
/-! SUPPORT. Every command keeps the canonical form of memory and registers: one lemma for each meaning. -/

set_option Elab.async false
set_option linter.all false

namespace Sys2Proof.Machine

theorem State.lift_keeps {s t : State} {F : Dev → Dev} (hF : ∀ d : Dev, d.Canon → (F d).Canon) (h : s.dev.Canon)
    (ht : s.lift F = .next t) : t.dev.Canon := by
  simp only [State.lift, State.always, Host.Outcome.next.injEq] at ht
  subst ht
  show Dev.Canon (if _ then _ else _)
  split
  · exact h
  · exact hF _ h

theorem State.always_keeps {s t : State} {F : Dev → Dev} (hF : ∀ d : Dev, d.Canon → (F d).Canon) (h : s.dev.Canon)
    (ht : s.always F = .next t) : t.dev.Canon := by
  simp only [State.always, Host.Outcome.next.injEq] at ht
  subst ht
  exact hF _ h

theorem keep_execBlankenChange (src : Writer) (v : Word) (s : State) {t : State} (hc : s.dev.Canon) (ht :
    execBlankenChange src v s = .next t) : t.dev.Canon := by
  unfold execBlankenChange at ht
  refine State.lift_keeps (fun d hd => ?_) hc ht
  repeat' first
    | intro _
    | with_reducible assumption
    | with_reducible apply Dev.balCtl_canon
    | with_reducible apply Dev.gate_canon

theorem keep_execBalCmdWrite (src : Writer) (k : BitVec 6) (v : Word) (s : State) {t : State} (hc : s.dev.Canon) (ht
    : execBalCmdWrite src k v s = .next t) : t.dev.Canon := by
  unfold execBalCmdWrite at ht
  refine State.lift_keeps (fun d hd => ?_) hc ht
  repeat' first
    | intro _
    | with_reducible assumption
    | with_reducible apply Dev.balCmdWrite_canon
    | with_reducible apply Dev.gate_canon
    | with_reducible apply canon_ite
    | split

theorem keep_execCommanderTimeout (s : State) {t : State} (hc : s.dev.Canon) (ht : execCommanderTimeout s = .next t)
    : t.dev.Canon := by
  unfold execCommanderTimeout at ht
  refine State.lift_keeps (fun d hd => ?_) hc ht
  repeat' first
    | with_reducible assumption
    | with_reducible apply Dev.commanderTimeout_canon

theorem keep_execBalanceSend (off : BitVec 48) (s : State) {t : State} (hc : s.dev.Canon) (ht : execBalanceSend off s
    = .next t) : t.dev.Canon := by
  unfold execBalanceSend at ht
  refine State.lift_keeps (fun d hd => ?_) hc ht
  repeat' first
    | with_reducible assumption
    | with_reducible apply Dev.balanceSend_canon

theorem keep_execLearningGo (src : Writer) (v : Word) (s : State) {t : State} (hc : s.dev.Canon) (ht : execLearningGo
    src v s = .next t) : t.dev.Canon := by
  unfold execLearningGo at ht
  refine State.lift_keeps (fun d hd => ?_) hc ht
  repeat' first
    | intro _
    | with_reducible assumption
    | with_reducible apply Dev.gate_canon
    | with_reducible apply Dev.lrnWrite_canon

theorem keep_execLeaveConfiguration (src : Writer) (x : BitVec 1) (v : Word) (s : State) {t : State} (hc :
    s.dev.Canon) (ht : execLeaveConfiguration src x v s = .next t) : t.dev.Canon := by
  unfold execLeaveConfiguration at ht
  refine State.lift_keeps (fun d hd => ?_) hc ht
  repeat' first
    | intro _
    | with_reducible assumption
    | with_reducible apply Dev.canCtl_canon
    | with_reducible apply Dev.gate_canon

theorem keep_execBusIntegrated (x : BitVec 1) (s : State) {t : State} (hc : s.dev.Canon) (ht : execBusIntegrated x s
    = .next t) : t.dev.Canon := by
  unfold execBusIntegrated at ht
  refine State.lift_keeps (fun d hd => ?_) hc ht
  repeat' first
    | with_reducible assumption
    | with_reducible apply Dev.canIntegrated_canon

theorem keep_execCanFrameReceive (x : BitVec 1) (ide fdf brs esi rtr : Bool) (id : BitVec 29) (dlc : BitVec 4) (data
    : List Byte)
    (s : State) {t : State} (hc : s.dev.Canon) (ht : execCanFrameReceive x ide fdf brs esi rtr id
    dlc data s = .next t) : t.dev.Canon := by
  unfold execCanFrameReceive at ht
  refine State.lift_keeps (fun d hd => ?_) hc ht
  repeat' first
    | with_reducible assumption
    | with_reducible apply Dev.canReceive_canon

theorem keep_execRdsel (src : Writer) (x : BitVec 1) (v : Word) (s : State) {t : State} (hc : s.dev.Canon) (ht :
    execRdsel src x v s = .next t) : t.dev.Canon := by
  unfold execRdsel at ht
  refine State.lift_keeps (fun d hd => ?_) hc ht
  repeat' first
    | intro _
    | with_reducible assumption
    | with_reducible apply Dev.canRdsel_canon
    | with_reducible apply Dev.gate_canon

theorem keep_execTxreq (src : Writer) (x : BitVec 1) (k : BitVec 2) (v : Word) (s : State) {t : State} (hc :
    s.dev.Canon) (ht : execTxreq src x k v s = .next t) : t.dev.Canon := by
  unfold execTxreq at ht
  refine State.lift_keeps (fun d hd => ?_) hc ht
  repeat' first
    | intro _
    | with_reducible assumption
    | with_reducible apply Dev.canTxreq_canon
    | with_reducible apply Dev.gate_canon

theorem keep_execTxcan (src : Writer) (x : BitVec 1) (k : BitVec 2) (v : Word) (onBus : Option (BitVec 7)) (s :
    State) {t : State} (hc : s.dev.Canon) (ht : execTxcan src x k v onBus s = .next t) : t.dev.Canon := by
  unfold execTxcan at ht
  refine State.lift_keeps (fun d hd => ?_) hc ht
  repeat' first
    | intro _
    | with_reducible assumption
    | with_reducible apply Dev.canTxcan_canon
    | with_reducible apply Dev.gate_canon

theorem keep_execCanAttemptEnd (x : BitVec 1) (ago : Word) (tdcv : BitVec 7) (err : Option (BitVec 3 × Bool × Byte))
    (s : State) {t : State} (hc : s.dev.Canon) (ht : execCanAttemptEnd x ago tdcv err s = .next t) : t.dev.Canon := by
  unfold execCanAttemptEnd at ht
  refine State.lift_keeps (fun d hd => ?_) hc ht
  repeat' first
    | with_reducible assumption
    | with_reducible apply Dev.canAttempt_canon

theorem keep_execRecover (src : Writer) (x : BitVec 1) (v : Word) (s : State) {t : State} (hc : s.dev.Canon) (ht :
    execRecover src x v s = .next t) : t.dev.Canon := by
  unfold execRecover at ht
  refine State.lift_keeps (fun d hd => ?_) hc ht
  repeat' first
    | intro _
    | with_reducible assumption
    | with_reducible apply Dev.canCtl_canon
    | with_reducible apply Dev.gate_canon

theorem keep_execBusOffRecoveryDone (x : BitVec 1) (s : State) {t : State} (hc : s.dev.Canon) (ht :
    execBusOffRecoveryDone x s = .next t) : t.dev.Canon := by
  unfold execBusOffRecoveryDone at ht
  refine State.lift_keeps (fun d hd => ?_) hc ht
  repeat' first
    | with_reducible assumption
    | with_reducible apply Dev.canRecovered_canon

theorem keep_execCanStatRead (x : BitVec 1) (s : State) {t : State} (hc : s.dev.Canon) (ht : execCanStatRead x s =
    .next t) : t.dev.Canon := by
  unfold execCanStatRead at ht
  refine State.lift_keeps (fun d hd => ?_) hc ht
  repeat' first
    | with_reducible assumption
    | with_reducible apply Dev.canStatRead_canon

theorem keep_execCanReceiveError (x : BitVec 1) (code : BitVec 3) (data : Bool) (rise : BitVec 2) (s : State) {t :
    State} (hc : s.dev.Canon) (ht : execCanReceiveError x code data rise s = .next t) : t.dev.Canon := by
  unfold execCanReceiveError at ht
  refine State.lift_keeps (fun d hd => ?_) hc ht
  repeat' first
    | with_reducible assumption
    | with_reducible apply Dev.canRxError_canon

theorem keep_execSlotTrigger (sl : BitVec 3) (s : State) {t : State} (hc : s.dev.Canon) (ht : execSlotTrigger sl s =
    .next t) : t.dev.Canon := by
  unfold execSlotTrigger at ht
  refine State.lift_keeps (fun d hd => ?_) hc ht
  repeat' first
    | with_reducible assumption
    | with_reducible apply Dev.slotEventTake_canon

theorem keep_execSlowTimerExpiry (sl : BitVec 3) (s : State) {t : State} (hc : s.dev.Canon) (ht : execSlowTimerExpiry
    sl s = .next t) : t.dev.Canon := by
  unfold execSlowTimerExpiry at ht
  refine State.lift_keeps (fun d hd => ?_) hc ht
  repeat' first
    | with_reducible assumption
    | with_reducible apply Dev.slowTimer_canon

theorem keep_execSlotComplete (sl : BitVec 3) (s : State) {t : State} (hc : s.dev.Canon) (ht : execSlotComplete sl s
    = .next t) : t.dev.Canon := by
  unfold execSlotComplete at ht
  refine State.lift_keeps (fun d hd => ?_) hc ht
  repeat' first
    | with_reducible assumption
    | with_reducible apply Dev.slotComplete_canon

theorem keep_execSlotFaultClear (src : Writer) (v : Word) (s : State) {t : State} (hc : s.dev.Canon) (ht :
    execSlotFaultClear src v s = .next t) : t.dev.Canon := by
  unfold execSlotFaultClear at ht
  refine State.lift_keeps (fun d hd => ?_) hc ht
  repeat' first
    | intro _
    | with_reducible assumption
    | with_reducible apply Dev.fltClr_canon
    | with_reducible apply Dev.gate_canon

theorem keep_execCeKick (src : Writer) (v : Word) (s : State) {t : State} (hc : s.dev.Canon) (ht : execCeKick src v s
    = .next t) : t.dev.Canon := by
  unfold execCeKick at ht
  refine State.lift_keeps (fun d hd => ?_) hc ht
  repeat' first
    | intro _
    | with_reducible assumption
    | with_reducible apply Dev.gate_canon
    | with_reducible apply Dev.kick_canon

theorem keep_execSlotDescriptorCommit (src : Writer) (sl : BitVec 3) (v : Word) (s : State) {t : State} (hc :
    s.dev.Canon) (ht : execSlotDescriptorCommit src sl v s = .next t) : t.dev.Canon := by
  unfold execSlotDescriptorCommit at ht
  refine State.lift_keeps (fun d hd => ?_) hc ht
  repeat' first
    | intro _
    | with_reducible assumption
    | with_reducible apply Dev.gate_canon
    | with_reducible apply Dev.slotWrite_canon

theorem keep_execTestInjectionGo (src : Writer) (v : Word) (s : State) {t : State} (hc : s.dev.Canon) (ht :
    execTestInjectionGo src v s = .next t) : t.dev.Canon := by
  unfold execTestInjectionGo at ht
  refine State.lift_keeps (fun d hd => ?_) hc ht
  repeat' first
    | intro _
    | with_reducible assumption
    | with_reducible apply Dev.gate_canon
    | with_reducible apply Dev.tinjWrite_canon

theorem keep_execTestInjectionStop (src : Writer) (v : Word) (s : State) {t : State} (hc : s.dev.Canon) (ht :
    execTestInjectionStop src v s = .next t) : t.dev.Canon := by
  unfold execTestInjectionStop at ht
  refine State.lift_keeps (fun d hd => ?_) hc ht
  repeat' first
    | intro _
    | with_reducible assumption
    | with_reducible apply Dev.gate_canon
    | with_reducible apply Dev.tinjWrite_canon

theorem keep_execTraceArm (src : Writer) (v : Word) (s : State) {t : State} (hc : s.dev.Canon) (ht : execTraceArm src
    v s = .next t) : t.dev.Canon := by
  unfold execTraceArm at ht
  refine State.lift_keeps (fun d hd => ?_) hc ht
  repeat' first
    | intro _
    | with_reducible assumption
    | with_reducible apply Dev.gate_canon
    | with_reducible apply Dev.trcCtl_canon

theorem keep_execTraceForce (src : Writer) (v : Word) (s : State) {t : State} (hc : s.dev.Canon) (ht : execTraceForce
    src v s = .next t) : t.dev.Canon := by
  unfold execTraceForce at ht
  refine State.lift_keeps (fun d hd => ?_) hc ht
  repeat' first
    | intro _
    | with_reducible assumption
    | with_reducible apply Dev.gate_canon
    | with_reducible apply Dev.trcCtl_canon

theorem keep_execCyend (p : Pair) (s : State) {t : State} (hc : s.dev.Canon) (ht : execCyend p s = .next t) :
    t.dev.Canon := by
  unfold execCyend at ht
  refine State.lift_keeps (fun d hd => ?_) hc ht
  repeat' first
    | intro _
    | with_reducible assumption
    | with_reducible apply Dev.cycOp_canon
    | with_reducible apply Dev.cycleEnd_canon
    | (unfold done; dsimp only)
    | (unfold judged; dsimp only)
    | with_reducible apply canon_ite
    | with_reducible apply canon_ite_snd
    | with_reducible apply canon_ite_fst
    | with_reducible apply canon_foldl
    | with_reducible apply canon_foldl_fst
    | with_reducible apply canon_foldl_snd
    | (unfold Dev.Canon; dsimp only; with_reducible refine canon_fold ?_)
    | (extract_lets +onlyGivenNames d1; refine canon_have (d := d1) ?_ ?_; unfold d1; rotate_left; intro hd1; clear_value d1; rotate_right)
    | (extract_lets +onlyGivenNames d1; clear_value d1)
    | split
    | with_reducible refine canon_snd ?_ (by with_reducible assumption)
    | with_reducible refine canon_fst ?_ (by with_reducible assumption)
    | dsimp only

theorem keep_execSyscallSccClose (s : State) {t : State} (hc : s.dev.Canon) (ht : execSyscallSccClose s = .next t) :
    t.dev.Canon := by
  unfold execSyscallSccClose at ht
  refine State.lift_keeps (fun d hd => ?_) hc ht
  repeat' first
    | with_reducible assumption
    | with_reducible apply Dev.sysCall_canon

theorem keep_execSyscallSccOpen (s : State) {t : State} (hc : s.dev.Canon) (ht : execSyscallSccOpen s = .next t) :
    t.dev.Canon := by
  unfold execSyscallSccOpen at ht
  refine State.lift_keeps (fun d hd => ?_) hc ht
  repeat' first
    | with_reducible assumption
    | with_reducible apply Dev.sysCall_canon

theorem keep_execSyscallSccAck (s : State) {t : State} (hc : s.dev.Canon) (ht : execSyscallSccAck s = .next t) :
    t.dev.Canon := by
  unfold execSyscallSccAck at ht
  refine State.lift_keeps (fun d hd => ?_) hc ht
  repeat' first
    | with_reducible assumption
    | with_reducible apply Dev.sysCall_canon

theorem keep_execSyscallStoreroom (s : State) {t : State} (hc : s.dev.Canon) (ht : execSyscallStoreroom s = .next t)
    : t.dev.Canon := by
  unfold execSyscallStoreroom at ht
  refine State.lift_keeps (fun d hd => ?_) hc ht
  repeat' first
    | with_reducible assumption
    | with_reducible apply Dev.sysCall_canon

theorem keep_execSyscallTransport (s : State) {t : State} (hc : s.dev.Canon) (ht : execSyscallTransport s = .next t)
    : t.dev.Canon := by
  unfold execSyscallTransport at ht
  refine State.lift_keeps (fun d hd => ?_) hc ht
  repeat' first
    | with_reducible assumption
    | with_reducible apply Dev.sysCall_canon

theorem keep_execSyscallRelease (s : State) {t : State} (hc : s.dev.Canon) (ht : execSyscallRelease s = .next t) :
    t.dev.Canon := by
  unfold execSyscallRelease at ht
  refine State.lift_keeps (fun d hd => ?_) hc ht
  repeat' first
    | with_reducible assumption
    | with_reducible apply Dev.sysCall_canon

theorem keep_execSyscallRecord (s : State) {t : State} (hc : s.dev.Canon) (ht : execSyscallRecord s = .next t) :
    t.dev.Canon := by
  unfold execSyscallRecord at ht
  refine State.lift_keeps (fun d hd => ?_) hc ht
  repeat' first
    | with_reducible assumption
    | with_reducible apply Dev.sysCall_canon

theorem keep_execOnlineChangeSwitch (s : State) {t : State} (hc : s.dev.Canon) (ht : execOnlineChangeSwitch s = .next
    t) : t.dev.Canon := by
  unfold execOnlineChangeSwitch at ht
  refine State.lift_keeps (fun d hd => ?_) hc ht
  repeat' first
    | with_reducible assumption
    | with_reducible apply Dev.switchRun_canon

theorem keep_execVadd (p : Pair) (vd va : VReg) (s2 : VSrc) (k : VMask) (s : State) {t : State} (hc : s.dev.Canon)
    (ht : execVadd p vd va s2 k s = .next t) : t.dev.Canon := by
  unfold execVadd at ht
  refine State.lift_keeps (fun d hd => ?_) hc ht
  repeat' first
    | with_reducible assumption
    | with_reducible apply Dev.vvv_canon

theorem keep_execVsub (p : Pair) (vd va : VReg) (s2 : VSrc) (k : VMask) (s : State) {t : State} (hc : s.dev.Canon)
    (ht : execVsub p vd va s2 k s = .next t) : t.dev.Canon := by
  unfold execVsub at ht
  refine State.lift_keeps (fun d hd => ?_) hc ht
  repeat' first
    | with_reducible assumption
    | with_reducible apply Dev.vvv_canon

theorem keep_execVand (p : Pair) (vd va : VReg) (s2 : VSrc) (k : VMask) (s : State) {t : State} (hc : s.dev.Canon)
    (ht : execVand p vd va s2 k s = .next t) : t.dev.Canon := by
  unfold execVand at ht
  refine State.lift_keeps (fun d hd => ?_) hc ht
  repeat' first
    | with_reducible assumption
    | with_reducible apply Dev.vvv_canon

theorem keep_execVor (p : Pair) (vd va : VReg) (s2 : VSrc) (k : VMask) (s : State) {t : State} (hc : s.dev.Canon) (ht
    : execVor p vd va s2 k s = .next t) : t.dev.Canon := by
  unfold execVor at ht
  refine State.lift_keeps (fun d hd => ?_) hc ht
  repeat' first
    | with_reducible assumption
    | with_reducible apply Dev.vvv_canon

theorem keep_execVxor (p : Pair) (vd va : VReg) (s2 : VSrc) (k : VMask) (s : State) {t : State} (hc : s.dev.Canon)
    (ht : execVxor p vd va s2 k s = .next t) : t.dev.Canon := by
  unfold execVxor at ht
  refine State.lift_keeps (fun d hd => ?_) hc ht
  repeat' first
    | with_reducible assumption
    | with_reducible apply Dev.vvv_canon

theorem keep_execVsll (p : Pair) (vd va : VReg) (s2 : VSrc) (k : VMask) (s : State) {t : State} (hc : s.dev.Canon)
    (ht : execVsll p vd va s2 k s = .next t) : t.dev.Canon := by
  unfold execVsll at ht
  refine State.lift_keeps (fun d hd => ?_) hc ht
  repeat' first
    | with_reducible assumption
    | with_reducible apply Dev.vvv_canon

theorem keep_execVsrl (p : Pair) (vd va : VReg) (s2 : VSrc) (k : VMask) (s : State) {t : State} (hc : s.dev.Canon)
    (ht : execVsrl p vd va s2 k s = .next t) : t.dev.Canon := by
  unfold execVsrl at ht
  refine State.lift_keeps (fun d hd => ?_) hc ht
  repeat' first
    | with_reducible assumption
    | with_reducible apply Dev.vvv_canon

theorem keep_execVsra (p : Pair) (vd va : VReg) (s2 : VSrc) (k : VMask) (s : State) {t : State} (hc : s.dev.Canon)
    (ht : execVsra p vd va s2 k s = .next t) : t.dev.Canon := by
  unfold execVsra at ht
  refine State.lift_keeps (fun d hd => ?_) hc ht
  repeat' first
    | with_reducible assumption
    | with_reducible apply Dev.vvv_canon

theorem keep_execVmin (p : Pair) (vd va : VReg) (s2 : VSrc) (k : VMask) (s : State) {t : State} (hc : s.dev.Canon)
    (ht : execVmin p vd va s2 k s = .next t) : t.dev.Canon := by
  unfold execVmin at ht
  refine State.lift_keeps (fun d hd => ?_) hc ht
  repeat' first
    | with_reducible assumption
    | with_reducible apply Dev.vvv_canon

theorem keep_execVmax (p : Pair) (vd va : VReg) (s2 : VSrc) (k : VMask) (s : State) {t : State} (hc : s.dev.Canon)
    (ht : execVmax p vd va s2 k s = .next t) : t.dev.Canon := by
  unfold execVmax at ht
  refine State.lift_keeps (fun d hd => ?_) hc ht
  repeat' first
    | with_reducible assumption
    | with_reducible apply Dev.vvv_canon

theorem keep_execVminu (p : Pair) (vd va : VReg) (s2 : VSrc) (k : VMask) (s : State) {t : State} (hc : s.dev.Canon)
    (ht : execVminu p vd va s2 k s = .next t) : t.dev.Canon := by
  unfold execVminu at ht
  refine State.lift_keeps (fun d hd => ?_) hc ht
  repeat' first
    | with_reducible assumption
    | with_reducible apply Dev.vvv_canon

theorem keep_execVmaxu (p : Pair) (vd va : VReg) (s2 : VSrc) (k : VMask) (s : State) {t : State} (hc : s.dev.Canon)
    (ht : execVmaxu p vd va s2 k s = .next t) : t.dev.Canon := by
  unfold execVmaxu at ht
  refine State.lift_keeps (fun d hd => ?_) hc ht
  repeat' first
    | with_reducible assumption
    | with_reducible apply Dev.vvv_canon

theorem keep_execVadds (p : Pair) (vd va : VReg) (s2 : VSrc) (k : VMask) (s : State) {t : State} (hc : s.dev.Canon)
    (ht : execVadds p vd va s2 k s = .next t) : t.dev.Canon := by
  unfold execVadds at ht
  refine State.lift_keeps (fun d hd => ?_) hc ht
  repeat' first
    | with_reducible assumption
    | with_reducible apply Dev.vvv_canon

theorem keep_execVsubs (p : Pair) (vd va : VReg) (s2 : VSrc) (k : VMask) (s : State) {t : State} (hc : s.dev.Canon)
    (ht : execVsubs p vd va s2 k s = .next t) : t.dev.Canon := by
  unfold execVsubs at ht
  refine State.lift_keeps (fun d hd => ?_) hc ht
  repeat' first
    | with_reducible assumption
    | with_reducible apply Dev.vvv_canon

theorem keep_execVmul (p : Pair) (vd va : VReg) (s2 : VSrc) (k : VMask) (s : State) {t : State} (hc : s.dev.Canon)
    (ht : execVmul p vd va s2 k s = .next t) : t.dev.Canon := by
  unfold execVmul at ht
  refine State.lift_keeps (fun d hd => ?_) hc ht
  repeat' first
    | with_reducible assumption
    | with_reducible apply Dev.vvv_canon

theorem keep_execVmulh (p : Pair) (vd va : VReg) (s2 : VSrc) (k : VMask) (s : State) {t : State} (hc : s.dev.Canon)
    (ht : execVmulh p vd va s2 k s = .next t) : t.dev.Canon := by
  unfold execVmulh at ht
  refine State.lift_keeps (fun d hd => ?_) hc ht
  repeat' first
    | with_reducible assumption
    | with_reducible apply Dev.vvv_canon

theorem keep_execVqmul31 (p : Pair) (vd va : VReg) (s2 : VSrc) (k : VMask) (s : State) {t : State} (hc : s.dev.Canon)
    (ht : execVqmul31 p vd va s2 k s = .next t) : t.dev.Canon := by
  unfold execVqmul31 at ht
  refine State.lift_keeps (fun d hd => ?_) hc ht
  repeat' first
    | with_reducible assumption
    | with_reducible apply Dev.vvv_canon

theorem keep_execVqmac31 (p : Pair) (vd va : VReg) (s2 : VSrc) (k : VMask) (s : State) {t : State} (hc : s.dev.Canon)
    (ht : execVqmac31 p vd va s2 k s = .next t) : t.dev.Canon := by
  unfold execVqmac31 at ht
  refine State.lift_keeps (fun d hd => ?_) hc ht
  repeat' first
    | with_reducible assumption
    | with_reducible apply Dev.vop_canon

theorem keep_execVmv (p : Pair) (vd : VReg) (s2 : VSrc) (k : VMask) (s : State) {t : State} (hc : s.dev.Canon) (ht :
    execVmv p vd s2 k s = .next t) : t.dev.Canon := by
  unfold execVmv at ht
  refine State.lift_keeps (fun d hd => ?_) hc ht
  repeat' first
    | with_reducible assumption
    | with_reducible apply Dev.vop_canon

theorem keep_execVsel (p : Pair) (vd va : VReg) (s2 : VSrc) (mi : MReg) (s : State) {t : State} (hc : s.dev.Canon)
    (ht : execVsel p vd va s2 mi s = .next t) : t.dev.Canon := by
  unfold execVsel at ht
  refine State.lift_keeps (fun d hd => ?_) hc ht
  repeat' first
    | with_reducible assumption
    | with_reducible apply Dev.vop_canon

theorem keep_execViota (p : Pair) (vd : VReg) (k : VMask) (s : State) {t : State} (hc : s.dev.Canon) (ht : execViota
    p vd k s = .next t) : t.dev.Canon := by
  unfold execViota at ht
  refine State.lift_keeps (fun d hd => ?_) hc ht
  repeat' first
    | with_reducible assumption
    | with_reducible apply Dev.vop_canon

theorem keep_execVfadd (p : Pair) (vd va : VReg) (s2 : VSrc) (k : VMask) (s : State) {t : State} (hc : s.dev.Canon)
    (ht : execVfadd p vd va s2 k s = .next t) : t.dev.Canon := by
  unfold execVfadd at ht
  refine State.lift_keeps (fun d hd => ?_) hc ht
  repeat' first
    | with_reducible assumption
    | with_reducible apply Dev.vff_canon

theorem keep_execVfsub (p : Pair) (vd va : VReg) (s2 : VSrc) (k : VMask) (s : State) {t : State} (hc : s.dev.Canon)
    (ht : execVfsub p vd va s2 k s = .next t) : t.dev.Canon := by
  unfold execVfsub at ht
  refine State.lift_keeps (fun d hd => ?_) hc ht
  repeat' first
    | with_reducible assumption
    | with_reducible apply Dev.vff_canon

theorem keep_execVfmul (p : Pair) (vd va : VReg) (s2 : VSrc) (k : VMask) (s : State) {t : State} (hc : s.dev.Canon)
    (ht : execVfmul p vd va s2 k s = .next t) : t.dev.Canon := by
  unfold execVfmul at ht
  refine State.lift_keeps (fun d hd => ?_) hc ht
  repeat' first
    | with_reducible assumption
    | with_reducible apply Dev.vff_canon

theorem keep_execVfdiv (p : Pair) (vd va : VReg) (s2 : VSrc) (k : VMask) (s : State) {t : State} (hc : s.dev.Canon)
    (ht : execVfdiv p vd va s2 k s = .next t) : t.dev.Canon := by
  unfold execVfdiv at ht
  refine State.lift_keeps (fun d hd => ?_) hc ht
  repeat' first
    | with_reducible assumption
    | with_reducible apply Dev.vff_canon

theorem keep_execVfmin (p : Pair) (vd va : VReg) (s2 : VSrc) (k : VMask) (s : State) {t : State} (hc : s.dev.Canon)
    (ht : execVfmin p vd va s2 k s = .next t) : t.dev.Canon := by
  unfold execVfmin at ht
  refine State.lift_keeps (fun d hd => ?_) hc ht
  repeat' first
    | with_reducible assumption
    | with_reducible apply Dev.vff_canon

theorem keep_execVfmax (p : Pair) (vd va : VReg) (s2 : VSrc) (k : VMask) (s : State) {t : State} (hc : s.dev.Canon)
    (ht : execVfmax p vd va s2 k s = .next t) : t.dev.Canon := by
  unfold execVfmax at ht
  refine State.lift_keeps (fun d hd => ?_) hc ht
  repeat' first
    | with_reducible assumption
    | with_reducible apply Dev.vff_canon

theorem keep_execVfmadd (p : Pair) (vd va : VReg) (s2 : VSrc) (k : VMask) (s : State) {t : State} (hc : s.dev.Canon)
    (ht : execVfmadd p vd va s2 k s = .next t) : t.dev.Canon := by
  unfold execVfmadd at ht
  refine State.lift_keeps (fun d hd => ?_) hc ht
  repeat' first
    | with_reducible assumption
    | with_reducible apply Dev.vff_canon

theorem keep_execVfsqrt (p : Pair) (vd va : VReg) (k : VMask) (s : State) {t : State} (hc : s.dev.Canon) (ht :
    execVfsqrt p vd va k s = .next t) : t.dev.Canon := by
  unfold execVfsqrt at ht
  refine State.lift_keeps (fun d hd => ?_) hc ht
  repeat' first
    | with_reducible assumption
    | with_reducible apply Dev.vff_canon

theorem keep_execVfcvtws (p : Pair) (vd va : VReg) (k : VMask) (s : State) {t : State} (hc : s.dev.Canon) (ht :
    execVfcvtws p vd va k s = .next t) : t.dev.Canon := by
  unfold execVfcvtws at ht
  refine State.lift_keeps (fun d hd => ?_) hc ht
  repeat' first
    | with_reducible assumption
    | with_reducible apply Dev.vff_canon

theorem keep_execVfcvtsw (p : Pair) (vd va : VReg) (k : VMask) (s : State) {t : State} (hc : s.dev.Canon) (ht :
    execVfcvtsw p vd va k s = .next t) : t.dev.Canon := by
  unfold execVfcvtsw at ht
  refine State.lift_keeps (fun d hd => ?_) hc ht
  repeat' first
    | with_reducible assumption
    | with_reducible apply Dev.vff_canon

theorem keep_execVfneg (p : Pair) (vd va : VReg) (k : VMask) (s : State) {t : State} (hc : s.dev.Canon) (ht :
    execVfneg p vd va k s = .next t) : t.dev.Canon := by
  unfold execVfneg at ht
  refine State.lift_keeps (fun d hd => ?_) hc ht
  repeat' first
    | with_reducible assumption
    | with_reducible apply Dev.vff_canon

theorem keep_execVfabs (p : Pair) (vd va : VReg) (k : VMask) (s : State) {t : State} (hc : s.dev.Canon) (ht :
    execVfabs p vd va k s = .next t) : t.dev.Canon := by
  unfold execVfabs at ht
  refine State.lift_keeps (fun d hd => ?_) hc ht
  repeat' first
    | with_reducible assumption
    | with_reducible apply Dev.vff_canon

theorem keep_execVceq (p : Pair) (md : MReg) (va : VReg) (s2 : VSrc) (k : VMask) (s : State) {t : State} (hc :
    s.dev.Canon) (ht : execVceq p md va s2 k s = .next t) : t.dev.Canon := by
  unfold execVceq at ht
  refine State.lift_keeps (fun d hd => ?_) hc ht
  repeat' first
    | with_reducible assumption
    | with_reducible apply Dev.vcm_canon

theorem keep_execVcne (p : Pair) (md : MReg) (va : VReg) (s2 : VSrc) (k : VMask) (s : State) {t : State} (hc :
    s.dev.Canon) (ht : execVcne p md va s2 k s = .next t) : t.dev.Canon := by
  unfold execVcne at ht
  refine State.lift_keeps (fun d hd => ?_) hc ht
  repeat' first
    | with_reducible assumption
    | with_reducible apply Dev.vcm_canon

theorem keep_execVclt (p : Pair) (md : MReg) (va : VReg) (s2 : VSrc) (k : VMask) (s : State) {t : State} (hc :
    s.dev.Canon) (ht : execVclt p md va s2 k s = .next t) : t.dev.Canon := by
  unfold execVclt at ht
  refine State.lift_keeps (fun d hd => ?_) hc ht
  repeat' first
    | with_reducible assumption
    | with_reducible apply Dev.vcm_canon

theorem keep_execVcge (p : Pair) (md : MReg) (va : VReg) (s2 : VSrc) (k : VMask) (s : State) {t : State} (hc :
    s.dev.Canon) (ht : execVcge p md va s2 k s = .next t) : t.dev.Canon := by
  unfold execVcge at ht
  refine State.lift_keeps (fun d hd => ?_) hc ht
  repeat' first
    | with_reducible assumption
    | with_reducible apply Dev.vcm_canon

theorem keep_execVcltu (p : Pair) (md : MReg) (va : VReg) (s2 : VSrc) (k : VMask) (s : State) {t : State} (hc :
    s.dev.Canon) (ht : execVcltu p md va s2 k s = .next t) : t.dev.Canon := by
  unfold execVcltu at ht
  refine State.lift_keeps (fun d hd => ?_) hc ht
  repeat' first
    | with_reducible assumption
    | with_reducible apply Dev.vcm_canon

theorem keep_execVcgeu (p : Pair) (md : MReg) (va : VReg) (s2 : VSrc) (k : VMask) (s : State) {t : State} (hc :
    s.dev.Canon) (ht : execVcgeu p md va s2 k s = .next t) : t.dev.Canon := by
  unfold execVcgeu at ht
  refine State.lift_keeps (fun d hd => ?_) hc ht
  repeat' first
    | with_reducible assumption
    | with_reducible apply Dev.vcm_canon

theorem keep_execVfceq (p : Pair) (md : MReg) (va : VReg) (s2 : VSrc) (k : VMask) (s : State) {t : State} (hc :
    s.dev.Canon) (ht : execVfceq p md va s2 k s = .next t) : t.dev.Canon := by
  unfold execVfceq at ht
  refine State.lift_keeps (fun d hd => ?_) hc ht
  repeat' first
    | with_reducible assumption
    | with_reducible apply Dev.vfc_canon

theorem keep_execVfclt (p : Pair) (md : MReg) (va : VReg) (s2 : VSrc) (k : VMask) (s : State) {t : State} (hc :
    s.dev.Canon) (ht : execVfclt p md va s2 k s = .next t) : t.dev.Canon := by
  unfold execVfclt at ht
  refine State.lift_keeps (fun d hd => ?_) hc ht
  repeat' first
    | with_reducible assumption
    | with_reducible apply Dev.vfc_canon

theorem keep_execVfcle (p : Pair) (md : MReg) (va : VReg) (s2 : VSrc) (k : VMask) (s : State) {t : State} (hc :
    s.dev.Canon) (ht : execVfcle p md va s2 k s = .next t) : t.dev.Canon := by
  unfold execVfcle at ht
  refine State.lift_keeps (fun d hd => ?_) hc ht
  repeat' first
    | with_reducible assumption
    | with_reducible apply Dev.vfc_canon

theorem keep_execMand (p : Pair) (md ma mb : MReg) (k : VMask) (s : State) {t : State} (hc : s.dev.Canon) (ht :
    execMand p md ma mb k s = .next t) : t.dev.Canon := by
  unfold execMand at ht
  refine State.lift_keeps (fun d hd => ?_) hc ht
  repeat' first
    | with_reducible assumption
    | with_reducible apply Dev.vmm_canon

theorem keep_execMor (p : Pair) (md ma mb : MReg) (k : VMask) (s : State) {t : State} (hc : s.dev.Canon) (ht :
    execMor p md ma mb k s = .next t) : t.dev.Canon := by
  unfold execMor at ht
  refine State.lift_keeps (fun d hd => ?_) hc ht
  repeat' first
    | with_reducible assumption
    | with_reducible apply Dev.vmm_canon

theorem keep_execMandn (p : Pair) (md ma mb : MReg) (k : VMask) (s : State) {t : State} (hc : s.dev.Canon) (ht :
    execMandn p md ma mb k s = .next t) : t.dev.Canon := by
  unfold execMandn at ht
  refine State.lift_keeps (fun d hd => ?_) hc ht
  repeat' first
    | with_reducible assumption
    | with_reducible apply Dev.vmm_canon

theorem keep_execMnot (p : Pair) (md ma : MReg) (k : VMask) (s : State) {t : State} (hc : s.dev.Canon) (ht : execMnot
    p md ma k s = .next t) : t.dev.Canon := by
  unfold execMnot at ht
  refine State.lift_keeps (fun d hd => ?_) hc ht
  repeat' first
    | with_reducible assumption
    | with_reducible apply Dev.vmm_canon

theorem keep_execVsetvl (p : Pair) (rd ra : GReg) (s : State) {t : State} (hc : s.dev.Canon) (ht : execVsetvl p rd ra
    s = .next t) : t.dev.Canon := by
  unfold execVsetvl at ht
  refine State.lift_keeps (fun d hd => ?_) hc ht
  repeat' first
    | with_reducible assumption
    | with_reducible apply Dev.alu_canon

theorem keep_execVgetvl (p : Pair) (rd : GReg) (s : State) {t : State} (hc : s.dev.Canon) (ht : execVgetvl p rd s =
    .next t) : t.dev.Canon := by
  unfold execVgetvl at ht
  refine State.lift_keeps (fun d hd => ?_) hc ht
  repeat' first
    | with_reducible assumption
    | with_reducible apply Dev.alu_canon

theorem keep_execVmrd (p : Pair) (rd : GReg) (mv : MReg) (s : State) {t : State} (hc : s.dev.Canon) (ht : execVmrd p
    rd mv s = .next t) : t.dev.Canon := by
  unfold execVmrd at ht
  refine State.lift_keeps (fun d hd => ?_) hc ht
  repeat' first
    | with_reducible assumption
    | with_reducible apply Dev.aluIf_canon

theorem keep_execVmwr (p : Pair) (ra : GReg) (mv : MReg) (s : State) {t : State} (hc : s.dev.Canon) (ht : execVmwr p
    ra mv s = .next t) : t.dev.Canon := by
  unfold execVmwr at ht
  refine State.lift_keeps (fun d hd => ?_) hc ht
  repeat' first
    | with_reducible assumption
    | with_reducible apply Dev.aluIf_canon

theorem keep_execVredadd (p : Pair) (rd : GReg) (v : VReg) (k : VMask) (s : State) {t : State} (hc : s.dev.Canon) (ht
    : execVredadd p rd v k s = .next t) : t.dev.Canon := by
  unfold execVredadd at ht
  refine State.lift_keeps (fun d hd => ?_) hc ht
  repeat' first
    | with_reducible assumption
    | with_reducible apply Dev.vredD_canon

theorem keep_execVredmin (p : Pair) (rd : GReg) (v : VReg) (k : VMask) (s : State) {t : State} (hc : s.dev.Canon) (ht
    : execVredmin p rd v k s = .next t) : t.dev.Canon := by
  unfold execVredmin at ht
  refine State.lift_keeps (fun d hd => ?_) hc ht
  repeat' first
    | with_reducible assumption
    | with_reducible apply Dev.vred_canon

theorem keep_execVredmax (p : Pair) (rd : GReg) (v : VReg) (k : VMask) (s : State) {t : State} (hc : s.dev.Canon) (ht
    : execVredmax p rd v k s = .next t) : t.dev.Canon := by
  unfold execVredmax at ht
  refine State.lift_keeps (fun d hd => ?_) hc ht
  repeat' first
    | with_reducible assumption
    | with_reducible apply Dev.vred_canon

theorem keep_execVredfadd (p : Pair) (rd : GReg) (v : VReg) (k : VMask) (s : State) {t : State} (hc : s.dev.Canon)
    (ht : execVredfadd p rd v k s = .next t) : t.dev.Canon := by
  unfold execVredfadd at ht
  refine State.lift_keeps (fun d hd => ?_) hc ht
  repeat' first
    | with_reducible assumption
    | with_reducible apply Dev.vop_canon

theorem keep_execVmini (p : Pair) (rd : GReg) (v : VReg) (k : VMask) (s : State) {t : State} (hc : s.dev.Canon) (ht :
    execVmini p rd v k s = .next t) : t.dev.Canon := by
  unfold execVmini at ht
  refine State.lift_keeps (fun d hd => ?_) hc ht
  repeat' first
    | with_reducible assumption
    | with_reducible apply Dev.vredD_canon

theorem keep_execVmaxi (p : Pair) (rd : GReg) (v : VReg) (k : VMask) (s : State) {t : State} (hc : s.dev.Canon) (ht :
    execVmaxi p rd v k s = .next t) : t.dev.Canon := by
  unfold execVmaxi at ht
  refine State.lift_keeps (fun d hd => ?_) hc ht
  repeat' first
    | with_reducible assumption
    | with_reducible apply Dev.vredD_canon

theorem keep_execVld (p : Pair) (v : VReg) (ra : GReg) (k : VMask) (s : State) {t : State} (hc : s.dev.Canon) (ht :
    execVld p v ra k s = .next t) : t.dev.Canon := by
  unfold execVld at ht
  refine State.lift_keeps (fun d hd => ?_) hc ht
  repeat' first
    | with_reducible assumption
    | with_reducible apply Dev.vecLoad_canon

theorem keep_execVst (p : Pair) (v : VReg) (ra : GReg) (k : VMask) (s : State) {t : State} (hc : s.dev.Canon) (ht :
    execVst p v ra k s = .next t) : t.dev.Canon := by
  unfold execVst at ht
  refine State.lift_keeps (fun d hd => ?_) hc ht
  repeat' first
    | with_reducible assumption
    | with_reducible apply Dev.vecStore_canon

theorem keep_execVgath (p : Pair) (v iv : VReg) (ra : GReg) (k : VMask) (s : State) {t : State} (hc : s.dev.Canon)
    (ht : execVgath p v iv ra k s = .next t) : t.dev.Canon := by
  unfold execVgath at ht
  refine State.lift_keeps (fun d hd => ?_) hc ht
  repeat' first
    | with_reducible assumption
    | with_reducible apply Dev.vecLoad_canon

theorem keep_execVscat (p : Pair) (v iv : VReg) (ra : GReg) (k : VMask) (s : State) {t : State} (hc : s.dev.Canon)
    (ht : execVscat p v iv ra k s = .next t) : t.dev.Canon := by
  unfold execVscat at ht
  refine State.lift_keeps (fun d hd => ?_) hc ht
  repeat' first
    | with_reducible assumption
    | with_reducible apply Dev.vecStore_canon

theorem keep_execVinterp (p : Pair) (vd va : VReg) (wb : GReg) (k : VMask) (s : State) {t : State} (hc : s.dev.Canon)
    (ht : execVinterp p vd va wb k s = .next t) : t.dev.Canon := by
  unfold execVinterp at ht
  refine State.lift_keeps (fun d hd => ?_) hc ht
  repeat' first
    | with_reducible assumption
    | with_reducible apply Dev.vtab_canon

theorem keep_execVinvert (p : Pair) (vd va : VReg) (wb : GReg) (k : VMask) (s : State) {t : State} (hc : s.dev.Canon)
    (ht : execVinvert p vd va wb k s = .next t) : t.dev.Canon := by
  unfold execVinvert at ht
  refine State.lift_keeps (fun d hd => ?_) hc ht
  repeat' first
    | with_reducible assumption
    | with_reducible apply Dev.vtab_canon

theorem keep_execTbrd (p : Pair) (rd : GReg) (sel : BitVec 5) (s : State) {t : State} (hc : s.dev.Canon) (ht :
    execTbrd p rd sel s = .next t) : t.dev.Canon := by
  unfold execTbrd at ht
  refine State.lift_keeps (fun d hd => ?_) hc ht
  repeat' first
    | intro _
    | with_reducible assumption
    | with_reducible apply Dev.cycOp_canon
    | with_reducible apply Dev.raise_canon
    | with_reducible apply Dev.setCore_canon
    | with_reducible apply canon_ite
    | split

theorem keep_execTon (p : Pair) (rd ra rb : GReg) (s : State) {t : State} (hc : s.dev.Canon) (ht : execTon p rd ra rb
    s = .next t) : t.dev.Canon := by
  unfold execTon at ht
  refine State.lift_keeps (fun d hd => ?_) hc ht
  repeat' first
    | with_reducible assumption
    | with_reducible apply Dev.timerOp_canon

theorem keep_execTof (p : Pair) (rd ra rb : GReg) (s : State) {t : State} (hc : s.dev.Canon) (ht : execTof p rd ra rb
    s = .next t) : t.dev.Canon := by
  unfold execTof at ht
  refine State.lift_keeps (fun d hd => ?_) hc ht
  repeat' first
    | with_reducible assumption
    | with_reducible apply Dev.timerOp_canon

theorem keep_execTp (p : Pair) (rd ra rb : GReg) (s : State) {t : State} (hc : s.dev.Canon) (ht : execTp p rd ra rb s
    = .next t) : t.dev.Canon := by
  unfold execTp at ht
  refine State.lift_keeps (fun d hd => ?_) hc ht
  repeat' first
    | with_reducible assumption
    | with_reducible apply Dev.timerOp_canon

theorem keep_execCtu (p : Pair) (rd ra rb : GReg) (s : State) {t : State} (hc : s.dev.Canon) (ht : execCtu p rd ra rb
    s = .next t) : t.dev.Canon := by
  unfold execCtu at ht
  refine State.lift_keeps (fun d hd => ?_) hc ht
  repeat' first
    | with_reducible assumption
    | with_reducible apply Dev.objOp_canon

theorem keep_execCtd (p : Pair) (rd ra rb : GReg) (s : State) {t : State} (hc : s.dev.Canon) (ht : execCtd p rd ra rb
    s = .next t) : t.dev.Canon := by
  unfold execCtd at ht
  refine State.lift_keeps (fun d hd => ?_) hc ht
  repeat' first
    | with_reducible assumption
    | with_reducible apply Dev.objOp_canon

theorem keep_execCtud (p : Pair) (rd ra rb : GReg) (s : State) {t : State} (hc : s.dev.Canon) (ht : execCtud p rd ra
    rb s = .next t) : t.dev.Canon := by
  unfold execCtud at ht
  refine State.lift_keeps (fun d hd => ?_) hc ht
  repeat' first
    | with_reducible assumption
    | with_reducible apply Dev.objOp_canon

theorem keep_execRtrig (p : Pair) (rd ra rb : GReg) (s : State) {t : State} (hc : s.dev.Canon) (ht : execRtrig p rd
    ra rb s = .next t) : t.dev.Canon := by
  unfold execRtrig at ht
  refine State.lift_keeps (fun d hd => ?_) hc ht
  repeat' first
    | with_reducible assumption
    | with_reducible apply Dev.objOp_canon

theorem keep_execFtrig (p : Pair) (rd ra rb : GReg) (s : State) {t : State} (hc : s.dev.Canon) (ht : execFtrig p rd
    ra rb s = .next t) : t.dev.Canon := by
  unfold execFtrig at ht
  refine State.lift_keeps (fun d hd => ?_) hc ht
  repeat' first
    | with_reducible assumption
    | with_reducible apply Dev.objOp_canon

theorem keep_execCyclePeriodStart (s : State) {t : State} (hc : s.dev.Canon) (ht : execCyclePeriodStart s = .next t)
    : t.dev.Canon := by
  unfold execCyclePeriodStart at ht
  refine State.lift_keeps (fun d hd => ?_) hc ht
  repeat' first
    | with_reducible assumption
    | with_reducible apply Dev.periodStart_canon

theorem keep_execTimetableMatch (s : State) {t : State} (hc : s.dev.Canon) (ht : execTimetableMatch s = .next t) :
    t.dev.Canon := by
  unfold execTimetableMatch at ht
  refine State.lift_keeps (fun d hd => ?_) hc ht
  repeat' first
    | with_reducible assumption
    | with_reducible apply Dev.ttMatch_canon

theorem keep_execImageCopyComplete (s : State) {t : State} (hc : s.dev.Canon) (ht : execImageCopyComplete s = .next
    t) : t.dev.Canon := by
  unfold execImageCopyComplete at ht
  refine State.lift_keeps (fun d hd => ?_) hc ht
  repeat' first
    | with_reducible assumption
    | with_reducible apply Dev.copyDone_canon

theorem keep_execStart (src : Writer) (v : Word) (s : State) {t : State} (hc : s.dev.Canon) (ht : execStart src v s =
    .next t) : t.dev.Canon := by
  unfold execStart at ht
  refine State.lift_keeps (fun d hd => ?_) hc ht
  repeat' first
    | intro _
    | with_reducible assumption
    | with_reducible apply Dev.cycCtl_canon
    | with_reducible apply Dev.gate_canon

theorem keep_execStop (src : Writer) (v : Word) (s : State) {t : State} (hc : s.dev.Canon) (ht : execStop src v s =
    .next t) : t.dev.Canon := by
  unfold execStop at ht
  refine State.lift_keeps (fun d hd => ?_) hc ht
  repeat' first
    | intro _
    | with_reducible assumption
    | with_reducible apply Dev.cycCtl_canon
    | with_reducible apply Dev.gate_canon

theorem keep_execClearLiveReads (src : Writer) (v : Word) (s : State) {t : State} (hc : s.dev.Canon) (ht :
    execClearLiveReads src v s = .next t) : t.dev.Canon := by
  unfold execClearLiveReads at ht
  refine State.lift_keeps (fun d hd => ?_) hc ht
  repeat' first
    | intro _
    | with_reducible assumption
    | with_reducible apply Dev.cycCtl_canon
    | with_reducible apply Dev.gate_canon

theorem keep_execForceWordWrite (src : Writer) (n : Byte) (w : BitVec 2) (v : Word) (s : State) {t : State} (hc :
    s.dev.Canon) (ht : execForceWordWrite src n w v s = .next t) : t.dev.Canon := by
  unfold execForceWordWrite at ht
  refine State.lift_keeps (fun d hd => ?_) hc ht
  repeat' first
    | intro _
    | with_reducible assumption
    | with_reducible apply Dev.forceWrite_canon
    | with_reducible apply Dev.gate_canon

theorem keep_execForceCommit (src : Writer) (n : Byte) (v : Word) (s : State) {t : State} (hc : s.dev.Canon) (ht :
    execForceCommit src n v s = .next t) : t.dev.Canon := by
  unfold execForceCommit at ht
  refine State.lift_keeps (fun d hd => ?_) hc ht
  repeat' first
    | intro _
    | with_reducible assumption
    | with_reducible apply Dev.forceWrite_canon
    | with_reducible apply Dev.gate_canon

theorem keep_execDmaTailWrite (src : Writer) (r : BitVec 6) (v : Word) (s : State) {t : State} (hc : s.dev.Canon) (ht
    : execDmaTailWrite src r v s = .next t) : t.dev.Canon := by
  unfold execDmaTailWrite at ht
  refine State.lift_keeps (fun d hd => ?_) hc ht
  repeat' first
    | intro _
    | with_reducible assumption
    | with_reducible apply Dev.dmaTailWrite_canon
    | with_reducible apply Dev.gate_canon

theorem keep_execDmaBaseWrite (src : Writer) (r : BitVec 6) (v : Word) (s : State) {t : State} (hc : s.dev.Canon) (ht
    : execDmaBaseWrite src r v s = .next t) : t.dev.Canon := by
  unfold execDmaBaseWrite at ht
  refine State.lift_keeps (fun d hd => ?_) hc ht
  repeat' first
    | intro _
    | with_reducible assumption
    | with_reducible apply Dev.dmaBaseWrite_canon
    | with_reducible apply Dev.gate_canon

theorem keep_execDmaEnable (src : Writer) (r : BitVec 6) (v : Word) (s : State) {t : State} (hc : s.dev.Canon) (ht :
    execDmaEnable src r v s = .next t) : t.dev.Canon := by
  unfold execDmaEnable at ht
  refine State.lift_keeps (fun d hd => ?_) hc ht
  repeat' first
    | intro _
    | with_reducible assumption
    | with_reducible apply Dev.dmaCfgWrite_canon
    | with_reducible apply Dev.gate_canon

theorem keep_execDmaCompletion (r : BitVec 6) (msg : List Byte) (s : State) {t : State} (hc : s.dev.Canon) (ht :
    execDmaCompletion r msg s = .next t) : t.dev.Canon := by
  unfold execDmaCompletion at ht
  refine State.lift_keeps (fun d hd => ?_) hc ht
  repeat' first
    | with_reducible assumption
    | with_reducible apply Dev.dmaStep_canon

theorem keep_execLaunch (r : BitVec 2) (busy : Bool) (s : State) {t : State} (hc : s.dev.Canon) (ht : execLaunch r
    busy s = .next t) : t.dev.Canon := by
  unfold execLaunch at ht
  refine State.lift_keeps (fun d hd => ?_) hc ht
  repeat' first
    | intro _
    | with_reducible assumption
    | with_reducible apply Dev.dmaRun_canon
    | with_reducible apply Dev.launch_canon

theorem keep_execMailboxWordWrite (src : Writer) (m : BitVec 2) (w : BitVec 2) (v : Word) (s : State) {t : State} (hc
    : s.dev.Canon) (ht : execMailboxWordWrite src m w v s = .next t) : t.dev.Canon := by
  unfold execMailboxWordWrite at ht
  refine State.lift_keeps (fun d hd => ?_) hc ht
  repeat' first
    | intro _
    | with_reducible assumption
    | with_reducible apply Dev.gate_canon
    | with_reducible apply Dev.mbWrite_canon

theorem keep_execMailboxCommit (src : Writer) (m : BitVec 2) (v : Word) (s : State) {t : State} (hc : s.dev.Canon)
    (ht : execMailboxCommit src m v s = .next t) : t.dev.Canon := by
  unfold execMailboxCommit at ht
  refine State.lift_keeps (fun d hd => ?_) hc ht
  repeat' first
    | intro _
    | with_reducible assumption
    | with_reducible apply Dev.gate_canon
    | with_reducible apply Dev.mbWrite_canon

theorem keep_execReferenceSlew (s : State) {t : State} (hc : s.dev.Canon) (ht : execReferenceSlew s = .next t) :
    t.dev.Canon := by
  unfold execReferenceSlew at ht
  refine State.lift_keeps (fun d hd => ?_) hc ht
  repeat' first
    | with_reducible assumption
    | with_reducible apply Dev.slew_canon

theorem keep_execMailboxTimeout (s : State) {t : State} (hc : s.dev.Canon) (ht : execMailboxTimeout s = .next t) :
    t.dev.Canon := by
  unfold execMailboxTimeout at ht
  refine State.lift_keeps (fun d hd => ?_) hc ht
  repeat' first
    | with_reducible assumption
    | with_reducible apply Dev.mbTimeout_canon

theorem keep_execSetpoint (h : PlantHead) (l : List Byte) (s : State) {t : State} (hc : s.dev.Canon) (ht :
    execSetpoint h l s = .next t) : t.dev.Canon := by
  unfold execSetpoint at ht
  refine State.lift_keeps (fun d hd => ?_) hc ht
  repeat' first
    | with_reducible assumption
    | with_reducible apply Dev.setpoint_canon

theorem keep_execStatusSend (s : State) {t : State} (hc : s.dev.Canon) (ht : execStatusSend s = .next t) :
    t.dev.Canon := by
  unfold execStatusSend at ht
  refine State.lift_keeps (fun d hd => ?_) hc ht
  repeat' first
    | with_reducible assumption
    | with_reducible apply Dev.statusTick_canon

theorem keep_execCommandClearTrips (h : PlantHead) (l : List Byte) (s : State) {t : State} (hc : s.dev.Canon) (ht :
    execCommandClearTrips h l s = .next t) : t.dev.Canon := by
  unfold execCommandClearTrips at ht
  refine State.lift_keeps (fun d hd => ?_) hc ht
  repeat' first
    | intro _
    | with_reducible assumption
    | with_reducible apply Dev.plantClear_canon
    | with_reducible apply Dev.plantCommand_canon

theorem keep_execRotreply (h : PlantHead) (l : List Byte) (s : State) {t : State} (hc : s.dev.Canon) (ht :
    execRotreply h l s = .next t) : t.dev.Canon := by
  unfold execRotreply at ht
  refine State.lift_keeps (fun d hd => ?_) hc ht
  repeat' first
    | intro _
    | with_reducible assumption
    | with_reducible apply Dev.rotReplyTake_canon
    | with_reducible apply canon_ite
    | split

theorem keep_execRotreqRepeat (s : State) {t : State} (hc : s.dev.Canon) (ht : execRotreqRepeat s = .next t) :
    t.dev.Canon := by
  unfold execRotreqRepeat at ht
  refine State.lift_keeps (fun d hd => ?_) hc ht
  repeat' first
    | with_reducible assumption
    | with_reducible apply Dev.rotRepeat_canon

theorem keep_execRotationReplyTimeout (s : State) {t : State} (hc : s.dev.Canon) (ht : execRotationReplyTimeout s =
    .next t) : t.dev.Canon := by
  unfold execRotationReplyTimeout at ht
  refine State.lift_keeps (fun d hd => ?_) hc ht
  repeat' first
    | with_reducible assumption
    | with_reducible apply Dev.rotTimeout_canon

theorem keep_execRestWindowEnd (s : State) {t : State} (hc : s.dev.Canon) (ht : execRestWindowEnd s = .next t) :
    t.dev.Canon := by
  unfold execRestWindowEnd at ht
  refine State.lift_keeps (fun d hd => ?_) hc ht
  repeat' first
    | with_reducible assumption
    | with_reducible apply Dev.rotWinEnd_canon

theorem keep_execProfileGo (src : Writer) (v : Word) (s : State) {t : State} (hc : s.dev.Canon) (ht : execProfileGo
    src v s = .next t) : t.dev.Canon := by
  unfold execProfileGo at ht
  refine State.lift_keeps (fun d hd => ?_) hc ht
  repeat' first
    | intro _
    | with_reducible assumption
    | with_reducible apply Dev.dspCtl_canon
    | with_reducible apply Dev.gate_canon

theorem keep_execEstimatorRun (s : State) {t : State} (hc : s.dev.Canon) (ht : execEstimatorRun s = .next t) :
    t.dev.Canon := by
  unfold execEstimatorRun at ht
  refine State.lift_keeps (fun d hd => ?_) hc ht
  repeat' first
    | with_reducible assumption
    | with_reducible apply Dev.estRun_canon

theorem keep_execCorrection (s : State) {t : State} (hc : s.dev.Canon) (ht : execCorrection s = .next t) :
    t.dev.Canon := by
  unfold execCorrection at ht
  refine State.lift_keeps (fun d hd => ?_) hc ht
  repeat' first
    | with_reducible assumption
    | with_reducible apply Dev.correction_canon

theorem keep_execEstPub (src : Writer) (s : State) {t : State} (hc : s.dev.Canon) (ht : execEstPub src s = .next t) :
    t.dev.Canon := by
  unfold execEstPub at ht
  refine State.lift_keeps (fun d hd => ?_) hc ht
  repeat' first
    | intro _
    | with_reducible assumption
    | with_reducible apply Dev.estPub_canon
    | with_reducible apply Dev.gate_canon

theorem keep_execPublicationTimeout (s : State) {t : State} (hc : s.dev.Canon) (ht : execPublicationTimeout s = .next
    t) : t.dev.Canon := by
  unfold execPublicationTimeout at ht
  refine State.lift_keeps (fun d hd => ?_) hc ht
  repeat' first
    | with_reducible assumption
    | with_reducible apply Dev.pubTimeout_canon

theorem keep_execRestStarvation (s : State) {t : State} (hc : s.dev.Canon) (ht : execRestStarvation s = .next t) :
    t.dev.Canon := by
  unfold execRestStarvation at ht
  refine State.lift_keeps (fun d hd => ?_) hc ht
  repeat' first
    | with_reducible assumption
    | with_reducible apply Dev.starve_canon

theorem keep_execEthFrameReceive (p2 : Bool) (l : List Byte) (fcsOk : Bool) (res : Word) (s : State) {t : State} (hc
    : s.dev.Canon) (ht : execEthFrameReceive p2 l fcsOk res s = .next t) : t.dev.Canon := by
  unfold execEthFrameReceive at ht
  refine State.lift_keeps (fun d hd => ?_) hc ht
  repeat' first
    | with_reducible assumption
    | with_reducible apply Dev.ethReceive_canon

theorem keep_execAddressAgeOut (mac : BitVec 48) (s : State) {t : State} (hc : s.dev.Canon) (ht : execAddressAgeOut
    mac s = .next t) : t.dev.Canon := by
  unfold execAddressAgeOut at ht
  refine State.lift_keeps (fun d hd => ?_) hc ht
  repeat' first
    | with_reducible assumption
    | with_reducible apply Dev.ethAge_canon

theorem keep_execPeerDelayMeasure (p2 : Bool) (ans : Option (Int × Int × Int × Int)) (s : State) {t : State} (hc :
    s.dev.Canon) (ht : execPeerDelayMeasure p2 ans s = .next t) : t.dev.Canon := by
  unfold execPeerDelayMeasure at ht
  refine State.lift_keeps (fun d hd => ?_) hc ht
  repeat' first
    | with_reducible assumption
    | with_reducible apply Dev.peerDelay_canon

theorem keep_execPdelayReq (p2 : Bool) (req : List Byte) (s : State) {t : State} (hc : s.dev.Canon) (ht :
    execPdelayReq p2 req s = .next t) : t.dev.Canon := by
  unfold execPdelayReq at ht
  refine State.lift_keeps (fun d hd => ?_) hc ht
  repeat' first
    | with_reducible assumption
    | with_reducible apply Dev.pdelayAnswer_canon

theorem keep_execSync (p2 : Bool) (dom : Byte) (sender : BitVec 80) (seq : BitVec 16) (twoStep : Bool) (t1 corr :
    Int)
    (logInt : BitVec 8) (s : State) {t : State} (hc : s.dev.Canon) (ht : execSync p2 dom sender seq twoStep
    t1 corr logInt s = .next t) : t.dev.Canon := by
  unfold execSync at ht
  refine State.lift_keeps (fun d hd => ?_) hc ht
  repeat' first
    | with_reducible assumption
    | with_reducible apply Dev.syncReceive_canon

theorem keep_execFollowUp (dom : Byte) (sender : BitVec 80) (seq : BitVec 16) (t1 corr : Int) (s : State) {t : State}
    (hc : s.dev.Canon) (ht : execFollowUp dom sender seq t1 corr s = .next t) : t.dev.Canon := by
  unfold execFollowUp at ht
  refine State.lift_keeps (fun d hd => ?_) hc ht
  repeat' first
    | with_reducible assumption
    | with_reducible apply Dev.followUp_canon

theorem keep_execAnnounce (dom : Byte) (sender : BitVec 80) (p1 cls acc : Byte) (var : BitVec 16) (p2 : Byte) (gm :
    BitVec 64)
    (steps : BitVec 16) (logInt : BitVec 8) (s : State) {t : State} (hc : s.dev.Canon) (ht :
    execAnnounce dom sender p1 cls acc var p2 gm steps logInt s = .next t) : t.dev.Canon := by
  unfold execAnnounce at ht
  refine State.lift_keeps (fun d hd => ?_) hc ht
  repeat' first
    | with_reducible assumption
    | with_reducible apply Dev.announce_canon

theorem keep_execSyncTimeout (s : State) {t : State} (hc : s.dev.Canon) (ht : execSyncTimeout s = .next t) :
    t.dev.Canon := by
  unfold execSyncTimeout at ht
  refine State.lift_keeps (fun d hd => ?_) hc ht
  repeat' first
    | with_reducible assumption
    | with_reducible apply Dev.syncLost_canon

theorem keep_execArpRequest (sender : BitVec 48) (target : Word) (s : State) {t : State} (hc : s.dev.Canon) (ht :
    execArpRequest sender target s = .next t) : t.dev.Canon := by
  unfold execArpRequest at ht
  refine State.lift_keeps (fun d hd => ?_) hc ht
  repeat' first
    | with_reducible assumption
    | with_reducible apply Dev.arp_canon

theorem keep_execIcmpEcho (from_ dest : Word) (body : List Byte) (s : State) {t : State} (hc : s.dev.Canon) (ht :
    execIcmpEcho from_ dest body s = .next t) : t.dev.Canon := by
  unfold execIcmpEcho at ht
  refine State.lift_keeps (fun d hd => ?_) hc ht
  repeat' first
    | with_reducible assumption
    | with_reducible apply Dev.icmp_canon

theorem keep_execEthLinkChange (p2 up gig : Bool) (s : State) {t : State} (hc : s.dev.Canon) (ht : execEthLinkChange
    p2 up gig s = .next t) : t.dev.Canon := by
  unfold execEthLinkChange at ht
  refine State.lift_keeps (fun d hd => ?_) hc ht
  repeat' first
    | with_reducible assumption
    | with_reducible apply Dev.ethLink_canon

theorem keep_execAngleMessage (l : List Byte) (s : State) {t : State} (hc : s.dev.Canon) (ht : execAngleMessage l s =
    .next t) : t.dev.Canon := by
  unfold execAngleMessage at ht
  refine State.lift_keeps (fun d hd => ?_) hc ht
  repeat' first
    | with_reducible assumption
    | with_reducible apply Dev.angMessage_canon

theorem keep_execInputFilterTick (n : BitVec 5) (level : Bool) (s : State) {t : State} (hc : s.dev.Canon) (ht :
    execInputFilterTick n level s = .next t) : t.dev.Canon := by
  unfold execInputFilterTick at ht
  refine State.lift_keeps (fun d hd => ?_) hc ht
  repeat' first
    | with_reducible assumption
    | with_reducible apply Dev.filterTick_canon

theorem keep_execOutputOverload (k : BitVec 3) (s : State) {t : State} (hc : s.dev.Canon) (ht : execOutputOverload k
    s = .next t) : t.dev.Canon := by
  unfold execOutputOverload at ht
  refine State.lift_keeps (fun d hd => ?_) hc ht
  repeat' first
    | with_reducible assumption
    | with_reducible apply Dev.outOverload_canon

theorem keep_execOutputTestPulse (k : BitVec 3) (fell : BitVec 2) (s : State) {t : State} (hc : s.dev.Canon) (ht :
    execOutputTestPulse k fell s = .next t) : t.dev.Canon := by
  unfold execOutputTestPulse at ht
  refine State.lift_keeps (fun d hd => ?_) hc ht
  repeat' first
    | with_reducible assumption
    | with_reducible apply Dev.outPulse_canon

theorem keep_execHoldWarmTimeout (s : State) {t : State} (hc : s.dev.Canon) (ht : execHoldWarmTimeout s = .next t) :
    t.dev.Canon := by
  unfold execHoldWarmTimeout at ht
  refine State.lift_keeps (fun d hd => ?_) hc ht
  repeat' first
    | with_reducible assumption
    | with_reducible apply Dev.holdWarmEnd_canon

theorem keep_execKillInRelease (s : State) {t : State} (hc : s.dev.Canon) (ht : execKillInRelease s = .next t) :
    t.dev.Canon := by
  unfold execKillInRelease at ht
  refine State.lift_keeps (fun d hd => ?_) hc ht
  repeat' first
    | with_reducible assumption
    | with_reducible apply Dev.killRelease_canon

theorem keep_execModelFit (s : State) {t : State} (hc : s.dev.Canon) (ht : execModelFit s = .next t) : t.dev.Canon :=
    by
  unfold execModelFit at ht
  refine State.lift_keeps (fun d hd => ?_) hc ht
  repeat' first
    | with_reducible assumption
    | with_reducible apply Dev.fitRun_canon

theorem keep_execAgeingDaily (s : State) {t : State} (hc : s.dev.Canon) (ht : execAgeingDaily s = .next t) :
    t.dev.Canon := by
  unfold execAgeingDaily at ht
  refine State.lift_keeps (fun d hd => ?_) hc ht
  repeat' first
    | with_reducible assumption
    | with_reducible apply Dev.ageingDaily_canon

theorem keep_execFadd (p : Pair) (rd ra rb : GReg) (s : State) {t : State} (hc : s.dev.Canon) (ht : execFadd p rd ra
    rb s = .next t) : t.dev.Canon := by
  unfold execFadd at ht
  refine State.lift_keeps (fun d hd => ?_) hc ht
  repeat' first
    | with_reducible assumption
    | with_reducible apply Dev.ff2_canon

theorem keep_execFsub (p : Pair) (rd ra rb : GReg) (s : State) {t : State} (hc : s.dev.Canon) (ht : execFsub p rd ra
    rb s = .next t) : t.dev.Canon := by
  unfold execFsub at ht
  refine State.lift_keeps (fun d hd => ?_) hc ht
  repeat' first
    | with_reducible assumption
    | with_reducible apply Dev.ff2_canon

theorem keep_execFmul (p : Pair) (rd ra rb : GReg) (s : State) {t : State} (hc : s.dev.Canon) (ht : execFmul p rd ra
    rb s = .next t) : t.dev.Canon := by
  unfold execFmul at ht
  refine State.lift_keeps (fun d hd => ?_) hc ht
  repeat' first
    | with_reducible assumption
    | with_reducible apply Dev.ff2_canon

theorem keep_execFdiv (p : Pair) (rd ra rb : GReg) (s : State) {t : State} (hc : s.dev.Canon) (ht : execFdiv p rd ra
    rb s = .next t) : t.dev.Canon := by
  unfold execFdiv at ht
  refine State.lift_keeps (fun d hd => ?_) hc ht
  repeat' first
    | with_reducible assumption
    | with_reducible apply Dev.ff2_canon

theorem keep_execFmin (p : Pair) (rd ra rb : GReg) (s : State) {t : State} (hc : s.dev.Canon) (ht : execFmin p rd ra
    rb s = .next t) : t.dev.Canon := by
  unfold execFmin at ht
  refine State.lift_keeps (fun d hd => ?_) hc ht
  repeat' first
    | with_reducible assumption
    | with_reducible apply Dev.ff2_canon

theorem keep_execFmax (p : Pair) (rd ra rb : GReg) (s : State) {t : State} (hc : s.dev.Canon) (ht : execFmax p rd ra
    rb s = .next t) : t.dev.Canon := by
  unfold execFmax at ht
  refine State.lift_keeps (fun d hd => ?_) hc ht
  repeat' first
    | with_reducible assumption
    | with_reducible apply Dev.ff2_canon

theorem keep_execFmadd (p : Pair) (rd ra rb : GReg) (s : State) {t : State} (hc : s.dev.Canon) (ht : execFmadd p rd
    ra rb s = .next t) : t.dev.Canon := by
  unfold execFmadd at ht
  refine State.lift_keeps (fun d hd => ?_) hc ht
  repeat' first
    | with_reducible assumption
    | with_reducible apply Dev.alu_canon

theorem keep_execFeq (p : Pair) (rd ra rb : GReg) (s : State) {t : State} (hc : s.dev.Canon) (ht : execFeq p rd ra rb
    s = .next t) : t.dev.Canon := by
  unfold execFeq at ht
  refine State.lift_keeps (fun d hd => ?_) hc ht
  repeat' first
    | with_reducible assumption
    | with_reducible apply Dev.ff2_canon

theorem keep_execFlt (p : Pair) (rd ra rb : GReg) (s : State) {t : State} (hc : s.dev.Canon) (ht : execFlt p rd ra rb
    s = .next t) : t.dev.Canon := by
  unfold execFlt at ht
  refine State.lift_keeps (fun d hd => ?_) hc ht
  repeat' first
    | with_reducible assumption
    | with_reducible apply Dev.ff2_canon

theorem keep_execFle (p : Pair) (rd ra rb : GReg) (s : State) {t : State} (hc : s.dev.Canon) (ht : execFle p rd ra rb
    s = .next t) : t.dev.Canon := by
  unfold execFle at ht
  refine State.lift_keeps (fun d hd => ?_) hc ht
  repeat' first
    | with_reducible assumption
    | with_reducible apply Dev.ff2_canon

theorem keep_execFsqrt (p : Pair) (rd ra : GReg) (s : State) {t : State} (hc : s.dev.Canon) (ht : execFsqrt p rd ra s
    = .next t) : t.dev.Canon := by
  unfold execFsqrt at ht
  refine State.lift_keeps (fun d hd => ?_) hc ht
  repeat' first
    | with_reducible assumption
    | with_reducible apply Dev.ff1_canon

theorem keep_execFneg (p : Pair) (rd ra : GReg) (s : State) {t : State} (hc : s.dev.Canon) (ht : execFneg p rd ra s =
    .next t) : t.dev.Canon := by
  unfold execFneg at ht
  refine State.lift_keeps (fun d hd => ?_) hc ht
  repeat' first
    | with_reducible assumption
    | with_reducible apply Dev.ff1_canon

theorem keep_execFabs (p : Pair) (rd ra : GReg) (s : State) {t : State} (hc : s.dev.Canon) (ht : execFabs p rd ra s =
    .next t) : t.dev.Canon := by
  unfold execFabs at ht
  refine State.lift_keeps (fun d hd => ?_) hc ht
  repeat' first
    | with_reducible assumption
    | with_reducible apply Dev.ff1_canon

theorem keep_execFcvtws (p : Pair) (rd ra : GReg) (s : State) {t : State} (hc : s.dev.Canon) (ht : execFcvtws p rd ra
    s = .next t) : t.dev.Canon := by
  unfold execFcvtws at ht
  refine State.lift_keeps (fun d hd => ?_) hc ht
  repeat' first
    | with_reducible assumption
    | with_reducible apply Dev.ff1_canon

theorem keep_execFcvtsw (p : Pair) (rd ra : GReg) (s : State) {t : State} (hc : s.dev.Canon) (ht : execFcvtsw p rd ra
    s = .next t) : t.dev.Canon := by
  unfold execFcvtsw at ht
  refine State.lift_keeps (fun d hd => ?_) hc ht
  repeat' first
    | with_reducible assumption
    | with_reducible apply Dev.ff1_canon

theorem keep_execFcvtswu (p : Pair) (rd ra : GReg) (s : State) {t : State} (hc : s.dev.Canon) (ht : execFcvtswu p rd
    ra s = .next t) : t.dev.Canon := by
  unfold execFcvtswu at ht
  refine State.lift_keeps (fun d hd => ?_) hc ht
  repeat' first
    | with_reducible assumption
    | with_reducible apply Dev.ff1_canon

theorem keep_execDadd (p : Pair) (rd ra rb : GReg) (s : State) {t : State} (hc : s.dev.Canon) (ht : execDadd p rd ra
    rb s = .next t) : t.dev.Canon := by
  unfold execDadd at ht
  refine State.lift_keeps (fun d hd => ?_) hc ht
  repeat' first
    | with_reducible assumption
    | with_reducible apply Dev.dd2_canon

theorem keep_execDsub (p : Pair) (rd ra rb : GReg) (s : State) {t : State} (hc : s.dev.Canon) (ht : execDsub p rd ra
    rb s = .next t) : t.dev.Canon := by
  unfold execDsub at ht
  refine State.lift_keeps (fun d hd => ?_) hc ht
  repeat' first
    | with_reducible assumption
    | with_reducible apply Dev.dd2_canon

theorem keep_execDmul (p : Pair) (rd ra rb : GReg) (s : State) {t : State} (hc : s.dev.Canon) (ht : execDmul p rd ra
    rb s = .next t) : t.dev.Canon := by
  unfold execDmul at ht
  refine State.lift_keeps (fun d hd => ?_) hc ht
  repeat' first
    | with_reducible assumption
    | with_reducible apply Dev.dd2_canon

theorem keep_execDdiv (p : Pair) (rd ra rb : GReg) (s : State) {t : State} (hc : s.dev.Canon) (ht : execDdiv p rd ra
    rb s = .next t) : t.dev.Canon := by
  unfold execDdiv at ht
  refine State.lift_keeps (fun d hd => ?_) hc ht
  repeat' first
    | with_reducible assumption
    | with_reducible apply Dev.dd2_canon

theorem keep_execDmin (p : Pair) (rd ra rb : GReg) (s : State) {t : State} (hc : s.dev.Canon) (ht : execDmin p rd ra
    rb s = .next t) : t.dev.Canon := by
  unfold execDmin at ht
  refine State.lift_keeps (fun d hd => ?_) hc ht
  repeat' first
    | with_reducible assumption
    | with_reducible apply Dev.dd2_canon

theorem keep_execDmax (p : Pair) (rd ra rb : GReg) (s : State) {t : State} (hc : s.dev.Canon) (ht : execDmax p rd ra
    rb s = .next t) : t.dev.Canon := by
  unfold execDmax at ht
  refine State.lift_keeps (fun d hd => ?_) hc ht
  repeat' first
    | with_reducible assumption
    | with_reducible apply Dev.dd2_canon

theorem keep_execDmadd (p : Pair) (rd ra rb : GReg) (s : State) {t : State} (hc : s.dev.Canon) (ht : execDmadd p rd
    ra rb s = .next t) : t.dev.Canon := by
  unfold execDmadd at ht
  refine State.lift_keeps (fun d hd => ?_) hc ht
  repeat' first
    | with_reducible assumption
    | with_reducible apply Dev.aluIf_canon

theorem keep_execDeq (p : Pair) (rd ra rb : GReg) (s : State) {t : State} (hc : s.dev.Canon) (ht : execDeq p rd ra rb
    s = .next t) : t.dev.Canon := by
  unfold execDeq at ht
  refine State.lift_keeps (fun d hd => ?_) hc ht
  repeat' first
    | with_reducible assumption
    | with_reducible apply Dev.dcmp_canon

theorem keep_execDlt (p : Pair) (rd ra rb : GReg) (s : State) {t : State} (hc : s.dev.Canon) (ht : execDlt p rd ra rb
    s = .next t) : t.dev.Canon := by
  unfold execDlt at ht
  refine State.lift_keeps (fun d hd => ?_) hc ht
  repeat' first
    | with_reducible assumption
    | with_reducible apply Dev.dcmp_canon

theorem keep_execDle (p : Pair) (rd ra rb : GReg) (s : State) {t : State} (hc : s.dev.Canon) (ht : execDle p rd ra rb
    s = .next t) : t.dev.Canon := by
  unfold execDle at ht
  refine State.lift_keeps (fun d hd => ?_) hc ht
  repeat' first
    | with_reducible assumption
    | with_reducible apply Dev.dcmp_canon

theorem keep_execDsqrt (p : Pair) (rd ra : GReg) (s : State) {t : State} (hc : s.dev.Canon) (ht : execDsqrt p rd ra s
    = .next t) : t.dev.Canon := by
  unfold execDsqrt at ht
  refine State.lift_keeps (fun d hd => ?_) hc ht
  repeat' first
    | with_reducible assumption
    | with_reducible apply Dev.dd1_canon

theorem keep_execDneg (p : Pair) (rd ra : GReg) (s : State) {t : State} (hc : s.dev.Canon) (ht : execDneg p rd ra s =
    .next t) : t.dev.Canon := by
  unfold execDneg at ht
  refine State.lift_keeps (fun d hd => ?_) hc ht
  repeat' first
    | with_reducible assumption
    | with_reducible apply Dev.dd1_canon

theorem keep_execDabs (p : Pair) (rd ra : GReg) (s : State) {t : State} (hc : s.dev.Canon) (ht : execDabs p rd ra s =
    .next t) : t.dev.Canon := by
  unfold execDabs at ht
  refine State.lift_keeps (fun d hd => ?_) hc ht
  repeat' first
    | with_reducible assumption
    | with_reducible apply Dev.dd1_canon

theorem keep_execFcvtsd (p : Pair) (rd ra : GReg) (s : State) {t : State} (hc : s.dev.Canon) (ht : execFcvtsd p rd ra
    s = .next t) : t.dev.Canon := by
  unfold execFcvtsd at ht
  refine State.lift_keeps (fun d hd => ?_) hc ht
  repeat' first
    | with_reducible assumption
    | with_reducible apply Dev.aluIf_canon

theorem keep_execFcvtds (p : Pair) (rd ra : GReg) (s : State) {t : State} (hc : s.dev.Canon) (ht : execFcvtds p rd ra
    s = .next t) : t.dev.Canon := by
  unfold execFcvtds at ht
  refine State.lift_keeps (fun d hd => ?_) hc ht
  repeat' first
    | with_reducible assumption
    | with_reducible apply Dev.aluIf_canon

theorem keep_execDcvtws (p : Pair) (rd ra : GReg) (s : State) {t : State} (hc : s.dev.Canon) (ht : execDcvtws p rd ra
    s = .next t) : t.dev.Canon := by
  unfold execDcvtws at ht
  refine State.lift_keeps (fun d hd => ?_) hc ht
  repeat' first
    | with_reducible assumption
    | with_reducible apply Dev.aluIf_canon

theorem keep_execDcvtsw (p : Pair) (rd ra : GReg) (s : State) {t : State} (hc : s.dev.Canon) (ht : execDcvtsw p rd ra
    s = .next t) : t.dev.Canon := by
  unfold execDcvtsw at ht
  refine State.lift_keeps (fun d hd => ?_) hc ht
  repeat' first
    | with_reducible assumption
    | with_reducible apply Dev.aluIf_canon

theorem keep_execDcvtswu (p : Pair) (rd ra : GReg) (s : State) {t : State} (hc : s.dev.Canon) (ht : execDcvtswu p rd
    ra s = .next t) : t.dev.Canon := by
  unfold execDcvtswu at ht
  refine State.lift_keeps (fun d hd => ?_) hc ht
  repeat' first
    | with_reducible assumption
    | with_reducible apply Dev.aluIf_canon

theorem keep_execDieMeasurement (t0 t1 t2 t3 t4 t5 : BitVec 16) (s : State) {t : State} (hc : s.dev.Canon) (ht :
    execDieMeasurement t0 t1 t2 t3 t4 t5 s = .next t) : t.dev.Canon := by
  unfold execDieMeasurement at ht
  refine State.lift_keeps (fun d hd => ?_) hc ht
  repeat' first
    | with_reducible assumption
    | with_reducible apply Dev.dieMeasure_canon

theorem keep_execInServiceTest (n : BitVec 4) (pass : Bool) (vals : List (Nat × Int)) (s : State) {t : State} (hc :
    s.dev.Canon) (ht : execInServiceTest n pass vals s = .next t) : t.dev.Canon := by
  unfold execInServiceTest at ht
  refine State.lift_keeps (fun d hd => ?_) hc ht
  repeat' first
    | with_reducible assumption
    | with_reducible apply Dev.testRun_canon

theorem keep_execLedgerRecord (s : State) {t : State} (hc : s.dev.Canon) (ht : execLedgerRecord s = .next t) :
    t.dev.Canon := by
  unfold execLedgerRecord at ht
  refine State.lift_keeps (fun d hd => ?_) hc ht
  repeat' first
    | with_reducible assumption
    | with_reducible apply Dev.ledgerDaily_canon

theorem keep_execInjectionPhaseEnd (s : State) {t : State} (hc : s.dev.Canon) (ht : execInjectionPhaseEnd s = .next
    t) : t.dev.Canon := by
  unfold execInjectionPhaseEnd at ht
  refine State.lift_keeps (fun d hd => ?_) hc ht
  repeat' first
    | with_reducible assumption
    | with_reducible apply Dev.injPhaseEnd_canon

theorem keep_execBinAccumulate (s : State) {t : State} (hc : s.dev.Canon) (ht : execBinAccumulate s = .next t) :
    t.dev.Canon := by
  unfold execBinAccumulate at ht
  refine State.lift_keeps (fun d hd => ?_) hc ht
  repeat' first
    | with_reducible assumption
    | with_reducible apply Dev.binAccumulate_canon

theorem keep_execImpClearAll (src : Writer) (v : Word) (s : State) {t : State} (hc : s.dev.Canon) (ht :
    execImpClearAll src v s = .next t) : t.dev.Canon := by
  unfold execImpClearAll at ht
  refine State.lift_keeps (fun d hd => ?_) hc ht
  repeat' first
    | intro _
    | with_reducible assumption
    | with_reducible apply Dev.gate_canon
    | with_reducible apply Dev.impCtl_canon

theorem keep_execBinDescriptorWrite (src : Writer) (b : BitVec 4) (w : BitVec 2) (v : Word) (s : State) {t : State}
    (hc : s.dev.Canon) (ht : execBinDescriptorWrite src b w v s = .next t) : t.dev.Canon := by
  unfold execBinDescriptorWrite at ht
  refine State.lift_keeps (fun d hd => ?_) hc ht
  repeat' first
    | intro _
    | with_reducible assumption
    | with_reducible apply Dev.binWrite_canon
    | with_reducible apply Dev.gate_canon

theorem keep_execAdd (p : Pair) (rd ra rb : GReg) (s : State) {t : State} (hc : s.dev.Canon) (ht : execAdd p rd ra rb
    s = .next t) : t.dev.Canon := by
  unfold execAdd at ht
  refine State.lift_keeps (fun d hd => ?_) hc ht
  repeat' first
    | with_reducible assumption
    | with_reducible apply Dev.rrr_canon

theorem keep_execSub (p : Pair) (rd ra rb : GReg) (s : State) {t : State} (hc : s.dev.Canon) (ht : execSub p rd ra rb
    s = .next t) : t.dev.Canon := by
  unfold execSub at ht
  refine State.lift_keeps (fun d hd => ?_) hc ht
  repeat' first
    | with_reducible assumption
    | with_reducible apply Dev.rrr_canon

theorem keep_execAnd (p : Pair) (rd ra rb : GReg) (s : State) {t : State} (hc : s.dev.Canon) (ht : execAnd p rd ra rb
    s = .next t) : t.dev.Canon := by
  unfold execAnd at ht
  refine State.lift_keeps (fun d hd => ?_) hc ht
  repeat' first
    | with_reducible assumption
    | with_reducible apply Dev.rrr_canon

theorem keep_execOr (p : Pair) (rd ra rb : GReg) (s : State) {t : State} (hc : s.dev.Canon) (ht : execOr p rd ra rb s
    = .next t) : t.dev.Canon := by
  unfold execOr at ht
  refine State.lift_keeps (fun d hd => ?_) hc ht
  repeat' first
    | with_reducible assumption
    | with_reducible apply Dev.rrr_canon

theorem keep_execXor (p : Pair) (rd ra rb : GReg) (s : State) {t : State} (hc : s.dev.Canon) (ht : execXor p rd ra rb
    s = .next t) : t.dev.Canon := by
  unfold execXor at ht
  refine State.lift_keeps (fun d hd => ?_) hc ht
  repeat' first
    | with_reducible assumption
    | with_reducible apply Dev.rrr_canon

theorem keep_execNor (p : Pair) (rd ra rb : GReg) (s : State) {t : State} (hc : s.dev.Canon) (ht : execNor p rd ra rb
    s = .next t) : t.dev.Canon := by
  unfold execNor at ht
  refine State.lift_keeps (fun d hd => ?_) hc ht
  repeat' first
    | with_reducible assumption
    | with_reducible apply Dev.rrr_canon

theorem keep_execSlt (p : Pair) (rd ra rb : GReg) (s : State) {t : State} (hc : s.dev.Canon) (ht : execSlt p rd ra rb
    s = .next t) : t.dev.Canon := by
  unfold execSlt at ht
  refine State.lift_keeps (fun d hd => ?_) hc ht
  repeat' first
    | with_reducible assumption
    | with_reducible apply Dev.rrr_canon

theorem keep_execSltu (p : Pair) (rd ra rb : GReg) (s : State) {t : State} (hc : s.dev.Canon) (ht : execSltu p rd ra
    rb s = .next t) : t.dev.Canon := by
  unfold execSltu at ht
  refine State.lift_keeps (fun d hd => ?_) hc ht
  repeat' first
    | with_reducible assumption
    | with_reducible apply Dev.rrr_canon

theorem keep_execSll (p : Pair) (rd ra rb : GReg) (s : State) {t : State} (hc : s.dev.Canon) (ht : execSll p rd ra rb
    s = .next t) : t.dev.Canon := by
  unfold execSll at ht
  refine State.lift_keeps (fun d hd => ?_) hc ht
  repeat' first
    | with_reducible assumption
    | with_reducible apply Dev.rrr_canon

theorem keep_execSrl (p : Pair) (rd ra rb : GReg) (s : State) {t : State} (hc : s.dev.Canon) (ht : execSrl p rd ra rb
    s = .next t) : t.dev.Canon := by
  unfold execSrl at ht
  refine State.lift_keeps (fun d hd => ?_) hc ht
  repeat' first
    | with_reducible assumption
    | with_reducible apply Dev.rrr_canon

theorem keep_execSra (p : Pair) (rd ra rb : GReg) (s : State) {t : State} (hc : s.dev.Canon) (ht : execSra p rd ra rb
    s = .next t) : t.dev.Canon := by
  unfold execSra at ht
  refine State.lift_keeps (fun d hd => ?_) hc ht
  repeat' first
    | with_reducible assumption
    | with_reducible apply Dev.rrr_canon

theorem keep_execRor (p : Pair) (rd ra rb : GReg) (s : State) {t : State} (hc : s.dev.Canon) (ht : execRor p rd ra rb
    s = .next t) : t.dev.Canon := by
  unfold execRor at ht
  refine State.lift_keeps (fun d hd => ?_) hc ht
  repeat' first
    | with_reducible assumption
    | with_reducible apply Dev.rrr_canon

theorem keep_execMin (p : Pair) (rd ra rb : GReg) (s : State) {t : State} (hc : s.dev.Canon) (ht : execMin p rd ra rb
    s = .next t) : t.dev.Canon := by
  unfold execMin at ht
  refine State.lift_keeps (fun d hd => ?_) hc ht
  repeat' first
    | with_reducible assumption
    | with_reducible apply Dev.rrr_canon

theorem keep_execMax (p : Pair) (rd ra rb : GReg) (s : State) {t : State} (hc : s.dev.Canon) (ht : execMax p rd ra rb
    s = .next t) : t.dev.Canon := by
  unfold execMax at ht
  refine State.lift_keeps (fun d hd => ?_) hc ht
  repeat' first
    | with_reducible assumption
    | with_reducible apply Dev.rrr_canon

theorem keep_execMinu (p : Pair) (rd ra rb : GReg) (s : State) {t : State} (hc : s.dev.Canon) (ht : execMinu p rd ra
    rb s = .next t) : t.dev.Canon := by
  unfold execMinu at ht
  refine State.lift_keeps (fun d hd => ?_) hc ht
  repeat' first
    | with_reducible assumption
    | with_reducible apply Dev.rrr_canon

theorem keep_execMaxu (p : Pair) (rd ra rb : GReg) (s : State) {t : State} (hc : s.dev.Canon) (ht : execMaxu p rd ra
    rb s = .next t) : t.dev.Canon := by
  unfold execMaxu at ht
  refine State.lift_keeps (fun d hd => ?_) hc ht
  repeat' first
    | with_reducible assumption
    | with_reducible apply Dev.rrr_canon

theorem keep_execAdds (p : Pair) (rd ra rb : GReg) (s : State) {t : State} (hc : s.dev.Canon) (ht : execAdds p rd ra
    rb s = .next t) : t.dev.Canon := by
  unfold execAdds at ht
  refine State.lift_keeps (fun d hd => ?_) hc ht
  repeat' first
    | with_reducible assumption
    | with_reducible apply Dev.rrr_canon

theorem keep_execSubs (p : Pair) (rd ra rb : GReg) (s : State) {t : State} (hc : s.dev.Canon) (ht : execSubs p rd ra
    rb s = .next t) : t.dev.Canon := by
  unfold execSubs at ht
  refine State.lift_keeps (fun d hd => ?_) hc ht
  repeat' first
    | with_reducible assumption
    | with_reducible apply Dev.rrr_canon

theorem keep_execSlli (p : Pair) (rd ra : GReg) (sh : BitVec 5) (s : State) {t : State} (hc : s.dev.Canon) (ht :
    execSlli p rd ra sh s = .next t) : t.dev.Canon := by
  unfold execSlli at ht
  refine State.lift_keeps (fun d hd => ?_) hc ht
  repeat' first
    | with_reducible assumption
    | with_reducible apply Dev.rri_canon

theorem keep_execSrli (p : Pair) (rd ra : GReg) (sh : BitVec 5) (s : State) {t : State} (hc : s.dev.Canon) (ht :
    execSrli p rd ra sh s = .next t) : t.dev.Canon := by
  unfold execSrli at ht
  refine State.lift_keeps (fun d hd => ?_) hc ht
  repeat' first
    | with_reducible assumption
    | with_reducible apply Dev.rri_canon

theorem keep_execSrai (p : Pair) (rd ra : GReg) (sh : BitVec 5) (s : State) {t : State} (hc : s.dev.Canon) (ht :
    execSrai p rd ra sh s = .next t) : t.dev.Canon := by
  unfold execSrai at ht
  refine State.lift_keeps (fun d hd => ?_) hc ht
  repeat' first
    | with_reducible assumption
    | with_reducible apply Dev.rri_canon

theorem keep_execRori (p : Pair) (rd ra : GReg) (sh : BitVec 5) (s : State) {t : State} (hc : s.dev.Canon) (ht :
    execRori p rd ra sh s = .next t) : t.dev.Canon := by
  unfold execRori at ht
  refine State.lift_keeps (fun d hd => ?_) hc ht
  repeat' first
    | with_reducible assumption
    | with_reducible apply Dev.rri_canon

theorem keep_execClz (p : Pair) (rd ra : GReg) (s : State) {t : State} (hc : s.dev.Canon) (ht : execClz p rd ra s =
    .next t) : t.dev.Canon := by
  unfold execClz at ht
  refine State.lift_keeps (fun d hd => ?_) hc ht
  repeat' first
    | with_reducible assumption
    | with_reducible apply Dev.rri_canon

theorem keep_execPopc (p : Pair) (rd ra : GReg) (s : State) {t : State} (hc : s.dev.Canon) (ht : execPopc p rd ra s =
    .next t) : t.dev.Canon := by
  unfold execPopc at ht
  refine State.lift_keeps (fun d hd => ?_) hc ht
  repeat' first
    | with_reducible assumption
    | with_reducible apply Dev.rri_canon

theorem keep_execExtb (p : Pair) (rd ra : GReg) (s : State) {t : State} (hc : s.dev.Canon) (ht : execExtb p rd ra s =
    .next t) : t.dev.Canon := by
  unfold execExtb at ht
  refine State.lift_keeps (fun d hd => ?_) hc ht
  repeat' first
    | with_reducible assumption
    | with_reducible apply Dev.rri_canon

theorem keep_execExth (p : Pair) (rd ra : GReg) (s : State) {t : State} (hc : s.dev.Canon) (ht : execExth p rd ra s =
    .next t) : t.dev.Canon := by
  unfold execExth at ht
  refine State.lift_keeps (fun d hd => ?_) hc ht
  repeat' first
    | with_reducible assumption
    | with_reducible apply Dev.rri_canon

theorem keep_execAddi (p : Pair) (rd ra : GReg) (imm : BitVec 16) (s : State) {t : State} (hc : s.dev.Canon) (ht :
    execAddi p rd ra imm s = .next t) : t.dev.Canon := by
  unfold execAddi at ht
  refine State.lift_keeps (fun d hd => ?_) hc ht
  repeat' first
    | with_reducible assumption
    | with_reducible apply Dev.rri_canon

theorem keep_execAndi (p : Pair) (rd ra : GReg) (imm : BitVec 16) (s : State) {t : State} (hc : s.dev.Canon) (ht :
    execAndi p rd ra imm s = .next t) : t.dev.Canon := by
  unfold execAndi at ht
  refine State.lift_keeps (fun d hd => ?_) hc ht
  repeat' first
    | with_reducible assumption
    | with_reducible apply Dev.rri_canon

theorem keep_execOri (p : Pair) (rd ra : GReg) (imm : BitVec 16) (s : State) {t : State} (hc : s.dev.Canon) (ht :
    execOri p rd ra imm s = .next t) : t.dev.Canon := by
  unfold execOri at ht
  refine State.lift_keeps (fun d hd => ?_) hc ht
  repeat' first
    | with_reducible assumption
    | with_reducible apply Dev.rri_canon

theorem keep_execXori (p : Pair) (rd ra : GReg) (imm : BitVec 16) (s : State) {t : State} (hc : s.dev.Canon) (ht :
    execXori p rd ra imm s = .next t) : t.dev.Canon := by
  unfold execXori at ht
  refine State.lift_keeps (fun d hd => ?_) hc ht
  repeat' first
    | with_reducible assumption
    | with_reducible apply Dev.rri_canon

theorem keep_execSlti (p : Pair) (rd ra : GReg) (imm : BitVec 16) (s : State) {t : State} (hc : s.dev.Canon) (ht :
    execSlti p rd ra imm s = .next t) : t.dev.Canon := by
  unfold execSlti at ht
  refine State.lift_keeps (fun d hd => ?_) hc ht
  repeat' first
    | with_reducible assumption
    | with_reducible apply Dev.rri_canon

theorem keep_execSltiu (p : Pair) (rd ra : GReg) (imm : BitVec 16) (s : State) {t : State} (hc : s.dev.Canon) (ht :
    execSltiu p rd ra imm s = .next t) : t.dev.Canon := by
  unfold execSltiu at ht
  refine State.lift_keeps (fun d hd => ?_) hc ht
  repeat' first
    | with_reducible assumption
    | with_reducible apply Dev.rri_canon

theorem keep_execLui (p : Pair) (rd : GReg) (imm : BitVec 16) (s : State) {t : State} (hc : s.dev.Canon) (ht :
    execLui p rd imm s = .next t) : t.dev.Canon := by
  unfold execLui at ht
  refine State.lift_keeps (fun d hd => ?_) hc ht
  repeat' first
    | with_reducible assumption
    | with_reducible apply Dev.rri_canon

theorem keep_execMul (p : Pair) (rd ra rb : GReg) (s : State) {t : State} (hc : s.dev.Canon) (ht : execMul p rd ra rb
    s = .next t) : t.dev.Canon := by
  unfold execMul at ht
  refine State.lift_keeps (fun d hd => ?_) hc ht
  repeat' first
    | with_reducible assumption
    | with_reducible apply Dev.rrr_canon

theorem keep_execMulh (p : Pair) (rd ra rb : GReg) (s : State) {t : State} (hc : s.dev.Canon) (ht : execMulh p rd ra
    rb s = .next t) : t.dev.Canon := by
  unfold execMulh at ht
  refine State.lift_keeps (fun d hd => ?_) hc ht
  repeat' first
    | with_reducible assumption
    | with_reducible apply Dev.rrr_canon

theorem keep_execMulhu (p : Pair) (rd ra rb : GReg) (s : State) {t : State} (hc : s.dev.Canon) (ht : execMulhu p rd
    ra rb s = .next t) : t.dev.Canon := by
  unfold execMulhu at ht
  refine State.lift_keeps (fun d hd => ?_) hc ht
  repeat' first
    | with_reducible assumption
    | with_reducible apply Dev.rrr_canon

theorem keep_execDiv (p : Pair) (rd ra rb : GReg) (s : State) {t : State} (hc : s.dev.Canon) (ht : execDiv p rd ra rb
    s = .next t) : t.dev.Canon := by
  unfold execDiv at ht
  refine State.lift_keeps (fun d hd => ?_) hc ht
  repeat' first
    | with_reducible assumption
    | with_reducible apply Dev.alu_canon

theorem keep_execRem (p : Pair) (rd ra rb : GReg) (s : State) {t : State} (hc : s.dev.Canon) (ht : execRem p rd ra rb
    s = .next t) : t.dev.Canon := by
  unfold execRem at ht
  refine State.lift_keeps (fun d hd => ?_) hc ht
  repeat' first
    | with_reducible assumption
    | with_reducible apply Dev.alu_canon

theorem keep_execDivu (p : Pair) (rd ra rb : GReg) (s : State) {t : State} (hc : s.dev.Canon) (ht : execDivu p rd ra
    rb s = .next t) : t.dev.Canon := by
  unfold execDivu at ht
  refine State.lift_keeps (fun d hd => ?_) hc ht
  repeat' first
    | with_reducible assumption
    | with_reducible apply Dev.alu_canon

theorem keep_execRemu (p : Pair) (rd ra rb : GReg) (s : State) {t : State} (hc : s.dev.Canon) (ht : execRemu p rd ra
    rb s = .next t) : t.dev.Canon := by
  unfold execRemu at ht
  refine State.lift_keeps (fun d hd => ?_) hc ht
  repeat' first
    | with_reducible assumption
    | with_reducible apply Dev.alu_canon

theorem keep_execQmul15 (p : Pair) (rd ra rb : GReg) (s : State) {t : State} (hc : s.dev.Canon) (ht : execQmul15 p rd
    ra rb s = .next t) : t.dev.Canon := by
  unfold execQmul15 at ht
  refine State.lift_keeps (fun d hd => ?_) hc ht
  repeat' first
    | with_reducible assumption
    | with_reducible apply Dev.rrr_canon

theorem keep_execQmul31 (p : Pair) (rd ra rb : GReg) (s : State) {t : State} (hc : s.dev.Canon) (ht : execQmul31 p rd
    ra rb s = .next t) : t.dev.Canon := by
  unfold execQmul31 at ht
  refine State.lift_keeps (fun d hd => ?_) hc ht
  repeat' first
    | with_reducible assumption
    | with_reducible apply Dev.rrr_canon

theorem keep_execQadd15 (p : Pair) (rd ra rb : GReg) (s : State) {t : State} (hc : s.dev.Canon) (ht : execQadd15 p rd
    ra rb s = .next t) : t.dev.Canon := by
  unfold execQadd15 at ht
  refine State.lift_keeps (fun d hd => ?_) hc ht
  repeat' first
    | with_reducible assumption
    | with_reducible apply Dev.rrr_canon

theorem keep_execQsub15 (p : Pair) (rd ra rb : GReg) (s : State) {t : State} (hc : s.dev.Canon) (ht : execQsub15 p rd
    ra rb s = .next t) : t.dev.Canon := by
  unfold execQsub15 at ht
  refine State.lift_keeps (fun d hd => ?_) hc ht
  repeat' first
    | with_reducible assumption
    | with_reducible apply Dev.rrr_canon

theorem keep_execQmac31 (p : Pair) (rd ra rb : GReg) (s : State) {t : State} (hc : s.dev.Canon) (ht : execQmac31 p rd
    ra rb s = .next t) : t.dev.Canon := by
  unfold execQmac31 at ht
  refine State.lift_keeps (fun d hd => ?_) hc ht
  repeat' first
    | with_reducible assumption
    | with_reducible apply Dev.alu_canon

theorem keep_execQsat16 (p : Pair) (rd ra : GReg) (s : State) {t : State} (hc : s.dev.Canon) (ht : execQsat16 p rd ra
    s = .next t) : t.dev.Canon := by
  unfold execQsat16 at ht
  refine State.lift_keeps (fun d hd => ?_) hc ht
  repeat' first
    | with_reducible assumption
    | with_reducible apply Dev.rri_canon

theorem keep_execBeq (p : Pair) (ra rb : GReg) (off : BitVec 16) (s : State) {t : State} (hc : s.dev.Canon) (ht :
    execBeq p ra rb off s = .next t) : t.dev.Canon := by
  unfold execBeq at ht
  refine State.lift_keeps (fun d hd => ?_) hc ht
  repeat' first
    | with_reducible assumption
    | with_reducible apply Dev.branch_canon

theorem keep_execBne (p : Pair) (ra rb : GReg) (off : BitVec 16) (s : State) {t : State} (hc : s.dev.Canon) (ht :
    execBne p ra rb off s = .next t) : t.dev.Canon := by
  unfold execBne at ht
  refine State.lift_keeps (fun d hd => ?_) hc ht
  repeat' first
    | with_reducible assumption
    | with_reducible apply Dev.branch_canon

theorem keep_execBlt (p : Pair) (ra rb : GReg) (off : BitVec 16) (s : State) {t : State} (hc : s.dev.Canon) (ht :
    execBlt p ra rb off s = .next t) : t.dev.Canon := by
  unfold execBlt at ht
  refine State.lift_keeps (fun d hd => ?_) hc ht
  repeat' first
    | with_reducible assumption
    | with_reducible apply Dev.branch_canon

theorem keep_execBge (p : Pair) (ra rb : GReg) (off : BitVec 16) (s : State) {t : State} (hc : s.dev.Canon) (ht :
    execBge p ra rb off s = .next t) : t.dev.Canon := by
  unfold execBge at ht
  refine State.lift_keeps (fun d hd => ?_) hc ht
  repeat' first
    | with_reducible assumption
    | with_reducible apply Dev.branch_canon

theorem keep_execBltu (p : Pair) (ra rb : GReg) (off : BitVec 16) (s : State) {t : State} (hc : s.dev.Canon) (ht :
    execBltu p ra rb off s = .next t) : t.dev.Canon := by
  unfold execBltu at ht
  refine State.lift_keeps (fun d hd => ?_) hc ht
  repeat' first
    | with_reducible assumption
    | with_reducible apply Dev.branch_canon

theorem keep_execBgeu (p : Pair) (ra rb : GReg) (off : BitVec 16) (s : State) {t : State} (hc : s.dev.Canon) (ht :
    execBgeu p ra rb off s = .next t) : t.dev.Canon := by
  unfold execBgeu at ht
  refine State.lift_keeps (fun d hd => ?_) hc ht
  repeat' first
    | with_reducible assumption
    | with_reducible apply Dev.branch_canon

theorem keep_execJ (p : Pair) (off : BitVec 26) (s : State) {t : State} (hc : s.dev.Canon) (ht : execJ p off s =
    .next t) : t.dev.Canon := by
  unfold execJ at ht
  refine State.lift_keeps (fun d hd => ?_) hc ht
  repeat' first
    | with_reducible assumption
    | with_reducible apply Dev.jumpOff_canon

theorem keep_execJal (p : Pair) (off : BitVec 26) (s : State) {t : State} (hc : s.dev.Canon) (ht : execJal p off s =
    .next t) : t.dev.Canon := by
  unfold execJal at ht
  refine State.lift_keeps (fun d hd => ?_) hc ht
  repeat' first
    | with_reducible assumption
    | with_reducible apply Dev.jumpOff_canon

theorem keep_execJr (p : Pair) (ra : GReg) (s : State) {t : State} (hc : s.dev.Canon) (ht : execJr p ra s = .next t)
    : t.dev.Canon := by
  unfold execJr at ht
  refine State.lift_keeps (fun d hd => ?_) hc ht
  repeat' first
    | with_reducible assumption
    | with_reducible apply Dev.jumpReg_canon

theorem keep_execJalr (p : Pair) (rd ra : GReg) (s : State) {t : State} (hc : s.dev.Canon) (ht : execJalr p rd ra s =
    .next t) : t.dev.Canon := by
  unfold execJalr at ht
  refine State.lift_keeps (fun d hd => ?_) hc ht
  repeat' first
    | with_reducible assumption
    | with_reducible apply Dev.jumpReg_canon

theorem keep_execLdw (p : Pair) (rd ra : GReg) (imm : BitVec 16) (s : State) {t : State} (hc : s.dev.Canon) (ht :
    execLdw p rd ra imm s = .next t) : t.dev.Canon := by
  unfold execLdw at ht
  refine State.lift_keeps (fun d hd => ?_) hc ht
  repeat' first
    | with_reducible assumption
    | with_reducible apply Dev.load_canon

theorem keep_execLdh (p : Pair) (rd ra : GReg) (imm : BitVec 16) (s : State) {t : State} (hc : s.dev.Canon) (ht :
    execLdh p rd ra imm s = .next t) : t.dev.Canon := by
  unfold execLdh at ht
  refine State.lift_keeps (fun d hd => ?_) hc ht
  repeat' first
    | with_reducible assumption
    | with_reducible apply Dev.load_canon

theorem keep_execLdhu (p : Pair) (rd ra : GReg) (imm : BitVec 16) (s : State) {t : State} (hc : s.dev.Canon) (ht :
    execLdhu p rd ra imm s = .next t) : t.dev.Canon := by
  unfold execLdhu at ht
  refine State.lift_keeps (fun d hd => ?_) hc ht
  repeat' first
    | with_reducible assumption
    | with_reducible apply Dev.load_canon

theorem keep_execLdb (p : Pair) (rd ra : GReg) (imm : BitVec 16) (s : State) {t : State} (hc : s.dev.Canon) (ht :
    execLdb p rd ra imm s = .next t) : t.dev.Canon := by
  unfold execLdb at ht
  refine State.lift_keeps (fun d hd => ?_) hc ht
  repeat' first
    | with_reducible assumption
    | with_reducible apply Dev.load_canon

theorem keep_execLdbu (p : Pair) (rd ra : GReg) (imm : BitVec 16) (s : State) {t : State} (hc : s.dev.Canon) (ht :
    execLdbu p rd ra imm s = .next t) : t.dev.Canon := by
  unfold execLdbu at ht
  refine State.lift_keeps (fun d hd => ?_) hc ht
  repeat' first
    | with_reducible assumption
    | with_reducible apply Dev.load_canon

theorem keep_execLdd (p : Pair) (rd ra : GReg) (imm : BitVec 16) (s : State) {t : State} (hc : s.dev.Canon) (ht :
    execLdd p rd ra imm s = .next t) : t.dev.Canon := by
  unfold execLdd at ht
  refine State.lift_keeps (fun d hd => ?_) hc ht
  repeat' first
    | with_reducible assumption
    | with_reducible apply Dev.load_canon

theorem keep_execStw (p : Pair) (rd ra : GReg) (imm : BitVec 16) (s : State) {t : State} (hc : s.dev.Canon) (ht :
    execStw p rd ra imm s = .next t) : t.dev.Canon := by
  unfold execStw at ht
  refine State.lift_keeps (fun d hd => ?_) hc ht
  repeat' first
    | with_reducible assumption
    | with_reducible apply Dev.store_canon

theorem keep_execSth (p : Pair) (rd ra : GReg) (imm : BitVec 16) (s : State) {t : State} (hc : s.dev.Canon) (ht :
    execSth p rd ra imm s = .next t) : t.dev.Canon := by
  unfold execSth at ht
  refine State.lift_keeps (fun d hd => ?_) hc ht
  repeat' first
    | with_reducible assumption
    | with_reducible apply Dev.store_canon

theorem keep_execStb (p : Pair) (rd ra : GReg) (imm : BitVec 16) (s : State) {t : State} (hc : s.dev.Canon) (ht :
    execStb p rd ra imm s = .next t) : t.dev.Canon := by
  unfold execStb at ht
  refine State.lift_keeps (fun d hd => ?_) hc ht
  repeat' first
    | with_reducible assumption
    | with_reducible apply Dev.store_canon

theorem keep_execStd (p : Pair) (rd ra : GReg) (imm : BitVec 16) (s : State) {t : State} (hc : s.dev.Canon) (ht :
    execStd p rd ra imm s = .next t) : t.dev.Canon := by
  unfold execStd at ht
  refine State.lift_keeps (fun d hd => ?_) hc ht
  repeat' first
    | with_reducible assumption
    | with_reducible apply Dev.store_canon

theorem keep_execLdx (p : Pair) (rd ra : GReg) (s : State) {t : State} (hc : s.dev.Canon) (ht : execLdx p rd ra s =
    .next t) : t.dev.Canon := by
  unfold execLdx at ht
  refine State.lift_keeps (fun d hd => ?_) hc ht
  repeat' first
    | with_reducible assumption
    | with_reducible apply Dev.atomic_canon

theorem keep_execStx (p : Pair) (rd ra rb : GReg) (s : State) {t : State} (hc : s.dev.Canon) (ht : execStx p rd ra rb
    s = .next t) : t.dev.Canon := by
  unfold execStx at ht
  refine State.lift_keeps (fun d hd => ?_) hc ht
  repeat' first
    | with_reducible assumption
    | with_reducible apply Dev.atomic_canon

theorem keep_execAmoswp (p : Pair) (rd ra rb : GReg) (s : State) {t : State} (hc : s.dev.Canon) (ht : execAmoswp p rd
    ra rb s = .next t) : t.dev.Canon := by
  unfold execAmoswp at ht
  refine State.lift_keeps (fun d hd => ?_) hc ht
  repeat' first
    | with_reducible assumption
    | with_reducible apply Dev.amo_canon

theorem keep_execAmoadd (p : Pair) (rd ra rb : GReg) (s : State) {t : State} (hc : s.dev.Canon) (ht : execAmoadd p rd
    ra rb s = .next t) : t.dev.Canon := by
  unfold execAmoadd at ht
  refine State.lift_keeps (fun d hd => ?_) hc ht
  repeat' first
    | with_reducible assumption
    | with_reducible apply Dev.amo_canon

theorem keep_execAmoand (p : Pair) (rd ra rb : GReg) (s : State) {t : State} (hc : s.dev.Canon) (ht : execAmoand p rd
    ra rb s = .next t) : t.dev.Canon := by
  unfold execAmoand at ht
  refine State.lift_keeps (fun d hd => ?_) hc ht
  repeat' first
    | with_reducible assumption
    | with_reducible apply Dev.amo_canon

theorem keep_execAmoor (p : Pair) (rd ra rb : GReg) (s : State) {t : State} (hc : s.dev.Canon) (ht : execAmoor p rd
    ra rb s = .next t) : t.dev.Canon := by
  unfold execAmoor at ht
  refine State.lift_keeps (fun d hd => ?_) hc ht
  repeat' first
    | with_reducible assumption
    | with_reducible apply Dev.amo_canon

theorem keep_execAmomax (p : Pair) (rd ra rb : GReg) (s : State) {t : State} (hc : s.dev.Canon) (ht : execAmomax p rd
    ra rb s = .next t) : t.dev.Canon := by
  unfold execAmomax at ht
  refine State.lift_keeps (fun d hd => ?_) hc ht
  repeat' first
    | with_reducible assumption
    | with_reducible apply Dev.amo_canon

theorem keep_execAmomin (p : Pair) (rd ra rb : GReg) (s : State) {t : State} (hc : s.dev.Canon) (ht : execAmomin p rd
    ra rb s = .next t) : t.dev.Canon := by
  unfold execAmomin at ht
  refine State.lift_keeps (fun d hd => ?_) hc ht
  repeat' first
    | with_reducible assumption
    | with_reducible apply Dev.amo_canon

theorem keep_execFeedConfigWrite (src : Writer) (n : BitVec 2) (v : Word) (s : State) {t : State} (hc : s.dev.Canon)
    (ht : execFeedConfigWrite src n v s = .next t) : t.dev.Canon := by
  unfold execFeedConfigWrite at ht
  refine State.lift_keeps (fun d hd => ?_) hc ht
  repeat' first
    | intro _
    | with_reducible assumption
    | with_reducible apply Dev.feedCfg_canon
    | with_reducible apply Dev.gate_canon

theorem keep_execTachEdge (f : BitVec 2) (s : State) {t : State} (hc : s.dev.Canon) (ht : execTachEdge f s = .next t)
    : t.dev.Canon := by
  unfold execTachEdge at ht
  refine State.lift_keeps (fun d hd => ?_) hc ht
  repeat' first
    | with_reducible assumption
    | with_reducible apply Dev.tachEdge_canon

theorem keep_execFanStall (f : BitVec 2) (s : State) {t : State} (hc : s.dev.Canon) (ht : execFanStall f s = .next t)
    : t.dev.Canon := by
  unfold execFanStall at ht
  refine State.lift_keeps (fun d hd => ?_) hc ht
  repeat' first
    | with_reducible assumption
    | with_reducible apply Dev.fanStall_canon

theorem keep_execServoPeriod (s : State) {t : State} (hc : s.dev.Canon) (ht : execServoPeriod s = .next t) :
    t.dev.Canon := by
  unfold execServoPeriod at ht
  refine State.lift_keeps (fun d hd => ?_) hc ht
  repeat' first
    | with_reducible assumption
    | with_reducible apply Dev.servo_canon

theorem keep_execStepPulse (a : BitVec 2) (s : State) {t : State} (hc : s.dev.Canon) (ht : execStepPulse a s = .next
    t) : t.dev.Canon := by
  unfold execStepPulse at ht
  refine State.lift_keeps (fun d hd => ?_) hc ht
  repeat' first
    | with_reducible assumption
    | with_reducible apply Dev.stepPulse_canon

theorem keep_execActuatorReply (a : BitVec 2) (seq flags : Byte) (s : State) {t : State} (hc : s.dev.Canon) (ht :
    execActuatorReply a seq flags s = .next t) : t.dev.Canon := by
  unfold execActuatorReply at ht
  refine State.lift_keeps (fun d hd => ?_) hc ht
  repeat' first
    | intro _
    | with_reducible assumption
    | with_reducible apply Dev.actReply_canon
    | with_reducible apply Dev.homeNext_canon

theorem keep_execTargetWrite (src : Writer) (a : BitVec 2) (v : Word) (s : State) {t : State} (hc : s.dev.Canon) (ht
    : execTargetWrite src a v s = .next t) : t.dev.Canon := by
  unfold execTargetWrite at ht
  refine State.lift_keeps (fun d hd => ?_) hc ht
  repeat' first
    | intro _
    | with_reducible assumption
    | with_reducible apply Dev.gate_canon
    | with_reducible apply Dev.targetWrite_canon

theorem keep_execHome (src : Writer) (a : BitVec 2) (s : State) {t : State} (hc : s.dev.Canon) (ht : execHome src a s
    = .next t) : t.dev.Canon := by
  unfold execHome at ht
  refine State.lift_keeps (fun d hd => ?_) hc ht
  repeat' first
    | intro _
    | with_reducible assumption
    | with_reducible apply Dev.gate_canon
    | with_reducible apply Dev.motCmd_canon

theorem keep_execStopAxis (src : Writer) (a : BitVec 2) (s : State) {t : State} (hc : s.dev.Canon) (ht : execStopAxis
    src a s = .next t) : t.dev.Canon := by
  unfold execStopAxis at ht
  refine State.lift_keeps (fun d hd => ?_) hc ht
  repeat' first
    | intro _
    | with_reducible assumption
    | with_reducible apply Dev.gate_canon
    | with_reducible apply Dev.motCmd_canon

theorem keep_execClearFault (src : Writer) (a : BitVec 2) (s : State) {t : State} (hc : s.dev.Canon) (ht :
    execClearFault src a s = .next t) : t.dev.Canon := by
  unfold execClearFault at ht
  refine State.lift_keeps (fun d hd => ?_) hc ht
  repeat' first
    | intro _
    | with_reducible assumption
    | with_reducible apply Dev.gate_canon
    | with_reducible apply Dev.motCmd_canon

theorem keep_execDeclareHomed (src : Writer) (a : BitVec 2) (s : State) {t : State} (hc : s.dev.Canon) (ht :
    execDeclareHomed src a s = .next t) : t.dev.Canon := by
  unfold execDeclareHomed at ht
  refine State.lift_keeps (fun d hd => ?_) hc ht
  repeat' first
    | intro _
    | with_reducible assumption
    | with_reducible apply Dev.gate_canon
    | with_reducible apply Dev.motCmd_canon

theorem keep_execRegisterWrite (src : Writer) (a v : Word) (s : State) {t : State} (hc : s.dev.Canon) (ht :
    execRegisterWrite src a v s = .next t) : t.dev.Canon := by
  unfold execRegisterWrite at ht
  refine State.lift_keeps (fun d hd => ?_) hc ht
  repeat' first
    | with_reducible assumption
    | with_reducible apply Dev.registerWrite_canon

theorem keep_execFeedLost (fb : Bool) (mv : BitVec 16) (s : State) {t : State} (hc : s.dev.Canon) (ht : execFeedLost
    fb mv s = .next t) : t.dev.Canon := by
  unfold execFeedLost at ht
  refine State.always_keeps (fun d hd => ?_) hc ht
  repeat' first
    | with_reducible assumption
    | with_reducible apply Dev.feedLost_canon

theorem keep_execFeedGood (fb : Bool) (mv : BitVec 16) (s : State) {t : State} (hc : s.dev.Canon) (ht : execFeedGood
    fb mv s = .next t) : t.dev.Canon := by
  unfold execFeedGood at ht
  refine State.always_keeps (fun d hd => ?_) hc ht
  repeat' first
    | with_reducible assumption
    | with_reducible apply Dev.feedGood_canon

theorem keep_execRideExpiry (s : State) {t : State} (hc : s.dev.Canon) (ht : execRideExpiry s = .next t) :
    t.dev.Canon := by
  unfold execRideExpiry at ht
  refine State.lift_keeps (fun d hd => ?_) hc ht
  repeat' first
    | with_reducible assumption
    | with_reducible apply Dev.rideExpiry_canon

theorem keep_execBankCharged (s : State) {t : State} (hc : s.dev.Canon) (ht : execBankCharged s = .next t) :
    t.dev.Canon := by
  unfold execBankCharged at ht
  refine State.lift_keeps (fun d hd => ?_) hc ht
  repeat' first
    | with_reducible assumption
    | with_reducible apply Dev.bankCharged_canon

theorem keep_execBankNvClose (s : State) {t : State} (hc : s.dev.Canon) (ht : execBankNvClose s = .next t) :
    t.dev.Canon := by
  unfold execBankNvClose at ht
  refine State.lift_keeps (fun d hd => ?_) hc ht
  repeat' first
    | with_reducible assumption
    | with_reducible apply Dev.bankClose_canon

theorem keep_execBankExhausted (s : State) {t : State} (hc : s.dev.Canon) (ht : execBankExhausted s = .next t) :
    t.dev.Canon := by
  unfold execBankExhausted at ht
  refine State.lift_keeps (fun d hd => ?_) hc ht
  repeat' first
    | with_reducible assumption
    | with_reducible apply Dev.bankOut_canon

theorem keep_execHoldUpReturn (s : State) {t : State} (hc : s.dev.Canon) (ht : execHoldUpReturn s = .next t) :
    t.dev.Canon := by
  unfold execHoldUpReturn at ht
  refine State.lift_keeps (fun d hd => ?_) hc ht
  repeat' first
    | with_reducible assumption
    | with_reducible apply Dev.holdReturn_canon

theorem keep_execStandbyIdleEntry (s : State) {t : State} (hc : s.dev.Canon) (ht : execStandbyIdleEntry s = .next t)
    : t.dev.Canon := by
  unfold execStandbyIdleEntry at ht
  refine State.lift_keeps (fun d hd => ?_) hc ht
  repeat' first
    | with_reducible assumption
    | with_reducible apply Dev.idleEntry_canon

theorem keep_execStandbyWake (source : BitVec 2) (adr : BitVec 7) (s : State) {t : State} (hc : s.dev.Canon) (ht :
    execStandbyWake source adr s = .next t) : t.dev.Canon := by
  unfold execStandbyWake at ht
  refine State.always_keeps (fun d hd => ?_) hc ht
  repeat' first
    | with_reducible assumption
    | with_reducible apply Dev.wakeBy_canon

theorem keep_execWakeChg (active : Bool) (s : State) {t : State} (hc : s.dev.Canon) (ht : execWakeChg active s =
    .next t) : t.dev.Canon := by
  unfold execWakeChg at ht
  refine State.always_keeps (fun d hd => ?_) hc ht
  repeat' first
    | with_reducible assumption
    | with_reducible apply Dev.wakeChg_canon

theorem keep_execPowerOn (s : State) {t : State} (hc : s.dev.Canon) (ht : execPowerOn s = .next t) : t.dev.Canon := by
  unfold execPowerOn at ht
  refine State.always_keeps (fun d hd => ?_) hc ht
  repeat' first
    | with_reducible assumption
    | with_reducible apply Dev.powerOn_canon

theorem keep_execBrownOut (s : State) {t : State} (hc : s.dev.Canon) (ht : execBrownOut s = .next t) : t.dev.Canon :=
    by
  unfold execBrownOut at ht
  refine State.lift_keeps (fun d hd => ?_) hc ht
  repeat' first
    | with_reducible assumption
    | with_reducible apply Dev.brownOut_canon

theorem keep_execWatchdogKick (src : Writer) (v : Word) (s : State) {t : State} (hc : s.dev.Canon) (ht :
    execWatchdogKick src v s = .next t) : t.dev.Canon := by
  unfold execWatchdogKick at ht
  refine State.lift_keeps (fun d hd => ?_) hc ht
  repeat' first
    | intro _
    | with_reducible assumption
    | with_reducible apply Dev.gate_canon
    | with_reducible apply Dev.wdtWrite_canon

theorem keep_execWatchdogExpiry (s : State) {t : State} (hc : s.dev.Canon) (ht : execWatchdogExpiry s = .next t) :
    t.dev.Canon := by
  unfold execWatchdogExpiry at ht
  refine State.lift_keeps (fun d hd => ?_) hc ht
  repeat' first
    | with_reducible assumption
    | with_reducible apply Dev.watchdogOut_canon

theorem keep_execSoftwareReset (src : Writer) (v : Word) (s : State) {t : State} (hc : s.dev.Canon) (ht :
    execSoftwareReset src v s = .next t) : t.dev.Canon := by
  unfold execSoftwareReset at ht
  refine State.lift_keeps (fun d hd => ?_) hc ht
  repeat' first
    | intro _
    | with_reducible assumption
    | with_reducible apply Dev.gate_canon
    | with_reducible apply Dev.pwrCtl_canon

theorem keep_execStby (src : Writer) (v : Word) (s : State) {t : State} (hc : s.dev.Canon) (ht : execStby src v s =
    .next t) : t.dev.Canon := by
  unfold execStby at ht
  refine State.lift_keeps (fun d hd => ?_) hc ht
  repeat' first
    | intro _
    | with_reducible assumption
    | with_reducible apply Dev.gate_canon
    | with_reducible apply Dev.pwrCtl_canon

theorem keep_execRstNReset (high : Bool) (s : State) {t : State} (hc : s.dev.Canon) (ht : execRstNReset high s =
    .next t) : t.dev.Canon := by
  unfold execRstNReset at ht
  refine State.always_keeps (fun d hd => ?_) hc ht
  repeat' first
    | with_reducible assumption
    | with_reducible apply Dev.rstN_canon

theorem keep_execThermalCut (s : State) {t : State} (hc : s.dev.Canon) (ht : execThermalCut s = .next t) :
    t.dev.Canon := by
  unfold execThermalCut at ht
  refine State.always_keeps (fun d hd => ?_) hc ht
  repeat' first
    | with_reducible assumption
    | with_reducible apply Dev.thermalCut_canon

theorem keep_execThermalRestart (s : State) {t : State} (hc : s.dev.Canon) (ht : execThermalRestart s = .next t) :
    t.dev.Canon := by
  unfold execThermalRestart at ht
  refine State.always_keeps (fun d hd => ?_) hc ht
  repeat' first
    | with_reducible assumption
    | with_reducible apply Dev.thermalRestart_canon

theorem keep_execAlwaysOnSave (s : State) {t : State} (hc : s.dev.Canon) (ht : execAlwaysOnSave s = .next t) :
    t.dev.Canon := by
  unfold execAlwaysOnSave at ht
  refine State.lift_keeps (fun d hd => ?_) hc ht
  repeat' first
    | intro _
    | with_reducible assumption
    | with_reducible apply Dev.alwaysOnSave_canon
    | with_reducible apply canon_ite
    | split

theorem keep_execTwinResyncReset (s : State) {t : State} (hc : s.dev.Canon) (ht : execTwinResyncReset s = .next t) :
    t.dev.Canon := by
  unfold execTwinResyncReset at ht
  refine State.lift_keeps (fun d hd => ?_) hc ht
  repeat' first
    | with_reducible assumption
    | with_reducible apply Dev.resyncReset_canon

theorem keep_execLimEntryWordWrite (src : Writer) (i : BitVec 11) (w : BitVec 2) (v : Word) (s : State) {t : State}
    (hc : s.dev.Canon) (ht : execLimEntryWordWrite src i w v s = .next t) : t.dev.Canon := by
  unfold execLimEntryWordWrite at ht
  refine State.lift_keeps (fun d hd => ?_) hc ht
  repeat' first
    | intro _
    | with_reducible assumption
    | with_reducible apply Dev.gate_canon
    | with_reducible apply Dev.limWrite_canon

theorem keep_execLimEntryCommit (src : Writer) (i : BitVec 11) (v : Word) (s : State) {t : State} (hc : s.dev.Canon)
    (ht : execLimEntryCommit src i v s = .next t) : t.dev.Canon := by
  unfold execLimEntryCommit at ht
  refine State.lift_keeps (fun d hd => ?_) hc ht
  repeat' first
    | intro _
    | with_reducible assumption
    | with_reducible apply Dev.gate_canon
    | with_reducible apply Dev.limCommit_canon

theorem keep_execSweepWatchdog (s : State) {t : State} (hc : s.dev.Canon) (ht : execSweepWatchdog s = .next t) :
    t.dev.Canon := by
  unfold execSweepWatchdog at ht
  refine State.lift_keeps (fun d hd => ?_) hc ht
  repeat' first
    | with_reducible assumption
    | with_reducible apply Dev.swdExpiry_canon

theorem keep_execExternalTrip (low : Bool) (s : State) {t : State} (hc : s.dev.Canon) (ht : execExternalTrip low s =
    .next t) : t.dev.Canon := by
  unfold execExternalTrip at ht
  refine State.lift_keeps (fun d hd => ?_) hc ht
  repeat' first
    | intro _
    | with_reducible assumption
    | with_reducible apply Dev.crim_canon
    | (unfold done; dsimp only)
    | (unfold judged; dsimp only)
    | with_reducible apply canon_ite
    | with_reducible apply canon_ite_snd
    | with_reducible apply canon_ite_fst
    | with_reducible apply canon_foldl
    | with_reducible apply canon_foldl_fst
    | with_reducible apply canon_foldl_snd
    | (unfold Dev.Canon; dsimp only; with_reducible refine canon_fold ?_)
    | (extract_lets +onlyGivenNames d1; refine canon_have (d := d1) ?_ ?_; unfold d1; rotate_left; intro hd1; clear_value d1; rotate_right)
    | (extract_lets +onlyGivenNames d1; clear_value d1)
    | split
    | with_reducible refine canon_snd ?_ (by with_reducible assumption)
    | with_reducible refine canon_fst ?_ (by with_reducible assumption)
    | dsimp only

theorem keep_execTripClear (src : Writer) (v : Word) (s : State) {t : State} (hc : s.dev.Canon) (ht : execTripClear
    src v s = .next t) : t.dev.Canon := by
  unfold execTripClear at ht
  refine State.lift_keeps (fun d hd => ?_) hc ht
  repeat' first
    | intro _
    | with_reducible assumption
    | with_reducible apply Dev.gate_canon
    | with_reducible apply Dev.tripClear_canon

theorem keep_execSoftwareTrip (src : Writer) (v : Word) (s : State) {t : State} (hc : s.dev.Canon) (ht :
    execSoftwareTrip src v s = .next t) : t.dev.Canon := by
  unfold execSoftwareTrip at ht
  refine State.lift_keeps (fun d hd => ?_) hc ht
  repeat' first
    | intro _
    | with_reducible assumption
    | with_reducible apply Dev.gate_canon
    | with_reducible apply Dev.swTrip_canon

theorem keep_execSoftwareOchre (src : Writer) (och : Bool) (s : State) {t : State} (hc : s.dev.Canon) (ht :
    execSoftwareOchre src och s = .next t) : t.dev.Canon := by
  unfold execSoftwareOchre at ht
  refine State.lift_keeps (fun d hd => ?_) hc ht
  repeat' first
    | intro _
    | with_reducible assumption
    | with_reducible apply Dev.gate_canon
    | with_reducible apply Dev.swTrip_canon

theorem keep_execLimTest (src : Writer) (v : Word) (bad : BitVec 4) (s : State) {t : State} (hc : s.dev.Canon) (ht :
    execLimTest src v bad s = .next t) : t.dev.Canon := by
  unfold execLimTest at ht
  refine State.lift_keeps (fun d hd => ?_) hc ht
  repeat' first
    | intro _
    | with_reducible assumption
    | with_reducible apply Dev.gate_canon
    | with_reducible apply Dev.limTest_canon

theorem keep_execLimLock (src : Writer) (v : Word) (s : State) {t : State} (hc : s.dev.Canon) (ht : execLimLock src v
    s = .next t) : t.dev.Canon := by
  unfold execLimLock at ht
  refine State.lift_keeps (fun d hd => ?_) hc ht
  repeat' first
    | intro _
    | with_reducible assumption
    | with_reducible apply Dev.gate_canon
    | with_reducible apply Dev.plainWrite_canon

theorem keep_execPwmPeriodStart (p : BitVec 2) (s : State) {t : State} (hc : s.dev.Canon) (ht : execPwmPeriodStart p
    s = .next t) : t.dev.Canon := by
  unfold execPwmPeriodStart at ht
  refine State.lift_keeps (fun d hd => ?_) hc ht
  repeat' first
    | with_reducible assumption
    | with_reducible apply Dev.pairTurn_canon

theorem keep_execPwmPeriodCentre (p : BitVec 2) (s : State) {t : State} (hc : s.dev.Canon) (ht : execPwmPeriodCentre
    p s = .next t) : t.dev.Canon := by
  unfold execPwmPeriodCentre at ht
  refine State.lift_keeps (fun d hd => ?_) hc ht
  repeat' first
    | with_reducible assumption
    | with_reducible apply Dev.pairCentre_canon

theorem keep_execPwmPerWrite (src : Writer) (p : BitVec 2) (v : Word) (s : State) {t : State} (hc : s.dev.Canon) (ht
    : execPwmPerWrite src p v s = .next t) : t.dev.Canon := by
  unfold execPwmPerWrite at ht
  refine State.lift_keeps (fun d hd => ?_) hc ht
  repeat' first
    | intro _
    | with_reducible assumption
    | with_reducible apply Dev.gate_canon
    | with_reducible apply Dev.perWrite_canon

theorem keep_execPwmSync (src : Writer) (v : Word) (s : State) {t : State} (hc : s.dev.Canon) (ht : execPwmSync src v
    s = .next t) : t.dev.Canon := by
  unfold execPwmSync at ht
  refine State.lift_keeps (fun d hd => ?_) hc ht
  repeat' first
    | intro _
    | with_reducible assumption
    | with_reducible apply Dev.gate_canon
    | with_reducible apply Dev.pwmCtl_canon

theorem keep_execConvFltFall (fromReset : Bool) (s : State) {t : State} (hc : s.dev.Canon) (ht : execConvFltFall
    fromReset s = .next t) : t.dev.Canon := by
  unfold execConvFltFall at ht
  refine State.lift_keeps (fun d hd => ?_) hc ht
  repeat' first
    | with_reducible assumption
    | with_reducible apply Dev.convFltFall_canon

theorem keep_execConvFltRise (s : State) {t : State} (hc : s.dev.Canon) (ht : execConvFltRise s = .next t) :
    t.dev.Canon := by
  unfold execConvFltRise at ht
  refine State.lift_keeps (fun d hd => ?_) hc ht
  repeat' first
    | with_reducible assumption
    | with_reducible apply Dev.convFltRise_canon

theorem keep_execPwmBlockClear (src : Writer) (v : Word) (s : State) {t : State} (hc : s.dev.Canon) (ht :
    execPwmBlockClear src v s = .next t) : t.dev.Canon := by
  unfold execPwmBlockClear at ht
  refine State.lift_keeps (fun d hd => ?_) hc ht
  repeat' first
    | intro _
    | with_reducible assumption
    | with_reducible apply Dev.blkClr_canon
    | with_reducible apply Dev.gate_canon

theorem keep_execRecordPost (fw : Bool) (code : BitVec 16) (payload : List Byte) (s : State) {t : State} (hc :
    s.dev.Canon) (ht : execRecordPost fw code payload s = .next t) : t.dev.Canon := by
  unfold execRecordPost at ht
  refine State.lift_keeps (fun d hd => ?_) hc ht
  repeat' first
    | intro _
    | with_reducible assumption
    | with_reducible apply Dev.fw_canon
    | with_reducible apply Dev.postBytes_canon

theorem keep_execRecPost (src : Writer) (v : Word) (s : State) {t : State} (hc : s.dev.Canon) (ht : execRecPost src v
    s = .next t) : t.dev.Canon := by
  unfold execRecPost at ht
  refine State.lift_keeps (fun d hd => ?_) hc ht
  repeat' first
    | intro _
    | with_reducible assumption
    | with_reducible apply Dev.gate_canon
    | with_reducible apply Dev.recPost_canon

theorem keep_execQueueToLarder (s : State) {t : State} (hc : s.dev.Canon) (ht : execQueueToLarder s = .next t) :
    t.dev.Canon := by
  unfold execQueueToLarder at ht
  refine State.lift_keeps (fun d hd => ?_) hc ht
  repeat' first
    | with_reducible assumption
    | with_reducible apply Dev.recMove_canon

theorem keep_execRecorderEnable (src : Writer) (s : State) {t : State} (hc : s.dev.Canon) (ht : execRecorderEnable
    src s = .next t) : t.dev.Canon := by
  unfold execRecorderEnable at ht
  refine State.lift_keeps (fun d hd => ?_) hc ht
  repeat' first
    | intro _
    | with_reducible assumption
    | with_reducible apply Dev.gate_canon
    | with_reducible apply Dev.recCtl_canon

theorem keep_execFlush (src : Writer) (v : Word) (s : State) {t : State} (hc : s.dev.Canon) (ht : execFlush src v s =
    .next t) : t.dev.Canon := by
  unfold execFlush at ht
  refine State.lift_keeps (fun d hd => ?_) hc ht
  repeat' first
    | intro _
    | with_reducible assumption
    | with_reducible apply Dev.gate_canon
    | with_reducible apply Dev.recCtl_canon

theorem keep_execFlushComplete (s : State) {t : State} (hc : s.dev.Canon) (ht : execFlushComplete s = .next t) :
    t.dev.Canon := by
  unfold execFlushComplete at ht
  refine State.lift_keeps (fun d hd => ?_) hc ht
  repeat' first
    | intro _
    | with_reducible assumption
    | with_reducible apply Dev.flushEnd_canon
    | with_reducible apply Dev.settle_canon

theorem keep_execPeriodicFlush (s : State) {t : State} (hc : s.dev.Canon) (ht : execPeriodicFlush s = .next t) :
    t.dev.Canon := by
  unfold execPeriodicFlush at ht
  refine State.lift_keeps (fun d hd => ?_) hc ht
  repeat' first
    | with_reducible assumption
    | with_reducible apply Dev.flushPeriod_canon

theorem keep_execMigration (ok : Bool) (s : State) {t : State} (hc : s.dev.Canon) (ht : execMigration ok s = .next t)
    : t.dev.Canon := by
  unfold execMigration at ht
  refine State.lift_keeps (fun d hd => ?_) hc ht
  repeat' first
    | with_reducible assumption
    | with_reducible apply Dev.migrate_canon

theorem keep_execRecreq (h : PlantHead) (l : List Byte) (s : State) {t : State} (hc : s.dev.Canon) (ht : execRecreq h
    l s = .next t) : t.dev.Canon := by
  unfold execRecreq at ht
  refine State.lift_keeps (fun d hd => ?_) hc ht
  repeat' first
    | with_reducible assumption
    | with_reducible apply Dev.recReq_canon

theorem keep_execNvcMramWrite (src : Writer) (tag : Byte) (s : State) {t : State} (hc : s.dev.Canon) (ht :
    execNvcMramWrite src tag s = .next t) : t.dev.Canon := by
  unfold execNvcMramWrite at ht
  refine State.lift_keeps (fun d hd => ?_) hc ht
  repeat' first
    | intro _
    | with_reducible assumption
    | with_reducible apply Dev.gate_canon
    | with_reducible apply Dev.nvcGo_canon

theorem keep_execNvcNorProgram (src : Writer) (tag : Byte) (s : State) {t : State} (hc : s.dev.Canon) (ht :
    execNvcNorProgram src tag s = .next t) : t.dev.Canon := by
  unfold execNvcNorProgram at ht
  refine State.lift_keeps (fun d hd => ?_) hc ht
  repeat' first
    | intro _
    | with_reducible assumption
    | with_reducible apply Dev.gate_canon
    | with_reducible apply Dev.nvcGo_canon

theorem keep_execNvcNorErase (src : Writer) (tag : Byte) (s : State) {t : State} (hc : s.dev.Canon) (ht :
    execNvcNorErase src tag s = .next t) : t.dev.Canon := by
  unfold execNvcNorErase at ht
  refine State.lift_keeps (fun d hd => ?_) hc ht
  repeat' first
    | intro _
    | with_reducible assumption
    | with_reducible apply Dev.gate_canon
    | with_reducible apply Dev.nvcGo_canon

theorem keep_execNvcUnitComplete (verified : Bool) (s : State) {t : State} (hc : s.dev.Canon) (ht :
    execNvcUnitComplete verified s = .next t) : t.dev.Canon := by
  unfold execNvcUnitComplete at ht
  refine State.lift_keeps (fun d hd => ?_) hc ht
  repeat' first
    | intro _
    | with_reducible assumption
    | with_reducible apply Dev.nvcUnit_canon
    | with_reducible apply Dev.settle_canon

theorem keep_execNvcDoneRead (s : State) {t : State} (hc : s.dev.Canon) (ht : execNvcDoneRead s = .next t) :
    t.dev.Canon := by
  unfold execNvcDoneRead at ht
  refine State.lift_keeps (fun d hd => ?_) hc ht
  repeat' first
    | with_reducible assumption
    | with_reducible apply Dev.nvcDoneRead_canon

theorem keep_execNorEraseComplete (s : State) {t : State} (hc : s.dev.Canon) (ht : execNorEraseComplete s = .next t)
    : t.dev.Canon := by
  unfold execNorEraseComplete at ht
  refine State.lift_keeps (fun d hd => ?_) hc ht
  repeat' first
    | with_reducible assumption
    | with_reducible apply Dev.eraseDone_canon

theorem keep_execRingDownExit (s : State) {t : State} (hc : s.dev.Canon) (ht : execRingDownExit s = .next t) :
    t.dev.Canon := by
  unfold execRingDownExit at ht
  refine State.lift_keeps (fun d hd => ?_) hc ht
  repeat' first
    | with_reducible assumption
    | with_reducible apply Dev.ringDownExit_canon

theorem keep_execFaultReceive (x : Bool) (a p c : Byte) (s : State) {t : State} (hc : s.dev.Canon) (ht :
    execFaultReceive x a p c s = .next t) : t.dev.Canon := by
  unfold execFaultReceive at ht
  refine State.lift_keeps (fun d hd => ?_) hc ht
  repeat' first
    | with_reducible assumption
    | with_reducible apply Dev.faultReceive_canon

theorem keep_execEchoEndReturn (x : Bool) (frame : List Byte) (s : State) {t : State} (hc : s.dev.Canon) (ht :
    execEchoEndReturn x frame s = .next t) : t.dev.Canon := by
  unfold execEchoEndReturn at ht
  refine State.lift_keeps (fun d hd => ?_) hc ht
  repeat' first
    | intro _
    | with_reducible assumption
    | with_reducible apply Dev.portFrame_canon
    | with_reducible apply Dev.ringSet_canon
    | with_reducible apply Dev.send_canon
    | with_reducible apply canon_ite
    | split

theorem keep_execCmdgo (src : Writer) (x : Bool) (v : Word) (s : State) {t : State} (hc : s.dev.Canon) (ht :
    execCmdgo src x v s = .next t) : t.dev.Canon := by
  unfold execCmdgo at ht
  refine State.lift_keeps (fun d hd => ?_) hc ht
  repeat' first
    | intro _
    | with_reducible assumption
    | with_reducible apply Dev.cmdGo_canon
    | with_reducible apply Dev.gate_canon

theorem keep_execCommandSend (x : Bool) (s : State) {t : State} (hc : s.dev.Canon) (ht : execCommandSend x s = .next
    t) : t.dev.Canon := by
  unfold execCommandSend at ht
  refine State.lift_keeps (fun d hd => ?_) hc ht
  repeat' first
    | with_reducible assumption
    | with_reducible apply Dev.cmdSend_canon

theorem keep_execCommandAnswer (x : Bool) (fin : FrameEnd) (rtt : BitVec 24) (frame : List Byte) (healOk : Bool) (s :
    State) {t : State} (hc : s.dev.Canon) (ht : execCommandAnswer x fin rtt frame healOk s = .next t) : t.dev.Canon
    := by
  unfold execCommandAnswer at ht
  refine State.lift_keeps (fun d hd => ?_) hc ht
  repeat' first
    | with_reducible assumption
    | with_reducible apply Dev.cmdAnswer_canon

theorem keep_execCommandTimeout (x : Bool) (s : State) {t : State} (hc : s.dev.Canon) (ht : execCommandTimeout x s =
    .next t) : t.dev.Canon := by
  unfold execCommandTimeout at ht
  refine State.lift_keeps (fun d hd => ?_) hc ht
  repeat' first
    | with_reducible assumption
    | with_reducible apply Dev.cmdTimeout_canon

theorem keep_execEnumeration (hop : Byte) (nodes : List EnumNode) (transit : BitVec 24) (s : State) {t : State} (hc :
    s.dev.Canon) (ht : execEnumeration hop nodes transit s = .next t) : t.dev.Canon := by
  unfold execEnumeration at ht
  refine State.lift_keeps (fun d hd => ?_) hc ht
  repeat' first
    | intro _
    | with_reducible assumption
    | with_reducible apply Dev.enumerate_canon
    | with_reducible apply canon_ite
    | split

theorem keep_execTofRemeasure (rttA rttB : List (BitVec 24)) (s : State) {t : State} (hc : s.dev.Canon) (ht :
    execTofRemeasure rttA rttB s = .next t) : t.dev.Canon := by
  unfold execTofRemeasure at ht
  refine State.lift_keeps (fun d hd => ?_) hc ht
  repeat' first
    | with_reducible assumption
    | with_reducible apply Dev.tofRemeasure_canon

theorem keep_execDelayRewrite (s : State) {t : State} (hc : s.dev.Canon) (ht : execDelayRewrite s = .next t) :
    t.dev.Canon := by
  unfold execDelayRewrite at ht
  refine State.lift_keeps (fun d hd => ?_) hc ht
  repeat' first
    | with_reducible assumption
    | with_reducible apply Dev.delayRewrite_canon

theorem keep_execHealSend (linkOk : Bool) (s : State) {t : State} (hc : s.dev.Canon) (ht : execHealSend linkOk s =
    .next t) : t.dev.Canon := by
  unfold execHealSend at ht
  refine State.lift_keeps (fun d hd => ?_) hc ht
  repeat' first
    | with_reducible assumption
    | with_reducible apply Dev.healSend_canon

theorem keep_execWakeSend (returned : Bool) (s : State) {t : State} (hc : s.dev.Canon) (ht : execWakeSend returned s
    = .next t) : t.dev.Canon := by
  unfold execWakeSend at ht
  refine State.lift_keeps (fun d hd => ?_) hc ht
  repeat' first
    | with_reducible assumption
    | with_reducible apply Dev.wakeSend_canon

theorem keep_execNodeRearm (src : Writer) (x : Bool) (k : BitVec 6) (v : Word) (s : State) {t : State} (hc :
    s.dev.Canon) (ht : execNodeRearm src x k v s = .next t) : t.dev.Canon := by
  unfold execNodeRearm at ht
  refine State.lift_keeps (fun d hd => ?_) hc ht
  repeat' first
    | intro _
    | with_reducible assumption
    | with_reducible apply Dev.gate_canon
    | with_reducible apply Dev.rearm_canon
    | with_reducible apply canon_ite
    | split

theorem keep_execSkClearCounts (src : Writer) (x : Bool) (v : Word) (s : State) {t : State} (hc : s.dev.Canon) (ht :
    execSkClearCounts src x v s = .next t) : t.dev.Canon := by
  unfold execSkClearCounts at ht
  refine State.lift_keeps (fun d hd => ?_) hc ht
  repeat' first
    | intro _
    | with_reducible assumption
    | with_reducible apply Dev.gate_canon
    | with_reducible apply Dev.skCtl_canon

theorem keep_execChmEntryWrite (src : Writer) (i : BitVec 11) (v : Word) (s : State) {t : State} (hc : s.dev.Canon)
    (ht : execChmEntryWrite src i v s = .next t) : t.dev.Canon := by
  unfold execChmEntryWrite at ht
  refine State.lift_keeps (fun d hd => ?_) hc ht
  repeat' first
    | intro _
    | with_reducible assumption
    | with_reducible apply Dev.chmWrite_canon
    | with_reducible apply Dev.gate_canon

theorem keep_execSccClose (src : Writer) (s : State) {t : State} (hc : s.dev.Canon) (ht : execSccClose src s = .next
    t) : t.dev.Canon := by
  unfold execSccClose at ht
  refine State.lift_keeps (fun d hd => ?_) hc ht
  repeat' first
    | intro _
    | with_reducible assumption
    | with_reducible apply Dev.gate_canon
    | with_reducible apply Dev.sccCmdWrite_canon

theorem keep_execSccOpen (src : Writer) (s : State) {t : State} (hc : s.dev.Canon) (ht : execSccOpen src s = .next t)
    : t.dev.Canon := by
  unfold execSccOpen at ht
  refine State.lift_keeps (fun d hd => ?_) hc ht
  repeat' first
    | intro _
    | with_reducible assumption
    | with_reducible apply Dev.gate_canon
    | with_reducible apply Dev.sccCmdWrite_canon

theorem keep_execSccAck (src : Writer) (s : State) {t : State} (hc : s.dev.Canon) (ht : execSccAck src s = .next t) :
    t.dev.Canon := by
  unfold execSccAck at ht
  refine State.lift_keeps (fun d hd => ?_) hc ht
  repeat' first
    | intro _
    | with_reducible assumption
    | with_reducible apply Dev.gate_canon
    | with_reducible apply Dev.sccCmdWrite_canon

theorem keep_execBreakDelayExpiry (s : State) {t : State} (hc : s.dev.Canon) (ht : execBreakDelayExpiry s = .next t)
    : t.dev.Canon := by
  unfold execBreakDelayExpiry at ht
  refine State.lift_keeps (fun d hd => ?_) hc ht
  repeat' first
    | with_reducible assumption
    | with_reducible apply Dev.brkExpiry_canon

theorem keep_execPickupExpiry (k2 : Bool) (s : State) {t : State} (hc : s.dev.Canon) (ht : execPickupExpiry k2 s =
    .next t) : t.dev.Canon := by
  unfold execPickupExpiry at ht
  refine State.lift_keeps (fun d hd => ?_) hc ht
  repeat' first
    | with_reducible assumption
    | with_reducible apply Dev.pickExpiry_canon

theorem keep_execPrechargeDone (s : State) {t : State} (hc : s.dev.Canon) (ht : execPrechargeDone s = .next t) :
    t.dev.Canon := by
  unfold execPrechargeDone at ht
  refine State.lift_keeps (fun d hd => ?_) hc ht
  repeat' first
    | with_reducible assumption
    | with_reducible apply Dev.prechargeDone_canon

theorem keep_execPrechargeTimeout (s : State) {t : State} (hc : s.dev.Canon) (ht : execPrechargeTimeout s = .next t)
    : t.dev.Canon := by
  unfold execPrechargeTimeout at ht
  refine State.lift_keeps (fun d hd => ?_) hc ht
  repeat' first
    | with_reducible assumption
    | with_reducible apply Dev.prechargeTimeout_canon

theorem keep_execCloseConfirm (s : State) {t : State} (hc : s.dev.Canon) (ht : execCloseConfirm s = .next t) :
    t.dev.Canon := by
  unfold execCloseConfirm at ht
  refine State.lift_keeps (fun d hd => ?_) hc ht
  repeat' first
    | with_reducible assumption
    | with_reducible apply Dev.closeConfirm_canon

theorem keep_execCloseTimeout (s : State) {t : State} (hc : s.dev.Canon) (ht : execCloseTimeout s = .next t) :
    t.dev.Canon := by
  unfold execCloseTimeout at ht
  refine State.lift_keeps (fun d hd => ?_) hc ht
  repeat' first
    | with_reducible assumption
    | with_reducible apply Dev.closeTimeout_canon

theorem keep_execOpenConfirm (s : State) {t : State} (hc : s.dev.Canon) (ht : execOpenConfirm s = .next t) :
    t.dev.Canon := by
  unfold execOpenConfirm at ht
  refine State.lift_keeps (fun d hd => ?_) hc ht
  repeat' first
    | with_reducible assumption
    | with_reducible apply Dev.openConfirm_canon

theorem keep_execDropoutTimeout (s : State) {t : State} (hc : s.dev.Canon) (ht : execDropoutTimeout s = .next t) :
    t.dev.Canon := by
  unfold execDropoutTimeout at ht
  refine State.lift_keeps (fun d hd => ?_) hc ht
  repeat' first
    | with_reducible assumption
    | with_reducible apply Dev.dropTimeout_canon

theorem keep_execSwitchTest (pulse : Option (Bool × Bool)) (rb : BitVec 6) (s : State) {t : State} (hc : s.dev.Canon)
    (ht : execSwitchTest pulse rb s = .next t) : t.dev.Canon := by
  unfold execSwitchTest at ht
  refine State.lift_keeps (fun d hd => ?_) hc ht
  repeat' first
    | with_reducible assumption
    | with_reducible apply Dev.switchTest_canon

theorem keep_execCoilFault (k2 : Bool) (ma : BitVec 16) (s : State) {t : State} (hc : s.dev.Canon) (ht :
    execCoilFault k2 ma s = .next t) : t.dev.Canon := by
  unfold execCoilFault at ht
  refine State.lift_keeps (fun d hd => ?_) hc ht
  repeat' first
    | with_reducible assumption
    | with_reducible apply Dev.coilMeasure_canon

theorem keep_execFeedbackDiscrepancy (s : State) {t : State} (hc : s.dev.Canon) (ht : execFeedbackDiscrepancy s =
    .next t) : t.dev.Canon := by
  unfold execFeedbackDiscrepancy at ht
  refine State.lift_keeps (fun d hd => ?_) hc ht
  repeat' first
    | with_reducible assumption
    | with_reducible apply Dev.fbDiscrepancy_canon

theorem keep_execKillOutAssert (s : State) {t : State} (hc : s.dev.Canon) (ht : execKillOutAssert s = .next t) :
    t.dev.Canon := by
  unfold execKillOutAssert at ht
  refine State.lift_keeps (fun d hd => ?_) hc ht
  repeat' first
    | with_reducible assumption
    | with_reducible apply Dev.killAssert_canon

theorem keep_execSccDiagnosticsResume (s : State) {t : State} (hc : s.dev.Canon) (ht : execSccDiagnosticsResume s =
    .next t) : t.dev.Canon := by
  unfold execSccDiagnosticsResume at ht
  refine State.lift_keeps (fun d hd => ?_) hc ht
  repeat' first
    | with_reducible assumption
    | with_reducible apply Dev.diagResume_canon

theorem keep_execSinc3Sample (n : BitVec 3) (out : BitVec 25) (s : State) {t : State} (hc : s.dev.Canon) (ht :
    execSinc3Sample n out s = .next t) : t.dev.Canon := by
  unfold execSinc3Sample at ht
  refine State.lift_keeps (fun d hd => ?_) hc ht
  repeat' first
    | with_reducible assumption
    | with_reducible apply Dev.sinc3Sample_canon

theorem keep_execSinc2Sample (n : BitVec 3) (out : BitVec 11) (s : State) {t : State} (hc : s.dev.Canon) (ht :
    execSinc2Sample n out s = .next t) : t.dev.Canon := by
  unfold execSinc2Sample at ht
  refine State.lift_keeps (fun d hd => ?_) hc ht
  repeat' first
    | with_reducible assumption
    | with_reducible apply Dev.sinc2Sample_canon

theorem keep_execSdmInvalid (n : BitVec 3) (stuck : Bool) (s : State) {t : State} (hc : s.dev.Canon) (ht :
    execSdmInvalid n stuck s = .next t) : t.dev.Canon := by
  unfold execSdmInvalid at ht
  refine State.lift_keeps (fun d hd => ?_) hc ht
  repeat' first
    | intro _
    | with_reducible assumption
    | with_reducible apply Dev.sdmInvalid_canon
    | with_reducible apply canon_ite
    | split

theorem keep_execSdmSync (src : Writer) (v : Word) (s : State) {t : State} (hc : s.dev.Canon) (ht : execSdmSync src v
    s = .next t) : t.dev.Canon := by
  unfold execSdmSync at ht
  refine State.lift_keeps (fun d hd => ?_) hc ht
  repeat' first
    | intro _
    | with_reducible assumption
    | with_reducible apply Dev.gate_canon
    | with_reducible apply Dev.sdmCtl_canon

theorem keep_execIdent (tag : BitVec 16) (s : State) {t : State} (hc : s.dev.Canon) (ht : execIdent tag s = .next t)
    : t.dev.Canon := by
  unfold execIdent at ht
  refine State.lift_keeps (fun d hd => ?_) hc ht
  repeat' first
    | intro _
    | with_reducible assumption
    | with_reducible apply Dev.serve_canon
    | with_reducible apply canon_ite
    | split

theorem keep_execSvcOpen (tag : BitVec 16) (level : Byte) (s : State) {t : State} (hc : s.dev.Canon) (ht :
    execSvcOpen tag level s = .next t) : t.dev.Canon := by
  unfold execSvcOpen at ht
  refine State.lift_keeps (fun d hd => ?_) hc ht
  repeat' first
    | intro _
    | with_reducible assumption
    | with_reducible apply Dev.serve_canon
    | with_reducible apply Dev.svcOpen_canon

theorem keep_execAuth (tag : BitVec 16) (k : Byte) (xy rs : List Byte) (s : State) {t : State} (hc : s.dev.Canon) (ht
    : execAuth tag k xy rs s = .next t) : t.dev.Canon := by
  unfold execAuth at ht
  refine State.lift_keeps (fun d hd => ?_) hc ht
  repeat' first
    | intro _
    | with_reducible assumption
    | with_reducible apply Dev.serve_canon
    | with_reducible apply Dev.svcAuth_canon

theorem keep_execSvcClose (tag : BitVec 16) (s : State) {t : State} (hc : s.dev.Canon) (ht : execSvcClose tag s =
    .next t) : t.dev.Canon := by
  unfold execSvcClose at ht
  refine State.lift_keeps (fun d hd => ?_) hc ht
  repeat' first
    | intro _
    | with_reducible assumption
    | with_reducible apply Dev.serve_canon
    | with_reducible apply Dev.sessionEnd_canon
    | with_reducible apply canon_ite
    | split
    | dsimp only
    | (unfold done; dsimp only)
    | (unfold judged; dsimp only)

theorem keep_execReadreg (tag : BitVec 16) (a : Word) (n : BitVec 16) (s : State) {t : State} (hc : s.dev.Canon) (ht
    : execReadreg tag a n s = .next t) : t.dev.Canon := by
  unfold execReadreg at ht
  refine State.lift_keeps (fun d hd => ?_) hc ht
  repeat' first
    | intro _
    | with_reducible assumption
    | with_reducible apply Dev.readReg_canon
    | with_reducible apply Dev.serve_canon

theorem keep_execWritereg (tag : BitVec 16) (a : Word) (words : List Word) (s : State) {t : State} (hc : s.dev.Canon)
    (ht : execWritereg tag a words s = .next t) : t.dev.Canon := by
  unfold execWritereg at ht
  refine State.lift_keeps (fun d hd => ?_) hc ht
  repeat' first
    | intro _
    | with_reducible assumption
    | with_reducible apply Dev.serve_canon
    | with_reducible apply Dev.writeReg_canon

theorem keep_execReadmem (tag : BitVec 16) (a n : Word) (s : State) {t : State} (hc : s.dev.Canon) (ht : execReadmem
    tag a n s = .next t) : t.dev.Canon := by
  unfold execReadmem at ht
  refine State.lift_keeps (fun d hd => ?_) hc ht
  repeat' first
    | intro _
    | with_reducible assumption
    | with_reducible apply Dev.readMem_canon
    | with_reducible apply Dev.serve_canon

theorem keep_execParamread (tag : BitVec 16) (n : Byte) (s : State) {t : State} (hc : s.dev.Canon) (ht :
    execParamread tag n s = .next t) : t.dev.Canon := by
  unfold execParamread at ht
  refine State.lift_keeps (fun d hd => ?_) hc ht
  repeat' first
    | intro _
    | with_reducible assumption
    | with_reducible apply Dev.paramRead_canon
    | with_reducible apply Dev.serve_canon

theorem keep_execParamwrite (tag : BitVec 16) (n : Byte) (b : ParamBlock) (s : State) {t : State} (hc : s.dev.Canon)
    (ht : execParamwrite tag n b s = .next t) : t.dev.Canon := by
  unfold execParamwrite at ht
  refine State.lift_keeps (fun d hd => ?_) hc ht
  repeat' first
    | intro _
    | with_reducible assumption
    | with_reducible apply Dev.blkWrite_canon
    | with_reducible apply Dev.serve_canon
    | with_reducible apply canon_ite
    | split
    | dsimp only
    | (unfold done; dsimp only)
    | (unfold judged; dsimp only)

theorem keep_execRecread (tag : BitVec 16) (first count : Word) (s : State) {t : State} (hc : s.dev.Canon) (ht :
    execRecread tag first count s = .next t) : t.dev.Canon := by
  unfold execRecread at ht
  refine State.lift_keeps (fun d hd => ?_) hc ht
  repeat' first
    | intro _
    | with_reducible assumption
    | with_reducible apply Dev.serve_canon
    | with_reducible apply canon_ite
    | split

theorem keep_execForce (tag : BitVec 16) (n : Byte) (w0 w1 w2 w3 : Word) (s : State) {t : State} (hc : s.dev.Canon)
    (ht : execForce tag n w0 w1 w2 w3 s = .next t) : t.dev.Canon := by
  unfold execForce at ht
  refine State.lift_keeps (fun d hd => ?_) hc ht
  repeat' first
    | intro _
    | with_reducible assumption
    | with_reducible apply Dev.forceEntry_canon
    | with_reducible apply Dev.serve_canon
    | with_reducible apply canon_ite
    | split
    | dsimp only
    | (unfold done; dsimp only)
    | (unfold judged; dsimp only)

theorem keep_execProgctlStart (tag : BitVec 16) (s : State) {t : State} (hc : s.dev.Canon) (ht : execProgctlStart tag
    s = .next t) : t.dev.Canon := by
  unfold execProgctlStart at ht
  refine State.lift_keeps (fun d hd => ?_) hc ht
  repeat' first
    | intro _
    | with_reducible assumption
    | with_reducible apply Dev.serve_canon
    | with_reducible apply Dev.svcStart_canon
    | with_reducible apply canon_ite
    | split
    | dsimp only
    | (unfold done; dsimp only)
    | (unfold judged; dsimp only)

theorem keep_execProgctlStop (tag : BitVec 16) (s : State) {t : State} (hc : s.dev.Canon) (ht : execProgctlStop tag s
    = .next t) : t.dev.Canon := by
  unfold execProgctlStop at ht
  refine State.lift_keeps (fun d hd => ?_) hc ht
  repeat' first
    | intro _
    | with_reducible assumption
    | with_reducible apply Dev.progStop_canon
    | with_reducible apply Dev.serve_canon
    | with_reducible apply canon_ite
    | split
    | dsimp only
    | (unfold done; dsimp only)
    | (unfold judged; dsimp only)

theorem keep_execCleartrip (tag : BitVec 16) (mask : Word) (s : State) {t : State} (hc : s.dev.Canon) (ht :
    execCleartrip tag mask s = .next t) : t.dev.Canon := by
  unfold execCleartrip at ht
  refine State.lift_keeps (fun d hd => ?_) hc ht
  repeat' first
    | intro _
    | with_reducible assumption
    | with_reducible apply Dev.serve_canon
    | with_reducible apply Dev.svcClear_canon
    | with_reducible apply canon_ite
    | split
    | dsimp only
    | (unfold done; dsimp only)
    | (unfold judged; dsimp only)

theorem keep_execTransport (tag : BitVec 16) (s : State) {t : State} (hc : s.dev.Canon) (ht : execTransport tag s =
    .next t) : t.dev.Canon := by
  unfold execTransport at ht
  refine State.lift_keeps (fun d hd => ?_) hc ht
  repeat' first
    | intro _
    | with_reducible assumption
    | with_reducible apply Dev.serve_canon
    | with_reducible apply Dev.svcTransport_canon
    | with_reducible apply canon_ite
    | split
    | dsimp only
    | (unfold done; dsimp only)
    | (unfold judged; dsimp only)

theorem keep_execClrtransport (tag : BitVec 16) (s : State) {t : State} (hc : s.dev.Canon) (ht : execClrtransport tag
    s = .next t) : t.dev.Canon := by
  unfold execClrtransport at ht
  refine State.lift_keeps (fun d hd => ?_) hc ht
  repeat' first
    | intro _
    | with_reducible assumption
    | with_reducible apply Dev.serve_canon
    | with_reducible apply Dev.transportClear_canon
    | with_reducible apply canon_ite
    | split
    | dsimp only
    | (unfold done; dsimp only)
    | (unfold judged; dsimp only)

theorem keep_execStageopen (tag : BitVec 16) (header : List Byte) (s : State) {t : State} (hc : s.dev.Canon) (ht :
    execStageopen tag header s = .next t) : t.dev.Canon := by
  unfold execStageopen at ht
  refine State.lift_keeps (fun d hd => ?_) hc ht
  repeat' first
    | intro _
    | with_reducible assumption
    | with_reducible apply Dev.serve_canon
    | with_reducible apply Dev.stageOpen_canon
    | with_reducible apply canon_ite
    | split
    | dsimp only
    | (unfold done; dsimp only)
    | (unfold judged; dsimp only)

theorem keep_execStageblock (tag : BitVec 16) (block : List Byte) (s : State) {t : State} (hc : s.dev.Canon) (ht :
    execStageblock tag block s = .next t) : t.dev.Canon := by
  unfold execStageblock at ht
  refine State.lift_keeps (fun d hd => ?_) hc ht
  repeat' first
    | intro _
    | with_reducible assumption
    | with_reducible apply Dev.serve_canon
    | with_reducible apply Dev.stageBlock_canon
    | with_reducible apply canon_ite
    | split
    | dsimp only
    | (unfold done; dsimp only)
    | (unfold judged; dsimp only)

theorem keep_execStageend (tag : BitVec 16) (trailer : List Byte) (s : State) {t : State} (hc : s.dev.Canon) (ht :
    execStageend tag trailer s = .next t) : t.dev.Canon := by
  unfold execStageend at ht
  refine State.lift_keeps (fun d hd => ?_) hc ht
  repeat' first
    | intro _
    | with_reducible assumption
    | with_reducible apply Dev.serve_canon
    | with_reducible apply Dev.stageEnd_canon
    | with_reducible apply canon_ite
    | split
    | dsimp only
    | (unfold done; dsimp only)
    | (unfold judged; dsimp only)

theorem keep_execActivate (tag : BitVec 16) (kind : Byte) (force : Bool) (s : State) {t : State} (hc : s.dev.Canon)
    (ht : execActivate tag kind force s = .next t) : t.dev.Canon := by
  unfold execActivate at ht
  refine State.lift_keeps (fun d hd => ?_) hc ht
  repeat' first
    | intro _
    | with_reducible assumption
    | with_reducible apply Dev.activate_canon
    | with_reducible apply Dev.serve_canon
    | with_reducible apply canon_ite
    | split
    | dsimp only
    | (unfold done; dsimp only)
    | (unfold judged; dsimp only)

theorem keep_execOnlinechg (tag : BitVec 16) (ready : Bool) (s : State) {t : State} (hc : s.dev.Canon) (ht :
    execOnlinechg tag ready s = .next t) : t.dev.Canon := by
  unfold execOnlinechg at ht
  refine State.lift_keeps (fun d hd => ?_) hc ht
  repeat' first
    | intro _
    | with_reducible assumption
    | with_reducible apply Dev.changePrepare_canon
    | with_reducible apply Dev.serve_canon
    | with_reducible apply canon_ite
    | split
    | dsimp only
    | (unfold done; dsimp only)
    | (unfold judged; dsimp only)

theorem keep_execTwincfg (tag : BitVec 16) (ctl : Bool) (v : Word) (s : State) {t : State} (hc : s.dev.Canon) (ht :
    execTwincfg tag ctl v s = .next t) : t.dev.Canon := by
  unfold execTwincfg at ht
  refine State.lift_keeps (fun d hd => ?_) hc ht
  repeat' first
    | intro _
    | with_reducible assumption
    | with_reducible apply Dev.serve_canon
    | with_reducible apply Dev.twinCfg_canon
    | with_reducible apply canon_ite
    | split
    | dsimp only
    | (unfold done; dsimp only)
    | (unfold judged; dsimp only)

theorem keep_execProgkey (tag : BitVec 16) (k : Byte) (hash : List Byte) (s : State) {t : State} (hc : s.dev.Canon)
    (ht : execProgkey tag k hash s = .next t) : t.dev.Canon := by
  unfold execProgkey at ht
  refine State.lift_keeps (fun d hd => ?_) hc ht
  repeat' first
    | intro _
    | with_reducible assumption
    | with_reducible apply Dev.progKey_canon
    | with_reducible apply Dev.serve_canon
    | with_reducible apply canon_ite
    | split
    | dsimp only
    | (unfold done; dsimp only)
    | (unfold judged; dsimp only)

theorem keep_execRevoke (tag : BitVec 16) (k j : Byte) (xy rs : List Byte) (s : State) {t : State} (hc : s.dev.Canon)
    (ht : execRevoke tag k j xy rs s = .next t) : t.dev.Canon := by
  unfold execRevoke at ht
  refine State.lift_keeps (fun d hd => ?_) hc ht
  repeat' first
    | intro _
    | with_reducible assumption
    | with_reducible apply Dev.revoke_canon
    | with_reducible apply Dev.serve_canon
    | with_reducible apply canon_ite
    | split
    | dsimp only
    | (unfold done; dsimp only)
    | (unfold judged; dsimp only)

theorem keep_execResetWarm (tag : BitVec 16) (s : State) {t : State} (hc : s.dev.Canon) (ht : execResetWarm tag s =
    .next t) : t.dev.Canon := by
  unfold execResetWarm at ht
  refine State.lift_keeps (fun d hd => ?_) hc ht
  repeat' first
    | intro _
    | with_reducible assumption
    | with_reducible apply Dev.resetAsk_canon
    | with_reducible apply Dev.serve_canon
    | with_reducible apply canon_ite
    | split
    | dsimp only
    | (unfold done; dsimp only)
    | (unfold judged; dsimp only)

theorem keep_execResetRecovery (tag : BitVec 16) (s : State) {t : State} (hc : s.dev.Canon) (ht : execResetRecovery
    tag s = .next t) : t.dev.Canon := by
  unfold execResetRecovery at ht
  refine State.lift_keeps (fun d hd => ?_) hc ht
  repeat' first
    | with_reducible assumption
    | with_reducible apply Dev.recoveryAsk_canon

theorem keep_execDebug (tag : BitVec 16) (on : Bool) (s : State) {t : State} (hc : s.dev.Canon) (ht : execDebug tag
    on s = .next t) : t.dev.Canon := by
  unfold execDebug at ht
  refine State.lift_keeps (fun d hd => ?_) hc ht
  repeat' first
    | intro _
    | with_reducible assumption
    | with_reducible apply Dev.serve_canon
    | (unfold done; dsimp only)
    | (unfold judged; dsimp only)
    | with_reducible apply canon_ite
    | with_reducible apply canon_ite_snd
    | with_reducible apply canon_ite_fst
    | with_reducible apply canon_foldl
    | with_reducible apply canon_foldl_fst
    | with_reducible apply canon_foldl_snd
    | (unfold Dev.Canon; dsimp only; with_reducible refine canon_fold ?_)
    | (extract_lets +onlyGivenNames d1; refine canon_have (d := d1) ?_ ?_; unfold d1; rotate_left; intro hd1; clear_value d1; rotate_right)
    | (extract_lets +onlyGivenNames d1; clear_value d1)
    | split
    | with_reducible refine canon_snd ?_ (by with_reducible assumption)
    | with_reducible refine canon_fst ?_ (by with_reducible assumption)
    | dsimp only

theorem keep_execNypehaReject (cmd : Byte) (tag : BitVec 16) (busy : Bool) (s : State) {t : State} (hc : s.dev.Canon)
    (ht : execNypehaReject cmd tag busy s = .next t) : t.dev.Canon := by
  unfold execNypehaReject at ht
  refine State.lift_keeps (fun d hd => ?_) hc ht
  repeat' first
    | with_reducible assumption
    | with_reducible apply Dev.respond_canon

theorem keep_execNypehaUnknownCommand (cmd : Byte) (tag : BitVec 16) (s : State) {t : State} (hc : s.dev.Canon) (ht :
    execNypehaUnknownCommand cmd tag s = .next t) : t.dev.Canon := by
  unfold execNypehaUnknownCommand at ht
  refine State.lift_keeps (fun d hd => ?_) hc ht
  repeat' first
    | intro _
    | with_reducible assumption
    | with_reducible apply Dev.respond_canon
    | with_reducible apply Dev.sessionTouch_canon
    | with_reducible apply canon_ite
    | split

theorem keep_execUsbDetach (s : State) {t : State} (hc : s.dev.Canon) (ht : execUsbDetach s = .next t) : t.dev.Canon
    := by
  unfold execUsbDetach at ht
  refine State.lift_keeps (fun d hd => ?_) hc ht
  repeat' first
    | intro _
    | with_reducible assumption
    | with_reducible apply Dev.sessionEnd_canon
    | with_reducible apply Dev.setBit_canon

theorem keep_execSessionIdleTimeout (s : State) {t : State} (hc : s.dev.Canon) (ht : execSessionIdleTimeout s = .next
    t) : t.dev.Canon := by
  unfold execSessionIdleTimeout at ht
  refine State.lift_keeps (fun d hd => ?_) hc ht
  repeat' first
    | with_reducible assumption
    | with_reducible apply Dev.sessionIdle_canon

theorem keep_execTrialConfirm (src : Writer) (v : Word) (s : State) {t : State} (hc : s.dev.Canon) (ht :
    execTrialConfirm src v s = .next t) : t.dev.Canon := by
  unfold execTrialConfirm at ht
  refine State.lift_keeps (fun d hd => ?_) hc ht
  repeat' first
    | intro _
    | with_reducible assumption
    | with_reducible apply Dev.gate_canon
    | with_reducible apply Dev.trialConfirm_canon
    | with_reducible apply canon_ite
    | split

theorem keep_execLinkUp (port : BitVec 2) (s : State) {t : State} (hc : s.dev.Canon) (ht : execLinkUp port s = .next
    t) : t.dev.Canon := by
  unfold execLinkUp at ht
  refine State.lift_keeps (fun d hd => ?_) hc ht
  repeat' first
    | intro _
    | with_reducible assumption
    | with_reducible apply Dev.ringLinkUp_canon
    | with_reducible apply Dev.twLinkUp_canon
    | with_reducible apply canon_ite
    | split

theorem keep_execLos (port : BitVec 2) (s : State) {t : State} (hc : s.dev.Canon) (ht : execLos port s = .next t) :
    t.dev.Canon := by
  unfold execLos at ht
  refine State.lift_keeps (fun d hd => ?_) hc ht
  repeat' first
    | intro _
    | with_reducible assumption
    | with_reducible apply Dev.ringLos_canon
    | with_reducible apply Dev.twLos_canon
    | with_reducible apply canon_ite
    | split

theorem keep_execHeartbeatSend (s : State) {t : State} (hc : s.dev.Canon) (ht : execHeartbeatSend s = .next t) :
    t.dev.Canon := by
  unfold execHeartbeatSend at ht
  refine State.lift_keeps (fun d hd => ?_) hc ht
  repeat' first
    | with_reducible assumption
    | with_reducible apply Dev.hbSend_canon

theorem keep_execHeartbeat (roleLow : Bool) (epoch : Word) (b4 b5 : Byte) (count : BitVec 16) (compat image cyc angle
    : Word) (inc : BitVec 48)
    (ns sec : Word) (s : State) {t : State} (hc : s.dev.Canon) (ht : execHeartbeat
    roleLow epoch b4 b5 count compat image cyc angle inc ns sec s = .next t) : t.dev.Canon := by
  unfold execHeartbeat at ht
  refine State.lift_keeps (fun d hd => ?_) hc ht
  repeat' first
    | intro _
    | with_reducible assumption
    | with_reducible apply Dev.heartbeat_canon
    | with_reducible apply Dev.roleLine_canon

theorem keep_execHeartbeatMiss (s : State) {t : State} (hc : s.dev.Canon) (ht : execHeartbeatMiss s = .next t) :
    t.dev.Canon := by
  unfold execHeartbeatMiss at ht
  refine State.lift_keeps (fun d hd => ?_) hc ht
  repeat' first
    | with_reducible assumption
    | with_reducible apply Dev.hbMiss_canon

theorem keep_execPing (s : State) {t : State} (hc : s.dev.Canon) (ht : execPing s = .next t) : t.dev.Canon := by
  unfold execPing at ht
  refine State.lift_keeps (fun d hd => ?_) hc ht
  repeat' first
    | intro _
    | with_reducible assumption
    | with_reducible apply Dev.pingSend_canon
    | with_reducible apply canon_ite
    | split

theorem keep_execPingReceive (s : State) {t : State} (hc : s.dev.Canon) (ht : execPingReceive s = .next t) :
    t.dev.Canon := by
  unfold execPingReceive at ht
  refine State.lift_keeps (fun d hd => ?_) hc ht
  repeat' first
    | intro _
    | with_reducible assumption
    | with_reducible apply Dev.send_canon
    | with_reducible apply canon_ite
    | split

theorem keep_execPong (rtt : BitVec 16) (s : State) {t : State} (hc : s.dev.Canon) (ht : execPong rtt s = .next t) :
    t.dev.Canon := by
  unfold execPong at ht
  refine State.lift_keeps (fun d hd => ?_) hc ht
  repeat' first
    | with_reducible assumption
    | with_reducible apply Dev.pong_canon

theorem keep_execCueStrobeV (seq : BitVec 16) (s : State) {t : State} (hc : s.dev.Canon) (ht : execCueStrobeV seq s =
    .next t) : t.dev.Canon := by
  unfold execCueStrobeV at ht
  refine State.lift_keeps (fun d hd => ?_) hc ht
  repeat' first
    | with_reducible assumption
    | with_reducible apply Dev.cueStrobe_canon

theorem keep_execCueStrobeT (seq : BitVec 16) (s : State) {t : State} (hc : s.dev.Canon) (ht : execCueStrobeT seq s =
    .next t) : t.dev.Canon := by
  unfold execCueStrobeT at ht
  refine State.lift_keeps (fun d hd => ?_) hc ht
  repeat' first
    | with_reducible assumption
    | with_reducible apply Dev.cueStrobe_canon

theorem keep_execCueStrobeTa (seq : BitVec 16) (s : State) {t : State} (hc : s.dev.Canon) (ht : execCueStrobeTa seq s
    = .next t) : t.dev.Canon := by
  unfold execCueStrobeTa at ht
  refine State.lift_keeps (fun d hd => ?_) hc ht
  repeat' first
    | with_reducible assumption
    | with_reducible apply Dev.cueStrobe_canon

theorem keep_execCueMailbox (m : BitVec 2) (s : State) {t : State} (hc : s.dev.Canon) (ht : execCueMailbox m s =
    .next t) : t.dev.Canon := by
  unfold execCueMailbox at ht
  refine State.lift_keeps (fun d hd => ?_) hc ht
  repeat' first
    | with_reducible assumption
    | with_reducible apply Dev.cueMailbox_canon

theorem keep_execCueSdmSync (s : State) {t : State} (hc : s.dev.Canon) (ht : execCueSdmSync s = .next t) :
    t.dev.Canon := by
  unfold execCueSdmSync at ht
  refine State.lift_keeps (fun d hd => ?_) hc ht
  repeat' first
    | intro _
    | with_reducible assumption
    | with_reducible apply Dev.sdmSync_canon
    | with_reducible apply canon_ite
    | split

theorem keep_execCuePwmAlign (counts : List (BitVec 20)) (s : State) {t : State} (hc : s.dev.Canon) (ht :
    execCuePwmAlign counts s = .next t) : t.dev.Canon := by
  unfold execCuePwmAlign at ht
  refine State.lift_keeps (fun d hd => ?_) hc ht
  repeat' first
    | with_reducible assumption
    | with_reducible apply Dev.cuePwm_canon

theorem keep_execCueScc (n : BitVec 2) (s : State) {t : State} (hc : s.dev.Canon) (ht : execCueScc n s = .next t) :
    t.dev.Canon := by
  unfold execCueScc at ht
  refine State.lift_keeps (fun d hd => ?_) hc ht
  repeat' first
    | intro _
    | with_reducible assumption
    | with_reducible apply Dev.sccCmd_canon
    | with_reducible apply canon_ite
    | split

theorem keep_execCueRoleExchange (_epoch : BitVec 16) (s : State) {t : State} (hc : s.dev.Canon) (ht :
    execCueRoleExchange _epoch s = .next t) : t.dev.Canon := by
  unfold execCueRoleExchange at ht
  refine State.lift_keeps (fun d hd => ?_) hc ht
  repeat' first
    | with_reducible assumption
    | with_reducible apply Dev.cueRole_canon

theorem keep_execCueRecoveryRead (seq : BitVec 16) (s : State) {t : State} (hc : s.dev.Canon) (ht :
    execCueRecoveryRead seq s = .next t) : t.dev.Canon := by
  unfold execCueRecoveryRead at ht
  refine State.lift_keeps (fun d hd => ?_) hc ht
  repeat' first
    | with_reducible assumption
    | with_reducible apply Dev.cueRecovery_canon

theorem keep_execCueBlank (s : State) {t : State} (hc : s.dev.Canon) (ht : execCueBlank s = .next t) : t.dev.Canon :=
    by
  unfold execCueBlank at ht
  refine State.lift_keeps (fun d hd => ?_) hc ht
  repeat' first
    | intro _
    | with_reducible assumption
    | with_reducible apply Dev.ringSend_canon
    | with_reducible apply canon_ite
    | split

theorem keep_execCueBadCheck (s : State) {t : State} (hc : s.dev.Canon) (ht : execCueBadCheck s = .next t) :
    t.dev.Canon := by
  unfold execCueBadCheck at ht
  refine State.lift_keeps (fun d hd => ?_) hc ht
  repeat' first
    | with_reducible assumption
    | with_reducible apply Dev.shadeDrop_canon

theorem keep_execImage (crcOk : Bool) (cycle : Word) (image : List Byte) (forces : List ForceRow) (s : State) {t :
    State} (hc : s.dev.Canon) (ht : execImage crcOk cycle image forces s = .next t) : t.dev.Canon := by
  unfold execImage at ht
  refine State.lift_keeps (fun d hd => ?_) hc ht
  repeat' first
    | with_reducible assumption
    | with_reducible apply Dev.imageTake_canon

theorem keep_execImgack (cycle : Word) (status : Byte) (s : State) {t : State} (hc : s.dev.Canon) (ht : execImgack
    cycle status s = .next t) : t.dev.Canon := by
  unfold execImgack at ht
  refine State.lift_keeps (fun d hd => ?_) hc ht
  repeat' first
    | with_reducible assumption
    | with_reducible apply Dev.imgAckTake_canon

theorem keep_execHash (cycle hash : Word) (s : State) {t : State} (hc : s.dev.Canon) (ht : execHash cycle hash s =
    .next t) : t.dev.Canon := by
  unfold execHash at ht
  refine State.lift_keeps (fun d hd => ?_) hc ht
  repeat' first
    | with_reducible assumption
    | with_reducible apply Dev.hashTake_canon

theorem keep_execHashack (cycle : Word) (result : Byte) (s : State) {t : State} (hc : s.dev.Canon) (ht : execHashack
    cycle result s = .next t) : t.dev.Canon := by
  unfold execHashack at ht
  refine State.lift_keeps (fun d hd => ?_) hc ht
  repeat' first
    | with_reducible assumption
    | with_reducible apply Dev.hashAckTake_canon

theorem keep_execMirror (sec : BitVec 16) (off : Word) (data : List Byte) (s : State) {t : State} (hc : s.dev.Canon)
    (ht : execMirror sec off data s = .next t) : t.dev.Canon := by
  unfold execMirror at ht
  refine State.lift_keeps (fun d hd => ?_) hc ht
  repeat' first
    | with_reducible assumption
    | with_reducible apply Dev.mirrorTake_canon

theorem keep_execSegment (arg : Byte) (slots : List Byte) (s : State) {t : State} (hc : s.dev.Canon) (ht :
    execSegment arg slots s = .next t) : t.dev.Canon := by
  unfold execSegment at ht
  refine State.lift_keeps (fun d hd => ?_) hc ht
  repeat' first
    | intro _
    | with_reducible assumption
    | with_reducible apply Dev.segTake_canon
    | with_reducible apply canon_ite
    | split

theorem keep_execMailbox (slot : Byte) (words : List Word) (s : State) {t : State} (hc : s.dev.Canon) (ht :
    execMailbox slot words s = .next t) : t.dev.Canon := by
  unfold execMailbox at ht
  refine State.lift_keeps (fun d hd => ?_) hc ht
  repeat' first
    | intro _
    | with_reducible assumption
    | (unfold done; dsimp only)
    | (unfold judged; dsimp only)
    | with_reducible apply canon_ite
    | with_reducible apply canon_ite_snd
    | with_reducible apply canon_ite_fst
    | with_reducible apply canon_foldl
    | with_reducible apply canon_foldl_fst
    | with_reducible apply canon_foldl_snd
    | (unfold Dev.Canon; dsimp only; with_reducible refine canon_fold ?_)
    | (extract_lets +onlyGivenNames d1; refine canon_have (d := d1) ?_ ?_; unfold d1; rotate_left; intro hd1; clear_value d1; rotate_right)
    | (extract_lets +onlyGivenNames d1; clear_value d1)
    | split
    | with_reducible refine canon_snd ?_ (by with_reducible assumption)
    | with_reducible refine canon_fst ?_ (by with_reducible assumption)
    | dsimp only

theorem keep_execCmdHandover (cycle : Word) (s : State) {t : State} (hc : s.dev.Canon) (ht : execCmdHandover cycle s
    = .next t) : t.dev.Canon := by
  unfold execCmdHandover at ht
  refine State.lift_keeps (fun d hd => ?_) hc ht
  repeat' first
    | intro _
    | with_reducible assumption
    | (unfold done; dsimp only)
    | (unfold judged; dsimp only)
    | with_reducible apply canon_ite
    | with_reducible apply canon_ite_snd
    | with_reducible apply canon_ite_fst
    | with_reducible apply canon_foldl
    | with_reducible apply canon_foldl_fst
    | with_reducible apply canon_foldl_snd
    | (unfold Dev.Canon; dsimp only; with_reducible refine canon_fold ?_)
    | (extract_lets +onlyGivenNames d1; refine canon_have (d := d1) ?_ ?_; unfold d1; rotate_left; intro hd1; clear_value d1; rotate_right)
    | (extract_lets +onlyGivenNames d1; clear_value d1)
    | split
    | with_reducible refine canon_snd ?_ (by with_reducible assumption)
    | with_reducible refine canon_fst ?_ (by with_reducible assumption)
    | dsimp only

theorem keep_execCmdOnlineChange (cycle : Word) (s : State) {t : State} (hc : s.dev.Canon) (ht : execCmdOnlineChange
    cycle s = .next t) : t.dev.Canon := by
  unfold execCmdOnlineChange at ht
  refine State.lift_keeps (fun d hd => ?_) hc ht
  repeat' first
    | intro _
    | with_reducible assumption
    | (unfold done; dsimp only)
    | (unfold judged; dsimp only)
    | with_reducible apply canon_ite
    | with_reducible apply canon_ite_snd
    | with_reducible apply canon_ite_fst
    | with_reducible apply canon_foldl
    | with_reducible apply canon_foldl_fst
    | with_reducible apply canon_foldl_snd
    | (unfold Dev.Canon; dsimp only; with_reducible refine canon_fold ?_)
    | (extract_lets +onlyGivenNames d1; refine canon_have (d := d1) ?_ ?_; unfold d1; rotate_left; intro hd1; clear_value d1; rotate_right)
    | (extract_lets +onlyGivenNames d1; clear_value d1)
    | split
    | with_reducible refine canon_snd ?_ (by with_reducible assumption)
    | with_reducible refine canon_fst ?_ (by with_reducible assumption)
    | dsimp only

theorem keep_execCmdTransport (s : State) {t : State} (hc : s.dev.Canon) (ht : execCmdTransport s = .next t) :
    t.dev.Canon := by
  unfold execCmdTransport at ht
  refine State.lift_keeps (fun d hd => ?_) hc ht
  repeat' first
    | intro _
    | with_reducible assumption
    | with_reducible apply Dev.transEnter_canon
    | with_reducible apply canon_ite
    | split

theorem keep_execCmdEnumeration (hop : Byte) (nodes : List EnumNode) (transit : BitVec 24) (s : State) {t : State}
    (hc : s.dev.Canon) (ht : execCmdEnumeration hop nodes transit s = .next t) : t.dev.Canon := by
  unfold execCmdEnumeration at ht
  refine State.lift_keeps (fun d hd => ?_) hc ht
  repeat' first
    | intro _
    | with_reducible assumption
    | with_reducible apply Dev.enumerate_canon
    | (unfold done; dsimp only)
    | (unfold judged; dsimp only)
    | with_reducible apply canon_ite
    | with_reducible apply canon_ite_snd
    | with_reducible apply canon_ite_fst
    | with_reducible apply canon_foldl
    | with_reducible apply canon_foldl_fst
    | with_reducible apply canon_foldl_snd
    | (unfold Dev.Canon; dsimp only; with_reducible refine canon_fold ?_)
    | (extract_lets +onlyGivenNames d1; refine canon_have (d := d1) ?_ ?_; unfold d1; rotate_left; intro hd1; clear_value d1; rotate_right)
    | (extract_lets +onlyGivenNames d1; clear_value d1)
    | split
    | with_reducible refine canon_snd ?_ (by with_reducible assumption)
    | with_reducible refine canon_fst ?_ (by with_reducible assumption)
    | dsimp only

theorem keep_execCmdRingCommand (frame : List Byte) (s : State) {t : State} (hc : s.dev.Canon) (ht :
    execCmdRingCommand frame s = .next t) : t.dev.Canon := by
  unfold execCmdRingCommand at ht
  refine State.lift_keeps (fun d hd => ?_) hc ht
  repeat' first
    | intro _
    | with_reducible assumption
    | with_reducible apply Dev.cmdState_canon
    | with_reducible apply Dev.portSend_canon
    | with_reducible apply canon_ite
    | split

theorem keep_execFail (roleLow : Bool) (s : State) {t : State} (hc : s.dev.Canon) (ht : execFail roleLow s = .next t)
    : t.dev.Canon := by
  unfold execFail at ht
  refine State.lift_keeps (fun d hd => ?_) hc ht
  repeat' first
    | intro _
    | with_reducible assumption
    | with_reducible apply Dev.roleLine_canon
    | with_reducible apply Dev.takeover_canon
    | (unfold done; dsimp only)
    | (unfold judged; dsimp only)
    | with_reducible apply canon_ite
    | with_reducible apply canon_ite_snd
    | with_reducible apply canon_ite_fst
    | with_reducible apply canon_foldl
    | with_reducible apply canon_foldl_fst
    | with_reducible apply canon_foldl_snd
    | (unfold Dev.Canon; dsimp only; with_reducible refine canon_fold ?_)
    | (extract_lets +onlyGivenNames d1; refine canon_have (d := d1) ?_ ?_; unfold d1; rotate_left; intro hd1; clear_value d1; rotate_right)
    | (extract_lets +onlyGivenNames d1; clear_value d1)
    | split
    | with_reducible refine canon_snd ?_ (by with_reducible assumption)
    | with_reducible refine canon_fst ?_ (by with_reducible assumption)
    | dsimp only

theorem keep_execResyncGranules (addr : Word) (data : List Byte) (s : State) {t : State} (hc : s.dev.Canon) (ht :
    execResyncGranules addr data s = .next t) : t.dev.Canon := by
  unfold execResyncGranules at ht
  refine State.lift_keeps (fun d hd => ?_) hc ht
  repeat' first
    | with_reducible assumption
    | with_reducible apply Dev.joinTake_canon

theorem keep_execResyncRegisters (j : JoinState) (s : State) {t : State} (hc : s.dev.Canon) (ht : execResyncRegisters
    j s = .next t) : t.dev.Canon := by
  unfold execResyncRegisters at ht
  refine State.lift_keeps (fun d hd => ?_) hc ht
  repeat' first
    | with_reducible assumption
    | with_reducible apply Dev.joinStateTake_canon

theorem keep_execResyncSlotHistory (sl : BitVec 3) (w14 w15 : Word) (e3 u3 : BitVec 16) (q : List (BitVec 16)) (s :
    State) {t : State} (hc : s.dev.Canon) (ht : execResyncSlotHistory sl w14 w15 e3 u3 q s = .next t) : t.dev.Canon
    := by
  unfold execResyncSlotHistory at ht
  refine State.lift_keeps (fun d hd => ?_) hc ht
  repeat' first
    | with_reducible assumption
    | with_reducible apply Dev.joinSlot_canon

theorem keep_execLinkFrameDiscard (s : State) {t : State} (hc : s.dev.Canon) (ht : execLinkFrameDiscard s = .next t)
    : t.dev.Canon := by
  unfold execLinkFrameDiscard at ht
  refine State.lift_keeps (fun d hd => ?_) hc ht
  repeat' first
    | intro _
    | with_reducible assumption
    | with_reducible apply Dev.twBad_canon
    | with_reducible apply canon_ite
    | split

theorem keep_execLagExpiry (s : State) {t : State} (hc : s.dev.Canon) (ht : execLagExpiry s = .next t) : t.dev.Canon
    := by
  unfold execLagExpiry at ht
  refine State.lift_keeps (fun d hd => ?_) hc ht
  repeat' first
    | with_reducible assumption
    | with_reducible apply Dev.lagExpiry_canon

theorem keep_execMissingImage (s : State) {t : State} (hc : s.dev.Canon) (ht : execMissingImage s = .next t) :
    t.dev.Canon := by
  unfold execMissingImage at ht
  refine State.lift_keeps (fun d hd => ?_) hc ht
  repeat' first
    | with_reducible assumption
    | with_reducible apply Dev.missingImage_canon

theorem keep_execJoinTimeout (roleLow : Bool) (s : State) {t : State} (hc : s.dev.Canon) (ht : execJoinTimeout
    roleLow s = .next t) : t.dev.Canon := by
  unfold execJoinTimeout at ht
  refine State.lift_keeps (fun d hd => ?_) hc ht
  repeat' first
    | intro _
    | with_reducible assumption
    | with_reducible apply Dev.joinTimeout_canon
    | with_reducible apply Dev.roleLine_canon

theorem keep_execTakeover (roleLow : Bool) (s : State) {t : State} (hc : s.dev.Canon) (ht : execTakeover roleLow s =
    .next t) : t.dev.Canon := by
  unfold execTakeover at ht
  refine State.lift_keeps (fun d hd => ?_) hc ht
  repeat' first
    | intro _
    | with_reducible assumption
    | with_reducible apply Dev.roleLine_canon
    | with_reducible apply Dev.takeover_canon

theorem keep_execKillSettleExpiry (s : State) {t : State} (hc : s.dev.Canon) (ht : execKillSettleExpiry s = .next t)
    : t.dev.Canon := by
  unfold execKillSettleExpiry at ht
  refine State.lift_keeps (fun d hd => ?_) hc ht
  repeat' first
    | with_reducible assumption
    | with_reducible apply Dev.settleExpiry_canon

theorem keep_execKillIn (active : Bool) (s : State) {t : State} (hc : s.dev.Canon) (ht : execKillIn active s = .next
    t) : t.dev.Canon := by
  unfold execKillIn at ht
  refine State.always_keeps (fun d hd => ?_) hc ht
  repeat' first
    | intro _
    | with_reducible assumption
    | with_reducible apply Dev.killIn_canon
    | (unfold done; dsimp only)
    | (unfold judged; dsimp only)
    | with_reducible apply canon_ite
    | with_reducible apply canon_ite_snd
    | with_reducible apply canon_ite_fst
    | with_reducible apply canon_foldl
    | with_reducible apply canon_foldl_fst
    | with_reducible apply canon_foldl_snd
    | (unfold Dev.Canon; dsimp only; with_reducible refine canon_fold ?_)
    | (extract_lets +onlyGivenNames d1; refine canon_have (d := d1) ?_ ?_; unfold d1; rotate_left; intro hd1; clear_value d1; rotate_right)
    | (extract_lets +onlyGivenNames d1; clear_value d1)
    | split
    | with_reducible refine canon_snd ?_ (by with_reducible assumption)
    | with_reducible refine canon_fst ?_ (by with_reducible assumption)
    | dsimp only

theorem keep_execDepose (src : Writer) (v : Word) (s : State) {t : State} (hc : s.dev.Canon) (ht : execDepose src v s
    = .next t) : t.dev.Canon := by
  unfold execDepose at ht
  refine State.lift_keeps (fun d hd => ?_) hc ht
  repeat' first
    | intro _
    | with_reducible assumption
    | with_reducible apply Dev.serviceGate_canon
    | with_reducible apply Dev.twCtl_canon

theorem keep_execRejoin (src : Writer) (v : Word) (s : State) {t : State} (hc : s.dev.Canon) (ht : execRejoin src v s
    = .next t) : t.dev.Canon := by
  unfold execRejoin at ht
  refine State.lift_keeps (fun d hd => ?_) hc ht
  repeat' first
    | intro _
    | with_reducible assumption
    | with_reducible apply Dev.serviceGate_canon
    | with_reducible apply Dev.twCtl_canon

theorem keep_execDeposedTimeout (s : State) {t : State} (hc : s.dev.Canon) (ht : execDeposedTimeout s = .next t) :
    t.dev.Canon := by
  unfold execDeposedTimeout at ht
  refine State.lift_keeps (fun d hd => ?_) hc ht
  repeat' first
    | with_reducible assumption
    | with_reducible apply Dev.deposedTimeout_canon

theorem keep_execSeed (src : Writer) (v : Word) (s : State) {t : State} (hc : s.dev.Canon) (ht : execSeed src v s =
    .next t) : t.dev.Canon := by
  unfold execSeed at ht
  refine State.lift_keeps (fun d hd => ?_) hc ht
  repeat' first
    | intro _
    | with_reducible assumption
    | with_reducible apply Dev.serviceGate_canon
    | with_reducible apply Dev.twCtl_canon

theorem keep_execHandover (src : Writer) (v : Word) (s : State) {t : State} (hc : s.dev.Canon) (ht : execHandover src
    v s = .next t) : t.dev.Canon := by
  unfold execHandover at ht
  refine State.lift_keeps (fun d hd => ?_) hc ht
  repeat' first
    | intro _
    | with_reducible assumption
    | with_reducible apply Dev.serviceGate_canon
    | with_reducible apply Dev.twCtl_canon

theorem keep_execResyncRound (s : State) {t : State} (hc : s.dev.Canon) (ht : execResyncRound s = .next t) :
    t.dev.Canon := by
  unfold execResyncRound at ht
  refine State.lift_keeps (fun d hd => ?_) hc ht
  repeat' first
    | with_reducible assumption
    | with_reducible apply Dev.rsRound_canon

theorem keep_execResyncTimeout (s : State) {t : State} (hc : s.dev.Canon) (ht : execResyncTimeout s = .next t) :
    t.dev.Canon := by
  unfold execResyncTimeout at ht
  refine State.lift_keeps (fun d hd => ?_) hc ht
  repeat' first
    | with_reducible assumption
    | with_reducible apply Dev.rsTimeout_canon

theorem keep_execMirrorInterval (s : State) {t : State} (hc : s.dev.Canon) (ht : execMirrorInterval s = .next t) :
    t.dev.Canon := by
  unfold execMirrorInterval at ht
  refine State.lift_keeps (fun d hd => ?_) hc ht
  repeat' first
    | with_reducible assumption
    | with_reducible apply Dev.mirrorInterval_canon

theorem keep_execSmbIdent (a : BitVec 7) (lastAck : Bool) (s : State) {t : State} (hc : s.dev.Canon) (ht :
    execSmbIdent a lastAck s = .next t) : t.dev.Canon := by
  unfold execSmbIdent at ht
  refine State.lift_keeps (fun d hd => ?_) hc ht
  repeat' first
    | with_reducible assumption
    | with_reducible apply Dev.smbRead_canon

theorem keep_execSmbStatus (a : BitVec 7) (lastAck : Bool) (s : State) {t : State} (hc : s.dev.Canon) (ht :
    execSmbStatus a lastAck s = .next t) : t.dev.Canon := by
  unfold execSmbStatus at ht
  refine State.lift_keeps (fun d hd => ?_) hc ht
  repeat' first
    | with_reducible assumption
    | with_reducible apply Dev.smbRead_canon

theorem keep_execSmbReqcode (a : BitVec 7) (lastAck : Bool) (s : State) {t : State} (hc : s.dev.Canon) (ht :
    execSmbReqcode a lastAck s = .next t) : t.dev.Canon := by
  unfold execSmbReqcode at ht
  refine State.lift_keeps (fun d hd => ?_) hc ht
  repeat' first
    | with_reducible assumption
    | with_reducible apply Dev.smbReqcode_canon

theorem keep_execSmbSoc (a : BitVec 7) (lastAck : Bool) (s : State) {t : State} (hc : s.dev.Canon) (ht : execSmbSoc a
    lastAck s = .next t) : t.dev.Canon := by
  unfold execSmbSoc at ht
  refine State.lift_keeps (fun d hd => ?_) hc ht
  repeat' first
    | with_reducible assumption
    | with_reducible apply Dev.smbRead_canon

theorem keep_execSmbVstr (a : BitVec 7) (lastAck : Bool) (s : State) {t : State} (hc : s.dev.Canon) (ht : execSmbVstr
    a lastAck s = .next t) : t.dev.Canon := by
  unfold execSmbVstr at ht
  refine State.lift_keeps (fun d hd => ?_) hc ht
  repeat' first
    | with_reducible assumption
    | with_reducible apply Dev.smbRead_canon

theorem keep_execSmbCurr (a : BitVec 7) (lastAck : Bool) (s : State) {t : State} (hc : s.dev.Canon) (ht : execSmbCurr
    a lastAck s = .next t) : t.dev.Canon := by
  unfold execSmbCurr at ht
  refine State.lift_keeps (fun d hd => ?_) hc ht
  repeat' first
    | with_reducible assumption
    | with_reducible apply Dev.smbRead_canon

theorem keep_execSmbSop (a : BitVec 7) (lastAck : Bool) (s : State) {t : State} (hc : s.dev.Canon) (ht : execSmbSop a
    lastAck s = .next t) : t.dev.Canon := by
  unfold execSmbSop at ht
  refine State.lift_keeps (fun d hd => ?_) hc ht
  repeat' first
    | with_reducible assumption
    | with_reducible apply Dev.smbRead_canon

theorem keep_execSmbText (a : BitVec 7) (lastAck : Bool) (s : State) {t : State} (hc : s.dev.Canon) (ht : execSmbText
    a lastAck s = .next t) : t.dev.Canon := by
  unfold execSmbText at ht
  refine State.lift_keeps (fun d hd => ?_) hc ht
  repeat' first
    | with_reducible assumption
    | with_reducible apply Dev.smbRead_canon

theorem keep_execSmbVext (a : BitVec 7) (lastAck : Bool) (s : State) {t : State} (hc : s.dev.Canon) (ht : execSmbVext
    a lastAck s = .next t) : t.dev.Canon := by
  unfold execSmbVext at ht
  refine State.lift_keeps (fun d hd => ?_) hc ht
  repeat' first
    | with_reducible assumption
    | with_reducible apply Dev.smbRead_canon

theorem keep_execSmbCelldata (a : BitVec 7) (lastAck : Bool) (s : State) {t : State} (hc : s.dev.Canon) (ht :
    execSmbCelldata a lastAck s = .next t) : t.dev.Canon := by
  unfold execSmbCelldata at ht
  refine State.lift_keeps (fun d hd => ?_) hc ht
  repeat' first
    | with_reducible assumption
    | with_reducible apply Dev.smbRead_canon

theorem keep_execSmbEvent (a : BitVec 7) (lastAck : Bool) (s : State) {t : State} (hc : s.dev.Canon) (ht :
    execSmbEvent a lastAck s = .next t) : t.dev.Canon := by
  unfold execSmbEvent at ht
  refine State.lift_keeps (fun d hd => ?_) hc ht
  repeat' first
    | with_reducible assumption
    | with_reducible apply Dev.smbRead_canon

theorem keep_execSmbUread (a : BitVec 7) (lastAck : Bool) (s : State) {t : State} (hc : s.dev.Canon) (ht :
    execSmbUread a lastAck s = .next t) : t.dev.Canon := by
  unfold execSmbUread at ht
  refine State.lift_keeps (fun d hd => ?_) hc ht
  repeat' first
    | with_reducible assumption
    | with_reducible apply Dev.smbRead_canon

theorem keep_execSmbCellsel (a : BitVec 7) (l : List Byte) (pec : Option Byte) (s : State) {t : State} (hc :
    s.dev.Canon) (ht : execSmbCellsel a l pec s = .next t) : t.dev.Canon := by
  unfold execSmbCellsel at ht
  refine State.lift_keeps (fun d hd => ?_) hc ht
  repeat' first
    | with_reducible assumption
    | with_reducible apply Dev.smbCellsel_canon

theorem keep_execSmbUwrite (a : BitVec 7) (count : Byte) (l : List Byte) (pec : Option Byte) (s : State) {t : State}
    (hc : s.dev.Canon) (ht : execSmbUwrite a count l pec s = .next t) : t.dev.Canon := by
  unfold execSmbUwrite at ht
  refine State.lift_keeps (fun d hd => ?_) hc ht
  repeat' first
    | with_reducible assumption
    | with_reducible apply Dev.smbWrite_canon

theorem keep_execSmbUnknownCommand (a : BitVec 7) (code : Byte) (read : Bool) (s : State) {t : State} (hc :
    s.dev.Canon) (ht : execSmbUnknownCommand a code read s = .next t) : t.dev.Canon := by
  unfold execSmbUnknownCommand at ht
  refine State.lift_keeps (fun d hd => ?_) hc ht
  repeat' first
    | intro _
    | with_reducible assumption
    | with_reducible apply Dev.flag_canon
    | with_reducible apply Dev.smbLast_canon
    | with_reducible apply canon_ite
    | split

theorem keep_execAlertResponse (won lastAck : Bool) (s : State) {t : State} (hc : s.dev.Canon) (ht :
    execAlertResponse won lastAck s = .next t) : t.dev.Canon := by
  unfold execAlertResponse at ht
  refine State.lift_keeps (fun d hd => ?_) hc ht
  repeat' first
    | intro _
    | with_reducible assumption
    | with_reducible apply Dev.send_canon
    | (unfold done; dsimp only)
    | (unfold judged; dsimp only)
    | with_reducible apply canon_ite
    | with_reducible apply canon_ite_snd
    | with_reducible apply canon_ite_fst
    | with_reducible apply canon_foldl
    | with_reducible apply canon_foldl_fst
    | with_reducible apply canon_foldl_snd
    | (unfold Dev.Canon; dsimp only; with_reducible refine canon_fold ?_)
    | (extract_lets +onlyGivenNames d1; refine canon_have (d := d1) ?_ ?_; unfold d1; rotate_left; intro hd1; clear_value d1; rotate_right)
    | (extract_lets +onlyGivenNames d1; clear_value d1)
    | split
    | with_reducible refine canon_snd ?_ (by with_reducible assumption)
    | with_reducible refine canon_fst ?_ (by with_reducible assumption)
    | dsimp only

theorem keep_execSmbReqset (src : Writer) (v : Word) (s : State) {t : State} (hc : s.dev.Canon) (ht : execSmbReqset
    src v s = .next t) : t.dev.Canon := by
  unfold execSmbReqset at ht
  refine State.lift_keeps (fun d hd => ?_) hc ht
  repeat' first
    | intro _
    | with_reducible assumption
    | with_reducible apply Dev.gate_canon
    | with_reducible apply Dev.smbPush_canon

theorem keep_execSdaReleaseTimeout (s : State) {t : State} (hc : s.dev.Canon) (ht : execSdaReleaseTimeout s = .next
    t) : t.dev.Canon := by
  unfold execSdaReleaseTimeout at ht
  refine State.lift_keeps (fun d hd => ?_) hc ht
  repeat' first
    | intro _
    | with_reducible assumption
    | with_reducible apply Dev.flag_canon
    | with_reducible apply Dev.hw_canon
    | with_reducible apply canon_ite
    | split

theorem keep_execSclLowTimeout (s : State) {t : State} (hc : s.dev.Canon) (ht : execSclLowTimeout s = .next t) :
    t.dev.Canon := by
  unfold execSclLowTimeout at ht
  refine State.lift_keeps (fun d hd => ?_) hc ht
  repeat' first
    | intro _
    | with_reducible assumption
    | with_reducible apply Dev.flag_canon
    | with_reducible apply Dev.hw_canon

theorem keep_execBringUp (found : Option (Byte × List EnumNode × BitVec 24)) (s : State) {t : State} (hc :
    s.dev.Canon) (ht : execBringUp found s = .next t) : t.dev.Canon := by
  unfold execBringUp at ht
  refine State.lift_keeps (fun d hd => ?_) hc ht
  repeat' first
    | with_reducible assumption
    | with_reducible apply Dev.bringUp_canon

theorem keep_execFullService (s : State) {t : State} (hc : s.dev.Canon) (ht : execFullService s = .next t) :
    t.dev.Canon := by
  unfold execFullService at ht
  refine State.lift_keeps (fun d hd => ?_) hc ht
  repeat' first
    | with_reducible assumption
    | with_reducible apply Dev.fullService_canon

theorem keep_execCollectLaunch (s : State) {t : State} (hc : s.dev.Canon) (ht : execCollectLaunch s = .next t) :
    t.dev.Canon := by
  unfold execCollectLaunch at ht
  refine State.lift_keeps (fun d hd => ?_) hc ht
  repeat' first
    | with_reducible assumption
    | with_reducible apply Dev.collectLaunch_canon

theorem keep_execSlotReceive (x : Bool) (arg : Byte) (node : BitVec 6) (seq : BitVec 16) (flags turn : Byte) (data :
    List Byte)
    (crcOk : Bool) (fin : FrameEnd) (s : State) {t : State} (hc : s.dev.Canon) (ht : execSlotReceive x
    arg node seq flags turn data crcOk fin s = .next t) : t.dev.Canon := by
  unfold execSlotReceive at ht
  refine State.lift_keeps (fun d hd => ?_) hc ht
  repeat' first
    | with_reducible assumption
    | with_reducible apply Dev.slotReceive_canon

theorem keep_execSweepDeadline (transit : Option (BitVec 24)) (s : State) {t : State} (hc : s.dev.Canon) (ht :
    execSweepDeadline transit s = .next t) : t.dev.Canon := by
  unfold execSweepDeadline at ht
  refine State.lift_keeps (fun d hd => ?_) hc ht
  repeat' first
    | with_reducible assumption
    | with_reducible apply Dev.sweepDeadline_canon

theorem keep_execPublication (s : State) {t : State} (hc : s.dev.Canon) (ht : execPublication s = .next t) :
    t.dev.Canon := by
  unfold execPublication at ht
  refine State.lift_keeps (fun d hd => ?_) hc ht
  repeat' first
    | intro _
    | with_reducible assumption
    | with_reducible apply Dev.publish_canon
    | with_reducible apply Dev.sweepDeadline_canon
    | with_reducible apply canon_ite
    | split

theorem keep_execTemperatureRead (s : State) {t : State} (hc : s.dev.Canon) (ht : execTemperatureRead s = .next t) :
    t.dev.Canon := by
  unfold execTemperatureRead at ht
  refine State.lift_keeps (fun d hd => ?_) hc ht
  repeat' first
    | with_reducible assumption
    | with_reducible apply Dev.temperatureRead_canon

theorem keep_execOpenWireGo (src : Writer) (v : Word) (s : State) {t : State} (hc : s.dev.Canon) (ht : execOpenWireGo
    src v s = .next t) : t.dev.Canon := by
  unfold execOpenWireGo at ht
  refine State.lift_keeps (fun d hd => ?_) hc ht
  repeat' first
    | intro _
    | with_reducible assumption
    | with_reducible apply Dev.gate_canon
    | with_reducible apply Dev.owGo_canon

theorem keep_execOpenWireEvaluate (s : State) {t : State} (hc : s.dev.Canon) (ht : execOpenWireEvaluate s = .next t)
    : t.dev.Canon := by
  unfold execOpenWireEvaluate at ht
  refine State.lift_keeps (fun d hd => ?_) hc ht
  repeat' first
    | with_reducible assumption
    | with_reducible apply Dev.owEvaluate_canon

theorem keep_execSwpClearCounts (src : Writer) (v : Word) (s : State) {t : State} (hc : s.dev.Canon) (ht :
    execSwpClearCounts src v s = .next t) : t.dev.Canon := by
  unfold execSwpClearCounts at ht
  refine State.lift_keeps (fun d hd => ?_) hc ht
  repeat' first
    | intro _
    | with_reducible assumption
    | with_reducible apply Dev.gate_canon
    | with_reducible apply Dev.swpCtl_canon

theorem keep_execMfs (p : Pair) (rd : GReg) (num : BitVec 11) (s : State) {t : State} (hc : s.dev.Canon) (ht :
    execMfs p rd num s = .next t) : t.dev.Canon := by
  unfold execMfs at ht
  refine State.lift_keeps (fun d hd => ?_) hc ht
  repeat' first
    | with_reducible assumption
    | with_reducible apply Dev.specOp_canon

theorem keep_execMts (p : Pair) (ra : GReg) (num : BitVec 11) (s : State) {t : State} (hc : s.dev.Canon) (ht :
    execMts p ra num s = .next t) : t.dev.Canon := by
  unfold execMts at ht
  refine State.lift_keeps (fun d hd => ?_) hc ht
  repeat' first
    | with_reducible assumption
    | with_reducible apply Dev.specOp_canon

theorem keep_execSets (p : Pair) (rd ra : GReg) (num : BitVec 11) (s : State) {t : State} (hc : s.dev.Canon) (ht :
    execSets p rd ra num s = .next t) : t.dev.Canon := by
  unfold execSets at ht
  refine State.lift_keeps (fun d hd => ?_) hc ht
  repeat' first
    | with_reducible assumption
    | with_reducible apply Dev.specOp_canon

theorem keep_execClrs (p : Pair) (rd ra : GReg) (num : BitVec 11) (s : State) {t : State} (hc : s.dev.Canon) (ht :
    execClrs p rd ra num s = .next t) : t.dev.Canon := by
  unfold execClrs at ht
  refine State.lift_keeps (fun d hd => ?_) hc ht
  repeat' first
    | with_reducible assumption
    | with_reducible apply Dev.specOp_canon

theorem keep_execSysc (p : Pair) (imm : BitVec 11) (s : State) {t : State} (hc : s.dev.Canon) (ht : execSysc p imm s
    = .next t) : t.dev.Canon := by
  unfold execSysc at ht
  refine State.lift_keeps (fun d hd => ?_) hc ht
  repeat' first
    | intro _
    | with_reducible assumption
    | with_reducible apply Dev.exception_canon
    | with_reducible apply Dev.issue_canon
    | with_reducible apply Dev.setCore_canon
    | with_reducible apply canon_ite
    | split

theorem keep_execRfx (p : Pair) (s : State) {t : State} (hc : s.dev.Canon) (ht : execRfx p s = .next t) : t.dev.Canon
    := by
  unfold execRfx at ht
  refine State.lift_keeps (fun d hd => ?_) hc ht
  repeat' first
    | intro _
    | with_reducible assumption
    | with_reducible apply Dev.issue_canon
    | with_reducible apply Dev.raise_canon
    | with_reducible apply Dev.setCore_canon
    | with_reducible apply canon_ite
    | split

theorem keep_execFence (p : Pair) (imm : BitVec 11) (s : State) {t : State} (hc : s.dev.Canon) (ht : execFence p imm
    s = .next t) : t.dev.Canon := by
  unfold execFence at ht
  refine State.lift_keeps (fun d hd => ?_) hc ht
  repeat' first
    | with_reducible assumption
    | with_reducible apply Dev.aluIf_canon

theorem keep_execWfe (p : Pair) (rd ra : GReg) (s : State) {t : State} (hc : s.dev.Canon) (ht : execWfe p rd ra s =
    .next t) : t.dev.Canon := by
  unfold execWfe at ht
  refine State.lift_keeps (fun d hd => ?_) hc ht
  repeat' first
    | intro _
    | with_reducible assumption
    | with_reducible apply Dev.issue_canon
    | with_reducible apply Dev.raise_canon
    | with_reducible apply Dev.setCore_canon
    | with_reducible apply canon_ite
    | split

theorem keep_execSev (p : Pair) (imm : BitVec 11) (s : State) {t : State} (hc : s.dev.Canon) (ht : execSev p imm s =
    .next t) : t.dev.Canon := by
  unfold execSev at ht
  refine State.lift_keeps (fun d hd => ?_) hc ht
  repeat' first
    | intro _
    | with_reducible assumption
    | with_reducible apply Dev.issue_canon
    | with_reducible apply Dev.raise_canon
    | with_reducible apply Dev.setCore_canon
    | with_reducible apply Dev.setEvent_canon
    | with_reducible apply canon_ite
    | split

theorem keep_execBrk (p : Pair) (s : State) {t : State} (hc : s.dev.Canon) (ht : execBrk p s = .next t) : t.dev.Canon
    := by
  unfold execBrk at ht
  refine State.lift_keeps (fun d hd => ?_) hc ht
  repeat' first
    | intro _
    | with_reducible assumption
    | with_reducible apply Dev.issue_canon
    | with_reducible apply Dev.raise_canon

theorem keep_execInterrupt (source : Nat) (s : State) {t : State} (hc : s.dev.Canon) (ht : execInterrupt source s =
    .next t) : t.dev.Canon := by
  unfold execInterrupt at ht
  refine State.lift_keeps (fun d hd => ?_) hc ht
  repeat' first
    | intro _
    | with_reducible assumption
    | with_reducible apply Dev.exception_canon
    | with_reducible apply Dev.settle_canon
    | with_reducible apply canon_ite
    | split

theorem keep_execLockstepError (p : Pair) (s : State) {t : State} (hc : s.dev.Canon) (ht : execLockstepError p s =
    .next t) : t.dev.Canon := by
  unfold execLockstepError at ht
  refine State.lift_keeps (fun d hd => ?_) hc ht
  repeat' first
    | intro _
    | with_reducible assumption
    | with_reducible apply Dev.pairStop_canon
    | with_reducible apply Dev.settle_canon
    | with_reducible apply canon_ite
    | split

theorem keep_execExpertRelease (src : Writer) (hi : Bool) (v : Word) (s : State) {t : State} (hc : s.dev.Canon) (ht :
    execExpertRelease src hi v s = .next t) : t.dev.Canon := by
  unfold execExpertRelease at ht
  refine State.lift_keeps (fun d hd => ?_) hc ht
  repeat' first
    | with_reducible assumption
    | with_reducible apply Dev.expRelWrite_canon

theorem keep_execClaimenLock (src : Writer) (v : Word) (s : State) {t : State} (hc : s.dev.Canon) (ht :
    execClaimenLock src v s = .next t) : t.dev.Canon := by
  unfold execClaimenLock at ht
  refine State.lift_keeps (fun d hd => ?_) hc ht
  repeat' first
    | intro _
    | with_reducible assumption
    | with_reducible apply Dev.gate_canon
    | with_reducible apply Dev.sysCtlWrite_canon

theorem keep_execTimIncWrite (src : Writer) (v : Word) (s : State) {t : State} (hc : s.dev.Canon) (ht :
    execTimIncWrite src v s = .next t) : t.dev.Canon := by
  unfold execTimIncWrite at ht
  refine State.lift_keeps (fun d hd => ?_) hc ht
  repeat' first
    | intro _
    | with_reducible assumption
    | with_reducible apply Dev.gate_canon
    | with_reducible apply Dev.timInc_canon

theorem keep_execTimAdjsecWrite (src : Writer) (v : Word) (s : State) {t : State} (hc : s.dev.Canon) (ht :
    execTimAdjsecWrite src v s = .next t) : t.dev.Canon := by
  unfold execTimAdjsecWrite at ht
  refine State.lift_keeps (fun d hd => ?_) hc ht
  repeat' first
    | intro _
    | with_reducible assumption
    | with_reducible apply Dev.gate_canon
    | with_reducible apply Dev.timAdjSec_canon

theorem keep_execTimAdjnsWrite (src : Writer) (v : Word) (s : State) {t : State} (hc : s.dev.Canon) (ht :
    execTimAdjnsWrite src v s = .next t) : t.dev.Canon := by
  unfold execTimAdjnsWrite at ht
  refine State.lift_keeps (fun d hd => ?_) hc ht
  repeat' first
    | intro _
    | with_reducible assumption
    | with_reducible apply Dev.gate_canon
    | with_reducible apply Dev.timAdjNs_canon

theorem keep_execDecl (src : Writer) (v : Word) (s : State) {t : State} (hc : s.dev.Canon) (ht : execDecl src v s =
    .next t) : t.dev.Canon := by
  unfold execDecl at ht
  refine State.lift_keeps (fun d hd => ?_) hc ht
  repeat' first
    | intro _
    | with_reducible assumption
    | with_reducible apply Dev.gate_canon
    | with_reducible apply Dev.timCtl_canon

theorem keep_execTimHoldtoWrite (src : Writer) (v : Word) (s : State) {t : State} (hc : s.dev.Canon) (ht :
    execTimHoldtoWrite src v s = .next t) : t.dev.Canon := by
  unfold execTimHoldtoWrite at ht
  refine State.lift_keeps (fun d hd => ?_) hc ht
  repeat' first
    | intro _
    | with_reducible assumption
    | with_reducible apply Dev.gate_canon
    | with_reducible apply Dev.timHoldTo_canon

theorem keep_execHoldoverExpiry (s : State) {t : State} (hc : s.dev.Canon) (ht : execHoldoverExpiry s = .next t) :
    t.dev.Canon := by
  unfold execHoldoverExpiry at ht
  refine State.lift_keeps (fun d hd => ?_) hc ht
  repeat' first
    | with_reducible assumption
    | with_reducible apply Dev.holdExpiry_canon

theorem keep_execTcorrEvaluation (corr : Word) (s : State) {t : State} (hc : s.dev.Canon) (ht : execTcorrEvaluation
    corr s = .next t) : t.dev.Canon := by
  unfold execTcorrEvaluation at ht
  refine State.lift_keeps (fun d hd => ?_) hc ht
  repeat' first
    | with_reducible assumption
    | with_reducible apply Dev.wr_canon

theorem keep_execTimSnap (src : Writer) (s : State) {t : State} (hc : s.dev.Canon) (ht : execTimSnap src s = .next t)
    : t.dev.Canon := by
  unfold execTimSnap at ht
  refine State.lift_keeps (fun d hd => ?_) hc ht
  repeat' first
    | intro _
    | with_reducible assumption
    | with_reducible apply Dev.gate_canon
    | with_reducible apply Dev.timSnap_canon

theorem keep_execTimTbLoRead (s : State) {t : State} (hc : s.dev.Canon) (ht : execTimTbLoRead s = .next t) :
    t.dev.Canon := by
  unfold execTimTbLoRead at ht
  refine State.lift_keeps (fun d hd => ?_) hc ht
  repeat' first
    | with_reducible assumption
    | with_reducible apply Dev.timTbRead_canon

theorem keep_execAngAngleRead (s : State) {t : State} (hc : s.dev.Canon) (ht : execAngAngleRead s = .next t) :
    t.dev.Canon := by
  unfold execAngAngleRead at ht
  refine State.lift_keeps (fun d hd => ?_) hc ht
  repeat' first
    | with_reducible assumption
    | with_reducible apply Dev.angAngleRead_canon

theorem keep_execAngleWrap (s : State) {t : State} (hc : s.dev.Canon) (ht : execAngleWrap s = .next t) : t.dev.Canon
    := by
  unfold execAngleWrap at ht
  refine State.lift_keeps (fun d hd => ?_) hc ht
  repeat' first
    | intro _
    | with_reducible assumption
    | with_reducible apply Dev.angTick_canon
    | with_reducible apply canon_ite
    | split

theorem keep_execSourceLossTimeout (s : State) {t : State} (hc : s.dev.Canon) (ht : execSourceLossTimeout s = .next
    t) : t.dev.Canon := by
  unfold execSourceLossTimeout at ht
  refine State.lift_keeps (fun d hd => ?_) hc ht
  repeat' first
    | with_reducible assumption
    | with_reducible apply Dev.angLoss_canon

theorem keep_execSourceReturn (s : State) {t : State} (hc : s.dev.Canon) (ht : execSourceReturn s = .next t) :
    t.dev.Canon := by
  unfold execSourceReturn at ht
  refine State.lift_keeps (fun d hd => ?_) hc ht
  repeat' first
    | with_reducible assumption
    | with_reducible apply Dev.angReturn_canon

theorem keep_execAngSrcpriWrite (src : Writer) (v : Word) (s : State) {t : State} (hc : s.dev.Canon) (ht :
    execAngSrcpriWrite src v s = .next t) : t.dev.Canon := by
  unfold execAngSrcpriWrite at ht
  refine State.lift_keeps (fun d hd => ?_) hc ht
  repeat' first
    | intro _
    | with_reducible assumption
    | with_reducible apply Dev.angSrcPri_canon
    | with_reducible apply Dev.gate_canon

theorem keep_execForcefrWrite (src : Writer) (v : Word) (s : State) {t : State} (hc : s.dev.Canon) (ht :
    execForcefrWrite src v s = .next t) : t.dev.Canon := by
  unfold execForcefrWrite at ht
  refine State.lift_keeps (fun d hd => ?_) hc ht
  repeat' first
    | intro _
    | with_reducible assumption
    | with_reducible apply Dev.angCtl_canon
    | with_reducible apply Dev.gate_canon

theorem keep_execFreeRunSlew (s : State) {t : State} (hc : s.dev.Canon) (ht : execFreeRunSlew s = .next t) :
    t.dev.Canon := by
  unfold execFreeRunSlew at ht
  refine State.lift_keeps (fun d hd => ?_) hc ht
  repeat' first
    | with_reducible assumption
    | with_reducible apply Dev.slewDue_canon

theorem keep_execAngPerrWrite (src : Writer) (v : Word) (s : State) {t : State} (hc : s.dev.Canon) (ht :
    execAngPerrWrite src v s = .next t) : t.dev.Canon := by
  unfold execAngPerrWrite at ht
  refine State.lift_keeps (fun d hd => ?_) hc ht
  repeat' first
    | intro _
    | with_reducible assumption
    | with_reducible apply Dev.angPerr_canon
    | with_reducible apply Dev.gate_canon

theorem keep_execAngIncHiWrite (src : Writer) (v : Word) (s : State) {t : State} (hc : s.dev.Canon) (ht :
    execAngIncHiWrite src v s = .next t) : t.dev.Canon := by
  unfold execAngIncHiWrite at ht
  refine State.lift_keeps (fun d hd => ?_) hc ht
  repeat' first
    | intro _
    | with_reducible assumption
    | with_reducible apply Dev.angIncHi_canon
    | with_reducible apply Dev.gate_canon

theorem keep_execAngIncLoWrite (src : Writer) (v : Word) (s : State) {t : State} (hc : s.dev.Canon) (ht :
    execAngIncLoWrite src v s = .next t) : t.dev.Canon := by
  unfold execAngIncLoWrite at ht
  refine State.lift_keeps (fun d hd => ?_) hc ht
  repeat' first
    | intro _
    | with_reducible assumption
    | with_reducible apply Dev.angIncLo_canon
    | with_reducible apply Dev.gate_canon

theorem keep_execZcEdge (level : Bool) (us : BitVec 16) (s : State) {t : State} (hc : s.dev.Canon) (ht : execZcEdge
    level us s = .next t) : t.dev.Canon := by
  unfold execZcEdge at ht
  refine State.lift_keeps (fun d hd => ?_) hc ht
  repeat' first
    | with_reducible assumption
    | with_reducible apply Dev.zcLevel_canon

theorem keep_execReferenceTick (s : State) {t : State} (hc : s.dev.Canon) (ht : execReferenceTick s = .next t) :
    t.dev.Canon := by
  unfold execReferenceTick at ht
  refine State.always_keeps (fun d hd => ?_) hc ht
  repeat' first
    | intro _
    | with_reducible assumption
    | with_reducible apply Dev.optTick_canon
    | with_reducible apply Dev.tick_canon
    | (unfold done; dsimp only)
    | (unfold judged; dsimp only)
    | with_reducible apply canon_ite
    | with_reducible apply canon_ite_snd
    | with_reducible apply canon_ite_fst
    | with_reducible apply canon_foldl
    | with_reducible apply canon_foldl_fst
    | with_reducible apply canon_foldl_snd
    | (unfold Dev.Canon; dsimp only; with_reducible refine canon_fold ?_)
    | (extract_lets +onlyGivenNames d1; refine canon_have (d := d1) ?_ ?_; unfold d1; rotate_left; intro hd1; clear_value d1; rotate_right)
    | (extract_lets +onlyGivenNames d1; clear_value d1)
    | split
    | with_reducible refine canon_snd ?_ (by with_reducible assumption)
    | with_reducible refine canon_fst ?_ (by with_reducible assumption)
    | dsimp only

theorem keep_execTtEntryWord0Write (src : Writer) (b : BitVec 1) (i : Byte) (v : Word) (s : State) {t : State} (hc :
    s.dev.Canon) (ht : execTtEntryWord0Write src b i v s = .next t) : t.dev.Canon := by
  unfold execTtEntryWord0Write at ht
  refine State.lift_keeps (fun d hd => ?_) hc ht
  repeat' first
    | intro _
    | with_reducible assumption
    | with_reducible apply Dev.gate_canon
    | with_reducible apply Dev.ttWord0_canon

theorem keep_execTtEntryWord1Write (src : Writer) (b : BitVec 1) (i : Byte) (v : Word) (s : State) {t : State} (hc :
    s.dev.Canon) (ht : execTtEntryWord1Write src b i v s = .next t) : t.dev.Canon := by
  unfold execTtEntryWord1Write at ht
  refine State.lift_keeps (fun d hd => ?_) hc ht
  repeat' first
    | intro _
    | with_reducible assumption
    | with_reducible apply Dev.gate_canon
    | with_reducible apply Dev.ttWord1_canon

theorem keep_execTtSwapRequest (src : Writer) (v : Word) (s : State) {t : State} (hc : s.dev.Canon) (ht :
    execTtSwapRequest src v s = .next t) : t.dev.Canon := by
  unfold execTtSwapRequest at ht
  refine State.lift_keeps (fun d hd => ?_) hc ht
  repeat' first
    | intro _
    | with_reducible assumption
    | with_reducible apply Dev.gate_canon
    | with_reducible apply Dev.ttCtl_canon

theorem keep_execBlankSend (s : State) {t : State} (hc : s.dev.Canon) (ht : execBlankSend s = .next t) : t.dev.Canon
    := by
  unfold execBlankSend at ht
  refine State.lift_keeps (fun d hd => ?_) hc ht
  repeat' first
    | with_reducible assumption
    | with_reducible apply Dev.blankSend_canon

theorem keep_execStoreroomWrite (s : State) {t : State} (hc : s.dev.Canon) (ht : execStoreroomWrite s = .next t) :
    t.dev.Canon := by
  unfold execStoreroomWrite at ht
  refine State.lift_keeps (fun d hd => ?_) hc ht
  repeat' first
    | with_reducible assumption
    | with_reducible apply Dev.stoService_canon

theorem keep_execStoreroomInterval (s : State) {t : State} (hc : s.dev.Canon) (ht : execStoreroomInterval s = .next
    t) : t.dev.Canon := by
  unfold execStoreroomInterval at ht
  refine State.lift_keeps (fun d hd => ?_) hc ht
  repeat' first
    | with_reducible assumption
    | with_reducible apply Dev.stoInterval_canon

theorem keep_execTransportRequest (s : State) {t : State} (hc : s.dev.Canon) (ht : execTransportRequest s = .next t)
    : t.dev.Canon := by
  unfold execTransportRequest at ht
  refine State.lift_keeps (fun d hd => ?_) hc ht
  repeat' first
    | with_reducible assumption
    | with_reducible apply Dev.transReq_canon

theorem keep_execTransportExit (returned : Bool) (s : State) {t : State} (hc : s.dev.Canon) (ht : execTransportExit
    returned s = .next t) : t.dev.Canon := by
  unfold execTransportExit at ht
  refine State.lift_keeps (fun d hd => ?_) hc ht
  repeat' first
    | with_reducible assumption
    | with_reducible apply Dev.transExit_canon

theorem keep_execCommandTransport (h : PlantHead) (l : List Byte) (s : State) {t : State} (hc : s.dev.Canon) (ht :
    execCommandTransport h l s = .next t) : t.dev.Canon := by
  unfold execCommandTransport at ht
  refine State.lift_keeps (fun d hd => ?_) hc ht
  repeat' first
    | intro _
    | with_reducible assumption
    | with_reducible apply Dev.plantCommand_canon
    | with_reducible apply Dev.transReq_canon

theorem State.runProgram_illegal_keeps {s t : State} (hc : s.dev.Canon) (ht :
    s.lift (fun d => d.issue .program (fun d => d.raise .program 1 0 none)) = .next t) : t.dev.Canon :=
  State.lift_keeps (fun _ hd => Dev.issue_canon _ _ hd (fun _ h => Dev.raise_canon _ _ _ _ h)) hc ht

end Sys2Proof.Machine
end

