-- ==== Sys2Proof/Laws/Tick.lean ====
section
/-! SUPPORT. What one reference tick leaves to the clocks alone: the angle clock, the bank swap, the operating time and the
watched timers touch neither the local clock nor the cores. -/

set_option Elab.async false

namespace Sys2Proof.Machine

/-- The time of the reference, the local clock and both cores. -/
def Dev.clocks (d : Dev) : Nat × TimSt × CoreSt × CoreSt := (d.now, d.tim, d.sys, d.prog)

theorem Dev.mirror_clocks (d : Dev) (a b : Nat) (l : List Byte) : (d.mirror a b l).clocks = d.clocks := by
  unfold Dev.mirror Dev.send
  split
  · dsimp only; split <;> rfl
  · rfl

theorem Dev.ttFill_clocks (l : List Nat) (d : Dev)
    (F : Dev → Nat → Dev) (h : ∀ d i, (F d i).clocks = d.clocks) : (l.foldl F d).clocks = d.clocks := by
  induction l generalizing d with
  | nil => rfl
  | cons x t ih => rw [List.foldl_cons, ih, h]

theorem Dev.setBit_clocks (d : Dev) (a i : Nat) (x : Bool) : (d.setBit a i x).clocks = d.clocks := rfl

theorem Dev.tt_clocks (d : Dev) (x : TtSt) : Dev.clocks { d with tt := x } = d.clocks := rfl

theorem Dev.ttSwap_clocks (d : Dev) : d.ttSwap.clocks = d.clocks := by
  unfold Dev.ttSwap
  split
  · dsimp only
    split
    · rw [Dev.setBit_clocks, Dev.setBit_clocks]
      rw [Dev.tt_clocks]
      refine Dev.ttFill_clocks _ _ _ ?_
      intro e i; split <;> rfl
    · rw [Dev.mirror_clocks, Dev.setBit_clocks, Dev.setBit_clocks]
      rw [Dev.tt_clocks]
      refine Dev.ttFill_clocks _ _ _ ?_
      intro e i; split <;> rfl
  · rfl

theorem Dev.angTick_clocks (d : Dev) : d.angTick.clocks = d.clocks := by
  unfold Dev.angTick
  dsimp only
  split
  · rw [Dev.ttSwap_clocks]; rfl
  · rfl

theorem Dev.watch_clocks (d : Dev) (t : Nat) (ok : Bool) : (d.watch t ok).clocks = d.clocks := by
  unfold Dev.watch
  split <;> split <;> rfl

theorem Dev.optTick_clocks (d : Dev) : d.optTick.clocks = d.clocks := by
  unfold Dev.optTick
  split <;> rfl

/-- A tick moves the reference, the local clock and the two cycle counts on, each by its rule. -/
theorem Dev.tick_clocks (d : Dev) : d.tick.clocks =
    (d.now + 1, d.tim.tick d.timEff, { d.sys with clk := d.sys.clk + 4 }, { d.prog with clk := d.prog.clk + 4 }) := by
  unfold Dev.tick
  dsimp only
  rw [Dev.watch_clocks, Dev.watch_clocks, Dev.angTick_clocks]
  have h : ∀ e : Dev, e.coreTick.clocks =
      (e.clocks.1, e.clocks.2.1, { e.clocks.2.2.1 with clk := e.clocks.2.2.1.clk + 4 }, { e.clocks.2.2.2 with clk := e.clocks.2.2.2.clk + 4 }) :=
    fun _ => rfl
  rw [h, Dev.optTick_clocks]
  rfl

end Sys2Proof.Machine
end

