-- ==== Sys2Proof/WellFormed.lean ====
section
/-! DEFINITION. Which commands are well formed: the operands that a type alone does not bound have the lengths their
messages give them.  A command that is not well formed still has the effect its meaning gives it. -/

namespace Sys2Proof

/-- The number of data bytes that a DLC spells: up to 8 in the classical format, the steps of ISO 11898-1 with FDF
(R423). -/
def dlcBytes (fdf : Bool) (dlc : Nat) : Nat :=
  if dlc ≤ 8 then dlc
  else if fdf = false then 8
  else if dlc < 13 then 4 * dlc - 24
  else 16 * dlc - 176

/-- The command is well formed. -/
def wellFormed (i : Instr) : Bool :=
  match i with
  | .registerWrite _ _ _ => true
  | .expertRelease _ _ _ => true
  | .claimenLock _ _ => true
  | .timIncWrite _ _ => true
  | .timAdjsecWrite _ _ => true
  | .timAdjnsWrite _ _ => true
  | .decl _ _ => true
  | .timHoldtoWrite _ _ => true
  | .holdoverExpiry => true
  | .tcorrEvaluation _ => true
  | .timSnap _ => true
  | .timTbLoRead => true
  | .angAngleRead => true
  | .angleWrap => true
  | .sourceLossTimeout => true
  | .sourceReturn => true
  | .angSrcpriWrite _ _ => true
  | .forcefrWrite _ _ => true
  | .freeRunSlew => true
  | .angPerrWrite _ _ => true
  | .angIncHiWrite _ _ => true
  | .angIncLoWrite _ _ => true
  | .zcEdge _ _ => true
  | .angleMessage l => decide (l.length = 32)
  | .timetableMatch => true
  | .ttEntryWord0Write _ _ _ _ => true
  | .ttEntryWord1Write _ _ _ _ => true
  | .ttSwapRequest _ _ => true
  | .linkUp _ => true
  | .los _ => true
  | .ringDownExit => true
  | .faultReceive _ _ _ _ => true
  | .echoEndReturn _ frame => decide (8 ≤ frame.length) && decide (frame.length ≤ 8200)
  | .cmdgo _ _ _ => true
  | .commandSend _ => true
  | .commandAnswer _ _ _ frame _ => decide (frame.length ≤ 8200)
  | .commandTimeout _ => true
  | .enumeration _ nodes _ => decide (nodes.length ≤ 48) && nodes.all (fun e => decide (e.rttA.length ≤ 16) && decide (e.rttB.length ≤ 16))
  | .tofRemeasure rttA rttB => decide (rttA.length ≤ 16) && decide (rttB.length ≤ 16)
  | .delayRewrite => true
  | .healSend _ => true
  | .wakeSend _ => true
  | .nodeRearm _ _ _ _ => true
  | .skClearCounts _ _ _ => true
  | .collectLaunch => true
  | .slotReceive _ _ _ _ _ _ data _ _ => decide (data.length ≤ 255)
  | .sweepDeadline _ => true
  | .publication => true
  | .temperatureRead => true
  | .openWireGo _ _ => true
  | .openWireEvaluate => true
  | .swpClearCounts _ _ => true
  | .chmEntryWrite _ _ _ => true
  | .blankSend => true
  | .blankenChange _ _ => true
  | .balCmdWrite _ _ _ => true
  | .commanderTimeout => true
  | .balanceSend _ => true
  | .learningGo _ _ => true
  | .limEntryWordWrite _ _ _ _ => true
  | .limEntryCommit _ _ _ => true
  | .sweepWatchdog => true
  | .externalTrip _ => true
  | .tripClear _ _ => true
  | .softwareTrip _ _ => true
  | .softwareOchre _ _ => true
  | .limTest _ _ _ => true
  | .limLock _ _ => true
  | .sccClose _ => true
  | .sccOpen _ => true
  | .sccAck _ => true
  | .breakDelayExpiry => true
  | .pickupExpiry _ => true
  | .prechargeDone => true
  | .prechargeTimeout => true
  | .closeConfirm => true
  | .closeTimeout => true
  | .openConfirm => true
  | .dropoutTimeout => true
  | .switchTest _ _ => true
  | .coilFault _ _ => true
  | .feedbackDiscrepancy => true
  | .killOutAssert => true
  | .sinc3Sample _ _ => true
  | .sinc2Sample _ _ => true
  | .sdmInvalid _ _ => true
  | .sdmSync _ _ => true
  | .slotTrigger _ => true
  | .slowTimerExpiry _ => true
  | .slotComplete _ => true
  | .slotFaultClear _ _ => true
  | .ceKick _ _ => true
  | .slotDescriptorCommit _ _ _ => true
  | .pwmPeriodStart _ => true
  | .pwmPeriodCentre _ => true
  | .pwmPerWrite _ _ _ => true
  | .pwmSync _ _ => true
  | .convFltFall _ => true
  | .pwmBlockClear _ _ => true
  | .testInjectionGo _ _ => true
  | .testInjectionStop _ _ => true
  | .traceArm _ _ => true
  | .traceForce _ _ => true
  | .estimatorRun => true
  | .correction => true
  | .estPub _ => true
  | .publicationTimeout => true
  | .restStarvation => true
  | .storeroomWrite => true
  | .storeroomInterval => true
  | .transportRequest => true
  | .transportExit _ => true
  | .binAccumulate => true
  | .injectionPhaseEnd => true
  | .impClearAll _ _ => true
  | .binDescriptorWrite _ _ _ _ => true
  | .modelFit => true
  | .ageingDaily => true
  | .mailboxWordWrite _ _ _ _ => true
  | .mailboxCommit _ _ _ => true
  | .referenceSlew => true
  | .mailboxTimeout => true
  | .setpoint _ l => decide (l.length ≤ 64)
  | .statusSend => true
  | .commandClearTrips _ l => decide (l.length ≤ 64)
  | .commandTransport _ l => decide (l.length ≤ 64)
  | .recreq _ _ => true
  | .rotreply _ l => decide (l.length ≤ 64)
  | .rotreqRepeat => true
  | .rotationReplyTimeout => true
  | .restWindowEnd => true
  | .profileGo _ _ => true
  | .feedConfigWrite _ _ _ => true
  | .tachEdge _ => true
  | .fanStall _ => true
  | .servoPeriod => true
  | .stepPulse _ => true
  | .actuatorReply _ _ _ => true
  | .targetWrite _ _ _ => true
  | .home _ _ => true
  | .stopAxis _ _ => true
  | .clearFault _ _ => true
  | .declareHomed _ _ => true
  | .add _ _ _ _ => true
  | .sub _ _ _ _ => true
  | .and _ _ _ _ => true
  | .or _ _ _ _ => true
  | .xor _ _ _ _ => true
  | .nor _ _ _ _ => true
  | .slt _ _ _ _ => true
  | .sltu _ _ _ _ => true
  | .sll _ _ _ _ => true
  | .srl _ _ _ _ => true
  | .sra _ _ _ _ => true
  | .ror _ _ _ _ => true
  | .slli _ _ _ _ => true
  | .srli _ _ _ _ => true
  | .srai _ _ _ _ => true
  | .rori _ _ _ _ => true
  | .min _ _ _ _ => true
  | .max _ _ _ _ => true
  | .minu _ _ _ _ => true
  | .maxu _ _ _ _ => true
  | .adds _ _ _ _ => true
  | .subs _ _ _ _ => true
  | .clz _ _ _ => true
  | .popc _ _ _ => true
  | .extb _ _ _ => true
  | .exth _ _ _ => true
  | .jr _ _ => true
  | .jalr _ _ _ => true
  | .addi _ _ _ _ => true
  | .andi _ _ _ _ => true
  | .ori _ _ _ _ => true
  | .xori _ _ _ _ => true
  | .slti _ _ _ _ => true
  | .sltiu _ _ _ _ => true
  | .lui _ _ _ => true
  | .mul _ _ _ _ => true
  | .mulh _ _ _ _ => true
  | .mulhu _ _ _ _ => true
  | .div _ _ _ _ => true
  | .divu _ _ _ _ => true
  | .rem _ _ _ _ => true
  | .remu _ _ _ _ => true
  | .qmul15 _ _ _ _ => true
  | .qmul31 _ _ _ _ => true
  | .qadd15 _ _ _ _ => true
  | .qsub15 _ _ _ _ => true
  | .qmac31 _ _ _ _ => true
  | .qsat16 _ _ _ => true
  | .fadd _ _ _ _ => true
  | .fsub _ _ _ _ => true
  | .fmul _ _ _ _ => true
  | .fdiv _ _ _ _ => true
  | .fsqrt _ _ _ => true
  | .fmin _ _ _ _ => true
  | .fmax _ _ _ _ => true
  | .fmadd _ _ _ _ => true
  | .feq _ _ _ _ => true
  | .flt _ _ _ _ => true
  | .fle _ _ _ _ => true
  | .fcvtws _ _ _ => true
  | .fcvtsw _ _ _ => true
  | .fcvtswu _ _ _ => true
  | .fneg _ _ _ => true
  | .fabs _ _ _ => true
  | .fcvtsd _ _ _ => true
  | .fcvtds _ _ _ => true
  | .dadd _ _ _ _ => true
  | .dsub _ _ _ _ => true
  | .dmul _ _ _ _ => true
  | .ddiv _ _ _ _ => true
  | .dsqrt _ _ _ => true
  | .dmin _ _ _ _ => true
  | .dmax _ _ _ _ => true
  | .dmadd _ _ _ _ => true
  | .deq _ _ _ _ => true
  | .dlt _ _ _ _ => true
  | .dle _ _ _ _ => true
  | .dcvtws _ _ _ => true
  | .dneg _ _ _ => true
  | .dabs _ _ _ => true
  | .ldw _ _ _ _ => true
  | .ldh _ _ _ _ => true
  | .ldhu _ _ _ _ => true
  | .ldb _ _ _ _ => true
  | .ldbu _ _ _ _ => true
  | .ldd _ _ _ _ => true
  | .stw _ _ _ _ => true
  | .sth _ _ _ _ => true
  | .stb _ _ _ _ => true
  | .std _ _ _ _ => true
  | .ldx _ _ _ => true
  | .stx _ _ _ _ => true
  | .amoswp _ _ _ _ => true
  | .amoadd _ _ _ _ => true
  | .amoand _ _ _ _ => true
  | .amoor _ _ _ _ => true
  | .amomax _ _ _ _ => true
  | .amomin _ _ _ _ => true
  | .beq _ _ _ _ => true
  | .bne _ _ _ _ => true
  | .blt _ _ _ _ => true
  | .bge _ _ _ _ => true
  | .bltu _ _ _ _ => true
  | .bgeu _ _ _ _ => true
  | .j _ _ => true
  | .jal _ _ => true
  | .cyend _ => true
  | .tbrd _ _ _ => true
  | .ton _ _ _ _ => true
  | .tof _ _ _ _ => true
  | .tp _ _ _ _ => true
  | .ctu _ _ _ _ => true
  | .ctd _ _ _ _ => true
  | .ctud _ _ _ _ => true
  | .rtrig _ _ _ _ => true
  | .ftrig _ _ _ _ => true
  | .mfs _ _ _ => true
  | .mts _ _ _ => true
  | .sets _ _ _ _ => true
  | .clrs _ _ _ _ => true
  | .sysc _ _ => true
  | .rfx _ => true
  | .fence _ _ => true
  | .wfe _ _ _ => true
  | .sev _ _ => true
  | .brk _ => true
  | .interrupt source => decide (source < 256)
  | .lockstepError _ => true
  | .vadd _ _ _ _ _ => true
  | .vsub _ _ _ _ _ => true
  | .vand _ _ _ _ _ => true
  | .vor _ _ _ _ _ => true
  | .vxor _ _ _ _ _ => true
  | .vsll _ _ _ _ _ => true
  | .vsrl _ _ _ _ _ => true
  | .vsra _ _ _ _ _ => true
  | .vmin _ _ _ _ _ => true
  | .vmax _ _ _ _ _ => true
  | .vminu _ _ _ _ _ => true
  | .vmaxu _ _ _ _ _ => true
  | .vadds _ _ _ _ _ => true
  | .vsubs _ _ _ _ _ => true
  | .vmul _ _ _ _ _ => true
  | .vmulh _ _ _ _ _ => true
  | .vqmul31 _ _ _ _ _ => true
  | .vqmac31 _ _ _ _ _ => true
  | .vmv _ _ _ _ => true
  | .vsel _ _ _ _ _ => true
  | .viota _ _ _ => true
  | .vfadd _ _ _ _ _ => true
  | .vfsub _ _ _ _ _ => true
  | .vfmul _ _ _ _ _ => true
  | .vfdiv _ _ _ _ _ => true
  | .vfsqrt _ _ _ _ => true
  | .vfmin _ _ _ _ _ => true
  | .vfmax _ _ _ _ _ => true
  | .vfmadd _ _ _ _ _ => true
  | .vfcvtws _ _ _ _ => true
  | .vfcvtsw _ _ _ _ => true
  | .vfneg _ _ _ _ => true
  | .vfabs _ _ _ _ => true
  | .vceq _ _ _ _ _ => true
  | .vcne _ _ _ _ _ => true
  | .vclt _ _ _ _ _ => true
  | .vcge _ _ _ _ _ => true
  | .vcltu _ _ _ _ _ => true
  | .vcgeu _ _ _ _ _ => true
  | .vfceq _ _ _ _ _ => true
  | .vfclt _ _ _ _ _ => true
  | .vfcle _ _ _ _ _ => true
  | .mand _ _ _ _ _ => true
  | .mor _ _ _ _ _ => true
  | .mandn _ _ _ _ _ => true
  | .mnot _ _ _ _ => true
  | .vinterp _ _ _ _ _ => true
  | .vinvert _ _ _ _ _ => true
  | .vsetvl _ _ _ => true
  | .vgetvl _ _ => true
  | .vmrd _ _ _ => true
  | .vmwr _ _ _ => true
  | .vld _ _ _ _ => true
  | .vst _ _ _ _ => true
  | .vgath _ _ _ _ _ => true
  | .vscat _ _ _ _ _ => true
  | .vredadd _ _ _ _ => true
  | .vredmin _ _ _ _ => true
  | .vredmax _ _ _ _ => true
  | .vredfadd _ _ _ _ => true
  | .vmini _ _ _ _ => true
  | .vmaxi _ _ _ _ => true
  | .cyclePeriodStart => true
  | .imageCopyComplete => true
  | .start _ _ => true
  | .stop _ _ => true
  | .clearLiveReads _ _ => true
  | .syscallSccClose => true
  | .syscallSccOpen => true
  | .syscallSccAck => true
  | .syscallStoreroom => true
  | .syscallTransport => true
  | .syscallRelease => true
  | .syscallRecord => true
  | .forceWordWrite _ _ _ _ => true
  | .forceCommit _ _ _ => true
  | .onlineChangeSwitch => true
  | .heartbeatSend => true
  | .heartbeat _ _ _ _ _ _ _ _ _ _ _ _ => true
  | .heartbeatMiss => true
  | .ping => true
  | .pingReceive => true
  | .pong _ => true
  | .cueStrobeV _ => true
  | .cueStrobeT _ => true
  | .cueStrobeTa _ => true
  | .cueMailbox _ => true
  | .cueSdmSync => true
  | .cuePwmAlign counts => decide (counts.length = 4)
  | .cueScc _ => true
  | .cueRoleExchange _ => true
  | .cueRecoveryRead _ => true
  | .cueBlank => true
  | .cueBadCheck => true
  | .image _ _ image forces => decide (forces.length ≤ 256) && decide (image.length ≤ 65536)
  | .imgack _ _ => true
  | .hash _ _ => true
  | .hashack _ _ => true
  | .mirror _ _ data => decide (data.length ≤ 4096)
  | .segment _ slots => decide (slots.length ≤ 8192)
  | .mailbox _ words => decide (words.length = 4)
  | .cmdHandover _ => true
  | .cmdOnlineChange _ => true
  | .cmdTransport => true
  | .cmdEnumeration _ nodes _ => decide (nodes.length ≤ 48) && nodes.all (fun e => decide (e.rttA.length ≤ 16) && decide (e.rttB.length ≤ 16))
  | .cmdRingCommand frame => decide (1 ≤ frame.length) && decide (frame.length ≤ 8200)
  | .fail _ => true
  | .resyncGranules _ data => decide (data.length ≤ 65528)
  | .resyncRegisters j => decide (j.w.length = 31) && decide (j.v.length = 8) && j.v.all (fun l => decide (l.length = 64)) && decide (j.m.length = 4)
  | .resyncSlotHistory _ _ _ _ _ q => decide (q.length ≤ 16)
  | .linkFrameDiscard => true
  | .lagExpiry => true
  | .missingImage => true
  | .joinTimeout _ => true
  | .takeover _ => true
  | .killSettleExpiry => true
  | .killIn _ => true
  | .depose _ _ => true
  | .rejoin _ _ => true
  | .deposedTimeout => true
  | .seed _ _ => true
  | .handover _ _ => true
  | .resyncRound => true
  | .resyncTimeout => true
  | .mirrorInterval => true
  | .leaveConfiguration _ _ _ => true
  | .busIntegrated _ => true
  | .canFrameReceive _ _ fdf _ _ rtr _ dlc data => decide (data.length = if rtr then 0 else dlcBytes fdf dlc.toNat)
  | .rdsel _ _ _ => true
  | .txreq _ _ _ _ => true
  | .txcan _ _ _ _ _ => true
  | .canAttemptEnd _ _ _ _ => true
  | .recover _ _ _ => true
  | .busOffRecoveryDone _ => true
  | .canStatRead _ => true
  | .smbIdent _ _ => true
  | .smbStatus _ _ => true
  | .smbReqcode _ _ => true
  | .smbSoc _ _ => true
  | .smbVstr _ _ => true
  | .smbCurr _ _ => true
  | .smbSop _ _ => true
  | .smbText _ _ => true
  | .smbVext _ _ => true
  | .smbCellsel _ l _ => decide (l.length ≤ 32)
  | .smbCelldata _ _ => true
  | .smbEvent _ _ => true
  | .smbUread _ _ => true
  | .smbUwrite _ _ l _ => decide (l.length ≤ 32)
  | .smbUnknownCommand _ _ _ => true
  | .alertResponse _ _ => true
  | .smbReqset _ _ => true
  | .sdaReleaseTimeout => true
  | .sclLowTimeout => true
  | .ethFrameReceive _ l _ _ => decide (14 ≤ l.length) && decide (l.length ≤ 1522)
  | .addressAgeOut _ => true
  | .peerDelayMeasure _ _ => true
  | .pdelayReq _ _ => true
  | .sync _ _ _ _ _ _ _ _ => true
  | .announce _ _ _ _ _ _ _ _ _ _ => true
  | .syncTimeout => true
  | .arpRequest _ _ => true
  | .icmpEcho _ _ _ => true
  | .launch _ _ => true
  | .ethLinkChange _ _ _ => true
  | .dmaTailWrite _ _ _ => true
  | .dmaBaseWrite _ _ _ => true
  | .dmaEnable _ _ _ => true
  | .dmaCompletion _ _ => true
  | .inputFilterTick _ _ => true
  | .outputOverload _ => true
  | .outputTestPulse _ _ => true
  | .holdWarmTimeout => true
  | .killInRelease => true
  | .wakeChg _ => true
  | .recordPost _ _ payload => decide (payload.length ≤ 255)
  | .recPost _ _ => true
  | .queueToLarder => true
  | .recorderEnable _ => true
  | .flush _ _ => true
  | .flushComplete => true
  | .periodicFlush => true
  | .migration _ => true
  | .ident _ => true
  | .svcOpen _ _ => true
  | .auth _ _ xy rs => decide (xy.length = 64) && decide (rs.length = 64)
  | .svcClose _ => true
  | .readreg _ _ _ => true
  | .writereg _ _ words => decide (words.length ≤ 16383)
  | .readmem _ _ _ => true
  | .paramread _ _ => true
  | .paramwrite _ _ _ => true
  | .recread _ _ _ => true
  | .force _ _ _ _ _ _ => true
  | .progctlStart _ => true
  | .progctlStop _ => true
  | .cleartrip _ _ => true
  | .transport _ => true
  | .clrtransport _ => true
  | .stageopen _ header => decide (header.length = 256)
  | .stageblock _ _ => true
  | .stageend _ trailer => decide (trailer.length = 192)
  | .activate _ _ _ => true
  | .onlinechg _ _ => true
  | .twincfg _ _ _ => true
  | .progkey _ _ hash => decide (hash.length = 32)
  | .revoke _ _ _ xy rs => decide (xy.length = 64) && decide (rs.length = 64)
  | .resetWarm _ => true
  | .resetRecovery _ => true
  | .debug _ _ => true
  | .nypehaReject _ _ _ => true
  | .usbDetach => true
  | .sessionIdleTimeout => true
  | .trialConfirm _ _ => true
  | .feedLost _ _ => true
  | .feedGood _ _ => true
  | .rideExpiry => true
  | .bankCharged => true
  | .bankNvClose => true
  | .bankExhausted => true
  | .holdUpReturn => true
  | .standbyIdleEntry => true
  | .standbyWake _ _ => true
  | .powerOn => true
  | .brownOut => true
  | .watchdogKick _ _ => true
  | .watchdogExpiry => true
  | .softwareReset _ _ => true
  | .stby _ _ => true
  | .rstNReset _ => true
  | .bringUp found => match found with | some (_, l, _) => decide (l.length ≤ 48) && l.all (fun e => decide (e.rttA.length ≤ 16) && decide (e.rttB.length ≤ 16)) | none => true
  | .fullService => true
  | .dieMeasurement _ _ _ _ _ _ => true
  | .thermalCut => true
  | .thermalRestart => true
  | .inServiceTest _ _ _ => true
  | .ledgerRecord => true
  | .alwaysOnSave => true
  | .nvcMramWrite _ _ => true
  | .nvcNorProgram _ _ => true
  | .nvcNorErase _ _ => true
  | .nvcUnitComplete _ => true
  | .nvcDoneRead => true
  | .referenceTick => true
  | .twinResyncReset => true
  | .convFltRise => true
  | .norEraseComplete => true
  | .canReceiveError _ _ _ _ => true
  | .followUp _ _ _ _ _ => true
  | .sccDiagnosticsResume => true
  | .dcvtsw _ _ _ => true
  | .dcvtswu _ _ _ => true
  | .nypehaUnknownCommand _ _ => true

end Sys2Proof
end

