-- ==== Sys2Proof/Tests/Slice0.lean ====
section
/-! SUPPORT. The package's own tests: ill-formed commands that the check refuses, one step on a small state, and for each
statement with conditions a state and operands that meet them. -/

set_option Elab.async false

namespace Sys2Proof.Tests
open Sys2Proof Sys2Proof.Machine

/-! ### Small states -/

/-- The reset module with the listed registers at the given values. -/
def dv (l : List (Nat × Word)) : Dev := l.foldl (fun (d : Dev) x => d.wr x.1 x.2) Dev.reset

/-- The reset state with the listed registers at the given values. -/
def st (l : List (Nat × Word)) : State := ⟨[], dv l⟩

/-- The same at tick `n`, with the listed timers started. -/
def stt (l : List (Nat × Word)) (n : Nat) (t : List (Nat × Nat)) : State := ⟨[], { dv l with now := n, timers := t }⟩

/-- The same with core `c` for pair `p`. -/
def stc (l : List (Nat × Word)) (p : Pair) (c : CoreSt) : State := ⟨[], (dv l).setCore p c⟩

/-- The reset core with the listed general registers at the given values. -/
def stPairs (l : List (GReg × Word)) : CoreSt := l.foldl (fun (c : CoreSt) x => c.setReg x.1 x.2) CoreSt.reset

/-- Both pairs with vector length `n`. -/
def stvl (n : Nat) : State := ⟨[], { dv [] with sys := { CoreSt.reset with vl := n }, prog := { CoreSt.reset with vl := n } }⟩

/-- Both pairs with vector length `n` and the listed general registers. -/
def stvlr (n : Nat) (l : List (GReg × Word)) : State :=
  ⟨[], { dv [] with sys := { stPairs l with vl := n }, prog := { stPairs l with vl := n } }⟩

/-- The module at full service. -/
def dvFull (l : List (Nat × Word)) : Dev := { dv l with pwr := { PwrSt.reset with full := true } }

/-- The same, as a state. -/
def stFull (l : List (Nat × Word)) : State := ⟨[], dvFull l⟩

/-- The angle clock as given. -/
def stA (a : AngSt) (l : List (Nat × Word)) : State := ⟨[], { dv l with ang := a }⟩

/-- Free-run is in use while ZC_IN is good. -/
def stA2 : State :=
  stA { AngSt.reset with started := true, zcTick := some 0 } [(Reg.ANG_STAT, 2), (Reg.ANG_SRCPRI, 0x24)]

/-- A timetable whose entry 0 fires. -/
def stTt : State :=
  ⟨[], { dv [(Reg.TT_CTL, 1)] with ang := { AngSt.reset with angle := 8 }, tt := { TtSt.reset with held := [(0, some (4, 0x04030100))] } }⟩

/-- A strobe one angle unit ahead, with blanking on. -/
def stBlank : State :=
  ⟨[], { dv [(Reg.TT_CTL, 1), (Reg.BAL_CTL, 2)] with tt := { TtSt.reset with held := [(0, some (1, 0x01000100))] } }⟩

/-- The same, with BLANK sent for that strobe. -/
def stBlanked : State := { stBlank with dev := { stBlank.dev with swp := { stBlank.dev.swp with blanked := some 1 } } }

/-- A ring of one node that is healing. -/
def stRingHeal : State :=
  ⟨[], { dvFull [(Reg.SK_RING 0, 5), (Reg.SK_TOF 0 0, 0x80000000)] with ring := { RingSt.reset with count := some 1, tofWait := some 0 } }⟩

/-- A balancing entry that differs from the one applied. -/
def stBal : State := st [(Reg.BAL_CMD 0, 0x00030000)]

/-- A ring of one node with a T_ref still to be written. -/
def stRing : State :=
  ⟨[], { dvFull [(Reg.TT_STAT, 0x20), (Reg.SK_TOF 0 0, 0x80000000)] with ring := { RingSt.reset with count := some 1, trefNew := some 40, tofWait := some 0 } }⟩

/-- A command on port A, sent or not. -/
def stCmd (b : Bool) : State :=
  ⟨[], { dv [] with now := 10000000, timers := [(Tm.cmd false, 1)], ring := { RingSt.reset with cmdA := some (0x10C00000, 8, b) } }⟩

/-- The same, its command sent from a port that is enabled. -/
def stCmdOn : State :=
  ⟨[], { dv [(Reg.SK_CTL 0, 1)] with now := 10000000, timers := [(Tm.cmd false, 1)], ring := { RingSt.reset with cmdA := some (0x10C00000, 8, true) } }⟩

/-- A READ to DST 62 on port A has left. -/
def stRead62 : State :=
  ⟨[], { dv [(Reg.SK_CTL 0, 1)] with now := 10000000, timers := [(Tm.cmd false, 1)], mem := [(0x10C00000, 4), (0x10C00001, 62)], ring := { RingSt.reset with cmdA := some (0x10C00000, 8, true) } }⟩

/-- Collect frames still leave. -/
def stBusy : State := ⟨[], { dv [] with ring := { RingSt.reset with busyTill := 100 } }⟩

/-- A shade. -/
def stShade : State := st [(Reg.TW_STAT, 2)]

/-- A ring in SPLIT whose looping nodes have reported LINKOK for a second. -/
def stHeal : State :=
  ⟨[], { dvFull [(Reg.SK_RING 0, 4), (Reg.SK_CTL 0, 16)] with now := 1000000000, timers := [(Tm.linkOk, 1)] }⟩

/-- Nodes sleep, and WAKE is being sent. -/
def stWake : State :=
  ⟨[], { dv [] with now := 1000, timers := [(Tm.wake, 1)], ring := { RingSt.reset with slept := true } }⟩

/-- A sweep of descriptor 0. -/
def sweep0 : Sweep where
  seq := 0
  temp := false
  aux := false
  desc := 0
  issue := 0
  angle := 0
  cycle := 0
  ns := 0
  sec := 0
  tb := 0
  tref := 0
  stretch := 0
  launched := false
  recovering := false
  got := []
  nrdy := []

/-- A module whose open sweep of node 0 is `w`. -/
def stOpen (w : Sweep) : State :=
  ⟨[], { dv [(Reg.SWP_DESC 0 1, 1), (Reg.SK_CTL 0, 1)] with now := 100000000, ring := { RingSt.reset with count := some 1, seq := some 0 }, swp := { SwpSt.reset with cur := some w } }⟩

/-- The sweep has been issued, and its collect frame is due. -/
def stSweep : State := stOpen sweep0

/-- The deadline has passed. -/
def stDead : State := stOpen { sweep0 with launched := true }

/-- The tail reads run. -/
def stRecov : State := stOpen { sweep0 with launched := true, recovering := true }

/-- A sub-sweep that still has a node to read. -/
def stSub : State :=
  ⟨[], { dv [(Reg.SWP_COUNT, 1)] with swp := { SwpSt.reset with sub := some { seq := 0, aux := false, reads := [(0, 0)], ok := [], till := 0 } } }⟩

/-- An open-wire pass. -/
def stOw : State :=
  ⟨[], { dv [] with swp := { SwpSt.reset with ow := some { node := 0, arg := 0, phase := 0, base := [], cap := [] } } }⟩

/-- The sweep watchdog is armed, and its time is up. -/
def stSwd : State :=
  ⟨[], { dv [] with now := 10000000, timers := [(Tm.swd, 1)], lim := { LimSt.reset with swdArmed := true } }⟩

/-- SCC in state `n`, and every time of it is up. -/
def stScc (n : Nat) : State := stt [(Reg.SCC_STAT, nw (256 * n))] 1000000000 [(Tm.scc, 1)]

/-- SCC in PRECHARGE with the link at the string voltage. -/
def stPre : State := stScc 1

/-- A driver diagnosis runs. -/
def stDiag : State :=
  ⟨[], { dv [] with now := 10000000, timers := [(Tm.diag, 1)], scc := { SccSt.reset with diagOff := true } }⟩

/-- A module of a pair opens with both coils off and FB1 still closed. -/
def stKill : State := stt [(Reg.SCC_STAT, 0x401), (Reg.TW_STAT, 1)] 1000000000 [(Tm.scc, 1)]

/-- Slot 0 of the control engine has a period, and it is up. -/
def stSlow : State :=
  ⟨[], { dv [(Reg.CE_SLOT 0 0, 0x00500000), (Reg.CE_SLOT 0 9, 5)] with tim := { TimSt.reset with tb := 5 } }⟩

/-- Slot 0 of the control engine evaluates. -/
def stSlot : State :=
  ⟨[], { dv [] with ce := { CeSt.reset with slots := [(0, some { SlotSt.idle with running := true })] } }⟩

/-- Tables and cell data that let the estimator run. -/
def dvEst (n : Nat) (l : List (Nat × Word)) : Dev :=
  { dvFull l with now := n, par := [(Par.QNOM, 280000), (Par.VEOD, 2500), (Par.VEOC, 3650)], tables := [(0, some [2, 2]), (1, some [2, 2])] }

/-- A sweep that the estimator has not yet taken. -/
def stEst : State := ⟨[], dvEst 0 [(Reg.SWP_COUNT, 1)]⟩

/-- The correction interval is over. -/
def stEst2 : State := ⟨[], dvEst 1000000000000 []⟩

/-- Nothing was published within EST_PUBTO. -/
def stPub : State := stt [] 1000000000 [(Tm.pub, 1)]

/-- Learning starves. -/
def stStarve : State := ⟨[], { dvFull [] with est := { EstSt.reset with expired := true } }⟩

/-- An injection runs. -/
def stInj : State :=
  ⟨[], { dv [] with imp := { ImpSt.reset with inj := some { desc := 0, part := .up, start := 0, flatNum := 0 } } }⟩

/-- A sweep awaits the bins. -/
def stBin : State := ⟨[], { dv [] with imp := { ImpSt.reset with pub := some (5, false, 0) } }⟩

/-- Bin 0 holds results. -/
def stFit : State := stFull [(Reg.IMP_DONE, 1)]

/-- A day has passed. -/
def stDay : State := stFull [(Reg.TT_STAT, 0x20), (Reg.PWR_OPT_LO, 86400000)]

/-- The mailbox timeout is over. -/
def stMbto : State := stt [] 1000000000 [(Tm.mailbox, 1)]

/-- A rotation request stands unanswered. -/
def stRot : State :=
  ⟨[], { dvFull [(Reg.DSP_ROT, 1)] with now := 10000000000, timers := [(Tm.rotReq, 1), (Tm.rotWin, 1)] }⟩

/-- A rest whose window is over. -/
def stRest : State := ⟨[], { dvFull [(Reg.DSP_ROT, 3)] with now := 1000000000000, timers := [(Tm.rotWin, 1)] }⟩

/-- A Storeroom write is asked for. -/
def stSto : State := ⟨[], { dvFull [] with est := { EstSt.reset with reasons := [2] } }⟩

/-- The Storeroom interval is over. -/
def stStoInt : State := stFull [(Reg.PWR_OPT_LO, 600000)]

/-- Tachometer input 0 has period. -/
def stTach : State := stt [(Reg.MOT_FANCFG 0, 0x02000000)] 1000 [(Tm.tach 0, 1)]

/-- The motion engine is on. -/
def stServo : State := st [(Reg.MOT_CTL, 1)]

/-- Axis 0 moves up at one step a second. -/
def stStep : State :=
  ⟨[], { dv [(Reg.MOT_CTL, 1), (Reg.MOT_ST 0, 0x10000000), (Reg.MOT_TGT 0, 100)] with mot := { MotSt.reset with axes := [(0, some { AxisSt.idle with v := 1000000, dir := true, stepDue := some 0 })] } }⟩

/-- The same, before its step timer has run. -/
def stStepWait : State :=
  ⟨[], { dv [] with mot := { MotSt.reset with axes := [(0, some { AxisSt.idle with v := 1000000, stepDue := some 5 })] } }⟩

/-- Axis 0 runs in MODE 1, on a CAN B that is live. -/
def stMode1 : State := st [(Reg.CAN_CTL 1, 0), (Reg.CAN_STAT 1, 16), (Reg.MOT_CFG 0, 0x40000000), (Reg.MOT_ST 0, 0x20000000)]

/-- A program image of four code bytes. -/
def image0 : Image where
  imageId := 1
  instep := 1
  claims := 0
  cfg := 0
  strict := false
  wdmult := 0
  codeLen := 4
  dataLen := 0
  zeroLen := 0
  retLen := 0
  startAddr := 0
  changeAddr := 0
  stoAddr := 0
  stoLen := 0
  base := 0x10200000
  symbols := []
  snaps := []
  ranges := []
  bins := []
  exports := []

/-- What a duty sends to join a shade. -/
def join0 : JoinState where
  w := []
  v := []
  m := []
  vl := 0
  fcsr := 0
  dz := false
  ov := false
  own0 := 0
  own1 := 0
  cycle := 0

/-- A program cycle by period is due. -/
def stPer : State := ⟨[], { dv [(Reg.CYC_CTL, 8)] with tim := { TimSt.reset with tbFrac := 1 } }⟩

/-- The input image is copied. -/
def stCopy : State :=
  ⟨[], { dv [] with now := 1000, timers := [(Tm.copy, 1)], cyc := { CycSt.reset with phase := .copy, image := some image0 } }⟩

/-- An online change is due. -/
def stSwitch : State :=
  ⟨[], { dv [(Reg.CYC_STAT, 4)] with now := 100000, timers := [(Tm.switch, 1)], cyc := { CycSt.reset with image := some image0, armed := some image0 } }⟩

/-- A program with STRICTLR in a cycle that suppressed a live read. -/
def stStrict : Dev :=
  { dv [] with cyc := { CycSt.reset with image := some { image0 with strict := true } }, prog := { CoreSt.reset with status := 0x800 } }

/-- The program pair at user level, in a region that it may fetch from. -/
def stUser : State :=
  stc [(Reg.MPU_PLIM 0, 0xFFFF), (Reg.MPU_PATTR 0, 0x80000004)] .program { CoreSt.reset with status := 0 }

/-- A Storeroom copy is being written. -/
def stStoBusy : State :=
  ⟨[], { dv [] with nvc := { NvcSt.reset with cur := some { kind := 1, src := 0, dst := 0, len := 0, tag := 0, who := .store, pos := 0, data := [] } } }⟩

/-- A sweep is open when the balancing commands are due. -/
def stBalCur : State := ⟨[], { dv [] with swp := { SwpSt.reset with cur := some sweep0 } }⟩

/-- The program executes a cycle, and the word at its program counter spells no instruction. -/
def stRunsIll : State :=
  ⟨[], { dv [(Reg.MPU_PBASE 0, 0x10000000), (Reg.MPU_PLIM 0, 0x1000FFFF), (Reg.MPU_PATTR 0, 0x80000004)] with cyc := { CycSt.reset with phase := .execute }, mem := [(0x10000000, 255), (0x10000001, 255), (0x10000002, 255), (0x10000003, 255)], prog := { CoreSt.reset with status := 0, pc := 0x10000000 } }⟩

/-- The word at 0x10007FFC has a single-bit error, and register w2 points near it. -/
def stCorr : State :=
  ⟨[], { dv [] with sys := stPairs [(2, 0x10000000)], corr := [0x10007FFC] }⟩

/-- Ring 0 has a frame with a launch time in hand. -/
def stLaunch : State :=
  ⟨[], { dv [(Reg.DMA_CTL, 1), (Reg.DMA_CFG 0, 0x80000002), (Reg.DMA_BASE 0, 0x10600000), (Reg.DMA_TAIL 0, 1)] with mem := [(0x10600004, 64), (0x10600007, 0x80), (0x1060000F, 0x80)] }⟩

/-! ### The conditions of the statements can be met -/

/-- The conditions of clause 1 of StepRunsFront are met. -/
theorem wit_StepRunsFront_1 : ∃ (s : State) (c : Instr) (rest : List Instr), (s.pending = c :: rest) :=
  ⟨{ State.reset with pending := [.referenceTick] }, .referenceTick, [], rfl⟩

/-- The conditions of clause 2 of StepRunsFront are met. -/
theorem wit_StepRunsFront_2 : ∃ (s : State), (s.pending = []) ∧ (s.programRuns = false) :=
  ⟨State.reset, rfl, rfl⟩

/-- The conditions of clause 4 of StepRunsFront are met. -/
theorem wit_StepRunsFront_4 : ∃ (s : State) (i : Instr), (s.pending = []) ∧ (s.programRuns = true) ∧ (decodePleol
    .program (s.dev.word s.dev.prog.pc.toNat) = some i) :=
  ⟨{ stUser with dev := { stUser.dev with cyc := { stUser.dev.cyc with phase := .execute } } }, .add .program 0 0 0,
    rfl, (by decide), (by decide)⟩

/-- The conditions of clause 5 of StepRunsFront are met. -/
theorem wit_StepRunsFront_5 : ∃ (s : State), (s.pending = []) ∧ (s.programRuns = true) ∧ (decodePleol .program
    (s.dev.word s.dev.prog.pc.toNat) = none) ∧ (s.dev.Ready .program) :=
  ⟨stRunsIll, rfl, (by decide), (by decide), (by decide)⟩

/-- The conditions of clause 1 of InvKept are met. -/
theorem wit_InvKept_1 : ∃ (s t : State), (s.Inv) ∧ (step s = .next t) :=
  ⟨State.reset, State.reset, ⟨rfl, rfl⟩, rfl⟩

/-- The conditions of clause 4 of ResetState are met. -/
theorem wit_ResetState_4 : ∃ (b : Nat), (b ≤ 32) :=
  ⟨12, (by decide)⟩

/-- The conditions of clause 1 of RegisterAccess are met. -/
theorem wit_RegisterAccess_1 : ∃ (i : Nat), (i < 32) :=
  ⟨3, (by decide)⟩

/-- The conditions of clause 2 of RegisterAccess are met. -/
theorem wit_RegisterAccess_2 : ∃ (r : RegRow) (old : Word) (i : Nat), (i < 32) ∧ (bitOf (nw r.set1) i = true) ∧ (bitOf
    (nw r.w1c) i = false) ∧ (bitOf (nw r.rw) i = false) ∧ (bitOf (nw r.rwl) i = false) ∧ (bitOf old i = true) :=
  ⟨{ base := 0, set1 := 1 }, 1, 0, (by decide), rfl, rfl, rfl, rfl, rfl⟩

/-- The conditions of clause 3 of RegisterAccess are met. -/
theorem wit_RegisterAccess_3 : ∃ (d : Dev) (a : Nat) (r : RegRow), (d.Canon) ∧ (findRow a = some r) :=
  ⟨State.reset.dev, Reg.TIM_INC, _, ⟨rfl, rfl⟩, rfl⟩

/-- The conditions of clause 4 of RegisterAccess are met. -/
theorem wit_RegisterAccess_4 : ∃ (a : Nat), (findRow a = none) :=
  ⟨0x4000FFFC, rfl⟩

/-- The conditions of clause 5 of RegisterAccess are met. -/
theorem wit_RegisterAccess_5 : ∃ (s : State) (a : Word), (s.dev.asleep = false) ∧ (isPeriph a.toNat = true) ∧ (blockOf
    a.toNat ≠ 27) ∧ (a.toNat % 4 = 0) :=
  ⟨st [], (nw Reg.BAL_TLIM), rfl, rfl, (by decide), rfl⟩

/-- The conditions of clause 6 of RegisterAccess are met. -/
theorem wit_RegisterAccess_6 : ∃ (d : Dev), (d.Canon) :=
  ⟨State.reset.dev, ⟨rfl, rfl⟩⟩

/-- The conditions of clause 7 of RegisterAccess are met. -/
theorem wit_RegisterAccess_7 : ∃ (s : State) (src : Writer) (a : Word) (d : Dev), (s.dev.asleep = false) ∧ (isPeriph
    a.toNat = true) ∧ (blockOf a.toNat ≠ 27) ∧ (a.toNat % 4 = 0) ∧ (src ≠ .system) ∧ (s.dev.claimEn (blockOf a.toNat)
    = true) ∧ (s.dev.setClaim (blockOf a.toNat) = d) :=
  ⟨(st [(Reg.SYS_CLAIMEN0, 0x1000)]), .program, (nw Reg.BAL_TLIM), _, rfl, rfl, (by decide), rfl, (by decide), rfl,
    rfl⟩

/-- The conditions of clause 8 of RegisterAccess are met. -/
theorem wit_RegisterAccess_8 : ∃ (d : Dev) (b : Nat), (d.Canon) ∧ (b ≤ 32) :=
  ⟨State.reset.dev, 12, ⟨rfl, rfl⟩, by decide⟩

/-- The conditions of clauses 1, 2, 3 of IntegerResults are met. -/
theorem wit_IntegerResults_1 : ∃ (s : State) (p : Pair), (s.dev.Ready p) :=
  ⟨st [], .system, (by decide)⟩

/-- The conditions of clause 1 of ImmediateResults are met. -/
theorem wit_ImmediateResults_1 : ∃ (s : State) (p : Pair), (s.dev.Ready p) :=
  ⟨st [], .program, (by decide)⟩

/-- The conditions of clause 1 of DivisionCorners are met. -/
theorem wit_DivisionCorners_1 : ∃ (s : State) (p : Pair) (rb : GReg), (s.dev.Ready p) ∧ ((s.dev.core p).reg rb = 0) :=
  ⟨st [], .system, 3, (by decide), rfl⟩

/-- The conditions of clause 2 of DivisionCorners are met. -/
theorem wit_DivisionCorners_2 : ∃ (s : State) (p : Pair) (ra rb : GReg), (s.dev.Ready p) ∧ ((s.dev.core p).reg ra =
    0x80000000) ∧ ((s.dev.core p).reg rb = 0xFFFFFFFF) :=
  ⟨stc [] .system (stPairs [(2, 0x80000000), (3, 0xFFFFFFFF)]), .system, 2, 3, (by decide), rfl, rfl⟩

/-- The conditions of clause 3 of DivisionCorners are met. -/
theorem wit_DivisionCorners_3 : ∃ (s : State) (p : Pair) (ra rb : GReg), (s.dev.Ready p) ∧ ((s.dev.core p).reg rb ≠ 0)
    ∧ (¬ ((s.dev.core p).reg ra = 0x80000000 ∧ (s.dev.core p).reg rb = 0xFFFFFFFF)) :=
  ⟨stc [] .system (stPairs [(3, 7)]), .system, 2, 3, (by decide), (by decide), (by decide)⟩

/-- The conditions of clause 4 of DivisionCorners are met. -/
theorem wit_DivisionCorners_4 : ∃ (s : State) (p : Pair) (rb : GReg), (s.dev.Ready p) ∧ ((s.dev.core p).reg rb ≠ 0) :=
  ⟨stc [] .program (stPairs [(3, 7)]), .program, 3, (by decide), (by decide)⟩

/-- The conditions of clause 1 of FractionResults are met. -/
theorem wit_FractionResults_1 : ∃ (s : State) (p : Pair), (s.dev.Ready p) :=
  ⟨st [], .system, (by decide)⟩

/-- The conditions of clauses 1, 2 of BranchTargets are met. -/
theorem wit_BranchTargets_1 : ∃ (s : State) (p : Pair), (s.dev.Ready p) :=
  ⟨st [], .system, (by decide)⟩

/-- The conditions of clause 3 of BranchTargets are met. -/
theorem wit_BranchTargets_3 : ∃ (s : State) (p : Pair) (ra : GReg), (s.dev.Ready p) ∧ (((s.dev.core p).reg ra).toNat %
    4 = 0) :=
  ⟨st [], .system, 2, (by decide), rfl⟩

/-- The conditions of clause 4 of BranchTargets are met. -/
theorem wit_BranchTargets_4 : ∃ (s : State) (p : Pair) (ra : GReg), (s.dev.Ready p) ∧ (((s.dev.core p).reg ra).toNat %
    4 ≠ 0) :=
  ⟨stc [] .system (stPairs [(2, 2)]), .system, 2, (by decide), (by decide)⟩

/-- The conditions of clauses 1, 2 of Binary32Results are met. -/
theorem wit_Binary32Results_1 : ∃ (s : State) (p : Pair), (s.dev.Ready p) :=
  ⟨st [], .system, (by decide)⟩

/-- The conditions of clause 1 of Binary64Results are met. -/
theorem wit_Binary64Results_1 : ∃ (s : State) (p : Pair) (rd ra rb : GReg), (s.dev.Ready p) ∧ (pairOk rd = true ∧
    pairOk ra = true ∧ pairOk rb = true) :=
  ⟨st [], .system, 2, 4, 30, (by decide), (by decide)⟩

/-- The conditions of clause 2 of Binary64Results are met. -/
theorem wit_Binary64Results_2 : ∃ (s : State) (p : Pair) (ra rb : GReg), (s.dev.Ready p) ∧ (pairOk ra = true ∧ pairOk
    rb = true) :=
  ⟨st [], .system, 4, 30, (by decide), (by decide)⟩

/-- The conditions of clause 3 of Binary64Results are met. -/
theorem wit_Binary64Results_3 : ∃ (s : State) (p : Pair) (rd ra : GReg), (s.dev.Ready p) ∧ (pairOk rd = true ∧ pairOk
    ra = true) :=
  ⟨st [], .system, 2, 4, (by decide), (by decide)⟩

/-- The conditions of clause 4 of Binary64Results are met. -/
theorem wit_Binary64Results_4 : ∃ (s : State) (p : Pair) (ra : GReg), (s.dev.Ready p) ∧ (pairOk ra = true) :=
  ⟨st [], .system, 4, (by decide), rfl⟩

/-- The conditions of clause 5 of Binary64Results are met. -/
theorem wit_Binary64Results_5 : ∃ (s : State) (p : Pair) (rd : GReg), (s.dev.Ready p) ∧ (pairOk rd = true) :=
  ⟨st [], .system, 2, (by decide), rfl⟩

/-- The conditions of clause 2 of RegisterPairs are met. -/
theorem wit_RegisterPairs_2 : ∃ (r : GReg) (v : Nat), (pairOk r = true) ∧ (v < 2 ^ 64) :=
  ⟨30, 2 ^ 64 - 1, rfl, (by decide)⟩

/-- The conditions of clause 3 of RegisterPairs are met. -/
theorem wit_RegisterPairs_3 : ∃ (s : State) (p : Pair) (rd ra rb : GReg), (s.dev.Ready p) ∧ ((pairOk rd && pairOk ra
    && pairOk rb) = false) :=
  ⟨st [], .system, 2, 4, 31, (by decide), rfl⟩

/-- The conditions of clause 4 of RegisterPairs are met. -/
theorem wit_RegisterPairs_4 : ∃ (s : State) (p : Pair) (ra rb : GReg), (s.dev.Ready p) ∧ ((pairOk ra && pairOk rb) =
    false) :=
  ⟨st [], .system, 0, 30, (by decide), rfl⟩

/-- The conditions of clause 5 of RegisterPairs are met. -/
theorem wit_RegisterPairs_5 : ∃ (s : State) (p : Pair) (rd ra : GReg), (s.dev.Ready p) ∧ ((pairOk rd && pairOk ra) =
    false) :=
  ⟨st [], .program, 1, 4, (by decide), rfl⟩

/-- The conditions of clause 6 of RegisterPairs are met. -/
theorem wit_RegisterPairs_6 : ∃ (s : State) (p : Pair) (ra : GReg), (s.dev.Ready p) ∧ (pairOk ra = false) :=
  ⟨st [], .program, 0, (by decide), rfl⟩

/-- The conditions of clause 7 of RegisterPairs are met. -/
theorem wit_RegisterPairs_7 : ∃ (s : State) (p : Pair) (rd : GReg), (s.dev.Ready p) ∧ (pairOk rd = false) :=
  ⟨st [], .program, 1, (by decide), rfl⟩

/-- The conditions of clause 8 of RegisterPairs are met. -/
theorem wit_RegisterPairs_8 : ∃ (s : State) (p : Pair) (rd : GReg), (s.dev.Ready p) ∧ ((s.dev.core p).vl ≠ 0) ∧
    (pairOk rd = false) :=
  ⟨stvl 64, .system, 31, (by decide), (by decide), rfl⟩

/-- The conditions of clause 1 of LoadResults are met. -/
theorem wit_LoadResults_1 : ∃ (s : State) (p : Pair) (ra : GReg) (imm : BitVec 16) (a : Nat), (s.dev.Ready p) ∧
    (((s.dev.core p).reg ra + imm.signExtend 32).toNat = a) ∧ (s.dev.dataFault p kLoad a 4 true = none) ∧ (isPeriph a
    = false) :=
  ⟨stc [] .system (stPairs [(2, 0x10000000)]), .system, 2, 0x7FFC, 0x10007FFC, (by decide), rfl, rfl, rfl⟩

/-- The conditions of clause 2 of LoadResults are met. -/
theorem wit_LoadResults_2 : ∃ (s : State) (p : Pair) (ra : GReg) (imm : BitVec 16) (a : Nat), (s.dev.Ready p) ∧
    (((s.dev.core p).reg ra + imm.signExtend 32).toNat = a) ∧ (s.dev.dataFault p kLoad a 4 true = none) ∧ (isPeriph a
    = true) :=
  ⟨stc [] .system (stPairs [(2, 0x40000000)]), .system, 2, 0, 0x40000000, (by decide), rfl, rfl, rfl⟩

/-- The conditions of clause 3 of LoadResults are met. -/
theorem wit_LoadResults_3 : ∃ (s : State) (p : Pair) (ra : GReg) (imm : BitVec 16) (a : Nat), (s.dev.Ready p) ∧
    (((s.dev.core p).reg ra + imm.signExtend 32).toNat = a) ∧ (s.dev.dataFault p kLoad a 2 true = none) :=
  ⟨stc [] .system (stPairs [(2, 0x10000000)]), .system, 2, 0x7FFE, 0x10007FFE, (by decide), rfl, rfl⟩

/-- The conditions of clause 4 of LoadResults are met. -/
theorem wit_LoadResults_4 : ∃ (s : State) (p : Pair) (ra : GReg) (imm : BitVec 16) (a : Nat), (s.dev.Ready p) ∧
    (((s.dev.core p).reg ra + imm.signExtend 32).toNat = a) ∧ (s.dev.dataFault p kLoad a 1 true = none) :=
  ⟨stc [] .system (stPairs [(2, 0x10000000)]), .system, 2, 0x7FFF, 0x10007FFF, (by decide), rfl, rfl⟩

/-- The conditions of clause 5 of LoadResults are met. -/
theorem wit_LoadResults_5 : ∃ (s : State) (p : Pair) (rd ra : GReg) (imm : BitVec 16) (a : Nat), (s.dev.Ready p) ∧
    (((s.dev.core p).reg ra + imm.signExtend 32).toNat = a) ∧ (s.dev.dataFault p kLoad a 8 true = none) ∧ (isPeriph a
    = false) ∧ (isPeriph (a + 4) = false) ∧ (pairOk rd = true) :=
  ⟨stc [] .system (stPairs [(2, 0x10000000)]), .system, 4, 2, 0x7FF8, 0x10007FF8, (by decide), rfl, rfl, rfl, rfl,
    rfl⟩

/-- The conditions of clause 6 of LoadResults are met. -/
theorem wit_LoadResults_6 : ∃ (s : State) (p : Pair) (ra : GReg) (imm : BitVec 16) (a : Nat) (g e : Dev),
    (s.dev.asleep = false) ∧ ((s.dev.core p).runs = true) ∧ (s.dev.fetchFault p = none) ∧ (s.dev.corrected (s.dev.core
    p).pc.toNat 4 = g) ∧ ((g.core p).addr ra imm = a) ∧ (g.dataFault p kLoad a 4 true = none) ∧ (isPeriph a = false) ∧
    (g.corrected a 4 = e) :=
  ⟨stCorr, .system, 2, 0x7FFC, 0x10007FFC, _, _, rfl, rfl, rfl, rfl, (by decide +kernel), rfl, rfl, rfl⟩

/-- The conditions of clause 7 of LoadResults are met. -/
theorem wit_LoadResults_7 : ∃ (d : Dev) (a n k : Nat), ((d.corr.filter (fun e => e < a + n && a < e + 4)).length = k)
    :=
  ⟨stCorr.dev, 0x10007FFC, 4, _, rfl⟩

/-- The conditions of clause 1 of StoreResults are met. -/
theorem wit_StoreResults_1 : ∃ (s : State) (p : Pair) (ra : GReg) (imm : BitVec 16) (a : Nat), (s.dev.Ready p) ∧
    (((s.dev.core p).reg ra + imm.signExtend 32).toNat = a) ∧ (s.dev.dataFault p kStore a 4 false = none) ∧ (isSram a
    = true) :=
  ⟨stc [] .system (stPairs [(2, 0x10000000)]), .system, 2, 0x7FFC, 0x10007FFC, (by decide), rfl, rfl, rfl⟩

/-- The conditions of clause 2 of StoreResults are met. -/
theorem wit_StoreResults_2 : ∃ (s : State) (p : Pair) (ra : GReg) (imm : BitVec 16) (a : Nat), (s.dev.Ready p) ∧
    (((s.dev.core p).reg ra + imm.signExtend 32).toNat = a) ∧ (s.dev.dataFault p kStore a 2 false = none) ∧ (isSram a
    = true) :=
  ⟨stc [] .system (stPairs [(2, 0x10000000)]), .system, 2, 0x7FFE, 0x10007FFE, (by decide), rfl, rfl, rfl⟩

/-- The conditions of clause 3 of StoreResults are met. -/
theorem wit_StoreResults_3 : ∃ (s : State) (p : Pair) (ra : GReg) (imm : BitVec 16) (a : Nat), (s.dev.Ready p) ∧
    (((s.dev.core p).reg ra + imm.signExtend 32).toNat = a) ∧ (s.dev.dataFault p kStore a 1 false = none) ∧ (isSram a
    = true) :=
  ⟨stc [] .system (stPairs [(2, 0x10000000)]), .system, 2, 0x7FFF, 0x10007FFF, (by decide), rfl, rfl, rfl⟩

/-- The conditions of clause 4 of StoreResults are met. -/
theorem wit_StoreResults_4 : ∃ (s : State) (p : Pair) (rd ra : GReg) (imm : BitVec 16) (a : Nat), (s.dev.Ready p) ∧
    (((s.dev.core p).reg ra + imm.signExtend 32).toNat = a) ∧ (s.dev.dataFault p kStore a 8 false = none) ∧ (isSram a
    = true ∧ isSram (a + 4) = true) ∧ (pairOk rd = true) :=
  ⟨stc [] .system (stPairs [(2, 0x10000000)]), .system, 4, 2, 0x7FF8, 0x10007FF8, (by decide), rfl, rfl, (by decide),
    rfl⟩

/-- The conditions of clause 5 of StoreResults are met. -/
theorem wit_StoreResults_5 : ∃ (s : State) (p : Pair) (ra : GReg) (imm : BitVec 16) (a : Nat), (s.dev.Ready p) ∧
    (((s.dev.core p).reg ra + imm.signExtend 32).toNat = a) ∧ (s.dev.dataFault p kStore a 4 false = none) ∧ (isPeriph
    a = true) :=
  ⟨stc [] .system (stPairs [(2, 0x40000000)]), .system, 2, 0x20, 0x40000020, (by decide), rfl, rfl, rfl⟩

/-- The conditions of clause 1 of StoreBytes are met. -/
theorem wit_StoreBytes_1 : ∃ (s : State) (p : Pair) (rd ra : GReg) (imm : BitVec 16) (a n : Nat) (i : Instr), (s.Inv)
    ∧ (s.dev.Ready p) ∧ (((s.dev.core p).reg ra + imm.signExtend 32).toNat = a) ∧ (s.dev.dataFault p kStore a n false
    = none) ∧ (isSram a = true) ∧ ((n = 4 ∧ i = .stw p rd ra imm) ∨ (n = 2 ∧ i = .sth p rd ra imm) ∨ (n = 1 ∧ i = .stb
    p rd ra imm)) :=
  ⟨stc [] .system (stPairs [(2, 0x10000000)]), .system, 1, 2, 0x7FFC, 0x10007FFC, 4, .stw .system 1 2 0x7FFC,
    (by exact ⟨rfl, rfl⟩), (by decide), (by decide), (by decide), (by decide), Or.inl ⟨rfl, rfl⟩⟩

/-- The conditions of clause 1 of AtomicResults are met. -/
theorem wit_AtomicResults_1 : ∃ (s : State) (p : Pair) (ra : GReg) (a : Nat), (s.dev.Ready p) ∧ (((s.dev.core p).reg
    ra).toNat = a) ∧ (s.dev.dataFault p kAtomic a 4 false = none) :=
  ⟨stc [] .system (stPairs [(2, 0x10FFFFFC)]), .system, 2, 0x10FFFFFC, (by decide), rfl, rfl⟩

/-- The conditions of clause 1 of Reservations are met. -/
theorem wit_Reservations_1 : ∃ (s : State) (p : Pair) (ra : GReg) (a : Nat), (s.dev.Ready p) ∧ (((s.dev.core p).reg
    ra).toNat = a) ∧ (s.dev.dataFault p kAtomic a 4 true = none) :=
  ⟨stc [] .system (stPairs [(2, 0x10FFFFFC)]), .system, 2, 0x10FFFFFC, (by decide), rfl, rfl⟩

/-- The conditions of clause 2 of Reservations are met. -/
theorem wit_Reservations_2 : ∃ (s : State) (p : Pair) (ra : GReg) (a : Nat), (s.dev.Ready p) ∧ (((s.dev.core p).reg
    ra).toNat = a) ∧ (s.dev.dataFault p kAtomic a 4 false = none) ∧ ((s.dev.core p).resv = some (a / 8 * 8)) :=
  ⟨stc [] .system ({ stPairs [(2, 0x10FFFFFC)] with resv := some 0x10FFFFF8 }), .system, 2, 0x10FFFFFC, (by decide),
    rfl, rfl, rfl⟩

/-- The conditions of clause 3 of Reservations are met. -/
theorem wit_Reservations_3 : ∃ (s : State) (p : Pair) (ra : GReg) (a : Nat), (s.dev.Ready p) ∧ (((s.dev.core p).reg
    ra).toNat = a) ∧ (s.dev.dataFault p kAtomic a 4 false = none) ∧ ((s.dev.core p).resv ≠ some (a / 8 * 8)) :=
  ⟨stc [] .system ({ stPairs [(2, 0x10FFFFFC)] with resv := some 0x10FFFFF0 }), .system, 2, 0x10FFFFFC, (by decide),
    rfl, rfl, (by decide)⟩

/-- The conditions of clause 5 of Reservations are met. -/
theorem wit_Reservations_5 : ∃ (a g : Nat) (l : List Byte), (isSram a = true) ∧ (a < g + 8 ∧ g < a + l.length) :=
  ⟨0x10000004, 0x10000000, [0], rfl, (by decide)⟩

/-- The conditions of clauses 1, 2, 3 of SpecialRegisterAccess are met. -/
theorem wit_SpecialRegisterAccess_1 : ∃ (s : State) (p : Pair), (s.dev.Ready p) ∧ ((s.dev.core p).user = false) :=
  ⟨st [], .program, (by decide), rfl⟩

/-- The conditions of clause 1 of SpecialRegisterFaults are met. -/
theorem wit_SpecialRegisterFaults_1 : ∃ (s : State) (p : Pair) (num : BitVec 11), (s.dev.Ready p) ∧ ((s.dev.core
    p).user = true) ∧ (num ∉ [(0 : BitVec 11), 8, 0x10, 0x11, 0x12, 0x1F, 0x20]) :=
  ⟨stUser, .program, 1, (by decide), rfl, (by decide)⟩

/-- The conditions of clause 2 of SpecialRegisterFaults are met. -/
theorem wit_SpecialRegisterFaults_2 : ∃ (s : State) (p : Pair) (num : BitVec 11), (s.dev.Ready p) ∧ ((s.dev.core
    p).user = true) ∧ (num ≠ 8) :=
  ⟨stUser, .program, 0, (by decide), rfl, (by decide)⟩

/-- The conditions of clause 3 of SpecialRegisterFaults are met. -/
theorem wit_SpecialRegisterFaults_3 : ∃ (s : State) (p : Pair), (s.dev.Ready p) ∧ ((s.dev.core p).user = true) :=
  ⟨stUser, .program, (by decide), rfl⟩

/-- The conditions of clause 4 of SpecialRegisterFaults are met. -/
theorem wit_SpecialRegisterFaults_4 : ∃ (s : State) (p : Pair), (s.dev.Ready p) ∧ ((s.dev.core p).user = true) ∧
    (bitOf (s.dev.core p).ctl 0 = false) :=
  ⟨stUser, .program, (by decide), rfl, rfl⟩

/-- The conditions of clause 5 of SpecialRegisterFaults are met. -/
theorem wit_SpecialRegisterFaults_5 : ∃ (s : State) (p : Pair) (num : BitVec 11), (s.dev.Ready p) ∧ ((s.dev.core
    p).user = false) ∧ (specListed num.toNat = false) :=
  ⟨st [], .system, 9, (by decide), rfl, rfl⟩

/-- The conditions of clause 1 of ExceptionEntry are met. -/
theorem wit_ExceptionEntry_1 : ∃ (d : Dev) (p : Pair) (code : Nat) (h : Word), (bitOf (d.core p).status 5 = false) ∧
    (d.handler (d.core p).xtab code = some h) ∧ (p = .system ∨ (d.core p).user = false ∨ code = 8) :=
  ⟨Dev.reset, .program, 8, 0, rfl, rfl, (by decide)⟩

/-- The conditions of clause 3 of ExceptionEntry are met. -/
theorem wit_ExceptionEntry_3 : ∃ (d : Dev) (p : Pair) (code : Nat), (bitOf (d.core p).status 5 = false) ∧ (d.handler
    (d.core p).xtab code = none) :=
  ⟨{ Dev.reset with ecc := [32] }, .system, 8, rfl, rfl⟩

/-- The conditions of clause 4 of ExceptionEntry are met. -/
theorem wit_ExceptionEntry_4 : ∃ (i : Nat), (i = 8 ∨ i = 9 ∨ i = 11) :=
  ⟨11, (by decide)⟩

/-- The conditions of clause 5 of ExceptionEntry are met. -/
theorem wit_ExceptionEntry_5 : ∃ (s : State) (p : Pair), (s.dev.Ready p) ∧ ((s.dev.core p).user = false) :=
  ⟨st [], .program, (by decide), rfl⟩

/-- The conditions of clause 6 of ExceptionEntry are met. -/
theorem wit_ExceptionEntry_6 : ∃ (s : State) (p : Pair), (s.dev.Ready p) ∧ ((s.dev.core p).user = true) :=
  ⟨stUser, .program, (by decide), rfl⟩

/-- The conditions of clause 7 of ExceptionEntry are met. -/
theorem wit_ExceptionEntry_7 : ∃ (s : State) (p : Pair) (imm : BitVec 11) (h : Word), (s.dev.Ready p) ∧ ((s.dev.core
    p).user = false ∨ imm ∈ [(1 : BitVec 11), 2, 3, 0x10, 0x20, 0x30, 0x40]) ∧ (bitOf (s.dev.core p).status 5 = false)
    ∧ (s.dev.handler (s.dev.core p).xtab 8 = some h) :=
  ⟨st [], .program, 0x40, 0, (by decide), (by decide), rfl, rfl⟩

/-- The conditions of clause 8 of ExceptionEntry are met. -/
theorem wit_ExceptionEntry_8 : ∃ (s : State) (p : Pair) (h : Word), (s.dev.Ready p) ∧ (p = .system ∨ (s.dev.core
    p).user = false) ∧ (bitOf (s.dev.core p).status 5 = false) ∧ (s.dev.handler (s.dev.core p).xtab 9 = some h) :=
  ⟨st [], .program, 0, (by decide), (by decide), rfl, rfl⟩

/-- The conditions of clause 1 of DoubleFault are met. -/
theorem wit_DoubleFault_1 : ∃ (d : Dev) (p : Pair), (bitOf (d.core p).status 5 = true) :=
  ⟨{ Dev.reset with prog := { CoreSt.reset with status := 0x21 } }, .program, rfl⟩

/-- The conditions of clause 4 of DoubleFault are met. -/
theorem wit_DoubleFault_4 : ∃ (s : State) (p : Pair), (s.dev.asleep = false) ∧ ((s.dev.core p).stopped = false) :=
  ⟨st [], .program, rfl, rfl⟩

/-- The conditions of clause 1 of EventsAndInterrupts are met. -/
theorem wit_EventsAndInterrupts_1 : ∃ (s : State) (p : Pair) (imm : BitVec 11), (s.dev.Ready p) ∧ (imm.toNat < 16) :=
  ⟨st [], .system, 15, (by decide), (by decide)⟩

/-- The conditions of clause 2 of EventsAndInterrupts are met. -/
theorem wit_EventsAndInterrupts_2 : ∃ (s : State) (p : Pair) (imm : BitVec 11), (s.dev.Ready p) ∧ (16 ≤ imm.toNat) :=
  ⟨st [], .system, 16, (by decide), (by decide)⟩

/-- The conditions of clause 3 of EventsAndInterrupts are met. -/
theorem wit_EventsAndInterrupts_3 : ∃ (s : State) (p : Pair) (ra : GReg), (s.dev.Ready p) ∧ ((s.dev.core p).user =
    false) ∧ ((s.dev.core p).evt &&& (s.dev.core p).reg ra ≠ 0) :=
  ⟨stc [] .system ({ stPairs [(2, 0x8000)] with evt := 0x8001 }), .system, 2, (by decide), rfl, (by decide)⟩

/-- The conditions of clause 4 of EventsAndInterrupts are met. -/
theorem wit_EventsAndInterrupts_4 : ∃ (s : State) (p : Pair) (ra : GReg), (s.dev.Ready p) ∧ ((s.dev.core p).user =
    false) ∧ ((s.dev.core p).evt &&& (s.dev.core p).reg ra = 0) :=
  ⟨st [], .system, 2, (by decide), rfl, rfl⟩

/-- The conditions of clause 5 of EventsAndInterrupts are met. -/
theorem wit_EventsAndInterrupts_5 : ∃ (s : State) (p : Pair) (imm : BitVec 11), (s.dev.Ready p) ∧ ((s.dev.core p).user
    = false) ∧ (imm.toNat < 32) :=
  ⟨st [], .system, 31, (by decide), rfl, (by decide)⟩

/-- The conditions of clause 6 of EventsAndInterrupts are met. -/
theorem wit_EventsAndInterrupts_6 : ∃ (s : State) (p : Pair), (s.dev.Ready p) ∧ ((s.dev.core p).user = true) :=
  ⟨stUser, .program, (by decide), rfl⟩

/-- The conditions of clause 7 of EventsAndInterrupts are met. -/
theorem wit_EventsAndInterrupts_7 : ∃ (s : State) (source : Nat) (h : Word), (s.dev.asleep = false) ∧
    (s.dev.pwr.resetWait = none) ∧ (s.dev.sys.stopped = false) ∧ (bitOf s.dev.sys.status 3 = true) ∧ (bitOf
    s.dev.sys.status 5 = false) ∧ ((source < 0x80 ∨ (0x90 ≤ source ∧ source < 256)) ∨ (0x80 ≤ source ∧ source < 0x90 ∧
    bitOf (s.dev.sys.evt &&& s.dev.sys.evmask) (source - 0x80) = true)) ∧ (s.dev.handler s.dev.sys.xtab 10 = some h)
    :=
  ⟨stc [] .system { CoreSt.reset with status := 9, evt := 0x8000, evmask := 0x8000 }, 0x8F, 0, rfl, rfl, rfl, rfl,
    rfl, (by decide), rfl⟩

/-- The conditions of clauses 1, 2 of VectorLaneResults are met. -/
theorem wit_VectorLaneResults_1 : ∃ (s : State) (p : Pair), (s.dev.Ready p) ∧ ((s.dev.core p).vl ≠ 0) :=
  ⟨stvl 64, .system, (by decide), (by decide)⟩

/-- The conditions of clause 3 of VectorLaneResults are met. -/
theorem wit_VectorLaneResults_3 : ∃ (i : Nat), (i < 64) :=
  ⟨63, (by decide)⟩

/-- The conditions of clauses 1, 2 of VectorBinary32Results are met. -/
theorem wit_VectorBinary32Results_1 : ∃ (s : State) (p : Pair), (s.dev.Ready p) ∧ ((s.dev.core p).vl ≠ 0) :=
  ⟨stvl 64, .system, (by decide), (by decide)⟩

/-- The conditions of clauses 1, 2 of VectorMaskResults are met. -/
theorem wit_VectorMaskResults_1 : ∃ (s : State) (p : Pair), (s.dev.Ready p) ∧ ((s.dev.core p).vl ≠ 0) :=
  ⟨stvl 64, .system, (by decide), (by decide)⟩

/-- The conditions of clause 3 of VectorMaskResults are met. -/
theorem wit_VectorMaskResults_3 : ∃ (s : State) (p : Pair), (s.dev.Ready p) :=
  ⟨st [], .system, (by decide)⟩

/-- The conditions of clause 4 of VectorMaskResults are met. -/
theorem wit_VectorMaskResults_4 : ∃ (s : State) (p : Pair) (r : GReg), (s.dev.Ready p) ∧ (pairOk r = true) :=
  ⟨st [], .system, 30, (by decide), rfl⟩

/-- The conditions of clause 5 of VectorMaskResults are met. -/
theorem wit_VectorMaskResults_5 : ∃ (i : Nat), (i < 64) :=
  ⟨63, (by decide)⟩

/-- The conditions of clauses 1, 2, 3, 4, 5, 6 of VectorLengthZero are met. -/
theorem wit_VectorLengthZero_1 : ∃ (s : State) (p : Pair), (s.dev.Ready p) ∧ ((s.dev.core p).vl = 0) :=
  ⟨st [], .system, (by decide), rfl⟩

/-- The conditions of clause 1 of ReductionResults are met. -/
theorem wit_ReductionResults_1 : ∃ (s : State) (p : Pair) (rd : GReg), (s.dev.Ready p) ∧ ((s.dev.core p).vl ≠ 0) ∧
    (pairOk rd = true) :=
  ⟨stvl 64, .system, 30, (by decide), (by decide), rfl⟩

/-- The conditions of clause 2 of ReductionResults are met. -/
theorem wit_ReductionResults_2 : ∃ (s : State) (p : Pair), (s.dev.Ready p) ∧ ((s.dev.core p).vl ≠ 0) :=
  ⟨stvl 64, .system, (by decide), (by decide)⟩

/-- The conditions of clause 4 of ReductionResults are met. -/
theorem wit_ReductionResults_4 : ∃ (l : List (Nat × Int)), (l ≠ []) :=
  ⟨[(0, 5), (1, 5)], (by decide)⟩

/-- The conditions of clause 1 of VectorMemoryResults are met. -/
theorem wit_VectorMemoryResults_1 : ∃ (s : State) (p : Pair) (ra : GReg) (k : VMask), (s.dev.Ready p) ∧ ((s.dev.core
    p).vl ≠ 0) ∧ (s.dev.vecFault p kLoad (((s.dev.core p).lanes k).map (fun i => (i, ((s.dev.core p).reg ra + nw (4 *
    i)).toNat))) = none) ∧ ((bitOf (s.dev.core p).ctl 0 && (s.dev.core p).user) = false) :=
  ⟨stvlr 3 [(2, 0x10000000)], .system, 2, ⟨false, 0⟩, (by decide), (by decide), rfl, rfl⟩

/-- The conditions of clause 2 of VectorMemoryResults are met. -/
theorem wit_VectorMemoryResults_2 : ∃ (s : State) (p : Pair) (iv : VReg) (ra : GReg) (k : VMask), (s.dev.Ready p) ∧
    ((s.dev.core p).vl ≠ 0) ∧ (s.dev.vecFault p kLoad (((s.dev.core p).lanes k).map (fun i => (i, ((s.dev.core p).reg
    ra + ((s.dev.core p).lane iv i <<< 2)).toNat))) = none) ∧ ((bitOf (s.dev.core p).ctl 0 && (s.dev.core p).user) =
    false) :=
  ⟨stvlr 3 [(2, 0x10000000)], .system, 6, 2, ⟨false, 0⟩, (by decide), (by decide), rfl, rfl⟩

/-- The conditions of clause 3 of VectorMemoryResults are met. -/
theorem wit_VectorMemoryResults_3 : ∃ (s : State) (p : Pair) (ra : GReg) (k : VMask), (s.dev.Ready p) ∧ ((s.dev.core
    p).vl ≠ 0) ∧ (s.dev.vecFault p kStore (((s.dev.core p).lanes k).map (fun i => (i, ((s.dev.core p).reg ra + nw (4 *
    i)).toNat))) = none) :=
  ⟨stvlr 3 [(2, 0x10000000)], .system, 2, ⟨false, 0⟩, (by decide), (by decide), (by decide)⟩

/-- The conditions of clause 4 of VectorMemoryResults are met. -/
theorem wit_VectorMemoryResults_4 : ∃ (s : State) (p : Pair) (iv : VReg) (ra : GReg) (k : VMask), (s.dev.Ready p) ∧
    ((s.dev.core p).vl ≠ 0) ∧ (s.dev.vecFault p kStore (((s.dev.core p).lanes k).map (fun i => (i, ((s.dev.core p).reg
    ra + ((s.dev.core p).lane iv i <<< 2)).toNat))) = none) :=
  ⟨stvlr 3 [(2, 0x10000000)], .system, 6, 2, ⟨false, 0⟩, (by decide), (by decide), (by decide)⟩

/-- The conditions of clause 5 of VectorMemoryResults are met. -/
theorem wit_VectorMemoryResults_5 : ∃ (s : State) (p : Pair) (wb : GReg) (k : VMask), (s.dev.Ready p) ∧ ((s.dev.core
    p).vl ≠ 0) ∧ (((s.dev.core p).lanes k).isEmpty = false) ∧ ((bitOf (s.dev.core p).ctl 0 && (s.dev.core p).user) =
    false) ∧ (s.dev.vecFault p kLoad ((List.range 585).map (fun i => (i, (((s.dev.core p).reg wb).toNat + 4 * i) % 2 ^
    32))) = none) :=
  ⟨stvlr 1 [(2, 0x10000000)], .system, 2, ⟨false, 0⟩, (by decide), (by decide), (by decide), (by decide),
    (by decide +kernel)⟩

/-- The conditions of clause 6 of VectorMemoryResults are met. -/
theorem wit_VectorMemoryResults_6 : ∃ (w : Nat → Word), ((tableOf w).np = 0 ∨ (tableOf w).nt = 0) :=
  ⟨(fun _ => 0), (by decide)⟩

/-- The conditions of clause 1 of CyclicObjects are met. -/
theorem wit_CyclicObjects_1 : ∃ (s : State) (ra : GReg) (a : Nat), (s.dev.Ready .program) ∧ ((s.dev.prog.reg ra).toNat
    = a) ∧ (s.dev.objFault .program a 16 = none) :=
  ⟨stc [] .program (stPairs [(2, 0x105FFFF0)]), 2, 0x105FFFF0, (by decide), rfl, rfl⟩

/-- The conditions of clause 2 of CyclicObjects are met. -/
theorem wit_CyclicObjects_2 : ∃ (s : State) (ra : GReg) (a : Nat), (s.dev.Ready .program) ∧ ((s.dev.prog.reg ra).toNat
    = a) ∧ (s.dev.objFault .program a 8 = none) :=
  ⟨stc [] .program (stPairs [(2, 0x105FFFF8)]), 2, 0x105FFFF8, (by decide), rfl, rfl⟩

/-- The conditions of clauses 3, 5 of CyclicObjects are met. -/
theorem wit_CyclicObjects_3 : ∃ (s : State), (s.dev.Ready .program) :=
  ⟨st [], (by decide)⟩

/-- The conditions of clause 4 of CyclicObjects are met. -/
theorem wit_CyclicObjects_4 : ∃ (s : State), (s.dev.Ready .system) :=
  ⟨st [], (by decide)⟩

/-- The conditions of clause 1 of ClockCommands are met. -/
theorem wit_ClockCommands_1 : ∃ (s : State) (src : Writer), (s.dev.asleep = false) ∧ (src = .system ∨ src = .session ∧
    s.dev.fld Reg.SVC_STAT 5 4 = 3) :=
  ⟨st [(Reg.SVC_STAT, 0x30)], .session, rfl, Or.inr ⟨rfl, by decide⟩⟩

/-- The conditions of clause 2 of ClockCommands are met. -/
theorem wit_ClockCommands_2 : ∃ (s : State), (s.dev.asleep = false) ∧ (s.dev.fld Reg.SVC_STAT 5 4 ≠ 3) :=
  ⟨st [], rfl, (by decide)⟩

/-- The conditions of clauses 3, 11, 13 of ClockCommands are met. -/
theorem wit_ClockCommands_3 : ∃ (s : State), (s.dev.asleep = false) :=
  ⟨st [], rfl⟩

/-- The conditions of clause 4 of ClockCommands are met. -/
theorem wit_ClockCommands_4 : ∃ (s : State) (src : Writer) (d : Dev), (s.dev.asleep = false) ∧ (s.dev.takes src
    Reg.SYS_CTL = some d) :=
  ⟨st [], .system, _, rfl, rfl⟩

/-- The conditions of clause 5 of ClockCommands are met. -/
theorem wit_ClockCommands_5 : ∃ (s : State) (src : Writer) (d : Dev), (s.dev.asleep = false) ∧ (s.dev.takes src
    Reg.TIM_INC = some d) :=
  ⟨st [], .system, _, rfl, rfl⟩

/-- The conditions of clause 6 of ClockCommands are met. -/
theorem wit_ClockCommands_6 : ∃ (s : State) (src : Writer) (d : Dev), (s.dev.asleep = false) ∧ (s.dev.takes src
    Reg.TIM_ADJSEC = some d) :=
  ⟨st [], .system, _, rfl, rfl⟩

/-- The conditions of clause 7 of ClockCommands are met. -/
theorem wit_ClockCommands_7 : ∃ (s : State) (src : Writer) (d : Dev), (s.dev.asleep = false) ∧ (s.dev.takes src
    Reg.TIM_ADJNS = some d) :=
  ⟨st [], .system, _, rfl, rfl⟩

/-- The conditions of clause 8 of ClockCommands are met. -/
theorem wit_ClockCommands_8 : ∃ (s : State) (src : Writer) (v : Word) (d : Dev), (s.Inv) ∧ (s.dev.asleep = false) ∧
    (s.dev.takes src Reg.TIM_CTL = some d) ∧ (bitOf v 1 = true) ∧ (d.rd Reg.TIM_HOLDTO ≠ 0) :=
  ⟨st [(Reg.TIM_HOLDTO, 1)], .system, 2, _, ⟨rfl, rfl⟩, rfl, rfl, rfl, (by decide)⟩

/-- The conditions of clause 9 of ClockCommands are met. -/
theorem wit_ClockCommands_9 : ∃ (s : State) (src : Writer) (d : Dev), (s.Inv) ∧ (s.dev.asleep = false) ∧ (s.dev.takes
    src Reg.TIM_HOLDTO = some d) :=
  ⟨st [], .system, _, ⟨rfl, rfl⟩, rfl, rfl⟩

/-- The conditions of clause 10 of ClockCommands are met. -/
theorem wit_ClockCommands_10 : ∃ (s : State), (s.dev.asleep = false) ∧ (s.dev.bit Reg.TIM_STAT 0 = true) ∧ (s.dev.due
    Tm.hold (secT (s.dev.rd Reg.TIM_HOLDTO).toNat) = true) :=
  ⟨stt [(Reg.TIM_STAT, 1), (Reg.TIM_HOLDTO, 1)] 125000000 [(Tm.hold, 1)], rfl, rfl, rfl⟩

/-- The conditions of clause 12 of ClockCommands are met. -/
theorem wit_ClockCommands_12 : ∃ (s : State) (src : Writer) (d : Dev), (s.dev.asleep = false) ∧ (s.dev.takes src
    Reg.TIM_SNAP = some d) :=
  ⟨st [], .system, _, rfl, rfl⟩

/-- The conditions of clause 1 of AngleCommands are met. -/
theorem wit_AngleCommands_1 : ∃ (s : State), (s.dev.asleep = false) ∧ (s.dev.angWraps = true) :=
  ⟨stA { AngSt.reset with angle := 0xFFFFFFFF } [(Reg.ANG_INC_LO, 0x10000)], rfl, rfl⟩

/-- The conditions of clause 2 of AngleCommands are met. -/
theorem wit_AngleCommands_2 : ∃ (s : State), 
    let d := s.dev.angRefresh;
    (s.dev.asleep = false) ∧ (d.angValid d.angSrc = false) :=
  ⟨st [(Reg.ANG_STAT, 1)], rfl, rfl⟩

/-- The conditions of clause 3 of AngleCommands are met. -/
theorem wit_AngleCommands_3 : ∃ (s : State), 
    let d := s.dev.angRefresh;
    (s.dev.asleep = false) ∧ (d.angValid d.angSrc = true) :=
  ⟨st [(Reg.ANG_STAT, 2)], rfl, rfl⟩

/-- The conditions of clause 4 of AngleCommands are met. -/
theorem wit_AngleCommands_4 : ∃ (s : State) (n : Nat), 
    let d := s.dev.angRefresh;
    (s.dev.asleep = false) ∧ (d.bit Reg.ANG_CTL 1 = false) ∧ (d.ang.started = true) ∧ ((d.angOrder.take (d.angRank
    d.angSrc)).find? (fun x => d.angValid x && (decide (d.ang.fallen = none) || d.angLong x)) = some n) :=
  ⟨stA2, 1, (by decide), (by decide), (by decide), (by decide)⟩

/-- The conditions of clause 5 of AngleCommands are met. -/
theorem wit_AngleCommands_5 : ∃ (s : State), 
    let d := s.dev.angRefresh;
    (s.dev.asleep = false) ∧ (d.bit Reg.ANG_CTL 1 = true ∨ d.ang.started = false ∨ (d.angOrder.take (d.angRank
    d.angSrc)).find? (fun x => d.angValid x && (decide (d.ang.fallen = none) || d.angLong x)) = none) :=
  ⟨st [(Reg.ANG_CTL, 2)], (by decide), Or.inl (by decide)⟩

/-- The conditions of clause 6 of AngleCommands are met. -/
theorem wit_AngleCommands_6 : ∃ (s : State) (src : Writer) (d : Dev), (s.dev.asleep = false) ∧ (s.dev.takes src
    Reg.ANG_SRCPRI = some d) :=
  ⟨st [], .system, _, rfl, rfl⟩

/-- The conditions of clause 7 of AngleCommands are met. -/
theorem wit_AngleCommands_7 : ∃ (s : State) (src : Writer) (v : Word) (d : Dev), (s.dev.asleep = false) ∧ (s.dev.takes
    src Reg.ANG_CTL = some d) ∧ ((d.plainWrite Reg.ANG_CTL v).bit Reg.ANG_CTL 1 ≠ d.bit Reg.ANG_CTL 1) :=
  ⟨st [], .system, 2, _, rfl, rfl, (by decide)⟩

/-- The conditions of clause 8 of AngleCommands are met. -/
theorem wit_AngleCommands_8 : ∃ (s : State), (s.dev.asleep = false) ∧ (s.dev.running Tm.slew = false ∨ s.dev.due
    Tm.slew 125000 = true) ∧ (s.dev.bit Reg.ANG_CTL 0 = true) ∧ (s.dev.angSrc = 2 ∨ s.dev.bit Reg.ANG_CTL 1 = true) :=
  ⟨st [(Reg.ANG_CTL, 1), (Reg.ANG_STAT, 2)], rfl, Or.inl (by decide), (by decide), Or.inl (by decide)⟩

/-- The conditions of clause 9 of AngleCommands are met. -/
theorem wit_AngleCommands_9 : ∃ (s : State), (s.dev.asleep = false) ∧ (s.dev.running Tm.slew = true) ∧ (s.dev.due
    Tm.slew 125000 = false) :=
  ⟨stt [] 5 [(Tm.slew, 1)], rfl, rfl, (by decide)⟩

/-- The conditions of clause 10 of AngleCommands are met. -/
theorem wit_AngleCommands_10 : ∃ (s : State) (src : Writer) (d : Dev), (s.dev.asleep = false) ∧ (s.dev.takes src
    Reg.ANG_PERR = some d) :=
  ⟨st [], .system, _, rfl, rfl⟩

/-- The conditions of clause 11 of AngleCommands are met. -/
theorem wit_AngleCommands_11 : ∃ (s : State) (src : Writer) (d : Dev), (s.dev.asleep = false) ∧ (s.dev.takes src
    Reg.ANG_INC_HI = some d) :=
  ⟨st [], .system, _, rfl, rfl⟩

/-- The conditions of clause 12 of AngleCommands are met. -/
theorem wit_AngleCommands_12 : ∃ (s : State) (src : Writer) (d : Dev), (s.dev.asleep = false) ∧ (s.dev.takes src
    Reg.ANG_INC_LO = some d) :=
  ⟨st [], .system, _, rfl, rfl⟩

/-- The conditions of clause 13 of AngleCommands are met. -/
theorem wit_AngleCommands_13 : ∃ (s : State) (level : Bool) (us : BitVec 16), (s.dev.asleep = false) ∧ (us.toNat <
    s.dev.fld Reg.ANG_ZCCFG 15 8 ∨ s.dev.pins.zcIn = level) :=
  ⟨st [], false, 5, rfl, Or.inr rfl⟩

/-- The conditions of clause 14 of AngleCommands are met. -/
theorem wit_AngleCommands_14 : ∃ (s : State) (level : Bool) (us : BitVec 16), (s.dev.asleep = false) ∧ (s.dev.fld
    Reg.ANG_ZCCFG 15 8 ≤ us.toNat) ∧ (s.dev.pins.zcIn ≠ level) ∧ (level = s.dev.bit Reg.ANG_ZCCFG 0) :=
  ⟨st [(Reg.ANG_ZCCFG, 1)], true, 5, rfl, (by decide), (by decide), rfl⟩

/-- The conditions of clause 15 of AngleCommands are met. -/
theorem wit_AngleCommands_15 : ∃ (s : State) (level : Bool) (us : BitVec 16), (s.dev.asleep = false) ∧ (s.dev.fld
    Reg.ANG_ZCCFG 15 8 ≤ us.toNat) ∧ (s.dev.pins.zcIn ≠ level) ∧ (level ≠ s.dev.bit Reg.ANG_ZCCFG 0) :=
  ⟨st [], true, 0xFFFF, rfl, (by decide), (by decide), (by decide)⟩

/-- The conditions of clause 1 of LocalClockTick are met. -/
theorem wit_LocalClockTick_1 : ∃ (t : TimSt), (t.ns < 1000000000) ∧ (t.frac < 2 ^ 24) ∧ (t.sec < 2 ^ 48) ∧ (t.tbFrac <
    1000 * 2 ^ 24) ∧ (t.tb < 2 ^ 64) :=
  ⟨TimSt.reset, (by decide), (by decide), (by decide), (by decide), (by decide)⟩

/-- The conditions of clause 2 of LocalClockTick are met. -/
theorem wit_LocalClockTick_2 : ∃ (s : State), (s.dev.pwrState ≠ 0) ∧ (s.dev.asleep = false) :=
  ⟨st [], (by decide), rfl⟩

/-- The conditions of clause 3 of LocalClockTick are met. -/
theorem wit_LocalClockTick_3 : ∃ (s : State), (s.dev.pwrState = 0) :=
  ⟨st [(Reg.PWR_STAT, 0)], rfl⟩

/-- The conditions of clause 1 of TimetableCommands are met. -/
theorem wit_TimetableCommands_1 : ∃ (s : State), (s.dev.asleep = false) ∧ (s.dev.tt.done = true ∨ s.dev.bit Reg.TT_CTL
    0 = false) :=
  ⟨st [(Reg.TT_CTL, 0)], (by decide), Or.inr (by decide)⟩

/-- The conditions of clause 2 of TimetableCommands are met. -/
theorem wit_TimetableCommands_2 : ∃ (s : State), (s.dev.asleep = false) ∧ (s.dev.tt.done = false) ∧ (s.dev.bit
    Reg.TT_CTL 0 = true) ∧ (s.dev.ttFiring = []) :=
  ⟨st [(Reg.TT_CTL, 1)], (by decide), (by decide), (by decide), (by decide +kernel)⟩

/-- The conditions of clause 3 of TimetableCommands are met. -/
theorem wit_TimetableCommands_3 : ∃ (s : State) (i c a : Nat), (s.dev.asleep = false) ∧ (s.dev.tt.done = false) ∧
    (s.dev.bit Reg.TT_CTL 0 = true) ∧ (s.dev.ttFiring = [(i, c, a)]) :=
  ⟨stTt, 0, 4, 3, (by decide), (by decide), (by decide), (by decide +kernel)⟩

/-- The conditions of clause 4 of TimetableCommands are met. -/
theorem wit_TimetableCommands_4 : ∃ (l : List (Nat × Nat × Nat)) (i c a : Nat), (l.getLast? = some (i, c, a)) :=
  ⟨[(5, 4, 3)], 5, 4, 3, rfl⟩

/-- The conditions of clause 5 of TimetableCommands are met. -/
theorem wit_TimetableCommands_5 : ∃ (s : State) (src : Writer) (b : BitVec 1) (i : Byte) (d : Dev), (s.dev.asleep =
    false) ∧ (s.dev.takes src (Reg.TT_ENT b.toNat i.toNat 0) = some d) :=
  ⟨st [], .system, 0, 5, _, rfl, rfl⟩

/-- The conditions of clause 6 of TimetableCommands are met. -/
theorem wit_TimetableCommands_6 : ∃ (s : State) (src : Writer) (b : BitVec 1) (i : Byte) (d : Dev), (s.dev.asleep =
    false) ∧ (s.dev.takes src (Reg.TT_ENT b.toNat i.toNat 1) = some d) :=
  ⟨st [], .system, 0, 5, _, rfl, rfl⟩

/-- The conditions of clause 7 of TimetableCommands are met. -/
theorem wit_TimetableCommands_7 : ∃ (d : Dev) (v : Word), (d.Canon) ∧ (ttActOk (ttCode v) (ttArg v) = false) :=
  ⟨Dev.reset, 0xFF000100, ⟨rfl, rfl⟩, rfl⟩

/-- The conditions of clause 8 of TimetableCommands are met. -/
theorem wit_TimetableCommands_8 : ∃ (d : Dev) (v : Word), (d.Canon) ∧ (fieldOf v 15 8 ≠ 0) ∧ (fieldOf v 15 8 ≤ fieldOf
    v 7 0) :=
  ⟨Dev.reset, 0x04000101, ⟨rfl, rfl⟩, (by decide), (by decide)⟩

/-- The conditions of clause 9 of TimetableCommands are met. -/
theorem wit_TimetableCommands_9 : ∃ (s : State) (src : Writer) (d : Dev), (s.dev.asleep = false) ∧ (s.dev.takes src
    Reg.TT_CTL = some d) :=
  ⟨st [], .system, _, rfl, rfl⟩

/-- The conditions of clause 10 of TimetableCommands are met. -/
theorem wit_TimetableCommands_10 : ∃ (s : State), (s.dev.asleep = false) ∧ (s.dev.nextStrobe = none ∨ s.dev.bit
    Reg.BAL_CTL 1 = false ∨ s.dev.fld Reg.BAL_BLANKLEAD 7 0 = 0 ∨ s.dev.role = 2) :=
  ⟨st [(Reg.BAL_CTL, 0)], rfl, Or.inr (Or.inl rfl)⟩

/-- The conditions of clause 11 of TimetableCommands are met. -/
theorem wit_TimetableCommands_11 : ∃ (s : State) (n : Nat), 
    let a := s.dev.ang.cycle * 2 ^ 32 + s.dev.ang.angle + n;
    (s.dev.asleep = false) ∧ (s.dev.nextStrobe = some n) ∧ (s.dev.bit Reg.BAL_CTL 1 = true) ∧ (s.dev.fld
    Reg.BAL_BLANKLEAD 7 0 ≠ 0) ∧ (s.dev.swp.blanked ≠ some a) ∧ (s.dev.role ≠ 2) :=
  ⟨stBlank, 1, (by decide), (by decide +kernel), (by decide), (by decide), (by decide), (by decide)⟩

/-- The conditions of clause 12 of TimetableCommands are met. -/
theorem wit_TimetableCommands_12 : ∃ (s : State) (n : Nat), (s.dev.asleep = false) ∧ (s.dev.nextStrobe = some n) ∧
    (s.dev.swp.blanked = some (s.dev.ang.cycle * 2 ^ 32 + s.dev.ang.angle + n)) :=
  ⟨stBlanked, 1, (by decide), (by decide +kernel), (by decide)⟩

/-- The conditions of clause 13 of TimetableCommands are met. -/
theorem wit_TimetableCommands_13 : ∃ (s : State) (src : Writer) (d : Dev), (s.dev.asleep = false) ∧ (s.dev.takes src
    Reg.BAL_CTL = some d) :=
  ⟨st [], .system, _, rfl, rfl⟩

/-- The conditions of clause 14 of TimetableCommands are met. -/
theorem wit_TimetableCommands_14 : ∃ (s : State) (src : Writer) (k : BitVec 6) (d : Dev), (s.dev.asleep = false) ∧
    (s.dev.takes src (Reg.BAL_CMD k.toNat) = some d) ∧ (k.toNat ≤ 47) :=
  ⟨st [], .system, 47, _, rfl, rfl, (by decide)⟩

/-- The conditions of clause 15 of TimetableCommands are met. -/
theorem wit_TimetableCommands_15 : ∃ (s : State) (k : BitVec 6), (s.dev.asleep = false) ∧ (47 < k.toNat) :=
  ⟨st [], 48, rfl, (by decide)⟩

/-- The conditions of clause 16 of TimetableCommands are met. -/
theorem wit_TimetableCommands_16 : ∃ (s : State) (n : Nat), (s.dev.asleep = false) ∧ (s.dev.fld Reg.BAL_CMDTO 15 0 =
    n) :=
  ⟨st [], _, rfl, rfl⟩

/-- The conditions of clause 17 of TimetableCommands are met. -/
theorem wit_TimetableCommands_17 : ∃ (s : State), (s.dev.asleep = false) ∧ (s.dev.leads = false) :=
  ⟨st [(Reg.TW_STAT, 2)], rfl, rfl⟩

/-- The conditions of clause 18 of TimetableCommands are met. -/
theorem wit_TimetableCommands_18 : ∃ (s : State), (s.dev.asleep = false) ∧ (s.dev.leads = true) ∧
    (s.dev.balFlags.swp.cur ≠ none) :=
  ⟨stBalCur, (by decide), (by decide), (by decide +kernel)⟩

/-- The conditions of clause 19 of TimetableCommands are met. -/
theorem wit_TimetableCommands_19 : ∃ (s : State), 
    let f := s.dev.balFlags;
    let l := ((List.range 48).filter (fun k => !s.dev.learning k)).map (fun k => (k, s.dev.balEntry k));
    (s.dev.asleep = false) ∧ (s.dev.leads = true) ∧ (f.swp.cur = none) ∧ (l.any (fun x => s.dev.fld (Reg.BAL_APPL x.1)
    23 0 != x.2) = true ∨ s.dev.fld Reg.BAL_REFRESH 15 0 ≠ 0 ∧ (s.dev.running Tm.balSend = false ∨ s.dev.due
    Tm.balSend (125000 * s.dev.fld Reg.BAL_REFRESH 15 0) = true)) :=
  ⟨stBal, (by decide), (by decide), (by decide +kernel), Or.inl (by decide +kernel)⟩

/-- The conditions of clause 20 of TimetableCommands are met. -/
theorem wit_TimetableCommands_20 : ∃ (s : State), (s.dev.asleep = false) ∧ (s.dev.leads = true) ∧ ((((List.range
    48).filter (fun k => !s.dev.learning k)).map (fun k => (k, s.dev.balEntry k))).any (fun x => s.dev.fld
    (Reg.BAL_APPL x.1) 23 0 != x.2) = false) ∧ (s.dev.fld Reg.BAL_REFRESH 15 0 = 0 ∨ s.dev.running Tm.balSend = true ∧
    s.dev.due Tm.balSend (125000 * s.dev.fld Reg.BAL_REFRESH 15 0) = false) :=
  ⟨st [(Reg.BAL_REFRESH, 0)], (by decide), (by decide), (by decide +kernel), Or.inl (by decide)⟩

/-- The conditions of clause 21 of TimetableCommands are met. -/
theorem wit_TimetableCommands_21 : ∃ (s : State) (src : Writer) (d : Dev), (s.dev.asleep = false) ∧ (s.dev.takes src
    Reg.BAL_LRN = some d) :=
  ⟨st [], .system, _, rfl, rfl⟩

/-- The conditions of clause 1 of RingStates are met. -/
theorem wit_RingStates_1 : ∃ (s : State), (s.dev.asleep = false) ∧ (s.dev.ringState = 0) ∧ (s.dev.bit (Reg.SK_STAT 0)
    0 = true) ∧ (s.dev.bit (Reg.SK_STAT 1) 0 = true ∨ s.dev.due Tm.ringUp (125000 * 2) = true) :=
  ⟨st [(Reg.SK_STAT 0, 1), (Reg.SK_STAT 1, 1)], (by decide), (by decide), (by decide), Or.inl (by decide)⟩

/-- The conditions of clause 2 of RingStates are met. -/
theorem wit_RingStates_2 : ∃ (s : State), (s.dev.asleep = false) ∧ (s.dev.ringState ≠ 0 ∨ s.dev.bit (Reg.SK_STAT 0) 0
    = false) :=
  ⟨st [], (by decide), Or.inr (by decide)⟩

/-- The conditions of clause 3 of RingStates are met. -/
theorem wit_RingStates_3 : ∃ (s : State) (x : Bool) (a p c : Byte), (s.dev.asleep = false) ∧ (s.dev.bit (Reg.SK_CTL
    (portNo x)) 0 = false ∨ c ≠ a ^^^ p ^^^ 0x5A) :=
  ⟨st [(Reg.SK_CTL 0, 0)], false, 1, 2, 0x59, (by decide), Or.inl (by decide)⟩

/-- The conditions of clause 4 of RingStates are met. -/
theorem wit_RingStates_4 : ∃ (s : State) (a p c : Byte) (d : Dev), (s.dev.asleep = false) ∧ (s.dev.flag (Reg.SK_STAT
    1) 8 = d) ∧ (s.dev.bit (Reg.SK_CTL 1) 0 = true) ∧ (c = a ^^^ p ^^^ 0x5A) :=
  ⟨st [(Reg.SK_CTL 1, 1)], 1, 2, 0x59, _, rfl, rfl, rfl, rfl⟩

/-- The conditions of clause 5 of RingStates are met. -/
theorem wit_RingStates_5 : ∃ (s : State) (a p c : Byte) (d e : Dev), (s.dev.asleep = false) ∧ (c = a ^^^ p ^^^ 0x5A) ∧
    (s.dev.flag (Reg.SK_STAT 0) 8 = d) ∧ ((if (if d.bit Reg.TW_CFG 1 then a.toNat = 0 ∧ p.toNat = 0 else a.toNat + 1 =
    d.ring.count.getD 0 ∧ p.toNat = 1) then d.start Tm.faultHeard else d) = e) ∧ (s.dev.bit (Reg.SK_CTL 0) 0 = true)
    :=
  ⟨st [(Reg.SK_CTL 0, 1)], 1, 2, 0x59, _, _, rfl, rfl, rfl, rfl, rfl⟩

/-- The conditions of clause 7 of RingStates are met. -/
theorem wit_RingStates_7 : ∃ (s : State) (x : Bool) (frame l : List Byte), (s.dev.asleep = false) ∧ (s.dev.portOn x =
    true) ∧ ((farComplete frame).set 1 (((farComplete frame)[1]?).getD 0 ||| 64) = l) :=
  ⟨st [(Reg.SK_CTL 0, 3)], false, [4, 1], _, rfl, rfl, rfl⟩

/-- The conditions of clause 8 of RingStates are met. -/
theorem wit_RingStates_8 : ∃ (s : State) (x : Bool), (s.dev.asleep = false) ∧ (s.dev.portOn x = false) :=
  ⟨st [(Reg.SK_CTL 0, 0)], false, rfl, rfl⟩

/-- The conditions of clause 10 of RingStates are met. -/
theorem wit_RingStates_10 : ∃ (s : State) (hop : Byte) (nodes : List EnumNode) (transit : BitVec 24) (n : Nat) (a b :
    Dev), 
    (s.dev.asleep = false) ∧
    (s.dev.role = 0) ∧
    (s.dev.ringState = 1) ∧
    (s.dev.enumOk = true) ∧
    (s.dev.ring.count = none) ∧
    (hop.toNat ≤ 48) ∧
    (min 48 (min hop.toNat nodes.length) = n) ∧
    (({ s.dev.enumFrames n with ring := { (s.dev.enumFrames n).ring with count := some n, trans := [], trans0 := transit.toNat } }
    : Dev) = a) ∧
    (((List.range n).foldl (fun (d : Dev) k => match nodes[k]? with | some e => d.enumNode k e | none => d) a).nodesNote n = b) :=
  ⟨st [(Reg.SK_RING 0, 1)], 0, [], 0, _, _, _, rfl, rfl, rfl, rfl, rfl, (by decide), rfl, rfl, rfl⟩

/-- The conditions of clause 11 of RingStates are met. -/
theorem wit_RingStates_11 : ∃ (s : State), (s.dev.asleep = false) ∧ (s.dev.enumOk = false) :=
  ⟨st [], (by decide), rfl⟩

/-- The conditions of clause 12 of RingStates are met. -/
theorem wit_RingStates_12 : ∃ (d : Dev), (d.role ≠ 2) ∧ (d.ringQuiet = true) :=
  ⟨Dev.reset, (by decide), rfl⟩

/-- The conditions of clause 13 of RingStates are met. -/
theorem wit_RingStates_13 : ∃ (s : State), (s.dev.asleep = false) ∧ (s.dev.leads = false) :=
  ⟨stShade, rfl, rfl⟩

/-- The conditions of clause 14 of RingStates are met. -/
theorem wit_RingStates_14 : ∃ (d : Dev) (k t : Nat) (x : Bool), (d.tof x k = some t) :=
  ⟨Dev.wr Dev.reset (Reg.SK_TOF 0 0) 0x80000010, 0, 16, false, rfl⟩

/-- The conditions of clause 15 of RingStates are met. -/
theorem wit_RingStates_15 : ∃ (lo : Nat) (r : BitVec 24), (lo ≤ r.toNat) ∧ ((r.toNat - lo) % 2 = 0) :=
  ⟨16, 0x100, (by decide), rfl⟩

/-- The conditions of clause 16 of RingStates are met. -/
theorem wit_RingStates_16 : ∃ (s : State), (s.dev.asleep = false) :=
  ⟨st [], rfl⟩

/-- The conditions of clause 17 of RingStates are met. -/
theorem wit_RingStates_17 : ∃ (s : State) (k : Nat) (ra rb : List (BitVec 24)) (a : Dev) (p : Dev × Bool),
    (s.dev.asleep = false) ∧ (s.dev.ring.tofWait = some k) ∧ (s.dev.ringBasic = true) ∧ (s.dev.leads = true) ∧
    (s.dev.bit Reg.TT_STAT 5 = true) ∧ (k < s.dev.ring.count.getD 0) ∧ (s.dev.ringQuiet = true) ∧
    (((({ s.dev with ring := { s.dev.ring with tofWait := none } } : Dev).echoSend k).rttNote false ra).rttNote true
    rb = a) ∧ (Dev.tofMove (Dev.tofMove (a, false) false k (a.nodeCaps k).2.1 ra) true k (a.nodeCaps k).2.1 rb = p) ∧
    (s.dev.ringState ≠ 5) :=
  ⟨stRing, 0, [0x100], [], _, _, rfl, rfl, rfl, rfl, rfl, (by decide), rfl, rfl, rfl, (by decide)⟩

/-- The conditions of clause 19 of RingStates are met. -/
theorem wit_RingStates_19 : ∃ (s : State) (k : Nat) (ra rb : List (BitVec 24)) (a : Dev) (p : Dev × Bool) (f : Dev),
    (s.dev.asleep = false) ∧ (s.dev.ring.tofWait = some k) ∧ (s.dev.ringBasic = true) ∧ (s.dev.leads = true) ∧
    (s.dev.ringState = 5) ∧ (k < s.dev.ring.count.getD 0) ∧ (s.dev.ringQuiet = true) ∧
    (((({ s.dev with ring := { s.dev.ring with tofWait := none } } : Dev).echoSend k).rttNote false ra).rttNote true
    rb = a) ∧ (Dev.tofMove (Dev.tofMove (a, false) false k (a.nodeCaps k).2.1 ra) true k (a.nodeCaps k).2.1 rb = p) ∧
    ((if p.2 then (if p.1.trefOf = p.1.ring.tref then p.1.delayWrite p.1.trefOf k else
    { p.1 with ring := { p.1.ring with trefNew := some p.1.trefOf } }) else p.1) = f) :=
  ⟨stRingHeal, 0, [0x100], [], _, _, _, rfl, (by decide), rfl, rfl, rfl, (by decide), rfl, rfl, rfl, rfl⟩

/-- The conditions of clause 20 of RingStates are met. -/
theorem wit_RingStates_20 : ∃ (d : Dev) (x : Bool) (k lo t o : Nat) (l : List (BitVec 24)), (tofMean lo l = some t) ∧
    (d.tof x k = some o) :=
  ⟨Dev.wr Dev.reset (Reg.SK_TOF 0 0) 0x80000010, false, 0, 16, 120, 16, [0x100], (by decide), (by decide)⟩

/-- The conditions of clause 21 of RingStates are met. -/
theorem wit_RingStates_21 : ∃ (s : State) (t : Nat) (l : List Nat), (s.dev.asleep = false) ∧ (s.dev.ring.trefNew =
    some t) ∧ (s.dev.ringBasic = true) ∧ ((List.range (s.dev.ring.count.getD 0)).filter (fun k => !s.dev.unreached k
    && s.dev.leads) = l) :=
  ⟨stRing, 40, _, rfl, rfl, rfl, rfl⟩

/-- The conditions of clause 22 of RingStates are met. -/
theorem wit_RingStates_22 : ∃ (s : State), (s.dev.asleep = false) ∧ (s.dev.ring.trefNew = none) :=
  ⟨st [], rfl, rfl⟩

/-- The conditions of clause 23 of RingStates are met. -/
theorem wit_RingStates_23 : ∃ (s : State), (s.dev.asleep = false) ∧ (s.dev.ringBasic = false) :=
  ⟨st [], rfl, rfl⟩

/-- The conditions of clause 25 of RingStates are met. -/
theorem wit_RingStates_25 : ∃ (s : State), (s.dev.asleep = false) ∧ (s.dev.ringState = 4) ∧ (s.dev.bit (Reg.SK_CTL 0)
    4 = true) ∧ (s.dev.leads = true) ∧ (s.dev.ringBasic = true) ∧ (s.dev.running Tm.linkOk = true) ∧ (s.dev.due
    Tm.linkOk (125000000 * 1) = true) :=
  ⟨stHeal, rfl, rfl, (by decide), rfl, rfl, rfl, (by decide)⟩

/-- The conditions of clause 26 of RingStates are met. -/
theorem wit_RingStates_26 : ∃ (s : State), (s.dev.asleep = false) ∧ (s.dev.ringState ≠ 4) :=
  ⟨st [], rfl, (by decide)⟩

/-- The conditions of clause 27 of RingStates are met. -/
theorem wit_RingStates_27 : ∃ (s : State), (s.dev.asleep = false) ∧ (s.dev.ringState = 4) :=
  ⟨st [(Reg.SK_RING 0, 4)], rfl, rfl⟩

/-- The conditions of clause 29 of RingStates are met. -/
theorem wit_RingStates_29 : ∃ (s : State), (s.dev.asleep = false) ∧ (s.dev.ring.slept = true) :=
  ⟨{ (st []) with dev := { (st []).dev with ring := { RingSt.reset with slept := true } } }, rfl, rfl⟩

/-- The conditions of clause 30 of RingStates are met. -/
theorem wit_RingStates_30 : ∃ (s : State) (e : Dev), (s.dev.asleep = false) ∧ (s.dev.ring.slept = true) ∧
    (s.dev.running Tm.wake = true) ∧ (s.dev.due Tm.wake (125000 * 120) = false) ∧
    (({ s.dev.ringSend setWake [] with ring := { (s.dev.ringSend setWake []).ring with slept := false } } : Dev).stop
    Tm.wake = e) :=
  ⟨stWake, _, rfl, rfl, rfl, (by decide), rfl⟩

/-- The conditions of clause 31 of RingStates are met. -/
theorem wit_RingStates_31 : ∃ (s : State), (s.dev.asleep = false) ∧ (s.dev.ring.slept = false) :=
  ⟨st [], rfl, rfl⟩

/-- The conditions of clause 32 of RingStates are met. -/
theorem wit_RingStates_32 : ∃ (s : State) (src : Writer) (x : Bool) (k : BitVec 6) (v : Word) (d e : Dev),
    (s.dev.asleep = false) ∧ (s.dev.takes src (Reg.SK_NODE (portNo x) k.toNat) = some d) ∧ (k.toNat ≤ 47) ∧ (bitOf v
    31 = true) ∧ (d.lagst k.toNat = 3) ∧ ((((d.setFld (Reg.SK_NODE 0 k.toNat) 17 16 0).setFld (Reg.SK_NODE 1 k.toNat)
    17 16 0).hw 0x1022 [nw k.toNat]) = e) :=
  ⟨st [(Reg.SK_NODE 0 47, 0x30000)], .system, true, 47, 0x80000000, _, _, rfl, rfl, (by decide), rfl, rfl, rfl⟩

/-- The conditions of clause 33 of RingStates are met. -/
theorem wit_RingStates_33 : ∃ (s : State) (k : BitVec 6), (s.dev.asleep = false) ∧ (47 < k.toNat) :=
  ⟨st [], 63, rfl, (by decide)⟩

/-- The conditions of clause 1 of RingCommands are met. -/
theorem wit_RingCommands_1 : ∃ (s : State) (src : Writer) (x : Bool) (d : Dev), (s.dev.asleep = false) ∧ (s.dev.takes
    src (Reg.SK_CMDGO (portNo x)) = some d) :=
  ⟨st [], .system, true, _, rfl, rfl⟩

/-- The conditions of clause 2 of RingCommands are met. -/
theorem wit_RingCommands_2 : ∃ (s : State) (x : Bool) (a n : Nat) (l : List Byte) (c : Nat) (e : Dev), (s.dev.asleep =
    false) ∧ (s.dev.cmdOf x = some (a, n, false)) ∧ (s.dev.bytes a n = l) ∧ (s.dev.ring.busyTill ≤ s.dev.now) ∧ ((c =
    3 → s.dev.ringQuiet = true)) ∧ (leNat (l.take 1) = c) ∧ ((if s.dev.portOn x && s.dev.role != 2 then
    ((s.dev.portSend x c (byteNats (l ++ leBytes 4 (crc32c l).toNat))).partnerFrame (byteNats (l ++ leBytes 4 (crc32c
    l).toNat))).cmdState c else s.dev) = e) :=
  ⟨stCmd false, false, 0x10C00000, 8, _, _, _, rfl, rfl, rfl, (by decide), (fun h => absurd h (by decide)), rfl, rfl⟩

/-- The conditions of clauses 3, 16 of RingCommands are met. -/
theorem wit_RingCommands_3 : ∃ (s : State) (x : Bool), (s.dev.asleep = false) ∧ (s.dev.cmdOf x = none) :=
  ⟨st [], true, rfl, rfl⟩

/-- The conditions of clause 4 of RingCommands are met. -/
theorem wit_RingCommands_4 : ∃ (s : State), (s.dev.asleep = false) ∧ (s.dev.now < s.dev.ring.busyTill) :=
  ⟨stBusy, rfl, (by decide)⟩

/-- The conditions of clause 6 of RingCommands are met. -/
theorem wit_RingCommands_6 : ∃ (s : State) (x : Bool), (s.dev.asleep = false) ∧ (s.dev.bit (Reg.SK_CTL (portNo x)) 0 =
    false) :=
  ⟨st [(Reg.SK_CTL 0, 0)], false, rfl, rfl⟩

/-- The conditions of clause 7 of RingCommands are met. -/
theorem wit_RingCommands_7 : ∃ (s : State) (x : Bool) (fin : FrameEnd), (s.dev.asleep = false) ∧ (s.dev.bit
    (Reg.SK_CTL (portNo x)) 0 = true) ∧ (fin ≠ .good) ∧ (fin ≠ .badCrc) :=
  ⟨st [(Reg.SK_CTL 0, 1)], false, .code, rfl, rfl, (by decide), (by decide)⟩

/-- The conditions of clause 8 of RingCommands are met. -/
theorem wit_RingCommands_8 : ∃ (d : Dev) (x : Bool) (e : Dev), (d.setBit (Reg.SK_STAT (portNo x)) 1 false = e) :=
  ⟨Dev.reset, false, _, rfl⟩

/-- The conditions of clause 9 of RingCommands are met. -/
theorem wit_RingCommands_9 : ∃ (s : State) (x : Bool) (frame : List Byte) (a n : Nat) (d e : Dev), (s.dev.asleep =
    false) ∧ (s.dev.bit (Reg.SK_CTL (portNo x)) 0 = true) ∧ ((s.dev.portFrame x).frameEnd x .badCrc = d) ∧ (d.cmdOf x
    = some (a, n, true)) ∧ (isRead62 (d.bytes a 8) = false) ∧ (d.agentStore a ((farComplete frame).take n) = e) :=
  ⟨stCmdOn, false, [3], 0x10C00000, 8, _, _, (by decide), (by decide), rfl, (by decide), (by decide), rfl⟩

/-- The conditions of clause 10 of RingCommands are met. -/
theorem wit_RingCommands_10 : ∃ (s : State) (x : Bool) (frame : List Byte) (a n : Nat) (d e : Dev), (s.dev.asleep =
    false) ∧ (s.dev.bit (Reg.SK_CTL (portNo x)) 0 = true) ∧ ((s.dev.portFrame x).frameEnd x .good = d) ∧ (d.cmdOf x =
    some (a, n, true)) ∧ (isRead62 (d.bytes a 8) = false) ∧ (d.agentStore a ((farComplete frame).take n) = e) :=
  ⟨stCmdOn, false, [3], 0x10C00000, 8, _, _, (by decide), (by decide), rfl, (by decide), (by decide), rfl⟩

/-- The conditions of clause 11 of RingCommands are met. -/
theorem wit_RingCommands_11 : ∃ (s : State) (x : Bool) (frame : List Byte) (a n : Nat) (d e : Dev), (s.dev.asleep =
    false) ∧ (s.dev.bit (Reg.SK_CTL (portNo x)) 0 = true) ∧ ((s.dev.portFrame x).frameEnd x .good = d) ∧ (d.cmdOf x =
    some (a, n, true)) ∧ (isRead62 (d.bytes a 8) = true) ∧ (leNat (frame.take 1) ≠ 3) ∧ (d.agentStore a ((farComplete
    frame).take n) = e) :=
  ⟨stRead62, false, [4, 62], 0x10C00000, 8, _, _, (by decide), (by decide), rfl, (by decide), (by decide),
    (by decide), rfl⟩

/-- The conditions of clause 12 of RingCommands are met. -/
theorem wit_RingCommands_12 : ∃ (d e : Dev), ((d.ringSet 2).fw 0x1012 [] = e) :=
  ⟨Dev.reset, _, rfl⟩

/-- The conditions of clause 13 of RingCommands are met. -/
theorem wit_RingCommands_13 : ∃ (d e : Dev), (d.stop Tm.heal = e) :=
  ⟨Dev.reset, _, rfl⟩

/-- The conditions of clause 14 of RingCommands are met. -/
theorem wit_RingCommands_14 : ∃ (s : State) (x : Bool) (a n : Nat), (s.dev.asleep = false) ∧ (s.dev.cmdOf x = some (a,
    n, true)) ∧ (s.dev.due (Tm.cmd x) (usT (s.dev.rd (Reg.SK_CMDTO (portNo x))).toNat) = true) ∧ (isRead62
    ((((s.dev.setCmd x none).flag (Reg.SK_CMDSTAT (portNo x)) 3)).bytes a 8) = false) :=
  ⟨stCmd true, false, _, _, rfl, rfl, rfl, rfl⟩

/-- The conditions of clause 15 of RingCommands are met. -/
theorem wit_RingCommands_15 : ∃ (s : State) (x : Bool) (a n : Nat), (s.dev.asleep = false) ∧ (s.dev.cmdOf x = some (a,
    n, true)) ∧ (s.dev.due (Tm.cmd x) (usT (s.dev.rd (Reg.SK_CMDTO (portNo x))).toNat) = true) ∧ (isRead62
    ((((s.dev.setCmd x none).flag (Reg.SK_CMDSTAT (portNo x)) 3)).bytes a 8) = true) :=
  ⟨stRead62, false, _, _, rfl, rfl, rfl, rfl⟩

/-- The conditions of clause 17 of RingCommands are met. -/
theorem wit_RingCommands_17 : ∃ (s : State) (src : Writer) (x : Bool) (d : Dev), (s.dev.asleep = false) ∧ (s.dev.takes
    src (Reg.SK_CTL (portNo x)) = some d) :=
  ⟨st [], .system, true, _, rfl, rfl⟩

/-- The conditions of clause 18 of RingCommands are met. -/
theorem wit_RingCommands_18 : ∃ (s : State) (src : Writer) (i : BitVec 11) (d : Dev), (s.dev.asleep = false) ∧
    (s.dev.takes src (Reg.CHM_ENT i.toNat) = some d) :=
  ⟨st [], .system, 5, _, rfl, rfl⟩

/-- The conditions of clause 19 of RingCommands are met. -/
theorem wit_RingCommands_19 : ∃ (d : Dev) (i : Nat) (v : Word), (d.bit (Reg.CHM_ENT i) 31 = bitOf v 31) :=
  ⟨Dev.reset, 5, 0, rfl⟩

/-- The conditions of clause 1 of SweepCommands are met. -/
theorem wit_SweepCommands_1 : ∃ (s : State) (w : Sweep) (e : Dev), (s.dev.asleep = false) ∧ (s.dev.swp.cur = some w) ∧
    (w.launched = false) ∧ (s.dev.noNodes w.desc = false) ∧ (w.issue + s.dev.launchT w.desc + usT w.stretch ≤
    s.dev.now) ∧ ({ s.dev with swp := { s.dev.swp with cur := some { w with launched := true } } } = e) :=
  ⟨stSweep, _, _, rfl, rfl, rfl, rfl, (by decide), rfl⟩

/-- The conditions of clauses 2, 6, 9 of SweepCommands are met. -/
theorem wit_SweepCommands_2 : ∃ (s : State), (s.dev.asleep = false) ∧ (s.dev.swp.cur = none) :=
  ⟨st [], rfl, rfl⟩

/-- The conditions of clauses 3, 10 of SweepCommands are met. -/
theorem wit_SweepCommands_3 : ∃ (s : State), (s.dev.asleep = false) :=
  ⟨st [], rfl⟩

/-- The conditions of clause 4 of SweepCommands are met. -/
theorem wit_SweepCommands_4 : ∃ (d : Dev) (arg node seq flags : Nat) (e : Dev) (q : Nat), ((d.seqAdopt arg
    seq).slotWdt node (flags.testBit 5) = e) ∧ (e.ring.seq = some q) :=
  ⟨stSweep.dev, 1, 0, 0, 0, _, 0, rfl, (by decide)⟩

/-- The conditions of clause 7 of SweepCommands are met. -/
theorem wit_SweepCommands_7 : ∃ (s : State) (t : Option (BitVec 24)) (w : Sweep) (e : Dev) (l : List Nat),
    (s.dev.asleep = false) ∧ (s.dev.swp.cur = some w) ∧ (w.recovering = false) ∧ (s.dev.deadlineAt w ≤ s.dev.now) ∧
    (s.dev.noteTransit (t.map (fun t => t.toNat)) = e) ∧ ((e.descNodes w.desc).filter (fun k => !w.got.contains k) =
    l) :=
  ⟨stDead, none, _, _, _, rfl, rfl, rfl, (by decide), rfl, rfl⟩

/-- The conditions of clause 8 of SweepCommands are met. -/
theorem wit_SweepCommands_8 : ∃ (s : State) (w : Sweep), (s.dev.asleep = false) ∧ (s.dev.swp.cur = some w) ∧
    (w.recovering = true) :=
  ⟨stRecov, _, rfl, rfl, rfl⟩

/-- The conditions of clause 11 of SweepCommands are met. -/
theorem wit_SweepCommands_11 : ∃ (s : State) (u : SubSweep) (g k : Nat) (t : List (Nat × Nat)) (len : Nat → Nat) (l :
    List Nat) (c : Dev), (s.dev.asleep = false) ∧ (s.dev.swp.sub = some u) ∧ (u.reads = (g, k) :: t) ∧ (s.dev.swp.cur
    = none) ∧ (s.dev.rd Reg.SWP_COUNT ≠ 0) ∧ ((fun k => 16 + (if u.aux && g = 0 then 3 * s.dev.nodeNA k else 0)) =
    len) ∧ (s.dev.packReads len g u.reads [] (s.dev.swp.budget - max s.dev.swp.budgetUsed (s.dev.now -
    s.dev.swp.budgetAt)) = l) ∧ (s.dev.collect 63 (4 + 8 * g + (if u.aux && g = 0 then 2 else 0)) false (l.map (fun k
    => (k, len k))) = c) :=
  ⟨stSub, _, 0, 0, [], _, _, _, rfl, rfl, rfl, rfl, (by decide), rfl, rfl, rfl⟩

/-- The conditions of clause 12 of SweepCommands are met. -/
theorem wit_SweepCommands_12 : ∃ (s : State) (src : Writer) (d : Dev), (s.dev.asleep = false) ∧ (s.dev.takes src
    Reg.SWP_OWCTL = some d) :=
  ⟨st [], .system, _, rfl, rfl⟩

/-- The conditions of clause 13 of SweepCommands are met. -/
theorem wit_SweepCommands_13 : ∃ (s : State) (p : WirePass), (s.dev.asleep = false) ∧ (s.dev.swp.ow = some p) :=
  ⟨stOw, _, rfl, rfl⟩

/-- The conditions of clause 14 of SweepCommands are met. -/
theorem wit_SweepCommands_14 : ∃ (s : State) (src : Writer) (d : Dev), (s.dev.asleep = false) ∧ (s.dev.takes src
    Reg.SWP_CTL = some d) :=
  ⟨st [], .system, _, rfl, rfl⟩

/-- The conditions of clause 15 of SweepCommands are met. -/
theorem wit_SweepCommands_15 : ∃ (d : Dev), (d.Canon) :=
  ⟨Dev.reset, ⟨rfl, rfl⟩⟩

/-- The conditions of clause 1 of ProtectionCommands are met. -/
theorem wit_ProtectionCommands_1 : ∃ (s : State) (src : Writer) (i : BitVec 11) (w : BitVec 2) (d : Dev),
    (s.dev.asleep = false) ∧ (s.dev.takes src (Reg.LIM_ENT i.toNat w.toNat) = some d) :=
  ⟨st [], .system, 0x7FF, 3, _, rfl, rfl⟩

/-- The conditions of clause 2 of ProtectionCommands are met. -/
theorem wit_ProtectionCommands_2 : ∃ (s : State) (src : Writer) (i : BitVec 11) (d : Dev), (s.dev.asleep = false) ∧
    (s.dev.takes src (Reg.LIM_ENT i.toNat 3) = some d) ∧ (d.bit Reg.LIM_CTL 1 = false ∨ 1920 ≤ i.toNat) :=
  ⟨st [], .system, 0x7FF, _, (by decide), rfl, Or.inr (by decide)⟩

/-- The conditions of clause 3 of ProtectionCommands are met. -/
theorem wit_ProtectionCommands_3 : ∃ (s : State) (src : Writer) (i : BitVec 11) (d : Dev), (s.dev.asleep = false) ∧
    (s.dev.takes src (Reg.LIM_ENT i.toNat 3) = some d) ∧ (d.bit Reg.LIM_CTL 1 = true) ∧ (i.toNat < 1920) :=
  ⟨st [(Reg.LIM_CTL, 2)], .system, 0, _, rfl, rfl, rfl, (by decide)⟩

/-- The conditions of clause 4 of ProtectionCommands are met. -/
theorem wit_ProtectionCommands_4 : ∃ (s : State), (s.dev.asleep = false) ∧ (s.dev.lim.swdArmed = true) ∧ (s.dev.fld
    Reg.LIM_SWDTO 23 0 ≠ 0) ∧ (s.dev.due Tm.swd (usT (s.dev.fld Reg.LIM_SWDTO 23 0)) = true) :=
  ⟨stSwd, rfl, rfl, (by decide), (by decide +kernel)⟩

/-- The conditions of clause 5 of ProtectionCommands are met. -/
theorem wit_ProtectionCommands_5 : ∃ (s : State), (s.dev.asleep = false) ∧ (¬ (s.dev.lim.swdArmed = true ∧ s.dev.fld
    Reg.LIM_SWDTO 23 0 ≠ 0 ∧ s.dev.due Tm.swd (usT (s.dev.fld Reg.LIM_SWDTO 23 0)) = true)) :=
  ⟨st [], rfl, (by decide +kernel)⟩

/-- The conditions of clause 6 of ProtectionCommands are met. -/
theorem wit_ProtectionCommands_6 : ∃ (s : State), (s.dev.asleep = false) :=
  ⟨st [], rfl⟩

/-- The conditions of clause 7 of ProtectionCommands are met. -/
theorem wit_ProtectionCommands_7 : ∃ (d : Dev) (c : Nat) (e : Dev) (left : Bool), (d.bit Reg.LIM_CRIM c = true) ∧
    (d.crimCauses c = (e, left)) :=
  ⟨Dev.wr Dev.reset Reg.LIM_CRIM 0x2000, 13, _, _, rfl, rfl⟩

/-- The conditions of clause 8 of ProtectionCommands are met. -/
theorem wit_ProtectionCommands_8 : ∃ (d : Dev) (c : Nat), (d.bit Reg.LIM_CRIM c = false) :=
  ⟨Dev.reset, 3, rfl⟩

/-- The conditions of clause 9 of ProtectionCommands are met. -/
theorem wit_ProtectionCommands_9 : ∃ (s : State) (src : Writer) (v : Word) (d e : Dev), (s.dev.asleep = false) ∧
    (s.dev.takes src Reg.LIM_TRIPCLR = some d) ∧ ((List.range 16).foldl (fun d c => if bitOf v c then d.clearClass c
    else d) d = e) :=
  ⟨st [], .system, 1, _, _, rfl, rfl, rfl⟩

/-- The conditions of clauses 10, 11 of ProtectionCommands are met. -/
theorem wit_ProtectionCommands_10 : ∃ (s : State) (src : Writer) (d : Dev), (s.dev.asleep = false) ∧ (s.dev.takes src
    Reg.LIM_SWTRIP = some d) :=
  ⟨st [], .system, _, rfl, rfl⟩

/-- The conditions of clause 12 of ProtectionCommands are met. -/
theorem wit_ProtectionCommands_12 : ∃ (s : State) (src : Writer) (d : Dev), (s.dev.asleep = false) ∧ (s.dev.takes src
    Reg.LIM_TEST = some d) :=
  ⟨st [], .system, _, rfl, rfl⟩

/-- The conditions of clause 13 of ProtectionCommands are met. -/
theorem wit_ProtectionCommands_13 : ∃ (s : State) (src : Writer) (v : Word) (bad : BitVec 4) (d e : Dev) (f : Nat),
    (s.dev.asleep = false) ∧ (s.dev.takes src Reg.LIM_TEST = some d) ∧ (bitOf v 31 = true) ∧ (bad.toNat &&& ((d.limW
    (fieldOf v 10 0) 3).toNat % 16) = f) ∧ (f ≠ 0) ∧ (((d.wr Reg.LIM_TESTSTAT (nw (0x20000000 + f))).flag Reg.LIM_STAT
    6).hw 0x2003 [nw (fieldOf v 10 0), nw f] = e) :=
  ⟨st [(Reg.LIM_ENT 0 3, 1)], .system, 0x80000000, 1, _, _, 1, rfl, rfl, rfl, rfl, (by decide), rfl⟩

/-- The conditions of clause 14 of ProtectionCommands are met. -/
theorem wit_ProtectionCommands_14 : ∃ (s : State) (src : Writer) (d : Dev), (s.dev.asleep = false) ∧ (s.dev.takes src
    Reg.LIM_CTL = some d) :=
  ⟨st [], .system, _, rfl, rfl⟩

/-- The conditions of clauses 1, 3 of ContactorCommands are met. -/
theorem wit_ContactorCommands_1 : ∃ (s : State) (src : Writer) (d : Dev), (s.dev.asleep = false) ∧ (s.dev.takes src
    Reg.SCC_CMD = some d) :=
  ⟨st [], .system, _, rfl, rfl⟩

/-- The conditions of clause 4 of ContactorCommands are met. -/
theorem wit_ContactorCommands_4 : ∃ (s : State) (src : Writer) (d e : Dev), (s.dev.asleep = false) ∧ (s.dev.takes src
    Reg.SCC_CMD = some d) ∧ (d.cue 7 3 = e) :=
  ⟨st [], .system, _, _, rfl, rfl, rfl⟩

/-- The conditions of clause 5 of ContactorCommands are met. -/
theorem wit_ContactorCommands_5 : ∃ (s : State), (s.dev.asleep = false) ∧ (s.dev.due Tm.brk (usT (s.dev.fld
    Reg.SCC_BRKDLY 15 0)) = true) :=
  ⟨stt [] 1000000 [(Tm.brk, 1)], rfl, (by decide +kernel)⟩

/-- The conditions of clause 6 of ContactorCommands are met. -/
theorem wit_ContactorCommands_6 : ∃ (s : State), (s.dev.asleep = false) ∧ (¬ (s.dev.due Tm.brk (usT (s.dev.fld
    Reg.SCC_BRKDLY 15 0)) = true)) :=
  ⟨st [], rfl, (by decide +kernel)⟩

/-- The conditions of clause 7 of ContactorCommands are met. -/
theorem wit_ContactorCommands_7 : ∃ (s : State), (s.dev.asleep = false) :=
  ⟨st [], rfl⟩

/-- The conditions of clause 8 of ContactorCommands are met. -/
theorem wit_ContactorCommands_8 : ∃ (s : State), (s.dev.asleep = false) ∧ (s.dev.sccState = 1) ∧ (s.dev.due Tm.scc
    (s.dev.sccMs 31 24) = true) ∧ (s.dev.prechargeMet = true) :=
  ⟨stPre, rfl, rfl, (by decide +kernel), rfl⟩

/-- The conditions of clause 9 of ContactorCommands are met. -/
theorem wit_ContactorCommands_9 : ∃ (s : State), (s.dev.asleep = false) ∧ (¬ (s.dev.sccState = 1 ∧ s.dev.due Tm.scc
    (s.dev.sccMs 31 24) = true ∧ s.dev.prechargeMet = true)) :=
  ⟨st [], rfl, (by decide +kernel)⟩

/-- The conditions of clause 10 of ContactorCommands are met. -/
theorem wit_ContactorCommands_10 : ∃ (s : State), (s.dev.asleep = false) ∧ (s.dev.sccState = 1) ∧ (s.dev.due Tm.scc
    (msT (s.dev.fld Reg.SCC_PCCFG 31 16)) = true) :=
  ⟨stPre, rfl, rfl, (by decide +kernel)⟩

/-- The conditions of clause 11 of ContactorCommands are met. -/
theorem wit_ContactorCommands_11 : ∃ (s : State), (s.dev.asleep = false) ∧ (s.dev.sccState = 2) ∧ (s.dev.bit
    Reg.SCC_STAT 0 = true) ∧ (s.dev.bit Reg.SCC_STAT 1 = false) :=
  ⟨st [(Reg.SCC_STAT, 0x201)], rfl, rfl, rfl, rfl⟩

/-- The conditions of clause 12 of ContactorCommands are met. -/
theorem wit_ContactorCommands_12 : ∃ (s : State), (s.dev.asleep = false) ∧ (¬ (s.dev.sccState = 2 ∧ s.dev.bit
    Reg.SCC_STAT 0 = true ∧ s.dev.bit Reg.SCC_STAT 1 = false)) :=
  ⟨st [], rfl, (by decide)⟩

/-- The conditions of clause 13 of ContactorCommands are met. -/
theorem wit_ContactorCommands_13 : ∃ (s : State), (s.dev.asleep = false) ∧ (s.dev.sccState = 2) ∧ (s.dev.due Tm.scc
    (s.dev.sccMs 15 8) = true) :=
  ⟨stScc 2, rfl, rfl, (by decide +kernel)⟩

/-- The conditions of clause 14 of ContactorCommands are met. -/
theorem wit_ContactorCommands_14 : ∃ (s : State), (s.dev.asleep = false) ∧ (¬ (s.dev.sccState = 2 ∧ s.dev.due Tm.scc
    (s.dev.sccMs 15 8) = true)) :=
  ⟨st [], rfl, (by decide +kernel)⟩

/-- The conditions of clause 15 of ContactorCommands are met. -/
theorem wit_ContactorCommands_15 : ∃ (s : State), (s.dev.asleep = false) ∧ (s.dev.sccState = 4) ∧ (s.dev.fbOpen =
    true) :=
  ⟨st [(Reg.SCC_STAT, 0x40A)], rfl, rfl, rfl⟩

/-- The conditions of clause 16 of ContactorCommands are met. -/
theorem wit_ContactorCommands_16 : ∃ (s : State), (s.dev.asleep = false) ∧ (¬ (s.dev.sccState = 4 ∧ s.dev.fbOpen =
    true)) :=
  ⟨st [], rfl, (by decide)⟩

/-- The conditions of clause 17 of ContactorCommands are met. -/
theorem wit_ContactorCommands_17 : ∃ (s : State), (s.dev.asleep = false) ∧ (s.dev.sccState = 4 ∨ (s.dev.sccState = 5 ∧
    s.dev.scc.openCur.isSome = true ∧ s.dev.bit Reg.SCC_DIAG 7 = false)) ∧ (s.dev.due s.dev.dropTm (s.dev.sccMs 23 16)
    = true) ∧ (s.dev.paired = false ∨ s.dev.bit Reg.SCC_STAT 0 = false ∨ s.dev.scc.secondDrop = true) :=
  ⟨stScc 4, (by decide), Or.inl (by decide), (by decide), Or.inl (by decide)⟩

/-- The conditions of clause 18 of ContactorCommands are met. -/
theorem wit_ContactorCommands_18 : ∃ (s : State), (s.dev.asleep = false) ∧ (¬ ((s.dev.sccState = 4 ∨ (s.dev.sccState =
    5 ∧ s.dev.scc.openCur.isSome = true ∧ s.dev.bit Reg.SCC_DIAG 7 = false)) ∧ s.dev.due s.dev.dropTm (s.dev.sccMs 23
    16) = true ∧ (s.dev.paired = false ∨ s.dev.bit Reg.SCC_STAT 0 = false ∨ s.dev.scc.secondDrop = true))) :=
  ⟨st [], rfl, (by decide +kernel)⟩

/-- The conditions of clauses 19, 21 of ContactorCommands are met. -/
theorem wit_ContactorCommands_19 : ∃ (s : State), (s.dev.asleep = false) ∧ (s.dev.scc.diagOff = false) :=
  ⟨st [], rfl, rfl⟩

/-- The conditions of clause 20 of ContactorCommands are met. -/
theorem wit_ContactorCommands_20 : ∃ (s : State), (s.dev.asleep = false) ∧ (s.dev.scc.diagOff = true) :=
  ⟨stDiag, rfl, rfl⟩

/-- The conditions of clause 22 of ContactorCommands are met. -/
theorem wit_ContactorCommands_22 : ∃ (s : State), (s.dev.asleep = false) ∧ ((s.dev.fbDisagree false = true ∧ s.dev.due
    (Tm.disc false) (s.dev.sccMs 7 0) = true) ∨ (s.dev.fbDisagree true = true ∧ s.dev.due (Tm.disc true) (s.dev.sccMs
    7 0) = true) ∨ (s.dev.sccState = 3 ∧ s.dev.bit Reg.SCC_STAT 0 = false)) :=
  ⟨st [(Reg.SCC_STAT, 0x300)], (by decide), Or.inr (Or.inr ⟨(by decide), (by decide)⟩)⟩

/-- The conditions of clause 23 of ContactorCommands are met. -/
theorem wit_ContactorCommands_23 : ∃ (s : State), (s.dev.asleep = false) ∧ (¬ (((s.dev.fbDisagree false = true ∧
    s.dev.due (Tm.disc false) (s.dev.sccMs 7 0) = true) ∨ (s.dev.fbDisagree true = true ∧ s.dev.due (Tm.disc true)
    (s.dev.sccMs 7 0) = true) ∨ (s.dev.sccState = 3 ∧ s.dev.bit Reg.SCC_STAT 0 = false)))) :=
  ⟨st [(Reg.SCC_STAT, 0xA)], rfl, (by decide +kernel)⟩

/-- The conditions of clause 24 of ContactorCommands are met. -/
theorem wit_ContactorCommands_24 : ∃ (s : State), (s.dev.asleep = false) ∧ (s.dev.paired = true) ∧ (s.dev.sccState = 4
    ∨ s.dev.sccState = 5) ∧ (s.dev.scc.k1 = Coil.off) ∧ (s.dev.scc.k2 = Coil.off) ∧ (s.dev.bit Reg.SCC_STAT 0 = true)
    ∧ (s.dev.due s.dev.dropTm (s.dev.sccMs 23 16) = true) ∧ (s.dev.scc.secondDrop = false) :=
  ⟨stKill, (by decide), (by decide), Or.inl (by decide), (by decide), (by decide), (by decide), (by decide),
    (by decide)⟩

/-- The conditions of clause 25 of ContactorCommands are met. -/
theorem wit_ContactorCommands_25 : ∃ (s : State), (s.dev.asleep = false) ∧ (s.dev.paired = false ∨ s.dev.bit
    Reg.SCC_STAT 0 = false ∨ s.dev.scc.secondDrop = true) :=
  ⟨st [], (by decide), Or.inl (by decide)⟩

/-- The conditions of clause 27 of ContactorCommands are met. -/
theorem wit_ContactorCommands_27 : ∃ (s : State), (s.dev.asleep = false) ∧ (s.dev.scc.diagOff = true) ∧ (s.dev.due
    Tm.diag (msT 10) = true) :=
  ⟨stDiag, rfl, (by decide +kernel), (by decide)⟩

/-- The conditions of clause 28 of ContactorCommands are met. -/
theorem wit_ContactorCommands_28 : ∃ (s : State), (s.dev.asleep = false) ∧ (¬ (s.dev.scc.diagOff = true ∧ s.dev.due
    Tm.diag (msT 10) = true)) :=
  ⟨st [], rfl, (by decide)⟩

/-- The conditions of clauses 1, 2, 6 of SigmaDeltaCommands are met. -/
theorem wit_SigmaDeltaCommands_1 : ∃ (s : State), (s.dev.asleep = false) :=
  ⟨st [], rfl⟩

/-- The conditions of clause 3 of SigmaDeltaCommands are met. -/
theorem wit_SigmaDeltaCommands_3 : ∃ (s : State) (n : BitVec 3) (out : BitVec 11) (f : Int) (e : Dev) (viol : Bool),
    (s.dev.asleep = false) ∧ (s.dev.sdmOn n.toNat = true) ∧ (s.dev.fld (Reg.SDM_CFG n.toNat) 15 10 ≠ 0) ∧
    (s.dev.sdmInv n.toNat = false ∧ s.dev.sdmClock n.toNat = true) ∧ (fracOf out.toNat (s.dev.fld (Reg.SDM_CFG
    n.toNat) 15 10) 2 = f) ∧ (s.dev.setFld (Reg.SDM_FRAC n.toNat) 31 16 (f % 65536).toNat = e) ∧ (e.cmpViolates
    n.toNat f = viol) :=
  ⟨st [(Reg.SDM_CTL, 1), (Reg.SDM_STAT, 0), (Reg.SDM_CFG 0, 0x20004000)], 0, 100, _, _, _, rfl, rfl, (by decide),
    (by decide), rfl, rfl, rfl⟩

/-- The conditions of clause 4 of SigmaDeltaCommands are met. -/
theorem wit_SigmaDeltaCommands_4 : ∃ (s : State) (n : BitVec 3) (out : BitVec 11) (f : Int) (e g : Dev) (c : Nat),
    (s.dev.asleep = false) ∧ (s.dev.sdmOn n.toNat = true) ∧ (s.dev.fld (Reg.SDM_CFG n.toNat) 15 10 ≠ 0) ∧
    (s.dev.sdmInv n.toNat = false ∧ s.dev.sdmClock n.toNat = true) ∧ (fracOf out.toNat (s.dev.fld (Reg.SDM_CFG
    n.toNat) 15 10) 2 = f) ∧ (s.dev.setFld (Reg.SDM_FRAC n.toNat) 31 16 (f % 65536).toNat = e) ∧ (e.cmpViolates
    n.toNat f = true) ∧ (e.bit (Reg.SDM_CFG n.toNat) 4 = true) ∧ ((e.sdmCh n.toNat).count = c) ∧ ((e.setSdm n.toNat
    { e.sdmCh n.toNat with count := satN 16 (c + 1), sampled := true }).cond15 = g) :=
  ⟨st [(Reg.SDM_CTL, 1), (Reg.SDM_STAT, 0), (Reg.SDM_CFG 0, 0x20004010), (Reg.SDM_CMP 0, 0x80008000)], 0, 100, _, _,
    _, _, rfl, rfl, (by decide), (by decide), rfl, rfl, (by decide), rfl, rfl, rfl⟩

/-- The conditions of clause 7 of SigmaDeltaCommands are met. -/
theorem wit_SigmaDeltaCommands_7 : ∃ (n : Nat), (n < 6) :=
  ⟨5, (by decide)⟩

/-- The conditions of clause 8 of SigmaDeltaCommands are met. -/
theorem wit_SigmaDeltaCommands_8 : ∃ (s : State) (src : Writer) (d : Dev), (s.dev.asleep = false) ∧ (s.dev.takes src
    Reg.SDM_CTL = some d) :=
  ⟨st [], .system, _, rfl, rfl⟩

/-- The conditions of clause 1 of CompensatorCommands are met. -/
theorem wit_CompensatorCommands_1 : ∃ (s : State), (s.dev.asleep = false) :=
  ⟨st [], rfl⟩

/-- The conditions of clause 4 of CompensatorCommands are met. -/
theorem wit_CompensatorCommands_4 : ∃ (s : State) (sl : BitVec 3), (s.dev.asleep = false) ∧ (s.dev.slotF sl.toNat 0 22
    20 = 5) ∧ (s.dev.slotTper sl.toNat ≠ 0) ∧ (s.dev.slotTper sl.toNat ≤ (s.dev.tim.tb + 2 ^ 64 - (s.dev.slot
    sl.toNat).tbAt) % 2 ^ 64) :=
  ⟨stSlow, 0, rfl, (by decide), (by decide), (by decide)⟩

/-- The conditions of clause 5 of CompensatorCommands are met. -/
theorem wit_CompensatorCommands_5 : ∃ (s : State) (sl : BitVec 3), (s.dev.asleep = false) ∧ (¬ (s.dev.slotF sl.toNat 0
    22 20 = 5 ∧ s.dev.slotTper sl.toNat ≠ 0 ∧ s.dev.slotTper sl.toNat ≤ (s.dev.tim.tb + 2 ^ 64 - (s.dev.slot
    sl.toNat).tbAt) % 2 ^ 64)) :=
  ⟨st [], 7, rfl, (by decide)⟩

/-- The conditions of clause 7 of CompensatorCommands are met. -/
theorem wit_CompensatorCommands_7 : ∃ (s : State) (sl : BitVec 3), (s.dev.asleep = false) ∧ ((s.dev.slotsNext.slot
    sl.toNat).running = false ∨ (s.dev.slotsNext.slot sl.toNat).waiting = true) :=
  ⟨st [], 7, (by decide), Or.inl (by decide)⟩

/-- The conditions of clause 8 of CompensatorCommands are met. -/
theorem wit_CompensatorCommands_8 : ∃ (s : State) (sl : BitVec 3) (e : Dev) (raw : Int) (f : Bool), (s.dev.asleep =
    false) ∧ (s.dev.slotsNext = e) ∧ ((e.slot sl.toNat).running = true) ∧ ((e.slot sl.toNat).waiting = false) ∧
    (e.slotF sl.toNat 0 30 29 ≠ 2) ∧ (e.pzRaw sl.toNat (e.slot sl.toNat).e = (raw, f)) :=
  ⟨stSlot, 0, _, _, _, rfl, rfl, rfl, rfl, (by decide), rfl⟩

/-- The conditions of clause 9 of CompensatorCommands are met. -/
theorem wit_CompensatorCommands_9 : ∃ (d : Dev) (s : Nat) (lo hi : Int), (d.slotQ s 2 false = lo) ∧ (d.slotQ s 2 true
    = hi) ∧ (d.tinjTerm s 2 = 0) ∧ (lo ≤ hi) :=
  ⟨Dev.reset, 0, _, _, rfl, rfl, rfl, (by decide)⟩

/-- The conditions of clause 10 of CompensatorCommands are met. -/
theorem wit_CompensatorCommands_10 : ∃ (s : State) (src : Writer) (d : Dev), (s.dev.asleep = false) ∧ (s.dev.takes src
    Reg.CE_FLTCLR = some d) :=
  ⟨st [], .system, _, rfl, rfl⟩

/-- The conditions of clause 11 of CompensatorCommands are met. -/
theorem wit_CompensatorCommands_11 : ∃ (s : State) (src : Writer) (d : Dev), (s.dev.asleep = false) ∧ (s.dev.takes src
    Reg.CE_KICK = some d) :=
  ⟨st [], .system, _, rfl, rfl⟩

/-- The conditions of clause 12 of CompensatorCommands are met. -/
theorem wit_CompensatorCommands_12 : ∃ (s : State) (src : Writer) (sl : BitVec 3) (d : Dev), (s.dev.asleep = false) ∧
    (s.dev.takes src (Reg.CE_SLOT sl.toNat 7) = some d) :=
  ⟨st [], .system, 7, _, rfl, rfl⟩

/-- The conditions of clause 13 of CompensatorCommands are met. -/
theorem wit_CompensatorCommands_13 : ∃ (s : State) (src : Writer) (v : Word) (d e : Dev), (s.dev.asleep = false) ∧
    (s.dev.takes src Reg.CE_TINJ = some d) ∧ (d.plainWrite Reg.CE_TINJ (withBit v 31 true) = e) :=
  ⟨st [], .system, 1, _, _, rfl, rfl, rfl⟩

/-- The conditions of clause 14 of CompensatorCommands are met. -/
theorem wit_CompensatorCommands_14 : ∃ (s : State) (src : Writer) (d : Dev), (s.dev.asleep = false) ∧ (s.dev.takes src
    Reg.CE_TINJ = some d) :=
  ⟨st [], .system, _, rfl, rfl⟩

/-- The conditions of clauses 15, 16 of CompensatorCommands are met. -/
theorem wit_CompensatorCommands_15 : ∃ (s : State) (src : Writer) (d : Dev), (s.dev.asleep = false) ∧ (s.dev.takes src
    Reg.CE_TRCCTL = some d) :=
  ⟨st [], .system, _, rfl, rfl⟩

/-- The conditions of clauses 1, 14, 15 of PulseCommands are met. -/
theorem wit_PulseCommands_1 : ∃ (s : State), (s.dev.asleep = false) :=
  ⟨st [], rfl⟩

/-- The conditions of clause 4 of PulseCommands are met. -/
theorem wit_PulseCommands_4 : ∃ (d : Dev), (d.driversOn = false) :=
  ⟨(Dev.reset.wr Reg.TW_STAT 3), (by decide)⟩

/-- The conditions of clause 5 of PulseCommands are met. -/
theorem wit_PulseCommands_5 : ∃ (d : Dev) (p : Nat), (d.driversOn = true) ∧ ((d.pair p).live = false) :=
  ⟨Dev.reset, 0, rfl, rfl⟩

/-- The conditions of clause 6 of PulseCommands are met. -/
theorem wit_PulseCommands_6 : ∃ (d : Dev) (p : Nat) (x : PairSt), (d.driversOn = true) ∧ (d.pair p = x) ∧ (x.live =
    true) ∧ (x.riseAt = (x.rise : Int)) ∧ (x.rise < x.fall) ∧ (x.fallAt = none) :=
  ⟨Dev.setPair Dev.reset 0 { PairSt.idle with live := true, fall := 4 }, 0, _, (by decide), rfl, (by decide),
    (by decide), (by decide), (by decide)⟩

/-- The conditions of clause 8 of PulseCommands are met. -/
theorem wit_PulseCommands_8 : ∃ (s : State) (p : BitVec 2), (s.dev.asleep = false) ∧ ((s.dev.pair p.toNat).per ≠ 0) ∧
    ((s.dev.pair p.toNat).wait = none) :=
  ⟨⟨[], Dev.setPair (dv [(Reg.PWM_CFG 0, 3)]) 0 { PairSt.idle with per := 4 }⟩, 0, rfl, (by decide), rfl⟩

/-- The conditions of clause 9 of PulseCommands are met. -/
theorem wit_PulseCommands_9 : ∃ (s : State) (p : BitVec 2), (s.dev.asleep = false) ∧ ((s.dev.pair p.toNat).per = 0 ∨
    (s.dev.pair p.toNat).wait ≠ none) :=
  ⟨st [], 3, (by decide), Or.inl (by decide)⟩

/-- The conditions of clause 10 of PulseCommands are met. -/
theorem wit_PulseCommands_10 : ∃ (s : State) (src : Writer) (p : BitVec 2) (d : Dev), (s.dev.asleep = false) ∧
    (s.dev.takes src (Reg.PWM_PER p.toNat) = some d) :=
  ⟨st [], .system, 3, _, rfl, rfl⟩

/-- The conditions of clause 11 of PulseCommands are met. -/
theorem wit_PulseCommands_11 : ∃ (s : State) (src : Writer) (d : Dev), (s.dev.asleep = false) ∧ (s.dev.takes src
    Reg.PWM_CTL = some d) :=
  ⟨st [], .system, _, rfl, rfl⟩

/-- The conditions of clause 12 of PulseCommands are met. -/
theorem wit_PulseCommands_12 : ∃ (d : Dev) (v : Word) (e : Dev), (bitOf v 8 = true) ∧ (d.fld Reg.PWM_CTL 3 0 = 0) ∧
    ((d.plainWrite Reg.PWM_CTL v).updateBlk = e) :=
  ⟨Dev.reset, 0x100, _, rfl, rfl, rfl⟩

/-- The conditions of clause 13 of PulseCommands are met. -/
theorem wit_PulseCommands_13 : ∃ (d : Dev) (p ph : Nat), (d.fld (Reg.PWM_PH p) 19 0 % max 1 (d.fld (Reg.PWM_PER p) 19
    0) = ph) :=
  ⟨Dev.reset, 3, _, rfl⟩

/-- The conditions of clause 16 of PulseCommands are met. -/
theorem wit_PulseCommands_16 : ∃ (s : State) (src : Writer) (d : Dev), (s.dev.asleep = false) ∧ (s.dev.takes src
    Reg.PWM_BLKCLR = some d) :=
  ⟨st [], .system, _, rfl, rfl⟩

/-- The conditions of clause 1 of EstimatorCommands are met. -/
theorem wit_EstimatorCommands_1 : ∃ (s : State), (s.dev.asleep = false) ∧ (s.dev.pwr.full = false ∨ s.dev.leads =
    false ∨ s.dev.bit Reg.PWR_STAT 6 = true ∨ (s.dev.rd Reg.SWP_COUNT).toNat = s.dev.est.lastCount) :=
  ⟨st [], (by decide), Or.inl (by decide)⟩

/-- The conditions of clause 2 of EstimatorCommands are met. -/
theorem wit_EstimatorCommands_2 : ∃ (s : State), (s.dev.asleep = false) ∧ (s.dev.pwr.full = false ∨ s.dev.leads =
    false ∨ s.dev.manages estBlock = false ∨ s.dev.estReady = false ∨ s.dev.pv Par.CORINT = 0 ∨ s.dev.now <
    s.dev.est.corTick + secT (s.dev.pv Par.CORINT)) :=
  ⟨st [], (by decide), Or.inl (by decide)⟩

/-- The conditions of clause 3 of EstimatorCommands are met. -/
theorem wit_EstimatorCommands_3 : ∃ (s : State) (e : Dev), (s.dev.asleep = false) ∧ (s.dev.pwr.full = true) ∧
    (s.dev.leads = true) ∧ (s.dev.bit Reg.PWR_STAT 6 = false) ∧ ((s.dev.rd Reg.SWP_COUNT).toNat ≠ s.dev.est.lastCount)
    ∧ (({ s.dev with est := { s.dev.est with lastCount := (s.dev.rd Reg.SWP_COUNT).toNat } } : Dev).thruAdd = e) :=
  ⟨stEst, _, (by decide), (by decide), (by decide), (by decide), (by decide), rfl⟩

/-- The conditions of clause 5 of EstimatorCommands are met. -/
theorem wit_EstimatorCommands_5 : ∃ (d : Dev) (q dq ns i : Int) (tick : Nat), 
    (d.qlat1 = q) ∧
    (d.swp.lastIssue.getD d.now = tick) ∧
    ((match d.est.lastQ with | some p => q - p | none => 0) = dq) ∧
    ((match d.est.lastQ with | some _ => 8 * ((tick - d.est.lastTick : Nat) : Int) | none => 0) = ns) ∧
    (d.rdI Reg.EST_ILAT1 = i) :=
  ⟨Dev.reset, _, _, _, _, _, rfl, rfl, rfl, rfl, rfl⟩

/-- The conditions of clause 7 of EstimatorCommands are met. -/
theorem wit_EstimatorCommands_7 : ∃ (s : State) (calm : Bool), (s.dev.asleep = false) ∧ (s.dev.pwr.full = true) ∧
    (s.dev.leads = true) ∧ (s.dev.manages estBlock = true) ∧ (s.dev.estReady = true) ∧ (s.dev.pv Par.CORINT ≠ 0) ∧
    (s.dev.est.corTick + secT (s.dev.pv Par.CORINT) ≤ s.dev.now) ∧ ((decide (s.dev.est.corAbs * 360 ≤ s.dev.est.corN *
    s.dev.pv Par.ICORMAX * s.dev.pv Par.QNOM) && s.dev.est.corN != 0 && s.dev.pv Par.ICORMAX != 0) = calm) :=
  ⟨stEst2, _, (by decide), (by decide), (by decide), (by decide), (by decide +kernel), (by decide +kernel),
    (by decide +kernel), rfl⟩

/-- The conditions of clause 8 of EstimatorCommands are met. -/
theorem wit_EstimatorCommands_8 : ∃ (s : State) (src : Writer) (d : Dev), (s.dev.asleep = false) ∧ (s.dev.takes src
    Reg.EST_PUB = some d) :=
  ⟨st [], .system, _, rfl, rfl⟩

/-- The conditions of clause 9 of EstimatorCommands are met. -/
theorem wit_EstimatorCommands_9 : ∃ (d : Dev) (a b c e : Word), (d.est.pubd = [a, b, c, e]) :=
  ⟨{ Dev.reset with est := { Dev.reset.est with pubd := [1, 2, 3, 4] } }, 1, 2, 3, 4, rfl⟩

/-- The conditions of clause 10 of EstimatorCommands are met. -/
theorem wit_EstimatorCommands_10 : ∃ (d : Dev), (d.est.pubd = []) :=
  ⟨Dev.reset, rfl⟩

/-- The conditions of clause 11 of EstimatorCommands are met. -/
theorem wit_EstimatorCommands_11 : ∃ (s : State), (s.dev.asleep = false) ∧ (s.dev.fld Reg.EST_PUBTO 15 0 ≠ 0) ∧
    (s.dev.bit Reg.EST_STAT 2 = false) ∧ (s.dev.due Tm.pub (msT (s.dev.fld Reg.EST_PUBTO 15 0)) = true) :=
  ⟨stPub, rfl, (by decide), rfl, rfl⟩

/-- The conditions of clause 12 of EstimatorCommands are met. -/
theorem wit_EstimatorCommands_12 : ∃ (s : State), (s.dev.asleep = false) ∧ (¬ (s.dev.fld Reg.EST_PUBTO 15 0 ≠ 0 ∧
    s.dev.bit Reg.EST_STAT 2 = false ∧ s.dev.due Tm.pub (msT (s.dev.fld Reg.EST_PUBTO 15 0)) = true)) :=
  ⟨st [(Reg.EST_STAT, 4)], rfl, (by decide)⟩

/-- The conditions of clause 13 of EstimatorCommands are met. -/
theorem wit_EstimatorCommands_13 : ∃ (s : State), (s.dev.asleep = false) ∧ (s.dev.pwr.full = true) ∧ (s.dev.leads =
    true) ∧ (s.dev.manages estBlock = true) ∧ (s.dev.bit Reg.EST_CTL 1 = false) ∧ (s.dev.pv Par.TSTARVE ≠ 0) ∧
    (s.dev.bit Reg.EST_FLAGS 6 = false) ∧ (s.dev.est.expired = true ∨ s.dev.est.qualAt + 3600 * s.dev.pv Par.TSTARVE ≤
    s.dev.opSec) :=
  ⟨stStarve, (by decide), (by decide), (by decide), (by decide), (by decide), (by decide +kernel), (by decide),
    Or.inl (by decide)⟩

/-- The conditions of clause 14 of EstimatorCommands are met. -/
theorem wit_EstimatorCommands_14 : ∃ (s : State), (s.dev.asleep = false) ∧ (s.dev.bit Reg.EST_FLAGS 6 = true ∨
    s.dev.pv Par.TSTARVE = 0) :=
  ⟨st [(Reg.EST_FLAGS, 64)], (by decide), Or.inl (by decide)⟩

/-- The conditions of clause 1 of ImpedanceCommands are met. -/
theorem wit_ImpedanceCommands_1 : ∃ (s : State) (i : Inj), (s.dev.asleep = false) ∧ (s.dev.imp.inj = some i) :=
  ⟨stInj, _, rfl, rfl⟩

/-- The conditions of clause 2 of ImpedanceCommands are met. -/
theorem wit_ImpedanceCommands_2 : ∃ (s : State), (s.dev.asleep = false) ∧ (s.dev.imp.inj = none) :=
  ⟨st [], rfl, rfl⟩

/-- The conditions of clause 3 of ImpedanceCommands are met. -/
theorem wit_ImpedanceCommands_3 : ∃ (s : State), (s.dev.asleep = false) ∧ (s.dev.imp.pub = none) :=
  ⟨st [], rfl, rfl⟩

/-- The conditions of clause 4 of ImpedanceCommands are met. -/
theorem wit_ImpedanceCommands_4 : ∃ (s : State) (i : Int) (nc : Bool) (buf : Nat) (e : Dev), (s.dev.asleep = false) ∧
    (s.dev.imp.pub = some (i, nc, buf)) ∧ ({ s.dev with imp := { s.dev.imp with pub := none } } = e) :=
  ⟨stBin, _, _, _, _, rfl, rfl, rfl⟩

/-- The conditions of clause 5 of ImpedanceCommands are met. -/
theorem wit_ImpedanceCommands_5 : ∃ (s : State) (src : Writer) (d : Dev), (s.dev.asleep = false) ∧ (s.dev.takes src
    Reg.IMP_CTL = some d) :=
  ⟨st [], .system, _, rfl, rfl⟩

/-- The conditions of clause 6 of ImpedanceCommands are met. -/
theorem wit_ImpedanceCommands_6 : ∃ (s : State) (src : Writer) (b : BitVec 4) (w : BitVec 2) (v : Word) (d e : Dev),
    (s.dev.asleep = false) ∧ (s.dev.takes src (Reg.IMP_BIN b.toNat w.toNat) = some d) ∧ (d.plainWrite (Reg.IMP_BIN
    b.toNat w.toNat) v = e) :=
  ⟨st [], .system, 15, 3, 5, _, _, rfl, rfl, rfl⟩

/-- The conditions of clause 7 of ImpedanceCommands are met. -/
theorem wit_ImpedanceCommands_7 : ∃ (s : State), (s.dev.asleep = false) ∧ (s.dev.pwr.full = false ∨ s.dev.manages
    (blockOf Reg.IMP_CTL) = false) :=
  ⟨st [], (by decide), Or.inl (by decide)⟩

/-- The conditions of clause 8 of ImpedanceCommands are met. -/
theorem wit_ImpedanceCommands_8 : ∃ (s : State), (s.dev.asleep = false) ∧ (s.dev.pwr.full = true) ∧ (s.dev.manages
    (blockOf Reg.IMP_CTL) = true) ∧ (s.dev.fld Reg.IMP_DONE 15 0 = 0) :=
  ⟨stFull [], rfl, rfl, rfl, rfl⟩

/-- The conditions of clause 9 of ImpedanceCommands are met. -/
theorem wit_ImpedanceCommands_9 : ∃ (s : State) (a b c : Dev), (s.dev.asleep = false) ∧ (s.dev.pwr.full = true) ∧
    (s.dev.manages (blockOf Reg.IMP_CTL) = true) ∧ (s.dev.fld Reg.IMP_DONE 15 0 ≠ 0) ∧ ((List.range 16).foldl (fun (d
    : Dev) n => d.impCollect n) s.dev = a) ∧ (a.known.foldl (fun (d : Dev) e => d.fitCell e.1 e.2) a = b) ∧
    (b.known.foldl (fun (d : Dev) e => d.inferCell e.1 e.2) b = c) :=
  ⟨stFit, _, _, _, (by decide), (by decide), (by decide), (by decide), rfl, rfl, rfl⟩

/-- The conditions of clause 10 of ImpedanceCommands are met. -/
theorem wit_ImpedanceCommands_10 : ∃ (s : State), (s.dev.asleep = false) ∧ (s.dev.pwr.full = false ∨ s.dev.bit
    Reg.TT_STAT 5 = false ∨ s.dev.opSec < s.dev.est.dayAt + 86400 ∨ s.dev.manages (blockOf Reg.IMP_CTL) = false) :=
  ⟨st [], (by decide), Or.inl (by decide)⟩

/-- The conditions of clause 11 of ImpedanceCommands are met. -/
theorem wit_ImpedanceCommands_11 : ∃ (s : State), (s.dev.asleep = false) ∧ (s.dev.pwr.full = true) ∧ (s.dev.bit
    Reg.TT_STAT 5 = true) ∧ (s.dev.est.dayAt + 86400 ≤ s.dev.opSec) ∧ (s.dev.manages (blockOf Reg.IMP_CTL) = true) :=
  ⟨stDay, rfl, rfl, rfl, (by decide), rfl⟩

/-- The conditions of clause 1 of DispatchCommands are met. -/
theorem wit_DispatchCommands_1 : ∃ (s : State) (src : Writer) (m w : BitVec 2) (d : Dev), (s.dev.asleep = false) ∧
    (s.dev.takes src (Reg.DSP_MB m.toNat w.toNat) = some d) :=
  ⟨st [], .system, 3, 1, _, rfl, rfl⟩

/-- The conditions of clause 2 of DispatchCommands are met. -/
theorem wit_DispatchCommands_2 : ∃ (s : State) (src : Writer) (m : BitVec 2) (d : Dev), (s.dev.asleep = false) ∧
    (s.dev.takes src (Reg.DSP_MB m.toNat 0) = some d) :=
  ⟨st [], .system, 3, _, rfl, rfl⟩

/-- The conditions of clause 3 of DispatchCommands are met. -/
theorem wit_DispatchCommands_3 : ∃ (d : Dev) (m : Nat) (v : Word) (st : Nat → Word) (a b : Dev), (bitOf (d.mbW m 0) 31
    = false) ∧ ((fun w => (getO d.dsp.stage (4 * m + w)).getD (d.mbW m w)) = st) ∧ ((List.range 4).foldl (fun (d :
    Dev) w => d.wr (Reg.DSP_MB m w) (([v &&& 0xE000FFFF, st 1, st 2, st 3 &&& 0x3FFFFFFF][w]?).getD 0)) d = a) ∧
    (Dev.start (Dev.setBit
    { a with dsp := { a.dsp with stage := (List.range 4).foldl (fun l w => putO l (4 * m + w) none) a.dsp.stage, tfull := putN a.dsp.tfull m (a.fullSec (a.mbW m 2)) } }
    Reg.DSP_STAT 4 false) Tm.mailbox = b) ∧ (b.hasShade = false) :=
  ⟨Dev.reset, 0, 0x80000001, _, _, _, rfl, rfl, rfl, rfl, rfl⟩

/-- The conditions of clause 5 of DispatchCommands are met. -/
theorem wit_DispatchCommands_5 : ∃ (s : State) (e f : Dev), (s.dev.asleep = false) ∧ ((if s.dev.manages (blockOf
    Reg.CE_CTL) = false then s.dev else (s.dev.wr Reg.CE_DSPREF (iw s.dev.slewNext)).slewing) = e) ∧ ((if e.dspBasic =
    true ∧ e.rotState = 2 ∧ e.rd Reg.CE_DSPREF = 0 then e.rotSet 3 0 else e) = f) :=
  ⟨st [], _, _, rfl, rfl, rfl⟩

/-- The conditions of clause 6 of DispatchCommands are met. -/
theorem wit_DispatchCommands_6 : ∃ (d : Dev) (r cur t : Int), ((d.fld (if d.rotState = 2 || d.rotState = 4 then
    Reg.DSP_ROTSLEW else Reg.DSP_SLEW) 23 0 : Int) = r) ∧ (d.rdI Reg.CE_DSPREF = cur) ∧ (d.rdI Reg.DSP_TARGET = t) :=
  ⟨Dev.reset, _, _, _, rfl, rfl, rfl⟩

/-- The conditions of clause 7 of DispatchCommands are met. -/
theorem wit_DispatchCommands_7 : ∃ (s : State), (s.dev.asleep = false) ∧ (s.dev.fld Reg.DSP_MBTO 15 0 ≠ 0) ∧
    (s.dev.bit Reg.DSP_STAT 4 = false) ∧ (s.dev.due Tm.mailbox (msT (s.dev.fld Reg.DSP_MBTO 15 0)) = true) :=
  ⟨stMbto, rfl, (by decide), rfl, (by decide +kernel)⟩

/-- The conditions of clause 8 of DispatchCommands are met. -/
theorem wit_DispatchCommands_8 : ∃ (s : State), (s.dev.asleep = false) ∧ (¬ (s.dev.fld Reg.DSP_MBTO 15 0 ≠ 0 ∧
    s.dev.bit Reg.DSP_STAT 4 = false ∧ s.dev.due Tm.mailbox (msT (s.dev.fld Reg.DSP_MBTO 15 0)) = true)) :=
  ⟨st [(Reg.DSP_STAT, 16)], rfl, (by decide +kernel)⟩

/-- The conditions of clause 9 of DispatchCommands are met. -/
theorem wit_DispatchCommands_9 : ∃ (s : State) (src : Writer) (v : Word) (d e : Dev), (s.dev.asleep = false) ∧
    (s.dev.takes src Reg.DSP_CTL = some d) ∧ ((d.plainWrite Reg.DSP_CTL (withBit v 1 true)).reform.cond10 = e) :=
  ⟨st [], .system, 2, _, _, rfl, rfl, rfl⟩

/-- The conditions of clauses 3, 6, 7 of PlantCommands are met. -/
theorem wit_PlantCommands_3 : ∃ (s : State) (h : PlantHead) (e : Dev), (s.dev.asleep = false) ∧ (s.dev.plantRead h =
    e) :=
  ⟨st [], .can 0, _, rfl, rfl⟩

/-- The conditions of clause 4 of PlantCommands are met. -/
theorem wit_PlantCommands_4 : ∃ (s : State), (s.dev.asleep = false) ∧ (s.dev.dspBasic = true) ∧ (s.dev.leads = true)
    :=
  ⟨stFull [], rfl, rfl, rfl⟩

/-- The conditions of clause 5 of PlantCommands are met. -/
theorem wit_PlantCommands_5 : ∃ (s : State), (s.dev.asleep = false) ∧ (s.dev.dspBasic = false) :=
  ⟨st [], rfl, rfl⟩

/-- The conditions of clause 8 of PlantCommands are met. -/
theorem wit_PlantCommands_8 : ∃ (s : State), (s.dev.asleep = false) ∧ (s.dev.dspBasic = true) ∧ (s.dev.leads = true) ∧
    (s.dev.rotState = 1) ∧ (s.dev.due Tm.rotReq (secT 10) = true) :=
  ⟨stRot, rfl, (by decide), rfl, rfl, (by decide +kernel)⟩

/-- The conditions of clause 9 of PlantCommands are met. -/
theorem wit_PlantCommands_9 : ∃ (s : State), (s.dev.asleep = false) ∧ (¬ (s.dev.dspBasic = true ∧ s.dev.leads = true ∧
    s.dev.rotState = 1 ∧ s.dev.due Tm.rotReq (secT 10) = true)) :=
  ⟨st [], rfl, (by decide +kernel)⟩

/-- The conditions of clause 10 of PlantCommands are met. -/
theorem wit_PlantCommands_10 : ∃ (s : State), (s.dev.asleep = false) ∧ (s.dev.dspBasic = true) ∧ (s.dev.leads = true)
    ∧ (s.dev.rotState = 1) ∧ (s.dev.due Tm.rotWin (secT (s.dev.fld Reg.DSP_ROTTO 15 0)) = true) :=
  ⟨stRot, rfl, (by decide), rfl, (by decide +kernel), rfl⟩

/-- The conditions of clause 11 of PlantCommands are met. -/
theorem wit_PlantCommands_11 : ∃ (s : State), (s.dev.asleep = false) ∧ (¬ (s.dev.dspBasic = true ∧ s.dev.leads = true
    ∧ s.dev.rotState = 1 ∧ s.dev.due Tm.rotWin (secT (s.dev.fld Reg.DSP_ROTTO 15 0)) = true)) :=
  ⟨st [], rfl, (by decide +kernel)⟩

/-- The conditions of clause 12 of PlantCommands are met. -/
theorem wit_PlantCommands_12 : ∃ (s : State), (s.dev.asleep = false) ∧ (s.dev.dspBasic = true) ∧ (s.dev.rotState = 3)
    ∧ (s.dev.due Tm.rotWin (secT (s.dev.pv Par.TRELAX + 300)) = true) :=
  ⟨stRest, rfl, (by decide), rfl, (by decide)⟩

/-- The conditions of clause 13 of PlantCommands are met. -/
theorem wit_PlantCommands_13 : ∃ (s : State), (s.dev.asleep = false) ∧ (¬ (s.dev.dspBasic = true ∧ s.dev.rotState = 3
    ∧ s.dev.due Tm.rotWin (secT (s.dev.pv Par.TRELAX + 300)) = true)) :=
  ⟨st [], rfl, (by decide)⟩

/-- The conditions of clause 14 of PlantCommands are met. -/
theorem wit_PlantCommands_14 : ∃ (s : State), (s.dev.asleep = false) ∧ (s.dev.est.reasons = [] ∨ s.dev.leads = false ∨
    s.dev.pwr.full = false) :=
  ⟨st [], (by decide), Or.inl (by decide)⟩

/-- The conditions of clause 15 of PlantCommands are met. -/
theorem wit_PlantCommands_15 : ∃ (s : State), (s.dev.asleep = false) ∧ (s.dev.stoBusy = true) :=
  ⟨stStoBusy, rfl, rfl⟩

/-- The conditions of clause 16 of PlantCommands are met. -/
theorem wit_PlantCommands_16 : ∃ (s : State) (r : Nat) (t : List Nat), (s.dev.asleep = false) ∧ (s.dev.est.reasons = r
    :: t) ∧ (s.dev.leads = true) ∧ (s.dev.pwr.full = true) ∧ (s.dev.stoBusy = false) :=
  ⟨stSto, _, _, (by decide), rfl, rfl, rfl, rfl⟩

/-- The conditions of clause 17 of PlantCommands are met. -/
theorem wit_PlantCommands_17 : ∃ (s : State), (s.dev.asleep = false) ∧ (s.dev.pwr.full = true) ∧ (s.dev.leads = true)
    ∧ (s.dev.pv Par.STOINT ≠ 0) ∧ ((s.dev.est.wroteAt.getD 0) + 1000 * s.dev.pv Par.STOINT ≤ s.dev.opMs) ∧
    (s.dev.est.reasons.contains 1 = false) :=
  ⟨stStoInt, (by decide), (by decide), (by decide), (by decide +kernel), (by decide +kernel), (by decide)⟩

/-- The conditions of clauses 18, 20 of PlantCommands are met. -/
theorem wit_PlantCommands_18 : ∃ (s : State), (s.dev.asleep = false) :=
  ⟨st [], rfl⟩

/-- The conditions of clause 19 of PlantCommands are met. -/
theorem wit_PlantCommands_19 : ∃ (d e : Dev), (d.transOpen = e) :=
  ⟨Dev.reset, _, rfl⟩

/-- The conditions of clause 1 of MotionCommands are met. -/
theorem wit_MotionCommands_1 : ∃ (s : State) (src : Writer) (n : BitVec 2) (d : Dev), (s.dev.asleep = false) ∧
    (s.dev.takes src (Reg.MOT_TFDCFG n.toNat) = some d) :=
  ⟨st [], .system, 3, _, rfl, rfl⟩

/-- The conditions of clause 2 of MotionCommands are met. -/
theorem wit_MotionCommands_2 : ∃ (s : State), (s.dev.asleep = false) :=
  ⟨st [], rfl⟩

/-- The conditions of clause 3 of MotionCommands are met. -/
theorem wit_MotionCommands_3 : ∃ (s : State) (f : BitVec 2) (q p : Nat) (e : Dev), (s.dev.asleep = false) ∧ (s.dev.fld
    (Reg.MOT_FANCFG f.toNat) 27 24 = q) ∧ (q ≠ 0) ∧ (s.dev.running (Tm.tach f.toNat) = true) ∧ (s.dev.since (Tm.tach
    f.toNat) / 125 = p) ∧ (p ≠ 0) ∧ (((s.dev.start (Tm.tach f.toNat)).setFld (Reg.MOT_FANRPM f.toNat) 15 0 (satN 65535
    (60000000 / (p * q)))).fanWatch f.toNat = e) :=
  ⟨stTach, 0, _, _, _, rfl, rfl, (by decide), rfl, rfl, (by decide), rfl⟩

/-- The conditions of clause 4 of MotionCommands are met. -/
theorem wit_MotionCommands_4 : ∃ (s : State) (f : BitVec 2) (e : Dev) (t low : Nat), (s.dev.asleep = false) ∧
    (s.dev.fanWatch f.toNat = e) ∧ (msT (e.fld (Reg.MOT_FANSUP f.toNat) 15 0) = t) ∧ ((if e.running (Tm.tach f.toNat)
    = true ∧ e.fld (Reg.MOT_FANSUP f.toNat) 31 16 ≤ e.fld (Reg.MOT_FANRPM f.toNat) 15 0 then e.since (Tm.tach f.toNat)
    - secT 1 else e.since (Tm.slow f.toNat)) = low) :=
  ⟨st [], 3, _, _, _, rfl, rfl, rfl, rfl⟩

/-- The conditions of clause 5 of MotionCommands are met. -/
theorem wit_MotionCommands_5 : ∃ (s : State), (s.dev.asleep = false) ∧ (s.dev.bit Reg.MOT_CTL 0 = true) ∧
    (s.dev.shedding = false) ∧ (s.dev.fld Reg.MOT_SERVO 23 0 ≠ 0) ∧ (s.dev.running Tm.servo = false ∨ s.dev.due
    Tm.servo (usT (s.dev.fld Reg.MOT_SERVO 23 0)) = true) :=
  ⟨stServo, (by decide), (by decide), (by decide), (by decide), Or.inl (by decide)⟩

/-- The conditions of clause 6 of MotionCommands are met. -/
theorem wit_MotionCommands_6 : ∃ (s : State), (s.dev.asleep = false) ∧ (¬ (s.dev.bit Reg.MOT_CTL 0 = true ∧
    s.dev.shedding = false ∧ s.dev.fld Reg.MOT_SERVO 23 0 ≠ 0 ∧ (s.dev.running Tm.servo = false ∨ s.dev.due Tm.servo
    (usT (s.dev.fld Reg.MOT_SERVO 23 0)) = true))) :=
  ⟨st [], rfl, (by decide)⟩

/-- The conditions of clause 8 of MotionCommands are met. -/
theorem wit_MotionCommands_8 : ∃ (s : State) (a : BitVec 2), (s.dev.asleep = false) ∧ (s.dev.bit Reg.MOT_CTL 0 = false
    ∨ s.dev.shedding = true ∨ s.dev.axMoving a.toNat = false ∨ s.dev.bit (Reg.MOT_CFG a.toNat) 30 = true ∨ (s.dev.axis
    a.toNat).v = 0 ∨ s.dev.fld Reg.MOT_SRMAX 17 0 = 0 ∨ s.dev.fld Reg.MOT_SERVO 23 0 = 0 ∨ s.dev.dirLead a.toNat =
    true ∨ (s.dev.axis a.toNat).stepDue = none) :=
  ⟨st [], 3, (by decide), Or.inl (by decide)⟩

/-- The conditions of clause 9 of MotionCommands are met. -/
theorem wit_MotionCommands_9 : ∃ (s : State) (a : BitVec 2) (q : Nat), (s.dev.asleep = false) ∧ ((s.dev.axis
    a.toNat).stepDue = some q) ∧ (2 * s.dev.now < q) :=
  ⟨stStepWait, 0, 5, (by decide), (by decide), (by decide)⟩

/-- The conditions of clause 10 of MotionCommands are met. -/
theorem wit_MotionCommands_10 : ∃ (s : State) (a : BitVec 2) (q k : Nat) (e f : Dev), (s.dev.asleep = false) ∧
    (s.dev.bit Reg.MOT_CTL 0 = true) ∧ (s.dev.shedding = false) ∧ (s.dev.axMoving a.toNat = true) ∧ (s.dev.bit
    (Reg.MOT_CFG a.toNat) 30 = false) ∧ ((s.dev.axis a.toNat).v ≠ 0) ∧ (s.dev.fld Reg.MOT_SRMAX 17 0 ≠ 0) ∧ (s.dev.fld
    Reg.MOT_SERVO 23 0 ≠ 0) ∧ ((s.dev.axis a.toNat).stepDue = some q) ∧ (q ≤ 2 * s.dev.now) ∧ (s.dev.dirLead a.toNat =
    false) ∧ (s.dev.limitCheck a.toNat = e) ∧ (e.axMoving a.toNat = true) ∧ ((e.axis a.toNat).v ≠ 0) ∧ (e.stepExp
    a.toNat = k) ∧ ((e.setFld (Reg.MOT_ST a.toNat) 27 25 k).stepReload a.toNat q = f) :=
  ⟨stStep, 0, 0, _, _, _, (by decide), (by decide), (by decide), (by decide), (by decide), (by decide), (by decide),
    (by decide), (by decide), (by decide), (by decide), rfl, (by decide +kernel), (by decide +kernel), rfl, rfl⟩

/-- The conditions of clause 11 of MotionCommands are met. -/
theorem wit_MotionCommands_11 : ∃ (d : Dev) (a : Nat) (x : AxisSt) (w : Bool), (d.axis a = x) ∧ ((decide (x.v > 0) !=
    d.bit (Reg.MOT_CFG a) 28) = w) :=
  ⟨Dev.reset, 0, _, _, rfl, rfl⟩

/-- The conditions of clause 12 of MotionCommands are met. -/
theorem wit_MotionCommands_12 : ∃ (d : Dev) (a : Nat) (n : Int) (e : Dev), (d.axMove a n = e) :=
  ⟨Dev.reset, 0, 1, _, rfl⟩

/-- The conditions of clause 14 of MotionCommands are met. -/
theorem wit_MotionCommands_14 : ∃ (s : State) (a : BitVec 2), (s.dev.asleep = false) ∧ (s.dev.axMode1 a.toNat = false
    ∨ s.dev.canLive 1 = false) :=
  ⟨st [], 3, (by decide), Or.inl (by decide)⟩

/-- The conditions of clause 15 of MotionCommands are met. -/
theorem wit_MotionCommands_15 : ∃ (s : State) (a : BitVec 2) (e : Dev) (x : AxisSt), (s.dev.asleep = false) ∧
    (s.dev.axMode1 a.toNat = true) ∧ (s.dev.canLive 1 = true) ∧ (s.dev.canTaken 1 (121 + 2 * a.toNat) = e) ∧ (e.axis
    a.toNat = x) :=
  ⟨stMode1, 0, _, _, rfl, rfl, rfl, rfl, rfl⟩

/-- The conditions of clause 16 of MotionCommands are met. -/
theorem wit_MotionCommands_16 : ∃ (s : State) (src : Writer) (a : BitVec 2) (d : Dev), (s.dev.asleep = false) ∧
    (s.dev.takes src (Reg.MOT_TGT a.toNat) = some d) :=
  ⟨st [], .system, 3, _, rfl, rfl⟩

/-- The conditions of clauses 18, 20, 21 of MotionCommands are met. -/
theorem wit_MotionCommands_18 : ∃ (s : State) (src : Writer) (a : BitVec 2) (d : Dev), (s.dev.asleep = false) ∧
    (s.dev.takes src (Reg.MOT_CMD a.toNat) = some d) :=
  ⟨st [], .system, 3, _, rfl, rfl⟩

/-- The conditions of clause 19 of MotionCommands are met. -/
theorem wit_MotionCommands_19 : ∃ (s : State) (src : Writer) (a : BitVec 2) (d e : Dev), (s.dev.asleep = false) ∧
    (s.dev.takes src (Reg.MOT_CMD a.toNat) = some d) ∧ ((if d.axState a.toNat = 2 then d.axSet a.toNat 1 else d) = e)
    :=
  ⟨st [], .system, 3, _, _, rfl, rfl, rfl⟩

/-- The conditions of clause 1 of CyclicCommands are met. -/
theorem wit_CyclicCommands_1 : ∃ (s : State), (s.dev.asleep = false) ∧ (s.dev.bit Reg.CYC_CTL 3 = true) ∧ (s.dev.fld
    Reg.CYC_PERIOD 19 0 ≠ 0) ∧ (s.dev.tim.tb % s.dev.fld Reg.CYC_PERIOD 19 0 = 0) ∧ (s.dev.tim.tbFrac < s.dev.timEff)
    :=
  ⟨stPer, rfl, rfl, (by decide), rfl, (by decide)⟩

/-- The conditions of clause 2 of CyclicCommands are met. -/
theorem wit_CyclicCommands_2 : ∃ (s : State), (s.dev.asleep = false) ∧ (¬ (s.dev.bit Reg.CYC_CTL 3 = true ∧ s.dev.fld
    Reg.CYC_PERIOD 19 0 ≠ 0 ∧ s.dev.tim.tb % s.dev.fld Reg.CYC_PERIOD 19 0 = 0 ∧ s.dev.tim.tbFrac < s.dev.timEff)) :=
  ⟨st [], rfl, (by decide)⟩

/-- The conditions of clause 4 of CyclicCommands are met. -/
theorem wit_CyclicCommands_4 : ∃ (s : State) (p : Image) (x : List Byte × List Byte × List Byte × List Byte) (d e :
    Dev), (s.dev.asleep = false) ∧ (s.dev.cyc.image = some p) ∧ (s.dev.cyc.phase = .copy) ∧ (s.dev.tw.imgWait = false)
    ∧ (s.dev.role ≠ 2) ∧ (s.dev.due Tm.copy (s.dev.copyTicks p) = true) ∧ (s.dev.imageBytes p = (x, d)) ∧
    ((d.imageStore x).inputForces = e) ∧ (e.shadeInStep = false) :=
  ⟨stCopy, _, _, _, _, rfl, rfl, rfl, rfl, (by decide), (by decide +kernel), rfl, rfl, rfl⟩

/-- The conditions of clause 5 of CyclicCommands are met. -/
theorem wit_CyclicCommands_5 : ∃ (s : State), (s.dev.asleep = false) ∧ (s.dev.cyc.image = none ∨ s.dev.cyc.phase ≠
    .copy ∨ s.dev.tw.imgWait = true ∨ s.dev.role = 2) :=
  ⟨st [], (by decide), Or.inl (by decide)⟩

/-- The conditions of clauses 6, 7, 8 of CyclicCommands are met. -/
theorem wit_CyclicCommands_6 : ∃ (s : State) (src : Writer) (d : Dev), (s.dev.asleep = false) ∧ (s.dev.takes src
    Reg.CYC_CTL = some d) :=
  ⟨st [], .system, _, rfl, rfl⟩

/-- The conditions of clause 10 of CyclicCommands are met. -/
theorem wit_CyclicCommands_10 : ∃ (s : State) (src : Writer) (n : Byte) (w : BitVec 2) (d : Dev), (s.dev.asleep =
    false) ∧ (s.dev.takes src (Reg.CYC_FORCE n.toNat w.toNat) = some d) :=
  ⟨st [], .system, 255, 3, _, rfl, rfl⟩

/-- The conditions of clause 11 of CyclicCommands are met. -/
theorem wit_CyclicCommands_11 : ∃ (s : State) (src : Writer) (n : Byte) (d : Dev), (s.dev.asleep = false) ∧
    (s.dev.takes src (Reg.CYC_FORCE n.toNat 1) = some d) :=
  ⟨st [], .system, 255, _, rfl, rfl⟩

/-- The conditions of clause 12 of CyclicCommands are met. -/
theorem wit_CyclicCommands_12 : ∃ (s : State) (old new : Image), (s.dev.asleep = false) ∧ (s.dev.cyc.image = some old)
    ∧ (s.dev.cyc.armed = some new) ∧ (s.dev.cycState = 4) ∧ (s.dev.due Tm.switch (switchTicks old new) = true) :=
  ⟨stSwitch, _, _, rfl, rfl, rfl, rfl, (by decide +kernel)⟩

/-- The conditions of clause 13 of CyclicCommands are met. -/
theorem wit_CyclicCommands_13 : ∃ (s : State), (s.dev.asleep = false) ∧ (s.dev.cyc.armed = none ∨ s.dev.cycState ≠ 4)
    :=
  ⟨st [], (by decide), Or.inl (by decide)⟩

/-- The conditions of clauses 1, 2, 3, 4, 5, 6, 7 of SystemCalls are met. -/
theorem wit_SystemCalls_1 : ∃ (s : State), (s.dev.asleep = false) :=
  ⟨st [], rfl⟩

/-- The conditions of clause 9 of SystemCalls are met. -/
theorem wit_SystemCalls_9 : ∃ (d : Dev) (p : Image), (d.cyc.image = some p) ∧ (bitOf d.prog.status 11 = true) ∧
    (p.strict = true) :=
  ⟨stStrict, _, rfl, (by decide), (by decide)⟩

/-- The conditions of clause 10 of SystemCalls are met. -/
theorem wit_SystemCalls_10 : ∃ (d e : Dev), (bitOf d.prog.status 11 = false) ∧
    (({ d.execTime.liveReport.setBit Reg.CYC_STAT 3 false with cyc := { (d.execTime.liveReport.setBit Reg.CYC_STAT 3 false).cyc with phase := .commit } }
    : Dev).outputForces = e) ∧ (e.role = 0) :=
  ⟨(st []).dev, _, rfl, rfl, rfl⟩

/-- The conditions of clauses 1, 2, 3, 4, 5, 6, 8, 9, 10, 11, 13, 14, 15, 26, 27, 28, 29, 30, 31, 32 of TwinLinkCommands are met. -/
theorem wit_TwinLinkCommands_1 : ∃ (s : State), (s.dev.asleep = false) :=
  ⟨st [], rfl⟩

/-- The conditions of clauses 17, 19, 21, 23 of TwinLinkCommands are met. -/
theorem wit_TwinLinkCommands_17 : ∃ (s : State) (src : Writer) (d : Dev), (s.dev.asleep = false) ∧ (s.dev.takes src
    Reg.TW_CTL = some d) ∧ (src ≠ .session ∨ s.dev.fld Reg.SVC_STAT 5 4 ≠ 3) :=
  ⟨st [], .system, _, (by decide), rfl, Or.inl (by decide)⟩

/-- The conditions of clauses 18, 20, 22, 24 of TwinLinkCommands are met. -/
theorem wit_TwinLinkCommands_18 : ∃ (s : State), (s.dev.asleep = false) ∧ (s.dev.fld Reg.SVC_STAT 5 4 = 3) :=
  ⟨st [(Reg.SVC_STAT, 0x30)], rfl, rfl⟩

/-- The conditions of clauses 1, 2, 3, 4, 5, 6, 7, 8, 9, 10, 11, 13, 14, 15, 17, 18, 19, 20, 21, 22, 23, 24, 25, 26, 27, 28, 29, 30, 31 of ShadeCommands are met. -/
theorem wit_ShadeCommands_1 : ∃ (s : State), (s.dev.asleep = false) :=
  ⟨st [], rfl⟩

/-- The conditions of clause 1 of CanCommands are met. -/
theorem wit_CanCommands_1 : ∃ (s : State) (src : Writer) (x : BitVec 1) (d : Dev), (s.dev.asleep = false) ∧
    (s.dev.takes src (Reg.CAN_CTL x.toNat) = some d) :=
  ⟨st [], .system, 1, _, rfl, rfl⟩

/-- The conditions of clauses 4, 5, 12, 14, 15, 16 of CanCommands are met. -/
theorem wit_CanCommands_4 : ∃ (s : State), (s.dev.asleep = false) :=
  ⟨st [], rfl⟩

/-- The conditions of clause 7 of CanCommands are met. -/
theorem wit_CanCommands_7 : ∃ (s : State) (src : Writer) (x : BitVec 1) (d : Dev), (s.dev.asleep = false) ∧
    (s.dev.takes src (Reg.CAN_RDSEL x.toNat) = some d) :=
  ⟨st [], .system, 1, _, rfl, rfl⟩

/-- The conditions of clause 8 of CanCommands are met. -/
theorem wit_CanCommands_8 : ∃ (s : State) (src : Writer) (x : BitVec 1) (k : BitVec 2) (d : Dev), (s.dev.asleep =
    false) ∧ (s.dev.takes src (Reg.CAN_TXREQ x.toNat k.toNat) = some d) :=
  ⟨st [], .system, 1, 3, _, rfl, rfl⟩

/-- The conditions of clause 10 of CanCommands are met. -/
theorem wit_CanCommands_10 : ∃ (s : State) (src : Writer) (x : BitVec 1) (k : BitVec 2) (d : Dev), (s.dev.asleep =
    false) ∧ (s.dev.takes src (Reg.CAN_TXCAN x.toNat k.toNat) = some d) :=
  ⟨st [], .system, 1, 3, _, rfl, rfl⟩

/-- The conditions of clause 11 of CanCommands are met. -/
theorem wit_CanCommands_11 : ∃ (i : Nat), (i < 32) :=
  ⟨31, (by decide)⟩

/-- The conditions of clauses 1, 2, 3, 4, 5, 6, 7, 8, 9, 10, 11, 12, 13, 14, 16, 17, 19, 20 of SmbusCommands are met. -/
theorem wit_SmbusCommands_1 : ∃ (s : State), (s.dev.asleep = false) :=
  ⟨st [], rfl⟩

/-- The conditions of clause 18 of SmbusCommands are met. -/
theorem wit_SmbusCommands_18 : ∃ (s : State) (src : Writer) (d : Dev), (s.dev.asleep = false) ∧ (s.dev.takes src
    Reg.SMB_REQSET = some d) :=
  ⟨st [], .system, _, rfl, rfl⟩

/-- The conditions of clauses 1, 2, 3, 4, 5, 6, 7, 8, 9, 10, 11 of EthernetCommands are met. -/
theorem wit_EthernetCommands_1 : ∃ (s : State), (s.dev.asleep = false) :=
  ⟨st [], rfl⟩

/-- The conditions of clause 12 of EthernetCommands are met. -/
theorem wit_EthernetCommands_12 : ∃ (s : State) (l : List Byte) (seq : Word) (f : Nat) (tm now : Int), (s.dev.asleep =
    false) ∧ (leWord l 4 = seq) ∧ (leNat (slice l 24 4) = f) ∧ ((leNat (slice l 8 6) : Int) * 1000000000 + leNat
    (slice l 16 4) = tm) ∧ ((s.dev.tim.sec : Int) * 1000000000 + s.dev.tim.ns = now) :=
  ⟨st [], [], _, _, _, _, rfl, rfl, rfl, rfl, rfl⟩

/-- The conditions of clause 1 of DmaAndFieldCommands are met. -/
theorem wit_DmaAndFieldCommands_1 : ∃ (s : State) (src : Writer) (r : BitVec 6) (d : Dev), (s.dev.asleep = false) ∧
    (s.dev.takes src (Reg.DMA_TAIL r.toNat) = some d) :=
  ⟨st [], .system, 5, _, rfl, rfl⟩

/-- The conditions of clause 2 of DmaAndFieldCommands are met. -/
theorem wit_DmaAndFieldCommands_2 : ∃ (s : State) (src : Writer) (r : BitVec 6) (d : Dev), (s.dev.asleep = false) ∧
    (s.dev.takes src (Reg.DMA_BASE r.toNat) = some d) :=
  ⟨st [], .system, 5, _, rfl, rfl⟩

/-- The conditions of clause 3 of DmaAndFieldCommands are met. -/
theorem wit_DmaAndFieldCommands_3 : ∃ (s : State) (src : Writer) (r : BitVec 6) (d : Dev), (s.dev.asleep = false) ∧
    (s.dev.takes src (Reg.DMA_CFG r.toNat) = some d) :=
  ⟨st [], .system, 5, _, rfl, rfl⟩

/-- The conditions of clauses 4, 7, 10, 12, 13, 15, 16 of DmaAndFieldCommands are met. -/
theorem wit_DmaAndFieldCommands_4 : ∃ (s : State), (s.dev.asleep = false) :=
  ⟨st [], rfl⟩

/-- The conditions of clause 9 of DmaAndFieldCommands are met. -/
theorem wit_DmaAndFieldCommands_9 : ∃ (d : Dev) (r : Nat), (r < 4) ∧ (d.dmaReady r = true) ∧ (bitOf (d.dmaW r 3) 31 =
    true) ∧ (d.dmaLen r ≠ 0) :=
  ⟨stLaunch.dev, 0, (by decide), rfl, rfl, (by decide)⟩

/-- The conditions of clauses 3, 5, 6, 7, 8, 9, 14, 17, 23, 24, 25, 26, 27, 28, 29, 31 of PowerCommands are met. -/
theorem wit_PowerCommands_3 : ∃ (s : State), (s.dev.asleep = false) :=
  ⟨st [], rfl⟩

/-- The conditions of clause 15 of PowerCommands are met. -/
theorem wit_PowerCommands_15 : ∃ (s : State) (src : Writer) (d : Dev), (s.dev.asleep = false) ∧ (s.dev.takes src
    Reg.PWR_WDT = some d) :=
  ⟨st [], .system, _, rfl, rfl⟩

/-- The conditions of clauses 18, 19 of PowerCommands are met. -/
theorem wit_PowerCommands_18 : ∃ (s : State) (src : Writer) (d : Dev), (s.dev.asleep = false) ∧ (s.dev.takes src
    Reg.PWR_CTL = some d) :=
  ⟨st [], .system, _, rfl, rfl⟩

/-- The conditions of clause 30 of PowerCommands are met. -/
theorem wit_PowerCommands_30 : ∃ (s : State) (src : Writer) (a : Word) (d : Dev), (s.dev.asleep = false) ∧ (isPeriph
    a.toNat = true) ∧ (blockOf a.toNat ≠ 27) ∧ (a.toNat % 4 = 0) ∧ (s.dev.takes src a.toNat = some d) :=
  ⟨st [], .system, 0x40000100, _, rfl, rfl, (by decide), rfl, rfl⟩

/-- The conditions of clause 32 of PowerCommands are met. -/
theorem wit_PowerCommands_32 : ∃ (d : Dev), (d.pwrState ≠ 0) ∧ (d.pwrState ≠ 5) ∧ (d.pwrState ≠ 6) :=
  ⟨Dev.setFld Dev.reset Reg.PWR_STAT 15 13 2, (by decide), (by decide), (by decide)⟩

/-- The conditions of clause 33 of PowerCommands are met. -/
theorem wit_PowerCommands_33 : ∃ (d : Dev), (d.pwrState = 0 ∨ d.pwrState = 5 ∨ d.pwrState = 6) :=
  ⟨Dev.setFld Dev.reset Reg.PWR_STAT 15 13 5, (by decide)⟩

/-- The writes of clauses of CommandsComplete are taken. -/
theorem wit_CommandsComplete_takes1 : ∃ s : State, s.dev.asleep = false ∧
    [Reg.SYS_CTL,
      Reg.TIM_INC,
      Reg.TIM_ADJSEC,
      Reg.TIM_ADJNS,
      Reg.TIM_CTL,
      Reg.TIM_HOLDTO,
      Reg.TIM_SNAP,
      Reg.ANG_SRCPRI,
      Reg.ANG_CTL,
      Reg.ANG_PERR,
      Reg.ANG_INC_HI,
      Reg.ANG_INC_LO,
      (Reg.TT_ENT 0 0 0),
      (Reg.TT_ENT 0 0 1),
      Reg.TT_CTL,
      Reg.BAL_CTL].all (fun a => (s.dev.takes .system a).isSome) = true :=
  ⟨st [], by first | rfl | decide, by decide +kernel⟩

/-- The writes of clauses of CommandsComplete are taken. -/
theorem wit_CommandsComplete_takes2 : ∃ s : State, s.dev.asleep = false ∧
    [Reg.BAL_LRN,
      (Reg.SK_CMDGO 0),
      (Reg.SK_CTL 0),
      (Reg.CHM_ENT 0),
      Reg.SWP_OWCTL,
      Reg.SWP_CTL,
      (Reg.LIM_ENT 0 0),
      (Reg.LIM_ENT 0 3),
      Reg.LIM_TRIPCLR,
      Reg.LIM_SWTRIP,
      Reg.LIM_TEST,
      Reg.LIM_CTL,
      Reg.SCC_CMD,
      Reg.SDM_CTL,
      Reg.CE_FLTCLR,
      Reg.CE_KICK].all (fun a => (s.dev.takes .system a).isSome) = true :=
  ⟨st [], by first | rfl | decide, by decide +kernel⟩

/-- The writes of clauses of CommandsComplete are taken. -/
theorem wit_CommandsComplete_takes3 : ∃ s : State, s.dev.asleep = false ∧
    [(Reg.CE_SLOT 0 7),
      Reg.CE_TINJ,
      Reg.CE_TRCCTL,
      (Reg.PWM_PER 0),
      Reg.PWM_CTL,
      Reg.PWM_BLKCLR,
      Reg.EST_PUB,
      Reg.IMP_CTL,
      (Reg.DSP_MB 0 0),
      Reg.DSP_CTL,
      (Reg.MOT_TFDCFG 0),
      (Reg.MOT_TGT 0),
      (Reg.MOT_CMD 0),
      Reg.CYC_CTL,
      (Reg.CYC_FORCE 0 0),
      (Reg.CYC_FORCE 0 1)].all (fun a => (s.dev.takes .system a).isSome) = true :=
  ⟨st [], by first | rfl | decide, by decide +kernel⟩

/-- The writes of clauses of CommandsComplete are taken. -/
theorem wit_CommandsComplete_takes4 : ∃ s : State, s.dev.asleep = false ∧
    [(Reg.CAN_CTL 0),
      (Reg.CAN_RDSEL 0),
      (Reg.CAN_TXREQ 0 0),
      (Reg.CAN_TXCAN 0 0),
      Reg.SMB_REQSET,
      (Reg.DMA_TAIL 0),
      (Reg.DMA_BASE 0),
      (Reg.DMA_CFG 0),
      Reg.PWR_WDT,
      Reg.PWR_CTL,
      Reg.REC_POST,
      Reg.REC_CTL,
      Reg.NVC_RGO,
      Reg.SVC_CONFIRM].all (fun a => (s.dev.takes .system a).isSome) = true :=
  ⟨st [], by first | rfl | decide, by decide +kernel⟩

/-- The conditions of clauses 1, 2, 3, 4, 6, 7, 8, 9, 10, 11, 12, 13, 14, 15, 16, 17, 18, 19, 20, 21, 22, 23, 24, 25, 26, 27, 28, 29, 30, 31, 32, 33, 34, 35, 37, 38, 39, 40, 41, 42, 43, 44, 45, 46, 48, 49, 50, 51, 52 of CommandsComplete are met. -/
theorem wit_CommandsComplete_1 : ∃ (s : State), (s.dev.asleep = false) :=
  ⟨st [], rfl⟩

/-- The conditions of clauses 1, 4, 7, 8, 9, 10, 12, 13, 14 of RecorderCommands are met. -/
theorem wit_RecorderCommands_1 : ∃ (s : State), (s.dev.asleep = false) :=
  ⟨st [], rfl⟩

/-- The conditions of clause 3 of RecorderCommands are met. -/
theorem wit_RecorderCommands_3 : ∃ (s : State) (src : Writer) (d : Dev), (s.dev.asleep = false) ∧ (s.dev.takes src
    Reg.REC_POST = some d) :=
  ⟨st [], .system, _, rfl, rfl⟩

/-- The conditions of clauses 5, 6 of RecorderCommands are met. -/
theorem wit_RecorderCommands_5 : ∃ (s : State) (src : Writer) (d : Dev), (s.dev.asleep = false) ∧ (s.dev.takes src
    Reg.REC_CTL = some d) :=
  ⟨st [], .system, _, rfl, rfl⟩

/-- The conditions of clause 11 of RecorderCommands are met. -/
theorem wit_RecorderCommands_11 : ∃ (s : State) (src : Writer) (d : Dev), (s.dev.asleep = false) ∧ (s.dev.takes src
    Reg.NVC_RGO = some d) :=
  ⟨st [], .system, _, rfl, rfl⟩

/-- The conditions of clauses 1, 2, 3, 4, 5, 6, 7, 8, 9, 10, 11, 12, 13, 14, 15, 16, 17, 18, 19, 20, 21, 22, 23, 24, 25, 26, 27, 28, 29, 30, 31 of ServiceCommands are met. -/
theorem wit_ServiceCommands_1 : ∃ (s : State), (s.dev.asleep = false) :=
  ⟨st [], rfl⟩

/-- The conditions of clause 32 of ServiceCommands are met. -/
theorem wit_ServiceCommands_32 : ∃ (s : State) (src : Writer) (d : Dev), (s.dev.asleep = false) ∧ (s.dev.takes src
    Reg.SVC_CONFIRM = some d) :=
  ⟨st [], .system, _, rfl, rfl⟩

/-! ### Ill-formed commands are refused -/

/-- An ENUM reply with no data. -/
def node0 : EnumNode where
  ncaps := 0
  loopt := 0
  latchofs := 0
  rttA := []
  rttB := []

/-- A force entry. -/
def force0 : ForceRow where
  idx := 0
  w0 := 0
  w1 := 0
  w2 := 0
  w3 := 0

theorem test_ill_angleMessage : wellFormed (.angleMessage []) = false := by decide
theorem test_ill_echoEndReturn : wellFormed (.echoEndReturn false []) = false := by decide
theorem test_ill_commandAnswer : wellFormed (.commandAnswer false .good 0 (List.replicate 8201 0) true) = false := by
  unfold wellFormed
  simp only [List.length_replicate]
  decide
theorem test_ill_enumeration : wellFormed (.enumeration 0 (List.replicate 49 node0) 0) = false := by
  unfold wellFormed
  simp only [List.length_replicate]
  decide
theorem test_ill_slotReceive : wellFormed (.slotReceive false 0 0 0 0 0 (List.replicate 256 0) true .good) = false := by
  unfold wellFormed
  simp only [List.length_replicate]
  decide
theorem test_ill_setpoint : wellFormed (.setpoint (.can 0) (List.replicate 65 0)) = false := by
  unfold wellFormed
  simp only [List.length_replicate]
  decide
theorem test_ill_commandClearTrips : wellFormed (.commandClearTrips (.can 0) (List.replicate 65 0)) = false := by
  unfold wellFormed
  simp only [List.length_replicate]
  decide
theorem test_ill_commandTransport : wellFormed (.commandTransport (.can 0) (List.replicate 65 0)) = false := by
  unfold wellFormed
  simp only [List.length_replicate]
  decide
theorem test_ill_rotreply : wellFormed (.rotreply (.can 0) (List.replicate 65 0)) = false := by
  unfold wellFormed
  simp only [List.length_replicate]
  decide
theorem test_ill_tofRemeasure : wellFormed (.tofRemeasure (List.replicate 17 0) []) = false := by
  unfold wellFormed
  simp only [List.length_replicate]
  decide
theorem test_ill_bringUp : wellFormed (.bringUp (some (0, [{ node0 with rttA := List.replicate 17 0 }], 0))) = false := by
  decide
theorem test_ill_interrupt : wellFormed (.interrupt 256) = false := by decide
theorem test_ill_cuePwmAlign : wellFormed (.cuePwmAlign [0, 0, 0]) = false := by decide
theorem test_ill_image_forces : wellFormed (.image true 0 [] (List.replicate 257 force0)) = false := by
  unfold wellFormed
  simp only [List.length_replicate]
  decide
theorem test_ill_image_bytes : wellFormed (.image true 0 (List.replicate 65537 0) []) = false := by
  unfold wellFormed
  simp only [List.length_replicate]
  decide
theorem test_ill_mirror : wellFormed (.mirror 0 0 (List.replicate 4097 0)) = false := by
  unfold wellFormed
  simp only [List.length_replicate]
  decide
theorem test_ill_segment : wellFormed (.segment 0 (List.replicate 8193 0)) = false := by
  unfold wellFormed
  simp only [List.length_replicate]
  decide
theorem test_ill_mailbox : wellFormed (.mailbox 0 []) = false := by decide
theorem test_ill_cmdEnumeration : wellFormed (.cmdEnumeration 0 (List.replicate 49 node0) 0) = false := by
  unfold wellFormed
  simp only [List.length_replicate]
  decide
theorem test_ill_cmdRingCommand : wellFormed (.cmdRingCommand []) = false := by decide
theorem test_ill_resyncGranules : wellFormed (.resyncGranules 0 (List.replicate 65529 0)) = false := by
  unfold wellFormed
  simp only [List.length_replicate]
  decide
theorem test_ill_resyncRegisters : wellFormed (.resyncRegisters join0) = false := by decide
theorem test_ill_resyncSlotHistory : wellFormed (.resyncSlotHistory 0 0 0 0 0 (List.replicate 17 0)) = false := by
  unfold wellFormed
  simp only [List.length_replicate]
  decide
theorem test_ill_canFrameReceive : wellFormed (.canFrameReceive 0 false false false false false 0 9 []) = false := by
  decide
theorem test_ill_smbCellsel : wellFormed (.smbCellsel 0 (List.replicate 33 0) none) = false := by decide
theorem test_ill_smbUwrite : wellFormed (.smbUwrite 0 0 (List.replicate 33 0) none) = false := by decide
theorem test_ill_ethFrameReceive : wellFormed (.ethFrameReceive false [] true 0) = false := by decide
theorem test_ill_recordPost : wellFormed (.recordPost false 0 (List.replicate 256 0)) = false := by
  unfold wellFormed
  simp only [List.length_replicate]
  decide
theorem test_ill_auth : wellFormed (.auth 0 0 [] []) = false := by decide
theorem test_ill_writereg : wellFormed (.writereg 0 0 (List.replicate 16384 0)) = false := by
  unfold wellFormed
  simp only [List.length_replicate]
  decide
theorem test_ill_stageopen : wellFormed (.stageopen 0 []) = false := by decide
theorem test_ill_stageend : wellFormed (.stageend 0 []) = false := by decide
theorem test_ill_progkey : wellFormed (.progkey 0 0 []) = false := by decide
theorem test_ill_revoke : wellFormed (.revoke 0 0 0 [] []) = false := by decide

/-! ### One step on a small state

Expected results are the manual's own examples, or hand calculation from its tables. -/

/-- The module after a command, or the reset module where the command does not go on. -/
def after (c : Instr) (s : State) : Dev :=
  match step { s with pending := c :: s.pending } with
  | .next t => t.dev
  | _ => Dev.reset

/-- Example under Table 12.8: 0x4CCD times 0x0800 in Q1.15. -/
theorem test_qmul15 :
    ((after (.qmul15 .system 1 2 3) (stc [] .system (stPairs [(2, 0x4CCD), (3, 0x800)]))).sys.reg 1) = 0x4CD := by
  decide

/-- Example under Table 12.8: −1 times −1 saturates. -/
theorem test_qmul15_saturates :
    ((after (.qmul15 .system 1 2 2) (stc [] .system (stPairs [(2, 0x8000)]))).sys.reg 1) = 0x7FFF := by
  decide

/-- Chapter 12, worked example: the mean of 416 cells. -/
theorem test_div :
    ((after (.div .program 7 4 6) (stc [] .program (stPairs [(4, 1373296640), (6, 416)]))).prog.reg 7) = 3301193 := by
  decide

/-- Chapter 12, worked example: with a count of zero DIV returns 0 and sets DZ. -/
theorem test_div_zero : bitOf (after (.div .program 7 4 6) (stc [] .program (stPairs [(4, 5)]))).prog.status 8 = true := by
  decide

/-- Chapter 12, worked example: the branch at 0x01C goes to 0x008. -/
theorem test_bne :
    (after (.bne .program 3 0 0xFFFB) (stc [] .program { stPairs [(3, 7)] with pc := 0x1C })).prog.pc = 8 := by
  decide

/-- Chapter 13, worked example: the OCV of V086. -/
theorem test_vinterp :
    (({ np := 2, nt := 2, x := fun p => if p = 0 then 0x18000000 else 0x28000000,
        t := fun c => if c = 0 then 1920 else 4480,
        y := fun p c => if p = 0 then (if c = 0 then 3285400 else 3291800) else (if c = 0 then 3301200 else 3306900) } :
      ITable).eval false 0x1E000000 2880) = (3293627, false) := by
  decide

/-- R313: 1.0 + 2.0 = 3.0 in binary32. -/
theorem test_fadd :
    ((after (.fadd .system 1 2 3) (stc [] .system (stPairs [(2, 0x3F800000), (3, 0x40000000)]))).sys.reg 1)
      = 0x40400000 := by
  decide

/-- Chapter 1, example of a claim: the first expert write to BAL sets bit 12. -/
theorem test_claim :
    (after (.registerWrite .program (nw Reg.BAL_TLIM) 0) (st [(Reg.SYS_CLAIMEN0, 0x1000)])).rd Reg.SYS_EXPOWN0
      = 0x1000 := by
  decide

/-- Chapter 1, example of a claim: the write to SYS_EXPREL0 clears it. -/
theorem test_release :
    (after (.expertRelease .system false 0x1000) (st [(Reg.SYS_CLAIMEN0, 0x1000), (Reg.SYS_EXPOWN0, 0x1000)])).rd
      Reg.SYS_EXPOWN0 = 0 := by
  decide

/-- Chapter 0, example under R9: a W1C register that reads 0x15 takes 0x05. -/
theorem test_w1c : ({ base := 0, w1c := 0xFFFFFFFF } : RegRow).write false 0x15 5 = 0x10 := by decide

/-- R30: TIM_INC at its reset value advances the clock by 8 ns a tick. -/
theorem test_tick : (after .referenceTick (st [])).tim.ns = 8 := by decide

/-- R31: a write above the range stores the upper bound. -/
theorem test_timInc : (after (.timIncWrite .system 0x09000000) (st [])).rd Reg.TIM_INC = 0x08010000 := by decide

/-- Chapter 17, worked example: the PEC of a read of the string SoC. -/
theorem test_pec : pec8 [0x58, 0x10, 0x59, 0x5B, 0x18] = 0x49 := by decide

/-- An empty queue idles. -/
theorem test_idle : step State.reset = .next State.reset := rfl

/-- Table 23.4: RUN is steady in Run, and the LEDs are dark in Standby (idle). -/
theorem test_ledRun : (dv [(Reg.PWR_STAT, 0x4000)]).ledRun = .steady ∧ (dv [(Reg.PWR_STAT, 0xA000)]).ledRun = .dark := by
  decide

/-- R288: the pulse of exponent 2 with WCODE is 3 µs wide. -/
theorem test_step_width : (((dv [(Reg.MOT_CFG 0, 0x20000000)]).stepRise 0 2).axis 0).stepAt = some (0, usT 3) := by decide


/-! ### Words of the program

The words are written out from Tables 12.3 and 12.4 and from Table 13.2, and stand in the worked examples of the chapters. -/

/-- ADDI w3, w0, 416: opcode 0x08, d 3, a 0, immediate 416. -/
theorem test_word_addi : decodePleol .program 0x206001A0 = some (.addi .program 3 0 416) := by decide

/-- BNE w3, w0, back by five words. -/
theorem test_word_bne : decodePleol .program 0x8460FFFB = some (.bne .program 3 0 0xFFFB) := by decide

/-- DIV w7, w4, w6. -/
theorem test_word_div : decodePleol .program 0x04E43004 = some (.div .program 7 4 6) := by decide

/-- VSETVL w3, w9. -/
theorem test_word_vsetvl : decodePleol .program 0xEC690000 = some (.vsetvl .program 3 9) := by decide

/-- VLD v1, (w10). -/
theorem test_word_vld : decodePleol .program 0xEC0A2010 = some (.vld .program 1 10 ⟨false, 0⟩) := by decide

/-- VINTERP v2, v1, w12. -/
theorem test_word_vinterp : decodePleol .program 0xE9164020 = some (.vinterp .program 2 1 12 ⟨false, 0⟩) := by decide

/-- VST v2, (w13). -/
theorem test_word_vst : decodePleol .program 0xEC0D4011 = some (.vst .program 2 13 ⟨false, 0⟩) := by decide

/-- The word of all ones is reserved (R310). -/
theorem test_word_reserved : decodePleol .program 0xFFFFFFFF = none := by decide

/-- The word of all zeros is ADD w0, w0, w0 (R310). -/
theorem test_word_zero : decodePleol .program 0 = some (.add .program 0 0 0) := by decide

end Sys2Proof.Tests
end

section
/-! SUPPORT. Every step keeps memory and registers in their canonical form. -/

namespace Sys2Proof.Machine

/-- The meaning of every command keeps the canonical form of memory and registers: each arm of `exec` has its own law. -/
theorem exec_keeps_inv {c : Instr} {s t : State} (hc : s.Inv) (ht : exec c s = .next t) : t.Inv := by
  cases c with
  | registerWrite src a v => exact keep_execRegisterWrite src a v s hc ht
  | expertRelease src hi v => exact keep_execExpertRelease src hi v s hc ht
  | claimenLock src v => exact keep_execClaimenLock src v s hc ht
  | timIncWrite src v => exact keep_execTimIncWrite src v s hc ht
  | timAdjsecWrite src v => exact keep_execTimAdjsecWrite src v s hc ht
  | timAdjnsWrite src v => exact keep_execTimAdjnsWrite src v s hc ht
  | decl src v => exact keep_execDecl src v s hc ht
  | timHoldtoWrite src v => exact keep_execTimHoldtoWrite src v s hc ht
  | holdoverExpiry => exact keep_execHoldoverExpiry s hc ht
  | tcorrEvaluation corr => exact keep_execTcorrEvaluation corr s hc ht
  | timSnap src => exact keep_execTimSnap src s hc ht
  | timTbLoRead => exact keep_execTimTbLoRead s hc ht
  | angAngleRead => exact keep_execAngAngleRead s hc ht
  | angleWrap => exact keep_execAngleWrap s hc ht
  | sourceLossTimeout => exact keep_execSourceLossTimeout s hc ht
  | sourceReturn => exact keep_execSourceReturn s hc ht
  | angSrcpriWrite src v => exact keep_execAngSrcpriWrite src v s hc ht
  | forcefrWrite src v => exact keep_execForcefrWrite src v s hc ht
  | freeRunSlew => exact keep_execFreeRunSlew s hc ht
  | angPerrWrite src v => exact keep_execAngPerrWrite src v s hc ht
  | angIncHiWrite src v => exact keep_execAngIncHiWrite src v s hc ht
  | angIncLoWrite src v => exact keep_execAngIncLoWrite src v s hc ht
  | zcEdge level us => exact keep_execZcEdge level us s hc ht
  | angleMessage l => exact keep_execAngleMessage l s hc ht
  | timetableMatch => exact keep_execTimetableMatch s hc ht
  | ttEntryWord0Write src b n v => exact keep_execTtEntryWord0Write src b n v s hc ht
  | ttEntryWord1Write src b n v => exact keep_execTtEntryWord1Write src b n v s hc ht
  | ttSwapRequest src v => exact keep_execTtSwapRequest src v s hc ht
  | linkUp port => exact keep_execLinkUp port s hc ht
  | los port => exact keep_execLos port s hc ht
  | ringDownExit => exact keep_execRingDownExit s hc ht
  | faultReceive x a p c => exact keep_execFaultReceive x a p c s hc ht
  | echoEndReturn x frame => exact keep_execEchoEndReturn x frame s hc ht
  | cmdgo src x v => exact keep_execCmdgo src x v s hc ht
  | commandSend x => exact keep_execCommandSend x s hc ht
  | commandAnswer x fin rtt frame healOk => exact keep_execCommandAnswer x fin rtt frame healOk s hc ht
  | commandTimeout x => exact keep_execCommandTimeout x s hc ht
  | enumeration hop nodes transit => exact keep_execEnumeration hop nodes transit s hc ht
  | tofRemeasure rttA rttB => exact keep_execTofRemeasure rttA rttB s hc ht
  | delayRewrite => exact keep_execDelayRewrite s hc ht
  | healSend linkOk => exact keep_execHealSend linkOk s hc ht
  | wakeSend returned => exact keep_execWakeSend returned s hc ht
  | nodeRearm src x k v => exact keep_execNodeRearm src x k v s hc ht
  | skClearCounts src x v => exact keep_execSkClearCounts src x v s hc ht
  | collectLaunch => exact keep_execCollectLaunch s hc ht
  | slotReceive x arg node seq flags turn data crcOk fin => exact keep_execSlotReceive x arg node seq flags turn data crcOk fin s hc ht
  | sweepDeadline transit => exact keep_execSweepDeadline transit s hc ht
  | publication => exact keep_execPublication s hc ht
  | temperatureRead => exact keep_execTemperatureRead s hc ht
  | openWireGo src v => exact keep_execOpenWireGo src v s hc ht
  | openWireEvaluate => exact keep_execOpenWireEvaluate s hc ht
  | swpClearCounts src v => exact keep_execSwpClearCounts src v s hc ht
  | chmEntryWrite src n v => exact keep_execChmEntryWrite src n v s hc ht
  | blankSend => exact keep_execBlankSend s hc ht
  | blankenChange src v => exact keep_execBlankenChange src v s hc ht
  | balCmdWrite src k v => exact keep_execBalCmdWrite src k v s hc ht
  | commanderTimeout => exact keep_execCommanderTimeout s hc ht
  | balanceSend off => exact keep_execBalanceSend off s hc ht
  | learningGo src v => exact keep_execLearningGo src v s hc ht
  | limEntryWordWrite src n w v => exact keep_execLimEntryWordWrite src n w v s hc ht
  | limEntryCommit src n v => exact keep_execLimEntryCommit src n v s hc ht
  | sweepWatchdog => exact keep_execSweepWatchdog s hc ht
  | externalTrip low => exact keep_execExternalTrip low s hc ht
  | tripClear src v => exact keep_execTripClear src v s hc ht
  | softwareTrip src v => exact keep_execSoftwareTrip src v s hc ht
  | softwareOchre src och => exact keep_execSoftwareOchre src och s hc ht
  | limTest src v bad => exact keep_execLimTest src v bad s hc ht
  | limLock src v => exact keep_execLimLock src v s hc ht
  | sccClose src => exact keep_execSccClose src s hc ht
  | sccOpen src => exact keep_execSccOpen src s hc ht
  | sccAck src => exact keep_execSccAck src s hc ht
  | breakDelayExpiry => exact keep_execBreakDelayExpiry s hc ht
  | pickupExpiry k2 => exact keep_execPickupExpiry k2 s hc ht
  | prechargeDone => exact keep_execPrechargeDone s hc ht
  | prechargeTimeout => exact keep_execPrechargeTimeout s hc ht
  | closeConfirm => exact keep_execCloseConfirm s hc ht
  | closeTimeout => exact keep_execCloseTimeout s hc ht
  | openConfirm => exact keep_execOpenConfirm s hc ht
  | dropoutTimeout => exact keep_execDropoutTimeout s hc ht
  | switchTest pulse rb => exact keep_execSwitchTest pulse rb s hc ht
  | coilFault k2 ma => exact keep_execCoilFault k2 ma s hc ht
  | feedbackDiscrepancy => exact keep_execFeedbackDiscrepancy s hc ht
  | killOutAssert => exact keep_execKillOutAssert s hc ht
  | sinc3Sample n out => exact keep_execSinc3Sample n out s hc ht
  | sinc2Sample n out => exact keep_execSinc2Sample n out s hc ht
  | sdmInvalid n stuck => exact keep_execSdmInvalid n stuck s hc ht
  | sdmSync src v => exact keep_execSdmSync src v s hc ht
  | slotTrigger sl => exact keep_execSlotTrigger sl s hc ht
  | slowTimerExpiry sl => exact keep_execSlowTimerExpiry sl s hc ht
  | slotComplete sl => exact keep_execSlotComplete sl s hc ht
  | slotFaultClear src v => exact keep_execSlotFaultClear src v s hc ht
  | ceKick src v => exact keep_execCeKick src v s hc ht
  | slotDescriptorCommit src sl v => exact keep_execSlotDescriptorCommit src sl v s hc ht
  | pwmPeriodStart p => exact keep_execPwmPeriodStart p s hc ht
  | pwmPeriodCentre p => exact keep_execPwmPeriodCentre p s hc ht
  | pwmPerWrite src p v => exact keep_execPwmPerWrite src p v s hc ht
  | pwmSync src v => exact keep_execPwmSync src v s hc ht
  | convFltFall fromReset => exact keep_execConvFltFall fromReset s hc ht
  | pwmBlockClear src v => exact keep_execPwmBlockClear src v s hc ht
  | testInjectionGo src v => exact keep_execTestInjectionGo src v s hc ht
  | testInjectionStop src v => exact keep_execTestInjectionStop src v s hc ht
  | traceArm src v => exact keep_execTraceArm src v s hc ht
  | traceForce src v => exact keep_execTraceForce src v s hc ht
  | estimatorRun => exact keep_execEstimatorRun s hc ht
  | correction => exact keep_execCorrection s hc ht
  | estPub src => exact keep_execEstPub src s hc ht
  | publicationTimeout => exact keep_execPublicationTimeout s hc ht
  | restStarvation => exact keep_execRestStarvation s hc ht
  | storeroomWrite => exact keep_execStoreroomWrite s hc ht
  | storeroomInterval => exact keep_execStoreroomInterval s hc ht
  | transportRequest => exact keep_execTransportRequest s hc ht
  | transportExit returned => exact keep_execTransportExit returned s hc ht
  | binAccumulate => exact keep_execBinAccumulate s hc ht
  | injectionPhaseEnd => exact keep_execInjectionPhaseEnd s hc ht
  | impClearAll src v => exact keep_execImpClearAll src v s hc ht
  | binDescriptorWrite src b w v => exact keep_execBinDescriptorWrite src b w v s hc ht
  | modelFit => exact keep_execModelFit s hc ht
  | ageingDaily => exact keep_execAgeingDaily s hc ht
  | mailboxWordWrite src m w v => exact keep_execMailboxWordWrite src m w v s hc ht
  | mailboxCommit src m v => exact keep_execMailboxCommit src m v s hc ht
  | referenceSlew => exact keep_execReferenceSlew s hc ht
  | mailboxTimeout => exact keep_execMailboxTimeout s hc ht
  | setpoint h l => exact keep_execSetpoint h l s hc ht
  | statusSend => exact keep_execStatusSend s hc ht
  | commandClearTrips h l => exact keep_execCommandClearTrips h l s hc ht
  | commandTransport h l => exact keep_execCommandTransport h l s hc ht
  | recreq h l => exact keep_execRecreq h l s hc ht
  | rotreply h l => exact keep_execRotreply h l s hc ht
  | rotreqRepeat => exact keep_execRotreqRepeat s hc ht
  | rotationReplyTimeout => exact keep_execRotationReplyTimeout s hc ht
  | restWindowEnd => exact keep_execRestWindowEnd s hc ht
  | profileGo src v => exact keep_execProfileGo src v s hc ht
  | feedConfigWrite src n v => exact keep_execFeedConfigWrite src n v s hc ht
  | tachEdge f => exact keep_execTachEdge f s hc ht
  | fanStall f => exact keep_execFanStall f s hc ht
  | servoPeriod => exact keep_execServoPeriod s hc ht
  | stepPulse a => exact keep_execStepPulse a s hc ht
  | actuatorReply a seq flags => exact keep_execActuatorReply a seq flags s hc ht
  | targetWrite src a v => exact keep_execTargetWrite src a v s hc ht
  | home src a => exact keep_execHome src a s hc ht
  | stopAxis src a => exact keep_execStopAxis src a s hc ht
  | clearFault src a => exact keep_execClearFault src a s hc ht
  | declareHomed src a => exact keep_execDeclareHomed src a s hc ht
  | add p d a b => exact keep_execAdd p d a b s hc ht
  | sub p d a b => exact keep_execSub p d a b s hc ht
  | and p d a b => exact keep_execAnd p d a b s hc ht
  | or p d a b => exact keep_execOr p d a b s hc ht
  | xor p d a b => exact keep_execXor p d a b s hc ht
  | nor p d a b => exact keep_execNor p d a b s hc ht
  | slt p d a b => exact keep_execSlt p d a b s hc ht
  | sltu p d a b => exact keep_execSltu p d a b s hc ht
  | sll p d a b => exact keep_execSll p d a b s hc ht
  | srl p d a b => exact keep_execSrl p d a b s hc ht
  | sra p d a b => exact keep_execSra p d a b s hc ht
  | ror p d a b => exact keep_execRor p d a b s hc ht
  | slli p d a sh => exact keep_execSlli p d a sh s hc ht
  | srli p d a sh => exact keep_execSrli p d a sh s hc ht
  | srai p d a sh => exact keep_execSrai p d a sh s hc ht
  | rori p d a sh => exact keep_execRori p d a sh s hc ht
  | min p d a b => exact keep_execMin p d a b s hc ht
  | max p d a b => exact keep_execMax p d a b s hc ht
  | minu p d a b => exact keep_execMinu p d a b s hc ht
  | maxu p d a b => exact keep_execMaxu p d a b s hc ht
  | adds p d a b => exact keep_execAdds p d a b s hc ht
  | subs p d a b => exact keep_execSubs p d a b s hc ht
  | clz p d a => exact keep_execClz p d a s hc ht
  | popc p d a => exact keep_execPopc p d a s hc ht
  | extb p d a => exact keep_execExtb p d a s hc ht
  | exth p d a => exact keep_execExth p d a s hc ht
  | jr p a => exact keep_execJr p a s hc ht
  | jalr p d a => exact keep_execJalr p d a s hc ht
  | addi p d a imm => exact keep_execAddi p d a imm s hc ht
  | andi p d a imm => exact keep_execAndi p d a imm s hc ht
  | ori p d a imm => exact keep_execOri p d a imm s hc ht
  | xori p d a imm => exact keep_execXori p d a imm s hc ht
  | slti p d a imm => exact keep_execSlti p d a imm s hc ht
  | sltiu p d a imm => exact keep_execSltiu p d a imm s hc ht
  | lui p d imm => exact keep_execLui p d imm s hc ht
  | mul p d a b => exact keep_execMul p d a b s hc ht
  | mulh p d a b => exact keep_execMulh p d a b s hc ht
  | mulhu p d a b => exact keep_execMulhu p d a b s hc ht
  | div p d a b => exact keep_execDiv p d a b s hc ht
  | divu p d a b => exact keep_execDivu p d a b s hc ht
  | rem p d a b => exact keep_execRem p d a b s hc ht
  | remu p d a b => exact keep_execRemu p d a b s hc ht
  | qmul15 p d a b => exact keep_execQmul15 p d a b s hc ht
  | qmul31 p d a b => exact keep_execQmul31 p d a b s hc ht
  | qadd15 p d a b => exact keep_execQadd15 p d a b s hc ht
  | qsub15 p d a b => exact keep_execQsub15 p d a b s hc ht
  | qmac31 p d a b => exact keep_execQmac31 p d a b s hc ht
  | qsat16 p d a => exact keep_execQsat16 p d a s hc ht
  | fadd p d a b => exact keep_execFadd p d a b s hc ht
  | fsub p d a b => exact keep_execFsub p d a b s hc ht
  | fmul p d a b => exact keep_execFmul p d a b s hc ht
  | fdiv p d a b => exact keep_execFdiv p d a b s hc ht
  | fsqrt p d a => exact keep_execFsqrt p d a s hc ht
  | fmin p d a b => exact keep_execFmin p d a b s hc ht
  | fmax p d a b => exact keep_execFmax p d a b s hc ht
  | fmadd p d a b => exact keep_execFmadd p d a b s hc ht
  | feq p d a b => exact keep_execFeq p d a b s hc ht
  | flt p d a b => exact keep_execFlt p d a b s hc ht
  | fle p d a b => exact keep_execFle p d a b s hc ht
  | fcvtws p d a => exact keep_execFcvtws p d a s hc ht
  | fcvtsw p d a => exact keep_execFcvtsw p d a s hc ht
  | fcvtswu p d a => exact keep_execFcvtswu p d a s hc ht
  | fneg p d a => exact keep_execFneg p d a s hc ht
  | fabs p d a => exact keep_execFabs p d a s hc ht
  | fcvtsd p d a => exact keep_execFcvtsd p d a s hc ht
  | fcvtds p d a => exact keep_execFcvtds p d a s hc ht
  | dadd p d a b => exact keep_execDadd p d a b s hc ht
  | dsub p d a b => exact keep_execDsub p d a b s hc ht
  | dmul p d a b => exact keep_execDmul p d a b s hc ht
  | ddiv p d a b => exact keep_execDdiv p d a b s hc ht
  | dsqrt p d a => exact keep_execDsqrt p d a s hc ht
  | dmin p d a b => exact keep_execDmin p d a b s hc ht
  | dmax p d a b => exact keep_execDmax p d a b s hc ht
  | dmadd p d a b => exact keep_execDmadd p d a b s hc ht
  | deq p d a b => exact keep_execDeq p d a b s hc ht
  | dlt p d a b => exact keep_execDlt p d a b s hc ht
  | dle p d a b => exact keep_execDle p d a b s hc ht
  | dcvtws p d a => exact keep_execDcvtws p d a s hc ht
  | dneg p d a => exact keep_execDneg p d a s hc ht
  | dabs p d a => exact keep_execDabs p d a s hc ht
  | ldw p d a imm => exact keep_execLdw p d a imm s hc ht
  | ldh p d a imm => exact keep_execLdh p d a imm s hc ht
  | ldhu p d a imm => exact keep_execLdhu p d a imm s hc ht
  | ldb p d a imm => exact keep_execLdb p d a imm s hc ht
  | ldbu p d a imm => exact keep_execLdbu p d a imm s hc ht
  | ldd p d a imm => exact keep_execLdd p d a imm s hc ht
  | stw p d a imm => exact keep_execStw p d a imm s hc ht
  | sth p d a imm => exact keep_execSth p d a imm s hc ht
  | stb p d a imm => exact keep_execStb p d a imm s hc ht
  | std p d a imm => exact keep_execStd p d a imm s hc ht
  | ldx p d a => exact keep_execLdx p d a s hc ht
  | stx p d a b => exact keep_execStx p d a b s hc ht
  | amoswp p d a b => exact keep_execAmoswp p d a b s hc ht
  | amoadd p d a b => exact keep_execAmoadd p d a b s hc ht
  | amoand p d a b => exact keep_execAmoand p d a b s hc ht
  | amoor p d a b => exact keep_execAmoor p d a b s hc ht
  | amomax p d a b => exact keep_execAmomax p d a b s hc ht
  | amomin p d a b => exact keep_execAmomin p d a b s hc ht
  | beq p a b off => exact keep_execBeq p a b off s hc ht
  | bne p a b off => exact keep_execBne p a b off s hc ht
  | blt p a b off => exact keep_execBlt p a b off s hc ht
  | bge p a b off => exact keep_execBge p a b off s hc ht
  | bltu p a b off => exact keep_execBltu p a b off s hc ht
  | bgeu p a b off => exact keep_execBgeu p a b off s hc ht
  | j p off => exact keep_execJ p off s hc ht
  | jal p off => exact keep_execJal p off s hc ht
  | cyend p => exact keep_execCyend p s hc ht
  | tbrd p d sel => exact keep_execTbrd p d sel s hc ht
  | ton p d a b => exact keep_execTon p d a b s hc ht
  | tof p d a b => exact keep_execTof p d a b s hc ht
  | tp p d a b => exact keep_execTp p d a b s hc ht
  | ctu p d a b => exact keep_execCtu p d a b s hc ht
  | ctd p d a b => exact keep_execCtd p d a b s hc ht
  | ctud p d a b => exact keep_execCtud p d a b s hc ht
  | rtrig p d a b => exact keep_execRtrig p d a b s hc ht
  | ftrig p d a b => exact keep_execFtrig p d a b s hc ht
  | mfs p d num => exact keep_execMfs p d num s hc ht
  | mts p a num => exact keep_execMts p a num s hc ht
  | sets p d a num => exact keep_execSets p d a num s hc ht
  | clrs p d a num => exact keep_execClrs p d a num s hc ht
  | sysc p imm => exact keep_execSysc p imm s hc ht
  | rfx p => exact keep_execRfx p s hc ht
  | fence p imm => exact keep_execFence p imm s hc ht
  | wfe p d a => exact keep_execWfe p d a s hc ht
  | sev p imm => exact keep_execSev p imm s hc ht
  | brk p => exact keep_execBrk p s hc ht
  | interrupt source => exact keep_execInterrupt source s hc ht
  | lockstepError p => exact keep_execLockstepError p s hc ht
  | vadd p vd va s2 k => exact keep_execVadd p vd va s2 k s hc ht
  | vsub p vd va s2 k => exact keep_execVsub p vd va s2 k s hc ht
  | vand p vd va s2 k => exact keep_execVand p vd va s2 k s hc ht
  | vor p vd va s2 k => exact keep_execVor p vd va s2 k s hc ht
  | vxor p vd va s2 k => exact keep_execVxor p vd va s2 k s hc ht
  | vsll p vd va s2 k => exact keep_execVsll p vd va s2 k s hc ht
  | vsrl p vd va s2 k => exact keep_execVsrl p vd va s2 k s hc ht
  | vsra p vd va s2 k => exact keep_execVsra p vd va s2 k s hc ht
  | vmin p vd va s2 k => exact keep_execVmin p vd va s2 k s hc ht
  | vmax p vd va s2 k => exact keep_execVmax p vd va s2 k s hc ht
  | vminu p vd va s2 k => exact keep_execVminu p vd va s2 k s hc ht
  | vmaxu p vd va s2 k => exact keep_execVmaxu p vd va s2 k s hc ht
  | vadds p vd va s2 k => exact keep_execVadds p vd va s2 k s hc ht
  | vsubs p vd va s2 k => exact keep_execVsubs p vd va s2 k s hc ht
  | vmul p vd va s2 k => exact keep_execVmul p vd va s2 k s hc ht
  | vmulh p vd va s2 k => exact keep_execVmulh p vd va s2 k s hc ht
  | vqmul31 p vd va s2 k => exact keep_execVqmul31 p vd va s2 k s hc ht
  | vqmac31 p vd va s2 k => exact keep_execVqmac31 p vd va s2 k s hc ht
  | vmv p vd s2 k => exact keep_execVmv p vd s2 k s hc ht
  | vsel p vd va s2 mi => exact keep_execVsel p vd va s2 mi s hc ht
  | viota p vd k => exact keep_execViota p vd k s hc ht
  | vfadd p vd va s2 k => exact keep_execVfadd p vd va s2 k s hc ht
  | vfsub p vd va s2 k => exact keep_execVfsub p vd va s2 k s hc ht
  | vfmul p vd va s2 k => exact keep_execVfmul p vd va s2 k s hc ht
  | vfdiv p vd va s2 k => exact keep_execVfdiv p vd va s2 k s hc ht
  | vfsqrt p vd va k => exact keep_execVfsqrt p vd va k s hc ht
  | vfmin p vd va s2 k => exact keep_execVfmin p vd va s2 k s hc ht
  | vfmax p vd va s2 k => exact keep_execVfmax p vd va s2 k s hc ht
  | vfmadd p vd va s2 k => exact keep_execVfmadd p vd va s2 k s hc ht
  | vfcvtws p vd va k => exact keep_execVfcvtws p vd va k s hc ht
  | vfcvtsw p vd va k => exact keep_execVfcvtsw p vd va k s hc ht
  | vfneg p vd va k => exact keep_execVfneg p vd va k s hc ht
  | vfabs p vd va k => exact keep_execVfabs p vd va k s hc ht
  | vceq p md va s2 k => exact keep_execVceq p md va s2 k s hc ht
  | vcne p md va s2 k => exact keep_execVcne p md va s2 k s hc ht
  | vclt p md va s2 k => exact keep_execVclt p md va s2 k s hc ht
  | vcge p md va s2 k => exact keep_execVcge p md va s2 k s hc ht
  | vcltu p md va s2 k => exact keep_execVcltu p md va s2 k s hc ht
  | vcgeu p md va s2 k => exact keep_execVcgeu p md va s2 k s hc ht
  | vfceq p md va s2 k => exact keep_execVfceq p md va s2 k s hc ht
  | vfclt p md va s2 k => exact keep_execVfclt p md va s2 k s hc ht
  | vfcle p md va s2 k => exact keep_execVfcle p md va s2 k s hc ht
  | mand p md ma mb k => exact keep_execMand p md ma mb k s hc ht
  | mor p md ma mb k => exact keep_execMor p md ma mb k s hc ht
  | mandn p md ma mb k => exact keep_execMandn p md ma mb k s hc ht
  | mnot p md ma k => exact keep_execMnot p md ma k s hc ht
  | vinterp p vd va wb k => exact keep_execVinterp p vd va wb k s hc ht
  | vinvert p vd va wb k => exact keep_execVinvert p vd va wb k s hc ht
  | vsetvl p d a => exact keep_execVsetvl p d a s hc ht
  | vgetvl p d => exact keep_execVgetvl p d s hc ht
  | vmrd p d mv => exact keep_execVmrd p d mv s hc ht
  | vmwr p a mv => exact keep_execVmwr p a mv s hc ht
  | vld p v a k => exact keep_execVld p v a k s hc ht
  | vst p v a k => exact keep_execVst p v a k s hc ht
  | vgath p v iv a k => exact keep_execVgath p v iv a k s hc ht
  | vscat p v iv a k => exact keep_execVscat p v iv a k s hc ht
  | vredadd p d v k => exact keep_execVredadd p d v k s hc ht
  | vredmin p d v k => exact keep_execVredmin p d v k s hc ht
  | vredmax p d v k => exact keep_execVredmax p d v k s hc ht
  | vredfadd p d v k => exact keep_execVredfadd p d v k s hc ht
  | vmini p d v k => exact keep_execVmini p d v k s hc ht
  | vmaxi p d v k => exact keep_execVmaxi p d v k s hc ht
  | cyclePeriodStart => exact keep_execCyclePeriodStart s hc ht
  | imageCopyComplete => exact keep_execImageCopyComplete s hc ht
  | start src v => exact keep_execStart src v s hc ht
  | stop src v => exact keep_execStop src v s hc ht
  | clearLiveReads src v => exact keep_execClearLiveReads src v s hc ht
  | syscallSccClose => exact keep_execSyscallSccClose s hc ht
  | syscallSccOpen => exact keep_execSyscallSccOpen s hc ht
  | syscallSccAck => exact keep_execSyscallSccAck s hc ht
  | syscallStoreroom => exact keep_execSyscallStoreroom s hc ht
  | syscallTransport => exact keep_execSyscallTransport s hc ht
  | syscallRelease => exact keep_execSyscallRelease s hc ht
  | syscallRecord => exact keep_execSyscallRecord s hc ht
  | forceWordWrite src n w v => exact keep_execForceWordWrite src n w v s hc ht
  | forceCommit src n v => exact keep_execForceCommit src n v s hc ht
  | onlineChangeSwitch => exact keep_execOnlineChangeSwitch s hc ht
  | heartbeatSend => exact keep_execHeartbeatSend s hc ht
  | heartbeat roleLow epoch b4 b5 count compat image cyc angle inc ns sec => exact keep_execHeartbeat roleLow epoch b4 b5 count compat image cyc angle inc ns sec s hc ht
  | heartbeatMiss => exact keep_execHeartbeatMiss s hc ht
  | ping => exact keep_execPing s hc ht
  | pingReceive => exact keep_execPingReceive s hc ht
  | pong rtt => exact keep_execPong rtt s hc ht
  | cueStrobeV seq => exact keep_execCueStrobeV seq s hc ht
  | cueStrobeT seq => exact keep_execCueStrobeT seq s hc ht
  | cueStrobeTa seq => exact keep_execCueStrobeTa seq s hc ht
  | cueMailbox m => exact keep_execCueMailbox m s hc ht
  | cueSdmSync => exact keep_execCueSdmSync s hc ht
  | cuePwmAlign counts => exact keep_execCuePwmAlign counts s hc ht
  | cueScc n => exact keep_execCueScc n s hc ht
  | cueRoleExchange epoch => exact keep_execCueRoleExchange epoch s hc ht
  | cueRecoveryRead seq => exact keep_execCueRecoveryRead seq s hc ht
  | cueBlank => exact keep_execCueBlank s hc ht
  | cueBadCheck => exact keep_execCueBadCheck s hc ht
  | image crcOk cycle image forces => exact keep_execImage crcOk cycle image forces s hc ht
  | imgack cycle status => exact keep_execImgack cycle status s hc ht
  | hash cycle hash => exact keep_execHash cycle hash s hc ht
  | hashack cycle result => exact keep_execHashack cycle result s hc ht
  | mirror sec off data => exact keep_execMirror sec off data s hc ht
  | segment arg slots => exact keep_execSegment arg slots s hc ht
  | mailbox slot words => exact keep_execMailbox slot words s hc ht
  | cmdHandover cycle => exact keep_execCmdHandover cycle s hc ht
  | cmdOnlineChange cycle => exact keep_execCmdOnlineChange cycle s hc ht
  | cmdTransport => exact keep_execCmdTransport s hc ht
  | cmdEnumeration hop nodes transit => exact keep_execCmdEnumeration hop nodes transit s hc ht
  | cmdRingCommand frame => exact keep_execCmdRingCommand frame s hc ht
  | fail roleLow => exact keep_execFail roleLow s hc ht
  | resyncGranules addr data => exact keep_execResyncGranules addr data s hc ht
  | resyncRegisters j => exact keep_execResyncRegisters j s hc ht
  | resyncSlotHistory sl w14 w15 e3 u3 q => exact keep_execResyncSlotHistory sl w14 w15 e3 u3 q s hc ht
  | linkFrameDiscard => exact keep_execLinkFrameDiscard s hc ht
  | lagExpiry => exact keep_execLagExpiry s hc ht
  | missingImage => exact keep_execMissingImage s hc ht
  | joinTimeout roleLow => exact keep_execJoinTimeout roleLow s hc ht
  | takeover roleLow => exact keep_execTakeover roleLow s hc ht
  | killSettleExpiry => exact keep_execKillSettleExpiry s hc ht
  | killIn active => exact keep_execKillIn active s hc ht
  | depose src v => exact keep_execDepose src v s hc ht
  | rejoin src v => exact keep_execRejoin src v s hc ht
  | deposedTimeout => exact keep_execDeposedTimeout s hc ht
  | seed src v => exact keep_execSeed src v s hc ht
  | handover src v => exact keep_execHandover src v s hc ht
  | resyncRound => exact keep_execResyncRound s hc ht
  | resyncTimeout => exact keep_execResyncTimeout s hc ht
  | mirrorInterval => exact keep_execMirrorInterval s hc ht
  | leaveConfiguration src x v => exact keep_execLeaveConfiguration src x v s hc ht
  | busIntegrated x => exact keep_execBusIntegrated x s hc ht
  | canFrameReceive x ide fdf brs esi rtr id dlc data => exact keep_execCanFrameReceive x ide fdf brs esi rtr id dlc data s hc ht
  | rdsel src x v => exact keep_execRdsel src x v s hc ht
  | txreq src x k v => exact keep_execTxreq src x k v s hc ht
  | txcan src x k v onBus => exact keep_execTxcan src x k v onBus s hc ht
  | canAttemptEnd x ago tdcv err => exact keep_execCanAttemptEnd x ago tdcv err s hc ht
  | recover src x v => exact keep_execRecover src x v s hc ht
  | busOffRecoveryDone x => exact keep_execBusOffRecoveryDone x s hc ht
  | canStatRead x => exact keep_execCanStatRead x s hc ht
  | smbIdent a lastAck => exact keep_execSmbIdent a lastAck s hc ht
  | smbStatus a lastAck => exact keep_execSmbStatus a lastAck s hc ht
  | smbReqcode a lastAck => exact keep_execSmbReqcode a lastAck s hc ht
  | smbSoc a lastAck => exact keep_execSmbSoc a lastAck s hc ht
  | smbVstr a lastAck => exact keep_execSmbVstr a lastAck s hc ht
  | smbCurr a lastAck => exact keep_execSmbCurr a lastAck s hc ht
  | smbSop a lastAck => exact keep_execSmbSop a lastAck s hc ht
  | smbText a lastAck => exact keep_execSmbText a lastAck s hc ht
  | smbVext a lastAck => exact keep_execSmbVext a lastAck s hc ht
  | smbCellsel a l pec => exact keep_execSmbCellsel a l pec s hc ht
  | smbCelldata a lastAck => exact keep_execSmbCelldata a lastAck s hc ht
  | smbEvent a lastAck => exact keep_execSmbEvent a lastAck s hc ht
  | smbUread a lastAck => exact keep_execSmbUread a lastAck s hc ht
  | smbUwrite a count l pec => exact keep_execSmbUwrite a count l pec s hc ht
  | smbUnknownCommand a code read => exact keep_execSmbUnknownCommand a code read s hc ht
  | alertResponse won lastAck => exact keep_execAlertResponse won lastAck s hc ht
  | smbReqset src v => exact keep_execSmbReqset src v s hc ht
  | sdaReleaseTimeout => exact keep_execSdaReleaseTimeout s hc ht
  | sclLowTimeout => exact keep_execSclLowTimeout s hc ht
  | ethFrameReceive p2 l fcsOk res => exact keep_execEthFrameReceive p2 l fcsOk res s hc ht
  | addressAgeOut mac => exact keep_execAddressAgeOut mac s hc ht
  | peerDelayMeasure p2 ans => exact keep_execPeerDelayMeasure p2 ans s hc ht
  | pdelayReq p2 req => exact keep_execPdelayReq p2 req s hc ht
  | sync p2 dom sender seq twoStep t1 corr logInt => exact keep_execSync p2 dom sender seq twoStep t1 corr logInt s hc ht
  | announce dom sender p1 cls acc var p2 gm steps logInt => exact keep_execAnnounce dom sender p1 cls acc var p2 gm steps logInt s hc ht
  | syncTimeout => exact keep_execSyncTimeout s hc ht
  | arpRequest sender target => exact keep_execArpRequest sender target s hc ht
  | icmpEcho from_ dest body => exact keep_execIcmpEcho from_ dest body s hc ht
  | launch r busy => exact keep_execLaunch r busy s hc ht
  | ethLinkChange p2 up gig => exact keep_execEthLinkChange p2 up gig s hc ht
  | dmaTailWrite src r v => exact keep_execDmaTailWrite src r v s hc ht
  | dmaBaseWrite src r v => exact keep_execDmaBaseWrite src r v s hc ht
  | dmaEnable src r v => exact keep_execDmaEnable src r v s hc ht
  | dmaCompletion r msg => exact keep_execDmaCompletion r msg s hc ht
  | inputFilterTick n level => exact keep_execInputFilterTick n level s hc ht
  | outputOverload k => exact keep_execOutputOverload k s hc ht
  | outputTestPulse k fell => exact keep_execOutputTestPulse k fell s hc ht
  | holdWarmTimeout => exact keep_execHoldWarmTimeout s hc ht
  | killInRelease => exact keep_execKillInRelease s hc ht
  | wakeChg active => exact keep_execWakeChg active s hc ht
  | recordPost fw code payload => exact keep_execRecordPost fw code payload s hc ht
  | recPost src v => exact keep_execRecPost src v s hc ht
  | queueToLarder => exact keep_execQueueToLarder s hc ht
  | recorderEnable src => exact keep_execRecorderEnable src s hc ht
  | flush src v => exact keep_execFlush src v s hc ht
  | flushComplete => exact keep_execFlushComplete s hc ht
  | periodicFlush => exact keep_execPeriodicFlush s hc ht
  | migration ok => exact keep_execMigration ok s hc ht
  | ident tag => exact keep_execIdent tag s hc ht
  | svcOpen tag level => exact keep_execSvcOpen tag level s hc ht
  | auth tag k xy rs => exact keep_execAuth tag k xy rs s hc ht
  | svcClose tag => exact keep_execSvcClose tag s hc ht
  | readreg tag a n => exact keep_execReadreg tag a n s hc ht
  | writereg tag a words => exact keep_execWritereg tag a words s hc ht
  | readmem tag a n => exact keep_execReadmem tag a n s hc ht
  | paramread tag n => exact keep_execParamread tag n s hc ht
  | paramwrite tag n b => exact keep_execParamwrite tag n b s hc ht
  | recread tag first count => exact keep_execRecread tag first count s hc ht
  | force tag n w0 w1 w2 w3 => exact keep_execForce tag n w0 w1 w2 w3 s hc ht
  | progctlStart tag => exact keep_execProgctlStart tag s hc ht
  | progctlStop tag => exact keep_execProgctlStop tag s hc ht
  | cleartrip tag mask => exact keep_execCleartrip tag mask s hc ht
  | transport tag => exact keep_execTransport tag s hc ht
  | clrtransport tag => exact keep_execClrtransport tag s hc ht
  | stageopen tag header => exact keep_execStageopen tag header s hc ht
  | stageblock tag block => exact keep_execStageblock tag block s hc ht
  | stageend tag trailer => exact keep_execStageend tag trailer s hc ht
  | activate tag kind force => exact keep_execActivate tag kind force s hc ht
  | onlinechg tag ready => exact keep_execOnlinechg tag ready s hc ht
  | twincfg tag ctl v => exact keep_execTwincfg tag ctl v s hc ht
  | progkey tag k hash => exact keep_execProgkey tag k hash s hc ht
  | revoke tag k j xy rs => exact keep_execRevoke tag k j xy rs s hc ht
  | resetWarm tag => exact keep_execResetWarm tag s hc ht
  | resetRecovery tag => exact keep_execResetRecovery tag s hc ht
  | debug tag on => exact keep_execDebug tag on s hc ht
  | nypehaReject cmd tag busy => exact keep_execNypehaReject cmd tag busy s hc ht
  | usbDetach => exact keep_execUsbDetach s hc ht
  | sessionIdleTimeout => exact keep_execSessionIdleTimeout s hc ht
  | trialConfirm src v => exact keep_execTrialConfirm src v s hc ht
  | feedLost fb mv => exact keep_execFeedLost fb mv s hc ht
  | feedGood fb mv => exact keep_execFeedGood fb mv s hc ht
  | rideExpiry => exact keep_execRideExpiry s hc ht
  | bankCharged => exact keep_execBankCharged s hc ht
  | bankNvClose => exact keep_execBankNvClose s hc ht
  | bankExhausted => exact keep_execBankExhausted s hc ht
  | holdUpReturn => exact keep_execHoldUpReturn s hc ht
  | standbyIdleEntry => exact keep_execStandbyIdleEntry s hc ht
  | standbyWake source adr => exact keep_execStandbyWake source adr s hc ht
  | powerOn => exact keep_execPowerOn s hc ht
  | brownOut => exact keep_execBrownOut s hc ht
  | watchdogKick src v => exact keep_execWatchdogKick src v s hc ht
  | watchdogExpiry => exact keep_execWatchdogExpiry s hc ht
  | softwareReset src v => exact keep_execSoftwareReset src v s hc ht
  | stby src v => exact keep_execStby src v s hc ht
  | rstNReset high => exact keep_execRstNReset high s hc ht
  | bringUp found => exact keep_execBringUp found s hc ht
  | fullService => exact keep_execFullService s hc ht
  | dieMeasurement t0 t1 t2 t3 t4 t5 => exact keep_execDieMeasurement t0 t1 t2 t3 t4 t5 s hc ht
  | thermalCut => exact keep_execThermalCut s hc ht
  | thermalRestart => exact keep_execThermalRestart s hc ht
  | inServiceTest n pass vals => exact keep_execInServiceTest n pass vals s hc ht
  | ledgerRecord => exact keep_execLedgerRecord s hc ht
  | alwaysOnSave => exact keep_execAlwaysOnSave s hc ht
  | nvcMramWrite src tag => exact keep_execNvcMramWrite src tag s hc ht
  | nvcNorProgram src tag => exact keep_execNvcNorProgram src tag s hc ht
  | nvcNorErase src tag => exact keep_execNvcNorErase src tag s hc ht
  | nvcUnitComplete verified => exact keep_execNvcUnitComplete verified s hc ht
  | nvcDoneRead => exact keep_execNvcDoneRead s hc ht
  | referenceTick => exact keep_execReferenceTick s hc ht
  | twinResyncReset => exact keep_execTwinResyncReset s hc ht
  | convFltRise => exact keep_execConvFltRise s hc ht
  | norEraseComplete => exact keep_execNorEraseComplete s hc ht
  | canReceiveError x code data eight => exact keep_execCanReceiveError x code data eight s hc ht
  | followUp dom sender seq t1 corr => exact keep_execFollowUp dom sender seq t1 corr s hc ht
  | sccDiagnosticsResume => exact keep_execSccDiagnosticsResume s hc ht
  | dcvtsw p d a => exact keep_execDcvtsw p d a s hc ht
  | dcvtswu p d a => exact keep_execDcvtswu p d a s hc ht
  | nypehaUnknownCommand cmd tag => exact keep_execNypehaUnknownCommand cmd tag s hc ht

/-- With no command waiting, the program's next instruction, its illegal-instruction exception and idling all keep the
invariant. -/
theorem State.idle_keeps_inv {s t : State} (hc : s.Inv) (ht : s.idle = .next t) : t.Inv := by
  unfold State.idle State.runProgram at ht
  split at ht
  · split at ht
    · exact exec_keeps_inv hc ht
    · exact State.runProgram_illegal_keeps hc ht
  · cases ht
    exact hc

/-- Settles O3: a step carries out the command at the front of the queue, or the queue is empty and the program goes on
or the block idles; each keeps the invariant. -/
theorem invKept : Obligations.InvKept := by
  unfold Obligations.InvKept
  rintro ⟨queue, d⟩ t hs ht
  cases queue with
  | nil => exact State.idle_keeps_inv hs ht
  | cons c rest => exact exec_keeps_inv (s := ⟨rest, d⟩) hs ht

end Sys2Proof.Machine
end

section
/-! SUPPORT. Register writes: who may make one, and what it stores. -/

namespace Sys2Proof.Machine

/-! ### What a write stores (Table 0.2) -/

/-- The bits that a write may take as they are: the RW bits, and the RW-L bits while the lock is open. -/
theorem bitOf_writable (r : RegRow) (k : Bool) (i : Nat) :
    bitOf (nw (r.rw ||| if k then 0 else r.rwl)) i = (bitOf (nw r.rw) i || (bitOf (nw r.rwl) i && !k)) := by
  cases k <;> simp [bitOf, nw]

/-- A write bit by bit: set-only bits rise, W1C bits clear, writable bits take the bit of `v`, every other bit stays. -/
theorem RegRow.bitOf_write (r : RegRow) (k : Bool) (old v : Word) {i : Nat} (hi : i < 32) :
    bitOf (r.write k old v) i = ((bitOf (nw r.set1) i && bitOf v i) || (!(bitOf (nw r.w1c) i && bitOf v i) &&
      (if (bitOf (nw r.rw) i || (bitOf (nw r.rwl) i && !k)) = true then bitOf v i else bitOf old i))) := by
  rw [← bitOf_writable]
  simp only [RegRow.write, bitOf, BitVec.getLsbD_or, BitVec.getLsbD_and, BitVec.getLsbD_not, hi, decide_true, Bool.true_and]
  by_cases hm : (nw (r.rw ||| if k then 0 else r.rwl)).getLsbD i = true <;> simp [hm, Bool.or_comm, Bool.and_comm]

/-- A lock bit that is set stays set (R9). -/
theorem RegRow.bitOf_write_set1 (r : RegRow) (k : Bool) (old v : Word) {i : Nat} (hi : i < 32)
    (hs : bitOf (nw r.set1) i = true) (hc : bitOf (nw r.w1c) i = false) (hw : bitOf (nw r.rw) i = false)
    (hl : bitOf (nw r.rwl) i = false) (ho : bitOf old i = true) : bitOf (r.write k old v) i = true := by
  simp [RegRow.bitOf_write r k old v hi, hs, hc, hw, hl, ho]

theorem Dev.plainWrite_listed {d : Dev} {a : Nat} {r : RegRow} (hr : findRow a = some r) (v : Word) :
    d.plainWrite a v = d.wr a (r.write (d.locked a) (d.rd a) v) := by
  rw [Dev.plainWrite, hr]

theorem Dev.plainWrite_unlisted (d : Dev) {a : Nat} (hr : findRow a = none) (v : Word) : d.plainWrite a v = d := by
  rw [Dev.plainWrite, hr]

/-! ### Who may write (R14 to R19) -/

/-- On an awake module an aligned write inside a peripheral block is decided by the gate of its block. -/
theorem exec_registerWrite_aligned {s : State} {a : Word} (src : Writer) (v : Word) (hs : s.dev.asleep = false)
    (hp : isPeriph a.toNat = true) (hb : blockOf a.toNat ≠ 27) (ha : a.toNat % 4 = 0) :
    exec (.registerWrite src a v) s =
      .next (s.on (s.dev.gate src a.toNat (fun d => d.regWrite src a.toNat v))) := by
  change s.lift (fun d => d.registerWrite src a.toNat v) = _
  rw [State.lift_awake hs]
  simp [Dev.registerWrite, Dev.periphWrite, ha, hp, hb]

/-- An expert writer, the program or a session, finds a claim-enabled block claimed for it (R15). -/
theorem Dev.takes_expert {d : Dev} {src : Writer} {a : Nat} (hsrc : src ≠ .system)
    (he : d.claimEn (blockOf a) = true) : d.takes src a = some (d.setClaim (blockOf a)) := by
  cases src with
  | system => exact absurd rfl hsrc
  | program => exact if_pos he
  | session => exact if_pos he

theorem Dev.bit_setBit_same {d : Dev} (h : d.Canon) (a : Nat) {i : Nat} (hi : i < 32) (x : Bool) :
    (d.setBit a i x).bit a i = x := by
  rw [Dev.bit, Dev.rd_setBit h, if_pos rfl, bitOf_withBit _ hi, if_pos rfl]

/-- What a claim of an unclaimed block leaves in the registers is the block's claim bit. -/
theorem Dev.setClaim_regs {d : Dev} {b : Nat} (hc : d.claimed b = false) : (d.setClaim b).regs =
    (if b < 32 then d.setBit Reg.SYS_EXPOWN0 b true else d.setBit Reg.SYS_EXPOWN1 (b - 32) true).regs := by
  unfold Dev.setClaim
  rw [hc]
  by_cases h13 : b = 13
  · subst h13; rfl
  · simp [h13]

/-- A claim leaves its block's claim bit set (R15). -/
theorem Dev.claimed_setClaim {d : Dev} (h : d.Canon) {b : Nat} (hb : b ≤ 32) : (d.setClaim b).claimed b = true := by
  cases hc : d.claimed b with
  | true => simp [Dev.setClaim, hc]
  | false =>
    have hr := Dev.setClaim_regs hc
    unfold Dev.claimed Dev.bit Dev.rd
    rw [hr]
    split
    · exact Dev.bit_setBit_same h _ (by omega) true
    · exact Dev.bit_setBit_same h _ (by omega) true

/-! ### Discarded writes (R16, R27) -/

/-- A field that is the whole word takes any value of 32 bits. -/
theorem withField_word (w : Word) {v : Nat} (hv : v < 2 ^ 32) : withField w 31 0 v = nw v := by
  have h0 : w.toNat &&& 0 = 0 := Nat.and_zero _
  have h1 : v &&& (2 ^ 32 - 1) = v := by rw [Nat.and_two_pow_sub_one_eq_mod, Nat.mod_eq_of_lt hv]
  simpa [withField, nw] using congrArg (BitVec.ofNat 32) h1

theorem fieldOf_word (w : Word) : fieldOf w 31 0 = w.toNat := by
  simpa [fieldOf] using Nat.mod_eq_of_lt w.isLt

/-- A whole-word counter rises by 1 and stays at its greatest value. -/
theorem Dev.rd_satInc_word {d : Dev} (h : d.Canon) (a : Nat) :
    (d.satInc a 31 0).rd a = nw (min 4294967295 ((d.rd a).toNat + 1)) := by
  have hsat : satN (2 ^ (31 - 0 + 1) - 1) (d.fld a 31 0 + 1) = min 4294967295 ((d.rd a).toNat + 1) := by
    rw [Dev.fld, fieldOf_word]
    unfold satN
    split <;> omega
  rw [Dev.satInc, hsat, Dev.rd_setFld h, if_pos rfl, withField_word _ (by omega)]

/-- A discarded write counts in SYS_EXPDROP and shows its block and offset in SYS_EXPDBLK; the entry that the first one
after a claim makes writes registers of the recorder alone. -/
theorem Dev.rd_discard {d : Dev} (h : d.Canon) (a : Nat) {b : Nat} (hb : b ∉ recorderRegs) :
    (d.discard a).rd b =
      if b = Reg.SYS_EXPDBLK then nw (blockOf a * 65536 + a % 65536) else (d.satInc Reg.SYS_EXPDROP 31 0).rd b := by
  have hsat := Dev.satInc_canon Reg.SYS_EXPDROP 31 0 h
  rw [← Dev.rd_wr hsat, ← Dev.rd_start _ (0x7000 + blockOf a)]
  unfold Dev.discard
  dsimp only
  split
  · exact Dev.rd_hw_other (Dev.start_canon _ (Dev.wr_canon _ _ hsat)) hb _ _
  · rfl

theorem Dev.rd_discard_drop {d : Dev} (h : d.Canon) (a : Nat) :
    (d.discard a).rd Reg.SYS_EXPDROP = nw (min 4294967295 ((d.rd Reg.SYS_EXPDROP).toNat + 1)) := by
  rw [Dev.rd_discard h a (by decide), if_neg (by decide), Dev.rd_satInc_word h]

theorem Dev.rd_discard_block {d : Dev} (h : d.Canon) (a : Nat) :
    (d.discard a).rd Reg.SYS_EXPDBLK = nw (blockOf a * 65536 + a % 65536) := by
  rw [Dev.rd_discard h a (by decide), if_pos rfl]

theorem Dev.rd_discard_other {d : Dev} (h : d.Canon) (a : Nat) {b : Nat} (hb : b ∉ recorderRegs)
    (hdrop : b ≠ Reg.SYS_EXPDROP) (hblk : b ≠ Reg.SYS_EXPDBLK) : (d.discard a).rd b = d.rd b := by
  rw [Dev.rd_discard h a hb, if_neg hblk, Dev.rd_satInc_other h hdrop]

/-- Settles O5: what a write stores bit by bit and in the register store, who may make one, what a discarded write leaves,
and the claim of an expert write. -/
theorem registerAccess : Obligations.RegisterAccess := by
  unfold Obligations.RegisterAccess
  refine ⟨fun r k old v i hi => RegRow.bitOf_write r k old v hi,
    fun r k old v i hi hs hc hw hl ho => RegRow.bitOf_write_set1 r k old v hi hs hc hw hl ho,
    fun d a b r v h hr => ?stored, fun d a v hr => Dev.plainWrite_unlisted d hr v,
    fun s a v hs hp hb ha => ⟨fun hc => ?discarded, fun he => ?raises, fun he => ?ignored⟩,
    fun d a b h => ⟨Dev.rd_discard_drop h a, Dev.rd_discard_block h a, fun h1 h2 h3 h4 h5 h6 => ?left⟩,
    fun s src a v d hs hp hb ha hsrc he hd => ?claims, fun d b h hb => Dev.claimed_setClaim h hb⟩
  case stored => rw [Dev.plainWrite_listed hr, Dev.rd_wr h]
  case discarded => rw [exec_registerWrite_aligned _ v hs hp hb ha, Dev.gate_discards hc]
  case raises => rw [exec_registerWrite_aligned _ v hs hp hb ha, Dev.gate_raises he]
  case ignored => rw [exec_registerWrite_aligned _ v hs hp hb ha, Dev.gate_ignores he]
  case left => exact Dev.rd_discard_other h a (by simp [recorderRegs, h3, h4, h5, h6]) h1 h2
  case claims => rw [exec_registerWrite_aligned src v hs hp hb ha, Dev.gate_takes (Dev.takes_expert hsrc he), hd]

end Sys2Proof.Machine
end

section
/-! SUPPORT. The module at reset, the claim registers and the commands of the local clock. -/

namespace Sys2Proof.Machine

/-! ### The module at reset -/

/-- At reset every register reads the reset value of its row (R7). -/
theorem Dev.rd_reset (a : Nat) : Dev.reset.rd a = regReset a := rfl

/-- No block is claimed at reset: both words of SYS_EXPOWN read zero. -/
theorem Dev.claimed_reset (b : Nat) : Dev.reset.claimed b = false := by
  have h0 : Dev.reset.rd Reg.SYS_EXPOWN0 = 0 := by decide
  have h1 : Dev.reset.rd Reg.SYS_EXPOWN1 = 0 := by decide
  unfold Dev.claimed Dev.bit
  split
  · simp [h0, bitOf]
  · simp [h1, bitOf]

/-- Settles O4: the module at reset, its claims, and the reset values of the register lists. -/
theorem resetState : Obligations.ResetState := by
  unfold Obligations.ResetState
  refine ⟨⟨Dev.reset_canon, rfl, rfl⟩, fun p => ?pair, ⟨rfl, rfl, rfl, rfl⟩,
    fun b _ => Dev.claimed_reset b, ?values⟩
  case pair => cases p <;> exact ⟨rfl, rfl⟩
  case values =>
    simp only [State.reset, Dev.rd_reset]
    decide

/-! ### A command with its effect named -/

theorem State.lift_gate_eq {s : State} {src : Writer} {a : Nat} {d e : Dev} {f : Dev → Dev}
    (hs : s.dev.asleep = false) (ht : s.dev.takes src a = some d) (he : f d = e) :
    s.lift (fun d => d.gate src a f) = .next (s.on e) := by
  rw [State.lift_gate hs ht, he]

theorem exec_awake_eq {c : Instr} {s : State} {e : Dev} (hs : s.dev.asleep = false) (f : Dev → Dev)
    (hc : exec c s = s.lift f) (he : f s.dev = e) : exec c s = .next (s.on e) := by
  rw [hc, State.lift_awake hs, he]

theorem Dev.bit_wr_other {d : Dev} (h : d.Canon) {a b : Nat} (hb : b ≠ a) (v : Word) (i : Nat) :
    (d.wr a v).bit b i = d.bit b i := by
  rw [Dev.bit, Dev.rd_wr_other h hb, Dev.bit]

/-! ### The claim registers (R20, R25) -/

theorem Dev.release_low (d : Dev) (v : Word) : d.release false v =
    { d.wr Reg.SYS_EXPOWN0 (d.rd Reg.SYS_EXPOWN0 &&& ~~~ v) with
      svc := { d.svc with resume := d.svc.resume ++
        (List.range 32).filter (fun i => bitOf (d.rd Reg.SYS_EXPOWN0 &&& v) i) } } := by
  simp [Dev.release]

/-- Firmware and a session of service authority release; every other session does not. -/
theorem Dev.expRelWrite_releases {d : Dev} {src : Writer}
    (h : src = .system ∨ src = .session ∧ d.fld Reg.SVC_STAT 5 4 = 3) (hi : Bool) (v : Word) :
    d.expRelWrite src hi v = d.release hi v := by
  rcases h with rfl | ⟨rfl, h⟩
  · rfl
  · exact if_pos h

/-- The one bit of SYS_CTL that a write reaches is LOCK, and it only rises. -/
theorem Dev.sysCtlWrite_eq (d : Dev) (v : Word) :
    d.sysCtlWrite v = d.wr Reg.SYS_CTL (d.rd Reg.SYS_CTL ||| (v &&& 1)) := by
  have hr : findRow Reg.SYS_CTL = some { base := Reg.SYS_CTL, set1 := 1 } := by decide
  rw [Dev.sysCtlWrite, Dev.plainWrite_listed hr]
  have hall : d.rd Reg.SYS_CTL &&& 4294967295#32 = d.rd Reg.SYS_CTL := BitVec.and_allOnes
  simp [RegRow.write, nw, hall]

/-! ### The rate and the steps of the local clock (R31, R32) -/

theorem iw_toNat (w : Word) : iw w.toNat = w := by simp [iw]

theorem Dev.timInc_in (d : Dev) {v : Word} (hlo : 0x07FF0000 ≤ v.toNat) (hhi : v.toNat ≤ 0x08010000) :
    d.timInc v = (d.wr Reg.TIM_INC v).start Tm.hold := by
  unfold Dev.timInc
  rw [clampI_in (by omega) (by omega)]
  dsimp only
  rw [if_pos rfl, iw_toNat]
  rfl

/-- A rate that its range does not hold is stored at the bound, with CLAMP. -/
theorem Dev.timInc_held (d : Dev) {v : Word} {b : Int} (hb : clampI 0x07FF0000 0x08010000 v.toNat = b)
    (hv : b ≠ v.toNat) : d.timInc v = ((d.flag Reg.TIM_STAT 3).wr Reg.TIM_INC (iw b)).start Tm.hold := by
  subst hb
  unfold Dev.timInc
  dsimp only
  rw [if_neg hv]
  rfl

theorem Dev.timInc_low (d : Dev) {v : Word} (h : v.toNat < 0x07FF0000) :
    d.timInc v = ((d.flag Reg.TIM_STAT 3).wr Reg.TIM_INC 0x07FF0000).start Tm.hold :=
  d.timInc_held (clampI_low (by omega)) (by omega)

theorem Dev.timInc_high (d : Dev) {v : Word} (h : 0x08010000 < v.toNat) :
    d.timInc v = ((d.flag Reg.TIM_STAT 3).wr Reg.TIM_INC 0x08010000).start Tm.hold :=
  d.timInc_held (clampI_high (by omega) (by decide)) (by omega)

theorem Dev.timAdjNs_in (d : Dev) {v : Word} (h : v.toInt.natAbs ≤ 999999999) :
    d.timAdjNs v = (Dev.flag { d with tim := { d.tim.step d.tim.adjSec.toInt v.toInt with adjSec := 0 } }
      Reg.TIM_STAT 1).start Tm.hold :=
  if_neg (Nat.not_lt.2 h)

theorem Dev.timAdjNs_out (d : Dev) {v : Word} (h : 999999999 < v.toInt.natAbs) :
    d.timAdjNs v = d.flag Reg.TIM_STAT 3 :=
  if_pos h

/-! ### Validity of the local clock (R33) -/

/-- DECL counts unless TIM_HOLDTO, which the write of TIM_CTL leaves alone, is zero. -/
theorem Dev.timCtl_declares {d : Dev} (h : d.Canon) {v : Word} (hv : bitOf v 1 = true)
    (hto : d.rd Reg.TIM_HOLDTO ≠ 0) :
    d.timCtl v = (((d.plainWrite Reg.TIM_CTL v).setBit Reg.TIM_STAT 0 true).start Tm.hold).angReturn := by
  have hkeep : (d.plainWrite Reg.TIM_CTL v).rd Reg.TIM_HOLDTO = d.rd Reg.TIM_HOLDTO :=
    Dev.rd_plainWrite_other h (by decide) v
  unfold Dev.timCtl
  rw [if_pos (by rw [hkeep, hv, bne_iff_ne.2 hto]; rfl)]
  rfl

theorem Dev.holdExpiry_due {d : Dev} (hv : d.bit Reg.TIM_STAT 0 = true)
    (hdue : d.due Tm.hold (secT (d.rd Reg.TIM_HOLDTO).toNat) = true) : d.holdExpiry = d.timLost :=
  if_pos (by rw [hv, hdue]; rfl)

/-- A write of TIM_HOLDTO ends validity when it is zero or the timer has run as long as the new value. -/
theorem Dev.timHoldTo_eq {d : Dev} (h : d.Canon) (v : Word) : d.timHoldTo v =
    if d.bit Reg.TIM_STAT 0 = true ∧ (v = 0 ∨ d.due Tm.hold (secT v.toNat) = true) then
      (d.wr Reg.TIM_HOLDTO v).timLost
    else d.wr Reg.TIM_HOLDTO v := by
  have hbit : (d.wr Reg.TIM_HOLDTO v).bit Reg.TIM_STAT 0 = d.bit Reg.TIM_STAT 0 := Dev.bit_wr_other h (by decide) v 0
  have hrd : (d.wr Reg.TIM_HOLDTO v).rd Reg.TIM_HOLDTO = v := Dev.rd_wr_same h _ v
  have hdue : (d.wr Reg.TIM_HOLDTO v).due Tm.hold (secT v.toNat) = d.due Tm.hold (secT v.toNat) := rfl
  unfold Dev.timHoldTo Dev.holdExpiry
  dsimp only
  rw [hbit, hrd, hdue]
  cases d.bit Reg.TIM_STAT 0 with
  | false => simp
  | true =>
    by_cases hv : v = 0
    · rw [if_neg (by decide), if_pos hv, if_pos ⟨rfl, .inl hv⟩]
    · rw [if_neg (by decide), if_neg hv]
      simp only [Bool.true_and, true_and, hv, false_or]

theorem Dev.timHoldTo_ends {d : Dev} (h : d.Canon) {v : Word} (hvalid : d.bit Reg.TIM_STAT 0 = true)
    (hend : v = 0 ∨ d.due Tm.hold (secT v.toNat) = true) : d.timHoldTo v = (d.wr Reg.TIM_HOLDTO v).timLost := by
  rw [Dev.timHoldTo_eq h, if_pos ⟨hvalid, hend⟩]

theorem Dev.timHoldTo_invalid {d : Dev} (h : d.Canon) (v : Word) (hvalid : d.bit Reg.TIM_STAT 0 = false) :
    d.timHoldTo v = d.wr Reg.TIM_HOLDTO v := by
  simp [Dev.timHoldTo_eq h, hvalid]

theorem Dev.timHoldTo_runs {d : Dev} (h : d.Canon) {v : Word} (hv : v ≠ 0)
    (hdue : d.due Tm.hold (secT v.toNat) = false) : d.timHoldTo v = d.wr Reg.TIM_HOLDTO v := by
  rw [Dev.timHoldTo_eq h, if_neg (by rw [hdue]; exact fun hend => hend.2.elim hv (by decide))]

/-- Settles O32: the claim registers, the rate and the steps of the local clock, its validity, and the captures. -/
theorem clockCommands : Obligations.ClockCommands := by
  unfold Obligations.ClockCommands
  refine ⟨fun s src v => ?release, fun s hi v hs hauth => ?noAuthority, fun s v hs => ?program,
    fun s src v d hs ht => State.lift_gate_eq hs ht (d.sysCtlWrite_eq v),
    fun s src v d hs ht => ⟨fun hlo hhi => ?rateIn, fun h => ?rateLow, fun h => ?rateHigh⟩,
    fun s src v d hs ht => State.lift_gate hs ht _,
    fun s src v d hs ht => ⟨fun h => ?stepIn, fun h => ?stepOut⟩,
    fun s src v d hc hs ht hv hto => ?declares,
    fun s src v d hc hs ht => ?holdTo,
    fun s hs hv hdue => exec_awake_eq hs Dev.holdExpiry rfl (Dev.holdExpiry_due hv hdue),
    fun s v hs => ?correction,
    fun s src d hs ht => State.lift_gate hs ht _,
    fun s hs => ⟨?timeBaseRead, ?angleRead, rfl, rfl⟩⟩
  case release =>
    intro e hs hauth
    exact exec_awake_eq hs (fun d => d.expRelWrite src false v) rfl
      ((Dev.expRelWrite_releases hauth false v).trans (s.dev.release_low v))
  case noAuthority => exact exec_awake_eq hs (fun d => d.expRelWrite .session hi v) rfl (if_neg hauth)
  case program => exact exec_awake_eq hs (fun d => d.expRelWrite .program false v) rfl rfl
  case rateIn => exact State.lift_gate_eq hs ht (d.timInc_in hlo hhi)
  case rateLow => exact State.lift_gate_eq hs ht (d.timInc_low h)
  case rateHigh => exact State.lift_gate_eq hs ht (d.timInc_high h)
  case stepIn => exact State.lift_gate_eq hs ht (d.timAdjNs_in h)
  case stepOut => exact State.lift_gate_eq hs ht (d.timAdjNs_out h)
  case declares => exact State.lift_gate_eq hs ht (Dev.timCtl_declares (Dev.takes_keeps hc ht) hv hto)
  case holdTo =>
    have hd : d.Canon := Dev.takes_keeps hc ht
    exact ⟨fun hvalid => State.lift_gate_eq hs ht (Dev.timHoldTo_invalid hd v hvalid),
      fun hvalid hv => State.lift_gate_eq hs ht (Dev.timHoldTo_ends hd hvalid (.inl hv)),
      fun _ hv hdue => State.lift_gate_eq hs ht (Dev.timHoldTo_runs hd hv hdue),
      fun hvalid _ hdue => State.lift_gate_eq hs ht (Dev.timHoldTo_ends hd hvalid (.inr hdue))⟩
  case correction =>
    exact exec_awake_eq hs (fun d => d.wr Reg.TIM_TCORR (iw (clampI (-32767) 32767 v.toInt))) rfl rfl
  case timeBaseRead => exact exec_awake_eq hs (fun d => d.timTbRead.2) rfl rfl
  case angleRead => exact exec_awake_eq hs (fun d => d.angAngleRead.2) rfl rfl

end Sys2Proof.Machine
end

section
/-! SUPPORT. The local clock by one tick of the reference. -/

namespace Sys2Proof.Machine

/-! ### The clock as one number (R30, R35) -/

/-- A counter modulo M above a part of m: the carry of the part counts in the counter. -/
theorem mod_carry (n g m M : Nat) (hm : 0 < m) : (n + g / m) % M * m + g % m = (n * m + g) % (M * m) := by
  rw [Nat.mul_comm M m, Nat.mod_mul, Nat.mul_comm n m, Nat.mul_add_mod, Nat.mul_add_div hm, Nat.mul_comm m,
    Nat.add_comm]

theorem TimSt.tick_bounds (t : TimSt) (e : Nat) :
    (t.tick e).ns < 1000000000 ∧ (t.tick e).frac < 2 ^ 24 ∧ (t.tick e).sec < 2 ^ 48 :=
  ⟨Nat.mod_lt _ (by decide), Nat.mod_lt _ (by decide), Nat.mod_lt _ (by decide)⟩

theorem TimSt.tick_clock (t : TimSt) (e : Nat) :
    ((t.tick e).sec * 1000000000 + (t.tick e).ns) * 2 ^ 24 + (t.tick e).frac =
      ((t.sec * 1000000000 + t.ns) * 2 ^ 24 + t.frac + e) % (2 ^ 48 * 1000000000 * 2 ^ 24) := by
  have hsec := mod_carry t.sec (t.ns + (t.frac + e) / 2 ^ 24) 1000000000 (2 ^ 48) (by decide)
  have hfrac := mod_carry (t.sec * 1000000000 + t.ns) (t.frac + e) (2 ^ 24) (2 ^ 48 * 1000000000) (by decide)
  rw [← Nat.add_assoc] at hsec
  rw [Nat.add_assoc _ t.frac e, ← hfrac, ← hsec]
  rfl

theorem TimSt.tick_timeBase (t : TimSt) (e : Nat) :
    (t.tick e).tb * (1000 * 2 ^ 24) + (t.tick e).tbFrac =
      (t.tb * (1000 * 2 ^ 24) + t.tbFrac + e) % (2 ^ 64 * (1000 * 2 ^ 24)) := by
  rw [Nat.add_assoc _ t.tbFrac e]
  exact mod_carry t.tb (t.tbFrac + e) (1000 * 2 ^ 24) (2 ^ 64) (by decide)

/-! ### The tick of the reference -/

theorem Dev.awake_powered {d : Dev} (h : d.asleep = false) : d.pwrState ≠ 0 ∧ d.pwrState ≠ 5 ∧ d.pwrState ≠ 6 := by
  simp only [Dev.asleep, Bool.or_eq_false_iff, decide_eq_false_iff_not] at h
  obtain ⟨⟨⟨hoff, hstby⟩, hidle⟩, -⟩ := h
  exact ⟨hoff, hstby, hidle⟩

theorem exec_referenceTick_awake {s : State} (h : s.dev.asleep = false) :
    exec .referenceTick s = .next (s.on s.dev.tick) := by
  obtain ⟨hoff, hstby, hhold⟩ := Dev.awake_powered h
  show execReferenceTick s = _
  simp [execReferenceTick, State.always, State.on, hoff, hstby, hhold, h]

theorem exec_referenceTick_off {s : State} (h : s.dev.pwrState = 0) :
    exec .referenceTick s = .next (s.on { s.dev with now := s.dev.now + 1 }) := by
  show execReferenceTick s = _
  simp only [execReferenceTick, State.always, State.on, if_pos h]

/-- Settles O34: the carries of the tick, and what the tick of a working and of an unpowered module is. -/
theorem localClockTick : Obligations.LocalClockTick := by
  unfold Obligations.LocalClockTick
  refine ⟨fun t e _ _ _ _ _ => ⟨t.tick_bounds e, t.tick_clock e, t.tick_timeBase e⟩, fun s _ hs => ?awake,
    fun s hs => exec_referenceTick_off hs⟩
  case awake =>
    have hclocks := s.dev.tick_clocks
    simp only [Dev.clocks, Prod.mk.injEq] at hclocks
    obtain ⟨hnow, htim, hsys, hprog⟩ := hclocks
    exact ⟨_, exec_referenceTick_awake hs, rfl, hnow, htim, hsys, hprog⟩

end Sys2Proof.Machine
end

section
/-! SUPPORT. The commands of the angle clock. -/

namespace Sys2Proof.Machine

/-! ### A command with its effect named -/

theorem State.lift_awake_eq {s : State} {f : Dev → Dev} {e : Dev} (hs : s.dev.asleep = false) (he : f s.dev = e) :
    s.lift f = .next (s.on e) := by
  rw [State.lift_awake hs, he]

/-! ### The wrap and the sources (R39 to R43) -/

/-- An advance that wraps raises the cycle count and makes a requested swap. -/
theorem Dev.angTick_wraps {d : Dev} (h : d.angWraps = true) : d.angTick = Dev.ttSwap
    { d with
      ang := { d.ang with
        prev := d.ang.angle
        angle := (d.ang.angle + (d.ang.frac + d.angInc) / 2 ^ 16) % 2 ^ 32
        frac := (d.ang.frac + d.angInc) % 2 ^ 16
        cycle := (d.ang.cycle + 1) % 2 ^ 32 }
      tt := { d.tt with done := false, held := [] } } := by
  unfold Dev.angWraps at h
  unfold Dev.angTick
  simp only [h, if_true]

theorem Dev.angLoss_lapsed {d : Dev} (h : d.angRefresh.angValid d.angRefresh.angSrc = false) :
    d.angLoss = (let e := d.angRefresh
      e.angChange (((e.angOrder.drop (e.angRank e.angSrc + 1)).find? (fun x => e.angValid x)).getD 2) 1) :=
  if_neg (by rw [h]; decide)

theorem Dev.angLoss_valid {d : Dev} (h : d.angRefresh.angValid d.angRefresh.angSrc = true) :
    d.angLoss = d.angRefresh :=
  if_pos h

theorem Dev.angHigher_none {d : Dev} (h : d.bit Reg.ANG_CTL 1 = true ∨ d.ang.started = false ∨
    (d.angOrder.take (d.angRank d.angSrc)).find?
      (fun x => d.angValid x && (decide (d.ang.fallen = none) || d.angLong x)) = none) : d.angHigher = none := by
  unfold Dev.angHigher
  split
  · rfl
  · next hfree =>
    obtain ⟨hforce, hstart⟩ : d.bit Reg.ANG_CTL 1 = false ∧ d.ang.started = true := by simpa using hfree
    simpa [hforce, hstart] using h

theorem Dev.angHigher_free {d : Dev} (hforce : d.bit Reg.ANG_CTL 1 = false) (hstart : d.ang.started = true) :
    d.angHigher = (d.angOrder.take (d.angRank d.angSrc)).find?
      (fun x => d.angValid x && (decide (d.ang.fallen = none) || d.angLong x)) :=
  if_neg (by rw [hforce, hstart]; decide)

theorem Dev.angReturn_some {d : Dev} {n : Nat} (h : d.angRefresh.angHigher = some n) :
    d.angReturn = d.angRefresh.angChange n 2 := by
  simp only [Dev.angReturn, h]

theorem Dev.angReturn_none {d : Dev} (h : d.angRefresh.angHigher = none) : d.angReturn = d.angRefresh := by
  simp only [Dev.angReturn, h]

/-- A write of ANG_CTL that changes FORCEFR selects a source. -/
theorem Dev.angCtl_force {d : Dev} {v : Word}
    (h : (d.plainWrite Reg.ANG_CTL v).bit Reg.ANG_CTL 1 ≠ d.bit Reg.ANG_CTL 1) :
    d.angCtl v = (let e := (d.plainWrite Reg.ANG_CTL v).angRefresh
      (e.angChange e.angFirst 3).slewAtOnce) := by
  have hbit : ((d.plainWrite Reg.ANG_CTL v).angRefresh.bit Reg.ANG_CTL 1 != d.bit Reg.ANG_CTL 1) = true :=
    bne_iff_ne.2 h
  simp only [Dev.angCtl, hbit, if_true]

/-! ### The increment (R40, R44) -/

theorem Dev.freeRunSlew_at_once {d : Dev} (hpll : d.bit Reg.ANG_CTL 0 = true)
    (hfree : d.angSrc = 2 ∨ d.bit Reg.ANG_CTL 1 = true) (hslew : d.rd Reg.ANG_SLEW = 0) :
    d.freeRunSlew = d.setInc d.angNom := by
  simp [Dev.freeRunSlew, hpll, hfree, hslew]

theorem Dev.freeRunSlew_limited {d : Dev} (hpll : d.bit Reg.ANG_CTL 0 = true)
    (hfree : d.angSrc = 2 ∨ d.bit Reg.ANG_CTL 1 = true) (hslew : d.rd Reg.ANG_SLEW ≠ 0) :
    d.freeRunSlew = d.setInc (d.angInc + clampI (-((d.rd Reg.ANG_SLEW).toNat : Int)) (d.rd Reg.ANG_SLEW).toNat
      ((d.angNom : Int) - d.angInc)) := by
  have hne : (d.rd Reg.ANG_SLEW).toNat ≠ 0 := fun h => hslew (BitVec.eq_of_toNat_eq h)
  simp [Dev.freeRunSlew, hpll, hfree, hne]

theorem Dev.slewDue_due {d : Dev} (h : d.running Tm.slew = false ∨ d.due Tm.slew 125000 = true) :
    d.slewDue = d.freeRunSlew.start Tm.slew :=
  if_neg (by rcases h with h | h <;> simp [h, msT])

theorem Dev.slewDue_early {d : Dev} (hrun : d.running Tm.slew = true) (hdue : d.due Tm.slew 125000 = false) :
    d.slewDue = d :=
  if_pos (by simp [hrun, hdue, msT])

theorem Dev.setInc_in (d : Dev) {i : Int} (hlo : 0x055E63B9 ≤ i) (hhi : i ≤ 0x09652E83) :
    d.setInc i = (d.wr Reg.ANG_INC_LO (iw i)).wr Reg.ANG_INC_HI (nw (i.toNat / 2 ^ 32)) := by
  simp only [Dev.setInc, angLo, angHi, clampI_in hlo hhi, if_true]

/-- An increment that its bounds do not hold is taken at the bound, with INCCLAMP. -/
theorem Dev.setInc_held (d : Dev) {i b : Int} (hb : clampI angLo angHi i = b) (hi : b ≠ i) :
    d.setInc i = ((d.flag Reg.ANG_STAT 6).wr Reg.ANG_INC_LO (iw b)).wr Reg.ANG_INC_HI (nw (b.toNat / 2 ^ 32)) := by
  simp only [Dev.setInc, hb, if_neg hi]

theorem Dev.setInc_low (d : Dev) {i : Int} (h : i < 0x055E63B9) :
    d.setInc i = ((d.flag Reg.ANG_STAT 6).wr Reg.ANG_INC_LO 0x055E63B9).wr Reg.ANG_INC_HI 0 :=
  d.setInc_held (clampI_low h) (Int.ne_of_gt h)

theorem Dev.setInc_high (d : Dev) {i : Int} (h : 0x09652E83 < i) :
    d.setInc i = ((d.flag Reg.ANG_STAT 6).wr Reg.ANG_INC_LO 0x09652E83).wr Reg.ANG_INC_HI 0 :=
  d.setInc_held (clampI_high h (by decide)) (Int.ne_of_lt h)

/-! ### The zero crossing (R47) -/

theorem exec_zcEdge_awake {s : State} {level : Bool} {us : BitVec 16} {e : Dev} (hs : s.dev.asleep = false)
    (he : s.dev.zcLevel level us.toNat = e) : exec (.zcEdge level us) s = .next (s.on e) :=
  exec_awake_eq hs (fun d => d.zcLevel level us.toNat) rfl he

theorem Dev.zcLevel_unheld {d : Dev} {level : Bool} {us : Nat}
    (h : us < d.fld Reg.ANG_ZCCFG 15 8 ∨ d.pins.zcIn = level) : d.zcLevel level us = d :=
  if_pos (by simpa using h)

/-- A level that has held for FILT counts, and the active side of POL is an active edge. -/
theorem Dev.zcLevel_held {d : Dev} {level : Bool} {us : Nat} (hus : d.fld Reg.ANG_ZCCFG 15 8 ≤ us)
    (hl : d.pins.zcIn ≠ level) : d.zcLevel level us =
      if level = d.bit Reg.ANG_ZCCFG 0 then { d with pins := { d.pins with zcIn := level } }
      else Dev.zcEdge { d with pins := { d.pins with zcIn := level } } := by
  have hpass : ¬ (decide (us < d.fld Reg.ANG_ZCCFG 15 8) || decide (d.pins.zcIn = level)) = true := by simp [hus, hl]
  unfold Dev.zcLevel
  rw [if_neg hpass]
  by_cases hp : level = d.bit Reg.ANG_ZCCFG 0
  · rw [if_pos hp]
    exact if_neg (fun hne => bne_iff_ne.1 hne hp)
  · rw [if_neg hp]
    exact if_pos (bne_iff_ne.2 hp)

/-- The phase error of an active edge, as ANG_ZCOFS corrects the captured angle. -/
def Dev.zcError (d : Dev) : Int := (d.rd Reg.ANG_ZCOFS - nw d.ang.angle).toInt

/-- The PLL is locked to the zero crossing. -/
def Dev.zcLocked (d : Dev) : Bool := d.bit Reg.ANG_STAT 4 && decide (d.angSrc = 1)

theorem Dev.zcEdge_eq (d : Dev) : d.zcEdge =
    (let c := d.wr Reg.ANG_ZCCAP (nw d.ang.angle)
    if c.zcLocked && (decide (c.fld Reg.ANG_ZCCFG 31 16 = 0) ||
      decide (c.fld Reg.ANG_ZCCFG 31 16 * 65536 < c.zcError.natAbs)) then c.flag Reg.ANG_STAT 5
    else c.angDeliver 1 c.zcError) := rfl

theorem Dev.zcEdge_accepted {d c : Dev} (hc : d.wr Reg.ANG_ZCCAP (nw d.ang.angle) = c) (h : c.zcLocked = false ∨
    c.fld Reg.ANG_ZCCFG 31 16 ≠ 0 ∧ c.zcError.natAbs ≤ c.fld Reg.ANG_ZCCFG 31 16 * 65536) :
    d.zcEdge = c.angDeliver 1 c.zcError := by
  subst hc
  rw [Dev.zcEdge_eq]
  refine if_neg ?_
  rcases h with hfree | ⟨hwin, hin⟩
  · simp [hfree]
  · simp [hwin, hin]

theorem Dev.zcEdge_rejected {d c : Dev} (hc : d.wr Reg.ANG_ZCCAP (nw d.ang.angle) = c) (hlock : c.zcLocked = true)
    (h : c.fld Reg.ANG_ZCCFG 31 16 = 0 ∨ c.fld Reg.ANG_ZCCFG 31 16 * 65536 < c.zcError.natAbs) :
    d.zcEdge = c.flag Reg.ANG_STAT 5 := by
  subst hc
  rw [Dev.zcEdge_eq]
  exact if_pos (by simpa [hlock] using h)

/-- Settles O33: the wrap, the changes of the source, the increment, and the deliveries to the PLL. -/
theorem angleCommands : Obligations.AngleCommands := by
  unfold Obligations.AngleCommands
  refine ⟨fun s hs hw => State.lift_awake_eq hs ((if_pos hw).trans (Dev.angTick_wraps hw)),
    fun s hs h => State.lift_awake_eq hs (Dev.angLoss_lapsed h),
    fun s hs h => State.lift_awake_eq hs (Dev.angLoss_valid h),
    fun s n hs hforce hstart h =>
      State.lift_awake_eq hs (Dev.angReturn_some ((Dev.angHigher_free hforce hstart).trans h)),
    fun s hs h => State.lift_awake_eq hs (Dev.angReturn_none (Dev.angHigher_none h)),
    fun s src v d hs ht => State.lift_gate hs ht _,
    fun s src v d hs ht h => State.lift_gate_eq hs ht (Dev.angCtl_force h),
    fun s hs hdue hpll hfree => ⟨fun h => State.lift_awake_eq hs ?atOnce, fun h => State.lift_awake_eq hs ?limited⟩,
    fun s hs hrun hdue => State.lift_awake_eq hs (Dev.slewDue_early hrun hdue),
    fun s src v d hs ht => State.lift_gate hs ht _, fun s src v d hs ht => State.lift_gate hs ht _,
    fun s src v d hs ht => State.lift_gate hs ht _,
    fun s level us hs h => exec_zcEdge_awake hs (Dev.zcLevel_unheld h),
    fun s level us hs hus hl hp => exec_zcEdge_awake hs ((Dev.zcLevel_held hus hl).trans (if_pos hp)),
    fun s level us hs hus hl hp => ?active,
    fun d i => ⟨d.setInc_in, d.setInc_low, d.setInc_high⟩⟩
  case atOnce => rw [Dev.slewDue_due hdue, Dev.freeRunSlew_at_once hpll hfree h]
  case limited => rw [Dev.slewDue_due hdue, Dev.freeRunSlew_limited hpll hfree h]
  case active =>
    have hedge := (Dev.zcLevel_held hus hl).trans (if_neg hp)
    exact ⟨fun h => exec_zcEdge_awake hs (hedge.trans (Dev.zcEdge_accepted rfl h)),
      fun hlock h => exec_zcEdge_awake hs (hedge.trans (Dev.zcEdge_rejected rfl hlock h))⟩

end Sys2Proof.Machine
end

section
/-! SUPPORT. The commands of the timetable and of cell balancing. -/

namespace Sys2Proof.Machine

/-! ### The matches of a tick (R52 to R54, R57) -/

theorem Dev.ttMatch_idle {d : Dev} (h : d.tt.done = true ∨ d.bit Reg.TT_CTL 0 = false) : d.ttMatch = d :=
  if_pos (by simpa using h)

/-- The action codes that are issued as commands, the program-cycle start before the strobes (R54). -/
def ttCodes : List Nat := [3, 1, 2, 4, 5, 6, 11]

/-- The actions of merged matches, code by code. -/
def Dev.ttActions (d : Dev) (codes : List Nat) (m : List (Nat × Nat)) : Dev :=
  codes.foldl (fun (d : Dev) c =>
    ((m.filter (fun e => e.1 == c)).zipIdx).foldl (fun (d : Dev) e => d.ttAction e.1.1 e.1.2 e.2) d) d

/-- A single match is issued where its code stands among the codes. -/
theorem Dev.ttActions_one {codes : List Nat} (hn : codes.Nodup) (d : Dev) (c a : Nat) :
    d.ttActions codes [(c, a)] = if c ∈ codes then d.ttAction c a 0 else d := by
  induction codes generalizing d with
  | nil => rfl
  | cons x xs ih =>
    obtain ⟨hx, hxs⟩ := List.nodup_cons.1 hn
    simp only [Dev.ttActions] at ih
    rw [Dev.ttActions, List.foldl_cons, ih hxs]
    by_cases h : c = x
    · subst h
      simp [hx]
    · simp [h]

/-- A code that is issued as a command moves no window. -/
theorem Dev.ttWindows_command (d : Dev) (i : Nat) {c : Nat} (a : Nat) (h : c ∈ ttCodes) :
    d.ttWindows [(i, c, a)] = d := by
  simp only [ttCodes, List.mem_cons, List.not_mem_nil, or_false] at h
  rcases h with rfl | rfl | rfl | rfl | rfl | rfl | rfl <;> rfl

/-- Firmware begins the work of an idle window that opened since `was`. -/
def Dev.idleWork (d : Dev) (was : Bool) : Dev :=
  if was = false ∧ d.bit Reg.TT_STAT 5 = true then d.idleBegin else d

theorem Dev.idleWork_same (d : Dev) : d.idleWork (d.bit Reg.TT_STAT 5) = d :=
  if_neg (fun h => Bool.false_ne_true (h.1.symm.trans h.2))

/-- The module whose matches of this tick are issued. -/
def Dev.ttDone (d : Dev) : Dev := { d with tt := { d.tt with done := true } }

/-- Where no two matches merge, the tick names the last one, sets the windows and issues the actions. -/
theorem Dev.ttMatch_issue {d : Dev} (hdone : d.tt.done = false) (hen : d.bit Reg.TT_CTL 0 = true)
    (hm : d.ttFiring.length ≤ (ttMerge d.ttFiring []).length) :
    d.ttMatch = (((d.ttDone.ttLast d.ttFiring).ttWindows d.ttFiring).ttActions ttCodes
      (ttMerge d.ttFiring [])).idleWork (d.bit Reg.TT_STAT 5) := by
  unfold Dev.ttMatch Dev.idleWork
  rw [if_neg (by simp [hdone, hen])]
  simp only [if_neg (Nat.not_lt.2 hm), Bool.and_eq_true, Bool.not_eq_true']
  rfl

theorem Dev.ttMatch_none {d : Dev} (hdone : d.tt.done = false) (hen : d.bit Reg.TT_CTL 0 = true)
    (hf : d.ttFiring = []) : d.ttMatch = d.ttDone := by
  rw [Dev.ttMatch_issue hdone hen (by rw [hf]; exact Nat.zero_le _), hf]
  exact d.ttDone.idleWork_same

theorem Dev.ttMatch_one {d : Dev} {i c a : Nat} (hdone : d.tt.done = false) (hen : d.bit Reg.TT_CTL 0 = true)
    (hf : d.ttFiring = [(i, c, a)]) : d.ttMatch =
      (((d.ttDone.ttLast [(i, c, a)]).ttWindows [(i, c, a)]).ttActions ttCodes [(c, a)]).idleWork
        (d.bit Reg.TT_STAT 5) := by
  have hmerge : ttMerge [(i, c, a)] [] = [(c, a)] := rfl
  rw [Dev.ttMatch_issue hdone hen (by rw [hf, hmerge]; exact Nat.le_refl _), hf, hmerge]

/-- The only firing entry has a code that is issued as a command. -/
theorem Dev.ttMatch_command {d e : Dev} {i c a : Nat} (hdone : d.tt.done = false) (hen : d.bit Reg.TT_CTL 0 = true)
    (hf : d.ttFiring = [(i, c, a)]) (hc : c ∈ ttCodes) (he : (d.ttDone.ttLast [(i, c, a)]).ttAction c a 0 = e) :
    d.ttMatch = e.idleWork (d.bit Reg.TT_STAT 5) := by
  rw [Dev.ttMatch_one hdone hen hf, Dev.ttWindows_command _ i a hc, Dev.ttActions_one (by decide), if_pos hc, he]

/-- The only firing entry opens or closes a window. -/
theorem Dev.ttMatch_window {d e : Dev} {i c a : Nat} (hdone : d.tt.done = false) (hen : d.bit Reg.TT_CTL 0 = true)
    (hf : d.ttFiring = [(i, c, a)]) (hc : c ∉ ttCodes)
    (he : (d.ttDone.ttLast [(i, c, a)]).ttWindows [(i, c, a)] = e) :
    d.ttMatch = e.idleWork (d.bit Reg.TT_STAT 5) := by
  rw [Dev.ttMatch_one hdone hen hf, Dev.ttActions_one (by decide), if_neg hc, he]

theorem Dev.ttLast_getLast {d : Dev} {l : List (Nat × Nat × Nat)} {i c a : Nat} (h : l.getLast? = some (i, c, a)) :
    d.ttLast l = d.wr Reg.TT_LAST (nw (c * 2 ^ 24 + b2n (d.bit Reg.TT_STAT 7) * 256 + i)) := by
  simp only [Dev.ttLast, h]

/-! ### The writes of entries (R55, R564) -/

theorem Dev.ttWord0_other {d : Dev} {b : Nat} (h : b2n (d.bit Reg.TT_STAT 7) ≠ b) (i : Nat) (v : Word) :
    d.ttWord0 b i v = d.wr (Reg.TT_ENT b i 0) v := if_neg h

theorem Dev.ttWord0_active {d : Dev} {b : Nat} (h : b2n (d.bit Reg.TT_STAT 7) = b) (i : Nat) (v : Word) :
    d.ttWord0 b i v = { d with tt := { d.tt with stage := putO d.tt.stage i (some v) } } := if_pos h

theorem Dev.ttWord1_other {d : Dev} {b : Nat} {v : Word} (h : b2n ((d.ttCheck v).bit Reg.TT_STAT 7) ≠ b) (i : Nat) :
    d.ttWord1 b i v = (d.ttCheck v).wr (Reg.TT_ENT b i 1) v := if_neg h

/-- The staged word 0 of an entry is written into it. -/
def Dev.ttUnstage (d : Dev) (b i : Nat) : Dev :=
  (getO d.tt.stage i).elim d (fun w => d.wr (Reg.TT_ENT b i 0) w)

theorem Dev.ttWord1_active {d : Dev} {b : Nat} {v : Word} (h : b2n ((d.ttCheck v).bit Reg.TT_STAT 7) = b) (i : Nat) :
    d.ttWord1 b i v = (let g := ((d.ttCheck v).ttHold i).ttUnstage b i
      ({ g with tt := { g.tt with stage := putO g.tt.stage i none } } : Dev).wr (Reg.TT_ENT b i 1) v) := by
  unfold Dev.ttWord1 Dev.ttUnstage
  dsimp only
  rw [if_pos h]
  cases getO ((d.ttCheck v).ttHold i).tt.stage i <;> rfl

theorem Dev.bit_flag {d : Dev} (h : d.Canon) (a : Nat) {i : Nat} (hi : i < 32) (j : Nat) :
    (d.flag a i).bit a j = if j = i then true else d.bit a j := by
  rw [Dev.bit, Dev.rd_flag h, if_pos rfl, bitOf_withBit _ hi, Dev.bit]

/-- A refused action code or argument in word 1 sets BADACT. -/
theorem Dev.ttCheck_badAct {d : Dev} (h : d.Canon) {v : Word} (hv : ttActOk (ttCode v) (ttArg v) = false) :
    (d.ttCheck v).bit Reg.TT_STAT 0 = true := by
  have hflag : (d.flag Reg.TT_STAT 0).bit Reg.TT_STAT 0 = true := Dev.bit_flag h _ (by decide) 0
  simp only [Dev.ttCheck, hv, Bool.false_eq_true, if_false]
  split
  · rw [Dev.bit_flag (Dev.flag_canon _ _ h) _ (by decide), if_neg (by decide), hflag]
  · exact hflag

/-- A PHASE of DIV or more in word 1 sets BADPH. -/
theorem Dev.ttCheck_badPhase {d : Dev} (h : d.Canon) {v : Word} (hdiv : fieldOf v 15 8 ≠ 0)
    (hph : fieldOf v 15 8 ≤ fieldOf v 7 0) : (d.ttCheck v).bit Reg.TT_STAT 1 = true := by
  have hbad : (fieldOf v 15 8 != 0 && decide (fieldOf v 15 8 ≤ fieldOf v 7 0)) = true := by simp [hdiv, hph]
  simp only [Dev.ttCheck, hbad, if_true]
  split
  · exact Dev.bit_flag h _ (by decide) 1
  · exact Dev.bit_flag (Dev.flag_canon _ _ h) _ (by decide) 1

theorem Dev.ttCtl_swap {d : Dev} {v : Word} (h : bitOf v 1 = true) :
    d.ttCtl v = (d.plainWrite Reg.TT_CTL v).flag Reg.TT_STAT 6 := if_pos h

/-! ### Blanking before a strobe (R135, R137) -/

/-- The place in angle and cycles of a firing that lies `n` ahead. -/
def Dev.firingAt (d : Dev) (n : Nat) : Nat := d.ang.cycle * 2 ^ 32 + d.ang.angle + n

/-- BLANK leaves for a firing that lies `n` ahead. -/
theorem Dev.blankSend_some {d : Dev} {n : Nat} (h : d.nextStrobe = some n) : d.blankSend =
    if d.bit Reg.BAL_CTL 1 = true ∧ d.fld Reg.BAL_BLANKLEAD 7 0 ≠ 0 ∧ d.swp.blanked ≠ some (d.firingAt n) ∧
        d.role ≠ 2 ∧ n * 65536 ≤ 125 * d.fld Reg.BAL_BLANKLEAD 7 0 * d.angInc then
      (let x := { d with swp := { d.swp with blanked := some (d.firingAt n) } }
      (if x.ringSplit = true then x.cue 0xA 0 else x).ringSend setBlank [])
    else d := by
  unfold Dev.blankSend Dev.firingAt
  simp only [h, Bool.and_eq_true, bne_iff_ne, decide_eq_true_eq, and_assoc]

theorem Dev.blankSend_none {d : Dev} (h : d.nextStrobe = none) : d.blankSend = d := by
  simp only [Dev.blankSend, h]

theorem Dev.blankSend_shut {d : Dev} (h : d.nextStrobe = none ∨ d.bit Reg.BAL_CTL 1 = false ∨
    d.fld Reg.BAL_BLANKLEAD 7 0 = 0 ∨ d.role = 2) : d.blankSend = d := by
  cases hn : d.nextStrobe with
  | none => exact Dev.blankSend_none hn
  | some n =>
    rw [Dev.blankSend_some hn, if_neg]
    rintro ⟨hen, hlead, -, hrole, -⟩
    simp [hn, hen, hlead, hrole] at h

/-- A write of BAL_CTL that leaves BLANKEN as it is. -/
theorem Dev.balCtl_same {d e : Dev} {src : Writer} {v : Word}
    (he : d.plainWrite Reg.BAL_CTL (if src = .system then withBit v 1 true else v) = e)
    (h : e.bit Reg.BAL_CTL 1 = d.bit Reg.BAL_CTL 1) : d.balCtl src v = e := by
  subst he
  exact if_pos h

theorem Dev.balCtl_change {d e : Dev} {src : Writer} {v : Word}
    (he : d.plainWrite Reg.BAL_CTL (if src = .system then withBit v 1 true else v) = e)
    (h : e.bit Reg.BAL_CTL 1 ≠ d.bit Reg.BAL_CTL 1) :
    d.balCtl src v = Dev.blankFlush { e with swp := { e.swp with blankDue := true } } := by
  subst he
  exact if_neg h

theorem Dev.blankFlush_waits {d : Dev} (h : d.swp.cur ≠ none) : d.blankFlush = d := by
  refine if_neg ?_
  simp [Dev.cmdWindow, h]

theorem Dev.blankFlush_sends {d : Dev} (hdue : d.swp.blankDue = true) (h : d.swp.cur = none) :
    d.blankFlush = Dev.blankCfg { d with swp := { d.swp with blankDue := false } } 63 (d.bit Reg.BAL_CTL 1) :=
  if_pos (by simp [Dev.cmdWindow, h, hdue])

/-! ### Balancing (R139 to R141) -/

theorem exec_balCmdWrite_awake {s : State} {src : Writer} {k : BitVec 6} {v : Word} {e : Dev}
    (hs : s.dev.asleep = false)
    (he : (if 47 < k.toNat then s.dev
      else s.dev.gate src (Reg.BAL_CMD k.toNat) (fun d => d.balCmdWrite k.toNat v)) = e) :
    exec (.balCmdWrite src k v) s = .next (s.on e) :=
  exec_awake_eq hs
    (fun d => if 47 < k.toNat then d else d.gate src (Reg.BAL_CMD k.toNat) (fun d => d.balCmdWrite k.toNat v)) rfl he

theorem exec_balanceSend_awake {s : State} {off : BitVec 48} {e : Dev} (hs : s.dev.asleep = false)
    (he : s.dev.balanceSend off = e) : exec (.balanceSend off) s = .next (s.on e) :=
  exec_awake_eq hs (fun d => d.balanceSend off) rfl he

theorem Dev.commanderTimeout_expired {d : Dev} {n : Nat} (hn : d.fld Reg.BAL_CMDTO 15 0 = n) (h0 : n ≠ 0)
    (hdue : d.due Tm.balCmd (125000 * n) = true) :
    d.commanderTimeout = ((d.stop Tm.balCmd).flag Reg.BAL_STAT 3).hw 0x1060 [] := by
  subst hn
  exact if_pos (by simp [h0, msT, hdue])

theorem Dev.commanderTimeout_runs {d : Dev} {n : Nat} (hn : d.fld Reg.BAL_CMDTO 15 0 = n)
    (h : n = 0 ∨ d.due Tm.balCmd (125000 * n) = false) : d.commanderTimeout = d := by
  subst hn
  exact if_neg (by rcases h with h | h <;> simp [h, msT])

/-- The applied entries that a BALANCE frame should bring about: of every node that no learning pass holds. -/
def Dev.balWant (d : Dev) : List (Nat × Nat) :=
  ((List.range 48).filter (fun k => !d.learning k)).map (fun k => (k, d.balEntry k))

/-- An entry of BAL_APPL differs from what should be sent. -/
def Dev.balChanged (d : Dev) : Bool := d.balWant.any (fun x => d.fld (Reg.BAL_APPL x.1) 23 0 != x.2)

/-- BAL_REFRESH asks for a BALANCE frame. -/
def Dev.balRefresh (d : Dev) : Bool :=
  d.fld Reg.BAL_REFRESH 15 0 != 0 &&
    (!d.running Tm.balSend || d.due Tm.balSend (125000 * d.fld Reg.BAL_REFRESH 15 0))

theorem Dev.balRefresh_iff (d : Dev) : d.balRefresh = true ↔ d.fld Reg.BAL_REFRESH 15 0 ≠ 0 ∧
    (d.running Tm.balSend = false ∨ d.due Tm.balSend (125000 * d.fld Reg.BAL_REFRESH 15 0) = true) := by
  simp [Dev.balRefresh]

theorem Dev.balanceSend_follows {d : Dev} (h : d.leads = false) (off : BitVec 48) : d.balanceSend off = d := if_pos h

/-- One node's entry in BAL_APPL takes what a frame carried; a node that returned BALOFF is marked and recorded. -/
def Dev.balApply (off : BitVec 48) (d : Dev) (x : Nat × Nat) : Dev :=
  let e := d.setFld (Reg.BAL_APPL x.1) 23 0 x.2
  if off.getLsbD x.1 then ((e.setBit (Reg.BAL_APPL x.1) 24 true).flag Reg.BAL_STAT 4).hw 0x1062 [nw x.1]
  else e.setBit (Reg.BAL_APPL x.1) 24 false

/-- A BALANCE frame with the wanted entries of the nodes on the ring. -/
def Dev.balFrame (d : Dev) (want : List (Nat × Nat)) (off : BitVec 48) : Dev :=
  let gone := want.filter (fun x => decide (x.1 < d.ring.count.getD 0))
  ((want.foldl (Dev.balApply off) (d.frameSend 0x06 63 0 (balPay gone))).setBit Reg.BAL_STAT 0
    (gone.any (fun x => x.2 % 65536 != 0))).start Tm.balSend

/-- A module that leads notes what the filters remove, and sends in a command window on a change or at a refresh. -/
theorem Dev.balanceSend_leads {d : Dev} (hl : d.leads = true) (off : BitVec 48) : d.balanceSend off =
    if !d.balFlags.cmdWindow || (!d.balChanged && !d.balRefresh) then d.balFlags
    else d.balFlags.balFrame d.balWant off :=
  if_neg (by simp [hl])

theorem Dev.balanceSend_quiet {d : Dev} (hl : d.leads = true)
    (h : d.balFlags.swp.cur ≠ none ∨ d.balChanged = false ∧ d.balRefresh = false) (off : BitVec 48) :
    d.balanceSend off = d.balFlags := by
  rw [Dev.balanceSend_leads hl]
  refine if_pos ?_
  rcases h with hcur | ⟨hc, hr⟩
  · simp [Dev.cmdWindow, Option.isSome_iff_ne_none.2 hcur]
  · simp [hc, hr]

theorem Dev.balanceSend_sends {d : Dev} (hl : d.leads = true) (hcur : d.balFlags.swp.cur = none)
    (h : d.balChanged = true ∨ d.balRefresh = true) (off : BitVec 48) :
    d.balanceSend off = d.balFlags.balFrame d.balWant off := by
  rw [Dev.balanceSend_leads hl]
  refine if_neg ?_
  rcases h with h | h <;> simp [Dev.cmdWindow, hcur, h]

theorem Dev.lrnWrite_ignored {d : Dev} {v : Word} (h : bitOf v 31 = false ∨ d.bit Reg.BAL_LRNSTAT 31 = true) :
    d.lrnWrite v = d :=
  if_pos (by simpa using h)

/-- The pass that GO names, before it begins. -/
def Dev.lrnArmed (d : Dev) (v : Word) : Dev :=
  let p : WirePass := { node := fieldOf v 5 0, arg := fieldOf v 11 8, phase := 0, base := [], cap := [] }
  Dev.wr { d with swp := { d.swp with lrn := some p } } Reg.BAL_LRNSTAT 0x80000000

/-- GO starts a pass, which begins at once in a command window. -/
theorem Dev.lrnWrite_go {d : Dev} {v : Word} (hgo : bitOf v 31 = true) (hrun : d.bit Reg.BAL_LRNSTAT 31 = false) :
    d.lrnWrite v = if d.swp.cur = none then (d.lrnArmed v).lrnBegin else d.lrnArmed v := by
  unfold Dev.lrnWrite
  rw [if_neg (by simp [hgo, hrun])]
  simp only [Option.isNone_iff_eq_none]
  rfl

theorem Dev.lrnWrite_waits {d : Dev} {v : Word} (hgo : bitOf v 31 = true) (hrun : d.bit Reg.BAL_LRNSTAT 31 = false)
    (h : d.swp.cur ≠ none) : d.lrnWrite v = d.lrnArmed v := (Dev.lrnWrite_go hgo hrun).trans (if_neg h)

theorem Dev.lrnWrite_begins {d : Dev} {v : Word} (hgo : bitOf v 31 = true) (hrun : d.bit Reg.BAL_LRNSTAT 31 = false)
    (h : d.swp.cur = none) : d.lrnWrite v = (d.lrnArmed v).lrnBegin := (Dev.lrnWrite_go hgo hrun).trans (if_pos h)

/-- Settles O35: the matches of a tick, the writes of entries, blanking, and balancing with its learning passes. -/
theorem timetableCommands : Obligations.TimetableCommands := by
  unfold Obligations.TimetableCommands
  refine ⟨fun s hs h => State.lift_awake_eq hs (Dev.ttMatch_idle h),
    fun s hs hdone hen hf => State.lift_awake_eq hs (Dev.ttMatch_none hdone hen hf),
    fun s i c a hs hdone hen hf => ?fires,
    fun d l i c a h => Dev.ttLast_getLast h,
    fun s src b i v d hs ht => ⟨fun h => State.lift_gate_eq hs ht (Dev.ttWord0_other h _ v),
      fun h => State.lift_gate_eq hs ht (Dev.ttWord0_active h _ v)⟩,
    fun s src b i v d hs ht => ⟨fun h => State.lift_gate_eq hs ht (Dev.ttWord1_other h _),
      fun h => State.lift_gate_eq hs ht (Dev.ttWord1_active h _)⟩,
    fun d v h hv => Dev.ttCheck_badAct h hv,
    fun d v h hdiv hph => Dev.ttCheck_badPhase h hdiv hph,
    fun s src v d hs ht => State.lift_gate_eq hs ht (Dev.ttCtl_swap ?swapBit),
    fun s hs h => State.lift_awake_eq hs (Dev.blankSend_shut h),
    fun s n hs hn hen hlead hnew hrole =>
      ⟨fun h => State.lift_awake_eq hs ?blank, fun h => State.lift_awake_eq hs ?far⟩,
    fun s n hs hn hold => State.lift_awake_eq hs ?blanked,
    fun s src v d hs ht => ⟨fun h => State.lift_gate_eq hs ht (Dev.balCtl_same rfl h),
      fun h hcur => State.lift_gate_eq hs ht ?blankWaits, fun h hcur => State.lift_gate_eq hs ht ?blankChange⟩,
    fun s src k v d hs ht hk => ?command,
    fun s src k v hs hk => exec_balCmdWrite_awake hs (if_pos hk),
    fun s n hs hn => ⟨fun h0 hdue => State.lift_awake_eq hs (Dev.commanderTimeout_expired hn h0 hdue),
      fun h => State.lift_awake_eq hs (Dev.commanderTimeout_runs hn h)⟩,
    fun s off hs hl => exec_balanceSend_awake hs (Dev.balanceSend_follows hl off),
    fun s off hs hl hcur => exec_balanceSend_awake hs (Dev.balanceSend_quiet hl (.inl hcur) off),
    fun s off hs hl hcur h => exec_balanceSend_awake hs
      (Dev.balanceSend_sends hl hcur (h.imp_right s.dev.balRefresh_iff.2) off),
    fun s off hs hl hc hr => exec_balanceSend_awake hs (Dev.balanceSend_quiet hl (.inr ⟨hc, ?noRefresh⟩) off),
    fun s src v d hs ht => ⟨fun h => State.lift_gate_eq hs ht (Dev.lrnWrite_ignored h),
      fun hgo hrun hcur => State.lift_gate_eq hs ht (Dev.lrnWrite_waits hgo hrun hcur),
      fun hgo hrun hcur => State.lift_gate_eq hs ht (Dev.lrnWrite_begins hgo hrun hcur)⟩⟩
  case fires =>
    have command := fun (e : Dev) (hc : c ∈ ttCodes) he =>
      State.lift_awake_eq hs (Dev.ttMatch_command (e := e) hdone hen hf hc he)
    have window := fun (e : Dev) (hc : c ∉ ttCodes) he =>
      State.lift_awake_eq hs (Dev.ttMatch_window (e := e) hdone hen hf hc he)
    refine ⟨?_, ?_, ?_, ?_, ?_, ?_, ?_, ?_, ?_, ?_, ?_⟩ <;> rintro rfl
    iterate 4 exact window _ (by decide) rfl
    iterate 7 exact command _ (by decide) rfl
  case swapBit => rw [bitOf_withBit v (by decide), if_pos rfl]
  case blank =>
    rw [Dev.blankSend_some hn, if_pos ⟨hen, hlead, hnew, hrole, h⟩]
    rfl
  case far => rw [Dev.blankSend_some hn, if_neg (fun ⟨_, _, _, _, hnear⟩ => Nat.not_le.2 h hnear)]
  case blanked => rw [Dev.blankSend_some hn, if_neg (fun ⟨_, _, hnew, _, _⟩ => hnew hold)]
  case blankWaits => exact (Dev.balCtl_change rfl h).trans (Dev.blankFlush_waits hcur)
  case blankChange => exact (Dev.balCtl_change rfl h).trans (Dev.blankFlush_sends rfl hcur)
  case command =>
    refine exec_balCmdWrite_awake hs ((if_neg (Nat.not_lt.2 hk)).trans ?_)
    rw [Dev.gate_takes ht]
    rfl
  case noRefresh =>
    rw [← Bool.not_eq_true, Dev.balRefresh_iff]
    rintro ⟨h0, hrun⟩
    rcases hr with hr | ⟨hr, hdue⟩
    · exact h0 hr
    · simp [hr, hdue] at hrun

end Sys2Proof.Machine
end

section
/-! SUPPORT. The commands of the Ethernet switch, of the clock it carries, and of angle messages. -/

namespace Sys2Proof.Machine

/-! ### The switch (R454, R455) -/

theorem Dev.ethReceive_down {d : Dev} {k : Nat} (h : d.ethUp k = false) (l : List Byte) (ok : Bool) (res : Nat) :
    d.ethReceive k l ok res = d := if_pos h

theorem Dev.ethReceive_long {d : Dev} {k : Nat} {l : List Byte} (h : d.ethUp k = true) (hl : 1518 < l.length)
    (ok : Bool) (res : Nat) : d.ethReceive k l ok res = d.satInc (Reg.ETH_DROP (k - 1)) 15 0 := by
  unfold Dev.ethReceive
  rw [if_neg (by simp [h]), if_pos (by omega)]

theorem Dev.ethReceive_badFcs {d : Dev} {k : Nat} {l : List Byte} (h : d.ethUp k = true) (hl : l.length ≤ 1518)
    (res : Nat) : d.ethReceive k l false res = d.satInc (Reg.ETH_DROP (k - 1)) 31 16 := by
  unfold Dev.ethReceive
  rw [if_neg (by simp [h]), if_neg (by omega), if_pos rfl]

/-- A Sync or Follow_Up at a port that is not capable, which the switch does not forward. -/
def Dev.ptpHeld (d : Dev) (k : Nat) (l : List Byte) : Bool :=
  (ethType l).1 = 0x88F7 && (ptpType l (ethType l).2 = 0 || ptpType l (ethType l).2 = 8) && d.ncap k

/-- A good frame: its source is learned, and it is forwarded unless it is link-local, the switch is off or it is
held. -/
theorem Dev.ethReceive_good {d e : Dev} {k : Nat} {l : List Byte} (h : d.ethUp k = true) (hl : l.length ≤ 1518)
    (he : d.ethLearn (macOf l 6) k = e) (res : Nat) : d.ethReceive k l true res =
      if macOf l 0 = 0x0180C200000E ∨ e.bit Reg.ETH_CTL 1 = false then e
      else if e.ptpHeld k l = true then e
      else (e.ethTargets k (macOf l 0)).foldl (fun (d : Dev) x => d.ethEgress l k res x) e := by
  subst he
  unfold Dev.ethReceive
  rw [if_neg (by simp [h]), if_neg (by omega), if_neg (by decide)]
  simp only [Bool.or_eq_true, decide_eq_true_eq]
  rfl

theorem Dev.ptpHeld_not {d : Dev} {k : Nat} {l : List Byte} (h : (ethType l).1 ≠ 0x88F7 ∨ d.ncap k = false) :
    d.ptpHeld k l = false := by
  rcases h with h | h <;> simp [Dev.ptpHeld, h]

theorem Dev.ethAge_absent {d : Dev} {mac : Nat} (h : getO d.eth.macs mac = none) : d.ethAge mac = d := by
  simp only [Dev.ethAge, h]

/-- A learned address goes once it is older than ETH_AGE, which 0 holds off. -/
theorem Dev.ethAge_learned {d : Dev} {mac p t : Nat} (h : getO d.eth.macs mac = some (p, t)) : d.ethAge mac =
    if d.fld Reg.ETH_AGE 15 0 ≠ 0 ∧ t + secT (d.fld Reg.ETH_AGE 15 0) < d.now then
      { d with eth := { d.eth with macs := putO d.eth.macs mac none } }
    else d := by
  simp only [Dev.ethAge, h, Bool.and_eq_true, bne_iff_ne, decide_eq_true_eq]

/-! ### The link delay (R459, R460) -/

/-- The transparent clock works at port `k`. -/
def Dev.tcOn (d : Dev) (k : Nat) : Prop := d.bit Reg.ETH_TCCTL 0 = true ∧ d.role ≠ 3 ∧ d.ethUp k = true

theorem Dev.peerDelay_off {d : Dev} {k : Nat} (h : d.bit Reg.ETH_TCCTL 0 = false ∨ d.role = 3 ∨ d.ethUp k = false)
    (ans : Option (Int × Int × Int × Int)) : d.peerDelay k ans = d :=
  if_pos (by simpa [or_assoc] using h)

/-- What an exchange brings about: the delay of the four times, or a miss, of which the third marks the port. -/
def Dev.pdlyEnd (d : Dev) (k : Nat) (ans : Option (Int × Int × Int × Int)) : Dev :=
  match ans with
  | some (t1, t2, t3, t4) =>
    let m := ((t4 - t1) - (t3 - t2) + 1) / 2
    let e := (d.setFld (Reg.ETH_PDLY (k - 1)) 15 0 (clampI 0 65535 m).toNat).setBit Reg.ETH_STAT (3 + k) false
    { e with eth := { e.eth with miss := putN e.eth.miss k 0 } }
  | none =>
    let n := getN d.eth.miss k + 1
    let e := { d with eth := { d.eth with miss := putN d.eth.miss k n } }
    if 3 ≤ n then e.ncapSet k else e

theorem Dev.peerDelay_on {d : Dev} {k : Nat} (h : d.tcOn k) (ans : Option (Int × Int × Int × Int)) :
    d.peerDelay k ans =
      if d.logPdi = -8 then d.ncapSet k
      else if d.running (Tm.pdly k) && !d.due (Tm.pdly k) (pow2T d.logPdi) then d
      else ((d.start (Tm.pdly k)).send .eth (256 * k + 0x12) []).pdlyEnd k ans := by
  obtain ⟨htc, hrole, hup⟩ := h
  unfold Dev.peerDelay
  rw [if_neg (by simp [htc, hrole, hup])]
  rfl

theorem Dev.peerDelay_stopped {d : Dev} {k : Nat} (h : d.tcOn k) (hp : d.logPdi = -8)
    (ans : Option (Int × Int × Int × Int)) : d.peerDelay k ans = d.ncapSet k := by
  rw [Dev.peerDelay_on h, if_pos hp]

theorem Dev.peerDelay_early {d : Dev} {k : Nat} (h : d.tcOn k) (hp : d.logPdi ≠ -8)
    (hrun : d.running (Tm.pdly k) = true) (hdue : d.due (Tm.pdly k) (pow2T d.logPdi) = false)
    (ans : Option (Int × Int × Int × Int)) : d.peerDelay k ans = d := by
  rw [Dev.peerDelay_on h, if_neg hp, if_pos (by simp [hrun, hdue])]

theorem Dev.peerDelay_exchange {d : Dev} {k : Nat} (h : d.tcOn k) (hp : d.logPdi ≠ -8)
    (hdue : d.running (Tm.pdly k) = false ∨ d.due (Tm.pdly k) (pow2T d.logPdi) = true)
    (ans : Option (Int × Int × Int × Int)) :
    d.peerDelay k ans = ((d.start (Tm.pdly k)).send .eth (256 * k + 0x12) []).pdlyEnd k ans := by
  rw [Dev.peerDelay_on h, if_neg hp, if_neg (by rcases hdue with h | h <;> simp [h])]

theorem Dev.pdelayAnswer_off {d : Dev} {k : Nat}
    (h : d.role = 3 ∨ d.ethUp k = false ∨ d.bit Reg.ETH_TCCTL 0 = false)
    (req : List Byte) : d.pdelayAnswer k req = d :=
  if_pos (by simpa [or_assoc] using h)

theorem Dev.pdelayAnswer_on {d : Dev} {k rns rsec tns tsec : Nat} (h : d.tcOn k)
    (hr : d.clockAt (-(d.fld (Reg.ETH_LAT (k - 1)) 15 0 : Int)) = (rns, rsec))
    (ht : d.clockAt (d.fld (Reg.ETH_LAT (k - 1)) 31 16) = (tns, tsec)) (req : List Byte) :
    d.pdelayAnswer k req =
      (d.send .eth (256 * k + 0x13) (byteNats (slice req 20 12) ++ [rsec, rns])).send .eth (256 * k + 0x1A)
        (byteNats (slice req 20 12) ++ [tsec, tns]) := by
  obtain ⟨htc, hrole, hup⟩ := h
  unfold Dev.pdelayAnswer
  rw [if_neg (by simp [htc, hrole, hup]), hr, ht]

/-! ### The ordinary clock (R461, R462) -/

theorem Dev.syncReceive_unknown {d : Dev} {sender : Nat} (h : getO d.eth.masters sender = none) (k dom seq : Nat)
    (twoStep : Bool) (t1 corr logInt : Int) : d.syncReceive k dom sender seq twoStep t1 corr logInt = d := by
  simp only [Dev.syncReceive, h]

theorem Dev.syncReceive_other {d : Dev} {sender k dom : Nat} {m : Master} (hm : getO d.eth.masters sender = some m)
    (h : dom ≠ d.pv Par.DOMAIN ∨ d.eth.gm ≠ some sender ∨ d.ncap k = true) (seq : Nat) (twoStep : Bool)
    (t1 corr logInt : Int) : d.syncReceive k dom sender seq twoStep t1 corr logInt = d := by
  simp only [Dev.syncReceive, hm]
  exact if_pos (by simpa [or_assoc] using h)

/-- A Sync of the grandmaster: a two-step one waits, with its receive time, and a one-step one gives the offset. -/
theorem Dev.syncReceive_master {d e : Dev} {sender k dom ns sec : Nat} {m : Master} {logInt : Int}
    (hm : getO d.eth.masters sender = some m) (hdom : dom = d.pv Par.DOMAIN) (hgm : d.eth.gm = some sender)
    (hcap : d.ncap k = false) (hclk : d.clockAt (-(d.fld (Reg.ETH_LAT (k - 1)) 15 0 : Int)) = (ns, sec))
    (he : { d.start Tm.sync with eth := { d.eth with logSync := logInt } } = e) (seq : Nat) (twoStep : Bool)
    (t1 corr : Int) : d.syncReceive k dom sender seq twoStep t1 corr logInt =
      if twoStep = true then
        { e with eth := { e.eth with sync := some (sender, seq, (sec : Int) * 1000000000 + ns, corr) } }
      else e.syncUpdate m.cls seq ((sec : Int) * 1000000000 + ns - t1 - sarI corr 16) := by
  subst he
  simp only [Dev.syncReceive, hm]
  rw [if_neg (by simp [hdom, hgm, hcap]), hclk]

theorem Dev.followUp_unknown {d : Dev} {sender : Nat} (h : d.eth.sync = none ∨ getO d.eth.masters sender = none)
    (dom seq : Nat) (t1 corr : Int) : d.followUp dom sender seq t1 corr = d := by
  rcases h with h | h
  · simp only [Dev.followUp, h]
  · cases hs : d.eth.sync <;> simp only [Dev.followUp, h, hs]

theorem Dev.followUp_other {d : Dev} {dom sender seq x n : Nat} {t2 c : Int} {m : Master}
    (hs : d.eth.sync = some (x, n, t2, c)) (hm : getO d.eth.masters sender = some m)
    (h : dom ≠ d.pv Par.DOMAIN ∨ x ≠ sender ∨ n ≠ seq ∨ d.eth.gm ≠ some sender) (t1 corr : Int) :
    d.followUp dom sender seq t1 corr = d := by
  simp only [Dev.followUp, hs, hm]
  exact if_pos (by simpa [or_assoc] using h)

/-- The Follow_Up of the Sync that waits. -/
theorem Dev.followUp_completes {d : Dev} {dom sender seq : Nat} {t2 c : Int} {m : Master}
    (hs : d.eth.sync = some (sender, seq, t2, c)) (hm : getO d.eth.masters sender = some m)
    (hdom : dom = d.pv Par.DOMAIN) (hgm : d.eth.gm = some sender) (t1 corr : Int) :
    d.followUp dom sender seq t1 corr =
      Dev.syncUpdate { d with eth := { d.eth with sync := none } } m.cls seq (t2 - t1 - sarI (c + corr) 16) := by
  simp only [Dev.followUp, hs, hm]
  exact if_neg (by simp [hdom, hgm])

theorem Dev.announce_otherDomain {d : Dev} {dom : Nat} (h : dom ≠ d.pv Par.DOMAIN) (sender : Nat) (m : Master) :
    d.announce dom sender m = d := if_pos (bne_iff_ne.2 h)

/-- An Announce of the domain enters the comparison; where it changes the best master, that one is selected. -/
theorem Dev.announce_domain {d e : Dev} {dom sender : Nat} {m : Master} (h : dom = d.pv Par.DOMAIN)
    (he : { d with eth := { d.eth with masters := putO d.eth.masters sender (some { m with seen := d.now }) } } = e) :
    d.announce dom sender m =
      if e.bestMaster = e.eth.gm then e
      else (Dev.flag { e with eth := { e.eth with gm := e.bestMaster, sync := none, good := 0 } } Reg.ETH_STAT 6).hw
        0xA022 [] := by
  subst he h
  exact if_neg (by simp)

theorem Dev.syncLost_expired {d : Dev} (hrun : d.running Tm.sync = true)
    (hdue : d.due Tm.sync (3 * pow2T d.eth.logSync) = true) :
    d.syncLost = { d.stop Tm.sync with eth := { d.eth with good := 0, sync := none } } :=
  if_pos (by simp [hrun, hdue])

theorem Dev.syncLost_runs {d : Dev}
    (h : d.running Tm.sync = false ∨ d.due Tm.sync (3 * pow2T d.eth.logSync) = false) : d.syncLost = d :=
  if_neg (by rcases h with h | h <;> simp [h])

/-! ### The host and the links (R454, R456, R468) -/

theorem Dev.arp_answers {d : Dev} (htx : d.hostTx = true) {target : Word} (h : target.toNat = d.pv Par.IPADDR)
    (sender : Nat) : d.arp sender target = d.send .eth 0x0806 [sender, target.toNat] := if_pos (by simp [htx, h])

theorem Dev.arp_silent {d : Dev} {target : Word} (h : d.hostTx = false ∨ target.toNat ≠ d.pv Par.IPADDR)
    (sender : Nat) : d.arp sender target = d := if_neg (by rcases h with h | h <;> simp [h])

theorem Dev.icmp_answers {d : Dev} (htx : d.hostTx = true) {dest : Word} (h : dest.toNat = d.pv Par.IPADDR)
    (src : Word) (body : List Byte) : d.icmp src dest body = d.send .eth 0x0801 (src.toNat :: byteNats body) :=
  if_pos (by simp [htx, h])

theorem Dev.icmp_silent {d : Dev} {dest : Word} (h : d.hostTx = false ∨ dest.toNat ≠ d.pv Par.IPADDR)
    (src : Word) (body : List Byte) : d.icmp src dest body = d := if_neg (by rcases h with h | h <;> simp [h])

theorem Dev.ethLink_same {d : Dev} {k : Nat} {up gig : Bool}
    (h : up = true ∧ d.bit (Reg.ETH_PCFG (k - 1)) (b2n gig) = false ∨ d.ethUp k = up) : d.ethLink k up gig = d := by
  unfold Dev.ethLink
  split
  · rfl
  · next hcfg => exact if_pos (h.resolve_left (fun ⟨hup, hoff⟩ => hcfg (by simp [hup, hoff])))

theorem Dev.ethLink_up {d : Dev} {k : Nat} {gig : Bool} (hcfg : d.bit (Reg.ETH_PCFG (k - 1)) (b2n gig) = true)
    (h : d.ethUp k ≠ true) : d.ethLink k true gig =
      ((d.setBit Reg.ETH_STAT (k - 1) true).setBit Reg.ETH_STAT (1 + k) gig).hw 0xA020 [nw k, nw 1] := by
  unfold Dev.ethLink
  rw [if_neg (by simp [hcfg]), if_neg h]
  rfl

theorem Dev.ethLink_down {d : Dev} {k : Nat} (h : d.ethUp k ≠ false) (gig : Bool) :
    d.ethLink k false gig = (d.setBit Reg.ETH_STAT (k - 1) false).hw 0xA020 [nw k, nw 0] := by
  unfold Dev.ethLink
  rw [if_neg (by simp), if_neg h]
  rfl

/-! ### Angle messages (R45, R465) -/

/-- The time that an angle message gives, in ns. -/
def angTime (l : List Byte) : Int := (leNat (slice l 8 6) : Int) * 1000000000 + leNat (slice l 16 4)

/-- The local clock in ns. -/
def Dev.clockNs (d : Dev) : Int := (d.tim.sec : Int) * 1000000000 + d.tim.ns

/-- The grid frequency that an angle message gives. -/
def angFreq (l : List Byte) : Nat := leNat (slice l 24 4)

/-- The message is one of this grid: its length, version, validity and grid. -/
def Dev.angForm (d : Dev) (l : List Byte) : Prop :=
  l.length = 32 ∧ leNat (slice l 0 1) = 1 ∧ leNat (slice l 1 1) % 2 = 1 ∧ leNat (slice l 2 2) = d.pv Par.GRIDPRI

/-- The message is newer than the last one that was taken. -/
def Dev.angNewer (d : Dev) (l : List Byte) : Bool := d.eth.angSeq.all (fun x => seqNewer (leWord l 4) x)

/-- The frequency and the age of the message are in range, and the local clock is valid. -/
def Dev.angRange (d : Dev) (l : List Byte) : Prop :=
  40000000 ≤ angFreq l ∧ angFreq l ≤ 70000000 ∧ angTime l ≤ d.clockNs ∧ d.clockNs ≤ angTime l + 100000000 ∧
    d.bit Reg.TIM_STAT 0 = true

theorem Dev.angMessage_rejected {d : Dev} {l : List Byte}
    (h : l.length ≠ 32 ∨ leNat (slice l 0 1) ≠ 1 ∨ leNat (slice l 1 1) % 2 = 0 ∨
      leNat (slice l 2 2) ≠ d.pv Par.GRIDPRI ∨ angFreq l < 40000000 ∨ 70000000 < angFreq l ∨ d.clockNs < angTime l ∨
      angTime l + 100000000 < d.clockNs ∨ d.bit Reg.TIM_STAT 0 = false) : d.angMessage l = d.satInc Reg.ETH_ANGREJ 15 0 := by
  unfold angFreq angTime Dev.clockNs at h
  refine if_pos ?_
  rcases h with h | h | h | h | h | h | h | h | h <;> simp [h]

/-- A message that passes every check is noted, and unless ANG is claimed or the module is a shade its phase error at the
captured clocks goes to ANG_PERR. -/
theorem Dev.angMessage_taken {d e : Dev} {l : List Byte} (hform : d.angForm l) (hnew : d.angNewer l = true)
    (hrange : d.angRange l) (he : { d with eth := { d.eth with angSeq := some (leWord l 4) } } = e) :
    d.angMessage l =
      if d.manages (blockOf Reg.ANG_PERR) = false ∨ d.role = 2 then e
      else e.timSnap.angPerr (e.timSnap.angError (angTime l) (leWord l 20) (angFreq l)) := by
  subst he
  obtain ⟨hlen, hver, hvalid, hgrid⟩ := hform
  obtain ⟨hlo, hhi, hpast, hage, hclk⟩ := hrange
  unfold Dev.angNewer at hnew
  unfold angFreq at hlo hhi
  unfold angTime Dev.clockNs at hpast hage
  refine (if_neg ?passes).trans ?taken
  case passes =>
    simp only [hlen, bne_self_eq_false, hver, Bool.or_self, hvalid, Nat.one_ne_zero, decide_false, hgrid, Bool.false_or,
      Nat.not_lt.2 hlo, Bool.or_false, Nat.not_lt.2 hhi, Int.not_lt.2 hpast, Int.not_lt.2 hage, hclk, Bool.true_eq_false,
      Bool.not_eq_true]
    split
    · next x hs => simpa [hs] using hnew
    · rfl
  case taken =>
    simp only [Bool.or_eq_true, Bool.not_eq_true', decide_eq_true_eq]
    rfl

/-! ### The commands with their effects named -/

theorem exec_ethFrameReceive_awake {s : State} {e : Dev} {p2 : Bool} {l : List Byte} {ok : Bool} {res : Word}
    (hs : s.dev.asleep = false) (he : s.dev.ethReceive (1 + b2n p2) l ok res.toNat = e) :
    exec (.ethFrameReceive p2 l ok res) s = .next (s.on e) :=
  exec_awake_eq hs (fun d => d.ethReceive (1 + b2n p2) l ok res.toNat) rfl he

theorem exec_addressAgeOut_awake {s : State} {e : Dev} {mac : BitVec 48}
    (hs : s.dev.asleep = false) (he : s.dev.ethAge mac.toNat = e) :
    exec (.addressAgeOut mac) s = .next (s.on e) :=
  exec_awake_eq hs (fun d => d.ethAge mac.toNat) rfl he

theorem exec_peerDelayMeasure_awake {s : State} {e : Dev} {p2 : Bool} {ans : Option (Int × Int × Int × Int)}
    (hs : s.dev.asleep = false) (he : s.dev.peerDelay (1 + b2n p2) ans = e) :
    exec (.peerDelayMeasure p2 ans) s = .next (s.on e) :=
  exec_awake_eq hs (fun d => d.peerDelay (1 + b2n p2) ans) rfl he

theorem exec_pdelayReq_awake {s : State} {e : Dev} {p2 : Bool} {req : List Byte}
    (hs : s.dev.asleep = false) (he : s.dev.pdelayAnswer (1 + b2n p2) req = e) :
    exec (.pdelayReq p2 req) s = .next (s.on e) :=
  exec_awake_eq hs (fun d => d.pdelayAnswer (1 + b2n p2) req) rfl he

theorem exec_sync_awake {s : State} {e : Dev} {p2 twoStep : Bool} {dom : Byte} {sender : BitVec 80}
    {seq : BitVec 16} {t1 corr : Int} {logInt : BitVec 8}
    (hs : s.dev.asleep = false)
    (he : s.dev.syncReceive (1 + b2n p2) dom.toNat sender.toNat seq.toNat twoStep t1 corr logInt.toInt = e) :
    exec (.sync p2 dom sender seq twoStep t1 corr logInt) s = .next (s.on e) :=
  exec_awake_eq hs (fun d => d.syncReceive (1 + b2n p2) dom.toNat sender.toNat seq.toNat twoStep t1 corr logInt.toInt)
    rfl he

theorem exec_followUp_awake {s : State} {e : Dev} {dom : Byte} {sender : BitVec 80} {seq : BitVec 16} {t1 corr : Int}
    (hs : s.dev.asleep = false) (he : s.dev.followUp dom.toNat sender.toNat seq.toNat t1 corr = e) :
    exec (.followUp dom sender seq t1 corr) s = .next (s.on e) :=
  exec_awake_eq hs (fun d => d.followUp dom.toNat sender.toNat seq.toNat t1 corr) rfl he

theorem exec_announce_awake {s : State} {e : Dev} {dom p1 cls acc p2 : Byte} {sender : BitVec 80}
    {var steps : BitVec 16} {gm : BitVec 64} {logInt : BitVec 8}
    (hs : s.dev.asleep = false) (he : s.dev.announce dom.toNat sender.toNat
      { data := [p1.toNat, cls.toNat, acc.toNat, var.toNat, p2.toNat, gm.toNat, steps.toNat], cls := cls.toNat,
        seen := 0, logInt := logInt.toInt } = e) :
    exec (.announce dom sender p1 cls acc var p2 gm steps logInt) s = .next (s.on e) :=
  exec_awake_eq hs (fun d => d.announce dom.toNat sender.toNat
      { data := [p1.toNat, cls.toNat, acc.toNat, var.toNat, p2.toNat, gm.toNat, steps.toNat], cls := cls.toNat,
        seen := 0, logInt := logInt.toInt }) rfl he

theorem exec_arpRequest_awake {s : State} {e : Dev} {sender : BitVec 48} {target : Word}
    (hs : s.dev.asleep = false) (he : s.dev.arp sender.toNat target = e) :
    exec (.arpRequest sender target) s = .next (s.on e) :=
  exec_awake_eq hs (fun d => d.arp sender.toNat target) rfl he

theorem exec_icmpEcho_awake {s : State} {e : Dev} {x y : Word} {body : List Byte}
    (hs : s.dev.asleep = false) (he : s.dev.icmp x y body = e) :
    exec (.icmpEcho x y body) s = .next (s.on e) :=
  exec_awake_eq hs (fun d => d.icmp x y body) rfl he

theorem exec_ethLinkChange_awake {s : State} {e : Dev} {p2 up gig : Bool}
    (hs : s.dev.asleep = false) (he : s.dev.ethLink (1 + b2n p2) up gig = e) :
    exec (.ethLinkChange p2 up gig) s = .next (s.on e) :=
  exec_awake_eq hs (fun d => d.ethLink (1 + b2n p2) up gig) rfl he

theorem exec_angleMessage_awake {s : State} {e : Dev} {l : List Byte}
    (hs : s.dev.asleep = false) (he : s.dev.angMessage l = e) :
    exec (.angleMessage l) s = .next (s.on e) :=
  exec_awake_eq hs (fun d => d.angMessage l) rfl he

/-- Settles O55: the switch, the link delay, the ordinary clock, the host's answers, the links and angle messages. -/
theorem ethernetCommands : Obligations.EthernetCommands := by
  unfold Obligations.EthernetCommands
  refine ⟨fun s p2 l ok res e hs => ?frame, fun s mac p t hs => ?age, fun s p2 ans t1 t2 t3 t4 a e hs => ?delay,
    fun s p2 req rns rsec tns tsec hs => ⟨fun h => exec_pdelayReq_awake hs (Dev.pdelayAnswer_off h req),
      fun hrole hup htc hr ht => exec_pdelayReq_awake hs (Dev.pdelayAnswer_on ⟨htc, hrole, hup⟩ hr ht req)⟩,
    fun s p2 dom sender seq twoStep t1 corr logInt m ns sec e hs =>
      ⟨fun h => exec_sync_awake hs (Dev.syncReceive_unknown h _ _ _ _ _ _ _),
      fun hm h => exec_sync_awake hs (Dev.syncReceive_other hm h _ _ _ _ _),
      fun hm hdom hgm hcap hclk he =>
        exec_sync_awake hs (Dev.syncReceive_master hm hdom hgm hcap hclk he _ _ _ _)⟩,
    fun s dom sender seq t1 corr m x n t2 c hs =>
      ⟨fun h => exec_followUp_awake hs (Dev.followUp_unknown h _ _ _ _),
      fun hsync hm h => exec_followUp_awake hs (Dev.followUp_other hsync hm h _ _), ?followUp⟩,
    fun s dom sender p1 cls acc var p2 gm steps logInt e hs =>
      ⟨fun h => exec_announce_awake hs (Dev.announce_otherDomain h _ _),
      fun h he => exec_announce_awake hs (Dev.announce_domain h he)⟩,
    fun s hs => ⟨fun hrun hdue => State.lift_awake_eq hs (Dev.syncLost_expired hrun hdue),
      fun h => State.lift_awake_eq hs (Dev.syncLost_runs h)⟩,
    fun s sender target hs => ⟨fun htx h => exec_arpRequest_awake hs (Dev.arp_answers htx h _),
      fun h => exec_arpRequest_awake hs (Dev.arp_silent h _)⟩,
    fun s x y body hs => ⟨fun htx h => exec_icmpEcho_awake hs (Dev.icmp_answers htx h _ _),
      fun h => exec_icmpEcho_awake hs (Dev.icmp_silent h _ _)⟩,
    fun s p2 up gig hs => ⟨fun h => exec_ethLinkChange_awake hs (Dev.ethLink_same h), ?linkUp, ?linkDown⟩,
    fun s l seq f tm now hs hseq hf htm hnow => ?message⟩
  case frame =>
    refine ⟨fun hup => exec_ethFrameReceive_awake hs (Dev.ethReceive_down hup l ok _),
      fun hup hl => exec_ethFrameReceive_awake hs (Dev.ethReceive_long hup hl ok _), ?_, ?_, ?_⟩
    · rintro hup hl rfl
      exact exec_ethFrameReceive_awake hs (Dev.ethReceive_badFcs hup hl _)
    · rintro hup hl rfl he hstay
      exact exec_ethFrameReceive_awake hs ((Dev.ethReceive_good hup hl he _).trans (if_pos hstay))
    · rintro hup hl rfl he hmac hon hcap
      refine exec_ethFrameReceive_awake hs ((Dev.ethReceive_good hup hl he _).trans ?_)
      rw [if_neg (by simp [hmac, hon]), if_neg (by simp [Dev.ptpHeld_not hcap])]
  case age =>
    exact ⟨fun h => exec_addressAgeOut_awake hs (Dev.ethAge_absent h),
      fun h hn hold => exec_addressAgeOut_awake hs ((Dev.ethAge_learned h).trans (if_pos ⟨hn, hold⟩)),
      fun h hkeep => exec_addressAgeOut_awake hs
        ((Dev.ethAge_learned h).trans (if_neg fun ⟨hn, hold⟩ => hkeep.elim hn (Nat.not_le.2 hold)))⟩
  case delay =>
    refine ⟨fun h => exec_peerDelayMeasure_awake hs (Dev.peerDelay_off h ans),
      fun htc hrole hup hp => exec_peerDelayMeasure_awake hs (Dev.peerDelay_stopped ⟨htc, hrole, hup⟩ hp ans),
      fun htc hrole hup hp hrun hdue =>
        exec_peerDelayMeasure_awake hs (Dev.peerDelay_early ⟨htc, hrole, hup⟩ hp hrun hdue ans), ?_, ?_⟩ <;>
    · rintro htc hrole hup hp hdue rfl rfl rfl
      exact exec_peerDelayMeasure_awake hs (Dev.peerDelay_exchange ⟨htc, hrole, hup⟩ hp hdue _)
  case followUp =>
    rintro hsync hm hdom rfl rfl hgm
    exact exec_followUp_awake hs (Dev.followUp_completes hsync hm hdom hgm _ _)
  case linkUp =>
    rintro rfl hcfg h
    exact exec_ethLinkChange_awake hs (Dev.ethLink_up hcfg h)
  case linkDown =>
    rintro rfl h
    exact exec_ethLinkChange_awake hs (Dev.ethLink_down h gig)
  case message =>
    subst hseq hf htm hnow
    refine ⟨fun h => exec_angleMessage_awake hs (Dev.angMessage_rejected h),
      fun hform hnew hrange h =>
        exec_angleMessage_awake hs ((Dev.angMessage_taken hform hnew hrange rfl).trans (if_pos h)),
      fun hform hnew hrange h =>
        exec_angleMessage_awake hs ((Dev.angMessage_taken hform hnew hrange rfl).trans (if_neg ?_))⟩
    simpa [not_or] using h

end Sys2Proof.Machine
end

section
/-! SUPPORT. The ring: its states, its breaks, its enumeration and the delays of its nodes. -/

namespace Sys2Proof.Machine

/-! ### Ring states (R92) -/

theorem Dev.ringSet_same {d : Dev} {st : Nat} (h : d.ringState = st) : d.ringSet st = d := if_pos h

theorem Dev.ringSet_enum {d : Dev} (h : d.ringState = 0) :
    d.ringSet 1 = (d.setFld (Reg.SK_RING 0) 2 0 1).stop Tm.linkOk := by
  simp [Dev.ringSet, h]

theorem Dev.ringBreak_normal {d : Dev} (h : d.ringState = 2) :
    d.ringBreak = (((d.setFld (Reg.SK_RING 0) 2 0 3).stop Tm.linkOk).owAbort).hw 0x1010 [] := by
  simp [Dev.ringBreak, Dev.ringSet, h]

theorem Dev.ringBreak_other {d : Dev} (h : d.ringState ≠ 2) : d.ringBreak = d := if_neg h

theorem Dev.ringDownExit_up {d : Dev} (hst : d.ringState = 0) (ha : d.bit (Reg.SK_STAT 0) 0 = true)
    (hb : d.bit (Reg.SK_STAT 1) 0 = true ∨ d.due Tm.ringUp (msT 2) = true) : d.ringDownExit = d.ringSet 1 :=
  if_pos (by simp [hst, ha, hb])

theorem Dev.ringDownExit_stays {d : Dev} (h : d.ringState ≠ 0 ∨ d.bit (Reg.SK_STAT 0) 0 = false) :
    d.ringDownExit = d :=
  if_neg (by rcases h with h | h <;> simp [h])

/-! ### FAULT sets (R66) -/

/-- A FAULT set from the device that faces port A starts the timer of the partner's silence. -/
def Dev.faultHear (d : Dev) (x : Bool) (a p : Nat) : Dev :=
  if x = false ∧ (if d.bit Reg.TW_CFG 1 then a = 0 ∧ p = 0 else a + 1 = d.ring.count.getD 0 ∧ p = 1) then
    d.start Tm.faultHeard
  else d

theorem Dev.faultHear_far (d : Dev) (a p : Nat) : d.faultHear true a p = d := if_neg (by simp)

/-- In NORMAL, BROKEN and SPLIT a FAULT set notes where the ring is broken. -/
def Dev.faultBreak (d : Dev) (x : Bool) (a : Nat) : Dev :=
  if d.ringState = 2 ∨ d.ringState = 3 ∨ d.ringState = 4 then (d.brk (d.farEnd x) (a % 64)).ringBreak else d

theorem Dev.faultBreak_notes {d : Dev} (h : d.ringState = 2 ∨ d.ringState = 3 ∨ d.ringState = 4) (x : Bool)
    (a : Nat) : d.faultBreak x a = (d.brk (d.farEnd x) (a % 64)).ringBreak := if_pos h

theorem Dev.faultBreak_quiet {d : Dev} (h : d.ringState < 2 ∨ 4 < d.ringState) (x : Bool) (a : Nat) :
    d.faultBreak x a = d := if_neg (by omega)

theorem faultCheck_ne (a p c : Byte) : (c.toNat != a.toNat ^^^ p.toNat ^^^ 0x5A) = decide (c ≠ a ^^^ p ^^^ 0x5A) := by
  have hx : a.toNat ^^^ p.toNat ^^^ 0x5A = (a ^^^ p ^^^ 0x5A).toNat := by simp only [BitVec.toNat_xor]; rfl
  rw [hx, Bool.eq_iff_iff, bne_iff_ne, decide_eq_true_iff, ne_eq, BitVec.toNat_inj]

theorem exec_faultReceive_awake {s : State} {x : Bool} {a p c : Byte} {e : Dev} (hs : s.dev.asleep = false)
    (he : s.dev.faultReceive x a.toNat p.toNat c.toNat = e) : exec (.faultReceive x a p c) s = .next (s.on e) :=
  exec_awake_eq hs (fun d => d.faultReceive x a.toNat p.toNat c.toNat) rfl he

theorem Dev.faultReceive_discards {d : Dev} {x : Bool} {a p c : Byte}
    (h : d.bit (Reg.SK_CTL (portNo x)) 0 = false ∨ c ≠ a ^^^ p ^^^ 0x5A) :
    d.faultReceive x a.toNat p.toNat c.toNat = d := by
  unfold Dev.faultReceive
  rw [faultCheck_ne, if_pos (by simpa using h)]

theorem Dev.faultReceive_good {d : Dev} {x : Bool} {a p c : Byte} (hon : d.bit (Reg.SK_CTL (portNo x)) 0 = true)
    (hc : c = a ^^^ p ^^^ 0x5A) : d.faultReceive x a.toNat p.toNat c.toNat =
      ((d.flag (Reg.SK_STAT (portNo x)) 8).faultHear x a.toNat p.toNat).faultBreak x a.toNat := by
  unfold Dev.faultReceive Dev.faultHear Dev.faultBreak
  rw [faultCheck_ne, if_neg (by simp [hon, hc])]
  simp only [Bool.and_eq_true, Bool.or_eq_true, Bool.not_eq_true', Bool.ite_eq_true_distrib, decide_eq_true_eq,
    or_assoc]

/-! ### The echo end (R61, R75) -/

/-- What an echo end sends back for a frame: ECHO set, and RSP where it completes a READ to DST 62. -/
def echoFrame (frame : List Byte) : List Nat :=
  let l := (farComplete frame).set 1 (((farComplete frame)[1]?).getD 0 ||| 64)
  byteNats (l ++ leBytes 4 (crc32c l).toNat)

/-- A frame that a shade's echo end completes ends a HEAL. -/
def Dev.echoHeals (d : Dev) (frame : List Byte) : Bool := d.role = 2 && d.ringState = 5 && isRead62 frame

/-- The frame leaves the port at which it arrived. -/
def Dev.echoBack (d : Dev) (x : Bool) (frame : List Byte) : Dev :=
  (d.portFrame x).send (portIface x) (0x200 + nth (echoFrame frame) 0) (echoFrame frame)

/-- What an echo end makes of a frame that it receives. -/
def Dev.echoReturn (d : Dev) (x : Bool) (frame : List Byte) : Dev :=
  if d.portOn x && (d.echoHeals frame || (d.fld (Reg.SK_CTL (portNo x)) 3 2 = 2 && !d.ringSplit)) then
    (if d.echoHeals frame then d.ringSet 2 else d).echoBack x frame
  else d

theorem exec_echoEndReturn_awake {s : State} {x : Bool} {frame : List Byte} {e : Dev} (hs : s.dev.asleep = false)
    (he : s.dev.echoReturn x frame = e) : exec (.echoEndReturn x frame) s = .next (s.on e) :=
  exec_awake_eq hs (fun d => d.echoReturn x frame) rfl he

theorem Dev.echoHeals_not_split {d : Dev} (h : d.ringSplit = false) (frame : List Byte) :
    d.echoHeals frame = false := by
  have h5 : d.ringState ≠ 5 := by intro h5; simp [Dev.ringSplit, h5] at h
  simp [Dev.echoHeals, h5]

theorem Dev.echoReturn_end {d : Dev} {x : Bool} (hon : d.portOn x = true)
    (hend : d.fld (Reg.SK_CTL (portNo x)) 3 2 = 2) (hsplit : d.ringSplit = false) (frame : List Byte) :
    d.echoReturn x frame = d.echoBack x frame := by
  simp [Dev.echoReturn, Dev.echoHeals_not_split hsplit, hon, hend, hsplit]

theorem Dev.echoReturn_heals {d : Dev} {x : Bool} {frame : List Byte} (hon : d.portOn x = true)
    (h : d.echoHeals frame = true) : d.echoReturn x frame = (d.ringSet 2).echoBack x frame := by
  simp [Dev.echoReturn, hon, h]

theorem Dev.echoReturn_off {d : Dev} {x : Bool} (h : d.portOn x = false) (frame : List Byte) :
    d.echoReturn x frame = d :=
  if_neg (by simp [h])

theorem Dev.echoReturn_through {d : Dev} {x : Bool} {frame : List Byte} (hheal : d.echoHeals frame = false)
    (h : d.fld (Reg.SK_CTL (portNo x)) 3 2 ≠ 2 ∨ d.ringSplit = true) : d.echoReturn x frame = d :=
  if_neg (by rcases h with h | h <;> simp [hheal, h])

theorem isRead62_cons (a dst : Byte) (l : List Byte) :
    isRead62 (a :: dst :: l) = decide (a = 4 ∧ dst.toNat % 64 = 62) := by
  have ha : a.toNat = 4 ↔ a = 4 := by rw [← BitVec.toNat_inj]; rfl
  simp [isRead62, slice, leNat, ha]

theorem farComplete_read {dst : Byte} (hdst : dst.toNat % 64 = 62) (hecho : dst.toNat.testBit 6 = false)
    (l : List Byte) : farComplete (4 :: dst :: l) = 4 :: (dst ||| 0x80) :: l := by
  simp [farComplete, isRead62_cons, hdst, hecho, slice, leNat]

theorem farComplete_other {a dst : Byte} (h : a ≠ 4 ∨ dst.toNat % 64 ≠ 62 ∨ dst.toNat.testBit 6 = true)
    (l : List Byte) : farComplete (a :: dst :: l) = a :: dst :: l := by
  refine if_neg fun hread => ?_
  rw [isRead62_cons, Bool.and_eq_true, decide_eq_true_iff] at hread
  obtain ⟨⟨ha, hdst⟩, hecho⟩ := hread
  have hbit : dst.toNat.testBit 6 = false := by simpa [slice, leNat] using hecho
  rcases h with h | h | h
  · exact h ha
  · exact h hdst
  · simp [hbit] at h

/-! ### Enumeration (R87, R88, R109) -/

theorem exec_enumeration_awake {s : State} {hop : Byte} {nodes : List EnumNode} {transit : BitVec 24} {e : Dev}
    (hs : s.dev.asleep = false)
    (he : (if s.dev.leads then s.dev.enumerate hop.toNat nodes transit.toNat else s.dev) = e) :
    exec (.enumeration hop nodes transit) s = .next (s.on e) :=
  exec_awake_eq hs (fun d => if d.leads then d.enumerate hop.toNat nodes transit.toNat else d) rfl he

theorem Dev.enumerate_blocked {d : Dev} (h : d.enumOk = false) (hop : Nat) (nodes : List EnumNode) (transit : Nat) :
    d.enumerate hop nodes transit = d := if_neg (by simp [h])

/-- What an enumeration sends before it takes its nodes: the call to a partner, its frames, and the note of a changed
count. -/
def Dev.enumHead (d : Dev) (hop n : Nat) : Dev :=
  let changed := match d.ring.count with | some m => decide (m ≠ n) | none => false
  let e := if d.role = 1 then d.send .twin 0x09 [4, 0, 0, 0, 0, 0, 0, 0] else d
  let f := (e.ringSet 1).enumIssue n
  if d.role != 2 && (48 < hop || changed) then f.fw 0x1031 [nw hop] else f

/-- The ring holds `n` nodes. -/
def Dev.enumCount (d : Dev) (n transit : Nat) : Dev :=
  { d with ring := { d.ring with count := some n, trans := [], trans0 := transit } }

/-- The nodes found take their places. -/
def Dev.enumNodes (d : Dev) (nodes : List EnumNode) (n : Nat) : Dev :=
  ((List.range n).foldl (fun (d : Dev) k => match nodes[k]? with | some e => d.enumNode k e | none => d) d).nodesNote n

/-- T_ref is formed, and every node's delays are written for it. -/
def Dev.enumDelays (d : Dev) (n : Nat) : Dev :=
  ((List.range n).foldl (fun (e : Dev) k => e.delayWrite d.trefOf k)
    { d with ring := { d.ring with tref := d.trefOf, trefNew := none } }).wdtoSend

/-- The boot ROM makes the identity map unless a map stands. -/
def Dev.enumMap (d : Dev) : Dev :=
  if d.pwr.full || d.bit Reg.CHM_STAT 2 || d.bit Reg.CHM_STAT 3 then d else d.chmIdentity

/-- A module that is alone and enumerates its ring for the first time sends the frames and nothing else. -/
theorem Dev.enumHead_alone {d : Dev} {hop : Nat} (hrole : d.role = 0) (hst : d.ringState = 1)
    (hcount : d.ring.count = none) (hhop : hop ≤ 48) (n : Nat) : d.enumHead hop n = d.enumFrames n := by
  simp [Dev.enumHead, Dev.enumIssue, Dev.ringSet_same hst, hrole, hcount, Nat.not_lt.2 hhop]

theorem Dev.enumerate_runs {d : Dev} {hop n : Nat} {nodes : List EnumNode} (hok : d.enumOk = true)
    (hrole : d.role ≠ 2) (hn : min 48 (min hop nodes.length) = n) (transit : Nat) : d.enumerate hop nodes transit =
      (((((((d.enumHead hop n).enumCount n transit).enumNodes nodes n).enumDelays n).enumMap).greyNodes n).ringSet
        2).fw 0x1030 [nw n] := by
  subst hn
  exact (if_pos hok).trans (if_pos (bne_iff_ne.2 hrole))

theorem Dev.enumOk_first {d : Dev} (hrole : d.role ≠ 2) (hq : d.ringQuiet = true) (hst : d.ringState = 1)
    (h : d.pwr.full = false ∨ d.ringBasic = true) : d.enumOk = true := by
  simp only [Dev.enumOk]
  rcases h with h | h <;> simp [hrole, hq, hst, h]

theorem Dev.enumOk_again {d : Dev} (hrole : d.role ≠ 2) (hq : d.ringQuiet = true)
    (hst : d.ringState = 2 ∨ d.ringState = 4) (h : d.ringBasic = true) : d.enumOk = true := by
  rcases hst with hst | hst <;> simp [Dev.enumOk, hrole, hq, hst, h]

theorem Dev.enumOk_claimed {d : Dev} (hrole : d.role ≠ 2) (hb : d.ringBasic = false) (hfull : d.pwr.full = true) :
    d.enumOk = false := by
  simp [Dev.enumOk, hrole, hb, hfull]

/-! ### Times of flight and delays (R87, R88, R89, R566) -/

theorem Dev.dly_measured {d : Dev} {x : Bool} {k t : Nat} (h : d.tof x k = some t) (tref : Nat) :
    d.dly tref x k = tref - t - (d.nodeCaps k).2.2 := by
  simp only [Dev.dly, h]

/-- Of one round trip with an even remainder above LOOPT the time of flight is half the remainder. -/
theorem tofMean_one {lo : Nat} {r : BitVec 24} (hlo : lo ≤ r.toNat) (heven : (r.toNat - lo) % 2 = 0) :
    tofMean lo [r] = some ((r.toNat - lo) / 2 % 65536) := by
  have hs : (r.toNat : Int) - (lo : Int) = ((r.toNat - lo : Nat) : Int) := by omega
  have hm : ((r.toNat - lo : Nat) : Int) % 2 = 0 := by omega
  have hq : quotR ((r.toNat - lo : Nat) : Int) 2 = ((r.toNat - lo : Nat) : Int) / 2 := by simp [quotR, hm]
  have hd : (((r.toNat - lo : Nat) : Int) / 2).toNat = (r.toNat - lo) / 2 := by omega
  simp [tofMean, hs, hq, hd]

theorem exec_tofRemeasure_awake {s : State} {ra rb : List (BitVec 24)} {e : Dev} (hs : s.dev.asleep = false)
    (he : s.dev.tofRemeasure ra rb = e) : exec (.tofRemeasure ra rb) s = .next (s.on e) :=
  exec_awake_eq hs (fun d => d.tofRemeasure ra rb) rfl he

theorem Dev.tofRemeasure_waits {d : Dev} (h : d.ring.tofWait = none ∨
    d.ringState ≠ 5 ∧ d.bit Reg.TT_STAT 5 = false ∨ d.ringBasic = false ∨ d.ringQuiet = false)
    (ra rb : List (BitVec 24)) : d.tofRemeasure ra rb = d := by
  unfold Dev.tofRemeasure
  cases hw : d.ring.tofWait with
  | none => rfl
  | some k =>
    refine if_pos ?_
    rcases h with h | ⟨hst, hwin⟩ | h | h
    · simp [hw] at h
    · simp [hst, hwin]
    · simp [h]
    · simp [h]

/-- The delays of a node whose time of flight moved are written, or a new T_ref is asked for. -/
def Dev.tofApply (p : Dev × Bool) (k : Nat) : Dev :=
  if p.2 then
    (if p.1.trefOf = p.1.ring.tref then p.1.delayWrite p.1.trefOf k
    else { p.1 with ring := { p.1.ring with trefNew := some p.1.trefOf } })
  else p.1

theorem Dev.tofApply_still {p : Dev × Bool} (h : p.2 = false) (k : Nat) : Dev.tofApply p k = p.1 :=
  if_neg (by simp [h])

theorem Dev.tofApply_moved {p : Dev × Bool} (h : p.2 = true) (k : Nat) : Dev.tofApply p k =
    if p.1.trefOf = p.1.ring.tref then p.1.delayWrite p.1.trefOf k
    else { p.1 with ring := { p.1.ring with trefNew := some p.1.trefOf } } := if_pos h

/-- Node `k` is measured from both ends while an idle window is open or the ring heals. -/
theorem Dev.tofRemeasure_measures {d a : Dev} {k : Nat} {ra rb : List (BitVec 24)} {p : Dev × Bool}
    (hw : d.ring.tofWait = some k) (hb : d.ringBasic = true) (hl : d.leads = true)
    (hwin : d.ringState = 5 ∨ d.bit Reg.TT_STAT 5 = true) (hk : k < d.ring.count.getD 0) (hq : d.ringQuiet = true)
    (ha : ((Dev.echoSend { d with ring := { d.ring with tofWait := none } } k).rttNote false ra).rttNote true rb = a)
    (hp : Dev.tofMove (Dev.tofMove (a, false) false k (a.nodeCaps k).2.1 ra) true k (a.nodeCaps k).2.1 rb = p) :
    d.tofRemeasure ra rb =
      if d.ringState = 5 then (Dev.tofApply p k).healNext k (!ra.isEmpty && !rb.isEmpty) else Dev.tofApply p k := by
  subst ha hp
  unfold Dev.tofRemeasure
  simp only [hw]
  rw [if_neg (by rcases hwin with h | h <;> simp [hb, hl, hq, hk, h])]
  simp only [decide_eq_true_eq]
  rfl

theorem Dev.tofMove_small {d : Dev} {x : Bool} {k lo t o : Nat} {l : List (BitVec 24)} (ht : tofMean lo l = some t)
    (ho : d.tof x k = some o) (h : ((t : Int) - (o : Int)).natAbs < 2) (b : Bool) :
    Dev.tofMove (d, b) x k lo l = (d, b) := by
  simp only [Dev.tofMove, ht, ho, if_neg (Nat.not_le.2 h)]

theorem Dev.tofMove_large {d : Dev} {x : Bool} {k lo t o : Nat} {l : List (BitVec 24)} (ht : tofMean lo l = some t)
    (ho : d.tof x k = some o) (h : 2 ≤ ((t : Int) - (o : Int)).natAbs) (b : Bool) :
    Dev.tofMove (d, b) x k lo l = (d.setTof x k (some t), true) := by
  simp only [Dev.tofMove, ht, ho, if_pos h]

theorem Dev.healNext_fails (d : Dev) (k : Nat) : d.healNext k false = d.healFail := rfl

theorem Dev.healNext_more {d : Dev} {k : Nat} (h : k + 1 < d.ring.count.getD 0) :
    d.healNext k true = { d with ring := { d.ring with tofWait := some (k + 1) } } := if_pos h

theorem Dev.healNext_last {d : Dev} {k : Nat} (h : d.ring.count.getD 0 ≤ k + 1) : d.healNext k true = d.healPass :=
  if_neg (Nat.not_lt.2 h)

theorem Dev.delayRewrite_none {d : Dev} (h : d.ring.trefNew = none) : d.delayRewrite = d := by
  simp only [Dev.delayRewrite, h]

/-- A new T_ref is written to every node that the ring reaches, when firmware runs the ring and the writes fit. -/
theorem Dev.delayRewrite_some {d : Dev} {t : Nat} {l : List Nat} (ht : d.ring.trefNew = some t)
    (hl : (List.range (d.ring.count.getD 0)).filter (fun k => !d.unreached k && d.leads) = l) :
    d.delayRewrite = if d.ringBasic = true ∧ d.delaysFit l.length = true then
      l.foldl (fun (d : Dev) k => d.delayWrite t k) { d with ring := { d.ring with tref := t, trefNew := none } }
    else d := by
  subst hl
  simp only [Dev.delayRewrite, ht]
  split
  · next hheld => rw [if_neg fun ⟨hb, hfit⟩ => by simp [hb, hfit] at hheld]
  · next hfree => rw [if_pos (by simpa using hfree)]

theorem Dev.delayRewrite_claimed {d : Dev} (h : d.ringBasic = false) : d.delayRewrite = d := by
  cases ht : d.ring.trefNew with
  | none => exact Dev.delayRewrite_none ht
  | some t => simp [Dev.delayRewrite_some ht rfl, h]

theorem Dev.delaysFit_busy {d : Dev} (h : d.now < d.ring.busyTill) (n : Nat) : d.delaysFit n = false := by
  have hlane : decide (d.ring.busyTill ≤ d.now) = false := decide_eq_false (Nat.not_le.2 h)
  simp only [Dev.delaysFit, hlane, Bool.false_and]

theorem Dev.delaysFit_strobe {d : Dev} {n t : Nat} (ht : d.strobeTicks = some t)
    (h : t < symT (n * delaySyms) + d.tRing) : d.delaysFit n = false := by
  have hlong : decide (symT (n * delaySyms) + d.tRing ≤ t) = false := decide_eq_false (Nat.not_le.2 h)
  simp only [Dev.delaysFit, ht, hlong, Bool.and_false]

/-! ### HEAL, WAKE and REARM (R79, R92, R96) -/

theorem exec_healSend_awake {s : State} {ok : Bool} {e : Dev} (hs : s.dev.asleep = false)
    (he : s.dev.healSend ok = e) : exec (.healSend ok) s = .next (s.on e) :=
  exec_awake_eq hs (fun d => d.healSend ok) rfl he

theorem Dev.healSend_other {d : Dev} (h : d.ringState ≠ 4) (ok : Bool) : d.healSend ok = d :=
  if_pos (by simpa using h)

theorem Dev.healSend_broken {d : Dev} (h : d.ringState = 4) : d.healSend false = d.stop Tm.linkOk := by
  simp [Dev.healSend, h]

theorem Dev.healTry_heals {d : Dev} (hst : d.ringState = 4) (hauto : d.bit (Reg.SK_CTL 0) 4 = true)
    (hl : d.leads = true) (hb : d.ringBasic = true) (hdue : d.due Tm.linkOk (secT 1) = true) : d.healTry = d.healGo :=
  if_pos (by simp [hst, hauto, hl, hb, hdue])

theorem Dev.healSend_linked {d : Dev} (h : d.ringState = 4) (hrun : d.running Tm.linkOk = true) :
    d.healSend true = d.healTry := by
  simp [Dev.healSend, h, hrun]

/-- The nodes are awake. -/
def Dev.wakeDone (d : Dev) : Dev := Dev.stop { d with ring := { d.ring with slept := false } } Tm.wake

theorem exec_wakeSend_awake {s : State} {ret : Bool} {e : Dev} (hs : s.dev.asleep = false)
    (he : s.dev.wakeSend ret = e) : exec (.wakeSend ret) s = .next (s.on e) :=
  exec_awake_eq hs (fun d => d.wakeSend ret) rfl he

theorem Dev.wakeSend_awake {d : Dev} (h : d.ring.slept = false) (ret : Bool) : d.wakeSend ret = d := if_pos h

/-- While the timer of a wake-up runs WAKE is sent, until it returns or the time is over. -/
theorem Dev.wakeSend_asleep {d : Dev} (h : d.ring.slept = true) (hrun : d.running Tm.wake = true) (ret : Bool) :
    d.wakeSend ret = if d.due Tm.wake (msT 120) = true then d.wakeDone
      else if ret = true then
        (let e := (d.ringSend setWake []).wakeDone
        if e.ringState = 6 then e.ringSet 1 else e.ringDownExit)
      else d.ringSend setWake [] := by
  unfold Dev.wakeSend
  rw [if_neg (by simp [h])]
  simp only [hrun, if_true]
  rfl

theorem Dev.wakeSend_sends {d : Dev} (h : d.ring.slept = true) (hrun : d.running Tm.wake = true)
    (hdue : d.due Tm.wake (msT 120) = false) (ret : Bool) : d.wakeSend ret =
      if ret = true then
        (let e := (d.ringSend setWake []).wakeDone
        if e.ringState = 6 then e.ringSet 1 else e.ringDownExit)
      else d.ringSend setWake [] :=
  (Dev.wakeSend_asleep h hrun ret).trans (if_neg (by simp [hdue]))

theorem exec_nodeRearm_awake {s : State} {src : Writer} {x : Bool} {k : BitVec 6} {v : Word} {e : Dev}
    (hs : s.dev.asleep = false)
    (he : (if 47 < k.toNat then s.dev
      else s.dev.gate src (Reg.SK_NODE (portNo x) k.toNat) (fun d => d.rearm k.toNat v)) = e) :
    exec (.nodeRearm src x k v) s = .next (s.on e) :=
  exec_awake_eq hs (fun d => if 47 < k.toNat then d
    else d.gate src (Reg.SK_NODE (portNo x) k.toNat) (fun d => d.rearm k.toNat v)) rfl he

theorem Dev.rearm_lost {d e : Dev} {k : Nat} {v : Word} (hv : bitOf v 31 = true) (hlost : d.lagst k = 3)
    (he : (d.setNode k 17 16 0).hw 0x1022 [nw k] = e) : d.rearm k v =
      { e with ring := { e.ring with
          tight := putN e.ring.tight k 0, fit := putN e.ring.fit k 0, tail := putN e.ring.tail k 0 } } := by
  subst he
  simp [Dev.rearm, Dev.lagSet, hv, hlost, lagEvent]

/-- Settles O36: the ring's states, FAULT sets, the echo end, enumeration, times of flight and delays, HEAL, WAKE and
REARM. -/
theorem ringStates : Obligations.RingStates := by
  unfold Obligations.RingStates
  refine ⟨fun s hs hst ha hb => State.lift_awake_eq hs ((Dev.ringDownExit_up hst ha hb).trans (Dev.ringSet_enum hst)),
    fun s hs h => State.lift_awake_eq hs (Dev.ringDownExit_stays h),
    fun s x a p c hs h => exec_faultReceive_awake hs (Dev.faultReceive_discards h),
    fun s a p c d hs hd hon hc => ?faultB,
    fun s a p c d e hs hc hd he hon => ?faultA,
    fun d => ⟨Dev.ringBreak_normal, Dev.ringBreak_other⟩,
    fun s x frame l hs hon hl => ?echo,
    fun s x frame hs hoff => exec_echoEndReturn_awake hs (Dev.echoReturn_off hoff frame),
    fun dst a l => ⟨fun hdst hecho => farComplete_read hdst hecho l, fun h => farComplete_other h l⟩,
    fun s hop nodes transit n a b hs hrole hst hok hcount hhop hn ha hb => ?enumerates,
    fun s hop nodes transit hs hok => exec_enumeration_awake hs ?blocked,
    fun d hrole hq => ⟨Dev.enumOk_first hrole hq, Dev.enumOk_again hrole hq, Dev.enumOk_claimed hrole⟩,
    fun s hop nodes transit hs hl => exec_enumeration_awake hs (if_neg (by simp [hl])),
    fun d tref k t x ht => Dev.dly_measured ht tref,
    fun lo r hlo heven => tofMean_one hlo heven,
    fun s ra rb hs => ⟨fun h => exec_tofRemeasure_awake hs (Dev.tofRemeasure_waits (.inl h) ra rb),
      fun hst hwin => exec_tofRemeasure_awake hs (Dev.tofRemeasure_waits (.inr (.inl ⟨hst, hwin⟩)) ra rb),
      fun h => exec_tofRemeasure_awake hs (Dev.tofRemeasure_waits (.inr (.inr (.inl h))) ra rb),
      fun h => exec_tofRemeasure_awake hs (Dev.tofRemeasure_waits (.inr (.inr (.inr h))) ra rb)⟩,
    fun s k ra rb a p hs hw hb hl hwin hk hq ha hp hst => ?measures,
    fun d k => ⟨fun ok hok => hok ▸ d.healNext_fails k, Dev.healNext_more, Dev.healNext_last⟩,
    fun s k ra rb a p f hs hw hb hl hst hk hq ha hp hf => exec_tofRemeasure_awake hs ?heals,
    fun d x b k lo t o l ht ho => ⟨fun h => Dev.tofMove_small ht ho h b, fun h => Dev.tofMove_large ht ho h b⟩,
    fun s t l hs ht hb hl =>
      ⟨fun hfit => State.lift_awake_eq hs ((Dev.delayRewrite_some ht hl).trans (if_pos ⟨hb, hfit⟩)),
      fun hheld => State.lift_awake_eq hs ((Dev.delayRewrite_some ht hl).trans (if_neg (by simp [hheld])))⟩,
    fun s hs h => State.lift_awake_eq hs (Dev.delayRewrite_none h),
    fun s hs h => State.lift_awake_eq hs (Dev.delayRewrite_claimed h),
    fun d n => ⟨fun h => Dev.delaysFit_busy h n, fun t ht h => Dev.delaysFit_strobe ht h⟩,
    fun s hs hst hauto hl hb hrun hdue => exec_healSend_awake hs
      ((Dev.healSend_linked hst hrun).trans (Dev.healTry_heals hst hauto hl hb hdue)),
    fun s ok hs h => exec_healSend_awake hs (Dev.healSend_other h ok),
    fun s hs h => exec_healSend_awake hs (Dev.healSend_broken h),
    fun d => rfl,
    fun s ret hs hslept => ⟨fun hdue hrun => exec_wakeSend_awake hs (Dev.wakeSend_sends hslept hrun hdue false),
      fun hdue hrun => exec_wakeSend_awake hs ((Dev.wakeSend_asleep hslept hrun ret).trans (if_pos hdue))⟩,
    fun s e hs hslept hrun hdue he => ?woken,
    fun s ret hs h => exec_wakeSend_awake hs (Dev.wakeSend_awake h ret),
    fun s src x k v d e hs ht hk hv hlost he => exec_nodeRearm_awake hs ?rearms,
    fun s src x k v hs hk => exec_nodeRearm_awake hs (if_pos hk)⟩
  case faultB =>
    subst hd
    have hgood := Dev.faultReceive_good (d := s.dev) (x := true) hon hc
    rw [Dev.faultHear_far] at hgood
    exact ⟨fun h => exec_faultReceive_awake hs (hgood.trans (Dev.faultBreak_notes h true _)),
      fun h => exec_faultReceive_awake hs (hgood.trans (Dev.faultBreak_quiet h true _))⟩
  case faultA =>
    have hhear : (s.dev.flag (Reg.SK_STAT 0) 8).faultHear false a.toNat p.toNat = e := by
      rw [hd, ← he, Dev.faultHear]
      simp only [true_and]
    have hgood := Dev.faultReceive_good (d := s.dev) (x := false) hon hc
    rw [show portNo false = 0 from rfl, hhear] at hgood
    exact ⟨fun h => exec_faultReceive_awake hs (hgood.trans (Dev.faultBreak_notes h false _)),
      fun h => exec_faultReceive_awake hs (hgood.trans (Dev.faultBreak_quiet h false _))⟩
  case echo =>
    subst hl
    refine ⟨fun hend hsplit => exec_echoEndReturn_awake hs (Dev.echoReturn_end hon hend hsplit frame),
      fun hrole hst hread => exec_echoEndReturn_awake hs (Dev.echoReturn_heals hon ?_),
      fun hrole h => exec_echoEndReturn_awake hs (Dev.echoReturn_through ?_ h)⟩
    · simp [Dev.echoHeals, hrole, hst, hread]
    · simp [Dev.echoHeals, hrole]
  case enumerates =>
    subst ha hb
    have hl : s.dev.leads = true := by simp [Dev.leads, hrole]
    refine exec_enumeration_awake hs ((if_pos hl).trans ?_)
    rw [Dev.enumerate_runs hok (by simp [hrole]) hn, Dev.enumHead_alone hrole hst hcount hhop]
    rfl
  case blocked => rw [Dev.enumerate_blocked hok, ite_self]
  case measures =>
    have hrun := Dev.tofRemeasure_measures hw hb hl (.inr hwin) hk hq ha hp
    rw [if_neg hst] at hrun
    exact ⟨fun hm => exec_tofRemeasure_awake hs (hrun.trans (Dev.tofApply_still hm k)),
      fun hm ht => exec_tofRemeasure_awake hs (hrun.trans ((Dev.tofApply_moved hm k).trans (if_pos ht))),
      fun hm ht => exec_tofRemeasure_awake hs (hrun.trans ((Dev.tofApply_moved hm k).trans (if_neg ht)))⟩
  case heals =>
    subst hf
    exact (Dev.tofRemeasure_measures hw hb hl (.inl hst) hk hq ha hp).trans (if_pos hst)
  case woken =>
    subst he
    have hwake := (Dev.wakeSend_sends hslept hrun hdue true).trans (if_pos rfl)
    exact ⟨fun h => exec_wakeSend_awake hs (hwake.trans (if_pos h)),
      fun h => exec_wakeSend_awake hs (hwake.trans (if_neg h))⟩
  case rearms =>
    rw [if_neg (Nat.not_lt.2 hk), Dev.gate_takes ht]
    exact Dev.rearm_lost hv hlost he

end Sys2Proof.Machine
end

section
/-! SUPPORT. The commands of the ring ports and the channel map. -/

namespace Sys2Proof.Machine

/-! ### SKx_CMDGO (R99) -/

theorem Dev.cmdGo_busy {d : Dev} {x : Bool} (h : d.bit (Reg.SK_CMDSTAT (portNo x)) 0 = true) (v : Word) :
    d.cmdGo x v = d := if_pos h

/-- What SKx_CMDGO makes of a length other than zero while the port is free: two checks, or the command queued. -/
theorem Dev.cmdGo_free {d : Dev} {x : Bool} {v : Word} {a n : Nat} (hfree : d.bit (Reg.SK_CMDSTAT (portNo x)) 0 = false)
    (ha : (d.rd (Reg.SK_CMDADDR (portNo x))).toNat = a) (hn : fieldOf v 13 0 = n) (h0 : n ≠ 0) :
    d.cmdGo x v = if (n < 8 ∨ 8200 < n) ∨ cmdBufOk a n = false then
      (let e := if n < 8 ∨ 8200 < n then d.flag (Reg.SK_CMDSTAT (portNo x)) 4 else d
      if cmdBufOk a n = false then e.flag (Reg.SK_CMDSTAT (portNo x)) 5 else e)
    else d.setCmd x (some (a, n, false)) := by
  subst ha hn
  unfold Dev.cmdGo
  simp only [hfree, h0, Bool.false_eq_true, if_false, Bool.or_eq_true, decide_eq_true_eq, Bool.not_eq_true']

theorem Dev.cmdGo_badLen {d : Dev} {x : Bool} {v : Word} {n : Nat}
    (hfree : d.bit (Reg.SK_CMDSTAT (portNo x)) 0 = false) (hn : fieldOf v 13 0 = n) (h0 : n ≠ 0)
    (hlen : n < 8 ∨ 8200 < n) : d.cmdGo x v =
      (let e := d.flag (Reg.SK_CMDSTAT (portNo x)) 4
      if cmdBufOk (d.rd (Reg.SK_CMDADDR (portNo x))).toNat n = false then e.flag (Reg.SK_CMDSTAT (portNo x)) 5
      else e) := by
  rw [Dev.cmdGo_free hfree rfl hn h0, if_pos (.inl hlen), if_pos hlen]

theorem Dev.cmdGo_badBuf {d : Dev} {x : Bool} {v : Word} {n : Nat}
    (hfree : d.bit (Reg.SK_CMDSTAT (portNo x)) 0 = false) (hn : fieldOf v 13 0 = n) (hlo : 8 ≤ n) (hhi : n ≤ 8200)
    (hbuf : cmdBufOk (d.rd (Reg.SK_CMDADDR (portNo x))).toNat n = false) :
    d.cmdGo x v = d.flag (Reg.SK_CMDSTAT (portNo x)) 5 := by
  rw [Dev.cmdGo_free hfree rfl hn (by omega), if_pos (.inr hbuf), if_pos hbuf, if_neg (by omega)]

theorem Dev.cmdGo_queues {d : Dev} {x : Bool} {v : Word} {n : Nat}
    (hfree : d.bit (Reg.SK_CMDSTAT (portNo x)) 0 = false) (hn : fieldOf v 13 0 = n) (hlo : 8 ≤ n) (hhi : n ≤ 8200)
    (hbuf : cmdBufOk (d.rd (Reg.SK_CMDADDR (portNo x))).toNat n = true) :
    d.cmdGo x v = d.setCmd x (some ((d.rd (Reg.SK_CMDADDR (portNo x))).toNat, n, false)) := by
  rw [Dev.cmdGo_free hfree rfl hn (by omega), if_neg]
  rintro (hlen | hbad)
  · omega
  · simp [hbuf] at hbad

theorem Dev.cmdGo_empty {d : Dev} {x : Bool} {v : Word} (hfree : d.bit (Reg.SK_CMDSTAT (portNo x)) 0 = false)
    (hn : fieldOf v 13 0 = 0) : d.cmdGo x v = d.flag (Reg.SK_CMDSTAT (portNo x)) 1 := by
  simp [Dev.cmdGo, hfree, hn]

/-! ### The queued frame (R78, R99) -/

theorem exec_commandSend_awake {s : State} {x : Bool} {e : Dev} (hs : s.dev.asleep = false)
    (he : s.dev.cmdSend x = e) : exec (.commandSend x) s = .next (s.on e) :=
  exec_awake_eq hs (fun d => d.cmdSend x) rfl he

theorem Dev.cmdSend_none {d : Dev} {x : Bool} (h : d.cmdOf x = none) : d.cmdSend x = d := by
  simp only [Dev.cmdSend, h]

theorem Dev.cmdSend_lane {d : Dev} (h : d.now < d.ring.busyTill) (x : Bool) : d.cmdSend x = d := by
  unfold Dev.cmdSend
  split
  · exact if_pos (by simp [h])
  · rfl

/-- The frame of a command of code `c` with bytes `l` leaves a port that is on, of a module that is no shade. -/
def Dev.cmdLeave (d : Dev) (x : Bool) (c : Nat) (l : List Byte) : Dev :=
  let data := byteNats (l ++ leBytes 4 (crc32c l).toNat)
  if d.portOn x && d.role != 2 then ((d.portSend x c data).partnerFrame data).cmdState c else d

theorem Dev.cmdSend_leaves {d : Dev} {x : Bool} {a n c : Nat} {l : List Byte} (hcmd : d.cmdOf x = some (a, n, false))
    (hl : d.bytes a n = l) (hlane : d.ring.busyTill ≤ d.now) (hecho : c = 3 → d.ringQuiet = true)
    (hc : leNat (l.take 1) = c) : d.cmdSend x =
      (let e := d.cmdLeave x c l
      if e.rd (Reg.SK_CMDTO (portNo x)) = 0 then (e.setCmd x none).flag (Reg.SK_CMDSTAT (portNo x)) 1
      else (e.setCmd x (some (a, n, true))).start (Tm.cmd x)) := by
  subst hl hc
  simp only [Dev.cmdSend, hcmd]
  rw [if_neg]
  · rfl
  · simpa [Nat.not_lt.2 hlane] using hecho

theorem Dev.cmdState_heal_split {d : Dev} (h : d.ringState = 4) : d.cmdState 9 = d.ringSet 5 := by
  simp [Dev.cmdState, h]

theorem Dev.cmdState_heal_other {d : Dev} (h : d.ringState ≠ 4) : d.cmdState 9 = d := by
  simp [Dev.cmdState, h]

theorem Dev.cmdState_other {c : Nat} (h9 : c ≠ 9) (h7 : c ≠ 7) (d : Dev) : d.cmdState c = d := by
  simp [Dev.cmdState, h9, h7]

/-! ### Answers (R73, R75, R87, R98) -/

theorem exec_commandAnswer_awake {s : State} {x healOk : Bool} {fin : FrameEnd} {rtt : BitVec 24} {frame : List Byte}
    {e : Dev} (hs : s.dev.asleep = false) (he : s.dev.cmdAnswer x fin rtt.toNat frame healOk = e) :
    exec (.commandAnswer x fin rtt frame healOk) s = .next (s.on e) :=
  exec_awake_eq hs (fun d => d.cmdAnswer x fin rtt.toNat frame healOk) rfl he

theorem Dev.cmdAnswer_off {d : Dev} {x : Bool} (h : d.bit (Reg.SK_CTL (portNo x)) 0 = false) (fin : FrameEnd)
    (rtt : Nat) (frame : List Byte) (healOk : Bool) : d.cmdAnswer x fin rtt frame healOk = d := if_pos h

theorem Dev.cmdAnswer_cut {d : Dev} {x : Bool} {fin : FrameEnd} (hon : d.bit (Reg.SK_CTL (portNo x)) 0 = true)
    (hgood : fin ≠ .good) (hcrc : fin ≠ .badCrc) (rtt : Nat) (frame : List Byte) (healOk : Bool) :
    d.cmdAnswer x fin rtt frame healOk = (d.portFrame x).frameEnd x fin := by
  unfold Dev.cmdAnswer
  rw [if_neg (by simp [hon]), if_pos (by simp [hgood, hcrc])]

/-- The answer to the command of a port is stored, with its CRC error flagged, and the command is done. -/
def Dev.cmdStore (d : Dev) (x : Bool) (a n : Nat) (crcOk : Bool) (frame : List Byte) : Dev :=
  let e := d.agentStore a ((farComplete frame).take n)
  let f := if crcOk then e else e.flag (Reg.SK_CMDSTAT (portNo x)) 2
  (f.setCmd x none).flag (Reg.SK_CMDSTAT (portNo x)) 1

/-- A whole frame answers the command that has left: stored, with the round trip of an ECHO, and a READ to DST 62 ends a
HEAL. -/
theorem Dev.cmdAnswer_whole {d e : Dev} {x : Bool} {fin : FrameEnd} {a n : Nat}
    (hon : d.bit (Reg.SK_CTL (portNo x)) 0 = true) (hfin : fin = .good ∨ fin = .badCrc)
    (he : (d.portFrame x).frameEnd x fin = e) (hcmd : e.cmdOf x = some (a, n, true)) (rtt : Nat) (frame : List Byte)
    (healOk : Bool) : d.cmdAnswer x fin rtt frame healOk =
      (let f := e.cmdStore x a n (decide (fin = .good)) frame
      let g := if decide (fin = .good) && leNat (frame.take 1) = 3 then f.setFld (Reg.SK_RTT (portNo x)) 23 0 rtt else f
      if isRead62 (e.bytes a 8) then g.healDone (decide (fin = .good) && healOk) else g) := by
  subst he
  unfold Dev.cmdAnswer
  rw [if_neg (by simp [hon]), if_neg (by rcases hfin with rfl | rfl <;> decide)]
  simp only [hcmd]
  rfl

theorem Dev.healPass_same {d e : Dev} (he : (d.ringSet 2).fw 0x1012 [] = e)
    (h : e.ringBasic = false ∨ e.trefOf = e.ring.tref) : d.healPass = e := by
  subst he
  exact if_pos (by simpa using h)

theorem Dev.healPass_new {d e : Dev} (he : (d.ringSet 2).fw 0x1012 [] = e) (hb : e.ringBasic = true)
    (h : e.trefOf ≠ e.ring.tref) : d.healPass = { e with ring := { e.ring with trefNew := some e.trefOf } } := by
  subst he
  exact if_neg (by simp [hb, h])

/-- The READ to DST 62 of a HEAL has ended: outside HEAL only its timer stops. -/
theorem Dev.healDone_other {d e : Dev} (he : d.stop Tm.heal = e) (h : e.ringState ≠ 5) (ok : Bool) :
    d.healDone ok = e := by
  subst he
  exact if_neg h

theorem Dev.healDone_fails {d e : Dev} (he : d.stop Tm.heal = e) (h : e.ringState = 5) :
    d.healDone false = e.healFail := by
  subst he
  exact if_pos h

theorem Dev.healDone_proved {d e : Dev} (he : d.stop Tm.heal = e) (h : e.ringState = 5) : d.healDone true =
    if e.ringBasic = true ∧ e.ring.count.getD 0 ≠ 0 then { e with ring := { e.ring with tofWait := some 0 } }
    else e.healPass := by
  subst he
  refine (if_pos h).trans ?_
  simp only [Bool.not_true, Bool.false_eq_true, if_false, Bool.and_eq_true, bne_iff_ne]

/-! ### No answer (R99) -/

theorem exec_commandTimeout_awake {s : State} {x : Bool} {e : Dev} (hs : s.dev.asleep = false)
    (he : s.dev.cmdTimeout x = e) : exec (.commandTimeout x) s = .next (s.on e) :=
  exec_awake_eq hs (fun d => d.cmdTimeout x) rfl he

theorem Dev.cmdTimeout_late {d : Dev} {x : Bool} {a n : Nat} (hcmd : d.cmdOf x = some (a, n, true))
    (hdue : d.due (Tm.cmd x) (usT (d.rd (Reg.SK_CMDTO (portNo x))).toNat) = true) : d.cmdTimeout x =
      (let e := (d.setCmd x none).flag (Reg.SK_CMDSTAT (portNo x)) 3
      if isRead62 (e.bytes a 8) then e.healDone false else e) := by
  simp only [Dev.cmdTimeout, hcmd, hdue, if_true]

theorem Dev.cmdTimeout_none {d : Dev} {x : Bool} (hcmd : d.cmdOf x = none) : d.cmdTimeout x =
    if d.due Tm.heal (usT (d.rd (Reg.SK_CMDTO (portNo x))).toNat) then d.healDone false else d := by
  simp only [Dev.cmdTimeout, hcmd]

/-! ### CLRCNT -/

/-- CLRCNT clears the counters of a port that stays enabled, or is disabled by the same write. -/
theorem Dev.skCtl_clears {d e : Dev} {x : Nat} {v : Word} (hv : bitOf v 5 = true)
    (he : ((d.plainWrite (Reg.SK_CTL x) v).wr (Reg.SK_ERRCNT x) 0).wr (Reg.SK_SLOTERR x) 0 = e) :
    d.skCtl x v = if bitOf v 0 then (if x = 0 then e.healTry else e)
      else (let f := (e.setBit (Reg.SK_STAT x) 0 false).setBit (Reg.SK_STAT x) 1 false
        if x = 0 then f.ringSet 0 else f) := by
  subst he
  unfold Dev.skCtl
  simp only [hv, if_true]

/-! ### The channel map (R107, R108) -/

theorem Dev.chmEntry_disabled {d : Dev} {v : Word} (h : bitOf v 31 = false) (i : Nat) :
    d.chmEntry i v = d.chmStore i v := if_pos h

theorem Dev.chmEntry_range {d : Dev} {i : Nat} {v : Word} (hv : bitOf v 31 = true)
    (h : 47 < fieldOf v 29 24 ∨ chmMaxPos i < fieldOf v 20 16) :
    d.chmEntry i v = (d.flag Reg.CHM_STAT 1).wr Reg.CHM_REFUSED (nw i) := by
  unfold Dev.chmEntry
  dsimp only
  rw [if_neg (by simp [hv]), if_pos (by simpa using h)]

/-- An entry within its range is stored unless another channel is fed from the same place. -/
theorem Dev.chmEntry_placed {d : Dev} {i : Nat} {v : Word} (hv : bitOf v 31 = true) (hk : fieldOf v 29 24 ≤ 47)
    (hpos : fieldOf v 20 16 ≤ chmMaxPos i) : d.chmEntry i v =
      (d.chmFind (chmRange i).1 (chmRange i).2 (fieldOf v 29 24) (fieldOf v 20 16)).elim (d.chmStore i v)
        (fun j => if j = i then d.chmStore i v else (d.flag Reg.CHM_STAT 0).wr Reg.CHM_REFUSED (nw i)) := by
  unfold Dev.chmEntry
  dsimp only
  rw [if_neg (by simp [hv]), if_neg (by simp [Nat.not_lt.2 hk, Nat.not_lt.2 hpos])]
  cases d.chmFind (chmRange i).1 (chmRange i).2 (fieldOf v 29 24) (fieldOf v 20 16) <;> rfl

/-- A write that leaves ENABLE as it is changes the entry alone. -/
theorem Dev.chmStore_same {d : Dev} {i : Nat} {v : Word} (h : d.bit (Reg.CHM_ENT i) 31 = bitOf v 31) :
    d.chmStore i v = d.plainWrite (Reg.CHM_ENT i) v := by
  unfold Dev.chmStore
  rw [h]
  cases bitOf v 31 <;> rfl

/-- Settles O37: SKx_CMDGO, the queued frame, its answer or its timeout, the end of a HEAL, CLRCNT, and the channel
map. -/
theorem ringCommands : Obligations.RingCommands := by
  unfold Obligations.RingCommands
  refine ⟨fun s src x v d hs ht => ?go,
    fun s x a n l c e hs hcmd hl hlane hecho hc he => ?leaves,
    fun s x hs h => exec_commandSend_awake hs (Dev.cmdSend_none h),
    fun s x hs h => exec_commandSend_awake hs (Dev.cmdSend_lane h x),
    fun d => ⟨Dev.cmdState_heal_split, Dev.cmdState_heal_other, rfl, fun c h9 h7 => Dev.cmdState_other h9 h7 d⟩,
    fun s x healOk fin rtt frame hs hoff => exec_commandAnswer_awake hs (Dev.cmdAnswer_off hoff fin _ frame healOk),
    fun s x healOk fin rtt frame hs hon hgood hcrc =>
      exec_commandAnswer_awake hs (Dev.cmdAnswer_cut hon hgood hcrc _ frame healOk),
    fun d x e he => he ▸ ⟨rfl, rfl, rfl, rfl⟩,
    fun s x healOk rtt frame a n d e hs hon hd hcmd hread he => exec_commandAnswer_awake hs ?badCrc,
    fun s x healOk rtt frame a n d e hs hon hd hcmd hread he => ?answered,
    fun s x healOk rtt frame a n d e hs hon hd hcmd hread h3 he => exec_commandAnswer_awake hs ?healed,
    fun d e he => ⟨Dev.healPass_same he, Dev.healPass_new he⟩,
    fun d ok e he => ⟨fun h hok => hok ▸ Dev.healDone_fails he h,
      fun h hok hb hn => hok ▸ (Dev.healDone_proved he h).trans (if_pos ⟨hb, hn⟩),
      fun h hok hno => hok ▸ (Dev.healDone_proved he h).trans (if_neg ?unmeasured),
      fun h => Dev.healDone_other he h ok⟩,
    fun s x a n hs hcmd hdue hread =>
      exec_commandTimeout_awake hs ((Dev.cmdTimeout_late hcmd hdue).trans (if_neg (by simp [hread]))),
    fun s x a n hs hcmd hdue hread =>
      exec_commandTimeout_awake hs ((Dev.cmdTimeout_late hcmd hdue).trans (if_pos hread)),
    fun s x hs hcmd => ⟨fun h => exec_commandTimeout_awake hs ((Dev.cmdTimeout_none hcmd).trans (if_pos h)),
      fun h => exec_commandTimeout_awake hs ((Dev.cmdTimeout_none hcmd).trans (if_neg (by simp [h])))⟩,
    fun s src x v d hs ht => ?clears,
    fun s src i v d j hs ht => ?entry,
    fun d i v h => Dev.chmStore_same h⟩
  case go =>
    refine ⟨fun h => State.lift_gate_eq hs ht (Dev.cmdGo_busy h v),
      fun hfree hn => State.lift_gate_eq hs ht (Dev.cmdGo_empty hfree hn),
      fun hfree h0 hlen hbuf => State.lift_gate_eq hs ht
        ((Dev.cmdGo_badLen hfree rfl h0 hlen).trans (if_neg (by simp [hbuf]))),
      fun hfree h0 hlen hbuf => State.lift_gate_eq hs ht ((Dev.cmdGo_badLen hfree rfl h0 hlen).trans (if_pos hbuf)),
      fun hfree hlo hhi hbuf => State.lift_gate_eq hs ht (Dev.cmdGo_badBuf hfree rfl hlo hhi hbuf), ?_, ?_⟩ <;>
    · rintro hfree rfl hlo hhi hbuf
      exact State.lift_gate_eq hs ht (Dev.cmdGo_queues hfree rfl hlo hhi hbuf)
  case leaves =>
    subst he
    have hsend := Dev.cmdSend_leaves hcmd hl hlane hecho hc
    exact ⟨fun h => exec_commandSend_awake hs (hsend.trans (if_pos h)),
      fun h => exec_commandSend_awake hs (hsend.trans (if_neg h))⟩
  case badCrc =>
    subst he
    refine (Dev.cmdAnswer_whole hon (.inr rfl) hd hcmd _ frame healOk).trans ?_
    simp only [hread]
    rfl
  case answered =>
    subst he
    have hwhole := Dev.cmdAnswer_whole hon (.inl rfl) hd hcmd rtt.toNat frame healOk
    refine ⟨fun h3 => exec_commandAnswer_awake hs (hwhole.trans ?_),
      fun h3 => exec_commandAnswer_awake hs (hwhole.trans ?_)⟩ <;>
    · simp only [hread, h3]
      rfl
  case healed =>
    subst he
    refine (Dev.cmdAnswer_whole hon (.inl rfl) hd hcmd _ frame healOk).trans ?_
    simp only [hread, h3]
    rfl
  case unmeasured =>
    rintro ⟨hb, hn⟩
    rcases hno with h | h
    · simp [hb] at h
    · exact hn h
  case clears =>
    have hclear : bitOf (withBit v 5 true) 5 = true := by rw [bitOf_withBit v (by decide), if_pos rfl]
    refine ⟨?_, ?_, ?_, ?_⟩ <;> rintro hon rfl
    iterate 2 exact State.lift_gate_eq hs ht ((Dev.skCtl_clears hclear rfl).trans (if_pos hon))
    iterate 2 exact State.lift_gate_eq hs ht ((Dev.skCtl_clears hclear rfl).trans (if_neg (by simp [hon])))
  case entry =>
    refine ⟨fun h => State.lift_gate_eq hs ht (congrArg Dev.chmCount (Dev.chmEntry_disabled h _)),
      fun hv h => State.lift_gate_eq hs ht (congrArg Dev.chmCount (Dev.chmEntry_range hv h)),
      fun hv hk hpos hfind =>
        State.lift_gate_eq hs ht (congrArg Dev.chmCount ((Dev.chmEntry_placed hv hk hpos).trans ?_)),
      fun hv hk hpos hfind hj =>
        State.lift_gate_eq hs ht (congrArg Dev.chmCount ((Dev.chmEntry_placed hv hk hpos).trans ?_))⟩
    · rw [hfind]; rfl
    · rw [hfind]; exact if_neg hj

end Sys2Proof.Machine
end

section
/-! SUPPORT. The sweep: its collect, its slots, its deadline and publication, temperature reads and open-wire passes. -/

namespace Sys2Proof.Machine

/-! ### The collect (R105, R122) -/

theorem Dev.collectLaunch_none {d : Dev} (h : d.swp.cur = none) : d.collectLaunch = d := by
  simp only [Dev.collectLaunch, h]

/-- The tail frames of a collect, one for each laggard. -/
def Dev.tailFrames (d e : Dev) (n : Nat) : Dev :=
  (d.tailSlots n).foldl (fun (d : Dev) n => d.collect n.1 1 false [n]) e

theorem Dev.collectLaunch_due {d e : Dev} {w : Sweep} (hw : d.swp.cur = some w) (hnew : w.launched = false)
    (hn : d.noNodes w.desc = false) (hdue : w.issue + d.launchT w.desc + usT w.stretch ≤ d.now)
    (he : { d with swp := { d.swp with cur := some { w with launched := true } } } = e) : d.collectLaunch =
      e.tailFrames (if e.mainSlots w.desc = [] then e else e.collect 63 1 false (e.mainSlots w.desc)) w.desc := by
  subst he
  unfold Dev.collectLaunch
  simp only [hw]
  rw [if_neg (by simp [hnew, hn, Nat.not_lt.2 hdue])]
  simp only [List.isEmpty_iff]
  rfl

/-! ### Slots (R82, R83, R114) -/

theorem exec_slotReceive_awake {s : State} {x : Bool} {arg : Byte} {node : BitVec 6} {seq : BitVec 16}
    {flags turn : Byte} {data : List Byte} {crcOk : Bool} {fin : FrameEnd} {e : Dev} (hs : s.dev.asleep = false)
    (he : s.dev.slotReceive x arg.toNat node.toNat seq.toNat flags.toNat turn.toNat data crcOk fin = e) :
    exec (.slotReceive x arg node seq flags turn data crcOk fin) s = .next (s.on e) :=
  exec_awake_eq hs
    (fun d => d.slotReceive x arg.toNat node.toNat seq.toNat flags.toNat turn.toNat data crcOk fin) rfl he

theorem Dev.slotReceive_off {d : Dev} {x : Bool} (h : d.bit (Reg.SK_CTL (portNo x)) 0 = false)
    (arg node seq flags turn : Nat) (data : List Byte) (crcOk : Bool) (fin : FrameEnd) :
    d.slotReceive x arg node seq flags turn data crcOk fin = d := if_pos h

/-- At the end of its frame the SEGMENT of the slots taken leaves. -/
def Dev.slotFrameEnd (d : Dev) (fin : FrameEnd) : Dev := if fin = .more then d else d.segmentSend

theorem Dev.slotReceive_on {d : Dev} {x : Bool} (hon : d.bit (Reg.SK_CTL (portNo x)) 0 = true)
    (arg node seq flags turn : Nat) (data : List Byte) (crcOk : Bool) (fin : FrameEnd) :
    d.slotReceive x arg node seq flags turn data crcOk fin =
      (let e := (d.portFrame x).frameEnd x fin
      if crcOk = false then (e.flag (Reg.SK_STAT (portNo x)) 7).satInc (Reg.SK_SLOTERR (portNo x)) 15 0
      else if seq = 0xFFFF || 47 < node then e
      else e.slotTake x arg node seq flags turn data).slotFrameEnd fin :=
  if_neg (by simp [hon])

theorem Dev.slotReceive_dropped {d : Dev} {x : Bool} {seq node : Nat} (hon : d.bit (Reg.SK_CTL (portNo x)) 0 = true)
    (h : seq = 0xFFFF ∨ 47 < node) (arg flags turn : Nat) (data : List Byte) (fin : FrameEnd) :
    d.slotReceive x arg node seq flags turn data true fin = ((d.portFrame x).frameEnd x fin).slotFrameEnd fin := by
  have hdrop : (decide (seq = 0xFFFF) || decide (47 < node)) = true := by simpa using h
  rw [Dev.slotReceive_on hon]
  simp only [hdrop, Bool.true_eq_false, if_false, if_true]

theorem Dev.slotReceive_taken {d : Dev} {x : Bool} {seq node : Nat} (hon : d.bit (Reg.SK_CTL (portNo x)) 0 = true)
    (hseq : seq ≠ 0xFFFF) (hnode : node ≤ 47) (arg flags turn : Nat) (data : List Byte) (fin : FrameEnd) :
    d.slotReceive x arg node seq flags turn data true fin =
      (((d.portFrame x).frameEnd x fin).slotTake x arg node seq flags turn data).slotFrameEnd fin := by
  have htake : (decide (seq = 0xFFFF) || decide (47 < node)) = false := by simp [hseq, Nat.not_lt.2 hnode]
  rw [Dev.slotReceive_on hon]
  simp only [htake, Bool.true_eq_false, Bool.false_eq_true, if_false]

section
variable {d e : Dev} {arg node seq flags q : Nat} (he : (d.seqAdopt arg seq).slotWdt node (flags.testBit 5) = e)
  (hq : e.ring.seq = some q)
include he hq

theorem Dev.slotTake_late (harg : arg.testBit 5 = true) (hr : e.inRecovery = false) (x : Bool) (turn : Nat)
    (data : List Byte) : d.slotTake x arg node seq flags turn data = e := by
  subst he
  simp only [Dev.slotTake, hq]
  exact if_pos (by simp [harg, hr])

/-- A slot whose SEQ is neither the sweep's nor the one before is noted alone. -/
theorem Dev.slotTake_order (h : arg.testBit 5 = false ∨ e.inRecovery = true) (hcur : seq ≠ q)
    (hold : seq ≠ seqBelow q) (x : Bool) (turn : Nat) (data : List Byte) : d.slotTake x arg node seq flags turn data =
      ((e.slotGot arg node).flag Reg.SWP_STAT 2).hw 0x1054 [nw node, nw seq] := by
  subst he
  simp only [Dev.slotTake, hq]
  rw [if_neg (by rcases h with h | h <;> simp [h]), if_pos (by simp [hcur, hold])]
  rfl

/-- A slot in order: its voltages, its temperatures and auxiliary values, the segment, and the comparators. -/
theorem Dev.slotTake_values (h : arg.testBit 5 = false ∨ e.inRecovery = true) (hseq : seq = q ∨ seq = seqBelow q)
    (x : Bool) (turn : Nat) (data : List Byte) : d.slotTake x arg node seq flags turn data =
      (let y : SlotIn := { node := node, far := e.farEnd x, flags := flags, cur := decide (seq = q) }
      let nv := if arg.testBit 0 then e.nodeNV node else 0
      let f := if arg.testBit 0 then e.slotVolts y seq turn (signedParts 3 nv data) else (e, [])
      let g := f.1.slotSub y arg (data.drop (3 * nv))
      (g.1.segmentAdd arg node seq flags turn data).compareWords (f.2 ++ g.2) q) := by
  subst he
  simp only [Dev.slotTake, hq]
  rw [if_neg (by rcases h with h | h <;> simp [h]), if_neg (by rcases hseq with h | h <;> simp [h])]

end

theorem Dev.segmentSend_none {d : Dev} (h : d.swp.seg = [] ∨ d.pairUp = false) : d.segmentSend = d :=
  if_pos (by simpa using h)

theorem Dev.segmentSend_sends {d : Dev} (hseg : d.swp.seg ≠ []) (hup : d.pairUp = true) : d.segmentSend =
    (let e := d.send .twin 0x07
      (byteNats (leBytes 2 (d.ring.seq.getD 0) ++ leBytes 1 d.swp.segArg ++ [0] ++ d.swp.seg))
    { e with swp := { e.swp with seg := [] } }) :=
  if_neg (by simp [hseg, hup])

/-! ### The deadline (R93, R105, R116) -/

theorem exec_sweepDeadline_awake {s : State} {t : Option (BitVec 24)} {e : Dev} (hs : s.dev.asleep = false)
    (he : s.dev.sweepDeadline (t.map (fun t => t.toNat)) = e) : exec (.sweepDeadline t) s = .next (s.on e) := by
  have hexec : exec (.sweepDeadline t) s = s.lift (fun d => d.sweepDeadline (t.map (fun t => t.toNat))) := rfl
  rw [hexec, State.lift_awake_eq hs he]

theorem Dev.sweepDeadline_none {d : Dev} (h : d.swp.cur = none) (t : Option Nat) : d.sweepDeadline t = d := by
  simp only [Dev.sweepDeadline, h]

/-- Recovery reads of the nodes `l` that are missing from a sweep; a shade sends them on the cue alone. -/
def Dev.recoveryReads (d : Dev) (w : Sweep) (l : List Nat) : Dev :=
  let g := Dev.cue { d with swp := { d.swp with cur := some { w with recovering := true } } } 9 w.seq
  if g.role = 2 then g else g.collect 63 0x21 true (l.map (fun k => (k, 3 * g.nodeNV k)))

/-- A sweep whose deadline has come, with the nodes `l` missing: these break the ring, and in BROKEN they are read
again. -/
def Dev.sweepClose (d : Dev) (w : Sweep) (l : List Nat) : Dev :=
  let f := if l.isEmpty then d else (d.flag Reg.SWP_STAT 7).ringBreak
  if f.ringState = 3 && !l.isEmpty then f.recoveryReads w l else f.segmentSend.publish w

theorem Dev.sweepDeadline_due {d e : Dev} {w : Sweep} {t : Option Nat} {l : List Nat} (hw : d.swp.cur = some w)
    (hopen : w.recovering = false) (hdue : d.deadlineAt w ≤ d.now) (he : d.noteTransit t = e)
    (hl : (e.descNodes w.desc).filter (fun k => !w.got.contains k) = l) : d.sweepDeadline t = e.sweepClose w l := by
  subst he hl
  unfold Dev.sweepDeadline
  simp only [hw]
  exact if_neg (by simp [hopen, Nat.not_lt.2 hdue])

theorem Dev.sweepClose_complete {l : List Nat} (h : l = []) (d : Dev) (w : Sweep) :
    d.sweepClose w l = d.segmentSend.publish w := by
  subst h
  exact if_neg (by simp)

theorem Dev.sweepClose_missing {l : List Nat} (h : l ≠ []) (d : Dev) (w : Sweep) : d.sweepClose w l =
    (let f := (d.flag Reg.SWP_STAT 7).ringBreak
    if f.ringState = 3 then f.recoveryReads w l else f.segmentSend.publish w) := by
  have hne : l.isEmpty = false := by simpa using h
  simp only [Dev.sweepClose, hne, Bool.false_eq_true, if_false, Bool.not_false, Bool.and_true, decide_eq_true_eq]

/-- The sweep whose reads are complete is published. -/
def Dev.recoveryEnd (d : Dev) : Dev :=
  match d.swp.cur with
  | some w => if w.recovering then d.publish w else d.sweepDeadline none
  | none => d

theorem exec_publication_awake {s : State} {e : Dev} (hs : s.dev.asleep = false) (he : s.dev.recoveryEnd = e) :
    exec .publication s = .next (s.on e) :=
  exec_awake_eq hs Dev.recoveryEnd rfl he

theorem Dev.recoveryEnd_publishes {d : Dev} {w : Sweep} (hw : d.swp.cur = some w) (h : w.recovering = true) :
    d.recoveryEnd = d.publish w := by
  simp only [Dev.recoveryEnd, hw, h, if_true]

theorem Dev.recoveryEnd_none {d : Dev} (h : d.swp.cur = none) : d.recoveryEnd = d := by
  simp only [Dev.recoveryEnd, h]

/-- A publication clears the open sweep and shows itself in SWP_LAST and SWP_COUNT. -/
theorem Dev.rd_sweepDone {d : Dev} (h : d.Canon) (w : Sweep) (b : Nat) (v : Int) (a : Nat) (ha : a ≠ Reg.SWP_STAT) :
    (d.sweepDone w b v).rd a = ((d.wr Reg.SWP_LAST (nw (w.seq * 65536 + b))).incWrap Reg.SWP_COUNT).rd a :=
  Dev.rd_wr_other (Dev.wr_canon _ _ (Dev.wr_canon _ _ h)) ha _

theorem Dev.rd_sweepDone_last {d : Dev} (h : d.Canon) (w : Sweep) (b : Nat) (v : Int) :
    (d.sweepDone w b v).rd Reg.SWP_LAST = nw (w.seq * 65536 + b) := by
  rw [Dev.rd_sweepDone h w b v _ (by decide), Dev.incWrap, Dev.rd_wr_other (Dev.wr_canon _ _ h) (by decide),
    Dev.rd_wr_same h]

theorem Dev.rd_sweepDone_count {d : Dev} (h : d.Canon) (w : Sweep) (b : Nat) (v : Int) :
    (d.sweepDone w b v).rd Reg.SWP_COUNT = d.rd Reg.SWP_COUNT + 1 := by
  rw [Dev.rd_sweepDone h w b v _ (by decide), Dev.incWrap, Dev.rd_wr_same (Dev.wr_canon _ _ h),
    Dev.rd_wr_other h (by decide)]

theorem Dev.wordOf_unmapped {d : Dev} {i : Nat} (h : d.bit (Reg.CHM_ENT i) 31 = false) :
    d.wordOf i = sweepWordOf 0 15 7 := if_neg (by simp [h])

theorem Dev.wordOf_invalid {d : Dev} {i : Nat} (h : d.bit (Reg.CHM_ENT i) 31 = true)
    (hq : d.quality i (d.chan i) = 7) : d.wordOf i = sweepWordOf 0 15 7 := (if_pos h).trans (if_pos hq)

theorem Dev.wordOf_value {d : Dev} {i : Nat} (h : d.bit (Reg.CHM_ENT i) 31 = true)
    (hq : d.quality i (d.chan i) ≠ 7) :
    d.wordOf i = sweepWordOf (d.chan i).value (d.chan i).age (d.quality i (d.chan i)) := (if_pos h).trans (if_neg hq)

/-! ### Temperature frames (R118) -/

theorem Dev.temperatureRead_waits {d : Dev} (h : d.swp.sub = none ∨ d.swp.cur ≠ none ∨ d.rd Reg.SWP_COUNT = 0) :
    d.temperatureRead = d := by
  unfold Dev.temperatureRead
  split
  · rfl
  · next u hu =>
    split
    · rfl
    · refine if_pos ?_
      rcases h with h | h | h
      · simp [hu] at h
      · simp [Option.isSome_iff_ne_none.2 h]
      · simp [h]

/-- The next frame of an open sub-sweep carries the reads that fit into what remains of TBUDGET. -/
theorem Dev.temperatureRead_next {d : Dev} {u : SubSweep} {g k : Nat} {t : List (Nat × Nat)} {len : Nat → Nat}
    {l : List Nat} (hu : d.swp.sub = some u) (hr : u.reads = (g, k) :: t) (hcur : d.swp.cur = none)
    (hcount : d.rd Reg.SWP_COUNT ≠ 0) (hlen : (fun k => 16 + (if u.aux && g = 0 then 3 * d.nodeNA k else 0)) = len)
    (hl : d.packReads len g u.reads [] (d.swp.budget - max d.swp.budgetUsed (d.now - d.swp.budgetAt)) = l) :
    d.temperatureRead = if l = [] then d else
      (let c := d.collect 63 (4 + 8 * g + (if u.aux && g = 0 then 2 else 0)) false (l.map (fun k => (k, len k)))
      { c with swp := { c.swp with
          sub := some { u with reads := u.reads.drop l.length, till := c.ring.busyTill + c.tRing }
          budgetUsed := max d.swp.budgetUsed (d.now - d.swp.budgetAt) +
            symT (d.collectSyms d.ringSplit (l.map (fun k => (k, len k)))) } }) := by
  subst hlen hl
  unfold Dev.temperatureRead
  simp only [hu, hr]
  rw [if_neg (by simpa [hcur] using hcount)]
  simp only [List.isEmpty_iff]

/-! ### Open-wire passes (R124, R125) -/

theorem Dev.owGo_ignored {d : Dev} {v : Word} (h : bitOf v 31 = false ∨ d.bit Reg.SWP_OWSTAT 31 = true) :
    d.owGo v = d :=
  if_pos (by simpa using h)

/-- The pass that GO names, before it begins. -/
def Dev.owArmed (d : Dev) (v : Word) : Dev :=
  let p : WirePass := { node := fieldOf v 5 0, arg := fieldOf v 8 8, phase := 0, base := [], cap := [] }
  Dev.setFld { d with swp := { d.swp with ow := some p } } Reg.SWP_OWSTAT 31 23 (256 + fieldOf v 5 0)

/-- GO starts a pass, which begins at once in a command window. -/
theorem Dev.owGo_starts {d : Dev} {v : Word} (hgo : bitOf v 31 = true) (hrun : d.bit Reg.SWP_OWSTAT 31 = false) :
    d.owGo v = if d.swp.cur = none then (d.owArmed v).owBegin else d.owArmed v := by
  unfold Dev.owGo
  rw [if_neg (by simp [hgo, hrun])]
  simp only [Option.isNone_iff_eq_none]
  rfl

theorem Dev.owEvaluate_waits {d : Dev} {p : WirePass} (hp : d.swp.ow = some p) (h : p.phase ≠ 3) :
    d.owEvaluate = d := by
  simp only [Dev.owEvaluate, hp]
  exact if_pos (bne_iff_ne.2 h)

theorem Dev.owEvaluate_aborts {d : Dev} {p : WirePass} (hp : d.swp.ow = some p) (h : p.phase = 3) (hcap : p.cap = []) :
    d.owEvaluate = d.owAbort := by
  simp [Dev.owEvaluate, hp, h, hcap]

/-- The end of a pass: OWCTL of its node is written 0, and SWP_OWSTAT shows DONE with the open wires. -/
def Dev.owDone (d : Dev) (node : Nat) (opens : List Nat) : Dev :=
  let a := d.frameSend 0x05 node 0x0C [0, 0, 0, 0]
  let b : Dev := { a with swp := { a.swp with ow := none } }
  (((b.setBit Reg.SWP_OWSTAT 31 false).setBit Reg.SWP_OWSTAT 30 true).setFld Reg.SWP_OWSTAT 16 0
    (opens.foldl (fun m w => m + 2 ^ w) 0)).lrnIdle node

theorem Dev.owEvaluate_unjudged {d : Dev} {p : WirePass} (hp : d.swp.ow = some p) (h : p.phase = 3)
    (hcap : p.cap ≠ []) (hth : d.fld Reg.SWP_OWCFG 15 0 = 0) : d.owEvaluate = d.owDone p.node [] := by
  simp only [Dev.owEvaluate, hp]
  rw [if_neg (by simp [h]), if_neg (by simp [hcap])]
  simp only [hth, if_true]
  rfl

/-- With a threshold each selected wire is judged, and its suspect bit follows. -/
theorem Dev.owEvaluate_judges {d : Dev} {p : WirePass} (hp : d.swp.ow = some p) (h : p.phase = 3) (hcap : p.cap ≠ [])
    (hth : d.fld Reg.SWP_OWCFG 15 0 ≠ 0) : d.owEvaluate =
      (let wires := (List.range (p.base.length + 1)).filter (fun w => w % 2 = p.arg)
      let opens := wires.filter (fun w => owOpen p (1000 * d.fld Reg.SWP_OWCFG 15 0) w)
      (wires.foldl (fun (d : Dev) w => d.owSuspect p.node w (opens.contains w)) d).owDone p.node opens) := by
  simp only [Dev.owEvaluate, hp]
  rw [if_neg (by simp [h]), if_neg (by simp [hcap])]
  simp only [if_neg hth]
  rfl

/-! ### CLRCNT (R129) -/

theorem Dev.swpCtl_clears {d : Dev} {v : Word} (h : bitOf v 1 = true) :
    d.swpCtl v = (d.plainWrite Reg.SWP_CTL v).wr Reg.SWP_SKIPCNT 0 := if_pos h

/-- Settles O38: the collect, slots, the deadline and publication, temperature frames, open-wire passes and CLRCNT. -/
theorem sweepCommands : Obligations.SweepCommands := by
  unfold Obligations.SweepCommands
  refine ⟨fun s w e hs hw hnew hn hdue he => ?launch,
    fun s hs h => State.lift_awake_eq hs (Dev.collectLaunch_none h),
    fun s x arg node seq flags turn data crcOk fin hs => ?slot,
    fun d x arg node seq flags turn data e q he hq => ⟨fun harg hr => Dev.slotTake_late he hq harg hr x turn data,
      fun h hcur hold => Dev.slotTake_order he hq h hcur hold x turn data,
      fun h hseq => Dev.slotTake_values he hq h hseq x turn data⟩,
    fun d => ⟨Dev.segmentSend_none, Dev.segmentSend_sends⟩,
    fun s t hs h => exec_sweepDeadline_awake hs (Dev.sweepDeadline_none h _),
    fun s t w e l hs hw hopen hdue he hl => ?deadline,
    fun s w hs hw h => exec_publication_awake hs (Dev.recoveryEnd_publishes hw h),
    fun s hs h => exec_publication_awake hs (Dev.recoveryEnd_none h),
    fun s hs h => State.lift_awake_eq hs (Dev.temperatureRead_waits h),
    fun s u g k t len l c hs hu hr hcur hcount hlen hl hc => ?temperature,
    fun s src v d hs ht => ⟨fun h => State.lift_gate_eq hs ht (Dev.owGo_ignored h),
      fun hgo hrun hcur => State.lift_gate_eq hs ht ((Dev.owGo_starts hgo hrun).trans (if_neg hcur)),
      fun hgo hrun hcur => State.lift_gate_eq hs ht ((Dev.owGo_starts hgo hrun).trans (if_pos hcur))⟩,
    fun s p hs hp => ⟨fun h => State.lift_awake_eq hs (Dev.owEvaluate_waits hp h),
      fun h hcap => State.lift_awake_eq hs (Dev.owEvaluate_aborts hp h hcap),
      fun h hcap hth => State.lift_awake_eq hs (Dev.owEvaluate_unjudged hp h hcap hth),
      fun h hcap hth => State.lift_awake_eq hs (Dev.owEvaluate_judges hp h hcap hth)⟩,
    fun s src v d hs ht => State.lift_gate_eq hs ht (Dev.swpCtl_clears ?clrcnt),
    fun d w b v h => ⟨rfl, rfl, Dev.rd_sweepDone_last h w b v, Dev.rd_sweepDone_count h w b v⟩,
    fun d i => ⟨Dev.wordOf_unmapped, Dev.wordOf_invalid, Dev.wordOf_value⟩⟩
  case launch =>
    have hlaunch := Dev.collectLaunch_due hw hnew hn hdue he
    refine ⟨fun h => State.lift_awake_eq hs (hlaunch.trans ?_), fun h => State.lift_awake_eq hs (hlaunch.trans ?_)⟩
    · rw [if_neg h]; rfl
    · rw [if_pos h]; rfl
  case slot =>
    refine ⟨fun hoff => exec_slotReceive_awake hs (Dev.slotReceive_off hoff _ _ _ _ _ data crcOk fin), ?_, ?_, ?_⟩
    · rintro hon rfl
      exact exec_slotReceive_awake hs (Dev.slotReceive_on hon _ _ _ _ _ data false fin)
    · rintro hon rfl h
      exact exec_slotReceive_awake hs (Dev.slotReceive_dropped hon h _ _ _ data fin)
    · rintro hon rfl hseq hnode
      exact exec_slotReceive_awake hs (Dev.slotReceive_taken hon hseq hnode _ _ _ data fin)
  case deadline =>
    have hclose := Dev.sweepDeadline_due hw hopen hdue he hl
    exact ⟨fun h => exec_sweepDeadline_awake hs (hclose.trans (Dev.sweepClose_complete h e w)),
      fun h hst => exec_sweepDeadline_awake hs (hclose.trans ((Dev.sweepClose_missing h e w).trans (if_neg hst))),
      fun h hst => exec_sweepDeadline_awake hs (hclose.trans ((Dev.sweepClose_missing h e w).trans (if_pos hst)))⟩
  case temperature =>
    subst hc
    have hnext := Dev.temperatureRead_next hu hr hcur hcount hlen hl
    exact ⟨fun h => State.lift_awake_eq hs (hnext.trans (if_pos h)),
      fun h => State.lift_awake_eq hs (hnext.trans (if_neg h))⟩
  case clrcnt => rw [bitOf_withBit v (by decide), if_pos rfl]

end Sys2Proof.Machine
end

section
/-! SUPPORT. The limit table, the sources of Crimson, the clearing of trips and the limit test. -/

namespace Sys2Proof.Machine

/-! ### Entry writes (R147, R148) -/

/-- The four words of entry `i` stand as `x`, and nothing of the entry is staged any more. -/
def Dev.limPut (d : Dev) (i : Nat) (x : Word × Word × Word × Word) : Dev :=
  let e := (((d.wr (Reg.LIM_ENT i 0) x.1).wr (Reg.LIM_ENT i 1) x.2.1).wr (Reg.LIM_ENT i 2) x.2.2.1).wr
    (Reg.LIM_ENT i 3) x.2.2.2
  { e with lim := { e.lim with
      stage := putO (putO (putO e.lim.stage (4 * i + 0) none) (4 * i + 1) none) (4 * i + 2) none } }

/-- The four words that a write of `v` to word 3 asks for: the first three staged or in force. -/
def Dev.limAsked (d : Dev) (i : Nat) (v : Word) : Word × Word × Word × Word :=
  (d.limStaged i 0, d.limStaged i 1 &&& 0xFFFFFF07, d.limStaged i 2, v &&& 0xFFFFFF8F)

/-- The words that the envelope leaves of those asked for. -/
def Dev.limHeld (d : Dev) (i : Nat) (v : Word) : Word × Word × Word × Word :=
  d.envelope i (d.limStaged i 0) (d.limStaged i 1 &&& 0xFFFFFF07) (d.limStaged i 2) (v &&& 0xFFFFFF8F)

theorem Dev.limCommit_unlocked {d : Dev} {i : Nat} (h : d.bit Reg.LIM_CTL 1 = false ∨ 1920 ≤ i) (v : Word) :
    d.limCommit i v = (d.limPut i (d.limAsked i v)).ochreRefresh := by
  have hfree : (d.bit Reg.LIM_CTL 1 && decide (i < 1920)) = false := by
    rw [Bool.and_eq_false_iff, decide_eq_false_iff_not, Nat.not_lt]
    exact h
  simp only [Dev.limCommit, hfree, Bool.false_eq_true, if_false, ne_eq, not_true_eq_false, decide_false]
  rfl

theorem Dev.limCommit_locked {d : Dev} {i : Nat} (hlock : d.bit Reg.LIM_CTL 1 = true) (hi : i < 1920) (v : Word) :
    d.limCommit i v = (let f := d.limPut i (d.limHeld i v)
      if d.limHeld i v = d.limAsked i v then f else (f.flag Reg.LIM_STAT 5).hw 0x2002 [nw i]).ochreRefresh := by
  have hbound : (d.bit Reg.LIM_CTL 1 && decide (i < 1920)) = true := by simp [hlock, hi]
  simp only [Dev.limCommit, hbound, if_true, decide_eq_true_eq, ne_eq, ite_not]
  rfl

theorem Dev.limWrite_stages {w : Nat} (h : w ≠ 3) (d : Dev) (i : Nat) (v : Word) :
    d.limWrite i w v = { d with lim := { d.lim with stage := putO d.lim.stage (4 * i + w) (some v) } } := if_neg h

/-! ### The sweep watchdog and the external trip (R155, R156) -/

theorem Dev.swdExpiry_eq (d : Dev) : d.swdExpiry =
    if d.lim.swdArmed = true ∧ d.fld Reg.LIM_SWDTO 23 0 ≠ 0 ∧ d.due Tm.swd (usT (d.fld Reg.LIM_SWDTO 23 0)) = true
    then d.crim 9 else d := by
  simp only [Dev.swdExpiry, Bool.and_eq_true, bne_iff_ne, and_assoc]

/-- The TRIP_N line as other devices hold it. -/
def Dev.tripLine (d : Dev) (low : Bool) : Dev := { d with pins := { d.pins with tripHigh := !low } }

theorem exec_externalTrip_awake {s : State} (hs : s.dev.asleep = false) (low : Bool) : exec (.externalTrip low) s =
    .next (s.on (if low = true ∧ s.dev.act 0 = false then (s.dev.tripLine low).crim 12 else s.dev.tripLine low)) := by
  refine exec_awake_eq hs (fun d => if low && d.act 0 = false then (d.tripLine low).crim 12 else d.tripLine low) rfl ?_
  simp only [Bool.and_eq_true, decide_eq_true_eq]

/-! ### Clearing (R159, R160) -/

theorem Dev.clearClass_clear {d : Dev} {c : Nat} (h : d.bit Reg.LIM_CRIM c = false) : d.clearClass c = d := if_pos h

theorem Dev.clearClass_latched {d e : Dev} {c : Nat} {left : Bool} (h : d.bit Reg.LIM_CRIM c = true)
    (hc : d.crimCauses c = (e, left)) : d.clearClass c = if left = true then (e.flag Reg.LIM_STAT 4).hw 0x2130 [nw c]
      else (e.setBit Reg.LIM_CRIM c false).hw (0x2120 + c) [nw c] := by
  simp only [Dev.clearClass, h, hc, Bool.true_eq_false, if_false]

/-! ### The limit test (R165) -/

theorem Dev.limTest_ignored {d : Dev} {v : Word} (h : bitOf v 31 = false) (bad : BitVec 4) : d.limTest v bad = d :=
  if_pos h

theorem Dev.limTest_passes {d : Dev} {v : Word} {bad : BitVec 4} (hgo : bitOf v 31 = true)
    (h : bad.toNat &&& ((d.limW (fieldOf v 10 0) 3).toNat % 16) = 0) :
    d.limTest v bad = d.wr Reg.LIM_TESTSTAT 0x40000000 := by
  simp only [Dev.limTest, hgo, h, Bool.true_eq_false, if_false, if_true]

/-- A failed test, which firmware that manages LIM answers with Crimson of class 13. -/
theorem Dev.limTest_fails {d e : Dev} {v : Word} {bad : BitVec 4} {f : Nat} (hgo : bitOf v 31 = true)
    (hf : bad.toNat &&& ((d.limW (fieldOf v 10 0) 3).toNat % 16) = f) (h : f ≠ 0)
    (he : ((d.wr Reg.LIM_TESTSTAT (nw (0x20000000 + f))).flag Reg.LIM_STAT 6).hw 0x2003
      [nw (fieldOf v 10 0), nw f] = e) :
    d.limTest v bad = if e.manages 10 = true then e.crim 13 else e := by
  simp only [Dev.limTest, hgo, hf, h, he, Bool.true_eq_false, if_false]
  cases e.manages 10 <;> rfl

/-- Settles O39: the writes of limit entries, the sweep watchdog, the external and the requested trip, the clearing of
classes, the limit test and the lock. -/
theorem protectionCommands : Obligations.ProtectionCommands := by
  unfold Obligations.ProtectionCommands
  refine ⟨fun s src i w v d hs ht => ⟨fun hw => ?stages, fun hw => ?commits⟩,
    fun s src i v d hs ht h => State.lift_gate_eq hs ht (Dev.limCommit_unlocked h v),
    fun s src i v d hs ht hlock hi => State.lift_gate_eq hs ht (Dev.limCommit_locked hlock hi v),
    fun s hs harmed hto hdue => State.lift_awake_eq hs (s.dev.swdExpiry_eq.trans (if_pos ⟨harmed, hto, hdue⟩)),
    fun s hs h => State.lift_awake_eq hs (s.dev.swdExpiry_eq.trans (if_neg h)),
    fun s low hs => ?externalTrip,
    fun d c e left h hc => ⟨fun hl => (Dev.clearClass_latched h hc).trans (if_pos hl),
      fun hl => (Dev.clearClass_latched h hc).trans (if_neg (by simp [hl]))⟩,
    fun d c h => Dev.clearClass_clear h,
    fun s src v d e hs ht he => ?clears,
    fun s src v d hs ht => State.lift_gate hs ht _,
    fun s src o d hs ht => ?ochre,
    fun s src v bad d hs ht => ⟨fun h => State.lift_gate_eq hs ht (Dev.limTest_ignored h bad),
      fun hgo h => State.lift_gate_eq hs ht (Dev.limTest_passes hgo h)⟩,
    fun s src v bad d e f hs ht hgo hf h he =>
      ⟨fun hm => State.lift_gate_eq hs ht ((Dev.limTest_fails hgo hf h he).trans (if_pos hm)),
      fun hm => State.lift_gate_eq hs ht ((Dev.limTest_fails hgo hf h he).trans (if_neg (by simp [hm])))⟩,
    fun s src v d hs ht => State.lift_gate hs ht _⟩
  case stages => exact State.lift_gate_eq hs ht (Dev.limWrite_stages (fun h => hw (BitVec.eq_of_toNat_eq h)) d _ v)
  case commits =>
    subst hw
    exact State.lift_gate_eq hs ht rfl
  case externalTrip =>
    have htrip := exec_externalTrip_awake hs low
    refine ⟨?_, ?_, ?_⟩
    · rintro rfl hact
      exact htrip.trans (by rw [if_pos ⟨rfl, hact⟩]; rfl)
    · rintro rfl hact
      exact htrip.trans (by rw [if_neg (by simp [hact])]; rfl)
    · rintro rfl
      exact htrip.trans (by rw [if_neg (by simp)]; rfl)
  case clears =>
    subst he
    exact State.lift_gate_eq hs ht rfl
  case ochre =>
    have hoch : bitOf (nw (b2n o)) 0 = o := by cases o <;> rfl
    have hcrim : bitOf (nw (b2n o)) 1 = false := by cases o <;> rfl
    exact State.lift_gate_eq hs ht (by simp only [Dev.swTrip, hoch, hcrim, Bool.false_eq_true, if_false])

end Sys2Proof.Machine
end

section
/-! SUPPORT. Safe contactor control: its commands, timers, feedback and diagnostics. -/

namespace Sys2Proof.Machine

/-! ### Commands (R166) -/

theorem Dev.closeOk_iff (d : Dev) : d.closeOk false = true ↔ (d.sccState = 0 ∧ d.bit Reg.SVC_STAT 3 = false ∧
    d.bit Reg.SCC_CTL 0 = true ∧ d.bit Reg.LIM_CTL 0 = true ∧ d.bit Reg.LIM_STAT 1 = false ∧ d.crimOpens = false ∧
    d.lim.swdArmed = true ∧ d.fbOpen = true ∧ d.leads = true) := by
  simp only [Dev.closeOk, Bool.and_eq_true, Bool.or_eq_true, Bool.not_eq_true', decide_eq_true_eq, Bool.and_false,
    Bool.false_eq_true, or_false, and_assoc]

theorem Dev.sccClose_refused {d : Dev} {cue : Bool} (h : d.closeOk cue = false) : d.sccClose cue = d.hw 0x2210 [] :=
  if_neg (by simp [h])

/-- An accepted close starts the precharge, or closes both contactors for a PCTIME of zero. -/
def Dev.closeBegin (d : Dev) : Dev :=
  if d.fld Reg.SCC_PCCFG 31 16 = 0 then d.k2On.k1On.sccSet 2 else d.k2On.sccSet 1

theorem Dev.sccClose_accepted {d : Dev} {cue : Bool} (h : d.closeOk cue = true) :
    d.sccClose cue = if d.closeBegin.openHeld = true then d.closeBegin.openReq else d.closeBegin := if_pos h

theorem Dev.sccCmdWrite_refused {d : Dev} (h : d.closeOk false = false) : d.sccCmdWrite 1 = d.hw 0x2210 [] := by
  have hcue : (if d.closeOk false then d.cue 7 1 else d) = d := if_neg (by simp [h])
  have hclose : d.sccCmdWrite 1 = Dev.sccClose (if d.closeOk false then d.cue 7 1 else d) false := rfl
  rw [hclose, hcue, Dev.sccClose_refused h]

/-- A close that is accepted before and after its cue is sent. -/
theorem Dev.sccCmdWrite_accepted {d e : Dev} (h : d.closeOk false = true) (he : (d.cue 7 1).closeOk false = true)
    (hb : (d.cue 7 1).closeBegin = e) : d.sccCmdWrite 1 = if e.openHeld = true then e.openReq else e := by
  have hcue : (if d.closeOk false then d.cue 7 1 else d) = d.cue 7 1 := if_pos h
  have hclose : d.sccCmdWrite 1 = Dev.sccClose (if d.closeOk false then d.cue 7 1 else d) false := rfl
  rw [hclose, hcue, Dev.sccClose_accepted he, hb]

theorem Dev.sccAck_eq (d : Dev) : d.sccAck =
    if d.sccState = 5 ∧ d.fld Reg.SCC_DIAG 8 0 &&& sccFaultBits = 0 ∧ d.fbOpen = true then
      (d.sccSet 0).srcCond 11 false
    else d := by
  simp only [Dev.sccAck, Bool.and_eq_true, decide_eq_true_eq, and_assoc]

/-! ### Timers and feedback (R166 to R168, R171, R172) -/

theorem Dev.brkExpiry_eq (d : Dev) : d.brkExpiry = if d.due Tm.brk (usT (d.fld Reg.SCC_BRKDLY 15 0)) = true then
    ((d.stop Tm.brk).setBit Reg.SCC_STAT 7 false).openReq else d := rfl

theorem exec_pickupExpiry_awake {s : State} {k2 : Bool} {e : Dev} (hs : s.dev.asleep = false)
    (he : s.dev.pickExpiry k2 = e) : exec (.pickupExpiry k2) s = .next (s.on e) :=
  exec_awake_eq hs (fun d => d.pickExpiry k2) rfl he

/-- The timer of a channel's PICKUP. -/
def pickTm (k2 : Bool) : Nat := if k2 then Tm.pick2 else Tm.pick1

/-- A channel at full duty goes to hold duty. -/
def Coil.held (c : Coil) : Coil := if c = Coil.full then Coil.hold else c

/-- A channel of SCC goes from full to hold duty. -/
def Dev.coilHold (d : Dev) (k2 : Bool) : Dev :=
  if k2 then { d with scc := { d.scc with k2 := d.scc.k2.held } }
  else { d with scc := { d.scc with k1 := d.scc.k1.held } }

theorem Dev.pickExpiry_early {d : Dev} {k2 : Bool} (h : d.due (pickTm k2) (d.sccMs 31 24) = false) :
    d.pickExpiry k2 = d :=
  if_neg (by rw [pickTm] at h; simp [h])

theorem Dev.pickExpiry_due {d : Dev} {k2 : Bool} (h : d.due (pickTm k2) (d.sccMs 31 24) = true) :
    d.pickExpiry k2 = if (d.stop (pickTm k2)).fld Reg.SCC_ECON 7 0 = 0 then d.stop (pickTm k2)
      else (d.stop (pickTm k2)).coilHold k2 := if_pos h

theorem Dev.prechargeDone_eq (d : Dev) : d.prechargeDone =
    if d.sccState = 1 ∧ d.due Tm.scc (d.sccMs 31 24) = true ∧ d.prechargeMet = true then d.k1On.sccSet 2 else d := by
  simp only [Dev.prechargeDone, Bool.and_eq_true, decide_eq_true_eq, and_assoc]

theorem Dev.prechargeTimeout_due {d : Dev} (hst : d.sccState = 1)
    (hdue : d.due Tm.scc (msT (d.fld Reg.SCC_PCCFG 31 16)) = true) : d.prechargeTimeout =
      if d.fld Reg.SCC_PCCFG 15 8 = 0 then d.k1On.sccSet 2 else (d.k2Off.sccSet 0).sccNote 8 :=
  if_pos (by simp [hst, hdue])

theorem Dev.closeConfirm_eq (d : Dev) : d.closeConfirm =
    if d.sccState = 2 ∧ d.bit Reg.SCC_STAT 0 = true ∧ d.bit Reg.SCC_STAT 1 = false then
      (let e := d.k2Off.sccSet 3
      ({ e with scc := { e.scc with record := false } } : Dev).srcOchre 11 false)
    else d := by
  simp only [Dev.closeConfirm, Bool.and_eq_true, Bool.not_eq_true', decide_eq_true_eq, and_assoc]

theorem Dev.closeTimeout_eq (d : Dev) : d.closeTimeout =
    if d.sccState = 2 ∧ d.due Tm.scc (d.sccMs 15 8) = true then (d.sccNote 6).openReq else d := by
  simp only [Dev.closeTimeout, Bool.and_eq_true, decide_eq_true_eq]

theorem Dev.openConfirm_eq (d : Dev) : d.openConfirm =
    if d.sccState = 4 ∧ d.fbOpen = true then d.dropMeasure.sccSet 0 else d := by
  simp only [Dev.openConfirm, Bool.and_eq_true, decide_eq_true_eq]

theorem Dev.dropTimeout_eq (d : Dev) : d.dropTimeout =
    if (d.sccState = 4 ∨ (d.sccState = 5 ∧ d.scc.openCur.isSome = true ∧ d.bit Reg.SCC_DIAG 7 = false)) ∧
      d.due d.dropTm (d.sccMs 23 16) = true ∧
      (d.paired = false ∨ d.bit Reg.SCC_STAT 0 = false ∨ d.scc.secondDrop = true)
    then d.dropMeasure.mirrorEnd.sccFail 7 else d := by
  simp only [Dev.dropTimeout, Bool.and_eq_true, Bool.or_eq_true, Bool.not_eq_true', Bool.and_eq_false_iff,
    Bool.not_eq_false', decide_eq_true_eq, and_assoc, or_assoc]

theorem Dev.killAssert_eq (d : Dev) : d.killAssert =
    if d.paired = true ∧ (d.sccState = 4 ∨ d.sccState = 5) ∧ d.scc.k1 = .off ∧ d.scc.k2 = .off ∧
      d.bit Reg.SCC_STAT 0 = true ∧ d.due d.dropTm (d.sccMs 23 16) = true ∧ d.scc.secondDrop = false
    then (let e := (d.setKillOut true).hw 0x2212 []
      ({ e with scc := { e.scc with secondDrop := true } } : Dev).start Tm.scc)
    else d := by
  simp only [Dev.killAssert, Bool.and_eq_true, Bool.or_eq_true, Bool.not_eq_true', decide_eq_true_eq, and_assoc]

/-- A module that stands alone, sees FB1 open or has asserted it once asserts no KILL_OUT (R172). -/
theorem Dev.killAssert_none {d : Dev}
    (h : d.paired = false ∨ d.bit Reg.SCC_STAT 0 = false ∨ d.scc.secondDrop = true) : d.killAssert = d := by
  rw [Dev.killAssert_eq]
  refine if_neg ?_
  rintro ⟨hp, -, -, -, hfb, -, hdrop⟩
  simp [hp, hfb, hdrop] at h

theorem Dev.dropTm_fault {d : Dev} (hst : d.sccState = 5) (h : d.scc.secondDrop = false) : d.dropTm = Tm.drop1 :=
  if_pos (by simp [hst, h])

theorem Dev.dropTm_other {d : Dev} (h : d.sccState ≠ 5 ∨ d.scc.secondDrop = true) : d.dropTm = Tm.scc :=
  if_neg (by rcases h with h | h <;> simp [h])

/-! ### Switch tests (R170) -/

/-- The readback of a switch among the bits of `rb`. -/
def readback (rb : BitVec 6) (k2 high : Bool) : Bool := rb.getLsbD (2 * b2n k2 + b2n (!high))

/-- The drive of a channel's high-side switch, which in hold is that of the chopper. -/
def Coil.highDriven (c : Coil) (chop : Bool) : Bool :=
  match c with
  | .off => false
  | .full => true
  | .hold => chop

/-- A readback of a channel driven as `c` does not follow its switch. -/
def Coil.misread (c : Coil) (rb : BitVec 6) (k2 : Bool) : Bool :=
  readback rb k2 false != (c != .off) || readback rb k2 true != c.highDriven (rb.getLsbD (4 + b2n k2))

theorem Coil.misread_eq_false {c : Coil} {rb : BitVec 6} {k2 : Bool} : c.misread rb k2 = false ↔
    readback rb k2 true = c.highDriven (rb.getLsbD (4 + b2n k2)) ∧ readback rb k2 false = (c != .off) := by
  simp only [Coil.misread, Bool.or_eq_false_iff, bne_eq_false_iff_eq, and_comm]

/-- Starting a timer leaves the fields of the registers. -/
theorem Dev.fld_start (d : Dev) (t a hi lo : Nat) : (d.start t).fld a hi lo = d.fld a hi lo := rfl

theorem exec_switchTest_awake {s : State} {pulse : Option (Bool × Bool)} {rb : BitVec 6} {e : Dev}
    (hs : s.dev.asleep = false) (he : s.dev.switchTest pulse rb = e) :
    exec (.switchTest pulse rb) s = .next (s.on e) :=
  exec_awake_eq hs (fun d => d.switchTest pulse rb) rfl he

theorem Dev.switchTest_off {d : Dev} (h : d.scc.diagOff = true) (pulse : Option (Bool × Bool)) (rb : BitVec 6) :
    d.switchTest pulse rb = d := if_pos h

section
variable {d : Dev} (hon : d.scc.diagOff = false)
include hon

theorem Dev.switchTest_early {k2 high : Bool} (h : d.swDue k2 high = false) (rb : BitVec 6) :
    d.switchTest (some (k2, high)) rb = d := by
  simp only [Dev.switchTest, hon, h, Bool.false_eq_true, if_false, if_true]

/-- An off-pulse in CLOSED, which an OPW of zero does not make: the readback of its switch must fall. -/
theorem Dev.switchTest_closed {high : Bool} (hdue : d.swDue false high = true) (hst : d.sccState = 3) (rb : BitVec 6) :
    d.switchTest (some (false, high)) rb = (let e := d.start (Tm.swTest false high)
      if d.fld Reg.SCC_TEST 8 0 = 0 then e
      else if readback rb false high = true then e.sccFail (if high = true then 0 else 1) else e) := by
  have hclosed : (d.start (Tm.swTest false high)).sccState = 3 := hst
  simp only [Dev.switchTest, hon, hdue, hclosed, Dev.fld_start, Bool.false_eq_true, Bool.true_eq_false, if_false]
  rfl

/-- An on-pulse in OPEN: the readback of its switch must rise while the other one stays. -/
theorem Dev.switchTest_open {k2 high : Bool} (hdue : d.swDue k2 high = true) (hst : d.sccState = 0) (rb : BitVec 6) :
    d.switchTest (some (k2, high)) rb = (let e := d.start (Tm.swTest k2 high)
      if readback rb k2 high = true ∧ readback rb k2 (!high) = false then e else e.sccFail 2) := by
  have hopen : (d.start (Tm.swTest k2 high)).sccState = 0 := hst
  simp only [Dev.switchTest, hon, hdue, hopen, readback, Bool.false_eq_true, Bool.true_eq_false, if_false, if_true,
    Bool.and_eq_true, Bool.not_eq_true', Nat.reduceEqDiff, decide_false, Bool.false_and]
  rfl

/-- A look outside the pulses: each readback must follow the drive of its switch. -/
theorem Dev.switchTest_look (rb : BitVec 6) : d.switchTest none rb =
    if rb.getLsbD 0 = d.scc.k1.highDriven (rb.getLsbD 4) ∧ rb.getLsbD 1 = (d.scc.k1 != .off) ∧
      rb.getLsbD 2 = d.scc.k2.highDriven (rb.getLsbD 5) ∧ rb.getLsbD 3 = (d.scc.k2 != .off)
    then d else d.sccFail 2 := by
  have hlook : d.switchTest none rb =
      if (d.scc.k1.misread rb false || d.scc.k2.misread rb true) = true then d.sccFail 2 else d :=
    if_neg (by simp [hon])
  rw [hlook, ← ite_not]
  refine ite_congr (propext ?_) (fun _ => rfl) (fun _ => rfl)
  rw [Bool.not_eq_true, Bool.or_eq_false_iff, Coil.misread_eq_false, Coil.misread_eq_false, and_assoc]
  rfl

end

/-! ### Coil currents, mirror contacts, and the return of channel power (R170) -/

theorem exec_coilFault_awake {s : State} {k2 : Bool} {ma : BitVec 16} {e : Dev} (hs : s.dev.asleep = false)
    (he : s.dev.coilMeasure k2 ma.toNat = e) : exec (.coilFault k2 ma) s = .next (s.on e) :=
  exec_awake_eq hs (fun d => d.coilMeasure k2 ma.toNat) rfl he

/-- The bits of SCC_ICOIL that hold the current of a channel take `ma`. -/
def Dev.coilShow (d : Dev) (k2 : Bool) (ma : Nat) : Dev :=
  d.setFld Reg.SCC_ICOIL (if k2 = true then 31 else 15) (if k2 = true then 16 else 0) ma

/-- The channel of K1 or of K2. -/
def Dev.coil (d : Dev) (k2 : Bool) : Coil := if k2 then d.scc.k2 else d.scc.k1

theorem Dev.coilMeasure_off {d : Dev} (h : d.scc.diagOff = true) (k2 : Bool) (ma : Nat) :
    d.coilMeasure k2 ma = d.coilShow k2 ma := by
  cases k2 <;> exact if_pos h

theorem Dev.coilMeasure_on {d : Dev} (h : d.scc.diagOff = false) (k2 : Bool) (ma : Nat) : d.coilMeasure k2 ma =
    (let e := d.coilShow k2 ma
    if d.coil k2 ≠ .off ∧ 2500 < ma then e.sccFail 4
    else if d.coil k2 ≠ .off ∧ d.running (pickTm k2) = false ∧ ma < 50 then e.sccFail 3
    else e) := by
  have hon (hi lo : Nat) : (d.setFld Reg.SCC_ICOIL hi lo ma).scc.diagOff = false := h
  cases k2 <;>
  · simp only [Dev.coilMeasure, hon, Bool.false_eq_true, if_false, if_true, Bool.and_eq_true, bne_iff_ne,
      Bool.not_eq_true', decide_eq_true_eq, and_assoc]
    rfl

theorem Dev.fbDiscrepancy_eq (d : Dev) : d.fbDiscrepancy =
    if (d.fbDisagree false = true ∧ d.due (Tm.disc false) (d.sccMs 7 0) = true) ∨
      (d.fbDisagree true = true ∧ d.due (Tm.disc true) (d.sccMs 7 0) = true) ∨
      (d.sccState = 3 ∧ d.bit Reg.SCC_STAT 0 = false)
    then ((d.stop (Tm.disc false)).stop (Tm.disc true)).sccFail 5 else d := by
  simp only [Dev.fbDiscrepancy, Bool.and_eq_true, Bool.or_eq_true, Bool.not_eq_true', decide_eq_true_eq, or_assoc]

theorem Dev.diagResume_eq (d : Dev) : d.diagResume =
    if d.scc.diagOff = true ∧ d.due Tm.diag (msT 10) = true then
      [false, true].foldl (fun (d : Dev) k2 => (d.start (Tm.swTest k2 true)).stop (Tm.swTest k2 false))
        (({ d with scc := { d.scc with diagOff := false } } : Dev).stop Tm.diag)
    else d := by
  simp only [Dev.diagResume, Bool.and_eq_true]

/-- Settles O40: the contactor commands, the timers and the feedback, the diagnostics, KILL_OUT and the return of the
diagnostics. -/
theorem contactorCommands : Obligations.ContactorCommands := by
  unfold Obligations.ContactorCommands
  refine ⟨fun s src d hs ht => ⟨fun h => State.lift_gate_eq hs ht (Dev.sccCmdWrite_refused h),
      fun h he h0 => State.lift_gate_eq hs ht (Dev.sccCmdWrite_accepted h he (if_pos h0)),
      fun h he h0 => State.lift_gate_eq hs ht (Dev.sccCmdWrite_accepted h he (if_neg h0))⟩,
    Dev.closeOk_iff,
    fun s src d hs ht => State.lift_gate_eq hs ht rfl,
    fun s src d e hs ht he => ?ack,
    fun s hs h => State.lift_awake_eq hs (s.dev.brkExpiry_eq.trans (if_pos h)),
    fun s hs h => State.lift_awake_eq hs (s.dev.brkExpiry_eq.trans (if_neg h)),
    fun s k2 hs => ?pickup,
    fun s hs hst hdue hmet => State.lift_awake_eq hs (s.dev.prechargeDone_eq.trans (if_pos ⟨hst, hdue, hmet⟩)),
    fun s hs h => State.lift_awake_eq hs (s.dev.prechargeDone_eq.trans (if_neg h)),
    fun s hs hst hdue =>
      ⟨fun h => State.lift_awake_eq hs ((Dev.prechargeTimeout_due hst hdue).trans (if_pos h)),
      fun h => State.lift_awake_eq hs ((Dev.prechargeTimeout_due hst hdue).trans (if_neg h))⟩,
    fun s hs hst hfb1 hfb2 => State.lift_awake_eq hs (s.dev.closeConfirm_eq.trans (if_pos ⟨hst, hfb1, hfb2⟩)),
    fun s hs h => State.lift_awake_eq hs (s.dev.closeConfirm_eq.trans (if_neg h)),
    fun s hs hst hdue => State.lift_awake_eq hs (s.dev.closeTimeout_eq.trans (if_pos ⟨hst, hdue⟩)),
    fun s hs h => State.lift_awake_eq hs (s.dev.closeTimeout_eq.trans (if_neg h)),
    fun s hs hst hfb => State.lift_awake_eq hs (s.dev.openConfirm_eq.trans (if_pos ⟨hst, hfb⟩)),
    fun s hs h => State.lift_awake_eq hs (s.dev.openConfirm_eq.trans (if_neg h)),
    fun s hs hst hdue hlast => State.lift_awake_eq hs (s.dev.dropTimeout_eq.trans (if_pos ⟨hst, hdue, hlast⟩)),
    fun s hs h => State.lift_awake_eq hs (s.dev.dropTimeout_eq.trans (if_neg h)),
    fun s pulse rb k2 high hs hon => ?switchTest,
    fun s pulse rb k2 ma hs hoff => ⟨exec_switchTest_awake hs (Dev.switchTest_off hoff pulse rb),
      exec_coilFault_awake hs (Dev.coilMeasure_off hoff k2 ma.toNat)⟩,
    fun s ma hs hon => ?coil,
    fun s hs h => State.lift_awake_eq hs (s.dev.fbDiscrepancy_eq.trans (if_pos h)),
    fun s hs h => State.lift_awake_eq hs (s.dev.fbDiscrepancy_eq.trans (if_neg h)),
    fun s hs hp hst hk1 hk2 hfb hdue hfirst =>
      State.lift_awake_eq hs (s.dev.killAssert_eq.trans (if_pos ⟨hp, hst, hk1, hk2, hfb, hdue, hfirst⟩)),
    fun s hs h => State.lift_awake_eq hs (Dev.killAssert_none h),
    fun d => ⟨Dev.dropTm_fault, Dev.dropTm_other⟩,
    fun s hs hoff hdue => State.lift_awake_eq hs (s.dev.diagResume_eq.trans (if_pos ⟨hoff, hdue⟩)),
    fun s hs h => State.lift_awake_eq hs (s.dev.diagResume_eq.trans (if_neg h))⟩
  case ack =>
    subst he
    exact ⟨fun hst hdiag hfb => State.lift_gate_eq hs ht ((Dev.sccAck_eq _).trans (if_pos ⟨hst, hdiag, hfb⟩)),
      fun h => State.lift_gate_eq hs ht ((Dev.sccAck_eq _).trans (if_neg h))⟩
  case pickup =>
    refine ⟨?_, ?_, ?_, ?_⟩ <;> rintro rfl hdue
    · exact fun h => exec_pickupExpiry_awake hs ((Dev.pickExpiry_due hdue).trans (if_neg h))
    · exact fun h => exec_pickupExpiry_awake hs ((Dev.pickExpiry_due hdue).trans (if_neg h))
    · exact fun h => exec_pickupExpiry_awake hs ((Dev.pickExpiry_due hdue).trans (if_pos h))
    · exact exec_pickupExpiry_awake hs (Dev.pickExpiry_early hdue)
  case switchTest =>
    have hown (k : Bool) : 2 * b2n false + b2n k = b2n k := Nat.zero_add _
    have hother : rb.getLsbD (2 * b2n k2 + b2n high) = readback rb k2 (!high) := by rw [readback, Bool.not_not]
    refine ⟨?_, ?_, ?_, ?_, ?_, ?_, ?_, ?_⟩ <;> rintro rfl
    · intro hdue hst hopw hr
      rw [← hown] at hr
      exact exec_switchTest_awake hs ((Dev.switchTest_closed hon hdue hst rb).trans ((if_neg hopw).trans (if_pos hr)))
    · intro hdue hst hr
      rw [← hown] at hr
      refine exec_switchTest_awake hs ((Dev.switchTest_closed hon hdue hst rb).trans ?_)
      exact ite_eq_left_iff.2 fun _ => if_neg (by simp [readback, hr])
    · intro hdue hst hr hstay
      exact exec_switchTest_awake hs ((Dev.switchTest_open hon hdue hst rb).trans (if_pos ⟨hr, hother ▸ hstay⟩))
    · intro hdue hst h
      rw [hother] at h
      refine exec_switchTest_awake hs ((Dev.switchTest_open hon hdue hst rb).trans (if_neg ?_))
      rintro ⟨hr, hstay⟩
      rcases h with h | h
      · exact Bool.false_ne_true (h.symm.trans hr)
      · exact Bool.false_ne_true (hstay.symm.trans h)
    · exact fun hdue => exec_switchTest_awake hs (Dev.switchTest_early hon hdue rb)
    all_goals
      intro hk1 hk2
      have hlook := Dev.switchTest_look hon rb
      rw [hk1, hk2] at hlook
      exact exec_switchTest_awake hs hlook
  case coil =>
    have hcoil (k2 : Bool) := Dev.coilMeasure_on hon k2 ma.toNat
    refine ⟨fun h hk1 => exec_coilFault_awake hs ((hcoil false).trans (if_pos ⟨hk1, h⟩)),
      fun h hk1 hpick => exec_coilFault_awake hs ((hcoil false).trans ?_),
      fun hlo hhi => exec_coilFault_awake hs ((hcoil false).trans ?_),
      fun h hk2 => exec_coilFault_awake hs ((hcoil true).trans (if_pos ⟨hk2, h⟩))⟩
    · exact (if_neg (by omega)).trans (if_pos ⟨hk1, hpick, h⟩)
    · exact (if_neg (by omega)).trans (if_neg (by omega))

end Sys2Proof.Machine
end

section
/-! SUPPORT. The sigma-delta channels: their samples, their validity, the fast comparators and SYNC. -/

namespace Sys2Proof.Machine

/-! ### Sinc3 samples (R240 to R242) -/

theorem exec_sinc3Sample_awake {s : State} {n : BitVec 3} {out : BitVec 25} {e : Dev} (hs : s.dev.asleep = false)
    (he : s.dev.sinc3Sample n.toNat out.toNat = e) : exec (.sinc3Sample n out) s = .next (s.on e) :=
  exec_awake_eq hs (fun d => d.sinc3Sample n.toNat out.toNat) rfl he

theorem Dev.sinc3Sample_off {d : Dev} {n : Nat}
    (h : d.sdmOn n = false ∨ d.sdmClock n = false ∨ d.fld (Reg.SDM_CFG n) 24 16 = 0) (out : Nat) :
    d.sinc3Sample n out = d :=
  if_pos (by simpa [or_assoc] using h)

/-- An invalid channel becomes valid with entry 0x5011 and counts healthy samples anew. -/
def Dev.sdmValid (d : Dev) (n : Nat) : Dev :=
  (((((d.setSdm n { d.sdmCh n with good := 0 }).setBit Reg.SDM_STAT n false).hw 0x5011 [nw n]).start
    (Tm.sdm n)).estNocur).cond15

/-- A sample of an enabled channel with a clock and a decimation: it counts toward validity, or it is delivered. -/
theorem Dev.sinc3Sample_on {d : Dev} {n : Nat} (hon : d.sdmOn n = true) (hclk : d.sdmClock n = true)
    (hdec : d.fld (Reg.SDM_CFG n) 24 16 ≠ 0) (out : Nat) : d.sinc3Sample n out =
      if d.sdmInv n = true then
        if 3 ≤ (d.sdmCh n).good then d.sdmValid n
        else d.setSdm n { d.sdmCh n with good := (d.sdmCh n).good + 1 }
      else d.sinc3 n out :=
  if_neg (by simp [hon, hclk, hdec])

/-! ### Sinc2 samples and the fast comparators (R244) -/

theorem exec_sinc2Sample_awake {s : State} {n : BitVec 3} {out : BitVec 11} {e : Dev} (hs : s.dev.asleep = false)
    (he : s.dev.sinc2Sample n.toNat out.toNat = e) : exec (.sinc2Sample n out) s = .next (s.on e) :=
  exec_awake_eq hs (fun d => d.sinc2Sample n.toNat out.toNat) rfl he

theorem Dev.sinc2Sample_off {d : Dev} {n : Nat} (h : d.sdmOn n = false ∨ d.sdmClock n = false ∨
    d.fld (Reg.SDM_CFG n) 15 10 = 0 ∨ d.sdmInv n = true) (out : Nat) : d.sinc2Sample n out = d :=
  if_pos (by simpa [or_assoc] using h)

/-- The debounce count of channel `n` after a sample that violates its limits or does not. -/
def Dev.cmpCount (d : Dev) (n : Nat) (viol : Bool) : Nat :=
  if d.bit (Reg.SDM_CFG n) 4 = true ∧ viol = true then satN 16 ((d.sdmCh n).count + 1) else 0

/-- Channel `n` takes a debounce count after a sample, and class 15 follows. -/
def Dev.cmpTake (d : Dev) (n count : Nat) : Dev :=
  (d.setSdm n { d.sdmCh n with count := count, sampled := true }).cond15

/-- The count of violations at which the comparator of channel `n` decides. -/
def Dev.cmpDebounce (d : Dev) (n : Nat) : Nat := max 1 (d.fld (Reg.SDM_CFG n) 9 6)

/-- The comparator of channel `n` decides: its bit and its entry, and what CMPBLK and CMPCLS ask for. -/
def Dev.cmpDecide (d : Dev) (n : Nat) : Dev :=
  let d := d.flag Reg.SDM_STAT (16 + n)
  let d := if d.bit (Reg.SDM_CFG n) 3 then (d.setBit Reg.PWM_STAT 1 true).updateBlk else d
  let d := if d.bit (Reg.SDM_CFG n) 2 then d.crim 15 else d
  d.hw 0x5020 [nw n]

/-- A sample of a valid channel with a clock and a decimation: its fraction, its count, and the decision as the count
reaches the debounce value. -/
theorem Dev.sinc2Sample_on {d e : Dev} {n out : Nat} {f : Int} (hon : d.sdmOn n = true)
    (hdec : d.fld (Reg.SDM_CFG n) 15 10 ≠ 0) (hv : d.sdmInv n = false ∧ d.sdmClock n = true)
    (hf : fracOf out (d.fld (Reg.SDM_CFG n) 15 10) 2 = f)
    (he : d.setFld (Reg.SDM_FRAC n) 31 16 (f % 65536).toNat = e) : d.sinc2Sample n out =
      (let k := e.cmpCount n (e.cmpViolates n f)
      let g := e.cmpTake n k
      if k = g.cmpDebounce n ∧ (e.sdmCh n).count < g.cmpDebounce n then g.cmpDecide n else g) := by
  subst hf he
  unfold Dev.sinc2Sample
  rw [if_neg (by simp [hon, hdec, hv])]
  simp only [Bool.and_eq_true, decide_eq_true_eq]
  rfl

theorem Dev.cmpCount_inside (d : Dev) (n : Nat) : d.cmpCount n false = 0 := if_neg (by simp)

theorem Dev.cmpCount_violated {d : Dev} {n : Nat} (h : d.bit (Reg.SDM_CFG n) 4 = true) :
    d.cmpCount n true = satN 16 ((d.sdmCh n).count + 1) := if_pos ⟨h, rfl⟩

theorem Dev.cmpDebounce_pos (d : Dev) (n : Nat) : 0 < d.cmpDebounce n :=
  Nat.lt_of_lt_of_le Nat.one_pos (Nat.le_max_left _ _)

/-- With CMPBLK and CMPCLS 0 a decision only sets the comparator bit and makes its entry. -/
theorem Dev.cmpDecide_plain {d : Dev} {n : Nat} (hblk : (d.flag Reg.SDM_STAT (16 + n)).bit (Reg.SDM_CFG n) 3 = false)
    (hcls : (d.flag Reg.SDM_STAT (16 + n)).bit (Reg.SDM_CFG n) 2 = false) :
    d.cmpDecide n = (d.flag Reg.SDM_STAT (16 + n)).hw 0x5020 [nw n] := by
  simp only [Dev.cmpDecide, hblk, hcls, Bool.false_eq_true, if_false]

/-! ### A missing clock, stuck data (R242) and SYNC (R243) -/

theorem exec_sdmInvalid_awake {s : State} {n : BitVec 3} {stuck : Bool} {e : Dev} (hs : s.dev.asleep = false)
    (he : (if (stuck && decide (s.dev.fld Reg.SDM_INVCFG 11 0 = 0)) = true then s.dev
      else s.dev.sdmInvalid n.toNat) = e) : exec (.sdmInvalid n stuck) s = .next (s.on e) :=
  exec_awake_eq hs (fun d => if stuck && d.fld Reg.SDM_INVCFG 11 0 = 0 then d else d.sdmInvalid n.toNat) rfl he

theorem Dev.sdmInvalid_already {d : Dev} {n : Nat} (hn : n < 6)
    (h : (d.setSdm n { d.sdmCh n with good := 0 }).sdmInv n = true) :
    d.sdmInvalid n = d.setSdm n { d.sdmCh n with good := 0 } :=
  (if_neg (by omega)).trans (if_pos h)

/-- A valid channel without CMPCLS becomes invalid with entry 0x5010, and the slots that it feeds fault. -/
theorem Dev.sdmInvalid_becomes {d e : Dev} {n : Nat} (hn : n < 6)
    (h : (d.setSdm n { d.sdmCh n with good := 0 }).sdmInv n = false)
    (he : ((((d.setSdm n { d.sdmCh n with good := 0 }).setBit Reg.SDM_STAT n true).hw 0x5010
      [nw n]).estNocur).cond15 = e)
    (hcls : e.bit (Reg.SDM_CFG n) 2 = false) : d.sdmInvalid n = ((List.range 8).foldl (fun (d : Dev) s =>
      if d.slotOn s && d.slotFb s n then d.slotFault s else d) e).slotsNext := by
  subst he
  refine (if_neg (by omega)).trans ((if_neg (by simp [h])).trans ?_)
  dsimp only
  rw [if_neg (by simp [hcls])]

/-- A write of SDM_CTL with SYNC: the disabled channels become invalid, and decimation restarts on the others. -/
theorem Dev.sdmCtl_sync (d : Dev) {v : Word} (h : bitOf v 9 = true) : d.sdmCtl v =
    ((List.range 6).foldl (fun (d : Dev) n => if d.sdmOn n then d else d.sdmInvalid n)
      (d.plainWrite Reg.SDM_CTL v)).sdmSync := if_pos h

/-- Settles O41: the sinc3 and sinc2 samples, the comparator decisions, invalid channels, and SYNC. -/
theorem sigmaDeltaCommands : Obligations.SigmaDeltaCommands := by
  unfold Obligations.SigmaDeltaCommands
  refine ⟨fun s n out hs => ⟨fun h => exec_sinc3Sample_awake hs (Dev.sinc3Sample_off h _),
      fun hon hclk hdec hinv hgood => exec_sinc3Sample_awake hs ((Dev.sinc3Sample_on hon hclk hdec _).trans
        ((if_pos hinv).trans (if_neg (Nat.not_le.2 hgood)))),
      fun hon hclk hdec hinv hgood => exec_sinc3Sample_awake hs ((Dev.sinc3Sample_on hon hclk hdec _).trans
        ((if_pos hinv).trans (if_pos hgood))),
      fun hon hclk hdec hinv => exec_sinc3Sample_awake hs ((Dev.sinc3Sample_on hon hclk hdec _).trans
        (if_neg (by simp [hinv])))⟩,
    fun s n out hs h => exec_sinc2Sample_awake hs (Dev.sinc2Sample_off h _),
    fun s n out f e viol hs hon hdec hv hf he hviol hin => ?inside,
    fun s n out f e g c hs hon hdec hv hf he hviol hen hc hg => ?violated,
    fun d n f => ⟨rfl, rfl⟩,
    fun s n stuck hs => ⟨fun hstuck hcfg => exec_sdmInvalid_awake hs (if_pos (by simp [hstuck, hcfg])),
      fun h => exec_sdmInvalid_awake hs (if_neg (by rcases h with h | h <;> simp [h]))⟩,
    fun d n hn => ⟨Dev.sdmInvalid_already hn, fun e h he hcls => Dev.sdmInvalid_becomes hn h he hcls⟩,
    fun s src v d hs ht => State.lift_gate_eq hs ht (d.sdmCtl_sync ?sync),
    fun d => rfl⟩
  case inside =>
    subst hin
    refine exec_sinc2Sample_awake hs ((Dev.sinc2Sample_on hon hdec hv hf he).trans ?_)
    rw [hviol, Dev.cmpCount_inside]
    exact if_neg (fun h => Nat.ne_of_lt (Dev.cmpDebounce_pos _ _) h.1)
  case violated =>
    have hsample : s.dev.sinc2Sample n.toNat out.toNat =
        if satN 16 (c + 1) = g.cmpDebounce n.toNat ∧ c < g.cmpDebounce n.toNat then g.cmpDecide n.toNat else g := by
      rw [Dev.sinc2Sample_on hon hdec hv hf he, hviol, Dev.cmpCount_violated hen, ← hg, ← hc]
      rfl
    exact ⟨fun hlow hreach _ hblk hcls => exec_sinc2Sample_awake hs
        (hsample.trans ((if_pos ⟨hreach, hlow⟩).trans (Dev.cmpDecide_plain hblk hcls))),
      fun h => exec_sinc2Sample_awake hs (hsample.trans (if_neg fun hd => h hd.1))⟩
  case sync => rw [bitOf_withBit v (by decide), if_pos rfl]

end Sys2Proof.Machine
end

section
/-! SUPPORT. The commands of the state estimation: its run, the correction, publication and starvation. -/

namespace Sys2Proof.Machine

/-! ### A published sweep (R181, R187, R203) -/

/-- System firmware of a duty or alone module has not seen the published sweep. -/
def Dev.newSweep (d : Dev) : Prop :=
  d.pwr.full = true ∧ d.leads = true ∧ d.bit Reg.PWR_STAT 6 = false ∧ (d.rd Reg.SWP_COUNT).toNat ≠ d.est.lastCount

theorem Dev.estRun_quiet {d : Dev} (h : d.pwr.full = false ∨ d.leads = false ∨ d.bit Reg.PWR_STAT 6 = true ∨
    (d.rd Reg.SWP_COUNT).toNat = d.est.lastCount) : d.estRun = d :=
  if_pos (by simpa [or_assoc] using h)

/-- A new sweep adds to the throughput, runs the estimator where firmware may, and is followed up in any case. -/
theorem Dev.estRun_new {d e : Dev} (h : d.newSweep)
    (he : ({ d with est := { d.est with lastCount := (d.rd Reg.SWP_COUNT).toNat } } : Dev).thruAdd = e) :
    d.estRun = (if d.manages estBlock = true ∧ e.estReady = true then e.estBasic
      else e).profTick.balFromSoc.deratedLimits.rotStart := by
  subst he
  obtain ⟨hfull, hleads, hupd, hcount⟩ := h
  refine (if_neg (by simp [hfull, hleads, hupd, hcount])).trans ?_
  simp only [Bool.and_eq_true]
  rfl

/-! ### The correction (R189) -/

/-- The correction of the estimator is due: CORINT has passed on a module that runs it. -/
def Dev.correctionDue (d : Dev) : Prop :=
  d.pwr.full = true ∧ d.leads = true ∧ d.manages estBlock = true ∧ d.estReady = true ∧ d.pv Par.CORINT ≠ 0 ∧
    d.est.corTick + secT (d.pv Par.CORINT) ≤ d.now

theorem Dev.correction_early {d : Dev} (h : d.pwr.full = false ∨ d.leads = false ∨ d.manages estBlock = false ∨
    d.estReady = false ∨ d.pv Par.CORINT = 0 ∨ d.now < d.est.corTick + secT (d.pv Par.CORINT)) : d.correction = d :=
  if_pos (by simpa [or_assoc] using h)

/-- The mean current of the interval is small enough for the correction of a cell. -/
def Dev.corCalm (d : Dev) : Bool :=
  decide (d.est.corAbs * 360 ≤ d.est.corN * d.pv Par.ICORMAX * d.pv Par.QNOM) && d.est.corN != 0 &&
    d.pv Par.ICORMAX != 0

/-- The correction of one cell, which begins a new mean of its voltages. -/
def Dev.correctCell (calm : Bool) (d : Dev) (e : Nat × CellSt) : Dev :=
  let b := d.branchOf e.2
  let t := (d.cellTemp e.1).1
  let o := d.ocvInv e.1 b (quotR e.2.sum e.2.n) t
  let g := d.ocvSlope e.1 b o.1 t
  let y :=
    if calm && e.2.allOk && e.2.n != 0 then
      (if o.2 || g ≤ 0 || decide (g < (d.pv Par.SLOPEMIN : Int)) then e.2
      else e.2.correct o.1 (sigmaOf (d.pv Par.VSIGL) g))
    else e.2
  d.setCell e.1 { y with sum := 0, n := 0, allOk := true }

/-- A correction ends: the interval and the mean current begin anew. -/
def Dev.correctionEnd (d : Dev) : Dev := { d with est := { d.est with corTick := d.now, corAbs := 0, corN := 0 } }

theorem Dev.correction_due {d : Dev} (h : d.correctionDue) :
    d.correction = (d.known.foldl (Dev.correctCell d.corCalm) d).correctionEnd := by
  obtain ⟨hfull, hleads, hown, hready, hint, hdue⟩ := h
  have hcell {f : Dev → Nat × CellSt → Dev} (hf : f = Dev.correctCell d.corCalm) : (d.known.foldl f d).correctionEnd =
      (d.known.foldl (Dev.correctCell d.corCalm) d).correctionEnd := by rw [hf]
  unfold Dev.correction
  rw [if_neg (by simp [hfull, hleads, hown, hready, hint, Nat.not_lt.2 hdue])]
  exact hcell (funext fun d => funext fun ⟨c, x⟩ => rfl)

/-- The command where the correction is due, with any form `f` of the correction of a cell. -/
theorem exec_correction_due {s : State} {f : Dev → Nat × CellSt → Dev} (hs : s.dev.asleep = false)
    (h : s.dev.correctionDue) (hf : f = Dev.correctCell s.dev.corCalm) :
    exec .correction s = .next (s.on (s.dev.known.foldl f s.dev).correctionEnd) := by
  subst hf
  exact State.lift_awake_eq hs (Dev.correction_due h)

/-! ### Publication (R195) -/

theorem Dev.estPub_zero {d : Dev} (h : d.fld Reg.EST_PUBTO 15 0 = 0) : d.estPub =
    (((d.outZero.setBit Reg.EST_STAT 3 (d.act 6)).setBit Reg.EST_STAT 2 false).start Tm.pub).reform := by
  simp only [Dev.estPub, if_pos h]

theorem Dev.estPub_publishes {d : Dev} (h : d.fld Reg.EST_PUBTO 15 0 ≠ 0) : d.estPub =
    ((({ d with est := { d.est with pubd :=
      [d.rd Reg.EST_SOPCH, d.rd Reg.EST_SOPDIS, d.rd Reg.EST_SOPPCH, d.rd Reg.EST_SOPPDIS] } } : Dev).outForm.setBit
        Reg.EST_STAT 2 false).start Tm.pub).reform := by
  simp only [Dev.estPub, if_neg h]

/-- An SoP value as it is published: derated while LIM_ACT.EST is 1. -/
def Dev.derated (d : Dev) (w : Word) : Word := if d.act 6 then nw (w.toNat * d.fld Reg.EST_DERATE 7 0 / 256) else w

theorem Dev.outForm_published {d : Dev} {a b c e : Word} (h : d.est.pubd = [a, b, c, e]) : d.outForm =
    ((((d.wr Reg.EST_OUTCH (d.derated a)).wr Reg.EST_OUTDIS (d.derated b)).wr Reg.EST_OUTPCH (d.derated c)).wr
      Reg.EST_OUTPDIS (d.derated e)).setBit Reg.EST_STAT 3 (d.act 6) := by
  unfold Dev.outForm
  rw [h]
  rfl

theorem Dev.outForm_unpublished {d : Dev} (h : d.est.pubd = []) : d.outForm = d := if_pos (by rw [h]; rfl)

theorem Dev.derated_off {d : Dev} (h : d.act 6 = false) (w : Word) : d.derated w = w := if_neg (by simp [h])

theorem Dev.derated_on {d : Dev} (h : d.act 6 = true) (w : Word) :
    d.derated w = nw (w.toNat * d.fld Reg.EST_DERATE 7 0 / 256) := if_pos h

theorem Dev.pubTimeout_eq (d : Dev) : d.pubTimeout =
    if d.fld Reg.EST_PUBTO 15 0 ≠ 0 ∧ d.bit Reg.EST_STAT 2 = false ∧
      d.due Tm.pub (msT (d.fld Reg.EST_PUBTO 15 0)) = true
    then ((d.outZero.setBit Reg.EST_STAT 2 true).hw 0x3051 []).reform else d := by
  simp only [Dev.pubTimeout, Bool.and_eq_true, bne_iff_ne, decide_eq_true_eq, and_assoc]

/-! ### Starvation (R201, R202) -/

theorem Dev.starve_idle {d : Dev} (h : d.bit Reg.EST_FLAGS 6 = true ∨ d.pv Par.TSTARVE = 0) : d.starve = d :=
  if_pos (by rcases h with h | h <;> simp [h])

/-- System firmware watches for starvation: it runs the estimator outside grading, and STARVED is not set. -/
def Dev.starveWatch (d : Dev) : Prop :=
  d.pwr.full = true ∧ d.leads = true ∧ d.manages estBlock = true ∧ d.bit Reg.EST_CTL 1 = false ∧ d.pv Par.TSTARVE ≠ 0 ∧
    d.bit Reg.EST_FLAGS 6 = false

theorem Dev.starve_expired {d : Dev} (h : d.starveWatch)
    (hdue : d.est.expired = true ∨ d.est.qualAt + 3600 * d.pv Par.TSTARVE ≤ d.opSec) : d.starve =
      (({ d with est := { d.est with starvedAt := some d.opSec, asked := false, retryAt := none } } : Dev).sysSetFld
        Reg.EST_FLAGS 6 6 1).fw 0x3033 [] := by
  obtain ⟨hfull, hleads, hown, hgrade, hset, hstarved⟩ := h
  exact (if_neg (by simp [hfull, hleads, hown, hgrade, hset, hstarved])).trans (if_pos (by simpa using hdue))

/-- Settles O44: the estimator at a new sweep, the correction, publication and its timeout, and starvation. -/
theorem estimatorCommands : Obligations.EstimatorCommands := by
  unfold Obligations.EstimatorCommands
  refine ⟨fun s hs h => State.lift_awake_eq hs (Dev.estRun_quiet h),
    fun s hs h => State.lift_awake_eq hs (Dev.correction_early h),
    fun s e hs hfull hleads hupd hcount he => ?run,
    fun d => rfl,
    fun d q dq ns i tick hq htick hdq hns hi => ?basic,
    fun d q i tick => ⟨rfl, rfl, rfl⟩,
    fun s calm hs hfull hleads hown hready hint hdue hcalm => ?correction,
    fun s src d hs ht => ⟨fun h => State.lift_gate_eq hs ht (Dev.estPub_zero h),
      fun h => State.lift_gate_eq hs ht (Dev.estPub_publishes h)⟩,
    fun d a b c e f hpub => ⟨fun hact => ?plain, fun hact hf => ?derated⟩,
    fun d => Dev.outForm_unpublished,
    fun s hs hto hout hdue => State.lift_awake_eq hs (s.dev.pubTimeout_eq.trans (if_pos ⟨hto, hout, hdue⟩)),
    fun s hs h => State.lift_awake_eq hs (s.dev.pubTimeout_eq.trans (if_neg h)),
    fun s hs hfull hleads hown hgrade hset hstarved hdue =>
      State.lift_awake_eq hs (Dev.starve_expired ⟨hfull, hleads, hown, hgrade, hset, hstarved⟩ hdue),
    fun s hs h => State.lift_awake_eq hs (Dev.starve_idle h),
    fun d => rfl⟩
  case run =>
    have hrun := Dev.estRun_new ⟨hfull, hleads, hupd, hcount⟩ he
    refine ⟨fun hown hready => State.lift_awake_eq hs ?_, fun h => State.lift_awake_eq hs ?_⟩
    · rw [hrun, if_pos ⟨hown, hready⟩]
    · rw [hrun, if_neg (by rcases h with h | h <;> simp [h])]
  case basic =>
    subst hq htick hdq hns hi
    rfl
  case correction =>
    subst hcalm
    exact exec_correction_due hs ⟨hfull, hleads, hown, hready, hint, hdue⟩ rfl
  case plain =>
    rw [Dev.outForm_published hpub, hact]
    simp only [Dev.derated_off hact]
  case derated =>
    rw [Dev.outForm_published hpub, hact]
    simp only [Dev.derated_on hact, hf]

end Sys2Proof.Machine
end

section
/-! SUPPORT. Messages of the plant controller, rest rotation, Storeroom writes and transport mode. -/

namespace Sys2Proof.Machine

/-! ### Which messages pass, and how firmware takes them (R271, R434) -/

theorem Dev.plantTo_can (d : Dev) (id : BitVec 29) (type len : Nat) (l : List Byte) :
    d.plantTo (.can id) type len l = true ↔ (d.dspBasic = true ∧ l.length = len ∧ d.canProfile = true ∧
      d.canLive 0 = true ∧ id.toNat = d.pv Par.CANBASE % 32 * 2 ^ 24 + type * 2 ^ 16 + d.pv Par.STRADR * 2 ^ 8) := by
  simp only [Dev.plantTo, Bool.and_eq_true, decide_eq_true_eq, and_assoc]

theorem Dev.plantTo_udp (d : Dev) (port : BitVec 16) (ty adr dir ver : Byte) (type len : Nat) (l : List Byte) :
    d.plantTo (.udp port ty adr dir ver) type len l = true ↔ (d.dspBasic = true ∧ l.length = len ∧
      port.toNat = d.pv Par.UDPPORT ∧ ty.toNat = type ∧ adr.toNat = d.pv Par.STRADR ∧ dir = 0 ∧ ver = 1) := by
  simp only [Dev.plantTo, Bool.and_eq_true, decide_eq_true_eq, and_assoc]

theorem Dev.plantRead_stored {d : Dev} (hprof : d.canProfile = true) (hnew : d.bit (Reg.CAN_OBJ 0 0 3) 31 = true)
    (id : BitVec 29) : d.plantRead (.can id) = d.canRdsel 0 0 := if_pos (by simp [hprof, hnew])

theorem Dev.plantRead_none {d : Dev} (h : d.canProfile = false ∨ d.bit (Reg.CAN_OBJ 0 0 3) 31 = false)
    (id : BitVec 29) : d.plantRead (.can id) = d := if_neg (by rcases h with h | h <;> simp [h])

/-! ### SETPOINT and STATUS (R271, R272) -/

theorem exec_setpoint_awake {s : State} {h : PlantHead} {l : List Byte} {e : Dev} (hs : s.dev.asleep = false)
    (he : s.dev.setpoint h l = e) : exec (.setpoint h l) s = .next (s.on e) :=
  exec_awake_eq hs (fun d => d.setpoint h l) rfl he

/-- SEQ of a SETPOINT. -/
def setpointSeq (l : List Byte) : Nat := leNat (slice l 4 2)

/-- A SETPOINT is handled with a result code and goes to no slot. -/
def Dev.setpointNote (d : Dev) (l : List Byte) (code : Nat) : Dev :=
  { d with dsp := { d.dsp with hseq := setpointSeq l, hslot := none, lastRes := code } }

/-- Word 0 of the mailbox slot that a SETPOINT commits. -/
def setpointWord (l : List Byte) : Nat :=
  2 ^ 31 + (leNat (slice l 6 1) % 2) * 2 ^ 30 + (leNat (slice l 6 1) / 2 % 2) * 2 ^ 29 +
    b2n (leNat (slice l 6 1) / 4 != 0 || leNat (slice l 7 1) / 4 != 0) * 2 ^ 24 + setpointSeq l

/-- A SETPOINT is committed to the slot that it names. -/
def Dev.setpointCommit (d : Dev) (l : List Byte) : Dev :=
  let m := leNat (slice l 7 1) % 4
  let a := ((d.mbWrite m 1 (leWord l 8)).mbWrite m 2 (leWord l 12)).mbWrite m 3 (leWord l 16)
  let b : Dev :=
    { a with dsp := { a.dsp with lastSeq := some (setpointSeq l), hseq := setpointSeq l, hslot := some m } }
  b.mbWrite m 0 (nw (setpointWord l))

section
variable {d e : Dev} {h : PlantHead} {l : List Byte} (he : d.plantRead h = e)
include he

theorem Dev.setpoint_other (hto : e.plantTo h 0x10 20 l = false) : d.setpoint h l = e := by
  subst he
  exact if_pos hto

/-- A SETPOINT with a higher EPOCH: result 5 and STATUS from a module that leads, then entry 0x6005. -/
theorem Dev.setpoint_high (hto : e.plantTo h 0x10 20 l = true) (hhigh : (e.rd Reg.TW_EPOCH).toNat < plantEpoch l) :
    d.setpoint h l =
      (if e.leads = true then (e.setpointNote l 5).statusSend else e).plantHigh (plantEpoch l) := by
  subst he
  exact (if_neg (by simp [hto])).trans (if_pos hhigh)

/-- A SETPOINT that reaches a module that leads: refused at NOREMOTE, repeated, or new. -/
theorem Dev.setpoint_taken (hto : e.plantTo h 0x10 20 l = true)
    (hepoch : plantEpoch l ≤ (e.rd Reg.TW_EPOCH).toNat) (hleads : e.leads = true) : d.setpoint h l =
      if e.bit Reg.DSP_CTL 2 = true then (e.setpointNote l 8).statusSend
      else if e.dsp.lastSeq = some (setpointSeq l) then e.statusSend
      else (e.setpointCommit l).statusSend := by
  subst he
  exact (if_neg (by simp [hto])).trans ((if_neg (Nat.not_lt.2 hepoch)).trans (if_neg (by simp [hleads])))

end

theorem Dev.statusTick_due {d : Dev} (hb : d.dspBasic = true) (hl : d.leads = true)
    (h : d.running Tm.status = false ∨ d.due Tm.status (msT (d.pv Par.STPER)) = true) :
    d.statusTick = (d.plantSend 0x11 d.statusBytes).start Tm.status :=
  if_pos (by rcases h with h | h <;> simp [hb, hl, h])

theorem Dev.statusTick_expert {d : Dev} (h : d.dspBasic = false) : d.statusTick = d := if_neg (by simp [h])

/-! ### COMMAND (R164, R209) -/

theorem exec_commandClearTrips_awake {s : State} {h : PlantHead} {l : List Byte} {e : Dev} (hs : s.dev.asleep = false)
    (he : s.dev.plantCommand h l 1 (fun d => d.plantClear (nw (leNat (slice l 6 2)))) = e) :
    exec (.commandClearTrips h l) s = .next (s.on e) :=
  exec_awake_eq hs (fun d => d.plantCommand h l 1 (fun d => d.plantClear (nw (leNat (slice l 6 2))))) rfl he

theorem exec_commandTransport_awake {s : State} {h : PlantHead} {l : List Byte} {e : Dev} (hs : s.dev.asleep = false)
    (he : s.dev.plantCommand h l 2 Dev.transReq = e) : exec (.commandTransport h l) s = .next (s.on e) :=
  exec_awake_eq hs (fun d => d.plantCommand h l 2 Dev.transReq) rfl he

section
variable {d e : Dev} {h : PlantHead} {l : List Byte} {n : Nat} (he : d.plantRead h = e)
include he

theorem Dev.plantCommand_other (hto : e.plantTo h 0x30 8 l = false ∨ leNat (slice l 4 1) ≠ n) (f : Dev → Dev) :
    d.plantCommand h l n f = e := by
  subst he
  exact if_pos (by rcases hto with hto | hto <;> simp [hto])

/-- A COMMAND with the number `n` is rejected for a higher EPOCH, or carried out. -/
theorem Dev.plantCommand_mine (hto : e.plantTo h 0x30 8 l = true) (hn : leNat (slice l 4 1) = n) (f : Dev → Dev) :
    d.plantCommand h l n f =
      if (e.rd Reg.TW_EPOCH).toNat < plantEpoch l then e.plantHigh (plantEpoch l) else f e := by
  subst he
  exact if_neg (by simp [hto, hn])

theorem Dev.plantCommand_high (hto : e.plantTo h 0x30 8 l = true) (hn : leNat (slice l 4 1) = n)
    (hhigh : (e.rd Reg.TW_EPOCH).toNat < plantEpoch l) (f : Dev → Dev) :
    d.plantCommand h l n f = e.plantHigh (plantEpoch l) :=
  (Dev.plantCommand_mine he hto hn f).trans (if_pos hhigh)

theorem Dev.plantCommand_taken (hto : e.plantTo h 0x30 8 l = true) (hn : leNat (slice l 4 1) = n)
    (hepoch : plantEpoch l ≤ (e.rd Reg.TW_EPOCH).toNat) (f : Dev → Dev) : d.plantCommand h l n f = f e :=
  (Dev.plantCommand_mine he hto hn f).trans (if_neg (Nat.not_lt.2 hepoch))

end

theorem Dev.plantClear_follows {d : Dev} (h : d.leads = false) (mask : Word) : d.plantClear mask = d := if_pos h

theorem Dev.plantClear_leads {d : Dev} (h : d.leads = true) (mask : Word) :
    d.plantClear mask = if d.claimed 10 = true then d.discard Reg.LIM_TRIPCLR else d.tripClear mask :=
  if_neg (by simp [h])

/-! ### Rest rotation (R274, R275) -/

theorem exec_rotreply_awake {s : State} {h : PlantHead} {l : List Byte} {e : Dev} (hs : s.dev.asleep = false)
    (he : s.dev.rotReplyTake h l = e) : exec (.rotreply h l) s = .next (s.on e) :=
  exec_awake_eq hs (fun d => d.rotReplyTake h l) rfl he

section
variable {d e : Dev} {h : PlantHead} {l : List Byte} (he : d.plantRead h = e)
include he

theorem Dev.rotReplyTake_other (hto : e.plantTo h 0x21 8 l = false) : d.rotReplyTake h l = e := by
  subst he
  exact if_pos hto

theorem Dev.rotReplyTake_high (hto : e.plantTo h 0x21 8 l = true)
    (hhigh : (e.rd Reg.TW_EPOCH).toNat < plantEpoch l) : d.rotReplyTake h l = e.plantHigh (plantEpoch l) := by
  subst he
  exact (if_neg (by simp [hto])).trans (if_pos hhigh)

theorem Dev.rotReplyTake_taken (hto : e.plantTo h 0x21 8 l = true)
    (hepoch : plantEpoch l ≤ (e.rd Reg.TW_EPOCH).toNat) :
    d.rotReplyTake h l = e.rotReply (leNat (slice l 4 2)) (leNat (slice l 6 1)) := by
  subst he
  exact (if_neg (by simp [hto])).trans (if_neg (Nat.not_lt.2 hepoch))

end

theorem Dev.rotReply_otherRid {d : Dev} {rid : Nat} (h : rid ≠ d.dsp.rid) (decision : Nat) :
    d.rotReply rid decision = d := if_pos (by simp [h])

/-- A reply with the RID asked for: grant, refusal or cancellation, each in its state. -/
theorem Dev.rotReply_rid {d : Dev} {rid : Nat} (hb : d.dspBasic = true) (hl : d.leads = true) (hrid : rid = d.dsp.rid)
    (decision : Nat) : d.rotReply rid decision =
      if d.rotState = 1 ∧ decision = 1 then ((d.fw 0x6010 []).rotSet 2 0).start Tm.rotWin
      else if d.rotState = 1 ∧ decision = 2 then ((d.fw 0x6011 [nw 1]).rotIdle 1).rotStart
      else if d.rotState = 3 ∧ decision = 3 then ((d.fw 0x6012 [nw 3]).rotSet 4 3).rotReturn
      else d := by
  unfold Dev.rotReply
  rw [if_neg (by simp [hb, hl, hrid])]
  simp only [Bool.and_eq_true, decide_eq_true_eq]

theorem Dev.rotRepeat_eq (d : Dev) : d.rotRepeat =
    if d.dspBasic = true ∧ d.leads = true ∧ d.rotState = 1 ∧ d.due Tm.rotReq (secT 10) = true then d.rotAsk.rotStart
    else d := by
  simp only [Dev.rotRepeat, Bool.and_eq_true, decide_eq_true_eq, and_assoc]

theorem Dev.rotTimeout_eq (d : Dev) : d.rotTimeout =
    if d.dspBasic = true ∧ d.leads = true ∧ d.rotState = 1 ∧
      d.due Tm.rotWin (secT (d.fld Reg.DSP_ROTTO 15 0)) = true
    then ((d.fw 0x6011 [nw 2]).rotIdle 2).rotStart else d := by
  simp only [Dev.rotTimeout, Bool.and_eq_true, decide_eq_true_eq, and_assoc]

theorem Dev.rotWinEnd_eq (d : Dev) : d.rotWinEnd =
    if d.dspBasic = true ∧ d.rotState = 3 ∧ d.due Tm.rotWin (secT (d.pv Par.TRELAX + 300)) = true
    then (d.rotSet 4 0).rotReturn else d := by
  simp only [Dev.rotWinEnd, Dev.rotWindow, Bool.and_eq_true, decide_eq_true_eq, and_assoc]

/-! ### The Storeroom (R206) -/

/-- The first reason that waits for hold-up (5) or for transport entry (6). -/
def fastReason (reasons : List Nat) : Option Nat := reasons.find? (fun x => x = 5 || x = 6)

/-- The last Storeroom write is 10 s ago, or there was none. -/
def Dev.stoSpaced (d : Dev) : Bool :=
  match d.est.wroteAt with
  | some t => decide (t + 10000 ≤ d.opMs)
  | none => true

/-- With a waiting reason, a module that leads at full service writes when no write is in progress: for a fast reason at
once, else spaced. -/
theorem Dev.stoService_waiting {d : Dev} {r : Nat} {t : List Nat} (hr : d.est.reasons = r :: t) : d.stoService =
    if d.leads = false ∨ d.pwr.full = false ∨ d.stoBusy = true then d
    else (fastReason (r :: t)).elim (if d.stoSpaced = true then d.stoWrite r else d) d.stoWrite := by
  unfold Dev.stoService fastReason
  simp only [hr, Bool.or_eq_true, decide_eq_true_eq, or_assoc]
  split
  · rfl
  · cases (r :: t).find? (fun x => decide (x = 5) || decide (x = 6)) <;> rfl

theorem Dev.stoService_none {d : Dev} (h : d.est.reasons = []) : d.stoService = d := by
  simp only [Dev.stoService, h]

/-- No write begins on a module that does not lead, without full service, or while one is in progress. -/
theorem Dev.stoService_shut {d : Dev} (h : d.leads = false ∨ d.pwr.full = false ∨ d.stoBusy = true) :
    d.stoService = d := by
  cases hr : d.est.reasons with
  | nil => exact Dev.stoService_none hr
  | cons r t => exact (Dev.stoService_waiting hr).trans (if_pos h)

theorem Dev.stoInterval_due {d : Dev} (hfull : d.pwr.full = true) (hleads : d.leads = true)
    (hint : d.pv Par.STOINT ≠ 0) (hdue : (d.est.wroteAt.getD 0) + 1000 * d.pv Par.STOINT ≤ d.opMs)
    (hask : d.est.reasons.contains 1 = false) : d.stoInterval = d.stoAsk 1 :=
  if_pos (by simpa [hfull, hleads, hint, hdue] using hask)

/-! ### Transport mode (R209, R210) -/

theorem Dev.transReq_shut {d : Dev} (h : d.leads = false ∨ d.pwr.full = false) : d.transReq = d :=
  if_pos (by simpa using h)

/-- A module that leads at full service goes on with an entry, or opens the contactors for a new one. -/
theorem Dev.transReq_leads {d : Dev} (hl : d.leads = true) (hf : d.pwr.full = true) : d.transReq =
    if d.est.trPhase = 1 ∨ d.est.trPhase = 2 then d.transStep
    else (((d.sccCmd false 2).setTr 1).start Tm.trans).transStep := by
  unfold Dev.transReq
  rw [if_neg (by simp [hl, hf])]
  simp only [Bool.or_eq_true, decide_eq_true_eq]

/-- The entry waits for its Storeroom write. -/
def Dev.transWrite (d : Dev) : Dev := if d.stoDone = true then d.transEnter else d

theorem Dev.transStep_opened {d : Dev} (hph : d.est.trPhase = 1) (hst : d.sccState = 0)
    (h2 : d.transOpen.est.trPhase = 2) : d.transStep = d.transOpen.transWrite := by
  simp only [Dev.transStep, hph, hst, h2, decide_true, Bool.and_self, if_true]
  rfl

theorem Dev.transStep_closed {d : Dev} (hph : d.est.trPhase = 1) (hst : d.sccState ≠ 0) : d.transStep =
    if d.due Tm.trans (d.sccMs 23 16 + msT 100) = true then (d.setTr 0).fw 0x3042 [] else d := by
  simp [Dev.transStep, hph, hst]

theorem Dev.transStep_writing {d : Dev} (hph : d.est.trPhase = 2) : d.transStep = d.transWrite := by
  simp [Dev.transStep, Dev.transWrite, hph]

theorem exec_transportExit_awake {s : State} {ret : Bool} {e : Dev} (hs : s.dev.asleep = false)
    (he : s.dev.transExit ret = e) : exec (.transportExit ret) s = .next (s.on e) :=
  exec_awake_eq hs (fun d => d.transExit ret) rfl he

theorem Dev.transExit_none {d : Dev} (h : d.est.transport = false ∨ d.pwr.full = false) (ret : Bool) :
    d.transExit ret = d := if_pos (by simpa using h)

/-- The string returns to service: every cell ages by the self-discharge of the transport. -/
def Dev.transReturn (d : Dev) (ret : Bool) : Dev :=
  let k := quotR (d.pv Par.SDRATE * ((d.opSec - d.est.trAt : Nat) : Int) * one30) (1000000 * 86400)
  let cells := Store.mapKeep (fun _ => none)
    (fun _ (c : Option CellSt) => c.map (fun x => { x with z := x.z - k, sz := x.sz + k })) d.est.cells
  let e : Dev := { d with est := { d.est with cells := cells, transport := false } }
  ((e.stoAsk stoExit).stoService.wakeSend ret).fw 0x3041 []

theorem Dev.transExit_start {d : Dev} (ht : d.est.transport = true) (hf : d.pwr.full = true) (ret : Bool) :
    d.transExit ret = if d.pins.wakeChg = true then d.transReturn ret else d.standby 6 :=
  if_neg (by simp [ht, hf])

/-- Settles O47: the plant messages, STATUS, rest rotation, the Storeroom writes, and the entry to and the exit from
transport mode. -/
theorem plantCommands : Obligations.PlantCommands := by
  unfold Obligations.PlantCommands
  refine ⟨fun d id port ty adr dir ver type len l =>
      ⟨d.plantTo_can id type len l, d.plantTo_udp port ty adr dir ver type len l⟩,
    fun d id port ty adr dir ver => ⟨rfl, fun hprof hnew => Dev.plantRead_stored hprof hnew id,
      fun h => Dev.plantRead_none h id⟩,
    fun s h l e hs he => ?setpoint,
    fun s hs hb hl h => State.lift_awake_eq hs (Dev.statusTick_due hb hl h),
    fun s hs hb => ⟨State.lift_awake_eq hs (Dev.statusTick_expert hb),
      State.lift_awake_eq hs (s.dev.rotRepeat_eq.trans (if_neg (by simp [hb]))),
      State.lift_awake_eq hs (s.dev.rotTimeout_eq.trans (if_neg (by simp [hb]))),
      State.lift_awake_eq hs (s.dev.rotWinEnd_eq.trans (if_neg (by simp [hb])))⟩,
    fun s h l e hs he => ?command,
    fun s h l e hs he => ?rotreply,
    fun s hs hb hl hst hdue => State.lift_awake_eq hs (s.dev.rotRepeat_eq.trans (if_pos ⟨hb, hl, hst, hdue⟩)),
    fun s hs h => State.lift_awake_eq hs (s.dev.rotRepeat_eq.trans (if_neg h)),
    fun s hs hb hl hst hdue => State.lift_awake_eq hs (s.dev.rotTimeout_eq.trans (if_pos ⟨hb, hl, hst, hdue⟩)),
    fun s hs h => State.lift_awake_eq hs (s.dev.rotTimeout_eq.trans (if_neg h)),
    fun s hs hb hst hdue => State.lift_awake_eq hs (s.dev.rotWinEnd_eq.trans (if_pos ⟨hb, hst, hdue⟩)),
    fun s hs h => State.lift_awake_eq hs (s.dev.rotWinEnd_eq.trans (if_neg h)),
    fun s hs h => State.lift_awake_eq hs
      (h.elim Dev.stoService_none (fun h => Dev.stoService_shut (h.imp_right Or.inl))),
    fun s hs hbusy => State.lift_awake_eq hs (Dev.stoService_shut (.inr (.inr hbusy))),
    fun s r f t hs hr hl hf hbusy => ?storeroom,
    fun s hs hf hl hint hdue hask => State.lift_awake_eq hs (Dev.stoInterval_due hf hl hint hdue hask),
    fun s hs => ⟨fun h => State.lift_awake_eq hs (Dev.transReq_shut h),
      fun hl hf h => State.lift_awake_eq hs ((Dev.transReq_leads hl hf).trans (if_pos h)),
      fun hl hf h1 h2 => State.lift_awake_eq hs ((Dev.transReq_leads hl hf).trans (if_neg (by simp [h1, h2])))⟩,
    fun d e he => ?step,
    fun s ret hs => ⟨fun h => exec_transportExit_awake hs (Dev.transExit_none h ret),
      fun ht hf hw => exec_transportExit_awake hs ((Dev.transExit_start ht hf ret).trans (if_neg (by simp [hw]))),
      fun ht hf hw => exec_transportExit_awake hs ((Dev.transExit_start ht hf ret).trans (if_pos hw))⟩⟩
  case setpoint =>
    refine ⟨fun hto => exec_setpoint_awake hs (Dev.setpoint_other he hto), fun hto hhigh hl => ?_,
      fun hto hhigh hl => ?_, fun hto hepoch hl hrem hseq => ?_, fun hto hepoch hl hrem => ?_,
      fun hto hepoch hl hrem hseq => ?_⟩
    · rw [exec_setpoint_awake hs (Dev.setpoint_high he hto hhigh), if_neg (by simp [hl])]
    · rw [exec_setpoint_awake hs (Dev.setpoint_high he hto hhigh), if_pos hl]
      rfl
    · exact exec_setpoint_awake hs ((Dev.setpoint_taken he hto hepoch hl).trans
        ((if_neg (by simp [hrem])).trans (if_pos hseq)))
    · exact exec_setpoint_awake hs ((Dev.setpoint_taken he hto hepoch hl).trans (if_pos hrem))
    · exact exec_setpoint_awake hs ((Dev.setpoint_taken he hto hepoch hl).trans
        ((if_neg (by simp [hrem])).trans (if_neg hseq)))
  case command =>
    exact ⟨fun hto => exec_commandClearTrips_awake hs (Dev.plantCommand_other he hto _),
      fun hto => exec_commandTransport_awake hs (Dev.plantCommand_other he hto _),
      fun hto hn hhigh => exec_commandClearTrips_awake hs (Dev.plantCommand_high he hto hn hhigh _),
      fun hto hn hhigh => exec_commandTransport_awake hs (Dev.plantCommand_high he hto hn hhigh _),
      fun hto hn hepoch hl => exec_commandClearTrips_awake hs
        ((Dev.plantCommand_taken he hto hn hepoch _).trans (Dev.plantClear_follows hl _)),
      fun hto hn hepoch hl hclaim => exec_commandClearTrips_awake hs
        ((Dev.plantCommand_taken he hto hn hepoch _).trans ((Dev.plantClear_leads hl _).trans (if_pos hclaim))),
      fun hto hn hepoch hl hclaim => exec_commandClearTrips_awake hs
        ((Dev.plantCommand_taken he hto hn hepoch _).trans
          ((Dev.plantClear_leads hl _).trans (if_neg (by simp [hclaim])))),
      fun hto hn hepoch => exec_commandTransport_awake hs (Dev.plantCommand_taken he hto hn hepoch _)⟩
  case rotreply =>
    have hreply (hto : e.plantTo h 0x21 8 l = true) (hepoch : plantEpoch l ≤ (e.rd Reg.TW_EPOCH).toNat) {f : Dev}
        (hf : e.rotReply (leNat (slice l 4 2)) (leNat (slice l 6 1)) = f) : exec (.rotreply h l) s = .next (s.on f) :=
      exec_rotreply_awake hs ((Dev.rotReplyTake_taken he hto hepoch).trans hf)
    exact ⟨fun hto => exec_rotreply_awake hs (Dev.rotReplyTake_other he hto),
      fun hto hhigh => exec_rotreply_awake hs (Dev.rotReplyTake_high he hto hhigh),
      fun hto hepoch hrid => hreply hto hepoch (Dev.rotReply_otherRid hrid _),
      fun hto hepoch hrid hb hl hst hgrant => hreply hto hepoch
        ((Dev.rotReply_rid hb hl hrid _).trans (if_pos ⟨hst, hgrant⟩)),
      fun hto hepoch hrid hb hl hst hrefuse => hreply hto hepoch
        ((Dev.rotReply_rid hb hl hrid _).trans ((if_neg (by omega)).trans (if_pos ⟨hst, hrefuse⟩))),
      fun hto hepoch hrid hb hl hst hcancel => hreply hto hepoch ((Dev.rotReply_rid hb hl hrid _).trans
        ((if_neg (by omega)).trans ((if_neg (by omega)).trans (if_pos ⟨hst, hcancel⟩))))⟩
  case storeroom =>
    have hwait := (Dev.stoService_waiting hr).trans (if_neg (by simp [hl, hf, hbusy]))
    refine ⟨fun hfast => State.lift_awake_eq hs ?_, fun hfast hnever => State.lift_awake_eq hs ?_⟩
    · rw [hwait, fastReason, hfast, Option.elim_some]
    · rw [hwait, fastReason, hfast, Option.elim_none, if_pos (by rw [Dev.stoSpaced, hnever])]
  case step =>
    subst he
    refine ⟨fun hph hst h2 hdone => ?_, fun hph hst h2 hdone => ?_,
      fun hph hst hdue => (Dev.transStep_closed hph hst).trans (if_pos hdue),
      fun hph hst hdue => (Dev.transStep_closed hph hst).trans (if_neg (by simp [hdue])),
      fun hph hdone => (Dev.transStep_writing hph).trans (if_pos hdone),
      fun hph hdone => (Dev.transStep_writing hph).trans (if_neg (by simp [hdone]))⟩
    · exact (Dev.transStep_opened hph hst h2).trans (if_pos hdone)
    · exact (Dev.transStep_opened hph hst h2).trans (if_neg (by simp [hdone]))

end Sys2Proof.Machine
end

section
/-! SUPPORT. The commands of the in-service impedance: the injection, the bins, the fit and the daily ageing entry. -/

namespace Sys2Proof.Machine

/-! ### The parts of an injection (R227) -/

theorem Dev.injPhaseEnd_none {d : Dev} (h : d.imp.inj = none) : d.injPhaseEnd = d := by
  simp only [Dev.injPhaseEnd, h]

theorem Dev.injPhaseEnd_up {d : Dev} {i : Inj} (hi : d.imp.inj = some i) (hp : i.part = .up) : d.injPhaseEnd =
    if d.due Tm.inj (msT (d.fld Reg.IMP_INJRAMP 15 0)) = true then d.injPart i .flat else d := by
  simp only [Dev.injPhaseEnd, hi, hp]

theorem Dev.injPhaseEnd_down {d : Dev} {i : Inj} (hi : d.imp.inj = some i) (hp : i.part = .down) : d.injPhaseEnd =
    if d.due Tm.inj (msT (d.fld Reg.IMP_INJRAMP 15 0)) = true then d.injOff else d := by
  simp only [Dev.injPhaseEnd, hi, hp]

/-- The periods of the running injection, over DIVR * 2^32, as `Dev.injNum` counts its angle. -/
def Dev.injNeed (d : Dev) (n : Nat) : Nat :=
  d.fld (Reg.IMP_INJ n 1) 15 0 * waveLen (d.fld (Reg.IMP_INJ n 0) 27 26) * d.injDiv n * 2 ^ 32

/-- After its periods an injection ramps down, and without a ramp it is off at once. -/
theorem Dev.injPhaseEnd_flat {d : Dev} {i : Inj} (hi : d.imp.inj = some i) (hp : i.part = .flat) : d.injPhaseEnd =
    if d.injNeed i.desc ≤ d.injNum i - i.flatNum then
      if d.fld Reg.IMP_INJRAMP 15 0 = 0 then ((d.injPart i .down).injDiscard i.desc).injOff
      else (d.injPart i .down).injDiscard i.desc
    else d := by
  simp only [Dev.injPhaseEnd, hi, hp]
  rfl

/-! ### The bins (R219, R220, R223, R237) -/

theorem Dev.binAccumulate_none {d : Dev} (h : d.imp.pub = none) : d.binAccumulate = d := by
  simp only [Dev.binAccumulate, h]

/-- The bins take a published sweep, which is gone after it; a module that sheds load only drops it. -/
theorem Dev.binAccumulate_some {d e : Dev} {i : Int} {nc : Bool} {buf : Nat} (hpub : d.imp.pub = some (i, nc, buf))
    (he : { d with imp := { d.imp with pub := none } } = e) : d.binAccumulate =
      if e.shedding = true then e
      else (List.range 16).foldl (fun (d : Dev) b => d.binTake b i nc buf) (e.setBit Reg.IMP_STAT 4 nc).ripRefresh := by
  subst he
  simp only [Dev.binAccumulate, hpub]

/-- Every bin starts anew with CLRALL; an injection goes on while INJEN is written 1. -/
theorem Dev.impCtl_clrall (d : Dev) {v : Word} (h : bitOf v 2 = true) : d.impCtl v =
    if bitOf v 1 = true then (List.range 16).foldl (fun (d : Dev) b => d.binZero b) (d.plainWrite Reg.IMP_CTL v)
    else ((List.range 16).foldl (fun (d : Dev) b => d.binZero b) (d.plainWrite Reg.IMP_CTL v)).injAbort := by
  simp only [Dev.impCtl, if_pos h]

theorem exec_impClearAll_takes {s : State} {src : Writer} {v : Word} {d e : Dev} (hs : s.dev.asleep = false)
    (ht : s.dev.takes src Reg.IMP_CTL = some d) (he : d.impCtl (withBit v 2 true) = e) :
    exec (.impClearAll src v) s = .next (s.on e) :=
  State.lift_gate_eq (f := fun d => d.impCtl (withBit v 2 true)) hs ht he

/-- A write of a word below word 3 starts a bin that is in use before or after it anew. -/
theorem Dev.binWrite_eq {d e : Dev} {b w : Nat} {v : Word} (he : d.plainWrite (Reg.IMP_BIN b w) v = e) :
    d.binWrite b w v =
      (if w < 3 ∧ (d.bit (Reg.IMP_BIN b 0) 31 = true ∨ e.bit (Reg.IMP_BIN b 0) 31 = true) then e.binZero b
      else e).ripRefresh := by
  subst he
  simp only [Dev.binWrite, Bool.and_eq_true, Bool.or_eq_true, decide_eq_true_eq]

theorem exec_binDescriptorWrite_takes {s : State} {src : Writer} {b : BitVec 4} {w : BitVec 2} {v : Word} {d e : Dev}
    (hs : s.dev.asleep = false) (ht : s.dev.takes src (Reg.IMP_BIN b.toNat w.toNat) = some d)
    (he : d.binWrite b.toNat w.toNat v = e) : exec (.binDescriptorWrite src b w v) s = .next (s.on e) :=
  State.lift_gate_eq (f := fun d => d.binWrite b.toNat w.toNat v) hs ht he

/-! ### Results, fits and inner temperatures (R224, R229, R232) -/

theorem Dev.fitRun_shut {d : Dev} (h : d.pwr.full = false ∨ d.manages (blockOf Reg.IMP_CTL) = false) :
    d.fitRun = d := if_pos (by simpa using h)

/-- The latest results of the bins whose IMP_DONE bit is set. -/
def Dev.collectAll (d : Dev) : Dev := (List.range 16).foldl (fun (d : Dev) n => d.impCollect n) d

/-- The fit of every known cell. -/
def Dev.fitAll (d : Dev) : Dev := d.known.foldl (fun (d : Dev) e => d.fitCell e.1 e.2) d

/-- The inner temperature of every known cell. -/
def Dev.inferAll (d : Dev) : Dev := d.known.foldl (fun (d : Dev) e => d.inferCell e.1 e.2) d

/-- At basic level the inner temperatures are judged in any case; new results are collected and fitted before it. -/
theorem Dev.fitRun_basic {d : Dev} (hfull : d.pwr.full = true) (hown : d.manages (blockOf Reg.IMP_CTL) = true) :
    d.fitRun =
      (if d.fld Reg.IMP_DONE 15 0 = 0 then d else d.collectAll.fitAll).inferAll.innerOchre :=
  if_neg (by simp [hfull, hown])

/-! ### The daily ageing entry (R231) -/

theorem Dev.ageingDaily_early {d : Dev} (h : d.pwr.full = false ∨ d.bit Reg.TT_STAT 5 = false ∨
    d.opSec < d.est.dayAt + 86400 ∨ d.manages (blockOf Reg.IMP_CTL) = false) : d.ageingDaily = d :=
  if_pos (by simpa [or_assoc] using h)

/-- The median of one of the factors that the fits of a day gave a cell, as an entry of the history holds it. -/
def dayMedian (f : List (Int × Int)) (g : Int × Int → Int) : Nat := (clampI 0 65535 (medianI (f.map g))).toNat

/-- The history of day `day` after the day's factors of one cell. -/
def dayEntry (day : Nat) (l : List (Nat × Option Word)) (e : Nat × Option (List (Int × Int))) :
    List (Nat × Option Word) :=
  match e.2 with
  | some f => putO l (64 * e.1 + day % 64) (some (nw (dayMedian f (fun p => p.2) * 65536 + dayMedian f (fun p => p.1))))
  | none => l

/-- The history after the day's factors, in the place of those of 64 days before. -/
def Dev.dayHistory (d : Dev) : List (Nat × Option Word) :=
  d.est.dayF.foldl (dayEntry d.est.day) (d.est.daily.filter (fun e => e.1 % 64 != d.est.day % 64))

/-- A day of operation ends with the history `l`, and the plausibility entries of the next day may be made. -/
def Dev.dayEnd (d : Dev) (l : List (Nat × Option Word)) : Dev :=
  { d with
    est := { d.est with daily := l, day := d.est.day + 1, dayAt := d.opSec, dayF := [] }
    imp := { d.imp with implausible := [] } }

theorem Dev.ageingDaily_due {d : Dev} (hfull : d.pwr.full = true) (hidle : d.bit Reg.TT_STAT 5 = true)
    (hday : d.est.dayAt + 86400 ≤ d.opSec) (hown : d.manages (blockOf Reg.IMP_CTL) = true) :
    d.ageingDaily = d.dayEnd d.dayHistory := by
  refine (if_neg (by simp [hfull, hidle, hown, Nat.not_lt.2 hday])).trans ?_
  rfl

/-- Settles O45: the parts of an injection, the bins and what starts them anew, the fit, and the daily ageing entry. -/
theorem impedanceCommands : Obligations.ImpedanceCommands := by
  unfold Obligations.ImpedanceCommands
  refine ⟨fun s i hs hi => ⟨
      fun hp hdue => State.lift_awake_eq hs ((Dev.injPhaseEnd_up hi hp).trans (if_pos hdue)),
      fun hp hdue => State.lift_awake_eq hs ((Dev.injPhaseEnd_up hi hp).trans (if_neg (by simp [hdue]))),
      fun hp hdue => State.lift_awake_eq hs ((Dev.injPhaseEnd_down hi hp).trans (if_pos hdue)),
      fun hp hrun hramp => State.lift_awake_eq hs
        ((Dev.injPhaseEnd_flat hi hp).trans ((if_pos hrun).trans (if_neg hramp))),
      fun hp hrun hramp => State.lift_awake_eq hs
        ((Dev.injPhaseEnd_flat hi hp).trans ((if_pos hrun).trans (if_pos hramp)))⟩,
    fun s hs h => State.lift_awake_eq hs (Dev.injPhaseEnd_none h),
    fun s hs h => State.lift_awake_eq hs (Dev.binAccumulate_none h),
    fun s i nc buf e hs hpub he => ⟨
      fun hshed => State.lift_awake_eq hs ((Dev.binAccumulate_some hpub he).trans (if_pos hshed)),
      fun hshed => State.lift_awake_eq hs ((Dev.binAccumulate_some hpub he).trans (if_neg (by simp [hshed])))⟩,
    fun s src v d hs ht => ?clrall,
    fun s src b w v d e hs ht he => ⟨
      fun hw huse => exec_binDescriptorWrite_takes hs ht ?anew,
      fun h => exec_binDescriptorWrite_takes hs ht ?keeps⟩,
    fun s hs h => State.lift_awake_eq hs (Dev.fitRun_shut h),
    fun s hs hfull hown hdone => State.lift_awake_eq hs ?judged,
    fun s a b c hs hfull hown hdone ha hb hc => State.lift_awake_eq hs ?fitted,
    fun s hs h => State.lift_awake_eq hs (Dev.ageingDaily_early h),
    fun s hs hfull hidle hday hown => (State.lift_awake_eq hs (Dev.ageingDaily_due hfull hidle hday hown)).trans rfl⟩
  case clrall =>
    have hctl := d.impCtl_clrall (v := withBit v 2 true) (by rw [bitOf_withBit v (by decide), if_pos rfl])
    exact ⟨fun hinj => exec_impClearAll_takes hs ht (hctl.trans (if_pos hinj)),
      fun hinj => exec_impClearAll_takes hs ht (hctl.trans (if_neg (by simp [hinj])))⟩
  case anew => rw [Dev.binWrite_eq he, if_pos ⟨hw, huse⟩]
  case keeps =>
    rw [Dev.binWrite_eq he, if_neg]
    rintro ⟨hw, huse⟩
    rcases h with h | ⟨hd, he⟩
    · omega
    · simp [hd, he] at huse
  case judged => rw [Dev.fitRun_basic hfull hown, if_pos hdone, Dev.inferAll]
  case fitted =>
    subst ha hb hc
    rw [Dev.fitRun_basic hfull hown, if_neg hdone]
    rfl

end Sys2Proof.Machine
end

section
/-! SUPPORT. The compensator slots: their triggers, completions and faults, the test injection and the trace. -/

namespace Sys2Proof.Machine

/-! ### Trigger events (R248, R249) -/

theorem Dev.slotEventTake_none {d : Dev} {s : Nat} (h : d.ce.trig.findIdx? (fun e => e.slot == s) = none) :
    d.slotEventTake s = d := by
  simp only [Dev.slotEventTake, h]

theorem Dev.slotEventTake_some {d : Dev} {s k : Nat} (h : d.ce.trig.findIdx? (fun e => e.slot == s) = some k) :
    d.slotEventTake s = (d.ce.trig.take (k + 1)).foldl (fun (d : Dev) e => d.slotTrigger e.tick e.slot)
      { d with ce := { d.ce with trig := d.ce.trig.drop (k + 1) } } := by
  simp only [Dev.slotEventTake, h]

theorem exec_slotTrigger_awake {s : State} {sl : BitVec 3} {e : Dev} (hs : s.dev.asleep = false)
    (he : s.dev.slotEventTake sl.toNat = e) : exec (.slotTrigger sl) s = .next (s.on e) :=
  exec_awake_eq hs (fun d => d.slotEventTake sl.toNat) rfl he

/-- An evaluation stands before one of its own tick with a higher slot, when no completion triggered either of them. -/
theorem dueIn_before {t s : Nat} {e : DueEval} (hlate : e.late = false) (htick : e.tick = t) (hslot : s < e.slot)
    (l : List DueEval) : dueIn t false s (e :: l) = { tick := t, late := false, slot := s } :: e :: l :=
  if_pos (by simp [hlate, htick, hslot])

theorem dueIn_behind {t s : Nat} {late : Bool} {e : DueEval} (h : late = true ∨ e.tick ≠ t ∨ e.slot ≤ s)
    (l : List DueEval) : dueIn t late s (e :: l) = e :: dueIn t late s l := by
  refine if_neg ?_
  simp only [Bool.and_eq_true, Bool.not_eq_true', decide_eq_true_eq]
  rintro ⟨⟨⟨hlate, -⟩, htick⟩, hslot⟩
  rcases h with h | h | h
  · exact Bool.false_ne_true (hlate.symm.trans h)
  · exact h htick
  · omega

theorem Dev.slotTrigger_off {d : Dev} {s : Nat} (h : d.slotOn s = false ∨ d.slotF s 0 15 8 = 0 ∨ d.shedding = true)
    (t : Nat) : d.slotTrigger t s = d :=
  if_pos (by simpa [or_assoc] using h)

/-- Until DIV events have come an event is only counted. -/
theorem Dev.slotTrigger_counts {d : Dev} {s : Nat} (hon : d.slotOn s = true) (hshed : d.shedding = false)
    (hdiv : (d.slot s).events + 1 < d.slotF s 0 15 8) (t : Nat) :
    d.slotTrigger t s = d.setSlot s { d.slot s with events := (d.slot s).events + 1 } := by
  have hlive : ¬ (d.slotOn s = false || d.slotF s 0 15 8 = 0 || d.shedding) = true := by
    simp [hon, hshed, Nat.ne_zero_of_lt hdiv]
  exact (if_neg hlive).trans (if_pos hdiv)

/-! ### The slow timer (R249, R252) -/

/-- TPER µs of the program time base have passed for slot `s`, which triggers by them. -/
def Dev.slowDue (d : Dev) (s : Nat) : Prop :=
  d.slotF s 0 22 20 = 5 ∧ d.slotTper s ≠ 0 ∧ d.slotTper s ≤ (d.tim.tb + 2 ^ 64 - (d.slot s).tbAt) % 2 ^ 64

theorem Dev.slowTimer_due {d : Dev} {s : Nat} (h : d.slowDue s) :
    d.slowTimer s = (d.setSlot s { d.slot s with tbAt := d.tim.tb }).slotTrigger d.now s := by
  obtain ⟨htrig, hper, htime⟩ := h
  exact if_pos (by simpa [htrig, hper] using htime)

theorem Dev.slowTimer_early {d : Dev} {s : Nat} (h : ¬ d.slowDue s) : d.slowTimer s = d := by
  refine if_neg fun hdue => h ?_
  simpa [Dev.slowDue, and_assoc] using hdue

theorem exec_slowTimerExpiry_awake {s : State} {sl : BitVec 3} {e : Dev} (hs : s.dev.asleep = false)
    (he : s.dev.slowTimer sl.toNat = e) : exec (.slowTimerExpiry sl) s = .next (s.on e) :=
  exec_awake_eq hs (fun d => d.slowTimer sl.toNat) rfl he

/-- Without a committed word 9 the timer runs with the TPER in force. -/
theorem Dev.slotTper_uncommitted {d : Dev} {s : Nat} (h : getO (d.slot s).stage 25 = none) :
    d.slotTper s = fieldOf (d.slotW s 9) 23 0 := by
  rw [Dev.slotTper, h, Option.getD_none]

theorem Dev.slotTper_committed {d : Dev} {s : Nat} {v : Word} (h : getO (d.slot s).stage 25 = some v) :
    d.slotTper s = fieldOf v 23 0 := by
  rw [Dev.slotTper, h, Option.getD_some]

/-! ### Completion (R247, R248) -/

theorem exec_slotComplete_awake {s : State} {sl : BitVec 3} {e : Dev} (hs : s.dev.asleep = false)
    (he : s.dev.slotComplete sl.toNat = e) : exec (.slotComplete sl) s = .next (s.on e) :=
  exec_awake_eq hs (fun d => d.slotComplete sl.toNat) rfl he

theorem Dev.slotComplete_idle {d : Dev} {s : Nat}
    (h : (d.slotsNext.slot s).running = false ∨ (d.slotsNext.slot s).waiting = true) :
    d.slotComplete s = d.slotsNext :=
  if_pos (by simpa using h)

/-- A 2p2z or 3p3z evaluation ends with the unclamped output `raw`: its output, its history one place on, and its
destination. -/
def Dev.pzEnd (d : Dev) (s : Nat) (err raw : Int) : Dev :=
  let w := d.slotWriteOut s raw
  let a := (w.1.wr (Reg.CE_SLOT s 14) (pack16 (d.slotQ s 14 false) w.2)).wr (Reg.CE_SLOT s 15)
    (pack16 (d.slotQ s 15 false) err)
  ((a.setSlot s { a.slot s with e3 := d.slotQ s 15 true, u3 := d.slotQ s 14 true }).slotDest s w.2).slotEnd s

theorem Dev.slotComplete_pz {d e : Dev} {s : Nat} {raw : Int} {f : Bool} (he : d.slotsNext = e)
    (hrun : (e.slot s).running = true) (hwait : (e.slot s).waiting = false) (hmode : e.slotF s 0 30 29 ≠ 2)
    (hraw : e.pzRaw s (e.slot s).e = (raw, f)) :
    d.slotComplete s = (if f then e.flag Reg.CE_STAT 28 else e).pzEnd s (e.slot s).e raw := by
  subst he
  have hgo : ¬ ((d.slotsNext.slot s).running = false || (d.slotsNext.slot s).waiting) = true := by simp [hrun, hwait]
  refine ((if_neg hgo).trans (if_neg hmode)).trans ?_
  rw [hraw]
  rfl

/-- An output within its bounds, with no test injection at the output, is written as it is. -/
theorem Dev.slotWriteOut_inside {d : Dev} {s : Nat} {raw : Int} (ht : d.tinjTerm s 2 = 0)
    (hlo : d.slotQ s 2 false ≤ raw) (hhi : raw ≤ d.slotQ s 2 true) :
    d.slotWriteOut s raw = (d.wr (Reg.CE_SLOT s 12) (pack16 (d.slot s).e raw), raw) := by
  simp only [Dev.slotWriteOut, ht, Int.add_zero, clampI_in hlo hhi, if_true]

/-- The output written is the unclamped one held to UMIN and UMAX. -/
theorem Dev.slotWriteOut_clamps {d : Dev} {s : Nat} (ht : d.tinjTerm s 2 = 0) (raw : Int) :
    (d.slotWriteOut s raw).2 = clampI (d.slotQ s 2 false) (d.slotQ s 2 true) raw := by
  simp only [Dev.slotWriteOut, ht, Int.add_zero]

/-! ### The test injection (R258) -/

/-- A test injection starts on slot `s`; a block aborts it at once. -/
def Dev.tinjStart (d : Dev) (s : Nat) : Dev :=
  let f := (Dev.setBit { d with ce := { d.ce with tPhase := 0, tEvals := 0 } } Reg.CE_TINJ 29 true).traceOn 5
  if f.bit Reg.PWM_STAT 0 || f.slotBlk s then f.tinjAbort else f

/-- CE_TINJ with GO and without STOP: refused beside an injection or with a reserved field, and nothing for a PERIODS of
zero. -/
theorem Dev.tinjWrite_go {d e : Dev} {v : Word} (hgo : bitOf v 31 = true) (hstop : bitOf v 30 = false)
    (he : d.plainWrite Reg.CE_TINJ v = e) : d.tinjWrite v =
      if e.imp.inj ≠ none ∨ fieldOf v 21 20 = 3 ∨ fieldOf v 17 16 = 3 then e.flag Reg.CE_STAT 30
      else if fieldOf v 15 0 = 0 then e else e.tinjStart (fieldOf v 26 24) := by
  subst he
  refine (if_neg (by simp [hstop])).trans ((if_neg (by simp [hgo])).trans (ite_congr ?_ (fun _ => rfl) fun _ => rfl))
  simp [Option.isSome_iff_ne_none, or_assoc]

theorem Dev.tinjWrite_stop {d : Dev} {v : Word} (hgo : bitOf v 31 = false) (hstop : bitOf v 30 = true) :
    d.tinjWrite v = (d.plainWrite Reg.CE_TINJ v).tinjAbort := by
  simp only [Dev.tinjWrite, hgo, hstop, if_true]

theorem exec_testInjectionGo_takes {s : State} {src : Writer} {v : Word} {d e : Dev} (hs : s.dev.asleep = false)
    (ht : s.dev.takes src Reg.CE_TINJ = some d) (he : d.tinjWrite (withBit v 31 true) = e) :
    exec (.testInjectionGo src v) s = .next (s.on e) :=
  State.lift_gate_eq (f := fun d => d.tinjWrite (withBit v 31 true)) hs ht he

/-! ### The trace (R259) -/

@[simp] theorem Dev.plainWrite_ce (d : Dev) (a : Nat) (v : Word) : (d.plainWrite a v).ce = d.ce := by
  unfold Dev.plainWrite
  split <;> rfl

theorem Dev.trcCtl_arm {d : Dev} {v : Word} (harm : bitOf v 31 = true) (hforce : bitOf v 30 = false) :
    d.trcCtl v =
      { (d.plainWrite Reg.CE_TRCCTL (withField v 12 0 (min 8191 (fieldOf v 29 0)))).wr Reg.CE_TRCSTAT 0x80000000 with
        ce := { d.ce with trCount := 0, trIdx := 0, trLeft := 0, trPrev := none } } := by
  simp only [Dev.trcCtl, harm, hforce, Bool.false_eq_true, if_true, if_false, Dev.wr_ce, Dev.plainWrite_ce]

theorem Dev.trcCtl_force {d : Dev} {v : Word} (harm : bitOf v 31 = false) (hforce : bitOf v 30 = true) :
    d.trcCtl v =
      (d.plainWrite Reg.CE_TRCCTL (withField v 12 0 (min 8191 (fieldOf v 29 0)))).traceTrigger := by
  simp only [Dev.trcCtl, harm, hforce, Bool.false_eq_true, if_true, if_false]

/-- Bit 31 of a write that the command gives it. -/
theorem bitOf_withBit_top (v : Word) (b : Bool) : bitOf (withBit v 31 b) 31 = b := by
  rw [bitOf_withBit v (by decide), if_pos rfl]

/-- A write with the second command bit alone: bit 31 is 0 and bit 30 is 1. -/
theorem bitOf_withBit_second (v : Word) : bitOf (withBit (withBit v 31 false) 30 true) 31 = false ∧
    bitOf (withBit (withBit v 31 false) 30 true) 30 = true := by
  constructor
  · rw [bitOf_withBit _ (by decide), if_neg (by decide), bitOf_withBit_top]
  · rw [bitOf_withBit _ (by decide), if_pos rfl]

/-- Settles O42: trigger events and their order, the slow timer, completions, fault clearing, CE_KICK, the commit of a
descriptor, the test injection and the trace. -/
theorem compensatorCommands : Obligations.CompensatorCommands := by
  unfold Obligations.CompensatorCommands
  refine ⟨fun s sl k hs => ⟨fun h => exec_slotTrigger_awake hs (Dev.slotEventTake_none h),
      fun h => exec_slotTrigger_awake hs (Dev.slotEventTake_some h)⟩,
    fun t s l e => ⟨rfl, dueIn_behind (.inl rfl) l, fun hlate htick hslot => dueIn_before hlate htick hslot l,
      fun h => dueIn_behind (.inr h) l⟩,
    fun d t s => ⟨fun h => Dev.slotTrigger_off h t, fun hon hshed hdiv => Dev.slotTrigger_counts hon hshed hdiv t⟩,
    fun s sl hs htrig hper htime => exec_slowTimerExpiry_awake hs (Dev.slowTimer_due ⟨htrig, hper, htime⟩),
    fun s sl hs h => exec_slowTimerExpiry_awake hs (Dev.slowTimer_early h),
    fun d s => ⟨fun h => Dev.slotTper_uncommitted (by rw [h]; rfl), fun v h => Dev.slotTper_committed h⟩,
    fun s sl hs h => exec_slotComplete_awake hs (Dev.slotComplete_idle h),
    fun s sl e raw f hs he hrun hwait hmode hraw =>
      exec_slotComplete_awake hs (Dev.slotComplete_pz he hrun hwait hmode hraw),
    fun d s raw lo hi hlo hhi ht hle => ?clamp,
    fun s src v d hs ht => State.lift_gate_eq hs ht rfl,
    fun s src v d hs ht => State.lift_gate_eq hs ht rfl,
    fun s src sl v d hs ht => State.lift_gate_eq (f := fun d => d.slotWrite sl.toNat 7 v) hs ht rfl,
    fun s src v d e hs ht he => ?go,
    fun s src v d hs ht => State.lift_gate_eq hs ht
      (Dev.tinjWrite_stop (bitOf_withBit_second v).1 (bitOf_withBit_second v).2),
    fun s src v d hs ht hforce => State.lift_gate_eq hs ht (Dev.trcCtl_arm (bitOf_withBit_top v true) hforce),
    fun s src v d hs ht => State.lift_gate_eq hs ht
      (Dev.trcCtl_force (bitOf_withBit_second v).1 (bitOf_withBit_second v).2)⟩
  case clamp =>
    subst hlo hhi
    have hout := Dev.slotWriteOut_clamps ht raw
    refine ⟨fun h1 h2 => ?_, fun h => hout.trans (clampI_low h), fun h => hout.trans (clampI_high h hle)⟩
    rw [Dev.slotWriteOut_inside ht h1 h2]
    exact ⟨rfl, rfl⟩
  case go =>
    have hgo (hstop : bitOf (withBit v 31 true) 30 = false) := Dev.tinjWrite_go (bitOf_withBit_top v true) hstop he
    have hfree {w : Word} (hinj : e.imp.inj = none) (hpoint : fieldOf w 21 20 ≠ 3) (hwave : fieldOf w 17 16 ≠ 3) :
        ¬ (e.imp.inj ≠ none ∨ fieldOf w 21 20 = 3 ∨ fieldOf w 17 16 = 3) := by simp [hinj, hpoint, hwave]
    exact ⟨fun hstop hn hinj hpoint hwave => exec_testInjectionGo_takes hs ht
        ((hgo hstop).trans ((if_neg (hfree hinj hpoint hwave)).trans (if_pos hn))),
      fun hstop h => exec_testInjectionGo_takes hs ht ((hgo hstop).trans (if_pos h)),
      fun hn hstop hinj hpoint hwave => exec_testInjectionGo_takes hs ht
        ((hgo hstop).trans ((if_neg (hfree hinj hpoint hwave)).trans (if_neg hn)))⟩

end Sys2Proof.Machine
end

section
/-! SUPPORT. The pulse-width pairs: their periods and outputs, PWM_PER, SYNC and the block. -/

namespace Sys2Proof.Machine

/-! ### Periods (R254, R255) -/

theorem Dev.pairTurn_idle {d : Dev} {p : Nat} (h : (d.pair p).wait = none) : d.pairTurn p = d.pairStart p := by
  simp only [Dev.pairTurn, h]

/-- After SYNC a pair with a phase starts once its tick has come. -/
theorem Dev.pairTurn_delayed {d : Dev} {p t : Nat} (h : (d.pair p).wait = some t) :
    d.pairTurn p = if d.now < t then d else d.pairStart p := by
  simp only [Dev.pairTurn, h]

theorem exec_pwmPeriodStart_awake {s : State} {p : BitVec 2} {e : Dev} (hs : s.dev.asleep = false)
    (he : s.dev.pairTurn p.toNat = e) : exec (.pwmPeriodStart p) s = .next (s.on e) :=
  exec_awake_eq hs (fun d => d.pairTurn p.toNat) rfl he

/-- The shadows that load at the centre move the falling edge. -/
def Dev.centreLoad (d : Dev) (p : Nat) : Dev :=
  let e := d.pairLoad p
  e.setPair p { e.pair p with fall := (pwmEdges true (e.pair p).per (e.pair p).duty).2 }

theorem Dev.pairCentre_running {d : Dev} {p : Nat} (hper : (d.pair p).per ≠ 0) (hwait : (d.pair p).wait = none) :
    d.pairCentre p =
      Dev.slotEvent (if d.bit (Reg.PWM_CFG p) 0 && d.bit (Reg.PWM_CFG p) 1 then d.centreLoad p else d) 2 p :=
  if_neg (by simp [hper, hwait])

theorem Dev.pairCentre_stopped {d : Dev} {p : Nat} (h : (d.pair p).per = 0 ∨ (d.pair p).wait ≠ none) :
    d.pairCentre p = d :=
  if_pos (by simpa [Option.isSome_iff_ne_none] using h)

theorem exec_pwmPeriodCentre_awake {s : State} {p : BitVec 2} {e : Dev} (hs : s.dev.asleep = false)
    (he : s.dev.pairCentre p.toNat = e) : exec (.pwmPeriodCentre p) s = .next (s.on e) :=
  exec_awake_eq hs (fun d => d.pairCentre p.toNat) rfl he

/-! ### Outputs (R255, R256) -/

section
variable {d : Dev} {p : Nat}

theorem Dev.pairHigh_undriven (h : d.driversOn = false) (u : Nat) : d.pairHigh p u = false :=
  if_pos (by simp [h])

theorem Dev.pairLow_undriven (h : d.driversOn = false) (u : Nat) : d.pairLow p u = false :=
  if_pos (by simp [h])

theorem Dev.pairHigh_safe (hon : d.driversOn = true) (hlive : (d.pair p).live = false) (u : Nat) :
    d.pairHigh p u = d.bit (Reg.PWM_CFG p) 3 :=
  (if_neg (by simp [hon])).trans (if_neg (by simp [hlive]))

theorem Dev.pairLow_safe (hon : d.driversOn = true) (hlive : (d.pair p).live = false) (u : Nat) :
    d.pairLow p u = d.bit (Reg.PWM_CFG p) 2 :=
  (if_neg (by simp [hon])).trans (if_neg (by simp [hlive]))

/-- The high output of a live pair is on from DTR units after its rising edge, in this period or before it, until the
falling edge. -/
theorem Dev.pairHigh_live (hon : d.driversOn = true) (hlive : (d.pair p).live = true) (u : Nat) :
    d.pairHigh p u = true ↔ (d.pair p).rise ≤ u ∧ u < (d.pair p).fall ∧
      (d.pair p).riseAt + ((d.pair p).dt % 4096 : Nat) ≤ u := by
  simp [Dev.pairHigh, hon, hlive, and_assoc]

/-- The low output of a live pair before the first falling edge after a release: on from DTF units after the falling
edge of its own period. -/
theorem Dev.pairLow_released (hon : d.driversOn = true) (hlive : (d.pair p).live = true)
    (hpulse : (d.pair p).rise < (d.pair p).fall) (hfirst : (d.pair p).fallAt = none) (u : Nat) :
    d.pairLow p u = true ↔ (d.pair p).fall + (d.pair p).dt / 65536 % 4096 ≤ u := by
  simp [Dev.pairLow, hon, hlive, hpulse, hfirst]

end

/-! ### PWM_PER (R254) -/

section
variable {d : Dev} {v : Word}

theorem Dev.perWrite_zero (p : Nat) (h : fieldOf v 19 0 = 0) : d.perWrite p v = d.wr (Reg.PWM_PER p) 0 := by
  simp [Dev.perWrite, h, nw]

theorem Dev.perWrite_inside (p : Nat) (hlo : 32000 ≤ fieldOf v 19 0) (hhi : fieldOf v 19 0 ≤ 640000) :
    d.perWrite p v = d.wr (Reg.PWM_PER p) (nw (fieldOf v 19 0)) := by
  have hne : fieldOf v 19 0 ≠ 0 := by omega
  simp only [Dev.perWrite, if_neg hne, Nat.max_eq_right hlo, Nat.min_eq_right hhi, if_true]

/-- A period outside the range is stored as the nearer bound `b`, with PWM_STAT.CLAMP and its entry. -/
theorem Dev.perWrite_bound {b : Nat} (p : Nat) (hne : fieldOf v 19 0 ≠ 0)
    (hb : min 640000 (max 32000 (fieldOf v 19 0)) = b) (hout : b ≠ fieldOf v 19 0) :
    d.perWrite p v = ((d.wr (Reg.PWM_PER p) (nw b)).flag Reg.PWM_STAT 4).hw 0x5040 [nw p] := by
  simp only [Dev.perWrite, if_neg hne, hb, if_neg hout]

theorem Dev.perWrite_below (p : Nat) (hpos : 0 < fieldOf v 19 0) (h : fieldOf v 19 0 < 32000) :
    d.perWrite p v = ((d.wr (Reg.PWM_PER p) 32000).flag Reg.PWM_STAT 4).hw 0x5040 [nw p] :=
  Dev.perWrite_bound (b := 32000) p (by omega) (by omega) (by omega)

theorem Dev.perWrite_above (p : Nat) (h : 640000 < fieldOf v 19 0) :
    d.perWrite p v = ((d.wr (Reg.PWM_PER p) 640000).flag Reg.PWM_STAT 4).hw 0x5040 [nw p] :=
  Dev.perWrite_bound (b := 640000) p (by omega) (by omega) (by omega)

end

theorem exec_pwmPerWrite_takes {s : State} {src : Writer} {p : BitVec 2} {v : Word} {d e : Dev}
    (hs : s.dev.asleep = false) (ht : s.dev.takes src (Reg.PWM_PER p.toNat) = some d)
    (he : d.perWrite p.toNat v = e) : exec (.pwmPerWrite src p v) s = .next (s.on e) :=
  State.lift_gate_eq (f := fun d => d.perWrite p.toNat v) hs ht he

/-! ### SYNC (R254, R256) -/

/-- A write of PWM_CTL with SYNC while no pair was enabled: no EN falls, so no slot is unpaired, and every pair restarts
or waits for its phase. -/
theorem Dev.pwmCtl_sync {d : Dev} {v : Word} (hsync : bitOf v 8 = true) (hen : d.fld Reg.PWM_CTL 3 0 = 0) :
    d.pwmCtl v =
      (List.range 4).foldl (fun (d : Dev) p => d.pairSync p) (d.plainWrite Reg.PWM_CTL v).updateBlk.slotsNext := by
  have hnone (p : Nat) : (d.fld Reg.PWM_CTL 3 0).testBit p = false := by rw [hen, Nat.zero_testBit]
  have hkeep (e : Dev) : (List.range 4).foldl (fun (d : Dev) _ => d) e = e := rfl
  simp only [Dev.pwmCtl, hsync, hnone, hkeep, Bool.false_and, Bool.false_eq_true, if_false, if_true]

/-- SYNC delays pair `p` by its PH modulo its PER, `ph` units. -/
theorem Dev.pairSync_phase {d : Dev} {p ph : Nat}
    (h : d.fld (Reg.PWM_PH p) 19 0 % max 1 (d.fld (Reg.PWM_PER p) 19 0) = ph) : d.pairSync p =
      if ph = 0 then d.pairStart p else d.setPair p { d.pair p with wait := some (d.now + ceilDiv (10 * ph) 512) } := by
  subst h
  rfl

/-! ### The block (R256) -/

/-- The pin CONV_FLT stands low or high, and the block and class 10 follow it. -/
def Dev.convFlt (d : Dev) (low : Bool) : Dev :=
  ({ d with pins := { d.pins with convFltLow := low } } : Dev).updateBlk.cond10

theorem Dev.convFltFall_low {d : Dev} (h : d.pins.convFltLow = true) (fr : Bool) : d.convFltFall fr = d := if_pos h

theorem Dev.convFltFall_high {d : Dev} (h : d.pins.convFltLow = false) (fr : Bool) : d.convFltFall fr =
    if fr = true then d.convFlt true else ((d.convFlt true).hw 0x5030 []).crim 10 :=
  if_neg (by simp [h])

theorem exec_convFltFall_awake {s : State} {fr : Bool} {e : Dev} (hs : s.dev.asleep = false)
    (he : s.dev.convFltFall fr = e) : exec (.convFltFall fr) s = .next (s.on e) :=
  exec_awake_eq hs (fun d => d.convFltFall fr) rfl he

/-- A write of 1 clears the direct block once the source condition of class 15 has ended, and is refused before. -/
theorem Dev.blkClr_one {d : Dev} {v : Word} (h : bitOf v 0 = true) : d.blkClr v =
    if getB d.lim.cond 15 = true then d.flag Reg.PWM_STAT 5 else (d.setBit Reg.PWM_STAT 1 false).updateBlk :=
  if_neg (by simp [h])

theorem Dev.blkClr_zero {d : Dev} {v : Word} (h : bitOf v 0 = false) : d.blkClr v = d := if_pos h

/-- Settles O43: the periods of a pair and its outputs, PWM_PER, SYNC, CONV_FLT and PWM_BLKCLR. -/
theorem pulseCommands : Obligations.PulseCommands := by
  unfold Obligations.PulseCommands
  refine ⟨fun s p t hs => ⟨fun h => exec_pwmPeriodStart_awake hs (Dev.pairTurn_idle h),
      fun h hearly => exec_pwmPeriodStart_awake hs ((Dev.pairTurn_delayed h).trans (if_pos hearly)),
      fun h hdue => exec_pwmPeriodStart_awake hs ((Dev.pairTurn_delayed h).trans (if_neg (Nat.not_lt.2 hdue)))⟩,
    fun d p => rfl, fun per duty => ⟨rfl, rfl⟩,
    fun d p u h => ⟨Dev.pairHigh_undriven h u, Dev.pairLow_undriven h u⟩,
    fun d p u hon hlive => ⟨Dev.pairHigh_safe hon hlive u, Dev.pairLow_safe hon hlive u⟩,
    fun d p u x hon hx hlive hrise hpulse hfirst => ?outputs,
    fun d p => rfl,
    fun s p hs hper hwait => ⟨
      fun hcent hload => exec_pwmPeriodCentre_awake hs ((Dev.pairCentre_running hper hwait).trans ?loads),
      fun h => exec_pwmPeriodCentre_awake hs ((Dev.pairCentre_running hper hwait).trans ?keeps)⟩,
    fun s p hs h => exec_pwmPeriodCentre_awake hs (Dev.pairCentre_stopped h),
    fun s src p v d hs ht => ⟨fun h => exec_pwmPerWrite_takes hs ht (Dev.perWrite_zero _ h),
      fun hlo hhi => exec_pwmPerWrite_takes hs ht (Dev.perWrite_inside _ hlo hhi),
      fun hpos hlow => exec_pwmPerWrite_takes hs ht (Dev.perWrite_below _ hpos hlow),
      fun hhigh => exec_pwmPerWrite_takes hs ht (Dev.perWrite_above _ hhigh)⟩,
    fun s src v d hs ht => State.lift_gate_eq hs ht rfl,
    fun d v e hsync hen he => he ▸ Dev.pwmCtl_sync hsync hen,
    fun d p ph hph => ⟨fun h => (Dev.pairSync_phase hph).trans (if_pos h),
      fun h => (Dev.pairSync_phase hph).trans (if_neg h)⟩,
    fun s fr hs => ⟨fun h => exec_convFltFall_awake hs (Dev.convFltFall_low h fr),
      fun h hfr => exec_convFltFall_awake hs ((Dev.convFltFall_high h fr).trans (if_pos hfr)),
      fun h hfr => exec_convFltFall_awake hs ((Dev.convFltFall_high h fr).trans (if_neg (by simp [hfr])))⟩,
    fun s hs => State.lift_awake_eq hs rfl,
    fun s src v d hs ht => ⟨fun h => State.lift_gate_eq hs ht (Dev.blkClr_zero h),
      fun h hcond => State.lift_gate_eq hs ht ((Dev.blkClr_one h).trans (if_pos hcond)),
      fun h hcond => State.lift_gate_eq hs ht ((Dev.blkClr_one h).trans (if_neg (by simp [hcond])))⟩⟩
  case outputs =>
    subst hx
    refine ⟨(Dev.pairHigh_live hon hlive u).trans ?_, Dev.pairLow_released hon hlive hpulse hfirst u⟩
    rw [hrise]
    omega
  case loads => rw [if_pos (by simp [hcent, hload])]; rfl
  case keeps => rw [if_neg (by rcases h with h | h <;> simp [h])]

end Sys2Proof.Machine
end

section
/-! SUPPORT. The mailbox, the reference and the start of the local profile. -/

namespace Sys2Proof.Machine

/-! ### Mailbox words (R266, R401) -/

theorem Dev.mbWrite_shade {d : Dev} (h : d.role = 2) (m w : Nat) (v : Word) : d.mbWrite m w v = d := if_pos h

/-- Words 1 to 3 wait beside the mailbox for a commit. -/
theorem Dev.mbWrite_stages {d : Dev} (h : d.role ≠ 2) (m : Nat) {w : Nat} (hw : w ≠ 0) (v : Word) :
    d.mbWrite m w v = { d with dsp := { d.dsp with stage := putO d.dsp.stage (4 * m + w) (some v) } } :=
  (if_neg h).trans (if_neg hw)

theorem Dev.mbWrite_valid {d : Dev} {v : Word} (h : d.role ≠ 2) (hv : bitOf v 31 = true) (m : Nat) :
    d.mbWrite m 0 v = d.mbCommit m v :=
  (if_neg h).trans ((if_pos rfl).trans (if_pos hv))

theorem Dev.mbWrite_stores {d : Dev} {v : Word} (h : d.role ≠ 2) (hv : bitOf v 31 = false) (m : Nat) :
    d.mbWrite m 0 v = d.plainWrite (Reg.DSP_MB m 0) v :=
  (if_neg h).trans ((if_pos rfl).trans (if_neg (by simp [hv])))

/-! ### The commit (R266, R270) -/

/-- The words a commit takes: those staged, and those in the slot where none is staged. -/
def Dev.mbStaged (d : Dev) (m w : Nat) : Word := (getO d.dsp.stage (4 * m + w)).getD (d.mbW m w)

/-- Slot `m` holds the words of a commit, with RES and its reserved fields zero. -/
def Dev.mbTake (d : Dev) (m : Nat) (v : Word) : Dev :=
  (List.range 4).foldl (fun (e : Dev) w => e.wr (Reg.DSP_MB m w)
    (([v &&& 0xE000FFFF, d.mbStaged m 1, d.mbStaged m 2, d.mbStaged m 3 &&& 0x3FFFFFFF][w]?).getD 0)) d

/-- Nothing is staged for slot `m` any more, the full seconds of its time are formed, MBTO clears, and the timer of R270
restarts. -/
def Dev.mbRestart (a : Dev) (m : Nat) : Dev :=
  Dev.start (Dev.setBit
    { a with
      dsp := { a.dsp with
        stage := (List.range 4).foldl (fun l w => putO l (4 * m + w) none) a.dsp.stage
        tfull := putN a.dsp.tfull m (a.fullSec (a.mbW m 2)) } }
    Reg.DSP_STAT 4 false) Tm.mailbox

/-- A commit over a valid command sets REPL, with entry 0x6003. -/
def Dev.mbReplaced (d : Dev) (m : Nat) : Dev :=
  if bitOf (d.mbW m 0) 31 then (d.flag Reg.DSP_STAT 2).hw 0x6003 [nw m] else d

/-- A duty forwards the committed words to its shade (R401). -/
def Dev.mbForward (d : Dev) (m : Nat) (raw : List Word) : Dev :=
  if d.hasShade then (d.send .twin 0x08 ([m, 0, 0, 0] ++ byteNats (wordsBytes raw))).cue 4 m else d

/-- The check of Table 10.1 rejects the slot or leaves it valid. -/
def Dev.mbJudge (d : Dev) (m : Nat) (reserved : Bool) : Dev :=
  match d.mbCheck m reserved with
  | some c => d.mbReject m c
  | none => d

/-- The parts of a commit, in their order. -/
theorem Dev.mbCommit_eq {d e : Dev} {m : Nat} (v : Word) (he : d.mbReplaced m = e) : d.mbCommit m v =
    ((((e.mbTake m v).mbRestart m).mbForward m [v, e.mbStaged m 1, e.mbStaged m 2, e.mbStaged m 3]).mbJudge m
      (fieldOf v 28 24 != 0 || fieldOf (e.mbStaged m 3) 31 30 != 0)).reform := by
  subst he
  rfl

/-- A commit over no valid command, by a module with no shade: nothing is replaced or forwarded. -/
theorem Dev.mbCommit_empty {d b : Dev} {m : Nat} {v : Word} (hold : bitOf (d.mbW m 0) 31 = false)
    (hb : (d.mbTake m v).mbRestart m = b) (hshade : b.hasShade = false) : d.mbCommit m v =
      (b.mbJudge m (fieldOf v 28 24 != 0 || fieldOf (d.mbStaged m 3) 31 30 != 0)).reform := by
  have hkeep : d.mbReplaced m = d := if_neg (by simp [hold])
  have halone (raw : List Word) : b.mbForward m raw = b := if_neg (by simp [hshade])
  rw [Dev.mbCommit_eq v hkeep, hb, halone]

/-! ### The application of a slot (R267) -/

theorem Dev.mbApply_invalid {d : Dev} {m : Nat} (h : bitOf (d.mbW m 0) 31 = false) : d.mbApply m = d := if_pos h

/-- A valid slot with ATTIME waits for its time. -/
theorem Dev.mbApply_early {d : Dev} {m : Nat} (hvalid : bitOf (d.mbW m 0) 31 = true)
    (hat : bitOf (d.mbW m 0) 29 = true) (hearly : d.localNs < d.mbTime m) : d.mbApply m = d :=
  (if_neg (by simp [hvalid])).trans (if_pos (by simp [hat, hearly]))

/-- A slot whose time has come while TIM_STAT.VALID is 0 is rejected with code 4. -/
theorem Dev.mbApply_unsynced {d : Dev} {m : Nat} (hvalid : bitOf (d.mbW m 0) 31 = true)
    (hat : bitOf (d.mbW m 0) 29 = true) (hdue : d.mbTime m ≤ d.localNs) (hsync : d.bit Reg.TIM_STAT 0 = false) :
    d.mbApply m = d.mbReject m 4 :=
  (if_neg (by simp [hvalid])).trans ((if_neg (by simp [hdue])).trans (if_pos (by simp [hat, hsync])))

/-! ### The reference (R269) -/

/-- One microsecond of the reference itself: a program that has claimed CE keeps CE_DSPREF. -/
def Dev.slewStep (d : Dev) : Dev :=
  if d.manages (blockOf Reg.CE_CTL) = false then d else (d.wr Reg.CE_DSPREF (iw d.slewNext)).slewing

/-- RAMPDOWN of a rotation ends when the reference has come to zero. -/
def Dev.rampEnd (d : Dev) : Dev :=
  if d.dspBasic = true ∧ d.rotState = 2 ∧ d.rd Reg.CE_DSPREF = 0 then d.rotSet 3 0 else d

theorem Dev.slew_eq (d : Dev) : d.slew = d.slewStep.rampEnd.rotReturn := by
  have hstep : d.slewStep = if !d.manages (blockOf Reg.CE_CTL) then d
      else (d.wr Reg.CE_DSPREF (iw d.slewNext)).slewing := by simp [Dev.slewStep]
  have hramp (e : Dev) : e.rampEnd = if e.dspBasic && e.rotState = 2 && e.rd Reg.CE_DSPREF = 0 then e.rotSet 3 0
      else e := by simp [Dev.rampEnd, and_assoc]
  rw [hramp, hstep]
  rfl

/-- The rate that bounds the reference: DSP_ROTSLEW in RAMPDOWN and RETURN, else DSP_SLEW. -/
def Dev.slewRate (d : Dev) : Int :=
  d.fld (if d.rotState = 2 || d.rotState = 4 then Reg.DSP_ROTSLEW else Reg.DSP_SLEW) 23 0

theorem Dev.slewNext_unlimited {d : Dev} (h : d.slewRate = 0) : d.slewNext = d.rdI Reg.DSP_TARGET := if_pos h

theorem Dev.slewNext_limited {d : Dev} (h : d.slewRate ≠ 0) : d.slewNext = d.rdI Reg.CE_DSPREF +
    clampI (-d.slewRate) d.slewRate (d.rdI Reg.DSP_TARGET - d.rdI Reg.CE_DSPREF) := if_neg h

theorem Dev.slewRate_nonneg (d : Dev) : 0 ≤ d.slewRate := Int.natCast_nonneg _

theorem Dev.slewNext_reaches {d : Dev} (h : d.slewRate ≠ 0)
    (hnear : ((d.rdI Reg.DSP_TARGET - d.rdI Reg.CE_DSPREF).natAbs : Int) ≤ d.slewRate) :
    d.slewNext = d.rdI Reg.DSP_TARGET := by
  rw [Dev.slewNext_limited h, clampI_in (by omega) (by omega)]
  omega

theorem Dev.slewNext_rises {d : Dev} (h : d.slewRate ≠ 0)
    (hfar : d.slewRate < d.rdI Reg.DSP_TARGET - d.rdI Reg.CE_DSPREF) :
    d.slewNext = d.rdI Reg.CE_DSPREF + d.slewRate := by
  have hnn := d.slewRate_nonneg
  rw [Dev.slewNext_limited h, clampI_high hfar (by omega)]

theorem Dev.slewNext_falls {d : Dev} (h : d.slewRate ≠ 0)
    (hfar : d.slewRate < d.rdI Reg.CE_DSPREF - d.rdI Reg.DSP_TARGET) :
    d.slewNext = d.rdI Reg.CE_DSPREF - d.slewRate := by
  rw [Dev.slewNext_limited h, clampI_low (by omega)]
  rfl

/-! ### The mailbox timeout (R270) -/

/-- DSP_MBTO is set, no timeout stands, and the time since the last commit has passed it. -/
def Dev.mbLapsed (d : Dev) : Prop :=
  d.fld Reg.DSP_MBTO 15 0 ≠ 0 ∧ d.bit Reg.DSP_STAT 4 = false ∧
    d.due Tm.mailbox (msT (d.fld Reg.DSP_MBTO 15 0)) = true

theorem Dev.mbTimeout_lapsed {d : Dev} (h : d.mbLapsed) :
    d.mbTimeout = ((d.flag Reg.DSP_STAT 4).hw 0x6004 []).reform := by
  obtain ⟨hset, hclear, hdue⟩ := h
  exact if_pos (by simp [hset, hclear, hdue])

theorem Dev.mbTimeout_waits {d : Dev} (h : ¬ d.mbLapsed) : d.mbTimeout = d :=
  if_neg (by simpa [Dev.mbLapsed, and_assoc] using h)

/-! ### The start of the local profile (R276) -/

/-- The profile runs from its first step, with no repeats counted; a grading run begins with it when EST_CTL asks for
one. -/
def Dev.profStart (d : Dev) : Dev :=
  let f := if d.bit Reg.EST_CTL 1 then d.gradeBegin else d
  Dev.profEnter { f with dsp := { f.dsp with running := true, loops := [] } } 20000 0

section
variable {d e : Dev} {v : Word} (he : (d.plainWrite Reg.DSP_CTL v).reform.cond10 = e)
include he

theorem Dev.dspCtl_stops (hsrc : bitOf v 2 = false) :
    d.dspCtl v = { e with dsp := { e.dsp with running := false } } := by
  subst he
  exact (if_neg (by simp [hsrc])).trans (if_neg (by simp [hsrc]))

theorem Dev.dspCtl_keeps (hsrc : bitOf v 2 = true) (h : e.dspBasic = false ∨ e.dsp.steps = []) :
    d.dspCtl v = e := by
  subst he
  exact (if_neg (by rcases h with h | h <;> simp [h])).trans (if_pos hsrc)

theorem Dev.dspCtl_starts (hgo : bitOf v 1 = true) (hsrc : bitOf v 2 = true) (hbasic : e.dspBasic = true)
    (hsteps : e.dsp.steps ≠ []) : d.dspCtl v = e.profStart := by
  subst he
  exact if_pos (by simp [hgo, hsrc, hbasic, hsteps])

end

/-! ### The commands with their effects named -/

theorem exec_mailboxWordWrite_takes {s : State} {src : Writer} {m w : BitVec 2} {v : Word} {d e : Dev}
    (hs : s.dev.asleep = false) (ht : s.dev.takes src (Reg.DSP_MB m.toNat w.toNat) = some d)
    (he : d.mbWrite m.toNat w.toNat v = e) : exec (.mailboxWordWrite src m w v) s = .next (s.on e) :=
  State.lift_gate_eq (f := fun d => d.mbWrite m.toNat w.toNat v) hs ht he

theorem exec_mailboxCommit_takes {s : State} {src : Writer} {m : BitVec 2} {v : Word} {d e : Dev}
    (hs : s.dev.asleep = false) (ht : s.dev.takes src (Reg.DSP_MB m.toNat 0) = some d)
    (he : d.mbWrite m.toNat 0 v = e) : exec (.mailboxCommit src m v) s = .next (s.on e) :=
  State.lift_gate_eq (f := fun d => d.mbWrite m.toNat 0 v) hs ht he

theorem exec_profileGo_takes {s : State} {src : Writer} {v : Word} {d e : Dev} (hs : s.dev.asleep = false)
    (ht : s.dev.takes src Reg.DSP_CTL = some d) (he : d.dspCtl (withBit v 1 true) = e) :
    exec (.profileGo src v) s = .next (s.on e) :=
  State.lift_gate_eq (f := fun d => d.dspCtl (withBit v 1 true)) hs ht he

/-- Settles O46: mailbox writes and commits, the application of a slot, the reference, the mailbox timeout, and the
start of the local profile. -/
theorem dispatchCommands : Obligations.DispatchCommands := by
  unfold Obligations.DispatchCommands
  refine ⟨fun s src m w v d hs ht => ⟨fun h => exec_mailboxWordWrite_takes hs ht (Dev.mbWrite_shade h _ _ v),
      fun h hw => exec_mailboxWordWrite_takes hs ht (Dev.mbWrite_stages h _ (mt (BitVec.eq_of_toNat_eq (y := 0)) hw) v),
      ?valid, ?stores⟩,
    fun s src m v d hs ht => ⟨fun h => exec_mailboxCommit_takes hs ht (Dev.mbWrite_shade h _ 0 v),
      fun h hv => exec_mailboxCommit_takes hs ht (Dev.mbWrite_valid h hv _),
      fun h hv => exec_mailboxCommit_takes hs ht (Dev.mbWrite_stores h hv _)⟩,
    ?commit,
    fun d m => ⟨Dev.mbApply_invalid, Dev.mbApply_early, Dev.mbApply_unsynced⟩,
    ?slew, ?next,
    fun s hs hset hclear hdue => State.lift_awake_eq hs (Dev.mbTimeout_lapsed ⟨hset, hclear, hdue⟩),
    fun s hs h => State.lift_awake_eq hs (Dev.mbTimeout_waits h),
    fun s src v d e hs ht he => ⟨fun hsrc => exec_profileGo_takes hs ht (Dev.dspCtl_stops he hsrc),
      fun hsrc h => exec_profileGo_takes hs ht (Dev.dspCtl_keeps he hsrc h),
      fun hsrc hbasic hsteps => exec_profileGo_takes hs ht (Dev.dspCtl_starts he ?go hsrc hbasic hsteps)⟩⟩
  case valid =>
    rintro h rfl hv
    exact exec_mailboxWordWrite_takes hs ht (Dev.mbWrite_valid h hv _)
  case stores =>
    rintro h rfl hv
    exact exec_mailboxWordWrite_takes hs ht (Dev.mbWrite_stores h hv _)
  case commit =>
    rintro d m v st a b hold rfl rfl hb hshade
    exact Dev.mbCommit_empty hold hb hshade
  case slew =>
    rintro s e f hs rfl rfl
    exact State.lift_awake_eq hs s.dev.slew_eq
  case next =>
    rintro d r cur t rfl rfl rfl
    exact ⟨Dev.slewNext_unlimited, Dev.slewNext_reaches, Dev.slewNext_rises, Dev.slewNext_falls⟩
  case go => rw [bitOf_withBit v (by decide), if_pos rfl]

end Sys2Proof.Machine
end

section
/-! SUPPORT. The temperature feeds, the tachometers, and the axes: servo periods, step pulses, replies, targets and
commands. -/

namespace Sys2Proof.Machine

/-! ### Temperature feeds (R282) -/

theorem Dev.feedCfg_refuses {d : Dev} {v : Word} (n : Nat) (hen : bitOf v 31 = true)
    (htemp : isTemp (fieldOf v 10 0) = false) : d.feedCfg n v = d :=
  if_pos (by simp [hen, htemp])

theorem Dev.feedCfg_stores {d : Dev} {v : Word} (n : Nat)
    (h : bitOf v 31 = false ∨ isTemp (fieldOf v 10 0) = true) :
    d.feedCfg n v = d.plainWrite (Reg.MOT_TFDCFG n) v :=
  if_neg (by rcases h with h | h <;> simp [h])

/-! ### Pumps and fans (R284, R285) -/

/-- An edge gives no speed without a pulse count, without an edge before it, and in the microsecond of that edge. -/
theorem Dev.tachEdge_starts {d : Dev} {f : Nat} (h : d.fld (Reg.MOT_FANCFG f) 27 24 = 0 ∨
    d.running (Tm.tach f) = false ∨ d.since (Tm.tach f) / 125 = 0) : d.tachEdge f = d.start (Tm.tach f) :=
  if_pos (by rcases h with h | h | h <;> simp [h])

/-- Every other edge leaves the speed of its period `p`, in µs; a stalled output at MINRPM or above has recovered. -/
theorem Dev.tachEdge_measures {d e : Dev} {f p q : Nat} (hq : d.fld (Reg.MOT_FANCFG f) 27 24 = q) (hq0 : q ≠ 0)
    (hrun : d.running (Tm.tach f) = true) (hp : d.since (Tm.tach f) / 125 = p) (hp0 : p ≠ 0)
    (he : ((d.start (Tm.tach f)).setFld (Reg.MOT_FANRPM f) 15 0 (satN 65535 (60000000 / (p * q)))).fanWatch f = e) :
    d.tachEdge f =
      if e.bit Reg.MOT_STAT (16 + f) = true ∧ e.fld (Reg.MOT_FANSUP f) 31 16 ≤ satN 65535 (60000000 / (p * q)) then
        (e.setBit Reg.MOT_STAT (16 + f) false).hw 0x7011 [nw f]
      else e := by
  subst hq hp he
  have hgo : ¬ (d.fld (Reg.MOT_FANCFG f) 27 24 = 0 || d.running (Tm.tach f) = false ||
      d.since (Tm.tach f) / 125 = 0) = true := by simp [hq0, hrun, hp0]
  exact (if_neg hgo).trans (by simp only [Bool.and_eq_true, decide_eq_true_eq])

/-- How long RPM has stayed below MINRPM: after a last speed of MINRPM or more, from 1 s after the last edge. -/
def Dev.fanLow (e : Dev) (f : Nat) : Nat :=
  if e.running (Tm.tach f) = true ∧ e.fld (Reg.MOT_FANSUP f) 31 16 ≤ e.fld (Reg.MOT_FANRPM f) 15 0 then
    e.since (Tm.tach f) - secT 1
  else e.since (Tm.slow f)

/-- Output `f`, which counts pulses, has been below MINRPM for its stall time, and its bit is not set yet. -/
def Dev.fanStalls (e : Dev) (f : Nat) : Prop :=
  e.fld (Reg.MOT_FANCFG f) 27 24 ≠ 0 ∧ msT (e.fld (Reg.MOT_FANSUP f) 15 0) ≠ 0 ∧ e.running (Tm.slow f) = true ∧
    msT (e.fld (Reg.MOT_FANSUP f) 15 0) ≤ e.fanLow f ∧ e.bit Reg.MOT_STAT (16 + f) = false

theorem Dev.not_fanStalls {e : Dev} {f : Nat} (h : e.fld (Reg.MOT_FANCFG f) 27 24 = 0 ∨
    msT (e.fld (Reg.MOT_FANSUP f) 15 0) = 0 ∨ e.running (Tm.slow f) = false ∨
    e.fanLow f < msT (e.fld (Reg.MOT_FANSUP f) 15 0) ∨ e.bit Reg.MOT_STAT (16 + f) = true) : ¬ e.fanStalls f := by
  rintro ⟨hcfg, ht, hrun, hlow, hbit⟩
  rcases h with h | h | h | h | h
  · exact hcfg h
  · exact ht h
  · simp [hrun] at h
  · exact Nat.not_lt.2 hlow h
  · simp [hbit] at h

theorem Dev.fanStall_stalls {d e : Dev} {f : Nat} (he : d.fanWatch f = e) (h : e.fanStalls f) :
    d.fanStall f = (e.setBit Reg.MOT_STAT (16 + f) true).hw 0x7010 [nw f] := by
  subst he
  exact if_pos (by simpa [Dev.fanStalls, Dev.fanLow, and_assoc] using h)

theorem Dev.fanStall_keeps {d e : Dev} {f : Nat} (he : d.fanWatch f = e) (h : ¬ e.fanStalls f) : d.fanStall f = e := by
  subst he
  exact if_neg (by simpa [Dev.fanStalls, Dev.fanLow, and_assoc] using h)

theorem exec_tachEdge_awake {s : State} {f : BitVec 2} {e : Dev} (hs : s.dev.asleep = false)
    (he : s.dev.tachEdge f.toNat = e) : exec (.tachEdge f) s = .next (s.on e) :=
  exec_awake_eq hs (fun d => d.tachEdge f.toNat) rfl he

theorem exec_fanStall_awake {s : State} {f : BitVec 2} {e : Dev} (hs : s.dev.asleep = false)
    (he : s.dev.fanStall f.toNat = e) : exec (.fanStall f) s = .next (s.on e) :=
  exec_awake_eq hs (fun d => d.fanStall f.toNat) rfl he

/-! ### The servo period (R286) -/

/-- A servo period is due: motion is enabled, the module does not shed, and MOT_SERVO, which is not zero, has passed or
has not begun. -/
def Dev.servoDue (d : Dev) : Prop :=
  d.bit Reg.MOT_CTL 0 = true ∧ d.shedding = false ∧ d.fld Reg.MOT_SERVO 23 0 ≠ 0 ∧
    (d.running Tm.servo = false ∨ d.due Tm.servo (usT (d.fld Reg.MOT_SERVO 23 0)) = true)

theorem Dev.servo_due {d : Dev} (h : d.servoDue) :
    d.servo = ((List.range 4).foldl (fun d a => d.servoAxis a) (d.start Tm.servo)).homeNext :=
  if_pos (by simpa [Dev.servoDue, and_assoc] using h)

theorem Dev.servo_waits {d : Dev} (h : ¬ d.servoDue) : d.servo = d :=
  if_neg (by simpa [Dev.servoDue, and_assoc] using h)

/-- An axis of MODE 0 that does not move is left as it is. -/
theorem Dev.servoAxis_still {d : Dev} {a : Nat} (hstill : d.axMoving a = false)
    (hmode : d.bit (Reg.MOT_CFG a) 30 = false) : d.servoAxis a = d := by
  simp [Dev.servoAxis, hstill, hmode]

/-- A moving axis of MODE 0 takes its speed and meets its limits; DIR and its step timer follow while it has a speed. -/
theorem Dev.servoAxis_moves {d e : Dev} {a : Nat} (hmove : d.axMoving a = true)
    (he : (d.servoSpeed a).limitCheck a = e) (hgoes : e.axMoving a = true) (hmode : d.bit (Reg.MOT_CFG a) 30 = false)
    (hv : (((e.dirTurn a).stepTimer a).axis a).v ≠ 0) : d.servoAxis a = (e.dirTurn a).stepTimer a := by
  simp [Dev.servoAxis, hmove, he, hgoes, hmode, hv]

/-! ### Step pulses (R287, R288, R292) -/

/-- Axis `a` may step: motion is enabled and not shed, the axis moves in MODE 0 with a speed, SRMAX and MOT_SERVO are
set, and DIR has led long enough. -/
def Dev.stepsOn (d : Dev) (a : Nat) : Prop :=
  d.bit Reg.MOT_CTL 0 = true ∧ d.shedding = false ∧ d.axMoving a = true ∧ d.bit (Reg.MOT_CFG a) 30 = false ∧
    (d.axis a).v ≠ 0 ∧ d.fld Reg.MOT_SRMAX 17 0 ≠ 0 ∧ d.fld Reg.MOT_SERVO 23 0 ≠ 0 ∧ d.dirLead a = false

/-- A pulse waits while one of these conditions fails, and while the step timer does not run. -/
theorem Dev.stepPulse_waits {d : Dev} {a : Nat} (h : d.bit Reg.MOT_CTL 0 = false ∨ d.shedding = true ∨
    d.axMoving a = false ∨ d.bit (Reg.MOT_CFG a) 30 = true ∨ (d.axis a).v = 0 ∨ d.fld Reg.MOT_SRMAX 17 0 = 0 ∨
    d.fld Reg.MOT_SERVO 23 0 = 0 ∨ d.dirLead a = true ∨ (d.axis a).stepDue = none) : d.stepPulse a = d :=
  if_pos (by rcases h with h | h | h | h | h | h | h | h | h <;> simp [h])

theorem Dev.stepPulse_early {d : Dev} {a q : Nat} (h : (d.axis a).stepDue = some q) (hearly : 2 * d.now < q) :
    d.stepPulse a = d :=
  if_pos (by simp [h, hearly])

/-- The signed units of a pulse of exponent `k` in the direction of the axis. -/
def Dev.stepUnits (d : Dev) (a k : Nat) : Int :=
  if (d.axis a).v > 0 then ((2 ^ k : Nat) : Int) else -((2 ^ k : Nat) : Int)

/-- The travel budget does not hold 2^k more units. -/
def Dev.budgetShort (d : Dev) (a k : Nat) : Bool :=
  match d.axBudget a with
  | some l => decide (l < 2 ^ k)
  | none => false

theorem Dev.budgetShort_none {d : Dev} {a : Nat} (h : d.axBudget a = none) (k : Nat) : d.budgetShort a k = false := by
  simp only [Dev.budgetShort, h]

theorem Dev.budgetShort_some {d : Dev} {a l : Nat} (h : d.axBudget a = some l) (k : Nat) :
    d.budgetShort a k = decide (l < 2 ^ k) := by
  simp only [Dev.budgetShort, h]

/-- A pulse of exponent `k`, as far as the goal of the move and the travel budget allow it. -/
def Dev.stepIssue (d : Dev) (a k : Nat) : Dev :=
  if d.stepMay a k = false then d
  else if d.budgetShort a k = true then (d.axOver a).homeNext
  else d.stepMove a k (d.stepUnits a k)

/-- A step timer that has run to `q`, of an axis that its limits let go on, is reloaded from `q` and issues a pulse. -/
theorem Dev.stepPulse_due {d e f : Dev} {a q k : Nat} (hon : d.stepsOn a) (hq : (d.axis a).stepDue = some q)
    (hdue : q ≤ 2 * d.now) (he : d.limitCheck a = e) (hgoes : e.axMoving a = true) (hv : (e.axis a).v ≠ 0)
    (hk : e.stepExp a = k) (hf : (e.setFld (Reg.MOT_ST a) 27 25 k).stepReload a q = f) :
    d.stepPulse a = f.stepIssue a k := by
  subst he hk hf
  obtain ⟨hctl, hshed, hmove, hmode, hspeed, hrate, hservo, hlead⟩ := hon
  refine (if_neg (by simp [hctl, hshed, hmove, hmode, hspeed, hrate, hservo, hlead, hq, hdue])).trans ?_
  refine (if_neg (by simp [hgoes, hv])).trans ?_
  rw [hq]
  rfl

theorem Dev.stepIssue_denied {d : Dev} {a k : Nat} (h : d.stepMay a k = false) : d.stepIssue a k = d := if_pos h

theorem Dev.stepIssue_moves {d : Dev} {a k : Nat} (hmay : d.stepMay a k = true) (hfits : d.budgetShort a k = false) :
    d.stepIssue a k = d.stepMove a k (d.stepUnits a k) :=
  (if_neg (by simp [hmay])).trans (if_neg (by simp [hfits]))

theorem Dev.stepIssue_over {d : Dev} {a k : Nat} (hmay : d.stepMay a k = true) (hshort : d.budgetShort a k = true) :
    d.stepIssue a k = (d.axOver a).homeNext :=
  (if_neg (by simp [hmay])).trans (if_pos hshort)

theorem exec_stepPulse_awake {s : State} {a : BitVec 2} {e : Dev} (hs : s.dev.asleep = false)
    (he : s.dev.stepPulse a.toNat = e) : exec (.stepPulse a) s = .next (s.on e) :=
  exec_awake_eq hs (fun d => d.stepPulse a.toNat) rfl he

/-! ### STEP, DIR and EN (R288, R296) -/

section
variable {d : Dev} {a : Nat} {x : AxisSt} {w : Bool} (hx : d.axis a = x)
  (hw : (decide (x.v > 0) != d.bit (Reg.MOT_CFG a) 28) = w)
include hx hw

theorem Dev.dirTurn_keeps (h : x.v = 0 ∨ x.dir = w) : d.dirTurn a = d := by
  subst hx hw
  exact if_pos (by simpa using h)

theorem Dev.dirTurn_turns (hv : x.v ≠ 0) (hdir : x.dir ≠ w) :
    d.dirTurn a = d.setAxis a { x with dir := w, dirAt := some d.now } := by
  subst hx hw
  exact if_neg (by simpa using ⟨hv, hdir⟩)

end

theorem Dev.stepMove_still {d e : Dev} {a : Nat} {n : Int} (he : d.axMove a n = e) (k : Nat)
    (h : e.axPos a = d.axPos a) : d.stepMove a k n = e := by
  subst he
  exact if_pos h

theorem Dev.stepMove_rises {d e : Dev} {a : Nat} {n : Int} (he : d.axMove a n = e) (k : Nat)
    (h : e.axPos a ≠ d.axPos a) : d.stepMove a k n = e.stepRise a k := by
  subst he
  exact if_neg h

theorem Dev.stepRise_coded {d : Dev} {a : Nat} (k : Nat) (h : d.bit (Reg.MOT_CFG a) 29 = true) :
    d.stepRise a k = d.setAxis a { d.axis a with stepAt := some (d.now, usT (1 + k)) } := by
  rw [Dev.stepRise, if_pos h]

theorem Dev.stepRise_plain {d : Dev} {a : Nat} (k : Nat) (h : d.bit (Reg.MOT_CFG a) 29 = false) :
    d.stepRise a k = d.setAxis a { d.axis a with stepAt := some (d.now, usT 2) } := by
  rw [Dev.stepRise, if_neg (by simp [h])]

theorem Dev.axPins_floating {d : Dev} (a : Nat) (h : d.leads = false) : d.axPins a = none := if_neg (by simp [h])

theorem Dev.axPins_driven {d : Dev} (a : Nat) (h : d.leads = true) :
    d.axPins a = some ((d.axis a).stepAt.any (fun p => decide (d.now < p.1 + p.2)), (d.axis a).dir,
      d.axState a != 0 && d.axState a != 4 && !d.mot.enLow && !d.pwr.rstHeld) := if_pos h

/-! ### Replies of MODE 1 actuators (R289, R293) -/

theorem Dev.actReply_ignored {d : Dev} {a : Nat} (h : d.axMode1 a = false ∨ d.canLive 1 = false) (q fl : Nat) :
    d.actReply a q fl = d := if_pos (by simpa using h)

/-- A reply with the sequence of its axis, the axis being `x`: the flags of the actuator are taken, with its fault and
with a home input that has become active. -/
def Dev.actTake (e : Dev) (a fl : Nat) (x : AxisSt) : Dev :=
  let d := e.setAxis a { x with
    replied := true, missed := 0, actOk := !decide (fl % 2 = 1), homeSw := decide (fl / 2 % 2 = 1) }
  if fl % 2 = 1 ∧ e.axState a ≠ 4 ∧ e.axState a ≠ 0 then d.axFault a 6 (e.bit (Reg.MOT_CFG a) 27)
  else if fl / 2 % 2 = 1 ∧ x.homeSw = false ∧ e.fld (Reg.MOT_CFG a) 4 0 = 30 then d.homeEdge a
  else d

section
variable {d e : Dev} {a : Nat} {x : AxisSt} (hmode : d.axMode1 a = true) (hlive : d.canLive 1 = true)
  (he : d.canTaken 1 (121 + 2 * a) = e) (hx : e.axis a = x)
include hmode hlive he hx

theorem Dev.actReply_stale {q : Nat} (hq : q ≠ x.seq) (fl : Nat) : d.actReply a q fl = e := by
  subst hx he
  exact (if_neg (by simp [hmode, hlive])).trans (if_pos (by simp [hq]))

theorem Dev.actReply_current {q : Nat} (hq : q = x.seq) (fl : Nat) : d.actReply a q fl = e.actTake a fl x := by
  subst hx he hq
  refine (if_neg (by simp [hmode, hlive])).trans ((if_neg (by simp)).trans ?_)
  simp only [Dev.actTake, Bool.and_eq_true, decide_eq_true_eq, bne_iff_ne, ne_eq, Bool.not_eq_true', and_assoc]
  rfl

end

section
variable {e : Dev} {a fl : Nat} {x : AxisSt}

theorem Dev.actTake_plain (hflt : fl % 2 = 0)
    (h : x.homeSw = true ∨ fl / 2 % 2 = 0 ∨ e.fld (Reg.MOT_CFG a) 4 0 ≠ 30) :
    e.actTake a fl x = e.setAxis a { x with
      replied := true, missed := 0, actOk := true, homeSw := decide (fl / 2 % 2 = 1) } := by
  have hedge : ¬ (fl / 2 % 2 = 1 ∧ x.homeSw = false ∧ e.fld (Reg.MOT_CFG a) 4 0 = 30) := by
    rintro ⟨hsw, hwas, hcfg⟩
    rcases h with h | h | h
    · simp [h] at hwas
    · omega
    · exact h hcfg
  simp [Dev.actTake, hflt, hedge]

theorem Dev.actTake_home (hflt : fl % 2 = 0) (hwas : x.homeSw = false) (hsw : fl / 2 % 2 = 1)
    (hcfg : e.fld (Reg.MOT_CFG a) 4 0 = 30) :
    e.actTake a fl x =
      (e.setAxis a { x with replied := true, missed := 0, actOk := true, homeSw := true }).homeEdge a := by
  simp [Dev.actTake, hflt, hwas, hsw, hcfg]

theorem Dev.actTake_fault (hflt : fl % 2 = 1) (hnofault : e.axState a ≠ 4) (hnooff : e.axState a ≠ 0) :
    e.actTake a fl x = (e.setAxis a { x with
      replied := true, missed := 0, actOk := false, homeSw := decide (fl / 2 % 2 = 1) }).axFault a 6
      (e.bit (Reg.MOT_CFG a) 27) := by
  simp [Dev.actTake, hflt, hnofault, hnooff]

end

/-- Firmware homes the next axis after a reply, if a run has ended with it (R297). -/
theorem exec_actuatorReply_awake {s : State} {a : BitVec 2} {q fl : Byte} {e : Dev} (hs : s.dev.asleep = false)
    (he : s.dev.actReply a.toNat q.toNat fl.toNat = e) : exec (.actuatorReply a q fl) s = .next (s.on e.homeNext) :=
  exec_awake_eq hs (fun d => (d.actReply a.toNat q.toNat fl.toNat).homeNext) rfl (congrArg Dev.homeNext he)

/-! ### Targets (R283, R292) -/

theorem Dev.targetWrite_named {d : Dev} {src : Writer} {a : Nat} (hsrc : src = .program)
    (hslot : d.slotNames 2 a = true) (v : Word) : d.targetWrite src a v = d :=
  if_pos (by simp [hsrc, hslot])

theorem Dev.targetWrite_takes {d : Dev} {src : Writer} {a : Nat}
    (h : src ≠ .program ∨ d.slotNames 2 a = false) (v : Word) : d.targetWrite src a v = d.axTarget a v.toInt :=
  if_neg (by rcases h with h | h <;> simp [h])

/-- A target of an axis that is OFF or in FAULT is stored and moves nothing. -/
theorem Dev.axTarget_stores {d : Dev} {a : Nat} (t : Int) (hhoming : d.axState a ≠ 2) (hhomed : d.axState a ≠ 3)
    (hunhomed : d.axState a ≠ 1) :
    d.axTarget a t = (d.setBit (Reg.MOT_ST a) 24 false).wr (Reg.MOT_TGT a) (iw t) := by
  simp [Dev.axTarget, hhoming, hhomed, hunhomed]

theorem Dev.axTarget_homing {d : Dev} {a : Nat} (t : Int) (h : d.axState a = 2) :
    d.axTarget a t = d.setBit (Reg.MOT_ST a) 24 false := by
  simp [Dev.axTarget, h]

/-- A target of a homed axis is clamped to the virtual limits and moves the axis, unless it stands there. -/
theorem Dev.axTarget_homed {d e : Dev} {a : Nat} {t c : Int} (h : d.axState a = 3)
    (hc : clampI (d.rdI (Reg.MOT_VLIMLO a)) (d.rdI (Reg.MOT_VLIMHI a)) t = c)
    (he : (d.setBit (Reg.MOT_ST a) 24 (c != t)).wr (Reg.MOT_TGT a) (iw c) = e) :
    d.axTarget a t = if c = e.axPos a ∧ (e.axis a).v = 0 then e.axBusy a false else (e.axBusy a true).limitCheck a := by
  subst hc he
  simp [Dev.axTarget, h]

/-! ### MOT_CMD (R292 to R294, R299) -/

theorem Dev.homeStart_ignored {d : Dev} {a : Nat} (hunhomed : d.axState a ≠ 1) (hhomed : d.axState a ≠ 3) :
    d.homeStart a = d := if_neg (by simp [hunhomed, hhomed])

theorem Dev.homeStart_refused {d : Dev} {a : Nat} (h : d.axState a = 1 ∨ d.axState a = 3)
    (htrav : d.rd (Reg.MOT_TRAV a) = 0) :
    d.homeStart a = ((d.setFld (Reg.MOT_ST a) 3 0 4).flag Reg.MOT_STAT (12 + a)).hw 0x7004 [nw a] :=
  (if_pos (by simpa using h)).trans (if_pos htrav)

/-- The first approach of a homing run begins, in the direction HDIR. -/
def Dev.homeBegin (e : Dev) (a : Nat) : Dev :=
  let f := e.setAxis a { e.axis a with used := 0, home := .first (e.bit (Reg.MOT_CFG a) 27) false }
  (f.axBusy a true).limitCheck a

theorem Dev.homeStart_begins {d : Dev} {a : Nat} (h : d.axState a = 1 ∨ d.axState a = 3)
    (htrav : d.rd (Reg.MOT_TRAV a) ≠ 0) : d.homeStart a = (d.axSet a 2).homeBegin a :=
  (if_pos (by simpa using h)).trans (if_neg htrav)

theorem Dev.axStop_still {d e : Dev} {a : Nat} (he : (if d.axState a = 2 then d.axSet a 1 else d) = e)
    (hstill : e.axMoving a = false) : d.axStop a = e.homeNext := by
  simp only [Dev.axStop, he, hstill, Bool.false_eq_true, if_false]

/-- A moving axis with a speed slows down from it. -/
theorem Dev.axStop_slows {d e f : Dev} {a : Nat} (he : (if d.axState a = 2 then d.axSet a 1 else d) = e)
    (hmove : e.axMoving a = true) (hf : e.setAxis a { e.axis a with home := .stopping } = f)
    (hv : (f.axis a).v ≠ 0) : d.axStop a = f.homeNext := by
  simp only [Dev.axStop, he, hmove, hf, hv, if_true, if_false]

theorem Dev.axClear_clears {d : Dev} {a : Nat} (hfault : d.axState a = 4) (hgone : d.axCauseGone a = true) :
    d.axClear a = (d.axSet a 1).setFld (Reg.MOT_ST a) 3 0 0 := if_pos (by simp [hfault, hgone])

theorem Dev.axClear_keeps {d : Dev} {a : Nat} (h : d.axState a ≠ 4 ∨ d.axCauseGone a = false) : d.axClear a = d :=
  if_neg (by rcases h with h | h <;> simp [h])

/-- An axis whose position has been set stands, and is HOMED. -/
def Dev.homedHere (d : Dev) (a : Nat) : Dev :=
  let e := (d.axHalt a).axSet a 3
  e.setAxis a { e.axis a with used := 0, home := .none }

theorem Dev.axDeclare_homed {d : Dev} {a : Nat} (h : d.axState a = 1) :
    d.axDeclare a = (d.wr (Reg.MOT_POS a) (d.rd (Reg.MOT_HOFS a))).homedHere a := if_pos h

theorem Dev.axDeclare_ignored {d : Dev} {a : Nat} (h : d.axState a ≠ 1) : d.axDeclare a = d := if_neg h

section
variable {s : State} {src : Writer} {a : BitVec 2} {d e : Dev} (hs : s.dev.asleep = false)
  (ht : s.dev.takes src (Reg.MOT_CMD a.toNat) = some d)
include hs ht

theorem exec_home_takes (he : d.homeStart a.toNat = e) : exec (.home src a) s = .next (s.on e) :=
  State.lift_gate_eq (f := fun d => d.motCmd a.toNat 1) hs ht he

theorem exec_stopAxis_takes (he : d.axStop a.toNat = e) : exec (.stopAxis src a) s = .next (s.on e) :=
  State.lift_gate_eq (f := fun d => d.motCmd a.toNat 2) hs ht he

theorem exec_clearFault_takes (he : d.axClear a.toNat = e) : exec (.clearFault src a) s = .next (s.on e) :=
  State.lift_gate_eq (f := fun d => d.motCmd a.toNat 3) hs ht he

theorem exec_declareHomed_takes (he : d.axDeclare a.toNat = e) : exec (.declareHomed src a) s = .next (s.on e) :=
  State.lift_gate_eq (f := fun d => d.motCmd a.toNat 4) hs ht he

end

/-- Settles O48: feeds, tachometers and stalls, servo periods, step pulses and their pins, the replies of actuators,
targets, and the four commands of an axis. -/
theorem motionCommands : Obligations.MotionCommands := by
  unfold Obligations.MotionCommands
  refine ⟨fun s src n v d hs ht => ⟨fun hen htemp => State.lift_gate_eq hs ht (Dev.feedCfg_refuses _ hen htemp),
      fun h => State.lift_gate_eq hs ht (Dev.feedCfg_stores _ h)⟩,
    fun s f hs h => exec_tachEdge_awake hs (Dev.tachEdge_starts h),
    ?edge, ?stall,
    fun s hs hctl hshed hservo hdue => State.lift_awake_eq hs (Dev.servo_due ⟨hctl, hshed, hservo, hdue⟩),
    fun s hs h => State.lift_awake_eq hs (Dev.servo_waits h),
    fun d a => ⟨Dev.servoAxis_still, fun e => Dev.servoAxis_moves⟩,
    fun s a hs h => exec_stepPulse_awake hs (Dev.stepPulse_waits h),
    fun s a q hs hq hearly => exec_stepPulse_awake hs (Dev.stepPulse_early hq hearly),
    ?pulse,
    fun d a x w hx hw => ⟨Dev.dirTurn_keeps hx hw, Dev.dirTurn_turns hx hw⟩,
    fun d a k n e he => ⟨Dev.stepMove_still he k,
      fun h hcode => (Dev.stepMove_rises he k h).trans (Dev.stepRise_coded k hcode),
      fun h hcode => (Dev.stepMove_rises he k h).trans (Dev.stepRise_plain k hcode)⟩,
    fun d a => ⟨Dev.axPins_floating a, Dev.axPins_driven a⟩,
    fun s a q fl hs h => exec_actuatorReply_awake hs (Dev.actReply_ignored h _ _),
    ?reply,
    fun s src a v d hs ht => ⟨fun hsrc hslot => State.lift_gate_eq hs ht (Dev.targetWrite_named hsrc hslot v),
      fun h => State.lift_gate_eq hs ht (Dev.targetWrite_takes h v)⟩,
    fun d a t => ⟨Dev.axTarget_stores t, Dev.axTarget_homing t, fun c e => Dev.axTarget_homed⟩,
    fun s src a d hs ht => ⟨fun h1 h3 => exec_home_takes hs ht (Dev.homeStart_ignored h1 h3),
      fun h htrav => exec_home_takes hs ht (Dev.homeStart_refused h htrav),
      fun h htrav => exec_home_takes hs ht (Dev.homeStart_begins h htrav)⟩,
    fun s src a d e hs ht he => ⟨fun hstill => exec_stopAxis_takes hs ht (Dev.axStop_still he hstill),
      fun hmove hv hkeep => exec_stopAxis_takes hs ht (Dev.axStop_slows he hmove rfl (hkeep ▸ hv))⟩,
    fun s src a d hs ht => ⟨fun hfault hgone => exec_clearFault_takes hs ht (Dev.axClear_clears hfault hgone),
      fun h => exec_clearFault_takes hs ht (Dev.axClear_keeps h)⟩,
    fun s src a d hs ht => ⟨fun h => exec_declareHomed_takes hs ht (Dev.axDeclare_ignored h),
      fun h => exec_declareHomed_takes hs ht (Dev.axDeclare_homed h)⟩⟩
  case edge =>
    intro s f q p e hs hq hq0 hrun hp hp0 he
    have hedge := Dev.tachEdge_measures hq hq0 hrun hp hp0 he
    exact ⟨fun hstalled hrpm => exec_tachEdge_awake hs (hedge.trans (if_pos ⟨hstalled, hrpm⟩)),
      fun h => exec_tachEdge_awake hs (hedge.trans (if_neg (by rcases h with h | h <;> simp [h])))⟩
  case stall =>
    rintro s f e t low hs he rfl rfl
    exact ⟨fun hcfg ht hrun hlow hbit =>
        exec_fanStall_awake hs (Dev.fanStall_stalls he ⟨hcfg, ht, hrun, hlow, hbit⟩),
      fun h => exec_fanStall_awake hs (Dev.fanStall_keeps he (Dev.not_fanStalls h))⟩
  case pulse =>
    intro s a q k l e f hs hctl hshed hmove hmode hspeed hrate hservo hq hdue hlead he hgoes hv hk hf
    have hon : s.dev.stepsOn a.toNat := ⟨hctl, hshed, hmove, hmode, hspeed, hrate, hservo, hlead⟩
    have hpulse := Dev.stepPulse_due hon hq hdue he hgoes hv hk hf
    exact ⟨fun hno => exec_stepPulse_awake hs (hpulse.trans (Dev.stepIssue_denied hno)),
      fun hmay hfree =>
        exec_stepPulse_awake hs (hpulse.trans (Dev.stepIssue_moves hmay (Dev.budgetShort_none hfree k))),
      fun hmay hl hfits => exec_stepPulse_awake hs
        (hpulse.trans (Dev.stepIssue_moves hmay ((Dev.budgetShort_some hl k).trans (by simp [hfits])))),
      fun hmay hl hshort => exec_stepPulse_awake hs
        (hpulse.trans (Dev.stepIssue_over hmay ((Dev.budgetShort_some hl k).trans (by simp [hshort]))))⟩
  case reply =>
    intro s a q fl e x hs hmode hlive he hx
    have htake := fun (hq : q.toNat = x.seq) => Dev.actReply_current hmode hlive he hx hq fl.toNat
    exact ⟨fun hq => exec_actuatorReply_awake hs (Dev.actReply_stale hmode hlive he hx hq _),
      fun hq hflt h => exec_actuatorReply_awake hs ((htake hq).trans (Dev.actTake_plain hflt h)),
      fun hq hflt hwas hsw hcfg =>
        exec_actuatorReply_awake hs ((htake hq).trans (Dev.actTake_home hflt hwas hsw hcfg)),
      fun hq hflt h4 h0 => exec_actuatorReply_awake hs ((htake hq).trans (Dev.actTake_fault hflt h4 h0))⟩

end Sys2Proof.Machine
end

section
/-! SUPPORT. Instructions of a ready pair on its registers: immediates, divisions, fractions, branches and jumps, floating
point, and the register pairs of the 64-bit forms. -/

namespace Sys2Proof.Machine

/-! ### The shared operations on a ready pair -/

theorem State.lift_rrr {s : State} {p : Pair} (h : s.dev.Ready p) (rd ra rb : GReg) (f : Word → Word → Word) :
    s.lift (fun d => d.rrr p rd ra rb f) = .next (s.retire p
      ((s.dev.core p).setReg rd (f ((s.dev.core p).reg ra) ((s.dev.core p).reg rb)))) :=
  State.lift_alu h _

theorem State.lift_rri {s : State} {p : Pair} (h : s.dev.Ready p) (rd ra : GReg) (f : Word → Word) :
    s.lift (fun d => d.rri p rd ra f) = .next (s.retire p
      ((s.dev.core p).setReg rd (f ((s.dev.core p).reg ra)))) :=
  State.lift_alu h _

/-- An instruction with its effect named: a reset that the effect asks for is settled. -/
theorem State.lift_issue_eq {s : State} {p : Pair} {f : Dev → Dev} {e : Dev} (h : s.dev.Ready p) (he : f s.dev = e) :
    s.lift (fun d => d.issue p f) = .next (s.on e.settle) := by
  rw [State.lift_issue h, he]

/-- An effect that leaves no reset waiting is the next state of its instruction. -/
theorem State.lift_issue_plain {s : State} {p : Pair} {f : Dev → Dev} {e : Dev} (h : s.dev.Ready p)
    (he : f s.dev = e) (hw : e.pwr.resetWait = none) : s.lift (fun d => d.issue p f) = .next (s.on e) := by
  rw [State.lift_issue_eq h he, Dev.settle_none hw]

/-- An effect that gives the pair a new core and nothing else. -/
theorem State.lift_issue_core {s : State} {p : Pair} {f : Dev → Dev} {c : CoreSt} (h : s.dev.Ready p)
    (he : f s.dev = s.dev.setCore p c) : s.lift (fun d => d.issue p f) = .next (s.on (s.dev.setCore p c)) :=
  State.lift_issue_plain h he (by simpa using h.2.2.2)

/-! ### Immediates (Table 12.6) -/

/-- Settles O7: each immediate instruction is the shared register-immediate operation with its own function. -/
theorem immediateResults : Obligations.ImmediateResults := by
  unfold Obligations.ImmediateResults
  intro s p rd ra imm c h
  exact ⟨State.lift_rri h rd ra _, State.lift_rri h rd ra _, State.lift_rri h rd ra _, State.lift_rri h rd ra _,
    State.lift_rri h rd ra _, State.lift_rri h rd ra _, State.lift_rri h rd 0 _⟩

/-! ### Division (R311) -/

theorem divS_zero (a : Word) : divS a 0 = (0, a, true, false) := if_pos rfl

theorem divS_overflow : divS 0x80000000 0xFFFFFFFF = (0x80000000, 0, false, true) := by decide

theorem divS_exact {a b : Word} (hb : b ≠ 0) (ho : ¬ (a = 0x80000000 ∧ b = 0xFFFFFFFF)) :
    divS a b = (iw (Int.tdiv a.toInt b.toInt), iw (Int.tmod a.toInt b.toInt), false, false) := by
  rw [divS, if_neg hb, if_neg (by simpa using ho)]

theorem divU_zero (a : Word) : divU a 0 = (0, a, true) := if_pos rfl

theorem divU_exact {b : Word} (hb : b ≠ 0) (a : Word) :
    divU a b = (nw (a.toNat / b.toNat), nw (a.toNat % b.toNat), false) := if_neg hb

section
variable {s : State} {p : Pair} {ra rb : GReg} {q r : Word} {dz ov : Bool}

theorem exec_div_ready (h : s.dev.Ready p) (rd : GReg)
    (hd : divS ((s.dev.core p).reg ra) ((s.dev.core p).reg rb) = (q, r, dz, ov)) :
    exec (.div p rd ra rb) s = .next (s.retire p (((s.dev.core p).setReg rd q).divFlags dz ov)) :=
  (State.lift_alu h _).trans (by rw [hd])

theorem exec_rem_ready (h : s.dev.Ready p) (rd : GReg)
    (hd : divS ((s.dev.core p).reg ra) ((s.dev.core p).reg rb) = (q, r, dz, ov)) :
    exec (.rem p rd ra rb) s = .next (s.retire p (((s.dev.core p).setReg rd r).divFlags dz ov)) :=
  (State.lift_alu h _).trans (by rw [hd])

theorem exec_divu_ready (h : s.dev.Ready p) (rd : GReg)
    (hd : divU ((s.dev.core p).reg ra) ((s.dev.core p).reg rb) = (q, r, dz)) :
    exec (.divu p rd ra rb) s = .next (s.retire p (((s.dev.core p).setReg rd q).divFlags dz false)) :=
  (State.lift_alu h _).trans (by rw [hd])

theorem exec_remu_ready (h : s.dev.Ready p) (rd : GReg)
    (hd : divU ((s.dev.core p).reg ra) ((s.dev.core p).reg rb) = (q, r, dz)) :
    exec (.remu p rd ra rb) s = .next (s.retire p (((s.dev.core p).setReg rd r).divFlags dz false)) :=
  (State.lift_alu h _).trans (by rw [hd])

end

/-- Settles O8: signed division has the three cases of R311, unsigned division two, and each instruction takes the
quotient or the remainder with the flags of its case. -/
theorem divisionCorners : Obligations.DivisionCorners := by
  unfold Obligations.DivisionCorners
  refine ⟨?byZero, ?overflow, ?signed, ?unsigned⟩
  case byZero =>
    intro s p rd ra rb c h hb
    have hS := (congrArg (divS (c.reg ra)) hb).trans (divS_zero _)
    have hU := (congrArg (divU (c.reg ra)) hb).trans (divU_zero _)
    exact ⟨exec_div_ready h rd hS, exec_rem_ready h rd hS, exec_divu_ready h rd hU, exec_remu_ready h rd hU⟩
  case overflow =>
    intro s p rd ra rb c h ha hb
    have hS : divS (c.reg ra) (c.reg rb) = (0x80000000, 0, false, true) := by
      rw [show c.reg ra = 0x80000000 from ha, show c.reg rb = 0xFFFFFFFF from hb, divS_overflow]
    exact ⟨exec_div_ready h rd hS, exec_rem_ready h rd hS⟩
  case signed =>
    intro s p rd ra rb c h hb ho
    exact ⟨exec_div_ready h rd (divS_exact hb ho), exec_rem_ready h rd (divS_exact hb ho)⟩
  case unsigned =>
    intro s p rd ra rb c h hb
    exact ⟨exec_divu_ready h rd (divU_exact hb _), exec_remu_ready h rd (divU_exact hb _)⟩

/-! ### Fractions (R312) -/

/-- Settles O9: each fraction instruction is a shared register operation on the signed operands. -/
theorem fractionResults : Obligations.FractionResults := by
  unfold Obligations.FractionResults
  intro s p rd ra rb c h
  exact ⟨State.lift_rrr h rd ra rb _, State.lift_rrr h rd ra rb _, State.lift_rrr h rd ra rb _,
    State.lift_rrr h rd ra rb _, State.lift_alu h _, State.lift_rri h rd ra _⟩

/-! ### Branches and jumps (R317) -/

theorem State.lift_branch {s : State} {p : Pair} (h : s.dev.Ready p) (ra rb : GReg) (off : BitVec 16)
    (f : Word → Word → Bool) : s.lift (fun d => d.branch p ra rb off f) = .next (s.on (s.dev.setCore p
      (if f ((s.dev.core p).reg ra) ((s.dev.core p).reg rb) = true then
        { s.dev.core p with pc := (s.dev.core p).pc + (off.signExtend 32 <<< 2) }
      else (s.dev.core p).next))) :=
  State.lift_issue_core h rfl

theorem State.lift_jumpOff {s : State} {p : Pair} (h : s.dev.Ready p) (link : Bool) (off : BitVec 26) :
    s.lift (fun d => d.jumpOff p link off) = .next (s.on (s.dev.setCore p
      { (if link then (s.dev.core p).setReg 31 ((s.dev.core p).pc + 4) else s.dev.core p) with
        pc := (s.dev.core p).pc + (off.signExtend 32 <<< 2) })) :=
  State.lift_issue_core h rfl

/-- The core with the return address in the link register, where the jump links. -/
def CoreSt.linked (c : CoreSt) : Option GReg → CoreSt
  | some r => c.setReg r (c.pc + 4)
  | none => c

theorem State.lift_jumpReg_aligned {s : State} {p : Pair} {ra : GReg} (h : s.dev.Ready p)
    (ha : ((s.dev.core p).reg ra).toNat % 4 = 0) (link : Option GReg) :
    s.lift (fun d => d.jumpReg p link ra) = .next (s.on (s.dev.setCore p
      { (s.dev.core p).linked link with pc := (s.dev.core p).reg ra })) :=
  State.lift_issue_core h (if_neg (by simpa using ha))

theorem State.lift_jumpReg_misaligned {s : State} {p : Pair} {ra : GReg} (h : s.dev.Ready p)
    (ha : ((s.dev.core p).reg ra).toNat % 4 ≠ 0) (link : Option GReg) :
    s.lift (fun d => d.jumpReg p link ra) = .next (s.on ((s.dev.setCore p
      { (s.dev.core p).linked link with pc := (s.dev.core p).reg ra }).exception p 3 3
        (some ((s.dev.core p).reg ra)) ((s.dev.core p).reg ra)).settle) :=
  State.lift_issue_eq h (if_pos (by simpa using ha))

/-- Settles O10: branches by their condition, jumps by offset, and register jumps by the alignment of their target. -/
theorem branchTargets : Obligations.BranchTargets := by
  unfold Obligations.BranchTargets
  refine ⟨?branch, ?offset, ?aligned, ?misaligned⟩
  case branch =>
    intro s p ra rb off c h
    exact ⟨State.lift_branch h ra rb off _, State.lift_branch h ra rb off _, State.lift_branch h ra rb off _,
      State.lift_branch h ra rb off _, State.lift_branch h ra rb off _, State.lift_branch h ra rb off _⟩
  case offset =>
    intro s p off c h
    exact ⟨State.lift_jumpOff h false off, State.lift_jumpOff h true off⟩
  case aligned =>
    intro s p rd ra c h ha
    exact ⟨State.lift_jumpReg_aligned h ha none, State.lift_jumpReg_aligned h ha (some rd)⟩
  case misaligned =>
    intro s p rd ra c h ha
    exact ⟨State.lift_jumpReg_misaligned h ha none, State.lift_jumpReg_misaligned h ha (some rd)⟩

/-! ### Floating point (R313) -/

theorem State.lift_ff2 {s : State} {p : Pair} (h : s.dev.Ready p) (rd ra rb : GReg)
    (f : Nat → Nat → Nat → Nat × FFlags) : s.lift (fun d => d.ff2 p rd ra rb f) = .next (s.retire p
      ((s.dev.core p).putF rd
        (f (s.dev.core p).rm ((s.dev.core p).reg ra).toNat ((s.dev.core p).reg rb).toNat))) :=
  State.lift_alu h _

theorem State.lift_ff1 {s : State} {p : Pair} (h : s.dev.Ready p) (rd ra : GReg)
    (f : Nat → Nat → Nat × FFlags) : s.lift (fun d => d.ff1 p rd ra f) = .next (s.retire p
      ((s.dev.core p).putF rd (f (s.dev.core p).rm ((s.dev.core p).reg ra).toNat))) :=
  State.lift_alu h _

theorem CoreSt.fflags_zero (c : CoreSt) : c.fflags 0 = c := by simp [CoreSt.fflags, nw]

/-- A result without flags leaves s.fcsr as it is. -/
theorem CoreSt.putF_noFlags (c : CoreSt) (r : GReg) (x : Nat) : c.putF r (x, 0) = c.setReg r (nw x) :=
  CoreSt.fflags_zero _

/-- Settles O11: each binary32 instruction puts the result of its operation and ORs the flags. -/
theorem binary32Results : Obligations.Binary32Results := by
  unfold Obligations.Binary32Results
  refine ⟨?two, ?one⟩
  case two =>
    intro s p rd ra rb c h
    exact ⟨State.lift_ff2 h rd ra rb _, State.lift_ff2 h rd ra rb _, State.lift_ff2 h rd ra rb _,
      State.lift_ff2 h rd ra rb _, State.lift_ff2 h rd ra rb _, State.lift_ff2 h rd ra rb _, State.lift_alu h _,
      State.lift_ff2 h rd ra rb _, State.lift_ff2 h rd ra rb _, State.lift_ff2 h rd ra rb _⟩
  case one =>
    intro s p rd ra c h
    refine ⟨State.lift_ff1 h rd ra _, ?neg, ?abs, ?toInt, ?ofInt, State.lift_ff1 h rd ra _⟩
    case neg => exact (State.lift_ff1 h rd ra _).trans (by rw [CoreSt.putF_noFlags])
    case abs => exact (State.lift_ff1 h rd ra _).trans (by rw [CoreSt.putF_noFlags])
    case toInt => exact (State.lift_ff1 h rd ra _).trans (by simp only [CoreSt.putF, nw_toNat, c])
    case ofInt => exact (State.lift_ff1 h rd ra _).trans (by simp only [nw_toNat, c])

theorem State.lift_dd2 {s : State} {p : Pair} {rd ra rb : GReg} (h : s.dev.Ready p)
    (hok : pairOk rd = true ∧ pairOk ra = true ∧ pairOk rb = true) (f : Nat → Nat → Nat → Nat × FFlags) :
    s.lift (fun d => d.dd2 p rd ra rb f) = .next (s.retire p ((s.dev.core p).putD rd
      (f (s.dev.core p).rm ((s.dev.core p).regD ra) ((s.dev.core p).regD rb)))) :=
  State.lift_aluIf h (by simp [hok]) _

theorem State.lift_dd1 {s : State} {p : Pair} {rd ra : GReg} (h : s.dev.Ready p)
    (hok : pairOk rd = true ∧ pairOk ra = true) (f : Nat → Nat → Nat × FFlags) :
    s.lift (fun d => d.dd1 p rd ra f) = .next (s.retire p ((s.dev.core p).putD rd
      (f (s.dev.core p).rm ((s.dev.core p).regD ra)))) :=
  State.lift_aluIf h (by simp [hok]) _

theorem State.lift_dcmp {s : State} {p : Pair} {ra rb : GReg} (h : s.dev.Ready p)
    (hok : pairOk ra = true ∧ pairOk rb = true) (rd : GReg) (f : Nat → Nat → Nat × FFlags) :
    s.lift (fun d => d.dcmp p rd ra rb f) = .next (s.retire p ((s.dev.core p).putF rd
      (f ((s.dev.core p).regD ra) ((s.dev.core p).regD rb)))) :=
  State.lift_aluIf h (by simp [hok]) _

/-- Settles O12: with every pair operand legal each binary64 instruction puts the result of its operation. -/
theorem binary64Results : Obligations.Binary64Results := by
  unfold Obligations.Binary64Results
  refine ⟨?two, ?compare, ?one, ?fromPair, ?toPair⟩
  case two =>
    intro s p rd ra rb c h hok
    exact ⟨State.lift_dd2 h hok _, State.lift_dd2 h hok _, State.lift_dd2 h hok _, State.lift_dd2 h hok _,
      State.lift_dd2 h hok _, State.lift_dd2 h hok _, State.lift_aluIf h (by simp [hok]) _⟩
  case compare =>
    intro s p rd ra rb c h hok
    exact ⟨State.lift_dcmp h hok rd _, State.lift_dcmp h hok rd _, State.lift_dcmp h hok rd _⟩
  case one =>
    intro s p rd ra c h hok
    exact ⟨State.lift_dd1 h hok _, State.lift_dd1 h hok _, State.lift_dd1 h hok _⟩
  case fromPair =>
    intro s p rd ra c h hok
    exact ⟨State.lift_aluIf h hok _, State.lift_aluIf h hok _⟩
  case toPair =>
    intro s p rd ra c h hok
    exact ⟨State.lift_aluIf h hok _, State.lift_aluIf h hok _, State.lift_aluIf h hok _⟩

/-! ### Register pairs (R306) -/

theorem pairOk_iff (r : GReg) : pairOk r = true ↔ r.toNat % 2 = 0 ∧ 2 ≤ r.toNat := by
  simp only [pairOk, Bool.and_eq_true, decide_eq_true_eq, bne_iff_ne]
  omega

/-- The upper register of a legal pair follows the lower one; it is not w0. -/
theorem pairHi_toNat {r : GReg} (h : pairOk r = true) : (pairHi r).toNat = r.toNat + 1 := by
  obtain ⟨heven, -⟩ := (pairOk_iff r).1 h
  have hlt := r.isLt
  rw [pairHi, BitVec.toNat_add, show (1 : GReg).toNat = 1 from rfl]
  omega

/-- Both halves of a 64-bit value read back from the pair it was written to. -/
theorem CoreSt.regD_setRegD (c : CoreSt) {r : GReg} {v : Nat} (h : pairOk r = true) (hv : v < 2 ^ 64) :
    (c.setRegD r v).regD r = v := by
  have hhi := pairHi_toNat h
  have hr0 : r ≠ 0 := by rintro rfl; simp [pairOk] at h
  have hhi0 : pairHi r ≠ 0 := by intro e; simp [e] at hhi
  have hne : r ≠ pairHi r := by intro e; rw [← e] at hhi; omega
  rw [CoreSt.regD, CoreSt.setRegD, CoreSt.reg_setReg_same _ hhi0, CoreSt.reg_setReg_other _ hne,
    CoreSt.reg_setReg_same _ hr0, nw, nw, BitVec.toNat_ofNat, BitVec.toNat_ofNat]
  omega

theorem State.lift_load_ill {s : State} {p : Pair} {ok : Bool} (h : s.dev.Ready p) (hok : ok = false) (n : Nat)
    (ra : GReg) (imm : BitVec 16) (f : Nat → CoreSt → CoreSt) :
    s.lift (fun d => d.load p n ra imm ok f) = .next (s.on (s.dev.raise p 1 0 none).settle) :=
  State.lift_issue_eq h (if_pos hok)

theorem State.lift_store_ill {s : State} {p : Pair} {ok : Bool} (h : s.dev.Ready p) (hok : ok = false) (n : Nat)
    (ra : GReg) (imm : BitVec 16) (v : CoreSt → Nat) :
    s.lift (fun d => d.store p n ra imm ok v) = .next (s.on (s.dev.raise p 1 0 none).settle) :=
  State.lift_issue_eq h (if_pos hok)

theorem State.lift_vredD_ill {s : State} {p : Pair} {rd : GReg} (h : s.dev.Ready p) (hv : (s.dev.core p).vl ≠ 0)
    (hok : pairOk rd = false) (k : VMask) (f : CoreSt → List Nat → Word × Word) :
    s.lift (fun d => d.vredD p rd k f) = .next (s.on (s.dev.raise p 1 0 none).settle) :=
  State.lift_issue_eq h ((if_neg hv).trans (if_pos hok))

/-- Settles O13: what a register pair holds, and the illegal-instruction exception of every 64-bit form whose pair is
none. -/
theorem registerPairs : Obligations.RegisterPairs := by
  unfold Obligations.RegisterPairs
  refine ⟨?w0, ?halves, ?two, ?compare, ?one, ?fromPair, ?toPair, ?reduce⟩
  case w0 =>
    exact fun c r q v => ⟨c.reg_zero, c.setReg_zero v, fun hr => c.reg_setReg_same hr v,
      fun hq => c.reg_setReg_other hq v⟩
  case halves =>
    intro c r v h hv
    obtain ⟨heven, hlow⟩ := (pairOk_iff r).1 h
    exact ⟨heven, hlow, rfl, c.regD_setRegD h hv⟩
  case two =>
    intro s p rd ra rb h hok
    exact ⟨State.lift_aluIf_ill h hok _, State.lift_aluIf_ill h hok _, State.lift_aluIf_ill h hok _,
      State.lift_aluIf_ill h hok _, State.lift_aluIf_ill h hok _, State.lift_aluIf_ill h hok _,
      State.lift_aluIf_ill h hok _⟩
  case compare =>
    intro s p rd ra rb h hok
    exact ⟨State.lift_aluIf_ill h hok _, State.lift_aluIf_ill h hok _, State.lift_aluIf_ill h hok _⟩
  case one =>
    intro s p rd ra h hok
    exact ⟨State.lift_aluIf_ill h hok _, State.lift_aluIf_ill h hok _, State.lift_aluIf_ill h hok _⟩
  case fromPair =>
    intro s p rd ra mv h hok
    exact ⟨State.lift_aluIf_ill h hok _, State.lift_aluIf_ill h hok _, State.lift_aluIf_ill h hok _⟩
  case toPair =>
    intro s p rd ra mv imm h hok
    exact ⟨State.lift_aluIf_ill h hok _, State.lift_aluIf_ill h hok _, State.lift_aluIf_ill h hok _,
      State.lift_aluIf_ill h hok _, State.lift_load_ill h hok _ _ _ _, State.lift_store_ill h hok _ _ _ _⟩
  case reduce =>
    intro s p rd v k h hv hok
    exact ⟨State.lift_vredD_ill h hv hok k _, State.lift_vredD_ill h hv hok k _, State.lift_vredD_ill h hv hok k _⟩

end Sys2Proof.Machine
end

section
/-! SUPPORT. Loads, stores, atomics and the reservation on a ready pair. -/

namespace Sys2Proof.Machine

/-! ### Fetch and data checks -/

/-- A pair that runs and whose fetch raises nothing issues its instruction once the fetch has counted what it corrected
(R303). -/
theorem Dev.issue_runs {d g : Dev} {p : Pair} (hrun : (d.core p).runs = true) (hfetch : d.fetchFault p = none)
    (hg : d.corrected (d.core p).pc.toNat 4 = g) (f : Dev → Dev) : d.issue p f = (f g).settle := by
  simp [Dev.issue, hrun, hfetch, hg]

theorem Dev.corrected_zero {d : Dev} {a n : Nat}
    (h : (d.corr.filter (fun e => e < a + n && a < e + 4)).length = 0) : d.corrected a n = d := by
  simp only [Dev.corrected, h]

theorem Dev.corrected_succ {d : Dev} {a n k : Nat}
    (h : (d.corr.filter (fun e => e < a + n && a < e + 4)).length = k + 1) :
    d.corrected a n = d.setFld Reg.HLT_ECCCNT 15 0 (min 65535 (d.fld Reg.HLT_ECCCNT 15 0 + (k + 1))) := by
  simp only [Dev.corrected, h]
  rfl

/-- An access that is made was not suppressed as a live read (R338). -/
theorem Dev.not_suppressed {d : Dev} {p : Pair} {kind a n : Nat} (h : d.dataFault p kind a n true = none) :
    (d.core p).suppressed a = false := by
  cases hs : (d.core p).suppressed a with
  | false => rfl
  | true =>
    unfold Dev.dataFault at h
    split at h
    · cases h
    · split at h
      · cases h
      · simp [hs] at h

theorem Dev.atomicFault_none {d : Dev} {p : Pair} {a : Nat} {live : Bool}
    (h : d.dataFault p kAtomic a 4 live = none) (reads : Bool) : d.atomicFault p a reads live = none := by
  simp only [Dev.atomicFault, h]

/-! ### Loads -/

theorem Dev.loadWords_mem {d : Dev} {a : Nat} (h : isPeriph a = false) : d.loadWords a 1 = ([d.word a], d) := by
  simp [Dev.loadWords, h]

theorem Dev.loadWords_mem_two {d : Dev} {a : Nat} (h : isPeriph a = false) (h4 : isPeriph (a + 4) = false) :
    d.loadWords a 2 = ([d.word a, d.word (a + 4)], d) := by
  simp [Dev.loadWords, h, h4]

theorem Dev.loadWords_periph {d : Dev} {a : Nat} (h : isPeriph a = true) :
    d.loadWords a 1 = ([(d.periphRead a).1], (d.periphRead a).2) := by
  simp [Dev.loadWords, h]

/-- A load of words that is made: `g` the module after the fetch, `e` after the errors of its own words are counted. -/
theorem Dev.load_words {d g e x : Dev} {p : Pair} {n a : Nat} {ra : GReg} {imm : BitVec 16} {ok : Bool}
    {ws : List Word} (hrun : (d.core p).runs = true) (hfetch : d.fetchFault p = none)
    (hg : d.corrected (d.core p).pc.toNat 4 = g) (hok : ok = true) (ha : (g.core p).addr ra imm = a)
    (hd : g.dataFault p kLoad a n true = none) (he : g.corrected a n = e) (hn : 4 ≤ n)
    (hws : e.loadWords a (n / 4) = (ws, x)) (f : Nat → CoreSt → CoreSt) :
    d.load p n ra imm ok f = (x.setCore p (f (leNat (wordsBytes ws)) (x.core p)).next).settle := by
  simp [Dev.load, Dev.issue_runs hrun hfetch hg, hok, ha, hd, he, Nat.not_lt.2 hn, hws]

/-- A load of one word from memory into register `rd`. -/
theorem Dev.load_register {d g e : Dev} {p : Pair} {a : Nat} {ra : GReg} {imm : BitVec 16}
    (hrun : (d.core p).runs = true) (hfetch : d.fetchFault p = none) (hg : d.corrected (d.core p).pc.toNat 4 = g)
    (ha : (g.core p).addr ra imm = a) (hd : g.dataFault p kLoad a 4 true = none) (he : g.corrected a 4 = e)
    (hp : isPeriph a = false) (rd : GReg) : d.load p 4 ra imm true (fun x c => c.setReg rd (nw x)) =
      (e.setCore p ((e.core p).setReg rd (e.word a)).next).settle := by
  rw [Dev.load_words hrun hfetch hg rfl ha hd he (Nat.le_refl 4) (Dev.loadWords_mem hp), leNat_wordsBytes_one,
    nw_toNat]

section
variable {s : State} {p : Pair} {a : Nat} {ra : GReg} {imm : BitVec 16}

/-- A load of a byte or a halfword that is made. -/
theorem State.lift_load_small {n : Nat} (h : s.dev.Ready p) (ha : (s.dev.core p).addr ra imm = a)
    (hd : s.dev.dataFault p kLoad a n true = none) (hn : n < 4) (f : Nat → CoreSt → CoreSt) :
    s.lift (fun d => d.load p n ra imm true f) =
      .next (s.retire p (f (leNat (s.dev.bytes a n)) (s.dev.core p))) := by
  refine State.lift_issue_core h ?_
  simp [ha, hd, hn, Dev.corrected_none h.2.2.1.2]

/-- A load of words that is made; a read of a peripheral register may ask for a reset. -/
theorem State.lift_load_words {n : Nat} {ok : Bool} {x : Dev} {ws : List Word} (h : s.dev.Ready p) (hok : ok = true)
    (ha : (s.dev.core p).addr ra imm = a) (hd : s.dev.dataFault p kLoad a n true = none) (hn : 4 ≤ n)
    (hws : s.dev.loadWords a (n / 4) = (ws, x)) (f : Nat → CoreSt → CoreSt) :
    s.lift (fun d => d.load p n ra imm ok f) =
      .next (s.on (x.setCore p (f (leNat (wordsBytes ws)) (x.core p)).next).settle) := by
  obtain ⟨hawake, hrun, ⟨hfetch, hcorr⟩, -⟩ := h
  rw [State.lift_awake hawake, Dev.load_words hrun hfetch (Dev.corrected_none hcorr _ _) hok ha hd
    (Dev.corrected_none hcorr _ _) hn hws]

/-- A load of words from memory that is made changes the pair alone. -/
theorem State.lift_load_mem {n : Nat} {ok : Bool} {ws : List Word} (h : s.dev.Ready p) (hok : ok = true)
    (ha : (s.dev.core p).addr ra imm = a) (hd : s.dev.dataFault p kLoad a n true = none) (hn : 4 ≤ n)
    (hws : s.dev.loadWords a (n / 4) = (ws, s.dev)) (f : Nat → CoreSt → CoreSt) :
    s.lift (fun d => d.load p n ra imm ok f) =
      .next (s.retire p (f (leNat (wordsBytes ws)) (s.dev.core p))) := by
  rw [State.lift_load_words h hok ha hd hn hws, Dev.settle_none (by simpa using h.2.2.2)]
  rfl

end

/-- Settles O14: bytes and halfwords by their extension, words from memory and from a peripheral register, and the
errors that the fetch and the load count. -/
theorem loadResults : Obligations.LoadResults := by
  unfold Obligations.LoadResults
  refine ⟨?word, ?periph, ?half, ?byte, ?double, ?counted, ?count⟩
  case word =>
    intro s p rd ra imm a c h ha hd hp
    exact (State.lift_load_mem h rfl ha hd (Nat.le_refl 4) (Dev.loadWords_mem hp) _).trans
      (by rw [leNat_wordsBytes_one, nw_toNat])
  case periph =>
    intro s p rd ra imm a h ha hd hp
    exact (State.lift_load_words h rfl ha hd (Nat.le_refl 4) (Dev.loadWords_periph hp) _).trans
      (by rw [leNat_wordsBytes_one, nw_toNat])
  case half =>
    intro s p rd ra imm a c h ha hd
    exact ⟨State.lift_load_small h ha hd (by decide) _, State.lift_load_small h ha hd (by decide) _⟩
  case byte =>
    intro s p rd ra imm a c h ha hd
    exact ⟨State.lift_load_small h ha hd (by decide) _, State.lift_load_small h ha hd (by decide) _⟩
  case double =>
    intro s p rd ra imm a c h ha hd hp hp4 hok
    exact (State.lift_load_mem h hok ha hd (by decide) (Dev.loadWords_mem_two hp hp4) _).trans
      (by rw [leNat_wordsBytes_two])
  case counted =>
    intro s p rd ra imm a g e hawake hrun hfetch hg ha hd hp he
    exact exec_awake_eq hawake (fun d => d.load p 4 ra imm true (fun x c => c.setReg rd (nw x))) rfl
      (Dev.load_register hrun hfetch hg ha hd he hp rd)
  case count =>
    intro d a n k hk
    cases k with
    | zero => exact ⟨fun _ => Dev.corrected_zero hk, fun h => absurd rfl h⟩
    | succ k => exact ⟨fun h => absurd h k.succ_ne_zero, fun _ => Dev.corrected_succ hk⟩

/-! ### Stores -/

theorem Dev.storeWords_sram {d : Dev} {a : Nat} (p : Pair) (h : isSram a = true) (w : Word) :
    d.storeWords p a [w] = d.sramStore p a (leBytes 4 w.toNat) := by
  simp [Dev.storeWords, isSram_not_periph h]

theorem Dev.storeWords_sram_two {d : Dev} {a : Nat} (p : Pair) (h : isSram a = true) (h4 : isSram (a + 4) = true)
    (x y : Word) : d.storeWords p a [x, y] =
      (d.sramStore p a (leBytes 4 x.toNat)).sramStore p (a + 4) (leBytes 4 y.toNat) := by
  simp [Dev.storeWords, isSram_not_periph h, isSram_not_periph h4]

theorem Dev.storeWords_periph {d : Dev} {a : Nat} (p : Pair) (h : isPeriph a = true) (w : Word) :
    d.storeWords p a [w] = d.periphWrite (pairWriter p) a w := by
  simp [Dev.storeWords, h]

section
variable {s : State} {p : Pair} {a n : Nat} {ra : GReg} {imm : BitVec 16}

/-- A store of a byte or a halfword that is made, to SRAM. -/
theorem State.lift_store_small (h : s.dev.Ready p) (ha : (s.dev.core p).addr ra imm = a)
    (hd : s.dev.dataFault p kStore a n false = none) (hn : n < 4) (v : CoreSt → Nat) :
    s.lift (fun d => d.store p n ra imm true v) =
      .next (s.on ((s.dev.setCore p (s.dev.core p).next).sramStore p a (leBytes n (v (s.dev.core p))))) := by
  refine State.lift_issue_plain h ?_ (by simpa using h.2.2.2)
  simp [ha, hd, hn]

/-- A store of words that is made; a write of a peripheral register may ask for a reset. -/
theorem State.lift_store_words {ok : Bool} {v : CoreSt → Nat} {ws : List Word} (h : s.dev.Ready p) (hok : ok = true)
    (ha : (s.dev.core p).addr ra imm = a) (hd : s.dev.dataFault p kStore a n false = none) (hn : 4 ≤ n)
    (hws : (List.range (n / 4)).map (fun i => nw (v (s.dev.core p) / 2 ^ (32 * i))) = ws) :
    s.lift (fun d => d.store p n ra imm ok v) =
      .next (s.on ((s.dev.setCore p (s.dev.core p).next).storeWords p a ws).settle) := by
  refine State.lift_issue_eq h ?_
  simp [hok, ha, hd, Nat.not_lt.2 hn, hws]

/-- STW stores the word of rd. -/
theorem exec_stw_ready (h : s.dev.Ready p) (rd : GReg) (ha : (s.dev.core p).addr ra imm = a)
    (hd : s.dev.dataFault p kStore a 4 false = none) : exec (.stw p rd ra imm) s = .next (s.on
      ((s.dev.setCore p (s.dev.core p).next).storeWords p a [(s.dev.core p).reg rd]).settle) :=
  State.lift_store_words h rfl ha hd (Nat.le_refl 4) (by simp [nw_toNat])

theorem exec_stw_sram (h : s.dev.Ready p) (rd : GReg) (ha : (s.dev.core p).addr ra imm = a)
    (hd : s.dev.dataFault p kStore a 4 false = none) (hs : isSram a = true) : exec (.stw p rd ra imm) s =
      .next (s.on ((s.dev.setCore p (s.dev.core p).next).sramStore p a
        (leBytes 4 ((s.dev.core p).reg rd).toNat))) := by
  rw [exec_stw_ready h rd ha hd, Dev.storeWords_sram p hs, Dev.settle_none (by simpa using h.2.2.2)]

theorem exec_sth_sram (h : s.dev.Ready p) (rd : GReg) (ha : (s.dev.core p).addr ra imm = a)
    (hd : s.dev.dataFault p kStore a 2 false = none) : exec (.sth p rd ra imm) s =
      .next (s.on ((s.dev.setCore p (s.dev.core p).next).sramStore p a
        (leBytes 2 ((s.dev.core p).reg rd).toNat))) :=
  State.lift_store_small h ha hd (by decide) _

theorem exec_stb_sram (h : s.dev.Ready p) (rd : GReg) (ha : (s.dev.core p).addr ra imm = a)
    (hd : s.dev.dataFault p kStore a 1 false = none) : exec (.stb p rd ra imm) s =
      .next (s.on ((s.dev.setCore p (s.dev.core p).next).sramStore p a
        (leBytes 1 ((s.dev.core p).reg rd).toNat))) :=
  State.lift_store_small h ha hd (by decide) _

theorem exec_std_sram {rd : GReg} (h : s.dev.Ready p) (hok : pairOk rd = true)
    (ha : (s.dev.core p).addr ra imm = a) (hd : s.dev.dataFault p kStore a 8 false = none) (hs : isSram a = true)
    (hs4 : isSram (a + 4) = true) : exec (.std p rd ra imm) s =
      .next (s.on (((s.dev.setCore p (s.dev.core p).next).sramStore p a
        (leBytes 4 (nw ((s.dev.core p).regD rd)).toNat)).sramStore p (a + 4)
        (leBytes 4 (nw ((s.dev.core p).regD rd / 2 ^ 32)).toNat))) := by
  have hws : (List.range (8 / 4)).map (fun i => nw ((s.dev.core p).regD rd / 2 ^ (32 * i))) =
      [nw ((s.dev.core p).regD rd), nw ((s.dev.core p).regD rd / 2 ^ 32)] := by simp [List.range_succ]
  refine (State.lift_store_words h hok ha hd (by decide) hws).trans ?_
  rw [Dev.storeWords_sram_two p hs hs4, Dev.settle_none (by simpa using h.2.2.2)]

end

/-- Settles O15: the stores to SRAM, and the word store that is a write of a peripheral register. -/
theorem storeResults : Obligations.StoreResults := by
  unfold Obligations.StoreResults
  refine ⟨fun s p rd ra imm a h ha hd hs => exec_stw_sram h rd ha hd hs,
    fun s p rd ra imm a h ha hd _ => exec_sth_sram h rd ha hd,
    fun s p rd ra imm a h ha hd _ => exec_stb_sram h rd ha hd,
    fun s p rd ra imm a h ha hd hs hok => exec_std_sram h hok ha hd hs.1 hs.2, ?periph⟩
  intro s p rd ra imm a c h ha hd hp
  rw [exec_stw_ready h rd ha hd, Dev.storeWords_periph p hp]
  cases p <;> rfl

/-! ### The bytes of a store (R314) -/

theorem leBytes_getElem (n v : Nat) {k : Nat} (hk : k < (leBytes n v).length) :
    ((leBytes n v)[k]).toNat = v / 256 ^ k % 256 := by
  induction n generalizing v k with
  | zero => simp [leBytes] at hk
  | succ n ih =>
    cases k with
    | zero => simp [leBytes]
    | succ k =>
      have hk' : k < (leBytes n (v / 256)).length := by simpa [leBytes] using hk
      rw [Nat.pow_succ', ← Nat.div_div_eq_div_mul, ← ih (v / 256) hk']
      rfl

theorem Dev.byte_sramStore (d : Dev) (p : Pair) {a : Nat} (hs : isSram a = true) (l : List Byte) (b : Nat) :
    (d.sramStore p a l).byte b = (d.setBytes a l).byte b :=
  congrArg (fun m => Store.get memReset m b) (Dev.sramStore_mem d p hs l)

/-- The bytes from the address of a store are the low bytes of its value. -/
theorem Dev.byte_sramStore_in {d : Dev} (h : d.Canon) (p : Pair) {a n k : Nat} (hs : isSram a = true) (v : Nat)
    (hk : k < n) : ((d.sramStore p a (leBytes n v)).byte (a + k)).toNat = v / 256 ^ k % 256 := by
  have hk' : k < (leBytes n v).length := by rwa [leBytes_length]
  rw [Dev.byte_sramStore d p hs, Dev.byte_setBytes_in h hk', leBytes_getElem]

/-- Every other byte is as it was. -/
theorem Dev.byte_sramStore_other {d : Dev} (h : d.Canon) (p : Pair) {a n b : Nat} (hs : isSram a = true) (v : Nat)
    (hb : b < a ∨ a + n ≤ b) : (d.sramStore p a (leBytes n v)).byte b = d.byte b := by
  rw [Dev.byte_sramStore d p hs, Dev.byte_setBytes_other h (by rwa [leBytes_length])]

/-- Settles O16: STW, STH and STB are one store of their low bytes, whose bytes read back and whose frame is all else. -/
theorem storeBytes : Obligations.StoreBytes := by
  unfold Obligations.StoreBytes
  intro s p rd ra imm a n i hc h ha hd hs hi
  have hexec : exec i s = .next (s.on ((s.dev.setCore p (s.dev.core p).next).sramStore p a
      (leBytes n ((s.dev.core p).reg rd).toNat))) := by
    rcases hi with ⟨rfl, rfl⟩ | ⟨rfl, rfl⟩ | ⟨rfl, rfl⟩
    · exact exec_stw_sram h rd ha hd hs
    · exact exec_sth_sram h rd ha hd
    · exact exec_stb_sram h rd ha hd
  have hcanon : (s.dev.setCore p (s.dev.core p).next).Canon := Dev.setCore_canon p _ hc
  refine ⟨_, hexec, rfl, ?regs, fun k hk => Dev.byte_sramStore_in hcanon p hs _ hk,
    fun b hb => (Dev.byte_sramStore_other hcanon p hs _ hb).trans ?byte⟩
  case regs => simp
  case byte => cases p <;> rfl

/-! ### Atomics (R316) -/

section
variable {s : State} {p : Pair} {a : Nat} {ra : GReg} {reads live : Bool}
  {f : CoreSt → Nat → Word → CoreSt × Option Word} {c : CoreSt}

/-- An atomic that is made and stores a word. -/
theorem State.lift_atomic_stores {v : Word} (h : s.dev.Ready p) (ha : ((s.dev.core p).reg ra).toNat = a)
    (hd : s.dev.dataFault p kAtomic a 4 live = none) (hf : f (s.dev.core p) a (s.dev.word a) = (c, some v)) :
    s.lift (fun d => d.atomic p ra reads live f) =
      .next (s.on ((s.dev.setCore p c.next).sramStore p a (leBytes 4 v.toNat))) := by
  refine State.lift_issue_plain h ?_ (by simpa using h.2.2.2)
  simp only [ha, Dev.atomicFault_none hd, Dev.corrected_none h.2.2.1.2, ite_self, hf]

/-- An atomic that is made and stores nothing. -/
theorem State.lift_atomic_keeps (h : s.dev.Ready p) (ha : ((s.dev.core p).reg ra).toNat = a)
    (hd : s.dev.dataFault p kAtomic a 4 live = none) (hf : f (s.dev.core p) a (s.dev.word a) = (c, none)) :
    s.lift (fun d => d.atomic p ra reads live f) = .next (s.retire p c) := by
  refine State.lift_issue_core h ?_
  simp only [ha, Dev.atomicFault_none hd, Dev.corrected_none h.2.2.1.2, ite_self, hf]

end

theorem State.lift_amo {s : State} {p : Pair} {a : Nat} {ra : GReg} (h : s.dev.Ready p)
    (ha : ((s.dev.core p).reg ra).toNat = a) (hd : s.dev.dataFault p kAtomic a 4 false = none) (rd rb : GReg)
    (f : Word → Word → Word) : s.lift (fun d => d.amo p rd ra rb f) =
      .next (s.on ((s.dev.setCore p ((s.dev.core p).setReg rd (s.dev.word a)).next).sramStore p a
        (leBytes 4 (f (s.dev.word a) ((s.dev.core p).reg rb)).toNat))) :=
  State.lift_atomic_stores h ha hd rfl

/-- Settles O17: each AMO is the shared read-modify-write with its own function. -/
theorem atomicResults : Obligations.AtomicResults := by
  unfold Obligations.AtomicResults
  intro s p rd ra rb a c old h ha hd
  exact ⟨State.lift_amo h ha hd rd rb _, State.lift_amo h ha hd rd rb _, State.lift_amo h ha hd rd rb _,
    State.lift_amo h ha hd rd rb _, State.lift_amo h ha hd rd rb _, State.lift_amo h ha hd rd rb _⟩

/-! ### The reservation (R316) -/

theorem CoreSt.resv_hit_covered {c : CoreSt} {a n g : Nat} (hg : c.resv = some g) (h : a < g + 8 ∧ g < a + n) :
    (c.hit a n).resv = none := by
  simp [CoreSt.hit, hg, h]

@[simp] theorem Dev.setBytes_sys (d : Dev) (a : Nat) (l : List Byte) : (d.setBytes a l).sys = d.sys := by
  rw [Dev.setBytes_other]

@[simp] theorem Dev.setBytes_prog (d : Dev) (a : Nat) (l : List Byte) : (d.setBytes a l).prog = d.prog := by
  rw [Dev.setBytes_other]

@[simp] theorem Dev.touch_sys (d : Dev) (a n : Nat) : (d.touch a n).sys = d.sys := by
  unfold Dev.touch; split <;> rfl

@[simp] theorem Dev.touch_prog (d : Dev) (a n : Nat) : (d.touch a n).prog = d.prog := by
  unfold Dev.touch; split <;> rfl

@[simp] theorem Dev.overwritten_sys (d : Dev) (a n : Nat) : (d.overwritten a n).sys = d.sys := rfl

@[simp] theorem Dev.overwritten_prog (d : Dev) (a n : Nat) : (d.overwritten a n).prog = d.prog := rfl

/-- A store of the program pair ends the system pair's reservation on its granule (R316). -/
theorem Dev.sramStore_program_sys (d : Dev) {a : Nat} (h : isSram a = true) (l : List Byte) :
    (d.sramStore .program a l).sys = d.sys.hit a l.length := by
  simp [Dev.sramStore, h]

theorem Dev.sramStore_system_prog (d : Dev) {a : Nat} (h : isSram a = true) (l : List Byte) :
    (d.sramStore .system a l).prog = d.prog.hit a l.length := by
  simp [Dev.sramStore, h]

/-- LDX takes the reservation of its granule. -/
theorem exec_ldx_ready {s : State} {p : Pair} {a : Nat} {ra : GReg} (h : s.dev.Ready p)
    (ha : ((s.dev.core p).reg ra).toNat = a) (hd : s.dev.dataFault p kAtomic a 4 true = none) (rd : GReg) :
    exec (.ldx p rd ra) s = .next (s.retire p
      { (s.dev.core p).setReg rd (s.dev.word a) with resv := some (a / 8 * 8) }) :=
  State.lift_atomic_keeps h ha hd (if_neg (by simp [Dev.not_suppressed hd]))

/-- Settles O18: what LDX takes, the two outcomes of STX, and what ends a reservation. -/
theorem reservations : Obligations.Reservations := by
  unfold Obligations.Reservations
  refine ⟨fun s p rd ra a h ha hd => exec_ldx_ready h ha hd rd, ?held, ?lost, fun c p code sub x pc h => ⟨rfl, rfl⟩,
    ?other⟩
  case held =>
    intro s p rd ra rb a c h ha hd hres
    exact State.lift_atomic_stores h ha hd (by simp [hres, c])
  case lost =>
    intro s p rd ra rb a c h ha hd hres
    exact State.lift_atomic_keeps h ha hd (by simp [hres, c])
  case other =>
    intro d a g l hs hcover
    refine ⟨fun hg => ?_, fun hg => ?_⟩
    · rw [Dev.sramStore_program_sys d hs]
      exact CoreSt.resv_hit_covered hg hcover
    · rw [Dev.sramStore_system_prog d hs]
      exact CoreSt.resv_hit_covered hg hcover

end Sys2Proof.Machine
end

section
/-! SUPPORT. Special-register instructions on a ready pair: what each level may do, and what a write leaves. -/

namespace Sys2Proof.Machine

/-! ### Special registers (R307, R326) -/

theorem CoreSt.specFault_allowed {c : CoreSt} (hu : c.user = true) (n : Nat) : c.specFault n true = none := by
  simp [CoreSt.specFault, hu]

theorem CoreSt.specFault_privileged {c : CoreSt} {ok : Bool} (hu : c.user = true) (hok : ok = false) (n : Nat) :
    c.specFault n ok = some 2 := by
  simp [CoreSt.specFault, hu, hok]

theorem CoreSt.specFault_listed {c : CoreSt} {n : Nat} (hu : c.user = false) (hn : specListed n = true) (ok : Bool) :
    c.specFault n ok = none := by
  simp [CoreSt.specFault, hu, hn]

theorem CoreSt.specFault_unlisted {c : CoreSt} {n : Nat} (hu : c.user = false) (hn : specListed n = false)
    (ok : Bool) : c.specFault n ok = some 1 := by
  simp [CoreSt.specFault, hu, hn]

/-- No read of this special register is suppressed as a live read: it is no clock, s.ctl.INSTEP is 0, or the pair is at
supervisor level (R338). -/
def CoreSt.specLive (c : CoreSt) (n : Nat) : Prop := (n ≠ 0x11 ∧ n ≠ 0x12) ∨ bitOf c.ctl 0 = false ∨ c.user = false

section
variable {s : State} {p : Pair} {n : Nat} {ok : Bool}

theorem State.lift_specOp_raises {code : Nat} (h : s.dev.Ready p) (hf : (s.dev.core p).specFault n ok = some code)
    (rd : Option GReg) (f : CoreSt → CoreSt) :
    s.lift (fun d => d.specOp p n ok rd f) = .next (s.on (s.dev.raise p code 0 none).settle) :=
  State.lift_issue_eq h (by simp only [hf])

/-- A special-register instruction that gives the old value in `r`. -/
theorem State.lift_specOp_reads (h : s.dev.Ready p) (hf : (s.dev.core p).specFault n ok = none)
    (hl : (s.dev.core p).specLive n) (r : GReg) (f : CoreSt → CoreSt) :
    s.lift (fun d => d.specOp p n ok (some r) f) = .next (s.retire p
      ((f ((s.dev.core p).specRead n)).setReg r ((s.dev.core p).spec p n))) := by
  refine State.lift_issue_core h ?_
  have hlive : ¬ ((n = 0x11 ∨ n = 0x12) ∧ bitOf (s.dev.core p).ctl 0 = true ∧ (s.dev.core p).user = true) := by
    rintro ⟨hn, hstep, huser⟩
    rcases hl with ⟨h1, h2⟩ | hl | hl
    · exact hn.elim h1 h2
    · simp [hl] at hstep
    · simp [hl] at huser
  simp only [hf]
  exact if_neg (by simpa [and_assoc] using hlive)

/-- A special-register instruction that gives no value. -/
theorem State.lift_specOp_writes (h : s.dev.Ready p) (hf : (s.dev.core p).specFault n ok = none)
    (f : CoreSt → CoreSt) : s.lift (fun d => d.specOp p n ok none f) = .next (s.retire p (f (s.dev.core p))) := by
  refine State.lift_issue_core h ?_
  simp only [hf]
  rfl

end

/-! What a write or a clear through the read-write bits leaves, where the mask is all of the word or depends on the
pair. -/

theorem and_wordMask (v : Word) : v &&& 0xFFFFFFFF = v := by
  rw [show (0xFFFFFFFF : Word) = BitVec.allOnes 32 by decide, BitVec.and_allOnes]

theorem writable_all (old v : Word) : (old &&& ~~~ 0xFFFFFFFF) ||| (v &&& 0xFFFFFFFF) = v := by
  rw [and_wordMask, show ~~~ (0xFFFFFFFF : Word) = 0 by decide]
  simp

theorem writable_none (old v : Word) : (old &&& ~~~ 0) ||| (v &&& 0) = old := by
  rw [show ~~~ (0 : Word) = 0xFFFFFFFF by decide, and_wordMask]
  simp

theorem CoreSt.specWrite_xpc (c : CoreSt) (p : Pair) (v : Word) : c.specWrite p 2 v = { c with xpc := v } :=
  congrArg (fun w => { c with xpc := w }) (writable_all c.xpc v)

theorem CoreSt.specWrite_xtab (c : CoreSt) (p : Pair) (v : Word) :
    c.specWrite p 5 v = { c with xtab := (c.xtab &&& 0x3F) ||| (v &&& 0xFFFFFFC0) } :=
  congrArg (fun w => { c with xtab := (c.xtab &&& w) ||| (v &&& 0xFFFFFFC0) })
    (show ~~~ (0xFFFFFFC0 : Word) = 0x3F by decide)

theorem CoreSt.specWrite_scratch (c : CoreSt) (p : Pair) (v : Word) :
    c.specWrite p 6 v = { c with scratch := v } :=
  congrArg (fun w => { c with scratch := w }) (writable_all c.scratch v)

/-- s.status.IE is read-write on the system pair; the program pair has no read-write bit there (R308). -/
theorem CoreSt.specWrite_status (c : CoreSt) (p : Pair) (v : Word) : c.specWrite p 0 v =
    { c with status := if p = Pair.system then (c.status &&& ~~~ 8) ||| (v &&& 8) else c.spec p 0 } := by
  cases p with
  | system => rfl
  | program => exact congrArg (fun w => { c with status := w }) (writable_none (withBit c.status 3 false) v)

theorem CoreSt.specClear_scratch (c : CoreSt) (p : Pair) (v : Word) :
    c.specClear p 6 v = { c with scratch := c.scratch &&& ~~~ v } :=
  congrArg (fun w => { c with scratch := c.scratch &&& ~~~ w }) (and_wordMask v)

theorem CoreSt.specClear_status_supervisor {c : CoreSt} (hu : c.user = false) (p : Pair) (v : Word) :
    c.specClear p 0 v =
      { c with status := c.spec p 0 &&& ~~~ (v &&& (if p = Pair.system then 0x308 else 0x300)) } := by
  simp only [CoreSt.specClear, hu]
  cases p <;> rfl

theorem CoreSt.specClear_status_user {c : CoreSt} (hu : c.user = true) (p : Pair) (v : Word) :
    c.specClear p 0 v = { c with status := c.spec p 0 &&& ~~~ (v &&& 0x300) } := by
  simp only [CoreSt.specClear, hu]
  rfl

section
variable {s : State} {p : Pair} {num : BitVec 11} {e : CoreSt}

theorem exec_mfs_supervisor (h : s.dev.Ready p) (hu : (s.dev.core p).user = false)
    (hn : specListed num.toNat = true) (rd : GReg) : exec (.mfs p rd num) s = .next (s.retire p
      (((s.dev.core p).specRead num.toNat).setReg rd ((s.dev.core p).spec p num.toNat))) :=
  State.lift_specOp_reads h (CoreSt.specFault_listed hu hn _) (.inr (.inr hu)) rd _

theorem exec_mts_supervisor {ra : GReg} (h : s.dev.Ready p) (hu : (s.dev.core p).user = false)
    (hn : specListed num.toNat = true)
    (he : (s.dev.core p).specWrite p num.toNat ((s.dev.core p).reg ra) = e) :
    exec (.mts p ra num) s = .next (s.retire p e) :=
  he ▸ State.lift_specOp_writes h (CoreSt.specFault_listed hu hn _) _

/-- SETS of a register that is no clock and not s.evt writes the old value with the bits of ra set. -/
theorem exec_sets_supervisor {ra : GReg} (h : s.dev.Ready p) (hu : (s.dev.core p).user = false)
    (hn : specListed num.toNat = true) (hclk : num.toNat ≠ 0x11) (hevt : num.toNat ≠ 0x18)
    (he : (s.dev.core p).specWrite p num.toNat ((s.dev.core p).spec p num.toNat ||| (s.dev.core p).reg ra) = e)
    (rd : GReg) : exec (.sets p rd ra num) s =
      .next (s.retire p (e.setReg rd ((s.dev.core p).spec p num.toNat))) := by
  refine (State.lift_specOp_reads h (CoreSt.specFault_listed hu hn _) (.inr (.inr hu)) rd _).trans ?_
  rw [if_neg hevt, CoreSt.specRead, if_neg hclk, he]

theorem exec_clrs_supervisor {ra : GReg} (h : s.dev.Ready p) (hu : (s.dev.core p).user = false)
    (hn : specListed num.toNat = true) (hclk : num.toNat ≠ 0x11)
    (he : (s.dev.core p).specClear p num.toNat ((s.dev.core p).reg ra) = e) (rd : GReg) :
    exec (.clrs p rd ra num) s = .next (s.retire p (e.setReg rd ((s.dev.core p).spec p num.toNat))) := by
  refine (State.lift_specOp_reads h (CoreSt.specFault_listed hu hn _) (.inr (.inr hu)) rd _).trans ?_
  rw [CoreSt.specRead, if_neg hclk, he]

end

/-- Settles O19: the four special-register instructions at supervisor level, register by register. -/
theorem specialRegisterAccess : Obligations.SpecialRegisterAccess := by
  unfold Obligations.SpecialRegisterAccess
  refine ⟨?read, ?write, ?setClear⟩
  case read =>
    intro s p rd c st h hu
    have hread := fun num hn => exec_mfs_supervisor (num := num) h hu hn rd
    exact ⟨hread 0 rfl, hread 1 rfl, hread 2 rfl, hread 3 rfl, hread 4 rfl, hread 5 rfl, hread 6 rfl, hread 7 rfl,
      hread 8 rfl, hread 0x10 rfl, hread 0x11 rfl, hread 0x12 rfl, hread 0x18 rfl, hread 0x19 rfl, hread 0x1F rfl,
      hread 0x20 rfl⟩
  case write =>
    intro s p ra c st h hu
    exact ⟨exec_mts_supervisor h hu rfl rfl, exec_mts_supervisor h hu rfl (c.specWrite_xpc p _),
      exec_mts_supervisor h hu rfl (c.specWrite_xtab p _), exec_mts_supervisor h hu rfl (c.specWrite_scratch p _),
      exec_mts_supervisor h hu rfl rfl, exec_mts_supervisor h hu rfl rfl, exec_mts_supervisor h hu rfl rfl,
      exec_mts_supervisor h hu rfl rfl, exec_mts_supervisor h hu rfl (c.specWrite_status p _),
      exec_mts_supervisor h hu rfl rfl, exec_mts_supervisor h hu rfl rfl, exec_mts_supervisor h hu rfl rfl,
      exec_mts_supervisor h hu rfl rfl, exec_mts_supervisor h hu rfl rfl, exec_mts_supervisor h hu rfl rfl,
      exec_mts_supervisor h hu rfl rfl⟩
  case setClear =>
    intro s p rd ra c st h hu
    exact ⟨exec_sets_supervisor (num := 6) h hu rfl (by decide) (by decide) (c.specWrite_scratch p _) rd,
      exec_clrs_supervisor (num := 6) h hu rfl (by decide) (c.specClear_scratch p _) rd,
      State.lift_specOp_reads h (CoreSt.specFault_listed hu rfl _) (.inr (.inr hu)) rd _,
      exec_clrs_supervisor (num := 0x18) h hu rfl (by decide) rfl rd,
      exec_clrs_supervisor (num := 0) h hu rfl (by decide) (CoreSt.specClear_status_supervisor hu p _) rd⟩

section
variable {s : State} {p : Pair} {num : BitVec 11}

/-- MFS at user level of a register that Table 12.1 marks U. -/
theorem exec_mfs_user (h : s.dev.Ready p) (hu : (s.dev.core p).user = true) (hn : specUserRead num.toNat = true)
    (hl : (s.dev.core p).specLive num.toNat) (rd : GReg) : exec (.mfs p rd num) s = .next (s.retire p
      (((s.dev.core p).specRead num.toNat).setReg rd ((s.dev.core p).spec p num.toNat))) :=
  State.lift_specOp_reads h (by rw [hn]; exact CoreSt.specFault_allowed hu _) hl rd _

theorem exec_mts_fcsr_user (h : s.dev.Ready p) (hu : (s.dev.core p).user = true) (ra : GReg) :
    exec (.mts p ra 8) s = .next (s.retire p ((s.dev.core p).specWrite p 8 ((s.dev.core p).reg ra))) :=
  State.lift_specOp_writes h (CoreSt.specFault_allowed hu 8) _

theorem exec_sets_fcsr_user (h : s.dev.Ready p) (hu : (s.dev.core p).user = true) (rd ra : GReg) :
    exec (.sets p rd ra 8) s = .next (s.retire p (((s.dev.core p).specWrite p 8
      ((s.dev.core p).fcsr ||| (s.dev.core p).reg ra)).setReg rd (s.dev.core p).fcsr)) :=
  State.lift_specOp_reads h (CoreSt.specFault_allowed hu 8) (.inl ⟨by decide, by decide⟩) rd _

/-- CLRS acts at user level on s.fcsr and s.status (R326). -/
theorem exec_clrs_user {ra : GReg} {e : CoreSt} (h : s.dev.Ready p) (hu : (s.dev.core p).user = true)
    (hn : num = 8 ∨ num = 0) (he : (s.dev.core p).specClear p num.toNat ((s.dev.core p).reg ra) = e) (rd : GReg) :
    exec (.clrs p rd ra num) s = .next (s.retire p (e.setReg rd ((s.dev.core p).spec p num.toNat))) := by
  subst he
  rcases hn with rfl | rfl <;>
    exact State.lift_specOp_reads h (CoreSt.specFault_allowed hu _) (.inl ⟨by decide, by decide⟩) rd _

end

/-- The registers that user level may read are those that Table 12.1 marks U. -/
theorem specUserRead_false {num : BitVec 11} (h : num ∉ [(0 : BitVec 11), 8, 0x10, 0x11, 0x12, 0x1F, 0x20]) :
    specUserRead num.toNat = false := by
  simp only [List.mem_cons, List.not_mem_nil, or_false, ← BitVec.toNat_inj] at h
  simpa [specUserRead, and_assoc] using h

theorem toNat_ne_of_ne {num k : BitVec 11} (h : num ≠ k) : num.toNat ≠ k.toNat :=
  fun e => h (BitVec.eq_of_toNat_eq e)

/-- Settles O20: what raises PRIV at user level, what acts there, and what raises ILL at supervisor level. -/
theorem specialRegisterFaults : Obligations.SpecialRegisterFaults := by
  unfold Obligations.SpecialRegisterFaults
  refine ⟨?readPriv, ?writePriv, ?acts, ?clock, ?unlisted⟩
  case readPriv =>
    intro s p rd num h hu hn
    exact State.lift_specOp_raises h (CoreSt.specFault_privileged hu (specUserRead_false hn) _) _ _
  case writePriv =>
    intro s p rd ra num h hu h8
    have h8' : num.toNat ≠ 8 := toNat_ne_of_ne h8
    refine ⟨?mts, ?sets, fun h0 => ?clrs⟩
    case mts => exact State.lift_specOp_raises h (CoreSt.specFault_privileged hu (by simp [h8']) _) _ _
    case sets => exact State.lift_specOp_raises h (CoreSt.specFault_privileged hu (by simp [h8']) _) _ _
    case clrs =>
      have h0' : num.toNat ≠ 0 := toNat_ne_of_ne h0
      exact State.lift_specOp_raises h (CoreSt.specFault_privileged hu (by simp [h8', h0']) _) _ _
  case acts =>
    intro s p rd ra c st h hu
    have hread := fun num hn hl => exec_mfs_user (num := num) h hu hn (.inl hl) rd
    exact ⟨exec_clrs_user (num := 0) h hu (.inr rfl) (CoreSt.specClear_status_user hu p _) rd,
      exec_clrs_user (num := 8) h hu (.inl rfl) rfl rd, exec_mts_fcsr_user h hu ra, exec_sets_fcsr_user h hu rd ra,
      hread 0 rfl (by decide), hread 8 rfl (by decide), hread 0x10 rfl (by decide), hread 0x1F rfl (by decide),
      hread 0x20 rfl (by decide)⟩
  case clock =>
    intro s p rd c h hu hstep
    exact ⟨exec_mfs_user h hu rfl (.inr (.inl hstep)) rd, exec_mfs_user h hu rfl (.inr (.inl hstep)) rd⟩
  case unlisted =>
    intro s p rd ra num h hu hn
    have hf := CoreSt.specFault_unlisted hu hn
    exact ⟨State.lift_specOp_raises h (hf _) _ _, State.lift_specOp_raises h (hf _) _ _,
      State.lift_specOp_raises h (hf _) _ _, State.lift_specOp_raises h (hf _) _ _⟩

end Sys2Proof.Machine
end

section
/-! SUPPORT. Exceptions, double faults, events and interrupts, the instructions of the cyclic program, and the step that
runs one command. -/

namespace Sys2Proof.Machine

/-! ### Exceptions (R323, R324) -/

theorem Dev.exception_double {d : Dev} {p : Pair} (h : bitOf (d.core p).status 5 = true) (code sub : Nat)
    (x : Option Word) (pc : Word) : d.exception p code sub x pc = d.pairStop p true := by
  simp [Dev.exception, h]

theorem Dev.exception_noHandler {d : Dev} {p : Pair} {code : Nat} (hinx : bitOf (d.core p).status 5 = false)
    (hh : d.handler (d.core p).xtab code = none) (sub : Nat) (x : Option Word) (pc : Word) :
    d.exception p code sub x pc = d.pairStop p true := by
  simp [Dev.exception, hinx, hh]

/-- Entry changes the core alone, unless it stops the program: an exception of the program at user level other than a
system call (R325). -/
theorem Dev.exception_enters {d : Dev} {p : Pair} {code : Nat} {h : Word} (hinx : bitOf (d.core p).status 5 = false)
    (hh : d.handler (d.core p).xtab code = some h) (hgo : p = .system ∨ (d.core p).user = false ∨ code = 8)
    (sub : Nat) (x : Option Word) (pc : Word) :
    d.exception p code sub x pc = d.setCore p ((d.core p).enter code sub x pc h) := by
  have hstays : (decide (p = Pair.program) && (d.core p).user && code != 8) = false := by
    rcases hgo with rfl | hu | rfl <;> simp [*]
  simp [Dev.exception, hinx, hh, hstays]

/-- What a handler address must meet (R323). -/
theorem Dev.handler_eq (d : Dev) (x : Word) (code : Nat) : d.handler x code =
    (if (x.toNat + 4 * code < 0x10000 ∨ isSram (x.toNat + 4 * code) = true) ∧
        d.ecc.contains (x.toNat + 4 * code) = false ∧ (d.word (x.toNat + 4 * code)).toNat % 4 = 0 then
      some (d.word (x.toNat + 4 * code)) else none) := by
  unfold Dev.handler
  simp only [Bool.and_eq_true, Bool.or_eq_true, decide_eq_true_eq, Bool.not_eq_true', and_assoc]

/-- Entry and return write the bits PL, IE and INX of s.status alone. -/
theorem CoreSt.bitOf_enter_status (c : CoreSt) (code sub : Nat) (x : Option Word) (pc h : Word) {i : Nat}
    (h0 : i ≠ 0) (h3 : i ≠ 3) (h5 : i ≠ 5) : bitOf (c.enter code sub x pc h).status i = bitOf c.status i := by
  simp [CoreSt.enter, bitOf_withBit, h0, h3, h5]

theorem CoreSt.bitOf_rfx_status (c : CoreSt) (p : Pair) {i : Nat} (h0 : i ≠ 0) (h3 : i ≠ 3) (h5 : i ≠ 5) :
    bitOf (c.rfx p).status i = bitOf c.status i := by
  simp [CoreSt.rfx, bitOf_withBit, h0, h3, h5]

theorem exec_rfx_supervisor {s : State} {p : Pair} (h : s.dev.Ready p) (hu : (s.dev.core p).user = false) :
    exec (.rfx p) s = .next (s.on (s.dev.setCore p ((s.dev.core p).rfx p))) :=
  State.lift_issue_core h (if_neg (by simp [hu]))

/-- Table 14.5 lists the numbers of the system calls. -/
theorem sysKnown_of_mem {imm : BitVec 11} (h : imm ∈ [(1 : BitVec 11), 2, 3, 0x10, 0x20, 0x30, 0x40]) :
    sysKnown imm.toNat = true := by
  simp only [List.mem_cons, List.not_mem_nil, or_false] at h
  rcases h with rfl | rfl | rfl | rfl | rfl | rfl | rfl <;> rfl

/-- SYSC enters the handler of exception 8 and resumes after itself; at user level this is so of the listed calls. -/
theorem exec_sysc_enters {s : State} {p : Pair} {imm : BitVec 11} {x : Word} (h : s.dev.Ready p)
    (hcall : (s.dev.core p).user = false ∨ sysKnown imm.toNat = true) (hinx : bitOf (s.dev.core p).status 5 = false)
    (hh : s.dev.handler (s.dev.core p).xtab 8 = some x) : exec (.sysc p imm) s = .next (s.on (s.dev.setCore p
      ((s.dev.core p).enter 8 0 (some (nw imm.toNat)) ((s.dev.core p).pc + 4) x))) := by
  have hentry := Dev.exception_enters hinx hh (.inr (.inr rfl)) 0 (some (nw imm.toNat)) ((s.dev.core p).pc + 4)
  refine State.lift_issue_core h ?_
  simp only [hentry]
  exact if_neg (by rcases hcall with hu | hk <;> simp [*])

theorem exec_brk_enters {s : State} {p : Pair} {x : Word} (h : s.dev.Ready p)
    (hgo : p = .system ∨ (s.dev.core p).user = false) (hinx : bitOf (s.dev.core p).status 5 = false)
    (hh : s.dev.handler (s.dev.core p).xtab 9 = some x) : exec (.brk p) s = .next (s.on (s.dev.setCore p
      ((s.dev.core p).enter 9 0 none (s.dev.core p).pc x))) :=
  State.lift_issue_core h (Dev.exception_enters hinx hh (hgo.imp_right .inl) 0 none _)

/-- Settles O21: entry, the handler word, the failing table, what the status keeps, and SYSC, BRK and RFX. -/
theorem exceptionEntry : Obligations.ExceptionEntry := by
  unfold Obligations.ExceptionEntry
  refine ⟨fun d p code sub x pc h hinx hh hgo => Dev.exception_enters hinx hh hgo sub x pc,
    fun d x code => d.handler_eq x code, fun d p code sub x pc hinx hh => Dev.exception_noHandler hinx hh sub x pc,
    ?status, fun s p h hu => exec_rfx_supervisor h hu, ?rfxUser, ?sysc,
    fun s p x h hgo hinx hh => exec_brk_enters h hgo hinx hh⟩
  case status =>
    intro c p code sub x pc h i hi
    have h0 : i ≠ 0 := by omega
    have h3 : i ≠ 3 := by omega
    have h5 : i ≠ 5 := by omega
    exact ⟨c.bitOf_enter_status code sub x pc h h0 h3 h5, c.bitOf_rfx_status p h0 h3 h5⟩
  case rfxUser =>
    intro s p h hu
    exact State.lift_issue_eq h (if_pos hu)
  case sysc =>
    intro s p imm x c h hcall hinx hh
    exact exec_sysc_enters h (hcall.imp_right sysKnown_of_mem) hinx hh

/-- A lockstep error stops a pair that is not stopped (R302). -/
theorem exec_lockstepError_stops {s : State} {p : Pair} (hs : s.dev.asleep = false)
    (hrun : (s.dev.core p).stopped = false) :
    exec (.lockstepError p) s = .next (s.on (s.dev.pairStop p false).settle) :=
  (State.lift_awake hs _ : execLockstepError p s = _).trans (by simp [hrun])

/-- Settles O22: a second exception stops the pair, what a stop is for each pair, and the lockstep error. -/
theorem doubleFault : Obligations.DoubleFault := by
  unfold Obligations.DoubleFault
  exact ⟨fun d p code sub x pc h => Dev.exception_double h code sub x pc, fun d => rfl, fun d => ⟨rfl, rfl⟩,
    fun s p hs hrun => exec_lockstepError_stops hs hrun⟩

/-! ### Events and interrupts (R327, R328, R305) -/

theorem CoreSt.waiting_of_runs {c : CoreSt} (h : c.runs = true) : c.waiting = .none := by
  have hboth : c.stopped = false ∧ c.waiting = .none := by simpa [CoreSt.runs] using h
  exact hboth.2

/-- A WFE whose event is pending completes at once. -/
theorem CoreSt.wake_pending {c : CoreSt} {mask : Word} (hw : c.waiting = .none) (r : GReg) (h : c.evt &&& mask ≠ 0) :
    CoreSt.wake { c with waiting := .wfe mask r } = (c.setReg r (c.evt &&& mask)).next := by
  obtain ⟨⟩ := c
  subst hw
  exact if_neg h

theorem CoreSt.wake_waits {c : CoreSt} {mask : Word} (r : GReg) (h : c.evt &&& mask = 0) :
    CoreSt.wake { c with waiting := .wfe mask r } = { c with waiting := .wfe mask r } := if_pos h

@[simp] theorem Dev.setEvent_pwr (d : Dev) (p : Pair) (line : Nat) : (d.setEvent p line).pwr = d.pwr := by
  simp [Dev.setEvent]

theorem exec_wfe_supervisor {s : State} {p : Pair} (h : s.dev.Ready p) (hu : (s.dev.core p).user = false)
    (rd ra : GReg) : exec (.wfe p rd ra) s = .next (s.on (s.dev.setCore p
      (CoreSt.wake { s.dev.core p with waiting := .wfe ((s.dev.core p).reg ra) rd }))) :=
  State.lift_issue_core h (if_neg (by simp [hu]))

/-- SEV at supervisor level sets the line imm[3:0] in the pair that imm[4] names. -/
theorem exec_sev_supervisor {s : State} {p : Pair} {imm : BitVec 11} (h : s.dev.Ready p)
    (hu : (s.dev.core p).user = false) (hi : imm.toNat < 32) : exec (.sev p imm) s = .next (s.on
      ((s.dev.setCore p (s.dev.core p).next).setEvent (if 16 ≤ imm.toNat then .program else .system)
        (imm.toNat % 16))) := by
  have hpair : (imm.toNat / 16 % 2 = 1) = (16 ≤ imm.toNat) := propext (by omega)
  refine State.lift_issue_plain h ?_ (by simpa using h.2.2.2)
  simp only [if_neg (Nat.not_le.2 hi), hu, hpair]
  rfl

theorem exec_sev_user {s : State} {p : Pair} {imm : BitVec 11} (h : s.dev.Ready p)
    (hu : (s.dev.core p).user = true) (hi : imm.toNat < 32) :
    exec (.sev p imm) s = .next (s.on (s.dev.raise p 2 0 none).settle) :=
  State.lift_issue_eq h ((if_neg (Nat.not_le.2 hi)).trans (if_pos hu))

/-- An interrupt source may be taken: a core event's line is pending and enabled, a peripheral source has a number. -/
def CoreSt.interrupts (c : CoreSt) (source : Nat) : Prop :=
  (source < 0x80 ∨ (0x90 ≤ source ∧ source < 256)) ∨
    (0x80 ≤ source ∧ source < 0x90 ∧ bitOf (c.evt &&& c.evmask) (source - 0x80) = true)

theorem exec_interrupt_enters {s : State} {source : Nat} {x : Word} (hs : s.dev.asleep = false)
    (hw : s.dev.pwr.resetWait = none) (hrun : s.dev.sys.stopped = false) (hie : bitOf s.dev.sys.status 3 = true)
    (hinx : bitOf s.dev.sys.status 5 = false) (hsrc : s.dev.sys.interrupts source)
    (hh : s.dev.handler s.dev.sys.xtab 10 = some x) : exec (.interrupt source) s =
      .next (s.on (s.dev.setCore .system (s.dev.sys.enter 10 source none s.dev.sys.pc x))) := by
  have hentry := Dev.exception_enters (d := s.dev) (p := .system) hinx hh (.inl rfl) source none s.dev.sys.pc
  have hpending : (if 0x80 ≤ source && source < 0x90 then bitOf (s.dev.sys.evt &&& s.dev.sys.evmask) (source - 0x80)
      else decide (source < 256)) = true := by
    simp only [Bool.and_eq_true, decide_eq_true_eq]
    rcases hsrc with hper | ⟨hlo, hhi, hline⟩
    · rw [if_neg (by omega)]
      exact decide_eq_true (by omega)
    · rw [if_pos ⟨hlo, hhi⟩]
      exact hline
  refine (State.lift_awake hs _ : execInterrupt source s = _).trans ?_
  simp only [hrun, hie, hpending, hentry]
  exact congrArg (fun d => Host.Outcome.next (s.on d)) (Dev.settle_none (by simpa using hw))

/-- Settles O23: FENCE by its reserved bits, WFE and SEV by level, and the interrupt of the system pair. -/
theorem eventsAndInterrupts : Obligations.EventsAndInterrupts := by
  unfold Obligations.EventsAndInterrupts
  refine ⟨?fence, ?fenceIll, ?pending, ?waits, fun s p imm h hu hi => exec_sev_supervisor h hu hi, ?user,
    fun s source x hs hw hrun hie hinx hsrc hh => exec_interrupt_enters hs hw hrun hie hinx hsrc hh⟩
  case fence =>
    intro s p imm h hi
    exact State.lift_aluIf h (by simpa using hi) id
  case fenceIll =>
    intro s p imm h hi
    exact State.lift_aluIf_ill h (by simpa using hi) id
  case pending =>
    intro s p rd ra c h hu he
    rw [exec_wfe_supervisor h hu, CoreSt.wake_pending (CoreSt.waiting_of_runs h.2.1) rd he]
    rfl
  case waits =>
    intro s p rd ra c h hu he
    rw [exec_wfe_supervisor h hu, CoreSt.wake_waits rd he]
  case user =>
    intro s p rd ra imm h hu
    exact ⟨State.lift_issue_eq h (if_pos hu), exec_sev_user h hu⟩

/-! ### Instructions of the cyclic program (R318 to R320, R366) -/

theorem State.lift_cycOp_eq {s : State} {f : Dev → Dev} {e : Dev} (h : s.dev.Ready .program) (he : f s.dev = e) :
    s.lift (fun d => d.cycOp .program f) = .next (s.on e.settle) :=
  State.lift_issue_eq h ((if_pos rfl).trans he)

theorem State.lift_cycOp_core {s : State} {f : Dev → Dev} {c : CoreSt} (h : s.dev.Ready .program)
    (he : f s.dev = s.dev.setCore .program c) :
    s.lift (fun d => d.cycOp .program f) = .next (s.on (s.dev.setCore .program c)) :=
  State.lift_issue_core h ((if_pos rfl).trans he)

/-- On the system pair such an instruction is illegal, whatever it would do (R318). -/
theorem Dev.cycOp_system {d : Dev} (h : d.Ready .system) (f : Dev → Dev) :
    d.cycOp .system f = (d.raise .system 1 0 none).settle := by
  rw [Dev.cycOp, Dev.issue_ready h, if_neg (by decide)]

theorem State.lift_cycOp_system {s : State} (h : s.dev.Ready .system) (f : Dev → Dev) :
    s.lift (fun d => d.cycOp .system f) = .next (s.on (s.dev.raise .system 1 0 none).settle) := by
  rw [State.lift_awake h.1, Dev.cycOp_system h]

theorem State.lift_objOp_system {s : State} (h : s.dev.Ready .system) (n : Nat) (rd ra rb : GReg)
    (f : Dev → List Word → Word → List Word × Word) : s.lift (fun d => d.objOp .system n rd ra rb (f d)) =
      .next (s.on (s.dev.raise .system 1 0 none).settle) := by
  rw [State.lift_awake h.1, Dev.objOp, Dev.cycOp_system h]

/-- What a timer instruction evaluates: its object on the frozen time base, with bit 0 of rb as the input. -/
def Dev.timerEval (d : Dev) (ev : Nat → Bool → Timer → Timer) (l : List Word) (b : Word) : List Word × Word :=
  timerWords l (ev d.cyc.frozen.tb (bitOf b 0) (timerOf l)) (bitOf b 0)

theorem Dev.timerOp_eq (d : Dev) (p : Pair) (rd ra rb : GReg) (ev : Nat → Bool → Timer → Timer) :
    d.timerOp p rd ra rb ev = d.objOp p 16 rd ra rb (d.timerEval ev) := rfl

theorem State.lift_timerOp_system {s : State} (h : s.dev.Ready .system) (rd ra rb : GReg)
    (ev : Nat → Bool → Timer → Timer) : s.lift (fun d => d.timerOp .system rd ra rb ev) =
      .next (s.on (s.dev.raise .system 1 0 none).settle) := by
  simp only [Dev.timerOp_eq]
  exact State.lift_objOp_system h 16 rd ra rb (fun d => d.timerEval ev)

/-- A store of the program pair leaves its own core as it is. -/
theorem Dev.sramStore_program_prog (d : Dev) (a : Nat) (l : List Byte) : (d.sramStore .program a l).prog = d.prog := by
  unfold Dev.sramStore
  split
  · simp
  · rfl

/-- An object instruction whose access raises nothing: the object's new words are stored, the result goes to rd. -/
theorem Dev.objOp_made {d : Dev} {a n : Nat} {ra : GReg} {l : List Word} (h : d.Ready .program)
    (ha : (d.prog.reg ra).toNat = a) (hf : d.objFault .program a n = none)
    (hl : (List.range (n / 4)).map (fun i => d.word (a + 4 * i)) = l) (rd rb : GReg)
    (f : List Word → Word → List Word × Word) : d.objOp .program n rd ra rb f =
      (d.sramStore .program a (wordsBytes (f l (d.prog.reg rb)).1)).setCore .program
        (d.prog.setReg rd (f l (d.prog.reg rb)).2).next := by
  rw [Dev.objOp, Dev.cycOp, Dev.issue_ready h, if_pos rfl]
  simp only [Dev.core, ha, hf, Dev.corrected_none h.2.2.1.2, hl, Dev.sramStore_program_prog]
  exact Dev.settle_none (by simpa using h.2.2.2)

/-- The evaluation may read the frozen values of the module, as a timer reads its time base. -/
theorem State.lift_objOp {s : State} {a n : Nat} {ra : GReg} {l : List Word} (h : s.dev.Ready .program)
    (ha : (s.dev.prog.reg ra).toNat = a) (hf : s.dev.objFault .program a n = none)
    (hl : (List.range (n / 4)).map (fun i => s.dev.word (a + 4 * i)) = l) (rd rb : GReg)
    (f : Dev → List Word → Word → List Word × Word) : s.lift (fun d => d.objOp .program n rd ra rb (f d)) =
      .next (s.on ((s.dev.sramStore .program a (wordsBytes (f s.dev l (s.dev.prog.reg rb)).1)).setCore .program
        (s.dev.prog.setReg rd (f s.dev l (s.dev.prog.reg rb)).2).next)) := by
  rw [State.lift_awake h.1, Dev.objOp_made h ha hf hl]

theorem Dev.objWords_four (d : Dev) (a : Nat) : (List.range (16 / 4)).map (fun i => d.word (a + 4 * i)) =
    [d.word a, d.word (a + 4), d.word (a + 8), d.word (a + 12)] := rfl

theorem Dev.objWords_two (d : Dev) (a : Nat) : (List.range (8 / 4)).map (fun i => d.word (a + 4 * i)) =
    [d.word a, d.word (a + 4)] := rfl

theorem State.lift_timerOp {s : State} {a : Nat} {ra : GReg} {l : List Word} (h : s.dev.Ready .program)
    (ha : (s.dev.prog.reg ra).toNat = a) (hf : s.dev.objFault .program a 16 = none)
    (hl : (List.range (16 / 4)).map (fun i => s.dev.word (a + 4 * i)) = l) (rd rb : GReg)
    (ev : Nat → Bool → Timer → Timer) : s.lift (fun d => d.timerOp .program rd ra rb ev) =
      .next (s.on ((s.dev.sramStore .program a (wordsBytes (s.dev.timerEval ev l (s.dev.prog.reg rb)).1)).setCore
        .program (s.dev.prog.setReg rd (s.dev.timerEval ev l (s.dev.prog.reg rb)).2).next)) := by
  simp only [Dev.timerOp_eq]
  exact State.lift_objOp h ha hf hl rd rb (fun d => d.timerEval ev)

/-- Settles O30: objects of four and of two words, TBRD by its selector, the system pair, and CYEND by the phase. -/
theorem cyclicObjects : Obligations.CyclicObjects := by
  unfold Obligations.CyclicObjects
  refine ⟨?four, ?two, ?tbrd, ?system, ?cyend⟩
  case four =>
    intro s rd ra rb a c l h ha hf
    have htimer := fun ev => State.lift_timerOp h ha hf (Dev.objWords_four _ a) rd rb ev
    have hcounter := fun up down =>
      State.lift_objOp h ha hf (Dev.objWords_four _ a) rd rb (fun _ => counterEval up down)
    exact ⟨htimer tonEval, htimer tofEval, htimer tpEval, hcounter true false, hcounter false true,
      hcounter true true⟩
  case two =>
    intro s rd ra rb a c l h ha hf
    have hedge := fun rising => State.lift_objOp h ha hf (Dev.objWords_two _ a) rd rb (fun _ => edgeEval rising)
    exact ⟨hedge true, hedge false⟩
  case tbrd =>
    intro s rd h
    exact ⟨State.lift_cycOp_core h rfl, State.lift_cycOp_core h rfl, fun hok => State.lift_cycOp_core h (if_pos hok),
      fun hok => State.lift_cycOp_eq h (if_neg (Bool.eq_false_iff.1 hok))⟩
  case system =>
    intro s rd ra rb sel h
    have htimer := State.lift_timerOp_system h rd ra rb
    have hobj := fun n f => State.lift_objOp_system h n rd ra rb (fun _ => f)
    exact ⟨State.lift_cycOp_system h _, State.lift_cycOp_system h _, htimer tonEval, htimer tofEval, htimer tpEval,
      hobj 16 (counterEval true false), hobj 16 (counterEval false true), hobj 16 (counterEval true true),
      hobj 8 (edgeEval true), hobj 8 (edgeEval false)⟩
  case cyend =>
    intro s h
    exact ⟨fun hphase => State.lift_cycOp_core h (if_neg hphase),
      fun hphase => State.lift_cycOp_eq h (if_pos hphase)⟩

/-! ### One step -/

theorem step_front {s : State} {c : Instr} {rest : List Instr} (h : s.pending = c :: rest) :
    step s = exec c { s with pending := rest } := by
  simp only [step, h]

theorem step_idle {s : State} (h : s.pending = []) (hr : s.programRuns = false) : step s = .next s := by
  simp [step, h, State.idle, hr]

theorem step_program {s : State} (h : s.pending = []) (hr : s.programRuns = true) : step s = s.runProgram := by
  simp [step, h, State.idle, hr]

theorem State.programRuns_iff (s : State) : s.programRuns = true ↔ s.dev.asleep = false ∧
    s.dev.cyc.phase = .execute ∧ s.dev.prog.runs = true ∧ s.dev.prog.user = true := by
  simp [State.programRuns, and_assoc]

theorem State.runProgram_some {s : State} {i : Instr}
    (h : decodePleol .program (s.dev.word s.dev.prog.pc.toNat) = some i) : s.runProgram = exec i s := by
  simp only [State.runProgram, h]

/-- A word that spells no instruction raises the illegal-instruction exception (R310). -/
theorem State.runProgram_none {s : State} (h : decodePleol .program (s.dev.word s.dev.prog.pc.toNat) = none)
    (hr : s.dev.Ready .program) : s.runProgram = .next (s.on (s.dev.raise .program 1 0 none).settle) := by
  simp only [State.runProgram, h]
  exact State.lift_issue hr _

/-- Settles O1: the command at the front, else the program's instruction, else nothing. -/
theorem stepRunsFront : Obligations.StepRunsFront := by
  unfold Obligations.StepRunsFront
  refine ⟨fun s c rest h => step_front h, fun s h hr => step_idle h hr, fun s => s.programRuns_iff,
    fun s i h hr hi => (step_program h hr).trans (State.runProgram_some hi),
    fun s h hr hi hready => (step_program h hr).trans (State.runProgram_none hi hready), fun p => ?words⟩
  cases p <;> exact ⟨rfl, rfl⟩

end Sys2Proof.Machine
end

section
/-! SUPPORT. Integer register instructions of a ready pair, and the answer that every command gives. -/

namespace Sys2Proof.Machine

/-! ### Integer register instructions (Table 12.5) -/

/-- Settles O6: each register instruction is a shared register operation with its own function, and w0 takes no
write. -/
theorem integerResults : Obligations.IntegerResults := by
  unfold Obligations.IntegerResults
  refine ⟨?two, ?shift, ?one, ?w0⟩
  case two =>
    intro s p rd ra rb c h
    have hop := State.lift_rrr h rd ra rb
    exact ⟨hop _, hop _, hop _, hop _, hop _, hop _, hop _, hop _, hop _, hop _, hop _, hop _, hop _, hop _, hop _,
      hop _, hop _, hop _, hop _, hop _, hop _⟩
  case shift =>
    intro s p rd ra sh c h
    have hop := State.lift_rri h rd ra
    exact ⟨hop _, hop _, hop _, hop _⟩
  case one =>
    intro s p rd ra c h
    have hop := State.lift_rri h rd ra
    exact ⟨hop _, hop _, hop _, hop _⟩
  case w0 =>
    exact fun c r q v => ⟨c.reg_zero, c.setReg_zero v, fun hr => c.reg_setReg_same hr v,
      fun hq => c.reg_setReg_other hq v⟩

/-! ### Every command answers (R526 to R528) -/

/-- Every command has its effect on the module alone, and only those of the always-on domain have it in a module that
sleeps. -/
theorem exec_effect (c : Instr) (s : State) :
    (∃ f, exec c s = s.lift f) ∨ (unpowered c = true ∧ ∃ f, exec c s = s.always f) := by
  cases c
  case feedLost | feedGood | standbyWake | wakeChg | powerOn | rstNReset | thermalCut | thermalRestart
      | referenceTick | killIn =>
    unfold exec
    exact .inr ⟨rfl, _, rfl⟩
  all_goals
    unfold exec
    exact .inl ⟨_, rfl⟩

/-- Settles O2: an effect on the module leaves the queue, and one that needs power leaves a sleeping module. -/
theorem everyCommandAnswers : Obligations.EveryCommandAnswers := by
  unfold Obligations.EveryCommandAnswers
  intro c s
  obtain ⟨f, hf⟩ | ⟨hu, f, hf⟩ := exec_effect c s
  · cases hsleep : s.dev.asleep with
    | true => exact ⟨s, hf.trans (State.lift_asleep hsleep f), rfl, fun _ _ => rfl⟩
    | false => exact ⟨_, hf.trans (State.lift_awake hsleep f), rfl, fun h => nomatch h⟩
  · exact ⟨_, hf, rfl, fun _ h => nomatch hu.symm.trans h⟩

end Sys2Proof.Machine
end

section
/-! SUPPORT. The cell-vector extension on a ready pair: lanes, masks, reductions and vector memory. -/

namespace Sys2Proof.Machine

/-! ### Lanes (R341) -/

theorem CoreSt.lane_setLanes_same (c : CoreSt) (r : VReg) (f : Nat → Word) {i : Nat} (hi : i < 64) :
    (c.setLanes r f).lane r i = f i := by
  simp [CoreSt.lane, CoreSt.setLanes, hi]

theorem CoreSt.lane_setLanes_other (c : CoreSt) {r q : VReg} (h : q ≠ r) (f : Nat → Word) (i : Nat) :
    (c.setLanes r f).lane q i = c.lane q i := by
  have hne : r.toNat ≠ q.toNat := fun e => h (BitVec.eq_of_toNat_eq e.symm)
  simp [CoreSt.lane, CoreSt.setLanes, hne]

theorem CoreSt.active_iff (c : CoreSt) (k : VMask) (i : Nat) :
    c.active k i = true ↔ i < c.vl ∧ (k.me = true → c.mlane k.mi i = true) := by
  cases hme : k.me <;> simp [CoreSt.active, hme]

theorem CoreSt.lane_putLanes_same (c : CoreSt) (r : VReg) (k : VMask) (f : Nat → Word) {i : Nat} (hi : i < 64) :
    (c.putLanes r k f).lane r i = if i < c.vl ∧ (k.me = true → c.mlane k.mi i = true) then f i else c.lane r i := by
  simp only [CoreSt.putLanes, CoreSt.lane_setLanes_same c r _ hi, CoreSt.active_iff]

theorem CoreSt.lane_putLanes_other (c : CoreSt) {r q : VReg} (h : q ≠ r) (k : VMask) (f : Nat → Word) (i : Nat) :
    (c.putLanes r k f).lane q i = c.lane q i :=
  CoreSt.lane_setLanes_other c h _ i

/-! ### Vector operations on a ready pair (R342, R343, R345) -/

section
variable {s : State} {p : Pair} (h : s.dev.Ready p) (hv : (s.dev.core p).vl ≠ 0)
include h hv

theorem State.lift_vvv (vd va : VReg) (s2 : VSrc) (k : VMask) (f : Word → Word → Word) :
    s.lift (fun d => d.vvv p vd va s2 k f) = .next (s.retire p ((s.dev.core p).putLanes vd k
      (fun i => f ((s.dev.core p).lane va i) ((s.dev.core p).src2 s2 i)))) :=
  State.lift_vop h hv _

theorem State.lift_vff (vd : VReg) (k : VMask) (f : CoreSt → Nat → Nat × FFlags) :
    s.lift (fun d => d.vff p vd k f) = .next (s.retire p (((s.dev.core p).putLanes vd k
      (fun i => nw (f (s.dev.core p) i).1)).fflags
        ((s.dev.core p).laneFlags k (fun i => (f (s.dev.core p) i).2)))) :=
  State.lift_vop h hv _

theorem State.lift_vcm (md : MReg) (va : VReg) (s2 : VSrc) (k : VMask) (f : Word → Word → Bool) :
    s.lift (fun d => d.vcm p md va s2 k f) = .next (s.retire p ((s.dev.core p).putMask md k
      (fun i => f ((s.dev.core p).lane va i) ((s.dev.core p).src2 s2 i)))) :=
  State.lift_vop h hv _

theorem State.lift_vmm (md ma mb : MReg) (k : VMask) (f : Bool → Bool → Bool) :
    s.lift (fun d => d.vmm p md ma mb k f) = .next (s.retire p ((s.dev.core p).putMask md k
      (fun i => f ((s.dev.core p).mlane ma i) ((s.dev.core p).mlane mb i)))) :=
  State.lift_vop h hv _

end

/-! ### Integer and fraction lanes (Table 13.3) -/

/-- Settles O24: each instruction is a vector operation with its own function of the two sources, and the lanes an
update writes are the active ones. -/
theorem vectorLaneResults : Obligations.VectorLaneResults := by
  unfold Obligations.VectorLaneResults
  refine ⟨?lanes, fun s p vd va s2 mi h hv => State.lift_vop h hv _,
    fun c vd q k f i hi => ⟨c.lane_putLanes_same vd k f hi, fun hq => c.lane_putLanes_other hq k f i⟩⟩
  intro s p vd va s2 k c h hv
  have hop := State.lift_vvv h hv vd va s2 k
  exact ⟨hop _, hop _, hop _, hop _, hop _, hop _, hop _, hop _, hop _, hop _, hop _, hop _, hop _, hop _, hop _,
    hop _, hop _, State.lift_vop h hv _, State.lift_vop h hv _, State.lift_vop h hv _⟩

/-! ### binary32 lanes (Table 13.4) -/

theorem CoreSt.laneFlags_zero (c : CoreSt) (k : VMask) : c.laneFlags k (fun _ => 0) = 0 := by
  unfold CoreSt.laneFlags
  induction List.range 64 with
  | nil => rfl
  | cons i t ih => simp

/-- Settles O25: each instruction puts the result of its scalar operation into the active lanes and ORs their flags. -/
theorem vectorBinary32Results : Obligations.VectorBinary32Results := by
  unfold Obligations.VectorBinary32Results
  refine ⟨?two, ?one⟩
  case two =>
    intro s p vd va s2 k c h hv
    have hop := State.lift_vff h hv vd k
    exact ⟨hop _, hop _, hop _, hop _, hop _, hop _, hop _⟩
  case one =>
    intro s p vd va k c h hv
    have hop := State.lift_vff h hv vd k
    refine ⟨hop _, hop _, (hop _).trans ?_, (hop _).trans ?_, (hop _).trans ?_⟩
    · simp only [nw_toNat, c]
    · rw [CoreSt.laneFlags_zero, CoreSt.fflags_zero]
    · rw [CoreSt.laneFlags_zero, CoreSt.fflags_zero]

/-! ### Masks (R341, Tables 13.5 and 13.6) -/

/-- The number whose bits below `n` are the values of `f`, as a mask is built from lane 0 up. -/
def lowMask (f : Nat → Bool) (n : Nat) : Nat := (List.range n).foldl (fun a i => if f i then a + 2 ^ i else a) 0

theorem lowMask_succ (f : Nat → Bool) (n : Nat) :
    lowMask f (n + 1) = if f n then 2 ^ n + lowMask f n else lowMask f n := by
  simp only [lowMask, List.range_succ, List.foldl_append, List.foldl_cons, List.foldl_nil, Nat.add_comm]

theorem lowMask_lt (f : Nat → Bool) (n : Nat) : lowMask f n < 2 ^ n := by
  induction n with
  | zero => exact Nat.one_pos
  | succ n ih =>
    rw [lowMask_succ, Nat.pow_succ]
    split <;> omega

theorem lowMask_testBit (f : Nat → Bool) (n i : Nat) : (lowMask f n).testBit i = (decide (i < n) && f i) := by
  induction n with
  | zero => simp [lowMask]
  | succ n ih =>
    have htop : (lowMask f n).testBit n = false := Nat.testBit_lt_two_pow (lowMask_lt f n)
    rw [lowMask_succ]
    rcases Nat.lt_trichotomy i n with hlt | heq | hgt
    · split
      · simp [Nat.testBit_two_pow_add_gt hlt, ih, hlt, Nat.lt_succ_of_lt hlt]
      · simp [ih, hlt, Nat.lt_succ_of_lt hlt]
    · subst heq
      split
      · simp [Nat.testBit_two_pow_add_eq, *]
      · simp [*]
    · have hwide := Nat.testBit_lt_two_pow (lt_of_lt_of_le (lowMask_lt f (n + 1)) (Nat.pow_le_pow_right two_pos hgt))
      rw [lowMask_succ] at hwide
      simp [hwide, Nat.not_lt.2 (Nat.succ_le_of_lt hgt)]

theorem maskOf_getLsbD (f : Nat → Bool) {i : Nat} (hi : i < 64) : (maskOf f).getLsbD i = f i := by
  rw [maskOf, ← lowMask, BitVec.getLsbD_ofNat, lowMask_testBit]
  simp [hi]

theorem CoreSt.mlane_putMask_same (c : CoreSt) (r : MReg) (k : VMask) (f : Nat → Bool) {i : Nat} (hi : i < 64) :
    (c.putMask r k f).mlane r i = (decide (i < c.vl) && (!k.me || c.mlane k.mi i) && f i) := by
  simp [CoreSt.putMask, CoreSt.mlane, maskOf_getLsbD _ hi, CoreSt.active]

theorem CoreSt.mlane_putMask_other (c : CoreSt) {r q : MReg} (h : q ≠ r) (k : VMask) (f : Nat → Bool) (i : Nat) :
    (c.putMask r k f).mlane q i = c.mlane q i := by
  have hne : r.toNat ≠ q.toNat := fun e => h (BitVec.eq_of_toNat_eq e.symm)
  simp [CoreSt.putMask, CoreSt.mlane, hne]

/-- Settles O26: compares and mask operations through their shared operations, the length and the moves of whole masks
on the core alone, and the lanes that a mask result writes. -/
theorem vectorMaskResults : Obligations.VectorMaskResults := by
  unfold Obligations.VectorMaskResults
  refine ⟨?compare, ?mask, fun s p rd ra h => ⟨State.lift_alu h _, State.lift_alu h _⟩,
    fun s p r mv h hok => ⟨State.lift_aluIf h hok _, State.lift_aluIf h hok _⟩,
    fun c md q k f i hi => ⟨c.mlane_putMask_same md k f hi, fun hq => c.mlane_putMask_other hq k f i⟩⟩
  case compare =>
    intro s p md va s2 k c h hv
    have hop := State.lift_vcm h hv md va s2 k
    exact ⟨hop _, hop _, hop _, hop _, hop _, hop _, State.lift_vop h hv _, State.lift_vop h hv _,
      State.lift_vop h hv _⟩
  case mask =>
    intro s p md ma mb k c h hv
    have hop := fun mb => State.lift_vmm h hv md ma mb k
    exact ⟨hop mb _, hop mb _, hop mb _, hop ma _⟩

/-! ### Reductions (R348) -/

theorem State.lift_vred {s : State} {p : Pair} (h : s.dev.Ready p) (hv : (s.dev.core p).vl ≠ 0) (rd : GReg) (k : VMask)
    (f : CoreSt → List Nat → Word) : s.lift (fun d => d.vred p rd k f) = .next (s.retire p
      ((s.dev.core p).setReg rd (f (s.dev.core p) ((s.dev.core p).lanes k)))) :=
  State.lift_vop h hv _

theorem State.lift_vredD {s : State} {p : Pair} {rd : GReg} (h : s.dev.Ready p) (hv : (s.dev.core p).vl ≠ 0)
    (hok : pairOk rd = true) (k : VMask) (f : CoreSt → List Nat → Word × Word) :
    s.lift (fun d => d.vredD p rd k f) = .next (s.retire p
      (((s.dev.core p).setReg rd (f (s.dev.core p) ((s.dev.core p).lanes k)).1).setReg (rd + 1)
        (f (s.dev.core p) ((s.dev.core p).lanes k)).2)) :=
  State.lift_issue_core h ((if_neg hv).trans (if_neg (by simp [hok])))

/-- The better value of two lanes with their values, the earlier one where neither is better. -/
def betterLane (b : Int → Int → Bool) (a : Int × Nat) (e : Nat × Int) : Int × Nat := if b e.2 a.1 then (e.2, e.1) else a

theorem extreme_cons (b : Int → Int → Bool) (d : Int) (i : Nat) (x : Int) (t : List (Nat × Int)) :
    extreme b d ((i, x) :: t) = ((t.foldl (betterLane b) (x, i)).1, nw (t.foldl (betterLane b) (x, i)).2) := rfl

/-- Under a strict weak order the fold gives the first lane that no other is better than: it is better than every lane
before it, and no lane after it is better. -/
theorem betterLane_first {b : Int → Int → Bool} (htrans : ∀ x y z, b x y = true → b y z = true → b x z = true)
    (hweak : ∀ x y z, b x y = true → b z y = false → b x z = true) (i : Nat) (x : Int) (t : List (Nat × Int)) :
    ∃ l1 l2 j y, (i, x) :: t = l1 ++ (j, y) :: l2 ∧ t.foldl (betterLane b) (x, i) = (y, j) ∧
      (∀ e ∈ l1, b y e.2 = true) ∧ (∀ e ∈ l2, b e.2 y = false) := by
  induction t using List.reverseRecOn with
  | nil => exact ⟨[], [], i, x, rfl, rfl, by simp, by simp⟩
  | append_singleton t e ih =>
    obtain ⟨l1, l2, j, y, hl, hfold, hbefore, hafter⟩ := ih
    have hstep : (t ++ [e]).foldl (betterLane b) (x, i) = betterLane b (y, j) e := by
      rw [List.foldl_append, hfold, List.foldl_cons, List.foldl_nil]
    cases hb : b e.2 y with
    | true =>
      refine ⟨(i, x) :: t, [], e.1, e.2, rfl, by rw [hstep]; exact if_pos hb, ?_, by simp⟩
      intro g hg
      rw [hl, List.mem_append, List.mem_cons] at hg
      obtain hg | rfl | hg := hg
      · exact htrans _ _ _ hb (hbefore g hg)
      · exact hb
      · exact hweak _ _ _ hb (hafter g hg)
    | false =>
      refine ⟨l1, l2 ++ [e], j, y, by rw [← List.cons_append, hl]; simp,
        by rw [hstep]; exact if_neg (by simp [hb]), hbefore, ?_⟩
      intro g hg
      rw [List.mem_append, List.mem_singleton] at hg
      obtain hg | rfl := hg
      · exact hafter g hg
      · exact hb

theorem extreme_first {b : Int → Int → Bool} (htrans : ∀ x y z, b x y = true → b y z = true → b x z = true)
    (hweak : ∀ x y z, b x y = true → b z y = false → b x z = true) (d : Int) {l : List (Nat × Int)} (hl : l ≠ []) :
    ∃ l1 l2 i x, l = l1 ++ (i, x) :: l2 ∧ extreme b d l = (x, nw i) ∧
      (∀ e ∈ l1, b x e.2 = true) ∧ (∀ e ∈ l2, b e.2 x = false) := by
  obtain ⟨⟨i, x⟩, t, rfl⟩ := List.exists_cons_of_ne_nil hl
  obtain ⟨l1, l2, j, y, hsplit, hfold, hbefore, hafter⟩ := betterLane_first htrans hweak i x t
  exact ⟨l1, l2, j, y, hsplit, by rw [extreme_cons, hfold], hbefore, hafter⟩

theorem extreme_least (d : Int) {l : List (Nat × Int)} (hl : l ≠ []) :
    ∃ l1 l2 i x, l = l1 ++ (i, x) :: l2 ∧ extreme (fun x y => decide (x < y)) d l = (x, nw i) ∧
      (∀ e ∈ l1, x < e.2) ∧ (∀ e ∈ l2, x ≤ e.2) := by
  simpa using extreme_first (b := fun x y => decide (x < y))
    (by simp only [decide_eq_true_eq]; omega) (by simp only [decide_eq_true_eq, decide_eq_false_iff_not]; omega) d hl

theorem extreme_greatest (d : Int) {l : List (Nat × Int)} (hl : l ≠ []) :
    ∃ l1 l2 i x, l = l1 ++ (i, x) :: l2 ∧ extreme (fun x y => decide (y < x)) d l = (x, nw i) ∧
      (∀ e ∈ l1, e.2 < x) ∧ (∀ e ∈ l2, e.2 ≤ x) := by
  simpa using extreme_first (b := fun x y => decide (y < x))
    (by simp only [decide_eq_true_eq]; omega) (by simp only [decide_eq_true_eq, decide_eq_false_iff_not]; omega) d hl

/-- Settles O28: the sum, the extremes and the ordered binary32 sum of the active lanes; among several extreme lanes the
fold keeps the first. -/
theorem reductionResults : Obligations.ReductionResults := by
  unfold Obligations.ReductionResults
  refine ⟨?pair, ?single, fun d b => ⟨rfl, by decide, by decide⟩,
    fun l d hl => ⟨extreme_least d hl, extreme_greatest d hl⟩⟩
  case pair =>
    intro s p rd v k c h hv hok
    have hop := State.lift_vredD h hv hok k
    refine ⟨(hop _).trans ?_, hop _, hop _⟩
    simp only [CoreSt.signedLanes, List.foldl_map, c]
  case single =>
    intro s p rd v k c h hv
    exact ⟨State.lift_vred h hv rd k _, State.lift_vred h hv rd k _, State.lift_vop h hv _⟩

/-! ### Vector length zero (R342) -/

section
variable {s : State} {p : Pair} (h : s.dev.Ready p) (hv : (s.dev.core p).vl = 0)
include h hv

theorem State.lift_vredD_zero (rd : GReg) (k : VMask) (f : CoreSt → List Nat → Word × Word) :
    s.lift (fun d => d.vredD p rd k f) = .next (s.retire p (s.dev.core p)) :=
  State.lift_issue_core h (if_pos hv)

theorem State.lift_vecAccess_zero (kind : Nat) (k : VMask) (addr : CoreSt → Nat → Nat)
    (f : Dev → List (Nat × Nat) → Dev) :
    s.lift (fun d => d.vecAccess p kind k addr f) = .next (s.retire p (s.dev.core p)) :=
  State.lift_issue_core h (if_pos hv)

theorem State.lift_vtab_zero (vd va : VReg) (wb : GReg) (k : VMask) (inv : Bool) :
    s.lift (fun d => d.vtab p vd va wb k inv) = .next (s.retire p (s.dev.core p)) :=
  State.lift_issue_core h (if_pos hv)

end

/-- Settles O27: every shared vector operation gives the core back while VL is 0. -/
theorem vectorLengthZero : Obligations.VectorLengthZero := by
  unfold Obligations.VectorLengthZero
  refine ⟨?lanes, ?fractions, ?single, ?masks, ?reductions, ?memory⟩
  case lanes =>
    intro s p vd va s2 k h hv
    have hop := State.lift_vop_zero h hv
    exact ⟨hop _, hop _, hop _, hop _, hop _, hop _, hop _, hop _, hop _, hop _, hop _, hop _, hop _⟩
  case fractions =>
    intro s p vd va s2 k h hv
    have hop := State.lift_vop_zero h hv
    exact ⟨hop _, hop _, hop _, hop _, hop _, hop _, hop _, hop _, hop _, hop _, hop _, hop _, hop _⟩
  case single =>
    intro s p vd va s2 k mi h hv
    have hop := State.lift_vop_zero h hv
    exact ⟨hop _, hop _, hop _, hop _, hop _, hop _, hop _⟩
  case masks =>
    intro s p md ma mb va s2 k h hv
    have hop := State.lift_vop_zero h hv
    exact ⟨hop _, hop _, hop _, hop _, hop _, hop _, hop _, hop _, hop _, hop _, hop _, hop _, hop _⟩
  case reductions =>
    intro s p rd va k h hv
    have hop := State.lift_vop_zero h hv
    have hpair := State.lift_vredD_zero h hv rd k
    exact ⟨hpair _, hop _, hop _, hop _, hpair _, hpair _⟩
  case memory =>
    intro s p vd va iv ra k h hv
    have hload := State.lift_vecAccess_zero h hv kLoad k
    have hstore := State.lift_vecAccess_zero h hv kStore k
    have htable := State.lift_vtab_zero h hv vd va ra k
    exact ⟨hload _ _, hstore _ _, hload _ _, hstore _ _, htable false, htable true⟩

/-! ### Vector memory and tables (R346, R347, R349) -/

theorem CoreSt.suppressed_outOfStep {c : CoreSt} (h : (bitOf c.ctl 0 && c.user) = false) (a : Nat) :
    c.suppressed a = false := by
  rw [CoreSt.suppressed, h, Bool.false_and]

theorem Dev.sramStores_pwr (p : Pair) (l : List Nat) (a : Nat → Nat) (w : Nat → List Byte) (d : Dev) :
    (l.foldl (fun (d : Dev) i => d.sramStore p (a i) (w i)) d).pwr = d.pwr := by
  induction l generalizing d with
  | nil => rfl
  | cons i t ih => rw [List.foldl_cons, ih, Dev.sramStore_pwr]

section
variable {s : State} {p : Pair} (h : s.dev.Ready p) (hv : (s.dev.core p).vl ≠ 0)
include h hv

/-- A vector access of which no active lane raises anything has its effect. -/
theorem State.lift_vecAccess {kind : Nat} {k : VMask} {addr : CoreSt → Nat → Nat} {f : Dev → List (Nat × Nat) → Dev}
    {e : Dev}
    (hf : s.dev.vecFault p kind (((s.dev.core p).lanes k).map (fun i => (i, addr (s.dev.core p) i))) = none)
    (he : f s.dev (((s.dev.core p).lanes k).map (fun i => (i, addr (s.dev.core p) i))) = e)
    (hw : e.pwr.resetWait = none) : s.lift (fun d => d.vecAccess p kind k addr f) = .next (s.on e) :=
  State.lift_issue_plain h ((if_neg hv).trans (by simp only [hf, he])) hw

theorem State.lift_vecLoad {k : VMask} {addr : CoreSt → Nat → Nat}
    (hf : s.dev.vecFault p kLoad (((s.dev.core p).lanes k).map (fun i => (i, addr (s.dev.core p) i))) = none)
    (hs : (bitOf (s.dev.core p).ctl 0 && (s.dev.core p).user) = false) (v : VReg) :
    s.lift (fun d => d.vecLoad p v k addr) = .next (s.retire p ((s.dev.core p).putLanes v k
      (fun i => s.dev.word (addr (s.dev.core p) i)))) := by
  have hsup := CoreSt.suppressed_outOfStep hs
  refine State.lift_vecAccess h hv hf ?_ (by simpa using h.2.2.2)
  simp [Dev.lanesCorrected_none h.2.2.1.2, CoreSt.lanesLR_none hsup, hsup]

theorem State.lift_vecStore {k : VMask} {addr : CoreSt → Nat → Nat} {v : VReg} {e : Dev}
    (hf : s.dev.vecFault p kStore (((s.dev.core p).lanes k).map (fun i => (i, addr (s.dev.core p) i))) = none)
    (he : ((s.dev.core p).lanes k).foldl (fun (d : Dev) i => d.sramStore p (addr (s.dev.core p) i)
      (leBytes 4 ((s.dev.core p).lane v i).toNat)) s.dev = e) :
    s.lift (fun d => d.vecStore p v k addr) = .next (s.on (e.setCore p (e.core p).next)) := by
  refine State.lift_vecAccess h hv hf ?_ ?_
  · simp only [List.foldl_map, he]
  · subst he
    simpa only [Dev.setCore_pwr, Dev.sramStores_pwr p _ (addr (s.dev.core p))] using h.2.2.2

/-- A table instruction whose table is read without an exception. -/
theorem State.lift_vtab {k : VMask} {wb : GReg} {l : List (Nat × Nat)}
    (hl : (if ((s.dev.core p).lanes k).isEmpty then []
      else (List.range 585).map (fun i => (i, (((s.dev.core p).reg wb).toNat + 4 * i) % 2 ^ 32))) = l)
    (hf : s.dev.vecFault p kLoad l = none)
    (hs : (bitOf (s.dev.core p).ctl 0 && (s.dev.core p).user) = false) {tb : ITable}
    (htb : tableOf (fun i => s.dev.word ((((s.dev.core p).reg wb).toNat + 4 * i) % 2 ^ 32)) = tb)
    (vd va : VReg) (inv : Bool) :
    s.lift (fun d => d.vtab p vd va wb k inv) = .next (s.retire p { (s.dev.core p).putLanes vd k (fun i =>
        (tb.eval inv ((s.dev.core p).lane va i).toInt ((s.dev.core p).lane vd i).toInt).1) with
      m := (s.dev.core p).m.set 3 (maskOf (fun i => (s.dev.core p).active k i &&
        (tb.eval inv ((s.dev.core p).lane va i).toInt ((s.dev.core p).lane vd i).toInt).2)) }) := by
  have hsup := CoreSt.suppressed_outOfStep hs
  refine State.lift_issue_core h ((if_neg hv).trans ?_)
  simp only [hl, hf, Dev.lanesCorrected_none h.2.2.1.2, CoreSt.lanesLR_none hsup, hsup, ← htb]
  rfl

end

theorem ITable.eval_empty {tb : ITable} (h : tb.np = 0 ∨ tb.nt = 0) (inv : Bool) (u t : Int) :
    tb.eval inv u t = (0, true) :=
  if_pos (by simpa using h)

/-- Settles O29: loads and gathers, stores and scatters, and the two table instructions, each through its shared
operation, and the table without points or columns. -/
theorem vectorMemoryResults : Obligations.VectorMemoryResults := by
  unfold Obligations.VectorMemoryResults
  refine ⟨fun s p v ra k h hv hf hs => State.lift_vecLoad h hv hf hs v,
    fun s p v iv ra k h hv hf hs => State.lift_vecLoad h hv hf hs v,
    fun s p v ra k h hv hf => State.lift_vecStore h hv hf rfl,
    fun s p v iv ra k h hv hf => State.lift_vecStore h hv hf rfl, ?table,
    fun w inv u t h => ITable.eval_empty h inv u t⟩
  intro s p vd va wb k c tb h hv hlanes hs hf
  have hop := State.lift_vtab h hv (if_neg (Bool.eq_false_iff.1 hlanes)) hf hs rfl vd va
  exact ⟨hop false, hop true⟩

end Sys2Proof.Machine
end

section
/-! SUPPORT. How timers, counters and edges evaluate (R366). -/

namespace Sys2Proof.Machine

/-! ### Timers -/

theorem elapsed_self (now : Nat) : elapsed now now = 0 := by
  unfold elapsed
  omega

/-- A preset above zero has not passed at the start. -/
theorem not_elapsed_at_start {pt : Nat} (h : 0 < pt) (now : Nat) : ¬ pt ≤ elapsed now now := by
  rw [elapsed_self]
  omega

section
variable (now : Nat) {t : Timer}

theorem tonEval_rises (hpin : t.pin = false) : tonEval now true t =
    if t.pt ≤ elapsed now now then { t with start := now, q := true, run := false }
    else { t with start := now, run := true } := by
  simp [tonEval, hpin]

theorem tonEval_runs (hpin : t.pin = true) (hrun : t.run = true) : tonEval now true t =
    if t.pt ≤ elapsed now t.start then { t with q := true, run := false } else t := by
  simp [tonEval, hpin, hrun]

theorem tonEval_done (hpin : t.pin = true) (hrun : t.run = false) : tonEval now true t = t := by
  simp [tonEval, hpin, hrun]

theorem tofEval_on (t : Timer) : tofEval now true t = { t with q := true, run := false } := rfl

theorem tofEval_falls (hpin : t.pin = true) : tofEval now false t =
    if t.pt ≤ elapsed now now then { t with start := now, q := false, run := false }
    else { t with start := now, run := true } := by
  simp [tofEval, hpin]

theorem tofEval_runs (hpin : t.pin = false) (hrun : t.run = true) : tofEval now false t =
    if t.pt ≤ elapsed now t.start then { t with q := false, run := false } else t := by
  simp [tofEval, hpin, hrun]

theorem tpEval_rises (hrun : t.run = false) (hpin : t.pin = false) : tpEval now true t =
    if t.pt ≤ elapsed now now then { t with start := now, q := false, run := false }
    else { t with start := now, run := true, q := true } := by
  simp [tpEval, hrun, hpin]

/-- A pulse that runs takes no notice of its input. -/
theorem tpEval_runs (hrun : t.run = true) (inp : Bool) : tpEval now inp t =
    if t.pt ≤ elapsed now t.start then { t with q := false, run := false } else t := by
  simp [tpEval, hrun]

theorem tpEval_held (hrun : t.run = false) (hpin : t.pin = true) : tpEval now true t = t := by
  simp [tpEval, hrun, hpin]

end

/-! ### Counters and edges -/

theorem iw_toInt (w : Word) : iw w.toInt = w := BitVec.ofInt_toInt

/-- The value a counter evaluation stores: R, then LD, then the rising inputs. -/
def counterNext (useU useD : Bool) (l : List Word) (b : Word) : Int :=
  if useU && bitOf b 2 then 0
  else if useD && bitOf b 3 then (objW l 1).toInt
  else
    let x := if useU && bitOf b 0 && !bitOf (objW l 2) 0 then sat32 ((objW l 0).toInt + 1) else (objW l 0).toInt
    if useD && bitOf b 1 && !bitOf (objW l 2) 1 then sat32 (x - 1) else x

theorem counterEval_value (useU useD : Bool) (l : List Word) (b : Word) :
    (counterEval useU useD l b).1[0]? = some (iw (counterNext useU useD l b)) := rfl

theorem counterNext_reset {b : Word} (h : bitOf b 2 = true) (useD : Bool) (l : List Word) :
    counterNext true useD l b = 0 := by
  simp [counterNext, h]

theorem counterNext_load {b : Word} (h : bitOf b 3 = true) (l : List Word) :
    counterNext false true l b = (objW l 1).toInt := by
  simp [counterNext, h]

theorem counterNext_up {l : List Word} {b : Word} (hr : bitOf b 2 = false) :
    counterNext true false l b = if bitOf b 0 = true ∧ bitOf (objW l 2) 0 = false then sat32 ((objW l 0).toInt + 1)
      else (objW l 0).toInt := by
  simp [counterNext, hr]

theorem counterNext_down {l : List Word} {b : Word} (hl : bitOf b 3 = false) (hd : bitOf b 1 = true)
    (hp : bitOf (objW l 2) 1 = false) : counterNext false true l b = sat32 ((objW l 0).toInt - 1) := by
  simp [counterNext, hl, hd, hp]

theorem edgeEval_first {l : List Word} (h : bitOf (objW l 0) 1 = false) (rising : Bool) (b : Word) :
    (edgeEval rising l b).2 = 0 := by
  simp [edgeEval, h, b2n, nw]

theorem edgeEval_rising {l : List Word} (h : bitOf (objW l 0) 1 = true) (b : Word) :
    (edgeEval true l b).2 = if bitOf b 0 = true ∧ bitOf (objW l 0) 0 = false then 1 else 0 := by
  cases hb : bitOf b 0 <;> cases hp : bitOf (objW l 0) 0 <;> simp [edgeEval, h, hb, hp, b2n, nw]

theorem edgeEval_falling {l : List Word} (h : bitOf (objW l 0) 1 = true) (b : Word) :
    (edgeEval false l b).2 = if bitOf b 0 = false ∧ bitOf (objW l 0) 0 = true then 1 else 0 := by
  cases hb : bitOf b 0 <;> cases hp : bitOf (objW l 0) 0 <;> simp [edgeEval, h, hb, hp, b2n, nw]

/-- Settles O31: each timer by its input, its last input and whether it runs, counters by R, LD and the rising inputs,
edges by whether an input is stored. -/
theorem timerEvaluation : Obligations.TimerEvaluation := by
  unfold Obligations.TimerEvaluation
  refine ⟨?timers, ?counters⟩
  case timers =>
    intro now t
    refine ⟨rfl, rfl, fun hpin hpt hq => ?tonStarts, fun hpin hpt => ?tonAtOnce, tonEval_runs now, tonEval_done now,
      tofEval_on now t, fun hpin hpt => ?tofStarts, fun hpin hpt => ?tofAtOnce, tofEval_runs now,
      fun hrun hpin hpt => ?tpStarts, fun hrun => ?tpIgnores, fun hrun => tpEval_runs now hrun true, tpEval_held now⟩
    case tonStarts => rw [tonEval_rises now hpin, if_neg (not_elapsed_at_start hpt now)]
    case tonAtOnce => simp [tonEval_rises now hpin, hpt]
    case tofStarts => rw [tofEval_falls now hpin, if_neg (not_elapsed_at_start hpt now)]
    case tofAtOnce => simp [tofEval_falls now hpin, hpt]
    case tpStarts => rw [tpEval_rises now hrun hpin, if_neg (not_elapsed_at_start hpt now)]
    case tpIgnores => rw [tpEval_runs now hrun false, tpEval_runs now hrun true]
  case counters =>
    intro l b
    simp only [counterEval_value, Option.some.injEq]
    refine ⟨fun hr => ⟨?reset, ?resetBoth⟩, fun hl => ?load, fun hr hu hp => ?up, fun hr hu => ?still,
      fun hl hd hp => ?down, fun h => ⟨edgeEval_first h true b, edgeEval_first h false b⟩,
      fun h => edgeEval_rising h b, fun h => edgeEval_falling h b⟩
    case reset => rw [counterNext_reset hr]; rfl
    case resetBoth => rw [counterNext_reset hr]; rfl
    case load => rw [counterNext_load hl, iw_toInt]
    case up => rw [counterNext_up hr, if_pos ⟨hu, hp⟩]
    case still => rw [counterNext_up hr, if_neg (by simp [hu]), iw_toInt]
    case down => rw [counterNext_down hl hd hp]

end Sys2Proof.Machine
end

section
/-! SUPPORT. The cyclic program: cycle starts, the copy, CYC_CTL, forces and the switch of an online change. -/

namespace Sys2Proof.Machine

/-! ### Cycle starts (R353, R369) -/

/-- The time base fires a program-cycle start in this tick (R353). -/
def Dev.periodFires (d : Dev) : Prop :=
  d.bit Reg.CYC_CTL 3 = true ∧ d.fld Reg.CYC_PERIOD 19 0 ≠ 0 ∧ d.tim.tb % d.fld Reg.CYC_PERIOD 19 0 = 0 ∧
    d.tim.tbFrac < d.timEff

theorem Dev.periodStart_fires {d : Dev} (h : d.periodFires) : d.periodStart = d.cycleStart := by
  obtain ⟨hsrc, hn, hmult, hfresh⟩ := h
  simp [Dev.periodStart, hsrc, hn, hmult, hfresh]

theorem Dev.periodStart_waits {d : Dev} (h : ¬ d.periodFires) : d.periodStart = d := by
  unfold Dev.periodStart
  refine if_neg fun hall => h ?_
  simpa [Dev.periodFires, and_assoc] using hall

section
variable {d : Dev}

theorem Dev.cycleStart_skipped (h : d.cycState = 4) : d.cycleStart = d.satInc Reg.CYC_OCSKIP 15 0 := if_pos h

theorem Dev.cycleStart_outside (h4 : d.cycState ≠ 4) (h2 : d.cycState ≠ 2) : d.cycleStart = d := by
  simp [Dev.cycleStart, h4, h2]

theorem Dev.cycleStart_missed (h : d.cycState = 2) (hb : d.cycBusy = true) : d.cycleStart = d.cycleMissed := by
  simp [Dev.cycleStart, h, hb]

theorem Dev.cycleStart_accepted (h : d.cycState = 2) (hb : d.cycBusy = false) (hs : d.inStep = false)
    (hl : d.leads = true) : d.cycleStart = d.cycleAccept := by
  simp [Dev.cycleStart, h, hb, hs, hl]

theorem Dev.cycleStart_awaits (h : d.cycState = 2) (hb : d.cycBusy = false) (hs : d.inStep = true)
    (hr : d.running Tm.noImg = false) : d.cycleStart = d.start Tm.noImg := by
  simp [Dev.cycleStart, h, hb, hs, hr]

theorem Dev.watchdog_fails (h : d.fld Reg.CYC_WDMULT 7 0 ≤ d.fld Reg.CYC_OVRCNT 31 24) :
    d.watchdog = (d.progFault.flag Reg.CYC_STAT 8).hw 0x8003 [] := if_pos h

end

/-! ### Copy and input forces (R355) -/

theorem Dev.copyDone_waits {d : Dev} (h : d.cyc.image = none ∨ d.cyc.phase ≠ .copy ∨ d.tw.imgWait = true ∨ d.role = 2) :
    d.copyDone = d := by
  unfold Dev.copyDone
  split
  · rfl
  · next p himg => exact if_pos (by rcases h with h | h | h | h <;> simp_all)

theorem Dev.copyDone_executes {d e f : Dev} {p : Image} {x : List Byte × List Byte × List Byte × List Byte}
    (himg : d.cyc.image = some p) (hphase : d.cyc.phase = .copy) (hwait : d.tw.imgWait = false) (hrole : d.role ≠ 2)
    (hdue : d.due Tm.copy (d.copyTicks p) = true) (hx : d.imageBytes p = (x, e))
    (hf : (e.imageStore x).inputForces = f) (hshade : f.shadeInStep = false) : d.copyDone = f.execBegin := by
  simp [Dev.copyDone, himg, hphase, hwait, hrole, hdue, hx, hf, hshade]

/-! ### START and STOP (R356, R357) -/

theorem Dev.progStart_noImage {d : Dev} (h : d.cyc.image = none) : d.progStart = d := by
  simp only [Dev.progStart, h]

theorem Dev.progStart_refused {d : Dev} {p : Image} (himg : d.cyc.image = some p)
    (h : (d.cycState ≠ 1 ∧ d.cycState ≠ 3) ∨ d.cyc.lockout = true ∨ d.leads = false) : d.progStart = d := by
  simp only [Dev.progStart, himg]
  exact if_pos (by simpa [or_assoc] using h)

/-- START of an image by a leading module, from STOPPED or FAULT. -/
def Dev.started (d : Dev) (p : Image) : Dev :=
  let cold := decide (d.cyc.retainedId ≠ some p.imageId)
  let kind := if cold = true then 0 else 1
  let e := d.loadData p cold
  let e := e.setCore .program ((e.core .program).placed p.startAddr kind)
  let e : Dev := { e with
    cyc := { e.cyc with
      phase := .idle, calls := [], firstCommit := true, afterSwitch := false, firstCycle := true, startKind := kind
      lrPrev := false, lrRecorded := false, missedNow := 0, retainedId := some p.imageId }
    fio := { e.fio with committed := false } }
  (e.setFld Reg.CYC_STAT 2 0 2).fw 0x8001 [nw kind]

theorem Dev.progStart_starts {d : Dev} {p : Image} (himg : d.cyc.image = some p)
    (hstate : d.cycState = 1 ∨ d.cycState = 3) (hlock : d.cyc.lockout = false) (hlead : d.leads = true) :
    d.progStart = d.started p := by
  simp only [Dev.progStart, himg]
  exact if_neg (by simp [hlock, hlead]; omega)

theorem Dev.progStop_stops {d : Dev} (h : d.cycState = 2) :
    d.progStop = (d.cycIdle.setFld Reg.CYC_STAT 2 0 1).fw 0x8002 [] := if_pos h

theorem Dev.progStop_elsewhere {d : Dev} (h : d.cycState ≠ 2) : d.progStop = d := if_neg h

/-! ### Forces (R372) -/

theorem Dev.forceWrite_stages (d : Dev) (n : Nat) {w : Nat} (h : w ≠ 1) (v : Word) :
    d.forceWrite n w v = { d with cyc := { d.cyc with stage := putO d.cyc.stage (4 * n + w) (some v) } } := if_neg h

/-! ### The switch (R377, R378) -/

theorem Dev.switchRun_waits {d : Dev} (h : d.cyc.armed = none ∨ d.cycState ≠ 4) : d.switchRun = d := by
  unfold Dev.switchRun
  split
  · next himg harmed => exact if_pos (by rcases h with h | h <;> simp_all)
  · rfl

/-- The switch from one image to another, its symbols carried (R377, R378). -/
def Dev.switched (d : Dev) (old new : Image) : Dev :=
  let moves := (carried old new).map (fun e => (e.1, d.bytes e.2 e.1.size))
  let src := stageBase
  let a := ((d.copyMem src codeBase new.codeLen).copyMem (src + new.codeLen + new.dataLen) dataBase new.retLen).copyMem
    (src + new.codeLen) (dataBase + new.retLen) new.dataLen
  let a := a.zeroMem (dataBase + new.retLen + new.dataLen) new.zeroLen
  let a := moves.foldl (fun (d : Dev) m => d.agentStore m.1.addr m.2) a
  let a := moves.foldl (fun (d : Dev) m => d.presetNew new m.1) a
  let a := ((List.range 256).foldl (fun (d : Dev) n => d.forceMove old new n) a).forceShow
  let a := a.setCore .program ((a.core .program).placed new.changeAddr 2)
  let a : Dev := { a with
    cyc := { a.cyc with
      image := some new, armed := none, switchAfter := none, firstCommit := true, afterSwitch := true
      retainedId := some new.imageId } }
  let r := a.slotRecord
  let a := a.slotSave (recOf (recFwAct r) (recFwPend r) (recTrial r) (1 - recPgAct r) false)
  (((a.setFld Reg.CYC_STAT 2 0 2).setFld Reg.CYC_OCSTAT 1 0 0).stop Tm.switch).fw 0x8060 []

theorem Dev.switchRun_switches {d : Dev} {old new : Image} (hold : d.cyc.image = some old)
    (hnew : d.cyc.armed = some new) (hstate : d.cycState = 4)
    (hdue : d.due Tm.switch (switchTicks old new) = true) : d.switchRun = d.switched old new := by
  simp only [Dev.switchRun, hold, hnew]
  exact if_neg (by simp [hstate, hdue])

/-- Settles O49: the time base's starts, what a start does by state, the end of the copy, CYC_CTL, force entries, and
the switch. -/
theorem cyclicCommands : Obligations.CyclicCommands := by
  unfold Obligations.CyclicCommands
  refine ⟨fun s hs hsrc hn hmult hfresh => State.lift_awake_eq hs (Dev.periodStart_fires ⟨hsrc, hn, hmult, hfresh⟩),
    fun s hs h => State.lift_awake_eq hs (Dev.periodStart_waits h),
    fun d => ⟨Dev.cycleStart_skipped, Dev.cycleStart_outside, Dev.cycleStart_missed, Dev.cycleStart_accepted,
      Dev.cycleStart_awaits, Dev.watchdog_fails⟩,
    fun s p x d e hs himg hphase hwait hrole hdue hx he hshade =>
      State.lift_awake_eq hs (Dev.copyDone_executes himg hphase hwait hrole hdue hx he hshade),
    fun s hs h => State.lift_awake_eq hs (Dev.copyDone_waits h),
    fun s src v d hs ht => State.lift_gate hs ht _, fun s src v d hs ht => State.lift_gate hs ht _,
    fun s src v d hs ht => State.lift_gate hs ht _,
    fun d p => ⟨Dev.progStart_noImage, Dev.progStart_refused, Dev.progStart_starts, Dev.progStop_stops,
      Dev.progStop_elsewhere⟩,
    fun s src n w v d hs ht => ⟨fun hw => ?stages, fun hw => ?commits⟩,
    fun s src n v d hs ht => State.lift_gate hs ht _,
    fun s old new hs hold hnew hstate hdue =>
      State.lift_awake_eq hs (Dev.switchRun_switches hold hnew hstate hdue),
    fun s hs h => State.lift_awake_eq hs (Dev.switchRun_waits h)⟩
  case stages =>
    exact State.lift_gate_eq hs ht (d.forceWrite_stages _ (fun e => hw (BitVec.eq_of_toNat_eq e)) v)
  case commits =>
    subst hw
    exact State.lift_gate hs ht _

end Sys2Proof.Machine
end

section
/-! SUPPORT. System calls and the end of a cycle. -/

namespace Sys2Proof.Machine

/-! ### System calls (R365) -/

/-- The program pair stands in its exception of system call `n`. -/
def CoreSt.callsFor (c : CoreSt) (n : Nat) : Prop :=
  c.stopped = false ∧ bitOf c.status 5 = true ∧ fieldOf c.xcode 7 0 = 8 ∧ c.xaddr.toNat = n

/-- The program pair as a system call returns to it with `x` in w1; outside execution it still waits. -/
def Dev.callReturn (d : Dev) (x : Word) : CoreSt :=
  let c := (d.prog.setReg 1 x).rfx .program
  if d.cyc.phase = .execute then c else { c with waiting := .cyend }

section
variable {d : Dev} {n : Nat}

theorem Dev.sysCall_queues (h : d.prog.callsFor n)
    (hok : callOk n (d.prog.reg 1) (d.prog.reg 2) (d.prog.reg 3) = true) : d.sysCall n =
      { d with
        cyc := { d.cyc with calls := d.cyc.calls ++ [{ num := n, a1 := d.prog.reg 1, a2 := d.prog.reg 2, a3 := d.prog.reg 3 }] }
        prog := d.callReturn 0 } := by
  obtain ⟨hrun, hinx, hcause, hnum⟩ := h
  refine (if_neg (by simp [hrun, hinx, hcause, hnum])).trans ?_
  simp only [hok]
  rfl

theorem Dev.sysCall_refuses (h : d.prog.callsFor n)
    (hok : callOk n (d.prog.reg 1) (d.prog.reg 2) (d.prog.reg 3) = false) : d.sysCall n =
      { d with prog := d.callReturn 1 } := by
  obtain ⟨hrun, hinx, hcause, hnum⟩ := h
  refine (if_neg (by simp [hrun, hinx, hcause, hnum])).trans ?_
  simp only [hok]
  rfl

theorem Dev.sysCall_ignored (h : d.prog.stopped = true ∨ bitOf d.prog.status 5 = false ∨
    fieldOf d.prog.xcode 7 0 ≠ 8 ∨ d.prog.xaddr.toNat ≠ n) : d.sysCall n = d :=
  if_pos (by simpa [or_assoc] using h)

end

/-- What the runtime does for system call `n`: it queues a well-formed call, refuses another, and else does nothing. -/
theorem State.lift_sysCall {s : State} (hs : s.dev.asleep = false) (n : Nat) :
    (s.dev.prog.stopped = false → bitOf s.dev.prog.status 5 = true → fieldOf s.dev.prog.xcode 7 0 = 8 →
      s.dev.prog.xaddr.toNat = n → callOk n (s.dev.prog.reg 1) (s.dev.prog.reg 2) (s.dev.prog.reg 3) = true →
        s.lift (fun d => d.sysCall n) = .next (s.on { s.dev with
          cyc := { s.dev.cyc with calls := s.dev.cyc.calls ++
            [{ num := n, a1 := s.dev.prog.reg 1, a2 := s.dev.prog.reg 2, a3 := s.dev.prog.reg 3 }] }
          prog := s.dev.callReturn 0 })) ∧
    (s.dev.prog.stopped = false → bitOf s.dev.prog.status 5 = true → fieldOf s.dev.prog.xcode 7 0 = 8 →
      s.dev.prog.xaddr.toNat = n → callOk n (s.dev.prog.reg 1) (s.dev.prog.reg 2) (s.dev.prog.reg 3) = false →
        s.lift (fun d => d.sysCall n) = .next (s.on { s.dev with prog := s.dev.callReturn 1 })) ∧
    (s.dev.prog.stopped = true ∨ bitOf s.dev.prog.status 5 = false ∨ fieldOf s.dev.prog.xcode 7 0 ≠ 8 ∨
      s.dev.prog.xaddr.toNat ≠ n → s.lift (fun d => d.sysCall n) = .next (s.on s.dev)) :=
  ⟨fun hrun hinx hcause hn hok => State.lift_awake_eq hs (Dev.sysCall_queues ⟨hrun, hinx, hcause, hn⟩ hok),
    fun hrun hinx hcause hn hok => State.lift_awake_eq hs (Dev.sysCall_refuses ⟨hrun, hinx, hcause, hn⟩ hok),
    fun h => State.lift_awake_eq hs (Dev.sysCall_ignored h)⟩

section
variable (d : Dev) {c : SysCall}

theorem Dev.callDo_storeroom (h : c.num = 0x010) : d.callDo c =
    ({ d with est := { d.est with section_ := some (sectionPut d.est.section_ c.a3.toNat
      (d.bytes c.a1.toNat c.a2.toNat)) } } : Dev).stoAsk 8 := if_pos h

theorem Dev.callDo_transport (h : c.num = 0x020) : d.callDo c = d.transReq := by
  simp [Dev.callDo, h]

theorem Dev.callDo_release (h : c.num = 0x030) : d.callDo c = (d.release false c.a1).release true c.a2 := by
  simp [Dev.callDo, h]

theorem Dev.callDo_record (h : c.num = 0x040) : d.callDo c =
    d.postBytes 2 (0x8100 + fieldOf c.a1 7 0) (d.bytes c.a3.toNat c.a2.toNat) := by
  simp [Dev.callDo, h]

theorem Dev.callDo_scc (h : c.num = 0x001 ∨ c.num = 0x002 ∨ c.num = 0x003) : d.callDo c = d.callScc c.num := by
  rcases h with h | h | h <;> simp [Dev.callDo, h]

end

/-! ### The end of a cycle (R318, R368) -/

theorem Dev.cycleEnd_strict {d : Dev} {p : Image} (himg : d.cyc.image = some p) (hlr : bitOf d.prog.status 11 = true)
    (hstrict : p.strict = true) :
    d.cycleEnd = (d.execTime.liveReport.setBit Reg.CYC_STAT 3 false).progFault.hw 0x8021 [] := by
  simp [Dev.cycleEnd, himg, hlr, hstrict]

theorem Dev.cycleEnd_alone {d e : Dev} (hlr : bitOf d.prog.status 11 = false)
    (he : ({ d.execTime.liveReport.setBit Reg.CYC_STAT 3 false with
      cyc := { (d.execTime.liveReport.setBit Reg.CYC_STAT 3 false).cyc with phase := .commit } } : Dev).outputForces = e)
    (hrole : e.role = 0) : d.cycleEnd = e.commit := by
  simp only [Dev.cycleEnd, hlr, he, hrole, Bool.false_and, if_true, Bool.false_eq_true, if_false]

/-- Settles O50: each system call is the runtime's service of its number, a queued call takes its effect, and a cycle
ends in a fault or in the commit. -/
theorem systemCalls : Obligations.SystemCalls := by
  unfold Obligations.SystemCalls
  exact ⟨fun s hs => State.lift_sysCall hs _, fun s hs => State.lift_sysCall hs _,
    fun s hs => State.lift_sysCall hs _, fun s hs => State.lift_sysCall hs _, fun s hs => State.lift_sysCall hs _,
    fun s hs => State.lift_sysCall hs _, fun s hs => State.lift_sysCall hs _,
    fun d c => ⟨d.callDo_transport, d.callDo_release, d.callDo_record, d.callDo_scc, d.callDo_storeroom⟩,
    fun d p => Dev.cycleEnd_strict, fun d e => Dev.cycleEnd_alone, fun d => rfl⟩

end Sys2Proof.Machine
end

section
/-! SUPPORT. The twin link, roles and resynchronisation. -/

namespace Sys2Proof.Machine

/-! ### The link and its heartbeats (R384 to R386, R390, R391) -/

section
variable {d : Dev}

theorem Dev.twLinkUp_ignored (h : d.role = 0 ∨ d.twLink = true) : d.twLinkUp = d := if_pos (by simpa using h)

theorem Dev.twLinkUp_rises (hr : d.role ≠ 0) (hl : d.twLink = false) :
    d.twLinkUp = ((d.setBit Reg.TW_STAT 5 true).hw 0x9001 []).pingSend := if_neg (by simp [hr, hl])

theorem Dev.twLos_ignored (h : d.twLink = false) : d.twLos = d := if_neg (by simp [h])

theorem Dev.pingSend_sends (h : d.twSends = true) : d.pingSend = (d.send .twin 0x200 []).start Tm.ping := if_pos h

theorem Dev.pingSend_silent (h : d.twSends = false) : d.pingSend = d := if_neg (by simp [h])

theorem Dev.hbSend_sends {e : Dev} (hsend : d.twSends = true)
    (hdue : d.running Tm.hb = false ∨ d.due Tm.hb (usT 100) = true)
    (he : { d with tw := { d.tw with hbCount := (d.tw.hbCount + 1) % 65536 } } = e) :
    d.hbSend = (e.send .twin 0x01 (byteNats e.hbBytes)).start Tm.hb := by
  subst he
  exact if_pos (by simpa [hsend] using hdue)

theorem Dev.hbSend_waits (h : d.twSends = false ∨ d.running Tm.hb = true ∧ d.due Tm.hb (usT 100) = false) :
    d.hbSend = d := if_neg (by rcases h with h | ⟨hrun, hdue⟩ <;> simp [*])

theorem Dev.heartbeat_ignored (h : d.role = 0 ∨ d.role = 3 ∨ d.twLink = false) (x : Heart) (b4 b5 : Nat) :
    d.heartbeat x b4 b5 = d := if_pos (by simpa [or_assoc] using h)

/-- A heartbeat that counts: the partner is noted, and heard by duty, joining module and shade. -/
def Dev.hbJudged (c : Dev) (x : Heart) : Dev :=
  let d : Dev := { c with tw := { c.tw with heart := some x, expect := some (c.now + usT 100) } }
  let d : Dev := if (d.rd Reg.TW_EPOCH).toNat < x.epoch.toNat then d.epochHigh else d
  let d : Dev := if x.role = 1 then (let d := d.start Tm.dutyHeard; if d.running Tm.join then d.start Tm.join else d) else d
  if d.role = 1 then d.hbDuty x
  else
    let d : Dev := if d.smode = 0 then d.hbJoining x else d
    if x.role = 1 then d.hbFollow x else d

theorem Dev.heartbeat_heard {a c : Dev} {x : Heart} {b4 b5 : Nat} (h0 : d.role ≠ 0) (h3 : d.role ≠ 3)
    (hl : d.twLink = true) (ha : (d.wr Reg.TW_PEPOCH x.epoch).wr Reg.TW_PSTAT (nw (b5 * 256 + b4)) = a)
    (hc : (a.setBit Reg.TW_STAT 6 true).setFld Reg.TW_HBCNT 31 24 0 = c) : d.heartbeat x b4 b5 = c.hbJudged x := by
  subst ha hc
  exact if_neg (by simp [h0, h3, hl])

theorem Dev.hbMiss_none (h : d.tw.expect = none) : d.hbMiss = d := by
  simp only [Dev.hbMiss, h]

theorem Dev.hbMiss_early {t : Nat} (ht : d.tw.expect = some t) (h : d.role = 0 ∨ d.now < t + usT 10) :
    d.hbMiss = d := by
  simp only [Dev.hbMiss, ht]
  exact if_pos (by simpa using h)

theorem Dev.hbMiss_counts {t : Nat} {a e : Dev} (ht : d.tw.expect = some t) (hr : d.role ≠ 0)
    (hlate : t + usT 10 ≤ d.now) (ha : (d.satInc Reg.TW_HBCNT 23 0).satInc Reg.TW_HBCNT 31 24 = a)
    (he : { a with tw := { a.tw with expect := some (t + usT 100) } } = e) :
    d.hbMiss = if 3 ≤ e.fld Reg.TW_HBCNT 31 24 && e.bit Reg.TW_STAT 6 then
      ((e.setBit Reg.TW_STAT 6 false).flag Reg.TW_STAT 18).hw 0x9003 [] else e := by
  subst ha he
  simp only [Dev.hbMiss, ht]
  exact if_neg (by simpa [hr] using hlate)

theorem Dev.pong_alone (h : d.role = 0) (rtt : Nat) : d.pong rtt = d := if_pos h

theorem Dev.pong_measures {rtt lat : Nat} (h : d.role ≠ 0) (hlat : (rtt - 40) / 2 = lat) : d.pong rtt =
    d.wr Reg.TW_LAT (nw (ceilDiv (lat + 16) 8 % 65536 * 65536 + lat % 65536)) := by
  subst hlat
  exact if_neg h

end

/-! ### TW_CTL and the roles (R382, R394, R395, R409) -/

theorem Dev.serviceGate_gate {d : Dev} {src : Writer} (h : src ≠ .session ∨ d.fld Reg.SVC_STAT 5 4 ≠ 3) (a : Nat)
    (f : Dev → Dev) : d.serviceGate src a f = d.gate src a f := if_neg (by simpa [imp_iff_not_or] using h)

theorem Dev.serviceGate_service {d : Dev} (h : d.fld Reg.SVC_STAT 5 4 = 3) (a : Nat) (f : Dev → Dev) :
    d.serviceGate .session a f = f d := if_pos (by simp [h])

theorem State.lift_serviceGate {s : State} {src : Writer} {a : Nat} {d : Dev} (hs : s.dev.asleep = false)
    (ht : s.dev.takes src a = some d) (h : src ≠ .session ∨ s.dev.fld Reg.SVC_STAT 5 4 ≠ 3) (f : Dev → Dev) :
    s.lift (fun d => d.serviceGate src a f) = .next (s.on (f d)) :=
  State.lift_awake_eq hs ((Dev.serviceGate_gate h a f).trans (Dev.gate_takes ht f))

theorem State.lift_serviceGate_service {s : State} (hs : s.dev.asleep = false) (h : s.dev.fld Reg.SVC_STAT 5 4 = 3)
    (a : Nat) (f : Dev → Dev) : s.lift (fun d => d.serviceGate .session a f) = .next (s.on (f s.dev)) :=
  State.lift_awake_eq hs (Dev.serviceGate_service h a f)

section
variable {d : Dev}

theorem Dev.seed_seeds (h : d.rd Reg.TW_EPOCH = 0) : d.seed = ((d.wr Reg.TW_EPOCH 1).epochSave).eligRefresh := if_pos h

theorem Dev.seed_seeded (h : d.rd Reg.TW_EPOCH ≠ 0) : d.seed = d := if_neg h

theorem Dev.rejoin_resets (h : d.role = 3) : d.rejoin = (d.hw 0x9021 []).resetAsk 12 := if_pos h

theorem Dev.rejoin_ignored (h : d.role ≠ 3) : d.rejoin = d := if_neg h

theorem Dev.handover_ignored (h : d.role ≠ 1) (restart : Bool) : d.handover restart = d := if_pos (by simpa using h)

theorem Dev.deposedTimeout_rejoins (hn : d.fld Reg.TW_DEPTO 15 0 ≠ 0)
    (hdue : d.due Tm.deposed (secT (d.fld Reg.TW_DEPTO 15 0)) = true) : d.deposedTimeout = d.rejoin :=
  if_pos (by simp [hn, hdue])

theorem Dev.deposedTimeout_waits
    (h : d.fld Reg.TW_DEPTO 15 0 = 0 ∨ d.due Tm.deposed (secT (d.fld Reg.TW_DEPTO 15 0)) = false) :
    d.deposedTimeout = d := if_neg (by rcases h with h | h <;> simp [h])

theorem Dev.killIn_deposes {e : Dev} {active : Bool} (he : (({ d with pins := { d.pins with killIn := active } } :
    Dev).setBit Reg.TW_STAT 8 (active && d.role != 0)).powerRefresh = e) : d.killIn active =
      if active = true ∧ ((e.role = 1 ∧ e.pins.killOut = false) ∨ (e.role = 2 ∧ e.bit Reg.TW_STAT 4 = true)) then
        e.depose 1 else e := by
  subst he
  exact if_congr (by simp) rfl rfl

/-! ### Start-up and takeover (R393, R405, R406) -/

theorem Dev.joinTimeout_enters {e : Dev} (hok : d.joinOk = true) (hn : d.fld Reg.TW_JOINTO 15 0 ≠ 0)
    (hdue : d.due Tm.join (msT (d.fld Reg.TW_JOINTO 15 0)) = true)
    (he : (d.dutyEnter.stop Tm.join).hw 0x9012 [] = e) :
    d.joinTimeout = if e.ring.count = none ∧ e.pwr.full = false then e.greySet else e := by
  subst he
  exact (if_pos (by simp [hok, hn, hdue])).trans (if_congr (by simp) rfl rfl)

theorem Dev.joinTimeout_waits (h : d.joinOk = false ∨ d.fld Reg.TW_JOINTO 15 0 = 0 ∨
    d.due Tm.join (msT (d.fld Reg.TW_JOINTO 15 0)) = false) : d.joinTimeout = d :=
  if_neg (by rcases h with h | h | h <;> simp [h])

theorem Dev.takeover_begins (h : d.takeOk = true) : d.takeover = d.takeStart := if_pos h

theorem Dev.takeover_ignored (h : d.takeOk = false) : d.takeover = d := if_neg (by simp [h])

theorem Dev.settleExpiry_takes {a b c : Dev} (htake : d.tw.takeover = true)
    (hdue : d.due Tm.settle (usT (d.fld Reg.TW_KILLT 7 0)) = true)
    (ha : ({ d with tw := { d.tw with takeover := false } } : Dev).stop Tm.settle = a)
    (hb : (a.dutyEnter.estTakeover d.smode).satInc Reg.TW_COUNTS 15 0 = b)
    (hc : (if d.cyc.phase = .commit then b.commit else b) = c) : d.settleExpiry =
      if d.smode = 1 then c.hw 0x9010 [c.rd Reg.TW_EPOCH] else (c.hw 0x9010 [c.rd Reg.TW_EPOCH]).programAnew := by
  subst ha hb hc
  refine (if_pos (by simp [htake, hdue])).trans ?_
  simp only [decide_eq_true_eq]

theorem Dev.settleExpiry_waits
    (h : d.tw.takeover = false ∨ d.due Tm.settle (usT (d.fld Reg.TW_KILLT 7 0)) = false) : d.settleExpiry = d :=
  if_neg (by rcases h with h | h <;> simp [h])

/-! ### Resynchronisation (R410, R411) -/

theorem Dev.rsRound_waits (h : d.role ≠ 1 ∨ d.tw.rsPhase ≠ 2 ∨ d.cyc.phase ≠ .wait) : d.rsRound = d :=
  if_pos (by simpa [or_assoc] using h)

theorem Dev.rsRound_runs {a e : Dev} (hr : d.role = 1) (hphase : d.tw.rsPhase = 2) (hwait : d.cyc.phase = .wait)
    (ha : d.rsDirty.foldl (fun (d : Dev) a => d.joinMemory a 1024) d = a)
    (he : ({ a with tw := { a.tw with dirty := [] } } : Dev) = e) : d.rsRound =
      if d.rsDirty.length ≤ e.fld Reg.TW_RSFINAL 15 0 &&
          d.nextStart.all (fun t => decide (8 * 1024 * d.rsDirty.length + 50000 < t)) then
        ((e.send .twin 0x0B (byteNats e.joinState)).rsSent (e.joinState.length - 8)).rsSet 3
      else e.satInc Reg.TW_RSSTAT 23 16 := by
  subst ha he
  refine (if_neg (by simp [hr, hphase, hwait])).trans ?_
  cases d.nextStart <;> rfl

theorem Dev.rsTimeout_fails {e : Dev} (hphase : d.tw.rsPhase ≠ 0) (hn : d.fld Reg.TW_RSTO 15 0 ≠ 0)
    (hdue : d.due Tm.resync (secT (d.fld Reg.TW_RSTO 15 0)) = true)
    (he : ((({ d with tw := { d.tw with dirty := [] } } : Dev).rsSet 0).stop Tm.resync).start Tm.rsRetry = e) :
    d.rsTimeout = if e.role = 1 then e.hw 0x9033 [] else e := by
  subst he
  exact if_pos (by simp [hphase, hn, hdue])

theorem Dev.rsTimeout_waits (h : d.tw.rsPhase = 0 ∨ d.fld Reg.TW_RSTO 15 0 = 0 ∨
    d.due Tm.resync (secT (d.fld Reg.TW_RSTO 15 0)) = false) : d.rsTimeout = d :=
  if_neg (by rcases h with h | h | h <;> simp [h])

theorem Dev.mirrorInterval_mirrors (hshade : d.hasShade = true) (hn : d.fld Reg.TW_MIRINT 15 0 ≠ 0)
    (hdue : d.running Tm.mir = false ∨ d.due Tm.mir (msT (d.fld Reg.TW_MIRINT 15 0)) = true) :
    d.mirrorInterval = d.mirrorEst.start Tm.mir := if_pos (by simpa [hshade, hn] using hdue)

theorem Dev.mirrorInterval_waits (h : d.hasShade = false ∨ d.fld Reg.TW_MIRINT 15 0 = 0 ∨
    (d.running Tm.mir = true ∧ d.due Tm.mir (msT (d.fld Reg.TW_MIRINT 15 0)) = false)) : d.mirrorInterval = d :=
  if_neg (by rcases h with h | h | ⟨hrun, hdue⟩ <;> simp [*])

end

/-- A command with its effect named, the effect given by the command's own meaning. -/
theorem State.next_on_eq {s : State} {o : Host.Outcome State Fault Refusal} {d e : Dev} (ho : o = .next (s.on d))
    (he : d = e) : o = .next (s.on e) := he ▸ ho

theorem exec_ping_awake {s : State} {e : Dev} (hs : s.dev.asleep = false)
    (he : (if !s.dev.running Tm.ping || s.dev.due Tm.ping (secT 1) then s.dev.pingSend else s.dev) = e) :
    exec .ping s = .next (s.on e) :=
  State.next_on_eq (State.lift_awake hs _ : execPing s = _) he

theorem exec_pingReceive_awake {s : State} {e : Dev} (hs : s.dev.asleep = false)
    (he : (if s.dev.twSends then s.dev.send .twin 0x201 [] else s.dev) = e) : exec .pingReceive s = .next (s.on e) :=
  State.next_on_eq (State.lift_awake hs _ : execPingReceive s = _) he

theorem exec_linkFrameDiscard_awake {s : State} {e : Dev} (hs : s.dev.asleep = false)
    (he : (if s.dev.role = 0 then s.dev else s.dev.twBad) = e) : exec .linkFrameDiscard s = .next (s.on e) :=
  State.next_on_eq (State.lift_awake hs _ : execLinkFrameDiscard s = _) he

theorem exec_joinTimeout_awake {s : State} {low : Bool} {d e : Dev} (hs : s.dev.asleep = false)
    (hd : s.dev.roleLine low = d) (he : d.joinTimeout = e) : exec (.joinTimeout low) s = .next (s.on e) :=
  State.next_on_eq (State.lift_awake hs _ : execJoinTimeout low s = _) (hd ▸ he)

theorem exec_takeover_awake {s : State} {low : Bool} {d e : Dev} (hs : s.dev.asleep = false)
    (hd : s.dev.roleLine low = d) (he : d.takeover = e) : exec (.takeover low) s = .next (s.on e) :=
  State.next_on_eq (State.lift_awake hs _ : execTakeover low s = _) (hd ▸ he)

/-- Settles O51: the link's frames, the heartbeat, TW_CTL through its gate, start-up, takeover and the duty's rounds. -/
theorem twinLinkCommands : Obligations.TwinLinkCommands := by
  unfold Obligations.TwinLinkCommands
  refine ⟨fun s hs => (State.lift_awake hs _ : execLinkUp 0 s = _),
    fun s hs => (State.lift_awake hs _ : execLinkUp 1 s = _), fun s hs => (State.lift_awake hs _ : execLinkUp 2 s = _),
    fun s hs => (State.lift_awake hs _ : execLos 0 s = _), fun s hs => (State.lift_awake hs _ : execLos 1 s = _),
    fun s hs => (State.lift_awake hs _ : execLos 2 s = _),
    fun d => ⟨Dev.twLinkUp_ignored, Dev.twLinkUp_rises, Dev.twLos_ignored, fun h => if_pos h⟩,
    fun s d hs => ⟨fun hsend hdue he => State.lift_awake_eq hs (Dev.hbSend_sends hsend hdue he),
      fun h => State.lift_awake_eq hs (Dev.hbSend_waits h)⟩,
    ?heartbeat,
    fun s t d e hs => ⟨fun h => State.lift_awake_eq hs (Dev.hbMiss_none h),
      fun ht h => State.lift_awake_eq hs (Dev.hbMiss_early ht h),
      fun ht hr hlate hd he => State.lift_awake_eq hs (Dev.hbMiss_counts ht hr hlate hd he)⟩,
    fun s hs => ⟨fun h => exec_ping_awake hs (if_pos (by simpa using h)),
      fun hrun hdue => exec_ping_awake hs (if_neg (by simp [hrun, hdue]))⟩,
    fun d => ⟨Dev.pingSend_sends, Dev.pingSend_silent, rfl⟩,
    fun s hs => ⟨fun h => exec_pingReceive_awake hs (if_pos h),
      fun h => exec_pingReceive_awake hs (if_neg (by simp [h]))⟩,
    fun s rtt lat hs => ⟨fun h => State.lift_awake_eq (f := fun d => d.pong rtt.toNat) hs (Dev.pong_alone h _),
      fun h hlat => State.lift_awake_eq (f := fun d => d.pong rtt.toNat) hs (Dev.pong_measures h hlat)⟩,
    fun s hs => ⟨fun h => exec_linkFrameDiscard_awake hs (if_pos h),
      fun h => exec_linkFrameDiscard_awake hs (if_neg h)⟩,
    ?killIn,
    fun s src v d hs ht h => State.lift_serviceGate hs ht h _, fun s v hs h => State.lift_serviceGate_service hs h _ _,
    fun s src v d hs ht h => State.lift_serviceGate hs ht h _, fun s v hs h => State.lift_serviceGate_service hs h _ _,
    fun s src v d hs ht h => State.lift_serviceGate hs ht h _, fun s v hs h => State.lift_serviceGate_service hs h _ _,
    fun s src v d hs ht h => State.lift_serviceGate hs ht h _, fun s v hs h => State.lift_serviceGate_service hs h _ _,
    fun d v => ⟨rfl, Dev.seed_seeds, Dev.seed_seeded, Dev.rejoin_resets, Dev.rejoin_ignored,
      fun h => Dev.handover_ignored h true⟩,
    fun s hs => ⟨fun hn hdue => State.lift_awake_eq hs (Dev.deposedTimeout_rejoins hn hdue),
      fun h => State.lift_awake_eq hs (Dev.deposedTimeout_waits h)⟩,
    ?join, ?take,
    fun s a b c hs => ⟨fun htake hdue ha hb hc => State.lift_awake_eq hs (Dev.settleExpiry_takes htake hdue ha hb hc),
      fun h => State.lift_awake_eq hs (Dev.settleExpiry_waits h)⟩,
    fun s a e hs => ⟨fun h => State.lift_awake_eq hs (Dev.rsRound_waits h),
      fun hr hphase hwait ha he => State.lift_awake_eq hs (Dev.rsRound_runs hr hphase hwait ha he)⟩,
    fun s e hs => ⟨fun hphase hn hdue he => State.lift_awake_eq hs (Dev.rsTimeout_fails hphase hn hdue he),
      fun h => State.lift_awake_eq hs (Dev.rsTimeout_waits h)⟩,
    fun s hs => ⟨fun hshade hn hdue => State.lift_awake_eq hs (Dev.mirrorInterval_mirrors hshade hn hdue),
      fun h => State.lift_awake_eq hs (Dev.mirrorInterval_waits h)⟩⟩
  case heartbeat =>
    intro s low epoch b4 b5 count compat image cyc angle inc ns sec x a c hs
    have hbeat := (State.lift_awake hs _ : execHeartbeat low epoch b4 b5 count compat image cyc angle inc ns sec s = _)
    refine ⟨fun h => State.next_on_eq hbeat (Dev.heartbeat_ignored (d := s.dev.roleLine low) h _ _ _),
      fun h0 h3 hl hx ha hc => State.next_on_eq hbeat ?_⟩
    subst hx
    exact Dev.heartbeat_heard (d := s.dev.roleLine low) h0 h3 hl ha hc
  case killIn =>
    intro s active d
    exact ⟨fun hs => congrArg (fun d => Host.Outcome.next (s.on d)) (if_pos hs),
      fun hs hd => congrArg (fun d => Host.Outcome.next (s.on d))
        ((if_neg (by simp [hs])).trans (Dev.killIn_deposes hd))⟩
  case join =>
    intro s low d e hs
    exact ⟨fun hd hok hn hdue he => exec_joinTimeout_awake hs hd (Dev.joinTimeout_enters hok hn hdue he),
      fun hd h => exec_joinTimeout_awake hs hd (Dev.joinTimeout_waits h)⟩
  case take =>
    intro s low d hs
    exact ⟨fun hd h => exec_takeover_awake hs hd (Dev.takeover_begins h),
      fun hd h => exec_takeover_awake hs hd (Dev.takeover_ignored h)⟩

end Sys2Proof.Machine
end

section
/-! SUPPORT. Cues and frames between duty and shade. -/

namespace Sys2Proof.Machine

/-! ### What a shade alone does (R387, R401) -/

/-- A command that acts on a shade and leaves every other module as it is. -/
theorem State.shade_only {s : State} {o : Host.Outcome State Fault Refusal} {e : Dev}
    (ho : o = .next (s.on (if s.dev.role = 2 then e else s.dev))) :
    (s.dev.role = 2 → o = .next (s.on e)) ∧ (s.dev.role ≠ 2 → o = .next (s.on s.dev)) :=
  ⟨fun h => State.next_on_eq ho (if_pos h), fun h => State.next_on_eq ho (if_neg h)⟩

section
variable {d : Dev}

theorem Dev.cueStrobe_ignored (h : d.role ≠ 2 ∨ d.bit Reg.SWP_CTL 0 = false) (seq : Nat) (temp aux : Bool) :
    d.cueStrobe seq temp aux = d := if_pos (by simpa using h)

/-- What a strobe's cue does once the sweep under way has been published: SPLIT begins, and the strobe leaves. -/
def Dev.cueStrobed (d : Dev) (seq : Nat) (temp aux : Bool) : Dev :=
  let e := if d.ringState = 3 then d.ringSet 4 else d
  if e.ringSplit = true then e.strobeWith e.swp.lastDesc seq temp aux 0 else e

theorem Dev.cueStrobe_idle (hr : d.role = 2) (hen : d.bit Reg.SWP_CTL 0 = true) (hcur : d.swp.cur = none) (seq : Nat)
    (temp aux : Bool) : d.cueStrobe seq temp aux = d.cueStrobed seq temp aux := by
  refine (if_neg (by simp [hr, hen])).trans ?_
  simp only [hcur]
  rfl

theorem Dev.cueStrobe_publishes {w : Sweep} (hr : d.role = 2) (hen : d.bit Reg.SWP_CTL 0 = true)
    (hcur : d.swp.cur = some w) (seq : Nat) (temp aux : Bool) :
    d.cueStrobe seq temp aux = (d.publish w).cueStrobed seq temp aux := by
  refine (if_neg (by simp [hr, hen])).trans ?_
  simp only [hcur]
  rfl

theorem Dev.cueMailbox_empty (h : d.tw.mb = none) (m : Nat) : d.cueMailbox m = d := by
  simp only [Dev.cueMailbox, h]

theorem Dev.cueMailbox_other {k m : Nat} {ws : List Word} (hm : d.tw.mb = some (k, ws)) (h : d.role ≠ 2 ∨ k ≠ m) :
    d.cueMailbox m = d := by
  simp only [Dev.cueMailbox, hm]
  exact if_neg (by rcases h with h | h <;> simp [h])

theorem Dev.cueMailbox_commits {k m : Nat} {ws : List Word} {st : List (Nat × Option Word)}
    (hm : d.tw.mb = some (k, ws)) (hr : d.role = 2) (hk : k = m)
    (hst : (List.range 3).foldl (fun l w => putO l (4 * m + w + 1) (ws[w + 1]?)) d.dsp.stage = st) : d.cueMailbox m =
      ({ d with tw := { d.tw with mb := none }, dsp := { d.dsp with stage := st } } : Dev).mbCommit m
        ((ws[0]?).getD 0) := by
  subst hst
  simp only [Dev.cueMailbox, hm]
  exact if_pos (by simp [hr, hk])

theorem Dev.cueRecovery_idle (h : d.swp.cur = none) (seq : Nat) : d.cueRecovery seq = d := by
  simp only [Dev.cueRecovery, h]

theorem Dev.cueRecovery_other {seq : Nat} {w : Sweep} (hw : d.swp.cur = some w) (h : d.role ≠ 2 ∨ w.seq ≠ seq) :
    d.cueRecovery seq = d := by
  simp only [Dev.cueRecovery, hw]
  exact if_neg (by rcases h with h | h <;> simp [h])

theorem Dev.cueRecovery_reads {seq : Nat} {w : Sweep} {e : Dev} (hw : d.swp.cur = some w) (hr : d.role = 2)
    (hseq : w.seq = seq) (he : { d with swp := { d.swp with cur := some { w with recovering := true } } } = e) :
    d.cueRecovery seq = e.collect 63 0x21 true (((d.descNodes w.desc).filter (fun k => !w.got.contains k)).map
      (fun k => (k, 3 * e.nodeNV k))) := by
  subst he
  simp only [Dev.cueRecovery, hw]
  exact if_pos (by simp [hr, hseq])

theorem Dev.cuePwm_shade (h : d.role = 2) (l : List Nat) : d.cuePwm l = (List.range 4).foldl
    (fun (d : Dev) p => d.setPair p { d.pair p with cnt := nth l p, cntAt := d.now }) d := if_pos h

theorem Dev.cuePwm_other (h : d.role ≠ 2) (l : List Nat) : d.cuePwm l = d := if_neg h

theorem Dev.shadeDrop_outOfStep (h : d.inStep = false) (k : Nat) : d.shadeDrop k = d := if_neg (by simp [h])

/-! ### The cycle of a pair in step (R396, R397, R399, R400) -/

theorem Dev.imageTake_alone (h : d.role = 0) (crcOk : Bool) (cycle : Nat) (l : List Byte) (fs : List Force) :
    d.imageTake crcOk cycle l fs = d := if_pos h

theorem Dev.imageTake_bad {a : Dev} (hr : d.role ≠ 0) (ha : d.flag Reg.TW_STAT 19 = a) (cycle : Nat) (l : List Byte)
    (fs : List Force) : d.imageTake false cycle l fs = if a.inStep = true then
      (if a.running Tm.lagImg = true then a else a.start Tm.lagImg).imgAck cycle 1 else a := by
  subst ha
  exact if_neg hr

theorem Dev.imageTake_refused (h : d.cyc.image = none ∨ d.inStep = false ∨ d.cycState ≠ 2 ∨ d.cycBusy = true ∨
    d.tw.ownHash.isSome = true) (cycle : Nat) (l : List Byte) (fs : List Force) :
    d.imageTake true cycle l fs = d := by
  unfold Dev.imageTake
  split
  · rfl
  · rw [if_neg (by decide)]
    split
    · rfl
    · next p himg =>
      exact if_pos (by rcases h with h | h | h | h | h <;> simp_all)

theorem Dev.imageTake_takes {p : Image} {a e : Dev} {l : List Byte} {fs : List Force} (himg : d.cyc.image = some p)
    (hstep : d.inStep = true) (hstate : d.cycState = 2) (hbusy : d.cycBusy = false) (hown : d.tw.ownHash = none)
    (hr : d.role ≠ 0) (ha : d.imageStore (splitImage p l) = a)
    (he : { a with
      cyc := { a.cyc with
        forces := fs
        frozen := { a.cyc.frozen with
          tb := leNat (slice l 8 8)
          angle := leNat (slice l 16 4)
          cycle := leNat (slice l 20 4) } } } = e)
    (cycle : Nat) : d.imageTake true cycle l fs =
      (((((e.inputForces.setFld Reg.CYC_OVRCNT 31 24 0).wr Reg.CYC_NUM (nw cycle)).resumeBlocks.stop Tm.noImg).stop
        Tm.lagImg).imgAck cycle 0).execBegin := by
  subst ha he
  refine (if_neg hr).trans ((if_neg (by decide)).trans ?_)
  simp only [himg]
  exact if_neg (by simp [hstep, hstate, hbusy, hown])

theorem Dev.imgAckTake_begins {cycle : Nat} (hr : d.role = 1) (hw : d.tw.imgWait = true)
    (hn : (d.rd Reg.CYC_NUM).toNat = cycle) : d.imgAckTake cycle 0 =
      (({ d with tw := { d.tw with imgWait := false } } : Dev).stop Tm.lagImg).execBegin :=
  if_pos (by simp [hr, hw, hn])

theorem Dev.imgAckTake_resends {cycle : Nat} (hr : d.role = 1) (hw : d.tw.imgWait = true)
    (hn : (d.rd Reg.CYC_NUM).toNat = cycle) : d.imgAckTake cycle 1 = d.send .twin 0x82 (byteNats d.tw.img) :=
  if_pos (by simp [hr, hw, hn])

theorem Dev.imgAckTake_ignored {cycle status : Nat} (h : d.role ≠ 1 ∨ d.tw.imgWait = false ∨
    (d.rd Reg.CYC_NUM).toNat ≠ cycle ∨ 1 < status) : d.imgAckTake cycle status = d := by
  unfold Dev.imgAckTake
  split
  · next hall =>
    obtain ⟨⟨hr, hw⟩, hn⟩ : (d.role = 1 ∧ d.tw.imgWait = true) ∧ (d.rd Reg.CYC_NUM).toNat = cycle := by
      simpa using hall
    have hstatus : 1 < status := by simpa [hr, hw, hn] using h
    rw [if_neg (by omega), if_neg (by omega)]
  · rfl

theorem Dev.hashTake_inStep (h : d.inStep = true) (cycle : Nat) (hash : Word) : d.hashTake cycle hash =
    (({ d with tw := { d.tw with dutyHash := some (cycle, hash) } } : Dev).start Tm.lagHash).shadeJudge := if_pos h

theorem Dev.hashTake_ignored (h : d.inStep = false) (cycle : Nat) (hash : Word) : d.hashTake cycle hash = d :=
  if_neg (by simp [h])

theorem Dev.shadeJudge_judges {e f : Dev} {own duty : Word} {k : Nat} (hown : d.tw.ownHash = some own)
    (hduty : d.tw.dutyHash = some (k, duty)) (hstep : d.inStep = true) (hphase : d.cyc.phase = .commit)
    (hn : (d.rd Reg.CYC_NUM).toNat = k)
    (he : d.send .twin 0x05 (byteNats (leBytes 4 k ++ leBytes 4 own.toNat) ++ [b2n (!(own == duty)), 0, 0, 0]) = e)
    (hf : { e with tw := { e.tw with ownHash := none, dutyHash := none } } = f) :
    d.shadeJudge = if (own == duty) = true then f.commit else (f.flag Reg.TW_STAT 17).shadeDrop 3 := by
  subst he hf
  simp only [Dev.shadeJudge, hown, hduty]
  exact if_pos (by simp [hstep, hphase, hn])

theorem Dev.shadeJudge_waits (h : d.tw.ownHash = none ∨ d.tw.dutyHash = none ∨ d.inStep = false ∨
    d.cyc.phase ≠ .commit) : d.shadeJudge = d := by
  unfold Dev.shadeJudge
  split
  · next hown hduty => exact if_neg (by rcases h with h | h | h | h <;> simp_all)
  · rfl

theorem Dev.hashAckTake_agrees {a : Dev} {cycle result : Nat} (hr : d.role = 1) (hw : d.tw.hashWait = some cycle)
    (ha : ({ d with tw := { d.tw with hashWait := none } } : Dev).stop Tm.lagHash = a) (h : result ≠ 1) :
    d.hashAckTake cycle result = a.handDue := by
  subst ha
  exact (if_pos (by simp [hr, hw])).trans (congrArg Dev.handDue (if_neg h))

theorem Dev.hashAckTake_differs {a : Dev} {cycle result : Nat} (hr : d.role = 1) (hw : d.tw.hashWait = some cycle)
    (ha : ({ d with tw := { d.tw with hashWait := none } } : Dev).stop Tm.lagHash = a) (h : result = 1) :
    d.hashAckTake cycle result = ((((({ a with tw := { a.tw with dropped := true } } : Dev).satInc Reg.TW_HASHCNT 23
      0).flag Reg.TW_STAT 17).handCheck).handDue) := by
  subst ha
  exact (if_pos (by simp [hr, hw])).trans (congrArg Dev.handDue (if_pos h))

theorem Dev.hashAckTake_ignored {cycle : Nat} (h : d.role ≠ 1 ∨ d.tw.hashWait ≠ some cycle) (result : Nat) :
    d.hashAckTake cycle result = d := if_neg (by simpa [imp_iff_not_or] using h)

theorem Dev.lagExpiry_duty (h : d.role = 1) : d.lagExpiry =
    if d.tw.imgWait && d.due Tm.lagImg d.lagTicks then
      ((({ d with tw := { d.tw with imgWait := false, dropped := true } } : Dev).stop Tm.lagImg).handCheck).execBegin
    else if d.tw.hashWait.isSome && d.due Tm.lagHash d.lagTicks then
      (((({ d with tw := { d.tw with hashWait := none, dropped := true } } : Dev).stop
        Tm.lagHash).handCheck).handDue)
    else d := if_pos h

theorem Dev.lagExpiry_shade (hr : d.role ≠ 1) (hs : d.inStep = true) : d.lagExpiry =
    if d.due Tm.lagImg d.lagTicks then (d.stop Tm.lagImg).shadeDrop 1
    else if d.tw.dutyHash.isSome && d.due Tm.lagHash d.lagTicks then (d.stop Tm.lagHash).shadeDrop 2
    else d := (if_neg hr).trans (if_pos hs)

theorem Dev.lagExpiry_outOfStep (hr : d.role ≠ 1) (hs : d.inStep = false) : d.lagExpiry = d :=
  (if_neg hr).trans (if_neg (by simp [hs]))

theorem Dev.missingImage_drops (hs : d.inStep = true) (hc : d.cycState = 2)
    (hdue : d.due Tm.noImg d.lagTicks = true) : d.missingImage = d.shadeDrop 5 := if_pos (by simp [hs, hc, hdue])

theorem Dev.missingImage_waits (h : d.inStep = false ∨ d.cycState ≠ 2 ∨ d.due Tm.noImg d.lagTicks = false) :
    d.missingImage = d := if_neg (by rcases h with h | h | h <;> simp [h])

/-! ### Frames (R402, R404, R410, R411) -/

theorem Dev.mirrorTake_other (h : d.role ≠ 2) (sec off : Nat) (l : List Byte) : d.mirrorTake sec off l = d :=
  if_pos (by simpa using h)

theorem Dev.mirrorTake_shadow {off : Nat} {l : List Byte} (hr : d.role = 2) (hlo : 0x20700000 ≤ off)
    (hhi : off + l.length ≤ 0x20710000) : d.mirrorTake 2 off l = d.mramWrite off l :=
  (if_neg (by simp [hr])).trans (if_pos (by simp [hlo, hhi]))

theorem Dev.mirrorTake_storeroom {off : Nat} {l : List Byte} (hr : d.role = 2) (hlo : 0x20000000 ≤ off)
    (hhi : off + l.length ≤ 0x20200000) : d.mirrorTake 3 off l = d.mramWrite off l :=
  (if_neg (by simp [hr])).trans (if_pos (by simp [hlo, hhi]))

theorem Dev.mirrorTake_record (hr : d.role = 2) (off : Nat) (l : List Byte) :
    d.mirrorTake 6 off l = d.enqueue (partnerPost l) := if_neg (by simp [hr])

theorem Dev.mirrorTake_unknown {sec : Nat} (hr : d.role = 2) (h : 7 < sec ∨ sec = 0) (off : Nat) (l : List Byte) :
    d.mirrorTake sec off l = d.flag Reg.TW_STAT 19 := by
  refine (if_neg (by simp [hr])).trans ?_
  obtain h | rfl := h
  · obtain ⟨k, rfl⟩ := Nat.exists_eq_add_of_le' (Nat.succ_le_of_lt h)
    rfl
  · rfl

theorem Dev.joinTake_ignored (h : d.role ≠ 2 ∨ d.smode ≠ 0) (a : Nat) (l : List Byte) : d.joinTake a l = d :=
  if_pos (by simpa using h)

theorem Dev.joinTake_data {a : Nat} {l : List Byte} (hr : d.role = 2) (hm : d.smode = 0) (hlo : dataBase ≤ a)
    (hhi : a + l.length ≤ 0x105E0000) : d.joinTake a l = d.agentStore a l :=
  (if_neg (by simp [hr, hm])).trans (if_pos (by simp [hlo, hhi]))

theorem Dev.joinStateTake_noImage (h : d.cyc.image = none) (j : JoinState) : d.joinStateTake j = d := by
  simp only [Dev.joinStateTake, h]

theorem Dev.joinStateTake_ignored {p : Image} (himg : d.cyc.image = some p)
    (h : d.role ≠ 2 ∨ d.smode ≠ 0 ∨ d.tw.target ≠ 1) (j : JoinState) : d.joinStateTake j = d := by
  simp only [Dev.joinStateTake, himg]
  exact if_pos (by simpa [or_assoc] using h)

theorem Dev.joinStateTake_takes {p : Image} {k : Nat} {c f : CoreSt} {a e : Dev} {j : JoinState}
    (himg : d.cyc.image = some p) (hr : d.role = 2) (hm : d.smode = 0) (htarget : d.tw.target = 1)
    (hk : d.nextFree = (k, a)) (hc : (a.core .program).placed (codeBase + 4 * Config.free k) 1 = c)
    (hf : { c with
      w := Vector.ofFn (fun i => if i.val = 0 then 0 else (j.w[i.val - 1]?).getD 0)
      v := Vector.ofFn (fun r => Vector.ofFn (fun i => (((j.v[r.val]?).getD [])[i.val]?).getD 0))
      m := Vector.ofFn (fun i => (j.m[i.val]?).getD 0)
      vl := min 64 j.vl.toNat
      fcsr := j.fcsr &&& 0x7F
      status := withBit (withBit c.status 8 j.dz) 9 j.ov } = f)
    (he : ((((a.setCore .program f).copyMem (p.base + 0x100) codeBase p.codeLen).wr Reg.SYS_EXPOWN0 j.own0).wr
      Reg.SYS_EXPOWN1 j.own1).wr Reg.CYC_NUM j.cycle = e) : d.joinStateTake j =
        (({ e with cyc := { e.cyc with phase := .wait, calls := [], firstCommit := true, retainedId := some p.imageId } }
          : Dev).setFld Reg.CYC_STAT 2 0 2).joinDone 1 := by
  subst hc hf he
  simp only [Dev.joinStateTake, himg, hk]
  exact if_neg (by simp [hr, hm, htarget])

theorem Dev.joinSlot_ignored (h : d.role ≠ 2) (sl : Nat) (w14 w15 : Word) (e3 u3 : Int) (q : List Nat) :
    d.joinSlot sl w14 w15 e3 u3 q = d := if_pos (by simpa using h)

theorem Dev.joinSlot_takes {sl : Nat} {w14 w15 : Word} {e : Dev} (hr : d.role = 2)
    (he : (d.wr (Reg.CE_SLOT sl 14) w14).wr (Reg.CE_SLOT sl 15) w15 = e) (e3 u3 : Int) (q : List Nat) :
    d.joinSlot sl w14 w15 e3 u3 q = e.setSlot sl { e.slot sl with
      e3 := e3, u3 := u3, q := (q.zipIdx).foldl (fun m e => putN m e.2 e.1) [] } := by
  subst he
  exact if_neg (by simp [hr])

end

/-! ### The commands with their effects named -/

/-- A strobe's cue, by the sweep that is under way. -/
theorem State.cueStrobe_cases {s : State} {o : Host.Outcome State Fault Refusal} {seq : Nat} {temp aux : Bool}
    (ho : o = .next (s.on (s.dev.cueStrobe seq temp aux))) (w : Sweep) (e : Dev) :
    (s.dev.role ≠ 2 ∨ s.dev.bit Reg.SWP_CTL 0 = false → o = .next (s.on s.dev)) ∧
    (s.dev.role = 2 → s.dev.bit Reg.SWP_CTL 0 = true → s.dev.swp.cur = none →
      (if s.dev.ringState = 3 then s.dev.ringSet 4 else s.dev) = e →
        o = .next (s.on (if e.ringSplit = true then e.strobeWith e.swp.lastDesc seq temp aux 0 else e))) ∧
    (s.dev.role = 2 → s.dev.bit Reg.SWP_CTL 0 = true → s.dev.swp.cur = some w →
      (if (s.dev.publish w).ringState = 3 then (s.dev.publish w).ringSet 4 else s.dev.publish w) = e →
        o = .next (s.on (if e.ringSplit = true then e.strobeWith e.swp.lastDesc seq temp aux 0 else e))) := by
  refine ⟨fun h => State.next_on_eq ho (Dev.cueStrobe_ignored h seq temp aux), fun hr hen hcur he => ?_,
    fun hr hen hcur he => ?_⟩
  · subst he
    exact State.next_on_eq ho (Dev.cueStrobe_idle hr hen hcur seq temp aux)
  · subst he
    exact State.next_on_eq ho (Dev.cueStrobe_publishes hr hen hcur seq temp aux)

/-- Settles O52: cues and frames act on a shade alone, an image and the hashes on a shade in step or its duty, and the
lag on either side of the pair. -/
theorem shadeCommands : Obligations.ShadeCommands := by
  unfold Obligations.ShadeCommands
  refine ⟨fun s seq w e hs => State.cueStrobe_cases (State.lift_awake hs _ : execCueStrobeV seq s = _) w e,
    fun s seq w e hs => State.cueStrobe_cases (State.lift_awake hs _ : execCueStrobeT seq s = _) w e,
    fun s seq w e hs => State.cueStrobe_cases (State.lift_awake hs _ : execCueStrobeTa seq s = _) w e,
    ?mailbox, fun s hs => State.shade_only (State.lift_awake hs _ : execCueSdmSync s = _), ?pwm,
    fun s n hs => State.shade_only (State.lift_awake hs _ : execCueScc n s = _),
    fun s ep hs => State.shade_only (State.lift_awake hs _ : execCueRoleExchange ep s = _), ?recovery, ?blank,
    fun s hs => (State.lift_awake hs _ : execCueBadCheck s = _),
    fun d k => ⟨fun h => Dev.shadeDrop_outOfStep h k, fun h => if_pos h⟩,
    ?image, ?imgack, ?hash, fun d e f own duty k => ⟨Dev.shadeJudge_judges, Dev.shadeJudge_waits⟩, ?hashack, ?lag,
    ?missing, ?mirror, ?segment,
    fun s m words hs => State.shade_only (State.lift_awake hs _ : execMailbox m words s = _),
    fun s cycle hs => State.shade_only (State.lift_awake hs _ : execCmdHandover cycle s = _),
    fun s cycle hs => State.shade_only (State.lift_awake hs _ : execCmdOnlineChange cycle s = _),
    fun s hs => State.shade_only (State.lift_awake hs _ : execCmdTransport s = _), ?enumeration, ?ring,
    fun s low hs => State.shade_only (State.lift_awake hs _ : execFail low s = _), ?granules, ?registers, ?slot⟩
  case mailbox =>
    intro s m k ws st hs
    have hcue := (State.lift_awake hs _ : execCueMailbox m s = _)
    exact ⟨fun h => State.next_on_eq hcue (Dev.cueMailbox_empty h _),
      fun hm h => State.next_on_eq hcue (Dev.cueMailbox_other hm h),
      fun hm hr hk hst => State.next_on_eq hcue (Dev.cueMailbox_commits hm hr hk hst)⟩
  case pwm =>
    intro s counts hs
    have hcue := (State.lift_awake hs _ : execCuePwmAlign counts s = _)
    exact ⟨fun h => State.next_on_eq hcue (Dev.cuePwm_shade h _), fun h => State.next_on_eq hcue (Dev.cuePwm_other h _)⟩
  case recovery =>
    intro s seq w e hs
    have hcue := (State.lift_awake hs _ : execCueRecoveryRead seq s = _)
    exact ⟨fun h => State.next_on_eq hcue (Dev.cueRecovery_idle h _),
      fun hw h => State.next_on_eq hcue (Dev.cueRecovery_other hw h),
      fun hw hr hseq he => State.next_on_eq hcue (Dev.cueRecovery_reads hw hr hseq he)⟩
  case blank =>
    intro s hs
    have hcue := (State.lift_awake hs _ : execCueBlank s = _)
    exact ⟨fun hr hsplit => State.next_on_eq hcue (if_pos (by simp [hr, hsplit])),
      fun h => State.next_on_eq hcue (if_neg (by rcases h with h | h <;> simp [h]))⟩
  case image =>
    intro s crcOk cycle image forces p a e hs
    have hframe := (State.lift_awake hs _ : execImage crcOk cycle image forces s = _)
    refine ⟨fun h => State.next_on_eq hframe (Dev.imageTake_alone h _ _ _ _), ?_, ?_, ?_⟩
    · rintro rfl hr ha
      exact State.next_on_eq hframe (Dev.imageTake_bad hr ha _ _ _)
    · rintro rfl h
      exact State.next_on_eq hframe (Dev.imageTake_refused h _ _ _)
    · rintro rfl himg hstep hstate hbusy hown hr ha he
      exact State.next_on_eq hframe (Dev.imageTake_takes himg hstep hstate hbusy hown hr ha he _)
  case imgack =>
    intro s cycle status hs
    have hframe := (State.lift_awake hs _ : execImgack cycle status s = _)
    refine ⟨fun hr hw hn hst => ?_, fun hr hw hn hst => ?_,
      fun h => State.next_on_eq hframe (Dev.imgAckTake_ignored h)⟩
    · exact State.next_on_eq hframe ((congrArg (s.dev.imgAckTake cycle.toNat) hst).trans (Dev.imgAckTake_begins hr hw hn))
    · exact State.next_on_eq hframe ((congrArg (s.dev.imgAckTake cycle.toNat) hst).trans (Dev.imgAckTake_resends hr hw hn))
  case hash =>
    intro s cycle h hs
    have hframe := (State.lift_awake hs _ : execHash cycle h s = _)
    exact ⟨fun hstep => State.next_on_eq hframe (Dev.hashTake_inStep hstep _ _),
      fun hstep => State.next_on_eq hframe (Dev.hashTake_ignored hstep _ _)⟩
  case hashack =>
    intro s cycle result a hs
    have hframe := (State.lift_awake hs _ : execHashack cycle result s = _)
    exact ⟨fun hr hw ha h => State.next_on_eq hframe (Dev.hashAckTake_agrees hr hw ha h),
      fun hr hw ha h => State.next_on_eq hframe (Dev.hashAckTake_differs hr hw ha h),
      fun h => State.next_on_eq hframe (Dev.hashAckTake_ignored h _)⟩
  case lag =>
    intro s hs
    have hlag := (State.lift_awake hs _ : execLagExpiry s = _)
    exact ⟨fun hr hw hdue => State.next_on_eq hlag ((Dev.lagExpiry_duty hr).trans (if_pos (by simp [hw, hdue]))),
      fun hr hw hh hdue => State.next_on_eq hlag ((Dev.lagExpiry_duty hr).trans
        ((if_neg (by simp [hw])).trans (if_pos (by simp [hh, hdue])))),
      fun hr hw hh => State.next_on_eq hlag ((Dev.lagExpiry_duty hr).trans
        ((if_neg (by simp [hw])).trans (if_neg (by simp [hh])))),
      fun hr hstep hdue => State.next_on_eq hlag ((Dev.lagExpiry_shade hr hstep).trans (if_pos hdue)),
      fun hr hstep hno hh hdue => State.next_on_eq hlag ((Dev.lagExpiry_shade hr hstep).trans
        ((if_neg (by simp [hno])).trans (if_pos (by simp [hh, hdue])))),
      fun hr hstep => State.next_on_eq hlag (Dev.lagExpiry_outOfStep hr hstep)⟩
  case missing =>
    intro s hs
    have hmiss := (State.lift_awake hs _ : execMissingImage s = _)
    exact ⟨fun hstep hc hdue => State.next_on_eq hmiss (Dev.missingImage_drops hstep hc hdue),
      fun h => State.next_on_eq hmiss (Dev.missingImage_waits h)⟩
  case mirror =>
    intro s sec off data hs
    have hframe := (State.lift_awake hs _ : execMirror sec off data s = _)
    refine ⟨fun h => State.next_on_eq hframe (Dev.mirrorTake_other h _ _ _), ?_, ?_, ?_, ?_⟩
    · rintro hr rfl hlo hhi
      exact State.next_on_eq hframe (Dev.mirrorTake_shadow hr hlo hhi)
    · rintro hr rfl hlo hhi
      exact State.next_on_eq hframe (Dev.mirrorTake_storeroom hr hlo hhi)
    · rintro hr rfl
      exact State.next_on_eq hframe (Dev.mirrorTake_record hr _ _)
    · intro hr h
      exact State.next_on_eq hframe (Dev.mirrorTake_unknown hr (h.imp_right (congrArg BitVec.toNat)) _ _)
  case segment =>
    intro s arg slots hs
    have hframe := (State.lift_awake hs _ : execSegment arg slots s = _)
    exact ⟨fun h => State.next_on_eq hframe (if_pos h), fun h => State.next_on_eq hframe (if_neg (by simp [h]))⟩
  case enumeration =>
    intro s hop nodes transit hs
    have hcmd := (State.lift_awake hs _ : execCmdEnumeration hop nodes transit s = _)
    exact ⟨fun h => State.next_on_eq hcmd (if_pos (by simpa using h)),
      fun h => State.next_on_eq hcmd (if_neg (by simp [h]))⟩
  case ring =>
    intro s frame hs
    have hcmd := (State.lift_awake hs _ : execCmdRingCommand frame s = _)
    refine ⟨fun hr hp => State.next_on_eq hcmd ((if_pos (by simp [hr, hp])).trans ?_),
      fun h => State.next_on_eq hcmd (if_neg (by rcases h with h | h <;> simp [h]))⟩
    rw [Dev.portSend, if_pos hp]
  case granules =>
    intro s addr data hs
    have hframe := (State.lift_awake hs _ : execResyncGranules addr data s = _)
    exact ⟨fun h => State.next_on_eq hframe (Dev.joinTake_ignored h _ _),
      fun hr hm hlo hhi => State.next_on_eq hframe (Dev.joinTake_data hr hm hlo hhi)⟩
  case registers =>
    intro s j p k c f a e hs
    have hframe := (State.lift_awake hs _ : execResyncRegisters j s = _)
    exact ⟨fun h => State.next_on_eq hframe (Dev.joinStateTake_noImage h j),
      fun himg h => State.next_on_eq hframe (Dev.joinStateTake_ignored himg h j),
      fun himg hr hm ht hk hc hf he => State.next_on_eq hframe (Dev.joinStateTake_takes himg hr hm ht hk hc hf he)⟩
  case slot =>
    intro s sl w14 w15 e3 u3 q e hs
    have hframe := (State.lift_awake hs _ : execResyncSlotHistory sl w14 w15 e3 u3 q s = _)
    exact ⟨fun h => State.next_on_eq hframe (Dev.joinSlot_ignored h _ _ _ _ _ _),
      fun hr he => State.next_on_eq hframe (Dev.joinSlot_takes hr he _ _ _)⟩

end Sys2Proof.Machine
end

section
/-! SUPPORT. The CAN controllers. -/

namespace Sys2Proof.Machine

section
variable {d : Dev} {x : Nat}

/-! ### Configuration and bus-off (R419, R420, R431) -/

/-- CANx_CTL written in configuration. -/
theorem Dev.canCtl_init {a : Dev} {v : Word} (hi : d.bit (Reg.CAN_CTL x) 0 = true) (ht : d.txHeld = false)
    (ha : d.plainWrite (Reg.CAN_CTL x) (withBit v 0 true) = a) (h6 : bitOf v 6 = false) :
    d.canCtl x v = if bitOf v 0 = true then a else a.canLeave x := by
  subst ha
  simp only [Dev.bit] at hi
  simp [Dev.canCtl, hi, ht, h6]

/-- CANx_CTL written in operation: LBACK and FDEN stand. -/
theorem Dev.canCtl_operation {a : Dev} {v : Word} (hi : d.bit (Reg.CAN_CTL x) 0 = false) (ht : d.txHeld = false)
    (ha : d.plainWrite (Reg.CAN_CTL x) (withBit (withBit (withBit v 4 (d.bit (Reg.CAN_CTL x) 4)) 2
      (d.bit (Reg.CAN_CTL x) 2)) 0 false) = a) : d.canCtl x v =
        if bitOf v 0 = true then (if bitOf v 6 = true then a.canRecover x else a).canInit x
        else if bitOf v 6 = true then a.canRecover x else a := by
  subst ha
  simp only [Dev.bit] at hi
  simp [Dev.canCtl, Dev.bit, hi, ht]

theorem Dev.canLeave_starts (hn : nbtOk (d.rd (Reg.CAN_NBT x)) = true) (hd : d.bit (Reg.CAN_CTL x) 2 = false ∨
    dbtOk (d.rd (Reg.CAN_NBT x)) (d.rd (Reg.CAN_DBT x)) = true) : d.canLeave x =
      (((d.setBit (Reg.CAN_CTL x) 0 false).setBit (Reg.CAN_STAT x) 0 false).setBit (Reg.CAN_STAT x) 4 false).setBit
        (Reg.CAN_STAT x) 8 true := if_pos (by rcases hd with h | h <;> simp [hn, h])

theorem Dev.canLeave_refuses (h : nbtOk (d.rd (Reg.CAN_NBT x)) = false ∨ d.bit (Reg.CAN_CTL x) 2 = true ∧
    dbtOk (d.rd (Reg.CAN_NBT x)) (d.rd (Reg.CAN_DBT x)) = false) :
    d.canLeave x = (d.flag (Reg.CAN_STAT x) 11).hw 0xA007 (d.canInfo x) := if_neg (by rcases h with h | h <;> simp [h])

theorem Dev.canRecover_starts (h : d.bit (Reg.CAN_STAT x) 7 = true) : d.canRecover x = d.start (Tm.canRec x) := if_pos h

theorem Dev.canRecover_ignored (h : d.bit (Reg.CAN_STAT x) 7 = false) : d.canRecover x = d := if_neg (by simp [h])

theorem Dev.canIntegrated_ignored (h : d.bit (Reg.CAN_CTL x) 0 = true ∨ d.bit (Reg.CAN_STAT x) 7 = true ∨
    d.bit (Reg.CAN_STAT x) 4 = true) : d.canIntegrated x = d := if_pos (by simpa [or_assoc] using h)

theorem Dev.canIntegrated_joins (hi : d.bit (Reg.CAN_CTL x) 0 = false) (hoff : d.bit (Reg.CAN_STAT x) 7 = false)
    (hon : d.bit (Reg.CAN_STAT x) 4 = false) :
    d.canIntegrated x = (d.flag (Reg.CAN_STAT x) 4).setBit (Reg.CAN_STAT x) 8 false := if_neg (by simp [hi, hoff, hon])

theorem Dev.canRecovered_ignored (h : d.bit (Reg.CAN_STAT x) 7 = false ∨ d.running (Tm.canRec x) = false) :
    d.canRecovered x = d := if_neg (by rcases h with h | h <;> simp [h])

theorem Dev.canRecovered_ends {a e : Dev} (hoff : d.bit (Reg.CAN_STAT x) 7 = true)
    (hrun : d.running (Tm.canRec x) = true)
    (ha : ((d.stop (Tm.canRec x)).setBit (Reg.CAN_STAT x) 7 false).canCount x 0 0 = a)
    (he : (if a.bit (Reg.CAN_CTL x) 0 then a else (a.flag (Reg.CAN_STAT x) 4).setBit (Reg.CAN_STAT x) 8 false) = e) :
    d.canRecovered x = e.hw 0xA004 (e.canInfo x) := by
  subst ha he
  exact if_pos (by simp [hoff, hrun])

/-! ### Frames received (R424 to R426) -/

theorem Dev.canReceive_ignored {fdf : Bool} (h : d.canLive x = false ∨ fdf = true ∧ d.bit (Reg.CAN_CTL x) 2 = false ∨
    d.bit (Reg.CAN_CTL x) 4 = true) (ide brs esi rtr : Bool) (id : BitVec 29) (dlc : Nat) (l : List Byte) :
    d.canReceive x ide fdf brs esi rtr id dlc l = d := if_pos (by simpa [or_assoc] using h)

theorem Dev.canReceive_takes {fdf : Bool} (hl : d.canLive x = true)
    (hf : fdf = false ∨ d.bit (Reg.CAN_CTL x) 2 = true) (hb : d.bit (Reg.CAN_CTL x) 4 = false)
    (ide brs esi rtr : Bool) (id : BitVec 29) (dlc : Nat) (l : List Byte) :
    d.canReceive x ide fdf brs esi rtr id dlc l = (d.canRxGood x).canTake x ide
      (16 * b2n fdf + 8 * b2n brs + 4 * b2n esi + 2 * b2n ide + b2n rtr) dlc
      (if ide = true then id.setWidth 32 else nw (id.toNat % 2048 * 2 ^ 18))
      (if rtr = true then [] else l.take (canLen fdf dlc)) :=
  if_neg (by rcases hf with hf | hf <;> simp [hl, hb, hf])

section
variable {ide : Bool} {flags dlc : Nat} {rxid : Word} {l : List Byte} {n : Nat}

theorem Dev.canTake_unmatched (h : (List.range 128).find? (fun n => d.canMatch x n ide rxid) = none) :
    d.canTake x ide flags dlc rxid l = d := by
  simp only [Dev.canTake, h]

theorem Dev.canTake_matched (h : (List.range 128).find? (fun n => d.canMatch x n ide rxid) = some n) :
    d.canTake x ide flags dlc rxid l =
      if d.bit (Reg.CAN_OBJ x n 3) 31 = false then d.canStore x n flags dlc rxid l
      else if d.bit (Reg.CAN_OBJ x n 0) 25 then
        ((d.canStore x n flags dlc rxid l).flag (Reg.CAN_OBJ x n 3) 30).canLost x n
      else (d.flag (Reg.CAN_OBJ x n 3) 29).canLost x n := by
  simp only [Dev.canTake, h]

end

theorem Dev.canRdsel_motion {n : Nat} (h : d.canMotion x n = true) : d.canRdsel x n = d := if_pos h

theorem Dev.canRdsel_copies {n : Nat} {a : Dev} (h : d.canMotion x n = false)
    (ha : (List.range 32).foldl (fun (d : Dev) w => d.wr (Reg.CAN_RDBUF x w) (d.rd (Reg.CAN_OBJ x n w))) d = a) :
    d.canRdsel x n = (a.setFld (Reg.CAN_OBJ x n 3) 31 29 0).setBit (Reg.CAN_RXNEW x (n / 32)) (n % 32) false := by
  subst ha
  exact if_neg (by simp [h])

theorem Dev.canRxError_ignored (h : d.canLive x = false) (code : Nat) (data : Bool) (rise : Nat) :
    d.canRxError x code data rise = d := if_pos (by simp [h])

theorem Dev.canRxError_live {e : Dev} {code : Nat} {data : Bool} (h : d.canLive x = true)
    (he : d.canLec x code data = e) (rise : Nat) : d.canRxError x code data rise =
      if e.canGated x = true then e
      else if rise < 2 then e.canCount x (e.canTec x) (e.canRec x + if rise = 1 then 8 else 1)
      else e.canCount x (e.canTec x + 8) (e.canRec x) := by
  subst he
  exact if_neg (by simp [h])

/-! ### Transmission (R427 to R430, R432) -/

theorem Dev.canRequest_ignored {n : Nat} (h : d.canGated x = true ∨ d.canMotion x n = true ∨
    bitOf (d.rd (Reg.CAN_OBJ x n 0)) 31 = false ∨ bitOf (d.rd (Reg.CAN_OBJ x n 0)) 30 = false ∨
    d.canPend x n = true) : d.canRequest x n = d := if_pos (by simpa [or_assoc] using h)

theorem Dev.canRequest_arms {n : Nat} (hg : d.canGated x = false) (hm : d.canMotion x n = false)
    (h31 : bitOf (d.rd (Reg.CAN_OBJ x n 0)) 31 = true) (h30 : bitOf (d.rd (Reg.CAN_OBJ x n 0)) 30 = true)
    (hp : d.canPend x n = false) : d.canRequest x n =
      ((d.flag (Reg.CAN_TXPEND x (n / 32)) (n % 32)).setFld (Reg.CAN_OBJ x n 3) 19 16 0).start (Tm.canReq x n) :=
  if_neg (by simp [hg, hm, h31, h30, hp])

theorem Dev.canDisarm_inWord (d : Dev) (x k : Nat) {i : Nat} (hi : i < 32) :
    d.canDisarm x (32 * k + i) = d.setBit (Reg.CAN_TXPEND x k) i false := by
  rw [Dev.canDisarm, show (32 * k + i) / 32 = k by omega, show (32 * k + i) % 32 = i by omega]

theorem Dev.canAttempt_ignored {ago : Nat} (h : d.canLive x = false ∨ d.canGated x = true ∨ d.canOffer x ago = none)
    (tdcv : BitVec 7) (err : Option (BitVec 3 × Bool × Byte)) : d.canAttempt x ago tdcv err = d := by
  unfold Dev.canAttempt
  split
  · rfl
  · next hlive =>
    have hnone : d.canOffer x ago = none := by
      rcases h with h | h | h
      · simp [h] at hlive
      · simp [h] at hlive
      · exact h
    simp only [hnone]

section
variable {ago n : Nat} {tdcv : BitVec 7} {e : Dev} (hl : d.canLive x = true) (hg : d.canGated x = false)
  (hn : d.canOffer x ago = some n) (he : (if d.bit (Reg.CAN_TDC x) 15 && d.bit (Reg.CAN_OBJ x n 0) 28 then
    d.setFld (Reg.CAN_TDC x) 6 0 tdcv.toNat else d) = e)
include hl hg hn he

theorem Dev.canAttempt_succeeds : d.canAttempt x ago tdcv none = e.canSuccess x n := by
  subst he
  refine (if_neg (by simp [hl, hg])).trans ?_
  simp only [hn]

theorem Dev.canAttempt_fails (code : BitVec 3) (data : Bool) (rises : Byte) :
    d.canAttempt x ago tdcv (some (code, data, rises)) = e.canFailure x n code.toNat data rises.toNat := by
  subst he
  refine (if_neg (by simp [hl, hg])).trans ?_
  simp only [hn]

end

/-- An attempt that fails: the attempt is counted, TEC rises, and the last one gives the object up. -/
theorem Dev.canFailure_eq (d : Dev) (x n code : Nat) (data : Bool) (rises : Nat) {a b : Dev}
    (ha : (d.canLec x code data).setFld (Reg.CAN_OBJ x n 3) 19 16 (satN 15 (d.fld (Reg.CAN_OBJ x n 3) 19 16 + 1)) = a)
    (hb : a.canCount x (a.canTec x + 8 * rises) (a.canRec x) = b) : d.canFailure x n code data rises =
      if d.fld (Reg.CAN_OBJ x n 0) 23 20 ≤ d.fld (Reg.CAN_OBJ x n 3) 19 16 then
        let f := (b.canDisarm x n).flag (Reg.CAN_TXFAIL x (n / 32)) (n % 32)
        f.hw 0xA006 (f.canInfo x ++ [nw n, f.rd (Reg.CAN_OBJ x n 1)])
      else b := by
  subst ha hb
  simp [Dev.canFailure]

end

/-- Settles O53: configuration, reception, transmission and the error counters of the CAN controllers, case by case. -/
theorem canCommands : Obligations.CanCommands := by
  unfold Obligations.CanCommands
  refine ⟨fun s src x v d hs ht => ⟨State.lift_gate hs ht _, State.lift_gate hs ht _⟩, ?ctl, fun d x =>
    ⟨Dev.canLeave_starts, Dev.canLeave_refuses, Dev.canRecover_starts, Dev.canRecover_ignored⟩, ?integrated, ?receive,
    ?take, ?rdsel, fun s src x k v d hs ht => State.lift_gate hs ht _,
    fun d x n => ⟨Dev.canRequest_ignored, Dev.canRequest_arms⟩,
    fun s src x k v onBus d hs ht => State.lift_gate hs ht _,
    fun d x k i hi => Dev.canDisarm_inWord d x k hi, ?attempt, ?failure, ?recovered,
    fun s x hs => (State.lift_awake hs _ : execCanStatRead x s = _), ?error⟩
  case ctl =>
    intro d a x v
    exact ⟨fun hi ht ha h6 h0 => (Dev.canCtl_init hi ht ha h6).trans (if_neg (by simp [h0])),
      fun hi ht ha h6 h0 => (Dev.canCtl_init hi ht ha h6).trans (if_pos h0),
      fun hi ht ha h6 h0 => (Dev.canCtl_operation hi ht ha).trans (by simp [h6, h0]),
      fun hi ht ha h6 h0 => (Dev.canCtl_operation hi ht ha).trans (by simp [h6, h0])⟩
  case integrated =>
    intro s x hs
    have hcmd := (State.lift_awake hs _ : execBusIntegrated x s = _)
    exact ⟨fun h => State.next_on_eq hcmd (Dev.canIntegrated_ignored h),
      fun hi hoff hon => State.next_on_eq hcmd (Dev.canIntegrated_joins hi hoff hon)⟩
  case receive =>
    intro s x ide fdf brs esi rtr id dlc l hs
    have hcmd := (State.lift_awake hs _ : execCanFrameReceive x ide fdf brs esi rtr id dlc l s = _)
    exact ⟨fun h => State.next_on_eq hcmd (Dev.canReceive_ignored h _ _ _ _ _ _ _),
      fun hl hf hb => State.next_on_eq hcmd (Dev.canReceive_takes hl hf hb _ _ _ _ _ _ _)⟩
  case take =>
    intro d x n ide flags dlc rxid l
    exact ⟨Dev.canTake_unmatched, fun h hnew => (Dev.canTake_matched h).trans (if_pos hnew),
      fun h hnew hovw => (Dev.canTake_matched h).trans ((if_neg (by simp [hnew])).trans (if_pos hovw)),
      fun h hnew hovw => (Dev.canTake_matched h).trans ((if_neg (by simp [hnew])).trans (if_neg (by simp [hovw])))⟩
  case rdsel =>
    intro s src x v d a hs ht
    have hcmd := (State.lift_gate hs ht _ : execRdsel src x v s = _)
    exact ⟨fun h => State.next_on_eq hcmd (Dev.canRdsel_motion h),
      fun h ha => State.next_on_eq hcmd (Dev.canRdsel_copies h ha)⟩
  case attempt =>
    intro s x ago tdcv err n code data rises e hs
    have hcmd := (State.lift_awake hs _ : execCanAttemptEnd x ago tdcv err s = _)
    refine ⟨fun h => State.next_on_eq hcmd (Dev.canAttempt_ignored h _ _), fun hl hg hn he herr => ?_,
      fun hl hg hn he herr => ?_⟩
    · subst herr
      exact State.next_on_eq hcmd (Dev.canAttempt_succeeds hl hg hn he)
    · subst herr
      exact State.next_on_eq hcmd (Dev.canAttempt_fails hl hg hn he code data rises)
  case failure =>
    intro d x n code rises data a
    refine ⟨fun ha h => ?_, fun ha h => ?_⟩
    · exact (Dev.canFailure_eq d x n code data rises ha rfl).trans (if_neg (by omega))
    · subst ha
      exact (Dev.canFailure_eq d x n code data rises rfl rfl).trans (if_pos h)
  case recovered =>
    intro s x a e hs
    have hcmd := (State.lift_awake hs _ : execBusOffRecoveryDone x s = _)
    exact ⟨fun h => State.next_on_eq hcmd (Dev.canRecovered_ignored h),
      fun hoff hrun ha he => State.next_on_eq hcmd (Dev.canRecovered_ends hoff hrun ha he)⟩
  case error =>
    intro s x code data rise e hs
    have hcmd := (State.lift_awake hs _ : execCanReceiveError x code data rise s = _)
    exact ⟨fun h => State.next_on_eq hcmd (Dev.canRxError_ignored h _ _ _),
      fun h he hg => State.next_on_eq hcmd ((Dev.canRxError_live h he _).trans (if_pos hg)),
      fun h he hg hr => State.next_on_eq hcmd ((Dev.canRxError_live h he _).trans
        ((if_neg (by simp [hg])).trans (if_pos hr))),
      fun h he hg hr => State.next_on_eq hcmd ((Dev.canRxError_live h he _).trans
        ((if_neg (by simp [hg])).trans (if_neg (by omega))))⟩

end Sys2Proof.Machine
end

section
/-! SUPPORT. The SMBus target. -/

namespace Sys2Proof.Machine

section
variable {d : Dev} {a : Nat}

/-! ### Reads (R443, R446, R449) -/

theorem Dev.smbRead_other (h : d.smbAck a = none) (code : Nat) (ack : Bool) (l : List Byte) :
    d.smbRead a code ack l = d := by
  simp only [Dev.smbRead, h]

/-- The bytes of a response: with its PEC when PEC is 1 and the last byte was acknowledged. -/
theorem Dev.smbRead_answers {k : Nat} (h : d.smbAck a = some k) (code : Nat) (ack : Bool) (l : List Byte) :
    d.smbRead a code ack l = (d.smbLast k code true).send .smbus code (byteNats
      (if (d.bit Reg.SMB_CFG 2 && ack) = true then
        l ++ [pec8 ((leBytes 1 (2 * a) ++ leBytes 1 code ++ leBytes 1 (2 * a + 1)) ++ l)] else l)) := by
  simp only [Dev.smbRead, h]

theorem Dev.smbReqcode_keeps {e : Dev} {ack : Bool} (he : d.smbRead a 0x02 ack (leBytes 2 (nth d.smb.queue 0)) = e)
    (h : d.smbAck a = none ∨ ack = false ∨ d.smb.queue = []) : d.smbReqcode a ack = e := by
  subst he
  unfold Dev.smbReqcode
  dsimp only
  split
  · next htook =>
    obtain ⟨hack, hlast⟩ : (d.smbAck a).isSome = true ∧ ack = true := by simpa using htook
    have hempty : d.smb.queue = [] := by
      rcases h with h | h | h
      · simp [h] at hack
      · simp [h] at hlast
      · exact h
    simp only [hempty]
  · rfl

theorem Dev.smbReqcode_pops {e : Dev} {ack : Bool} {h : Nat} {t : List Nat}
    (he : d.smbRead a 0x02 ack (leBytes 2 (nth d.smb.queue 0)) = e) (hack : (d.smbAck a).isSome = true)
    (hlast : ack = true) (hq : d.smb.queue = h :: t) : d.smbReqcode a ack = e.smbQueue t := by
  subst he
  refine (if_pos (by simp [hack, hlast])).trans ?_
  simp only [hq]

/-! ### Writes (R444 to R446) -/

theorem Dev.smbWrite_other (h : d.smbAck a = none) (code : Nat) (count : Option Byte) (l : List Byte)
    (pec : Option Byte) : d.smbWrite a code count l pec = d := by
  simp only [Dev.smbWrite, h]

theorem Dev.smbWrite_badBlock {k : Nat} {n : Byte} {l : List Byte} (h : d.smbAck a = some k)
    (hn : 32 < n.toNat ∨ n.toNat ≠ l.length) (code : Nat) (pec : Option Byte) :
    d.smbWrite a code (some n) l pec = (d.smbLast k code false).flag Reg.SMB_STAT 2 := by
  simp only [Dev.smbWrite, h]
  exact if_pos (decide_eq_true hn)

theorem Dev.smbWrite_block {k : Nat} {n : Byte} {l : List Byte} (h : d.smbAck a = some k) (hmax : n.toNat ≤ 32)
    (hlen : n.toNat = l.length) (code : Nat) (pec : Option Byte) : d.smbWrite a code (some n) l pec =
      if (d.smbLast k code false).smbPecOk (leBytes 1 (2 * a) ++ leBytes 1 code ++ [n] ++ l) pec = false then
        (d.smbLast k code false).smbPecErr
      else (d.smbLast k code false).smbStore code l := by
  simp only [Dev.smbWrite, h]
  exact if_neg (by simpa using ⟨hmax, hlen⟩)

theorem Dev.smbWrite_badWord {k : Nat} {l : List Byte} (h : d.smbAck a = some k) (hlen : l.length ≠ 2) (code : Nat)
    (pec : Option Byte) : d.smbWrite a code none l pec = (d.smbLast k code false).flag Reg.SMB_STAT 2 := by
  simp only [Dev.smbWrite, h]
  exact if_pos (decide_eq_true hlen)

theorem Dev.smbWrite_word {k : Nat} {l : List Byte} {code : Nat} {pec : Option Byte} (h : d.smbAck a = some k)
    (hlen : l.length = 2) (hpec : (d.smbLast k code false).smbPecOk (leBytes 1 (2 * a) ++ leBytes 1 code ++ [] ++ l)
      pec = true) : d.smbWrite a code none l pec = (d.smbLast k code false).smbStore code l := by
  simp only [Dev.smbWrite, h]
  exact (if_neg (by simp [hlen])).trans (if_neg (by simpa using hpec))

theorem Dev.smbCellsel_selects {e : Dev} {l : List Byte} {pec : Option Byte} (he : d.smbWrite a 0x20 none l pec = e)
    (hack : (d.smbAck a).isSome = true) (hlen : l.length = 2)
    (hpec : d.smbPecOk (leBytes 1 (2 * a) ++ leBytes 1 0x20 ++ l) pec = true) (hm : d.manages 25 = true)
    (hf : d.pwr.full = true) : d.smbCellsel a l pec = { e with smb := { e.smb with sel := some (leNat l) } } := by
  subst he
  exact if_pos (by simp [hack, hlen, hpec, hm, hf, -List.append_assoc])

theorem Dev.smbCellsel_keeps {e : Dev} {l : List Byte} {pec : Option Byte} (he : d.smbWrite a 0x20 none l pec = e)
    (h : d.smbAck a = none ∨ l.length ≠ 2 ∨ d.smbPecOk (leBytes 1 (2 * a) ++ leBytes 1 0x20 ++ l) pec = false ∨
      d.manages 25 = false ∨ d.pwr.full = false) : d.smbCellsel a l pec = e := by
  subst he
  exact if_neg (by rcases h with h | h | h | h | h <;> simp [h, -List.append_assoc])

end

/-- A command that is a read of the target: nothing at an address that is not acknowledged, else its response. -/
theorem State.smbRead_cases {s : State} {o : Host.Outcome State Fault Refusal} {a code : Nat} {ack : Bool}
    {l : List Byte} (ho : o = .next (s.on (s.dev.smbRead a code ack l))) (k : Nat) :
    (s.dev.smbAck a = none → o = .next (s.on s.dev)) ∧
    (s.dev.smbAck a = some k → o = .next (s.on ((s.dev.smbLast k code true).send .smbus code (byteNats
      (if (s.dev.bit Reg.SMB_CFG 2 && ack) = true then
        l ++ [pec8 ((leBytes 1 (2 * a) ++ leBytes 1 code ++ leBytes 1 (2 * a + 1)) ++ l)] else l))))) :=
  ⟨fun h => State.next_on_eq ho (Dev.smbRead_other h _ _ _), fun h => State.next_on_eq ho (Dev.smbRead_answers h _ _ _)⟩

/-- Settles O54: every read is the response of its command, a write goes by its count and its PEC, and the queue, the
alert and the time-outs act as their rules say. -/
theorem smbusCommands : Obligations.SmbusCommands := by
  unfold Obligations.SmbusCommands
  refine ⟨fun s a ack k hs => State.smbRead_cases (State.lift_awake hs _ : execSmbIdent a ack s = _) k,
    fun s a ack k hs => State.smbRead_cases (State.lift_awake hs _ : execSmbStatus a ack s = _) k,
    fun s a ack k hs => State.smbRead_cases (State.lift_awake hs _ : execSmbSoc a ack s = _) k,
    fun s a ack k hs => State.smbRead_cases (State.lift_awake hs _ : execSmbVstr a ack s = _) k,
    fun s a ack k hs => State.smbRead_cases (State.lift_awake hs _ : execSmbCurr a ack s = _) k,
    fun s a ack k hs => State.smbRead_cases (State.lift_awake hs _ : execSmbSop a ack s = _) k,
    fun s a ack k hs => State.smbRead_cases (State.lift_awake hs _ : execSmbText a ack s = _) k,
    fun s a ack k hs => State.smbRead_cases (State.lift_awake hs _ : execSmbVext a ack s = _) k,
    fun s a ack k hs => State.smbRead_cases (State.lift_awake hs _ : execSmbCelldata a ack s = _) k,
    fun s a ack k hs => State.smbRead_cases (State.lift_awake hs _ : execSmbEvent a ack s = _) k,
    fun s a ack k hs => State.smbRead_cases (State.lift_awake hs _ : execSmbUread a ack s = _) k,
    ?reqcode, ?uwrite, ?cellsel,
    fun d a l pec k => ⟨fun h => Dev.smbWrite_other h _ _ _ _, fun h hlen => Dev.smbWrite_badWord h hlen _ _,
      Dev.smbWrite_word⟩, ?unknown, ?alert,
    fun s src v d hs ht => State.lift_gate hs ht _, ?release,
    fun s hs => (State.lift_awake hs _ : execSclLowTimeout s = _)⟩
  case reqcode =>
    intro s a ack h t e hs
    have hcmd := (State.lift_awake hs _ : execSmbReqcode a ack s = _)
    exact ⟨fun he hno => State.next_on_eq hcmd (Dev.smbReqcode_keeps he hno),
      fun he hack hlast hq => State.next_on_eq hcmd (Dev.smbReqcode_pops he hack hlast hq)⟩
  case uwrite =>
    intro s a count l pec k hs
    have hcmd := (State.lift_awake hs _ : execSmbUwrite a count l pec s = _)
    exact ⟨fun h => State.next_on_eq hcmd (Dev.smbWrite_other h _ _ _ _),
      fun h hn => State.next_on_eq hcmd (Dev.smbWrite_badBlock h hn _ _),
      fun h hmax hlen hpec => State.next_on_eq hcmd ((Dev.smbWrite_block h hmax hlen _ _).trans (if_pos hpec)),
      fun h hmax hlen hpec => State.next_on_eq hcmd ((Dev.smbWrite_block h hmax hlen _ _).trans
        (if_neg (by rw [hpec]; decide)))⟩
  case cellsel =>
    intro s a l pec e hs
    have hcmd := (State.lift_awake hs _ : execSmbCellsel a l pec s = _)
    exact ⟨fun he hack hlen hpec hm hf => State.next_on_eq hcmd (Dev.smbCellsel_selects he hack hlen hpec hm hf),
      fun he h => State.next_on_eq hcmd (Dev.smbCellsel_keeps he h)⟩
  case unknown =>
    intro s a code read k hs
    have hcmd := (State.lift_awake hs _ : execSmbUnknownCommand a code read s = _)
    exact ⟨fun h => State.next_on_eq hcmd (by simp only [h]), fun h => State.next_on_eq hcmd (by simp only [h])⟩
  case alert =>
    intro s won ack l hs
    have hcmd := (State.lift_awake hs _ : execAlertResponse won ack s = _)
    refine ⟨fun hlow hwon hl => ?_, fun h => State.next_on_eq hcmd (if_neg (by rcases h with h | h <;> simp [h]))⟩
    subst hl
    exact State.next_on_eq hcmd (if_pos (by simp [hlow, hwon]))
  case release =>
    intro s hs
    have hcmd := (State.lift_awake hs _ : execSdaReleaseTimeout s = _)
    exact ⟨fun h => State.next_on_eq hcmd (if_pos h), fun h => State.next_on_eq hcmd (if_neg h)⟩

end Sys2Proof.Machine
end

section
/-! SUPPORT. DMA rings and field inputs and outputs. -/

namespace Sys2Proof.Machine

section
variable {d : Dev} {r : Nat}

/-! ### Rings (R470, R471, R474) -/

theorem Dev.dmaBaseWrite_enabled (h : d.bit (Reg.DMA_CFG r) 31 = true) (v : Word) : d.dmaBaseWrite r v = d := if_pos h

theorem Dev.dmaBaseWrite_stopped (h : d.bit (Reg.DMA_CFG r) 31 = false) (v : Word) : d.dmaBaseWrite r v =
    ((d.plainWrite (Reg.DMA_BASE r) v).wr (Reg.DMA_HEAD r) 0).wr (Reg.DMA_TAIL r) 0 := if_neg (by simp [h])

theorem Dev.dmaCfgWrite_enabled (h : d.bit (Reg.DMA_CFG r) 31 = true) (v : Word) :
    d.dmaCfgWrite r v = d.setBit (Reg.DMA_CFG r) 31 (bitOf v 31) := if_pos h

/-- CFG while EN is 0: NDESC is taken, and EN starts the ring or is refused for a bad array. -/
theorem Dev.dmaCfgWrite_stopped {v : Word} {e : Dev} (h : d.bit (Reg.DMA_CFG r) 31 = false)
    (he : d.setFld (Reg.DMA_CFG r) 15 0 (fieldOf v 15 0) = e) : d.dmaCfgWrite r v =
      if bitOf v 31 = false then e
      else if e.dmaN r ≠ 0 ∧ dmaRegion ((e.rd (Reg.DMA_BASE r)).toNat / 16 * 16) (16 * e.dmaN r) = false then
        e.flag (dmaErr r) (r % 32)
      else (e.setBit (Reg.DMA_CFG r) 31 true).dmaRun r (e.dmaN r) := by
  subst he
  refine (if_neg (by simp [h])).trans ?_
  simp

theorem Dev.dmaComplete_idle (h : d.dmaReady r = false ∨ d.dmaLen r = 0) (msg : List Byte) : d.dmaComplete r msg = d :=
  if_pos (by simpa using h)

/-- A descriptor in hand completes as its ring does. -/
theorem Dev.dmaComplete_ready (hr : d.dmaReady r = true) (hl : d.dmaLen r ≠ 0) (msg : List Byte) :
    (r < 4 → d.dmaComplete r msg = d.dmaHostOut r) ∧ (r = 9 → d.dmaComplete r msg = d.dmaUsbOut r) ∧
    (9 < r → d.dmaComplete r msg = d.dmaCopy r) := by
  have hin : ¬ (!d.dmaReady r || d.dmaLen r = 0) = true := by simp [hr, hl]
  refine ⟨fun h => (if_neg hin).trans (if_pos h), ?_, fun h => ?_⟩
  · rintro rfl
    exact if_neg hin
  · exact (if_neg hin).trans ((if_neg (by omega)).trans ((if_neg (by omega)).trans
      ((if_neg (by omega)).trans (if_neg (by omega)))))

section
variable {src dst n : Nat} (hsrc : (d.dmaW r 0).toNat = src) (hdst : (d.dmaW r 2).toNat = dst) (hn : d.dmaLen r = n)
include hsrc hdst hn

theorem Dev.dmaCopy_outside (h : dmaSource src n = false ∨ dmaRegion dst n = false) :
    d.dmaCopy r = d.dmaEnd r 8 none none 0 false := by
  subst hsrc hdst hn
  exact if_pos (by simpa using h)

theorem Dev.dmaCopy_moves (hs : dmaSource src n = true) (hd : dmaRegion dst n = true) (hecc : d.eccAt src n = none) :
    d.dmaCopy r = ((d.corrected src n).copyAsc src dst n).dmaEnd r 0 none none 0 false := by
  subst hsrc hdst hn
  refine (if_neg (by simp [hs, hd])).trans ?_
  simp only [hecc]

theorem Dev.dmaCopy_stops {k : Nat} (hs : dmaSource src n = true) (hd : dmaRegion dst n = true)
    (hecc : d.eccAt src n = some k) :
    d.dmaCopy r = ((d.corrected src n).copyAsc src dst k).dmaEnd r 10 none none 0 false := by
  subst hsrc hdst hn
  refine (if_neg (by simp [hs, hd])).trans ?_
  simp only [hecc]

end

/-! ### Launch frames (R463) -/

theorem Dev.launch_ignored (h : 4 ≤ r ∨ d.dmaReady r = false ∨ bitOf (d.dmaW r 3) 31 = false ∨ d.dmaLen r = 0)
    (busy : Bool) : d.launch r busy = d := if_pos (by simpa [or_assoc] using h)

section
variable (hr : r < 4) (hready : d.dmaReady r = true) (hlaunch : bitOf (d.dmaW r 3) 31 = true) (hlen : d.dmaLen r ≠ 0)
include hr hready hlaunch hlen

theorem Dev.launch_gated (htx : d.hostTx = false) (busy : Bool) :
    d.launch r busy = d.dmaEnd r 2 none none (d.dmaW r 3).toNat false :=
  (if_neg (by simp [hready, hlaunch, hlen]; omega)).trans (if_pos (by simp [htx]))

theorem Dev.launch_bad {st : Nat} (htx : d.hostTx = true) (hbad : d.dmaBad r = some st) (busy : Bool) :
    d.launch r busy = d.dmaEnd r st none none (d.dmaW r 3).toNat false := by
  refine (if_neg (by simp [hready, hlaunch, hlen]; omega)).trans ((if_neg (by simp [htx])).trans ?_)
  simp only [hbad]

/-- A launch frame in order: it waits, leaves, or is late. -/
theorem Dev.launch_good (htx : d.hostTx = true) (hbad : d.dmaBad r = none) (busy : Bool) : d.launch r busy =
    if 0 < d.launchIn r then d
    else if d.launchIn r + d.fld Reg.ETH_LATE 23 0 < 0 then
      if busy = true then (d.flag Reg.ETH_STAT 7).hostSend r 1
      else ((d.flag Reg.ETH_STAT 7).hw 0xA023 [nw r]).dmaEnd r 1 none none (d.dmaW r 3).toNat false
    else d.hostSend r 0 := by
  refine (if_neg (by simp [hready, hlaunch, hlen]; omega)).trans ((if_neg (by simp [htx])).trans ?_)
  simp only [hbad]
  cases busy
  case true => simp
  case false =>
    by_cases hlate : d.launchIn r + d.fld Reg.ETH_LATE 23 0 < 0 <;> simp [hlate]

end

/-! ### Field inputs and outputs (R477 to R481) -/

theorem Dev.filterTick_none {n : Nat} (h : 20 ≤ n) (level : Bool) : d.filterTick n level = d := if_pos h

/-- A tick of a channel: an unfiltered one follows, a filtered one steps once its tick has passed. -/
theorem Dev.filterTick_channel {n : Nat} {level : Bool} {e : Dev} (h : n < 20)
    (he : { d with fio := { d.fio with coupled := putB d.fio.coupled n level } } = e) : d.filterTick n level =
      if e.unfiltered n = true then e.inputSet n level
      else if e.running (Tm.filt n) && !e.due (Tm.filt n) (usT (e.fld (Reg.FIO_INCFG n) 25 16)) then e
      else (e.start (Tm.filt n)).filterStep n := by
  subst he
  exact if_neg (by omega)

theorem Dev.filterStep_eq {n c : Nat} {e : Dev} (hc : (if getB d.fio.coupled n then
      min (d.fld (Reg.FIO_INCFG n) 7 0) (getN d.fio.count n + 1) else
      min (d.fld (Reg.FIO_INCFG n) 7 0) (getN d.fio.count n - 1)) = c)
    (he : { d with fio := { d.fio with count := putN d.fio.count n c } } = e) : d.filterStep n =
      if c = d.fld (Reg.FIO_INCFG n) 7 0 then e.inputSet n true else if c = 0 then e.inputSet n false else e := by
  subst hc he
  rfl

theorem Dev.outPulse_off {k : Nat} (h : d.fld Reg.FIO_TP 15 0 = 0 ∨ d.fld Reg.FIO_TP 24 16 = 0 ∨ d.outLead k ≠ k ∨
    d.outOn k = false) (fell : BitVec 2) : d.outPulse k fell = d := if_pos (by simpa [or_assoc] using h)

/-- An output under test: its pulse comes once the interval has passed. -/
theorem Dev.outPulse_tests {k : Nat} (hint : d.fld Reg.FIO_TP 15 0 ≠ 0) (hw : d.fld Reg.FIO_TP 24 16 ≠ 0)
    (hlead : d.outLead k = k) (hon : d.outOn k = true) (fell : BitVec 2) : d.outPulse k fell =
      if d.running (Tm.pulse k) && !d.due (Tm.pulse k) (msT (d.fld Reg.FIO_TP 15 0)) then d
      else if ((d.start (Tm.pulse k)).outStuck k (fell.getLsbD 0)).bit Reg.FIO_PAR (k / 2) then
        ((d.start (Tm.pulse k)).outStuck k (fell.getLsbD 0)).outStuck (k + 1) (fell.getLsbD 1)
      else (d.start (Tm.pulse k)).outStuck k (fell.getLsbD 0) :=
  if_neg (by simp [hint, hw, hlead, hon])

theorem Dev.outStuck_faults {k : Nat} {fell : Bool} (hon : d.outOn k = true) (hf : fell = false) : d.outStuck k fell =
    ((d.flag Reg.FIO_OFLT (8 + k)).flag Reg.FIO_STAT 1).hw 0xC111 [nw k] := if_pos (by simp [hon, hf])

theorem Dev.outStuck_passes {k : Nat} {fell : Bool} (h : d.outOn k = false ∨ fell = true) : d.outStuck k fell = d :=
  if_neg (by rcases h with h | h <;> simp [h])

end

/-- Settles O56: a ring's registers, its completions and its launch frames, and the field inputs and outputs, case by
case. -/
theorem dmaAndFieldCommands : Obligations.DmaAndFieldCommands := by
  unfold Obligations.DmaAndFieldCommands
  refine ⟨?tail, ?base, ?cfg, ?completion, ?complete,
    fun d r src dst n k => ⟨Dev.dmaCopy_outside, Dev.dmaCopy_moves,
      fun hsrc hdst hn hs hd hecc => Dev.dmaCopy_stops hsrc hdst hn hs hd hecc⟩, ?launchCmd,
    fun d r busy h => Dev.launch_ignored h busy, ?launch, ?filter, fun d e n c => Dev.filterStep_eq, ?overload, ?pulse,
    fun d k fell => ⟨Dev.outStuck_faults, Dev.outStuck_passes⟩, ?warm,
    fun s hs => (State.lift_awake hs _ : execKillInRelease s = _)⟩
  case tail =>
    intro s src r v d a e hs ht ha he
    have hcmd := (State.lift_gate hs ht _ : execDmaTailWrite src r v s = _)
    subst ha he
    exact hcmd
  case base =>
    intro s src r v d hs ht
    have hcmd := (State.lift_gate hs ht _ : execDmaBaseWrite src r v s = _)
    exact ⟨fun h => State.next_on_eq hcmd (Dev.dmaBaseWrite_enabled h v),
      fun h => State.next_on_eq hcmd (Dev.dmaBaseWrite_stopped h v)⟩
  case cfg =>
    intro s src r v d e hs ht
    have hcmd := (State.lift_gate hs ht _ : execDmaEnable src r v s = _)
    exact ⟨fun h => State.next_on_eq hcmd (Dev.dmaCfgWrite_enabled h v),
      fun h he hv => State.next_on_eq hcmd ((Dev.dmaCfgWrite_stopped h he).trans (if_pos hv)),
      fun h he hv hbad => State.next_on_eq hcmd ((Dev.dmaCfgWrite_stopped h he).trans
        ((if_neg (by simp [hv])).trans (if_pos hbad))),
      fun h he hv hgood => State.next_on_eq hcmd ((Dev.dmaCfgWrite_stopped h he).trans
        ((if_neg (by simp [hv])).trans (if_neg (by rcases hgood with h | h <;> simp [h]))))⟩
  case completion =>
    intro s r msg e hs he
    have hcmd := (State.lift_awake hs _ : execDmaCompletion r msg s = _)
    subst he
    exact hcmd
  case complete =>
    intro d r msg
    exact ⟨fun h => Dev.dmaComplete_idle h msg, fun hr hl => (Dev.dmaComplete_ready hr hl msg).1,
      fun hr hl => (Dev.dmaComplete_ready hr hl msg).2.1, fun hr hl => (Dev.dmaComplete_ready hr hl msg).2.2⟩
  case launchCmd =>
    intro s r busy e hs he
    have hcmd := (State.lift_awake hs _ : execLaunch r busy s = _)
    subst he
    exact hcmd
  case launch =>
    intro d r hr hready hlaunch hlen
    have hgood := fun htx hbad busy => Dev.launch_good (d := d) hr hready hlaunch hlen htx hbad busy
    refine ⟨fun busy htx => Dev.launch_gated hr hready hlaunch hlen htx busy,
      fun busy st htx hbad => Dev.launch_bad hr hready hlaunch hlen htx hbad busy,
      fun busy htx hbad hwait => (hgood htx hbad busy).trans (if_pos hwait),
      fun busy htx hbad hdue hlate => (hgood htx hbad busy).trans
        ((if_neg (by omega)).trans (if_neg (by omega))), fun htx hbad hdue hlate => ⟨?_, ?_⟩⟩
    · exact (hgood htx hbad true).trans ((if_neg (by omega)).trans (if_pos hlate))
    · exact (hgood htx hbad false).trans ((if_neg (by omega)).trans (if_pos hlate))
  case filter =>
    intro s n level e hs
    have hcmd := (State.lift_awake hs _ : execInputFilterTick n level s = _)
    exact ⟨fun h => State.next_on_eq hcmd (Dev.filterTick_none h level),
      fun h he hu => State.next_on_eq hcmd ((Dev.filterTick_channel h he).trans (if_pos hu)),
      fun h he hu hwait => State.next_on_eq hcmd ((Dev.filterTick_channel h he).trans
        ((if_neg (by simp [hu])).trans (if_pos (by simp [hwait])))),
      fun h he hu hdue => State.next_on_eq hcmd ((Dev.filterTick_channel h he).trans
        ((if_neg (by simp [hu])).trans (if_neg (by rcases hdue with h | h <;> simp [h]))))⟩
  case overload =>
    intro s k hs
    have hcmd := (State.lift_awake hs _ : execOutputOverload k s = _)
    exact ⟨fun h => State.next_on_eq hcmd (if_pos h), fun h => State.next_on_eq hcmd (if_neg (by simp [h]))⟩
  case pulse =>
    intro s k fell e hs
    have hcmd := (State.lift_awake hs _ : execOutputTestPulse k fell s = _)
    refine ⟨fun h => State.next_on_eq hcmd (Dev.outPulse_off h fell),
      fun hint hw hlead hon hrun hdue => State.next_on_eq hcmd ((Dev.outPulse_tests hint hw hlead hon fell).trans
        (if_pos (by simp [hrun, hdue]))), fun hint hw hlead hon hdue he => ?_⟩
    subst he
    exact State.next_on_eq hcmd ((Dev.outPulse_tests hint hw hlead hon fell).trans
      (if_neg (by rcases hdue with h | h <;> simp [h])))
  case warm =>
    intro s hs
    have hcmd := (State.lift_awake hs _ : execHoldWarmTimeout s = _)
    exact ⟨fun hw hdue => State.next_on_eq hcmd (if_pos (by simp [hw, hdue])),
      fun h => State.next_on_eq hcmd (if_neg (by rcases h with h | h <;> simp [h]))⟩

end Sys2Proof.Machine
end

section
/-! SUPPORT. The recorder and the non-volatile controller. -/

namespace Sys2Proof.Machine

section
variable {d : Dev}

/-! ### Posts and flushes (R488, R492 to R494) -/

theorem Dev.postBytes_refused {c : Nat} {l : List Byte} (h : 240 < l.length ∨ reservedCode c = true) (o : Nat) :
    d.postBytes o c l = d.flag Reg.REC_STAT 3 := if_pos (by simpa using h)

theorem Dev.postBytes_queued {c : Nat} {l : List Byte} (hl : l.length ≤ 240) (hc : reservedCode c = false) (o : Nat) :
    d.postBytes o c l = d.enqueue (d.stamp o c l) := if_neg (by simp [hl, hc])

/-- REC_CTL written with FLUSH 0. -/
theorem Dev.recCtl_noFlush {v : Word} (h : bitOf v 1 = false) : d.recCtl v =
    if bitOf v 0 = true then (if d.bit Reg.REC_CTL 0 = true then d else d.recEnable)
    else d.setBit Reg.REC_CTL 0 false := if_neg (by simp [h])

/-- REC_CTL written with FLUSH 1. -/
theorem Dev.recCtl_flush {v : Word} (h : bitOf v 1 = true) : d.recCtl v =
    (if bitOf v 0 = true then (if d.bit Reg.REC_CTL 0 = true then d else d.recEnable)
      else d.setBit Reg.REC_CTL 0 false).flushReq := if_pos h

theorem Dev.recCtl_withFlush (d : Dev) (v : Word) : d.recCtl (withBit v 1 true) =
    (if bitOf v 0 = true then (if d.bit Reg.REC_CTL 0 = true then d else d.recEnable)
      else d.setBit Reg.REC_CTL 0 false).flushReq := by
  have h0 : bitOf (withBit v 1 true) 0 = bitOf v 0 := by rw [bitOf_withBit v (by decide), if_neg (by decide)]
  rw [Dev.recCtl_flush (by rw [bitOf_withBit v (by decide), if_pos rfl]), h0]

theorem Dev.flushPeriod_off (h : d.fld Reg.REC_FLPER 15 0 = 0) : d.flushPeriod = d := if_pos h

theorem Dev.flushPeriod_waits (hrun : d.running Tm.flush = true)
    (hdue : d.due Tm.flush (secT (d.fld Reg.REC_FLPER 15 0)) = false) : d.flushPeriod = d := by
  unfold Dev.flushPeriod
  dsimp only
  split
  · rfl
  · exact if_pos (by simp [hrun, hdue])

theorem Dev.flushPeriod_flushes (hn : d.fld Reg.REC_FLPER 15 0 ≠ 0)
    (h : d.running Tm.flush = false ∨ d.due Tm.flush (secT (d.fld Reg.REC_FLPER 15 0)) = true) :
    d.flushPeriod = d.flushReq := (if_neg hn).trans (if_neg (by rcases h with h | h <;> simp [h]))

/-! ### Migration (R497) -/

theorem Dev.migrate_ignored (h : d.pwr.full = false ∨ d.bit Reg.HLT_STAT 2 = true ∨ d.nvc.closedTherm = true ∨
    d.nvc.closedBank = true ∨ d.bit Reg.NVC_CTL 0 = false ∨ d.migrNext = none) (ok : Bool) : d.migrate ok = d := by
  unfold Dev.migrate
  split
  · rfl
  · next hopen =>
    have hnone : d.migrNext = none := by
      rcases h with h | h | h | h | h | h
      case inr.inr.inr.inr.inr => exact h
      all_goals simp [h] at hopen
    simp only [hnone]

section
variable {i : Nat} {a e : Dev} (hfull : d.pwr.full = true) (hsafe : d.bit Reg.HLT_STAT 2 = false)
  (htherm : d.nvc.closedTherm = false) (hbank : d.nvc.closedBank = false) (hen : d.bit Reg.NVC_CTL 0 = true)
  (hi : d.migrNext = some i)
  (ha : (if d.recd.cellarBlock = 0 then d.norErased (norSector d.cellarAt) else d) = a)
  (he : (if a.norBad d.cellarAt = true then a else a.nvBytes d.cellarAt (a.bytes (journalBlock i) 4096)) = e)
include hfull hsafe htherm hbank hen hi ha he

/-- One block is copied: it counts when it reads back equal, and is tried once more when it does not. -/
theorem Dev.migrate_copies (ok : Bool) : d.migrate ok =
    if ok && decide (e.bytes d.cellarAt 4096 = a.bytes (journalBlock i) 4096) then
      let f := e.mramWrite (journalBlock i + 12) (leBytes 4 (withBit (e.word (journalBlock i + 12)) 31 true).toNat)
      if d.recd.cellarBlock = 63 then f.cellarSet (d.recd.cellarSector + 1) 0 false
      else f.cellarSet d.recd.cellarSector (d.recd.cellarBlock + 1) false
    else if e.recd.retried then (e.fw 0xC204 [nw d.recd.cellarSector]).cellarSet (d.recd.cellarSector + 1) 0 false
    else e.cellarSet d.recd.cellarSector d.recd.cellarBlock true := by
  subst ha he
  refine (if_neg (by simp [hfull, hsafe, htherm, hbank, hen])).trans ?_
  simp only [hi]

end

/-! ### Records over UDP (R500) -/

theorem Dev.recReq_ignored {h : PlantHead} {l : List Byte} (hno : d.plantTo h 0x40 10 l = false ∨ plantOnCan h = true) :
    d.recReq h l = d := if_pos (by simpa using hno)

theorem Dev.recReq_higher {h : PlantHead} {l : List Byte} (hto : d.plantTo h 0x40 10 l = true)
    (hcan : plantOnCan h = false) (hepoch : (d.rd Reg.TW_EPOCH).toNat < plantEpoch l) :
    d.recReq h l = d.plantHigh (plantEpoch l) := (if_neg (by simp [hto, hcan])).trans (if_pos hepoch)

theorem Dev.recReq_answers {h : PlantHead} {l : List Byte} {r : List (Nat × List Byte)}
    (hto : d.plantTo h 0x40 10 l = true) (hcan : plantOnCan h = false)
    (hepoch : plantEpoch l ≤ (d.rd Reg.TW_EPOCH).toNat)
    (hr : d.recRange (leNat (slice l 4 4)) (leNat (slice l 8 2)) 1400 = r) :
    d.recReq h l = d.plantUdp 0x41 (leBytes 2 r.length ++ [0, 0] ++ r.flatMap (fun r => r.2)) := by
  subst hr
  exact (if_neg (by simp [hto, hcan])).trans (if_neg (by omega))

end

/-- Settles O59: the recorder's posts, flushes and migration, the records over UDP, and the controller's queue, case by
case. -/
theorem recorderCommands : Obligations.RecorderCommands := by
  unfold Obligations.RecorderCommands
  refine ⟨fun s fw code payload hs => (State.lift_awake hs _ : execRecordPost fw code payload s = _),
    fun d o c l => ⟨fun h => Dev.postBytes_refused h o, fun hl hc => Dev.postBytes_queued hl hc o⟩, ?recPost, ?larder,
    ?enable, ?flush, fun s hs => (State.lift_awake hs _ : execFlushComplete s = _), ?periodic, ?migration, ?recreq,
    fun s src tag d hs ht => ⟨State.lift_gate hs ht _, State.lift_gate hs ht _, State.lift_gate hs ht _⟩,
    fun s ok hs => (State.lift_awake hs _ : execNvcUnitComplete ok s = _),
    fun s hs => (State.lift_awake hs _ : execNvcDoneRead s = _),
    fun s hs => (State.lift_awake hs _ : execNorEraseComplete s = _)⟩
  case recPost =>
    intro s src v d hs ht
    have hcmd := (State.lift_gate hs ht _ : execRecPost src v s = _)
    exact ⟨fun h => State.next_on_eq hcmd (if_pos h), fun h => State.next_on_eq hcmd (if_neg (by omega))⟩
  case larder =>
    intro s hs
    have hcmd := (State.lift_awake hs _ : execQueueToLarder s = _)
    exact ⟨fun h => State.next_on_eq hcmd (if_pos (by simp [h])), fun h => State.next_on_eq hcmd (if_neg (by simp [h]))⟩
  case enable =>
    intro s src d hs ht
    have hcmd := (State.lift_gate hs ht _ : execRecorderEnable src s = _)
    have hctl := (Dev.recCtl_noFlush (d := d) (v := 1) (by decide)).trans (if_pos (by decide))
    exact ⟨fun h => State.next_on_eq hcmd (hctl.trans (if_pos h)),
      fun h => State.next_on_eq hcmd (hctl.trans (if_neg (by simp [h])))⟩
  case flush =>
    intro s src v d hs ht
    have hcmd := State.next_on_eq (State.lift_gate hs ht _ : execFlush src v s = _) (d.recCtl_withFlush v)
    exact ⟨fun hv hen => State.next_on_eq hcmd (by rw [if_pos hv, if_pos hen]),
      fun hv hen => State.next_on_eq hcmd (by rw [if_pos hv, if_neg (by simp [hen])]),
      fun hv => State.next_on_eq hcmd (by rw [if_neg (by simp [hv])])⟩
  case periodic =>
    intro s hs
    have hcmd := (State.lift_awake hs _ : execPeriodicFlush s = _)
    exact ⟨fun h => State.next_on_eq hcmd (Dev.flushPeriod_off h),
      fun hrun hdue => State.next_on_eq hcmd (Dev.flushPeriod_waits hrun hdue),
      fun hn h => State.next_on_eq hcmd (Dev.flushPeriod_flushes hn h)⟩
  case migration =>
    intro s ok i d e f hs
    have hcmd := (State.lift_awake hs _ : execMigration ok s = _)
    refine ⟨fun h => State.next_on_eq hcmd (Dev.migrate_ignored h ok), fun hf hsf ht hb hen hi hd he hok heq hw => ?_,
      fun hf hsf ht hb hen hi hd he hok => ?_⟩
    · subst hw
      exact State.next_on_eq hcmd ((Dev.migrate_copies hf hsf ht hb hen hi hd he ok).trans
        (if_pos (by simp [hok, heq])))
    · exact State.next_on_eq hcmd ((Dev.migrate_copies hf hsf ht hb hen hi hd he ok).trans
        (if_neg (by simp [hok])))
  case recreq =>
    intro s h l r hs
    have hcmd := (State.lift_awake hs _ : execRecreq h l s = _)
    exact ⟨fun hto => State.next_on_eq hcmd (Dev.recReq_ignored (.inl hto)),
      fun hcan => State.next_on_eq hcmd (Dev.recReq_ignored (.inr hcan)),
      fun hto hcan he => State.next_on_eq hcmd (Dev.recReq_higher hto hcan he),
      fun hto hcan he hr => State.next_on_eq hcmd (Dev.recReq_answers hto hcan he hr)⟩

end Sys2Proof.Machine
end

section
/-! SUPPORT. The service port. -/

namespace Sys2Proof.Machine

/-! ### A request and its one response (R504, R507, R516) -/

section
variable {d : Dev} {cmd level : Nat} {rom : Bool} {f : Dev → Nat × List Byte × Dev}

theorem Dev.serve_state (hrec : d.sessionTouch.recovering = true) (hrom : rom = false) (tag : BitVec 16) :
    d.serve cmd tag level rom f = d.sessionTouch.respond cmd tag.toNat 16 [] := if_pos (by simp [hrec, hrom])

theorem Dev.serve_belowLevel (hrec : d.sessionTouch.recovering = false) (hl : d.sessionTouch.svcLevel < level)
    (tag : BitVec 16) : d.serve cmd tag level rom f = d.sessionTouch.respond cmd tag.toNat 3 [] :=
  (if_neg (by simp [hrec])).trans (if_pos (by simp [hrec, hl]))

theorem Dev.serve_serves {st : Nat} {l : List Byte} {e : Dev}
    (h : d.sessionTouch.recovering = true ∧ rom = true ∨ d.sessionTouch.recovering = false ∧
      level ≤ d.sessionTouch.svcLevel) (tag : BitVec 16) (hf : f d.sessionTouch = (st, l, e)) :
    d.serve cmd tag level rom f = e.respond cmd tag.toNat st l := by
  refine (if_neg (by rcases h with h | h <;> simp [h])).trans ((if_neg ?_).trans (by rw [hf]))
  rcases h with ⟨hrec, -⟩ | ⟨-, hl⟩
  · simp [hrec]
  · simp [Nat.not_lt.mpr hl]

/-- A request that recovery serves too, and that every level may make. -/
theorem Dev.serve_always (d : Dev) (cmd : Nat) (tag : BitVec 16) {st : Nat} {l : List Byte} {e : Dev}
    (hf : f d.sessionTouch = (st, l, e)) : d.serve cmd tag 0 true f = e.respond cmd tag.toNat st l :=
  Dev.serve_serves (by cases d.sessionTouch.recovering <;> simp) tag hf

end

section
variable {s : State} {o : Host.Outcome State Fault Refusal} {cmd level st : Nat} {tag : BitVec 16} {rom : Bool}
  {l : List Byte} {e : Dev} {f : Dev → Nat × List Byte × Dev}

/-- A request at MONITOR that recovery does not serve. -/
theorem State.monitor_cases (ho : o = .next (s.on (s.dev.serve cmd tag 0 false f)))
    (hf : f s.dev.sessionTouch = (st, l, e)) :
    (s.dev.sessionTouch.recovering = true → o = .next (s.on (s.dev.sessionTouch.respond cmd tag.toNat 16 []))) ∧
    (s.dev.sessionTouch.recovering = false → o = .next (s.on (e.respond cmd tag.toNat st l))) :=
  ⟨fun h => State.next_on_eq ho (Dev.serve_state h rfl tag),
    fun h => State.next_on_eq ho (Dev.serve_serves (.inr ⟨h, Nat.zero_le _⟩) tag hf)⟩

/-- A request at a level that recovery does not serve. -/
theorem State.level_cases (ho : o = .next (s.on (s.dev.serve cmd tag level false f)))
    (hf : f s.dev.sessionTouch = (st, l, e)) :
    (s.dev.sessionTouch.recovering = true → o = .next (s.on (s.dev.sessionTouch.respond cmd tag.toNat 16 []))) ∧
    (s.dev.sessionTouch.recovering = false → s.dev.sessionTouch.svcLevel < level →
      o = .next (s.on (s.dev.sessionTouch.respond cmd tag.toNat 3 []))) ∧
    (s.dev.sessionTouch.recovering = false → level ≤ s.dev.sessionTouch.svcLevel →
      o = .next (s.on (e.respond cmd tag.toNat st l))) :=
  ⟨fun h => State.next_on_eq ho (Dev.serve_state h rfl tag),
    fun h hl => State.next_on_eq ho (Dev.serve_belowLevel h hl tag),
    fun h hl => State.next_on_eq ho (Dev.serve_serves (.inr ⟨h, hl⟩) tag hf)⟩

/-- A request at a level that recovery serves for firmware alone. -/
theorem State.firmware_cases {p : Prop} [Decidable p]
    (ho : o = .next (s.on (s.dev.serve cmd tag level (decide p) f))) (hf : f s.dev.sessionTouch = (st, l, e)) :
    (s.dev.sessionTouch.recovering = true → ¬ p → o = .next (s.on (s.dev.sessionTouch.respond cmd tag.toNat 16 []))) ∧
    (s.dev.sessionTouch.recovering = false → s.dev.sessionTouch.svcLevel < level →
      o = .next (s.on (s.dev.sessionTouch.respond cmd tag.toNat 3 []))) ∧
    (s.dev.sessionTouch.recovering = true ∧ p ∨ s.dev.sessionTouch.recovering = false ∧
      level ≤ s.dev.sessionTouch.svcLevel → o = .next (s.on (e.respond cmd tag.toNat st l))) :=
  ⟨fun h hp => State.next_on_eq ho (Dev.serve_state h (decide_eq_false hp) tag),
    fun h hl => State.next_on_eq ho (Dev.serve_belowLevel h hl tag),
    fun h => State.next_on_eq ho (Dev.serve_serves (by simpa using h) tag hf)⟩

/-- A request at a level that recovery serves too. -/
theorem State.recovery_cases (ho : o = .next (s.on (s.dev.serve cmd tag level true f)))
    (hf : f s.dev.sessionTouch = (st, l, e)) :
    (s.dev.sessionTouch.recovering = false → s.dev.sessionTouch.svcLevel < level →
      o = .next (s.on (s.dev.sessionTouch.respond cmd tag.toNat 3 []))) ∧
    (s.dev.sessionTouch.recovering = true ∨ level ≤ s.dev.sessionTouch.svcLevel →
      o = .next (s.on (e.respond cmd tag.toNat st l))) := by
  refine ⟨fun h hl => State.next_on_eq ho (Dev.serve_belowLevel h hl tag),
    fun h => State.next_on_eq ho (Dev.serve_serves ?_ tag hf)⟩
  cases hrec : s.dev.sessionTouch.recovering
  · exact .inr ⟨rfl, by simpa [hrec] using h⟩
  · exact .inl ⟨rfl, rfl⟩

end

section
variable {d : Dev}

/-! ### Authority, writes and keys (R505, R508, R509) -/

theorem Dev.svcOpen_refuses {level : Nat} (h : 3 < level) : d.svcOpen level = (4, [], d) := if_pos h

theorem Dev.svcOpen_nonce {e : Dev} {level k : Nat} {n : List Byte} (h : level ≤ 3) (he : d.nextFree = (k, e))
    (hn : (List.range 16).map (fun i => Config.nonce k i) = n) :
    d.svcOpen level = (0, n, { e with svc := { e.svc with nonce := some (level, n) } }) := by
  subst hn
  refine (if_neg (by omega)).trans ?_
  rw [he]

theorem Dev.svcAuth_noNonce (h : d.svc.nonce = none) (k : Nat) (xy rs : List Byte) : d.svcAuth k xy rs =
    (3, [], ({ d with svc := { d.svc with nonce := none } } : Dev).fw 0xB002 []) := by
  simp only [Dev.svcAuth, h]

theorem Dev.svcAuth_grants {e : Dev} {level k : Nat} {n xy rs : List Byte} (h : d.svc.nonce = some (level, n))
    (he : { d with svc := { d.svc with nonce := none } } = e) (hkey : e.keyOk k xy = true)
    (hsig : sigOk xy rs (n ++ e.serialBytes ++ leBytes 4 level) = true) : d.svcAuth k xy rs =
      (0, leBytes 4 level, (e.setFld Reg.SVC_STAT 5 4 level).fw 0xB001 [nw level]) := by
  subst he
  simp only [Dev.svcAuth, h]
  exact if_pos (by simp only [hkey, hsig, Bool.and_self])

/-- The level that WRITEREG needs for some words. -/
def writeLevel (a : Nat) (l : List Word) : Nat := if (writeAddrs a l).any (fun e => !claimable e.1) = true then 3 else 2

theorem Dev.writeReg_address {a : Nat} {l : List Word}
    (h : (writeAddrs a l).any (fun e => !regAddr e.1 || neverWritten e.1) = true) : d.writeReg a l = (4, [], d) :=
  if_pos h

theorem Dev.writeReg_addressed {a : Nat} {l : List Word}
    (h : (writeAddrs a l).any (fun e => !regAddr e.1 || neverWritten e.1) = false) : d.writeReg a l =
      if d.svcLevel < writeLevel a l then (3, [], d)
      else if (writeAddrs a l).any (fun e => claimable e.1 && !d.claimEn (blockOf e.1)) = true then (5, [], d)
      else (0, [], (writeAddrs a l).foldl (fun (d : Dev) e =>
        d.periphWrite (if claimable e.1 = true then .session else .system) e.1 e.2) d) :=
  if_neg (by simp [h])

theorem Dev.progKey_bad {k : Nat} {hash : List Byte} (h : 2 < k ∨ hash.length ≠ 32) : d.progKey k hash = (4, d) :=
  if_pos (by simpa using h)

theorem Dev.progKey_good {k : Nat} {hash : List Byte} (hk : k ≤ 2) (hlen : hash.length = 32) : d.progKey k hash =
    if d.bit Reg.SVC_KEYSTAT k = true then (16, d)
    else (0, (({ d with svc := { d.svc with keys := (k, hash) :: d.svc.keys } } : Dev).setBit Reg.SVC_KEYSTAT k
      true).fw 0xB040 [nw k]) := if_neg (by simp [hk, hlen])

theorem Dev.sessionIdle_ends (hn : d.fld Reg.SVC_IDLETO 15 0 ≠ 0)
    (hdue : d.due Tm.session (secT (d.fld Reg.SVC_IDLETO 15 0)) = true) : d.sessionIdle = d.sessionEnd :=
  if_pos (by simp [hn, hdue])

theorem Dev.sessionIdle_waits (h : d.fld Reg.SVC_IDLETO 15 0 = 0 ∨
    d.due Tm.session (secT (d.fld Reg.SVC_IDLETO 15 0)) = false) : d.sessionIdle = d :=
  if_neg (by rcases h with h | h <;> simp [h])

end

/-- Settles O60: every request is served at its level with its one response, and the session's own rules hold. -/
theorem serviceCommands : Obligations.ServiceCommands := by
  unfold Obligations.ServiceCommands
  refine ⟨fun s tag hs => State.next_on_eq (State.lift_awake hs _ : execIdent tag s = _) (Dev.serve_always _ _ tag rfl),
    fun s tag level hs => State.monitor_cases (State.lift_awake hs _ : execSvcOpen tag level s = _) rfl,
    fun s tag k xy rs hs => State.monitor_cases (State.lift_awake hs _ : execAuth tag k xy rs s = _) rfl,
    fun s tag hs => State.next_on_eq (State.lift_awake hs _ : execSvcClose tag s = _) (Dev.serve_always _ _ tag rfl),
    fun s tag a n hs => State.next_on_eq (State.lift_awake hs _ : execReadreg tag a n s = _)
      (Dev.serve_always _ _ tag rfl),
    fun s tag a words hs => State.monitor_cases (State.lift_awake hs _ : execWritereg tag a words s = _) rfl,
    fun s tag a n hs => State.monitor_cases (State.lift_awake hs _ : execReadmem tag a n s = _) rfl,
    fun s tag n hs => State.monitor_cases (State.lift_awake hs _ : execParamread tag n s = _) rfl,
    fun s tag n b hs => State.level_cases (State.lift_awake hs _ : execParamwrite tag n b s = _) rfl,
    fun s tag first count hs => State.next_on_eq (State.lift_awake hs _ : execRecread tag first count s = _)
      (Dev.serve_always _ _ tag rfl),
    fun s tag n w0 w1 w2 w3 hs => State.level_cases (State.lift_awake hs _ : execForce tag n w0 w1 w2 w3 s = _) rfl,
    fun s tag hs => State.level_cases (State.lift_awake hs _ : execProgctlStart tag s = _) rfl,
    fun s tag hs => State.level_cases (State.lift_awake hs _ : execProgctlStop tag s = _) rfl,
    fun s tag mask hs => State.level_cases (State.lift_awake hs _ : execCleartrip tag mask s = _) rfl,
    fun s tag hs => State.level_cases (State.lift_awake hs _ : execTransport tag s = _) rfl,
    fun s tag hs => State.level_cases (State.lift_awake hs _ : execClrtransport tag s = _) rfl,
    fun s tag header hs => State.firmware_cases (State.lift_awake hs _ : execStageopen tag header s = _) rfl,
    fun s tag kind fc hs => State.firmware_cases (State.lift_awake hs _ : execActivate tag kind fc s = _) rfl,
    fun s tag ready hs => State.level_cases (State.lift_awake hs _ : execOnlinechg tag ready s = _) rfl,
    fun s tag ctl v hs => State.level_cases (State.lift_awake hs _ : execTwincfg tag ctl v s = _) rfl,
    fun s tag k hash hs => State.level_cases (State.lift_awake hs _ : execProgkey tag k hash s = _) rfl,
    fun s tag k j xy rs hs => State.level_cases (State.lift_awake hs _ : execRevoke tag k j xy rs s = _) rfl,
    fun s tag hs => State.recovery_cases (State.lift_awake hs _ : execResetWarm tag s = _) rfl,
    fun s tag on hs => State.level_cases (State.lift_awake hs _ : execDebug tag on s = _) rfl,
    fun s tag block hs => State.recovery_cases (State.lift_awake hs _ : execStageblock tag block s = _) rfl,
    fun s tag trailer hs => State.recovery_cases (State.lift_awake hs _ : execStageend tag trailer s = _) rfl,
    ?recovery, fun s cmd tag busy hs => (State.lift_awake hs _ : execNypehaReject cmd tag busy s = _), ?unknown,
    fun s hs => (State.lift_awake hs _ : execUsbDetach s = _), ?idle, ?confirm, ?authority, ?writes⟩
  case recovery =>
    intro s tag hs
    have hcmd := (State.lift_awake hs _ : execResetRecovery tag s = _)
    exact ⟨fun hrom => State.next_on_eq hcmd (if_pos hrom),
      fun hrom hrec hl => State.next_on_eq hcmd ((if_neg (by simp [hrom])).trans
        (Dev.serve_serves (.inr ⟨hrec, hl⟩) tag rfl)),
      fun hrom hrec hl => State.next_on_eq hcmd ((if_neg (by simp [hrom])).trans (Dev.serve_belowLevel hrec hl tag))⟩
  case unknown =>
    intro s cmd tag hs
    have hcmd := (State.lift_awake hs _ : execNypehaUnknownCommand cmd tag s = _)
    exact ⟨fun h => State.next_on_eq hcmd (if_pos h), fun h => State.next_on_eq hcmd (if_neg (by simp [h]))⟩
  case idle =>
    intro s hs
    have hcmd := (State.lift_awake hs _ : execSessionIdleTimeout s = _)
    exact ⟨fun hn hdue => State.next_on_eq hcmd (Dev.sessionIdle_ends hn hdue),
      fun h => State.next_on_eq hcmd (Dev.sessionIdle_waits h)⟩
  case confirm =>
    intro s src v d hs ht
    have hcmd := (State.lift_gate hs ht _ : execTrialConfirm src v s = _)
    exact ⟨fun h => State.next_on_eq hcmd (if_pos h), fun h => State.next_on_eq hcmd (if_neg (by simp [h]))⟩
  case authority =>
    intro d e k n xy rs level
    exact ⟨Dev.svcOpen_refuses, Dev.svcOpen_nonce, fun h => Dev.svcAuth_noNonce h k xy rs, Dev.svcAuth_grants⟩
  case writes =>
    intro d a l k hash
    exact ⟨Dev.writeReg_address, fun h hl => (Dev.writeReg_addressed h).trans (if_pos hl),
      fun h hl hc => (Dev.writeReg_addressed h).trans ((if_neg (Nat.not_lt.mpr hl)).trans (if_pos hc)),
      fun h hl hc => (Dev.writeReg_addressed h).trans ((if_neg (Nat.not_lt.mpr hl)).trans (if_neg (by simp [hc]))),
      Dev.progKey_bad, fun hk hlen hp => (Dev.progKey_good hk hlen).trans (if_pos hp),
      fun hk hlen hp => (Dev.progKey_good hk hlen).trans (if_neg (by simp [hp]))⟩

end Sys2Proof.Machine
end

section
/-! SUPPORT. Power, resets, bring-up, full service, in-service tests, register writes by address and the front LEDs. -/

namespace Sys2Proof.Machine

section
variable {d : Dev}

/-! ### Feeds, Hold-up and the bank (R520 to R524) -/

theorem Dev.feedLost_alreadyLost {e : Dev} {fb : Bool} {mv : Nat}
    (he : ((d.feedShow fb mv).setBit Reg.PWR_STAT (feedBit fb) false).stop (Tm.feed fb) = e)
    (h : d.bit Reg.PWR_STAT (feedBit fb) = false ∨ e.asleep = true) : d.feedLost fb mv = e := by
  subst he
  exact if_pos (by simpa using h)

/-- A good feed is lost: FLOST and entry 0xC001, and Hold-up with the last one. -/
theorem Dev.feedLost_loses {e f : Dev} {fb : Bool} {mv : Nat}
    (he : ((d.feedShow fb mv).setBit Reg.PWR_STAT (feedBit fb) false).stop (Tm.feed fb) = e)
    (hwas : d.bit Reg.PWR_STAT (feedBit fb) = true) (hawake : e.asleep = false)
    (hf : (e.flag Reg.PWR_STAT 0).hw 0xC001 [nw (b2n fb)] = f) :
    d.feedLost fb mv = if f.feedsGood || !f.holdFromHere then f else f.holdEntry := by
  subst he hf
  exact if_neg (by simp [hwas, hawake])

theorem Dev.feedGood_alreadyGood {e : Dev} {fb : Bool} {mv : Nat}
    (he : (d.feedShow fb mv).setBit Reg.PWR_STAT (feedBit fb) true = e)
    (hwas : d.bit Reg.PWR_STAT (feedBit fb) = true) : d.feedGood fb mv = e := by
  subst he
  exact if_pos hwas

/-- A feed becomes good: its time starts, and a module that is awake makes entry 0xC002. -/
theorem Dev.feedGood_returns {e f : Dev} {fb : Bool} {mv : Nat}
    (he : (d.feedShow fb mv).setBit Reg.PWR_STAT (feedBit fb) true = e)
    (hwas : d.bit Reg.PWR_STAT (feedBit fb) = false) (hf : e.start (Tm.feed fb) = f) :
    d.feedGood fb mv = if f.asleep = true then f
      else if (f.hw 0xC002 [nw (b2n fb)]).fld Reg.PWR_HUCFG 15 0 = 0 then (f.hw 0xC002 [nw (b2n fb)]).holdReturn
      else f.hw 0xC002 [nw (b2n fb)] := by
  subst he hf
  exact if_neg (by simp [hwas])

theorem Dev.flushMode_entered (h : d.bit Reg.PWR_STAT 6 = true) : d.flushMode = d := if_pos h

theorem Dev.flushMode_begins (h : d.bit Reg.PWR_STAT 6 = false) : d.flushMode =
    ((d.setBit Reg.PWR_STAT 6 true).hw 0xC011 []).programShed.convertOff.fansWatch := if_neg (by simp [h])

theorem Dev.holdReturn_leaves (hst : d.pwrState = 4)
    (h : d.bit Reg.PWR_STAT 3 = true ∧ d.due (Tm.feed false) (msT (d.fld Reg.PWR_HUCFG 15 0)) = true ∨
      d.bit Reg.PWR_STAT 4 = true ∧ d.due (Tm.feed true) (msT (d.fld Reg.PWR_HUCFG 15 0)) = true) :
    d.holdReturn = d.holdLeave :=
  if_pos (by simpa [hst, feedBit] using h)

theorem Dev.holdReturn_otherState (hst : d.pwrState ≠ 4) : d.holdReturn = d := if_neg (by simp [hst])

theorem Dev.bankClose_ignored (h : d.pwrState ≠ 4 ∨ d.bit Reg.PWR_STAT 2 = true) : d.bankClose = d :=
  if_pos (by simpa using h)

theorem Dev.bankClose_closes (hst : d.pwrState = 4) (h : d.bit Reg.PWR_STAT 2 = false) : d.bankClose =
    (((d.wr Reg.PWR_BANK 11000).setBit Reg.PWR_STAT 2 true).nvcClose true).openReq := if_neg (by simp [hst, h])

/-- The module as the bank's exhaustion leaves it, once the mark has been asked for. -/
def Dev.exhausted (e : Dev) : Dev :=
  let f := ((e.unitsOut (e.nvc.urgent.length + 1)).wr Reg.PWR_BANK 10000).setBit Reg.PWR_STAT 5 false
  ({ f with pwr := { f.pwr with resetWait := none } } : Dev).standby 0

theorem Dev.bankOut_otherState (h : d.pwrState ≠ 4) : d.bankOut = d := if_pos (by simpa using h)

theorem Dev.bankOut_goesOff {e : Dev} (h : d.pwrState = 4)
    (he : (if d.nvc.closedBank = true then d else d.bankClose).nvcUrgent .mark [] = e) : d.bankOut = e.exhausted := by
  subst he
  exact if_neg (by simp [h])

/-! ### Standby and its end (R484, R527) -/

theorem Dev.idleEnd_done (h : d.stoDone = true) : d.idleEnd = ((d.setTr 0).ringSleep.fw 0xC040 []).standby 5 := if_pos h

theorem Dev.idleEnd_waits (h : d.stoDone = false) : d.idleEnd = d := if_neg (by simp [h])

theorem Dev.idleEntry_otherState (h2 : d.pwrState ≠ 2) (h3 : d.pwrState ≠ 3) : d.idleEntry = d :=
  if_pos (by simp [h2, h3])

/-- In Run or Throttled the entry goes on after its Storeroom write, or begins once its conditions have held. -/
theorem Dev.idleEntry_runs (h : d.pwrState = 2 ∨ d.pwrState = 3) : d.idleEntry =
    if d.est.trPhase = 3 then d.idleEnd
    else if d.fld Reg.PWR_IDLETO 15 0 != 0 && d.idleOk && d.est.trPhase = 0 &&
      d.due Tm.idle (secT (60 * d.fld Reg.PWR_IDLETO 15 0)) then (((d.setTr 3).stoAsk 6).stoService).idleEnd
    else d := if_neg (by rcases h with h | h <;> simp [h])

section
variable {source a : Nat} {e : Dev} (he : (if source = 2 then d.setBit Reg.SVC_STAT 0 true else d) = e)
include he

theorem Dev.wakeBy_idle (hok : source ≠ 1 ∨ d.wakeMatch a = true) (hst : e.pwrState = 5) (hs : source < 3)
    (hen : e.bit Reg.PWR_WAKE source = true) : d.wakeBy source a = e.resetTo 5 := by
  subst he
  exact if_pos (by simpa [hst, hs, hen] using hok)

theorem Dev.wakeBy_transport (hok : source ≠ 1 ∨ d.wakeMatch a = true) (hst : e.pwrState = 6)
    (hsrc : source = 0 ∨ source = 1 ∧ e.bit Reg.SMB_CFG 4 = true) : d.wakeBy source a = e.resetTo 5 := by
  subst he
  refine (if_neg (by simp [hst])).trans (if_pos ?_)
  rcases hsrc with rfl | ⟨rfl, hen⟩
  · simp [show d.pwrState = 6 from hst]
  · have hmatch : d.wakeMatch a = true := by simpa using hok
    simp only [show ¬ (1 : Nat) = 2 by decide, if_false] at hst hen
    simp [hst, hen, hmatch]

theorem Dev.wakeBy_otherState (h5 : e.pwrState ≠ 5) (h6 : e.pwrState ≠ 6) : d.wakeBy source a = e := by
  subst he
  exact (if_neg (by simp [h5])).trans (if_neg (by simp [h6]))

end

/-! ### The causes of resets (R528, R529, R536, R400, R410) -/

theorem Dev.powerOn_ignored (h : d.pwrState ≠ 0 ∨ d.pwr.cutMark = true ∨ d.feedsGood = false) : d.powerOn = d :=
  if_pos (by simpa [or_assoc] using h)

theorem Dev.powerOn_resets (hst : d.pwrState = 0) (hcut : d.pwr.cutMark = false) (hf : d.feedsGood = true) :
    d.powerOn = if d.pwr.exhMark = true then d.countsBack.resetTo 3 else d.countsBack.resetTo 1 :=
  if_neg (by simp [hst, hcut, hf])

theorem Dev.pwrCtl_reset {v : Word} (h : bitOf v 0 = true) : d.pwrCtl v = d.resetAsk 9 := if_pos h

theorem Dev.pwrCtl_standby {v : Word} (h0 : bitOf v 0 = false) (h4 : bitOf v 4 = true) : d.pwrCtl v = d.standby 5 :=
  (if_neg (by simp [h0])).trans (if_pos h4)

theorem Dev.wdtWrite_restarts {e : Dev} {v : Word} (he : d.plainWrite Reg.PWR_WDT v = e)
    (h : fieldOf v 31 24 = 0xA5 ∨ d.fld Reg.PWR_WDT 15 0 = 0 ∧ e.fld Reg.PWR_WDT 15 0 ≠ 0) :
    d.wdtWrite v = e.start Tm.wdt := by
  subst he
  exact if_pos (by simpa using h)

theorem Dev.wdtWrite_stores {e : Dev} {v : Word} (he : d.plainWrite Reg.PWR_WDT v = e) (hkick : fieldOf v 31 24 ≠ 0xA5)
    (hto : d.fld Reg.PWR_WDT 15 0 ≠ 0) : d.wdtWrite v = e := by
  subst he
  exact if_neg (by simp [hkick, hto])

theorem Dev.thermalCut_off (h : d.pwrState = 0) : d.thermalCut = d := if_pos h

theorem Dev.thermalCut_cuts {e : Dev} (h : d.pwrState ≠ 0) (he : d.nvcReset true = e) : d.thermalCut =
    ({ e with nvc := NvcSt.reset, pwr := { e.pwr with cutMark := true, resetWait := none } } : Dev).standby 0 := by
  subst he
  exact if_neg h

theorem Dev.resyncReset_otherRole (h : d.role ≠ 2) : d.resyncReset = d := if_pos (by simpa using h)

/-- A shade: a drop resets it, and so does the pair's image in its Attic when that passes its check. -/
theorem Dev.resyncReset_shade (h : d.role = 2) : d.resyncReset =
    if d.running Tm.drop = true then d.resetAsk 11
    else if d.tw.newImg = true then
      if d.slotOk 2 (d.attic 2) = true then
        (d.slotSave (recOf (recFwAct d.slotRecord) (recFwPend d.slotRecord) (recTrial d.slotRecord)
          (recPgAct d.slotRecord) true)).resetAsk 11
      else { d with tw := { d.tw with newImg := false } }
    else d := if_neg (by simp [h])

/-! ### Bring-up and full service (R533, R534) -/

theorem Dev.bringUp_done (h : d.bit Reg.LIM_STAT 0 = true) (found : Option (Byte × List EnumNode × BitVec 24)) :
    d.bringUp found = d := if_pos h

theorem Dev.bringUp_runs {e f : Dev} {c : Option Nat} {found : Option (Byte × List EnumNode × BitVec 24)}
    (h : d.bit Reg.LIM_STAT 0 = false) (he : d.romSetup found = e) (hb : e.slotBoot = (f, c)) : d.bringUp found =
      if e.bit Reg.SVC_STAT 3 = true then (f.wr Reg.SYS_FWVER 0).wr Reg.SYS_COMPAT 0
      else f.romChoice (recFwAct e.slotRecord) c := by
  subst he
  refine (if_neg (by simp [h])).trans ?_
  simp only [hb]

theorem Dev.fullService_ignored (h : d.pwrState ≠ 1 ∨ d.pwr.full = true ∨ d.bit Reg.LIM_STAT 0 = false) :
    d.fullService = d := if_pos (by simpa [or_assoc] using h)

theorem Dev.fullService_reached {a b c f g : Dev} (hst : d.pwrState = 1) (hfull : d.pwr.full = false)
    (hboot : d.bit Reg.LIM_STAT 0 = true)
    (ha : { d with pwr := { d.pwr with full := true }, ang := { d.ang with started := true } } = a)
    (hb : ((a.setFld Reg.PWR_STAT 15 13 (if a.bit Reg.HLT_STAT 1 = true then 3 else 2)).setBit Reg.HLT_STAT 0
      (a.bit Reg.HLT_STAT 1)).heldTake.blkAll = b)
    (hg : ((if b.managed.any (fun m => blockOf m.1 = 9) = true then b.mapSave
      else b).stoLoad.angReturn.programLoad.programSet.regionsSet) = g)
    (hc : (if g.cycStarts = 0 then g else g.ttBuild).setBit Reg.SCC_CTL 1 true = c)
    (hf : ((List.range 11).foldl (fun (d : Dev) n => d.start (Tm.test n))
      (((((c.canStart 0).canStart 1).canProfileSet).wdtoSend.healTry.start Tm.service).start Tm.window)).homeAll = f) :
    d.fullService = if f.bit Reg.CYC_CTL 4 = true then f.progStart else f := by
  subst ha hb hg hc hf
  exact if_neg (by simp [hst, hfull, hboot])

/-! ### Tests and the ledger (R538, R539) -/

theorem Dev.testRun_notFull (h : d.pwr.full = false) (n : Nat) (pass : Bool) (vals : List (Nat × Int)) :
    d.testRun n pass vals = d := if_pos h

section
variable {n : Nat} {vals : List (Nat × Int)} {a c : Dev} (hfull : d.pwr.full = true)
  (ha : (List.range 11).foldl (fun (d : Dev) k => d.testMissed k) d = a)
  (hc : (if a.slicing && !a.running Tm.sliced then (a.start Tm.sliced).fw 0xC071 [0] else a) = c)
include hfull ha hc

theorem Dev.testRun_noWindow (h : c.testOk n = false ∨ c.bit Reg.TT_STAT 5 = false ∧ c.slicing = false) (pass : Bool) :
    d.testRun n pass vals = c := by
  subst ha hc
  exact (if_neg (by simp [hfull])).trans (if_pos (by simpa using h))

theorem Dev.testRun_runs {e f : Dev} {pass : Bool} (hok : c.testOk n = true)
    (hwin : c.bit Reg.TT_STAT 5 = true ∨ c.slicing = true)
    (hf : ({ c.start (Tm.test n) with
      hlt := { c.hlt with
        missed := putB c.hlt.missed n false
        vals := if n = 3 then c.hlt.vals else c.hlt.vals ++ vals } } : Dev) = f)
    (he : (if n = 3 then f.limTestAll (if pass = true then [] else vals) else if n = 5 then f.scrub else f) = e) :
    d.testRun n pass vals = if pass = true then e else (e.wr Reg.HLT_TESTSTAT (nw (0x80000000 + n))).fw 0xC070 [nw n] := by
  have hwindow : ¬ (c.testOk n = false || !(c.bit Reg.TT_STAT 5 || c.slicing)) = true := by
    rcases hwin with h | h <;> simp [hok, h]
  subst ha hc
  refine (if_neg (by simp [hfull])).trans ((if_neg hwindow).trans ?_)
  subst hf
  by_cases h3 : n = 3
  · subst h3 he
    rfl
  · simp only [if_neg h3] at he ⊢
    subst he
    rfl

end

theorem Dev.ledgerDaily_waits (h : d.pwr.full = false ∨ d.bit Reg.TT_STAT 5 = false ∨
    (d.rd Reg.PWR_OPT_LO).toNat + 2 ^ 32 * d.fld Reg.PWR_OPT_HI 15 0 < d.hlt.dayAt + 86400000) : d.ledgerDaily = d :=
  if_pos (by simpa [or_assoc] using h)

/-- The module after the daily record and the plans of its quantities. -/
def Dev.dayClosed (f : Dev) (eol : Option Nat) (ms : Nat) : Dev :=
  let g := f.wr Reg.HLT_EOL (nw (min 65535 (eol.getD 65535)))
  { g with hlt := { g.hlt with vals := [], hist := [], dayAt := ms }, scc := { g.scc with tests := [] } }

theorem Dev.ledgerDaily_records {ms : Nat} {a c f : Dev} {eol : Option Nat} (hfull : d.pwr.full = true)
    (hwin : d.bit Reg.TT_STAT 5 = true)
    (hms : (d.rd Reg.PWR_OPT_LO).toNat + 2 ^ 32 * d.fld Reg.PWR_OPT_HI 15 0 = ms) (hday : d.hlt.dayAt + 86400000 ≤ ms)
    (ha : d.mramWrite (ledgerAt (d.ledgerW 1)) d.ledgerRecord = a)
    (hc : (a.ledgerSave (d.ledgerW 1 + 1) (if d.ledgerW 1 = 0 then d.ledgerRecord else a.ledgerFirst)).fw 0xC060 [] = c)
    (hf : (List.range 7).foldl (fun (x : Dev × Option Nat) i => (((x.1.planOne (d.ledgerW 1 + 1) (i + 1)).1),
      sooner x.2 (x.1.planOne (d.ledgerW 1 + 1) (i + 1)).2)) (c, none) = (f, eol)) :
    d.ledgerDaily = f.dayClosed eol ms := by
  subst hms ha hc
  unfold Dev.ledgerDaily
  -- With the list of quantities opaque nothing computes the seven plans.
  generalize List.range 7 = quantities at hf ⊢
  have hplans : ∀ F : Dev × Option Nat → Nat → Dev × Option Nat, (∀ x i, F x i =
      ((x.1.planOne (d.ledgerW 1 + 1) (i + 1)).1, sooner x.2 (x.1.planOne (d.ledgerW 1 + 1) (i + 1)).2)) →
        quantities.foldl F (_, none) = (f, eol) :=
    fun F hF => (List.foldl_ext _ _ _ fun x i _ => hF x i).trans hf
  refine (if_neg (by simp [hfull, hwin]; omega)).trans ?_
  dsimp only
  rw [hplans _ fun x i => rfl]
  rfl

/-! ### Register writes by address (R7, R28, R315) -/

/-- A write that no peripheral word takes: a pair takes an exception, a session is ignored. -/
def Dev.refuseWrite (d : Dev) (src : Writer) (a : Word) (code sub : Nat) : Dev :=
  match src with
  | .system => d.raise .system code sub (some (nw a.toNat))
  | .program => d.raise .program code sub (some (nw a.toNat))
  | .session => d

theorem Dev.registerWrite_misaligned {a : Word} (h : a.toNat % 4 ≠ 0) (src : Writer) (v : Word) :
    d.registerWrite src a.toNat v = d.refuseWrite src a 4 0 := if_pos (by simpa using h)

theorem Dev.registerWrite_outside {a : Word} (ha : a.toNat % 4 = 0) (h : isPeriph a.toNat = false ∨ blockOf a.toNat = 27)
    (src : Writer) (v : Word) : d.registerWrite src a.toNat v = d.refuseWrite src a 6 2 :=
  (if_neg (by simp [ha])).trans (if_neg (by rcases h with h | h <;> simp [h]))

/-! ### The front LEDs (R554) -/

theorem Dev.led_nil (d : Dev) : d.led [] = .dark := by
  simp [Dev.led]

section
variable (h0 : d.pwrState ≠ 0) (h5 : d.pwrState ≠ 5) (h6 : d.pwrState ≠ 6)
include h0 h5 h6

/-- Outside Standby and Off an LED shows the first row that applies. -/
theorem Dev.led_cons (b : Bool) (p : Led) (l : List (Bool × Led)) :
    d.led ((b, p) :: l) = if b = true then p else d.led l := by
  cases b <;> simp [Dev.led, h0, h5, h6]

theorem Dev.ledRun_eq : d.ledRun = if d.pwrState = 2 then .steady
    else if d.pwrState = 3 ∨ d.pwrState = 4 then .hz4 else if d.pwrState = 1 ∨ d.pwrState = 7 then .hz1 else .dark := by
  simp [Dev.ledRun, Dev.led_cons h0 h5 h6, Dev.led_nil]

theorem Dev.ledFault_eq : d.ledFault = if d.rd Reg.LIM_CRIM ≠ 0 ∨ d.sccState = 5 then .steady
    else if d.rd Reg.LIM_OCHRE ≠ 0 then .hz1 else .dark := by
  simp [Dev.ledFault, Dev.led_cons h0 h5 h6, Dev.led_nil]

theorem Dev.ledRole_eq : d.ledRole = if d.role = 3 then .double else if d.role = 1 then .steady
    else if d.role = 2 ∧ d.smode = 1 then .hz1 else if d.role = 2 then .hz4 else .dark := by
  simp [Dev.ledRole, Dev.led_cons h0 h5 h6, Dev.led_nil]

theorem Dev.ledForce_eq : d.ledForce = if d.bit Reg.CYC_STAT 10 = true then .steady else .dark := by
  simp [Dev.ledForce, Dev.led_cons h0 h5 h6, Dev.led_nil]

theorem Dev.ledService_eq : d.ledService = if d.pwrState = 7 then .hz4 else if d.svc.stage ≠ none then .hz1
    else if d.bit Reg.SVC_STAT 7 = true then .steady else .dark := by
  simp [Dev.ledService, Dev.led_cons h0 h5 h6, Dev.led_nil, Option.isSome_iff_ne_none]

end

theorem Dev.led_dark (h : d.pwrState = 0 ∨ d.pwrState = 5 ∨ d.pwrState = 6) (l : List (Bool × Led)) :
    d.led l = .dark := if_pos (by simpa [or_assoc] using h)

end

/-- Settles O57: the power states and their feeds, the causes of resets, bring-up and full service, tests and the daily
record, register writes by address and the LEDs, case by case. -/
theorem powerCommands : Obligations.PowerCommands := by
  unfold Obligations.PowerCommands
  refine ⟨?lost, ?good, ?ride, fun d => ⟨Dev.flushMode_entered, Dev.flushMode_begins⟩, ?charged, ?bank, ?exhausted,
    ?hold, ?idle, fun d => ⟨Dev.idleEnd_done, Dev.idleEnd_waits⟩, ?wake, ?wakeChg, ?powerOn, ?brownOut,
    fun s src v d hs ht => State.lift_gate hs ht _, fun d e v => ⟨Dev.wdtWrite_restarts, Dev.wdtWrite_stores⟩,
    ?watchdog, ?reset, ?stby, ?rstN, ?cut, ?restart, ?save, ?resync, ?bringUp, ?full, ?die, ?test, ?ledger, ?write,
    ?refused, ?leds, fun d h => ⟨Dev.led_dark h _, Dev.led_dark h _, Dev.led_dark h _, Dev.led_dark h _,
      Dev.led_dark h _⟩⟩
  case lost =>
    intro s fb mv e f
    have hcmd : execFeedLost fb mv s = .next (s.on (s.dev.feedLost fb mv.toNat)) := rfl
    exact ⟨fun he h => State.next_on_eq hcmd (Dev.feedLost_alreadyLost he h),
      fun he hwas ha hf h => State.next_on_eq hcmd ((Dev.feedLost_loses he hwas ha hf).trans
        (if_pos (by simpa using h))),
      fun he hwas ha hf hg hh => State.next_on_eq hcmd ((Dev.feedLost_loses he hwas ha hf).trans
        (if_neg (by simp [hg, hh])))⟩
  case good =>
    intro s fb mv e f
    have hcmd : execFeedGood fb mv s = .next (s.on (s.dev.feedGood fb mv.toNat)) := rfl
    exact ⟨fun he hwas => State.next_on_eq hcmd (Dev.feedGood_alreadyGood he hwas),
      fun he hwas hf ha => State.next_on_eq hcmd ((Dev.feedGood_returns he hwas hf).trans (if_pos ha)),
      fun he hwas hf ha => State.next_on_eq hcmd ((Dev.feedGood_returns he hwas hf).trans (if_neg (by simp [ha])))⟩
  case ride =>
    intro s hs
    have hcmd := (State.lift_awake hs _ : execRideExpiry s = _)
    exact ⟨fun hst hdue => State.next_on_eq hcmd (if_pos (by simp [hst, hdue])),
      fun h => State.next_on_eq hcmd (if_neg (by rcases h with h | h <;> simp [h]))⟩
  case charged =>
    intro s hs
    have hcmd := (State.lift_awake hs _ : execBankCharged s = _)
    exact ⟨fun h => State.next_on_eq hcmd (if_pos h), fun h => State.next_on_eq hcmd (if_neg h)⟩
  case bank =>
    intro s hs
    have hcmd := (State.lift_awake hs _ : execBankNvClose s = _)
    exact ⟨fun h => State.next_on_eq hcmd (Dev.bankClose_ignored h),
      fun hst h => State.next_on_eq hcmd (Dev.bankClose_closes hst h)⟩
  case exhausted =>
    intro s e hs
    have hcmd := (State.lift_awake hs _ : execBankExhausted s = _)
    exact ⟨fun h => State.next_on_eq hcmd (Dev.bankOut_otherState h),
      fun h he => State.next_on_eq hcmd (Dev.bankOut_goesOff h he)⟩
  case hold =>
    intro s hs
    have hcmd := (State.lift_awake hs _ : execHoldUpReturn s = _)
    exact ⟨fun hst h => State.next_on_eq hcmd (Dev.holdReturn_leaves hst h),
      fun hst => State.next_on_eq hcmd (Dev.holdReturn_otherState hst)⟩
  case idle =>
    intro s hs
    have hcmd := (State.lift_awake hs _ : execStandbyIdleEntry s = _)
    exact ⟨fun h2 h3 => State.next_on_eq hcmd (Dev.idleEntry_otherState h2 h3),
      fun hst h3 => State.next_on_eq hcmd ((Dev.idleEntry_runs hst).trans (if_pos h3)),
      fun hst h0 hn hok hdue => State.next_on_eq hcmd ((Dev.idleEntry_runs hst).trans
        ((if_neg (by simp [h0])).trans (if_pos (by simp [h0, hn, hok, hdue])))),
      fun hst h3 h => State.next_on_eq hcmd ((Dev.idleEntry_runs hst).trans
        ((if_neg h3).trans (if_neg (by rcases h with h | h | h | h <;> simp [h]))))⟩
  case wake =>
    intro s q a e
    have hcmd : execStandbyWake q a s = .next (s.on (s.dev.wakeBy q.toNat a.toNat)) := rfl
    exact ⟨fun he hok hst hq hen => State.next_on_eq hcmd (Dev.wakeBy_idle he hok hst hq hen),
      fun he hok hst hsrc => State.next_on_eq hcmd (Dev.wakeBy_transport he hok hst hsrc),
      fun he h5 h6 => State.next_on_eq hcmd (Dev.wakeBy_otherState he h5 h6)⟩
  case wakeChg =>
    intro s x
    refine ⟨?_, ?_⟩ <;> rintro rfl <;> rfl
  case powerOn =>
    intro s
    have hcmd : execPowerOn s = .next (s.on s.dev.powerOn) := rfl
    exact ⟨fun h => State.next_on_eq hcmd (Dev.powerOn_ignored h),
      fun hst hcut hf => State.next_on_eq hcmd (Dev.powerOn_resets hst hcut hf)⟩
  case brownOut =>
    intro s hs
    have hcmd := (State.lift_awake hs _ : execBrownOut s = _)
    exact ⟨fun h => State.next_on_eq hcmd (if_pos h), fun h => State.next_on_eq hcmd (if_neg (by simp [h]))⟩
  case watchdog =>
    intro s hs
    have hcmd := (State.lift_awake hs _ : execWatchdogExpiry s = _)
    exact ⟨fun hn hdue => State.next_on_eq hcmd (if_pos (by simp [hn, hdue])),
      fun h => State.next_on_eq hcmd (if_neg (by rcases h with h | h <;> simp [h]))⟩
  case reset =>
    intro s src v d hs ht
    have hcmd := (State.lift_gate hs ht _ : execSoftwareReset src v s = _)
    exact State.next_on_eq hcmd (Dev.pwrCtl_reset (by rw [bitOf_withBit v (by decide), if_pos rfl]))
  case stby =>
    intro s src v d hs ht
    have hcmd := (State.lift_gate hs ht _ : execStby src v s = _)
    have h0 : bitOf (withBit v 4 true) 0 = bitOf v 0 := by rw [bitOf_withBit v (by decide), if_neg (by decide)]
    exact ⟨fun h => State.next_on_eq hcmd (Dev.pwrCtl_standby (h0.trans h)
        (by rw [bitOf_withBit v (by decide), if_pos rfl])),
      fun h => State.next_on_eq hcmd (Dev.pwrCtl_reset (h0.trans h))⟩
  case rstN =>
    intro s x
    have hcmd : execRstNReset x s = .next (s.on (s.dev.rstN x)) := rfl
    exact ⟨fun hx => State.next_on_eq hcmd (if_pos hx),
      fun hx ha => State.next_on_eq hcmd ((if_neg (by simp [hx])).trans (if_pos ha)),
      fun hx ha => State.next_on_eq hcmd ((if_neg (by simp [hx])).trans (if_neg (by simp [ha])))⟩
  case cut =>
    intro s e
    have hcmd : execThermalCut s = .next (s.on s.dev.thermalCut) := rfl
    exact ⟨fun h => State.next_on_eq hcmd (Dev.thermalCut_off h),
      fun h he => State.next_on_eq hcmd (Dev.thermalCut_cuts h he)⟩
  case restart =>
    intro s
    have hcmd : execThermalRestart s = .next (s.on s.dev.thermalRestart) := rfl
    exact ⟨fun hst hcut hf => State.next_on_eq hcmd (if_pos (by simp [hst, hcut, hf])),
      fun h => State.next_on_eq hcmd (if_neg (by rcases h with h | h | h <;> simp [h]))⟩
  case save =>
    intro s hs
    have hcmd := (State.lift_awake hs _ : execAlwaysOnSave s = _)
    exact ⟨fun hrun hdue => State.next_on_eq hcmd (if_pos (by simp [hrun, hdue])),
      fun h => State.next_on_eq hcmd (if_neg (by rcases h with h | h <;> simp [h]))⟩
  case resync =>
    intro s hs
    have hcmd := (State.lift_awake hs _ : execTwinResyncReset s = _)
    exact ⟨fun h => State.next_on_eq hcmd (Dev.resyncReset_otherRole h),
      fun h hrun => State.next_on_eq hcmd ((Dev.resyncReset_shade h).trans (if_pos hrun)),
      fun h hrun hnew => State.next_on_eq hcmd ((Dev.resyncReset_shade h).trans
        ((if_neg (by simp [hrun])).trans (if_neg (by simp [hnew])))),
      fun h hrun hnew hbad => State.next_on_eq hcmd ((Dev.resyncReset_shade h).trans
        ((if_neg (by simp [hrun])).trans ((if_pos hnew).trans (if_neg (by simp [hbad]))))),
      fun h hrun hnew hok => State.next_on_eq hcmd ((Dev.resyncReset_shade h).trans
        ((if_neg (by simp [hrun])).trans ((if_pos hnew).trans (if_pos hok))))⟩
  case bringUp =>
    intro s found e f c hs
    have hcmd := (State.lift_awake hs _ : execBringUp found s = _)
    exact ⟨fun h => State.next_on_eq hcmd (Dev.bringUp_done h found),
      fun h he hb => State.next_on_eq hcmd (Dev.bringUp_runs h he hb)⟩
  case full =>
    intro s a b c f g hs
    have hcmd := (State.lift_awake hs _ : execFullService s = _)
    exact ⟨fun h => State.next_on_eq hcmd (Dev.fullService_ignored h),
      fun hst hfull hboot ha hb hg hc hf => State.next_on_eq hcmd
        (Dev.fullService_reached hst hfull hboot ha hb hg hc hf)⟩
  case die =>
    intro s t0 t1 t2 t3 t4 t5 l q kept few t a c e f hs hl hq hkept hfew ht ha hc he hf
    have hcmd := (State.lift_awake hs _ : execDieMeasurement t0 t1 t2 t3 t4 t5 s = _)
    subst hl hq hkept hfew ht ha hc he hf
    exact hcmd
  case test =>
    intro s n pass vals a c e f hs
    have hcmd := (State.lift_awake hs _ : execInServiceTest n pass vals s = _)
    exact ⟨fun h => State.next_on_eq hcmd (Dev.testRun_notFull h _ _ _),
      fun hfull ha hc h => State.next_on_eq hcmd (Dev.testRun_noWindow hfull ha hc h _),
      fun hfull ha hc hok hwin hf he => State.next_on_eq hcmd (Dev.testRun_runs hfull ha hc hok hwin hf he)⟩
  case ledger =>
    intro s ms a c f eol hs
    have hcmd := (State.lift_awake hs _ : execLedgerRecord s = _)
    exact ⟨fun h => State.next_on_eq hcmd (Dev.ledgerDaily_waits h),
      fun hfull hwin hms hday ha hc hf => State.next_on_eq hcmd
        (Dev.ledgerDaily_records hfull hwin hms hday ha hc hf)⟩
  case write =>
    intro s src a v d hs hp hb ha ht
    rw [exec_registerWrite_aligned src v hs hp hb ha, Dev.gate_takes ht]
  case refused =>
    intro s src a v hs
    have hcmd := (State.lift_awake hs _ : execRegisterWrite src a v s = _)
    refine ⟨fun h hsrc => ?_, fun h hsrc => ?_, fun h ho hsrc => ?_, fun h ho hsrc => ?_, fun h hsrc => ?_⟩
    · subst hsrc
      exact State.next_on_eq hcmd (Dev.registerWrite_misaligned h _ _)
    · subst hsrc
      exact State.next_on_eq hcmd (Dev.registerWrite_misaligned h _ _)
    · subst hsrc
      exact State.next_on_eq hcmd (Dev.registerWrite_outside h ho _ _)
    · subst hsrc
      exact State.next_on_eq hcmd (Dev.registerWrite_outside h ho _ _)
    · subst hsrc
      by_cases ha : a.toNat % 4 = 0
      · exact State.next_on_eq hcmd (Dev.registerWrite_outside ha (h.resolve_left (not_not.mpr ha)) _ _)
      · exact State.next_on_eq hcmd (Dev.registerWrite_misaligned ha _ _)
  case leds =>
    intro d h0 h5 h6
    have hrun := Dev.ledRun_eq h0 h5 h6
    have hfault := Dev.ledFault_eq h0 h5 h6
    have hrole := Dev.ledRole_eq h0 h5 h6
    have hservice := Dev.ledService_eq h0 h5 h6
    exact ⟨fun h => hrun.trans (if_pos h),
      fun h => hrun.trans ((if_neg (by omega)).trans (if_pos h)),
      fun h => hrun.trans ((if_neg (by omega)).trans ((if_neg (by omega)).trans (if_pos h))),
      fun h => hfault.trans (if_pos h),
      fun hc hs ho => hfault.trans ((if_neg (by simp [hc, hs])).trans (if_pos ho)),
      fun h => hrole.trans (if_pos h),
      fun h => hrole.trans ((if_neg (by omega)).trans (if_pos h)),
      fun h hm => hrole.trans ((if_neg (by omega)).trans ((if_neg (by omega)).trans (if_pos ⟨h, hm⟩))),
      fun h hm => hrole.trans ((if_neg (by omega)).trans ((if_neg (by omega)).trans
        ((if_neg (by simp [hm])).trans (if_pos h)))),
      fun h => hrole.trans (by simp [h]),
      fun h => (Dev.ledForce_eq h0 h5 h6).trans (if_pos h),
      fun h => hservice.trans (if_pos h),
      fun h hst => hservice.trans ((if_neg h).trans (if_pos hst)),
      fun h hst hopen => hservice.trans ((if_neg h).trans ((if_neg (by simp [hst])).trans (if_pos hopen)))⟩

end Sys2Proof.Machine
end
